-- ==== Sys2Proof/Word.lean ====
section
/-!
DEFINITION. The plainest data types of the model: bytes, byte strings, sparse maps held as association lists.
The LQ7400 is a block: it has no machine word of its own; counters of a stated width are Nat with explicit wrapping.
-/
namespace Sys2Proof

/-- One byte (R26: multi-byte fields are little-endian sequences of these). -/
abbrev Byte := BitVec 8

/-- A byte string: a payload, a descriptor, a frame. -/
abbrev Bytes := List Byte

/-- A sparse map by a natural key: keys strictly rising, no two pairs with one key. -/
abbrev AMap (α : Type) := List (Nat × α)

end Sys2Proof
end

