-- ==== Sys2Proof/Syntax.lean ====
section
/-!
DEFINITION. The commands of the LQ7400: one constructor per row of spec/opcode_table.json.
A Campel command carries its request (Call); a register access carries what is written; an event of the part or of its
surroundings carries what happened (a measured time, a level, a received frame).
-/
namespace Sys2Proof

/-- A Campel request put into MB_REQ and started by its doorbell (R191): a header of Table TEN.6 whose CRC is right,
whose TENANT is the transport's tenant and whose FORWARD flag is clear, and its payload. -/
structure Call where
  /-- the requesting tenant, the tenant of the transport -/
  t : Fin 8
  /-- the transport: true is the management SPI port -/
  spi : Bool := false
  /-- SEQUENCE, 16 bits -/
  seq : Nat := 0
  /-- FLAGS.ASYNC_OK -/
  asyncOk : Bool := false
  /-- the payload, 0 to 240 bytes -/
  payload : Bytes := []
  deriving DecidableEq, Repr

/-- A bit of a Spar memory that flips, so that its word's parity is wrong (R313): 0 control store, 1 dispatch table,
2 program memory (bank * 1024 + address), 3 scratch memory. -/
structure Flip where
  memory : Fin 4
  addr : Nat
  deriving DecidableEq, Repr

/-- A frame that arrives on a Declin lane (R881): its START fields, its payload as received, and what the lane's receiver
found (R884). -/
structure LaneRx where
  /-- the lane: 0 CU, 1 CD -/
  lane : Fin 2
  /-- FSEQ, 16 bits -/
  fseq : Nat := 0
  /-- ENCRYPTED -/
  encrypted : Bool := false
  /-- destination position -/
  dest : Fin 8 := 0
  /-- origin position -/
  origin : Fin 8 := 0
  /-- the END block's CRC holds -/
  crcOk : Bool := true
  /-- a block error occurred within the frame -/
  blockErr : Bool := false
  /-- the payload, as received -/
  payload : Bytes := []
  deriving DecidableEq, Repr

/-- An AUTHENTICATION TLV as received (R460, R461): its fields, the bytes its ICV covers, and the ICV. -/
structure PtpAuth where
  spp : Nat := 0
  secParam : Nat := 0
  keyId : Nat := 0
  covered : Bytes := []
  icv : Bytes := []
  deriving DecidableEq, Repr

/-- A PTP message received on a port, for the port's instance and domain: its source, sequenceId, correctionField in
2^-16 ns, AUTHENTICATION TLV, and its arrival timestamp at the SerDes balls (R370). -/
structure PtpRx where
  /-- sourcePortIdentity, 10 bytes -/
  srcId : Bytes := []
  /-- source MAC address, 6 bytes -/
  mac : Bytes := []
  /-- source IP address, 16 bytes; IPv4 in the first four -/
  addr : Bytes := []
  /-- it came by multicast -/
  multicast : Bool := false
  seq : Nat := 0
  corr : Int := 0
  auth : Option PtpAuth := none
  sec : Nat := 0
  ns : Nat := 0
  frac : Nat := 0
  deriving DecidableEq, Repr

/-- What an Announce message carries (R450, R452). -/
structure PtpAnn where
  gmId : Bytes := []
  gmClass : Nat := 0
  gmAccuracy : Nat := 0
  gmVariance : Nat := 0
  gmPriority1 : Nat := 0
  gmPriority2 : Nat := 0
  steps : Nat := 0
  ptpTimescale : Bool := true
  utcValid : Bool := true
  utcOffset : Int := 0
  leap61 : Bool := false
  leap59 : Bool := false
  deriving DecidableEq, Repr

/-- The commands, in the order of the table. -/
inductive Instr where
  /-- MB_DOORBELL (R191): A doorbell write submits the request held in MB_REQ, or sets REFUSED while a request is outstanding. Operands: tenant, transport (true: SPI), the word written. -/
  | mbDoorbell (t : Fin 8) (spi : Bool) (value : BitVec 32)
  /-- ASYNC_COMPLETION (R206): When accepted work ends, an ASYNC_COMPLETION EVENT descriptor carries its token and final status. Operands: tenant, or 8 for work of a tenant that was reset, token, the status the work failed with if the part's surroundings made it fail, what the work measured: of a BRC_NVM_RETEST the journal slots found failing, of a CHN_CAL its figures, of a REC_READ the sectors read good, of a CHN_DEFECT_ADD whether the spare is good. -/
  | asyncCompletion (t : Fin 9) (token : Nat) (fail : Option Nat) (measured : List Int)
  /-- TEN_RESET_WRITE (R194): A write of 0x0000_5E70 to the TEN_RESET register starts a tenant reset of the own tenant. Operands: tenant, the word written. -/
  | tenResetWrite (t : Fin 8) (value : BitVec 32)
  /-- TENANT_RESET_COMPLETE (R215): A tenant reset completes when its work has ended or 100 ms have passed, and the tenant becomes READY or ABSENT. Operands: tenant. -/
  | tenantResetComplete (t : Fin 8)
  /-- FUNCTION_LEVEL_RESET (R213): A function-level reset of PCIe function t starts a tenant reset of tenant t. Operands: PCIe function. -/
  | functionLevelReset (t : Fin 8)
  /-- PERST_N (R213): PERST_N assertion or a PCIe hot reset starts a tenant reset of every READY or FAULTED tenant that the SPI port does not serve. Operands: true: a PCIe hot reset; false: PERST_N goes low. -/
  | perstN (hot : Bool)
  /-- TIME_LATCH (R90): A write of 1 copies the host island counter and TIME_STATE into that tenant's snapshot registers. Operands: tenant, the word written. -/
  | timeLatch (t : Fin 8) (value : BitVec 32)
  /-- IRQ_RAW_CLEAR (R247): A W1C write clears latched bits, except where a hardware set in the same cycle wins. Operands: tenant, register index, the word written, the sources hardware raises in the same cycle. -/
  | irqRawClear (t : Fin 8) (n : Fin 4) (value : BitVec 32) (raised : List (Fin 128))
  /-- IRQ_MASK_WRITE (R258): A mask write clears or creates pending bits, and an unmasked latched source goes pending. Operands: tenant, register index, the word written. -/
  | irqMaskWrite (t : Fin 8) (n : Fin 4) (value : BitVec 32)
  /-- IRQ_FORCE (R243): Writing 1 raises a visible source in the writing view only, as a hardware raise does. Operands: tenant, register index, the word written. -/
  | irqForce (t : Fin 8) (n : Fin 4) (value : BitVec 32)
  /-- VECTOR_UNMASK (R266): Unmasking an MSI-X vector with its pending-bit array bit set sends one message. Operands: function, vector. -/
  | vectorUnmask (t : Fin 8) (v : Fin 16)
  /-- RING_TAIL_WRITE (R158): A tenant write of TAIL on a SUBMIT ring produces entries, or is ignored and sets BAD_PTR. Operands: tenant, ring, the word written. -/
  | ringTailWrite (t : Fin 8) (ring : Fin 32) (value : BitVec 32)
  /-- RING_HEAD_WRITE (R158): A tenant write of HEAD on a device-produced ring consumes entries, or is ignored and sets BAD_PTR. Operands: tenant, ring, the word written. -/
  | ringHeadWrite (t : Fin 8) (ring : Fin 32) (value : BitVec 32)
  /-- BRC_READ_SEQ_LO (R849): A write starts a fetch of the named record into the recorder read window. Operands: tenant, the word written. -/
  | brcReadSeqLo (t : Fin 8) (value : BitVec 32)
  /-- BRC_DATA15_READ (R850): With AUTO set, a read of BRC_DATA15 advances BRC_READ_SEQ and starts the next fetch. Operands: tenant. -/
  | brcData15Read (t : Fin 8)
  /-- REGISTER_WRITE (R19): A write to a register without behaviour of its own sets RW fields and is ignored for RO fields. Operands: tenant, BAR0 offset, the word written. -/
  | registerWrite (t : Fin 8) (off : Nat) (value : BitVec 32)
  /-- REG_WRITE (R196): An SPI REG_WRITE transaction writes whole 32-bit words to the served tenant's registers. Operands: the address sent, the data bytes sent. -/
  | regWrite (addr : Nat) (data : Bytes)
  /-- REG_READ (R196): An SPI REG_READ transaction returns register words until MS_CS_N rises. Operands: the address sent, the data bytes clocked out. -/
  | regRead (addr : Nat) (len : Nat)
  /-- STATUS (R195): An SPI STATUS transaction returns the port status byte alone. Operands: the command byte: 0x05, or one that Table TEN.5 does not give or whose transaction ends before its address. -/
  | status (cmd : BitVec 8)
  /-- LOFT_WRITE (R198): An SPI LOFT_WRITE transaction writes bytes of a yealm as an aperture access. Operands: handle and offset sent, the data bytes sent. -/
  | loftWrite (handle : BitVec 32) (off : Nat) (data : Bytes)
  /-- LOFT_READ (R198): An SPI LOFT_READ transaction reads bytes of a yealm after the start byte 0xA5. Operands: handle and offset sent, the data bytes clocked out. -/
  | loftRead (handle : BitVec 32) (off : Nat) (len : Nat)
  /-- APERTURE_READ (R153): A BAR2 read returns a yealm of the tenant, or zeros and a foreign-aperture count. Operands: function, BAR2 offset, bytes, a memory error met in the first granule read (some true: double-bit). -/
  | apertureRead (t : Fin 8) (off : Nat) (len : Nat) (ecc : Option Bool)
  /-- APERTURE_WRITE (R154): A BAR2 write reaches a yealm of the tenant, or has no effect and is counted. Operands: function, BAR2 offset, the bytes written. -/
  | apertureWrite (t : Fin 8) (off : Nat) (data : Bytes)
  /-- SUBMIT_CONSUME (R159): The LQ7400 consumes the next SUBMIT entry once every bound allows, reading the descriptor once. Operands: the SUBMIT ring whose next entry is read. -/
  | submitConsume (ring : Fin 32)
  /-- RING_ATTENTION (R164): Ring attention is raised when an entry has waited TIMEOUT_US or when COUNT is reached. Operands: ring, the time its oldest entry has waited. -/
  | ringAttention (ring : Fin 32) (waitedUs : Nat)
  /-- SUBMIT_NOP (R167): A NOP descriptor completes OK. Operands: the SUBMIT ring whose next entry is of this class. -/
  | submitNop (ring : Fin 32)
  /-- LOFT_DMA_IN (R167): A LOFT_DMA_IN descriptor copies host memory into a yealm. Operands: the SUBMIT ring whose next entry is of this class. -/
  | loftDmaIn (ring : Fin 32)
  /-- LOFT_DMA_OUT (R167): A LOFT_DMA_OUT descriptor copies yealm bytes to host memory. Operands: the SUBMIT ring whose next entry is of this class. -/
  | loftDmaOut (ring : Fin 32)
  /-- NET_SEND (R372): A NET_SEND descriptor queues a frame from yealms for sending on a port. Operands: the SUBMIT ring whose next entry is of this class. -/
  | netSend (ring : Fin 32)
  /-- DISK_READ (R607): A DISK_READ descriptor reads COUNT sectors into yealms. Operands: the SUBMIT ring whose next entry is of this class. -/
  | diskRead (ring : Fin 32)
  /-- DISK_WRITE (R624): A DISK_WRITE descriptor writes COUNT sectors, each stamped and verified. Operands: the SUBMIT ring whose next entry is of this class. -/
  | diskWrite (ring : Fin 32)
  /-- DISK_STAMP_READ (R609): A DISK_STAMP_READ descriptor reads only the stamps of COUNT sectors. Operands: the SUBMIT ring whose next entry is of this class. -/
  | diskStampRead (ring : Fin 32)
  /-- CAS_COPY (R907): A CAS_COPY descriptor copies between a local yealm and a yealm on another module. Operands: the SUBMIT ring whose next entry is of this class. -/
  | casCopy (ring : Fin 32)
  /-- SYS_GET_INFO (R221): Returns the identity, mode, tenant state, module count, release, boot epoch and uptime. Operands: the request. -/
  | sysGetInfo (c : Call)
  /-- SYS_SET_MODE (R1001): Tenant 0 commands a mode change; another tenant's request is passed to tenant 0. Operands: the request. -/
  | sysSetMode (c : Call)
  /-- SHELF_STOP_TIMEOUT (R1004): When channel A has not stopped 30 s into SHELF entry, the emergency stop is applied. Operands: seconds into entry to SHELF. -/
  | shelfStopTimeout (forS : Nat)
  /-- MODE_CHANGE_COMPLETE (R1001): A mode change completes, CHANGING clears and MODE_CHANGED is written. Operands: no operand. -/
  | modeChangeComplete
  /-- SYS_ECHO (R221): Returns the request payload bytes unchanged. Operands: the request. -/
  | sysEcho (c : Call)
  /-- TEN_RESET (R223): The TEN_RESET command starts a tenant reset of the own tenant, or of another tenant when issued by tenant 0. Operands: the request. -/
  | tenReset (c : Call)
  /-- SVC_ASSIGN (R218): Tenant 0 assigns a service's owner and read rights. Operands: the request. -/
  | svcAssign (c : Call)
  /-- TEN_ENABLE (R224): Tenant 0 enables a tenant, or disables it through a tenant reset. Operands: the request. -/
  | tenEnable (c : Call)
  /-- TEN_GET_STATUS (R221): Returns a tenant's state, ownership, rights and counts. Operands: the request. -/
  | tenGetStatus (c : Call)
  /-- SVC_GET (R221): Returns the owner and rights mask of each service. Operands: the request. -/
  | svcGet (c : Call)
  /-- TEN_FAULT (R210): Tenant 0 forces a tenant into FAULTED with cause FORCED. Operands: the request. -/
  | tenFault (c : Call)
  /-- SYS_SUPPLY_CONFIG (R991): Tenant 0 sets PFAIL_MV. Operands: the request. -/
  | sysSupplyConfig (c : Call)
  /-- SYS_SUPPLY_STATUS (R1018): Returns the supply, rail, VAUX, temperature and PFAIL status. Operands: the request. -/
  | sysSupplyStatus (c : Call)
  /-- LOFT_ALLOC (R171): Allocates all COUNT yealms to the tenant or none. Operands: the request. -/
  | loftAlloc (c : Call)
  /-- LOFT_FREE (R172): Frees each handle in order under the checks of R132. Operands: the request. -/
  | loftFree (c : Call)
  /-- RING_OPEN (R173): Opens a ring of a given type and depth for the tenant. Operands: the request. -/
  | ringOpen (c : Call)
  /-- RING_CLOSE (R174): Closes a ring, discarding unconsumed entries, or answers ACCEPTED while consumed work is in flight. Operands: the request. -/
  | ringClose (c : Call)
  /-- LOFT_QUOTA_SET (R138): Tenant 0 sets a tenant's quota, ingress limit and ring limit. Operands: the request. -/
  | loftQuotaSet (c : Call)
  /-- LOFT_GET_STATUS (R175): Returns a tenant's Loft quota, use and counts. Operands: the request. -/
  | loftGetStatus (c : Call)
  /-- OVERLOAD (R143): Once per second while entrances refuse data for a tenant, an OVERLOAD breadcrumb records the refusal counts. Operands: tenant. -/
  | overload (t : Fin 8)
  /-- PATROL_SCRUB (R148): The patrol scrub reads allocated granules, correcting or poisoning them. Operands: yealm index, granule, true for a double-bit error. -/
  | patrolScrub (yealm : Nat) (granule : Fin 64) (double : Bool)
  /-- YEALM_RETIRED (R151): A freed poisoned yealm is tested, and remapped to a spare or retired when the test fails. Operands: yealm index, whether the retirement test passed. -/
  | yealmRetired (yealm : Nat) (pass : Bool)
  /-- IRQ_ROUTE_SET (R255): Tenant 0 sets the route of a range of sources in a view. Operands: the request. -/
  | irqRouteSet (c : Call)
  /-- IRQ_ROUTE_GET (R254): Returns the routes of a range of sources in a view. Operands: the request. -/
  | irqRouteGet (c : Call)
  /-- IRQ_GET_OWNERS (R254): Returns the owning tenant of each of the 128 sources. Operands: the request. -/
  | irqGetOwners (c : Call)
  /-- TIME_GET_STATUS (R109): Returns the DPLL state, selected reference, phase and steering status. Operands: the request. -/
  | timeGetStatus (c : Call)
  /-- TIME_REF_CONFIG (R58): Configures a reference's priority, options, tolerance and qualify time. Operands: the request. -/
  | timeRefConfig (c : Call)
  /-- TIME_DPLL_CONFIG (R65): Configures the DPLL bandwidths, thresholds and flags. Operands: the request. -/
  | timeDpllConfig (c : Call)
  /-- TIME_OSC_CONFIG (R72): Configures the OCXO DAC format, gain, initial code and aging. Operands: the request. -/
  | timeOscConfig (c : Call)
  /-- TIME_SELECT (R64): Forces one reference or restores automatic selection. Operands: the request. -/
  | timeSelect (c : Call)
  /-- TIME_SET (R110): Sets TAI, sets VALID and applies the change as a step. Operands: the request. -/
  | timeSet (c : Call)
  /-- TIME_SET_OFFSETS (R75): Sets and persists the UTC and local offsets. Operands: the request. -/
  | timeSetOffsets (c : Call)
  /-- TIME_SCHEDULE (R76): Sets, replaces or cancels a pending leap-second or local-offset change. Operands: the request. -/
  | timeSchedule (c : Call)
  /-- TIME_GET_OFFSETS (R109): Returns the offsets in force and each pending schedule. Operands: the request. -/
  | timeGetOffsets (c : Call)
  /-- TIME_CADENCE_SET (R98): Sets a cadence output's descriptor, taking effect at a later TAI second boundary. Operands: the request. -/
  | timeCadenceSet (c : Call)
  /-- TIME_CADENCE_GET (R109): Returns a cadence output's descriptor and fault flag. Operands: the request. -/
  | timeCadenceGet (c : Call)
  /-- TIME_TIM_ARM (R111): Sets the edge, mode and reference rate of TIM_IN inputs. Operands: the request. -/
  | timeTimArm (c : Call)
  /-- TIME_TIM_READ (R106): Returns queued TIM_IN results of one input. Operands: the request. -/
  | timeTimRead (c : Call)
  /-- TIME_SPINE_CAL_READ (R109): Returns spine calibration entries of the islands. Operands: the request. -/
  | timeSpineCalRead (c : Call)
  /-- TIME_GNSS_SEND (R55): Sends bytes on GNSS_TXD. Operands: the request. -/
  | timeGnssSend (c : Call)
  /-- TIME_REF_STATUS (R111): Returns the status of one reference. Operands: the request. -/
  | timeRefStatus (c : Call)
  /-- GNSS_SENTENCE (R55): A completed NMEA sentence on GNSS_RXD is checked and used as ZDA or GGA, or discarded and counted. Operands: the characters received, the time since the last GNSS_PPS edge in ms. -/
  | gnssSentence (sentence : Bytes) (ms : Nat)
  /-- GNSS_PPS (R56): A GNSS_PPS rising edge marks the start of a UTC second. Operands: measured phase error in ps. -/
  | gnssPps (err : Int)
  /-- REF_PPS_EDGE (R58): A REFA, REFB PPS or FRAME_IN edge gives phase and is checked against the phase window. Operands: 0 REFA, 1 REFB, 2 FRAME_IN; measured phase error in ps. -/
  | refPpsEdge (ref : Fin 3) (err : Int)
  /-- REF_QUALIFIED (R58): A reference that has been within tolerance for its qualify time becomes qualified. Operands: reference code less 1, seconds it met its requirements, its phase from current time in ps. -/
  | refQualified (ref : Fin 6) (forS : Nat) (err : Int)
  /-- REF_DISQUALIFIED (R58): A reference is disqualified at the first condition of Table TIM.2, including missing edges or sentences. Operands: reference code less 1, the cause by Table TIM.22. -/
  | refDisqualified (ref : Fin 6) (cause : Nat)
  /-- WAIT_TO_RESTORE (R61): With REVERTIVE set, a better reference qualified for the wait-to-restore time is selected. Operands: reference code less 1, seconds it stayed qualified, its phase from current time in ps. -/
  | waitToRestore (ref : Fin 6) (forS : Nat) (err : Int)
  /-- DPLL_UPDATE (R71): Every 10 ms the DPLL updates the steering and sends one 24-bit DAC frame. Operands: measured phase error in ps. -/
  | dpllUpdate (phase : Int)
  /-- DPLL_LOCKED (R65): After 10 s within phase and frequency limits the DPLL goes from ACQUIRE to LOCKED. Operands: phase error in ns, frequency error in 0.001 ppb, how long both held. -/
  | dpllLocked (phaseNs freq forMs : Nat)
  /-- DPLL_PHASE_LOSS (R65): Phase error above 400 ns for 1 s takes the DPLL from LOCKED to ACQUIRE. Operands: phase error in ns, how long it held. -/
  | dpllPhaseLoss (phaseNs forMs : Nat)
  /-- HOLDOVER_LIMIT (R68): After HOLD_LIMIT seconds in HOLDOVER, VALID is cleared and source 63 is raised. Operands: seconds in HOLDOVER. -/
  | holdoverLimit (forS : Nat)
  /-- STEER_LIMIT (R74): A steering code within 1/64 of full scale of either end for 1 s raises source 62. Operands: how long the code stayed near an end. -/
  | steerLimit (forMs : Nat)
  /-- SCHEDULE_INSTANT (R80): At a scheduled TAI instant the new offset takes force, is persisted and raises source 58. Operands: no operand. -/
  | scheduleInstant
  /-- SCHEDULE_WARNING (R82): A pending change coming within 86,400 s raises source 57 or 59. Operands: no operand. -/
  | scheduleWarning
  /-- SPINE_FRAME (R86): Each island checks a received spine frame against its counter. Operands: island ID less 1, the 100 bits received. -/
  | spineFrame (isl : Fin 16) (bits : Nat)
  /-- SPINE_CALIBRATION (R88): Each island's spine offset is measured by loop-back every 1 s and at restart. Operands: island ID less 1, measured offset in 2^-16 ns, uncertainty in ps, whether it follows a restart, whether the loop-back's CRC failed. -/
  | spineCalibration (isl : Fin 16) (offset : Int) (uncert : Nat) (restart crcFail : Bool)
  /-- CADENCE_DESCRIPTOR_APPLY (R98): A new cadence descriptor takes effect at the first TAI second boundary at least 1 ms after the response. Operands: output. -/
  | cadenceDescriptorApply (output : Fin 8)
  /-- TIM_IN_EDGE (R105): A selected edge on an armed TIM_IN input is timestamped and queued. Operands: input, edge, TAI seconds, nanoseconds and fraction of it, pulse width in ps. -/
  | timInEdge (input : Fin 4) (falling : Bool) (sec ns frac widthPs : Nat)
  /-- OSC_IN_LOSS (R1079): With no OSC_IN edge for 4 periods, every reference is disqualified and time becomes not valid. Operands: nominal periods without an edge. -/
  | oscInLoss (periods : Nat)
  /-- OSC_IN_RESTORED (R1079): OSC_IN counts as present again after 1 s within its requirements. Operands: how long OSC_IN has run within its requirements. -/
  | oscInRestored (forMs : Nat)
  /-- SD_REFCLK_LOSS (R1078): Loss of SD_REFCLK holds the links down and stops the channel and radio islands. Operands: the clock is present, its offset in ppm. -/
  | sdRefclkLoss (present : Bool) (ppm : Int)
  /-- SD_REFCLK_RESTORED (R1078): Restored SD_REFCLK starts each island, measures it and opens its crossings. Operands: its offset in ppm. -/
  | sdRefclkRestored (ppm : Int)
  /-- VIN_WAKE (R985): VIN at or above 10.5 V for 1 ms starts a device reset and boot. Operands: VIN in mV and how long it held, whether VIN had been below 8.0 V, the strap levels BOOT_SEL, CASC_ROLE and MS_MISO. -/
  | vinWake (vin forUs : Nat) (fell : Bool) (bootSel role : Fin 4) (miso : Bool)
  /-- WAKE_N (R985): WAKE_N low for 1 ms in SHELF wakes the LQ7400. Operands: VIN in mV, how long WAKE_N has been low, the strap levels BOOT_SEL, CASC_ROLE and MS_MISO. -/
  | wakeN (vin forUs : Nat) (bootSel role : Fin 4) (miso : Bool)
  /-- RESET_N (R1041): RESET_N low retracts loaded heads, then starts a device reset. Operands: how long RESET_N has been low. -/
  | resetN (forUs : Nat)
  /-- RETRACT_END_RESET (R1041): The device reset begins when the retract made for RESET_N has ended. Operands: the strap levels BOOT_SEL, CASC_ROLE and MS_MISO. -/
  | retractEndReset (bootSel role : Fin 4) (miso : Bool)
  /-- GUARD_POWER_ON_RESET (R989): VIN below 2.2 V asserts the Guard power-on reset and everything but NVM and OTP is lost. Operands: VIN in mV. -/
  | guardPowerOnReset (vin : Nat)
  /-- UNDERVOLTAGE_LOCKOUT (R988): VHOLD below 6.0 V for 2 µs turns off every rail except VGUARD. Operands: VHOLD in mV and how long it held. -/
  | undervoltageLockout (vhold forUs : Nat)
  /-- BOOT_IMAGE_CHECK (R276): The fetched image is checked in Table BOT.7 order, and the other slot or RECOVERY follows a failure. Operands: copies A and B of the disk source, whether the source met a read error, the Spars whose base store fails its read-back. -/
  | bootImageCheck (copies : List Bytes) (readError : Bool) (bad : List (Fin 3))
  /-- CAMPEL_START_TIMEOUT (R308): A Campel section that fails to start within 100 ms counts as a failure with code 1. Operands: the time since Campel was started. -/
  | campelStartTimeout (ms : Nat)
  /-- CASCADE_BOOT_TIMEOUT (R281): A module booting from the cascade enters RECOVERY after 300 s without an image. Operands: seconds waited for the image. -/
  | cascadeBootTimeout (forS : Nat)
  /-- BOOT_COMPLETE (R275): Boot ends: tenants are enabled, deferred alarms are raised and BOOT_COMPLETE is written. Operands: no operand. -/
  | bootComplete
  /-- BOOT_GET_STATUS (R298): Returns the boot stage, source, slot, alarms and epoch state. Operands: the request. -/
  | bootGetStatus (c : Call)
  /-- BOOT_OTP_READ (R286): Returns OTP rows with their flags. Operands: the request. -/
  | bootOtpRead (c : Call)
  /-- BOOT_OTP_PROGRAM (R299): Burns an unprogrammed static OTP region and its CRC row. Operands: the request. -/
  | bootOtpProgram (c : Call)
  /-- BOOT_ROLLBACK_COMMIT (R300): Burns rollback rows up to the running image's SECURITY_VERSION. Operands: the request. -/
  | bootRollbackCommit (c : Call)
  /-- BOOT_PUSH_DONE (R306): Announces an image pushed into the push area and checks it. Operands: the request. -/
  | bootPushDone (c : Call)
  /-- BOOT_EPOCH_SET (R297): Sets and persists the boot epoch when its state is UNKNOWN or NOT_PERSISTED. Operands: the request. -/
  | bootEpochSet (c : Call)
  /-- BOOT_RESTART (R277): Starts a device reset 1 ms later, optionally from a named source. Operands: the request. -/
  | bootRestart (c : Call)
  /-- BOOT_FLASH_ERASE (R302): Erases a range of the boot flash. Operands: the request. -/
  | bootFlashErase (c : Call)
  /-- BOOT_FLASH_WRITE (R302): Writes bytes of a yealm into the boot flash. Operands: the request. -/
  | bootFlashWrite (c : Call)
  /-- BOOT_SLOT_CHECK (R298): Runs the image checks on a flash slot and reports its Table BOT.7 code. Operands: the request. -/
  | bootSlotCheck (c : Call)
  /-- SPAR_GET_VERSION (R344): Returns each Spar's base version, patch level, state and patch digest. Operands: the request. -/
  | sparGetVersion (c : Call)
  /-- SPAR_GET_STATUS (R344): Returns one Spar's state, bank and machine-check history. Operands: the request. -/
  | sparGetStatus (c : Call)
  /-- SPAR_RELOAD (R345): Reloads a halted Spar from the retained patch records. Operands: the request. -/
  | sparReload (c : Call)
  /-- SPAR_PATCH_CHECK (R346): Runs load steps 2 to 6 on a patch container copy without changing any Spar. Operands: the request. -/
  | sparPatchCheck (c : Call)
  /-- HALT_REQUEST (R326): Line 7 from Campel stops the Spar in IDLE at the next boundary. Operands: the Spar: 0 Formatter, 1 Cadence, 2 Radio. -/
  | haltRequest (spar : Fin 3)
  /-- BANK_SWITCH (R326): Line 6 from Campel makes the other program bank active at the next boundary. Operands: the Spar, the bank switched to, the program Campel wrote into it, the words it put into the inbound queue, the words it took from the outbound queue. -/
  | bankSwitch (spar : Fin 3) (bank : Fin 2) (program inbound : List (BitVec 32)) (taken : Nat)
  /-- NOP (R323): The NOP Spar instruction does nothing. Operands: the Spar, a bit of its memories that flipped. -/
  | nop (spar : Fin 3) (flip : Option Flip)
  /-- JUMP (R323): The JUMP Spar instruction continues at the target instruction. Operands: the Spar, a bit of its memories that flipped. -/
  | jump (spar : Fin 3) (flip : Option Flip)
  /-- JUMP_IF_INBOUND (R323): Jumps when the inbound word queue is not empty. Operands: the Spar, a bit of its memories that flipped. -/
  | jumpIfInbound (spar : Fin 3) (flip : Option Flip)
  /-- WAIT_TICK (R319): Waits until TICK reaches the given time after scratch word 0. Operands: the Spar, a bit of its memories that flipped. -/
  | waitTick (spar : Fin 3) (flip : Option Flip)
  /-- WAIT_EVENT (R319): Waits for an island event in the mask or a timeout. Operands: the Spar, a bit of its memories that flipped. -/
  | waitEvent (spar : Fin 3) (flip : Option Flip)
  /-- SIGNAL (R323): Posts a Spar event code to Campel. Operands: the Spar, a bit of its memories that flipped. -/
  | signal (spar : Fin 3) (flip : Option Flip)
  /-- HALT (R323): The HALT Spar instruction stops the Spar. Operands: the Spar, a bit of its memories that flipped. -/
  | halt (spar : Fin 3) (flip : Option Flip)
  /-- LOOP (R323): Repeats back to the target a given number of times. Operands: the Spar, a bit of its memories that flipped. -/
  | loop (spar : Fin 3) (flip : Option Flip)
  /-- WEDGE_SYNC (R572): Formatter instruction synchronising to an expected wedge number. Operands: a bit of the Spar's memories that flipped. -/
  | wedgeSync (flip : Option Flip)
  /-- HEAD_SELECT (R577): Formatter instruction selecting a head. Operands: a bit of the Spar's memories that flipped. -/
  | headSelect (flip : Option Flip)
  /-- SEEK_START (R575): Formatter instruction starting a seek to a cylinder. Operands: a bit of the Spar's memories that flipped. -/
  | seekStart (flip : Option Flip)
  /-- SETTLE_CHECK (R575): Formatter instruction checking that the required wedges are on track. Operands: a bit of the Spar's memories that flipped. -/
  | settleCheck (flip : Option Flip)
  /-- WRITE_SECTOR (R584): Formatter instruction arming the write and verify gates for a sector slot. Operands: a bit of the Spar's memories that flipped, the TICKs between which the slot's fragment lies under the writer. -/
  | writeSector (flip : Option Flip) (rise fall : BitVec 32)
  /-- READ_SECTOR (R588): Formatter instruction arming the read gate for a sector slot. Operands: a bit of the Spar's memories that flipped, the TICKs between which the slot lies under reader A. -/
  | readSector (flip : Option Flip) (rise fall : BitVec 32)
  /-- VERIFY_SECTOR (R584): Formatter instruction arming reader B for a sector slot. Operands: a bit of the Spar's memories that flipped, the TICKs between which the slot lies under reader B. -/
  | verifySector (flip : Option Flip) (rise fall : BitVec 32)
  /-- SKIP_DEFECT (R563): Formatter instruction skipping a defective slot. Operands: a bit of the Spar's memories that flipped. -/
  | skipDefect (flip : Option Flip)
  /-- EDGE_PLAN (R91): Cadence instruction planning the next edges of an output. Operands: a bit of the Spar's memories that flipped. -/
  | edgePlan (flip : Option Flip)
  /-- LTC_FRAME (R96): Cadence instruction assembling an LTC frame of an output. Operands: a bit of the Spar's memories that flipped. -/
  | ltcFrame (flip : Option Flip)
  /-- PTP_SYNC_LAUNCH (R437): Cadence instruction arming a Sync launch for a follower group. Operands: a bit of the Spar's memories that flipped. -/
  | ptpSyncLaunch (flip : Option Flip)
  /-- PTP_FOLLOW_UP (R432): Cadence instruction arming a Follow_Up launch. Operands: a bit of the Spar's memories that flipped. -/
  | ptpFollowUp (flip : Option Flip)
  /-- PTP_ANNOUNCE (R451): Cadence instruction arming an Announce launch. Operands: a bit of the Spar's memories that flipped. -/
  | ptpAnnounce (flip : Option Flip)
  /-- BAND_STATE (R694): Radio instruction running a band's state machine. Operands: a bit of the Spar's memories that flipped. -/
  | bandState (flip : Option Flip)
  /-- SYNTH_HOP (R686): Radio instruction hopping a synthesizer to a calibration entry. Operands: a bit of the Spar's memories that flipped. -/
  | synthHop (flip : Option Flip)
  /-- TDD_STEP (R701): Radio instruction arming a band's next TDD transition. Operands: a bit of the Spar's memories that flipped. -/
  | tddStep (flip : Option Flip)
  /-- POWER_STEP (R707): Radio instruction applying a power table entry to a path. Operands: a bit of the Spar's memories that flipped. -/
  | powerStep (flip : Option Flip)
  /-- DITHER_CHIP (R734): Radio instruction applying one dither chip to a path. Operands: a bit of the Spar's memories that flipped. -/
  | ditherChip (flip : Option Flip)
  /-- DET_SAMPLE (R710): Radio instruction taking detector samples of a mask. Operands: a bit of the Spar's memories that flipped, the codes of the eight detectors now. -/
  | detSample (flip : Option Flip) (codes : Vector (BitVec 12) 8)
  /-- RFSPI_XFER (R681): Radio instruction starting an RF serial transfer. Operands: a bit of the Spar's memories that flipped. -/
  | rfspiXfer (flip : Option Flip)
  /-- INTERRUPT_VECTOR (R326): An instruction injected through dispatch entry 0xF8 + line for an interrupt line 0 to 5. Operands: the Spar, the line an island event raises, its line data. -/
  | interruptVector (spar : Fin 3) (line : Fin 6) (data : BitVec 24)
  /-- TWAIT_RELEASE (R319): A TWAIT retires when TICK reaches its target. Operands: the Spar, TICK. -/
  | twaitRelease (spar : Fin 3) (tick : BitVec 32)
  /-- EWAIT_RELEASE (R319): An EWAIT retires on a masked event, or with TIMEOUT set when its time elapses. Operands: the Spar, the island events that occur, TICK. -/
  | ewaitRelease (spar : Fin 3) (events : BitVec 8) (tick : BitVec 32)
  /-- SCHED_ACTION (R320): An armed action is performed at its instant by the island's action hardware. Operands: the Spar, the place of the action in its queue, TICK, the disk command's sector (admission, index) that a write gate writes. -/
  | schedAction (spar : Fin 3) (index : Fin 16) (tick : BitVec 32) (sector : Option (Nat × Nat))
  /-- FRAME_RECEIVED (R361): A whole received frame is checked, filtered, classified, admitted and delivered. Operands: port, the frame without its FCS, whether the FCS is right, a PCS error within it, its arrival timestamp. -/
  | frameReceived (p : Fin 6) (data : List (BitVec 8)) (fcsOk pcsErr : Bool) (sec ns frac : Nat)
  /-- XOFF_REPEAT (R383): XOFF is sent again each time half of the previous pause time has passed. Operands: port, ns since the last XOFF. -/
  | xoffRepeat (p : Fin 6) (sinceNs : Nat)
  /-- XON (R383): XON is sent once no frame is held and the buffer holds less than 16 KiB. Operands: port. -/
  | xon (p : Fin 6)
  /-- HELD_FRAME_ADMIT (R383): A held frame is admitted as soon as its refusing condition clears. Operands: port. -/
  | heldFrameAdmit (p : Fin 6)
  /-- HELD_FRAME_TIMEOUT (R383): A frame held for 1 ms is dropped and the next frame is taken. Operands: port, how long the frame has been held. -/
  | heldFrameTimeout (p : Fin 6) (us : Nat)
  /-- PAUSE_RECEIVED (R380): A received PAUSE frame stops the port starting frames for its quanta. Operands: port, destination address, quanta. -/
  | pauseReceived (p : Fin 6) (da : List (BitVec 8)) (quanta : BitVec 16)
  /-- PAUSE_END (R380): The pause time ends and the port resumes sending, with late launches counted. Operands: port, ns since the PAUSE frame. -/
  | pauseEnd (p : Fin 6) (ns : Nat)
  /-- FRAME_SENT (R377): A frame leaves the port and its NET_SEND completes. Operands: port, departure timestamp. -/
  | frameSent (p : Fin 6) (sec ns frac : Nat)
  /-- LINK_UP (R359): A port link comes up after its conditions hold for 10 ms and raises source 64 + p. Operands: port, how long its conditions have held, the partner's PAUSE abilities. -/
  | linkUp (p : Fin 6) (forMs : Nat) (an : Fin 4)
  /-- LINK_DOWN (R359): A port link goes down at once, aborting queued frames. Operands: port, the cause is hi_ber, a frame was being received. -/
  | linkDown (p : Fin 6) (hiBer inFrame : Bool)
  /-- SFP_LOS_EDGE (R360): A rising edge of SFP_LOS is counted and reported. Operands: port, the new level of SFP_LOS. -/
  | sfpLosEdge (p : Fin 6) (level : Bool)
  /-- SFP_PRESENCE_POLL (R404): An absent port is polled every 1 s and A0h is read when a module becomes present. Operands: port, recovery attempts until SDA is high (more than 3: never), 0x50 acknowledged, A0h bytes 0 to 95. -/
  | sfpPresencePoll (p : Fin 6) (tries : Nat) (ack : Bool) (a0 : List (BitVec 8))
  /-- DDM_POLL (R405): A2h diagnostics are read every 1 s into the cache. Operands: port, recovery attempts, 0x51 acknowledged, A2h bytes 96 to 105. -/
  | ddmPoll (p : Fin 6) (tries : Nat) (ack : Bool) (data : List (BitVec 8))
  /-- SFP_STUCK_RETRY (R408): Once every 60 s a recovery attempt is made on a STUCK line. Operands: port, SDA reads high after it. -/
  | sfpStuckRetry (p : Fin 6) (freed : Bool)
  /-- LPI_ENTRY (R388): The transmitter enters LPI after LPI_IDLE_US without a queued frame. Operands: port, µs without a queued frame, µs to the next scheduled launch. -/
  | lpiEntry (p : Fin 6) (idleUs launchUs : Nat)
  /-- LPI_EXIT (R389): The transmitter leaves LPI when a frame is queued or before a scheduled launch. Operands: port, µs to the next scheduled launch. -/
  | lpiExit (p : Fin 6) (launchUs : Nat)
  /-- LLDP_SEND (R387): Campel sends the EEE LLDPDU at link up and every 30 s. Operands: port, at link up, seconds since the last. -/
  | lldpSend (p : Fin 6) (first : Bool) (sinceS : Nat)
  /-- LLDPDU_RECEIVED (R387): A received LLDPDU is read by Campel for the partner's EEE TLV. Operands: port, the partner's EEE TLV: Transmit Tw, Receive Tw, echoes of ours. -/
  | lldpduReceived (p : Fin 6) (txTw rxTw echoTx echoRx : BitVec 16)
  /-- ERR_SUMMARY (R409): A port's error summary source is raised at most once per 100 ms window. Operands: port, ms since its source was last raised. -/
  | errSummary (p : Fin 6) (sinceMs : Nat)
  /-- PORT_FAILED (R967): A failed port island stops its port, frees its followers and raises sources 64 + p and 72 + p. Operands: port, µs without a crossing transfer, uncorrectable parity, spine measurements failed in succession. -/
  | portFailed (p : Fin 6) (noXferUs : Nat) (parity : Bool) (badSpine : Nat)
  /-- PORT_RESTORED (R969): A failed port island is reset 1 s after failure and resumes when measured. Operands: port, ms since the failure. -/
  | portRestored (p : Fin 6) (afterMs : Nat)
  /-- ETH_PORT_CONFIG (R411): Sets a port's mode, flags, frame size and addresses. Operands: the request. -/
  | ethPortConfig (c : Call)
  /-- ETH_PORT_STATUS (R410): Returns a port's link, SFP and LPI status. Operands: the request. -/
  | ethPortStatus (c : Call)
  /-- ETH_PORT_COUNTERS (R400): Returns a port's 22 counters. Operands: the request. -/
  | ethPortCounters (c : Call)
  /-- ETH_FLOW_SET (R397): Writes a DROP or DELIVER flow entry atomically. Operands: the request. -/
  | ethFlowSet (c : Call)
  /-- ETH_FLOW_GET (R410): Returns flow entries. Operands: the request. -/
  | ethFlowGet (c : Call)
  /-- ETH_FLOW_COUNTERS (R401): Returns flow counters. Operands: the request. -/
  | ethFlowCounters (c : Call)
  /-- ETH_SFP_XFER (R412): Reads or writes SFP module bytes over the two-wire bus. Operands: the request. -/
  | ethSfpXfer (c : Call)
  /-- DELAY_REQ (R433): A received Delay_Req from a permitted follower is answered by a hardware Delay_Resp. Operands: port, the message. -/
  | delayReq (p : Fin 6) (m : PtpRx)
  /-- SIGNALING_REQUEST (R442): A REQUEST_UNICAST_TRANSMISSION is granted or denied in check order. Operands: port, the message, messageType, logInterMessagePeriod, durationField. -/
  | signalingRequest (p : Fin 6) (m : PtpRx) (type : Fin 16) (log : Int) (duration : Nat)
  /-- CANCEL_UNICAST_TRANSMISSION (R445): A received CANCEL ends the grant and frees the entry when it was the last. Operands: port, the message, messageType. -/
  | cancelUnicastTransmission (p : Fin 6) (m : PtpRx) (type : Fin 16)
  /-- GRANT_EXPIRY (R445): A grant expires, freeing the follower entry after its last grant. Operands: follower index, messageType, seconds since the grant. -/
  | grantExpiry (i : Fin 4096) (type : Fin 16) (heldS : Nat)
  /-- GRANT_RENEWAL (R449): A following instance renews its requested grants when half the duration has passed. Operands: port, unicast master, messageType, seconds since the grant. -/
  | grantRenewal (p : Fin 6) (k : Fin 4) (type : Fin 16) (heldS : Nat)
  /-- GRANT_RECEIVED (R449): A following instance takes a GRANT from its unicast master. Operands: port, the message, messageType, durationField. -/
  | grantReceived (p : Fin 6) (m : PtpRx) (type : Fin 16) (duration : Nat)
  /-- ANNOUNCE_RECEIVED (R450): A received Announce feeds the BMCA and the PTP reference qualification. Operands: port, the message, its content. -/
  | announceReceived (p : Fin 6) (m : PtpRx) (a : PtpAnn)
  /-- ANNOUNCE_RECEIPT_TIMEOUT (R454): announceReceiptTimeout expiry disqualifies the PTP reference. Operands: port, Announce intervals without an Announce. -/
  | announceReceiptTimeout (p : Fin 6) (intervals : Nat)
  /-- SYNC_RECEIVED (R456): A received Sync is timestamped for the follower servo. Operands: port, the message, two-step, originTimestamp. -/
  | syncReceived (p : Fin 6) (m : PtpRx) (twoStep : Bool) (sec ns : Nat)
  /-- FOLLOW_UP_RECEIVED (R456): A received Follow_Up supplies the precise origin time. Operands: port, the message, preciseOriginTimestamp. -/
  | followUpReceived (p : Fin 6) (m : PtpRx) (sec ns : Nat)
  /-- DELAY_RESP_RECEIVED (R456): A received Delay_Resp completes an exchange and its offset is filtered to the DPLL. Operands: port, the message, receiveTimestamp, departure of the Delay_Req. -/
  | delayRespReceived (p : Fin 6) (m : PtpRx) (sec ns t3sec t3ns t3frac : Nat)
  /-- SYNC_TIMEOUT (R454): No Sync for 3 intervals disqualifies the PTP reference. Operands: port, Sync intervals without a Sync. -/
  | syncTimeout (p : Fin 6) (intervals : Nat)
  /-- AUTH_TIMEOUT (R454): With REQUIRE set, no verified message for 3 s disqualifies the PTP reference. Operands: port, seconds without a verified message. -/
  | authTimeout (p : Fin 6) (forS : Nat)
  /-- MANAGEMENT_RECEIVED (R459): A received SM TLV is held for PTP_INSTANCE_STATUS and acted on only under R457. Operands: port, the message, its SM TLV. -/
  | managementReceived (p : Fin 6) (m : PtpRx) (tlv : List (BitVec 8))
  /-- PDELAY_RECEIVED (R426): A received Pdelay message is discarded and counted UNSUPPORTED. Operands: port. -/
  | pdelayReceived (p : Fin 6)
  /-- FOLLOW_UP (R432): A two-step Sync's Follow_Up leaves within 100 µs carrying the true departure. Operands: port. -/
  | followUp (p : Fin 6)
  /-- SM_TLV_SEND (R458): Once per second a MASTER instance sends the SM TLV in a Management message. Operands: port. -/
  | smTlvSend (p : Fin 6)
  /-- PTP_GET_STATUS (R473): Returns the port states, reference port and grant rates. Operands: the request. -/
  | ptpGetStatus (c : Call)
  /-- PTP_INSTANCE_CONFIG (R474): Configures or reinitialises a PTP instance on a port. Operands: the request. -/
  | ptpInstanceConfig (c : Call)
  /-- PTP_INSTANCE_STATUS (R475): Returns one instance's parent, grandmaster, offset and SM TLV. Operands: the request. -/
  | ptpInstanceStatus (c : Call)
  /-- PTP_FOLLOWERS_GET (R473): Returns live follower entries. Operands: the request. -/
  | ptpFollowersGet (c : Call)
  /-- PTP_UNICAST_MASTERS_SET (R449): Sets a port's unicast masters. Operands: the request. -/
  | ptpUnicastMastersSet (c : Call)
  /-- PTP_CLOCK_CONFIG (R473): Sets clock priorities, classes, grant limit, filter and SM settings. Operands: the request. -/
  | ptpClockConfig (c : Call)
  /-- PTP_ASYM_SET (R464): Sets a port's external delays and asymmetry. Operands: the request. -/
  | ptpAsymSet (c : Call)
  /-- PTP_CAL_RUN (R467): Measures a port's residual error through a TIM_IN input for SAMPLES seconds. Operands: the request. -/
  | ptpCalRun (c : Call)
  /-- PTP_AUTH_CONFIG (R477): Sets a port's authentication SPP, flags, slots and key IDs. Operands: the request. -/
  | ptpAuthConfig (c : Call)
  /-- PTP_FOLLOWER_DROP (R476): Cancels every grant of a follower entry and frees it. Operands: the request. -/
  | ptpFollowerDrop (c : Call)
  /-- PTP_COUNTERS (R473): Returns a port's 16 PTP counters. Operands: the request. -/
  | ptpCounters (c : Call)
  /-- ALIGN_END (R495): The align time ends and the blind ramp starts. Operands: true for channel B, the time aligned. -/
  | alignEnd (b : Bool) (ms : Nat)
  /-- ZERO_CROSSING (R492): A back-EMF zero crossing on the floating phase is detected. Operands: true for channel B, the point of the step in percent, in the expected direction, the step rate in 0.001 steps/s. -/
  | zeroCrossing (b : Bool) (pct : Nat) (dirOk : Bool) (rate : Nat)
  /-- COMMUTATION_STEP (R493): The next commutation step begins. Operands: true for channel B, the step rate in 0.001 steps/s, measured VIN current, measured peak phase (bridge) current in mA. -/
  | commutationStep (b : Bool) (rate vinMa phaseMa : Nat)
  /-- HANDOVER_TIMEOUT (R498): No handover 2 s after the handover rate fails the attempt and floats the phases. Operands: true for channel B, time since the handover rate was reached. -/
  | handoverTimeout (b : Bool) (ms : Nat)
  /-- HANDOVER_RETRY (R498): After 500 ms floating the channel retries from align. Operands: true for channel B, time floated. -/
  | handoverRetry (b : Bool) (ms : Nat)
  /-- AT_SPEED (R499): Speed within 0.01 % for 500 ms makes channel A AT_SPEED. Operands: the speed in 0.001 rev/s, how long it stayed near it. -/
  | atSpeed (speed forMs : Nat)
  /-- SPINUP_TIMEOUT (R500): No AT_SPEED within SPINUP_MAX_S enters FAULT. Operands: seconds since the start. -/
  | spinupTimeout (forS : Nat)
  /-- SERVO_INDEX (R573): The index is reported each revolution to the genlock loop. Operands: the index's phase error in ns. -/
  | servoIndex (err : Int)
  /-- GENLOCK_LOCKED (R507): Index error within 1 µs for 64 revolutions makes channel A LOCKED. Operands: no operand. -/
  | genlockLocked
  /-- GENLOCK_UNLOCK (R508): Index error above 5 µs for 8 revolutions returns channel A to PULL_IN. Operands: no operand. -/
  | genlockUnlock
  /-- DECEL_TO_BRAKE (R514): Below 5 % of nominal DECEL gives way to BRAKE. Operands: the speed in 0.001 rev/s. -/
  | decelToBrake (speed : Nat)
  /-- BRAKE_END (R514): After 1 s without a zero crossing the channel is STOPPED. Operands: true for channel B, time without a zero crossing. -/
  | brakeEnd (b : Bool) (ms : Nat)
  /-- REGEN_LIMIT (R512): VIN at REGEN_CEIL_MV reduces braking current and raises source 93. Operands: VIN in mV. -/
  | regenLimit (vin : Nat)
  /-- REGEN_CLAMP (R513): VIN reaching 13.8 V floats channel A's phases within 2 µs. Operands: VIN in mV. -/
  | regenClamp (vin : Nat)
  /-- REGEN_RESUME (R513): Braking resumes when VIN falls below REGEN_CEIL_MV − 300 mV. Operands: VIN in mV. -/
  | regenResume (vin : Nat)
  /-- A_OVERCURRENT (R521): Phase current above PHASE_OC_MA for 1 µs floats the phases and raises source 88. Operands: phase current, how long. -/
  | aOvercurrent (ma forUs : Nat)
  /-- A_STALL (R522): Six steps without a valid crossing stall channel A. Operands: consecutive steps past twice their expected duration without a valid crossing. -/
  | aStall (steps : Nat)
  /-- B_OVERCURRENT (R527): Bridge current above OC_MA for 2 µs turns channel B's gates off. Operands: the voltage at MB_ISNS, how long. -/
  | bOvercurrent (mv forUs : Nat)
  /-- B_STALL (R528): Channel B stalls and its gates go low. Operands: consecutive steps past twice their expected duration without a valid crossing. -/
  | bStall (steps : Nat)
  /-- B_RESTART (R529): Channel B restarts from align 1 s after a fault, latching FAULT on the fourth within 60 s. Operands: time since the fault event. -/
  | bRestart (ms : Nat)
  /-- SPEED_CMD_UPDATE (R531): The channel B speed target is updated from SPEED_CMD. Operands: the measured value in the form's units. -/
  | speedCmdUpdate (v : Nat)
  /-- SPEED_CMD_LOST (R532): The loss condition sets the target to LOSS_RPM and raises source 94. Operands: the measured value, the time without an edge, the frequency of the periods in Hz. -/
  | speedCmdLost (v noEdgeMs freq : Nat)
  /-- SPEED_CMD_RESTORED (R532): The command is restored after 100 ms without the loss condition. Operands: how long the loss condition has stayed false. -/
  | speedCmdRestored (forMs : Nat)
  /-- MOT_A_CONFIG (R535): Sets and persists channel A's configuration. Operands: the request. -/
  | motAConfig (c : Call)
  /-- MOT_A_START (R495): Starts channel A through align, ramp and handover. Operands: the request. -/
  | motAStart (c : Call)
  /-- MOT_A_STOP (R511): Starts a controlled or emergency stop of channel A. Operands: the request. -/
  | motAStop (c : Call)
  /-- MOT_A_GENLOCK (R502): Sets and persists channel A's rate and genlock setup. Operands: the request. -/
  | motAGenlock (c : Call)
  /-- MOT_A_STATUS (R534): Returns channel A's state and measurements. Operands: the request. -/
  | motAStatus (c : Call)
  /-- MOT_B_CONFIG (R536): Sets channel B's configuration at once. Operands: the request. -/
  | motBConfig (c : Call)
  /-- MOT_B_SET_SPEED (R530): Sets channel B's speed, 0 stopping it. Operands: the request. -/
  | motBSetSpeed (c : Call)
  /-- MOT_B_STATUS (R534): Returns channel B's state and measurements. Operands: the request. -/
  | motBStatus (c : Call)
  /-- PA_FLT_RISE (R554): PA_FLT rising drops PA_WG and reads the preamp fault register. Operands: the value PA_FAULT_REG reads. -/
  | paFltRise (status : BitVec 8)
  /-- PA_FLT_PERSIST (R554): PA_FLT high for 10 ms unloads the heads and faults the channel. Operands: how long PA_FLT has been high; under 10 ms it falls again. -/
  | paFltPersist (forMs : Nat)
  /-- SERVO_WEDGE (R572): A servo wedge is demodulated, judged valid or missed, and its PES feeds the VCM loop. Operands: SAM within its window, parity, wedge number, head, Gray code, the four bursts, the TICK of its SAM, the cylinder predicted. -/
  | servoWedge (inTime parity : Bool) (number head gray a b c d tick pred : Nat)
  /-- SERVO_SEARCH_END (R574): After the 20 ms search the servo re-seeks or the heads retract blind. Operands: time searched. -/
  | servoSearchEnd (waitedUs : Nat)
  /-- SEEK_ERROR (R576): A seek not settled within 50 ms is a seek error and is retried once. Operands: time since the seek began, it settled on another cylinder, the sectors (admission, index) that wait for it. -/
  | seekError (waitedMs : Nat) (elsewhere : Bool) (waiting : List (Nat × Nat))
  /-- LOAD_TIMEOUT (R579): A head load not complete within 500 ms is undone and retried once. Operands: time since the load began. -/
  | loadTimeout (ms : Nat)
  /-- HEADS_PARKED (R581): The heads reach the park and source 85 is raised. Operands: no operand. -/
  | headsParked
  /-- VERIFY_DONE (R586): A verify decode ends and the sector is verified or written again. Operands: a recording sector (id its log LBA) or a command's (admission and index), TAI of the rise of PA_WG, verified, decoded again on another slice, a slice fenced by it (true: parity). -/
  | verifyDone (rec : Bool) (id idx sec ns frac : Nat) (ok other : Bool) (fence : Option (Fin 4 × Bool))
  /-- READ_DECODE_DONE (R588): A read decode ends and the sector is good or read again. Operands: admission and sector index, decoded with its CRC good, decoded again on another slice, a slice fenced by it (true: parity). -/
  | readDecodeDone (id idx : Nat) (good other : Bool) (fence : Option (Fin 4 × Bool))
  /-- SLICE_KNOWN_ANSWER_TEST (R566): An idle slice decodes a known-answer codeword every 1 s. Operands: slice, it decoded the known answer. -/
  | sliceKnownAnswerTest (slice : Fin 4) (ok : Bool)
  /-- CHN_HDA_SET (R596): Sets the HDA geometry and preamp map. Operands: the request. -/
  | chnHdaSet (c : Call)
  /-- CHN_ZONE_SET (R596): Sets one zone of the format. Operands: the request. -/
  | chnZoneSet (c : Call)
  /-- CHN_COMMIT (R548): Checks and persists the format setup and builds the LBA map. Operands: the request. -/
  | chnCommit (c : Call)
  /-- CHN_HEADS (R578): Loads or unloads the heads. Operands: the request. -/
  | chnHeads (c : Call)
  /-- CHN_CAL (R583): Runs a calibration of VCM_R, JOG, verify delay or unload time. Operands: the request. -/
  | chnCal (c : Call)
  /-- CHN_STATUS (R596): Returns the channel state and counts. Operands: the request. -/
  | chnStatus (c : Call)
  /-- CHN_PA_XFER (R553): Reads or writes one preamp register. Operands: the request. -/
  | chnPaXfer (c : Call)
  /-- CHN_DEFECT_READ (R591): Copies defect-list entries into a yealm. Operands: the request. -/
  | chnDefectRead (c : Call)
  /-- CHN_DEFECT_ADD (R602): Relocates an LBA to a spare. Operands: the request. -/
  | chnDefectAdd (c : Call)
  /-- CHN_SLICE_ENABLE (R569): Returns a fenced slice to service after its known-answer test. Operands: the request. -/
  | chnSliceEnable (c : Call)
  /-- LOCK_GRANT (R619): A waiting range-lock entry is granted when no earlier conflicting entry remains. Operands: admission. -/
  | lockGrant (id : Nat)
  /-- LOCK_AGED (R622): An entry waiting 2 s raises source 86 and writes LOCK_AGED. Operands: admission, how long its entry has waited. -/
  | lockAged (id waitedMs : Nat)
  /-- DISK_COMMAND_COMPLETE (R625): A disk command completes, releasing its tag, lock entry and pins. Operands: admission. -/
  | diskCommandComplete (id : Nat)
  /-- DISK_GET_STATUS (R664): Returns tag and lock-table use. Operands: the request. -/
  | diskGetStatus (c : Call)
  /-- DISK_TAG_LIMIT (R613): Tenant 0 sets a tenant's disk tag limit. Operands: the request. -/
  | diskTagLimit (c : Call)
  /-- REC_AREA_SET (R653): Sets and persists the recording log area. Operands: the request. -/
  | recAreaSet (c : Call)
  /-- REC_CHANNEL_SET (R637): Configures a recording channel and writes its flow entries. Operands: the request. -/
  | recChannelSet (c : Call)
  /-- REC_CHANNEL_STATUS (R664): Returns a channel's configuration and counts. Operands: the request. -/
  | recChannelStatus (c : Call)
  /-- REC_SEG_LIST (R664): Returns segment records of a channel. Operands: the request. -/
  | recSegList (c : Call)
  /-- REC_SEG_HOLD (R659): Holds or releases a segment. Operands: the request. -/
  | recSegHold (c : Call)
  /-- REC_READ (R661): Reads sectors of a segment back from the log. Operands: the request. -/
  | recRead (c : Call)
  /-- SECTOR_CLOSE_TIMER (R645): MERGE_US, MAX_FILL_MS or the segment end closes an open recording sector. Operands: recording channel. -/
  | sectorCloseTimer (n : Fin 512)
  /-- FRAMED_HOLD_RELEASE (R643): A held out-of-order packet is placed when MERGE_US has passed. Operands: recording channel. -/
  | framedHoldRelease (n : Fin 512)
  /-- SECTOR_HAND_OVER (R647): A closed sector is handed to the disk queue in sequence order with the next log LBA. Operands: recording channel. -/
  | sectorHandOver (n : Fin 512)
  /-- SEGMENT_CLOSED (R656): A segment closes once its last sector is verified or lost. Operands: recording channel, START. -/
  | segmentClosed (n : Fin 512) (start : Nat)
  /-- BLOCK_SUMMARY (R654): A block summary is written once every data sector of the block is verified or lost. Operands: block of the log, TAI of the rise of PA_WG, verified. -/
  | blockSummary (block sec ns frac : Nat) (ok : Bool)
  /-- PATTERN_APPLY (R702): A new TDD pattern takes effect at the first TAI second boundary at least 1 ms after the response. Operands: band, the TAI second that begins. -/
  | patternApply (b : Fin 4) (sec : Nat)
  /-- CAL_WAIT_END (R685): After CAL_WAIT_US the calibration result is read and lock is checked. Operands: synthesizer, µs since its program words, words read for the calibration result and the lock status. -/
  | calWaitEnd (i : Fin 4) (us calRead lockRead : Nat)
  /-- HOP_LOCK_CHECK (R686): LOCK_NS after a hop the lock word is read and compared. Operands: synthesizer, ns since its program words, word read. -/
  | hopLockCheck (i : Fin 4) (ns lockRead : Nat)
  /-- LOCK_POLL (R693): Every 1 ms LOCK_WORD is sent and a mismatch mutes the band and recovers. Operands: band, word read. -/
  | lockPoll (b : Fin 4) (lockRead : Nat)
  /-- TEMPERATURE_READ (R688): Each synthesizer's temperature is read every 1 s. Operands: synthesizer, reading in 1/256 °C, recovery attempts of the AUX bus. -/
  | temperatureRead (i : Fin 4) (t : Int) (tries : Nat)
  /-- RF_FRAME_DONE (R683): An RF serial frame ends and the next waiting frame is sent by priority. Operands: captured word. -/
  | rfFrameDone (rx : Nat)
  /-- DETECTOR_CONVERSION (R710): The detector ADC converts the next DET_IN input in rotation. Operands: detector, code, TICK of the sample. -/
  | detectorConversion (n : Fin 8) (code : Fin 4096) (tick : Nat)
  /-- AUX_STUCK_RETRY (R717): Once every 60 s a recovery attempt is made on a STUCK AUX bus. Operands: SDA reads high after it. -/
  | auxStuckRetry (freed : Bool)
  /-- RADIO_GET_STATUS (R722): Returns band, synthesizer, path and AUX status. Operands: the request. -/
  | radioGetStatus (c : Call)
  /-- RADIO_DEVICE_SET (R681): Configures a chip select of the RF serial port. Operands: the request. -/
  | radioDeviceSet (c : Call)
  /-- RADIO_BAND_CONFIG (R694): Configures a band. Operands: the request. -/
  | radioBandConfig (c : Call)
  /-- RADIO_SYNTH_CONFIG (R684): Configures a synthesizer. Operands: the request. -/
  | radioSynthConfig (c : Call)
  /-- RADIO_SYNTH_TABLE_SET (R684): Loads synthesizer entries, marking them UNCALIBRATED. Operands: the request. -/
  | radioSynthTableSet (c : Call)
  /-- RADIO_SYNTH_CAL (R690): Calibrates the masked synthesizer entries. Operands: the request. -/
  | radioSynthCal (c : Call)
  /-- RADIO_BAND_START (R694): Starts a band into TUNING towards STANDBY or ACTIVE. Operands: the request. -/
  | radioBandStart (c : Call)
  /-- RADIO_BAND_STOP (R694): Stops a band to OFF. Operands: the request. -/
  | radioBandStop (c : Call)
  /-- RADIO_BAND_HOP (R686): Hops a band's synthesizer to another entry. Operands: the request. -/
  | radioBandHop (c : Call)
  /-- RADIO_TDD_SET (R700): Sets a band's TDD pattern. Operands: the request. -/
  | radioTddSet (c : Call)
  /-- RADIO_POWER_TABLE_SET (R705): Loads a path's power table. Operands: the request. -/
  | radioPowerTableSet (c : Call)
  /-- RADIO_POWER_SET (R706): Commands a path's power entry. Operands: the request. -/
  | radioPowerSet (c : Call)
  /-- RADIO_BIAS_CONFIG (R709): Assigns a BIAS_DAC output to a path or FIXED. Operands: the request. -/
  | radioBiasConfig (c : Call)
  /-- RADIO_DET_CONFIG (R711): Configures a detector. Operands: the request. -/
  | radioDetConfig (c : Call)
  /-- RADIO_DET_READ (R713): Returns detector samples and window statistics. Operands: the request. -/
  | radioDetRead (c : Call)
  /-- RADIO_RFSPI_XFER (R728): Sends a raw RF serial word and returns the word read. Operands: the request. -/
  | radioRfspiXfer (c : Call)
  /-- RADIO_AUX_XFER (R714): Reads or writes an AUX bus device. Operands: the request. -/
  | radioAuxXfer (c : Call)
  /-- ISO_ESTIMATE (R737): After a 1.023 s sequence period the isolation of a path is estimated. Operands: path, valid chips, chips with the leak detector at 4,095, L_out, the levels of c and of 3 times its standard error in 0.1 dBm. -/
  | isoEstimate (p : Fin 8) (chips saturated : Nat) (lOut cLevel errLevel : Int)
  /-- ESTIMATE_AGING (R743): An estimate older than 10 s drops the ceiling to START_ENTRY. Operands: path, age of its last estimate. -/
  | estimateAging (p : Fin 8) (ageMs : Nat)
  /-- EAVE_ISO (R739): Every 60 s an EAVE_ISO breadcrumb is written for each path with a valid estimate. Operands: seconds since the last. -/
  | eaveIso (sinceS : Nat)
  /-- OSCILLATION_MUTE (R746): Five consecutive excess samples guard-mute the band with cause 1. Operands: path, consecutive samples, output and input level in 0.1 dBm. -/
  | oscillationMute (p : Fin 8) (samples : Nat) (out inp : Int)
  /-- NOISE_RISE (R746): NOISE_PERSIST windows of noise rise guard-mute the band with cause 2. Operands: band, consecutive windows, output mean, input maximum. -/
  | noiseRise (b : Fin 4) (windows : Nat) (mean inMax : Int)
  /-- OUT_OF_BAND (R746): Two windows above OOB_LIMIT guard-mute the band with cause 3. Operands: band, consecutive windows, mean. -/
  | outOfBand (b : Fin 4) (windows : Nat) (mean : Int)
  /-- TDD_TIME_MUTE (R748): Loss of valid time guard-mutes a TDD band with cause 4 and holds it QUIET. Operands: no operand. -/
  | tddTimeMute
  /-- TDD_RESUME (R748): A cause-4 band resumes at the first pattern-period start 1 s after time is valid again. Operands: band, ms since time is valid again. -/
  | tddResume (b : Fin 4) (sinceMs : Nat)
  /-- THERMAL_MUTE (R746): A thermal warning still raised after 60 s mutes the repeater with cause 8. Operands: seconds since the thermal warning was raised. -/
  | thermalMute (forS : Nat)
  /-- THERMAL_MUTE_LIFT (R749): Die temperature below 95 °C for 60 s lifts the cause-8 mute and back-off. Operands: seconds below 95 °C. -/
  | thermalMuteLift (forS : Nat)
  /-- RF_KILL_ASSERT (R753): RF_KILL_N low for 200 ns mutes the repeater in hardware. Operands: how long RF_KILL_N has been low. -/
  | rfKillAssert (ns : Nat)
  /-- RF_KILL_RELEASE (R755): A cause-7 mute lifts 1 s after RF_KILL_N returns high. Operands: ms since RF_KILL_N returned high. -/
  | rfKillRelease (ms : Nat)
  /-- GUARD_MUTE_RELEASE (R755): GUARD_MUTE falls 1 ms after the last whole-repeater cause lifts. Operands: µs since the last whole-repeater cause lifted. -/
  | guardMuteRelease (us : Nat)
  /-- BACKOFF_EXPIRY (R757): A back-off ends and the band restarts. Operands: band, seconds waited. -/
  | backoffExpiry (b : Fin 4) (waitedS : Nat)
  /-- EAVE_GET_STATUS (R764): Returns guard status of bands and paths. Operands: the request. -/
  | eaveGetStatus (c : Call)
  /-- EAVE_CONFIG (R765): Sets a band's guard settings. Operands: the request. -/
  | eaveConfig (c : Call)
  /-- EAVE_SHUTDOWN (R766): Mutes named bands with a REGULATORY or OPERATOR shutdown. Operands: the request. -/
  | eaveShutdown (c : Call)
  /-- EAVE_CLEAR (R760): Clears a latch or a shutdown. Operands: the request. -/
  | eaveClear (c : Call)
  /-- KEY_GET_INFO (R814): Returns key slot entries. Operands: the request. -/
  | keyGetInfo (c : Call)
  /-- KEY_DERIVE (R781): Derives a key from the root secret into a slot. Operands: the request. -/
  | keyDerive (c : Call)
  /-- KEY_IMPORT (R785): Imports a plaintext or wrapped key into a slot. Operands: the request. -/
  | keyImport (c : Call)
  /-- KEY_ERASE (R796): Erases a slot. Operands: the request. -/
  | keyErase (c : Call)
  /-- KEY_SET_USERS (R800): Sets a slot's USERS mask and FORM_NONCE. Operands: the request. -/
  | keySetUsers (c : Call)
  /-- KEY_WRAP (R784): Wraps key material into a blob under a WRAP slot. Operands: the request. -/
  | keyWrap (c : Call)
  /-- KEY_CLAIM_SET (R804): Sets the island claim mask. Operands: the request. -/
  | keyClaimSet (c : Call)
  /-- KEY_DEBUG_UNLOCK (R807): Unlocks boundary scan when permitted. Operands: the request. -/
  | keyDebugUnlock (c : Call)
  /-- KEY_GET_STATUS (R811): Returns epoch, debug, claim and key counts. Operands: the request. -/
  | keyGetStatus (c : Call)
  /-- RETIRING_ZEROISE (R797): Retiring key material is zeroised when its last operation ends. Operands: key slot. -/
  | retiringZeroise (slot : Fin 16)
  /-- TAP_INSTRUCTION (R809): A new TAP instruction takes effect; EXTEST, CLAMP or HIGHZ zeroise keys and enter SAFE. Operands: the instruction that takes effect in Update-IR. -/
  | tapInstruction (code : BitVec 5)
  /-- BRC_GET_STATUS (R859): Returns the recorder state and counts. Operands: the request. -/
  | brcGetStatus (c : Call)
  /-- BRC_READ (R861): Copies records into a yealm with delivery marks. Operands: the request. -/
  | brcRead (c : Call)
  /-- BRC_FIND (R860): Finds the lowest held sequence at or after a TAI time. Operands: the request. -/
  | brcFind (c : Call)
  /-- BRC_WRITE (R862): Writes a tenant record to the recorder. Operands: the request. -/
  | brcWrite (c : Call)
  /-- BRC_COLLECTED (R846): Tenant 0 advances the COLLECTED mark. Operands: the request. -/
  | brcCollected (c : Call)
  /-- BRC_NVM_RETEST (R856): Retests the NVM banks and restores the journal when they pass. Operands: the request. -/
  | brcNvmRetest (c : Call)
  /-- JOURNAL_SLOT_WRITE (R831): A staged record is written and verified in the next journal slot. Operands: the slot verified, the bank that stopped answering or whose header failed. -/
  | journalSlotWrite (ok : Bool) (bankFault : Option (Fin 2))
  /-- RECORDS_DROPPED (R833): Once staging has room again one RECORDS_DROPPED record is written. Operands: no operand. -/
  | recordsDropped
  /-- CHRONICLE_SECTOR_WRITE (R836): A chronicle data sector is written in both halves when full or 1 s after its first record. Operands: each half's copy was verified, time since the sector's first record entered it. -/
  | chronicleSectorWrite (okA okB : Bool) (waitedUs : Nat)
  /-- CHRONICLE_STARTED (R840): With blank headers in RUN the recorder writes new headers and chronicles the journal. Operands: no operand. -/
  | chronicleStarted
  /-- CHRONICLE_LAG (R844): The oldest unchronicled record waiting 60 s raises source 113. Operands: how long the oldest unchronicled record has waited. -/
  | chronicleLag (waitedS : Nat)
  /-- TIGHT_LEFT (R847): Tight mode ends once none of its conditions has held for 10 s. Operands: how long no condition of tight mode has held. -/
  | tightLeft (forS : Nat)
  /-- RECORD_FORWARD (R916): A Rafter forwards held records of at least FWD_MIN to the acting Ridge in sequence order. Operands: no operand. -/
  | recordForward
  /-- DISCOVER (R875): A received DISCOVER sets the module's position and is passed downstream. Operands: the frame received. -/
  | discover (rx : LaneRx)
  /-- DISCOVER_END (R875): A received DISCOVER_END is relayed upstream, and the Ridge sets MODULES. Operands: the frame received. -/
  | discoverEnd (rx : LaneRx)
  /-- DISCOVER_SEND (R874): The Ridge sends DISCOVER at link up and once per second. Operands: no operand. -/
  | discoverSend
  /-- DISCOVER_END_TIMEOUT (R875): No DISCOVER_END within 10 ms makes the module send its own DISCOVER_END upstream. Operands: time since DISCOVER was sent. -/
  | discoverEndTimeout (waitedUs : Nat)
  /-- TIME (R894): A received TIME frame supplies the cascade time exchange and the CASCADE measurement. Operands: the frame received and its arrival. -/
  | time (rx : LaneRx) (sec ns frac : Nat)
  /-- TIME_FRAME_SEND (R893): The upstream module sends a DOWN TIME frame 16 times per second. Operands: no operand. -/
  | timeFrameSend
  /-- OFFSETS (R898): A received OFFSETS frame is adopted under R85 while CASCADE is selected. Operands: the frame received. -/
  | offsets (rx : LaneRx)
  /-- OFFSETS_SEND (R898): The upstream module sends OFFSETS once per second and on change. Operands: no operand. -/
  | offsetsSend
  /-- ROLE (R923): A received ROLE frame displaces a Ridge or advances a handback. Operands: the frame received. -/
  | role (rx : LaneRx)
  /-- LEASE_REQ (R910): The acting Ridge answers a LEASE_REQ with the next lease number. Operands: the frame received. -/
  | leaseReq (rx : LaneRx)
  /-- LEASE_GRANT (R910): A received LEASE_GRANT gives the module 4,096 GSEQ numbers. Operands: the frame received. -/
  | leaseGrant (rx : LaneRx)
  /-- MBOX_REQ (R905): A forwarded request is relayed, or executed at its target as the same tenant number. Operands: the frame received. -/
  | mboxReq (rx : LaneRx)
  /-- MBOX_RSP (R904): A forwarded response is relayed back or written to the mailbox. Operands: the frame received. -/
  | mboxRsp (rx : LaneRx)
  /-- MBOX_EVENT (R906): A forwarded ASYNC_COMPLETION is written to the reserved EVENT slot with FORWARDED set. Operands: the frame received. -/
  | mboxEvent (rx : LaneRx)
  /-- RECORD (R917): A forwarded breadcrumb record is recorded at the acting Ridge with FORWARDED and ORIGIN. Operands: the frame received. -/
  | record (rx : LaneRx)
  /-- COPY (R908): A received COPY writes data into the destination yealm and returns COPY_ACK. Operands: the frame received. -/
  | copy (rx : LaneRx)
  /-- COPY_ACK (R908): A received COPY_ACK completes the CAS_COPY. Operands: the frame received. -/
  | copyAck (rx : LaneRx)
  /-- MIRROR (R912): A received MIRROR sector is handed to the mirror module's log in GSEQ order. Operands: the frame received. -/
  | mirror (rx : LaneRx)
  /-- MIRROR_ACK (R914): A received MIRROR_ACK may count the mirrored sector verified or lost. Operands: the frame received. -/
  | mirrorAck (rx : LaneRx)
  /-- MIRROR_PREDECESSOR_TIMEOUT (R913): A sector whose predecessor has not arrived in 100 ms is handed over with GAP. Operands: origin position, how long its oldest held sector has waited. -/
  | mirrorPredecessorTimeout (origin : Fin 8) (waitedUs : Nat)
  /-- MIRROR_SEGMENT_CUT (R925): A mirror closes a mirrored segment with CUT after 2 s without a MIRROR. Operands: origin position, time since its last MIRROR. -/
  | mirrorSegmentCut (origin : Fin 8) (silentMs : Nat)
  /-- IMAGE_REQ (R918): A received IMAGE_REQ is answered with IMAGE frames from the offset asked. Operands: the frame received. -/
  | imageReq (rx : LaneRx)
  /-- IMAGE (R918): A received IMAGE frame fills the booting module's push area. Operands: the frame received. -/
  | image (rx : LaneRx)
  /-- IMAGE_REQ_RETRY (R918): A ROM-stage module asks again from the first missing offset after 10 ms without progress. Operands: time without progress. -/
  | imageReqRetry (waitedUs : Nat)
  /-- HEARTBEAT (R919): A received HEARTBEAT block is relayed downstream within 10 µs. Operands: the block's acting Ridge position, count and HANDBACK_PENDING. -/
  | heartbeat (pos : Fin 8) (count : Nat) (pending : Bool)
  /-- HEARTBEAT_SEND (R919): The acting Ridge sends a HEARTBEAT every 10 ms. Operands: no operand. -/
  | heartbeatSend
  /-- RIDGE_LOST (R920): A Rafter without a heartbeat for 2 s or 3 s counts the Ridge as lost. Operands: time without the heartbeat the module waits for. -/
  | ridgeLost (sinceMs : Nat)
  /-- HANDBACK_TIMEOUT (R924): A handback not complete in 600 s completes NOT_READY. Operands: seconds since the handback began. -/
  | handbackTimeout (forS : Nat)
  /-- CREDIT (R885): A received CREDIT block returns credit and acknowledges frames, or requests a resend on NAK. Operands: lane, ACK_FSEQ, NAK, credits returned per VC. -/
  | credit (lane : Fin 2) (ack : Nat) (nak : Bool) (c0 c1 c2 c3 : Nat)
  /-- ACK_TIMEOUT (R885): 100 µs without a new ACK_FSEQ resends unacknowledged frames. Operands: lane, time without a new ACK_FSEQ. -/
  | ackTimeout (lane : Fin 2) (waitedUs : Nat)
  /-- LANE_LINK_UP (R882): A lane link comes up after 10 ms of block lock and a CREDIT block. Operands: lane, how long block lock has held, a CREDIT block was received. -/
  | laneLinkUp (lane : Fin 2) (lockMs : Nat) (credit : Bool)
  /-- LANE_LINK_DOWN (R882): Loss of block lock takes a lane link down. Operands: lane. -/
  | laneLinkDown (lane : Fin 2)
  /-- LINK_DOWN_RELEASE (R887): After a link has been down 1 s its queued frames are released and disposed of. Operands: lane, how long its link has been down. -/
  | linkDownRelease (lane : Fin 2) (downMs : Nat)
  /-- RATE_IDLE (R888): Transmit use below 5 % for 10 s sends REQ_DOWN. Operands: lane, transmit use in percent, how long it has stayed there. -/
  | rateIdle (lane : Fin 2) (use forS : Nat)
  /-- REQ_DOWN (R888): A received REQ_DOWN is answered ACK_DOWN or REFUSE. Operands: lane, COUNT, this module's transmit use in percent, how long it has stayed there. -/
  | reqDown (lane : Fin 2) (count use forS : Nat)
  /-- REQ_UP (R889): A received REQ_UP is always answered ACK_UP. Operands: lane, COUNT. -/
  | reqUp (lane : Fin 2) (count : Nat)
  /-- ACK_DOWN (R890): A received ACK_DOWN fixes the switch to quarter rate COUNT blocks later. Operands: lane, COUNT. -/
  | ackDown (lane : Fin 2) (count : Nat)
  /-- ACK_UP (R890): A received ACK_UP fixes the switch to full rate COUNT blocks later. Operands: lane, COUNT. -/
  | ackUp (lane : Fin 2) (count : Nat)
  /-- REFUSE (R888): A received REFUSE leaves the lane at full rate. Operands: lane. -/
  | refuse (lane : Fin 2)
  /-- RATE_STEP_UP_DEMAND (R889): Queue, wait or use conditions at quarter rate send REQ_UP. Operands: lane, bytes queued, longest wait, transmit use of the last 100 µs in percent. -/
  | rateStepUpDemand (lane : Fin 2) (queued waitUs use : Nat)
  /-- RATE_SWITCH (R890): Both sides change rate at the agreed block count and regain block lock. Operands: lane. -/
  | rateSwitch (lane : Fin 2)
  /-- RATE_RELOCK (R890): Block lock held 10 µs at the new rate resumes frames, or its loss in 30 µs takes the link down. Operands: lane, block lock was regained within 30 µs, how long it has held since. -/
  | rateRelock (lane : Fin 2) (locked : Bool) (us : Nat)
  /-- CAS_GET_STATUS (R928): Returns the cascade role, lanes and hop measurements. Operands: the request. -/
  | casGetStatus (c : Call)
  /-- CAS_LANE_SET (R901): Sets a lane's rate policy and encryption. Operands: the request. -/
  | casLaneSet (c : Call)
  /-- CAS_ASYM_SET (R894): Sets the CU lane asymmetry at each rate. Operands: the request. -/
  | casAsymSet (c : Call)
  /-- CAS_CAL_RUN (R900): Measures the hop error through a TIM_IN input. Operands: the request. -/
  | casCalRun (c : Call)
  /-- CAS_FORWARD_SET (R905): Sets FORWARD_MASK and FWD_MIN. Operands: the request. -/
  | casForwardSet (c : Call)
  /-- CAS_HANDBACK (R924): Starts handing the Ridge role back from the acting spare. Operands: the request. -/
  | casHandback (c : Call)
  /-- CAS_COUNTERS (R928): Returns a lane's counters. Operands: the request. -/
  | casCounters (c : Call)
  /-- PFAIL (R991): VIN below PFAIL_MV for 20 µs latches PFAIL and starts the hold-up work. Operands: VIN in mV and how long it has been at that level or below. -/
  | pfail (vin forUs : Nat)
  /-- PFAIL_CLEARED (R997): VIN above 11.0 V for 100 ms clears PFAIL and restarts the stopped islands. Operands: VIN in mV and how long it has been at that level or above. -/
  | pfailCleared (vin forMs : Nat)
  /-- RAIL_FAULT (R978): A rail out of regulation for 10 µs raises source 127 and causes a device reset or SAFE. Operands: the rail in Table PWR.2 order and how long it has been outside ±10 %. -/
  | railFault (rail : Fin 9) (forUs : Nat)
  /-- RAIL_RECOVERED (R980): A rail back in regulation for 1 s clears the REGULATOR cause. Operands: the rail in Table PWR.2 order and how long it has been in regulation. -/
  | railRecovered (rail : Fin 9) (forMs : Nat)
  /-- VAUX_FAULT (R983): A VAUX output in current limit for 10 ms turns off and raises source 127. Operands: VAUX5 rather than VAUX3, its current in mA and how long it has been in limit. -/
  | vauxFault (five : Bool) (ma forMs : Nat)
  /-- VAUX_RETRY (R983): A VAUX output is retried 1 s after turning off, at most 3 times. Operands: VAUX5 rather than VAUX3, ms since it turned off. -/
  | vauxRetry (five : Bool) (ms : Nat)
  /-- THERM_WARN (R1010): Tj at least 100 °C in 10 measurements sets THERM_WARN and raises source 125. Operands: Tj in 0.1 degree C, consecutive measurements at it or above. -/
  | thermWarn (tj : Int) (n : Nat)
  /-- THERM_WARN_CLEAR (R1010): Tj below 95 °C for 60 s clears THERM_WARN and THERM_CRIT. Operands: Tj in 0.1 degree C, seconds it has stayed at it or below. -/
  | thermWarnClear (tj : Int) (forS : Nat)
  /-- THERM_CRIT (R1011): Tj at least 115 °C in 10 measurements sets THERM_CRIT and enters SAFE. Operands: Tj in 0.1 degree C, consecutive measurements at it or above. -/
  | thermCrit (tj : Int) (n : Nat)
  /-- THERM_TRIP (R1012): Tj at least 125 °C for 100 µs trips: gate off, mute, retract, then rails off. Operands: Tj in 0.1 degree C, how long the comparator has seen it. -/
  | thermTrip (tj : Int) (forUs : Nat)
  /-- MILLER_WATCHDOG (R1014): 250 ms without a watchdog restart resets the Miller island and enters SAFE. Operands: ms without a restart, whether the image's digest is right. -/
  | millerWatchdog (ms : Nat) (imageOk : Bool)
  /-- DMA_COMPLETION (R210): A DMA to or from host memory ends, completing its LOFT_DMA descriptor or, on Unsupported Request, Completer Abort or completion timeout, counting towards DMA_FAULT. Operands: which LOFT_DMA in flight ends; 0 done, 1 Unsupported Request, 2 Completer Abort, 3 completion timeout; the bytes read from host memory. -/
  | dmaCompletion (index : Nat) (result : Fin 4) (data : List (BitVec 8))
  /-- FORWARDED_REQUEST_TIMEOUT (R233): When the R204 bound of a forwarded request expires without a response, the module holding the mailbox answers NOT_READY. Operands: tenant. -/
  | forwardedRequestTimeout (t : Fin 8)
  /-- LPI_RX_ENTRY (R390): The link partner enters low-power idle and the port's receive side enters LPI, counted in LPI_RX_ENTRIES. Operands: port. -/
  | lpiRxEntry (p : Fin 6)
  /-- LPI_RX_WAKE (R390): The link partner leaves low-power idle and the PCS resumes passing frames once wake is complete. Operands: port. -/
  | lpiRxWake (p : Fin 6)
  /-- RESET_N_RELEASE (R987): The rising edge of RESET_N releases the held device reset and starts the boot. Operands: the strap levels BOOT_SEL, CASC_ROLE and MS_MISO. -/
  | resetNRelease (bootSel role : Fin 4) (miso : Bool)
  /-- PERST_N_RELEASE (R271): PERST_N going high lets PCIe link training start. Operands: no operand. -/
  | perstNRelease
  /-- PE_REFCLK_LOSS (R1080): Loss of PE_REFCLK leaves the PCIe link unable to train, with other functions unaffected. Operands: no operand. -/
  | peRefclkLoss
  /-- PE_REFCLK_RESTORED (R1080): Return of PE_REFCLK lets the PCIe link train again. Operands: no operand. -/
  | peRefclkRestored
  /-- GUARD_RESET_RELEASE (R985): VIN rising through 2.5 V releases the Guard power-on reset, so the Guard island runs and can recognise a wake. Operands: VIN in mV. -/
  | guardResetRelease (vin : Nat)
  /-- HELD_WAKE_RELEASE (R1013): After a thermal trip, a held wake is accepted once the monitor reads Tj below 100 °C. Operands: Tj in 0.1 degree C, the strap levels BOOT_SEL, CASC_ROLE and MS_MISO. -/
  | heldWakeRelease (tj : Int) (bootSel role : Fin 4) (miso : Bool)
  /-- OTP_PROGRAM_COMPLETE (R299): The OTP controller finishes burning and reading back the rows of BOOT_OTP_PROGRAM or BOOT_ROLLBACK_COMMIT, and the command completes. Operands: whether every row read back right. -/
  | otpProgramComplete (ok : Bool)
  /-- FLASH_OPERATION_COMPLETE (R298): A QSPI flash erase or write started by BOOT_FLASH_ERASE or BOOT_FLASH_WRITE ends and its command completes. Operands: whether the flash reported success. -/
  | flashOperationComplete (ok : Bool)
  /-- TWO_WIRE_TRANSACTION_END (R403): A transaction on the SFP or AUX two-wire bus ends, completes, or aborts on an over-long stretch or a missing acknowledge. Operands: the AUX bus, recovery attempts before it (more than 3: never freed), acknowledged, longest stretch of a byte, arbitration lost, the bytes read. -/
  | twoWireTransactionEnd (aux : Bool) (tries : Nat) (ack : Bool) (stretchMs : Nat) (lost : Bool) (data : List (BitVec 8))
  /-- PTP_CAL_RUN_END (R467): After SAMPLES seconds a PTP_CAL_RUN ends and completes with its result or NOT_READY. Operands: PHASE_ERR in ps of each edge expected; none for one missing or with PHASE_VALID clear. -/
  | ptpCalRunEnd (errs : List (Option Int))
  /-- CAS_CAL_RUN_END (R900): After SAMPLES seconds a CAS_CAL_RUN ends and completes with its result or NOT_READY. Operands: PHASE_ERR in ps of each edge expected; none for one missing or with PHASE_VALID clear. -/
  | casCalRunEnd (errs : List (Option Int))
  deriving DecidableEq, Repr

end Sys2Proof
end

