-- ==== Sys2Proof/Config.lean ====
section
/-!
DEFINITION. What one part or one implementation fixes, and the values the spec leaves open: opaque constants without a
body, so that no proof can see them (log entries 5 to 8, 11, 19, 20, 36, 61, 63).
-/
namespace Sys2Proof.Config

/-- Which free yealm the allocator takes at its `n`-th choice: free (log entry 5). -/
opaque allocPick : Nat → Nat

/-- The payload of a breadcrumb whose layout the spec does not state, by its code and the values it tells of: free
(log entry 7). -/
opaque crumbPayload : Nat → List Int → Bytes

/-- The `n`-th free value drawn, for a quantity named by a code: free (log entry 6). -/
opaque freeValue : Nat → Nat → Nat

/-- SHA-384 of a byte string, 48 bytes: not computed here (log entry 8). -/
opaque sha384 : Bytes → Bytes

/-- ECDSA P-384 verification: public key, digest, signature (log entry 8). -/
opaque ecdsaOk : Bytes → Bytes → Bytes → Bool

/-- HMAC-SHA-256: key, message; 32 bytes (log entry 8). -/
opaque hmac256 : Bytes → Bytes → Bytes

/-- HMAC-SHA-384: key, message; 48 bytes (log entry 8). -/
opaque hmac384 : Bytes → Bytes → Bytes

/-- AES-256-GCM encryption: key, nonce, additional data, plaintext to ciphertext followed by its 16-byte tag
(log entry 8). -/
opaque gcmSeal : Bytes → Bytes → Bytes → Bytes → Bytes

/-- AES-256-GCM decryption: key, nonce, additional data, ciphertext and tag to plaintext (log entry 8). -/
opaque gcmOpen : Bytes → Bytes → Bytes → Bytes → Option Bytes

/-- AES-256-GMAC: key, nonce, message to a 16-byte tag (log entry 8). -/
opaque gmac : Bytes → Bytes → Bytes → Bytes

/-- AES-256-XTS encryption of a sector: key, tweak, data (log entry 8). -/
opaque xtsEnc : Bytes → Bytes → Bytes → Bytes

/-- AES-256-XTS decryption of a sector: key, tweak, data (log entry 8). -/
opaque xtsDec : Bytes → Bytes → Bytes → Bytes

/-- The next steering code of the DPLL's loop from its bandwidth (mHz), phase error (ps), last code and code width: the
spec gives the loop's type and damping, not its arithmetic (log entry 11). -/
opaque loopCode : Nat → Int → Nat → Nat → Nat

/-- What a sector of the medium holds before its first write: 4,096 data bytes (log entry 19). -/
opaque mediumData : Nat → Bytes

/-- The 64 stamp bytes a sector of the medium holds before its first write (log entry 19). -/
opaque mediumStamp : Nat → Bytes

/-- The position error of bursts whose sums are zero: the quotients of R571 are not defined there (log entry 20). -/
opaque pesCorner : Nat → Nat → Nat → Nat → Int

/-- The mean of levels averaged in linear power, in 0.1 dBm: the spec states no rounding (log entry 36). -/
opaque powerMean : List Int → Int

/-- The base microcode of a Spar: Spar, microaddress to microword; it is held in boot ROM and the spec does not print it
(log entry 61). -/
opaque baseWord : Nat → Nat → BitVec 32

/-- The base dispatch table of a Spar: Spar, OPC to entry (log entry 61). -/
opaque baseDispatch : Nat → Nat → BitVec 32

/-- The time label of an LTC frame at a fractional rate: rate code, drop-frame counting, second of the day, edge in 125 ps;
hours, minutes, seconds and frames as one number: SMPTE ST 2059-1 counts it, and the spec does not print that count
(log entry 63). -/
opaque ltcLabel : Nat → Bool → Nat → Nat → Nat

/-- The version of a Spar's base microcode, 16 bits (log entry 61). -/
opaque baseVersion : Nat → BitVec 16

end Sys2Proof.Config
end

