-- ==== Sys2Proof/Machine/Maps.lean ====
section
/-!
DEFINITION. Sparse maps as sorted association lists, and vectors indexed by a number.
-/
namespace Sys2Proof.Machine

/-- The value at a key. -/
def mget {α : Type} : AMap α → Nat → Option α
  | [], _ => none
  | (k, v) :: l, x => if k = x then some v else mget l x

/-- The value at a key, or a default. -/
def mgetD {α : Type} (m : AMap α) (x : Nat) (d : α) : α := (mget m x).getD d

/-- Put a value at a key, keys kept rising. -/
def mset {α : Type} : AMap α → Nat → α → AMap α
  | [], x, a => [(x, a)]
  | (k, v) :: l, x, a => if x < k then (x, a) :: (k, v) :: l else if x = k then (x, a) :: l else (k, v) :: mset l x a

/-- Remove a key. -/
def mdel {α : Type} (m : AMap α) (x : Nat) : AMap α := m.filter fun p => p.1 ≠ x

/-- Change the value at a key that is present. -/
def mmod {α : Type} (m : AMap α) (x : Nat) (f : α → α) : AMap α := m.map fun p => if p.1 = x then (p.1, f p.2) else p

/-- Element `i` of a vector, the type's default past its end. -/
def vat {α : Type} {n : Nat} [Inhabited α] (v : Vector α n) (i : Nat) : α := if h : i < n then v[i] else default

/-- Change element `i` of a vector; no change past its end. -/
def upd {α : Type} {n : Nat} (v : Vector α n) (i : Nat) (f : α → α) : Vector α n :=
  if h : i < n then v.set i (f v[i]) else v

/-- Replace element `i` of a vector. -/
def vset {α : Type} {n : Nat} (v : Vector α n) (i : Nat) (a : α) : Vector α n := upd v i fun _ => a

end Sys2Proof.Machine
end

