-- ==== Sys2Proof/Machine/State/Tenant.lean ====
section
/-!
DEFINITION. State of the tenants, their mailboxes and their interrupt views
(spec/04_tenants_and_mailboxes.md, spec/05_interrupt_sources.md). Every field's default is its value at reset.
-/
namespace Sys2Proof.Machine

/-- Tenant states, Table TEN.10 (R209). -/
inductive TState where
  | absent | ready | faulted | resetting
  deriving DecidableEq, Repr, Inhabited

/-- A time of the internal TAI timescale (R27, R28, R42): seconds, nanoseconds, fraction in 2^-16 ns. -/
structure Time where
  sec : Nat := 0
  ns : Nat := 0
  frac : Nat := 0
  deriving DecidableEq, Repr, Inhabited

/-- A response as MB_RSP holds it, Table TEN.7 (R193); its CRC is computed when it is read. -/
structure Rsp where
  op : Nat := 0
  seq : Nat := 0
  status : Nat := 0
  tokenValid : Bool := false
  forwarded : Bool := false
  pos : Nat := 0
  token : Nat := 0
  payload : Bytes := []
  deriving DecidableEq, Repr, Inhabited

/-- A request that was forwarded and waits for its answer (R201, R905). -/
structure Outstanding where
  op : Nat := 0
  seq : Nat := 0
  asyncOk : Bool := false
  target : Nat := 0
  deriving DecidableEq, Repr, Inhabited

/-- One tenant's own state: window registers, counts of Table TEN.17 and of Table LFT.14. -/
structure Tenant where
  /-- TEN_STATE.STATE, 2 bits (R209, R189; reset TEN.4) -/
  state : TState := .absent
  /-- MB_REQ, 256 bytes (R190, R192; reset TEN.4) -/
  mbReq : Bytes := List.replicate 256 0#8
  /-- MB_RSP: the response held, none reads as zeros (R193; reset TEN.4) -/
  rsp : Option Rsp := none
  /-- MB_STATUS.BUSY, 1 bit (R191; reset TEN.4) -/
  busy : Bool := false
  /-- MB_STATUS.RSP_READY, 1 bit (R193; reset TEN.4) -/
  rspReady : Bool := false
  /-- MB_STATUS.REFUSED, 1 bit (R191; reset TEN.4) -/
  refused : Bool := false
  /-- MB_STATUS.TRANSPORT, 1 bit, true is SPI (R190; reset TEN.4) -/
  transport : Bool := false
  /-- MB_STATUS.LAST_SEQ, 16 bits (R190; reset TEN.4) -/
  lastSeq : Nat := 0
  /-- TEN_FAULT.CAUSE, 8 bits, Table TEN.11 (R210; reset TEN.4) -/
  faultCause : Nat := 0
  /-- TEN_FAULT.COUNT, 16 bits, saturating (R210; reset TEN.4) -/
  faultCount : Nat := 0
  /-- RESETS of Table TEN.17, 32 bits, saturating (R221) -/
  resets : Nat := 0
  /-- LAST_RESET of Table TEN.17, 8 bits (R221) -/
  lastReset : Nat := 0
  /-- REQUESTS of Table TEN.17, 32 bits, saturating (R221) -/
  requests : Nat := 0
  /-- REFUSED of Table TEN.17, 32 bits, saturating (R221) -/
  refusedCount : Nat := 0
  /-- HEADER_FAILS of Table TEN.17, 32 bits, saturating (R221) -/
  headerFails : Nat := 0
  /-- uptimes in µs of the header-check failures of the last second, for MAILBOX_ABUSE (Table TEN.11) -/
  headerFailTimes : List Nat := []
  /-- uptimes in µs of the failed DMA transfers of the last second, for DMA_FAULT (Table TEN.11) -/
  dmaFailTimes : List Nat := []
  /-- the last completion token given, 32 bits; tokens count up and skip 0 (R206) -/
  lastToken : Nat := 0
  /-- uptime in µs at which the tenant reset in progress started (R215) -/
  resetStart : Nat := 0
  /-- the reset in progress was started by TEN_ENABLE with ENABLE clear (R224) -/
  resetDisable : Bool := false
  /-- tenant 0's token for the reset in progress, if tenant 0 commanded it (R223) -/
  resetToken : Option Nat := none
  /-- entries discarded by the reset in progress (R215) -/
  discarded : Nat := 0
  /-- work aborted by the reset in progress (R215) -/
  aborted : Nat := 0
  /-- the forwarded request that keeps BUSY set (R201) -/
  outstanding : Option Outstanding := none
  /-- forwarded requests answered ACCEPTED whose MBOX_EVENT has not come: EVENT slots kept for them (R906) -/
  awaiting : Nat := 0
  /-- quota, yealms (R137; reset R137) -/
  quota : Nat := 0
  /-- ingress limit, yealms (R137; reset R137) -/
  ingress : Nat := 0
  /-- ring limit, 0 to 32 (R156; reset R156) -/
  ringLimit : Nat := 0
  /-- IN_USE, yealms held (R137 to R141, Table LFT.14) -/
  held : Nat := 0
  /-- PEAK, highest IN_USE since reset (Table LFT.14) -/
  peak : Nat := 0
  /-- REFUSED of Table LFT.14: frames (R141) -/
  refFrames : Nat := 0
  /-- REFUSED of Table LFT.14: disk submissions held (R141) -/
  refDisk : Nat := 0
  /-- REFUSED of Table LFT.14: recording packets (R141) -/
  refRec : Nat := 0
  /-- REFUSED of Table LFT.14: cascade transfers (R141) -/
  refCas : Nat := 0
  /-- the four refusal counts as the last OVERLOAD record left them (R143) -/
  overloadBase : List Nat := [0, 0, 0, 0]
  /-- uptime in µs of the last OVERLOAD record (R143) -/
  overloadAt : Option Nat := none
  /-- ABUSE_TOTAL since tenant reset (R133) -/
  abuseTotal : Nat := 0
  /-- uptimes in µs of the abuses of the last second, newest first (R134) -/
  abuseTimes : List Nat := []
  /-- uptime in µs of the last LOFT_ABUSE record of tenant 0, and ABUSE_TOTAL then (R134) -/
  abuseLogged : Option (Nat × Nat) := none
  /-- FOREIGN_APERTURE (R154) -/
  foreignAperture : Nat := 0
  /-- FOREIGN_RING_WRITES (R165) -/
  foreignRing : Nat := 0
  /-- CORRECTED (R146) -/
  corrected : Nat := 0
  deriving DecidableEq, Repr, Inhabited

/-- A route, IRQ_ROUTE[9:0] (Table IRQ.2, R249 to R251). -/
structure Route where
  /-- VECTOR, 4 bits (Table IRQ.2; reset Table IRQ.2) -/
  vector : Nat := 0
  /-- VEC_EN, 1 bit (Table IRQ.2; reset Table IRQ.2) -/
  vecEn : Bool := true
  /-- MS_IRQ, 1 bit (Table IRQ.2; reset Table IRQ.2) -/
  msIrq : Bool := true
  /-- IRQ_N, 1 bit (R250; reset R250) -/
  irqN : Bool := false
  deriving DecidableEq, Repr, Inhabited

/-- One entry of a function's MSI-X table (R249, R266; PCI Express Base Specification). -/
structure MsixEntry where
  /-- message address, 64 bits (Table TEN.2) -/
  addr : Nat := 0
  /-- message data, 32 bits (Table TEN.2) -/
  data : Nat := 0
  /-- vector mask bit (R266; PRESUMED reset of the PCI Express Base Specification) -/
  masked : Bool := true
  deriving DecidableEq, Repr, Inhabited

/-- One tenant's interrupt view and its function's MSI-X capability (R236 to R267). -/
structure View where
  /-- IRQ_RAW, 128 bits (R242; reset Table IRQ.2) -/
  raw : BitVec 128 := 0
  /-- IRQ_MASK, 128 bits (R241; reset Table IRQ.2) -/
  mask : BitVec 128 := BitVec.allOnes 128
  /-- IRQ_COUNT, 128 counters of 32 bits (R245; reset Table IRQ.2) -/
  count : Vector Nat 128 := Vector.replicate 128 0
  /-- IRQ_ROUTE, 128 routes (R249; reset Table IRQ.2) -/
  route : Vector Route 128 := Vector.replicate 128 {}
  /-- MSI-X table, 16 vectors (Table TEN.1) -/
  msix : Vector MsixEntry 16 := Vector.replicate 16 {}
  /-- MSI-X pending-bit array, 16 bits (R266) -/
  pba : BitVec 16 := 0
  /-- MSI-X Enable of the function's configuration space (R252) -/
  msixEnable : Bool := false
  deriving DecidableEq, Repr, Inhabited

/-- Tenant 0's view after device reset: IRQ_N set for sources 120 to 127 (R250). -/
def View.resetOf (t : Nat) : View :=
  if t = 0 then { route := Vector.ofFn fun (s : Fin 128) => { irqN := decide (120 ≤ s.val) } } else {}

/-- An asynchronous command in flight: its token and what its work is (R205 to R207). -/
structure Job where
  tenant : Nat := 0
  token : Nat := 0
  op : Nat := 0
  /-- what identifies the work among commands of one opcode (a unit number, a handle) -/
  key : Nat := 0
  /-- the position of the module whose mailbox took the command, when it was forwarded here -/
  origin : Option Nat := none
  /-- the status the work ends with, when the request decides it -/
  status : Nat := 0
  /-- DATA of the completion, when the request decides it (Table LFT.11) -/
  result : Bytes := []
  /-- yealms pinned for the work (R131) -/
  pins : List Nat := []
  /-- the request's payload, for work done when it ends -/
  data : Bytes := []
  /-- another step than ASYNC_COMPLETION ends it -/
  waits : Bool := false
  /-- its work has ended during hold-up with this status and DATA: its completion is written after it (R952) -/
  ended : Option (Nat × Bytes) := none
  deriving DecidableEq, Repr, Inhabited

end Sys2Proof.Machine
end

