-- ==== Sys2Proof/Machine/State/Cascade.lean ====
section
/-!
DEFINITION. State of the cascade island (spec/17_declin_cascade.md). Every field's default is its value at reset.
-/
namespace Sys2Proof.Machine

/-- ACTING of Table CAS.11. -/
inductive Acting where
  | standalone | ridge | rafter | spare | actingRidge | displaced
  deriving DecidableEq, Repr, Inhabited

/-- Lane states of Table CAS.11. -/
inductive LaneState where
  | off | training | up | switching
  deriving DecidableEq, Repr, Inhabited

/-- RATE_POLICY of Table CAS.10. -/
inductive RatePolicy where
  | auto | full | quarter
  deriving DecidableEq, Repr, Inhabited

/-- A frame of the lane, Table CAS.3, as the sender keeps it (R885). -/
structure LaneFrame where
  type : Nat := 0
  fseq : Nat := 0
  dest : Nat := 0
  origin : Nat := 0
  encrypted : Bool := false
  payload : Bytes := []
  deriving DecidableEq, Repr, Inhabited

/-- One lane and its direction states. -/
structure Lane where
  /-- state (R882, Table CAS.11) -/
  state : LaneState := .off
  /-- quarter rate (R879) -/
  quarter : Bool := false
  /-- the peer was discovered (Table CAS.11) -/
  peer : Bool := false
  /-- RATE_POLICY (R929; reset R929: AUTO) -/
  policy : RatePolicy := .auto
  /-- FLAGS ENCRYPT, REQUIRE (R929; reset R929: clear) -/
  encrypt : Bool := false
  require : Bool := false
  /-- TX_SLOT, RX_SLOT, RX_NEXT_SLOT (Table CAS.10) -/
  txSlot : Nat := 0
  rxSlot : Nat := 0
  rxNext : Nat := 255
  /-- next FSEQ to send (R884) -/
  txSeq : Nat := 1
  /-- last FSEQ accepted (R884) -/
  rxSeq : Nat := 0
  /-- frames sent and not acknowledged, oldest first (R885) -/
  unacked : List LaneFrame := []
  /-- frames waiting for credit, a key or the link (R883, R903) -/
  queue : List LaneFrame := []
  /-- credits held per VC in 64-byte units (R883; reset R883) -/
  credit : Vector Nat 4 := #v[64, 512, 256, 8192]
  /-- consecutive resends without progress (R886) -/
  resends : Nat := 0
  /-- uptime in µs at which the link went down (R887) -/
  downAt : Option Nat := none
  /-- rate switch agreed: target is quarter rate (R890) -/
  switchTo : Option Bool := none
  /-- a REQ_DOWN of this module is outstanding (R891) -/
  reqDown : Bool := false
  /-- a REQ_UP of this module is outstanding -/
  reqUp : Bool := false
  /-- a rate request that waits for acknowledgements: true asks for quarter rate (R930) -/
  due : Option Bool := none
  /-- uptime in µs at which quarter rate began, for the quarter-rate seconds (CAS_COUNTERS) -/
  quarterAt : Nat := 0
  /-- source 78 or 79 was raised for the key failure in force (R903) -/
  keyTold : Bool := false
  /-- uptime in µs of the last raise of source 78 or 79 (R926) -/
  errAt : Option Nat := none
  /-- 12 counters of 8 bytes (CAS_COUNTERS) -/
  counters : Vector Nat 12 := Vector.replicate 12 0
  deriving DecidableEq, Repr, Inhabited

/-- A mirrored sector of this origin waiting for its acknowledgements (R914). -/
structure MirrorOut where
  gseq : Nat := 0
  channel : Nat := 0
  base : Nat := 0
  /-- positions still to answer -/
  waiting : List Nat := []
  /-- its own copy: none open, true verified, false lost -/
  own : Option Bool := none
  verified : Bool := false
  deriving DecidableEq, Repr, Inhabited

/-- What a mirror module knows of one origin (R913, R936). -/
structure MirrorIn where
  /-- the last GSEQ handed over -/
  lastGseq : Nat := 0
  /-- sectors waiting for a predecessor: GSEQ, header fields, data, arrival uptime in µs -/
  held : List (Nat × List Nat × Bytes × Nat) := []
  /-- results already acknowledged: GSEQ to result -/
  acked : AMap Nat := []
  /-- uptime in µs of the last MIRROR frame (Table CAS.8) -/
  lastAt : Nat := 0
  deriving DecidableEq, Repr, Inhabited

/-- A CAS_CAL_RUN in progress (R900). -/
structure CasCal where
  input : Nat := 0
  rate : Nat := 0
  samples : Nat := 0
  refDelay : Int := 0
  deriving DecidableEq, Repr, Inhabited

/-- A TIME frame's quality fields, Table CAS.5. -/
structure TimeQuality where
  clockClass : Nat := 248
  clockAccuracy : Nat := 254
  variance : Nat := 65535
  timeSource : Nat := 160
  deriving DecidableEq, Repr, Inhabited

/-- The cascade island. -/
structure Cascade where
  /-- ACTING (Table CAS.11) -/
  acting : Acting := .standalone
  /-- ID_MODULE_POS.POSITION, 3 bits (R875; reset Table TEN.3) -/
  position : Nat := 0
  /-- ID_MODULE_POS.VALID (R875; reset Table TEN.3) -/
  valid : Bool := false
  /-- MODULES, 1 to 8 (R873, R875) -/
  modules : Nat := 1
  /-- RIDGE_POS, none 0xFF (Table CAS.11) -/
  ridgePos : Option Nat := none
  /-- lanes: 0 CU, 1 CD -/
  lane : Vector Lane 2 := Vector.replicate 2 {}
  /-- outside the chain (Table CAS.1) -/
  outside : Bool := false
  /-- CASC_ROLE_CONFLICT was written in this boot -/
  conflictTold : Bool := false
  /-- uptime in µs at which DISCOVER was sent and no DISCOVER_END has come (R875, R878) -/
  discoverAt : Option Nat := none
  /-- highest lease number reported or seen (R910) -/
  leaseSeen : Nat := 0
  /-- the module's current lease number and next index (R910) -/
  lease : Option (Nat × Nat) := none
  /-- a lease granted while the current one still has numbers (R910) -/
  leaseNext : Option Nat := none
  /-- a LEASE_REQ waits for its grant (R910) -/
  leaseWanted : Bool := false
  /-- uptime in µs of the last heartbeat, from any Ridge and from position 0 (R920) -/
  beatAt : Option Nat := none
  beat0At : Nat := 0
  /-- heartbeats sent as acting Ridge, 16 bits (Table CAS.2) -/
  beatCount : Nat := 0
  /-- HANDBACK_PENDING: a handback is in progress (R924) -/
  handback : Bool := false
  /-- a displaced Ridge sets CHAIN_TIME for a handback (R924) -/
  handbackTime : Bool := false
  /-- the Ridge is counted as lost (R920) -/
  ridgeLost : Bool := false
  /-- EXCHANGE count of TIME frames sent per lane CU, CD (Table CAS.5) -/
  exchange : Nat × Nat := (0, 0)
  /-- departures and arrivals of the last TIME frames: CU arrival t2, CU departure t3, CD departure t1, CD arrival t4,
  and the EXCHANGE of the last UP frame received (R894, Table CAS.5) -/
  t2 : Option Time := none
  t3 : Option Time := none
  cdTx : Time := {}
  cdRx : Time := {}
  cdRxExchange : Nat := 0
  /-- CHAIN_TIME and quality of the last DOWN frame received (R895, R896) -/
  chainTime : Bool := false
  quality : TimeQuality := {}
  /-- uptime in µs of the last completed exchange (R897) -/
  exchangeAt : Nat := 0
  /-- HOP_OFFSET_PS, HOP_DELAY_PS (Table CAS.11) -/
  hopOffset : Int := 0
  hopDelay : Int := 0
  /-- ASYM_PS at full and quarter rate (R929; reset R929: 0) -/
  asymFull : Int := 0
  asymQuarter : Int := 0
  /-- FORWARD_MASK (R905; reset R905: 0x01) -/
  forwardMask : Nat := 1
  /-- FWD_MIN (R916; reset R916: NOTICE) -/
  fwdMin : Nat := 2
  /-- forward pointer: the highest own sequence forwarded (R916) -/
  fwdPtr : Nat := 0
  /-- records skipped when forwarding (R916) -/
  fwdSkipped : Nat := 0
  /-- the last copy tag given, 16 bits (Table CAS.3; log entry 14) -/
  copyTag : Nat := 0
  /-- remote-to-local copies being served: origin position, copy tag, pinned index (R908) -/
  serving : List (Nat × Nat × Nat) := []
  /-- CAS_CAL_RUN in progress (R900) -/
  cal : Option CasCal := none
  /-- mirrored sectors of this origin (R911, R914) -/
  mirrors : List MirrorOut := []
  /-- mirror state per origin position (R913) -/
  mirrorIn : Vector MirrorIn 8 := Vector.replicate 8 {}
  /-- bytes of the boot image received so far, ROM stage (R918) -/
  image : Bytes := []
  /-- total length of the image being received -/
  imageLen : Nat := 0
  deriving DecidableEq, Repr, Inhabited

end Sys2Proof.Machine
end

