-- ==== Sys2Proof/Machine/State/Disk.lean ====
section
/-!
DEFINITION. State of the read channel and servo (spec/11_read_channel_and_servo.md) and of the disk queue and
stamped recording (spec/12_disk_queue_and_recording.md). Every field's default is its value at reset.
-/
namespace Sys2Proof.Machine

/-- STATE of Table CHN.8. -/
inductive ChnState where
  | unconfigured | unloaded | loading | tracking | seeking | unloading | fault
  deriving DecidableEq, Repr, Inhabited

/-- One zone, Table CHN.2. -/
structure Zone where
  first : Nat := 0
  rate : Nat := 0
  spare : Nat := 0
  deriving DecidableEq, Repr, Inhabited

/-- The format setup, Tables CHN.1 and CHN.2. -/
structure Format where
  /-- Table CHN.1, 44 bytes as set -/
  hda : Bytes := []
  heads : Nat := 0
  autoLoad : Bool := true
  wedges : Nat := 0
  zones : AMap Zone := []
  nZones : Nat := 0
  cylinders : Nat := 0
  raCyl : Nat := 0
  raSectors : Nat := 0
  writeLimit : Nat := 123
  verifyIter : Nat := 6
  readRetries : Nat := 8
  verifyRetries : Nat := 1
  loopBw : Nat := 1200
  defectHigh : Nat := 75
  paHeadReg : Nat := 0
  paHeadShift : Nat := 0
  paModeReg : Nat := 0
  paModes : Bytes := [0, 0, 0, 0]
  paFaultReg : Nat := 0
  deriving DecidableEq, Repr, Inhabited

/-- Calibration record (R549). A place is (head * 32 + zone) * 2 + end: end 0 is the zone's first cylinder, 1 its last. -/
structure CalRec where
  /-- VCM_R (R578, CHN_CAL kind 1) -/
  vcmR : Option Int := none
  /-- JOG and RB_XT by place (R585) -/
  jog : AMap (Int × Int) := []
  /-- INDEX_SKEW_NS by head (R573, R585) -/
  skew : AMap Int := []
  /-- VERIFY_DELAY_NS by place (R583) -/
  verifyDelay : AMap Int := []
  /-- UNLOAD_MS (R582) -/
  unloadMs : Option Nat := none
  deriving DecidableEq, Repr, Inhabited

/-- A defect-list entry (R591). -/
structure Defect where
  head : Nat := 0
  cyl : Nat := 0
  sector : Nat := 0
  lba : Nat := 0
  kind : Nat := 2
  deriving DecidableEq, Repr, Inhabited

/-- A sector stamp, Table DSK.6. -/
structure Stamp where
  time : Time := {}
  quality : Nat := 0
  tenant : Nat := 0
  flags : Nat := 0
  channel : Nat := 0
  seq : Nat := 0
  lba : Nat := 0
  epoch : Nat := 0
  counter : Nat := 0
  sealTag : Bytes := List.replicate 12 0#8
  crc : Nat := 0
  deriving DecidableEq, Repr, Inhabited

/-- A sector on the medium. -/
structure Sector where
  data : Bytes := []
  stamp : Stamp := {}
  /-- the trailing reader verified it (R586) -/
  verified : Bool := false
  /-- what the sector held before a write that was not verified (R627) -/
  prior : Option (Bytes × Stamp) := none
  deriving DecidableEq, Repr, Inhabited

/-- The channel and servo islands. -/
structure Channel where
  /-- STATE (Table CHN.8) -/
  state : ChnState := .unconfigured
  /-- the setup being built by CHN_HDA_SET and CHN_ZONE_SET -/
  draft : Format := {}
  /-- the committed setup (R548) -/
  format : Option Format := none
  /-- MAX_LBA of the committed map (R563) -/
  maxLba : Nat := 0
  /-- calibration record (R549) -/
  cal : CalRec := {}
  /-- selected head (Table CHN.8) -/
  head : Nat := 0
  /-- last decoded cylinder (Table CHN.8) -/
  cyl : Nat := 0
  /-- seek target cylinder (R575) -/
  target : Nat := 0
  /-- PES, 1/1,024 track pitch (R571) -/
  pes : Int := 0
  /-- last valid wedge number; missed flag (R572, Table CHN.6) -/
  wedge : Nat := 0
  wedgeMissed : Bool := false
  /-- TICK of the last SAM (Table CHN.6) -/
  wedgeTick : Nat := 0
  /-- servo valid (Table CHN.8) -/
  servoValid : Bool := false
  /-- servo lost, search running (R574) -/
  searching : Bool := false
  /-- consecutive missed wedges, wrong-cylinder flag source, head mismatches (R574) -/
  missedRun : Nat := 0
  headMismatch : Nat := 0
  /-- consecutive wedges on track for reading, for writing (R575) -/
  onRead : Nat := 0
  onWrite : Nat := 0
  /-- the last wedge met R555 for writing -/
  writeOk : Bool := false
  /-- seek attempts of the seek in progress (R576) -/
  seekTries : Nat := 0
  /-- load attempts (R579) -/
  loadTries : Nat := 0
  /-- the unload in progress is a blind retract (R518) -/
  blind : Bool := false
  /-- the preamp's mode frame last written: 0 IDLE, 1 READ, 2 WRITE_VERIFY, 3 SLEEP (R553) -/
  paMode : Nat := 3
  /-- preamp registers last written (R551, R553) -/
  paRegs : AMap Nat := []
  /-- PA_WG level (R555; reset Table BAL.4) -/
  wg : Bool := false
  /-- PA_WG held low until device reset after PFAIL (R559) -/
  wgBlocked : Bool := false
  /-- PA_FLT level (R554) -/
  flt : Bool := false
  /-- gates open: read, servo, verify (R584, R331) -/
  gates : Bool × Bool × Bool := (false, false, false)
  /-- slices in service, 4 (R566, R569; reset R569: in service) -/
  slices : Vector Bool 4 := Vector.replicate 4 true
  /-- codewords whose samples are retained, at most 16 (R565) -/
  retained : Nat := 0
  /-- SPARES_FREE and all spares (Table CHN.8, R593) -/
  sparesFree : Nat := 0
  sparesAll : Nat := 0
  /-- G_ENTRIES and the defect list (R591) -/
  defects : List Defect := []
  /-- source 87 condition reported (R593) -/
  defectsHigh : Bool := false
  /-- WEDGES_MISSED, VERIFY_FAILS, SEEK_ERRORS, 32 bits, saturating (Table CHN.8) -/
  wedgesMissed : Nat := 0
  verifyFails : Nat := 0
  seekErrors : Nat := 0
  /-- the medium by LBA: sectors written -/
  medium : AMap Sector := []
  /-- the Formatter Spar's BUF port: buffer index to yealm handle (Table CHN.6) -/
  bufs : AMap Nat := []
  /-- the seek that ends a load is in progress (R578) -/
  loadSeek : Bool := false
  /-- the unload in progress undoes a load that is tried once more (R579) -/
  loadRetry : Bool := false
  /-- the channel enters FAULT when the heads are parked (R554, R579) -/
  faultNext : Bool := false
  /-- consecutive valid wedges of the search (R574) -/
  searchRun : Nat := 0
  /-- an unload waits for the aborts of disk commands to end (R629) -/
  parkWanted : Bool := false
  /-- the last verify's buffer index, verified, retried other slice (port VERIFY, Table CHN.6) -/
  verifyPort : Nat × Bool × Bool := (0, false, false)
  deriving DecidableEq, Repr, Inhabited

/-- An admitted disk command (R612). -/
structure DiskCmd where
  /-- which admission it was: the MODEL's name for the command -/
  id : Nat := 0
  ring : Nat := 0
  tenant : Nat := 0
  cls : Nat := 0
  tag : Nat := 0
  flags : Nat := 0
  lba : Nat := 0
  count : Nat := 0
  handles : List Nat := []
  stamps : Nat := 0
  hostTag : Nat := 0
  sealSlot : Nat := 0
  xtsSlot : Nat := 0
  /-- every handle pinned for the command, each once -/
  pins : List Nat := []
  /-- lock granted (R619) -/
  granted : Bool := false
  /-- uptime in µs of admission (R622) -/
  at_ : Nat := 0
  /-- LOCK_AGED was reported -/
  aged : Bool := false
  /-- completion FLAGS gathered (Table DSK.5) -/
  cflags : Nat := 0
  /-- sector indices verified or delivered good -/
  done : List Nat := []
  /-- in-place rewrites and read retries -/
  retries : Nat := 0
  /-- being aborted: the status it ends with (R629) -/
  abort : Option Nat := none
  /-- a sector whose PA_WG is high: its index -/
  onMedium : Option Nat := none
  /-- failed attempts by sector index (R587, R589) -/
  tries : AMap Nat := []
  /-- sector indices being written to a spare (R587) -/
  onSpare : List Nat := []
  /-- sector indices that have failed for good -/
  failed : List Nat := []
  /-- of those, sectors delivered all the same (R670) -/
  delivered : List Nat := []
  /-- the status of Table DSK.4 that applies so far -/
  fail : Option Nat := none
  /-- the loads of SEAL_SLOT and XTS_SLOT it was admitted with (R616) -/
  sealLoad : Nat := 0
  xtsLoad : Nat := 0
  /-- the next of its reserved sealing invocations (R791) -/
  sealNext : Nat := 0
  deriving DecidableEq, Repr, Inhabited

/-- An open sector of a recording channel (R642 to R645). -/
structure OpenSector where
  /-- first sequence of its slots (raw) or sequence of its first packet (framed) -/
  base : Nat := 0
  /-- packets placed: sequence, payload, from blue, arrival -/
  packets : List (Nat × Bytes × Bool × Time) := []
  /-- uptime in µs of its first packet -/
  since : Nat := 0
  /-- uptime in µs of the first packet for a later sector -/
  laterAt : Option Nat := none
  /-- its segment: the MODEL's name, START -/
  segment : Nat := 0
  start : Nat := 0
  /-- it carries GAP for what came before it (R640, R646, R948) -/
  gap : Bool := false
  /-- the yealm charged for it until it is handed over (R366, R960) -/
  yealm : Option Nat := none
  deriving DecidableEq, Repr, Inhabited

/-- A closed sector waiting for its verification (R647, R648). -/
structure ClosedSector where
  base : Nat := 0
  /-- sequences of its first and its last packet (Table DSK.6) -/
  firstSeq : Nat := 0
  lastSeq : Nat := 0
  data : Bytes := []
  /-- stamp FLAGS: [0] GAP, [1] DUP_MERGED -/
  flags : Nat := 0
  /-- its segment: the MODEL's name, START, END boundary -/
  segment : Nat := 0
  start : Nat := 0
  stop : Nat := 0
  yealm : Option Nat := none
  /-- the slot to seal it with (R651) -/
  sealSlot : Option Nat := none
  /-- positions to mirror it to, one bit each (R652) -/
  mirror : Nat := 0
  /-- log LBA once handed over -/
  lba : Option Nat := none
  /-- TENANT of its stamp, fixed at hand-over (R676) -/
  tenant : Nat := 0
  /-- failed attempts, and the write to a spare (R587) -/
  tries : Nat := 0
  onSpare : Bool := false
  /-- the sealing load and its next reserved invocation; none when unsealed (R651) -/
  sealUse : Option (Nat × Nat) := none
  /-- the GSEQ it was mirrored with (R911) -/
  gseq : Option Nat := none
  /-- a mirrored sector of another module: its origin and GSEQ (R912) -/
  origin : Option (Nat × Nat) := none
  /-- its own copy is lost, and acknowledgements are still open (R914) -/
  ended : Bool := false
  deriving DecidableEq, Repr, Inhabited

/-- A recording channel (R637), Table DSK.7 and its state. -/
structure RecChan where
  flags : Nat := 0
  sealSlot : Nat := 0
  payloadBytes : Nat := 0
  mergeUs : Nat := 10000
  maxFillMs : Nat := 100
  segmentS : Nat := 3600
  redFlow : Nat := 0
  blueFlow : Nat := 65535
  mirrorPos : Nat := 0
  /-- highest extended sequence seen (R640) -/
  highest : Option Nat := none
  /-- lowest sequence that can still be placed (R644) -/
  lowest : Nat := 0
  opened : List OpenSector := []
  closed : List ClosedSector := []
  /-- framed: packets held out of order: sequence, payload, from blue, arrival, uptime in µs (R643) -/
  heldPkts : List (Nat × Bytes × Bool × Time × Nat) := []
  /-- sequences recorded or held, for duplicates (R644) -/
  seen : List Nat := []
  /-- the open segment: the MODEL's name, START (R655) -/
  segment : Option (Nat × Nat) := none
  /-- the segment's first sequence, raw packing (R642) -/
  segFirst : Nat := 0
  /-- highest sequence recorded by segment (R646) -/
  high : AMap Nat := []
  /-- the last packet recorded, framed packing (R646) -/
  lastRec : Option Nat := none
  /-- segment, base and last sequence of the last sector handed over (R646) -/
  handed : Option (Nat × Nat × Nat) := none
  /-- the next sector opened carries GAP (R640, R948) -/
  gapNext : Bool := false
  /-- the next sector handed over carries GAP, for a lost one (R650) -/
  lostNext : Bool := false
  lastVerified : Nat := 0
  /-- RECORDED, DUPLICATE, LATE, MALFORMED, BAD_SIZE, REFUSED, NOT_RECORDING, BACKLOG, GAPS, SECTORS, LOST_SECTORS -/
  counts : Vector Nat 11 := Vector.replicate 11 0
  /-- uptime in µs of the last SEAL_FAILURE record (R651) -/
  sealLogged : Option Nat := none
  deriving DecidableEq, Repr, Inhabited

/-- A segment record, Table DSK.9. -/
structure Segment where
  /-- the MODEL's name for the segment -/
  id : Nat := 0
  /-- TAI second of its last verified sector's write time, and that sector's log LBA and last sequence (R656, R947) -/
  lastSec : Nat := 0
  verified : Option (Nat × Nat) := none
  channel : Nat := 0
  /-- the module whose sectors it mirrors -/
  origin : Option Nat := none
  flags : Nat := 0
  start : Nat := 0
  stop : Nat := 0
  firstLba : Nat := 0
  lastLba : Nat := 0
  lastSeq : Nat := 0
  retired : Bool := false
  deriving DecidableEq, Repr, Inhabited

/-- The disk queue and the recording service. -/
structure DiskQ where
  /-- admitted commands, in admission order: descriptor tags and lock entries (R612, R613, R617) -/
  cmds : List DiskCmd := []
  /-- the next admission's name -/
  nextId : Nat := 1
  /-- tag limits, one per tenant (R613; reset R613) -/
  tagLimit : Vector Nat 8 := Vector.replicate 8 128
  /-- recording tags in use, at most 128 (R613, R649) -/
  recTags : Nat := 0
  /-- sector writes since device reset (R633; reset R633) -/
  writeCount : Nat := 0
  /-- log area: first LBA and length (R653) -/
  logArea : Option (Nat × Nat) := none
  /-- next log LBA (R654) -/
  logNext : Nat := 0
  /-- block summaries being built: block to entries stored so far (R654) -/
  summary : AMap (AMap Bytes) := []
  /-- the log is full (R658) -/
  logFull : Bool := false
  /-- uptime in µs of the last REC_LOG_FULL record (R658) -/
  logFullAt : Option Nat := none
  /-- recording channels that are configured, by number, 512 (R637) -/
  chans : AMap RecChan := []
  /-- the next segment's name -/
  nextSeg : Nat := 1
  /-- segments that ended before their boundary, with FLAGS bits CUT or STEPPED (R657) -/
  segEnds : AMap Nat := []
  /-- segment directory (R656, R660) -/
  segs : List Segment := []
  deriving DecidableEq, Repr, Inhabited

end Sys2Proof.Machine
end

