-- ==== Sys2Proof/Machine/State/Keys.lean ====
section
/-!
DEFINITION. State of the crypto island: key slots, claims, debug access (spec/15_keys_and_crypto.md), and of the
TAP (spec/21_electrical_and_package.md). Every field's default is its value at reset.
-/
namespace Sys2Proof.Machine

/-- Retiring material (R797): its LOAD and the operations still using it. -/
structure Retiring where
  material : Bytes := []
  load : Nat := 0
  users : Nat := 0
  /-- the command that waits for its zeroisation: opcode -/
  op : Nat := 0
  deriving DecidableEq, Repr, Inhabited

/-- One key slot (R777, R780). -/
structure KeySlot where
  /-- KIND: 0 EMPTY, 1 XTS, 2 GMAC, 3 GCM, 4 HMAC256, 5 WRAP (Table KEY.1; reset R779) -/
  kind : Nat := 0
  /-- key material -/
  material : Bytes := []
  /-- USERS mask, 8 bits (R778) -/
  users : Nat := 0
  /-- FORM_NONCE (R780) -/
  formNonce : Bool := false
  /-- KEY_NAME, 32 bits -/
  name : Nat := 0
  /-- LOAD number (R788) -/
  load : Nat := 0
  /-- invocation count of this load, 48 bits and its limit (R789, R792) -/
  used : Nat := 0
  /-- worn, and its first failure reported (R792) -/
  worn : Bool := false
  /-- origin: 1 derived, 2 imported (R799) -/
  origin : Nat := 0
  /-- operations in progress on this load (R796) -/
  ops : Nat := 0
  /-- retiring material (R797) -/
  retiring : Option Retiring := none
  deriving DecidableEq, Repr, Inhabited

/-- The crypto island. -/
structure Keys where
  /-- slots 0 to 15 (R777; reset R779: EMPTY) -/
  slot : Vector KeySlot 16 := Vector.replicate 16 {}
  /-- LOAD numbers used in this boot, 16 bits and its limit (R788) -/
  loads : Nat := 0
  /-- claim mask, bit ID - 1 (R804; reset R804: islands 1 to 4 and 12) -/
  claims : Nat := 2063
  /-- claim denials, 32 bits, saturating (R803) -/
  denials : Nat := 0
  /-- uptime in µs of the last CLAIM_DENIED record per tenant (R803) -/
  deniedAt : Vector (Option Nat) 8 := Vector.replicate 8 none
  /-- import rejections, 32 bits, saturating (Table KEY.6) -/
  rejects : Nat := 0
  /-- boundary scan is unlocked (R807) -/
  unlocked : Bool := false
  /-- scan entered (R809) -/
  scan : Bool := false
  /-- current TAP instruction, 5 bits (R1075; reset Table ELE.19: IDCODE) -/
  tap : Nat := 2
  deriving DecidableEq, Repr, Inhabited

end Sys2Proof.Machine
end

