-- ==== Sys2Proof/Machine/State/Loft.lean ====
section
/-!
DEFINITION. State of the Loft, its yealm tags and its 32 rings (spec/03_loft_and_rings.md).
Every field's default is its value at reset.
-/
namespace Sys2Proof.Machine

/-- A yealm's tag (R124, R125, R131). -/
structure Tag where
  /-- owner, 3 bits (R124) -/
  owner : Nat := 0
  /-- generation, 1 to 255 (R125; reset R125) -/
  gen : Nat := 1
  /-- the yealm is allocated (R124) -/
  alloc : Bool := false
  /-- device uses of the yealm; pinned while positive (R131) -/
  pins : Nat := 0
  /-- the yealm is freed when its last pin ends: its tenant was reset (R178) -/
  doomed : Bool := false
  deriving DecidableEq, Repr, Inhabited

/-- Ring types, Table LFT.5. -/
inductive RingType where
  | submit | complete | rxframe | event
  deriving DecidableEq, Repr, Inhabited

/-- One hardware ring (Table LFT.6, R156 to R165). -/
structure Ring where
  /-- RING_TYPE.OPEN, 1 bit (R165; reset R165) -/
  opened : Bool := false
  /-- the owning tenant (R165) -/
  owner : Nat := 0
  /-- RING_TYPE.TYPE, 2 bits (R165; reset R165) -/
  type : RingType := .submit
  /-- RING_SIZE.LOG2_DEPTH, 4 bits (R165; reset R165) -/
  log2 : Nat := 0
  /-- RING_SIZE.PAIR and PAIRED (R165; reset R165) -/
  pair : Option Nat := none
  /-- RING_HEAD, 32 bits (R158; reset R157) -/
  head : Nat := 0
  /-- RING_TAIL, 32 bits (R158; reset R157) -/
  tail : Nat := 0
  /-- RING_STATUS.STALLED (R161; reset R165) -/
  stalled : Bool := false
  /-- RING_STATUS.STALL_CAUSE, 3 bits (R161; reset R165) -/
  stallCause : Nat := 0
  /-- RING_STATUS.OVERFLOW (R163; reset R165) -/
  overflow : Bool := false
  /-- RING_STATUS.BAD_PTR (R158; reset R165) -/
  badPtr : Bool := false
  /-- RING_STATUS.DROPPED, 16 bits, saturating (R162, R163; reset R165) -/
  dropped : Nat := 0
  /-- RING_IRQ_THRESH.COUNT, 13 bits (R164; reset R165) -/
  thCount : Nat := 0
  /-- RING_IRQ_THRESH.TIMEOUT_US, 16 bits (R164; reset R165) -/
  thTimeout : Nat := 0
  /-- SUBMIT: entries consumed since the last attention (R164) -/
  sinceAttn : Nat := 0
  /-- SUBMIT: consumed entries whose completion is not yet written, each holding one reserved slot of the paired ring (R161, R168) -/
  inFlight : Nat := 0
  /-- SUBMIT: the descriptor at HEAD, read once, while a bound holds it; empty when none is held (R159, R161) -/
  held : Bytes := []
  /-- RING_CLOSE was accepted and waits for the ring's work (R174) -/
  closing : Bool := false
  /-- EVENT: events not written since the last marker (R163) -/
  lost : Nat := 0
  deriving DecidableEq, Repr, Inhabited

/-- A consumed LOFT_DMA, frame, cascade copy or other non-disk submission still in flight (R131, R168). -/
structure Sub where
  ring : Nat := 0
  tenant : Nat := 0
  cls : Nat := 0
  tag : Nat := 0
  desc : Bytes := []
  /-- copy tag of a CAS_COPY (Table CAS.3) -/
  ctag : Nat := 0
  /-- a LOFT_DMA_OUT whose bytes were poisoned (Table LFT.4) -/
  poisoned : Bool := false
  deriving DecidableEq, Repr, Inhabited

/-- The Loft (R123 to R155). -/
structure Loft where
  /-- bytes written, address = yealm index * 4096 + byte; canonical sparse form, unlisted reads 0 (R129) -/
  mem : List (Nat × BitVec 8) := []
  /-- written map: granules (64 bytes) written since allocation, address / 64 (R129, R130) -/
  written : List Nat := []
  /-- poison map: poisoned granules, address / 64 (R147, R149) -/
  poison : List Nat := []
  /-- tags that differ from the reset tag, by yealm index (R124, R125) -/
  tags : AMap Tag := []
  /-- pool size in yealms (R152; reset R123) -/
  poolSize : Nat := 2064384
  /-- spares left (R151; reset Table LFT.1) -/
  spares : Nat := 4096
  /-- indices that left the pool for good (R152) -/
  gone : List Nat := []
  /-- indices remapped to a spare, with the spare's index (R151) -/
  remap : AMap Nat := []
  /-- yealms freed with poison and awaiting their retirement test (R151) -/
  testing : List Nat := []
  /-- the MODEL's own counter of free choices the allocator made (log entry 5) -/
  picks : Nat := 0
  deriving DecidableEq, Repr, Inhabited

end Sys2Proof.Machine
end

