-- ==== Sys2Proof/Machine/State/Motor.lean ====
section
/-!
DEFINITION. State of the motor island (spec/10_spindle_and_aux_motor.md).
Every field's default is its value at reset.
-/
namespace Sys2Proof.Machine

/-- Channel A states, Table MOT.2 (R501). -/
inductive SpinState where
  | stopped | align | ramp | accel | atSpeed | pullIn | locked | decel | brake | harvest | fault
  deriving DecidableEq, Repr, Inhabited

/-- MOT_A_CONFIG settings, Table MOT.7, at its defaults. -/
structure MotAConfig where
  /-- POLE_PAIRS (Table MOT.7) -/
  polePairs : Nat := 4
  /-- FLAGS: [0] DIRECTION, [1] AUTO_START (Table MOT.7) -/
  flags : Nat := 0
  /-- ALIGN_MA (Table MOT.7) -/
  alignMa : Nat := 800
  /-- ALIGN_MS (Table MOT.7) -/
  alignMs : Nat := 300
  /-- RAMP_START (Table MOT.7) -/
  rampStart : Nat := 30
  /-- RAMP_ACCEL (Table MOT.7) -/
  rampAccel : Nat := 600
  /-- HANDOVER_PCT (Table MOT.7) -/
  handoverPct : Nat := 10
  /-- ADVANCE_DEG (Table MOT.7) -/
  advanceDeg : Nat := 0
  /-- VIN_LIMIT_MA (Table MOT.7) -/
  vinLimit : Nat := 2000
  /-- PHASE_OC_MA (Table MOT.7) -/
  phaseOc : Nat := 4000
  /-- DECEL_MA (Table MOT.7) -/
  decelMa : Nat := 1000
  /-- REGEN_CEIL_MV (Table MOT.7) -/
  regenCeil : Nat := 13500
  /-- SPINUP_MAX_S (Table MOT.7) -/
  spinupMax : Nat := 20
  /-- BLANK_PCT (Table MOT.7) -/
  blankPct : Nat := 25
  /-- BLIND_RETRACT_MA (Table MOT.7) -/
  blindMa : Nat := 150
  /-- BLIND_RETRACT_MS (Table MOT.7) -/
  blindMs : Nat := 20
  deriving DecidableEq, Repr, Inhabited

/-- MOT_A_GENLOCK settings, Table MOT.8, at its defaults. -/
structure Genlock where
  /-- RATE (R502, Table MOT.8) -/
  rate : Nat := 13
  /-- FLAGS: [0] GENLOCK, [1] STAGGER (Table MOT.8) -/
  flags : Nat := 3
  /-- BW_CHZ (Table MOT.8) -/
  bw : Nat := 50
  /-- PHASE_NS (Table MOT.8) -/
  phaseNs : Nat := 0
  /-- PULL_PPM (Table MOT.8) -/
  pullPpm : Nat := 2000
  deriving DecidableEq, Repr, Inhabited

/-- Channel A. -/
structure MotA where
  /-- STATE, Table MOT.2 (R501) -/
  state : SpinState := .stopped
  /-- configuration in force (R535; defaults Table MOT.7) -/
  cfg : MotAConfig := {}
  /-- genlock settings in force (R535; defaults Table MOT.8) -/
  gen : Genlock := {}
  /-- a setup is in force: MOT_A_CONFIG has persisted (R535, R296) -/
  cfgSet : Bool := false
  /-- MOT_A_GENLOCK has persisted (R535) -/
  genSet : Bool := false
  /-- CAUSE (Table MOT.9) -/
  cause : Nat := 0
  /-- commutation step 1 to 6 being driven (R491, Table MOT.1) -/
  step : Nat := 6
  /-- consecutive steps with a valid zero crossing (R497) -/
  crossings : Nat := 0
  /-- the step being driven has shown a valid crossing (R497) -/
  crossed : Bool := false
  /-- failed attempts of this start (R498) -/
  attempts : Nat := 0
  /-- floating 500 ms before a retry (R498) -/
  retryWait : Bool := false
  /-- SPEED, 0.001 rev/s (Table MOT.9) -/
  speed : Nat := 0
  /-- index phase error, ns (Table MOT.9) -/
  phaseErr : Int := 0
  /-- consecutive revolutions within 1 µs (R507) -/
  goodRevs : Nat := 0
  /-- consecutive revolutions beyond 5 µs (R508) -/
  badRevs : Nat := 0
  /-- a servo index was seen (Table MOT.9) -/
  indexSeen : Bool := false
  /-- regen reduction active (R512) -/
  regen : Bool := false
  /-- a reduction was reported in this stop (R512) -/
  regenTold : Bool := false
  /-- VIN clamp active (R513) -/
  clamp : Bool := false
  /-- the stop under way is an emergency stop (R515) -/
  emergency : Bool := false
  /-- a stop waits for the heads to be parked (R511, R515) -/
  stopWait : Bool := false
  /-- channel A starts by itself once it is STOPPED (R520, R997) -/
  autoWait : Bool := false
  /-- all low sides are on in FAULT: the emergency brake of R523 is applied -/
  faultBrake : Bool := false
  /-- floating for the rest of this step after an overcurrent (R539) -/
  stepFloat : Bool := false
  /-- VIN current, mA (Table MOT.9) -/
  vinMa : Nat := 0
  /-- peak phase current, mA (Table MOT.9) -/
  phaseMa : Nat := 0
  /-- STARTS, 16 bits, saturating (Table MOT.9; reset Table MOT.9) -/
  starts : Nat := 0
  /-- HANDOVER_FAILS, 16 bits, saturating (Table MOT.9) -/
  handoverFails : Nat := 0
  /-- REGEN_EVENTS, 16 bits, saturating (R513) -/
  regenEvents : Nat := 0
  /-- overcurrents counted in DECEL or HARVEST (R539) -/
  ocCount : Nat := 0
  /-- µs not STOPPED since device reset, for RUN_S (Table MOT.9; reset Table MOT.9) -/
  runUs : Nat := 0
  /-- uptime in µs at which the start in progress was commanded (R500) -/
  startAt : Nat := 0
  /-- the Guard island holds the brake (R1012, R1042) -/
  guardBrake : Bool := false
  deriving DecidableEq, Repr, Inhabited

/-- Channel B states: Table MOT.2 codes 0 to 3, 6 RUNNING, 8, 10. -/
inductive BState where
  | stopped | align | ramp | accel | running | brake | fault
  deriving DecidableEq, Repr, Inhabited

/-- Channel B: MOT_B_CONFIG settings (Table MOT.10) and state. -/
structure MotB where
  /-- MOT_B_CONFIG has been given since device reset (R536, R544) -/
  configured : Bool := false
  /-- POLE_PAIRS (Table MOT.10; default) -/
  polePairs : Nat := 2
  /-- SOURCE (R536; reset R536) -/
  source : Nat := 0
  /-- FLAGS: [0] COAST_STOP, [1] LOSS_DETECT, [2] DIRECTION (Table MOT.10; default) -/
  flags : Nat := 2
  /-- DEADTIME, 100 ns (R525; Table MOT.10 default) -/
  deadtime : Nat := 5
  /-- PWM_KHZ (Table MOT.10 default) -/
  pwmKhz : Nat := 25
  /-- MIN_RPM (Table MOT.10 default) -/
  minRpm : Nat := 600
  /-- MAX_RPM (Table MOT.10 default) -/
  maxRpm : Nat := 6000
  /-- LOSS_RPM (Table MOT.10 default) -/
  lossRpm : Nat := 6000
  /-- IN_LO, IN_HI, IN_STOP (Table MOT.10) -/
  inLo : Nat := 0
  inHi : Nat := 0
  inStop : Nat := 0
  /-- ISNS_ZERO_MV, ISNS_GAIN, OC_MA (R527, Table MOT.10) -/
  isnsZero : Nat := 0
  isnsGain : Nat := 10
  ocMa : Nat := 100
  /-- ACCEL_RPM_S (Table MOT.10 default) -/
  accel : Nat := 1000
  /-- ALIGN_MS (Table MOT.10 default) -/
  alignMs : Nat := 300
  /-- state (R526, R536; reset R536: stopped) -/
  state : BState := .stopped
  /-- fault cause (MOT_B_STATUS) -/
  cause : Nat := 0
  /-- commutation step 1 to 6 (R491) -/
  step : Nat := 6
  /-- consecutive steps with a valid crossing, and the step being driven has shown one (R497) -/
  crossings : Nat := 0
  crossed : Bool := false
  /-- floating 500 ms before a retry (R498) -/
  retryWait : Bool := false
  /-- failed attempts of this start (R498) -/
  attempts : Nat := 0
  /-- speed, rpm -/
  speed : Nat := 0
  /-- commanded speed, rpm (R530) -/
  command : Nat := 0
  /-- speed target, rpm (R490, R531) -/
  target : Nat := 0
  /-- bridge current, mA -/
  current : Nat := 0
  /-- SPEED_CMD value as measured (R531) -/
  cmdValue : Nat := 0
  /-- uptime in µs of the last update of the speed target from SPEED_CMD (R531) -/
  cmdAt : Option Nat := none
  /-- SPEED_CMD is lost (R532) -/
  lost : Bool := false
  /-- waiting 1 s before a restart (R529) -/
  restartWait : Bool := false
  /-- uptimes in µs of the fault events of the last 60 s, newest first (R529) -/
  events : List Nat := []
  /-- gate levels UH, UL, VH, VL, WH, WL (R525; reset Table BAL.4) -/
  gates : Vector Bool 6 := Vector.replicate 6 false
  deriving DecidableEq, Repr, Inhabited

/-- The motor island. -/
structure Motor where
  a : MotA := {}
  b : MotB := {}
  deriving DecidableEq, Repr, Inhabited

end Sys2Proof.Machine
end

