-- ==== Sys2Proof/Machine/State/Net.lean ====
section
/-!
DEFINITION. State of the Ethernet ports and the flow classifier (spec/08_ethernet_ports.md) and of the PTP service
(spec/09_time_service.md). Every field's default is its value at reset.
-/
namespace Sys2Proof.Machine

/-- A flow entry, Table ETH.3, held as its 64 bytes' fields. -/
structure Flow where
  /-- MATCH, 16 bits (R392) -/
  match_ : Nat := 0
  /-- PORTS, 8 bits (R392) -/
  ports : Nat := 0
  /-- ACTION: 0 DROP, 1 DELIVER, 2 RECORD, 3 PTP (R392) -/
  action : Nat := 0
  /-- PRIORITY (R395) -/
  priority : Nat := 0
  /-- VID (R392) -/
  vid : Nat := 0
  /-- DMAC, 6 bytes (R392) -/
  dmac : Bytes := []
  /-- ETHERTYPE (R392) -/
  ethertype : Nat := 0
  /-- IPVER (R392) -/
  ipver : Nat := 0
  /-- PROTO (R392) -/
  proto : Nat := 0
  /-- SIP_PREFIX (R392) -/
  sipPrefix : Nat := 0
  /-- DIP_PREFIX (R392) -/
  dipPrefix : Nat := 0
  /-- SPORT (R392) -/
  sport : Nat := 0
  /-- DPORT (R392) -/
  dport : Nat := 0
  /-- SIP, 16 bytes (R392) -/
  sip : Bytes := []
  /-- DIP, 16 bytes (R392) -/
  dip : Bytes := []
  /-- RING (R392) -/
  ring : Nat := 0
  /-- LEG (R392) -/
  leg : Nat := 0
  /-- CHANNEL (R392) -/
  channel : Nat := 0
  /-- SERVICE code of the writer, 0xFF free (R397) -/
  service : Nat := 255
  deriving DecidableEq, Repr, Inhabited

/-- Counts of a flow or default flow (R401). -/
structure FlowCount where
  frames : Nat := 0
  bytes : Nat := 0
  dropped : Nat := 0
  deriving DecidableEq, Repr, Inhabited

/-- A frame in a receive buffer: FCS not included, its arrival timestamp. -/
structure RxFrame where
  data : Bytes := []
  time : Time := {}
  deriving DecidableEq, Repr, Inhabited

/-- A frame held under R383 at the head of the receive buffer: its classification is kept (R398). -/
structure HeldFrame where
  frame : RxFrame := {}
  /-- FLOW: an entry's index, 0xFFFF for the default flow -/
  index : Nat := 0
  flow : Flow := {}
  deriving DecidableEq, Repr, Inhabited

/-- A consumed NET_SEND not yet sent (R375, R377, R378), or a frame of the device's own. -/
structure TxFrame where
  /-- the ring it came from; none for a frame of the device -/
  ring : Option Nat := none
  tenant : Nat := 0
  tag : Nat := 0
  flags : Nat := 0
  /-- LENGTH of a NET_SEND -/
  len : Nat := 0
  /-- the bytes of a frame of the device -/
  data : Bytes := []
  handles : List Nat := []
  deriving DecidableEq, Repr, Inhabited

/-- SFP state of Table ETH.7. -/
inductive SfpState where
  | absent | present | stuck
  deriving DecidableEq, Repr, Inhabited

/-- One Ethernet port. -/
structure Port where
  /-- MODE: 0 DISABLED, 1 10GBASE-R, 2 1000BASE-X (R357; reset R357) -/
  mode : Nat := 0
  /-- FLAGS of Table ETH.6, 16 bits -/
  flags : Nat := 0
  /-- MAX_FRAME (R362) -/
  maxFrame : Nat := 1518
  /-- PAUSE_QUANTA (R384) -/
  pauseQuanta : Nat := 65535
  /-- LPI_IDLE_US (R388) -/
  lpiIdle : Nat := 1
  /-- DEFAULT_RING (R395) -/
  defaultRing : Nat := 0
  /-- MAC0 to MAC3, 6 bytes each (R363) -/
  macs : Vector Bytes 4 := Vector.replicate 4 [0, 0, 0, 0, 0, 0]
  /-- the port has been configured to another mode than DISABLED since device reset (R358) -/
  everOn : Bool := false
  /-- link up (R359) -/
  link : Bool := false
  /-- LINK_CHANGES, 32 bits, saturating (Table ETH.7) -/
  linkChanges : Nat := 0
  /-- SFP_LOS level (R360) -/
  los : Bool := false
  /-- SFP_TXDIS level (R358; reset R358) -/
  txDis : Bool := true
  /-- AN_RESULT (Table ETH.7) -/
  anResult : Nat := 0
  /-- the frame held under R383 -/
  held : Option HeldFrame := none
  /-- frames behind it in the receive buffer, in arrival order (R361, R369, R383) -/
  rxq : List RxFrame := []
  /-- XOFF has been sent and XON not yet (R383) -/
  xoff : Bool := false
  /-- received pause being honoured: its quanta (R380) -/
  pause : Option Nat := none
  /-- scheduled launches that fell due during it: message type and group (R381) -/
  late : List (Nat × Nat) := []
  /-- frames consumed or of the device, not yet sent, oldest first (R375, R378) -/
  txq : List TxFrame := []
  /-- TX in LPI (R388) -/
  txLpi : Bool := false
  /-- uptime in µs at which TX entered LPI (LPI_TX_TIME_US) -/
  txLpiSince : Nat := 0
  /-- RX in LPI (R390) -/
  rxLpi : Bool := false
  /-- partner's advertised Transmit Tw and Receive Tw, µs, once its EEE TLV came (R387, R388) -/
  partnerTw : Option (Nat × Nat) := none
  /-- the Transmit Tw last advertised, µs (R387) -/
  advTw : Nat := 6
  /-- the partner's echo agrees (R388) -/
  echoOk : Bool := false
  /-- 22 counters of 64 bits, Table ETH.4 order (R400; reset R400) -/
  counters : Vector Nat 22 := Vector.replicate 22 0
  /-- default flow's counts (R401) -/
  deflt : FlowCount := {}
  /-- an E counter rose since the last raise of source 72 + p (R409) -/
  errPending : Bool := false
  /-- uptime in µs of the last raise of source 72 + p (R409) -/
  errAt : Option Nat := none
  /-- SFP state (R404, R407) -/
  sfp : SfpState := .absent
  /-- A0h bytes 0 to 95 as read (R404) -/
  a0 : Bytes := []
  /-- A2h bytes 96 to 105 as last read (R405) -/
  ddm : Bytes := List.replicate 10 0#8
  /-- uptime in µs of the DDM read (Table ETH.7) -/
  ddmAt : Option Nat := none
  /-- the port's island failed (R50, R422) -/
  failed : Bool := false
  /-- uptime in µs of its last failure (R969) -/
  failAt : Option Nat := none
  /-- it stays failed until ETH_PORT_CONFIG names the port (R969) -/
  failLocked : Bool := false
  deriving DecidableEq, Repr, Inhabited

/-- A grant to a follower: log period, granted duration in s, uptime in µs of its expiry. -/
structure Grant where
  logPeriod : Int := 0
  duration : Nat := 0
  expiry : Nat := 0
  deriving DecidableEq, Repr, Inhabited

/-- A follower entry, Table PTP.5 (R445). -/
structure Follower where
  port : Nat := 0
  portId : Bytes := []
  mac : Bytes := []
  /-- 16 bytes; IPv4 in the first four -/
  addr : Bytes := []
  ipv6 : Bool := false
  auth : Bool := false
  announce : Option Grant := none
  sync : Option Grant := none
  delayResp : Option Grant := none
  phaseNs : Nat := 0
  /-- sequenceId per message type: Announce, Sync (R448) -/
  seqAnnounce : Nat := 0
  seqSync : Nat := 0
  deriving DecidableEq, Repr, Inhabited

/-- portState codes of IEEE 1588-2019 (0 when disabled). -/
inductive PtpState where
  | off | initializing | faulty | listening | master | uncalibrated | slave | passive
  deriving DecidableEq, Repr, Inhabited

/-- Parent and grandmaster data of Table PTP.13, as an Announce carries them (R450, R451). -/
structure Parent where
  portId : Bytes := List.replicate 10 0#8
  gmId : Bytes := List.replicate 8 0#8
  gmClass : Nat := 0
  gmAccuracy : Nat := 0
  gmVariance : Nat := 0
  gmPriority1 : Nat := 0
  gmPriority2 : Nat := 0
  steps : Nat := 0
  ptpTimescale : Bool := false
  utcValid : Bool := false
  utcOffset : Int := 0
  deriving DecidableEq, Repr, Inhabited

/-- A unicast master of PTP_UNICAST_MASTERS_SET and the grants held from it (R449). -/
structure UniMaster where
  addr : Bytes := []
  mac : Bytes := []
  /-- grants held: message type to granted duration in s -/
  grants : AMap Nat := []
  deriving DecidableEq, Repr, Inhabited

/-- One PTP instance. -/
structure PtpInst where
  /-- MODE of Table PTP.10 -/
  mode : Nat := 0
  /-- DOMAIN -/
  domain : Nat := 0
  /-- TRANSPORT: 1 is IPv6 -/
  ipv6 : Bool := false
  /-- LOG_INTERVALS Announce, Sync, Delay_Req; announceReceiptTimeout -/
  logAnnounce : Int := 0
  logSync : Int := 0
  logDelay : Int := 0
  receiptTimeout : Nat := 3
  /-- VID word -/
  vid : Nat := 0
  /-- FLOW_PRIORITY (Table PTP.10; reset Table PTP.10 default) -/
  flowPriority : Nat := 10
  /-- IPV4 and IPV6 addresses -/
  ip4 : Bytes := [0, 0, 0, 0]
  ip6 : Bytes := List.replicate 16 0#8
  /-- DSCP -/
  dscp : Nat := 0
  /-- flow-table indices this instance installed (R427) -/
  flows : List Nat := []
  /-- port state (R450, R470) -/
  state : PtpState := .off
  /-- parent and grandmaster (R453, R475) -/
  parent : Parent := {}
  /-- foreign masters heard: their last Announce and how many came (R450; IEEE 1588-2019 clause 9.3) -/
  foreign : List (Parent × Nat) := []
  /-- the last upstream message verified (R461) -/
  verified : Bool := false
  /-- last offset of R456, ps -/
  lastOffset : Int := 0
  /-- mean path delay, ps (R475) -/
  pathDelay : Int := 0
  /-- exchanges used since UNCALIBRATED (R456, R475) -/
  exchanges : Nat := 0
  /-- path delays of the last exchanges, newest first, at most 64 (R456) -/
  delays : List Int := []
  /-- t2 - t1 of the Sync being used, its correction applied, ps (R456) -/
  syncDiff : Option Int := none
  /-- a two-step Sync that waits for its Follow_Up: sequence, t2 less its correction, ps -/
  awaiting : Option (Nat × Int) := none
  /-- SM TLV held (48 bytes) and the uptime in µs it came (R459, R475) -/
  sm : Option (Bytes × Nat) := none
  /-- unicast masters (R449) -/
  masters : List UniMaster := []
  /-- TX_EXT_PS, RX_EXT_PS, DELAY_ASYMMETRY_PS (R463, R464) -/
  txExt : Int := 0
  rxExt : Int := 0
  asym : Int := 0
  /-- authentication: SPP, FLAGS, SLOT and KEY_ID current and next (R460, R461) -/
  spp : Nat := 0
  authFlags : Nat := 0
  slotCur : Nat := 0
  keyCur : Nat := 0
  slotNext : Nat := 0
  keyNext : Nat := 0
  /-- sequenceIds of the instance's multicast messages: Announce, Sync (R448) -/
  seqAnnounce : Nat := 0
  seqSync : Nat := 0
  /-- PTP counters, Table PTP.12 order, 64 bits (reset Table PTP.12) -/
  counters : Vector Nat 16 := Vector.replicate 16 0
  /-- uptime in µs of the last PTP_AUTH_FAIL record (R461) -/
  authLogged : Option Nat := none
  /-- general messages queued to Campel (R439) -/
  generalQ : Nat := 0
  /-- two-step Syncs sent whose Follow_Up is due: group, sequence, true departure (R432) -/
  followUps : List (Nat × Nat × Time) := []
  deriving DecidableEq, Repr, Inhabited

/-- A PTP_CAL_RUN in progress (R467). -/
structure PtpCal where
  port : Nat := 0
  input : Nat := 0
  role : Nat := 0
  samples : Nat := 0
  refDelay : Int := 0
  deriving DecidableEq, Repr, Inhabited

/-- The ports, the classifier and the PTP service. -/
structure Net where
  /-- ports 0 to 5 -/
  port : Vector Port 6 := Vector.replicate 6 {}
  /-- flow entries that are not free, by index, 4,096 (R392, R397) -/
  flows : AMap Flow := []
  /-- counts of flow entries, by index (R401) -/
  counts : AMap FlowCount := []
  /-- PTP instances 0 to 5 -/
  ptp : Vector PtpInst 6 := Vector.replicate 6 {}
  /-- follower table, at most 4,096 (R445) -/
  followers : AMap Follower := []
  /-- port that supplies the PTP reference (R453) -/
  refPort : Option Nat := none
  /-- PTP_CLOCK_CONFIG: PRIORITY1, PRIORITY2 (Table PTP.11; reset Table PTP.11 default) -/
  priority1 : Nat := 128
  priority2 : Nat := 128
  /-- CLASS_FOLLOWING (Table PTP.11; reset Table PTP.11 default) -/
  classFollowing : Nat := 248
  /-- ACCEPT_CLASS (Table PTP.11; reset Table PTP.11 default) -/
  acceptClass : Nat := 127
  /-- GRANT_MAX, s (Table PTP.11; reset Table PTP.11 default) -/
  grantMax : Nat := 300
  /-- DELAY_FILTER_NS (Table PTP.11; reset Table PTP.11 default) -/
  delayFilter : Nat := 200
  /-- FRAME_RATE (Table PTP.11; reset Table PTP.11 default) -/
  frameRate : Nat := 0
  /-- SM_FLAGS (Table PTP.11) -/
  smFlags : Nat := 0
  /-- CLOCK_ID, 8 bytes (Table PTP.11) -/
  clockId : Bytes := List.replicate 8 0#8
  /-- uptime in µs of the last PTP_TABLE_FULL record (R446) -/
  tableFullAt : Option Nat := none
  /-- PTP_CAL_RUN in progress (R467) -/
  cal : Option PtpCal := none
  /-- Delay_Resp sent in this second, device-wide and per port, and the uptime second counted (R438) -/
  respCount : Nat := 0
  respPort : Vector Nat 6 := Vector.replicate 6 0
  respSec : Nat := 0
  deriving DecidableEq, Repr, Inhabited

end Sys2Proof.Machine
end

