-- ==== Sys2Proof/Machine/State/Out.lean ====
section
/-!
DEFINITION. What the device emits: the MODEL's own append-only log of effects at its balls and lanes (log entry 4).
-/
namespace Sys2Proof.Machine

/-- One thing the device emits. -/
inductive Out where
  /-- an MSI-X message of a function on a vector (R249) -/
  | msix (fn vec addr data : Nat)
  /-- bytes on MS_MISO in one transaction (R195) -/
  | miso (b : Bytes)
  /-- register or aperture data returned over PCIe; poisoned TLP flag (Table LFT.4) -/
  | pcie (b : Bytes) (poisoned : Bool)
  /-- a DMA write to host memory; poisoned TLP flag (R150) -/
  | dmaWrite (addr : Nat) (b : Bytes) (poisoned : Bool)
  /-- a DMA read request of host memory -/
  | dmaRead (addr len : Nat)
  /-- an AER non-fatal error of a function (Table LFT.4) -/
  | aer (fn : Nat)
  /-- a frame sent on an Ethernet port, FCS not included, with its departure time -/
  | frame (port : Nat) (b : Bytes) (t : Time)
  /-- a PAUSE frame sent (R384) -/
  | pause (port quanta : Nat)
  /-- an OCXO DAC frame, 24 bits (R71) -/
  | dac (word : Nat)
  /-- bytes sent on GNSS_TXD (R55) -/
  | gnss (b : Bytes)
  /-- a time spine frame, 100 bits (R86) -/
  | spine (bits : Nat)
  /-- an edge of a cadence output at a TAI instant in 125 ps units (R91) -/
  | cadenceEdge (output : Nat) (at125 : Nat) (level : Bool)
  /-- an RF serial frame (R681) -/
  | rf (cs word : Nat)
  /-- a BIAS_DAC output's new code (R709) -/
  | bias (output code : Nat)
  /-- a preamp frame, 16 bits (R551) -/
  | preamp (word : Nat)
  /-- a two-wire transaction started: SFP port or 6 for AUX (R402, R714) -/
  | twoWire (bus addr off : Nat) (write : Bool) (b : Bytes)
  /-- recovery pulses on a two-wire bus (R406, R715) -/
  | scl (bus : Nat)
  /-- a frame sent on a Declin lane (0 CU, 1 CD) (R881) -/
  | lane (lane type dest origin : Nat) (encrypted resent : Bool) (b : Bytes)
  /-- a control block on a Declin lane: type and bytes 1 to 7 (Table CAS.2) -/
  | block (lane type : Nat) (b : Bytes)
  /-- a boot flash erase or program operation (R298) -/
  | flash (op offset len : Nat)
  /-- an OTP row burned (R299) -/
  | otp (row word : Nat)
  /-- an action of a Spar's action queue done at its instant (R320) -/
  | action (spar unit act tick : Nat)
  /-- a seek or load current command to the VCM (R575, R578, R580) -/
  | vcm (kind target : Nat)
  /-- a motor step driven: channel 0 A, 1 B; step 1 to 6, 0 floats, 7 brake -/
  | motorStep (channel step : Nat)
  /-- the data register of `n` bits that a TAP instruction selects for TDO (R1055, R1075) -/
  | tdo (n value : Nat)
  /-- a PTP message: port, type, destination group or follower, body (R432 to R434) -/
  | ptp (port type group : Nat) (b : Bytes)
  deriving DecidableEq, Repr, Inhabited

end Sys2Proof.Machine
end

