-- ==== Sys2Proof/Machine/State/Radio.lean ====
section
/-!
DEFINITION. State of the radio front-end control (spec/13_radio_control.md) and of the Eave guard
(spec/14_eave_guard.md). Every field's default is its value at reset.
-/
namespace Sys2Proof.Machine

/-- Band states, Table RAD.4. -/
inductive BandState where
  | off | tuning | standby | active | fault
  deriving DecidableEq, Repr, Inhabited

/-- Entry states of Table RAD.13. -/
inductive EntryState where
  | uncalibrated | calibrated | stale
  deriving DecidableEq, Repr, Inhabited

/-- A synthesizer entry, Table RAD.3, with its calibration (R684, R685). -/
structure SynthEntry where
  /-- FREQ_KHZ and WORD0 to WORD2 -/
  freq : Nat := 0
  words : Vector Nat 3 := Vector.replicate 3 0
  state : EntryState := .uncalibrated
  /-- CAL_VALUE -/
  calValue : Nat := 0
  /-- CAL_TEMP, 1/256 degree C -/
  calTemp : Int := 0
  deriving DecidableEq, Repr, Inhabited

/-- What a synthesizer is doing: a hop or a calibration, and the step it waits at (R685, R686). -/
inductive SynthWork where
  | idle
  /-- a hop to an entry: frames sent, waiting LOCK_NS and the lock check -/
  | hop (entry : Nat) (retried : Bool)
  /-- a calibration of an entry: waiting CAL_WAIT_US -/
  | cal (entry : Nat) (retried : Bool)
  deriving DecidableEq, Repr, Inhabited

/-- A synthesizer, Table RAD.2. -/
structure Synth where
  configured : Bool := false
  cs : Nat := 0
  words : Nat := 1
  calWord : Nat := 0
  autoCalBits : Nat := 0
  calReadWord : Nat := 0
  calMask : Nat := 0
  calShift : Nat := 0
  tempSrc : Nat := 0
  tempAddr : Nat := 0
  tempReg : Nat := 0
  calWaitUs : Nat := 10
  lockNs : Nat := 500
  lockWord : Nat := 0
  lockMask : Nat := 0
  lockValue : Nat := 0
  /-- the 64 entries that are loaded (R684); an unlisted one is zero and UNCALIBRATED -/
  entries : AMap SynthEntry := []
  /-- current temperature, 1/256 degree C (R688) -/
  temp : Int := 0
  /-- TEMP_FALLBACK (R716) -/
  fallback : Bool := false
  /-- CAL_TEMP of its entries takes the next reading (R716, R717) -/
  rebase : Bool := false
  /-- work in progress -/
  work : SynthWork := .idle
  /-- entries a RADIO_SYNTH_CAL run has still to calibrate -/
  calQueue : List Nat := []
  /-- a RADIO_SYNTH_CAL run is in progress -/
  calRun : Bool := false
  /-- the calibration in progress is automatic (R689) or a recovery (R693) -/
  auto : Bool := false
  deriving DecidableEq, Repr, Inhabited

/-- A TDD pattern, Table RAD.7. -/
structure Tdd where
  periodUs : Nat := 5000
  phaseNs : Nat := 0
  advance : Int := 0
  /-- transitions: OFFSET_NS, DIR -/
  trans : List (Nat × Nat) := []
  deriving DecidableEq, Repr, Inhabited

/-- One band slot, with its Eave guard state. -/
structure Band where
  /-- state (R694; reset R680: OFF) -/
  state : BandState := .off
  /-- FLAGS: [0] TDD, [1] RESUME (Table RAD.6) -/
  flags : Nat := 0
  /-- ENTRY used at start -/
  startEntry : Nat := 0
  attenCs : Nat := 0
  attenShift : Nat := 0
  attenIn : Nat := 0
  attenOut : Nat := 0
  configured : Bool := false
  /-- synthesizer entry in use (Table RAD.13) -/
  entry : Nat := 0
  /-- ACTIVATE of the start, or the state to return to (Table RAD.5) -/
  activate : Bool := false
  /-- it was ACTIVE when RUN was left (R680) -/
  wasActive : Bool := false
  /-- muted for a hop, recalibration or lock loss (R689, R693, R721) -/
  tuneMute : Bool := false
  /-- TDD pattern in force and pending with the TAI second of its boundary (R702) -/
  tdd : Option Tdd := none
  tddNext : Option (Tdd × Nat) := none
  /-- BAND_DIR: 0 quiet or turnaround, 1 inward, 2 outward -/
  dir : Nat := 0
  /-- TDD_GATE level (R679, R698; reset R679) -/
  gate : Bool := false
  /-- BAND_EN level (R679, R698; reset R679) -/
  en : Bool := false
  /-- held QUIET until TAI ns: time step or cause 4 (R704, R748) -/
  quiet : Bool := false
  /-- uptime in µs at which a time step made it QUIET (R704) -/
  quietAt : Nat := 0
  /-- guard causes in force, bit code - 1 (R733) -/
  causes : Nat := 0
  /-- LAST_CAUSE (Table EAV.8) -/
  lastCause : Nat := 0
  /-- MUTES, 32 bits, saturating (Table EAV.8; reset Table EAV.8) -/
  mutes : Nat := 0
  /-- uptimes in µs of automatic restarts in the last 3,600 s, newest first (R757, R759) -/
  restarts : List Nat := []
  /-- back-off running: uptime in µs at which it ends (R757) -/
  backoff : Option Nat := none
  /-- its length, s -/
  backoffS : Nat := 0
  /-- LATCHED by cause (R759) -/
  latched : Option Nat := none
  /-- ceilings just before the mute, inward and outward (R758) -/
  preMute : Nat × Nat := (0, 0)
  /-- MARGIN, 0.5 dB (R741; reset Table EAV.7 default) -/
  margin : Nat := 30
  /-- RISE_ENTRIES (reset Table EAV.7 default) -/
  rise : Nat := 4
  /-- FLAGS NOISE_EN, OOB_EN (reset Table EAV.7 default) -/
  gflags : Nat := 3
  /-- OSC_EXCESS (reset Table EAV.7 default) -/
  oscExcess : Nat := 60
  /-- OUT_LIMIT_IN, OUT_LIMIT_OUT (reset Table EAV.7 default) -/
  outLimIn : Int := 200
  outLimOut : Int := 200
  /-- NOISE_LIMIT (reset Table EAV.7 default) -/
  noiseLimit : Int := -600
  /-- TRAFFIC (reset Table EAV.7 default) -/
  traffic : Int := -900
  /-- NOISE_PERSIST (reset Table EAV.7 default) -/
  noisePersist : Nat := 3
  /-- THERM_BACKOFF (reset Table EAV.7 default) -/
  thermBackoff : Nat := 6
  /-- OOB_LIMIT (reset Table EAV.7 default) -/
  oobLimit : Int := -300
  /-- START_ENTRY (reset Table EAV.7 default) -/
  guardStart : Nat := 0
  deriving DecidableEq, Repr, Inhabited

/-- One path and its guard estimate. -/
structure Path where
  /-- GAIN_TOP, 0.1 dB -/
  gainTop : Int := 0
  /-- MUTE_CODE, MUTE_BIAS, DITHER_DELTA -/
  muteCode : Nat := 0
  muteBias : Nat := 0
  dither : Int := 0
  /-- 64-entry table: attenuator code, bias code; unlisted (0, 0) -/
  table : AMap (Nat × Nat) := []
  /-- commanded entry (R706) -/
  cmd : Nat := 0
  /-- applied entry (R706) -/
  applied : Nat := 0
  /-- muted (R695) -/
  muted : Bool := true
  /-- a dither step is on: the sign sent (R708) -/
  dithering : Option Bool := none
  /-- ceiling entry; none under cause 9 (R740, R743) -/
  ceiling : Option Nat := some 0
  /-- ceiling the previous estimate allowed (R742) -/
  lastAllow : Option Nat := none
  /-- ladder stage (R744) -/
  stage : Nat := 0
  /-- I_p, 0.1 dB, when an estimate is valid (R737) -/
  iso : Option Int := none
  /-- LOWER_BOUND (R738) -/
  lower : Bool := false
  /-- uptime in µs of the last estimate -/
  isoAt : Nat := 0
  /-- L_OUT and P_LEAK, 0.1 dBm -/
  lOut : Int := 0
  pLeak : Int := 0
  /-- uptime in µs of the last EAVE_ISO record (R739) -/
  isoLogged : Option Nat := none
  deriving DecidableEq, Repr, Inhabited

/-- One detector, Table RAD.9. -/
structure Detector where
  role : Nat := 0
  target : Nat := 0
  flags : Nat := 0
  slope : Nat := 10
  intercept : Int := 0
  windowUs : Nat := 100
  /-- last code, 12 bits, and TICK of the sample (R710) -/
  code : Nat := 0
  tick : Nat := 0
  /-- last level, and window mean, min, max, samples, 0.1 dBm (R713) -/
  last : Int := 0
  mean : Int := 0
  min : Int := 0
  max : Int := 0
  samples : Nat := 0
  /-- conversions of the window being gathered, and the levels used of them, newest first (R712) -/
  seen : Nat := 0
  window : List Int := []
  deriving DecidableEq, Repr, Inhabited

/-- A frame waiting on the RF serial port, with its priority 1 to 6 (R683). -/
structure RfFrame where
  prio : Nat := 6
  cs : Nat := 0
  word : Nat := 0
  deriving DecidableEq, Repr, Inhabited

/-- A chip select, Table RAD.1. -/
structure RfDevice where
  wordBits : Nat := 8
  clkMhz : Nat := 10
  flags : Nat := 0
  deriving DecidableEq, Repr, Inhabited

/-- A BIAS_DAC output, Table RAD.8. -/
structure Bias where
  /-- assigned path; none is FIXED -/
  path : Option Nat := none
  fixed : Nat := 0
  /-- code driven (R709; reset R679: 0 V) -/
  code : Nat := 0
  deriving DecidableEq, Repr, Inhabited

/-- The radio island and the Eave guard. -/
structure Radio where
  device : Vector RfDevice 4 := Vector.replicate 4 {}
  synth : Vector Synth 4 := Vector.replicate 4 {}
  band : Vector Band 4 := Vector.replicate 4 {}
  path : Vector Path 8 := Vector.replicate 8 {}
  det : Vector Detector 8 := Vector.replicate 8 {}
  bias : Vector Bias 2 := Vector.replicate 2 {}
  /-- the frame in progress on the RF serial port -/
  rfNow : Option RfFrame := none
  /-- frames waiting for it, in order of sending (R683) -/
  frames : List RfFrame := []
  /-- word captured by the last frame (RFSPI_RX) -/
  rx : Nat := 0
  /-- AUX bus STUCK (R716) -/
  auxStuck : Bool := false
  /-- whole-repeater causes: RF_KILL, MACHINE_CHECK, THERMAL, MODE (Table EAV.8; R750: MODE outside RUN) -/
  killed : Bool := false
  mcMute : Bool := false
  thermMute : Bool := false
  modeMute : Bool := true
  /-- thermal back-off is in force (R749) -/
  thermBack : Bool := false
  /-- RF_KILL_N level -/
  killN : Bool := true
  /-- GUARD_MUTE level: high mutes (R752; reset R752: high) -/
  guardMute : Bool := true
  /-- the last whole-repeater cause has lifted and GUARD_MUTE has not yet fallen (R755) -/
  releasing : Bool := false
  deriving DecidableEq, Repr, Inhabited

end Sys2Proof.Machine
end

