-- ==== Sys2Proof/Machine/State/Recorder.lean ====
section
/-!
DEFINITION. State of the Breadcrumb recorder (spec/16_breadcrumb_recorder.md).
Every field's default is its value at reset.
-/
namespace Sys2Proof.Machine

/-- A 64-byte record, Table BRC.1 (R823); its CRC, fill and VALID bytes are computed when it is read. -/
structure Record where
  seq : Nat := 0
  time : Time := {}
  source : Nat := 0
  code : Nat := 0
  tenant : Nat := 0
  severity : Nat := 0
  /-- FLAGS, 16 bits, Table BRC.2 -/
  flags : Nat := 0
  payload : Bytes := []
  deriving DecidableEq, Repr, Inhabited

/-- One journal slot in use (R831): its record, and whether its CRC holds. -/
structure JSlot where
  record : Record := {}
  corrupt : Bool := false
  deriving DecidableEq, Repr, Inhabited

/-- Chronicle states, Table BRC.6 (R839). -/
inductive ChronState where
  | none | active | foreign | unavailable
  deriving DecidableEq, Repr, Inhabited

/-- A chronicle header, Table BRC.5. -/
structure ChronHeader where
  identity : List Nat := []
  raCyl : Nat := 0
  zone0Rate : Nat := 0
  raSectors : Nat := 0
  epoch : Nat := 0
  collected : Nat := 0
  deriving DecidableEq, Repr, Inhabited

/-- The chronicle pointer of the keepsake area (R843). -/
structure ChronPtr where
  nextIndex : Nat := 1
  firstSeq : Nat := 0
  header : Option ChronHeader := none
  collected : Nat := 0
  /-- the cascade forward pointer kept with it (R916) -/
  forward : Nat := 0
  deriving DecidableEq, Repr, Inhabited

/-- One tenant's recorder read window, Table BRC.7 (R849, R850). -/
structure BrcWindow where
  /-- BRC_READ_SEQ, 48 bits (R849; reset Table BRC.7) -/
  seq : Nat := 0
  /-- BRC_READ_STATUS.CODE, 3 bits (R849; reset Table BRC.7) -/
  code : Nat := 0
  /-- BRC_READ_STATUS.AUTO, 1 bit (R850; reset Table BRC.7) -/
  auto : Bool := false
  /-- BRC_DATA0 to 15, 64 bytes (R849; reset Table BRC.7) -/
  data : Bytes := List.replicate 64 0#8
  deriving DecidableEq, Repr, Inhabited

/-- The Breadcrumb recorder (R823 to R871). -/
structure Recorder where
  /-- BRC_SEQ_HEAD, 48 bits: the highest sequence assigned (R824, R849; reset Table BRC.7) -/
  head : Nat := 0
  /-- staging: records waiting, oldest first, at most 64 (R830, Table BRC.4) -/
  staging : List Record := []
  /-- journal slots 0 to 7,999 in use (R830, R831) -/
  journal : AMap JSlot := []
  /-- the next journal slot to write (R830) -/
  nextSlot : Nat := 0
  /-- retirement bitmap: retired slots (R852) -/
  retired : List Nat := []
  /-- the NVM is faulted: disk-only operation (R853) -/
  nvmFaulted : Bool := false
  /-- journal banks that answer and accept header writes, A and B (R853) -/
  bankOk : Bool × Bool := (true, true)
  /-- records are on the medium here: (index of half A and B, records) of the data sectors (R835, R836) -/
  chron : AMap (List Record) := []
  /-- the open sector's records, not yet chronicled whole (R836) -/
  openSector : List Record := []
  /-- uptime in µs at which the open sector got its first record (R836) -/
  openSince : Nat := 0
  /-- the highest sequence chronicled (R837) -/
  chronicled : Nat := 0
  /-- chronicle state in force, Table BRC.6 (R839) -/
  chronState : ChronState := .none
  /-- the chronicle header on the medium (R840) -/
  header : Option ChronHeader := none
  /-- the next data-sector index (R835, R843) -/
  nextIndex : Nat := 1
  /-- the sequence of the first record of the sector being filled (R843) -/
  firstSeq : Nat := 0
  /-- data-sector writes since the pointer was persisted (R843) -/
  sincePersist : Nat := 0
  /-- the pointer as the keepsake area holds it (R843) -/
  pointer : ChronPtr := {}
  /-- COLLECTED, 48 bits (R846) -/
  collected : Nat := 0
  /-- uptime in µs of the last header rewrite (R846) -/
  headerAt : Option Nat := none
  /-- OVERWRITTEN_UNCOLLECTED, 32 bits, saturating (R845) -/
  overwritten : Nat := 0
  /-- uptime in µs of the last raise of source 116 (R845) -/
  fullAt : Option Nat := none
  /-- the chronicle is full (R845) -/
  full : Bool := false
  /-- condition 112 is true (R844) -/
  high : Bool := false
  /-- condition 113 is true (R844) -/
  lag : Bool := false
  /-- tight mode (R847) -/
  tight : Bool := false
  /-- uptime in µs at which tight mode was entered (R847) -/
  tightSince : Nat := 0
  /-- DEBUG and INFO records skipped in this tight mode (R847) -/
  skipped : Nat × Nat := (0, 0)
  /-- TIGHT_SKIPPED, 32 bits, saturating (R847) -/
  tightSkipped : Nat := 0
  /-- dropped records not yet reported, per severity 0 to 5 (R833) -/
  dropCounts : List Nat := [0, 0, 0, 0, 0, 0]
  /-- TAI seconds of the first and last drop not yet reported (R833) -/
  dropTimes : Option (Nat × Nat) := none
  /-- DROPPED, 32 bits, saturating (R833) -/
  dropped : Nat := 0
  /-- the recorder has stopped: the last sequence is given (R857) -/
  exhausted : Bool := false
  /-- AFTER_EXHAUSTION, 32 bits, saturating (R857) -/
  afterExhaustion : Nat := 0
  /-- uptimes in µs of each tenant's BRC_WRITE records of the last second (R862) -/
  writes : Vector (List Nat) 8 := Vector.replicate 8 []
  /-- read windows, one per tenant (R849) -/
  window : Vector BrcWindow 8 := Vector.replicate 8 {}
  /-- CHRONICLE_FOREIGN was written in this boot (R841) -/
  foreignLogged : Bool := false
  deriving DecidableEq, Repr, Inhabited

end Sys2Proof.Machine
end

