-- ==== Sys2Proof/Machine/State/Spar.lean ====
section
/-!
DEFINITION. State of the three Spar sequencers (spec/07_spar_sequencers.md).
Every field's default is its value at reset.
-/
namespace Sys2Proof.Machine

/-- STATE of Table SPR.14. -/
inductive SparState where
  | unloaded | idle | running | haltedMc | failed
  deriving DecidableEq, Repr, Inhabited

/-- An armed timed action (R320, R322). -/
structure Action where
  unit : Nat := 0
  action : Nat := 0
  /-- TICK at which it happens, 32 bits -/
  tick : Nat := 0
  /-- sub-ns fraction, 2^-16 ns -/
  frac : Nat := 0
  arg : Nat := 0
  deriving DecidableEq, Repr, Inhabited

/-- What a routine waits for (R319): TWAIT or EWAIT. -/
inductive Wait where
  /-- TWAIT until TICK reaches the target -/
  | tick (target : Nat)
  /-- EWAIT for an event of the mask, timing out at the TICK given -/
  | event (mask : Nat) (deadline : Nat)
  deriving DecidableEq, Repr, Inhabited

/-- A routine stopped in a TWAIT or EWAIT: where it goes on (R319, R350). -/
structure Stall where
  wait : Wait
  /-- microaddress of the next microword -/
  upc : Nat := 0
  /-- microwords issued so far -/
  issued : Nat := 0
  /-- the waiting microword had END set -/
  atEnd : Bool := false
  /-- an effect that stands was made before (R328) -/
  partialEff : Bool := false
  /-- the instruction address after this one, unless NEXTI or SKIPI chose otherwise -/
  next : Nat := 0
  deriving DecidableEq, Repr, Inhabited

/-- One Spar sequencer. -/
structure Spar where
  /-- STATE (Table SPR.14, R334) -/
  state : SparState := .unloaded
  /-- SPAR_VER.BASE, 16 bits (R343; reset Table SPR.12) -/
  base : Nat := 0
  /-- SPAR_VER.LEVEL, 16 bits (R343; reset Table SPR.12) -/
  level : Nat := 0
  /-- PATCH_DIGEST, 48 bytes; SPAR_DIG is bytes 0 to 3 (R343; reset Table SPR.12) -/
  digest : Bytes := []
  /-- active bank (R323, R326) -/
  bank : Nat := 0
  /-- address of the next Spar instruction, 10 bits and its overrun (R323) -/
  pc : Nat := 0
  /-- working registers W0 to W7, 32 bits each -/
  w : Vector (BitVec 32) 8 := Vector.replicate 8 0
  /-- operand register OPR, 24 bits -/
  opr : BitVec 24 := 0
  /-- flag Z -/
  z : Bool := false
  /-- flag N -/
  n : Bool := false
  /-- flag C -/
  c : Bool := false
  /-- flag TIMEOUT -/
  timeout : Bool := false
  /-- control store words that differ from the base microcode, 4,096 (R335) -/
  store : AMap Nat := []
  /-- dispatch entries that differ from the base table, 256 (R335) -/
  dispatch : AMap Nat := []
  /-- control-store words with wrong parity (R313, R327) -/
  badStore : List Nat := []
  /-- dispatch entries with wrong parity (R313, R327) -/
  badDispatch : List Nat := []
  /-- program memory, bank 0 and bank 1, 1,024 instructions each; unlisted is 0 -/
  prog : Vector (AMap Nat) 2 := Vector.replicate 2 []
  /-- program memory addresses (bank * 1024 + address) with wrong parity (R313) -/
  badProg : List Nat := []
  /-- scratch memory, 256 words of 32 bits; unlisted is 0 -/
  scratch : AMap Nat := []
  /-- scratch words with wrong parity (R313) -/
  badScratch : List Nat := []
  /-- island port words last written by STP -/
  ports : AMap Nat := []
  /-- action queue, at most 16 (R320, R321) -/
  actions : List Action := []
  /-- inbound word queue, at most 64 (R314) -/
  inQ : List Nat := []
  /-- outbound word queue, at most 64 (R356) -/
  outQ : List Nat := []
  /-- pending interrupt lines 0 to 7 with their line data (R326) -/
  lines : AMap Nat := []
  /-- bank the pending line 6 names (R349) -/
  wantBank : Nat := 0
  /-- the fault held until the next boundary: its cause and microaddress (R325) -/
  fault : Option (Nat × Nat) := none
  /-- a routine stopped in TWAIT or EWAIT (R319) -/
  stall : Option Stall := none
  /-- count of LOOP iterations in progress (Table SPR.6) -/
  loopLeft : Option Nat := none
  /-- MC_COUNT, 8 bits (R334; reset Table SPR.14) -/
  mcCount : Nat := 0
  /-- LAST_CAUSE (Table SPR.14) -/
  lastCause : Nat := 0
  /-- LAST_UADDR (Table SPR.14) -/
  lastUaddr : Nat := 0
  /-- LAST_PC (Table SPR.14) -/
  lastPc : Nat := 0
  /-- LAST_FLAGS PARTIAL (R328) -/
  lastPartial : Bool := false
  /-- LATE, 32 bits, saturating (R321) -/
  late : Nat := 0
  /-- INSTRUCTIONS, 32 bits, wrapping (Table SPR.14) -/
  instructions : Nat := 0
  /-- retained decrypted patch: level, digest, records (R340) -/
  patch : Option (Nat × Bytes × List (Nat × Nat × Nat)) := none
  /-- a reload is in progress (R345) -/
  reloading : Bool := false
  /-- Loft transfers started by DMA, newest first: channel, handle, offset and length words (Table SPR.3) -/
  dmas : List (Nat × Nat × Nat) := []
  /-- Spar event codes posted to Campel by SIG and SIGNAL, newest first -/
  events : List Nat := []
  deriving DecidableEq, Repr, Inhabited

end Sys2Proof.Machine
end

