-- ==== Sys2Proof/Machine/State/Supply.lean ====
section
/-!
DEFINITION. State of waking, boot, OTP and keepsake (spec/06_waking_boot_otp.md) and of supply, modes, thermal
protection and watchdog (spec/19_supply_and_modes.md, spec/01_the_reference_node.md).
Every field's default is its value at reset.
-/
namespace Sys2Proof.Machine

/-- STAGE of Table BOT.11. -/
inductive Stage where
  | rom | recovery | campel
  deriving DecidableEq, Repr, Inhabited

/-- The modes; `booting` while MODE reads 0 (R1017). -/
inductive Mode where
  | booting | keep | run | safe
  deriving DecidableEq, Repr, Inhabited

/-- Whether the module is powered: SHELF and the off states of R988, R989 and R1012 are no modes of a running module. -/
inductive Power where
  /-- running, or in its boot -/
  | on
  /-- RESET_N low (R987) -/
  | resetHeld
  /-- SHELF (R1004) -/
  | shelf
  /-- undervoltage lockout, Guard still powered (R988) -/
  | lockout
  /-- off after a thermal trip (R1012) -/
  | tripped
  /-- the Guard power-on reset is asserted (R989) -/
  | guardReset
  /-- the Guard island runs after its power-on reset and waits for a VIN wake (R985) -/
  | guardOnly
  deriving DecidableEq, Repr, Inhabited

/-- Islands of Table NOD.1 that are running (R38, R40, R998). -/
structure Islands where
  /-- Guard (R998) -/
  guardIsl : Bool := true
  /-- Miller (R998) -/
  miller : Bool := true
  /-- Timebase (R998) -/
  timebase : Bool := true
  /-- Loft (R998) -/
  loft : Bool := true
  /-- Host (R998) -/
  host : Bool := true
  /-- Port 0 to Port 5 (R998) -/
  port : Vector Bool 6 := Vector.replicate 6 true
  /-- Cascade (R998) -/
  cascade : Bool := true
  /-- Crypto (R998) -/
  crypto : Bool := true
  /-- Channel (R998) -/
  channel : Bool := true
  /-- Servo (R998) -/
  servo : Bool := true
  /-- Motor (R998) -/
  motor : Bool := true
  /-- Radio (R998) -/
  radio : Bool := true
  deriving DecidableEq, Repr, Inhabited

/-- The spindle genlock setup the keepsake area holds (R293, R296). -/
structure GenlockKeep where
  present : Bool := false
  setup : Bytes := []
  deriving DecidableEq, Repr, Inhabited

/-- One copy of the keepsake area (R293). -/
structure KeepCopy where
  /-- update count, 32 bits (R293) -/
  count : Nat := 0
  /-- the copy's CRC-32C holds (R293) -/
  valid : Bool := false
  /-- boot epoch, 32 bits (R293, R294) -/
  epoch : Nat := 0
  /-- UTC offset and local offset in force (R293) -/
  offsets : Int × Int := (0, 0)
  /-- schedules in force, as their TIME_SCHEDULE payloads (R293) -/
  schedules : List Bytes := []
  /-- chronicle pointer (R843) -/
  pointer : ChronPtr := {}
  /-- spindle genlock setup (R293) -/
  genlock : GenlockKeep := {}
  deriving DecidableEq, Repr, Inhabited

/-- The image that runs, from its header (Table BOT.8). -/
structure ImageHeader where
  length : Nat := 0
  sequence : Nat := 0
  device : Nat := 0
  funcMask : Nat := 0
  secVersion : Nat := 0
  campel : Nat := 0
  startMode : Nat := 0
  /-- sections: type, offset, length -/
  sections : List (Nat × Nat × Nat) := []
  deriving DecidableEq, Repr, Inhabited

/-- An OTP programming command in progress (R299, R300). -/
structure OtpBurn where
  /-- region code: 3, 5, 6, or 7 for the rollback counter -/
  region : Nat := 0
  /-- rows still to burn, with their words -/
  rows : AMap Nat := []
  /-- rows burned so far -/
  burned : Nat := 0
  deriving DecidableEq, Repr, Inhabited

/-- A flash operation in progress (BOOT_FLASH_ERASE, BOOT_FLASH_WRITE, BOOT_SLOT_CHECK). -/
structure FlashOp where
  op : Nat := 0
  offset : Nat := 0
  length : Nat := 0
  data : Bytes := []
  /-- pinned yealm of a write, 0 none -/
  handle : Nat := 0
  deriving DecidableEq, Repr, Inhabited

/-- Levels of the strap balls (R1036): BOOT_SEL[1:0], CASC_ROLE[1:0], MS_MISO. -/
structure StrapPins where
  bootSel : Nat := 0
  role : Nat := 0
  miso : Bool := false
  deriving DecidableEq, Repr, Inhabited

/-- Boot, OTP, flash and keepsake. -/
structure Boot where
  /-- levels of the strap balls, sampled at each device reset (R1037, R1039) -/
  pins : StrapPins := {}
  /-- the ROM has read OTP and the keepsake area since the device reset (Table BOT.1) -/
  romDone : Bool := false
  /-- STAGE (R269, Table BOT.11; reset R268) -/
  stage : Stage := .rom
  /-- BOOT_SEL strap, 2 bits (R276; strap) -/
  strap : Nat := 0
  /-- CASC_ROLE strap, 2 bits: ID_MODULE_POS.ROLE (Table TEN.3; strap) -/
  role : Nat := 0
  /-- MS_MISO strap: the SPI port serves tenant 7 (R187; strap) -/
  spi7 : Bool := false
  /-- source named by BOOT_RESTART for the next boot (R277) -/
  override : Option Nat := none
  /-- source of this boot (R276) -/
  source : Nat := 0
  /-- the slot whose check failed first, if the other is still to be tried (R278) -/
  tried : List Nat := []
  /-- SLOT: 0 A, 1 B, 0xFF none (Table BOT.11) -/
  slot : Nat := 255
  /-- the image under check or running (Table BOT.8) -/
  image : Option ImageHeader := none
  /-- digest of the running image held in bulk staging, and the image (R1014) -/
  imageBytes : Bytes := []
  /-- FAIL_FIRST, FAIL_SECOND (R276, Table BOT.11) -/
  fails : List Nat := []
  /-- ALARMS, bit r - 1 per failed region (R287) -/
  alarms : Nat := 0
  /-- interrupt sources deferred from the ROM stage (R274) -/
  deferred : List (Nat × Nat × Nat × Bytes) := []
  /-- BOOT_EPOCH of this boot (R294) -/
  epoch : Nat := 0
  /-- EPOCH_STATE: 0 PERSISTED, 1 NOT_PERSISTED, 2 UNKNOWN (Table BOT.11) -/
  epochState : Nat := 0
  /-- LAST_STATUS of the last ROM-stage ACCEPTED command (R270) -/
  lastStatus : Nat := 0
  /-- LAST_TOKEN (R270) -/
  lastToken : Nat := 0
  /-- OTP rows that are not zero, 1,024 rows of 32 bits (R282, Table BOT.4) -/
  otp : AMap Nat := []
  /-- OTP rows that read with a corrected single-bit error (R283) -/
  otpCorrected : List Nat := []
  /-- OTP rows that are uncorrectable (R283) -/
  otpBad : List Nat := []
  /-- OTP programming in progress (R299 to R301) -/
  burn : Option OtpBurn := none
  /-- boot flash bytes that are not 0xFF (R276; erased flash reads 0xFF, PRESUMED) -/
  flash : List (Nat × BitVec 8) := []
  /-- discovered flash size in bytes (R276, R279) -/
  flashSize : Nat := 16777216
  /-- discovered erase size in bytes (R279, Table BOT.10) -/
  eraseSize : Nat := 4096
  /-- flash operation in progress (R298) -/
  flashOp : Option FlashOp := none
  /-- keepsake copies A and B (R293) -/
  keepA : KeepCopy := { valid := true }
  keepB : KeepCopy := {}
  /-- a device reset follows 1 ms after this uptime in µs (BOOT_RESTART) -/
  restartAt : Option Nat := none
  /-- BOOT_IMAGE_CHECK passed and Campel has not yet started (R308) -/
  starting : Bool := false
  deriving DecidableEq, Repr, Inhabited

/-- A mode change in progress (R1001, R1004). -/
structure ModeChange where
  /-- 0 SHELF, 1 KEEP, 2 RUN, 3 SAFE -/
  target : Nat := 0
  /-- the mode before the change -/
  fromMode : Mode := .booting
  /-- the islands that ran before the change -/
  isl : Islands := {}
  deriving DecidableEq, Repr, Inhabited

/-- One auxiliary output (R981 to R983). -/
structure Vaux where
  /-- output on (R981) -/
  on : Bool := false
  /-- turned off until device reset (R983) -/
  latchedOff : Bool := false
  /-- retries made (R983) -/
  retries : Nat := 0
  /-- turned off by its current limit and waiting for a retry (R983) -/
  tripped : Bool := false
  /-- load current, mA (Table PWR.11) -/
  ma : Nat := 0
  deriving DecidableEq, Repr, Inhabited

/-- Supply, modes, thermal protection, watchdog. -/
structure Supply where
  /-- whether the module runs (R985 to R989, R1004, R1012) -/
  power : Power := .on
  /-- a wake held by the Guard island: RESET_CAUSE code it will report (R986, R1005, R1013) -/
  heldWake : Option Nat := none
  /-- MODE_STATUS.MODE, 2 bits (R1017; reset Table PWR.9) -/
  mode : Mode := .booting
  /-- MODE_STATUS.CHANGING and TARGET (R1001; reset Table PWR.9) -/
  change : Option ModeChange := none
  /-- MODE_STATUS.PFAIL: the PFAIL latch (R992; reset R990) -/
  pfail : Bool := false
  /-- MODE_STATUS.THERM_WARN (R1010; reset Table PWR.9) -/
  thermWarn : Bool := false
  /-- MODE_STATUS.THERM_CRIT (R1011; reset Table PWR.9) -/
  thermCrit : Bool := false
  /-- MODE_STATUS.AFTER_TRIP (R1013; reset Table PWR.9) -/
  afterTrip : Bool := false
  /-- MODE_STATUS.RESET_CAUSE, 4 bits (R1017; reset Table PWR.9) -/
  resetCause : Nat := 0
  /-- MODE_STATUS.SAFE_CAUSE, 8 bits, bit n - 8 for cause bit n of Table PWR.7 (R1006; reset R990) -/
  safeCause : BitVec 8 := 0
  /-- Tj in 0.1 degree C (R1017, Table PWR.11; reset Table PWR.9) -/
  tj : Int := 0
  /-- VIN, mV (Table PWR.11) -/
  vin : Nat := 12000
  /-- total VIN current, mA (Table PWR.11) -/
  vinMa : Nat := 0
  /-- PFAIL_MV (R991; reset R991) -/
  pfailMv : Nat := 10000
  /-- rails in regulation, 9 in Table PWR.2 order (R978) -/
  rails : Vector Bool 9 := Vector.replicate 9 true
  /-- VAUX5 (R981; reset R981: off during device reset) -/
  vaux5 : Vaux := {}
  /-- VAUX3 (R981; reset R981: off during device reset) -/
  vaux3 : Vaux := {}
  /-- PFAIL_COUNT, 32 bits, saturating (Table PWR.11; reset Table PWR.11) -/
  pfailCount : Nat := 0
  /-- LAST_PFAIL_MS (Table PWR.11) -/
  lastPfailMs : Nat := 0
  /-- THERM_WARNS, 32 bits, saturating (Table PWR.11; reset Table PWR.11) -/
  thermWarns : Nat := 0
  /-- uptime in µs of the last watchdog reset (R1015; reset R990) -/
  wdogAt : Option Nat := none
  /-- islands running (R998) -/
  isl : Islands := {}
  /-- the Miller core runs at 200 MHz (Table PWR.5) -/
  millerSlow : Bool := false
  /-- hold-up work is running: it waits for the retract to end (R993) -/
  holdUp : Bool := false
  /-- uptime in µs at which PFAIL was latched (R997) -/
  pfailAt : Nat := 0
  /-- islands that ran when PFAIL was latched: they run again when it clears (R994, R997) -/
  heldIsl : Option Islands := none
  /-- a device reset follows when the retract in progress has ended: its RESET_CAUSE (R979, R1027, R1041, R1051) -/
  resetNext : Option Nat := none
  /-- entry to SAFE is in progress, the heads not yet parked: the mode before it (R1007) -/
  safeEntry : Option Mode := none
  /-- a thermal trip's work is in progress (R1012) -/
  tripping : Bool := false
  /-- PFAIL_N ball level (R992) -/
  pfailN : Bool := true
  /-- SAFE_N ball level (R272, R1007; reset R272: driven low) -/
  safeN : Bool := false
  /-- THERM_N ball level (R1010, R1013) -/
  thermN : Bool := true
  /-- WAKE_N ball level (R985) -/
  wakeN : Bool := true
  /-- RESET_N ball level (R987) -/
  resetN : Bool := true
  /-- PERST_N ball level (R213, R271) -/
  perstN : Bool := true
  /-- PE_REFCLK is present (R1080) -/
  peRefclk : Bool := true
  /-- SD_REFCLK is present (R1078) -/
  sdRefclk : Bool := true
  /-- the radio island ran when SD_REFCLK was lost (R1078) -/
  clkRadio : Bool := false
  /-- the PCIe link is up (R271, R1080) -/
  pcieUp : Bool := false
  deriving DecidableEq, Repr, Inhabited

end Sys2Proof.Machine
end

