-- ==== Sys2Proof/Machine/State/Timebase.lean ====
section
/-!
DEFINITION. State of the timebase island (spec/02_timebase.md). Every field's default is its value at reset.
-/
namespace Sys2Proof.Machine

/-- DPLL states, Table TIM.3 (R65). -/
inductive DpllState where
  | freerun | acquire | locked | holdover
  deriving DecidableEq, Repr, Inhabited

/-- One time reference: its TIME_REF_CONFIG settings (Table TIM.15) and its state (Table TIM.22). -/
structure RefIn where
  /-- PRIORITY, 0 to 15 (R59, Table TIM.15; reset R60) -/
  priority : Nat := 0
  /-- OPTIONS, 8 bits (Table TIM.15) -/
  options : Nat := 0
  /-- TOLERANCE, 0.001 ppm (Table TIM.15; reset Table TIM.15 default) -/
  tolerance : Nat := 10000
  /-- DELAY_PS, signed (Table TIM.15) -/
  delayPs : Int := 0
  /-- RATE, 8 bits (Table TIM.15; reset Table TIM.15 default) -/
  rate : Nat := 0
  /-- PHASE_WINDOW, 100 ns units (Table TIM.15; reset Table TIM.15 default) -/
  window : Nat := 10
  /-- QUALIFY_S (Table TIM.15; reset Table TIM.15 default) -/
  qualify : Nat := 10
  /-- qualified (R58, Table TIM.22; reset R112) -/
  qualified : Bool := false
  /-- active in the last 1 s (Table TIM.22) -/
  active : Bool := false
  /-- LAST_CAUSE (Table TIM.22) -/
  lastCause : Nat := 0
  /-- FREQ_OFFSET, 0.001 ppb (Table TIM.22) -/
  freqOffset : Int := 0
  /-- PHASE_ERR, ps (Table TIM.22) -/
  phaseErr : Int := 0
  /-- uptime in µs at which it qualified (QUALIFIED_S of Table TIM.22) -/
  qualifiedAt : Nat := 0
  /-- DISQUALIFIED, 32 bits, saturating (Table TIM.22; reset Table TIM.22) -/
  disqualified : Nat := 0
  /-- DISCARDED, 32 bits, saturating (R55, R56) -/
  discarded : Nat := 0
  /-- consecutive edges more than the phase window away while LOCKED to it (Table TIM.2) -/
  outWindow : Nat := 0
  /-- uptime in µs since which this better reference has stayed qualified for the wait to restore (R61) -/
  wtrFrom : Nat := 0
  deriving DecidableEq, Repr, Inhabited

/-- A pending scheduled change (Table TIM.18, R76). -/
structure Sched where
  instant : Nat := 0
  flags : Nat := 0
  value : Int := 0
  /-- its warning source has been raised (R82) -/
  warned : Bool := false
  deriving DecidableEq, Repr, Inhabited

/-- One tenant's time snapshot, Table TIM.8 (R90). -/
structure Snap where
  /-- TIME_SEC_HI:LO, 48 bits (R90; reset Table TIM.8) -/
  sec : Nat := 0
  /-- TIME_NS, 30 bits (R90; reset Table TIM.8) -/
  ns : Nat := 0
  /-- TIME_FRAC, 16 bits (R90; reset Table TIM.8) -/
  frac : Nat := 0
  /-- TIME_STATE but STEPPED, as latched (R90; reset Table TIM.8) -/
  state : Nat := 0
  /-- TIME_STATE.STEPPED, W1C (R63; reset Table TIM.8) -/
  stepped : Bool := false
  deriving DecidableEq, Repr, Inhabited

/-- A cadence descriptor, Table TIM.9. -/
structure CadDesc where
  kind : Nat := 0
  rate : Nat := 0
  timescale : Nat := 0
  flags : Nat := 0
  phase : Int := 0
  width : Nat := 0
  userBits : Nat := 0
  deriving DecidableEq, Repr, Inhabited

/-- One cadence output (R91 to R103). -/
structure Cadence where
  /-- descriptor in force (R92) -/
  desc : CadDesc := {}
  /-- descriptor that waits, with the TAI second at which it takes effect (R98) -/
  pending : Option (CadDesc × Nat) := none
  /-- fault bit (R103) -/
  fault : Bool := false
  /-- ball level (R102; reset Table BAL.4) -/
  level : Bool := false
  /-- consecutive level mismatches (R103) -/
  mismatches : Nat := 0
  /-- index k of the next edge to place, and whether it is the falling one (R91) -/
  nextEdge : Nat := 0
  /-- the last edge placed: TAI in 125 ps units (R91, R99) -/
  lastEdge : Nat := 0
  /-- the LTC frame being sent: its 80 bits (R96) -/
  ltc : List Bool := []
  deriving DecidableEq, Repr, Inhabited

/-- One TIM_IN result, Table TIM.11. -/
structure TimResult where
  flags : Nat := 0
  seq : Nat := 0
  time : Time := {}
  phaseErr : Int := 0
  deriving DecidableEq, Repr, Inhabited

/-- One TIM_IN input (R104 to R107, R111). -/
structure TimIn where
  /-- MODE: 0 off, 1 SINGLE, 2 CONTINUOUS (R111) -/
  mode : Nat := 0
  /-- EDGE (R111) -/
  edge : Nat := 0
  /-- RATE (R111) -/
  rate : Nat := 0
  /-- result queue, at most 64, oldest first (R106) -/
  queue : List TimResult := []
  /-- per-input result count, 16 bits (Table TIM.11) -/
  seq : Nat := 0
  /-- DROPPED since the last read, 32 bits, saturating (R105, R106) -/
  dropped : Nat := 0
  /-- TAI of the previous recorded edge in ns (R105) -/
  lastNs : Option Nat := none
  deriving DecidableEq, Repr, Inhabited

/-- One island's spine calibration entry, Table TIM.7 (R87, R88). -/
structure SpineCal where
  /-- FLAGS VALID (R87) -/
  valid : Bool := false
  /-- FLAGS RESTARTED (Table TIM.7) -/
  restarted : Bool := false
  /-- UNCERT_PS (Table TIM.7) -/
  uncert : Nat := 0
  /-- OFFSET (Table TIM.7) -/
  offset : Int := 0
  /-- the boot measurement's offset, for DRIFT_PS (Table TIM.7) -/
  bootOffset : Option Int := none
  /-- DRIFT_PS (Table TIM.7) -/
  drift : Int := 0
  /-- uptime in µs of the last measurement, for AGE_MS (Table TIM.7) -/
  at_ : Nat := 0
  /-- consecutive bad frames (R87) -/
  bad : Nat := 0
  /-- consecutive good frames while not valid (R87) -/
  good : Nat := 0
  /-- uptime in µs at which VALID was cleared for bad frames (R87) -/
  lostAt : Option Nat := none
  deriving DecidableEq, Repr, Inhabited

/-- The timebase island. -/
structure Timebase where
  /-- TAI of the timebase island (R42, R27) -/
  now : Time := {}
  /-- TIME_STATE.VALID (R53, R112; reset R112) -/
  valid : Bool := false
  /-- time has been valid since the device reset: scheduled changes take force (R83, R975) -/
  known : Bool := false
  /-- TIME_STATE.SOURCE is 7: set by TIME_SET (R110) -/
  setByCmd : Bool := false
  /-- DPLL state (R65; reset R112) -/
  dpll : DpllState := .freerun
  /-- uptime in µs at which the DPLL entered its state (R65, R68) -/
  dpllSince : Nat := 0
  /-- the DPLL state before this one (Table PTP.6) -/
  dpllFrom : DpllState := .freerun
  /-- µs spent LOCKED since reset (Table TIM.4; reset Table TIM.4) -/
  lockedUs : Nat := 0
  /-- selected reference, 0 none (R59, R108; reset R112) -/
  selected : Nat := 0
  /-- reference forced by TIME_SELECT (R64) -/
  forced : Option Nat := none
  /-- the six references, index code - 1 (Table TIM.1; priorities reset R60) -/
  refs : Vector RefIn 6 := #v[{ priority := 1 }, { priority := 2 }, { priority := 3 }, { priority := 4 },
    { priority := 5 }, { priority := 6 }]
  /-- ACQ_BW, mHz (Table TIM.16; reset Table TIM.16 default) -/
  acqBw : Nat := 100
  /-- TRK_BW, mHz (Table TIM.16; reset Table TIM.16 default) -/
  trkBw : Nat := 10
  /-- STEP_THRESH, ns (Table TIM.16; reset Table TIM.16 default) -/
  stepThresh : Nat := 1000000
  /-- SLEW_LIMIT, 0.1 ppm (Table TIM.16; reset Table TIM.16 default) -/
  slewLimit : Nat := 100
  /-- WTR, s (Table TIM.16; reset Table TIM.16 default) -/
  wtr : Nat := 300
  /-- HOLD_AVG, s (Table TIM.16; reset Table TIM.16 default) -/
  holdAvg : Nat := 600
  /-- FLAGS REVERTIVE (Table TIM.16; reset Table TIM.16 default) -/
  revertive : Bool := true
  /-- FLAGS STEP_ENABLE (Table TIM.16; reset Table TIM.16 default) -/
  stepEnable : Bool := true
  /-- FLAGS OFFSETS_FROM_UPSTREAM (Table TIM.16; reset Table TIM.16 default) -/
  fromUpstream : Bool := true
  /-- HOLD_LIMIT, s (Table TIM.16; reset Table TIM.16 default) -/
  holdLimit : Nat := 14400
  /-- DAC_BITS (Table TIM.17; reset Table TIM.17 default) -/
  dacBits : Nat := 16
  /-- PREFIX (Table TIM.17; reset Table TIM.17 default) -/
  dacPrefix : Nat := 0
  /-- POLARITY (Table TIM.17) -/
  dacPolarity : Bool := false
  /-- SAMPLE_FALLING (Table TIM.17; reset Table TIM.17 default) -/
  dacSampleFalling : Bool := true
  /-- GAIN, 0.000001 ppb per code (Table TIM.17) -/
  dacGain : Nat := 0
  /-- INITIAL_CODE, none until TIME_OSC_CONFIG (R73) -/
  initialCode : Option Nat := none
  /-- AGING, 0.001 ppb per day (Table TIM.17) -/
  aging : Nat := 0
  /-- last steering code (Table TIM.14, R73; reset R73: mid-scale) -/
  steer : Nat := 32768
  /-- steering codes sent, newest first, with their uptime in µs, for the holdover average (R66) -/
  steerLog : List (Nat × Nat) := []
  /-- the code that holdover takes at the next update (R66) -/
  holdCode : Option Nat := none
  /-- PHASE_ERR of the loop, ps (Table TIM.14) -/
  phaseErr : Int := 0
  /-- FREQ_CORR, 0.001 ppb (Table TIM.14) -/
  freqCorr : Int := 0
  /-- phase still to be slewed out, ns (R62) -/
  slewNs : Int := 0
  /-- a STEP happened since the previous spine frame (Table TIM.5) -/
  spineStep : Bool := false
  /-- TAI - UTC in force, s (R75; kept in the keepsake area R293) -/
  utcOffset : Int := 0
  /-- local - UTC in force, s (R75; kept in the keepsake area R293) -/
  localOffset : Int := 0
  /-- the local offset in force is daylight saving (Table TIM.18) -/
  daylight : Bool := false
  /-- pending leap second (R76) -/
  leap : Option Sched := none
  /-- pending local-offset change (R76) -/
  localSched : Option Sched := none
  /-- the keepsake area cannot be written: persistence fails (R75) -/
  persistFails : Bool := false
  /-- GNSS is offered for selection only when true (R296) -/
  gnssOffered : Bool := true
  /-- GNSS: consecutive ZDA sentences that disagree (Table TIM.2) -/
  zdaDisagree : Nat := 0
  /-- GNSS: uptime in µs of the last PPS edge (R56) -/
  ppsAt : Option Nat := none
  /-- GNSS: TAI second named by the last ZDA in its window (R56) -/
  zdaTai : Option Nat := none
  /-- GNSS: last fix quality of GGA (R55) -/
  fixQuality : Option Nat := none
  /-- time snapshots, one per tenant (R90) -/
  snap : Vector Snap 8 := Vector.replicate 8 {}
  /-- cadence outputs 0 to 7 (R92) -/
  cadence : Vector Cadence 8 := Vector.replicate 8 {}
  /-- TIM_IN inputs 0 to 3 (R104) -/
  timIn : Vector TimIn 4 := Vector.replicate 4 {}
  /-- spine calibration entries, index island ID - 1 (R88) -/
  cal : Vector SpineCal 16 := Vector.replicate 16 {}
  /-- the timebase island's own loop-back frames that failed (R121) -/
  loopbackFails : Nat := 0
  /-- uptime in µs of the last SPINE_LOOPBACK_FAIL record (R121) -/
  loopbackLogged : Option Nat := none
  /-- OSC_IN is present (R1079) -/
  oscPresent : Bool := true
  deriving DecidableEq, Repr, Inhabited

end Sys2Proof.Machine
end

