-- ==== Sys2Proof/Machine/State.lean ====
section
/-!
DEFINITION. The state of one LQ7400 module: everything the spec gives it, plain data, and its value at reset.
-/
namespace Sys2Proof.Machine

/-- The reasons a step can fault. The spec gives every command of the table an effect in every state, so no meaning
raises one: an access that reaches nothing reads zeros (R21, R154). The one constructor keeps the type inhabited;
it is safe, since nothing raises it. -/
inductive Fault where
  /-- raised by nothing; safe -/
  | none
  deriving DecidableEq, Repr

/-- The reasons a command can be refused. -/
inductive Refusal where
  /-- raised by an arm of exec whose meaning is not written; safe, since the machine stops there -/
  | notModelled (mnemonic : String)
  deriving DecidableEq, Repr

/-- The whole state of the module. -/
structure State where
  /-- tenants 0 to 7 (R186 to R235) -/
  tenants : Vector Tenant 8
  /-- interrupt views 0 to 7 (R236 to R267) -/
  views : Vector View 8
  /-- owner of each service, Table TEN.13 order (R217; reset R217) -/
  svcOwner : Vector Nat 7
  /-- read-rights mask of each service (R217; reset R217) -/
  svcRights : Vector Nat 7
  /-- asynchronous commands in flight (R205 to R207) -/
  jobs : List Job
  /-- the Loft (R123 to R155) -/
  loft : Loft
  /-- rings 0 to 31 (R156 to R165; reset R165) -/
  rings : Vector Ring 32
  /-- consumed submissions in flight that no other queue holds (R131, R168) -/
  subs : List Sub
  /-- SPI status byte bit [7]: the previous transaction was malformed (R195, R197) -/
  spiMalformed : Bool
  /-- the Breadcrumb recorder (R823 to R871) -/
  recorder : Recorder
  /-- boot, OTP, flash, keepsake (R268 to R311) -/
  boot : Boot
  /-- supply, modes, thermal protection, watchdog (R976 to R1029) -/
  supply : Supply
  /-- the timebase island (R53 to R122) -/
  timebase : Timebase
  /-- Spar sequencers: 0 Formatter, 1 Cadence, 2 Radio (R312 to R356) -/
  spars : Vector Spar 3
  /-- ports, classifier, PTP (R357 to R487) -/
  net : Net
  /-- motor island (R488 to R547) -/
  motor : Motor
  /-- channel and servo islands (R548 to R606) -/
  channel : Channel
  /-- disk queue and recording (R607 to R676) -/
  diskq : DiskQ
  /-- radio island and Eave guard (R677 to R776) -/
  radio : Radio
  /-- crypto island and TAP (R777 to R822, R1075) -/
  keys : Keys
  /-- cascade island (R872 to R941) -/
  cascade : Cascade
  /-- the MODEL's own log of what the device emitted, newest first (log entry 4) -/
  out : List Out
  /-- µs since the last device reset (UPTIME_S of Table TEN.15; reset Table TEN.15) -/
  up : Nat
  /-- the MODEL's own counter of free values drawn (log entry 6) -/
  free : Nat
  /-- the MODEL's own queue of commands waiting, first in first out (log entry 2) -/
  pending : List Instr
  deriving DecidableEq, Repr

/-- What a meaning answers. -/
abbrev Res := Host.Outcome State Fault Refusal

/-- Tenant 0 after reset: READY with the whole pool (R137, R156, R189, Table TEN.4). -/
def tenant0 : Tenant :=
  { state := .ready, quota := 2064384, ingress := 1935360, ringLimit := 32 }

/-- OTP contents of a part as delivered: identity (an LQ7400-R-C, die revision 1), trims and root secret with their CRC
rows, everything else unprogrammed (Table BOT.4; the values are a DESIGN CHOICE, log entry 3). -/
def deliveredOtp : AMap Nat :=
  [(0, 0x7401), (1, 1), (2, 0x11), (7, 0xA43E421F), (71, 0xA66359F1), (103, 0x04128908)]

/-- The machine right after a device reset: the ROM stage has begun (R24, R268). -/
def State.reset : State :=
  { tenants := (Vector.replicate 8 {}).set 0 tenant0
    views := (Vector.replicate 8 {}).set 0 (View.resetOf 0)
    svcOwner := Vector.replicate 7 0
    svcRights := Vector.replicate 7 0
    jobs := []
    loft := {}
    rings := Vector.replicate 32 {}
    subs := []
    spiMalformed := false
    recorder := {}
    boot := { otp := deliveredOtp }
    supply := {}
    timebase := {}
    spars := Vector.replicate 3 {}
    net := {}
    motor := {}
    channel := {}
    diskq := {}
    radio := {}
    keys := {}
    cascade := {}
    out := []
    up := 0
    free := 0
    pending := [] }

end Sys2Proof.Machine
end

