-- ==== Sys2Proof/Machine/Bits.lean ====
section
/-!
DEFINITION. Byte-string and number helpers: little-endian fields (R26), saturating counters, the CRCs of R29.
-/
namespace Sys2Proof.Machine

/-- Byte `i` of a string, 0 past its end. -/
def byteAt (l : Bytes) (i : Nat) : Nat := (l.getD i 0#8).toNat

/-- `v` as `n` little-endian bytes, modulo 2^(8n) (R26). -/
def leBytes : Nat → Nat → Bytes
  | 0, _ => []
  | n + 1, v => BitVec.ofNat 8 v :: leBytes n (v / 256)

/-- `v` as `n` big-endian bytes: wire order of the network standards (R26). -/
def beBytes (n v : Nat) : Bytes := (leBytes n v).reverse

/-- The value of little-endian bytes (R26). -/
def leVal : Bytes → Nat
  | [] => 0
  | b :: l => b.toNat + 256 * leVal l

/-- Bytes `off` to `off + n - 1`. -/
def slice (l : Bytes) (off n : Nat) : Bytes := (l.drop off).take n

/-- Little-endian field of `n` bytes at `off`; bytes past the end read 0 (R26). -/
def rd (l : Bytes) (off n : Nat) : Nat := leVal (slice l off n)

/-- Big-endian field of `n` bytes at `off`. -/
def rdBe (l : Bytes) (off n : Nat) : Nat := leVal (slice l off n).reverse

/-- Two's complement reading of an `n`-byte value. -/
def signed (n v : Nat) : Int := if v < 2 ^ (8 * n - 1) then v else (v : Int) - 2 ^ (8 * n)

/-- Signed little-endian field. -/
def rdS (l : Bytes) (off n : Nat) : Int := signed n (rd l off n)

/-- Signed big-endian field. -/
def rdBeS (l : Bytes) (off n : Nat) : Int := signed n (rdBe l off n)

/-- A signed value as `n` little-endian bytes. -/
def leInt (n : Nat) (v : Int) : Bytes := leBytes n (v % 2 ^ (8 * n)).toNat

/-- A signed value as `n` big-endian bytes. -/
def beInt (n : Nat) (v : Int) : Bytes := (leInt n v).reverse

/-- `n` zero bytes. -/
def zeros (n : Nat) : Bytes := List.replicate n 0#8

/-- Every byte is zero. -/
def allZero (l : Bytes) : Bool := l.all (· == 0#8)

/-- The `n` bytes at `off` are zero: a reserved field as R22 asks. -/
def zeroAt (l : Bytes) (off n : Nat) : Bool := allZero (slice l off n)

/-- Exactly `n` bytes: cut, or filled with zeros. -/
def fit (n : Nat) (l : Bytes) : Bytes := l.take n ++ zeros (n - l.length)

/-- Bits `lo + w - 1` to `lo` of a number. -/
def fld (v lo w : Nat) : Nat := v / 2 ^ lo % 2 ^ w

/-- A Boolean as 0 or 1. -/
def b2n (b : Bool) : Nat := if b then 1 else 0

/-- The mask with bit `i` set for each `i` of the list that satisfies `p`. -/
def maskOf (l : List Nat) (p : Nat → Bool) : Nat := l.foldl (fun a i => if p i then a + 2 ^ i else a) 0

/-- Count up, saturating at 2^32 - 1. -/
def inc32 (n : Nat) : Nat := min (n + 1) 0xFFFFFFFF

/-- Count up by `k`, saturating at 2^32 - 1. -/
def add32 (n k : Nat) : Nat := min (n + k) 0xFFFFFFFF

/-- Count up, saturating at 2^16 - 1. -/
def inc16 (n : Nat) : Nat := min (n + 1) 0xFFFF

/-- A 64-bit counter's next value: it wraps. -/
def wrap64 (n : Nat) : Nat := n % 2 ^ 64

/-- One bit of a reflected 32-bit CRC. -/
def crcBit (poly c : Nat) : Nat := if c.testBit 0 then (c / 2) ^^^ poly else c / 2

/-- One byte of a reflected 32-bit CRC. -/
def crcByte (poly c : Nat) (b : BitVec 8) : Nat :=
  Nat.repeat (crcBit poly) 8 (c ^^^ b.toNat)

/-- A CRC state advanced over a byte string. -/
def crcRun (poly c : Nat) (l : Bytes) : Nat := l.foldl (crcByte poly) c

/-- CRC-32C (R29): Castagnoli, reflected as used by iSCSI. -/
def crc32c (l : Bytes) : Nat := crcRun 0x82F63B78 0xFFFFFFFF l ^^^ 0xFFFFFFFF

/-- CRC-32 (R29): IEEE 802.3, reflected. -/
def crc32 (l : Bytes) : Nat := crcRun 0xEDB88320 0xFFFFFFFF l ^^^ 0xFFFFFFFF

/-- One bit of a CRC-8 with polynomial `poly`, most significant bit first. -/
def crc8Bit (poly c : Nat) (b : Bool) : Nat :=
  let c' := c * 2 % 256
  if (c.testBit 7) != b then c' ^^^ poly else c'

/-- CRC-8 of a bit string, initial value 0. -/
def crc8 (poly : Nat) (l : List Bool) : Nat := l.foldl (crc8Bit poly) 0

/-- The `n` low bits of a number, most significant first. -/
def bitsOf (n v : Nat) : List Bool := (List.range n).map fun i => v.testBit (n - 1 - i)

/-- Insert a number into a strictly rising list. -/
def setIns : List Nat → Nat → List Nat
  | [], x => [x]
  | y :: l, x => if x < y then x :: y :: l else if x = y then y :: l else y :: setIns l x

/-- Remove every occurrence of a number. -/
def setDel (l : List Nat) (x : Nat) : List Nat := l.filter (· ≠ x)

end Sys2Proof.Machine
end

