-- ==== Sys2Proof/Machine/Tai.lean ====
section
/-!
DEFINITION. TAI times (R27, R28): the 80-bit format and arithmetic in nanoseconds and in 2^-16 ns.
-/
namespace Sys2Proof.Machine

/-- The 80-bit format: nanoseconds in the lower 4 bytes, seconds in the upper 6 (R27). -/
def Time.bytes (t : Time) : Bytes := leBytes 4 t.ns ++ leBytes 6 t.sec

/-- Nanoseconds since the epoch. -/
def Time.inNs (t : Time) : Nat := t.sec * 1000000000 + t.ns

/-- Units of 2^-16 ns since the epoch. -/
def Time.units (t : Time) : Nat := t.inNs * 65536 + t.frac

/-- The time at a count of 2^-16 ns. -/
def Time.ofUnits (u : Nat) : Time :=
  { sec := u / (65536 * 1000000000), ns := u / 65536 % 1000000000, frac := u % 65536 }

/-- The time at a count of nanoseconds. -/
def Time.ofNs (n : Nat) : Time := { sec := n / 1000000000, ns := n % 1000000000 }

/-- A time moved by a signed number of nanoseconds, not below zero. -/
def Time.addNs (t : Time) (d : Int) : Time := Time.ofUnits ((t.units : Int) + d * 65536).toNat

/-- A time moved by a signed number of picoseconds, rounded down to 2^-16 ns. -/
def Time.addPs (t : Time) (d : Int) : Time := Time.ofUnits ((t.units : Int) + d * 65536 / 1000).toNat

/-- Picoseconds since the epoch, rounded down. -/
def Time.ps (t : Time) : Int := (t.units * 1000 / 65536 : Nat)

/-- TICK: the low 32 bits of the nanosecond count an island compares with. -/
def Time.tick (t : Time) : Nat := t.inNs % 2 ^ 32

/-- A time read from the 80-bit format at an offset (R27). -/
def rdTime (l : Bytes) (off : Nat) : Time := { ns := rd l off 4, sec := rd l (off + 4) 6 }

end Sys2Proof.Machine
end

