-- ==== Sys2Proof/Machine/Ops.lean ====
section
/-!
DEFINITION. The shared operations of the block: interrupt raises (spec/05), breadcrumb records (spec/16), Loft memory,
allocation and pins, ring production and events (spec/03).
-/
namespace Sys2Proof.Machine

/-! ### Access to parts of the state -/

/-- Tenant `t`. -/
def State.ten (s : State) (t : Nat) : Tenant := vat s.tenants t
/-- Change tenant `t`. -/
def State.updTen (s : State) (t : Nat) (f : Tenant → Tenant) : State := { s with tenants := upd s.tenants t f }
/-- Tenant `t`'s interrupt view. -/
def State.view (s : State) (t : Nat) : View := vat s.views t
/-- Change tenant `t`'s interrupt view. -/
def State.updView (s : State) (t : Nat) (f : View → View) : State := { s with views := upd s.views t f }
/-- Ring `n`. -/
def State.ring (s : State) (n : Nat) : Ring := vat s.rings n
/-- Change ring `n`. -/
def State.updRing (s : State) (n : Nat) (f : Ring → Ring) : State := { s with rings := upd s.rings n f }
/-- Log something the device emits. -/
def State.emit (s : State) (o : Out) : State := { s with out := o :: s.out }
/-- Owner of a service, Table TEN.13. -/
def State.owner (s : State) (svc : Nat) : Nat := vat s.svcOwner svc
/-- Change the Loft. -/
def State.updLoft (s : State) (f : Loft → Loft) : State := { s with loft := f s.loft }
/-- Change the recorder. -/
def State.updRec (s : State) (f : Recorder → Recorder) : State := { s with recorder := f s.recorder }
/-- Change the boot state. -/
def State.updBoot (s : State) (f : Boot → Boot) : State := { s with boot := f s.boot }
/-- Change the supply state. -/
def State.updSup (s : State) (f : Supply → Supply) : State := { s with supply := f s.supply }
/-- Change the timebase. -/
def State.updTb (s : State) (f : Timebase → Timebase) : State := { s with timebase := f s.timebase }
/-- Draw a free value for a quantity named by a code (log entry 6). -/
def State.draw (s : State) (code : Nat) : Nat := Config.freeValue code s.free
/-- The state after a draw. -/
def State.drawn (s : State) : State := { s with free := s.free + 1 }

/-- The module runs: it is not held in reset, off, locked out or in SHELF. -/
def State.powered (s : State) : Bool := s.supply.power = .on
/-- The Campel firmware runs (Table BOT.1). -/
def State.campel (s : State) : Bool := s.boot.stage = .campel
/-- Which variant the part behaves as: true is -T, as it is when the identity region fails or is unprogrammed (R5, Table
BOT.6). -/
def State.isT (s : State) : Bool := s.boot.alarms.testBit 0 || mgetD s.boot.otp 0 0 != 0x7401

/-- What a meaning answers when the module runs: the next state `f s`; a module that does not run does nothing. -/
def State.running (s : State) (f : State → State) : Res := .next (if s.powered then f s else s)

/-! ### Interrupt sources (spec/05) -/

/-- The tenant a source belongs to (Table IRQ.1, R236); a closed ring's source belongs to nobody (R261). -/
def srcOwner (s : State) (src : Nat) : Option Nat :=
  if src < 32 then (if (s.ring src).opened then some (s.ring src).owner else none)
  else if src < 40 then some (src - 32)
  else if src < 48 then some (src - 40)
  else if src < 64 then some (s.owner 0)
  else if src < 70 ∨ (72 ≤ src ∧ src < 78) then some (s.owner 1)
  else if src = 91 ∨ src = 92 ∨ src = 94 then some (s.owner 5)
  else if 80 ≤ src ∧ src < 94 then some (s.owner 2)
  else if 96 ≤ src ∧ src < 104 then some (s.owner 4)
  else some 0

/-- A source is visible in a view (R237); an ABSENT tenant sees none (R264). -/
def visible (s : State) (t src : Nat) : Bool :=
  t = 0 || (srcOwner s src == some t && (s.ten t).state != .absent)

/-- The pending bit of a source in a view (R241). -/
def View.pending (v : View) (src : Nat) : Bool := v.raw.getLsbD src && !v.mask.getLsbD src

/-- A source goes pending in a view: one MSI-X message when it is routed to a vector (R249, R252, R266). -/
def goPending (t src : Nat) (s : State) : State :=
  let v := s.view t
  let r := vat v.route src
  let m := vat v.msix r.vector
  if !r.vecEn || !v.msixEnable then s
  else if m.masked then s.updView t fun v => { v with pba := v.pba ||| BitVec.twoPow 16 r.vector }
  else s.emit (.msix t r.vector m.addr m.data)

/-- A raise in one view: latch, counter, and a message if the source goes pending (R242, R245, R249). -/
def raiseView (t src : Nat) (s : State) : State :=
  let v := s.view t
  let s1 := s.updView t fun v =>
    { v with raw := v.raw ||| BitVec.twoPow 128 src, count := upd v.count src fun n => (n + 1) % 2 ^ 32 }
  if v.raw.getLsbD src || v.mask.getLsbD src then s1 else goPending t src s1

/-- Sources that the -T variant never raises (R12). -/
def radioSource (src : Nat) : Bool := (96 ≤ src && src < 104) || src = 122

/-- A raise acts on a view: the source is visible there, and the tenant is not RESETTING (R238, R262). -/
def latches (s : State) (src t : Nat) : Bool := visible s t src && (t = 0 || (s.ten t).state != .resetting)

/-- A raise of a source: every view in which it is visible (R238). None while the host island is stopped (R265), none of
a source the variant lacks (R12); in the ROM stage only the mailbox's (R271, R274). -/
def raiseSrc (src : Nat) (s : State) : State :=
  if !s.supply.isl.host || (s.isT && radioSource src) || (!s.campel && !(32 ≤ src && src < 40)) then s
  else ((List.range 8).filter (latches s src)).foldl (fun s t => raiseView t src s) s

/-- MS_IRQ_N is low (R199, R251). -/
def msIrq (s : State) : Bool :=
  let t := if s.boot.spi7 then 7 else 0
  (List.range 128).any fun i => (s.view t).pending i && (vat (s.view t).route i).msIrq

/-- IRQ_N is low (R250). -/
def irqN (s : State) : Bool :=
  (List.range 8).any fun t => (List.range 128).any fun i => (s.view t).pending i && (vat (s.view t).route i).irqN

/-- Events of the last second among a list of uptimes. -/
def lastSecond (up : Nat) (l : List Nat) : List Nat := l.filter fun x => up < x + 1000000

/-! ### Breadcrumb records (spec/16) -/

/-- The last sequence number (R857). -/
def seqLast : Nat := 0xFFFFFFFFFFFF

/-- The chronicle protects journal slots from reuse (R832). -/
def Recorder.protects (r : Recorder) : Bool := r.chronState = .active || r.chronState = .unavailable

/-- The next journal slot that is not retired, from `n` on; `fuel` bounds the search. -/
def Recorder.liveSlot (r : Recorder) : Nat → Nat → Nat
  | 0, n => n
  | fuel + 1, n => if r.retired.contains n then r.liveSlot fuel ((n + 1) % 8000) else n

/-- The slot the next record goes to (R830, R852). -/
def Recorder.target (r : Recorder) : Nat := r.liveSlot r.retired.length r.nextSlot

/-- The journal takes a record now: its next slot may be reused (R832, R853). -/
def Recorder.journalTakes (r : Recorder) : Bool :=
  !r.nvmFaulted &&
    match mget r.journal r.target with
    | none => true
    | some j => !r.protects || j.record.seq ≤ r.chronicled

/-- Records in the journal that are not chronicled. -/
def Recorder.unchronicled (r : Recorder) : Nat := (r.journal.filter fun p => r.chronicled < p.2.record.seq).length

/-- R844's first condition: 6,000 unchronicled records, or staging that neither journal nor chronicle can take. -/
def Recorder.highNow (r : Recorder) : Bool :=
  6000 ≤ r.unchronicled || (!r.staging.isEmpty && !r.journalTakes && r.chronState != .active)

/-- A condition of tight mode holds (R847). -/
def Recorder.tightNow (r : Recorder) : Bool :=
  r.highNow || r.staging.any (fun x => x.flags.testBit 5) || r.full

/-- Put a record, its sequence already given, into staging (R827, R833). -/
def Recorder.stage (r : Recorder) (x : Record) : Recorder :=
  { r with head := x.seq
           staging := r.staging ++ [{ x with flags := x.flags ||| (if r.journalTakes then 0 else 32) }] }

/-- Count a record that staging cannot hold (R833). -/
def Recorder.drop (r : Recorder) (sev sec : Nat) : Recorder :=
  { r with dropCounts := r.dropCounts.set sev (r.dropCounts.getD sev 0 + 1)
           dropTimes := some ((r.dropTimes.map (·.1)).getD sec, sec), dropped := inc32 r.dropped }

/-- A record enters the recorder: sequence and staging, exhaustion, skip in tight mode, or drop (R824, R827, R833,
R847, R857). -/
def enterRecord (x : Record) (s : State) : State :=
  let r := s.recorder
  if r.exhausted then s.updRec fun r => { r with afterExhaustion := inc32 r.afterExhaustion }
  else if r.tight && x.severity ≤ 1 then
    s.updRec fun r =>
      { r with skipped := if x.severity = 0 then (r.skipped.1 + 1, r.skipped.2) else (r.skipped.1, r.skipped.2 + 1)
               tightSkipped := inc32 r.tightSkipped }
  else if 64 ≤ r.staging.length then
    let s1 := s.updRec fun r => r.drop x.severity s.timebase.now.sec
    if r.dropTimes.isNone then raiseSrc 117 s1 else s1
  else if r.head + 1 = seqLast then
    raiseSrc 119 (s.updRec fun r =>
      { (r.stage { seq := seqLast, time := x.time, source := 119, code := 0x09A4, severity := 5 }) with
          exhausted := true, afterExhaustion := inc32 r.afterExhaustion })
  else s.updRec fun r => r.stage { x with seq := r.head + 1 }

/-- Flags of a record made now (Table BRC.2): `isl` is the island ID of Table TIM.6. -/
def recordFlags (isl : Nat) (s : State) : Nat :=
  2 * b2n s.timebase.valid + 4 * b2n (s.timebase.dpll = .holdover) + 8 * b2n (!(vat s.timebase.cal (isl - 1)).valid)

/-- The payload of TIGHT_ENTERED carries the cause; the spec states no layout (log entry 7). -/
def tightPayload (r : Recorder) : Bytes :=
  Config.crumbPayload 0x0981 [b2n r.highNow, b2n (r.staging.any fun x => x.flags.testBit 5), b2n r.full]

/-- Raise source 112 when its condition becomes true, enter tight mode when a condition of it holds (R844, R847). -/
def recorderWatch (s : State) : State :=
  let s1 := if s.recorder.highNow && !s.recorder.high then raiseSrc 112 s else s
  let s2 := s1.updRec fun r => { r with high := r.highNow }
  if s2.recorder.tightNow && !s2.recorder.tight then
    let s3 := raiseSrc 115 (s2.updRec fun r => { r with tight := true, tightSince := s2.up, skipped := (0, 0) })
    enterRecord { time := s3.timebase.now, source := 115, code := 0x0981, severity := 2
                  flags := recordFlags 1 s3, payload := fit 32 (tightPayload s2.recorder) } s3
  else s2

/-- The OTP identity rows 0 to 6 (Table BRC.5). -/
def identityRows (s : State) : List Nat := (List.range 7).map fun i => mgetD s.boot.otp i 0

/-- The chronicle's state now (Table BRC.6); a committed format whose headers read blank is as NONE until R840 writes
them. -/
def chronNow (s : State) : ChronState :=
  match s.channel.format, s.recorder.header with
  | some _, some h =>
    if h.identity != identityRows s then .foreign
    else if s.supply.mode = .run ∧ s.channel.state ≠ .fault ∧ s.supply.sdRefclk ∧ s.channel.slices.any id then .active else .unavailable
  | _, _ => .none

/-- Bring the recorder's chronicle state up to date (R839). -/
def syncChron (s : State) : State := s.updRec fun r => { r with chronState := chronNow s }

/-- A record of an event: in the ROM stage it is deferred (R274), in SHELF and while off nothing is recorded. -/
def record (x : Record) (s : State) : State :=
  if !s.powered then s
  else if !s.campel then
    s.updBoot fun b => { b with deferred := b.deferred ++ [(x.source, x.code, x.severity, x.payload)] }
  else recorderWatch (enterRecord x (syncChron s))

/-- A breadcrumb detected in island `isl` (Table TIM.6), tenant and payload given, with SOURCE `src` (R826). -/
def crumbOf (isl src code sev ten : Nat) (payload : Bytes) (s : State) : State :=
  record { time := s.timebase.now, source := src, code := code, tenant := ten, severity := sev
           flags := recordFlags isl s, payload := fit 32 payload } s

/-- A breadcrumb of the Miller island that accompanies no source: SOURCE is 0x0100 plus the code's family (R826). -/
def crumb (code sev ten : Nat) (payload : Bytes) (s : State) : State :=
  crumbOf 1 (0x100 + code / 256) code sev ten payload s

/-- Raise a source and write the breadcrumb that accompanies it (R826). -/
def raiseCrumb (src code sev ten : Nat) (payload : Bytes) (s : State) : State :=
  crumbOf 1 src code sev ten payload (raiseSrc src s)

/-- The payload of a breadcrumb whose layout the spec does not state (log entry 7). -/
def anyPayload (code : Nat) (l : List Int) : Bytes := fit 32 (Config.crumbPayload code l)

/-- A record's 64 bytes, Table BRC.1 (R823). -/
def Record.bytes (x : Record) : Bytes :=
  let b := leBytes 6 x.seq ++ x.time.bytes ++ leBytes 2 x.source ++ leBytes 2 x.code ++ leBytes 1 x.tenant ++
    leBytes 1 x.severity ++ leBytes 2 x.flags ++ fit 32 x.payload
  b ++ leBytes 4 (crc32c b) ++ [0xFF, 0xFF, 0xFF, 0xA5]

/-! ### The Loft's memory (R123 to R130, R146 to R149) -/

/-- The bytes of Loft memory from an address on; an unlisted byte reads 0 (R129). -/
def memRead (m : List (Nat × BitVec 8)) (a n : Nat) : Bytes :=
  let w := m.filter fun c => a ≤ c.1 && c.1 < a + n
  (List.range n).map fun i => mgetD w (a + i) 0#8

/-- The cells of a byte string at an address: those that are not zero. -/
def cells : Nat → Bytes → List (Nat × BitVec 8)
  | _, [] => []
  | a, b :: l => if b = 0#8 then cells (a + 1) l else (a, b) :: cells (a + 1) l

/-- Store bytes at an address, the canonical form kept. -/
def memWrite (m : List (Nat × BitVec 8)) (a : Nat) (bs : Bytes) : List (Nat × BitVec 8) :=
  m.filter (fun c => c.1 < a) ++ cells a bs ++ m.filter fun c => a + bs.length ≤ c.1

/-- The canonical form of memory: addresses strictly rising, no byte listed that is zero. -/
def memWf : List (Nat × BitVec 8) → Bool
  | [] => true
  | [c] => c.2 != 0#8
  | c :: d :: l => c.2 != 0#8 && decide (c.1 < d.1) && memWf (d :: l)

/-- Granules (64 bytes) that `n` bytes at `a` touch. -/
def granules (a n : Nat) : List Nat := if n = 0 then [] else (List.range ((a + n - 1) / 64 + 1 - a / 64)).map (· + a / 64)

/-- Write bytes into a yealm: memory, written map, and poison removed from granules written whole (R129, R130, R149). -/
def Loft.write (l : Loft) (a : Nat) (bs : Bytes) : Loft :=
  let g := granules a bs.length
  { l with mem := memWrite l.mem a bs
           written := g.foldl setIns l.written
           poison := l.poison.filter fun p => !(a ≤ p * 64 && p * 64 + 64 ≤ a + bs.length) }

/-- A read of these bytes meets poison: a granule poisoned and written since allocation (R147, R181). -/
def Loft.poisoned (l : Loft) (a n : Nat) : Bool :=
  (granules a n).any fun g => l.poison.contains g && l.written.contains g

/-- Clear a yealm's contents and maps: allocation (R129). -/
def Loft.clear (l : Loft) (i : Nat) : Loft :=
  { l with mem := l.mem.filter fun c => c.1 / 4096 ≠ i
           written := l.written.filter fun g => g / 64 ≠ i
           poison := l.poison.filter fun g => g / 64 ≠ i }

/-- Address of byte `b` of yealm `i`. -/
def yAddr (i b : Nat) : Nat := i * 4096 + b

/-- A yealm's tag (R124). -/
def Loft.tag (l : Loft) (i : Nat) : Tag := mgetD l.tags i {}

/-- Change a yealm's tag. -/
def Loft.setTag (l : Loft) (i : Nat) (t : Tag) : Loft := { l with tags := mset l.tags i t }

/-- Pool indices (R123). -/
def poolIndex (i : Nat) : Bool := 32768 ≤ i && i < 2097152

/-- A pool yealm is free to be allocated. -/
def Loft.isFree (l : Loft) (i : Nat) : Bool :=
  poolIndex i && !(l.tag i).alloc && !l.gone.contains i && !l.testing.contains i

/-- The lowest free index from `i` on. -/
def Loft.lowestFree (l : Loft) : Nat → Nat → Option Nat
  | 0, _ => none
  | fuel + 1, i => if !poolIndex i then none else if l.isFree i then some i else l.lowestFree fuel (i + 1)

/-- The index the allocator takes: a free choice among the free ones (log entry 5). -/
def Loft.pick (l : Loft) : Option Nat :=
  let i := Config.allocPick l.picks
  if l.isFree i then some i else l.lowestFree (l.tags.length + l.gone.length + l.testing.length + 1) 32768

/-- Handle of a pool yealm, Table LFT.2. -/
def Loft.handle (l : Loft) (i : Nat) : Nat := (l.tag i).owner * 2 ^ 29 + (l.tag i).gen * 2 ^ 21 + i

/-- Fields of a handle (Table LFT.2): owner, generation, index. -/
def hOwner (h : Nat) : Nat := fld h 29 3
/-- GEN of a handle. -/
def hGen (h : Nat) : Nat := fld h 21 8
/-- INDEX of a handle. -/
def hIndex (h : Nat) : Nat := fld h 0 21

/-- The ring whose storage a yealm index is, Table LFT.1. -/
def storageRing (i : Nat) : Option Nat := if 1024 ≤ i ∧ i < 2048 then some ((i - 1024) / 32) else none

/-- A handle is current (R124, R126): a pool yealm allocated with this owner and generation, or ring storage of an open
ring (generation 1: log entry 9). -/
def current (s : State) (h : Nat) : Bool :=
  match storageRing (hIndex h) with
  | some n => (s.ring n).opened && (s.ring n).owner == hOwner h && hGen h == 1
  | none => poolIndex (hIndex h) && (s.loft.tag (hIndex h)).alloc &&
      (s.loft.tag (hIndex h)).owner == hOwner h && (s.loft.tag (hIndex h)).gen == hGen h

/-- A handle that a tenant may name in a command or descriptor (R135). -/
def usable (s : State) (t h : Nat) : Bool := current s h && hOwner h == t && poolIndex (hIndex h)

/-- Allocate one yealm to a tenant (R129); none when the pool has no free yealm. -/
def allocOne (t : Nat) (s : State) : Option (Nat × State) :=
  match s.loft.pick with
  | none => none
  | some i =>
    let l := { s.loft.clear i with picks := s.loft.picks + 1 }
    let l := l.setTag i { (l.tag i) with owner := t, alloc := true, pins := 0, doomed := false }
    some (l.handle i, { s with loft := l }.updTen t fun x => { x with held := x.held + 1, peak := max x.peak (x.held + 1) })

/-- Allocate `n` yealms to a tenant, all or none. -/
def allocMany (t : Nat) : Nat → State → Option (List Nat × State)
  | 0, s => some ([], s)
  | n + 1, s =>
    match allocOne t s with
    | none => none
    | some (h, s1) => (allocMany t n s1).map fun p => (h :: p.1, p.2)

/-- Free a yealm: its generation advances (R125); with poison it waits for its retirement test (R151). -/
def freeYealm (i : Nat) (s : State) : State :=
  let g := s.loft.tag i
  let bad := s.loft.poison.any fun p => p / 64 = i
  let l := s.loft.setTag i { g with alloc := false, pins := 0, doomed := false, gen := if g.gen = 255 then 1 else g.gen + 1 }
  { s with loft := { l with testing := if bad then setIns l.testing i else l.testing } }.updTen g.owner fun x =>
    { x with held := x.held - 1 }

/-- Device work takes a yealm (R131). -/
def pin (i : Nat) (s : State) : State :=
  if poolIndex i then s.updLoft fun l => l.setTag i { (l.tag i) with pins := (l.tag i).pins + 1 } else s

/-- Device work ends with a yealm (R131); one that a tenant reset left pinned is freed with its last pin (R178). -/
def unpin (i : Nat) (s : State) : State :=
  if !poolIndex i then s
  else
    let s1 := s.updLoft fun l => l.setTag i { (l.tag i) with pins := (l.tag i).pins - 1 }
    if (s1.loft.tag i).doomed && (s1.loft.tag i).pins == 0 && (s1.loft.tag i).alloc then freeYealm i s1 else s1

/-- Pin every index of a list. -/
def pinAll (l : List Nat) (s : State) : State := l.foldl (fun s i => pin i s) s
/-- Unpin every index of a list. -/
def unpinAll (l : List Nat) (s : State) : State := l.foldl (fun s i => unpin i s) s

/-- Write into Loft memory (R130, R149). -/
def loftWrite (a : Nat) (bs : Bytes) (s : State) : State := s.updLoft fun l => l.write a bs

/-- Read Loft memory. -/
def loftRead (s : State) (a n : Nat) : Bytes := memRead s.loft.mem a n

/-! ### Rings and events (R156 to R169) -/

/-- Depth of a ring. -/
def Ring.depth (r : Ring) : Nat := 2 ^ r.log2
/-- Entries waiting: TAIL - HEAD modulo 2^32. -/
def Ring.waiting (r : Ring) : Nat := (r.tail + 2 ^ 32 - r.head) % 2 ^ 32
/-- Free slots of a ring. -/
def Ring.room (r : Ring) : Nat := r.depth - r.waiting
/-- Address of a ring's slot (Table LFT.1). -/
def slotAddr (n : Nat) (r : Ring) (k : Nat) : Nat := yAddr (1024 + 32 * n) (k % r.depth * 32)
/-- RING_BASE: the handle of the first storage yealm (Table LFT.6). -/
def Ring.base (r : Ring) (n : Nat) : Nat := if r.opened then r.owner * 2 ^ 29 + 2 ^ 21 + (1024 + 32 * n) else 0

/-- The device produces a descriptor: 31 bytes, then PHASE, then TAIL (R160); attention when COUNT is reached (R164). -/
def produce (n : Nat) (body : Bytes) (s : State) : State :=
  let r := s.ring n
  let phase : BitVec 8 := if r.tail / r.depth % 2 = 0 then 1 else 0
  let s1 := loftWrite (slotAddr n r r.tail) (fit 31 body ++ [phase]) s
  let s2 := s1.updRing n fun r => { r with tail := (r.tail + 1) % 2 ^ 32 }
  if r.thCount ≠ 0 ∧ (s2.ring n).waiting = r.thCount then raiseSrc n s2 else s2

/-- Table LFT.9. -/
def completeDesc (cls status tag count flags : Nat) (result : Bytes) (time : Time) : Bytes :=
  leBytes 1 cls ++ leBytes 1 status ++ leBytes 2 tag ++ leBytes 4 count ++ time.bytes ++ leBytes 2 flags ++
    fit 8 result ++ zeros 3

/-- A ring closes: its registers read zero (R165); its COMPLETE partner is free again. -/
def closeRing (n : Nat) (s : State) : State :=
  let r := s.ring n
  let s1 := match r.pair with
    | some p => s.updRing p fun q => { q with pair := none }
    | none => s
  s1.updRing n fun _ => {}

/-- Table LFT.11. -/
def eventDesc (kind status code token ten origin : Nat) (data : Bytes) (time : Time) : Bytes :=
  leBytes 1 kind ++ leBytes 1 status ++ leBytes 2 code ++ leBytes 4 token ++ time.bytes ++ leBytes 1 ten ++
    leBytes 1 origin ++ fit 8 data ++ zeros 3

/-- The tenant's open EVENT ring. -/
def eventRing (s : State) (t : Nat) : Option Nat :=
  (List.range 32).find? fun n => (s.ring n).opened && (s.ring n).type == .event && (s.ring n).owner == t

/-- Slots of a tenant's EVENT ring reserved for completion tokens (R205, R906). -/
def reservedSlots (s : State) (t : Nat) : Nat :=
  (s.jobs.filter fun j => j.tenant == t && j.origin.isNone).length +
    b2n ((s.ten t).outstanding.any (·.asyncOk)) + (s.ten t).awaiting

/-- A slot can be reserved in a tenant's EVENT ring (R185, R205). -/
def canReserve (s : State) (t : Nat) : Bool :=
  match eventRing s t with
  | some n => reservedSlots s t < (s.ring n).room
  | none => false

/-- Write the OVERFLOW marker when events were lost and a free slot is not reserved, nor one of the `kept` more (R163). -/
def markOverflow (t n kept : Nat) (s : State) : State :=
  if (s.ring n).lost ≠ 0 ∧ reservedSlots s t + kept < (s.ring n).room then
    (produce n (eventDesc 3 0 0 0 t 0 (leBytes 8 (s.ring n).lost) s.timebase.now) s).updRing n fun r => { r with lost := 0 }
  else s

/-- Deliver an event that has no reserved slot (R163). -/
def postEvent (t kind code ten : Nat) (data : Bytes) (s : State) : State :=
  match eventRing s t with
  | none => s
  | some n =>
    let s1 := markOverflow t n 0 s
    if reservedSlots s1 t < (s1.ring n).room then
      produce n (eventDesc kind 0 code 0 ten 0 data s1.timebase.now) s1
    else s1.updRing n fun r =>
      { r with overflow := true, dropped := inc16 r.dropped, lost := r.lost + 1 }

/-- Write an ASYNC_COMPLETION into the slot reserved for it (R206); `d` is a whole descriptor. -/
def postCompletion (t : Nat) (d : Bytes) (s : State) : State :=
  match eventRing s t with
  | none => s
  | some n => produce n d (markOverflow t n 1 s)

end Sys2Proof.Machine
end

