-- ==== Sys2Proof/Machine/Status.lean ====
section
/-! DEFINITION. The Campel status codes of Table TEN.9 (R208). -/
namespace Sys2Proof.Machine.St

/-- Table TEN.9. -/
abbrev ok : Nat := 0x00
/-- Table TEN.9. -/
abbrev accepted : Nat := 0x01
/-- Table TEN.9. -/
abbrev busy : Nat := 0x02
/-- Table TEN.9. -/
abbrev badOpcode : Nat := 0x10
/-- Table TEN.9. -/
abbrev badLength : Nat := 0x11
/-- Table TEN.9. -/
abbrev badField : Nat := 0x12
/-- Table TEN.9. -/
abbrev notPermitted : Nat := 0x13
/-- Table TEN.9. -/
abbrev notFitted : Nat := 0x14
/-- Table TEN.9. -/
abbrev wrongMode : Nat := 0x15
/-- Table TEN.9. -/
abbrev crcBad : Nat := 0x16
/-- Table TEN.9. -/
abbrev freeStale : Nat := 0x20
/-- Table TEN.9. -/
abbrev freeForeign : Nat := 0x21
/-- Table TEN.9. -/
abbrev quota : Nat := 0x22
/-- Table TEN.9. -/
abbrev loftPoison : Nat := 0x23
/-- Table TEN.9. -/
abbrev keyAbsent : Nat := 0x30
/-- Table TEN.9. -/
abbrev keyWorn : Nat := 0x31
/-- Table TEN.9. -/
abbrev keyNoEpoch : Nat := 0x32
/-- Table TEN.9. -/
abbrev mediumError : Nat := 0x40
/-- Table TEN.9. -/
abbrev verifyFailed : Nat := 0x41
/-- Table TEN.9. -/
abbrev notReady : Nat := 0x42
/-- Table TEN.9. -/
abbrev lbaRange : Nat := 0x43
/-- Table TEN.9. -/
abbrev timeInvalid : Nat := 0x50
/-- Table TEN.9. -/
abbrev denied : Nat := 0x60
/-- Table TEN.9. -/
abbrev tenantFaulted : Nat := 0x70
/-- Table TEN.9. -/
abbrev aborted : Nat := 0x71
/-- Table TEN.9. -/
abbrev internal : Nat := 0x7F

end Sys2Proof.Machine.St
end

