-- ==== Sys2Proof/Machine/KeyOps.lean ====
section
/-!
DEFINITION. Key slots in use: which tenant may name a slot, reservations of invocations, nonces, and the end of a use
(spec/15_keys_and_crypto.md, R777 to R797).
-/
namespace Sys2Proof.Machine

/-- Key slot `i`. -/
def State.key (s : State) (i : Nat) : KeySlot := vat s.keys.slot i
/-- Change the crypto island. -/
def State.updKeys (s : State) (f : Keys → Keys) : State := { s with keys := f s.keys }
/-- Change key slot `i`. -/
def State.updKey (s : State) (i : Nat) (f : KeySlot → KeySlot) : State :=
  s.updKeys fun k => { k with slot := upd k.slot i f }

/-- A tenant may name a slot (R778). -/
def keyNamed (s : State) (t i : Nat) : Bool := t = 0 || (s.key i).users.testBit t

/-- Naming a slot for a kind: the status it fails with, OK if it does not (R777, R778). -/
def keyStatus (s : State) (t i kind : Nat) : Nat :=
  if (s.key i).kind = 0 ∨ !keyNamed s t i then St.keyAbsent
  else if (s.key i).kind ≠ kind then St.badField else St.ok

/-- Nonces may be formed in this boot (R793). -/
def epochUsable (s : State) : Bool := s.boot.epochState = 0 && s.boot.epoch != 0xFFFFFFFF

/-- The largest count of invocations of a load (R792). -/
def invocationLimit : Nat := 2 ^ 48

/-- The first failure of a worn load raises source 107 and writes KEY_WORN (R792). -/
def wearOut (i : Nat) (s : State) : State :=
  if (s.key i).worn then s
  else raiseCrumb 107 0x0AA0 3 0 (anyPayload 0x0AA0 [i, (s.key i).load]) (s.updKey i fun k => { k with worn := true })

/-- Start a use of a slot that reserves `n` invocations; `forms` when it forms nonces. Answers the status, the first
number reserved and the load (R780, R791 to R793, R818). -/
def keyStart (t i kind n : Nat) (forms : Bool) (s : State) : Nat × Nat × State :=
  let k := s.key i
  let st := keyStatus s t i kind
  if st ≠ St.ok then (st, 0, s)
  else if forms && !k.formNonce then (St.badField, 0, s)
  else if forms && !epochUsable s then (St.keyNoEpoch, 0, s)
  else if k.worn ∨ invocationLimit < k.used + n then (St.keyWorn, 0, wearOut i s)
  else (St.ok, k.used, s.updKey i fun k => { k with used := k.used + n, ops := k.ops + 1 })

/-- A use of load `load` of a slot ends (R797): the current material's, or the retiring material's. -/
def keyEnd (i load : Nat) (s : State) : State :=
  s.updKey i fun k =>
    if k.load = load ∧ k.kind ≠ 0 then { k with ops := k.ops - 1 }
    else { k with retiring := k.retiring.map fun r => if r.load = load then { r with users := r.users - 1 } else r }

/-- The material of load `load` of a slot: current or retiring (R796). -/
def keyMaterial (s : State) (i load : Nat) : Bytes :=
  let k := s.key i
  if k.load = load ∧ k.kind ≠ 0 then k.material
  else match k.retiring with
    | some r => r.material
    | none => []

/-- COUNTER of an invocation (R789). -/
def keyCounter (load n : Nat) : Nat := load * 2 ^ 48 + n

/-- The 12-byte nonce (R790). -/
def nonce (epoch counter : Nat) : Bytes := leBytes 4 epoch ++ leBytes 8 counter

/-- The LOAD that the next load takes (R788). -/
def nextLoad (s : State) : Nat := s.keys.loads + 1

end Sys2Proof.Machine
end

