-- ==== Sys2Proof/Machine/Lane.lean ====
section
/-!
DEFINITION. Sending on the Declin lanes: queues, virtual channels, credits, link encryption and counters
(spec/17_declin_cascade.md, R881 to R903, R926). Lane 0 is CU, lane 1 is CD.
-/
namespace Sys2Proof.Machine

/-- Change the cascade island. -/
def State.updCas (s : State) (f : Cascade → Cascade) : State := { s with cascade := f s.cascade }
/-- Lane `l`. -/
def State.laneOf (s : State) (l : Nat) : Lane := vat s.cascade.lane l
/-- Change lane `l`. -/
def State.updLane (s : State) (l : Nat) (f : Lane → Lane) : State :=
  s.updCas fun c => { c with lane := upd c.lane l f }

/-- Virtual channel of a frame type (Table CAS.3). -/
def frameVc (type : Nat) : Nat :=
  if type ∈ [0x06, 0x07, 0x10, 0x11, 0x12, 0x31, 0x33] then 1
  else if type = 0x20 then 2
  else if type ∈ [0x30, 0x32, 0x41] then 3
  else 0

/-- Credit a frame takes, in 64-byte units (R883; the unit of a whole frame: log entry 10). -/
def frameUnits (len : Nat) : Nat := max 1 ((len + 63) / 64)

/-- Raise source 78 or 79 of a lane, at most once per 100 ms (R926). -/
def laneErr (l : Nat) (s : State) : State :=
  match (s.laneOf l).errAt with
  | some t => if s.up < t + 100000 then s else raiseSrc (78 + l) (s.updLane l fun x => { x with errAt := some s.up })
  | none => raiseSrc (78 + l) (s.updLane l fun x => { x with errAt := some s.up })

/-- Add to a lane counter; those marked E raise the lane's error source (R926, CAS_COUNTERS). -/
def laneCount (l i n : Nat) (s : State) : State :=
  let s1 := s.updLane l fun x => { x with counters := upd x.counters i fun c => wrap64 (c + n) }
  if 4 ≤ i ∧ i ≤ 8 then laneErr l s1 else s1

/-- START bytes 1 to 7 (Table CAS.2). -/
def startBytes (f : LaneFrame) (len : Nat) (resent : Bool) : Bytes :=
  leBytes 1 f.type ++ leBytes 1 (b2n f.encrypted + 2 * b2n resent) ++ leBytes 2 len ++ leBytes 2 f.fseq ++
    leBytes 1 (f.dest + 8 * f.origin)

/-- Seal a frame's payload under the lane's TX_SLOT (R901); none with the state when the key fails (R903). -/
def sealFrame (l : Nat) (f : LaneFrame) (s : State) : Option LaneFrame × State :=
  let ln := s.laneOf l
  if !ln.encrypt || f.type == 0x41 then (some f, s)
  else
    let (st, n, s1) := keyStart 0 ln.txSlot 3 1 true s
    if st ≠ St.ok then
      (none, if ln.keyTold then s1 else laneErr l (s1.updLane l fun x => { x with keyTold := true }))
    else
      let k := s1.key ln.txSlot
      let iv := nonce s1.boot.epoch (keyCounter k.load n)
      let g := { f with encrypted := true }
      let c := Config.gcmSeal k.material iv (startBytes g (f.payload.length + 28) false) f.payload
      let ct := fit (f.payload.length + 16) c
      (some { g with payload := ct.take f.payload.length ++ iv ++ ct.drop f.payload.length },
        keyEnd ln.txSlot k.load (s1.updLane l fun x => { x with keyTold := false }))

/-- Put one frame on the lane: FSEQ, credit, counters (R883, R884). -/
def startFrame (l : Nat) (f : LaneFrame) (s : State) : State :=
  let g := f
  let s1 := s.emit (.lane l g.type g.dest g.origin g.encrypted false g.payload)
  let s2 := s1.updLane l fun x =>
    { x with txSeq := (x.txSeq + 1) % 65536, unacked := x.unacked ++ [g]
             credit := upd x.credit (frameVc g.type) fun c => c - frameUnits g.payload.length }
  laneCount l 2 g.payload.length (laneCount l 0 1 s2)

/-- The first queued frame of a virtual channel, when the lane holds credit for it. -/
def readyOn (ln : Lane) (vc : Nat) : Option LaneFrame :=
  match ln.queue.find? fun f => frameVc f.type == vc with
  | some f =>
    if frameUnits (f.payload.length + 28 * b2n ln.encrypt) ≤ vat ln.credit vc then some f else none
  | none => none

/-- The next frame the lane may start: lowest virtual channel first (R883). -/
def nextFrame (ln : Lane) : Option LaneFrame := [0, 1, 2, 3].findSome? (readyOn ln)

/-- Frames may start: link up and no switch agreed (R890). -/
def laneOpen (ln : Lane) : Bool := ln.state = .up && ln.switchTo.isNone

/-- Start queued frames while link, credit and key allow, at most `fuel` of them. -/
def pump (l : Nat) : Nat → State → State
  | 0, s => s
  | fuel + 1, s =>
    let ln := s.laneOf l
    if !laneOpen ln then s
    else match nextFrame ln with
      | none => s
      | some f =>
        match sealFrame l { f with fseq := ln.txSeq } s with
        | (none, s1) => s1
        | (some g, s1) => pump l fuel (startFrame l g (s1.updLane l fun x => { x with queue := x.queue.erase f }))

/-- Queue a frame on a lane and start what may start. -/
def laneSend (l type dest origin : Nat) (payload : Bytes) (s : State) : State :=
  let s1 := s.updLane l fun x => { x with queue := x.queue ++ [{ type, dest, origin, payload }] }
  pump l (s1.laneOf l).queue.length s1

/-- Send a control block. -/
def laneBlock (l type : Nat) (b : Bytes) (s : State) : State := s.emit (.block l type (fit 7 b))

/-- The lane towards a position (R904). -/
def laneTo (s : State) (pos : Nat) : Nat := if pos > s.cascade.position then 1 else 0

/-- A module is present at a position, seen from here (R201, R887, R940). -/
def present (s : State) (pos : Nat) : Bool :=
  s.cascade.valid && !s.cascade.outside && s.cascade.acting != .standalone && pos != s.cascade.position &&
    (s.laneOf (laneTo s pos)).state == .up &&
    (pos < s.cascade.position || pos < s.cascade.modules || !(s.cascade.acting == .ridge || s.cascade.acting == .actingRidge))

/-- Send a frame to a position of the chain. -/
def sendTo (pos type : Nat) (payload : Bytes) (s : State) : State :=
  laneSend (laneTo s pos) type pos s.cascade.position payload s

end Sys2Proof.Machine
end

