-- ==== Sys2Proof/Machine/Jobs.lean ====
section
/-!
DEFINITION. Completions: of asynchronous commands (R205 to R207, R906, R270) and of consumed submissions (R161, R168).
-/
namespace Sys2Proof.Machine

/-- The ASYNC_COMPLETION of a command is written, sent back when it was forwarded (R206, R906), or kept for
BOOT_GET_STATUS in the ROM stage (R270); its yealms are unpinned (R131). -/
def writeCompletion (j : Job) (status : Nat) (data : Bytes) (s : State) : State :=
  let s1 := unpinAll j.pins { s with jobs := s.jobs.erase j }
  if !s1.campel then s1.updBoot fun b => { b with lastStatus := status, lastToken := j.token }
  else
    match j.origin with
    | some p =>
      sendTo p 0x12 (eventDesc 1 status j.op j.token j.tenant (s1.cascade.position + 128) data s1.timebase.now ++ zeros 1) s1
    | none =>
      postCompletion j.tenant (eventDesc 1 status j.op j.token j.tenant s1.cascade.position data s1.timebase.now) s1

/-- An asynchronous command ends; during hold-up its completion waits until that work has ended (R952). -/
def completeJob (j : Job) (status : Nat) (data : Bytes) (s : State) : State :=
  if s.supply.holdUp then { s with jobs := s.jobs.map fun x => if x = j then { x with ended := some (status, data) } else x }
  else writeCompletion j status data s

/-- The completions that hold-up held back are written (R952). -/
def writeHeldBack (s : State) : State :=
  s.jobs.foldl (fun s j => match j.ended with
    | some (st, d) => writeCompletion j st d s
    | none => s) s

/-- The job of an opcode for a unit. -/
def findJob (s : State) (op key : Nat) : Option Job := s.jobs.find? fun j => j.op == op && j.key == key && j.ended.isNone

/-- The command of an opcode for a unit ends, if one is in flight. -/
def finish (op key status : Nat) (data : Bytes) (s : State) : State :=
  match findJob s op key with
  | some j => completeJob j status data s
  | none => s

/-- Every command of an opcode for a unit ends. -/
def finishAll (op key status : Nat) (s : State) : State :=
  (s.jobs.filter fun j => j.op == op && j.key == key && j.ended.isNone).foldl (fun s j => completeJob j status [] s) s

/-- Whether a command of an opcode is in flight. -/
def inFlight (s : State) (op : Nat) : Bool := s.jobs.any fun j => j.op == op && j.ended.isNone

/-- An asynchronous command ends with a result: a yealm of its tenant holds it, and DATA names the yealm; QUOTA when
none can be allocated (R140, Table LFT.11). -/
def completeResult (j : Job) (result : Bytes) (s : State) : State :=
  if (s.ten j.tenant).quota < (s.ten j.tenant).held + 1 then completeJob j St.quota [] s
  else match allocOne j.tenant s with
    | none => completeJob j St.quota [] s
    | some (h, s1) => completeJob j St.ok (leBytes 4 h) (loftWrite (yAddr (hIndex h) 0) result s1)

/-- A consumed submission of ring `n` has its completion written, or its ring's tenant was reset; a ring that waits to
close closes after its last completion (R168, R174). -/
def ringDone (n : Nat) (s : State) : State :=
  let s1 := s.updRing n fun r => { r with inFlight := r.inFlight - 1 }
  let r := s1.ring n
  if r.closing && r.inFlight == 0 then finish 0x0304 n St.ok [] (closeRing n s1) else s1

/-- Write the COMPLETE descriptor of a submission of SUBMIT ring `n` (R168). -/
def completeSub (n cls status tag count flags : Nat) (result : Bytes) (s : State) : State :=
  let r := s.ring n
  if !r.opened then s
  else match r.pair with
    | some p => ringDone n (produce p (completeDesc cls status tag count flags result s.timebase.now) s)
    | none => ringDone n s

end Sys2Proof.Machine
end

