-- ==== Sys2Proof/Machine/Campel.lean ====
section
/-!
DEFINITION. The Campel protocol (spec/04_tenants_and_mailboxes.md): what a command is, the order of the request checks
(Table TEN.8), responses, completion tokens, tenant faults and the mailbox.
-/
namespace Sys2Proof.Machine
open Sys2Proof

/-! ### Tenant faults (R209, R210, R214) -/

/-- A SUBMIT ring stops consuming: STALLED with its cause, attention when it goes from 0 to 1 (R161, R164). -/
def stallRing (n cause : Nat) (s : State) : State :=
  if (s.ring n).stalled then s.updRing n fun r => { r with stallCause := cause }
  else raiseSrc n (s.updRing n fun r => { r with stalled := true, stallCause := cause, sinceAttn := 0 })

/-- SUBMIT rings a tenant has open. -/
def submitRings (s : State) (t : Nat) : List Nat :=
  (List.range 32).filter fun n => (s.ring n).opened && (s.ring n).type == .submit && (s.ring n).owner == t

/-- A cause of Table TEN.11 arises: a READY tenant becomes FAULTED, tenant 0 stays READY (R209, R210, R214). -/
def faultTenant (t cause : Nat) (s : State) : State :=
  if (s.ten t).state != .ready then s
  else
    let s1 := s.updTen t fun x =>
      { x with faultCause := cause, faultCount := inc16 x.faultCount, state := if t = 0 then .ready else .faulted }
    let s2 := raiseCrumb (40 + t) 0x02A0 4 t (anyPayload 0x02A0 [t, cause]) s1
    if t = 0 then s2 else (submitRings s2 t).foldl (fun s n => stallRing n 5 s) s2

/-! ### Commands -/

/-- How a command ends. -/
inductive Reply where
  /-- answered at once -/
  | done (status : Nat) (payload : Bytes) (s : State)
  /-- answered ACCEPTED: the work goes on as this job (R205) -/
  | accept (j : Job) (s : State)
  /-- no response is written (R223) -/
  | silent (s : State)

/-- A Campel command: its opcode and what the checks of Table TEN.8 ask of a request for it. -/
structure Cmd where
  op : Nat
  /-- check 8: the tenant's rights -/
  rights : State → Nat → Bytes → Bool := fun _ _ _ => true
  /-- a request of Table PWR.8: accepted from tenants other than 0 in SAFE (R1008), and while PFAIL is latched (R996) -/
  limited : Nat → Bytes → Bool := fun _ _ => false
  /-- check 9: the modes that allow it -/
  modes : Mode → Bool := fun _ => true
  /-- check 9: the islands its service needs run (R47) -/
  islands : State → Bytes → Bool := fun _ _ => true
  /-- served in the ROM stage (Table BOT.10) -/
  rom : Bool := false
  /-- served in the Campel stage -/
  inCampel : Bool := true
  /-- the command's own rule decides while PFAIL is latched (R301, R1002) -/
  ownPfail : Bool := false
  /-- check 10 -/
  len : Bytes → Bool := fun p => p.length == 0
  /-- check 11 -/
  fields : State → Nat → Bytes → Bool := fun _ _ _ => true
  /-- check 12 and the effect -/
  run : State → Nat → Bytes → Reply

/-- A request as a module executes it. -/
structure Req where
  op : Nat
  seq : Nat := 0
  t : Nat
  asyncOk : Bool := false
  payload : Bytes := []
  /-- position of the module that holds the mailbox, when it is another one -/
  origin : Option Nat := none

/-- Opcodes that a FAULTED tenant may issue (R211): SYS_GET_INFO; TEN_GET_STATUS and TEN_RESET for itself; the recorder reads. -/
def faultedMay (op t : Nat) (p : Bytes) : Bool :=
  op ∈ [0x0101, 0x0901, 0x0902, 0x0903] || (op ∈ [0x0201, 0x0204] && (byteAt p 0 == 0xFF || byteAt p 0 == t))

/-- The first failed check of Table TEN.8 from check 5 on, for a command that is defined (R200, R10, R215, R269). -/
def checks (c : Cmd) (q : Req) (s : State) : Option Nat :=
  let tn := s.ten q.t
  if q.op / 256 = 7 ∧ s.isT then some St.notFitted
  else if tn.state = .resetting then some St.busy
  else if !s.campel && !c.rom then some St.wrongMode
  else if tn.state = .absent ∧ q.op ≠ 0x0101 then some St.notPermitted
  else if tn.state = .faulted ∧ !faultedMay q.op q.t q.payload then some St.tenantFaulted
  else if !c.rights s q.t q.payload then some St.notPermitted
  else if s.campel && (!c.inCampel || !c.modes s.supply.mode || !c.islands s q.payload ||
      (s.supply.mode = .safe && q.t ≠ 0 && !c.limited q.t q.payload)) then some St.wrongMode
  else if s.supply.pfail && !c.limited q.t q.payload && !c.ownPfail then some St.notReady
  else if !c.len q.payload then some St.badLength
  else if !c.fields s q.t q.payload then some St.badField
  else none

/-- The status of a request whose opcode is not defined (checks 5 and 6, R269). -/
def undefinedStatus (q : Req) (s : State) : Nat :=
  if q.op / 256 = 7 ∧ s.isT then St.notFitted
  else if (s.ten q.t).state = .resetting then St.busy
  else if !s.campel then St.wrongMode
  else St.badOpcode

/-- The next completion token of a tenant (R206). -/
def nextToken (x : Tenant) : Nat := if x.lastToken = 0xFFFFFFFF then 1 else x.lastToken + 1

/-- What a response carries: none when no response is written. -/
abbrev Answer := Option (Nat × Option Nat × Bytes)

/-- Execute a request: checks 5 onward, the effect, and for ACCEPTED the token and the EVENT slot (R200, R205, R206,
R185, R270). -/
def execute (c : Cmd) (q : Req) (s : State) : Answer × State :=
  match checks c q s with
  | some st => (some (st, none, []), s)
  | none =>
    match c.run s q.t q.payload with
    | .done st p s1 => (some (st, none, p), s1)
    | .silent s1 => (none, s1)
    | .accept j s1 =>
      if !q.asyncOk then (some (St.badField, none, []), s)
      else if s.campel && q.origin.isNone && !canReserve s q.t then (some (St.busy, none, []), s)
      else
        let tok := nextToken (s1.ten q.t)
        let s2 := s1.updTen q.t fun x => { x with lastToken := tok }
        (some (St.accepted, some tok, []),
          { s2 with jobs := s2.jobs ++ [{ j with tenant := q.t, token := tok, op := q.op, origin := q.origin }] })

/-- Write a response into the mailbox (R193): MB_RSP, RSP_READY, BUSY, source 32 + t. -/
def respond (t : Nat) (r : Rsp) (s : State) : State :=
  raiseSrc (32 + t) (s.updTen t fun x =>
    { x with rsp := some r, rspReady := true, busy := false, lastSeq := r.seq, requests := inc32 x.requests
             outstanding := none })

/-- The response of this module to a request (R202). -/
def localRsp (s : State) (q : Req) (a : Nat × Option Nat × Bytes) : Rsp :=
  { op := q.op, seq := q.seq, status := a.1, tokenValid := a.2.1.isSome, forwarded := false
    pos := s.cascade.position, token := a.2.1.getD 0, payload := a.2.2 }

/-- Answer a request in its own mailbox; a silent one leaves the mailbox as the effect left it. -/
def answer (q : Req) (r : Answer × State) : State :=
  match r.1 with
  | none => r.2
  | some a => respond q.t (localRsp r.2 q a) r.2

/-- A request fails a header check: counted, and MAILBOX_ABUSE at 64 within 1 s (Table TEN.8, Table TEN.11, R235). -/
def headerFail (q : Req) (st : Nat) (s : State) : State :=
  let times := s.up :: lastSecond s.up (s.ten q.t).headerFailTimes
  let s1 := s.updTen q.t fun x =>
    { x with headerFails := inc32 x.headerFails, headerFailTimes := if 64 ≤ times.length then [] else times }
  let s2 := answer q (some (st, none, []), s1)
  if 64 ≤ times.length then faultTenant q.t 2 s2 else s2

/-- A doorbell that finds the mailbox outstanding, or a tenant other than 0 before the Campel stage ends (R191, R269). -/
def doorbellRefused (t : Nat) (s : State) : State :=
  s.updTen t fun x => { x with refused := true, refusedCount := inc32 x.refusedCount }

/-- MB_STATUS.BUSY as a tenant reads it (R191, R269). -/
def mailboxBusy (s : State) (t : Nat) : Bool := (s.ten t).busy || (!s.campel && t ≠ 0)

/-- BUSY is set, RSP_READY cleared, the transport noted (R191). -/
def takeRequest (t : Nat) (spi : Bool) (s : State) : State :=
  s.updTen t fun x => { x with busy := true, rspReady := false, transport := spi }

/-- A request header, Table TEN.6, with its CRC field zero. -/
def reqHeader (op seq t flags len target : Nat) : Bytes :=
  leBytes 2 op ++ leBytes 2 seq ++ leBytes 1 t ++ leBytes 1 flags ++ leBytes 2 len ++ leBytes 1 target ++ zeros 3 ++ zeros 4

/-- A request as MB_REQ holds it, with its CRC (Table TEN.6). -/
def encodeReq (op seq t flags target : Nat) (p : Bytes) : Bytes :=
  let h := reqHeader op seq t flags p.length target
  h.take 12 ++ leBytes 4 (crc32c (h ++ p)) ++ p

/-- A response's bytes, Table TEN.7. -/
def Rsp.bytes (r : Rsp) : Bytes :=
  let h := leBytes 2 r.op ++ leBytes 2 r.seq ++ leBytes 1 r.status ++
    leBytes 1 (b2n r.tokenValid + 2 * b2n r.forwarded + 4 * r.pos) ++ leBytes 2 r.payload.length ++
    leBytes 4 (if r.tokenValid then r.token else 0)
  h ++ leBytes 4 (crc32c (h ++ zeros 4 ++ r.payload)) ++ r.payload

/-- The request of a call. -/
def callReq (c : Call) (op : Nat) : Req :=
  { op, seq := c.seq, t := c.t.val, asyncOk := c.asyncOk, payload := c.payload }

/-- A command put into the mailbox and started by its doorbell: the meaning of every row that is a Campel command. -/
def call (cmd : Cmd) (c : Call) (s : State) : State :=
  let t := c.t.val
  if !s.supply.isl.host then s
  else if mailboxBusy s t then doorbellRefused t s
  else
    let s1 := takeRequest t c.spi (s.updTen t fun x =>
      { x with mbReq := fit 256 (encodeReq cmd.op c.seq t (b2n c.asyncOk) 0 c.payload) })
    if 240 < c.payload.length then headerFail (callReq c cmd.op) St.badLength s1
    else answer (callReq c cmd.op) (execute cmd (callReq c cmd.op) s1)

/-- The meaning of a Campel command. -/
def command (cmd : Cmd) (c : Call) (s : State) : Res := s.running (call cmd c)

/-! ### Rights of Table columns -/

/-- Tenant 0 only. -/
def byZero (_ : State) (t : Nat) (_ : Bytes) : Bool := t = 0
/-- The owner of a service (R220). -/
def byOwner (svc : Nat) (s : State) (t : Nat) (_ : Bytes) : Bool := s.owner svc = t
/-- The owner of a service or a tenant with read rights (R220). -/
def byReader (svc : Nat) (s : State) (t : Nat) (_ : Bytes) : Bool :=
  s.owner svc = t || (vat s.svcRights svc).testBit t
/-- Marked "any" or "read": a request of Table PWR.8. -/
def always (_ : Nat) (_ : Bytes) : Bool := true
/-- Exactly `n` payload bytes. -/
def exactly (n : Nat) (p : Bytes) : Bool := p.length == n

/-- The tenant that a byte names, 0xFF for the requester's own. -/
def namedTenant (t : Nat) (p : Bytes) : Nat := if byteAt p 0 = 0xFF then t else byteAt p 0

end Sys2Proof.Machine
end

