-- ==== Sys2Proof/Machine/Otp.lean ====
section
/-!
DEFINITION. The OTP array: rows, regions, counters and the policy and lock fields (spec/06_waking_boot_otp.md,
R282 to R288, Tables BOT.4 and BOT.5).
-/
namespace Sys2Proof.Machine

/-- OTP row `i`, corrected (R283). -/
def otpRow (s : State) (i : Nat) : Nat := mgetD s.boot.otp i 0

/-- First and last row of a static region, its CRC row the last (Table BOT.4). -/
def otpRegion : Nat → Option (Nat × Nat)
  | 1 => some (0, 7)
  | 2 => some (8, 71)
  | 3 => some (72, 87)
  | 4 => some (88, 103)
  | 5 => some (104, 111)
  | 6 => some (112, 119)
  | _ => none

/-- `n` rows from `a` as little-endian words. -/
def otpBytes (s : State) (a n : Nat) : Bytes := (List.range n).flatMap fun i => leBytes 4 (otpRow s (a + i))

/-- A static region is unprogrammed: every row reads zero (R284). -/
def otpBlank (s : State) (r : Nat) : Bool :=
  match otpRegion r with
  | some (a, b) => (List.range (b + 1 - a)).all fun i => otpRow s (a + i) == 0 && !s.boot.otpBad.contains (a + i)
  | none => false

/-- A static region that is not unprogrammed passes its CRC-32 and has no uncorrectable row (R283, R284). -/
def otpValid (s : State) (r : Nat) : Bool :=
  match otpRegion r with
  | some (a, b) => otpRow s b == crc32 (otpBytes s a (b - a)) &&
      (List.range (b + 1 - a)).all fun i => !s.boot.otpBad.contains (a + i)
  | none => false

/-- The value a burned row of a counter region holds (R285). -/
def counterMark (code i : Nat) : Nat := crc32 [BitVec.ofNat 8 code, 0, BitVec.ofNat 8 i, BitVec.ofNat 8 (i / 256)]

/-- Rows of a counter region of `n` rows from `a` that are not clear, by index. -/
def counterSet (s : State) (a n : Nat) : List Nat := (List.range n).filter fun i => otpRow s (a + i) != 0

/-- The counter value: 1 plus the highest index that is not clear, or 0 (R285). -/
def counterValue (s : State) (a n : Nat) : Nat := (counterSet s a n).foldl (fun m i => max m (i + 1)) 0

/-- A counter region holds an invalid row, a clear row below a row that is not clear, or an uncorrectable row (R285). -/
def counterBad (s : State) (code a n : Nat) : Bool :=
  (List.range (counterValue s a n)).any (fun i => otpRow s (a + i) != counterMark code i) ||
    (List.range n).any fun i => s.boot.otpBad.contains (a + i)

/-- The rollback counter (region 7). -/
def rollback (s : State) : Nat := counterValue s 128 128
/-- The recorder failure tally (region 8). -/
def tally (s : State) : Nat := counterValue s 256 64

/-- Tenant policy row 104, zero when the region fails or is unprogrammed (Table BOT.6). -/
def policy (s : State) : Nat := if otpValid s 5 then otpRow s 104 else 0

/-- The root secret can be used (R783). -/
def rootSecretOk (s : State) : Bool := otpValid s 4 && !otpBlank s 4
/-- The 48 bytes of the root secret, rows 88 to 99. -/
def rootSecret (s : State) : Bytes := otpBytes s 88 12

/-- Debug-lock row 112 (Table KEY.5). -/
def debugRow (s : State) : Nat := otpRow s 112
/-- The debug-lock region is in integrity failure. -/
def debugBad (s : State) : Bool := !otpBlank s 6 && !otpValid s 6

end Sys2Proof.Machine
end

