-- ==== Sys2Proof/Machine/Keys.lean ====
section
/-!
DEFINITION. The 0x0Axx commands and the end of retiring material (spec/15_keys_and_crypto.md).
-/
namespace Sys2Proof.Machine
open Sys2Proof

/-- Material length allowed for a kind (R812). -/
def keyLength (kind n : Nat) : Bool :=
  match kind with
  | 1 => n == 64
  | 2 => n == 32
  | 3 => n == 32
  | 4 => 16 ≤ n && n ≤ 64
  | 5 => n == 32
  | _ => false

/-- Payload of KEY_SLOT_CHANGED (R799): slot, kind, KEY_NAME, LOAD, origin, action. -/
def slotChanged (i kind name load origin action : Nat) : Bytes :=
  leBytes 1 i ++ leBytes 1 kind ++ leBytes 4 name ++ leBytes 2 load ++ leBytes 1 origin ++ leBytes 1 action

/-- The retiring material a slot leaves when it is rewritten or erased by a command (R796, R797). -/
def retire (k : KeySlot) (op : Nat) : Option Retiring :=
  if k.kind = 0 then none else some { material := k.material, load := k.load, users := k.ops, op }

/-- Load material into a slot (R788, R789, R795, R796, R799). -/
def loadSlot (op i kind : Nat) (material : Bytes) (users : Nat) (form : Bool) (name origin : Nat) (s : State) : State :=
  let n := nextLoad s
  let s1 := (s.updKeys fun k => { k with loads := n }).updKey i fun k =>
    { kind, material, users, formNonce := form, name, load := n, used := 0, worn := false, origin, ops := 0
      retiring := retire k op }
  raiseCrumb 106 0x0A80 2 0 (slotChanged i kind name n origin 1) s1

/-- A load answers OK into an EMPTY slot, and ACCEPTED into one that held material (R795). -/
def loadReply (i : Nat) (before after : State) : Reply :=
  if (before.key i).kind = 0 then .done St.ok [] after else .accept { key := i, waits := true } after

/-- The KDF of R781. -/
def kdf (key label context : Bytes) (bits : Nat) : Bytes :=
  let block (i : Nat) := Config.hmac384 key (beBytes 4 i ++ label ++ [0] ++ context ++ beBytes 4 bits)
  fit (bits / 8) (fit 48 (block 1) ++ fit 48 (block 2))

/-- XTS halves are equal (R787). -/
def xtsEqual (kind : Nat) (m : Bytes) : Bool := kind = 1 && m.take 32 == m.drop 32

/-- One entry of KEY_GET_INFO (Table KEY.7, R778, R813, R814). -/
def keyEntry (s : State) (t i : Nat) : Bytes :=
  let k := s.key i
  let b := if k.kind ≠ 0 ∧ keyNamed s t i then
      leBytes 1 i ++ leBytes 1 k.kind ++
        leBytes 1 (1 + 2 * b2n k.retiring.isSome + 4 * b2n k.worn + 8 * b2n k.formNonce + 16 * k.origin) ++
        leBytes 1 k.users ++ leBytes 4 k.name ++ leBytes 2 k.load ++ leBytes 2 (k.used / 2 ^ 32)
    else leBytes 1 i ++ zeros 11
  if t = 0 then b ++ leBytes 4 (if k.kind ≠ 0 then k.used else 0) else b

/-- 0x0A01 KEY_GET_INFO (R814). -/
def cmdKeyGetInfo : Cmd :=
  { op := 0x0A01, limited := always, len := exactly 4
    fields := fun _ t p => byteAt p 0 ≤ 15 && 1 ≤ byteAt p 1 && byteAt p 0 + byteAt p 1 ≤ 16 &&
      (t ≠ 0 || byteAt p 1 ≤ 15) && zeroAt p 2 2
    run := fun s t p => .done St.ok ((List.range (byteAt p 1)).flatMap fun i => keyEntry s t (byteAt p 0 + i)) s }

/-- The label begins with the bytes kept for the device (R782): "LQ7400". -/
def reservedLabel (l : Bytes) : Bool := l.take 6 == [0x4C, 0x51, 0x37, 0x34, 0x30, 0x30]

/-- 0x0A02 KEY_DERIVE (R781 to R783, R788, R795, R798). -/
def cmdKeyDerive : Cmd :=
  { op := 0x0A02, rights := byZero, len := exactly 108
    fields := fun _ _ p =>
      let ll := byteAt p 8
      let cl := byteAt p 9
      byteAt p 0 ≤ 15 && 1 ≤ byteAt p 1 && byteAt p 1 ≤ 5 && byteAt p 3 ≤ 1 && 1 ≤ ll && ll ≤ 32 && cl ≤ 64 &&
        zeroAt p 10 2 && zeroAt p (12 + ll) (32 - ll) && zeroAt p (44 + cl) (64 - cl) && !reservedLabel (slice p 12 ll)
    run := fun s _ p =>
      let i := byteAt p 0
      let kind := byteAt p 1
      if !rootSecretOk s then .done St.keyAbsent [] s
      else if 65535 ≤ s.keys.loads then .done St.quota [] s
      else if (s.key i).retiring.isSome then .done St.busy [] s
      else
        let m := kdf (rootSecret s) (slice p 12 (byteAt p 8)) (slice p 44 (byteAt p 9)) (if kind = 1 then 512 else 256)
        loadReply i s (loadSlot 0x0A02 i kind m (byteAt p 2) (byteAt p 3 = 1) (rd p 4 4) 1 s) }

/-- Load what KEY_IMPORT brings, unless its XTS halves are equal (R787). -/
def importLoad (p material : Bytes) (before s : State) : Reply :=
  let i := byteAt p 0
  if xtsEqual (byteAt p 1) material then .done St.badField [] s
  else loadReply i before (loadSlot 0x0A03 i (byteAt p 1) material (byteAt p 2) (byteAt p 3 / 2 = 1) (rd p 4 4) 2 s)

/-- KEY_IMPORT with WRAPPED set: unwrap the blob (R784, R785, R822). -/
def importWrapped (p : Bytes) (s : State) : Reply :=
  let w := byteAt p 12
  let a := yAddr (hIndex (rd p 8 4)) 0
  let h := loftRead s a 32
  let n := byteAt h 1
  let (st, _, s1) := keyStart 0 w 5 1 false s
  if st ≠ St.ok then .done st [] s1
  else
    let k := s1.key w
    let s2 := keyEnd w k.load s1
    if byteAt h 0 ≠ byteAt p 1 ∨ rd h 4 4 ≠ rd p 4 4 ∨ !keyLength (byteAt h 0) n then .done St.badField [] s2
    else
      match Config.gcmOpen k.material (slice h 8 12) h (loftRead s (a + 32) (n + 16)) with
      | none => .done St.badField []
          (crumb 0x0AA2 4 0 (anyPayload 0x0AA2 [byteAt p 0, byteAt p 1])
            (s2.updKeys fun k => { k with rejects := inc32 k.rejects }))
      | some m => importLoad p (fit n m) s s2

/-- 0x0A03 KEY_IMPORT (R785 to R788, R795, R798, R812). -/
def cmdKeyImport : Cmd :=
  { op := 0x0A03, rights := byZero, len := exactly 16
    fields := fun s _ p =>
      byteAt p 0 ≤ 15 && 1 ≤ byteAt p 1 && byteAt p 1 ≤ 5 && byteAt p 3 ≤ 3 && byteAt p 12 ≤ 15 &&
        keyLength (byteAt p 1) (byteAt p 13) && zeroAt p 14 2 && usable s 0 (rd p 8 4) &&
        !((byteAt p 3).testBit 0 && (byteAt p 1 = 5 || byteAt p 12 = byteAt p 0))
    run := fun s _ p =>
      let i := byteAt p 0
      let wrapped := (byteAt p 3).testBit 0
      let a := yAddr (hIndex (rd p 8 4)) 0
      if !wrapped && (debugRow s).testBit 2 then .done St.notPermitted [] s
      else if s.loft.poisoned a (if wrapped then 48 + byteAt p 13 else byteAt p 13) then .done St.loftPoison [] s
      else if 65535 ≤ s.keys.loads then .done St.quota [] s
      else if (s.key i).retiring.isSome then .done St.busy [] s
      else if wrapped then importWrapped p s
      else importLoad p (loftRead s a (byteAt p 13)) s s }

/-- 0x0A04 KEY_ERASE (R795 to R799, R813). -/
def cmdKeyErase : Cmd :=
  { op := 0x0A04, rights := byZero, len := exactly 4
    fields := fun _ _ p => byteAt p 0 ≤ 15 && zeroAt p 1 3
    run := fun s _ p =>
      let i := byteAt p 0
      let k := s.key i
      if k.kind = 0 then .done St.ok [] s
      else if k.retiring.isSome then .done St.busy [] s
      else .accept { key := i, waits := true }
        (raiseCrumb 106 0x0A80 2 0 (slotChanged i k.kind k.name k.load k.origin 2)
          (s.updKey i fun k => { retiring := retire k 0x0A04 })) }

/-- 0x0A05 KEY_SET_USERS (R800); an EMPTY slot has nothing to set (R813). -/
def cmdKeySetUsers : Cmd :=
  { op := 0x0A05, rights := byZero, len := exactly 4
    fields := fun _ _ p => byteAt p 0 ≤ 15 && byteAt p 2 ≤ 1 && zeroAt p 3 1
    run := fun s _ p =>
      .done St.ok [] (s.updKey (byteAt p 0) fun k =>
        if k.kind = 0 then k else { k with users := byteAt p 1, formNonce := byteAt p 2 = 1 }) }

/-- 0x0A06 KEY_WRAP (R784, R786, R787, R791 to R793). -/
def cmdKeyWrap : Cmd :=
  { op := 0x0A06, rights := byZero, len := exactly 16
    fields := fun s _ p =>
      byteAt p 0 ≤ 15 && 1 ≤ byteAt p 1 && byteAt p 1 ≤ 4 && keyLength (byteAt p 1) (byteAt p 2) && zeroAt p 3 1 &&
        usable s 0 (rd p 8 4) && usable s 0 (rd p 12 4)
    run := fun s _ p =>
      let w := byteAt p 0
      let n := byteAt p 2
      let a := yAddr (hIndex (rd p 8 4)) 0
      let m := loftRead s a n
      if (debugRow s).testBit 2 then .done St.notPermitted [] s
      else if s.loft.poisoned a n then .done St.loftPoison [] s
      else if xtsEqual (byteAt p 1) m then .done St.badField [] s
      else
        let (st, c, s1) := keyStart 0 w 5 1 true s
        if st ≠ St.ok then .done st [] s1
        else
          let k := s1.key w
          let iv := nonce s1.boot.epoch (keyCounter k.load c)
          let h := leBytes 1 (byteAt p 1) ++ leBytes 1 n ++ zeros 2 ++ slice p 4 4 ++ iv ++ zeros 12
          .done St.ok [] (loftWrite (yAddr (hIndex (rd p 12 4)) 0)
            (h ++ fit (n + 16) (Config.gcmSeal k.material iv h m)) (keyEnd w k.load s1)) }

/-- Claims that always stand: islands 1 to 4 and 12 (R804). -/
def claimsFixed : Nat := 0x80F

/-- 0x0A07 KEY_CLAIM_SET (R804). -/
def cmdKeyClaimSet : Cmd :=
  { op := 0x0A07, rights := byZero, len := exactly 4, fields := fun _ _ p => zeroAt p 2 2
    run := fun s _ p => .done St.ok [] (s.updKeys fun k => { k with claims := rd p 0 2 ||| claimsFixed }) }

/-- Boundary scan becomes unlocked (R808). -/
def unlockScan (s : State) : State :=
  if s.keys.unlocked then s
  else raiseCrumb 110 0x0AA4 3 0 (anyPayload 0x0AA4 []) (s.updKeys fun k => { k with unlocked := true })

/-- 0x0A08 KEY_DEBUG_UNLOCK (R807, R808). -/
def cmdKeyDebugUnlock : Cmd :=
  { op := 0x0A08, rights := byZero
    run := fun s _ _ =>
      if (debugRow s).testBit 0 && (debugRow s).testBit 1 && otpValid s 6 then .done St.ok [] (unlockScan s)
      else .done St.notPermitted [] s }

/-- 0x0A09 KEY_GET_STATUS (Table KEY.6). -/
def cmdKeyGetStatus : Cmd :=
  { op := 0x0A09, rights := byZero
    run := fun s _ _ =>
      .done St.ok (leBytes 1 s.boot.epochState ++ leBytes 1 (b2n s.keys.unlocked + 2 * b2n s.keys.scan) ++
        leBytes 2 s.keys.claims ++ leBytes 2 (nextLoad s) ++ zeros 2 ++ leBytes 4 s.keys.denials ++
        leBytes 4 s.keys.rejects) s }

/-- KEY_GET_INFO. -/
def execKeyGetInfo (c : Call) (s : State) : Res := command cmdKeyGetInfo c s
/-- KEY_DERIVE. -/
def execKeyDerive (c : Call) (s : State) : Res := command cmdKeyDerive c s
/-- KEY_IMPORT. -/
def execKeyImport (c : Call) (s : State) : Res := command cmdKeyImport c s
/-- KEY_ERASE. -/
def execKeyErase (c : Call) (s : State) : Res := command cmdKeyErase c s
/-- KEY_SET_USERS. -/
def execKeySetUsers (c : Call) (s : State) : Res := command cmdKeySetUsers c s
/-- KEY_WRAP. -/
def execKeyWrap (c : Call) (s : State) : Res := command cmdKeyWrap c s
/-- KEY_CLAIM_SET. -/
def execKeyClaimSet (c : Call) (s : State) : Res := command cmdKeyClaimSet c s
/-- KEY_DEBUG_UNLOCK. -/
def execKeyDebugUnlock (c : Call) (s : State) : Res := command cmdKeyDebugUnlock c s
/-- KEY_GET_STATUS. -/
def execKeyGetStatus (c : Call) (s : State) : Res := command cmdKeyGetStatus c s

/-- Retiring material is zeroised, recorded, and its command completes (R797, R799). -/
def zeroiseRetiring (i : Nat) (s : State) : State :=
  match (s.key i).retiring with
  | none => s
  | some r =>
    finish r.op i St.ok [] (crumb 0x0A80 2 0 (slotChanged i (s.key i).kind (s.key i).name r.load (s.key i).origin 3)
      (s.updKey i fun k => { k with retiring := none }))

/-- RETIRING_ZEROISE: no operation uses the retiring material any more (R797). -/
def execRetiringZeroise (i : Fin 16) (s : State) : Res :=
  s.running fun s =>
    match (s.key i).retiring with
    | some r => if r.users = 0 then zeroiseRetiring i s else s
    | none => s

/-- Every slot, retiring material included, is zeroised; pending rewrites and erases complete OK (R809, R821, R1004). -/
def zeroiseAll (s : State) : State :=
  let s1 := (List.range 16).foldl (fun s i => zeroiseRetiring i s) s
  s1.updKeys fun k => { k with slot := Vector.replicate 16 {} }

/-- A gating request against a claimed island (R802, R803): counted, and recorded at most once per second per tenant. -/
def claimDenied (t op isl : Nat) (s : State) : State :=
  let s1 := s.updKeys fun k => { k with denials := inc32 k.denials }
  let told : Bool := match vat s.keys.deniedAt t with
    | some x => decide (s.up < x + 1000000)
    | none => false
  if told then s1
  else crumb 0x0AA3 3 t (anyPayload 0x0AA3 [t, op, isl]) (s1.updKeys fun k => { k with deniedAt := vset k.deniedAt t (some s.up) })

/-- An island is claimed against a tenant (R803, R805). -/
def claimed (s : State) (t isl : Nat) : Bool := t ≠ 0 && s.keys.claims.testBit (isl - 1)

end Sys2Proof.Machine
end

