-- ==== Sys2Proof/Machine/Format.lean ====
section
/-!
DEFINITION. The disk format: sectors per track, the LBA map, the calibration record's values and the sector stamp
(spec/11_read_channel_and_servo.md, R548 to R563, R583, R585; spec/12_disk_queue_and_recording.md, R632 to R636).
-/
namespace Sys2Proof.Machine
open Sys2Proof

/-- Change the channel and servo islands. -/
def State.updChn (s : State) (f : Channel → Channel) : State := { s with channel := f s.channel }
/-- Change the disk queue and the recording service. -/
def State.updDsk (s : State) (f : DiskQ → DiskQ) : State := { s with diskq := f s.diskq }
/-- Change channel A. -/
def State.updA (s : State) (f : MotA → MotA) : State := { s with motor := { s.motor with a := f s.motor.a } }
/-- Change channel B. -/
def State.updB (s : State) (f : MotB → MotB) : State := { s with motor := { s.motor with b := f s.motor.b } }

/-! ### The setup from its commands (Tables CHN.1, CHN.2) -/

/-- CHN_HDA_SET's payload sets the geometry. -/
def setHda (p : Bytes) (f : Format) : Format :=
  { f with
      hda := p, heads := byteAt p 0, autoLoad := byteAt p 1 % 2 == 1, wedges := rd p 2 2, nZones := byteAt p 7
      cylinders := rd p 8 4, raCyl := rd p 12 2, raSectors := rd p 40 4, writeLimit := byteAt p 14, verifyIter := byteAt p 15
      readRetries := byteAt p 16, verifyRetries := byteAt p 17, loopBw := rd p 26 2, defectHigh := byteAt p 28
      paHeadReg := byteAt p 30, paHeadShift := byteAt p 31, paModeReg := byteAt p 32, paModes := slice p 33 4
      paFaultReg := byteAt p 37 }

/-- CHN_ZONE_SET's payload sets one zone. -/
def setZone (p : Bytes) (f : Format) : Format :=
  { f with zones := mset f.zones (byteAt p 0) { first := rd p 4 4, rate := rd p 8 2, spare := rd p 10 2 } }

/-! ### Tracks and zones (R560 to R563) -/

/-- Servo bits of a wedge field (Table CHN.4). -/
def wedgeBits (burst : Nat) : Nat := 152 + 4 * burst

/-- The time of one data gap between the guards of two wedges, in ps at 120 rev/s (R556, R560). -/
def gapPs (f : Format) : Nat :=
  1000000000000 / (120 * f.wedges) - wedgeBits (byteAt f.hda 6) * 1000000 / max 1 (rd f.hda 4 2) - 200000

/-- Channel bits of one data gap at a rate in Mbit/s. -/
def gapBits (f : Format) (rate : Nat) : Nat := gapPs f * rate / 1000000

/-- Sectors of a track: gaps still to fill, bits left of the sector being placed, whether it is split, sectors placed
(R562). A fragment after a wedge begins with 96 bits of resync. -/
def placeSectors (g : Nat) : Nat → Nat → Bool → Nat → Nat
  | 0, _, _, n => n
  | gaps + 1, left, split, n =>
    let a := if split then g - 96 else g
    if a < left then placeSectors g gaps (left - a) (split || a != 0) n
    else
      let r := (a - left) % 35840
      placeSectors g gaps (35840 - r) (r != 0) (n + 1 + (a - left) / 35840)

/-- Whole sectors of a track at a rate (R562). -/
def sectorsPerTrack (f : Format) (rate : Nat) : Nat := placeSectors (gapBits f rate) f.wedges 35840 false 0

/-- Zone `z`. -/
def Format.zone (f : Format) (z : Nat) : Zone := mgetD f.zones z {}

/-- The first cylinder above zone `z`. -/
def Format.zoneEnd (f : Format) (z : Nat) : Nat := if z + 1 < f.nZones then (f.zone (z + 1)).first else f.cylinders

/-- Cylinders of zone `z`. -/
def Format.zoneCyls (f : Format) (z : Nat) : Nat := f.zoneEnd z - (f.zone z).first

/-- Sectors per track of zone `z`. -/
def Format.spt (f : Format) (z : Nat) : Nat := sectorsPerTrack f (f.zone z).rate

/-- Tracks of zone `z` that hold LBAs: spare cylinders and the reserved area's tracks are skipped (R563). -/
def Format.dataTracks (f : Format) (z : Nat) : Nat :=
  (f.zoneCyls z - (f.zone z).spare) * f.heads - if z = 0 then f.raCyl else 0

/-- LBAs of zone `z`. -/
def Format.zoneLbas (f : Format) (z : Nat) : Nat := f.dataTracks z * f.spt z

/-- Number of LBAs, P-list defects skipped (R563). -/
def lbaCount (f : Format) (defects : List Defect) : Nat :=
  ((List.range f.nZones).map f.zoneLbas).sum - (defects.filter fun d => d.kind = 1).length

/-- Spare sectors of the format. -/
def spareCount (f : Format) : Nat := ((List.range f.nZones).map fun z => (f.zone z).spare * f.heads * f.spt z).sum

/-- The zone that holds a cylinder. -/
def Format.zoneOf (f : Format) (cyl : Nat) : Nat :=
  (List.range f.nZones).foldl (fun z i => if (f.zone i).first ≤ cyl then i else z) 0

/-- Where an LBA lies: zone, cylinder, head, sector in track (R563). -/
def Format.locate (f : Format) : Nat → Nat → Nat → Nat × Nat × Nat × Nat
  | 0, z, _ => (z, 0, 0, 0)
  | fuel + 1, z, o =>
    if z + 1 < f.nZones ∧ f.zoneLbas z ≤ o then f.locate fuel (z + 1) (o - f.zoneLbas z)
    else
      let n := max 1 (f.spt z)
      let t := o / n
      let sec := o % n
      if z = 0 ∧ t < f.raCyl * (f.heads - 1) then (z, t / max 1 (f.heads - 1), 1 + t % max 1 (f.heads - 1), sec)
      else
        let t' := if z = 0 then t + f.raCyl else t
        (z, (f.zone z).first + t' / max 1 f.heads, t' % max 1 f.heads, sec)

/-- The location of an LBA. -/
def locateLba (f : Format) (lba : Nat) : Nat × Nat × Nat × Nat := f.locate f.nZones 0 lba

/-- R550: the setup cannot be committed. -/
def formatBad (f : Format) : Bool :=
  let zs := List.range f.nZones
  f.hda.isEmpty || f.nZones == 0 || zs.any (fun z => (mget f.zones z).isNone) || (f.zone 0).first != 0 ||
    zs.any (fun z => f.zoneEnd z ≤ (f.zone z).first) ||
    decide (f.zoneCyls 0 < f.raCyl) || decide (f.raCyl * f.spt 0 < f.raSectors) ||
    zs.any (fun z => f.zoneCyls z < 2 * (f.zone z).spare) || zs.any (fun z => f.spt z == 0) ||
    decide (120 * f.wedges < 20 * f.loopBw)

/-! ### Calibration (R549, R573, R583, R585) -/

/-- A place of the calibration record: head, zone, end. -/
def place (head zone e : Nat) : Nat := (head * 32 + zone) * 2 + e

/-- Linear interpolation between two values at two cylinders. -/
def interpolate (a b : Int) (c0 c1 c : Nat) : Int :=
  if c1 ≤ c0 then a else a + (b - a) * ((c : Int) - c0) / ((c1 : Int) - c0)

/-- JOG of a head at a cylinder (R571, R585). -/
def jogAt (s : State) (head cyl : Nat) : Int :=
  match s.channel.format with
  | none => 0
  | some f =>
    let z := f.zoneOf cyl
    let v (e : Nat) : Int := ((mget s.channel.cal.jog (place head z e)).map (·.1)).getD 0
    interpolate (v 0) (v 1) (f.zone z).first (f.zoneEnd z - 1) cyl

/-- The calibration record is complete (R549, R582, R585). -/
def calComplete (s : State) : Bool :=
  match s.channel.format with
  | none => false
  | some f =>
    let c := s.channel.cal
    let heads := List.range f.heads
    let zones := List.range f.nZones
    heads.all (fun h => (mget c.skew h).isSome && zones.all fun z => [0, 1].all fun e =>
        ((mget c.jog (place h z e)).any fun v => decide (v.2.natAbs ≤ 123)) && (mget c.verifyDelay (place h z e)).isSome) &&
      c.unloadMs.any (· ≤ 25)

/-! ### The stamp (Table DSK.6, R632 to R636) -/

/-- Stamp bytes 0 to 37, VERIFIED zero. -/
def Stamp.head38 (x : Stamp) : Bytes :=
  x.time.bytes ++ leBytes 1 (x.time.frac / 256) ++ leBytes 1 x.quality ++ leBytes 1 x.tenant ++ leBytes 1 x.flags ++
    leBytes 2 x.channel ++ leBytes 4 x.seq ++ leBytes 6 x.lba ++ leBytes 4 x.epoch ++ leBytes 8 x.counter

/-- Stamp bytes 0 to 49. -/
def Stamp.head50 (x : Stamp) : Bytes := x.head38 ++ fit 12 x.sealTag

/-- The 64 bytes, delivered with VERIFIED when the sector was good (R636). -/
def Stamp.bytes (x : Stamp) (good : Bool) : Bytes :=
  let b := x.head50 ++ leBytes 4 x.crc ++ zeros 10
  if good then b.take 13 ++ leBytes 1 (x.flags ||| 16) ++ b.drop 14 else b

/-- The class is T: full TAI (Table TIM.1). -/
def classT (c : Nat) : Bool := 1 ≤ c && c ≤ 3

/-- SOURCE of TIME_STATE (Table TIM.8): 7 while the time is what TIME_SET set, else the selected reference (R110; log entry
173). -/
def timeSource (b : Timebase) : Nat := if b.setByCmd && !classT b.selected then 7 else b.selected

/-- QUALITY of a write time taken by the channel island (Table DSK.6, R87). -/
def stampQuality (s : State) : Nat :=
  let b := s.timebase
  timeSource b + 8 * b2n (b.dpll = .holdover) + 16 * b2n b.valid +
    32 * b2n (!(vat b.cal 12).valid)

end Sys2Proof.Machine
end

