-- ==== Sys2Proof/Machine/DiskOps.lean ====
section
/-!
DEFINITION. Shared operations of the disk queue: the status of a command, its completion and its abort, the writing and
reading of one sector, relocation (spec/12_disk_queue_and_recording.md; R586 to R593 of
spec/11_read_channel_and_servo.md).
-/
namespace Sys2Proof.Machine
open Sys2Proof

/-- Change the disk command of an admission. -/
def State.updCmd (s : State) (id : Nat) (f : DiskCmd → DiskCmd) : State :=
  s.updDsk fun d => { d with cmds := d.cmds.map fun c => if c.id = id then f c else c }

/-- The disk command of an admission. -/
def findCmd (s : State) (id : Nat) : Option DiskCmd := s.diskq.cmds.find? fun c => c.id == id

/-- Rank of a status by the rows of Table DSK.4; the first row that applies counts (R625). -/
def dskRank (st : Nat) : Nat :=
  if st = St.notReady then 1
  else if st = St.wrongMode then 2
  else if st = St.loftPoison then 3
  else if st = St.verifyFailed then 4
  else 5

/-- The status that counts of two (R625). -/
def dskWorse (a : Option Nat) (b : Nat) : Option Nat :=
  match a with
  | none => some b
  | some x => some (if dskRank b < dskRank x then b else x)

/-- Poison the granules of a byte range that hold data (R147, R628). -/
def poisonRange (a n : Nat) (s : State) : State :=
  s.updLoft fun l => { l with poison := (granules a n).foldl setIns l.poison, written := (granules a n).foldl setIns l.written }

/-- Set bit `b` in a number. -/
def orBit (v b : Nat) : Nat := v ||| 2 ^ b

/-- The sectors of a command that are neither done nor delivered (R628). -/
def undelivered (c : DiskCmd) : List Nat :=
  (List.range c.count).filter fun i => !c.done.contains i && !c.delivered.contains i

/-- A failed read poisons the yealms of the sectors it did not deliver good (R628). -/
def poisonUndelivered (c : DiskCmd) (s : State) : State :=
  if c.cls ≠ 0x20 then s
  else (undelivered c).foldl (fun s i => poisonRange (yAddr (hIndex (c.handles.getD i 0)) 0) 4096 s) s

/-- RESULT of a disk completion (R626). -/
def diskResult (c : DiskCmd) : Bytes :=
  let low := match (List.range c.count).find? fun i => !c.done.contains i with
    | some i => c.lba + i
    | none => 0xFFFFFFFFFFFF
  leBytes 6 low ++ leBytes 2 (min 65535 c.retries)

/-- A command leaves: its tag, lock entry, pins and key uses are released; its completion is written unless its tenant
was reset (R613, R617, R625, R629). While PFAIL is latched it waits: no completion is written (R631, R997). -/
def endCmd (c : DiskCmd) (s : State) : State :=
  if s.supply.pfail then s.updCmd c.id fun _ => { c with abort := some (c.abort.getD St.notReady), onMedium := none }
  else
  let st := (match c.abort with
    | some a => dskWorse c.fail a
    | none => c.fail).getD St.ok
  let s1 := s.updDsk fun d => { d with cmds := d.cmds.filter fun x => x.id ≠ c.id }
  let s2 := if st = St.ok then s1 else poisonUndelivered c s1
  let s3 := if c.sealLoad ≠ 0 then keyEnd c.sealSlot c.sealLoad s2 else s2
  let s4 := unpinAll c.pins (if c.xtsLoad ≠ 0 then keyEnd c.xtsSlot c.xtsLoad s3 else s3)
  completeSub c.ring c.cls st c.tag c.done.length c.cflags (diskResult c) s4

/-- Every sector of a command is settled, or its abort waits for nothing (R624, R629). -/
def cmdOver (c : DiskCmd) : Bool :=
  if c.abort.isSome then c.onMedium.isNone else c.count ≤ c.done.length + c.failed.length

/-- Abort a command: one with no sector on the medium ends at once, another once that sector's verify has ended (R629). -/
def abortCmd (status : Nat) (s : State) (id : Nat) : State :=
  match findCmd s id with
  | none => s
  | some c =>
    let c1 := { c with abort := some (c.abort.getD status) }
    if cmdOver c1 then endCmd c1 s else s.updCmd id fun _ => c1

/-- Abort every command in flight (R629). -/
def abortAll (status : Nat) (s : State) : State := (s.diskq.cmds.map (·.id)).foldl (abortCmd status) s

/-- End every command in flight at once, without a further verify (R630). -/
def endAll (status : Nat) (s : State) : State :=
  (s.diskq.cmds.map (·.id)).foldl (fun s id =>
    match findCmd s id with
    | some c => endCmd { c with abort := some status, onMedium := none } s
    | none => s) s

/-! ### Sectors (R586, R587, R610, R632 to R636) -/

/-- The stamp of one write attempt; its seal is formed with material, load and invocation when it is sealed (R633 to
R635). -/
def makeStamp (s : State) (t : Time) (tenant flags channel seq lba : Nat) (sealWith : Option (Bytes × Nat × Nat))
    (data : Bytes) : Stamp :=
  let x : Stamp :=
    { time := t, quality := stampQuality s, tenant, flags := flags + 8 * b2n sealWith.isSome, channel, seq, lba, epoch := s.boot.epoch
      counter := match sealWith with
        | some (_, l, n) => keyCounter l n
        | none => s.diskq.writeCount + 1 }
  let y := match sealWith with
    | some (m, l, n) => { x with sealTag := fit 12 (Config.gmac m (nonce s.boot.epoch (keyCounter l n)) (data ++ x.head38)) }
    | none => x
  { y with crc := crc32c (data ++ y.head50) }

/-- One write attempt of a sector on the medium; one that is not verified may be read old or new (R627, R633). -/
def putSector (lba : Nat) (data : Bytes) (x : Stamp) (verified : Bool) (s : State) : State :=
  let old := mget s.channel.medium lba
  let keep : Option (Bytes × Stamp) :=
    if verified then none
    else match old with
      | some o => if o.verified then some (o.data, o.stamp) else o.prior
      | none => none
  (s.updChn fun c => { c with medium := mset c.medium lba { data, stamp := x, verified, prior := keep } }).updDsk fun d =>
    { d with writeCount := d.writeCount + 1 }

/-- A stamp read from 64 bytes. -/
def rdStamp (b : Bytes) : Stamp :=
  { time := { rdTime b 0 with frac := byteAt b 10 * 256 }, quality := byteAt b 11, tenant := byteAt b 12, flags := byteAt b 13
    channel := rd b 14 2, seq := rd b 16 4, lba := rd b 20 6, epoch := rd b 26 4, counter := rd b 30 8, sealTag := slice b 38 12
    crc := rd b 50 4 }

/-- What a read of a sector finds: a verified sector's content; of an unverified one its old or its new content, which is
open (R627); of one never written the medium's (log entry 19). -/
def getSector (lba : Nat) (s : State) : Bytes × Stamp :=
  match mget s.channel.medium lba with
  | some x =>
    if x.verified then (x.data, x.stamp)
    else if s.draw 1 % 2 = 0 then (x.data, x.stamp)
    else x.prior.getD (fit 4096 (Config.mediumData lba), rdStamp (fit 64 (Config.mediumStamp lba)))
  | none => (fit 4096 (Config.mediumData lba), rdStamp (fit 64 (Config.mediumStamp lba)))

/-- The tweak of a sector (R610). -/
def xtsTweak (lba : Nat) : Bytes := leBytes 16 lba

/-- Spares used have reached DEFECT_HIGH percent of all: source 87 and DEFECTS_HIGH, once (R593). -/
def defectsHigh (s : State) : State :=
  let c := s.channel
  let pct := (c.format.map (·.defectHigh)).getD 75
  if !c.defectsHigh && c.sparesAll != 0 && decide (pct * c.sparesAll ≤ 100 * (c.sparesAll - c.sparesFree)) then
    crumbOf 13 87 0x04A6 3 0 (anyPayload 0x04A6 [c.sparesFree, c.sparesAll])
      (raiseSrc 87 (s.updChn fun c => { c with defectsHigh := true }))
  else s

/-- A sector's data now lies on a spare: G-list entry, RELOCATED, and the count of spares (R587, R591 to R593, R602). -/
def relocated (lba : Nat) (s : State) : State :=
  let (_, cyl, head, sec) := match s.channel.format with
    | some f => locateLba f lba
    | none => (0, 0, 0, 0)
  let again := s.channel.defects.any fun d => d.lba = lba && d.kind = 2
  let d : Defect := if again then { lba := 0xFFFFFFFFFFFF, kind := 2 } else { head, cyl, sector := sec, lba, kind := 2 }
  defectsHigh (crumbOf 13 0x0104 0x04A4 2 0 (anyPayload 0x04A4 [lba])
    (s.updChn fun c => { c with defects := c.defects ++ [d], sparesFree := c.sparesFree - 1 }))

/-- A verify failed: counted; the first failure of a sector raises source 83 (R587). -/
def verifyFailed (first : Bool) (s : State) : State :=
  let s1 := s.updChn fun c => { c with verifyFails := inc32 c.verifyFails }
  if first then raiseSrc 83 s1 else s1

/-- VERIFY_RETRIES and READ_RETRIES of the setup in force. -/
def verifyRetries (s : State) : Nat := (s.channel.format.map (·.verifyRetries)).getD 1
/-- READ_RETRIES. -/
def readRetries (s : State) : Nat := (s.channel.format.map (·.readRetries)).getD 8

/-- One use of a load more is counted (Table KEY.3: counted as used). -/
def keyCount (i load : Nat) (s : State) : State :=
  s.updKey i fun k => if k.load = load then { k with used := k.used + 1 } else k

end Sys2Proof.Machine
end

