-- ==== Sys2Proof/Machine/DriveOps.lean ====
section
/-!
DEFINITION. Shared operations of the spindle, the blower, and the heads: changes of spindle state, starts, stops, faults,
brakes (spec/10_spindle_and_aux_motor.md), loading, unloading and parking the heads, seeks and the preamp
(spec/11_read_channel_and_servo.md).
-/
namespace Sys2Proof.Machine
open Sys2Proof

/-! ### Channel A (R501, R511 to R515, R523) -/

/-- Channel A enters a state; each change raises source 80 (R501). -/
def spinTo (st : SpinState) (s : State) : State :=
  if s.motor.a.state = st then s
  else raiseSrc 80 (s.updA fun a => { a with state := st, goodRevs := 0, badRevs := 0 })

/-- Log a commutation step of channel A or B: 1 to 6, 0 all floating, 7 all low sides on (R491). -/
def driveStep (ch step : Nat) (s : State) : State := s.emit (.motorStep ch step)

/-- The heads are on the medium or moving: unloading is not done. -/
def headsLoaded (s : State) : Bool :=
  match s.channel.state with
  | .loading | .tracking | .seeking | .unloading => true
  | _ => false

/-- MOT_A_START's and MOT_A_STOP's tokens end (R524, R541). -/
def finishStart (status : Nat) (s : State) : State := finishAll 0x0802 0 status s
/-- MOT_A_STOP's tokens end. -/
def finishStop (status : Nat) (s : State) : State := finishAll 0x0803 0 status s

/-- BRAKE is applied from an emergency or after HARVEST: source 95 (R515, R518). -/
def emergencyBrake (s : State) : State :=
  raiseSrc 95 (driveStep 0 7 ((spinTo .brake s).updA fun a => { a with emergency := true, stopWait := false }))

/-- The brake of a motor in FAULT (R523). -/
def faultBrake (s : State) : State :=
  raiseSrc 95 (driveStep 0 7 (s.updA fun a => { a with faultBrake := true, stopWait := false }))

/-- DECEL begins: regenerative braking (R511, R512). -/
def decelA (s : State) : State :=
  (spinTo .decel s).updA fun a => { a with regen := false, regenTold := false, clamp := false, stopWait := false, emergency := false }

/-- What channel A does once the heads are parked: the stop, emergency stop or fault brake that waited (R511, R515,
R523). -/
def afterPark (s : State) : State :=
  if !s.motor.a.stopWait then s
  else if s.motor.a.state = .fault then faultBrake s
  else if s.motor.a.emergency then emergencyBrake s
  else decelA s

/-! ### Heads (R578 to R581, R601) -/

/-- A preamp frame is sent: READ, register, data (R551). -/
def paFrame (read : Bool) (reg data : Nat) (s : State) : State :=
  (s.emit (.preamp (b2n read * 2 ^ 15 + reg % 128 * 256 + data % 256))).updChn fun c =>
    if read then c else { c with paRegs := mset c.paRegs (reg % 128) (data % 256) }

/-- The preamp's mode changes: PA_MODE_REG is written, never while PA_WG is high (R553). -/
def paMode (m : Nat) (s : State) : State :=
  if s.channel.paMode = m ∨ s.channel.wg then s
  else match s.channel.format with
    | some f => (paFrame false f.paModeReg (byteAt f.paModes m) s).updChn fun c => { c with paMode := m }
    | none => s.updChn fun c => { c with paMode := m }

/-- Close every gate of the channel (R331, R559, R600). -/
def closeGates (s : State) : State := s.updChn fun c => { c with wg := false, gates := (false, false, false), writeOk := false }

/-- The servo no longer gives an index: a LOCKED or PULL_IN spindle holds its frequency in AT_SPEED (R508). -/
def indexLost (s : State) : State :=
  let s1 := s.updA fun a => { a with indexSeen := false }
  if s.motor.a.state = .locked ∨ s.motor.a.state = .pullIn then spinTo .atSpeed s1 else s1

/-- The heads start towards the park: by the unload profile, or blind without servo (R518, R574, R580). -/
def startUnload (s : State) : State :=
  if !headsLoaded s then s
  else if s.channel.state = .unloading then s
  else
    let blind := !s.channel.servoValid
    let s1 := closeGates (if s.channel.loadRetry then s else finishAll 0x0484 1 St.notReady s)
    indexLost ((s1.emit (.vcm (if blind then 2 else 1) 0)).updChn fun c =>
      { c with state := .unloading, blind := blind, searching := false, servoValid := false, loadSeek := false, onRead := 0, onWrite := 0 })

/-- Unload when no disk command is in flight any more (R629). -/
def unloadWhenIdle (s : State) : State :=
  if s.diskq.cmds.isEmpty then startUnload (s.updChn fun c => { c with parkWanted := false })
  else s.updChn fun c => { c with parkWanted := true }

/-- An abort has ended: an unload that waited for it starts (R629). -/
def unloadIfWaiting (s : State) : State := if s.channel.parkWanted then unloadWhenIdle s else s

/-- Channel A's state allows a load (R578). -/
def loadable (s : State) : Bool :=
  s.supply.mode = .run && s.supply.isl.channel && s.supply.isl.servo && s.channel.format.isSome && s.channel.state = .unloaded && s.supply.change.isNone && !s.supply.pfail &&
    (s.motor.a.state = .atSpeed || s.motor.a.state = .pullIn || s.motor.a.state = .locked) && !s.motor.a.stopWait

/-- A load starts (R578). -/
def startLoad (s : State) : State :=
  (paMode 1 (s.emit (.vcm 3 0))).updChn fun c =>
    { c with state := .loading, searching := true, servoValid := false, missedRun := 0, headMismatch := 0, searchRun := 0, blind := false, loadSeek := false, loadTries := 0 }

/-- With AUTO_LOAD set a load starts when disk work needs the medium (R578). -/
def autoLoad (s : State) : State :=
  if loadable s && !s.diskq.cmds.isEmpty && (s.channel.format.map (·.autoLoad)).getD false then startLoad s else s

/-- A head is selected: its frame is written (R553), and the switch is a seek to the same cylinder (R577). -/
def selectHead (h : Nat) (s : State) : State :=
  let s1 := match s.channel.format with
    | some f => if s.channel.wg then s else paFrame false f.paHeadReg (h * 2 ^ f.paHeadShift) s
    | none => s
  s1.updChn fun c => { c with head := h, onRead := 0, onWrite := 0, writeOk := false, headMismatch := 0
                              state := if c.state = .tracking then .seeking else c.state }

/-- A seek starts (R575). -/
def startSeek (cyl : Nat) (s : State) : State :=
  (s.emit (.vcm 0 cyl)).updChn fun c =>
    { c with target := cyl, onRead := 0, onWrite := 0, writeOk := false, seekTries := 0
             state := if c.state = .tracking ∨ c.state = .loading then .seeking else c.state }

/-- The first cylinder after the reserved area. -/
def homeCyl (s : State) : Nat := (s.channel.format.map (·.raCyl)).getD 0

/-- The channel enters FAULT, its heads parked first; commands in flight end NOT_READY (Table DSK.4, R554). -/
def channelFault (s : State) : State :=
  let s1 := endAll St.notReady s
  if headsLoaded s1 then startUnload (s1.updChn fun c => { c with faultNext := true, loadRetry := false })
  else s1.updChn fun c => { c with state := .fault }

/-- Servo is lost (R574, R600). -/
def servoLost (s : State) : State :=
  let s1 := closeGates (s.updChn fun c =>
    { c with searching := true, servoValid := false, searchRun := 0, missedRun := 0, headMismatch := 0, onRead := 0, onWrite := 0 })
  indexLost (crumbOf 14 81 0x04A0 4 0 (anyPayload 0x04A0 [s.channel.cyl, s.channel.target, s.channel.head]) (raiseSrc 81 s1))

/-- The sectors whose write servo loss cut short are reported as not written when the heads retract (R600; log entry 176). -/
def notWritten (s : State) : State :=
  s.updDsk fun d => { d with cmds := d.cmds.map fun c =>
    match c.onMedium with
    | some i =>
      if c.cls = 0x21 then { c with onMedium := none, failed := i :: c.failed, fail := dskWorse c.fail St.mediumError } else c
    | none => c }

/-- The heads reach the park: source 85, SLEEP; then what waited for it (R579 to R581, R600, R601); work that waits loads
them again with AUTO_LOAD (R578). -/
def headsParked (s : State) : State :=
  let c := s.channel
  let next : ChnState := if c.faultNext then .fault else .unloaded
  let s1 := raiseSrc 85 (paMode 3 (s.updChn fun c =>
    { c with state := next, faultNext := false, blind := false, searching := false, loadRetry := false }))
  let s2 := afterPark (finishAll 0x0484 0 St.ok s1)
  if c.loadRetry && loadable s2 then (startLoad s2).updChn fun c => { c with loadTries := 1 }
  else
    let s3 := finishAll 0x0484 1 St.notReady (if c.blind then notWritten s2 else s2)
    if s.supply.tripping then s3 else autoLoad s3

/-! ### Starting, stopping and faults of channel A -/

/-- A start of channel A: align on step 6 (R495, R498). -/
def startA (s : State) : State :=
  driveStep 0 6 ((spinTo .align s).updA fun a =>
    { a with step := 6, crossings := 0, crossed := false, attempts := 0, retryWait := false, starts := inc16 a.starts, startAt := s.up
             faultBrake := false, stopWait := false, emergency := false, cause := 0, clamp := false, regen := false
             autoWait := false })

/-- Channel A is STOPPED: stops complete OK (R514, R538). -/
def stoppedA (s : State) : State :=
  finishStop St.ok (driveStep 0 0 ((spinTo .stopped s).updA fun a =>
    { a with emergency := false, stopWait := false, faultBrake := false, clamp := false, regen := false, speed := 0, indexSeen := false, guardBrake := false }))

/-- A controlled stop (R511, R537, R538): the heads are unloaded first. -/
def controlledStop (s : State) : State :=
  match s.motor.a.state with
  | .stopped => finishStop St.ok s
  | .align | .ramp => stoppedA (finishStart St.notReady s)
  | .decel | .brake | .harvest => s
  | .fault => finishStop St.notReady s
  | _ =>
    let s1 := finishStart St.notReady s
    if headsLoaded s1 then startUnload (s1.updA fun a => { a with stopWait := true, emergency := a.emergency && a.stopWait })
    else decelA s1

/-- An emergency stop (R515, R537, R538): retract, then BRAKE from whatever speed. -/
def emergencyStop (s : State) : State :=
  match s.motor.a.state with
  | .stopped => finishStop St.ok s
  | .align | .ramp => stoppedA (finishStart St.notReady s)
  | .brake | .harvest => s
  | .fault => finishStop St.notReady s
  | _ =>
    let s1 := finishStart St.notReady s
    if headsLoaded s1 then startUnload (s1.updA fun a => { a with stopWait := true, emergency := true })
    else emergencyBrake s1

/-- Channel A enters FAULT with a cause (R523, R524): the heads retract, then the brake on the floating motor. -/
def faultA (cause : Nat) (s : State) : State :=
  let s1 := finishStop St.notReady (finishStart St.notReady (driveStep 0 0 (s.updA fun a => { a with autoWait := false })))
  let s2 := indexLost ((spinTo .fault s1).updA fun a => { a with cause := cause, stopWait := true, emergency := true, clamp := false })
  let s3 := spinTo .fault s2
  if headsLoaded s3 then startUnload s3 else faultBrake s3

/-! ### Channel B (R490, R526 to R531) -/

/-- The gate levels of channel B: UH, UL, VH, VL, WH, WL. -/
def gatesB (l : List Bool) (s : State) : State :=
  s.updB fun b => { b with gates := Vector.ofFn fun (i : Fin 6) => l.getD i.val false }

/-- Gate levels of a commutation step: +1 high, -1 low, 0 floating per phase (Table MOT.1). -/
def stepPhases : Nat → List Int
  | 1 => [1, -1, 0]
  | 2 => [1, 0, -1]
  | 3 => [0, 1, -1]
  | 4 => [-1, 1, 0]
  | 5 => [-1, 0, 1]
  | 6 => [0, -1, 1]
  | _ => [0, 0, 0]

/-- The phases of a step with DIRECTION: V and W exchange roles (R491). -/
def phasesOf (reverse : Bool) (step : Nat) : List Int :=
  let p := stepPhases step
  if reverse then [p.getD 0 0, p.getD 2 0, p.getD 1 0] else p

/-- Channel B drives a step (R491, R525). -/
def driveB (step : Nat) (s : State) : State :=
  driveStep 1 step (gatesB ((phasesOf (s.motor.b.flags.testBit 2) step).flatMap fun p => [p == 1, p == -1]) s)

/-- All gate outputs of channel B go low. -/
def floatB (s : State) : State := driveStep 1 0 (gatesB [] s)

/-- Channel B aligns: the start of R526. -/
def startB (s : State) : State :=
  driveB 6 (s.updB fun b => { b with state := .align, step := 6, crossings := 0, crossed := false, attempts := 0, retryWait := false, restartWait := false })

/-- Channel B stops (R530): short brake raises source 95, or coast. -/
def stopB (s : State) : State :=
  match s.motor.b.state with
  | .stopped | .brake | .fault => s
  | _ =>
    if s.motor.b.flags.testBit 0 then floatB (s.updB fun b => { b with state := .stopped, speed := 0, restartWait := false, retryWait := false })
    else raiseSrc 95 (driveStep 1 7 (gatesB [false, true, false, true, false, true]
      (s.updB fun b => { b with state := .brake, restartWait := false, retryWait := false })))

/-- The speed a measured SPEED_CMD value gives (R531). -/
def speedOf (b : MotB) (v : Nat) : Nat :=
  if v < b.inStop then 0
  else if v < b.inLo then b.minRpm
  else if b.inHi < v then b.maxRpm
  else b.minRpm + (b.maxRpm - b.minRpm) * (v - b.inLo) / (b.inHi - b.inLo)

/-- The speed channel B is to run at now (R490, R532, R1004): MIN_RPM in KEEP, its command in RUN and SAFE, stopped on
entry to SHELF. -/
def targetB (s : State) : Nat :=
  let b := s.motor.b
  if s.supply.change.any (fun c => c.target == 0) then 0
  else match s.supply.mode with
  | .keep => b.minRpm
  | .booting => 0
  | _ => if b.source ≠ 0 ∧ b.lost then b.lossRpm else if b.source ≠ 0 then speedOf b b.cmdValue else b.command

/-- The target of channel B is taken again: it starts, ramps or stops (R490, R530, R536, R547). Before a MOT_B_CONFIG
channel B stays stopped (R536, R544). -/
def retargetB (s : State) : State :=
  let t := targetB s
  let s1 := s.updB fun b => { b with target := t }
  if !s.motor.b.configured then s1
  else if t = 0 then stopB s1
  else match s1.motor.b.state with
    | .stopped => if s1.supply.isl.motor ∧ s1.supply.pfail = false then startB s1 else s1
    | _ => s1

/-- A fault event of channel B (R529): it waits 1 s and restarts, and latches in FAULT at the fourth within 60 s. -/
def eventB (cause : Nat) (s : State) : State :=
  let recent := s.motor.b.events.filter fun t => s.up ≤ t + 60000000
  let latch : Bool := 3 ≤ recent.length
  floatB (s.updB fun b =>
    { b with events := if latch then [] else s.up :: recent, cause := cause, restartWait := !latch, retryWait := false
             state := if latch then .fault else .stopped, speed := 0 })

end Sys2Proof.Machine
end

