-- ==== Sys2Proof/Machine/RecSectors.lean ====
section
/-!
DEFINITION. Recording channels: segments by arrival time, the assembly of sectors from packets, and how a sector closes
(spec/12_disk_queue_and_recording.md, R640 to R657).
-/
namespace Sys2Proof.Machine
open Sys2Proof

/-- Recording channel `n`. -/
def recChan (s : State) (n : Nat) : RecChan := mgetD s.diskq.chans n {}

/-- Change recording channel `n`. -/
def State.updRecChan (s : State) (n : Nat) (f : RecChan → RecChan) : State :=
  s.updDsk fun d => { d with chans := mset d.chans n (f (mgetD d.chans n {})) }

/-- Count on a channel: RECORDED 0, DUPLICATE 1, LATE 2, MALFORMED 3, BAD_SIZE 4, REFUSED 5, NOT_RECORDING 6, BACKLOG 7,
GAPS 8, SECTORS 9, LOST_SECTORS 10 (REC_CHANNEL_STATUS); the counts saturate. -/
def recCount (n i : Nat) (s : State) : State :=
  s.updRecChan n fun c => { c with counts := upd c.counts i fun v => min (v + 1) 0xFFFFFFFFFFFFFFFF }

/-- Owner of RECORD. -/
def recOwner (s : State) : Nat := s.owner 3

/-- Framed packing. -/
def RecChan.framed (c : RecChan) : Bool := c.flags.testBit 1

/-- Slots of a raw sector (R642). -/
def RecChan.slots (c : RecChan) : Nat := 4096 / max 1 c.payloadBytes

/-! ### Data of a sector (R642, R643) -/

/-- Data of a raw sector: each sequence in its slot, unfilled bytes zero. -/
def rawData (c : RecChan) (o : OpenSector) : Bytes :=
  fit 4096 ((List.range c.slots).flatMap fun i =>
    match o.packets.find? fun p => p.1 == o.base + i with
    | some p => p.2.1
    | none => zeros c.payloadBytes)

/-- Data of a framed sector: each packet behind its header (Table DSK.8); `gap` is GAP_BEFORE of the next packet, `prev`
the sequence before it. -/
def framedData (gap : Bool) (prev : Option Nat) : List (Nat × Bytes × Bool × Time) → Bytes
  | [] => []
  | (q, b, blue, t) :: l =>
    let g := gap || prev.any fun p => q != p + 1
    leBytes 2 b.length ++ leBytes 2 (b2n blue + 2 * b2n g) ++ leBytes 4 q ++ leBytes 4 (t.sec % 2 ^ 32) ++ leBytes 4 t.ns ++ b ++
      framedData false (some q) l

/-- Bytes that packets take in a framed sector. -/
def framedUsed (l : List (Nat × Bytes × Bool × Time)) : Nat := (l.map fun p => 16 + p.2.1.length).sum

/-- GAP of a closing sector (R646). -/
def closingGap (c : RecChan) (o : OpenSector) : Bool :=
  o.gap || (!c.framed && (List.range c.slots).any fun i =>
    !(o.packets.any fun p => p.1 == o.base + i) && decide (o.base + i < mgetD c.high o.segment 0))

/-- A closed sector takes its place before those of its segment that follow it and are not handed over (R647). -/
def insClosed (x : ClosedSector) : List ClosedSector → List ClosedSector
  | [] => [x]
  | y :: l =>
    if y.lba.isNone ∧ y.origin.isNone ∧ y.segment = x.segment ∧ x.base < y.base then x :: y :: l else y :: insClosed x l

/-- The lowest sequence of a sector's packets (Table DSK.6). -/
def firstOf : List (Nat × Bytes × Bool × Time) → Nat
  | [] => 0
  | p :: l => l.foldl (fun m x => min m x.1) p.1

/-- An open sector closes (R645). -/
def closeSector (n : Nat) (o : OpenSector) (s : State) : State :=
  let c := recChan s n
  let g := closingGap c o
  let x : ClosedSector :=
    { base := o.base, firstSeq := firstOf o.packets, lastSeq := o.packets.foldl (fun m p => max m p.1) o.base
      data := if c.framed then fit 4096 (framedData o.gap none o.packets) else rawData c o
      flags := b2n g + 2 * b2n (o.packets.any fun p => p.2.2.1)
      segment := o.segment, start := o.start, stop := o.start + c.segmentS, yealm := o.yealm
      sealSlot := if c.flags.testBit 2 then some c.sealSlot else none
      mirror := if c.flags.testBit 4 then c.mirrorPos else 0 }
  s.updRecChan n fun c =>
    { c with opened := c.opened.filter (· ≠ o), closed := insClosed x c.closed
             lowest := if c.framed then c.lowest else max c.lowest (o.base + c.slots) }

/-- Close every open sector of a channel that satisfies `p`, lowest first. -/
def closeWhere (n : Nat) (p : OpenSector → Bool) (s : State) : State :=
  ((recChan s n).opened.filter p).foldl (fun s o => closeSector n o s) s

/-! ### Placing packets -/

/-- START of the segment an arrival time falls in (R655). -/
def arrivalStart (c : RecChan) (t : Time) : Nat := t.sec / max 1 c.segmentS * c.segmentS

/-- A segment of the channel with that START whose sectors it still holds: a packet held out of order past the boundary
belongs to it (R643, R655). -/
def openByStart (s : State) (c : RecChan) (start : Nat) : Option Nat :=
  ((c.opened.map fun o => (o.segment, o.start)) ++ (c.closed.filter (·.origin.isNone)).map fun x => (x.segment, x.start)).findSome?
    fun p => if p.2 = start ∧ (mget s.diskq.segEnds p.1).isNone then some p.1 else none

/-- A raw sector of the arrival's segment is open and has the slot of a sequence (R642, R644). -/
def slotOpen (c : RecChan) (q : Nat) (t : Time) : Bool :=
  !c.framed && c.segment.any fun g => g.2 == arrivalStart c t &&
    c.opened.any fun o => o.segment == g.1 && decide (o.base ≤ q) && decide (q < o.base + c.slots)

/-- The first sequence of the sector that holds a sequence: the segment's first plus a whole multiple of the slots, below it
too; none below 0 (R642). -/
def rawBase (first slots q : Nat) : Option Nat :=
  let w := max 1 slots
  let k := (first + w - 1 - q) / w * w
  if first ≤ q then some (first + (q - first) / w * w) else if k ≤ first then some (first - k) else none

/-- The segment a packet's arrival puts it in (R655): its name and START; a new one is opened when needed. -/
def enterSegment (n q : Nat) (t : Time) (s : State) : State :=
  let c := recChan s n
  let start := arrivalStart c t
  if c.segment.any fun g => g.2 == start then s
  else match if c.framed then openByStart s c start else none with
  | some i => s.updRecChan n fun c => { c with segment := some (i, start) }
  | none =>
    let id := s.diskq.nextSeg
    (s.updDsk fun d => { d with nextSeg := id + 1 }).updRecChan n fun c => { c with segment := some (id, start), segFirst := q }

/-- Open a sector; a yealm of the RECORD owner is charged for it when one is free. -/
def openSector (n : Nat) (o : OpenSector) (s : State) : State :=
  match allocOne (recOwner s) s with
  | some (h, s1) => s1.updRecChan n fun c => { c with opened := c.opened ++ [{ o with yealm := some (hIndex h) }], gapNext := false }
  | none => s.updRecChan n fun c => { c with opened := c.opened ++ [o], gapNext := false }

/-- What every recorded packet does to its channel. -/
def recorded (n q seg : Nat) (s : State) : State :=
  recCount n 0 (s.updRecChan n fun c => { c with high := mset c.high seg (max q (mgetD c.high seg 0)), lastRec := some q })

/-- Remember a sequence as taken (R644). -/
def markTaken (n q : Nat) (s : State) : State :=
  s.updRecChan n fun c => { c with seen := q :: c.seen.filter fun x => (c.highest.getD 0) ≤ x + 65536 }

/-- Place a packet in its slot (raw packing, R642, R645). -/
def placeRaw (n q : Nat) (b : Bytes) (blue : Bool) (t : Time) (s : State) : State :=
  let s1 := enterSegment n q t (markTaken n q s)
  let c := recChan s1 n
  let (id, start) := c.segment.getD (0, 0)
  match rawBase c.segFirst c.slots q with
  | none => recCount n 2 s
  | some base =>
    let later (o : OpenSector) : Bool := decide (id < o.segment) || (o.segment == id && decide (base < o.base))
    let behind : Option Nat := (c.opened.filter later).foldl (fun m o => some (min o.since (m.getD o.since))) none
    let fresh : Bool := !(c.opened.any fun o => o.base == base && o.segment == id)
    let s2 := if fresh && decide (2 ≤ c.opened.length) then
        match c.opened with
        | [] => s1
        | o :: l => closeSector n (l.foldl (fun m x => if x.segment < m.segment ∨ (x.segment = m.segment ∧ x.base < m.base) then x else m) o) s1
      else s1
    let s3 := if fresh then openSector n { base, since := s.up, laterAt := behind, segment := id, start, gap := c.gapNext } s2 else s2
    let s4 := s3.updRecChan n fun c =>
      { c with opened := c.opened.map fun o =>
          if o.segment = id ∧ o.base = base then { o with packets := o.packets ++ [(q, b, blue, t)] }
          else if o.segment < id ∨ (o.segment = id ∧ o.base < base) then { o with laterAt := some (o.laterAt.getD s.up) } else o }
    let s5 := recorded n q id s4
    closeWhere n (fun o => o.segment = id && o.base == base && o.packets.length == c.slots) s5

/-- Place a packet behind the last one (framed packing, R643). -/
def placeFramed (n q : Nat) (b : Bytes) (blue : Bool) (t : Time) (s : State) : State :=
  let s1 := enterSegment n q t s
  let c := recChan s1 n
  let (id, start) := c.segment.getD (0, 0)
  let full (o : OpenSector) : Bool := o.segment == id && decide (4096 < framedUsed o.packets + 16 + b.length)
  let s2 := closeWhere n full s1
  let there : Bool := (recChan s2 n).opened.any fun o => o.segment == id
  let gap := c.gapNext || c.lastRec.any fun p => q != p + 1
  let s3 := if there then s2 else openSector n { base := q, since := s.up, segment := id, start, gap } s2
  let s4 := s3.updRecChan n fun c =>
    { c with opened := c.opened.map fun o => if o.segment = id then { o with packets := o.packets ++ [(q, b, blue, t)] } else o
             lowest := max c.lowest (q + 1) }
  closeWhere n (fun o => o.segment == id && decide (4080 < framedUsed o.packets)) (recorded n q id s4)

/-- Insert a held packet by its sequence. -/
def insHeld (x : Nat × Bytes × Bool × Time × Nat) : List (Nat × Bytes × Bool × Time × Nat) → List (Nat × Bytes × Bool × Time × Nat)
  | [] => [x]
  | y :: l => if x.1 < y.1 then x :: y :: l else y :: insHeld x l

/-- Place the lowest held packet. -/
def placeHeld (n : Nat) (s : State) : State :=
  match (recChan s n).heldPkts with
  | [] => s
  | (q, b, blue, t, _) :: l => placeFramed n q b blue t (s.updRecChan n fun c => { c with heldPkts := l })

/-- Place held packets while the lowest is the next sequence (R643). -/
def placeReady (n : Nat) : Nat → State → State
  | 0, s => s
  | fuel + 1, s =>
    let c := recChan s n
    match c.heldPkts with
    | [] => s
    | x :: _ => if x.1 = c.lowest ∨ c.lastRec.isNone then placeReady n fuel (placeHeld n s) else s

/-- A channel's open segment ends before its boundary, with CUT or STEPPED (R640, R657): held packets are placed, open
sectors close. -/
def endSegment (n bits : Nat) (s : State) : State :=
  let s1 := Nat.repeat (placeHeld n) (recChan s n).heldPkts.length s
  let s2 := closeWhere n (fun _ => true) s1
  match (recChan s2 n).segment with
  | some (id, _) =>
    (s2.updDsk fun d => { d with segEnds := mset d.segEnds id (mgetD d.segEnds id 0 ||| bits) }).updRecChan n fun c => { c with segment := none }
  | none => s2

/-- A time step closes every open segment with STEPPED (R657). -/
def stepSegments (s : State) : State := (s.diskq.chans.map (·.1)).foldl (fun s n => endSegment n 32 s) s

end Sys2Proof.Machine
end

