-- ==== Sys2Proof/Machine/TimeOps.lean ====
section
/-!
DEFINITION. Shared operations of the timebase (spec/02_timebase.md): the keepsake area, offsets and schedules, time
steps, selection of a reference and the DPLL's state.
-/
namespace Sys2Proof.Machine

/-! ### Keepsake area (R293, R75) -/

/-- The keepsake copy in use: valid, and the higher update count (R293). -/
def bestKeep (b : Boot) : KeepCopy :=
  if b.keepB.valid && (!b.keepA.valid || b.keepA.count < b.keepB.count) then b.keepB else b.keepA

/-- One update of the keepsake area: the copy with the older count is written (R293). -/
def keepUpdate (f : KeepCopy → KeepCopy) (s : State) : State :=
  s.updBoot fun b =>
    let best := bestKeep b
    let new := { f best with count := best.count + 1, valid := true }
    if b.keepB.valid && (!b.keepA.valid || b.keepA.count < b.keepB.count) then { b with keepA := new } else { b with keepB := new }

/-- A pending schedule as Table TIM.18 lays it out. -/
def schedBytes (kind : Nat) : Option Sched → Bytes
  | none => zeros 16
  | some x => leBytes 6 x.instant ++ leBytes 1 kind ++ leBytes 1 x.flags ++ leInt 4 x.value ++ zeros 4

/-- The schedules in force, as the keepsake area holds them (R293). -/
def schedulesOf (b : Timebase) : List Bytes :=
  (b.leap.toList.map fun x => schedBytes 1 (some x)) ++ b.localSched.toList.map fun x => schedBytes 2 (some x)

/-- Persist offsets and schedules in one keepsake update (R75, R80). -/
def keepOffsets (s : State) : State :=
  keepUpdate (fun k => { k with offsets := (s.timebase.utcOffset, s.timebase.localOffset), schedules := schedulesOf s.timebase }) s

/-! ### Offsets and schedules -/

/-- Offsets in force, then each pending schedule (TIME_GET_OFFSETS; OFFSETS frames). -/
def offsetsBytes (b : Timebase) : Bytes :=
  leInt 2 b.utcOffset ++ zeros 2 ++ leInt 4 b.localOffset ++ schedBytes 1 b.leap ++ schedBytes 2 b.localSched

/-- A pending change's instant has come. -/
def schedDue (now : Nat) (x : Option Sched) : Bool := x.any fun x => x.instant ≤ now

/-- A pending change's instant, none while it has not come. -/
def dueAt (now : Nat) (x : Option Sched) : List Nat := (x.toList.map (·.instant)).filter (· ≤ now)

/-- The record that accompanies source 58 (R80, R946): its time is the change's instant when it takes force there; the spec
states no code, severity and payload for it (log entry 44). -/
def offsetRecord (instant : Nat) (s : State) : State :=
  let t : Time := if instant = s.timebase.now.sec then { sec := instant } else s.timebase.now
  let code := s.draw 10 % 65536
  record { time := t, source := 58, code := code, severity := s.draw 11 % 6, flags := recordFlags 2 s, payload := anyPayload code [instant] }
    s.drawn

/-- The pending changes of one instant take force together: one keepsake update, source 58 once (R80, R81). -/
def forceAt (i : Nat) (s : State) : State :=
  let b := s.timebase
  let l := b.leap.any fun x => x.instant == i
  let m := b.localSched.any fun x => x.instant == i
  let b1 := if l then { b with utcOffset := (b.leap.map (·.value)).getD b.utcOffset, leap := none } else b
  let b2 := if m then
      { b1 with localOffset := (b.localSched.map (·.value)).getD b.localOffset
                daylight := b.localSched.any fun x => x.flags.testBit 0, localSched := none }
    else b1
  offsetRecord i (raiseSrc 58 (keepOffsets { s with timebase := b2 }))

/-- The earliest pending change whose instant has passed takes force (R80, R83). -/
def forceFirst (s : State) : State :=
  match (dueAt s.timebase.now.sec s.timebase.leap ++ dueAt s.timebase.now.sec s.timebase.localSched).min? with
  | some i => forceAt i s
  | none => s

/-- Scheduled changes whose instant has passed take force, those of an earlier instant first (R80, R81, R83, R84); not while
PFAIL is latched (R944), nor before time has been valid since the device reset (R83, R975). -/
def takeForce (s : State) : State :=
  if !s.timebase.known || s.supply.pfail then s else forceFirst (forceFirst s)

/-- A pending change that comes within 86,400 s raises its source once (R82). -/
def warnScheds (s : State) : State :=
  let near (x : Option Sched) : Bool := x.any fun x => !x.warned && x.instant ≤ s.timebase.now.sec + 86400
  let s1 := if near s.timebase.leap then
      raiseSrc 59 (s.updTb fun b => { b with leap := b.leap.map fun x => { x with warned := true } }) else s
  if near s1.timebase.localSched then
    raiseSrc 57 (s1.updTb fun b => { b with localSched := b.localSched.map fun x => { x with warned := true } }) else s1

/-- The offsets an upstream source announces are adopted and persisted (R85); GNSS is offered again (R296). -/
def adoptOffsets (utc loc : Int) (leap loc2 : Option Sched) (s : State) : State :=
  warnScheds (keepOffsets (s.updTb fun b =>
    { b with utcOffset := utc, localOffset := loc, leap := leap, localSched := loc2, gnssOffered := true }))

/-- Upstream offsets are followed now (R85). -/
def followsUpstream (b : Timebase) : Bool := b.fromUpstream && (b.selected == 2 || b.selected == 3)

/-! ### Steps and validity -/

/-- A LOCKED spindle re-phases (R510): a change of state, which raises source 80 (R501). -/
def rephase (s : State) : State :=
  if s.motor.a.state = .locked then
    raiseSrc 80 { s with motor := { s.motor with a := { s.motor.a with state := .pullIn, goodRevs := 0, badRevs := 0 } } }
  else s

/-- A time step cancels a TDD band's armed transitions and holds it QUIET (R704). -/
def tddQuiet (s : State) : State :=
  { s with
      radio := { s.radio with
        band := s.radio.band.map fun b => if b.flags.testBit 0 && b.state != .off && b.state != .fault then
            { b with quiet := true, quietAt := s.up, dir := 0, gate := false, en := false } else b }
      spars := upd s.spars 2 fun x => { x with actions := x.actions.filter fun a => !(0x20 ≤ a.unit && a.unit ≤ 0x27) } }

/-- A time step by `d` ns moves the cadence outputs to the new phase: armed edges are cancelled, and the last edge keeps its
distance in time (R99; DEDUCED, log entry 62). -/
def cadenceStep (d : Int) (s : State) : State :=
  { s with
      timebase := { s.timebase with
        cadence := s.timebase.cadence.map fun c => { c with lastEdge := ((c.lastEdge : Int) + d * 8).toNat } }
      spars := upd s.spars 1 fun x => { x with actions := x.actions.filter fun a => !(0x08 ≤ a.unit && a.unit ≤ 0x0F) } }

/-- A step of time is applied at once (R63): source 56, STEPPED in every snapshot, the spine's STEP bit; a change passed
takes force (R84); a LOCKED spindle re-phases (R510); TDD bands go QUIET (R704); open segments close (R657). -/
def timeStep (d : Int) (s : State) : State :=
  let s1 := s.updTb fun b =>
    { b with now := b.now.addNs d, slewNs := 0, spineStep := true, snap := b.snap.map fun x => { x with stepped := true } }
  takeForce (stepSegments (cadenceStep d (tddQuiet (rephase (raiseSrc 56 s1)))))

/-- Time becomes valid (R53); a pending change that passed takes force (R83). -/
def makeValid (s : State) : State := takeForce (s.updTb fun b => { b with valid := true, known := true })

/-- An output's idle level (R102). -/
def idleLevel (c : Cadence) : Bool := c.desc.kind ≠ 0 && c.desc.flags.testBit 0

/-- Outputs with HOLD_ON_INVALID go to their idle level while time is not valid (R102). -/
def holdCadence (s : State) : State :=
  s.updTb fun b =>
    { b with cadence := b.cadence.map fun c =>
        if c.desc.flags.testBit 2 && c.desc.kind ≠ 0 then { c with level := idleLevel c } else c }

/-- TIME_STATE.VALID goes from 1 to 0: source 63 (Table TIM.12, R102). -/
def loseValid (s : State) : State :=
  if s.timebase.valid then
    holdCadence (raiseSrc 63 (s.updTb fun b => { b with valid := false, setByCmd := false }))
  else s

/-! ### References and the DPLL -/

/-- Reference of a code 1 to 6 (Table TIM.1). -/
def State.ref (s : State) (c : Nat) : RefIn := vat s.timebase.refs (c - 1)
/-- Change a reference. -/
def State.updRef (s : State) (c : Nat) (f : RefIn → RefIn) : State :=
  s.updTb fun b => { b with refs := upd b.refs (c - 1) f }

/-- The clock bound to GNSS: 4 or 5, 0 none (R57). -/
def boundClock (s : State) : Nat :=
  match (s.ref 1).options % 4 with
  | 1 => 4
  | 2 => 5
  | _ => 0

/-- The PTP reference's instance is in SLAVE and announces what R454 asks. -/
def ptpFit (s : State) : Bool :=
  match s.net.refPort with
  | some p =>
    let i := vat s.net.ptp p
    i.state == .slave && i.parent.ptpTimescale && i.parent.utcValid && decide (i.parent.gmClass ≤ s.net.acceptClass)
  | none => false

/-- A reference is offered for selection: qualified, not disabled, not bound to GNSS, and the forced one if one is forced;
none is without OSC_IN (R57, R59, R64, R296, R1079). -/
def offered (s : State) (c : Nat) : Bool :=
  s.timebase.oscPresent && (s.ref c).qualified && (s.ref c).priority != 0 && boundClock s != c && (c != 1 || s.timebase.gnssOffered) &&
    s.timebase.forced.all (· == c)

/-- The better of two references by priority, then code order (R59). -/
def better (s : State) (a b : Nat) : Bool :=
  decide ((s.ref a).priority < (s.ref b).priority) || ((s.ref a).priority == (s.ref b).priority && decide (a < b))

/-- The reference to select: the offered one with the lowest priority number, 0 none (R59). -/
def bestRef (s : State) : Nat :=
  ((List.range 6).map (· + 1)).foldl (fun best c =>
    if offered s c && (best == 0 || better s c best) then c else best) 0

/-- Nominal frame period in ps, rounded, of a rate of Table TIM.10; rates are N / D Hz. -/
def rateOf : Nat → Nat × Nat
  | 0x01 => (24000, 1001)
  | 0x02 => (24, 1)
  | 0x03 => (25, 1)
  | 0x04 => (30000, 1001)
  | 0x05 => (30, 1)
  | 0x06 => (48000, 1001)
  | 0x07 => (48, 1)
  | 0x08 => (50, 1)
  | 0x09 => (60000, 1001)
  | 0x0A => (60, 1)
  | 0x0B => (100, 1)
  | 0x0C => (120000, 1001)
  | 0x0D => (120, 1)
  | 0x10 => (1, 1)
  | 0x20 => (48000, 1)
  | 0x21 => (96000, 1)
  | _ => (0, 1)

/-- A difference brought into half a period either way: the shorter way (R62). -/
def shorter (d period : Int) : Int :=
  if period ≤ 0 then d else
    let r := d % period
    if r * 2 > period then r - period else r

/-- The phase difference of a reference from current time in ns, compared as its class asks (R62): reference minus time. -/
def refDiff (s : State) (c : Nat) : Int :=
  let d := (s.ref c).phaseErr / 1000
  if classT c then d
  else if c = 6 then
    let (n, m) := rateOf (s.ref 6).rate
    if n = 0 then d else shorter d ((m * 1000000000 / n : Nat) : Int)
  else shorter d 1000000000

/-- Average of the codes sent in the HOLD_AVG seconds that ended 2 s before now; none when none was sent then (R66). -/
def holdAverage (s : State) : Option Nat :=
  let b := s.timebase
  let l := (b.steerLog.filter fun x => x.1 + 2000000 ≤ s.up && s.up ≤ x.1 + 2000000 + b.holdAvg * 1000000).map (·.2)
  if l.isEmpty then none else some (l.sum / l.length)

/-- The DPLL enters a state. -/
def dpllTo (st : DpllState) (s : State) : State :=
  s.updTb fun b => { b with dpll := st, dpllSince := s.up, dpllFrom := if b.dpll = st then b.dpllFrom else b.dpll }

/-- No reference is selected any more: HOLDOVER after 60 s LOCKED since reset, else FREERUN (Table TIM.4, R66, R67); FREERUN
where OSC_IN was lost (R1079). -/
def dpllUnreferenced (s : State) : State :=
  if s.timebase.dpll = .acquire ∨ s.timebase.dpll = .locked then
    if 60000000 ≤ s.timebase.lockedUs ∧ s.timebase.oscPresent then
      raiseSrc 54 ((dpllTo .holdover s).updTb fun b => { b with holdCode := holdAverage s })
    else dpllTo .freerun s
  else s

/-- A reference is selected: ACQUIRE from FREERUN, HOLDOVER or LOCKED (Table TIM.4, R67). -/
def dpllReferenced (s : State) : State :=
  match s.timebase.dpll with
  | .holdover => raiseSrc 55 (dpllTo .acquire s)
  | .freerun => dpllTo .acquire s
  | .locked => dpllTo .acquire s
  | .acquire => s

/-- The phase of a newly selected reference is taken: slewed, or stepped when it is beyond the threshold, STEP_ENABLE is
set and the class is T (R62). -/
def takePhase (c : Nat) (s : State) : State :=
  let d := refDiff s c
  if (s.timebase.stepThresh : Int) < d.natAbs ∧ s.timebase.stepEnable ∧ classT c then timeStep d s
  else s.updTb fun b => { b with slewNs := d }

/-- The selected reference changes (R59, R62, R65): source 53, the DPLL's state, the phase, and validity for class T. -/
def switchRef (c : Nat) (s : State) : State :=
  if c = s.timebase.selected then s
  else
    let s1 := raiseSrc 53 (s.updTb fun b => { b with selected := c, setByCmd := b.setByCmd && !classT c })
    if c = 0 then dpllUnreferenced s1
    else
      let s2 := takePhase c (dpllReferenced s1)
      if classT c then makeValid s2 else s2

/-- Selection after a change that does not wait to restore: a selected reference still offered stays (R61). -/
def reselect (s : State) : State :=
  if s.timebase.selected ≠ 0 ∧ offered s s.timebase.selected then s else switchRef (bestRef s) s

/-- The source raised when a reference goes from qualified to disqualified (Table TIM.12). -/
def refLostSrc : Nat → Option Nat
  | 1 => some 50
  | 2 => some 51
  | 3 => some 52
  | 4 => some 48
  | 5 => some 49
  | _ => none

/-- A reference is disqualified (R58, Table TIM.12, Table TIM.22). -/
def disqualify (c cause : Nat) (s : State) : State :=
  if !(s.ref c).qualified then s
  else
    let s1 := s.updRef c fun r =>
      { r with qualified := false, lastCause := cause, disqualified := inc32 r.disqualified, outWindow := 0, qualifiedAt := 0 }
    let s2 := match refLostSrc c with
      | some x => raiseSrc x s1
      | none => s1
    reselect s2

/-- A reference becomes qualified (R58, R59). -/
def qualify (c : Nat) (s : State) : State :=
  if (s.ref c).qualified then s
  else reselect (s.updRef c fun r => { r with qualified := true, qualifiedAt := s.up })

/-- A scheduled change has come within 86,400 s (R82): LEAP_PENDING and LOCAL_PENDING (log entry 174). -/
def schedNear (x : Option Sched) : Bool := x.any (·.warned)

/-- TIME_STATE but STEPPED (Table TIM.8). -/
def timeState (b : Timebase) : Nat :=
  let code := match b.dpll with
    | .freerun => 0
    | .acquire => 1
    | .locked => 2
    | .holdover => 3
  code + 8 * b2n b.valid + 16 * timeSource b +
    256 * b2n (schedNear b.leap) + 512 * b2n (schedNear b.localSched) + 65536 * (b.utcOffset % 256).toNat

/-- The phase error in ps of an instant from the nearest ideal edge of a rate (R91, TIM_IN). -/
def rateError (rate : Nat) (t : Time) : Int :=
  let (n, d) := rateOf rate
  if n = 0 then 0 else
    let period : Int := d * 1000000000000
    shorter (t.ps * n) period / n

end Sys2Proof.Machine
end

