-- ==== Sys2Proof/Machine/CascadeOps.lean ====
section
/-!
DEFINITION. Shared operations of the Declin cascade (spec/17_declin_cascade.md): acceptance of received frames, resends,
rate requests, links, discovery, leases, the hand-over of the Ridge role. Lane 0 is CU, lane 1 is CD.
-/
namespace Sys2Proof.Machine
open Sys2Proof

/-! ### Announced quality (Table PTP.4) -/

/-- The module's own row of Table PTP.4, and whether time is traceable (R451). -/
def announced (s : State) : TimeQuality × Bool :=
  let b := s.timebase
  if b.selected = 1 ∧ b.dpll = .locked then
    ({ clockClass := 6, clockAccuracy := 0x21, variance := 0x4E5D, timeSource := 0x20 }, true)
  else if b.selected = 3 ∧ b.dpll = .locked then
    (s.cascade.quality, s.cascade.quality.clockClass == 6 || s.cascade.quality.clockClass == 7)
  else if b.dpll = .holdover ∧ b.valid then
    ({ clockClass := 7, clockAccuracy := 0xFE, variance := 0xFFFF, timeSource := 0xA0 }, true)
  else if b.selected = 2 ∧ b.dpll = .locked then
    ({ clockClass := s.net.classFollowing, clockAccuracy := 0xFE, variance := 0xFFFF, timeSource := 0x40 }, false)
  else
    ({ clockClass := 248, clockAccuracy := 0xFE, variance := 0xFFFF, timeSource := if b.setByCmd then 0x60 else 0xA0 }, false)

/-! ### Roles and lanes -/

/-- The module acts as Ridge (R919, R921). -/
def actsAsRidge (s : State) : Bool := s.cascade.acting == .ridge || s.cascade.acting == .actingRidge

/-- The module sends DISCOVER, TIME and OFFSETS downstream as the head of what it sees (R874, R923). -/
def headsChain (s : State) : Bool := actsAsRidge s || s.cascade.acting == .displaced

/-- A lane is powered under the role strap (Table CAS.1), and has its clock (R1078). -/
def laneFitted (s : State) (l : Nat) : Bool :=
  s.supply.isl.cascade && s.supply.sdRefclk && (s.boot.role == 2 || s.boot.role == 3 || (s.boot.role == 1 && l == 1))

/-- A lane state's code (Table CAS.11). -/
def laneCode (s : State) (l : Nat) : Nat :=
  if !laneFitted s l then 0
  else match (s.laneOf l).state with
    | .up => 2
    | .switching => 3
    | _ => 1

/-- Seconds a lane has run at quarter rate in its present spell (CAS_COUNTERS). -/
def quarterSeconds (s : State) (l : Nat) : Nat :=
  if (s.laneOf l).quarter then (s.up - (s.laneOf l).quarterAt) / 1000000 else 0

/-- Set a lane's rate, its quarter-rate seconds counted. -/
def setRate (l : Nat) (quarter : Bool) (s : State) : State :=
  s.updLane l fun x =>
    { x with quarter, quarterAt := s.up, counters := upd x.counters 11 fun c => wrap64 (c + quarterSeconds s l) }

/-- Answer NOT_READY, from this module, to the request a tenant has forwarded (R201, R233). -/
def answerNotReady (t : Nat) (s : State) : State :=
  match (s.ten t).outstanding with
  | some o => respond t { op := o.op, seq := o.seq, status := St.notReady, pos := s.cascade.position } s
  | none => s

/-- Requests forwarded over a lane whose link went down are answered at once (R887). -/
def answerLost (l : Nat) (s : State) : State :=
  (List.range 8).foldl (fun s t =>
    if (s.ten t).outstanding.any fun o => laneTo s o.target == l then answerNotReady t s else s) s

/-- A handback that cannot finish completes NOT_READY; the spare stays acting Ridge (R924, R934). -/
def handbackFails (s : State) : State :=
  if s.cascade.handback then finish 0x0B06 0 St.notReady [] (s.updCas fun c => { c with handback := false }) else s

/-- MODULES takes a value (R875): CASC_DISCOVERED when it changes. -/
def setModules (n : Nat) (s : State) : State :=
  if s.cascade.modules = n then s
  else crumb 0x0B80 2 0 (anyPayload 0x0B80 [s.cascade.position, n]) (s.updCas fun c => { c with modules := n })

/-- DISCOVER_END goes upstream, or at the head of the chain sets MODULES (R875). -/
def endOfChain (last lease : Nat) (s : State) : State :=
  if actsAsRidge s then setModules (last + 1) s
  else if s.cascade.acting = .displaced then s
  else laneSend 0 0x02 (s.cascade.position - 1) s.cascade.position
    (leBytes 1 last ++ zeros 3 ++ leBytes 6 (max lease s.cascade.leaseSeen) ++ zeros 2) s

/-- The module below is lost (R925): CASC_RAFTER_LOST, and this module is the end of the chain. -/
def rafterLost (s : State) : State :=
  let s1 := if (s.laneOf 1).peer then crumb 0x0BA3 4 0 (anyPayload 0x0BA3 [s.cascade.position + 1]) s else s
  let s2 := s1.updLane 1 fun x => { x with peer := false }
  endOfChain s2.cascade.position 0 (s2.updCas fun c => { c with discoverAt := none })

/-- A lane's link goes down (R882, R887, R897, R925, R934). -/
def linkDown (l : Nat) (s : State) : State :=
  if (s.laneOf l).state ≠ .up ∧ (s.laneOf l).state ≠ .switching then s
  else
    let s1 := (setRate l false s).updLane l fun x =>
      { x with state := .training, downAt := some s.up, switchTo := none, reqDown := false, reqUp := false, due := none }
    let s2 := answerLost l (raiseSrc (70 + l) s1)
    if l = 0 then handbackFails (disqualify 3 8 s2) else rafterLost (s2.updCas fun c => { c with handbackTime := false })

/-- The lane is retrained at full rate: counted, source 78 or 79, CASC_RETRAIN; the loss of block lock takes the link
down (R882, R886). -/
def retrain (l : Nat) (s : State) : State :=
  linkDown l (crumbOf 1 (78 + l) 0x0BA4 3 0 (anyPayload 0x0BA4 [l])
    (laneCount l 8 1 (s.updLane l fun x => { x with resends := 0 })))

/-- Log the unacknowledged frames of a lane as sent again, with RESENT set. -/
def emitResent (l : Nat) (s : State) : State :=
  (s.laneOf l).unacked.foldl (fun s f => s.emit (.lane l f.type f.dest f.origin f.encrypted true f.payload)) s

/-- Unacknowledged frames are sent again, in order, with RESENT set; the eighth resend without progress retrains the
lane (R885, R886). -/
def resend (l : Nat) (s : State) : State :=
  let ln := s.laneOf l
  if ln.unacked.isEmpty || ln.state != .up then s
  else
    let s1 := laneCount l 4 ln.unacked.length
      ((emitResent l s).updLane l fun x => { x with resends := x.resends + 1 })
    if 8 ≤ ln.resends + 1 then retrain l s1 else s1

/-- Start frames a lane holds. -/
def pumpLane (l : Nat) (s : State) : State := pump l (s.laneOf l).queue.length s

/-! ### Rate requests (R888 to R891, R930) -/

/-- A RATE block: OP and COUNT (Table CAS.2). -/
def rateBlock (l op count : Nat) (s : State) : State := laneBlock l 0x66 (leBytes 1 op ++ leBytes 2 count) s

/-- Ask for quarter or full rate: at once, or when every sent frame is acknowledged (R930). COUNT is that of Table
CAS.4 (log entry 15). -/
def askRate (l : Nat) (quarter : Bool) (s : State) : State :=
  if !(s.laneOf l).unacked.isEmpty then s.updLane l fun x => { x with due := some quarter }
  else
    (rateBlock l (if quarter then 1 else 3) 64 s).updLane l fun x =>
      { x with due := none, reqDown := quarter, reqUp := !quarter }

/-- A rate request that waited goes out once nothing is unacknowledged (R930). -/
def rateDue (l : Nat) (s : State) : State :=
  match (s.laneOf l).due with
  | some q => if laneOpen (s.laneOf l) then askRate l q s else s
  | none => s

/-! ### Acceptance of frames (R884, R885, R902) -/

/-- Check a sealed payload under one key slot (R902): the payload when the tag holds; one invocation counted as used
(Table KEY.3). -/
def openUnder (slot : Nat) (rx : LaneRx) (type : Nat) (s : State) : Option Bytes × State :=
  let (st, _, s1) := keyStart 0 slot 3 1 false s
  if st ≠ St.ok then (none, s1)
  else
    let k := s1.key slot
    let n := rx.payload.length - 28
    let f : LaneFrame := { type, fseq := rx.fseq, dest := rx.dest.val, origin := rx.origin.val, encrypted := true }
    ((Config.gcmOpen k.material (slice rx.payload n 12) (startBytes f rx.payload.length false)
        (rx.payload.take n ++ rx.payload.drop (n + 12))).map (fit n), keyEnd slot k.load s1)

/-- The plain payload of a frame; none when its tag fails or REQUIRE refuses it (R902). -/
def plainPayload (rx : LaneRx) (type : Nat) (s : State) : Option Bytes × State :=
  let ln := s.laneOf rx.lane.val
  if !rx.encrypted then (if ln.require then none else some rx.payload, s)
  else match openUnder ln.rxSlot rx type s with
    | (some p, s1) => (some p, s1)
    | (none, s1) => if ln.rxNext ≤ 15 then openUnder ln.rxNext rx type s1 else (none, s1)

/-- A CREDIT block of the receiver: ACK_FSEQ, NAK and the credit returned to one virtual channel (R884). -/
def sendCredit (l : Nat) (nak : Bool) (vc units : Nat) (s : State) : State :=
  laneBlock l 0x55 (leBytes 2 (s.laneOf l).rxSeq ++ leBytes 1 (b2n nak) ++
    (List.range 4).map fun i => BitVec.ofNat 8 (if i = vc then min 255 units else 0)) s

/-- A rejected frame: NAK (R884). -/
def sendNak (l : Nat) (s : State) : State := laneCount l 5 1 (sendCredit l true 0 0 s)

/-- The receiver's decision on a frame: its plain payload when it is accepted (R884, R885). -/
def laneAccept (type : Nat) (rx : LaneRx) (s : State) : Option Bytes × State :=
  let l := rx.lane.val
  let ln := s.laneOf l
  if (ln.rxSeq + 65536 - rx.fseq) % 65536 < 32768 then (none, sendCredit l false 0 0 s)
  else if rx.fseq ≠ (ln.rxSeq + 1) % 65536 ∨ rx.blockErr then (none, sendNak l s)
  else if !rx.crcOk then (none, sendNak l (laneCount l 6 1 s))
  else match plainPayload rx type s with
    | (none, s1) => (none, sendNak l (laneCount l 7 1 s1))
    | (some p, s1) =>
      let s2 := s1.updLane l fun x => { x with rxSeq := rx.fseq }
      (some p, sendCredit l false (frameVc type) (frameUnits rx.payload.length)
        (laneCount l 3 rx.payload.length (laneCount l 1 1 s2)))

/-- Frame types that travel to a position of the chain; the others end at the neighbour (R904, R909 to R917). -/
def routed (type : Nat) : Bool := type ∈ [0x06, 0x07, 0x10, 0x11, 0x12, 0x20, 0x30, 0x31, 0x32, 0x33]

/-- A frame of a type arrives on a lane whose link is up: accepted or rejected; an accepted frame for another position is
relayed unchanged, one for this module has its effect; a module without a position, or outside the chain, takes no
routed frame (R877, R940). `seen` acts on a frame that is relayed. -/
def laneFrame (type : Nat) (rx : LaneRx) (seen body : Bytes → State → State) (s : State) : State :=
  if !s.supply.isl.cascade || (s.laneOf rx.lane.val).state != .up then s
  else match laneAccept type rx s with
    | (none, s1) => s1
    | (some p, s1) =>
      if !routed type then body p s1
      else if !s1.cascade.valid || s1.cascade.outside then s1
      else if rx.dest.val = s1.cascade.position then body p s1
      else laneSend (laneTo s1 rx.dest.val) type rx.dest.val rx.origin.val p (seen p s1)

/-- A frame row: the module runs. -/
def laneRow (type : Nat) (rx : LaneRx) (body : Bytes → State → State) (s : State) : Res :=
  s.running (laneFrame type rx (fun _ s => s) body)

/-! ### Heartbeats, take-over and handback (R919 to R924) -/

/-- A HEARTBEAT block on the CD lane (Table CAS.2). -/
def sendHeartbeat (pos count : Nat) (pending : Bool) (s : State) : State :=
  if (s.laneOf 1).state = .up ∨ (s.laneOf 1).state = .switching then
    laneBlock 1 0x2D (leBytes 1 pos ++ leBytes 2 count ++ leBytes 1 (b2n pending)) s
  else s

/-- A heartbeat of this module as acting Ridge (R919). -/
def beat (s : State) : State :=
  (sendHeartbeat s.cascade.position s.cascade.beatCount s.cascade.handback s).updCas fun c =>
    { c with beatCount := (c.beatCount + 1) % 65536 }

/-- Send DISCOVER on the CD lane (R874, R875). -/
def sendDiscover (s : State) : State :=
  (laneSend 1 0x01 (s.cascade.position + 1) s.cascade.position
    (leBytes 1 s.cascade.position ++ leBytes 1 s.boot.role ++ zeros 2 ++ leBytes 6 s.cascade.leaseSeen ++ zeros 2) s).updCas
      fun c => { c with discoverAt := some s.up }

/-- The acting spare's CASCADE reference has qualified during a handback: HANDBACK_DONE, and it is a Rafter again
(R924). -/
def handbackDone (s : State) : State :=
  if s.cascade.handback && (s.ref 3).qualified then
    let s1 := laneSend 0 0x05 0 s.cascade.position (leBytes 1 3 ++ leBytes 1 s.cascade.position ++ zeros 2) s
    let s2 := s1.updCas fun c => { c with handback := false, acting := .spare, ridgePos := some 0, ridgeLost := false
                                          beatAt := some s.up, beat0At := s.up }
    finish 0x0B06 0 St.ok [] (crumb 0x0B81 2 0 (anyPayload 0x0B81 [s.cascade.position]) s2)
  else s

/-! ### Leases (R910) -/

/-- The acting Ridge grants the next lease number. -/
def grantLease (s : State) : Nat × State :=
  let n := s.cascade.leaseSeen + 1
  (n, s.updCas fun c => { c with leaseSeen := n })

/-- A lease arrives: it is current when none is, and otherwise follows the current one. -/
def takeLease (n : Nat) (s : State) : State :=
  s.updCas fun c =>
    if c.lease.isNone then { c with lease := some (n, 0), leaseWanted := false }
    else { c with leaseNext := some n, leaseWanted := false }

/-- Ask for a lease of the acting Ridge, which may be this module. -/
def askLease (s : State) : State :=
  if actsAsRidge s then
    let (n, s1) := grantLease s
    takeLease n s1
  else match s.cascade.ridgePos with
    | some p =>
      let s1 := s.updCas fun c => { c with leaseWanted := true }
      if present s p then sendTo p 0x06 (leBytes 6 ((s.cascade.lease.map (·.1)).getD 0) ++ zeros 2) s1 else s1
    | none => s.updCas fun c => { c with leaseWanted := true }

/-- The next GSEQ of the module's lease; a lease is asked for below 1,024 numbers (R910, R911). -/
def nextGseq (s : State) : Option Nat × State :=
  let s0 := if s.cascade.lease.isNone && !s.cascade.leaseWanted then askLease s else s
  match s0.cascade.lease with
  | none => (none, s0)
  | some (n, i) =>
    let s1 := s0.updCas fun c =>
      if i + 1 < 4096 then { c with lease := some (n, i + 1) }
      else { c with lease := c.leaseNext.map fun m => (m, 0), leaseNext := none }
    let few := i + 1 > 4096 - 1024 && s1.cascade.leaseNext.isNone && !s1.cascade.leaseWanted && i + 1 < 4096
    (some (n * 4096 + i), if few then askLease s1 else s1)

end Sys2Proof.Machine
end

