-- ==== Sys2Proof/Machine/Timebase.lean ====
section
/-!
DEFINITION. The timebase: the 0x05xx commands, the events of its references, DPLL, schedules, spine, cadence outputs and
TIM_IN inputs, and the time snapshot (spec/02_timebase.md; R1079 of spec/21_electrical_and_package.md).
-/
namespace Sys2Proof.Machine
open Sys2Proof

/-- TIME commands run in every mode but SHELF (R109); the owner's are not requests of Table PWR.8. -/
def timeOwner : State → Nat → Bytes → Bool := byOwner 0
/-- Commands marked "read" (R109, R220). -/
def timeReader : State → Nat → Bytes → Bool := byReader 0

/-- Seconds in HOLDOVER. -/
def holdoverS (s : State) : Nat := if s.timebase.dpll = .holdover then (s.up - s.timebase.dpllSince) / 1000000 else 0

/-- A signed value saturated to 32 bits. -/
def sat32 (v : Int) : Int := max (-2147483648) (min 2147483647 v)

/-- 0x0501 TIME_GET_STATUS (Table TIM.14, R69). -/
def cmdTimeGetStatus : Cmd :=
  { op := 0x0501, limited := always
    run := fun s _ _ =>
      let b := s.timebase
      let t := holdoverS s
      .done St.ok (leBytes 1 (timeState b % 8) ++
        leBytes 1 (b2n b.valid + 2 * b2n b.revertive + 4 * b2n (followsUpstream b) + 8 * b2n b.forced.isSome) ++
        leBytes 1 b.selected ++
        leBytes 1 (maskOf (List.range 6) fun i => (s.ref (i + 1)).qualified) ++
        leInt 4 (sat32 b.phaseErr) ++ leInt 4 b.freqCorr ++ leBytes 4 b.steer ++ leBytes 4 t ++
        leBytes 4 (min 0xFFFFFFFF (b.aging * t * t / 172800000))) s }

/-- OPTIONS and RATE fit the reference (Table TIM.15). -/
def refFields (p : Bytes) : Bool :=
  let o := byteAt p 3
  let r := byteAt p 12
  match byteAt p 0 with
  | 1 => o ≤ 7 && o % 4 ≤ 2 && r ≤ 6
  | 2 => o == 0 && r == 0
  | 3 => o == 0 && r == 0
  | 4 => o ≤ 15 && o % 8 ≤ 4 && r == 0
  | 5 => o ≤ 15 && o % 8 ≤ 4 && r == 0
  | 6 => o == 0 && 1 ≤ r && r ≤ 0x0D
  | _ => false

/-- 0x0502 TIME_REF_CONFIG (Table TIM.15, R57 to R59). -/
def cmdTimeRefConfig : Cmd :=
  { op := 0x0502, rights := timeOwner, len := exactly 16
    fields := fun _ _ p => byteAt p 1 ≤ 15 && byteAt p 2 == 0 && refFields p && 100 ≤ rd p 4 4 && rd p 4 4 ≤ 100000 &&
      1 ≤ byteAt p 13 && 1 ≤ rd p 14 2 && rd p 14 2 ≤ 600
    run := fun s _ p =>
      .done St.ok [] (reselect (s.updRef (byteAt p 0) fun r =>
        { r with priority := byteAt p 1, options := byteAt p 3, tolerance := rd p 4 4, delayPs := rdS p 8 4
                 rate := byteAt p 12, window := byteAt p 13, qualify := rd p 14 2 })) }

/-- A number lies in a range. -/
def inRange (lo hi v : Nat) : Bool := lo ≤ v && v ≤ hi

/-- 0x0503 TIME_DPLL_CONFIG (Table TIM.16). -/
def cmdTimeDpllConfig : Cmd :=
  { op := 0x0503, rights := timeOwner, len := exactly 24
    fields := fun _ _ p => inRange 1 10000 (rd p 0 4) && inRange 1 10000 (rd p 4 4) &&
      inRange 1000 1000000000 (rd p 8 4) && inRange 1 1000 (rd p 12 2) && rd p 14 2 ≤ 3600 && inRange 10 3600 (rd p 16 2) &&
      byteAt p 18 ≤ 7 && byteAt p 19 == 0 && rd p 20 4 ≤ 604800
    run := fun s _ p =>
      .done St.ok [] (s.updTb fun b =>
        { b with acqBw := rd p 0 4, trkBw := rd p 4 4, stepThresh := rd p 8 4, slewLimit := rd p 12 2, wtr := rd p 14 2
                 holdAvg := rd p 16 2, revertive := (byteAt p 18).testBit 0, stepEnable := (byteAt p 18).testBit 1
                 fromUpstream := (byteAt p 18).testBit 2, holdLimit := rd p 20 4 }) }

/-- 0x0504 TIME_OSC_CONFIG (Table TIM.17, R72). -/
def cmdTimeOscConfig : Cmd :=
  { op := 0x0504, rights := timeOwner, len := exactly 16
    fields := fun _ _ p => (byteAt p 0 == 16 || byteAt p 0 == 20) && byteAt p 1 < 2 ^ (24 - byteAt p 0) && byteAt p 2 ≤ 3 &&
      byteAt p 3 == 0 && rd p 8 4 < 2 ^ byteAt p 0 && zeroAt p 14 2
    run := fun s _ p =>
      .done St.ok [] (s.updTb fun b =>
        { b with dacBits := byteAt p 0, dacPrefix := byteAt p 1, dacPolarity := (byteAt p 2).testBit 0
                 dacSampleFalling := (byteAt p 2).testBit 1, dacGain := rd p 4 4, initialCode := some (rd p 8 4), aging := rd p 12 2 }) }

/-- 0x0505 TIME_SELECT (R64, R117). -/
def cmdTimeSelect : Cmd :=
  { op := 0x0505, rights := timeOwner, len := exactly 1
    fields := fun _ _ p => inRange 1 6 (byteAt p 0) || byteAt p 0 == 0xFF
    run := fun s _ p =>
      .done St.ok [] (reselect (s.updTb fun b =>
        { b with forced := if byteAt p 0 = 0xFF then none else some (byteAt p 0) })) }

/-- 0x0506 TIME_SET (R110, R63, R53). -/
def cmdTimeSet : Cmd :=
  { op := 0x0506, rights := timeOwner, len := exactly 10
    fields := fun _ _ p => rd p 0 4 < 1000000000
    run := fun s _ p =>
      if classT s.timebase.selected then .done St.badField [] s
      else
        let d : Int := ((rdTime p 0).inNs : Int) - s.timebase.now.inNs
        let s1 := s.updTb fun b => { b with now := { b.now with frac := 0 }, setByCmd := true }
        .done St.ok [] (makeValid (timeStep d s1)) }

/-- 0x0507 TIME_SET_OFFSETS (R75, R85, R296). -/
def cmdTimeSetOffsets : Cmd :=
  { op := 0x0507, rights := timeOwner, len := exactly 8, fields := fun _ _ p => zeroAt p 2 2
    run := fun s _ p =>
      if followsUpstream s.timebase then .done St.badField [] s
      else if s.timebase.persistFails then .done St.internal [] s
      else .done St.ok [] (reselect (keepOffsets (s.updTb fun b =>
        { b with utcOffset := rdS p 0 2, localOffset := rdS p 4 4, gnssOffered := true }))) }

/-- The pending schedule of a kind. -/
def pendingOf (b : Timebase) (kind : Nat) : Option Sched := if kind = 1 then b.leap else b.localSched

/-- Set or clear the pending schedule of a kind, persist, and warn if it is near (R75, R76, R82). -/
def putSched (kind : Nat) (x : Option Sched) (s : State) : State :=
  warnScheds (keepOffsets (s.updTb fun b => if kind = 1 then { b with leap := x } else { b with localSched := x }))

/-- A schedule obeys R77 and R78. -/
def schedOk (b : Timebase) (p : Bytes) : Bool :=
  let i := rd p 0 6
  let v := rdS p 8 4
  inRange (b.now.inNs + 2000000000) (b.now.inNs + 34560000000000000) (i * 1000000000) &&
    (byteAt p 6 != 1 || ((v == b.utcOffset + 1 || v == b.utcOffset - 1) && ((i : Int) - v) % 86400 == 0))

/-- 0x0508 TIME_SCHEDULE (R75 to R79, R82, R85, R115, R116). -/
def cmdTimeSchedule : Cmd :=
  { op := 0x0508, rights := timeOwner, len := exactly 16
    fields := fun _ _ p =>
      let k := byteAt p 6
      let f := byteAt p 7
      (k == 1 || k == 2) && (f == 0 || f == 1 || (f == 0x80 && zeroAt p 0 6 && zeroAt p 8 4)) && zeroAt p 12 4 &&
        (k == 1 || decide ((rdS p 8 4).natAbs ≤ 50400))
    run := fun s _ p =>
      let k := byteAt p 6
      let old := pendingOf s.timebase k
      if followsUpstream s.timebase ∨ (byteAt p 7 ≠ 0x80 ∧ !schedOk s.timebase p) then .done St.badField [] s
      else if old.any fun x => x.instant * 1000000000 < s.timebase.now.inNs + 2000000000 then .done St.busy [] s
      else if byteAt p 7 = 0x80 then
        if old.isNone then .done St.ok [] s
        else if s.timebase.persistFails then .done St.internal [] s
        else .done St.ok [] (putSched k none s)
      else if s.timebase.persistFails then .done St.internal [] s
      else .done St.ok [] (putSched k (some { instant := rd p 0 6, flags := byteAt p 7, value := rdS p 8 4 }) s) }

/-- 0x0509 TIME_GET_OFFSETS: the offsets in force, then each schedule that is pending (Table TIM.13). -/
def cmdTimeGetOffsets : Cmd :=
  { op := 0x0509, limited := always
    run := fun s _ _ =>
      let b := s.timebase
      let sched (k : Nat) (x : Option Sched) : Bytes := if x.isSome then schedBytes k x else []
      .done St.ok ((offsetsBytes b).take 8 ++ sched 1 b.leap ++ sched 2 b.localSched) s }

/-- Rates a cadence kind may have (Table TIM.10). -/
def cadenceRate (kind rate : Nat) : Bool :=
  match kind with
  | 0 => true
  | 1 => inRange 1 0x0D rate || rate == 0x10
  | 2 => rate == 0x20 || rate == 0x21
  | 3 => rate == 4 || rate == 9
  | 4 => inRange 1 5 rate
  | 5 => rate == 0x20 || rate == 0x21
  | _ => false

/-- The pulse period of an output in ps times N, and N: edges at k * D / N s (R91, R93, R95). -/
def cadencePeriod (kind rate : Nat) : Nat × Nat :=
  match kind with
  | 3 => (1001 * 1000000000000, 6000)
  | 5 => (192 * 1000000000000, (rateOf rate).1)
  | _ => ((rateOf rate).2 * 1000000000000, (rateOf rate).1)

/-- A cadence descriptor at an offset (Table TIM.9). -/
def rdCad (p : Bytes) (o : Nat) : CadDesc :=
  { kind := byteAt p o, rate := byteAt p (o + 1), timescale := byteAt p (o + 2), flags := byteAt p (o + 3)
    phase := rdS p (o + 4) 4, width := rd p (o + 8) 4, userBits := rd p (o + 12) 4 }

/-- A cadence descriptor's bytes (Table TIM.9). -/
def CadDesc.bytes (d : CadDesc) : Bytes :=
  leBytes 1 d.kind ++ leBytes 1 d.rate ++ leBytes 1 d.timescale ++ leBytes 1 d.flags ++ leInt 4 d.phase ++
    leBytes 4 d.width ++ leBytes 4 d.userBits

/-- A cadence descriptor is valid (R97): fields meant for another kind are zero (a pulse width for the kinds that
pulse: log entry 13). -/
def cadOk (d : CadDesc) : Bool :=
  let (per, n) := cadencePeriod d.kind d.rate
  cadenceRate d.kind d.rate && d.flags ≤ 7 && (d.kind == 4 || (d.timescale == 0 && d.userBits == 0)) && d.timescale ≤ 2 &&
    (!d.flags.testBit 1 || (d.kind == 4 && d.rate == 4)) &&
    (d.width == 0 || ((d.kind == 1 || d.kind == 3 || d.kind == 5) && decide (d.width * 125 * n < per)))

/-- 0x050A TIME_CADENCE_SET (R92, R97, R98). -/
def cmdTimeCadenceSet : Cmd :=
  { op := 0x050A, rights := timeOwner, len := exactly 20
    fields := fun _ _ p => byteAt p 0 ≤ 7 && zeroAt p 1 3 && cadOk (rdCad p 4)
    run := fun s _ p =>
      .done St.ok [] (s.updTb fun b =>
        { b with cadence := upd b.cadence (byteAt p 0) fun c =>
            { c with pending := some (rdCad p 4, (b.now.inNs + 1000000 + 999999999) / 1000000000) } }) }

/-- 0x050B TIME_CADENCE_GET. -/
def cmdTimeCadenceGet : Cmd :=
  { op := 0x050B, rights := timeReader, limited := always, len := exactly 1
    fields := fun _ _ p => byteAt p 0 ≤ 7
    run := fun s _ p =>
      let c := vat s.timebase.cadence (byteAt p 0)
      .done St.ok (c.desc.bytes ++ leBytes 1 (b2n c.fault)) s }

/-- 0x050C TIME_TIM_ARM (R111, Table TIM.21). -/
def cmdTimeTimArm : Cmd :=
  { op := 0x050C, rights := timeOwner, len := exactly 4
    fields := fun _ _ p => byteAt p 0 ≤ 15 && byteAt p 1 ≤ 1 && byteAt p 2 ≤ 2 &&
      (byteAt p 3 == 0 || (rateOf (byteAt p 3)).1 != 0)
    run := fun s _ p =>
      .done St.ok [] (s.updTb fun b =>
        { b with timIn := b.timIn.mapFinIdx fun i x _ =>
            if (byteAt p 0).testBit i then { x with edge := byteAt p 1, mode := byteAt p 2, rate := byteAt p 3 } else x }) }

/-- One TIM_IN result (Table TIM.11). -/
def timResultBytes (input dropped : Nat) (r : TimResult) : Bytes :=
  leBytes 1 input ++ leBytes 1 r.flags ++ leBytes 2 r.seq ++ r.time.bytes ++ leBytes 2 r.time.frac ++
    leInt 4 (sat32 r.phaseErr) ++ leBytes 4 dropped ++ zeros 8

/-- 0x050D TIME_TIM_READ (R106, Table TIM.11). -/
def cmdTimeTimRead : Cmd :=
  { op := 0x050D, rights := timeReader, limited := always, len := exactly 2
    fields := fun _ _ p => byteAt p 0 ≤ 3 && inRange 1 7 (byteAt p 1)
    run := fun s _ p =>
      let i := byteAt p 0
      let x := vat s.timebase.timIn i
      let got := x.queue.take (byteAt p 1)
      .done St.ok (got.flatMap (timResultBytes i x.dropped))
        (s.updTb fun b => { b with timIn := upd b.timIn i fun x =>
          { x with queue := x.queue.drop (byteAt p 1), dropped := if got.isEmpty then x.dropped else 0 } }) }

/-- One calibration entry (Table TIM.7). -/
def calEntry (s : State) (id : Nat) : Bytes :=
  let c := vat s.timebase.cal (id - 1)
  leBytes 1 id ++ leBytes 1 (b2n c.valid + 2 * b2n c.restarted) ++ leBytes 2 c.uncert ++ leInt 4 c.offset ++
    leInt 4 c.drift ++ leBytes 4 (min 0xFFFFFFFF ((s.up - c.at_) / 1000))

/-- 0x050E TIME_SPINE_CAL_READ. -/
def cmdTimeSpineCalRead : Cmd :=
  { op := 0x050E, limited := always, len := exactly 4
    fields := fun _ _ p => inRange 1 16 (byteAt p 0) && inRange 1 15 (byteAt p 1) && byteAt p 0 + byteAt p 1 ≤ 17 && zeroAt p 2 2
    run := fun s _ p => .done St.ok ((List.range (byteAt p 1)).flatMap fun i => calEntry s (byteAt p 0 + i)) s }

/-- 0x050F TIME_GNSS_SEND (R55). -/
def cmdTimeGnssSend : Cmd :=
  { op := 0x050F, rights := timeOwner, len := fun p => inRange 1 200 p.length
    run := fun s _ p => .done St.ok [] (s.emit (.gnss p)) }

/-- 0x0510 TIME_REF_STATUS (Table TIM.22). -/
def cmdTimeRefStatus : Cmd :=
  { op := 0x0510, rights := timeReader, limited := always, len := exactly 1
    fields := fun _ _ p => inRange 1 6 (byteAt p 0)
    run := fun s _ p =>
      let c := byteAt p 0
      let r := s.ref c
      .done St.ok (leBytes 1 c ++
        leBytes 1 (b2n r.qualified + 2 * b2n (s.timebase.selected == c) + 4 * b2n (s.timebase.forced == some c) +
          8 * b2n (boundClock s == c) + 16 * b2n r.active) ++
        leBytes 1 r.lastCause ++ zeros 1 ++ leInt 4 r.freqOffset ++ leInt 4 (sat32 r.phaseErr) ++
        leBytes 4 (if r.qualified then min 0xFFFFFFFF ((s.up - r.qualifiedAt) / 1000000) else 0) ++
        leBytes 4 r.disqualified ++ leBytes 4 r.discarded) s }

/-- TIME_GET_STATUS. -/
def execTimeGetStatus (c : Call) (s : State) : Res := command cmdTimeGetStatus c s
/-- TIME_REF_CONFIG. -/
def execTimeRefConfig (c : Call) (s : State) : Res := command cmdTimeRefConfig c s
/-- TIME_DPLL_CONFIG. -/
def execTimeDpllConfig (c : Call) (s : State) : Res := command cmdTimeDpllConfig c s
/-- TIME_OSC_CONFIG. -/
def execTimeOscConfig (c : Call) (s : State) : Res := command cmdTimeOscConfig c s
/-- TIME_SELECT. -/
def execTimeSelect (c : Call) (s : State) : Res := command cmdTimeSelect c s
/-- TIME_SET. -/
def execTimeSet (c : Call) (s : State) : Res := command cmdTimeSet c s
/-- TIME_SET_OFFSETS. -/
def execTimeSetOffsets (c : Call) (s : State) : Res := command cmdTimeSetOffsets c s
/-- TIME_SCHEDULE. -/
def execTimeSchedule (c : Call) (s : State) : Res := command cmdTimeSchedule c s
/-- TIME_GET_OFFSETS. -/
def execTimeGetOffsets (c : Call) (s : State) : Res := command cmdTimeGetOffsets c s
/-- TIME_CADENCE_SET. -/
def execTimeCadenceSet (c : Call) (s : State) : Res := command cmdTimeCadenceSet c s
/-- TIME_CADENCE_GET. -/
def execTimeCadenceGet (c : Call) (s : State) : Res := command cmdTimeCadenceGet c s
/-- TIME_TIM_ARM. -/
def execTimeTimArm (c : Call) (s : State) : Res := command cmdTimeTimArm c s
/-- TIME_TIM_READ. -/
def execTimeTimRead (c : Call) (s : State) : Res := command cmdTimeTimRead c s
/-- TIME_SPINE_CAL_READ. -/
def execTimeSpineCalRead (c : Call) (s : State) : Res := command cmdTimeSpineCalRead c s
/-- TIME_GNSS_SEND. -/
def execTimeGnssSend (c : Call) (s : State) : Res := command cmdTimeGnssSend c s
/-- TIME_REF_STATUS. -/
def execTimeRefStatus (c : Call) (s : State) : Res := command cmdTimeRefStatus c s

/-! ### Snapshot -/

/-- Latch the snapshot of a tenant (R90, R120). -/
def latchTime (t : Nat) (s : State) : State :=
  s.updTb fun b => { b with snap := upd b.snap t fun x =>
    { x with sec := b.now.sec, ns := b.now.ns, frac := b.now.frac, state := timeState b } }

/-- The window registers of a tenant act: the host island runs, the tenant is not ABSENT (R212), the Campel stage has
begun (R271). -/
def windowOpen (s : State) (t : Nat) : Bool := s.supply.isl.host && s.campel && (s.ten t).state != .absent

/-- TIME_LATCH: bit [0] latches (R90). -/
def execTimeLatch (t : Fin 8) (value : BitVec 32) (s : State) : Res :=
  s.running fun s => if windowOpen s t.val && value.getLsbD 0 then latchTime t.val s else s

/-! ### GNSS (R54 to R57) -/

/-- Digits of an ASCII number; none on any other character. -/
def digits (l : Bytes) : Option Nat :=
  if l.isEmpty then none
  else l.foldl (fun a b => a.bind fun n =>
    if 0x30 ≤ b.toNat ∧ b.toNat ≤ 0x39 then some (n * 10 + (b.toNat - 0x30)) else none) (some 0)

/-- The value of an ASCII hexadecimal digit. -/
def hexDigit (b : BitVec 8) : Nat :=
  let n := b.toNat
  if 0x30 ≤ n ∧ n ≤ 0x39 then n - 0x30
  else if 0x41 ≤ n ∧ n ≤ 0x46 then n - 0x37
  else if 0x61 ≤ n ∧ n ≤ 0x66 then n - 0x57
  else 256

/-- A byte string split at commas. -/
def commas (l : Bytes) : List Bytes :=
  l.foldr (fun b acc => if b = 0x2C then [] :: acc else match acc with
    | [] => [[b]]
    | x :: r => (b :: x) :: r) [[]]

/-- Days from 1970-01-01 to a civil date. -/
def civilDays (y m d : Nat) : Nat :=
  let leap (y : Nat) : Bool := y % 4 == 0 && (y % 100 != 0 || y % 400 == 0)
  let years := ((List.range y).drop 1970).foldl (fun a y => a + 365 + b2n (leap y)) 0
  let len := [31, 28 + b2n (leap y), 31, 30, 31, 30, 31, 31, 30, 31, 30, 31]
  years + (len.take (m - 1)).sum + (d - 1)

/-- UTC seconds since the epoch that a ZDA sentence's fields name: time, day, month, year. -/
def zdaSecond (f : List Bytes) : Option Nat := do
  let tm := f.getD 1 []
  let hh ← digits (slice tm 0 2)
  let mm ← digits (slice tm 2 2)
  let ss ← digits (slice tm 4 2)
  let d ← digits (f.getD 2 [])
  let mo ← digits (f.getD 3 [])
  let y ← digits (f.getD 4 [])
  if y < 1970 ∨ mo < 1 ∨ 12 < mo ∨ d < 1 ∨ 31 < d ∨ 23 < hh ∨ 59 < mm ∨ 60 < ss then none
  else some (civilDays y mo d * 86400 + hh * 3600 + mm * 60 + ss)

/-- A sentence is framed as R55 asks: $ first, CR LF last, at most 82 characters, a right checksum. Answers its body. -/
def nmeaBody (l : Bytes) : Option Bytes :=
  let n := l.length
  if n < 6 ∨ 82 < n ∨ byteAt l 0 ≠ 0x24 ∨ slice l (n - 2) 2 ≠ [0x0D, 0x0A] ∨ byteAt l (n - 5) ≠ 0x2A then none
  else
    let body := slice l 1 (n - 6)
    let sum := body.foldl (fun a b => a ^^^ b.toNat) 0
    if hexDigit (l.getD (n - 4) 0) * 16 + hexDigit (l.getD (n - 3) 0) = sum then some body else none

/-- Count a sentence that was discarded (R55, R56). -/
def gnssDiscard (s : State) : State := s.updRef 1 fun r => { r with discarded := inc32 r.discarded }

/-- A ZDA sentence completed `ms` after the last GNSS_PPS edge names a second (R56), and is compared with the DPLL's
second count (Table TIM.2). -/
def useZda (f : List Bytes) (ms : Nat) (s : State) : State :=
  match zdaSecond f with
  | none => s
  | some utc =>
    if ms < 10 ∨ 900 < ms then gnssDiscard s
    else
      let edge : Int := utc + s.timebase.utcOffset - (if (s.ref 1).options.testBit 2 then 1 else 0)
      s.updTb fun b =>
        { b with zdaTai := some edge.toNat
                 zdaDisagree := if b.valid && edge != b.now.sec then b.zdaDisagree + 1 else 0 }

/-- A sentence whose address ends with ZDA or GGA is used; $P and every other type is ignored (R55). -/
def useSentence (body : Bytes) (ms : Nat) (s : State) : State :=
  let f := commas body
  let a := f.getD 0 []
  if a.length ≠ 5 ∨ byteAt a 0 = 0x50 then s
  else if slice a 2 3 = [0x5A, 0x44, 0x41] then useZda f ms (s.updRef 1 fun r => { r with active := true })
  else if slice a 2 3 = [0x47, 0x47, 0x41] then
    (s.updRef 1 fun r => { r with active := true }).updTb fun b => { b with fixQuality := digits (f.getD 6 []) }
  else s

/-- A ZDA or GGA sentence by its address: $, a talker of two characters, the type. A proprietary sentence, which begins $P,
and every other type are ignored, not counted (R54, R55). -/
def nmeaUsed (l : Bytes) : Bool :=
  byteAt l 0 == 0x24 && byteAt l 1 != 0x50 && (slice l 3 3 == [0x5A, 0x44, 0x41] || slice l 3 3 == [0x47, 0x47, 0x41]) &&
    (byteAt l 6 == 0x2C || byteAt l 6 == 0x2A)

/-- GNSS_SENTENCE: a sentence completed on GNSS_RXD, `ms` after the last PPS edge (R54 to R56). -/
def execGnssSentence (l : Bytes) (ms : Nat) (s : State) : Res :=
  s.running fun s =>
    if !nmeaUsed l then s
    else match nmeaBody l with
      | none => gnssDiscard s
      | some body => useSentence body ms s

/-- GNSS_PPS: the edge that begins a UTC second; its measured phase error in ps (R56). -/
def execGnssPps (err : Int) (s : State) : Res :=
  s.running fun s =>
    let s1 := (s.updRef 1 fun r => { r with active := true, phaseErr := err - r.delayPs }).updTb fun b => { b with ppsAt := some s.up }
    if s1.timebase.selected = 1 then s1.updTb fun b => { b with phaseErr := (s1.ref 1).phaseErr } else s1

/-- REF_PPS_EDGE: an edge of REFA, REFB or FRAME_IN, its measured phase error in ps (R58, R114, Table TIM.2). -/
def execRefPpsEdge (c : Fin 3) (err : Int) (s : State) : Res :=
  s.running fun s =>
    let k := c.val + 4
    let r := s.ref k
    if k ≠ 6 ∧ !r.options.testBit 3 then s
    else
      let e := err - r.delayPs
      let locked := s.timebase.dpll = .locked ∧ s.timebase.selected = k
      let s1 := s.updRef k fun r =>
        { r with phaseErr := e, outWindow := if locked ∧ r.window * 100000 < e.natAbs then r.outWindow + 1 else 0 }
      if s1.timebase.selected = k then s1.updTb fun b => { b with phaseErr := e } else s1

/-- Conditions a reference needs beside its own activity: OSC_IN (R1079); CASCADE needs its lane, CHAIN_TIME and the
cascade island's calibration (R877, R897); PTP its instance (R454); REFA and REFB bound to GNSS are part of it (R57). -/
def mayQualify (s : State) (c : Nat) : Bool :=
  s.timebase.oscPresent && boundClock s != c &&
    (c != 3 || ((s.laneOf 0).state == .up && s.cascade.chainTime && s.cascade.valid && (vat s.timebase.cal 10).valid)) &&
    (c != 2 || ptpFit s)

/-- REF_QUALIFIED: a reference was active and within tolerance for `forS` seconds; `err` is its phase from current time
in ps (R58, R59, R62). -/
def execRefQualified (c : Fin 6) (forS : Nat) (err : Int) (s : State) : Res :=
  s.running fun s =>
    let k := c.val + 1
    if (s.ref k).qualify ≤ forS ∧ mayQualify s k then
      handbackDone (qualify k (s.updRef k fun r => { r with active := true, phaseErr := err }))
    else s

/-- A disqualification cause of Table TIM.22 fits the reference and what was counted of it (Table TIM.2). -/
def causeHolds (s : State) (c cause : Nat) : Bool :=
  match cause with
  | 1 => c == 1 || c == 4 || c == 5
  | 2 => c == 1 || ((c == 4 || c == 5) && (s.ref c).options.testBit 3)
  | 3 => c == 1
  | 4 => c == 1 && s.timebase.fixQuality == some 0
  | 5 => c == 1 && 3 ≤ s.timebase.zdaDisagree
  | 6 => 4 ≤ c && 3 ≤ (s.ref c).outWindow
  | 7 => true
  | 8 => c == 2 || c == 3
  | _ => false

/-- REF_DISQUALIFIED: a condition of Table TIM.2 was met (R58, R59, R66). -/
def execRefDisqualified (c : Fin 6) (cause : Nat) (s : State) : Res :=
  s.running fun s => if causeHolds s (c.val + 1) cause then disqualify (c.val + 1) cause s else s

/-- WAIT_TO_RESTORE: a better reference stayed qualified for `forS` seconds; `err` is its phase from current time in ps
(R61). -/
def execWaitToRestore (c : Fin 6) (forS : Nat) (err : Int) (s : State) : Res :=
  s.running fun s =>
    let k := c.val + 1
    let b := s.timebase
    if b.revertive ∧ b.selected ≠ 0 ∧ offered s k ∧ better s k b.selected ∧ b.wtr ≤ forS ∧ bestRef s = k then
      switchRef k (s.updRef k fun r => { r with phaseErr := err })
    else s

/-! ### DPLL (R65 to R74) -/

/-- The code the DPLL sends at an update (Tables TIM.3, R66, R73, R74). -/
def nextSteer (s : State) : Nat :=
  let b := s.timebase
  let top := 2 ^ b.dacBits - 1
  match b.dpll with
  | .freerun => if b.steerLog.isEmpty then b.initialCode.getD (2 ^ (b.dacBits - 1)) else min top b.steer
  | .holdover => min top (b.holdCode.getD b.steer)
  | .acquire => min top (Config.loopCode b.acqBw b.phaseErr b.steer b.dacBits)
  | .locked => min top (Config.loopCode b.trkBw b.phaseErr b.steer b.dacBits)

/-- The frequency correction of a code in 0.001 ppb, from mid-scale (Tables TIM.14 and TIM.17; log entry 11). -/
def freqOf (b : Timebase) (code : Nat) : Int :=
  let d : Int := ((code : Int) - 2 ^ (b.dacBits - 1)) * b.dacGain / 1000
  if b.dacPolarity then -d else d

/-- The phase slewed out in one 10 ms update: at most SLEW_LIMIT × 0.1 ppm of it (R62). -/
def slewPart (b : Timebase) : Int := max (-(b.slewLimit : Int)) (min (b.slewLimit : Int) b.slewNs)

/-- DPLL_UPDATE: every 10 ms one DAC frame (R71 to R74); `phase` is the measured phase error in ps. -/
def execDpllUpdate (phase : Int) (s : State) : Res :=
  s.running fun s =>
    let s0 := s.updTb fun b => { b with phaseErr := phase }
    let code := nextSteer s0
    let b := s0.timebase
    let s1 := s0.emit (.dac (b.dacPrefix * 2 ^ b.dacBits + code))
    s1.updTb fun b =>
      { b with steer := code, freqCorr := freqOf b code
               steerLog := ((s.up, code) :: b.steerLog).filter fun x => s.up ≤ x.1 + 3602000000
               now := b.now.addNs (slewPart b), slewNs := b.slewNs - slewPart b
               lockedUs := if b.dpll = .locked then b.lockedUs + 10000 else b.lockedUs }

/-- DPLL_LOCKED: phase error in ns and frequency error in 0.001 ppb held for `forMs` (Table TIM.4). -/
def execDpllLocked (phaseNs freq forMs : Nat) (s : State) : Res :=
  s.running fun s =>
    if s.timebase.dpll = .acquire ∧ phaseNs ≤ 100 ∧ freq ≤ 1000 ∧ 10000 ≤ forMs then dpllTo .locked s else s

/-- DPLL_PHASE_LOSS: phase error in ns held for `forMs` (Table TIM.4). -/
def execDpllPhaseLoss (phaseNs forMs : Nat) (s : State) : Res :=
  s.running fun s => if s.timebase.dpll = .locked ∧ 400 < phaseNs ∧ 1000 ≤ forMs then dpllTo .acquire s else s

/-- HOLDOVER_LIMIT: `forS` seconds in HOLDOVER (R68). -/
def execHoldoverLimit (forS : Nat) (s : State) : Res :=
  s.running fun s =>
    if s.timebase.dpll = .holdover ∧ s.timebase.holdLimit ≠ 0 ∧ s.timebase.holdLimit ≤ forS then loseValid s else s

/-- STEER_LIMIT: the code stayed near an end of the range for `forMs` (R74). -/
def execSteerLimit (forMs : Nat) (s : State) : Res :=
  s.running fun s =>
    let b := s.timebase
    let full := 2 ^ b.dacBits
    if 1000 ≤ forMs ∧ (b.steer ≤ full / 64 ∨ full - 1 - full / 64 ≤ b.steer) then raiseSrc 62 s else s

/-- SCHEDULE_INSTANT: pending changes whose instant has come take force (R80, R81). -/
def execScheduleInstant (s : State) : Res := s.running takeForce

/-- SCHEDULE_WARNING: pending changes that came within 86,400 s (R82). -/
def execScheduleWarning (s : State) : Res := s.running warnScheds

/-! ### Time spine (R86 to R88, R121) -/

/-- A spine frame's CRC holds (Table TIM.5): CRC-8, polynomial 0x07, over bits [99:8]. -/
def spineOk (bits : Nat) : Bool := crc8 7 (bitsOf 92 (bits / 256)) == bits % 256

/-- What losing an island's calibration entails: CASCADE is disqualified with island 11's (R897). -/
def calLost (id : Nat) (s : State) : State := if id = 11 then disqualify 3 8 s else s

/-- SPINE_FRAME: an island (ID of Table TIM.6 less one) checks a frame of 100 bits (R86, R87). -/
def execSpineFrame (isl : Fin 16) (bits : Nat) (s : State) : Res :=
  s.running fun s =>
    let id := isl.val + 1
    let c := vat s.timebase.cal isl.val
    let put (f : SpineCal → SpineCal) (s : State) : State := s.updTb fun b => { b with cal := upd b.cal isl.val f }
    if spineOk bits then
      if c.lostAt.isSome ∧ c.good + 1 = 3 then
        let ms := (s.up - c.lostAt.getD s.up) / 1000
        crumbOf id 0x0105 0x0580 2 0 (leBytes 1 id ++ leBytes 4 (min 0xFFFFFFFF ms))
          (put (fun c => { c with valid := true, bad := 0, good := 0, lostAt := none }) s)
      else put (fun c => { c with bad := 0, good := if c.lostAt.isSome then c.good + 1 else 0 }) s
    else if c.valid ∧ c.bad + 1 = 3 then
      calLost id (crumbOf id 0x0105 0x05A0 4 0 (leBytes 1 id ++ leBytes 2 3 ++ leBytes 2 c.uncert ++ leInt 4 c.offset)
        (put (fun c => { c with valid := false, bad := 3, good := 0, lostAt := some s.up }) s))
    else put (fun c => { c with bad := c.bad + 1, good := 0 }) s

/-- SPINE_CALIBRATION: an island's loop-back measurement: offset in 2^-16 ns, uncertainty in ps, whether it follows a
restart; `crcFail` when the loop-back's CRC failed (R88, R121). -/
def execSpineCalibration (isl : Fin 16) (offset : Int) (uncert : Nat) (restart crcFail : Bool) (s : State) : Res :=
  s.running fun s =>
    if crcFail then
      if isl.val ≠ 1 then s
      else
        let s1 := s.updTb fun b => { b with loopbackFails := b.loopbackFails + 1 }
        let told : Bool := match s.timebase.loopbackLogged with
          | some x => decide (s.up < x + 60000000)
          | none => false
        if told then s1
        else crumbOf 2 0x0105 0x05A1 3 0 (leBytes 1 2 ++ leBytes 2 s1.timebase.loopbackFails)
          (s1.updTb fun b => { b with loopbackLogged := some s.up })
    else s.updTb fun b => { b with cal := upd b.cal isl.val fun c =>
      { c with valid := if c.lostAt.isSome then c.valid else true, restarted := restart, uncert := uncert, offset := offset
               bootOffset := some (c.bootOffset.getD offset)
               drift := (offset - c.bootOffset.getD offset) * 1000 / 65536, at_ := s.up } }

/-! ### Cadence outputs and TIM_IN -/

/-- CADENCE_DESCRIPTOR_APPLY: a descriptor's TAI second has come (R98); writing one clears a fault (R103). -/
def execCadenceDescriptorApply (o : Fin 8) (s : State) : Res :=
  s.running fun s =>
    match (vat s.timebase.cadence o.val).pending with
    | some (d, sec) =>
      if sec ≤ s.timebase.now.sec then
        holdCadence (s.updTb fun b => { b with cadence := upd b.cadence o.val fun _ =>
          { desc := d, level := d.kind ≠ 0 && d.flags.testBit 0 } })
      else s
    | none => s

/-- An edge is recorded on an input: its result joins the queue, or is dropped (R105 to R107, R119). -/
def recordEdge (i : Nat) (falling : Bool) (t : Time) (s : State) : State :=
  let x := vat s.timebase.timIn i
  let v := s.timebase.valid
  let r : TimResult :=
    { flags := b2n falling + 2 * b2n v + 4 * b2n (v && x.rate != 0), seq := x.seq, time := t, phaseErr := rateError x.rate t }
  let full : Bool := 64 ≤ x.queue.length
  let s1 := s.updTb fun b => { b with timIn := upd b.timIn i fun x =>
    { x with queue := if full then x.queue else x.queue ++ [r], dropped := if full then inc32 x.dropped else x.dropped
             seq := (x.seq + 1) % 65536, lastNs := some t.inNs, mode := if x.mode = 1 then 0 else x.mode } }
  if x.queue.isEmpty then raiseSrc 61 s1 else s1

/-- TIM_IN_EDGE: an edge at a TAI instant (seconds, nanoseconds, fraction), its pulse `widthPs` wide (R104, R105). -/
def execTimInEdge (i : Fin 4) (falling : Bool) (sec ns frac widthPs : Nat) (s : State) : Res :=
  let t : Time := { sec, ns, frac }
  s.running fun s =>
    let x := vat s.timebase.timIn i.val
    if x.mode = 0 ∨ b2n falling ≠ x.edge ∨ widthPs < 4000 then s
    else if x.mode = 2 ∧ (x.lastNs.any fun l => t.inNs < l + 1000000) then
      s.updTb fun b => { b with timIn := upd b.timIn i.val fun x => { x with dropped := inc32 x.dropped } }
    else recordEdge i.val falling t s

/-! ### OSC_IN (R1079) -/

/-- OSC_IN_LOSS: no edge for `periods` nominal periods. -/
def execOscInLoss (periods : Nat) (s : State) : Res :=
  s.running fun s =>
    if periods < 4 ∨ !s.timebase.oscPresent then s
    else
      let s1 := s.updTb fun b => { b with oscPresent := false }
      let s2 := [1, 2, 3, 4, 5, 6].foldl (fun s c => disqualify c 1 s) s1
      loseValid (dpllTo .freerun s2)

/-- OSC_IN_RESTORED: OSC_IN ran within its requirements for `forMs`. -/
def execOscInRestored (forMs : Nat) (s : State) : Res :=
  s.running fun s => if 1000 ≤ forMs then s.updTb fun b => { b with oscPresent := true } else s

end Sys2Proof.Machine
end

