-- ==== Sys2Proof/Machine/Motor.lean ====
section
/-!
DEFINITION. The motor island: the events of the spindle and of the blower, and the 0x08xx commands
(spec/10_spindle_and_aux_motor.md).
-/
namespace Sys2Proof.Machine
open Sys2Proof

/-! ### Rates -/

/-- The step after a step (R491). -/
def nextStep (n : Nat) : Nat := n % 6 + 1

/-- A step rate in 0.001 steps/s is at least channel A's handover rate (R496). -/
def overHandoverA (a : MotA) (rate : Nat) : Bool :=
  let (n, d) := rateOf a.gen.rate
  a.cfg.handoverPct * n * 60 * a.cfg.polePairs ≤ rate * d

/-- A step rate in 0.001 steps/s is at least channel B's handover rate, 10 % of MIN_RPM (R526). -/
def overHandoverB (b : MotB) (rate : Nat) : Bool := b.minRpm * b.polePairs * 10 ≤ rate

/-- A zero crossing counts for handover: between 25 % and 75 % of the step, in the expected direction (R492, R497). -/
def goodCrossing (blank pct : Nat) (dirOk : Bool) : Bool := dirOk && blank ≤ pct && 25 ≤ pct && pct ≤ 75

/-! ### Starting -/

/-- ALIGN_END: the align time has passed and the blind ramp starts (R495, R496). -/
def alignEnd (b : Bool) (ms : Nat) (s : State) : State :=
  if b then
    let x := s.motor.b
    if x.state = .align ∧ !x.retryWait ∧ x.alignMs ≤ ms then
      driveB 2 (s.updB fun x => { x with state := .ramp, step := 2, crossings := 0, crossed := false })
    else s
  else
    let x := s.motor.a
    if x.state = .align ∧ !x.retryWait ∧ x.cfg.alignMs ≤ ms then
      driveStep 0 2 ((spinTo .ramp s).updA fun x => { x with step := 2, crossings := 0, crossed := false })
    else s

/-- The meaning of ALIGN_END. -/
def execAlignEnd (b : Bool) (ms : Nat) (s : State) : Res := s.running (alignEnd b ms)

/-- ZERO_CROSSING on channel A: the 12th consecutive step with a valid crossing hands over (R492, R497). -/
def crossA (pct : Nat) (dirOk : Bool) (rate : Nat) (s : State) : State :=
  let a := s.motor.a
  if !goodCrossing a.cfg.blankPct pct dirOk || a.crossed then s
  else
    let n := if a.state = .ramp ∧ !overHandoverA a rate then 0 else a.crossings + 1
    let s1 := s.updA fun a => { a with crossed := true, crossings := n }
    if a.state = .ramp ∧ 12 ≤ n then (spinTo .accel s1).updA fun a => { a with attempts := 0 } else s1

/-- ZERO_CROSSING on channel B (R497, R526). -/
def crossB (pct : Nat) (dirOk : Bool) (rate : Nat) (s : State) : State :=
  let b := s.motor.b
  if !goodCrossing 25 pct dirOk || b.crossed then s
  else
    let n := if b.state = .ramp ∧ !overHandoverB b rate then 0 else b.crossings + 1
    s.updB fun b =>
      { b with crossed := true, crossings := n, attempts := if b.state = .ramp ∧ 12 ≤ n then 0 else b.attempts
               state := if b.state = .ramp ∧ 12 ≤ n then .accel else b.state }

/-- The meaning of ZERO_CROSSING. -/
def execZeroCrossing (b : Bool) (pct : Nat) (dirOk : Bool) (rate : Nat) (s : State) : Res :=
  s.running fun s => if b then crossB pct dirOk rate s else crossA pct dirOk rate s

/-- COMMUTATION_STEP on channel A: the next step is driven (R491, R493, R496); align goes from step 6 to step 1 only. -/
def stepA (rate vinMa phaseMa : Nat) (s : State) : State :=
  let a := s.motor.a
  let s1 := s.updA fun a =>
    { a with step := nextStep a.step, crossings := if a.crossed then a.crossings else 0, crossed := false, stepFloat := false
             speed := rate / (6 * max 1 a.cfg.polePairs), vinMa := vinMa, phaseMa := phaseMa }
  match a.state with
  | .align => if a.step = 6 ∧ !a.retryWait then driveStep 0 1 s1 else s
  | .ramp | .accel | .atSpeed | .pullIn | .locked => driveStep 0 (nextStep a.step) s1
  | .decel => if a.clamp then s1 else driveStep 0 (nextStep a.step) s1
  | .harvest => s1
  | _ => s

/-- COMMUTATION_STEP on channel B; it is RUNNING from the step at which it has its target speed. -/
def stepB (rate phaseMa : Nat) (s : State) : State :=
  let b := s.motor.b
  let rpm := rate / (100 * max 1 b.polePairs)
  let s1 := driveB (nextStep b.step) (s.updB fun b =>
    { b with step := nextStep b.step, crossings := if b.crossed then b.crossings else 0, crossed := false, speed := rpm
             current := phaseMa, state := if b.state = .accel ∧ b.target ≤ rpm then .running else b.state })
  match b.state with
  | .align => if b.step = 6 ∧ !b.retryWait then s1 else s
  | .ramp | .accel | .running => s1
  | _ => s

/-- The meaning of COMMUTATION_STEP. -/
def execCommutationStep (b : Bool) (rate vinMa phaseMa : Nat) (s : State) : Res :=
  s.running fun s => if b then stepB rate phaseMa s else stepA rate vinMa phaseMa s

/-- A failed attempt of channel A (R498). -/
def handoverFailA (s : State) : State :=
  let n := s.motor.a.attempts + 1
  let s1 := raiseSrc 90 (s.updA fun a => { a with attempts := n, handoverFails := inc16 a.handoverFails })
  if 3 ≤ n then faultA 3 s1
  else driveStep 0 0 ((spinTo .align s1).updA fun a => { a with retryWait := true, step := 6 })

/-- A failed attempt of channel B (R498, R529). -/
def handoverFailB (s : State) : State :=
  let n := s.motor.b.attempts + 1
  let s1 := s.updB fun b => { b with attempts := n }
  if 3 ≤ n then eventB 3 s1
  else floatB (s1.updB fun b => { b with state := .align, retryWait := true, step := 6 })

/-- The meaning of HANDOVER_TIMEOUT: no handover within 2 s of the handover rate (R498). -/
def execHandoverTimeout (b : Bool) (ms : Nat) (s : State) : Res :=
  s.running fun s =>
    if ms < 2000 then s
    else if b then (if s.motor.b.state = .ramp then handoverFailB s else s)
    else if s.motor.a.state = .ramp then handoverFailA s else s

/-- Retry from align after 500 ms floating (R498). -/
def handoverRetry (b : Bool) (s : State) : State :=
  if b then
    if s.motor.b.retryWait then
      driveB 6 (s.updB fun x => { x with retryWait := false, step := 6, crossings := 0, crossed := false })
    else s
  else if s.motor.a.retryWait then
    driveStep 0 6 (s.updA fun x => { x with retryWait := false, step := 6, crossings := 0, crossed := false })
  else s

/-- The meaning of HANDOVER_RETRY. -/
def execHandoverRetry (b : Bool) (ms : Nat) (s : State) : Res :=
  s.running fun s => if 500 ≤ ms then handoverRetry b s else s

/-- A speed in 0.001 rev/s is within 0.01 % of nominal (R499). -/
def nearNominal (a : MotA) (speed : Nat) : Bool :=
  let (n, d) := rateOf a.gen.rate
  10000 * ((speed * d : Nat) - (n * 1000 : Nat) : Int).natAbs ≤ n * 1000

/-- The meaning of AT_SPEED (R499): the start completes OK; disk work that waits loads the heads (R578). -/
def execAtSpeed (speed forMs : Nat) (s : State) : Res :=
  s.running fun s =>
    if s.motor.a.state = .accel ∧ 500 ≤ forMs ∧ nearNominal s.motor.a speed then
      autoLoad (finishStart St.ok ((spinTo .atSpeed s).updA fun a => { a with speed := speed }))
    else s

/-- The meaning of SPINUP_TIMEOUT (R500): `forS` seconds since the start. -/
def execSpinupTimeout (forS : Nat) (s : State) : Res :=
  s.running fun s =>
    match s.motor.a.state with
    | .align | .ramp | .accel => if s.motor.a.cfg.spinupMax ≤ forS then faultA 4 s else s
    | _ => s

/-! ### Genlock (R502 to R510, R573) -/

/-- One index of the servo island: the error of its instant, ns (R503, R507, R508, R573). -/
def servoIndex (err : Int) (s : State) : State :=
  let s1 := s.updA fun a => { a with indexSeen := true }
  match s.motor.a.state with
  | .atSpeed => if s.motor.a.gen.flags.testBit 0 then (spinTo .pullIn s1).updA fun a => { a with phaseErr := err } else s1
  | .pullIn => s1.updA fun a => { a with phaseErr := err, goodRevs := if err.natAbs ≤ 1000 then a.goodRevs + 1 else 0 }
  | .locked => s1.updA fun a => { a with phaseErr := err, badRevs := if 5000 < err.natAbs then a.badRevs + 1 else 0 }
  | _ => s

/-- The meaning of SERVO_INDEX: no index is reported without servo. -/
def execServoIndex (err : Int) (s : State) : Res :=
  s.running fun s => if s.channel.servoValid then servoIndex err s else s

/-- The meaning of GENLOCK_LOCKED (R507). -/
def execGenlockLocked (s : State) : Res :=
  s.running fun s => if s.motor.a.state = .pullIn ∧ 64 ≤ s.motor.a.goodRevs then spinTo .locked s else s

/-- The meaning of GENLOCK_UNLOCK (R508). -/
def execGenlockUnlock (s : State) : Res :=
  s.running fun s => if s.motor.a.state = .locked ∧ 8 ≤ s.motor.a.badRevs then spinTo .pullIn s else s

/-! ### Stopping (R511 to R515) -/

/-- A speed in 0.001 rev/s is below 5 % of nominal (R514). -/
def nearRest (a : MotA) (speed : Nat) : Bool :=
  let (n, d) := rateOf a.gen.rate
  speed * d * 100 < 5 * n * 1000

/-- The meaning of DECEL_TO_BRAKE (R514): this brake raises no source 95. -/
def execDecelToBrake (speed : Nat) (s : State) : Res :=
  s.running fun s =>
    if s.motor.a.state = .decel ∧ nearRest s.motor.a speed then
      driveStep 0 7 ((spinTo .brake s).updA fun a => { a with speed := speed, clamp := false, regen := false })
    else s

/-- BRAKE_END: no zero crossing for 1 s; channel A or B is STOPPED (R514, R530). -/
def brakeEnd (b : Bool) (s : State) : State :=
  if b then
    if s.motor.b.state = .brake then retargetB (floatB (s.updB fun b => { b with state := .stopped, speed := 0 })) else s
  else if s.motor.a.state = .brake then stoppedA s else s

/-- The meaning of REGEN_LIMIT: braking current is reduced while VIN is at the ceiling (R512). -/
def execRegenLimit (vin : Nat) (s : State) : Res :=
  s.running fun s =>
    if s.motor.a.state ≠ .decel then s
    else if vin < s.motor.a.cfg.regenCeil then s.updA fun a => { a with regen := false }
    else
      let s1 := s.updA fun a => { a with regen := true, regenTold := true }
      if s.motor.a.regenTold then s1 else raiseSrc 93 s1

/-- The meaning of REGEN_CLAMP (R513). -/
def execRegenClamp (vin : Nat) (s : State) : Res :=
  s.running fun s =>
    if s.motor.a.state = .decel ∧ !s.motor.a.clamp ∧ 13800 ≤ vin then
      driveStep 0 0 (s.updA fun a => { a with clamp := true, regenEvents := inc16 a.regenEvents })
    else s

/-- The meaning of REGEN_RESUME (R513). -/
def execRegenResume (vin : Nat) (s : State) : Res :=
  s.running fun s =>
    if s.motor.a.state = .decel ∧ s.motor.a.clamp ∧ vin + 300 < s.motor.a.cfg.regenCeil then
      driveStep 0 s.motor.a.step (s.updA fun a => { a with clamp := false })
    else s

/-! ### Faults (R521 to R529) -/

/-- An overcurrent of channel A: FAULT, or while it brakes or rectifies only the rest of the step floats (R521, R523,
R539, R540). -/
def overcurrentA (s : State) : State :=
  match s.motor.a.state with
  | .stopped => s
  | .decel | .harvest => raiseSrc 88 (driveStep 0 0 (s.updA fun a => { a with stepFloat := true, ocCount := a.ocCount + 1 }))
  | .fault => raiseSrc 88 (driveStep 0 0 (s.updA fun a => { a with faultBrake := false }))
  | _ => faultA 1 (raiseSrc 88 s)

/-- The meaning of A_OVERCURRENT (R521). -/
def execAOvercurrent (ma forUs : Nat) (s : State) : Res :=
  s.running fun s => if s.motor.a.cfg.phaseOc < ma ∧ 1 ≤ forUs then overcurrentA s else s

/-- The meaning of A_STALL (R522). -/
def execAStall (steps : Nat) (s : State) : Res :=
  s.running fun s =>
    match s.motor.a.state with
    | .accel | .atSpeed | .pullIn | .locked => if 6 ≤ steps then faultA 2 (raiseSrc 89 s) else s
    | _ => s

/-- Channel B drives or brakes. -/
def activeB (b : MotB) : Bool :=
  match b.state with
  | .stopped | .fault => false
  | _ => true

/-- The meaning of B_OVERCURRENT: `mv` at MB_ISNS for `forUs` (R527, R529). -/
def execBOvercurrent (mv forUs : Nat) (s : State) : Res :=
  s.running fun s =>
    let b := s.motor.b
    if activeB b ∧ 2 ≤ forUs ∧ b.ocMa * b.isnsGain + b.isnsZero * 1000 < mv * 1000 then eventB 1 (raiseSrc 91 s) else s

/-- The meaning of B_STALL (R528, R529). -/
def execBStall (steps : Nat) (s : State) : Res :=
  s.running fun s =>
    match s.motor.b.state with
    | .accel | .running => if 6 ≤ steps then eventB 2 (raiseSrc 92 s) else s
    | _ => s

/-- The meaning of B_RESTART: 1 s after the event channel B restarts from align (R529, R547). -/
def execBRestart (ms : Nat) (s : State) : Res :=
  s.running fun s =>
    if s.motor.b.restartWait ∧ 1000 ≤ ms then retargetB (s.updB fun b => { b with restartWait := false }) else s

/-! ### SPEED_CMD (R531, R532) -/

/-- The meaning of SPEED_CMD_UPDATE: at most once every 10 ms (R531). -/
def execSpeedCmdUpdate (v : Nat) (s : State) : Res :=
  s.running fun s =>
    let b := s.motor.b
    if b.source = 0 ∨ b.cmdAt.any (fun t => decide (s.up < t + 10000)) then s
    else retargetB (s.updB fun b => { b with cmdValue := v, cmdAt := some s.up })

/-- The loss condition of Table MOT.4: the measured value, the time without an edge in ms, the frequency of the periods. -/
def cmdLoss (source v noEdgeMs freq : Nat) : Bool :=
  match source with
  | 1 => v < 100 || 3100 < v
  | 2 => 20 ≤ noEdgeMs || freq < 1000 || 50000 < freq
  | 3 => 2200 < v
  | _ => false

/-- The meaning of SPEED_CMD_LOST (R532). -/
def execSpeedCmdLost (v noEdgeMs freq : Nat) (s : State) : Res :=
  s.running fun s =>
    let b := s.motor.b
    if b.flags.testBit 1 ∧ !b.lost ∧ cmdLoss b.source v noEdgeMs freq then
      retargetB (raiseSrc 94 (s.updB fun b => { b with lost := true, cmdValue := v }))
    else s

/-- The meaning of SPEED_CMD_RESTORED (R532). -/
def execSpeedCmdRestored (forMs : Nat) (s : State) : Res :=
  s.running fun s =>
    if s.motor.b.lost ∧ 100 ≤ forMs then retargetB (s.updB fun b => { b with lost := false }) else s

/-! ### The 0x08xx commands (Tables MOT.6 to MOT.10) -/

/-- The spindle genlock setup is in force (R535). -/
def setupInForce (s : State) : Bool := s.motor.a.cfgSet && s.motor.a.genSet

/-- Channel A is STOPPED or in FAULT. -/
def aIdle (s : State) : Bool := s.motor.a.state = .stopped || s.motor.a.state = .fault

/-- A MOT_A_CONFIG payload's settings (Table MOT.7). -/
def motAConfigOf (p : Bytes) : MotAConfig :=
  { polePairs := byteAt p 0, flags := byteAt p 1, alignMa := rd p 2 2, alignMs := rd p 4 2, rampStart := rd p 6 2
    rampAccel := rd p 8 2, handoverPct := byteAt p 10, advanceDeg := byteAt p 11, vinLimit := rd p 12 2, phaseOc := rd p 14 2
    decelMa := rd p 16 2, regenCeil := rd p 18 2, spinupMax := rd p 20 2, blankPct := byteAt p 22, blindMa := rd p 24 2
    blindMs := rd p 26 2 }

/-- A MOT_A_GENLOCK payload's settings (Table MOT.8). -/
def genlockOf (p : Bytes) : Genlock :=
  { rate := byteAt p 0, flags := byteAt p 1, bw := rd p 2 2, phaseNs := rd p 4 4, pullPpm := rd p 8 2 }

/-- The setup as the keepsake area holds it (R293, R535, R548, R653): MOT_A_CONFIG at 0, MOT_A_GENLOCK at 28, at 40 one
bit for each part given, CHN_HDA_SET at 41, 32 zones of 12 bytes at 85, the log area at 469. -/
def keptSetup (s : State) : Bytes := fit 481 (bestKeep s.boot).genlock.setup

/-- Persist one part of the setup: its bytes at an offset, and its bit. -/
def keepSetup (off bit : Nat) (b : Bytes) (s : State) : State :=
  let k := keptSetup s
  let k1 := k.take off ++ b ++ k.drop (off + b.length)
  let k2 := k1.take 40 ++ leBytes 1 (byteAt k 40 ||| 2 ^ bit) ++ k1.drop 41
  keepUpdate (fun c => { c with genlock := { present := byteAt k2 40 % 4 == 3, setup := k2 } }) s

/-- 0x0801 MOT_A_CONFIG (Table MOT.7, R535). -/
def cmdMotAConfig : Cmd :=
  { op := 0x0801, rights := byOwner 2, islands := fun s _ => s.supply.isl.motor, len := exactly 28
    fields := fun _ _ p =>
      inRange 1 8 (byteAt p 0) && byteAt p 1 ≤ 3 && inRange 100 3000 (rd p 2 2) && inRange 10 2000 (rd p 4 2) &&
      inRange 6 600 (rd p 6 2) && inRange 50 20000 (rd p 8 2) && inRange 3 30 (byteAt p 10) && byteAt p 11 ≤ 30 &&
      inRange 1000 3000 (rd p 12 2) && inRange 1000 4500 (rd p 14 2) && inRange 100 3000 (rd p 16 2) &&
      inRange 12600 13800 (rd p 18 2) && inRange 5 60 (rd p 20 2) && inRange 10 45 (byteAt p 22) && byteAt p 23 == 0 &&
      inRange 50 500 (rd p 24 2) && inRange 5 25 (rd p 26 2)
    run := fun s _ p =>
      if !aIdle s then .done St.busy [] s
      else if s.timebase.persistFails then .done St.internal [] s
      else .done St.ok [] ((keepSetup 0 0 p s).updA fun a => { a with cfg := motAConfigOf p, cfgSet := true }) }

/-- 0x0802 MOT_A_START (R495, R535, R524). -/
def cmdMotAStart : Cmd :=
  { op := 0x0802, rights := byOwner 2, modes := fun m => m = .run, islands := fun s _ => s.supply.isl.motor
    run := fun s _ _ =>
      if !aIdle s then .done St.busy [] s
      else if !setupInForce s then .done St.notReady [] s
      else .accept { waits := true } (startA s) }

/-- 0x0803 MOT_A_STOP (R511, R515, R537, R538). -/
def cmdMotAStop : Cmd :=
  { op := 0x0803, rights := byOwner 2, islands := fun s _ => s.supply.isl.motor, len := exactly 4
    fields := fun _ _ p => byteAt p 0 ≤ 1 && zeroAt p 1 3
    run := fun s _ p =>
      let s1 := if byteAt p 0 = 1 then emergencyStop s else controlledStop s
      .accept { waits := !aIdle s1, status := if s1.motor.a.state = .fault then St.notReady else St.ok } s1 }

/-- A phase within a revolution: at most one period less 1 ns (Table MOT.8). -/
def phaseInPeriod (rate ns : Nat) : Bool :=
  let (n, d) := rateOf rate
  (ns + 1) * n ≤ d * 1000000000

/-- 0x0804 MOT_A_GENLOCK (Table MOT.8, R502, R510, R535). -/
def cmdMotAGenlock : Cmd :=
  { op := 0x0804, rights := byOwner 2, islands := fun s _ => s.supply.isl.motor, len := exactly 12
    fields := fun _ _ p =>
      inRange 0x0B 0x0D (byteAt p 0) && byteAt p 1 ≤ 3 && inRange 10 200 (rd p 2 2) && phaseInPeriod (byteAt p 0) (rd p 4 4) &&
      inRange 100 5000 (rd p 8 2) && zeroAt p 10 2
    run := fun s _ p =>
      let old := s.motor.a.gen
      let new := genlockOf p
      if new.rate ≠ old.rate ∧ !aIdle s then .done St.busy [] s
      else if s.timebase.persistFails then .done St.internal [] s
      else
        let s1 := (keepSetup 28 1 p s).updA fun a => { a with gen := new, genSet := true }
        let s2 := if new.phaseNs ≠ old.phaseNs ∨ new.flags.testBit 1 ≠ old.flags.testBit 1 then rephase s1 else s1
        let free : Bool := !new.flags.testBit 0 && (s2.motor.a.state = .locked || s2.motor.a.state = .pullIn)
        .done St.ok [] (if free then spinTo .atSpeed s2 else s2) }

/-- Code of channel A's state (Table MOT.2). -/
def spinCode : SpinState → Nat
  | .stopped => 0
  | .align => 1
  | .ramp => 2
  | .accel => 3
  | .atSpeed => 4
  | .pullIn => 5
  | .locked => 6
  | .decel => 7
  | .brake => 8
  | .harvest => 9
  | .fault => 10

/-- 0x0805 MOT_A_STATUS (Table MOT.9). -/
def cmdMotAStatus : Cmd :=
  { op := 0x0805, rights := byReader 2, limited := always
    run := fun s _ _ =>
      let a := s.motor.a
      let locking : Bool := a.state = .pullIn || a.state = .locked
      .done St.ok (leBytes 1 (spinCode a.state) ++
        leBytes 1 (b2n a.regen + 2 * b2n a.clamp + 4 * b2n a.indexSeen + 8 * b2n (setupInForce s)) ++
        leBytes 1 a.cause ++ zeros 1 ++ leBytes 4 a.speed ++ leInt 4 (if locking then sat32 a.phaseErr else 0) ++
        leBytes 2 s.supply.vin ++ leBytes 2 a.vinMa ++ leBytes 2 a.phaseMa ++ leBytes 2 a.starts ++
        leBytes 2 a.handoverFails ++ leBytes 2 a.regenEvents ++ leBytes 4 (min 0xFFFFFFFF (a.runUs / 1000000))) s }

/-- Channel B leaves FAULT by a command, and its target is taken again (R529, R530). -/
def commandB (s : State) : State :=
  retargetB (s.updB fun b => if b.state = .fault then { b with state := .stopped, events := [], cause := 0 } else b)

/-- 0x0811 MOT_B_CONFIG (Table MOT.10, R529, R536). -/
def cmdMotBConfig : Cmd :=
  { op := 0x0811, rights := byOwner 5, islands := fun s _ => s.supply.isl.motor, len := exactly 28
    fields := fun _ _ p =>
      inRange 1 16 (byteAt p 0) && byteAt p 1 ≤ 3 && byteAt p 2 ≤ 7 && inRange 1 20 (byteAt p 3) && inRange 20 50 (rd p 4 2) &&
      inRange 100 30000 (rd p 6 2) && inRange (rd p 6 2) 30000 (rd p 8 2) &&
      (rd p 10 2 == 0 || inRange (rd p 6 2) (rd p 8 2) (rd p 10 2)) && decide (rd p 12 2 < rd p 14 2) && decide (rd p 16 2 ≤ rd p 12 2) &&
      rd p 18 2 ≤ 2000 && inRange 10 2000 (rd p 20 2) && inRange 100 60000 (rd p 22 2) && inRange 10 10000 (rd p 24 2) &&
      inRange 10 2000 (rd p 26 2)
    run := fun s _ p =>
      .done St.ok [] (commandB (s.updB fun b =>
        { b with configured := true, polePairs := byteAt p 0, source := byteAt p 1, flags := byteAt p 2, deadtime := byteAt p 3
                 pwmKhz := rd p 4 2, minRpm := rd p 6 2, maxRpm := rd p 8 2, lossRpm := rd p 10 2, inLo := rd p 12 2
                 inHi := rd p 14 2, inStop := rd p 16 2, isnsZero := rd p 18 2, isnsGain := rd p 20 2, ocMa := rd p 22 2
                 accel := rd p 24 2, alignMs := rd p 26 2, lost := b.lost && byteAt p 1 == b.source
                 cmdValue := if byteAt p 1 = b.source then b.cmdValue else 0
                 command := if b.command = 0 then 0 else max (rd p 6 2) (min (rd p 8 2) b.command) })) }

/-- 0x0812 MOT_B_SET_SPEED (R529, R530, R547). -/
def cmdMotBSetSpeed : Cmd :=
  { op := 0x0812, rights := byOwner 5, islands := fun s _ => s.supply.isl.motor, len := exactly 4
    fields := fun s _ p =>
      s.motor.b.source == 0 && (rd p 0 2 == 0 || inRange s.motor.b.minRpm s.motor.b.maxRpm (rd p 0 2)) && zeroAt p 2 2
    run := fun s _ p => .done St.ok [] (commandB (s.updB fun b => { b with command := rd p 0 2 })) }

/-- Code of channel B's state (MOT_B_STATUS). -/
def bCode : BState → Nat
  | .stopped => 0
  | .align => 1
  | .ramp => 2
  | .accel => 3
  | .running => 6
  | .brake => 8
  | .fault => 10

/-- 0x0813 MOT_B_STATUS. -/
def cmdMotBStatus : Cmd :=
  { op := 0x0813, rights := byReader 5, limited := always
    run := fun s _ _ =>
      let b := s.motor.b
      .done St.ok (leBytes 1 (bCode b.state) ++ leBytes 1 b.cause ++ leBytes 2 b.speed ++ leBytes 2 b.target ++
        leBytes 2 b.current ++ leBytes 2 b.cmdValue ++ leBytes 1 (b2n b.lost) ++ zeros 3) s }

/-- The meaning of MOT_A_CONFIG. -/
def execMotAConfig (c : Call) (s : State) : Res := command cmdMotAConfig c s
/-- The meaning of MOT_A_START. -/
def execMotAStart (c : Call) (s : State) : Res := command cmdMotAStart c s
/-- The meaning of MOT_A_STOP. -/
def execMotAStop (c : Call) (s : State) : Res := command cmdMotAStop c s
/-- The meaning of MOT_A_GENLOCK. -/
def execMotAGenlock (c : Call) (s : State) : Res := command cmdMotAGenlock c s
/-- The meaning of MOT_A_STATUS. -/
def execMotAStatus (c : Call) (s : State) : Res := command cmdMotAStatus c s
/-- The meaning of MOT_B_CONFIG. -/
def execMotBConfig (c : Call) (s : State) : Res := command cmdMotBConfig c s
/-- The meaning of MOT_B_SET_SPEED. -/
def execMotBSetSpeed (c : Call) (s : State) : Res := command cmdMotBSetSpeed c s
/-- The meaning of MOT_B_STATUS. -/
def execMotBStatus (c : Call) (s : State) : Res := command cmdMotBStatus c s

end Sys2Proof.Machine
end

