-- ==== Sys2Proof/Machine/CalOps.lean ====
section
/-!
DEFINITION. What the calibration runs PTP_CAL_RUN (R467) and CAS_CAL_RUN (R900) share: the TIM_IN input they arm and
their results.
-/
namespace Sys2Proof.Machine
open Sys2Proof

/-- A TIM_IN input is taken by a command (R487). -/
def timInTaken (s : State) (i : Nat) : Bool := (vat s.timebase.timIn i).mode != 0

/-- Arm a TIM_IN input for a calibration run, or disarm it after one. -/
def armTimIn (i mode : Nat) (s : State) : State :=
  s.updTb fun b => { b with timIn := upd b.timIn i fun x => { x with mode, edge := 0, rate := if mode = 0 then x.rate else 0x10 } }

/-- The integer mean of a list, rounded towards minus infinity (log entry 16). -/
def meanOf (l : List Int) : Int := if l.isEmpty then 0 else l.foldl (· + ·) 0 / l.length

/-- The integer standard deviation of a list: the root of the mean squared deviation, rounded down (log entry 16). -/
def stddevOf (l : List Int) : Nat :=
  let m := meanOf l
  Nat.sqrt ((l.foldl (fun a x => a + (x - m).natAbs ^ 2) 0) / max 1 l.length)

/-- The result of a calibration run: MEAN, STDDEV, SAMPLES, DROPPED, PROPOSED_ASYM_PS. -/
def calResult (es : List Int) (samples : Nat) (proposed : Int) : Bytes :=
  leInt 4 (meanOf es) ++ leBytes 4 (stddevOf es) ++ leBytes 2 samples ++ leBytes 2 (samples - es.length) ++ leInt 4 proposed

end Sys2Proof.Machine
end

