-- ==== Sys2Proof/Machine/Cascade.lean ====
section
/-!
DEFINITION. The cascade: frames and blocks received, the lanes' events, the heartbeats and the 0x0Bxx commands
(spec/17_declin_cascade.md). Mirrored recording is in Mirror.lean, forwarded requests in Mailbox.lean, forwarded records
in Recorder.lean.
-/
namespace Sys2Proof.Machine
open Sys2Proof

/-! ### Discovery (R872 to R878) -/

/-- CASC_ROLE_CONFLICT. -/
def roleConflict (s : State) : State :=
  crumb 0x0BA5 4 0 (anyPayload 0x0BA5 [s.cascade.position, s.boot.role]) (s.updCas fun c => { c with conflictTold := true })

/-- The role a strap and a position give (Table CAS.1). -/
def roleAt (role pos : Nat) : Acting := if role = 3 ∧ pos = 1 then .spare else .rafter

/-- A DISCOVER gives position `p` (Table CAS.1, R875, R876): a position other than the one held re-phases the spindle. -/
def takePosition (p : Nat) (s : State) : State :=
  if 8 ≤ p then
    if s.cascade.outside then s else roleConflict (s.updCas fun c => { c with outside := true, valid := false })
  else
    let moved := !s.cascade.valid || s.cascade.position != p
    let s1 := s.updCas fun c => { c with position := p, valid := true, outside := false, acting := roleAt s.boot.role p }
    let s2 := if moved then crumb 0x0B80 2 0 (anyPayload 0x0B80 [p]) (rephase s1) else s1
    if s.boot.role = 3 ∧ 2 ≤ p ∧ !s.cascade.conflictTold then roleConflict s2 else s2

/-- DISCOVER on the CU lane (R875, R923). -/
def onDiscover (lane : Nat) (p : Bytes) (s : State) : State :=
  let s0 := s.updCas fun c => { c with leaseSeen := max c.leaseSeen (rd p 4 6) }
  if lane ≠ 0 ∨ !(s.boot.role = 2 ∨ s.boot.role = 3) then s0
  else if s.cascade.acting = .actingRidge then
    laneSend 0 0x05 (byteAt p 0) s.cascade.position (leBytes 1 1 ++ leBytes 1 s.cascade.position ++ zeros 2) s0
  else
    let s1 := takePosition (byteAt p 0 + 1) (s0.updLane 0 fun x => { x with peer := true })
    if s1.cascade.outside then s1
    else if (s1.laneOf 1).state = .up ∨ (s1.laneOf 1).state = .switching then sendDiscover s1
    else endOfChain s1.cascade.position 0 s1

/-- DISCOVER. -/
def execDiscover (rx : LaneRx) (s : State) : Res := laneRow 0x01 rx (onDiscover rx.lane.val) s

/-- DISCOVER_END on the CD lane (R875). -/
def onDiscoverEnd (lane : Nat) (p : Bytes) (s : State) : State :=
  let s0 := s.updCas fun c => { c with leaseSeen := max c.leaseSeen (rd p 4 6) }
  if lane ≠ 1 then s0
  else
    let s1 := (s0.updCas fun c => { c with discoverAt := none }).updLane 1 fun x => { x with peer := true }
    endOfChain (byteAt p 0) (rd p 4 6) s1

/-- DISCOVER_END. -/
def execDiscoverEnd (rx : LaneRx) (s : State) : Res := laneRow 0x02 rx (onDiscoverEnd rx.lane.val) s

/-- DISCOVER_SEND: the head of a chain sends DISCOVER on a CD link that is up (R874). -/
def execDiscoverSend (s : State) : Res :=
  s.running fun s => if headsChain s && s.cascade.valid && (s.laneOf 1).state == .up then sendDiscover s else s

/-- DISCOVER_END_TIMEOUT: no DISCOVER_END within 10 ms (R875, R878, R925). -/
def execDiscoverEndTimeout (waitedUs : Nat) (s : State) : Res :=
  s.running fun s =>
    if s.cascade.discoverAt.isNone ∨ waitedUs < 10000 then s
    else
      let s1 := if (s.laneOf 1).state = .up then roleConflict s else s
      rafterLost s1

/-! ### Time (R892 to R898) -/

/-- CHAIN_TIME in this module's DOWN frames (R895, R923, R924, R933). -/
def chainTimeNow (s : State) : Bool :=
  let c := s.cascade
  s.timebase.valid &&
    match c.acting with
    | .ridge | .actingRidge => true
    | .displaced => c.handbackTime
    | .rafter | .spare => (s.laneOf 0).state == .up && c.chainTime
    | .standalone => false

/-- The quality this module sends down (R896). -/
def qualityNow (s : State) : TimeQuality := if headsChain s then (announced s).1 else s.cascade.quality

/-- The traceability this module sends down. -/
def traceableNow (s : State) : Bool :=
  if headsChain s then (announced s).2 else s.cascade.quality.clockClass == 6 || s.cascade.quality.clockClass == 7

/-- A time as the TIME payload lays it out: 80-bit TAI, then the fraction. -/
def time12 (t : Time) : Bytes := t.bytes ++ leBytes 2 t.frac

/-- The time at an offset of a TIME payload. -/
def rdTime12 (p : Bytes) (o : Nat) : Time := { rdTime p o with frac := rd p (o + 10) 2 }

/-- A TIME payload (Table CAS.5). -/
def timePayload (dir exch : Nat) (tx rx : Time) (rxEx : Nat) (s : State) : Bytes :=
  let q := qualityNow s
  leBytes 1 dir ++
    leBytes 1 (b2n s.timebase.valid + 2 * b2n (dir == 1 && chainTimeNow s) + 4 * b2n (s.timebase.dpll == .holdover) +
      8 * b2n (!traceableNow s)) ++
    leBytes 2 exch ++ time12 tx ++ time12 rx ++ leBytes 2 rxEx ++ leBytes 1 q.clockClass ++ leBytes 1 q.clockAccuracy ++
    leBytes 2 q.variance ++ leBytes 1 q.timeSource ++ zeros 5

/-- TIME_FRAME_SEND: a DOWN frame leaves on the CD lane (R893). -/
def execTimeFrameSend (s : State) : Res :=
  s.running fun s =>
    let c := s.cascade
    if !laneOpen (s.laneOf 1) || !c.valid || c.outside || c.acting == .standalone then s
    else
      let s1 := laneSend 1 0x03 (c.position + 1) c.position (timePayload 1 c.exchange.2 c.cdTx c.cdRx c.cdRxExchange s) s
      s1.updCas fun c => { c with cdTx := s.timebase.now, exchange := (c.exchange.1, (c.exchange.2 + 1) % 65536) }

/-- The exchange a DOWN frame completes (R894): the offset and delay of the previous one, kept as the CASCADE
measurement; ASYM_PS is that of the rate the lane runs at. -/
def completeExchange (p : Bytes) (s : State) : State :=
  let c := s.cascade
  match c.t2, c.t3 with
  | some t2, some t3 =>
    if rd p 28 2 ≠ (c.exchange.1 + 65535) % 65536 then s
    else
      let t1 := (rdTime12 p 4).ps
      let t4 := (rdTime12 p 16).ps
      let asym := if (s.laneOf 0).quarter then c.asymQuarter else c.asymFull
      let off := ((t2.ps - t1) - (t4 - t3.ps)) / 2 - asym
      let s1 := s.updCas fun c =>
        { c with hopOffset := off, hopDelay := ((t2.ps - t1) + (t4 - t3.ps)) / 2, exchangeAt := s.up }
      let s2 := s1.updRef 3 fun r => { r with phaseErr := -off, active := true }
      if s2.timebase.selected = 3 then s2.updTb fun b => { b with phaseErr := -off } else s2
  | _, _ => s

/-- A DOWN frame on the CU lane: exchange, quality, CHAIN_TIME, and the UP frame that answers it (R893 to R897). -/
def onTimeDown (p : Bytes) (at_ : Time) (s : State) : State :=
  let s1 := completeExchange p s
  let chain := (byteAt p 1).testBit 1
  let s2 := s1.updCas fun c =>
    { c with t2 := some at_, chainTime := chain
             quality := { clockClass := byteAt p 30, clockAccuracy := byteAt p 31, variance := rd p 32 2
                          timeSource := byteAt p 34 } }
  let s3 := if chain then s2 else disqualify 3 8 s2
  if !laneOpen (s3.laneOf 0) then s3
  else
    let c := s3.cascade
    let s4 := laneSend 0 0x03 (c.position - 1) c.position
      (timePayload 2 c.exchange.1 (c.t3.getD {}) at_ (rd p 2 2) s3) s3
    s4.updCas fun c => { c with t3 := some s3.timebase.now, exchange := ((c.exchange.1 + 1) % 65536, c.exchange.2) }

/-- TIME: a TIME frame and its arrival (R894). -/
def execTime (rx : LaneRx) (sec ns frac : Nat) (s : State) : Res :=
  let t : Time := { sec, ns, frac }
  laneRow 0x03 rx (fun p s =>
    if rx.lane.val = 0 ∧ byteAt p 0 = 1 then onTimeDown p t s
    else if rx.lane.val = 1 ∧ byteAt p 0 = 2 then s.updCas fun c => { c with cdRx := t, cdRxExchange := rd p 2 2 }
    else s) s

/-- A pending schedule of an OFFSETS frame: none when its 16 bytes are zero. -/
def rdSched (p : Bytes) (o : Nat) : Option Sched :=
  if zeroAt p o 16 then none else some { instant := rd p o 6, flags := byteAt p (o + 7), value := rdS p (o + 8) 4 }

/-- OFFSETS: adopted under R85 while CASCADE is selected (R898). -/
def execOffsets (rx : LaneRx) (s : State) : Res :=
  laneRow 0x04 rx (fun p s =>
    if rx.lane.val = 0 ∧ s.timebase.selected = 3 ∧ followsUpstream s.timebase then
      adoptOffsets (rdS p 0 2) (rdS p 4 4) (rdSched p 8) (rdSched p 24) s
    else s) s

/-- OFFSETS_SEND: the offsets go down the CD lane (R898). -/
def execOffsetsSend (s : State) : Res :=
  s.running fun s =>
    let c := s.cascade
    if (s.laneOf 1).state ≠ .up ∨ !c.valid ∨ c.outside then s
    else laneSend 1 0x04 (c.position + 1) c.position (offsetsBytes s.timebase) s

/-! ### Roles, heartbeats (R919 to R924, R935) -/

/-- A ROLE frame (R923, R924). -/
def onRole (lane : Nat) (p : Bytes) (s : State) : State :=
  let op := byteAt p 0
  if lane ≠ 1 then s
  else if op = 1 ∧ s.cascade.acting = .ridge then
    crumb 0x0BA2 3 0 (anyPayload 0x0BA2 [byteAt p 1])
      (s.updCas fun c => { c with acting := .displaced, ridgePos := some (byteAt p 1), handbackTime := false })
  else if op = 2 ∧ s.cascade.acting = .displaced then s.updCas fun c => { c with handbackTime := true }
  else if op = 3 ∧ s.cascade.acting = .displaced then
    sendDiscover (beat (s.updCas fun c => { c with acting := .ridge, ridgePos := some 0, handbackTime := false }))
  else s

/-- ROLE. -/
def execRole (rx : LaneRx) (s : State) : Res := laneRow 0x05 rx (onRole rx.lane.val) s

/-- HEARTBEAT: a block on the CU lane, relayed on the CD lane; ignored by a module acting as Ridge (R919, R923). -/
def execHeartbeat (pos : Fin 8) (count : Nat) (pending : Bool) (s : State) : Res :=
  s.running fun s =>
    if !s.supply.isl.cascade || actsAsRidge s || s.cascade.acting == .displaced || (s.laneOf 0).state != .up then s
    else
      let s1 := s.updCas fun c =>
        { c with beatAt := some s.up, beat0At := if pos.val = 0 then s.up else c.beat0At, ridgePos := some pos.val, ridgeLost := false }
      if s1.cascade.outside then s1 else sendHeartbeat pos.val count pending s1

/-- HEARTBEAT_SEND: the acting Ridge sends a heartbeat (R919). -/
def execHeartbeatSend (s : State) : Res :=
  s.running fun s => if s.supply.isl.cascade && actsAsRidge s && s.cascade.valid then beat s else s

/-- A spare at position 1. -/
def isSpare (s : State) : Bool := s.cascade.acting == .spare && s.cascade.position == 1 && s.cascade.valid

/-- RIDGE_LOST: `sinceMs` without the heartbeat this module waits for (R920 to R922, R933). -/
def execRidgeLost (sinceMs : Nat) (s : State) : Res :=
  s.running fun s =>
    let mayLose := (s.cascade.acting == .spare || s.cascade.acting == .rafter) && !s.cascade.ridgeLost && s.campel
    if !mayLose || sinceMs < (if isSpare s then 2000 else 3000) then s
    else
      let s1 := crumb 0x0BA0 4 0 (anyPayload 0x0BA0 [s.cascade.position]) (s.updCas fun c => { c with ridgeLost := true, ridgePos := none })
      if isSpare s then
        crumb 0x0BA1 3 0 (anyPayload 0x0BA1 [s.cascade.position])
          (beat (s1.updCas fun c => { c with acting := .actingRidge, ridgePos := some c.position }))
      else s1

/-- HANDBACK_TIMEOUT: a handback not complete within 600 s (R924). -/
def execHandbackTimeout (forS : Nat) (s : State) : Res :=
  s.running fun s => if 600 ≤ forS then handbackFails s else s

/-! ### Leases (R910) -/

/-- LEASE_REQ: granted by the acting Ridge; a module that relays it learns its number. -/
def execLeaseReq (rx : LaneRx) (s : State) : Res :=
  s.running (laneFrame 0x06 rx (fun p s => s.updCas fun c => { c with leaseSeen := max c.leaseSeen (rd p 0 6) }) fun p s =>
    let s0 := s.updCas fun c => { c with leaseSeen := max c.leaseSeen (rd p 0 6) }
    if !actsAsRidge s0 then s0
    else
      let (n, s1) := grantLease s0
      sendTo rx.origin.val 0x07 (leBytes 6 n ++ zeros 2) s1)

/-- LEASE_GRANT: 4,096 numbers for this module; a module that relays it learns its number. -/
def execLeaseGrant (rx : LaneRx) (s : State) : Res :=
  s.running (laneFrame 0x07 rx (fun p s => s.updCas fun c => { c with leaseSeen := max c.leaseSeen (rd p 0 6) }) fun p s =>
    takeLease (rd p 0 6) (s.updCas fun c => { c with leaseSeen := max c.leaseSeen (rd p 0 6) }))

/-! ### Copies (R907, R908, R937) -/

/-- The 16 bytes before a COPY frame's data: copy tag in place of POSITION, then Table CAS.6 from LENGTH on; a frame
without data asks for the bytes of the remote yealm, and the tag of a frame that brings them has bit 15 set (log entry 14). -/
def copyBody (tag : Nat) (d : Bytes) : Bytes := leBytes 2 tag ++ slice d 6 14

/-- Complete a CAS_COPY: its yealm is unpinned (R908). -/
def copyDone (x : Sub) (status : Nat) (s : State) : State :=
  completeSub x.ring 0x30 status x.tag (if status = St.ok then rd x.desc 6 2 else 0) 0 []
    (unpin (hIndex (rd x.desc 8 4)) { s with subs := s.subs.erase x })

/-- A CAS_COPY's fields (Table CAS.6). -/
def copyFields (s : State) (t : Nat) (d : Bytes) : Bool :=
  let len := rd d 6 2
  byteAt d 1 ≤ 1 && byteAt d 4 ≤ 7 && byteAt d 4 != s.cascade.position && byteAt d 5 == 0 && 1 ≤ len && len ≤ 4096 &&
    rd d 16 2 + len ≤ 4096 && rd d 18 2 + len ≤ 4096 && zeroAt d 20 11 && usable s t (rd d 8 4)

/-- A CAS_COPY of tenant `t` was consumed from ring `n` (R907, R908; the completion slot is held). -/
def copyRun (n t : Nat) (d : Bytes) (s : State) : State :=
  let tag := rd d 2 2
  let a := yAddr (hIndex (rd d 8 4)) (rd d 16 2)
  if !copyFields s t d then completeSub n 0x30 St.badField tag 0 0 [] s
  else if !present s (byteAt d 4) then completeSub n 0x30 St.notReady tag 0 0 [] s
  else if byteAt d 1 = 0 ∧ s.loft.poisoned a (rd d 6 2) then completeSub n 0x30 St.loftPoison tag 0 0 [] s
  else
    let ct := if s.cascade.copyTag = 0x7FFF then 1 else s.cascade.copyTag + 1
    let x : Sub := { ring := n, tenant := t, cls := 0x30, tag, desc := d, ctag := ct }
    let s1 := pin (hIndex (rd d 8 4)) { s.updCas fun c => { c with copyTag := ct } with subs := s.subs ++ [x] }
    sendTo (byteAt d 4) 0x30 (copyBody ct d ++ (if byteAt d 1 = 0 then loftRead s a (rd d 6 2) else [])) s1

/-- The CAS_COPY of this module with a copy tag. -/
def findCopy (s : State) (ctag : Nat) : Option Sub := s.subs.find? fun x => x.cls == 0x30 && x.ctag == ctag

/-- Answer a COPY with COPY_ACK. -/
def copyAck (pos tag status : Nat) (s : State) : State :=
  sendTo pos 0x31 (leBytes 2 tag ++ leBytes 1 status ++ zeros 1) s

/-- A COPY that names a yealm of this module: the owner named must be let in by FORWARD_MASK (R905), and own it here. -/
def serveCopy (origin : Nat) (p : Bytes) (s : State) : State :=
  let tag := rd p 0 2
  let len := rd p 2 2
  let remote := rd p 8 4
  let t := hOwner remote
  let a := yAddr (hIndex remote) (rd p 14 2)
  let data := p.drop 16
  if !s.cascade.forwardMask.testBit t then copyAck origin tag St.notPermitted s
  else if hOwner (rd p 4 4) ≠ t ∨ !usable s t remote ∨ 4096 < rd p 14 2 + len then copyAck origin tag St.badField s
  else if !data.isEmpty then copyAck origin tag St.ok (loftWrite a (data.take len) s)
  else if s.loft.poisoned a len then copyAck origin tag St.loftPoison s
  else
    let s1 := pin (hIndex remote) (s.updCas fun c => { c with serving := c.serving ++ [(origin, tag, hIndex remote)] })
    sendTo origin 0x30 (leBytes 2 (tag + 0x8000) ++ slice p 2 14 ++ loftRead s a len) s1

/-- COPY: data for a yealm of this module, or a request for data (R908). -/
def onCopy (origin : Nat) (p : Bytes) (s : State) : State :=
  let tag := rd p 0 2
  if tag < 0x8000 then serveCopy origin p s
  else
    let s1 := copyAck origin tag St.ok s
    match findCopy s1 (tag - 0x8000) with
    | none => s1
    | some x =>
      copyDone x St.ok (loftWrite (yAddr (hIndex (rd x.desc 8 4)) (rd x.desc 16 2)) ((p.drop 16).take (rd x.desc 6 2)) s1)

/-- COPY. -/
def execCopy (rx : LaneRx) (s : State) : Res := laneRow 0x30 rx (onCopy rx.origin.val) s

/-- COPY_ACK: a copy of this module completes, or one it served ends (R908). -/
def onCopyAck (origin : Nat) (p : Bytes) (s : State) : State :=
  let tag := rd p 0 2
  if tag < 0x8000 then
    match findCopy s tag with
    | some x => copyDone x (byteAt p 2) s
    | none => s
  else match s.cascade.serving.find? fun x => x.1 == origin && x.2.1 == tag - 0x8000 with
    | some x => unpin x.2.2 (s.updCas fun c => { c with serving := c.serving.erase x })
    | none => s

/-- COPY_ACK. -/
def execCopyAck (rx : LaneRx) (s : State) : Res := laneRow 0x31 rx (onCopyAck rx.origin.val) s

/-! ### Boot from the Ridge (R918) -/

/-- IMAGE frames of an image from an offset on, 4,096 bytes each. -/
def sendImage (img : Bytes) : Nat → Nat → State → State
  | 0, _, s => s
  | fuel + 1, off, s =>
    if img.length ≤ off then s
    else sendImage img fuel (off + 4096)
      (laneSend 1 0x41 (s.cascade.position + 1) s.cascade.position
        (leBytes 4 off ++ leBytes 4 img.length ++ slice img off 4096) s)

/-- IMAGE_REQ on the CD lane: a module in the Campel stage answers with the image it booted, at full rate (R918, R309). -/
def execImageReq (rx : LaneRx) (s : State) : Res :=
  laneRow 0x40 rx (fun p s =>
    if rx.lane.val ≠ 1 ∨ !s.campel then s
    else
      let s1 := if (s.laneOf 1).quarter then askRate 1 false s else s
      sendImage s.boot.imageBytes (s.boot.imageBytes.length / 4096 + 1) (rd p 0 4) s1) s

/-- IMAGE: a module that boots from the cascade fills its push area (R918, R280, R281). -/
def execImage (rx : LaneRx) (s : State) : Res :=
  laneRow 0x41 rx (fun p s =>
    let off := rd p 0 4
    let d := p.drop 8
    if rx.lane.val ≠ 0 ∨ s.boot.stage ≠ .rom ∨ s.boot.source ≠ 3 ∨ off ≠ s.cascade.image.length ∨ 1048576 < off + d.length then s
    else loftWrite (yAddr 12288 off) d (s.updCas fun c => { c with image := c.image ++ d, imageLen := rd p 4 4 })) s

/-- IMAGE_REQ_RETRY: asked once per second until IMAGE frames arrive, and after 10 ms without progress (R918). -/
def execImageReqRetry (waitedUs : Nat) (s : State) : Res :=
  s.running fun s =>
    let c := s.cascade
    let need := if c.image.isEmpty then 1000000 else 10000
    if s.boot.stage ≠ .rom ∨ s.boot.source ≠ 3 ∨ waitedUs < need ∨ (!c.image.isEmpty ∧ c.imageLen ≤ c.image.length) then s
    else laneSend 0 0x40 0 c.position (leBytes 4 c.image.length) s

/-! ### Lane events (R882 to R891, R930, R931) -/

/-- CREDIT: credit returned, frames up to ACK_FSEQ acknowledged, NAK asks for a resend (R883 to R886). -/
def onCredit (l ack : Nat) (nak : Bool) (cs : List Nat) (s : State) : State :=
  let ln := s.laneOf l
  let left := match ln.unacked.findIdx? fun f => f.fseq == ack with
    | some i => ln.unacked.drop (i + 1)
    | none => ln.unacked
  let s1 := s.updLane l fun x =>
    { x with unacked := left, resends := if left.length < ln.unacked.length then 0 else x.resends
             credit := Vector.ofFn fun (i : Fin 4) => vat x.credit i.val + cs.getD i.val 0 }
  pumpLane l (rateDue l (if nak then resend l s1 else s1))

/-- CREDIT. -/
def execCredit (lane : Fin 2) (ack : Nat) (nak : Bool) (c0 c1 c2 c3 : Nat) (s : State) : Res :=
  s.running fun s =>
    if s.supply.isl.cascade ∧ ((s.laneOf lane.val).state = .up ∨ (s.laneOf lane.val).state = .switching) then
      onCredit lane.val ack nak [c0, c1, c2, c3] s
    else s

/-- ACK_TIMEOUT: 100 µs without a new ACK_FSEQ (R885). -/
def execAckTimeout (lane : Fin 2) (waitedUs : Nat) (s : State) : Res :=
  s.running fun s => if 100 ≤ waitedUs then resend lane.val s else s

/-- LANE_LINK_UP: 10 ms of block lock and a CREDIT block (R882): the link runs at full rate, what is unacknowledged is
sent again, the head of a chain sends DISCOVER, a lease that is wanted is asked for again (R874, R886, R887). -/
def execLaneLinkUp (lane : Fin 2) (lockMs : Nat) (credit : Bool) (s : State) : Res :=
  s.running fun s =>
    let l := lane.val
    if !laneFitted s l ∨ lockMs < 10 ∨ !credit ∨ (s.laneOf l).state = .up ∨ (s.laneOf l).state = .switching then s
    else
      let s1 := raiseSrc (70 + l) ((setRate l false s).updLane l fun x => { x with state := .up, downAt := none })
      let s2 := pumpLane l (if (s1.laneOf l).unacked.isEmpty then s1 else laneCount l 4 (s1.laneOf l).unacked.length (emitResent l s1))
      let s3 := if l = 1 && headsChain s2 && s2.cascade.valid then sendDiscover s2 else s2
      if s3.cascade.leaseWanted then askLease s3 else s3

/-- LANE_LINK_DOWN: block lock is lost; at a rate switch that alone does not take the link down (R882, R890). -/
def execLaneLinkDown (lane : Fin 2) (s : State) : Res :=
  s.running fun s => if (s.laneOf lane.val).state = .up then linkDown lane.val s else s

/-- RATE_IDLE: transmit use below 5 % for 10 s on a full-rate AUTO lane (R888). -/
def execRateIdle (lane : Fin 2) (use forS : Nat) (s : State) : Res :=
  s.running fun s =>
    let ln := s.laneOf lane.val
    if laneOpen ln && !ln.quarter && ln.policy == .auto && decide (use < 5) && decide (10 ≤ forS) && !ln.reqDown then
      askRate lane.val true s
    else s

/-- REQ_DOWN received: ACK_DOWN when this module's own use allows it, else REFUSE (R888); of two that cross the upstream
module's stands, and REQ_UP wins over it (R891). -/
def execReqDown (lane : Fin 2) (count use forS : Nat) (s : State) : Res :=
  s.running fun s =>
    let l := lane.val
    let ln := s.laneOf l
    if !laneOpen ln || (ln.reqDown && l == 1) || ln.reqUp then s
    else if ln.policy ≠ .full ∧ use < 5 ∧ 10 ≤ forS then
      (rateBlock l 2 count s).updLane l fun x => { x with switchTo := some true, reqDown := false, due := none }
    else (rateBlock l 5 count s).updLane l fun x => { x with reqDown := false }

/-- REQ_UP received: always ACK_UP (R889). -/
def execReqUp (lane : Fin 2) (count : Nat) (s : State) : Res :=
  s.running fun s =>
    let l := lane.val
    if !laneOpen (s.laneOf l) then s
    else (rateBlock l 4 count s).updLane l fun x => { x with switchTo := some false, reqDown := false, reqUp := false, due := none }

/-- ACK_DOWN received: the switch is fixed COUNT blocks later (R890). -/
def execAckDown (lane : Fin 2) (_count : Nat) (s : State) : Res :=
  s.running fun s =>
    let l := lane.val
    if laneOpen (s.laneOf l) && (s.laneOf l).reqDown then
      s.updLane l fun x => { x with switchTo := some true, reqDown := false }
    else s

/-- ACK_UP received (R890). -/
def execAckUp (lane : Fin 2) (_count : Nat) (s : State) : Res :=
  s.running fun s =>
    let l := lane.val
    if laneOpen (s.laneOf l) && (s.laneOf l).reqUp then
      s.updLane l fun x => { x with switchTo := some false, reqUp := false }
    else s

/-- REFUSE received: the lane stays at full rate (R888). -/
def execRefuse (lane : Fin 2) (s : State) : Res :=
  s.running fun s => s.updLane lane.val fun x => { x with reqDown := false }

/-- RATE_STEP_UP_DEMAND: queue, wait or use at quarter rate, or the FULL policy (R889). -/
def execRateStepUpDemand (lane : Fin 2) (queued waitUs use : Nat) (s : State) : Res :=
  s.running fun s =>
    let ln := s.laneOf lane.val
    if laneOpen ln && ln.quarter && ln.policy != .quarter && !ln.reqUp &&
        (decide (16384 ≤ queued) || decide (5 ≤ waitUs) || decide (25 < use) || ln.policy == .full) then
      askRate lane.val false s
    else s

/-- RATE_SWITCH: COUNT blocks have passed; both sides change rate (R890). -/
def execRateSwitch (lane : Fin 2) (s : State) : Res :=
  s.running fun s =>
    let l := lane.val
    match (s.laneOf l).state, (s.laneOf l).switchTo with
    | .up, some q =>
      laneCount l (if q then 9 else 10) 1 ((setRate l q s).updLane l fun x => { x with state := .switching, switchTo := none })
    | _, _ => s

/-- RATE_RELOCK: block lock was regained within 30 µs and has held for `us`; or it was not, and the link is down
(R890, R931). -/
def execRateRelock (lane : Fin 2) (locked : Bool) (us : Nat) (s : State) : Res :=
  s.running fun s =>
    let l := lane.val
    if (s.laneOf l).state ≠ .switching then s
    else if !locked then linkDown l s
    else if 10 ≤ us then pumpLane l (s.updLane l fun x => { x with state := .up })
    else s

/-! ### Commands (R927 to R929) -/

/-- 0x0Bxx but CAS_GET_STATUS on a standalone module answer NOT_READY (R873). -/
def chained (f : State → Nat → Bytes → Reply) (s : State) (t : Nat) (p : Bytes) : Reply :=
  if s.boot.role = 0 then .done St.notReady [] s else f s t p

/-- The cascade island runs (R47). -/
def cascadeRuns (s : State) (_ : Bytes) : Bool := s.supply.isl.cascade

/-- LANES of CAS_GET_STATUS for one lane. -/
def laneByte (s : State) (l : Nat) : Nat :=
  laneCode s l + 4 * b2n (s.laneOf l).quarter + 8 * b2n (s.laneOf l).encrypt + 16 * b2n (s.laneOf l).peer

/-- ACTING's code (Table CAS.11). -/
def Acting.code : Acting → Nat
  | .standalone => 0
  | .ridge => 1
  | .rafter => 2
  | .spare => 3
  | .actingRidge => 4
  | .displaced => 5

/-- MODULES as SYS_GET_INFO reports it (R873, R875). -/
def modulesOf (s : State) : Nat := if s.cascade.acting = .standalone then 1 else s.cascade.modules

/-- 0x0B01 CAS_GET_STATUS (Table CAS.11). -/
def cmdCasGetStatus : Cmd :=
  { op := 0x0B01, limited := always
    run := fun s _ _ =>
      let c := s.cascade
      .done St.ok (leBytes 1 c.acting.code ++ leBytes 1 (c.ridgePos.getD 255) ++ leBytes 1 (modulesOf s) ++ zeros 1 ++
        leBytes 1 (laneByte s 0) ++ leBytes 1 (laneByte s 1) ++ leBytes 2 ((c.beatAt.map fun a => min 65535 ((s.up - a) / 1000)).getD 65535) ++
        leInt 4 c.hopOffset ++ leInt 4 c.hopDelay ++ leBytes 6 ((c.lease.map (·.1)).getD 0) ++ zeros 2) s }

/-- A slot holds a GCM key (R777). -/
def gcmSlot (s : State) (i : Nat) : Bool := (s.key i).kind == 3

/-- 0x0B02 CAS_LANE_SET (Table CAS.10, R901 to R903). -/
def cmdCasLaneSet : Cmd :=
  { op := 0x0B02, rights := byZero, islands := cascadeRuns, len := exactly 8
    fields := fun _ _ p => byteAt p 0 ≤ 1 && byteAt p 1 ≤ 2 && byteAt p 2 ≤ 3 && byteAt p 3 ≤ 15 && byteAt p 4 ≤ 15 &&
      (byteAt p 5 ≤ 15 || byteAt p 5 == 255) && zeroAt p 6 2
    run := chained fun s _ p =>
      if !(gcmSlot s (byteAt p 3) && (s.key (byteAt p 3)).formNonce && gcmSlot s (byteAt p 4) &&
          (byteAt p 5 == 255 || gcmSlot s (byteAt p 5))) then .done St.badField [] s
      else
        let l := byteAt p 0
        let s1 := s.updLane l fun x =>
          { x with policy := match byteAt p 1 with
                     | 1 => .full
                     | 2 => .quarter
                     | _ => .auto
                   encrypt := (byteAt p 2).testBit 0, require := (byteAt p 2).testBit 1, txSlot := byteAt p 3
                   rxSlot := byteAt p 4, rxNext := byteAt p 5, keyTold := false }
        let ln := s1.laneOf l
        .done St.ok [] (pumpLane l (if laneOpen ln && ln.quarter && ln.policy == .full && !ln.reqUp then askRate l false s1 else s1)) }

/-- 0x0B03 CAS_ASYM_SET (R894). -/
def cmdCasAsymSet : Cmd :=
  { op := 0x0B03, rights := byZero, islands := cascadeRuns, len := exactly 8
    run := chained fun s _ p => .done St.ok [] (s.updCas fun c => { c with asymFull := rdS p 0 4, asymQuarter := rdS p 4 4 }) }

/-- 0x0B04 CAS_CAL_RUN (R900). -/
def cmdCasCalRun : Cmd :=
  { op := 0x0B04, rights := byZero, islands := cascadeRuns, len := exactly 8
    fields := fun _ _ p => byteAt p 0 ≤ 3 && byteAt p 1 ≤ 1 && 16 ≤ rd p 2 2 && rd p 2 2 ≤ 3600
    run := chained fun s _ p =>
      if timInTaken s (byteAt p 0) || s.cascade.cal.isSome then .done St.busy [] s
      else .accept { waits := true } (armTimIn (byteAt p 0) 2 (s.updCas fun c =>
        { c with cal := some { input := byteAt p 0, rate := byteAt p 1, samples := rd p 2 2, refDelay := rdS p 4 4 } })) }

/-- CAS_CAL_RUN_END: SAMPLES seconds have passed; PHASE_ERR of each edge expected (R900). -/
def execCasCalRunEnd (errs : List (Option Int)) (s : State) : Res :=
  s.running fun s =>
    match s.cascade.cal, findJob s 0x0B04 0 with
    | some c, some j =>
      if errs.length ≠ c.samples then s
      else
        let es := (errs.filterMap id).map fun e => e - c.refDelay
        let s1 := armTimIn c.input 0 (s.updCas fun x => { x with cal := none })
        if c.samples < 2 * (c.samples - es.length) then completeJob j St.notReady [] s1
        else
          let asym := if c.rate = 0 then s.cascade.asymFull else s.cascade.asymQuarter
          completeResult j (calResult es c.samples (asym - meanOf es)) s1
    | _, _ => s

/-- 0x0B05 CAS_FORWARD_SET (R905, R916). -/
def cmdCasForwardSet : Cmd :=
  { op := 0x0B05, rights := byZero, islands := cascadeRuns, len := exactly 4
    fields := fun _ _ p => (byteAt p 1 ≤ 5 || byteAt p 1 == 255) && zeroAt p 2 2
    run := chained fun s _ p => .done St.ok [] (s.updCas fun c => { c with forwardMask := byteAt p 0, fwdMin := byteAt p 1 }) }

/-- 0x0B06 CAS_HANDBACK (R924). -/
def cmdCasHandback : Cmd :=
  { op := 0x0B06, rights := byZero, islands := cascadeRuns
    run := chained fun s _ _ =>
      if s.cascade.acting ≠ .actingRidge ∨ (s.laneOf 0).state ≠ .up ∨ s.cascade.handback then .done St.busy [] s
      else .accept { waits := true } (laneSend 0 0x05 0 s.cascade.position (leBytes 1 2 ++ leBytes 1 s.cascade.position ++ zeros 2)
        (s.updCas fun c => { c with handback := true })) }

/-- 0x0B07 CAS_COUNTERS. -/
def cmdCasCounters : Cmd :=
  { op := 0x0B07, rights := byZero, islands := cascadeRuns, len := exactly 4
    fields := fun _ _ p => byteAt p 0 ≤ 1 && zeroAt p 1 3
    run := chained fun s _ p =>
      let l := byteAt p 0
      .done St.ok ((List.range 12).flatMap fun i =>
        leBytes 8 (vat (s.laneOf l).counters i + if i = 11 then quarterSeconds s l else 0)) s }

/-- CAS_GET_STATUS. -/
def execCasGetStatus (c : Call) (s : State) : Res := command cmdCasGetStatus c s
/-- CAS_LANE_SET. -/
def execCasLaneSet (c : Call) (s : State) : Res := command cmdCasLaneSet c s
/-- CAS_ASYM_SET. -/
def execCasAsymSet (c : Call) (s : State) : Res := command cmdCasAsymSet c s
/-- CAS_CAL_RUN. -/
def execCasCalRun (c : Call) (s : State) : Res := command cmdCasCalRun c s
/-- CAS_FORWARD_SET. -/
def execCasForwardSet (c : Call) (s : State) : Res := command cmdCasForwardSet c s
/-- CAS_HANDBACK. -/
def execCasHandback (c : Call) (s : State) : Res := command cmdCasHandback c s
/-- CAS_COUNTERS. -/
def execCasCounters (c : Call) (s : State) : Res := command cmdCasCounters c s

end Sys2Proof.Machine
end

