-- ==== Sys2Proof/Machine/Recorder.lean ====
section
/-!
DEFINITION. The Breadcrumb recorder: its stores, its reading, its 0x09xx commands and the forwarding of records
(spec/16_breadcrumb_recorder.md; R916, R917, R938 of spec/17_declin_cascade.md).
-/
namespace Sys2Proof.Machine
open Sys2Proof

/-! ### Finding and delivering records (R848, R849, R860, R861) -/

/-- A record of staging or the journal, and whether its CRC fails. -/
def windowRecord (r : Recorder) (seq : Nat) : Option JSlot :=
  match r.staging.find? fun x => x.seq == seq with
  | some x => some { record := x }
  | none => (r.journal.find? fun p => p.2.record.seq == seq).map (·.2)

/-- Insert a record by its sequence. -/
def insSeq (x : Record) : List Record → List Record
  | [] => [x]
  | y :: l => if x.seq ≤ y.seq then x :: y :: l else y :: insSeq x l

/-- Records in ascending sequence. -/
def bySeq (l : List Record) : List Record := l.foldr insSeq []

/-- The records of the chronicle: its sectors, oldest index first, and the sector being filled. -/
def chronRecords (r : Recorder) : List Record := (r.chron.flatMap (·.2)) ++ r.openSector

/-- A record that the chronicle holds. -/
def chronRecord (r : Recorder) (seq : Nat) : Option Record := (chronRecords r).find? fun x => x.seq == seq

/-- The chronicle can be read. -/
def chronReadable (s : State) : Bool := chronNow s = .active

/-- A record held anywhere that can be read now. -/
def heldRecord (s : State) (seq : Nat) : Option JSlot :=
  match windowRecord s.recorder seq with
  | some j => some j
  | none => if chronReadable s then (chronRecord s.recorder seq).map fun x => { record := x } else none

/-- The record is hidden from a tenant (R848). -/
def hiddenFrom (t : Nat) (x : Record) : Bool := x.flags.testBit 0 && t != 0 && x.tenant != t

/-- A hidden record's bytes: 16 to 19 and 24 to 59 zero (R848). -/
def hideBytes (b : Bytes) : Bytes := b.take 16 ++ zeros 4 ++ slice b 20 4 ++ zeros 36 ++ b.drop 60

/-- A stored slot's bytes; a CORRUPT record's stored bytes are what the record was, its CRC wrong (log entry 17). -/
def JSlot.bytes (j : JSlot) : Bytes :=
  let b := j.record.bytes
  if j.corrupt then b.take 56 ++ (slice b 56 4).map (fun x => ~~~x) ++ b.drop 60 else b

/-- What a fetch delivers: CODE of Table BRC.7 and the 64 bytes. -/
def deliver (t head seq : Nat) (found : Option JSlot) : Nat × Bytes :=
  if head < seq then (4, zeros 64)
  else match found with
    | none => (2, zeros 64)
    | some j =>
      if j.corrupt then (5, j.bytes)
      else if hiddenFrom t j.record then (3, hideBytes j.bytes)
      else (0, j.bytes)

/-- Fetch into a tenant's window (R849): BRC_DATA is filled for READY and HIDDEN. -/
def windowFetch (t : Nat) (s : State) : State :=
  let w := vat s.recorder.window t
  let (code, b) := deliver t s.recorder.head w.seq (windowRecord s.recorder w.seq)
  s.updRec fun r => { r with window := upd r.window t fun w =>
    { w with code := code, data := if code = 0 ∨ code = 3 then b else w.data } }

/-- A tenant may read records through its window: READY or FAULTED, in the Campel stage (R848, R212). -/
def mayRead (s : State) (t : Nat) : Bool :=
  s.supply.isl.host && s.campel && ((s.ten t).state == .ready || (s.ten t).state == .faulted)

/-- BRC_READ_SEQ_LO: a write starts a fetch (R849). -/
def writeSeqLo (t v : Nat) (s : State) : State :=
  if !mayRead s t then s
  else windowFetch t (s.updRec fun r => { r with window := upd r.window t fun w => { w with seq := w.seq / 2 ^ 32 * 2 ^ 32 + v } })

/-- BRC_READ_SEQ_LO. -/
def execBrcReadSeqLo (t : Fin 8) (value : BitVec 32) (s : State) : Res := s.running (writeSeqLo t.val value.toNat)

/-- A read of BRC_DATA15 with AUTO set advances the sequence and fetches (R850). -/
def data15Read (t : Nat) (s : State) : State :=
  if mayRead s t && (vat s.recorder.window t).auto then
    windowFetch t (s.updRec fun r => { r with window := upd r.window t fun w => { w with seq := (w.seq + 1) % 2 ^ 48 } })
  else s

/-- BRC_DATA15_READ: the read returns bytes 60 to 63, then R850. -/
def execBrcData15Read (t : Fin 8) (s : State) : Res :=
  s.running fun s =>
    if !mayRead s t.val then s
    else data15Read t.val (s.emit (.pcie (slice (vat s.recorder.window t.val).data 60 4) false))

/-! ### The chronicle pointer (R843) -/

/-- Persist the chronicle pointer and the forward pointer in the keepsake area (R843, R916). -/
def persistPointer (s : State) : State :=
  let r := s.recorder
  let p : ChronPtr := { nextIndex := r.nextIndex, firstSeq := r.firstSeq, header := r.header, collected := r.collected
                        forward := s.cascade.fwdPtr }
  keepUpdate (fun k => { k with pointer := p }) (s.updRec fun r => { r with pointer := p, sincePersist := 0 })

/-- Data sectors of each half: indices 1 to H - 1 (R835). -/
def chronH (s : State) : Nat :=
  match s.channel.format with
  | some f => (f.raSectors - 4096) / 2
  | none => 0

/-! ### The journal (R830 to R833, R852 to R855) -/

/-- Burn the next clear row of the tally and raise source 118; nothing when none is clear (R855, R285). -/
def burnTally (s : State) : State :=
  let n := tally s
  if 64 ≤ n then s
  else
    let w := counterMark 8 n
    raiseSrc 118 ((s.updBoot fun b => { b with otp := mset b.otp (256 + n) w }).emit (.otp (256 + n) w))

/-- A record that is written straight to the chronicle takes the next sequence and enters the open sector (R853). -/
def straightToChronicle (x : Record) (s : State) : State :=
  s.updRec fun r =>
    { r with head := r.head + 1, openSector := r.openSector ++ [{ x with seq := r.head + 1 }]
             openSince := if r.openSector.isEmpty then s.up else r.openSince }

/-- The NVM is faulted (R853): record, tally row, source 114, markers; from here the recorder is disk-only. -/
def nvmFault (bank : Nat) (s : State) : State :=
  let full : Bool := 64 ≤ tally s
  let after := if full then 64 else tally s + 1
  let p := leBytes 1 bank ++ leBytes 2 s.recorder.retired.length ++ leBytes 1 after ++ leBytes 1 (b2n full)
  let x : Record := { time := s.timebase.now, source := 114, code := 0x09A0, severity := 5, flags := recordFlags 1 s, payload := fit 32 p }
  let s1 := if chronNow s = .active then straightToChronicle x s else enterRecord x s
  recorderWatch (raiseSrc 114 (burnTally (s1.updRec fun r => { r with nvmFaulted := true })))

/-- The oldest staged record is written and verified in its slot (R831). -/
def journalOne (s : State) : State :=
  match s.recorder.staging with
  | [] => s
  | x :: rest =>
    s.updRec fun r =>
      { r with journal := mset r.journal r.target { record := x }, nextSlot := (r.target + 1) % 8000, staging := rest }

/-- JOURNAL_SLOT_WRITE: the oldest staged record goes to the next slot; a slot that fails its verify is retired, the 64th
or a bank fault faults the NVM (R830, R831, R852, R853). -/
def execJournalSlotWrite (ok : Bool) (bankFault : Option (Fin 2)) (s : State) : Res :=
  s.running fun s0 =>
    let s := syncChron s0
    let r := s.recorder
    if !s.campel || r.staging.isEmpty || !r.journalTakes then s
    else match bankFault with
      | some b =>
        nvmFault b.val (s.updRec fun r => { r with bankOk := if b.val = 0 then (false, r.bankOk.2) else (r.bankOk.1, false) })
      | none =>
        if ok then recorderWatch (journalOne s)
        else
          let n := r.target
          let s1 := s.updRec fun r => { r with retired := setIns r.retired n, nextSlot := (n + 1) % 8000, journal := mdel r.journal n }
          if 64 ≤ s1.recorder.retired.length then nvmFault (n / 4000) s1
          else crumb 0x09A5 3 0 (anyPayload 0x09A5 [n]) s1

/-- RECORDS_DROPPED: staging has room again (R833). -/
def execRecordsDropped (s : State) : Res :=
  s.running fun s =>
    let r := s.recorder
    match r.dropTimes with
    | none => s
    | some (a, b) =>
      if !s.campel ∨ 64 ≤ r.staging.length then s
      else
        crumb 0x09A1 4 0 (r.dropCounts.flatMap (leBytes 4 ·) ++ leBytes 4 a ++ leBytes 4 b)
          (s.updRec fun r => { r with dropCounts := [0, 0, 0, 0, 0, 0], dropTimes := none })

/-- Write every staged record to the journal as far as it may take them, and persist the pointer (R834, R871). -/
def flushStaging (s : State) : State :=
  persistPointer (Nat.repeat (fun s => if s.recorder.journalTakes then journalOne s else s) s.recorder.staging.length (syncChron s))

/-! ### The chronicle (R835 to R846) -/

/-- The data sector about to be overwritten holds records above COLLECTED: how many (R845). -/
def uncollected (r : Recorder) : Nat :=
  ((mgetD r.chron r.nextIndex []).filter fun x => r.collected < x.seq).length

/-- The records that may enter the open sector: unchronicled ones of the journal, or of staging when disk-only (R854). -/
def nextRecords (r : Recorder) : List Record :=
  let last := max r.chronicled ((r.openSector.getLast?.map (·.seq)).getD 0)
  let l := if r.nvmFaulted then r.staging else (r.journal.map (·.2.record))
  bySeq (l.filter fun x => last < x.seq)

/-- Move records into the open sector; it begins at its first record (R836, R843, R845). -/
def fillSector (s : State) : State :=
  let r := s.recorder
  let new := (nextRecords r).take (64 - r.openSector.length)
  if new.isEmpty then s
  else
    let lost := if r.openSector.isEmpty then uncollected r else 0
    let s1 := s.updRec fun r =>
      { r with
          openSector := r.openSector ++ new
          openSince := if r.openSector.isEmpty then s.up else r.openSince
          firstSeq := if r.openSector.isEmpty then (new.head?.map (·.seq)).getD 0 else r.firstSeq
          full := if r.openSector.isEmpty then lost != 0 else r.full
          overwritten := add32 r.overwritten lost
          staging := if r.nvmFaulted then r.staging.filter fun x => !new.any fun y => y.seq == x.seq else r.staging }
    let again : Bool := match r.fullAt with
      | some t => decide (t + 3600000000 ≤ s.up)
      | none => true
    if lost ≠ 0 ∧ again then raiseSrc 116 (s1.updRec fun r => { r with fullAt := some s.up }) else s1

/-- Both copies of the open sector were written: what is chronicled, the next index, the pointer (R835 to R837, R843). -/
def sectorWritten (okA okB : Bool) (s : State) : State :=
  let r := s.recorder
  let whole : Bool := 64 ≤ r.openSector.length
  let last := (r.openSector.getLast?.map (·.seq)).getD r.chronicled
  let s1 := s.updRec fun r =>
    { r with
        chron := mset r.chron r.nextIndex r.openSector
        chronicled := if okA || okB then max r.chronicled last else r.chronicled
        nextIndex := if whole && (okA || okB) then (if chronH s ≤ r.nextIndex + 1 then 1 else r.nextIndex + 1) else r.nextIndex
        openSector := if whole && (okA || okB) then [] else r.openSector
        sincePersist := r.sincePersist + 1
        lag := false }
  let s2 := if okA != okB then crumb 0x09A3 4 0 (anyPayload 0x09A3 [r.nextIndex, b2n okA]) s1 else s1
  recorderWatch (if 256 ≤ s2.recorder.sincePersist then persistPointer s2 else s2)

/-- CHRONICLE_SECTOR_WRITE: in RUN, when the sector is full or 1 s after its first record (R836 to R838). -/
def execChronicleSectorWrite (okA okB : Bool) (waitedUs : Nat) (s : State) : Res :=
  s.running fun s0 =>
    let s := syncChron s0
    if !s.campel ∨ chronNow s ≠ .active ∨ s.supply.pfail ∨ s.channel.wgBlocked then s
    else
      let s1 := fillSector s
      if s1.recorder.openSector.isEmpty ∨ (s1.recorder.openSector.length < 64 ∧ waitedUs < 1000000) then s
      else sectorWritten okA okB s1

/-- CHRONICLE_STARTED: blank headers in RUN are written anew (R840); a foreign chronicle is reported once per boot
(R841). -/
def execChronicleStarted (s : State) : Res :=
  s.running fun s =>
    if !s.campel ∨ s.supply.mode ≠ .run then s
    else match s.channel.format, s.recorder.header with
      | some f, none =>
        let z := (mget f.zones 0).map (·.rate)
        let h : ChronHeader := { identity := identityRows s, raCyl := f.raCyl, zone0Rate := z.getD 0, raSectors := f.raSectors
                                 epoch := s.boot.epoch, collected := 0 }
        let s1 := s.updRec fun r =>
          { r with header := some h, collected := 0, chron := [], openSector := [], nextIndex := 1, chronicled := 0, full := false
                   headerAt := some s.up }
        crumb 0x0984 2 0 (anyPayload 0x0984 [f.raCyl, f.raSectors]) (persistPointer (syncChron s1))
      | some _, some h =>
        if h.identity != identityRows s && !s.recorder.foreignLogged then
          crumb 0x09A2 5 0 (anyPayload 0x09A2 (h.identity.map fun n => (n : Int)))
            (s.updRec fun r => { r with foreignLogged := true })
        else s
      | _, _ => s

/-- CHRONICLE_LAG: the oldest unchronicled record has waited 60 s (R844). -/
def execChronicleLag (waitedS : Nat) (s : State) : Res :=
  s.running fun s =>
    if s.campel && chronNow s = .active && decide (60 ≤ waitedS) && s.recorder.unchronicled != 0 && !s.recorder.lag then
      raiseSrc 113 (s.updRec fun r => { r with lag := true })
    else s

/-- TIGHT_LEFT: no condition of tight mode has held for 10 s (R847). -/
def execTightLeft (forS : Nat) (s : State) : Res :=
  s.running fun s0 =>
    let s := syncChron s0
    let r := s.recorder
    if !r.tight || r.tightNow || decide (forS < 10) then s
    else
      crumb 0x0982 2 0 (leBytes 4 r.skipped.1 ++ leBytes 4 r.skipped.2 ++ leBytes 4 ((s.up - r.tightSince) / 1000000))
        (s.updRec fun r => { r with tight := false, skipped := (0, 0) })

/-! ### Commands (R859 to R863) -/

/-- Lowest sequence of a list, 0 when it is empty. -/
def lowestSeq (l : List Record) : Nat := l.foldl (fun m x => if m = 0 then x.seq else min m x.seq) 0

/-- STATE of Table BRC.10. -/
def recorderState (s : State) : Nat :=
  if s.recorder.exhausted then 4
  else if s.recorder.nvmFaulted then (if chronNow s = .active then 2 else 3)
  else if s.recorder.tight then 1 else 0

/-- Table BRC.6's code. -/
def ChronState.code : ChronState → Nat
  | .none => 0
  | .active => 1
  | .foreign => 2
  | .unavailable => 3

/-- 0x0901 BRC_GET_STATUS (Table BRC.10). -/
def cmdBrcGetStatus : Cmd :=
  { op := 0x0901, limited := always
    run := fun s _ _ =>
      let r := s.recorder
      .done St.ok (leBytes 1 (recorderState s) ++ leBytes 1 (chronNow s).code ++ leBytes 1 (tally s) ++
        leBytes 1 r.staging.length ++ leBytes 6 r.head ++ leBytes 6 (lowestSeq (r.journal.map (·.2.record))) ++
        leBytes 6 (lowestSeq (chronRecords r)) ++ leBytes 6 r.chronicled ++ leBytes 6 r.collected ++
        leBytes 2 r.retired.length ++ leBytes 4 r.dropped ++ leBytes 4 r.tightSkipped ++ leBytes 4 r.overwritten ++
        leBytes 4 r.afterExhaustion) s }

/-- A record needed is only in an UNAVAILABLE chronicle. -/
def onlyUnavailable (s : State) (seq : Nat) : Bool :=
  chronNow s = .unavailable && (windowRecord s.recorder seq).isNone && (chronRecord s.recorder seq).isSome

/-- One slot of a BRC_READ: CODE, and its bytes with the delivery mark (R861). -/
def readSlot (s : State) (t seq : Nat) : Nat × Bytes :=
  let (code, b) := deliver t s.recorder.head seq (heldRecord s seq)
  (code, b.take 60 ++ leBytes 1 code ++ b.drop 61)

/-- 0x0902 BRC_READ (R848, R860, R861). -/
def cmdBrcRead : Cmd :=
  { op := 0x0902, limited := always, len := exactly 12
    fields := fun s t p => 1 ≤ byteAt p 6 && byteAt p 6 ≤ 64 && byteAt p 7 == 0 && usable s t (rd p 8 4)
    run := fun s t p =>
      let l := (List.range (byteAt p 6)).map fun i => rd p 0 6 + i
      if l.any (onlyUnavailable s) then .done St.notReady [] s
      else
        let got := l.map (readSlot s t)
        let count (f : Nat → Bool) : Bytes := leBytes 1 (got.filter fun g => f g.1).length
        let i := hIndex (rd p 8 4)
        .accept { pins := [i], result := slice p 8 4 ++ count (· == 0) ++ count (fun c => c == 2 || c == 4) ++ count (· == 3) ++ count (· == 5) }
          (pin i (loftWrite (yAddr i 0) (got.flatMap (·.2)) s)) }

/-- Every record that can be read now, ascending by sequence. -/
def allRecords (s : State) : List Record :=
  let r := s.recorder
  let l := r.staging ++ (r.journal.map (·.2.record)) ++ if chronReadable s then chronRecords r else []
  bySeq l

/-- The lowest sequence whose TIME is at or after a time, among records with TIME_VALID; 0 when none is (R860). -/
def findSeq (l : List Record) (t : Time) : Nat :=
  ((l.find? fun x => x.flags.testBit 1 && t.inNs ≤ x.time.inNs).map (·.seq)).getD 0

/-- 0x0903 BRC_FIND (R860). -/
def cmdBrcFind : Cmd :=
  { op := 0x0903, limited := always, len := exactly 16
    fields := fun s t p => decide (rd p 0 4 < 1000000000) && zeroAt p 10 2 && usable s t (rd p 12 4)
    run := fun s _ p =>
      let t := rdTime p 0
      let all := bySeq (s.recorder.staging ++ s.recorder.journal.map (·.2.record) ++ chronRecords s.recorder)
      let n := findSeq all t
      if n ≠ 0 ∧ onlyUnavailable s n then .done St.notReady [] s
      else
        let i := hIndex (rd p 12 4)
        .accept { pins := [i], result := slice p 12 4 } (pin i (loftWrite (yAddr i 0) (leBytes 6 (findSeq (allRecords s) t)) s)) }

/-- 0x0904 BRC_WRITE (R862). A record that tight mode skips answers sequence 0, and BUSY answers a full staging (log
entry 18). -/
def cmdBrcWrite : Cmd :=
  { op := 0x0904, len := exactly 36
    fields := fun _ _ p => 0x09F0 ≤ rd p 0 2 && rd p 0 2 ≤ 0x09FF && byteAt p 2 ≤ 3 && byteAt p 3 ≤ 1
    run := fun s t p =>
      let recent := lastSecond s.up (vat s.recorder.writes t)
      if s.recorder.exhausted then .done St.wrongMode [] s
      else if 16 ≤ recent.length ∨ 64 ≤ s.recorder.staging.length then .done St.busy [] s
      else
        let x : Record := { time := s.timebase.now, source := 0x0109, code := rd p 0 2, tenant := t, severity := byteAt p 2
                            flags := recordFlags 1 s ||| 16 ||| byteAt p 3, payload := slice p 4 32 }
        let skip : Bool := s.recorder.tight && byteAt p 2 ≤ 1
        let s1 := record x (s.updRec fun r => { r with writes := vset r.writes t (s.up :: recent) })
        .done St.ok (leBytes 6 (if skip then 0 else s.recorder.head + 1)) s1 }

/-- 0x0905 BRC_COLLECTED (R846, R863). -/
def cmdBrcCollected : Cmd :=
  { op := 0x0905, rights := byZero, len := exactly 8, fields := fun _ _ p => zeroAt p 6 2
    run := fun s _ p =>
      let n := rd p 0 6
      if s.recorder.head < n then .done St.badField [] s
      else if n ≤ s.recorder.collected then .done St.ok [] s
      else
        let late : Bool := match s.recorder.headerAt with
          | some t => decide (t + 60000000 ≤ s.up)
          | none => true
        .done St.ok [] (persistPointer (s.updRec fun r =>
          { r with
              collected := n
              full := r.full && (mgetD r.chron r.nextIndex []).any fun x => n < x.seq
              header := if late then r.header.map fun h => { h with collected := n } else r.header
              headerAt := if late then some s.up else r.headerAt })) }

/-- 0x0906 BRC_NVM_RETEST (R856). -/
def cmdBrcNvmRetest : Cmd :=
  { op := 0x0906, rights := byZero
    run := fun s _ _ =>
      if !s.recorder.nvmFaulted ∨ inFlight s 0x0906 then .done St.busy [] s else .accept {} s }

/-- A retest ends: with both headers writable and at most 63 slots failing the journal is used again (R856). -/
def retestEnd (j : Job) (fail : Option Nat) (slots : List Nat) (s : State) : State :=
  if fail.isSome ∨ 63 < slots.length then completeJob j St.mediumError [] s
  else
    let r := slots.foldl setIns []
    completeJob j St.ok [] (crumb 0x0985 2 0 (anyPayload 0x0985 [r.length])
      (s.updRec fun x => { x with nvmFaulted := false, retired := r, bankOk := (true, true)
                                  journal := x.journal.filter fun p => !r.contains p.1 || x.chronicled < p.2.record.seq }))

/-- BRC_GET_STATUS. -/
def execBrcGetStatus (c : Call) (s : State) : Res := command cmdBrcGetStatus c s
/-- BRC_READ. -/
def execBrcRead (c : Call) (s : State) : Res := command cmdBrcRead c s
/-- BRC_FIND. -/
def execBrcFind (c : Call) (s : State) : Res := command cmdBrcFind c s
/-- BRC_WRITE. -/
def execBrcWrite (c : Call) (s : State) : Res := command cmdBrcWrite c s
/-- BRC_COLLECTED. -/
def execBrcCollected (c : Call) (s : State) : Res := command cmdBrcCollected c s
/-- BRC_NVM_RETEST. -/
def execBrcNvmRetest (c : Call) (s : State) : Res := command cmdBrcNvmRetest c s

/-! ### Forwarding over the chain (R916, R917, R938) -/

/-- A record read from its 64 bytes. -/
def rdRecord (p : Bytes) : Record :=
  { seq := rd p 0 6, time := rdTime p 6, source := rd p 16 2, code := rd p 18 2, tenant := byteAt p 20, severity := byteAt p 21
    flags := rd p 22 2, payload := slice p 24 32 }

/-- RECORD: the acting Ridge records it with FORWARDED and ORIGIN (R917); a recorder that has stopped counts it (R938). -/
def execRecord (rx : LaneRx) (s : State) : Res :=
  laneRow 0x20 rx (fun p s =>
    let x := rdRecord p
    if !actsAsRidge s then s
    else record { x with flags := x.flags % 64 + 64 + 128 * rx.origin.val } s) s

/-- The next record to forward after the pointer: the lowest held one of at least FWD_MIN that was not itself
forwarded. -/
def nextForward (s : State) : Option Record :=
  (allRecords s).find? fun x => s.cascade.fwdPtr < x.seq && s.cascade.fwdMin ≤ x.severity && !x.flags.testBit 6

/-- Sequences between the pointer and a record that are held no longer (R916). -/
def skippedBefore (s : State) (seq : Nat) : Nat :=
  (seq - s.cascade.fwdPtr - 1) - ((allRecords s).filter fun x => s.cascade.fwdPtr < x.seq && x.seq < seq).length

/-- RECORD_FORWARD: a Rafter sends the next record to the acting Ridge (R916). -/
def execRecordForward (s : State) : Res :=
  s.running fun s =>
    match s.cascade.ridgePos, nextForward s with
    | some p, some x =>
      if !s.campel ∨ actsAsRidge s ∨ s.cascade.acting = .displaced ∨ s.cascade.fwdMin = 255 ∨ !present s p then s
      else
        sendTo p 0x20 x.bytes (s.updCas fun c =>
          { c with fwdPtr := x.seq, fwdSkipped := c.fwdSkipped + skippedBefore s x.seq })
    | _, _ => s

end Sys2Proof.Machine
end

