-- ==== Sys2Proof/Machine/RecOps.lean ====
section
/-!
DEFINITION. The recording log: segment records, hand-over of closed sectors, the outcome of a sector's write, block
summaries, mirrored copies (spec/12_disk_queue_and_recording.md, R646 to R660; R911 to R914 of
spec/17_declin_cascade.md).
-/
namespace Sys2Proof.Machine
open Sys2Proof

/-! ### Segment records (R656 to R660) -/

/-- Table DSK.9. -/
def segBytes (g : Segment) : Bytes :=
  leBytes 2 g.channel ++ leBytes 1 g.flags ++ zeros 1 ++ leBytes 6 g.start ++ leBytes 6 g.stop ++ leBytes 6 g.firstLba ++
    leBytes 6 g.lastLba ++ leBytes 4 g.lastSeq

/-- A breadcrumb that carries a segment record. -/
def segCrumb (code sev : Nat) (g : Segment) (s : State) : State := crumb code sev (recOwner s) (segBytes g) s

/-- Change a segment of the directory. -/
def State.updSeg (s : State) (id : Nat) (f : Segment → Segment) : State :=
  s.updDsk fun d => { d with segs := d.segs.map fun g => if g.id = id then f g else g }

/-- A segment that is not retired. -/
def findSeg (s : State) (id : Nat) : Option Segment := s.diskq.segs.find? fun g => g.id == id && !g.retired

/-- The live segment of a channel with a START; the one opened last when there are several. -/
def segByStart (s : State) (n start : Nat) : Option Segment :=
  s.diskq.segs.reverse.find? fun g => g.channel == n && g.start == start && !g.retired

/-- A segment is retired: its record is written (R658, R674). -/
def retireSeg (g : Segment) (s : State) : State :=
  segCrumb 0x0492 2 g (s.updSeg g.id fun g => { g with retired := true })

/-- A segment closes: FLAGS, END, and its final record (R656, R657), with CUT at its last verified sector (R660, R673, R947); cut without a verified sector its END is open (log
entry 39). -/
def closeSeg (bits : Nat) (g : Segment) (s : State) : State :=
  let stop := if bits = 0 then g.stop else if g.verified.isSome then g.lastSec + 1 else s.draw 6 % 2 ^ 48
  let last := if bits = 0 then (g.lastLba, g.lastSeq) else g.verified.getD (g.lastLba, g.lastSeq)
  let g1 := { g with flags := (g.flags - g.flags % 2) ||| bits, stop := stop, lastLba := last.1, lastSeq := last.2 }
  segCrumb 0x0490 1 g1 ((if g.verified.isSome then s else s.drawn).updSeg g.id fun _ => g1)

/-- A sector handed over: its segment opens with it or goes on (R656). -/
def segmentTakes (n lba : Nat) (x : ClosedSector) (s : State) : State :=
  let gaps := 4 * (x.flags % 2)
  match findSeg s x.segment with
  | some g =>
    s.updSeg g.id fun g =>
      { g with lastLba := lba, lastSeq := max g.lastSeq x.lastSeq, flags := (if x.sealUse.isSome then g.flags else g.flags &&& 0xF7) ||| gaps }
  | none =>
    let g : Segment :=
      { id := x.segment, channel := n, origin := x.origin.map (·.1), flags := 1 + gaps + 8 * b2n x.sealUse.isSome + 64 * b2n x.origin.isSome, start := x.start
        stop := x.stop, firstLba := lba, lastLba := lba, lastSeq := x.lastSeq }
    segCrumb 0x048F 1 g (s.updDsk fun d => { d with segs := d.segs ++ [g] })

/-! ### The log (R653, R654, R658) -/

/-- First LBA and length of the log area. -/
def logFirst (s : State) : Nat := (s.diskq.logArea.map (·.1)).getD 0
/-- Length of the log area. -/
def logLen (s : State) : Nat := (s.diskq.logArea.map (·.2)).getD 0

/-- The log LBA after one, its block summaries left out. -/
def nextLog (s : State) (lba : Nat) : Nat :=
  let o := lba + 1 - logFirst s
  let o1 := if o % 256 = 255 then o + 1 else o
  logFirst s + o1 % max 1 (logLen s)

/-- Live segments whose FIRST_LBA lies in the block of an LBA. -/
def segsInBlock (s : State) (lba : Nat) : List Segment :=
  s.diskq.segs.filter fun g => !g.retired && (g.firstLba - logFirst s) / 256 == (lba - logFirst s) / 256

/-- The log is full: reported at most once per 60 s (R658). -/
def reportLogFull (s : State) : State :=
  let s1 := s.updDsk fun d => { d with logFull := true }
  if s.diskq.logFullAt.any fun t => decide (s.up < t + 60000000) then s1
  else crumb 0x04B2 3 (recOwner s) (anyPayload 0x04B2 [s.diskq.logNext]) (s1.updDsk fun d => { d with logFullAt := some s.up })

/-- The log enters the block of its next LBA: segments that begin there are retired; none when one is held (R658). -/
def enterBlock (s : State) : Option State :=
  if (s.diskq.logNext - logFirst s) % 256 ≠ 0 then some s
  else
    let l := segsInBlock s s.diskq.logNext
    if l.any fun g => g.flags.testBit 1 then none
    else some (l.foldl (fun s g => retireSeg g s) (s.updDsk fun d => { d with logFull := false }))

/-! ### Hand-over (R647, R651, R911) -/

/-- Reserve the sealing invocations of a sector; a refused seal leaves it unsealed, source 111 and a record at most once
per channel per second (R651). -/
def sealReserve (n : Nat) (x : ClosedSector) (s : State) : Option (Nat × Nat) × State :=
  match x.sealSlot with
  | none => (none, s)
  | some i =>
    let (st, c, s1) := keyStart (recOwner s) i 2 (verifyRetries s + 2) true s
    if st = St.ok then (some ((s1.key i).load, c), s1)
    else
      let s2 := raiseSrc 111 s1
      if (recChan s n).sealLogged.any fun t => decide (s.up < t + 1000000) then (none, s2)
      else (none, crumbOf 1 111 0x04B3 4 (recOwner s) (anyPayload 0x04B3 [n, i, st]) (s2.updRecChan n fun c => { c with sealLogged := some s.up }))

/-- MIRROR header, Table CAS.7. -/
def mirrorHeader (g n segS : Nat) (x : ClosedSector) : Bytes :=
  leBytes 8 g ++ leBytes 2 n ++ leBytes 1 (x.flags % 4) ++ zeros 1 ++ leBytes 4 x.firstSeq ++ leBytes 6 x.start ++ leBytes 4 segS ++ zeros 6

/-- The sector is mirrored: the next GSEQ, one MIRROR frame to each present module named (R652, R911); without a lease
it is not mirrored. -/
def mirrorOut (n : Nat) (x : ClosedSector) (s : State) : Option Nat × State :=
  let dests := ((List.range 8).filter fun p => 1 ≤ p ∧ x.mirror.testBit p ∧ present s p)
  if dests.isEmpty then (none, s)
  else match nextGseq s with
    | (none, s1) => (none, s1)
    | (some g, s1) =>
      let s2 := s1.updCas fun c => { c with mirrors := c.mirrors ++ [{ gseq := g, channel := n, base := x.base, waiting := dests }] }
      (some g, dests.foldl (fun s p => sendTo p 0x32 (mirrorHeader g n (x.stop - x.start) x ++ x.data) s) s2)

/-- GAP for a sector lost (R650), or for a whole sector's worth of sequences lost before this one, in its segment or across
a boundary (R646). -/
def gapBefore (c : RecChan) (x : ClosedSector) : Bool :=
  x.origin.isNone && (c.lostNext || (!c.framed && c.handed.any fun h =>
    decide ((if h.1 = x.segment then h.2.1 + c.slots else h.2.2 + 1) + c.slots ≤ x.base)))

/-- The next sector of a channel to hand over: the first closed one, once no lower sector is open (R647). -/
def nextClosed (c : RecChan) : Option ClosedSector :=
  match c.closed.find? fun x => x.lba.isNone with
  | none => none
  | some x =>
    if x.origin.isNone && c.opened.any fun o => decide (o.segment < x.segment) || (o.segment == x.segment && decide (o.base < x.base))
    then none else some x

/-- A closed sector is handed to the disk queue with the next log LBA (R647, R656). -/
def handOver (n : Nat) (s : State) : State :=
  let c := recChan s n
  match nextClosed c with
  | none => s
  | some x =>
    if s.diskq.logArea.isNone || decide (128 ≤ s.diskq.recTags) then s
    else match enterBlock s with
      | none => reportLogFull s
      | some s1 =>
        let lba := s1.diskq.logNext
        let x1 := if gapBefore c x then { x with flags := x.flags ||| 1 } else x
        let (use, s2) := sealReserve n x1 s1
        let (g, s3) := if x.origin.isSome then (none, s2) else mirrorOut n x1 s2
        let x2 := { x1 with lba := some lba, tenant := recOwner s, sealUse := use, gseq := g, yealm := none }
        let s4 := match x.yealm with
          | some i => freeYealm i s3
          | none => s3
        let s5 := s4.updRecChan n fun c =>
          { c with closed := c.closed.map fun y => if y = x then x2 else y
                   handed := if x.origin.isNone then some (x.segment, x.base, x.lastSeq) else c.handed
                   lostNext := x.origin.isSome && c.lostNext }
        let s6 := if x2.flags % 2 = 1 ∧ x.origin.isNone then recCount n 8 s5 else s5
        segmentTakes n lba x2 (s6.updDsk fun d => { d with recTags := d.recTags + 1, logNext := nextLog s1 lba })

/-! ### Outcome of a sector's write (R586, R587, R648, R650, R912 to R914) -/

/-- The recording sector being written at a log LBA: its channel and the sector. -/
def recAt (s : State) (lba : Nat) : Option (Nat × ClosedSector) :=
  s.diskq.chans.findSome? fun p => (p.2.closed.find? fun x => x.lba == some lba && !x.ended).map fun x => (p.1, x)

/-- A sector leaves the channel's closed sectors. -/
def dropClosed (n : Nat) (x : ClosedSector) (s : State) : State :=
  s.updRecChan n fun c => { c with closed := c.closed.filter fun y => y.lba ≠ x.lba ∨ y.base ≠ x.base }

/-- A mirrored sector's result goes back to its origin and is kept for a repeat (R912, R936). -/
def mirrorAck (p g result : Nat) (s : State) : State :=
  sendTo p 0x33 (leBytes 8 g ++ leBytes 1 result ++ zeros 3)
    (s.updCas fun c => { c with mirrorIn := upd c.mirrorIn p fun m => { m with acked := mset m.acked g result } })

/-- An entry of the block summary being built (R654). -/
def summaryEntry (lba : Nat) (e : Bytes) (s : State) : State :=
  let o := lba - logFirst s
  s.updDsk fun d => { d with summary := mset d.summary (o / 256) (mset (mgetD d.summary (o / 256) []) (o % 256) e) }

/-- The own write of a sector is over: its tag and its key use end. -/
def recWriteOver (x : ClosedSector) (s : State) : State :=
  let s1 := s.updDsk fun d => { d with recTags := d.recTags - 1 }
  match x.sealUse, x.sealSlot with
  | some (l, _), some i => keyEnd i l s1
  | _, _ => s1

/-- A recording sector is lost (R650). -/
def recLost (n : Nat) (x : ClosedSector) (s : State) : State :=
  crumb 0x04B1 4 (recOwner s) (anyPayload 0x04B1 [n, x.firstSeq, x.lba.getD 0])
    ((recCount n 10 (dropClosed n x s)).updRecChan n fun c => { c with lostNext := true })

/-- The acknowledgements a mirrored sector of this module still waits for, and whether a copy is verified (R914). -/
def mirrorOf (s : State) (g : Option Nat) : Option MirrorOut := g.bind fun g => s.cascade.mirrors.find? fun m => m.gseq == g

/-- Forget a mirrored sector. -/
def mirrorDone (g : Option Nat) (s : State) : State :=
  s.updCas fun c => { c with mirrors := c.mirrors.filter fun m => some m.gseq ≠ g }

/-- The own copy of a recording sector is verified. -/
def recVerified (n lba : Nat) (x : ClosedSector) (st : Stamp) (s : State) : State :=
  let s1 := summaryEntry lba (slice (st.bytes false) 12 8) (recWriteOver x (if x.onSpare then relocated lba s else s))
  let s2 := (recCount n 9 (dropClosed n x s1)).updRecChan n fun c => { c with lastVerified := x.lastSeq }
  let s3 := s2.updSeg x.segment fun g =>
    if g.verified.any fun v => decide (x.lastSeq < v.2) then g else { g with lastSec := st.time.sec, verified := some (lba, x.lastSeq) }
  match x.origin with
  | some (p, g) => mirrorAck p g 0 s3
  | none => mirrorDone x.gseq s3

/-- The own copy of a recording sector failed on a spare, or no spare was free (R587, R650, R914). -/
def recFailed (n lba : Nat) (x : ClosedSector) (s : State) : State :=
  let s1 := summaryEntry lba (zeros 8) (recWriteOver x s)
  match x.origin with
  | some (p, g) => mirrorAck p g 1 (recLost n x s1)
  | none =>
    match mirrorOf s1 x.gseq with
    | some m =>
      if m.verified then dropClosed n x (mirrorDone x.gseq s1)
      else if m.waiting.isEmpty then recLost n x (mirrorDone x.gseq s1)
      else s1.updRecChan n fun c => { c with closed := c.closed.map fun y => if y = x then { y with ended := true } else y }
    | none => recLost n x s1

/-- Change a recording sector that is being written. -/
def updRecSector (n lba : Nat) (f : ClosedSector → ClosedSector) (s : State) : State :=
  s.updRecChan n fun c => { c with closed := c.closed.map fun y => if y.lba = some lba then f y else y }

/-- One write attempt of a recording sector has been verified or not (R586, R587, R633). -/
def recWritten (lba : Nat) (t : Time) (ok : Bool) (s : State) : State :=
  match recAt s lba with
  | none => s
  | some (n, x) =>
    let use : Option (Bytes × Nat × Nat) := x.sealUse.map fun u => (keyMaterial s (x.sealSlot.getD 0) u.1, u.1, u.2)
    let st := makeStamp s t x.tenant (x.flags + 4 * b2n x.onSpare) n x.firstSeq lba use x.data
    let s1 := putSector lba x.data st ok s
    let x1 := { x with sealUse := x.sealUse.map fun u => (u.1, u.2 + 1), tries := x.tries + 1 }
    let s3 := updRecSector n lba (fun _ => x1) s1
    if ok then recVerified n lba x1 st s3
    else
      let s4 := verifyFailed (x.tries == 0) s3
      if x.onSpare then recFailed n lba x1 s4
      else if x1.tries ≤ verifyRetries s then s4
      else if s.channel.sparesFree = 0 then recFailed n lba x1 s4
      else updRecSector n lba (fun y => { y with onSpare := true }) s4

end Sys2Proof.Machine
end

