-- ==== Sys2Proof/Machine/SectorOps.lean ====
section
/-!
DEFINITION. The outcome of one sector of an admitted disk command: a write attempt verified or not, a read decoded or not
(spec/11_read_channel_and_servo.md, R586 to R589; spec/12_disk_queue_and_recording.md, R620 to R628, R669, R670).
-/
namespace Sys2Proof.Machine
open Sys2Proof

/-- The medium can be worked on: heads on the medium, no PFAIL, a slice in service (R559, R568). -/
def mediumReady (s : State) : Bool := headsLoaded s && !s.supply.pfail && s.channel.slices.any id

/-- The medium can be written: PA_WG is not held low after a PFAIL (R559). -/
def mediumWritable (s : State) : Bool := mediumReady s && !s.channel.wgBlocked

/-- Sector `i` of a granted command is open: neither settled nor stopped by an abort (R619, R629). -/
def sectorOpen (c : DiskCmd) (i : Nat) : Bool :=
  c.granted && decide (i < c.count) && !c.done.contains i && !c.failed.contains i && (c.abort.isNone || c.onMedium == some i)

/-- A command after one of its sectors: an aborted one ends once its last verify has ended (R629). -/
def afterSector (id : Nat) (s : State) : State :=
  match findCmd s id with
  | some c => if c.abort.isSome && cmdOver c then unloadIfWaiting (endCmd c s) else s
  | none => s

/-- The data of a write's sector as the medium takes it (R610). -/
def writeData (c : DiskCmd) (i : Nat) (s : State) : Bytes :=
  let d := loftRead s (yAddr (hIndex (c.handles.getD i 0)) 0) 4096
  if c.xtsLoad = 0 then d else fit 4096 (Config.xtsEnc (keyMaterial s c.xtsSlot c.xtsLoad) (xtsTweak (c.lba + i)) d)

/-- A write attempt has ended: FLAGS, retries, and what follows (R586, R587, R624 to R626). -/
def writeOutcome (id i : Nat) (c : DiskCmd) (x : Stamp) (ok other : Bool) (s : State) : State :=
  let n := mgetD c.tries i 0
  let spare : Bool := c.onSpare.contains i
  let fl := c.cflags ||| (b2n other + 2 * b2n spare + 4 * b2n (decide (0 < n) && !spare) + 64 * b2n (x.quality.testBit 5))
  let c1 := { c with cflags := fl, onMedium := none, tries := mset c.tries i (n + 1), sealNext := c.sealNext + b2n (c.sealLoad != 0)
                     retries := c.retries + b2n (decide (0 < n) && !spare) }
  if ok then (if spare then relocated (x.lba) else fun s => s) (s.updCmd id fun _ => { c1 with done := i :: c1.done })
  else
    let s1 := verifyFailed (n == 0) s
    let lost : DiskCmd := { c1 with failed := i :: c1.failed, fail := dskWorse c1.fail St.verifyFailed }
    if spare then s1.updCmd id fun _ => lost
    else if n + 1 ≤ verifyRetries s then s1.updCmd id fun _ => c1
    else if s.channel.sparesFree = 0 then s1.updCmd id fun _ => lost
    else s1.updCmd id fun _ => { c1 with onSpare := i :: c1.onSpare }

/-- One write attempt of a sector whose gate opened at `t`; a poisoned data yealm ends the command instead (R669). -/
def hostWritten (id i : Nat) (t : Time) (ok other : Bool) (s : State) : State :=
  match findCmd s id with
  | none => s
  | some c =>
    if c.cls ≠ 0x21 ∨ !sectorOpen c i then s
    else if s.loft.poisoned (yAddr (hIndex (c.handles.getD i 0)) 0) 4096 then unloadIfWaiting (abortCmd St.loftPoison s id)
    else
      let d := writeData c i s
      let use : Option (Bytes × Nat × Nat) :=
        if c.sealLoad = 0 then none else some (keyMaterial s c.sealSlot c.sealLoad, c.sealLoad, c.sealNext)
      let x := makeStamp s t c.tenant (4 * b2n (c.onSpare.contains i)) 0xFFFF c.hostTag (c.lba + i) use d
      let s1 := putSector (c.lba + i) d x ok s
      let s2 := if c.xtsLoad = 0 ∨ mgetD c.tries i 0 ≠ 0 then s1 else keyCount c.xtsSlot c.xtsLoad s1
      afterSector id (writeOutcome id i c x ok other s2)

/-- The seal of a sector holds under a key (R634, R636). -/
def sealHolds (m : Bytes) (d : Bytes) (x : Stamp) : Bool :=
  x.sealTag == fit 12 (Config.gmac m (nonce x.epoch x.counter) (d ++ x.head38))

/-- Deliver a good sector: data to its yealm, its stamp to the STAMPS yealm (R609, R610, R636). -/
def deliverSector (c : DiskCmd) (i : Nat) (d : Bytes) (x : Stamp) (s : State) : State :=
  let plain := if c.xtsLoad = 0 then d else fit 4096 (Config.xtsDec (keyMaterial s c.xtsSlot c.xtsLoad) (xtsTweak (c.lba + i)) d)
  let s1 := if c.cls = 0x20 then loftWrite (yAddr (hIndex (c.handles.getD i 0)) 0) plain s else s
  if c.stamps ≠ 0 then loftWrite (yAddr (hIndex c.stamps) (64 * i)) (x.bytes true) s1 else s1

/-- The uses of its key slots that one delivered sector counts (Table KEY.3). -/
def readUses (c : DiskCmd) (s : State) : State :=
  let s1 := if c.sealLoad = 0 then s else keyCount c.sealSlot c.sealLoad s
  if c.xtsLoad = 0 then s1 else keyCount c.xtsSlot c.xtsLoad s1

/-- One read decode of a sector: good, read again, or failed (R588, R589, R625, R626, R670). -/
def hostRead (id i : Nat) (good other : Bool) (s : State) : State :=
  match findCmd s id with
  | none => s
  | some c =>
    if c.cls = 0x21 ∨ !sectorOpen c i ∨ c.abort.isSome then s
    else
      let n := mgetD c.tries i 0
      let c0 := { c with cflags := c.cflags ||| b2n other }
      let lost : DiskCmd := { c0 with failed := i :: c0.failed, fail := dskWorse c0.fail St.mediumError }
      if !good then
        if n < readRetries s then s.updCmd id fun _ => { c0 with tries := mset c0.tries i (n + 1), retries := c0.retries + 1 }
        else s.updCmd id fun _ => lost
      else
        let (d, x) := getSector (c.lba + i) s
        let s1 := s.drawn
        if x.lba ≠ c.lba + i then s1.updCmd id fun _ => lost
        else
          let s2 := readUses c (deliverSector c i d x s1)
          let bad : Bool := c.flags.testBit 1 && x.flags.testBit 3 && !sealHolds (keyMaterial s c.sealSlot c.sealLoad) d x
          let plainFlag := b2n (c.flags.testBit 1 && !x.flags.testBit 3)
          if bad then
            raiseSrc 111 (s2.updCmd id fun _ => { lost with cflags := lost.cflags ||| 8, delivered := i :: lost.delivered })
          else s2.updCmd id fun _ => { c0 with cflags := c0.cflags ||| (16 * plainFlag), done := i :: c0.done }

end Sys2Proof.Machine
end

