-- ==== Sys2Proof/Machine/Channel.lean ====
section
/-!
DEFINITION. The read channel and the servo: wedges, seeks, loads, preamp faults, decoder slices, and the channel commands
0x0481 to 0x048A (spec/11_read_channel_and_servo.md).
-/
namespace Sys2Proof.Machine
open Sys2Proof

/-! ### Preamp fault (R554, R598) -/

/-- PA_FLT rises: PA_WG falls, PA_FAULT_REG is read and reported with the value `status`. -/
def paFltRise (status : Nat) (s : State) : State :=
  if s.channel.flt then s
  else
    let s1 := s.updChn fun c => { c with flt := true, wg := false, writeOk := false }
    let s2 := match s1.channel.format with
      | some f => paFrame true f.paFaultReg 0 s1
      | none => s1
    crumbOf 13 0x0104 0x04A5 3 0 (anyPayload 0x04A5 [status]) s2

/-- The meaning of PA_FLT_RISE. -/
def execPaFltRise (status : BitVec 8) (s : State) : Res :=
  s.running fun s => if s.supply.isl.channel then paFltRise status.toNat s else s

/-- The meaning of PA_FLT_PERSIST: PA_FLT has been high for `forMs`; before 10 ms have passed it falls again (R554). -/
def execPaFltPersist (forMs : Nat) (s : State) : Res :=
  s.running fun s =>
    if !s.channel.flt then s
    else if forMs < 10 then s.updChn fun c => { c with flt := false }
    else channelFault s

/-! ### Servo wedges (R570 to R575) -/

/-- A cylinder from its 24-bit Gray code (R570). -/
def grayDecode (g : Nat) : Nat :=
  ((List.range 24).foldl (fun (a : Nat × Bool) i =>
    let b := a.2 != g.testBit (23 - i)
    (2 * a.1 + b2n b, b)) (0, false)).1

/-- PES in 1/1,024 track pitch from the four bursts and the cylinder (R571). -/
def pesOf (cyl a b c d : Nat) : Int :=
  let (c, d) := if cyl % 2 = 0 then (c, d) else (d, c)
  let m : Int := (a : Int) - b
  if a + b = 0 ∨ c + d = 0 then Config.pesCorner a b c d
  else if 2 * m.natAbs ≤ a + b then 512 * m / ((a + b : Nat) : Int)
  else
    let far : Int := ((1024 * d / (c + d) : Nat) : Int)
    if m < 0 then -far else far

/-- The wedge number the servo expects next. -/
def nextWedge (s : State) : Nat :=
  (s.channel.wedge + s.channel.missedRun + 1) % max 1 ((s.channel.format.map (·.wedges)).getD 1)

/-- WRITE_LIMIT of the setup in force. -/
def writeLimit (s : State) : Nat := (s.channel.format.map (·.writeLimit)).getD 123

/-- A wedge is missed (R572, R574). -/
def wedgeMissed (otherHead : Bool) (s : State) : State :=
  let s1 := s.updChn fun c =>
    { c with wedgesMissed := inc32 c.wedgesMissed, wedgeMissed := true, missedRun := c.missedRun + 1, searchRun := 0, onRead := 0
             onWrite := 0, writeOk := false, headMismatch := if otherHead then c.headMismatch + 1 else 0 }
  if !s1.channel.searching && s1.channel.servoValid && (decide (8 ≤ s1.channel.missedRun) || decide (4 ≤ s1.channel.headMismatch)) then
    servoLost s1
  else s1

/-- 16 consecutive valid wedges end a search: the servo seeks again to its target, or for a load to the first cylinder
after the reserved area (R574, R578). -/
def searchDone (s : State) : State :=
  let s1 := s.updChn fun c => { c with searching := false, servoValid := true, searchRun := 0 }
  if s.channel.state = .loading then (startSeek (homeCyl s) s1).updChn fun c => { c with loadSeek := true, state := .seeking }
  else (startSeek s.channel.target s1).updChn fun c => { c with state := .seeking }

/-- A seek has settled for reading (R575); a load completes (R578). -/
def seekSettled (s : State) : State :=
  let s1 := s.updChn fun c => { c with state := .tracking, seekTries := 0, loadSeek := false, loadTries := 0 }
  if s.channel.loadSeek then finishAll 0x0484 1 St.ok s1 else s1

/-- A valid wedge: its cylinder and PES, the counts towards settling, the write condition of R555 (R571, R574, R575). -/
def wedgeValid (number cyl : Nat) (pes : Int) (tick : Nat) (s : State) : State :=
  let j := jogAt s s.channel.head cyl
  let onRead : Bool := cyl = s.channel.target && decide (pes.natAbs ≤ 256)
  let onWrite : Bool := cyl = s.channel.target && decide ((pes - j).natAbs ≤ writeLimit s)
  let s1 := s.updChn fun c =>
    { c with wedge := number, wedgeMissed := false, wedgeTick := tick, cyl := cyl, pes := pes, missedRun := 0, headMismatch := 0
             searchRun := c.searchRun + 1, onRead := if onRead then c.onRead + 1 else 0, onWrite := if onWrite then c.onWrite + 1 else 0
             writeOk := onWrite && !c.flt && s.supply.mode == .run && (c.state == .tracking) && c.servoValid }
  if s1.channel.searching then (if 16 ≤ s1.channel.searchRun then searchDone s1 else s1)
  else if s1.channel.state = .tracking ∧ 2 < ((cyl : Int) - s1.channel.target).natAbs then servoLost s1
  else if s1.channel.state = .seeking ∧ 4 ≤ s1.channel.onRead then seekSettled s1
  else s1

/-- A wedge field is demodulated: whether the SAM fell in its window, parity, number, head, Gray code, bursts, the TICK of
its SAM and the cylinder predicted in a seek (R570 to R572). -/
def servoWedge (inTime parity : Bool) (number head gray a b c d tick pred : Nat) (s : State) : State :=
  let acquiring := s.channel.searching
  let active : Bool := match s.channel.state with
    | .loading | .tracking | .seeking => true
    | _ => false
  let cyl := grayDecode gray
  if !active then s
  else if !(inTime || acquiring) || !parity || !(acquiring || number == nextWedge s) then wedgeMissed false s
  else if head ≠ s.channel.head then wedgeMissed true s
  else if s.channel.state = .seeking ∧ !acquiring ∧ 64 < ((cyl : Int) - pred).natAbs then
    s.updChn fun x => { x with wedge := number, wedgeMissed := false, wedgeTick := tick, missedRun := 0, headMismatch := 0 }
  else wedgeValid number cyl (pesOf cyl a b c d) tick s

/-- The meaning of SERVO_WEDGE. -/
def execServoWedge (inTime parity : Bool) (number head gray a b c d tick pred : Nat) (s : State) : Res :=
  s.running fun s => if s.supply.isl.servo then servoWedge inTime parity number head gray a b c d tick pred s else s

/-- The meaning of SERVO_SEARCH_END: after 20 ms without 16 valid wedges the heads retract blind (R574). -/
def execServoSearchEnd (waitedUs : Nat) (s : State) : Res :=
  s.running fun s =>
    if s.channel.searching ∧ 20000 ≤ waitedUs ∧ s.channel.state ≠ .loading then startUnload s else s

/-- The sectors that waited for a failed seek fail (R576, Table DSK.4). -/
def failWaiting (l : List (Nat × Nat)) (s : State) : State :=
  l.foldl (fun s p =>
    match findCmd s p.1 with
    | some c =>
      if sectorOpen c p.2 then s.updCmd p.1 fun c => { c with failed := p.2 :: c.failed, fail := dskWorse c.fail St.mediumError } else s
    | none => s) s

/-- A seek error (R576): reported, retried once over the first cylinder after the reserved area, then the sectors waiting
fail. -/
def seekError (waiting : List (Nat × Nat)) (s : State) : State :=
  let s1 := crumbOf 14 82 0x04A1 3 0 (anyPayload 0x04A1 [s.channel.target, s.channel.cyl, s.channel.head])
    (raiseSrc 82 (s.updChn fun c => { c with seekErrors := inc32 c.seekErrors }))
  if s.channel.seekTries = 0 then
    (startSeek s.channel.target (s1.emit (.vcm 0 (homeCyl s)))).updChn fun c => { c with state := .seeking, seekTries := 1 }
  else failWaiting waiting (s1.updChn fun c => { c with seekTries := 0 })

/-- The meaning of SEEK_ERROR: not settled for `waitedMs`, or settled elsewhere. -/
def execSeekError (waitedMs : Nat) (elsewhere : Bool) (waiting : List (Nat × Nat)) (s : State) : Res :=
  s.running fun s =>
    if s.channel.state = .seeking ∧ s.channel.loadSeek = false ∧ (50 ≤ waitedMs ∨ elsewhere) then seekError waiting s else s

/-- A load that did not complete: undone and tried once more; the second leaves the channel in FAULT (R579). -/
def loadTimeout (s : State) : State :=
  if s.channel.loadTries = 0 then startUnload (s.updChn fun c => { c with loadRetry := true, loadTries := 1 })
  else
    channelFault (crumbOf 14 81 0x04A7 4 0 (anyPayload 0x04A7 [s.channel.loadTries + 1]) (raiseSrc 81 s))

/-- The meaning of LOAD_TIMEOUT. -/
def execLoadTimeout (ms : Nat) (s : State) : Res :=
  s.running fun s =>
    if 500 ≤ ms ∧ (s.channel.state = .loading ∨ (s.channel.state = .seeking ∧ s.channel.loadSeek)) then loadTimeout s else s

/-! ### Decoder slices (R564 to R569) -/

/-- A slice is fenced for a trigger: 1 parity, 2 known-answer test, 3 stamp CRCs (R566 to R568). -/
def fenceSlice (i trigger : Nat) (s : State) : State :=
  if !(vat s.channel.slices i) then s
  else
    let s1 := crumbOf 13 84 0x04A3 4 0 (anyPayload 0x04A3 [i, trigger])
      (raiseSrc 84 (s.updChn fun c => { c with slices := vset c.slices i false }))
    if s1.channel.slices.any id then s1 else syncChron (unloadIfWaiting (endAll St.notReady s1))

/-- Fence a slice named by a decode. -/
def fenceOf (f : Option (Fin 4 × Bool)) (s : State) : State :=
  match f with
  | some (i, parity) => fenceSlice i.val (if parity then 1 else 3) s
  | none => s

/-- The meaning of VERIFY_DONE: the verify of a sector whose gate opened at the time given has ended (R586, R587); with
`rec` the sector of the recording log at an LBA, else a sector of an admitted command. -/
def execVerifyDone (rec : Bool) (id idx sec ns frac : Nat) (ok other : Bool) (fence : Option (Fin 4 × Bool)) (s : State) : Res :=
  s.running fun s =>
    if !mediumWritable s then s
    else
      let t : Time := { sec := sec % 2 ^ 48, ns := ns % 1000000000, frac := frac % 65536 }
      let s1 := s.updChn fun c => { c with verifyPort := (idx % 64, ok, other || fence.isSome) }
      fenceOf fence (if rec then recWritten id t ok s1 else hostWritten id idx t ok (other || fence.isSome) s1)

/-- The meaning of READ_DECODE_DONE (R588, R589). -/
def execReadDecodeDone (id idx : Nat) (good other : Bool) (fence : Option (Fin 4 × Bool)) (s : State) : Res :=
  s.running fun s =>
    if !mediumReady s then s else fenceOf fence (hostRead id idx good (other || fence.isSome) s)

/-- The meaning of SLICE_KNOWN_ANSWER_TEST (R566). -/
def execSliceKnownAnswerTest (slice : Fin 4) (ok : Bool) (s : State) : Res :=
  s.running fun s => if ok || !s.supply.isl.channel then s else fenceSlice slice.val 2 s

/-! ### The channel commands (Tables CHN.1, CHN.2, CHN.7, CHN.8) -/

/-- The commands that act on the medium or the slices need the channel and servo islands (R47). -/
def chnRuns (s : State) (_ : Bytes) : Bool := s.supply.isl.channel && s.supply.isl.servo

/-- Heads unloaded and channel A STOPPED. -/
def chnIdle (s : State) : Bool := !headsLoaded s && s.motor.a.state = .stopped

/-- 0x0481 CHN_HDA_SET (Table CHN.1). -/
def cmdChnHdaSet : Cmd :=
  { op := 0x0481, rights := byOwner 2, len := exactly 44
    fields := fun _ _ p =>
      inRange 1 16 (byteAt p 0) && byteAt p 1 ≤ 1 && inRange 192 512 (rd p 2 2) && inRange 100 400 (rd p 4 2) &&
      inRange 16 64 (byteAt p 6) && byteAt p 6 % 8 == 0 && inRange 1 32 (byteAt p 7) && inRange 1000 16777215 (rd p 8 4) &&
      inRange 8 4096 (rd p 12 2) && inRange 32 255 (byteAt p 14) && inRange 1 20 (byteAt p 15) && byteAt p 16 ≤ 32 &&
      byteAt p 17 ≤ 3 && inRange 10 2000 (rd p 18 2) && inRange 10 2000 (rd p 20 2) && inRange 10 500 (rd p 22 2) &&
      inRange 100 2000 (rd p 24 2) && inRange 200 3000 (rd p 26 2) && inRange 50 95 (byteAt p 28) && inRange 1 25 (byteAt p 29) &&
      byteAt p 30 ≤ 127 && byteAt p 31 ≤ 4 && byteAt p 32 ≤ 127 && byteAt p 37 ≤ 127 && zeroAt p 38 2 && decide (32768 ≤ rd p 40 4)
    run := fun s _ p =>
      if !chnIdle s then .done St.busy [] s
      else .done St.ok [] (s.updChn fun c => { c with draft := setHda p c.draft }) }

/-- 0x0482 CHN_ZONE_SET (Table CHN.2). -/
def cmdChnZoneSet : Cmd :=
  { op := 0x0482, rights := byOwner 2, len := exactly 12
    fields := fun s _ p =>
      decide (byteAt p 0 < s.channel.draft.nZones) && zeroAt p 1 3 && ((rd p 4 4 == 0) == (byteAt p 0 == 0)) &&
      inRange 800 3200 (rd p 8 2) && inRange 1 1024 (rd p 10 2)
    run := fun s _ p =>
      if !chnIdle s then .done St.busy [] s
      else .done St.ok [] (s.updChn fun c => { c with draft := setZone p c.draft }) }

/-- 0x0483 CHN_COMMIT (R548, R550, R842): its checks and its effect come when its work ends. -/
def cmdChnCommit : Cmd :=
  { op := 0x0483, rights := byOwner 2, run := fun s _ _ => .accept {} s }

/-- R842: the new format would change what the chronicle header of this module holds. -/
def chronicleKeeps (s : State) (f : Format) : Bool :=
  s.recorder.pointer.header.any fun h =>
    h.identity == identityRows s && (h.raCyl != f.raCyl || h.raSectors != f.raSectors || h.zone0Rate != (f.zone 0).rate)

/-- Put a setup in force: the LBA map and the spares (R548, R563). -/
def putFormat (f : Format) (s : State) : State :=
  s.updChn fun c =>
    { c with format := some f, maxLba := lbaCount f c.defects - 1, sparesAll := spareCount f
             sparesFree := spareCount f - (c.defects.filter fun d => d.kind = 2).length
             state := if c.state = .unconfigured then .unloaded else c.state }

/-- CHN_COMMIT's work ends (R548, R550, R842). -/
def commitEnd (j : Job) (s : State) : State :=
  let f := s.channel.draft
  if formatBad f || chronicleKeeps s f then completeJob j St.badField [] s
  else if s.timebase.persistFails then completeJob j St.internal [] s
  else
    let zones := (List.range 32).flatMap fun z => leBytes 4 z ++ leBytes 4 (f.zone z).first ++ leBytes 2 (f.zone z).rate ++ leBytes 2 (f.zone z).spare
    completeJob j St.ok [] (syncChron (putFormat f (keepSetup 41 2 (f.hda ++ zones) s)))

/-- 0x0484 CHN_HEADS (R578, R601). -/
def cmdChnHeads : Cmd :=
  { op := 0x0484, rights := byOwner 2, islands := chnRuns, len := exactly 4
    fields := fun _ _ p => byteAt p 0 ≤ 1 && zeroAt p 1 3
    run := fun s _ p =>
      if byteAt p 0 = 0 then
        match s.channel.state with
        | .unconfigured | .unloaded | .fault => .accept {} s
        | _ => .accept { waits := true } (startUnload { s with channel := { s.channel with loadRetry := false } })
      else if s.supply.mode ≠ .run then .done St.wrongMode [] s
      else match s.channel.state with
        | .tracking | .seeking => .accept { key := 1, waits := s.channel.loadSeek } s
        | .loading | .unloading => .accept { key := 1, waits := true } s
        | _ => if loadable s then .accept { key := 1, waits := true } (startLoad s) else .done St.notReady [] s }

/-- 0x0485 CHN_CAL (R549, R582, R583, R585). -/
def cmdChnCal : Cmd :=
  { op := 0x0485, rights := byOwner 2, islands := chnRuns, len := exactly 4
    fields := fun s _ p =>
      inRange 1 4 (byteAt p 0) && byteAt p 1 == 0 && decide (rd p 2 2 < 2 ^ (s.channel.format.map (·.heads)).getD 16)
    run := fun s _ p =>
      let loaded : Bool := s.channel.state = .tracking || s.channel.state = .seeking
      if (if byteAt p 0 = 1 then headsLoaded s else !loaded) then .done St.notReady [] s
      else .accept { key := byteAt p 0, data := p } s }

/-- Values measured for one head, in order: the zones' values, `per` of them each. -/
def chunk (l : List Int) (i per : Nat) : List Int := (l.drop (i * per)).take per

/-- The values a calibration measured enter the record (CHN_CAL; order by log entry 21). -/
def calStore (kind : Nat) (heads : List Nat) (zones : Nat) (l : List Int) (c : CalRec) : CalRec :=
  let at_ (i : Nat) : Int := l.getD i 0
  let per := if kind = 2 then 4 * zones + 1 else 2 * zones
  let place2 (e : Nat) (c : CalRec) (hi : Nat × Nat) : CalRec :=
    (List.range zones).foldl (fun c z =>
      let o := hi.2 * per
      if kind = 2 then
        { c with jog := mset c.jog (place hi.1 z e) (at_ (o + 4 * z + 2 * e), at_ (o + 4 * z + 2 * e + 1)) }
      else { c with verifyDelay := mset c.verifyDelay (place hi.1 z e) (at_ (o + 2 * z + e)) }) c
  match kind with
  | 1 => { c with vcmR := l.head? }
  | 4 => { c with unloadMs := l.head?.map Int.toNat }
  | 2 =>
    let c1 := heads.zipIdx.foldl (place2 1) (heads.zipIdx.foldl (place2 0) c)
    heads.zipIdx.foldl (fun c hi => { c with skew := mset c.skew hi.1 (at_ (hi.2 * per + 4 * zones)) }) c1
  | _ => heads.zipIdx.foldl (place2 1) (heads.zipIdx.foldl (place2 0) c)

/-- CHN_CAL's work ends with its measured values. -/
def calEnd (j : Job) (l : List Int) (s : State) : State :=
  let heads := (List.range 16).filter fun h => (rd j.data 2 2).testBit h
  let zones := (s.channel.format.map (·.nZones)).getD 0
  let s1 := s.updChn fun c => { c with cal := calStore j.key heads zones l c.cal }
  completeJob j St.ok (if j.key = 2 then (Config.crumbPayload 0x0485 l).take 8 else []) s1

/-- Code of the channel's state (Table CHN.8). -/
def chnCode : ChnState → Nat
  | .unconfigured => 0
  | .unloaded => 1
  | .loading => 2
  | .tracking => 3
  | .seeking => 4
  | .unloading => 5
  | .fault => 6

/-- 0x0486 CHN_STATUS (Table CHN.8). -/
def cmdChnStatus : Cmd :=
  { op := 0x0486, rights := byReader 2, limited := always
    run := fun s _ _ =>
      let c := s.channel
      let inService := maskOf (List.range 4) fun i => vat c.slices i
      .done St.ok (leBytes 1 (chnCode c.state) ++ leBytes 1 c.head ++ leBytes 1 (inService + 16 * (15 - inService)) ++
        leBytes 1 (b2n c.format.isSome + 2 * b2n (calComplete s) + 4 * b2n c.servoValid) ++ leBytes 4 c.cyl ++ leInt 2 c.pes ++
        leBytes 2 (c.cal.unloadMs.getD 0) ++ leBytes 6 c.maxLba ++ zeros 2 ++ leBytes 4 c.sparesFree ++
        leBytes 4 (c.defects.filter fun d => d.kind = 2).length ++ leBytes 4 c.wedgesMissed ++ leBytes 4 c.verifyFails ++
        leBytes 4 c.seekErrors) s }

/-- 0x0487 CHN_PA_XFER: what the preamp answers a read with is the preamp's (R552; log entry 22). -/
def cmdChnPaXfer : Cmd :=
  { op := 0x0487, rights := byOwner 2, islands := chnRuns, len := exactly 4
    fields := fun _ _ p => byteAt p 0 ≤ 127 && byteAt p 2 ≤ 1 && byteAt p 3 == 0
    run := fun s _ p =>
      if s.channel.wg then .done St.busy [] s
      else .done St.ok (leBytes 1 (s.draw 2) ++ zeros 3) (paFrame (byteAt p 2 == 1) (byteAt p 0) (byteAt p 1) s).drawn }

/-- A defect-list entry, 16 bytes (R591). -/
def defectBytes (d : Defect) : Bytes :=
  leBytes 1 d.head ++ leBytes 3 d.cyl ++ leBytes 2 d.sector ++ leBytes 6 (if d.kind = 1 then 0xFFFFFFFFFFFF else d.lba) ++
    leBytes 1 d.kind ++ zeros 3

/-- 0x0488 CHN_DEFECT_READ (R591). -/
def cmdChnDefectRead : Cmd :=
  { op := 0x0488, rights := byReader 2, len := exactly 8
    fields := fun s t p => usable s t (rd p 4 4)
    run := fun s _ p => .accept { pins := [hIndex (rd p 4 4)], data := p } (pin (hIndex (rd p 4 4)) s) }

/-- CHN_DEFECT_READ's work ends: up to 256 entries are in the yealm. -/
def defectReadEnd (j : Job) (s : State) : State :=
  let b := ((s.channel.defects.drop (rd j.data 0 4)).take 256).flatMap defectBytes
  completeJob j St.ok [] (loftWrite (yAddr (hIndex (rd j.data 4 4)) 0) b s)

/-- 0x0489 CHN_DEFECT_ADD (R602). -/
def cmdChnDefectAdd : Cmd :=
  { op := 0x0489, rights := byOwner 2, islands := chnRuns, len := exactly 8
    fields := fun _ _ p => zeroAt p 6 2
    run := fun s _ p =>
      if s.channel.format.isNone then .done St.notReady [] s
      else if s.channel.maxLba < rd p 0 6 then .done St.lbaRange [] s
      else .accept { data := p } s }

/-- CHN_DEFECT_ADD's work ends: the LBA lies on a spare, its sector copied when it reads good (R593, R602). -/
def defectAddEnd (j : Job) (good : Bool) (s : State) : State :=
  let lba := rd j.data 0 6
  if s.channel.sparesFree = 0 then completeJob j St.verifyFailed [] s
  else
    let s1 := relocated lba s
    completeJob j St.ok [] (if good then s1 else s1.updChn fun c => { c with medium := mdel c.medium lba })

/-- 0x048A CHN_SLICE_ENABLE (R569). -/
def cmdChnSliceEnable : Cmd :=
  { op := 0x048A, rights := byOwner 2, islands := chnRuns, len := exactly 4
    fields := fun _ _ p => byteAt p 0 ≤ 3 && zeroAt p 1 3
    run := fun s _ p => .accept { key := byteAt p 0 } s }

/-- CHN_SLICE_ENABLE's known-answer test passed. -/
def sliceEnabled (j : Job) (s : State) : State :=
  completeJob j St.ok [] (syncChron (s.updChn fun c => { c with slices := vset c.slices j.key true }))

/-- The meaning of CHN_HDA_SET. -/
def execChnHdaSet (c : Call) (s : State) : Res := command cmdChnHdaSet c s
/-- The meaning of CHN_ZONE_SET. -/
def execChnZoneSet (c : Call) (s : State) : Res := command cmdChnZoneSet c s
/-- The meaning of CHN_COMMIT. -/
def execChnCommit (c : Call) (s : State) : Res := command cmdChnCommit c s
/-- The meaning of CHN_HEADS. -/
def execChnHeads (c : Call) (s : State) : Res := command cmdChnHeads c s
/-- The meaning of CHN_CAL. -/
def execChnCal (c : Call) (s : State) : Res := command cmdChnCal c s
/-- The meaning of CHN_STATUS. -/
def execChnStatus (c : Call) (s : State) : Res := command cmdChnStatus c s
/-- The meaning of CHN_PA_XFER. -/
def execChnPaXfer (c : Call) (s : State) : Res := command cmdChnPaXfer c s
/-- The meaning of CHN_DEFECT_READ. -/
def execChnDefectRead (c : Call) (s : State) : Res := command cmdChnDefectRead c s
/-- The meaning of CHN_DEFECT_ADD. -/
def execChnDefectAdd (c : Call) (s : State) : Res := command cmdChnDefectAdd c s
/-- The meaning of CHN_SLICE_ENABLE. -/
def execChnSliceEnable (c : Call) (s : State) : Res := command cmdChnSliceEnable c s

end Sys2Proof.Machine
end

