-- ==== Sys2Proof/Machine/FlowOps.lean ====
section
/-!
DEFINITION. Flow-table entries (spec/08_ethernet_ports.md, Table ETH.3, R392 to R399).
-/
namespace Sys2Proof.Machine
open Sys2Proof

/-- Change the ports, the classifier and PTP. -/
def State.updNet (s : State) (f : Net → Net) : State := { s with net := f s.net }

/-- An entry's fields from its 64 bytes (Table ETH.3). -/
def Flow.ofBytes (p : Bytes) : Flow :=
  { match_ := rd p 0 2, ports := byteAt p 2, action := byteAt p 3, priority := rd p 4 2, vid := rd p 6 2, dmac := slice p 8 6
    ethertype := rd p 14 2, ipver := byteAt p 16, proto := byteAt p 17, sipPrefix := byteAt p 18, dipPrefix := byteAt p 19
    sport := rd p 20 2, dport := rd p 22 2, sip := slice p 24 16, dip := slice p 40 16, ring := byteAt p 56, leg := byteAt p 57
    channel := rd p 58 2, service := byteAt p 60 }

/-- An entry's 64 bytes (Table ETH.3). -/
def Flow.bytes (f : Flow) : Bytes :=
  leBytes 2 f.match_ ++ leBytes 1 f.ports ++ leBytes 1 f.action ++ leBytes 2 f.priority ++ leBytes 2 f.vid ++ fit 6 f.dmac ++
    leBytes 2 f.ethertype ++ leBytes 1 f.ipver ++ leBytes 1 f.proto ++ leBytes 1 f.sipPrefix ++ leBytes 1 f.dipPrefix ++
    leBytes 2 f.sport ++ leBytes 2 f.dport ++ fit 16 f.sip ++ fit 16 f.dip ++ leBytes 1 f.ring ++ leBytes 1 f.leg ++
    leBytes 2 f.channel ++ leBytes 1 f.service ++ zeros 3

/-- A prefix length suits the IP version (Table ETH.3). -/
def prefixOk (ipver n : Nat) : Bool := decide (1 ≤ n) && decide (n ≤ if ipver = 4 then 32 else 128)

/-- The 64 bytes of a request are an entry: reserved bits clear, values in range, fields not enabled zero (R394). -/
def flowOk (p : Bytes) : Bool :=
  let f := Flow.ofBytes p
  let on (b : Nat) : Bool := f.match_.testBit b
  decide (f.match_ < 1024) && decide (f.ports < 64) && decide (f.action ≤ 3) && byteAt p 60 == 0 && zeroAt p 61 3 &&
    (if on 1 then decide (f.vid < 4096) else f.vid == 0) && (on 2 || allZero f.dmac) && (on 3 || f.ethertype == 0) &&
    (if on 4 then f.ipver == 4 || f.ipver == 6 else f.ipver == 0) && (on 5 || f.proto == 0) &&
    (if on 6 then prefixOk f.ipver f.sipPrefix && (f.ipver != 4 || zeroAt p 28 12) else f.sipPrefix == 0 && allZero f.sip) &&
    (if on 7 then prefixOk f.ipver f.dipPrefix && (f.ipver != 4 || zeroAt p 44 12) else f.dipPrefix == 0 && allZero f.dip) &&
    (on 8 || f.sport == 0) && (on 9 || f.dport == 0) &&
    (if f.action = 1 then decide (f.ring < 32) else f.ring == 0) &&
    (if f.action = 2 then decide (f.leg ≤ 1) && decide (f.channel < 512) else f.leg == 0 && f.channel == 0)

/-- The entry at an index; a free one reads as zeros with SERVICE 0xFF (R397). -/
def flowAt (s : State) (i : Nat) : Flow := mgetD s.net.flows i {}

/-- Write an entry for a service: its counters are set to zero (R399); one without VALID is free (R397; log entry 23). -/
def setFlow (i svc : Nat) (f : Flow) (s : State) : State :=
  s.updNet fun n =>
    { n with flows := if f.match_.testBit 0 then mset n.flows i { f with service := svc } else mdel n.flows i
             counts := mdel n.counts i }

/-- Free an entry (R397). -/
def freeFlow (i : Nat) (s : State) : State := s.updNet fun n => { n with flows := mdel n.flows i, counts := mdel n.counts i }

end Sys2Proof.Machine
end

