-- ==== Sys2Proof/Machine/Recording.lean ====
section
/-!
DEFINITION. Recording: RTP packets, the events of sectors, segments and block summaries, and the REC commands
(spec/12_disk_queue_and_recording.md, R637 to R676).
-/
namespace Sys2Proof.Machine
open Sys2Proof

/-! ### RTP packets (R639 to R644) -/

/-- Sequence number and payload of an RTP version 2 packet; none when it is malformed (R639). -/
def rtpParse (u : Bytes) : Option (Nat × Bytes) :=
  let b0 := byteAt u 0
  let off1 := 12 + 4 * (b0 % 16)
  let off := if b0.testBit 4 then off1 + 4 + 4 * rdBe u (off1 + 2) 2 else off1
  let pad := if b0.testBit 5 then byteAt u (u.length - 1) else 0
  if u.length < 12 ∨ b0 / 64 ≠ 2 ∨ u.length < off + pad ∨ (b0.testBit 4 ∧ u.length < off1 + 4) ∨ (b0.testBit 5 ∧ pad = 0) then none
  else some (rdBe u 2 2, slice u off (u.length - off - pad))

/-- The extended sequence of a 16-bit one by counting wraps, and whether it lies more than 32,768 from the highest seen
(R640; log entry 24). -/
def extendSeq (highest : Option Nat) (q : Nat) : Nat × Bool :=
  match highest with
  | none => (q, false)
  | some h =>
    let lo := h % 65536
    if lo ≤ q then (h + (q - lo), decide (32768 < q - lo))
    else if 32768 < lo - q then (h + (65536 + q - lo), false)
    else (h - (lo - q), false)

/-- Closed sectors that count against R648: own ones of which no copy is verified. -/
def backlog (s : State) (c : RecChan) : Nat :=
  (c.closed.filter fun x => x.origin.isNone && !((mirrorOf s x.gseq).any (·.verified))).length

/-- Take a packet of a known extended sequence (R642 to R644, R648). -/
def takePacket (n q : Nat) (b : Bytes) (blue : Bool) (t : Time) (s : State) : State :=
  let c := recChan s n
  let sizeOk : Bool := if c.framed then decide (b.length ≤ 4080) && b.length != 0 else b.length == c.payloadBytes
  if !sizeOk then recCount n 4 s
  else if c.seen.contains q then recCount n 1 s
  else if q < c.lowest ∧ !slotOpen c q t then recCount n 2 s
  else if 8 ≤ backlog s c then recCount n 7 s
  else if !c.framed then placeRaw n q b blue t s
  else if q = c.lowest ∨ c.lastRec.isNone then placeReady n 65 (placeFramed n q b blue t (markTaken n q s))
  else
    let s1 := (markTaken n q s).updRecChan n fun c => { c with heldPkts := insHeld (q, b, blue, t, s.up) c.heldPkts }
    if 64 < (recChan s1 n).heldPkts.length then placeReady n 65 (placeHeld n s1) else s1

/-- A packet of a recording channel: `u` is what follows its UDP header, `blue` its leg, `t` its arrival (R639 to R641). -/
def recordPacket (n : Nat) (blue : Bool) (u : Bytes) (t : Time) (s : State) : State :=
  let c := recChan s n
  let heads : Bool := s.channel.state = .tracking || s.channel.state = .seeking
  if !c.flags.testBit 0 then s
  else if s.supply.mode ≠ .run ∨ !heads then recCount n 6 s
  else match rtpParse u with
    | none => recCount n 3 s
    | some (q16, b) =>
      let (q, jump) := extendSeq c.highest q16
      let s1 := if jump then
          (endSegment n 16 s).updRecChan n fun c => { c with gapNext := true, seen := [], lowest := 0, lastRec := none }
        else s
      takePacket n q b blue t (s1.updRecChan n fun c => { c with highest := some (max q (c.highest.getD 0)) })

/-! ### Events -/

/-- Current TAI in µs. -/
def taiUs (s : State) : Nat := s.timebase.now.sec * 1000000 + s.timebase.now.ns / 1000

/-- A sector's closing time has come (R645). -/
def closeDue (s : State) (c : RecChan) (o : OpenSector) : Bool :=
  decide (o.since + c.maxFillMs * 1000 ≤ s.up) || (!c.framed && o.laterAt.any fun t => decide (t + c.mergeUs ≤ s.up)) ||
    decide ((o.start + c.segmentS) * 1000000 + c.mergeUs ≤ taiUs s)

/-- SECTOR_CLOSE_TIMER: the open sectors of a channel whose time has come close (R645). -/
def execSectorCloseTimer (n : Fin 512) (s : State) : Res :=
  s.running fun s => closeWhere n.val (closeDue s (recChan s n.val)) s

/-- Place held packets from the lowest on, while some held packet's MERGE_US has passed (R643). -/
def releaseHeld (n : Nat) : Nat → State → State
  | 0, s => s
  | fuel + 1, s =>
    let c := recChan s n
    if c.heldPkts.any fun p => decide (p.2.2.2.2 + c.mergeUs ≤ s.up) then releaseHeld n fuel (placeHeld n s) else s

/-- FRAMED_HOLD_RELEASE (R643). -/
def execFramedHoldRelease (n : Fin 512) (s : State) : Res :=
  s.running fun s => placeReady n.val 65 (releaseHeld n.val 65 s)

/-- SECTOR_HAND_OVER: in RUN, the channel's next closed sector goes to the disk queue (R647). -/
def execSectorHandOver (n : Fin 512) (s : State) : Res :=
  s.running fun s =>
    if s.supply.mode = .run ∧ s.supply.change.isNone ∧ !s.supply.pfail then handOver n.val s else s

/-- A sector of the segment is still open, or still to be verified or lost (R656, R914). -/
def segmentBusy (s : State) (n id : Nat) : Bool :=
  let c := recChan s n
  (c.opened.any fun o => o.segment == id) ||
    c.closed.any fun x => x.segment == id && !((mirrorOf s x.gseq).any (·.verified))

/-- SEGMENT_CLOSED: an open segment that is over, its sectors all verified or lost (R656, R657). -/
def execSegmentClosed (n : Fin 512) (start : Nat) (s : State) : Res :=
  s.running fun s =>
    match s.diskq.segs.find? fun g =>
        g.channel == n.val && g.start == start && g.flags.testBit 0 && !g.retired && !segmentBusy s n.val g.id &&
          ((mget s.diskq.segEnds g.id).isSome || decide (g.stop * 1000000 + (recChan s n.val).mergeUs ≤ taiUs s)) with
    | some g => closeSeg (mgetD s.diskq.segEnds g.id 0) g s
    | none => s

/-- Data of a block summary (R654). -/
def summaryData (m : AMap Bytes) : Bytes := fit 4096 ((List.range 255).flatMap fun i => fit 8 (mgetD m i []))

/-- BLOCK_SUMMARY: every data sector of a block is verified or lost, and its summary is written (R654). -/
def execBlockSummary (block sec ns frac : Nat) (ok : Bool) (s : State) : Res :=
  s.running fun s =>
    let m := mgetD s.diskq.summary block []
    if !mediumWritable s || m.length != 255 || s.diskq.logArea.isNone then s
    else
      let lba := logFirst s + block * 256 + 255
      let t : Time := { sec := sec % 2 ^ 48, ns := ns % 1000000000, frac := frac % 65536 }
      let d := summaryData m
      let s1 := putSector lba d (makeStamp s t 0 0 0xFFFE 0 lba none d) ok s
      if ok then s1.updDsk fun q => { q with summary := mdel q.summary block } else verifyFailed true s1

/-! ### Commands (Table DSK.10) -/

/-- A recording channel is enabled. -/
def recEnabled (s : State) : Bool := s.diskq.chans.any fun p => p.2.flags.testBit 0

/-- 0x0410 REC_AREA_SET (R653, R674). -/
def cmdRecAreaSet : Cmd :=
  { op := 0x0410, rights := byOwner 3, len := exactly 16
    fields := fun s _ p =>
      zeroAt p 6 2 && zeroAt p 14 2 && rd p 8 6 % 256 == 0 && decide (65536 ≤ rd p 8 6) &&
        (s.channel.format.isNone || decide (rd p 0 6 + rd p 8 6 ≤ s.channel.maxLba + 1))
    run := fun s _ p =>
      if s.channel.format.isNone then .done St.notReady [] s
      else if recEnabled s then .done St.busy [] s
      else if s.timebase.persistFails then .done St.internal [] s
      else
        let s1 := keepSetup 469 3 (slice p 0 6 ++ slice p 8 6) s
        if s.diskq.logArea = some (rd p 0 6, rd p 8 6) then .done St.ok [] s1
        else
        let s2 := (s.diskq.segs.filter fun g => !g.retired).foldl (fun s g => retireSeg g s) s1
        .done St.ok [] (s2.updDsk fun q =>
          { q with logArea := some (rd p 0 6, rd p 8 6), logNext := rd p 0 6, summary := [], logFull := false }) }

/-- A flow entry of a REC_CHANNEL_SET agrees with its channel and leg (R637). -/
def recEntryOk (p : Bytes) (off n leg : Nat) : Bool :=
  let f := Flow.ofBytes (slice p off 64)
  flowOk (slice p off 64) && f.action == 2 && f.channel == n && f.leg == leg && f.match_.testBit 0

/-- The fields of Table DSK.7 after CHANNEL and FLAGS. -/
def recSetOk (p : Bytes) : Bool :=
  let fl := byteAt p 2
  let framed := fl.testBit 1
  let blue := fl.testBit 3
  decide (rd p 0 2 < 512) && decide (fl < 32) && (if fl.testBit 2 then byteAt p 3 ≤ 15 else byteAt p 3 == 0) &&
    (if framed then rd p 4 2 == 0 else inRange 16 4096 (rd p 4 2)) && inRange 100 50000 (rd p 6 2) && inRange 1 10000 (rd p 8 2) &&
    inRange 10 86400 (rd p 10 4) && decide (rd p 14 2 < 4096) &&
    (if blue then decide (rd p 16 2 < 4096) && rd p 16 2 != rd p 14 2 else rd p 16 2 == 0xFFFF) &&
    (if fl.testBit 4 then byteAt p 18 % 2 == 0 else byteAt p 18 == 0) && zeroAt p 19 13 && recEntryOk p 32 (rd p 0 2) 0 &&
    (if blue then recEntryOk p 96 (rd p 0 2) 1 else zeroAt p 96 64)

/-- An index is free or already this channel's entry (R637). -/
def recIndexFree (s : State) (n i : Nat) : Bool :=
  match mget s.net.flows i with
  | none => true
  | some f => f.service == 3 && f.channel == n && f.action == 2

/-- A channel is disabled: its entries are freed, its segment closes with CUT; when the log is full it loses the sectors it
holds (R637, R657, R673). -/
def disableChan (n : Nat) (s : State) : State :=
  let c := recChan s n
  let s1 := endSegment n 16 s
  let s2 := freeFlow c.redFlow (if c.flags.testBit 3 then freeFlow c.blueFlow s1 else s1)
  let s3 := s2.updRecChan n fun c => { c with flags := c.flags - c.flags % 2 }
  if s.diskq.logFull then
    ((recChan s3 n).closed.filter fun x => x.lba.isNone && x.origin.isNone).foldl (fun s x =>
      let s1 := recCount n 10 (s.updRecChan n fun c => { c with closed := c.closed.filter (· ≠ x) })
      match x.yealm with
      | some i => freeYealm i s1
      | none => s1) s3
  else s3

/-- A channel's settings from Table DSK.7. -/
def recSettings (p : Bytes) (c : RecChan) : RecChan :=
  { c with
      flags := byteAt p 2, sealSlot := byteAt p 3, payloadBytes := rd p 4 2, mergeUs := rd p 6 2, maxFillMs := rd p 8 2
      segmentS := rd p 10 4, redFlow := rd p 14 2, blueFlow := rd p 16 2, mirrorPos := byteAt p 18 }

/-- 0x0411 REC_CHANNEL_SET (Table DSK.7, R637, R638); one that disables is judged by CHANNEL and FLAGS (log entry 25). -/
def cmdRecChannelSet : Cmd :=
  { op := 0x0411, rights := byOwner 3, len := exactly 160
    fields := fun s t p =>
      decide (rd p 0 2 < 512) && decide (byteAt p 2 < 32) &&
        (!(byteAt p 2).testBit 0 || (recSetOk p && (!(byteAt p 2).testBit 2 || keyStatus s t (byteAt p 3) 2 != St.badField)))
    run := fun s _ p =>
      let n := rd p 0 2
      let on := (byteAt p 2).testBit 0
      let was := (recChan s n).flags.testBit 0
      let blue := (byteAt p 2).testBit 3
      if was && on then .done St.busy [] s
      else if !on then .done St.ok [] (if was then disableChan n s else s)
      else if s.diskq.logArea.isNone then .done St.notReady [] s
      else if !recIndexFree s n (rd p 14 2) || (blue && !recIndexFree s n (rd p 16 2)) then .done St.busy [] s
      else
        let s1 := setFlow (rd p 14 2) 3 (Flow.ofBytes (slice p 32 64)) s
        let s2 := if blue then setFlow (rd p 16 2) 3 (Flow.ofBytes (slice p 96 64)) s1 else s1
        .done St.ok [] (s2.updRecChan n fun c =>
          { recSettings p c with highest := none, lowest := 0, seen := [], heldPkts := [], lastRec := none, handed := none }) }

/-- 0x0412 REC_CHANNEL_STATUS. -/
def cmdRecChannelStatus : Cmd :=
  { op := 0x0412, rights := byReader 3, limited := always, len := exactly 4
    fields := fun _ _ p => decide (rd p 0 2 < 512) && zeroAt p 2 2
    run := fun s _ p =>
      let c := recChan s (rd p 0 2)
      .done St.ok (leBytes 1 c.flags ++ leBytes 1 c.opened.length ++ leBytes 1 (min 255 c.closed.length) ++ zeros 1 ++
        leBytes 4 (c.lastVerified % 2 ^ 32) ++ leBytes 6 ((c.segment.map (·.2)).getD 0) ++ zeros 2 ++
        c.counts.toList.flatMap (leBytes 8)) s }

/-- Insert a segment record by its START. -/
def insSeg (g : Segment) : List Segment → List Segment
  | [] => [g]
  | h :: l => if g.start < h.start then g :: h :: l else h :: insSeg g l

/-- A channel's segment records from a START on, ascending. -/
def segsFrom (s : State) (n start : Nat) : List Segment :=
  (s.diskq.segs.filter fun g => g.channel == n && decide (start ≤ g.start) && !g.retired).foldl (fun l g => insSeg g l) []

/-- 0x0413 REC_SEG_LIST; BAD_FIELD when it names no segment (Table DSK.10). -/
def cmdRecSegList : Cmd :=
  { op := 0x0413, rights := byReader 3, limited := always, len := exactly 12
    fields := fun _ _ p => decide (rd p 0 2 < 512) && zeroAt p 2 2 && inRange 1 7 (byteAt p 10) && byteAt p 11 == 0
    run := fun s _ p =>
      let l := (segsFrom s (rd p 0 2) (rd p 4 6)).take (byteAt p 10)
      if l.isEmpty then .done St.badField [] s else .done St.ok (leBytes 1 l.length ++ zeros 3 ++ l.flatMap segBytes) s }

/-- Segments held device-wide (R659). -/
def heldSegs (s : State) : Nat := (s.diskq.segs.filter fun g => g.flags.testBit 1 && !g.retired).length

/-- 0x0414 REC_SEG_HOLD (R659). -/
def cmdRecSegHold : Cmd :=
  { op := 0x0414, rights := byOwner 3, len := exactly 12
    fields := fun s _ p =>
      decide (rd p 0 2 < 512) && byteAt p 2 ≤ 1 && byteAt p 3 == 0 && zeroAt p 10 2 && (segByStart s (rd p 0 2) (rd p 4 6)).isSome
    run := fun s _ p =>
      match segByStart s (rd p 0 2) (rd p 4 6) with
      | none => .done St.badField [] s
      | some g =>
        let hold := byteAt p 2 == 1
        if hold == g.flags.testBit 1 then .done St.ok [] s
        else if hold && decide (64 ≤ heldSegs s) then .done St.quota [] s
        else
          let g1 := { g with flags := if hold then g.flags ||| 2 else g.flags - 2 * b2n (g.flags.testBit 1) }
          .done St.ok [] (segCrumb 0x0491 2 g1 (s.updSeg g.id fun _ => g1)) }

/-- The list of data handles of a REC_READ (R608). -/
def recReadHandles (s : State) (p : Bytes) : List Nat :=
  if (byteAt p 18).testBit 0 then [rd p 20 4]
  else (List.range (rd p 16 2)).map fun i => rd (loftRead s (yAddr (hIndex (rd p 20 4)) (4 * i)) 4) 0 4

/-- A granule of the list yealm that a REC_READ reads is poisoned (R150). -/
def recListPoisoned (s : State) (p : Bytes) : Bool :=
  !(byteAt p 18).testBit 0 && s.loft.poisoned (yAddr (hIndex (rd p 20 4)) 0) (4 * rd p 16 2)

/-- 0x0415 REC_READ (R661, R662): what it reads is read when its work ends. -/
def cmdRecRead : Cmd :=
  { op := 0x0415, rights := byReader 3, modes := fun m => m = .run, len := exactly 28
    fields := fun s t p =>
      decide (rd p 0 2 < 512) && zeroAt p 2 2 && zeroAt p 10 2 && inRange 1 64 (rd p 16 2) && byteAt p 18 ≤ 3 && byteAt p 19 == 0 &&
        (!(byteAt p 18).testBit 0 || rd p 16 2 == 1) && usable s t (rd p 20 4) && (recListPoisoned s p || (recReadHandles s p).all (usable s t)) &&
        (if (byteAt p 18).testBit 1 then usable s t (rd p 24 4) else rd p 24 4 == 0 || usable s t (rd p 24 4))
    run := fun s _ p =>
      if recListPoisoned s p then .done St.loftPoison [] s
      else if s.channel.format.isNone || s.channel.state == .fault || !s.channel.slices.any id || !setupInForce s then .done St.notReady [] s
      else
        let hs := recReadHandles s p
        let pins := (hIndex (rd p 20 4) :: (hs.map hIndex ++ if rd p 24 4 = 0 then [] else [hIndex (rd p 24 4)])).eraseDups
        .accept { pins := pins, data := p ++ hs.flatMap (leBytes 4) } (pinAll pins s) }

/-- The log LBAs of a segment's sectors in log order, from FIRST_LBA to LAST_LBA: those whose stamp carries the channel, as
the block summaries tell (R661). -/
def segSectors (s : State) (g : Segment) : List Nat :=
  let len := logLen s
  let n := (g.lastLba + len - g.firstLba) % max 1 len + 1
  ((List.range n).map fun i => logFirst s + (g.firstLba - logFirst s + i) % max 1 len).filter fun lba =>
    (lba - logFirst s) % 256 != 255 && (mget s.channel.medium lba).any fun x => x.stamp.channel == g.channel

/-- Deliver sector `i` of a REC_READ. -/
def recDeliver (j : Job) (i lba : Nat) (s : State) : State :=
  let (d, x) := getSector lba s
  let s1 := loftWrite (yAddr (hIndex (rd j.data (28 + 4 * i) 4)) 0) d s.drawn
  if (byteAt j.data 18).testBit 1 then loftWrite (yAddr (hIndex (rd j.data 24 4)) (64 * i)) (x.bytes true) s1 else s1

/-- REC_READ's work ends: `fail` is the status of Table DSK.4 of its first unreadable sector, `good` how many sectors read
good before it; the sectors delivered are counted in DATA (R661, R662). -/
def recReadEnd (j : Job) (fail : Option Nat) (good : Nat) (s : State) : State :=
  let p := j.data
  match segByStart s (rd p 0 2) (rd p 4 6) with
  | none => completeJob j St.badField (zeros 4 ++ leBytes 2 0) s
  | some g =>
    let want := ((segSectors s g).drop (rd p 12 4)).take (rd p 16 2)
    let short : Option Nat := if want.length < rd p 16 2 then some St.lbaRange else none
    let stale (lba : Nat) : Bool := let x := (getSector lba s).2; x.channel != g.channel || decide (x.time.sec < g.start)
    let readable := if fail.isSome then want.take good else want
    let fine := readable.takeWhile fun lba => !stale lba
    let st : Option Nat := if fine.length < readable.length then some St.lbaRange else if fail.isSome then fail else short
    let s1 := fine.zipIdx.foldl (fun s q => recDeliver j q.2 q.1 s) s
    let s2 := if st.isNone then s1 else
      (List.range (rd p 16 2)).foldl (fun s i =>
        if fine.length ≤ i then poisonRange (yAddr (hIndex (rd p (28 + 4 * i) 4)) 0) 4096 s else s) s1
    completeJob j (st.getD St.ok) (zeros 4 ++ leBytes 2 fine.length) s2

/-- The meaning of REC_AREA_SET. -/
def execRecAreaSet (c : Call) (s : State) : Res := command cmdRecAreaSet c s
/-- The meaning of REC_CHANNEL_SET. -/
def execRecChannelSet (c : Call) (s : State) : Res := command cmdRecChannelSet c s
/-- The meaning of REC_CHANNEL_STATUS. -/
def execRecChannelStatus (c : Call) (s : State) : Res := command cmdRecChannelStatus c s
/-- The meaning of REC_SEG_LIST. -/
def execRecSegList (c : Call) (s : State) : Res := command cmdRecSegList c s
/-- The meaning of REC_SEG_HOLD. -/
def execRecSegHold (c : Call) (s : State) : Res := command cmdRecSegHold c s
/-- The meaning of REC_READ. -/
def execRecRead (c : Call) (s : State) : Res := command cmdRecRead c s

end Sys2Proof.Machine
end

