-- ==== Sys2Proof/Machine/RadioOps.lean ====
section
/-!
DEFINITION. Shared operations of the radio front end (spec/13_radio_control.md) and of the Eave guard
(spec/14_eave_guard.md): RF serial frames, mutes and steps, tuning, guard mutes, ceilings.
-/
namespace Sys2Proof.Machine
open Sys2Proof

/-- Change the radio island. -/
def State.updRad (s : State) (f : Radio → Radio) : State := { s with radio := f s.radio }
/-- Band `b`. -/
def State.bandOf (s : State) (b : Nat) : Band := vat s.radio.band b
/-- Change band `b`. -/
def State.updBand (s : State) (b : Nat) (f : Band → Band) : State := s.updRad fun r => { r with band := upd r.band b f }
/-- Path `p`. -/
def State.pathOf (s : State) (p : Nat) : Path := vat s.radio.path p
/-- Change path `p`. -/
def State.updPath (s : State) (p : Nat) (f : Path → Path) : State := s.updRad fun r => { r with path := upd r.path p f }
/-- Synthesizer `i`. -/
def State.synthOf (s : State) (i : Nat) : Synth := vat s.radio.synth i
/-- Change synthesizer `i`. -/
def State.updSynth (s : State) (i : Nat) (f : Synth → Synth) : State := s.updRad fun r => { r with synth := upd r.synth i f }

/-- The radio island runs (R11, R679, R1078). -/
def radioRuns (s : State) : Bool := s.supply.isl.radio && !s.isT && s.supply.sdRefclk

/-! ### RF serial port (R681 to R683) -/

/-- Insert a frame behind those of its priority or a higher one. -/
def insFrame (f : RfFrame) : List RfFrame → List RfFrame
  | [] => [f]
  | g :: l => if f.prio < g.prio then f :: g :: l else g :: insFrame f l

/-- Start a frame when none is in progress. -/
def rfStart (s : State) : State :=
  match s.radio.rfNow, s.radio.frames with
  | none, f :: l => (s.updRad fun r => { r with rfNow := some f, frames := l }).emit (.rf f.cs f.word)
  | _, _ => s

/-- Request a frame: priority 1 mute, 2 hop and calibration, 3 power step, 4 dither, 5 lock poll, 6 raw; the word's
WORD_BITS low bits are sent. -/
def rfPush (prio cs word : Nat) (s : State) : State :=
  let w := word % 2 ^ (vat s.radio.device cs).wordBits
  rfStart (s.updRad fun r => { r with frames := insFrame { prio, cs, word := w } r.frames })

/-! ### Paths (R695 to R697, R705 to R709) -/

/-- Attenuator and bias code of a path's entry. -/
def Path.codes (x : Path) (e : Nat) : Nat × Nat := mgetD x.table e (0, 0)

/-- A path's attenuator frame (R697). -/
def attenFrame (s : State) (p code : Nat) : Nat :=
  let b := s.bandOf (p / 2)
  (if p % 2 = 0 then b.attenIn else b.attenOut) ||| code * 2 ^ b.attenShift

/-- Send a path's attenuator frame with a code. -/
def sendAtten (prio p code : Nat) (s : State) : State := rfPush prio (s.bandOf (p / 2)).attenCs (attenFrame s p code % 2 ^ 32) s

/-- Set a path's BIAS_DAC, if it has one (R709). -/
def setBias (p code : Nat) (s : State) : State :=
  (List.range 2).foldl (fun s i =>
    if (vat s.radio.bias i).path = some p ∧ (vat s.radio.bias i).code ≠ code then
      (s.updRad fun r => { r with bias := upd r.bias i fun x => { x with code := code } }).emit (.bias i code)
    else s) s

/-- Mute a path: its attenuator frame with MUTE_CODE, its bias at MUTE_BIAS (R695). -/
def mutePath (p : Nat) (s : State) : State :=
  let x := s.pathOf p
  setBias p x.muteBias (sendAtten 1 p x.muteCode (s.updPath p fun x => { x with muted := true, dithering := none }))

/-- Unmute a path: the bias, then the frame of the applied step (R695). -/
def unmutePath (p : Nat) (s : State) : State :=
  let c := (s.pathOf p).codes (s.pathOf p).applied
  sendAtten 3 p c.1 (setBias p c.2 (s.updPath p fun x => { x with muted := false }))

/-- A whole-repeater cause holds (R752). -/
def wholeCause (r : Radio) : Bool := r.killed || r.mcMute || r.thermMute || r.modeMute

/-- The paths of a band are to be unmuted: ACTIVE, no tuning, no guard cause (R696, R733, R752). -/
def bandOpen (s : State) (b : Nat) : Bool :=
  let x := s.bandOf b
  radioRuns s && x.state == .active && !x.tuneMute && x.causes == 0 && x.backoff.isNone && x.latched.isNone &&
    !s.radio.guardMute && !wholeCause s.radio

/-- BAND_EN as its paths and its direction want it (R695, R698, R699). -/
def syncEn (b : Nat) (s : State) : State :=
  s.updBand b fun x => { x with en := bandOpen s b && (!x.flags.testBit 0 || (x.dir != 0 && !x.quiet)) }

/-- Bring a band's paths and BAND_EN to what its state and the guard want (R695, R696). -/
def syncBand (b : Nat) (s : State) : State :=
  let want := bandOpen s b
  let one (p : Nat) (s : State) : State :=
    if want && (s.pathOf p).muted then unmutePath p s else if !want && !(s.pathOf p).muted then mutePath p s else s
  syncEn b (one (2 * b + 1) (one (2 * b) s))

/-- Bring every band up to date. -/
def syncBands (s : State) : State := (List.range 4).foldl (fun s b => syncBand b s) s

/-- The ceiling in force of a path, the thermal back-off applied (R740, R743, R749). -/
def pathCeiling (s : State) (p : Nat) : Nat :=
  ((s.pathOf p).ceiling.getD 0) - (if s.radio.thermBack then (s.bandOf (p / 2)).thermBackoff else 0)

/-- A path's applied entry becomes `e` (R706, R707): a muted path only stores it. -/
def stepTo (p e : Nat) (s : State) : State :=
  let x := s.pathOf p
  if e = x.applied then s
  else
    let s1 := s.updPath p fun x => { x with applied := e, dithering := none }
    let c := x.codes e
    if x.muted then s1
    else if x.applied < e then sendAtten 3 p c.1 (setBias p c.2 s1)
    else setBias p c.2 (sendAtten 3 p c.1 s1)

/-- The applied entry follows the commanded entry and the ceiling (R706, R707). -/
def syncStep (p : Nat) (s : State) : State := stepTo p (min (s.pathOf p).cmd (pathCeiling s p)) s

/-! ### Guard records and mutes (R732, R733, R757 to R763) -/

/-- Automatic restarts in the preceding 3,600 s. -/
def recentRestarts (s : State) (b : Nat) : Nat := ((s.bandOf b).restarts.filter fun x => s.up < x + 3600000000).length

/-- Table EAV.5; band 255 is the whole repeater. -/
def eavePayload (b cause : Nat) (measured limit : Int) (s : State) : Bytes :=
  let x := s.bandOf b
  let i := s.pathOf (2 * b)
  let o := s.pathOf (2 * b + 1)
  if b = 255 then leBytes 1 255 ++ leBytes 1 cause ++ zeros 6 ++ leBytes 4 s.timebase.now.ns ++ zeros 20
  else
    leBytes 1 b ++ leBytes 1 cause ++ leBytes 1 (recentRestarts s b) ++ leBytes 1 x.margin ++ leInt 2 measured ++ leInt 2 limit ++
      leBytes 4 s.timebase.now.ns ++ leInt 2 (i.iso.getD 0) ++ leInt 2 (o.iso.getD 0) ++ leBytes 1 i.cmd ++ leBytes 1 i.applied ++
      leBytes 1 o.cmd ++ leBytes 1 o.applied ++
      leBytes 1 (b2n i.lower + 2 * b2n o.lower + 4 * b2n (x.flags.testBit 0) + 8 * b2n x.latched.isSome) ++ zeros 11

/-- An Eave guard record (R761): SOURCE `src`, or the family's when it accompanies none. -/
def eaveCrumb (src code sev b cause : Nat) (measured limit : Int) (s : State) : State :=
  crumbOf 16 (if src = 0 then 0x107 else src) code sev (s.owner 4) (eavePayload b cause measured limit s) s

/-- The source of a cause (Table EAV.1). -/
def causeSource (cause : Nat) : Nat :=
  match cause with
  | 1 => 96
  | 2 => 98
  | 3 => 99
  | 4 => 100
  | 9 => 97
  | _ => 0

/-- A cause holds on a band. -/
def hasCause (s : State) (b cause : Nat) : Bool := (s.bandOf b).causes.testBit (cause - 1)

/-- Put or remove a cause of a band. -/
def setCause (b cause : Nat) (on : Bool) (s : State) : State :=
  s.updBand b fun x =>
    { x with causes := if on then x.causes ||| 2 ^ (cause - 1) else if x.causes.testBit (cause - 1) then x.causes - 2 ^ (cause - 1) else x.causes }

/-- A band's back-off after a mute of cause 1, 2 or 3, or its latch (R757, R759). -/
def backOff (b cause : Nat) (measured limit : Int) (s : State) : State :=
  let n := recentRestarts s b
  let s1 := s.updBand b fun x => { x with restarts := x.restarts.filter fun t => s.up < t + 3600000000 }
  if 3 ≤ n then
    eaveCrumb (causeSource cause) 0x07C2 4 b cause measured limit (s1.updBand b fun x => { x with latched := some cause, backoff := none })
  else
    let t := if n = 0 then 10 else if n = 1 then 60 else 300
    s1.updBand b fun x => { x with backoff := some (s.up + t * 1000000), backoffS := t }

/-- A cause mutes a band: recorded, its source raised where `raise` says so; causes 1 to 3 start a back-off or latch (R732,
R733, R757, R759, R763). -/
def guardMuteBand (b cause : Nat) (raise : Bool) (measured limit : Int) (s : State) : State :=
  if hasCause s b cause then s
  else
    let first : Bool := (s.bandOf b).causes == 0
    let s1 := (setCause b cause true s).updBand b fun x =>
      { x with lastCause := cause, mutes := if first then inc32 x.mutes else x.mutes
               preMute := if first then ((s.pathOf (2 * b)).ceiling.getD 0, (s.pathOf (2 * b + 1)).ceiling.getD 0) else x.preMute }
    let s2 := syncBand b s1
    let s3 := if raise && causeSource cause != 0 then raiseSrc (causeSource cause) s2 else s2
    let s4 := eaveCrumb (causeSource cause) 0x07C0 (if cause = 1 then 4 else 3) b cause measured limit s3
    if cause ≤ 3 ∧ (s4.bandOf b).latched.isNone then backOff b cause measured limit s4 else s4

/-- A cause of a band lifts; the band unmutes when none is left. -/
def liftCause (b cause : Nat) (s : State) : State := syncBand b (setCause b cause false s)

/-- Table RAD.8's entry whose gain is at most isolation less margin: the ceiling of R740; none when no entry is. -/
def ceilingFor (gainTop iso margin : Int) : Option Nat :=
  let x := iso - margin - gainTop
  if 0 ≤ x then some 63
  else
    let k := ((4 - x) / 5).toNat
    if k ≤ 63 then some (63 - k) else none

/-- The ladder stage of a path (Table EAV.2). -/
def ladderStage (s : State) (p : Nat) : Nat :=
  if (s.pathOf p).ceiling.isNone then 3
  else if (s.pathOf p).cmd ≤ pathCeiling s p then 0
  else if pathCeiling s p = 0 then 2 else 1

/-- The ladder is decided anew: steps, records, source 97, the cause-9 mute (R744). -/
def ladder (p : Nat) (s : State) : State :=
  let st := ladderStage s p
  let was := (s.pathOf p).stage
  let s1 := syncStep p (s.updPath p fun x => { x with stage := st })
  let b := p / 2
  if st = was then s1
  else if st = 1 then eaveCrumb 97 0x07C6 2 b 0 0 0 (raiseSrc 97 s1)
  else if st = 2 then eaveCrumb 0 0x07C6 3 b 0 0 0 s1
  else if st = 3 then guardMuteBand b 9 true 0 0 s1
  else s1

/-- Ceilings at which a path starts anew (R743). -/
def startCeiling (p : Nat) (s : State) : State :=
  s.updPath p fun x => { x with ceiling := some (s.bandOf (p / 2)).guardStart, lastAllow := none, iso := none }

/-- A band lacks the output detector of one of its paths (R735). -/
def lacksDetector (s : State) (b : Nat) : Bool :=
  let has (p : Nat) : Bool := s.radio.det.toList.any fun d => d.role == 1 && d.target == p
  !has (2 * b) || !has (2 * b + 1)

/-- Cause 12 follows the detectors of a band that is not OFF (R735; log entry 37). -/
def syncDetectors (b : Nat) (s : State) : State :=
  if (s.bandOf b).state = .off then s
  else if lacksDetector s b then guardMuteBand b 12 false 0 0 s else liftCause b 12 s

/-! ### Tuning (R684 to R693) -/

/-- An entry of a synthesizer. -/
def synthEntry (s : State) (i e : Nat) : SynthEntry := mgetD (s.synthOf i).entries e {}

/-- Change an entry of a synthesizer. -/
def updEntry (i e : Nat) (f : SynthEntry → SynthEntry) (s : State) : State :=
  s.updSynth i fun x => { x with entries := mset x.entries e (f (mgetD x.entries e {})) }

/-- Send the program words of an entry, changed by `f` at their index. -/
def sendWords (i e : Nat) (f : Nat → Nat → Nat) (s : State) : State :=
  let x := s.synthOf i
  (List.range x.words).foldl (fun s k => rfPush 2 x.cs (f k (vat (synthEntry s i e).words k)) s) s

/-- Start a calibration of an entry (R685). -/
def startCal (i e : Nat) (retried : Bool) (s : State) : State :=
  let x := s.synthOf i
  sendWords i e (fun k w => if k + 1 = x.words then w ||| x.autoCalBits else w)
    (s.updSynth i fun y => { y with work := .cal e retried })

/-- SYNTH_RECAL of an automatic recalibration (R689). -/
def recalCrumb (i e : Nat) (s : State) : State :=
  crumbOf 16 0x107 0x0780 1 (s.owner 4) (anyPayload 0x0780 [i, e, (synthEntry s i e).calTemp, (s.synthOf i).temp]) s

/-- Start a hop to an entry; one that is not CALIBRATED is calibrated instead (R686, R689). -/
def startHop (i e : Nat) (s : State) : State :=
  let x := s.synthOf i
  let y := synthEntry s i e
  match y.state with
  | .calibrated =>
    sendWords i e (fun k w => if k = x.calWord then w ||| (y.calValue * 2 ^ x.calShift % 2 ^ 32) else w)
      (s.updSynth i fun z => { z with work := .hop e false })
  | .stale => startCal i e false (recalCrumb i e (s.updSynth i fun z => { z with auto := true }))
  | .uncalibrated => startCal i e false s

/-- A band begins to tune to an entry: TUNING, both paths muted (Table RAD.5). -/
def tune (b e : Nat) (s : State) : State :=
  startHop b e (syncBand b (s.updBand b fun x => { x with state := .tuning, entry := e, tuneMute := true }))

/-- The commands waiting for a band's tuning end. -/
def endTune (b status : Nat) (s : State) : State := finishAll 0x0709 b status (finishAll 0x0707 b status s)

/-- Source 102 of an automatic recalibration that ended (R691). -/
def endAuto (i : Nat) (s : State) : State :=
  if (s.synthOf i).auto then raiseSrc 102 (s.updSynth i fun x => { x with auto := false }) else s

/-- A band that becomes ACTIVE starts its ceilings at START_ENTRY (R743). -/
def activateBand (b : Nat) (s : State) : State :=
  let s1 := syncStep (2 * b + 1) (syncStep (2 * b) (startCeiling (2 * b + 1) (startCeiling (2 * b) s)))
  syncDetectors b (syncBand b (s1.updBand b fun x => { x with state := .active }))

/-- A band's synthesizer has locked: STANDBY or ACTIVE (Table RAD.5). -/
def tuned (b : Nat) (s : State) : State :=
  let s1 := endAuto b (s.updSynth b fun x => { x with work := .idle })
  let s2 := s1.updBand b fun x => { x with state := .standby, tuneMute := false }
  endTune b St.ok (if (s.bandOf b).activate then activateBand b s2 else syncDetectors b (syncBand b s2))

/-- A band's tuning failed twice: FAULT (R692). -/
def tuneFault (b : Nat) (s : State) : State :=
  let s1 := endAuto b (s.updSynth b fun x => { x with work := .idle })
  let s2 := syncBand b (s1.updBand b fun x => { x with state := .fault, gate := false })
  let s3 := crumbOf 16 101 0x07A0 4 (s.owner 4) (anyPayload 0x07A0 [b, (s.bandOf b).entry]) (raiseSrc 101 s2)
  endTune b St.notReady s3

/-- A RADIO_SYNTH_CAL run ends (R691). -/
def endCalRun (i status : Nat) (s : State) : State :=
  finish 0x0706 i status [] (raiseSrc 102 (s.updSynth i fun x => { x with work := .idle, calRun := false, calQueue := [] }))

/-- The next entry of a RADIO_SYNTH_CAL run. -/
def nextCal (i : Nat) (s : State) : State :=
  match (s.synthOf i).calQueue with
  | e :: l => startCal i e false (s.updSynth i fun x => { x with calQueue := l })
  | [] => endCalRun i St.ok s

/-- The lock check of a hop or calibration (R686, R692): `locked`, the entry, whether this was the retry. -/
def lockDecided (i e : Nat) (locked retried wasCal : Bool) (s : State) : State :=
  let s1 := if wasCal ∧ locked then updEntry i e (fun x => { x with state := .calibrated }) s
    else if wasCal then updEntry i e (fun x => { x with state := .uncalibrated }) s else s
  if locked then (if (s.synthOf i).calRun then nextCal i s1 else tuned i s1)
  else if !retried then startCal i e true s1
  else if (s.synthOf i).calRun then tuneFault i (endCalRun i St.notReady s1)
  else tuneFault i s1

/-- A band stops to OFF; its tuning ends, its entry keeping its calibration state (R694, R726). -/
def stopBand (b : Nat) (s : State) : State :=
  let run := (s.synthOf b).calRun
  let s1 := if run then s else s.updSynth b fun x => { x with work := .idle, auto := false }
  let s2 := s1.updBand b fun x => { x with state := .off, tuneMute := false, gate := false, dir := 0, quiet := false }
  endTune b St.notReady (syncBand b s2)

/-- Armed TDD_GATE and BAND_EN actions of the bands of a mask are cancelled. -/
def cancelTdd (bands : Nat → Bool) (s : State) : State :=
  { s with spars := upd s.spars 2 fun x =>
    { x with actions := x.actions.filter fun a => !(0x20 ≤ a.unit && a.unit ≤ 0x27 && bands ((a.unit - 0x20) % 4)) } }

/-! ### The hardware path (R752 to R755, R951, R955) -/

/-- A path is configured: its power table is loaded, or its band is configured. -/
def pathConfigured (s : State) (p : Nat) : Bool := (s.bandOf (p / 2)).configured

/-- The hardware path mutes the repeater: GUARD_MUTE high, BAND_EN and TDD_GATE low, biases at MUTE_BIAS, mute frames
(R753, R754, R955, R956). -/
def hardMute (s : State) : State :=
  let s1 := cancelTdd (fun _ => true) (s.updRad fun r =>
    { r with guardMute := true, releasing := false
             band := r.band.map fun b => { b with en := false, gate := false, dir := 0 } })
  (List.range 8).foldl (fun s p => if pathConfigured s p then mutePath p s else s) s1

/-- The last whole-repeater cause may have lifted: GUARD_MUTE falls 1 ms later (R755). -/
def mayRelease (s : State) : State := s.updRad fun r => { r with releasing := r.guardMute && !wholeCause r }

/-- Leaving RUN: every band that is not OFF stops; cause 11 (R680, R750). -/
def radioLeaveRun (s : State) : State :=
  if s.isT || s.radio.modeMute then s
  else
    let s1 := s.updRad fun r => { r with band := r.band.map fun b => { b with wasActive := b.state == .active && b.flags.testBit 1 } }
    let s2 := hardMute (s1.updRad fun r => { r with modeMute := true })
    let s3 := eaveCrumb 0 0x07C0 3 255 11 0 0 s2
    (List.range 4).foldl (fun s b => if (s.bandOf b).state = .off then s else stopBand b s) s3

/-- RADIO_BAND_START with ACTIVATE of an OFF or FAULT band (R680, R703). -/
def startBand (b : Nat) (activate : Bool) (s : State) : State :=
  tune b (s.bandOf b).startEntry (s.updBand b fun x => { x with activate := activate })

/-- Entering RUN: cause 11 lifts, the bands that were ACTIVE with RESUME start (R680, R750). -/
def radioEnterRun (s : State) : State :=
  if !radioRuns s then s
  else
    let s1 := mayRelease (s.updRad fun r => { r with modeMute := false })
    let s2 := (List.range 2).foldl (fun s i =>
      let x := vat s.radio.bias i
      if x.path.isNone ∧ x.code ≠ x.fixed then
        (s.updRad fun r => { r with bias := upd r.bias i fun y => { y with code := y.fixed } }).emit (.bias i x.fixed) else s) s1
    (List.range 4).foldl (fun s b =>
      let x := s.bandOf b
      if x.wasActive && x.state == .off && (!x.flags.testBit 0 || s.timebase.valid) then startBand b true s else s) s2

/-- The radio island stops: its outputs take the levels of R679. -/
def radioIslandOff (s : State) : State :=
  s.updRad fun r =>
    { r with rfNow := none, frames := [], bias := r.bias.map fun x => { x with code := 0 }
             band := r.band.map fun b => { b with en := false, gate := false, dir := 0 }
             path := r.path.map fun p => { p with muted := true, dithering := none } }

/-- The Radio Spar's machine check: every path muted, cause 10; tuning ends; bands that are not OFF are in FAULT (R331,
R731, R754, R958). -/
def radioMachineCheck (s : State) : State :=
  if s.isT then s
  else
    let s1 := hardMute (s.updRad fun r => { r with mcMute := true, frames := [] })
    let s2 := eaveCrumb 0 0x07C0 3 255 10 0 0 s1
    (List.range 4).foldl (fun s b =>
      let s1 := if (s.synthOf b).calRun then endCalRun b St.notReady s else s.updSynth b fun x => { x with work := .idle, auto := false }
      if (s1.bandOf b).state = .off then s1
      else endTune b St.notReady (s1.updBand b fun x => { x with state := .fault, tuneMute := true })) s2

/-- A dither step: the applied entry's code moved by DITHER_DELTA, or restored (R708, R776). -/
def ditherStep (p : Nat) (sign : Option Bool) (s : State) : State :=
  let x := s.pathOf p
  let alone9 : Bool := (s.bandOf (p / 2)).causes == 256 && (s.bandOf (p / 2)).state == .active && !wholeCause s.radio
  if (x.muted && !alone9) || x.dithering == sign then s
  else
    let c := ((x.codes (if x.muted then 0 else x.applied)).1 : Int)
    let d := match sign with
      | some true => x.dither
      | some false => -x.dither
      | none => 0
    sendAtten 4 p ((c + d) % 65536).toNat (s.updPath p fun x => { x with dithering := sign })

end Sys2Proof.Machine
end

