-- ==== Sys2Proof/Machine/ModeOps.lean ====
section
/-!
DEFINITION. The four modes: which islands run, leaving RUN, entry to SAFE and its causes, mode changes and their
completion (spec/19_supply_and_modes.md, R998 to R1009, R1022 to R1024).
-/
namespace Sys2Proof.Machine
open Sys2Proof

/-! ### Islands (R40, R52, R88, R998) -/

/-- Change which islands run. -/
def State.updIsl (s : State) (f : Islands → Islands) : State := s.updSup fun x => { x with isl := f x.isl }

/-- Calibration entries of islands that stop are not valid until they are measured again (R88). -/
def calStop (ids : List Nat) (s : State) : State :=
  s.updTb fun b => { b with cal := ids.foldl (fun c i => upd c (i - 1) fun x =>
    { x with valid := false, bad := 0, good := 0, lostAt := none }) b.cal }

/-- A Spar whose island stops keeps its memories and loses what it was doing (R52; DEDUCED, log entry 60). -/
def sparStop (i : Nat) (s : State) : State :=
  { s with spars := upd s.spars i fun x =>
    { x with state := if x.state = .running then .idle else x.state, actions := [], stall := none, inQ := [], outQ := [], lines := [], fault := none } }

/-- Campel restarts the programs of an idle Spar whose island runs again (R345; log entry 60). -/
def sparResume (i : Nat) (s : State) : State :=
  { s with spars := upd s.spars i fun x => if x.state = .idle then { x with state := .running, pc := 0, loopLeft := none } else x }

/-- The channel and servo islands stop. -/
def stopChannel (s : State) : State :=
  if !s.supply.isl.channel ∧ !s.supply.isl.servo then s
  else sparStop 0 (calStop [13, 14] (closeGates (s.updIsl fun i => { i with channel := false, servo := false })))

/-- The radio island stops (R679). -/
def stopRadio (s : State) : State :=
  if !s.supply.isl.radio then s else sparStop 2 (calStop [16] (radioIslandOff (s.updIsl fun i => { i with radio := false })))

/-- The channel and servo islands start, SD_REFCLK being present (R1078). -/
def startChannel (s : State) : State :=
  if s.supply.isl.channel ∨ !s.supply.sdRefclk then s
  else sparResume 0 (s.updIsl fun i => { i with channel := true, servo := true })

/-- The radio island starts, SD_REFCLK being present (R1078); not on the -T variant. -/
def startRadio (s : State) : State :=
  if s.supply.isl.radio ∨ !s.supply.sdRefclk ∨ s.isT then s else sparResume 2 (s.updIsl fun i => { i with radio := true })

/-- The crossings of the islands that a mode change starts are open: each that runs has been measured (R88). -/
def crossingsOpen (s : State) : Bool :=
  let ok (on : Bool) (id : Nat) : Bool := !on || (vat s.timebase.cal (id - 1)).valid
  ok s.supply.isl.channel 13 && ok s.supply.isl.servo 14 && ok s.supply.isl.radio 16

/-! ### Modes -/

/-- MODE of Table PWR.9. -/
def Mode.code : Mode → Nat
  | .booting => 0
  | .keep => 1
  | .run => 2
  | .safe => 3

/-- MODE_CHANGED: the old mode, the new mode, the SAFE cause mask (R1001). -/
def modeChanged (old new : Nat) (s : State) : State :=
  crumb 0x0180 2 0 (leBytes 1 old ++ leBytes 1 new ++ leBytes 1 s.supply.safeCause.toNat) s

/-- The mode changes: channel B takes its target again (R490), the chronicle its state (R839). -/
def setMode (m : Mode) (s : State) : State := syncChron (retargetB (s.updSup fun x => { x with mode := m }))

/-- Nothing of the disk stands in the way of stopping its islands: heads unloaded, no command in flight (R629). -/
def diskQuiet (s : State) : Bool := !headsLoaded s && s.diskq.cmds.isEmpty

/-- Channel A's stop for KEEP, SAFE or SHELF: the heads unload once every abort has ended, then the controlled stop (R489,
R629). While PFAIL is latched the hold-up work takes its place (R970). -/
def stopForMode (s : State) : State :=
  if s.supply.pfail then s
  else if headsLoaded s && !s.diskq.cmds.isEmpty then
    match s.motor.a.state with
    | .accel | .atSpeed | .pullIn | .locked =>
      unloadWhenIdle ((finishStart St.notReady s).updA fun a => { a with stopWait := true, emergency := a.emergency && a.stopWait })
    | _ => unloadWhenIdle s
  else controlledStop s

/-- Leaving RUN: disk commands aborted, bands stopped, heads unloaded, the controlled stop started (Table PWR.6). -/
def leaveRun (s : State) : State := stopForMode (radioLeaveRun (abortAll St.wrongMode s))

/-- Channel A starts by itself when RUN is entered or PFAIL clears in RUN, once it is STOPPED (R520, R997). -/
def autoStart (s : State) : State :=
  if s.supply.mode = .run ∧ !s.supply.pfail ∧ s.motor.a.cfg.flags.testBit 1 ∧ setupInForce s ∧ s.supply.isl.motor then
    match s.motor.a.state with
    | .stopped => startA s
    | .decel | .brake | .harvest => s.updA fun a => { a with autoWait := true }
    | _ => s
  else s

/-- RUN is entered: bands with RESUME, channel A (R520, R680). -/
def enterRun (s : State) : State := autoStart (radioEnterRun (setMode .run s))

/-- SYS_SET_MODE in flight ends. -/
def finishMode (status : Nat) (s : State) : State := finish 0x0102 0 status [] s

/-- A change is given up: the mode stays, the islands it started stop again (R998, R1003, R1022). -/
def abandonChange (status : Nat) (s : State) : State :=
  match s.supply.change with
  | none => s
  | some c =>
    let s1 := s.updSup fun x => { x with change := none }
    let s2 := if c.isl.channel then s1 else stopChannel s1
    let s3 := if c.isl.radio then s2 else stopRadio s2
    finishMode status s3

/-! ### SAFE (R1006 to R1009) -/

/-- The entry to SAFE from a mode (R1007, R1024); step 5 follows when the heads are parked. -/
def safeEntry (s : State) : State :=
  let s1 := s.updSup fun x => { x with safeN := false, safeEntry := some x.mode }
  setMode .safe (if s.supply.mode = .run then leaveRun s1 else s1)

/-- A cause of Table PWR.7, bit `n` for cause bit n + 8, arises (R1006, R1022). In the ROM stage SAFE is entered at the
end of boot (R288, R338). -/
def enterSafe (n : Nat) (s : State) : State :=
  if !s.powered then s
  else
    let s1 := s.updSup fun x => { x with safeCause := x.safeCause ||| BitVec.twoPow 8 n }
    if !s.campel then s1
    else match s.supply.change with
      | some c =>
        if c.target = 0 ∨ c.target = 3 then s1
        else if c.fromMode = .safe then abandonChange St.busy s1
        else safeEntry (abandonChange St.busy s1)
      | none => if s.supply.mode = .safe then s1 else safeEntry s1

/-- A cause of Table PWR.7 clears (R1006). -/
def clearSafe (n : Nat) (s : State) : State :=
  s.updSup fun x => { x with safeCause := x.safeCause &&& ~~~(BitVec.twoPow 8 n) }

/-! ### Completion of a change (Table PWR.6) -/

/-- Entry to SAFE completes: the channel and servo islands stop, MODE_CHANGED is written, the command ends (R1007). -/
def safeReached (old : Mode) (s : State) : State :=
  let s1 := modeChanged old.code 3 (stopChannel (s.updSup fun x => { x with safeEntry := none }))
  match s.supply.change with
  | some c => if c.target = 3 then finishMode St.ok (s1.updSup fun x => { x with change := none }) else s1
  | none => s1

/-- A change to KEEP completes. -/
def keepReached (old : Mode) (s : State) : State :=
  let s1 := stopRadio (stopChannel (s.updSup fun x => { x with change := none, millerSlow := true, safeN := true, clkRadio := false }))
  finishMode St.ok (modeChanged old.code 1 (setMode .keep s1))

/-- A change to RUN completes. -/
def runReached (old : Mode) (s : State) : State :=
  let s1 := s.updSup fun x => { x with change := none, safeN := true }
  finishMode St.ok (modeChanged old.code 2 (enterRun s1))

/-- MODE_CHANGE_COMPLETE: the condition of Table PWR.6's last column but one holds. -/
def modeComplete (s : State) : State :=
  match s.supply.safeEntry with
  | some old => if diskQuiet s then safeReached old s else s
  | none =>
    match s.supply.change with
    | some c =>
      if c.target = 1 ∧ diskQuiet s then keepReached c.fromMode s
      else if c.target = 2 ∧ crossingsOpen s then runReached c.fromMode s
      else s
    | none => s

/-- A change to KEEP or RUN starts (Table PWR.6). -/
def startChange (target : Nat) (s : State) : State :=
  let s1 := s.updSup fun x =>
    { x with change := some { target := target, fromMode := x.mode, isl := x.isl }, safeCause := x.safeCause &&& ~~~(BitVec.twoPow 8 3) }
  if target = 1 then (if s.supply.mode = .run then leaveRun s1 else s1)
  else startRadio (startChannel (s1.updSup fun x => { x with millerSlow := false }))

end Sys2Proof.Machine
end

