-- ==== Sys2Proof/Machine/SparOps.lean ====
section
/-!
DEFINITION. The Spar sequencers' memories, their load with patches, and the machine check (spec/07_spar_sequencers.md,
R323 to R342, R351, R352).
-/
namespace Sys2Proof.Machine
open Sys2Proof

/-- Spar `i`: 0 Formatter, 1 Cadence, 2 Radio. -/
def State.spar (s : State) (i : Nat) : Spar := vat s.spars i
/-- Change Spar `i`. -/
def State.updSpar (s : State) (i : Nat) (f : Spar → Spar) : State := { s with spars := upd s.spars i f }

/-- A Spar's island: its ID in Table TIM.6 (Table SPR.1). -/
def sparIsland : Nat → Nat
  | 0 => 13
  | 1 => 2
  | _ => 16

/-- The island of a Spar runs. -/
def sparPowered (s : State) : Nat → Bool
  | 0 => s.supply.isl.channel
  | 1 => s.supply.isl.timebase
  | _ => s.supply.isl.radio

/-! ### Memories -/

/-- The microword at a microaddress. -/
def Spar.word (x : Spar) (i a : Nat) : Nat := mgetD x.store a (Config.baseWord i a).toNat
/-- The dispatch entry of an OPC. -/
def Spar.entry (x : Spar) (i opc : Nat) : Nat := mgetD x.dispatch opc (Config.baseDispatch i opc).toNat
/-- The Spar instruction at an address of the active bank. -/
def Spar.instr (x : Spar) (a : Nat) : Nat := mgetD (vat x.prog x.bank) a 0

/-- The 17,408 bytes of a loaded store: microwords, then dispatch entries (Table SPR.9). -/
def loadedContent (i : Nat) (store dispatch : AMap Nat) : Bytes :=
  ((List.range 4096).flatMap fun a => leBytes 4 (mgetD store a (Config.baseWord i a).toNat)) ++
    (List.range 256).flatMap fun a => leBytes 4 (mgetD dispatch a (Config.baseDispatch i a).toNat)

/-! ### Patches (Table SPR.9, Table SPR.10, R341, R342) -/

/-- The records of a payload: kind, address, value. -/
def patchRecords (p : Bytes) : List (Nat × Nat × Nat) :=
  (List.range (p.length / 8)).map fun k => (byteAt p (8 * k), rd p (8 * k + 2) 2, rd p (8 * k + 4) 4)

/-- Every record of a payload is one of R342. -/
def recordsOk (p : Bytes) : Bool :=
  (List.range (p.length / 8)).all fun k =>
    byteAt p (8 * k + 1) == 0 &&
      ((byteAt p (8 * k) == 1 && decide (rd p (8 * k + 2) 2 < 4096)) || (byteAt p (8 * k) == 2 && decide (rd p (8 * k + 2) 2 < 256)))

/-- Records applied in order to the base store and dispatch table (R342). -/
def applyRecords (l : List (Nat × Nat × Nat)) : AMap Nat × AMap Nat :=
  l.foldl (fun m r => if r.1 = 1 then (mset m.1 r.2.1 r.2.2, m.2) else (m.1, mset m.2 r.2.1 r.2.2)) ([], [])

/-- The label of the patch keys, "LQ7400 SPAR PATCH" (R336). -/
def patchLabel : Bytes := [0x4C, 0x51, 0x37, 0x34, 0x30, 0x30, 0x20, 0x53, 0x50, 0x41, 0x52, 0x20, 0x50, 0x41, 0x54, 0x43, 0x48]

/-- The patch key of a Spar (R336). -/
def patchKey (s : State) (i : Nat) : Bytes := kdf (rootSecret s) patchLabel (leBytes 1 i) 256

/-- A retained patch: its level, its digest, its records (R340). -/
abbrev Patch := Nat × Bytes × List (Nat × Nat × Nat)

/-- Steps 2 to 6 of Table SPR.9 on a container: the failing step, or the patch. -/
def checkPatch (s : State) (i : Nat) (pub c : Bytes) : Nat ⊕ Patch :=
  let n := rd c 12 4
  let h := c.take 160
  if rd c 0 4 ≠ 0x5053514C ∨ rd c 4 2 ≠ 1 ∨ byteAt c 6 ≠ i ∨ byteAt c 7 ≠ 0 ∨ rd c 8 2 ≠ (Config.baseVersion i).toNat ∨ rd c 10 2 = 0 ∨
      n % 8 ≠ 0 ∨ 34816 < n ∨ c.length < 256 + n ∨ !zeroAt c 28 4 ∨ !zeroAt c 144 16 then .inl 2
  else if !Config.ecdsaOk pub (Config.sha384 (c.take (160 + n))) (slice c (160 + n) 96) then .inl 3
  else if !rootSecretOk s then .inl 4
  else
    match Config.gcmOpen (patchKey s i) (slice c 16 12) (h.take 32 ++ zeros 16 ++ h.drop 48) (slice c 160 n ++ slice c 32 16) with
    | none => .inl 4
    | some plain =>
      if Config.sha384 plain ≠ slice c 96 48 ∨ plain.length ≠ n ∨ !recordsOk plain then .inl 5
      else
        let m := applyRecords (patchRecords plain)
        if Config.sha384 (loadedContent i m.1 m.2) ≠ slice c 48 48 then .inl 6 else .inr (rd c 10 2, slice c 96 48, patchRecords plain)

/-- Step 7: the loaded store is in use, the version registers set, the Spar IDLE (Table SPR.9, R343). -/
def loadStore (i : Nat) (p : Option Patch) (s : State) : State :=
  let m := applyRecords ((p.map (·.2.2)).getD [])
  s.updSpar i fun x =>
    { x with state := .idle, base := (Config.baseVersion i).toNat, level := (p.map (·.1)).getD 0, digest := (p.map (·.2.1)).getD (zeros 48)
             store := m.1, dispatch := m.2, badStore := [], badDispatch := [], badProg := [], badScratch := [], patch := p
             actions := [], inQ := [], outQ := [], lines := [], fault := none, stall := none, pc := 0, loopLeft := none, reloading := false }

/-- PATCH_REJECTED: source and breadcrumb (R337). -/
def patchRejected (i step : Nat) (s : State) : State :=
  raiseCrumb 105 0x0CA5 4 0 (anyPayload 0x0CA5 [i, step]) s

/-- Load a Spar (R335 to R339, R351, R354): its patch section of the image, if any; `bad` when the read-back of the base
store fails. -/
def loadSpar (i : Nat) (pub : Bytes) (sect : Option Bytes) (bad : Bool) (s : State) : State :=
  if i = 2 ∧ s.isT then
    match sect with
    | some c => crumb 0x0C85 2 0 (anyPayload 0x0C85 [i, rd c 10 2]) s
    | none => s
  else
    let base (s : State) : State := if bad then s.updSpar i fun x => { x with state := .failed } else loadStore i none s
    match sect.map (checkPatch s i pub) with
    | none => base s
    | some (.inl step) => base (patchRejected i step s)
    | some (.inr p) =>
      if bad then base (patchRejected i 6 s)
      else crumb 0x0C84 1 0 (anyPayload 0x0C84 [i, p.1, rd p.2.1 0 4]) (loadStore i (some p) s)

/-! ### Machine check (R329 to R334) -/

/-- Every cadence output with a descriptor goes to its idle level, its fault flag set (Table SPR.8). -/
def cadenceFault (s : State) : State :=
  s.updTb fun b => { b with cadence := b.cadence.map fun c => if c.desc.kind = 0 then c else { c with fault := true, level := idleLevel c } }

/-- The outputs resume at the first TAI second boundary at least 1 ms after a reload (R333). -/
def cadenceResume (s : State) : State :=
  let sec := (s.timebase.now.inNs + 1000000 + 999999999) / 1000000000
  s.updTb fun b => { b with cadence := b.cadence.map fun c =>
    if c.desc.kind = 0 ∨ c.pending.isSome then c else { c with pending := some (c.desc, sec) } }

/-- The island of a stopped Spar takes the state of Table SPR.8 (R331, R630). -/
def sparIslandStop (i : Nat) (s : State) : State :=
  match i with
  | 0 => endAll St.notReady (closeGates s)
  | 1 => cadenceFault s
  | _ => radioMachineCheck s

/-- A fault of Table SPR.7 is taken (R330, R331, R334): cause code, microaddress, whether PARTIAL (R328). -/
def machineCheck (i cause uaddr : Nat) (part : Bool) (s : State) : State :=
  let x := s.spar i
  let s1 := s.updSpar i fun x =>
    { x with state := if 4 ≤ x.mcCount + 1 then .failed else .haltedMc, mcCount := min 255 (x.mcCount + 1), lastCause := cause
             lastUaddr := uaddr, lastPc := x.pc, lastPartial := part, actions := [], fault := none, stall := none }
  let s2 := crumbOf (sparIsland i) (120 + i) 0x0CA4 5 0 (anyPayload 0x0CA4 [i, cause, uaddr, x.pc, x.bank, b2n part]) (raiseSrc (120 + i) s1)
  enterSafe 0 (sparIslandStop i s2)

/-- No Spar is halted, failed or reloading: the cause MACHINE_CHECK clears (R332, Table PWR.7). -/
def mcClear (s : State) : State :=
  if s.spars.toList.any fun x => x.state == .haltedMc || x.state == .failed || x.reloading then s else clearSafe 0 s

end Sys2Proof.Machine
end

