-- ==== Sys2Proof/Machine/BootOps.lean ====
section
/-!
DEFINITION. What a device reset leaves and what the boot ROM does: straps, OTP checks, the keepsake area, image checks,
the rebuilding of the segment directory and the end of boot (spec/06_waking_boot_otp.md, R268 to R296; R660, R853, R1037
to R1042).
-/
namespace Sys2Proof.Machine
open Sys2Proof

/-! ### What survives (R24, R293, R830, R989, R1042) -/

/-- Highest sequence of a list of records. -/
def highSeq (l : List Record) : Nat := l.foldl (fun m x => max m x.seq) 0

/-- The recorder's non-volatile parts: journal, chronicle, bank headers; the rest is as at reset (R824, R830, R836, R852,
R853, R857). A chronicle sector written in part is read back as the open one. -/
def keptRecorder (r : Recorder) : Recorder :=
  let chr := r.chron.flatMap (·.2)
  let high := max (highSeq (r.journal.map (·.2.record))) (highSeq chr)
  let tail := mgetD r.chron r.nextIndex []
  { journal := r.journal, nextSlot := r.nextSlot, retired := r.retired, nvmFaulted := r.nvmFaulted, bankOk := r.bankOk
    chron := r.chron, header := r.header, nextIndex := r.nextIndex, firstSeq := r.firstSeq, pointer := r.pointer
    head := high, exhausted := high == seqLast, chronicled := highSeq chr
    openSector := if tail.length < 64 ∧ !tail.isEmpty ∧ highSeq tail = highSeq chr then tail else [] }

/-- Channel A through a device reset: a motor that turns is braked by the Guard island (R1042). -/
def keptMotorA (a : MotA) : MotA :=
  if a.state = .stopped ∨ a.state = .align then {} else { state := .brake, guardBrake := true }

/-- The timebase through a device reset: the first code is INITIAL_CODE, or mid-scale where TIME_OSC_CONFIG was not sent, so
what TIME_OSC_CONFIG set stands (R73; log entry 175). -/
def keptTimebase (b : Timebase) : Timebase :=
  { oscPresent := b.oscPresent, persistFails := b.persistFails, dacBits := b.dacBits, dacPrefix := b.dacPrefix
    dacPolarity := b.dacPolarity, dacSampleFalling := b.dacSampleFalling, dacGain := b.dacGain, initialCode := b.initialCode
    aging := b.aging, steer := b.initialCode.getD (2 ^ (b.dacBits - 1)) }

/-- The state that a loss of every rail but VGUARD leaves: what a device reset gives, over OTP, flash, NVM, the medium and
the levels at the balls. -/
def resetBase (s : State) : State :=
  { State.reset with
      boot := { otp := s.boot.otp, otpCorrected := s.boot.otpCorrected, otpBad := s.boot.otpBad, flash := s.boot.flash
                flashSize := s.boot.flashSize, eraseSize := s.boot.eraseSize, keepA := s.boot.keepA, keepB := s.boot.keepB
                pins := s.boot.pins, override := s.boot.override }
      recorder := keptRecorder s.recorder
      channel := { medium := s.channel.medium, defects := s.channel.defects, cal := s.channel.cal }
      motor := { a := keptMotorA s.motor.a }
      supply := { wakeN := s.supply.wakeN, resetN := s.supply.resetN, perstN := s.supply.perstN, peRefclk := s.supply.peRefclk
                  sdRefclk := s.supply.sdRefclk, vin := s.supply.vin, tj := s.supply.tj, heldWake := s.supply.heldWake
                  afterTrip := s.supply.afterTrip, thermN := s.supply.thermN }
      radio := { killN := s.radio.killN }
      net := { port := s.net.port.map fun x => { ({} : Port) with los := x.los } }
      timebase := keptTimebase s.timebase
      loft := { picks := s.loft.picks }
      out := s.out
      free := s.free
      pending := s.pending }

/-- Only the Guard island runs. -/
def noIslands : Islands :=
  { miller := false, timebase := false, loft := false, host := false, port := Vector.replicate 6 false, cascade := false
    crypto := false, channel := false, servo := false, motor := false, radio := false }

/-- Every rail but VGUARD goes off (R988, R989, R1004, R1012); SFP_TXDIS and the VAUX outputs as with no supply. -/
def powerOff (k : Power) (s : State) : State :=
  let b := resetBase s
  { b with supply := { b.supply with power := k, isl := noIslands } }

/-! ### OTP at boot (R283 to R288, Table BOT.6) -/

/-- A region is in integrity failure; an unprogrammed static region is none (R284, R285). -/
def regionFails (s : State) (r : Nat) : Bool :=
  match r with
  | 7 => counterBad s 7 128 128
  | 8 => counterBad s 8 256 64
  | _ => !otpBlank s r && !otpValid s r

/-- The first failing row of a region: an uncorrectable or invalid row, else its CRC row (R287). -/
def failingRow (s : State) (r : Nat) : Nat :=
  let bad (a n : Nat) (p : Nat → Bool) (d : Nat) : Nat := (((List.range n).map (· + a)).find? p).getD d
  match r with
  | 7 => bad 128 128 (fun i => s.boot.otpBad.contains i || (otpRow s i != counterMark 7 (i - 128) && decide (i - 128 < rollback s))) 128
  | 8 => bad 256 64 (fun i => s.boot.otpBad.contains i || (otpRow s i != counterMark 8 (i - 256) && decide (i - 256 < tally s))) 256
  | _ => match otpRegion r with
    | some (a, b) => bad a (b + 1 - a) s.boot.otpBad.contains b
    | none => 0

/-- A region failed: its alarm bit, source 104 and its record (R287). -/
def otpAlarm (r : Nat) (s : State) : State :=
  raiseCrumb 104 0x0CA0 4 0 (anyPayload 0x0CA0 [r, failingRow s r]) (s.updBoot fun b => { b with alarms := b.alarms ||| 2 ^ (r - 1) })

/-- The regions checked by the end of boot, the root secret by the crypto island and the tally by the recorder (Table
BOT.4). -/
def bootRegions : List Nat := [1, 2, 3, 4, 5, 6, 7, 8]

/-- SAFE at end of boot for the regions whose policy asks it: identity, trims and root secret, failed or unprogrammed, and a
region with its ALARM_SAFE bit (R288, Table BOT.6). -/
def otpSafe (s : State) : Bool :=
  ([1, 2, 4].any fun r => otpBlank s r || s.boot.alarms.testBit (r - 1)) ||
    [5, 6, 7].any fun r => s.boot.alarms.testBit (r - 1) && (policy s).testBit (15 + r)

/-- The ROM stage cannot go on: RECOVERY (R276). -/
def toRecovery (s : State) : State := s.updBoot fun b => { b with stage := .recovery }

/-- The ROM reads and checks OTP (Table BOT.1); without a usable root key hash, or with its source denied, it enters
RECOVERY (Table BOT.6, R276). -/
def romOtp (s : State) : State :=
  let s1 := (bootRegions.filter (regionFails s)).foldl (fun s r => otpAlarm r s) s
  let s2 := if otpSafe s1 then enterSafe 1 s1 else s1
  if otpBlank s 3 ∨ !otpValid s 3 then toRecovery s2
  else if (policy s).testBit (8 + s.boot.source) then toRecovery (s2.updBoot fun b => { b with fails := [8] })
  else s2

/-! ### The keepsake area at boot (R293 to R296, R548, R653) -/

/-- A schedule from its 16 bytes (Table TIM.18). -/
def schedOf (l : List Bytes) (kind : Nat) : Option Sched :=
  (l.find? fun b => byteAt b 6 == kind).map fun b => { instant := rd b 0 6, flags := byteAt b 7, value := rdS b 8 4 }

/-- Parts of the setup that the keepsake area holds go into force: spindle, format, log area (R293). -/
def putSetup (s : State) : State :=
  let k := keptSetup s
  let has (b : Nat) : Bool := (byteAt k 40).testBit b
  let s1 := if has 0 then s.updA fun a => { a with cfg := motAConfigOf (k.take 28), cfgSet := true } else s
  let s2 := if has 1 then s1.updA fun a => { a with gen := genlockOf (slice k 28 12), genSet := true } else s1
  let s3 := if has 2 then
      let f := setHda (slice k 41 44) {}
      let g := (List.range f.nZones).foldl (fun f z => setZone (slice k (85 + 12 * z) 12) f) f
      putFormat g (s2.updChn fun c => { c with draft := g })
    else s2
  if has 3 then s3.updDsk fun q => { q with logArea := some (rd k 469 6, rd k 475 6), logNext := rd k 469 6 } else s3

/-- The keepsake area is read, and the boot epoch is incremented in one update (R293 to R296). -/
def romKeepsake (s : State) : State :=
  if !s.boot.keepA.valid ∧ !s.boot.keepB.valid then
    let s1 := s.updBoot fun b => { b with keepA := {}, keepB := {}, epoch := 0, epochState := 2 }
    let s2 := (s1.updTb fun b => { b with gnssOffered := false }).updRec fun r =>
      { r with pointer := {}, collected := (r.header.map (·.collected)).getD 0 }
    crumb 0x0983 3 0 (anyPayload 0x0983 [s.recorder.nextIndex]) (crumb 0x0CA3 5 0 (anyPayload 0x0CA3 []) s2)
  else
    let k := bestKeep s.boot
    let s1 := putSetup (s.updTb fun b =>
      { b with utcOffset := k.offsets.1, localOffset := k.offsets.2, leap := schedOf k.schedules 1, localSched := schedOf k.schedules 2 })
    let s2 := (s1.updRec fun r => { r with pointer := k.pointer, collected := k.pointer.collected }).updCas fun c =>
      { c with fwdPtr := k.pointer.forward }
    if k.epoch = 0xFFFFFFFF then s2.updBoot fun b => { b with epoch := k.epoch }
    else if s.timebase.persistFails then s2.updBoot fun b => { b with epoch := k.epoch + 1, epochState := 1 }
    else keepUpdate (fun c => { c with epoch := k.epoch + 1 }) (s2.updBoot fun b => { b with epoch := k.epoch + 1 })

/-- What the ROM does before it fetches an image (Table BOT.1): VAUX on, OTP, the PCIe link trains, keepsake. -/
def romSteps (s : State) : State :=
  if s.boot.romDone then s
  else
    let s1 := s.updSup fun x =>
      { x with vaux5 := { x.vaux5 with on := true }, vaux3 := { x.vaux3 with on := true }, pcieUp := x.perstN && x.peRefclk }
    romKeepsake (romOtp (s1.updBoot fun b => { b with romDone := true }))

/-! ### Device reset (R24, R268, R277, R990, R1013, R1017, R1037) -/

/-- A device reset with a RESET_CAUSE: the straps are sampled and the boot begins. BOOT_RESTART's source is lost at
power-on and at RESET_N (R277). -/
def deviceReset (cause : Nat) (s : State) : State :=
  let b := resetBase s
  let named := if cause ∈ [0, 3, 7] then none else s.boot.override
  let p := s.boot.pins
  romSteps { b with
    boot := { b.boot with strap := p.bootSel % 4, role := p.role % 4, spi7 := p.miso, source := named.getD (p.bootSel % 4) % 4, override := none }
    supply := { b.supply with resetCause := cause, afterTrip := cause == 8, heldWake := none, thermN := true } }

/-- Held in device reset while RESET_N is low, for a RESET_CAUSE (R987). -/
def holdReset (cause : Nat) (s : State) : State :=
  let b := powerOff .resetHeld s
  { b with supply := { b.supply with resetNext := some cause, heldWake := none } }

/-- A device reset begins now, or waits for RESET_N (R987, R1049). -/
def startReset (cause : Nat) (s : State) : State := if s.supply.resetN then deviceReset cause s else holdReset cause s

/-! ### Image checks (Table BOT.7, R289 to R292) -/

/-- Boot flash bytes; an erased byte reads 0xFF. -/
def flashRead (s : State) (off n : Nat) : Bytes :=
  let w := s.boot.flash.filter fun c => off ≤ c.1 && c.1 < off + n
  (List.range n).map fun i => mgetD w (off + i) 0xFF#8

/-- Offset of a flash slot: 0 A, 1 B (Table BOT.3). -/
def slotBase (s : State) (k : Nat) : Nat := if k = 0 then 0 else s.boot.flashSize / 2

/-- Check 2 of Table BOT.7 on a header, for a place of `room` bytes. -/
def headerOk (h : Bytes) (room : Nat) : Bool :=
  rd h 0 4 == 0x4942514C && rd h 4 2 == 1 && rd h 6 2 == 256 && decide (rd h 8 4 ≤ 1048576) && decide (rd h 8 4 ≤ room) &&
    rd h 8 4 % 16 == 0 && decide (512 ≤ rd h 8 4)

/-- Sections of a header: type, offset, length. -/
def sectionsOf (h : Bytes) : List (Nat × Nat × Nat) :=
  (List.range (min 16 (rd h 26 2))).map fun i => (byteAt h (64 + 12 * i), rd h (68 + 12 * i) 4, rd h (72 + 12 * i) 4)

/-- Two sections overlap. -/
def overlap (a b : Nat × Nat × Nat) : Bool := decide (a.2.1 < b.2.1 + b.2.2) && decide (b.2.1 < a.2.1 + a.2.2)

/-- No two sections of a list overlap. -/
def apart : List (Nat × Nat × Nat) → Bool
  | [] => true
  | x :: l => !l.any (overlap x) && apart l

/-- Check 4: the section table and the reserved fields (R291, Tables BOT.8 and BOT.9). -/
def tableOk (h : Bytes) (img : Bytes) : Bool :=
  let n := rd h 26 2
  let len := rd h 8 4
  let l := sectionsOf h
  inRange 1 16 n && inRange 1 2 (byteAt h 24) && byteAt h 25 == 0 && zeroAt h 40 24 && zeroAt h (64 + 12 * n) (192 - 12 * n) &&
    (List.range n).all (fun i => zeroAt h (65 + 12 * i) 3) && zeroAt img (len - 64) 64 && apart l &&
    l.all (fun x => x.2.1 % 16 == 0 && decide (256 ≤ x.2.1) && decide (x.2.1 + x.2.2 ≤ len - 256)) &&
    (l.filter fun x => x.1 == 1).length == 1 && l.all (fun x => x.1 != 1 || decide (x.2.2 ≤ 917504)) &&
    [2, 3, 4].all fun t => decide ((l.filter fun x => x.1 == t).length ≤ 1)

/-- The 48 bytes of the root public-key hash, rows 72 to 83. -/
def rootHash (s : State) : Bytes := otpBytes s 72 12

/-- The public key of an image. -/
def imageKey (img : Bytes) : Bytes := slice img (rd img 8 4 - 256) 96

/-- The code of the first failed check on an image in a place of `room` bytes, 0 if all pass (Table BOT.7). -/
def imageCode (s : State) (room : Nat) (img : Bytes) : Nat :=
  let len := rd img 8 4
  let b := img.take len
  if img.length < 256 then 1
  else if !headerOk img room then 2
  else if b.length < len then 1
  else if rd b 16 2 ≠ 0x7400 ∨ !(byteAt b 18).testBit (b2n s.isT) then 3
  else if !tableOk (b.take 256) b then 4
  else if Config.sha384 (imageKey b) ≠ rootHash s then 5
  else if !Config.ecdsaOk (imageKey b) (Config.sha384 (b.take (len - 160))) (slice b (len - 160) 96) then 6
  else if byteAt b 19 < rollback s then 7
  else 0

/-- The header of an image that passed (Table BOT.8). -/
def headerOf (b : Bytes) : ImageHeader :=
  { length := rd b 8 4, sequence := rd b 12 4, device := rd b 16 2, funcMask := byteAt b 18, secVersion := byteAt b 19
    campel := rd b 20 4, startMode := byteAt b 24, sections := sectionsOf b }

/-- The bytes in a flash slot that an image check reads. -/
def slotImage (s : State) (k : Nat) : Bytes :=
  let h := flashRead s (slotBase s k) 256
  if headerOk h (s.boot.flashSize / 2) then flashRead s (slotBase s k) (rd h 8 4) else h

/-- The first slot to try of two headers: the one that passes check 2 with the higher SEQUENCE, A when equal (R278). -/
def firstSlot (room : Nat) (a b : Bytes) : Nat :=
  if headerOk b room && (!headerOk a room || decide (rd a 12 4 < rd b 12 4)) then 1 else 0

/-- IMAGE_REJECTED, and ROLLBACK_REFUSED for check 7 (R292). -/
def imageRejected (code : Nat) (s : State) : State :=
  if code = 7 then raiseCrumb 109 0x0CA1 3 0 (anyPayload 0x0CA1 [code]) s
  else crumb 0x0CA1 4 0 (anyPayload 0x0CA1 [code]) s

/-- A section's bytes. -/
def sectionOf (b : Bytes) (type : Nat) : Option Bytes :=
  ((sectionsOf b).find? fun x => x.1 == type).map fun x => slice b x.2.1 x.2.2

/-- An image passed: Campel starts from it, the Spars are loaded with its patches (R291, R335); `bad` names the Spars whose
base store fails its read-back. -/
def imageTaken (slot source : Nat) (img : Bytes) (bad : List Nat) (s : State) : State :=
  let b := img.take (rd img 8 4)
  let s1 := s.updBoot fun x =>
    { x with image := some (headerOf b), imageBytes := b, slot := slot, source := source, starting := true }
  [0, 1, 2].foldl (fun s i => loadSpar i (imageKey b) (sectionOf b (i + 2)) (bad.contains i) s) s1

/-! ### The segment directory after a restart (R660, R947, R948) -/

/-- A segment record read from a breadcrumb's payload (Table DSK.9). -/
def rdSegment (id : Nat) (p : Bytes) : Segment :=
  { id, channel := rd p 0 2, flags := byteAt p 2, origin := if (byteAt p 2).testBit 6 then some 8 else none, start := rd p 4 6
    stop := rd p 10 6, firstLba := rd p 16 6, lastLba := rd p 22 6, lastSeq := rd p 28 4 }

/-- Replace the segment a record names: the last one of its channel and START. -/
def segReplace (g : Segment) (f : Segment → Segment) (l : List Segment) : List Segment :=
  match l.reverse.find? fun x => x.channel == g.channel && x.start == g.start with
  | some y => l.map fun x => if x.id = y.id then f x else x
  | none => l

/-- One recorder record's effect on the directory being rebuilt; the next name counts on. -/
def segRecord (a : Nat × List Segment) (x : Record) : Nat × List Segment :=
  let g := rdSegment a.1 x.payload
  if x.flags.testBit 6 then a
  else if x.code = 0x048F then (a.1 + 1, a.2 ++ [g])
  else if x.code = 0x0490 ∨ x.code = 0x0491 then (a.1, segReplace g (fun y => { g with id := y.id, retired := y.retired }) a.2)
  else if x.code = 0x0492 then (a.1, segReplace g (fun y => { y with retired := true }) a.2)
  else a

/-- Records that the restarted recorder can read: journal and a chronicle of this module. -/
def bootRecords (s : State) : List Record :=
  let r := s.recorder
  bySeq (r.staging ++ r.journal.map (·.2.record) ++ if chronNow s = .none ∨ chronNow s = .foreign then [] else chronRecords r)

/-- The last verified sector of a segment by the stamps from FIRST_LBA forward: its LBA and stamp. -/
def lastStamp (s : State) (g : Segment) : Option (Nat × Stamp) :=
  let dist (lba : Nat) : Nat := (lba + logLen s - g.firstLba) % max 1 (logLen s)
  (s.channel.medium.filter fun p =>
      p.2.verified && p.2.stamp.channel == g.channel && decide (g.start ≤ p.2.stamp.time.sec) && decide (logFirst s ≤ p.1) &&
        decide (p.1 < logFirst s + logLen s)).foldl
    (fun m p => match m with
      | some q => if dist q.1 < dist p.1 then some (p.1, p.2.stamp) else m
      | none => some (p.1, p.2.stamp)) none

/-- A segment that was left open is closed with CUT at its last verified sector (R660). -/
def cutSegment (s : State) (g : Segment) : State :=
  if !g.flags.testBit 0 ∨ g.retired then s
  else
    let g1 := match lastStamp s g with
      | some (lba, x) => { g with lastLba := lba, lastSeq := x.seq, lastSec := x.time.sec, verified := some (lba, x.seq) }
      | none => { g with lastLba := 0, lastSeq := 0, verified := none }
    closeSeg 16 g1 s

/-- Each channel whose last segment was cut marks its next sector with GAP (R948). -/
def gapChannels (s : State) : State :=
  (s.diskq.segs.filter fun g => g.flags.testBit 4 && g.origin.isNone).foldl (fun s g => s.updRecChan g.channel fun c => { c with gapNext := true }) s

/-- The directory is rebuilt, open segments are closed, and the log resumes at the next block (R660). -/
def rebuildSegments (s : State) : State :=
  let (n, l) := (bootRecords s).foldl segRecord (1, [])
  let s1 := s.updDsk fun q => { q with segs := l, nextSeg := n }
  let s2 := gapChannels (l.foldl cutSegment s1)
  let live := s2.diskq.segs
  if live.isEmpty ∨ s2.diskq.logArea.isNone then s2
  else
    let far := live.foldl (fun m g => max m (g.lastLba - logFirst s2)) 0
    s2.updDsk fun q => { q with logNext := logFirst s2 + (far / 256 + 1) * 256 % max 1 (logLen s2) }

/-! ### The end of boot (R189, R272 to R275, R295, R794, R829, R874) -/

/-- RECORDER_RESUMED (R829). -/
def recorderResumed (s : State) : State :=
  let r := s.recorder
  crumb 0x0980 1 0 (leBytes 6 r.head ++ leBytes 2 r.retired.length ++ leBytes 1 (tally s) ++
    leBytes 1 (match chronNow s with
      | .none => 0
      | .active => 1
      | .foreign => 2
      | .unavailable => 3)) s

/-- Tenants at the end of boot (R189). -/
def enableTenants (s : State) : State :=
  (List.range 8).foldl (fun s t => if 1 ≤ t ∧ (policy s).testBit t then s.updTen t fun x => { x with state := .ready } else s) s

/-- What was found in the ROM stage is raised once per source, and written (R274). -/
def raiseDeferred (s : State) : State :=
  let l := s.boot.deferred
  let s1 := s.updBoot fun b => { b with deferred := [] }
  let s2 := ((l.map (·.1)).eraseDups.filter (· < 128)).foldl (fun s n => raiseSrc n s) s1
  l.foldl (fun s x => crumbOf 1 x.1 x.2.1 x.2.2.1 0 x.2.2.2 s) s2

/-- The islands of the start mode (R998). -/
def bootIslands (s : State) (run : Bool) : Islands :=
  let fast : Bool := run && s.supply.sdRefclk
  { channel := fast, servo := fast, radio := fast && !s.isT }

/-- The role of the strap takes hold (Table CAS.1, R874). -/
def bootRole (s : State) : State :=
  s.updCas fun c =>
    match s.boot.role with
    | 1 => { c with acting := .ridge, position := 0, valid := true, ridgePos := some 0 }
    | 0 => c
    | _ => if c.valid ∨ c.outside then c else { c with acting := .rafter }

/-- BOOT_COMPLETE's payload (R275). -/
def bootPayload (s : State) : Bytes :=
  let b := s.boot
  let h := b.image.getD {}
  leBytes 4 (if b.epochState = 2 then 0 else b.epoch) ++ leBytes 1 b.epochState ++ leBytes 1 b.source ++ leBytes 1 b.slot ++
    leBytes 1 h.secVersion ++ leBytes 4 h.sequence ++ leBytes 4 h.campel ++ leBytes 1 (rollback s) ++ leBytes 1 b.alarms ++
    leBytes 1 s.supply.resetCause ++ leBytes 1 s.supply.mode.code ++ leBytes 1 (b.fails.getD 0 0) ++ leBytes 1 (b.fails.getD 1 0) ++ zeros 10

/-- The mode that the boot ends in: START_MODE, or SAFE when a cause stands (R272, R288, R338). -/
def bootMode (s : State) : State :=
  let run := (s.boot.image.map (·.startMode)).getD 1 == 2
  let s1 := s.updSup fun x => { x with isl := bootIslands s run, millerSlow := !run }
  let s2 := [0, 1, 2].foldl (fun s i => if sparPowered s i then sparResume i s else s) s1
  let s3 := if s2.spars.toList.any fun x => x.state == .failed then s2.updSup fun x => { x with safeCause := x.safeCause ||| 1 } else s2
  if s3.supply.safeCause ≠ 0 then setMode .safe (stopChannel s3)
  else
    let s4 := s3.updSup fun x => { x with safeN := true }
    if run then enterRun s4 else setMode .keep s4

/-- Boundary scan becomes unlocked at the end of boot while DEBUG_LOCK is clear, an unprogrammed region included, and its
region has no integrity failure (R807, R808). -/
def bootScan (s : State) : State :=
  if (debugRow s).testBit 0 || debugBad s then s else unlockScan s

/-- The boot ends (R274, R275): the recorder resumes, the directory is rebuilt, tenants are enabled, deferred alarms are
raised, boundary scan is unlocked, the mode is entered, source 108 is raised for the epoch, and BOOT_COMPLETE is written last. -/
def bootComplete (s : State) : State :=
  let s1 := recorderResumed (s.updBoot fun b => { b with stage := .campel, starting := false })
  let s2 := raiseDeferred (bootRole (enableTenants (rebuildSegments s1)))
  let s3 := bootMode (bootScan s2)
  let s4 := if s3.boot.epochState ≠ 0 ∨ s3.boot.epoch = 0xFFFFFFFF then raiseSrc 108 s3 else s3
  crumb 0x0C80 2 0 (bootPayload s4) s4

end Sys2Proof.Machine
end

