-- ==== Sys2Proof/Machine/Boot.lean ====
section
/-!
DEFINITION. Waking, device resets, the boot's events and the 0x0Cxx boot and OTP commands (spec/06_waking_boot_otp.md;
R985 to R990 of spec/19_supply_and_modes.md; R1037 to R1051 of spec/20_ball_map.md; R1080 of
spec/21_electrical_and_package.md).
-/
namespace Sys2Proof.Machine
open Sys2Proof

/-! ### Waking and reset -/

/-- The levels that the next sample of the straps takes (R1037, R1052). -/
def withPins (bootSel role : Nat) (miso : Bool) (s : State) : State :=
  s.updBoot fun b => { b with pins := { bootSel := bootSel % 4, role := role % 4, miso := miso } }

/-- The RESET_CAUSE of a wake by a power state (Table PWR.9): the highest code that applies. -/
def wakeCause (p : Power) (code : Nat) : Nat :=
  match p with
  | .tripped => 8
  | .lockout => 7
  | .guardOnly => 0
  | _ => code

/-- A wake is accepted, or held: after a thermal trip while the monitor reads 100 °C or more (R1013). -/
def takeWake (code : Nat) (s : State) : State :=
  if s.supply.power = .tripped ∧ 1000 ≤ s.supply.tj then s.updSup fun x => { x with heldWake := some 8 }
  else startReset (wakeCause s.supply.power code) s

/-- VIN has been at or above 10.5 V for `forUs`; `fell` when it had been below 8.0 V (Table PWR.3, R986, R988, R1020). -/
def vinWake (vin forUs : Nat) (fell : Bool) (s : State) : State :=
  if vin < 10500 ∨ forUs < 1000 then s
  else
    let s1 := s.updSup fun x => { x with vin := vin }
    match s.supply.power with
    | .guardOnly | .lockout => takeWake 0 s1
    | .shelf | .tripped =>
      match s.supply.heldWake with
      | some c => takeWake c s1
      | none => if fell then takeWake 1 s1 else s1
    | .on =>
      if s.supply.pfail ∧ !s.campel ∧ fell then
        let s2 := startReset 9 s1
        { s2.drawn with supply := { s2.supply with resetCause := s2.draw 8 % 16 } }
      else s1
    | _ => s1

/-- The meaning of VIN_WAKE. -/
def execVinWake (vin forUs : Nat) (fell : Bool) (bootSel role : Fin 4) (miso : Bool) (s : State) : Res :=
  .next (vinWake vin forUs fell (withPins bootSel.val role.val miso s))

/-- WAKE_N is low for `forUs`: recognised in SHELF from 1 ms, never below 0.5 ms (Table PWR.3; between them it is open); held
while VIN is below 10.5 V or SHELF is being entered (R986, R1005, R1025). -/
def wakeN (vin forUs : Nat) (s : State) : State :=
  let seen : Bool := 1000 ≤ forUs || (500 ≤ forUs && s.draw 9 % 2 == 1)
  let s1 := if 500 ≤ forUs ∧ forUs < 1000 then s.drawn else s
  if !seen then s1
  else match s.supply.power with
    | .shelf | .tripped => if vin < 10500 then s1.updSup fun x => { x with heldWake := some 2 } else takeWake 2 s1
    | .on => if s.supply.change.any (fun c => c.target == 0) then s1.updSup fun x => { x with heldWake := some 2 } else s1
    | _ => s1

/-- The meaning of WAKE_N. -/
def execWakeN (vin forUs : Nat) (bootSel role : Fin 4) (miso : Bool) (s : State) : Res :=
  .next (wakeN vin forUs (withPins bootSel.val role.val miso s))

/-- A blind retract made by the Guard island (R518, R979, R1041): PA_WG low, the hardware path mutes; none is made twice
(R1027, R1050). -/
def guardRetract (cause : Nat) (s : State) : State :=
  let s1 := hardMute (closeGates (s.updSup fun x => { x with resetNext := some (max cause (x.resetNext.getD 0)) }))
  startUnload (s1.updChn fun c => if c.state = .unloading then c else { c with servoValid := false, loadRetry := false })

/-- The meaning of RESET_N: low for `forUs` (Table PWR.3, R987, R1041, R1050). -/
def execResetN (forUs : Nat) (s : State) : Res :=
  .next (if forUs < 10 then s
    else
      let s1 := s.updSup fun x => { x with resetN := false }
      if s.supply.power ≠ .on then s1
      else if headsLoaded s then guardRetract 3 s1
      else holdReset (max 3 (s.supply.resetNext.getD 0)) s1)

/-- The meaning of RETRACT_END_RESET: the retract has ended and the device reset that waited for it begins (R979, R1041,
R1042, R1049). -/
def execRetractEndReset (bootSel role : Fin 4) (miso : Bool) (s : State) : Res :=
  .next (match s.supply.power, s.supply.resetNext with
    | .on, some c => startReset c (withPins bootSel.val role.val miso s)
    | _, _ => s)

/-- The meaning of RESET_N_RELEASE (R987, R1049). -/
def execResetNRelease (bootSel role : Fin 4) (miso : Bool) (s : State) : Res :=
  let s1 := s.updSup fun x => { x with resetN := true }
  .next (if s.supply.power = .resetHeld then deviceReset (max 3 (s.supply.resetNext.getD 3)) (withPins bootSel.val role.val miso s1)
    else s1)

/-- The meaning of GUARD_POWER_ON_RESET: everything but NVM and OTP is lost (R989). -/
def execGuardPowerOnReset (vin : Nat) (s : State) : Res :=
  .next (if 2200 ≤ vin then s
    else
      let b := powerOff .guardReset s
      { b with supply := { b.supply with vin := vin, heldWake := none, afterTrip := false, thermN := true }
               boot := { b.boot with override := none }, motor := {}
               timebase := { oscPresent := s.timebase.oscPresent, persistFails := s.timebase.persistFails } })

/-- The meaning of GUARD_RESET_RELEASE (Table PWR.3). -/
def execGuardResetRelease (vin : Nat) (s : State) : Res :=
  .next (if s.supply.power = .guardReset ∧ 2500 ≤ vin then s.updSup fun x => { x with power := .guardOnly, vin := vin } else s)

/-- The meaning of UNDERVOLTAGE_LOCKOUT (R988): VHOLD, mV, for `forUs`. -/
def execUndervoltageLockout (vhold forUs : Nat) (s : State) : Res :=
  .next (if 6000 ≤ vhold ∨ forUs < 2 then s
    else match s.supply.power with
      | .on | .resetHeld | .shelf => powerOff .lockout s
      | _ => s)

/-- The meaning of HELD_WAKE_RELEASE: the monitor's reading in 0.1 °C (R1013). -/
def execHeldWakeRelease (tj : Int) (bootSel role : Fin 4) (miso : Bool) (s : State) : Res :=
  let s1 := withPins bootSel.val role.val miso (s.updSup fun x => { x with tj := tj })
  .next (match s.supply.power, s.supply.heldWake with
    | .tripped, some c => if tj < 1000 then takeWake c s1 else s1
    | _, _ => s1)

/-! ### PCIe clock and PERST_N (R271, R1080) -/

/-- The PCIe link is up when PERST_N is high and its clock runs. -/
def trainPcie (s : State) : State := s.updSup fun x => { x with pcieUp := x.perstN && x.peRefclk && x.isl.host }

/-- The meaning of PERST_N_RELEASE (R271). -/
def execPerstNRelease (s : State) : Res := .next (trainPcie (s.updSup fun x => { x with perstN := true }))
/-- The meaning of PE_REFCLK_LOSS (R1080). -/
def execPeRefclkLoss (s : State) : Res := .next (trainPcie (s.updSup fun x => { x with peRefclk := false }))
/-- The meaning of PE_REFCLK_RESTORED (R1080). -/
def execPeRefclkRestored (s : State) : Res := .next (trainPcie (s.updSup fun x => { x with peRefclk := true }))

/-! ### The image check and the end of boot -/

/-- An attempt failed with a code: it is recorded, and the other slot is tried or RECOVERY entered (R276, R278, R308). -/
def attemptFailed (code k : Nat) (other : Bool) (s : State) : State :=
  let s1 := imageRejected code (s.updBoot fun b =>
    { b with fails := b.fails ++ [code], tried := k :: b.tried, starting := false, image := none, imageBytes := [], slot := 255 })
  if other ∧ s1.boot.tried.length < 2 then s1 else toRecovery s1

/-- One attempt on an image in a place of `room` bytes. -/
def tryImage (room slot source : Nat) (other readError : Bool) (img : Bytes) (bad : List Nat) (s : State) : State :=
  let code := if readError then 1 else imageCode s room img
  if code = 0 then imageTaken slot source img bad s else attemptFailed code slot other s

/-- The slot to try now: the better one first, then the other (R278). -/
def slotNow (s : State) (room : Nat) (a b : Bytes) : Nat :=
  match s.boot.tried with
  | [] => firstSlot room a b
  | k :: _ => 1 - k

/-- BOOT_PUSH_DONE's image is checked (R276, R280, R306): what fails stays in FAIL_FIRST, and the module in RECOVERY. -/
def pushCheck (j : Job) (bad : List Nat) (s : State) : State :=
  let len := rd j.data 0 4
  let img := loftRead s (yAddr 12288 0) (min len 1048576)
  let code := if 1048576 < len ∨ len ≠ rd img 8 4 then 2 else imageCode s 1048576 img
  if code = 0 then completeJob j St.ok [] (imageTaken 255 2 img bad s)
  else
    let s1 := imageRejected code (s.updBoot fun b => { b with fails := [code] })
    completeJob j (s1.draw 5 % 256) [] (toRecovery s1).drawn

/-- One check of an image by the source of this boot (Table BOT.3, R276 to R281). -/
def imageCheck (copies : List Bytes) (readError : Bool) (bad : List Nat) (s0 : State) : State :=
  let s := romSteps s0
  if s.campel ∨ s.boot.starting ∨ s.supply.pfail then s
  else match findJob s 0x0C05 0 with
    | some j => pushCheck j bad s
    | none =>
      if s.boot.stage = .recovery then s
      else match s.boot.source with
        | 0 =>
          let room := s.boot.flashSize / 2
          let k := slotNow s room (flashRead s 0 256) (flashRead s room 256)
          tryImage room k 0 true (readError || decide (s.boot.flashSize < 4194304)) (slotImage s k) bad s
        | 1 =>
          let k := slotNow s 1048576 (copies.getD 0 []) (copies.getD 1 [])
          tryImage 1048576 k 1 true readError (copies.getD k []) bad s
        | 2 => s
        | _ =>
          if s.boot.role < 2 then attemptFailed 1 255 false s
          else if s.cascade.image.isEmpty ∨ s.cascade.image.length < s.cascade.imageLen then
            (if readError then attemptFailed 1 255 false s else s)
          else tryImage 1048576 255 3 false readError s.cascade.image bad s

/-- The meaning of BOOT_IMAGE_CHECK: the copies A and B of the disk source, whether the source met a read error, the Spars
whose base store fails its read-back. -/
def execBootImageCheck (copies : List Bytes) (readError : Bool) (bad : List (Fin 3)) (s : State) : Res :=
  s.running (imageCheck copies readError (bad.map (·.val)))

/-- The meaning of CAMPEL_START_TIMEOUT (R308). -/
def execCampelStartTimeout (ms : Nat) (s : State) : Res :=
  s.running fun s =>
    if s.boot.starting ∧ 100 ≤ ms then attemptFailed 1 s.boot.slot (decide (s.boot.slot < 2)) s else s

/-- The meaning of CASCADE_BOOT_TIMEOUT (R281). -/
def execCascadeBootTimeout (forS : Nat) (s : State) : Res :=
  s.running fun s =>
    if s.boot.romDone ∧ s.boot.stage = .rom ∧ s.boot.source = 3 ∧ !s.boot.starting ∧ 300 ≤ forS then toRecovery s else s

/-- The meaning of BOOT_COMPLETE. -/
def execBootComplete (s : State) : Res :=
  s.running fun s => if s.boot.starting ∧ !s.supply.pfail then bootComplete s else s

/-! ### Commands (Table BOT.10) -/

/-- STAGE of Table BOT.11. -/
def Stage.code : Stage → Nat
  | .rom => 1
  | .recovery => 2
  | .campel => 3

/-- 0x0C01 BOOT_GET_STATUS (Table BOT.11). -/
def cmdBootGetStatus : Cmd :=
  { op := 0x0C01, limited := always, rom := true
    run := fun s _ _ =>
      let b := s.boot
      let h : ImageHeader := if s.campel then b.image.getD {} else {}
      .done St.ok (leBytes 1 b.stage.code ++ leBytes 1 b.source ++ leBytes 1 (if s.campel then b.slot else 255) ++
        leBytes 1 h.secVersion ++ leBytes 4 h.sequence ++ leBytes 1 (rollback s) ++ leBytes 1 (b.fails.getD 0 0) ++
        leBytes 1 (b.fails.getD 1 0) ++ leBytes 1 b.alarms ++ leBytes 4 b.epoch ++ leBytes 1 b.epochState ++
        leBytes 1 b.lastStatus ++ zeros 2 ++ leBytes 4 b.lastToken ++ leBytes 4 h.campel) s }

/-- A row of the root secret region (R286). -/
def secretRow (i : Nat) : Bool := decide (88 ≤ i) && decide (i ≤ 103)

/-- The word BOOT_OTP_READ returns of a row: a secret row is zero, an uncorrectable one is open (R283, R286). -/
def otpShown (s : State) (i : Nat) : Nat :=
  if secretRow i then 0 else if s.boot.otpBad.contains i then Config.freeValue (256 + i) s.free % 2 ^ 32 else otpRow s i

/-- 0x0C02 BOOT_OTP_READ (R283, R286, R310). -/
def cmdBootOtpRead : Cmd :=
  { op := 0x0C02, rights := byZero, rom := true, len := exactly 4
    fields := fun _ _ p => inRange 1 32 (byteAt p 2) && byteAt p 3 == 0 && decide (rd p 0 2 + byteAt p 2 ≤ 1024)
    run := fun s _ p =>
      let l := (List.range (byteAt p 2)).map (rd p 0 2 + ·)
      .done St.ok ((l.flatMap fun i => leBytes 4 (otpShown s i)) ++ l.flatMap fun i =>
        leBytes 1 (b2n (s.boot.otpCorrected.contains i) + 2 * b2n (s.boot.otpBad.contains i) + 4 * b2n (secretRow i))) s.drawn }

/-- Reserved bits and rows of a region's content (Tables BOT.4, BOT.5 and KEY.5). -/
def otpContentOk (r : Nat) (c : Bytes) : Bool :=
  match r with
  | 3 => zeroAt c 48 12
  | 5 => zeroAt c 4 24 && byteAt c 3 == 0 && byteAt c 0 % 2 == 0
  | 6 => zeroAt c 1 27 && decide (byteAt c 0 < 8)
  | _ => false

/-- OTP programming must wait (R301). -/
def otpBusy (s : State) : Bool := s.supply.pfail || decide (s.supply.vin < 11500) || s.boot.burn.isSome

/-- 0x0C03 BOOT_OTP_PROGRAM (R299, R301). -/
def cmdBootOtpProgram : Cmd :=
  { op := 0x0C03, rights := byZero, rom := true, ownPfail := true
    len := fun p => match byteAt p 0 with
      | 3 => p.length == 64
      | 5 | 6 => p.length == 32
      | _ => decide (4 ≤ p.length)
    fields := fun _ _ p => byteAt p 0 ∈ [3, 5, 6] && zeroAt p 1 3 && otpContentOk (byteAt p 0) (p.drop 4)
    run := fun s _ p =>
      let r := byteAt p 0
      match otpRegion r with
      | none => .done St.badField [] s
      | some (a, b) =>
        if !otpBlank s r then .done St.notPermitted [] s
        else if otpBusy s then .done St.busy [] s
        else
          let c := p.drop 4
          let rows := ((List.range (b - a)).map fun i => (a + i, rd c (4 * i) 4)) ++ [(b, crc32 (fit (4 * (b - a)) c))]
          .accept { waits := true } (s.updBoot fun x => { x with burn := some { region := r, rows := rows } }) }

/-- 0x0C04 BOOT_ROLLBACK_COMMIT (R300, R301). -/
def cmdBootRollbackCommit : Cmd :=
  { op := 0x0C04, rights := byZero, ownPfail := true
    run := fun s _ _ =>
      let want := (s.boot.image.map (·.secVersion)).getD 0
      if otpBusy s then .done St.busy [] s
      else if want ≤ rollback s then .accept {} s
      else
        let rows := (List.range (want - rollback s)).map fun i => (128 + rollback s + i, counterMark 7 (rollback s + i))
        .accept { waits := true } (s.updBoot fun x => { x with burn := some { region := 7, rows := rows } }) }

/-- Burn rows of the programming command in progress: at most `n` of them (R299, R300, R303). -/
def burnRows : Nat → State → State
  | 0, s => s
  | n + 1, s =>
    match s.boot.burn with
    | none => s
    | some x =>
      match x.rows with
      | [] => s
      | (i, w) :: l =>
        burnRows n ((s.updBoot fun b =>
          { b with otp := mset b.otp i w, burn := some { x with rows := l, burned := x.burned + 1 } }).emit (.otp i w))

/-- Burn every row left. -/
def burnAll (s : State) : State := burnRows ((s.boot.burn.map (·.rows.length)).getD 0) s

/-- The programming command ends: its breadcrumb and its completion; a read-back that fails has no status of its own in the
spec (log entry 40). -/
def burnEnd (ok : Bool) (s0 : State) : State :=
  let s := burnAll s0
  match s.boot.burn with
  | none => s
  | some x =>
    let s1 := s.updBoot fun b => { b with burn := none }
    let s2 := if x.region = 7 then (if x.burned = 0 then s1 else crumb 0x0C81 2 0 (anyPayload 0x0C81 [rollback s1]) s1)
      else crumb 0x0C82 2 0 (anyPayload 0x0C82 [x.region]) s1
    let op := if x.region = 7 then 0x0C04 else 0x0C03
    if ok then finish op 0 St.ok [] s2 else finish op 0 (s2.draw 5 % 256) [] s2.drawn

/-- The meaning of OTP_PROGRAM_COMPLETE: whether every row read back right. -/
def execOtpProgramComplete (ok : Bool) (s : State) : Res := s.running (burnEnd ok)

/-- 0x0C05 BOOT_PUSH_DONE (R276, R306, R307); while another source's image is being fetched it answers BUSY (log entry
41). -/
def cmdBootPushDone : Cmd :=
  { op := 0x0C05, rights := byZero, rom := true, inCampel := false, len := exactly 4
    run := fun s _ p =>
      if s.boot.stage = .recovery ∧ (policy s).testBit 12 then .done St.notPermitted [] s
      else if inFlight s 0x0C05 ∨ s.boot.starting ∨ (s.boot.stage = .rom ∧ s.boot.source ≠ 2) then .done St.busy [] s
      else .accept { data := p, waits := true } s }

/-- The highest epoch in any BOOT_COMPLETE record that can be read (R297). -/
def highEpoch (s : State) : Nat :=
  (allRecords s).foldl (fun m x => if x.code = 0x0C80 ∧ !x.flags.testBit 6 then max m (rd x.payload 0 4) else m) 0

/-- 0x0C06 BOOT_EPOCH_SET (R297); with the epoch PERSISTED its value is refused (log entry 42). -/
def cmdBootEpochSet : Cmd :=
  { op := 0x0C06, rights := byZero, len := exactly 4
    run := fun s _ p =>
      if s.boot.epochState = 0 ∨ rd p 0 4 ≤ highEpoch s then .done St.badField [] s
      else if s.timebase.persistFails then .done St.internal [] s
      else .done St.ok [] (keepUpdate (fun k => { k with epoch := rd p 0 4 })
        (s.updBoot fun b => { b with epoch := rd p 0 4, epochState := 0 })) }

/-- 0x0C07 BOOT_RESTART (R277): the device reset follows 1 ms after the response. -/
def cmdBootRestart : Cmd :=
  { op := 0x0C07, rights := byZero, rom := true, len := exactly 4
    fields := fun _ _ p => (byteAt p 0 ≤ 3 || byteAt p 0 == 0xFF) && zeroAt p 1 3
    run := fun s _ p =>
      .done St.ok [] (s.updBoot fun b =>
        { b with override := if byteAt p 0 = 0xFF then none else some (byteAt p 0), restartAt := some (s.up + 1000) }) }

/-- A range touches the slot the running image came from; not looked at before the Campel stage (R302). -/
def touchesRunning (s : State) (off n : Nat) : Bool :=
  s.campel && s.boot.source == 0 && decide (s.boot.slot < 2) && decide (off < slotBase s s.boot.slot + s.boot.flashSize / 2) &&
    decide (slotBase s s.boot.slot < off + n)

/-- 0x0C08 BOOT_FLASH_ERASE (R302). -/
def cmdBootFlashErase : Cmd :=
  { op := 0x0C08, rights := byZero, rom := true, len := exactly 8
    fields := fun s _ p =>
      rd p 0 4 % max 1 s.boot.eraseSize == 0 && rd p 4 4 % max 1 s.boot.eraseSize == 0 &&
        decide (rd p 0 4 + rd p 4 4 ≤ s.boot.flashSize) && !touchesRunning s (rd p 0 4) (rd p 4 4)
    run := fun s _ p =>
      if s.boot.flashOp.isSome then .done St.busy [] s
      else .accept { waits := true } ((s.updBoot fun b => { b with flashOp := some { op := 0x0C08, offset := rd p 0 4, length := rd p 4 4 } }).emit
        (.flash 0x0C08 (rd p 0 4) (rd p 4 4))) }

/-- A handle BOOT_FLASH_WRITE may name: one of the tenant's, or before the Campel stage one of the push area (R280). -/
def flashHandle (s : State) (t h : Nat) : Bool :=
  usable s t h || (!s.campel && hOwner h == 0 && hGen h == 1 && decide (12288 ≤ hIndex h) && decide (hIndex h < 12544))

/-- 0x0C09 BOOT_FLASH_WRITE (R302). -/
def cmdBootFlashWrite : Cmd :=
  { op := 0x0C09, rights := byZero, rom := true, len := exactly 12
    fields := fun s t p =>
      inRange 1 4096 (rd p 8 2) && zeroAt p 10 2 && decide (rd p 0 4 + rd p 8 2 ≤ s.boot.flashSize) && flashHandle s t (rd p 4 4) &&
        !touchesRunning s (rd p 0 4) (rd p 8 2)
    run := fun s _ p =>
      let i := hIndex (rd p 4 4)
      if s.boot.flashOp.isSome then .done St.busy [] s
      else
        let bad := s.loft.poisoned (yAddr i 0) (rd p 8 2)
        .accept { waits := !bad, status := if bad then St.loftPoison else St.ok, pins := [i] }
          (pin i (if bad then s else
            (s.updBoot fun b => { b with flashOp := some { op := 0x0C09, offset := rd p 0 4, length := rd p 8 2, data := loftRead s (yAddr i 0) (rd p 8 2) } }).emit
              (.flash 0x0C09 (rd p 0 4) (rd p 8 2)))) }

/-- The flash after an operation: erased bytes read 0xFF, a program clears bits (PRESUMED, NOR flash; log entry 43). -/
def flashAfter (s : State) (x : FlashOp) : List (Nat × BitVec 8) :=
  if x.op = 0x0C08 then s.boot.flash.filter fun c => !(x.offset ≤ c.1 && c.1 < x.offset + x.length)
  else x.data.zipIdx.foldl (fun f d =>
    let v := mgetD f (x.offset + d.2) 0xFF#8 &&& d.1
    if v = 0xFF#8 then f else mset f (x.offset + d.2) v) s.boot.flash

/-- The meaning of FLASH_OPERATION_COMPLETE: whether the flash reported success; a failure has no status of its own in the
spec (log entry 40). -/
def execFlashOperationComplete (ok : Bool) (s : State) : Res :=
  s.running fun s =>
    match s.boot.flashOp with
    | none => s
    | some x =>
      let s1 := s.updBoot fun b => { b with flashOp := none, flash := if ok then flashAfter s x else b.flash }
      if ok then finish x.op 0 St.ok [] s1 else finish x.op 0 (s1.draw 5 % 256) [] s1.drawn

/-- 0x0C0A BOOT_SLOT_CHECK: its checks are made when its work ends. -/
def cmdBootSlotCheck : Cmd :=
  { op := 0x0C0A, rights := byZero, len := exactly 4
    fields := fun _ _ p => byteAt p 0 ≤ 1 && zeroAt p 1 3
    run := fun s _ p => .accept { data := p } s }

/-- BOOT_SLOT_CHECK's work ends: the code of Table BOT.7, and R292's source and record. -/
def slotCheckEnd (j : Job) (s : State) : State :=
  let code := imageCode s (s.boot.flashSize / 2) (slotImage s (byteAt j.data 0))
  completeJob j St.ok (leBytes 4 code) (if code = 0 then s else imageRejected code s)

/-- The meaning of BOOT_GET_STATUS. -/
def execBootGetStatus (c : Call) (s : State) : Res := command cmdBootGetStatus c s
/-- The meaning of BOOT_OTP_READ. -/
def execBootOtpRead (c : Call) (s : State) : Res := command cmdBootOtpRead c s
/-- The meaning of BOOT_OTP_PROGRAM. -/
def execBootOtpProgram (c : Call) (s : State) : Res := command cmdBootOtpProgram c s
/-- The meaning of BOOT_ROLLBACK_COMMIT. -/
def execBootRollbackCommit (c : Call) (s : State) : Res := command cmdBootRollbackCommit c s
/-- The meaning of BOOT_PUSH_DONE. -/
def execBootPushDone (c : Call) (s : State) : Res := command cmdBootPushDone c s
/-- The meaning of BOOT_EPOCH_SET. -/
def execBootEpochSet (c : Call) (s : State) : Res := command cmdBootEpochSet c s
/-- The meaning of BOOT_RESTART. -/
def execBootRestart (c : Call) (s : State) : Res := command cmdBootRestart c s
/-- The meaning of BOOT_FLASH_ERASE. -/
def execBootFlashErase (c : Call) (s : State) : Res := command cmdBootFlashErase c s
/-- The meaning of BOOT_FLASH_WRITE. -/
def execBootFlashWrite (c : Call) (s : State) : Res := command cmdBootFlashWrite c s
/-- The meaning of BOOT_SLOT_CHECK. -/
def execBootSlotCheck (c : Call) (s : State) : Res := command cmdBootSlotCheck c s

end Sys2Proof.Machine
end

