-- ==== Sys2Proof/Machine/Disk.lean ====
section
/-!
DEFINITION. The disk queue: admission of disk descriptors, range locks, completion of commands, and the commands
DISK_GET_STATUS and DISK_TAG_LIMIT (spec/12_disk_queue_and_recording.md, R607 to R631).
-/
namespace Sys2Proof.Machine
open Sys2Proof

/-! ### A descriptor's fields (Table DSK.2) -/

/-- LBA. -/
def dLba (d : Bytes) : Nat := rd d 4 6
/-- COUNT. -/
def dCount (d : Bytes) : Nat := rd d 10 2
/-- HANDLE. -/
def dHandle (d : Bytes) : Nat := rd d 12 4
/-- STAMPS. -/
def dStamps (d : Bytes) : Nat := rd d 16 4
/-- A bit of FLAGS: 0 DIRECT, 1 SEAL, 2 XTS, 3 STAMPS. -/
def dFlag (d : Bytes) (b : Nat) : Bool := (byteAt d 1).testBit b

/-- The data handles: the one of DIRECT, else those of the list yealm (R608). -/
def dHandles (s : State) (d : Bytes) : List Nat :=
  if byteAt d 0 = 0x22 then []
  else if dFlag d 0 then [dHandle d]
  else (List.range (dCount d)).map fun i => rd (loftRead s (yAddr (hIndex (dHandle d)) (4 * i)) 4) 0 4

/-- No number stands twice. -/
def allDifferent : List Nat → Bool
  | [] => true
  | x :: l => !l.contains x && allDifferent l

/-- A range touches the log area. -/
def touchesLog (s : State) (lba n : Nat) : Bool :=
  match s.diskq.logArea with
  | some (f, len) => decide (lba < f + len) && decide (f < lba + n)
  | none => false

/-- Check 4 of Table DSK.3: the list yealm holds a poisoned granule. -/
def diskListPoisoned (s : State) (d : Bytes) : Bool :=
  byteAt d 0 != 0x22 && !dFlag d 0 && s.loft.poisoned (yAddr (hIndex (dHandle d)) 0) 4096

/-- Check 3 of Table DSK.3; the handles of a poisoned list are not read (R150). -/
def diskFieldsBad (s : State) (t : Nat) (d : Bytes) : Bool :=
  let stampRead := byteAt d 0 == 0x22
  let hs := (dHandles s d).map hIndex
  !(inRange 1 64 (dCount d)) || decide (15 < byteAt d 1) || !zeroAt d 26 5 || decide (1 < byteAt d 31) ||
    (dFlag d 0 && dCount d != 1) ||
    (if dFlag d 1 then decide (15 < byteAt d 24) else byteAt d 24 != 0) ||
    (if dFlag d 2 then decide (15 < byteAt d 25) else byteAt d 25 != 0) ||
    (byteAt d 0 != 0x21 && rd d 20 4 != 0) ||
    (if stampRead then dHandle d != 0 else !usable s t (dHandle d)) ||
    (if dStamps d = 0 then stampRead || dFlag d 3 else !usable s t (dStamps d)) ||
    (!diskListPoisoned s d && ((dHandles s d).any (fun h => !usable s t h) || (byteAt d 0 == 0x20 && !allDifferent hs)))

/-- Check 8 and check 9 of Table DSK.3: a named slot's kind, then what its naming would answer. -/
def diskKeyStatus (s : State) (t : Nat) (d : Bytes) : Option Nat :=
  let sealed : Bool := dFlag d 1
  let xts : Bool := dFlag d 2
  let wrong (use : Bool) (i kind : Nat) : Bool := use && keyStatus s t i kind == St.badField
  let forms : Bool := sealed && byteAt d 0 == 0x21
  if wrong sealed (byteAt d 24) 2 || wrong xts (byteAt d 25) 1 then some St.badField
  else if (sealed && keyStatus s t (byteAt d 24) 2 != St.ok) || (xts && keyStatus s t (byteAt d 25) 1 != St.ok) then some St.keyAbsent
  else if forms && !(s.key (byteAt d 24)).formNonce then some St.badField
  else none

/-- The first failing check of Table DSK.3 but those of the key state's counts, which the start of the key uses makes. -/
def diskStatus (s : State) (t : Nat) (d : Bytes) : Option Nat :=
  let write : Bool := byteAt d 0 == 0x21
  if 0x22 < byteAt d 0 then some St.badOpcode
  else if s.owner 2 ≠ t then some St.notPermitted
  else if s.supply.mode ≠ .run ∨ s.supply.change.isSome then some St.wrongMode
  else if diskFieldsBad s t d then some St.badField
  else if diskListPoisoned s d then some St.loftPoison
  else if (s.channel.format.isSome && decide (s.channel.maxLba + 1 < dLba d + dCount d)) || (write && touchesLog s (dLba d) (dCount d)) then
    some St.lbaRange
  else if !write && touchesLog s (dLba d) (dCount d) && !byReader 3 s t [] then some St.notPermitted
  else if s.channel.format.isNone || s.channel.state == .fault || !s.supply.sdRefclk || !s.channel.slices.any id || !setupInForce s || (write && !calComplete s) then
    some St.notReady
  else diskKeyStatus s t d

/-- Invocations a descriptor reserves on its sealing slot (Table KEY.3). -/
def sealCount (s : State) (d : Bytes) : Nat := if byteAt d 0 = 0x21 then dCount d * (verifyRetries s + 2) else 0

/-- Start the key uses of a descriptor (R616, R791): the status, the first sealing invocation, and the state. -/
def diskKeys (t : Nat) (d : Bytes) (s : State) : Nat × Nat × State :=
  let (a, first, s1) := if dFlag d 1 then keyStart t (byteAt d 24) 2 (sealCount s d) (byteAt d 0 == 0x21) s else (St.ok, 0, s)
  if a ≠ St.ok then (a, 0, s1)
  else if dFlag d 2 then
    let (b, _, s2) := keyStart t (byteAt d 25) 1 0 false s1
    if b ≠ St.ok then (b, 0, if dFlag d 1 then keyEnd (byteAt d 24) (s1.key (byteAt d 24)).load s2 else s2) else (St.ok, first, s2)
  else (St.ok, first, s1)

/-! ### Bounds and locks (R613, R614, R617 to R619) -/

/-- Tags a tenant holds (R613). -/
def tagsOf (s : State) (t : Nat) : Nat := (s.diskq.cmds.filter fun c => c.tenant = t).length

/-- The bound that the next disk descriptor of a tenant would pass: a STALL_CAUSE (R614). -/
def diskBound (s : State) (t ring : Nat) : Option Nat :=
  let credit := match (s.ring ring).pair with
    | some p => decide ((s.ring ring).inFlight < (s.ring p).room)
    | none => false
  if 896 ≤ s.diskq.cmds.length then some 1
  else if vat s.diskq.tagLimit t ≤ tagsOf s t then some 2
  else if (s.ten t).ingress ≤ (s.ten t).held then some 3
  else if !credit then some 4
  else if 256 ≤ s.diskq.cmds.length ∨ (s.ten t).state = .faulted then some 5
  else none

/-- Two lock entries conflict (R618). -/
def conflicts (a b : DiskCmd) : Bool :=
  (a.cls == 0x21 || b.cls == 0x21) && decide (a.lba < b.lba + b.count) && decide (b.lba < a.lba + a.count)

/-- The commands admitted before one. -/
def before (id : Nat) : List DiskCmd → List DiskCmd
  | [] => []
  | c :: l => if c.id = id then [] else c :: before id l

/-- The oldest conflicting entry that a command waits for (R619). -/
def blocker (s : State) (c : DiskCmd) : Option DiskCmd := (before c.id s.diskq.cmds).find? (conflicts c)

/-- A descriptor that passed every check is admitted (R612): tag, lock entry and pins in one step; its entry is granted
at once when nothing conflicts (R619). A load starts when the heads are unloaded (R578). -/
def takeCommand (ring t : Nat) (d : Bytes) (first : Nat) (s : State) : State :=
  let hs := dHandles s d
  let list := if byteAt d 0 = 0x22 ∨ dFlag d 0 then [] else [hIndex (dHandle d)]
  let st := if dStamps d = 0 then [] else [hIndex (dStamps d)]
  let c : DiskCmd :=
    { id := s.diskq.nextId, ring, tenant := t, cls := byteAt d 0, tag := rd d 2 2, flags := byteAt d 1, lba := dLba d, count := dCount d
      handles := hs, stamps := if dFlag d 3 ∨ byteAt d 0 = 0x22 then dStamps d else 0, hostTag := rd d 20 4
      sealSlot := byteAt d 24, xtsSlot := byteAt d 25, pins := (list ++ st ++ hs.map hIndex).eraseDups, at_ := s.up
      sealLoad := if dFlag d 1 then (s.key (byteAt d 24)).load else 0, xtsLoad := if dFlag d 2 then (s.key (byteAt d 25)).load else 0
      sealNext := first }
  let c1 := { c with granted := !(s.diskq.cmds.any (conflicts c)) }
  autoLoad (pinAll c1.pins (s.updDsk fun q => { q with cmds := q.cmds ++ [c1], nextId := q.nextId + 1 }))

/-- A consumed disk descriptor: completed at once with the status of a failed check, or admitted (R611, R612). -/
def diskSubmit (ring t : Nat) (d : Bytes) (s : State) : State :=
  match diskStatus s t d with
  | some st => completeSub ring (byteAt d 0) st (rd d 2 2) 0 0 (leBytes 6 (dLba d)) s
  | none =>
    let (st, first, s1) := diskKeys t d s
    if st ≠ St.ok then completeSub ring (byteAt d 0) st (rd d 2 2) 0 0 (leBytes 6 (dLba d)) s1 else takeCommand ring t d first s1

/-! ### Events of the queue -/

/-- LOCK_GRANT: a waiting entry is granted once no earlier conflicting entry remains (R619). -/
def execLockGrant (id : Nat) (s : State) : Res :=
  s.running fun s =>
    match findCmd s id with
    | some c => if !c.granted && (blocker s c).isNone then s.updCmd id fun c => { c with granted := true } else s
    | none => s

/-- LOCK_AGED: an entry that has waited 2 s (R622). -/
def execLockAged (id waitedMs : Nat) (s : State) : Res :=
  s.running fun s =>
    match findCmd s id with
    | some c =>
      if !c.granted && !c.aged && decide (2000 ≤ waitedMs) then
        let b := (blocker s c).map (·.tag)
        raiseCrumb 86 0x04B0 3 c.tenant (anyPayload 0x04B0 [c.tag, c.tenant, c.lba, c.count, b.getD 0])
          (s.updCmd id fun c => { c with aged := true, cflags := c.cflags ||| 32 })
      else s
    | none => s

/-- DISK_COMMAND_COMPLETE: every sector is settled (R624 to R626); none is written while PFAIL is latched (R631). -/
def execDiskCommandComplete (id : Nat) (s : State) : Res :=
  s.running fun s =>
    match findCmd s id with
    | some c => if c.granted && cmdOver c && !s.supply.pfail then unloadIfWaiting (endCmd c s) else s
    | none => s

/-! ### Commands -/

/-- 0x0401 DISK_GET_STATUS (Table DSK.10). -/
def cmdDiskGetStatus : Cmd :=
  { op := 0x0401, rights := byReader 2, limited := always
    run := fun s t _ =>
      let q := s.diskq
      let waiting := q.cmds.filter fun c => !c.granted
      let oldest := waiting.foldl (fun m c => max m (s.up - c.at_)) 0
      .done St.ok (leBytes 2 q.cmds.length ++ leBytes 1 (min 255 q.recTags) ++ zeros 1 ++ leBytes 2 (tagsOf s t) ++
        leBytes 2 (vat q.tagLimit t) ++ leBytes 2 (q.cmds.length - waiting.length) ++ leBytes 2 waiting.length ++
        leBytes 4 (min 0xFFFFFFFF (oldest / 1000))) s }

/-- 0x0402 DISK_TAG_LIMIT (R613). -/
def cmdDiskTagLimit : Cmd :=
  { op := 0x0402, rights := byZero, len := exactly 4
    fields := fun _ _ p => byteAt p 0 ≤ 7 && byteAt p 1 == 0 && inRange 1 896 (rd p 2 2)
    run := fun s _ p => .done St.ok [] (s.updDsk fun q => { q with tagLimit := vset q.tagLimit (byteAt p 0) (rd p 2 2) }) }

/-- The meaning of DISK_GET_STATUS. -/
def execDiskGetStatus (c : Call) (s : State) : Res := command cmdDiskGetStatus c s
/-- The meaning of DISK_TAG_LIMIT. -/
def execDiskTagLimit (c : Call) (s : State) : Res := command cmdDiskTagLimit c s

end Sys2Proof.Machine
end

