-- ==== Sys2Proof/Machine/PortOps.lean ====
section
/-!
DEFINITION. Shared operations of the Ethernet ports (spec/08_ethernet_ports.md): counters, the classifier's parse and
match, admission, the transmit queue, PAUSE frames sent.
-/
namespace Sys2Proof.Machine
open Sys2Proof

/-- Port `p`. -/
def State.port (s : State) (p : Nat) : Port := vat s.net.port p
/-- Change port `p`. -/
def State.updPort (s : State) (p : Nat) (f : Port → Port) : State := s.updNet fun n => { n with port := upd n.port p f }

/-! ### Counters (Table ETH.4, R400, R401, R409) -/

/-- Counters marked E. -/
def errCounter (i : Nat) : Bool := i ∈ [2, 3, 4, 5, 7, 14, 19, 20, 21]

/-- Source 72 + p, at most once per 100 ms; a rise within that window is told at its end (R409). -/
def portErr (p : Nat) (s : State) : State :=
  if (s.port p).errAt.any fun x => decide (s.up < x + 100000) then s.updPort p fun x => { x with errPending := true }
  else raiseSrc (72 + p) (s.updPort p fun x => { x with errAt := some s.up, errPending := false })

/-- Counter `i` of a port rises by `n`. -/
def portCount (p i n : Nat) (s : State) : State :=
  let s1 := s.updPort p fun x => { x with counters := upd x.counters i fun c => wrap64 (c + n) }
  if errCounter i && n != 0 then portErr p s1 else s1

/-- Counts of an entry, or of the default flow 0xFFFF. -/
def updFlowCount (p i : Nat) (f : FlowCount → FlowCount) (s : State) : State :=
  if i = 0xFFFF then s.updPort p fun x => { x with deflt := f x.deflt }
  else s.updNet fun n => { n with counts := mset n.counts i (f (mgetD n.counts i {})) }

/-- The port's island runs and has its clock (R50, R966, R1078). -/
def portRuns (s : State) (p : Nat) : Bool := vat s.supply.isl.port p && !(s.port p).failed && s.supply.sdRefclk

/-- SFP_TXDIS follows R358 and R967. -/
def syncTxDis (p : Nat) (s : State) : State :=
  s.updPort p fun x => { x with txDis := !x.everOn || x.mode == 0 || x.failed }

/-- A flag of ETH_PORT_CONFIG: 0 PAUSE_TX, 1 EEE, 2 PROMISC, 3 MCAST_ALL, 4 AN, 5 I2C_400K, 6 DDM_POLL, 7 DEFAULT_DROP. -/
def portFlag (s : State) (p b : Nat) : Bool := (s.port p).flags.testBit b

/-- Address MAC0. -/
def mac0 (s : State) (p : Nat) : Bytes := vat (s.port p).macs 0

/-! ### Parsing (R393) -/

/-- What the classifier reads of a frame. -/
structure Parsed where
  vid : Option Nat := none
  etype : Nat := 0
  ipver : Option Nat := none
  proto : Nat := 0
  sip : Bytes := []
  dip : Bytes := []
  /-- source and destination port -/
  ports : Option (Nat × Nat) := none
  /-- what follows the UDP header; empty when the UDP length does not fit the frame (R639) -/
  udp : Bytes := []

/-- A VLAN tag stands at an offset. -/
def tagAt (d : Bytes) (o : Nat) : Bool := rdBe d o 2 == 0x8100 || rdBe d o 2 == 0x88A8

/-- Fields of the transport header at an offset: present for TCP and UDP where `first` holds. -/
def parseL4 (d : Bytes) (o : Nat) (first : Bool) (q : Parsed) : Parsed :=
  if !first || (q.proto != 6 && q.proto != 17) || decide (d.length < o + 4) then q
  else
    { q with ports := some (rdBe d o 2, rdBe d (o + 2) 2)
             udp := if q.proto = 17 ∧ 8 ≤ rdBe d (o + 4) 2 ∧ o + rdBe d (o + 4) 2 ≤ d.length then slice d (o + 8) (rdBe d (o + 4) 2 - 8) else [] }

/-- A frame's fields (R393). An IPv4 header is one of at least five words that the frame holds whole. -/
def parseFrame (d : Bytes) : Parsed :=
  let t1 := tagAt d 12
  let o1 := if t1 then 16 else 12
  let o := if t1 && tagAt d 16 then 20 else o1
  let l := o + 2
  let q : Parsed := { vid := if t1 then some (rdBe d 14 2 % 4096) else none, etype := rdBe d o 2 }
  let v := byteAt d l / 16
  if q.etype = 0x0800 ∧ v = 4 ∧ 5 ≤ byteAt d l % 16 ∧ l + byteAt d l % 16 * 4 ≤ d.length then
    parseL4 d (l + byteAt d l % 16 * 4) (rdBe d (l + 6) 2 % 8192 == 0)
      { q with ipver := some 4, proto := byteAt d (l + 9), sip := fit 16 (slice d (l + 12) 4), dip := fit 16 (slice d (l + 16) 4) }
  else if q.etype = 0x86DD ∧ v = 6 ∧ l + 40 ≤ d.length then
    parseL4 d (l + 40) true
      { q with ipver := some 6, proto := byteAt d (l + 6), sip := slice d (l + 8) 16, dip := slice d (l + 24) 16 }
  else q

/-- The first `n` bits of two addresses are equal. -/
def prefixEq (n : Nat) (a b : Bytes) : Bool :=
  a.take (n / 8) == b.take (n / 8) && byteAt a (n / 8) / 2 ^ (8 - n % 8) == byteAt b (n / 8) / 2 ^ (8 - n % 8)

/-- An entry matches a frame of a port (R394). -/
def flowMatches (p : Nat) (d : Bytes) (q : Parsed) (f : Flow) : Bool :=
  let on (b : Nat) : Bool := f.match_.testBit b
  on 0 && f.ports.testBit p && (!on 1 || q.vid == some f.vid) && (!on 2 || d.take 6 == f.dmac) &&
    (!on 3 || q.etype == f.ethertype) && (!on 4 || q.ipver == some f.ipver) &&
    (!on 5 || (q.ipver.isSome && q.proto == f.proto)) &&
    (!on 6 || (q.ipver.isSome && prefixEq f.sipPrefix q.sip f.sip)) &&
    (!on 7 || (q.ipver.isSome && prefixEq f.dipPrefix q.dip f.dip)) &&
    (!on 8 || q.ports.any (fun x => x.1 == f.sport)) && (!on 9 || q.ports.any (fun x => x.2 == f.dport))

/-- The winning entry, or the port's default flow 0xFFFF (R395). -/
def classify (s : State) (p : Nat) (d : Bytes) : Nat × Flow :=
  let q := parseFrame d
  let best := s.net.flows.foldl (fun (b : Option (Nat × Flow)) e =>
    if flowMatches p d q e.2 && b.all (fun x => decide (e.2.priority < x.2.priority)) then some e else b) none
  best.getD (0xFFFF, { action := if portFlag s p 7 then 0 else 1, ring := (s.port p).defaultRing })

/-- The MAC filter accepts a destination address (R363). -/
def macAccepts (s : State) (p : Nat) (d : Bytes) : Bool :=
  let da := d.take 6
  let x := s.port p
  portFlag s p 2 || da == List.replicate 6 0xFF#8 || x.macs.toList.any (fun m => !allZero m && m == da) ||
    (byteAt d 0 % 2 == 1 &&
      (portFlag s p 3 || da == [0x01, 0x80, 0xC2, 0, 0, 0x01] || da == [0x01, 0x80, 0xC2, 0, 0, 0x0E] ||
        s.net.flows.any fun e => e.2.match_.testBit 0 && e.2.match_.testBit 2 && e.2.ports.testBit p && e.2.dmac == da))

/-! ### Transmit -/

/-- Bytes of the receive buffer in use (R368, R383). -/
def rxBytes (x : Port) : Nat :=
  ((x.held.map fun h => h.frame.data.length + 4).getD 0) + (x.rxq.map fun f => f.data.length + 4).foldl (· + ·) 0

/-- A PAUSE frame is sent (R383, R384). -/
def sendPause (p quanta : Nat) (s : State) : State := portCount p 13 1 (s.emit (.pause p quanta))

/-- XOFF, unless it stands (R383). -/
def sendXoff (p : Nat) (s : State) : State :=
  if (s.port p).xoff then s else sendPause p (s.port p).pauseQuanta (s.updPort p fun x => { x with xoff := true })

/-- The transmitter leaves LPI (R389): the time in it is counted. -/
def leaveLpi (p : Nat) (s : State) : State :=
  if !(s.port p).txLpi then s
  else portCount p 18 (s.up - (s.port p).txLpiSince) (s.updPort p fun x => { x with txLpi := false })

/-- A NET_SEND ends: its yealms are unpinned, its completion written (R377). -/
def endTx (f : TxFrame) (status count : Nat) (result : Bytes) (s : State) : State :=
  let s1 := unpinAll (f.handles.map hIndex) s
  match f.ring with
  | some n => completeSub n 0x10 status f.tag count 0 result s1
  | none => s1

/-- Frames not yet sent end NOT_READY, counted as TX_ABORTED where `count` holds (R379, R967). -/
def abortTx (p : Nat) (count : Bool) (s : State) : State :=
  let q := (s.port p).txq
  q.foldl (fun s f => endTx f St.notReady 0 [] (if count then portCount p 14 1 s else s))
    (s.updPort p fun x => { x with txq := [] })

/-- A frame leaves a port (R373): it is padded to 60 bytes; FCS counted. -/
def sendFrame (p : Nat) (d : Bytes) (t : Time) (s : State) : State :=
  let b := if d.length < 60 then fit 60 d else d
  portCount p 12 (b.length + 4) (portCount p 11 1 (s.emit (.frame p b t)))

/-- Handles of a NET_SEND body that LENGTH needs. -/
def netHandles (d : Bytes) : List Nat := [rd d 8 4, rd d 12 4, rd d 16 4].take ((rd d 6 2 + 4095) / 4096)

/-- The fields of a NET_SEND are right (Table ETH.2, R373, R135, R420). -/
def netFields (s : State) (t : Nat) (d : Bytes) : Bool :=
  let n := (rd d 6 2 + 4095) / 4096
  decide (byteAt d 1 < 4) && byteAt d 4 ≤ 5 && byteAt d 5 == 0 && decide (14 ≤ rd d 6 2) &&
    decide (rd d 6 2 + 4 ≤ (s.port (byteAt d 4)).maxFrame) && (netHandles d).all (usable s t) &&
    zeroAt d (8 + 4 * n) (12 - 4 * n) && zeroAt d 20 11 && decide (byteAt d 31 < 2)

/-- The bound that a NET_SEND would pass (R378). -/
def netBound (s : State) (t : Nat) (d : Bytes) : Option Nat :=
  if netFields s t d && (s.port (byteAt d 4)).link && decide (256 ≤ (s.port (byteAt d 4)).txq.length) then some 5 else none

/-- A consumed NET_SEND: it fails at once, or its frame waits to be sent (R372 to R379, R420). -/
def netSubmit (n t : Nat) (d : Bytes) (s : State) : State :=
  let p := byteAt d 4
  if !netFields s t d then completeSub n 0x10 St.badField (rd d 2 2) 0 0 [] s
  else if !(s.port p).link then completeSub n 0x10 St.notReady (rd d 2 2) 0 0 [] s
  else
    let f : TxFrame :=
      { ring := some n, tenant := t, tag := rd d 2 2, flags := byteAt d 1, len := rd d 6 2, handles := netHandles d }
    (pinAll (f.handles.map hIndex) s).updPort p fun x => { x with txq := x.txq ++ [f] }

end Sys2Proof.Machine
end

