-- ==== Sys2Proof/Machine/PtpOps.lean ====
section
/-!
DEFINITION. Shared operations of the PTP service (spec/09_time_service.md): instances and their states, authentication,
messages sent, followers and rates, best master, the PTP reference.
-/
namespace Sys2Proof.Machine
open Sys2Proof

/-! ### Instances -/

/-- Instance of port `p`. -/
def State.inst (s : State) (p : Nat) : PtpInst := vat s.net.ptp p
/-- Change the instance of port `p`. -/
def State.updInst (s : State) (p : Nat) (f : PtpInst → PtpInst) : State := s.updNet fun n => { n with ptp := upd n.ptp p f }
/-- PTP counter `i` of a port rises by one (Table PTP.12). -/
def ptpCount (p i : Nat) (s : State) : State :=
  s.updInst p fun x => { x with counters := upd x.counters i fun c => wrap64 (c + 1) }
/-- PROFILE: 0 off, 1 ST 2059-2, 2 default (Table PTP.10). -/
def PtpInst.profile (i : PtpInst) : Nat := i.mode % 4
/-- ROLE: 0 BMCA, 1 master-only, 2 follower-only. -/
def PtpInst.role (i : PtpInst) : Nat := i.mode / 4 % 4
/-- It sends two-step Sync: TWO_STEP, or SEND (R435). -/
def PtpInst.twoStep (i : PtpInst) : Bool := i.mode.testBit 4 || i.authFlags.testBit 0
/-- UNICAST. -/
def PtpInst.unicast (i : PtpInst) : Bool := i.mode.testBit 5
/-- MULTICAST. -/
def PtpInst.multicast (i : PtpInst) : Bool := i.mode.testBit 6
/-- The instance runs: enabled, its link up (R470). -/
def PtpInst.active (i : PtpInst) : Bool := i.profile != 0 && i.state != .off && i.state != .faulty

/-- portState codes of IEEE 1588-2019, 0 when disabled (R475). -/
def ptpStateCode : PtpState → Nat
  | .off => 0
  | .initializing => 1
  | .faulty => 2
  | .listening => 4
  | .master => 6
  | .passive => 7
  | .uncalibrated => 8
  | .slave => 9

/-- clockIdentity of a port's instance (R423). -/
def clockIdOf (s : State) (p : Nat) : Bytes :=
  if allZero s.net.clockId then (mac0 s p).take 3 ++ [0xFF, 0xFE] ++ (mac0 s p).drop 3 else s.net.clockId

/-- The dataset an instance announces of itself (R424, R450, R451, R452). -/
def ownData (s : State) (p : Nat) : Parent :=
  let q := (announced s).1
  { portId := fit 8 (clockIdOf s p) ++ [0, 1], gmId := fit 8 (clockIdOf s p)
    gmClass := if (s.inst p).role = 2 then 255 else q.clockClass
    gmAccuracy := q.clockAccuracy, gmVariance := q.variance, gmPriority1 := s.net.priority1, gmPriority2 := s.net.priority2
    ptpTimescale := true, utcValid := s.boot.epochState != 2, utcOffset := s.timebase.utcOffset }

/-! ### Comparing datasets (IEEE 1588-2019 clause 9.3.4) -/

/-- What the comparison looks at, in order. -/
def dsKey (d : Parent) : List Nat :=
  [d.gmPriority1, d.gmClass, d.gmAccuracy, d.gmVariance, d.gmPriority2, leVal d.gmId.reverse, d.steps, leVal d.portId.reverse]

/-- Lexicographic order of two lists. -/
def lexLt : List Nat → List Nat → Bool
  | a :: l, b :: m => decide (a < b) || (a == b && lexLt l m)
  | _, _ => false

/-- A dataset is better than another. -/
def betterDs (a b : Parent) : Bool := lexLt (dsKey a) (dsKey b)

/-! ### The PTP reference (R453 to R455) -/

/-- The SLAVE instance whose parent ranks best, the lowest port first (R453). -/
def bestSlave (s : State) : Option Nat :=
  (List.range 6).foldl (fun b p =>
    if (s.inst p).state = .slave ∧ b.all (fun q => betterDs (s.inst p).parent (s.inst q).parent) then some p else b) none

/-- PTP is disqualified unless what R454 asks holds. -/
def ptpCheck (s : State) : State := if ptpFit s then s else disqualify 2 8 s

/-- The port that supplies the reference follows R453; a move to the same grandmaster keeps it qualified (R454, R455). -/
def setPtpRef (s : State) : State :=
  let b := bestSlave s
  let s1 := s.updNet fun n => { n with refPort := b }
  match s.net.refPort, b with
  | some p, some q => ptpCheck (if (s.inst p).parent.gmId = (s.inst q).parent.gmId then s1 else disqualify 2 8 s1)
  | some _, none => disqualify 2 8 s1
  | _, _ => s1

/-- An instance takes a state; one that leaves SLAVE or enters it moves the reference (R453, R454). -/
def ptpTo (p : Nat) (st : PtpState) (s : State) : State :=
  if (s.inst p).state = st then s else setPtpRef (s.updInst p fun i => { i with state := st })

/-- The port's link went down: its instance is FAULTY (R470). -/
def ptpLinkDown (p : Nat) (s : State) : State := if (s.inst p).profile = 0 then s else ptpTo p .faulty s

/-- The port's link came up: the instance listens (R470). -/
def ptpLinkUp (p : Nat) (s : State) : State :=
  if (s.inst p).profile = 0 then s else ptpTo p .listening (s.updInst p fun i => { i with foreign := [] })

/-! ### Authentication (R460 to R462) -/

/-- A message fails authentication: counted, and recorded at most once per second per port (R461). -/
def authFail (p i : Nat) (s : State) : State :=
  let s1 := ptpCount p i s
  if i ≠ 12 ∨ ((s1.inst p).authLogged.any fun x => decide (s1.up < x + 1000000)) then s1
  else crumb 0x06A3 3 0 (anyPayload 0x06A3 [p]) (s1.updInst p fun x => { x with authLogged := some s1.up })

/-- The slot that a key ID names (R461). -/
def authSlot (i : PtpInst) (keyId : Nat) : Option Nat :=
  if keyId = i.keyCur then some i.slotCur else if keyId = i.keyNext then some i.slotNext else none

/-- Whether a received message is taken, with the state after the check (R461); a verified one says so. -/
def authCheck (p : Nat) (a : Option PtpAuth) (s : State) : Bool × State :=
  let i := s.inst p
  match a with
  | none => if i.authFlags.testBit 1 then (false, authFail p 13 s) else (true, s.updInst p fun x => { x with verified := false })
  | some a =>
    match authSlot i a.keyId with
    | none => (false, authFail p 12 s)
    | some slot =>
      if a.spp ≠ i.spp ∨ a.secParam ≠ 0 then (false, authFail p 12 s)
      else
        let (st, _, s1) := keyStart 0 slot 4 1 false s
        if st ≠ St.ok then (false, authFail p 12 s1)
        else
          let k := s1.key slot
          let good := fit 16 (Config.hmac256 k.material a.covered) == a.icv
          let s2 := keyEnd slot k.load s1
          if good then (true, s2.updInst p fun x => { x with verified := true }) else (false, authFail p 12 s2)

/-- A received message reaches an instance that runs, and its authentication lets it in (R461, R470). -/
def ptpTake (p : Nat) (m : PtpRx) (f : State → State) (s : State) : State :=
  if !(s.inst p).active || !portRuns s p then s
  else
    let (ok, s1) := authCheck p m.auth s
    if ok then f s1 else s1

/-- The AUTHENTICATION TLV of a message sent, or none when SEND is clear; the key's state may forbid the message (R460,
R462). -/
def authTlv (p : Nat) (body : Bytes) (s : State) : Option Bytes × State :=
  let i := s.inst p
  if !i.authFlags.testBit 0 then (some [], s)
  else
    let (st, _, s1) := keyStart 0 i.slotCur 4 1 false s
    if st ≠ St.ok then (none, ptpCount p 12 s1)
    else
      let k := s1.key i.slotCur
      let head := leBytes 1 i.spp ++ leBytes 1 0 ++ beBytes 4 i.keyCur
      (some (head ++ fit 16 (Config.hmac256 k.material (body ++ head))), keyEnd i.slotCur k.load s1)

/-! ### Messages sent -/

/-- Bytes on the wire, FCS included, of a PTP message of `n` bytes: UDP, IP, Ethernet, a VLAN tag, the AUTHENTICATION TLV
(IEEE 1588-2019; log entry 27). -/
def ptpWire (i : PtpInst) (n : Nat) : Nat :=
  max 64 (n + 8 + (if i.ipv6 then 42 else 20) + 14 + (if i.vid.testBit 15 then 4 else 0) +
    (if i.authFlags.testBit 0 then 26 else 0) + 4)

/-- A message of `n` bytes leaves: type, group, and the fields the spec gives (log entry 27). Answers whether it left. -/
def ptpSend (p type group n : Nat) (body : Bytes) (s : State) : Bool × State :=
  if !(s.inst p).active || !portRuns s p then (false, s)
  else match authTlv p body s with
    | (none, s1) => (false, s1)
    | (some a, s1) =>
      (true, portCount p 12 (ptpWire (s1.inst p) n) (portCount p 11 1 ((leaveLpi p s1).emit (.ptp p type group (body ++ a)))))

/-- A Signaling message with one TLV: 4 REQUEST, 5 GRANT, 6 CANCEL, 7 ACKNOWLEDGE_CANCEL (R440). -/
def ptpSignal (p group tlv type : Nat) (log : Int) (duration : Nat) (s : State) : State :=
  (ptpSend p 0x0C group (44 + if tlv = 4 then 10 else if tlv = 5 then 12 else 6)
    (leBytes 1 tlv ++ leBytes 1 type ++ leInt 1 log ++ leBytes 4 duration) s).2

/-- An egress timestamp as PTP reports it (R463, R464 in MASTER state). -/
def ptpEgress (i : PtpInst) (t : Time) : Time := t.addPs (i.txExt + if i.state = .master then i.asym else 0)
/-- An ingress timestamp as PTP reports it (R463, R464 in MASTER state). -/
def ptpIngress (i : PtpInst) (t : Time) : Time := t.addPs ((if i.state = .master then i.asym else 0) - i.rxExt)

/-! ### Followers (R436 to R448) -/

/-- The grant of a message type: 0x0B Announce, 0 Sync, 9 Delay_Resp. -/
def Follower.grant (f : Follower) (type : Nat) : Option Grant :=
  if type = 0x0B then f.announce else if type = 0 then f.sync else f.delayResp

/-- Replace the grant of a message type. -/
def Follower.setGrant (f : Follower) (type : Nat) (g : Option Grant) : Follower :=
  if type = 0x0B then { f with announce := g } else if type = 0 then { f with sync := g } else { f with delayResp := g }

/-- A follower holds no grant. -/
def Follower.bare (f : Follower) : Bool := f.announce.isNone && f.sync.isNone && f.delayResp.isNone

/-- A rate of 2^-log per second, in 1/32 per second. -/
def rate32 (log : Int) : Nat := 2 ^ (5 - log).toNat

/-- Rate of a follower's grants of a type, in 1/32 per second. -/
def grantRate (f : Follower) (type : Nat) : Nat := ((f.grant type).map fun g => rate32 g.logPeriod).getD 0

/-- Unicast rate granted of a type over the followers that satisfy `q`. -/
def grantedRate (s : State) (type : Nat) (q : Follower → Bool) : Nat :=
  (s.net.followers.map fun e => if q e.2 then grantRate e.2 type else 0).foldl (· + ·) 0

/-- Multicast rate of an instance in MASTER state. -/
def multicastRate (i : PtpInst) (log : Int) : Nat := if i.state = .master ∧ i.multicast then rate32 log else 0

/-- Adding `n` to a type's rate on a port stays within Table PTP.3 (R442). -/
def rateFits (s : State) (p type n : Nat) : Bool :=
  let fast : Bool := (s.port p).mode = 1
  let all := grantedRate s type fun _ => true
  let own := grantedRate s type fun f => f.port == p
  if type = 0 then
    decide (all + n ≤ 65536 * 32) &&
      decide (own + n + multicastRate (s.inst p) (s.inst p).logSync ≤ (if fast then 32768 else 8192) * 32)
  else if type = 0x0B then
    decide (all + n + ((List.range 6).map fun q => multicastRate (s.inst q) (s.inst q).logAnnounce).foldl (· + ·) 0 ≤ 32768 * 32)
  else decide (all + n ≤ 131072 * 32) && decide (own + n ≤ (if fast then 65536 else 16384) * 32)

/-- The follower a message comes from (R445). -/
def findFollower (s : State) (p : Nat) (m : PtpRx) : Option (Nat × Follower) :=
  s.net.followers.find? fun e => e.2.port == p && e.2.portId == fit 10 m.srcId && e.2.addr == fit 16 m.addr

/-- The lowest free follower index below the table's size. -/
def freeFollower (l : AMap Follower) : Nat → Nat → Option Nat
  | 0, _ => none
  | fuel + 1, i => if 4096 ≤ i then none else if (mget l i).isNone then some i else freeFollower l fuel (i + 1)

/-- Change follower `i`; one left without a grant is freed (R445). -/
def updFollower (i : Nat) (f : Follower → Follower) (s : State) : State :=
  s.updNet fun n => { n with followers := (mmod n.followers i f).filter fun e => e.1 ≠ i || !e.2.bare }

/-- CANCEL for each grant of a follower, which is then freed (R474, R476). -/
def dropFollower (i : Nat) (f : Follower) (s : State) : State :=
  let s1 := ([0x0B, 0, 9].filter fun t => (f.grant t).isSome).foldl (fun s t => ptpSignal f.port i 6 t 0 0 s) s
  s1.updNet fun n => { n with followers := mdel n.followers i }

/-- Every follower of a port is dropped with CANCELs (R474). -/
def dropFollowers (p : Nat) (s : State) : State :=
  (s.net.followers.filter fun e => e.2.port == p).foldl (fun s e => dropFollower e.1 e.2 s) s

/-- The port's island failed: its followers are freed and counted, its instance is FAULTY (R471, R472). -/
def ptpPortLost (p : Nat) (s : State) : State :=
  let n := (s.net.followers.filter fun e => e.2.port == p).length
  let s1 := s.updNet fun x => { x with followers := x.followers.filter fun e => e.2.port ≠ p }
  let s2 := if (s.inst p).profile = 0 then s1 else crumb 0x06A2 3 0 (anyPayload 0x06A2 [p, n]) s1
  ptpLinkDown p s2

/-! ### Launches (R431, R432, R435, R437, R448, R486) -/

/-- The port of a group: a follower's, or that of an instance's multicast messages (0x1000 + port). -/
def groupPort (s : State) (group : Nat) : Nat :=
  if 0x1000 ≤ group then group - 0x1000 else (mgetD s.net.followers group {}).port

/-- A group may be sent a message type now: the instance is MASTER, time is valid (R430), and the group has the service. -/
def groupServed (s : State) (type group : Nat) : Bool :=
  let i := s.inst (groupPort s group)
  i.state == .master && s.timebase.valid &&
    (if 0x1000 ≤ group then i.multicast && decide (group < 0x1006) else ((mgetD s.net.followers group {}).grant type).isSome)

/-- The next sequenceId of a group for Sync (true) or Announce (R448). -/
def groupSeq (s : State) (sync : Bool) (group : Nat) : Nat :=
  let i := s.inst (groupPort s group)
  let f := mgetD s.net.followers group {}
  if 0x1000 ≤ group then (if sync then i.seqSync else i.seqAnnounce) else if sync then f.seqSync else f.seqAnnounce

/-- Count a group's sequenceId on. -/
def bumpSeq (sync : Bool) (group : Nat) (s : State) : State :=
  let n := (groupSeq s sync group + 1) % 65536
  if 0x1000 ≤ group then
    s.updInst (groupPort s group) fun i => if sync then { i with seqSync := n } else { i with seqAnnounce := n }
  else s.updNet fun x =>
    { x with followers := mmod x.followers group fun f => if sync then { f with seqSync := n } else { f with seqAnnounce := n } }

/-- A Sync leaves at `t`, scheduled for `due` (R432, R435, R463, R464). -/
def sendSync (group : Nat) (due t : Time) (s : State) : State :=
  let p := groupPort s group
  let i := s.inst p
  let n := groupSeq s true group
  let dep := ptpEgress i t
  let org := if i.twoStep then due else dep
  let (ok, s1) := ptpSend p 0 group 44 (leBytes 2 n ++ leBytes 1 (b2n i.twoStep) ++ beBytes 6 org.sec ++ beBytes 4 org.ns ++
    beBytes 8 (if i.twoStep then 0 else org.frac)) s
  if !ok then s1
  else
    let s2 := bumpSeq true group (ptpCount p 0 s1)
    if i.twoStep then s2.updInst p fun x => { x with followUps := x.followUps ++ [(group, n, dep)] } else s2

/-- Seconds to a pending leap second are within 43,200 (R452): the flag bits leap61 (1) and leap59 (2). -/
def leapBits (s : State) : Nat :=
  match s.timebase.leap with
  | some x =>
    if s.timebase.now.sec < x.instant ∧ x.instant ≤ s.timebase.now.sec + 43200 then (if s.timebase.utcOffset < x.value then 1 else 2)
    else 0
  | none => 0

/-- An Announce leaves (R424, R451, R452). -/
def sendAnnounce (group : Nat) (s : State) : State :=
  let p := groupPort s group
  let d := ownData s p
  let tr := (announced s).2
  let (ok, s1) := ptpSend p 0x0B group 64 (leBytes 2 (groupSeq s false group) ++
    leBytes 1 (leapBits s + 4 * b2n d.utcValid + 8 + 16 * b2n tr + 32 * b2n tr) ++ beInt 2 d.utcOffset ++ d.gmId ++
    leBytes 1 d.gmPriority1 ++ leBytes 1 d.gmClass ++ leBytes 1 d.gmAccuracy ++ beBytes 2 d.gmVariance ++
    leBytes 1 d.gmPriority2 ++ beBytes 2 0 ++ leBytes 1 (announced s).1.timeSource) s
  if ok then bumpSeq false group (ptpCount p 2 s1) else s1

/-- The Follow_Up at the head of an instance's list leaves (R432). -/
def sendFollowUp (p : Nat) (s : State) : State :=
  match (s.inst p).followUps with
  | [] => s
  | (group, n, t) :: l =>
    let s0 := s.updInst p fun i => { i with followUps := l }
    if !s0.timebase.valid || (s0.inst p).state != .master then s0
    else
      let (ok, s1) := ptpSend p 8 group 44 (leBytes 2 n ++ beBytes 6 t.sec ++ beBytes 4 t.ns ++ beBytes 8 t.frac) s0
      if ok then ptpCount p 1 s1 else s1

/-- A launch falls due: Sync (0) or Announce (0x0B) of a group; during a received pause it waits for its end (R381, R478). -/
def ptpLaunch (type group : Nat) (due : Time) (s : State) : State :=
  let p := groupPort s group
  if !groupServed s type group then s
  else if (s.port p).pause.isSome then s.updPort p fun x => { x with late := x.late ++ [(type, group)] }
  else if type = 0 then sendSync group due s.timebase.now s else sendAnnounce group s

/-- Launches held during a pause leave at its end, counted TX_LAUNCH_LATE (R381). -/
def lateLaunches (p : Nat) (s : State) : State :=
  (s.port p).late.foldl (fun s l =>
    if !groupServed s l.1 l.2 then s
    else portCount p 15 1 (if l.1 = 0 then sendSync l.2 s.timebase.now s.timebase.now s else sendAnnounce l.2 s))
    (s.updPort p fun x => { x with late := [] })

end Sys2Proof.Machine
end

