-- ==== Sys2Proof/Machine/Frames.lean ====
section
/-!
DEFINITION. Frames received (spec/08_ethernet_ports.md, R361 to R369, R380 to R385): checks, the MAC, classification,
admission, delivery, the hold of R383.
-/
namespace Sys2Proof.Machine
open Sys2Proof

/-! ### Admission (R366, R396) -/

/-- The service an action serves: NET for DELIVER, RECORD for RECORD, TIME for PTP (R366). -/
def actionService (a : Nat) : Nat := if a = 1 then 1 else if a = 2 then 3 else 0

/-- Allocate the yealms of a frame to a tenant, within its quota (R140, check 3 of R366). -/
def frameYealms (t n : Nat) (s : State) : Option (List Nat × State) :=
  if (s.ten t).quota < (s.ten t).held + n then none else allocMany t n s

/-- Write a frame into its yealms, 4,096 bytes each. -/
def storeFrame (hs : List Nat) (d : Bytes) (s : State) : State :=
  hs.zipIdx.foldl (fun s h => loftWrite (yAddr (hIndex h.1) 0) (slice d (4096 * h.2) 4096) s) s

/-- RXFRAME descriptor body (Table LFT.10). -/
def rxDesc (s : State) (p i : Nat) (f : RxFrame) (hs : List Nat) : Bytes :=
  leBytes 1 p ++ leBytes 1 (b2n s.timebase.valid + 2 * b2n (!(vat s.timebase.cal (4 + p)).valid)) ++ leBytes 2 i ++
    leBytes 2 f.data.length ++ leBytes 2 f.time.frac ++ f.time.bytes ++
    leBytes 4 (hs.getD 0 0) ++ leBytes 4 (hs.getD 1 0) ++ leBytes 4 (hs.getD 2 0) ++ zeros 1

/-- A frame's PTP message goes to Campel's queue of its port when it is a general message (R439; log entry 28). -/
def queueGeneral (p : Nat) (d : Bytes) (s : State) : State :=
  if (parseFrame d).ports.any fun x => x.2 == 320 then s.updInst p fun i => { i with generalQ := i.generalQ + 1 } else s

/-- What admission answers. -/
inductive Admission where
  | taken (s : State)
  /-- refused; `waits` when R141 or R162 refused it, so that R383 may hold it -/
  | refused (waits : Bool)

/-- The destination has no room: check 2 of R366 (R162, R396, R439). -/
def noRoom (s : State) (p : Nat) (fl : Flow) (d : Bytes) : Option Bool :=
  let r := s.ring fl.ring
  if fl.action = 1 then
    if !r.opened || r.type != .rxframe || r.owner != s.owner 1 then some false
    else if r.room = 0 then some true else none
  else if fl.action = 3 ∧ ((parseFrame d).ports.any fun x => x.2 == 320) ∧ 1024 ≤ (s.inst p).generalQ then some false
  else none

/-- The three checks of R366, and the frame's delivery. -/
def admitFrame (p i : Nat) (fl : Flow) (f : RxFrame) (s : State) : Admission :=
  let t := s.owner (actionService fl.action)
  if (s.ten t).ingress ≤ (s.ten t).held then .refused true
  else match noRoom s p fl f.data with
    | some w => .refused w
    | none =>
      match frameYealms t ((f.data.length + 4095) / 4096) s with
      | none => .refused false
      | some (hs, s1) =>
        if fl.action = 1 then .taken (produce fl.ring (rxDesc s p i f hs) (storeFrame hs f.data s1))
        else
          let s2 := if fl.action = 2 then recordPacket fl.channel (fl.leg == 1) (parseFrame f.data).udp f.time s1
            else queueGeneral p f.data s1
          .taken (hs.foldl (fun s h => freeYealm (hIndex h) s) s2)

/-- A refused frame is dropped and counted (R366, R162, R439, R641). -/
def refuseFrame (p i : Nat) (fl : Flow) (f : RxFrame) (s : State) : State :=
  let t := s.owner (actionService fl.action)
  let s1 := portCount p 8 1 (updFlowCount p i (fun c => { c with dropped := wrap64 (c.dropped + 1) }) s)
  let full : Bool := noRoom s p fl f.data == some true && decide ((s.ten t).held < (s.ten t).ingress)
  let s2 := if full then s1.updRing fl.ring fun r => { r with dropped := inc16 r.dropped } else s1
  if fl.action = 2 then recCount fl.channel 5 (s2.updTen t fun x => { x with refRec := inc32 x.refRec })
  else
    let s3 := s2.updTen t fun x => { x with refFrames := inc32 x.refFrames }
    if fl.action = 3 ∧ noRoom s p fl f.data = some false ∧ (s.ten t).held < (s.ten t).ingress then ptpCount p 15 s3 else s3

/-- Offer a classified frame to its destination; with PAUSE_TX set one that waits is held and XOFF sent (R383). -/
def offerFrame (p i : Nat) (fl : Flow) (f : RxFrame) (s : State) : State :=
  match admitFrame p i fl f s with
  | .taken s1 => s1
  | .refused waits =>
    if waits && portFlag s p 0 && (s.port p).link then
      sendXoff p (s.updPort p fun x => { x with held := some { frame := f, index := i, flow := fl } })
    else refuseFrame p i fl f s

/-- A frame is classified, counted in its flow's MATCHED counts, and dropped or offered (R367, R395, R401). -/
def takeFrame (p : Nat) (f : RxFrame) (s : State) : State :=
  let (i, fl) := classify s p f.data
  let s1 := updFlowCount p i (fun c =>
    { c with frames := wrap64 (c.frames + 1), bytes := wrap64 (c.bytes + f.data.length + 4) }) s
  if fl.action = 0 then portCount p 9 1 s1 else offerFrame p i fl f s1

/-- Frames behind a held one are taken once none is held. -/
def drainRx (p : Nat) : Nat → State → State
  | 0, s => s
  | fuel + 1, s =>
    match (s.port p).held, (s.port p).rxq with
    | none, f :: l => drainRx p fuel (takeFrame p f (s.updPort p fun x => { x with rxq := l }))
    | _, _ => s

/-- Take the frames that wait. -/
def drain (p : Nat) (s : State) : State := drainRx p (s.port p).rxq.length s

/-- The held frame is dropped and counted, and the next ones are taken (R383, R415, R416). -/
def dropHeld (p : Nat) (s : State) : State :=
  match (s.port p).held with
  | some h => drain p (refuseFrame p h.index h.flow h.frame (s.updPort p fun x => { x with held := none }))
  | none => s

/-- The held frame is offered again. -/
def retryHeld (p : Nat) (s : State) : State :=
  match (s.port p).held with
  | some h =>
    match admitFrame p h.index h.flow h.frame (s.updPort p fun x => { x with held := none }) with
    | .taken s1 => drain p s1
    | .refused _ => s
  | none => s

/-! ### PAUSE received (R380, R381, R417) -/

/-- The pause ends: held launches leave. -/
def endPause (p : Nat) (s : State) : State := lateLaunches p (s.updPort p fun x => { x with pause := none })

/-- A PAUSE frame to `da` with a quanta value. -/
def takePause (p : Nat) (da : Bytes) (quanta : Nat) (s : State) : State :=
  if da = [0x01, 0x80, 0xC2, 0, 0, 0x01] ∨ (da = mac0 s p ∧ !allZero da) then
    let s1 := portCount p 10 1 s
    if quanta = 0 then endPause p s1 else s1.updPort p fun x => { x with pause := some quanta }
  else portCount p 6 1 s

/-! ### Reception -/

/-- The first fault of a frame, as its counter (R361). -/
def frameFault (s : State) (p : Nat) (d : Bytes) (fcsOk pcsErr : Bool) : Option Nat :=
  if !fcsOk then some 2
  else if d.length + 4 < 64 then some 3
  else if (s.port p).maxFrame < d.length + 4 then some 4
  else if pcsErr then some 5
  else none

/-- A whole frame has been received: its MAC checks, the receive buffer, the MAC itself, and what follows (R361 to R369). -/
def receive (p : Nat) (f : RxFrame) (fcsOk pcsErr : Bool) (s : State) : State :=
  let d := f.data
  if 65536 < rxBytes (s.port p) + d.length + 4 then portCount p 7 1 s
  else match frameFault s p d fcsOk pcsErr with
    | some i => portCount p i 1 s
    | none =>
      let s1 := portCount p 1 (d.length + 4) (portCount p 0 1 s)
      if !macAccepts s p d then portCount p 6 1 s1
      else if rdBe d 12 2 = 0x8808 then
        if rdBe d 14 2 = 1 then takePause p (d.take 6) (rdBe d 16 2) s1 else portCount p 6 1 s1
      else if (s1.port p).held.isNone then takeFrame p f s1
      else
        let s2 := s1.updPort p fun x => { x with rxq := x.rxq ++ [f] }
        if portFlag s2 p 0 && decide (49152 ≤ rxBytes (s2.port p)) then sendXoff p s2 else s2

/-! ### Links (R359, R379, R413, R415) -/

/-- A port's link goes down. -/
def portLinkDown (p : Nat) (s : State) : State :=
  if !(s.port p).link then s
  else
    let s1 := raiseSrc (64 + p) (s.updPort p fun x => { x with link := false, linkChanges := inc32 x.linkChanges })
    let s2 := dropHeld p (abortTx p true (leaveLpi p s1))
    ptpLinkDown p (s2.updPort p fun x => { x with xoff := false, rxLpi := false, echoOk := false, partnerTw := none, late := [] })

/-- FRAME_RECEIVED: a whole frame (FCS not included), whether its FCS is right, whether a PCS error fell within it, and its
arrival timestamp. -/
def execFrameReceived (p : Fin 6) (data : List (BitVec 8)) (fcsOk pcsErr : Bool) (sec ns frac : Nat) (s : State) : Res :=
  s.running fun s =>
    if !portRuns s p.val || !(s.port p.val).link then s
    else receive p.val { data, time := { sec := sec % 2 ^ 48, ns := ns % 1000000000, frac := frac % 65536 } } fcsOk pcsErr s

/-- Half of the pause time of PAUSE_QUANTA has passed, in ns: 51.2 ns or 512 ns per quantum (R380, R383). -/
def halfPause (s : State) (p : Nat) : Nat := (s.port p).pauseQuanta * (if (s.port p).mode = 1 then 512 else 5120) / 20

/-- A condition for XOFF stands (R383). -/
def xoffStands (s : State) (p : Nat) : Bool := (s.port p).held.isSome || decide (49152 ≤ rxBytes (s.port p))

/-- XOFF_REPEAT (R383). -/
def execXoffRepeat (p : Fin 6) (sinceNs : Nat) (s : State) : Res :=
  s.running fun s =>
    if portRuns s p.val && portFlag s p.val 0 && (s.port p.val).xoff && xoffStands s p.val && decide (halfPause s p.val ≤ sinceNs) then
      sendPause p.val (s.port p.val).pauseQuanta s
    else s

/-- XON (R383). -/
def execXon (p : Fin 6) (s : State) : Res :=
  s.running fun s =>
    if portRuns s p.val && (s.port p.val).xoff && (s.port p.val).held.isNone && decide (rxBytes (s.port p.val) < 16384) then
      sendPause p.val 0 (s.updPort p.val fun x => { x with xoff := false })
    else s

/-- HELD_FRAME_ADMIT (R383). -/
def execHeldFrameAdmit (p : Fin 6) (s : State) : Res := s.running fun s => if portRuns s p.val then retryHeld p.val s else s

/-- HELD_FRAME_TIMEOUT: held for `us` µs (R383). -/
def execHeldFrameTimeout (p : Fin 6) (us : Nat) (s : State) : Res :=
  s.running fun s => if portRuns s p.val ∧ 1000 ≤ us then dropHeld p.val s else s

/-- PAUSE_RECEIVED (R380, R417). -/
def execPauseReceived (p : Fin 6) (da : List (BitVec 8)) (quanta : BitVec 16) (s : State) : Res :=
  s.running fun s =>
    if portRuns s p.val && (s.port p.val).link then takePause p.val da quanta.toNat s else s

/-- PAUSE_END: `ns` have passed since the PAUSE frame (R380, R381). -/
def execPauseEnd (p : Fin 6) (ns : Nat) (s : State) : Res :=
  s.running fun s =>
    match (s.port p.val).pause with
    | some q => if q * (if (s.port p.val).mode = 1 then 512 else 5120) ≤ 10 * ns then endPause p.val s else s
    | none => s

end Sys2Proof.Machine
end

