-- ==== Sys2Proof/Machine/Ethernet.lean ====
section
/-!
DEFINITION. Ethernet ports: frames sent, links, SFP modules, low-power idle, port failure and the ETH commands
(spec/08_ethernet_ports.md, R357 to R422; spec/18_coincidences.md, R966 to R969).
-/
namespace Sys2Proof.Machine
open Sys2Proof

/-! ### Frames sent (R373 to R379) -/

/-- The bytes of a NET_SEND's frame, and whether one of its granules is poisoned (Table LFT.4). -/
def txBytes (s : State) (f : TxFrame) : Bytes × Bool :=
  let part (i : Nat) : Nat := min 4096 (f.len - 4096 * i)
  (f.handles.zipIdx.flatMap fun h => loftRead s (yAddr (hIndex h.1) 0) (part h.2),
    f.handles.zipIdx.any fun h => s.loft.poisoned (yAddr (hIndex h.1) 0) (part h.2))

/-- The yealms of a frame sent with FREE are freed when their last pin ends (R377). -/
def freeSent (f : TxFrame) (s : State) : State :=
  if f.flags.testBit 1 then
    f.handles.foldl (fun s h => s.updLoft fun l => l.setTag (hIndex h) { (l.tag (hIndex h)) with doomed := true }) s
  else s

/-- The port may start a frame (R379 to R381, R389). -/
def mayStart (s : State) (p : Nat) : Bool :=
  portRuns s p && (s.port p).link && (s.port p).pause.isNone && !(s.port p).txLpi

/-- FRAME_SENT: the oldest waiting frame of a port has left at a departure timestamp (R373, R375, R377; log entry 29). -/
def execFrameSent (p : Fin 6) (sec ns frac : Nat) (s : State) : Res :=
  s.running fun s =>
    match (s.port p.val).txq with
    | [] => s
    | f :: l =>
      if !mayStart s p.val then s
      else
        let t : Time := { sec := sec % 2 ^ 48, ns := ns % 1000000000, frac := frac % 65536 }
        let s0 := s.updPort p.val fun x => { x with txq := l }
        if f.ring.isNone then sendFrame p.val f.data t s0
        else
          let (d, bad) := txBytes s f
          if bad then endTx f St.loftPoison 0 [] (portCount p.val 14 1 s0)
          else
            let stamp := if f.flags.testBit 0 then leBytes 4 t.ns ++ leBytes 2 t.frac ++ leBytes 2 t.sec else []
            endTx f St.ok (max 60 d.length + 4) stamp (freeSent f (sendFrame p.val d t s0))

/-! ### Links (R359, R360) -/

/-- LINK_UP: the link's conditions have held for `forMs` ms; AN_RESULT of 1000BASE-X (R359, R385). -/
def execLinkUp (p : Fin 6) (forMs : Nat) (an : Fin 4) (s : State) : Res :=
  s.running fun s =>
    let x := s.port p.val
    if x.link || !portRuns s p.val || x.mode == 0 || (x.mode == 1 && decide (forMs < 10)) then s
    else
      ptpLinkUp p.val (raiseSrc (64 + p.val) (s.updPort p.val fun x =>
        { x with link := true, linkChanges := inc32 x.linkChanges, anResult := if x.mode = 2 ∧ x.flags.testBit 4 then an.val else 0 }))

/-- LINK_DOWN: for hi_ber, and with a frame cut short (R359, R379, R413). -/
def execLinkDown (p : Fin 6) (hiBer inFrame : Bool) (s : State) : Res :=
  s.running fun s =>
    if !(s.port p.val).link then s
    else
      let s1 := if inFrame then portCount p.val 5 1 s else s
      portLinkDown p.val (if hiBer && (s.port p.val).mode == 1 then portCount p.val 19 1 s1 else s1)

/-- SFP_LOS_EDGE (R360). -/
def execSfpLosEdge (p : Fin 6) (level : Bool) (s : State) : Res :=
  s.running fun s =>
    let s1 := s.updPort p.val fun x => { x with los := level }
    if level && !(s.port p.val).los then portCount p.val 20 1 s1 else s1

/-! ### SFP modules (R402 to R408, R419) -/

/-- Recovery of a low SDA line: `n` attempts until it reads high, more than 3 for never (R406, R407). Answers whether the
bus is free. -/
def sfpRecover (p n : Nat) (s : State) : Bool × State :=
  let s1 := (List.range (min n 3)).foldl (fun s _ => s.emit (.scl p)) s
  if n ≤ 3 then (true, s1)
  else (false, raiseSrc (72 + p) (portCount p 21 1 (s1.updPort p fun x => { x with sfp := .stuck })))

/-- Module management runs on a port (R50, R967). -/
def sfpManaged (s : State) (p : Nat) : Bool := portRuns s p

/-- The module acknowledged address 0x50 or did not (R404): its A0h bytes are read when it becomes present. -/
def sfpPresence (p : Nat) (ack : Bool) (a0 : Bytes) (s : State) : State :=
  if !ack then s.updPort p fun x => { x with sfp := .absent }
  else if (s.port p).sfp = .present then s
  else
    (s.emit (.twoWire p 0x50 0 false (fit 96 a0))).updPort p fun x =>
      { x with sfp := .present, a0 := fit 96 a0, ddm := List.replicate 10 0#8, ddmAt := none }

/-- SFP_PRESENCE_POLL: recovery attempts it took, the acknowledge of 0x50, A0h bytes 0 to 95 (R404, R406). -/
def execSfpPresencePoll (p : Fin 6) (tries : Nat) (ack : Bool) (a0 : List (BitVec 8)) (s : State) : Res :=
  s.running fun s =>
    if !sfpManaged s p.val || (s.port p.val).sfp == .stuck then s
    else
      let (free, s1) := sfpRecover p.val tries s
      if free then sfpPresence p.val ack a0 s1 else s1

/-- DDM_POLL (R405): A2h bytes 96 to 105, or no acknowledge (R403). -/
def execDdmPoll (p : Fin 6) (tries : Nat) (ack : Bool) (data : List (BitVec 8)) (s : State) : Res :=
  s.running fun s =>
    let x := s.port p.val
    if !sfpManaged s p.val || x.sfp != .present || !x.flags.testBit 6 || !(byteAt x.a0 92).testBit 6 then s
    else
      let (free, s1) := sfpRecover p.val tries s
      if !free then s1
      else if !ack then portCount p.val 21 1 s1
      else (s1.emit (.twoWire p.val 0x51 96 false (fit 10 data))).updPort p.val fun x =>
        { x with ddm := fit 10 data, ddmAt := some s.up }

/-- SFP_STUCK_RETRY: one recovery attempt on a STUCK line (R408). -/
def execSfpStuckRetry (p : Fin 6) (freed : Bool) (s : State) : Res :=
  s.running fun s =>
    if !sfpManaged s p.val || (s.port p.val).sfp != .stuck then s
    else
      let s1 := s.emit (.scl p.val)
      if freed then s1.updPort p.val fun x => { x with sfp := .absent } else s1

/-! ### Low-power idle and LLDP (R386 to R390) -/

/-- Transmit Tw, µs: the larger of 6 µs and the partner's Receive Tw (R387). -/
def transmitTw (x : Port) : Nat := max 6 ((x.partnerTw.map (·.2)).getD 0)

/-- LPI is enabled: EEE set and the partner's echo agrees (R388). -/
def lpiEnabled (x : Port) : Bool := x.flags.testBit 1 && x.echoOk

/-- LPI_ENTRY: time without a queued frame and time to the next scheduled launch, µs (R388). -/
def execLpiEntry (p : Fin 6) (idleUs launchUs : Nat) (s : State) : Res :=
  s.running fun s =>
    let x := s.port p.val
    if portRuns s p.val && x.link && lpiEnabled x && !x.txLpi && x.txq.isEmpty && x.held.isNone && decide (x.lpiIdle ≤ idleUs) &&
        decide (transmitTw x + 5 < launchUs) then
      portCount p.val 16 1 (s.updPort p.val fun x => { x with txLpi := true, txLpiSince := s.up })
    else s

/-- LPI_EXIT: a frame is queued, or a scheduled launch is at most the Transmit Tw away (R389). -/
def execLpiExit (p : Fin 6) (launchUs : Nat) (s : State) : Res :=
  s.running fun s =>
    let x := s.port p.val
    if x.txLpi && (!x.txq.isEmpty || decide (launchUs ≤ transmitTw x)) then leaveLpi p.val s else s

/-- LPI_RX_ENTRY (R390). -/
def execLpiRxEntry (p : Fin 6) (s : State) : Res :=
  s.running fun s =>
    let x := s.port p.val
    if portRuns s p.val && x.link && x.mode == 1 && !x.rxLpi then
      portCount p.val 17 1 (s.updPort p.val fun x => { x with rxLpi := true })
    else s

/-- LPI_RX_WAKE (R390). -/
def execLpiRxWake (p : Fin 6) (s : State) : Res := s.running fun s => s.updPort p.val fun x => { x with rxLpi := false }

/-- The EEE LLDPDU: chassis ID MAC0, port ID, time to live, the EEE TLV, end (R387; the TLVs' form is that of IEEE
802.1AB and IEEE 802.3, log entry 30). -/
def lldpdu (s : State) (p : Nat) : Bytes :=
  let x := s.port p
  let m := fit 6 (mac0 s p)
  let q := x.partnerTw.getD (0, 0)
  [0x01, 0x80, 0xC2, 0, 0, 0x0E] ++ m ++ [0x88, 0xCC] ++ [0x02, 7, 4] ++ m ++ [0x04, 7, 3] ++ m ++ [0x06, 2, 0, 120] ++
    [0xFE, 14, 0x00, 0x12, 0x0F, 5] ++ beBytes 2 (transmitTw x) ++ beBytes 2 6 ++ beBytes 2 6 ++ beBytes 2 q.1 ++ beBytes 2 q.2 ++
    [0, 0]

/-- LLDP_SEND: at link up, or 30 s after the last (R387). -/
def execLldpSend (p : Fin 6) (first : Bool) (sinceS : Nat) (s : State) : Res :=
  s.running fun s =>
    let x := s.port p.val
    if portRuns s p.val && x.link && x.flags.testBit 1 && (first || decide (30 ≤ sinceS)) then
      s.updPort p.val fun x => { x with txq := x.txq ++ [{ data := lldpdu s p.val }], advTw := transmitTw x }
    else s

/-- LLDPDU_RECEIVED: the partner's EEE TLV: Transmit Tw, Receive Tw and their echoes of ours (R387, R388, R418). -/
def execLldpduReceived (p : Fin 6) (txTw rxTw echoTx echoRx : BitVec 16) (s : State) : Res :=
  s.running fun s =>
    let x := s.port p.val
    if !portRuns s p.val || !x.link || !x.flags.testBit 1 then s
    else
      s.updPort p.val fun x =>
        { x with partnerTw := some (txTw.toNat, rxTw.toNat), echoOk := echoTx.toNat == x.advTw && echoRx.toNat == 6 }

/-! ### Errors and failure (R409, R966 to R969) -/

/-- ERR_SUMMARY: a 100 ms window ends with increases in it (R409). -/
def execErrSummary (p : Fin 6) (sinceMs : Nat) (s : State) : Res :=
  s.running fun s =>
    if (s.port p.val).errPending ∧ 100 ≤ sinceMs then
      raiseSrc (72 + p.val) (s.updPort p.val fun x => { x with errPending := false, errAt := some s.up })
    else s

/-- Set whether a port's island runs. -/
def portIsland (p : Nat) (on : Bool) (s : State) : State :=
  s.updSup fun x => { x with isl := { x.isl with port := vset x.isl.port p on } }

/-- A port island has failed (R471, R967): a second failure within 60 s is not reset (R969). -/
def failPort (p : Nat) (s : State) : State :=
  let again := (s.port p).failAt.any fun x => decide (s.up < x + 60000000)
  let s1 := raiseCrumb (72 + p) 0x06A4 4 0 (anyPayload 0x06A4 [p]) (raiseSrc (64 + p) (abortTx p false s))
  let s2 := portIsland p false (s1.updPort p fun x =>
    { x with failed := true, failAt := some s.up, failLocked := again, held := none, rxq := [], xoff := false, pause := none
             late := [], txLpi := false, rxLpi := false, link := false
             linkChanges := if x.link then inc32 x.linkChanges else x.linkChanges })
  ptpPortLost p (syncTxDis p s2)

/-- PORT_FAILED: time without a crossing transfer, a parity error, spine measurements failed in succession (R966). -/
def execPortFailed (p : Fin 6) (noXferUs : Nat) (parity : Bool) (badSpine : Nat) (s : State) : Res :=
  s.running fun s =>
    if portRuns s p.val && (decide (1000 ≤ noXferUs) || parity || decide (3 ≤ badSpine)) then failPort p.val s else s

/-- PORT_RESTORED: a failed island was reset 1 s after its failure and its spine offset measured (R969). -/
def execPortRestored (p : Fin 6) (afterMs : Nat) (s : State) : Res :=
  s.running fun s =>
    let x := s.port p.val
    if x.failed && !x.failLocked && decide (1000 ≤ afterMs) then
      crumb 0x06A5 2 0 (anyPayload 0x06A5 [p.val])
        (syncTxDis p.val (portIsland p.val true (s.updPort p.val fun x => { x with failed := false })))
    else s

/-! ### Commands (Table ETH.5) -/

/-- Fields of Table ETH.6 (R386). -/
def portConfigOk (p : Bytes) : Bool :=
  byteAt p 0 ≤ 5 && byteAt p 1 ≤ 2 && byteAt p 3 == 0 && inRange 1518 9216 (rd p 4 2) && rd p 6 2 != 0 && rd p 8 2 != 0 &&
    decide (byteAt p 10 < 32) && byteAt p 11 == 0 && zeroAt p 36 4 && !(byteAt p 1 == 2 && (byteAt p 2).testBit 1)

/-- The settings of a port from Table ETH.6. -/
def portSettings (p : Bytes) (x : Port) : Port :=
  { x with mode := byteAt p 1, flags := rd p 2 2, maxFrame := rd p 4 2, pauseQuanta := rd p 6 2, lpiIdle := rd p 8 2
           defaultRing := byteAt p 10, macs := Vector.ofFn fun (i : Fin 4) => slice p (12 + 6 * i.val) 6
           everOn := x.everOn || byteAt p 1 != 0, failLocked := false }

/-- 0x0601 ETH_PORT_CONFIG (R358, R386, R411, R416, R802, R969). -/
def cmdEthPortConfig : Cmd :=
  { op := 0x0601, rights := byOwner 1, len := exactly 40, fields := fun _ _ p => portConfigOk p
    run := fun s t p =>
      let n := byteAt p 0
      if byteAt p 1 = 0 ∧ claimed s t (5 + n) then .done St.denied [] (claimDenied t 0x0601 (5 + n) s)
      else
        let s1 := if (s.port n).mode = byteAt p 1 then s else portLinkDown n s
        let s2 := syncTxDis n (s1.updPort n (portSettings p))
        let s3 := if portFlag s2 n 0 then s2
          else
            let s4 := dropHeld n s2
            if (s2.port n).held.isSome then sendPause n 0 (s4.updPort n fun x => { x with xoff := false }) else s4
        .done St.ok [] (if portFlag s3 n 1 then s3 else leaveLpi n s3) }

/-- A request naming one port: the port, three reserved bytes. -/
def portArg (_ : State) (_ : Nat) (p : Bytes) : Bool := byteAt p 0 ≤ 5 && zeroAt p 1 3

/-- A port's counters as they read now: the time in LPI runs on. -/
def portCounters (s : State) (p : Nat) : List Nat :=
  let x := s.port p
  (upd x.counters 18 fun c => wrap64 (c + if x.txLpi then s.up - x.txLpiSince else 0)).toList

/-- 0x0602 ETH_PORT_STATUS (Table ETH.7, R967). -/
def cmdEthPortStatus : Cmd :=
  { op := 0x0602, rights := byReader 1, limited := always, len := exactly 4, fields := portArg
    run := fun s _ p =>
      let x := s.port (byteAt p 0)
      if x.failed then .done St.notReady [] s
      else
        let age := match x.ddmAt with
          | some t => min 65535 ((s.up - t) / 1000000)
          | none => 65535
        .done St.ok (leBytes 1 x.mode ++
          leBytes 1 (b2n x.link + 2 * b2n x.los + 4 * b2n x.pause.isSome + 8 * b2n x.held.isSome + 16 * b2n x.txLpi + 32 * b2n x.rxLpi) ++
          leBytes 1 (match x.sfp with | .absent => 0 | .present => 1 | .stuck => 2) ++ leBytes 1 x.anResult ++
          leBytes 2 (if lpiEnabled x then transmitTw x * 1000 else 0) ++ leBytes 2 ((x.partnerTw.map (·.2)).getD 0) ++ fit 10 x.ddm ++
          leBytes 2 age ++ leBytes 4 x.linkChanges) s }

/-- 0x0603 ETH_PORT_COUNTERS (R400, R967). -/
def cmdEthPortCounters : Cmd :=
  { op := 0x0603, rights := byReader 1, limited := always, len := exactly 4, fields := portArg
    run := fun s _ p =>
      if (s.port (byteAt p 0)).failed then .done St.notReady [] s
      else .done St.ok ((portCounters s (byteAt p 0)).flatMap (leBytes 8)) s }

/-- 0x0604 ETH_FLOW_SET (R394, R397 to R399). -/
def cmdEthFlowSet : Cmd :=
  { op := 0x0604, rights := byOwner 1, len := exactly 68
    fields := fun _ _ p => decide (rd p 0 2 < 4096) && zeroAt p 2 2 && flowOk (slice p 4 64) && byteAt p 7 ≤ 1
    run := fun s _ p =>
      let f := flowAt s (rd p 0 2)
      if f.service ≠ 1 ∧ f.service ≠ 255 then .done St.busy [] s
      else .done St.ok [] (setFlow (rd p 0 2) 1 (Flow.ofBytes (slice p 4 64)) s) }

/-- 0x0605 ETH_FLOW_GET. -/
def cmdEthFlowGet : Cmd :=
  { op := 0x0605, rights := byReader 1, limited := always, len := exactly 4
    fields := fun _ _ p => inRange 1 3 (byteAt p 2) && byteAt p 3 == 0 && decide (rd p 0 2 + byteAt p 2 ≤ 4096)
    run := fun s _ p => .done St.ok ((List.range (byteAt p 2)).flatMap fun i => (flowAt s (rd p 0 2 + i)).bytes) s }

/-- Counts as they read: 24 bytes. -/
def FlowCount.out (c : FlowCount) : Bytes := leBytes 8 c.frames ++ leBytes 8 c.bytes ++ leBytes 8 c.dropped

/-- 0x0606 ETH_FLOW_COUNTERS (R401). -/
def cmdEthFlowCounters : Cmd :=
  { op := 0x0606, rights := byReader 1, limited := always, len := exactly 4
    fields := fun _ _ p =>
      let i := rd p 0 2
      let n := byteAt p 2
      inRange 1 8 n && byteAt p 3 == 0 && (decide (i + n ≤ 4096) || (decide (0x1000 ≤ i) && decide (i + n ≤ 0x1006)))
    run := fun s _ p =>
      .done St.ok ((List.range (byteAt p 2)).flatMap fun k =>
        let i := rd p 0 2 + k
        if 0x1000 ≤ i then (s.port (i - 0x1000)).deflt.out else (mgetD s.net.counts i {}).out) s }

/-- 0x0607 ETH_SFP_XFER (Table ETH.8, R402, R407, R412, R967): TWO_WIRE_TRANSACTION_END ends its transaction; commands
wait for the bus in order (log entry 31). -/
def cmdEthSfpXfer : Cmd :=
  { op := 0x0607, rights := fun s t p => if byteAt p 3 = 0 then byReader 1 s t p else byOwner 1 s t p, len := exactly 12
    fields := fun s t p =>
      let n := byteAt p 4
      byteAt p 0 ≤ 5 && (byteAt p 1 == 0x50 || byteAt p 1 == 0x51) && byteAt p 3 ≤ 1 && inRange 1 128 n &&
        decide (byteAt p 2 + n ≤ 256) && (byteAt p 3 == 0 || n ≤ 8) && zeroAt p 5 3 && usable s t (rd p 8 4)
    run := fun s _ p =>
      let x := s.port (byteAt p 0)
      let i := hIndex (rd p 8 4)
      if x.failed || x.sfp == .stuck then .done St.notReady [] s
      else if byteAt p 3 = 1 ∧ s.loft.poisoned (yAddr i 0) (byteAt p 4) then .done St.loftPoison [] s
      else .accept { key := byteAt p 0, pins := [i], data := p, waits := true } (pin i s) }

/-- An ETH_SFP_XFER's transaction ends: recovery attempts, the acknowledges, the longest stretch in ms, arbitration, the
bytes read (R402, R403, R406, R407, R412). -/
def sfpXferEnd (j : Job) (tries : Nat) (ack : Bool) (stretchMs : Nat) (lost : Bool) (data : Bytes) (s : State) : State :=
  let p := byteAt j.data 0
  let n := byteAt j.data 4
  let a := yAddr (hIndex (rd j.data 8 4)) 0
  let write := byteAt j.data 3 = 1
  let (free, s1) := sfpRecover p tries s
  if !free then completeJob j St.notReady [] s1
  else
    let s2 := s1.emit (.twoWire p (byteAt j.data 1) (byteAt j.data 2) (byteAt j.data 3 == 1) (if write then loftRead s1 a n else fit n data))
    if !ack || lost || decide (25 < stretchMs) then
      let aborted := lost || decide (25 < stretchMs) || (s.port p).sfp == .present
      completeJob j St.mediumError [] (if aborted then portCount p 21 1 s2 else s2)
    else completeJob j St.ok [] (if write then s2 else loftWrite a (fit n data) s2)

/-- The meaning of ETH_PORT_CONFIG. -/
def execEthPortConfig (c : Call) (s : State) : Res := command cmdEthPortConfig c s
/-- The meaning of ETH_PORT_STATUS. -/
def execEthPortStatus (c : Call) (s : State) : Res := command cmdEthPortStatus c s
/-- The meaning of ETH_PORT_COUNTERS. -/
def execEthPortCounters (c : Call) (s : State) : Res := command cmdEthPortCounters c s
/-- The meaning of ETH_FLOW_SET. -/
def execEthFlowSet (c : Call) (s : State) : Res := command cmdEthFlowSet c s
/-- The meaning of ETH_FLOW_GET. -/
def execEthFlowGet (c : Call) (s : State) : Res := command cmdEthFlowGet c s
/-- The meaning of ETH_FLOW_COUNTERS. -/
def execEthFlowCounters (c : Call) (s : State) : Res := command cmdEthFlowCounters c s
/-- The meaning of ETH_SFP_XFER. -/
def execEthSfpXfer (c : Call) (s : State) : Res := command cmdEthSfpXfer c s

end Sys2Proof.Machine
end

