-- ==== Sys2Proof/Machine/Radio.lean ====
section
/-!
DEFINITION. Radio front-end control: events and the RADIO commands (spec/13_radio_control.md, R677 to R731).
-/
namespace Sys2Proof.Machine
open Sys2Proof

/-! ### Events -/

/-- A radio event: the module and its radio island run. -/
def radioRow (f : State → State) (s : State) : Res := s.running fun s => if radioRuns s then f s else s

/-- PATTERN_APPLY: TAI second `sec` begins; a pattern whose boundary it is takes effect, the band QUIET until its first
transition (R702, R727). -/
def execPatternApply (b : Fin 4) (sec : Nat) (s : State) : Res :=
  radioRow (fun s =>
    match (s.bandOf b.val).tddNext with
    | some (p, at_) =>
      if at_ ≤ sec then
        syncBand b.val ((cancelTdd (· == b.val) s).updBand b.val fun x => { x with tdd := some p, tddNext := none, dir := 0, gate := false })
      else s
    | none => s) s

/-- CAL_WAIT_END: `us` after the program words, the calibration result and the lock status are read (R685, R692). -/
def execCalWaitEnd (i : Fin 4) (us calRead lockRead : Nat) (s : State) : Res :=
  radioRow (fun s =>
    let x := s.synthOf i.val
    match x.work with
    | .cal e retried =>
      if us < x.calWaitUs then s
      else
        let s1 := rfPush 2 x.cs x.lockWord (rfPush 2 x.cs x.calReadWord s)
        let s2 := updEntry i.val e (fun y => { y with calValue := Nat.land (calRead % 2 ^ 32) x.calMask, calTemp := x.temp }) s1
        lockDecided i.val e (Nat.land (lockRead % 2 ^ 32) x.lockMask == x.lockValue) retried true s2
    | _ => s) s

/-- HOP_LOCK_CHECK: `ns` after a hop's words, the lock status is read (R686, R692). -/
def execHopLockCheck (i : Fin 4) (ns lockRead : Nat) (s : State) : Res :=
  radioRow (fun s =>
    let x := s.synthOf i.val
    match x.work with
    | .hop e retried =>
      if ns < x.lockNs then s
      else lockDecided i.val e (Nat.land (lockRead % 2 ^ 32) x.lockMask == x.lockValue) retried false (rfPush 2 x.cs x.lockWord s)
    | _ => s) s

/-- LOCK_POLL: the lock status of a band in STANDBY or ACTIVE; a mismatch mutes it and starts a recovery (R693, R725). -/
def execLockPoll (b : Fin 4) (lockRead : Nat) (s : State) : Res :=
  radioRow (fun s =>
    let x := s.synthOf b.val
    let y := s.bandOf b.val
    if y.state != .standby && y.state != .active then s
    else
      let s1 := rfPush 5 x.cs x.lockWord s
      if Nat.land (lockRead % 2 ^ 32) x.lockMask = x.lockValue then s1
      else
        let s2 := s1.updBand b.val fun z => { z with activate := z.state == .active, state := .tuning, tuneMute := true }
        startCal b.val y.entry false (raiseSrc 101 (syncBand b.val s2))) s

/-- AUX recovery: `n` attempts until SDA reads high, more than 3 for never: the bus is STUCK (R715, R716). -/
def auxRecover (n : Nat) (s : State) : Bool × State :=
  let s1 := (List.range (min n 3)).foldl (fun s _ => s.emit (.scl 6)) s
  if n ≤ 3 then (true, s1)
  else
    let s2 := s1.updRad fun r =>
      { r with auxStuck := true
               synth := r.synth.map fun x => if x.tempSrc = 1 then { x with fallback := true, rebase := true } else x }
    (false, crumbOf 16 101 0x07A2 3 (s.owner 4) (anyPayload 0x07A2 []) (raiseSrc 101 s2))

/-- A synthesizer's temperature is read: entries 8.0 °C away become STALE, and a STALE entry in use is calibrated again
(R688, R689, R716, R717, R724). -/
def takeTemp (i : Nat) (t : Int) (s : State) : State :=
  let x := s.synthOf i
  let age (y : SynthEntry) : SynthEntry :=
    let z := if x.rebase then { y with calTemp := t } else y
    if z.state = .calibrated ∧ 2048 ≤ (z.calTemp - t).natAbs then { z with state := .stale } else z
  let s1 := s.updSynth i fun x => { x with temp := t, rebase := false, entries := x.entries.map fun p => (p.1, age p.2) }
  let b := s1.bandOf i
  if (b.state = .standby ∨ b.state = .active) ∧ (synthEntry s1 i b.entry).state = .stale then
    tune i b.entry (s1.updBand i fun y => { y with activate := y.state == .active })
  else s1

/-- TEMPERATURE_READ: a synthesizer's reading in 1/256 °C; of an AUX sensor with the recovery attempts it took (R688,
R715). -/
def execTemperatureRead (i : Fin 4) (t : Int) (tries : Nat) (s : State) : Res :=
  radioRow (fun s =>
    if (s.synthOf i.val).tempSrc = 1 ∧ !s.radio.auxStuck then
      let (free, s1) := auxRecover tries s
      if free then takeTemp i.val t (s1.emit (.twoWire 6 (s.synthOf i.val).tempAddr (s.synthOf i.val).tempReg false (beInt 2 t))) else s1
    else takeTemp i.val t s) s

/-- RF_FRAME_DONE: the frame in progress ends with a captured word; the next one is sent (R682, R683). -/
def execRfFrameDone (rx : Nat) (s : State) : Res :=
  radioRow (fun s =>
    if s.radio.rfNow.isNone then s else rfStart (s.updRad fun r => { r with rfNow := none, rx := rx % 2 ^ 32 })) s

/-- A detector's level for a code, in 0.1 dBm (R710, R711), rounded down. -/
def detLevel (d : Detector) (code : Nat) : Int := d.intercept + ((code * 2000 * 100 : Nat) : Int) / (4095 * max 1 d.slope : Nat)

/-- A detector's sample counts for its window statistics (R712). -/
def detCounts (s : State) (d : Detector) : Bool :=
  let band := if d.role = 3 then d.target else d.target / 2
  let x := s.bandOf band
  let want := if d.target % 2 = 0 then 1 else 2
  !d.flags.testBit 0 || !x.flags.testBit 0 || (if d.role = 3 then x.dir != 0 else x.dir == want)

/-- Close a detector's window (R713). -/
def closeWindow (d : Detector) : Detector :=
  { d with mean := if d.window.isEmpty then d.mean else Config.powerMean d.window, min := d.window.foldl Min.min (d.window.headD d.min)
           max := d.window.foldl Max.max (d.window.headD d.max), samples := d.window.length, window := [], seen := 0 }

/-- DETECTOR_CONVERSION: the code of a detector input, at a TICK (R710 to R713). -/
def execDetectorConversion (n : Fin 8) (code : Fin 4096) (tick : Nat) (s : State) : Res :=
  radioRow (fun s =>
    let d := vat s.radio.det n.val
    let l := detLevel d code.val
    let d1 := { d with code := code.val, tick := tick % 2 ^ 32, last := l, seen := d.seen + 1
                       window := if d.role ≠ 0 ∧ detCounts s d then l :: d.window else d.window }
    let d2 := if d.windowUs / 4 ≤ d1.seen then closeWindow d1 else d1
    s.updRad fun r => { r with det := vset r.det n.val d2 }) s

/-- AUX_STUCK_RETRY: one recovery attempt on a STUCK bus (R717). -/
def execAuxStuckRetry (freed : Bool) (s : State) : Res :=
  radioRow (fun s =>
    if !s.radio.auxStuck then s
    else
      let s1 := s.emit (.scl 6)
      if !freed then s1
      else s1.updRad fun r =>
        { r with auxStuck := false
                 synth := r.synth.map fun x => if x.tempSrc = 1 then { x with fallback := false, rebase := true } else x }) s

/-- An AUX transfer's transaction ends (R714, R715, R716). -/
def auxXferEnd (j : Job) (tries : Nat) (ack : Bool) (stretchMs : Nat) (data : Bytes) (s : State) : State :=
  let n := byteAt j.data 2
  let write := byteAt j.data 3 % 2 = 1
  let (free, s1) := auxRecover tries s
  if !free then completeJob j St.notReady [] s1
  else
    let s2 := s1.emit (.twoWire 6 (byteAt j.data 0) (byteAt j.data 1) (byteAt j.data 3 % 2 == 1)
      (if write then slice j.data 4 n else fit n data))
    if !ack || decide (25 < stretchMs) then completeJob j St.mediumError [] s2
    else if write then completeJob j St.ok [] s2
    else completeResult j (fit n data) s2

/-- TWO_WIRE_TRANSACTION_END: the transaction of the oldest ETH_SFP_XFER (or, with `aux`, RADIO_AUX_XFER) ends: recovery
attempts before it, the acknowledge, the longest stretch, lost arbitration, the bytes read (R403, R406, R412, R714). -/
def execTwoWireTransactionEnd (aux : Bool) (tries : Nat) (ack : Bool) (stretchMs : Nat) (lost : Bool) (data : List (BitVec 8))
    (s : State) : Res :=
  s.running fun s =>
    match s.jobs.find? fun j => j.op == (if aux then 0x0711 else 0x0607) with
    | some j => if aux then auxXferEnd j tries (ack && !lost) stretchMs data s else sfpXferEnd j tries ack stretchMs lost data s
    | none => s

/-! ### Commands (Table RAD.11) -/

/-- Owner of RADIO. -/
def radioOwner : State → Nat → Bytes → Bool := byOwner 4
/-- Owner of RADIO or a reader. -/
def radioReader : State → Nat → Bytes → Bool := byReader 4
/-- A command marked RUN: WRONG_MODE in KEEP (R721). -/
def notKeep (m : Mode) : Bool := m != .keep

/-- A 2-bit code of an entry's state (Table RAD.13). -/
def entryCode : EntryState → Nat
  | .uncalibrated => 0
  | .calibrated => 1
  | .stale => 2

/-- A band state's code (Table RAD.4). -/
def bandCode : BandState → Nat
  | .off => 0
  | .tuning => 1
  | .standby => 2
  | .active => 3
  | .fault => 4

/-- Table RAD.13 (R722). -/
def radioStatus (s : State) : Bytes :=
  let band (b : Nat) : Bytes :=
    let x := s.bandOf b
    [BitVec.ofNat 8 (bandCode x.state), BitVec.ofNat 8 x.entry, BitVec.ofNat 8 x.dir,
      BitVec.ofNat 8 (x.flags % 4 + 4 * b2n x.tdd.isSome)]
  let syn (i : Nat) : Bytes := leInt 2 (s.synthOf i).temp ++ leBytes 1 (b2n (s.synthOf i).fallback) ++ zeros 1
  let ent (i k : Nat) : BitVec 8 :=
    BitVec.ofNat 8 (((List.range 4).map fun m => entryCode (synthEntry s i (4 * k + m)).state * 4 ^ m).foldl (· + ·) 0)
  (List.range 4).flatMap band ++ (List.range 4).flatMap syn ++ ((List.range 4).flatMap fun i => (List.range 16).map (ent i)) ++
    ((List.range 8).flatMap fun p => leBytes 1 (s.pathOf p).cmd ++ leBytes 1 (s.pathOf p).applied) ++
    leBytes 1 (b2n s.radio.auxStuck) ++ zeros 3

/-- 0x0701 RADIO_GET_STATUS. -/
def cmdRadioGetStatus : Cmd :=
  { op := 0x0701, rights := radioReader, limited := always, run := fun s _ _ => .done St.ok (radioStatus s) s }

/-- A band uses a chip select and is not OFF. -/
def csInUse (s : State) (cs : Nat) : Bool :=
  (List.range 4).any fun b =>
    (s.bandOf b).state != .off && ((s.synthOf b).cs == cs || (s.bandOf b).attenCs == cs)

/-- 0x0702 RADIO_DEVICE_SET (Table RAD.1). -/
def cmdRadioDeviceSet : Cmd :=
  { op := 0x0702, rights := radioOwner, len := exactly 4
    fields := fun _ _ p => byteAt p 0 ≤ 3 && inRange 8 32 (byteAt p 1) && inRange 1 20 (byteAt p 2) && byteAt p 3 ≤ 3
    run := fun s _ p =>
      if csInUse s (byteAt p 0) then .done St.busy [] s
      else .done St.ok [] (s.updRad fun r =>
        { r with device := vset r.device (byteAt p 0) { wordBits := byteAt p 1, clkMhz := byteAt p 2, flags := byteAt p 3 } }) }

/-- A band is OFF or FAULT. -/
def bandIdle (s : State) (b : Nat) : Bool := (s.bandOf b).state == .off || (s.bandOf b).state == .fault

/-- 0x0703 RADIO_BAND_CONFIG (Table RAD.6). -/
def cmdRadioBandConfig : Cmd :=
  { op := 0x0703, rights := radioOwner, len := exactly 16
    fields := fun _ _ p =>
      byteAt p 0 ≤ 3 && byteAt p 1 ≤ 3 && byteAt p 2 ≤ 63 && byteAt p 3 == 0 && byteAt p 4 ≤ 3 && byteAt p 5 ≤ 31 && zeroAt p 6 2
    run := fun s _ p =>
      if !bandIdle s (byteAt p 0) then .done St.busy [] s
      else .done St.ok [] (s.updBand (byteAt p 0) fun x =>
        { x with flags := byteAt p 1, startEntry := byteAt p 2, attenCs := byteAt p 4, attenShift := byteAt p 5, attenIn := rd p 8 4
                 attenOut := rd p 12 4, configured := true }) }

/-- 0x0704 RADIO_SYNTH_CONFIG (Table RAD.2). -/
def cmdRadioSynthConfig : Cmd :=
  { op := 0x0704, rights := radioOwner, len := exactly 36
    fields := fun _ _ p =>
      byteAt p 0 ≤ 3 && byteAt p 1 ≤ 3 && inRange 1 3 (byteAt p 2) && decide (byteAt p 3 < byteAt p 2) && byteAt p 16 ≤ 31 &&
        byteAt p 17 ≤ 1 && (if byteAt p 17 = 1 then decide (byteAt p 18 < 128) else zeroAt p 18 2) && inRange 10 5000 (rd p 20 2) &&
        inRange 500 50000 (rd p 22 2)
    run := fun s _ p =>
      if !bandIdle s (byteAt p 0) || (s.synthOf (byteAt p 0)).calRun then .done St.busy [] s
      else .done St.ok [] (s.updSynth (byteAt p 0) fun x =>
        { x with configured := true, cs := byteAt p 1, words := byteAt p 2, calWord := byteAt p 3, autoCalBits := rd p 4 4
                 calReadWord := rd p 8 4, calMask := rd p 12 4, calShift := byteAt p 16, tempSrc := byteAt p 17, tempAddr := byteAt p 18
                 tempReg := byteAt p 19, calWaitUs := rd p 20 2, lockNs := rd p 22 2, lockWord := rd p 24 4, lockMask := rd p 28 4
                 lockValue := rd p 32 4, fallback := byteAt p 17 == 1 && s.radio.auxStuck }) }

/-- An entry of Table RAD.3. -/
def rdEntry (d : Bytes) (k : Nat) : SynthEntry :=
  { freq := rd d (16 * k) 4, words := Vector.ofFn fun (j : Fin 3) => rd d (16 * k + 4 + 4 * j.val) 4 }

/-- 0x0705 RADIO_SYNTH_TABLE_SET (Table RAD.3, R684, R729). -/
def cmdRadioSynthTableSet : Cmd :=
  { op := 0x0705, rights := radioOwner, len := exactly 8
    fields := fun s t p =>
      byteAt p 0 ≤ 3 && inRange 1 64 (byteAt p 2) && byteAt p 1 + byteAt p 2 ≤ 64 && byteAt p 3 == 0 && usable s t (rd p 4 4)
    run := fun s _ p =>
      let i := byteAt p 0
      let n := byteAt p 2
      let a := yAddr (hIndex (rd p 4 4)) 0
      let d := loftRead s a (16 * n)
      let w := (s.synthOf i).words
      if s.loft.poisoned a (16 * n) then .done St.loftPoison [] s
      else if !((List.range n).all fun k => zeroAt d (16 * k + 4 + 4 * w) (12 - 4 * w)) then .done St.badField [] s
      else if !bandIdle s i ∧ byteAt p 1 ≤ (s.bandOf i).entry ∧ (s.bandOf i).entry < byteAt p 1 + n then .done St.busy [] s
      else .done St.ok [] ((List.range n).foldl (fun s k => updEntry i (byteAt p 1 + k) (fun _ => rdEntry d k) s) s) }

/-- Entries of a mask, ascending. -/
def maskEntries (m : Nat) : List Nat := (List.range 64).filter (m.testBit ·)

/-- 0x0706 RADIO_SYNTH_CAL (R690, R691). -/
def cmdRadioSynthCal : Cmd :=
  { op := 0x0706, rights := radioOwner, modes := notKeep, islands := fun s _ => radioRuns s, len := exactly 12
    fields := fun _ _ p => byteAt p 0 ≤ 3 && zeroAt p 1 3
    run := fun s _ p =>
      let i := byteAt p 0
      if !bandIdle s i || (s.synthOf i).calRun then .done St.busy [] s
      else
        let l := maskEntries (rd p 4 8)
        if l.isEmpty then .accept { key := i } (raiseSrc 102 s)
        else .accept { key := i, waits := true } (nextCal i (s.updSynth i fun x => { x with calRun := true, calQueue := l })) }

/-- 0x0707 RADIO_BAND_START (R694, R703, R721, R1078). -/
def cmdRadioBandStart : Cmd :=
  { op := 0x0707, rights := radioOwner, modes := fun m => m = .run, len := exactly 4
    fields := fun _ _ p => byteAt p 0 ≤ 3 && byteAt p 1 ≤ 1 && zeroAt p 2 2
    run := fun s _ p =>
      let b := byteAt p 0
      let x := s.bandOf b
      let act : Bool := byteAt p 1 == 1
      if !radioRuns s || (s.synthOf b).calRun then .done St.notReady [] s
      else if x.flags.testBit 0 && !s.timebase.valid then .done St.timeInvalid [] s
      else match x.state with
        | .off | .fault => .accept { key := b, waits := true } (startBand b act s)
        | .tuning => .accept { key := b, waits := true } (s.updBand b fun y => { y with activate := y.activate || act })
        | .standby => .accept { key := b } (if act then activateBand b s else s)
        | .active => .accept { key := b } s }

/-- 0x0708 RADIO_BAND_STOP (R694, R726). -/
def cmdRadioBandStop : Cmd :=
  { op := 0x0708, rights := radioOwner, len := exactly 4
    fields := fun _ _ p => byteAt p 0 ≤ 3 && zeroAt p 1 3
    run := fun s _ p =>
      .done St.ok [] (if (s.bandOf (byteAt p 0)).state = .off then s else stopBand (byteAt p 0) (cancelTdd (· == byteAt p 0) s)) }

/-- 0x0709 RADIO_BAND_HOP (R686). -/
def cmdRadioBandHop : Cmd :=
  { op := 0x0709, rights := radioOwner, modes := notKeep, islands := fun s _ => radioRuns s, len := exactly 4
    fields := fun _ _ p => byteAt p 0 ≤ 3 && byteAt p 1 ≤ 63 && zeroAt p 2 2
    run := fun s _ p =>
      let b := byteAt p 0
      if (s.bandOf b).state ≠ .standby ∧ (s.bandOf b).state ≠ .active then .done St.busy [] s
      else .accept { key := b, waits := true } (tune b (byteAt p 1) (s.updBand b fun y => { y with activate := y.state == .active })) }

/-- Transitions of a RADIO_TDD_SET: OFFSET_NS, DIR. -/
def rdTrans (p : Bytes) : List (Nat × Nat) := (List.range (byteAt p 1)).map fun k => (rd p (12 + 8 * k) 4, byteAt p (16 + 8 * k))

/-- Consecutive transitions, the last and the first included, differ in direction and lie 10 µs apart, ascending (R700). -/
def transOk (period : Nat) (l : List (Nat × Nat)) : Bool :=
  let next := l.drop 1 ++ (l.take 1).map fun x => (x.1 + period, x.2)
  (l.zip next).all fun x => x.1.2 != x.2.2 && decide (x.1.1 + 10000 ≤ x.2.1)

/-- 0x070A RADIO_TDD_SET (Table RAD.7, R700, R702). -/
def cmdRadioTddSet : Cmd :=
  { op := 0x070A, rights := radioOwner, len := fun p => decide (12 ≤ p.length) && p.length == 12 + 8 * byteAt p 1
    fields := fun _ _ p =>
      let period := rd p 2 2 * 1000
      let l := rdTrans p
      byteAt p 0 ≤ 3 && inRange 2 16 (byteAt p 1) && inRange 500 20000 (rd p 2 2) && 1000000 % rd p 2 2 == 0 &&
        decide (rd p 4 4 < period) && decide (-10000 ≤ rdS p 8 4) && decide (rdS p 8 4 ≤ 10000) &&
        l.all (fun x => decide (x.1 < period) && inRange 1 3 x.2) && transOk period l &&
        (List.range (byteAt p 1)).all fun k => zeroAt p (17 + 8 * k) 3
    run := fun s _ p =>
      let b := s.timebase.now
      let at_ := if b.ns ≤ 999000000 then b.sec + 1 else b.sec + 2
      .done St.ok [] (s.updBand (byteAt p 0) fun x =>
        { x with tddNext := some ({ periodUs := rd p 2 2, phaseNs := rd p 4 4, advance := rdS p 8 4, trans := rdTrans p }, at_) }) }

/-- 0x070B RADIO_POWER_TABLE_SET (Table RAD.8, R705). -/
def cmdRadioPowerTableSet : Cmd :=
  { op := 0x070B, rights := radioOwner, len := exactly 16
    fields := fun s t p => byteAt p 0 ≤ 7 && byteAt p 1 == 0 && decide (rd p 6 2 < 4096) && zeroAt p 9 3 && usable s t (rd p 12 4)
    run := fun s _ p =>
      let a := yAddr (hIndex (rd p 12 4)) 0
      let d := loftRead s a 256
      if s.loft.poisoned a 256 then .done St.loftPoison [] s
      else if !((List.range 64).all fun i => decide (rd d (4 * i + 2) 2 < 4096)) then .done St.badField [] s
      else if !(s.pathOf (byteAt p 0)).muted then .done St.busy [] s
      else .done St.ok [] (s.updPath (byteAt p 0) fun x =>
        { x with gainTop := rdS p 2 2, muteCode := rd p 4 2, muteBias := rd p 6 2, dither := rdS p 8 1
                 table := (List.range 64).map fun i => (i, (rd d (4 * i) 2, rd d (4 * i + 2) 2)) }) }

/-- 0x070C RADIO_POWER_SET (R706, R744, R774). -/
def cmdRadioPowerSet : Cmd :=
  { op := 0x070C, rights := radioOwner, len := exactly 4
    fields := fun _ _ p => byteAt p 0 ≤ 7 && byteAt p 1 ≤ 63 && zeroAt p 2 2
    run := fun s _ p => .done St.ok [] (ladder (byteAt p 0) (s.updPath (byteAt p 0) fun x => { x with cmd := byteAt p 1 })) }

/-- The bias code an output drives (R695, R709). -/
def biasCode (s : State) (b : Bias) : Nat :=
  if !radioRuns s then 0
  else match b.path with
    | some p => let x := s.pathOf p; if x.muted then x.muteBias else (x.codes x.applied).2
    | none => if s.supply.mode = .run then b.fixed else 0

/-- 0x070D RADIO_BIAS_CONFIG (R709). -/
def cmdRadioBiasConfig : Cmd :=
  { op := 0x070D, rights := radioOwner, len := exactly 4
    fields := fun _ _ p => byteAt p 0 ≤ 1 && (byteAt p 1 ≤ 7 || byteAt p 1 == 255) && decide (rd p 2 2 < 4096)
    run := fun s _ p =>
      let b : Bias := { path := if byteAt p 1 = 255 then none else some (byteAt p 1), fixed := rd p 2 2 }
      let c := biasCode s b
      let s1 := s.updRad fun r => { r with bias := vset r.bias (byteAt p 0) { b with code := c } }
      .done St.ok [] (if c = (vat s.radio.bias (byteAt p 0)).code then s1 else s1.emit (.bias (byteAt p 0) c)) }

/-- 0x070E RADIO_DET_CONFIG (Table RAD.9, R735). -/
def cmdRadioDetConfig : Cmd :=
  { op := 0x070E, rights := radioOwner, len := exactly 12
    fields := fun _ _ p =>
      byteAt p 0 ≤ 7 && byteAt p 1 ≤ 3 && byteAt p 2 ≤ (if byteAt p 1 = 3 then 3 else 7) && byteAt p 3 ≤ 1 && inRange 10 1000 (rd p 4 2) &&
        inRange 100 1000000 (rd p 8 4)
    run := fun s _ p =>
      let d : Detector :=
        { role := byteAt p 1, target := byteAt p 2, flags := byteAt p 3, slope := rd p 4 2, intercept := rdS p 6 2, windowUs := rd p 8 4
          code := (vat s.radio.det (byteAt p 0)).code, tick := (vat s.radio.det (byteAt p 0)).tick }
      let s1 := s.updRad fun r => { r with det := vset r.det (byteAt p 0) d }
      .done St.ok [] ((List.range 4).foldl (fun s b => syncDetectors b s) s1) }

/-- 0x070F RADIO_DET_READ (R713). -/
def cmdRadioDetRead : Cmd :=
  { op := 0x070F, rights := radioReader, limited := always, modes := notKeep, islands := fun s _ => radioRuns s, len := exactly 4
    fields := fun _ _ p => zeroAt p 1 3
    run := fun s _ p =>
      let one (i : Nat) : Bytes :=
        let d := vat s.radio.det i
        leInt 2 d.last ++ leInt 2 d.mean ++ leInt 2 d.min ++ leInt 2 d.max ++ leBytes 4 d.samples ++ zeros 4
      .done St.ok (((List.range 8).filter ((byteAt p 0).testBit ·)).flatMap one) s }

/-- 0x0710 RADIO_RFSPI_XFER (R728): the word read is the device's, free (log entry 22). -/
def cmdRadioRfspiXfer : Cmd :=
  { op := 0x0710, rights := radioOwner, modes := notKeep, islands := fun s _ => radioRuns s, len := exactly 8
    fields := fun _ _ p => byteAt p 0 ≤ 3 && zeroAt p 1 3
    run := fun s _ p =>
      if csInUse s (byteAt p 0) then .done St.busy [] s
      else .done St.ok (leBytes 4 (s.draw 4)) (rfPush 6 (byteAt p 0) (rd p 4 4) s.drawn) }

/-- 0x0711 RADIO_AUX_XFER (R714, R716). -/
def cmdRadioAuxXfer : Cmd :=
  { op := 0x0711, rights := fun s t p => if byteAt p 3 % 2 = 0 then radioReader s t p else radioOwner s t p, modes := notKeep
    islands := fun s _ => radioRuns s, len := exactly 36
    fields := fun _ _ p => decide (byteAt p 0 < 128) && inRange 1 32 (byteAt p 2) && byteAt p 3 ≤ 3
    run := fun s _ p => if s.radio.auxStuck then .done St.notReady [] s else .accept { data := p, waits := true } s }

/-- The meaning of RADIO_GET_STATUS. -/
def execRadioGetStatus (c : Call) (s : State) : Res := command cmdRadioGetStatus c s
/-- The meaning of RADIO_DEVICE_SET. -/
def execRadioDeviceSet (c : Call) (s : State) : Res := command cmdRadioDeviceSet c s
/-- The meaning of RADIO_BAND_CONFIG. -/
def execRadioBandConfig (c : Call) (s : State) : Res := command cmdRadioBandConfig c s
/-- The meaning of RADIO_SYNTH_CONFIG. -/
def execRadioSynthConfig (c : Call) (s : State) : Res := command cmdRadioSynthConfig c s
/-- The meaning of RADIO_SYNTH_TABLE_SET. -/
def execRadioSynthTableSet (c : Call) (s : State) : Res := command cmdRadioSynthTableSet c s
/-- The meaning of RADIO_SYNTH_CAL. -/
def execRadioSynthCal (c : Call) (s : State) : Res := command cmdRadioSynthCal c s
/-- The meaning of RADIO_BAND_START. -/
def execRadioBandStart (c : Call) (s : State) : Res := command cmdRadioBandStart c s
/-- The meaning of RADIO_BAND_STOP. -/
def execRadioBandStop (c : Call) (s : State) : Res := command cmdRadioBandStop c s
/-- The meaning of RADIO_BAND_HOP. -/
def execRadioBandHop (c : Call) (s : State) : Res := command cmdRadioBandHop c s
/-- The meaning of RADIO_TDD_SET. -/
def execRadioTddSet (c : Call) (s : State) : Res := command cmdRadioTddSet c s
/-- The meaning of RADIO_POWER_TABLE_SET. -/
def execRadioPowerTableSet (c : Call) (s : State) : Res := command cmdRadioPowerTableSet c s
/-- The meaning of RADIO_POWER_SET. -/
def execRadioPowerSet (c : Call) (s : State) : Res := command cmdRadioPowerSet c s
/-- The meaning of RADIO_BIAS_CONFIG. -/
def execRadioBiasConfig (c : Call) (s : State) : Res := command cmdRadioBiasConfig c s
/-- The meaning of RADIO_DET_CONFIG. -/
def execRadioDetConfig (c : Call) (s : State) : Res := command cmdRadioDetConfig c s
/-- The meaning of RADIO_DET_READ. -/
def execRadioDetRead (c : Call) (s : State) : Res := command cmdRadioDetRead c s
/-- The meaning of RADIO_RFSPI_XFER. -/
def execRadioRfspiXfer (c : Call) (s : State) : Res := command cmdRadioRfspiXfer c s
/-- The meaning of RADIO_AUX_XFER. -/
def execRadioAuxXfer (c : Call) (s : State) : Res := command cmdRadioAuxXfer c s

end Sys2Proof.Machine
end

