-- ==== Sys2Proof/Machine/Eave.lean ====
section
/-!
DEFINITION. The Eave guard: estimates, mutes, restarts and the EAVE commands (spec/14_eave_guard.md, R732 to R776).
-/
namespace Sys2Proof.Machine
open Sys2Proof

/-! ### Estimates and ceilings (R736 to R745) -/

/-- The ceiling that a new estimate gives a path (R740, R742, R745). -/
def newCeiling (s : State) (p : Nat) (allow : Option Nat) : Option Nat :=
  let x := s.pathOf p
  let rise := (s.bandOf (p / 2)).rise
  match allow, x.ceiling with
  | none, _ => none
  | some a, none => if rise ≤ a then some (min a rise) else none
  | some a, some c => if a ≤ c then some a else some (max c (min (min a (x.lastAllow.getD 0)) (c + rise)))

/-- The ceiling that isolation allows a path (R740, R741). -/
def allowed (s : State) (p : Nat) (iso : Int) : Option Nat :=
  ceilingFor (s.pathOf p).gainTop iso (5 * max 20 (s.bandOf (p / 2)).margin)

/-- A cause-9 mute lifts when neither path of the band calls for it (R745). -/
def liftMargin (b : Nat) (s : State) : State :=
  if hasCause s b 9 ∧ (s.pathOf (2 * b)).ceiling.isSome ∧ (s.pathOf (2 * b + 1)).ceiling.isSome then liftCause b 9 s else s

/-- ISO_ESTIMATE: the estimate of a path over one sequence period: valid chips, chips in which the leak detector read 4,095,
L_out and the levels of c and of 3 times its standard error in 0.1 dBm (R736 to R739, R742, R771; log entry 38). -/
def execIsoEstimate (p : Fin 8) (chips saturated : Nat) (lOut cLevel errLevel : Int) (s : State) : Res :=
  radioRow (fun s =>
    let b := p.val / 2
    if (s.bandOf b).state != .active || decide (chips < 512) || decide (chips < 2 * saturated) then s
    else
      let leak := max cLevel errLevel + 124
      let iso := lOut - leak
      let old := (s.pathOf p.val).iso
      let allow := allowed s p.val iso
      let c := newCeiling s p.val allow
      let s1 := s.updPath p.val fun x =>
        { x with iso := some iso, lower := decide (cLevel < errLevel), isoAt := s.up, lOut := lOut, pLeak := leak, ceiling := c
                 lastAllow := allow }
      let s2 := liftMargin b (ladder p.val s1)
      if old.any fun o => decide (30 ≤ (iso - o).natAbs) then
        eaveCrumb 0 0x07C5 1 b 0 0 0 (s2.updPath p.val fun x => { x with isoLogged := some s.up })
      else s2) s

/-- ESTIMATE_AGING: a path's last estimate is `ageMs` old while the path is unmuted (R743). -/
def execEstimateAging (p : Fin 8) (ageMs : Nat) (s : State) : Res :=
  radioRow (fun s =>
    let x := s.pathOf p.val
    if x.muted || decide (ageMs ≤ 10000) then s
    else
      let start := (s.bandOf (p.val / 2)).guardStart
      ladder p.val (s.updPath p.val fun x => { x with ceiling := x.ceiling.map (min start), lastAllow := none, iso := none })) s

/-- EAVE_ISO: 60 s have passed: one record for every path with a valid estimate (R739). -/
def execEaveIso (sinceS : Nat) (s : State) : Res :=
  radioRow (fun s =>
    if sinceS < 60 then s
    else (List.range 8).foldl (fun s p =>
      if (s.pathOf p).iso.isSome then eaveCrumb 0 0x07C5 1 (p / 2) 0 0 0 (s.updPath p fun x => { x with isoLogged := some s.up })
      else s) s) s

/-! ### Mutes (R746 to R749) -/

/-- A path's applied gain, 0.1 dB (R705). -/
def appliedGain (x : Path) : Int := x.gainTop - 5 * (63 - (x.applied : Int))

/-- A detector of a role and target exists (Table RAD.9). -/
def hasDet (s : State) (role target : Nat) : Bool := s.radio.det.toList.any fun d => d.role == role && d.target == target

/-- OUT_LIMIT of a path (Table EAV.7). -/
def outLimit (s : State) (p : Nat) : Int :=
  if p % 2 = 0 then (s.bandOf (p / 2)).outLimIn else (s.bandOf (p / 2)).outLimOut

/-- A band relays: a guard condition can arise on it. -/
def bandLive (s : State) (b : Nat) : Bool := (s.bandOf b).state == .active && !(s.pathOf (2 * b)).muted

/-- OSCILLATION_MUTE: consecutive samples, the output and input levels of a path, 0.1 dBm (R746, R768). -/
def execOscillationMute (p : Fin 8) (samples : Nat) (out inp : Int) (s : State) : Res :=
  radioRow (fun s =>
    let b := p.val / 2
    let excess := out - (inp + appliedGain (s.pathOf p.val))
    let byIn : Bool := hasDet s 2 p.val && decide (((s.bandOf b).oscExcess : Int) ≤ excess)
    if !bandLive s b || decide (samples < 5) || !hasDet s 1 p.val then s
    else if byIn then guardMuteBand b 1 true excess (s.bandOf b).oscExcess s
    else if outLimit s p.val < out then guardMuteBand b 1 true out (outLimit s p.val) s
    else s) s

/-- NOISE_RISE: consecutive windows, the outward output's mean and the outward input's maximum, 0.1 dBm (R746). -/
def execNoiseRise (b : Fin 4) (windows : Nat) (mean inMax : Int) (s : State) : Res :=
  radioRow (fun s =>
    let x := s.bandOf b.val
    if bandLive s b.val && x.gflags.testBit 0 && decide (x.noisePersist ≤ windows) && hasDet s 1 (2 * b.val + 1) &&
        hasDet s 2 (2 * b.val + 1) && decide (x.noiseLimit < mean) && decide (inMax < x.traffic) then
      guardMuteBand b.val 2 true mean x.noiseLimit s
    else s) s

/-- OUT_OF_BAND: consecutive windows and the ROLE 3 detector's mean, 0.1 dBm (R746). -/
def execOutOfBand (b : Fin 4) (windows : Nat) (mean : Int) (s : State) : Res :=
  radioRow (fun s =>
    let x := s.bandOf b.val
    if bandLive s b.val && x.gflags.testBit 1 && decide (2 ≤ windows) && hasDet s 3 b.val && decide (x.oobLimit < mean) then
      guardMuteBand b.val 3 true mean x.oobLimit s
    else s) s

/-- Time is valid and the radio island's calibration entry VALID (R746, R748). -/
def radioTimeOk (s : State) : Bool := s.timebase.valid && (vat s.timebase.cal 15).valid

/-- A TDD band that is not OFF. -/
def tddBand (s : State) (b : Nat) : Bool := (s.bandOf b).flags.testBit 0 && (s.bandOf b).state != .off

/-- TDD_TIME_MUTE: time or the radio island's calibration is lost: TDD bands are muted with cause 4 and held QUIET (R746,
R748, R763). -/
def execTddTimeMute (s : State) : Res :=
  radioRow (fun s =>
    let l := (List.range 4).filter fun b => tddBand s b && !hasCause s b 4
    if radioTimeOk s || l.isEmpty then s
    else
      let s1 := l.foldl (fun s b =>
        guardMuteBand b 4 false 0 0 (s.updBand b fun x => { x with quiet := true, dir := 0, gate := false })) s
      raiseSrc 100 (cancelTdd (fun b => l.contains b) s1)) s

/-- TDD_RESUME: `sinceMs` after time became valid again, a cause-4 band resumes (R748). -/
def execTddResume (b : Fin 4) (sinceMs : Nat) (s : State) : Res :=
  radioRow (fun s =>
    if hasCause s b.val 4 ∧ radioTimeOk s ∧ 1000 ≤ sinceMs then
      liftCause b.val 4 (s.updBand b.val fun x => { x with quiet := false })
    else s) s

/-- THERMAL_MUTE: the thermal warning still raised after `forS` seconds (R746). -/
def execThermalMute (forS : Nat) (s : State) : Res :=
  radioRow (fun s =>
    if !s.supply.thermWarn || s.radio.thermMute || decide (forS < 60) then s
    else eaveCrumb 0 0x07C0 3 255 8 0 0 (hardMute (s.updRad fun r => { r with thermMute := true, thermBack := true }))) s

/-- Steps of every path follow their ceilings. -/
def syncSteps (s : State) : State := (List.range 8).foldl (fun s p => syncStep p s) s

/-- THERMAL_MUTE_LIFT: the die has stayed below 95 °C for `forS` seconds (R749). -/
def execThermalMuteLift (forS : Nat) (s : State) : Res :=
  radioRow (fun s =>
    if forS < 60 then s
    else mayRelease (syncSteps (s.updRad fun r => { r with thermMute := false, thermBack := false }))) s

/-- RF_KILL_ASSERT: RF_KILL_N low for `ns` (R753, R756, R972). -/
def execRfKillAssert (ns : Nat) (s : State) : Res :=
  radioRow (fun s =>
    if ns < 200 ∨ s.radio.killed then s
    else
      let s1 := hardMute (s.updRad fun r => { r with killN := false, killed := true })
      crumbOf 16 103 0x07C8 3 (s.owner 4) (anyPayload 0x07C8 [1]) (raiseSrc 103 s1)) s

/-- RF_KILL_RELEASE: `ms` after RF_KILL_N returned high (R755, R756). -/
def execRfKillRelease (ms : Nat) (s : State) : Res :=
  radioRow (fun s =>
    if ms < 1000 ∨ !s.radio.killed then s
    else
      crumbOf 16 0x107 0x07C8 3 (s.owner 4) (anyPayload 0x07C8 [0])
        (mayRelease (s.updRad fun r => { r with killN := true, killed := false }))) s

/-- GUARD_MUTE_RELEASE: `us` after the last whole-repeater cause lifted; the bands unmute, a path whose estimate is older
than 10 s at START_ENTRY (R752, R755). -/
def execGuardMuteRelease (us : Nat) (s : State) : Res :=
  radioRow (fun s =>
    let free : Bool := s.supply.mode == .run && !s.supply.pfail && (vat s.spars 2).state == .running && s.radio.killN &&
      !wholeCause s.radio
    if !s.radio.guardMute || !free || decide (us < 1000) then s
    else
      let s1 := s.updRad fun r => { r with guardMute := false, releasing := false }
      let s2 := (List.range 8).foldl (fun s p =>
        if s.up ≤ (s.pathOf p).isoAt + 10000000 then s else syncStep p (startCeiling p s)) s1
      syncBands s2) s

/-! ### Restarts (R757 to R760, R775) -/

/-- A band restarts: its causes 1 to 3 lift, its ceilings are those before the mute less 12 (R758). -/
def restartBand (b : Nat) (counted : Bool) (s : State) : State :=
  let x := s.bandOf b
  let low (p c : Nat) (s : State) : State :=
    syncStep p (s.updPath p fun y => { y with ceiling := y.ceiling.map fun _ => c - 12, lastAllow := none })
  let s1 := s.updBand b fun x =>
    { x with backoff := none, latched := none, causes := x.causes - x.causes % 8
             restarts := if counted then s.up :: x.restarts else [] }
  let s2 := syncBand b (low (2 * b + 1) x.preMute.2 (low (2 * b) x.preMute.1 s1))
  eaveCrumb 0 0x07C1 2 b x.lastCause 0 0 s2

/-- BACKOFF_EXPIRY: `waitedS` since a band's mute, and for cause 3 since its condition cleared (R757, R758, R775). -/
def execBackoffExpiry (b : Fin 4) (waitedS : Nat) (s : State) : Res :=
  radioRow (fun s =>
    let x := s.bandOf b.val
    if x.backoff.isNone || x.latched.isSome || wholeCause s.radio || decide (waitedS < x.backoffS) then s
    else restartBand b.val true s) s

/-! ### Commands (Table EAV.6) -/

/-- STATE of Table EAV.8. -/
def guardState (s : State) (b : Nat) : Nat :=
  let x := s.bandOf b
  if x.causes.testBit 4 || x.causes.testBit 5 then 4
  else if x.latched.isSome then 3
  else if x.backoff.isSome then 2
  else if x.causes != 0 || wholeCause s.radio then 1 else 0

/-- Whole-repeater causes as CAUSES bits (Table EAV.1). -/
def wholeBits (r : Radio) : Nat := 64 * b2n r.killed + 128 * b2n r.thermMute + 512 * b2n r.mcMute + 1024 * b2n r.modeMute

/-- Table EAV.8. -/
def eaveStatus (s : State) : Bytes :=
  let r := s.radio
  let band (b : Nat) : Bytes :=
    let x := s.bandOf b
    leBytes 1 (guardState s b) ++ leBytes 1 x.lastCause ++ leBytes 2 (x.causes ||| wholeBits r) ++ leBytes 1 (recentRestarts s b) ++
      leBytes 1 x.margin ++ leBytes 2 ((x.backoff.map fun t => (t - s.up + 999999) / 1000000).getD 0) ++ leBytes 4 x.mutes ++ zeros 4
  let path (p : Nat) : Bytes :=
    let x := s.pathOf p
    leBytes 1 (b2n x.iso.isSome + 2 * b2n x.lower + 4 * x.stage) ++ leBytes 1 (if x.ceiling.isNone then 255 else pathCeiling s p) ++
      leBytes 1 x.applied ++ zeros 1 ++ leInt 2 (x.iso.getD 0) ++ leBytes 2 (min 65535 ((s.up - x.isoAt) / 1000)) ++ leInt 2 x.lOut ++
      leInt 2 x.pLeak
  leBytes 1 (b2n r.guardMute) ++ leBytes 1 (b2n r.killed + 2 * b2n r.mcMute + 4 * b2n r.thermMute + 8 * b2n r.modeMute) ++ zeros 6 ++
    (List.range 4).flatMap band ++ (List.range 8).flatMap path

/-- 0x0740 EAVE_GET_STATUS. -/
def cmdEaveGetStatus : Cmd :=
  { op := 0x0740, rights := radioReader, limited := always, run := fun s _ _ => .done St.ok (eaveStatus s) s }

/-- Ceilings follow a new margin: lower at once, higher under R742 (R765). -/
def remargin (b : Nat) (s : State) : State :=
  [2 * b, 2 * b + 1].foldl (fun s p =>
    match (s.pathOf p).iso, (s.pathOf p).ceiling with
    | some i, some c =>
      let c1 := match allowed s p i with
        | some a => some (min a c)
        | none => none
      if (s.bandOf b).state = .active then ladder p (s.updPath p fun x => { x with ceiling := c1 }) else s
    | _, _ => s) s

/-- 0x0741 EAVE_CONFIG (Table EAV.7, R765). -/
def cmdEaveConfig : Cmd :=
  { op := 0x0741, rights := radioOwner, len := exactly 20
    fields := fun _ _ p =>
      byteAt p 0 ≤ 3 && inRange 20 50 (byteAt p 1) && inRange 1 8 (byteAt p 2) && byteAt p 3 ≤ 3 && inRange 30 200 (rd p 4 2) &&
        inRange 1 60 (byteAt p 14) && byteAt p 15 ≤ 20 && byteAt p 18 ≤ 63 && byteAt p 19 == 0
    run := fun s _ p =>
      let b := byteAt p 0
      let s1 := s.updBand b fun x =>
        { x with margin := byteAt p 1, rise := byteAt p 2, gflags := byteAt p 3, oscExcess := rd p 4 2, outLimIn := rdS p 6 2
                 outLimOut := rdS p 8 2, noiseLimit := rdS p 10 2, traffic := rdS p 12 2, noisePersist := byteAt p 14
                 thermBackoff := byteAt p 15, oobLimit := rdS p 16 2, guardStart := byteAt p 18 }
      .done St.ok [] (eaveCrumb 0 0x07C7 2 b 0 0 0 (syncSteps (remargin b s1))) }

/-- Bands of a mask. -/
def maskBands (m : Nat) : List Nat := (List.range 4).filter (m.testBit ·)

/-- 0x0742 EAVE_SHUTDOWN (R746, R766). -/
def cmdEaveShutdown : Cmd :=
  { op := 0x0742, rights := fun s t p => if byteAt p 1 = 1 then t = 0 else radioOwner s t p, len := exactly 4
    fields := fun _ _ p => byteAt p 0 ≤ 15 && inRange 1 2 (byteAt p 1) && zeroAt p 2 2
    run := fun s _ p =>
      let cause := 4 + byteAt p 1
      .done St.ok [] ((maskBands (byteAt p 0)).foldl (fun s b =>
        if hasCause s b cause then s
        else
          let s1 := (setCause b cause true s).updBand b fun x =>
            { x with lastCause := cause, mutes := if x.causes = 2 ^ (cause - 1) then inc32 x.mutes else x.mutes }
          eaveCrumb 0 0x07C4 2 b cause 0 0 (syncBand b s1)) s) }

/-- The level of a detector of a role and target, as `f` reads it. -/
def detValue (s : State) (role target : Nat) (f : Detector → Int) : Option Int :=
  (s.radio.det.toList.find? fun d => d.role == role && d.target == target).map f

/-- The condition of a latching cause holds still, by the detectors' last samples and windows (R760, Table EAV.3). -/
def conditionHolds (s : State) (b cause : Nat) : Bool :=
  let x := s.bandOf b
  let osc (p : Nat) : Bool :=
    match detValue s 1 p (·.last) with
    | some o => decide (outLimit s p < o) || (detValue s 2 p (·.last)).any fun i =>
        decide ((x.oscExcess : Int) ≤ o - (i + appliedGain (s.pathOf p)))
    | none => false
  match cause with
  | 1 => osc (2 * b) || osc (2 * b + 1)
  | 2 => ((detValue s 1 (2 * b + 1) (·.mean)).any fun m => decide (x.noiseLimit < m)) &&
      (detValue s 2 (2 * b + 1) (·.max)).any fun m => decide (m < x.traffic)
  | 3 => (detValue s 3 b (·.mean)).any fun m => decide (x.oobLimit < m)
  | _ => false

/-- Clear what EAVE_CLEAR names of a band: latch, OPERATOR, REGULATORY (R758, R760, R772). -/
def clearBand (m b : Nat) (s : State) : State :=
  let lift (bit cause : Nat) (s : State) : State :=
    if m.testBit bit && hasCause s b cause then eaveCrumb 0 0x07C3 2 b cause 0 0 (liftCause b cause s) else s
  let s1 := lift 2 5 (lift 1 6 s)
  match (s1.bandOf b).latched with
  | some c => if m.testBit 0 then restartBand b false (eaveCrumb 0 0x07C3 2 b c 0 0 s1) else s1
  | none => s1

/-- 0x0743 EAVE_CLEAR (R760, R766, R772). -/
def cmdEaveClear : Cmd :=
  { op := 0x0743, rights := fun s t p => if (byteAt p 1).testBit 2 then t = 0 else radioOwner s t p, len := exactly 4
    fields := fun _ _ p => byteAt p 0 ≤ 15 && byteAt p 1 ≤ 7 && zeroAt p 2 2
    run := fun s _ p =>
      let l := maskBands (byteAt p 0)
      if (byteAt p 1).testBit 0 && l.any fun b => (s.bandOf b).latched.any fun c => conditionHolds s b c then .done St.busy [] s
      else .done St.ok [] (l.foldl (fun s b => clearBand (byteAt p 1) b s) s) }

/-- The meaning of EAVE_GET_STATUS. -/
def execEaveGetStatus (c : Call) (s : State) : Res := command cmdEaveGetStatus c s
/-- The meaning of EAVE_CONFIG. -/
def execEaveConfig (c : Call) (s : State) : Res := command cmdEaveConfig c s
/-- The meaning of EAVE_SHUTDOWN. -/
def execEaveShutdown (c : Call) (s : State) : Res := command cmdEaveShutdown c s
/-- The meaning of EAVE_CLEAR. -/
def execEaveClear (c : Call) (s : State) : Res := command cmdEaveClear c s

end Sys2Proof.Machine
end

