-- ==== Sys2Proof/Machine/Ptp.lean ====
section
/-!
DEFINITION. The PTP service: messages received, timeouts, negotiation, the follower servo and the PTP commands
(spec/09_time_service.md, R423 to R487).
-/
namespace Sys2Proof.Machine
open Sys2Proof

/-- A message's arrival timestamp. -/
def rxTime (m : PtpRx) : Time := { sec := m.sec % 2 ^ 48, ns := m.ns % 1000000000, frac := m.frac % 65536 }

/-- A correctionField of 2^-16 ns in ps, rounded down. -/
def corrPs (c : Int) : Int := c * 1000 / 65536

/-- A general message leaves Campel's queue of its port as it is handled (R439; log entry 28). -/
def takeGeneral (p : Nat) (s : State) : State := s.updInst p fun i => { i with generalQ := i.generalQ - 1 }

/-! ### Serving (R430, R433, R434, R438, R447) -/

/-- Count a Delay_Resp of this second: none when a limit of Table PTP.3 would be passed (R438). -/
def respTake (p : Nat) (s : State) : Option State :=
  let now := s.up / 1000000
  let n := if s.net.respSec = now then s.net else { s.net with respSec := now, respCount := 0, respPort := Vector.replicate 6 0 }
  let limit := if (s.port p).mode = 1 then 65536 else 16384
  if 131072 ≤ n.respCount ∨ limit ≤ vat n.respPort p then none
  else some { s with net := { n with respCount := n.respCount + 1, respPort := upd n.respPort p (· + 1) } }

/-- A Delay_Resp to a group with a logMessageInterval (R433, R434). -/
def delayResp (p group : Nat) (log : Int) (m : PtpRx) (s : State) : State :=
  match respTake p s with
  | none => ptpCount p 5 s
  | some s1 =>
    let t := ptpIngress (s1.inst p) (rxTime m)
    let (ok, s2) := ptpSend p 9 group 54 (leBytes 2 m.seq ++ fit 10 m.srcId ++ beBytes 6 t.sec ++ beBytes 4 t.ns ++
      beInt 8 (m.corr + t.frac) ++ leInt 1 log) s1
    if ok then ptpCount p 4 s2 else s2

/-- DELAY_REQ: a received Delay_Req (R430, R433, R434, R447, R461). -/
def execDelayReq (p : Fin 6) (m : PtpRx) (s : State) : Res :=
  s.running fun s =>
    if !(s.inst p.val).active || !portRuns s p.val then s
    else
      ptpTake p.val m (fun s =>
        let i := s.inst p.val
        if i.state ≠ .master ∨ !s.timebase.valid then s
        else if m.multicast then
          if i.multicast then delayResp p.val (0x1000 + p.val) i.logDelay m s else s
        else match s.net.followers.find? fun e => e.2.port == p.val && e.2.addr == fit 16 m.addr && e.2.delayResp.isSome with
          | some e => delayResp p.val e.1 ((e.2.delayResp.map (·.logPeriod)).getD 0) m s
          | none => ptpCount p.val 6 s) (ptpCount p.val 3 s)

/-! ### Unicast negotiation (R440 to R449, R480) -/

/-- A requested period lies in the profile's range for its type (Table PTP.1, R440). -/
def periodOk (i : PtpInst) (type : Nat) (log : Int) : Bool :=
  let within (lo hi : Int) : Bool := decide (lo ≤ log) && decide (log ≤ hi)
  if type = 0x0B then (if i.profile = 1 then within (-3) 1 else within 0 4)
  else if type = 0 then (if i.profile = 1 then within (-7) (-1) else within (-1) 1)
  else if type = 9 then (if i.profile = 1 then within i.logSync (i.logSync + 5) else within 0 5)
  else false

/-- A request is denied: durationField 0, counted (R442). -/
def denyRequest (p group count type : Nat) (log : Int) (s : State) : State := ptpCount p count (ptpSignal p group 5 type log 0 s)

/-- PTP_TABLE_FULL, at most once per 60 s (R446). -/
def tableFull (p : Nat) (s : State) : State :=
  if s.net.tableFullAt.any fun x => decide (s.up < x + 60000000) then s
  else crumb 0x06A1 2 0 (anyPayload 0x06A1 [p]) (s.updNet fun n => { n with tableFullAt := some s.up })

/-- The duration granted (R443). -/
def grantTime (s : State) (d : Nat) : Nat := min s.net.grantMax (max 10 d)

/-- PHASE_NS of a new Sync grant: Campel's choice within the interval, free (R437; log entry 32). -/
def choosePhase (log : Int) (s : State) : Nat := s.draw 3 % max 1 (if log ≤ 0 then 1000000000 / 2 ^ (-log).toNat else 2000000000)

/-- Grant a request to follower `i`; `old` is the entry before. -/
def grantRequest (p i type : Nat) (log : Int) (d : Nat) (m : PtpRx) (old : Follower) (s : State) : State :=
  let t := grantTime s d
  let g : Grant := { logPeriod := log, duration := t, expiry := s.up + t * 1000000 }
  let fresh : Bool := type == 0 && (old.grant 0).isNone
  let f := { old with port := p, portId := fit 10 m.srcId, mac := fit 6 m.mac, addr := fit 16 m.addr, ipv6 := (s.inst p).ipv6
                      auth := m.auth.isSome, phaseNs := if fresh then choosePhase log s else old.phaseNs }
  let s1 := (if fresh then s.drawn else s).updNet fun n => { n with followers := mset n.followers i (f.setGrant type (some g)) }
  ptpCount p 7 (ptpSignal p i 5 type log t s1)

/-- SIGNALING_REQUEST: a REQUEST_UNICAST_TRANSMISSION for a message type, period and duration (R440 to R446, R480 to R482). -/
def execSignalingRequest (p : Fin 6) (m : PtpRx) (type : Fin 16) (log : Int) (duration : Nat) (s : State) : Res :=
  s.running fun s =>
    let q := p.val
    ptpTake q m (fun s =>
      let i := s.inst q
      let found := findFollower s q m
      let slot := (found.map (·.1)).getD ((freeFollower s.net.followers 4097 0).getD 4096)
      let old := (found.map (·.2)).getD {}
      let renewal : Bool := (old.grant type.val).any fun g => decide (s.up ≤ g.expiry)
      let add := rate32 log - (if renewal then grantRate old type.val else 0)
      if !i.unicast || i.state != .master || !s.timebase.valid then denyRequest q slot 11 type.val log s
      else if !periodOk i type.val log then denyRequest q slot 10 type.val log s
      else if slot = 4096 then tableFull q (denyRequest q slot 8 type.val log s)
      else if !rateFits s q type.val add then denyRequest q slot 9 type.val log s
      else grantRequest q slot type.val log duration m old s) (takeGeneral q s)

/-- CANCEL_UNICAST_TRANSMISSION for a message type: a follower's grant ends, or one of this instance's own; the cancel is
acknowledged (R440, R445). -/
def execCancelUnicastTransmission (p : Fin 6) (m : PtpRx) (type : Fin 16) (s : State) : Res :=
  s.running fun s =>
    ptpTake p.val m (fun s =>
      let s1 := s.updInst p.val fun i =>
        { i with masters := i.masters.map fun x => if x.addr = fit 16 m.addr then { x with grants := mdel x.grants type.val } else x }
      match findFollower s p.val m with
      | some e => updFollower e.1 (fun f => f.setGrant type.val none) (ptpSignal p.val e.1 7 type.val 0 0 s1)
      | none => ptpSignal p.val 0x1000 7 type.val 0 0 s1) (takeGeneral p.val s)

/-- GRANT_EXPIRY: `heldS` seconds have passed since a follower's grant of a type was made (R445). -/
def execGrantExpiry (i : Fin 4096) (type : Fin 16) (heldS : Nat) (s : State) : Res :=
  s.running fun s =>
    match mget s.net.followers i.val with
    | some f =>
      if (f.grant type.val).any fun g => decide (g.duration ≤ heldS) then updFollower i.val (fun f => f.setGrant type.val none) s
      else s
    | none => s

/-- The interval an instance requests for a message type (R449). -/
def wantedLog (i : PtpInst) (type : Nat) : Int := if type = 0x0B then i.logAnnounce else if type = 0 then i.logSync else i.logDelay

/-- GRANT_RENEWAL: unicast master `k` is asked for a type not granted, or half of whose duration has passed (R449). -/
def execGrantRenewal (p : Fin 6) (k : Fin 4) (type : Fin 16) (heldS : Nat) (s : State) : Res :=
  s.running fun s =>
    let i := s.inst p.val
    match i.masters[k.val]? with
    | none => s
    | some x =>
      let due := match mget x.grants type.val with
        | some d => decide (d ≤ 2 * heldS)
        | none => true
      if i.role = 1 ∨ (type.val ≠ 0x0B ∧ type.val ≠ 0 ∧ type.val ≠ 9) ∨ !due then s
      else ptpSignal p.val (0x2000 + k.val) 4 type.val (wantedLog i type.val) s.net.grantMax s

/-- GRANT_RECEIVED: a unicast master's GRANT; a duration of 0 is a denial (R449). -/
def execGrantReceived (p : Fin 6) (m : PtpRx) (type : Fin 16) (duration : Nat) (s : State) : Res :=
  s.running fun s =>
    ptpTake p.val m (fun s =>
      s.updInst p.val fun i =>
        { i with masters := i.masters.map fun x =>
            if x.addr = fit 16 m.addr then
              { x with grants := if duration = 0 then mdel x.grants type.val else mset x.grants type.val duration } else x })
      (takeGeneral p.val s)

/-! ### Best master (R450, R453, R454, R457; IEEE 1588-2019 clause 9.3, log entry 33) -/

/-- The best qualified foreign master: one that two Announce messages came from. -/
def bestForeign (i : PtpInst) : Option Parent :=
  i.foreign.foldl (fun b x => if 2 ≤ x.2 ∧ b.all (fun y => betterDs x.1 y) then some x.1 else b) none

/-- Follow a foreign master: its data become the parent's; a new parent starts UNCALIBRATED, and a new grandmaster
disqualifies the reference (R454, R456). -/
def follow (p : Nat) (d : Parent) (s : State) : State :=
  let i := s.inst p
  let same : Bool := (i.state == .slave || i.state == .uncalibrated) && i.parent.portId == d.portId
  if same then
    let s1 := s.updInst p fun i => { i with parent := d }
    if i.parent.gmId ≠ d.gmId ∧ s.net.refPort = some p then setPtpRef (disqualify 2 8 s1) else setPtpRef s1
  else
    let s1 := if i.state = .slave then ptpTo p .uncalibrated s else s
    ptpTo p .uncalibrated (s1.updInst p fun i =>
      { i with parent := d, exchanges := 0, delays := [], syncDiff := none, awaiting := none, sm := none })

/-- The state decision of an instance. -/
def decide1588 (p : Nat) (s : State) : State :=
  let i := s.inst p
  let own := ownData s p
  match (if i.role = 1 then none else bestForeign i) with
  | none => s
  | some b =>
    if i.role = 0 ∧ betterDs own b then ptpTo p .master s
    else if i.role = 0 ∧ own.gmClass < 128 then ptpTo p .passive s
    else follow p b s

/-- UTC midnight after the current second, as the TAI second at which an offset takes force (R77). -/
def nextMidnight (s : State) (newOffset : Int) : Nat :=
  let utc := (s.timebase.now.sec : Int) - s.timebase.utcOffset
  ((utc / 86400 + 1) * 86400 + newOffset).toNat

/-- The offsets of an Announce are adopted while PTP is selected and this instance supplies it (R457). -/
def adoptAnnounce (p : Nat) (a : PtpAnn) (s : State) : State :=
  let b := s.timebase
  if b.selected ≠ 2 ∨ s.net.refPort ≠ some p ∨ !b.fromUpstream then s
  else
    let utc := if a.utcValid then a.utcOffset else b.utcOffset
    let at_ (d : Int) : Option Sched := some { instant := nextMidnight s (utc + d), value := utc + d }
    let leap := if a.leap61 then at_ 1 else if a.leap59 then at_ (-1) else none
    if utc = b.utcOffset ∧ (leap.map (·.value)) = (b.leap.map (·.value)) ∧ leap.isSome = b.leap.isSome then s
    else adoptOffsets utc b.localOffset leap b.localSched s

/-- The dataset of an Announce. -/
def annParent (a : PtpAnn) (m : PtpRx) : Parent :=
  { portId := fit 10 m.srcId, gmId := fit 8 a.gmId, gmClass := a.gmClass % 256, gmAccuracy := a.gmAccuracy % 256
    gmVariance := a.gmVariance % 65536, gmPriority1 := a.gmPriority1 % 256, gmPriority2 := a.gmPriority2 % 256
    steps := a.steps % 65536, ptpTimescale := a.ptpTimescale, utcValid := a.utcValid, utcOffset := a.utcOffset }

/-- Note an Announce of a foreign master. -/
def noteForeign (d : Parent) (l : List (Parent × Nat)) : List (Parent × Nat) :=
  if l.any fun x => x.1.portId == d.portId then l.map fun x => if x.1.portId = d.portId then (d, x.2 + 1) else x
  else l ++ [(d, 1)]

/-- ANNOUNCE_RECEIVED (R450, R454, R457, R461). -/
def execAnnounceReceived (p : Fin 6) (m : PtpRx) (a : PtpAnn) (s : State) : Res :=
  s.running fun s =>
    ptpTake p.val m (fun s =>
      if a.steps ≥ 255 ∨ fit 10 m.srcId = (ownData s p.val).portId then s
      else
        let s1 := s.updInst p.val fun i => { i with foreign := noteForeign (annParent a m) i.foreign }
        let s2 := decide1588 p.val s1
        ptpCheck (if s2.net.refPort = some p.val then adoptAnnounce p.val a s2 else s2)) (takeGeneral p.val s)

/-- ANNOUNCE_RECEIPT_TIMEOUT: announceReceiptTimeout intervals without an Announce of the parent (R450, R454). -/
def execAnnounceReceiptTimeout (p : Fin 6) (intervals : Nat) (s : State) : Res :=
  s.running fun s =>
    let i := s.inst p.val
    if !i.active || decide (intervals < i.receiptTimeout) || i.state == .master then s
    else
      let s1 := s.updInst p.val fun i => { i with foreign := i.foreign.filter fun x => x.1.portId ≠ i.parent.portId ∧ i.state ≠ .listening }
      if i.role = 2 then ptpTo p.val .listening s1 else ptpTo p.val .master s1

/-! ### The follower servo (R454, R456, R463, R466) -/

/-- A message of the parent, of an instance that follows. -/
def fromParent (s : State) (p : Nat) (m : PtpRx) : Bool :=
  let i := s.inst p
  (i.state == .slave || i.state == .uncalibrated) && i.parent.portId == fit 10 m.srcId

/-- SYNC_RECEIVED: a Sync with its origin timestamp; two-step ones wait for their Follow_Up (R456). -/
def execSyncReceived (p : Fin 6) (m : PtpRx) (twoStep : Bool) (sec ns : Nat) (s : State) : Res :=
  s.running fun s =>
    ptpTake p.val m (fun s =>
      if !fromParent s p.val m then s
      else
        let t2 := ((rxTime m).addPs (-(s.inst p.val).rxExt)).ps - corrPs m.corr
        s.updInst p.val fun i =>
          if twoStep then { i with awaiting := some (m.seq, t2) }
          else { i with syncDiff := some (t2 - Time.ps { sec, ns }), awaiting := none }) s

/-- FOLLOW_UP_RECEIVED: the precise origin time of the Sync that waits (R456). -/
def execFollowUpReceived (p : Fin 6) (m : PtpRx) (sec ns : Nat) (s : State) : Res :=
  s.running fun s =>
    ptpTake p.val m (fun s =>
      match (s.inst p.val).awaiting with
      | some (n, t2) =>
        if fromParent s p.val m ∧ n = m.seq then
          s.updInst p.val fun i => { i with syncDiff := some (t2 - corrPs m.corr - Time.ps { sec, ns }), awaiting := none }
        else s
      | none => s) (takeGeneral p.val s)

/-- The least of a list, or a default. -/
def leastOf (l : List Int) (d : Int) : Int := l.foldl min d

/-- An exchange is complete (R456): path delay and offset, filtered to the DPLL; 16 of them make a SLAVE. -/
def exchange (p : Nat) (ms sm : Int) (s : State) : State :=
  let i := s.inst p
  let path := (ms + sm) / 2
  let off := (ms - sm) / 2 - i.asym
  let delays := (path :: i.delays).take 64
  let used : Bool := s.net.delayFilter = 0 || decide (path ≤ leastOf delays path + s.net.delayFilter * 1000)
  let s1 := s.updInst p fun i =>
    { i with lastOffset := off, pathDelay := path, delays := delays, exchanges := if used then inc32 i.exchanges else i.exchanges }
  let s2 := if used ∧ s.net.refPort = some p then
      let s3 := s1.updRef 2 fun r => { r with phaseErr := sat32 off, active := true }
      if s3.timebase.selected = 2 then s3.updTb fun b => { b with phaseErr := sat32 off } else s3
    else s1
  if (s2.inst p).state = .uncalibrated ∧ 16 ≤ (s2.inst p).exchanges then ptpTo p .slave s2 else s2

/-- DELAY_RESP_RECEIVED: the master's receive timestamp, and the departure of this instance's Delay_Req at the balls
(R456, R463). -/
def execDelayRespReceived (p : Fin 6) (m : PtpRx) (sec ns : Nat) (t3sec t3ns t3frac : Nat) (s : State) : Res :=
  s.running fun s =>
    ptpTake p.val m (fun s =>
      match (s.inst p.val).syncDiff with
      | some ms =>
        if fromParent s p.val m then
          let t3 : Time := { sec := t3sec, ns := t3ns, frac := t3frac }
          exchange p.val ms (Time.ps { sec, ns } - corrPs m.corr - (t3.addPs (s.inst p.val).txExt).ps) s
        else s
      | none => s) (takeGeneral p.val s)

/-- SYNC_TIMEOUT: 3 Sync intervals without a Sync (R454). -/
def execSyncTimeout (p : Fin 6) (intervals : Nat) (s : State) : Res :=
  s.running fun s => if s.net.refPort = some p.val ∧ 3 ≤ intervals then disqualify 2 8 s else s

/-- AUTH_TIMEOUT: with REQUIRE set, 3 s without a verified message (R454). -/
def execAuthTimeout (p : Fin 6) (forS : Nat) (s : State) : Res :=
  s.running fun s =>
    if s.net.refPort = some p.val ∧ (s.inst p.val).authFlags.testBit 1 ∧ 3 ≤ forS then disqualify 2 8 s else s

/-! ### Synchronization metadata and the rest (R426, R432, R457 to R459) -/

/-- The local offset and jump that an SM TLV gives (R457; ST 2059-2 order of Table PTP.6's fields, log entry 34). -/
def adoptSm (p : Nat) (tlv : Bytes) (s : State) : State :=
  let b := s.timebase
  if b.selected ≠ 2 ∨ s.net.refPort ≠ some p ∨ !b.fromUpstream then s
  else
    let loc := rdBeS tlv 16 4
    let jump := rdBeS tlv 20 4
    let when_ := rdBe tlv 24 6
    adoptOffsets b.utcOffset loc b.leap (if jump = 0 then none else some { instant := when_, value := loc + jump }) s

/-- MANAGEMENT_RECEIVED: an SM TLV of 48 bytes (R457, R459). -/
def execManagementReceived (p : Fin 6) (m : PtpRx) (tlv : List (BitVec 8)) (s : State) : Res :=
  s.running fun s =>
    ptpTake p.val m (fun s =>
      if fromParent s p.val m then
        adoptSm p.val (fit 48 tlv) (s.updInst p.val fun i => { i with sm := some (fit 48 tlv, s.up) })
      else s) (takeGeneral p.val s)

/-- PDELAY_RECEIVED (R426). -/
def execPdelayReceived (p : Fin 6) (s : State) : Res :=
  s.running fun s => if (s.inst p.val).active && portRuns s p.val then ptpCount p.val 14 s else s

/-- FOLLOW_UP: the oldest two-step Sync's Follow_Up leaves (R432). -/
def execFollowUp (p : Fin 6) (s : State) : Res := s.running (sendFollowUp p.val)

/-- masterLockingStatus of Table PTP.6. -/
def lockingStatus (b : Timebase) : Nat :=
  match b.dpll with
  | .locked => 4
  | .acquire => if b.dpllFrom = .holdover then 3 else 2
  | _ => 1

/-- The SM TLV this module sends (Table PTP.6). -/
def smTlv (s : State) : Bytes :=
  let b := s.timebase
  let r := rateOf s.net.frameRate
  let jump : Int := (b.localSched.map fun x => x.value - b.localOffset).getD 0
  let when_ := (b.localSched.map (·.instant)).getD 0
  let dayNext := b.localSched.any fun x => x.flags.testBit 0
  [0x68, 0x97, 0xE8, 0, 0, 1] ++ beBytes 4 r.1 ++ beBytes 4 r.2 ++ leBytes 1 (lockingStatus b) ++
    leBytes 1 (s.net.smFlags / 2 % 4) ++ beInt 4 b.localOffset ++ beInt 4 jump ++ beBytes 6 when_ ++ zeros 6 ++ zeros 6 ++ zeros 4 ++
    leBytes 1 (b2n b.daylight + 2 * b2n dayNext) ++
    leBytes 1 (b2n (b.leap.any fun x => b.localSched.any fun y => x.instant == y.instant))

/-- SM_TLV_SEND: once per second a MASTER instance sends it (R458). -/
def execSmTlvSend (p : Fin 6) (s : State) : Res :=
  s.running fun s =>
    let i := s.inst p.val
    if i.state ≠ .master ∨ !s.net.smFlags.testBit 0 ∨ s.net.frameRate = 0 then s
    else
      let send (g : Nat) (s : State) : State := (ptpSend p.val 0x0D g 100 (smTlv s) s).2
      let s1 := if i.multicast then send (0x1000 + p.val) s else s
      (s.net.followers.filter fun e => e.2.port == p.val && e.2.announce.isSome).foldl (fun s e => send e.1 s) s1

/-! ### Commands (Table PTP.9) -/

/-- 0x0640 PTP_GET_STATUS. -/
def cmdPtpGetStatus : Cmd :=
  { op := 0x0640, rights := timeReader, limited := always
    run := fun s _ _ =>
      let rate (t : Nat) : Bytes := leBytes 4 (grantedRate s t (fun _ => true) / 32)
      .done St.ok (((List.range 6).map fun p => BitVec.ofNat 8 (ptpStateCode (s.inst p).state)) ++
        leBytes 1 (s.net.refPort.getD 255) ++ zeros 1 ++ leBytes 2 s.net.followers.length ++ zeros 2 ++ rate 0 ++ rate 0x0B ++ rate 9) s }

/-- Parameters of Table PTP.1 are in range. -/
def ptpParams (p : Bytes) : Bool :=
  let within (x lo hi : Int) : Bool := decide (lo ≤ x) && decide (x ≤ hi)
  let a := rdS p 4 1
  let y := rdS p 5 1
  let d := rdS p 6 1
  inRange 2 10 (byteAt p 7) && byteAt p 2 ≤ 127 &&
    (if byteAt p 1 % 4 = 1 then within a (-3) 1 && within y (-7) (-1) && within d y (y + 5)
     else within a 0 4 && within y (-1) 1 && within d 0 5)

/-- Fields of Table PTP.10 (R425): with PROFILE 0 the parameters are not judged. -/
def ptpConfigOk (p : Bytes) : Bool :=
  byteAt p 0 ≤ 5 && decide (byteAt p 1 < 128) && byteAt p 1 % 4 ≤ 2 && byteAt p 1 / 4 % 4 ≤ 2 && byteAt p 3 ≤ 1 &&
    rd p 8 2 / 4096 % 8 == 0 && decide (byteAt p 32 < 64) && zeroAt p 33 3 && (byteAt p 1 % 4 == 0 || ptpParams p)

/-- The flow entry an instance installs for a UDP port (R427): VID matched when TAGGED, UDP, the destination port. -/
def ptpFlow (p : Nat) (vid prio dport : Nat) : Flow :=
  { match_ := 1 + 32 + 512 + (if vid.testBit 15 then 2 else 0), ports := 2 ^ p, action := 3, priority := prio
    vid := if vid.testBit 15 then vid % 4096 else 0, proto := 17, dport := dport, dmac := zeros 6, sip := zeros 16, dip := zeros 16 }

/-- The highest free flow entries below `n`, at most `k`. -/
def topFree (l : AMap Flow) : Nat → Nat → List Nat
  | 0, _ => []
  | n + 1, k => if k = 0 then [] else if (mget l n).isNone then n :: topFree l n (k - 1) else topFree l n k

/-- Free the flow entries of an instance (R427). -/
def freePtpFlows (p : Nat) (s : State) : State :=
  ((s.inst p).flows.foldl (fun s i => freeFlow i s) s).updInst p fun i => { i with flows := [] }

/-- Write the two entries of an instance, where they differ from what stands there (R427). -/
def putPtpFlows (p vid prio : Nat) (l : List Nat) (s : State) : State :=
  let put (i dport : Nat) (s : State) : State :=
    let f := { ptpFlow p vid prio dport with service := 0 }
    if flowAt s i = f then s else setFlow i 0 f s
  (put (l.getD 1 0) 320 (put (l.getD 0 0) 319 s)).updInst p fun i => { i with flows := l }

/-- The settings of an instance from Table PTP.10. -/
def ptpSettings (p : Bytes) (i : PtpInst) : PtpInst :=
  { i with mode := byteAt p 1, domain := byteAt p 2, ipv6 := byteAt p 3 == 1, logAnnounce := rdS p 4 1, logSync := rdS p 5 1
           logDelay := rdS p 6 1, receiptTimeout := byteAt p 7, vid := rd p 8 2, flowPriority := rd p 10 2, ip4 := slice p 12 4
           ip6 := slice p 16 16, dscp := byteAt p 32 }

/-- A request changes what reinitialises the instance (R474). -/
def ptpReinit (i : PtpInst) (p : Bytes) : Bool :=
  i.profile != byteAt p 1 % 4 || i.domain != byteAt p 2 || i.ipv6 != (byteAt p 3 == 1) || i.vid != rd p 8 2 ||
    i.ip4 != slice p 12 4 || i.ip6 != slice p 16 16

/-- 0x0641 PTP_INSTANCE_CONFIG (R425, R427, R474). -/
def cmdPtpInstanceConfig : Cmd :=
  { op := 0x0641, rights := timeOwner, len := exactly 36, fields := fun _ _ p => ptpConfigOk p
    run := fun s _ p =>
      let n := byteAt p 0
      let i := s.inst n
      let on : Bool := byteAt p 1 % 4 != 0
      let l := if i.flows.length = 2 then i.flows else topFree s.net.flows 4096 2
      if on ∧ l.length < 2 then .done St.busy [] s
      else
        let s1 := if ptpReinit i p then
            ((ptpTo n .initializing (dropFollowers n s)).updInst n fun x =>
              { x with foreign := [], parent := {}, verified := false, lastOffset := 0, pathDelay := 0, exchanges := 0, delays := []
                       syncDiff := none, awaiting := none, sm := none, followUps := [] })
          else s
        let s2 := s1.updInst n (ptpSettings p)
        if !on then .done St.ok [] (freePtpFlows n (ptpTo n .off s2))
        else
          let s3 := putPtpFlows n (rd p 8 2) (rd p 10 2) l s2
          .done St.ok [] (if ptpReinit i p then ptpTo n (if (s3.port n).link then .listening else .faulty) s3 else s3) }

/-- Table PTP.13 (R475). -/
def ptpStatus (s : State) (p : Nat) : Bytes :=
  let i := s.inst p
  let d := if i.state = .master then ownData s p else i.parent
  let sm := (i.sm.map (·.1)).getD (zeros 48)
  let age := (i.sm.map fun x => min 0xFFFFFFFF ((s.up - x.2) / 1000000)).getD 0
  if i.profile = 0 then zeros 104
  else
    leBytes 1 (ptpStateCode i.state) ++ leBytes 1 (b2n (s.net.refPort == some p) + 2 * b2n i.verified + 4 * b2n i.sm.isSome) ++ zeros 2 ++
      fit 10 d.portId ++ fit 8 d.gmId ++ leBytes 1 d.gmClass ++ leBytes 1 d.gmAccuracy ++ leBytes 2 d.gmVariance ++
      leBytes 1 d.gmPriority1 ++ leBytes 1 d.gmPriority2 ++ leBytes 2 d.steps ++ zeros 2 ++ leInt 8 i.lastOffset ++ leInt 8 i.pathDelay ++
      leBytes 4 i.exchanges ++ leBytes 4 age ++ fit 48 sm

/-- 0x0642 PTP_INSTANCE_STATUS. -/
def cmdPtpInstanceStatus : Cmd :=
  { op := 0x0642, rights := timeReader, limited := always, len := exactly 4, fields := portArg
    run := fun s _ p => .done St.ok (ptpStatus s (byteAt p 0)) s }

/-- Seconds until the last grant of a follower expires. -/
def expiryS (s : State) (f : Follower) : Nat :=
  ([f.announce, f.sync, f.delayResp].filterMap id).foldl (fun a g => max a ((g.expiry - s.up) / 1000000)) 0

/-- Table PTP.5. -/
def followerBytes (s : State) (i : Nat) (f : Follower) : Bytes :=
  let log (g : Option Grant) : Bytes := leInt 1 ((g.map (·.logPeriod)).getD 0)
  leBytes 2 i ++ leBytes 1 f.port ++
    leBytes 1 (b2n f.announce.isSome + 2 * b2n f.sync.isSome + 4 * b2n f.delayResp.isSome + 8 * b2n f.ipv6 + 16 * b2n f.auth) ++
    fit 10 f.portId ++ fit 6 f.mac ++ fit 16 f.addr ++ log f.announce ++ log f.sync ++ log f.delayResp ++ zeros 1 ++
    leBytes 4 (expiryS s f) ++ leBytes 4 f.phaseNs

/-- 0x0643 PTP_FOLLOWERS_GET. -/
def cmdPtpFollowersGet : Cmd :=
  { op := 0x0643, rights := timeReader, limited := always, len := exactly 4
    fields := fun _ _ p => decide (rd p 0 2 < 4096) && inRange 1 4 (byteAt p 2) && byteAt p 3 == 0
    run := fun s _ p =>
      let l := (s.net.followers.filter fun e => rd p 0 2 ≤ e.1).take (byteAt p 2)
      .done St.ok (leBytes 2 s.net.followers.length ++ zeros 2 ++ l.flatMap fun e => followerBytes s e.1 e.2) s }

/-- 0x0644 PTP_UNICAST_MASTERS_SET (R449). -/
def cmdPtpUnicastMastersSet : Cmd :=
  { op := 0x0644, rights := timeOwner, len := fun p => decide (4 ≤ p.length) && p.length == 4 + 24 * byteAt p 1
    fields := fun _ _ p =>
      byteAt p 0 ≤ 5 && byteAt p 1 ≤ 4 && zeroAt p 2 2 && (List.range (byteAt p 1)).all fun k => zeroAt p (26 + 24 * k) 2
    run := fun s _ p =>
      let old := (s.inst (byteAt p 0)).masters
      let one (k : Nat) : UniMaster :=
        let a := slice p (4 + 24 * k) 16
        { addr := a, mac := slice p (20 + 24 * k) 6, grants := ((old.find? fun x => x.addr == a).map (·.grants)).getD [] }
      .done St.ok [] (s.updInst (byteAt p 0) fun i => { i with masters := (List.range (byteAt p 1)).map one }) }

/-- 0x0645 PTP_CLOCK_CONFIG (Table PTP.11). -/
def cmdPtpClockConfig : Cmd :=
  { op := 0x0645, rights := timeOwner, len := exactly 20
    fields := fun _ _ p =>
      (byteAt p 2 == 52 || byteAt p 2 == 187 || byteAt p 2 == 248) && decide (6 ≤ byteAt p 3) && inRange 60 3600 (rd p 4 2) &&
        rd p 6 2 ≤ 10000 && byteAt p 8 ≤ 13 && decide (byteAt p 9 < 8) && zeroAt p 10 2
    run := fun s _ p =>
      .done St.ok [] (ptpCheck (s.updNet fun n =>
        { n with priority1 := byteAt p 0, priority2 := byteAt p 1, classFollowing := byteAt p 2, acceptClass := byteAt p 3
                 grantMax := rd p 4 2, delayFilter := rd p 6 2, frameRate := byteAt p 8, smFlags := byteAt p 9
                 clockId := slice p 12 8 })) }

/-- 0x0646 PTP_ASYM_SET (R463 to R466). -/
def cmdPtpAsymSet : Cmd :=
  { op := 0x0646, rights := timeOwner, len := exactly 16, fields := portArg
    run := fun s _ p =>
      .done St.ok [] (s.updInst (byteAt p 0) fun i => { i with txExt := rdS p 4 4, rxExt := rdS p 8 4, asym := rdS p 12 4 }) }

/-- 0x0647 PTP_CAL_RUN (R467, R487). -/
def cmdPtpCalRun : Cmd :=
  { op := 0x0647, rights := timeOwner, len := exactly 12
    fields := fun _ _ p =>
      byteAt p 0 ≤ 5 && byteAt p 1 ≤ 3 && byteAt p 2 ≤ 1 && byteAt p 3 == 0 && inRange 16 3600 (rd p 4 2) && zeroAt p 6 2
    run := fun s _ p =>
      if timInTaken s (byteAt p 1) || s.net.cal.isSome then .done St.busy [] s
      else .accept { waits := true } (armTimIn (byteAt p 1) 2 (s.updNet fun n =>
        { n with cal := some { port := byteAt p 0, input := byteAt p 1, role := byteAt p 2, samples := rd p 4 2, refDelay := rdS p 8 4 } })) }

/-- PTP_CAL_RUN_END: SAMPLES seconds have passed; PHASE_ERR of each edge expected, none for one missing or with PHASE_VALID
clear (R467, R468). -/
def execPtpCalRunEnd (errs : List (Option Int)) (s : State) : Res :=
  s.running fun s =>
    match s.net.cal, findJob s 0x0647 0 with
    | some c, some j =>
      if errs.length ≠ c.samples then s
      else
        let es := (errs.filterMap id).map fun e => e - c.refDelay
        let s1 := armTimIn c.input 0 (s.updNet fun x => { x with cal := none })
        let asym := (s.inst c.port).asym
        if c.samples < 2 * (c.samples - es.length) then completeJob j St.notReady [] s1
        else completeResult j (calResult es c.samples (if c.role = 0 then asym + meanOf es else asym - meanOf es)) s1
    | _, _ => s

/-- 0x0648 PTP_AUTH_CONFIG (R460, R461, R477, R778): with no flag set no slot is used (log entry 35). -/
def cmdPtpAuthConfig : Cmd :=
  { op := 0x0648, rights := timeOwner, len := exactly 16
    fields := fun s _ p =>
      byteAt p 0 ≤ 5 && byteAt p 2 ≤ 3 && byteAt p 3 ≤ 15 && byteAt p 8 ≤ 15 && zeroAt p 9 3 &&
        (byteAt p 2 == 0 || ((s.key (byteAt p 3)).kind == 4 && (s.key (byteAt p 8)).kind == 4))
    run := fun s t p =>
      if byteAt p 2 ≠ 0 ∧ (!keyNamed s t (byteAt p 3) ∨ !keyNamed s t (byteAt p 8)) then .done St.keyAbsent [] s
      else .done St.ok [] (s.updInst (byteAt p 0) fun i =>
        { i with spp := byteAt p 1, authFlags := byteAt p 2, slotCur := byteAt p 3, keyCur := rd p 4 4, slotNext := byteAt p 8
                 keyNext := rd p 12 4 }) }

/-- 0x0649 PTP_FOLLOWER_DROP (R476). -/
def cmdPtpFollowerDrop : Cmd :=
  { op := 0x0649, rights := timeOwner, len := exactly 4
    fields := fun s _ p => zeroAt p 2 2 && (mget s.net.followers (rd p 0 2)).isSome
    run := fun s _ p =>
      match mget s.net.followers (rd p 0 2) with
      | some f => .done St.ok [] (dropFollower (rd p 0 2) f s)
      | none => .done St.badField [] s }

/-- 0x064A PTP_COUNTERS (Table PTP.12). -/
def cmdPtpCounters : Cmd :=
  { op := 0x064A, rights := timeReader, limited := always, len := exactly 4, fields := portArg
    run := fun s _ p => .done St.ok ((s.inst (byteAt p 0)).counters.toList.flatMap (leBytes 8)) s }

/-- The meaning of PTP_GET_STATUS. -/
def execPtpGetStatus (c : Call) (s : State) : Res := command cmdPtpGetStatus c s
/-- The meaning of PTP_INSTANCE_CONFIG. -/
def execPtpInstanceConfig (c : Call) (s : State) : Res := command cmdPtpInstanceConfig c s
/-- The meaning of PTP_INSTANCE_STATUS. -/
def execPtpInstanceStatus (c : Call) (s : State) : Res := command cmdPtpInstanceStatus c s
/-- The meaning of PTP_FOLLOWERS_GET. -/
def execPtpFollowersGet (c : Call) (s : State) : Res := command cmdPtpFollowersGet c s
/-- The meaning of PTP_UNICAST_MASTERS_SET. -/
def execPtpUnicastMastersSet (c : Call) (s : State) : Res := command cmdPtpUnicastMastersSet c s
/-- The meaning of PTP_CLOCK_CONFIG. -/
def execPtpClockConfig (c : Call) (s : State) : Res := command cmdPtpClockConfig c s
/-- The meaning of PTP_ASYM_SET. -/
def execPtpAsymSet (c : Call) (s : State) : Res := command cmdPtpAsymSet c s
/-- The meaning of PTP_CAL_RUN. -/
def execPtpCalRun (c : Call) (s : State) : Res := command cmdPtpCalRun c s
/-- The meaning of PTP_AUTH_CONFIG. -/
def execPtpAuthConfig (c : Call) (s : State) : Res := command cmdPtpAuthConfig c s
/-- The meaning of PTP_FOLLOWER_DROP. -/
def execPtpFollowerDrop (c : Call) (s : State) : Res := command cmdPtpFollowerDrop c s
/-- The meaning of PTP_COUNTERS. -/
def execPtpCounters (c : Call) (s : State) : Res := command cmdPtpCounters c s

end Sys2Proof.Machine
end

