-- ==== Sys2Proof/Machine/SparMicro.lean ====
section
/-!
DEFINITION. The microcode of the Spar sequencers: the effect of each microword, the run of a routine, what happens at its
end, and how an instruction is dispatched (spec/07_spar_sequencers.md, R313 to R329; the island ports of Tables CHN.6 and
RAD.10).
-/
namespace Sys2Proof.Machine
open Sys2Proof

/-- TICK (R315); every island's counter follows internal TAI here (log entry 64). -/
def State.tickNow (s : State) : Nat := s.timebase.now.tick

/-- TICK `a` less TICK `b`, taken as signed (Table SPR.3). -/
def tickDiff (a b : Nat) : Int := (BitVec.ofNat 32 a - BitVec.ofNat 32 b).toInt

/-! ### Timed actions (R320 to R322) -/

/-- Arm an action of a unit: at a TICK and fraction, with an argument. Action 0 cancels the unit's armed actions; an instant
already past arms nothing and counts LATE; a full queue arms nothing. -/
def sched (i unit act tk frac arg : Nat) (s : State) : State :=
  let x := s.spar i
  let late : Bool := tickDiff tk s.tickNow * 65536 + frac < s.timebase.now.frac
  if act = 0 then s.updSpar i fun x => { x with actions := x.actions.filter (·.unit ≠ unit) }
  else if late then s.updSpar i fun x => { x with n := true, late := inc32 x.late }
  else if 16 ≤ x.actions.length then s.updSpar i fun x => { x with n := false, c := true }
  else s.updSpar i fun x => { x with n := false, c := false, actions := x.actions ++ [{ unit, action := act, tick := tk % 2 ^ 32, frac, arg }] }

/-- A unit belongs to a Spar's island (Table SPR.4). -/
def unitOk (i unit : Nat) : Bool :=
  match i with
  | 0 => 1 ≤ unit && unit ≤ 4
  | 1 => (0x08 ≤ unit && unit ≤ 0x0F) || (0x10 ≤ unit && unit ≤ 0x15)
  | _ => 0x20 ≤ unit && unit ≤ 0x29

/-! ### Island ports (Tables CHN.6, RAD.10) -/

/-- BAND_DIR of the four bands, 2 bits each. -/
def bandDirs (s : State) : Nat := (List.range 4).foldl (fun a b => a + (s.bandOf b).dir % 4 * 4 ^ b) 0

/-- The word of a port that LDP reads; none where the port's content is not laid down (log entry 65). -/
def portIn (i port : Nat) (s : State) : Option Nat :=
  let c := s.channel
  match i with
  | 0 =>
    match port with
    | 0x000 => some (c.wedge % 512 + b2n c.wedgeMissed * 2 ^ 31)
    | 0x001 => some c.wedgeTick
    | 0x002 => some c.cyl
    | 0x003 => some (c.pes % 2 ^ 32).toNat
    | 0x004 => some c.head
    | 0x005 => c.format.map fun f => f.zoneOf c.cyl % 32 + (f.zone (f.zoneOf c.cyl)).rate * 65536
    | 0x030 => some (c.verifyPort.1 % 64 + 256 * b2n c.verifyPort.2.1 + 512 * b2n c.verifyPort.2.2)
    | _ => none
  | 2 =>
    if 0x010 ≤ port ∧ port ≤ 0x017 then
      let d := vat s.radio.det (port - 0x010)
      some (d.code % 4096 + d.tick % 65536 * 65536)
    else match port with
    | 0x001 => some s.radio.rx
    | 0x002 => some (b2n s.radio.rfNow.isSome + ((s.radio.rfNow.map (·.cs)).getD 0) * 4)
    | 0x020 => some (s.supply.tj * 256 / 10 % 2 ^ 32).toNat
    | 0x030 => some (bandDirs s)
    | 0x040 => some (b2n s.timebase.valid)
    | _ => none
  | _ => none

/-- STP: an island port takes a word; HEAD starts a head switch, PA_FRAME sends a raw preamp frame (R551, R577). -/
def portOut (i port v : Nat) (s : State) : State :=
  let s1 := s.updSpar i fun x => { x with ports := mset x.ports port v }
  match i, port with
  | 0, 0x004 => selectHead (v % 16) s1
  | 0, 0x010 => s1.updChn fun c => { c with bufs := mset c.bufs (v % 64) (v / 256) }
  | 0, 0x020 => paFrame (v.testBit 15) (fld v 8 7) (v % 256) s1
  | _, _ => s1

/-! ### Microwords (Tables SPR.2, SPR.3) -/

/-- A routine in progress. -/
structure Run where
  /-- microaddress of the next microword -/
  upc : Nat
  /-- microwords issued -/
  issued : Nat := 0
  /-- an effect that R328 names was made -/
  part : Bool := false
  /-- the instruction address that follows -/
  next : Nat
  /-- HALT was issued -/
  halt : Bool := false
  /-- it is an instruction that retires, counted in INSTRUCTIONS -/
  counts : Bool := true

/-- The operand bits that an operation's layout uses (R316). -/
def usedBits : Nat → Nat
  | 0x01 | 0x02 => 0xE0FFFF
  | 0x03 | 0x1B => 0xFC0000
  | 0x04 | 0x06 | 0x07 | 0x08 | 0x09 | 0x1D => 0xFF8000
  | 0x05 => 0xFC0FFF
  | 0x0A => 0xFE001F
  | 0x0B => 0x1F8000
  | 0x0C => 0xFFF800
  | 0x0D | 0x0E => 0xE00FFF
  | 0x0F | 0x10 => 0xFC00FF
  | 0x11 => 0xF00FFF
  | 0x12 | 0x16 | 0x19 => 0x1C0000
  | 0x13 => 0xFFE000
  | 0x14 => 0xE00001
  | 0x15 => 0xFFFFC0
  | 0x17 => 0xE00000
  | 0x18 => 0x0000FF
  | 0x1A => 0xF00000
  | 0x1C => 0x1F803F
  | _ => 0

/-- Minimum cycles of an operation (R317). -/
def minCycles (op : Nat) : Nat := if op ∈ [0x0D, 0x0E, 0x15, 0x1C, 0x1D] then 2 else 1

/-- A microword is an undefined operation (R316, R322). -/
def undefinedWord (i op o : Nat) : Bool :=
  op == 0x1E || (o &&& usedBits op) != o || ((op == 0x11 || op == 0x1A) && decide (9 ≤ fld o 20 4)) ||
    (op == 0x15 && !unitOk i (fld o 18 6))

/-- A condition of BR and SKIPI (Table SPR.3). -/
def Spar.cond (x : Spar) : Nat → Bool
  | 0 => true
  | 1 => x.z
  | 2 => !x.z
  | 3 => x.n
  | 4 => !x.n
  | 5 => x.c
  | 6 => !x.c
  | 7 => x.timeout
  | 8 => !x.timeout
  | _ => false

/-- Working register `k`. -/
def Spar.reg (x : Spar) (k : Nat) : BitVec 32 := vat x.w k
/-- Write working register `k`. -/
def Spar.setReg (x : Spar) (k : Nat) (v : BitVec 32) : Spar := { x with w := vset x.w k v }
/-- Z and N of a result. -/
def Spar.flags (x : Spar) (v : BitVec 32) : Spar := { x with z := v == 0, n := v.msb }

/-- The operations that act on registers and flags alone: operand bits `o`. -/
def aluOp (op o : Nat) (x : Spar) : Spar :=
  let d := fld o 21 3
  let a := x.reg (fld o 18 3)
  let b := x.reg (fld o 15 3)
  match op with
  | 0x01 => x.setReg d (BitVec.ofNat 32 (o % 65536))
  | 0x02 => x.setReg d (BitVec.ofNat 32 (o % 65536 * 65536 + (x.reg d).toNat % 65536))
  | 0x03 => x.setReg d a
  | 0x04 => ({ x.setReg d (a + b) with c := decide (2 ^ 32 ≤ a.toNat + b.toNat) } : Spar).flags (a + b)
  | 0x05 =>
    let v := (BitVec.ofNat 12 o).signExtend 32
    ({ x.setReg d (a + v) with c := decide (2 ^ 32 ≤ a.toNat + v.toNat) } : Spar).flags (a + v)
  | 0x06 => ({ x.setReg d (a - b) with c := decide (b.toNat ≤ a.toNat) } : Spar).flags (a - b)
  | 0x07 => (x.setReg d (a &&& b)).flags (a &&& b)
  | 0x08 => (x.setReg d (a ||| b)).flags (a ||| b)
  | 0x09 => (x.setReg d (a ^^^ b)).flags (a ^^^ b)
  | 0x0A =>
    let v := if o.testBit 17 then a >>> (o % 32) else a <<< (o % 32)
    { x.setReg d v with z := v == 0 }
  | 0x0B => ({ x with c := decide (b.toNat ≤ a.toNat) } : Spar).flags (a - b)
  | 0x17 =>
    match x.inQ with
    | v :: l => { x.setReg d (BitVec.ofNat 32 v) with inQ := l, z := false }
    | [] => { x with z := true }
  | 0x1B => x.setReg d (BitVec.ofNat 32 (crcRun 0x82F63B78 (x.reg d).toNat (leBytes 4 a.toNat)))
  | 0x1D => x.setReg d (a * b)
  | _ => x

/-- A result of an operation on a Spar's own registers, memories and queues, ports, time and the action queue; `none` where a
scratch word with wrong parity was read (Table SPR.7 code 4). -/
def effectOp (i op o : Nat) (s : State) : Option State :=
  let x := s.spar i
  let d := fld o 21 3
  let a := (x.reg (fld o 18 3)).toNat
  let b := (x.reg (fld o 15 3)).toNat
  let w := x.reg d
  match op with
  | 0x0C =>
    let pos := fld o 16 5
    let width := fld o 11 5 + 1
    if pos + width ≤ 24 then some (s.updSpar i fun x => x.setReg d (BitVec.ofNat 32 (fld x.opr.toNat pos width)))
    else some ((s.drawn).updSpar i fun x => x.setReg d (BitVec.ofNat 32 (s.draw 13)))
  | 0x0D =>
    match portIn i (o % 4096) s with
    | some v => some (s.updSpar i fun x => x.setReg d (BitVec.ofNat 32 v))
    | none => some ((s.drawn).updSpar i fun x => x.setReg d (BitVec.ofNat 32 (s.draw 14)))
  | 0x0E => some (portOut i (o % 4096) w.toNat s)
  | 0x0F =>
    let k := (a + o % 256) % 256
    if x.badScratch.contains k then none else some (s.updSpar i fun x => x.setReg d (BitVec.ofNat 32 (mgetD x.scratch k 0)))
  | 0x10 =>
    let k := (a + o % 256) % 256
    some (s.updSpar i fun x => { x with scratch := mset x.scratch k w.toNat, badScratch := setDel x.badScratch k })
  | 0x14 =>
    some (s.updSpar i fun x =>
      x.setReg d (BitVec.ofNat 32 (if o.testBit 0 then (x.reg d).toNat / 65536 * 65536 + s.timebase.now.frac else s.tickNow)))
  | 0x15 =>
    let t := (x.reg (fld o 6 3)).toNat
    some (sched i (fld o 18 6) (fld o 12 6) (x.reg (fld o 9 3)).toNat (t % 65536) (t / 65536) s)
  | 0x16 =>
    if 64 ≤ x.outQ.length then some (s.updSpar i fun x => { x with c := true })
    else some (s.updSpar i fun x => { x with outQ := x.outQ ++ [a], c := false })
  | 0x18 => some (s.updSpar i fun x => { x with events := o % 256 :: x.events })
  | 0x1C => some (s.updSpar i fun x => { x with dmas := (o % 64, a, b) :: x.dmas })
  | _ => some (s.updSpar i (aluOp op o))

/-- What TWAIT and EWAIT wait for; none when they retire at once, with TIMEOUT as R319 says. -/
def waitOp (op o : Nat) (now : Nat) (x : Spar) : Option Wait × Bool :=
  match op with
  | 0x12 =>
    let t := (x.reg (fld o 18 3)).toNat
    if tickDiff now t ≥ 0 then (none, false)
    else if 10000000 < tickDiff t now then (none, true)
    else (some (.tick t), false)
  | _ =>
    let t := (x.reg (fld o 13 3)).toNat
    if 10000000 < t then (none, true) else (some (.event (fld o 16 8) ((now + t) % 2 ^ 32)), false)

/-- A fault is held until the next boundary; the first one counts (R325). -/
def holdFault (i cause a : Nat) (s : State) : State :=
  s.updSpar i fun x => { x with fault := some (x.fault.getD (cause, a)) }

/-- The microcode of a routine from its next microword on: it ends at an END or a HALT with the routine's outcome, stops in
a TWAIT or EWAIT, or ends in a machine check that is taken at once (R324, R327). -/
def micro (i : Nat) : Nat → Run → State → Option Run × State
  | 0, r, s =>
    let f := (s.spar i).fault.getD (7, r.upc % 4096)
    (none, machineCheck i f.1 f.2 r.part s)
  | n + 1, r, s =>
    let a := r.upc % 4096
    let x := s.spar i
    if x.badStore.contains a then
      let f := x.fault.getD (1, a)
      (none, machineCheck i f.1 f.2 r.part s)
    else
      let w := x.word i a
      let op := fld w 27 5
      let atEnd := w.testBit 24
      let o := fld w 0 24
      let r1 := { r with upc := a + 1, issued := r.issued + 1 }
      let go (r : Run) (s : State) : Option Run × State := if atEnd || r.halt then (some r, s) else micro i n r s
      if undefinedWord i op o then go r1 (holdFault i 5 a s)
      else if fld w 25 2 + 1 < minCycles op then go r1 (holdFault i 8 a s)
      else match op with
      | 0x11 => go (if x.cond (fld o 20 4) then { r1 with upc := o % 4096 } else r1) s
      | 0x19 => go { r1 with next := (x.reg (fld o 18 3)).toNat % 1024 } s
      | 0x1A => go (if x.cond (fld o 20 4) then { r1 with next := r1.next + 1 } else r1) s
      | 0x1F => go { r1 with halt := true } s
      | 0x12 | 0x13 =>
        match waitOp op o s.tickNow x with
        | (none, t) => go r1 (s.updSpar i fun x => { x with timeout := t })
        | (some y, _) =>
          (none, s.updSpar i fun x =>
            { x with stall := some { wait := y, upc := r1.upc, issued := r1.issued, atEnd := atEnd, partialEff := r1.part, next := r1.next } })
      | _ =>
        match effectOp i op o s with
        | some s1 => go { r1 with part := r1.part || decide (op ∈ [0x0E, 0x15, 0x16, 0x18, 0x1C]) } s1
        | none => go r1 (holdFault i 4 a s)

/-! ### Dispatch and boundaries (R323 to R328, R348, R349) -/

/-- The instructions of Table SPR.6 that a Spar's base microcode has, the vectors among them. -/
def baseOpc (i k : Nat) : Bool :=
  k < 8 || 0xF8 ≤ k ||
    (match i with
    | 0 => 0x20 ≤ k && k ≤ 0x27
    | 1 => 0x40 ≤ k && k ≤ 0x44
    | _ => 0x60 ≤ k && k ≤ 0x66)

/-- An instruction runs as the base microcode gives it: nothing of the store is patched or has wrong parity, and its
dispatch entry is the base one (log entry 61). -/
def Spar.plain (x : Spar) (k : Nat) : Bool :=
  x.store.isEmpty && x.badStore.isEmpty && x.badScratch.isEmpty && (mget x.dispatch k).isNone

/-- What the base microcode leaves in the working registers and flags: free values (log entry 66). -/
def openRegs (i : Nat) (s : State) : State :=
  s.drawn.updSpar i fun x =>
    { x with w := Vector.ofFn fun (k : Fin 8) => BitVec.ofNat 32 (s.draw (2048 + k.val)), z := s.draw 2056 % 2 == 1
             n := s.draw 2057 % 2 == 1, c := s.draw 2058 % 2 == 1 }

/-- A machine check outside any microword: its microaddress is open (log entry 67). -/
def machineCheckOut (i cause : Nat) (s : State) : State := machineCheck i cause (s.draw 12 % 4096) false s.drawn

/-- An instruction is dispatched with an operand; `next` follows it. It answers how its routine ended, if it did. The base
microcode's own effect is not made here. -/
def dispatch (i k operand next : Nat) (s : State) : Option Run × State :=
  let x := s.spar i
  let s1 := s.updSpar i fun x => { x with opr := BitVec.ofNat 24 operand }
  if x.badDispatch.contains k then (none, machineCheckOut i 2 s1)
  else if x.plain k then
    (if baseOpc i k then (some { upc := 0, next := next }, openRegs i s1) else (none, machineCheckOut i 6 s1))
  else if (match mget x.dispatch k with
    | some e => !e.testBit 20
    | none => !baseOpc i k) then (none, machineCheckOut i 6 s1)
  else micro i 12 { upc := x.entry i k % 4096, next := next } s1

/-- Instruction boundaries after a routine ended: a pending fault, then the highest pending line, one per boundary
(R325, R326). -/
def boundary (i : Nat) : Nat → Run → State → State
  | 0, _, s => s
  | n + 1, r, s =>
    let x := s.spar i
    match x.fault with
    | some f => machineCheck i f.1 f.2 r.part s
    | none =>
      let s0 := s.updSpar i fun x => { x with instructions := (x.instructions + b2n r.counts) % 2 ^ 32 }
      if r.halt then s0.updSpar i fun x => { x with state := .idle }
      else if 1023 < r.next then machineCheckOut i 9 s0
      else
        let s1 := s0.updSpar i fun x => { x with pc := r.next }
        match (List.range 8).reverse.find? fun l => (mget x.lines l).isSome with
        | none => s1
        | some 7 => s1.updSpar i fun x => { x with lines := mdel x.lines 7, state := .idle }
        | some 6 => s1.updSpar i fun x => { x with lines := mdel x.lines 6, bank := x.wantBank, pc := 0, loopLeft := none }
        | some l =>
          match dispatch i (0xF8 + l) (mgetD x.lines l 0) r.next (s1.updSpar i fun x => { x with lines := mdel x.lines l }) with
          | (some r1, s2) => boundary i n r1 s2
          | (none, s2) => s2

/-- An instruction whose base effect has been made ends, and `next` follows. -/
def sparRetire (i next : Nat) (s : State) : State := boundary i 9 { upc := 0, next := next } s

/-- A flipped bit makes its word's parity wrong (R313). -/
def applyFlip (i : Nat) (f : Option Flip) (s : State) : State :=
  match f with
  | none => s
  | some f => s.updSpar i fun x =>
    match f.memory with
    | 0 => { x with badStore := setIns x.badStore (f.addr % 4096) }
    | 1 => { x with badDispatch := setIns x.badDispatch (f.addr % 256) }
    | 2 => { x with badProg := setIns x.badProg (f.addr % 2048) }
    | 3 => { x with badScratch := setIns x.badScratch (f.addr % 256) }

/-- A Spar executes instructions: RUNNING, not waiting, its island running. -/
def sparGoes (s : State) (i : Nat) : Bool := (s.spar i).state == .running && (s.spar i).stall.isNone && sparPowered s i

/-- Spar `i` executes the instruction at its pc when that is one of `opc` (or one that no row names): `base` is the base
microcode's effect on its operand, and a patched or damaged store is run microword by microword (log entry 61). -/
def sparInstr (i opc : Nat) (flip : Option Flip) (base : Nat → State → State) (s : State) : Res :=
  s.running fun s =>
    let s0 := applyFlip i flip s
    let x := s0.spar i
    if !sparGoes s0 i then s0
    else if x.badProg.contains (x.bank * 1024 + x.pc) then machineCheckOut i 3 s0
    else
      let k := fld (x.instr x.pc) 24 8
      let o := fld (x.instr x.pc) 0 24
      if k ≠ opc ∧ baseOpc i k ∧ k < 0xF8 then s0
      else match dispatch i k o (x.pc + 1) s0 with
      | (none, s1) => s1
      | (some r, s1) => if x.plain k && k == opc then base o s1 else boundary i 9 r s1

end Sys2Proof.Machine
end

