-- ==== Sys2Proof/Machine/SparRows.lean ====
section
/-!
DEFINITION. The Spar instructions of the base microcode, the Spar's waits, lines and timed actions, and the 0x0C20 to 0x0C23
commands (spec/07_spar_sequencers.md, Tables SPR.4, SPR.6, SPR.13; the instants of R91, R96, R437, R584 and R698).
-/
namespace Sys2Proof.Machine
open Sys2Proof

/-! ### Instructions of every Spar (Table SPR.6) -/

/-- The address that follows Spar `i`'s instruction. -/
def sparNext (i : Nat) (s : State) : Nat := (s.spar i).pc + 1

/-- The meaning of NOP. -/
def execNop (spar : Fin 3) (flip : Option Flip) (s : State) : Res :=
  sparInstr spar.val 0x00 flip (fun _ s => sparRetire spar.val (sparNext spar.val s) s) s

/-- The meaning of JUMP. -/
def execJump (spar : Fin 3) (flip : Option Flip) (s : State) : Res :=
  sparInstr spar.val 0x01 flip (fun o s => sparRetire spar.val (o % 1024) s) s

/-- The meaning of JUMP_IF_INBOUND. -/
def execJumpIfInbound (spar : Fin 3) (flip : Option Flip) (s : State) : Res :=
  sparInstr spar.val 0x02 flip
    (fun o s => sparRetire spar.val (if (s.spar spar.val).inQ.isEmpty then sparNext spar.val s else o % 1024) s) s

/-- A base instruction's wait: it retires at once with TIMEOUT as given, or stalls (R319). -/
def baseWait (i : Nat) (w : Option Wait × Bool) (s : State) : State :=
  match w with
  | (none, t) => sparRetire i (sparNext i s) (s.updSpar i fun x => { x with timeout := t })
  | (some y, _) => s.updSpar i fun x => { x with stall := some { wait := y, atEnd := true, next := x.pc + 1 } }

/-- WAIT_TICK's target: `o` ns after the TICK in scratch word 0. -/
def waitTickOf (i o : Nat) (s : State) : Option Wait × Bool :=
  let t := (mgetD (s.spar i).scratch 0 0 + o) % 2 ^ 32
  if tickDiff s.tickNow t ≥ 0 then (none, false)
  else if 10000000 < tickDiff t s.tickNow then (none, true)
  else (some (.tick t), false)

/-- WAIT_TICK's effect. -/
def waitTick (i o : Nat) (s : State) : State := baseWait i (waitTickOf i o s) s

/-- The meaning of WAIT_TICK. -/
def execWaitTick (spar : Fin 3) (flip : Option Flip) (s : State) : Res := sparInstr spar.val 0x03 flip (waitTick spar.val) s

/-- WAIT_EVENT's mask and deadline. -/
def waitEventOf (o : Nat) (s : State) : Option Wait × Bool :=
  let ns := fld o 8 16 * 1000
  if 10000000 < ns then (none, true) else (some (.event (o % 256) ((s.tickNow + ns) % 2 ^ 32)), false)

/-- The meaning of WAIT_EVENT. -/
def execWaitEvent (spar : Fin 3) (flip : Option Flip) (s : State) : Res :=
  sparInstr spar.val 0x04 flip (fun o s => baseWait spar.val (waitEventOf o s) s) s

/-- The meaning of SIGNAL. -/
def execSignal (spar : Fin 3) (flip : Option Flip) (s : State) : Res :=
  sparInstr spar.val 0x05 flip
    (fun o s => sparRetire spar.val (sparNext spar.val s) (s.updSpar spar.val fun x => { x with events := o % 256 :: x.events })) s

/-- The meaning of HALT. -/
def execHalt (spar : Fin 3) (flip : Option Flip) (s : State) : Res :=
  sparInstr spar.val 0x06 flip (fun _ s => boundary spar.val 9 { upc := 0, next := sparNext spar.val s, halt := true } s) s

/-- LOOP: back to the target as often as its count says, counted down in the Spar. -/
def loopStep (i o : Nat) (s : State) : State :=
  let left := ((s.spar i).loopLeft).getD (fld o 10 14)
  if left = 0 then sparRetire i (sparNext i s) (s.updSpar i fun x => { x with loopLeft := none })
  else sparRetire i (o % 1024) (s.updSpar i fun x => { x with loopLeft := some (left - 1) })

/-- The meaning of LOOP. -/
def execLoop (spar : Fin 3) (flip : Option Flip) (s : State) : Res := sparInstr spar.val 0x07 flip (loopStep spar.val) s

/-! ### Formatter instructions -/

/-- A Formatter instruction: its effect, then the next instruction. -/
def formatter (opc : Nat) (flip : Option Flip) (f : Nat → State → State) (s : State) : Res :=
  sparInstr 0 opc flip (fun o s => sparRetire 0 (sparNext 0 s) (f o s)) s

/-- The meaning of WEDGE_SYNC: it goes on once the expected wedge was valid (R572; log entry 68). -/
def execWedgeSync (flip : Option Flip) (s : State) : Res :=
  sparInstr 0 0x20 flip (fun o s =>
    if s.channel.wedge = o % 512 ∧ !s.channel.wedgeMissed then sparRetire 0 (sparNext 0 s) s else s) s

/-- The meaning of HEAD_SELECT (R577). -/
def execHeadSelect (flip : Option Flip) (s : State) : Res := formatter 0x21 flip (fun o s => selectHead (o % 16) s) s

/-- The meaning of SEEK_START (R575); parked heads do not seek. -/
def execSeekStart (flip : Option Flip) (s : State) : Res :=
  formatter 0x22 flip (fun o s => if headsLoaded s then startSeek o s else s) s

/-- The meaning of SETTLE_CHECK: it goes on once as many wedges in a row were on track (R575; log entry 68). -/
def execSettleCheck (flip : Option Flip) (s : State) : Res :=
  sparInstr 0 0x23 flip (fun o s => if o % 256 ≤ s.channel.onRead then sparRetire 0 (sparNext 0 s) s else s) s

/-- VERIFY_DELAY_NS of the selected head, interpolated by cylinder (R583). -/
def verifyDelayAt (s : State) : Nat :=
  match s.channel.format with
  | none => 0
  | some f =>
    let z := f.zoneOf s.channel.cyl
    let v (e : Nat) : Int := (mget s.channel.cal.verifyDelay (place s.channel.head z e)).getD 0
    (interpolate (v 0) (v 1) (f.zone z).first (f.zoneEnd z - 1) s.channel.cyl).toNat

/-- Arm a gate's opening and closing. -/
def armGate (unit : Nat) (rise fall : Nat) (arg : Nat) (s : State) : State :=
  sched 0 unit 2 fall 0 arg (sched 0 unit 1 rise 0 arg s)

/-- WRITE_SECTOR's gates: write gate at the instants its slot has, verify gate the interpolated delay later (R584). -/
def writeGates (rise fall : BitVec 32) (o : Nat) (s : State) : State :=
  armGate 4 (rise.toNat + verifyDelayAt s) (fall.toNat + verifyDelayAt s) (fld o 10 6)
    (armGate 2 rise.toNat fall.toNat (fld o 10 6) s)

/-- The meaning of WRITE_SECTOR. -/
def execWriteSector (flip : Option Flip) (rise fall : BitVec 32) (s : State) : Res :=
  formatter 0x24 flip (writeGates rise fall) s

/-- One reader's gate, at the instants its slot has. -/
def readGate (unit : Nat) (rise fall : BitVec 32) (o : Nat) (s : State) : State :=
  armGate unit rise.toNat fall.toNat (fld o 10 6) s

/-- The meaning of READ_SECTOR: the read gate. -/
def execReadSector (flip : Option Flip) (rise fall : BitVec 32) (s : State) : Res :=
  formatter 0x25 flip (readGate 1 rise fall) s

/-- The meaning of VERIFY_SECTOR: reader B's gate. -/
def execVerifySector (flip : Option Flip) (rise fall : BitVec 32) (s : State) : Res :=
  formatter 0x26 flip (readGate 4 rise fall) s

/-- The meaning of SKIP_DEFECT: the slot passes with no gate armed. -/
def execSkipDefect (flip : Option Flip) (s : State) : Res := formatter 0x27 flip (fun _ s => s) s

/-! ### Cadence instructions -/

/-- A Cadence instruction: its effect, then the next instruction. -/
def cadencer (opc : Nat) (flip : Option Flip) (f : Nat → State → State) (s : State) : Res :=
  sparInstr 1 opc flip (fun o s => sparRetire 1 (sparNext 1 s) (f o s)) s

/-- TAI in 125 ps units. -/
def now125 (s : State) : Int := (s.timebase.now.inNs * 8 + s.timebase.now.frac / 8192 : Nat)

/-- The grid point nearest to `m` halves of an output's period after the epoch, with PHASE_OFFSET (R91): 125 ps units. -/
def edgeAt (d : CadDesc) (m : Int) : Int :=
  let (per, n) := cadencePeriod d.kind d.rate
  (m * per + n * 125) / (2 * n * 125 : Nat) + d.phase

/-- A cadence output's ball may move: it has a descriptor, no fault, time where it asks for it (R102, R103), and for LTC on
the UTC or local timescale time that has been valid since the device reset (R949, R975). -/
def cadenceLive (s : State) (o : Nat) : Bool :=
  let c := vat s.timebase.cadence o
  c.desc.kind != 0 && !c.fault && (!c.desc.flags.testBit 2 || s.timebase.valid) &&
    (c.desc.kind != 4 || c.desc.timescale == 0 || s.timebase.known)

/-- An edge of an output is armed already. -/
def edgeArmed (s : State) (o : Nat) (u : Int) : Bool :=
  (s.spar 1).actions.any fun a => a.unit == 8 + o && a.tick == (u / 8 % 2 ^ 32).toNat && a.frac == (u % 8).toNat * 8192

/-- Arm an edge at a TAI instant in 125 ps units. -/
def armEdge (o act : Nat) (u : Int) (s : State) : State :=
  sched 1 (8 + o) act (u / 8 % 2 ^ 32).toNat ((u % 8).toNat * 8192) 0 s

/-- An LTC output's transitions from a frame on: the half bits of its stream at which the level changes (R96). -/
def ltcHalves (c : Cadence) : List Nat := (List.range 160).filter fun h => h % 2 == 0 || c.ltc.getD (h / 2) false

/-- Half bit `h` of LTC frame `k`, in 125 ps units. -/
def ltcAt (d : CadDesc) (k : Int) (h : Nat) : Int :=
  let (per, n) := cadencePeriod d.kind d.rate
  (2 * (160 * k + h) * per + 160 * n * 125) / (320 * n * 125 : Nat) + d.phase

/-- The period that TAI lies in. -/
def frameIndex (d : CadDesc) (t : Int) : Int :=
  let (per, n) := cadencePeriod d.kind d.rate
  (t - d.phase) * (n * 125 : Nat) / max 1 (per : Int)

/-- EDGE_PLAN: the next edge of an output that is not armed yet, and its trailing edge (R91 to R96, R99). -/
def planEdge (o : Nat) (s : State) : State :=
  let c := vat s.timebase.cadence o
  let d := c.desc
  let t := now125 s
  let k := frameIndex d t
  if !cadenceLive s o then s
  else if d.kind = 4 then
    match ([k, k + 1].flatMap fun k => (ltcHalves c).map fun h => ltcAt d k h).find? fun u => t < u && !edgeArmed s o u with
    | some u => armEdge o 3 u s
    | none => s
  else
    let half := edgeAt { d with phase := 0 } 1
    match ((List.range 4).map fun j => k + j).find? fun j =>
      let u := edgeAt d (2 * j)
      t < u && (c.lastEdge : Int) + half ≤ u && !edgeArmed s o u with
    | none => s
    | some j =>
      let u := edgeAt d (2 * j)
      let v := if d.width = 0 ∨ d.kind = 2 then edgeAt d (2 * j + 1) else u + d.width
      let s1 := s.updTb fun b => { b with cadence := upd b.cadence o fun c => { c with nextEdge := (j + 1).toNat } }
      armEdge o (if d.flags.testBit 0 then 1 else 2) v (armEdge o (if d.flags.testBit 0 then 2 else 1) u s1)

/-- The meaning of EDGE_PLAN. -/
def execEdgePlan (flip : Option Flip) (s : State) : Res := cadencer 0x40 flip (fun o s => planEdge (o % 8) s) s

/-- Nominal frames per second of an integer LTC rate. -/
def ltcRate (rate : Nat) : Nat := (rateOf rate).1 / max 1 (rateOf rate).2

/-- The second of the day of a TAI second on an LTC output's timescale (Table TIM.9, R101): during a positive leap second
the labels of the second before are repeated. -/
def ltcSecond (s : State) (scale : Nat) (sec : Int) : Nat :=
  let b := s.timebase
  let leapNow : Bool := b.leap.any fun x => (x.instant : Int) == sec + 1 && decide (b.utcOffset < x.value)
  let sec' := if scale ≠ 0 ∧ leapNow then sec - 1 else sec
  let off : Int := match scale with
    | 0 => 0
    | 1 => -b.utcOffset
    | _ => -b.utcOffset + b.localOffset
  ((sec' + off) % 86400).toNat

/-- The time label of an LTC frame whose edge is at `u`: hours, minutes, seconds, frames (R96; fractional rates as ST 2059-1
counts them, log entry 63). -/
def ltcLabel (s : State) (d : CadDesc) (k u : Int) : Nat × Nat × Nat × Nat :=
  let sod := ltcSecond s d.timescale (u / 8000000000)
  if (rateOf d.rate).2 = 1 then (sod / 3600, sod / 60 % 60, sod % 60, (k % ltcRate d.rate).toNat)
  else
    let v := Config.ltcLabel d.rate (d.flags.testBit 1) sod u.toNat
    (v / 1000000 % 24, v / 10000 % 100 % 60, v / 100 % 100 % 60, v % 100 % 30)

/-- `n` bits of a value, the least significant first. -/
def bitsLsb (n v : Nat) : List Bool := (List.range n).map v.testBit

/-- The 80 bits of an LTC frame (SMPTE ST 12-1; PRESUMED, log entry 63): label, binary groups, drop-frame flag, polarity
correction, synchronising word. -/
def ltcBits (d : CadDesc) (l : Nat × Nat × Nat × Nat) : List Bool :=
  let g (k : Nat) : List Bool := bitsLsb 4 (fld d.userBits (4 * k) 4)
  let (h, m, sec, f) := l
  let pre := bitsLsb 4 (f % 10) ++ g 0 ++ bitsLsb 2 (f / 10) ++ [d.flags.testBit 1, false] ++ g 1 ++ bitsLsb 4 (sec % 10) ++ g 2 ++
    bitsLsb 3 (sec / 10)
  let mid := g 3 ++ bitsLsb 4 (m % 10) ++ g 4 ++ bitsLsb 3 (m / 10)
  let post := g 5 ++ bitsLsb 4 (h % 10) ++ g 6 ++ bitsLsb 2 (h / 10) ++ [false]
  let sync := bitsLsb 16 0xBFFC
  let odd : Bool := ((pre ++ mid ++ post ++ g 7 ++ sync).filter id).length % 2 == 1
  let p25 := d.rate == 3
  pre ++ [!p25 && odd] ++ mid ++ [false] ++ post ++ [p25 && odd] ++ g 7 ++ sync

/-- LTC_FRAME: the bits of the frame whose edge is nearest (R96, R100, R101). -/
def assembleLtc (o : Nat) (s : State) : State :=
  let d := (vat s.timebase.cadence o).desc
  if d.kind ≠ 4 then s
  else
    let k := frameIndex d (now125 s + edgeAt { d with phase := 0 } 1)
    s.updTb fun b => { b with cadence := upd b.cadence o fun c => { c with ltc := ltcBits d (ltcLabel s d k (ltcAt d k 0)) } }

/-- The meaning of LTC_FRAME. -/
def execLtcFrame (flip : Option Flip) (s : State) : Res := cadencer 0x41 flip (fun o s => assembleLtc (o % 8) s) s

/-- Nanoseconds of a message interval of log2 `l` seconds. -/
def logInterval (l : Int) : Nat := if l ≤ 0 then 1000000000 / 2 ^ (-l).toNat else 1000000000 * 2 ^ l.toNat

/-- A group's interval for Sync (true) or Announce, and its PHASE_NS (R437). -/
def groupTiming (s : State) (sync : Bool) (group : Nat) : Nat × Nat :=
  let i := s.inst (groupPort s group)
  let f := mgetD s.net.followers group {}
  if 0x1000 ≤ group then (logInterval (if sync then i.logSync else i.logAnnounce), 0)
  else (logInterval (((if sync then f.sync else f.announce).map (·.logPeriod)).getD 0), f.phaseNs)

/-- The next instant k x interval + PHASE_NS, in TAI ns (R437). -/
def nextLaunch (s : State) (sync : Bool) (group : Nat) : Nat :=
  let (int, ph) := groupTiming s sync group
  let t := s.timebase.now.inNs
  ((t + 1 + int - ph % int + int - 1) / max 1 int - 1) * int + ph % max 1 int

/-- Arm a launch of a port: the argument names the message type (0 Sync, 1 Follow_Up, 2 Announce) and the group (log entry
69). -/
def armLaunch (o type tick : Nat) (s : State) : State :=
  if o % 8 < 6 then sched 1 (0x10 + o % 8) 4 tick (if type = 1 then s.timebase.now.frac else 0) (fld o 3 13 + type * 8192) s else s

/-- The meaning of PTP_SYNC_LAUNCH. -/
def execPtpSyncLaunch (flip : Option Flip) (s : State) : Res :=
  cadencer 0x42 flip (fun o s => if groupServed s 0 (fld o 3 13) then armLaunch o 0 (nextLaunch s true (fld o 3 13)) s else s) s

/-- The meaning of PTP_FOLLOW_UP: the Follow_Up at the head of the port's list leaves at once. -/
def execPtpFollowUp (flip : Option Flip) (s : State) : Res :=
  cadencer 0x43 flip (fun o s => armLaunch o 1 s.tickNow s) s

/-- The meaning of PTP_ANNOUNCE. -/
def execPtpAnnounce (flip : Option Flip) (s : State) : Res :=
  cadencer 0x44 flip (fun o s => if groupServed s 0x0B (fld o 3 13) then armLaunch o 2 (nextLaunch s false (fld o 3 13)) s else s) s

/-! ### Radio instructions -/

/-- A Radio instruction: its effect, then the next instruction; the -T variant has no Radio Spar (R354). -/
def radioInstr (opc : Nat) (flip : Option Flip) (f : Nat → State → State) (s : State) : Res :=
  sparInstr 2 opc flip (fun o s => sparRetire 2 (sparNext 2 s) (if radioRuns s then f o s else s)) s

/-- BAND_STATE: a band's state machine takes the transition of Table RAD.5 towards a state. -/
def bandTo (b st : Nat) (s : State) : State :=
  let x := s.bandOf b
  match st with
  | 0 => stopBand b s
  | 1 =>
    if x.state = .off ∨ x.state = .fault then startBand b x.activate s
    else if x.state = .standby ∨ x.state = .active then tune b x.entry (s.updBand b fun y => { y with activate := y.state == .active })
    else s
  | 3 => if x.state = .standby then activateBand b s else s
  | _ => s

/-- The meaning of BAND_STATE. -/
def execBandState (flip : Option Flip) (s : State) : Res := radioInstr 0x60 flip (fun o s => bandTo (o % 4) (fld o 4 4) s) s

/-- SYNTH_HOP: a band that is tuned hops (Table RAD.5), one that is tuning goes to the entry; OFF and FAULT drive nothing. -/
def hopTo (b e : Nat) (s : State) : State :=
  let x := s.bandOf b
  match x.state with
  | .standby | .active => tune b e (s.updBand b fun y => { y with activate := y.state == .active })
  | .tuning => tune b e s
  | _ => s

/-- The meaning of SYNTH_HOP. -/
def execSynthHop (flip : Option Flip) (s : State) : Res := radioInstr 0x61 flip (fun o s => hopTo (o % 4) (fld o 2 6) s) s

/-- The TAI ns of transition (offset, direction) of period `k` (R698). -/
def transAt (p : Tdd) (k : Int) (off : Nat) : Int := k * (p.periodUs * 1000 : Nat) + p.phaseNs + off - p.advance

/-- The next transition of a band that can still be armed: its instant and direction (R698, R702, R704). -/
def nextTrans (s : State) (b : Nat) : Option (Int × Nat) :=
  let x := s.bandOf b
  match x.tdd with
  | none => none
  | some p =>
    let t : Int := s.timebase.now.inNs
    let k := (t - p.phaseNs + p.advance) / max 1 (p.periodUs * 1000 : Int) - 1
    let from_ : Int := if x.quiet then max (t + 2000) (t - (s.up - x.quietAt : Nat) * 1000 + 1000000) else t + 2000
    (([k, k + 1, k + 2, k + 3].flatMap fun j => p.trans.map fun y => (transAt p j y.1, y.2)).find? fun y =>
      from_ ≤ y.1 && (x.tddNext.all fun n => decide (y.1 < (n.2 * 1000000000 : Nat))) &&
        !(s.spar 2).actions.any fun a => a.unit == 0x20 + b && a.tick == (y.1 % 2 ^ 32).toNat)

/-- TDD_STEP: the turnaround and the switch of a band's next transition are armed (R698, R701, R956). -/
def tddStep (b : Nat) (s : State) : State :=
  let x := s.bandOf b
  if !x.flags.testBit 0 || x.state == .off || x.state == .fault || x.causes.testBit 3 || wholeCause s.radio || s.radio.guardMute then s
  else match nextTrans s b with
  | none => s
  | some (t, dir) =>
    let at_ (d : Int) : Nat := ((t + d) % 2 ^ 32).toNat
    let s1 := sched 2 (0x20 + b) (if dir = 1 then 1 else 2) (at_ 0) 0 dir (sched 2 (0x24 + b) 2 (at_ (-2000)) 0 dir s)
    if dir = 3 then s1 else sched 2 (0x24 + b) 1 (at_ 2000) 0 dir s1

/-- The meaning of TDD_STEP. -/
def execTddStep (flip : Option Flip) (s : State) : Res := radioInstr 0x62 flip (fun o s => tddStep (o % 4) s) s

/-- The meaning of POWER_STEP: the table entry, under the ceiling in force, is applied (R706, R707). -/
def execPowerStep (flip : Option Flip) (s : State) : Res :=
  radioInstr 0x63 flip (fun o s => stepTo (o % 8) (min (fld o 3 6) (pathCeiling s (o % 8))) s) s

/-- One step of the generator of x^10 + x^3 + 1; bit 0 is its output (R734). -/
def chipNext (v : Nat) : Nat := v / 2 + (if v.testBit 0 != v.testBit 3 then 512 else 0)

/-- Chip `n` of the dither sequence, from seed 0b11_1111_1111 (R734; DEDUCED, log entry 70). -/
def chip (n : Nat) : Bool := (Nat.repeat chipNext n 1023).testBit 0

/-- The meaning of DITHER_CHIP: path q takes chip (m + 128 q) mod 1,023 of TAI millisecond m (R734). -/
def execDitherChip (flip : Option Flip) (s : State) : Res :=
  radioInstr 0x64 flip (fun o s =>
    ditherStep (o % 8) (some (chip ((s.timebase.now.inNs / 1000000 + 128 * (o % 8)) % 1023))) s) s

/-- The meaning of DET_SAMPLE: the codes of a mask's detectors are taken, with the TICK of their sample (R710). -/
def execDetSample (flip : Option Flip) (codes : Vector (BitVec 12) 8) (s : State) : Res :=
  radioInstr 0x65 flip (fun o s => s.updRad fun r =>
    { r with det := Vector.ofFn fun (k : Fin 8) =>
        let d := vat r.det k.val
        if o.testBit k.val then { d with code := codes[k].toNat, tick := s.tickNow, last := detLevel d codes[k].toNat } else d }) s

/-- The meaning of RFSPI_XFER: a scratch word goes out on a chip select (R681, R683). -/
def execRfspiXfer (flip : Option Flip) (s : State) : Res :=
  radioInstr 0x66 flip (fun o s =>
    if o % 16 < 4 then rfPush 6 (o % 16) (mgetD (s.spar 2).scratch (fld o 4 8) 0) s else s) s

/-! ### Lines from Campel, waits and actions -/

/-- A line is raised: taken now at the boundary where the Spar stands, or at the END of a routine that waits (R326,
R350). -/
def takeLine (i : Nat) (s : State) : State :=
  if sparGoes s i then boundary i 9 { upc := 0, next := (s.spar i).pc, counts := false } s else s

/-- The meaning of HALT_REQUEST. -/
def execHaltRequest (spar : Fin 3) (s : State) : Res :=
  s.running fun s =>
    if (s.spar spar.val).state == .running && sparPowered s spar.val then
      takeLine spar.val (s.updSpar spar.val fun x => { x with lines := mset x.lines 7 0 })
    else s

/-- Campel writes a program into the inactive bank, puts words into the inbound queue as far as it has room, and takes
words from the outbound queue (R314, R323). -/
def loadProgram (i bank : Nat) (program inbound : List (BitVec 32)) (taken : Nat) (s : State) : State :=
  s.updSpar i fun x =>
    { x with prog := if bank = x.bank then x.prog else
               upd x.prog bank fun _ => ((program.take 1024).zipIdx.filter fun p => p.1 != 0).map fun p => (p.2, p.1.toNat)
             badProg := if bank = x.bank then x.badProg else x.badProg.filter fun a => a / 1024 != bank
             inQ := x.inQ ++ (inbound.take (64 - x.inQ.length)).map (·.toNat), outQ := x.outQ.drop taken }

/-- The meaning of BANK_SWITCH: line 6 of a running Spar; an idle one starts at instruction 0 of the bank (R323, R326,
R349). -/
def execBankSwitch (spar : Fin 3) (bank : Fin 2) (program inbound : List (BitVec 32)) (taken : Nat) (s : State) : Res :=
  s.running fun s =>
    let i := spar.val
    if !s.campel || !sparPowered s i then s
    else
      let s1 := loadProgram i bank.val program inbound taken s
      match (s1.spar i).state with
      | .running => takeLine i (s1.updSpar i fun x => { x with lines := mset x.lines 6 0, wantBank := bank.val })
      | .idle => s1.updSpar i fun x => { x with state := .running, bank := bank.val, pc := 0, loopLeft := none }
      | _ => s

/-- The meaning of INTERRUPT_VECTOR: an island event raises a line 0 to 5 with its line data. -/
def execInterruptVector (spar : Fin 3) (line : Fin 6) (data : BitVec 24) (s : State) : Res :=
  s.running fun s =>
    if (s.spar spar.val).state == .running && sparPowered s spar.val then
      takeLine spar.val (s.updSpar spar.val fun x => { x with lines := mset x.lines line.val data.toNat })
    else s

/-- A stalled routine goes on, TIMEOUT as given (R319). -/
def release (i : Nat) (y : Stall) (t : Bool) (s : State) : State :=
  let s1 := s.updSpar i fun x => { x with stall := none, timeout := t }
  let r : Run := { upc := y.upc, issued := y.issued, part := y.partialEff, next := y.next }
  if y.atEnd then boundary i 9 r s1
  else match micro i (12 - y.issued) r s1 with
    | (some r1, s2) => boundary i 9 r1 s2
    | (none, s2) => s2

/-- The meaning of TWAIT_RELEASE. -/
def execTwaitRelease (spar : Fin 3) (tick : BitVec 32) (s : State) : Res :=
  s.running fun s =>
    match (s.spar spar.val).stall with
    | some y =>
      match y.wait with
      | .tick t => if sparPowered s spar.val ∧ 0 ≤ tickDiff tick.toNat t then release spar.val y false s else s
      | .event _ _ => s
    | none => s

/-- The meaning of EWAIT_RELEASE: an event of the mask, or the time that has elapsed. -/
def execEwaitRelease (spar : Fin 3) (events : BitVec 8) (tick : BitVec 32) (s : State) : Res :=
  s.running fun s =>
    match (s.spar spar.val).stall with
    | some y =>
      match y.wait with
      | .event m t =>
        if !sparPowered s spar.val then s
        else if events.toNat &&& m ≠ 0 then release spar.val y false s
        else if 0 ≤ tickDiff tick.toNat t then release spar.val y true s
        else s
      | .tick _ => s
    | none => s

/-- The Formatter's gates (Table SPR.4, R555, R559): the write gate opens only as R555 allows; `sector` names the command's
sector whose fragment the gate writes. -/
def gateAction (a : Action) (sector : Option (Nat × Nat)) (s : State) : State :=
  let on : Bool := a.action == 1
  if a.action ≠ 1 ∧ a.action ≠ 2 then s
  else match a.unit with
  | 1 => s.updChn fun c => { c with gates := (on, c.gates.2) }
  | 2 =>
    if !on then s.updChn fun c => { c with wg := false }
    else if !s.channel.writeOk || s.channel.wgBlocked || s.channel.flt || s.supply.mode != .run || !headsLoaded s then s
    else
      let s1 := s.updChn fun c => { c with wg := true }
      match sector with
      | some (id, i) => s1.updCmd id fun c => if i < c.count ∧ c.abort.isNone then { c with onMedium := some i } else c
      | none => s1
  | 3 => s.updChn fun c => { c with gates := (c.gates.1, on, c.gates.2.2) }
  | _ => s.updChn fun c => { c with gates := (c.gates.1, c.gates.2.1, on) }

/-- A cadence output's edge (R91, R102). -/
def edgeAction (a : Action) (s : State) : State :=
  let o := a.unit - 8
  let c := vat s.timebase.cadence o
  if !cadenceLive s o ∨ a.action = 0 ∨ 3 < a.action then s
  else
    let l : Bool := if a.action = 3 then !c.level else a.action == 1
    let u := s.timebase.now.inNs * 8 + a.frac / 8192
    let lead : Bool := c.desc.kind == 4 || l != c.desc.flags.testBit 0
    (s.emit (.cadenceEdge o u l)).updTb fun b => { b with cadence := upd b.cadence o fun c =>
      { c with level := l, lastEdge := if lead then u else c.lastEdge } }

/-- A launch falls due: the type and group its argument names. -/
def launchAction (a : Action) (s : State) : State :=
  if a.action ≠ 4 then s
  else match a.arg / 8192 with
  | 0 => ptpLaunch 0 (a.arg % 8192) s.timebase.now s
  | 1 => sendFollowUp (a.unit - 0x10) s
  | _ => ptpLaunch 0x0B (a.arg % 8192) s.timebase.now s

/-- The Radio's actions: TDD_GATE, BAND_EN, an RF serial transfer, a dither step (R698, R708). -/
def radioAction (a : Action) (s : State) : State :=
  let b := (a.unit - 0x20) % 4
  let x := s.bandOf b
  let tdd : Bool := x.flags.testBit 0 && x.state != .off && x.state != .fault
  if a.unit < 0x24 then
    (if tdd ∧ (a.action = 1 ∨ a.action = 2) then
      s.updBand b fun x => { x with gate := a.action == 1 && !s.radio.guardMute && !wholeCause s.radio } else s)
  else if a.unit < 0x28 then
    (if !tdd then s
    else if a.action = 2 then syncEn b (s.updBand b fun x => { x with dir := 0 })
    else if a.action = 1 then
      syncEn b (s.updBand b fun x => { x with dir := if x.gate then 1 else 2, quiet := x.quiet && x.causes.testBit 3 })
    else s)
  else if a.action ≠ 4 then s
  else if a.unit = 0x28 then rfPush 6 (a.arg % 4) (mgetD (s.spar 2).ports 0 0) s
  else ditherStep (a.arg % 8) (if a.arg.testBit 4 then none else some (a.arg.testBit 3)) s

/-- The meaning of SCHED_ACTION: an armed action whose instant has come is performed (R320). -/
def execSchedAction (spar : Fin 3) (index : Fin 16) (tick : BitVec 32) (sector : Option (Nat × Nat)) (s : State) : Res :=
  s.running fun s =>
    match (s.spar spar.val).actions[index.val]? with
    | none => s
    | some a =>
      if !sparPowered s spar.val || tickDiff tick.toNat a.tick < 0 then s
      else
        let s1 := (s.updSpar spar.val fun x => { x with actions := x.actions.eraseIdx index.val }).emit
          (.action spar.val a.unit a.action a.tick)
        if spar.val = 0 then gateAction a sector s1
        else if spar.val = 1 then (if a.unit < 0x10 then edgeAction a s1 else launchAction a s1)
        else if radioRuns s1 then radioAction a s1 else s1

/-! ### Commands (Table SPR.13) -/

/-- The code of a Spar's state (Table SPR.14). -/
def SparState.code : SparState → Nat
  | .unloaded => 0
  | .idle => 1
  | .running => 2
  | .haltedMc => 3
  | .failed => 4

/-- The Radio Spar on the -T variant. -/
def sparAbsent (s : State) (i : Nat) : Bool := i == 2 && s.isT

/-- 0x0C20 SPAR_GET_VERSION. -/
def cmdSparGetVersion : Cmd :=
  { op := 0x0C20, limited := always
    run := fun s _ _ => .done St.ok ((List.range 3).flatMap fun i =>
      let x := s.spar i
      leBytes 2 x.base ++ leBytes 2 x.level ++ leBytes 1 x.state.code ++ zeros 3 ++ fit 48 x.digest) s }

/-- The bytes of Table SPR.14. -/
def Spar.status (x : Spar) : Bytes :=
  leBytes 1 x.state.code ++ leBytes 1 x.bank ++ leBytes 1 x.mcCount ++ leBytes 1 x.lastCause ++ leBytes 2 x.lastUaddr ++
    leBytes 2 x.lastPc ++ leBytes 1 (b2n x.lastPartial) ++ zeros 3 ++ leBytes 4 x.late ++ leBytes 4 x.instructions

/-- 0x0C21 SPAR_GET_STATUS. -/
def cmdSparGetStatus : Cmd :=
  { op := 0x0C21, rights := byZero, len := exactly 4, fields := fun _ _ p => byteAt p 0 ≤ 2 && zeroAt p 1 3
    run := fun s _ p => if sparAbsent s (byteAt p 0) then .done St.notFitted [] s else .done St.ok (s.spar (byteAt p 0)).status s }

/-- 0x0C22 SPAR_RELOAD (R332, R334, R345, R353): the version registers read zero meanwhile (R343). -/
def cmdSparReload : Cmd :=
  { op := 0x0C22, rights := byZero, modes := (· == .safe), len := exactly 4, fields := fun _ _ p => byteAt p 0 ≤ 2 && zeroAt p 1 3
    run := fun s _ p =>
      let i := byteAt p 0
      let x := s.spar i
      if sparAbsent s i then .done St.notFitted [] s
      else if x.state = .failed then .done St.notReady [] s
      else if x.state ≠ .haltedMc ∨ x.reloading then .done St.busy [] s
      else .accept { key := i } (s.updSpar i fun x => { x with reloading := true, base := 0, level := 0, digest := [] }) }

/-- SPAR_RELOAD's work ends; `bad`: the read-back of step 6 failed (R338, R345). -/
def reloadEnd (j : Job) (bad : Bool) (s : State) : State :=
  let i := j.key
  if bad then completeJob j St.notReady [] (s.updSpar i fun x => { x with state := .failed, reloading := false })
  else
    let s1 := loadStore i (s.spar i).patch s
    let s2 := crumb 0x0C83 2 0 (anyPayload 0x0C83 [i, (s1.spar i).level]) s1
    let s3 := if sparPowered s2 i then sparResume i s2 else s2
    completeJob j St.ok [] (mcClear (if i = 1 then cadenceResume s3 else s3))

/-- The handles of SPAR_PATCH_CHECK. -/
def patchHandles (p : Bytes) : List Nat := (List.range (byteAt p 1)).map fun k => rd p (4 + 4 * k) 4

/-- 0x0C23 SPAR_PATCH_CHECK (R346): the yealms are pinned while the work runs (R131). -/
def cmdSparPatchCheck : Cmd :=
  { op := 0x0C23, rights := byZero, len := fun p => decide (4 ≤ p.length) && p.length == 4 + 4 * byteAt p 1
    fields := fun s t p =>
      byteAt p 0 ≤ 2 && 1 ≤ byteAt p 1 && byteAt p 1 ≤ 9 && zeroAt p 2 2 && (patchHandles p).all fun h => usable s t h
    run := fun s _ p =>
      let l := ((patchHandles p).map hIndex).eraseDups
      if s.spars.toList.any (·.reloading) then .done St.busy [] s
      else .accept { data := p, pins := l } (pinAll l s) }

/-- SPAR_PATCH_CHECK's work ends: DATA byte 20 is the failing step, 0 for none (Table SPR.13). -/
def patchCheckEnd (j : Job) (s : State) : State :=
  let c := (patchHandles j.data).flatMap fun h => loftRead s (yAddr (hIndex h) 0) 4096
  let step := match checkPatch s (byteAt j.data 0) (imageKey s.boot.imageBytes) c with
    | .inl n => n
    | .inr _ => 0
  completeJob j St.ok (leBytes 1 step) s

/-- The meaning of SPAR_GET_VERSION. -/
def execSparGetVersion (c : Call) (s : State) : Res := command cmdSparGetVersion c s
/-- The meaning of SPAR_GET_STATUS. -/
def execSparGetStatus (c : Call) (s : State) : Res := command cmdSparGetStatus c s
/-- The meaning of SPAR_RELOAD. -/
def execSparReload (c : Call) (s : State) : Res := command cmdSparReload c s
/-- The meaning of SPAR_PATCH_CHECK. -/
def execSparPatchCheck (c : Call) (s : State) : Res := command cmdSparPatchCheck c s

end Sys2Proof.Machine
end

