-- ==== Sys2Proof/Machine/Tenants.lean ====
section
/-!
DEFINITION. Tenant reset, services and rights, the identity registers, and the 0x0101, 0x0103 and 0x02xx commands
(spec/04_tenants_and_mailboxes.md, R186 to R230; R5 of spec/00_scope.md; R1017 of spec/19_supply_and_modes.md).
-/
namespace Sys2Proof.Machine
open Sys2Proof

/-! ### Identity and mode (R5, Table TEN.3, Table PWR.9) -/

/-- ID_DEVICE, ID_REV and ID_VARIANT: rows 0 to 2 of the identity region (log entry 3). -/
def idWord (s : State) (k : Nat) : Nat :=
  let v := mgetD s.boot.otp k 0
  if k = 0 then v else if k = 1 then v % 65536 else v % 256

/-- ID_MODULE_POS (Table TEN.3). -/
def idModulePos (s : State) : Nat := s.cascade.position % 8 + s.boot.role % 4 * 16 + 256 * b2n s.cascade.valid

/-- MODE_STATUS (Table PWR.9); TJ in whole degrees, rounded down. -/
def modeStatus (s : State) : Nat :=
  let x := s.supply
  x.mode.code + ((x.change.map (·.target)).getD 0) % 4 * 4 + 16 * b2n x.change.isSome + 32 * b2n (x.mode == .booting) + 64 * b2n x.pfail +
    128 * b2n x.thermWarn + 256 * b2n x.thermCrit + 512 * b2n x.afterTrip + x.resetCause % 16 * 1024 + x.safeCause.toNat * 65536 +
    (x.tj / 10 % 256).toNat * 16777216

/-- STATE of a tenant (Table TEN.4). -/
def TState.code : TState → Nat
  | .absent => 0
  | .ready => 1
  | .faulted => 2
  | .resetting => 3

/-- The tenant that the SPI port serves (R187). -/
def spiTenant (s : State) : Nat := if s.boot.spi7 then 7 else 0

/-! ### Tenant reset (R213 to R216, R223, R227, Table TEN.12) -/

/-- The yealms a tenant holds. -/
def heldYealms (s : State) (t : Nat) : List Nat :=
  (s.loft.tags.filter fun p => p.2.alloc && p.2.owner == t && poolIndex p.1).map (·.1)

/-- A reset tenant's yealms are freed, each pinned one when its work ends (R178). -/
def freeHeld (t : Nat) (s : State) : State :=
  (heldYealms s t).foldl (fun s i =>
    if (s.loft.tag i).pins = 0 then freeYealm i s
    else s.updLoft fun l => l.setTag i { (l.tag i) with doomed := true }) s

/-- A reset tenant's rings close, their unconsumed submissions discarded (R178). -/
def closeRings (t : Nat) (s : State) : State :=
  (List.range 32).foldl (fun s n =>
    let r := s.ring n
    if r.opened && r.owner == t then
      closeRing n (if r.type = .submit then s.updTen t fun x => { x with discarded := x.discarded + r.waiting } else s)
    else s) s

/-- A reset tenant's frames that have not started are dropped; the first of each port may be on its way and completes without
a completion (log entry 71). -/
def dropFrames (t : Nat) (s : State) : State :=
  (List.range 6).foldl (fun s p =>
    let q := (s.port p).txq.zipIdx
    let mine (x : TxFrame × Nat) : Bool := x.1.ring.isSome && x.1.tenant == t
    let drop := q.filter fun x => mine x && x.2 != 0
    let s1 := s.updPort p fun x =>
      { x with txq := (q.filter fun y => !(mine y && y.2 != 0)).map fun y => if mine y then { y.1 with ring := some 32 } else y.1 }
    drop.foldl (fun s x => unpinAll (x.1.handles.map hIndex) s) (s1.updTen t fun x => { x with aborted := x.aborted + drop.length })) s

/-- A reset tenant's consumed work goes on without a completion, or is aborted: disk commands under R629 (Table TEN.12). -/
def abortWork (t : Nat) (s : State) : State :=
  let ids := (s.diskq.cmds.filter fun c => c.tenant == t).map (·.id)
  let s1 := s.updTen t fun x => { x with aborted := x.aborted + ids.length + (s.subs.filter (·.tenant == t)).length }
  let s2 := { s1 with subs := s1.subs.map fun (x : Sub) => if x.tenant = t then { x with ring := 32 } else x }
  let s3 := s2.updDsk fun q => { q with cmds := q.cmds.map fun (c : DiskCmd) => if c.tenant = t then { c with ring := 32 } else c }
  ids.foldl (abortCmd St.aborted) s3

/-- The TIME owner's TIM_IN queues and arms are cleared; a PTP_CAL_RUN that uses one ends with them (Table TEN.12; log entry
72). -/
def clearTimIn (t : Nat) (s : State) : State :=
  if s.owner 0 ≠ t then s
  else (s.updTb fun b => { b with timIn := Vector.replicate 4 {} }).updNet fun n => { n with cal := none }

/-- A tenant reset starts, with its LAST_RESET code (R215, Table TEN.12): tokens already issued are never completed, and the
work goes on for no tenant (8). -/
def beginReset (t cause : Nat) (disable : Bool) (s : State) : State :=
  let s1 := s.updTen t fun x =>
    { x with state := .resetting, resets := inc32 x.resets, lastReset := cause, resetStart := s.up, resetDisable := disable, discarded := 0
             aborted := 0, outstanding := none, awaiting := 0, abuseTotal := 0, abuseTimes := [], abuseLogged := none, foreignAperture := 0
             foreignRing := 0 }
  let s2 := { s1 with jobs := s1.jobs.map fun j => if j.tenant = t ∧ j.origin.isNone then { j with tenant := 8 } else j }
  freeHeld t (clearTimIn t (dropFrames t (abortWork t (closeRings t s2))))

/-- A tenant reset of a READY or FAULTED tenant (Table TEN.10). -/
def resetTenant (t cause : Nat) (s : State) : State :=
  if (s.ten t).state = .ready ∨ (s.ten t).state = .faulted then beginReset t cause false s else s

/-- A tenant's own window at 0x0400 acts: in the ROM stage only tenant 0's (R269, R271). -/
def ownOpen (s : State) (t : Nat) : Bool := s.supply.isl.host && (s.campel || t == 0)

/-- A write of TEN_RESET (R194). -/
def tenResetWrite (t v : Nat) (s : State) : State := if v = 0x5E70 ∧ ownOpen s t then resetTenant t 1 s else s

/-- The meaning of TEN_RESET_WRITE (R194). -/
def execTenResetWrite (t : Fin 8) (value : BitVec 32) (s : State) : Res := s.running (tenResetWrite t.val value.toNat)

/-- Work of a tenant that has not ended: disk commands, consumed submissions, pinned yealms (R215). -/
def workLeft (s : State) (t : Nat) : Bool :=
  s.diskq.cmds.any (·.tenant == t) || s.subs.any (·.tenant == t) || !(heldYealms s t).isEmpty

/-- Every service of a disabled tenant moves to tenant 0, and it leaves every rights mask (R224). -/
def stripServices (t : Nat) (s : State) : State :=
  { s with svcOwner := s.svcOwner.map fun o => if o = t then 0 else o
           svcRights := s.svcRights.map fun m => if m.testBit t then m - 2 ^ t else m }

/-- A tenant reset completes (R215, R224, R227, R262): the window registers and the view take their reset values, routes kept;
its record, unless PFAIL has been latched since the reset started (R954); tenant 0's token. -/
def endReset (t : Nat) (s : State) : State :=
  let x := s.ten t
  let s1 := s.updTen t fun x =>
    { x with state := if x.resetDisable then .absent else .ready, mbReq := zeros 256, rsp := none, busy := false, rspReady := false
             refused := false, transport := false, lastSeq := 0, faultCause := 0, faultCount := 0, requests := 0, resetDisable := false }
  let s2 := s1.updView t fun v => { v with raw := 0, mask := BitVec.allOnes 128, count := Vector.replicate 128 0 }
  let s3 := if x.resetDisable then stripServices t s2 else s2
  let s4 := if s.supply.pfailCount ≠ 0 ∧ x.resetStart ≤ s.supply.pfailAt then s3
    else crumb 0x0201 2 t (anyPayload 0x0201 [x.lastReset, x.discarded, x.aborted]) s3
  finish (if x.resetDisable then 0x0203 else 0x0201) t St.ok [] s4

/-- The meaning of TENANT_RESET_COMPLETE: the work has ended, or 100 ms have passed (R215, R230). -/
def execTenantResetComplete (t : Fin 8) (s : State) : Res :=
  s.running fun s =>
    if (s.ten t.val).state == .resetting && (!workLeft s t.val || decide ((s.ten t.val).resetStart + 100000 ≤ s.up)) then endReset t.val s else s

/-- A function's configuration space takes its reset values: MSI-X disabled, every vector masked (PRESUMED: the PCI Express
Base Specification, log entry 73). -/
def resetFunction (t : Nat) (s : State) : State :=
  s.updView t fun v => { v with msixEnable := false, msix := Vector.replicate 16 {}, pba := 0 }

/-- The meaning of FUNCTION_LEVEL_RESET (R213). -/
def execFunctionLevelReset (t : Fin 8) (s : State) : Res :=
  s.running fun s => if s.supply.isl.host then resetTenant t.val 4 (resetFunction t.val s) else s

/-- The meaning of PERST_N: asserted, or a hot reset (R213). -/
def execPerstN (hot : Bool) (s : State) : Res :=
  .next (
    let s1 := if hot then s else s.updSup fun x => { x with perstN := false, pcieUp := false }
    if !s.powered ∨ !s.supply.isl.host then s1
    else (List.range 8).foldl (fun s t => if t = spiTenant s then resetFunction t s else resetTenant t 5 (resetFunction t s)) s1)

/-! ### Commands (Tables TEN.14 to TEN.17) -/

/-- The release of a running image: [23:0]. -/
def campelRelease (s : State) : Nat := ((s.boot.image.map (·.campel)).getD 0) % 2 ^ 24

/-- 0x0101 SYS_GET_INFO (Table TEN.15). -/
def cmdSysGetInfo : Cmd :=
  { op := 0x0101, limited := always
    run := fun s t _ =>
      .done St.ok (leBytes 4 (idWord s 0) ++ leBytes 4 (idWord s 1) ++ leBytes 4 (idWord s 2) ++ leBytes 4 (idModulePos s) ++
        leBytes 1 s.supply.mode.code ++ leBytes 1 t ++ leBytes 1 (s.ten t).state.code ++ leBytes 1 (modulesOf s) ++
        leBytes 4 (campelRelease s) ++ leBytes 4 s.boot.epoch ++ leBytes 4 (s.up / 1000000)) s }

/-- 0x0103 SYS_ECHO. -/
def cmdSysEcho : Cmd := { op := 0x0103, limited := always, len := fun _ => true, run := fun s _ p => .done St.ok p s }

/-- The own tenant, or tenant 0 for any. -/
def ownOrZero (_ : State) (t : Nat) (p : Bytes) : Bool := t = 0 || namedTenant t p == t

/-- 0x0201 TEN_RESET (R223, R228, R229). -/
def cmdTenReset : Cmd :=
  { op := 0x0201, rights := ownOrZero, limited := fun t p => t != 0 || namedTenant t p == t, len := exactly 4
    fields := fun s t p => namedTenant t p ≤ 7 && zeroAt p 1 3 && (s.ten (namedTenant t p)).state != .absent
    run := fun s t p =>
      let n := namedTenant t p
      if n = t then .silent (beginReset t 2 false s)
      else if (s.ten n).state = .resetting then .done St.busy [] s
      else .accept { key := n, waits := true } (beginReset n 3 false s) }

/-- The service a source belongs to (Table IRQ.1). -/
def srcService (src : Nat) : Option Nat :=
  if src < 48 then none
  else if src < 64 then some 0
  else if src < 70 ∨ (72 ≤ src ∧ src < 78) then some 1
  else if src = 91 ∨ src = 92 ∨ src = 94 then some 5
  else if 80 ≤ src ∧ src < 94 then some 2
  else if 96 ≤ src ∧ src < 104 then some 4
  else none

/-- The latched bits of a service's sources move to its new owner, whose counters start at 0; tenant 0's view does not change
(R260). -/
def moveSources (svc old new : Nat) (s : State) : State :=
  if old = new then s
  else ((List.range 128).filter fun k => srcService k == some svc).foldl (fun s k =>
    let was := (s.view old).raw.getLsbD k
    let s1 := if old = 0 then s else s.updView old fun v => { v with raw := v.raw &&& ~~~(BitVec.twoPow 128 k) }
    if new = 0 then s1
    else
      let s2 := s1.updView new fun v =>
        { v with count := vset v.count k 0
                 raw := if was then v.raw ||| BitVec.twoPow 128 k else v.raw &&& ~~~(BitVec.twoPow 128 k) }
      if was && !(s2.view new).mask.getLsbD k then goPending new k s2 else s2) s

/-- 0x0202 SVC_ASSIGN (R11, R217 to R219, R229). -/
def cmdSvcAssign : Cmd :=
  { op := 0x0202, rights := byZero, len := exactly 4, fields := fun _ _ p => byteAt p 0 ≤ 6 && byteAt p 1 ≤ 7 && byteAt p 3 == 0
    run := fun s _ p =>
      let svc := byteAt p 0
      let o := byteAt p 1
      let m := byteAt p 2
      if svc = 4 ∧ s.isT then .done St.notFitted [] s
      else if (s.ten o).state = .resetting then .done St.busy [] s
      else if (s.ten o).state ≠ .ready ∨ ((List.range 8).any fun t => m.testBit t && (s.ten t).state != .ready) ∨ (svc = 6 ∧ (o ≠ 0 ∨ m ≠ 0)) then
        .done St.badField [] s
      else .done St.ok [] (moveSources svc (s.owner svc) o
        { s with svcOwner := vset s.svcOwner svc o, svcRights := vset s.svcRights svc m }) }

/-- 0x0203 TEN_ENABLE (R224, R229). -/
def cmdTenEnable : Cmd :=
  { op := 0x0203, rights := byZero, len := exactly 4
    fields := fun _ _ p => 1 ≤ byteAt p 0 && byteAt p 0 ≤ 7 && byteAt p 1 ≤ 1 && zeroAt p 2 2
    run := fun s _ p =>
      let n := byteAt p 0
      match (s.ten n).state with
      | .resetting => .done St.busy [] s
      | .absent => .done St.ok [] (if byteAt p 1 = 1 then s.updTen n fun x => { x with state := .ready } else s)
      | _ => if byteAt p 1 = 1 then .done St.ok [] s else .accept { key := n, waits := true } (beginReset n 6 true s) }

/-- Bits of the services that satisfy a condition. -/
def svcBits (f : Nat → Bool) : Nat := maskOf (List.range 7) f

/-- 0x0204 TEN_GET_STATUS (Table TEN.17). -/
def cmdTenGetStatus : Cmd :=
  { op := 0x0204, rights := ownOrZero, limited := fun t p => namedTenant t p == t, len := exactly 4
    fields := fun _ t p => namedTenant t p ≤ 7 && zeroAt p 1 3
    run := fun s t p =>
      let n := namedTenant t p
      let x := s.ten n
      .done St.ok (leBytes 1 x.state.code ++ leBytes 1 x.faultCause ++ leBytes 1 (svcBits fun k => s.owner k == n) ++
        leBytes 1 (svcBits fun k => s.owner k == n || (vat s.svcRights k).testBit n) ++ leBytes 4 x.resets ++ leBytes 1 x.lastReset ++
        zeros 3 ++ leBytes 4 x.requests ++ leBytes 4 x.refusedCount ++ leBytes 4 x.headerFails ++ leBytes 4 x.faultCount) s }

/-- 0x0205 SVC_GET. -/
def cmdSvcGet : Cmd :=
  { op := 0x0205, limited := always
    run := fun s _ _ => .done St.ok ((List.range 7).flatMap fun k => leBytes 1 (s.owner k) ++ leBytes 1 (vat s.svcRights k)) s }

/-- 0x0206 TEN_FAULT (R210). -/
def cmdTenFault : Cmd :=
  { op := 0x0206, rights := byZero, len := exactly 4, fields := fun _ _ p => 1 ≤ byteAt p 0 && byteAt p 0 ≤ 7 && zeroAt p 1 3
    run := fun s _ p =>
      if (s.ten (byteAt p 0)).state ≠ .ready then .done St.badField [] s else .done St.ok [] (faultTenant (byteAt p 0) 3 s) }

/-- The meaning of SYS_GET_INFO. -/
def execSysGetInfo (c : Call) (s : State) : Res := command cmdSysGetInfo c s
/-- The meaning of SYS_ECHO. -/
def execSysEcho (c : Call) (s : State) : Res := command cmdSysEcho c s
/-- The meaning of TEN_RESET. -/
def execTenReset (c : Call) (s : State) : Res := command cmdTenReset c s
/-- The meaning of SVC_ASSIGN. -/
def execSvcAssign (c : Call) (s : State) : Res := command cmdSvcAssign c s
/-- The meaning of TEN_ENABLE. -/
def execTenEnable (c : Call) (s : State) : Res := command cmdTenEnable c s
/-- The meaning of TEN_GET_STATUS. -/
def execTenGetStatus (c : Call) (s : State) : Res := command cmdTenGetStatus c s
/-- The meaning of SVC_GET. -/
def execSvcGet (c : Call) (s : State) : Res := command cmdSvcGet c s
/-- The meaning of TEN_FAULT. -/
def execTenFault (c : Call) (s : State) : Res := command cmdTenFault c s

end Sys2Proof.Machine
end

