-- ==== Sys2Proof/Machine/Irq.lean ====
section
/-!
DEFINITION. The interrupt view registers and the 0x0Dxx commands (spec/05_interrupt_sources.md, R236 to R267).
-/
namespace Sys2Proof.Machine
open Sys2Proof

/-- Sources of register index `n` whose bit is set in a word, lowest first. -/
def wordSources (n : Nat) (v : BitVec 32) : List Nat := ((List.range 32).filter fun b => v.getLsbD b).map fun b => 32 * n + b

/-- Clear latched bits of visible sources in one view (R238, R257). -/
def clearRaw (t : Nat) (l : List Nat) (s : State) : State :=
  (l.filter (visible s t)).foldl (fun s k => s.updView t fun v => { v with raw := v.raw &&& ~~~(BitVec.twoPow 128 k) }) s

/-- A W1C write of IRQ_RAW, with the sources that hardware raises in the same cycle: for those the set wins, counts, and is
a new rising of the pending bit (R247, R248). -/
def rawWrite (t n : Nat) (v : BitVec 32) (raised : List (Fin 128)) (s : State) : State :=
  (raised.map (·.val)).foldl (fun s k => raiseSrc k s) (if windowOpen s t then clearRaw t (wordSources n v) s else s)

/-- The meaning of IRQ_RAW_CLEAR. -/
def execIrqRawClear (t : Fin 8) (n : Fin 4) (value : BitVec 32) (raised : List (Fin 128)) (s : State) : Res :=
  s.running (rawWrite t.val n.val value raised)

/-- A write of IRQ_MASK: masking clears the pending bit, unmasking a latched bit makes the source go pending (R258, R259). -/
def maskWrite (t n : Nat) (v : BitVec 32) (s : State) : State :=
  if !windowOpen s t then s
  else (((List.range 32).map fun b => 32 * n + b).filter (visible s t)).foldl (fun s k =>
    let was := (s.view t).mask.getLsbD k
    let now := v.getLsbD (k - 32 * n)
    let s1 := s.updView t fun x =>
      { x with mask := if now then x.mask ||| BitVec.twoPow 128 k else x.mask &&& ~~~(BitVec.twoPow 128 k) }
    if was && !now && (s.view t).raw.getLsbD k then goPending t k s1 else s1) s

/-- The meaning of IRQ_MASK_WRITE. -/
def execIrqMaskWrite (t : Fin 8) (n : Fin 4) (value : BitVec 32) (s : State) : Res := s.running (maskWrite t.val n.val value)

/-- A write of IRQ_FORCE (R243, R267). -/
def forceWrite (t n : Nat) (v : BitVec 32) (s : State) : State :=
  if !windowOpen s t then s
  else ((wordSources n v).filter fun k => visible s t k && !(s.isT && radioSource k)).foldl (fun s k => raiseView t k s) s

/-- The meaning of IRQ_FORCE. -/
def execIrqForce (t : Fin 8) (n : Fin 4) (value : BitVec 32) (s : State) : Res := s.running (forceWrite t.val n.val value)

/-- The mask bit of an MSI-X vector is written: unmasking one whose pending-bit array bit is set sends its message and clears
that bit (R266). -/
def vectorMask (t v : Nat) (masked : Bool) (s : State) : State :=
  let x := vat (s.view t).msix v
  let s1 := s.updView t fun y => { y with msix := upd y.msix v fun e => { e with masked := masked } }
  if !masked && (s.view t).msixEnable && (s.view t).pba.getLsbD v then
    (s1.updView t fun y => { y with pba := y.pba &&& ~~~(BitVec.twoPow 16 v) }).emit (.msix t v x.addr x.data)
  else s1

/-- The meaning of VECTOR_UNMASK. -/
def execVectorUnmask (t : Fin 8) (v : Fin 16) (s : State) : Res :=
  s.running fun s => if windowOpen s t.val then vectorMask t.val v.val false s else s

/-! ### Commands (Tables IRQ.3, IRQ.4) -/

/-- IRQ_ROUTE[9:0] of a route. -/
def Route.word (r : Route) : Nat := r.vector % 16 + 128 * b2n r.vecEn + 256 * b2n r.msIrq + 512 * b2n r.irqN

/-- The route that a word gives. -/
def routeOf (v : Nat) : Route := { vector := v % 16, vecEn := v.testBit 7, msIrq := v.testBit 8, irqN := v.testBit 9 }

/-- A source's route changes; a pending one's takes effect at once (R255). -/
def setRoute (t k : Nat) (r : Route) (s : State) : State :=
  let changed : Bool := vat (s.view t).route k != r
  let s1 := s.updView t fun v => { v with route := vset v.route k r }
  if changed && visible s t k && (s.view t).pending k then goPending t k s1 else s1

/-- 0x0D01 IRQ_ROUTE_SET (R255, R256). -/
def cmdIrqRouteSet : Cmd :=
  { op := 0x0D01, rights := byZero, len := exactly 8
    fields := fun _ _ p =>
      byteAt p 0 ≤ 7 && byteAt p 1 ≤ 127 && inRange 1 128 (byteAt p 2) && byteAt p 1 + byteAt p 2 ≤ 128 && byteAt p 3 == 0 &&
        (rd p 4 2 &&& 0xFC70) == 0 && zeroAt p 6 2
    run := fun s _ p =>
      .done St.ok [] ((List.range (byteAt p 2)).foldl (fun s k => setRoute (byteAt p 0) (byteAt p 1 + k) (routeOf (rd p 4 2)) s) s) }

/-- IRQ_ROUTE[s] as a view reads it: zero for a source that is not visible (R237). -/
def routeWord (s : State) (t k : Nat) : Nat := if visible s t k then (vat (s.view t).route k).word else 0

/-- 0x0D02 IRQ_ROUTE_GET. -/
def cmdIrqRouteGet : Cmd :=
  { op := 0x0D02, rights := ownOrZero, limited := fun t p => namedTenant t p == t, len := exactly 4
    fields := fun _ t p =>
      namedTenant t p ≤ 7 && byteAt p 1 ≤ 127 && inRange 1 64 (byteAt p 2) && byteAt p 1 + byteAt p 2 ≤ 128 && byteAt p 3 == 0
    run := fun s t p =>
      .done St.ok ((List.range (byteAt p 2)).flatMap fun k => leBytes 2 (routeWord s (namedTenant t p) (byteAt p 1 + k))) s }

/-- 0x0D03 IRQ_GET_OWNERS: a closed ring's source, which belongs to nobody, reads as tenant 0's, whose view alone shows it
(R261; log entry 74). -/
def cmdIrqGetOwners : Cmd :=
  { op := 0x0D03, limited := always
    run := fun s _ _ => .done St.ok ((List.range 128).flatMap fun k => leBytes 1 ((srcOwner s k).getD 0)) s }

/-- The meaning of IRQ_ROUTE_SET. -/
def execIrqRouteSet (c : Call) (s : State) : Res := command cmdIrqRouteSet c s
/-- The meaning of IRQ_ROUTE_GET. -/
def execIrqRouteGet (c : Call) (s : State) : Res := command cmdIrqRouteGet c s
/-- The meaning of IRQ_GET_OWNERS. -/
def execIrqGetOwners (c : Call) (s : State) : Res := command cmdIrqGetOwners c s

end Sys2Proof.Machine
end

