-- ==== Sys2Proof/Machine/LoftCmds.lean ====
section
/-!
DEFINITION. The 0x03xx commands, OVERLOAD records and the retirement test (spec/03_loft_and_rings.md, R132 to R144, R151,
R152, R156, R157, R170 to R185).
-/
namespace Sys2Proof.Machine
open Sys2Proof

/-- 0x0301 LOFT_ALLOC (R171, R180). -/
def cmdLoftAlloc : Cmd :=
  { op := 0x0301, len := exactly 4, fields := fun _ _ p => inRange 1 32 (byteAt p 0) && zeroAt p 1 3
    run := fun s t p =>
      let n := byteAt p 0
      if (s.ten t).quota < (s.ten t).held + n then .done St.quota [] s
      else match allocMany t n s with
        | none => .done St.quota [] s
        | some (hs, s1) => .done St.ok (leBytes 1 n ++ zeros 3 ++ hs.flatMap (leBytes 4)) s1 }

/-- The status of a free (R132). -/
def freeStatus (s : State) (t h : Nat) : Nat :=
  let i := hIndex h
  let g := s.loft.tag i
  if !poolIndex i then St.badField
  else if !g.alloc || g.gen != hGen h then St.freeStale
  else if g.owner != hOwner h || g.owner != t then St.freeForeign
  else if g.pins ≠ 0 then St.busy
  else St.ok

/-- The payload of a LOFT_ABUSE record (R134). -/
def abusePayload (h status owner count total : Nat) : Bytes :=
  leBytes 4 h ++ leBytes 1 status ++ leBytes 1 owner ++ leBytes 1 (min 255 count) ++ leBytes 4 total

/-- An abuse: counted (R133); the 16th within 1 s faults a tenant other than 0, and is recorded; tenant 0's are recorded at
most once per second (R134). -/
def abuse (t h status : Nat) (s : State) : State :=
  let o := (s.loft.tag (hIndex h)).owner
  let s1 := s.updTen t fun x => { x with abuseTotal := inc32 x.abuseTotal, abuseTimes := s.up :: lastSecond s.up x.abuseTimes }
  let x := s1.ten t
  if t = 0 then
    let due : Bool := match x.abuseLogged with
      | none => true
      | some (a, _) => decide (a + 1000000 ≤ s.up)
    if !due then s1
    else crumb 0x03A1 3 0 (abusePayload h status o (x.abuseTotal - (x.abuseLogged.map (·.2)).getD 0) x.abuseTotal)
      (s1.updTen 0 fun y => { y with abuseLogged := some (s.up, y.abuseTotal) })
  else if x.state == .ready && decide (16 ≤ x.abuseTimes.length) then
    crumb 0x03A1 4 t (abusePayload h status o x.abuseTimes.length x.abuseTotal) (faultTenant t 1 s1)
  else s1

/-- One handle of a LOFT_FREE: its status and the state (R132, R133, R136). -/
def freeOne (t h : Nat) (s : State) : Nat × State :=
  let st := freeStatus s t h
  (st, if st = St.ok then freeYealm (hIndex h) s else if st = St.freeStale ∨ st = St.freeForeign then abuse t h st s else s)

/-- The handles of a LOFT_FREE in order: their statuses and the state (R172). -/
def freeList (t : Nat) : List Nat → State → List Nat × State
  | [], s => ([], s)
  | h :: l, s =>
    let (st, s1) := freeOne t h s
    let (r, s2) := freeList t l s1
    (st :: r, s2)

/-- 0x0302 LOFT_FREE (R172). -/
def cmdLoftFree : Cmd :=
  { op := 0x0302, limited := always, len := fun p => decide (4 ≤ p.length) && p.length == 4 + 4 * byteAt p 0
    fields := fun _ _ p => inRange 1 32 (byteAt p 0) && zeroAt p 1 3
    run := fun s t p =>
      let (l, s1) := freeList t ((List.range (byteAt p 0)).map fun k => rd p (4 + 4 * k) 4) s
      .done ((l.find? (· ≠ St.ok)).getD St.ok) (l.flatMap (leBytes 1)) s1 }

/-- Rings a tenant has open. -/
def openRings (s : State) (t : Nat) : Nat := ((List.range 32).filter fun n => (s.ring n).opened && (s.ring n).owner == t).length

/-- PAIR is valid in a RING_OPEN (Table LFT.13). -/
def pairOk (s : State) (t : Nat) (p : Bytes) : Bool :=
  let q := s.ring (byteAt p 3)
  if byteAt p 1 ≠ 0 then byteAt p 3 == 0
  else decide (byteAt p 3 < 32) && q.opened && q.type == .complete && q.owner == t && decide (byteAt p 2 ≤ q.log2) && q.pair.isNone

/-- The ring that a RING_OPEN opens: the one named, or the lowest free one. -/
def ringNamed (s : State) (p : Bytes) : Option Nat :=
  if byteAt p 0 = 255 then (List.range 32).find? fun n => !(s.ring n).opened
  else if (s.ring (byteAt p 0)).opened then none else some (byteAt p 0)

/-- The type that a code of Table LFT.5 names. -/
def RingType.ofCode (n : Nat) : RingType := if n = 0 then .submit else if n = 1 then .complete else if n = 2 then .rxframe else .event

/-- Clear the storage of a ring: nothing in it is written (R157). -/
def clearStorage (n : Nat) (l : Loft) : Loft :=
  let outside (i : Nat) : Bool := decide (i < 1024 + 32 * n) || decide (1056 + 32 * n ≤ i)
  { l with mem := l.mem.filter fun c => outside (c.1 / 4096)
           written := l.written.filter fun g => outside (g / 64)
           poison := l.poison.filter fun g => outside (g / 64) }

/-- A ring opens for a tenant (R157); a SUBMIT ring and its COMPLETE ring are paired. -/
def openRing (n t : Nat) (p : Bytes) (s : State) : State :=
  let type := RingType.ofCode (byteAt p 1)
  let pair := if type = .submit then some (byteAt p 3) else none
  let s1 := (s.updLoft (clearStorage n)).updRing n fun _ =>
    { opened := true, owner := t, type := type, log2 := byteAt p 2, pair := pair, thCount := rd p 4 2, thTimeout := rd p 6 2 }
  match pair with
  | some q => s1.updRing q fun r => { r with pair := some n }
  | none => s1

/-- 0x0303 RING_OPEN (R157, R173). -/
def cmdRingOpen : Cmd :=
  { op := 0x0303, len := exactly 8
    fields := fun s t p =>
      (byteAt p 0 ≤ 31 || byteAt p 0 == 255) && byteAt p 1 ≤ 3 && inRange 4 12 (byteAt p 2) && decide (rd p 4 2 ≤ 4096) && pairOk s t p
    run := fun s t p =>
      if byteAt p 1 = 3 ∧ (eventRing s t).isSome then .done St.busy [] s
      else match ringNamed s p with
        | none => .done St.busy [] s
        | some n =>
          if (s.ten t).ringLimit ≤ openRings s t then .done St.quota [] s
          else
            let s1 := openRing n t p s
            .done St.ok (leBytes 1 n ++ zeros 3 ++ leBytes 4 ((s1.ring n).base n)) s1 }

/-- 0x0304 RING_CLOSE (R174): a ring that is not the tenant's own open one is a wrong field (log entry 80). -/
def cmdRingClose : Cmd :=
  { op := 0x0304, limited := always, len := exactly 4
    fields := fun s t p =>
      byteAt p 0 ≤ 31 && zeroAt p 1 3 && (s.ring (byteAt p 0)).opened && (s.ring (byteAt p 0)).owner == t
    run := fun s t p =>
      let n := byteAt p 0
      let r := s.ring n
      if (r.type = .complete ∧ r.pair.isSome) ∨ (r.type = .event ∧ reservedSlots s t ≠ 0) ∨ r.closing then .done St.busy [] s
      else if r.type = .submit ∧ r.inFlight ≠ 0 then
        .accept { key := n, waits := true } (s.updRing n fun r => { r with head := r.tail, closing := true })
      else .done St.ok [] (closeRing n s) }

/-- Yealms that one tenant is committed to: the larger of quota and use (R138). -/
def commitment (x : Tenant) : Nat := max x.quota x.held

/-- 0x0305 LOFT_QUOTA_SET (R138, R139). -/
def cmdLoftQuotaSet : Cmd :=
  { op := 0x0305, rights := byZero, len := exactly 12
    fields := fun _ _ p => byteAt p 0 ≤ 7 && byteAt p 1 ≤ 32 && zeroAt p 2 2 && decide (rd p 8 4 ≤ rd p 4 4)
    run := fun s _ p =>
      let s1 := s.updTen (byteAt p 0) fun x => { x with ringLimit := byteAt p 1, quota := rd p 4 4, ingress := rd p 8 4 }
      if ((List.range 8).map fun t => commitment (s1.ten t)).sum ≤ s.loft.poolSize then .done St.ok [] s1 else .done St.quota [] s }

/-- A count of 4 bytes as a status reports it: saturating. -/
def sat4 (n : Nat) : Bytes := leBytes 4 (min n 0xFFFFFFFF)

/-- Yealms of the pool that are free. -/
def poolFree (l : Loft) : Nat := l.poolSize - (l.tags.filter fun p => p.2.alloc).length - l.testing.length

/-- The LOFT_GET_STATUS response (Table LFT.14). -/
def loftStatus (s : State) (t : Nat) : Bytes :=
  let x := s.ten t
  let mine := heldYealms s t
  sat4 x.quota ++ sat4 x.ingress ++ sat4 x.held ++ sat4 (mine.filter fun i => (s.loft.tag i).pins != 0).length ++ sat4 x.peak ++
    sat4 x.refFrames ++ sat4 x.refDisk ++ sat4 x.refRec ++ sat4 x.refCas ++ sat4 x.abuseTotal ++
    leBytes 1 (min 255 (lastSecond s.up x.abuseTimes).length) ++ leBytes 1 (openRings s t) ++ zeros 2 ++ sat4 x.foreignAperture ++
    sat4 x.foreignRing ++ sat4 x.corrected ++ sat4 (s.loft.poison.filter fun g => mine.contains (g / 64)).length ++
    sat4 (poolFree s.loft) ++ sat4 s.loft.poolSize ++ leBytes 2 s.loft.spares ++ zeros 2

/-- 0x0306 LOFT_GET_STATUS (R175). -/
def cmdLoftGetStatus : Cmd :=
  { op := 0x0306, rights := ownOrZero, limited := fun t p => namedTenant t p == t, len := exactly 4
    fields := fun _ t p => namedTenant t p ≤ 7 && zeroAt p 1 3
    run := fun s t p => .done St.ok (loftStatus s (namedTenant t p)) s }

/-- The meaning of LOFT_ALLOC. -/
def execLoftAlloc (c : Call) (s : State) : Res := command cmdLoftAlloc c s
/-- The meaning of LOFT_FREE. -/
def execLoftFree (c : Call) (s : State) : Res := command cmdLoftFree c s
/-- The meaning of RING_OPEN. -/
def execRingOpen (c : Call) (s : State) : Res := command cmdRingOpen c s
/-- The meaning of RING_CLOSE. -/
def execRingClose (c : Call) (s : State) : Res := command cmdRingClose c s
/-- The meaning of LOFT_QUOTA_SET. -/
def execLoftQuotaSet (c : Call) (s : State) : Res := command cmdLoftQuotaSet c s
/-- The meaning of LOFT_GET_STATUS. -/
def execLoftGetStatus (c : Call) (s : State) : Res := command cmdLoftGetStatus c s

/-! ### Overload records and retirement (R143, R151, R152, R183) -/

/-- The four refusal counts of a tenant (R143). -/
def refusals (x : Tenant) : List Nat := [x.refFrames, x.refDisk, x.refRec, x.refCas]

/-- The meaning of OVERLOAD: entrances have refused since the last record, and it is a second old (R143). -/
def execOverload (t : Fin 8) (s : State) : Res :=
  s.running fun s =>
    let x := s.ten t.val
    let old : Bool := match x.overloadAt with
      | some a => decide (a + 1000000 ≤ s.up)
      | none => true
    if !old || refusals x == x.overloadBase then s
    else
      let d := (refusals x).zipWith (fun a b => (a : Int) - b) x.overloadBase
      crumb 0x03A0 2 t.val (anyPayload 0x03A0 d) (s.updTen t.val fun y => { y with overloadBase := refusals y, overloadAt := some s.up })

/-- An index whose test failed is remapped to the next spare, recorded (R151), the last spare noted (R183). -/
def remapIndex (i : Nat) (s : State) : State :=
  let spare := 28672 + (4096 - s.loft.spares)
  let s1 := crumb 0x03A3 3 0 (anyPayload 0x03A3 [i]) (s.updLoft fun l =>
    { l with testing := setDel l.testing i, remap := mset l.remap i spare, spares := l.spares - 1, poison := l.poison.filter fun g => g / 64 ≠ i })
  if s1.loft.spares = 0 then crumb 0x03A2 4 0 (anyPayload 0x03A2 [i, 64, 0]) s1 else s1

/-- The pool shrinks by an index (R152). -/
def shrinkPool (i : Nat) (s : State) : State :=
  (s.updLoft fun l =>
    { l with testing := setDel l.testing i, gone := setIns l.gone i, poolSize := l.poolSize - 1, poison := l.poison.filter fun g => g / 64 ≠ i }).updTen 0
      fun x => { x with quota := x.quota - 1 }

/-- The meaning of YEALM_RETIRED: the retirement test of a freed poisoned yealm ends (R151, R152). -/
def execYealmRetired (yealm : Nat) (pass : Bool) (s : State) : Res :=
  s.running fun s =>
    if !s.loft.testing.contains yealm then s
    else if pass then
      s.updLoft fun l => { l with testing := setDel l.testing yealm, poison := l.poison.filter fun g => g / 64 ≠ yealm }
    else if s.loft.spares = 0 then shrinkPool yealm s
    else remapIndex yealm s

end Sys2Proof.Machine
end

