-- ==== Sys2Proof/Machine/Mirror.lean ====
section
/-!
DEFINITION. Mirrored recording over the cascade, and what becomes of frames queued for a link that stays down
(spec/17_declin_cascade.md, R887, R910 to R915, R936, Table CAS.8).
-/
namespace Sys2Proof.Machine
open Sys2Proof

/-! ### At the origin (R914) -/

/-- A copy's result at a position reaches the origin: verified counts at once; the last one that is not verified loses a
sector whose own copy is lost (R914). -/
def mirrorResult (g pos result : Nat) (s : State) : State :=
  match s.cascade.mirrors.find? fun m => m.gseq == g && m.waiting.contains pos with
  | none => s
  | some m =>
    let m1 := { m with waiting := m.waiting.filter (· ≠ pos), verified := m.verified || result == 0 }
    let s1 := s.updCas fun c => { c with mirrors := c.mirrors.map fun x => if x.gseq = g then m1 else x }
    match (recChan s1 m.channel).closed.find? fun x => x.gseq == some g && x.ended with
    | none => s1
    | some x =>
      if m1.verified then dropClosed m.channel x (mirrorDone (some g) s1)
      else if m1.waiting.isEmpty then recLost m.channel x (mirrorDone (some g) s1)
      else s1

/-- MIRROR_ACK (R914). -/
def execMirrorAck (rx : LaneRx) (s : State) : Res :=
  laneRow 0x33 rx (fun p s => mirrorResult (rd p 0 8) rx.origin.val (byteAt p 8) s) s

/-! ### At the mirror (R912, R913, R915, R936) -/

/-- Change what this module knows of an origin. -/
def State.updMirror (s : State) (o : Nat) (f : MirrorIn → MirrorIn) : State :=
  s.updCas fun c => { c with mirrorIn := upd c.mirrorIn o f }

/-- The segment of a mirrored sector by channel, origin and START: the one open, or the one of a sector still waiting, or a
new one (R912). -/
def mirrorSegment (n o start : Nat) (s : State) : Nat × State :=
  match s.diskq.segs.find? fun g =>
      g.channel == n && g.origin == some o && g.start == start && g.flags.testBit 0 && !g.retired && (mget s.diskq.segEnds g.id).isNone with
  | some g => (g.id, s)
  | none =>
    match (recChan s n).closed.find? fun x => x.origin.map (·.1) == some o && x.start == start with
    | some x => (x.segment, s)
    | none => (s.diskq.nextSeg, s.updDsk fun d => { d with nextSeg := d.nextSeg + 1 })

/-- A mirrored sector joins the closed sectors of its channel here: fields CHANNEL, FLAGS, SEQ, SEG_START, SEGMENT_S,
yealm (Table CAS.7). -/
def mirrorQueue (o g : Nat) (f : List Nat) (d : Bytes) (late : Bool) (s : State) : State :=
  let n := f.getD 0 0
  let start := f.getD 3 0
  let (id, s1) := mirrorSegment n o start s
  let x : ClosedSector :=
    { base := f.getD 2 0, firstSeq := f.getD 2 0, lastSeq := f.getD 2 0, data := d, flags := (f.getD 1 0 % 4) ||| b2n late, segment := id, start
      stop := start + f.getD 4 0, yealm := f[5]?, origin := some (o, g) }
  (s1.updRecChan n fun c => { c with closed := c.closed ++ [x] }).updMirror o fun m =>
    { m with lastGseq := g, held := m.held.filter fun h => h.1 ≠ g }

/-- A GSEQ's predecessor has been handed over: the one before it, the last of an earlier lease, or none is known yet. -/
def mirrorNext (m : MirrorIn) (g : Nat) : Bool :=
  m.lastGseq == 0 || m.lastGseq + 1 == g || (g % 4096 == 0 && m.lastGseq % 4096 == 4095)

/-- Hand over the held sectors of an origin that are next in order (R913). -/
def mirrorDrain (o : Nat) : Nat → State → State
  | 0, s => s
  | fuel + 1, s =>
    let m := vat s.cascade.mirrorIn o
    match m.held with
    | (g, f, d, _) :: _ => if mirrorNext m g then mirrorDrain o fuel (mirrorQueue o g f d false s) else s
    | [] => s

/-- Insert a held sector by GSEQ. -/
def insMirror (x : Nat × List Nat × Bytes × Nat) : List (Nat × List Nat × Bytes × Nat) → List (Nat × List Nat × Bytes × Nat)
  | [] => [x]
  | y :: l => if x.1 < y.1 then x :: y :: l else y :: insMirror x l

/-- A MIRROR_ACK that is not kept. -/
def mirrorAnswer (o g result : Nat) (s : State) : State := sendTo o 0x33 (leBytes 8 g ++ leBytes 1 result ++ zeros 3) s

/-- A MIRROR frame at its destination (R912, R913, R915, R936). -/
def onMirror (o : Nat) (p : Bytes) (s : State) : State :=
  let g := rd p 0 8
  let n := rd p 8 2
  let s1 := s.updMirror o fun m => { m with lastAt := s.up }
  let m := vat s1.cascade.mirrorIn o
  let heads : Bool := s.channel.state = .tracking || s.channel.state = .seeking
  let own := recOwner s
  if 511 < n then mirrorAnswer o g 2 s1
  else if m.lastGseq ≠ 0 ∧ g ≤ m.lastGseq then
    match mget m.acked g with
    | some r => mirrorAnswer o g r s1
    | none => s1
  else if m.held.any fun h => h.1 == g then s1
  else if (recChan s n).flags.testBit 0 then mirrorAnswer o g 4 s1
  else if s.supply.mode ≠ .run ∨ !heads ∨ s.diskq.logArea.isNone then mirrorAnswer o g 3 s1
  else if (s.ten own).ingress ≤ (s.ten own).held then
    mirrorAnswer o g 2 (s1.updTen own fun x => { x with refCas := inc32 x.refCas })
  else match allocOne own s1 with
    | none => mirrorAnswer o g 2 (s1.updTen own fun x => { x with refCas := inc32 x.refCas })
    | some (h, s2) =>
      let f := [n, byteAt p 10, rd p 12 4, rd p 16 6, rd p 22 4, hIndex h]
      let s3 := s2.updMirror o fun m => { m with held := insMirror (g, f, fit 4096 (p.drop 32), s.up) m.held }
      mirrorDrain o 4096 s3

/-- MIRROR. -/
def execMirror (rx : LaneRx) (s : State) : Res := laneRow 0x32 rx (onMirror rx.origin.val) s

/-- MIRROR_PREDECESSOR_TIMEOUT: the oldest held sector of an origin has waited 100 ms (R913). -/
def execMirrorPredecessorTimeout (origin : Fin 8) (waitedUs : Nat) (s : State) : Res :=
  s.running fun s =>
    match (vat s.cascade.mirrorIn origin.val).held with
    | (g, f, d, _) :: _ =>
      if 100000 ≤ waitedUs then mirrorDrain origin.val 4096 (mirrorQueue origin.val g f d true s) else s
    | [] => s

/-- MIRROR_SEGMENT_CUT: no MIRROR of an origin for 2 s closes its mirrored segments with CUT (Table CAS.8). -/
def execMirrorSegmentCut (origin : Fin 8) (silentMs : Nat) (s : State) : Res :=
  s.running fun s =>
    if silentMs < 2000 then s
    else (s.diskq.segs.filter fun g => g.origin == some origin.val && g.flags.testBit 0 && !g.retired).foldl (fun s g =>
      let s1 := s.updDsk fun d => { d with segEnds := mset d.segEnds g.id (mgetD d.segEnds g.id 0 ||| 16) }
      if segmentBusy s1 g.channel g.id then s1 else closeSeg 16 g s1) s

/-! ### LINK_DOWN_RELEASE (R887) -/

/-- What becomes of one frame of this module that waits for a link. -/
def releaseFrame (f : LaneFrame) (s : State) : State :=
  if f.origin ≠ s.cascade.position then s
  else if f.type = 0x30 then
    match findCopy s (rd f.payload 0 2) with
    | some x => copyDone x St.notReady s
    | none => s
  else if f.type = 0x32 ∧ !f.encrypted then mirrorResult (rd f.payload 0 8) f.dest 2 s
  else s

/-- A record still queued stays with its recorder: the forward pointer goes back before it (R887, R916). -/
def unforward (f : LaneFrame) (s : State) : State :=
  if f.type = 0x20 ∧ f.origin = s.cascade.position then
    s.updCas fun c => { c with fwdPtr := min c.fwdPtr (rd f.payload 0 6 - 1) }
  else s

/-- LINK_DOWN_RELEASE: the link has been down for 1 s (R887); what is unacknowledged is resent when it returns (R886). -/
def execLinkDownRelease (lane : Fin 2) (downMs : Nat) (s : State) : Res :=
  s.running fun s =>
    let ln := s.laneOf lane.val
    if ln.state = .up ∨ ln.state = .switching ∨ downMs < 1000 then s
    else
      let s1 := s.updLane lane.val fun x => { x with queue := [] }
      ln.queue.foldl (fun s f => unforward f s) ((ln.unacked ++ ln.queue).foldl (fun s f => releaseFrame f s) s1)

end Sys2Proof.Machine
end

