-- ==== Sys2Proof/Machine/Supply.lean ====
section
/-!
DEFINITION. Power failure and hold-up, SHELF, rails and auxiliary outputs, thermal protection, the Miller watchdog, the
mode and supply commands (spec/19_supply_and_modes.md; R942 to R958, R970 to R973 of spec/18_coincidences.md; R1078 of
spec/21_electrical_and_package.md).
-/
namespace Sys2Proof.Machine
open Sys2Proof

/-! ### PFAIL: segments and sectors (R946, R947, R973) -/

/-- Insert a segment by ascending channel, after those of its own channel. -/
def insChannel (g : Segment) : List Segment → List Segment
  | [] => [g]
  | x :: l => if x.channel ≤ g.channel then x :: insChannel g l else g :: x :: l

/-- The open segments in ascending channel order (R946). -/
def openSegments (s : State) : List Segment :=
  (s.diskq.segs.filter fun g => g.flags.testBit 0 && !g.retired).foldl (fun l g => insChannel g l) []

/-- The close of an open segment at PFAIL: its FLAGS bits and what the record holds (R947, R973). -/
def pfailClose (s : State) (g : Segment) : Nat × Segment :=
  let ending := mget s.diskq.segEnds g.id
  let past : Bool := ending.isSome || decide (g.stop * 1000000 + (recChan s g.channel).mergeUs ≤ taiUs s)
  if past && !segmentBusy s g.channel g.id then (ending.getD 0, g)
  else
    let v := g.verified.getD (0, 0)
    (if ending = some 32 then 32 else 16, { g with lastLba := v.1, lastSeq := v.2 })

/-- Every open segment closes, in order (R946, R947). -/
def pfailSegments (s : State) : State :=
  ((openSegments s).map (pfailClose s)).foldl (fun s p => closeSeg p.1 p.2 s) s

/-- What a channel holds at PFAIL is lost: open and closed sectors, packets held out of order; its next sector carries GAP
(R646, R947, R948). -/
def pfailChannel (s : State) (n : Nat) : State :=
  let c := recChan s n
  let handed := c.closed.filter fun x => x.lba.isSome && !x.ended
  let s1 := handed.foldl (fun s x => recCount n 10 (recWriteOver x s)) s
  let s2 := (c.opened.filterMap (·.yealm) ++ c.closed.filterMap (·.yealm)).foldl (fun s i => freeYealm i s) s1
  s2.updRecChan n fun c => { c with opened := [], closed := [], heldPkts := [], segment := none, gapNext := true }

/-- The recording work that PFAIL ends. -/
def pfailRecording (s : State) : State :=
  ((s.diskq.chans.map (·.1)).foldl pfailChannel s).updCas fun c =>
    { c with mirrors := [], mirrorIn := c.mirrorIn.map fun m => { m with held := [] } }

/-! ### PFAIL: the other work in progress (Table COI.2) -/

/-- Channel A at PFAIL (R516, R519, R541). -/
def pfailMotorA (s : State) : State :=
  match s.motor.a.state with
  | .accel | .atSpeed | .pullIn | .locked | .decel =>
    (spinTo .harvest (finishStart St.notReady s)).updA fun a =>
      { a with stopWait := false, emergency := false, clamp := false, regen := false, autoWait := false }
  | .align | .ramp => stoppedA (finishStart St.notReady s)
  | .stopped => driveStep 0 0 s
  | .brake | .harvest | .fault => s

/-- All channel B gate outputs go low (R516). -/
def pfailMotorB (s : State) : State :=
  floatB (s.updB fun b => { b with state := if b.state = .fault then .fault else .stopped, speed := 0, restartWait := false, retryWait := false })

/-- OTP programming at PFAIL: the rows left of a region are burned; a rollback commit burns one row and stops (R303). -/
def pfailOtp (s : State) : State :=
  match s.boot.burn with
  | none => s
  | some b =>
    if b.region ≠ 7 then burnAll s
    else
      let s1 := (burnRows 1 s).updBoot fun x => { x with burn := none }
      (finish 0x0C04 0 (s1.draw 5 % 256) [] (crumb 0x0C81 2 0 (anyPayload 0x0C81 [rollback s1]) s1)).drawn

/-- Disk commands count as ended (R631, R953): their key uses are over, nothing of them is on the medium; they complete when
PFAIL clears (R997). -/
def pfailCommands (s : State) : State :=
  let s1 := s.diskq.cmds.foldl (fun s c =>
    let s1 := if c.sealLoad ≠ 0 then keyEnd c.sealSlot c.sealLoad s else s
    if c.xtsLoad ≠ 0 then keyEnd c.xtsSlot c.xtsLoad s1 else s1) s
  s1.updDsk fun d => { d with cmds := d.cmds.map fun c =>
    { c with sealLoad := 0, xtsLoad := 0, onMedium := none, abort := some (c.abort.getD St.notReady) } }

/-- Retiring key material is zeroised at once (R953). -/
def pfailKeys (s : State) : State := (List.range 16).foldl (fun s i => zeroiseRetiring i s) s

/-- A mode change in progress is abandoned, entry to SHELF excepted; a commanded entry to SAFE goes back to the mode before it
when no other cause stands (R1003). -/
def pfailChange (s : State) : State :=
  match s.supply.change with
  | none => s
  | some c =>
    if c.target = 0 then s
    else if c.target = 3 then
      let s1 := (clearSafe 3 s).updSup fun x => { x with change := none }
      let back (s : State) : State := setMode c.fromMode (s.updSup fun x => { x with safeEntry := none, safeN := true })
      finishMode St.notReady (if s1.supply.safeCause = 0 ∧ s1.supply.safeEntry.isSome then back s1 else s1)
    else abandonChange St.notReady s

/-! ### PFAIL: islands (R994, R997) -/

/-- A port island stops: its link goes down. -/
def stopPort (s : State) (p : Nat) : State := portIsland p false (portLinkDown p s)

/-- Both lanes' links go down. -/
def lanesDown (s : State) : State := linkDown 1 (linkDown 0 s)

/-- The islands that hold-up stops (R994). -/
def holdUpIslands (s : State) : State :=
  let s1 := s.updSup fun x => { x with heldIsl := some x.isl, millerSlow := true }
  let s2 := lanesDown ((List.range 6).foldl stopPort s1)
  let s3 := stopRadio s2
  let s4 := sparStop 0 (calStop [5, 6, 7, 8, 9, 10, 11, 12, 13] (closeGates s3))
  s4.updIsl fun i => { i with cascade := false, channel := false, crypto := false }

/-- The hold-up work has ended with the retract: the servo island stops, VAUX turns off, channel A brakes, and the completions
held back are written (R518, R952, R982). -/
def holdUpEnd (s : State) : State :=
  let s1 := (calStop [14] s).updSup fun x =>
    { x with holdUp := false, isl := { x.isl with servo := false }, vaux5 := { x.vaux5 with on := false }, vaux3 := { x.vaux3 with on := false } }
  let s2 := if s1.motor.a.state = .harvest then emergencyBrake s1 else s1
  writeHeldBack s2

/-- The islands that ran at PFAIL run again (R994, R997); the channel and servo islands stay stopped once SAFE was entered
(R998, R1007). -/
def restoreIslands (s : State) : State :=
  match s.supply.heldIsl with
  | none => s
  | some i =>
    let isl := { i with channel := i.channel && s.supply.sdRefclk && s.supply.mode != .safe, servo := i.servo && s.supply.mode != .safe
                        radio := i.radio && s.supply.sdRefclk }
    let s1 := s.updSup fun x => { x with isl := isl, heldIsl := none, millerSlow := x.mode == .keep }
    let s2 := if isl.channel then sparResume 0 s1 else s1
    if isl.radio then sparResume 2 s2 else s2

/-- A VAUX output turns on unless it is latched off (R982, R983). -/
def vauxOn (v : Vaux) : Vaux := if v.latchedOff then v else { v with on := true, tripped := false }

/-! ### PFAIL (R991 to R997, R1020) -/

/-- The PFAIL record's payload (R992). -/
def pfailPayload (vin : Nat) (s : State) : Bytes := leBytes 2 vin ++ leBytes 1 s.supply.mode.code ++ leBytes 1 (spinCode s.motor.a.state)

/-- PFAIL is latched: PFAIL_N low (R992). -/
def latchPfail (vin : Nat) (s : State) : State :=
  s.updSup fun x => { x with pfail := true, pfailN := false, pfailAt := s.up, pfailCount := inc32 x.pfailCount, vin := vin }

/-- What the hardware does at once: PA_WG low until device reset, the hardware path mute, the bridges (R516, R559, R951). -/
def pfailHardware (s : State) : State :=
  pfailMotorB (pfailMotorA (hardMute (closeGates (s.updChn fun c => { c with wgBlocked := true }))))

/-- PFAIL in the KEEP, RUN or SAFE mode, or during their changes: the hold-up work of Table PWR.4. -/
def holdUpWork (vin : Nat) (s : State) : State :=
  let pay := pfailPayload vin s
  let s1 := pfailHardware ((latchPfail vin s).updSup fun x => { x with holdUp := true })
  let s2 := pfailOtp (startUnload s1)
  let s3 := pfailSegments (raiseCrumb 124 0x01A0 5 0 pay s2)
  let s4 := flushStaging (radioLeaveRun (pfailRecording s3))
  let s5 := pfailChange (pfailKeys (pfailCommands s4))
  let s6 := holdUpIslands s5
  if headsLoaded s6 then s6 else holdUpEnd s6

/-- The meaning of PFAIL: VIN, mV, below PFAIL_MV for `forUs` (R991). In the ROM stage it ends the boot (R304, R1020). -/
def execPfail (vin forUs : Nat) (s : State) : Res :=
  s.running fun s =>
    if s.supply.pfailMv ≤ vin ∨ forUs < 20 ∨ s.supply.pfail then s
    else if s.campel then holdUpWork vin s
    else (pfailOtp (latchPfail vin s)).updBoot fun b => { b with starting := false }

/-- PFAIL clears without a device reset (R520, R944, R951, R997). -/
def pfailOver (s : State) : State :=
  let ms := (s.up - s.supply.pfailAt) / 1000
  let s1 := restoreIslands (s.updSup fun x =>
    { x with pfail := false, pfailN := true, lastPfailMs := min 0xFFFFFFFF ms, vaux5 := vauxOn x.vaux5, vaux3 := vauxOn x.vaux3 })
  let s2 := endAll St.notReady (crumb 0x0181 2 0 (anyPayload 0x0181 [ms]) s1)
  let s3 := if s2.supply.mode = .run then radioEnterRun s2 else s2
  autoStart (retargetB (takeForce s3))

/-- The meaning of PFAIL_CLEARED: VIN, mV, above 11.0 V for `forMs` (R992, R997, R1020). The retract has ended by then (R518). -/
def execPfailCleared (vin forMs : Nat) (s : State) : Res :=
  s.running fun s =>
    if vin ≤ 11000 ∨ forMs < 100 ∨ !s.supply.pfail ∨ s.supply.holdUp then s
    else
      let s1 := s.updSup fun x => { x with vin := vin }
      if s.campel then pfailOver s1 else startReset 9 s1

/-! ### Entering SHELF (R1004, R1005) -/

/-- Channel A is at rest for entry to SHELF: STOPPED, or in FAULT (log entry 45). -/
def shelfReady (s : State) : Bool :=
  s.supply.change.any (fun c => c.target == 0) && (s.motor.a.state == .stopped || s.motor.a.state == .fault) && !headsLoaded s &&
    (s.diskq.cmds.isEmpty || s.supply.pfail) && !s.supply.holdUp

/-- Steps 4 to 6 of R1004 once channel A is at rest; a wake that was held wakes the module (R1005). -/
def shelfFinish (s : State) : State :=
  if !shelfReady s then s
  else
    let old := (s.supply.change.map (·.fromMode.code)).getD 0
    let s1 := powerOff .shelf (zeroiseAll (flushStaging (modeChanged old 0 s)))
    match s1.supply.heldWake with
    | some c => if 10500 ≤ s1.supply.vin then startReset c s1 else s1
    | none => s1

/-- Entry to SHELF starts (R1004). -/
def startShelf (s : State) : State :=
  let s1 := s.updSup fun x => { x with change := some { target := 0, fromMode := x.mode, isl := x.isl } }
  shelfFinish (retargetB (if s.supply.mode = .run then leaveRun s1 else s1))

/-- The meaning of SHELF_STOP_TIMEOUT: `forS` seconds into entry to SHELF (R1004). -/
def execShelfStopTimeout (forS : Nat) (s : State) : Res :=
  s.running fun s =>
    if s.supply.change.any (fun c => c.target == 0) ∧ 30 ≤ forS then shelfFinish (emergencyStop s) else s

/-- The meaning of BRAKE_END (R514, R520, R530, R1004). -/
def execBrakeEnd (b : Bool) (ms : Nat) (s : State) : Res :=
  s.running fun s =>
    if ms < 1000 then s
    else
      let s1 := shelfFinish (brakeEnd b s)
      if s1.motor.a.autoWait && s1.motor.a.state == .stopped then autoStart (s1.updA fun a => { a with autoWait := false }) else s1

/-! ### Thermal protection (R1010 to R1013, R1021) -/

/-- The rails go off after a trip: channel A brakes, then everything but VGUARD and the brake supply is off (R1012, R1013). -/
def tripOff (s : State) : State :=
  let s1 := match s.motor.a.state with
    | .stopped | .brake => s
    | _ => emergencyBrake s
  let b := powerOff .tripped s1
  { b with supply := { b.supply with afterTrip := true, thermN := false } }

/-- The meaning of HEADS_PARKED (R580, R581): the hold-up work, a trip or entry to SHELF that waited for it goes on. -/
def execHeadsParked (s : State) : Res :=
  s.running fun s =>
    if s.channel.state ≠ .unloading then s
    else
      let s1 := headsParked s
      let s2 := if s1.supply.holdUp then holdUpEnd s1 else s1
      if s2.supply.tripping then tripOff s2 else shelfFinish s2

/-- The trip (R1012): in the Campel stage its record is written and staging flushed. -/
def trip (tj : Int) (s : State) : State :=
  let s1 := hardMute (closeGates (s.updSup fun x => { x with tj := tj, tripping := true, thermN := false }))
  let s2 := startUnload s1
  let s3 := if s.campel then flushStaging (crumb 0x01A3 5 0 (anyPayload 0x01A3 [tj]) s2) else s2
  if headsLoaded s3 then s3 else tripOff s3

/-- The meaning of THERM_TRIP: Tj in 0.1 °C for `forUs` (R1012). -/
def execThermTrip (tj : Int) (forUs : Nat) (s : State) : Res :=
  s.running fun s => if tj < 1250 ∨ forUs < 100 ∨ s.supply.tripping then s else trip tj s

/-- The meaning of THERM_WARN: Tj in 0.1 °C in `n` consecutive measurements (R749, R1010). -/
def execThermWarn (tj : Int) (n : Nat) (s : State) : Res :=
  s.running fun s =>
    let s0 := s.updSup fun x => { x with tj := tj }
    if tj < 1000 ∨ n < 10 ∨ s.supply.thermWarn then s0
    else
      let s1 := raiseCrumb 125 0x01A1 3 0 (anyPayload 0x01A1 [tj])
        (s0.updSup fun x => { x with thermWarn := true, thermN := false, thermWarns := inc32 x.thermWarns })
      syncSteps (s1.updRad fun r => { r with thermBack := true })

/-- The meaning of THERM_WARN_CLEAR: Tj below 95 °C for `forS` (R749, R1010, R1011). -/
def execThermWarnClear (tj : Int) (forS : Nat) (s : State) : Res :=
  s.running fun s =>
    let s0 := s.updSup fun x => { x with tj := tj }
    if 950 ≤ tj ∨ forS < 60 ∨ !s.supply.thermWarn then s0
    else
      let s1 := clearSafe 2 (s0.updSup fun x => { x with thermWarn := false, thermCrit := false, thermN := true })
      syncSteps (s1.updRad fun r => { r with thermBack := false })

/-- The meaning of THERM_CRIT (R1011, R1024). -/
def execThermCrit (tj : Int) (n : Nat) (s : State) : Res :=
  s.running fun s =>
    let s0 := s.updSup fun x => { x with tj := tj }
    if tj < 1150 ∨ n < 10 ∨ s.supply.thermCrit then s0
    else enterSafe 2 (raiseCrumb 126 0x01A2 4 0 (anyPayload 0x01A2 [tj]) (s0.updSup fun x => { x with thermCrit := true }))

/-! ### Rails and auxiliary outputs (R978 to R984, R1027, R1028) -/

/-- A rail fault whose action is DEVICE RESET (R979); during a retract the reset follows its end (R1027). -/
def railReset (s : State) : State :=
  if s.channel.state = .unloading then s.updSup fun x => { x with resetNext := some (max 6 (x.resetNext.getD 0)) }
  else if headsLoaded s then guardRetract 6 (pfailMotorA s)
  else startReset 6 s

/-- A rail fault whose action is SAFE (R978, R980); without VGATE channel A floats. -/
def railSafe (rail : Nat) (s : State) : State :=
  let s1 := raiseCrumb 127 0x01A5 4 0 (anyPayload 0x01A5 [rail]) s
  let s2 := if rail = 8 then
      match s1.motor.a.state with
      | .stopped | .fault => driveStep 0 0 s1
      | _ => driveStep 0 0 (faultA 0 s1)
    else s1
  enterSafe 6 s2

/-- The meaning of RAIL_FAULT: a rail of Table PWR.2, out of regulation for `forUs` (R978); VGUARD has none. -/
def execRailFault (rail : Fin 9) (forUs : Nat) (s : State) : Res :=
  s.running fun s =>
    if rail.val = 0 ∨ forUs < 10 ∨ !vat s.supply.rails rail.val then s
    else
      let s1 := s.updSup fun x => { x with rails := vset x.rails rail.val false }
      if rail.val ≤ 4 then railReset s1 else railSafe rail.val s1

/-- The meaning of RAIL_RECOVERED: in regulation for `forMs` (R980). -/
def execRailRecovered (rail : Fin 9) (forMs : Nat) (s : State) : Res :=
  s.running fun s =>
    if forMs < 1000 then s
    else
      let s1 := s.updSup fun x => { x with rails := vset x.rails rail.val true }
      if s1.supply.rails.all id then clearSafe 6 s1 else s1

/-- An output of the two. -/
def vauxOf (s : State) (five : Bool) : Vaux := if five then s.supply.vaux5 else s.supply.vaux3
/-- Change an output of the two. -/
def updVaux (five : Bool) (f : Vaux → Vaux) (s : State) : State :=
  s.updSup fun x => if five then { x with vaux5 := f x.vaux5 } else { x with vaux3 := f x.vaux3 }

/-- An output held in limit turns off (R983); without VAUX5 loaded heads retract blind and the channel is in FAULT (R984). -/
def vauxFault (five : Bool) (ma : Nat) (s : State) : State :=
  let v := vauxOf s five
  let s1 := raiseCrumb 127 0x01A6 4 0 (anyPayload 0x01A6 [b2n five, ma])
    (updVaux five (fun v => { v with on := false, tripped := v.retries < 3, latchedOff := decide (3 ≤ v.retries), ma := 0 }) s)
  if five && v.on && headsLoaded s then channelFault (s1.updChn fun c => if c.state = .unloading then c else { c with servoValid := false })
  else s1

/-- The meaning of VAUX_FAULT: VAUX5 or VAUX3 at a load current, mA, for `forMs` (R983). -/
def execVauxFault (five : Bool) (ma forMs : Nat) (s : State) : Res :=
  s.running fun s =>
    if forMs < 10 ∨ ma < (if five then 600 else 300) ∨ !(vauxOf s five).on then s else vauxFault five ma s

/-- The meaning of VAUX_RETRY: `ms` after it turned off (R983). -/
def execVauxRetry (five : Bool) (ms : Nat) (s : State) : Res :=
  s.running fun s =>
    if ms < 1000 ∨ !(vauxOf s five).tripped ∨ s.supply.pfail then s
    else updVaux five (fun v => { v with on := true, tripped := false, retries := v.retries + 1 }) s

/-! ### SD_REFCLK (R1078) -/

/-- SD_REFCLK is lost: the links stay down, the channel and radio islands stop. -/
def clockLost (s : State) : State :=
  let s1 := s.updSup fun x => { x with sdRefclk := false, clkRadio := x.isl.radio }
  let s2 := lanesDown ((List.range 6).foldl (fun s p => portLinkDown p s) s1)
  let s3 := if s2.supply.isl.channel then
      sparStop 0 (calStop [13] (closeGates ((startUnload (endAll St.notReady s2)).updIsl fun i => { i with channel := false })))
    else s2
  syncChron (stopRadio s3)

/-- The clock is outside ±200 ppm or absent. -/
def clockBad (present : Bool) (ppm : Int) : Bool := !present || decide (200 < ppm.natAbs)

/-- The meaning of SD_REFCLK_LOSS. -/
def execSdRefclkLoss (present : Bool) (ppm : Int) (s : State) : Res :=
  .next (if clockBad present ppm ∧ s.supply.sdRefclk then
      (if s.powered then clockLost s else s.updSup fun x => { x with sdRefclk := false })
    else s)

/-- SD_REFCLK is back: the islands of the mode start (R1078). -/
def clockBack (s : State) : State :=
  let s1 := s.updSup fun x => { x with sdRefclk := true, clkRadio := false }
  if s.supply.pfail then s1
  else match s.supply.mode with
    | .run => radioEnterRun (startRadio (startChannel s1))
    | .safe => if s.supply.clkRadio then startRadio s1 else s1
    | _ => s1

/-- The meaning of SD_REFCLK_RESTORED. -/
def execSdRefclkRestored (ppm : Int) (s : State) : Res :=
  .next (if clockBad true ppm ∨ s.supply.sdRefclk then s
    else if s.powered then syncChron (clockBack s) else s.updSup fun x => { x with sdRefclk := true })

/-! ### The Miller watchdog (R1014 to R1016, R1026) -/

/-- The Miller island restarts: outstanding requests are abandoned, tokens never completed (R1015). -/
def millerRestart (s : State) : State :=
  let s1 := unpinAll (s.jobs.flatMap (·.pins)) { s with jobs := [] }
  { s1 with tenants := s1.tenants.map fun x => { x with busy := false, outstanding := none, awaiting := 0, resetToken := none } }

/-- The watchdog expired: SAFE, source 123 and its record; the cause clears as Campel has restarted (R1015). -/
def watchdog (s : State) : State :=
  let s1 := enterSafe 4 (millerRestart (s.updSup fun x => { x with wdogAt := some s.up }))
  clearSafe 4 (raiseCrumb 123 0x01A4 5 0 (anyPayload 0x01A4 [b2n s.supply.wdogAt.isSome]) s1)

/-- The meaning of MILLER_WATCHDOG: `ms` without a restart, whether the image's digest is right (R1014 to R1016). -/
def execMillerWatchdog (ms : Nat) (imageOk : Bool) (s : State) : Res :=
  s.running fun s =>
    if ms < 250 ∨ !s.campel ∨ s.supply.pfail then s
    else if s.supply.wdogAt.any (fun t => decide (s.up ≤ t + 3600000000)) ∨ !imageOk then startReset 5 s
    else watchdog s

/-! ### The mode commands (Table PWR.6, R1000 to R1006, R1022, R1023, R1029) -/

/-- The meaning of MODE_CHANGE_COMPLETE (Table PWR.6, R1007). -/
def execModeChangeComplete (s : State) : Res := s.running modeComplete

/-- SYS_SET_MODE of a tenant other than 0 is passed to tenant 0 (R222). -/
def modeRequest (t m : Nat) (s : State) : Reply :=
  if (eventRing s 0).isNone then .done St.busy [] s else .done St.ok [] (postEvent 0 4 0x0102 t (leBytes 8 m) s)

/-- SYS_SET_MODE of tenant 0 (Table PWR.6, R1002, R1006). -/
def setModeZero (m : Nat) (s : State) : Reply :=
  if s.supply.change.isSome ∨ !s.campel ∨ (s.supply.pfail ∧ m ≠ 0) then .done St.busy [] s
  else if m = 0 then .done St.ok [] (startShelf s)
  else if m = s.supply.mode.code then .done St.ok [] s
  else if m = 3 then
    .accept { waits := true } (safeEntry (s.updSup fun x =>
      { x with change := some { target := 3, fromMode := x.mode, isl := x.isl }, safeCause := x.safeCause ||| BitVec.twoPow 8 3 }))
  else if s.supply.mode = .safe ∧ s.supply.safeCause &&& ~~~(BitVec.twoPow 8 3) ≠ 0 then .done St.busy [] s
  else .accept { waits := true } (startChange m s)

/-- 0x0102 SYS_SET_MODE. -/
def cmdSysSetMode : Cmd :=
  { op := 0x0102, limited := fun t _ => t ≠ 0, rom := true, ownPfail := true, len := exactly 4
    fields := fun _ _ p => byteAt p 0 ≤ 3 && zeroAt p 1 3
    run := fun s t p => if t = 0 then setModeZero (byteAt p 0) s else modeRequest t (byteAt p 0) s }

/-- 0x0104 SYS_SUPPLY_CONFIG (R991, R1019). -/
def cmdSysSupplyConfig : Cmd :=
  { op := 0x0104, rights := byZero, len := exactly 4
    fields := fun _ _ p => inRange 9500 10500 (rd p 0 2) && rd p 0 2 % 100 == 0 && zeroAt p 2 2
    run := fun s _ p => .done St.ok [] (s.updSup fun x => { x with pfailMv := rd p 0 2 }) }

/-- 0x0105 SYS_SUPPLY_STATUS (Table PWR.11). -/
def cmdSysSupplyStatus : Cmd :=
  { op := 0x0105, limited := always
    run := fun s _ _ =>
      let x := s.supply
      .done St.ok (leBytes 2 x.vin ++ leBytes 2 x.vinMa ++ leInt 2 x.tj ++ leBytes 2 x.pfailMv ++
        leBytes 2 (maskOf (List.range 9) fun i => vat x.rails i) ++
        leBytes 1 (b2n x.vaux5.on + 2 * b2n x.vaux3.on + 4 * b2n x.vaux5.latchedOff + 8 * b2n x.vaux3.latchedOff) ++ zeros 1 ++
        leBytes 2 x.vaux5.ma ++ leBytes 2 x.vaux3.ma ++ leBytes 4 x.pfailCount ++ leBytes 4 x.lastPfailMs ++ leBytes 4 x.thermWarns) s }

/-- The meaning of SYS_SET_MODE. -/
def execSysSetMode (c : Call) (s : State) : Res := command cmdSysSetMode c s
/-- The meaning of SYS_SUPPLY_CONFIG. -/
def execSysSupplyConfig (c : Call) (s : State) : Res := command cmdSysSupplyConfig c s
/-- The meaning of SYS_SUPPLY_STATUS. -/
def execSysSupplyStatus (c : Call) (s : State) : Res := command cmdSysSupplyStatus c s

end Sys2Proof.Machine
end

