-- ==== Sys2Proof/Machine/Rings.lean ====
section
/-!
DEFINITION. Consumption of SUBMIT rings, the Loft DMA classes, ring attention and the tenants' writes of the ring counters
(spec/03_loft_and_rings.md, R156 to R168, R184; R996, R1008 of spec/19_supply_and_modes.md).
-/
namespace Sys2Proof.Machine
open Sys2Proof

/-! ### The classes of a SUBMIT descriptor (Table LFT.7) -/

/-- Status of a LOFT_DMA descriptor whose fields are wrong (Table LFT.8, R35, R135, R166; log entry 75). -/
def dmaFields (s : State) (t : Nat) (d : Bytes) : Bool :=
  byteAt d 1 == 0 && usable s t (rd d 12 4) && decide (1 ≤ rd d 18 2) && decide (rd d 16 2 + rd d 18 2 ≤ 4096) &&
    zeroAt d 20 11 && decide (byteAt d 31 < 2)

/-- Address of a LOFT_DMA descriptor's bytes in the Loft. -/
def dmaAddr (d : Bytes) : Nat := yAddr (hIndex (rd d 12 4)) (rd d 16 2)

/-- A consumed LOFT_DMA_IN or LOFT_DMA_OUT starts: the yealm is pinned, and host memory is read or written; poisoned bytes
go in a poisoned TLP (R131, Table LFT.4). -/
def dmaSubmit (n t : Nat) (d : Bytes) (s : State) : State :=
  if !dmaFields s t d then completeSub n (byteAt d 0) St.badField (rd d 2 2) 0 0 [] s
  else
    let a := dmaAddr d
    let len := rd d 18 2
    let bad : Bool := byteAt d 0 == 2 && s.loft.poisoned a len
    let x : Sub := { ring := n, tenant := t, cls := byteAt d 0, tag := rd d 2 2, desc := d, poisoned := bad }
    let s1 := pin (hIndex (rd d 12 4)) { s with subs := s.subs ++ [x] }
    s1.emit (if byteAt d 0 = 1 then .dmaRead (rd d 4 8) len else .dmaWrite (rd d 4 8) (loftRead s a len) bad)

/-- The effect of a consumed descriptor by its class (R167, R1008). -/
def runClass (n t : Nat) (d : Bytes) (s : State) : State :=
  let cls := byteAt d 0
  let fin (st : Nat) : State := completeSub n cls st (rd d 2 2) 0 0 [] s
  if s.supply.mode = .safe ∧ t ≠ 0 ∧ cls ≠ 0 ∧ cls ≠ 2 then fin St.wrongMode
  else if cls = 0 then fin St.ok
  else if cls ≤ 2 then dmaSubmit n t d s
  else if cls = 0x10 then (if s.owner 1 = t then netSubmit n t d s else fin St.notPermitted)
  else if 0x20 ≤ cls ∧ cls < 0x30 then diskSubmit n t d s
  else if cls = 0x30 then copyRun n t d s
  else fin St.badOpcode

/-- A class whose service has bounds of its own: disk classes of the DISK owner. -/
def isDisk (s : State) (t : Nat) (d : Bytes) : Bool :=
  0x20 ≤ byteAt d 0 && byteAt d 0 ≤ 0x22 && s.owner 2 == t && !(s.supply.mode = .safe && t ≠ 0)

/-- The paired COMPLETE ring has a slot for one more completion (R161). -/
def credit (s : State) (n : Nat) : Bool :=
  match (s.ring n).pair with
  | some p => decide ((s.ring n).inFlight < (s.ring p).room)
  | none => false

/-- The bound that the next descriptor of a ring would pass: a STALL_CAUSE (R161, R210, R378, R614, R996). -/
def submitBound (s : State) (n t : Nat) (d : Bytes) : Option Nat :=
  if s.supply.pfail ∨ (s.ten t).state = .faulted then some 5
  else if isDisk s t d then diskBound s t n
  else if !credit s n then some 4
  else if byteAt d 0 = 0x10 ∧ s.owner 1 = t then netBound s t d
  else none

/-- The descriptor at a ring's HEAD: read once, it stays what it was while a bound holds it (R159; log entry 81). -/
def nextDesc (s : State) (n : Nat) : Bytes :=
  if (s.ring n).held.isEmpty then loftRead s (slotAddr n (s.ring n) (s.ring n).head) 32 else (s.ring n).held

/-- A ring has an entry that the device may read (R159). -/
def hasEntry (s : State) (n : Nat) : Bool :=
  s.supply.isl.host && s.campel && (s.ring n).opened && (s.ring n).type == .submit && !(s.ring n).closing &&
    decide ((s.ring n).waiting ≠ 0)

/-- HEAD passes a consumed entry, STALLED clears, and attention is raised at COUNT consumed entries (R161, R164). -/
def advanceHead (n : Nat) (s : State) : State :=
  let r := s.ring n
  let s1 := s.updRing n fun r =>
    { r with head := (r.head + 1) % 2 ^ 32, inFlight := r.inFlight + 1, stalled := false, stallCause := 0, sinceAttn := r.sinceAttn + 1
             held := [] }
  if r.thCount ≠ 0 ∧ r.thCount ≤ r.sinceAttn + 1 then raiseSrc n (s1.updRing n fun r => { r with sinceAttn := 0 }) else s1

/-- The next entry stays unconsumed: the ring stalls, and a disk submission newly held by the quota bound is counted
(R141, R161). -/
def holdEntry (n t cause : Nat) (d : Bytes) (s : State) : State :=
  let disk := isDisk s t d
  let fresh : Bool := !((s.ring n).stalled && (s.ring n).stallCause == 3)
  let read : Bool := !(s.supply.pfail || (s.ten t).state == .faulted)
  let s1 := stallRing n cause (s.updRing n fun r => { r with held := if read then d else r.held })
  if disk && cause == 3 && fresh then s1.updTen t fun x => { x with refDisk := inc32 x.refDisk } else s1

/-- The device considers a ring's next entry, if its class is one of `ok`: it consumes it or stalls (R159, R161). -/
def consume (n : Nat) (ok : Nat → Bool) (s : State) : State :=
  let d := nextDesc s n
  let t := (s.ring n).owner
  if !hasEntry s n || !ok (byteAt d 0) then s
  else match submitBound s n t d with
    | some cause => holdEntry n t cause d s
    | none => runClass n t d (advanceHead n s)

/-- The meaning of SUBMIT_CONSUME: the next entry, whatever its class (R159). -/
def execSubmitConsume (ring : Fin 32) (s : State) : Res := s.running (consume ring.val fun _ => true)
/-- The meaning of SUBMIT_NOP (R167). -/
def execSubmitNop (ring : Fin 32) (s : State) : Res := s.running (consume ring.val fun c => c == 0)
/-- The meaning of LOFT_DMA_IN (Table LFT.8). -/
def execLoftDmaIn (ring : Fin 32) (s : State) : Res := s.running (consume ring.val fun c => c == 1)
/-- The meaning of LOFT_DMA_OUT (Table LFT.8). -/
def execLoftDmaOut (ring : Fin 32) (s : State) : Res := s.running (consume ring.val fun c => c == 2)
/-- The meaning of NET_SEND (R372). -/
def execNetSend (ring : Fin 32) (s : State) : Res := s.running (consume ring.val fun c => c == 0x10)
/-- The meaning of DISK_READ (R607). -/
def execDiskRead (ring : Fin 32) (s : State) : Res := s.running (consume ring.val fun c => c == 0x20)
/-- The meaning of DISK_WRITE (R624). -/
def execDiskWrite (ring : Fin 32) (s : State) : Res := s.running (consume ring.val fun c => c == 0x21)
/-- The meaning of DISK_STAMP_READ (R609). -/
def execDiskStampRead (ring : Fin 32) (s : State) : Res := s.running (consume ring.val fun c => c == 0x22)
/-- The meaning of CAS_COPY (R907). -/
def execCasCopy (ring : Fin 32) (s : State) : Res := s.running (consume ring.val fun c => c == 0x30)

/-! ### DMA transfers end (R210, Table TEN.11, Table LFT.4) -/

/-- A failed transfer of a tenant: counted, and DMA_FAULT at 16 within 1 s (Table TEN.11). -/
def dmaFailed (t : Nat) (s : State) : State :=
  let times := s.up :: lastSecond s.up (s.ten t).dmaFailTimes
  let s1 := s.updTen t fun x => { x with dmaFailTimes := if 16 ≤ times.length then [] else times }
  if 16 ≤ times.length then faultTenant t 4 s1 else s1

/-- A LOFT_DMA transfer ends: 0 done, 1 Unsupported Request, 2 Completer Abort, 3 completion timeout. The status and COUNT
of a failed one are open (log entries 40, 76). -/
def endDma (x : Sub) (result : Nat) (data : Bytes) (s : State) : State :=
  let len := rd x.desc 18 2
  let s1 := unpin (hIndex (rd x.desc 12 4)) (if result = 0 ∧ x.cls = 1 then loftWrite (dmaAddr x.desc) (fit len data) s else s)
  let s2 := { s1 with subs := s1.subs.erase x }
  if result = 0 then completeSub x.ring x.cls (if x.poisoned then St.loftPoison else St.ok) x.tag len 0 [] s2
  else
    let st := s2.draw 5 % 256
    let count := s2.drawn.draw 15 % (len + 1)
    dmaFailed x.tenant (completeSub x.ring x.cls st x.tag count 0 [] s2.drawn.drawn)

/-- The meaning of DMA_COMPLETION: the transfer is the `index`-th LOFT_DMA in flight. -/
def execDmaCompletion (index : Nat) (result : Fin 4) (data : List (BitVec 8)) (s : State) : Res :=
  s.running fun s =>
    match (s.subs.filter fun x => x.cls == 1 || x.cls == 2)[index]? with
    | some x => endDma x result.val data s
    | none => s

/-! ### Ring attention and the counters (R158, R164, R165, R184) -/

/-- The meaning of RING_ATTENTION: an entry of a device-produced ring has waited TIMEOUT_US (R164). -/
def execRingAttention (ring : Fin 32) (waitedUs : Nat) (s : State) : Res :=
  s.running fun s =>
    let r := s.ring ring.val
    if r.opened && r.type != .submit && decide (r.waiting ≠ 0) && decide (r.thTimeout ≠ 0) && decide (r.thTimeout ≤ waitedUs) then
      raiseSrc ring.val s
    else s

/-- A write of a ring register by a tenant: none to a closed ring, counted for another tenant's (R165, R184). -/
def ringWrite (t n : Nat) (f : Ring → Ring) (s : State) : State :=
  let r := s.ring n
  if !windowOpen s t ∨ !r.opened then s
  else if r.owner ≠ t then s.updTen t fun x => { x with foreignRing := inc32 x.foreignRing }
  else s.updRing n f

/-- TAIL written by the producing tenant: between HEAD and HEAD + depth, never backwards (R158). -/
def tailWrite (v : Nat) (r : Ring) : Ring :=
  let ahead := (v + 2 ^ 32 - r.head) % 2 ^ 32
  if r.type ≠ .submit then r
  else if ahead ≤ r.depth ∧ r.waiting ≤ ahead then { r with tail := v } else { r with badPtr := true }

/-- HEAD written by the consuming tenant: it never passes TAIL and never moves backwards (R158, log entry 77). -/
def headWrite (v : Nat) (r : Ring) : Ring :=
  if r.type = .submit then r
  else if (r.tail + 2 ^ 32 - v) % 2 ^ 32 ≤ r.waiting then { r with head := v } else { r with badPtr := true }

/-- The meaning of RING_TAIL_WRITE. -/
def execRingTailWrite (t : Fin 8) (ring : Fin 32) (value : BitVec 32) (s : State) : Res :=
  s.running (ringWrite t.val ring.val (tailWrite value.toNat))

/-- The meaning of RING_HEAD_WRITE. -/
def execRingHeadWrite (t : Fin 8) (ring : Fin 32) (value : BitVec 32) (s : State) : Res :=
  s.running (ringWrite t.val ring.val (headWrite value.toNat))

end Sys2Proof.Machine
end

