-- ==== Sys2Proof/Machine/Window.lean ====
section
/-!
DEFINITION. A tenant's BAR0 registers, the Loft aperture BAR2, and the SPI port that reaches both (R19 to R24 of spec/00,
R90 of spec/02, R153 to R155 of spec/03, R186 to R199 and Tables TEN.2 to TEN.5 of spec/04, R237 to R248 of spec/05, R271,
R280 of spec/06, R343 of spec/07, R849 and R850 of spec/16, R1053 of spec/20).
-/
namespace Sys2Proof.Machine
open Sys2Proof

/-! ### Reads of BAR0 -/

/-- SPAR_VER and SPAR_DIG (Table SPR.12). -/
def sparReg (s : State) (i k : Nat) : Nat :=
  let x := vat s.spars i
  if k = 0 then x.base % 65536 + x.level % 65536 * 65536 else rd x.digest 0 4

/-- The own tenant window at 0x0400 (Table TEN.4). In the ROM stage MB_STATUS of tenants 1 to 7 reads BUSY (R271). An ABSENT
tenant's mailbox registers work, as R212 lets it issue SYS_GET_INFO (log entry 78). -/
def ownReg (s : State) (t o : Nat) : Nat :=
  let x := s.ten t
  if !ownOpen s t then (if o = 0x604 ∧ s.supply.isl.host then 1 else 0)
  else if o < 0x500 then rd x.mbReq (o - 0x400) 4
  else if o < 0x600 then (x.rsp.map fun r => rd r.bytes (o - 0x500) 4).getD 0
  else if o = 0x604 then b2n x.busy + 2 * b2n x.rspReady + 4 * b2n x.refused + 8 * b2n x.transport + x.lastSeq % 65536 * 65536
  else if x.state = .absent then 0
  else if o = 0x610 then x.state.code + 16 * b2n (spiTenant s == t)
  else if o = 0x614 then x.faultCause % 256 + x.faultCount % 65536 * 65536
  else 0

/-- STALL_CAUSE as it reads (R161, R996). -/
def stallCauseNow (s : State) (r : Ring) : Nat := if s.supply.pfail ∧ r.type = .submit then 5 else r.stallCause

/-- Code of a ring type (Table LFT.5). -/
def RingType.code : RingType → Nat
  | .submit => 0
  | .complete => 1
  | .rxframe => 2
  | .event => 3

/-- A ring's registers as their owner reads them (Table LFT.6, R165). -/
def ringReg (s : State) (t n o : Nat) : Nat :=
  let r := s.ring n
  if !r.opened ∨ r.owner ≠ t then 0
  else if o = 0 then r.base n
  else if o = 4 then r.log2 + (r.pair.getD 0) * 256 + 32768 * b2n r.pair.isSome
  else if o = 8 then r.head
  else if o = 12 then r.tail
  else if o = 16 then r.type.code + 16
  else if o = 20 then
    b2n r.stalled + 2 * b2n (r.type != .submit && r.room == 0) + 4 * b2n r.overflow + 8 * b2n r.badPtr + 256 * stallCauseNow s r +
      r.dropped % 65536 * 65536
  else if o = 24 then r.thCount + 65536 * r.thTimeout
  else 0

/-- The word of 32 sources for which a predicate holds. -/
def sourceWord (n : Nat) (p : Nat → Bool) : Nat := maskOf (List.range 32) fun b => p (32 * n + b)

/-- The interrupt registers of a view (Table IRQ.2); what is not visible reads zero (R237). -/
def irqReg (s : State) (t o : Nat) : Nat :=
  let v := s.view t
  let vis := visible s t
  let k := o % 16 / 4
  if o < 0x10 then sourceWord k fun i => vis i && v.raw.getLsbD i
  else if o < 0x20 then sourceWord k fun i => vis i && v.pending i
  else if o < 0x30 then sourceWord k fun i => vis i && v.mask.getLsbD i
  else if o < 0x40 then sourceWord k vis
  else if 0x100 ≤ o ∧ o < 0x300 then (if vis ((o - 0x100) / 4) then vat v.count ((o - 0x100) / 4) else 0)
  else if 0x300 ≤ o ∧ o < 0x500 then routeWord s t ((o - 0x300) / 4)
  else 0

/-- The time snapshot registers (Table TIM.8). -/
def timeReg (s : State) (t o : Nat) : Nat :=
  let x := vat s.timebase.snap t
  if o = 4 then x.sec / 2 ^ 32 % 65536
  else if o = 8 then x.sec % 2 ^ 32
  else if o = 12 then x.ns
  else if o = 16 then x.frac
  else if o = 20 then x.state ||| (128 * b2n x.stepped)
  else 0

/-- The recorder read window (Table BRC.7). -/
def brcReg (s : State) (t o : Nat) : Nat :=
  let w := vat s.recorder.window t
  if o = 0 then s.recorder.head % 2 ^ 32
  else if o = 4 then s.recorder.head / 2 ^ 32 % 65536
  else if o = 8 then w.seq % 2 ^ 32
  else if o = 12 then w.seq / 2 ^ 32 % 65536
  else if o = 16 then w.code + 256 * b2n w.auto
  else if 0x40 ≤ o ∧ o < 0x80 then rd w.data (o - 0x40) 4
  else 0

/-- A word of the MSI-X table (PCI Express Base Specification): address, data, vector control. -/
def msixReg (s : State) (t o : Nat) : Nat :=
  let e := vat (s.view t).msix (o / 16)
  let k := o % 16
  if 256 ≤ o then 0
  else if k = 0 then e.addr % 2 ^ 32
  else if k = 4 then e.addr / 2 ^ 32 % 2 ^ 32
  else if k = 8 then e.data
  else b2n e.masked

/-- The word that a read of tenant `t`'s BAR0 returns (Table TEN.2); an offset that is undefined or not of a word reads zero
(R21, R212, R271). -/
def regRead (s : State) (t o : Nat) : Nat :=
  if !s.supply.isl.host ∨ o % 4 ≠ 0 then 0
  else if o < 0x0C then idWord s (o / 4)
  else if o = 0x0C then idModulePos s
  else if o = 0x10 then modeStatus s
  else if 0x400 ≤ o ∧ o < 0x700 then ownReg s t o
  else if !windowOpen s t then 0
  else if 0x20 ≤ o ∧ o < 0x38 then sparReg s ((o - 0x20) / 8) ((o - 0x20) % 8)
  else if 0x2000 ≤ o ∧ o < 0x2800 then ringReg s t ((o - 0x2000) / 64) (o % 64)
  else if 0x4000 ≤ o ∧ o < 0x4500 then irqReg s t (o - 0x4000)
  else if 0x6000 ≤ o ∧ o < 0x6018 then timeReg s t (o - 0x6000)
  else if 0x8000 ≤ o ∧ o < 0x8080 then brcReg s t (o - 0x8000)
  else if 0xC000 ≤ o ∧ o < 0xC100 then msixReg s t (o - 0xC000)
  else if o = 0xD000 then (s.view t).pba.toNat
  else 0

/-- What a read changes: BRC_DATA15 with AUTO set (R850). -/
def regReadEffect (t o : Nat) (s : State) : State := if o = 0x807C then data15Read t s else s

/-! ### Writes of BAR0 (R19 to R21), but for MB_DOORBELL -/

/-- A word of MB_REQ is written (R192). -/
def reqWrite (t o v : Nat) (s : State) : State :=
  if !ownOpen s t ∨ (s.ten t).busy then s
  else s.updTen t fun x => { x with mbReq := x.mbReq.take (o - 0x400) ++ leBytes 4 v ++ x.mbReq.drop (o - 0x400 + 4) }

/-- MB_STATUS: RSP_READY and REFUSED are W1C (Table TEN.4). -/
def mbStatusWrite (t : Nat) (v : BitVec 32) (s : State) : State :=
  if !ownOpen s t then s
  else s.updTen t fun x => { x with rspReady := x.rspReady && !v.getLsbD 1, refused := x.refused && !v.getLsbD 2 }

/-- A write of a ring's registers (Table LFT.6). -/
def ringRegWrite (t n o : Nat) (v : BitVec 32) (s : State) : State :=
  ringWrite t n (fun r =>
    if o = 8 then headWrite v.toNat r
    else if o = 12 then tailWrite v.toNat r
    else if o = 20 then { r with overflow := r.overflow && !v.getLsbD 2, badPtr := r.badPtr && !v.getLsbD 3 }
    else if o = 24 then { r with thCount := v.toNat % 8192, thTimeout := v.toNat / 65536 }
    else r) s

/-- A write of the interrupt registers (Table IRQ.2). -/
def irqRegWrite (t o : Nat) (v : BitVec 32) (s : State) : State :=
  let k := o % 16 / 4
  if o < 0x10 then rawWrite t k v [] s
  else if 0x20 ≤ o ∧ o < 0x30 then maskWrite t k v s
  else if 0x40 ≤ o ∧ o < 0x50 then forceWrite t k v s
  else s

/-- A write of the time snapshot registers (Table TIM.8). -/
def timeRegWrite (t o : Nat) (v : BitVec 32) (s : State) : State :=
  if o = 0 ∧ v.getLsbD 0 then latchTime t s
  else if o = 20 ∧ v.getLsbD 7 then s.updTb fun b => { b with snap := upd b.snap t fun x => { x with stepped := false } }
  else s

/-- A write of the recorder read window (Table BRC.7). -/
def brcRegWrite (t o : Nat) (v : BitVec 32) (s : State) : State :=
  let set (f : BrcWindow → BrcWindow) : State := s.updRec fun r => { r with window := upd r.window t f }
  if o = 8 then writeSeqLo t v.toNat s
  else if o = 12 then set fun w => { w with seq := w.seq % 2 ^ 32 + v.toNat % 65536 * 2 ^ 32 }
  else if o = 16 then set fun w => { w with auto := v.getLsbD 8 }
  else s

/-- A write of the MSI-X table (PCI Express Base Specification). -/
def msixWrite (t o : Nat) (v : BitVec 32) (s : State) : State :=
  let n := o / 16
  let set (f : MsixEntry → MsixEntry) : State := s.updView t fun y => { y with msix := upd y.msix n f }
  if 256 ≤ o then s
  else if o % 16 = 0 then set fun e => { e with addr := e.addr / 2 ^ 32 * 2 ^ 32 + v.toNat }
  else if o % 16 = 4 then set fun e => { e with addr := e.addr % 2 ^ 32 + v.toNat * 2 ^ 32 }
  else if o % 16 = 8 then set fun e => { e with data := v.toNat }
  else vectorMask t n (v.getLsbD 0) s

/-- A word is written to tenant `t`'s BAR0; a write of an RO field or an undefined offset has no effect (R19, R21). -/
def regWrite (t o : Nat) (v : BitVec 32) (s : State) : State :=
  if !s.supply.isl.host ∨ o % 4 ≠ 0 then s
  else if 0x400 ≤ o ∧ o < 0x500 then reqWrite t o v.toNat s
  else if o = 0x604 then mbStatusWrite t v s
  else if o = 0x618 then tenResetWrite t v.toNat s
  else if !windowOpen s t then s
  else if 0x2000 ≤ o ∧ o < 0x2800 then ringRegWrite t ((o - 0x2000) / 64) (o % 64) v s
  else if 0x4000 ≤ o ∧ o < 0x4500 then irqRegWrite t (o - 0x4000) v s
  else if 0x6000 ≤ o ∧ o < 0x6018 then timeRegWrite t (o - 0x6000) v s
  else if 0x8000 ≤ o ∧ o < 0x8080 then brcRegWrite t (o - 0x8000) v s
  else if 0xC000 ≤ o ∧ o < 0xC100 then msixWrite t (o - 0xC000) v s
  else s

/-! ### The Loft aperture (R153, R154, R177, R280) -/

/-- An aperture access of a tenant reaches a yealm (R153); tenant 0 reaches the push area in the ROM stage (R280). -/
def reaches (s : State) (t i : Nat) : Bool :=
  (poolIndex i && (s.loft.tag i).alloc && (s.loft.tag i).owner == t) ||
    (match storageRing i with
    | some n => (s.ring n).opened && (s.ring n).owner == t
    | none => false) ||
    (!s.campel && t == 0 && decide (12288 ≤ i) && decide (i < 12544))

/-- The pieces of an access, one per yealm: index, first byte, length. -/
def pieces (off n : Nat) : List (Nat × Nat × Nat) :=
  if n = 0 then []
  else (List.range ((off + n - 1) / 4096 + 1 - off / 4096)).map fun j =>
    let i := off / 4096 + j
    let lo := if j = 0 then off % 4096 else 0
    (i, lo, min 4096 (off + n - i * 4096) - lo)

/-- An access that reaches nothing is counted (R154). -/
def foreignAccess (t : Nat) (s : State) : State := s.updTen t fun x => { x with foreignAperture := inc32 x.foreignAperture }

/-- A double-bit error in the tag store or ring storage (R182). -/
def reserveError (i g : Nat) (s : State) : State :=
  enterSafe 5 (crumb 0x03A2 5 0 (anyPayload 0x03A2 [i, g, 0]) s)

/-- A memory error met in granule `g` of yealm `i` (R146, R147, R182). A granule not written since allocation is not read
(R129). -/
def memoryError (i g : Nat) (double : Bool) (s : State) : State :=
  if 1024 ≤ i ∧ i < 12288 then (if double then reserveError i g s else s)
  else if !poolIndex i || !(s.loft.tag i).alloc || !s.loft.written.contains (i * 64 + g) then s
  else
    let t := (s.loft.tag i).owner
    if double then crumb 0x03A2 3 t (anyPayload 0x03A2 [i, g, t]) (s.updLoft fun l => { l with poison := setIns l.poison (i * 64 + g) })
    else s.updTen t fun x => { x with corrected := inc32 x.corrected }

/-- The meaning of PATROL_SCRUB (R148). -/
def execPatrolScrub (yealm : Nat) (granule : Fin 64) (double : Bool) (s : State) : Res :=
  s.running (memoryError yealm granule.val double)

/-- The meaning of APERTURE_READ: zeros for what is not reached, a poisoned TLP and an AER error for poison (R153, R154,
Table LFT.4). -/
def execApertureRead (t : Fin 8) (off len : Nat) (ecc : Option Bool) (s : State) : Res :=
  s.running fun s =>
    if !s.supply.isl.host then s
    else
      let s0 := match ecc with
        | some d => if reaches s t (off / 4096) then memoryError (off / 4096) (off % 4096 / 64) d s else s
        | none => s
      let ps := pieces off len
      let out := ps.flatMap fun p => if reaches s0 t p.1 then loftRead s0 (yAddr p.1 p.2.1) p.2.2 else zeros p.2.2
      let bad := ps.any fun p => reaches s0 t p.1 && s0.loft.poisoned (yAddr p.1 p.2.1) p.2.2
      let s1 := (ps.filter fun p => !reaches s0 t p.1).foldl (fun s _ => foreignAccess t.val s) s0
      let s2 := s1.emit (.pcie out bad)
      if bad then s2.emit (.aer t.val) else s2

/-- Bytes written through an aperture, yealm by yealm (R153, R154). -/
def apertureWrite (t off : Nat) (data : Bytes) (s : State) : State :=
  (pieces off data.length).foldl (fun s p =>
    if reaches s t p.1 then loftWrite (yAddr p.1 p.2.1) (slice data (p.1 * 4096 + p.2.1 - off) p.2.2) s else foreignAccess t s) s

/-- The meaning of APERTURE_WRITE. -/
def execApertureWrite (t : Fin 8) (off : Nat) (data : Bytes) (s : State) : Res :=
  s.running fun s => if s.supply.isl.host then apertureWrite t.val off data s else s

/-! ### The SPI port (R195 to R198, Table TEN.5) -/

/-- The port status byte (R195). -/
def spiStatus (s : State) : Nat :=
  let t := spiTenant s
  b2n (ownOpen s t && (s.ten t).rspReady) + 2 * b2n (mailboxBusy s t) +
    4 * b2n (s.campel && (List.range 128).any fun k => visible s t k && (s.view t).pending k) + 128 * b2n s.spiMalformed

/-- A transaction: the status byte and what follows it on MS_MISO, the effect, and whether it was malformed; ignored in whole
while the host island does not run (R1053). -/
def spi (out : State → Bytes) (malformed : Bool) (f : State → State) (s : State) : State :=
  if !s.supply.isl.host then s
  else { f (s.emit (.miso (leBytes 1 (spiStatus s) ++ out s))) with spiMalformed := malformed }

/-- The meaning of STATUS; any other command byte here is unknown, or its transaction ended early (R195, R197). -/
def execStatus (cmd : BitVec 8) (s : State) : Res := s.running (spi (fun _ => []) (cmd != 5#8) id)

/-- Whole words that a register transaction moves, and whether it is malformed (R197). -/
def spiWords (addr n : Nat) : Nat × Bool :=
  let a := addr % 65536
  let w := if a % 4 ≠ 0 then 0 else min (n / 4) ((65536 - a) / 4)
  (w, decide (a % 4 ≠ 0) || decide (n % 4 ≠ 0) || decide (w < n / 4))

/-- The meaning of REG_READ: 0x00 in the turnaround byte, then the words (R196). -/
def execRegRead (addr len : Nat) (s : State) : Res :=
  let q := spiWords addr len
  let l := (List.range q.1).map fun k => addr % 65536 + 4 * k
  s.running (spi (fun s => 0#8 :: ((l.foldl (fun (p : Bytes × State) o =>
      (p.1 ++ leBytes 4 (regRead p.2 (spiTenant s) o), regReadEffect (spiTenant s) o p.2)) ([], s)).1)) q.2
    fun s => l.foldl (fun s o => regReadEffect (spiTenant s) o s) s)

/-- Bytes of a Loft transaction that lie within the yealm (R198). -/
def spiLoft (off n : Nat) : Nat := min n (4096 - off % 65536)

/-- A Loft transaction's handle reaches what an aperture access of the tenant served would reach; the push area by handles
of OWNER 0 and GEN 1 (R198, R280; log entry 79). -/
def spiReaches (s : State) (h : Nat) : Bool :=
  reaches s (spiTenant s) (hIndex h) && (poolIndex (hIndex h) || (storageRing (hIndex h)).isSome || (hOwner h == 0 && hGen h == 1))

/-- The meaning of LOFT_WRITE (R198). -/
def execLoftWrite (handle : BitVec 32) (off : Nat) (data : Bytes) (s : State) : Res :=
  let n := spiLoft off data.length
  s.running (spi (fun _ => []) (decide (n < data.length)) fun s =>
    if n = 0 then s
    else if spiReaches s handle.toNat then loftWrite (yAddr (hIndex handle.toNat) (off % 65536)) (data.take n) s
    else foreignAccess (spiTenant s) s)

/-- The meaning of LOFT_READ: the start byte 0xA5, then the data (R198). -/
def execLoftRead (handle : BitVec 32) (off len : Nat) (s : State) : Res :=
  let n := spiLoft off len
  s.running (spi (fun s => 0xA5#8 :: (if spiReaches s handle.toNat then loftRead s (yAddr (hIndex handle.toNat) (off % 65536)) n else zeros n))
    (decide (n < len)) fun s => if n = 0 ∨ spiReaches s handle.toNat then s else foreignAccess (spiTenant s) s)

end Sys2Proof.Machine
end

