-- ==== Sys2Proof/Machine/Mailbox.lean ====
section
/-!
DEFINITION. The mailbox as its registers drive it: the doorbell, requests forwarded to other modules and served for them, and
the end of asynchronous work (R191, R200 to R207 of spec/04_tenants_and_mailboxes.md; R904 to R906 of
spec/17_declin_cascade.md).
-/
namespace Sys2Proof.Machine
open Sys2Proof

/-- Every Campel command that is defined. -/
def allCmds : List Cmd :=
  [cmdBootGetStatus, cmdBootOtpRead, cmdBootOtpProgram, cmdBootRollbackCommit, cmdBootPushDone, cmdBootEpochSet,
   cmdBootRestart, cmdBootFlashErase, cmdBootFlashWrite, cmdBootSlotCheck, cmdCasGetStatus, cmdCasLaneSet,
   cmdCasAsymSet, cmdCasCalRun, cmdCasForwardSet, cmdCasHandback, cmdCasCounters, cmdChnHdaSet,
   cmdChnZoneSet, cmdChnCommit, cmdChnHeads, cmdChnCal, cmdChnStatus, cmdChnPaXfer] ++
  [cmdChnDefectRead, cmdChnDefectAdd, cmdChnSliceEnable, cmdDiskGetStatus, cmdDiskTagLimit, cmdEaveGetStatus,
   cmdEaveConfig, cmdEaveShutdown, cmdEaveClear, cmdEthPortConfig, cmdEthPortStatus, cmdEthPortCounters,
   cmdEthFlowSet, cmdEthFlowGet, cmdEthFlowCounters, cmdEthSfpXfer, cmdIrqRouteSet, cmdIrqRouteGet,
   cmdIrqGetOwners, cmdKeyGetInfo, cmdKeyDerive, cmdKeyImport, cmdKeyErase, cmdKeySetUsers] ++
  [cmdKeyWrap, cmdKeyClaimSet, cmdKeyDebugUnlock, cmdKeyGetStatus, cmdLoftAlloc, cmdLoftFree,
   cmdRingOpen, cmdRingClose, cmdLoftQuotaSet, cmdLoftGetStatus, cmdMotAConfig, cmdMotAStart,
   cmdMotAStop, cmdMotAGenlock, cmdMotAStatus, cmdMotBConfig, cmdMotBSetSpeed, cmdMotBStatus,
   cmdPtpGetStatus, cmdPtpInstanceConfig, cmdPtpInstanceStatus, cmdPtpFollowersGet, cmdPtpUnicastMastersSet, cmdPtpClockConfig] ++
  [cmdPtpAsymSet, cmdPtpCalRun, cmdPtpAuthConfig, cmdPtpFollowerDrop, cmdPtpCounters, cmdRadioGetStatus,
   cmdRadioDeviceSet, cmdRadioBandConfig, cmdRadioSynthConfig, cmdRadioSynthTableSet, cmdRadioSynthCal, cmdRadioBandStart,
   cmdRadioBandStop, cmdRadioBandHop, cmdRadioTddSet, cmdRadioPowerTableSet, cmdRadioPowerSet, cmdRadioBiasConfig,
   cmdRadioDetConfig, cmdRadioDetRead, cmdRadioRfspiXfer, cmdRadioAuxXfer, cmdBrcGetStatus, cmdBrcRead] ++
  [cmdBrcFind, cmdBrcWrite, cmdBrcCollected, cmdBrcNvmRetest, cmdRecAreaSet, cmdRecChannelSet,
   cmdRecChannelStatus, cmdRecSegList, cmdRecSegHold, cmdRecRead, cmdSparGetVersion, cmdSparGetStatus,
   cmdSparReload, cmdSparPatchCheck, cmdSysSetMode, cmdSysSupplyConfig, cmdSysSupplyStatus, cmdSysGetInfo,
   cmdSysEcho, cmdTenReset, cmdSvcAssign, cmdTenEnable, cmdTenGetStatus, cmdSvcGet] ++
  [cmdTenFault, cmdTimeGetStatus, cmdTimeRefConfig, cmdTimeDpllConfig, cmdTimeOscConfig, cmdTimeSelect,
   cmdTimeSet, cmdTimeSetOffsets, cmdTimeSchedule, cmdTimeGetOffsets, cmdTimeCadenceSet, cmdTimeCadenceGet,
   cmdTimeTimArm, cmdTimeTimRead, cmdTimeSpineCalRead, cmdTimeGnssSend, cmdTimeRefStatus]

/-- The command of an opcode. -/
def findCmdOf (op : Nat) : Option Cmd := allCmds.find? fun c => c.op == op

/-- Execute a request by its opcode: checks 5 onward (Table TEN.8). -/
def executeReq (q : Req) (s : State) : Answer × State :=
  match findCmdOf q.op with
  | some c => execute c q s
  | none => (some (undefinedStatus q s, none, []), s)

/-- The request that 256 bytes of MB_REQ or a forwarded frame hold (Table TEN.6). -/
def reqOf (b : Bytes) (t : Nat) (origin : Option Nat) : Req :=
  { op := rd b 0 2, seq := rd b 2 2, t, asyncOk := (byteAt b 5).testBit 0, payload := slice b 16 (rd b 6 2), origin }

/-- The first failed header check of a request (Table TEN.8, checks 1 to 4). -/
def headerStatus (t : Nat) (b : Bytes) : Option Nat :=
  let n := rd b 6 2
  if 240 < n then some St.badLength
  else if rd b 12 4 ≠ crc32c (b.take 12 ++ zeros 4 ++ slice b 16 n) then some St.crcBad
  else if byteAt b 4 ≠ t then some St.notPermitted
  else if 3 < byteAt b 5 ∨ !zeroAt b 9 3 ∨ 7 < byteAt b 8 ∨ (byteAt b 8 ≠ 0 ∧ !(byteAt b 5).testBit 1) then some St.badField
  else none

/-- Forward a request to another module (R201, R904, R906): BUSY stays set until its answer comes. -/
def forward (q : Req) (b : Bytes) (target : Nat) (s : State) : State :=
  let no (st : Nat) : State := answer q (some (st, none, []), s)
  if (s.ten q.t).state = .resetting then no St.busy
  else if !present s target then no St.notReady
  else if q.asyncOk ∧ !canReserve s q.t then no St.busy
  else sendTo target 0x10 (leBytes 1 q.t ++ zeros 3 ++ b.take (16 + q.payload.length))
    (s.updTen q.t fun x => { x with outstanding := some { op := q.op, seq := q.seq, asyncOk := q.asyncOk, target } })

/-- A doorbell write (R191): the request held in MB_REQ is submitted, or the doorbell refused. -/
def doorbell (t : Nat) (isSpi : Bool) (v : BitVec 32) (s : State) : State :=
  if !s.supply.isl.host then s
  else if mailboxBusy s t then doorbellRefused t s
  else if !v.getLsbD 0 then s
  else
    let s1 := takeRequest t isSpi s
    let b := (s1.ten t).mbReq
    let q := reqOf b t none
    match headerStatus t b with
    | some st => headerFail q st s1
    | none =>
      if (byteAt b 5).testBit 1 ∧ byteAt b 8 ≠ s1.cascade.position then forward q b (byteAt b 8) s1
      else answer q (executeReq q s1)

/-- The meaning of MB_DOORBELL. -/
def execMbDoorbell (t : Fin 8) (spi : Bool) (value : BitVec 32) (s : State) : Res := s.running (doorbell t.val spi value)

/-- A word is written to a register, the doorbell among them. -/
def regWriteAll (t : Nat) (isSpi : Bool) (o : Nat) (v : BitVec 32) (s : State) : State :=
  if o = 0x600 then doorbell t isSpi v s else regWrite t o v s

/-- The meaning of REGISTER_WRITE (R19). -/
def execRegisterWrite (t : Fin 8) (off : Nat) (value : BitVec 32) (s : State) : Res := s.running (regWriteAll t.val false off value)

/-- The meaning of REG_WRITE: whole words, the address advancing by 4 (R196, R197). -/
def execRegWrite (addr : Nat) (data : Bytes) (s : State) : Res :=
  let q := spiWords addr data.length
  s.running (spi (fun _ => []) q.2 fun s =>
    (List.range q.1).foldl (fun s k =>
      regWriteAll (spiTenant s) true (addr % 65536 + 4 * k) (BitVec.ofNat 32 (rd data (4 * k) 4)) s) s)

/-! ### Forwarded requests (R904 to R906, R233) -/

/-- A forwarded request is executed here as the same tenant number (R905); its response returns as MBOX_RSP. -/
def onMboxReq (origin : Nat) (p : Bytes) (s : State) : State :=
  let t := byteAt p 0
  let q := reqOf (p.drop 4) t (some origin)
  let r := if s.cascade.forwardMask.testBit t then executeReq q s else (some (St.notPermitted, none, []), s)
  if 7 < t then s
  else match r.1 with
    | none => r.2
    | some a => sendTo origin 0x11 (leBytes 1 t ++ zeros 3 ++ Rsp.bytes { localRsp r.2 q a with forwarded := true }) r.2

/-- The meaning of MBOX_REQ. -/
def execMboxReq (rx : LaneRx) (s : State) : Res := laneRow 0x10 rx (onMboxReq rx.origin.val) s

/-- A response that another module sent (Table TEN.7). -/
def rspOf (b : Bytes) : Rsp :=
  { op := rd b 0 2, seq := rd b 2 2, status := byteAt b 4, tokenValid := (byteAt b 5).testBit 0, forwarded := true, pos := byteAt b 5 / 4 % 8
    token := rd b 8 4, payload := slice b 16 (rd b 6 2) }

/-- The response of a forwarded request is written to its mailbox; on ACCEPTED the EVENT slot is kept, else released (R906).
One that no mailbox waits for any more is dropped. -/
def onMboxRsp (origin : Nat) (p : Bytes) (s : State) : State :=
  let t := byteAt p 0
  let r := rspOf (p.drop 4)
  match (s.ten t).outstanding with
  | some o =>
    if o.op = r.op ∧ o.seq = r.seq ∧ o.target = origin then
      (respond t r s).updTen t fun x => { x with awaiting := x.awaiting + b2n (r.status == St.accepted && o.asyncOk) }
    else s
  | none => s

/-- The meaning of MBOX_RSP. -/
def execMboxRsp (rx : LaneRx) (s : State) : Res := laneRow 0x11 rx (onMboxRsp rx.origin.val) s

/-- A forwarded completion is written to the slot kept for it, ORIGIN naming the module that executed the command (R906). -/
def onMboxEvent (origin : Nat) (p : Bytes) (s : State) : State :=
  let t := byteAt p 18
  if (s.ten t).awaiting = 0 then s
  else postCompletion t (fit 31 (p.take 19 ++ leBytes 1 (origin + 128) ++ p.drop 20)) (s.updTen t fun x => { x with awaiting := x.awaiting - 1 })

/-- The meaning of MBOX_EVENT. -/
def execMboxEvent (rx : LaneRx) (s : State) : Res := laneRow 0x12 rx (onMboxEvent rx.origin.val) s

/-- The meaning of FORWARDED_REQUEST_TIMEOUT (R233). -/
def execForwardedRequestTimeout (t : Fin 8) (s : State) : Res := s.running (answerNotReady t.val)

/-! ### The end of asynchronous work (R206) -/

/-- The work of a job ends: by its opcode what it leaves, its status and DATA. -/
def jobEnd (j : Job) (fail : Option Nat) (l : List Int) (s : State) : State :=
  if j.op = 0x0906 then retestEnd j fail (l.map Int.toNat) s
  else if j.op = 0x0415 then recReadEnd j fail ((l.headD 0).toNat) s
  else if j.op = 0x0C22 then reloadEnd j fail.isSome s
  else match fail with
    | some st => completeJob j st [] s
    | none =>
      if j.op = 0x0483 then commitEnd j s
      else if j.op = 0x0485 then calEnd j l s
      else if j.op = 0x0488 then defectReadEnd j s
      else if j.op = 0x0489 then defectAddEnd j (l.headD 1 != 0) s
      else if j.op = 0x048A then sliceEnabled j s
      else if j.op = 0x0C23 then patchCheckEnd j s
      else if j.op = 0x0C0A then slotCheckEnd j s
      else completeJob j j.status j.result s

/-- The meaning of ASYNC_COMPLETION: the work of a token has ended; work that another event ends is not ended by it. -/
def execAsyncCompletion (t : Fin 9) (token : Nat) (fail : Option Nat) (measured : List Int) (s : State) : Res :=
  s.running fun s =>
    match s.jobs.find? fun j => j.tenant == t.val && j.token == token && !j.waits && j.ended.isNone with
    | some j => jobEnd j fail measured s
    | none => s

end Sys2Proof.Machine
end

