-- ==== Sys2Proof/Machine/Tap.lean ====
section
/-!
DEFINITION. The boundary-scan port (R806, R809 of spec/15_keys_and_crypto.md; R1075 of spec/21_electrical_and_package.md).
-/
namespace Sys2Proof.Machine
open Sys2Proof

/-- The instruction that a code executes: an unlisted code, and one that a locked scan forbids, acts as BYPASS (R806, R1075). -/
def tapEffective (s : State) (code : Nat) : Nat :=
  if code = 2 ∨ (s.keys.unlocked ∧ code ≤ 4) then code else 31

/-- IDCODE (Table ELE.20). -/
def idcode (s : State) : Nat := idWord s 1 % 16 * 2 ^ 28 + 0x7400 * 2 ^ 12 + 0x2E5 * 2 + 1

/-- EXTEST, CLAMP or HIGHZ becomes current: every slot is zeroised, DEBUG_SCAN is recorded and SAFE entered (R809). -/
def scanEntered (s : State) : State :=
  enterSafe 7 (crumb 0x0AA5 5 0 (anyPayload 0x0AA5 []) ((zeroiseAll s).updKeys fun k => { k with scan := true }))

/-- The meaning of TAP_INSTRUCTION: the instruction register is updated. -/
def execTapInstruction (code : BitVec 5) (s : State) : Res :=
  s.running fun s =>
    let c := tapEffective s code.toNat
    let s1 := s.updKeys fun k => { k with tap := c }
    if c = 2 then s1.emit (.tdo 32 (idcode s))
    else if c = 31 then s1.emit (.tdo 1 0)
    else if c ≠ 1 ∧ s.keys.tap ≠ c then scanEntered s1
    else s1

end Sys2Proof.Machine
end

