-- ==== Sys2Proof/Machine/Dispatch.lean ====
section
/-! DEFINITION. The one dispatch of every command to its meaning. -/
namespace Sys2Proof.Machine
open Sys2Proof

def exec (i : Instr) (s : State) : Host.Outcome State Fault Refusal :=
  match i with
  | .mbDoorbell t spi value => Sys2Proof.Machine.execMbDoorbell t spi value s
  | .asyncCompletion t token fail measured => Sys2Proof.Machine.execAsyncCompletion t token fail measured s
  | .tenResetWrite t value => Sys2Proof.Machine.execTenResetWrite t value s
  | .tenantResetComplete t => Sys2Proof.Machine.execTenantResetComplete t s
  | .functionLevelReset t => Sys2Proof.Machine.execFunctionLevelReset t s
  | .perstN hot => Sys2Proof.Machine.execPerstN hot s
  | .timeLatch t value => Sys2Proof.Machine.execTimeLatch t value s
  | .irqRawClear t n value raised => Sys2Proof.Machine.execIrqRawClear t n value raised s
  | .irqMaskWrite t n value => Sys2Proof.Machine.execIrqMaskWrite t n value s
  | .irqForce t n value => Sys2Proof.Machine.execIrqForce t n value s
  | .vectorUnmask t v => Sys2Proof.Machine.execVectorUnmask t v s
  | .ringTailWrite t ring value => Sys2Proof.Machine.execRingTailWrite t ring value s
  | .ringHeadWrite t ring value => Sys2Proof.Machine.execRingHeadWrite t ring value s
  | .brcReadSeqLo t value => Sys2Proof.Machine.execBrcReadSeqLo t value s
  | .brcData15Read t => Sys2Proof.Machine.execBrcData15Read t s
  | .registerWrite t off value => Sys2Proof.Machine.execRegisterWrite t off value s
  | .regWrite addr data => Sys2Proof.Machine.execRegWrite addr data s
  | .regRead addr len => Sys2Proof.Machine.execRegRead addr len s
  | .status cmd => Sys2Proof.Machine.execStatus cmd s
  | .loftWrite handle off data => Sys2Proof.Machine.execLoftWrite handle off data s
  | .loftRead handle off len => Sys2Proof.Machine.execLoftRead handle off len s
  | .apertureRead t off len ecc => Sys2Proof.Machine.execApertureRead t off len ecc s
  | .apertureWrite t off data => Sys2Proof.Machine.execApertureWrite t off data s
  | .submitConsume ring => Sys2Proof.Machine.execSubmitConsume ring s
  | .ringAttention ring waitedUs => Sys2Proof.Machine.execRingAttention ring waitedUs s
  | .submitNop ring => Sys2Proof.Machine.execSubmitNop ring s
  | .loftDmaIn ring => Sys2Proof.Machine.execLoftDmaIn ring s
  | .loftDmaOut ring => Sys2Proof.Machine.execLoftDmaOut ring s
  | .netSend ring => Sys2Proof.Machine.execNetSend ring s
  | .diskRead ring => Sys2Proof.Machine.execDiskRead ring s
  | .diskWrite ring => Sys2Proof.Machine.execDiskWrite ring s
  | .diskStampRead ring => Sys2Proof.Machine.execDiskStampRead ring s
  | .casCopy ring => Sys2Proof.Machine.execCasCopy ring s
  | .sysGetInfo c => Sys2Proof.Machine.execSysGetInfo c s
  | .sysSetMode c => Sys2Proof.Machine.execSysSetMode c s
  | .shelfStopTimeout forS => Sys2Proof.Machine.execShelfStopTimeout forS s
  | .modeChangeComplete => Sys2Proof.Machine.execModeChangeComplete s
  | .sysEcho c => Sys2Proof.Machine.execSysEcho c s
  | .tenReset c => Sys2Proof.Machine.execTenReset c s
  | .svcAssign c => Sys2Proof.Machine.execSvcAssign c s
  | .tenEnable c => Sys2Proof.Machine.execTenEnable c s
  | .tenGetStatus c => Sys2Proof.Machine.execTenGetStatus c s
  | .svcGet c => Sys2Proof.Machine.execSvcGet c s
  | .tenFault c => Sys2Proof.Machine.execTenFault c s
  | .sysSupplyConfig c => Sys2Proof.Machine.execSysSupplyConfig c s
  | .sysSupplyStatus c => Sys2Proof.Machine.execSysSupplyStatus c s
  | .loftAlloc c => Sys2Proof.Machine.execLoftAlloc c s
  | .loftFree c => Sys2Proof.Machine.execLoftFree c s
  | .ringOpen c => Sys2Proof.Machine.execRingOpen c s
  | .ringClose c => Sys2Proof.Machine.execRingClose c s
  | .loftQuotaSet c => Sys2Proof.Machine.execLoftQuotaSet c s
  | .loftGetStatus c => Sys2Proof.Machine.execLoftGetStatus c s
  | .overload t => Sys2Proof.Machine.execOverload t s
  | .patrolScrub yealm granule double => Sys2Proof.Machine.execPatrolScrub yealm granule double s
  | .yealmRetired yealm pass => Sys2Proof.Machine.execYealmRetired yealm pass s
  | .irqRouteSet c => Sys2Proof.Machine.execIrqRouteSet c s
  | .irqRouteGet c => Sys2Proof.Machine.execIrqRouteGet c s
  | .irqGetOwners c => Sys2Proof.Machine.execIrqGetOwners c s
  | .timeGetStatus c => Sys2Proof.Machine.execTimeGetStatus c s
  | .timeRefConfig c => Sys2Proof.Machine.execTimeRefConfig c s
  | .timeDpllConfig c => Sys2Proof.Machine.execTimeDpllConfig c s
  | .timeOscConfig c => Sys2Proof.Machine.execTimeOscConfig c s
  | .timeSelect c => Sys2Proof.Machine.execTimeSelect c s
  | .timeSet c => Sys2Proof.Machine.execTimeSet c s
  | .timeSetOffsets c => Sys2Proof.Machine.execTimeSetOffsets c s
  | .timeSchedule c => Sys2Proof.Machine.execTimeSchedule c s
  | .timeGetOffsets c => Sys2Proof.Machine.execTimeGetOffsets c s
  | .timeCadenceSet c => Sys2Proof.Machine.execTimeCadenceSet c s
  | .timeCadenceGet c => Sys2Proof.Machine.execTimeCadenceGet c s
  | .timeTimArm c => Sys2Proof.Machine.execTimeTimArm c s
  | .timeTimRead c => Sys2Proof.Machine.execTimeTimRead c s
  | .timeSpineCalRead c => Sys2Proof.Machine.execTimeSpineCalRead c s
  | .timeGnssSend c => Sys2Proof.Machine.execTimeGnssSend c s
  | .timeRefStatus c => Sys2Proof.Machine.execTimeRefStatus c s
  | .gnssSentence sentence ms => Sys2Proof.Machine.execGnssSentence sentence ms s
  | .gnssPps err => Sys2Proof.Machine.execGnssPps err s
  | .refPpsEdge ref err => Sys2Proof.Machine.execRefPpsEdge ref err s
  | .refQualified ref forS err => Sys2Proof.Machine.execRefQualified ref forS err s
  | .refDisqualified ref cause => Sys2Proof.Machine.execRefDisqualified ref cause s
  | .waitToRestore ref forS err => Sys2Proof.Machine.execWaitToRestore ref forS err s
  | .dpllUpdate phase => Sys2Proof.Machine.execDpllUpdate phase s
  | .dpllLocked phaseNs freq forMs => Sys2Proof.Machine.execDpllLocked phaseNs freq forMs s
  | .dpllPhaseLoss phaseNs forMs => Sys2Proof.Machine.execDpllPhaseLoss phaseNs forMs s
  | .holdoverLimit forS => Sys2Proof.Machine.execHoldoverLimit forS s
  | .steerLimit forMs => Sys2Proof.Machine.execSteerLimit forMs s
  | .scheduleInstant => Sys2Proof.Machine.execScheduleInstant s
  | .scheduleWarning => Sys2Proof.Machine.execScheduleWarning s
  | .spineFrame isl bits => Sys2Proof.Machine.execSpineFrame isl bits s
  | .spineCalibration isl offset uncert restart crcFail => Sys2Proof.Machine.execSpineCalibration isl offset uncert restart crcFail s
  | .cadenceDescriptorApply output => Sys2Proof.Machine.execCadenceDescriptorApply output s
  | .timInEdge input falling sec ns frac widthPs => Sys2Proof.Machine.execTimInEdge input falling sec ns frac widthPs s
  | .oscInLoss periods => Sys2Proof.Machine.execOscInLoss periods s
  | .oscInRestored forMs => Sys2Proof.Machine.execOscInRestored forMs s
  | .sdRefclkLoss present ppm => Sys2Proof.Machine.execSdRefclkLoss present ppm s
  | .sdRefclkRestored ppm => Sys2Proof.Machine.execSdRefclkRestored ppm s
  | .vinWake vin forUs fell bootSel role miso => Sys2Proof.Machine.execVinWake vin forUs fell bootSel role miso s
  | .wakeN vin forUs bootSel role miso => Sys2Proof.Machine.execWakeN vin forUs bootSel role miso s
  | .resetN forUs => Sys2Proof.Machine.execResetN forUs s
  | .retractEndReset bootSel role miso => Sys2Proof.Machine.execRetractEndReset bootSel role miso s
  | .guardPowerOnReset vin => Sys2Proof.Machine.execGuardPowerOnReset vin s
  | .undervoltageLockout vhold forUs => Sys2Proof.Machine.execUndervoltageLockout vhold forUs s
  | .bootImageCheck copies readError bad => Sys2Proof.Machine.execBootImageCheck copies readError bad s
  | .campelStartTimeout ms => Sys2Proof.Machine.execCampelStartTimeout ms s
  | .cascadeBootTimeout forS => Sys2Proof.Machine.execCascadeBootTimeout forS s
  | .bootComplete => Sys2Proof.Machine.execBootComplete s
  | .bootGetStatus c => Sys2Proof.Machine.execBootGetStatus c s
  | .bootOtpRead c => Sys2Proof.Machine.execBootOtpRead c s
  | .bootOtpProgram c => Sys2Proof.Machine.execBootOtpProgram c s
  | .bootRollbackCommit c => Sys2Proof.Machine.execBootRollbackCommit c s
  | .bootPushDone c => Sys2Proof.Machine.execBootPushDone c s
  | .bootEpochSet c => Sys2Proof.Machine.execBootEpochSet c s
  | .bootRestart c => Sys2Proof.Machine.execBootRestart c s
  | .bootFlashErase c => Sys2Proof.Machine.execBootFlashErase c s
  | .bootFlashWrite c => Sys2Proof.Machine.execBootFlashWrite c s
  | .bootSlotCheck c => Sys2Proof.Machine.execBootSlotCheck c s
  | .sparGetVersion c => Sys2Proof.Machine.execSparGetVersion c s
  | .sparGetStatus c => Sys2Proof.Machine.execSparGetStatus c s
  | .sparReload c => Sys2Proof.Machine.execSparReload c s
  | .sparPatchCheck c => Sys2Proof.Machine.execSparPatchCheck c s
  | .haltRequest spar => Sys2Proof.Machine.execHaltRequest spar s
  | .bankSwitch spar bank program inbound taken => Sys2Proof.Machine.execBankSwitch spar bank program inbound taken s
  | .nop spar flip => Sys2Proof.Machine.execNop spar flip s
  | .jump spar flip => Sys2Proof.Machine.execJump spar flip s
  | .jumpIfInbound spar flip => Sys2Proof.Machine.execJumpIfInbound spar flip s
  | .waitTick spar flip => Sys2Proof.Machine.execWaitTick spar flip s
  | .waitEvent spar flip => Sys2Proof.Machine.execWaitEvent spar flip s
  | .signal spar flip => Sys2Proof.Machine.execSignal spar flip s
  | .halt spar flip => Sys2Proof.Machine.execHalt spar flip s
  | .loop spar flip => Sys2Proof.Machine.execLoop spar flip s
  | .wedgeSync flip => Sys2Proof.Machine.execWedgeSync flip s
  | .headSelect flip => Sys2Proof.Machine.execHeadSelect flip s
  | .seekStart flip => Sys2Proof.Machine.execSeekStart flip s
  | .settleCheck flip => Sys2Proof.Machine.execSettleCheck flip s
  | .writeSector flip rise fall => Sys2Proof.Machine.execWriteSector flip rise fall s
  | .readSector flip rise fall => Sys2Proof.Machine.execReadSector flip rise fall s
  | .verifySector flip rise fall => Sys2Proof.Machine.execVerifySector flip rise fall s
  | .skipDefect flip => Sys2Proof.Machine.execSkipDefect flip s
  | .edgePlan flip => Sys2Proof.Machine.execEdgePlan flip s
  | .ltcFrame flip => Sys2Proof.Machine.execLtcFrame flip s
  | .ptpSyncLaunch flip => Sys2Proof.Machine.execPtpSyncLaunch flip s
  | .ptpFollowUp flip => Sys2Proof.Machine.execPtpFollowUp flip s
  | .ptpAnnounce flip => Sys2Proof.Machine.execPtpAnnounce flip s
  | .bandState flip => Sys2Proof.Machine.execBandState flip s
  | .synthHop flip => Sys2Proof.Machine.execSynthHop flip s
  | .tddStep flip => Sys2Proof.Machine.execTddStep flip s
  | .powerStep flip => Sys2Proof.Machine.execPowerStep flip s
  | .ditherChip flip => Sys2Proof.Machine.execDitherChip flip s
  | .detSample flip codes => Sys2Proof.Machine.execDetSample flip codes s
  | .rfspiXfer flip => Sys2Proof.Machine.execRfspiXfer flip s
  | .interruptVector spar line data => Sys2Proof.Machine.execInterruptVector spar line data s
  | .twaitRelease spar tick => Sys2Proof.Machine.execTwaitRelease spar tick s
  | .ewaitRelease spar events tick => Sys2Proof.Machine.execEwaitRelease spar events tick s
  | .schedAction spar index tick sector => Sys2Proof.Machine.execSchedAction spar index tick sector s
  | .frameReceived p data fcsOk pcsErr sec ns frac => Sys2Proof.Machine.execFrameReceived p data fcsOk pcsErr sec ns frac s
  | .xoffRepeat p sinceNs => Sys2Proof.Machine.execXoffRepeat p sinceNs s
  | .xon p => Sys2Proof.Machine.execXon p s
  | .heldFrameAdmit p => Sys2Proof.Machine.execHeldFrameAdmit p s
  | .heldFrameTimeout p us => Sys2Proof.Machine.execHeldFrameTimeout p us s
  | .pauseReceived p da quanta => Sys2Proof.Machine.execPauseReceived p da quanta s
  | .pauseEnd p ns => Sys2Proof.Machine.execPauseEnd p ns s
  | .frameSent p sec ns frac => Sys2Proof.Machine.execFrameSent p sec ns frac s
  | .linkUp p forMs an => Sys2Proof.Machine.execLinkUp p forMs an s
  | .linkDown p hiBer inFrame => Sys2Proof.Machine.execLinkDown p hiBer inFrame s
  | .sfpLosEdge p level => Sys2Proof.Machine.execSfpLosEdge p level s
  | .sfpPresencePoll p tries ack a0 => Sys2Proof.Machine.execSfpPresencePoll p tries ack a0 s
  | .ddmPoll p tries ack data => Sys2Proof.Machine.execDdmPoll p tries ack data s
  | .sfpStuckRetry p freed => Sys2Proof.Machine.execSfpStuckRetry p freed s
  | .lpiEntry p idleUs launchUs => Sys2Proof.Machine.execLpiEntry p idleUs launchUs s
  | .lpiExit p launchUs => Sys2Proof.Machine.execLpiExit p launchUs s
  | .lldpSend p first sinceS => Sys2Proof.Machine.execLldpSend p first sinceS s
  | .lldpduReceived p txTw rxTw echoTx echoRx => Sys2Proof.Machine.execLldpduReceived p txTw rxTw echoTx echoRx s
  | .errSummary p sinceMs => Sys2Proof.Machine.execErrSummary p sinceMs s
  | .portFailed p noXferUs parity badSpine => Sys2Proof.Machine.execPortFailed p noXferUs parity badSpine s
  | .portRestored p afterMs => Sys2Proof.Machine.execPortRestored p afterMs s
  | .ethPortConfig c => Sys2Proof.Machine.execEthPortConfig c s
  | .ethPortStatus c => Sys2Proof.Machine.execEthPortStatus c s
  | .ethPortCounters c => Sys2Proof.Machine.execEthPortCounters c s
  | .ethFlowSet c => Sys2Proof.Machine.execEthFlowSet c s
  | .ethFlowGet c => Sys2Proof.Machine.execEthFlowGet c s
  | .ethFlowCounters c => Sys2Proof.Machine.execEthFlowCounters c s
  | .ethSfpXfer c => Sys2Proof.Machine.execEthSfpXfer c s
  | .delayReq p m => Sys2Proof.Machine.execDelayReq p m s
  | .signalingRequest p m type log duration => Sys2Proof.Machine.execSignalingRequest p m type log duration s
  | .cancelUnicastTransmission p m type => Sys2Proof.Machine.execCancelUnicastTransmission p m type s
  | .grantExpiry idx type heldS => Sys2Proof.Machine.execGrantExpiry idx type heldS s
  | .grantRenewal p k type heldS => Sys2Proof.Machine.execGrantRenewal p k type heldS s
  | .grantReceived p m type duration => Sys2Proof.Machine.execGrantReceived p m type duration s
  | .announceReceived p m a => Sys2Proof.Machine.execAnnounceReceived p m a s
  | .announceReceiptTimeout p intervals => Sys2Proof.Machine.execAnnounceReceiptTimeout p intervals s
  | .syncReceived p m twoStep sec ns => Sys2Proof.Machine.execSyncReceived p m twoStep sec ns s
  | .followUpReceived p m sec ns => Sys2Proof.Machine.execFollowUpReceived p m sec ns s
  | .delayRespReceived p m sec ns t3sec t3ns t3frac => Sys2Proof.Machine.execDelayRespReceived p m sec ns t3sec t3ns t3frac s
  | .syncTimeout p intervals => Sys2Proof.Machine.execSyncTimeout p intervals s
  | .authTimeout p forS => Sys2Proof.Machine.execAuthTimeout p forS s
  | .managementReceived p m tlv => Sys2Proof.Machine.execManagementReceived p m tlv s
  | .pdelayReceived p => Sys2Proof.Machine.execPdelayReceived p s
  | .followUp p => Sys2Proof.Machine.execFollowUp p s
  | .smTlvSend p => Sys2Proof.Machine.execSmTlvSend p s
  | .ptpGetStatus c => Sys2Proof.Machine.execPtpGetStatus c s
  | .ptpInstanceConfig c => Sys2Proof.Machine.execPtpInstanceConfig c s
  | .ptpInstanceStatus c => Sys2Proof.Machine.execPtpInstanceStatus c s
  | .ptpFollowersGet c => Sys2Proof.Machine.execPtpFollowersGet c s
  | .ptpUnicastMastersSet c => Sys2Proof.Machine.execPtpUnicastMastersSet c s
  | .ptpClockConfig c => Sys2Proof.Machine.execPtpClockConfig c s
  | .ptpAsymSet c => Sys2Proof.Machine.execPtpAsymSet c s
  | .ptpCalRun c => Sys2Proof.Machine.execPtpCalRun c s
  | .ptpAuthConfig c => Sys2Proof.Machine.execPtpAuthConfig c s
  | .ptpFollowerDrop c => Sys2Proof.Machine.execPtpFollowerDrop c s
  | .ptpCounters c => Sys2Proof.Machine.execPtpCounters c s
  | .alignEnd b ms => Sys2Proof.Machine.execAlignEnd b ms s
  | .zeroCrossing b pct dirOk rate => Sys2Proof.Machine.execZeroCrossing b pct dirOk rate s
  | .commutationStep b rate vinMa phaseMa => Sys2Proof.Machine.execCommutationStep b rate vinMa phaseMa s
  | .handoverTimeout b ms => Sys2Proof.Machine.execHandoverTimeout b ms s
  | .handoverRetry b ms => Sys2Proof.Machine.execHandoverRetry b ms s
  | .atSpeed speed forMs => Sys2Proof.Machine.execAtSpeed speed forMs s
  | .spinupTimeout forS => Sys2Proof.Machine.execSpinupTimeout forS s
  | .servoIndex err => Sys2Proof.Machine.execServoIndex err s
  | .genlockLocked => Sys2Proof.Machine.execGenlockLocked s
  | .genlockUnlock => Sys2Proof.Machine.execGenlockUnlock s
  | .decelToBrake speed => Sys2Proof.Machine.execDecelToBrake speed s
  | .brakeEnd b ms => Sys2Proof.Machine.execBrakeEnd b ms s
  | .regenLimit vin => Sys2Proof.Machine.execRegenLimit vin s
  | .regenClamp vin => Sys2Proof.Machine.execRegenClamp vin s
  | .regenResume vin => Sys2Proof.Machine.execRegenResume vin s
  | .aOvercurrent ma forUs => Sys2Proof.Machine.execAOvercurrent ma forUs s
  | .aStall steps => Sys2Proof.Machine.execAStall steps s
  | .bOvercurrent mv forUs => Sys2Proof.Machine.execBOvercurrent mv forUs s
  | .bStall steps => Sys2Proof.Machine.execBStall steps s
  | .bRestart ms => Sys2Proof.Machine.execBRestart ms s
  | .speedCmdUpdate v => Sys2Proof.Machine.execSpeedCmdUpdate v s
  | .speedCmdLost v noEdgeMs freq => Sys2Proof.Machine.execSpeedCmdLost v noEdgeMs freq s
  | .speedCmdRestored forMs => Sys2Proof.Machine.execSpeedCmdRestored forMs s
  | .motAConfig c => Sys2Proof.Machine.execMotAConfig c s
  | .motAStart c => Sys2Proof.Machine.execMotAStart c s
  | .motAStop c => Sys2Proof.Machine.execMotAStop c s
  | .motAGenlock c => Sys2Proof.Machine.execMotAGenlock c s
  | .motAStatus c => Sys2Proof.Machine.execMotAStatus c s
  | .motBConfig c => Sys2Proof.Machine.execMotBConfig c s
  | .motBSetSpeed c => Sys2Proof.Machine.execMotBSetSpeed c s
  | .motBStatus c => Sys2Proof.Machine.execMotBStatus c s
  | .paFltRise status => Sys2Proof.Machine.execPaFltRise status s
  | .paFltPersist forMs => Sys2Proof.Machine.execPaFltPersist forMs s
  | .servoWedge inTime parity number head gray a b c d tick pred => Sys2Proof.Machine.execServoWedge inTime parity number head gray a b c d tick pred s
  | .servoSearchEnd waitedUs => Sys2Proof.Machine.execServoSearchEnd waitedUs s
  | .seekError waitedMs elsewhere waiting => Sys2Proof.Machine.execSeekError waitedMs elsewhere waiting s
  | .loadTimeout ms => Sys2Proof.Machine.execLoadTimeout ms s
  | .headsParked => Sys2Proof.Machine.execHeadsParked s
  | .verifyDone rec id idx sec ns frac ok other fence => Sys2Proof.Machine.execVerifyDone rec id idx sec ns frac ok other fence s
  | .readDecodeDone id idx good other fence => Sys2Proof.Machine.execReadDecodeDone id idx good other fence s
  | .sliceKnownAnswerTest slice ok => Sys2Proof.Machine.execSliceKnownAnswerTest slice ok s
  | .chnHdaSet c => Sys2Proof.Machine.execChnHdaSet c s
  | .chnZoneSet c => Sys2Proof.Machine.execChnZoneSet c s
  | .chnCommit c => Sys2Proof.Machine.execChnCommit c s
  | .chnHeads c => Sys2Proof.Machine.execChnHeads c s
  | .chnCal c => Sys2Proof.Machine.execChnCal c s
  | .chnStatus c => Sys2Proof.Machine.execChnStatus c s
  | .chnPaXfer c => Sys2Proof.Machine.execChnPaXfer c s
  | .chnDefectRead c => Sys2Proof.Machine.execChnDefectRead c s
  | .chnDefectAdd c => Sys2Proof.Machine.execChnDefectAdd c s
  | .chnSliceEnable c => Sys2Proof.Machine.execChnSliceEnable c s
  | .lockGrant id => Sys2Proof.Machine.execLockGrant id s
  | .lockAged id waitedMs => Sys2Proof.Machine.execLockAged id waitedMs s
  | .diskCommandComplete id => Sys2Proof.Machine.execDiskCommandComplete id s
  | .diskGetStatus c => Sys2Proof.Machine.execDiskGetStatus c s
  | .diskTagLimit c => Sys2Proof.Machine.execDiskTagLimit c s
  | .recAreaSet c => Sys2Proof.Machine.execRecAreaSet c s
  | .recChannelSet c => Sys2Proof.Machine.execRecChannelSet c s
  | .recChannelStatus c => Sys2Proof.Machine.execRecChannelStatus c s
  | .recSegList c => Sys2Proof.Machine.execRecSegList c s
  | .recSegHold c => Sys2Proof.Machine.execRecSegHold c s
  | .recRead c => Sys2Proof.Machine.execRecRead c s
  | .sectorCloseTimer n => Sys2Proof.Machine.execSectorCloseTimer n s
  | .framedHoldRelease n => Sys2Proof.Machine.execFramedHoldRelease n s
  | .sectorHandOver n => Sys2Proof.Machine.execSectorHandOver n s
  | .segmentClosed n start => Sys2Proof.Machine.execSegmentClosed n start s
  | .blockSummary block sec ns frac ok => Sys2Proof.Machine.execBlockSummary block sec ns frac ok s
  | .patternApply b sec => Sys2Proof.Machine.execPatternApply b sec s
  | .calWaitEnd idx us calRead lockRead => Sys2Proof.Machine.execCalWaitEnd idx us calRead lockRead s
  | .hopLockCheck idx ns lockRead => Sys2Proof.Machine.execHopLockCheck idx ns lockRead s
  | .lockPoll b lockRead => Sys2Proof.Machine.execLockPoll b lockRead s
  | .temperatureRead idx t tries => Sys2Proof.Machine.execTemperatureRead idx t tries s
  | .rfFrameDone rx => Sys2Proof.Machine.execRfFrameDone rx s
  | .detectorConversion n code tick => Sys2Proof.Machine.execDetectorConversion n code tick s
  | .auxStuckRetry freed => Sys2Proof.Machine.execAuxStuckRetry freed s
  | .radioGetStatus c => Sys2Proof.Machine.execRadioGetStatus c s
  | .radioDeviceSet c => Sys2Proof.Machine.execRadioDeviceSet c s
  | .radioBandConfig c => Sys2Proof.Machine.execRadioBandConfig c s
  | .radioSynthConfig c => Sys2Proof.Machine.execRadioSynthConfig c s
  | .radioSynthTableSet c => Sys2Proof.Machine.execRadioSynthTableSet c s
  | .radioSynthCal c => Sys2Proof.Machine.execRadioSynthCal c s
  | .radioBandStart c => Sys2Proof.Machine.execRadioBandStart c s
  | .radioBandStop c => Sys2Proof.Machine.execRadioBandStop c s
  | .radioBandHop c => Sys2Proof.Machine.execRadioBandHop c s
  | .radioTddSet c => Sys2Proof.Machine.execRadioTddSet c s
  | .radioPowerTableSet c => Sys2Proof.Machine.execRadioPowerTableSet c s
  | .radioPowerSet c => Sys2Proof.Machine.execRadioPowerSet c s
  | .radioBiasConfig c => Sys2Proof.Machine.execRadioBiasConfig c s
  | .radioDetConfig c => Sys2Proof.Machine.execRadioDetConfig c s
  | .radioDetRead c => Sys2Proof.Machine.execRadioDetRead c s
  | .radioRfspiXfer c => Sys2Proof.Machine.execRadioRfspiXfer c s
  | .radioAuxXfer c => Sys2Proof.Machine.execRadioAuxXfer c s
  | .isoEstimate p chips saturated lOut cLevel errLevel => Sys2Proof.Machine.execIsoEstimate p chips saturated lOut cLevel errLevel s
  | .estimateAging p ageMs => Sys2Proof.Machine.execEstimateAging p ageMs s
  | .eaveIso sinceS => Sys2Proof.Machine.execEaveIso sinceS s
  | .oscillationMute p samples out inp => Sys2Proof.Machine.execOscillationMute p samples out inp s
  | .noiseRise b windows mean inMax => Sys2Proof.Machine.execNoiseRise b windows mean inMax s
  | .outOfBand b windows mean => Sys2Proof.Machine.execOutOfBand b windows mean s
  | .tddTimeMute => Sys2Proof.Machine.execTddTimeMute s
  | .tddResume b sinceMs => Sys2Proof.Machine.execTddResume b sinceMs s
  | .thermalMute forS => Sys2Proof.Machine.execThermalMute forS s
  | .thermalMuteLift forS => Sys2Proof.Machine.execThermalMuteLift forS s
  | .rfKillAssert ns => Sys2Proof.Machine.execRfKillAssert ns s
  | .rfKillRelease ms => Sys2Proof.Machine.execRfKillRelease ms s
  | .guardMuteRelease us => Sys2Proof.Machine.execGuardMuteRelease us s
  | .backoffExpiry b waitedS => Sys2Proof.Machine.execBackoffExpiry b waitedS s
  | .eaveGetStatus c => Sys2Proof.Machine.execEaveGetStatus c s
  | .eaveConfig c => Sys2Proof.Machine.execEaveConfig c s
  | .eaveShutdown c => Sys2Proof.Machine.execEaveShutdown c s
  | .eaveClear c => Sys2Proof.Machine.execEaveClear c s
  | .keyGetInfo c => Sys2Proof.Machine.execKeyGetInfo c s
  | .keyDerive c => Sys2Proof.Machine.execKeyDerive c s
  | .keyImport c => Sys2Proof.Machine.execKeyImport c s
  | .keyErase c => Sys2Proof.Machine.execKeyErase c s
  | .keySetUsers c => Sys2Proof.Machine.execKeySetUsers c s
  | .keyWrap c => Sys2Proof.Machine.execKeyWrap c s
  | .keyClaimSet c => Sys2Proof.Machine.execKeyClaimSet c s
  | .keyDebugUnlock c => Sys2Proof.Machine.execKeyDebugUnlock c s
  | .keyGetStatus c => Sys2Proof.Machine.execKeyGetStatus c s
  | .retiringZeroise slot => Sys2Proof.Machine.execRetiringZeroise slot s
  | .tapInstruction code => Sys2Proof.Machine.execTapInstruction code s
  | .brcGetStatus c => Sys2Proof.Machine.execBrcGetStatus c s
  | .brcRead c => Sys2Proof.Machine.execBrcRead c s
  | .brcFind c => Sys2Proof.Machine.execBrcFind c s
  | .brcWrite c => Sys2Proof.Machine.execBrcWrite c s
  | .brcCollected c => Sys2Proof.Machine.execBrcCollected c s
  | .brcNvmRetest c => Sys2Proof.Machine.execBrcNvmRetest c s
  | .journalSlotWrite ok bankFault => Sys2Proof.Machine.execJournalSlotWrite ok bankFault s
  | .recordsDropped => Sys2Proof.Machine.execRecordsDropped s
  | .chronicleSectorWrite okA okB waitedUs => Sys2Proof.Machine.execChronicleSectorWrite okA okB waitedUs s
  | .chronicleStarted => Sys2Proof.Machine.execChronicleStarted s
  | .chronicleLag waitedS => Sys2Proof.Machine.execChronicleLag waitedS s
  | .tightLeft forS => Sys2Proof.Machine.execTightLeft forS s
  | .recordForward => Sys2Proof.Machine.execRecordForward s
  | .discover rx => Sys2Proof.Machine.execDiscover rx s
  | .discoverEnd rx => Sys2Proof.Machine.execDiscoverEnd rx s
  | .discoverSend => Sys2Proof.Machine.execDiscoverSend s
  | .discoverEndTimeout waitedUs => Sys2Proof.Machine.execDiscoverEndTimeout waitedUs s
  | .time rx sec ns frac => Sys2Proof.Machine.execTime rx sec ns frac s
  | .timeFrameSend => Sys2Proof.Machine.execTimeFrameSend s
  | .offsets rx => Sys2Proof.Machine.execOffsets rx s
  | .offsetsSend => Sys2Proof.Machine.execOffsetsSend s
  | .role rx => Sys2Proof.Machine.execRole rx s
  | .leaseReq rx => Sys2Proof.Machine.execLeaseReq rx s
  | .leaseGrant rx => Sys2Proof.Machine.execLeaseGrant rx s
  | .mboxReq rx => Sys2Proof.Machine.execMboxReq rx s
  | .mboxRsp rx => Sys2Proof.Machine.execMboxRsp rx s
  | .mboxEvent rx => Sys2Proof.Machine.execMboxEvent rx s
  | .record rx => Sys2Proof.Machine.execRecord rx s
  | .copy rx => Sys2Proof.Machine.execCopy rx s
  | .copyAck rx => Sys2Proof.Machine.execCopyAck rx s
  | .mirror rx => Sys2Proof.Machine.execMirror rx s
  | .mirrorAck rx => Sys2Proof.Machine.execMirrorAck rx s
  | .mirrorPredecessorTimeout origin waitedUs => Sys2Proof.Machine.execMirrorPredecessorTimeout origin waitedUs s
  | .mirrorSegmentCut origin silentMs => Sys2Proof.Machine.execMirrorSegmentCut origin silentMs s
  | .imageReq rx => Sys2Proof.Machine.execImageReq rx s
  | .image rx => Sys2Proof.Machine.execImage rx s
  | .imageReqRetry waitedUs => Sys2Proof.Machine.execImageReqRetry waitedUs s
  | .heartbeat pos count pending => Sys2Proof.Machine.execHeartbeat pos count pending s
  | .heartbeatSend => Sys2Proof.Machine.execHeartbeatSend s
  | .ridgeLost sinceMs => Sys2Proof.Machine.execRidgeLost sinceMs s
  | .handbackTimeout forS => Sys2Proof.Machine.execHandbackTimeout forS s
  | .credit lane ack nak c0 c1 c2 c3 => Sys2Proof.Machine.execCredit lane ack nak c0 c1 c2 c3 s
  | .ackTimeout lane waitedUs => Sys2Proof.Machine.execAckTimeout lane waitedUs s
  | .laneLinkUp lane lockMs credit => Sys2Proof.Machine.execLaneLinkUp lane lockMs credit s
  | .laneLinkDown lane => Sys2Proof.Machine.execLaneLinkDown lane s
  | .linkDownRelease lane downMs => Sys2Proof.Machine.execLinkDownRelease lane downMs s
  | .rateIdle lane use forS => Sys2Proof.Machine.execRateIdle lane use forS s
  | .reqDown lane count use forS => Sys2Proof.Machine.execReqDown lane count use forS s
  | .reqUp lane count => Sys2Proof.Machine.execReqUp lane count s
  | .ackDown lane count => Sys2Proof.Machine.execAckDown lane count s
  | .ackUp lane count => Sys2Proof.Machine.execAckUp lane count s
  | .refuse lane => Sys2Proof.Machine.execRefuse lane s
  | .rateStepUpDemand lane queued waitUs use => Sys2Proof.Machine.execRateStepUpDemand lane queued waitUs use s
  | .rateSwitch lane => Sys2Proof.Machine.execRateSwitch lane s
  | .rateRelock lane locked us => Sys2Proof.Machine.execRateRelock lane locked us s
  | .casGetStatus c => Sys2Proof.Machine.execCasGetStatus c s
  | .casLaneSet c => Sys2Proof.Machine.execCasLaneSet c s
  | .casAsymSet c => Sys2Proof.Machine.execCasAsymSet c s
  | .casCalRun c => Sys2Proof.Machine.execCasCalRun c s
  | .casForwardSet c => Sys2Proof.Machine.execCasForwardSet c s
  | .casHandback c => Sys2Proof.Machine.execCasHandback c s
  | .casCounters c => Sys2Proof.Machine.execCasCounters c s
  | .pfail vin forUs => Sys2Proof.Machine.execPfail vin forUs s
  | .pfailCleared vin forMs => Sys2Proof.Machine.execPfailCleared vin forMs s
  | .railFault rail forUs => Sys2Proof.Machine.execRailFault rail forUs s
  | .railRecovered rail forMs => Sys2Proof.Machine.execRailRecovered rail forMs s
  | .vauxFault five ma forMs => Sys2Proof.Machine.execVauxFault five ma forMs s
  | .vauxRetry five ms => Sys2Proof.Machine.execVauxRetry five ms s
  | .thermWarn tj n => Sys2Proof.Machine.execThermWarn tj n s
  | .thermWarnClear tj forS => Sys2Proof.Machine.execThermWarnClear tj forS s
  | .thermCrit tj n => Sys2Proof.Machine.execThermCrit tj n s
  | .thermTrip tj forUs => Sys2Proof.Machine.execThermTrip tj forUs s
  | .millerWatchdog ms imageOk => Sys2Proof.Machine.execMillerWatchdog ms imageOk s
  | .dmaCompletion index result data => Sys2Proof.Machine.execDmaCompletion index result data s
  | .forwardedRequestTimeout t => Sys2Proof.Machine.execForwardedRequestTimeout t s
  | .lpiRxEntry p => Sys2Proof.Machine.execLpiRxEntry p s
  | .lpiRxWake p => Sys2Proof.Machine.execLpiRxWake p s
  | .resetNRelease bootSel role miso => Sys2Proof.Machine.execResetNRelease bootSel role miso s
  | .perstNRelease => Sys2Proof.Machine.execPerstNRelease s
  | .peRefclkLoss => Sys2Proof.Machine.execPeRefclkLoss s
  | .peRefclkRestored => Sys2Proof.Machine.execPeRefclkRestored s
  | .guardResetRelease vin => Sys2Proof.Machine.execGuardResetRelease vin s
  | .heldWakeRelease tj bootSel role miso => Sys2Proof.Machine.execHeldWakeRelease tj bootSel role miso s
  | .otpProgramComplete ok => Sys2Proof.Machine.execOtpProgramComplete ok s
  | .flashOperationComplete ok => Sys2Proof.Machine.execFlashOperationComplete ok s
  | .twoWireTransactionEnd aux tries ack stretchMs lost data => Sys2Proof.Machine.execTwoWireTransactionEnd aux tries ack stretchMs lost data s
  | .ptpCalRunEnd errs => Sys2Proof.Machine.execPtpCalRunEnd errs s
  | .casCalRunEnd errs => Sys2Proof.Machine.execCasCalRunEnd errs s

end Sys2Proof.Machine
end

