-- ==== Sys2Proof/Machine/Tick.lean ====
section
/-!
DEFINITION. What one microsecond does when no command waits: the counters of time advance, and the device reset that
BOOT_RESTART asked for begins.
-/
namespace Sys2Proof.Machine

/-- One microsecond of a module that runs: the uptime, the internal time, and the time channel A is not STOPPED (Table
MOT.9); DESIGN CHOICE, log entry 2. -/
def advance (s : State) : State :=
  { s with
      up := s.up + 1
      timebase := { s.timebase with now := s.timebase.now.addNs 1000 }
      motor := { s.motor with a := { s.motor.a with runUs := s.motor.a.runUs + if s.motor.a.state = .stopped then 0 else 1 } } }

/-- A tick: time advances, and 1 ms after BOOT_RESTART's response its device reset begins (R277, Table BOT.10). -/
def tick (s : State) : State :=
  if s.powered then
    let s1 := advance s
    if s.boot.restartAt.any (· ≤ s1.up) then startReset 4 s1 else s1
  else s

end Sys2Proof.Machine
end

