-- ==== Sys2Proof/Safety.lean ====
section
/-!
DEFINITION. The terms the statements use: a request that is taken and passes every check, the answer to it, the memory
in canonical form, a read of one byte of Loft memory.
-/
namespace Sys2Proof.Machine
open Sys2Proof

/-- The byte Loft memory holds at an address: an unlisted byte is zero (R129). -/
def State.byte (s : State) (a : Nat) : BitVec 8 := mgetD s.loft.mem a 0#8

/-- The memory of the Loft is in its canonical form. -/
def State.memOk (s : State) : Prop := memWf s.loft.mem = true

/-- The parts of the state, one per field of it. -/
inductive Part where
  | tenants | views | svcOwner | svcRights | jobs | loft | rings | subs | spiMalformed | recorder | boot | supply | timebase
  | spars | net | motor | channel | diskq | radio | keys | cascade | out | up | free | pending
  deriving DecidableEq, Repr

/-- A frame: every part of the state but the listed ones is as before; the log and the Loft's memory are parts of it. -/
abbrev KeepsBut (ps : List Part) (s z : State) : Prop :=
  (.tenants ∈ ps ∨ z.tenants = s.tenants) ∧ (.views ∈ ps ∨ z.views = s.views) ∧
    (.svcOwner ∈ ps ∨ z.svcOwner = s.svcOwner) ∧ (.svcRights ∈ ps ∨ z.svcRights = s.svcRights) ∧
    (.jobs ∈ ps ∨ z.jobs = s.jobs) ∧ (.loft ∈ ps ∨ z.loft = s.loft) ∧ (.rings ∈ ps ∨ z.rings = s.rings) ∧
    (.subs ∈ ps ∨ z.subs = s.subs) ∧ (.spiMalformed ∈ ps ∨ z.spiMalformed = s.spiMalformed) ∧
    (.recorder ∈ ps ∨ z.recorder = s.recorder) ∧ (.boot ∈ ps ∨ z.boot = s.boot) ∧
    (.supply ∈ ps ∨ z.supply = s.supply) ∧ (.timebase ∈ ps ∨ z.timebase = s.timebase) ∧
    (.spars ∈ ps ∨ z.spars = s.spars) ∧ (.net ∈ ps ∨ z.net = s.net) ∧ (.motor ∈ ps ∨ z.motor = s.motor) ∧
    (.channel ∈ ps ∨ z.channel = s.channel) ∧ (.diskq ∈ ps ∨ z.diskq = s.diskq) ∧ (.radio ∈ ps ∨ z.radio = s.radio) ∧
    (.keys ∈ ps ∨ z.keys = s.keys) ∧ (.cascade ∈ ps ∨ z.cascade = s.cascade) ∧ (.out ∈ ps ∨ z.out = s.out) ∧
    (.up ∈ ps ∨ z.up = s.up) ∧ (.free ∈ ps ∨ z.free = s.free) ∧ (.pending ∈ ps ∨ z.pending = s.pending)

/-- The state in which a doorbell has been taken: the request in MB_REQ, BUSY set, RSP_READY clear (R191). -/
def begun (op : Nat) (c : Call) (s : State) : State :=
  takeRequest c.t.val c.spi (s.updTen c.t.val fun x =>
    { x with mbReq := fit 256 (encodeReq op c.seq c.t.val (b2n c.asyncOk) 0 c.payload) })

/-- A doorbell is taken: the module runs, its host island too, and the mailbox is not BUSY (R191, R265). -/
abbrev Taken (c : Call) (s : State) : Prop :=
  s.powered = true ∧ s.supply.isl.host = true ∧ mailboxBusy s c.t.val = false ∧ c.payload.length ≤ 240

/-- A request is served: its doorbell is taken and it passes the checks of Table TEN.8 that come before the command's own
(R200): it is permitted in the tenant's state and the module's mode, its length and its fields are right. -/
abbrev Served (cmd : Cmd) (c : Call) (s : State) : Prop :=
  Taken c s ∧ checks cmd (callReq c cmd.op) (begun cmd.op c s) = none

/-- An asynchronous command can be accepted: ASYNC_OK is set, and in the Campel stage a slot of the tenant's EVENT ring
can be reserved (R185, R205). -/
abbrev MayAccept (c : Call) (s : State) : Prop :=
  c.asyncOk = true ∧ (s.campel = true → canReserve s c.t.val = true)

/-- The mailbox holds the response to a call: its opcode and sequence, a status, a payload, no token (R193, R202). -/
abbrev Answered (c : Call) (op st : Nat) (p : Bytes) (t : State) : Prop :=
  (t.ten c.t.val).busy = false ∧ (t.ten c.t.val).rspReady = true ∧
    (t.ten c.t.val).rsp.map (fun r => (r.op, r.seq, r.status, r.tokenValid, r.payload)) = some (op, c.seq, st, false, p)

/-- The mailbox holds ACCEPTED with a token, and the work under that token is in flight: a job of which `P` holds (R205,
R206). -/
abbrev AcceptedAs (c : Call) (op : Nat) (P : Job → Bool) (t : State) : Prop :=
  (t.ten c.t.val).busy = false ∧ (t.ten c.t.val).rspReady = true ∧
    ((t.ten c.t.val).rsp.any fun r => r.op == op && r.seq == c.seq && r.status == St.accepted && r.tokenValid &&
      t.jobs.any fun j => j.token == r.token && j.tenant == c.t.val && j.op == op && P j) = true

/-- The next entry of SUBMIT ring `n`, the descriptor `d`, can be consumed: no bound holds it, and its completion goes to
COMPLETE ring `p` (R159, R161). -/
abbrev Consumable (n p : Nat) (d : Bytes) (s : State) : Prop :=
  s.powered = true ∧ hasEntry s n = true ∧ nextDesc s n = d ∧ submitBound s n (s.ring n).owner d = none ∧
    (s.supply.mode = .safe → (s.ring n).owner = 0) ∧ n < 32 ∧ p < 32 ∧ (s.ring n).pair = some p

/-- The COMPLETE descriptor `d` stands in the slot of ring `p` that was the next one, and TAIL has passed it (R160). -/
abbrev Completed (p : Nat) (d : Bytes) (s t : State) : Prop :=
  loftRead t (slotAddr p (s.ring p) (s.ring p).tail) 31 = d ∧ (t.ring p).tail = ((s.ring p).tail + 1) % 2 ^ 32

/-- Spar `i` is about to execute the instruction with OPC `k` and operand `o`: it runs and does not wait, no memory it reads
has wrong parity, the store is the base one, no fault or line is pending, and an address follows (R323 to R327). -/
abbrev SparAt (i k o : Nat) (s : State) : Prop :=
  s.powered = true ∧ sparGoes s i = true ∧ (s.spar i).badProg.contains ((s.spar i).bank * 1024 + (s.spar i).pc) = false ∧
    fld ((s.spar i).instr (s.spar i).pc) 24 8 = k ∧ fld ((s.spar i).instr (s.spar i).pc) 0 24 = o ∧
    (s.spar i).badDispatch.contains k = false ∧ (s.spar i).plain k = true ∧ (s.spar i).fault = none ∧ (s.spar i).lines = [] ∧
    (s.spar i).pc < 1023 ∧ i < 3

/-- The Spar's instruction has retired and `next` follows it (R323, R326). -/
abbrev Retired (i next : Nat) (s t : State) : Prop :=
  (t.spar i).pc = next ∧ (t.spar i).instructions = ((s.spar i).instructions + 1) % 2 ^ 32 ∧ (t.spar i).stall = none ∧
    (t.spar i).state = .running

/-- Counter `i` of port `p` has risen by `n` (Table ETH.4). -/
abbrev PortCounted (p i n : Nat) (s t : State) : Prop := vat (t.port p).counters i = wrap64 (vat (s.port p).counters i + n)

/-- PTP counter `i` of port `p` has risen by one (Table PTP.12). -/
abbrev PtpCounted (p i : Nat) (s t : State) : Prop := vat (t.inst p).counters i = wrap64 (vat (s.inst p).counters i + 1)

/-- A received message without an AUTHENTICATION TLV reaches an instance that runs and asks for none (R461, R470). -/
abbrev PtpHeard (p : Nat) (m : PtpRx) (s : State) : Prop :=
  s.powered = true ∧ portRuns s p = true ∧ (s.inst p).active = true ∧ m.auth = none ∧ (s.inst p).authFlags = 0

/-- The module and a port's island run, and its link is up. -/
abbrev PortUp (p : Nat) (s : State) : Prop := s.powered = true ∧ portRuns s p = true ∧ (s.port p).link = true

/-- A plain frame arrives on a lane whose link is up, the next in order, whole, and is let in (R884, R885, R902). -/
abbrev LaneHeard (rx : LaneRx) (s : State) : Prop :=
  s.powered = true ∧ s.supply.isl.cascade = true ∧ (s.laneOf rx.lane.val).state = .up ∧ (s.laneOf rx.lane.val).rxSeq < 65536 ∧
    rx.fseq = ((s.laneOf rx.lane.val).rxSeq + 1) % 65536 ∧ rx.blockErr = false ∧ rx.crcOk = true ∧ rx.encrypted = false ∧
    (s.laneOf rx.lane.val).require = false

/-- The frame is for this module's position of the chain (R904). -/
abbrev ForHere (rx : LaneRx) (s : State) : Prop :=
  s.cascade.valid = true ∧ s.cascade.outside = false ∧ rx.dest.val = s.cascade.position

/-- A plain frame of a type and length can start on a lane at once (R883, R890, R901). -/
abbrev LaneClear (l type len : Nat) (s : State) : Prop :=
  laneOpen (s.laneOf l) = true ∧ (s.laneOf l).queue = [] ∧ (s.laneOf l).encrypt = false ∧
    frameUnits len ≤ vat (s.laneOf l).credit (frameVc type)

/-- A plain frame has left on a lane and is the last one not acknowledged: type, destination, origin, payload (R884,
R885). -/
abbrev LaneSent (l type dest origin : Nat) (p : Bytes) (t : State) : Prop :=
  .lane l type dest origin false false p ∈ t.out ∧
    ((t.laneOf l).unacked.getLast?.map fun f => (f.type, f.dest, f.origin, f.encrypted, f.payload)) = some (type, dest, origin, false, p)

/-- A frame has been accepted: its FSEQ, the counts of frames and bytes received, and a CREDIT block that acknowledges it and
returns its credit (R883, R884, CAS_COUNTERS). -/
abbrev LaneTook (rx : LaneRx) (type : Nat) (s z : State) : Prop :=
  (z.laneOf rx.lane).rxSeq = rx.fseq ∧
    vat (z.laneOf rx.lane).counters 1 = wrap64 (vat (s.laneOf rx.lane).counters 1 + 1) ∧
    vat (z.laneOf rx.lane).counters 3 = wrap64 (vat (s.laneOf rx.lane).counters 3 + rx.payload.length) ∧
    .block rx.lane 0x55 (leBytes 2 rx.fseq ++ [0#8] ++ (List.range 4).map fun i =>
      BitVec.ofNat 8 (if i = frameVc type then min 255 (frameUnits rx.payload.length) else 0)) ∈ z.out

/-- A forwarded request executed at its target: the answer, and the state it leaves (R905). -/
abbrev mboxServed (rx : LaneRx) (s : State) : Answer × State :=
  executeReq (reqOf (rx.payload.drop 4) (byteAt rx.payload 0) (some rx.origin.val)) (laneAccept 0x10 rx s).2

/-- Only the mailbox of the requesting tenant changes among the tenants (R191, R193). -/
abbrev MailboxOnly (c : Call) (s z : State) : Prop :=
  ∀ k : Fin 8, z.ten k = if k = c.t then
    { s.ten k with
        mbReq := (z.ten k).mbReq, rsp := (z.ten k).rsp, rspReady := (z.ten k).rspReady, busy := (z.ten k).busy
        transport := (z.ten k).transport, lastSeq := (z.ten k).lastSeq, requests := (z.ten k).requests
        outstanding := (z.ten k).outstanding }
    else s.ten k

/-- The interrupt views and what leaves the device are those of one raise of a source (R238, R242, R249). -/
abbrev Rang (src : Nat) (s z : State) : Prop := z.views = (raiseSrc src s).views ∧ z.out = (raiseSrc src s).out

/-- What a served request may change besides the listed parts: the mailbox of its tenant, the views, what leaves the
device. -/
abbrev SetsOnly (ps : List Part) (c : Call) (s z : State) : Prop :=
  KeepsBut (.tenants :: .views :: .out :: ps) s z ∧ MailboxOnly c s z

/-- A request that only reads: the mailbox of its tenant takes the answer, source 32 + t rings, nothing else changes (R193). -/
abbrev ReadsOnly (c : Call) (s z : State) : Prop := SetsOnly [] c s z ∧ Rang (32 + c.t.val) s z

/-- What a request answered ACCEPTED may change besides the listed parts: the mailbox and the last token of its tenant, one job
more in flight, the views, what leaves the device (R205, R206). -/
abbrev StartsOnly (ps : List Part) (c : Call) (s z : State) : Prop :=
  KeepsBut (.tenants :: .views :: .out :: .jobs :: ps) s z ∧ z.jobs.dropLast = s.jobs ∧
    ∀ k : Fin 8, z.ten k = if k = c.t then
      { s.ten k with
          mbReq := (z.ten k).mbReq, rsp := (z.ten k).rsp, rspReady := (z.ten k).rspReady, busy := (z.ten k).busy
          transport := (z.ten k).transport, lastSeq := (z.ten k).lastSeq, requests := (z.ten k).requests
          outstanding := (z.ten k).outstanding, lastToken := nextToken (s.ten k) }
      else s.ten k

/-- The commands that act on a module whose rails are off: the wakes, the resets and lockout of the Guard island, and the
levels of RESET_N, PERST_N and the reference clocks at the balls (R986 to R989, Table PWR.3). -/
def ofGuard : Instr → Bool
  | .perstN _ | .sdRefclkLoss _ _ | .sdRefclkRestored _ | .vinWake _ _ _ _ _ _ | .wakeN _ _ _ _ _ | .resetN _ => true
  | .retractEndReset _ _ _ | .guardPowerOnReset _ | .undervoltageLockout _ _ | .resetNRelease _ _ _ | .perstNRelease => true
  | .peRefclkLoss | .peRefclkRestored | .guardResetRelease _ | .heldWakeRelease _ _ _ _ => true
  | _ => false

/-- What no loss of power and no reset takes: OTP, boot flash, journal, chronicle, the medium and its defect list; and the
queue of commands (R24, R293, R830, R989). -/
abbrev Survives (s z : State) : Prop :=
  z.boot.otp = s.boot.otp ∧ z.boot.flash = s.boot.flash ∧ z.recorder.journal = s.recorder.journal ∧
    z.recorder.chron = s.recorder.chron ∧ z.channel.medium = s.channel.medium ∧ z.channel.defects = s.channel.defects ∧
    z.pending = s.pending

/-- The parts that stand at their reset values: tenants, views, services, tokens, rings, the Loft, the Spars, the keys (R24). -/
abbrev Cleared (z : State) : Prop :=
  z.tenants = State.reset.tenants ∧ z.views = State.reset.views ∧ z.svcOwner = State.reset.svcOwner ∧
    z.svcRights = State.reset.svcRights ∧ z.jobs = [] ∧ z.rings = State.reset.rings ∧ z.subs = [] ∧ z.loft.mem = [] ∧
    z.loft.tags = [] ∧ z.spars = State.reset.spars ∧ z.keys = {} ∧ z.up = 0

/-- A device reset with this RESET_CAUSE and these straps has begun a boot (R24, R268, R1017, R1037). -/
abbrev Rebooted (cause : Nat) (bootSel role : Fin 4) (miso : Bool) (s z : State) : Prop :=
  z.powered = true ∧ z.supply.resetCause = cause ∧ z.supply.mode = .booting ∧ z.campel = false ∧ z.boot.strap = bootSel.val ∧
    z.boot.role = role.val ∧ z.boot.spi7 = miso ∧ z.boot.romDone = true ∧ Survives s z ∧ Cleared z

/-- Every rail but VGUARD is off, for this reason (R988, R989, R1004, R1012). -/
abbrev Dark (k : Power) (s z : State) : Prop :=
  z.supply.power = k ∧ z.supply.isl = noIslands ∧ Survives s z ∧ Cleared z

/-- The module runs and its firmware with it, and interrupts reach the views (R265, Table BOT.1). -/
abbrev Up (s : State) : Prop := s.powered = true ∧ s.campel = true ∧ s.supply.isl.host = true

/-- A source has been raised once: tenant 0's view, in which every source is visible, latched and counted it (R238, R242,
R245). -/
abbrev Raised (src : Nat) (s z : State) : Prop :=
  (z.view 0).raw.getLsbD src = true ∧ vat (z.view 0).count src = (vat (s.view 0).count src + 1) % 2 ^ 32

/-- The recorder takes a record now: it has sequence numbers and room in staging, and skips none (R827, R833, R847, R857). -/
abbrev CanRecord (s : State) : Prop :=
  s.recorder.exhausted = false ∧ s.recorder.tight = false ∧ s.recorder.staging.length < 64 ∧ s.recorder.head + 2 < seqLast

/-- A new record of a code, severity and tenant is in staging (R824, R827). -/
abbrev Recorded (code sev ten : Nat) (s z : State) : Prop :=
  (z.recorder.staging.any fun x => decide (s.recorder.head < x.seq) && x.code == code && x.severity == sev && x.tenant == ten) = true

/-- The descriptor `d` stands in the slot of EVENT ring `n` that was the next one, and TAIL has passed it (R160, R163). -/
abbrev EventPosted (n : Nat) (d : Bytes) (s z : State) : Prop :=
  loftRead z (slotAddr n (s.ring n) (s.ring n).tail) 31 = d ∧ (z.ring n).tail = ((s.ring n).tail + 1) % 2 ^ 32

end Sys2Proof.Machine
end

