-- ==== Sys2Proof/Certificates/Slice0/Obligations.lean ====
section
/-! DEFINITION. The statements for the provers: what each command of the table does when it completes, and what holds of the whole
block. In a clause `s` is the state the command finds and `z` the state it leaves. -/
open Sys2Proof Sys2Proof.Machine

/-- Stepping a state with a command at the front of its queue is executing that command on the state with the rest of
the queue. On an empty queue a powered module that waits for no restart advances by one microsecond: the uptime, the
internal time and the run time of channel A that is not STOPPED, and nothing else; a module without power does not
move. The queue and the tick are the model's own (log entry 2). From Table TEN.15, Table MOT.9. -/
def Obligations.StepRunsTheFrontCommand : Prop :=
  (∀ (c : Instr) (l : List Instr) (s : State),
    step { s with pending := c :: l } = exec c { s with pending := l }) ∧
  (∀ (s : State),
    s.pending = [] →
    s.powered = true →
    s.boot.restartAt = none →
    step s = .next { s with up := s.up + 1, timebase := { s.timebase with now := s.timebase.now.addNs 1000 }, motor := { s.motor with a := { s.motor.a with runUs := s.motor.a.runUs + if s.motor.a.state = .stopped then 0 else 1 } } }) ∧
  (∀ (s : State),
    s.pending = [] →
    s.powered = false →
    step s = .next s)

/-- In every state every command answers a next state: none faults and none is refused. While the rails are off (off,
locked out, held in reset, SHELF, tripped) every command but the wakes, resets and lockout of the Guard island and the
levels at RESET_N, PERST_N and the reference clocks leaves the state exactly as it was. From R21, R986, R987, R988,
R989, R998, Table PWR.3. -/
def Obligations.CommandsAnswerAndNeedPower : Prop :=
  (∀ (c : Instr) (s : State),
    ∃ z, exec c s = .next z) ∧
  (∀ (c : Instr) (s : State),
    s.powered = false →
    ofGuard c = false →
    exec c s = .next s)

/-- From every state whose Loft memory is in canonical form (addresses strictly rising, no entry equal to the zero
that an unlisted byte reads as, R129), every step, whatever command stands at the front of the queue, gives a state
whose Loft memory is in canonical form. The form is the model's; that a byte no one has written reads zero is R129.
From R129, R130, R149. -/
def Obligations.LoftMemoryStaysCanonical : Prop :=
  (∀ (s z : State),
    s.memOk →
    step s = .next z →
    z.memOk)

/-- In the reset state, and after a device reset for any cause from any state: tenant 0 has a quota of 2,064,384
yealms and an ingress limit of 1,935,360, every other tenant has 0 and 0; every lane is AUTO, without encryption, and
ASYM_PS is 0 at both rates: lane settings are not persisted. The memory of the reset state is in canonical form, and
its queue is empty (the model's own, log entry 2). States R137, R929. -/
def Obligations.ResetLeavesTheStatedValues : Prop :=
  ((∀ t : Fin 8, (State.reset.ten t).quota = (if t = 0 then 2064384 else 0) ∧ (State.reset.ten t).ingress = if t = 0 then 1935360 else 0) ∧ (∀ l : Fin 2, (State.reset.laneOf l).policy = .auto ∧ (State.reset.laneOf l).encrypt = false ∧ (State.reset.laneOf l).require = false) ∧ State.reset.cascade.asymFull = 0 ∧ State.reset.cascade.asymQuarter = 0 ∧ State.reset.memOk ∧ State.reset.pending = []) ∧
  (∀ (cause : Nat) (s : State),
    let z := deviceReset cause s; (∀ t : Fin 8, (z.ten t).quota = (if t = 0 then 2064384 else 0) ∧ (z.ten t).ingress = if t = 0 then 1935360 else 0) ∧ (∀ l : Fin 2, (z.laneOf l).policy = .auto ∧ (z.laneOf l).encrypt = false ∧ (z.laneOf l).require = false) ∧ z.cascade.asymFull = 0 ∧ z.cascade.asymQuarter = 0 ∧ memWf z.loft.mem = true)

/-- On a -T, each of the 21 commands of the table with an opcode 0x07xx, from any tenant in any state and any mode,
whatever its payload, answers NOT_FITTED; only the mailbox of the requesting tenant and the interrupt of its response
change. A request of any 0x07xx opcode at all, defined or not, executed after its header checks, answers NOT_FITTED
and leaves the state as it was. States R10. -/
def Obligations.RadioRequestsAreNotFittedOnTheT : Prop :=
  (∀ (c : Call) (s : State),
    s.isT = true →
    Taken c s →
    ∀ p ∈ ([(.radioGetStatus, 0x0701), (.radioDeviceSet, 0x0702), (.radioBandConfig, 0x0703), (.radioSynthConfig, 0x0704), (.radioSynthTableSet, 0x0705), (.radioSynthCal, 0x0706), (.radioBandStart, 0x0707), (.radioBandStop, 0x0708), (.radioBandHop, 0x0709), (.radioTddSet, 0x070A), (.radioPowerTableSet, 0x070B), (.radioPowerSet, 0x070C), (.radioBiasConfig, 0x070D), (.radioDetConfig, 0x070E), (.radioDetRead, 0x070F), (.radioRfspiXfer, 0x0710), (.radioAuxXfer, 0x0711), (.eaveGetStatus, 0x0740), (.eaveConfig, 0x0741), (.eaveShutdown, 0x0742), (.eaveClear, 0x0743)] : List ((Call → Instr) × Nat)), ∃ z, exec (p.1 c) s = .next z ∧ Answered c p.2 St.notFitted [] z ∧ ReadsOnly c s z) ∧
  (∀ (q : Req) (s : State),
    s.isT = true →
    q.op / 256 = 7 →
    executeReq q s = (some (St.notFitted, none, []), s))

/-- A served LOFT_ALLOC within quota and with enough yealms in the pool answers OK with COUNT handles that the tenant
may use, each of a yealm that was free, and IN_USE rises by COUNT. A served LOFT_FREE of one current handle frees it
and advances its generation; of a stale one it answers FREE_STALE and counts an abuse. A served LOFT_QUOTA_SET that
keeps the sum of commitments within the pool sets quota, ingress limit and ring limit. LOFT_GET_STATUS answers Table
LFT.14. Nothing else changes. From R129, R132, R133, R138, R171, R172, R175. -/
def Obligations.LoftRequestsAllocateAndFree : Prop :=
  (∀ (c : Call) (s : State),
    Served cmdLoftAlloc c s →
    (s.ten c.t.val).held + byteAt c.payload 0 ≤ (s.ten c.t.val).quota →
    s.loft.tags.length + s.loft.gone.length + s.loft.testing.length + 64 < 2064384 →
    s.loft.tags.all (fun p => decide (p.2.gen < 256)) = true →
    ∃ z, exec (.loftAlloc c) s = .next z ∧ ∃ hs : List Nat,
      hs.length = byteAt c.payload 0 ∧
      Answered c 0x0301 St.ok (leBytes 1 hs.length ++ zeros 3 ++ hs.flatMap (leBytes 4)) z ∧
      (∀ h ∈ hs, usable z c.t.val h = true ∧ s.loft.isFree (hIndex h) = true) ∧
      (hs.map hIndex).Nodup ∧
      (z.ten c.t.val).held = (s.ten c.t.val).held + hs.length ∧
      KeepsBut [.tenants, .views, .out, .loft] s z) ∧
  (∀ (c : Call) (s : State),
    Served cmdLoftFree c s →
    byteAt c.payload 0 = 1 →
    freeStatus s c.t.val (rd c.payload 4 4) = St.ok →
    ∃ z, exec (.loftFree c) s = .next z ∧
      Answered c 0x0302 St.ok [0#8] z ∧
      z.loft.tag (hIndex (rd c.payload 4 4)) = { s.loft.tag (hIndex (rd c.payload 4 4)) with alloc := false, pins := 0, doomed := false, gen := if (s.loft.tag (hIndex (rd c.payload 4 4))).gen = 255 then 1 else (s.loft.tag (hIndex (rd c.payload 4 4))).gen + 1 } ∧
      (z.ten c.t.val).held = (s.ten c.t.val).held - 1 ∧
      z.loft.mem = s.loft.mem ∧
      KeepsBut [.tenants, .views, .out, .loft] s z) ∧
  (∀ (c : Call) (s : State),
    Served cmdLoftFree c s →
    byteAt c.payload 0 = 1 →
    freeStatus s c.t.val (rd c.payload 4 4) = St.freeStale →
    (s.ten c.t.val).abuseTimes = [] →
    c.t ≠ 0 →
    ∃ z, exec (.loftFree c) s = .next z ∧
      Answered c 0x0302 St.freeStale [0x20#8] z ∧
      (z.ten c.t.val).abuseTotal = inc32 (s.ten c.t.val).abuseTotal ∧
      KeepsBut [.tenants, .views, .out] s z) ∧
  (∀ (c : Call) (s : State),
    Served cmdLoftQuotaSet c s →
    ((List.range 8).map fun k => max (if k = byteAt c.payload 0 then rd c.payload 4 4 else (s.ten k).quota) (s.ten k).held).sum ≤ s.loft.poolSize →
    ∃ z, exec (.loftQuotaSet c) s = .next z ∧
      Answered c 0x0305 St.ok [] z ∧
      (z.ten (byteAt c.payload 0)).quota = rd c.payload 4 4 ∧
      (z.ten (byteAt c.payload 0)).ingress = rd c.payload 8 4 ∧
      (z.ten (byteAt c.payload 0)).ringLimit = byteAt c.payload 1 ∧
      (∀ k : Fin 8, k.val ≠ byteAt c.payload 0 → k ≠ c.t → z.ten k = s.ten k) ∧
      KeepsBut [.tenants, .views, .out] s z) ∧
  (∀ (c : Call) (s : State),
    Served cmdLoftGetStatus c s →
    ∃ z, exec (.loftGetStatus c) s = .next z ∧
      Answered c 0x0306 St.ok (loftStatus s (namedTenant c.t.val c.payload)) z ∧
      ReadsOnly c s z)

/-- A served RING_OPEN of a free ring within the ring limit opens it with its type, depth and thresholds, HEAD and
TAIL zero, its storage cleared, and answers its number and RING_BASE; every byte outside its storage is as before. A
served RING_CLOSE of a ring without work in flight closes it: its registers read zero and its COMPLETE partner is
free; with consumed work in flight it is ACCEPTED and the ring waits. Where a clause meets what the spec leaves open
it states the model's reading: log entries 48, 80. From R157, R165, R173, R174. -/
def Obligations.RingRequestsOpenAndClose : Prop :=
  (∀ (c : Call) (n : Nat) (s : State),
    Served cmdRingOpen c s →
    (byteAt c.payload 1 = 3 → eventRing s c.t.val = none) →
    ringNamed s c.payload = some n →
    openRings s c.t.val < (s.ten c.t.val).ringLimit →
    ∃ z, exec (.ringOpen c) s = .next z ∧
      Answered c 0x0303 St.ok (leBytes 1 n ++ zeros 3 ++ leBytes 4 (c.t.val * 2 ^ 29 + 2 ^ 21 + (1024 + 32 * n))) z ∧
      z.ring n = { opened := true, owner := c.t.val, type := RingType.ofCode (byteAt c.payload 1), log2 := byteAt c.payload 2, pair := if byteAt c.payload 1 = 0 then some (byteAt c.payload 3) else none, thCount := rd c.payload 4 2, thTimeout := rd c.payload 6 2 } ∧
      (byteAt c.payload 1 = 0 → (z.ring (byteAt c.payload 3)).pair = some n) ∧
      (∀ a, (1024 + 32 * n) * 4096 ≤ a → a < (1056 + 32 * n) * 4096 → z.byte a = 0#8) ∧
      (∀ a, a < (1024 + 32 * n) * 4096 ∨ (1056 + 32 * n) * 4096 ≤ a → z.byte a = s.byte a) ∧
      MailboxOnly c s z ∧
      KeepsBut [.tenants, .views, .out, .loft, .rings] s z) ∧
  (∀ (c : Call) (s : State),
    Served cmdRingClose c s →
    ((s.ring (byteAt c.payload 0)).type = .complete → (s.ring (byteAt c.payload 0)).pair = none) →
    ((s.ring (byteAt c.payload 0)).type = .event → reservedSlots s c.t.val = 0) →
    ((s.ring (byteAt c.payload 0)).type = .submit → (s.ring (byteAt c.payload 0)).inFlight = 0) →
    (s.ring (byteAt c.payload 0)).closing = false →
    ∃ z, exec (.ringClose c) s = .next z ∧
      Answered c 0x0304 St.ok [] z ∧
      z.ring (byteAt c.payload 0) = {} ∧
      (∀ p : Fin 32, (s.ring (byteAt c.payload 0)).pair = some p.val → (z.ring p).pair = none) ∧
      SetsOnly [.rings] c s z) ∧
  (∀ (c : Call) (s : State),
    Served cmdRingClose c s →
    MayAccept c s →
    (s.ring (byteAt c.payload 0)).type = .submit →
    (s.ring (byteAt c.payload 0)).inFlight ≠ 0 →
    (s.ring (byteAt c.payload 0)).closing = false →
    ∃ z, exec (.ringClose c) s = .next z ∧
      AcceptedAs c 0x0304 (fun j => j.key == byteAt c.payload 0 && j.waits) z ∧
      z.ring (byteAt c.payload 0) = { s.ring (byteAt c.payload 0) with head := (s.ring (byteAt c.payload 0)).tail, closing := true } ∧
      KeepsBut [.tenants, .views, .out, .jobs, .rings] s z)

/-- A write of TAIL of the own open SUBMIT ring between HEAD and HEAD plus depth that does not move backwards sets
TAIL; any other sets BAD_PTR alone. A write of HEAD of a device-produced ring that neither passes TAIL nor moves
backwards sets HEAD; any other sets BAD_PTR alone. A write to another tenant's open ring changes no ring and is
counted. Attention of a device-produced ring whose oldest entry has waited TIMEOUT_US raises its source. A due
OVERLOAD with new refusals writes its record and remembers the counts. A scrub that meets a single-bit error in a
written granule of an allocated yealm counts it for the owner and changes nothing else; a double-bit error poisons the
granule and is recorded. A retirement test that passes returns the yealm to the pool without its poison; one that
fails while spares remain remaps it to the next spare and is recorded. Where a clause meets what the spec leaves open
it states the model's reading: log entries 7, 50, 155, 156. From R158, R164, R165, R143, R146, R147, R151. -/
def Obligations.RingCountersAndLoftUpkeep : Prop :=
  (∀ (n : Fin 8) (r : Fin 32) (v : BitVec 32) (s : State),
    s.powered = true →
    windowOpen s n.val = true →
    (s.ring r).opened = true →
    (s.ring r).owner = n.val →
    (s.ring r).type = .submit →
    ∃ z, exec (.ringTailWrite n r v) s = .next z ∧
      z.ring r = (if (v.toNat + 2 ^ 32 - (s.ring r).head) % 2 ^ 32 ≤ (s.ring r).depth ∧ (s.ring r).waiting ≤ (v.toNat + 2 ^ 32 - (s.ring r).head) % 2 ^ 32 then { s.ring r with tail := v.toNat } else { s.ring r with badPtr := true }) ∧
      (∀ k : Fin 32, k ≠ r → z.ring k = s.ring k) ∧
      KeepsBut [.rings] s z) ∧
  (∀ (n : Fin 8) (r : Fin 32) (v : BitVec 32) (s : State),
    s.powered = true →
    windowOpen s n.val = true →
    (s.ring r).opened = true →
    (s.ring r).owner = n.val →
    (s.ring r).type ≠ .submit →
    ∃ z, exec (.ringHeadWrite n r v) s = .next z ∧
      z.ring r = (if ((s.ring r).tail + 2 ^ 32 - v.toNat) % 2 ^ 32 ≤ (s.ring r).waiting then { s.ring r with head := v.toNat } else { s.ring r with badPtr := true }) ∧
      (∀ k : Fin 32, k ≠ r → z.ring k = s.ring k) ∧
      KeepsBut [.rings] s z) ∧
  (∀ (n : Fin 8) (r : Fin 32) (v : BitVec 32) (s : State),
    s.powered = true →
    windowOpen s n.val = true →
    (s.ring r).opened = true →
    (s.ring r).owner ≠ n.val →
    ∃ z, exec (.ringTailWrite n r v) s = .next z ∧
      z.ten n = { s.ten n with foreignRing := inc32 (s.ten n).foreignRing } ∧
      (∀ k : Fin 8, k ≠ n → z.ten k = s.ten k) ∧
      KeepsBut [.tenants] s z) ∧
  (∀ (n : Fin 8) (r : Fin 32) (v : BitVec 32) (s : State),
    s.powered = true →
    windowOpen s n.val = true →
    (s.ring r).opened = true →
    (s.ring r).owner ≠ n.val →
    ∃ z, exec (.ringHeadWrite n r v) s = .next z ∧
      z.ten n = { s.ten n with foreignRing := inc32 (s.ten n).foreignRing } ∧
      (∀ k : Fin 8, k ≠ n → z.ten k = s.ten k) ∧
      KeepsBut [.tenants] s z) ∧
  (∀ (r : Fin 32) (us : Nat) (s : State),
    Up s →
    (s.ring r).opened = true →
    (s.ring r).type ≠ .submit →
    (s.ring r).waiting ≠ 0 →
    (s.ring r).thTimeout ≠ 0 →
    (s.ring r).thTimeout ≤ us →
    ∃ z, exec (.ringAttention r us) s = .next z ∧
      Raised r.val s z ∧
      KeepsBut [.views, .out] s z) ∧
  (∀ (n : Fin 8) (s : State),
    Up s →
    CanRecord s →
    (s.ten n).overloadAt = none →
    refusals (s.ten n) ≠ (s.ten n).overloadBase →
    ∃ z, exec (.overload n) s = .next z ∧
      Recorded 0x03A0 2 n.val s z ∧
      (z.ten n).overloadBase = refusals (s.ten n) ∧
      (z.ten n).overloadAt = some s.up ∧
      (∀ k : Fin 8, k ≠ n → z.ten k = s.ten k) ∧
      KeepsBut [.tenants, .recorder, .views, .out] s z) ∧
  (∀ (i : Nat) (g : Fin 64) (double : Bool) (s : State),
    Up s →
    CanRecord s →
    poolIndex i = true →
    (s.loft.tag i).alloc = true →
    (s.loft.tag i).owner < 8 →
    s.loft.written.contains (i * 64 + g.val) = true →
    ∃ z, exec (.patrolScrub i g double) s = .next z ∧
      (double = false → (z.ten (s.loft.tag i).owner).corrected = inc32 (s.ten (s.loft.tag i).owner).corrected ∧ KeepsBut [.tenants] s z) ∧
      (double = true → z.loft = { s.loft with poison := setIns s.loft.poison (i * 64 + g.val) } ∧ Recorded 0x03A2 3 (s.loft.tag i).owner s z ∧ KeepsBut [.loft, .recorder, .views, .out] s z)) ∧
  (∀ (i : Nat) (pass : Bool) (s : State),
    Up s →
    CanRecord s →
    s.loft.testing.contains i = true →
    1 < s.loft.spares →
    ∃ z, exec (.yealmRetired i pass) s = .next z ∧
      z.loft.testing = setDel s.loft.testing i ∧
      (∀ g ∈ z.loft.poison, g / 64 ≠ i) ∧
      (pass = true → z.loft.spares = s.loft.spares ∧ z.loft.remap = s.loft.remap ∧ KeepsBut [.loft] s z) ∧
      (pass = false → z.loft.spares = s.loft.spares - 1 ∧ mget z.loft.remap i = some (28672 + (4096 - s.loft.spares)) ∧ Recorded 0x03A3 3 0 s z) ∧
      z.loft.mem = s.loft.mem ∧
      KeepsBut [.loft, .recorder, .views, .out] s z)

/-- A consumable NOP descriptor completes OK: its ring's HEAD advances, its COMPLETE descriptor stands in the next
slot of the paired ring, every other byte of the Loft is as before. A consumable LOFT_DMA descriptor with right fields
pins its yealm, is in flight, and reads or writes host memory at its address. When a LOFT_DMA_IN ends, its bytes stand
in the yealm and it completes OK with its length. Where a clause meets what the spec leaves open it states the model's
reading: log entries 40, 75, 76, 81. From R131, R159, R160, R161, R167, R168. -/
def Obligations.SubmissionsRunFromTheirRing : Prop :=
  (∀ (n : Fin 32) (p : Nat) (d : Bytes) (s : State),
    Consumable n.val p d s →
    byteAt d 0 = 0 →
    ∃ z, exec (.submitConsume n) s = .next z ∧
      Completed p (completeDesc 0 St.ok (rd d 2 2) 0 0 [] s.timebase.now) s z ∧
      (z.ring n).head = ((s.ring n).head + 1) % 2 ^ 32 ∧
      (z.ring n).inFlight = (s.ring n).inFlight ∧
      (∀ a, a < slotAddr p (s.ring p) (s.ring p).tail ∨ slotAddr p (s.ring p) (s.ring p).tail + 32 ≤ a → z.byte a = s.byte a) ∧
      KeepsBut [.rings, .loft, .views, .out] s z) ∧
  (∀ (n : Fin 32) (p : Nat) (d : Bytes) (s : State),
    Consumable n.val p d s →
    byteAt d 0 = 0 →
    ∃ z, exec (.submitNop n) s = .next z ∧
      Completed p (completeDesc 0 St.ok (rd d 2 2) 0 0 [] s.timebase.now) s z ∧
      (z.ring n).head = ((s.ring n).head + 1) % 2 ^ 32 ∧
      (z.ring n).inFlight = (s.ring n).inFlight ∧
      (∀ a, a < slotAddr p (s.ring p) (s.ring p).tail ∨ slotAddr p (s.ring p) (s.ring p).tail + 32 ≤ a → z.byte a = s.byte a) ∧
      KeepsBut [.rings, .loft, .views, .out] s z) ∧
  (∀ (n : Fin 32) (p : Nat) (d : Bytes) (s : State),
    Consumable n.val p d s →
    byteAt d 0 = 1 →
    dmaFields s (s.ring n).owner d = true →
    ∃ z, exec (.loftDmaIn n) s = .next z ∧
      z.subs = s.subs ++ [{ ring := n.val, tenant := (s.ring n).owner, cls := 1, tag := rd d 2 2, desc := d }] ∧
      z.out.head? = some (.dmaRead (rd d 4 8) (rd d 18 2)) ∧
      (z.loft.tag (hIndex (rd d 12 4))).pins = (s.loft.tag (hIndex (rd d 12 4))).pins + 1 ∧
      (z.ring n).head = ((s.ring n).head + 1) % 2 ^ 32 ∧
      z.loft.mem = s.loft.mem ∧
      KeepsBut [.rings, .loft, .subs, .views, .out] s z) ∧
  (∀ (n : Fin 32) (p : Nat) (d : Bytes) (s : State),
    Consumable n.val p d s →
    byteAt d 0 = 2 →
    dmaFields s (s.ring n).owner d = true →
    ∃ z, exec (.loftDmaOut n) s = .next z ∧
      z.subs = s.subs ++ [{ ring := n.val, tenant := (s.ring n).owner, cls := 2, tag := rd d 2 2, desc := d, poisoned := s.loft.poisoned (dmaAddr d) (rd d 18 2) }] ∧
      z.out.head? = some (.dmaWrite (rd d 4 8) (loftRead s (dmaAddr d) (rd d 18 2)) (s.loft.poisoned (dmaAddr d) (rd d 18 2))) ∧
      (z.loft.tag (hIndex (rd d 12 4))).pins = (s.loft.tag (hIndex (rd d 12 4))).pins + 1 ∧
      z.loft.mem = s.loft.mem ∧
      KeepsBut [.rings, .loft, .subs, .views, .out] s z) ∧
  (∀ (i n p : Nat) (x : Sub) (data : Bytes) (s : State),
    s.powered = true →
    (s.subs.filter fun x => x.cls == 1 || x.cls == 2)[i]? = some x →
    x.cls = 1 →
    x.poisoned = false →
    x.ring = n →
    n < 32 →
    p < 32 →
    (s.ring n).opened = true →
    (s.ring n).pair = some p →
    (s.ring n).closing = false →
    (s.ring p).log2 ≤ 12 →
    poolIndex (hIndex (rd x.desc 12 4)) = true →
    rd x.desc 16 2 + rd x.desc 18 2 ≤ 4096 →
    ∃ z, exec (.dmaCompletion i 0 data) s = .next z ∧
      z.subs = s.subs.erase x ∧
      Completed p (completeDesc 1 St.ok x.tag (rd x.desc 18 2) 0 [] s.timebase.now) s z ∧
      loftRead z (dmaAddr x.desc) (rd x.desc 18 2) = fit (rd x.desc 18 2) data ∧
      KeepsBut [.tenants, .rings, .loft, .subs, .views, .out] s z)

/-- A word written to MB_REQ while the mailbox is not BUSY is the word a read of it returns, over PCIe and over SPI; a
write to no register changes nothing. An SPI transaction puts the port status byte on MS_MISO and then the register
words or 0xA5 and the Loft bytes; a command byte it does not know is malformed. An aperture or SPI write of a yealm of
the tenant stores its bytes and leaves every other byte; a read returns them. An aperture access that reaches nothing
is counted, reads zeros and writes nothing. Where a clause meets what the spec leaves open it states the model's
reading: log entries 78, 79, 152. From R19, R21, R153, R154, R192, R195, R196, R198. -/
def Obligations.WindowAccessesReachRegistersAndTheLoft : Prop :=
  (∀ (n : Fin 8) (k : Fin 64) (v : BitVec 32) (s : State),
    s.powered = true →
    ownOpen s n.val = true →
    (s.ten n).busy = false →
    (s.ten n).mbReq.length = 256 →
    ∃ z, exec (.registerWrite n (0x400 + 4 * k.val) v) s = .next z ∧
      regRead z n.val (0x400 + 4 * k.val) = v.toNat ∧
      (∀ j : Fin 64, j ≠ k → regRead z n.val (0x400 + 4 * j.val) = regRead s n.val (0x400 + 4 * j.val)) ∧
      (∀ j : Fin 8, j ≠ n → z.ten j = s.ten j) ∧
      KeepsBut [.tenants] s z) ∧
  (∀ (n : Fin 8) (off : Nat) (v : BitVec 32) (s : State),
    (off % 4 ≠ 0 ∨ off < 0x400 ∨ 0xC100 ≤ off) →
    ∃ z, exec (.registerWrite n off v) s = .next z ∧
      z = s) ∧
  (∀ (k : Fin 64) (data : Bytes) (s : State),
    s.powered = true →
    ownOpen s (spiTenant s) = true →
    (s.ten (spiTenant s)).busy = false →
    (s.ten (spiTenant s)).mbReq.length = 256 →
    data.length = 4 →
    ∃ z, exec (.regWrite (0x400 + 4 * k.val) data) s = .next z ∧
      regRead z (spiTenant s) (0x400 + 4 * k.val) = rd data 0 4 ∧
      z.spiMalformed = false ∧
      z.out = .miso (leBytes 1 (spiStatus s)) :: s.out ∧
      KeepsBut [.tenants, .out, .spiMalformed] s z) ∧
  (∀ (addr : Nat) (s : State),
    s.powered = true →
    s.supply.isl.host = true →
    addr < 65536 →
    addr % 4 = 0 →
    addr ≠ 0x807C →
    ∃ z, exec (.regRead addr 4) s = .next z ∧
      z.spiMalformed = false ∧
      z.out = .miso (leBytes 1 (spiStatus s) ++ 0#8 :: leBytes 4 (regRead s (spiTenant s) addr)) :: s.out ∧
      KeepsBut [.out, .spiMalformed] s z) ∧
  (∀ (b : BitVec 8) (s : State),
    s.powered = true →
    s.supply.isl.host = true →
    ∃ z, exec (.status b) s = .next z ∧
      z.spiMalformed = (b != 5#8) ∧
      z.out = .miso (leBytes 1 (spiStatus s)) :: s.out ∧
      KeepsBut [.out, .spiMalformed] s z) ∧
  (∀ (h : BitVec 32) (off : Nat) (data : Bytes) (s : State),
    s.powered = true →
    s.supply.isl.host = true →
    spiReaches s h.toNat = true →
    off < 4096 →
    off + data.length ≤ 4096 →
    data ≠ [] →
    ∃ z, exec (.loftWrite h off data) s = .next z ∧
      loftRead z (yAddr (hIndex h.toNat) off) data.length = data ∧
      (∀ a, a < yAddr (hIndex h.toNat) off ∨ yAddr (hIndex h.toNat) off + data.length ≤ a → z.byte a = s.byte a) ∧
      z.spiMalformed = false ∧
      KeepsBut [.loft, .out, .spiMalformed] s z) ∧
  (∀ (h : BitVec 32) (off len : Nat) (s : State),
    s.powered = true →
    s.supply.isl.host = true →
    spiReaches s h.toNat = true →
    off < 4096 →
    off + len ≤ 4096 →
    ∃ z, exec (.loftRead h off len) s = .next z ∧
      z.out = .miso (leBytes 1 (spiStatus s) ++ 0xA5#8 :: Machine.loftRead s (yAddr (hIndex h.toNat) off) len) :: s.out ∧
      z.spiMalformed = false ∧
      KeepsBut [.out, .spiMalformed] s z) ∧
  (∀ (n : Fin 8) (off len : Nat) (s : State),
    s.powered = true →
    s.supply.isl.host = true →
    off % 4096 + len ≤ 4096 →
    0 < len →
    reaches s n (off / 4096) = true →
    ∃ z, exec (.apertureRead n off len none) s = .next z ∧
      (s.loft.poisoned off len = false → z.out = .pcie (Machine.loftRead s off len) false :: s.out) ∧
      (s.loft.poisoned off len = true → z.out = .aer n.val :: .pcie (Machine.loftRead s off len) true :: s.out) ∧
      KeepsBut [.out] s z) ∧
  (∀ (n : Fin 8) (off len : Nat) (s : State),
    s.powered = true →
    s.supply.isl.host = true →
    off % 4096 + len ≤ 4096 →
    0 < len →
    reaches s n (off / 4096) = false →
    ∃ z, exec (.apertureRead n off len none) s = .next z ∧
      z.out = .pcie (zeros len) false :: s.out ∧
      z.ten n = { s.ten n with foreignAperture := inc32 (s.ten n).foreignAperture } ∧
      (∀ j : Fin 8, j ≠ n → z.ten j = s.ten j) ∧
      KeepsBut [.tenants, .out] s z) ∧
  (∀ (n : Fin 8) (off : Nat) (data : Bytes) (s : State),
    s.powered = true →
    s.supply.isl.host = true →
    off % 4096 + data.length ≤ 4096 →
    data ≠ [] →
    reaches s n (off / 4096) = true →
    ∃ z, exec (.apertureWrite n off data) s = .next z ∧
      Machine.loftRead z off data.length = data ∧
      (∀ a, a < off ∨ off + data.length ≤ a → z.byte a = s.byte a) ∧
      KeepsBut [.loft] s z) ∧
  (∀ (n : Fin 8) (off : Nat) (data : Bytes) (s : State),
    s.powered = true →
    s.supply.isl.host = true →
    off % 4096 + data.length ≤ 4096 →
    data ≠ [] →
    reaches s n (off / 4096) = false →
    ∃ z, exec (.apertureWrite n off data) s = .next z ∧
      z.ten n = { s.ten n with foreignAperture := inc32 (s.ten n).foreignAperture } ∧
      (∀ j : Fin 8, j ≠ n → z.ten j = s.ten j) ∧
      KeepsBut [.tenants] s z)

/-- SYS_GET_INFO, SYS_ECHO, TEN_GET_STATUS and SVC_GET answer OK with the bytes of their tables and change nothing but
the mailbox of the tenant and what its source raises. SVC_ASSIGN to a READY tenant, with rights for READY tenants,
sets owner and rights of that one service. TEN_ENABLE makes an ABSENT tenant READY. TEN_FAULT makes a READY tenant
FAULTED with cause 3, raises its source, records it, and stalls its SUBMIT rings. Where a clause meets what the spec
leaves open it states the model's reading: log entry 110. From R193, R202, R217, R218, R221, R224, R210. -/
def Obligations.ServiceRequestsAnswer : Prop :=
  (∀ (c : Call) (s : State),
    Served cmdSysGetInfo c s →
    ∃ z, exec (.sysGetInfo c) s = .next z ∧
      Answered c 0x0101 St.ok (leBytes 4 (idWord s 0) ++ leBytes 4 (idWord s 1) ++ leBytes 4 (idWord s 2) ++ leBytes 4 (idModulePos s) ++ leBytes 1 s.supply.mode.code ++ leBytes 1 c.t.val ++ leBytes 1 (s.ten c.t.val).state.code ++ leBytes 1 (modulesOf s) ++ leBytes 4 (campelRelease s) ++ leBytes 4 s.boot.epoch ++ leBytes 4 (s.up / 1000000)) z ∧
      ReadsOnly c s z) ∧
  (∀ (c : Call) (s : State),
    Served cmdSysEcho c s →
    ∃ z, exec (.sysEcho c) s = .next z ∧
      Answered c 0x0103 St.ok c.payload z ∧
      ReadsOnly c s z) ∧
  (∀ (c : Call) (n : Nat) (s : State),
    Served cmdTenGetStatus c s →
    n = namedTenant c.t.val c.payload →
    ∃ z, exec (.tenGetStatus c) s = .next z ∧
      ((z.ten c.t.val).rsp.map fun r => (r.status, slice r.payload 0 2, slice r.payload 4 5, slice r.payload 16 12)) = some (St.ok, leBytes 1 (s.ten n).state.code ++ leBytes 1 (s.ten n).faultCause, leBytes 4 (s.ten n).resets ++ leBytes 1 (s.ten n).lastReset, leBytes 4 (s.ten n).refusedCount ++ leBytes 4 (s.ten n).headerFails ++ leBytes 4 (s.ten n).faultCount) ∧
      ReadsOnly c s z) ∧
  (∀ (c : Call) (s : State),
    Served cmdSvcGet c s →
    ∃ z, exec (.svcGet c) s = .next z ∧
      Answered c 0x0205 St.ok ((List.range 7).flatMap fun k => leBytes 1 (vat s.svcOwner k) ++ leBytes 1 (vat s.svcRights k)) z ∧
      ReadsOnly c s z) ∧
  (∀ (c : Call) (svc o m : Nat) (s : State),
    Served cmdSvcAssign c s →
    svc = byteAt c.payload 0 →
    o = byteAt c.payload 1 →
    m = byteAt c.payload 2 →
    (svc = 4 → s.isT = false) →
    (s.ten o).state = .ready →
    (∀ k : Fin 8, m.testBit k.val = true → (s.ten k).state = .ready) →
    (svc = 6 → o = 0 ∧ m = 0) →
    ∃ z, exec (.svcAssign c) s = .next z ∧
      Answered c 0x0202 St.ok [] z ∧
      z.svcOwner = vset s.svcOwner svc o ∧
      z.svcRights = vset s.svcRights svc m ∧
      SetsOnly [.svcOwner, .svcRights] c s z) ∧
  (∀ (c : Call) (s : State),
    Served cmdTenEnable c s →
    byteAt c.payload 1 = 1 →
    (s.ten (byteAt c.payload 0)).state = .absent →
    ∃ z, exec (.tenEnable c) s = .next z ∧
      Answered c 0x0203 St.ok [] z ∧
      z.ten (byteAt c.payload 0) = { s.ten (byteAt c.payload 0) with state := .ready } ∧
      (∀ k : Fin 8, k.val ≠ byteAt c.payload 0 → k ≠ c.t → z.ten k = s.ten k) ∧
      KeepsBut [.tenants, .views, .out] s z) ∧
  (∀ (c : Call) (n : Nat) (s : State),
    Served cmdTenFault c s →
    Up s →
    CanRecord s →
    n = byteAt c.payload 0 →
    (s.ten n).state = .ready →
    ∃ z, exec (.tenFault c) s = .next z ∧
      Answered c 0x0206 St.ok [] z ∧
      (z.ten n).state = .faulted ∧
      (z.ten n).faultCause = 3 ∧
      (z.ten n).faultCount = inc16 (s.ten n).faultCount ∧
      Raised (40 + n) s z ∧
      Recorded 0x02A0 4 n s z ∧
      (∀ r ∈ submitRings s n, (z.ring r).stalled = true ∧ (z.ring r).stallCause = 5) ∧
      KeepsBut [.tenants, .views, .out, .rings, .recorder] s z)

/-- TEN_RESET, a write of 0x5E70 to the TEN_RESET register, a function-level reset and PERST_N each make a READY or
FAULTED tenant RESETTING with its LAST_RESET code and count the reset; any other word written to the register changes
nothing. TENANT_RESET_COMPLETE of a tenant without work left makes it READY, or ABSENT when it is being disabled, with
an empty mailbox and every source masked, its routes kept. Where a clause meets what the spec leaves open it states
the model's reading: log entries 47, 73. From R194, R213, R215, R216, R223, R262. -/
def Obligations.TenantResetsBeginAndEnd : Prop :=
  (∀ (n : Fin 8) (v : BitVec 32) (s : State),
    s.powered = true →
    v = 0x5E70#32 →
    ownOpen s n.val = true →
    ((s.ten n).state = .ready ∨ (s.ten n).state = .faulted) →
    ∃ z, exec (.tenResetWrite n v) s = .next z ∧
      (z.ten n).state = .resetting ∧
      (z.ten n).resets = inc32 (s.ten n).resets ∧
      (z.ten n).resetStart = s.up ∧
      (z.ten n).lastReset = 1 ∧
      KeepsBut [.tenants, .views, .jobs, .loft, .rings, .subs, .recorder, .boot, .timebase, .net, .diskq, .keys, .cascade, .out] s z) ∧
  (∀ (n : Fin 8) (v : BitVec 32) (s : State),
    v ≠ 0x5E70#32 →
    ∃ z, exec (.tenResetWrite n v) s = .next z ∧
      z = s) ∧
  (∀ (n : Fin 8) (s : State),
    s.powered = true →
    s.supply.isl.host = true →
    ((s.ten n).state = .ready ∨ (s.ten n).state = .faulted) →
    ∃ z, exec (.functionLevelReset n) s = .next z ∧
      (z.ten n).state = .resetting ∧
      (z.ten n).resets = inc32 (s.ten n).resets ∧
      (z.ten n).resetStart = s.up ∧
      (z.ten n).lastReset = 4 ∧
      (z.view n).msixEnable = false ∧
      KeepsBut [.tenants, .views, .jobs, .loft, .rings, .subs, .recorder, .boot, .timebase, .net, .diskq, .keys, .cascade, .out] s z) ∧
  (∀ (hot : Bool) (n : Fin 8) (s : State),
    s.powered = true →
    s.supply.isl.host = true →
    ((s.ten n).state = .ready ∨ (s.ten n).state = .faulted) →
    n.val ≠ spiTenant s →
    ∃ z, exec (.perstN hot) s = .next z ∧
      (z.ten n).state = .resetting ∧
      (z.ten n).resets = inc32 (s.ten n).resets ∧
      (z.ten n).resetStart = s.up ∧
      (z.ten n).lastReset = 5 ∧
      (hot = false → z.supply = { s.supply with perstN := false, pcieUp := false }) ∧
      (hot = true → z.supply = s.supply) ∧
      KeepsBut [.tenants, .views, .jobs, .loft, .rings, .subs, .recorder, .boot, .supply, .timebase, .net, .diskq, .keys, .cascade, .out] s z) ∧
  (∀ (c : Call) (n : Nat) (s : State),
    Served cmdTenReset c s →
    n = namedTenant c.t.val c.payload →
    n = c.t.val →
    ∃ z, exec (.tenReset c) s = .next z ∧
      (z.ten n).state = .resetting ∧
      (z.ten n).resets = inc32 (s.ten n).resets ∧
      (z.ten n).resetStart = s.up ∧
      (z.ten n).lastReset = 2 ∧
      (z.ten n).busy = true ∧
      KeepsBut [.tenants, .views, .jobs, .loft, .rings, .subs, .recorder, .boot, .timebase, .net, .diskq, .keys, .cascade, .out] s z) ∧
  (∀ (c : Call) (n : Nat) (s : State),
    Served cmdTenReset c s →
    MayAccept c s →
    n = namedTenant c.t.val c.payload →
    n ≠ c.t.val →
    (s.ten n).state ≠ .resetting →
    ∃ z, exec (.tenReset c) s = .next z ∧
      (z.ten n).state = .resetting ∧
      (z.ten n).resets = inc32 (s.ten n).resets ∧
      (z.ten n).resetStart = s.up ∧
      (z.ten n).lastReset = 3 ∧
      AcceptedAs c 0x0201 (fun j => j.key == n && j.waits) z ∧
      KeepsBut [.tenants, .views, .jobs, .loft, .rings, .subs, .recorder, .boot, .timebase, .net, .diskq, .keys, .cascade, .out] s z) ∧
  (∀ (n : Fin 8) (s : State),
    s.powered = true →
    (s.ten n).state = .resetting →
    workLeft s n = false →
    ∃ z, exec (.tenantResetComplete n) s = .next z ∧
      (z.ten n).state = (if (s.ten n).resetDisable then .absent else .ready) ∧
      (z.ten n).mbReq = zeros 256 ∧
      (z.ten n).rsp = none ∧
      (z.ten n).busy = false ∧
      (z.ten n).faultCause = 0 ∧
      (z.view n).mask = BitVec.allOnes 128 ∧
      (z.view n).route = (s.view n).route ∧
      KeepsBut [.tenants, .views, .svcOwner, .svcRights, .jobs, .loft, .rings, .recorder, .boot, .keys, .cascade, .out] s z)

/-- When MB_REQ holds the encoding of a request of a defined command (header, CRC-32C, payload), a doorbell write with
bit 0 set over either transport answers the very state the command's own row answers: no field of the request is
dropped or misread. A doorbell that finds the mailbox BUSY sets REFUSED, counts it and does nothing else. Where a
clause meets what the spec leaves open it states the model's reading: log entries 150, 152. From R191, R192, R193,
R200, Table TEN.6. -/
def Obligations.DoorbellRunsTheRequestItHolds : Prop :=
  (∀ (cmd : Cmd) (c : Call) (v : BitVec 32) (s : State),
    cmd ∈ allCmds →
    Taken c s →
    c.seq < 65536 →
    v.getLsbD 0 = true →
    (s.ten c.t.val).mbReq = fit 256 (encodeReq cmd.op c.seq c.t.val (b2n c.asyncOk) 0 c.payload) →
    ∃ z, exec (.mbDoorbell c.t c.spi v) s = .next z ∧
      command cmd c s = .next z ∧
      (Served cmd c s → z = answer (callReq c cmd.op) (execute cmd (callReq c cmd.op) (begun cmd.op c s)))) ∧
  (∀ (n : Fin 8) (spi : Bool) (v : BitVec 32) (s : State),
    s.powered = true →
    s.supply.isl.host = true →
    mailboxBusy s n.val = true →
    ∃ z, exec (.mbDoorbell n spi v) s = .next z ∧
      z.ten n = { s.ten n with refused := true, refusedCount := inc32 (s.ten n).refusedCount } ∧
      (∀ k : Fin 8, k ≠ n → z.ten k = s.ten k) ∧
      KeepsBut [.tenants] s z)

/-- When the work of a token ends, its job leaves and the ASYNC_COMPLETION descriptor of Table LFT.11 stands in the
next slot of the tenant's EVENT ring, with the status its surroundings gave it or its own; every other byte of the
Loft is as before. A forwarded request that gets no answer is answered NOT_READY with its own opcode and sequence.
Where a clause meets what the spec leaves open it states the model's reading: log entry 40. From R163, R205, R206,
R233, Table LFT.11. -/
def Obligations.AsynchronousWorkCompletes : Prop :=
  (∀ (n : Fin 9) (tok r : Nat) (fail : Option Nat) (l : List Int) (j : Job) (s : State),
    s.powered = true →
    s.campel = true →
    s.supply.holdUp = false →
    s.jobs.find? (fun j => j.tenant == n.val && j.token == tok && !j.waits && j.ended.isNone) = some j →
    j.origin = none →
    j.op ∉ [0x0906, 0x0415, 0x0C22, 0x0483, 0x0485, 0x0488, 0x0489, 0x048A, 0x0C23, 0x0C0A] →
    eventRing s n.val = some r →
    (s.ring r).lost = 0 →
    ∃ z, exec (.asyncCompletion n tok fail l) s = .next z ∧
      z.jobs = s.jobs.erase j ∧
      EventPosted r (eventDesc 1 (fail.getD j.status) j.op tok n.val s.cascade.position (if fail.isSome then [] else j.result) s.timebase.now) s z ∧
      (∀ a, a < slotAddr r (s.ring r) (s.ring r).tail ∨ slotAddr r (s.ring r) (s.ring r).tail + 32 ≤ a → z.byte a = s.byte a) ∧
      KeepsBut [.tenants, .jobs, .loft, .rings, .views, .out] s z) ∧
  (∀ (n : Fin 8) (o : Outstanding) (s : State),
    s.powered = true →
    (s.ten n).outstanding = some o →
    ∃ z, exec (.forwardedRequestTimeout n) s = .next z ∧
      (z.ten n).rsp = some { op := o.op, seq := o.seq, status := St.notReady, pos := s.cascade.position } ∧
      (z.ten n).busy = false ∧
      (z.ten n).rspReady = true ∧
      (z.ten n).outstanding = none ∧
      (∀ k : Fin 8, k ≠ n → z.ten k = s.ten k) ∧
      Rang (32 + n.val) s z ∧
      KeepsBut [.tenants, .views, .out] s z)

/-- A W1C write of IRQ_RAW clears exactly the named latched bits of the sources visible in that view, but a source
that hardware raises in the same cycle stays set. A write of IRQ_MASK sets the mask bits of the visible sources of its
word to the word's bits and no other. A write of IRQ_FORCE latches exactly the named visible sources in that view.
Unmasking an MSI-X vector whose pending-bit array bit is set sends its message and clears the bit. No other view
changes. IRQ_ROUTE_SET gives every source of its range in the named view the route of Table IRQ.2 and no other source
another; no source is latched or masked by it. IRQ_ROUTE_GET answers the routes of its range, zero for a source that
is not visible. IRQ_GET_OWNERS answers the owner of each of the 128 sources, 0 for a closed ring's (the model's
reading, log entry 74). Where a clause meets what the spec leaves open it states the model's reading: log entries 46,
74. From R237, R238, R242, R243, R245, R247, R258, R249, R254, R255, R256, Table IRQ.3. -/
def Obligations.InterruptRegistersAct : Prop :=
  (∀ (n : Fin 8) (i : Fin 4) (v : BitVec 32) (s : State),
    s.powered = true →
    windowOpen s n.val = true →
    ∃ z, exec (.irqRawClear n i v []) s = .next z ∧
      (∀ k : Fin 128, (z.view n).raw.getLsbD k = ((s.view n).raw.getLsbD k && !(decide (k.val / 32 = i.val) && v.getLsbD (k.val % 32) && visible s n k))) ∧
      (z.view n).mask = (s.view n).mask ∧
      (z.view n).count = (s.view n).count ∧
      (∀ j : Fin 8, j ≠ n → z.view j = s.view j) ∧
      KeepsBut [.views] s z) ∧
  (∀ (n : Fin 8) (i : Fin 4) (v : BitVec 32) (k : Fin 128) (s : State),
    Up s →
    windowOpen s n.val = true →
    latches s k.val n.val = true →
    (s.isT && radioSource k.val) = false →
    ∃ z, exec (.irqRawClear n i v [k]) s = .next z ∧
      (z.view n).raw.getLsbD k = true ∧
      vat (z.view n).count k = (vat (s.view n).count k + 1) % 2 ^ 32 ∧
      KeepsBut [.views, .out] s z) ∧
  (∀ (n : Fin 8) (i : Fin 4) (v : BitVec 32) (s : State),
    s.powered = true →
    windowOpen s n.val = true →
    ∃ z, exec (.irqMaskWrite n i v) s = .next z ∧
      (∀ k : Fin 128, (z.view n).mask.getLsbD k = (if k.val / 32 = i.val ∧ visible s n k = true then v.getLsbD (k.val % 32) else (s.view n).mask.getLsbD k)) ∧
      (z.view n).raw = (s.view n).raw ∧
      (z.view n).count = (s.view n).count ∧
      (z.view n).route = (s.view n).route ∧
      (∀ j : Fin 8, j ≠ n → z.view j = s.view j) ∧
      KeepsBut [.views, .out] s z) ∧
  (∀ (n : Fin 8) (i : Fin 4) (v : BitVec 32) (s : State),
    s.powered = true →
    windowOpen s n.val = true →
    ∃ z, exec (.irqForce n i v) s = .next z ∧
      (∀ k : Fin 128, (z.view n).raw.getLsbD k = ((s.view n).raw.getLsbD k || (decide (k.val / 32 = i.val) && v.getLsbD (k.val % 32) && visible s n k && !(s.isT && radioSource k.val)))) ∧
      (z.view n).mask = (s.view n).mask ∧
      (z.view n).route = (s.view n).route ∧
      (∀ j : Fin 8, j ≠ n → z.view j = s.view j) ∧
      KeepsBut [.views, .out] s z) ∧
  (∀ (n : Fin 8) (m : Fin 16) (s : State),
    s.powered = true →
    windowOpen s n.val = true →
    ∃ z, exec (.vectorUnmask n m) s = .next z ∧
      (vat (z.view n).msix m) = { vat (s.view n).msix m with masked := false } ∧
      ((s.view n).msixEnable = true → (s.view n).pba.getLsbD m = true → (z.view n).pba.getLsbD m = false ∧ z.out = .msix n.val m.val (vat (s.view n).msix m).addr (vat (s.view n).msix m).data :: s.out) ∧
      ((s.view n).pba.getLsbD m = false → z.out = s.out) ∧
      (z.view n).raw = (s.view n).raw ∧
      (∀ j : Fin 8, j ≠ n → z.view j = s.view j) ∧
      KeepsBut [.views, .out] s z) ∧
  (∀ (c : Call) (n : Nat) (s : State),
    Served cmdIrqRouteSet c s →
    n = byteAt c.payload 0 →
    ∃ z, exec (.irqRouteSet c) s = .next z ∧
      Answered c 0x0D01 St.ok [] z ∧
      (∀ k : Fin 128, vat (z.view n).route k = (if byteAt c.payload 1 ≤ k.val ∧ k.val < byteAt c.payload 1 + byteAt c.payload 2 then routeOf (rd c.payload 4 2) else vat (s.view n).route k)) ∧
      (z.view n).mask = (s.view n).mask ∧
      (∀ j : Fin 8, j.val ≠ n → (z.view j).route = (s.view j).route ∧ (z.view j).mask = (s.view j).mask) ∧
      SetsOnly [] c s z) ∧
  (∀ (c : Call) (s : State),
    Served cmdIrqRouteGet c s →
    ∃ z, exec (.irqRouteGet c) s = .next z ∧
      Answered c 0x0D02 St.ok ((List.range (byteAt c.payload 2)).flatMap fun k => leBytes 2 (routeWord s (namedTenant c.t.val c.payload) (byteAt c.payload 1 + k))) z ∧
      ReadsOnly c s z) ∧
  (∀ (c : Call) (s : State),
    Served cmdIrqGetOwners c s →
    ∃ z, exec (.irqGetOwners c) s = .next z ∧
      Answered c 0x0D03 St.ok ((List.range 128).flatMap fun k => leBytes 1 ((srcOwner s k).getD 0)) z ∧
      ReadsOnly c s z)

/-- TIME_GET_STATUS, TIME_GET_OFFSETS, TIME_CADENCE_GET, TIME_SPINE_CAL_READ and TIME_REF_STATUS answer OK with their
tables' bytes and change nothing but the mailbox and what its source raises. TIME_TIM_READ answers the oldest results
of an input and removes exactly those from its queue. TIME_GNSS_SEND puts its bytes on GNSS_TXD and changes nothing
else. Where a clause meets what the spec leaves open it states the model's reading: log entries 106, 174. From R55,
R69, R106, R108, R109, Table TIM.14, Table TIM.13, Table TIM.22, Table TIM.7, Table TIM.11. -/
def Obligations.TimeRequestsAnswerWithTheTimebase : Prop :=
  (∀ (c : Call) (s : State),
    Served cmdTimeGetStatus c s →
    ∃ z, exec (.timeGetStatus c) s = .next z ∧
      ((z.ten c.t.val).rsp.map fun r => (r.status, r.payload.length, slice r.payload 0 3, slice r.payload 4 16)) = some (St.ok, 24, leBytes 1 (timeState s.timebase % 8) ++ leBytes 1 (b2n s.timebase.valid + 2 * b2n s.timebase.revertive + 4 * b2n (followsUpstream s.timebase) + 8 * b2n s.timebase.forced.isSome) ++ leBytes 1 s.timebase.selected, leInt 4 (sat32 s.timebase.phaseErr) ++ leInt 4 s.timebase.freqCorr ++ leBytes 4 s.timebase.steer ++ leBytes 4 (holdoverS s)) ∧
      ReadsOnly c s z) ∧
  (∀ (c : Call) (s : State),
    Served cmdTimeGetOffsets c s →
    ∃ z, exec (.timeGetOffsets c) s = .next z ∧
      Answered c 0x0509 St.ok (leInt 2 s.timebase.utcOffset ++ zeros 2 ++ leInt 4 s.timebase.localOffset ++ (if s.timebase.leap.isSome then schedBytes 1 s.timebase.leap else []) ++ (if s.timebase.localSched.isSome then schedBytes 2 s.timebase.localSched else [])) z ∧
      ReadsOnly c s z) ∧
  (∀ (c : Call) (s : State),
    Served cmdTimeCadenceGet c s →
    ∃ z, exec (.timeCadenceGet c) s = .next z ∧
      Answered c 0x050B St.ok ((vat s.timebase.cadence (byteAt c.payload 0)).desc.bytes ++ leBytes 1 (b2n (vat s.timebase.cadence (byteAt c.payload 0)).fault)) z ∧
      ReadsOnly c s z) ∧
  (∀ (c : Call) (s : State),
    Served cmdTimeSpineCalRead c s →
    ∃ z, exec (.timeSpineCalRead c) s = .next z ∧
      Answered c 0x050E St.ok ((List.range (byteAt c.payload 1)).flatMap fun i => calEntry s (byteAt c.payload 0 + i)) z ∧
      ReadsOnly c s z) ∧
  (∀ (c : Call) (k : Nat) (s : State),
    Served cmdTimeRefStatus c s →
    k = byteAt c.payload 0 →
    ∃ z, exec (.timeRefStatus c) s = .next z ∧
      Answered c 0x0510 St.ok (leBytes 1 k ++ leBytes 1 (b2n (s.ref k).qualified + 2 * b2n (s.timebase.selected == k) + 4 * b2n (s.timebase.forced == some k) + 8 * b2n (boundClock s == k) + 16 * b2n (s.ref k).active) ++ leBytes 1 (s.ref k).lastCause ++ zeros 1 ++ leInt 4 (s.ref k).freqOffset ++ leInt 4 (sat32 (s.ref k).phaseErr) ++ leBytes 4 (if (s.ref k).qualified then min 0xFFFFFFFF ((s.up - (s.ref k).qualifiedAt) / 1000000) else 0) ++ leBytes 4 (s.ref k).disqualified ++ leBytes 4 (s.ref k).discarded) z ∧
      ReadsOnly c s z) ∧
  (∀ (c : Call) (i n : Nat) (s : State),
    Served cmdTimeTimRead c s →
    i = byteAt c.payload 0 →
    n = byteAt c.payload 1 →
    ∃ z, exec (.timeTimRead c) s = .next z ∧
      Answered c 0x050D St.ok (((vat s.timebase.timIn i).queue.take n).flatMap (timResultBytes i (vat s.timebase.timIn i).dropped)) z ∧
      z.timebase = { s.timebase with timIn := upd s.timebase.timIn i fun x => { x with queue := x.queue.drop n, dropped := if (x.queue.take n).isEmpty then x.dropped else 0 } } ∧
      SetsOnly [.timebase] c s z ∧
      Rang (32 + c.t.val) s z) ∧
  (∀ (c : Call) (s : State),
    Served cmdTimeGnssSend c s →
    ∃ z, exec (.timeGnssSend c) s = .next z ∧
      Answered c 0x050F St.ok [] z ∧
      .gnss c.payload ∈ z.out ∧
      SetsOnly [] c s z)

/-- TIME_REF_CONFIG, TIME_DPLL_CONFIG, TIME_OSC_CONFIG, TIME_SELECT, TIME_CADENCE_SET and TIME_TIM_ARM set the fields
their tables give and no other setting. TIME_SET of a module on no class T reference sets TAI, makes it valid, marks
every snapshot STEPPED and raises source 56. TIME_SET_OFFSETS without pending schedules sets and persists both
offsets. TIME_SCHEDULE sets, or cancels, the pending change of its kind. Where a clause meets what the spec leaves
open it states the model's reading: log entries 13, 107. From R57, R59, R64, R65, R72, R75, R76, R92, R98, R110, R111,
R63. -/
def Obligations.TimeRequestsSetTheTimebase : Prop :=
  (∀ (c : Call) (p : Bytes) (s : State),
    Served cmdTimeRefConfig c s →
    p = c.payload →
    ∃ z, exec (.timeRefConfig c) s = .next z ∧
      Answered c 0x0502 St.ok [] z ∧
      z.timebase.refs = (upd s.timebase.refs (byteAt p 0 - 1) fun r => { r with priority := byteAt p 1, options := byteAt p 3, tolerance := rd p 4 4, delayPs := rdS p 8 4, rate := byteAt p 12, window := byteAt p 13, qualify := rd p 14 2 }) ∧
      KeepsBut [.tenants, .views, .jobs, .loft, .rings, .recorder, .boot, .timebase, .spars, .motor, .diskq, .radio, .out, .free] s z) ∧
  (∀ (c : Call) (p : Bytes) (s : State),
    Served cmdTimeDpllConfig c s →
    p = c.payload →
    ∃ z, exec (.timeDpllConfig c) s = .next z ∧
      Answered c 0x0503 St.ok [] z ∧
      z.timebase = { s.timebase with acqBw := rd p 0 4, trkBw := rd p 4 4, stepThresh := rd p 8 4, slewLimit := rd p 12 2, wtr := rd p 14 2, holdAvg := rd p 16 2, revertive := (byteAt p 18).testBit 0, stepEnable := (byteAt p 18).testBit 1, fromUpstream := (byteAt p 18).testBit 2, holdLimit := rd p 20 4 } ∧
      SetsOnly [.timebase] c s z ∧
      Rang (32 + c.t.val) s z) ∧
  (∀ (c : Call) (p : Bytes) (s : State),
    Served cmdTimeOscConfig c s →
    p = c.payload →
    ∃ z, exec (.timeOscConfig c) s = .next z ∧
      Answered c 0x0504 St.ok [] z ∧
      z.timebase = { s.timebase with dacBits := byteAt p 0, dacPrefix := byteAt p 1, dacPolarity := (byteAt p 2).testBit 0, dacSampleFalling := (byteAt p 2).testBit 1, dacGain := rd p 4 4, initialCode := some (rd p 8 4), aging := rd p 12 2 } ∧
      SetsOnly [.timebase] c s z ∧
      Rang (32 + c.t.val) s z) ∧
  (∀ (c : Call) (s : State),
    Served cmdTimeSelect c s →
    ∃ z, exec (.timeSelect c) s = .next z ∧
      Answered c 0x0505 St.ok [] z ∧
      z.timebase.forced = (if byteAt c.payload 0 = 0xFF then none else some (byteAt c.payload 0)) ∧
      z.timebase.refs = s.timebase.refs ∧
      KeepsBut [.tenants, .views, .jobs, .loft, .rings, .recorder, .boot, .timebase, .spars, .motor, .diskq, .radio, .out, .free] s z) ∧
  (∀ (c : Call) (s : State),
    Served cmdTimeSet c s →
    Up s →
    classT s.timebase.selected = false →
    ∃ z, exec (.timeSet c) s = .next z ∧
      Answered c 0x0506 St.ok [] z ∧
      z.timebase.now = rdTime c.payload 0 ∧
      z.timebase.valid = true ∧
      z.timebase.setByCmd = true ∧
      (∀ k : Fin 8, (vat z.timebase.snap k).stepped = true) ∧
      Raised 56 s z ∧
      KeepsBut [.tenants, .views, .jobs, .loft, .rings, .recorder, .boot, .timebase, .spars, .motor, .diskq, .radio, .out, .free] s z) ∧
  (∀ (c : Call) (s : State),
    Served cmdTimeSetOffsets c s →
    followsUpstream s.timebase = false →
    s.timebase.persistFails = false →
    s.timebase.leap = none →
    s.timebase.localSched = none →
    ∃ z, exec (.timeSetOffsets c) s = .next z ∧
      Answered c 0x0507 St.ok [] z ∧
      z.timebase.utcOffset = rdS c.payload 0 2 ∧
      z.timebase.localOffset = rdS c.payload 4 4 ∧
      (bestKeep z.boot).offsets = (rdS c.payload 0 2, rdS c.payload 4 4) ∧
      KeepsBut [.tenants, .views, .jobs, .loft, .rings, .recorder, .boot, .timebase, .spars, .motor, .diskq, .radio, .out, .free] s z) ∧
  (∀ (c : Call) (p : Bytes) (s : State),
    Served cmdTimeSchedule c s →
    p = c.payload →
    followsUpstream s.timebase = false →
    s.timebase.persistFails = false →
    pendingOf s.timebase (byteAt p 6) = none →
    byteAt p 7 ≠ 0x80 →
    schedOk s.timebase p = true →
    ∃ z, exec (.timeSchedule c) s = .next z ∧
      Answered c 0x0508 St.ok [] z ∧
      (pendingOf z.timebase (byteAt p 6)).map (fun x => (x.instant, x.flags, x.value)) = some (rd p 0 6, byteAt p 7, rdS p 8 4) ∧
      KeepsBut [.tenants, .views, .jobs, .rings, .recorder, .boot, .timebase, .out] s z) ∧
  (∀ (c : Call) (p : Bytes) (x : Sched) (s : State),
    Served cmdTimeSchedule c s →
    p = c.payload →
    followsUpstream s.timebase = false →
    s.timebase.persistFails = false →
    pendingOf s.timebase (byteAt p 6) = some x →
    s.timebase.now.inNs + 2000000000 ≤ x.instant * 1000000000 →
    byteAt p 7 = 0x80 →
    ∃ z, exec (.timeSchedule c) s = .next z ∧
      Answered c 0x0508 St.ok [] z ∧
      pendingOf z.timebase (byteAt p 6) = none ∧
      KeepsBut [.tenants, .views, .jobs, .rings, .recorder, .boot, .timebase, .out] s z) ∧
  (∀ (c : Call) (p : Bytes) (s : State),
    Served cmdTimeCadenceSet c s →
    p = c.payload →
    ∃ z, exec (.timeCadenceSet c) s = .next z ∧
      Answered c 0x050A St.ok [] z ∧
      z.timebase = { s.timebase with cadence := upd s.timebase.cadence (byteAt p 0) fun x => { x with pending := some (rdCad p 4, (s.timebase.now.inNs + 1000000 + 999999999) / 1000000000) } } ∧
      SetsOnly [.timebase] c s z ∧
      Rang (32 + c.t.val) s z) ∧
  (∀ (c : Call) (p : Bytes) (s : State),
    Served cmdTimeTimArm c s →
    p = c.payload →
    ∃ z, exec (.timeTimArm c) s = .next z ∧
      Answered c 0x050C St.ok [] z ∧
      (∀ i : Fin 4, vat z.timebase.timIn i = (if (byteAt p 0).testBit i.val then { vat s.timebase.timIn i with edge := byteAt p 1, mode := byteAt p 2, rate := byteAt p 3 } else vat s.timebase.timIn i)) ∧
      z.timebase = { s.timebase with timIn := z.timebase.timIn } ∧
      SetsOnly [.timebase] c s z ∧
      Rang (32 + c.t.val) s z)

/-- A ZDA or GGA sentence whose frame or checksum is wrong is counted and does nothing else; a GGA sentence sets the
fix quality. A PPS or reference edge sets that reference's phase error, and the loop's when it is selected. A
reference that stayed good for QUALIFY_S qualifies. A qualified reference that meets a condition of Table TIM.2 is
disqualified with that cause, counted, raises its source and is no longer selected. A better reference that stayed
qualified for WTR is selected and raises source 53. Where a clause meets what the spec leaves open it states the
model's reading: log entry 173. From R55, R56, R58, R59, R61, R62, R114, Table TIM.2, Table TIM.12, Table TIM.22. -/
def Obligations.ReferencesAreMeasuredAndSelected : Prop :=
  (∀ (l : Bytes) (ms : Nat) (s : State),
    s.powered = true →
    nmeaUsed l = true →
    nmeaBody l = none →
    ∃ z, exec (.gnssSentence l ms) s = .next z ∧
      z.timebase = { s.timebase with refs := upd s.timebase.refs 0 fun r => { r with discarded := inc32 r.discarded } } ∧
      KeepsBut [.timebase] s z) ∧
  (∀ (l body : Bytes) (ms : Nat) (s : State),
    s.powered = true →
    nmeaUsed l = true →
    nmeaBody l = some body →
    ((commas body).getD 0 []).length = 5 →
    byteAt ((commas body).getD 0 []) 0 ≠ 0x50 →
    slice ((commas body).getD 0 []) 2 3 = [0x47, 0x47, 0x41] →
    ∃ z, exec (.gnssSentence l ms) s = .next z ∧
      z.timebase = { s.timebase with refs := upd s.timebase.refs 0 fun r => { r with active := true }, fixQuality := digits ((commas body).getD 6 []) } ∧
      KeepsBut [.timebase] s z) ∧
  (∀ (err : Int) (s : State),
    s.powered = true →
    ∃ z, exec (.gnssPps err) s = .next z ∧
      (z.ref 1).phaseErr = err - (s.ref 1).delayPs ∧
      (z.ref 1).active = true ∧
      z.timebase.ppsAt = some s.up ∧
      z.timebase.phaseErr = (if s.timebase.selected = 1 then err - (s.ref 1).delayPs else s.timebase.phaseErr) ∧
      z.timebase.now = s.timebase.now ∧
      KeepsBut [.timebase] s z) ∧
  (∀ (k : Fin 3) (err : Int) (s : State),
    s.powered = true →
    (k ≠ 2 → (s.ref (k.val + 4)).options.testBit 3 = true) →
    ∃ z, exec (.refPpsEdge k err) s = .next z ∧
      (z.ref (k.val + 4)).phaseErr = err - (s.ref (k.val + 4)).delayPs ∧
      z.timebase.phaseErr = (if s.timebase.selected = k.val + 4 then err - (s.ref (k.val + 4)).delayPs else s.timebase.phaseErr) ∧
      (∀ j : Fin 6, j.val ≠ k.val + 3 → vat z.timebase.refs j = vat s.timebase.refs j) ∧
      KeepsBut [.timebase] s z) ∧
  (∀ (k : Fin 6) (forS : Nat) (err : Int) (s : State),
    s.powered = true →
    (s.ref (k.val + 1)).qualified = false →
    (s.ref (k.val + 1)).qualify ≤ forS →
    mayQualify s (k.val + 1) = true →
    ∃ z, exec (.refQualified k forS err) s = .next z ∧
      (z.ref (k.val + 1)).qualified = true ∧
      (z.ref (k.val + 1)).qualifiedAt = s.up ∧
      (z.ref (k.val + 1)).phaseErr = err ∧
      (∀ j : Fin 6, j ≠ k → vat z.timebase.refs j = vat s.timebase.refs j) ∧
      KeepsBut [.tenants, .views, .jobs, .loft, .rings, .recorder, .boot, .timebase, .spars, .motor, .diskq, .radio, .keys, .cascade, .out, .free] s z) ∧
  (∀ (k : Fin 6) (cause : Nat) (s : State),
    Up s →
    (s.ref (k.val + 1)).qualified = true →
    causeHolds s (k.val + 1) cause = true →
    ∃ z, exec (.refDisqualified k cause) s = .next z ∧
      (z.ref (k.val + 1)).qualified = false ∧
      (z.ref (k.val + 1)).lastCause = cause ∧
      (z.ref (k.val + 1)).disqualified = inc32 (s.ref (k.val + 1)).disqualified ∧
      z.timebase.selected ≠ k.val + 1 ∧
      (∀ x, refLostSrc (k.val + 1) = some x → Raised x s z) ∧
      (∀ j : Fin 6, j ≠ k → vat z.timebase.refs j = vat s.timebase.refs j) ∧
      KeepsBut [.tenants, .views, .loft, .recorder, .boot, .timebase, .spars, .motor, .diskq, .radio, .out, .free] s z) ∧
  (∀ (k : Fin 6) (forS : Nat) (err : Int) (s : State),
    Up s →
    s.timebase.revertive = true →
    s.timebase.selected ≠ 0 →
    offered s (k.val + 1) = true →
    better s (k.val + 1) s.timebase.selected = true →
    s.timebase.wtr ≤ forS →
    bestRef s = k.val + 1 →
    ∃ z, exec (.waitToRestore k forS err) s = .next z ∧
      z.timebase.selected = k.val + 1 ∧
      Raised 53 s z ∧
      (z.ref (k.val + 1)).phaseErr = err ∧
      KeepsBut [.tenants, .views, .loft, .recorder, .boot, .timebase, .spars, .motor, .diskq, .radio, .out, .free] s z)

/-- Every update sends one DAC frame of the prefix and a code within the DAC width, and slews time by at most
SLEW_LIMIT; the first code in FREERUN is the initial one, mid-scale without one, and in HOLDOVER it is the averaged
code. ACQUIRE held within 100 ns and 1 ppb for 10 s becomes LOCKED; LOCKED beyond 400 ns for 1 s becomes ACQUIRE.
HOLDOVER beyond its limit, and the loss of OSC_IN, make time invalid and raise source 63. A code near an end of the
range for 1 s raises source 62. Where a clause meets what the spec leaves open it states the model's reading: log
entry 11. From R62, R65, R66, R68, R71, R73, R74, R1079, Table TIM.4. -/
def Obligations.DpllSteersAndChangesState : Prop :=
  (∀ (ph : Int) (s : State),
    s.powered = true →
    (∀ i ∈ s.timebase.initialCode, i < 2 ^ s.timebase.dacBits) →
    0 < s.timebase.dacBits →
    ∃ z, exec (.dpllUpdate ph) s = .next z ∧
      z.out = .dac (s.timebase.dacPrefix * 2 ^ s.timebase.dacBits + z.timebase.steer) :: s.out ∧
      z.timebase.steer < 2 ^ s.timebase.dacBits ∧
      z.timebase.now = s.timebase.now.addNs (slewPart s.timebase) ∧
      z.timebase.slewNs = s.timebase.slewNs - slewPart s.timebase ∧
      (slewPart s.timebase).natAbs ≤ s.timebase.slewLimit ∧
      z.timebase.phaseErr = ph ∧
      (s.timebase.dpll = .freerun → s.timebase.steerLog = [] → z.timebase.steer = s.timebase.initialCode.getD (2 ^ (s.timebase.dacBits - 1))) ∧
      (s.timebase.dpll = .holdover → z.timebase.steer = min (2 ^ s.timebase.dacBits - 1) (s.timebase.holdCode.getD s.timebase.steer)) ∧
      z.timebase.dpll = s.timebase.dpll ∧
      KeepsBut [.timebase, .out] s z) ∧
  (∀ (ns f ms : Nat) (s : State),
    s.powered = true →
    s.timebase.dpll = .acquire →
    ns ≤ 100 →
    f ≤ 1000 →
    10000 ≤ ms →
    ∃ z, exec (.dpllLocked ns f ms) s = .next z ∧
      z.timebase = { s.timebase with dpll := .locked, dpllSince := s.up, dpllFrom := .acquire } ∧
      KeepsBut [.timebase] s z) ∧
  (∀ (ns ms : Nat) (s : State),
    s.powered = true →
    s.timebase.dpll = .locked →
    400 < ns →
    1000 ≤ ms →
    ∃ z, exec (.dpllPhaseLoss ns ms) s = .next z ∧
      z.timebase = { s.timebase with dpll := .acquire, dpllSince := s.up, dpllFrom := .locked } ∧
      KeepsBut [.timebase] s z) ∧
  (∀ (sec : Nat) (s : State),
    Up s →
    s.timebase.dpll = .holdover →
    s.timebase.holdLimit ≠ 0 →
    s.timebase.holdLimit ≤ sec →
    s.timebase.valid = true →
    ∃ z, exec (.holdoverLimit sec) s = .next z ∧
      z.timebase.valid = false ∧
      Raised 63 s z ∧
      z.timebase.dpll = .holdover ∧
      KeepsBut [.timebase, .views, .out] s z) ∧
  (∀ (ms : Nat) (s : State),
    Up s →
    1000 ≤ ms →
    (s.timebase.steer ≤ 2 ^ s.timebase.dacBits / 64 ∨ 2 ^ s.timebase.dacBits - 1 - 2 ^ s.timebase.dacBits / 64 ≤ s.timebase.steer) →
    ∃ z, exec (.steerLimit ms) s = .next z ∧
      Raised 62 s z ∧
      KeepsBut [.views, .out] s z) ∧
  (∀ (n : Nat) (s : State),
    s.powered = true →
    4 ≤ n →
    s.timebase.oscPresent = true →
    ∃ z, exec (.oscInLoss n) s = .next z ∧
      z.timebase.oscPresent = false ∧
      z.timebase.dpll = .freerun ∧
      z.timebase.valid = false ∧
      (∀ i : Fin 6, (vat z.timebase.refs i).qualified = false) ∧
      (z.timebase.selected = 0 ∨ s.timebase.selected = z.timebase.selected) ∧
      KeepsBut [.tenants, .views, .loft, .recorder, .boot, .timebase, .spars, .motor, .diskq, .radio, .out, .free] s z) ∧
  (∀ (ms : Nat) (s : State),
    s.powered = true →
    1000 ≤ ms →
    ∃ z, exec (.oscInRestored ms) s = .next z ∧
      z.timebase = { s.timebase with oscPresent := true } ∧
      KeepsBut [.timebase] s z)

/-- TIME_LATCH copies TAI and TIME_STATE into the tenant's own snapshot. A pending leap second whose instant has come
takes force and raises source 58; one within 86,400 s raises source 59 once. A good spine frame clears an island's
count of bad ones; the third bad one in a row takes its calibration and is recorded. A loop-back measurement sets the
island's entry. A cadence descriptor takes force at its second. An edge on an armed TIM_IN input joins its queue and
raises source 61 when the queue was empty. Where a clause meets what the spec leaves open it states the model's
reading: log entries 160, 174. From R80, R82, R83, R87, R88, R90, R98, R105, R106, R107, R121. -/
def Obligations.TimeEventsTakeEffect : Prop :=
  (∀ (n : Fin 8) (v : BitVec 32) (s : State),
    s.powered = true →
    windowOpen s n.val = true →
    v.getLsbD 0 = true →
    ∃ z, exec (.timeLatch n v) s = .next z ∧
      z.timebase = { s.timebase with snap := upd s.timebase.snap n fun x => { x with sec := s.timebase.now.sec, ns := s.timebase.now.ns, frac := s.timebase.now.frac, state := timeState s.timebase } } ∧
      KeepsBut [.timebase] s z) ∧
  (∀ (x : Sched) (s : State),
    Up s →
    s.timebase.known = true →
    s.supply.pfail = false →
    s.timebase.leap = some x →
    x.instant ≤ s.timebase.now.sec →
    s.timebase.localSched = none →
    ∃ z, exec (.scheduleInstant) s = .next z ∧
      z.timebase = { s.timebase with utcOffset := x.value, leap := none } ∧
      Raised 58 s z ∧
      (bestKeep z.boot).offsets = (x.value, s.timebase.localOffset) ∧
      KeepsBut [.views, .recorder, .boot, .timebase, .out, .free] s z) ∧
  (∀ (x : Sched) (s : State),
    Up s →
    s.timebase.leap = some x →
    x.warned = false →
    x.instant ≤ s.timebase.now.sec + 86400 →
    s.timebase.localSched = none →
    ∃ z, exec (.scheduleWarning) s = .next z ∧
      z.timebase = { s.timebase with leap := some { x with warned := true } } ∧
      Raised 59 s z ∧
      KeepsBut [.timebase, .views, .out] s z) ∧
  (∀ (i : Fin 16) (b : Nat) (s : State),
    s.powered = true →
    spineOk b = true →
    (vat s.timebase.cal i).lostAt = none →
    ∃ z, exec (.spineFrame i b) s = .next z ∧
      z.timebase = { s.timebase with cal := upd s.timebase.cal i fun c => { c with bad := 0, good := 0 } } ∧
      KeepsBut [.timebase] s z) ∧
  (∀ (i : Fin 16) (b : Nat) (s : State),
    Up s →
    CanRecord s →
    spineOk b = false →
    (vat s.timebase.cal i).valid = true →
    (vat s.timebase.cal i).bad = 2 →
    i ≠ 10 →
    ∃ z, exec (.spineFrame i b) s = .next z ∧
      z.timebase = { s.timebase with cal := upd s.timebase.cal i fun c => { c with valid := false, bad := 3, good := 0, lostAt := some s.up } } ∧
      Recorded 0x05A0 4 0 s z ∧
      KeepsBut [.timebase, .recorder, .views, .out] s z) ∧
  (∀ (i : Fin 16) (o : Int) (u : Nat) (r : Bool) (s : State),
    s.powered = true →
    ∃ z, exec (.spineCalibration i o u r false) s = .next z ∧
      z.timebase = { s.timebase with cal := upd s.timebase.cal i fun c => { c with valid := if c.lostAt.isSome then c.valid else true, restarted := r, uncert := u, offset := o, bootOffset := some (c.bootOffset.getD o), drift := (o - c.bootOffset.getD o) * 1000 / 65536, at_ := s.up } } ∧
      KeepsBut [.timebase] s z) ∧
  (∀ (o : Int) (u : Nat) (r : Bool) (s : State),
    Up s →
    CanRecord s →
    s.timebase.loopbackLogged = none →
    ∃ z, exec (.spineCalibration 1 o u r true) s = .next z ∧
      z.timebase = { s.timebase with loopbackFails := s.timebase.loopbackFails + 1, loopbackLogged := some s.up } ∧
      Recorded 0x05A1 3 0 s z ∧
      KeepsBut [.timebase, .recorder, .views, .out] s z) ∧
  (∀ (o : Fin 8) (d : CadDesc) (sec : Nat) (s : State),
    s.powered = true →
    (vat s.timebase.cadence o).pending = some (d, sec) →
    sec ≤ s.timebase.now.sec →
    ∃ z, exec (.cadenceDescriptorApply o) s = .next z ∧
      (vat z.timebase.cadence o).desc = d ∧
      (vat z.timebase.cadence o).pending = none ∧
      (vat z.timebase.cadence o).fault = false ∧
      (vat z.timebase.cadence o).level = (decide (d.kind ≠ 0) && d.flags.testBit 0) ∧
      (∀ j : Fin 8, j ≠ o → (vat z.timebase.cadence j).desc = (vat s.timebase.cadence j).desc ∧ (vat z.timebase.cadence j).pending = (vat s.timebase.cadence j).pending) ∧
      z.timebase = { s.timebase with cadence := z.timebase.cadence } ∧
      KeepsBut [.timebase] s z) ∧
  (∀ (i : Fin 4) (fall : Bool) (sec ns frac w : Nat) (s : State),
    Up s →
    (vat s.timebase.timIn i).mode ≠ 0 →
    (vat s.timebase.timIn i).edge = b2n fall →
    4000 ≤ w →
    ((vat s.timebase.timIn i).mode = 2 → (vat s.timebase.timIn i).lastNs.any (fun l => decide ((sec * 1000000000 + ns) < l + 1000000)) = false) →
    (vat s.timebase.timIn i).queue = [] →
    ∃ z, exec (.timInEdge i fall sec ns frac w) s = .next z ∧
      ((vat z.timebase.timIn i).queue.map fun r => (r.time, r.seq, r.flags % 4)) = [({ sec, ns, frac }, (vat s.timebase.timIn i).seq, b2n fall + 2 * b2n s.timebase.valid)] ∧
      (vat z.timebase.timIn i).seq = ((vat s.timebase.timIn i).seq + 1) % 65536 ∧
      (vat z.timebase.timIn i).mode = (if (vat s.timebase.timIn i).mode = 1 then 0 else (vat s.timebase.timIn i).mode) ∧
      (∀ j : Fin 4, j ≠ i → vat z.timebase.timIn j = vat s.timebase.timIn j) ∧
      Raised 61 s z ∧
      KeepsBut [.timebase, .views, .out] s z)

/-- BOOT_GET_STATUS and BOOT_OTP_READ answer their tables' bytes, a secret row as zero. BOOT_OTP_PROGRAM of an
unprogrammed region starts a burn of the content rows and the CRC row; BOOT_ROLLBACK_COMMIT a burn of the counter rows
up to the image's version. BOOT_EPOCH_SET sets and persists the epoch. BOOT_RESTART plans the device reset, with its
override. The flash requests start the operation that their fields give. Where a clause meets what the spec leaves
open it states the model's reading: log entries 41, 42, 59, 100, 104. From R270, R277, R283, R286, R297, R299, R300,
R301, R302, Table BOT.4, Table BOT.10, Table BOT.11. -/
def Obligations.BootRequestsServe : Prop :=
  (∀ (c : Call) (s : State),
    Served cmdBootGetStatus c s →
    s.campel = true →
    ∃ z, exec (.bootGetStatus c) s = .next z ∧
      Answered c 0x0C01 St.ok (leBytes 1 3 ++ leBytes 1 s.boot.source ++ leBytes 1 s.boot.slot ++ leBytes 1 (s.boot.image.getD {}).secVersion ++ leBytes 4 (s.boot.image.getD {}).sequence ++ leBytes 1 (rollback s) ++ leBytes 1 (s.boot.fails.getD 0 0) ++ leBytes 1 (s.boot.fails.getD 1 0) ++ leBytes 1 s.boot.alarms ++ leBytes 4 s.boot.epoch ++ leBytes 1 s.boot.epochState ++ leBytes 1 s.boot.lastStatus ++ zeros 2 ++ leBytes 4 s.boot.lastToken ++ leBytes 4 (s.boot.image.getD {}).campel) z ∧
      ReadsOnly c s z) ∧
  (∀ (c : Call) (s : State),
    Served cmdBootGetStatus c s →
    s.campel = false →
    ∃ z, exec (.bootGetStatus c) s = .next z ∧
      ((z.ten c.t.val).rsp.map fun r => (r.status, slice r.payload 0 8)) = some (St.ok, leBytes 1 s.boot.stage.code ++ leBytes 1 s.boot.source ++ leBytes 1 255 ++ zeros 5) ∧
      ReadsOnly c s z) ∧
  (∀ (c : Call) (s : State),
    Served cmdBootOtpRead c s →
    ∃ z, exec (.bootOtpRead c) s = .next z ∧
      Answered c 0x0C02 St.ok ((((List.range (byteAt c.payload 2)).map (rd c.payload 0 2 + ·)).flatMap fun i => leBytes 4 (otpShown s i)) ++ ((List.range (byteAt c.payload 2)).map (rd c.payload 0 2 + ·)).flatMap fun i => leBytes 1 (b2n (s.boot.otpCorrected.contains i) + 2 * b2n (s.boot.otpBad.contains i) + 4 * b2n (secretRow i))) z ∧
      SetsOnly [.free] c s z) ∧
  (∀ (c : Call) (a b : Nat) (s : State),
    Served cmdBootOtpProgram c s →
    MayAccept c s →
    otpRegion (byteAt c.payload 0) = some (a, b) →
    otpBlank s (byteAt c.payload 0) = true →
    otpBusy s = false →
    ∃ z, exec (.bootOtpProgram c) s = .next z ∧
      AcceptedAs c 0x0C03 (fun j => j.waits) z ∧
      z.boot = { s.boot with burn := some { region := byteAt c.payload 0, rows := ((List.range (b - a)).map fun i => (a + i, rd (c.payload.drop 4) (4 * i) 4)) ++ [(b, crc32 (fit (4 * (b - a)) (c.payload.drop 4)))] } } ∧
      StartsOnly [.boot] c s z) ∧
  (∀ (c : Call) (s : State),
    Served cmdBootOtpProgram c s →
    otpBlank s (byteAt c.payload 0) = false →
    ∃ z, exec (.bootOtpProgram c) s = .next z ∧
      Answered c 0x0C03 St.notPermitted [] z ∧
      SetsOnly [] c s z) ∧
  (∀ (c : Call) (h : ImageHeader) (s : State),
    Served cmdBootRollbackCommit c s →
    MayAccept c s →
    otpBusy s = false →
    s.boot.image = some h →
    rollback s < h.secVersion →
    ∃ z, exec (.bootRollbackCommit c) s = .next z ∧
      AcceptedAs c 0x0C04 (fun j => j.waits) z ∧
      z.boot = { s.boot with burn := some { region := 7, rows := (List.range (h.secVersion - rollback s)).map fun i => (128 + rollback s + i, counterMark 7 (rollback s + i)) } } ∧
      StartsOnly [.boot] c s z) ∧
  (∀ (c : Call) (s : State),
    Served cmdBootPushDone c s →
    MayAccept c s →
    s.boot.stage = .recovery →
    (policy s).testBit 12 = false →
    inFlight s 0x0C05 = false →
    s.boot.starting = false →
    ∃ z, exec (.bootPushDone c) s = .next z ∧
      AcceptedAs c 0x0C05 (fun j => j.waits && j.data == c.payload) z ∧
      StartsOnly [] c s z) ∧
  (∀ (c : Call) (s : State),
    Served cmdBootEpochSet c s →
    s.boot.epochState ≠ 0 →
    highEpoch s < rd c.payload 0 4 →
    s.timebase.persistFails = false →
    ∃ z, exec (.bootEpochSet c) s = .next z ∧
      Answered c 0x0C06 St.ok [] z ∧
      z.boot.epoch = rd c.payload 0 4 ∧
      z.boot.epochState = 0 ∧
      (bestKeep z.boot).epoch = rd c.payload 0 4 ∧
      SetsOnly [.boot] c s z) ∧
  (∀ (c : Call) (s : State),
    Served cmdBootRestart c s →
    ∃ z, exec (.bootRestart c) s = .next z ∧
      Answered c 0x0C07 St.ok [] z ∧
      z.boot = { s.boot with override := if byteAt c.payload 0 = 0xFF then none else some (byteAt c.payload 0), restartAt := some (s.up + 1000) } ∧
      SetsOnly [.boot] c s z) ∧
  (∀ (c : Call) (o n : Nat) (s : State),
    Served cmdBootFlashErase c s →
    MayAccept c s →
    s.boot.flashOp = none →
    o = rd c.payload 0 4 →
    n = rd c.payload 4 4 →
    ∃ z, exec (.bootFlashErase c) s = .next z ∧
      AcceptedAs c 0x0C08 (fun j => j.waits) z ∧
      z.boot = { s.boot with flashOp := some { op := 0x0C08, offset := o, length := n } } ∧
      .flash 0x0C08 o n ∈ z.out ∧
      StartsOnly [.boot] c s z) ∧
  (∀ (c : Call) (s : State),
    Served cmdBootFlashErase c s →
    s.boot.flashOp.isSome = true →
    ∃ z, exec (.bootFlashErase c) s = .next z ∧
      Answered c 0x0C08 St.busy [] z ∧
      SetsOnly [] c s z) ∧
  (∀ (c : Call) (o n i : Nat) (s : State),
    Served cmdBootFlashWrite c s →
    MayAccept c s →
    s.boot.flashOp = none →
    o = rd c.payload 0 4 →
    n = rd c.payload 8 2 →
    i = hIndex (rd c.payload 4 4) →
    s.loft.poisoned (yAddr i 0) n = false →
    ∃ z, exec (.bootFlashWrite c) s = .next z ∧
      AcceptedAs c 0x0C09 (fun j => j.waits && j.pins == [i]) z ∧
      z.boot = { s.boot with flashOp := some { op := 0x0C09, offset := o, length := n, data := Machine.loftRead s (yAddr i 0) n } } ∧
      z.loft.mem = s.loft.mem ∧
      StartsOnly [.boot, .loft] c s z) ∧
  (∀ (c : Call) (s : State),
    Served cmdBootSlotCheck c s →
    MayAccept c s →
    ∃ z, exec (.bootSlotCheck c) s = .next z ∧
      AcceptedAs c 0x0C0A (fun j => !j.waits && j.data == c.payload) z ∧
      StartsOnly [] c s z)

/-- The first image check of a QSPI boot tries the slot that R278 names: an image that fails gives its code in
FAIL_FIRST and leaves the other slot to be tried; one that passes is the image that starts. A Campel that does not
start counts as code 1. The cascade boot ends in RECOVERY after 300 s. BOOT_COMPLETE ends the ROM stage, unlocks
boundary scan under R807, enables the tenants of the policy and enters the KEEP mode. Programmed rows hold their
words; an erased range reads 0xFF. Where a clause meets what the spec leaves open it states the model's reading: log
entries 40, 43, 55, 59, 153. From R272, R276, R277, R278, R281, R299, R302, R308, R274, R189, Table BOT.6, Table
BOT.7. -/
def Obligations.BootEventsAdvanceTheBoot : Prop :=
  (∀ (copies : List Bytes) (bad : List (Fin 3)) (k code : Nat) (s : State),
    s.powered = true →
    s.boot.romDone = true →
    s.boot.stage = .rom →
    s.boot.starting = false →
    s.supply.pfail = false →
    s.boot.source = 0 →
    findJob s 0x0C05 0 = none →
    s.boot.tried = [] →
    4194304 ≤ s.boot.flashSize →
    k = firstSlot (s.boot.flashSize / 2) (flashRead s 0 256) (flashRead s (s.boot.flashSize / 2) 256) →
    code = imageCode s (s.boot.flashSize / 2) (slotImage s k) →
    ∃ z, exec (.bootImageCheck copies false bad) s = .next z ∧
      z.boot.starting = decide (code = 0) ∧
      z.boot.stage = .rom ∧
      (code ≠ 0 → z.boot.fails = s.boot.fails ++ [code] ∧ z.boot.tried = [k] ∧ z.boot.image = none) ∧
      (code = 0 → z.boot.slot = k ∧ z.boot.image = some (headerOf (z.boot.imageBytes))) ∧
      KeepsBut [.boot, .spars] s z) ∧
  (∀ (ms : Nat) (s : State),
    s.powered = true →
    s.boot.starting = true →
    100 ≤ ms →
    s.campel = false →
    ∃ z, exec (.campelStartTimeout ms) s = .next z ∧
      z.boot.fails = s.boot.fails ++ [1] ∧
      z.boot.starting = false ∧
      z.boot.image = none ∧
      z.boot.tried = s.boot.slot :: s.boot.tried ∧
      z.boot.stage = (if s.boot.slot < 2 ∧ s.boot.tried.length = 0 then s.boot.stage else .recovery) ∧
      KeepsBut [.boot] s z) ∧
  (∀ (n : Nat) (s : State),
    s.powered = true →
    s.boot.romDone = true →
    s.boot.stage = .rom →
    s.boot.source = 3 →
    s.boot.starting = false →
    300 ≤ n →
    ∃ z, exec (.cascadeBootTimeout n) s = .next z ∧
      z.boot = { s.boot with stage := .recovery } ∧
      KeepsBut [.boot] s z) ∧
  (∀ (s : State),
    s.powered = true →
    s.boot.starting = true →
    s.supply.pfail = false →
    s.supply.safeCause = 0 →
    (s.boot.image.map (·.startMode)).getD 1 ≠ 2 →
    (∀ i : Fin 3, (s.spar i).state ≠ .failed) →
    ∃ z, exec (.bootComplete) s = .next z ∧
      z.campel = true ∧
      z.boot.starting = false ∧
      z.boot.deferred = [] ∧
      z.supply.mode = .keep ∧
      z.supply.safeN = true ∧
      z.keys.unlocked = (s.keys.unlocked || !((debugRow s).testBit 0 || debugBad s)) ∧
      (∀ t : Fin 8, t ≠ 0 → (policy s).testBit t = true → (z.ten t).state = .ready) ∧
      KeepsBut [.tenants, .views, .jobs, .loft, .rings, .subs, .recorder, .boot, .supply, .timebase, .spars, .net, .motor, .channel, .diskq, .radio, .keys, .cascade, .out, .up, .free] s z) ∧
  (∀ (x : OtpBurn) (s : State),
    s.powered = true →
    s.boot.burn = some x →
    (x.rows.map (·.1)).Nodup →
    ∃ z, exec (.otpProgramComplete true) s = .next z ∧
      z.boot.burn = none ∧
      (∀ r ∈ x.rows, otpRow z r.1 = r.2) ∧
      (∀ i, i ∉ x.rows.map (·.1) → otpRow z i = otpRow s i) ∧
      (∀ r ∈ x.rows, .otp r.1 r.2 ∈ z.out) ∧
      KeepsBut [.tenants, .views, .jobs, .loft, .rings, .recorder, .boot, .keys, .cascade, .out, .free] s z) ∧
  (∀ (x : FlashOp) (s : State),
    s.powered = true →
    s.boot.flashOp = some x →
    x.op = 0x0C08 →
    ∃ z, exec (.flashOperationComplete true) s = .next z ∧
      z.boot.flashOp = none ∧
      (∀ a : Nat, mgetD z.boot.flash a 0xFF#8 = if x.offset ≤ a ∧ a < x.offset + x.length then 0xFF#8 else mgetD s.boot.flash a 0xFF#8) ∧
      KeepsBut [.tenants, .views, .jobs, .loft, .rings, .recorder, .boot, .keys, .cascade, .out, .free] s z)

/-- Each wake and each release of a reset begins a boot with its RESET_CAUSE, the straps sampled; OTP, flash, journal,
chronicle and medium stand, and tenants, views, rings, the Loft, Spars and keys are at reset. RESET_N with heads
parked holds the module in reset; with heads loaded it first retracts. The lockout and a VGUARD below 2.2 V put every
rail but VGUARD off. A wake below 10.5 V is held. Where a clause meets what the spec leaves open it states the model's
reading: log entries 53, 54, 84, 85, 86, 87, 147, 168, 175. From R24, R268, R979, R986, R987, R988, R989, R1013,
R1017, R1037, R1041, Table PWR.3. -/
def Obligations.ResetsAndWakesBeginABoot : Prop :=
  (∀ (vin us : Nat) (fell : Bool) (a b : Fin 4) (m : Bool) (s : State),
    (s.supply.power = .guardOnly ∨ s.supply.power = .lockout) →
    10500 ≤ vin →
    1000 ≤ us →
    s.supply.resetN = true →
    ∃ z, exec (.vinWake vin us fell a b m) s = .next z ∧
      Rebooted (if s.supply.power = .lockout then 7 else 0) a b m s z) ∧
  (∀ (vin us : Nat) (a b : Fin 4) (m : Bool) (s : State),
    s.supply.power = .shelf →
    s.supply.heldWake = none →
    10500 ≤ vin →
    1000 ≤ us →
    s.supply.resetN = true →
    ∃ z, exec (.vinWake vin us true a b m) s = .next z ∧
      Rebooted 1 a b m s z) ∧
  (∀ (vin us : Nat) (a b : Fin 4) (m : Bool) (s : State),
    s.supply.power = .shelf →
    10500 ≤ vin →
    1000 ≤ us →
    s.supply.resetN = true →
    ∃ z, exec (.wakeN vin us a b m) s = .next z ∧
      Rebooted 2 a b m s z) ∧
  (∀ (vin us : Nat) (a b : Fin 4) (m : Bool) (s : State),
    s.supply.power = .shelf →
    vin < 10500 →
    1000 ≤ us →
    ∃ z, exec (.wakeN vin us a b m) s = .next z ∧
      z.supply = { s.supply with heldWake := some 2 } ∧
      KeepsBut [.boot, .supply] s z) ∧
  (∀ (us : Nat) (s : State),
    s.powered = true →
    10 ≤ us →
    headsLoaded s = false →
    ∃ z, exec (.resetN us) s = .next z ∧
      Dark .resetHeld s z ∧
      z.supply.resetN = false ∧
      z.supply.resetNext = some (max 3 (s.supply.resetNext.getD 0))) ∧
  (∀ (us : Nat) (s : State),
    s.powered = true →
    10 ≤ us →
    headsLoaded s = true →
    ∃ z, exec (.resetN us) s = .next z ∧
      z.powered = true ∧
      z.supply.resetN = false ∧
      z.supply.resetNext = some (max 3 (s.supply.resetNext.getD 0)) ∧
      z.channel.state = .unloading ∧
      z.channel.wg = false ∧
      z.channel.gates = (false, false, false) ∧
      z.radio.guardMute = true) ∧
  (∀ (a b : Fin 4) (m : Bool) (k : Nat) (s : State),
    s.powered = true →
    s.supply.resetNext = some k →
    s.supply.resetN = true →
    ∃ z, exec (.retractEndReset a b m) s = .next z ∧
      Rebooted k a b m s z) ∧
  (∀ (a b : Fin 4) (m : Bool) (s : State),
    s.supply.power = .resetHeld →
    ∃ z, exec (.resetNRelease a b m) s = .next z ∧
      Rebooted (max 3 (s.supply.resetNext.getD 3)) a b m s z ∧
      z.supply.resetN = true) ∧
  (∀ (vin : Nat) (s : State),
    vin < 2200 →
    ∃ z, exec (.guardPowerOnReset vin) s = .next z ∧
      Dark .guardReset s z ∧
      z.motor = {} ∧
      z.boot.override = none ∧
      z.supply.heldWake = none) ∧
  (∀ (vin : Nat) (s : State),
    s.supply.power = .guardReset →
    2500 ≤ vin →
    ∃ z, exec (.guardResetRelease vin) s = .next z ∧
      z.supply = { s.supply with power := .guardOnly, vin := vin } ∧
      KeepsBut [.supply] s z) ∧
  (∀ (v us : Nat) (s : State),
    (s.supply.power = .on ∨ s.supply.power = .resetHeld ∨ s.supply.power = .shelf) →
    v < 6000 →
    2 ≤ us →
    ∃ z, exec (.undervoltageLockout v us) s = .next z ∧
      Dark .lockout s z) ∧
  (∀ (tj : Int) (a b : Fin 4) (m : Bool) (k : Nat) (s : State),
    s.supply.power = .tripped →
    s.supply.heldWake = some k →
    tj < 1000 →
    s.supply.resetN = true →
    ∃ z, exec (.heldWakeRelease tj a b m) s = .next z ∧
      Rebooted 8 a b m s z) ∧
  (∀ (s : State),
    ∃ z, exec (.perstNRelease) s = .next z ∧
      z.supply = { s.supply with perstN := true, pcieUp := s.supply.peRefclk && s.supply.isl.host } ∧
      KeepsBut [.supply] s z) ∧
  (∀ (s : State),
    ∃ z, exec (.peRefclkLoss) s = .next z ∧
      z.supply = { s.supply with peRefclk := false, pcieUp := false } ∧
      KeepsBut [.supply] s z) ∧
  (∀ (s : State),
    ∃ z, exec (.peRefclkRestored) s = .next z ∧
      z.supply = { s.supply with peRefclk := true, pcieUp := s.supply.perstN && s.supply.isl.host } ∧
      KeepsBut [.supply] s z)

/-- SYS_SET_MODE of tenant 0 with the current mode answers OK; RUN from KEEP is accepted and starts the islands that
SD_REFCLK allows; SAFE enters the SAFE mode at once with its cause. Of another tenant it becomes an event for tenant
0. A change completes when its condition holds: RUN with the crossings open, KEEP and SAFE when the disk is quiet.
Entry to SHELF brakes channel A after 30 s. The supply requests set PFAIL_MV and answer the supply's state. Where a
clause meets what the spec leaves open it states the model's reading: log entries 93, 172. From R222, R991, R998,
R1001, R1004, R1007, R1019, Table PWR.6, Table PWR.11. -/
def Obligations.ModeCommandsChangeTheMode : Prop :=
  (∀ (c : Call) (s : State),
    Served cmdSysSetMode c s →
    MayAccept c s →
    c.t = 0 →
    byteAt c.payload 0 = 2 →
    s.supply.change = none →
    s.campel = true →
    s.supply.pfail = false →
    s.supply.mode = .keep →
    ∃ z, exec (.sysSetMode c) s = .next z ∧
      AcceptedAs c 0x0102 (fun j => j.waits) z ∧
      z.supply.change = some { target := 2, fromMode := .keep, isl := s.supply.isl } ∧
      z.supply.mode = .keep ∧
      z.supply.millerSlow = false ∧
      z.supply.isl.channel = (s.supply.isl.channel || s.supply.sdRefclk) ∧
      StartsOnly [.supply, .spars] c s z) ∧
  (∀ (c : Call) (s : State),
    Served cmdSysSetMode c s →
    c.t = 0 →
    byteAt c.payload 0 = s.supply.mode.code →
    byteAt c.payload 0 ≠ 0 →
    s.supply.change = none →
    s.campel = true →
    s.supply.pfail = false →
    ∃ z, exec (.sysSetMode c) s = .next z ∧
      Answered c 0x0102 St.ok [] z ∧
      SetsOnly [] c s z) ∧
  (∀ (c : Call) (s : State),
    Served cmdSysSetMode c s →
    MayAccept c s →
    c.t = 0 →
    byteAt c.payload 0 = 3 →
    s.supply.change = none →
    s.campel = true →
    s.supply.pfail = false →
    s.supply.mode = .keep →
    ∃ z, exec (.sysSetMode c) s = .next z ∧
      AcceptedAs c 0x0102 (fun j => j.waits) z ∧
      z.supply.mode = .safe ∧
      z.supply.safeN = false ∧
      z.supply.safeCause = s.supply.safeCause ||| 8#8 ∧
      z.supply.safeEntry = some .keep ∧
      StartsOnly [.supply, .motor, .recorder] c s z) ∧
  (∀ (c : Call) (n : Nat) (s : State),
    Served cmdSysSetMode c s →
    c.t ≠ 0 →
    eventRing s 0 = some n →
    (s.ring n).lost = 0 →
    canReserve s 0 = true →
    ∃ z, exec (.sysSetMode c) s = .next z ∧
      Answered c 0x0102 St.ok [] z ∧
      EventPosted n (eventDesc 4 0 0x0102 0 c.t.val 0 (leBytes 8 (byteAt c.payload 0)) s.timebase.now) s z ∧
      SetsOnly [.loft, .rings] c s z) ∧
  (∀ (c : Call) (s : State),
    Served cmdSysSupplyConfig c s →
    ∃ z, exec (.sysSupplyConfig c) s = .next z ∧
      Answered c 0x0104 St.ok [] z ∧
      z.supply = { s.supply with pfailMv := rd c.payload 0 2 } ∧
      SetsOnly [.supply] c s z ∧
      Rang (32 + c.t.val) s z) ∧
  (∀ (c : Call) (s : State),
    Served cmdSysSupplyStatus c s →
    ∃ z, exec (.sysSupplyStatus c) s = .next z ∧
      Answered c 0x0105 St.ok (leBytes 2 s.supply.vin ++ leBytes 2 s.supply.vinMa ++ leInt 2 s.supply.tj ++ leBytes 2 s.supply.pfailMv ++ leBytes 2 (maskOf (List.range 9) fun i => vat s.supply.rails i) ++ leBytes 1 (b2n s.supply.vaux5.on + 2 * b2n s.supply.vaux3.on + 4 * b2n s.supply.vaux5.latchedOff + 8 * b2n s.supply.vaux3.latchedOff) ++ zeros 1 ++ leBytes 2 s.supply.vaux5.ma ++ leBytes 2 s.supply.vaux3.ma ++ leBytes 4 s.supply.pfailCount ++ leBytes 4 s.supply.lastPfailMs ++ leBytes 4 s.supply.thermWarns) z ∧
      ReadsOnly c s z) ∧
  (∀ (n : Nat) (s : State),
    s.powered = true →
    s.supply.change.any (fun c => c.target == 0) = true →
    30 ≤ n →
    headsLoaded s = false →
    s.motor.a.state = .decel →
    ∃ z, exec (.shelfStopTimeout n) s = .next z ∧
      z.motor.a.state = .brake ∧
      z.motor.a.emergency = true ∧
      .motorStep 0 7 ∈ z.out ∧
      z.supply = s.supply) ∧
  (∀ (k : ModeChange) (s : State),
    s.powered = true →
    s.supply.safeEntry = none →
    s.supply.change = some k →
    k.target = 2 →
    crossingsOpen s = true →
    ∃ z, exec (.modeChangeComplete) s = .next z ∧
      z.supply.mode = .run ∧
      z.supply.change = none ∧
      z.supply.safeN = true) ∧
  (∀ (k : ModeChange) (s : State),
    s.powered = true →
    s.supply.safeEntry = none →
    s.supply.change = some k →
    k.target = 1 →
    diskQuiet s = true →
    ∃ z, exec (.modeChangeComplete) s = .next z ∧
      z.supply.mode = .keep ∧
      z.supply.change = none ∧
      z.supply.isl.channel = false ∧
      z.supply.isl.servo = false ∧
      z.supply.isl.radio = false ∧
      z.supply.millerSlow = true) ∧
  (∀ (m : Mode) (s : State),
    s.powered = true →
    s.supply.safeEntry = some m →
    diskQuiet s = true →
    ∃ z, exec (.modeChangeComplete) s = .next z ∧
      z.supply.safeEntry = none ∧
      z.supply.isl.channel = false ∧
      z.supply.isl.servo = false ∧
      z.supply.mode = s.supply.mode)

/-- PFAIL latches, drives PFAIL_N low, closes the write gate until device reset, mutes the radio by the hardware path,
raises source 124 and stops the islands that hold-up stops; in the ROM stage it ends the boot. When it clears, PFAIL_N
is high, the islands that ran run again and the VAUX outputs that are not latched off turn on; in the ROM stage it
resets the device. Without SD_REFCLK the channel and radio islands stop; in RUN the channel starts again with it.
Where a clause meets what the spec leaves open it states the model's reading: log entries 97, 103. From R991, R992,
R994, R997, R304, R559, R1020, R1078, R52, Table PWR.4. -/
def Obligations.PowerFailureIsHeldUpAndClears : Prop :=
  (∀ (vin us : Nat) (s : State),
    Up s →
    vin < s.supply.pfailMv →
    20 ≤ us →
    s.supply.pfail = false →
    ∃ z, exec (.pfail vin us) s = .next z ∧
      z.supply.pfail = true ∧
      z.supply.pfailN = false ∧
      z.supply.vin = vin ∧
      z.supply.pfailCount = inc32 s.supply.pfailCount ∧
      z.channel.wgBlocked = true ∧
      z.channel.wg = false ∧
      z.radio.guardMute = true ∧
      z.supply.isl.channel = false ∧
      z.supply.isl.crypto = false ∧
      z.supply.isl.cascade = false ∧
      (z.view 0).raw.getLsbD 124 = true) ∧
  (∀ (vin us : Nat) (s : State),
    s.powered = true →
    s.campel = false →
    vin < s.supply.pfailMv →
    20 ≤ us →
    s.supply.pfail = false →
    ∃ z, exec (.pfail vin us) s = .next z ∧
      z.supply.pfail = true ∧
      z.supply.pfailN = false ∧
      z.supply.vin = vin ∧
      z.boot.starting = false ∧
      z.boot.stage = s.boot.stage) ∧
  (∀ (vin ms : Nat) (i : Islands) (s : State),
    s.powered = true →
    s.campel = true →
    11000 < vin →
    100 ≤ ms →
    s.supply.pfail = true →
    s.supply.holdUp = false →
    s.supply.heldIsl = some i →
    s.supply.sdRefclk = true →
    ∃ z, exec (.pfailCleared vin ms) s = .next z ∧
      z.supply.pfail = false ∧
      z.supply.pfailN = true ∧
      z.supply.vin = vin ∧
      z.supply.isl = i ∧
      z.supply.heldIsl = none ∧
      z.supply.vaux5 = vauxOn s.supply.vaux5 ∧
      z.supply.vaux3 = vauxOn s.supply.vaux3) ∧
  (∀ (vin ms : Nat) (s : State),
    s.powered = true →
    s.campel = false →
    11000 < vin →
    100 ≤ ms →
    s.supply.pfail = true →
    s.supply.holdUp = false →
    s.supply.resetN = true →
    ∃ z, exec (.pfailCleared vin ms) s = .next z ∧
      z.supply.resetCause = 9 ∧
      z.supply.pfail = false ∧
      Survives s z ∧
      Cleared z) ∧
  (∀ (p : Bool) (ppm : Int) (s : State),
    s.powered = true →
    clockBad p ppm = true →
    s.supply.sdRefclk = true →
    ∃ z, exec (.sdRefclkLoss p ppm) s = .next z ∧
      z.supply.sdRefclk = false ∧
      z.supply.isl.channel = false ∧
      z.supply.isl.radio = false ∧
      z.supply.clkRadio = s.supply.isl.radio ∧
      z.supply.mode = s.supply.mode) ∧
  (∀ (ppm : Int) (s : State),
    s.powered = true →
    clockBad true ppm = false →
    s.supply.sdRefclk = false →
    ∃ z, exec (.sdRefclkRestored ppm) s = .next z ∧
      z.supply.sdRefclk = true ∧
      z.supply.clkRadio = false ∧
      (s.supply.mode = .run → s.supply.pfail = false → z.supply.isl.channel = true) ∧
      z.supply.mode = s.supply.mode)

/-- A fault of a rail of group SAFE raises source 127 and enters SAFE; one of the others resets the device with cause
6. A rail that recovers clears the cause when all are good. A VAUX output in limit turns off, raises 127 and retries
at most three times. THERM_WARN, THERM_CRIT and THERM_TRIP do what their limits ask. The watchdog restarts Miller,
abandons what was outstanding and enters SAFE; again within an hour, or with a wrong digest, it resets the device with
cause 5. Where a clause meets what the spec leaves open it states the model's reading: log entries 7, 99, 100, 102,
162. From R978, R979, R980, R983, R1006, R1010, R1011, R1012, R1014, R1015, R1016, Table PWR.7. -/
def Obligations.RailsHeatAndTheWatchdogProtect : Prop :=
  (∀ (r : Fin 9) (us : Nat) (s : State),
    Up s →
    5 ≤ r.val →
    10 ≤ us →
    vat s.supply.rails r.val = true →
    s.supply.change = none →
    ∃ z, exec (.railFault r us) s = .next z ∧
      z.supply.rails = vset s.supply.rails r.val false ∧
      z.supply.safeCause.getLsbD 6 = true ∧
      z.supply.mode = .safe ∧
      (z.view 0).raw.getLsbD 127 = true) ∧
  (∀ (r : Fin 9) (us : Nat) (s : State),
    s.powered = true →
    0 < r.val →
    r.val ≤ 4 →
    10 ≤ us →
    vat s.supply.rails r.val = true →
    headsLoaded s = false →
    s.supply.resetN = true →
    ∃ z, exec (.railFault r us) s = .next z ∧
      z.supply.resetCause = 6 ∧
      Survives s z ∧
      Cleared z) ∧
  (∀ (r : Fin 9) (ms : Nat) (s : State),
    s.powered = true →
    1000 ≤ ms →
    ∃ z, exec (.railRecovered r ms) s = .next z ∧
      z.supply = { s.supply with rails := vset s.supply.rails r.val true, safeCause := if (vset s.supply.rails r.val true).all id then s.supply.safeCause &&& ~~~(BitVec.twoPow 8 6) else s.supply.safeCause } ∧
      KeepsBut [.supply] s z) ∧
  (∀ (five : Bool) (ma ms : Nat) (s : State),
    Up s →
    CanRecord s →
    10 ≤ ms →
    (if five then 600 else 300) ≤ ma →
    (vauxOf s five).on = true →
    headsLoaded s = false →
    ∃ z, exec (.vauxFault five ma ms) s = .next z ∧
      vauxOf z five = { vauxOf s five with on := false, tripped := decide ((vauxOf s five).retries < 3), latchedOff := decide (3 ≤ (vauxOf s five).retries), ma := 0 } ∧
      vauxOf z (!five) = vauxOf s (!five) ∧
      Raised 127 s z ∧
      Recorded 0x01A6 4 0 s z ∧
      KeepsBut [.supply, .views, .out, .recorder] s z) ∧
  (∀ (five : Bool) (ms : Nat) (s : State),
    s.powered = true →
    1000 ≤ ms →
    (vauxOf s five).tripped = true →
    s.supply.pfail = false →
    ∃ z, exec (.vauxRetry five ms) s = .next z ∧
      vauxOf z five = { vauxOf s five with on := true, tripped := false, retries := (vauxOf s five).retries + 1 } ∧
      vauxOf z (!five) = vauxOf s (!five) ∧
      KeepsBut [.supply] s z) ∧
  (∀ (tj : Int) (n : Nat) (s : State),
    Up s →
    1000 ≤ tj →
    10 ≤ n →
    s.supply.thermWarn = false →
    ∃ z, exec (.thermWarn tj n) s = .next z ∧
      z.supply = { s.supply with tj := tj, thermWarn := true, thermN := false, thermWarns := inc32 s.supply.thermWarns } ∧
      z.radio.thermBack = true ∧
      Raised 125 s z ∧
      KeepsBut [.supply, .radio, .views, .out, .recorder] s z) ∧
  (∀ (tj : Int) (n : Nat) (s : State),
    s.powered = true →
    tj < 950 →
    60 ≤ n →
    s.supply.thermWarn = true →
    ∃ z, exec (.thermWarnClear tj n) s = .next z ∧
      z.supply = { s.supply with tj := tj, thermWarn := false, thermCrit := false, thermN := true, safeCause := s.supply.safeCause &&& ~~~(BitVec.twoPow 8 2) } ∧
      z.radio.thermBack = false ∧
      KeepsBut [.supply, .radio, .out] s z) ∧
  (∀ (tj : Int) (n : Nat) (s : State),
    Up s →
    1150 ≤ tj →
    10 ≤ n →
    s.supply.thermCrit = false →
    s.supply.change = none →
    ∃ z, exec (.thermCrit tj n) s = .next z ∧
      z.supply.thermCrit = true ∧
      z.supply.tj = tj ∧
      z.supply.safeCause.getLsbD 2 = true ∧
      z.supply.mode = .safe ∧
      (z.view 0).raw.getLsbD 126 = true) ∧
  (∀ (tj : Int) (us : Nat) (s : State),
    s.powered = true →
    1250 ≤ tj →
    100 ≤ us →
    s.supply.tripping = false →
    headsLoaded s = false →
    ∃ z, exec (.thermTrip tj us) s = .next z ∧
      z.supply.power = .tripped ∧
      z.supply.isl = noIslands ∧
      z.supply.thermN = false ∧
      z.supply.afterTrip = true ∧
      z.supply.tj = tj ∧
      z.boot.otp = s.boot.otp ∧
      Cleared z) ∧
  (∀ (ms : Nat) (s : State),
    Up s →
    250 ≤ ms →
    s.supply.pfail = false →
    (∀ t ∈ s.supply.wdogAt, t + 3600000000 < s.up) →
    s.supply.change = none →
    ∃ z, exec (.millerWatchdog ms true) s = .next z ∧
      z.supply.wdogAt = some s.up ∧
      z.supply.mode = .safe ∧
      z.supply.safeCause.getLsbD 4 = false ∧
      z.jobs = [] ∧
      (∀ t : Fin 8, (z.ten t).busy = false ∧ (z.ten t).outstanding = none) ∧
      (z.view 0).raw.getLsbD 123 = true) ∧
  (∀ (ms : Nat) (s : State),
    s.powered = true →
    s.campel = true →
    250 ≤ ms →
    s.supply.pfail = false →
    s.supply.resetN = true →
    ∃ z, exec (.millerWatchdog ms false) s = .next z ∧
      z.supply.resetCause = 5 ∧
      Survives s z ∧
      Cleared z)

/-- Each changes the state that its rule gives, raises source 80 with the change, drives the step and leaves channel B
as it was: the end of align, the twelfth zero crossing, a commutation step, a failed handover and its retry, nominal
speed, the spin-up limit, an index, lock and unlock. Where a clause meets what the spec leaves open it states the
model's reading: log entry 122. From R491, R492, R495, R496, R497, R498, R499, R500, R501, R503, R507, R508. -/
def Obligations.ChannelAStartsAndLocks : Prop :=
  (∀ (ms : Nat) (s : State),
    Up s →
    s.motor.a.state = .align →
    s.motor.a.retryWait = false →
    s.motor.a.cfg.alignMs ≤ ms →
    ∃ z, exec (.alignEnd false ms) s = .next z ∧
      z.motor = { s.motor with a := { s.motor.a with state := .ramp, goodRevs := 0, badRevs := 0, step := 2, crossings := 0, crossed := false } } ∧
      Raised 80 s z ∧
      .motorStep 0 2 ∈ z.out ∧
      KeepsBut [.motor, .views, .out] s z) ∧
  (∀ (pct : Nat) (d : Bool) (r : Nat) (s : State),
    Up s →
    s.motor.a.state = .ramp →
    goodCrossing s.motor.a.cfg.blankPct pct d = true →
    s.motor.a.crossed = false →
    overHandoverA s.motor.a r = true →
    11 ≤ s.motor.a.crossings →
    ∃ z, exec (.zeroCrossing false pct d r) s = .next z ∧
      z.motor = { s.motor with a := { s.motor.a with state := .accel, goodRevs := 0, badRevs := 0, crossed := true, crossings := s.motor.a.crossings + 1, attempts := 0 } } ∧
      Raised 80 s z ∧
      KeepsBut [.motor, .views, .out] s z) ∧
  (∀ (pct : Nat) (d : Bool) (r : Nat) (s : State),
    s.powered = true →
    s.motor.a.state = .ramp →
    goodCrossing s.motor.a.cfg.blankPct pct d = true →
    s.motor.a.crossed = false →
    overHandoverA s.motor.a r = false →
    ∃ z, exec (.zeroCrossing false pct d r) s = .next z ∧
      z.motor = { s.motor with a := { s.motor.a with crossed := true, crossings := 0 } } ∧
      KeepsBut [.motor] s z) ∧
  (∀ (r v m : Nat) (s : State),
    s.powered = true →
    s.motor.a.state ∈ [.ramp, .accel, .atSpeed, .pullIn, .locked] →
    ∃ z, exec (.commutationStep false r v m) s = .next z ∧
      z.motor = { s.motor with a := { s.motor.a with step := s.motor.a.step % 6 + 1, crossings := if s.motor.a.crossed then s.motor.a.crossings else 0, crossed := false, stepFloat := false, speed := r / (6 * max 1 s.motor.a.cfg.polePairs), vinMa := v, phaseMa := m } } ∧
      z.out = .motorStep 0 (s.motor.a.step % 6 + 1) :: s.out ∧
      KeepsBut [.motor, .out] s z) ∧
  (∀ (ms : Nat) (s : State),
    Up s →
    2000 ≤ ms →
    s.motor.a.state = .ramp →
    s.motor.a.attempts < 2 →
    ∃ z, exec (.handoverTimeout false ms) s = .next z ∧
      z.motor = { s.motor with a := { s.motor.a with state := .align, goodRevs := 0, badRevs := 0, attempts := s.motor.a.attempts + 1, handoverFails := inc16 s.motor.a.handoverFails, retryWait := true, step := 6 } } ∧
      Raised 90 s z ∧
      .motorStep 0 0 ∈ z.out ∧
      KeepsBut [.motor, .views, .out] s z) ∧
  (∀ (ms : Nat) (s : State),
    s.powered = true →
    500 ≤ ms →
    s.motor.a.retryWait = true →
    ∃ z, exec (.handoverRetry false ms) s = .next z ∧
      z.motor = { s.motor with a := { s.motor.a with retryWait := false, step := 6, crossings := 0, crossed := false } } ∧
      z.out = .motorStep 0 6 :: s.out ∧
      KeepsBut [.motor, .out] s z) ∧
  (∀ (v ms : Nat) (s : State),
    Up s →
    s.motor.a.state = .accel →
    500 ≤ ms →
    nearNominal s.motor.a v = true →
    ∃ z, exec (.atSpeed v ms) s = .next z ∧
      z.motor.a.state = .atSpeed ∧
      z.motor.a.speed = v ∧
      (z.view 0).raw.getLsbD 80 = true ∧
      z.motor.b = s.motor.b ∧
      z.supply = s.supply) ∧
  (∀ (n : Nat) (s : State),
    Up s →
    s.motor.a.state ∈ [.align, .ramp, .accel] →
    s.motor.a.cfg.spinupMax ≤ n →
    headsLoaded s = false →
    ∃ z, exec (.spinupTimeout n) s = .next z ∧
      z.motor.a.state = .fault ∧
      z.motor.a.cause = 4 ∧
      z.motor.a.faultBrake = true ∧
      .motorStep 0 0 ∈ z.out ∧
      .motorStep 0 7 ∈ z.out ∧
      (z.view 0).raw.getLsbD 80 = true ∧
      (z.view 0).raw.getLsbD 95 = true ∧
      z.motor.b = s.motor.b ∧
      z.supply = s.supply) ∧
  (∀ (e : Int) (s : State),
    s.powered = true →
    s.channel.servoValid = true →
    s.motor.a.state = .pullIn →
    ∃ z, exec (.servoIndex e) s = .next z ∧
      z.motor = { s.motor with a := { s.motor.a with indexSeen := true, phaseErr := e, goodRevs := if e.natAbs ≤ 1000 then s.motor.a.goodRevs + 1 else 0 } } ∧
      KeepsBut [.motor] s z) ∧
  (∀ (e : Int) (s : State),
    Up s →
    s.channel.servoValid = true →
    s.motor.a.state = .atSpeed →
    s.motor.a.gen.flags.testBit 0 = true →
    ∃ z, exec (.servoIndex e) s = .next z ∧
      z.motor = { s.motor with a := { s.motor.a with state := .pullIn, goodRevs := 0, badRevs := 0, indexSeen := true, phaseErr := e } } ∧
      Raised 80 s z ∧
      KeepsBut [.motor, .views, .out] s z) ∧
  (∀ (s : State),
    Up s →
    s.motor.a.state = .pullIn →
    64 ≤ s.motor.a.goodRevs →
    ∃ z, exec (.genlockLocked) s = .next z ∧
      z.motor = { s.motor with a := { s.motor.a with state := .locked, goodRevs := 0, badRevs := 0 } } ∧
      Raised 80 s z ∧
      KeepsBut [.motor, .views, .out] s z) ∧
  (∀ (s : State),
    Up s →
    s.motor.a.state = .locked →
    8 ≤ s.motor.a.badRevs →
    ∃ z, exec (.genlockUnlock) s = .next z ∧
      z.motor = { s.motor with a := { s.motor.a with state := .pullIn, goodRevs := 0, badRevs := 0 } } ∧
      Raised 80 s z ∧
      KeepsBut [.motor, .views, .out] s z)

/-- Below 5 % of nominal DECEL becomes BRAKE without source 95; a brake that ended is STOPPED. At the ceiling the
braking current is reduced and source 93 raised once; at 13.8 V the drive floats until VIN has fallen. An overcurrent
or a stall of a running motor with parked heads is a FAULT with its cause, its source, and the brake; while it
decelerates only the step floats. From R511, R512, R513, R514, R515, R521, R522, R523, R539. -/
def Obligations.ChannelAStopsAndFaults : Prop :=
  (∀ (v : Nat) (s : State),
    Up s →
    s.motor.a.state = .decel →
    nearRest s.motor.a v = true →
    ∃ z, exec (.decelToBrake v) s = .next z ∧
      z.motor = { s.motor with a := { s.motor.a with state := .brake, goodRevs := 0, badRevs := 0, speed := v, clamp := false, regen := false } } ∧
      Raised 80 s z ∧
      .motorStep 0 7 ∈ z.out ∧
      KeepsBut [.motor, .views, .out] s z) ∧
  (∀ (ms : Nat) (s : State),
    Up s →
    1000 ≤ ms →
    s.motor.a.state = .brake →
    s.motor.a.autoWait = false →
    s.supply.change = none →
    ∃ z, exec (.brakeEnd false ms) s = .next z ∧
      z.motor.a.state = .stopped ∧
      z.motor.a.speed = 0 ∧
      z.motor.a.emergency = false ∧
      .motorStep 0 0 ∈ z.out ∧
      (z.view 0).raw.getLsbD 80 = true ∧
      z.motor.b = s.motor.b ∧
      z.supply = s.supply) ∧
  (∀ (v : Nat) (s : State),
    Up s →
    s.motor.a.state = .decel →
    s.motor.a.cfg.regenCeil ≤ v →
    s.motor.a.regenTold = false →
    ∃ z, exec (.regenLimit v) s = .next z ∧
      z.motor = { s.motor with a := { s.motor.a with regen := true, regenTold := true } } ∧
      Raised 93 s z ∧
      KeepsBut [.motor, .views, .out] s z) ∧
  (∀ (v : Nat) (s : State),
    s.powered = true →
    s.motor.a.state = .decel →
    v < s.motor.a.cfg.regenCeil →
    ∃ z, exec (.regenLimit v) s = .next z ∧
      z.motor = { s.motor with a := { s.motor.a with regen := false } } ∧
      KeepsBut [.motor] s z) ∧
  (∀ (v : Nat) (s : State),
    s.powered = true →
    s.motor.a.state = .decel →
    s.motor.a.clamp = false →
    13800 ≤ v →
    ∃ z, exec (.regenClamp v) s = .next z ∧
      z.motor = { s.motor with a := { s.motor.a with clamp := true, regenEvents := inc16 s.motor.a.regenEvents } } ∧
      z.out = .motorStep 0 0 :: s.out ∧
      KeepsBut [.motor, .out] s z) ∧
  (∀ (v : Nat) (s : State),
    s.powered = true →
    s.motor.a.state = .decel →
    s.motor.a.clamp = true →
    v + 300 < s.motor.a.cfg.regenCeil →
    ∃ z, exec (.regenResume v) s = .next z ∧
      z.motor = { s.motor with a := { s.motor.a with clamp := false } } ∧
      z.out = .motorStep 0 s.motor.a.step :: s.out ∧
      KeepsBut [.motor, .out] s z) ∧
  (∀ (ma us : Nat) (s : State),
    Up s →
    s.motor.a.cfg.phaseOc < ma →
    1 ≤ us →
    s.motor.a.state ∈ [.align, .ramp, .accel, .atSpeed, .pullIn, .locked] →
    headsLoaded s = false →
    ∃ z, exec (.aOvercurrent ma us) s = .next z ∧
      z.motor.a.state = .fault ∧
      z.motor.a.cause = 1 ∧
      z.motor.a.faultBrake = true ∧
      .motorStep 0 0 ∈ z.out ∧
      .motorStep 0 7 ∈ z.out ∧
      (z.view 0).raw.getLsbD 80 = true ∧
      (z.view 0).raw.getLsbD 95 = true ∧
      z.motor.b = s.motor.b ∧
      z.supply = s.supply ∧
      (z.view 0).raw.getLsbD 88 = true) ∧
  (∀ (ma us : Nat) (s : State),
    Up s →
    s.motor.a.cfg.phaseOc < ma →
    1 ≤ us →
    (s.motor.a.state = .decel ∨ s.motor.a.state = .harvest) →
    ∃ z, exec (.aOvercurrent ma us) s = .next z ∧
      z.motor = { s.motor with a := { s.motor.a with stepFloat := true, ocCount := s.motor.a.ocCount + 1 } } ∧
      Raised 88 s z ∧
      .motorStep 0 0 ∈ z.out ∧
      KeepsBut [.motor, .views, .out] s z) ∧
  (∀ (n : Nat) (s : State),
    Up s →
    6 ≤ n →
    s.motor.a.state ∈ [.accel, .atSpeed, .pullIn, .locked] →
    headsLoaded s = false →
    ∃ z, exec (.aStall n) s = .next z ∧
      z.motor.a.state = .fault ∧
      z.motor.a.cause = 2 ∧
      z.motor.a.faultBrake = true ∧
      .motorStep 0 0 ∈ z.out ∧
      .motorStep 0 7 ∈ z.out ∧
      (z.view 0).raw.getLsbD 80 = true ∧
      (z.view 0).raw.getLsbD 95 = true ∧
      z.motor.b = s.motor.b ∧
      z.supply = s.supply ∧
      (z.view 0).raw.getLsbD 89 = true)

/-- Align ends in the blind ramp; the twelfth crossing hands over; a step drives the gates of Table MOT.1; a failed
handover floats and retries. An overcurrent or a stall stops channel B with its cause and source, to restart after 1
s, and latches FAULT at the fourth within 60 s. SPEED_CMD in RUN sets the speed its value gives; its loss raises
source 94 and sets LOSS_RPM. Channel A stays as it was. Where a clause meets what the spec leaves open it states the
model's reading: log entry 122. From R490, R491, R497, R498, R526, R527, R528, R529, R530, R531, R532, Table MOT.4. -/
def Obligations.ChannelBRunsAndRecovers : Prop :=
  (∀ (ms : Nat) (s : State),
    s.powered = true →
    s.motor.b.state = .align →
    s.motor.b.retryWait = false →
    s.motor.b.alignMs ≤ ms →
    ∃ z, exec (.alignEnd true ms) s = .next z ∧
      z.motor = { s.motor with b := { s.motor.b with state := .ramp, step := 2, crossings := 0, crossed := false, gates := Vector.ofFn fun (i : Fin 6) => ((phasesOf (s.motor.b.flags.testBit 2) (2)).flatMap fun p => [p == 1, p == -1]).getD i.val false } } ∧
      z.out = .motorStep 1 2 :: s.out ∧
      KeepsBut [.motor, .out] s z) ∧
  (∀ (pct : Nat) (d : Bool) (r : Nat) (s : State),
    s.powered = true →
    s.motor.b.state = .ramp →
    goodCrossing 25 pct d = true →
    s.motor.b.crossed = false →
    overHandoverB s.motor.b r = true →
    11 ≤ s.motor.b.crossings →
    ∃ z, exec (.zeroCrossing true pct d r) s = .next z ∧
      z.motor = { s.motor with b := { s.motor.b with state := .accel, crossed := true, crossings := s.motor.b.crossings + 1, attempts := 0 } } ∧
      KeepsBut [.motor] s z) ∧
  (∀ (r v m : Nat) (s : State),
    s.powered = true →
    s.motor.b.state ∈ [.ramp, .accel, .running] →
    ∃ z, exec (.commutationStep true r v m) s = .next z ∧
      z.motor.b.step = s.motor.b.step % 6 + 1 ∧
      z.motor.b.speed = r / (100 * max 1 s.motor.b.polePairs) ∧
      z.motor.b.gates = (Vector.ofFn fun (i : Fin 6) => ((phasesOf (s.motor.b.flags.testBit 2) (s.motor.b.step % 6 + 1)).flatMap fun p => [p == 1, p == -1]).getD i.val false) ∧
      z.motor.b.state = (if s.motor.b.state = .accel ∧ s.motor.b.target ≤ r / (100 * max 1 s.motor.b.polePairs) then .running else s.motor.b.state) ∧
      z.motor.a = s.motor.a ∧
      z.out = .motorStep 1 (s.motor.b.step % 6 + 1) :: s.out ∧
      KeepsBut [.motor, .out] s z) ∧
  (∀ (ms : Nat) (s : State),
    s.powered = true →
    2000 ≤ ms →
    s.motor.b.state = .ramp →
    s.motor.b.attempts < 2 →
    ∃ z, exec (.handoverTimeout true ms) s = .next z ∧
      z.motor = { s.motor with b := { s.motor.b with state := .align, attempts := s.motor.b.attempts + 1, retryWait := true, step := 6, gates := Vector.replicate 6 false } } ∧
      z.out = .motorStep 1 0 :: s.out ∧
      KeepsBut [.motor, .out] s z) ∧
  (∀ (ms : Nat) (s : State),
    s.powered = true →
    500 ≤ ms →
    s.motor.b.retryWait = true →
    ∃ z, exec (.handoverRetry true ms) s = .next z ∧
      z.motor = { s.motor with b := { s.motor.b with retryWait := false, step := 6, crossings := 0, crossed := false, gates := Vector.ofFn fun (i : Fin 6) => ((phasesOf (s.motor.b.flags.testBit 2) (6)).flatMap fun p => [p == 1, p == -1]).getD i.val false } } ∧
      z.out = .motorStep 1 6 :: s.out ∧
      KeepsBut [.motor, .out] s z) ∧
  (∀ (ms : Nat) (s : State),
    s.powered = true →
    1000 ≤ ms →
    s.motor.b.state = .brake →
    s.motor.b.configured = true →
    targetB s = 0 →
    s.motor.a.autoWait = false →
    s.supply.change = none →
    ∃ z, exec (.brakeEnd true ms) s = .next z ∧
      z.motor = { s.motor with b := { s.motor.b with state := .stopped, speed := 0, target := 0, gates := Vector.replicate 6 false } } ∧
      z.out = .motorStep 1 0 :: s.out ∧
      KeepsBut [.motor, .out] s z) ∧
  (∀ (mv us : Nat) (s : State),
    Up s →
    activeB s.motor.b = true →
    2 ≤ us →
    s.motor.b.ocMa * s.motor.b.isnsGain + s.motor.b.isnsZero * 1000 < mv * 1000 →
    ∃ z, exec (.bOvercurrent mv us) s = .next z ∧
      z.motor.b.state = (if 3 ≤ (s.motor.b.events.filter fun t => s.up ≤ t + 60000000).length then .fault else .stopped) ∧
      z.motor.b.cause = 1 ∧
      z.motor.b.restartWait = !decide (3 ≤ (s.motor.b.events.filter fun t => s.up ≤ t + 60000000).length) ∧
      z.motor.b.speed = 0 ∧
      z.motor.b.gates = Vector.replicate 6 false ∧
      z.motor.a = s.motor.a ∧
      Raised 91 s z ∧
      KeepsBut [.motor, .views, .out] s z) ∧
  (∀ (n : Nat) (s : State),
    Up s →
    (s.motor.b.state = .accel ∨ s.motor.b.state = .running) →
    6 ≤ n →
    ∃ z, exec (.bStall n) s = .next z ∧
      z.motor.b.state = (if 3 ≤ (s.motor.b.events.filter fun t => s.up ≤ t + 60000000).length then .fault else .stopped) ∧
      z.motor.b.cause = 2 ∧
      z.motor.b.restartWait = !decide (3 ≤ (s.motor.b.events.filter fun t => s.up ≤ t + 60000000).length) ∧
      z.motor.b.speed = 0 ∧
      z.motor.b.gates = Vector.replicate 6 false ∧
      z.motor.a = s.motor.a ∧
      Raised 92 s z ∧
      KeepsBut [.motor, .views, .out] s z) ∧
  (∀ (ms : Nat) (s : State),
    s.powered = true →
    1000 ≤ ms →
    s.motor.b.restartWait = true →
    s.motor.b.configured = true →
    targetB s ≠ 0 →
    s.motor.b.state = .stopped →
    s.supply.isl.motor = true →
    s.supply.pfail = false →
    ∃ z, exec (.bRestart ms) s = .next z ∧
      z.motor.b.state = .align ∧
      z.motor.b.step = 6 ∧
      z.motor.b.restartWait = false ∧
      z.motor.b.target = targetB s ∧
      z.motor.a = s.motor.a ∧
      z.out = .motorStep 1 6 :: s.out ∧
      KeepsBut [.motor, .out] s z) ∧
  (∀ (v : Nat) (s : State),
    s.powered = true →
    s.motor.b.source ≠ 0 →
    (∀ t ∈ s.motor.b.cmdAt, t + 10000 ≤ s.up) →
    s.supply.mode = .run →
    s.motor.b.lost = false →
    s.supply.change = none →
    ∃ z, exec (.speedCmdUpdate v) s = .next z ∧
      z.motor.b.cmdValue = v ∧
      z.motor.b.cmdAt = some s.up ∧
      z.motor.b.target = speedOf s.motor.b v ∧
      z.motor.a = s.motor.a ∧
      KeepsBut [.motor, .views, .out] s z) ∧
  (∀ (v e f : Nat) (s : State),
    Up s →
    s.motor.b.flags.testBit 1 = true →
    s.motor.b.lost = false →
    cmdLoss s.motor.b.source v e f = true →
    s.supply.mode = .run →
    s.supply.change = none →
    ∃ z, exec (.speedCmdLost v e f) s = .next z ∧
      z.motor.b.lost = true ∧
      z.motor.b.cmdValue = v ∧
      z.motor.b.target = s.motor.b.lossRpm ∧
      z.motor.a = s.motor.a ∧
      Raised 94 s z ∧
      KeepsBut [.motor, .views, .out] s z) ∧
  (∀ (ms : Nat) (s : State),
    s.powered = true →
    s.motor.b.lost = true →
    100 ≤ ms →
    s.motor.b.source ≠ 0 →
    s.supply.mode = .run →
    s.supply.change = none →
    ∃ z, exec (.speedCmdRestored ms) s = .next z ∧
      z.motor.b.lost = false ∧
      z.motor.b.target = speedOf s.motor.b s.motor.b.cmdValue ∧
      z.motor.a = s.motor.a ∧
      KeepsBut [.motor, .views, .out] s z)

/-- MOT_A_CONFIG and MOT_A_GENLOCK take their fields into force and into the keepsake area. MOT_A_START aligns channel
A. MOT_A_STOP decelerates a running spindle with parked heads, or brakes it in an emergency. MOT_B_CONFIG and
MOT_B_SET_SPEED set channel B's settings and command. The status requests answer Tables MOT.9's and MOT_B_STATUS's
bytes. Where a clause meets what the spec leaves open it states the model's reading: log entries 116, 119, 120, 121.
From R495, R511, R515, R529, R530, R535, R536, R537, R538, Table MOT.7, Table MOT.8, Table MOT.10. -/
def Obligations.MotorRequestsServe : Prop :=
  (∀ (c : Call) (s : State),
    Served cmdMotAConfig c s →
    aIdle s = true →
    s.timebase.persistFails = false →
    ∃ z, exec (.motAConfig c) s = .next z ∧
      Answered c 0x0801 St.ok [] z ∧
      z.motor = { s.motor with a := { s.motor.a with cfg := motAConfigOf c.payload, cfgSet := true } } ∧
      (keptSetup z).take 28 = c.payload ∧
      SetsOnly [.motor, .boot] c s z) ∧
  (∀ (c : Call) (s : State),
    Served cmdMotAStart c s →
    MayAccept c s →
    aIdle s = true →
    setupInForce s = true →
    ∃ z, exec (.motAStart c) s = .next z ∧
      AcceptedAs c 0x0802 (fun j => j.waits) z ∧
      z.motor.a.state = .align ∧
      z.motor.a.step = 6 ∧
      z.motor.a.starts = inc16 s.motor.a.starts ∧
      z.motor.a.startAt = s.up ∧
      z.motor.a.cause = 0 ∧
      z.motor.b = s.motor.b ∧
      .motorStep 0 6 ∈ z.out ∧
      StartsOnly [.motor] c s z) ∧
  (∀ (c : Call) (s : State),
    Served cmdMotAStop c s →
    MayAccept c s →
    byteAt c.payload 0 = 0 →
    s.motor.a.state ∈ [.accel, .atSpeed, .pullIn, .locked] →
    headsLoaded s = false →
    findJob s 0x0802 0 = none →
    ∃ z, exec (.motAStop c) s = .next z ∧
      AcceptedAs c 0x0803 (fun j => j.waits) z ∧
      z.motor.a.state = .decel ∧
      z.motor.a.stopWait = false ∧
      z.motor.b = s.motor.b ∧
      StartsOnly [.motor] c s z) ∧
  (∀ (c : Call) (s : State),
    Served cmdMotAStop c s →
    MayAccept c s →
    byteAt c.payload 0 = 1 →
    s.motor.a.state ∈ [.accel, .atSpeed, .pullIn, .locked] →
    headsLoaded s = false →
    findJob s 0x0802 0 = none →
    ∃ z, exec (.motAStop c) s = .next z ∧
      AcceptedAs c 0x0803 (fun j => j.waits) z ∧
      z.motor.a.state = .brake ∧
      z.motor.a.emergency = true ∧
      z.motor.b = s.motor.b ∧
      .motorStep 0 7 ∈ z.out ∧
      StartsOnly [.motor] c s z) ∧
  (∀ (c : Call) (s : State),
    Served cmdMotAGenlock c s →
    (byteAt c.payload 0 = s.motor.a.gen.rate ∨ aIdle s = true) →
    s.timebase.persistFails = false →
    ∃ z, exec (.motAGenlock c) s = .next z ∧
      Answered c 0x0804 St.ok [] z ∧
      z.motor.a.gen = genlockOf c.payload ∧
      z.motor.a.genSet = true ∧
      slice (keptSetup z) 28 12 = c.payload ∧
      z.motor.b = s.motor.b ∧
      KeepsBut [.tenants, .views, .jobs, .rings, .recorder, .boot, .motor, .out] s z) ∧
  (∀ (c : Call) (s : State),
    Served cmdMotAStatus c s →
    ∃ z, exec (.motAStatus c) s = .next z ∧
      Answered c 0x0805 St.ok (leBytes 1 (spinCode s.motor.a.state) ++ leBytes 1 (b2n s.motor.a.regen + 2 * b2n s.motor.a.clamp + 4 * b2n s.motor.a.indexSeen + 8 * b2n (setupInForce s)) ++ leBytes 1 s.motor.a.cause ++ zeros 1 ++ leBytes 4 s.motor.a.speed ++ leInt 4 (if s.motor.a.state = .pullIn ∨ s.motor.a.state = .locked then sat32 s.motor.a.phaseErr else 0) ++ leBytes 2 s.supply.vin ++ leBytes 2 s.motor.a.vinMa ++ leBytes 2 s.motor.a.phaseMa ++ leBytes 2 s.motor.a.starts ++ leBytes 2 s.motor.a.handoverFails ++ leBytes 2 s.motor.a.regenEvents ++ leBytes 4 (min 0xFFFFFFFF (s.motor.a.runUs / 1000000))) z ∧
      ReadsOnly c s z) ∧
  (∀ (c : Call) (p : Bytes) (s : State),
    Served cmdMotBConfig c s →
    p = c.payload →
    ∃ z, exec (.motBConfig c) s = .next z ∧
      Answered c 0x0811 St.ok [] z ∧
      z.motor.b.configured = true ∧
      (z.motor.b.polePairs, z.motor.b.source, z.motor.b.flags, z.motor.b.deadtime, z.motor.b.pwmKhz) = (byteAt p 0, byteAt p 1, byteAt p 2, byteAt p 3, rd p 4 2) ∧
      (z.motor.b.minRpm, z.motor.b.maxRpm, z.motor.b.lossRpm, z.motor.b.inLo, z.motor.b.inHi, z.motor.b.inStop) = (rd p 6 2, rd p 8 2, rd p 10 2, rd p 12 2, rd p 14 2, rd p 16 2) ∧
      (z.motor.b.isnsZero, z.motor.b.isnsGain, z.motor.b.ocMa, z.motor.b.accel, z.motor.b.alignMs) = (rd p 18 2, rd p 20 2, rd p 22 2, rd p 24 2, rd p 26 2) ∧
      z.motor.b.state ≠ .fault ∧
      z.motor.a = s.motor.a ∧
      SetsOnly [.motor] c s z) ∧
  (∀ (c : Call) (s : State),
    Served cmdMotBSetSpeed c s →
    (s.supply.mode = .run ∨ s.supply.mode = .safe) →
    s.supply.change = none →
    ∃ z, exec (.motBSetSpeed c) s = .next z ∧
      Answered c 0x0812 St.ok [] z ∧
      z.motor.b.command = rd c.payload 0 2 ∧
      z.motor.b.target = rd c.payload 0 2 ∧
      z.motor.b.state ≠ .fault ∧
      z.motor.a = s.motor.a ∧
      SetsOnly [.motor] c s z) ∧
  (∀ (c : Call) (s : State),
    Served cmdMotBStatus c s →
    ∃ z, exec (.motBStatus c) s = .next z ∧
      Answered c 0x0813 St.ok (leBytes 1 (bCode s.motor.b.state) ++ leBytes 1 s.motor.b.cause ++ leBytes 2 s.motor.b.speed ++ leBytes 2 s.motor.b.target ++ leBytes 2 s.motor.b.current ++ leBytes 2 s.motor.b.cmdValue ++ leBytes 1 (b2n s.motor.b.lost) ++ zeros 3) z ∧
      ReadsOnly c s z)

/-- NOP, JUMP, JUMP_IF_INBOUND, WAIT_TICK, WAIT_EVENT, SIGNAL, HALT and LOOP of the base microcode retire with the
address that each gives, or stall in their wait; only their own Spar changes. A line is taken at a boundary: it halts,
switches banks or runs its vector with its data; a stalled routine keeps it pending. A wait is released at its TICK,
by an event of its mask, or with TIMEOUT. Where a clause meets what the spec leaves open it states the model's
reading: log entry 166. From R319, R323, R326, R350, Table SPR.6. -/
def Obligations.SparInstructionsControlTheProgram : Prop :=
  (∀ (i : Fin 3) (o : Nat) (s : State),
    SparAt i 0x00 o s →
    ∃ z, exec (.nop i none) s = .next z ∧
      Retired i ((s.spar i).pc + 1) s z ∧
      (∀ j : Fin 3, j ≠ i → z.spar j = s.spar j) ∧
      KeepsBut [.spars, .free] s z) ∧
  (∀ (i : Fin 3) (o : Nat) (s : State),
    SparAt i 0x01 o s →
    ∃ z, exec (.jump i none) s = .next z ∧
      Retired i (o % 1024) s z ∧
      (∀ j : Fin 3, j ≠ i → z.spar j = s.spar j) ∧
      KeepsBut [.spars, .free] s z) ∧
  (∀ (i : Fin 3) (o : Nat) (s : State),
    SparAt i 0x02 o s →
    ∃ z, exec (.jumpIfInbound i none) s = .next z ∧
      Retired i (if (s.spar i).inQ.isEmpty then (s.spar i).pc + 1 else o % 1024) s z ∧
      (∀ j : Fin 3, j ≠ i → z.spar j = s.spar j) ∧
      KeepsBut [.spars, .free] s z) ∧
  (∀ (i : Fin 3) (o : Nat) (t : Bool) (s : State),
    SparAt i 0x03 o s →
    waitTickOf i o s = (none, t) →
    ∃ z, exec (.waitTick i none) s = .next z ∧
      Retired i ((s.spar i).pc + 1) s z ∧
      (z.spar i).timeout = t ∧
      (∀ j : Fin 3, j ≠ i → z.spar j = s.spar j) ∧
      KeepsBut [.spars, .free] s z) ∧
  (∀ (i : Fin 3) (o : Nat) (y : Wait) (s : State),
    SparAt i 0x03 o s →
    waitTickOf i o s = (some y, false) →
    ∃ z, exec (.waitTick i none) s = .next z ∧
      (z.spar i).stall = some { wait := y, atEnd := true, next := (s.spar i).pc + 1 } ∧
      (z.spar i).pc = (s.spar i).pc ∧
      (∀ j : Fin 3, j ≠ i → z.spar j = s.spar j) ∧
      KeepsBut [.spars, .free] s z) ∧
  (∀ (i : Fin 3) (o : Nat) (s : State),
    SparAt i 0x04 o s →
    fld o 8 16 * 1000 ≤ 10000000 →
    ∃ z, exec (.waitEvent i none) s = .next z ∧
      (z.spar i).stall = some { wait := .event (o % 256) ((s.tickNow + fld o 8 16 * 1000) % 2 ^ 32), atEnd := true, next := (s.spar i).pc + 1 } ∧
      (z.spar i).pc = (s.spar i).pc ∧
      (∀ j : Fin 3, j ≠ i → z.spar j = s.spar j) ∧
      KeepsBut [.spars, .free] s z) ∧
  (∀ (i : Fin 3) (o : Nat) (s : State),
    SparAt i 0x04 o s →
    10000000 < fld o 8 16 * 1000 →
    ∃ z, exec (.waitEvent i none) s = .next z ∧
      Retired i ((s.spar i).pc + 1) s z ∧
      (z.spar i).timeout = true ∧
      (∀ j : Fin 3, j ≠ i → z.spar j = s.spar j) ∧
      KeepsBut [.spars, .free] s z) ∧
  (∀ (i : Fin 3) (o : Nat) (s : State),
    SparAt i 0x05 o s →
    ∃ z, exec (.signal i none) s = .next z ∧
      Retired i ((s.spar i).pc + 1) s z ∧
      (z.spar i).events = o % 256 :: (s.spar i).events ∧
      (∀ j : Fin 3, j ≠ i → z.spar j = s.spar j) ∧
      KeepsBut [.spars, .free] s z) ∧
  (∀ (i : Fin 3) (o : Nat) (s : State),
    SparAt i 0x06 o s →
    ∃ z, exec (.halt i none) s = .next z ∧
      (z.spar i).state = .idle ∧
      (z.spar i).instructions = ((s.spar i).instructions + 1) % 2 ^ 32 ∧
      (∀ j : Fin 3, j ≠ i → z.spar j = s.spar j) ∧
      KeepsBut [.spars, .free] s z) ∧
  (∀ (i : Fin 3) (o : Nat) (s : State),
    SparAt i 0x07 o s →
    ((s.spar i).loopLeft).getD (fld o 10 14) ≠ 0 →
    ∃ z, exec (.loop i none) s = .next z ∧
      Retired i (o % 1024) s z ∧
      (z.spar i).loopLeft = some (((s.spar i).loopLeft).getD (fld o 10 14) - 1) ∧
      (∀ j : Fin 3, j ≠ i → z.spar j = s.spar j) ∧
      KeepsBut [.spars, .free] s z) ∧
  (∀ (i : Fin 3) (o : Nat) (s : State),
    SparAt i 0x07 o s →
    ((s.spar i).loopLeft).getD (fld o 10 14) = 0 →
    ∃ z, exec (.loop i none) s = .next z ∧
      Retired i ((s.spar i).pc + 1) s z ∧
      (z.spar i).loopLeft = none ∧
      (∀ j : Fin 3, j ≠ i → z.spar j = s.spar j) ∧
      KeepsBut [.spars, .free] s z) ∧
  (∀ (i : Fin 3) (s : State),
    s.powered = true →
    sparGoes s i = true →
    (s.spar i).fault = none →
    (s.spar i).lines = [] →
    (s.spar i).pc < 1024 →
    ∃ z, exec (.haltRequest i) s = .next z ∧
      (z.spar i).state = .idle ∧
      (z.spar i).lines = [] ∧
      (z.spar i).pc = (s.spar i).pc ∧
      (∀ j : Fin 3, j ≠ i → z.spar j = s.spar j) ∧
      KeepsBut [.spars] s z) ∧
  (∀ (i : Fin 3) (b : Fin 2) (p q : List (BitVec 32)) (n : Nat) (s : State),
    s.powered = true →
    s.campel = true →
    sparPowered s i = true →
    (s.spar i).state = .idle →
    b.val ≠ (s.spar i).bank →
    ∃ z, exec (.bankSwitch i b p q n) s = .next z ∧
      (z.spar i).state = .running ∧
      (z.spar i).bank = b ∧
      (z.spar i).pc = 0 ∧
      (∀ k : Fin 1024, (z.spar i).instr k = (p.getD k 0).toNat) ∧
      (z.spar i).inQ = (s.spar i).inQ ++ (q.take (64 - (s.spar i).inQ.length)).map (·.toNat) ∧
      (z.spar i).outQ = (s.spar i).outQ.drop n ∧
      (∀ j : Fin 3, j ≠ i → z.spar j = s.spar j) ∧
      KeepsBut [.spars] s z) ∧
  (∀ (i : Fin 3) (b : Fin 2) (p q : List (BitVec 32)) (n : Nat) (s : State),
    s.powered = true →
    sparGoes s i = true →
    (s.spar i).fault = none →
    (s.spar i).lines = [] →
    (s.spar i).pc < 1024 →
    s.campel = true →
    ∃ z, exec (.bankSwitch i b p q n) s = .next z ∧
      (z.spar i).state = .running ∧
      (z.spar i).bank = b ∧
      (z.spar i).pc = 0 ∧
      (z.spar i).lines = [] ∧
      (z.spar i).loopLeft = none ∧
      (∀ j : Fin 3, j ≠ i → z.spar j = s.spar j) ∧
      KeepsBut [.spars] s z) ∧
  (∀ (i : Fin 3) (l : Fin 6) (d : BitVec 24) (s : State),
    s.powered = true →
    sparGoes s i = true →
    (s.spar i).fault = none →
    (s.spar i).lines = [] →
    (s.spar i).pc < 1024 →
    (s.spar i).badDispatch.contains (0xF8 + l.val) = false →
    (s.spar i).plain (0xF8 + l.val) = true →
    ∃ z, exec (.interruptVector i l d) s = .next z ∧
      (z.spar i).opr = d ∧
      (z.spar i).lines = [] ∧
      (z.spar i).pc = (s.spar i).pc ∧
      (z.spar i).state = .running ∧
      (∀ j : Fin 3, j ≠ i → z.spar j = s.spar j) ∧
      KeepsBut [.spars, .free] s z) ∧
  (∀ (i : Fin 3) (l : Fin 6) (d : BitVec 24) (s : State),
    s.powered = true →
    (s.spar i).state = .running →
    sparPowered s i = true →
    (s.spar i).stall.isSome = true →
    ∃ z, exec (.interruptVector i l d) s = .next z ∧
      z.spar i = { s.spar i with lines := mset (s.spar i).lines l d.toNat } ∧
      (∀ j : Fin 3, j ≠ i → z.spar j = s.spar j) ∧
      KeepsBut [.spars] s z) ∧
  (∀ (i : Fin 3) (tk : BitVec 32) (y : Stall) (t : Nat) (s : State),
    s.powered = true →
    sparPowered s i = true →
    (s.spar i).stall = some y →
    y.atEnd = true →
    (s.spar i).fault = none →
    (s.spar i).lines = [] →
    y.next < 1024 →
    y.wait = .tick t →
    0 ≤ tickDiff tk.toNat t →
    ∃ z, exec (.twaitRelease i tk) s = .next z ∧
      (z.spar i).stall = none ∧
      (z.spar i).timeout = false ∧
      (z.spar i).pc = y.next ∧
      (z.spar i).instructions = ((s.spar i).instructions + 1) % 2 ^ 32 ∧
      (∀ j : Fin 3, j ≠ i → z.spar j = s.spar j) ∧
      KeepsBut [.spars] s z) ∧
  (∀ (i : Fin 3) (e : BitVec 8) (tk : BitVec 32) (y : Stall) (m t : Nat) (s : State),
    s.powered = true →
    sparPowered s i = true →
    (s.spar i).stall = some y →
    y.atEnd = true →
    (s.spar i).fault = none →
    (s.spar i).lines = [] →
    y.next < 1024 →
    y.wait = .event m t →
    e.toNat &&& m ≠ 0 →
    ∃ z, exec (.ewaitRelease i e tk) s = .next z ∧
      (z.spar i).stall = none ∧
      (z.spar i).timeout = false ∧
      (z.spar i).pc = y.next ∧
      (z.spar i).instructions = ((s.spar i).instructions + 1) % 2 ^ 32 ∧
      (∀ j : Fin 3, j ≠ i → z.spar j = s.spar j) ∧
      KeepsBut [.spars] s z) ∧
  (∀ (i : Fin 3) (e : BitVec 8) (tk : BitVec 32) (y : Stall) (m t : Nat) (s : State),
    s.powered = true →
    sparPowered s i = true →
    (s.spar i).stall = some y →
    y.atEnd = true →
    (s.spar i).fault = none →
    (s.spar i).lines = [] →
    y.next < 1024 →
    y.wait = .event m t →
    e.toNat &&& m = 0 →
    0 ≤ tickDiff tk.toNat t →
    ∃ z, exec (.ewaitRelease i e tk) s = .next z ∧
      (z.spar i).stall = none ∧
      (z.spar i).timeout = true ∧
      (z.spar i).pc = y.next ∧
      (z.spar i).instructions = ((s.spar i).instructions + 1) % 2 ^ 32 ∧
      (∀ j : Fin 3, j ≠ i → z.spar j = s.spar j) ∧
      KeepsBut [.spars] s z)

/-- WEDGE_SYNC and SETTLE_CHECK go on when the wedge is there, or settled. HEAD_SELECT and SEEK_START select a head
and a cylinder. WRITE_SECTOR, READ_SECTOR and VERIFY_SECTOR arm the openings and closings of their gates at the slot's
instants, VERIFY_DELAY later for the verify gate. EDGE_PLAN arms the next edge of an output and its trailing edge,
LTC_FRAME assembles 80 bits with their sync word and even ones, and the PTP instructions arm the port's launch. An
armed action is performed when its instant has come. Where a clause meets what the spec leaves open it states the
model's reading: log entries 68, 69, 166. From R91, R96, R437, R555, R572, R575, R577, R583, R584, R320, Table SPR.4,
Table SPR.6. -/
def Obligations.FormatterAndCadenceInstructionsArm : Prop :=
  (∀ (o : Nat) (s : State),
    SparAt 0 0x20 o s →
    s.channel.wedge = o % 512 →
    s.channel.wedgeMissed = false →
    ∃ z, exec (.wedgeSync none) s = .next z ∧
      Retired 0 ((s.spar 0).pc + 1) s z ∧
      (∀ j : Fin 3, j.val ≠ 0 → z.spar j = s.spar j) ∧
      KeepsBut [.spars, .free] s z) ∧
  (∀ (o : Nat) (s : State),
    SparAt 0 0x21 o s →
    ∃ z, exec (.headSelect none) s = .next z ∧
      Retired 0 ((s.spar 0).pc + 1) s z ∧
      z.channel.head = o % 16 ∧
      z.channel.onRead = 0 ∧
      z.channel.writeOk = false ∧
      z.channel.state = (if s.channel.state = .tracking then .seeking else s.channel.state) ∧
      (∀ f ∈ s.channel.format, s.channel.wg = false → .preamp (f.paHeadReg % 128 * 256 + o % 16 * 2 ^ f.paHeadShift % 256) ∈ z.out) ∧
      (∀ j : Fin 3, j.val ≠ 0 → z.spar j = s.spar j) ∧
      KeepsBut [.spars, .free, .channel, .out] s z) ∧
  (∀ (o : Nat) (s : State),
    SparAt 0 0x22 o s →
    headsLoaded s = true →
    ∃ z, exec (.seekStart none) s = .next z ∧
      Retired 0 ((s.spar 0).pc + 1) s z ∧
      z.channel.target = o ∧
      z.channel.seekTries = 0 ∧
      z.channel.writeOk = false ∧
      z.out = .vcm 0 o :: s.out ∧
      (∀ j : Fin 3, j.val ≠ 0 → z.spar j = s.spar j) ∧
      KeepsBut [.spars, .free, .channel, .out] s z) ∧
  (∀ (o : Nat) (s : State),
    SparAt 0 0x23 o s →
    o % 256 ≤ s.channel.onRead →
    ∃ z, exec (.settleCheck none) s = .next z ∧
      Retired 0 ((s.spar 0).pc + 1) s z ∧
      (∀ j : Fin 3, j.val ≠ 0 → z.spar j = s.spar j) ∧
      KeepsBut [.spars, .free] s z) ∧
  (∀ (o : Nat) (r f : BitVec 32) (s : State),
    SparAt 0 0x24 o s →
    (s.spar 0).actions.length ≤ 12 →
    (s.timebase.now.frac : Int) ≤ tickDiff (r.toNat) s.tickNow * 65536 →
    (s.timebase.now.frac : Int) ≤ tickDiff (f.toNat) s.tickNow * 65536 →
    (s.timebase.now.frac : Int) ≤ tickDiff (r.toNat + verifyDelayAt s) s.tickNow * 65536 →
    (s.timebase.now.frac : Int) ≤ tickDiff (f.toNat + verifyDelayAt s) s.tickNow * 65536 →
    ∃ z, exec (.writeSector none r f) s = .next z ∧
      Retired 0 ((s.spar 0).pc + 1) s z ∧
      (z.spar 0).actions = (s.spar 0).actions ++ [{ unit := 2, action := 1, tick := (r.toNat) % 2 ^ 32, arg := fld o 10 6 }, { unit := 2, action := 2, tick := (f.toNat) % 2 ^ 32, arg := fld o 10 6 }, { unit := 4, action := 1, tick := (r.toNat + verifyDelayAt s) % 2 ^ 32, arg := fld o 10 6 }, { unit := 4, action := 2, tick := (f.toNat + verifyDelayAt s) % 2 ^ 32, arg := fld o 10 6 }] ∧
      (∀ j : Fin 3, j.val ≠ 0 → z.spar j = s.spar j) ∧
      KeepsBut [.spars, .free] s z) ∧
  (∀ (o : Nat) (r f : BitVec 32) (s : State),
    SparAt 0 0x25 o s →
    (s.spar 0).actions.length ≤ 14 →
    (s.timebase.now.frac : Int) ≤ tickDiff (r.toNat) s.tickNow * 65536 →
    (s.timebase.now.frac : Int) ≤ tickDiff (f.toNat) s.tickNow * 65536 →
    ∃ z, exec (.readSector none r f) s = .next z ∧
      Retired 0 ((s.spar 0).pc + 1) s z ∧
      (z.spar 0).actions = (s.spar 0).actions ++ [{ unit := 1, action := 1, tick := (r.toNat) % 2 ^ 32, arg := fld o 10 6 }, { unit := 1, action := 2, tick := (f.toNat) % 2 ^ 32, arg := fld o 10 6 }] ∧
      (∀ j : Fin 3, j.val ≠ 0 → z.spar j = s.spar j) ∧
      KeepsBut [.spars, .free] s z) ∧
  (∀ (o : Nat) (r f : BitVec 32) (s : State),
    SparAt 0 0x26 o s →
    (s.spar 0).actions.length ≤ 14 →
    (s.timebase.now.frac : Int) ≤ tickDiff (r.toNat) s.tickNow * 65536 →
    (s.timebase.now.frac : Int) ≤ tickDiff (f.toNat) s.tickNow * 65536 →
    ∃ z, exec (.verifySector none r f) s = .next z ∧
      Retired 0 ((s.spar 0).pc + 1) s z ∧
      (z.spar 0).actions = (s.spar 0).actions ++ [{ unit := 4, action := 1, tick := (r.toNat) % 2 ^ 32, arg := fld o 10 6 }, { unit := 4, action := 2, tick := (f.toNat) % 2 ^ 32, arg := fld o 10 6 }] ∧
      (∀ j : Fin 3, j.val ≠ 0 → z.spar j = s.spar j) ∧
      KeepsBut [.spars, .free] s z) ∧
  (∀ (o : Nat) (s : State),
    SparAt 0 0x27 o s →
    ∃ z, exec (.skipDefect none) s = .next z ∧
      Retired 0 ((s.spar 0).pc + 1) s z ∧
      (z.spar 0).actions = (s.spar 0).actions ∧
      (∀ j : Fin 3, j.val ≠ 0 → z.spar j = s.spar j) ∧
      KeepsBut [.spars, .free] s z) ∧
  (∀ (o : Nat) (d : CadDesc) (j u v : Int) (s : State),
    SparAt 1 0x40 o s →
    d = (vat s.timebase.cadence (o % 8)).desc →
    cadenceLive s (o % 8) = true →
    d.kind ≠ 4 →
    (s.spar 1).actions = [] →
    frameIndex d (now125 s) ≤ j →
    j < frameIndex d (now125 s) + 4 →
    now125 s < edgeAt d (2 * j) ∧ ((vat s.timebase.cadence (o % 8)).lastEdge : Int) + edgeAt { d with phase := 0 } 1 ≤ edgeAt d (2 * j) →
    (∀ n : Fin 4, frameIndex d (now125 s) + n.val < j → ¬ (now125 s < edgeAt d (2 * (frameIndex d (now125 s) + n.val)) ∧ ((vat s.timebase.cadence (o % 8)).lastEdge : Int) + edgeAt { d with phase := 0 } 1 ≤ edgeAt d (2 * (frameIndex d (now125 s) + n.val)))) →
    u = edgeAt d (2 * j) →
    v = (if d.width = 0 ∨ d.kind = 2 then edgeAt d (2 * j + 1) else u + d.width) →
    (s.timebase.now.frac : Int) ≤ tickDiff (u / 8 % 2 ^ 32).toNat s.tickNow * 65536 + ((u % 8).toNat * 8192 : Nat) →
    (s.timebase.now.frac : Int) ≤ tickDiff (v / 8 % 2 ^ 32).toNat s.tickNow * 65536 + ((v % 8).toNat * 8192 : Nat) →
    ∃ z, exec (.edgePlan none) s = .next z ∧
      Retired 1 ((s.spar 1).pc + 1) s z ∧
      (z.spar 1).actions = [{ unit := 8 + o % 8, action := if d.flags.testBit 0 then 2 else 1, tick := (u / 8 % 2 ^ 32).toNat, frac := (u % 8).toNat * 8192 }, { unit := 8 + o % 8, action := if d.flags.testBit 0 then 1 else 2, tick := (v / 8 % 2 ^ 32).toNat, frac := (v % 8).toNat * 8192 }] ∧
      (vat z.timebase.cadence (o % 8)).nextEdge = (j + 1).toNat ∧
      (∀ j : Fin 3, j.val ≠ 1 → z.spar j = s.spar j) ∧
      KeepsBut [.spars, .free, .timebase] s z) ∧
  (∀ (o : Nat) (s : State),
    SparAt 1 0x41 o s →
    (vat s.timebase.cadence (o % 8)).desc.kind = 4 →
    ∃ z, exec (.ltcFrame none) s = .next z ∧
      Retired 1 ((s.spar 1).pc + 1) s z ∧
      (vat z.timebase.cadence (o % 8)).ltc.length = 80 ∧
      (vat z.timebase.cadence (o % 8)).ltc.drop 64 = bitsLsb 16 0xBFFC ∧
      ((vat z.timebase.cadence (o % 8)).ltc.filter id).length % 2 = 0 ∧
      (vat z.timebase.cadence (o % 8)).desc = (vat s.timebase.cadence (o % 8)).desc ∧
      (∀ j : Fin 8, j.val ≠ o % 8 → vat z.timebase.cadence j = vat s.timebase.cadence j) ∧
      (∀ j : Fin 3, j.val ≠ 1 → z.spar j = s.spar j) ∧
      KeepsBut [.spars, .free, .timebase] s z) ∧
  (∀ (o : Nat) (s : State),
    SparAt 1 0x42 o s →
    o % 8 < 6 →
    (s.spar 1).actions.length ≤ 15 →
    groupServed s 0 (fld o 3 13) = true →
    (s.timebase.now.frac : Int) ≤ tickDiff (nextLaunch s true (fld o 3 13)) s.tickNow * 65536 →
    ∃ z, exec (.ptpSyncLaunch none) s = .next z ∧
      Retired 1 ((s.spar 1).pc + 1) s z ∧
      (z.spar 1).actions = (s.spar 1).actions ++ [{ unit := 0x10 + o % 8, action := 4, tick := nextLaunch s true (fld o 3 13) % 2 ^ 32, frac := 0, arg := fld o 3 13 + 0 * 8192 }] ∧
      (∀ j : Fin 3, j.val ≠ 1 → z.spar j = s.spar j) ∧
      KeepsBut [.spars, .free] s z) ∧
  (∀ (o : Nat) (s : State),
    SparAt 1 0x43 o s →
    o % 8 < 6 →
    (s.spar 1).actions.length ≤ 15 →
    ∃ z, exec (.ptpFollowUp none) s = .next z ∧
      Retired 1 ((s.spar 1).pc + 1) s z ∧
      (z.spar 1).actions = (s.spar 1).actions ++ [{ unit := 0x10 + o % 8, action := 4, tick := s.tickNow % 2 ^ 32, frac := s.timebase.now.frac, arg := fld o 3 13 + 1 * 8192 }] ∧
      (∀ j : Fin 3, j.val ≠ 1 → z.spar j = s.spar j) ∧
      KeepsBut [.spars, .free] s z) ∧
  (∀ (o : Nat) (s : State),
    SparAt 1 0x44 o s →
    o % 8 < 6 →
    (s.spar 1).actions.length ≤ 15 →
    groupServed s 0x0B (fld o 3 13) = true →
    (s.timebase.now.frac : Int) ≤ tickDiff (nextLaunch s false (fld o 3 13)) s.tickNow * 65536 →
    ∃ z, exec (.ptpAnnounce none) s = .next z ∧
      Retired 1 ((s.spar 1).pc + 1) s z ∧
      (z.spar 1).actions = (s.spar 1).actions ++ [{ unit := 0x10 + o % 8, action := 4, tick := nextLaunch s false (fld o 3 13) % 2 ^ 32, frac := 0, arg := fld o 3 13 + 2 * 8192 }] ∧
      (∀ j : Fin 3, j.val ≠ 1 → z.spar j = s.spar j) ∧
      KeepsBut [.spars, .free] s z) ∧
  (∀ (k : Fin 16) (tk : BitVec 32) (a : Action) (s : State),
    s.powered = true →
    (s.spar 0).actions[k.val]? = some a →
    sparPowered s 0 = true →
    0 ≤ tickDiff tk.toNat a.tick →
    a.unit = 2 →
    a.action = 1 →
    s.channel.writeOk = true →
    s.channel.wgBlocked = false →
    s.channel.flt = false →
    s.supply.mode = .run →
    headsLoaded s = true →
    ∃ z, exec (.schedAction 0 k tk none) s = .next z ∧
      (z.spar 0).actions = (s.spar 0).actions.eraseIdx k.val ∧
      .action 0 a.unit a.action a.tick ∈ z.out ∧
      z.channel = { s.channel with wg := true } ∧
      (∀ j : Fin 3, j.val ≠ 0 → z.spar j = s.spar j) ∧
      KeepsBut [.spars, .out, .channel] s z) ∧
  (∀ (k : Fin 16) (tk : BitVec 32) (a : Action) (s : State),
    s.powered = true →
    (s.spar 0).actions[k.val]? = some a →
    sparPowered s 0 = true →
    0 ≤ tickDiff tk.toNat a.tick →
    a.unit = 2 →
    a.action = 1 →
    s.channel.writeOk = false →
    ∃ z, exec (.schedAction 0 k tk none) s = .next z ∧
      (z.spar 0).actions = (s.spar 0).actions.eraseIdx k.val ∧
      .action 0 a.unit a.action a.tick ∈ z.out ∧
      z.channel = s.channel ∧
      (∀ j : Fin 3, j.val ≠ 0 → z.spar j = s.spar j) ∧
      KeepsBut [.spars, .out, .channel] s z) ∧
  (∀ (k : Fin 16) (tk : BitVec 32) (a : Action) (s : State),
    s.powered = true →
    (s.spar 1).actions[k.val]? = some a →
    sparPowered s 1 = true →
    0 ≤ tickDiff tk.toNat a.tick →
    8 ≤ a.unit →
    a.unit < 16 →
    cadenceLive s (a.unit - 8) = true →
    (a.action = 1 ∨ a.action = 2) →
    ∃ z, exec (.schedAction 1 k tk none) s = .next z ∧
      (z.spar 1).actions = (s.spar 1).actions.eraseIdx k.val ∧
      .action 1 a.unit a.action a.tick ∈ z.out ∧
      (vat z.timebase.cadence (a.unit - 8)).level = decide (a.action = 1) ∧
      .cadenceEdge (a.unit - 8) (s.timebase.now.inNs * 8 + a.frac / 8192) (decide (a.action = 1)) ∈ z.out ∧
      (∀ j : Fin 3, j.val ≠ 1 → z.spar j = s.spar j) ∧
      KeepsBut [.spars, .out, .timebase] s z) ∧
  (∀ (k : Fin 16) (tk : BitVec 32) (a : Action) (s : State),
    s.powered = true →
    (s.spar 2).actions[k.val]? = some a →
    sparPowered s 2 = true →
    0 ≤ tickDiff tk.toNat a.tick →
    0x20 ≤ a.unit →
    a.unit < 0x24 →
    radioRuns s = true →
    (s.bandOf (a.unit - 0x20)).flags.testBit 0 = true →
    (s.bandOf (a.unit - 0x20)).state ≠ .off →
    (s.bandOf (a.unit - 0x20)).state ≠ .fault →
    (a.action = 1 ∨ a.action = 2) →
    ∃ z, exec (.schedAction 2 k tk none) s = .next z ∧
      (z.spar 2).actions = (s.spar 2).actions.eraseIdx k.val ∧
      .action 2 a.unit a.action a.tick ∈ z.out ∧
      (z.bandOf (a.unit - 0x20)).gate = (decide (a.action = 1) && !s.radio.guardMute && !wholeCause s.radio) ∧
      (∀ j : Fin 3, j.val ≠ 2 → z.spar j = s.spar j) ∧
      KeepsBut [.spars, .out, .radio] s z)

/-- BAND_STATE stops a band or makes a STANDBY band ACTIVE, SYNTH_HOP tunes a tuned band, TDD_STEP arms the turnaround
and the switch, POWER_STEP applies the entry under the ceiling, DITHER_CHIP takes the path's chip, DET_SAMPLE the
codes of its mask, RFSPI_XFER sends a scratch word. SPAR_GET_VERSION and SPAR_GET_STATUS answer their tables' bytes;
SPAR_RELOAD of a halted Spar zeroes its version; SPAR_PATCH_CHECK pins its yealms. Where a clause meets what the spec
leaves open it states the model's reading: log entries 70, 144, 149, 166. From R332, R334, R343, R345, R346, R681,
R683, R698, R706, R710, R734, Table SPR.13. -/
def Obligations.RadioInstructionsAndSparRequestsAct : Prop :=
  (∀ (o : Nat) (s : State),
    SparAt 2 0x60 o s →
    radioRuns s = true →
    fld o 4 4 = 0 →
    ∃ z, exec (.bandState none) s = .next z ∧
      Retired 2 ((s.spar 2).pc + 1) s z ∧
      (z.bandOf (o % 4)).state = .off ∧
      (z.bandOf (o % 4)).gate = false ∧
      (z.pathOf (2 * (o % 4))).muted = true ∧
      (z.pathOf (2 * (o % 4) + 1)).muted = true ∧
      (∀ b : Fin 4, b.val ≠ o % 4 → (z.bandOf b).state = (s.bandOf b).state) ∧
      (∀ j : Fin 3, j.val ≠ 2 → z.spar j = s.spar j)) ∧
  (∀ (o : Nat) (s : State),
    SparAt 2 0x60 o s →
    radioRuns s = true →
    fld o 4 4 = 3 →
    (s.bandOf (o % 4)).state = .standby →
    ∃ z, exec (.bandState none) s = .next z ∧
      Retired 2 ((s.spar 2).pc + 1) s z ∧
      (z.bandOf (o % 4)).state = .active ∧
      (∀ b : Fin 4, b.val ≠ o % 4 → (z.bandOf b).state = (s.bandOf b).state) ∧
      (∀ j : Fin 3, j.val ≠ 2 → z.spar j = s.spar j)) ∧
  (∀ (o : Nat) (s : State),
    SparAt 2 0x61 o s →
    radioRuns s = true →
    ((s.bandOf (o % 4)).state = .standby ∨ (s.bandOf (o % 4)).state = .active) →
    ∃ z, exec (.synthHop none) s = .next z ∧
      Retired 2 ((s.spar 2).pc + 1) s z ∧
      (z.bandOf (o % 4)).state = .tuning ∧
      (z.bandOf (o % 4)).entry = fld o 2 6 ∧
      (z.bandOf (o % 4)).tuneMute = true ∧
      (z.bandOf (o % 4)).activate = decide ((s.bandOf (o % 4)).state = .active) ∧
      (∀ b : Fin 4, b.val ≠ o % 4 → z.bandOf b = s.bandOf b) ∧
      (∀ j : Fin 3, j.val ≠ 2 → z.spar j = s.spar j)) ∧
  (∀ (t : Int) (d : Nat) (o : Nat) (s : State),
    SparAt 2 0x62 o s →
    radioRuns s = true →
    (s.bandOf (o % 4)).flags.testBit 0 = true →
    (s.bandOf (o % 4)).state ≠ .off →
    (s.bandOf (o % 4)).state ≠ .fault →
    (s.bandOf (o % 4)).causes.testBit 3 = false →
    wholeCause s.radio = false →
    s.radio.guardMute = false →
    nextTrans s (o % 4) = some (t, d) →
    d ≠ 3 →
    (s.spar 2).actions.length ≤ 13 →
    (s.timebase.now.frac : Int) ≤ tickDiff ((t) % 2 ^ 32).toNat s.tickNow * 65536 →
    (s.timebase.now.frac : Int) ≤ tickDiff ((t - 2000) % 2 ^ 32).toNat s.tickNow * 65536 →
    (s.timebase.now.frac : Int) ≤ tickDiff ((t + 2000) % 2 ^ 32).toNat s.tickNow * 65536 →
    ∃ z, exec (.tddStep none) s = .next z ∧
      Retired 2 ((s.spar 2).pc + 1) s z ∧
      (z.spar 2).actions = (s.spar 2).actions ++ [{ unit := 0x24 + o % 4, action := 2, tick := ((t - 2000) % 2 ^ 32).toNat, arg := d }, { unit := 0x20 + o % 4, action := if d = 1 then 1 else 2, tick := ((t) % 2 ^ 32).toNat, arg := d }, { unit := 0x24 + o % 4, action := 1, tick := ((t + 2000) % 2 ^ 32).toNat, arg := d }] ∧
      (∀ j : Fin 3, j.val ≠ 2 → z.spar j = s.spar j) ∧
      KeepsBut [.spars, .free] s z) ∧
  (∀ (o : Nat) (s : State),
    SparAt 2 0x63 o s →
    radioRuns s = true →
    ∃ z, exec (.powerStep none) s = .next z ∧
      Retired 2 ((s.spar 2).pc + 1) s z ∧
      (z.pathOf (o % 8)).applied = min (fld o 3 6) (pathCeiling s (o % 8)) ∧
      (z.pathOf (o % 8)).muted = (s.pathOf (o % 8)).muted ∧
      (∀ p : Fin 8, p.val ≠ o % 8 → z.pathOf p = s.pathOf p) ∧
      (∀ j : Fin 3, j.val ≠ 2 → z.spar j = s.spar j) ∧
      KeepsBut [.spars, .free, .radio, .out] s z) ∧
  (∀ (o : Nat) (s : State),
    SparAt 2 0x64 o s →
    radioRuns s = true →
    (s.pathOf (o % 8)).muted = false →
    ∃ z, exec (.ditherChip none) s = .next z ∧
      Retired 2 ((s.spar 2).pc + 1) s z ∧
      (z.pathOf (o % 8)).dithering = some (chip ((s.timebase.now.inNs / 1000000 + 128 * (o % 8)) % 1023)) ∧
      (z.pathOf (o % 8)).applied = (s.pathOf (o % 8)).applied ∧
      (∀ p : Fin 8, p.val ≠ o % 8 → z.pathOf p = s.pathOf p) ∧
      (∀ j : Fin 3, j.val ≠ 2 → z.spar j = s.spar j) ∧
      KeepsBut [.spars, .free, .radio, .out] s z) ∧
  (∀ (codes : Vector (BitVec 12) 8) (o : Nat) (s : State),
    SparAt 2 0x65 o s →
    radioRuns s = true →
    ∃ z, exec (.detSample none codes) s = .next z ∧
      Retired 2 ((s.spar 2).pc + 1) s z ∧
      (∀ k : Fin 8, vat z.radio.det k = (if o.testBit k.val then { vat s.radio.det k with code := (codes[k]).toNat, tick := s.tickNow, last := detLevel (vat s.radio.det k) (codes[k]).toNat } else vat s.radio.det k)) ∧
      z.radio = { s.radio with det := z.radio.det } ∧
      (∀ j : Fin 3, j.val ≠ 2 → z.spar j = s.spar j) ∧
      KeepsBut [.spars, .free, .radio] s z) ∧
  (∀ (o : Nat) (s : State),
    SparAt 2 0x66 o s →
    radioRuns s = true →
    o % 16 < 4 →
    s.radio.rfNow = none →
    s.radio.frames = [] →
    ∃ z, exec (.rfspiXfer none) s = .next z ∧
      Retired 2 ((s.spar 2).pc + 1) s z ∧
      z.out = .rf (o % 16) (mgetD (s.spar 2).scratch (fld o 4 8) 0 % 2 ^ (vat s.radio.device (o % 16)).wordBits) :: s.out ∧
      z.radio.rfNow.map (fun f => (f.prio, f.cs)) = some (6, o % 16) ∧
      z.radio.frames = [] ∧
      (∀ j : Fin 3, j.val ≠ 2 → z.spar j = s.spar j) ∧
      KeepsBut [.spars, .free, .radio, .out] s z) ∧
  (∀ (c : Call) (s : State),
    Served cmdSparGetVersion c s →
    ∃ z, exec (.sparGetVersion c) s = .next z ∧
      Answered c 0x0C20 St.ok ((List.range 3).flatMap fun i => leBytes 2 (s.spar i).base ++ leBytes 2 (s.spar i).level ++ leBytes 1 (s.spar i).state.code ++ zeros 3 ++ fit 48 (s.spar i).digest) z ∧
      ReadsOnly c s z) ∧
  (∀ (c : Call) (x : Spar) (s : State),
    Served cmdSparGetStatus c s →
    sparAbsent s (byteAt c.payload 0) = false →
    x = s.spar (byteAt c.payload 0) →
    ∃ z, exec (.sparGetStatus c) s = .next z ∧
      Answered c 0x0C21 St.ok (leBytes 1 x.state.code ++ leBytes 1 x.bank ++ leBytes 1 x.mcCount ++ leBytes 1 x.lastCause ++ leBytes 2 x.lastUaddr ++ leBytes 2 x.lastPc ++ leBytes 1 (b2n x.lastPartial) ++ zeros 3 ++ leBytes 4 x.late ++ leBytes 4 x.instructions) z ∧
      ReadsOnly c s z) ∧
  (∀ (c : Call) (i : Nat) (s : State),
    Served cmdSparReload c s →
    MayAccept c s →
    i = byteAt c.payload 0 →
    sparAbsent s i = false →
    (s.spar i).state = .haltedMc →
    (s.spar i).reloading = false →
    ∃ z, exec (.sparReload c) s = .next z ∧
      AcceptedAs c 0x0C22 (fun j => j.key == i && !j.waits) z ∧
      z.spar i = { s.spar i with reloading := true, base := 0, level := 0, digest := [] } ∧
      (∀ j : Fin 3, j.val ≠ i → z.spar j = s.spar j) ∧
      StartsOnly [.spars] c s z) ∧
  (∀ (c : Call) (i : Nat) (s : State),
    Served cmdSparReload c s →
    i = byteAt c.payload 0 →
    sparAbsent s i = false →
    (s.spar i).state = .failed →
    ∃ z, exec (.sparReload c) s = .next z ∧
      Answered c 0x0C22 St.notReady [] z ∧
      SetsOnly [] c s z) ∧
  (∀ (c : Call) (s : State),
    Served cmdSparPatchCheck c s →
    MayAccept c s →
    (∀ i : Fin 3, (s.spar i).reloading = false) →
    ∃ z, exec (.sparPatchCheck c) s = .next z ∧
      AcceptedAs c 0x0C23 (fun j => !j.waits && j.pins == ((patchHandles c.payload).map hIndex).eraseDups) z ∧
      z.loft.mem = s.loft.mem ∧
      z.spars = s.spars ∧
      StartsOnly [.loft] c s z)

/-- A frame with a wrong FCS is counted and dropped; a good one is counted in frames and bytes. One that its flow
delivers stands in a yealm of the NET owner with its RXFRAME descriptor in the flow's ring; one that its flow drops is
only counted. XOFF is repeated and XON sent with their PAUSE frames. A held frame is delivered when its destination
has room, and dropped and counted after 1 ms. A PAUSE to the multicast address pauses for its quanta and ends after
them. Where a clause meets what the spec leaves open it states the model's reading: log entries 28, 137. From R361,
R363, R366, R367, R380, R383, R395, R401, Table ETH.4, Table LFT.10. -/
def Obligations.FramesAreCheckedAndDelivered : Prop :=
  (∀ (p : Fin 6) (data : Bytes) (sec ns frac : Nat) (s : State),
    PortUp p s →
    rxBytes (s.port p) + data.length + 4 ≤ 65536 →
    ∃ z, exec (.frameReceived p data false false sec ns frac) s = .next z ∧
      PortCounted p 2 1 s z ∧
      (z.port p).rxq = (s.port p).rxq ∧
      (∀ q : Fin 6, q ≠ p → z.port q = s.port q) ∧
      KeepsBut [.net, .views, .out] s z) ∧
  (∀ (p : Fin 6) (data : Bytes) (sec ns frac i : Nat) (fl : Flow) (s : State),
    PortUp p s →
    rxBytes (s.port p) + data.length + 4 ≤ 65536 →
    60 ≤ data.length →
    data.length + 4 ≤ (s.port p).maxFrame →
    macAccepts s p data = true →
    rdBe data 12 2 ≠ 0x8808 →
    (s.port p).held = none →
    classify s p data = (i, fl) →
    data.length ≤ 4096 →
    sec < 2 ^ 48 →
    ns < 1000000000 →
    frac < 65536 →
    fl.action = 1 →
    (s.ring fl.ring).opened = true →
    (s.ring fl.ring).type = .rxframe →
    (s.ring fl.ring).owner = s.owner 1 →
    (s.ring fl.ring).room ≠ 0 →
    (s.ring fl.ring).log2 ≤ 12 →
    (s.ten (s.owner 1)).held < (s.ten (s.owner 1)).ingress →
    (s.ten (s.owner 1)).held + 1 ≤ (s.ten (s.owner 1)).quota →
    s.loft.tags.length + s.loft.gone.length + s.loft.testing.length + 1 < 2064384 →
    s.loft.tags.all (fun p => decide (p.2.gen < 256)) = true →
    s.owner 1 < 8 →
    ∃ z, exec (.frameReceived p data true false sec ns frac) s = .next z ∧ ∃ h : Nat,
      usable z (s.owner 1) h = true ∧
      Machine.loftRead z (yAddr (hIndex h) 0) data.length = data ∧
      Machine.loftRead z (slotAddr fl.ring (s.ring fl.ring) (s.ring fl.ring).tail) 31 = rxDesc s p i { data, time := { sec, ns, frac } } [h] ∧
      (z.ring fl.ring).tail = ((s.ring fl.ring).tail + 1) % 2 ^ 32 ∧
      PortCounted p 0 1 s z ∧
      PortCounted p 1 (data.length + 4) s z ∧
      KeepsBut [.tenants, .loft, .rings, .net, .views, .out] s z) ∧
  (∀ (p : Fin 6) (data : Bytes) (sec ns frac i : Nat) (fl : Flow) (s : State),
    PortUp p s →
    rxBytes (s.port p) + data.length + 4 ≤ 65536 →
    60 ≤ data.length →
    data.length + 4 ≤ (s.port p).maxFrame →
    macAccepts s p data = true →
    rdBe data 12 2 ≠ 0x8808 →
    (s.port p).held = none →
    classify s p data = (i, fl) →
    fl.action = 0 →
    ∃ z, exec (.frameReceived p data true false sec ns frac) s = .next z ∧
      PortCounted p 0 1 s z ∧
      PortCounted p 1 (data.length + 4) s z ∧
      PortCounted p 9 1 s z ∧
      (∀ q : Fin 6, q ≠ p → z.port q = s.port q) ∧
      KeepsBut [.net] s z) ∧
  (∀ (p : Fin 6) (n : Nat) (s : State),
    s.powered = true →
    portRuns s p = true →
    portFlag s p 0 = true →
    (s.port p).xoff = true →
    xoffStands s p = true →
    halfPause s p ≤ n →
    ∃ z, exec (.xoffRepeat p n) s = .next z ∧
      z.out = .pause p (s.port p).pauseQuanta :: s.out ∧
      z.port p = { s.port p with counters := upd (s.port p).counters 13 fun c => wrap64 (c + 1) } ∧
      (∀ q : Fin 6, q ≠ p → z.port q = s.port q) ∧
      KeepsBut [.net, .out] s z) ∧
  (∀ (p : Fin 6) (s : State),
    s.powered = true →
    portRuns s p = true →
    (s.port p).xoff = true →
    (s.port p).held = none →
    rxBytes (s.port p) < 16384 →
    ∃ z, exec (.xon p) s = .next z ∧
      z.out = .pause p 0 :: s.out ∧
      z.port p = { s.port p with counters := upd (s.port p).counters 13 fun c => wrap64 (c + 1), xoff := false } ∧
      (∀ q : Fin 6, q ≠ p → z.port q = s.port q) ∧
      KeepsBut [.net, .out] s z) ∧
  (∀ (p : Fin 6) (f : RxFrame) (i : Nat) (fl : Flow) (s : State),
    s.powered = true →
    portRuns s p = true →
    (s.port p).held = some { frame := f, index := i, flow := fl } →
    (s.port p).rxq = [] →
    f.data.length ≤ 4096 →
    0 < f.data.length →
    fl.action = 1 →
    (s.ring fl.ring).opened = true →
    (s.ring fl.ring).type = .rxframe →
    (s.ring fl.ring).owner = s.owner 1 →
    (s.ring fl.ring).room ≠ 0 →
    (s.ring fl.ring).log2 ≤ 12 →
    (s.ten (s.owner 1)).held < (s.ten (s.owner 1)).ingress →
    (s.ten (s.owner 1)).held + 1 ≤ (s.ten (s.owner 1)).quota →
    s.loft.tags.length + s.loft.gone.length + s.loft.testing.length + 1 < 2064384 →
    s.loft.tags.all (fun p => decide (p.2.gen < 256)) = true →
    s.owner 1 < 8 →
    ∃ z, exec (.heldFrameAdmit p) s = .next z ∧ ∃ h : Nat,
      (z.port p).held = none ∧
      usable z (s.owner 1) h = true ∧
      Machine.loftRead z (yAddr (hIndex h) 0) f.data.length = f.data ∧
      Machine.loftRead z (slotAddr fl.ring (s.ring fl.ring) (s.ring fl.ring).tail) 31 = rxDesc s p i f [h] ∧
      (z.ring fl.ring).tail = ((s.ring fl.ring).tail + 1) % 2 ^ 32 ∧
      (∀ q : Fin 6, q ≠ p → z.port q = s.port q) ∧
      KeepsBut [.tenants, .loft, .rings, .net, .views, .out] s z) ∧
  (∀ (p : Fin 6) (us : Nat) (f : RxFrame) (i : Nat) (fl : Flow) (s : State),
    s.powered = true →
    portRuns s p = true →
    1000 ≤ us →
    (s.port p).held = some { frame := f, index := i, flow := fl } →
    (s.port p).rxq = [] →
    fl.action = 1 →
    s.owner 1 < 8 →
    ∃ z, exec (.heldFrameTimeout p us) s = .next z ∧
      (z.port p).held = none ∧
      PortCounted p 8 1 s z ∧
      (z.ten (s.owner 1)).refFrames = inc32 (s.ten (s.owner 1)).refFrames ∧
      (∀ q : Fin 6, q ≠ p → z.port q = s.port q) ∧
      KeepsBut [.tenants, .rings, .net] s z) ∧
  (∀ (p : Fin 6) (q : BitVec 16) (s : State),
    PortUp p s →
    q.toNat ≠ 0 →
    ∃ z, exec (.pauseReceived p [0x01, 0x80, 0xC2, 0, 0, 0x01] q) s = .next z ∧
      z.port p = { s.port p with counters := upd (s.port p).counters 10 fun c => wrap64 (c + 1), pause := some q.toNat } ∧
      (∀ q : Fin 6, q ≠ p → z.port q = s.port q) ∧
      KeepsBut [.net] s z) ∧
  (∀ (p : Fin 6) (ns q : Nat) (s : State),
    s.powered = true →
    (s.port p).pause = some q →
    q * (if (s.port p).mode = 1 then 512 else 5120) ≤ 10 * ns →
    (s.port p).late = [] →
    ∃ z, exec (.pauseEnd p ns) s = .next z ∧
      z.port p = { s.port p with pause := none } ∧
      (∀ q : Fin 6, q ≠ p → z.port q = s.port q) ∧
      KeepsBut [.net] s z)

/-- The oldest waiting frame leaves padded to 60 bytes and is counted; a NET_SEND then completes OK with its length
and, where asked, its departure timestamp. Link up and link down set the link, count the change and raise source 64 +
p. LPI is entered and left under its rules, an EEE LLDPDU is queued and the partner's values are taken. A 100 ms
window with errors raises source 72 + p. A port that fails loses its link and its island; it is restored after 1 s.
Where a clause meets what the spec leaves open it states the model's reading: log entries 7, 29, 30, 136. From R358,
R359, R360, R373, R375, R377, R387, R388, R389, R390, R409, R966. -/
def Obligations.FramesAndLinksOfAPort : Prop :=
  (∀ (p : Fin 6) (sec ns frac : Nat) (f : TxFrame) (l : List TxFrame) (s : State),
    s.powered = true →
    (s.port p).txq = f :: l →
    mayStart s p = true →
    f.ring = none →
    ∃ z, exec (.frameSent p sec ns frac) s = .next z ∧
      z.out = .frame p (if f.data.length < 60 then fit 60 f.data else f.data) { sec := sec % 2 ^ 48, ns := ns % 1000000000, frac := frac % 65536 } :: s.out ∧
      z.port p = { s.port p with txq := l, counters := upd (upd (s.port p).counters 11 fun c => wrap64 (c + 1)) 12 fun c => wrap64 (c + (max 60 f.data.length + 4)) } ∧
      (∀ q : Fin 6, q ≠ p → z.port q = s.port q) ∧
      KeepsBut [.net, .out] s z) ∧
  (∀ (p : Fin 6) (sec ns frac : Nat) (f : TxFrame) (l : List TxFrame) (n q : Nat) (d : Bytes) (s : State),
    s.powered = true →
    (s.port p).txq = f :: l →
    mayStart s p = true →
    f.ring = some n →
    n < 32 →
    q < 32 →
    (s.ring n).opened = true →
    (s.ring n).pair = some q →
    (s.ring n).closing = false →
    txBytes s f = (d, false) →
    ∃ z, exec (.frameSent p sec ns frac) s = .next z ∧
      .frame p (if d.length < 60 then fit 60 d else d) { sec := sec % 2 ^ 48, ns := ns % 1000000000, frac := frac % 65536 } ∈ z.out ∧
      Completed q (completeDesc 0x10 St.ok f.tag (max 60 d.length + 4) 0 (if f.flags.testBit 0 then leBytes 4 (ns % 1000000000) ++ leBytes 2 (frac % 65536) ++ leBytes 2 (sec % 2 ^ 48) else []) s.timebase.now) s z ∧
      (z.port p).txq = l ∧
      PortCounted p 11 1 s z ∧
      PortCounted p 12 (max 60 d.length + 4) s z ∧
      (∀ q : Fin 6, q ≠ p → z.port q = s.port q) ∧
      KeepsBut [.net, .loft, .tenants, .rings, .views, .out] s z) ∧
  (∀ (p : Fin 6) (ms : Nat) (an : Fin 4) (s : State),
    Up s →
    (s.port p).link = false →
    portRuns s p = true →
    (s.port p).mode ≠ 0 →
    ((s.port p).mode = 1 → 10 ≤ ms) →
    (s.inst p).profile = 0 →
    ∃ z, exec (.linkUp p ms an) s = .next z ∧
      z.port p = { s.port p with link := true, linkChanges := inc32 (s.port p).linkChanges, anResult := if (s.port p).mode = 2 ∧ (s.port p).flags.testBit 4 then an.val else 0 } ∧
      Raised (64 + p.val) s z ∧
      (∀ q : Fin 6, q ≠ p → z.port q = s.port q) ∧
      KeepsBut [.net, .views, .out] s z) ∧
  (∀ (p : Fin 6) (s : State),
    Up s →
    (s.port p).link = true →
    (s.port p).held = none →
    (s.port p).txq = [] →
    (s.port p).txLpi = false →
    (s.inst p).profile = 0 →
    ∃ z, exec (.linkDown p false false) s = .next z ∧
      z.port p = { s.port p with link := false, linkChanges := inc32 (s.port p).linkChanges, xoff := false, rxLpi := false, echoOk := false, partnerTw := none, late := [] } ∧
      Raised (64 + p.val) s z ∧
      (∀ q : Fin 6, q ≠ p → z.port q = s.port q) ∧
      KeepsBut [.net, .views, .out] s z) ∧
  (∀ (p : Fin 6) (i l : Nat) (s : State),
    s.powered = true →
    portRuns s p = true →
    (s.port p).link = true →
    lpiEnabled (s.port p) = true →
    (s.port p).txLpi = false →
    (s.port p).txq = [] →
    (s.port p).held = none →
    (s.port p).lpiIdle ≤ i →
    transmitTw (s.port p) + 5 < l →
    ∃ z, exec (.lpiEntry p i l) s = .next z ∧
      z.port p = { s.port p with txLpi := true, txLpiSince := s.up, counters := upd (s.port p).counters 16 fun c => wrap64 (c + 1) } ∧
      (∀ q : Fin 6, q ≠ p → z.port q = s.port q) ∧
      KeepsBut [.net] s z) ∧
  (∀ (p : Fin 6) (l : Nat) (s : State),
    s.powered = true →
    (s.port p).txLpi = true →
    ((s.port p).txq ≠ [] ∨ l ≤ transmitTw (s.port p)) →
    ∃ z, exec (.lpiExit p l) s = .next z ∧
      z.port p = { s.port p with txLpi := false, counters := upd (s.port p).counters 18 fun c => wrap64 (c + (s.up - (s.port p).txLpiSince)) } ∧
      (∀ q : Fin 6, q ≠ p → z.port q = s.port q) ∧
      KeepsBut [.net] s z) ∧
  (∀ (p : Fin 6) (s : State),
    PortUp p s →
    (s.port p).mode = 1 →
    (s.port p).rxLpi = false →
    ∃ z, exec (.lpiRxEntry p) s = .next z ∧
      z.port p = { s.port p with rxLpi := true, counters := upd (s.port p).counters 17 fun c => wrap64 (c + 1) } ∧
      (∀ q : Fin 6, q ≠ p → z.port q = s.port q) ∧
      KeepsBut [.net] s z) ∧
  (∀ (p : Fin 6) (s : State),
    s.powered = true →
    ∃ z, exec (.lpiRxWake p) s = .next z ∧
      z.port p = { s.port p with rxLpi := false } ∧
      (∀ q : Fin 6, q ≠ p → z.port q = s.port q) ∧
      KeepsBut [.net] s z) ∧
  (∀ (p : Fin 6) (first : Bool) (n : Nat) (s : State),
    PortUp p s →
    (s.port p).flags.testBit 1 = true →
    (first = true ∨ 30 ≤ n) →
    ∃ z, exec (.lldpSend p first n) s = .next z ∧
      z.port p = { s.port p with txq := (s.port p).txq ++ [{ data := lldpdu s p }], advTw := transmitTw (s.port p) } ∧
      (∀ q : Fin 6, q ≠ p → z.port q = s.port q) ∧
      KeepsBut [.net] s z) ∧
  (∀ (p : Fin 6) (a b c d : BitVec 16) (s : State),
    PortUp p s →
    (s.port p).flags.testBit 1 = true →
    ∃ z, exec (.lldpduReceived p a b c d) s = .next z ∧
      z.port p = { s.port p with partnerTw := some (a.toNat, b.toNat), echoOk := c.toNat == (s.port p).advTw && d.toNat == 6 } ∧
      (∀ q : Fin 6, q ≠ p → z.port q = s.port q) ∧
      KeepsBut [.net] s z) ∧
  (∀ (p : Fin 6) (ms : Nat) (s : State),
    Up s →
    (s.port p).errPending = true →
    100 ≤ ms →
    ∃ z, exec (.errSummary p ms) s = .next z ∧
      z.port p = { s.port p with errPending := false, errAt := some s.up } ∧
      Raised (72 + p.val) s z ∧
      (∀ q : Fin 6, q ≠ p → z.port q = s.port q) ∧
      KeepsBut [.net, .views, .out] s z) ∧
  (∀ (p : Fin 6) (a : Nat) (par : Bool) (b : Nat) (s : State),
    Up s →
    portRuns s p = true →
    (1000 ≤ a ∨ par = true ∨ 3 ≤ b) →
    ∃ z, exec (.portFailed p a par b) s = .next z ∧
      (z.port p).failed = true ∧
      (z.port p).link = false ∧
      (z.port p).txq = [] ∧
      (z.port p).failAt = some s.up ∧
      (z.port p).failLocked = ((s.port p).failAt.any fun x => decide (s.up < x + 60000000)) ∧
      vat z.supply.isl.port p = false ∧
      (z.view 0).raw.getLsbD (64 + p.val) = true ∧
      (z.view 0).raw.getLsbD (72 + p.val) = true) ∧
  (∀ (p : Fin 6) (ms : Nat) (s : State),
    Up s →
    CanRecord s →
    (s.port p).failed = true →
    (s.port p).failLocked = false →
    1000 ≤ ms →
    ∃ z, exec (.portRestored p ms) s = .next z ∧
      (z.port p).failed = false ∧
      vat z.supply.isl.port p = true ∧
      Recorded 0x06A5 2 0 s z ∧
      (∀ q : Fin 6, q ≠ p → z.port q = s.port q) ∧
      KeepsBut [.net, .supply, .recorder, .views, .out] s z)

/-- RX_LOS is followed and its rises counted. A module that acknowledges becomes PRESENT with its bytes 0 to 95, one
that does not is ABSENT; DDM bytes are taken with their time. A line that stays low after three recoveries makes the
port's bus STUCK and raises source 72 + p; a retry that frees it makes the module ABSENT. The end of a read puts the
bytes into the yealm and completes the command OK with its event. Where a clause meets what the spec leaves open it
states the model's reading: log entries 31, 169. From R402, R403, R404, R405, R406, R407, R408, R131, R360, Table
ETH.8. -/
def Obligations.SfpModulesAreManaged : Prop :=
  (∀ (p : Fin 6) (s : State),
    Up s →
    (s.port p).los = false →
    ∃ z, exec (.sfpLosEdge p true) s = .next z ∧
      (z.port p).los = true ∧
      PortCounted p 20 1 s z ∧
      (∀ q : Fin 6, q ≠ p → z.port q = s.port q) ∧
      KeepsBut [.net, .views, .out] s z) ∧
  (∀ (p : Fin 6) (s : State),
    s.powered = true →
    ∃ z, exec (.sfpLosEdge p false) s = .next z ∧
      z.port p = { s.port p with los := false } ∧
      (∀ q : Fin 6, q ≠ p → z.port q = s.port q) ∧
      KeepsBut [.net] s z) ∧
  (∀ (p : Fin 6) (a : Bytes) (s : State),
    s.powered = true →
    portRuns s p = true →
    (s.port p).sfp = .absent →
    ∃ z, exec (.sfpPresencePoll p 0 true a) s = .next z ∧
      z.port p = { s.port p with sfp := .present, a0 := fit 96 a, ddm := List.replicate 10 0#8, ddmAt := none } ∧
      z.out = .twoWire p 0x50 0 false (fit 96 a) :: s.out ∧
      (∀ q : Fin 6, q ≠ p → z.port q = s.port q) ∧
      KeepsBut [.net, .out] s z) ∧
  (∀ (p : Fin 6) (a : Bytes) (s : State),
    s.powered = true →
    portRuns s p = true →
    (s.port p).sfp ≠ .stuck →
    ∃ z, exec (.sfpPresencePoll p 0 false a) s = .next z ∧
      z.port p = { s.port p with sfp := .absent } ∧
      (∀ q : Fin 6, q ≠ p → z.port q = s.port q) ∧
      KeepsBut [.net] s z) ∧
  (∀ (p : Fin 6) (n : Nat) (ack : Bool) (a : Bytes) (s : State),
    Up s →
    portRuns s p = true →
    (s.port p).sfp ≠ .stuck →
    3 < n →
    (s.port p).errAt = none →
    ∃ z, exec (.sfpPresencePoll p n ack a) s = .next z ∧
      (z.port p).sfp = .stuck ∧
      PortCounted p 21 1 s z ∧
      (z.view 0).raw.getLsbD (72 + p.val) = true ∧
      .scl p ∈ z.out ∧
      (∀ q : Fin 6, q ≠ p → z.port q = s.port q) ∧
      KeepsBut [.net, .views, .out] s z) ∧
  (∀ (p : Fin 6) (d : Bytes) (s : State),
    s.powered = true →
    portRuns s p = true →
    (s.port p).sfp = .present →
    (s.port p).flags.testBit 6 = true →
    (byteAt (s.port p).a0 92).testBit 6 = true →
    ∃ z, exec (.ddmPoll p 0 true d) s = .next z ∧
      z.port p = { s.port p with ddm := fit 10 d, ddmAt := some s.up } ∧
      z.out = .twoWire p 0x51 96 false (fit 10 d) :: s.out ∧
      (∀ q : Fin 6, q ≠ p → z.port q = s.port q) ∧
      KeepsBut [.net, .out] s z) ∧
  (∀ (p : Fin 6) (f : Bool) (s : State),
    s.powered = true →
    portRuns s p = true →
    (s.port p).sfp = .stuck →
    ∃ z, exec (.sfpStuckRetry p f) s = .next z ∧
      z.port p = { s.port p with sfp := if f then .absent else .stuck } ∧
      z.out = .scl p :: s.out ∧
      (∀ q : Fin 6, q ≠ p → z.port q = s.port q) ∧
      KeepsBut [.net, .out] s z) ∧
  (∀ (ms : Nat) (d : Bytes) (j : Job) (n : Nat) (s : State),
    s.powered = true →
    s.campel = true →
    s.supply.holdUp = false →
    s.jobs.find? (fun j => j.op == 0x0607) = some j →
    j.origin = none →
    byteAt j.data 3 = 0 →
    ms ≤ 25 →
    eventRing s j.tenant = some n →
    (s.ring n).lost = 0 →
    (s.ring n).log2 ≤ 12 →
    poolIndex (hIndex (rd j.data 8 4)) = true →
    byteAt j.data 4 ≤ 128 →
    ∃ z, exec (.twoWireTransactionEnd false 0 true ms false d) s = .next z ∧
      .twoWire (byteAt j.data 0) (byteAt j.data 1) (byteAt j.data 2) false (fit (byteAt j.data 4) d) ∈ z.out ∧
      Machine.loftRead z (yAddr (hIndex (rd j.data 8 4)) 0) (byteAt j.data 4) = fit (byteAt j.data 4) d ∧
      z.jobs = s.jobs.erase j ∧
      EventPosted n (eventDesc 1 St.ok 0x0607 j.token j.tenant s.cascade.position [] s.timebase.now) s z ∧
      KeepsBut [.jobs, .loft, .tenants, .rings, .views, .out] s z)

/-- ETH_PORT_CONFIG of a port without a link or a change of mode sets the settings of Table ETH.6 and SFP_TXDIS.
ETH_FLOW_SET writes or frees its entry, sets its counts to zero and leaves every other entry. The status, counter and
flow requests answer their tables' bytes and change nothing but the mailbox. ETH_SFP_XFER pins its yealm and waits for
the bus. Where a clause meets what the spec leaves open it states the model's reading: log entries 23, 136. From R131,
R358, R386, R394, R397, R399, R400, R401, Table ETH.5, Table ETH.6, Table ETH.7. -/
def Obligations.EthernetRequestsServe : Prop :=
  (∀ (c : Call) (p : Bytes) (n : Nat) (s : State),
    Served cmdEthPortConfig c s →
    p = c.payload →
    n = byteAt p 0 →
    (byteAt p 1 ≠ 0 ∨ claimed s c.t (5 + n) = false) →
    ((s.port n).mode = byteAt p 1 ∨ (s.port n).link = false) →
    (s.port n).held = none →
    (s.port n).txLpi = false →
    ∃ z, exec (.ethPortConfig c) s = .next z ∧
      Answered c 0x0601 St.ok [] z ∧
      ((z.port n).mode, (z.port n).flags, (z.port n).maxFrame, (z.port n).pauseQuanta, (z.port n).lpiIdle, (z.port n).defaultRing) = (byteAt p 1, rd p 2 2, rd p 4 2, rd p 6 2, rd p 8 2, byteAt p 10) ∧
      (∀ i : Fin 4, vat (z.port n).macs i = slice p (12 + 6 * i.val) 6) ∧
      (z.port n).txDis = (!(s.port n).everOn && decide (byteAt p 1 = 0) || decide (byteAt p 1 = 0) || (s.port n).failed) ∧
      (z.port n).counters = (s.port n).counters ∧
      (∀ q : Fin 6, q.val ≠ n → z.port q = s.port q) ∧
      SetsOnly [.net] c s z) ∧
  (∀ (c : Call) (x : Port) (s : State),
    Served cmdEthPortStatus c s →
    x = s.port (byteAt c.payload 0) →
    x.failed = false →
    ∃ z, exec (.ethPortStatus c) s = .next z ∧
      Answered c 0x0602 St.ok (leBytes 1 x.mode ++ leBytes 1 (b2n x.link + 2 * b2n x.los + 4 * b2n x.pause.isSome + 8 * b2n x.held.isSome + 16 * b2n x.txLpi + 32 * b2n x.rxLpi) ++ leBytes 1 (match x.sfp with | .absent => 0 | .present => 1 | .stuck => 2) ++ leBytes 1 x.anResult ++ leBytes 2 (if lpiEnabled x then transmitTw x * 1000 else 0) ++ leBytes 2 ((x.partnerTw.map (·.2)).getD 0) ++ fit 10 x.ddm ++ leBytes 2 ((x.ddmAt.map fun t => min 65535 ((s.up - t) / 1000000)).getD 65535) ++ leBytes 4 x.linkChanges) z ∧
      ReadsOnly c s z) ∧
  (∀ (c : Call) (x : Port) (s : State),
    Served cmdEthPortCounters c s →
    x = s.port (byteAt c.payload 0) →
    x.failed = false →
    ∃ z, exec (.ethPortCounters c) s = .next z ∧
      Answered c 0x0603 St.ok ((upd x.counters 18 fun k => wrap64 (k + if x.txLpi then s.up - x.txLpiSince else 0)).toList.flatMap (leBytes 8)) z ∧
      ReadsOnly c s z) ∧
  (∀ (c : Call) (i : Nat) (f : Flow) (s : State),
    Served cmdEthFlowSet c s →
    i = rd c.payload 0 2 →
    f = Flow.ofBytes (slice c.payload 4 64) →
    ((flowAt s i).service = 1 ∨ (flowAt s i).service = 255) →
    ∃ z, exec (.ethFlowSet c) s = .next z ∧
      Answered c 0x0604 St.ok [] z ∧
      flowAt z i = (if f.match_.testBit 0 then { f with service := 1 } else {}) ∧
      mgetD z.net.counts i {} = {} ∧
      (∀ j, j ≠ i → flowAt z j = flowAt s j ∧ mgetD z.net.counts j {} = mgetD s.net.counts j {}) ∧
      z.net = { s.net with flows := z.net.flows, counts := z.net.counts } ∧
      SetsOnly [.net] c s z) ∧
  (∀ (c : Call) (s : State),
    Served cmdEthFlowGet c s →
    ∃ z, exec (.ethFlowGet c) s = .next z ∧
      Answered c 0x0605 St.ok ((List.range (byteAt c.payload 2)).flatMap fun i => (flowAt s (rd c.payload 0 2 + i)).bytes) z ∧
      ReadsOnly c s z) ∧
  (∀ (c : Call) (s : State),
    Served cmdEthFlowCounters c s →
    rd c.payload 0 2 < 4096 →
    ∃ z, exec (.ethFlowCounters c) s = .next z ∧
      Answered c 0x0606 St.ok ((List.range (byteAt c.payload 2)).flatMap fun k => leBytes 8 (mgetD s.net.counts (rd c.payload 0 2 + k) {}).frames ++ leBytes 8 (mgetD s.net.counts (rd c.payload 0 2 + k) {}).bytes ++ leBytes 8 (mgetD s.net.counts (rd c.payload 0 2 + k) {}).dropped) z ∧
      ReadsOnly c s z) ∧
  (∀ (c : Call) (i : Nat) (s : State),
    Served cmdEthSfpXfer c s →
    MayAccept c s →
    i = hIndex (rd c.payload 8 4) →
    (s.port (byteAt c.payload 0)).failed = false →
    (s.port (byteAt c.payload 0)).sfp ≠ .stuck →
    byteAt c.payload 3 = 0 →
    ∃ z, exec (.ethSfpXfer c) s = .next z ∧
      AcceptedAs c 0x0607 (fun j => j.waits && j.pins == [i] && j.data == c.payload) z ∧
      (z.loft.tag i).pins = (s.loft.tag i).pins + 1 ∧
      z.loft.mem = s.loft.mem ∧
      StartsOnly [.loft] c s z)

/-- A multicast Delay_Req and a unicast one of a holder of a grant are answered with the arrival time, corrected by
RX_EXT_PS and the asymmetry, and the interval of R434; one without a grant is only counted. A new Announce request
that passes the checks of R442 is granted its period and the duration of R443; while time is not valid it is denied
with duration 0. A CANCEL ends the grant and is acknowledged. A grant expires when its duration has passed. A follower
instance renews a grant at half its duration and keeps or drops a grant by the durationField of the GRANT. Where a
clause meets what the spec leaves open it states the model's reading: log entries 133, 134. From R430, R433, R434,
R440, R442, R443, R445, R447, R449, R463, R464, Table PTP.12. -/
def Obligations.PtpServesAndNegotiates : Prop :=
  (∀ (p : Fin 6) (m : PtpRx) (t : Time) (s : State),
    PtpHeard p m s →
    (s.inst p).state = .master →
    s.timebase.valid = true →
    (s.port p).txLpi = false →
    (respTake p s).isSome = true →
    t = (rxTime m).addPs ((s.inst p).asym - (s.inst p).rxExt) →
    m.multicast = true →
    (s.inst p).multicast = true →
    ∃ z, exec (.delayReq p m) s = .next z ∧
      z.out = .ptp p 9 (0x1000 + p) (leBytes 2 m.seq ++ fit 10 m.srcId ++ beBytes 6 t.sec ++ beBytes 4 t.ns ++ beInt 8 (m.corr + t.frac) ++ leInt 1 (s.inst p).logDelay) :: s.out ∧
      PtpCounted p 3 s z ∧
      PtpCounted p 4 s z ∧
      z.net.followers = s.net.followers ∧
      (∀ q : Fin 6, q ≠ p → z.inst q = s.inst q) ∧
      KeepsBut [.net, .out] s z) ∧
  (∀ (p : Fin 6) (m : PtpRx) (t : Time) (e : Nat × Follower) (g : Grant) (s : State),
    PtpHeard p m s →
    (s.inst p).state = .master →
    s.timebase.valid = true →
    (s.port p).txLpi = false →
    (respTake p s).isSome = true →
    t = (rxTime m).addPs ((s.inst p).asym - (s.inst p).rxExt) →
    m.multicast = false →
    s.net.followers.find? (fun e => e.2.port == p.val && e.2.addr == fit 16 m.addr && e.2.delayResp.isSome) = some e →
    e.2.delayResp = some g →
    ∃ z, exec (.delayReq p m) s = .next z ∧
      z.out = .ptp p 9 e.1 (leBytes 2 m.seq ++ fit 10 m.srcId ++ beBytes 6 t.sec ++ beBytes 4 t.ns ++ beInt 8 (m.corr + t.frac) ++ leInt 1 g.logPeriod) :: s.out ∧
      PtpCounted p 3 s z ∧
      PtpCounted p 4 s z ∧
      z.net.followers = s.net.followers ∧
      (∀ q : Fin 6, q ≠ p → z.inst q = s.inst q) ∧
      KeepsBut [.net, .out] s z) ∧
  (∀ (p : Fin 6) (m : PtpRx) (s : State),
    PtpHeard p m s →
    (s.inst p).state = .master →
    s.timebase.valid = true →
    m.multicast = false →
    s.net.followers.find? (fun e => e.2.port == p.val && e.2.addr == fit 16 m.addr && e.2.delayResp.isSome) = none →
    ∃ z, exec (.delayReq p m) s = .next z ∧
      z.out = s.out ∧
      PtpCounted p 3 s z ∧
      PtpCounted p 6 s z ∧
      z.net = { s.net with ptp := z.net.ptp } ∧
      (∀ q : Fin 6, q ≠ p → z.inst q = s.inst q) ∧
      KeepsBut [.net] s z) ∧
  (∀ (p : Fin 6) (m : PtpRx) (type : Fin 16) (log : Int) (d i t : Nat) (s : State),
    PtpHeard p m s →
    (s.port p).txLpi = false →
    (s.inst p).state = .master →
    (s.inst p).unicast = true →
    s.timebase.valid = true →
    periodOk (s.inst p) type log = true →
    findFollower s p m = none →
    freeFollower s.net.followers 4097 0 = some i →
    rateFits s p type (rate32 log) = true →
    t = min s.net.grantMax (max 10 d) →
    i ≠ 4096 →
    ∃ z, exec (.signalingRequest p m type log d) s = .next z ∧
      z.out = .ptp p 0x0C i (leBytes 1 5 ++ leBytes 1 type ++ leInt 1 log ++ leBytes 4 t) :: s.out ∧
      ((mget z.net.followers i).any fun f => f.port == p.val && f.portId == fit 10 m.srcId && f.addr == fit 16 m.addr && f.mac == fit 6 m.mac && f.grant type == some { logPeriod := log, duration := t, expiry := s.up + t * 1000000 }) = true ∧
      (∀ j ∈ s.net.followers, j ∈ z.net.followers) ∧
      PtpCounted p 7 s z ∧
      (∀ q : Fin 6, q ≠ p → z.inst q = s.inst q) ∧
      KeepsBut [.net, .out, .free] s z) ∧
  (∀ (p : Fin 6) (m : PtpRx) (type : Fin 16) (log : Int) (d i : Nat) (s : State),
    PtpHeard p m s →
    (s.port p).txLpi = false →
    (s.inst p).state = .master →
    s.timebase.valid = false →
    findFollower s p m = none →
    freeFollower s.net.followers 4097 0 = some i →
    ∃ z, exec (.signalingRequest p m type log d) s = .next z ∧
      z.out = .ptp p 0x0C i (leBytes 1 5 ++ leBytes 1 type ++ leInt 1 log ++ leBytes 4 0) :: s.out ∧
      z.net.followers = s.net.followers ∧
      PtpCounted p 11 s z ∧
      (∀ q : Fin 6, q ≠ p → z.inst q = s.inst q) ∧
      KeepsBut [.net, .out] s z) ∧
  (∀ (p : Fin 6) (m : PtpRx) (type : Fin 16) (e : Nat × Follower) (s : State),
    PtpHeard p m s →
    (s.port p).txLpi = false →
    findFollower s p m = some e →
    ∃ z, exec (.cancelUnicastTransmission p m type) s = .next z ∧
      z.out = .ptp p 0x0C e.1 (leBytes 1 7 ++ leBytes 1 type ++ leInt 1 0 ++ leBytes 4 0) :: s.out ∧
      (mgetD z.net.followers e.1 {}).grant type = none ∧
      (∀ x ∈ s.net.followers, x.1 ≠ e.1 → x ∈ z.net.followers) ∧
      (∀ q : Fin 6, q ≠ p → z.inst q = s.inst q) ∧
      KeepsBut [.net, .out] s z) ∧
  (∀ (i : Fin 4096) (type : Fin 16) (n : Nat) (f : Follower) (g : Grant) (s : State),
    s.powered = true →
    mget s.net.followers i = some f →
    f.grant type = some g →
    g.duration ≤ n →
    ∃ z, exec (.grantExpiry i type n) s = .next z ∧
      (mgetD z.net.followers i {}).grant type = none ∧
      (∀ x ∈ s.net.followers, x.1 ≠ i → x ∈ z.net.followers) ∧
      z.net = { s.net with followers := z.net.followers } ∧
      KeepsBut [.net] s z) ∧
  (∀ (p : Fin 6) (k : Fin 4) (type : Fin 16) (n d : Nat) (x : UniMaster) (s : State),
    s.powered = true →
    portRuns s p = true →
    (s.inst p).active = true →
    (s.inst p).authFlags = 0 →
    (s.port p).txLpi = false →
    (s.inst p).masters[k.val]? = some x →
    (s.inst p).role ≠ 1 →
    (type.val = 0x0B ∨ type.val = 0 ∨ type.val = 9) →
    mget x.grants type = some d →
    d ≤ 2 * n →
    ∃ z, exec (.grantRenewal p k type n) s = .next z ∧
      z.out = .ptp p 0x0C (0x2000 + k) (leBytes 1 4 ++ leBytes 1 type ++ leInt 1 (wantedLog (s.inst p) type) ++ leBytes 4 s.net.grantMax) :: s.out ∧
      z.net = { s.net with port := z.net.port } ∧
      KeepsBut [.net, .out] s z) ∧
  (∀ (p : Fin 6) (m : PtpRx) (type : Fin 16) (d : Nat) (s : State),
    PtpHeard p m s →
    ∃ z, exec (.grantReceived p m type d) s = .next z ∧
      z.inst p = { s.inst p with verified := false, generalQ := (s.inst p).generalQ - 1, masters := (s.inst p).masters.map fun x => if x.addr = fit 16 m.addr then { x with grants := if d = 0 then mdel x.grants type else mset x.grants type d } else x } ∧
      z.net = { s.net with ptp := z.net.ptp } ∧
      (∀ q : Fin 6, q ≠ p → z.inst q = s.inst q) ∧
      KeepsBut [.net] s z)

/-- The first Announce of a foreign master is noted; without Announces for the timeout a follower-only instance
listens and another becomes master. A one-step Sync of the parent gives its offset at once, a two-step one with its
Follow_Up. A Delay_Resp ends an exchange: offset and path delay of R456, and the offset goes to the reference. Three
intervals without Sync, and 3 s without a verified message, disqualify the reference. Metadata of the parent is kept
with its time. A Pdelay is counted only. A Follow_Up carries the true departure; the SM TLV goes out once per second.
Where a clause meets what the spec leaves open it states the model's reading: log entries 27, 33, 34, 135. From R426,
R432, R450, R454, R456, R457, R458, R459, R463, R466, Table PTP.6, Table PTP.12. -/
def Obligations.PtpFollowsAMaster : Prop :=
  (∀ (p : Fin 6) (m : PtpRx) (a : PtpAnn) (s : State),
    PtpHeard p m s →
    a.steps < 255 →
    fit 10 m.srcId ≠ (ownData s p).portId →
    bestForeign { s.inst p with foreign := noteForeign (annParent a m) (s.inst p).foreign } = none →
    s.net.refPort ≠ some p.val →
    (s.ref 2).qualified = false →
    ∃ z, exec (.announceReceived p m a) s = .next z ∧
      z.inst p = { s.inst p with verified := false, generalQ := (s.inst p).generalQ - 1, foreign := noteForeign (annParent a m) (s.inst p).foreign } ∧
      z.net = { s.net with ptp := z.net.ptp } ∧
      (∀ q : Fin 6, q ≠ p → z.inst q = s.inst q) ∧
      KeepsBut [.net] s z) ∧
  (∀ (p : Fin 6) (m : PtpRx) (a : PtpAnn) (b : Parent) (s : State),
    PtpHeard p m s →
    a.steps < 255 →
    fit 10 m.srcId ≠ (ownData s p).portId →
    bestForeign { s.inst p with foreign := noteForeign (annParent a m) (s.inst p).foreign } = some b →
    (s.inst p).role = 2 →
    (s.inst p).state = .listening →
    s.net.refPort = none →
    bestSlave s = none →
    (s.ref 2).qualified = false →
    ∃ z, exec (.announceReceived p m a) s = .next z ∧
      (z.inst p).state = .uncalibrated ∧
      (z.inst p).parent = b ∧
      (z.inst p).exchanges = 0 ∧
      (z.inst p).delays = [] ∧
      (∀ q : Fin 6, q ≠ p → z.inst q = s.inst q) ∧
      KeepsBut [.net] s z) ∧
  (∀ (p : Fin 6) (n : Nat) (s : State),
    s.powered = true →
    (s.inst p).active = true →
    (s.inst p).receiptTimeout ≤ n →
    (s.inst p).state ≠ .master →
    s.net.refPort = none →
    bestSlave s = none →
    ∃ z, exec (.announceReceiptTimeout p n) s = .next z ∧
      (z.inst p).state = (if (s.inst p).role = 2 then .listening else .master) ∧
      z.net = { s.net with ptp := z.net.ptp, refPort := z.net.refPort } ∧
      (∀ q : Fin 6, q ≠ p → z.inst q = s.inst q) ∧
      KeepsBut [.net] s z) ∧
  (∀ (p : Fin 6) (m : PtpRx) (sec ns : Nat) (s : State),
    PtpHeard p m s →
    fromParent s p m = true →
    ∃ z, exec (.syncReceived p m false sec ns) s = .next z ∧
      z.inst p = { s.inst p with verified := false, syncDiff := some (((rxTime m).addPs (-(s.inst p).rxExt)).ps - corrPs m.corr - Time.ps { sec, ns }), awaiting := none } ∧
      z.net = { s.net with ptp := z.net.ptp } ∧
      (∀ q : Fin 6, q ≠ p → z.inst q = s.inst q) ∧
      KeepsBut [.net] s z) ∧
  (∀ (p : Fin 6) (m : PtpRx) (sec ns : Nat) (s : State),
    PtpHeard p m s →
    fromParent s p m = true →
    ∃ z, exec (.syncReceived p m true sec ns) s = .next z ∧
      z.inst p = { s.inst p with verified := false, awaiting := some (m.seq, ((rxTime m).addPs (-(s.inst p).rxExt)).ps - corrPs m.corr) } ∧
      z.net = { s.net with ptp := z.net.ptp } ∧
      (∀ q : Fin 6, q ≠ p → z.inst q = s.inst q) ∧
      KeepsBut [.net] s z) ∧
  (∀ (p : Fin 6) (m : PtpRx) (sec ns : Nat) (t2 : Int) (s : State),
    PtpHeard p m s →
    fromParent s p m = true →
    (s.inst p).awaiting = some (m.seq, t2) →
    ∃ z, exec (.followUpReceived p m sec ns) s = .next z ∧
      z.inst p = { s.inst p with verified := false, generalQ := (s.inst p).generalQ - 1, syncDiff := some (t2 - corrPs m.corr - Time.ps { sec, ns }), awaiting := none } ∧
      z.net = { s.net with ptp := z.net.ptp } ∧
      (∀ q : Fin 6, q ≠ p → z.inst q = s.inst q) ∧
      KeepsBut [.net] s z) ∧
  (∀ (p : Fin 6) (m : PtpRx) (sec ns a b f : Nat) (ms sm : Int) (s : State),
    PtpHeard p m s →
    fromParent s p m = true →
    sm = Time.ps { sec, ns } - corrPs m.corr - (Time.addPs { sec := a, ns := b, frac := f } (s.inst p).txExt).ps →
    (s.inst p).syncDiff = some ms →
    (s.net.delayFilter = 0 ∨ (ms + sm) / 2 ≤ leastOf (((ms + sm) / 2 :: (s.inst p).delays).take 64) ((ms + sm) / 2) + s.net.delayFilter * 1000) →
    (s.inst p).state = .slave →
    s.net.refPort = some p.val →
    ∃ z, exec (.delayRespReceived p m sec ns a b f) s = .next z ∧
      z.inst p = { s.inst p with verified := false, generalQ := (s.inst p).generalQ - 1, lastOffset := (ms - sm) / 2 - (s.inst p).asym, pathDelay := (ms + sm) / 2, delays := ((ms + sm) / 2 :: (s.inst p).delays).take 64, exchanges := inc32 (s.inst p).exchanges } ∧
      z.ref 2 = { s.ref 2 with phaseErr := sat32 ((ms - sm) / 2 - (s.inst p).asym), active := true } ∧
      z.net = { s.net with ptp := z.net.ptp } ∧
      (∀ q : Fin 6, q ≠ p → z.inst q = s.inst q) ∧
      KeepsBut [.net, .timebase] s z) ∧
  (∀ (p : Fin 6) (n : Nat) (s : State),
    s.powered = true →
    s.net.refPort = some p.val →
    3 ≤ n →
    (s.ref 2).qualified = true →
    ∃ z, exec (.syncTimeout p n) s = .next z ∧
      (z.ref 2).qualified = false ∧
      (z.ref 2).lastCause = 8 ∧
      (z.ref 2).disqualified = inc32 (s.ref 2).disqualified ∧
      z.net = s.net) ∧
  (∀ (p : Fin 6) (n : Nat) (s : State),
    s.powered = true →
    s.net.refPort = some p.val →
    (s.inst p).authFlags.testBit 1 = true →
    3 ≤ n →
    (s.ref 2).qualified = true →
    ∃ z, exec (.authTimeout p n) s = .next z ∧
      (z.ref 2).qualified = false ∧
      (z.ref 2).lastCause = 8 ∧
      (z.ref 2).disqualified = inc32 (s.ref 2).disqualified ∧
      z.net = s.net) ∧
  (∀ (p : Fin 6) (m : PtpRx) (tlv : List (BitVec 8)) (s : State),
    PtpHeard p m s →
    fromParent s p m = true →
    (s.timebase.selected ≠ 2 ∨ s.timebase.fromUpstream = false) →
    ∃ z, exec (.managementReceived p m tlv) s = .next z ∧
      z.inst p = { s.inst p with verified := false, generalQ := (s.inst p).generalQ - 1, sm := some (fit 48 tlv, s.up) } ∧
      z.net = { s.net with ptp := z.net.ptp } ∧
      (∀ q : Fin 6, q ≠ p → z.inst q = s.inst q) ∧
      KeepsBut [.net] s z) ∧
  (∀ (p : Fin 6) (m : PtpRx) (tlv : List (BitVec 8)) (s : State),
    PtpHeard p m s →
    fromParent s p m = true →
    s.timebase.selected = 2 →
    s.timebase.fromUpstream = true →
    s.net.refPort = some p.val →
    ∃ z, exec (.managementReceived p m tlv) s = .next z ∧
      z.timebase.localOffset = rdBeS (fit 48 tlv) 16 4 ∧
      (z.inst p).sm = some (fit 48 tlv, s.up) ∧
      (∀ q : Fin 6, q ≠ p → z.inst q = s.inst q)) ∧
  (∀ (p : Fin 6) (s : State),
    s.powered = true →
    portRuns s p = true →
    (s.inst p).active = true →
    ∃ z, exec (.pdelayReceived p) s = .next z ∧
      z.inst p = { s.inst p with counters := upd (s.inst p).counters 14 fun c => wrap64 (c + 1) } ∧
      z.net = { s.net with ptp := z.net.ptp } ∧
      (∀ q : Fin 6, q ≠ p → z.inst q = s.inst q) ∧
      KeepsBut [.net] s z) ∧
  (∀ (p : Fin 6) (g n : Nat) (t : Time) (l : List (Nat × Nat × Time)) (s : State),
    s.powered = true →
    portRuns s p = true →
    (s.inst p).active = true →
    (s.inst p).authFlags = 0 →
    (s.port p).txLpi = false →
    (s.inst p).followUps = (g, n, t) :: l →
    s.timebase.valid = true →
    (s.inst p).state = .master →
    ∃ z, exec (.followUp p) s = .next z ∧
      z.out = .ptp p 8 g (leBytes 2 n ++ beBytes 6 t.sec ++ beBytes 4 t.ns ++ beBytes 8 t.frac) :: s.out ∧
      (z.inst p).followUps = l ∧
      PtpCounted p 1 s z ∧
      (∀ q : Fin 6, q ≠ p → z.inst q = s.inst q) ∧
      KeepsBut [.net, .out] s z) ∧
  (∀ (p : Fin 6) (s : State),
    s.powered = true →
    portRuns s p = true →
    (s.inst p).active = true →
    (s.inst p).authFlags = 0 →
    (s.port p).txLpi = false →
    (s.inst p).state = .master →
    s.net.smFlags.testBit 0 = true →
    s.net.frameRate ≠ 0 →
    (s.inst p).multicast = true →
    s.net.followers = [] →
    ∃ z, exec (.smTlvSend p) s = .next z ∧
      z.out = .ptp p 0x0D (0x1000 + p) (smTlv s) :: s.out ∧
      z.net = { s.net with port := z.net.port } ∧
      KeepsBut [.net, .out] s z)

/-- PTP_INSTANCE_CONFIG of a port sets the fields of Table PTP.10 and takes the two highest free flow entries, or with
PROFILE 0 turns the instance off. PTP_UNICAST_MASTERS_SET, PTP_CLOCK_CONFIG, PTP_ASYM_SET and PTP_AUTH_CONFIG set
their fields and nothing else. PTP_FOLLOWER_DROP frees the entry. The status requests answer their tables and change
nothing but the mailbox. PTP_CAL_RUN arms its TIM_IN input; its end disarms it and answers NOT_READY when more than
half the edges are missing. Where a clause meets what the spec leaves open it states the model's reading: log entries
16, 33, 35, 72, 94. From R425, R427, R449, R467, R474, R475, R476, R477, Table PTP.9, Table PTP.10, Table PTP.11,
Table PTP.13. -/
def Obligations.PtpRequestsServe : Prop :=
  (∀ (c : Call) (s : State),
    Served cmdPtpGetStatus c s →
    ∃ z, exec (.ptpGetStatus c) s = .next z ∧
      Answered c 0x0640 St.ok (((List.range 6).map fun p => BitVec.ofNat 8 (ptpStateCode (s.inst p).state)) ++ leBytes 1 (s.net.refPort.getD 255) ++ zeros 1 ++ leBytes 2 s.net.followers.length ++ zeros 2 ++ leBytes 4 (grantedRate s 0 (fun _ => true) / 32) ++ leBytes 4 (grantedRate s 0x0B (fun _ => true) / 32) ++ leBytes 4 (grantedRate s 9 (fun _ => true) / 32)) z ∧
      ReadsOnly c s z) ∧
  (∀ (c : Call) (p : Bytes) (n : Nat) (s : State),
    Served cmdPtpInstanceConfig c s →
    p = c.payload →
    n = byteAt p 0 →
    byteAt p 1 % 4 ≠ 0 →
    (s.inst n).state = .off →
    (s.inst n).profile = 0 →
    (s.inst n).flows = [] →
    (topFree s.net.flows 4096 2).length = 2 →
    s.net.followers = [] →
    s.net.refPort = none →
    bestSlave s = none →
    ∃ z, exec (.ptpInstanceConfig c) s = .next z ∧
      Answered c 0x0641 St.ok [] z ∧
      (z.inst n).mode = byteAt p 1 ∧ (z.inst n).domain = byteAt p 2 ∧ (z.inst n).ipv6 = (byteAt p 3 == 1) ∧ (z.inst n).logAnnounce = rdS p 4 1 ∧ (z.inst n).logSync = rdS p 5 1 ∧ (z.inst n).logDelay = rdS p 6 1 ∧ (z.inst n).receiptTimeout = byteAt p 7 ∧ (z.inst n).vid = rd p 8 2 ∧ (z.inst n).flowPriority = rd p 10 2 ∧ (z.inst n).ip4 = slice p 12 4 ∧ (z.inst n).ip6 = slice p 16 16 ∧ (z.inst n).dscp = byteAt p 32 ∧
      (z.inst n).state = (if (s.port n).link then .listening else .faulty) ∧
      (z.inst n).flows = topFree s.net.flows 4096 2 ∧
      (∀ q : Fin 6, q.val ≠ n → z.inst q = s.inst q) ∧
      SetsOnly [.net] c s z) ∧
  (∀ (c : Call) (s : State),
    Served cmdPtpInstanceStatus c s →
    ∃ z, exec (.ptpInstanceStatus c) s = .next z ∧
      Answered c 0x0642 St.ok (ptpStatus s (byteAt c.payload 0)) z ∧
      ReadsOnly c s z) ∧
  (∀ (c : Call) (s : State),
    Served cmdPtpFollowersGet c s →
    ∃ z, exec (.ptpFollowersGet c) s = .next z ∧
      Answered c 0x0643 St.ok (leBytes 2 s.net.followers.length ++ zeros 2 ++ ((s.net.followers.filter fun e => rd c.payload 0 2 ≤ e.1).take (byteAt c.payload 2)).flatMap fun e => followerBytes s e.1 e.2) z ∧
      ReadsOnly c s z) ∧
  (∀ (c : Call) (p : Bytes) (n : Nat) (s : State),
    Served cmdPtpUnicastMastersSet c s →
    p = c.payload →
    n = byteAt p 0 →
    ∃ z, exec (.ptpUnicastMastersSet c) s = .next z ∧
      Answered c 0x0644 St.ok [] z ∧
      ((z.inst n).masters.map (fun x => (x.addr, x.mac)) = (List.range (byteAt p 1)).map fun k => (slice p (4 + 24 * k) 16, slice p (20 + 24 * k) 6)) ∧
      z.inst n = { s.inst n with masters := (z.inst n).masters } ∧
      z.net = { s.net with ptp := z.net.ptp } ∧
      (∀ q : Fin 6, q.val ≠ n → z.inst q = s.inst q) ∧
      SetsOnly [.net] c s z) ∧
  (∀ (c : Call) (p : Bytes) (s : State),
    Served cmdPtpClockConfig c s →
    p = c.payload →
    (s.ref 2).qualified = false →
    ∃ z, exec (.ptpClockConfig c) s = .next z ∧
      Answered c 0x0645 St.ok [] z ∧
      z.net = { s.net with priority1 := byteAt p 0, priority2 := byteAt p 1, classFollowing := byteAt p 2, acceptClass := byteAt p 3, grantMax := rd p 4 2, delayFilter := rd p 6 2, frameRate := byteAt p 8, smFlags := byteAt p 9, clockId := slice p 12 8 } ∧
      SetsOnly [.net] c s z) ∧
  (∀ (c : Call) (p : Bytes) (n : Nat) (s : State),
    Served cmdPtpAsymSet c s →
    p = c.payload →
    n = byteAt p 0 →
    ∃ z, exec (.ptpAsymSet c) s = .next z ∧
      Answered c 0x0646 St.ok [] z ∧
      z.inst n = { s.inst n with txExt := rdS p 4 4, rxExt := rdS p 8 4, asym := rdS p 12 4 } ∧
      z.net = { s.net with ptp := z.net.ptp } ∧
      (∀ q : Fin 6, q.val ≠ n → z.inst q = s.inst q) ∧
      SetsOnly [.net] c s z) ∧
  (∀ (c : Call) (p : Bytes) (s : State),
    Served cmdPtpCalRun c s →
    MayAccept c s →
    p = c.payload →
    timInTaken s (byteAt p 1) = false →
    s.net.cal = none →
    ∃ z, exec (.ptpCalRun c) s = .next z ∧
      AcceptedAs c 0x0647 (fun j => j.waits) z ∧
      z.net = { s.net with cal := some { port := byteAt p 0, input := byteAt p 1, role := byteAt p 2, samples := rd p 4 2, refDelay := rdS p 8 4 } } ∧
      (vat z.timebase.timIn (byteAt p 1)).mode = 2 ∧
      StartsOnly [.net, .timebase] c s z) ∧
  (∀ (errs : List (Option Int)) (x : PtpCal) (j : Job) (n : Nat) (s : State),
    s.powered = true →
    s.campel = true →
    s.supply.holdUp = false →
    j.origin = none →
    eventRing s j.tenant = some n →
    (s.ring n).lost = 0 →
    (s.ring n).log2 ≤ 12 →
    s.net.cal = some x →
    findJob s 0x0647 0 = some j →
    errs.length = x.samples →
    x.samples < 2 * (x.samples - (errs.filterMap id).length) →
    x.input < 4 →
    ∃ z, exec (.ptpCalRunEnd errs) s = .next z ∧
      z.jobs = s.jobs.erase j ∧
      EventPosted n (eventDesc 1 St.notReady 0x0647 j.token j.tenant s.cascade.position [] s.timebase.now) s z ∧
      z.net = { s.net with cal := none } ∧
      (vat z.timebase.timIn x.input).mode = 0 ∧
      KeepsBut [.net, .timebase, .jobs, .loft, .tenants, .rings, .views, .out] s z) ∧
  (∀ (errs : List (Option Int)) (x : PtpCal) (j : Job) (es : List Int) (n : Nat) (s : State),
    s.powered = true →
    s.campel = true →
    s.supply.holdUp = false →
    j.origin = none →
    eventRing s j.tenant = some n →
    (s.ring n).lost = 0 →
    (s.ring n).log2 ≤ 12 →
    s.net.cal = some x →
    findJob s 0x0647 0 = some j →
    errs.length = x.samples →
    es = (errs.filterMap id).map (fun e => e - x.refDelay) →
    2 * (x.samples - es.length) ≤ x.samples →
    (s.ten j.tenant).held + 1 ≤ (s.ten j.tenant).quota →
    s.loft.tags.length + s.loft.gone.length + s.loft.testing.length + 1 < 2064384 →
    s.loft.tags.all (fun p => decide (p.2.gen < 256)) = true →
    j.tenant < 8 →
    x.input < 4 →
    ∃ z, exec (.ptpCalRunEnd errs) s = .next z ∧ ∃ h : Nat,
      z.net = { s.net with cal := none } ∧
      (vat z.timebase.timIn x.input).mode = 0 ∧
      z.jobs = s.jobs.erase j ∧
      EventPosted n (eventDesc 1 St.ok 0x0647 j.token j.tenant s.cascade.position (leBytes 4 h) s.timebase.now) s z ∧
      usable z j.tenant h = true ∧
      Machine.loftRead z (yAddr (hIndex h) 0) 16 = leInt 4 (meanOf es) ++ leBytes 4 (stddevOf es) ++ leBytes 2 x.samples ++ leBytes 2 (x.samples - es.length) ++ leInt 4 (if x.role = 0 then (s.inst x.port).asym + meanOf es else (s.inst x.port).asym - meanOf es) ∧
      KeepsBut [.net, .timebase, .jobs, .loft, .tenants, .rings, .views, .out] s z) ∧
  (∀ (c : Call) (p : Bytes) (n : Nat) (s : State),
    Served cmdPtpAuthConfig c s →
    p = c.payload →
    n = byteAt p 0 →
    (byteAt p 2 = 0 ∨ (keyNamed s c.t (byteAt p 3) = true ∧ keyNamed s c.t (byteAt p 8) = true)) →
    ∃ z, exec (.ptpAuthConfig c) s = .next z ∧
      Answered c 0x0648 St.ok [] z ∧
      z.inst n = { s.inst n with spp := byteAt p 1, authFlags := byteAt p 2, slotCur := byteAt p 3, keyCur := rd p 4 4, slotNext := byteAt p 8, keyNext := rd p 12 4 } ∧
      z.net = { s.net with ptp := z.net.ptp } ∧
      (∀ q : Fin 6, q.val ≠ n → z.inst q = s.inst q) ∧
      SetsOnly [.net] c s z) ∧
  (∀ (c : Call) (i : Nat) (f : Follower) (s : State),
    Served cmdPtpFollowerDrop c s →
    i = rd c.payload 0 2 →
    mget s.net.followers i = some f →
    (s.inst f.port).active = true →
    portRuns s f.port = true →
    (s.inst f.port).authFlags = 0 →
    (s.port f.port).txLpi = false →
    ∃ z, exec (.ptpFollowerDrop c) s = .next z ∧
      Answered c 0x0649 St.ok [] z ∧
      z.net.followers = mdel s.net.followers i ∧
      (∀ t ∈ [0x0B, 0, 9], (f.grant t).isSome = true → Out.ptp f.port 0x0C i (leBytes 1 6 ++ leBytes 1 t ++ leInt 1 0 ++ leBytes 4 0) ∈ z.out) ∧
      z.net = { s.net with followers := z.net.followers, port := z.net.port } ∧
      SetsOnly [.net] c s z) ∧
  (∀ (c : Call) (s : State),
    Served cmdPtpCounters c s →
    ∃ z, exec (.ptpCounters c) s = .next z ∧
      Answered c 0x064A St.ok ((s.inst (byteAt c.payload 0)).counters.toList.flatMap (leBytes 8)) z ∧
      ReadsOnly c s z)

/-- PA_FLT ends the gate and is recorded; within 10 ms it falls, then the channel faults. A valid wedge in tracking
sets the wedge, its cylinder and its PES and the write condition of R555; the fourth in a row on track ends a seek; a
missed one counts, and the eighth loses the servo. A search of 20 ms retracts the heads blind. A seek error counts,
raises 82 and is retried once, then the waiting sector fails. A load that does not complete is undone and tried again,
then the channel faults. Parked heads raise 85 and end the unload. Where a clause meets what the spec leaves open it
states the model's reading: log entries 123, 124, 176. From R554, R555, R570, R571, R572, R574, R575, R576, R578,
R579, R580, Table CHN.8. -/
def Obligations.ServoFollowsTheWedges : Prop :=
  (∀ (b : BitVec 8) (f : Format) (s : State),
    Up s →
    s.supply.isl.channel = true →
    s.channel.flt = false →
    CanRecord s →
    s.channel.format = some f →
    ∃ z, exec (.paFltRise b) s = .next z ∧
      z.channel = { s.channel with flt := true, wg := false, writeOk := false } ∧
      .preamp (2 ^ 15 + f.paFaultReg % 128 * 256) ∈ z.out ∧
      Recorded 0x04A5 3 0 s z ∧
      KeepsBut [.channel, .recorder, .views, .out] s z) ∧
  (∀ (ms : Nat) (s : State),
    s.powered = true →
    s.channel.flt = true →
    ms < 10 →
    ∃ z, exec (.paFltPersist ms) s = .next z ∧
      z.channel = { s.channel with flt := false } ∧
      KeepsBut [.channel] s z) ∧
  (∀ (ms : Nat) (s : State),
    s.powered = true →
    s.channel.flt = true →
    10 ≤ ms →
    s.diskq.cmds = [] →
    headsLoaded s = true →
    s.channel.state ≠ .unloading →
    findJob s 0x0484 1 = none →
    s.motor.a.state ≠ .locked ∧ s.motor.a.state ≠ .pullIn →
    ∃ z, exec (.paFltPersist ms) s = .next z ∧
      z.channel.state = .unloading ∧
      z.channel.faultNext = true ∧
      z.channel.wg = false ∧
      z.channel.gates = (false, false, false) ∧
      z.out = .vcm (if s.channel.servoValid then 1 else 2) 0 :: s.out ∧
      KeepsBut [.channel, .motor, .out] s z) ∧
  (∀ (n g a b c d t q : Nat) (s : State),
    s.powered = true →
    s.supply.isl.servo = true →
    s.channel.searching = false →
    s.channel.state = .tracking →
    n = nextWedge s →
    ((grayDecode g : Int) - s.channel.target).natAbs ≤ 2 →
    ∃ z, exec (.servoWedge true true n s.channel.head g a b c d t q) s = .next z ∧
      z.channel = { s.channel with wedge := n, wedgeMissed := false, wedgeTick := t, cyl := grayDecode g, pes := pesOf (grayDecode g) a b c d, missedRun := 0, headMismatch := 0, searchRun := s.channel.searchRun + 1, onRead := if grayDecode g = s.channel.target ∧ (pesOf (grayDecode g) a b c d).natAbs ≤ 256 then s.channel.onRead + 1 else 0, onWrite := z.channel.onWrite, writeOk := z.channel.writeOk } ∧
      z.channel.writeOk = (decide (grayDecode g = s.channel.target ∧ (pesOf (grayDecode g) a b c d - jogAt s s.channel.head (grayDecode g)).natAbs ≤ writeLimit s) && !s.channel.flt && s.supply.mode == .run && s.channel.servoValid) ∧
      KeepsBut [.channel] s z) ∧
  (∀ (n g a b c d t q : Nat) (s : State),
    s.powered = true →
    s.supply.isl.servo = true →
    s.channel.searching = false →
    s.channel.state = .seeking →
    s.channel.loadSeek = false →
    n = nextWedge s →
    (grayDecode g : Int) - q ≤ 64 →
    (q : Int) - grayDecode g ≤ 64 →
    grayDecode g = s.channel.target →
    (pesOf (grayDecode g) a b c d).natAbs ≤ 256 →
    s.channel.onRead = 3 →
    ∃ z, exec (.servoWedge true true n s.channel.head g a b c d t q) s = .next z ∧
      z.channel.state = .tracking ∧
      z.channel.wedge = n ∧
      z.channel.cyl = grayDecode g ∧
      z.channel.pes = pesOf (grayDecode g) a b c d ∧
      KeepsBut [.channel] s z) ∧
  (∀ (p : Bool) (n h g a b c d t q : Nat) (s : State),
    s.powered = true →
    s.supply.isl.servo = true →
    s.channel.searching = false →
    (s.channel.state = .tracking ∨ s.channel.state = .seeking) →
    s.channel.missedRun < 7 →
    ∃ z, exec (.servoWedge false p n h g a b c d t q) s = .next z ∧
      z.channel = { s.channel with wedgesMissed := inc32 s.channel.wedgesMissed, wedgeMissed := true, missedRun := s.channel.missedRun + 1, searchRun := 0, onRead := 0, onWrite := 0, writeOk := false, headMismatch := 0 } ∧
      KeepsBut [.channel] s z) ∧
  (∀ (p : Bool) (n h g a b c d t q : Nat) (s : State),
    Up s →
    CanRecord s →
    s.supply.isl.servo = true →
    s.channel.searching = false →
    (s.channel.state = .tracking ∨ s.channel.state = .seeking) →
    s.channel.servoValid = true →
    7 ≤ s.channel.missedRun →
    s.motor.a.state ≠ .locked ∧ s.motor.a.state ≠ .pullIn →
    ∃ z, exec (.servoWedge false p n h g a b c d t q) s = .next z ∧
      z.channel.searching = true ∧
      z.channel.servoValid = false ∧
      z.channel.wg = false ∧
      z.channel.wedgesMissed = inc32 s.channel.wedgesMissed ∧
      Raised 81 s z ∧
      Recorded 0x04A0 4 0 s z ∧
      KeepsBut [.channel, .motor, .recorder, .views, .out] s z) ∧
  (∀ (us : Nat) (s : State),
    s.powered = true →
    s.channel.searching = true →
    20000 ≤ us →
    s.channel.servoValid = false →
    (s.channel.state = .tracking ∨ s.channel.state = .seeking) →
    s.channel.loadRetry = false →
    findJob s 0x0484 1 = none →
    s.motor.a.state ≠ .locked ∧ s.motor.a.state ≠ .pullIn →
    ∃ z, exec (.servoSearchEnd us) s = .next z ∧
      z.channel.state = .unloading ∧
      z.channel.blind = true ∧
      z.channel.searching = false ∧
      z.out = .vcm 2 0 :: s.out ∧
      KeepsBut [.channel, .motor, .out] s z) ∧
  (∀ (ms : Nat) (e : Bool) (w : List (Nat × Nat)) (s : State),
    Up s →
    CanRecord s →
    s.channel.state = .seeking →
    s.channel.loadSeek = false →
    50 ≤ ms →
    s.channel.seekTries = 0 →
    ∃ z, exec (.seekError ms e w) s = .next z ∧
      z.channel = { s.channel with seekErrors := inc32 s.channel.seekErrors, onRead := 0, onWrite := 0, writeOk := false, seekTries := 1 } ∧
      .vcm 0 (homeCyl s) ∈ z.out ∧
      .vcm 0 s.channel.target ∈ z.out ∧
      Raised 82 s z ∧
      Recorded 0x04A1 3 0 s z ∧
      KeepsBut [.channel, .recorder, .views, .out] s z) ∧
  (∀ (ms : Nat) (e : Bool) (i k : Nat) (c : DiskCmd) (s : State),
    Up s →
    CanRecord s →
    s.channel.state = .seeking →
    s.channel.loadSeek = false →
    50 ≤ ms →
    s.channel.seekTries ≠ 0 →
    findCmd s i = some c →
    sectorOpen c k = true →
    ∃ z, exec (.seekError ms e [(i, k)]) s = .next z ∧
      z.channel = { s.channel with seekErrors := inc32 s.channel.seekErrors, seekTries := 0 } ∧
      (findCmd z i).map (fun d => (d.failed, d.fail)) = some (k :: c.failed, dskWorse c.fail St.mediumError) ∧
      Raised 82 s z ∧
      Recorded 0x04A1 3 0 s z ∧
      KeepsBut [.channel, .diskq, .recorder, .views, .out] s z) ∧
  (∀ (ms : Nat) (s : State),
    s.powered = true →
    500 ≤ ms →
    s.channel.state = .loading →
    s.channel.loadTries = 0 →
    s.motor.a.state ≠ .locked ∧ s.motor.a.state ≠ .pullIn →
    ∃ z, exec (.loadTimeout ms) s = .next z ∧
      z.channel.state = .unloading ∧
      z.channel.loadRetry = true ∧
      z.channel.loadTries = 1 ∧
      z.out = .vcm (if s.channel.servoValid then 1 else 2) 0 :: s.out ∧
      KeepsBut [.channel, .motor, .out] s z) ∧
  (∀ (ms : Nat) (s : State),
    Up s →
    CanRecord s →
    500 ≤ ms →
    s.channel.state = .loading →
    s.channel.loadTries ≠ 0 →
    s.diskq.cmds = [] →
    findJob s 0x0484 1 = none →
    s.motor.a.state ≠ .locked ∧ s.motor.a.state ≠ .pullIn →
    ∃ z, exec (.loadTimeout ms) s = .next z ∧
      z.channel.state = .unloading ∧
      z.channel.faultNext = true ∧
      Raised 81 s z ∧
      Recorded 0x04A7 4 0 s z ∧
      KeepsBut [.channel, .motor, .recorder, .views, .out] s z) ∧
  (∀ (s : State),
    Up s →
    s.channel.state = .unloading →
    s.channel.loadRetry = false →
    s.diskq.cmds = [] →
    s.motor.a.stopWait = false →
    findJob s 0x0484 0 = none →
    findJob s 0x0484 1 = none →
    s.supply.holdUp = false →
    s.supply.tripping = false →
    s.supply.change = none →
    ∃ z, exec (.headsParked) s = .next z ∧
      z.channel.state = (if s.channel.faultNext then .fault else .unloaded) ∧
      z.channel.faultNext = false ∧
      z.channel.searching = false ∧
      (s.channel.wg = false → z.channel.paMode = 3) ∧
      Raised 85 s z ∧
      KeepsBut [.channel, .views, .out] s z)

/-- A verified plain write puts the data of its yealm and the stamp of R633 on the medium and settles the sector; one
that is not verified counts, raises 83 and is tried again. A sector read good is delivered to its yealm and settled;
one that is not is read again up to READ_RETRIES and then fails with MEDIUM_ERROR. A slice that fails its known-answer
test is fenced, recorded and raises 84. A CHN_COMMIT that ends puts the setup in force or answers BAD_FIELD. Where a
clause meets what the spec leaves open it states the model's reading: log entry 40. From R566, R586, R587, R588, R589,
R609, R624, R625, R626, R633, R670, R602. -/
def Obligations.SectorsAreVerifiedAndRead : Prop :=
  (∀ (id i sec ns frac : Nat) (other : Bool) (c : DiskCmd) (s : State),
    s.powered = true →
    mediumWritable s = true →
    findCmd s id = some c →
    c.cls = 0x21 →
    sectorOpen c i = true →
    c.abort = none →
    s.loft.poisoned (yAddr (hIndex (c.handles.getD i 0)) 0) 4096 = false →
    c.sealLoad = 0 →
    c.xtsLoad = 0 →
    c.onSpare.contains i = false →
    ∃ z, exec (.verifyDone false id i sec ns frac true other none) s = .next z ∧
      mget z.channel.medium (c.lba + i) = some { data := Machine.loftRead s (yAddr (hIndex (c.handles.getD i 0)) 0) 4096, stamp := makeStamp s { sec := sec % 2 ^ 48, ns := ns % 1000000000, frac := frac % 65536 } c.tenant 0 0xFFFF c.hostTag (c.lba + i) none (Machine.loftRead s (yAddr (hIndex (c.handles.getD i 0)) 0) 4096), verified := true } ∧
      (∀ l, l ≠ c.lba + i → mget z.channel.medium l = mget s.channel.medium l) ∧
      (findCmd z id).map (·.done) = some (i :: c.done) ∧
      z.diskq.writeCount = s.diskq.writeCount + 1 ∧
      KeepsBut [.channel, .diskq] s z) ∧
  (∀ (id i sec ns frac : Nat) (other : Bool) (c : DiskCmd) (s : State),
    s.powered = true →
    Up s →
    mediumWritable s = true →
    findCmd s id = some c →
    c.cls = 0x21 →
    sectorOpen c i = true →
    c.abort = none →
    s.loft.poisoned (yAddr (hIndex (c.handles.getD i 0)) 0) 4096 = false →
    c.sealLoad = 0 →
    c.xtsLoad = 0 →
    c.onSpare.contains i = false →
    mgetD c.tries i 0 = 0 →
    1 ≤ verifyRetries s →
    ∃ z, exec (.verifyDone false id i sec ns frac false other none) s = .next z ∧
      z.channel.verifyFails = inc32 s.channel.verifyFails ∧
      (mget z.channel.medium (c.lba + i)).map (·.verified) = some false ∧
      (findCmd z id).map (fun d => (d.done, d.failed, mgetD d.tries i 0)) = some (c.done, c.failed, 1) ∧
      Raised 83 s z ∧
      KeepsBut [.channel, .diskq, .views, .out] s z) ∧
  (∀ (id i : Nat) (other : Bool) (c : DiskCmd) (s : State),
    s.powered = true →
    mediumReady s = true →
    findCmd s id = some c →
    c.cls = 0x20 →
    sectorOpen c i = true →
    c.abort = none →
    (mget s.channel.medium (c.lba + i)).isSome = true →
    (mgetD s.channel.medium (c.lba + i) {}).verified = true →
    (mgetD s.channel.medium (c.lba + i) {}).stamp.lba = c.lba + i →
    (mgetD s.channel.medium (c.lba + i) {}).data.length = 4096 →
    c.stamps = 0 →
    c.sealLoad = 0 →
    c.xtsLoad = 0 →
    c.flags.testBit 1 = false →
    hIndex (c.handles.getD i 0) < 2 ^ 22 →
    ∃ z, exec (.readDecodeDone id i true other none) s = .next z ∧
      Machine.loftRead z (yAddr (hIndex (c.handles.getD i 0)) 0) 4096 = (mgetD s.channel.medium (c.lba + i) {}).data ∧
      (∀ a, a < yAddr (hIndex (c.handles.getD i 0)) 0 ∨ yAddr (hIndex (c.handles.getD i 0)) 0 + 4096 ≤ a → z.byte a = s.byte a) ∧
      (findCmd z id).map (·.done) = some (i :: c.done) ∧
      KeepsBut [.diskq, .loft, .free] s z) ∧
  (∀ (id i : Nat) (other : Bool) (c : DiskCmd) (s : State),
    s.powered = true →
    mediumReady s = true →
    findCmd s id = some c →
    c.cls = 0x20 →
    sectorOpen c i = true →
    c.abort = none →
    ∃ z, exec (.readDecodeDone id i false other none) s = .next z ∧
      (findCmd z id).map (fun d => (d.failed, d.fail, mgetD d.tries i 0)) = some (if mgetD c.tries i 0 < readRetries s then (c.failed, c.fail, mgetD c.tries i 0 + 1) else (i :: c.failed, dskWorse c.fail St.mediumError, mgetD c.tries i 0)) ∧
      (findCmd z id).map (·.done) = some c.done ∧
      KeepsBut [.diskq] s z) ∧
  (∀ (i k : Fin 4) (s : State),
    Up s →
    CanRecord s →
    s.supply.isl.channel = true →
    vat s.channel.slices i = true →
    vat s.channel.slices k = true →
    k ≠ i →
    ∃ z, exec (.sliceKnownAnswerTest i false) s = .next z ∧
      z.channel = { s.channel with slices := vset s.channel.slices i false } ∧
      Raised 84 s z ∧
      Recorded 0x04A3 4 0 s z ∧
      KeepsBut [.channel, .recorder, .views, .out] s z) ∧
  (∀ (i : Fin 4) (s : State),
    s.powered = true →
    ∃ z, exec (.sliceKnownAnswerTest i true) s = .next z ∧
      z = s) ∧
  (∀ (n : Fin 9) (tok r : Nat) (l : List Int) (j : Job) (s : State),
    s.powered = true →
    s.campel = true →
    s.supply.holdUp = false →
    s.jobs.find? (fun j => j.tenant == n.val && j.token == tok && !j.waits && j.ended.isNone) = some j →
    j.origin = none →
    j.op = 0x0483 →
    eventRing s n.val = some r →
    (s.ring r).lost = 0 →
    (s.ring r).log2 ≤ 12 →
    formatBad s.channel.draft = true →
    ∃ z, exec (.asyncCompletion n tok none l) s = .next z ∧
      z.channel = s.channel ∧
      z.jobs = s.jobs.erase j ∧
      EventPosted r (eventDesc 1 St.badField 0x0483 tok n.val s.cascade.position [] s.timebase.now) s z ∧
      KeepsBut [.tenants, .jobs, .loft, .rings, .views, .out] s z)

/-- CHN_HDA_SET and CHN_ZONE_SET, with the heads unloaded and channel A STOPPED, set the setup being built and nothing
else. CHN_HEADS loads, or unloads, and waits for the heads. CHN_STATUS answers Table CHN.8 and changes nothing but the
mailbox. CHN_PA_XFER sends its frame. CHN_COMMIT, CHN_CAL, CHN_DEFECT_READ, CHN_DEFECT_ADD and CHN_SLICE_ENABLE are
accepted as work with their operands; CHN_DEFECT_READ pins its yealm. Where a clause meets what the spec leaves open
it states the model's reading: log entry 22. From R548, R551, R552, R569, R578, R591, R601, R602, Table CHN.1, Table
CHN.2, Table CHN.7, Table CHN.8. -/
def Obligations.ChannelRequestsServe : Prop :=
  (∀ (c : Call) (s : State),
    Served cmdChnHdaSet c s →
    headsLoaded s = false →
    s.motor.a.state = .stopped →
    ∃ z, exec (.chnHdaSet c) s = .next z ∧
      Answered c 0x0481 St.ok [] z ∧
      z.channel = { s.channel with draft := setHda c.payload s.channel.draft } ∧
      SetsOnly [.channel] c s z) ∧
  (∀ (c : Call) (s : State),
    Served cmdChnZoneSet c s →
    headsLoaded s = false →
    s.motor.a.state = .stopped →
    ∃ z, exec (.chnZoneSet c) s = .next z ∧
      Answered c 0x0482 St.ok [] z ∧
      z.channel = { s.channel with draft := setZone c.payload s.channel.draft } ∧
      SetsOnly [.channel] c s z) ∧
  (∀ (c : Call) (s : State),
    Served cmdChnCommit c s →
    MayAccept c s →
    ∃ z, exec (.chnCommit c) s = .next z ∧
      AcceptedAs c 0x0483 (fun _ => true) z ∧
      StartsOnly [] c s z) ∧
  (∀ (c : Call) (s : State),
    Served cmdChnHeads c s →
    MayAccept c s →
    byteAt c.payload 0 = 1 →
    loadable s = true →
    ∃ z, exec (.chnHeads c) s = .next z ∧
      AcceptedAs c 0x0484 (fun j => j.waits && j.key == 1) z ∧
      z.channel.state = .loading ∧
      z.channel.searching = true ∧
      .vcm 3 0 ∈ z.out ∧
      StartsOnly [.channel] c s z) ∧
  (∀ (c : Call) (s : State),
    Served cmdChnHeads c s →
    MayAccept c s →
    byteAt c.payload 0 = 0 →
    headsLoaded s = true →
    s.channel.state ≠ .unloading →
    findJob s 0x0484 1 = none →
    s.motor.a.state ≠ .locked ∧ s.motor.a.state ≠ .pullIn →
    ∃ z, exec (.chnHeads c) s = .next z ∧
      AcceptedAs c 0x0484 (fun j => j.waits && j.key == 0) z ∧
      z.channel.state = .unloading ∧
      z.channel.wg = false ∧
      .vcm (if s.channel.servoValid then 1 else 2) 0 ∈ z.out ∧
      StartsOnly [.channel, .motor] c s z) ∧
  (∀ (c : Call) (p : Bytes) (s : State),
    Served cmdChnCal c s →
    MayAccept c s →
    p = c.payload →
    (if byteAt p 0 = 1 then headsLoaded s = false else s.channel.state = .tracking ∨ s.channel.state = .seeking) →
    ∃ z, exec (.chnCal c) s = .next z ∧
      AcceptedAs c 0x0485 (fun j => j.key == byteAt p 0 && j.data == p) z ∧
      StartsOnly [] c s z) ∧
  (∀ (c : Call) (x : Channel) (m : Nat) (s : State),
    Served cmdChnStatus c s →
    x = s.channel →
    m = maskOf (List.range 4) (fun i => vat x.slices i) →
    ∃ z, exec (.chnStatus c) s = .next z ∧
      Answered c 0x0486 St.ok (leBytes 1 (chnCode x.state) ++ leBytes 1 x.head ++ leBytes 1 (m + 16 * (15 - m)) ++ leBytes 1 (b2n x.format.isSome + 2 * b2n (calComplete s) + 4 * b2n x.servoValid) ++ leBytes 4 x.cyl ++ leInt 2 x.pes ++ leBytes 2 (x.cal.unloadMs.getD 0) ++ leBytes 6 x.maxLba ++ zeros 2 ++ leBytes 4 x.sparesFree ++ leBytes 4 (x.defects.filter fun d => d.kind = 2).length ++ leBytes 4 x.wedgesMissed ++ leBytes 4 x.verifyFails ++ leBytes 4 x.seekErrors) z ∧
      ReadsOnly c s z) ∧
  (∀ (c : Call) (p : Bytes) (s : State),
    Served cmdChnPaXfer c s →
    p = c.payload →
    s.channel.wg = false →
    ∃ z, exec (.chnPaXfer c) s = .next z ∧ ∃ v : Nat,
      Answered c 0x0487 St.ok (leBytes 1 v ++ zeros 3) z ∧
      .preamp (b2n (byteAt p 2 == 1) * 2 ^ 15 + byteAt p 0 % 128 * 256 + byteAt p 1 % 256) ∈ z.out ∧
      z.channel = { s.channel with paRegs := if byteAt p 2 = 1 then s.channel.paRegs else mset s.channel.paRegs (byteAt p 0) (byteAt p 1) } ∧
      SetsOnly [.channel, .free] c s z) ∧
  (∀ (c : Call) (i : Nat) (s : State),
    Served cmdChnDefectRead c s →
    MayAccept c s →
    i = hIndex (rd c.payload 4 4) →
    ∃ z, exec (.chnDefectRead c) s = .next z ∧
      AcceptedAs c 0x0488 (fun j => j.pins == [i] && j.data == c.payload) z ∧
      (z.loft.tag i).pins = (s.loft.tag i).pins + 1 ∧
      z.loft.mem = s.loft.mem ∧
      StartsOnly [.loft] c s z) ∧
  (∀ (c : Call) (s : State),
    Served cmdChnDefectAdd c s →
    MayAccept c s →
    s.channel.format.isSome = true →
    rd c.payload 0 6 ≤ s.channel.maxLba →
    ∃ z, exec (.chnDefectAdd c) s = .next z ∧
      AcceptedAs c 0x0489 (fun j => j.data == c.payload) z ∧
      StartsOnly [] c s z) ∧
  (∀ (c : Call) (s : State),
    Served cmdChnSliceEnable c s →
    MayAccept c s →
    ∃ z, exec (.chnSliceEnable c) s = .next z ∧
      AcceptedAs c 0x048A (fun j => j.key == byteAt c.payload 0) z ∧
      StartsOnly [] c s z)

/-- A consumable NET_SEND with right fields, on a port with a link, pins its yealms and its frame waits at the port. A
consumable disk descriptor that passes every check of Table DSK.3 and names no key is admitted in one step: tag, lock
entry, granted at once unless an earlier entry conflicts, pins; every other command in flight is as before. HEAD
advances and no byte of the Loft changes. Where a clause meets what the spec leaves open it states the model's
reading: log entries 126, 131. From R372, R373, R607, R608, R609, R612, R613, R617, R619, Table DSK.2, Table DSK.3,
Table ETH.2. -/
def Obligations.SubmissionsEnterTheirQueues : Prop :=
  (∀ (n : Fin 32) (p : Nat) (d : Bytes) (s : State),
    Consumable n.val p d s →
    byteAt d 0 = 0x10 →
    s.owner 1 = (s.ring n).owner →
    netFields s (s.ring n).owner d = true →
    (s.port (byteAt d 4)).link = true →
    ∃ z, exec (.netSend n) s = .next z ∧
      (z.port (byteAt d 4)).txq = (s.port (byteAt d 4)).txq ++ [{ ring := some n.val, tenant := (s.ring n).owner, tag := rd d 2 2, flags := byteAt d 1, len := rd d 6 2, handles := netHandles d }] ∧
      z.loft = (pinAll ((netHandles d).map hIndex) s).loft ∧
      (∀ q : Fin 6, q.val ≠ byteAt d 4 → z.port q = s.port q) ∧
      (z.ring n).head = ((s.ring n).head + 1) % 2 ^ 32 ∧
      z.loft.mem = s.loft.mem ∧
      KeepsBut [.net, .rings, .loft, .views, .out] s z) ∧
  (∀ (n : Fin 32) (p : Nat) (d : Bytes) (s : State),
    Consumable n.val p d s →
    byteAt d 0 = 0x10 →
    s.owner 1 = (s.ring n).owner →
    netFields s (s.ring n).owner d = true →
    (s.port (byteAt d 4)).link = false →
    ∃ z, exec (.netSend n) s = .next z ∧
      Completed p (completeDesc 0x10 St.notReady (rd d 2 2) 0 0 [] s.timebase.now) s z ∧
      (z.ring n).head = ((s.ring n).head + 1) % 2 ^ 32 ∧
      KeepsBut [.rings, .loft, .views, .out] s z) ∧
  (∀ (n : Fin 32) (p : Nat) (d : Bytes) (s : State),
    Consumable n.val p d s →
    byteAt d 0 = 0x20 →
    diskStatus s (s.ring n).owner d = none →
    dFlag d 1 = false →
    dFlag d 2 = false →
    loadable s = false →
    ∃ z, exec (.diskRead n) s = .next z ∧
      z.diskq = { s.diskq with cmds := z.diskq.cmds, nextId := s.diskq.nextId + 1 } ∧
      z.diskq.cmds.map (fun c => ({ c with pins := [] } : DiskCmd)) = s.diskq.cmds.map (fun c => ({ c with pins := [] } : DiskCmd)) ++ [{ id := s.diskq.nextId, ring := n.val, tenant := (s.ring n).owner, cls := 0x20, tag := rd d 2 2, flags := byteAt d 1, lba := dLba d, count := dCount d, handles := dHandles s d, stamps := if dFlag d 3 then dStamps d else 0, hostTag := rd d 20 4, sealSlot := byteAt d 24, xtsSlot := byteAt d 25, at_ := s.up, granted := !(s.diskq.cmds.any (conflicts { cls := 0x20, lba := dLba d, count := dCount d })) }] ∧
      z.diskq.cmds.dropLast = s.diskq.cmds ∧
      (dFlag d 0 = true → (z.loft.tag (hIndex (dHandle d))).pins = (s.loft.tag (hIndex (dHandle d))).pins + 1) ∧
      z.loft.mem = s.loft.mem ∧
      (z.ring n).head = ((s.ring n).head + 1) % 2 ^ 32 ∧
      KeepsBut [.diskq, .rings, .loft, .views, .out] s z) ∧
  (∀ (n : Fin 32) (p : Nat) (d : Bytes) (s : State),
    Consumable n.val p d s →
    byteAt d 0 = 0x21 →
    diskStatus s (s.ring n).owner d = none →
    dFlag d 1 = false →
    dFlag d 2 = false →
    loadable s = false →
    ∃ z, exec (.diskWrite n) s = .next z ∧
      z.diskq = { s.diskq with cmds := z.diskq.cmds, nextId := s.diskq.nextId + 1 } ∧
      z.diskq.cmds.map (fun c => ({ c with pins := [] } : DiskCmd)) = s.diskq.cmds.map (fun c => ({ c with pins := [] } : DiskCmd)) ++ [{ id := s.diskq.nextId, ring := n.val, tenant := (s.ring n).owner, cls := 0x21, tag := rd d 2 2, flags := byteAt d 1, lba := dLba d, count := dCount d, handles := dHandles s d, stamps := if dFlag d 3 then dStamps d else 0, hostTag := rd d 20 4, sealSlot := byteAt d 24, xtsSlot := byteAt d 25, at_ := s.up, granted := !(s.diskq.cmds.any (conflicts { cls := 0x21, lba := dLba d, count := dCount d })) }] ∧
      z.diskq.cmds.dropLast = s.diskq.cmds ∧
      (dFlag d 0 = true → (z.loft.tag (hIndex (dHandle d))).pins = (s.loft.tag (hIndex (dHandle d))).pins + 1) ∧
      z.loft.mem = s.loft.mem ∧
      (z.ring n).head = ((s.ring n).head + 1) % 2 ^ 32 ∧
      KeepsBut [.diskq, .rings, .loft, .views, .out] s z) ∧
  (∀ (n : Fin 32) (p : Nat) (d : Bytes) (s : State),
    Consumable n.val p d s →
    byteAt d 0 = 0x22 →
    diskStatus s (s.ring n).owner d = none →
    dFlag d 1 = false →
    dFlag d 2 = false →
    loadable s = false →
    ∃ z, exec (.diskStampRead n) s = .next z ∧
      z.diskq = { s.diskq with cmds := z.diskq.cmds, nextId := s.diskq.nextId + 1 } ∧
      z.diskq.cmds.map (fun c => ({ c with pins := [] } : DiskCmd)) = s.diskq.cmds.map (fun c => ({ c with pins := [] } : DiskCmd)) ++ [{ id := s.diskq.nextId, ring := n.val, tenant := (s.ring n).owner, cls := 0x22, tag := rd d 2 2, flags := byteAt d 1, lba := dLba d, count := dCount d, handles := dHandles s d, stamps := dStamps d, hostTag := rd d 20 4, sealSlot := byteAt d 24, xtsSlot := byteAt d 25, at_ := s.up, granted := !(s.diskq.cmds.any (conflicts { cls := 0x22, lba := dLba d, count := dCount d })) }] ∧
      z.diskq.cmds.dropLast = s.diskq.cmds ∧
      (z.loft.tag (hIndex (dStamps d))).pins = (s.loft.tag (hIndex (dStamps d))).pins + 1 ∧
      z.loft.mem = s.loft.mem ∧
      (z.ring n).head = ((s.ring n).head + 1) % 2 ^ 32 ∧
      KeepsBut [.diskq, .rings, .loft, .views, .out] s z) ∧
  (∀ (n : Fin 32) (p st : Nat) (d : Bytes) (s : State),
    Consumable n.val p d s →
    byteAt d 0 = 0x20 →
    diskStatus s (s.ring n).owner d = some st →
    (s.supply.mode ≠ .safe ∨ (s.ring n).owner = 0) →
    ∃ z, exec (.diskRead n) s = .next z ∧
      Completed p (completeDesc 0x20 st (rd d 2 2) 0 0 (leBytes 6 (dLba d)) s.timebase.now) s z ∧
      z.diskq = s.diskq ∧
      (z.ring n).head = ((s.ring n).head + 1) % 2 ^ 32 ∧
      KeepsBut [.rings, .loft, .views, .out] s z)

/-- A waiting entry is granted once no earlier entry conflicts; one that has waited 2 s raises 86 and is recorded
once. A command whose sectors are all done leaves the queue and completes OK with its count, FLAGS and RESULT in the
next COMPLETE slot; one with a failed sector completes with the status that counts. DISK_GET_STATUS answers Table
DSK.10 and changes nothing but the mailbox; DISK_TAG_LIMIT sets one limit. Where a clause meets what the spec leaves
open it states the model's reading: log entry 7. From R613, R618, R619, R622, R624, R625, R626, R629, Table DSK.5,
Table DSK.10. -/
def Obligations.DiskQueueGrantsAndCompletes : Prop :=
  (∀ (id : Nat) (c : DiskCmd) (s : State),
    s.powered = true →
    findCmd s id = some c →
    c.granted = false →
    blocker s c = none →
    ∃ z, exec (.lockGrant id) s = .next z ∧
      z.diskq = { s.diskq with cmds := s.diskq.cmds.map fun x => if x.id = id then { x with granted := true } else x } ∧
      KeepsBut [.diskq] s z) ∧
  (∀ (id : Nat) (c b : DiskCmd) (s : State),
    s.powered = true →
    findCmd s id = some c →
    blocker s c = some b →
    ∃ z, exec (.lockGrant id) s = .next z ∧
      z = s) ∧
  (∀ (id ms : Nat) (c : DiskCmd) (s : State),
    Up s →
    CanRecord s →
    findCmd s id = some c →
    c.granted = false →
    c.aged = false →
    2000 ≤ ms →
    ∃ z, exec (.lockAged id ms) s = .next z ∧
      z.diskq = { s.diskq with cmds := s.diskq.cmds.map fun x => if x.id = id then { x with aged := true, cflags := x.cflags ||| 32 } else x } ∧
      Raised 86 s z ∧
      Recorded 0x04B0 3 c.tenant s z ∧
      KeepsBut [.diskq, .recorder, .views, .out] s z) ∧
  (∀ (id p : Nat) (c : DiskCmd) (s : State),
    s.powered = true →
    s.supply.pfail = false →
    findCmd s id = some c →
    c.granted = true →
    c.abort = none →
    c.count ≤ c.done.length + c.failed.length →
    c.sealLoad = 0 →
    c.xtsLoad = 0 →
    s.channel.parkWanted = false →
    c.ring < 32 →
    p < 32 →
    c.ring ≠ p →
    (s.ring c.ring).opened = true →
    (s.ring c.ring).closing = false →
    (s.ring c.ring).pair = some p →
    c.fail = none →
    ∃ z, exec (.diskCommandComplete id) s = .next z ∧
      Completed p (completeDesc c.cls St.ok c.tag c.done.length c.cflags (diskResult c) s.timebase.now) s z ∧
      z.diskq = { s.diskq with cmds := s.diskq.cmds.filter fun x => x.id ≠ c.id } ∧
      (z.ring c.ring).inFlight = (s.ring c.ring).inFlight - 1 ∧
      KeepsBut [.diskq, .rings, .loft, .tenants, .views, .out] s z) ∧
  (∀ (id p st : Nat) (c : DiskCmd) (s : State),
    s.powered = true →
    s.supply.pfail = false →
    findCmd s id = some c →
    c.granted = true →
    c.abort = none →
    c.count ≤ c.done.length + c.failed.length →
    c.sealLoad = 0 →
    c.xtsLoad = 0 →
    s.channel.parkWanted = false →
    c.ring < 32 →
    p < 32 →
    c.ring ≠ p →
    (s.ring c.ring).opened = true →
    (s.ring c.ring).closing = false →
    (s.ring c.ring).pair = some p →
    c.fail = some st →
    st ≠ St.ok →
    c.cls ≠ 0x20 →
    ∃ z, exec (.diskCommandComplete id) s = .next z ∧
      Completed p (completeDesc c.cls st c.tag c.done.length c.cflags (diskResult c) s.timebase.now) s z ∧
      z.diskq = { s.diskq with cmds := s.diskq.cmds.filter fun x => x.id ≠ c.id } ∧
      KeepsBut [.diskq, .rings, .loft, .tenants, .views, .out] s z) ∧
  (∀ (c : Call) (q : DiskQ) (w : List DiskCmd) (s : State),
    Served cmdDiskGetStatus c s →
    q = s.diskq →
    w = q.cmds.filter (fun x => !x.granted) →
    ∃ z, exec (.diskGetStatus c) s = .next z ∧
      Answered c 0x0401 St.ok (leBytes 2 q.cmds.length ++ leBytes 1 (min 255 q.recTags) ++ zeros 1 ++ leBytes 2 (tagsOf s c.t) ++ leBytes 2 (vat q.tagLimit c.t) ++ leBytes 2 (q.cmds.length - w.length) ++ leBytes 2 w.length ++ leBytes 4 (min 0xFFFFFFFF (w.foldl (fun m x => max m (s.up - x.at_)) 0 / 1000))) z ∧
      ReadsOnly c s z) ∧
  (∀ (c : Call) (s : State),
    Served cmdDiskTagLimit c s →
    ∃ z, exec (.diskTagLimit c) s = .next z ∧
      Answered c 0x0402 St.ok [] z ∧
      z.diskq = { s.diskq with tagLimit := vset s.diskq.tagLimit (byteAt c.payload 0) (rd c.payload 2 2) } ∧
      SetsOnly [.diskq] c s z)

/-- A sector whose time has come closes with the data of its packets. A held framed packet whose MERGE_US has passed
is placed and counted. The channel's next closed sector is handed over with the next log LBA; the first of a segment
opens its record. A verified one is on the medium, counted and leaves the channel. A segment that is over, its sectors
verified or lost, closes with its record. A complete block's summary is written with its stamp. Where a clause meets
what the spec leaves open it states the model's reading: log entries 39, 127. From R643, R645, R647, R648, R654, R655,
R656, R657, R642, R633. -/
def Obligations.RecordingClosesAndHandsOver : Prop :=
  (∀ (n : Fin 512) (o : OpenSector) (s : State),
    s.powered = true →
    (recChan s n).opened = [o] →
    closeDue s (recChan s n) o = true →
    ∃ z, exec (.sectorCloseTimer n) s = .next z ∧
      (recChan z n).opened = [] ∧
      (∃ x ∈ (recChan z n).closed, (recChan z n).closed = insClosed x (recChan s n).closed ∧ x.base = o.base ∧ x.segment = o.segment ∧ x.start = o.start ∧ x.stop = o.start + (recChan s n).segmentS ∧ x.firstSeq = firstOf o.packets ∧ x.data = (if (recChan s n).framed then fit 4096 (framedData o.gap none o.packets) else rawData (recChan s n) o) ∧ x.flags = b2n (closingGap (recChan s n) o) + 2 * b2n (o.packets.any fun p => p.2.2.1)) ∧
      (recChan z n).counts = (recChan s n).counts ∧
      (∀ m : Fin 512, m ≠ n → recChan z m = recChan s m) ∧
      KeepsBut [.diskq] s z) ∧
  (∀ (n : Fin 512) (q at_ : Nat) (b : Bytes) (blue : Bool) (t : Time) (s : State),
    s.powered = true →
    (recChan s n).framed = true →
    (recChan s n).heldPkts = [(q, b, blue, t, at_)] →
    at_ + (recChan s n).mergeUs ≤ s.up →
    ∃ z, exec (.framedHoldRelease n) s = .next z ∧
      (recChan z n).heldPkts = [] ∧
      (recChan z n).lastRec = some q ∧
      (recChan z n).lowest = max (recChan s n).lowest (q + 1) ∧
      vat (recChan z n).counts 0 = min (vat (recChan s n).counts 0 + 1) 0xFFFFFFFFFFFFFFFF ∧
      (∀ m : Fin 512, m ≠ n → recChan z m = recChan s m) ∧
      KeepsBut [.diskq, .loft, .tenants] s z) ∧
  (∀ (n : Fin 512) (x : ClosedSector) (g : Segment) (s : State),
    s.powered = true →
    s.supply.mode = .run →
    s.supply.change = none →
    s.supply.pfail = false →
    nextClosed (recChan s n) = some x →
    gapBefore (recChan s n) x = false →
    s.diskq.logArea.isSome = true →
    s.diskq.recTags < 128 →
    (s.diskq.logNext - logFirst s) % 256 ≠ 0 →
    x.sealSlot = none →
    x.mirror = 0 →
    x.yealm = none →
    x.origin = none →
    x.flags % 2 = 0 →
    findSeg s x.segment = some g →
    ∃ z, exec (.sectorHandOver n) s = .next z ∧
      (recChan z n).closed = (recChan s n).closed.map (fun y => if y = x then { x with lba := some s.diskq.logNext, tenant := recOwner s, sealUse := none, gseq := none } else y) ∧
      (recChan z n).handed = some (x.segment, x.base, x.lastSeq) ∧
      z.diskq.recTags = s.diskq.recTags + 1 ∧
      z.diskq.logNext = nextLog s s.diskq.logNext ∧
      z.diskq.segs.map (fun y => (y.id, y.lastLba, y.lastSeq)) = s.diskq.segs.map (fun y => if y.id = x.segment then (y.id, s.diskq.logNext, max y.lastSeq x.lastSeq) else (y.id, y.lastLba, y.lastSeq)) ∧
      KeepsBut [.diskq] s z) ∧
  (∀ (n : Fin 512) (x : ClosedSector) (s : State),
    s.powered = true →
    s.supply.mode = .run →
    s.supply.change = none →
    s.supply.pfail = false →
    nextClosed (recChan s n) = some x →
    gapBefore (recChan s n) x = false →
    s.diskq.logArea.isSome = true →
    s.diskq.recTags < 128 →
    (s.diskq.logNext - logFirst s) % 256 ≠ 0 →
    x.sealSlot = none →
    x.mirror = 0 →
    x.yealm = none →
    x.origin = none →
    x.flags % 2 = 0 →
    Up s →
    CanRecord s →
    findSeg s x.segment = none →
    recOwner s < 8 →
    ∃ z, exec (.sectorHandOver n) s = .next z ∧
      (recChan z n).closed = (recChan s n).closed.map (fun y => if y = x then { x with lba := some s.diskq.logNext, tenant := recOwner s, sealUse := none, gseq := none } else y) ∧
      (recChan z n).handed = some (x.segment, x.base, x.lastSeq) ∧
      z.diskq.recTags = s.diskq.recTags + 1 ∧
      z.diskq.logNext = nextLog s s.diskq.logNext ∧
      z.diskq.segs = s.diskq.segs ++ [{ id := x.segment, channel := n.val, flags := 1, start := x.start, stop := x.stop, firstLba := s.diskq.logNext, lastLba := s.diskq.logNext, lastSeq := x.lastSeq }] ∧
      Recorded 0x048F 1 (recOwner s) s z ∧
      KeepsBut [.diskq, .recorder, .views, .out] s z) ∧
  (∀ (lba k sec ns frac n : Nat) (other : Bool) (x : ClosedSector) (s : State),
    s.powered = true →
    mediumWritable s = true →
    recAt s lba = some (n, x) →
    x.sealUse = none →
    x.onSpare = false →
    x.origin = none →
    x.gseq = none →
    ∃ z, exec (.verifyDone true lba k sec ns frac true other none) s = .next z ∧
      mget z.channel.medium lba = some { data := x.data, stamp := makeStamp s { sec := sec % 2 ^ 48, ns := ns % 1000000000, frac := frac % 65536 } x.tenant x.flags n x.firstSeq lba none x.data, verified := true } ∧
      z.diskq.recTags = s.diskq.recTags - 1 ∧
      vat (recChan z n).counts 9 = min (vat (recChan s n).counts 9 + 1) 0xFFFFFFFFFFFFFFFF ∧
      (recChan z n).lastVerified = x.lastSeq ∧
      z.diskq.writeCount = s.diskq.writeCount + 1 ∧
      KeepsBut [.channel, .diskq, .cascade] s z) ∧
  (∀ (n : Fin 512) (start : Nat) (g : Segment) (s : State),
    Up s →
    CanRecord s →
    s.diskq.segs.find? (fun g => g.channel == n.val && g.start == start && g.flags.testBit 0 && !g.retired && !segmentBusy s n.val g.id && ((mget s.diskq.segEnds g.id).isSome || decide (g.stop * 1000000 + (recChan s n.val).mergeUs ≤ taiUs s))) = some g →
    mget s.diskq.segEnds g.id = none →
    g.verified.isSome = true →
    recOwner s < 8 →
    ∃ z, exec (.segmentClosed n start) s = .next z ∧
      z.diskq = { s.diskq with segs := s.diskq.segs.map fun x => if x.id = g.id then { g with flags := g.flags - g.flags % 2 } else x } ∧
      Recorded 0x0490 1 (recOwner s) s z ∧
      KeepsBut [.diskq, .recorder, .views, .out] s z) ∧
  (∀ (b sec ns frac lba : Nat) (m : AMap Bytes) (s : State),
    s.powered = true →
    mediumWritable s = true →
    m = mgetD s.diskq.summary b [] →
    m.length = 255 →
    s.diskq.logArea.isSome = true →
    lba = logFirst s + b * 256 + 255 →
    ∃ z, exec (.blockSummary b sec ns frac true) s = .next z ∧
      mget z.channel.medium lba = some { data := summaryData m, stamp := makeStamp s { sec := sec % 2 ^ 48, ns := ns % 1000000000, frac := frac % 65536 } 0 0 0xFFFE 0 lba none (summaryData m), verified := true } ∧
      z.diskq = { s.diskq with summary := mdel s.diskq.summary b, writeCount := s.diskq.writeCount + 1 } ∧
      KeepsBut [.channel, .diskq] s z)

/-- REC_AREA_SET of a committed format without an enabled channel keeps the log area and starts it empty.
REC_CHANNEL_SET that enables a channel installs its RECORD flow entry and its settings; one that disables it frees
them. REC_SEG_HOLD holds or releases a segment and records it. REC_CHANNEL_STATUS and REC_SEG_LIST answer their tables
and change nothing but the mailbox. REC_READ pins its yealms and is accepted. Where a clause meets what the spec
leaves open it states the model's reading: log entries 23, 25, 120. From R637, R638, R653, R659, R660, R661, R673,
Table DSK.7, Table DSK.9, Table DSK.10. -/
def Obligations.RecordingRequestsServe : Prop :=
  (∀ (c : Call) (p : Bytes) (s : State),
    Served cmdRecAreaSet c s →
    p = c.payload →
    s.channel.format.isSome = true →
    recEnabled s = false →
    s.timebase.persistFails = false →
    s.diskq.logArea ≠ some (rd p 0 6, rd p 8 6) →
    s.diskq.segs = [] →
    ∃ z, exec (.recAreaSet c) s = .next z ∧
      Answered c 0x0410 St.ok [] z ∧
      z.diskq = { s.diskq with logArea := some (rd p 0 6, rd p 8 6), logNext := rd p 0 6, summary := [], logFull := false } ∧
      slice (keptSetup z) 469 12 = slice p 0 6 ++ slice p 8 6 ∧
      SetsOnly [.diskq, .boot] c s z) ∧
  (∀ (c : Call) (p : Bytes) (n i : Nat) (s : State),
    Served cmdRecChannelSet c s →
    p = c.payload →
    n = rd p 0 2 →
    i = rd p 14 2 →
    (byteAt p 2).testBit 0 = true →
    (byteAt p 2).testBit 3 = false →
    (recChan s n).flags.testBit 0 = false →
    s.diskq.logArea.isSome = true →
    recIndexFree s n i = true →
    ∃ z, exec (.recChannelSet c) s = .next z ∧
      Answered c 0x0411 St.ok [] z ∧
      mget z.net.flows i = some { Flow.ofBytes (slice p 32 64) with service := 3 } ∧
      (∀ l, l ≠ i → mget z.net.flows l = mget s.net.flows l) ∧
      recChan z n = { recSettings p (recChan s n) with highest := none, lowest := 0, seen := [], heldPkts := [], lastRec := none, handed := none } ∧
      (∀ m : Fin 512, m.val ≠ n → recChan z m = recChan s m) ∧
      SetsOnly [.net, .diskq] c s z) ∧
  (∀ (c : Call) (p : Bytes) (n : Nat) (s : State),
    Served cmdRecChannelSet c s →
    p = c.payload →
    n = rd p 0 2 →
    (byteAt p 2).testBit 0 = false →
    (recChan s n).flags.testBit 0 = true →
    (recChan s n).flags.testBit 3 = false →
    (recChan s n).opened = [] →
    (recChan s n).heldPkts = [] →
    (recChan s n).segment = none →
    s.diskq.logFull = false →
    ∃ z, exec (.recChannelSet c) s = .next z ∧
      Answered c 0x0411 St.ok [] z ∧
      z.net = { s.net with flows := mdel s.net.flows (recChan s n).redFlow, counts := mdel s.net.counts (recChan s n).redFlow } ∧
      recChan z n = { recChan s n with flags := (recChan s n).flags - 1 } ∧
      (∀ m : Fin 512, m.val ≠ n → recChan z m = recChan s m) ∧
      SetsOnly [.net, .diskq] c s z) ∧
  (∀ (c : Call) (x : RecChan) (s : State),
    Served cmdRecChannelStatus c s →
    x = recChan s (rd c.payload 0 2) →
    ∃ z, exec (.recChannelStatus c) s = .next z ∧
      Answered c 0x0412 St.ok (leBytes 1 x.flags ++ leBytes 1 x.opened.length ++ leBytes 1 (min 255 x.closed.length) ++ zeros 1 ++ leBytes 4 (x.lastVerified % 2 ^ 32) ++ leBytes 6 ((x.segment.map (·.2)).getD 0) ++ zeros 2 ++ x.counts.toList.flatMap (leBytes 8)) z ∧
      ReadsOnly c s z) ∧
  (∀ (c : Call) (l : List Segment) (s : State),
    Served cmdRecSegList c s →
    l = (segsFrom s (rd c.payload 0 2) (rd c.payload 4 6)).take (byteAt c.payload 10) →
    l ≠ [] →
    ∃ z, exec (.recSegList c) s = .next z ∧
      Answered c 0x0413 St.ok (leBytes 1 l.length ++ zeros 3 ++ l.flatMap segBytes) z ∧
      ReadsOnly c s z) ∧
  (∀ (c : Call) (g : Segment) (s : State),
    Served cmdRecSegHold c s →
    CanRecord s →
    s.campel = true →
    byteAt c.payload 2 = 1 →
    segByStart s (rd c.payload 0 2) (rd c.payload 4 6) = some g →
    g.flags.testBit 1 = false →
    heldSegs s < 64 →
    ∃ z, exec (.recSegHold c) s = .next z ∧
      Answered c 0x0414 St.ok [] z ∧
      z.diskq = { s.diskq with segs := s.diskq.segs.map fun x => if x.id = g.id then { g with flags := g.flags ||| 2 } else x } ∧
      Recorded 0x0491 2 (recOwner s) s z ∧
      SetsOnly [.diskq, .recorder] c s z) ∧
  (∀ (c : Call) (g : Segment) (s : State),
    Served cmdRecSegHold c s →
    byteAt c.payload 2 = 1 →
    segByStart s (rd c.payload 0 2) (rd c.payload 4 6) = some g →
    g.flags.testBit 1 = false →
    64 ≤ heldSegs s →
    ∃ z, exec (.recSegHold c) s = .next z ∧
      Answered c 0x0414 St.quota [] z ∧
      ReadsOnly c s z) ∧
  (∀ (c : Call) (p : Bytes) (i : Nat) (s : State),
    Served cmdRecRead c s →
    MayAccept c s →
    p = c.payload →
    i = hIndex (rd p 20 4) →
    byteAt p 18 = 1 →
    rd p 24 4 = 0 →
    s.channel.format.isSome = true →
    s.channel.state ≠ .fault →
    s.channel.slices.any id = true →
    setupInForce s = true →
    ∃ z, exec (.recRead c) s = .next z ∧
      AcceptedAs c 0x0415 (fun j => j.pins == [i] && j.data == p ++ leBytes 4 (rd p 20 4)) z ∧
      (z.loft.tag i).pins = (s.loft.tag i).pins + 1 ∧
      z.loft.mem = s.loft.mem ∧
      StartsOnly [.loft] c s z)

/-- A pattern takes effect at its second and the band is QUIET. When a calibration's wait ends its result is stored; a
lock makes the entry CALIBRATED and the band STANDBY, a first failure calibrates again, the second is a FAULT that
raises 101. A poll without lock mutes both paths and starts a recovery. A temperature ages the entries; a bus that
stays low after three recoveries is STUCK and recorded. A frame that ended gives its captured word and lets the next
start. A conversion gives its level. An AUX write completes. Where a clause meets what the spec leaves open it states
the model's reading: log entries 31, 140, 144, 169. From R682, R683, R685, R686, R688, R692, R693, R702, R710, R713,
R715, R717. -/
def Obligations.RadioTunesAndReads : Prop :=
  (∀ (b : Fin 4) (sec t : Nat) (p : Tdd) (s : State),
    s.powered = true →
    radioRuns s = true →
    (s.bandOf b).tddNext = some (p, t) →
    t ≤ sec →
    (s.bandOf b).flags.testBit 0 = true →
    ∃ z, exec (.patternApply b sec) s = .next z ∧
      (z.bandOf b).tdd = some p ∧
      (z.bandOf b).tddNext = none ∧
      (z.bandOf b).dir = 0 ∧
      (z.bandOf b).gate = false ∧
      (z.bandOf b).en = false ∧
      (z.bandOf b).state = (s.bandOf b).state ∧
      (∀ k : Fin 4, k ≠ b → z.bandOf k = s.bandOf k) ∧
      KeepsBut [.radio, .spars, .out] s z) ∧
  (∀ (i : Fin 4) (us v r e : Nat) (q : Bool) (s : State),
    s.powered = true →
    radioRuns s = true →
    (s.synthOf i).work = .cal e q →
    (s.synthOf i).calWaitUs ≤ us →
    (s.synthOf i).calRun = false →
    Nat.land (r % 2 ^ 32) (s.synthOf i).lockMask = (s.synthOf i).lockValue →
    (s.synthOf i).auto = false →
    (s.bandOf i).activate = false →
    (s.bandOf i).causes ≠ 0 →
    hasCause s i 12 = true →
    lacksDetector s i = true →
    findJob s 0x0707 i = none →
    findJob s 0x0709 i = none →
    ∃ z, exec (.calWaitEnd i us v r) s = .next z ∧
      (let y := synthEntry z i e; (y.state, y.calValue, y.calTemp)) = (.calibrated, Nat.land (v % 2 ^ 32) (s.synthOf i).calMask, (s.synthOf i).temp) ∧
      (z.synthOf i).work = .idle ∧
      (z.bandOf i).state = .standby ∧
      (z.bandOf i).tuneMute = false ∧
      (∀ k : Fin 4, k ≠ i → z.bandOf k = s.bandOf k) ∧
      (∀ k : Fin 4, k ≠ i → z.synthOf k = s.synthOf k) ∧
      KeepsBut [.radio, .out] s z) ∧
  (∀ (i : Fin 4) (us v r e : Nat) (q : Bool) (s : State),
    s.powered = true →
    radioRuns s = true →
    (s.synthOf i).work = .cal e q →
    (s.synthOf i).calWaitUs ≤ us →
    (s.synthOf i).calRun = false →
    Nat.land (r % 2 ^ 32) (s.synthOf i).lockMask ≠ (s.synthOf i).lockValue →
    q = false →
    ∃ z, exec (.calWaitEnd i us v r) s = .next z ∧
      (let y := synthEntry z i e; (y.state, y.calValue, y.calTemp)) = (.uncalibrated, Nat.land (v % 2 ^ 32) (s.synthOf i).calMask, (s.synthOf i).temp) ∧
      (z.synthOf i).work = .cal e true ∧
      z.radio.band = s.radio.band ∧
      (∀ k : Fin 4, k ≠ i → z.synthOf k = s.synthOf k) ∧
      KeepsBut [.radio, .out] s z) ∧
  (∀ (i : Fin 4) (ns r e : Nat) (q : Bool) (s : State),
    s.powered = true →
    radioRuns s = true →
    (s.synthOf i).work = .hop e q →
    (s.synthOf i).lockNs ≤ ns →
    (s.synthOf i).calRun = false →
    Nat.land (r % 2 ^ 32) (s.synthOf i).lockMask = (s.synthOf i).lockValue →
    (s.synthOf i).auto = false →
    (s.bandOf i).activate = false →
    hasCause s i 12 = true →
    lacksDetector s i = true →
    findJob s 0x0707 i = none →
    findJob s 0x0709 i = none →
    ∃ z, exec (.hopLockCheck i ns r) s = .next z ∧
      (z.synthOf i).work = .idle ∧
      (z.synthOf i).entries = (s.synthOf i).entries ∧
      (z.bandOf i).state = .standby ∧
      (z.bandOf i).tuneMute = false ∧
      (∀ k : Fin 4, k ≠ i → z.bandOf k = s.bandOf k) ∧
      (∀ k : Fin 4, k ≠ i → z.synthOf k = s.synthOf k) ∧
      KeepsBut [.radio, .out] s z) ∧
  (∀ (i : Fin 4) (ns r e : Nat) (q : Bool) (s : State),
    Up s →
    CanRecord s →
    s.isT = false →
    radioRuns s = true →
    (s.synthOf i).work = .hop e q →
    (s.synthOf i).lockNs ≤ ns →
    (s.synthOf i).calRun = false →
    Nat.land (r % 2 ^ 32) (s.synthOf i).lockMask ≠ (s.synthOf i).lockValue →
    q = true →
    (s.synthOf i).auto = false →
    findJob s 0x0707 i = none →
    findJob s 0x0709 i = none →
    ∃ z, exec (.hopLockCheck i ns r) s = .next z ∧
      (z.bandOf i).state = .fault ∧
      (z.bandOf i).gate = false ∧
      (z.synthOf i).work = .idle ∧
      Raised 101 s z ∧
      Recorded 0x07A0 4 (s.owner 4) s z ∧
      (∀ k : Fin 4, k ≠ i → z.bandOf k = s.bandOf k) ∧
      (∀ k : Fin 4, k ≠ i → z.synthOf k = s.synthOf k) ∧
      KeepsBut [.radio, .recorder, .views, .out] s z) ∧
  (∀ (i : Fin 4) (r : Nat) (s : State),
    s.powered = true →
    radioRuns s = true →
    ((s.bandOf i).state = .standby ∨ (s.bandOf i).state = .active) →
    Nat.land (r % 2 ^ 32) (s.synthOf i).lockMask = (s.synthOf i).lockValue →
    ∃ z, exec (.lockPoll i r) s = .next z ∧
      z.radio = { s.radio with rfNow := z.radio.rfNow, frames := z.radio.frames } ∧
      ({ prio := 5, cs := (s.synthOf i).cs, word := (s.synthOf i).lockWord % 2 ^ (vat s.radio.device (s.synthOf i).cs).wordBits } : RfFrame) ∈ z.radio.rfNow.toList ++ z.radio.frames ∧
      KeepsBut [.radio, .out] s z) ∧
  (∀ (i : Fin 4) (r : Nat) (s : State),
    Up s →
    s.isT = false →
    radioRuns s = true →
    ((s.bandOf i).state = .standby ∨ (s.bandOf i).state = .active) →
    Nat.land (r % 2 ^ 32) (s.synthOf i).lockMask ≠ (s.synthOf i).lockValue →
    ∃ z, exec (.lockPoll i r) s = .next z ∧
      (z.bandOf i).state = .tuning ∧
      (z.bandOf i).tuneMute = true ∧
      (z.bandOf i).activate = decide ((s.bandOf i).state = .active) ∧
      (z.bandOf i).en = false ∧
      (z.pathOf (2 * i)).muted = true ∧
      (z.pathOf (2 * i + 1)).muted = true ∧
      (z.synthOf i).work = .cal (s.bandOf i).entry false ∧
      Raised 101 s z ∧
      (∀ k : Fin 4, k ≠ i → z.bandOf k = s.bandOf k) ∧
      (∀ k : Fin 4, k ≠ i → z.synthOf k = s.synthOf k) ∧
      KeepsBut [.radio, .views, .out] s z) ∧
  (∀ (i : Fin 4) (t : Int) (n : Nat) (s : State),
    s.powered = true →
    radioRuns s = true →
    (s.synthOf i).tempSrc = 0 →
    (s.synthOf i).rebase = false →
    (s.bandOf i).state = .off →
    ∃ z, exec (.temperatureRead i t n) s = .next z ∧
      z.synthOf i = { s.synthOf i with temp := t, entries := (s.synthOf i).entries.map (fun (p : Nat × SynthEntry) => (p.1, if p.2.state = .calibrated ∧ 2048 ≤ (p.2.calTemp - t).natAbs then { p.2 with state := .stale } else p.2)) } ∧
      z.radio = { s.radio with synth := z.radio.synth } ∧
      (∀ k : Fin 4, k ≠ i → z.synthOf k = s.synthOf k) ∧
      KeepsBut [.radio] s z) ∧
  (∀ (i : Fin 4) (t : Int) (n : Nat) (s : State),
    Up s →
    CanRecord s →
    radioRuns s = true →
    s.isT = false →
    (s.synthOf i).tempSrc = 1 →
    s.radio.auxStuck = false →
    3 < n →
    ∃ z, exec (.temperatureRead i t n) s = .next z ∧
      z.radio.auxStuck = true ∧
      (z.synthOf i).fallback = true ∧
      .scl 6 ∈ z.out ∧
      Raised 101 s z ∧
      Recorded 0x07A2 3 (s.owner 4) s z ∧
      KeepsBut [.radio, .recorder, .views, .out] s z) ∧
  (∀ (rx : Nat) (f g : RfFrame) (l : List RfFrame) (s : State),
    s.powered = true →
    radioRuns s = true →
    s.radio.rfNow = some f →
    s.radio.frames = g :: l →
    ∃ z, exec (.rfFrameDone rx) s = .next z ∧
      z.radio = { s.radio with rx := rx % 2 ^ 32, rfNow := some g, frames := l } ∧
      z.out = .rf g.cs g.word :: s.out ∧
      KeepsBut [.radio, .out] s z) ∧
  (∀ (rx : Nat) (f : RfFrame) (s : State),
    s.powered = true →
    radioRuns s = true →
    s.radio.rfNow = some f →
    s.radio.frames = [] →
    ∃ z, exec (.rfFrameDone rx) s = .next z ∧
      z.radio = { s.radio with rx := rx % 2 ^ 32, rfNow := none } ∧
      KeepsBut [.radio] s z) ∧
  (∀ (n : Fin 8) (v : Fin 4096) (t : Nat) (d : Detector) (s : State),
    s.powered = true →
    radioRuns s = true →
    d = vat s.radio.det n →
    d.seen + 1 < d.windowUs / 4 →
    d.role ≠ 0 →
    detCounts s d = true →
    ∃ z, exec (.detectorConversion n v t) s = .next z ∧
      z.radio = { s.radio with det := vset s.radio.det n { d with code := v, tick := t % 2 ^ 32, last := detLevel d v, seen := d.seen + 1, window := detLevel d v :: d.window } } ∧
      KeepsBut [.radio] s z) ∧
  (∀ (s : State),
    s.powered = true →
    radioRuns s = true →
    s.radio.auxStuck = true →
    ∃ z, exec (.auxStuckRetry true) s = .next z ∧
      z.radio.auxStuck = false ∧
      (∀ i : Fin 4, (s.synthOf i).tempSrc = 1 → (z.synthOf i).fallback = false) ∧
      z.out = .scl 6 :: s.out ∧
      KeepsBut [.radio, .out] s z) ∧
  (∀ (ms : Nat) (d : Bytes) (j : Job) (n : Nat) (s : State),
    s.powered = true →
    s.campel = true →
    s.supply.holdUp = false →
    j.origin = none →
    eventRing s j.tenant = some n →
    (s.ring n).lost = 0 →
    (s.ring n).log2 ≤ 12 →
    s.jobs.find? (fun j => j.op == 0x0711) = some j →
    byteAt j.data 3 % 2 = 1 →
    ms ≤ 25 →
    ∃ z, exec (.twoWireTransactionEnd true 0 true ms false d) s = .next z ∧
      .twoWire 6 (byteAt j.data 0) (byteAt j.data 1) true (slice j.data 4 (byteAt j.data 2)) ∈ z.out ∧
      z.jobs = s.jobs.erase j ∧
      EventPosted n (eventDesc 1 St.ok j.op j.token j.tenant s.cascade.position [] s.timebase.now) s z ∧
      KeepsBut [.jobs, .loft, .tenants, .rings, .views, .out] s z)

/-- The configuration requests set their fields and leave the other units as they were. RADIO_BAND_START of an OFF
band makes it TUNING with both paths muted and calibrates an entry that is not CALIBRATED; RADIO_BAND_STOP makes it
OFF. RADIO_POWER_SET sets the commanded entry; the applied one follows up to the ceiling, below which source 97 is
raised. The status and detector reads answer their tables and change nothing but the mailbox. A RADIO_RFSPI_XFER
queues its frame at the lowest priority. Where a clause meets what the spec leaves open it states the model's reading:
log entries 22, 37, 139, 141. From R684, R690, R694, R703, R705, R706, R709, R713, R714, R721, R728, Table RAD.13. -/
def Obligations.RadioRequestsServe : Prop :=
  (∀ (c : Call) (s : State),
    Served cmdRadioGetStatus c s →
    ∃ z, exec (.radioGetStatus c) s = .next z ∧
      Answered c 0x0701 St.ok (radioStatus s) z ∧
      ReadsOnly c s z) ∧
  (∀ (c : Call) (p : Bytes) (s : State),
    Served cmdRadioDeviceSet c s →
    p = c.payload →
    csInUse s (byteAt p 0) = false →
    ∃ z, exec (.radioDeviceSet c) s = .next z ∧
      Answered c 0x0702 St.ok [] z ∧
      z.radio = { s.radio with device := vset s.radio.device (byteAt p 0) { wordBits := byteAt p 1, clkMhz := byteAt p 2, flags := byteAt p 3 } } ∧
      SetsOnly [.radio] c s z) ∧
  (∀ (c : Call) (p : Bytes) (s : State),
    Served cmdRadioBandConfig c s →
    p = c.payload →
    bandIdle s (byteAt p 0) = true →
    ∃ z, exec (.radioBandConfig c) s = .next z ∧
      Answered c 0x0703 St.ok [] z ∧
      z.bandOf (byteAt p 0) = { s.bandOf (byteAt p 0) with flags := byteAt p 1, startEntry := byteAt p 2, attenCs := byteAt p 4, attenShift := byteAt p 5, attenIn := rd p 8 4, attenOut := rd p 12 4, configured := true } ∧
      (∀ k : Fin 4, k.val ≠ byteAt p 0 → z.bandOf k = s.bandOf k) ∧
      z.radio = { s.radio with band := z.radio.band } ∧
      SetsOnly [.radio] c s z) ∧
  (∀ (c : Call) (p : Bytes) (s : State),
    Served cmdRadioSynthConfig c s →
    p = c.payload →
    bandIdle s (byteAt p 0) = true →
    (s.synthOf (byteAt p 0)).calRun = false →
    ∃ z, exec (.radioSynthConfig c) s = .next z ∧
      Answered c 0x0704 St.ok [] z ∧
      z.synthOf (byteAt p 0) = { s.synthOf (byteAt p 0) with configured := true, cs := byteAt p 1, words := byteAt p 2, calWord := byteAt p 3, autoCalBits := rd p 4 4, calReadWord := rd p 8 4, calMask := rd p 12 4, calShift := byteAt p 16, tempSrc := byteAt p 17, tempAddr := byteAt p 18, tempReg := byteAt p 19, calWaitUs := rd p 20 2, lockNs := rd p 22 2, lockWord := rd p 24 4, lockMask := rd p 28 4, lockValue := rd p 32 4, fallback := byteAt p 17 == 1 && s.radio.auxStuck } ∧
      (∀ k : Fin 4, k.val ≠ byteAt p 0 → z.synthOf k = s.synthOf k) ∧
      z.radio = { s.radio with synth := z.radio.synth } ∧
      SetsOnly [.radio] c s z) ∧
  (∀ (c : Call) (p : Bytes) (a : Nat) (s : State),
    Served cmdRadioSynthTableSet c s →
    p = c.payload →
    a = yAddr (hIndex (rd p 4 4)) 0 →
    s.loft.poisoned a (16 * byteAt p 2) = false →
    (List.range (byteAt p 2)).all (fun k => zeroAt (Machine.loftRead s a (16 * byteAt p 2)) (16 * k + 4 + 4 * (s.synthOf (byteAt p 0)).words) (12 - 4 * (s.synthOf (byteAt p 0)).words)) = true →
    bandIdle s (byteAt p 0) = true →
    ∃ z, exec (.radioSynthTableSet c) s = .next z ∧
      Answered c 0x0705 St.ok [] z ∧
      (∀ k : Fin 64, k.val < byteAt p 2 → synthEntry z (byteAt p 0) (byteAt p 1 + k) = rdEntry (Machine.loftRead s a (16 * byteAt p 2)) k) ∧
      (∀ k : Fin 64, k.val < byteAt p 1 ∨ byteAt p 1 + byteAt p 2 ≤ k.val → synthEntry z (byteAt p 0) k = synthEntry s (byteAt p 0) k) ∧
      (∀ k : Fin 4, k.val ≠ byteAt p 0 → z.synthOf k = s.synthOf k) ∧
      z.radio = { s.radio with synth := z.radio.synth } ∧
      SetsOnly [.radio] c s z) ∧
  (∀ (c : Call) (p : Bytes) (e : Nat) (l : List Nat) (s : State),
    Served cmdRadioSynthCal c s →
    MayAccept c s →
    p = c.payload →
    bandIdle s (byteAt p 0) = true →
    (s.synthOf (byteAt p 0)).calRun = false →
    maskEntries (rd p 4 8) = e :: l →
    ∃ z, exec (.radioSynthCal c) s = .next z ∧
      AcceptedAs c 0x0706 (fun j => j.waits && j.key == byteAt p 0) z ∧
      (z.synthOf (byteAt p 0)).calRun = true ∧
      (z.synthOf (byteAt p 0)).calQueue = l ∧
      (z.synthOf (byteAt p 0)).work = .cal e false ∧
      z.radio.band = s.radio.band ∧
      StartsOnly [.radio] c s z) ∧
  (∀ (c : Call) (p : Bytes) (b : Nat) (s : State),
    Served cmdRadioBandStart c s →
    MayAccept c s →
    p = c.payload →
    b = byteAt p 0 →
    radioRuns s = true →
    (s.synthOf b).calRun = false →
    (s.bandOf b).flags.testBit 0 = false →
    (s.bandOf b).state = .off →
    (synthEntry s b (s.bandOf b).startEntry).state = .uncalibrated →
    ∃ z, exec (.radioBandStart c) s = .next z ∧
      AcceptedAs c 0x0707 (fun j => j.waits && j.key == b) z ∧
      (z.bandOf b).state = .tuning ∧
      (z.bandOf b).tuneMute = true ∧
      (z.bandOf b).entry = (s.bandOf b).startEntry ∧
      (z.bandOf b).activate = decide (byteAt p 1 = 1) ∧
      (z.bandOf b).en = false ∧
      (z.pathOf (2 * b)).muted = true ∧
      (z.pathOf (2 * b + 1)).muted = true ∧
      (z.synthOf b).work = .cal (s.bandOf b).startEntry false ∧
      StartsOnly [.radio] c s z) ∧
  (∀ (c : Call) (p : Bytes) (s : State),
    Served cmdRadioBandStop c s →
    p = c.payload →
    (s.bandOf (byteAt p 0)).state = .standby →
    (s.synthOf (byteAt p 0)).calRun = false →
    findJob s 0x0707 (byteAt p 0) = none →
    findJob s 0x0709 (byteAt p 0) = none →
    ∃ z, exec (.radioBandStop c) s = .next z ∧
      Answered c 0x0708 St.ok [] z ∧
      (z.bandOf (byteAt p 0)).state = .off ∧
      (z.bandOf (byteAt p 0)).gate = false ∧
      (z.bandOf (byteAt p 0)).en = false ∧
      (z.synthOf (byteAt p 0)).work = .idle ∧
      (z.synthOf (byteAt p 0)).entries = (s.synthOf (byteAt p 0)).entries ∧
      SetsOnly [.radio, .spars] c s z) ∧
  (∀ (c : Call) (p : Bytes) (b : Nat) (s : State),
    Served cmdRadioBandHop c s →
    MayAccept c s →
    p = c.payload →
    b = byteAt p 0 →
    ((s.bandOf b).state = .standby ∨ (s.bandOf b).state = .active) →
    (synthEntry s b (byteAt p 1)).state = .calibrated →
    ∃ z, exec (.radioBandHop c) s = .next z ∧
      AcceptedAs c 0x0709 (fun j => j.waits && j.key == b) z ∧
      (z.bandOf b).state = .tuning ∧
      (z.bandOf b).tuneMute = true ∧
      (z.bandOf b).entry = byteAt p 1 ∧
      (z.bandOf b).activate = decide ((s.bandOf b).state = .active) ∧
      (z.synthOf b).work = .hop (byteAt p 1) false ∧
      (z.pathOf (2 * b)).muted = true ∧
      StartsOnly [.radio] c s z) ∧
  (∀ (c : Call) (p : Bytes) (s : State),
    Served cmdRadioTddSet c s →
    p = c.payload →
    ∃ z, exec (.radioTddSet c) s = .next z ∧
      Answered c 0x070A St.ok [] z ∧
      z.bandOf (byteAt p 0) = { s.bandOf (byteAt p 0) with tddNext := some ({ periodUs := rd p 2 2, phaseNs := rd p 4 4, advance := rdS p 8 4, trans := rdTrans p }, if s.timebase.now.ns ≤ 999000000 then s.timebase.now.sec + 1 else s.timebase.now.sec + 2) } ∧
      (∀ k : Fin 4, k.val ≠ byteAt p 0 → z.bandOf k = s.bandOf k) ∧
      z.radio = { s.radio with band := z.radio.band } ∧
      SetsOnly [.radio] c s z) ∧
  (∀ (c : Call) (p : Bytes) (a : Nat) (s : State),
    Served cmdRadioPowerTableSet c s →
    p = c.payload →
    a = yAddr (hIndex (rd p 12 4)) 0 →
    s.loft.poisoned a 256 = false →
    (List.range 64).all (fun i => decide (rd (Machine.loftRead s a 256) (4 * i + 2) 2 < 4096)) = true →
    (s.pathOf (byteAt p 0)).muted = true →
    ∃ z, exec (.radioPowerTableSet c) s = .next z ∧
      Answered c 0x070B St.ok [] z ∧
      z.pathOf (byteAt p 0) = { s.pathOf (byteAt p 0) with gainTop := rdS p 2 2, muteCode := rd p 4 2, muteBias := rd p 6 2, dither := rdS p 8 1, table := (List.range 64).map fun i => (i, (rd (Machine.loftRead s a 256) (4 * i) 2, rd (Machine.loftRead s a 256) (4 * i + 2) 2)) } ∧
      (∀ k : Fin 8, k.val ≠ byteAt p 0 → z.pathOf k = s.pathOf k) ∧
      z.radio = { s.radio with path := z.radio.path } ∧
      SetsOnly [.radio] c s z) ∧
  (∀ (c : Call) (p : Bytes) (k : Nat) (s : State),
    Served cmdRadioPowerSet c s →
    p = c.payload →
    k = byteAt p 0 →
    (s.pathOf k).ceiling.isSome = true →
    (s.pathOf k).stage = 0 →
    (s.pathOf k).muted = true →
    byteAt p 1 ≤ pathCeiling s k →
    ∃ z, exec (.radioPowerSet c) s = .next z ∧
      Answered c 0x070C St.ok [] z ∧
      (z.pathOf k).cmd = byteAt p 1 ∧
      (z.pathOf k).applied = byteAt p 1 ∧
      (z.pathOf k).stage = 0 ∧
      (∀ q : Fin 8, q.val ≠ k → z.pathOf q = s.pathOf q) ∧
      z.radio = { s.radio with path := z.radio.path } ∧
      SetsOnly [.radio] c s z) ∧
  (∀ (c : Call) (p : Bytes) (k : Nat) (s : State),
    Served cmdRadioPowerSet c s →
    CanRecord s →
    s.campel = true →
    s.isT = false →
    p = c.payload →
    k = byteAt p 0 →
    (s.pathOf k).ceiling.isSome = true →
    (s.pathOf k).stage = 0 →
    (s.pathOf k).muted = true →
    pathCeiling s k < byteAt p 1 →
    0 < pathCeiling s k →
    ∃ z, exec (.radioPowerSet c) s = .next z ∧
      Answered c 0x070C St.ok [] z ∧
      (z.pathOf k).cmd = byteAt p 1 ∧
      (z.pathOf k).applied = pathCeiling s k ∧
      (z.pathOf k).stage = 1 ∧
      (z.view 0).raw.getLsbD 97 = true ∧
      Recorded 0x07C6 2 (s.owner 4) s z ∧
      SetsOnly [.radio, .recorder] c s z) ∧
  (∀ (c : Call) (p : Bytes) (s : State),
    Served cmdRadioBiasConfig c s →
    p = c.payload →
    byteAt p 1 = 255 →
    radioRuns s = true →
    s.supply.mode = .run →
    ∃ z, exec (.radioBiasConfig c) s = .next z ∧
      Answered c 0x070D St.ok [] z ∧
      z.radio = { s.radio with bias := vset s.radio.bias (byteAt p 0) { path := none, fixed := rd p 2 2, code := rd p 2 2 } } ∧
      SetsOnly [.radio] c s z) ∧
  (∀ (c : Call) (p : Bytes) (s : State),
    Served cmdRadioDetConfig c s →
    p = c.payload →
    (∀ b : Fin 4, (s.bandOf b).state = .off) →
    ∃ z, exec (.radioDetConfig c) s = .next z ∧
      Answered c 0x070E St.ok [] z ∧
      z.radio = { s.radio with det := vset s.radio.det (byteAt p 0) { role := byteAt p 1, target := byteAt p 2, flags := byteAt p 3, slope := rd p 4 2, intercept := rdS p 6 2, windowUs := rd p 8 4, code := (vat s.radio.det (byteAt p 0)).code, tick := (vat s.radio.det (byteAt p 0)).tick } } ∧
      SetsOnly [.radio] c s z) ∧
  (∀ (c : Call) (s : State),
    Served cmdRadioDetRead c s →
    ∃ z, exec (.radioDetRead c) s = .next z ∧
      Answered c 0x070F St.ok (((List.range 8).filter (fun i => (byteAt c.payload 0).testBit i)).flatMap fun i => leInt 2 (vat s.radio.det i).last ++ leInt 2 (vat s.radio.det i).mean ++ leInt 2 (vat s.radio.det i).min ++ leInt 2 (vat s.radio.det i).max ++ leBytes 4 (vat s.radio.det i).samples ++ zeros 4) z ∧
      ReadsOnly c s z) ∧
  (∀ (c : Call) (p : Bytes) (s : State),
    Served cmdRadioRfspiXfer c s →
    p = c.payload →
    csInUse s (byteAt p 0) = false →
    ∃ z, exec (.radioRfspiXfer c) s = .next z ∧ ∃ v : Nat,
      Answered c 0x0710 St.ok (leBytes 4 v) z ∧
      ({ prio := 6, cs := byteAt p 0, word := rd p 4 4 % 2 ^ (vat s.radio.device (byteAt p 0)).wordBits } : RfFrame) ∈ z.radio.rfNow.toList ++ z.radio.frames ∧
      z.radio = { s.radio with rfNow := z.radio.rfNow, frames := z.radio.frames } ∧
      SetsOnly [.radio, .free] c s z) ∧
  (∀ (c : Call) (s : State),
    Served cmdRadioAuxXfer c s →
    MayAccept c s →
    s.radio.auxStuck = false →
    ∃ z, exec (.radioAuxXfer c) s = .next z ∧
      AcceptedAs c 0x0711 (fun j => j.waits && j.data == c.payload) z ∧
      StartsOnly [] c s z)

/-- A good estimate of an active band sets the path's isolation, its lower bound flag and the ceiling of R740 and
R742; one older than 10 s is forgotten and the ceiling falls to START_ENTRY; every 60 s a valid one is recorded.
Oscillation, noise rise and out-of-band emission mute the band with their causes: BAND_EN low, both paths muted,
counted, source and record, and the back-off of R757 begins. Loss of time mutes a TDD band with cause 4 and holds it
QUIET until time has returned. Where a clause meets what the spec leaves open it states the model's reading: log
entries 38, 143. From R732, R733, R736, R738, R739, R740, R742, R743, R746, R757, R761, Table EAV.3. -/
def Obligations.EaveEstimatesAndMutes : Prop :=
  (∀ (p : Fin 8) (n q a : Nat) (l c e : Int) (s : State),
    s.powered = true →
    radioRuns s = true →
    (s.bandOf (p / 2)).state = .active →
    512 ≤ n →
    2 * q ≤ n →
    (s.pathOf p).iso = none →
    newCeiling s p (allowed s p (l - (max c e + 124))) = some a →
    (s.pathOf p).cmd ≤ a - (if s.radio.thermBack then (s.bandOf (p / 2)).thermBackoff else 0) →
    hasCause s (p / 2) 9 = false →
    ∃ z, exec (.isoEstimate p n q l c e) s = .next z ∧
      (z.pathOf p).iso = some (l - (max c e + 124)) ∧
      (z.pathOf p).lower = decide (c < e) ∧
      (z.pathOf p).lOut = l ∧
      (z.pathOf p).ceiling = some a ∧
      (z.pathOf p).lastAllow = allowed s p (l - (max c e + 124)) ∧
      (z.pathOf p).stage = 0 ∧
      (z.pathOf p).applied = (s.pathOf p).cmd ∧
      (∀ k : Fin 8, k ≠ p → z.pathOf k = s.pathOf k) ∧
      z.radio.band = s.radio.band ∧
      KeepsBut [.radio, .out] s z) ∧
  (∀ (p : Fin 8) (ms a : Nat) (s : State),
    s.powered = true →
    radioRuns s = true →
    (s.pathOf p).muted = false →
    10000 < ms →
    (s.pathOf p).ceiling = some a →
    (s.pathOf p).cmd ≤ min (s.bandOf (p / 2)).guardStart a →
    s.radio.thermBack = false →
    ∃ z, exec (.estimateAging p ms) s = .next z ∧
      (z.pathOf p).iso = none ∧
      (z.pathOf p).ceiling = some (min (s.bandOf (p / 2)).guardStart a) ∧
      (z.pathOf p).applied = (s.pathOf p).cmd ∧
      (∀ k : Fin 8, k ≠ p → z.pathOf k = s.pathOf k) ∧
      z.radio.band = s.radio.band ∧
      KeepsBut [.radio, .out] s z) ∧
  (∀ (n : Nat) (p : Fin 8) (s : State),
    Up s →
    CanRecord s →
    s.isT = false →
    radioRuns s = true →
    60 ≤ n →
    (s.pathOf p).iso.isSome = true →
    (∀ k : Fin 8, k ≠ p → (s.pathOf k).iso = none) →
    ∃ z, exec (.eaveIso n) s = .next z ∧
      z.pathOf p = { s.pathOf p with isoLogged := some s.up } ∧
      (∀ k : Fin 8, k ≠ p → z.pathOf k = s.pathOf k) ∧
      Recorded 0x07C5 1 (s.owner 4) s z ∧
      z.radio = { s.radio with path := z.radio.path } ∧
      KeepsBut [.radio, .recorder, .views, .out] s z) ∧
  (∀ (p : Fin 8) (n b : Nat) (o i : Int) (s : State),
    Up s →
    CanRecord s →
    s.isT = false →
    radioRuns s = true →
    b = p / 2 →
    bandLive s b = true →
    (s.bandOf b).causes = 0 →
    (s.bandOf b).latched = none →
    recentRestarts s b < 3 →
    5 ≤ n →
    hasDet s 1 p = true →
    hasDet s 2 p = true →
    ((s.bandOf b).oscExcess : Int) ≤ o - (i + appliedGain (s.pathOf p)) →
    ∃ z, exec (.oscillationMute p n o i) s = .next z ∧
      hasCause z b 1 = true ∧
      (z.bandOf b).en = false ∧
      (z.pathOf (2 * b)).muted = true ∧
      (z.pathOf (2 * b + 1)).muted = true ∧
      (z.bandOf b).lastCause = 1 ∧
      (z.bandOf b).mutes = inc32 (s.bandOf b).mutes ∧
      (z.bandOf b).state = (s.bandOf b).state ∧
      Raised 96 s z ∧
      Recorded 0x07C0 4 (s.owner 4) s z ∧
      (z.bandOf b).backoff = some (s.up + (if recentRestarts s b = 0 then 10 else if recentRestarts s b = 1 then 60 else 300) * 1000000) ∧
      (∀ k : Fin 4, k.val ≠ b → z.bandOf k = s.bandOf k) ∧
      KeepsBut [.radio, .recorder, .views, .out] s z) ∧
  (∀ (b : Fin 4) (n : Nat) (m x : Int) (s : State),
    Up s →
    CanRecord s →
    s.isT = false →
    radioRuns s = true →
    bandLive s b.val = true →
    (s.bandOf b.val).causes = 0 →
    (s.bandOf b.val).latched = none →
    recentRestarts s b.val < 3 →
    (s.bandOf b).gflags.testBit 0 = true →
    (s.bandOf b).noisePersist ≤ n →
    hasDet s 1 (2 * b + 1) = true →
    hasDet s 2 (2 * b + 1) = true →
    (s.bandOf b).noiseLimit < m →
    x < (s.bandOf b).traffic →
    ∃ z, exec (.noiseRise b n m x) s = .next z ∧
      hasCause z b 2 = true ∧
      (z.bandOf b).en = false ∧
      (z.pathOf (2 * b)).muted = true ∧
      (z.pathOf (2 * b + 1)).muted = true ∧
      (z.bandOf b).lastCause = 2 ∧
      (z.bandOf b).mutes = inc32 (s.bandOf b).mutes ∧
      (z.bandOf b).state = (s.bandOf b).state ∧
      Raised 98 s z ∧
      Recorded 0x07C0 3 (s.owner 4) s z ∧
      (z.bandOf b).backoff = some (s.up + (if recentRestarts s b = 0 then 10 else if recentRestarts s b = 1 then 60 else 300) * 1000000) ∧
      (∀ k : Fin 4, k.val ≠ b.val → z.bandOf k = s.bandOf k) ∧
      KeepsBut [.radio, .recorder, .views, .out] s z) ∧
  (∀ (b : Fin 4) (n : Nat) (m : Int) (s : State),
    Up s →
    CanRecord s →
    s.isT = false →
    radioRuns s = true →
    bandLive s b.val = true →
    (s.bandOf b.val).causes = 0 →
    (s.bandOf b.val).latched = none →
    recentRestarts s b.val < 3 →
    (s.bandOf b).gflags.testBit 1 = true →
    2 ≤ n →
    hasDet s 3 b = true →
    (s.bandOf b).oobLimit < m →
    ∃ z, exec (.outOfBand b n m) s = .next z ∧
      hasCause z b 3 = true ∧
      (z.bandOf b).en = false ∧
      (z.pathOf (2 * b)).muted = true ∧
      (z.pathOf (2 * b + 1)).muted = true ∧
      (z.bandOf b).lastCause = 3 ∧
      (z.bandOf b).mutes = inc32 (s.bandOf b).mutes ∧
      (z.bandOf b).state = (s.bandOf b).state ∧
      Raised 99 s z ∧
      Recorded 0x07C0 3 (s.owner 4) s z ∧
      (z.bandOf b).backoff = some (s.up + (if recentRestarts s b = 0 then 10 else if recentRestarts s b = 1 then 60 else 300) * 1000000) ∧
      (∀ k : Fin 4, k.val ≠ b.val → z.bandOf k = s.bandOf k) ∧
      KeepsBut [.radio, .recorder, .views, .out] s z) ∧
  (∀ (b : Fin 4) (s : State),
    Up s →
    CanRecord s →
    s.isT = false →
    radioRuns s = true →
    radioTimeOk s = false →
    tddBand s b = true →
    (s.bandOf b).causes = 0 →
    (∀ k : Fin 4, k ≠ b → tddBand s k = false) →
    ∃ z, exec (.tddTimeMute) s = .next z ∧
      hasCause z b 4 = true ∧
      (z.bandOf b).quiet = true ∧
      (z.bandOf b).dir = 0 ∧
      (z.bandOf b).gate = false ∧
      (z.bandOf b).en = false ∧
      (z.pathOf (2 * b)).muted = true ∧
      (z.pathOf (2 * b + 1)).muted = true ∧
      Raised 100 s z ∧
      Recorded 0x07C0 3 (s.owner 4) s z ∧
      (∀ k : Fin 4, k ≠ b → z.bandOf k = s.bandOf k) ∧
      KeepsBut [.radio, .spars, .recorder, .views, .out] s z) ∧
  (∀ (b : Fin 4) (ms : Nat) (s : State),
    s.powered = true →
    radioRuns s = true →
    hasCause s b 4 = true →
    radioTimeOk s = true →
    1000 ≤ ms →
    ∃ z, exec (.tddResume b ms) s = .next z ∧
      hasCause z b 4 = false ∧
      (z.bandOf b).quiet = false ∧
      (z.bandOf b).causes = (s.bandOf b).causes - 8 ∧
      (z.bandOf b).state = (s.bandOf b).state ∧
      (∀ k : Fin 4, k ≠ b → z.bandOf k = s.bandOf k) ∧
      KeepsBut [.radio, .out] s z)

/-- RF_KILL and the thermal mute raise GUARD_MUTE, take BAND_EN and TDD_GATE of every band low and are recorded; when
the last such cause has lifted, GUARD_MUTE falls 1 ms later. A back-off that has run restarts the band: causes 1 to 3
lift and the restart is counted and recorded. EAVE_SHUTDOWN mutes the bands it names with its cause, EAVE_CLEAR lifts
it, EAVE_CONFIG sets Table EAV.7; each is recorded. EAVE_GET_STATUS answers Table EAV.8 and changes nothing but the
mailbox. Where a clause meets what the spec leaves open it states the model's reading: log entries 7, 142, 160. From
R746, R749, R752, R753, R755, R756, R757, R758, R760, R766, Table EAV.7, Table EAV.8. -/
def Obligations.EaveMutesTheRepeaterAndServes : Prop :=
  (∀ (n : Nat) (s : State),
    Up s →
    CanRecord s →
    s.isT = false →
    radioRuns s = true →
    s.supply.thermWarn = true →
    s.radio.thermMute = false →
    60 ≤ n →
    ∃ z, exec (.thermalMute n) s = .next z ∧
      z.radio.thermMute = true ∧
      z.radio.thermBack = true ∧
      z.radio.guardMute = true ∧
      (∀ b : Fin 4, (z.bandOf b).en = false ∧ (z.bandOf b).gate = false ∧ (z.bandOf b).dir = 0) ∧
      (∀ p : Fin 8, pathConfigured s p = true → (z.pathOf p).muted = true) ∧
      Recorded 0x07C0 3 (s.owner 4) s z ∧
      KeepsBut [.radio, .spars, .recorder, .views, .out] s z) ∧
  (∀ (n : Nat) (s : State),
    s.powered = true →
    radioRuns s = true →
    60 ≤ n →
    (∀ p : Fin 8, (s.pathOf p).cmd ≤ (s.pathOf p).ceiling.getD 0) →
    ∃ z, exec (.thermalMuteLift n) s = .next z ∧
      z.radio.thermMute = false ∧
      z.radio.thermBack = false ∧
      z.radio.releasing = (s.radio.guardMute && !(s.radio.killed || s.radio.mcMute || s.radio.modeMute)) ∧
      z.radio.guardMute = s.radio.guardMute ∧
      (∀ p : Fin 8, (z.pathOf p).applied = (s.pathOf p).cmd) ∧
      z.radio.band = s.radio.band ∧
      KeepsBut [.radio, .out] s z) ∧
  (∀ (ns : Nat) (s : State),
    Up s →
    CanRecord s →
    s.isT = false →
    radioRuns s = true →
    200 ≤ ns →
    s.radio.killed = false →
    ∃ z, exec (.rfKillAssert ns) s = .next z ∧
      z.radio.killed = true ∧
      z.radio.killN = false ∧
      z.radio.guardMute = true ∧
      (∀ b : Fin 4, (z.bandOf b).en = false ∧ (z.bandOf b).gate = false ∧ (z.bandOf b).dir = 0) ∧
      (∀ p : Fin 8, pathConfigured s p = true → (z.pathOf p).muted = true) ∧
      Raised 103 s z ∧
      Recorded 0x07C8 3 (s.owner 4) s z ∧
      KeepsBut [.radio, .spars, .recorder, .views, .out] s z) ∧
  (∀ (ms : Nat) (s : State),
    Up s →
    CanRecord s →
    s.isT = false →
    radioRuns s = true →
    1000 ≤ ms →
    s.radio.killed = true →
    ∃ z, exec (.rfKillRelease ms) s = .next z ∧
      z.radio = { s.radio with killN := true, killed := false, releasing := s.radio.guardMute && !(s.radio.mcMute || s.radio.thermMute || s.radio.modeMute) } ∧
      Recorded 0x07C8 3 (s.owner 4) s z ∧
      KeepsBut [.radio, .recorder, .views, .out] s z) ∧
  (∀ (us : Nat) (s : State),
    s.powered = true →
    radioRuns s = true →
    s.radio.guardMute = true →
    s.supply.mode = .run →
    s.supply.pfail = false →
    (vat s.spars 2).state = .running →
    s.radio.killN = true →
    wholeCause s.radio = false →
    1000 ≤ us →
    ∃ z, exec (.guardMuteRelease us) s = .next z ∧
      z.radio.guardMute = false ∧
      z.radio.releasing = false ∧
      (∀ b : Fin 4, (s.bandOf b).state ≠ .active → (z.bandOf b).en = false) ∧
      (∀ b : Fin 4, (z.bandOf b).state = (s.bandOf b).state ∧ (z.bandOf b).causes = (s.bandOf b).causes) ∧
      (∀ b : Fin 4, bandOpen { s with radio := { s.radio with guardMute := false } } b = true → (z.pathOf (2 * b)).muted = false ∧ (z.pathOf (2 * b + 1)).muted = false) ∧
      KeepsBut [.radio, .out] s z) ∧
  (∀ (b : Fin 4) (n x : Nat) (s : State),
    Up s →
    CanRecord s →
    s.isT = false →
    radioRuns s = true →
    (s.bandOf b).backoff = some x →
    (s.bandOf b).latched = none →
    wholeCause s.radio = false →
    (s.bandOf b).backoffS ≤ n →
    ∃ z, exec (.backoffExpiry b n) s = .next z ∧
      (z.bandOf b).backoff = none ∧
      (z.bandOf b).causes = (s.bandOf b).causes - (s.bandOf b).causes % 8 ∧
      (z.bandOf b).restarts = s.up :: (s.bandOf b).restarts ∧
      (z.bandOf b).state = (s.bandOf b).state ∧
      Recorded 0x07C1 2 (s.owner 4) s z ∧
      (∀ k : Fin 4, k ≠ b → z.bandOf k = s.bandOf k) ∧
      KeepsBut [.radio, .recorder, .views, .out] s z) ∧
  (∀ (c : Call) (s : State),
    Served cmdEaveGetStatus c s →
    ∃ z, exec (.eaveGetStatus c) s = .next z ∧
      Answered c 0x0740 St.ok (eaveStatus s) z ∧
      ReadsOnly c s z) ∧
  (∀ (c : Call) (p : Bytes) (b : Nat) (s : State),
    Served cmdEaveConfig c s →
    p = c.payload →
    CanRecord s →
    s.campel = true →
    b = byteAt p 0 →
    (s.bandOf b).state ≠ .active →
    ∃ z, exec (.eaveConfig c) s = .next z ∧
      Answered c 0x0741 St.ok [] z ∧
      z.bandOf b = { s.bandOf b with margin := byteAt p 1, rise := byteAt p 2, gflags := byteAt p 3, oscExcess := rd p 4 2, outLimIn := rdS p 6 2, outLimOut := rdS p 8 2, noiseLimit := rdS p 10 2, traffic := rdS p 12 2, noisePersist := byteAt p 14, thermBackoff := byteAt p 15, oobLimit := rdS p 16 2, guardStart := byteAt p 18 } ∧
      (∀ k : Fin 4, k.val ≠ b → z.bandOf k = s.bandOf k) ∧
      Recorded 0x07C7 2 (s.owner 4) s z ∧
      SetsOnly [.radio, .recorder] c s z) ∧
  (∀ (c : Call) (p : Bytes) (b : Nat) (s : State),
    Served cmdEaveShutdown c s →
    p = c.payload →
    CanRecord s →
    s.campel = true →
    b < 4 →
    byteAt p 0 = 2 ^ b →
    hasCause s b (4 + byteAt p 1) = false →
    ∃ z, exec (.eaveShutdown c) s = .next z ∧
      Answered c 0x0742 St.ok [] z ∧
      hasCause z b (4 + byteAt p 1) = true ∧
      (z.bandOf b).lastCause = 4 + byteAt p 1 ∧
      (z.bandOf b).en = false ∧
      (z.pathOf (2 * b)).muted = true ∧
      (z.pathOf (2 * b + 1)).muted = true ∧
      (z.bandOf b).state = (s.bandOf b).state ∧
      (∀ k : Fin 4, k.val ≠ b → z.bandOf k = s.bandOf k) ∧
      Recorded 0x07C4 2 (s.owner 4) s z ∧
      SetsOnly [.radio, .recorder] c s z) ∧
  (∀ (c : Call) (p : Bytes) (b : Nat) (s : State),
    Served cmdEaveClear c s →
    p = c.payload →
    CanRecord s →
    s.campel = true →
    b < 4 →
    byteAt p 0 = 2 ^ b →
    byteAt p 1 = 2 →
    hasCause s b 6 = true →
    ∃ z, exec (.eaveClear c) s = .next z ∧
      Answered c 0x0743 St.ok [] z ∧
      hasCause z b 6 = false ∧
      (z.bandOf b).causes = (s.bandOf b).causes - 32 ∧
      (z.bandOf b).state = (s.bandOf b).state ∧
      (z.bandOf b).latched = (s.bandOf b).latched ∧
      (∀ k : Fin 4, k.val ≠ b → z.bandOf k = s.bandOf k) ∧
      Recorded 0x07C3 2 (s.owner 4) s z ∧
      SetsOnly [.radio, .recorder] c s z)

/-- A KEY_DERIVE or unwrapped KEY_IMPORT into an EMPTY slot loads it with the next LOAD number, its count zero, and
raises 106 with its record. KEY_ERASE empties a slot, keeps what operations still use as retiring material, and waits
for its zeroisation, which completes it. KEY_WRAP writes the header and the sealed key under the nonce of R790 and
counts one invocation. KEY_SET_USERS sets the users of a slot. Every other slot is as before. Where a clause meets
what the spec leaves open it states the model's reading: log entries 8, 109. From R777, R778, R781, R784, R786, R788,
R789, R790, R792, R795, R797, R800. -/
def Obligations.KeySlotsLoadUseAndErase : Prop :=
  (∀ (c : Call) (p : Bytes) (i : Nat) (s : State),
    Served cmdKeyDerive c s →
    s.campel = true →
    CanRecord s →
    p = c.payload →
    i = byteAt p 0 →
    (s.key i).kind = 0 →
    (s.key i).retiring = none →
    s.keys.loads < 65535 →
    rootSecretOk s = true →
    ∃ z, exec (.keyDerive c) s = .next z ∧
      Answered c 0x0A02 St.ok [] z ∧
      z.key i = { kind := byteAt p 1, material := kdf (rootSecret s) (slice p 12 (byteAt p 8)) (slice p 44 (byteAt p 9)) (if byteAt p 1 = 1 then 512 else 256), users := byteAt p 2, formNonce := byteAt p 3 == 1, name := rd p 4 4, load := s.keys.loads + 1, origin := 1 } ∧
      z.keys.loads = s.keys.loads + 1 ∧
      (∀ k : Fin 16, k.val ≠ i → z.key k = s.key k) ∧
      (z.view 0).raw.getLsbD 106 = true ∧
      Recorded 0x0A80 2 0 s z ∧
      SetsOnly [.keys, .recorder] c s z) ∧
  (∀ (c : Call) (p : Bytes) (i : Nat) (s : State),
    Served cmdKeyImport c s →
    s.campel = true →
    CanRecord s →
    p = c.payload →
    i = byteAt p 0 →
    (s.key i).kind = 0 →
    (s.key i).retiring = none →
    s.keys.loads < 65535 →
    (byteAt p 3).testBit 0 = false →
    (debugRow s).testBit 2 = false →
    s.loft.poisoned (yAddr (hIndex (rd p 8 4)) 0) (byteAt p 13) = false →
    byteAt p 1 ≠ 1 →
    ∃ z, exec (.keyImport c) s = .next z ∧
      Answered c 0x0A03 St.ok [] z ∧
      z.key i = { kind := byteAt p 1, material := Machine.loftRead s (yAddr (hIndex (rd p 8 4)) 0) (byteAt p 13), users := byteAt p 2, formNonce := byteAt p 3 / 2 == 1, name := rd p 4 4, load := s.keys.loads + 1, origin := 2 } ∧
      z.keys.loads = s.keys.loads + 1 ∧
      (∀ k : Fin 16, k.val ≠ i → z.key k = s.key k) ∧
      (z.view 0).raw.getLsbD 106 = true ∧
      Recorded 0x0A80 2 0 s z ∧
      SetsOnly [.keys, .recorder] c s z) ∧
  (∀ (c : Call) (p : Bytes) (i : Nat) (s : State),
    Served cmdKeyErase c s →
    MayAccept c s →
    CanRecord s →
    s.campel = true →
    p = c.payload →
    i = byteAt p 0 →
    (s.key i).kind ≠ 0 →
    (s.key i).retiring = none →
    ∃ z, exec (.keyErase c) s = .next z ∧
      AcceptedAs c 0x0A04 (fun j => j.waits && j.key == i) z ∧
      z.key i = { retiring := some { material := (s.key i).material, load := (s.key i).load, users := (s.key i).ops, op := 0x0A04 } } ∧
      (∀ k : Fin 16, k.val ≠ i → z.key k = s.key k) ∧
      (z.view 0).raw.getLsbD 106 = true ∧
      Recorded 0x0A80 2 0 s z ∧
      StartsOnly [.keys, .recorder] c s z) ∧
  (∀ (c : Call) (p : Bytes) (i : Nat) (s : State),
    Served cmdKeySetUsers c s →
    p = c.payload →
    i = byteAt p 0 →
    (s.key i).kind ≠ 0 →
    ∃ z, exec (.keySetUsers c) s = .next z ∧
      Answered c 0x0A05 St.ok [] z ∧
      z.key i = { s.key i with users := byteAt p 1, formNonce := byteAt p 2 == 1 } ∧
      (∀ k : Fin 16, k.val ≠ i → z.key k = s.key k) ∧
      z.keys = { s.keys with slot := z.keys.slot } ∧
      SetsOnly [.keys] c s z) ∧
  (∀ (c : Call) (p h : Bytes) (i a : Nat) (s : State),
    Served cmdKeyWrap c s →
    p = c.payload →
    i = byteAt p 0 →
    a = yAddr (hIndex (rd p 8 4)) 0 →
    (debugRow s).testBit 2 = false →
    s.loft.poisoned a (byteAt p 2) = false →
    byteAt p 1 ≠ 1 →
    (s.key i).kind = 5 →
    (s.key i).formNonce = true →
    epochUsable s = true →
    (s.key i).worn = false →
    (s.key i).used + 1 ≤ 2 ^ 48 →
    h = leBytes 1 (byteAt p 1) ++ leBytes 1 (byteAt p 2) ++ zeros 2 ++ slice p 4 4 ++ leBytes 4 s.boot.epoch ++ leBytes 8 ((s.key i).load * 2 ^ 48 + (s.key i).used) ++ zeros 12 →
    ∃ z, exec (.keyWrap c) s = .next z ∧
      Answered c 0x0A06 St.ok [] z ∧
      Machine.loftRead z (yAddr (hIndex (rd p 12 4)) 0) (48 + byteAt p 2) = h ++ fit (byteAt p 2 + 16) (Config.gcmSeal (s.key i).material (slice h 8 12) h (Machine.loftRead s a (byteAt p 2))) ∧
      z.key i = { s.key i with used := (s.key i).used + 1 } ∧
      (∀ k : Fin 16, k.val ≠ i → z.key k = s.key k) ∧
      SetsOnly [.keys, .loft] c s z) ∧
  (∀ (i : Fin 16) (r : Retiring) (j : Job) (n : Nat) (s : State),
    s.powered = true →
    s.campel = true →
    s.supply.holdUp = false →
    j.origin = none →
    eventRing s j.tenant = some n →
    (s.ring n).lost = 0 →
    (s.ring n).log2 ≤ 12 →
    CanRecord s →
    (s.key i).retiring = some r →
    r.users = 0 →
    findJob s r.op i = some j →
    ∃ z, exec (.retiringZeroise i) s = .next z ∧
      z.key i = { s.key i with retiring := none } ∧
      (∀ k : Fin 16, k ≠ i → z.key k = s.key k) ∧
      Recorded 0x0A80 2 0 s z ∧
      z.jobs = s.jobs.erase j ∧
      EventPosted n (eventDesc 1 St.ok j.op j.token j.tenant s.cascade.position [] s.timebase.now) s z ∧
      KeepsBut [.keys, .recorder, .jobs, .loft, .tenants, .rings, .views, .out] s z)

/-- KEY_CLAIM_SET sets the claims, those of islands 1 to 4 and 12 always among them. KEY_DEBUG_UNLOCK with the fuses
of R807 unlocks the scan and is recorded. The reads answer their tables and change nothing but the mailbox. IDCODE
shifts out the identity; an unlisted code or one a locked scan forbids is BYPASS; a scan that is entered zeroises
every slot, is recorded and has its cause of SAFE. Where a clause meets what the spec leaves open it states the
model's reading: log entry 154. From R804, R806, R807, R808, R809, R813, R814, R1075, Table KEY.6, Table KEY.7, Table
ELE.20. -/
def Obligations.CryptoStatusDebugAndScan : Prop :=
  (∀ (c : Call) (s : State),
    Served cmdKeyGetInfo c s →
    ∃ z, exec (.keyGetInfo c) s = .next z ∧
      Answered c 0x0A01 St.ok ((List.range (byteAt c.payload 1)).flatMap fun i => keyEntry s c.t (byteAt c.payload 0 + i)) z ∧
      ReadsOnly c s z) ∧
  (∀ (c : Call) (s : State),
    Served cmdKeyClaimSet c s →
    ∃ z, exec (.keyClaimSet c) s = .next z ∧
      Answered c 0x0A07 St.ok [] z ∧
      z.keys = { s.keys with claims := rd c.payload 0 2 ||| 0x80F } ∧
      SetsOnly [.keys] c s z) ∧
  (∀ (c : Call) (s : State),
    Served cmdKeyDebugUnlock c s →
    CanRecord s →
    s.campel = true →
    (debugRow s).testBit 0 = true →
    (debugRow s).testBit 1 = true →
    otpValid s 6 = true →
    s.keys.unlocked = false →
    ∃ z, exec (.keyDebugUnlock c) s = .next z ∧
      Answered c 0x0A08 St.ok [] z ∧
      z.keys = { s.keys with unlocked := true } ∧
      (z.view 0).raw.getLsbD 110 = true ∧
      Recorded 0x0AA4 3 0 s z ∧
      SetsOnly [.keys, .recorder] c s z) ∧
  (∀ (c : Call) (s : State),
    Served cmdKeyDebugUnlock c s →
    ((debugRow s).testBit 0 = false ∨ (debugRow s).testBit 1 = false ∨ otpValid s 6 = false) →
    ∃ z, exec (.keyDebugUnlock c) s = .next z ∧
      Answered c 0x0A08 St.notPermitted [] z ∧
      ReadsOnly c s z) ∧
  (∀ (c : Call) (s : State),
    Served cmdKeyGetStatus c s →
    ∃ z, exec (.keyGetStatus c) s = .next z ∧
      Answered c 0x0A09 St.ok (leBytes 1 s.boot.epochState ++ leBytes 1 (b2n s.keys.unlocked + 2 * b2n s.keys.scan) ++ leBytes 2 s.keys.claims ++ leBytes 2 (s.keys.loads + 1) ++ zeros 2 ++ leBytes 4 s.keys.denials ++ leBytes 4 s.keys.rejects) z ∧
      ReadsOnly c s z) ∧
  (∀ (v : BitVec 5) (s : State),
    s.powered = true →
    v = 2#5 →
    ∃ z, exec (.tapInstruction v) s = .next z ∧
      z.keys = { s.keys with tap := 2 } ∧
      z.out = .tdo 32 (idcode s) :: s.out ∧
      KeepsBut [.keys, .out] s z) ∧
  (∀ (v : BitVec 5) (s : State),
    s.powered = true →
    v ≠ 2#5 →
    (s.keys.unlocked = false ∨ 4 < v.toNat) →
    ∃ z, exec (.tapInstruction v) s = .next z ∧
      z.keys = { s.keys with tap := 31 } ∧
      z.out = .tdo 1 0 :: s.out ∧
      KeepsBut [.keys, .out] s z) ∧
  (∀ (v : BitVec 5) (s : State),
    Up s →
    CanRecord s →
    s.keys.unlocked = true →
    v.toNat ≤ 4 →
    v ≠ 1#5 →
    v ≠ 2#5 →
    s.keys.tap ≠ v.toNat →
    (∀ i : Fin 16, (s.key i).retiring = none) →
    s.supply.mode = .safe →
    s.supply.change = none →
    ∃ z, exec (.tapInstruction v) s = .next z ∧
      z.keys = { s.keys with tap := v.toNat, scan := true, slot := Vector.replicate 16 {} } ∧
      z.supply = { s.supply with safeCause := s.supply.safeCause ||| BitVec.twoPow 8 7 } ∧
      Recorded 0x0AA5 5 0 s z ∧
      KeepsBut [.keys, .supply, .recorder, .views, .out] s z)

/-- The oldest staged record enters its journal slot; a slot that fails its verify is retired and recorded. Dropped
records are reported once staging has room. A chronicle sector written puts the records in their sector and they are
chronicled; blank headers are written and recorded; a record that waited 60 s raises 113; tight mode ends with its
record. A write of BRC_READ_SEQ_LO fetches a record into the tenant's window; a read of BRC_DATA15 with AUTO set
fetches the next. The next record is forwarded. Where a clause meets what the spec leaves open it states the model's
reading: log entries 7, 17, 130. From R830, R831, R833, R836, R837, R840, R844, R847, R852, R916, R849, R850. -/
def Obligations.RecorderKeepsItsRecords : Prop :=
  (∀ (x : Record) (l : List Record) (s : State),
    s.powered = true →
    s.campel = true →
    s.recorder.staging = x :: l →
    s.recorder.journalTakes = true →
    s.recorder.chronState = chronNow s →
    s.recorder.highNow = false →
    s.recorder.tight = true →
    s.recorder.unchronicled < 5999 →
    s.recorder.high = false →
    ∃ z, exec (.journalSlotWrite true none) s = .next z ∧
      mget z.recorder.journal s.recorder.target = some { record := x } ∧
      (∀ l, l ≠ s.recorder.target → mget z.recorder.journal l = mget s.recorder.journal l) ∧
      z.recorder.staging = l ∧
      z.recorder.nextSlot = (s.recorder.target + 1) % 8000 ∧
      z.recorder.head = s.recorder.head ∧
      KeepsBut [.recorder, .views, .out] s z) ∧
  (∀ (x : Record) (l : List Record) (s : State),
    s.powered = true →
    s.campel = true →
    s.recorder.staging = x :: l →
    s.recorder.journalTakes = true →
    s.recorder.chronState = chronNow s →
    CanRecord s →
    (setIns s.recorder.retired s.recorder.target).length < 64 →
    ∃ z, exec (.journalSlotWrite false none) s = .next z ∧
      z.recorder.retired = setIns s.recorder.retired s.recorder.target ∧
      z.recorder.nextSlot = (s.recorder.target + 1) % 8000 ∧
      mget z.recorder.journal s.recorder.target = none ∧
      Recorded 0x09A5 3 0 s z ∧
      KeepsBut [.recorder, .views, .out] s z) ∧
  (∀ (a b : Nat) (s : State),
    Up s →
    CanRecord s →
    s.recorder.dropTimes = some (a, b) →
    s.recorder.staging.length < 63 →
    ∃ z, exec (.recordsDropped) s = .next z ∧
      z.recorder.dropTimes = none ∧
      z.recorder.dropCounts = [0, 0, 0, 0, 0, 0] ∧
      Recorded 0x09A1 4 0 s z ∧
      (z.recorder.staging.any fun x => x.payload == fit 32 (s.recorder.dropCounts.flatMap (leBytes 4 ·) ++ leBytes 4 a ++ leBytes 4 b)) = true ∧
      KeepsBut [.recorder, .views, .out] s z) ∧
  (∀ (us : Nat) (r : Recorder) (s : State),
    s.powered = true →
    s.campel = true →
    chronNow s = .active →
    s.supply.pfail = false →
    s.channel.wgBlocked = false →
    1000000 ≤ us →
    r = s.recorder →
    nextRecords r = [] →
    r.openSector ≠ [] →
    r.openSector.length < 64 →
    r.chronState = .active →
    r.sincePersist < 255 →
    r.highNow = false →
    r.tight = true →
    r.unchronicled = 0 →
    r.high = false →
    ∃ z, exec (.chronicleSectorWrite true true us) s = .next z ∧
      mget z.recorder.chron r.nextIndex = some r.openSector ∧
      z.recorder.chronicled = max r.chronicled ((r.openSector.getLast?.map (·.seq)).getD r.chronicled) ∧
      z.recorder.nextIndex = r.nextIndex ∧
      z.recorder.lag = false ∧
      z.recorder.sincePersist = r.sincePersist + 1 ∧
      z.recorder.journal = r.journal ∧
      KeepsBut [.recorder] s z) ∧
  (∀ (f : Format) (s : State),
    Up s →
    CanRecord s →
    s.supply.mode = .run →
    s.channel.format = some f →
    s.recorder.header = none →
    ∃ z, exec (.chronicleStarted) s = .next z ∧
      z.recorder.header = some { identity := identityRows s, raCyl := f.raCyl, zone0Rate := ((mget f.zones 0).map (·.rate)).getD 0, raSectors := f.raSectors, epoch := s.boot.epoch, collected := 0 } ∧
      z.recorder.chron = [] ∧
      z.recorder.nextIndex = 1 ∧
      z.recorder.collected = 0 ∧
      Recorded 0x0984 2 0 s z ∧
      KeepsBut [.recorder, .boot, .views, .out] s z) ∧
  (∀ (n : Nat) (s : State),
    Up s →
    chronNow s = .active →
    60 ≤ n →
    s.recorder.unchronicled ≠ 0 →
    s.recorder.lag = false →
    ∃ z, exec (.chronicleLag n) s = .next z ∧
      z.recorder = { s.recorder with lag := true } ∧
      Raised 113 s z ∧
      KeepsBut [.recorder, .views, .out] s z) ∧
  (∀ (n : Nat) (s : State),
    Up s →
    s.recorder.tight = true →
    s.recorder.chronState = chronNow s →
    s.recorder.tightNow = false →
    s.recorder.exhausted = false →
    s.recorder.staging.length < 64 →
    s.recorder.head + 2 < seqLast →
    10 ≤ n →
    ∃ z, exec (.tightLeft n) s = .next z ∧
      Recorded 0x0982 2 0 s z ∧
      z.recorder.skipped = (0, 0) ∧
      (z.recorder.staging.any fun x => x.payload == fit 32 (leBytes 4 s.recorder.skipped.1 ++ leBytes 4 s.recorder.skipped.2 ++ leBytes 4 ((s.up - s.recorder.tightSince) / 1000000))) = true ∧
      KeepsBut [.recorder, .views, .out] s z) ∧
  (∀ (t : Fin 8) (v : BitVec 32) (s : State),
    s.powered = true →
    mayRead s t = true →
    ∃ z, exec (.brcReadSeqLo t v) s = .next z ∧
      (let w := vat s.recorder.window t; let g := deliver t s.recorder.head (w.seq / 2 ^ 32 * 2 ^ 32 + v.toNat) (windowRecord s.recorder (w.seq / 2 ^ 32 * 2 ^ 32 + v.toNat)); vat z.recorder.window t = { w with seq := w.seq / 2 ^ 32 * 2 ^ 32 + v.toNat, code := g.1, data := if g.1 = 0 ∨ g.1 = 3 then g.2 else w.data }) ∧
      z.recorder = { s.recorder with window := z.recorder.window } ∧
      (∀ k : Fin 8, k ≠ t → vat z.recorder.window k = vat s.recorder.window k) ∧
      KeepsBut [.recorder] s z) ∧
  (∀ (t : Fin 8) (s : State),
    s.powered = true →
    mayRead s t = true →
    (vat s.recorder.window t).auto = true →
    ∃ z, exec (.brcData15Read t) s = .next z ∧
      (let w := vat s.recorder.window t; let g := deliver t s.recorder.head ((w.seq + 1) % 2 ^ 48) (windowRecord s.recorder ((w.seq + 1) % 2 ^ 48)); vat z.recorder.window t = { w with seq := (w.seq + 1) % 2 ^ 48, code := g.1, data := if g.1 = 0 ∨ g.1 = 3 then g.2 else w.data }) ∧
      z.out = .pcie (slice (vat s.recorder.window t).data 60 4) false :: s.out ∧
      z.recorder = { s.recorder with window := z.recorder.window } ∧
      (∀ k : Fin 8, k ≠ t → vat z.recorder.window k = vat s.recorder.window k) ∧
      KeepsBut [.recorder, .out] s z)

/-- BRC_GET_STATUS answers Table BRC.10 and changes nothing but the mailbox. BRC_READ puts the records it names,
hidden ones blanked for other tenants, into its yealm and is accepted with their counts; BRC_FIND puts the sequence it
found. BRC_WRITE records the tenant's record and answers its sequence; the seventeenth within a second answers BUSY.
BRC_COLLECTED raises COLLECTED and persists the pointer. BRC_NVM_RETEST is accepted only while the NVM is faulted.
Where a clause meets what the spec leaves open it states the model's reading: log entry 18. From R846, R848, R849,
R856, R860, R861, R862, R863, Table BRC.8, Table BRC.10. -/
def Obligations.RecorderRequestsServe : Prop :=
  (∀ (c : Call) (r : Recorder) (s : State),
    Served cmdBrcGetStatus c s →
    r = s.recorder →
    ∃ z, exec (.brcGetStatus c) s = .next z ∧
      Answered c 0x0901 St.ok (leBytes 1 (recorderState s) ++ leBytes 1 (chronNow s).code ++ leBytes 1 (tally s) ++ leBytes 1 r.staging.length ++ leBytes 6 r.head ++ leBytes 6 (lowestSeq (r.journal.map (·.2.record))) ++ leBytes 6 (lowestSeq (chronRecords r)) ++ leBytes 6 r.chronicled ++ leBytes 6 r.collected ++ leBytes 2 r.retired.length ++ leBytes 4 r.dropped ++ leBytes 4 r.tightSkipped ++ leBytes 4 r.overwritten ++ leBytes 4 r.afterExhaustion) z ∧
      ReadsOnly c s z) ∧
  (∀ (c : Call) (p : Bytes) (i : Nat) (g : Nat × Bytes) (s : State),
    Served cmdBrcRead c s →
    MayAccept c s →
    p = c.payload →
    i = hIndex (rd p 8 4) →
    byteAt p 6 = 1 →
    onlyUnavailable s (rd p 0 6) = false →
    g = readSlot s c.t (rd p 0 6) →
    g.2.length = 64 →
    ∃ z, exec (.brcRead c) s = .next z ∧
      AcceptedAs c 0x0902 (fun j => j.pins == [i] && j.result == slice p 8 4 ++ leBytes 1 (b2n (g.1 == 0)) ++ leBytes 1 (b2n (g.1 == 2 || g.1 == 4)) ++ leBytes 1 (b2n (g.1 == 3)) ++ leBytes 1 (b2n (g.1 == 5))) z ∧
      Machine.loftRead z (yAddr i 0) 64 = g.2 ∧
      (∀ a, a < yAddr i 0 ∨ yAddr i 0 + 64 ≤ a → z.byte a = s.byte a) ∧
      (z.loft.tag i).pins = (s.loft.tag i).pins + 1 ∧
      StartsOnly [.loft] c s z) ∧
  (∀ (c : Call) (p : Bytes) (i n : Nat) (s : State),
    Served cmdBrcFind c s →
    MayAccept c s →
    p = c.payload →
    i = hIndex (rd p 12 4) →
    n = findSeq (bySeq (s.recorder.staging ++ s.recorder.journal.map (·.2.record) ++ chronRecords s.recorder)) (rdTime p 0) →
    (n = 0 ∨ onlyUnavailable s n = false) →
    ∃ z, exec (.brcFind c) s = .next z ∧
      AcceptedAs c 0x0903 (fun j => j.pins == [i] && j.result == slice p 12 4) z ∧
      Machine.loftRead z (yAddr i 0) 6 = leBytes 6 (findSeq (allRecords s) (rdTime p 0)) ∧
      (∀ a, a < yAddr i 0 ∨ yAddr i 0 + 6 ≤ a → z.byte a = s.byte a) ∧
      (z.loft.tag i).pins = (s.loft.tag i).pins + 1 ∧
      StartsOnly [.loft] c s z) ∧
  (∀ (c : Call) (p : Bytes) (s : State),
    Served cmdBrcWrite c s →
    p = c.payload →
    CanRecord s →
    s.campel = true →
    (lastSecond s.up (vat s.recorder.writes c.t)).length < 16 →
    ∃ z, exec (.brcWrite c) s = .next z ∧
      Answered c 0x0904 St.ok (leBytes 6 (s.recorder.head + 1)) z ∧
      Recorded (rd p 0 2) (byteAt p 2) c.t s z ∧
      (z.recorder.staging.any fun x => x.seq == s.recorder.head + 1 && x.payload == slice p 4 32 && x.source == 0x0109) = true ∧
      vat z.recorder.writes c.t = s.up :: lastSecond s.up (vat s.recorder.writes c.t) ∧
      SetsOnly [.recorder] c s z) ∧
  (∀ (c : Call) (s : State),
    Served cmdBrcWrite c s →
    s.recorder.exhausted = false →
    16 ≤ (lastSecond s.up (vat s.recorder.writes c.t)).length →
    ∃ z, exec (.brcWrite c) s = .next z ∧
      Answered c 0x0904 St.busy [] z ∧
      ReadsOnly c s z) ∧
  (∀ (c : Call) (n : Nat) (s : State),
    Served cmdBrcCollected c s →
    n = rd c.payload 0 6 →
    n ≤ s.recorder.head →
    s.recorder.collected < n →
    ∃ z, exec (.brcCollected c) s = .next z ∧
      Answered c 0x0905 St.ok [] z ∧
      z.recorder.collected = n ∧
      z.recorder.pointer.collected = n ∧
      z.recorder.head = s.recorder.head ∧
      z.recorder.journal = s.recorder.journal ∧
      SetsOnly [.recorder, .boot] c s z) ∧
  (∀ (c : Call) (s : State),
    Served cmdBrcNvmRetest c s →
    MayAccept c s →
    s.recorder.nvmFaulted = true →
    inFlight s 0x0906 = false →
    ∃ z, exec (.brcNvmRetest c) s = .next z ∧
      AcceptedAs c 0x0906 (fun _ => true) z ∧
      StartsOnly [] c s z)

/-- A DISCOVER from position p gives position p + 1, is recorded when it is new, and goes on or, at the end of the
chain, is answered DISCOVER_END; an eighth module is outside. The Ridge takes MODULES of DISCOVER_END. A DOWN frame is
answered, and completes the exchange: hop offset and delay of R894 and the CASCADE measurement; CHAIN_TIME clear
disqualifies CASCADE. OFFSETS are adopted while CASCADE is followed. ROLE displaces a Ridge and ends a handback.
Heartbeats are relayed; a spare that misses them for 2 s takes over, others record the loss. Where a clause meets what
the spec leaves open it states the model's reading: log entries 7, 113, 173. From R874, R875, R876, R893, R894, R897,
R898, R919, R920, R921, R923, R924. -/
def Obligations.DiscoveryTimeAndRolesOfTheChain : Prop :=
  (∀ (rx : LaneRx) (b : Nat) (s : State),
    LaneHeard rx s →
    rx.lane = 0 →
    b = byteAt rx.payload 0 →
    Up s →
    CanRecord s →
    s.boot.role = 2 →
    s.cascade.acting ≠ .actingRidge →
    b < 7 →
    (s.cascade.valid = false ∨ s.cascade.position ≠ b + 1) →
    s.motor.a.state ≠ .locked →
    LaneClear 1 0x01 12 s →
    ∃ z, exec (.discover rx) s = .next z ∧
      z.cascade = { s.cascade with lane := z.cascade.lane, position := b + 1, valid := true, outside := false, acting := .rafter, leaseSeen := max s.cascade.leaseSeen (rd rx.payload 4 6), discoverAt := some s.up } ∧
      (z.laneOf 0).peer = true ∧
      LaneSent 1 0x01 (b + 2) (b + 1) (leBytes 1 (b + 1) ++ leBytes 1 s.boot.role ++ zeros 2 ++ leBytes 6 (max s.cascade.leaseSeen (rd rx.payload 4 6)) ++ zeros 2) z ∧
      Recorded 0x0B80 2 0 s z ∧
      LaneTook rx 0x01 s z ∧
      KeepsBut [.cascade, .recorder, .views, .out] s z) ∧
  (∀ (rx : LaneRx) (b : Nat) (s : State),
    LaneHeard rx s →
    rx.lane = 0 →
    b = byteAt rx.payload 0 →
    s.boot.role = 2 →
    s.cascade.acting ≠ .actingRidge →
    b < 7 →
    s.cascade.valid = true →
    s.cascade.position = b + 1 →
    (s.laneOf 1).state = .training →
    LaneClear 0 0x02 12 s →
    ∃ z, exec (.discover rx) s = .next z ∧
      z.cascade = { s.cascade with lane := z.cascade.lane, outside := false, acting := .rafter, leaseSeen := max s.cascade.leaseSeen (rd rx.payload 4 6) } ∧
      LaneSent 0 0x02 b (b + 1) (leBytes 1 (b + 1) ++ zeros 3 ++ leBytes 6 (max s.cascade.leaseSeen (rd rx.payload 4 6)) ++ zeros 2) z ∧
      LaneTook rx 0x01 s z ∧
      (∀ l : Fin 2, l.val ≠ 0 → z.laneOf l = s.laneOf l) ∧
      KeepsBut [.cascade, .out] s z) ∧
  (∀ (rx : LaneRx) (b : Nat) (s : State),
    LaneHeard rx s →
    rx.lane = 0 →
    b = byteAt rx.payload 0 →
    (s.boot.role = 2 ∨ s.boot.role = 3) →
    s.cascade.acting = .actingRidge →
    LaneClear 0 0x05 4 s →
    ∃ z, exec (.discover rx) s = .next z ∧
      z.cascade = { s.cascade with lane := z.cascade.lane, leaseSeen := max s.cascade.leaseSeen (rd rx.payload 4 6) } ∧
      LaneSent 0 0x05 b s.cascade.position (leBytes 1 1 ++ leBytes 1 s.cascade.position ++ zeros 2) z ∧
      LaneTook rx 0x01 s z ∧
      (∀ l : Fin 2, l.val ≠ 0 → z.laneOf l = s.laneOf l) ∧
      KeepsBut [.cascade, .out] s z) ∧
  (∀ (rx : LaneRx) (b : Nat) (s : State),
    LaneHeard rx s →
    rx.lane = 0 →
    b = byteAt rx.payload 0 →
    Up s →
    CanRecord s →
    (s.boot.role = 2 ∨ s.boot.role = 3) →
    s.cascade.acting ≠ .actingRidge →
    7 ≤ b →
    s.cascade.outside = false →
    ∃ z, exec (.discover rx) s = .next z ∧
      z.cascade = { s.cascade with lane := z.cascade.lane, outside := true, valid := false, conflictTold := true, leaseSeen := max s.cascade.leaseSeen (rd rx.payload 4 6) } ∧
      Recorded 0x0BA5 4 0 s z ∧
      LaneTook rx 0x01 s z ∧
      (∀ l : Fin 2, l.val ≠ 0 → z.laneOf l = s.laneOf l) ∧
      KeepsBut [.cascade, .recorder, .views, .out] s z) ∧
  (∀ (rx : LaneRx) (s : State),
    Up s →
    s.supply.isl.cascade = true →
    (s.laneOf rx.lane).state = .up →
    (s.laneOf rx.lane).rxSeq < 65536 →
    rx.fseq = ((s.laneOf rx.lane).rxSeq + 1) % 65536 →
    rx.blockErr = false →
    rx.crcOk = false →
    (s.laneOf rx.lane).errAt = none →
    ∃ z, exec (.discover rx) s = .next z ∧
      z.cascade = { s.cascade with lane := z.cascade.lane } ∧
      (z.laneOf rx.lane).rxSeq = (s.laneOf rx.lane).rxSeq ∧
      vat (z.laneOf rx.lane).counters 5 = wrap64 (vat (s.laneOf rx.lane).counters 5 + 1) ∧
      vat (z.laneOf rx.lane).counters 6 = wrap64 (vat (s.laneOf rx.lane).counters 6 + 1) ∧
      .block rx.lane 0x55 (leBytes 2 (s.laneOf rx.lane).rxSeq ++ [1#8, 0#8, 0#8, 0#8, 0#8]) ∈ z.out ∧
      Raised (78 + rx.lane.val) s z ∧
      (∀ l : Fin 2, l.val ≠ rx.lane.val → z.laneOf l = s.laneOf l) ∧
      KeepsBut [.cascade, .views, .out] s z) ∧
  (∀ (rx : LaneRx) (b : Nat) (s : State),
    LaneHeard rx s →
    rx.lane = 1 →
    b = byteAt rx.payload 0 →
    Up s →
    CanRecord s →
    actsAsRidge s = true →
    s.cascade.modules ≠ b + 1 →
    ∃ z, exec (.discoverEnd rx) s = .next z ∧
      z.cascade = { s.cascade with lane := z.cascade.lane, modules := b + 1, discoverAt := none, leaseSeen := max s.cascade.leaseSeen (rd rx.payload 4 6) } ∧
      (z.laneOf 1).peer = true ∧
      Recorded 0x0B80 2 0 s z ∧
      LaneTook rx 0x02 s z ∧
      (∀ l : Fin 2, l.val ≠ 1 → z.laneOf l = s.laneOf l) ∧
      KeepsBut [.cascade, .recorder, .views, .out] s z) ∧
  (∀ (rx : LaneRx) (b : Nat) (s : State),
    LaneHeard rx s →
    rx.lane = 1 →
    b = byteAt rx.payload 0 →
    s.cascade.acting = .rafter →
    LaneClear 0 0x02 12 s →
    ∃ z, exec (.discoverEnd rx) s = .next z ∧
      z.cascade = { s.cascade with lane := z.cascade.lane, discoverAt := none, leaseSeen := max s.cascade.leaseSeen (rd rx.payload 4 6) } ∧
      (z.laneOf 1).peer = true ∧
      LaneSent 0 0x02 (s.cascade.position - 1) s.cascade.position (leBytes 1 (b) ++ zeros 3 ++ leBytes 6 (max s.cascade.leaseSeen (rd rx.payload 4 6)) ++ zeros 2) z ∧
      LaneTook rx 0x02 s z ∧
      KeepsBut [.cascade, .out] s z) ∧
  (∀ (s : State),
    s.powered = true →
    headsChain s = true →
    s.cascade.valid = true →
    LaneClear 1 0x01 12 s →
    ∃ z, exec (.discoverSend) s = .next z ∧
      z.cascade = { s.cascade with lane := z.cascade.lane, discoverAt := some s.up } ∧
      LaneSent 1 0x01 (s.cascade.position + 1) s.cascade.position (leBytes 1 (s.cascade.position) ++ leBytes 1 s.boot.role ++ zeros 2 ++ leBytes 6 (s.cascade.leaseSeen) ++ zeros 2) z ∧
      (∀ l : Fin 2, l.val ≠ 1 → z.laneOf l = s.laneOf l) ∧
      KeepsBut [.cascade, .out] s z) ∧
  (∀ (us : Nat) (s : State),
    Up s →
    CanRecord s →
    s.cascade.discoverAt.isSome = true →
    10000 ≤ us →
    (s.laneOf 1).state = .up →
    (s.laneOf 1).peer = false →
    s.cascade.acting = .rafter →
    LaneClear 0 0x02 12 s →
    ∃ z, exec (.discoverEndTimeout us) s = .next z ∧
      z.cascade = { s.cascade with lane := z.cascade.lane, discoverAt := none, conflictTold := true } ∧
      Recorded 0x0BA5 4 0 s z ∧
      LaneSent 0 0x02 (s.cascade.position - 1) s.cascade.position (leBytes 1 (s.cascade.position) ++ zeros 3 ++ leBytes 6 (s.cascade.leaseSeen) ++ zeros 2) z ∧
      (∀ l : Fin 2, l.val ≠ 0 → z.laneOf l = s.laneOf l) ∧
      KeepsBut [.cascade, .recorder, .views, .out] s z) ∧
  (∀ (us : Nat) (s : State),
    Up s →
    CanRecord s →
    s.cascade.discoverAt.isSome = true →
    10000 ≤ us →
    (s.laneOf 1).state = .training →
    (s.laneOf 1).peer = true →
    s.cascade.acting = .rafter →
    LaneClear 0 0x02 12 s →
    ∃ z, exec (.discoverEndTimeout us) s = .next z ∧
      z.cascade = { s.cascade with lane := z.cascade.lane, discoverAt := none } ∧
      (z.laneOf 1).peer = false ∧
      Recorded 0x0BA3 4 0 s z ∧
      LaneSent 0 0x02 (s.cascade.position - 1) s.cascade.position (leBytes 1 (s.cascade.position) ++ zeros 3 ++ leBytes 6 (s.cascade.leaseSeen) ++ zeros 2) z ∧
      KeepsBut [.cascade, .recorder, .views, .out] s z) ∧
  (∀ (rx : LaneRx) (t : Time) (s : State),
    LaneHeard rx s →
    rx.lane = 1 →
    byteAt rx.payload 0 = 2 →
    ∃ z, exec (.time rx t.sec t.ns t.frac) s = .next z ∧
      z.cascade = { s.cascade with lane := z.cascade.lane, cdRx := t, cdRxExchange := rd rx.payload 2 2 } ∧
      LaneTook rx 0x03 s z ∧
      (∀ l : Fin 2, l.val ≠ 1 → z.laneOf l = s.laneOf l) ∧
      KeepsBut [.cascade, .out] s z) ∧
  (∀ (rx : LaneRx) (t : Time) (s : State),
    LaneHeard rx s →
    rx.lane = 0 →
    byteAt rx.payload 0 = 1 →
    (byteAt rx.payload 1).testBit 1 = true →
    s.cascade.t2 = none →
    s.cascade.acting = .rafter →
    LaneClear 0 0x03 40 s →
    ∃ z, exec (.time rx t.sec t.ns t.frac) s = .next z ∧
      z.cascade = { s.cascade with lane := z.cascade.lane, t2 := some t, t3 := some s.timebase.now, chainTime := true, quality := { clockClass := byteAt rx.payload 30, clockAccuracy := byteAt rx.payload 31, variance := rd rx.payload 32 2, timeSource := byteAt rx.payload 34 }, exchange := ((s.cascade.exchange.1 + 1) % 65536, s.cascade.exchange.2) } ∧
      LaneSent 0 0x03 (s.cascade.position - 1) s.cascade.position (timePayload 2 s.cascade.exchange.1 (s.cascade.t3.getD {}) t (rd rx.payload 2 2) { s with cascade := { s.cascade with quality := { clockClass := byteAt rx.payload 30, clockAccuracy := byteAt rx.payload 31, variance := rd rx.payload 32 2, timeSource := byteAt rx.payload 34 } } }) z ∧
      LaneTook rx 0x03 s z ∧
      (∀ l : Fin 2, l.val ≠ 0 → z.laneOf l = s.laneOf l) ∧
      KeepsBut [.cascade, .out] s z) ∧
  (∀ (rx : LaneRx) (t a b : Time) (t1 t4 off : Int) (s : State),
    LaneHeard rx s →
    rx.lane = 0 →
    byteAt rx.payload 0 = 1 →
    (byteAt rx.payload 1).testBit 1 = true →
    s.cascade.t2 = some a →
    s.cascade.t3 = some b →
    rd rx.payload 28 2 = (s.cascade.exchange.1 + 65535) % 65536 →
    t1 = (rdTime12 rx.payload 4).ps →
    t4 = (rdTime12 rx.payload 16).ps →
    off = ((a.ps - t1) - (t4 - b.ps)) / 2 - (if (s.laneOf 0).quarter then s.cascade.asymQuarter else s.cascade.asymFull) →
    s.cascade.acting = .rafter →
    LaneClear 0 0x03 40 s →
    ∃ z, exec (.time rx t.sec t.ns t.frac) s = .next z ∧
      z.cascade = { s.cascade with lane := z.cascade.lane, t2 := some t, t3 := some s.timebase.now, chainTime := true, quality := { clockClass := byteAt rx.payload 30, clockAccuracy := byteAt rx.payload 31, variance := rd rx.payload 32 2, timeSource := byteAt rx.payload 34 }, exchange := ((s.cascade.exchange.1 + 1) % 65536, s.cascade.exchange.2), hopOffset := off, hopDelay := ((a.ps - t1) + (t4 - b.ps)) / 2, exchangeAt := s.up } ∧
      z.ref 3 = { s.ref 3 with phaseErr := -off, active := true } ∧
      z.timebase = { s.timebase with refs := z.timebase.refs, phaseErr := if s.timebase.selected = 3 then -off else s.timebase.phaseErr } ∧
      LaneTook rx 0x03 s z ∧
      (∀ l : Fin 2, l.val ≠ 0 → z.laneOf l = s.laneOf l) ∧
      KeepsBut [.cascade, .timebase, .out] s z) ∧
  (∀ (rx : LaneRx) (t : Time) (s : State),
    LaneHeard rx s →
    rx.lane = 0 →
    byteAt rx.payload 0 = 1 →
    (byteAt rx.payload 1).testBit 1 = false →
    s.cascade.t2 = none →
    (s.ref 3).qualified = true →
    ∃ z, exec (.time rx t.sec t.ns t.frac) s = .next z ∧
      (z.ref 3).qualified = false ∧
      (z.ref 3).lastCause = 8 ∧
      (z.ref 3).disqualified = inc32 (s.ref 3).disqualified ∧
      z.cascade.chainTime = false ∧
      z.cascade.t2 = some t ∧
      LaneTook rx 0x03 s z) ∧
  (∀ (s : State),
    s.powered = true →
    s.cascade.valid = true →
    s.cascade.outside = false →
    s.cascade.acting ≠ .standalone →
    LaneClear 1 0x03 40 s →
    ∃ z, exec (.timeFrameSend) s = .next z ∧
      z.cascade = { s.cascade with lane := z.cascade.lane, cdTx := s.timebase.now, exchange := (s.cascade.exchange.1, (s.cascade.exchange.2 + 1) % 65536) } ∧
      LaneSent 1 0x03 (s.cascade.position + 1) s.cascade.position (timePayload 1 s.cascade.exchange.2 s.cascade.cdTx s.cascade.cdRx s.cascade.cdRxExchange s) z ∧
      (∀ l : Fin 2, l.val ≠ 1 → z.laneOf l = s.laneOf l) ∧
      KeepsBut [.cascade, .out] s z) ∧
  (∀ (rx : LaneRx) (s : State),
    LaneHeard rx s →
    rx.lane = 0 →
    s.timebase.selected = 3 →
    followsUpstream s.timebase = true →
    ∃ z, exec (.offsets rx) s = .next z ∧
      z.timebase.utcOffset = rdS rx.payload 0 2 ∧
      z.timebase.localOffset = rdS rx.payload 4 4 ∧
      z.timebase.leap.map (fun x => (x.instant, x.flags, x.value)) = (rdSched rx.payload 8).map (fun x => (x.instant, x.flags, x.value)) ∧
      z.timebase.localSched.map (fun x => (x.instant, x.flags, x.value)) = (rdSched rx.payload 24).map (fun x => (x.instant, x.flags, x.value)) ∧
      z.cascade = { s.cascade with lane := z.cascade.lane } ∧
      LaneTook rx 0x04 s z ∧
      (∀ l : Fin 2, l.val ≠ 0 → z.laneOf l = s.laneOf l) ∧
      KeepsBut [.cascade, .timebase, .boot, .views, .out] s z) ∧
  (∀ (rx : LaneRx) (s : State),
    LaneHeard rx s →
    (s.timebase.selected ≠ 3 ∨ rx.lane = 1) →
    ∃ z, exec (.offsets rx) s = .next z ∧
      z.cascade = { s.cascade with lane := z.cascade.lane } ∧
      LaneTook rx 0x04 s z ∧
      (∀ l : Fin 2, l.val ≠ rx.lane.val → z.laneOf l = s.laneOf l) ∧
      KeepsBut [.cascade, .out] s z) ∧
  (∀ (s : State),
    s.powered = true →
    s.cascade.valid = true →
    s.cascade.outside = false →
    LaneClear 1 0x04 (offsetsBytes s.timebase).length s →
    ∃ z, exec (.offsetsSend) s = .next z ∧
      z.cascade = { s.cascade with lane := z.cascade.lane } ∧
      LaneSent 1 0x04 (s.cascade.position + 1) s.cascade.position (offsetsBytes s.timebase) z ∧
      (∀ l : Fin 2, l.val ≠ 1 → z.laneOf l = s.laneOf l) ∧
      KeepsBut [.cascade, .out] s z) ∧
  (∀ (rx : LaneRx) (s : State),
    LaneHeard rx s →
    rx.lane = 1 →
    byteAt rx.payload 0 = 1 →
    Up s →
    CanRecord s →
    s.cascade.acting = .ridge →
    ∃ z, exec (.role rx) s = .next z ∧
      z.cascade = { s.cascade with lane := z.cascade.lane, acting := .displaced, ridgePos := some (byteAt rx.payload 1), handbackTime := false } ∧
      Recorded 0x0BA2 3 0 s z ∧
      LaneTook rx 0x05 s z ∧
      (∀ l : Fin 2, l.val ≠ 1 → z.laneOf l = s.laneOf l) ∧
      KeepsBut [.cascade, .recorder, .views, .out] s z) ∧
  (∀ (rx : LaneRx) (s : State),
    LaneHeard rx s →
    rx.lane = 1 →
    byteAt rx.payload 0 = 2 →
    s.cascade.acting = .displaced →
    ∃ z, exec (.role rx) s = .next z ∧
      z.cascade = { s.cascade with lane := z.cascade.lane, handbackTime := true } ∧
      LaneTook rx 0x05 s z ∧
      (∀ l : Fin 2, l.val ≠ 1 → z.laneOf l = s.laneOf l) ∧
      KeepsBut [.cascade, .out] s z) ∧
  (∀ (rx : LaneRx) (s : State),
    LaneHeard rx s →
    rx.lane = 1 →
    byteAt rx.payload 0 = 3 →
    s.cascade.acting = .displaced →
    LaneClear 1 0x01 12 s →
    ∃ z, exec (.role rx) s = .next z ∧
      z.cascade = { s.cascade with lane := z.cascade.lane, acting := .ridge, ridgePos := some 0, handbackTime := false, beatCount := (s.cascade.beatCount + 1) % 65536, discoverAt := some s.up } ∧
      .block 1 0x2D (fit 7 (leBytes 1 s.cascade.position ++ leBytes 2 s.cascade.beatCount ++ leBytes 1 (b2n s.cascade.handback))) ∈ z.out ∧
      LaneSent 1 0x01 (s.cascade.position + 1) s.cascade.position (leBytes 1 (s.cascade.position) ++ leBytes 1 s.boot.role ++ zeros 2 ++ leBytes 6 (s.cascade.leaseSeen) ++ zeros 2) z ∧
      LaneTook rx 0x05 s z ∧
      (∀ l : Fin 2, l.val ≠ 1 → z.laneOf l = s.laneOf l) ∧
      KeepsBut [.cascade, .out] s z) ∧
  (∀ (p : Fin 8) (n : Nat) (b : Bool) (s : State),
    s.powered = true →
    s.supply.isl.cascade = true →
    (s.cascade.acting = .rafter ∨ s.cascade.acting = .spare) →
    (s.laneOf 0).state = .up →
    s.cascade.outside = false →
    (s.laneOf 1).state = .up →
    ∃ z, exec (.heartbeat p n b) s = .next z ∧
      z.cascade = { s.cascade with beatAt := some s.up, beat0At := if p.val = 0 then s.up else s.cascade.beat0At, ridgePos := some p.val, ridgeLost := false } ∧
      z.out = .block 1 0x2D (fit 7 (leBytes 1 p.val ++ leBytes 2 n ++ leBytes 1 (b2n b))) :: s.out ∧
      KeepsBut [.cascade, .out] s z) ∧
  (∀ (p : Fin 8) (n : Nat) (b : Bool) (s : State),
    s.powered = true →
    actsAsRidge s = true →
    ∃ z, exec (.heartbeat p n b) s = .next z ∧
      z = s) ∧
  (∀ (s : State),
    s.powered = true →
    s.supply.isl.cascade = true →
    actsAsRidge s = true →
    s.cascade.valid = true →
    (s.laneOf 1).state = .up →
    ∃ z, exec (.heartbeatSend) s = .next z ∧
      z.cascade = { s.cascade with beatCount := (s.cascade.beatCount + 1) % 65536 } ∧
      z.out = .block 1 0x2D (fit 7 (leBytes 1 s.cascade.position ++ leBytes 2 s.cascade.beatCount ++ leBytes 1 (b2n s.cascade.handback))) :: s.out ∧
      KeepsBut [.cascade, .out] s z) ∧
  (∀ (ms : Nat) (s : State),
    Up s →
    CanRecord s →
    isSpare s = true →
    s.cascade.ridgeLost = false →
    2000 ≤ ms →
    (s.laneOf 1).state = .up →
    ∃ z, exec (.ridgeLost ms) s = .next z ∧
      z.cascade = { s.cascade with ridgeLost := true, acting := .actingRidge, ridgePos := some s.cascade.position, beatCount := (s.cascade.beatCount + 1) % 65536 } ∧
      Recorded 0x0BA0 4 0 s z ∧
      .block 1 0x2D (fit 7 (leBytes 1 s.cascade.position ++ leBytes 2 s.cascade.beatCount ++ leBytes 1 (b2n s.cascade.handback))) ∈ z.out ∧
      KeepsBut [.cascade, .recorder, .views, .out] s z) ∧
  (∀ (ms : Nat) (s : State),
    Up s →
    CanRecord s →
    s.cascade.acting = .rafter →
    s.cascade.ridgeLost = false →
    3000 ≤ ms →
    ∃ z, exec (.ridgeLost ms) s = .next z ∧
      z.cascade = { s.cascade with ridgeLost := true, ridgePos := none } ∧
      Recorded 0x0BA0 4 0 s z ∧
      KeepsBut [.cascade, .recorder, .views, .out] s z) ∧
  (∀ (n : Nat) (j : Job) (r : Nat) (s : State),
    s.powered = true →
    s.campel = true →
    s.supply.holdUp = false →
    j.origin = none →
    eventRing s j.tenant = some r →
    (s.ring r).lost = 0 →
    (s.ring r).log2 ≤ 12 →
    s.cascade.handback = true →
    600 ≤ n →
    findJob s 0x0B06 0 = some j →
    ∃ z, exec (.handbackTimeout n) s = .next z ∧
      z.jobs = s.jobs.erase j ∧
      EventPosted r (eventDesc 1 St.notReady 0x0B06 j.token j.tenant s.cascade.position [] s.timebase.now) s z ∧
      z.cascade = { s.cascade with handback := false } ∧
      KeepsBut [.cascade, .jobs, .loft, .tenants, .rings, .views, .out] s z)

/-- A frame for another position is relayed unchanged. The acting Ridge grants the next lease above every number seen.
A forwarded request is executed here and its response returned; a tenant outside FORWARD_MASK is answered
NOT_PERMITTED. A response goes into its mailbox, a completion into the slot kept for it. The acting Ridge records a
forwarded record with FORWARDED and ORIGIN. CAS_COPY pins its yealm and sends COPY; a COPY writes its data and is
acknowledged, or is answered with the data asked for; the end completes the descriptor. IMAGE_REQ is answered with the
booted image, IMAGE fills the push area. Where a clause meets what the spec leaves open it states the model's reading:
log entries 14, 15, 117, 151. From R131, R887, R904, R905, R906, R907, R908, R910, R916, R917, R918, R938. -/
def Obligations.FramesCrossTheChain : Prop :=
  (∀ (rx : LaneRx) (s : State),
    LaneHeard rx s →
    s.cascade.valid = true →
    s.cascade.outside = false →
    rx.dest.val ≠ s.cascade.position →
    LaneClear (laneTo s rx.dest) 0x06 rx.payload.length s →
    ∃ z, exec (.leaseReq rx) s = .next z ∧
      z.cascade = { s.cascade with lane := z.cascade.lane, leaseSeen := max s.cascade.leaseSeen (rd rx.payload 0 6) } ∧
      LaneSent (laneTo s rx.dest) 0x06 rx.dest rx.origin rx.payload z ∧
      LaneTook rx 0x06 s z ∧
      KeepsBut [.cascade, .out] s z) ∧
  (∀ (rx : LaneRx) (s : State),
    LaneHeard rx s →
    s.cascade.valid = true →
    s.cascade.outside = false →
    rx.dest.val ≠ s.cascade.position →
    LaneClear (laneTo s rx.dest) 0x07 rx.payload.length s →
    ∃ z, exec (.leaseGrant rx) s = .next z ∧
      z.cascade = { s.cascade with lane := z.cascade.lane, leaseSeen := max s.cascade.leaseSeen (rd rx.payload 0 6) } ∧
      LaneSent (laneTo s rx.dest) 0x07 rx.dest rx.origin rx.payload z ∧
      LaneTook rx 0x07 s z ∧
      KeepsBut [.cascade, .out] s z) ∧
  (∀ (rx : LaneRx) (s : State),
    LaneHeard rx s →
    s.cascade.valid = true →
    s.cascade.outside = false →
    rx.dest.val ≠ s.cascade.position →
    LaneClear (laneTo s rx.dest) 0x10 rx.payload.length s →
    ∃ z, exec (.mboxReq rx) s = .next z ∧
      z.cascade = { s.cascade with lane := z.cascade.lane } ∧
      LaneSent (laneTo s rx.dest) 0x10 rx.dest rx.origin rx.payload z ∧
      LaneTook rx 0x10 s z ∧
      KeepsBut [.cascade, .out] s z) ∧
  (∀ (rx : LaneRx) (s : State),
    LaneHeard rx s →
    s.cascade.valid = true →
    s.cascade.outside = false →
    rx.dest.val ≠ s.cascade.position →
    LaneClear (laneTo s rx.dest) 0x11 rx.payload.length s →
    ∃ z, exec (.mboxRsp rx) s = .next z ∧
      z.cascade = { s.cascade with lane := z.cascade.lane } ∧
      LaneSent (laneTo s rx.dest) 0x11 rx.dest rx.origin rx.payload z ∧
      LaneTook rx 0x11 s z ∧
      KeepsBut [.cascade, .out] s z) ∧
  (∀ (rx : LaneRx) (s : State),
    LaneHeard rx s →
    s.cascade.valid = true →
    s.cascade.outside = false →
    rx.dest.val ≠ s.cascade.position →
    LaneClear (laneTo s rx.dest) 0x12 rx.payload.length s →
    ∃ z, exec (.mboxEvent rx) s = .next z ∧
      z.cascade = { s.cascade with lane := z.cascade.lane } ∧
      LaneSent (laneTo s rx.dest) 0x12 rx.dest rx.origin rx.payload z ∧
      LaneTook rx 0x12 s z ∧
      KeepsBut [.cascade, .out] s z) ∧
  (∀ (rx : LaneRx) (s : State),
    LaneHeard rx s →
    s.cascade.valid = true →
    s.cascade.outside = false →
    rx.dest.val ≠ s.cascade.position →
    LaneClear (laneTo s rx.dest) 0x20 rx.payload.length s →
    ∃ z, exec (.record rx) s = .next z ∧
      z.cascade = { s.cascade with lane := z.cascade.lane } ∧
      LaneSent (laneTo s rx.dest) 0x20 rx.dest rx.origin rx.payload z ∧
      LaneTook rx 0x20 s z ∧
      KeepsBut [.cascade, .out] s z) ∧
  (∀ (rx : LaneRx) (s : State),
    LaneHeard rx s →
    s.cascade.valid = true →
    s.cascade.outside = false →
    rx.dest.val ≠ s.cascade.position →
    LaneClear (laneTo s rx.dest) 0x30 rx.payload.length s →
    ∃ z, exec (.copy rx) s = .next z ∧
      z.cascade = { s.cascade with lane := z.cascade.lane } ∧
      LaneSent (laneTo s rx.dest) 0x30 rx.dest rx.origin rx.payload z ∧
      LaneTook rx 0x30 s z ∧
      KeepsBut [.cascade, .out] s z) ∧
  (∀ (rx : LaneRx) (s : State),
    LaneHeard rx s →
    s.cascade.valid = true →
    s.cascade.outside = false →
    rx.dest.val ≠ s.cascade.position →
    LaneClear (laneTo s rx.dest) 0x31 rx.payload.length s →
    ∃ z, exec (.copyAck rx) s = .next z ∧
      z.cascade = { s.cascade with lane := z.cascade.lane } ∧
      LaneSent (laneTo s rx.dest) 0x31 rx.dest rx.origin rx.payload z ∧
      LaneTook rx 0x31 s z ∧
      KeepsBut [.cascade, .out] s z) ∧
  (∀ (rx : LaneRx) (n : Nat) (s : State),
    LaneHeard rx s →
    ForHere rx s →
    actsAsRidge s = true →
    n = max s.cascade.leaseSeen (rd rx.payload 0 6) + 1 →
    LaneClear (laneTo s rx.origin) 0x07 8 s →
    ∃ z, exec (.leaseReq rx) s = .next z ∧
      z.cascade = { s.cascade with lane := z.cascade.lane, leaseSeen := n } ∧
      LaneSent (laneTo s rx.origin) 0x07 rx.origin s.cascade.position (leBytes 6 n ++ zeros 2) z ∧
      LaneTook rx 0x06 s z ∧
      KeepsBut [.cascade, .out] s z) ∧
  (∀ (rx : LaneRx) (n : Nat) (s : State),
    LaneHeard rx s →
    ForHere rx s →
    n = rd rx.payload 0 6 →
    ∃ z, exec (.leaseGrant rx) s = .next z ∧
      z.cascade = { s.cascade with lane := z.cascade.lane, leaseSeen := max s.cascade.leaseSeen n, lease := if s.cascade.lease.isNone then some (n, 0) else s.cascade.lease, leaseNext := if s.cascade.lease.isNone then s.cascade.leaseNext else some n, leaseWanted := false } ∧
      LaneTook rx 0x07 s z ∧
      (∀ l : Fin 2, l.val ≠ rx.lane.val → z.laneOf l = s.laneOf l) ∧
      KeepsBut [.cascade, .out] s z) ∧
  (∀ (rx : LaneRx) (t : Nat) (a : Nat × Option Nat × Bytes) (s : State),
    LaneHeard rx s →
    ForHere rx s →
    t = byteAt rx.payload 0 →
    t < 8 →
    s.cascade.forwardMask.testBit t = true →
    (mboxServed rx s).1 = some a →
    (mboxServed rx s).2.cascade.position = s.cascade.position →
    LaneClear (laneTo s rx.origin) 0x11 (20 + a.2.2.length) (mboxServed rx s).2 →
    ∃ z, exec (.mboxReq rx) s = .next z ∧
      LaneSent (laneTo s rx.origin) 0x11 rx.origin s.cascade.position (leBytes 1 t ++ zeros 3 ++ Rsp.bytes { op := rd (rx.payload.drop 4) 0 2, seq := rd (rx.payload.drop 4) 2 2, status := a.1, tokenValid := a.2.1.isSome, forwarded := true, pos := s.cascade.position, token := a.2.1.getD 0, payload := a.2.2 }) z ∧
      z.loft = (mboxServed rx s).2.loft ∧
      z.recorder = (mboxServed rx s).2.recorder ∧
      z.jobs = (mboxServed rx s).2.jobs ∧
      (z.laneOf rx.lane).rxSeq = ((mboxServed rx s).2.laneOf rx.lane).rxSeq) ∧
  (∀ (rx : LaneRx) (t : Nat) (s : State),
    LaneHeard rx s →
    ForHere rx s →
    t = byteAt rx.payload 0 →
    t < 8 →
    s.cascade.forwardMask.testBit t = false →
    LaneClear (laneTo s rx.origin) 0x11 20 s →
    ∃ z, exec (.mboxReq rx) s = .next z ∧
      z.cascade = { s.cascade with lane := z.cascade.lane } ∧
      LaneSent (laneTo s rx.origin) 0x11 rx.origin s.cascade.position (leBytes 1 t ++ zeros 3 ++ Rsp.bytes { op := rd (rx.payload.drop 4) 0 2, seq := rd (rx.payload.drop 4) 2 2, status := St.notPermitted, forwarded := true, pos := s.cascade.position }) z ∧
      LaneTook rx 0x10 s z ∧
      KeepsBut [.cascade, .out] s z) ∧
  (∀ (rx : LaneRx) (t : Fin 8) (o : Outstanding) (r : Rsp) (s : State),
    LaneHeard rx s →
    ForHere rx s →
    byteAt rx.payload 0 = t →
    r = rspOf (rx.payload.drop 4) →
    (s.ten t).outstanding = some o →
    o.op = r.op ∧ o.seq = r.seq ∧ o.target = rx.origin →
    ∃ z, exec (.mboxRsp rx) s = .next z ∧
      z.ten t = { s.ten t with rsp := some r, rspReady := true, busy := false, lastSeq := r.seq, requests := inc32 (s.ten t).requests, outstanding := none, awaiting := (s.ten t).awaiting + b2n (r.status == St.accepted && o.asyncOk) } ∧
      (∀ k : Fin 8, k ≠ t → z.ten k = s.ten k) ∧
      z.views = (raiseSrc (32 + t.val) s).views ∧
      z.cascade = { s.cascade with lane := z.cascade.lane } ∧
      LaneTook rx 0x11 s z ∧
      (∀ l : Fin 2, l.val ≠ rx.lane.val → z.laneOf l = s.laneOf l) ∧
      KeepsBut [.tenants, .views, .cascade, .out] s z) ∧
  (∀ (rx : LaneRx) (t : Fin 8) (n : Nat) (s : State),
    LaneHeard rx s →
    ForHere rx s →
    byteAt rx.payload 18 = t →
    (s.ten t).awaiting ≠ 0 →
    eventRing s t = some n →
    (s.ring n).lost = 0 →
    (s.ring n).log2 ≤ 12 →
    ∃ z, exec (.mboxEvent rx) s = .next z ∧
      EventPosted n (fit 31 (rx.payload.take 19 ++ leBytes 1 (rx.origin + 128) ++ rx.payload.drop 20)) s z ∧
      z.ten t = { s.ten t with awaiting := (s.ten t).awaiting - 1 } ∧
      (∀ k : Fin 8, k ≠ t → z.ten k = s.ten k) ∧
      z.cascade = { s.cascade with lane := z.cascade.lane } ∧
      LaneTook rx 0x12 s z ∧
      KeepsBut [.tenants, .loft, .rings, .cascade, .views, .out] s z) ∧
  (∀ (rx : LaneRx) (x : Record) (s : State),
    LaneHeard rx s →
    ForHere rx s →
    Up s →
    CanRecord s →
    actsAsRidge s = true →
    x = rdRecord rx.payload →
    ∃ z, exec (.record rx) s = .next z ∧
      Recorded x.code x.severity x.tenant s z ∧
      (z.recorder.staging.any fun y => y.seq == s.recorder.head + 1 && y.time == x.time && y.source == x.source && y.payload == x.payload && y.flags / 64 == 1 + 2 * rx.origin.val && y.flags % 32 == x.flags % 32) = true ∧
      z.cascade = { s.cascade with lane := z.cascade.lane } ∧
      LaneTook rx 0x20 s z ∧
      (∀ l : Fin 2, l.val ≠ rx.lane.val → z.laneOf l = s.laneOf l) ∧
      KeepsBut [.cascade, .recorder, .views, .out] s z) ∧
  (∀ (rx : LaneRx) (s : State),
    LaneHeard rx s →
    ForHere rx s →
    s.campel = true →
    s.recorder.exhausted = true →
    s.recorder.chronState = chronNow s →
    s.recorder.high = s.recorder.highNow →
    s.recorder.tight = true →
    actsAsRidge s = true →
    ∃ z, exec (.record rx) s = .next z ∧
      z.recorder = { s.recorder with afterExhaustion := inc32 s.recorder.afterExhaustion } ∧
      LaneTook rx 0x20 s z ∧
      KeepsBut [.cascade, .recorder, .out] s z) ∧
  (∀ (p : Nat) (x : Record) (s : State),
    s.powered = true →
    s.campel = true →
    s.cascade.ridgePos = some p →
    nextForward s = some x →
    actsAsRidge s = false →
    s.cascade.acting ≠ .displaced →
    s.cascade.fwdMin ≠ 255 →
    present s p = true →
    LaneClear (laneTo s p) 0x20 x.bytes.length s →
    ∃ z, exec (.recordForward) s = .next z ∧
      z.cascade = { s.cascade with lane := z.cascade.lane, fwdPtr := x.seq, fwdSkipped := s.cascade.fwdSkipped + skippedBefore s x.seq } ∧
      LaneSent (laneTo s p) 0x20 p s.cascade.position x.bytes z ∧
      (∀ l : Fin 2, l.val ≠ (laneTo s p) → z.laneOf l = s.laneOf l) ∧
      KeepsBut [.cascade, .out] s z) ∧
  (∀ (n : Fin 32) (p a l : Nat) (d data : Bytes) (s : State),
    Consumable n.val p d s →
    byteAt d 0 = 0x30 →
    copyFields s (s.ring n).owner d = true →
    present s (byteAt d 4) = true →
    a = yAddr (hIndex (rd d 8 4)) (rd d 16 2) →
    (byteAt d 1 = 0 → s.loft.poisoned a (rd d 6 2) = false) →
    (data = if byteAt d 1 = 0 then Machine.loftRead s a (rd d 6 2) else []) →
    l = laneTo s (byteAt d 4) →
    LaneClear l 0x30 (copyBody (if s.cascade.copyTag = 0x7FFF then 1 else s.cascade.copyTag + 1) d ++ data).length s →
    ∃ z, exec (.casCopy n) s = .next z ∧
      z.subs = s.subs ++ [{ ring := n.val, tenant := (s.ring n).owner, cls := 0x30, tag := rd d 2 2, desc := d, ctag := (if s.cascade.copyTag = 0x7FFF then 1 else s.cascade.copyTag + 1) }] ∧
      z.cascade = { s.cascade with lane := z.cascade.lane, copyTag := (if s.cascade.copyTag = 0x7FFF then 1 else s.cascade.copyTag + 1) } ∧
      LaneSent l 0x30 (byteAt d 4) s.cascade.position (copyBody (if s.cascade.copyTag = 0x7FFF then 1 else s.cascade.copyTag + 1) d ++ data) z ∧
      (z.loft.tag (hIndex (rd d 8 4))).pins = (s.loft.tag (hIndex (rd d 8 4))).pins + 1 ∧
      (z.ring n).head = ((s.ring n).head + 1) % 2 ^ 32 ∧
      z.loft.mem = s.loft.mem ∧
      KeepsBut [.rings, .loft, .subs, .cascade, .views, .out] s z) ∧
  (∀ (n : Fin 32) (p : Nat) (d : Bytes) (s : State),
    Consumable n.val p d s →
    byteAt d 0 = 0x30 →
    copyFields s (s.ring n).owner d = true →
    present s (byteAt d 4) = false →
    ∃ z, exec (.casCopy n) s = .next z ∧
      Completed p (completeDesc 0x30 St.notReady (rd d 2 2) 0 0 [] s.timebase.now) s z ∧
      (z.ring n).head = ((s.ring n).head + 1) % 2 ^ 32 ∧
      z.cascade = s.cascade ∧
      KeepsBut [.rings, .loft, .views, .out] s z) ∧
  (∀ (n : Fin 32) (p : Nat) (d : Bytes) (s : State),
    Consumable n.val p d s →
    byteAt d 0 = 0x30 →
    copyFields s (s.ring n).owner d = false →
    ∃ z, exec (.casCopy n) s = .next z ∧
      Completed p (completeDesc 0x30 St.badField (rd d 2 2) 0 0 [] s.timebase.now) s z ∧
      (z.ring n).head = ((s.ring n).head + 1) % 2 ^ 32 ∧
      z.cascade = s.cascade ∧
      KeepsBut [.rings, .loft, .views, .out] s z) ∧
  (∀ (rx : LaneRx) (tag h a len : Nat) (s : State),
    LaneHeard rx s →
    ForHere rx s →
    tag = rd rx.payload 0 2 →
    tag < 0x8000 →
    h = rd rx.payload 8 4 →
    a = yAddr (hIndex h) (rd rx.payload 14 2) →
    len = rd rx.payload 2 2 →
    s.cascade.forwardMask.testBit (hOwner h) = true →
    hOwner (rd rx.payload 4 4) = hOwner h →
    usable s (hOwner h) h = true →
    rd rx.payload 14 2 + len ≤ 4096 →
    rx.payload.drop 16 ≠ [] →
    LaneClear (laneTo s rx.origin) 0x31 4 s →
    ∃ z, exec (.copy rx) s = .next z ∧
      Machine.loftRead z a ((rx.payload.drop 16).take len).length = (rx.payload.drop 16).take len ∧
      (∀ b, b < a ∨ a + len ≤ b → z.byte b = s.byte b) ∧
      z.loft.tags = s.loft.tags ∧
      LaneSent (laneTo s rx.origin) 0x31 rx.origin s.cascade.position (leBytes 2 tag ++ leBytes 1 St.ok ++ zeros 1) z ∧
      z.cascade = { s.cascade with lane := z.cascade.lane } ∧
      LaneTook rx 0x30 s z ∧
      KeepsBut [.cascade, .loft, .out] s z) ∧
  (∀ (rx : LaneRx) (tag h a len : Nat) (s : State),
    LaneHeard rx s →
    ForHere rx s →
    tag = rd rx.payload 0 2 →
    tag < 0x8000 →
    h = rd rx.payload 8 4 →
    a = yAddr (hIndex h) (rd rx.payload 14 2) →
    len = rd rx.payload 2 2 →
    s.cascade.forwardMask.testBit (hOwner h) = true →
    hOwner (rd rx.payload 4 4) = hOwner h →
    usable s (hOwner h) h = true →
    rd rx.payload 14 2 + len ≤ 4096 →
    rx.payload.length = 16 →
    s.loft.poisoned a len = false →
    LaneClear (laneTo s rx.origin) 0x30 (16 + len) s →
    ∃ z, exec (.copy rx) s = .next z ∧
      LaneSent (laneTo s rx.origin) 0x30 rx.origin s.cascade.position (leBytes 2 (tag + 0x8000) ++ slice rx.payload 2 14 ++ Machine.loftRead s a len) z ∧
      (z.loft.tag (hIndex h)).pins = (s.loft.tag (hIndex h)).pins + 1 ∧
      z.loft.mem = s.loft.mem ∧
      z.cascade = { s.cascade with lane := z.cascade.lane, serving := s.cascade.serving ++ [(rx.origin.val, tag, hIndex h)] } ∧
      LaneTook rx 0x30 s z ∧
      KeepsBut [.cascade, .loft, .out] s z) ∧
  (∀ (rx : LaneRx) (tag h a len : Nat) (s : State),
    LaneHeard rx s →
    ForHere rx s →
    tag = rd rx.payload 0 2 →
    tag < 0x8000 →
    h = rd rx.payload 8 4 →
    a = yAddr (hIndex h) (rd rx.payload 14 2) →
    len = rd rx.payload 2 2 →
    s.cascade.forwardMask.testBit (hOwner h) = false →
    LaneClear (laneTo s rx.origin) 0x31 4 s →
    ∃ z, exec (.copy rx) s = .next z ∧
      LaneSent (laneTo s rx.origin) 0x31 rx.origin s.cascade.position (leBytes 2 tag ++ leBytes 1 St.notPermitted ++ zeros 1) z ∧
      z.cascade = { s.cascade with lane := z.cascade.lane } ∧
      LaneTook rx 0x30 s z ∧
      KeepsBut [.cascade, .out] s z) ∧
  (∀ (rx : LaneRx) (n p ct a len : Nat) (x : Sub) (s : State),
    LaneHeard rx s →
    ForHere rx s →
    rd rx.payload 0 2 = ct + 0x8000 →
    findCopy s ct = some x →
    a = yAddr (hIndex (rd x.desc 8 4)) (rd x.desc 16 2) →
    len = rd x.desc 6 2 →
    rd x.desc 16 2 + len ≤ 4096 →
    (rx.payload.drop 16).length = len →
    LaneClear (laneTo s rx.origin) 0x31 4 s →
    x.ring = n →
    n < 32 →
    p < 32 →
    (s.ring n).opened = true →
    (s.ring n).pair = some p →
    (s.ring n).closing = false →
    (s.ring p).log2 ≤ 12 →
    poolIndex (hIndex (rd x.desc 8 4)) = true →
    ∃ z, exec (.copy rx) s = .next z ∧
      Machine.loftRead z a len = rx.payload.drop 16 ∧
      Completed p (completeDesc 0x30 St.ok x.tag len 0 [] s.timebase.now) s z ∧
      z.subs = s.subs.erase x ∧
      LaneSent (laneTo s rx.origin) 0x31 rx.origin s.cascade.position (leBytes 2 (ct + 0x8000) ++ leBytes 1 St.ok ++ zeros 1) z ∧
      z.cascade = { s.cascade with lane := z.cascade.lane } ∧
      LaneTook rx 0x30 s z ∧
      KeepsBut [.cascade, .tenants, .subs, .rings, .loft, .views, .out] s z) ∧
  (∀ (rx : LaneRx) (n p ct : Nat) (x : Sub) (s : State),
    LaneHeard rx s →
    ForHere rx s →
    rd rx.payload 0 2 = ct →
    ct < 0x8000 →
    findCopy s ct = some x →
    x.ring = n →
    n < 32 →
    p < 32 →
    (s.ring n).opened = true →
    (s.ring n).pair = some p →
    (s.ring n).closing = false →
    (s.ring p).log2 ≤ 12 →
    poolIndex (hIndex (rd x.desc 8 4)) = true →
    ∃ z, exec (.copyAck rx) s = .next z ∧
      Completed p (completeDesc 0x30 (byteAt rx.payload 2) x.tag (if byteAt rx.payload 2 = St.ok then rd x.desc 6 2 else 0) 0 [] s.timebase.now) s z ∧
      z.subs = s.subs.erase x ∧
      ((s.loft.tag (hIndex (rd x.desc 8 4))).doomed = false → (z.loft.tag (hIndex (rd x.desc 8 4))).pins = (s.loft.tag (hIndex (rd x.desc 8 4))).pins - 1) ∧
      z.cascade = { s.cascade with lane := z.cascade.lane } ∧
      LaneTook rx 0x31 s z ∧
      (∀ l : Fin 2, l.val ≠ rx.lane.val → z.laneOf l = s.laneOf l) ∧
      KeepsBut [.cascade, .tenants, .subs, .rings, .loft, .views, .out] s z) ∧
  (∀ (rx : LaneRx) (x : Nat × Nat × Nat) (s : State),
    LaneHeard rx s →
    ForHere rx s →
    0x8000 ≤ rd rx.payload 0 2 →
    (s.cascade.serving.find? fun x => x.1 == rx.origin.val && x.2.1 == rd rx.payload 0 2 - 0x8000) = some x →
    poolIndex x.2.2 = true →
    (s.loft.tag x.2.2).doomed = false →
    ∃ z, exec (.copyAck rx) s = .next z ∧
      z.cascade = { s.cascade with lane := z.cascade.lane, serving := s.cascade.serving.erase x } ∧
      (z.loft.tag x.2.2).pins = (s.loft.tag x.2.2).pins - 1 ∧
      z.loft.mem = s.loft.mem ∧
      LaneTook rx 0x31 s z ∧
      (∀ l : Fin 2, l.val ≠ rx.lane.val → z.laneOf l = s.laneOf l) ∧
      KeepsBut [.cascade, .loft, .out] s z) ∧
  (∀ (rx : LaneRx) (off : Nat) (img : Bytes) (s : State),
    LaneHeard rx s →
    rx.lane = 1 →
    s.campel = true →
    (s.laneOf 1).quarter = false →
    img = s.boot.imageBytes →
    off = rd rx.payload 0 4 →
    off < img.length →
    img.length ≤ off + 4096 →
    LaneClear 1 0x41 (8 + (slice img off 4096).length) s →
    ∃ z, exec (.imageReq rx) s = .next z ∧
      LaneSent 1 0x41 (s.cascade.position + 1) s.cascade.position (leBytes 4 off ++ leBytes 4 img.length ++ slice img off 4096) z ∧
      z.cascade = { s.cascade with lane := z.cascade.lane } ∧
      LaneTook rx 0x40 s z ∧
      (∀ l : Fin 2, l.val ≠ 1 → z.laneOf l = s.laneOf l) ∧
      KeepsBut [.cascade, .out] s z) ∧
  (∀ (rx : LaneRx) (off : Nat) (d : Bytes) (s : State),
    LaneHeard rx s →
    rx.lane = 0 →
    s.boot.stage = .rom →
    s.boot.source = 3 →
    off = rd rx.payload 0 4 →
    off = s.cascade.image.length →
    d = rx.payload.drop 8 →
    off + d.length ≤ 1048576 →
    ∃ z, exec (.image rx) s = .next z ∧
      z.cascade = { s.cascade with lane := z.cascade.lane, image := s.cascade.image ++ d, imageLen := rd rx.payload 4 4 } ∧
      Machine.loftRead z (yAddr 12288 off) d.length = d ∧
      (∀ b, b < yAddr 12288 off ∨ yAddr 12288 off + d.length ≤ b → z.byte b = s.byte b) ∧
      LaneTook rx 0x41 s z ∧
      (∀ l : Fin 2, l.val ≠ 0 → z.laneOf l = s.laneOf l) ∧
      KeepsBut [.cascade, .loft, .out] s z) ∧
  (∀ (us : Nat) (s : State),
    s.powered = true →
    s.boot.stage = .rom →
    s.boot.source = 3 →
    (s.cascade.image = [] → 1000000 ≤ us) →
    (s.cascade.image ≠ [] → s.cascade.image.length < s.cascade.imageLen) →
    10000 ≤ us →
    LaneClear 0 0x40 4 s →
    ∃ z, exec (.imageReqRetry us) s = .next z ∧
      z.cascade = { s.cascade with lane := z.cascade.lane } ∧
      LaneSent 0 0x40 0 s.cascade.position (leBytes 4 s.cascade.image.length) z ∧
      (∀ l : Fin 2, l.val ≠ 0 → z.laneOf l = s.laneOf l) ∧
      KeepsBut [.cascade, .out] s z)

/-- A MIRROR sector that is next in order and admitted joins the closed sectors of its channel under its origin and
GSEQ; one held for its predecessor is handed over after 100 ms with GAP. One whose channel is enabled here, that
arrives outside RUN, that cannot be admitted or was handed over before is answered conflict, not recording, refused or
its kept result. A verified MIRROR_ACK settles the sector; the last one not verified loses it when its own copy is
lost. After 2 s without MIRROR its segments close with CUT. The requests set the lane, the asymmetries and the
forwarding, start a calibration or a handback, and read the tables; on a standalone module they answer NOT_READY.
Where a clause meets what the spec leaves open it states the model's reading: log entries 15, 16, 39, 49, 59, 94, 111,
157. From R873, R894, R900, R905, R911, R912, R913, R914, R915, R924, R936, Table CAS.9. -/
def Obligations.MirroredSectorsAndCascadeRequests : Prop :=
  (∀ (rx : LaneRx) (s : State),
    LaneHeard rx s →
    s.cascade.valid = true →
    s.cascade.outside = false →
    rx.dest.val ≠ s.cascade.position →
    LaneClear (laneTo s rx.dest) 0x32 rx.payload.length s →
    ∃ z, exec (.mirror rx) s = .next z ∧
      z.cascade = { s.cascade with lane := z.cascade.lane } ∧
      LaneSent (laneTo s rx.dest) 0x32 rx.dest rx.origin rx.payload z ∧
      LaneTook rx 0x32 s z ∧
      KeepsBut [.cascade, .out] s z) ∧
  (∀ (rx : LaneRx) (s : State),
    LaneHeard rx s →
    s.cascade.valid = true →
    s.cascade.outside = false →
    rx.dest.val ≠ s.cascade.position →
    LaneClear (laneTo s rx.dest) 0x33 rx.payload.length s →
    ∃ z, exec (.mirrorAck rx) s = .next z ∧
      z.cascade = { s.cascade with lane := z.cascade.lane } ∧
      LaneSent (laneTo s rx.dest) 0x33 rx.dest rx.origin rx.payload z ∧
      LaneTook rx 0x33 s z ∧
      KeepsBut [.cascade, .out] s z) ∧
  (∀ (rx : LaneRx) (o g n own : Nat) (s : State),
    LaneHeard rx s →
    ForHere rx s →
    o = rx.origin →
    g = rd rx.payload 0 8 →
    n = rd rx.payload 8 2 →
    n ≤ 511 →
    (vat s.cascade.mirrorIn o).held = [] →
    ((vat s.cascade.mirrorIn o).lastGseq = 0 ∨ (vat s.cascade.mirrorIn o).lastGseq + 1 = g) →
    (recChan s n).flags.testBit 0 = false →
    s.supply.mode = .run →
    s.channel.state = .tracking →
    s.diskq.logArea.isSome = true →
    own = recOwner s →
    own < 8 →
    (s.ten own).held < (s.ten own).ingress →
    s.loft.tags.length + s.loft.gone.length + s.loft.testing.length + 1 < 2064384 →
    s.loft.tags.all (fun p => decide (p.2.gen < 256)) = true →
    ∃ z, exec (.mirror rx) s = .next z ∧ ∃ h : Nat,
      (recChan z n).closed = (recChan s n).closed ++ [{ base := rd rx.payload 12 4, firstSeq := rd rx.payload 12 4, lastSeq := rd rx.payload 12 4, data := fit 4096 (rx.payload.drop 32), flags := byteAt rx.payload 10 % 4, segment := (mirrorSegment n o (rd rx.payload 16 6) s).1, start := rd rx.payload 16 6, stop := rd rx.payload 16 6 + rd rx.payload 22 4, yealm := some (hIndex h), origin := some (o, g) }] ∧
      (vat z.cascade.mirrorIn o).lastGseq = g ∧
      (vat z.cascade.mirrorIn o).held = [] ∧
      (vat z.cascade.mirrorIn o).lastAt = s.up ∧
      usable z own h = true ∧
      (z.ten own).held = (s.ten own).held + 1 ∧
      (∀ k : Fin 512, k.val ≠ n → recChan z k = recChan s k) ∧
      z.cascade = { s.cascade with lane := z.cascade.lane, mirrorIn := z.cascade.mirrorIn } ∧
      (∀ k : Fin 8, k.val ≠ o → vat z.cascade.mirrorIn k = vat s.cascade.mirrorIn k) ∧
      LaneTook rx 0x32 s z ∧
      (∀ l : Fin 2, l.val ≠ rx.lane.val → z.laneOf l = s.laneOf l) ∧
      KeepsBut [.cascade, .tenants, .loft, .diskq, .out] s z) ∧
  (∀ (rx : LaneRx) (o g n : Nat) (s : State),
    LaneHeard rx s →
    ForHere rx s →
    o = rx.origin →
    g = rd rx.payload 0 8 →
    n = rd rx.payload 8 2 →
    n ≤ 511 →
    (vat s.cascade.mirrorIn o).held = [] →
    ((vat s.cascade.mirrorIn o).lastGseq = 0 ∨ (vat s.cascade.mirrorIn o).lastGseq < g) →
    (recChan s n).flags.testBit 0 = true →
    LaneClear (laneTo s o) 0x33 12 s →
    ∃ z, exec (.mirror rx) s = .next z ∧
      LaneSent (laneTo s o) 0x33 o s.cascade.position (leBytes 8 g ++ leBytes 1 4 ++ zeros 3) z ∧
      z.cascade = { s.cascade with lane := z.cascade.lane, mirrorIn := z.cascade.mirrorIn } ∧
      (∀ k : Fin 8, k.val ≠ o → vat z.cascade.mirrorIn k = vat s.cascade.mirrorIn k) ∧
      LaneTook rx 0x32 s z ∧
      KeepsBut [.cascade, .out] s z) ∧
  (∀ (rx : LaneRx) (o g n : Nat) (s : State),
    LaneHeard rx s →
    ForHere rx s →
    o = rx.origin →
    g = rd rx.payload 0 8 →
    n = rd rx.payload 8 2 →
    n ≤ 511 →
    (vat s.cascade.mirrorIn o).held = [] →
    ((vat s.cascade.mirrorIn o).lastGseq = 0 ∨ (vat s.cascade.mirrorIn o).lastGseq < g) →
    (recChan s n).flags.testBit 0 = false →
    s.supply.mode ≠ .run →
    LaneClear (laneTo s o) 0x33 12 s →
    ∃ z, exec (.mirror rx) s = .next z ∧
      LaneSent (laneTo s o) 0x33 o s.cascade.position (leBytes 8 g ++ leBytes 1 3 ++ zeros 3) z ∧
      z.cascade = { s.cascade with lane := z.cascade.lane, mirrorIn := z.cascade.mirrorIn } ∧
      (∀ k : Fin 8, k.val ≠ o → vat z.cascade.mirrorIn k = vat s.cascade.mirrorIn k) ∧
      LaneTook rx 0x32 s z ∧
      KeepsBut [.cascade, .out] s z) ∧
  (∀ (rx : LaneRx) (o g n : Nat) (s : State),
    LaneHeard rx s →
    ForHere rx s →
    o = rx.origin →
    g = rd rx.payload 0 8 →
    n = rd rx.payload 8 2 →
    n ≤ 511 →
    (vat s.cascade.mirrorIn o).held = [] →
    ((vat s.cascade.mirrorIn o).lastGseq = 0 ∨ (vat s.cascade.mirrorIn o).lastGseq < g) →
    (recChan s n).flags.testBit 0 = false →
    s.supply.mode = .run →
    s.channel.state = .tracking →
    s.diskq.logArea.isSome = true →
    recOwner s < 8 →
    (s.ten (recOwner s)).ingress ≤ (s.ten (recOwner s)).held →
    LaneClear (laneTo s o) 0x33 12 s →
    ∃ z, exec (.mirror rx) s = .next z ∧
      LaneSent (laneTo s o) 0x33 o s.cascade.position (leBytes 8 g ++ leBytes 1 2 ++ zeros 3) z ∧
      z.ten (recOwner s) = { s.ten (recOwner s) with refCas := inc32 (s.ten (recOwner s)).refCas } ∧
      z.cascade = { s.cascade with lane := z.cascade.lane, mirrorIn := z.cascade.mirrorIn } ∧
      (∀ k : Fin 8, k.val ≠ o → vat z.cascade.mirrorIn k = vat s.cascade.mirrorIn k) ∧
      LaneTook rx 0x32 s z ∧
      KeepsBut [.cascade, .tenants, .out] s z) ∧
  (∀ (rx : LaneRx) (o g n r : Nat) (s : State),
    LaneHeard rx s →
    ForHere rx s →
    o = rx.origin →
    g = rd rx.payload 0 8 →
    n = rd rx.payload 8 2 →
    n ≤ 511 →
    (vat s.cascade.mirrorIn o).lastGseq ≠ 0 →
    g ≤ (vat s.cascade.mirrorIn o).lastGseq →
    mget (vat s.cascade.mirrorIn o).acked g = some r →
    LaneClear (laneTo s o) 0x33 12 s →
    ∃ z, exec (.mirror rx) s = .next z ∧
      LaneSent (laneTo s o) 0x33 o s.cascade.position (leBytes 8 g ++ leBytes 1 r ++ zeros 3) z ∧
      z.cascade = { s.cascade with lane := z.cascade.lane, mirrorIn := z.cascade.mirrorIn } ∧
      (∀ k : Fin 8, k.val ≠ o → vat z.cascade.mirrorIn k = vat s.cascade.mirrorIn k) ∧
      LaneTook rx 0x32 s z ∧
      KeepsBut [.cascade, .out] s z) ∧
  (∀ (rx : LaneRx) (g : Nat) (m : MirrorOut) (s : State),
    LaneHeard rx s →
    ForHere rx s →
    g = rd rx.payload 0 8 →
    (s.cascade.mirrors.find? fun m => m.gseq == g && m.waiting.contains rx.origin.val) = some m →
    ((recChan s m.channel).closed.find? fun x => x.gseq == some g && x.ended) = none →
    ∃ z, exec (.mirrorAck rx) s = .next z ∧
      z.cascade = { s.cascade with lane := z.cascade.lane, mirrors := s.cascade.mirrors.map fun x => if x.gseq = g then { m with waiting := m.waiting.filter (· ≠ rx.origin.val), verified := m.verified || byteAt rx.payload 8 == 0 } else x } ∧
      LaneTook rx 0x33 s z ∧
      (∀ l : Fin 2, l.val ≠ rx.lane.val → z.laneOf l = s.laneOf l) ∧
      KeepsBut [.cascade, .out] s z) ∧
  (∀ (rx : LaneRx) (g : Nat) (m : MirrorOut) (x : ClosedSector) (s : State),
    LaneHeard rx s →
    ForHere rx s →
    g = rd rx.payload 0 8 →
    (s.cascade.mirrors.find? fun m => m.gseq == g && m.waiting.contains rx.origin.val) = some m →
    ((recChan s m.channel).closed.find? fun x => x.gseq == some g && x.ended) = some x →
    byteAt rx.payload 8 = 0 →
    ∃ z, exec (.mirrorAck rx) s = .next z ∧
      ((recChan z m.channel).closed = (recChan s m.channel).closed.filter fun y => y.lba ≠ x.lba ∨ y.base ≠ x.base) ∧
      (∀ y ∈ z.cascade.mirrors, y.gseq ≠ g) ∧
      (∀ y ∈ s.cascade.mirrors, y.gseq ≠ g → y ∈ z.cascade.mirrors) ∧
      z.cascade = { s.cascade with lane := z.cascade.lane, mirrors := z.cascade.mirrors } ∧
      LaneTook rx 0x33 s z ∧
      (∀ l : Fin 2, l.val ≠ rx.lane.val → z.laneOf l = s.laneOf l) ∧
      KeepsBut [.cascade, .diskq, .out] s z) ∧
  (∀ (rx : LaneRx) (g : Nat) (m : MirrorOut) (x : ClosedSector) (s : State),
    LaneHeard rx s →
    ForHere rx s →
    g = rd rx.payload 0 8 →
    (s.cascade.mirrors.find? fun m => m.gseq == g && m.waiting.contains rx.origin.val) = some m →
    Up s →
    CanRecord s →
    ((recChan s m.channel).closed.find? fun x => x.gseq == some g && x.ended) = some x →
    byteAt rx.payload 8 ≠ 0 →
    m.verified = false →
    m.waiting.filter (· ≠ rx.origin.val) = [] →
    ∃ z, exec (.mirrorAck rx) s = .next z ∧
      ((recChan z m.channel).closed = (recChan s m.channel).closed.filter fun y => y.lba ≠ x.lba ∨ y.base ≠ x.base) ∧
      (recChan z m.channel).lostNext = true ∧
      Recorded 0x04B1 4 (recOwner s) s z ∧
      (∀ y ∈ z.cascade.mirrors, y.gseq ≠ g) ∧
      (∀ y ∈ s.cascade.mirrors, y.gseq ≠ g → y ∈ z.cascade.mirrors) ∧
      z.cascade = { s.cascade with lane := z.cascade.lane, mirrors := z.cascade.mirrors } ∧
      LaneTook rx 0x33 s z ∧
      (∀ l : Fin 2, l.val ≠ rx.lane.val → z.laneOf l = s.laneOf l) ∧
      KeepsBut [.cascade, .diskq, .recorder, .views, .out] s z) ∧
  (∀ (o : Fin 8) (us g t n : Nat) (f : List Nat) (d : Bytes) (s : State),
    s.powered = true →
    (vat s.cascade.mirrorIn o).held = [(g, f, d, t)] →
    n = f.getD 0 0 →
    100000 ≤ us →
    ∃ z, exec (.mirrorPredecessorTimeout o us) s = .next z ∧
      (recChan z n).closed = (recChan s n).closed ++ [{ base := f.getD 2 0, firstSeq := f.getD 2 0, lastSeq := f.getD 2 0, data := d, flags := (f.getD 1 0 % 4) ||| 1, segment := (mirrorSegment n o (f.getD 3 0) s).1, start := f.getD 3 0, stop := f.getD 3 0 + f.getD 4 0, yealm := f[5]?, origin := some (o.val, g) }] ∧
      vat z.cascade.mirrorIn o = { vat s.cascade.mirrorIn o with lastGseq := g, held := [] } ∧
      (∀ k : Fin 8, k ≠ o → vat z.cascade.mirrorIn k = vat s.cascade.mirrorIn k) ∧
      z.cascade = { s.cascade with mirrorIn := z.cascade.mirrorIn } ∧
      KeepsBut [.cascade, .diskq] s z) ∧
  (∀ (o : Fin 8) (ms : Nat) (g : Segment) (s : State),
    Up s →
    CanRecord s →
    2000 ≤ ms →
    (s.diskq.segs.filter fun g => g.origin == some o.val && g.flags.testBit 0 && !g.retired) = [g] →
    segmentBusy s g.channel g.id = false →
    g.verified.isSome = true →
    ∃ z, exec (.mirrorSegmentCut o ms) s = .next z ∧
      z.diskq.segs = s.diskq.segs.map (fun y => if y.id = g.id then { g with flags := (g.flags - g.flags % 2) ||| 16, stop := g.lastSec + 1, lastLba := (g.verified.getD (g.lastLba, g.lastSeq)).1, lastSeq := (g.verified.getD (g.lastLba, g.lastSeq)).2 } else y) ∧
      Recorded 0x0490 1 (recOwner s) s z ∧
      (z.recorder.staging.any fun x => x.payload == fit 32 (segBytes { g with flags := (g.flags - g.flags % 2) ||| 16, stop := g.lastSec + 1, lastLba := (g.verified.getD (g.lastLba, g.lastSeq)).1, lastSeq := (g.verified.getD (g.lastLba, g.lastSeq)).2 })) = true ∧
      KeepsBut [.diskq, .recorder, .views, .out] s z) ∧
  (∀ (c : Call) (k : Cascade) (s : State),
    Served cmdCasGetStatus c s →
    k = s.cascade →
    ∃ z, exec (.casGetStatus c) s = .next z ∧
      Answered c 0x0B01 St.ok (leBytes 1 k.acting.code ++ leBytes 1 (k.ridgePos.getD 255) ++ leBytes 1 (if k.acting = .standalone then 1 else k.modules) ++ zeros 1 ++ leBytes 1 (laneByte s 0) ++ leBytes 1 (laneByte s 1) ++ leBytes 2 ((k.beatAt.map fun a => min 65535 ((s.up - a) / 1000)).getD 65535) ++ leInt 4 k.hopOffset ++ leInt 4 k.hopDelay ++ leBytes 6 ((k.lease.map (·.1)).getD 0) ++ zeros 2) z ∧
      ReadsOnly c s z) ∧
  (∀ (c : Call) (p : Bytes) (l : Nat) (s : State),
    Served cmdCasLaneSet c s →
    p = c.payload →
    l = byteAt p 0 →
    s.boot.role ≠ 0 →
    (gcmSlot s (byteAt p 3) && (s.key (byteAt p 3)).formNonce && gcmSlot s (byteAt p 4) && (byteAt p 5 == 255 || gcmSlot s (byteAt p 5))) = true →
    (s.laneOf l).queue = [] →
    (s.laneOf l).quarter = false →
    ∃ z, exec (.casLaneSet c) s = .next z ∧
      Answered c 0x0B02 St.ok [] z ∧
      z.laneOf l = { s.laneOf l with policy := (match byteAt p 1 with | 1 => .full | 2 => .quarter | _ => .auto), encrypt := (byteAt p 2).testBit 0, require := (byteAt p 2).testBit 1, txSlot := byteAt p 3, rxSlot := byteAt p 4, rxNext := byteAt p 5, keyTold := false } ∧
      z.cascade = { s.cascade with lane := z.cascade.lane } ∧
      (∀ k : Fin 2, k.val ≠ l → z.laneOf k = s.laneOf k) ∧
      SetsOnly [.cascade] c s z) ∧
  (∀ (c : Call) (s : State),
    Served cmdCasLaneSet c s →
    s.boot.role ≠ 0 →
    (gcmSlot s (byteAt c.payload 3) = false ∨ (s.key (byteAt c.payload 3)).formNonce = false) →
    ∃ z, exec (.casLaneSet c) s = .next z ∧
      Answered c 0x0B02 St.badField [] z ∧
      ReadsOnly c s z) ∧
  (∀ (c : Call) (s : State),
    Served cmdCasAsymSet c s →
    s.boot.role ≠ 0 →
    ∃ z, exec (.casAsymSet c) s = .next z ∧
      Answered c 0x0B03 St.ok [] z ∧
      z.cascade = { s.cascade with asymFull := rdS c.payload 0 4, asymQuarter := rdS c.payload 4 4 } ∧
      SetsOnly [.cascade] c s z) ∧
  (∀ (c : Call) (s : State),
    Served cmdCasAsymSet c s →
    s.boot.role = 0 →
    ∃ z, exec (.casAsymSet c) s = .next z ∧
      Answered c 0x0B03 St.notReady [] z ∧
      ReadsOnly c s z) ∧
  (∀ (c : Call) (p : Bytes) (s : State),
    Served cmdCasCalRun c s →
    MayAccept c s →
    p = c.payload →
    s.boot.role ≠ 0 →
    timInTaken s (byteAt p 0) = false →
    s.cascade.cal = none →
    ∃ z, exec (.casCalRun c) s = .next z ∧
      AcceptedAs c 0x0B04 (fun j => j.waits) z ∧
      z.cascade = { s.cascade with cal := some { input := byteAt p 0, rate := byteAt p 1, samples := rd p 2 2, refDelay := rdS p 4 4 } } ∧
      (vat z.timebase.timIn (byteAt p 0)).mode = 2 ∧
      StartsOnly [.cascade, .timebase] c s z) ∧
  (∀ (c : Call) (s : State),
    Served cmdCasCalRun c s →
    s.boot.role ≠ 0 →
    (timInTaken s (byteAt c.payload 0) = true ∨ s.cascade.cal.isSome = true) →
    ∃ z, exec (.casCalRun c) s = .next z ∧
      Answered c 0x0B04 St.busy [] z ∧
      ReadsOnly c s z) ∧
  (∀ (errs : List (Option Int)) (x : CasCal) (j : Job) (n : Nat) (s : State),
    s.powered = true →
    s.campel = true →
    s.supply.holdUp = false →
    j.origin = none →
    eventRing s j.tenant = some n →
    (s.ring n).lost = 0 →
    (s.ring n).log2 ≤ 12 →
    s.cascade.cal = some x →
    findJob s 0x0B04 0 = some j →
    errs.length = x.samples →
    x.input < 4 →
    x.samples < 2 * (x.samples - (errs.filterMap id).length) →
    ∃ z, exec (.casCalRunEnd errs) s = .next z ∧
      z.jobs = s.jobs.erase j ∧
      EventPosted n (eventDesc 1 St.notReady 0x0B04 j.token j.tenant s.cascade.position [] s.timebase.now) s z ∧
      z.cascade = { s.cascade with cal := none } ∧
      (vat z.timebase.timIn x.input).mode = 0 ∧
      KeepsBut [.cascade, .timebase, .jobs, .loft, .tenants, .rings, .views, .out] s z) ∧
  (∀ (errs : List (Option Int)) (x : CasCal) (j : Job) (es : List Int) (n : Nat) (s : State),
    s.powered = true →
    s.campel = true →
    s.supply.holdUp = false →
    j.origin = none →
    eventRing s j.tenant = some n →
    (s.ring n).lost = 0 →
    (s.ring n).log2 ≤ 12 →
    s.cascade.cal = some x →
    findJob s 0x0B04 0 = some j →
    errs.length = x.samples →
    x.input < 4 →
    es = (errs.filterMap id).map (fun e => e - x.refDelay) →
    2 * (x.samples - es.length) ≤ x.samples →
    (s.ten j.tenant).held + 1 ≤ (s.ten j.tenant).quota →
    s.loft.tags.length + s.loft.gone.length + s.loft.testing.length + 1 < 2064384 →
    s.loft.tags.all (fun p => decide (p.2.gen < 256)) = true →
    j.tenant < 8 →
    ∃ z, exec (.casCalRunEnd errs) s = .next z ∧ ∃ h : Nat,
      z.cascade = { s.cascade with cal := none } ∧
      (vat z.timebase.timIn x.input).mode = 0 ∧
      z.jobs = s.jobs.erase j ∧
      EventPosted n (eventDesc 1 St.ok 0x0B04 j.token j.tenant s.cascade.position (leBytes 4 h) s.timebase.now) s z ∧
      usable z j.tenant h = true ∧
      Machine.loftRead z (yAddr (hIndex h) 0) 16 = leInt 4 (meanOf es) ++ leBytes 4 (stddevOf es) ++ leBytes 2 x.samples ++ leBytes 2 (x.samples - es.length) ++ leInt 4 ((if x.rate = 0 then s.cascade.asymFull else s.cascade.asymQuarter) - meanOf es) ∧
      KeepsBut [.cascade, .timebase, .jobs, .loft, .tenants, .rings, .views, .out] s z) ∧
  (∀ (c : Call) (s : State),
    Served cmdCasForwardSet c s →
    s.boot.role ≠ 0 →
    ∃ z, exec (.casForwardSet c) s = .next z ∧
      Answered c 0x0B05 St.ok [] z ∧
      z.cascade = { s.cascade with forwardMask := byteAt c.payload 0, fwdMin := byteAt c.payload 1 } ∧
      SetsOnly [.cascade] c s z) ∧
  (∀ (c : Call) (s : State),
    Served cmdCasHandback c s →
    MayAccept c s →
    s.boot.role ≠ 0 →
    s.cascade.acting = .actingRidge →
    s.cascade.handback = false →
    LaneClear 0 0x05 4 s →
    ∃ z, exec (.casHandback c) s = .next z ∧
      AcceptedAs c 0x0B06 (fun j => j.waits) z ∧
      z.cascade = { s.cascade with lane := z.cascade.lane, handback := true } ∧
      LaneSent 0 0x05 0 s.cascade.position (leBytes 1 2 ++ leBytes 1 s.cascade.position ++ zeros 2) z ∧
      (∀ l : Fin 2, l.val ≠ 0 → z.laneOf l = s.laneOf l) ∧
      StartsOnly [.cascade] c s z) ∧
  (∀ (c : Call) (s : State),
    Served cmdCasHandback c s →
    s.boot.role ≠ 0 →
    (s.cascade.acting ≠ .actingRidge ∨ (s.laneOf 0).state ≠ .up) →
    ∃ z, exec (.casHandback c) s = .next z ∧
      Answered c 0x0B06 St.busy [] z ∧
      ReadsOnly c s z) ∧
  (∀ (c : Call) (l : Nat) (s : State),
    Served cmdCasCounters c s →
    s.boot.role ≠ 0 →
    l = byteAt c.payload 0 →
    ∃ z, exec (.casCounters c) s = .next z ∧
      Answered c 0x0B07 St.ok ((List.range 12).flatMap fun i => leBytes 8 (vat (s.laneOf l).counters i + if i = 11 then quarterSeconds s l else 0)) z ∧
      ReadsOnly c s z)

/-- CREDIT returns credit, ends what ACK_FSEQ covers and lets a waiting frame start; a NAK or 100 µs without progress
sends the unacknowledged frames again, and the eighth time the lane is retrained and recorded. Link up and down set
the lane and raise 70 or 71; down answers the requests it carried NOT_READY, disqualifies CASCADE, fails a handback,
or loses the Rafter below; after 1 s its queue is released. Rate requests go out (COUNT 64: log entry 15), are agreed
or refused, fix the switch, change the rate and end with block lock, or the link is down. One that falls due while
frames are unacknowledged waits. Where a clause meets what the spec leaves open it states the model's reading: log
entries 10, 15, 59. From R882, R883, R885, R886, R887, R888, R889, R890, R891, R916, R926, R930. -/
def Obligations.LanesKeepTheirLinksAndRates : Prop :=
  (∀ (l : Fin 2) (ack c0 c1 c2 c3 : Nat) (i : Nat) (s : State),
    s.powered = true →
    s.supply.isl.cascade = true →
    (s.laneOf l).state = .up →
    (s.laneOf l).due = none →
    (s.laneOf l).unacked.findIdx? (fun f => f.fseq == ack) = some i →
    (s.laneOf l).queue = [] →
    ∃ z, exec (.credit l ack false c0 c1 c2 c3) s = .next z ∧
      z.laneOf l = { s.laneOf l with unacked := (s.laneOf l).unacked.drop (i + 1), resends := 0, credit := Vector.ofFn fun (i : Fin 4) => vat (s.laneOf l).credit i + [c0, c1, c2, c3].getD i 0 } ∧
      (∀ k : Fin 2, k ≠ l → z.laneOf k = s.laneOf k) ∧
      z.cascade = { s.cascade with lane := z.cascade.lane } ∧
      KeepsBut [.cascade] s z) ∧
  (∀ (l : Fin 2) (ack c0 c1 c2 c3 : Nat) (f : LaneFrame) (s : State),
    s.powered = true →
    s.supply.isl.cascade = true →
    (s.laneOf l).state = .up →
    (s.laneOf l).due = none →
    (s.laneOf l).switchTo = none →
    (s.laneOf l).encrypt = false →
    (s.laneOf l).queue = [f] →
    f.encrypted = false →
    frameUnits f.payload.length ≤ vat (s.laneOf l).credit (frameVc f.type) + [c0, c1, c2, c3].getD (frameVc f.type) 0 →
    ∃ z, exec (.credit l ack false c0 c1 c2 c3) s = .next z ∧
      LaneSent l f.type f.dest f.origin f.payload z ∧
      (z.laneOf l).queue = [] ∧
      (∀ k : Fin 2, k ≠ l → z.laneOf k = s.laneOf k) ∧
      z.cascade = { s.cascade with lane := z.cascade.lane } ∧
      KeepsBut [.cascade, .out] s z) ∧
  (∀ (l : Fin 2) (ack c0 c1 c2 c3 : Nat) (s : State),
    s.supply.isl.cascade = true →
    (s.laneOf l).state = .up →
    (s.laneOf l).due = none →
    (s.laneOf l).unacked.findIdx? (fun f => f.fseq == ack) = none →
    (s.laneOf l).queue = [] →
    Up s →
    (s.laneOf l).unacked ≠ [] →
    (s.laneOf l).resends + 1 < 8 →
    (s.laneOf l).errAt = none →
    ∃ z, exec (.credit l ack true c0 c1 c2 c3) s = .next z ∧
      (∀ f ∈ (s.laneOf l).unacked, Out.lane l f.type f.dest f.origin f.encrypted true f.payload ∈ z.out) ∧
      (z.laneOf l).unacked = (s.laneOf l).unacked ∧
      (z.laneOf l).resends = (s.laneOf l).resends + 1 ∧
      vat (z.laneOf l).counters 4 = wrap64 (vat (s.laneOf l).counters 4 + (s.laneOf l).unacked.length) ∧
      Raised (78 + l.val) s z ∧
      (∀ k : Fin 2, k ≠ l → z.laneOf k = s.laneOf k) ∧
      z.cascade = { s.cascade with lane := z.cascade.lane } ∧
      KeepsBut [.cascade, .views, .out] s z) ∧
  (∀ (l : Fin 2) (us : Nat) (s : State),
    (s.laneOf l).state = .up →
    100 ≤ us →
    Up s →
    (s.laneOf l).unacked ≠ [] →
    (s.laneOf l).resends + 1 < 8 →
    (s.laneOf l).errAt = none →
    ∃ z, exec (.ackTimeout l us) s = .next z ∧
      (∀ f ∈ (s.laneOf l).unacked, Out.lane l f.type f.dest f.origin f.encrypted true f.payload ∈ z.out) ∧
      (z.laneOf l).unacked = (s.laneOf l).unacked ∧
      (z.laneOf l).resends = (s.laneOf l).resends + 1 ∧
      vat (z.laneOf l).counters 4 = wrap64 (vat (s.laneOf l).counters 4 + (s.laneOf l).unacked.length) ∧
      Raised (78 + l.val) s z ∧
      (∀ k : Fin 2, k ≠ l → z.laneOf k = s.laneOf k) ∧
      z.cascade = { s.cascade with lane := z.cascade.lane } ∧
      KeepsBut [.cascade, .views, .out] s z) ∧
  (∀ (l : Fin 2) (us : Nat) (s : State),
    Up s →
    CanRecord s →
    (s.laneOf l).state = .up →
    100 ≤ us →
    (s.laneOf l).unacked ≠ [] →
    7 ≤ (s.laneOf l).resends →
    ∃ z, exec (.ackTimeout l us) s = .next z ∧
      (z.laneOf l).state = .training ∧
      (z.laneOf l).quarter = false ∧
      (z.laneOf l).resends = 0 ∧
      (z.laneOf l).unacked = (s.laneOf l).unacked ∧
      vat (z.laneOf l).counters 8 = wrap64 (vat (s.laneOf l).counters 8 + 1) ∧
      (z.view 0).raw.getLsbD (70 + l.val) = true ∧
      Recorded 0x0BA4 3 0 s z) ∧
  (∀ (l : Fin 2) (ms : Nat) (s : State),
    Up s →
    laneFitted s l = true →
    10 ≤ ms →
    (s.laneOf l).state = .training →
    (s.laneOf l).unacked = [] →
    (s.laneOf l).queue = [] →
    s.cascade.leaseWanted = false →
    (l = 0 ∨ headsChain s = false) →
    ∃ z, exec (.laneLinkUp l ms true) s = .next z ∧
      z.laneOf l = { s.laneOf l with state := .up, downAt := none, quarter := false, quarterAt := s.up, counters := upd (s.laneOf l).counters 11 fun c => wrap64 (c + quarterSeconds s l) } ∧
      Raised (70 + l.val) s z ∧
      (∀ k : Fin 2, k ≠ l → z.laneOf k = s.laneOf k) ∧
      z.cascade = { s.cascade with lane := z.cascade.lane } ∧
      KeepsBut [.cascade, .views, .out] s z) ∧
  (∀ (l : Fin 2) (ms : Nat) (s : State),
    Up s →
    laneFitted s l = true →
    10 ≤ ms →
    (s.laneOf l).state = .training →
    (s.laneOf l).unacked = [] →
    (s.laneOf l).queue = [] →
    s.cascade.leaseWanted = false →
    l = 1 →
    headsChain s = true →
    s.cascade.valid = true →
    (s.laneOf 1).switchTo = none →
    (s.laneOf 1).encrypt = false →
    1 ≤ vat (s.laneOf 1).credit 0 →
    ∃ z, exec (.laneLinkUp l ms true) s = .next z ∧
      (z.laneOf 1).state = .up ∧
      LaneSent 1 0x01 (s.cascade.position + 1) s.cascade.position (leBytes 1 (s.cascade.position) ++ leBytes 1 s.boot.role ++ zeros 2 ++ leBytes 6 (s.cascade.leaseSeen) ++ zeros 2) z ∧
      Raised 71 s z ∧
      (∀ k : Fin 2, k ≠ l → z.laneOf k = s.laneOf k) ∧
      z.cascade = { s.cascade with lane := z.cascade.lane, discoverAt := some s.up } ∧
      KeepsBut [.cascade, .views, .out] s z) ∧
  (∀ (s : State),
    Up s →
    (s.laneOf 0).state = .up →
    s.cascade.handback = false →
    (s.ref 3).qualified = false →
    (∀ t : Fin 8, (s.ten t).outstanding = none) →
    ∃ z, exec (.laneLinkDown 0) s = .next z ∧
      z.laneOf 0 = { s.laneOf 0 with state := .training, downAt := some s.up, switchTo := none, reqDown := false, reqUp := false, due := none, quarter := false, quarterAt := s.up, counters := upd (s.laneOf 0).counters 11 fun c => wrap64 (c + quarterSeconds s 0) } ∧
      Raised 70 s z ∧
      (∀ l : Fin 2, l.val ≠ 0 → z.laneOf l = s.laneOf l) ∧
      z.cascade = { s.cascade with lane := z.cascade.lane } ∧
      KeepsBut [.cascade, .views, .out] s z) ∧
  (∀ (s : State),
    Up s →
    (s.laneOf 0).state = .up →
    (s.ref 3).qualified = true →
    ∃ z, exec (.laneLinkDown 0) s = .next z ∧
      (z.ref 3).qualified = false ∧
      (z.ref 3).lastCause = 8 ∧
      (z.laneOf 0).state = .training ∧
      (z.view 0).raw.getLsbD 70 = true ∧
      (z.view 0).raw.getLsbD 52 = true) ∧
  (∀ (t : Fin 8) (o : Outstanding) (s : State),
    Up s →
    (s.laneOf 0).state = .up →
    s.cascade.handback = false →
    (s.ref 3).qualified = false →
    (s.ten t).outstanding = some o →
    laneTo s o.target = 0 →
    ∃ z, exec (.laneLinkDown 0) s = .next z ∧
      (z.ten t).rsp = some { op := o.op, seq := o.seq, status := St.notReady, pos := s.cascade.position } ∧
      (z.ten t).rspReady = true ∧
      (z.ten t).busy = false ∧
      (z.ten t).outstanding = none ∧
      (z.laneOf 0).state = .training ∧
      KeepsBut [.tenants, .cascade, .views, .out] s z) ∧
  (∀ (j : Job) (n : Nat) (s : State),
    Up s →
    (s.laneOf 0).state = .up →
    s.campel = true →
    s.supply.holdUp = false →
    j.origin = none →
    eventRing s j.tenant = some n →
    (s.ring n).lost = 0 →
    (s.ring n).log2 ≤ 12 →
    s.cascade.handback = true →
    findJob s 0x0B06 0 = some j →
    (s.ref 3).qualified = false →
    (∀ t : Fin 8, (s.ten t).outstanding = none) →
    ∃ z, exec (.laneLinkDown 0) s = .next z ∧
      z.jobs = s.jobs.erase j ∧
      EventPosted n (eventDesc 1 St.notReady 0x0B06 j.token j.tenant s.cascade.position [] s.timebase.now) s z ∧
      z.cascade.handback = false ∧
      z.cascade.acting = s.cascade.acting ∧
      (z.laneOf 0).state = .training ∧
      KeepsBut [.cascade, .jobs, .loft, .tenants, .rings, .views, .out] s z) ∧
  (∀ (s : State),
    Up s →
    CanRecord s →
    (s.laneOf 1).state = .up →
    (s.laneOf 1).peer = true →
    s.cascade.acting = .rafter →
    (∀ t : Fin 8, (s.ten t).outstanding = none) →
    LaneClear 0 0x02 12 s →
    ∃ z, exec (.laneLinkDown 1) s = .next z ∧
      (z.laneOf 1).state = .training ∧
      (z.laneOf 1).peer = false ∧
      Recorded 0x0BA3 4 0 s z ∧
      LaneSent 0 0x02 (s.cascade.position - 1) s.cascade.position (leBytes 1 (s.cascade.position) ++ zeros 3 ++ leBytes 6 (s.cascade.leaseSeen) ++ zeros 2) z ∧
      (z.view 0).raw.getLsbD 71 = true ∧
      z.cascade = { s.cascade with lane := z.cascade.lane, discoverAt := none, handbackTime := false } ∧
      KeepsBut [.cascade, .recorder, .views, .out] s z) ∧
  (∀ (l : Fin 2) (ms : Nat) (f : LaneFrame) (n p : Nat) (x : Sub) (s : State),
    s.powered = true →
    (s.laneOf l).state = .training →
    1000 ≤ ms →
    (s.laneOf l).unacked = [] →
    (s.laneOf l).queue = [f] →
    f.origin = s.cascade.position →
    f.type = 0x30 →
    findCopy s (rd f.payload 0 2) = some x →
    x.ring = n →
    n < 32 →
    p < 32 →
    (s.ring n).opened = true →
    (s.ring n).pair = some p →
    (s.ring n).closing = false →
    (s.ring p).log2 ≤ 12 →
    poolIndex (hIndex (rd x.desc 8 4)) = true →
    ∃ z, exec (.linkDownRelease l ms) s = .next z ∧
      Completed p (completeDesc 0x30 St.notReady x.tag 0 0 [] s.timebase.now) s z ∧
      z.subs = s.subs.erase x ∧
      (z.laneOf l).queue = [] ∧
      (∀ k : Fin 2, k ≠ l → z.laneOf k = s.laneOf k) ∧
      z.cascade = { s.cascade with lane := z.cascade.lane } ∧
      KeepsBut [.cascade, .tenants, .subs, .rings, .loft, .views, .out] s z) ∧
  (∀ (l : Fin 2) (ms : Nat) (f : LaneFrame) (s : State),
    s.powered = true →
    (s.laneOf l).state = .training →
    1000 ≤ ms →
    (s.laneOf l).unacked = [] →
    (s.laneOf l).queue = [f] →
    f.origin = s.cascade.position →
    f.type = 0x20 →
    ∃ z, exec (.linkDownRelease l ms) s = .next z ∧
      (z.laneOf l).queue = [] ∧
      z.cascade = { s.cascade with lane := z.cascade.lane, fwdPtr := min s.cascade.fwdPtr (rd f.payload 0 6 - 1) } ∧
      (∀ k : Fin 2, k ≠ l → z.laneOf k = s.laneOf k) ∧
      KeepsBut [.cascade] s z) ∧
  (∀ (l : Fin 2) (ms : Nat) (f : LaneFrame) (g : Nat) (m : MirrorOut) (s : State),
    s.powered = true →
    (s.laneOf l).state = .training →
    1000 ≤ ms →
    (s.laneOf l).unacked = [] →
    (s.laneOf l).queue = [f] →
    f.origin = s.cascade.position →
    f.type = 0x32 →
    f.encrypted = false →
    g = rd f.payload 0 8 →
    (s.cascade.mirrors.find? fun m => m.gseq == g && m.waiting.contains f.dest) = some m →
    ((recChan s m.channel).closed.find? fun x => x.gseq == some g && x.ended) = none →
    ∃ z, exec (.linkDownRelease l ms) s = .next z ∧
      (z.laneOf l).queue = [] ∧
      z.cascade = { s.cascade with lane := z.cascade.lane, mirrors := s.cascade.mirrors.map fun x => if x.gseq = g then { m with waiting := m.waiting.filter (· ≠ f.dest), verified := m.verified } else x } ∧
      (∀ k : Fin 2, k ≠ l → z.laneOf k = s.laneOf k) ∧
      KeepsBut [.cascade] s z) ∧
  (∀ (l : Fin 2) (use t : Nat) (s : State),
    s.powered = true →
    laneOpen (s.laneOf l) = true →
    (s.laneOf l).quarter = false →
    (s.laneOf l).policy = .auto →
    use < 5 →
    10 ≤ t →
    (s.laneOf l).reqDown = false →
    (s.laneOf l).unacked = [] →
    ∃ z, exec (.rateIdle l use t) s = .next z ∧
      z.out = .block l 0x66 (fit 7 (leBytes 1 1 ++ leBytes 2 64)) :: s.out ∧
      z.laneOf l = { s.laneOf l with due := none, reqDown := true, reqUp := false } ∧
      (∀ k : Fin 2, k ≠ l → z.laneOf k = s.laneOf k) ∧
      z.cascade = { s.cascade with lane := z.cascade.lane } ∧
      KeepsBut [.cascade, .out] s z) ∧
  (∀ (l : Fin 2) (use t : Nat) (s : State),
    s.powered = true →
    laneOpen (s.laneOf l) = true →
    (s.laneOf l).quarter = false →
    (s.laneOf l).policy = .auto →
    use < 5 →
    10 ≤ t →
    (s.laneOf l).reqDown = false →
    (s.laneOf l).unacked ≠ [] →
    ∃ z, exec (.rateIdle l use t) s = .next z ∧
      z.out = s.out ∧
      z.laneOf l = { s.laneOf l with due := some true } ∧
      (∀ k : Fin 2, k ≠ l → z.laneOf k = s.laneOf k) ∧
      z.cascade = { s.cascade with lane := z.cascade.lane } ∧
      KeepsBut [.cascade] s z) ∧
  (∀ (l : Fin 2) (n use t : Nat) (s : State),
    s.powered = true →
    laneOpen (s.laneOf l) = true →
    ((s.laneOf l).reqDown = false ∨ l = 0) →
    (s.laneOf l).reqUp = false →
    (s.laneOf l).policy ≠ .full →
    use < 5 →
    10 ≤ t →
    ∃ z, exec (.reqDown l n use t) s = .next z ∧
      z.out = .block l 0x66 (fit 7 (leBytes 1 2 ++ leBytes 2 n)) :: s.out ∧
      z.laneOf l = { s.laneOf l with switchTo := some true, reqDown := false, due := none } ∧
      (∀ k : Fin 2, k ≠ l → z.laneOf k = s.laneOf k) ∧
      z.cascade = { s.cascade with lane := z.cascade.lane } ∧
      KeepsBut [.cascade, .out] s z) ∧
  (∀ (l : Fin 2) (n use t : Nat) (s : State),
    s.powered = true →
    laneOpen (s.laneOf l) = true →
    ((s.laneOf l).reqDown = false ∨ l = 0) →
    (s.laneOf l).reqUp = false →
    ((s.laneOf l).policy = .full ∨ 5 ≤ use ∨ t < 10) →
    ∃ z, exec (.reqDown l n use t) s = .next z ∧
      z.out = .block l 0x66 (fit 7 (leBytes 1 5 ++ leBytes 2 n)) :: s.out ∧
      z.laneOf l = { s.laneOf l with reqDown := false } ∧
      (∀ k : Fin 2, k ≠ l → z.laneOf k = s.laneOf k) ∧
      z.cascade = { s.cascade with lane := z.cascade.lane } ∧
      KeepsBut [.cascade, .out] s z) ∧
  (∀ (l : Fin 2) (n : Nat) (s : State),
    s.powered = true →
    laneOpen (s.laneOf l) = true →
    ∃ z, exec (.reqUp l n) s = .next z ∧
      z.out = .block l 0x66 (fit 7 (leBytes 1 4 ++ leBytes 2 n)) :: s.out ∧
      z.laneOf l = { s.laneOf l with switchTo := some false, reqDown := false, reqUp := false, due := none } ∧
      (∀ k : Fin 2, k ≠ l → z.laneOf k = s.laneOf k) ∧
      z.cascade = { s.cascade with lane := z.cascade.lane } ∧
      KeepsBut [.cascade, .out] s z) ∧
  (∀ (l : Fin 2) (n : Nat) (s : State),
    s.powered = true →
    laneOpen (s.laneOf l) = true →
    (s.laneOf l).reqDown = true →
    ∃ z, exec (.ackDown l n) s = .next z ∧
      z.laneOf l = { s.laneOf l with switchTo := some true, reqDown := false } ∧
      (∀ k : Fin 2, k ≠ l → z.laneOf k = s.laneOf k) ∧
      z.cascade = { s.cascade with lane := z.cascade.lane } ∧
      KeepsBut [.cascade] s z) ∧
  (∀ (l : Fin 2) (n : Nat) (s : State),
    s.powered = true →
    laneOpen (s.laneOf l) = true →
    (s.laneOf l).reqUp = true →
    ∃ z, exec (.ackUp l n) s = .next z ∧
      z.laneOf l = { s.laneOf l with switchTo := some false, reqUp := false } ∧
      (∀ k : Fin 2, k ≠ l → z.laneOf k = s.laneOf k) ∧
      z.cascade = { s.cascade with lane := z.cascade.lane } ∧
      KeepsBut [.cascade] s z) ∧
  (∀ (l : Fin 2) (s : State),
    s.powered = true →
    ∃ z, exec (.refuse l) s = .next z ∧
      z.laneOf l = { s.laneOf l with reqDown := false } ∧
      (∀ k : Fin 2, k ≠ l → z.laneOf k = s.laneOf k) ∧
      z.cascade = { s.cascade with lane := z.cascade.lane } ∧
      KeepsBut [.cascade] s z) ∧
  (∀ (l : Fin 2) (q w use : Nat) (s : State),
    s.powered = true →
    laneOpen (s.laneOf l) = true →
    (s.laneOf l).quarter = true →
    (s.laneOf l).policy ≠ .quarter →
    (s.laneOf l).reqUp = false →
    (16384 ≤ q ∨ 5 ≤ w ∨ 25 < use ∨ (s.laneOf l).policy = .full) →
    (s.laneOf l).unacked = [] →
    ∃ z, exec (.rateStepUpDemand l q w use) s = .next z ∧
      z.out = .block l 0x66 (fit 7 (leBytes 1 3 ++ leBytes 2 64)) :: s.out ∧
      z.laneOf l = { s.laneOf l with due := none, reqDown := false, reqUp := true } ∧
      (∀ k : Fin 2, k ≠ l → z.laneOf k = s.laneOf k) ∧
      z.cascade = { s.cascade with lane := z.cascade.lane } ∧
      KeepsBut [.cascade, .out] s z) ∧
  (∀ (l : Fin 2) (q : Bool) (s : State),
    s.powered = true →
    (s.laneOf l).state = .up →
    (s.laneOf l).switchTo = some q →
    ∃ z, exec (.rateSwitch l) s = .next z ∧
      z.laneOf l = { s.laneOf l with state := .switching, switchTo := none, quarter := q, quarterAt := s.up, counters := upd (upd (s.laneOf l).counters 11 fun c => wrap64 (c + quarterSeconds s l)) (if q then 9 else 10) fun c => wrap64 (c + 1) } ∧
      (∀ k : Fin 2, k ≠ l → z.laneOf k = s.laneOf k) ∧
      z.cascade = { s.cascade with lane := z.cascade.lane } ∧
      KeepsBut [.cascade] s z) ∧
  (∀ (l : Fin 2) (us : Nat) (s : State),
    s.powered = true →
    (s.laneOf l).state = .switching →
    10 ≤ us →
    (s.laneOf l).queue = [] →
    ∃ z, exec (.rateRelock l true us) s = .next z ∧
      z.laneOf l = { s.laneOf l with state := .up } ∧
      (∀ k : Fin 2, k ≠ l → z.laneOf k = s.laneOf k) ∧
      z.cascade = { s.cascade with lane := z.cascade.lane } ∧
      KeepsBut [.cascade] s z) ∧
  (∀ (us : Nat) (s : State),
    Up s →
    (s.laneOf 0).state = .switching →
    s.cascade.handback = false →
    (s.ref 3).qualified = false →
    (∀ t : Fin 8, (s.ten t).outstanding = none) →
    ∃ z, exec (.rateRelock 0 false us) s = .next z ∧
      z.laneOf 0 = { s.laneOf 0 with state := .training, downAt := some s.up, switchTo := none, reqDown := false, reqUp := false, due := none, quarter := false, quarterAt := s.up, counters := upd (s.laneOf 0).counters 11 fun c => wrap64 (c + quarterSeconds s 0) } ∧
      Raised 70 s z ∧
      (∀ l : Fin 2, l.val ≠ 0 → z.laneOf l = s.laneOf l) ∧
      z.cascade = { s.cascade with lane := z.cascade.lane } ∧
      KeepsBut [.cascade, .views, .out] s z)

/-- While a lane has unacknowledged frames, a rate request that falls due, for idleness, for demand or for a change of
policy, sends no block and is noted as due. A CREDIT that acknowledges some of the frames and not the last leaves it
waiting; the CREDIT that acknowledges the last sends REQ_DOWN or REQ_UP (COUNT 64: log entry 15) and the request is no
longer due. States R930. -/
def Obligations.RateRequestsWaitForAcknowledgement : Prop :=
  (∀ (l : Fin 2) (q : Bool) (s : State),
    (s.laneOf l).unacked ≠ [] →
    askRate l q s = s.updLane l fun x => { x with due := some q }) ∧
  (∀ (l : Fin 2) (use t : Nat) (s : State),
    s.powered = true →
    laneOpen (s.laneOf l) = true →
    (s.laneOf l).quarter = false →
    (s.laneOf l).policy = .auto →
    use < 5 →
    10 ≤ t →
    (s.laneOf l).reqDown = false →
    (s.laneOf l).unacked ≠ [] →
    ∃ z, exec (.rateIdle l use t) s = .next z ∧
      z.out = s.out ∧
      (z.laneOf l).due = some true ∧
      (z.laneOf l).reqDown = false) ∧
  (∀ (l : Fin 2) (q w use : Nat) (s : State),
    s.powered = true →
    laneOpen (s.laneOf l) = true →
    (s.laneOf l).quarter = true →
    (s.laneOf l).policy ≠ .quarter →
    (s.laneOf l).reqUp = false →
    (16384 ≤ q ∨ 5 ≤ w ∨ 25 < use ∨ (s.laneOf l).policy = .full) →
    (s.laneOf l).unacked ≠ [] →
    ∃ z, exec (.rateStepUpDemand l q w use) s = .next z ∧
      z.out = s.out ∧
      (z.laneOf l).due = some false ∧
      (z.laneOf l).reqUp = false) ∧
  (∀ (c : Call) (p : Bytes) (l : Nat) (s : State),
    Served cmdCasLaneSet c s →
    p = c.payload →
    l = byteAt p 0 →
    s.boot.role ≠ 0 →
    (gcmSlot s (byteAt p 3) && (s.key (byteAt p 3)).formNonce && gcmSlot s (byteAt p 4) && (byteAt p 5 == 255 || gcmSlot s (byteAt p 5))) = true →
    byteAt p 1 = 1 →
    laneOpen (s.laneOf l) = true →
    (s.laneOf l).quarter = true →
    (s.laneOf l).reqUp = false →
    (s.laneOf l).queue = [] →
    (s.laneOf l).unacked ≠ [] →
    ∃ z, exec (.casLaneSet c) s = .next z ∧
      Answered c 0x0B02 St.ok [] z ∧
      (z.laneOf l).due = some false ∧
      (z.laneOf l).reqUp = false ∧
      (∀ b, Out.block l 0x66 b ∈ z.out → Out.block l 0x66 b ∈ s.out)) ∧
  (∀ (l : Fin 2) (ack c0 c1 c2 c3 i : Nat) (q : Bool) (s : State),
    s.powered = true →
    s.supply.isl.cascade = true →
    (s.laneOf l).state = .up →
    (s.laneOf l).switchTo = none →
    (s.laneOf l).due = some q →
    (s.laneOf l).unacked.findIdx? (fun f => f.fseq == ack) = some i →
    (s.laneOf l).queue = [] →
    (s.laneOf l).unacked.drop (i + 1) ≠ [] →
    ∃ z, exec (.credit l ack false c0 c1 c2 c3) s = .next z ∧
      z.out = s.out ∧
      (z.laneOf l).due = some q ∧
      (z.laneOf l).unacked = (s.laneOf l).unacked.drop (i + 1)) ∧
  (∀ (l : Fin 2) (ack c0 c1 c2 c3 i : Nat) (q : Bool) (s : State),
    s.powered = true →
    s.supply.isl.cascade = true →
    (s.laneOf l).state = .up →
    (s.laneOf l).switchTo = none →
    (s.laneOf l).due = some q →
    (s.laneOf l).unacked.findIdx? (fun f => f.fseq == ack) = some i →
    (s.laneOf l).queue = [] →
    (s.laneOf l).unacked.drop (i + 1) = [] →
    ∃ z, exec (.credit l ack false c0 c1 c2 c3) s = .next z ∧
      z.out = .block l 0x66 (fit 7 (leBytes 1 (if q then 1 else 3) ++ leBytes 2 64)) :: s.out ∧
      (z.laneOf l).due = none ∧
      (z.laneOf l).reqDown = q ∧
      (z.laneOf l).reqUp = !q ∧
      (z.laneOf l).unacked = [])
end

