-- ==== Sys2Proof/Laws/Maps.lean ====
section
/-!
SUPPORT. Vectors indexed by a number and sparse maps: a read after a write.
-/
namespace Sys2Proof.Machine

variable {α : Type}

/-- A read of the element just changed. -/
theorem vat_upd_self {n : Nat} [Inhabited α] (v : Vector α n) (i : Nat) (f : α → α) (h : i < n) :
    vat (upd v i f) i = f (vat v i) := by
  simp [vat, upd, h]

/-- A change of one element leaves every other. -/
@[simp] theorem vat_upd_ne {n : Nat} [Inhabited α] (v : Vector α n) (i j : Nat) (f : α → α) (h : i ≠ j) :
    vat (upd v i f) j = vat v j := by
  unfold vat upd
  by_cases h1 : i < n <;> by_cases h2 : j < n <;> simp [h1, h2, h]

/-- Both reads in one equation. -/
theorem vat_upd {n : Nat} [Inhabited α] (v : Vector α n) (i j : Nat) (f : α → α) :
    vat (upd v i f) j = if i = j ∧ i < n then f (vat v j) else vat v j := by
  by_cases h : i = j
  · subst h
    by_cases h' : i < n
    · simp [vat_upd_self, h']
    · simp [upd, h']
  · simp [h]

/-- A change past the end changes nothing. -/
theorem upd_oob {n : Nat} (v : Vector α n) (i : Nat) (f : α → α) (h : ¬ i < n) : upd v i f = v := by
  simp [upd, h]

/-- An element by its index is the vector's own. -/
theorem vat_fin {n : Nat} [Inhabited α] (v : Vector α n) (i : Fin n) : vat v i.val = v[i] := by
  simp [vat]

@[simp] theorem vat_upd_fin {n : Nat} [Inhabited α] (v : Vector α n) (i : Fin n) (f : α → α) :
    vat (upd v i.val f) i.val = f (vat v i.val) := vat_upd_self v i.val f i.isLt

/-- A property of elements that a change keeps is kept. -/
theorem vat_upd_keep {n : Nat} {β : Type} [Inhabited α] (v : Vector α n) (i j : Nat) (f : α → α) (p : α → β)
    (h : ∀ a, p (f a) = p a) : p (vat (upd v i f) j) = p (vat v j) := by
  rw [vat_upd]; split <;> simp [h]

/-- The value just put at a key is read back. -/
@[simp] theorem mget_mset_self (m : AMap α) (x : Nat) (a : α) : mget (mset m x a) x = some a := by
  induction m with
  | nil => simp [mset, mget]
  | cons p l ih =>
    obtain ⟨k, v⟩ := p
    simp only [mset]
    split
    · simp [mget]
    · split
      · simp [mget]
      · rename_i h1 h2
        simp [mget, Ne.symm h2, ih]

/-- Every other key keeps its value. -/
@[simp] theorem mget_mset_ne (m : AMap α) (x y : Nat) (a : α) (h : x ≠ y) : mget (mset m x a) y = mget m y := by
  induction m with
  | nil => simp [mset, mget, h]
  | cons p l ih =>
    obtain ⟨k, v⟩ := p
    simp only [mset]
    split
    · simp [mget, h]
    · split
      · rename_i h1 h2
        subst h2
        simp [mget, h]
      · simp only [mget, ih]

@[simp] theorem mgetD_mset_self (m : AMap α) (x : Nat) (a d : α) : mgetD (mset m x a) x d = a := by
  simp [mgetD]

@[simp] theorem mgetD_mset_ne (m : AMap α) (x y : Nat) (a d : α) (h : x ≠ y) : mgetD (mset m x a) y d = mgetD m y d := by
  simp [mgetD, h]

/-- A key that is removed is gone. -/
theorem mget_filter (m : AMap α) (f : Nat → Bool) (x : Nat) :
    mget (m.filter fun p => f p.1) x = if f x then mget m x else none := by
  induction m with
  | nil => simp [mget]
  | cons p l ih =>
    obtain ⟨k, v⟩ := p
    by_cases hk : f k = true <;> by_cases hx : k = x
    · subst hx; simp [mget, hk]
    · simp [mget, hk, hx, ih]
    · subst hx; simp [hk, ih]
    · simp [mget, hk, hx, ih]

end Sys2Proof.Machine
end

