-- ==== Sys2Proof/Laws/State.lean ====
section
/-!
SUPPORT. What each update of one part of the state does to every field: the part takes its new value, the others stay.
-/
namespace Sys2Proof.Machine

/-! ### State.updTen -/

@[simp] theorem State.updTen_tenants (s : State) (t : Nat) (f : Tenant → Tenant) : (s.updTen t f).tenants = upd s.tenants t f := rfl
@[simp] theorem State.updTen_views (s : State) (t : Nat) (f : Tenant → Tenant) : (s.updTen t f).views = s.views := rfl
@[simp] theorem State.updTen_svcOwner (s : State) (t : Nat) (f : Tenant → Tenant) : (s.updTen t f).svcOwner = s.svcOwner := rfl
@[simp] theorem State.updTen_svcRights (s : State) (t : Nat) (f : Tenant → Tenant) : (s.updTen t f).svcRights = s.svcRights := rfl
@[simp] theorem State.updTen_jobs (s : State) (t : Nat) (f : Tenant → Tenant) : (s.updTen t f).jobs = s.jobs := rfl
@[simp] theorem State.updTen_loft (s : State) (t : Nat) (f : Tenant → Tenant) : (s.updTen t f).loft = s.loft := rfl
@[simp] theorem State.updTen_rings (s : State) (t : Nat) (f : Tenant → Tenant) : (s.updTen t f).rings = s.rings := rfl
@[simp] theorem State.updTen_subs (s : State) (t : Nat) (f : Tenant → Tenant) : (s.updTen t f).subs = s.subs := rfl
@[simp] theorem State.updTen_spiMalformed (s : State) (t : Nat) (f : Tenant → Tenant) : (s.updTen t f).spiMalformed = s.spiMalformed := rfl
@[simp] theorem State.updTen_recorder (s : State) (t : Nat) (f : Tenant → Tenant) : (s.updTen t f).recorder = s.recorder := rfl
@[simp] theorem State.updTen_boot (s : State) (t : Nat) (f : Tenant → Tenant) : (s.updTen t f).boot = s.boot := rfl
@[simp] theorem State.updTen_supply (s : State) (t : Nat) (f : Tenant → Tenant) : (s.updTen t f).supply = s.supply := rfl
@[simp] theorem State.updTen_timebase (s : State) (t : Nat) (f : Tenant → Tenant) : (s.updTen t f).timebase = s.timebase := rfl
@[simp] theorem State.updTen_spars (s : State) (t : Nat) (f : Tenant → Tenant) : (s.updTen t f).spars = s.spars := rfl
@[simp] theorem State.updTen_net (s : State) (t : Nat) (f : Tenant → Tenant) : (s.updTen t f).net = s.net := rfl
@[simp] theorem State.updTen_motor (s : State) (t : Nat) (f : Tenant → Tenant) : (s.updTen t f).motor = s.motor := rfl
@[simp] theorem State.updTen_channel (s : State) (t : Nat) (f : Tenant → Tenant) : (s.updTen t f).channel = s.channel := rfl
@[simp] theorem State.updTen_diskq (s : State) (t : Nat) (f : Tenant → Tenant) : (s.updTen t f).diskq = s.diskq := rfl
@[simp] theorem State.updTen_radio (s : State) (t : Nat) (f : Tenant → Tenant) : (s.updTen t f).radio = s.radio := rfl
@[simp] theorem State.updTen_keys (s : State) (t : Nat) (f : Tenant → Tenant) : (s.updTen t f).keys = s.keys := rfl
@[simp] theorem State.updTen_cascade (s : State) (t : Nat) (f : Tenant → Tenant) : (s.updTen t f).cascade = s.cascade := rfl
@[simp] theorem State.updTen_out (s : State) (t : Nat) (f : Tenant → Tenant) : (s.updTen t f).out = s.out := rfl
@[simp] theorem State.updTen_up (s : State) (t : Nat) (f : Tenant → Tenant) : (s.updTen t f).up = s.up := rfl
@[simp] theorem State.updTen_free (s : State) (t : Nat) (f : Tenant → Tenant) : (s.updTen t f).free = s.free := rfl
@[simp] theorem State.updTen_pending (s : State) (t : Nat) (f : Tenant → Tenant) : (s.updTen t f).pending = s.pending := rfl

/-! ### State.updView -/

@[simp] theorem State.updView_tenants (s : State) (t : Nat) (f : View → View) : (s.updView t f).tenants = s.tenants := rfl
@[simp] theorem State.updView_views (s : State) (t : Nat) (f : View → View) : (s.updView t f).views = upd s.views t f := rfl
@[simp] theorem State.updView_svcOwner (s : State) (t : Nat) (f : View → View) : (s.updView t f).svcOwner = s.svcOwner := rfl
@[simp] theorem State.updView_svcRights (s : State) (t : Nat) (f : View → View) : (s.updView t f).svcRights = s.svcRights := rfl
@[simp] theorem State.updView_jobs (s : State) (t : Nat) (f : View → View) : (s.updView t f).jobs = s.jobs := rfl
@[simp] theorem State.updView_loft (s : State) (t : Nat) (f : View → View) : (s.updView t f).loft = s.loft := rfl
@[simp] theorem State.updView_rings (s : State) (t : Nat) (f : View → View) : (s.updView t f).rings = s.rings := rfl
@[simp] theorem State.updView_subs (s : State) (t : Nat) (f : View → View) : (s.updView t f).subs = s.subs := rfl
@[simp] theorem State.updView_spiMalformed (s : State) (t : Nat) (f : View → View) : (s.updView t f).spiMalformed = s.spiMalformed := rfl
@[simp] theorem State.updView_recorder (s : State) (t : Nat) (f : View → View) : (s.updView t f).recorder = s.recorder := rfl
@[simp] theorem State.updView_boot (s : State) (t : Nat) (f : View → View) : (s.updView t f).boot = s.boot := rfl
@[simp] theorem State.updView_supply (s : State) (t : Nat) (f : View → View) : (s.updView t f).supply = s.supply := rfl
@[simp] theorem State.updView_timebase (s : State) (t : Nat) (f : View → View) : (s.updView t f).timebase = s.timebase := rfl
@[simp] theorem State.updView_spars (s : State) (t : Nat) (f : View → View) : (s.updView t f).spars = s.spars := rfl
@[simp] theorem State.updView_net (s : State) (t : Nat) (f : View → View) : (s.updView t f).net = s.net := rfl
@[simp] theorem State.updView_motor (s : State) (t : Nat) (f : View → View) : (s.updView t f).motor = s.motor := rfl
@[simp] theorem State.updView_channel (s : State) (t : Nat) (f : View → View) : (s.updView t f).channel = s.channel := rfl
@[simp] theorem State.updView_diskq (s : State) (t : Nat) (f : View → View) : (s.updView t f).diskq = s.diskq := rfl
@[simp] theorem State.updView_radio (s : State) (t : Nat) (f : View → View) : (s.updView t f).radio = s.radio := rfl
@[simp] theorem State.updView_keys (s : State) (t : Nat) (f : View → View) : (s.updView t f).keys = s.keys := rfl
@[simp] theorem State.updView_cascade (s : State) (t : Nat) (f : View → View) : (s.updView t f).cascade = s.cascade := rfl
@[simp] theorem State.updView_out (s : State) (t : Nat) (f : View → View) : (s.updView t f).out = s.out := rfl
@[simp] theorem State.updView_up (s : State) (t : Nat) (f : View → View) : (s.updView t f).up = s.up := rfl
@[simp] theorem State.updView_free (s : State) (t : Nat) (f : View → View) : (s.updView t f).free = s.free := rfl
@[simp] theorem State.updView_pending (s : State) (t : Nat) (f : View → View) : (s.updView t f).pending = s.pending := rfl

/-! ### State.updRing -/

@[simp] theorem State.updRing_tenants (s : State) (n : Nat) (f : Ring → Ring) : (s.updRing n f).tenants = s.tenants := rfl
@[simp] theorem State.updRing_views (s : State) (n : Nat) (f : Ring → Ring) : (s.updRing n f).views = s.views := rfl
@[simp] theorem State.updRing_svcOwner (s : State) (n : Nat) (f : Ring → Ring) : (s.updRing n f).svcOwner = s.svcOwner := rfl
@[simp] theorem State.updRing_svcRights (s : State) (n : Nat) (f : Ring → Ring) : (s.updRing n f).svcRights = s.svcRights := rfl
@[simp] theorem State.updRing_jobs (s : State) (n : Nat) (f : Ring → Ring) : (s.updRing n f).jobs = s.jobs := rfl
@[simp] theorem State.updRing_loft (s : State) (n : Nat) (f : Ring → Ring) : (s.updRing n f).loft = s.loft := rfl
@[simp] theorem State.updRing_rings (s : State) (n : Nat) (f : Ring → Ring) : (s.updRing n f).rings = upd s.rings n f := rfl
@[simp] theorem State.updRing_subs (s : State) (n : Nat) (f : Ring → Ring) : (s.updRing n f).subs = s.subs := rfl
@[simp] theorem State.updRing_spiMalformed (s : State) (n : Nat) (f : Ring → Ring) : (s.updRing n f).spiMalformed = s.spiMalformed := rfl
@[simp] theorem State.updRing_recorder (s : State) (n : Nat) (f : Ring → Ring) : (s.updRing n f).recorder = s.recorder := rfl
@[simp] theorem State.updRing_boot (s : State) (n : Nat) (f : Ring → Ring) : (s.updRing n f).boot = s.boot := rfl
@[simp] theorem State.updRing_supply (s : State) (n : Nat) (f : Ring → Ring) : (s.updRing n f).supply = s.supply := rfl
@[simp] theorem State.updRing_timebase (s : State) (n : Nat) (f : Ring → Ring) : (s.updRing n f).timebase = s.timebase := rfl
@[simp] theorem State.updRing_spars (s : State) (n : Nat) (f : Ring → Ring) : (s.updRing n f).spars = s.spars := rfl
@[simp] theorem State.updRing_net (s : State) (n : Nat) (f : Ring → Ring) : (s.updRing n f).net = s.net := rfl
@[simp] theorem State.updRing_motor (s : State) (n : Nat) (f : Ring → Ring) : (s.updRing n f).motor = s.motor := rfl
@[simp] theorem State.updRing_channel (s : State) (n : Nat) (f : Ring → Ring) : (s.updRing n f).channel = s.channel := rfl
@[simp] theorem State.updRing_diskq (s : State) (n : Nat) (f : Ring → Ring) : (s.updRing n f).diskq = s.diskq := rfl
@[simp] theorem State.updRing_radio (s : State) (n : Nat) (f : Ring → Ring) : (s.updRing n f).radio = s.radio := rfl
@[simp] theorem State.updRing_keys (s : State) (n : Nat) (f : Ring → Ring) : (s.updRing n f).keys = s.keys := rfl
@[simp] theorem State.updRing_cascade (s : State) (n : Nat) (f : Ring → Ring) : (s.updRing n f).cascade = s.cascade := rfl
@[simp] theorem State.updRing_out (s : State) (n : Nat) (f : Ring → Ring) : (s.updRing n f).out = s.out := rfl
@[simp] theorem State.updRing_up (s : State) (n : Nat) (f : Ring → Ring) : (s.updRing n f).up = s.up := rfl
@[simp] theorem State.updRing_free (s : State) (n : Nat) (f : Ring → Ring) : (s.updRing n f).free = s.free := rfl
@[simp] theorem State.updRing_pending (s : State) (n : Nat) (f : Ring → Ring) : (s.updRing n f).pending = s.pending := rfl

/-! ### State.emit -/

@[simp] theorem State.emit_tenants (s : State) (o : Out) : (s.emit o).tenants = s.tenants := rfl
@[simp] theorem State.emit_views (s : State) (o : Out) : (s.emit o).views = s.views := rfl
@[simp] theorem State.emit_svcOwner (s : State) (o : Out) : (s.emit o).svcOwner = s.svcOwner := rfl
@[simp] theorem State.emit_svcRights (s : State) (o : Out) : (s.emit o).svcRights = s.svcRights := rfl
@[simp] theorem State.emit_jobs (s : State) (o : Out) : (s.emit o).jobs = s.jobs := rfl
@[simp] theorem State.emit_loft (s : State) (o : Out) : (s.emit o).loft = s.loft := rfl
@[simp] theorem State.emit_rings (s : State) (o : Out) : (s.emit o).rings = s.rings := rfl
@[simp] theorem State.emit_subs (s : State) (o : Out) : (s.emit o).subs = s.subs := rfl
@[simp] theorem State.emit_spiMalformed (s : State) (o : Out) : (s.emit o).spiMalformed = s.spiMalformed := rfl
@[simp] theorem State.emit_recorder (s : State) (o : Out) : (s.emit o).recorder = s.recorder := rfl
@[simp] theorem State.emit_boot (s : State) (o : Out) : (s.emit o).boot = s.boot := rfl
@[simp] theorem State.emit_supply (s : State) (o : Out) : (s.emit o).supply = s.supply := rfl
@[simp] theorem State.emit_timebase (s : State) (o : Out) : (s.emit o).timebase = s.timebase := rfl
@[simp] theorem State.emit_spars (s : State) (o : Out) : (s.emit o).spars = s.spars := rfl
@[simp] theorem State.emit_net (s : State) (o : Out) : (s.emit o).net = s.net := rfl
@[simp] theorem State.emit_motor (s : State) (o : Out) : (s.emit o).motor = s.motor := rfl
@[simp] theorem State.emit_channel (s : State) (o : Out) : (s.emit o).channel = s.channel := rfl
@[simp] theorem State.emit_diskq (s : State) (o : Out) : (s.emit o).diskq = s.diskq := rfl
@[simp] theorem State.emit_radio (s : State) (o : Out) : (s.emit o).radio = s.radio := rfl
@[simp] theorem State.emit_keys (s : State) (o : Out) : (s.emit o).keys = s.keys := rfl
@[simp] theorem State.emit_cascade (s : State) (o : Out) : (s.emit o).cascade = s.cascade := rfl
@[simp] theorem State.emit_out (s : State) (o : Out) : (s.emit o).out = o :: s.out := rfl
@[simp] theorem State.emit_up (s : State) (o : Out) : (s.emit o).up = s.up := rfl
@[simp] theorem State.emit_free (s : State) (o : Out) : (s.emit o).free = s.free := rfl
@[simp] theorem State.emit_pending (s : State) (o : Out) : (s.emit o).pending = s.pending := rfl

/-! ### State.updLoft -/

@[simp] theorem State.updLoft_tenants (s : State) (f : Loft → Loft) : (s.updLoft f).tenants = s.tenants := rfl
@[simp] theorem State.updLoft_views (s : State) (f : Loft → Loft) : (s.updLoft f).views = s.views := rfl
@[simp] theorem State.updLoft_svcOwner (s : State) (f : Loft → Loft) : (s.updLoft f).svcOwner = s.svcOwner := rfl
@[simp] theorem State.updLoft_svcRights (s : State) (f : Loft → Loft) : (s.updLoft f).svcRights = s.svcRights := rfl
@[simp] theorem State.updLoft_jobs (s : State) (f : Loft → Loft) : (s.updLoft f).jobs = s.jobs := rfl
@[simp] theorem State.updLoft_loft (s : State) (f : Loft → Loft) : (s.updLoft f).loft = f s.loft := rfl
@[simp] theorem State.updLoft_rings (s : State) (f : Loft → Loft) : (s.updLoft f).rings = s.rings := rfl
@[simp] theorem State.updLoft_subs (s : State) (f : Loft → Loft) : (s.updLoft f).subs = s.subs := rfl
@[simp] theorem State.updLoft_spiMalformed (s : State) (f : Loft → Loft) : (s.updLoft f).spiMalformed = s.spiMalformed := rfl
@[simp] theorem State.updLoft_recorder (s : State) (f : Loft → Loft) : (s.updLoft f).recorder = s.recorder := rfl
@[simp] theorem State.updLoft_boot (s : State) (f : Loft → Loft) : (s.updLoft f).boot = s.boot := rfl
@[simp] theorem State.updLoft_supply (s : State) (f : Loft → Loft) : (s.updLoft f).supply = s.supply := rfl
@[simp] theorem State.updLoft_timebase (s : State) (f : Loft → Loft) : (s.updLoft f).timebase = s.timebase := rfl
@[simp] theorem State.updLoft_spars (s : State) (f : Loft → Loft) : (s.updLoft f).spars = s.spars := rfl
@[simp] theorem State.updLoft_net (s : State) (f : Loft → Loft) : (s.updLoft f).net = s.net := rfl
@[simp] theorem State.updLoft_motor (s : State) (f : Loft → Loft) : (s.updLoft f).motor = s.motor := rfl
@[simp] theorem State.updLoft_channel (s : State) (f : Loft → Loft) : (s.updLoft f).channel = s.channel := rfl
@[simp] theorem State.updLoft_diskq (s : State) (f : Loft → Loft) : (s.updLoft f).diskq = s.diskq := rfl
@[simp] theorem State.updLoft_radio (s : State) (f : Loft → Loft) : (s.updLoft f).radio = s.radio := rfl
@[simp] theorem State.updLoft_keys (s : State) (f : Loft → Loft) : (s.updLoft f).keys = s.keys := rfl
@[simp] theorem State.updLoft_cascade (s : State) (f : Loft → Loft) : (s.updLoft f).cascade = s.cascade := rfl
@[simp] theorem State.updLoft_out (s : State) (f : Loft → Loft) : (s.updLoft f).out = s.out := rfl
@[simp] theorem State.updLoft_up (s : State) (f : Loft → Loft) : (s.updLoft f).up = s.up := rfl
@[simp] theorem State.updLoft_free (s : State) (f : Loft → Loft) : (s.updLoft f).free = s.free := rfl
@[simp] theorem State.updLoft_pending (s : State) (f : Loft → Loft) : (s.updLoft f).pending = s.pending := rfl

/-! ### State.updRec -/

@[simp] theorem State.updRec_tenants (s : State) (f : Recorder → Recorder) : (s.updRec f).tenants = s.tenants := rfl
@[simp] theorem State.updRec_views (s : State) (f : Recorder → Recorder) : (s.updRec f).views = s.views := rfl
@[simp] theorem State.updRec_svcOwner (s : State) (f : Recorder → Recorder) : (s.updRec f).svcOwner = s.svcOwner := rfl
@[simp] theorem State.updRec_svcRights (s : State) (f : Recorder → Recorder) : (s.updRec f).svcRights = s.svcRights := rfl
@[simp] theorem State.updRec_jobs (s : State) (f : Recorder → Recorder) : (s.updRec f).jobs = s.jobs := rfl
@[simp] theorem State.updRec_loft (s : State) (f : Recorder → Recorder) : (s.updRec f).loft = s.loft := rfl
@[simp] theorem State.updRec_rings (s : State) (f : Recorder → Recorder) : (s.updRec f).rings = s.rings := rfl
@[simp] theorem State.updRec_subs (s : State) (f : Recorder → Recorder) : (s.updRec f).subs = s.subs := rfl
@[simp] theorem State.updRec_spiMalformed (s : State) (f : Recorder → Recorder) : (s.updRec f).spiMalformed = s.spiMalformed := rfl
@[simp] theorem State.updRec_recorder (s : State) (f : Recorder → Recorder) : (s.updRec f).recorder = f s.recorder := rfl
@[simp] theorem State.updRec_boot (s : State) (f : Recorder → Recorder) : (s.updRec f).boot = s.boot := rfl
@[simp] theorem State.updRec_supply (s : State) (f : Recorder → Recorder) : (s.updRec f).supply = s.supply := rfl
@[simp] theorem State.updRec_timebase (s : State) (f : Recorder → Recorder) : (s.updRec f).timebase = s.timebase := rfl
@[simp] theorem State.updRec_spars (s : State) (f : Recorder → Recorder) : (s.updRec f).spars = s.spars := rfl
@[simp] theorem State.updRec_net (s : State) (f : Recorder → Recorder) : (s.updRec f).net = s.net := rfl
@[simp] theorem State.updRec_motor (s : State) (f : Recorder → Recorder) : (s.updRec f).motor = s.motor := rfl
@[simp] theorem State.updRec_channel (s : State) (f : Recorder → Recorder) : (s.updRec f).channel = s.channel := rfl
@[simp] theorem State.updRec_diskq (s : State) (f : Recorder → Recorder) : (s.updRec f).diskq = s.diskq := rfl
@[simp] theorem State.updRec_radio (s : State) (f : Recorder → Recorder) : (s.updRec f).radio = s.radio := rfl
@[simp] theorem State.updRec_keys (s : State) (f : Recorder → Recorder) : (s.updRec f).keys = s.keys := rfl
@[simp] theorem State.updRec_cascade (s : State) (f : Recorder → Recorder) : (s.updRec f).cascade = s.cascade := rfl
@[simp] theorem State.updRec_out (s : State) (f : Recorder → Recorder) : (s.updRec f).out = s.out := rfl
@[simp] theorem State.updRec_up (s : State) (f : Recorder → Recorder) : (s.updRec f).up = s.up := rfl
@[simp] theorem State.updRec_free (s : State) (f : Recorder → Recorder) : (s.updRec f).free = s.free := rfl
@[simp] theorem State.updRec_pending (s : State) (f : Recorder → Recorder) : (s.updRec f).pending = s.pending := rfl

/-! ### State.updBoot -/

@[simp] theorem State.updBoot_tenants (s : State) (f : Boot → Boot) : (s.updBoot f).tenants = s.tenants := rfl
@[simp] theorem State.updBoot_views (s : State) (f : Boot → Boot) : (s.updBoot f).views = s.views := rfl
@[simp] theorem State.updBoot_svcOwner (s : State) (f : Boot → Boot) : (s.updBoot f).svcOwner = s.svcOwner := rfl
@[simp] theorem State.updBoot_svcRights (s : State) (f : Boot → Boot) : (s.updBoot f).svcRights = s.svcRights := rfl
@[simp] theorem State.updBoot_jobs (s : State) (f : Boot → Boot) : (s.updBoot f).jobs = s.jobs := rfl
@[simp] theorem State.updBoot_loft (s : State) (f : Boot → Boot) : (s.updBoot f).loft = s.loft := rfl
@[simp] theorem State.updBoot_rings (s : State) (f : Boot → Boot) : (s.updBoot f).rings = s.rings := rfl
@[simp] theorem State.updBoot_subs (s : State) (f : Boot → Boot) : (s.updBoot f).subs = s.subs := rfl
@[simp] theorem State.updBoot_spiMalformed (s : State) (f : Boot → Boot) : (s.updBoot f).spiMalformed = s.spiMalformed := rfl
@[simp] theorem State.updBoot_recorder (s : State) (f : Boot → Boot) : (s.updBoot f).recorder = s.recorder := rfl
@[simp] theorem State.updBoot_boot (s : State) (f : Boot → Boot) : (s.updBoot f).boot = f s.boot := rfl
@[simp] theorem State.updBoot_supply (s : State) (f : Boot → Boot) : (s.updBoot f).supply = s.supply := rfl
@[simp] theorem State.updBoot_timebase (s : State) (f : Boot → Boot) : (s.updBoot f).timebase = s.timebase := rfl
@[simp] theorem State.updBoot_spars (s : State) (f : Boot → Boot) : (s.updBoot f).spars = s.spars := rfl
@[simp] theorem State.updBoot_net (s : State) (f : Boot → Boot) : (s.updBoot f).net = s.net := rfl
@[simp] theorem State.updBoot_motor (s : State) (f : Boot → Boot) : (s.updBoot f).motor = s.motor := rfl
@[simp] theorem State.updBoot_channel (s : State) (f : Boot → Boot) : (s.updBoot f).channel = s.channel := rfl
@[simp] theorem State.updBoot_diskq (s : State) (f : Boot → Boot) : (s.updBoot f).diskq = s.diskq := rfl
@[simp] theorem State.updBoot_radio (s : State) (f : Boot → Boot) : (s.updBoot f).radio = s.radio := rfl
@[simp] theorem State.updBoot_keys (s : State) (f : Boot → Boot) : (s.updBoot f).keys = s.keys := rfl
@[simp] theorem State.updBoot_cascade (s : State) (f : Boot → Boot) : (s.updBoot f).cascade = s.cascade := rfl
@[simp] theorem State.updBoot_out (s : State) (f : Boot → Boot) : (s.updBoot f).out = s.out := rfl
@[simp] theorem State.updBoot_up (s : State) (f : Boot → Boot) : (s.updBoot f).up = s.up := rfl
@[simp] theorem State.updBoot_free (s : State) (f : Boot → Boot) : (s.updBoot f).free = s.free := rfl
@[simp] theorem State.updBoot_pending (s : State) (f : Boot → Boot) : (s.updBoot f).pending = s.pending := rfl

/-! ### State.updSup -/

@[simp] theorem State.updSup_tenants (s : State) (f : Supply → Supply) : (s.updSup f).tenants = s.tenants := rfl
@[simp] theorem State.updSup_views (s : State) (f : Supply → Supply) : (s.updSup f).views = s.views := rfl
@[simp] theorem State.updSup_svcOwner (s : State) (f : Supply → Supply) : (s.updSup f).svcOwner = s.svcOwner := rfl
@[simp] theorem State.updSup_svcRights (s : State) (f : Supply → Supply) : (s.updSup f).svcRights = s.svcRights := rfl
@[simp] theorem State.updSup_jobs (s : State) (f : Supply → Supply) : (s.updSup f).jobs = s.jobs := rfl
@[simp] theorem State.updSup_loft (s : State) (f : Supply → Supply) : (s.updSup f).loft = s.loft := rfl
@[simp] theorem State.updSup_rings (s : State) (f : Supply → Supply) : (s.updSup f).rings = s.rings := rfl
@[simp] theorem State.updSup_subs (s : State) (f : Supply → Supply) : (s.updSup f).subs = s.subs := rfl
@[simp] theorem State.updSup_spiMalformed (s : State) (f : Supply → Supply) : (s.updSup f).spiMalformed = s.spiMalformed := rfl
@[simp] theorem State.updSup_recorder (s : State) (f : Supply → Supply) : (s.updSup f).recorder = s.recorder := rfl
@[simp] theorem State.updSup_boot (s : State) (f : Supply → Supply) : (s.updSup f).boot = s.boot := rfl
@[simp] theorem State.updSup_supply (s : State) (f : Supply → Supply) : (s.updSup f).supply = f s.supply := rfl
@[simp] theorem State.updSup_timebase (s : State) (f : Supply → Supply) : (s.updSup f).timebase = s.timebase := rfl
@[simp] theorem State.updSup_spars (s : State) (f : Supply → Supply) : (s.updSup f).spars = s.spars := rfl
@[simp] theorem State.updSup_net (s : State) (f : Supply → Supply) : (s.updSup f).net = s.net := rfl
@[simp] theorem State.updSup_motor (s : State) (f : Supply → Supply) : (s.updSup f).motor = s.motor := rfl
@[simp] theorem State.updSup_channel (s : State) (f : Supply → Supply) : (s.updSup f).channel = s.channel := rfl
@[simp] theorem State.updSup_diskq (s : State) (f : Supply → Supply) : (s.updSup f).diskq = s.diskq := rfl
@[simp] theorem State.updSup_radio (s : State) (f : Supply → Supply) : (s.updSup f).radio = s.radio := rfl
@[simp] theorem State.updSup_keys (s : State) (f : Supply → Supply) : (s.updSup f).keys = s.keys := rfl
@[simp] theorem State.updSup_cascade (s : State) (f : Supply → Supply) : (s.updSup f).cascade = s.cascade := rfl
@[simp] theorem State.updSup_out (s : State) (f : Supply → Supply) : (s.updSup f).out = s.out := rfl
@[simp] theorem State.updSup_up (s : State) (f : Supply → Supply) : (s.updSup f).up = s.up := rfl
@[simp] theorem State.updSup_free (s : State) (f : Supply → Supply) : (s.updSup f).free = s.free := rfl
@[simp] theorem State.updSup_pending (s : State) (f : Supply → Supply) : (s.updSup f).pending = s.pending := rfl

/-! ### State.updTb -/

@[simp] theorem State.updTb_tenants (s : State) (f : Timebase → Timebase) : (s.updTb f).tenants = s.tenants := rfl
@[simp] theorem State.updTb_views (s : State) (f : Timebase → Timebase) : (s.updTb f).views = s.views := rfl
@[simp] theorem State.updTb_svcOwner (s : State) (f : Timebase → Timebase) : (s.updTb f).svcOwner = s.svcOwner := rfl
@[simp] theorem State.updTb_svcRights (s : State) (f : Timebase → Timebase) : (s.updTb f).svcRights = s.svcRights := rfl
@[simp] theorem State.updTb_jobs (s : State) (f : Timebase → Timebase) : (s.updTb f).jobs = s.jobs := rfl
@[simp] theorem State.updTb_loft (s : State) (f : Timebase → Timebase) : (s.updTb f).loft = s.loft := rfl
@[simp] theorem State.updTb_rings (s : State) (f : Timebase → Timebase) : (s.updTb f).rings = s.rings := rfl
@[simp] theorem State.updTb_subs (s : State) (f : Timebase → Timebase) : (s.updTb f).subs = s.subs := rfl
@[simp] theorem State.updTb_spiMalformed (s : State) (f : Timebase → Timebase) : (s.updTb f).spiMalformed = s.spiMalformed := rfl
@[simp] theorem State.updTb_recorder (s : State) (f : Timebase → Timebase) : (s.updTb f).recorder = s.recorder := rfl
@[simp] theorem State.updTb_boot (s : State) (f : Timebase → Timebase) : (s.updTb f).boot = s.boot := rfl
@[simp] theorem State.updTb_supply (s : State) (f : Timebase → Timebase) : (s.updTb f).supply = s.supply := rfl
@[simp] theorem State.updTb_timebase (s : State) (f : Timebase → Timebase) : (s.updTb f).timebase = f s.timebase := rfl
@[simp] theorem State.updTb_spars (s : State) (f : Timebase → Timebase) : (s.updTb f).spars = s.spars := rfl
@[simp] theorem State.updTb_net (s : State) (f : Timebase → Timebase) : (s.updTb f).net = s.net := rfl
@[simp] theorem State.updTb_motor (s : State) (f : Timebase → Timebase) : (s.updTb f).motor = s.motor := rfl
@[simp] theorem State.updTb_channel (s : State) (f : Timebase → Timebase) : (s.updTb f).channel = s.channel := rfl
@[simp] theorem State.updTb_diskq (s : State) (f : Timebase → Timebase) : (s.updTb f).diskq = s.diskq := rfl
@[simp] theorem State.updTb_radio (s : State) (f : Timebase → Timebase) : (s.updTb f).radio = s.radio := rfl
@[simp] theorem State.updTb_keys (s : State) (f : Timebase → Timebase) : (s.updTb f).keys = s.keys := rfl
@[simp] theorem State.updTb_cascade (s : State) (f : Timebase → Timebase) : (s.updTb f).cascade = s.cascade := rfl
@[simp] theorem State.updTb_out (s : State) (f : Timebase → Timebase) : (s.updTb f).out = s.out := rfl
@[simp] theorem State.updTb_up (s : State) (f : Timebase → Timebase) : (s.updTb f).up = s.up := rfl
@[simp] theorem State.updTb_free (s : State) (f : Timebase → Timebase) : (s.updTb f).free = s.free := rfl
@[simp] theorem State.updTb_pending (s : State) (f : Timebase → Timebase) : (s.updTb f).pending = s.pending := rfl

/-! ### State.drawn -/

@[simp] theorem State.drawn_tenants (s : State) : (s.drawn).tenants = s.tenants := rfl
@[simp] theorem State.drawn_views (s : State) : (s.drawn).views = s.views := rfl
@[simp] theorem State.drawn_svcOwner (s : State) : (s.drawn).svcOwner = s.svcOwner := rfl
@[simp] theorem State.drawn_svcRights (s : State) : (s.drawn).svcRights = s.svcRights := rfl
@[simp] theorem State.drawn_jobs (s : State) : (s.drawn).jobs = s.jobs := rfl
@[simp] theorem State.drawn_loft (s : State) : (s.drawn).loft = s.loft := rfl
@[simp] theorem State.drawn_rings (s : State) : (s.drawn).rings = s.rings := rfl
@[simp] theorem State.drawn_subs (s : State) : (s.drawn).subs = s.subs := rfl
@[simp] theorem State.drawn_spiMalformed (s : State) : (s.drawn).spiMalformed = s.spiMalformed := rfl
@[simp] theorem State.drawn_recorder (s : State) : (s.drawn).recorder = s.recorder := rfl
@[simp] theorem State.drawn_boot (s : State) : (s.drawn).boot = s.boot := rfl
@[simp] theorem State.drawn_supply (s : State) : (s.drawn).supply = s.supply := rfl
@[simp] theorem State.drawn_timebase (s : State) : (s.drawn).timebase = s.timebase := rfl
@[simp] theorem State.drawn_spars (s : State) : (s.drawn).spars = s.spars := rfl
@[simp] theorem State.drawn_net (s : State) : (s.drawn).net = s.net := rfl
@[simp] theorem State.drawn_motor (s : State) : (s.drawn).motor = s.motor := rfl
@[simp] theorem State.drawn_channel (s : State) : (s.drawn).channel = s.channel := rfl
@[simp] theorem State.drawn_diskq (s : State) : (s.drawn).diskq = s.diskq := rfl
@[simp] theorem State.drawn_radio (s : State) : (s.drawn).radio = s.radio := rfl
@[simp] theorem State.drawn_keys (s : State) : (s.drawn).keys = s.keys := rfl
@[simp] theorem State.drawn_cascade (s : State) : (s.drawn).cascade = s.cascade := rfl
@[simp] theorem State.drawn_out (s : State) : (s.drawn).out = s.out := rfl
@[simp] theorem State.drawn_up (s : State) : (s.drawn).up = s.up := rfl
@[simp] theorem State.drawn_free (s : State) : (s.drawn).free = s.free + 1 := rfl
@[simp] theorem State.drawn_pending (s : State) : (s.drawn).pending = s.pending := rfl

/-! ### State.updIsl -/

@[simp] theorem State.updIsl_tenants (s : State) (f : Islands → Islands) : (s.updIsl f).tenants = s.tenants := rfl
@[simp] theorem State.updIsl_views (s : State) (f : Islands → Islands) : (s.updIsl f).views = s.views := rfl
@[simp] theorem State.updIsl_svcOwner (s : State) (f : Islands → Islands) : (s.updIsl f).svcOwner = s.svcOwner := rfl
@[simp] theorem State.updIsl_svcRights (s : State) (f : Islands → Islands) : (s.updIsl f).svcRights = s.svcRights := rfl
@[simp] theorem State.updIsl_jobs (s : State) (f : Islands → Islands) : (s.updIsl f).jobs = s.jobs := rfl
@[simp] theorem State.updIsl_loft (s : State) (f : Islands → Islands) : (s.updIsl f).loft = s.loft := rfl
@[simp] theorem State.updIsl_rings (s : State) (f : Islands → Islands) : (s.updIsl f).rings = s.rings := rfl
@[simp] theorem State.updIsl_subs (s : State) (f : Islands → Islands) : (s.updIsl f).subs = s.subs := rfl
@[simp] theorem State.updIsl_spiMalformed (s : State) (f : Islands → Islands) : (s.updIsl f).spiMalformed = s.spiMalformed := rfl
@[simp] theorem State.updIsl_recorder (s : State) (f : Islands → Islands) : (s.updIsl f).recorder = s.recorder := rfl
@[simp] theorem State.updIsl_boot (s : State) (f : Islands → Islands) : (s.updIsl f).boot = s.boot := rfl
@[simp] theorem State.updIsl_supply (s : State) (f : Islands → Islands) : (s.updIsl f).supply = { s.supply with isl := f s.supply.isl } := rfl
@[simp] theorem State.updIsl_timebase (s : State) (f : Islands → Islands) : (s.updIsl f).timebase = s.timebase := rfl
@[simp] theorem State.updIsl_spars (s : State) (f : Islands → Islands) : (s.updIsl f).spars = s.spars := rfl
@[simp] theorem State.updIsl_net (s : State) (f : Islands → Islands) : (s.updIsl f).net = s.net := rfl
@[simp] theorem State.updIsl_motor (s : State) (f : Islands → Islands) : (s.updIsl f).motor = s.motor := rfl
@[simp] theorem State.updIsl_channel (s : State) (f : Islands → Islands) : (s.updIsl f).channel = s.channel := rfl
@[simp] theorem State.updIsl_diskq (s : State) (f : Islands → Islands) : (s.updIsl f).diskq = s.diskq := rfl
@[simp] theorem State.updIsl_radio (s : State) (f : Islands → Islands) : (s.updIsl f).radio = s.radio := rfl
@[simp] theorem State.updIsl_keys (s : State) (f : Islands → Islands) : (s.updIsl f).keys = s.keys := rfl
@[simp] theorem State.updIsl_cascade (s : State) (f : Islands → Islands) : (s.updIsl f).cascade = s.cascade := rfl
@[simp] theorem State.updIsl_out (s : State) (f : Islands → Islands) : (s.updIsl f).out = s.out := rfl
@[simp] theorem State.updIsl_up (s : State) (f : Islands → Islands) : (s.updIsl f).up = s.up := rfl
@[simp] theorem State.updIsl_free (s : State) (f : Islands → Islands) : (s.updIsl f).free = s.free := rfl
@[simp] theorem State.updIsl_pending (s : State) (f : Islands → Islands) : (s.updIsl f).pending = s.pending := rfl

/-! ### State.updChn -/

@[simp] theorem State.updChn_tenants (s : State) (f : Channel → Channel) : (s.updChn f).tenants = s.tenants := rfl
@[simp] theorem State.updChn_views (s : State) (f : Channel → Channel) : (s.updChn f).views = s.views := rfl
@[simp] theorem State.updChn_svcOwner (s : State) (f : Channel → Channel) : (s.updChn f).svcOwner = s.svcOwner := rfl
@[simp] theorem State.updChn_svcRights (s : State) (f : Channel → Channel) : (s.updChn f).svcRights = s.svcRights := rfl
@[simp] theorem State.updChn_jobs (s : State) (f : Channel → Channel) : (s.updChn f).jobs = s.jobs := rfl
@[simp] theorem State.updChn_loft (s : State) (f : Channel → Channel) : (s.updChn f).loft = s.loft := rfl
@[simp] theorem State.updChn_rings (s : State) (f : Channel → Channel) : (s.updChn f).rings = s.rings := rfl
@[simp] theorem State.updChn_subs (s : State) (f : Channel → Channel) : (s.updChn f).subs = s.subs := rfl
@[simp] theorem State.updChn_spiMalformed (s : State) (f : Channel → Channel) : (s.updChn f).spiMalformed = s.spiMalformed := rfl
@[simp] theorem State.updChn_recorder (s : State) (f : Channel → Channel) : (s.updChn f).recorder = s.recorder := rfl
@[simp] theorem State.updChn_boot (s : State) (f : Channel → Channel) : (s.updChn f).boot = s.boot := rfl
@[simp] theorem State.updChn_supply (s : State) (f : Channel → Channel) : (s.updChn f).supply = s.supply := rfl
@[simp] theorem State.updChn_timebase (s : State) (f : Channel → Channel) : (s.updChn f).timebase = s.timebase := rfl
@[simp] theorem State.updChn_spars (s : State) (f : Channel → Channel) : (s.updChn f).spars = s.spars := rfl
@[simp] theorem State.updChn_net (s : State) (f : Channel → Channel) : (s.updChn f).net = s.net := rfl
@[simp] theorem State.updChn_motor (s : State) (f : Channel → Channel) : (s.updChn f).motor = s.motor := rfl
@[simp] theorem State.updChn_channel (s : State) (f : Channel → Channel) : (s.updChn f).channel = f s.channel := rfl
@[simp] theorem State.updChn_diskq (s : State) (f : Channel → Channel) : (s.updChn f).diskq = s.diskq := rfl
@[simp] theorem State.updChn_radio (s : State) (f : Channel → Channel) : (s.updChn f).radio = s.radio := rfl
@[simp] theorem State.updChn_keys (s : State) (f : Channel → Channel) : (s.updChn f).keys = s.keys := rfl
@[simp] theorem State.updChn_cascade (s : State) (f : Channel → Channel) : (s.updChn f).cascade = s.cascade := rfl
@[simp] theorem State.updChn_out (s : State) (f : Channel → Channel) : (s.updChn f).out = s.out := rfl
@[simp] theorem State.updChn_up (s : State) (f : Channel → Channel) : (s.updChn f).up = s.up := rfl
@[simp] theorem State.updChn_free (s : State) (f : Channel → Channel) : (s.updChn f).free = s.free := rfl
@[simp] theorem State.updChn_pending (s : State) (f : Channel → Channel) : (s.updChn f).pending = s.pending := rfl

/-! ### State.updDsk -/

@[simp] theorem State.updDsk_tenants (s : State) (f : DiskQ → DiskQ) : (s.updDsk f).tenants = s.tenants := rfl
@[simp] theorem State.updDsk_views (s : State) (f : DiskQ → DiskQ) : (s.updDsk f).views = s.views := rfl
@[simp] theorem State.updDsk_svcOwner (s : State) (f : DiskQ → DiskQ) : (s.updDsk f).svcOwner = s.svcOwner := rfl
@[simp] theorem State.updDsk_svcRights (s : State) (f : DiskQ → DiskQ) : (s.updDsk f).svcRights = s.svcRights := rfl
@[simp] theorem State.updDsk_jobs (s : State) (f : DiskQ → DiskQ) : (s.updDsk f).jobs = s.jobs := rfl
@[simp] theorem State.updDsk_loft (s : State) (f : DiskQ → DiskQ) : (s.updDsk f).loft = s.loft := rfl
@[simp] theorem State.updDsk_rings (s : State) (f : DiskQ → DiskQ) : (s.updDsk f).rings = s.rings := rfl
@[simp] theorem State.updDsk_subs (s : State) (f : DiskQ → DiskQ) : (s.updDsk f).subs = s.subs := rfl
@[simp] theorem State.updDsk_spiMalformed (s : State) (f : DiskQ → DiskQ) : (s.updDsk f).spiMalformed = s.spiMalformed := rfl
@[simp] theorem State.updDsk_recorder (s : State) (f : DiskQ → DiskQ) : (s.updDsk f).recorder = s.recorder := rfl
@[simp] theorem State.updDsk_boot (s : State) (f : DiskQ → DiskQ) : (s.updDsk f).boot = s.boot := rfl
@[simp] theorem State.updDsk_supply (s : State) (f : DiskQ → DiskQ) : (s.updDsk f).supply = s.supply := rfl
@[simp] theorem State.updDsk_timebase (s : State) (f : DiskQ → DiskQ) : (s.updDsk f).timebase = s.timebase := rfl
@[simp] theorem State.updDsk_spars (s : State) (f : DiskQ → DiskQ) : (s.updDsk f).spars = s.spars := rfl
@[simp] theorem State.updDsk_net (s : State) (f : DiskQ → DiskQ) : (s.updDsk f).net = s.net := rfl
@[simp] theorem State.updDsk_motor (s : State) (f : DiskQ → DiskQ) : (s.updDsk f).motor = s.motor := rfl
@[simp] theorem State.updDsk_channel (s : State) (f : DiskQ → DiskQ) : (s.updDsk f).channel = s.channel := rfl
@[simp] theorem State.updDsk_diskq (s : State) (f : DiskQ → DiskQ) : (s.updDsk f).diskq = f s.diskq := rfl
@[simp] theorem State.updDsk_radio (s : State) (f : DiskQ → DiskQ) : (s.updDsk f).radio = s.radio := rfl
@[simp] theorem State.updDsk_keys (s : State) (f : DiskQ → DiskQ) : (s.updDsk f).keys = s.keys := rfl
@[simp] theorem State.updDsk_cascade (s : State) (f : DiskQ → DiskQ) : (s.updDsk f).cascade = s.cascade := rfl
@[simp] theorem State.updDsk_out (s : State) (f : DiskQ → DiskQ) : (s.updDsk f).out = s.out := rfl
@[simp] theorem State.updDsk_up (s : State) (f : DiskQ → DiskQ) : (s.updDsk f).up = s.up := rfl
@[simp] theorem State.updDsk_free (s : State) (f : DiskQ → DiskQ) : (s.updDsk f).free = s.free := rfl
@[simp] theorem State.updDsk_pending (s : State) (f : DiskQ → DiskQ) : (s.updDsk f).pending = s.pending := rfl

/-! ### State.updA -/

@[simp] theorem State.updA_tenants (s : State) (f : MotA → MotA) : (s.updA f).tenants = s.tenants := rfl
@[simp] theorem State.updA_views (s : State) (f : MotA → MotA) : (s.updA f).views = s.views := rfl
@[simp] theorem State.updA_svcOwner (s : State) (f : MotA → MotA) : (s.updA f).svcOwner = s.svcOwner := rfl
@[simp] theorem State.updA_svcRights (s : State) (f : MotA → MotA) : (s.updA f).svcRights = s.svcRights := rfl
@[simp] theorem State.updA_jobs (s : State) (f : MotA → MotA) : (s.updA f).jobs = s.jobs := rfl
@[simp] theorem State.updA_loft (s : State) (f : MotA → MotA) : (s.updA f).loft = s.loft := rfl
@[simp] theorem State.updA_rings (s : State) (f : MotA → MotA) : (s.updA f).rings = s.rings := rfl
@[simp] theorem State.updA_subs (s : State) (f : MotA → MotA) : (s.updA f).subs = s.subs := rfl
@[simp] theorem State.updA_spiMalformed (s : State) (f : MotA → MotA) : (s.updA f).spiMalformed = s.spiMalformed := rfl
@[simp] theorem State.updA_recorder (s : State) (f : MotA → MotA) : (s.updA f).recorder = s.recorder := rfl
@[simp] theorem State.updA_boot (s : State) (f : MotA → MotA) : (s.updA f).boot = s.boot := rfl
@[simp] theorem State.updA_supply (s : State) (f : MotA → MotA) : (s.updA f).supply = s.supply := rfl
@[simp] theorem State.updA_timebase (s : State) (f : MotA → MotA) : (s.updA f).timebase = s.timebase := rfl
@[simp] theorem State.updA_spars (s : State) (f : MotA → MotA) : (s.updA f).spars = s.spars := rfl
@[simp] theorem State.updA_net (s : State) (f : MotA → MotA) : (s.updA f).net = s.net := rfl
@[simp] theorem State.updA_motor (s : State) (f : MotA → MotA) : (s.updA f).motor = { s.motor with a := f s.motor.a } := rfl
@[simp] theorem State.updA_channel (s : State) (f : MotA → MotA) : (s.updA f).channel = s.channel := rfl
@[simp] theorem State.updA_diskq (s : State) (f : MotA → MotA) : (s.updA f).diskq = s.diskq := rfl
@[simp] theorem State.updA_radio (s : State) (f : MotA → MotA) : (s.updA f).radio = s.radio := rfl
@[simp] theorem State.updA_keys (s : State) (f : MotA → MotA) : (s.updA f).keys = s.keys := rfl
@[simp] theorem State.updA_cascade (s : State) (f : MotA → MotA) : (s.updA f).cascade = s.cascade := rfl
@[simp] theorem State.updA_out (s : State) (f : MotA → MotA) : (s.updA f).out = s.out := rfl
@[simp] theorem State.updA_up (s : State) (f : MotA → MotA) : (s.updA f).up = s.up := rfl
@[simp] theorem State.updA_free (s : State) (f : MotA → MotA) : (s.updA f).free = s.free := rfl
@[simp] theorem State.updA_pending (s : State) (f : MotA → MotA) : (s.updA f).pending = s.pending := rfl

/-! ### State.updB -/

@[simp] theorem State.updB_tenants (s : State) (f : MotB → MotB) : (s.updB f).tenants = s.tenants := rfl
@[simp] theorem State.updB_views (s : State) (f : MotB → MotB) : (s.updB f).views = s.views := rfl
@[simp] theorem State.updB_svcOwner (s : State) (f : MotB → MotB) : (s.updB f).svcOwner = s.svcOwner := rfl
@[simp] theorem State.updB_svcRights (s : State) (f : MotB → MotB) : (s.updB f).svcRights = s.svcRights := rfl
@[simp] theorem State.updB_jobs (s : State) (f : MotB → MotB) : (s.updB f).jobs = s.jobs := rfl
@[simp] theorem State.updB_loft (s : State) (f : MotB → MotB) : (s.updB f).loft = s.loft := rfl
@[simp] theorem State.updB_rings (s : State) (f : MotB → MotB) : (s.updB f).rings = s.rings := rfl
@[simp] theorem State.updB_subs (s : State) (f : MotB → MotB) : (s.updB f).subs = s.subs := rfl
@[simp] theorem State.updB_spiMalformed (s : State) (f : MotB → MotB) : (s.updB f).spiMalformed = s.spiMalformed := rfl
@[simp] theorem State.updB_recorder (s : State) (f : MotB → MotB) : (s.updB f).recorder = s.recorder := rfl
@[simp] theorem State.updB_boot (s : State) (f : MotB → MotB) : (s.updB f).boot = s.boot := rfl
@[simp] theorem State.updB_supply (s : State) (f : MotB → MotB) : (s.updB f).supply = s.supply := rfl
@[simp] theorem State.updB_timebase (s : State) (f : MotB → MotB) : (s.updB f).timebase = s.timebase := rfl
@[simp] theorem State.updB_spars (s : State) (f : MotB → MotB) : (s.updB f).spars = s.spars := rfl
@[simp] theorem State.updB_net (s : State) (f : MotB → MotB) : (s.updB f).net = s.net := rfl
@[simp] theorem State.updB_motor (s : State) (f : MotB → MotB) : (s.updB f).motor = { s.motor with b := f s.motor.b } := rfl
@[simp] theorem State.updB_channel (s : State) (f : MotB → MotB) : (s.updB f).channel = s.channel := rfl
@[simp] theorem State.updB_diskq (s : State) (f : MotB → MotB) : (s.updB f).diskq = s.diskq := rfl
@[simp] theorem State.updB_radio (s : State) (f : MotB → MotB) : (s.updB f).radio = s.radio := rfl
@[simp] theorem State.updB_keys (s : State) (f : MotB → MotB) : (s.updB f).keys = s.keys := rfl
@[simp] theorem State.updB_cascade (s : State) (f : MotB → MotB) : (s.updB f).cascade = s.cascade := rfl
@[simp] theorem State.updB_out (s : State) (f : MotB → MotB) : (s.updB f).out = s.out := rfl
@[simp] theorem State.updB_up (s : State) (f : MotB → MotB) : (s.updB f).up = s.up := rfl
@[simp] theorem State.updB_free (s : State) (f : MotB → MotB) : (s.updB f).free = s.free := rfl
@[simp] theorem State.updB_pending (s : State) (f : MotB → MotB) : (s.updB f).pending = s.pending := rfl

/-! ### State.updNet -/

@[simp] theorem State.updNet_tenants (s : State) (f : Net → Net) : (s.updNet f).tenants = s.tenants := rfl
@[simp] theorem State.updNet_views (s : State) (f : Net → Net) : (s.updNet f).views = s.views := rfl
@[simp] theorem State.updNet_svcOwner (s : State) (f : Net → Net) : (s.updNet f).svcOwner = s.svcOwner := rfl
@[simp] theorem State.updNet_svcRights (s : State) (f : Net → Net) : (s.updNet f).svcRights = s.svcRights := rfl
@[simp] theorem State.updNet_jobs (s : State) (f : Net → Net) : (s.updNet f).jobs = s.jobs := rfl
@[simp] theorem State.updNet_loft (s : State) (f : Net → Net) : (s.updNet f).loft = s.loft := rfl
@[simp] theorem State.updNet_rings (s : State) (f : Net → Net) : (s.updNet f).rings = s.rings := rfl
@[simp] theorem State.updNet_subs (s : State) (f : Net → Net) : (s.updNet f).subs = s.subs := rfl
@[simp] theorem State.updNet_spiMalformed (s : State) (f : Net → Net) : (s.updNet f).spiMalformed = s.spiMalformed := rfl
@[simp] theorem State.updNet_recorder (s : State) (f : Net → Net) : (s.updNet f).recorder = s.recorder := rfl
@[simp] theorem State.updNet_boot (s : State) (f : Net → Net) : (s.updNet f).boot = s.boot := rfl
@[simp] theorem State.updNet_supply (s : State) (f : Net → Net) : (s.updNet f).supply = s.supply := rfl
@[simp] theorem State.updNet_timebase (s : State) (f : Net → Net) : (s.updNet f).timebase = s.timebase := rfl
@[simp] theorem State.updNet_spars (s : State) (f : Net → Net) : (s.updNet f).spars = s.spars := rfl
@[simp] theorem State.updNet_net (s : State) (f : Net → Net) : (s.updNet f).net = f s.net := rfl
@[simp] theorem State.updNet_motor (s : State) (f : Net → Net) : (s.updNet f).motor = s.motor := rfl
@[simp] theorem State.updNet_channel (s : State) (f : Net → Net) : (s.updNet f).channel = s.channel := rfl
@[simp] theorem State.updNet_diskq (s : State) (f : Net → Net) : (s.updNet f).diskq = s.diskq := rfl
@[simp] theorem State.updNet_radio (s : State) (f : Net → Net) : (s.updNet f).radio = s.radio := rfl
@[simp] theorem State.updNet_keys (s : State) (f : Net → Net) : (s.updNet f).keys = s.keys := rfl
@[simp] theorem State.updNet_cascade (s : State) (f : Net → Net) : (s.updNet f).cascade = s.cascade := rfl
@[simp] theorem State.updNet_out (s : State) (f : Net → Net) : (s.updNet f).out = s.out := rfl
@[simp] theorem State.updNet_up (s : State) (f : Net → Net) : (s.updNet f).up = s.up := rfl
@[simp] theorem State.updNet_free (s : State) (f : Net → Net) : (s.updNet f).free = s.free := rfl
@[simp] theorem State.updNet_pending (s : State) (f : Net → Net) : (s.updNet f).pending = s.pending := rfl

/-! ### State.updPort -/

@[simp] theorem State.updPort_tenants (s : State) (p : Nat) (f : Port → Port) : (s.updPort p f).tenants = s.tenants := rfl
@[simp] theorem State.updPort_views (s : State) (p : Nat) (f : Port → Port) : (s.updPort p f).views = s.views := rfl
@[simp] theorem State.updPort_svcOwner (s : State) (p : Nat) (f : Port → Port) : (s.updPort p f).svcOwner = s.svcOwner := rfl
@[simp] theorem State.updPort_svcRights (s : State) (p : Nat) (f : Port → Port) : (s.updPort p f).svcRights = s.svcRights := rfl
@[simp] theorem State.updPort_jobs (s : State) (p : Nat) (f : Port → Port) : (s.updPort p f).jobs = s.jobs := rfl
@[simp] theorem State.updPort_loft (s : State) (p : Nat) (f : Port → Port) : (s.updPort p f).loft = s.loft := rfl
@[simp] theorem State.updPort_rings (s : State) (p : Nat) (f : Port → Port) : (s.updPort p f).rings = s.rings := rfl
@[simp] theorem State.updPort_subs (s : State) (p : Nat) (f : Port → Port) : (s.updPort p f).subs = s.subs := rfl
@[simp] theorem State.updPort_spiMalformed (s : State) (p : Nat) (f : Port → Port) : (s.updPort p f).spiMalformed = s.spiMalformed := rfl
@[simp] theorem State.updPort_recorder (s : State) (p : Nat) (f : Port → Port) : (s.updPort p f).recorder = s.recorder := rfl
@[simp] theorem State.updPort_boot (s : State) (p : Nat) (f : Port → Port) : (s.updPort p f).boot = s.boot := rfl
@[simp] theorem State.updPort_supply (s : State) (p : Nat) (f : Port → Port) : (s.updPort p f).supply = s.supply := rfl
@[simp] theorem State.updPort_timebase (s : State) (p : Nat) (f : Port → Port) : (s.updPort p f).timebase = s.timebase := rfl
@[simp] theorem State.updPort_spars (s : State) (p : Nat) (f : Port → Port) : (s.updPort p f).spars = s.spars := rfl
@[simp] theorem State.updPort_net (s : State) (p : Nat) (f : Port → Port) : (s.updPort p f).net = { s.net with port := upd s.net.port p f } := rfl
@[simp] theorem State.updPort_motor (s : State) (p : Nat) (f : Port → Port) : (s.updPort p f).motor = s.motor := rfl
@[simp] theorem State.updPort_channel (s : State) (p : Nat) (f : Port → Port) : (s.updPort p f).channel = s.channel := rfl
@[simp] theorem State.updPort_diskq (s : State) (p : Nat) (f : Port → Port) : (s.updPort p f).diskq = s.diskq := rfl
@[simp] theorem State.updPort_radio (s : State) (p : Nat) (f : Port → Port) : (s.updPort p f).radio = s.radio := rfl
@[simp] theorem State.updPort_keys (s : State) (p : Nat) (f : Port → Port) : (s.updPort p f).keys = s.keys := rfl
@[simp] theorem State.updPort_cascade (s : State) (p : Nat) (f : Port → Port) : (s.updPort p f).cascade = s.cascade := rfl
@[simp] theorem State.updPort_out (s : State) (p : Nat) (f : Port → Port) : (s.updPort p f).out = s.out := rfl
@[simp] theorem State.updPort_up (s : State) (p : Nat) (f : Port → Port) : (s.updPort p f).up = s.up := rfl
@[simp] theorem State.updPort_free (s : State) (p : Nat) (f : Port → Port) : (s.updPort p f).free = s.free := rfl
@[simp] theorem State.updPort_pending (s : State) (p : Nat) (f : Port → Port) : (s.updPort p f).pending = s.pending := rfl

/-! ### State.updInst -/

@[simp] theorem State.updInst_tenants (s : State) (p : Nat) (f : PtpInst → PtpInst) : (s.updInst p f).tenants = s.tenants := rfl
@[simp] theorem State.updInst_views (s : State) (p : Nat) (f : PtpInst → PtpInst) : (s.updInst p f).views = s.views := rfl
@[simp] theorem State.updInst_svcOwner (s : State) (p : Nat) (f : PtpInst → PtpInst) : (s.updInst p f).svcOwner = s.svcOwner := rfl
@[simp] theorem State.updInst_svcRights (s : State) (p : Nat) (f : PtpInst → PtpInst) : (s.updInst p f).svcRights = s.svcRights := rfl
@[simp] theorem State.updInst_jobs (s : State) (p : Nat) (f : PtpInst → PtpInst) : (s.updInst p f).jobs = s.jobs := rfl
@[simp] theorem State.updInst_loft (s : State) (p : Nat) (f : PtpInst → PtpInst) : (s.updInst p f).loft = s.loft := rfl
@[simp] theorem State.updInst_rings (s : State) (p : Nat) (f : PtpInst → PtpInst) : (s.updInst p f).rings = s.rings := rfl
@[simp] theorem State.updInst_subs (s : State) (p : Nat) (f : PtpInst → PtpInst) : (s.updInst p f).subs = s.subs := rfl
@[simp] theorem State.updInst_spiMalformed (s : State) (p : Nat) (f : PtpInst → PtpInst) : (s.updInst p f).spiMalformed = s.spiMalformed := rfl
@[simp] theorem State.updInst_recorder (s : State) (p : Nat) (f : PtpInst → PtpInst) : (s.updInst p f).recorder = s.recorder := rfl
@[simp] theorem State.updInst_boot (s : State) (p : Nat) (f : PtpInst → PtpInst) : (s.updInst p f).boot = s.boot := rfl
@[simp] theorem State.updInst_supply (s : State) (p : Nat) (f : PtpInst → PtpInst) : (s.updInst p f).supply = s.supply := rfl
@[simp] theorem State.updInst_timebase (s : State) (p : Nat) (f : PtpInst → PtpInst) : (s.updInst p f).timebase = s.timebase := rfl
@[simp] theorem State.updInst_spars (s : State) (p : Nat) (f : PtpInst → PtpInst) : (s.updInst p f).spars = s.spars := rfl
@[simp] theorem State.updInst_net (s : State) (p : Nat) (f : PtpInst → PtpInst) : (s.updInst p f).net = { s.net with ptp := upd s.net.ptp p f } := rfl
@[simp] theorem State.updInst_motor (s : State) (p : Nat) (f : PtpInst → PtpInst) : (s.updInst p f).motor = s.motor := rfl
@[simp] theorem State.updInst_channel (s : State) (p : Nat) (f : PtpInst → PtpInst) : (s.updInst p f).channel = s.channel := rfl
@[simp] theorem State.updInst_diskq (s : State) (p : Nat) (f : PtpInst → PtpInst) : (s.updInst p f).diskq = s.diskq := rfl
@[simp] theorem State.updInst_radio (s : State) (p : Nat) (f : PtpInst → PtpInst) : (s.updInst p f).radio = s.radio := rfl
@[simp] theorem State.updInst_keys (s : State) (p : Nat) (f : PtpInst → PtpInst) : (s.updInst p f).keys = s.keys := rfl
@[simp] theorem State.updInst_cascade (s : State) (p : Nat) (f : PtpInst → PtpInst) : (s.updInst p f).cascade = s.cascade := rfl
@[simp] theorem State.updInst_out (s : State) (p : Nat) (f : PtpInst → PtpInst) : (s.updInst p f).out = s.out := rfl
@[simp] theorem State.updInst_up (s : State) (p : Nat) (f : PtpInst → PtpInst) : (s.updInst p f).up = s.up := rfl
@[simp] theorem State.updInst_free (s : State) (p : Nat) (f : PtpInst → PtpInst) : (s.updInst p f).free = s.free := rfl
@[simp] theorem State.updInst_pending (s : State) (p : Nat) (f : PtpInst → PtpInst) : (s.updInst p f).pending = s.pending := rfl

/-! ### State.updCas -/

@[simp] theorem State.updCas_tenants (s : State) (f : Cascade → Cascade) : (s.updCas f).tenants = s.tenants := rfl
@[simp] theorem State.updCas_views (s : State) (f : Cascade → Cascade) : (s.updCas f).views = s.views := rfl
@[simp] theorem State.updCas_svcOwner (s : State) (f : Cascade → Cascade) : (s.updCas f).svcOwner = s.svcOwner := rfl
@[simp] theorem State.updCas_svcRights (s : State) (f : Cascade → Cascade) : (s.updCas f).svcRights = s.svcRights := rfl
@[simp] theorem State.updCas_jobs (s : State) (f : Cascade → Cascade) : (s.updCas f).jobs = s.jobs := rfl
@[simp] theorem State.updCas_loft (s : State) (f : Cascade → Cascade) : (s.updCas f).loft = s.loft := rfl
@[simp] theorem State.updCas_rings (s : State) (f : Cascade → Cascade) : (s.updCas f).rings = s.rings := rfl
@[simp] theorem State.updCas_subs (s : State) (f : Cascade → Cascade) : (s.updCas f).subs = s.subs := rfl
@[simp] theorem State.updCas_spiMalformed (s : State) (f : Cascade → Cascade) : (s.updCas f).spiMalformed = s.spiMalformed := rfl
@[simp] theorem State.updCas_recorder (s : State) (f : Cascade → Cascade) : (s.updCas f).recorder = s.recorder := rfl
@[simp] theorem State.updCas_boot (s : State) (f : Cascade → Cascade) : (s.updCas f).boot = s.boot := rfl
@[simp] theorem State.updCas_supply (s : State) (f : Cascade → Cascade) : (s.updCas f).supply = s.supply := rfl
@[simp] theorem State.updCas_timebase (s : State) (f : Cascade → Cascade) : (s.updCas f).timebase = s.timebase := rfl
@[simp] theorem State.updCas_spars (s : State) (f : Cascade → Cascade) : (s.updCas f).spars = s.spars := rfl
@[simp] theorem State.updCas_net (s : State) (f : Cascade → Cascade) : (s.updCas f).net = s.net := rfl
@[simp] theorem State.updCas_motor (s : State) (f : Cascade → Cascade) : (s.updCas f).motor = s.motor := rfl
@[simp] theorem State.updCas_channel (s : State) (f : Cascade → Cascade) : (s.updCas f).channel = s.channel := rfl
@[simp] theorem State.updCas_diskq (s : State) (f : Cascade → Cascade) : (s.updCas f).diskq = s.diskq := rfl
@[simp] theorem State.updCas_radio (s : State) (f : Cascade → Cascade) : (s.updCas f).radio = s.radio := rfl
@[simp] theorem State.updCas_keys (s : State) (f : Cascade → Cascade) : (s.updCas f).keys = s.keys := rfl
@[simp] theorem State.updCas_cascade (s : State) (f : Cascade → Cascade) : (s.updCas f).cascade = f s.cascade := rfl
@[simp] theorem State.updCas_out (s : State) (f : Cascade → Cascade) : (s.updCas f).out = s.out := rfl
@[simp] theorem State.updCas_up (s : State) (f : Cascade → Cascade) : (s.updCas f).up = s.up := rfl
@[simp] theorem State.updCas_free (s : State) (f : Cascade → Cascade) : (s.updCas f).free = s.free := rfl
@[simp] theorem State.updCas_pending (s : State) (f : Cascade → Cascade) : (s.updCas f).pending = s.pending := rfl

/-! ### State.updLane -/

@[simp] theorem State.updLane_tenants (s : State) (l : Nat) (f : Lane → Lane) : (s.updLane l f).tenants = s.tenants := rfl
@[simp] theorem State.updLane_views (s : State) (l : Nat) (f : Lane → Lane) : (s.updLane l f).views = s.views := rfl
@[simp] theorem State.updLane_svcOwner (s : State) (l : Nat) (f : Lane → Lane) : (s.updLane l f).svcOwner = s.svcOwner := rfl
@[simp] theorem State.updLane_svcRights (s : State) (l : Nat) (f : Lane → Lane) : (s.updLane l f).svcRights = s.svcRights := rfl
@[simp] theorem State.updLane_jobs (s : State) (l : Nat) (f : Lane → Lane) : (s.updLane l f).jobs = s.jobs := rfl
@[simp] theorem State.updLane_loft (s : State) (l : Nat) (f : Lane → Lane) : (s.updLane l f).loft = s.loft := rfl
@[simp] theorem State.updLane_rings (s : State) (l : Nat) (f : Lane → Lane) : (s.updLane l f).rings = s.rings := rfl
@[simp] theorem State.updLane_subs (s : State) (l : Nat) (f : Lane → Lane) : (s.updLane l f).subs = s.subs := rfl
@[simp] theorem State.updLane_spiMalformed (s : State) (l : Nat) (f : Lane → Lane) : (s.updLane l f).spiMalformed = s.spiMalformed := rfl
@[simp] theorem State.updLane_recorder (s : State) (l : Nat) (f : Lane → Lane) : (s.updLane l f).recorder = s.recorder := rfl
@[simp] theorem State.updLane_boot (s : State) (l : Nat) (f : Lane → Lane) : (s.updLane l f).boot = s.boot := rfl
@[simp] theorem State.updLane_supply (s : State) (l : Nat) (f : Lane → Lane) : (s.updLane l f).supply = s.supply := rfl
@[simp] theorem State.updLane_timebase (s : State) (l : Nat) (f : Lane → Lane) : (s.updLane l f).timebase = s.timebase := rfl
@[simp] theorem State.updLane_spars (s : State) (l : Nat) (f : Lane → Lane) : (s.updLane l f).spars = s.spars := rfl
@[simp] theorem State.updLane_net (s : State) (l : Nat) (f : Lane → Lane) : (s.updLane l f).net = s.net := rfl
@[simp] theorem State.updLane_motor (s : State) (l : Nat) (f : Lane → Lane) : (s.updLane l f).motor = s.motor := rfl
@[simp] theorem State.updLane_channel (s : State) (l : Nat) (f : Lane → Lane) : (s.updLane l f).channel = s.channel := rfl
@[simp] theorem State.updLane_diskq (s : State) (l : Nat) (f : Lane → Lane) : (s.updLane l f).diskq = s.diskq := rfl
@[simp] theorem State.updLane_radio (s : State) (l : Nat) (f : Lane → Lane) : (s.updLane l f).radio = s.radio := rfl
@[simp] theorem State.updLane_keys (s : State) (l : Nat) (f : Lane → Lane) : (s.updLane l f).keys = s.keys := rfl
@[simp] theorem State.updLane_cascade (s : State) (l : Nat) (f : Lane → Lane) : (s.updLane l f).cascade = { s.cascade with lane := upd s.cascade.lane l f } := rfl
@[simp] theorem State.updLane_out (s : State) (l : Nat) (f : Lane → Lane) : (s.updLane l f).out = s.out := rfl
@[simp] theorem State.updLane_up (s : State) (l : Nat) (f : Lane → Lane) : (s.updLane l f).up = s.up := rfl
@[simp] theorem State.updLane_free (s : State) (l : Nat) (f : Lane → Lane) : (s.updLane l f).free = s.free := rfl
@[simp] theorem State.updLane_pending (s : State) (l : Nat) (f : Lane → Lane) : (s.updLane l f).pending = s.pending := rfl

/-! ### State.updRad -/

@[simp] theorem State.updRad_tenants (s : State) (f : Radio → Radio) : (s.updRad f).tenants = s.tenants := rfl
@[simp] theorem State.updRad_views (s : State) (f : Radio → Radio) : (s.updRad f).views = s.views := rfl
@[simp] theorem State.updRad_svcOwner (s : State) (f : Radio → Radio) : (s.updRad f).svcOwner = s.svcOwner := rfl
@[simp] theorem State.updRad_svcRights (s : State) (f : Radio → Radio) : (s.updRad f).svcRights = s.svcRights := rfl
@[simp] theorem State.updRad_jobs (s : State) (f : Radio → Radio) : (s.updRad f).jobs = s.jobs := rfl
@[simp] theorem State.updRad_loft (s : State) (f : Radio → Radio) : (s.updRad f).loft = s.loft := rfl
@[simp] theorem State.updRad_rings (s : State) (f : Radio → Radio) : (s.updRad f).rings = s.rings := rfl
@[simp] theorem State.updRad_subs (s : State) (f : Radio → Radio) : (s.updRad f).subs = s.subs := rfl
@[simp] theorem State.updRad_spiMalformed (s : State) (f : Radio → Radio) : (s.updRad f).spiMalformed = s.spiMalformed := rfl
@[simp] theorem State.updRad_recorder (s : State) (f : Radio → Radio) : (s.updRad f).recorder = s.recorder := rfl
@[simp] theorem State.updRad_boot (s : State) (f : Radio → Radio) : (s.updRad f).boot = s.boot := rfl
@[simp] theorem State.updRad_supply (s : State) (f : Radio → Radio) : (s.updRad f).supply = s.supply := rfl
@[simp] theorem State.updRad_timebase (s : State) (f : Radio → Radio) : (s.updRad f).timebase = s.timebase := rfl
@[simp] theorem State.updRad_spars (s : State) (f : Radio → Radio) : (s.updRad f).spars = s.spars := rfl
@[simp] theorem State.updRad_net (s : State) (f : Radio → Radio) : (s.updRad f).net = s.net := rfl
@[simp] theorem State.updRad_motor (s : State) (f : Radio → Radio) : (s.updRad f).motor = s.motor := rfl
@[simp] theorem State.updRad_channel (s : State) (f : Radio → Radio) : (s.updRad f).channel = s.channel := rfl
@[simp] theorem State.updRad_diskq (s : State) (f : Radio → Radio) : (s.updRad f).diskq = s.diskq := rfl
@[simp] theorem State.updRad_radio (s : State) (f : Radio → Radio) : (s.updRad f).radio = f s.radio := rfl
@[simp] theorem State.updRad_keys (s : State) (f : Radio → Radio) : (s.updRad f).keys = s.keys := rfl
@[simp] theorem State.updRad_cascade (s : State) (f : Radio → Radio) : (s.updRad f).cascade = s.cascade := rfl
@[simp] theorem State.updRad_out (s : State) (f : Radio → Radio) : (s.updRad f).out = s.out := rfl
@[simp] theorem State.updRad_up (s : State) (f : Radio → Radio) : (s.updRad f).up = s.up := rfl
@[simp] theorem State.updRad_free (s : State) (f : Radio → Radio) : (s.updRad f).free = s.free := rfl
@[simp] theorem State.updRad_pending (s : State) (f : Radio → Radio) : (s.updRad f).pending = s.pending := rfl

/-! ### State.updBand -/

@[simp] theorem State.updBand_tenants (s : State) (b : Nat) (f : Band → Band) : (s.updBand b f).tenants = s.tenants := rfl
@[simp] theorem State.updBand_views (s : State) (b : Nat) (f : Band → Band) : (s.updBand b f).views = s.views := rfl
@[simp] theorem State.updBand_svcOwner (s : State) (b : Nat) (f : Band → Band) : (s.updBand b f).svcOwner = s.svcOwner := rfl
@[simp] theorem State.updBand_svcRights (s : State) (b : Nat) (f : Band → Band) : (s.updBand b f).svcRights = s.svcRights := rfl
@[simp] theorem State.updBand_jobs (s : State) (b : Nat) (f : Band → Band) : (s.updBand b f).jobs = s.jobs := rfl
@[simp] theorem State.updBand_loft (s : State) (b : Nat) (f : Band → Band) : (s.updBand b f).loft = s.loft := rfl
@[simp] theorem State.updBand_rings (s : State) (b : Nat) (f : Band → Band) : (s.updBand b f).rings = s.rings := rfl
@[simp] theorem State.updBand_subs (s : State) (b : Nat) (f : Band → Band) : (s.updBand b f).subs = s.subs := rfl
@[simp] theorem State.updBand_spiMalformed (s : State) (b : Nat) (f : Band → Band) : (s.updBand b f).spiMalformed = s.spiMalformed := rfl
@[simp] theorem State.updBand_recorder (s : State) (b : Nat) (f : Band → Band) : (s.updBand b f).recorder = s.recorder := rfl
@[simp] theorem State.updBand_boot (s : State) (b : Nat) (f : Band → Band) : (s.updBand b f).boot = s.boot := rfl
@[simp] theorem State.updBand_supply (s : State) (b : Nat) (f : Band → Band) : (s.updBand b f).supply = s.supply := rfl
@[simp] theorem State.updBand_timebase (s : State) (b : Nat) (f : Band → Band) : (s.updBand b f).timebase = s.timebase := rfl
@[simp] theorem State.updBand_spars (s : State) (b : Nat) (f : Band → Band) : (s.updBand b f).spars = s.spars := rfl
@[simp] theorem State.updBand_net (s : State) (b : Nat) (f : Band → Band) : (s.updBand b f).net = s.net := rfl
@[simp] theorem State.updBand_motor (s : State) (b : Nat) (f : Band → Band) : (s.updBand b f).motor = s.motor := rfl
@[simp] theorem State.updBand_channel (s : State) (b : Nat) (f : Band → Band) : (s.updBand b f).channel = s.channel := rfl
@[simp] theorem State.updBand_diskq (s : State) (b : Nat) (f : Band → Band) : (s.updBand b f).diskq = s.diskq := rfl
@[simp] theorem State.updBand_radio (s : State) (b : Nat) (f : Band → Band) : (s.updBand b f).radio = { s.radio with band := upd s.radio.band b f } := rfl
@[simp] theorem State.updBand_keys (s : State) (b : Nat) (f : Band → Band) : (s.updBand b f).keys = s.keys := rfl
@[simp] theorem State.updBand_cascade (s : State) (b : Nat) (f : Band → Band) : (s.updBand b f).cascade = s.cascade := rfl
@[simp] theorem State.updBand_out (s : State) (b : Nat) (f : Band → Band) : (s.updBand b f).out = s.out := rfl
@[simp] theorem State.updBand_up (s : State) (b : Nat) (f : Band → Band) : (s.updBand b f).up = s.up := rfl
@[simp] theorem State.updBand_free (s : State) (b : Nat) (f : Band → Band) : (s.updBand b f).free = s.free := rfl
@[simp] theorem State.updBand_pending (s : State) (b : Nat) (f : Band → Band) : (s.updBand b f).pending = s.pending := rfl

/-! ### State.updKeys -/

@[simp] theorem State.updKeys_tenants (s : State) (f : Keys → Keys) : (s.updKeys f).tenants = s.tenants := rfl
@[simp] theorem State.updKeys_views (s : State) (f : Keys → Keys) : (s.updKeys f).views = s.views := rfl
@[simp] theorem State.updKeys_svcOwner (s : State) (f : Keys → Keys) : (s.updKeys f).svcOwner = s.svcOwner := rfl
@[simp] theorem State.updKeys_svcRights (s : State) (f : Keys → Keys) : (s.updKeys f).svcRights = s.svcRights := rfl
@[simp] theorem State.updKeys_jobs (s : State) (f : Keys → Keys) : (s.updKeys f).jobs = s.jobs := rfl
@[simp] theorem State.updKeys_loft (s : State) (f : Keys → Keys) : (s.updKeys f).loft = s.loft := rfl
@[simp] theorem State.updKeys_rings (s : State) (f : Keys → Keys) : (s.updKeys f).rings = s.rings := rfl
@[simp] theorem State.updKeys_subs (s : State) (f : Keys → Keys) : (s.updKeys f).subs = s.subs := rfl
@[simp] theorem State.updKeys_spiMalformed (s : State) (f : Keys → Keys) : (s.updKeys f).spiMalformed = s.spiMalformed := rfl
@[simp] theorem State.updKeys_recorder (s : State) (f : Keys → Keys) : (s.updKeys f).recorder = s.recorder := rfl
@[simp] theorem State.updKeys_boot (s : State) (f : Keys → Keys) : (s.updKeys f).boot = s.boot := rfl
@[simp] theorem State.updKeys_supply (s : State) (f : Keys → Keys) : (s.updKeys f).supply = s.supply := rfl
@[simp] theorem State.updKeys_timebase (s : State) (f : Keys → Keys) : (s.updKeys f).timebase = s.timebase := rfl
@[simp] theorem State.updKeys_spars (s : State) (f : Keys → Keys) : (s.updKeys f).spars = s.spars := rfl
@[simp] theorem State.updKeys_net (s : State) (f : Keys → Keys) : (s.updKeys f).net = s.net := rfl
@[simp] theorem State.updKeys_motor (s : State) (f : Keys → Keys) : (s.updKeys f).motor = s.motor := rfl
@[simp] theorem State.updKeys_channel (s : State) (f : Keys → Keys) : (s.updKeys f).channel = s.channel := rfl
@[simp] theorem State.updKeys_diskq (s : State) (f : Keys → Keys) : (s.updKeys f).diskq = s.diskq := rfl
@[simp] theorem State.updKeys_radio (s : State) (f : Keys → Keys) : (s.updKeys f).radio = s.radio := rfl
@[simp] theorem State.updKeys_keys (s : State) (f : Keys → Keys) : (s.updKeys f).keys = f s.keys := rfl
@[simp] theorem State.updKeys_cascade (s : State) (f : Keys → Keys) : (s.updKeys f).cascade = s.cascade := rfl
@[simp] theorem State.updKeys_out (s : State) (f : Keys → Keys) : (s.updKeys f).out = s.out := rfl
@[simp] theorem State.updKeys_up (s : State) (f : Keys → Keys) : (s.updKeys f).up = s.up := rfl
@[simp] theorem State.updKeys_free (s : State) (f : Keys → Keys) : (s.updKeys f).free = s.free := rfl
@[simp] theorem State.updKeys_pending (s : State) (f : Keys → Keys) : (s.updKeys f).pending = s.pending := rfl

/-! ### State.updKey -/

@[simp] theorem State.updKey_tenants (s : State) (i : Nat) (f : KeySlot → KeySlot) : (s.updKey i f).tenants = s.tenants := rfl
@[simp] theorem State.updKey_views (s : State) (i : Nat) (f : KeySlot → KeySlot) : (s.updKey i f).views = s.views := rfl
@[simp] theorem State.updKey_svcOwner (s : State) (i : Nat) (f : KeySlot → KeySlot) : (s.updKey i f).svcOwner = s.svcOwner := rfl
@[simp] theorem State.updKey_svcRights (s : State) (i : Nat) (f : KeySlot → KeySlot) : (s.updKey i f).svcRights = s.svcRights := rfl
@[simp] theorem State.updKey_jobs (s : State) (i : Nat) (f : KeySlot → KeySlot) : (s.updKey i f).jobs = s.jobs := rfl
@[simp] theorem State.updKey_loft (s : State) (i : Nat) (f : KeySlot → KeySlot) : (s.updKey i f).loft = s.loft := rfl
@[simp] theorem State.updKey_rings (s : State) (i : Nat) (f : KeySlot → KeySlot) : (s.updKey i f).rings = s.rings := rfl
@[simp] theorem State.updKey_subs (s : State) (i : Nat) (f : KeySlot → KeySlot) : (s.updKey i f).subs = s.subs := rfl
@[simp] theorem State.updKey_spiMalformed (s : State) (i : Nat) (f : KeySlot → KeySlot) : (s.updKey i f).spiMalformed = s.spiMalformed := rfl
@[simp] theorem State.updKey_recorder (s : State) (i : Nat) (f : KeySlot → KeySlot) : (s.updKey i f).recorder = s.recorder := rfl
@[simp] theorem State.updKey_boot (s : State) (i : Nat) (f : KeySlot → KeySlot) : (s.updKey i f).boot = s.boot := rfl
@[simp] theorem State.updKey_supply (s : State) (i : Nat) (f : KeySlot → KeySlot) : (s.updKey i f).supply = s.supply := rfl
@[simp] theorem State.updKey_timebase (s : State) (i : Nat) (f : KeySlot → KeySlot) : (s.updKey i f).timebase = s.timebase := rfl
@[simp] theorem State.updKey_spars (s : State) (i : Nat) (f : KeySlot → KeySlot) : (s.updKey i f).spars = s.spars := rfl
@[simp] theorem State.updKey_net (s : State) (i : Nat) (f : KeySlot → KeySlot) : (s.updKey i f).net = s.net := rfl
@[simp] theorem State.updKey_motor (s : State) (i : Nat) (f : KeySlot → KeySlot) : (s.updKey i f).motor = s.motor := rfl
@[simp] theorem State.updKey_channel (s : State) (i : Nat) (f : KeySlot → KeySlot) : (s.updKey i f).channel = s.channel := rfl
@[simp] theorem State.updKey_diskq (s : State) (i : Nat) (f : KeySlot → KeySlot) : (s.updKey i f).diskq = s.diskq := rfl
@[simp] theorem State.updKey_radio (s : State) (i : Nat) (f : KeySlot → KeySlot) : (s.updKey i f).radio = s.radio := rfl
@[simp] theorem State.updKey_keys (s : State) (i : Nat) (f : KeySlot → KeySlot) : (s.updKey i f).keys = { s.keys with slot := upd s.keys.slot i f } := rfl
@[simp] theorem State.updKey_cascade (s : State) (i : Nat) (f : KeySlot → KeySlot) : (s.updKey i f).cascade = s.cascade := rfl
@[simp] theorem State.updKey_out (s : State) (i : Nat) (f : KeySlot → KeySlot) : (s.updKey i f).out = s.out := rfl
@[simp] theorem State.updKey_up (s : State) (i : Nat) (f : KeySlot → KeySlot) : (s.updKey i f).up = s.up := rfl
@[simp] theorem State.updKey_free (s : State) (i : Nat) (f : KeySlot → KeySlot) : (s.updKey i f).free = s.free := rfl
@[simp] theorem State.updKey_pending (s : State) (i : Nat) (f : KeySlot → KeySlot) : (s.updKey i f).pending = s.pending := rfl

/-! ### State.updSpar -/

@[simp] theorem State.updSpar_tenants (s : State) (i : Nat) (f : Spar → Spar) : (s.updSpar i f).tenants = s.tenants := rfl
@[simp] theorem State.updSpar_views (s : State) (i : Nat) (f : Spar → Spar) : (s.updSpar i f).views = s.views := rfl
@[simp] theorem State.updSpar_svcOwner (s : State) (i : Nat) (f : Spar → Spar) : (s.updSpar i f).svcOwner = s.svcOwner := rfl
@[simp] theorem State.updSpar_svcRights (s : State) (i : Nat) (f : Spar → Spar) : (s.updSpar i f).svcRights = s.svcRights := rfl
@[simp] theorem State.updSpar_jobs (s : State) (i : Nat) (f : Spar → Spar) : (s.updSpar i f).jobs = s.jobs := rfl
@[simp] theorem State.updSpar_loft (s : State) (i : Nat) (f : Spar → Spar) : (s.updSpar i f).loft = s.loft := rfl
@[simp] theorem State.updSpar_rings (s : State) (i : Nat) (f : Spar → Spar) : (s.updSpar i f).rings = s.rings := rfl
@[simp] theorem State.updSpar_subs (s : State) (i : Nat) (f : Spar → Spar) : (s.updSpar i f).subs = s.subs := rfl
@[simp] theorem State.updSpar_spiMalformed (s : State) (i : Nat) (f : Spar → Spar) : (s.updSpar i f).spiMalformed = s.spiMalformed := rfl
@[simp] theorem State.updSpar_recorder (s : State) (i : Nat) (f : Spar → Spar) : (s.updSpar i f).recorder = s.recorder := rfl
@[simp] theorem State.updSpar_boot (s : State) (i : Nat) (f : Spar → Spar) : (s.updSpar i f).boot = s.boot := rfl
@[simp] theorem State.updSpar_supply (s : State) (i : Nat) (f : Spar → Spar) : (s.updSpar i f).supply = s.supply := rfl
@[simp] theorem State.updSpar_timebase (s : State) (i : Nat) (f : Spar → Spar) : (s.updSpar i f).timebase = s.timebase := rfl
@[simp] theorem State.updSpar_spars (s : State) (i : Nat) (f : Spar → Spar) : (s.updSpar i f).spars = upd s.spars i f := rfl
@[simp] theorem State.updSpar_net (s : State) (i : Nat) (f : Spar → Spar) : (s.updSpar i f).net = s.net := rfl
@[simp] theorem State.updSpar_motor (s : State) (i : Nat) (f : Spar → Spar) : (s.updSpar i f).motor = s.motor := rfl
@[simp] theorem State.updSpar_channel (s : State) (i : Nat) (f : Spar → Spar) : (s.updSpar i f).channel = s.channel := rfl
@[simp] theorem State.updSpar_diskq (s : State) (i : Nat) (f : Spar → Spar) : (s.updSpar i f).diskq = s.diskq := rfl
@[simp] theorem State.updSpar_radio (s : State) (i : Nat) (f : Spar → Spar) : (s.updSpar i f).radio = s.radio := rfl
@[simp] theorem State.updSpar_keys (s : State) (i : Nat) (f : Spar → Spar) : (s.updSpar i f).keys = s.keys := rfl
@[simp] theorem State.updSpar_cascade (s : State) (i : Nat) (f : Spar → Spar) : (s.updSpar i f).cascade = s.cascade := rfl
@[simp] theorem State.updSpar_out (s : State) (i : Nat) (f : Spar → Spar) : (s.updSpar i f).out = s.out := rfl
@[simp] theorem State.updSpar_up (s : State) (i : Nat) (f : Spar → Spar) : (s.updSpar i f).up = s.up := rfl
@[simp] theorem State.updSpar_free (s : State) (i : Nat) (f : Spar → Spar) : (s.updSpar i f).free = s.free := rfl
@[simp] theorem State.updSpar_pending (s : State) (i : Nat) (f : Spar → Spar) : (s.updSpar i f).pending = s.pending := rfl

end Sys2Proof.Machine
end

