-- ==== Sys2Proof/Laws/Ops.lean ====
section
/-!
SUPPORT. What the shared operations of every family leave unchanged: an interrupt raise (R238), a breadcrumb record
(R826, R827), a response (R193).
-/
namespace Sys2Proof.Machine

/-- What every step of a fold keeps, the fold keeps. -/
theorem foldl_keep {α β γ : Type} (p : β → γ) (f : β → α → β) (h : ∀ a b, p (f b a) = p b) (l : List α) (b : β) :
    p (l.foldl f b) = p b := by
  induction l generalizing b with
  | nil => rfl
  | cons a l ih => simp [ih, h]

/-- A property that every step of a fold keeps, the fold keeps. -/
theorem foldl_ok {α β : Type} (p : β → Prop) (f : β → α → β) (h : ∀ a b, p b → p (f b a)) (l : List α) (b : β)
    (hb : p b) : p (l.foldl f b) := by
  induction l generalizing b with
  | nil => exact hb
  | cons a l ih => exact ih _ (h a b hb)

/-! ### goPending -/

@[simp] theorem goPending_tenants (t src : Nat) (s : State) : (goPending t src s).tenants = s.tenants := by
  unfold goPending; dsimp only; repeat' split
  all_goals simp
@[simp] theorem goPending_svcOwner (t src : Nat) (s : State) : (goPending t src s).svcOwner = s.svcOwner := by
  unfold goPending; dsimp only; repeat' split
  all_goals simp
@[simp] theorem goPending_svcRights (t src : Nat) (s : State) : (goPending t src s).svcRights = s.svcRights := by
  unfold goPending; dsimp only; repeat' split
  all_goals simp
@[simp] theorem goPending_jobs (t src : Nat) (s : State) : (goPending t src s).jobs = s.jobs := by
  unfold goPending; dsimp only; repeat' split
  all_goals simp
@[simp] theorem goPending_loft (t src : Nat) (s : State) : (goPending t src s).loft = s.loft := by
  unfold goPending; dsimp only; repeat' split
  all_goals simp
@[simp] theorem goPending_rings (t src : Nat) (s : State) : (goPending t src s).rings = s.rings := by
  unfold goPending; dsimp only; repeat' split
  all_goals simp
@[simp] theorem goPending_subs (t src : Nat) (s : State) : (goPending t src s).subs = s.subs := by
  unfold goPending; dsimp only; repeat' split
  all_goals simp
@[simp] theorem goPending_spiMalformed (t src : Nat) (s : State) : (goPending t src s).spiMalformed = s.spiMalformed := by
  unfold goPending; dsimp only; repeat' split
  all_goals simp
@[simp] theorem goPending_recorder (t src : Nat) (s : State) : (goPending t src s).recorder = s.recorder := by
  unfold goPending; dsimp only; repeat' split
  all_goals simp
@[simp] theorem goPending_boot (t src : Nat) (s : State) : (goPending t src s).boot = s.boot := by
  unfold goPending; dsimp only; repeat' split
  all_goals simp
@[simp] theorem goPending_supply (t src : Nat) (s : State) : (goPending t src s).supply = s.supply := by
  unfold goPending; dsimp only; repeat' split
  all_goals simp
@[simp] theorem goPending_timebase (t src : Nat) (s : State) : (goPending t src s).timebase = s.timebase := by
  unfold goPending; dsimp only; repeat' split
  all_goals simp
@[simp] theorem goPending_spars (t src : Nat) (s : State) : (goPending t src s).spars = s.spars := by
  unfold goPending; dsimp only; repeat' split
  all_goals simp
@[simp] theorem goPending_net (t src : Nat) (s : State) : (goPending t src s).net = s.net := by
  unfold goPending; dsimp only; repeat' split
  all_goals simp
@[simp] theorem goPending_motor (t src : Nat) (s : State) : (goPending t src s).motor = s.motor := by
  unfold goPending; dsimp only; repeat' split
  all_goals simp
@[simp] theorem goPending_channel (t src : Nat) (s : State) : (goPending t src s).channel = s.channel := by
  unfold goPending; dsimp only; repeat' split
  all_goals simp
@[simp] theorem goPending_diskq (t src : Nat) (s : State) : (goPending t src s).diskq = s.diskq := by
  unfold goPending; dsimp only; repeat' split
  all_goals simp
@[simp] theorem goPending_radio (t src : Nat) (s : State) : (goPending t src s).radio = s.radio := by
  unfold goPending; dsimp only; repeat' split
  all_goals simp
@[simp] theorem goPending_keys (t src : Nat) (s : State) : (goPending t src s).keys = s.keys := by
  unfold goPending; dsimp only; repeat' split
  all_goals simp
@[simp] theorem goPending_cascade (t src : Nat) (s : State) : (goPending t src s).cascade = s.cascade := by
  unfold goPending; dsimp only; repeat' split
  all_goals simp
@[simp] theorem goPending_up (t src : Nat) (s : State) : (goPending t src s).up = s.up := by
  unfold goPending; dsimp only; repeat' split
  all_goals simp
@[simp] theorem goPending_free (t src : Nat) (s : State) : (goPending t src s).free = s.free := by
  unfold goPending; dsimp only; repeat' split
  all_goals simp
@[simp] theorem goPending_pending (t src : Nat) (s : State) : (goPending t src s).pending = s.pending := by
  unfold goPending; dsimp only; repeat' split
  all_goals simp

/-! ### raiseView -/

@[simp] theorem raiseView_tenants (t src : Nat) (s : State) : (raiseView t src s).tenants = s.tenants := by
  unfold raiseView; dsimp only; split <;> simp
@[simp] theorem raiseView_svcOwner (t src : Nat) (s : State) : (raiseView t src s).svcOwner = s.svcOwner := by
  unfold raiseView; dsimp only; split <;> simp
@[simp] theorem raiseView_svcRights (t src : Nat) (s : State) : (raiseView t src s).svcRights = s.svcRights := by
  unfold raiseView; dsimp only; split <;> simp
@[simp] theorem raiseView_jobs (t src : Nat) (s : State) : (raiseView t src s).jobs = s.jobs := by
  unfold raiseView; dsimp only; split <;> simp
@[simp] theorem raiseView_loft (t src : Nat) (s : State) : (raiseView t src s).loft = s.loft := by
  unfold raiseView; dsimp only; split <;> simp
@[simp] theorem raiseView_rings (t src : Nat) (s : State) : (raiseView t src s).rings = s.rings := by
  unfold raiseView; dsimp only; split <;> simp
@[simp] theorem raiseView_subs (t src : Nat) (s : State) : (raiseView t src s).subs = s.subs := by
  unfold raiseView; dsimp only; split <;> simp
@[simp] theorem raiseView_spiMalformed (t src : Nat) (s : State) : (raiseView t src s).spiMalformed = s.spiMalformed := by
  unfold raiseView; dsimp only; split <;> simp
@[simp] theorem raiseView_recorder (t src : Nat) (s : State) : (raiseView t src s).recorder = s.recorder := by
  unfold raiseView; dsimp only; split <;> simp
@[simp] theorem raiseView_boot (t src : Nat) (s : State) : (raiseView t src s).boot = s.boot := by
  unfold raiseView; dsimp only; split <;> simp
@[simp] theorem raiseView_supply (t src : Nat) (s : State) : (raiseView t src s).supply = s.supply := by
  unfold raiseView; dsimp only; split <;> simp
@[simp] theorem raiseView_timebase (t src : Nat) (s : State) : (raiseView t src s).timebase = s.timebase := by
  unfold raiseView; dsimp only; split <;> simp
@[simp] theorem raiseView_spars (t src : Nat) (s : State) : (raiseView t src s).spars = s.spars := by
  unfold raiseView; dsimp only; split <;> simp
@[simp] theorem raiseView_net (t src : Nat) (s : State) : (raiseView t src s).net = s.net := by
  unfold raiseView; dsimp only; split <;> simp
@[simp] theorem raiseView_motor (t src : Nat) (s : State) : (raiseView t src s).motor = s.motor := by
  unfold raiseView; dsimp only; split <;> simp
@[simp] theorem raiseView_channel (t src : Nat) (s : State) : (raiseView t src s).channel = s.channel := by
  unfold raiseView; dsimp only; split <;> simp
@[simp] theorem raiseView_diskq (t src : Nat) (s : State) : (raiseView t src s).diskq = s.diskq := by
  unfold raiseView; dsimp only; split <;> simp
@[simp] theorem raiseView_radio (t src : Nat) (s : State) : (raiseView t src s).radio = s.radio := by
  unfold raiseView; dsimp only; split <;> simp
@[simp] theorem raiseView_keys (t src : Nat) (s : State) : (raiseView t src s).keys = s.keys := by
  unfold raiseView; dsimp only; split <;> simp
@[simp] theorem raiseView_cascade (t src : Nat) (s : State) : (raiseView t src s).cascade = s.cascade := by
  unfold raiseView; dsimp only; split <;> simp
@[simp] theorem raiseView_up (t src : Nat) (s : State) : (raiseView t src s).up = s.up := by
  unfold raiseView; dsimp only; split <;> simp
@[simp] theorem raiseView_free (t src : Nat) (s : State) : (raiseView t src s).free = s.free := by
  unfold raiseView; dsimp only; split <;> simp
@[simp] theorem raiseView_pending (t src : Nat) (s : State) : (raiseView t src s).pending = s.pending := by
  unfold raiseView; dsimp only; split <;> simp

/-! ### raiseSrc -/

@[simp] theorem raiseSrc_tenants (src : Nat) (s : State) : (raiseSrc src s).tenants = s.tenants := by
  unfold raiseSrc; split
  · rfl
  · exact foldl_keep (fun s => s.tenants) _ (fun t s => raiseView_tenants t src s) _ s
@[simp] theorem raiseSrc_svcOwner (src : Nat) (s : State) : (raiseSrc src s).svcOwner = s.svcOwner := by
  unfold raiseSrc; split
  · rfl
  · exact foldl_keep (fun s => s.svcOwner) _ (fun t s => raiseView_svcOwner t src s) _ s
@[simp] theorem raiseSrc_svcRights (src : Nat) (s : State) : (raiseSrc src s).svcRights = s.svcRights := by
  unfold raiseSrc; split
  · rfl
  · exact foldl_keep (fun s => s.svcRights) _ (fun t s => raiseView_svcRights t src s) _ s
@[simp] theorem raiseSrc_jobs (src : Nat) (s : State) : (raiseSrc src s).jobs = s.jobs := by
  unfold raiseSrc; split
  · rfl
  · exact foldl_keep (fun s => s.jobs) _ (fun t s => raiseView_jobs t src s) _ s
@[simp] theorem raiseSrc_loft (src : Nat) (s : State) : (raiseSrc src s).loft = s.loft := by
  unfold raiseSrc; split
  · rfl
  · exact foldl_keep (fun s => s.loft) _ (fun t s => raiseView_loft t src s) _ s
@[simp] theorem raiseSrc_rings (src : Nat) (s : State) : (raiseSrc src s).rings = s.rings := by
  unfold raiseSrc; split
  · rfl
  · exact foldl_keep (fun s => s.rings) _ (fun t s => raiseView_rings t src s) _ s
@[simp] theorem raiseSrc_subs (src : Nat) (s : State) : (raiseSrc src s).subs = s.subs := by
  unfold raiseSrc; split
  · rfl
  · exact foldl_keep (fun s => s.subs) _ (fun t s => raiseView_subs t src s) _ s
@[simp] theorem raiseSrc_spiMalformed (src : Nat) (s : State) : (raiseSrc src s).spiMalformed = s.spiMalformed := by
  unfold raiseSrc; split
  · rfl
  · exact foldl_keep (fun s => s.spiMalformed) _ (fun t s => raiseView_spiMalformed t src s) _ s
@[simp] theorem raiseSrc_recorder (src : Nat) (s : State) : (raiseSrc src s).recorder = s.recorder := by
  unfold raiseSrc; split
  · rfl
  · exact foldl_keep (fun s => s.recorder) _ (fun t s => raiseView_recorder t src s) _ s
@[simp] theorem raiseSrc_boot (src : Nat) (s : State) : (raiseSrc src s).boot = s.boot := by
  unfold raiseSrc; split
  · rfl
  · exact foldl_keep (fun s => s.boot) _ (fun t s => raiseView_boot t src s) _ s
@[simp] theorem raiseSrc_supply (src : Nat) (s : State) : (raiseSrc src s).supply = s.supply := by
  unfold raiseSrc; split
  · rfl
  · exact foldl_keep (fun s => s.supply) _ (fun t s => raiseView_supply t src s) _ s
@[simp] theorem raiseSrc_timebase (src : Nat) (s : State) : (raiseSrc src s).timebase = s.timebase := by
  unfold raiseSrc; split
  · rfl
  · exact foldl_keep (fun s => s.timebase) _ (fun t s => raiseView_timebase t src s) _ s
@[simp] theorem raiseSrc_spars (src : Nat) (s : State) : (raiseSrc src s).spars = s.spars := by
  unfold raiseSrc; split
  · rfl
  · exact foldl_keep (fun s => s.spars) _ (fun t s => raiseView_spars t src s) _ s
@[simp] theorem raiseSrc_net (src : Nat) (s : State) : (raiseSrc src s).net = s.net := by
  unfold raiseSrc; split
  · rfl
  · exact foldl_keep (fun s => s.net) _ (fun t s => raiseView_net t src s) _ s
@[simp] theorem raiseSrc_motor (src : Nat) (s : State) : (raiseSrc src s).motor = s.motor := by
  unfold raiseSrc; split
  · rfl
  · exact foldl_keep (fun s => s.motor) _ (fun t s => raiseView_motor t src s) _ s
@[simp] theorem raiseSrc_channel (src : Nat) (s : State) : (raiseSrc src s).channel = s.channel := by
  unfold raiseSrc; split
  · rfl
  · exact foldl_keep (fun s => s.channel) _ (fun t s => raiseView_channel t src s) _ s
@[simp] theorem raiseSrc_diskq (src : Nat) (s : State) : (raiseSrc src s).diskq = s.diskq := by
  unfold raiseSrc; split
  · rfl
  · exact foldl_keep (fun s => s.diskq) _ (fun t s => raiseView_diskq t src s) _ s
@[simp] theorem raiseSrc_radio (src : Nat) (s : State) : (raiseSrc src s).radio = s.radio := by
  unfold raiseSrc; split
  · rfl
  · exact foldl_keep (fun s => s.radio) _ (fun t s => raiseView_radio t src s) _ s
@[simp] theorem raiseSrc_keys (src : Nat) (s : State) : (raiseSrc src s).keys = s.keys := by
  unfold raiseSrc; split
  · rfl
  · exact foldl_keep (fun s => s.keys) _ (fun t s => raiseView_keys t src s) _ s
@[simp] theorem raiseSrc_cascade (src : Nat) (s : State) : (raiseSrc src s).cascade = s.cascade := by
  unfold raiseSrc; split
  · rfl
  · exact foldl_keep (fun s => s.cascade) _ (fun t s => raiseView_cascade t src s) _ s
@[simp] theorem raiseSrc_up (src : Nat) (s : State) : (raiseSrc src s).up = s.up := by
  unfold raiseSrc; split
  · rfl
  · exact foldl_keep (fun s => s.up) _ (fun t s => raiseView_up t src s) _ s
@[simp] theorem raiseSrc_free (src : Nat) (s : State) : (raiseSrc src s).free = s.free := by
  unfold raiseSrc; split
  · rfl
  · exact foldl_keep (fun s => s.free) _ (fun t s => raiseView_free t src s) _ s
@[simp] theorem raiseSrc_pending (src : Nat) (s : State) : (raiseSrc src s).pending = s.pending := by
  unfold raiseSrc; split
  · rfl
  · exact foldl_keep (fun s => s.pending) _ (fun t s => raiseView_pending t src s) _ s

/-! ### enterRecord -/

@[simp] theorem enterRecord_tenants (x : Record) (s : State) : (enterRecord x s).tenants = s.tenants := by
  unfold enterRecord; dsimp only; repeat' split
  all_goals simp
@[simp] theorem enterRecord_svcOwner (x : Record) (s : State) : (enterRecord x s).svcOwner = s.svcOwner := by
  unfold enterRecord; dsimp only; repeat' split
  all_goals simp
@[simp] theorem enterRecord_svcRights (x : Record) (s : State) : (enterRecord x s).svcRights = s.svcRights := by
  unfold enterRecord; dsimp only; repeat' split
  all_goals simp
@[simp] theorem enterRecord_jobs (x : Record) (s : State) : (enterRecord x s).jobs = s.jobs := by
  unfold enterRecord; dsimp only; repeat' split
  all_goals simp
@[simp] theorem enterRecord_loft (x : Record) (s : State) : (enterRecord x s).loft = s.loft := by
  unfold enterRecord; dsimp only; repeat' split
  all_goals simp
@[simp] theorem enterRecord_rings (x : Record) (s : State) : (enterRecord x s).rings = s.rings := by
  unfold enterRecord; dsimp only; repeat' split
  all_goals simp
@[simp] theorem enterRecord_subs (x : Record) (s : State) : (enterRecord x s).subs = s.subs := by
  unfold enterRecord; dsimp only; repeat' split
  all_goals simp
@[simp] theorem enterRecord_spiMalformed (x : Record) (s : State) : (enterRecord x s).spiMalformed = s.spiMalformed := by
  unfold enterRecord; dsimp only; repeat' split
  all_goals simp
@[simp] theorem enterRecord_boot (x : Record) (s : State) : (enterRecord x s).boot = s.boot := by
  unfold enterRecord; dsimp only; repeat' split
  all_goals simp
@[simp] theorem enterRecord_supply (x : Record) (s : State) : (enterRecord x s).supply = s.supply := by
  unfold enterRecord; dsimp only; repeat' split
  all_goals simp
@[simp] theorem enterRecord_timebase (x : Record) (s : State) : (enterRecord x s).timebase = s.timebase := by
  unfold enterRecord; dsimp only; repeat' split
  all_goals simp
@[simp] theorem enterRecord_spars (x : Record) (s : State) : (enterRecord x s).spars = s.spars := by
  unfold enterRecord; dsimp only; repeat' split
  all_goals simp
@[simp] theorem enterRecord_net (x : Record) (s : State) : (enterRecord x s).net = s.net := by
  unfold enterRecord; dsimp only; repeat' split
  all_goals simp
@[simp] theorem enterRecord_motor (x : Record) (s : State) : (enterRecord x s).motor = s.motor := by
  unfold enterRecord; dsimp only; repeat' split
  all_goals simp
@[simp] theorem enterRecord_channel (x : Record) (s : State) : (enterRecord x s).channel = s.channel := by
  unfold enterRecord; dsimp only; repeat' split
  all_goals simp
@[simp] theorem enterRecord_diskq (x : Record) (s : State) : (enterRecord x s).diskq = s.diskq := by
  unfold enterRecord; dsimp only; repeat' split
  all_goals simp
@[simp] theorem enterRecord_radio (x : Record) (s : State) : (enterRecord x s).radio = s.radio := by
  unfold enterRecord; dsimp only; repeat' split
  all_goals simp
@[simp] theorem enterRecord_keys (x : Record) (s : State) : (enterRecord x s).keys = s.keys := by
  unfold enterRecord; dsimp only; repeat' split
  all_goals simp
@[simp] theorem enterRecord_cascade (x : Record) (s : State) : (enterRecord x s).cascade = s.cascade := by
  unfold enterRecord; dsimp only; repeat' split
  all_goals simp
@[simp] theorem enterRecord_up (x : Record) (s : State) : (enterRecord x s).up = s.up := by
  unfold enterRecord; dsimp only; repeat' split
  all_goals simp
@[simp] theorem enterRecord_free (x : Record) (s : State) : (enterRecord x s).free = s.free := by
  unfold enterRecord; dsimp only; repeat' split
  all_goals simp
@[simp] theorem enterRecord_pending (x : Record) (s : State) : (enterRecord x s).pending = s.pending := by
  unfold enterRecord; dsimp only; repeat' split
  all_goals simp

/-! ### recorderWatch -/

@[simp] theorem recorderWatch_tenants (s : State) : (recorderWatch s).tenants = s.tenants := by
  unfold recorderWatch; dsimp only; repeat' split
  all_goals simp
@[simp] theorem recorderWatch_svcOwner (s : State) : (recorderWatch s).svcOwner = s.svcOwner := by
  unfold recorderWatch; dsimp only; repeat' split
  all_goals simp
@[simp] theorem recorderWatch_svcRights (s : State) : (recorderWatch s).svcRights = s.svcRights := by
  unfold recorderWatch; dsimp only; repeat' split
  all_goals simp
@[simp] theorem recorderWatch_jobs (s : State) : (recorderWatch s).jobs = s.jobs := by
  unfold recorderWatch; dsimp only; repeat' split
  all_goals simp
@[simp] theorem recorderWatch_loft (s : State) : (recorderWatch s).loft = s.loft := by
  unfold recorderWatch; dsimp only; repeat' split
  all_goals simp
@[simp] theorem recorderWatch_rings (s : State) : (recorderWatch s).rings = s.rings := by
  unfold recorderWatch; dsimp only; repeat' split
  all_goals simp
@[simp] theorem recorderWatch_subs (s : State) : (recorderWatch s).subs = s.subs := by
  unfold recorderWatch; dsimp only; repeat' split
  all_goals simp
@[simp] theorem recorderWatch_spiMalformed (s : State) : (recorderWatch s).spiMalformed = s.spiMalformed := by
  unfold recorderWatch; dsimp only; repeat' split
  all_goals simp
@[simp] theorem recorderWatch_boot (s : State) : (recorderWatch s).boot = s.boot := by
  unfold recorderWatch; dsimp only; repeat' split
  all_goals simp
@[simp] theorem recorderWatch_supply (s : State) : (recorderWatch s).supply = s.supply := by
  unfold recorderWatch; dsimp only; repeat' split
  all_goals simp
@[simp] theorem recorderWatch_timebase (s : State) : (recorderWatch s).timebase = s.timebase := by
  unfold recorderWatch; dsimp only; repeat' split
  all_goals simp
@[simp] theorem recorderWatch_spars (s : State) : (recorderWatch s).spars = s.spars := by
  unfold recorderWatch; dsimp only; repeat' split
  all_goals simp
@[simp] theorem recorderWatch_net (s : State) : (recorderWatch s).net = s.net := by
  unfold recorderWatch; dsimp only; repeat' split
  all_goals simp
@[simp] theorem recorderWatch_motor (s : State) : (recorderWatch s).motor = s.motor := by
  unfold recorderWatch; dsimp only; repeat' split
  all_goals simp
@[simp] theorem recorderWatch_channel (s : State) : (recorderWatch s).channel = s.channel := by
  unfold recorderWatch; dsimp only; repeat' split
  all_goals simp
@[simp] theorem recorderWatch_diskq (s : State) : (recorderWatch s).diskq = s.diskq := by
  unfold recorderWatch; dsimp only; repeat' split
  all_goals simp
@[simp] theorem recorderWatch_radio (s : State) : (recorderWatch s).radio = s.radio := by
  unfold recorderWatch; dsimp only; repeat' split
  all_goals simp
@[simp] theorem recorderWatch_keys (s : State) : (recorderWatch s).keys = s.keys := by
  unfold recorderWatch; dsimp only; repeat' split
  all_goals simp
@[simp] theorem recorderWatch_cascade (s : State) : (recorderWatch s).cascade = s.cascade := by
  unfold recorderWatch; dsimp only; repeat' split
  all_goals simp
@[simp] theorem recorderWatch_up (s : State) : (recorderWatch s).up = s.up := by
  unfold recorderWatch; dsimp only; repeat' split
  all_goals simp
@[simp] theorem recorderWatch_free (s : State) : (recorderWatch s).free = s.free := by
  unfold recorderWatch; dsimp only; repeat' split
  all_goals simp
@[simp] theorem recorderWatch_pending (s : State) : (recorderWatch s).pending = s.pending := by
  unfold recorderWatch; dsimp only; repeat' split
  all_goals simp

/-! ### record -/

@[simp] theorem record_tenants (x : Record) (s : State) : (record x s).tenants = s.tenants := by
  unfold record syncChron; repeat' split
  all_goals simp
@[simp] theorem record_svcOwner (x : Record) (s : State) : (record x s).svcOwner = s.svcOwner := by
  unfold record syncChron; repeat' split
  all_goals simp
@[simp] theorem record_svcRights (x : Record) (s : State) : (record x s).svcRights = s.svcRights := by
  unfold record syncChron; repeat' split
  all_goals simp
@[simp] theorem record_jobs (x : Record) (s : State) : (record x s).jobs = s.jobs := by
  unfold record syncChron; repeat' split
  all_goals simp
@[simp] theorem record_loft (x : Record) (s : State) : (record x s).loft = s.loft := by
  unfold record syncChron; repeat' split
  all_goals simp
@[simp] theorem record_rings (x : Record) (s : State) : (record x s).rings = s.rings := by
  unfold record syncChron; repeat' split
  all_goals simp
@[simp] theorem record_subs (x : Record) (s : State) : (record x s).subs = s.subs := by
  unfold record syncChron; repeat' split
  all_goals simp
@[simp] theorem record_spiMalformed (x : Record) (s : State) : (record x s).spiMalformed = s.spiMalformed := by
  unfold record syncChron; repeat' split
  all_goals simp
@[simp] theorem record_supply (x : Record) (s : State) : (record x s).supply = s.supply := by
  unfold record syncChron; repeat' split
  all_goals simp
@[simp] theorem record_timebase (x : Record) (s : State) : (record x s).timebase = s.timebase := by
  unfold record syncChron; repeat' split
  all_goals simp
@[simp] theorem record_spars (x : Record) (s : State) : (record x s).spars = s.spars := by
  unfold record syncChron; repeat' split
  all_goals simp
@[simp] theorem record_net (x : Record) (s : State) : (record x s).net = s.net := by
  unfold record syncChron; repeat' split
  all_goals simp
@[simp] theorem record_motor (x : Record) (s : State) : (record x s).motor = s.motor := by
  unfold record syncChron; repeat' split
  all_goals simp
@[simp] theorem record_channel (x : Record) (s : State) : (record x s).channel = s.channel := by
  unfold record syncChron; repeat' split
  all_goals simp
@[simp] theorem record_diskq (x : Record) (s : State) : (record x s).diskq = s.diskq := by
  unfold record syncChron; repeat' split
  all_goals simp
@[simp] theorem record_radio (x : Record) (s : State) : (record x s).radio = s.radio := by
  unfold record syncChron; repeat' split
  all_goals simp
@[simp] theorem record_keys (x : Record) (s : State) : (record x s).keys = s.keys := by
  unfold record syncChron; repeat' split
  all_goals simp
@[simp] theorem record_cascade (x : Record) (s : State) : (record x s).cascade = s.cascade := by
  unfold record syncChron; repeat' split
  all_goals simp
@[simp] theorem record_up (x : Record) (s : State) : (record x s).up = s.up := by
  unfold record syncChron; repeat' split
  all_goals simp
@[simp] theorem record_free (x : Record) (s : State) : (record x s).free = s.free := by
  unfold record syncChron; repeat' split
  all_goals simp
@[simp] theorem record_pending (x : Record) (s : State) : (record x s).pending = s.pending := by
  unfold record syncChron; repeat' split
  all_goals simp

/-! ### crumbOf -/

@[simp] theorem crumbOf_tenants (isl src code sev ten : Nat) (p : Bytes) (s : State) : (crumbOf isl src code sev ten p s).tenants = s.tenants := record_tenants _ s
@[simp] theorem crumbOf_svcOwner (isl src code sev ten : Nat) (p : Bytes) (s : State) : (crumbOf isl src code sev ten p s).svcOwner = s.svcOwner := record_svcOwner _ s
@[simp] theorem crumbOf_svcRights (isl src code sev ten : Nat) (p : Bytes) (s : State) : (crumbOf isl src code sev ten p s).svcRights = s.svcRights := record_svcRights _ s
@[simp] theorem crumbOf_jobs (isl src code sev ten : Nat) (p : Bytes) (s : State) : (crumbOf isl src code sev ten p s).jobs = s.jobs := record_jobs _ s
@[simp] theorem crumbOf_loft (isl src code sev ten : Nat) (p : Bytes) (s : State) : (crumbOf isl src code sev ten p s).loft = s.loft := record_loft _ s
@[simp] theorem crumbOf_rings (isl src code sev ten : Nat) (p : Bytes) (s : State) : (crumbOf isl src code sev ten p s).rings = s.rings := record_rings _ s
@[simp] theorem crumbOf_subs (isl src code sev ten : Nat) (p : Bytes) (s : State) : (crumbOf isl src code sev ten p s).subs = s.subs := record_subs _ s
@[simp] theorem crumbOf_spiMalformed (isl src code sev ten : Nat) (p : Bytes) (s : State) : (crumbOf isl src code sev ten p s).spiMalformed = s.spiMalformed := record_spiMalformed _ s
@[simp] theorem crumbOf_supply (isl src code sev ten : Nat) (p : Bytes) (s : State) : (crumbOf isl src code sev ten p s).supply = s.supply := record_supply _ s
@[simp] theorem crumbOf_timebase (isl src code sev ten : Nat) (p : Bytes) (s : State) : (crumbOf isl src code sev ten p s).timebase = s.timebase := record_timebase _ s
@[simp] theorem crumbOf_spars (isl src code sev ten : Nat) (p : Bytes) (s : State) : (crumbOf isl src code sev ten p s).spars = s.spars := record_spars _ s
@[simp] theorem crumbOf_net (isl src code sev ten : Nat) (p : Bytes) (s : State) : (crumbOf isl src code sev ten p s).net = s.net := record_net _ s
@[simp] theorem crumbOf_motor (isl src code sev ten : Nat) (p : Bytes) (s : State) : (crumbOf isl src code sev ten p s).motor = s.motor := record_motor _ s
@[simp] theorem crumbOf_channel (isl src code sev ten : Nat) (p : Bytes) (s : State) : (crumbOf isl src code sev ten p s).channel = s.channel := record_channel _ s
@[simp] theorem crumbOf_diskq (isl src code sev ten : Nat) (p : Bytes) (s : State) : (crumbOf isl src code sev ten p s).diskq = s.diskq := record_diskq _ s
@[simp] theorem crumbOf_radio (isl src code sev ten : Nat) (p : Bytes) (s : State) : (crumbOf isl src code sev ten p s).radio = s.radio := record_radio _ s
@[simp] theorem crumbOf_keys (isl src code sev ten : Nat) (p : Bytes) (s : State) : (crumbOf isl src code sev ten p s).keys = s.keys := record_keys _ s
@[simp] theorem crumbOf_cascade (isl src code sev ten : Nat) (p : Bytes) (s : State) : (crumbOf isl src code sev ten p s).cascade = s.cascade := record_cascade _ s
@[simp] theorem crumbOf_up (isl src code sev ten : Nat) (p : Bytes) (s : State) : (crumbOf isl src code sev ten p s).up = s.up := record_up _ s
@[simp] theorem crumbOf_free (isl src code sev ten : Nat) (p : Bytes) (s : State) : (crumbOf isl src code sev ten p s).free = s.free := record_free _ s
@[simp] theorem crumbOf_pending (isl src code sev ten : Nat) (p : Bytes) (s : State) : (crumbOf isl src code sev ten p s).pending = s.pending := record_pending _ s

/-! ### crumb -/

@[simp] theorem crumb_tenants (code sev ten : Nat) (p : Bytes) (s : State) : (crumb code sev ten p s).tenants = s.tenants := crumbOf_tenants _ _ _ _ _ _ s
@[simp] theorem crumb_svcOwner (code sev ten : Nat) (p : Bytes) (s : State) : (crumb code sev ten p s).svcOwner = s.svcOwner := crumbOf_svcOwner _ _ _ _ _ _ s
@[simp] theorem crumb_svcRights (code sev ten : Nat) (p : Bytes) (s : State) : (crumb code sev ten p s).svcRights = s.svcRights := crumbOf_svcRights _ _ _ _ _ _ s
@[simp] theorem crumb_jobs (code sev ten : Nat) (p : Bytes) (s : State) : (crumb code sev ten p s).jobs = s.jobs := crumbOf_jobs _ _ _ _ _ _ s
@[simp] theorem crumb_loft (code sev ten : Nat) (p : Bytes) (s : State) : (crumb code sev ten p s).loft = s.loft := crumbOf_loft _ _ _ _ _ _ s
@[simp] theorem crumb_rings (code sev ten : Nat) (p : Bytes) (s : State) : (crumb code sev ten p s).rings = s.rings := crumbOf_rings _ _ _ _ _ _ s
@[simp] theorem crumb_subs (code sev ten : Nat) (p : Bytes) (s : State) : (crumb code sev ten p s).subs = s.subs := crumbOf_subs _ _ _ _ _ _ s
@[simp] theorem crumb_spiMalformed (code sev ten : Nat) (p : Bytes) (s : State) : (crumb code sev ten p s).spiMalformed = s.spiMalformed := crumbOf_spiMalformed _ _ _ _ _ _ s
@[simp] theorem crumb_supply (code sev ten : Nat) (p : Bytes) (s : State) : (crumb code sev ten p s).supply = s.supply := crumbOf_supply _ _ _ _ _ _ s
@[simp] theorem crumb_timebase (code sev ten : Nat) (p : Bytes) (s : State) : (crumb code sev ten p s).timebase = s.timebase := crumbOf_timebase _ _ _ _ _ _ s
@[simp] theorem crumb_spars (code sev ten : Nat) (p : Bytes) (s : State) : (crumb code sev ten p s).spars = s.spars := crumbOf_spars _ _ _ _ _ _ s
@[simp] theorem crumb_net (code sev ten : Nat) (p : Bytes) (s : State) : (crumb code sev ten p s).net = s.net := crumbOf_net _ _ _ _ _ _ s
@[simp] theorem crumb_motor (code sev ten : Nat) (p : Bytes) (s : State) : (crumb code sev ten p s).motor = s.motor := crumbOf_motor _ _ _ _ _ _ s
@[simp] theorem crumb_channel (code sev ten : Nat) (p : Bytes) (s : State) : (crumb code sev ten p s).channel = s.channel := crumbOf_channel _ _ _ _ _ _ s
@[simp] theorem crumb_diskq (code sev ten : Nat) (p : Bytes) (s : State) : (crumb code sev ten p s).diskq = s.diskq := crumbOf_diskq _ _ _ _ _ _ s
@[simp] theorem crumb_radio (code sev ten : Nat) (p : Bytes) (s : State) : (crumb code sev ten p s).radio = s.radio := crumbOf_radio _ _ _ _ _ _ s
@[simp] theorem crumb_keys (code sev ten : Nat) (p : Bytes) (s : State) : (crumb code sev ten p s).keys = s.keys := crumbOf_keys _ _ _ _ _ _ s
@[simp] theorem crumb_cascade (code sev ten : Nat) (p : Bytes) (s : State) : (crumb code sev ten p s).cascade = s.cascade := crumbOf_cascade _ _ _ _ _ _ s
@[simp] theorem crumb_up (code sev ten : Nat) (p : Bytes) (s : State) : (crumb code sev ten p s).up = s.up := crumbOf_up _ _ _ _ _ _ s
@[simp] theorem crumb_free (code sev ten : Nat) (p : Bytes) (s : State) : (crumb code sev ten p s).free = s.free := crumbOf_free _ _ _ _ _ _ s
@[simp] theorem crumb_pending (code sev ten : Nat) (p : Bytes) (s : State) : (crumb code sev ten p s).pending = s.pending := crumbOf_pending _ _ _ _ _ _ s

/-! ### raiseCrumb -/

@[simp] theorem raiseCrumb_tenants (src code sev ten : Nat) (p : Bytes) (s : State) : (raiseCrumb src code sev ten p s).tenants = s.tenants := by simp [raiseCrumb]
@[simp] theorem raiseCrumb_svcOwner (src code sev ten : Nat) (p : Bytes) (s : State) : (raiseCrumb src code sev ten p s).svcOwner = s.svcOwner := by simp [raiseCrumb]
@[simp] theorem raiseCrumb_svcRights (src code sev ten : Nat) (p : Bytes) (s : State) : (raiseCrumb src code sev ten p s).svcRights = s.svcRights := by simp [raiseCrumb]
@[simp] theorem raiseCrumb_jobs (src code sev ten : Nat) (p : Bytes) (s : State) : (raiseCrumb src code sev ten p s).jobs = s.jobs := by simp [raiseCrumb]
@[simp] theorem raiseCrumb_loft (src code sev ten : Nat) (p : Bytes) (s : State) : (raiseCrumb src code sev ten p s).loft = s.loft := by simp [raiseCrumb]
@[simp] theorem raiseCrumb_rings (src code sev ten : Nat) (p : Bytes) (s : State) : (raiseCrumb src code sev ten p s).rings = s.rings := by simp [raiseCrumb]
@[simp] theorem raiseCrumb_subs (src code sev ten : Nat) (p : Bytes) (s : State) : (raiseCrumb src code sev ten p s).subs = s.subs := by simp [raiseCrumb]
@[simp] theorem raiseCrumb_spiMalformed (src code sev ten : Nat) (p : Bytes) (s : State) : (raiseCrumb src code sev ten p s).spiMalformed = s.spiMalformed := by simp [raiseCrumb]
@[simp] theorem raiseCrumb_supply (src code sev ten : Nat) (p : Bytes) (s : State) : (raiseCrumb src code sev ten p s).supply = s.supply := by simp [raiseCrumb]
@[simp] theorem raiseCrumb_timebase (src code sev ten : Nat) (p : Bytes) (s : State) : (raiseCrumb src code sev ten p s).timebase = s.timebase := by simp [raiseCrumb]
@[simp] theorem raiseCrumb_spars (src code sev ten : Nat) (p : Bytes) (s : State) : (raiseCrumb src code sev ten p s).spars = s.spars := by simp [raiseCrumb]
@[simp] theorem raiseCrumb_net (src code sev ten : Nat) (p : Bytes) (s : State) : (raiseCrumb src code sev ten p s).net = s.net := by simp [raiseCrumb]
@[simp] theorem raiseCrumb_motor (src code sev ten : Nat) (p : Bytes) (s : State) : (raiseCrumb src code sev ten p s).motor = s.motor := by simp [raiseCrumb]
@[simp] theorem raiseCrumb_channel (src code sev ten : Nat) (p : Bytes) (s : State) : (raiseCrumb src code sev ten p s).channel = s.channel := by simp [raiseCrumb]
@[simp] theorem raiseCrumb_diskq (src code sev ten : Nat) (p : Bytes) (s : State) : (raiseCrumb src code sev ten p s).diskq = s.diskq := by simp [raiseCrumb]
@[simp] theorem raiseCrumb_radio (src code sev ten : Nat) (p : Bytes) (s : State) : (raiseCrumb src code sev ten p s).radio = s.radio := by simp [raiseCrumb]
@[simp] theorem raiseCrumb_keys (src code sev ten : Nat) (p : Bytes) (s : State) : (raiseCrumb src code sev ten p s).keys = s.keys := by simp [raiseCrumb]
@[simp] theorem raiseCrumb_cascade (src code sev ten : Nat) (p : Bytes) (s : State) : (raiseCrumb src code sev ten p s).cascade = s.cascade := by simp [raiseCrumb]
@[simp] theorem raiseCrumb_up (src code sev ten : Nat) (p : Bytes) (s : State) : (raiseCrumb src code sev ten p s).up = s.up := by simp [raiseCrumb]
@[simp] theorem raiseCrumb_free (src code sev ten : Nat) (p : Bytes) (s : State) : (raiseCrumb src code sev ten p s).free = s.free := by simp [raiseCrumb]
@[simp] theorem raiseCrumb_pending (src code sev ten : Nat) (p : Bytes) (s : State) : (raiseCrumb src code sev ten p s).pending = s.pending := by simp [raiseCrumb]

/-! ### respond -/

@[simp] theorem respond_svcOwner (t : Nat) (r : Rsp) (s : State) : (respond t r s).svcOwner = s.svcOwner := by simp [respond]
@[simp] theorem respond_svcRights (t : Nat) (r : Rsp) (s : State) : (respond t r s).svcRights = s.svcRights := by simp [respond]
@[simp] theorem respond_jobs (t : Nat) (r : Rsp) (s : State) : (respond t r s).jobs = s.jobs := by simp [respond]
@[simp] theorem respond_loft (t : Nat) (r : Rsp) (s : State) : (respond t r s).loft = s.loft := by simp [respond]
@[simp] theorem respond_rings (t : Nat) (r : Rsp) (s : State) : (respond t r s).rings = s.rings := by simp [respond]
@[simp] theorem respond_subs (t : Nat) (r : Rsp) (s : State) : (respond t r s).subs = s.subs := by simp [respond]
@[simp] theorem respond_spiMalformed (t : Nat) (r : Rsp) (s : State) : (respond t r s).spiMalformed = s.spiMalformed := by simp [respond]
@[simp] theorem respond_recorder (t : Nat) (r : Rsp) (s : State) : (respond t r s).recorder = s.recorder := by simp [respond]
@[simp] theorem respond_boot (t : Nat) (r : Rsp) (s : State) : (respond t r s).boot = s.boot := by simp [respond]
@[simp] theorem respond_supply (t : Nat) (r : Rsp) (s : State) : (respond t r s).supply = s.supply := by simp [respond]
@[simp] theorem respond_timebase (t : Nat) (r : Rsp) (s : State) : (respond t r s).timebase = s.timebase := by simp [respond]
@[simp] theorem respond_spars (t : Nat) (r : Rsp) (s : State) : (respond t r s).spars = s.spars := by simp [respond]
@[simp] theorem respond_net (t : Nat) (r : Rsp) (s : State) : (respond t r s).net = s.net := by simp [respond]
@[simp] theorem respond_motor (t : Nat) (r : Rsp) (s : State) : (respond t r s).motor = s.motor := by simp [respond]
@[simp] theorem respond_channel (t : Nat) (r : Rsp) (s : State) : (respond t r s).channel = s.channel := by simp [respond]
@[simp] theorem respond_diskq (t : Nat) (r : Rsp) (s : State) : (respond t r s).diskq = s.diskq := by simp [respond]
@[simp] theorem respond_radio (t : Nat) (r : Rsp) (s : State) : (respond t r s).radio = s.radio := by simp [respond]
@[simp] theorem respond_keys (t : Nat) (r : Rsp) (s : State) : (respond t r s).keys = s.keys := by simp [respond]
@[simp] theorem respond_cascade (t : Nat) (r : Rsp) (s : State) : (respond t r s).cascade = s.cascade := by simp [respond]
@[simp] theorem respond_up (t : Nat) (r : Rsp) (s : State) : (respond t r s).up = s.up := by simp [respond]
@[simp] theorem respond_free (t : Nat) (r : Rsp) (s : State) : (respond t r s).free = s.free := by simp [respond]
@[simp] theorem respond_pending (t : Nat) (r : Rsp) (s : State) : (respond t r s).pending = s.pending := by simp [respond]

end Sys2Proof.Machine
end

