-- ==== Sys2Proof/Laws/Campel.lean ====
section
/-!
SUPPORT. Campel commands: what a request that is served does, by how its command ends (R193, R200, R205).
-/
namespace Sys2Proof.Machine
open Sys2Proof

/-! ### What taking a doorbell leaves unchanged -/

@[simp] theorem begun_views (op : Nat) (c : Call) (s : State) : (begun op c s).views = s.views := rfl
@[simp] theorem begun_svcOwner (op : Nat) (c : Call) (s : State) : (begun op c s).svcOwner = s.svcOwner := rfl
@[simp] theorem begun_svcRights (op : Nat) (c : Call) (s : State) : (begun op c s).svcRights = s.svcRights := rfl
@[simp] theorem begun_jobs (op : Nat) (c : Call) (s : State) : (begun op c s).jobs = s.jobs := rfl
@[simp] theorem begun_loft (op : Nat) (c : Call) (s : State) : (begun op c s).loft = s.loft := rfl
@[simp] theorem begun_rings (op : Nat) (c : Call) (s : State) : (begun op c s).rings = s.rings := rfl
@[simp] theorem begun_subs (op : Nat) (c : Call) (s : State) : (begun op c s).subs = s.subs := rfl
@[simp] theorem begun_spiMalformed (op : Nat) (c : Call) (s : State) : (begun op c s).spiMalformed = s.spiMalformed := rfl
@[simp] theorem begun_recorder (op : Nat) (c : Call) (s : State) : (begun op c s).recorder = s.recorder := rfl
@[simp] theorem begun_boot (op : Nat) (c : Call) (s : State) : (begun op c s).boot = s.boot := rfl
@[simp] theorem begun_supply (op : Nat) (c : Call) (s : State) : (begun op c s).supply = s.supply := rfl
@[simp] theorem begun_timebase (op : Nat) (c : Call) (s : State) : (begun op c s).timebase = s.timebase := rfl
@[simp] theorem begun_spars (op : Nat) (c : Call) (s : State) : (begun op c s).spars = s.spars := rfl
@[simp] theorem begun_net (op : Nat) (c : Call) (s : State) : (begun op c s).net = s.net := rfl
@[simp] theorem begun_motor (op : Nat) (c : Call) (s : State) : (begun op c s).motor = s.motor := rfl
@[simp] theorem begun_channel (op : Nat) (c : Call) (s : State) : (begun op c s).channel = s.channel := rfl
@[simp] theorem begun_diskq (op : Nat) (c : Call) (s : State) : (begun op c s).diskq = s.diskq := rfl
@[simp] theorem begun_radio (op : Nat) (c : Call) (s : State) : (begun op c s).radio = s.radio := rfl
@[simp] theorem begun_keys (op : Nat) (c : Call) (s : State) : (begun op c s).keys = s.keys := rfl
@[simp] theorem begun_cascade (op : Nat) (c : Call) (s : State) : (begun op c s).cascade = s.cascade := rfl
@[simp] theorem begun_out (op : Nat) (c : Call) (s : State) : (begun op c s).out = s.out := rfl
@[simp] theorem begun_free (op : Nat) (c : Call) (s : State) : (begun op c s).free = s.free := rfl
@[simp] theorem begun_pending (op : Nat) (c : Call) (s : State) : (begun op c s).pending = s.pending := rfl
@[simp] theorem begun_up (op : Nat) (c : Call) (s : State) : (begun op c s).up = s.up := rfl

/-- Taking a doorbell changes only the mailbox fields of its tenant. -/
theorem begun_ten (op : Nat) (c : Call) (s : State) (t : Nat) :
    ∃ b sp, (begun op c s).ten t = (if t = c.t.val then
      { s.ten t with mbReq := b, busy := true, rspReady := false, transport := sp } else s.ten t) := by
  refine ⟨fit 256 (encodeReq op c.seq c.t.val (b2n c.asyncOk) 0 c.payload), c.spi, ?_⟩
  simp only [begun, takeRequest, State.ten, State.updTen_tenants]
  by_cases h : c.t.val = t
  · subst h; simp
  · simp [h, Ne.symm h]

/-- What the tenant's own response leaves of it. -/
theorem respond_ten (t : Nat) (r : Rsp) (s : State) (h : t < 8) :
    (respond t r s).ten t = { s.ten t with
      rsp := some r, rspReady := true, busy := false, lastSeq := r.seq, requests := inc32 (s.ten t).requests
      outstanding := none } := by
  simp [respond, State.ten, vat_upd_self, h]

/-- Taking a doorbell leaves the room of the tenant's EVENT ring as it was. -/
theorem canReserve_begun (op : Nat) (c : Call) (s : State) (t : Nat) :
    canReserve (begun op c s) t = canReserve s t := by
  have e : reservedSlots (begun op c s) t = reservedSlots s t := by
    obtain ⟨b, sp, ht⟩ := begun_ten op c s t
    simp only [reservedSlots, ht, begun_jobs]
    split <;> rfl
  simp only [canReserve, eventRing, State.ring, e, begun_rings]
  rfl

/-- A row of the part's own, while the module runs. -/
theorem running_next {s : State} {f : State → State} (h : s.powered = true) : s.running f = .next (f s) := by
  simp [State.running, h]

/-- A row of the part's own does nothing while the module does not run. -/
theorem running_off {s : State} {f : State → State} (h : s.powered = false) : s.running f = .next s := by
  simp [State.running, h]

/-! ### How a served request ends -/

/-- A served request is answered with what its execution gives. -/
theorem command_served {cmd : Cmd} {c : Call} {s : State} (h : Served cmd c s) :
    command cmd c s = .next (answer (callReq c cmd.op) (execute cmd (callReq c cmd.op) (begun cmd.op c s))) := by
  obtain ⟨⟨hp, hh, hb, hl⟩, -⟩ := h
  have hl' : ¬ 240 < c.payload.length := by omega
  simp [command, State.running, hp, call, hh, hb, hl', begun]

/-- A served request that ends at once. -/
theorem command_done {cmd : Cmd} {c : Call} {s s1 : State} {st : Nat} {p : Bytes} (h : Served cmd c s)
    (hr : cmd.run (begun cmd.op c s) c.t.val c.payload = .done st p s1) :
    command cmd c s = .next (respond c.t.val (localRsp s1 (callReq c cmd.op) (st, none, p)) s1) := by
  rw [command_served h]
  have h2 := h.2
  simp only [execute, h2]
  simp only [callReq] at *
  simp [hr, answer]

/-- The response to a request that ends at once is in the mailbox. -/
theorem answered_respond (c : Call) (op st : Nat) (p : Bytes) (s1 : State) :
    Answered c op st p (respond c.t.val (localRsp s1 (callReq c op) (st, none, p)) s1) := by
  simp [Answered, respond_ten, localRsp, callReq]

/-- A served asynchronous request is accepted under the tenant's next token. -/
theorem command_accept {cmd : Cmd} {c : Call} {s s1 : State} {j : Job} (h : Served cmd c s) (ha : MayAccept c s)
    (hr : cmd.run (begun cmd.op c s) c.t.val c.payload = .accept j s1) :
    command cmd c s = .next (respond c.t.val
      (localRsp s1 (callReq c cmd.op) (St.accepted, some (nextToken (s1.ten c.t.val)), []))
      { (s1.updTen c.t.val fun x => { x with lastToken := nextToken (s1.ten c.t.val) }) with
        jobs := s1.jobs ++ [{ j with tenant := c.t.val, token := nextToken (s1.ten c.t.val), op := cmd.op, origin := none }] }) := by
  rw [command_served h]
  have h2 := h.2
  have hc : (begun cmd.op c s).campel = s.campel := rfl
  simp only [execute, h2]
  simp only [callReq] at *
  simp only [hr, ha.1]
  have hg : (s.campel && !canReserve s c.t.val) = false := by
    cases hca : s.campel with
    | false => rfl
    | true => simp [ha.2 hca]
  simp [hc, canReserve_begun, hg, answer, localRsp]

/-- The mailbox after an acceptance. -/
theorem accepted_respond (c : Call) (op : Nat) (j : Job) (P : Job → Bool) (tok : Nat) (s1 s2 : State)
    (hP : P { j with tenant := c.t.val, token := tok, op := op, origin := none } = true) :
    AcceptedAs c op P (respond c.t.val (localRsp s2 (callReq c op) (St.accepted, some tok, []))
      { s1 with jobs := s1.jobs ++ [{ j with tenant := c.t.val, token := tok, op := op, origin := none }] }) := by
  simp [AcceptedAs, respond_ten, localRsp, callReq, hP]

end Sys2Proof.Machine
end

