-- ==== Sys2Proof/Laws/Memory.lean ====
section
/-!
SUPPORT. The Loft's memory: its canonical form is kept by every operation on it, and a read after a write.
-/
namespace Sys2Proof.Machine

/-- A tail of a canonical memory is canonical. -/
theorem memWf_tail {c : Nat × BitVec 8} {l : List (Nat × BitVec 8)} (h : memWf (c :: l) = true) : memWf l = true := by
  cases l with
  | nil => rfl
  | cons d l => simp only [memWf, Bool.and_eq_true] at h; exact h.2

/-- The canonical form as two properties of the whole list. -/
theorem memWf_iff (l : List (Nat × BitVec 8)) :
    memWf l = true ↔ (∀ c ∈ l, c.2 ≠ 0#8) ∧ l.Pairwise (fun c d => c.1 < d.1) := by
  induction l with
  | nil => simp [memWf]
  | cons c l ih =>
    cases l with
    | nil => simp [memWf]
    | cons d l =>
      simp only [memWf, Bool.and_eq_true, bne_iff_ne, decide_eq_true_eq, ih, List.pairwise_cons, List.mem_cons,
        forall_eq_or_imp]
      constructor
      · rintro ⟨⟨h1, h2⟩, ⟨h3, h4⟩, h5, h6⟩
        exact ⟨⟨h1, h3, h4⟩, ⟨h2, fun a ha => lt_trans h2 (h5 a ha)⟩, h5, h6⟩
      · rintro ⟨⟨h1, h3, h4⟩, ⟨h2, _⟩, h5, h6⟩
        exact ⟨⟨h1, h2⟩, ⟨h3, h4⟩, h5, h6⟩

/-- Leaving cells out keeps the canonical form. -/
theorem memWf_filter (f : Nat × BitVec 8 → Bool) {l : List (Nat × BitVec 8)} (h : memWf l = true) :
    memWf (l.filter f) = true := by
  rw [memWf_iff] at h ⊢
  exact ⟨fun c hc => h.1 c (List.mem_of_mem_filter hc), h.2.filter f⟩

/-- The cells of a byte string lie at its addresses, in order, none of them zero. -/
theorem cells_spec (a : Nat) (bs : Bytes) :
    (∀ c ∈ cells a bs, c.2 ≠ 0#8 ∧ a ≤ c.1 ∧ c.1 < a + bs.length) ∧ (cells a bs).Pairwise (fun c d => c.1 < d.1) := by
  induction bs generalizing a with
  | nil => simp [cells]
  | cons b l ih =>
    obtain ⟨h1, h2⟩ := ih (a + 1)
    simp only [cells, List.length_cons]
    split
    · exact ⟨fun c hc => ⟨(h1 c hc).1, by have := (h1 c hc).2; omega, by have := (h1 c hc).2; omega⟩, h2⟩
    · rename_i hb
      refine ⟨fun c hc => ?_, List.pairwise_cons.2 ⟨fun c hc => by have := (h1 c hc).2; omega, h2⟩⟩
      rcases List.mem_cons.1 hc with rfl | hc
      · exact ⟨hb, le_refl _, by simp⟩
      · exact ⟨(h1 c hc).1, by have := (h1 c hc).2; omega, by have := (h1 c hc).2; omega⟩

/-- A store keeps the canonical form. -/
theorem memWf_write {m : List (Nat × BitVec 8)} (h : memWf m = true) (a : Nat) (bs : Bytes) :
    memWf (memWrite m a bs) = true := by
  rw [memWf_iff] at h ⊢
  obtain ⟨c1, c2⟩ := cells_spec a bs
  unfold memWrite
  refine ⟨fun c hc => ?_, ?_⟩
  · simp only [List.mem_append, List.mem_filter] at hc
    rcases hc with (hc | hc) | hc
    · exact h.1 c hc.1
    · exact (c1 c hc).1
    · exact h.1 c hc.1
  · rw [List.pairwise_append, List.pairwise_append]
    refine ⟨⟨h.2.filter _, c2, fun x hx y hy => ?_⟩, h.2.filter _, fun x hx y hy => ?_⟩
    · have := (c1 y hy).2; simp at hx; omega
    · simp only [List.mem_append, List.mem_filter, decide_eq_true_eq] at hx hy
      rcases hx with hx | hx
      · omega
      · have := (c1 x hx).2; omega

/-- A store into the Loft keeps the canonical form. -/
theorem memWf_loft_write (l : Loft) (h : memWf l.mem = true) (a : Nat) (bs : Bytes) : memWf (l.write a bs).mem = true :=
  memWf_write h a bs

/-- Clearing a yealm keeps the canonical form. -/
theorem memWf_loft_clear (l : Loft) (h : memWf l.mem = true) (i : Nat) : memWf (l.clear i).mem = true :=
  memWf_filter _ h

/-- The byte a memory holds at an address: what an unlisted address reads as is zero. -/
def memByte (m : List (Nat × BitVec 8)) (a : Nat) : BitVec 8 := mgetD m a 0#8

end Sys2Proof.Machine
end

