-- ==== Sys2Proof/Laws/LoftShared.lean ====
section
/-!
SUPPORT. The Loft through the shared operations: for each function that leaves the Loft alone, that it does (`_loft`); for each that
may write it, that its memory keeps the canonical form (`_memWf`).
-/
namespace Sys2Proof.Machine
open Sys2Proof
set_option linter.all false

def Reply.state : Reply → State
  | .done _ _ s => s
  | .accept _ s => s
  | .silent s => s
@[simp] theorem Reply.state_done (a : Nat) (b : Bytes) (s : State) : (Reply.done a b s).state = s := rfl
@[simp] theorem Reply.state_accept (j : Job) (s : State) : (Reply.accept j s).state = s := rfl
@[simp] theorem Reply.state_silent (s : State) : (Reply.silent s).state = s := rfl
def keepsLoft (s : State) (r : Res) : Prop := ∀ t, r = .next t → t.loft = s.loft
theorem keepsLoft_next {s z : State} (h : z.loft = s.loft) : keepsLoft s (.next z) := by
  intro t ht; cases ht; exact h
theorem keepsLoft_running {s : State} {f : State → State} (h : (f s).loft = s.loft) : keepsLoft s (s.running f) := by
  apply keepsLoft_next; split <;> simp [h]
theorem foldl_loft {α : Type} {f : State → α → State} (h : ∀ s a, (f s a).loft = s.loft) (l : List α) (s : State) :
    (l.foldl f s).loft = s.loft := by
  induction l generalizing s with
  | nil => rfl
  | cons a l ih => simp [ih, h]
/-- A memory equal to a canonical one is canonical. -/
theorem memWf_of {a b : State} (h : a.loft = b.loft) (hb : memWf b.loft.mem = true) : memWf a.loft.mem = true := by
  rw [h]; exact hb
def keepsMem (r : Res) : Prop := ∀ t, r = .next t → memWf t.loft.mem = true
theorem keepsMem_next {s : State} (h : memWf s.loft.mem = true) : keepsMem (.next s) := by
  intro t ht; cases ht; exact h
theorem keepsMem_running {s : State} {f : State → State} (h : memWf s.loft.mem = true)
    (hf : memWf (f s).loft.mem = true) : keepsMem (s.running f) := by
  apply keepsMem_next; split <;> assumption
theorem keepsMem_of {s : State} {r : Res} (h : keepsLoft s r) (hs : memWf s.loft.mem = true) : keepsMem r := by
  intro t ht; rw [h t ht]; exact hs
theorem foldl_memWf {α : Type} {f : State → α → State}
    (h : ∀ s a, memWf s.loft.mem = true → memWf (f s a).loft.mem = true) (l : List α) (s : State)
    (hs : memWf s.loft.mem = true) : memWf (l.foldl f s).loft.mem = true :=
  foldl_ok (fun s => memWf s.loft.mem = true) f (fun a b => h b a) l s hs
theorem repeat_memWf {f : State → State} (h : ∀ s, memWf s.loft.mem = true → memWf (f s).loft.mem = true) (n : Nat)
    (s : State) (hs : memWf s.loft.mem = true) : memWf (Nat.repeat f n s).loft.mem = true := by
  induction n with
  | zero => exact hs
  | succ n ih => exact h _ ih
theorem pair_memWf {α : Type} {r : α × State} {a : α} {z : State} (h : r = (a, z))
    (hr : memWf r.2.loft.mem = true) : memWf z.loft.mem = true := by
  subst h; exact hr
theorem triple_memWf {α β : Type} {r : α × β × State} {a : α} {b : β} {z : State} (h : r = (a, b, z))
    (hr : memWf r.2.2.loft.mem = true) : memWf z.loft.mem = true := by
  subst h; exact hr
theorem pair_loft {α : Type} {r : α × State} {a : α} {z : State} (h : r = (a, z)) : z.loft = r.2.loft := by
  subst h; rfl
theorem triple_loft {α β : Type} {r : α × β × State} {a : α} {b : β} {z : State} (h : r = (a, b, z)) :
    z.loft = r.2.2.loft := by
  subst h; rfl
theorem repeat_loft {f : State → State} (h : ∀ s, (f s).loft = s.loft) (n : Nat) (s : State) :
    (Nat.repeat f n s).loft = s.loft := by
  induction n with
  | zero => rfl
  | succ n ih => simp [Nat.repeat, h, ih]


/-! ### Ops.lean -/

@[simp] theorem syncChron_loft (s : State) :
    (syncChron s).loft = s.loft := by simp [syncChron]

theorem allocOne_memWf (t : Nat) (s : State) (h_s : memWf s.loft.mem = true) :
    ∀ a z, allocOne t s = some (a, z) → memWf z.loft.mem = true := by
  intro a z h
  unfold allocOne at h
  split at h
  · cases h
  · cases h
    exact memWf_filter _ h_s

theorem allocMany_memWf (t : Nat) (x0 : Nat) (x1 : State) (h_x1 : memWf x1.loft.mem = true) :
    ∀ a z, allocMany t x0 x1 = some (a, z) → memWf z.loft.mem = true := by
  induction x0 generalizing x1 with
  | zero => intro a z h; cases h; assumption
  | succ n ih =>
    intro a z h
    unfold allocMany at h
    split at h
    · cases h
    · rename_i hd s1 heq
      have h1 := allocOne_memWf _ _ h_x1 _ _ heq
      cases hm : allocMany t n s1 with
      | none => rw [hm] at h; cases h
      | some q =>
        rw [hm] at h; cases h
        exact ih _ h1 _ _ hm

theorem freeYealm_memWf (i : Nat) (s : State) (h_s : memWf s.loft.mem = true) :
    memWf (freeYealm i s).loft.mem = true := by
  unfold freeYealm
  with_reducible repeat' first | assumption | intro _ | apply memWf_write | apply memWf_filter | rfl
                               | refine memWf_of (State.updTen_loft ..) ?_ | split | dsimp only [State.updLoft, Loft.setTag, Loft.clear, Loft.write]

theorem pin_memWf (i : Nat) (s : State) (h_s : memWf s.loft.mem = true) :
    memWf (pin i s).loft.mem = true := by
  unfold pin
  with_reducible repeat' first | assumption | intro _ | apply memWf_write | apply memWf_filter | rfl | split
                               | dsimp only [State.updLoft, Loft.setTag, Loft.clear, Loft.write]

theorem unpin_memWf (i : Nat) (s : State) (h_s : memWf s.loft.mem = true) :
    memWf (unpin i s).loft.mem = true := by
  unfold unpin
  with_reducible repeat' first | assumption | intro _ | apply memWf_write | apply memWf_filter | rfl | apply freeYealm_memWf | split
                               | dsimp only [State.updLoft, Loft.setTag, Loft.clear, Loft.write]

theorem pinAll_memWf (l : List Nat) (s : State) (h_s : memWf s.loft.mem = true) :
    memWf (pinAll l s).loft.mem = true := by
  unfold pinAll
  with_reducible repeat' first | assumption | intro _ | refine foldl_memWf ?_ _ _ ?_ | apply memWf_write | apply memWf_filter | rfl
                               | apply pin_memWf | split | dsimp only [State.updLoft, Loft.setTag, Loft.clear, Loft.write]

theorem unpinAll_memWf (l : List Nat) (s : State) (h_s : memWf s.loft.mem = true) :
    memWf (unpinAll l s).loft.mem = true := by
  unfold unpinAll
  with_reducible repeat' first | assumption | intro _ | refine foldl_memWf ?_ _ _ ?_ | apply memWf_write | apply memWf_filter | rfl
                               | apply unpin_memWf | split | dsimp only [State.updLoft, Loft.setTag, Loft.clear, Loft.write]

theorem loftWrite_memWf (a : Nat) (bs : Bytes) (s : State) (h_s : memWf s.loft.mem = true) :
    memWf (loftWrite a bs s).loft.mem = true := by
  unfold loftWrite
  with_reducible repeat' first | assumption | intro _ | apply memWf_write | apply memWf_filter | rfl | split
                               | dsimp only [State.updLoft, Loft.setTag, Loft.clear, Loft.write]

theorem produce_memWf (n : Nat) (body : Bytes) (s : State) (h_s : memWf s.loft.mem = true) :
    memWf (produce n body s).loft.mem = true := by
  unfold produce
  with_reducible repeat' first | assumption | intro _ | apply memWf_write | apply memWf_filter | rfl | apply loftWrite_memWf
                               | refine memWf_of (State.updRing_loft ..) ?_ | refine memWf_of (raiseSrc_loft ..) ?_ | split
                               | dsimp only [State.updLoft, Loft.setTag, Loft.clear, Loft.write]

@[simp] theorem closeRing_loft (n : Nat) (s : State) :
    (closeRing n s).loft = s.loft := by
  unfold closeRing
  with_reducible repeat' first | rfl | intro _ | refine (State.updRing_loft ..).trans ?_ | split | dsimp only

theorem markOverflow_memWf (t n kept : Nat) (s : State) (h_s : memWf s.loft.mem = true) :
    memWf (markOverflow t n kept s).loft.mem = true := by
  unfold markOverflow
  with_reducible repeat' first | assumption | intro _ | apply memWf_write | apply memWf_filter | rfl | apply produce_memWf
                               | refine memWf_of (State.updRing_loft ..) ?_ | split | dsimp only [State.updLoft, Loft.setTag, Loft.clear, Loft.write]

theorem postEvent_memWf (t kind code ten : Nat) (data : Bytes) (s : State) (h_s : memWf s.loft.mem = true) :
    memWf (postEvent t kind code ten data s).loft.mem = true := by
  unfold postEvent
  cases eventRing s t with
  | none => exact h_s
  | some n =>
    have h1 := markOverflow_memWf t n 0 s h_s
    show memWf (State.loft (if _ then _ else _)).mem = true
    split
    · exact produce_memWf _ _ _ h1
    · exact memWf_of (State.updRing_loft ..) h1

theorem postCompletion_memWf (t : Nat) (d : Bytes) (s : State) (h_s : memWf s.loft.mem = true) :
    memWf (postCompletion t d s).loft.mem = true := by
  unfold postCompletion
  with_reducible repeat' first | assumption | intro _ | apply memWf_write | apply memWf_filter | rfl | apply produce_memWf
                               | apply markOverflow_memWf | split | dsimp only [State.updLoft, Loft.setTag, Loft.clear, Loft.write]

/-! ### KeyOps.lean -/

@[simp] theorem wearOut_loft (i : Nat) (s : State) :
    (wearOut i s).loft = s.loft := by
  unfold wearOut
  with_reducible repeat' first | rfl | intro _ | refine (raiseCrumb_loft ..).trans ?_ | refine (State.updKey_loft ..).trans ?_ | split | dsimp only

@[simp] theorem keyStart_loft (t i kind n : Nat) (forms : Bool) (s : State) :
    (keyStart t i kind n forms s).2.2.loft = s.loft := by
  unfold keyStart
  with_reducible repeat' first | rfl | intro _ | refine (wearOut_loft ..).trans ?_ | refine (State.updKey_loft ..).trans ?_ | split | dsimp only

@[simp] theorem keyEnd_loft (i load : Nat) (s : State) :
    (keyEnd i load s).loft = s.loft := by simp [keyEnd]

/-! ### Lane.lean -/

@[simp] theorem laneErr_loft (l : Nat) (s : State) :
    (laneErr l s).loft = s.loft := by
  unfold laneErr
  with_reducible repeat' first | rfl | intro _ | refine (raiseSrc_loft ..).trans ?_ | refine (State.updLane_loft ..).trans ?_ | split | dsimp only

@[simp] theorem laneCount_loft (l i n : Nat) (s : State) :
    (laneCount l i n s).loft = s.loft := by
  unfold laneCount
  with_reducible repeat' first | rfl | intro _ | refine (State.updLane_loft ..).trans ?_ | refine (laneErr_loft ..).trans ?_ | split | dsimp only

@[simp] theorem sealFrame_loft (l : Nat) (f : LaneFrame) (s : State) :
    (sealFrame l f s).2.loft = s.loft := by
  unfold sealFrame
  with_reducible repeat' first | rfl | intro _ | refine (keyStart_loft ..).trans ?_ | refine (laneErr_loft ..).trans ?_
                               | refine (State.updLane_loft ..).trans ?_ | refine (keyEnd_loft ..).trans ?_
                               | refine (pair_loft (by assumption)).trans ?_ | refine (triple_loft (by assumption)).trans ?_ | split | dsimp only

@[simp] theorem startFrame_loft (l : Nat) (f : LaneFrame) (s : State) :
    (startFrame l f s).loft = s.loft := by simp [startFrame]

@[simp] theorem pump_loft (l : Nat) (x0 : Nat) (x1 : State) :
    (pump l x0 x1).loft = x1.loft := by
  induction x0 generalizing x1 with
  | zero => rfl
  | succ n ih =>
    unfold pump
    with_reducible repeat' first | rfl | intro _ | refine (ih _).trans ?_ | refine (sealFrame_loft ..).trans ?_
                                 | refine (startFrame_loft ..).trans ?_ | refine (State.updLane_loft ..).trans ?_
                                 | refine (pair_loft (by assumption)).trans ?_ | refine (triple_loft (by assumption)).trans ?_ | split | dsimp only

@[simp] theorem laneSend_loft (l type dest origin : Nat) (payload : Bytes) (s : State) :
    (laneSend l type dest origin payload s).loft = s.loft := by simp [laneSend]

@[simp] theorem laneBlock_loft (l type : Nat) (b : Bytes) (s : State) :
    (laneBlock l type b s).loft = s.loft := by simp [laneBlock]

@[simp] theorem sendTo_loft (pos type : Nat) (payload : Bytes) (s : State) :
    (sendTo pos type payload s).loft = s.loft := by simp [sendTo]

/-! ### Jobs.lean -/

theorem writeCompletion_memWf (j : Job) (status : Nat) (data : Bytes) (s : State) (h_s : memWf s.loft.mem = true) :
    memWf (writeCompletion j status data s).loft.mem = true := by
  unfold writeCompletion
  with_reducible repeat' first | assumption | intro _ | apply unpinAll_memWf | refine memWf_of (State.updBoot_loft ..) ?_
                               | refine memWf_of (sendTo_loft ..) ?_ | apply postCompletion_memWf | split | dsimp only

theorem completeJob_memWf (j : Job) (status : Nat) (data : Bytes) (s : State) (h_s : memWf s.loft.mem = true) :
    memWf (completeJob j status data s).loft.mem = true := by
  unfold completeJob
  with_reducible repeat' first | assumption | intro _ | apply writeCompletion_memWf | split | dsimp only

theorem writeHeldBack_memWf (s : State) (h_s : memWf s.loft.mem = true) :
    memWf (writeHeldBack s).loft.mem = true := by
  unfold writeHeldBack
  with_reducible repeat' first | assumption | intro _ | refine foldl_memWf ?_ _ _ ?_ | apply writeCompletion_memWf | split | dsimp only

theorem finish_memWf (op key status : Nat) (data : Bytes) (s : State) (h_s : memWf s.loft.mem = true) :
    memWf (finish op key status data s).loft.mem = true := by
  unfold finish
  with_reducible repeat' first | assumption | intro _ | apply completeJob_memWf | split | dsimp only

theorem finishAll_memWf (op key status : Nat) (s : State) (h_s : memWf s.loft.mem = true) :
    memWf (finishAll op key status s).loft.mem = true := by
  unfold finishAll
  with_reducible repeat' first | assumption | intro _ | refine foldl_memWf ?_ _ _ ?_ | apply completeJob_memWf | split | dsimp only

theorem completeResult_memWf (j : Job) (result : Bytes) (s : State) (h_s : memWf s.loft.mem = true) :
    memWf (completeResult j result s).loft.mem = true := by
  unfold completeResult
  with_reducible repeat' first | assumption | intro _ | apply completeJob_memWf | apply loftWrite_memWf
                               | refine allocOne_memWf _ _ ?_ _ _ (by assumption) | split | dsimp only

theorem ringDone_memWf (n : Nat) (s : State) (h_s : memWf s.loft.mem = true) :
    memWf (ringDone n s).loft.mem = true := by
  unfold ringDone
  with_reducible repeat' first | assumption | intro _ | refine memWf_of (State.updRing_loft ..) ?_ | apply finish_memWf
                               | refine memWf_of (closeRing_loft ..) ?_ | split | dsimp only

theorem completeSub_memWf (n cls status tag count flags : Nat) (result : Bytes) (s : State) (h_s : memWf s.loft.mem = true) :
    memWf (completeSub n cls status tag count flags result s).loft.mem = true := by
  unfold completeSub
  with_reducible repeat' first | assumption | intro _ | apply ringDone_memWf | apply produce_memWf | split | dsimp only

/-! ### RadioOps.lean -/

@[simp] theorem State_updPath_loft (s : State) (p : Nat) (f : Path → Path) :
    (State.updPath s p f).loft = s.loft := by simp [State.updPath]

@[simp] theorem State_updSynth_loft (s : State) (i : Nat) (f : Synth → Synth) :
    (State.updSynth s i f).loft = s.loft := by simp [State.updSynth]

@[simp] theorem rfStart_loft (s : State) :
    (rfStart s).loft = s.loft := by
  unfold rfStart
  with_reducible repeat' first | rfl | intro _ | refine (State.updRad_loft ..).trans ?_ | refine (State.emit_loft ..).trans ?_ | split | dsimp only

@[simp] theorem rfPush_loft (prio cs word : Nat) (s : State) :
    (rfPush prio cs word s).loft = s.loft := by simp [rfPush]

@[simp] theorem sendAtten_loft (prio p code : Nat) (s : State) :
    (sendAtten prio p code s).loft = s.loft := by simp [sendAtten]

@[simp] theorem setBias_loft (p code : Nat) (s : State) :
    (setBias p code s).loft = s.loft := by
  unfold setBias
  with_reducible repeat' first | rfl | intro _ | refine (foldl_loft ?_ _ _).trans ?_ | refine (State.updRad_loft ..).trans ?_
                               | refine (State.emit_loft ..).trans ?_ | split | dsimp only

@[simp] theorem mutePath_loft (p : Nat) (s : State) :
    (mutePath p s).loft = s.loft := by simp [mutePath]

@[simp] theorem unmutePath_loft (p : Nat) (s : State) :
    (unmutePath p s).loft = s.loft := by simp [unmutePath]

@[simp] theorem syncEn_loft (b : Nat) (s : State) :
    (syncEn b s).loft = s.loft := by simp [syncEn]

@[simp] theorem syncBand_loft (b : Nat) (s : State) :
    (syncBand b s).loft = s.loft := by
  unfold syncBand
  with_reducible repeat' first | rfl | intro _ | refine (unmutePath_loft ..).trans ?_ | refine (mutePath_loft ..).trans ?_
                               | refine (syncEn_loft ..).trans ?_ | split | dsimp only

@[simp] theorem syncBands_loft (s : State) :
    (syncBands s).loft = s.loft := by
  unfold syncBands
  with_reducible repeat' first | rfl | intro _ | refine (foldl_loft ?_ _ _).trans ?_ | refine (syncBand_loft ..).trans ?_ | split | dsimp only

@[simp] theorem stepTo_loft (p e : Nat) (s : State) :
    (stepTo p e s).loft = s.loft := by
  unfold stepTo
  with_reducible repeat' first | rfl | intro _ | refine (State_updPath_loft ..).trans ?_ | refine (sendAtten_loft ..).trans ?_
                               | refine (setBias_loft ..).trans ?_ | split | dsimp only

@[simp] theorem syncStep_loft (p : Nat) (s : State) :
    (syncStep p s).loft = s.loft := by simp [syncStep]

@[simp] theorem eaveCrumb_loft (src code sev b cause : Nat) (measured limit : Int) (s : State) :
    (eaveCrumb src code sev b cause measured limit s).loft = s.loft := by simp [eaveCrumb]

@[simp] theorem setCause_loft (b cause : Nat) (on : Bool) (s : State) :
    (setCause b cause on s).loft = s.loft := by simp [setCause]

@[simp] theorem backOff_loft (b cause : Nat) (measured limit : Int) (s : State) :
    (backOff b cause measured limit s).loft = s.loft := by
  unfold backOff
  with_reducible repeat' first | rfl | intro _ | refine (State.updBand_loft ..).trans ?_ | refine (eaveCrumb_loft ..).trans ?_ | split | dsimp only

@[simp] theorem guardMuteBand_loft (b cause : Nat) (raise : Bool) (measured limit : Int) (s : State) :
    (guardMuteBand b cause raise measured limit s).loft = s.loft := by
  unfold guardMuteBand
  with_reducible repeat' first | rfl | intro _ | refine (setCause_loft ..).trans ?_ | refine (State.updBand_loft ..).trans ?_
                               | refine (syncBand_loft ..).trans ?_ | refine (raiseSrc_loft ..).trans ?_
                               | refine (eaveCrumb_loft ..).trans ?_ | refine (backOff_loft ..).trans ?_ | split | dsimp only

@[simp] theorem liftCause_loft (b cause : Nat) (s : State) :
    (liftCause b cause s).loft = s.loft := by simp [liftCause]

@[simp] theorem ladder_loft (p : Nat) (s : State) :
    (ladder p s).loft = s.loft := by
  unfold ladder
  with_reducible repeat' first | rfl | intro _ | refine (syncStep_loft ..).trans ?_ | refine (State_updPath_loft ..).trans ?_
                               | refine (eaveCrumb_loft ..).trans ?_ | refine (raiseSrc_loft ..).trans ?_
                               | refine (guardMuteBand_loft ..).trans ?_ | split | dsimp only

@[simp] theorem startCeiling_loft (p : Nat) (s : State) :
    (startCeiling p s).loft = s.loft := by simp [startCeiling]

@[simp] theorem syncDetectors_loft (b : Nat) (s : State) :
    (syncDetectors b s).loft = s.loft := by
  unfold syncDetectors
  with_reducible repeat' first | rfl | intro _ | refine (guardMuteBand_loft ..).trans ?_ | refine (liftCause_loft ..).trans ?_ | split | dsimp only

@[simp] theorem updEntry_loft (i e : Nat) (f : SynthEntry → SynthEntry) (s : State) :
    (updEntry i e f s).loft = s.loft := by simp [updEntry]

@[simp] theorem sendWords_loft (i e : Nat) (f : Nat → Nat → Nat) (s : State) :
    (sendWords i e f s).loft = s.loft := by
  unfold sendWords
  with_reducible repeat' first | rfl | intro _ | refine (foldl_loft ?_ _ _).trans ?_ | refine (rfPush_loft ..).trans ?_ | split | dsimp only

@[simp] theorem startCal_loft (i e : Nat) (retried : Bool) (s : State) :
    (startCal i e retried s).loft = s.loft := by simp [startCal]

@[simp] theorem recalCrumb_loft (i e : Nat) (s : State) :
    (recalCrumb i e s).loft = s.loft := by simp [recalCrumb]

@[simp] theorem startHop_loft (i e : Nat) (s : State) :
    (startHop i e s).loft = s.loft := by
  unfold startHop
  with_reducible repeat' first | rfl | intro _ | refine (sendWords_loft ..).trans ?_ | refine (State_updSynth_loft ..).trans ?_
                               | refine (startCal_loft ..).trans ?_ | refine (recalCrumb_loft ..).trans ?_ | split | dsimp only

@[simp] theorem tune_loft (b e : Nat) (s : State) :
    (tune b e s).loft = s.loft := by simp [tune]

theorem endTune_memWf (b status : Nat) (s : State) (h_s : memWf s.loft.mem = true) :
    memWf (endTune b status s).loft.mem = true := by
  unfold endTune
  with_reducible repeat' first | assumption | intro _ | apply finishAll_memWf | split | dsimp only

@[simp] theorem endAuto_loft (i : Nat) (s : State) :
    (endAuto i s).loft = s.loft := by
  unfold endAuto
  with_reducible repeat' first | rfl | intro _ | refine (raiseSrc_loft ..).trans ?_ | refine (State_updSynth_loft ..).trans ?_ | split | dsimp only

@[simp] theorem activateBand_loft (b : Nat) (s : State) :
    (activateBand b s).loft = s.loft := by simp [activateBand]

theorem tuned_memWf (b : Nat) (s : State) (h_s : memWf s.loft.mem = true) :
    memWf (tuned b s).loft.mem = true := by
  unfold tuned
  with_reducible repeat' first | assumption | intro _ | refine memWf_of (endAuto_loft ..) ?_ | refine memWf_of (State_updSynth_loft ..) ?_
                               | refine memWf_of (State.updBand_loft ..) ?_ | apply endTune_memWf
                               | refine memWf_of (activateBand_loft ..) ?_ | refine memWf_of (syncDetectors_loft ..) ?_
                               | refine memWf_of (syncBand_loft ..) ?_ | split | dsimp only

theorem tuneFault_memWf (b : Nat) (s : State) (h_s : memWf s.loft.mem = true) :
    memWf (tuneFault b s).loft.mem = true := by
  unfold tuneFault
  with_reducible repeat' first | assumption | intro _ | refine memWf_of (endAuto_loft ..) ?_ | refine memWf_of (State_updSynth_loft ..) ?_
                               | refine memWf_of (syncBand_loft ..) ?_ | refine memWf_of (State.updBand_loft ..) ?_
                               | refine memWf_of (crumbOf_loft ..) ?_ | refine memWf_of (raiseSrc_loft ..) ?_ | apply endTune_memWf | split
                               | dsimp only

theorem endCalRun_memWf (i status : Nat) (s : State) (h_s : memWf s.loft.mem = true) :
    memWf (endCalRun i status s).loft.mem = true := by
  unfold endCalRun
  with_reducible repeat' first | assumption | intro _ | apply finish_memWf | refine memWf_of (raiseSrc_loft ..) ?_
                               | refine memWf_of (State_updSynth_loft ..) ?_ | split | dsimp only

theorem nextCal_memWf (i : Nat) (s : State) (h_s : memWf s.loft.mem = true) :
    memWf (nextCal i s).loft.mem = true := by
  unfold nextCal
  with_reducible repeat' first | assumption | intro _ | refine memWf_of (startCal_loft ..) ?_ | refine memWf_of (State_updSynth_loft ..) ?_
                               | apply endCalRun_memWf | split | dsimp only

theorem lockDecided_memWf (i e : Nat) (locked retried wasCal : Bool) (s : State) (h_s : memWf s.loft.mem = true) :
    memWf (lockDecided i e locked retried wasCal s).loft.mem = true := by
  unfold lockDecided
  with_reducible repeat' first | assumption | intro _ | refine memWf_of (updEntry_loft ..) ?_ | apply nextCal_memWf | apply tuned_memWf
                               | refine memWf_of (startCal_loft ..) ?_ | apply tuneFault_memWf | apply endCalRun_memWf | split | dsimp only

theorem stopBand_memWf (b : Nat) (s : State) (h_s : memWf s.loft.mem = true) :
    memWf (stopBand b s).loft.mem = true := by
  unfold stopBand
  with_reducible repeat' first | assumption | intro _ | refine memWf_of (State_updSynth_loft ..) ?_
                               | refine memWf_of (State.updBand_loft ..) ?_ | apply endTune_memWf | refine memWf_of (syncBand_loft ..) ?_
                               | split | dsimp only

@[simp] theorem cancelTdd_loft (bands : Nat → Bool) (s : State) :
    (cancelTdd bands s).loft = s.loft := by simp [cancelTdd]

@[simp] theorem hardMute_loft (s : State) :
    (hardMute s).loft = s.loft := by
  unfold hardMute
  with_reducible repeat' first | rfl | intro _ | refine (foldl_loft ?_ _ _).trans ?_ | refine (cancelTdd_loft ..).trans ?_
                               | refine (State.updRad_loft ..).trans ?_ | refine (mutePath_loft ..).trans ?_ | split | dsimp only

@[simp] theorem mayRelease_loft (s : State) :
    (mayRelease s).loft = s.loft := by simp [mayRelease]

theorem radioLeaveRun_memWf (s : State) (h_s : memWf s.loft.mem = true) :
    memWf (radioLeaveRun s).loft.mem = true := by
  unfold radioLeaveRun
  with_reducible repeat' first | assumption | intro _ | refine foldl_memWf ?_ _ _ ?_ | refine memWf_of (State.updRad_loft ..) ?_
                               | refine memWf_of (hardMute_loft ..) ?_ | refine memWf_of (eaveCrumb_loft ..) ?_ | apply stopBand_memWf
                               | split | dsimp only

@[simp] theorem startBand_loft (b : Nat) (activate : Bool) (s : State) :
    (startBand b activate s).loft = s.loft := by simp [startBand]

@[simp] theorem radioEnterRun_loft (s : State) :
    (radioEnterRun s).loft = s.loft := by
  unfold radioEnterRun
  with_reducible repeat' first | rfl | intro _ | refine (foldl_loft ?_ _ _).trans ?_ | refine (mayRelease_loft ..).trans ?_
                               | refine (State.updRad_loft ..).trans ?_ | refine (State.emit_loft ..).trans ?_
                               | refine (startBand_loft ..).trans ?_ | split | dsimp only

@[simp] theorem radioIslandOff_loft (s : State) :
    (radioIslandOff s).loft = s.loft := by simp [radioIslandOff]

theorem radioMachineCheck_memWf (s : State) (h_s : memWf s.loft.mem = true) :
    memWf (radioMachineCheck s).loft.mem = true := by
  unfold radioMachineCheck
  with_reducible repeat' first | assumption | intro _ | refine foldl_memWf ?_ _ _ ?_ | refine memWf_of (hardMute_loft ..) ?_
                               | refine memWf_of (State.updRad_loft ..) ?_ | refine memWf_of (eaveCrumb_loft ..) ?_ | apply endCalRun_memWf
                               | refine memWf_of (State_updSynth_loft ..) ?_ | apply endTune_memWf
                               | refine memWf_of (State.updBand_loft ..) ?_ | split | dsimp only

@[simp] theorem ditherStep_loft (p : Nat) (sign : Option Bool) (s : State) :
    (ditherStep p sign s).loft = s.loft := by
  unfold ditherStep
  with_reducible repeat' first | rfl | intro _ | refine (sendAtten_loft ..).trans ?_ | refine (State_updPath_loft ..).trans ?_ | split | dsimp only

/-! ### CalOps.lean -/

@[simp] theorem armTimIn_loft (i mode : Nat) (s : State) :
    (armTimIn i mode s).loft = s.loft := by simp [armTimIn]

/-! ### Campel.lean -/

@[simp] theorem stallRing_loft (n cause : Nat) (s : State) :
    (stallRing n cause s).loft = s.loft := by
  unfold stallRing
  with_reducible repeat' first | rfl | intro _ | refine (State.updRing_loft ..).trans ?_ | refine (raiseSrc_loft ..).trans ?_ | split | dsimp only

@[simp] theorem faultTenant_loft (t cause : Nat) (s : State) :
    (faultTenant t cause s).loft = s.loft := by
  unfold faultTenant
  with_reducible repeat' first | rfl | intro _ | refine (foldl_loft ?_ _ _).trans ?_ | refine (State.updTen_loft ..).trans ?_
                               | refine (raiseCrumb_loft ..).trans ?_ | refine (stallRing_loft ..).trans ?_ | split | dsimp only

@[simp] theorem execute_loft (c : Cmd) (q : Req) (s : State) (h_c : ∀ s t p, (c.run s t p).state.loft = s.loft) :
    (execute c q s).2.loft = s.loft := by
  unfold execute
  split
  · rfl
  · have h := h_c s q.t q.payload
    split
    · rename_i heq; rw [heq] at h; exact h
    · rename_i heq; rw [heq] at h; exact h
    · rename_i heq; rw [heq] at h
      dsimp only
      split
      · rfl
      · split
        · rfl
        · exact h

theorem execute_memWf (c : Cmd) (q : Req) (s : State) (h_s : memWf s.loft.mem = true)
        (h_c : ∀ s t p, memWf s.loft.mem = true → memWf (c.run s t p).state.loft.mem = true) :
    memWf (execute c q s).2.loft.mem = true := by
  unfold execute
  split
  · exact h_s
  · have h := h_c s q.t q.payload h_s
    split
    · rename_i heq; rw [heq] at h; exact h
    · rename_i heq; rw [heq] at h; exact h
    · rename_i heq; rw [heq] at h
      dsimp only
      split
      · exact h_s
      · split
        · exact h_s
        · exact h

@[simp] theorem answer_loft (q : Req) (r : Answer × State) :
    (answer q r).loft = r.2.loft := by
  unfold answer
  with_reducible repeat' first | rfl | intro _ | refine (respond_loft ..).trans ?_ | split | dsimp only

theorem answer_memWf (q : Req) (r : Answer × State) (h_r : memWf r.2.loft.mem = true) :
    memWf (answer q r).loft.mem = true := by
  unfold answer
  with_reducible repeat' first | assumption | intro _ | refine memWf_of (respond_loft ..) ?_ | split | dsimp only

@[simp] theorem headerFail_loft (q : Req) (st : Nat) (s : State) :
    (headerFail q st s).loft = s.loft := by
  unfold headerFail
  with_reducible repeat' first | rfl | intro _ | refine (State.updTen_loft ..).trans ?_ | refine (answer_loft ..).trans ?_
                               | refine (faultTenant_loft ..).trans ?_ | split | dsimp only

@[simp] theorem doorbellRefused_loft (t : Nat) (s : State) :
    (doorbellRefused t s).loft = s.loft := by simp [doorbellRefused]

@[simp] theorem takeRequest_loft (t : Nat) (spi : Bool) (s : State) :
    (takeRequest t spi s).loft = s.loft := by simp [takeRequest]

@[simp] theorem call_loft (cmd : Cmd) (c : Call) (s : State) (h_cmd : ∀ s t p, (cmd.run s t p).state.loft = s.loft) :
    (call cmd c s).loft = s.loft := by
  unfold call
  with_reducible repeat' first | rfl | intro _ | apply h_cmd | refine (doorbellRefused_loft ..).trans ?_
                               | refine (takeRequest_loft ..).trans ?_ | refine (State.updTen_loft ..).trans ?_
                               | refine (headerFail_loft ..).trans ?_ | refine (answer_loft ..).trans ?_
                               | refine (execute_loft _ _ _ ?_).trans ?_ | split | dsimp only

theorem call_memWf (cmd : Cmd) (c : Call) (s : State) (h_s : memWf s.loft.mem = true)
        (h_cmd : ∀ s t p, memWf s.loft.mem = true → memWf (cmd.run s t p).state.loft.mem = true) :
    memWf (call cmd c s).loft.mem = true := by
  unfold call
  with_reducible repeat' first | assumption | intro _ | apply h_cmd | refine memWf_of (doorbellRefused_loft ..) ?_
                               | refine memWf_of (takeRequest_loft ..) ?_ | refine memWf_of (State.updTen_loft ..) ?_
                               | refine memWf_of (headerFail_loft ..) ?_ | apply answer_memWf | apply execute_memWf | split | dsimp only

theorem command_loft (cmd : Cmd) (c : Call) (s : State) (h_cmd : ∀ s t p, (cmd.run s t p).state.loft = s.loft) :
    keepsLoft s (command cmd c s) := by
  unfold command
  with_reducible repeat' first | rfl | intro _ | apply keepsLoft_running | apply keepsLoft_next | apply h_cmd
                               | refine (call_loft _ _ _ ?_).trans ?_ | split | dsimp only

theorem command_memWf (cmd : Cmd) (c : Call) (s : State) (h_s : memWf s.loft.mem = true)
        (h_cmd : ∀ s t p, memWf s.loft.mem = true → memWf (cmd.run s t p).state.loft.mem = true) :
    keepsMem (command cmd c s) := by
  unfold command
  with_reducible repeat' first | assumption | intro _ | apply keepsMem_running | apply keepsMem_next | apply h_cmd | apply call_memWf
                               | split | dsimp only

/-! ### RecSectors.lean -/

@[simp] theorem State_updRecChan_loft (s : State) (n : Nat) (f : RecChan → RecChan) :
    (State.updRecChan s n f).loft = s.loft := by simp [State.updRecChan]

@[simp] theorem recCount_loft (n i : Nat) (s : State) :
    (recCount n i s).loft = s.loft := by simp [recCount]

@[simp] theorem closeSector_loft (n : Nat) (o : OpenSector) (s : State) :
    (closeSector n o s).loft = s.loft := by simp [closeSector]

@[simp] theorem closeWhere_loft (n : Nat) (p : OpenSector → Bool) (s : State) :
    (closeWhere n p s).loft = s.loft := by
  unfold closeWhere
  with_reducible repeat' first | rfl | intro _ | refine (foldl_loft ?_ _ _).trans ?_ | refine (closeSector_loft ..).trans ?_ | split | dsimp only

@[simp] theorem enterSegment_loft (n q : Nat) (t : Time) (s : State) :
    (enterSegment n q t s).loft = s.loft := by
  unfold enterSegment
  with_reducible repeat' first | rfl | intro _ | refine (State.updDsk_loft ..).trans ?_ | refine (State_updRecChan_loft ..).trans ?_
                               | split | dsimp only

theorem openSector_memWf (n : Nat) (o : OpenSector) (s : State) (h_s : memWf s.loft.mem = true) :
    memWf (openSector n o s).loft.mem = true := by
  unfold openSector
  with_reducible repeat' first | assumption | intro _ | refine memWf_of (State_updRecChan_loft ..) ?_
                               | refine allocOne_memWf _ _ ?_ _ _ (by assumption) | split | dsimp only

@[simp] theorem recorded_loft (n q seg : Nat) (s : State) :
    (recorded n q seg s).loft = s.loft := by simp [recorded]

@[simp] theorem markTaken_loft (n q : Nat) (s : State) :
    (markTaken n q s).loft = s.loft := by simp [markTaken]

theorem placeRaw_memWf (n q : Nat) (b : Bytes) (blue : Bool) (t : Time) (s : State) (h_s : memWf s.loft.mem = true) :
    memWf (placeRaw n q b blue t s).loft.mem = true := by
  unfold placeRaw
  with_reducible repeat' first | assumption | refine memWf_of (markTaken_loft ..) ?_ | intro _ | refine foldl_memWf ?_ _ _ ?_ | refine memWf_of (enterSegment_loft ..) ?_
                               | refine memWf_of (recCount_loft ..) ?_ | refine memWf_of (closeSector_loft ..) ?_ | apply openSector_memWf
                               | refine memWf_of (State_updRecChan_loft ..) ?_ | refine memWf_of (recorded_loft ..) ?_
                               | refine memWf_of (closeWhere_loft ..) ?_ | refine pair_memWf (by assumption) ?_
                               | refine triple_memWf (by assumption) ?_ | split | dsimp only

theorem placeFramed_memWf (n q : Nat) (b : Bytes) (blue : Bool) (t : Time) (s : State) (h_s : memWf s.loft.mem = true) :
    memWf (placeFramed n q b blue t s).loft.mem = true := by
  unfold placeFramed
  with_reducible repeat' first | assumption | intro _ | refine memWf_of (enterSegment_loft ..) ?_ | refine memWf_of (closeWhere_loft ..) ?_
                               | apply openSector_memWf | refine memWf_of (State_updRecChan_loft ..) ?_
                               | refine memWf_of (recorded_loft ..) ?_ | refine pair_memWf (by assumption) ?_
                               | refine triple_memWf (by assumption) ?_ | split | dsimp only

theorem placeHeld_memWf (n : Nat) (s : State) (h_s : memWf s.loft.mem = true) :
    memWf (placeHeld n s).loft.mem = true := by
  unfold placeHeld
  with_reducible repeat' first | assumption | intro _ | apply placeFramed_memWf | refine memWf_of (State_updRecChan_loft ..) ?_ | split | dsimp only

theorem placeReady_memWf (n : Nat) (x0 : Nat) (x1 : State) (h_x1 : memWf x1.loft.mem = true) :
    memWf (placeReady n x0 x1).loft.mem = true := by
  induction x0 generalizing x1 with
  | zero => unfold placeReady; assumption
  | succ n ih =>
    unfold placeReady
    with_reducible repeat' first | assumption | intro _ | apply ih | apply placeHeld_memWf | split | dsimp only

theorem endSegment_memWf (n bits : Nat) (s : State) (h_s : memWf s.loft.mem = true) :
    memWf (endSegment n bits s).loft.mem = true := by
  unfold endSegment
  with_reducible repeat' first | assumption | intro _ | refine repeat_memWf ?_ _ _ ?_ | apply placeHeld_memWf
                               | refine memWf_of (closeWhere_loft ..) ?_ | refine memWf_of (State.updDsk_loft ..) ?_
                               | refine memWf_of (State_updRecChan_loft ..) ?_ | split | dsimp only

theorem stepSegments_memWf (s : State) (h_s : memWf s.loft.mem = true) :
    memWf (stepSegments s).loft.mem = true := by
  unfold stepSegments
  with_reducible repeat' first | assumption | intro _ | refine foldl_memWf ?_ _ _ ?_ | apply endSegment_memWf | split | dsimp only

/-! ### TimeOps.lean -/

@[simp] theorem keepUpdate_loft (f : KeepCopy → KeepCopy) (s : State) :
    (keepUpdate f s).loft = s.loft := by simp [keepUpdate]

@[simp] theorem keepOffsets_loft (s : State) :
    (keepOffsets s).loft = s.loft := by simp [keepOffsets]

@[simp] theorem offsetRecord_loft (instant : Nat) (s : State) :
    (offsetRecord instant s).loft = s.loft := by simp [offsetRecord]

@[simp] theorem forceAt_loft (i : Nat) (s : State) : (forceAt i s).loft = s.loft := by
  unfold forceAt
  exact (offsetRecord_loft ..).trans ((raiseSrc_loft ..).trans (keepOffsets_loft ..))

@[simp] theorem forceFirst_loft (s : State) : (forceFirst s).loft = s.loft := by
  unfold forceFirst
  split
  · exact forceAt_loft ..
  · rfl

@[simp] theorem takeForce_loft (s : State) :
    (takeForce s).loft = s.loft := by
  unfold takeForce
  split
  · rfl
  · exact (forceFirst_loft ..).trans (forceFirst_loft ..)

@[simp] theorem warnScheds_loft (s : State) :
    (warnScheds s).loft = s.loft := by
  unfold warnScheds
  with_reducible repeat' first | rfl | intro _ | refine (raiseSrc_loft ..).trans ?_ | refine (State.updTb_loft ..).trans ?_ | split | dsimp only

@[simp] theorem adoptOffsets_loft (utc loc : Int) (leap loc2 : Option Sched) (s : State) :
    (adoptOffsets utc loc leap loc2 s).loft = s.loft := by simp [adoptOffsets]

@[simp] theorem rephase_loft (s : State) :
    (rephase s).loft = s.loft := by
  unfold rephase
  with_reducible repeat' first | rfl | intro _ | refine (raiseSrc_loft ..).trans ?_ | split | dsimp only

@[simp] theorem tddQuiet_loft (s : State) :
    (tddQuiet s).loft = s.loft := by simp [tddQuiet]

@[simp] theorem cadenceStep_loft (d : Int) (s : State) :
    (cadenceStep d s).loft = s.loft := by simp [cadenceStep]

theorem timeStep_memWf (d : Int) (s : State) (h_s : memWf s.loft.mem = true) :
    memWf (timeStep d s).loft.mem = true := by
  unfold timeStep
  with_reducible repeat' first | assumption | intro _ | refine memWf_of (State.updTb_loft ..) ?_ | refine memWf_of (takeForce_loft ..) ?_
                               | apply stepSegments_memWf | refine memWf_of (cadenceStep_loft ..) ?_
                               | refine memWf_of (tddQuiet_loft ..) ?_ | refine memWf_of (rephase_loft ..) ?_
                               | refine memWf_of (raiseSrc_loft ..) ?_ | split | dsimp only

@[simp] theorem makeValid_loft (s : State) :
    (makeValid s).loft = s.loft := by simp [makeValid]

@[simp] theorem holdCadence_loft (s : State) :
    (holdCadence s).loft = s.loft := by simp [holdCadence]

@[simp] theorem loseValid_loft (s : State) :
    (loseValid s).loft = s.loft := by
  unfold loseValid
  with_reducible repeat' first | rfl | intro _ | refine (holdCadence_loft ..).trans ?_ | refine (raiseSrc_loft ..).trans ?_
                               | refine (State.updTb_loft ..).trans ?_ | split | dsimp only

@[simp] theorem State_updRef_loft (s : State) (c : Nat) (f : RefIn → RefIn) :
    (State.updRef s c f).loft = s.loft := by simp [State.updRef]

@[simp] theorem dpllTo_loft (st : DpllState) (s : State) :
    (dpllTo st s).loft = s.loft := by simp [dpllTo]

@[simp] theorem dpllUnreferenced_loft (s : State) :
    (dpllUnreferenced s).loft = s.loft := by
  unfold dpllUnreferenced
  with_reducible repeat' first | rfl | intro _ | refine (raiseSrc_loft ..).trans ?_ | refine (dpllTo_loft ..).trans ?_
                               | refine (State.updTb_loft ..).trans ?_ | split | dsimp only

@[simp] theorem dpllReferenced_loft (s : State) :
    (dpllReferenced s).loft = s.loft := by
  unfold dpllReferenced
  with_reducible repeat' first | rfl | intro _ | refine (raiseSrc_loft ..).trans ?_ | refine (dpllTo_loft ..).trans ?_ | split | dsimp only

theorem takePhase_memWf (c : Nat) (s : State) (h_s : memWf s.loft.mem = true) :
    memWf (takePhase c s).loft.mem = true := by
  unfold takePhase
  with_reducible repeat' first | assumption | intro _ | apply timeStep_memWf | refine memWf_of (State.updTb_loft ..) ?_ | split | dsimp only

theorem switchRef_memWf (c : Nat) (s : State) (h_s : memWf s.loft.mem = true) :
    memWf (switchRef c s).loft.mem = true := by
  unfold switchRef
  with_reducible repeat' first | assumption | intro _ | refine memWf_of (raiseSrc_loft ..) ?_ | refine memWf_of (State.updTb_loft ..) ?_
                               | refine memWf_of (dpllUnreferenced_loft ..) ?_ | apply takePhase_memWf
                               | refine memWf_of (dpllReferenced_loft ..) ?_ | refine memWf_of (makeValid_loft ..) ?_ | split | dsimp only

theorem reselect_memWf (s : State) (h_s : memWf s.loft.mem = true) :
    memWf (reselect s).loft.mem = true := by
  unfold reselect
  with_reducible repeat' first | assumption | intro _ | apply switchRef_memWf | split | dsimp only

theorem disqualify_memWf (c cause : Nat) (s : State) (h_s : memWf s.loft.mem = true) :
    memWf (disqualify c cause s).loft.mem = true := by
  unfold disqualify
  with_reducible repeat' first | assumption | intro _ | refine memWf_of (State_updRef_loft ..) ?_ | refine memWf_of (raiseSrc_loft ..) ?_
                               | apply reselect_memWf | split | dsimp only

theorem qualify_memWf (c : Nat) (s : State) (h_s : memWf s.loft.mem = true) :
    memWf (qualify c s).loft.mem = true := by
  unfold qualify
  with_reducible repeat' first | assumption | intro _ | apply reselect_memWf | refine memWf_of (State_updRef_loft ..) ?_ | split | dsimp only

end Sys2Proof.Machine
end

