-- ==== Sys2Proof/Laws/LoftCascade.lean ====
section
/-!
SUPPORT. The Loft through the cascade, the recorder and the keys: for each function that leaves the Loft alone, that it does (`_loft`); for each that
may write it, that its memory keeps the canonical form (`_memWf`).
-/
namespace Sys2Proof.Machine
open Sys2Proof
set_option linter.all false

/-! ### CascadeOps.lean -/

@[simp] theorem setRate_loft (l : Nat) (quarter : Bool) (s : State) :
    (setRate l quarter s).loft = s.loft := by simp [setRate]

@[simp] theorem answerNotReady_loft (t : Nat) (s : State) :
    (answerNotReady t s).loft = s.loft := by
  unfold answerNotReady
  with_reducible repeat' first | rfl | intro _ | refine (respond_loft ..).trans ?_ | split | dsimp only

@[simp] theorem answerLost_loft (l : Nat) (s : State) :
    (answerLost l s).loft = s.loft := by
  unfold answerLost
  with_reducible repeat' first | rfl | intro _ | refine (foldl_loft ?_ _ _).trans ?_ | refine (answerNotReady_loft ..).trans ?_ | split | dsimp only

theorem handbackFails_memWf (s : State) (h_s : memWf s.loft.mem = true) :
    memWf (handbackFails s).loft.mem = true := by
  unfold handbackFails
  with_reducible repeat' first | assumption | intro _ | apply finish_memWf | refine memWf_of (State.updCas_loft ..) ?_ | split | dsimp only

@[simp] theorem setModules_loft (n : Nat) (s : State) :
    (setModules n s).loft = s.loft := by
  unfold setModules
  with_reducible repeat' first | rfl | intro _ | refine (crumb_loft ..).trans ?_ | refine (State.updCas_loft ..).trans ?_ | split | dsimp only

@[simp] theorem endOfChain_loft (last lease : Nat) (s : State) :
    (endOfChain last lease s).loft = s.loft := by
  unfold endOfChain
  with_reducible repeat' first | rfl | intro _ | refine (setModules_loft ..).trans ?_ | refine (laneSend_loft ..).trans ?_ | split | dsimp only

@[simp] theorem rafterLost_loft (s : State) :
    (rafterLost s).loft = s.loft := by
  unfold rafterLost
  with_reducible repeat' first | rfl | intro _ | refine (crumb_loft ..).trans ?_ | refine (State.updLane_loft ..).trans ?_
                               | refine (endOfChain_loft ..).trans ?_ | refine (State.updCas_loft ..).trans ?_ | split | dsimp only

theorem linkDown_memWf (l : Nat) (s : State) (h_s : memWf s.loft.mem = true) :
    memWf (linkDown l s).loft.mem = true := by
  unfold linkDown
  with_reducible repeat' first | assumption | intro _ | refine memWf_of (setRate_loft ..) ?_ | refine memWf_of (State.updLane_loft ..) ?_
                               | refine memWf_of (answerLost_loft ..) ?_ | refine memWf_of (raiseSrc_loft ..) ?_
                               | apply handbackFails_memWf | apply disqualify_memWf | refine memWf_of (rafterLost_loft ..) ?_
                               | refine memWf_of (State.updCas_loft ..) ?_ | split | dsimp only

theorem retrain_memWf (l : Nat) (s : State) (h_s : memWf s.loft.mem = true) :
    memWf (retrain l s).loft.mem = true := by
  unfold retrain
  with_reducible repeat' first | assumption | intro _ | apply linkDown_memWf | refine memWf_of (crumbOf_loft ..) ?_
                               | refine memWf_of (laneCount_loft ..) ?_ | refine memWf_of (State.updLane_loft ..) ?_ | split | dsimp only

@[simp] theorem emitResent_loft (l : Nat) (s : State) :
    (emitResent l s).loft = s.loft := by
  unfold emitResent
  with_reducible repeat' first | rfl | intro _ | refine (foldl_loft ?_ _ _).trans ?_ | refine (State.emit_loft ..).trans ?_ | split | dsimp only

theorem resend_memWf (l : Nat) (s : State) (h_s : memWf s.loft.mem = true) :
    memWf (resend l s).loft.mem = true := by
  unfold resend
  with_reducible repeat' first | assumption | intro _ | refine memWf_of (laneCount_loft ..) ?_ | refine memWf_of (emitResent_loft ..) ?_
                               | refine memWf_of (State.updLane_loft ..) ?_ | apply retrain_memWf | split | dsimp only

@[simp] theorem pumpLane_loft (l : Nat) (s : State) :
    (pumpLane l s).loft = s.loft := by simp [pumpLane]

@[simp] theorem rateBlock_loft (l op count : Nat) (s : State) :
    (rateBlock l op count s).loft = s.loft := by simp [rateBlock]

@[simp] theorem askRate_loft (l : Nat) (quarter : Bool) (s : State) :
    (askRate l quarter s).loft = s.loft := by
  unfold askRate
  with_reducible repeat' first | rfl | intro _ | refine (State.updLane_loft ..).trans ?_ | refine (rateBlock_loft ..).trans ?_ | split | dsimp only

@[simp] theorem rateDue_loft (l : Nat) (s : State) :
    (rateDue l s).loft = s.loft := by
  unfold rateDue
  with_reducible repeat' first | rfl | intro _ | refine (askRate_loft ..).trans ?_ | split | dsimp only

@[simp] theorem openUnder_loft (slot : Nat) (rx : LaneRx) (type : Nat) (s : State) :
    (openUnder slot rx type s).2.loft = s.loft := by
  unfold openUnder
  with_reducible repeat' first | rfl | intro _ | refine (keyStart_loft ..).trans ?_ | refine (keyEnd_loft ..).trans ?_
                               | refine (pair_loft (by assumption)).trans ?_ | refine (triple_loft (by assumption)).trans ?_ | split | dsimp only

@[simp] theorem plainPayload_loft (rx : LaneRx) (type : Nat) (s : State) :
    (plainPayload rx type s).2.loft = s.loft := by
  unfold plainPayload
  with_reducible repeat' first | rfl | intro _ | refine (openUnder_loft ..).trans ?_ | refine (pair_loft (by assumption)).trans ?_
                               | refine (triple_loft (by assumption)).trans ?_ | split | dsimp only

@[simp] theorem sendCredit_loft (l : Nat) (nak : Bool) (vc units : Nat) (s : State) :
    (sendCredit l nak vc units s).loft = s.loft := by simp [sendCredit]

@[simp] theorem sendNak_loft (l : Nat) (s : State) :
    (sendNak l s).loft = s.loft := by simp [sendNak]

@[simp] theorem laneAccept_loft (type : Nat) (rx : LaneRx) (s : State) :
    (laneAccept type rx s).2.loft = s.loft := by
  unfold laneAccept
  with_reducible repeat' first | rfl | intro _ | refine (sendCredit_loft ..).trans ?_ | refine (sendNak_loft ..).trans ?_
                               | refine (laneCount_loft ..).trans ?_ | refine (plainPayload_loft ..).trans ?_
                               | refine (State.updLane_loft ..).trans ?_ | refine (pair_loft (by assumption)).trans ?_
                               | refine (triple_loft (by assumption)).trans ?_ | split | dsimp only

@[simp] theorem laneFrame_loft (type : Nat) (rx : LaneRx) (seen body : Bytes → State → State) (s : State) (h_seen : ∀ y0 y1, (seen y0 y1).loft = y1.loft) (h_body : ∀ y0 y1, (body y0 y1).loft = y1.loft) :
    (laneFrame type rx seen body s).loft = s.loft := by
  unfold laneFrame
  with_reducible repeat' first | rfl | intro _ | refine (h_seen ..).trans ?_ | refine (h_body ..).trans ?_
                               | refine (laneAccept_loft ..).trans ?_ | refine (laneSend_loft ..).trans ?_
                               | refine (pair_loft (by assumption)).trans ?_ | refine (triple_loft (by assumption)).trans ?_ | split | dsimp only

theorem laneFrame_memWf (type : Nat) (rx : LaneRx) (seen body : Bytes → State → State) (s : State) (h_s : memWf s.loft.mem = true)
        (h_seen : ∀ y0 y1, memWf y1.loft.mem = true → memWf (seen y0 y1).loft.mem = true)
        (h_body : ∀ y0 y1, memWf y1.loft.mem = true → memWf (body y0 y1).loft.mem = true) :
    memWf (laneFrame type rx seen body s).loft.mem = true := by
  unfold laneFrame
  with_reducible repeat' first | assumption | intro _ | apply h_seen | apply h_body | refine memWf_of (laneAccept_loft ..) ?_
                               | refine memWf_of (laneSend_loft ..) ?_ | refine pair_memWf (by assumption) ?_
                               | refine triple_memWf (by assumption) ?_ | split | dsimp only

theorem laneRow_loft (type : Nat) (rx : LaneRx) (body : Bytes → State → State) (s : State) (h_body : ∀ y0 y1, (body y0 y1).loft = y1.loft) :
    keepsLoft s (laneRow type rx body s) := by
  unfold laneRow
  with_reducible repeat' first | rfl | intro _ | apply keepsLoft_running | apply keepsLoft_next | refine (h_body ..).trans ?_
                               | refine (laneFrame_loft _ _ _ _ _ ?_ ?_).trans ?_ | split | dsimp only

theorem laneRow_memWf (type : Nat) (rx : LaneRx) (body : Bytes → State → State) (s : State) (h_s : memWf s.loft.mem = true)
        (h_body : ∀ y0 y1, memWf y1.loft.mem = true → memWf (body y0 y1).loft.mem = true) :
    keepsMem (laneRow type rx body s) := by
  unfold laneRow
  with_reducible repeat' first | assumption | intro _ | apply keepsMem_running | apply keepsMem_next | apply h_body | apply laneFrame_memWf
                               | split | dsimp only

@[simp] theorem sendHeartbeat_loft (pos count : Nat) (pending : Bool) (s : State) :
    (sendHeartbeat pos count pending s).loft = s.loft := by
  unfold sendHeartbeat
  with_reducible repeat' first | rfl | intro _ | refine (laneBlock_loft ..).trans ?_ | split | dsimp only

@[simp] theorem beat_loft (s : State) :
    (beat s).loft = s.loft := by simp [beat]

@[simp] theorem sendDiscover_loft (s : State) :
    (sendDiscover s).loft = s.loft := by simp [sendDiscover]

theorem handbackDone_memWf (s : State) (h_s : memWf s.loft.mem = true) :
    memWf (handbackDone s).loft.mem = true := by
  unfold handbackDone
  with_reducible repeat' first | assumption | intro _ | refine memWf_of (laneSend_loft ..) ?_ | refine memWf_of (State.updCas_loft ..) ?_
                               | apply finish_memWf | refine memWf_of (crumb_loft ..) ?_ | split | dsimp only

@[simp] theorem grantLease_loft (s : State) :
    (grantLease s).2.loft = s.loft := by simp [grantLease]

@[simp] theorem takeLease_loft (n : Nat) (s : State) :
    (takeLease n s).loft = s.loft := by simp [takeLease]

@[simp] theorem askLease_loft (s : State) :
    (askLease s).loft = s.loft := by
  unfold askLease
  with_reducible repeat' first | rfl | intro _ | refine (grantLease_loft ..).trans ?_ | refine (takeLease_loft ..).trans ?_
                               | refine (State.updCas_loft ..).trans ?_ | refine (sendTo_loft ..).trans ?_
                               | refine (pair_loft (by assumption)).trans ?_ | refine (triple_loft (by assumption)).trans ?_ | split | dsimp only

@[simp] theorem nextGseq_loft (s : State) :
    (nextGseq s).2.loft = s.loft := by
  unfold nextGseq
  with_reducible repeat' first | rfl | intro _ | refine (askLease_loft ..).trans ?_ | refine (State.updCas_loft ..).trans ?_ | split | dsimp only

/-! ### Cascade.lean -/

@[simp] theorem roleConflict_loft (s : State) :
    (roleConflict s).loft = s.loft := by simp [roleConflict]

@[simp] theorem takePosition_loft (p : Nat) (s : State) :
    (takePosition p s).loft = s.loft := by
  unfold takePosition
  with_reducible repeat' first | rfl | intro _ | refine (roleConflict_loft ..).trans ?_ | refine (State.updCas_loft ..).trans ?_
                               | refine (crumb_loft ..).trans ?_ | refine (rephase_loft ..).trans ?_ | split | dsimp only

@[simp] theorem onDiscover_loft (lane : Nat) (p : Bytes) (s : State) :
    (onDiscover lane p s).loft = s.loft := by
  unfold onDiscover
  with_reducible repeat' first | rfl | intro _ | refine (State.updCas_loft ..).trans ?_ | refine (laneSend_loft ..).trans ?_
                               | refine (takePosition_loft ..).trans ?_ | refine (State.updLane_loft ..).trans ?_
                               | refine (sendDiscover_loft ..).trans ?_ | refine (endOfChain_loft ..).trans ?_ | split | dsimp only

theorem execDiscover_loft (rx : LaneRx) (s : State) :
    keepsLoft s (execDiscover rx s) := by
  apply keepsLoft_running; simp

@[simp] theorem onDiscoverEnd_loft (lane : Nat) (p : Bytes) (s : State) :
    (onDiscoverEnd lane p s).loft = s.loft := by
  unfold onDiscoverEnd
  with_reducible repeat' first | rfl | intro _ | refine (State.updCas_loft ..).trans ?_ | refine (State.updLane_loft ..).trans ?_
                               | refine (endOfChain_loft ..).trans ?_ | split | dsimp only

theorem execDiscoverEnd_loft (rx : LaneRx) (s : State) :
    keepsLoft s (execDiscoverEnd rx s) := by
  apply keepsLoft_running; simp

theorem execDiscoverSend_loft (s : State) :
    keepsLoft s (execDiscoverSend s) := by
  unfold execDiscoverSend
  with_reducible repeat' first | rfl | intro _ | apply keepsLoft_running | apply keepsLoft_next | refine (sendDiscover_loft ..).trans ?_
                               | split | dsimp only

theorem execDiscoverEndTimeout_loft (waitedUs : Nat) (s : State) :
    keepsLoft s (execDiscoverEndTimeout waitedUs s) := by
  unfold execDiscoverEndTimeout
  with_reducible repeat' first | rfl | intro _ | apply keepsLoft_running | apply keepsLoft_next | refine (roleConflict_loft ..).trans ?_
                               | refine (rafterLost_loft ..).trans ?_ | split | dsimp only

theorem execTimeFrameSend_memWf (s : State) (h_s : memWf s.loft.mem = true) :
    keepsMem (execTimeFrameSend s) := by
  unfold execTimeFrameSend
  with_reducible repeat' first | assumption | intro _ | apply keepsMem_running | apply keepsMem_next
                               | refine memWf_of (laneSend_loft ..) ?_ | refine memWf_of (State.updCas_loft ..) ?_ | apply exchange_memWf
                               | split | dsimp only

@[simp] theorem completeExchange_loft (p : Bytes) (s : State) :
    (completeExchange p s).loft = s.loft := by
  unfold completeExchange
  with_reducible repeat' first | rfl | intro _ | refine (State.updCas_loft ..).trans ?_ | refine (State_updRef_loft ..).trans ?_
                               | refine (State.updTb_loft ..).trans ?_ | split | dsimp only

theorem onTimeDown_memWf (p : Bytes) (at_ : Time) (s : State) (h_s : memWf s.loft.mem = true) :
    memWf (onTimeDown p at_ s).loft.mem = true := by
  unfold onTimeDown
  with_reducible repeat' first | assumption | intro _ | refine memWf_of (completeExchange_loft ..) ?_
                               | refine memWf_of (State.updCas_loft ..) ?_ | apply disqualify_memWf | refine memWf_of (laneSend_loft ..) ?_
                               | apply exchange_memWf | split | dsimp only

theorem execTime_memWf (rx : LaneRx) (sec ns frac : Nat) (s : State) (h_s : memWf s.loft.mem = true) :
    keepsMem (execTime rx sec ns frac s) := by
  unfold execTime
  with_reducible repeat' first | assumption | intro _ | apply keepsMem_running | apply keepsMem_next | apply laneRow_memWf
                               | apply onTimeDown_memWf | refine memWf_of (State.updCas_loft ..) ?_ | split | dsimp only

theorem execOffsets_loft (rx : LaneRx) (s : State) :
    keepsLoft s (execOffsets rx s) := by
  unfold execOffsets
  with_reducible repeat' first | rfl | intro _ | apply keepsLoft_running | apply keepsLoft_next | apply laneRow_loft
                               | refine (adoptOffsets_loft ..).trans ?_ | split | dsimp only

theorem execOffsetsSend_loft (s : State) :
    keepsLoft s (execOffsetsSend s) := by
  unfold execOffsetsSend
  with_reducible repeat' first | rfl | intro _ | apply keepsLoft_running | apply keepsLoft_next | refine (laneSend_loft ..).trans ?_
                               | split | dsimp only

@[simp] theorem onRole_loft (lane : Nat) (p : Bytes) (s : State) :
    (onRole lane p s).loft = s.loft := by
  unfold onRole
  with_reducible repeat' first | rfl | intro _ | refine (crumb_loft ..).trans ?_ | refine (State.updCas_loft ..).trans ?_
                               | refine (sendDiscover_loft ..).trans ?_ | refine (beat_loft ..).trans ?_ | split | dsimp only

theorem execRole_loft (rx : LaneRx) (s : State) :
    keepsLoft s (execRole rx s) := by
  apply keepsLoft_running; simp

theorem execHeartbeat_loft (pos : Fin 8) (count : Nat) (pending : Bool) (s : State) :
    keepsLoft s (execHeartbeat pos count pending s) := by
  unfold execHeartbeat
  with_reducible repeat' first | rfl | intro _ | apply keepsLoft_running | apply keepsLoft_next | refine (State.updCas_loft ..).trans ?_
                               | refine (sendHeartbeat_loft ..).trans ?_ | split | dsimp only

theorem execHeartbeatSend_loft (s : State) :
    keepsLoft s (execHeartbeatSend s) := by
  unfold execHeartbeatSend
  with_reducible repeat' first | rfl | intro _ | apply keepsLoft_running | apply keepsLoft_next | refine (beat_loft ..).trans ?_ | split | dsimp only

theorem execRidgeLost_loft (sinceMs : Nat) (s : State) :
    keepsLoft s (execRidgeLost sinceMs s) := by
  unfold execRidgeLost
  with_reducible repeat' first | rfl | intro _ | apply keepsLoft_running | apply keepsLoft_next | refine (crumb_loft ..).trans ?_
                               | refine (State.updCas_loft ..).trans ?_ | refine (beat_loft ..).trans ?_ | split | dsimp only

theorem execHandbackTimeout_memWf (forS : Nat) (s : State) (h_s : memWf s.loft.mem = true) :
    keepsMem (execHandbackTimeout forS s) := by
  unfold execHandbackTimeout
  with_reducible repeat' first | assumption | intro _ | apply keepsMem_running | apply keepsMem_next | apply handbackFails_memWf | split | dsimp only

theorem execLeaseReq_loft (rx : LaneRx) (s : State) :
    keepsLoft s (execLeaseReq rx s) := by
  unfold execLeaseReq
  with_reducible repeat' first | rfl | intro _ | apply keepsLoft_running | apply keepsLoft_next
                               | refine (laneFrame_loft _ _ _ _ _ ?_ ?_).trans ?_ | refine (State.updCas_loft ..).trans ?_
                               | refine (grantLease_loft ..).trans ?_ | refine (sendTo_loft ..).trans ?_
                               | refine (pair_loft (by assumption)).trans ?_ | refine (triple_loft (by assumption)).trans ?_ | split | dsimp only

theorem execLeaseGrant_loft (rx : LaneRx) (s : State) :
    keepsLoft s (execLeaseGrant rx s) := by
  unfold execLeaseGrant
  with_reducible repeat' first | rfl | intro _ | apply keepsLoft_running | apply keepsLoft_next
                               | refine (laneFrame_loft _ _ _ _ _ ?_ ?_).trans ?_ | refine (State.updCas_loft ..).trans ?_
                               | refine (takeLease_loft ..).trans ?_ | split | dsimp only

theorem copyDone_memWf (x : Sub) (status : Nat) (s : State) (h_s : memWf s.loft.mem = true) :
    memWf (copyDone x status s).loft.mem = true := by
  unfold copyDone
  with_reducible repeat' first | assumption | intro _ | apply completeSub_memWf | apply unpin_memWf | split | dsimp only

theorem copyRun_memWf (n t : Nat) (d : Bytes) (s : State) (h_s : memWf s.loft.mem = true) :
    memWf (copyRun n t d s).loft.mem = true := by
  unfold copyRun
  with_reducible repeat' first | assumption | intro _ | apply completeSub_memWf | apply pin_memWf
                               | refine memWf_of (State.updCas_loft ..) ?_ | refine memWf_of (sendTo_loft ..) ?_ | split | dsimp only

@[simp] theorem copyAck_loft (pos tag status : Nat) (s : State) :
    (copyAck pos tag status s).loft = s.loft := by simp [copyAck]

theorem serveCopy_memWf (origin : Nat) (p : Bytes) (s : State) (h_s : memWf s.loft.mem = true) :
    memWf (serveCopy origin p s).loft.mem = true := by
  unfold serveCopy
  with_reducible repeat' first | assumption | intro _ | refine memWf_of (copyAck_loft ..) ?_ | apply loftWrite_memWf | apply pin_memWf
                               | refine memWf_of (State.updCas_loft ..) ?_ | refine memWf_of (sendTo_loft ..) ?_ | split | dsimp only

theorem onCopy_memWf (origin : Nat) (p : Bytes) (s : State) (h_s : memWf s.loft.mem = true) :
    memWf (onCopy origin p s).loft.mem = true := by
  unfold onCopy
  with_reducible repeat' first | assumption | intro _ | apply serveCopy_memWf | refine memWf_of (copyAck_loft ..) ?_ | apply copyDone_memWf
                               | apply loftWrite_memWf | split | dsimp only

theorem execCopy_memWf (rx : LaneRx) (s : State) (h_s : memWf s.loft.mem = true) :
    keepsMem (execCopy rx s) := by
  unfold execCopy
  with_reducible repeat' first | assumption | intro _ | apply keepsMem_running | apply keepsMem_next | apply laneRow_memWf
                               | apply onCopy_memWf | split | dsimp only

theorem onCopyAck_memWf (origin : Nat) (p : Bytes) (s : State) (h_s : memWf s.loft.mem = true) :
    memWf (onCopyAck origin p s).loft.mem = true := by
  unfold onCopyAck
  with_reducible repeat' first | assumption | intro _ | apply copyDone_memWf | apply unpin_memWf
                               | refine memWf_of (State.updCas_loft ..) ?_ | split | dsimp only

theorem execCopyAck_memWf (rx : LaneRx) (s : State) (h_s : memWf s.loft.mem = true) :
    keepsMem (execCopyAck rx s) := by
  unfold execCopyAck
  with_reducible repeat' first | assumption | intro _ | apply keepsMem_running | apply keepsMem_next | apply laneRow_memWf
                               | apply onCopyAck_memWf | split | dsimp only

@[simp] theorem sendImage_loft (img : Bytes) (x0 : Nat) (x1 : Nat) (x2 : State) :
    (sendImage img x0 x1 x2).loft = x2.loft := by
  induction x0 generalizing x1 x2 with
  | zero => rfl
  | succ n ih =>
    unfold sendImage
    with_reducible repeat' first | rfl | intro _ | refine (ih ..).trans ?_ | refine (laneSend_loft ..).trans ?_ | split | dsimp only

theorem execImageReq_loft (rx : LaneRx) (s : State) :
    keepsLoft s (execImageReq rx s) := by
  unfold execImageReq
  with_reducible repeat' first | rfl | intro _ | apply keepsLoft_running | apply keepsLoft_next | apply laneRow_loft
                               | refine (askRate_loft ..).trans ?_ | refine (sendImage_loft ..).trans ?_ | split | dsimp only

theorem execImage_memWf (rx : LaneRx) (s : State) (h_s : memWf s.loft.mem = true) :
    keepsMem (execImage rx s) := by
  unfold execImage
  with_reducible repeat' first | assumption | intro _ | apply keepsMem_running | apply keepsMem_next | apply laneRow_memWf
                               | apply loftWrite_memWf | refine memWf_of (State.updCas_loft ..) ?_ | split | dsimp only

theorem execImageReqRetry_loft (waitedUs : Nat) (s : State) :
    keepsLoft s (execImageReqRetry waitedUs s) := by
  unfold execImageReqRetry
  with_reducible repeat' first | rfl | intro _ | apply keepsLoft_running | apply keepsLoft_next | refine (laneSend_loft ..).trans ?_
                               | split | dsimp only

theorem onCredit_memWf (l ack : Nat) (nak : Bool) (cs : List Nat) (s : State) (h_s : memWf s.loft.mem = true) :
    memWf (onCredit l ack nak cs s).loft.mem = true := by
  unfold onCredit
  with_reducible repeat' first | assumption | intro _ | refine memWf_of (State.updLane_loft ..) ?_ | refine memWf_of (pumpLane_loft ..) ?_
                               | refine memWf_of (rateDue_loft ..) ?_ | apply resend_memWf | split | dsimp only

theorem execCredit_memWf (lane : Fin 2) (ack : Nat) (nak : Bool) (c0 c1 c2 c3 : Nat) (s : State) (h_s : memWf s.loft.mem = true) :
    keepsMem (execCredit lane ack nak c0 c1 c2 c3 s) := by
  unfold execCredit
  with_reducible repeat' first | assumption | intro _ | apply keepsMem_running | apply keepsMem_next | apply onCredit_memWf | split | dsimp only

theorem execAckTimeout_memWf (lane : Fin 2) (waitedUs : Nat) (s : State) (h_s : memWf s.loft.mem = true) :
    keepsMem (execAckTimeout lane waitedUs s) := by
  unfold execAckTimeout
  with_reducible repeat' first | assumption | intro _ | apply keepsMem_running | apply keepsMem_next | apply resend_memWf | split | dsimp only

theorem execLaneLinkUp_loft (lane : Fin 2) (lockMs : Nat) (credit : Bool) (s : State) :
    keepsLoft s (execLaneLinkUp lane lockMs credit s) := by
  unfold execLaneLinkUp
  with_reducible repeat' first | rfl | intro _ | apply keepsLoft_running | apply keepsLoft_next | refine (raiseSrc_loft ..).trans ?_
                               | refine (setRate_loft ..).trans ?_ | refine (State.updLane_loft ..).trans ?_
                               | refine (pumpLane_loft ..).trans ?_ | refine (laneCount_loft ..).trans ?_
                               | refine (emitResent_loft ..).trans ?_ | refine (sendDiscover_loft ..).trans ?_
                               | refine (askLease_loft ..).trans ?_ | split | dsimp only

theorem execLaneLinkDown_memWf (lane : Fin 2) (s : State) (h_s : memWf s.loft.mem = true) :
    keepsMem (execLaneLinkDown lane s) := by
  unfold execLaneLinkDown
  with_reducible repeat' first | assumption | intro _ | apply keepsMem_running | apply keepsMem_next | apply linkDown_memWf | split | dsimp only

theorem execRateIdle_loft (lane : Fin 2) (use forS : Nat) (s : State) :
    keepsLoft s (execRateIdle lane use forS s) := by
  unfold execRateIdle
  with_reducible repeat' first | rfl | intro _ | apply keepsLoft_running | apply keepsLoft_next | refine (askRate_loft ..).trans ?_ | split
                               | dsimp only

theorem execReqDown_loft (lane : Fin 2) (count use forS : Nat) (s : State) :
    keepsLoft s (execReqDown lane count use forS s) := by
  unfold execReqDown
  with_reducible repeat' first | rfl | intro _ | apply keepsLoft_running | apply keepsLoft_next | refine (rateBlock_loft ..).trans ?_
                               | refine (State.updLane_loft ..).trans ?_ | split | dsimp only

theorem execReqUp_loft (lane : Fin 2) (count : Nat) (s : State) :
    keepsLoft s (execReqUp lane count s) := by
  unfold execReqUp
  with_reducible repeat' first | rfl | intro _ | apply keepsLoft_running | apply keepsLoft_next | refine (rateBlock_loft ..).trans ?_
                               | refine (State.updLane_loft ..).trans ?_ | split | dsimp only

theorem execAckDown_loft (lane : Fin 2) (_count : Nat) (s : State) :
    keepsLoft s (execAckDown lane _count s) := by
  unfold execAckDown
  with_reducible repeat' first | rfl | intro _ | apply keepsLoft_running | apply keepsLoft_next | refine (State.updLane_loft ..).trans ?_
                               | split | dsimp only

theorem execAckUp_loft (lane : Fin 2) (_count : Nat) (s : State) :
    keepsLoft s (execAckUp lane _count s) := by
  unfold execAckUp
  with_reducible repeat' first | rfl | intro _ | apply keepsLoft_running | apply keepsLoft_next | refine (State.updLane_loft ..).trans ?_
                               | split | dsimp only

theorem execRefuse_loft (lane : Fin 2) (s : State) :
    keepsLoft s (execRefuse lane s) := by
  apply keepsLoft_running; simp

theorem execRateStepUpDemand_loft (lane : Fin 2) (queued waitUs use : Nat) (s : State) :
    keepsLoft s (execRateStepUpDemand lane queued waitUs use s) := by
  unfold execRateStepUpDemand
  with_reducible repeat' first | rfl | intro _ | apply keepsLoft_running | apply keepsLoft_next | refine (askRate_loft ..).trans ?_ | split
                               | dsimp only

theorem execRateSwitch_loft (lane : Fin 2) (s : State) :
    keepsLoft s (execRateSwitch lane s) := by
  unfold execRateSwitch
  with_reducible repeat' first | rfl | intro _ | apply keepsLoft_running | apply keepsLoft_next | refine (laneCount_loft ..).trans ?_
                               | refine (setRate_loft ..).trans ?_ | refine (State.updLane_loft ..).trans ?_ | split | dsimp only

theorem execRateRelock_memWf (lane : Fin 2) (locked : Bool) (us : Nat) (s : State) (h_s : memWf s.loft.mem = true) :
    keepsMem (execRateRelock lane locked us s) := by
  unfold execRateRelock
  with_reducible repeat' first | assumption | intro _ | apply keepsMem_running | apply keepsMem_next | apply linkDown_memWf
                               | refine memWf_of (pumpLane_loft ..) ?_ | refine memWf_of (State.updLane_loft ..) ?_ | split | dsimp only

@[simp] theorem chained_loft (f : State → Nat → Bytes → Reply) (s : State) (t : Nat) (p : Bytes) (h_f : ∀ s t p, (f s t p).state.loft = s.loft) :
    (chained f s t p).state.loft = s.loft := by
  unfold chained
  with_reducible repeat' first | rfl | intro _ | apply h_f | split | dsimp only [Reply.state_done, Reply.state_accept, Reply.state_silent]

theorem chained_memWf (f : State → Nat → Bytes → Reply) (s : State) (t : Nat) (p : Bytes) (h_s : memWf s.loft.mem = true)
        (h_f : ∀ s t p, memWf s.loft.mem = true → memWf (f s t p).state.loft.mem = true) :
    memWf (chained f s t p).state.loft.mem = true := by
  unfold chained
  with_reducible repeat' first | assumption | intro _ | apply h_f | split | dsimp only [Reply.state_done, Reply.state_accept, Reply.state_silent]

@[simp] theorem cmdCasGetStatus_loft  (s : State) (t : Nat) (p : Bytes) :
    (Cmd.run cmdCasGetStatus s t p).state.loft = s.loft := by simp [cmdCasGetStatus]

@[simp] theorem cmdCasLaneSet_loft  (s : State) (t : Nat) (p : Bytes) :
    (Cmd.run cmdCasLaneSet s t p).state.loft = s.loft := by
  unfold cmdCasLaneSet
  with_reducible repeat' first | rfl | intro _ | refine (chained_loft _ _ _ _ ?_).trans ?_ | refine (State.updLane_loft ..).trans ?_
                               | refine (pumpLane_loft ..).trans ?_ | refine (askRate_loft ..).trans ?_ | split
                               | dsimp only [Reply.state_done, Reply.state_accept, Reply.state_silent]

@[simp] theorem cmdCasAsymSet_loft  (s : State) (t : Nat) (p : Bytes) :
    (Cmd.run cmdCasAsymSet s t p).state.loft = s.loft := by
  unfold cmdCasAsymSet
  with_reducible repeat' first | rfl | intro _ | refine (chained_loft _ _ _ _ ?_).trans ?_ | refine (State.updCas_loft ..).trans ?_ | split
                               | dsimp only [Reply.state_done, Reply.state_accept, Reply.state_silent]

@[simp] theorem cmdCasCalRun_loft  (s : State) (t : Nat) (p : Bytes) :
    (Cmd.run cmdCasCalRun s t p).state.loft = s.loft := by
  unfold cmdCasCalRun
  with_reducible repeat' first | rfl | intro _ | refine (chained_loft _ _ _ _ ?_).trans ?_ | refine (armTimIn_loft ..).trans ?_
                               | refine (State.updCas_loft ..).trans ?_ | split
                               | dsimp only [Reply.state_done, Reply.state_accept, Reply.state_silent]

theorem execCasCalRunEnd_memWf (errs : List (Option Int)) (s : State) (h_s : memWf s.loft.mem = true) :
    keepsMem (execCasCalRunEnd errs s) := by
  unfold execCasCalRunEnd
  with_reducible repeat' first | assumption | intro _ | apply keepsMem_running | apply keepsMem_next
                               | refine memWf_of (armTimIn_loft ..) ?_ | refine memWf_of (State.updCas_loft ..) ?_
                               | apply completeJob_memWf | apply completeResult_memWf | split | dsimp only

@[simp] theorem cmdCasForwardSet_loft  (s : State) (t : Nat) (p : Bytes) :
    (Cmd.run cmdCasForwardSet s t p).state.loft = s.loft := by
  unfold cmdCasForwardSet
  with_reducible repeat' first | rfl | intro _ | refine (chained_loft _ _ _ _ ?_).trans ?_ | refine (State.updCas_loft ..).trans ?_ | split
                               | dsimp only [Reply.state_done, Reply.state_accept, Reply.state_silent]

@[simp] theorem cmdCasHandback_loft  (s : State) (t : Nat) (p : Bytes) :
    (Cmd.run cmdCasHandback s t p).state.loft = s.loft := by
  unfold cmdCasHandback
  with_reducible repeat' first | rfl | intro _ | refine (chained_loft _ _ _ _ ?_).trans ?_ | refine (laneSend_loft ..).trans ?_
                               | refine (State.updCas_loft ..).trans ?_ | split
                               | dsimp only [Reply.state_done, Reply.state_accept, Reply.state_silent]

@[simp] theorem cmdCasCounters_loft  (s : State) (t : Nat) (p : Bytes) :
    (Cmd.run cmdCasCounters s t p).state.loft = s.loft := by
  unfold cmdCasCounters
  with_reducible repeat' first | rfl | intro _ | refine (chained_loft _ _ _ _ ?_).trans ?_ | split
                               | dsimp only [Reply.state_done, Reply.state_accept, Reply.state_silent]

theorem execCasGetStatus_loft (c : Call) (s : State) :
    keepsLoft s (execCasGetStatus c s) := by
  apply keepsLoft_running; simp

theorem execCasLaneSet_loft (c : Call) (s : State) :
    keepsLoft s (execCasLaneSet c s) := by
  apply keepsLoft_running; simp

theorem execCasAsymSet_loft (c : Call) (s : State) :
    keepsLoft s (execCasAsymSet c s) := by
  apply keepsLoft_running; simp

theorem execCasCalRun_loft (c : Call) (s : State) :
    keepsLoft s (execCasCalRun c s) := by
  apply keepsLoft_running; simp

theorem execCasForwardSet_loft (c : Call) (s : State) :
    keepsLoft s (execCasForwardSet c s) := by
  apply keepsLoft_running; simp

theorem execCasHandback_loft (c : Call) (s : State) :
    keepsLoft s (execCasHandback c s) := by
  apply keepsLoft_running; simp

theorem execCasCounters_loft (c : Call) (s : State) :
    keepsLoft s (execCasCounters c s) := by
  apply keepsLoft_running; simp

/-! ### Recorder.lean -/

@[simp] theorem windowFetch_loft (t : Nat) (s : State) :
    (windowFetch t s).loft = s.loft := by simp [windowFetch]

@[simp] theorem writeSeqLo_loft (t v : Nat) (s : State) :
    (writeSeqLo t v s).loft = s.loft := by
  unfold writeSeqLo
  with_reducible repeat' first | rfl | intro _ | refine (windowFetch_loft ..).trans ?_ | refine (State.updRec_loft ..).trans ?_ | split | dsimp only

theorem execBrcReadSeqLo_loft (t : Fin 8) (value : BitVec 32) (s : State) :
    keepsLoft s (execBrcReadSeqLo t value s) := by
  apply keepsLoft_running; simp

@[simp] theorem data15Read_loft (t : Nat) (s : State) :
    (data15Read t s).loft = s.loft := by
  unfold data15Read
  with_reducible repeat' first | rfl | intro _ | refine (windowFetch_loft ..).trans ?_ | refine (State.updRec_loft ..).trans ?_ | split | dsimp only

theorem execBrcData15Read_loft (t : Fin 8) (s : State) :
    keepsLoft s (execBrcData15Read t s) := by
  unfold execBrcData15Read
  with_reducible repeat' first | rfl | intro _ | apply keepsLoft_running | apply keepsLoft_next | refine (data15Read_loft ..).trans ?_
                               | refine (State.emit_loft ..).trans ?_ | split | dsimp only

@[simp] theorem persistPointer_loft (s : State) :
    (persistPointer s).loft = s.loft := by simp [persistPointer]

@[simp] theorem burnTally_loft (s : State) :
    (burnTally s).loft = s.loft := by
  unfold burnTally
  with_reducible repeat' first | rfl | intro _ | refine (raiseSrc_loft ..).trans ?_ | refine (State.updBoot_loft ..).trans ?_
                               | refine (State.emit_loft ..).trans ?_ | split | dsimp only

theorem straightToChronicle_memWf (x : Record) (s : State) (h_s : memWf s.loft.mem = true) :
    memWf (straightToChronicle x s).loft.mem = true := by
  unfold straightToChronicle
  with_reducible repeat' first | assumption | intro _ | refine memWf_of (State.updRec_loft ..) ?_ | apply openSector_memWf | split | dsimp only

theorem nvmFault_memWf (bank : Nat) (s : State) (h_s : memWf s.loft.mem = true) :
    memWf (nvmFault bank s).loft.mem = true := by
  unfold nvmFault
  with_reducible repeat' first | assumption | intro _ | apply straightToChronicle_memWf | refine memWf_of (enterRecord_loft ..) ?_
                               | refine memWf_of (recorderWatch_loft ..) ?_ | refine memWf_of (raiseSrc_loft ..) ?_
                               | refine memWf_of (burnTally_loft ..) ?_ | refine memWf_of (State.updRec_loft ..) ?_ | split | dsimp only

@[simp] theorem journalOne_loft (s : State) :
    (journalOne s).loft = s.loft := by
  unfold journalOne
  with_reducible repeat' first | rfl | intro _ | refine (State.updRec_loft ..).trans ?_ | refine (record_loft ..).trans ?_ | split | dsimp only

theorem execJournalSlotWrite_memWf (ok : Bool) (bankFault : Option (Fin 2)) (s : State) (h_s : memWf s.loft.mem = true) :
    keepsMem (execJournalSlotWrite ok bankFault s) := by
  unfold execJournalSlotWrite
  with_reducible repeat' first | assumption | intro _ | apply keepsMem_running | apply keepsMem_next
                               | refine memWf_of (syncChron_loft ..) ?_ | apply nvmFault_memWf | refine memWf_of (State.updRec_loft ..) ?_
                               | refine memWf_of (recorderWatch_loft ..) ?_ | refine memWf_of (journalOne_loft ..) ?_
                               | refine memWf_of (crumb_loft ..) ?_ | split | dsimp only

theorem execRecordsDropped_loft (s : State) :
    keepsLoft s (execRecordsDropped s) := by
  unfold execRecordsDropped
  with_reducible repeat' first | rfl | intro _ | apply keepsLoft_running | apply keepsLoft_next | refine (crumb_loft ..).trans ?_
                               | refine (State.updRec_loft ..).trans ?_ | split | dsimp only

@[simp] theorem flushStaging_loft (s : State) :
    (flushStaging s).loft = s.loft := by
  unfold flushStaging
  with_reducible repeat' first | rfl | intro _ | refine (repeat_loft ?_ _ _).trans ?_ | refine (persistPointer_loft ..).trans ?_
                               | refine (journalOne_loft ..).trans ?_ | refine (syncChron_loft ..).trans ?_ | split | dsimp only

theorem fillSector_memWf (s : State) (h_s : memWf s.loft.mem = true) :
    memWf (fillSector s).loft.mem = true := by
  unfold fillSector
  with_reducible repeat' first | assumption | intro _ | refine memWf_of (State.updRec_loft ..) ?_ | apply openSector_memWf
                               | refine memWf_of (raiseSrc_loft ..) ?_ | split | dsimp only

theorem sectorWritten_memWf (okA okB : Bool) (s : State) (h_s : memWf s.loft.mem = true) :
    memWf (sectorWritten okA okB s).loft.mem = true := by
  unfold sectorWritten
  with_reducible repeat' first | assumption | intro _ | refine memWf_of (State.updRec_loft ..) ?_ | apply openSector_memWf
                               | refine memWf_of (crumb_loft ..) ?_ | refine memWf_of (recorderWatch_loft ..) ?_
                               | refine memWf_of (persistPointer_loft ..) ?_ | split | dsimp only

theorem execChronicleSectorWrite_memWf (okA okB : Bool) (waitedUs : Nat) (s : State) (h_s : memWf s.loft.mem = true) :
    keepsMem (execChronicleSectorWrite okA okB waitedUs s) := by
  unfold execChronicleSectorWrite
  with_reducible repeat' first | assumption | intro _ | apply keepsMem_running | apply keepsMem_next
                               | refine memWf_of (syncChron_loft ..) ?_ | apply fillSector_memWf | apply sectorWritten_memWf | split | dsimp only

theorem execChronicleStarted_memWf (s : State) (h_s : memWf s.loft.mem = true) :
    keepsMem (execChronicleStarted s) := by
  unfold execChronicleStarted
  with_reducible repeat' first | assumption | intro _ | apply keepsMem_running | apply keepsMem_next
                               | refine memWf_of (State.updRec_loft ..) ?_ | apply openSector_memWf | refine memWf_of (crumb_loft ..) ?_
                               | refine memWf_of (persistPointer_loft ..) ?_ | refine memWf_of (syncChron_loft ..) ?_ | split | dsimp only

theorem execChronicleLag_loft (waitedS : Nat) (s : State) :
    keepsLoft s (execChronicleLag waitedS s) := by
  unfold execChronicleLag
  with_reducible repeat' first | rfl | intro _ | apply keepsLoft_running | apply keepsLoft_next | refine (raiseSrc_loft ..).trans ?_
                               | refine (State.updRec_loft ..).trans ?_ | split | dsimp only

theorem execTightLeft_loft (forS : Nat) (s : State) :
    keepsLoft s (execTightLeft forS s) := by
  unfold execTightLeft
  with_reducible repeat' first | rfl | intro _ | apply keepsLoft_running | apply keepsLoft_next | refine (syncChron_loft ..).trans ?_
                               | refine (crumb_loft ..).trans ?_ | refine (State.updRec_loft ..).trans ?_ | split | dsimp only

@[simp] theorem cmdBrcGetStatus_loft  (s : State) (t : Nat) (p : Bytes) :
    (Cmd.run cmdBrcGetStatus s t p).state.loft = s.loft := by simp [cmdBrcGetStatus]

theorem cmdBrcRead_memWf  (s : State) (t : Nat) (p : Bytes) (h_s : memWf s.loft.mem = true) :
    memWf (Cmd.run cmdBrcRead s t p).state.loft.mem = true := by
  unfold cmdBrcRead
  with_reducible repeat' first | assumption | intro _ | apply pin_memWf | apply loftWrite_memWf | split
                               | dsimp only [Reply.state_done, Reply.state_accept, Reply.state_silent]

theorem cmdBrcFind_memWf  (s : State) (t : Nat) (p : Bytes) (h_s : memWf s.loft.mem = true) :
    memWf (Cmd.run cmdBrcFind s t p).state.loft.mem = true := by
  unfold cmdBrcFind
  with_reducible repeat' first | assumption | intro _ | refine memWf_of (record_loft ..) ?_ | apply pin_memWf | apply loftWrite_memWf
                               | split | dsimp only [Reply.state_done, Reply.state_accept, Reply.state_silent]

@[simp] theorem cmdBrcWrite_loft  (s : State) (t : Nat) (p : Bytes) :
    (Cmd.run cmdBrcWrite s t p).state.loft = s.loft := by
  unfold cmdBrcWrite
  with_reducible repeat' first | rfl | intro _ | refine (record_loft ..).trans ?_ | refine (State.updRec_loft ..).trans ?_ | split
                               | dsimp only [Reply.state_done, Reply.state_accept, Reply.state_silent]

@[simp] theorem cmdBrcCollected_loft  (s : State) (t : Nat) (p : Bytes) :
    (Cmd.run cmdBrcCollected s t p).state.loft = s.loft := by
  unfold cmdBrcCollected
  with_reducible repeat' first | rfl | intro _ | refine (persistPointer_loft ..).trans ?_ | refine (State.updRec_loft ..).trans ?_ | split
                               | dsimp only [Reply.state_done, Reply.state_accept, Reply.state_silent]

@[simp] theorem cmdBrcNvmRetest_loft  (s : State) (t : Nat) (p : Bytes) :
    (Cmd.run cmdBrcNvmRetest s t p).state.loft = s.loft := by
  unfold cmdBrcNvmRetest
  with_reducible repeat' first | rfl | intro _ | split | dsimp only [Reply.state_done, Reply.state_accept, Reply.state_silent]

theorem retestEnd_memWf (j : Job) (fail : Option Nat) (slots : List Nat) (s : State) (h_s : memWf s.loft.mem = true) :
    memWf (retestEnd j fail slots s).loft.mem = true := by
  unfold retestEnd
  with_reducible repeat' first | assumption | intro _ | refine foldl_memWf ?_ _ _ ?_ | apply completeJob_memWf
                               | refine memWf_of (crumb_loft ..) ?_ | refine memWf_of (State.updRec_loft ..) ?_ | split | dsimp only

theorem execBrcGetStatus_loft (c : Call) (s : State) :
    keepsLoft s (execBrcGetStatus c s) := by
  apply keepsLoft_running; simp

theorem execBrcRead_memWf (c : Call) (s : State) (h_s : memWf s.loft.mem = true) :
    keepsMem (execBrcRead c s) := by
  unfold execBrcRead
  with_reducible repeat' first | assumption | intro _ | apply keepsMem_running | apply keepsMem_next | apply command_memWf
                               | apply cmdBrcRead_memWf | split | dsimp only

theorem execBrcFind_memWf (c : Call) (s : State) (h_s : memWf s.loft.mem = true) :
    keepsMem (execBrcFind c s) := by
  unfold execBrcFind
  with_reducible repeat' first | assumption | intro _ | apply keepsMem_running | apply keepsMem_next | apply command_memWf
                               | apply cmdBrcFind_memWf | split | dsimp only

theorem execBrcWrite_loft (c : Call) (s : State) :
    keepsLoft s (execBrcWrite c s) := by
  apply keepsLoft_running; simp

theorem execBrcCollected_loft (c : Call) (s : State) :
    keepsLoft s (execBrcCollected c s) := by
  apply keepsLoft_running; simp

theorem execBrcNvmRetest_loft (c : Call) (s : State) :
    keepsLoft s (execBrcNvmRetest c s) := by
  apply keepsLoft_running; simp

theorem execRecord_loft (rx : LaneRx) (s : State) :
    keepsLoft s (execRecord rx s) := by
  unfold execRecord
  with_reducible repeat' first | rfl | intro _ | apply keepsLoft_running | apply keepsLoft_next | apply laneRow_loft
                               | refine (record_loft ..).trans ?_ | split | dsimp only

theorem execRecordForward_loft (s : State) :
    keepsLoft s (execRecordForward s) := by
  unfold execRecordForward
  with_reducible repeat' first | rfl | intro _ | apply keepsLoft_running | apply keepsLoft_next | refine (sendTo_loft ..).trans ?_
                               | refine (State.updCas_loft ..).trans ?_ | split | dsimp only

/-! ### Keys.lean -/

@[simp] theorem loadSlot_loft (op i kind : Nat) (material : Bytes) (users : Nat) (form : Bool) (name origin : Nat) (s : State) :
    (loadSlot op i kind material users form name origin s).loft = s.loft := by simp [loadSlot]

@[simp] theorem loadReply_loft (i : Nat) (before after : State) :
    (loadReply i before after).state.loft = after.loft := by
  unfold loadReply
  with_reducible repeat' first | rfl | intro _ | split | dsimp only [Reply.state_done, Reply.state_accept, Reply.state_silent]

@[simp] theorem cmdKeyGetInfo_loft  (s : State) (t : Nat) (p : Bytes) :
    (Cmd.run cmdKeyGetInfo s t p).state.loft = s.loft := by simp [cmdKeyGetInfo]

@[simp] theorem cmdKeyDerive_loft  (s : State) (t : Nat) (p : Bytes) :
    (Cmd.run cmdKeyDerive s t p).state.loft = s.loft := by
  unfold cmdKeyDerive
  with_reducible repeat' first | rfl | intro _ | refine (loadReply_loft ..).trans ?_ | refine (loadSlot_loft ..).trans ?_ | split
                               | dsimp only [Reply.state_done, Reply.state_accept, Reply.state_silent]

@[simp] theorem importLoad_loft (p material : Bytes) (before s : State) :
    (importLoad p material before s).state.loft = s.loft := by
  unfold importLoad
  with_reducible repeat' first | rfl | intro _ | refine (loadReply_loft ..).trans ?_ | refine (loadSlot_loft ..).trans ?_ | split
                               | dsimp only [Reply.state_done, Reply.state_accept, Reply.state_silent]

@[simp] theorem importWrapped_loft (p : Bytes) (s : State) :
    (importWrapped p s).state.loft = s.loft := by
  unfold importWrapped
  with_reducible repeat' first | rfl | intro _ | refine (keyStart_loft ..).trans ?_ | refine (keyEnd_loft ..).trans ?_
                               | refine (crumb_loft ..).trans ?_ | refine (State.updKeys_loft ..).trans ?_
                               | refine (importLoad_loft ..).trans ?_ | refine (pair_loft (by assumption)).trans ?_
                               | refine (triple_loft (by assumption)).trans ?_ | split
                               | dsimp only [Reply.state_done, Reply.state_accept, Reply.state_silent]

@[simp] theorem cmdKeyImport_loft  (s : State) (t : Nat) (p : Bytes) :
    (Cmd.run cmdKeyImport s t p).state.loft = s.loft := by
  unfold cmdKeyImport
  with_reducible repeat' first | rfl | intro _ | refine (importWrapped_loft ..).trans ?_ | refine (importLoad_loft ..).trans ?_ | split
                               | dsimp only [Reply.state_done, Reply.state_accept, Reply.state_silent]

@[simp] theorem cmdKeyErase_loft  (s : State) (t : Nat) (p : Bytes) :
    (Cmd.run cmdKeyErase s t p).state.loft = s.loft := by
  unfold cmdKeyErase
  with_reducible repeat' first | rfl | intro _ | refine (raiseCrumb_loft ..).trans ?_ | refine (State.updKey_loft ..).trans ?_ | split
                               | dsimp only [Reply.state_done, Reply.state_accept, Reply.state_silent]

@[simp] theorem cmdKeySetUsers_loft  (s : State) (t : Nat) (p : Bytes) :
    (Cmd.run cmdKeySetUsers s t p).state.loft = s.loft := by simp [cmdKeySetUsers]

theorem cmdKeyWrap_memWf  (s : State) (t : Nat) (p : Bytes) (h_s : memWf s.loft.mem = true) :
    memWf (Cmd.run cmdKeyWrap s t p).state.loft.mem = true := by
  unfold cmdKeyWrap
  with_reducible repeat' first | assumption | intro _ | refine memWf_of (keyStart_loft ..) ?_ | apply loftWrite_memWf
                               | refine memWf_of (keyEnd_loft ..) ?_ | refine pair_memWf (by assumption) ?_
                               | refine triple_memWf (by assumption) ?_ | split
                               | dsimp only [Reply.state_done, Reply.state_accept, Reply.state_silent]

@[simp] theorem cmdKeyClaimSet_loft  (s : State) (t : Nat) (p : Bytes) :
    (Cmd.run cmdKeyClaimSet s t p).state.loft = s.loft := by simp [cmdKeyClaimSet]

@[simp] theorem unlockScan_loft (s : State) :
    (unlockScan s).loft = s.loft := by
  unfold unlockScan
  with_reducible repeat' first | rfl | intro _ | refine (raiseCrumb_loft ..).trans ?_ | refine (State.updKeys_loft ..).trans ?_ | split | dsimp only

@[simp] theorem cmdKeyDebugUnlock_loft  (s : State) (t : Nat) (p : Bytes) :
    (Cmd.run cmdKeyDebugUnlock s t p).state.loft = s.loft := by
  unfold cmdKeyDebugUnlock
  with_reducible repeat' first | rfl | intro _ | refine (unlockScan_loft ..).trans ?_ | split
                               | dsimp only [Reply.state_done, Reply.state_accept, Reply.state_silent]

@[simp] theorem cmdKeyGetStatus_loft  (s : State) (t : Nat) (p : Bytes) :
    (Cmd.run cmdKeyGetStatus s t p).state.loft = s.loft := by simp [cmdKeyGetStatus]

theorem execKeyGetInfo_loft (c : Call) (s : State) :
    keepsLoft s (execKeyGetInfo c s) := by
  apply keepsLoft_running; simp

theorem execKeyDerive_loft (c : Call) (s : State) :
    keepsLoft s (execKeyDerive c s) := by
  apply keepsLoft_running; simp

theorem execKeyImport_loft (c : Call) (s : State) :
    keepsLoft s (execKeyImport c s) := by
  apply keepsLoft_running; simp

theorem execKeyErase_loft (c : Call) (s : State) :
    keepsLoft s (execKeyErase c s) := by
  apply keepsLoft_running; simp

theorem execKeySetUsers_loft (c : Call) (s : State) :
    keepsLoft s (execKeySetUsers c s) := by
  apply keepsLoft_running; simp

theorem execKeyWrap_memWf (c : Call) (s : State) (h_s : memWf s.loft.mem = true) :
    keepsMem (execKeyWrap c s) := by
  unfold execKeyWrap
  with_reducible repeat' first | assumption | intro _ | apply keepsMem_running | apply keepsMem_next | apply command_memWf
                               | apply cmdKeyWrap_memWf | split | dsimp only

theorem execKeyClaimSet_loft (c : Call) (s : State) :
    keepsLoft s (execKeyClaimSet c s) := by
  apply keepsLoft_running; simp

theorem execKeyDebugUnlock_loft (c : Call) (s : State) :
    keepsLoft s (execKeyDebugUnlock c s) := by
  apply keepsLoft_running; simp

theorem execKeyGetStatus_loft (c : Call) (s : State) :
    keepsLoft s (execKeyGetStatus c s) := by
  apply keepsLoft_running; simp

theorem zeroiseRetiring_memWf (i : Nat) (s : State) (h_s : memWf s.loft.mem = true) :
    memWf (zeroiseRetiring i s).loft.mem = true := by
  unfold zeroiseRetiring
  with_reducible repeat' first | assumption | intro _ | apply finish_memWf | refine memWf_of (crumb_loft ..) ?_
                               | refine memWf_of (State.updKey_loft ..) ?_ | split | dsimp only

theorem execRetiringZeroise_memWf (i : Fin 16) (s : State) (h_s : memWf s.loft.mem = true) :
    keepsMem (execRetiringZeroise i s) := by
  unfold execRetiringZeroise
  with_reducible repeat' first | assumption | intro _ | apply keepsMem_running | apply keepsMem_next | apply zeroiseRetiring_memWf | split
                               | dsimp only

theorem zeroiseAll_memWf (s : State) (h_s : memWf s.loft.mem = true) :
    memWf (zeroiseAll s).loft.mem = true := by
  unfold zeroiseAll
  with_reducible repeat' first | assumption | intro _ | refine foldl_memWf ?_ _ _ ?_ | apply zeroiseRetiring_memWf
                               | refine memWf_of (State.updKeys_loft ..) ?_ | split | dsimp only

@[simp] theorem claimDenied_loft (t op isl : Nat) (s : State) :
    (claimDenied t op isl s).loft = s.loft := by
  unfold claimDenied
  extract_lets s1 told
  cases told
  · exact (crumb_loft ..).trans rfl
  · rfl

end Sys2Proof.Machine
end

