-- ==== Sys2Proof/Laws/LoftDrive.lean ====
section
/-!
SUPPORT. The Loft through the disk queue, the motors, the timebase and the modes: for each function that leaves the Loft alone, that it does (`_loft`); for each that
may write it, that its memory keeps the canonical form (`_memWf`).
-/
namespace Sys2Proof.Machine
open Sys2Proof
set_option linter.all false

/-! ### DiskOps.lean -/

@[simp] theorem State_updCmd_loft (s : State) (id : Nat) (f : DiskCmd → DiskCmd) :
    (State.updCmd s id f).loft = s.loft := by simp [State.updCmd]

theorem poisonRange_memWf (a n : Nat) (s : State) (h_s : memWf s.loft.mem = true) :
    memWf (poisonRange a n s).loft.mem = true := by
  unfold poisonRange
  with_reducible repeat' first | assumption | intro _ | refine foldl_memWf ?_ _ _ ?_ | apply memWf_write | apply memWf_filter | rfl | split
                               | dsimp only [State.updLoft, Loft.setTag, Loft.clear, Loft.write]

theorem poisonUndelivered_memWf (c : DiskCmd) (s : State) (h_s : memWf s.loft.mem = true) :
    memWf (poisonUndelivered c s).loft.mem = true := by
  unfold poisonUndelivered
  with_reducible repeat' first | assumption | intro _ | refine foldl_memWf ?_ _ _ ?_ | apply memWf_write | apply memWf_filter | rfl
                               | apply poisonRange_memWf | split | dsimp only [State.updLoft, Loft.setTag, Loft.clear, Loft.write]

theorem endCmd_memWf (c : DiskCmd) (s : State) (h_s : memWf s.loft.mem = true) :
    memWf (endCmd c s).loft.mem = true := by
  unfold endCmd
  with_reducible repeat' first | assumption | intro _ | apply memWf_write | apply memWf_filter | rfl
                               | refine memWf_of (State_updCmd_loft ..) ?_ | refine memWf_of (State.updDsk_loft ..) ?_
                               | apply poisonUndelivered_memWf | refine memWf_of (keyEnd_loft ..) ?_ | apply unpinAll_memWf
                               | apply completeSub_memWf | split | dsimp only [State.updLoft, Loft.setTag, Loft.clear, Loft.write]

theorem abortCmd_memWf (status : Nat) (s : State) (id : Nat) (h_s : memWf s.loft.mem = true) :
    memWf (abortCmd status s id).loft.mem = true := by
  unfold abortCmd
  with_reducible repeat' first | assumption | intro _ | apply memWf_write | apply memWf_filter | rfl | apply endCmd_memWf
                               | refine memWf_of (State_updCmd_loft ..) ?_ | split | dsimp only [State.updLoft, Loft.setTag, Loft.clear, Loft.write]

theorem abortAll_memWf (status : Nat) (s : State) (h_s : memWf s.loft.mem = true) :
    memWf (abortAll status s).loft.mem = true := by
  unfold abortAll
  with_reducible repeat' first | assumption | intro _ | refine foldl_memWf ?_ _ _ ?_ | apply memWf_write | apply memWf_filter | rfl
                               | apply abortCmd_memWf | split | dsimp only [State.updLoft, Loft.setTag, Loft.clear, Loft.write]

theorem endAll_memWf (status : Nat) (s : State) (h_s : memWf s.loft.mem = true) :
    memWf (endAll status s).loft.mem = true := by
  unfold endAll
  with_reducible repeat' first | assumption | intro _ | refine foldl_memWf ?_ _ _ ?_ | apply memWf_write | apply memWf_filter | rfl
                               | apply endCmd_memWf | split | dsimp only [State.updLoft, Loft.setTag, Loft.clear, Loft.write]

@[simp] theorem putSector_loft (lba : Nat) (data : Bytes) (x : Stamp) (verified : Bool) (s : State) :
    (putSector lba data x verified s).loft = s.loft := by simp [putSector]

@[simp] theorem defectsHigh_loft (s : State) :
    (defectsHigh s).loft = s.loft := by
  unfold defectsHigh
  with_reducible repeat' first | rfl | intro _ | refine (crumbOf_loft ..).trans ?_ | refine (raiseSrc_loft ..).trans ?_
                               | refine (State.updChn_loft ..).trans ?_ | split | dsimp only

@[simp] theorem relocated_loft (lba : Nat) (s : State) :
    (relocated lba s).loft = s.loft := by simp [relocated]

@[simp] theorem verifyFailed_loft (first : Bool) (s : State) :
    (verifyFailed first s).loft = s.loft := by
  unfold verifyFailed
  with_reducible repeat' first | rfl | intro _ | refine (State.updChn_loft ..).trans ?_ | refine (raiseSrc_loft ..).trans ?_ | split | dsimp only

@[simp] theorem keyCount_loft (i load : Nat) (s : State) :
    (keyCount i load s).loft = s.loft := by simp [keyCount]

/-! ### DriveOps.lean -/

@[simp] theorem spinTo_loft (st : SpinState) (s : State) :
    (spinTo st s).loft = s.loft := by
  unfold spinTo
  with_reducible repeat' first | rfl | intro _ | refine (raiseSrc_loft ..).trans ?_ | refine (State.updA_loft ..).trans ?_ | split | dsimp only

@[simp] theorem driveStep_loft (ch step : Nat) (s : State) :
    (driveStep ch step s).loft = s.loft := by simp [driveStep]

theorem finishStart_memWf (status : Nat) (s : State) (h_s : memWf s.loft.mem = true) :
    memWf (finishStart status s).loft.mem = true := by
  unfold finishStart
  with_reducible repeat' first | assumption | intro _ | apply finishAll_memWf | split | dsimp only

theorem finishStop_memWf (status : Nat) (s : State) (h_s : memWf s.loft.mem = true) :
    memWf (finishStop status s).loft.mem = true := by
  unfold finishStop
  with_reducible repeat' first | assumption | intro _ | apply finishAll_memWf | split | dsimp only

@[simp] theorem emergencyBrake_loft (s : State) :
    (emergencyBrake s).loft = s.loft := by simp [emergencyBrake]

@[simp] theorem faultBrake_loft (s : State) :
    (faultBrake s).loft = s.loft := by simp [faultBrake]

@[simp] theorem decelA_loft (s : State) :
    (decelA s).loft = s.loft := by simp [decelA]

@[simp] theorem afterPark_loft (s : State) :
    (afterPark s).loft = s.loft := by
  unfold afterPark
  with_reducible repeat' first | rfl | intro _ | refine (faultBrake_loft ..).trans ?_ | refine (emergencyBrake_loft ..).trans ?_
                               | refine (decelA_loft ..).trans ?_ | split | dsimp only

@[simp] theorem paFrame_loft (read : Bool) (reg data : Nat) (s : State) :
    (paFrame read reg data s).loft = s.loft := by simp [paFrame]

@[simp] theorem paMode_loft (m : Nat) (s : State) :
    (paMode m s).loft = s.loft := by
  unfold paMode
  with_reducible repeat' first | rfl | intro _ | refine (paFrame_loft ..).trans ?_ | refine (State.updChn_loft ..).trans ?_ | split | dsimp only

@[simp] theorem closeGates_loft (s : State) :
    (closeGates s).loft = s.loft := by simp [closeGates]

@[simp] theorem indexLost_loft (s : State) :
    (indexLost s).loft = s.loft := by
  unfold indexLost
  with_reducible repeat' first | rfl | intro _ | refine (State.updA_loft ..).trans ?_ | refine (spinTo_loft ..).trans ?_ | split | dsimp only

theorem startUnload_memWf (s : State) (h_s : memWf s.loft.mem = true) :
    memWf (startUnload s).loft.mem = true := by
  unfold startUnload
  with_reducible repeat' first | assumption | intro _ | refine memWf_of (closeGates_loft ..) ?_ | apply finishAll_memWf
                               | refine memWf_of (indexLost_loft ..) ?_ | refine memWf_of (State.emit_loft ..) ?_
                               | refine memWf_of (State.updChn_loft ..) ?_ | split | dsimp only

theorem unloadWhenIdle_memWf (s : State) (h_s : memWf s.loft.mem = true) :
    memWf (unloadWhenIdle s).loft.mem = true := by
  unfold unloadWhenIdle
  with_reducible repeat' first | assumption | intro _ | apply startUnload_memWf | refine memWf_of (State.updChn_loft ..) ?_ | split | dsimp only

theorem unloadIfWaiting_memWf (s : State) (h_s : memWf s.loft.mem = true) :
    memWf (unloadIfWaiting s).loft.mem = true := by
  unfold unloadIfWaiting
  with_reducible repeat' first | assumption | intro _ | apply unloadWhenIdle_memWf | split | dsimp only

@[simp] theorem startLoad_loft (s : State) :
    (startLoad s).loft = s.loft := by simp [startLoad]

@[simp] theorem autoLoad_loft (s : State) :
    (autoLoad s).loft = s.loft := by
  unfold autoLoad
  with_reducible repeat' first | rfl | intro _ | refine (startLoad_loft ..).trans ?_ | split | dsimp only

@[simp] theorem selectHead_loft (h : Nat) (s : State) :
    (selectHead h s).loft = s.loft := by
  unfold selectHead
  with_reducible repeat' first | rfl | intro _ | refine (paFrame_loft ..).trans ?_ | refine (State.updChn_loft ..).trans ?_ | split | dsimp only

@[simp] theorem startSeek_loft (cyl : Nat) (s : State) :
    (startSeek cyl s).loft = s.loft := by simp [startSeek]

theorem channelFault_memWf (s : State) (h_s : memWf s.loft.mem = true) :
    memWf (channelFault s).loft.mem = true := by
  unfold channelFault
  with_reducible repeat' first | assumption | intro _ | apply endAll_memWf | apply startUnload_memWf
                               | refine memWf_of (State.updChn_loft ..) ?_ | split | dsimp only

@[simp] theorem servoLost_loft (s : State) :
    (servoLost s).loft = s.loft := by simp [servoLost]

@[simp] theorem notWritten_loft (s : State) :
    (notWritten s).loft = s.loft := by simp [notWritten]

theorem headsParked_memWf (s : State) (h_s : memWf s.loft.mem = true) :
    memWf (headsParked s).loft.mem = true := by
  unfold headsParked
  with_reducible repeat' first | assumption | refine memWf_of (notWritten_loft ..) ?_ | refine memWf_of (autoLoad_loft ..) ?_ | intro _ | refine memWf_of (raiseSrc_loft ..) ?_ | refine memWf_of (paMode_loft ..) ?_
                               | refine memWf_of (State.updChn_loft ..) ?_ | refine memWf_of (afterPark_loft ..) ?_ | apply finishAll_memWf
                               | refine memWf_of (startLoad_loft ..) ?_ | split | dsimp only

@[simp] theorem startA_loft (s : State) :
    (startA s).loft = s.loft := by simp [startA]

theorem stoppedA_memWf (s : State) (h_s : memWf s.loft.mem = true) :
    memWf (stoppedA s).loft.mem = true := by
  unfold stoppedA
  with_reducible repeat' first | assumption | intro _ | apply finishStop_memWf | refine memWf_of (driveStep_loft ..) ?_
                               | refine memWf_of (spinTo_loft ..) ?_ | refine memWf_of (State.updA_loft ..) ?_
                               | refine memWf_of (faultBrake_loft ..) ?_ | split | dsimp only

theorem controlledStop_memWf (s : State) (h_s : memWf s.loft.mem = true) :
    memWf (controlledStop s).loft.mem = true := by
  unfold controlledStop
  with_reducible repeat' first | assumption | intro _ | apply finishStop_memWf | apply stoppedA_memWf | apply finishStart_memWf
                               | apply startUnload_memWf | refine memWf_of (State.updA_loft ..) ?_ | refine memWf_of (decelA_loft ..) ?_
                               | split | dsimp only

theorem emergencyStop_memWf (s : State) (h_s : memWf s.loft.mem = true) :
    memWf (emergencyStop s).loft.mem = true := by
  unfold emergencyStop
  with_reducible repeat' first | assumption | intro _ | apply finishStop_memWf | apply stoppedA_memWf | apply finishStart_memWf
                               | apply startUnload_memWf | refine memWf_of (State.updA_loft ..) ?_
                               | refine memWf_of (emergencyBrake_loft ..) ?_ | split | dsimp only

theorem faultA_memWf (cause : Nat) (s : State) (h_s : memWf s.loft.mem = true) :
    memWf (faultA cause s).loft.mem = true := by
  unfold faultA
  with_reducible repeat' first | assumption | intro _ | apply finishStop_memWf | apply finishStart_memWf
                               | refine memWf_of (driveStep_loft ..) ?_ | refine memWf_of (State.updA_loft ..) ?_
                               | refine memWf_of (indexLost_loft ..) ?_ | refine memWf_of (spinTo_loft ..) ?_ | apply startUnload_memWf
                               | refine memWf_of (faultBrake_loft ..) ?_ | split | dsimp only

@[simp] theorem gatesB_loft (l : List Bool) (s : State) :
    (gatesB l s).loft = s.loft := by simp [gatesB]

@[simp] theorem driveB_loft (step : Nat) (s : State) :
    (driveB step s).loft = s.loft := by simp [driveB]

@[simp] theorem floatB_loft (s : State) :
    (floatB s).loft = s.loft := by simp [floatB]

@[simp] theorem startB_loft (s : State) :
    (startB s).loft = s.loft := by simp [startB]

@[simp] theorem stopB_loft (s : State) :
    (stopB s).loft = s.loft := by
  unfold stopB
  with_reducible repeat' first | rfl | intro _ | refine (floatB_loft ..).trans ?_ | refine (State.updB_loft ..).trans ?_
                               | refine (raiseSrc_loft ..).trans ?_ | refine (driveStep_loft ..).trans ?_
                               | refine (gatesB_loft ..).trans ?_ | split | dsimp only

@[simp] theorem retargetB_loft (s : State) :
    (retargetB s).loft = s.loft := by
  unfold retargetB
  with_reducible repeat' first | rfl | intro _ | refine (State.updB_loft ..).trans ?_ | refine (stopB_loft ..).trans ?_
                               | refine (startB_loft ..).trans ?_ | split | dsimp only

@[simp] theorem eventB_loft (cause : Nat) (s : State) :
    (eventB cause s).loft = s.loft := by simp [eventB]

/-! ### Timebase.lean -/

@[simp] theorem cmdTimeGetStatus_loft  (s : State) (t : Nat) (p : Bytes) :
    (Cmd.run cmdTimeGetStatus s t p).state.loft = s.loft := by simp [cmdTimeGetStatus]

theorem cmdTimeRefConfig_memWf  (s : State) (t : Nat) (p : Bytes) (h_s : memWf s.loft.mem = true) :
    memWf (Cmd.run cmdTimeRefConfig s t p).state.loft.mem = true := by
  unfold cmdTimeRefConfig
  with_reducible repeat' first | assumption | intro _ | apply reselect_memWf | refine memWf_of (State_updRef_loft ..) ?_
                               | apply qualify_memWf | split | dsimp only [Reply.state_done, Reply.state_accept, Reply.state_silent]

@[simp] theorem cmdTimeDpllConfig_loft  (s : State) (t : Nat) (p : Bytes) :
    (Cmd.run cmdTimeDpllConfig s t p).state.loft = s.loft := by simp [cmdTimeDpllConfig]

@[simp] theorem cmdTimeOscConfig_loft  (s : State) (t : Nat) (p : Bytes) :
    (Cmd.run cmdTimeOscConfig s t p).state.loft = s.loft := by simp [cmdTimeOscConfig]

theorem cmdTimeSelect_memWf  (s : State) (t : Nat) (p : Bytes) (h_s : memWf s.loft.mem = true) :
    memWf (Cmd.run cmdTimeSelect s t p).state.loft.mem = true := by
  unfold cmdTimeSelect
  with_reducible repeat' first | assumption | intro _ | apply reselect_memWf | refine memWf_of (State.updTb_loft ..) ?_ | split
                               | dsimp only [Reply.state_done, Reply.state_accept, Reply.state_silent]

theorem cmdTimeSet_memWf  (s : State) (t : Nat) (p : Bytes) (h_s : memWf s.loft.mem = true) :
    memWf (Cmd.run cmdTimeSet s t p).state.loft.mem = true := by
  unfold cmdTimeSet
  with_reducible repeat' first | assumption | intro _ | refine memWf_of (State.updTb_loft ..) ?_ | refine memWf_of (makeValid_loft ..) ?_
                               | apply timeStep_memWf | split | dsimp only [Reply.state_done, Reply.state_accept, Reply.state_silent]

theorem cmdTimeSetOffsets_memWf  (s : State) (t : Nat) (p : Bytes) (h_s : memWf s.loft.mem = true) :
    memWf (Cmd.run cmdTimeSetOffsets s t p).state.loft.mem = true := by
  unfold cmdTimeSetOffsets
  with_reducible repeat' first | assumption | intro _ | apply reselect_memWf | refine memWf_of (keepOffsets_loft ..) ?_
                               | refine memWf_of (State.updTb_loft ..) ?_ | split
                               | dsimp only [Reply.state_done, Reply.state_accept, Reply.state_silent]

@[simp] theorem putSched_loft (kind : Nat) (x : Option Sched) (s : State) :
    (putSched kind x s).loft = s.loft := by simp [putSched]

@[simp] theorem cmdTimeSchedule_loft  (s : State) (t : Nat) (p : Bytes) :
    (Cmd.run cmdTimeSchedule s t p).state.loft = s.loft := by
  unfold cmdTimeSchedule
  with_reducible repeat' first | rfl | intro _ | refine (putSched_loft ..).trans ?_ | split
                               | dsimp only [Reply.state_done, Reply.state_accept, Reply.state_silent]

@[simp] theorem cmdTimeGetOffsets_loft  (s : State) (t : Nat) (p : Bytes) :
    (Cmd.run cmdTimeGetOffsets s t p).state.loft = s.loft := by
  unfold cmdTimeGetOffsets
  with_reducible repeat' first | rfl | intro _ | refine (sched_loft ..).trans ?_ | split
                               | dsimp only [Reply.state_done, Reply.state_accept, Reply.state_silent]

@[simp] theorem cmdTimeCadenceSet_loft  (s : State) (t : Nat) (p : Bytes) :
    (Cmd.run cmdTimeCadenceSet s t p).state.loft = s.loft := by simp [cmdTimeCadenceSet]

@[simp] theorem cmdTimeCadenceGet_loft  (s : State) (t : Nat) (p : Bytes) :
    (Cmd.run cmdTimeCadenceGet s t p).state.loft = s.loft := by simp [cmdTimeCadenceGet]

@[simp] theorem cmdTimeTimArm_loft  (s : State) (t : Nat) (p : Bytes) :
    (Cmd.run cmdTimeTimArm s t p).state.loft = s.loft := by simp [cmdTimeTimArm]

@[simp] theorem cmdTimeTimRead_loft  (s : State) (t : Nat) (p : Bytes) :
    (Cmd.run cmdTimeTimRead s t p).state.loft = s.loft := by simp [cmdTimeTimRead]

@[simp] theorem cmdTimeSpineCalRead_loft  (s : State) (t : Nat) (p : Bytes) :
    (Cmd.run cmdTimeSpineCalRead s t p).state.loft = s.loft := by simp [cmdTimeSpineCalRead]

@[simp] theorem cmdTimeGnssSend_loft  (s : State) (t : Nat) (p : Bytes) :
    (Cmd.run cmdTimeGnssSend s t p).state.loft = s.loft := by simp [cmdTimeGnssSend]

@[simp] theorem cmdTimeRefStatus_loft  (s : State) (t : Nat) (p : Bytes) :
    (Cmd.run cmdTimeRefStatus s t p).state.loft = s.loft := by simp [cmdTimeRefStatus]

theorem execTimeGetStatus_loft (c : Call) (s : State) :
    keepsLoft s (execTimeGetStatus c s) := by
  apply keepsLoft_running; simp

theorem execTimeRefConfig_memWf (c : Call) (s : State) (h_s : memWf s.loft.mem = true) :
    keepsMem (execTimeRefConfig c s) := by
  unfold execTimeRefConfig
  with_reducible repeat' first | assumption | intro _ | apply keepsMem_running | apply keepsMem_next | apply command_memWf
                               | apply cmdTimeRefConfig_memWf | split | dsimp only

theorem execTimeDpllConfig_loft (c : Call) (s : State) :
    keepsLoft s (execTimeDpllConfig c s) := by
  apply keepsLoft_running; simp

theorem execTimeOscConfig_loft (c : Call) (s : State) :
    keepsLoft s (execTimeOscConfig c s) := by
  apply keepsLoft_running; simp

theorem execTimeSelect_memWf (c : Call) (s : State) (h_s : memWf s.loft.mem = true) :
    keepsMem (execTimeSelect c s) := by
  unfold execTimeSelect
  with_reducible repeat' first | assumption | intro _ | apply keepsMem_running | apply keepsMem_next | apply command_memWf
                               | apply cmdTimeSelect_memWf | split | dsimp only

theorem execTimeSet_memWf (c : Call) (s : State) (h_s : memWf s.loft.mem = true) :
    keepsMem (execTimeSet c s) := by
  unfold execTimeSet
  with_reducible repeat' first | assumption | intro _ | apply keepsMem_running | apply keepsMem_next | apply command_memWf
                               | apply cmdTimeSet_memWf | split | dsimp only

theorem execTimeSetOffsets_memWf (c : Call) (s : State) (h_s : memWf s.loft.mem = true) :
    keepsMem (execTimeSetOffsets c s) := by
  unfold execTimeSetOffsets
  with_reducible repeat' first | assumption | intro _ | apply keepsMem_running | apply keepsMem_next | apply command_memWf
                               | apply cmdTimeSetOffsets_memWf | split | dsimp only

theorem execTimeSchedule_loft (c : Call) (s : State) :
    keepsLoft s (execTimeSchedule c s) := by
  apply keepsLoft_running; simp

theorem execTimeGetOffsets_loft (c : Call) (s : State) :
    keepsLoft s (execTimeGetOffsets c s) := by
  unfold execTimeGetOffsets
  with_reducible repeat' first | rfl | intro _ | apply keepsLoft_running | apply keepsLoft_next | apply command_loft
                               | refine cmdTimeGetOffsets_loft .. | split | dsimp only

theorem execTimeCadenceSet_loft (c : Call) (s : State) :
    keepsLoft s (execTimeCadenceSet c s) := by
  apply keepsLoft_running; simp

theorem execTimeCadenceGet_loft (c : Call) (s : State) :
    keepsLoft s (execTimeCadenceGet c s) := by
  apply keepsLoft_running; simp

theorem execTimeTimArm_loft (c : Call) (s : State) :
    keepsLoft s (execTimeTimArm c s) := by
  apply keepsLoft_running; simp

theorem execTimeTimRead_loft (c : Call) (s : State) :
    keepsLoft s (execTimeTimRead c s) := by
  apply keepsLoft_running; simp

theorem execTimeSpineCalRead_loft (c : Call) (s : State) :
    keepsLoft s (execTimeSpineCalRead c s) := by
  apply keepsLoft_running; simp

theorem execTimeGnssSend_loft (c : Call) (s : State) :
    keepsLoft s (execTimeGnssSend c s) := by
  apply keepsLoft_running; simp

theorem execTimeRefStatus_loft (c : Call) (s : State) :
    keepsLoft s (execTimeRefStatus c s) := by
  apply keepsLoft_running; simp

@[simp] theorem latchTime_loft (t : Nat) (s : State) :
    (latchTime t s).loft = s.loft := by simp [latchTime]

theorem execTimeLatch_loft (t : Fin 8) (value : BitVec 32) (s : State) :
    keepsLoft s (execTimeLatch t value s) := by
  unfold execTimeLatch
  with_reducible repeat' first | rfl | intro _ | apply keepsLoft_running | apply keepsLoft_next | refine (latchTime_loft ..).trans ?_
                               | split | dsimp only

@[simp] theorem gnssDiscard_loft (s : State) :
    (gnssDiscard s).loft = s.loft := by simp [gnssDiscard]

@[simp] theorem useZda_loft (f : List Bytes) (ms : Nat) (s : State) :
    (useZda f ms s).loft = s.loft := by
  unfold useZda
  with_reducible repeat' first | rfl | intro _ | refine (gnssDiscard_loft ..).trans ?_ | refine (State.updTb_loft ..).trans ?_ | split | dsimp only

@[simp] theorem useSentence_loft (body : Bytes) (ms : Nat) (s : State) :
    (useSentence body ms s).loft = s.loft := by
  unfold useSentence
  with_reducible repeat' first | rfl | intro _ | refine (useZda_loft ..).trans ?_ | refine (State_updRef_loft ..).trans ?_
                               | refine (State.updTb_loft ..).trans ?_ | split | dsimp only

theorem execGnssSentence_loft (l : Bytes) (ms : Nat) (s : State) :
    keepsLoft s (execGnssSentence l ms s) := by
  unfold execGnssSentence
  with_reducible repeat' first | rfl | intro _ | apply keepsLoft_running | apply keepsLoft_next | refine (gnssDiscard_loft ..).trans ?_
                               | refine (useSentence_loft ..).trans ?_ | split | dsimp only

theorem execGnssPps_loft (err : Int) (s : State) :
    keepsLoft s (execGnssPps err s) := by
  unfold execGnssPps
  with_reducible repeat' first | rfl | intro _ | apply keepsLoft_running | apply keepsLoft_next | refine (State_updRef_loft ..).trans ?_
                               | refine (State.updTb_loft ..).trans ?_ | split | dsimp only

theorem execRefPpsEdge_loft (c : Fin 3) (err : Int) (s : State) :
    keepsLoft s (execRefPpsEdge c err s) := by
  unfold execRefPpsEdge
  with_reducible repeat' first | rfl | intro _ | apply keepsLoft_running | apply keepsLoft_next | refine (State_updRef_loft ..).trans ?_
                               | refine (State.updTb_loft ..).trans ?_ | split | dsimp only

theorem execRefQualified_memWf (c : Fin 6) (forS : Nat) (err : Int) (s : State) (h_s : memWf s.loft.mem = true) :
    keepsMem (execRefQualified c forS err s) := by
  unfold execRefQualified
  with_reducible repeat' first | assumption | intro _ | apply keepsMem_running | apply keepsMem_next | apply qualify_memWf
                               | apply handbackDone_memWf | refine memWf_of (State_updRef_loft ..) ?_ | split | dsimp only

theorem execRefDisqualified_memWf (c : Fin 6) (cause : Nat) (s : State) (h_s : memWf s.loft.mem = true) :
    keepsMem (execRefDisqualified c cause s) := by
  unfold execRefDisqualified
  with_reducible repeat' first | assumption | intro _ | apply keepsMem_running | apply keepsMem_next | apply disqualify_memWf | split | dsimp only

theorem execWaitToRestore_memWf (c : Fin 6) (forS : Nat) (err : Int) (s : State) (h_s : memWf s.loft.mem = true) :
    keepsMem (execWaitToRestore c forS err s) := by
  unfold execWaitToRestore
  with_reducible repeat' first | assumption | intro _ | apply keepsMem_running | apply keepsMem_next | apply switchRef_memWf
                               | refine memWf_of (State_updRef_loft ..) ?_ | split | dsimp only

theorem execDpllUpdate_loft (phase : Int) (s : State) :
    keepsLoft s (execDpllUpdate phase s) := by
  apply keepsLoft_running; simp

theorem execDpllLocked_loft (phaseNs freq forMs : Nat) (s : State) :
    keepsLoft s (execDpllLocked phaseNs freq forMs s) := by
  unfold execDpllLocked
  with_reducible repeat' first | rfl | intro _ | apply keepsLoft_running | apply keepsLoft_next | refine (dpllTo_loft ..).trans ?_ | split
                               | dsimp only

theorem execDpllPhaseLoss_loft (phaseNs forMs : Nat) (s : State) :
    keepsLoft s (execDpllPhaseLoss phaseNs forMs s) := by
  unfold execDpllPhaseLoss
  with_reducible repeat' first | rfl | intro _ | apply keepsLoft_running | apply keepsLoft_next | refine (dpllTo_loft ..).trans ?_ | split
                               | dsimp only

theorem execHoldoverLimit_loft (forS : Nat) (s : State) :
    keepsLoft s (execHoldoverLimit forS s) := by
  unfold execHoldoverLimit
  with_reducible repeat' first | rfl | intro _ | apply keepsLoft_running | apply keepsLoft_next | refine (loseValid_loft ..).trans ?_
                               | split | dsimp only

theorem execSteerLimit_loft (forMs : Nat) (s : State) :
    keepsLoft s (execSteerLimit forMs s) := by
  unfold execSteerLimit
  with_reducible repeat' first | rfl | intro _ | apply keepsLoft_running | apply keepsLoft_next | refine (raiseSrc_loft ..).trans ?_
                               | split | dsimp only

theorem execScheduleInstant_loft (s : State) :
    keepsLoft s (execScheduleInstant s) := by
  apply keepsLoft_running; simp

theorem execScheduleWarning_loft (s : State) :
    keepsLoft s (execScheduleWarning s) := by
  apply keepsLoft_running; simp

theorem calLost_memWf (id : Nat) (s : State) (h_s : memWf s.loft.mem = true) :
    memWf (calLost id s).loft.mem = true := by
  unfold calLost
  with_reducible repeat' first | assumption | intro _ | apply disqualify_memWf | split | dsimp only

theorem execSpineFrame_memWf (isl : Fin 16) (bits : Nat) (s : State) (h_s : memWf s.loft.mem = true) :
    keepsMem (execSpineFrame isl bits s) := by
  unfold execSpineFrame
  with_reducible repeat' first | assumption | intro _ | apply keepsMem_running | apply keepsMem_next
                               | refine memWf_of (State.updTb_loft ..) ?_ | refine memWf_of (crumbOf_loft ..) ?_ | apply calLost_memWf
                               | split | dsimp only

theorem execSpineCalibration_loft (isl : Fin 16) (offset : Int) (uncert : Nat) (restart crcFail : Bool) (s : State) :
    keepsLoft s (execSpineCalibration isl offset uncert restart crcFail s) := by
  apply keepsLoft_running; dsimp only; repeat' split
  all_goals simp

theorem execCadenceDescriptorApply_loft (o : Fin 8) (s : State) :
    keepsLoft s (execCadenceDescriptorApply o s) := by
  unfold execCadenceDescriptorApply
  with_reducible repeat' first | rfl | intro _ | apply keepsLoft_running | apply keepsLoft_next | refine (holdCadence_loft ..).trans ?_
                               | refine (State.updTb_loft ..).trans ?_ | split | dsimp only

@[simp] theorem recordEdge_loft (i : Nat) (falling : Bool) (t : Time) (s : State) :
    (recordEdge i falling t s).loft = s.loft := by
  unfold recordEdge
  with_reducible repeat' first | rfl | intro _ | refine (State.updTb_loft ..).trans ?_ | refine (raiseSrc_loft ..).trans ?_ | split | dsimp only

theorem execTimInEdge_loft (i : Fin 4) (falling : Bool) (sec ns frac widthPs : Nat) (s : State) :
    keepsLoft s (execTimInEdge i falling sec ns frac widthPs s) := by
  unfold execTimInEdge
  with_reducible repeat' first | rfl | intro _ | apply keepsLoft_running | apply keepsLoft_next | refine (State.updTb_loft ..).trans ?_
                               | refine (recordEdge_loft ..).trans ?_ | split | dsimp only

theorem execOscInLoss_memWf (periods : Nat) (s : State) (h_s : memWf s.loft.mem = true) :
    keepsMem (execOscInLoss periods s) := by
  unfold execOscInLoss
  with_reducible repeat' first | assumption | intro _ | refine foldl_memWf ?_ _ _ ?_ | apply keepsMem_running | apply keepsMem_next
                               | refine memWf_of (State.updTb_loft ..) ?_ | apply disqualify_memWf | refine memWf_of (loseValid_loft ..) ?_
                               | refine memWf_of (dpllTo_loft ..) ?_ | split | dsimp only

theorem execOscInRestored_loft (forMs : Nat) (s : State) :
    keepsLoft s (execOscInRestored forMs s) := by
  unfold execOscInRestored
  with_reducible repeat' first | rfl | intro _ | apply keepsLoft_running | apply keepsLoft_next | refine (State.updTb_loft ..).trans ?_
                               | split | dsimp only

/-! ### Motor.lean -/

@[simp] theorem alignEnd_loft (b : Bool) (ms : Nat) (s : State) :
    (alignEnd b ms s).loft = s.loft := by
  unfold alignEnd
  with_reducible repeat' first | rfl | intro _ | refine (driveB_loft ..).trans ?_ | refine (State.updB_loft ..).trans ?_
                               | refine (driveStep_loft ..).trans ?_ | refine (spinTo_loft ..).trans ?_
                               | refine (State.updA_loft ..).trans ?_ | split | dsimp only

theorem execAlignEnd_loft (b : Bool) (ms : Nat) (s : State) :
    keepsLoft s (execAlignEnd b ms s) := by
  apply keepsLoft_running; simp

@[simp] theorem crossA_loft (pct : Nat) (dirOk : Bool) (rate : Nat) (s : State) :
    (crossA pct dirOk rate s).loft = s.loft := by
  unfold crossA
  with_reducible repeat' first | rfl | intro _ | refine (State.updA_loft ..).trans ?_ | refine (spinTo_loft ..).trans ?_ | split | dsimp only

@[simp] theorem crossB_loft (pct : Nat) (dirOk : Bool) (rate : Nat) (s : State) :
    (crossB pct dirOk rate s).loft = s.loft := by
  unfold crossB
  with_reducible repeat' first | rfl | intro _ | refine (State.updB_loft ..).trans ?_ | split | dsimp only

theorem execZeroCrossing_loft (b : Bool) (pct : Nat) (dirOk : Bool) (rate : Nat) (s : State) :
    keepsLoft s (execZeroCrossing b pct dirOk rate s) := by
  unfold execZeroCrossing
  with_reducible repeat' first | rfl | intro _ | apply keepsLoft_running | apply keepsLoft_next | refine (crossB_loft ..).trans ?_
                               | refine (crossA_loft ..).trans ?_ | split | dsimp only

@[simp] theorem stepA_loft (rate vinMa phaseMa : Nat) (s : State) :
    (stepA rate vinMa phaseMa s).loft = s.loft := by
  unfold stepA
  with_reducible repeat' first | rfl | intro _ | refine (State.updA_loft ..).trans ?_ | refine (driveStep_loft ..).trans ?_ | split | dsimp only

@[simp] theorem stepB_loft (rate phaseMa : Nat) (s : State) :
    (stepB rate phaseMa s).loft = s.loft := by
  unfold stepB
  with_reducible repeat' first | rfl | intro _ | refine (driveB_loft ..).trans ?_ | refine (State.updB_loft ..).trans ?_ | split | dsimp only

theorem execCommutationStep_loft (b : Bool) (rate vinMa phaseMa : Nat) (s : State) :
    keepsLoft s (execCommutationStep b rate vinMa phaseMa s) := by
  unfold execCommutationStep
  with_reducible repeat' first | rfl | intro _ | apply keepsLoft_running | apply keepsLoft_next | refine (stepB_loft ..).trans ?_
                               | refine (stepA_loft ..).trans ?_ | split | dsimp only

theorem handoverFailA_memWf (s : State) (h_s : memWf s.loft.mem = true) :
    memWf (handoverFailA s).loft.mem = true := by
  unfold handoverFailA
  with_reducible repeat' first | assumption | intro _ | refine memWf_of (raiseSrc_loft ..) ?_ | refine memWf_of (State.updA_loft ..) ?_
                               | apply faultA_memWf | refine memWf_of (driveStep_loft ..) ?_ | refine memWf_of (spinTo_loft ..) ?_ | split
                               | dsimp only

@[simp] theorem handoverFailB_loft (s : State) :
    (handoverFailB s).loft = s.loft := by
  unfold handoverFailB
  with_reducible repeat' first | rfl | intro _ | refine (State.updB_loft ..).trans ?_ | refine (eventB_loft ..).trans ?_
                               | refine (floatB_loft ..).trans ?_ | split | dsimp only

theorem execHandoverTimeout_memWf (b : Bool) (ms : Nat) (s : State) (h_s : memWf s.loft.mem = true) :
    keepsMem (execHandoverTimeout b ms s) := by
  unfold execHandoverTimeout
  with_reducible repeat' first | assumption | intro _ | apply keepsMem_running | apply keepsMem_next
                               | refine memWf_of (handoverFailB_loft ..) ?_ | apply handoverFailA_memWf | split | dsimp only

@[simp] theorem handoverRetry_loft (b : Bool) (s : State) :
    (handoverRetry b s).loft = s.loft := by
  unfold handoverRetry
  with_reducible repeat' first | rfl | intro _ | refine (driveB_loft ..).trans ?_ | refine (State.updB_loft ..).trans ?_
                               | refine (driveStep_loft ..).trans ?_ | refine (State.updA_loft ..).trans ?_ | split | dsimp only

theorem execHandoverRetry_loft (b : Bool) (ms : Nat) (s : State) :
    keepsLoft s (execHandoverRetry b ms s) := by
  unfold execHandoverRetry
  with_reducible repeat' first | rfl | intro _ | apply keepsLoft_running | apply keepsLoft_next | refine (handoverRetry_loft ..).trans ?_
                               | split | dsimp only

theorem execAtSpeed_memWf (speed forMs : Nat) (s : State) (h_s : memWf s.loft.mem = true) :
    keepsMem (execAtSpeed speed forMs s) := by
  unfold execAtSpeed
  with_reducible repeat' first | assumption | intro _ | apply keepsMem_running | apply keepsMem_next
                               | refine memWf_of (autoLoad_loft ..) ?_ | apply finishStart_memWf | refine memWf_of (spinTo_loft ..) ?_
                               | refine memWf_of (State.updA_loft ..) ?_ | split | dsimp only

theorem execSpinupTimeout_memWf (forS : Nat) (s : State) (h_s : memWf s.loft.mem = true) :
    keepsMem (execSpinupTimeout forS s) := by
  unfold execSpinupTimeout
  with_reducible repeat' first | assumption | intro _ | apply keepsMem_running | apply keepsMem_next | apply faultA_memWf | split | dsimp only

@[simp] theorem servoIndex_loft (err : Int) (s : State) :
    (servoIndex err s).loft = s.loft := by
  unfold servoIndex
  with_reducible repeat' first | rfl | intro _ | refine (State.updA_loft ..).trans ?_ | refine (spinTo_loft ..).trans ?_ | split | dsimp only

theorem execServoIndex_loft (err : Int) (s : State) :
    keepsLoft s (execServoIndex err s) := by
  unfold execServoIndex
  with_reducible repeat' first | rfl | intro _ | apply keepsLoft_running | apply keepsLoft_next | refine (servoIndex_loft ..).trans ?_
                               | split | dsimp only

theorem execGenlockLocked_loft (s : State) :
    keepsLoft s (execGenlockLocked s) := by
  unfold execGenlockLocked
  with_reducible repeat' first | rfl | intro _ | apply keepsLoft_running | apply keepsLoft_next | refine (spinTo_loft ..).trans ?_ | split
                               | dsimp only

theorem execGenlockUnlock_loft (s : State) :
    keepsLoft s (execGenlockUnlock s) := by
  unfold execGenlockUnlock
  with_reducible repeat' first | rfl | intro _ | apply keepsLoft_running | apply keepsLoft_next | refine (spinTo_loft ..).trans ?_ | split
                               | dsimp only

theorem execDecelToBrake_loft (speed : Nat) (s : State) :
    keepsLoft s (execDecelToBrake speed s) := by
  unfold execDecelToBrake
  with_reducible repeat' first | rfl | intro _ | apply keepsLoft_running | apply keepsLoft_next | refine (driveStep_loft ..).trans ?_
                               | refine (spinTo_loft ..).trans ?_ | refine (State.updA_loft ..).trans ?_ | split | dsimp only

theorem brakeEnd_memWf (b : Bool) (s : State) (h_s : memWf s.loft.mem = true) :
    memWf (brakeEnd b s).loft.mem = true := by
  unfold brakeEnd
  with_reducible repeat' first | assumption | intro _ | refine memWf_of (retargetB_loft ..) ?_ | refine memWf_of (floatB_loft ..) ?_
                               | refine memWf_of (State.updB_loft ..) ?_ | apply stoppedA_memWf | split | dsimp only

theorem execRegenLimit_loft (vin : Nat) (s : State) :
    keepsLoft s (execRegenLimit vin s) := by
  unfold execRegenLimit
  with_reducible repeat' first | rfl | intro _ | apply keepsLoft_running | apply keepsLoft_next | refine (State.updA_loft ..).trans ?_
                               | refine (raiseSrc_loft ..).trans ?_ | split | dsimp only

theorem execRegenClamp_loft (vin : Nat) (s : State) :
    keepsLoft s (execRegenClamp vin s) := by
  unfold execRegenClamp
  with_reducible repeat' first | rfl | intro _ | apply keepsLoft_running | apply keepsLoft_next | refine (driveStep_loft ..).trans ?_
                               | refine (State.updA_loft ..).trans ?_ | split | dsimp only

theorem execRegenResume_loft (vin : Nat) (s : State) :
    keepsLoft s (execRegenResume vin s) := by
  unfold execRegenResume
  with_reducible repeat' first | rfl | intro _ | apply keepsLoft_running | apply keepsLoft_next | refine (driveStep_loft ..).trans ?_
                               | refine (State.updA_loft ..).trans ?_ | split | dsimp only

theorem overcurrentA_memWf (s : State) (h_s : memWf s.loft.mem = true) :
    memWf (overcurrentA s).loft.mem = true := by
  unfold overcurrentA
  with_reducible repeat' first | assumption | intro _ | refine memWf_of (raiseSrc_loft ..) ?_ | refine memWf_of (driveStep_loft ..) ?_
                               | refine memWf_of (State.updA_loft ..) ?_ | refine memWf_of (faultBrake_loft ..) ?_ | apply faultA_memWf
                               | split | dsimp only

theorem execAOvercurrent_memWf (ma forUs : Nat) (s : State) (h_s : memWf s.loft.mem = true) :
    keepsMem (execAOvercurrent ma forUs s) := by
  unfold execAOvercurrent
  with_reducible repeat' first | assumption | intro _ | apply keepsMem_running | apply keepsMem_next | apply overcurrentA_memWf | split | dsimp only

theorem execAStall_memWf (steps : Nat) (s : State) (h_s : memWf s.loft.mem = true) :
    keepsMem (execAStall steps s) := by
  unfold execAStall
  with_reducible repeat' first | assumption | intro _ | apply keepsMem_running | apply keepsMem_next | apply faultA_memWf
                               | refine memWf_of (raiseSrc_loft ..) ?_ | split | dsimp only

theorem execBOvercurrent_loft (mv forUs : Nat) (s : State) :
    keepsLoft s (execBOvercurrent mv forUs s) := by
  unfold execBOvercurrent
  with_reducible repeat' first | rfl | intro _ | apply keepsLoft_running | apply keepsLoft_next | refine (eventB_loft ..).trans ?_
                               | refine (raiseSrc_loft ..).trans ?_ | split | dsimp only

theorem execBStall_loft (steps : Nat) (s : State) :
    keepsLoft s (execBStall steps s) := by
  unfold execBStall
  with_reducible repeat' first | rfl | intro _ | apply keepsLoft_running | apply keepsLoft_next | refine (eventB_loft ..).trans ?_
                               | refine (raiseSrc_loft ..).trans ?_ | split | dsimp only

theorem execBRestart_loft (ms : Nat) (s : State) :
    keepsLoft s (execBRestart ms s) := by
  unfold execBRestart
  with_reducible repeat' first | rfl | intro _ | apply keepsLoft_running | apply keepsLoft_next | refine (retargetB_loft ..).trans ?_
                               | refine (State.updB_loft ..).trans ?_ | split | dsimp only

theorem execSpeedCmdUpdate_loft (v : Nat) (s : State) :
    keepsLoft s (execSpeedCmdUpdate v s) := by
  unfold execSpeedCmdUpdate
  with_reducible repeat' first | rfl | intro _ | apply keepsLoft_running | apply keepsLoft_next | refine (retargetB_loft ..).trans ?_
                               | refine (State.updB_loft ..).trans ?_ | split | dsimp only

theorem execSpeedCmdLost_loft (v noEdgeMs freq : Nat) (s : State) :
    keepsLoft s (execSpeedCmdLost v noEdgeMs freq s) := by
  unfold execSpeedCmdLost
  with_reducible repeat' first | rfl | intro _ | apply keepsLoft_running | apply keepsLoft_next | refine (retargetB_loft ..).trans ?_
                               | refine (raiseSrc_loft ..).trans ?_ | refine (State.updB_loft ..).trans ?_ | split | dsimp only

theorem execSpeedCmdRestored_loft (forMs : Nat) (s : State) :
    keepsLoft s (execSpeedCmdRestored forMs s) := by
  unfold execSpeedCmdRestored
  with_reducible repeat' first | rfl | intro _ | apply keepsLoft_running | apply keepsLoft_next | refine (retargetB_loft ..).trans ?_
                               | refine (State.updB_loft ..).trans ?_ | split | dsimp only

@[simp] theorem keepSetup_loft (off bit : Nat) (b : Bytes) (s : State) :
    (keepSetup off bit b s).loft = s.loft := by simp [keepSetup]

@[simp] theorem cmdMotAConfig_loft  (s : State) (t : Nat) (p : Bytes) :
    (Cmd.run cmdMotAConfig s t p).state.loft = s.loft := by
  unfold cmdMotAConfig
  with_reducible repeat' first | rfl | intro _ | refine (keepSetup_loft ..).trans ?_ | refine (State.updA_loft ..).trans ?_ | split
                               | dsimp only [Reply.state_done, Reply.state_accept, Reply.state_silent]

@[simp] theorem cmdMotAStart_loft  (s : State) (t : Nat) (p : Bytes) :
    (Cmd.run cmdMotAStart s t p).state.loft = s.loft := by
  unfold cmdMotAStart
  with_reducible repeat' first | rfl | intro _ | refine (startA_loft ..).trans ?_ | split
                               | dsimp only [Reply.state_done, Reply.state_accept, Reply.state_silent]

theorem cmdMotAStop_memWf  (s : State) (t : Nat) (p : Bytes) (h_s : memWf s.loft.mem = true) :
    memWf (Cmd.run cmdMotAStop s t p).state.loft.mem = true := by
  unfold cmdMotAStop
  with_reducible repeat' first | assumption | intro _ | apply emergencyStop_memWf | apply controlledStop_memWf | split
                               | dsimp only [Reply.state_done, Reply.state_accept, Reply.state_silent]

@[simp] theorem cmdMotAGenlock_loft  (s : State) (t : Nat) (p : Bytes) :
    (Cmd.run cmdMotAGenlock s t p).state.loft = s.loft := by
  unfold cmdMotAGenlock
  with_reducible repeat' first | rfl | intro _ | refine (keepSetup_loft ..).trans ?_ | refine (State.updA_loft ..).trans ?_
                               | refine (rephase_loft ..).trans ?_ | refine (spinTo_loft ..).trans ?_ | split
                               | dsimp only [Reply.state_done, Reply.state_accept, Reply.state_silent]

@[simp] theorem cmdMotAStatus_loft  (s : State) (t : Nat) (p : Bytes) :
    (Cmd.run cmdMotAStatus s t p).state.loft = s.loft := by simp [cmdMotAStatus]

@[simp] theorem commandB_loft (s : State) :
    (commandB s).loft = s.loft := by simp [commandB]

@[simp] theorem cmdMotBConfig_loft  (s : State) (t : Nat) (p : Bytes) :
    (Cmd.run cmdMotBConfig s t p).state.loft = s.loft := by simp [cmdMotBConfig]

@[simp] theorem cmdMotBSetSpeed_loft  (s : State) (t : Nat) (p : Bytes) :
    (Cmd.run cmdMotBSetSpeed s t p).state.loft = s.loft := by simp [cmdMotBSetSpeed]

@[simp] theorem cmdMotBStatus_loft  (s : State) (t : Nat) (p : Bytes) :
    (Cmd.run cmdMotBStatus s t p).state.loft = s.loft := by simp [cmdMotBStatus]

theorem execMotAConfig_loft (c : Call) (s : State) :
    keepsLoft s (execMotAConfig c s) := by
  apply keepsLoft_running; simp

theorem execMotAStart_loft (c : Call) (s : State) :
    keepsLoft s (execMotAStart c s) := by
  apply keepsLoft_running; simp

theorem execMotAStop_memWf (c : Call) (s : State) (h_s : memWf s.loft.mem = true) :
    keepsMem (execMotAStop c s) := by
  unfold execMotAStop
  with_reducible repeat' first | assumption | intro _ | apply keepsMem_running | apply keepsMem_next | apply command_memWf
                               | apply cmdMotAStop_memWf | split | dsimp only

theorem execMotAGenlock_loft (c : Call) (s : State) :
    keepsLoft s (execMotAGenlock c s) := by
  apply keepsLoft_running; simp

theorem execMotAStatus_loft (c : Call) (s : State) :
    keepsLoft s (execMotAStatus c s) := by
  apply keepsLoft_running; simp

theorem execMotBConfig_loft (c : Call) (s : State) :
    keepsLoft s (execMotBConfig c s) := by
  apply keepsLoft_running; simp

theorem execMotBSetSpeed_loft (c : Call) (s : State) :
    keepsLoft s (execMotBSetSpeed c s) := by
  apply keepsLoft_running; simp

theorem execMotBStatus_loft (c : Call) (s : State) :
    keepsLoft s (execMotBStatus c s) := by
  apply keepsLoft_running; simp

/-! ### ModeOps.lean -/

@[simp] theorem calStop_loft (ids : List Nat) (s : State) :
    (calStop ids s).loft = s.loft := by simp [calStop]

@[simp] theorem sparStop_loft (i : Nat) (s : State) :
    (sparStop i s).loft = s.loft := by simp [sparStop]

@[simp] theorem sparResume_loft (i : Nat) (s : State) :
    (sparResume i s).loft = s.loft := by simp [sparResume]

@[simp] theorem stopChannel_loft (s : State) :
    (stopChannel s).loft = s.loft := by
  unfold stopChannel
  with_reducible repeat' first | rfl | intro _ | refine (sparStop_loft ..).trans ?_ | refine (calStop_loft ..).trans ?_
                               | refine (closeGates_loft ..).trans ?_ | refine (State.updIsl_loft ..).trans ?_ | split | dsimp only

@[simp] theorem stopRadio_loft (s : State) :
    (stopRadio s).loft = s.loft := by
  unfold stopRadio
  with_reducible repeat' first | rfl | intro _ | refine (sparStop_loft ..).trans ?_ | refine (calStop_loft ..).trans ?_
                               | refine (radioIslandOff_loft ..).trans ?_ | refine (State.updIsl_loft ..).trans ?_ | split | dsimp only

@[simp] theorem startChannel_loft (s : State) :
    (startChannel s).loft = s.loft := by
  unfold startChannel
  with_reducible repeat' first | rfl | intro _ | refine (sparResume_loft ..).trans ?_ | refine (State.updIsl_loft ..).trans ?_ | split | dsimp only

@[simp] theorem startRadio_loft (s : State) :
    (startRadio s).loft = s.loft := by
  unfold startRadio
  with_reducible repeat' first | rfl | intro _ | refine (sparResume_loft ..).trans ?_ | refine (State.updIsl_loft ..).trans ?_ | split | dsimp only

@[simp] theorem modeChanged_loft (old new : Nat) (s : State) :
    (modeChanged old new s).loft = s.loft := by simp [modeChanged]

@[simp] theorem setMode_loft (m : Mode) (s : State) :
    (setMode m s).loft = s.loft := by simp [setMode]

theorem stopForMode_memWf (s : State) (h_s : memWf s.loft.mem = true) :
    memWf (stopForMode s).loft.mem = true := by
  unfold stopForMode
  with_reducible repeat' first | assumption | intro _ | apply unloadWhenIdle_memWf | apply finishStart_memWf
                               | refine memWf_of (State.updA_loft ..) ?_ | apply controlledStop_memWf | split | dsimp only

theorem leaveRun_memWf (s : State) (h_s : memWf s.loft.mem = true) :
    memWf (leaveRun s).loft.mem = true := by
  unfold leaveRun
  with_reducible repeat' first | assumption | intro _ | apply stopForMode_memWf | apply radioLeaveRun_memWf | apply abortAll_memWf | split
                               | dsimp only

@[simp] theorem autoStart_loft (s : State) :
    (autoStart s).loft = s.loft := by
  unfold autoStart
  with_reducible repeat' first | rfl | intro _ | refine (startA_loft ..).trans ?_ | refine (State.updA_loft ..).trans ?_ | split | dsimp only

@[simp] theorem enterRun_loft (s : State) :
    (enterRun s).loft = s.loft := by simp [enterRun]

theorem finishMode_memWf (status : Nat) (s : State) (h_s : memWf s.loft.mem = true) :
    memWf (finishMode status s).loft.mem = true := by
  unfold finishMode
  with_reducible repeat' first | assumption | intro _ | apply finish_memWf | split | dsimp only

theorem abandonChange_memWf (status : Nat) (s : State) (h_s : memWf s.loft.mem = true) :
    memWf (abandonChange status s).loft.mem = true := by
  unfold abandonChange
  with_reducible repeat' first | assumption | intro _ | refine memWf_of (State.updSup_loft ..) ?_
                               | refine memWf_of (stopChannel_loft ..) ?_ | refine memWf_of (stopRadio_loft ..) ?_ | apply finishMode_memWf
                               | split | dsimp only

theorem safeEntry_memWf (s : State) (h_s : memWf s.loft.mem = true) :
    memWf (safeEntry s).loft.mem = true := by
  unfold safeEntry
  with_reducible repeat' first | assumption | intro _ | refine memWf_of (State.updSup_loft ..) ?_ | refine memWf_of (setMode_loft ..) ?_
                               | apply leaveRun_memWf | split | dsimp only

theorem enterSafe_memWf (n : Nat) (s : State) (h_s : memWf s.loft.mem = true) :
    memWf (enterSafe n s).loft.mem = true := by
  unfold enterSafe
  with_reducible repeat' first | assumption | intro _ | refine memWf_of (State.updSup_loft ..) ?_ | apply abandonChange_memWf
                               | apply safeEntry_memWf | split | dsimp only

@[simp] theorem clearSafe_loft (n : Nat) (s : State) :
    (clearSafe n s).loft = s.loft := by simp [clearSafe]

theorem safeReached_memWf (old : Mode) (s : State) (h_s : memWf s.loft.mem = true) :
    memWf (safeReached old s).loft.mem = true := by
  unfold safeReached
  with_reducible repeat' first | assumption | intro _ | refine memWf_of (modeChanged_loft ..) ?_ | refine memWf_of (stopChannel_loft ..) ?_
                               | refine memWf_of (State.updSup_loft ..) ?_ | apply safeEntry_memWf | apply finishMode_memWf | split | dsimp only

theorem keepReached_memWf (old : Mode) (s : State) (h_s : memWf s.loft.mem = true) :
    memWf (keepReached old s).loft.mem = true := by
  unfold keepReached
  with_reducible repeat' first | assumption | intro _ | refine memWf_of (stopRadio_loft ..) ?_ | refine memWf_of (stopChannel_loft ..) ?_
                               | refine memWf_of (State.updSup_loft ..) ?_ | apply finishMode_memWf
                               | refine memWf_of (modeChanged_loft ..) ?_ | refine memWf_of (setMode_loft ..) ?_ | split | dsimp only

theorem runReached_memWf (old : Mode) (s : State) (h_s : memWf s.loft.mem = true) :
    memWf (runReached old s).loft.mem = true := by
  unfold runReached
  with_reducible repeat' first | assumption | intro _ | refine memWf_of (State.updSup_loft ..) ?_ | apply finishMode_memWf
                               | refine memWf_of (modeChanged_loft ..) ?_ | refine memWf_of (enterRun_loft ..) ?_ | split | dsimp only

theorem modeComplete_memWf (s : State) (h_s : memWf s.loft.mem = true) :
    memWf (modeComplete s).loft.mem = true := by
  unfold modeComplete
  with_reducible repeat' first | assumption | intro _ | apply safeReached_memWf | apply keepReached_memWf | apply runReached_memWf | split
                               | dsimp only

theorem startChange_memWf (target : Nat) (s : State) (h_s : memWf s.loft.mem = true) :
    memWf (startChange target s).loft.mem = true := by
  unfold startChange
  with_reducible repeat' first | assumption | intro _ | refine memWf_of (State.updSup_loft ..) ?_ | apply leaveRun_memWf
                               | refine memWf_of (startRadio_loft ..) ?_ | refine memWf_of (startChannel_loft ..) ?_ | split | dsimp only

end Sys2Proof.Machine
end

