-- ==== Sys2Proof/Laws/LoftRecord.lean ====
section
/-!
SUPPORT. The Loft through recording and the read channel: for each function that leaves the Loft alone, that it does (`_loft`); for each that
may write it, that its memory keeps the canonical form (`_memWf`).
-/
namespace Sys2Proof.Machine
open Sys2Proof
set_option linter.all false

/-! ### SparOps.lean -/

theorem loadStore_memWf (i : Nat) (p : Option Patch) (s : State) (h_s : memWf s.loft.mem = true) :
    memWf (loadStore i p s).loft.mem = true := by
  unfold loadStore
  with_reducible repeat' first | assumption | intro _ | refine memWf_of (State.updSpar_loft ..) ?_ | apply dispatch_memWf | split | dsimp only

@[simp] theorem patchRejected_loft (i step : Nat) (s : State) :
    (patchRejected i step s).loft = s.loft := by simp [patchRejected]

theorem loadSpar_memWf (i : Nat) (pub : Bytes) (sect : Option Bytes) (bad : Bool) (s : State) (h_s : memWf s.loft.mem = true) :
    memWf (loadSpar i pub sect bad s).loft.mem = true := by
  unfold loadSpar
  with_reducible repeat' first | assumption | intro _ | refine memWf_of (crumb_loft ..) ?_ | refine memWf_of (State.updSpar_loft ..) ?_
                               | apply loadStore_memWf | refine memWf_of (patchRejected_loft ..) ?_ | split | dsimp only

@[simp] theorem cadenceFault_loft (s : State) :
    (cadenceFault s).loft = s.loft := by simp [cadenceFault]

@[simp] theorem cadenceResume_loft (s : State) :
    (cadenceResume s).loft = s.loft := by simp [cadenceResume]

theorem sparIslandStop_memWf (i : Nat) (s : State) (h_s : memWf s.loft.mem = true) :
    memWf (sparIslandStop i s).loft.mem = true := by
  unfold sparIslandStop
  with_reducible repeat' first | assumption | intro _ | apply endAll_memWf | refine memWf_of (closeGates_loft ..) ?_
                               | refine memWf_of (cadenceFault_loft ..) ?_ | apply radioMachineCheck_memWf | split | dsimp only

theorem machineCheck_memWf (i cause uaddr : Nat) (part : Bool) (s : State) (h_s : memWf s.loft.mem = true) :
    memWf (machineCheck i cause uaddr part s).loft.mem = true := by
  unfold machineCheck
  with_reducible repeat' first | assumption | intro _ | refine memWf_of (State.updSpar_loft ..) ?_ | refine memWf_of (crumbOf_loft ..) ?_
                               | refine memWf_of (raiseSrc_loft ..) ?_ | apply enterSafe_memWf | apply sparIslandStop_memWf | split | dsimp only

@[simp] theorem mcClear_loft (s : State) :
    (mcClear s).loft = s.loft := by
  unfold mcClear
  with_reducible repeat' first | rfl | intro _ | refine (clearSafe_loft ..).trans ?_ | split | dsimp only

/-! ### RecOps.lean -/

@[simp] theorem segCrumb_loft (code sev : Nat) (g : Segment) (s : State) :
    (segCrumb code sev g s).loft = s.loft := by simp [segCrumb]

@[simp] theorem State_updSeg_loft (s : State) (id : Nat) (f : Segment → Segment) :
    (State.updSeg s id f).loft = s.loft := by simp [State.updSeg]

@[simp] theorem retireSeg_loft (g : Segment) (s : State) :
    (retireSeg g s).loft = s.loft := by simp [retireSeg]

@[simp] theorem closeSeg_loft (bits : Nat) (g : Segment) (s : State) :
    (closeSeg bits g s).loft = s.loft := by
  unfold closeSeg
  with_reducible repeat' first | rfl | intro _ | refine (segCrumb_loft ..).trans ?_ | refine (State.drawn_loft ..).trans ?_
                               | refine (State_updSeg_loft ..).trans ?_ | split | dsimp only

@[simp] theorem segmentTakes_loft (n lba : Nat) (x : ClosedSector) (s : State) :
    (segmentTakes n lba x s).loft = s.loft := by
  unfold segmentTakes
  with_reducible repeat' first | rfl | intro _ | refine (State_updSeg_loft ..).trans ?_ | refine (segCrumb_loft ..).trans ?_
                               | refine (State.updDsk_loft ..).trans ?_ | split | dsimp only

@[simp] theorem reportLogFull_loft (s : State) :
    (reportLogFull s).loft = s.loft := by
  unfold reportLogFull
  with_reducible repeat' first | rfl | intro _ | refine (State.updDsk_loft ..).trans ?_ | refine (crumb_loft ..).trans ?_ | split | dsimp only

theorem enterBlock_memWf (s : State) (h_s : memWf s.loft.mem = true) :
    ∀ z, enterBlock s = some z → memWf z.loft.mem = true := by
  intro z h
  unfold enterBlock at h
  split at h
  · cases h; exact h_s
  · dsimp only at h
    split at h
    · cases h
    · cases h
      refine foldl_memWf (fun s g h => ?_) _ _ h_s
      exact memWf_of (retireSeg_loft ..) h

@[simp] theorem sealReserve_loft (n : Nat) (x : ClosedSector) (s : State) :
    (sealReserve n x s).2.loft = s.loft := by
  unfold sealReserve
  with_reducible repeat' first | rfl | intro _ | refine (keyStart_loft ..).trans ?_ | refine (raiseSrc_loft ..).trans ?_
                               | refine (crumbOf_loft ..).trans ?_ | refine (State_updRecChan_loft ..).trans ?_
                               | refine (pair_loft (by assumption)).trans ?_ | refine (triple_loft (by assumption)).trans ?_ | split | dsimp only

@[simp] theorem mirrorOut_loft (n : Nat) (x : ClosedSector) (s : State) :
    (mirrorOut n x s).2.loft = s.loft := by
  unfold mirrorOut
  with_reducible repeat' first | rfl | intro _ | refine (foldl_loft ?_ _ _).trans ?_ | refine (nextGseq_loft ..).trans ?_
                               | refine (State.updCas_loft ..).trans ?_ | refine (sendTo_loft ..).trans ?_
                               | refine (pair_loft (by assumption)).trans ?_ | refine (triple_loft (by assumption)).trans ?_ | split | dsimp only

theorem handOver_memWf (n : Nat) (s : State) (h_s : memWf s.loft.mem = true) :
    memWf (handOver n s).loft.mem = true := by
  unfold handOver
  with_reducible repeat' first | assumption | intro _ | refine memWf_of (reportLogFull_loft ..) ?_
                               | refine memWf_of (sealReserve_loft ..) ?_ | refine memWf_of (mirrorOut_loft ..) ?_ | apply freeYealm_memWf
                               | refine memWf_of (State_updRecChan_loft ..) ?_ | refine memWf_of (recCount_loft ..) ?_
                               | refine memWf_of (segmentTakes_loft ..) ?_ | refine memWf_of (State.updDsk_loft ..) ?_
                               | refine enterBlock_memWf _ ?_ _ (by assumption) | refine pair_memWf (by assumption) ?_
                               | refine triple_memWf (by assumption) ?_ | split | dsimp only

@[simp] theorem dropClosed_loft (n : Nat) (x : ClosedSector) (s : State) :
    (dropClosed n x s).loft = s.loft := by simp [dropClosed]

@[simp] theorem mirrorAck_loft (p g result : Nat) (s : State) :
    (mirrorAck p g result s).loft = s.loft := by simp [mirrorAck]

@[simp] theorem summaryEntry_loft (lba : Nat) (e : Bytes) (s : State) :
    (summaryEntry lba e s).loft = s.loft := by simp [summaryEntry]

@[simp] theorem recWriteOver_loft (x : ClosedSector) (s : State) :
    (recWriteOver x s).loft = s.loft := by
  unfold recWriteOver
  with_reducible repeat' first | rfl | intro _ | refine (State.updDsk_loft ..).trans ?_ | refine (keyEnd_loft ..).trans ?_ | split | dsimp only

@[simp] theorem recLost_loft (n : Nat) (x : ClosedSector) (s : State) :
    (recLost n x s).loft = s.loft := by simp [recLost]

@[simp] theorem mirrorDone_loft (g : Option Nat) (s : State) :
    (mirrorDone g s).loft = s.loft := by simp [mirrorDone]

@[simp] theorem recVerified_loft (n lba : Nat) (x : ClosedSector) (st : Stamp) (s : State) :
    (recVerified n lba x st s).loft = s.loft := by
  unfold recVerified
  with_reducible repeat' first | rfl | intro _ | refine (summaryEntry_loft ..).trans ?_ | refine (recWriteOver_loft ..).trans ?_
                               | refine (relocated_loft ..).trans ?_ | refine (recCount_loft ..).trans ?_
                               | refine (dropClosed_loft ..).trans ?_ | refine (State_updRecChan_loft ..).trans ?_
                               | refine (State_updSeg_loft ..).trans ?_ | refine (mirrorAck_loft ..).trans ?_
                               | refine (mirrorDone_loft ..).trans ?_ | split | dsimp only

@[simp] theorem recFailed_loft (n lba : Nat) (x : ClosedSector) (s : State) :
    (recFailed n lba x s).loft = s.loft := by
  unfold recFailed
  with_reducible repeat' first | rfl | intro _ | refine (summaryEntry_loft ..).trans ?_ | refine (recWriteOver_loft ..).trans ?_
                               | refine (mirrorAck_loft ..).trans ?_ | refine (recLost_loft ..).trans ?_
                               | refine (dropClosed_loft ..).trans ?_ | refine (mirrorDone_loft ..).trans ?_
                               | refine (State_updRecChan_loft ..).trans ?_ | split | dsimp only

@[simp] theorem updRecSector_loft (n lba : Nat) (f : ClosedSector → ClosedSector) (s : State) :
    (updRecSector n lba f s).loft = s.loft := by simp [updRecSector]

@[simp] theorem recWritten_loft (lba : Nat) (t : Time) (ok : Bool) (s : State) :
    (recWritten lba t ok s).loft = s.loft := by
  unfold recWritten
  with_reducible repeat' first | rfl | intro _ | refine (putSector_loft ..).trans ?_ | refine (updRecSector_loft ..).trans ?_
                               | refine (recVerified_loft ..).trans ?_ | refine (verifyFailed_loft ..).trans ?_
                               | refine (recFailed_loft ..).trans ?_ | split | dsimp only

/-! ### SectorOps.lean -/

theorem afterSector_memWf (id : Nat) (s : State) (h_s : memWf s.loft.mem = true) :
    memWf (afterSector id s).loft.mem = true := by
  unfold afterSector
  with_reducible repeat' first | assumption | intro _ | apply unloadIfWaiting_memWf | apply endCmd_memWf | split | dsimp only

@[simp] theorem writeOutcome_loft (id i : Nat) (c : DiskCmd) (x : Stamp) (ok other : Bool) (s : State) :
    (writeOutcome id i c x ok other s).loft = s.loft := by
  unfold writeOutcome
  with_reducible repeat' first | rfl | intro _ | refine (relocated_loft ..).trans ?_ | refine (State_updCmd_loft ..).trans ?_
                               | refine (verifyFailed_loft ..).trans ?_ | split | dsimp only

theorem hostWritten_memWf (id i : Nat) (t : Time) (ok other : Bool) (s : State) (h_s : memWf s.loft.mem = true) :
    memWf (hostWritten id i t ok other s).loft.mem = true := by
  unfold hostWritten
  with_reducible repeat' first | assumption | intro _ | apply unloadIfWaiting_memWf | apply abortCmd_memWf
                               | refine memWf_of (putSector_loft ..) ?_ | refine memWf_of (keyCount_loft ..) ?_ | apply afterSector_memWf
                               | refine memWf_of (writeOutcome_loft ..) ?_ | split | dsimp only

theorem deliverSector_memWf (c : DiskCmd) (i : Nat) (d : Bytes) (x : Stamp) (s : State) (h_s : memWf s.loft.mem = true) :
    memWf (deliverSector c i d x s).loft.mem = true := by
  unfold deliverSector
  with_reducible repeat' first | assumption | intro _ | apply loftWrite_memWf | split | dsimp only

@[simp] theorem readUses_loft (c : DiskCmd) (s : State) :
    (readUses c s).loft = s.loft := by
  unfold readUses
  with_reducible repeat' first | rfl | intro _ | refine (keyCount_loft ..).trans ?_ | split | dsimp only

theorem hostRead_memWf (id i : Nat) (good other : Bool) (s : State) (h_s : memWf s.loft.mem = true) :
    memWf (hostRead id i good other s).loft.mem = true := by
  unfold hostRead
  with_reducible repeat' first | assumption | intro _ | refine memWf_of (State_updCmd_loft ..) ?_
                               | refine memWf_of (State.drawn_loft ..) ?_ | refine memWf_of (readUses_loft ..) ?_
                               | apply deliverSector_memWf | refine memWf_of (raiseSrc_loft ..) ?_ | refine pair_memWf (by assumption) ?_
                               | refine triple_memWf (by assumption) ?_ | split | dsimp only

/-! ### Channel.lean -/

@[simp] theorem paFltRise_loft (status : Nat) (s : State) :
    (paFltRise status s).loft = s.loft := by
  unfold paFltRise
  with_reducible repeat' first | rfl | intro _ | refine (State.updChn_loft ..).trans ?_ | refine (paFrame_loft ..).trans ?_
                               | refine (crumbOf_loft ..).trans ?_ | split | dsimp only

theorem execPaFltRise_loft (status : BitVec 8) (s : State) :
    keepsLoft s (execPaFltRise status s) := by
  unfold execPaFltRise
  with_reducible repeat' first | rfl | intro _ | apply keepsLoft_running | apply keepsLoft_next | refine (paFltRise_loft ..).trans ?_
                               | split | dsimp only

theorem execPaFltPersist_memWf (forMs : Nat) (s : State) (h_s : memWf s.loft.mem = true) :
    keepsMem (execPaFltPersist forMs s) := by
  unfold execPaFltPersist
  with_reducible repeat' first | assumption | intro _ | apply keepsMem_running | apply keepsMem_next
                               | refine memWf_of (State.updChn_loft ..) ?_ | apply channelFault_memWf | split | dsimp only

@[simp] theorem wedgeMissed_loft (otherHead : Bool) (s : State) :
    (wedgeMissed otherHead s).loft = s.loft := by
  unfold wedgeMissed
  with_reducible repeat' first | rfl | intro _ | refine (State.updChn_loft ..).trans ?_ | refine (servoLost_loft ..).trans ?_ | split | dsimp only

@[simp] theorem searchDone_loft (s : State) :
    (searchDone s).loft = s.loft := by
  unfold searchDone
  with_reducible repeat' first | rfl | intro _ | refine (State.updChn_loft ..).trans ?_ | refine (startSeek_loft ..).trans ?_ | split | dsimp only

theorem seekSettled_memWf (s : State) (h_s : memWf s.loft.mem = true) :
    memWf (seekSettled s).loft.mem = true := by
  unfold seekSettled
  with_reducible repeat' first | assumption | intro _ | refine memWf_of (State.updChn_loft ..) ?_ | apply finishAll_memWf | split | dsimp only

theorem wedgeValid_memWf (number cyl : Nat) (pes : Int) (tick : Nat) (s : State) (h_s : memWf s.loft.mem = true) :
    memWf (wedgeValid number cyl pes tick s).loft.mem = true := by
  unfold wedgeValid
  with_reducible repeat' first | assumption | intro _ | refine memWf_of (State.updChn_loft ..) ?_
                               | refine memWf_of (wedgeMissed_loft ..) ?_ | refine memWf_of (searchDone_loft ..) ?_
                               | refine memWf_of (servoLost_loft ..) ?_ | apply seekSettled_memWf | split | dsimp only

theorem servoWedge_memWf (inTime parity : Bool) (number head gray a b c d tick pred : Nat) (s : State) (h_s : memWf s.loft.mem = true) :
    memWf (servoWedge inTime parity number head gray a b c d tick pred s).loft.mem = true := by
  unfold servoWedge
  with_reducible repeat' first | assumption | intro _ | refine memWf_of (wedgeMissed_loft ..) ?_
                               | refine memWf_of (State.updChn_loft ..) ?_ | apply wedgeValid_memWf | split | dsimp only

theorem execServoWedge_memWf (inTime parity : Bool) (number head gray a b c d tick pred : Nat) (s : State) (h_s : memWf s.loft.mem = true) :
    keepsMem (execServoWedge inTime parity number head gray a b c d tick pred s) := by
  unfold execServoWedge
  with_reducible repeat' first | assumption | intro _ | apply keepsMem_running | apply keepsMem_next | apply servoWedge_memWf | split | dsimp only

theorem execServoSearchEnd_memWf (waitedUs : Nat) (s : State) (h_s : memWf s.loft.mem = true) :
    keepsMem (execServoSearchEnd waitedUs s) := by
  unfold execServoSearchEnd
  with_reducible repeat' first | assumption | intro _ | apply keepsMem_running | apply keepsMem_next | apply startUnload_memWf | split | dsimp only

theorem failWaiting_memWf (l : List (Nat × Nat)) (s : State) (h_s : memWf s.loft.mem = true) :
    memWf (failWaiting l s).loft.mem = true := by
  unfold failWaiting
  with_reducible repeat' first | assumption | intro _ | refine foldl_memWf ?_ _ _ ?_ | refine memWf_of (State_updCmd_loft ..) ?_ | split | dsimp only

theorem seekError_memWf (waiting : List (Nat × Nat)) (s : State) (h_s : memWf s.loft.mem = true) :
    memWf (seekError waiting s).loft.mem = true := by
  unfold seekError
  with_reducible repeat' first | assumption | intro _ | refine memWf_of (crumbOf_loft ..) ?_ | refine memWf_of (raiseSrc_loft ..) ?_
                               | refine memWf_of (State.updChn_loft ..) ?_ | refine memWf_of (startSeek_loft ..) ?_
                               | refine memWf_of (State.emit_loft ..) ?_ | apply failWaiting_memWf | split | dsimp only

theorem execSeekError_memWf (waitedMs : Nat) (elsewhere : Bool) (waiting : List (Nat × Nat)) (s : State) (h_s : memWf s.loft.mem = true) :
    keepsMem (execSeekError waitedMs elsewhere waiting s) := by
  unfold execSeekError
  with_reducible repeat' first | assumption | intro _ | apply keepsMem_running | apply keepsMem_next | apply seekError_memWf | split | dsimp only

theorem loadTimeout_memWf (s : State) (h_s : memWf s.loft.mem = true) :
    memWf (loadTimeout s).loft.mem = true := by
  unfold loadTimeout
  with_reducible repeat' first | assumption | intro _ | apply startUnload_memWf | refine memWf_of (State.updChn_loft ..) ?_
                               | apply channelFault_memWf | refine memWf_of (crumbOf_loft ..) ?_ | refine memWf_of (raiseSrc_loft ..) ?_
                               | split | dsimp only

theorem execLoadTimeout_memWf (ms : Nat) (s : State) (h_s : memWf s.loft.mem = true) :
    keepsMem (execLoadTimeout ms s) := by
  unfold execLoadTimeout
  with_reducible repeat' first | assumption | intro _ | apply keepsMem_running | apply keepsMem_next | apply loadTimeout_memWf | split | dsimp only

theorem fenceSlice_memWf (i trigger : Nat) (s : State) (h_s : memWf s.loft.mem = true) :
    memWf (fenceSlice i trigger s).loft.mem = true := by
  unfold fenceSlice
  with_reducible repeat' first | assumption | intro _ | refine memWf_of (crumbOf_loft ..) ?_ | refine memWf_of (raiseSrc_loft ..) ?_
                               | refine memWf_of (State.updChn_loft ..) ?_ | refine memWf_of (syncChron_loft ..) ?_
                               | apply unloadIfWaiting_memWf | apply endAll_memWf | split | dsimp only

theorem fenceOf_memWf (f : Option (Fin 4 × Bool)) (s : State) (h_s : memWf s.loft.mem = true) :
    memWf (fenceOf f s).loft.mem = true := by
  unfold fenceOf
  with_reducible repeat' first | assumption | intro _ | apply fenceSlice_memWf | split | dsimp only

theorem execVerifyDone_memWf (rec : Bool) (id idx sec ns frac : Nat) (ok other : Bool) (fence : Option (Fin 4 × Bool)) (s : State)
        (h_s : memWf s.loft.mem = true) :
    keepsMem (execVerifyDone rec id idx sec ns frac ok other fence s) := by
  unfold execVerifyDone
  with_reducible repeat' first | assumption | intro _ | apply keepsMem_running | apply keepsMem_next
                               | refine memWf_of (State.updChn_loft ..) ?_ | apply fenceOf_memWf | refine memWf_of (recWritten_loft ..) ?_
                               | apply hostWritten_memWf | split | dsimp only

theorem execReadDecodeDone_memWf (id idx : Nat) (good other : Bool) (fence : Option (Fin 4 × Bool)) (s : State) (h_s : memWf s.loft.mem = true) :
    keepsMem (execReadDecodeDone id idx good other fence s) := by
  unfold execReadDecodeDone
  with_reducible repeat' first | assumption | intro _ | apply keepsMem_running | apply keepsMem_next | apply fenceOf_memWf
                               | apply hostRead_memWf | split | dsimp only

theorem execSliceKnownAnswerTest_memWf (slice : Fin 4) (ok : Bool) (s : State) (h_s : memWf s.loft.mem = true) :
    keepsMem (execSliceKnownAnswerTest slice ok s) := by
  unfold execSliceKnownAnswerTest
  with_reducible repeat' first | assumption | intro _ | apply keepsMem_running | apply keepsMem_next | apply fenceSlice_memWf | split | dsimp only

@[simp] theorem cmdChnHdaSet_loft  (s : State) (t : Nat) (p : Bytes) :
    (Cmd.run cmdChnHdaSet s t p).state.loft = s.loft := by
  unfold cmdChnHdaSet
  with_reducible repeat' first | rfl | intro _ | refine (State.updChn_loft ..).trans ?_ | split
                               | dsimp only [Reply.state_done, Reply.state_accept, Reply.state_silent]

@[simp] theorem cmdChnZoneSet_loft  (s : State) (t : Nat) (p : Bytes) :
    (Cmd.run cmdChnZoneSet s t p).state.loft = s.loft := by
  unfold cmdChnZoneSet
  with_reducible repeat' first | rfl | intro _ | refine (State.updChn_loft ..).trans ?_ | split
                               | dsimp only [Reply.state_done, Reply.state_accept, Reply.state_silent]

@[simp] theorem cmdChnCommit_loft  (s : State) (t : Nat) (p : Bytes) :
    (Cmd.run cmdChnCommit s t p).state.loft = s.loft := by simp [cmdChnCommit]

@[simp] theorem putFormat_loft (f : Format) (s : State) :
    (putFormat f s).loft = s.loft := by simp [putFormat]

theorem commitEnd_memWf (j : Job) (s : State) (h_s : memWf s.loft.mem = true) :
    memWf (commitEnd j s).loft.mem = true := by
  unfold commitEnd
  with_reducible repeat' first | assumption | intro _ | apply completeJob_memWf | refine memWf_of (syncChron_loft ..) ?_
                               | refine memWf_of (putFormat_loft ..) ?_ | refine memWf_of (keepSetup_loft ..) ?_ | split | dsimp only

theorem cmdChnHeads_memWf  (s : State) (t : Nat) (p : Bytes) (h_s : memWf s.loft.mem = true) :
    memWf (Cmd.run cmdChnHeads s t p).state.loft.mem = true := by
  unfold cmdChnHeads
  with_reducible repeat' first | assumption | intro _ | apply startUnload_memWf | refine memWf_of (startLoad_loft ..) ?_ | split
                               | dsimp only [Reply.state_done, Reply.state_accept, Reply.state_silent]

@[simp] theorem cmdChnCal_loft  (s : State) (t : Nat) (p : Bytes) :
    (Cmd.run cmdChnCal s t p).state.loft = s.loft := by
  unfold cmdChnCal
  with_reducible repeat' first | rfl | intro _ | split | dsimp only [Reply.state_done, Reply.state_accept, Reply.state_silent]

theorem calEnd_memWf (j : Job) (l : List Int) (s : State) (h_s : memWf s.loft.mem = true) :
    memWf (calEnd j l s).loft.mem = true := by
  unfold calEnd
  with_reducible repeat' first | assumption | intro _ | refine memWf_of (State.updChn_loft ..) ?_ | apply completeJob_memWf | split | dsimp only

@[simp] theorem cmdChnStatus_loft  (s : State) (t : Nat) (p : Bytes) :
    (Cmd.run cmdChnStatus s t p).state.loft = s.loft := by simp [cmdChnStatus]

@[simp] theorem cmdChnPaXfer_loft  (s : State) (t : Nat) (p : Bytes) :
    (Cmd.run cmdChnPaXfer s t p).state.loft = s.loft := by
  unfold cmdChnPaXfer
  with_reducible repeat' first | rfl | intro _ | refine (paFrame_loft ..).trans ?_ | refine (State.drawn_loft ..).trans ?_ | split
                               | dsimp only [Reply.state_done, Reply.state_accept, Reply.state_silent]

theorem cmdChnDefectRead_memWf  (s : State) (t : Nat) (p : Bytes) (h_s : memWf s.loft.mem = true) :
    memWf (Cmd.run cmdChnDefectRead s t p).state.loft.mem = true := by
  unfold cmdChnDefectRead
  with_reducible repeat' first | assumption | intro _ | apply pin_memWf | split
                               | dsimp only [Reply.state_done, Reply.state_accept, Reply.state_silent]

theorem defectReadEnd_memWf (j : Job) (s : State) (h_s : memWf s.loft.mem = true) :
    memWf (defectReadEnd j s).loft.mem = true := by
  unfold defectReadEnd
  with_reducible repeat' first | assumption | intro _ | apply completeJob_memWf | apply loftWrite_memWf | split | dsimp only

@[simp] theorem cmdChnDefectAdd_loft  (s : State) (t : Nat) (p : Bytes) :
    (Cmd.run cmdChnDefectAdd s t p).state.loft = s.loft := by
  unfold cmdChnDefectAdd
  with_reducible repeat' first | rfl | intro _ | split | dsimp only [Reply.state_done, Reply.state_accept, Reply.state_silent]

theorem defectAddEnd_memWf (j : Job) (good : Bool) (s : State) (h_s : memWf s.loft.mem = true) :
    memWf (defectAddEnd j good s).loft.mem = true := by
  unfold defectAddEnd
  with_reducible repeat' first | assumption | intro _ | apply completeJob_memWf | refine memWf_of (relocated_loft ..) ?_
                               | refine memWf_of (State.updChn_loft ..) ?_ | split | dsimp only

@[simp] theorem cmdChnSliceEnable_loft  (s : State) (t : Nat) (p : Bytes) :
    (Cmd.run cmdChnSliceEnable s t p).state.loft = s.loft := by simp [cmdChnSliceEnable]

theorem sliceEnabled_memWf (j : Job) (s : State) (h_s : memWf s.loft.mem = true) :
    memWf (sliceEnabled j s).loft.mem = true := by
  unfold sliceEnabled
  with_reducible repeat' first | assumption | intro _ | apply completeJob_memWf | refine memWf_of (syncChron_loft ..) ?_
                               | refine memWf_of (State.updChn_loft ..) ?_ | split | dsimp only

theorem execChnHdaSet_loft (c : Call) (s : State) :
    keepsLoft s (execChnHdaSet c s) := by
  apply keepsLoft_running; simp

theorem execChnZoneSet_loft (c : Call) (s : State) :
    keepsLoft s (execChnZoneSet c s) := by
  apply keepsLoft_running; simp

theorem execChnCommit_loft (c : Call) (s : State) :
    keepsLoft s (execChnCommit c s) := by
  apply keepsLoft_running; simp

theorem execChnHeads_memWf (c : Call) (s : State) (h_s : memWf s.loft.mem = true) :
    keepsMem (execChnHeads c s) := by
  unfold execChnHeads
  with_reducible repeat' first | assumption | intro _ | apply keepsMem_running | apply keepsMem_next | apply command_memWf
                               | apply cmdChnHeads_memWf | split | dsimp only

theorem execChnCal_loft (c : Call) (s : State) :
    keepsLoft s (execChnCal c s) := by
  apply keepsLoft_running; simp

theorem execChnStatus_loft (c : Call) (s : State) :
    keepsLoft s (execChnStatus c s) := by
  apply keepsLoft_running; simp

theorem execChnPaXfer_loft (c : Call) (s : State) :
    keepsLoft s (execChnPaXfer c s) := by
  apply keepsLoft_running; simp

theorem execChnDefectRead_memWf (c : Call) (s : State) (h_s : memWf s.loft.mem = true) :
    keepsMem (execChnDefectRead c s) := by
  unfold execChnDefectRead
  with_reducible repeat' first | assumption | intro _ | apply keepsMem_running | apply keepsMem_next | apply command_memWf
                               | apply cmdChnDefectRead_memWf | split | dsimp only

theorem execChnDefectAdd_loft (c : Call) (s : State) :
    keepsLoft s (execChnDefectAdd c s) := by
  apply keepsLoft_running; simp

theorem execChnSliceEnable_loft (c : Call) (s : State) :
    keepsLoft s (execChnSliceEnable c s) := by
  apply keepsLoft_running; simp

/-! ### FlowOps.lean -/

@[simp] theorem setFlow_loft (i svc : Nat) (f : Flow) (s : State) :
    (setFlow i svc f s).loft = s.loft := by simp [setFlow]

@[simp] theorem freeFlow_loft (i : Nat) (s : State) :
    (freeFlow i s).loft = s.loft := by simp [freeFlow]

/-! ### Recording.lean -/

theorem takePacket_memWf (n q : Nat) (b : Bytes) (blue : Bool) (t : Time) (s : State) (h_s : memWf s.loft.mem = true) :
    memWf (takePacket n q b blue t s).loft.mem = true := by
  unfold takePacket
  with_reducible repeat' first | assumption | refine memWf_of (markTaken_loft ..) ?_ | intro _ | refine memWf_of (State_updRecChan_loft ..) ?_
                               | refine memWf_of (recCount_loft ..) ?_ | apply placeRaw_memWf | apply placeReady_memWf
                               | apply placeFramed_memWf | apply placeHeld_memWf | split | dsimp only

theorem recordPacket_memWf (n : Nat) (blue : Bool) (u : Bytes) (t : Time) (s : State) (h_s : memWf s.loft.mem = true) :
    memWf (recordPacket n blue u t s).loft.mem = true := by
  unfold recordPacket
  with_reducible repeat' first | assumption | intro _ | refine memWf_of (recCount_loft ..) ?_ | apply endSegment_memWf
                               | refine memWf_of (State_updRecChan_loft ..) ?_ | apply takePacket_memWf
                               | refine pair_memWf (by assumption) ?_ | refine triple_memWf (by assumption) ?_ | split | dsimp only

theorem execSectorCloseTimer_loft (n : Fin 512) (s : State) :
    keepsLoft s (execSectorCloseTimer n s) := by
  apply keepsLoft_running; simp

theorem releaseHeld_memWf (n : Nat) (x0 : Nat) (x1 : State) (h_x1 : memWf x1.loft.mem = true) :
    memWf (releaseHeld n x0 x1).loft.mem = true := by
  induction x0 generalizing x1 with
  | zero => unfold releaseHeld; assumption
  | succ n ih =>
    unfold releaseHeld
    with_reducible repeat' first | assumption | intro _ | apply ih | apply placeHeld_memWf | split | dsimp only

theorem execFramedHoldRelease_memWf (n : Fin 512) (s : State) (h_s : memWf s.loft.mem = true) :
    keepsMem (execFramedHoldRelease n s) := by
  unfold execFramedHoldRelease
  with_reducible repeat' first | assumption | intro _ | apply keepsMem_running | apply keepsMem_next | apply placeReady_memWf
                               | apply releaseHeld_memWf | split | dsimp only

theorem execSectorHandOver_memWf (n : Fin 512) (s : State) (h_s : memWf s.loft.mem = true) :
    keepsMem (execSectorHandOver n s) := by
  unfold execSectorHandOver
  with_reducible repeat' first | assumption | intro _ | apply keepsMem_running | apply keepsMem_next | apply handOver_memWf | split | dsimp only

theorem execSegmentClosed_loft (n : Fin 512) (start : Nat) (s : State) :
    keepsLoft s (execSegmentClosed n start s) := by
  unfold execSegmentClosed
  with_reducible repeat' first | rfl | intro _ | apply keepsLoft_running | apply keepsLoft_next | refine (closeSeg_loft ..).trans ?_
                               | split | dsimp only

theorem execBlockSummary_loft (block sec ns frac : Nat) (ok : Bool) (s : State) :
    keepsLoft s (execBlockSummary block sec ns frac ok s) := by
  unfold execBlockSummary
  with_reducible repeat' first | rfl | intro _ | apply keepsLoft_running | apply keepsLoft_next | refine (putSector_loft ..).trans ?_
                               | refine (State.updDsk_loft ..).trans ?_ | refine (verifyFailed_loft ..).trans ?_ | split | dsimp only

@[simp] theorem cmdRecAreaSet_loft  (s : State) (t : Nat) (p : Bytes) :
    (Cmd.run cmdRecAreaSet s t p).state.loft = s.loft := by
  unfold cmdRecAreaSet
  with_reducible repeat' first | rfl | intro _ | refine (foldl_loft ?_ _ _).trans ?_ | refine (keepSetup_loft ..).trans ?_
                               | refine (retireSeg_loft ..).trans ?_ | refine (State.updDsk_loft ..).trans ?_ | split
                               | dsimp only [Reply.state_done, Reply.state_accept, Reply.state_silent]

theorem disableChan_memWf (n : Nat) (s : State) (h_s : memWf s.loft.mem = true) :
    memWf (disableChan n s).loft.mem = true := by
  unfold disableChan
  with_reducible repeat' first | assumption | intro _ | refine foldl_memWf ?_ _ _ ?_ | apply endSegment_memWf
                               | refine memWf_of (freeFlow_loft ..) ?_ | refine memWf_of (State_updRecChan_loft ..) ?_
                               | refine memWf_of (recCount_loft ..) ?_ | apply freeYealm_memWf | split | dsimp only

theorem cmdRecChannelSet_memWf  (s : State) (t : Nat) (p : Bytes) (h_s : memWf s.loft.mem = true) :
    memWf (Cmd.run cmdRecChannelSet s t p).state.loft.mem = true := by
  unfold cmdRecChannelSet
  with_reducible repeat' first | assumption | intro _ | apply disableChan_memWf | refine memWf_of (setFlow_loft ..) ?_
                               | refine memWf_of (State_updRecChan_loft ..) ?_ | split
                               | dsimp only [Reply.state_done, Reply.state_accept, Reply.state_silent]

@[simp] theorem cmdRecChannelStatus_loft  (s : State) (t : Nat) (p : Bytes) :
    (Cmd.run cmdRecChannelStatus s t p).state.loft = s.loft := by simp [cmdRecChannelStatus]

@[simp] theorem cmdRecSegList_loft  (s : State) (t : Nat) (p : Bytes) :
    (Cmd.run cmdRecSegList s t p).state.loft = s.loft := by
  unfold cmdRecSegList
  with_reducible repeat' first | rfl | intro _ | split | dsimp only [Reply.state_done, Reply.state_accept, Reply.state_silent]

@[simp] theorem cmdRecSegHold_loft  (s : State) (t : Nat) (p : Bytes) :
    (Cmd.run cmdRecSegHold s t p).state.loft = s.loft := by
  unfold cmdRecSegHold
  with_reducible repeat' first | rfl | intro _ | refine (segCrumb_loft ..).trans ?_ | refine (State_updSeg_loft ..).trans ?_ | split
                               | dsimp only [Reply.state_done, Reply.state_accept, Reply.state_silent]

theorem cmdRecRead_memWf  (s : State) (t : Nat) (p : Bytes) (h_s : memWf s.loft.mem = true) :
    memWf (Cmd.run cmdRecRead s t p).state.loft.mem = true := by
  unfold cmdRecRead
  with_reducible repeat' first | assumption | intro _ | apply pinAll_memWf | split
                               | dsimp only [Reply.state_done, Reply.state_accept, Reply.state_silent]

theorem recDeliver_memWf (j : Job) (i lba : Nat) (s : State) (h_s : memWf s.loft.mem = true) :
    memWf (recDeliver j i lba s).loft.mem = true := by
  unfold recDeliver
  with_reducible repeat' first | assumption | intro _ | apply loftWrite_memWf | refine memWf_of (State.drawn_loft ..) ?_
                               | refine pair_memWf (by assumption) ?_ | refine triple_memWf (by assumption) ?_ | split | dsimp only

theorem recReadEnd_memWf (j : Job) (fail : Option Nat) (good : Nat) (s : State) (h_s : memWf s.loft.mem = true) :
    memWf (recReadEnd j fail good s).loft.mem = true := by
  unfold recReadEnd
  with_reducible repeat' first | assumption | intro _ | refine foldl_memWf ?_ _ _ ?_ | apply completeJob_memWf | apply recDeliver_memWf
                               | apply poisonRange_memWf | split | dsimp only

theorem execRecAreaSet_loft (c : Call) (s : State) :
    keepsLoft s (execRecAreaSet c s) := by
  apply keepsLoft_running; simp

theorem execRecChannelSet_memWf (c : Call) (s : State) (h_s : memWf s.loft.mem = true) :
    keepsMem (execRecChannelSet c s) := by
  unfold execRecChannelSet
  with_reducible repeat' first | assumption | intro _ | apply keepsMem_running | apply keepsMem_next | apply command_memWf
                               | apply cmdRecChannelSet_memWf | split | dsimp only

theorem execRecChannelStatus_loft (c : Call) (s : State) :
    keepsLoft s (execRecChannelStatus c s) := by
  apply keepsLoft_running; simp

theorem execRecSegList_loft (c : Call) (s : State) :
    keepsLoft s (execRecSegList c s) := by
  apply keepsLoft_running; simp

theorem execRecSegHold_loft (c : Call) (s : State) :
    keepsLoft s (execRecSegHold c s) := by
  apply keepsLoft_running; simp

theorem execRecRead_memWf (c : Call) (s : State) (h_s : memWf s.loft.mem = true) :
    keepsMem (execRecRead c s) := by
  unfold execRecRead
  with_reducible repeat' first | assumption | intro _ | apply keepsMem_running | apply keepsMem_next | apply command_memWf
                               | apply cmdRecRead_memWf | split | dsimp only

end Sys2Proof.Machine
end

