-- ==== Sys2Proof/Laws/LoftBoot.lean ====
section
/-!
SUPPORT. The Loft through boot, disk rows and port operations: for each function that leaves the Loft alone, that it does (`_loft`); for each that
may write it, that its memory keeps the canonical form (`_memWf`).
-/
namespace Sys2Proof.Machine
open Sys2Proof
set_option linter.all false

/-! ### BootOps.lean -/

theorem resetBase_memWf (s : State) (h_s : memWf s.loft.mem = true) :
    memWf (resetBase s).loft.mem = true := rfl

theorem powerOff_memWf (k : Power) (s : State) (h_s : memWf s.loft.mem = true) :
    memWf (powerOff k s).loft.mem = true := by
  unfold powerOff
  with_reducible repeat' first | assumption | intro _ | apply memWf_write | apply memWf_filter | rfl | apply resetBase_memWf | split
                               | dsimp only [State.updLoft, Loft.setTag, Loft.clear, Loft.write]

@[simp] theorem otpAlarm_loft (r : Nat) (s : State) :
    (otpAlarm r s).loft = s.loft := by simp [otpAlarm]

@[simp] theorem toRecovery_loft (s : State) :
    (toRecovery s).loft = s.loft := by simp [toRecovery]

theorem romOtp_memWf (s : State) (h_s : memWf s.loft.mem = true) :
    memWf (romOtp s).loft.mem = true := by
  unfold romOtp
  with_reducible repeat' first | assumption | intro _ | refine foldl_memWf ?_ _ _ ?_ | apply memWf_write | apply memWf_filter | rfl
                               | refine memWf_of (otpAlarm_loft ..) ?_ | apply enterSafe_memWf | refine memWf_of (toRecovery_loft ..) ?_
                               | refine memWf_of (State.updBoot_loft ..) ?_ | split | dsimp only [State.updLoft, Loft.setTag, Loft.clear, Loft.write]

@[simp] theorem putSetup_loft (s : State) :
    (putSetup s).loft = s.loft := by
  unfold putSetup
  with_reducible repeat' first | rfl | intro _ | refine (foldl_loft ?_ _ _).trans ?_ | refine (State.updA_loft ..).trans ?_
                               | refine (putFormat_loft ..).trans ?_ | refine (State.updChn_loft ..).trans ?_
                               | refine (State.updDsk_loft ..).trans ?_ | split | dsimp only

@[simp] theorem romKeepsake_loft (s : State) :
    (romKeepsake s).loft = s.loft := by
  unfold romKeepsake
  with_reducible repeat' first | rfl | intro _ | refine (State.updBoot_loft ..).trans ?_ | refine (State.updTb_loft ..).trans ?_
                               | refine (State.updRec_loft ..).trans ?_ | refine (crumb_loft ..).trans ?_
                               | refine (putSetup_loft ..).trans ?_ | refine (State.updCas_loft ..).trans ?_
                               | refine (keepUpdate_loft ..).trans ?_ | split | dsimp only

theorem romSteps_memWf (s : State) (h_s : memWf s.loft.mem = true) :
    memWf (romSteps s).loft.mem = true := by
  unfold romSteps
  with_reducible repeat' first | assumption | intro _ | apply memWf_write | apply memWf_filter | rfl
                               | refine memWf_of (State.updSup_loft ..) ?_ | refine memWf_of (romKeepsake_loft ..) ?_ | apply romOtp_memWf
                               | refine memWf_of (State.updBoot_loft ..) ?_ | split | dsimp only [State.updLoft, Loft.setTag, Loft.clear, Loft.write]

theorem deviceReset_memWf (cause : Nat) (s : State) (h_s : memWf s.loft.mem = true) :
    memWf (deviceReset cause s).loft.mem = true := by
  unfold deviceReset
  with_reducible repeat' first | assumption | intro _ | apply memWf_write | apply memWf_filter | rfl | apply resetBase_memWf
                               | apply romSteps_memWf | split | dsimp only [State.updLoft, Loft.setTag, Loft.clear, Loft.write]

theorem holdReset_memWf (cause : Nat) (s : State) (h_s : memWf s.loft.mem = true) :
    memWf (holdReset cause s).loft.mem = true := by
  unfold holdReset
  with_reducible repeat' first | assumption | intro _ | apply memWf_write | apply memWf_filter | rfl | apply powerOff_memWf | split
                               | dsimp only [State.updLoft, Loft.setTag, Loft.clear, Loft.write]

theorem startReset_memWf (cause : Nat) (s : State) (h_s : memWf s.loft.mem = true) :
    memWf (startReset cause s).loft.mem = true := by
  unfold startReset
  with_reducible repeat' first | assumption | intro _ | apply memWf_write | apply memWf_filter | rfl | apply deviceReset_memWf
                               | apply holdReset_memWf | split | dsimp only [State.updLoft, Loft.setTag, Loft.clear, Loft.write]

@[simp] theorem imageRejected_loft (code : Nat) (s : State) :
    (imageRejected code s).loft = s.loft := by
  unfold imageRejected
  with_reducible repeat' first | rfl | intro _ | refine (raiseCrumb_loft ..).trans ?_ | refine (crumb_loft ..).trans ?_ | split | dsimp only

theorem imageTaken_memWf (slot source : Nat) (img : Bytes) (bad : List Nat) (s : State) (h_s : memWf s.loft.mem = true) :
    memWf (imageTaken slot source img bad s).loft.mem = true := by
  unfold imageTaken
  with_reducible repeat' first | assumption | intro _ | refine foldl_memWf ?_ _ _ ?_ | apply memWf_write | apply memWf_filter | rfl
                               | refine memWf_of (State.updBoot_loft ..) ?_ | apply loadSpar_memWf | split
                               | dsimp only [State.updLoft, Loft.setTag, Loft.clear, Loft.write]

@[simp] theorem cutSegment_loft (s : State) (g : Segment) :
    (cutSegment s g).loft = s.loft := by
  unfold cutSegment
  with_reducible repeat' first | rfl | intro _ | refine (closeSeg_loft ..).trans ?_ | split | dsimp only

@[simp] theorem gapChannels_loft (s : State) :
    (gapChannels s).loft = s.loft := by
  unfold gapChannels
  with_reducible repeat' first | rfl | intro _ | refine (foldl_loft ?_ _ _).trans ?_ | refine (State_updRecChan_loft ..).trans ?_ | split | dsimp only

@[simp] theorem rebuildSegments_loft (s : State) :
    (rebuildSegments s).loft = s.loft := by
  unfold rebuildSegments
  with_reducible repeat' first | rfl | intro _ | refine (foldl_loft ?_ _ _).trans ?_ | refine (State.updDsk_loft ..).trans ?_
                               | refine (gapChannels_loft ..).trans ?_ | refine (cutSegment_loft ..).trans ?_
                               | refine (pair_loft (by assumption)).trans ?_ | refine (triple_loft (by assumption)).trans ?_ | split | dsimp only

@[simp] theorem recorderResumed_loft (s : State) :
    (recorderResumed s).loft = s.loft := by simp [recorderResumed]

@[simp] theorem enableTenants_loft (s : State) :
    (enableTenants s).loft = s.loft := by
  unfold enableTenants
  with_reducible repeat' first | rfl | intro _ | refine (foldl_loft ?_ _ _).trans ?_ | refine (State.updTen_loft ..).trans ?_ | split | dsimp only

@[simp] theorem raiseDeferred_loft (s : State) :
    (raiseDeferred s).loft = s.loft := by
  unfold raiseDeferred
  with_reducible repeat' first | rfl | intro _ | refine (foldl_loft ?_ _ _).trans ?_ | refine (State.updBoot_loft ..).trans ?_
                               | refine (raiseSrc_loft ..).trans ?_ | refine (crumbOf_loft ..).trans ?_ | split | dsimp only

@[simp] theorem bootRole_loft (s : State) :
    (bootRole s).loft = s.loft := by simp [bootRole]

@[simp] theorem bootMode_loft (s : State) :
    (bootMode s).loft = s.loft := by
  unfold bootMode
  with_reducible repeat' first | rfl | intro _ | refine (foldl_loft ?_ _ _).trans ?_ | refine (State.updSup_loft ..).trans ?_
                               | refine (sparResume_loft ..).trans ?_ | refine (setMode_loft ..).trans ?_
                               | refine (stopChannel_loft ..).trans ?_ | refine (enterRun_loft ..).trans ?_ | split | dsimp only

@[simp] theorem bootScan_loft (s : State) :
    (bootScan s).loft = s.loft := by
  unfold bootScan
  split
  · rfl
  · exact unlockScan_loft s

@[simp] theorem bootComplete_loft (s : State) :
    (bootComplete s).loft = s.loft := by
  unfold bootComplete
  with_reducible repeat' first | rfl | intro _ | refine (recorderResumed_loft ..).trans ?_ | refine (State.updBoot_loft ..).trans ?_
                               | refine (raiseDeferred_loft ..).trans ?_ | refine (bootRole_loft ..).trans ?_
                               | refine (enableTenants_loft ..).trans ?_ | refine (rebuildSegments_loft ..).trans ?_
                               | refine (bootMode_loft ..).trans ?_ | refine (bootScan_loft ..).trans ?_ | refine (raiseSrc_loft ..).trans ?_ | refine (crumb_loft ..).trans ?_
                               | split | dsimp only

/-! ### Boot.lean -/

@[simp] theorem withPins_loft (bootSel role : Nat) (miso : Bool) (s : State) :
    (withPins bootSel role miso s).loft = s.loft := by simp [withPins]

theorem takeWake_memWf (code : Nat) (s : State) (h_s : memWf s.loft.mem = true) :
    memWf (takeWake code s).loft.mem = true := by
  unfold takeWake
  with_reducible repeat' first | assumption | intro _ | refine memWf_of (State.updSup_loft ..) ?_ | apply startReset_memWf | split | dsimp only

theorem vinWake_memWf (vin forUs : Nat) (fell : Bool) (s : State) (h_s : memWf s.loft.mem = true) :
    memWf (vinWake vin forUs fell s).loft.mem = true := by
  unfold vinWake
  with_reducible repeat' first | assumption | intro _ | refine memWf_of (State.updSup_loft ..) ?_ | apply takeWake_memWf
                               | apply startReset_memWf | refine memWf_of (State.drawn_loft ..) ?_ | split | dsimp only

theorem execVinWake_memWf (vin forUs : Nat) (fell : Bool) (bootSel role : Fin 4) (miso : Bool) (s : State) (h_s : memWf s.loft.mem = true) :
    keepsMem (execVinWake vin forUs fell bootSel role miso s) := by
  unfold execVinWake
  with_reducible repeat' first | assumption | intro _ | apply keepsMem_running | apply keepsMem_next | apply vinWake_memWf
                               | refine memWf_of (withPins_loft ..) ?_ | split | dsimp only

theorem wakeN_memWf (vin forUs : Nat) (s : State) (h_s : memWf s.loft.mem = true) :
    memWf (wakeN vin forUs s).loft.mem = true := by
  unfold wakeN
  with_reducible repeat' first | assumption | intro _ | refine memWf_of (State.drawn_loft ..) ?_
                               | refine memWf_of (State.updSup_loft ..) ?_ | apply takeWake_memWf | split | dsimp only

theorem execWakeN_memWf (vin forUs : Nat) (bootSel role : Fin 4) (miso : Bool) (s : State) (h_s : memWf s.loft.mem = true) :
    keepsMem (execWakeN vin forUs bootSel role miso s) := by
  unfold execWakeN
  with_reducible repeat' first | assumption | intro _ | apply keepsMem_running | apply keepsMem_next | apply wakeN_memWf
                               | refine memWf_of (withPins_loft ..) ?_ | split | dsimp only

theorem guardRetract_memWf (cause : Nat) (s : State) (h_s : memWf s.loft.mem = true) :
    memWf (guardRetract cause s).loft.mem = true := by
  unfold guardRetract
  with_reducible repeat' first | assumption | intro _ | refine memWf_of (hardMute_loft ..) ?_ | refine memWf_of (closeGates_loft ..) ?_
                               | refine memWf_of (State.updSup_loft ..) ?_ | apply startUnload_memWf
                               | refine memWf_of (State.updChn_loft ..) ?_ | split | dsimp only

theorem execResetN_memWf (forUs : Nat) (s : State) (h_s : memWf s.loft.mem = true) :
    keepsMem (execResetN forUs s) := by
  unfold execResetN
  with_reducible repeat' first | assumption | intro _ | apply keepsMem_running | apply keepsMem_next
                               | refine memWf_of (State.updSup_loft ..) ?_ | apply guardRetract_memWf | apply holdReset_memWf | split | dsimp only

theorem execRetractEndReset_memWf (bootSel role : Fin 4) (miso : Bool) (s : State) (h_s : memWf s.loft.mem = true) :
    keepsMem (execRetractEndReset bootSel role miso s) := by
  unfold execRetractEndReset
  with_reducible repeat' first | assumption | intro _ | apply keepsMem_running | apply keepsMem_next | apply startReset_memWf
                               | refine memWf_of (withPins_loft ..) ?_ | split | dsimp only

theorem execResetNRelease_memWf (bootSel role : Fin 4) (miso : Bool) (s : State) (h_s : memWf s.loft.mem = true) :
    keepsMem (execResetNRelease bootSel role miso s) := by
  unfold execResetNRelease
  with_reducible repeat' first | assumption | intro _ | apply keepsMem_running | apply keepsMem_next
                               | refine memWf_of (State.updSup_loft ..) ?_ | apply deviceReset_memWf
                               | refine memWf_of (withPins_loft ..) ?_ | split | dsimp only

theorem execGuardPowerOnReset_memWf (vin : Nat) (s : State) (h_s : memWf s.loft.mem = true) :
    keepsMem (execGuardPowerOnReset vin s) := by
  unfold execGuardPowerOnReset
  with_reducible repeat' first | assumption | intro _ | apply keepsMem_running | apply keepsMem_next | apply powerOff_memWf | split | dsimp only

theorem execGuardResetRelease_loft (vin : Nat) (s : State) :
    keepsLoft s (execGuardResetRelease vin s) := by
  unfold execGuardResetRelease
  with_reducible repeat' first | rfl | intro _ | apply keepsLoft_running | apply keepsLoft_next | refine (State.updSup_loft ..).trans ?_
                               | split | dsimp only

theorem execUndervoltageLockout_memWf (vhold forUs : Nat) (s : State) (h_s : memWf s.loft.mem = true) :
    keepsMem (execUndervoltageLockout vhold forUs s) := by
  unfold execUndervoltageLockout
  with_reducible repeat' first | assumption | intro _ | apply keepsMem_running | apply keepsMem_next | apply powerOff_memWf | split | dsimp only

theorem execHeldWakeRelease_memWf (tj : Int) (bootSel role : Fin 4) (miso : Bool) (s : State) (h_s : memWf s.loft.mem = true) :
    keepsMem (execHeldWakeRelease tj bootSel role miso s) := by
  unfold execHeldWakeRelease
  with_reducible repeat' first | assumption | intro _ | apply keepsMem_running | apply keepsMem_next
                               | refine memWf_of (withPins_loft ..) ?_ | refine memWf_of (State.updSup_loft ..) ?_ | apply takeWake_memWf
                               | split | dsimp only

@[simp] theorem trainPcie_loft (s : State) :
    (trainPcie s).loft = s.loft := by simp [trainPcie]

theorem execPerstNRelease_loft (s : State) :
    keepsLoft s (execPerstNRelease s) := by
  unfold execPerstNRelease
  with_reducible repeat' first | rfl | intro _ | apply keepsLoft_running | apply keepsLoft_next | refine (trainPcie_loft ..).trans ?_
                               | refine (State.updSup_loft ..).trans ?_ | split | dsimp only

theorem execPeRefclkLoss_loft (s : State) :
    keepsLoft s (execPeRefclkLoss s) := by
  unfold execPeRefclkLoss
  with_reducible repeat' first | rfl | intro _ | apply keepsLoft_running | apply keepsLoft_next | refine (trainPcie_loft ..).trans ?_
                               | refine (State.updSup_loft ..).trans ?_ | split | dsimp only

theorem execPeRefclkRestored_loft (s : State) :
    keepsLoft s (execPeRefclkRestored s) := by
  unfold execPeRefclkRestored
  with_reducible repeat' first | rfl | intro _ | apply keepsLoft_running | apply keepsLoft_next | refine (trainPcie_loft ..).trans ?_
                               | refine (State.updSup_loft ..).trans ?_ | split | dsimp only

@[simp] theorem attemptFailed_loft (code k : Nat) (other : Bool) (s : State) :
    (attemptFailed code k other s).loft = s.loft := by
  unfold attemptFailed
  with_reducible repeat' first | rfl | intro _ | refine (imageRejected_loft ..).trans ?_ | refine (State.updBoot_loft ..).trans ?_
                               | refine (toRecovery_loft ..).trans ?_ | split | dsimp only

theorem tryImage_memWf (room slot source : Nat) (other readError : Bool) (img : Bytes) (bad : List Nat) (s : State) (h_s : memWf s.loft.mem = true) :
    memWf (tryImage room slot source other readError img bad s).loft.mem = true := by
  unfold tryImage
  with_reducible repeat' first | assumption | intro _ | apply imageTaken_memWf | refine memWf_of (attemptFailed_loft ..) ?_ | split | dsimp only

theorem pushCheck_memWf (j : Job) (bad : List Nat) (s : State) (h_s : memWf s.loft.mem = true) :
    memWf (pushCheck j bad s).loft.mem = true := by
  unfold pushCheck
  with_reducible repeat' first | assumption | intro _ | apply completeJob_memWf | apply imageTaken_memWf
                               | refine memWf_of (imageRejected_loft ..) ?_ | refine memWf_of (State.updBoot_loft ..) ?_
                               | refine memWf_of (toRecovery_loft ..) ?_ | refine memWf_of (State.drawn_loft ..) ?_ | split | dsimp only

theorem imageCheck_memWf (copies : List Bytes) (readError : Bool) (bad : List Nat) (s0 : State) (h_s0 : memWf s0.loft.mem = true) :
    memWf (imageCheck copies readError bad s0).loft.mem = true := by
  unfold imageCheck
  with_reducible repeat' first | assumption | intro _ | apply romSteps_memWf | apply pushCheck_memWf | apply tryImage_memWf
                               | refine memWf_of (attemptFailed_loft ..) ?_ | split | dsimp only

theorem execBootImageCheck_memWf (copies : List Bytes) (readError : Bool) (bad : List (Fin 3)) (s : State) (h_s : memWf s.loft.mem = true) :
    keepsMem (execBootImageCheck copies readError bad s) := by
  unfold execBootImageCheck
  with_reducible repeat' first | assumption | intro _ | apply keepsMem_running | apply keepsMem_next | apply imageCheck_memWf | split | dsimp only

theorem execCampelStartTimeout_loft (ms : Nat) (s : State) :
    keepsLoft s (execCampelStartTimeout ms s) := by
  unfold execCampelStartTimeout
  with_reducible repeat' first | rfl | intro _ | apply keepsLoft_running | apply keepsLoft_next | refine (attemptFailed_loft ..).trans ?_
                               | split | dsimp only

theorem execCascadeBootTimeout_loft (forS : Nat) (s : State) :
    keepsLoft s (execCascadeBootTimeout forS s) := by
  unfold execCascadeBootTimeout
  with_reducible repeat' first | rfl | intro _ | apply keepsLoft_running | apply keepsLoft_next | refine (toRecovery_loft ..).trans ?_
                               | split | dsimp only

theorem execBootComplete_loft (s : State) :
    keepsLoft s (execBootComplete s) := by
  unfold execBootComplete
  with_reducible repeat' first | rfl | intro _ | apply keepsLoft_running | apply keepsLoft_next | refine (bootComplete_loft ..).trans ?_
                               | split | dsimp only

@[simp] theorem cmdBootGetStatus_loft  (s : State) (t : Nat) (p : Bytes) :
    (Cmd.run cmdBootGetStatus s t p).state.loft = s.loft := by simp [cmdBootGetStatus]

@[simp] theorem cmdBootOtpRead_loft  (s : State) (t : Nat) (p : Bytes) :
    (Cmd.run cmdBootOtpRead s t p).state.loft = s.loft := by simp [cmdBootOtpRead]

@[simp] theorem cmdBootOtpProgram_loft  (s : State) (t : Nat) (p : Bytes) :
    (Cmd.run cmdBootOtpProgram s t p).state.loft = s.loft := by
  unfold cmdBootOtpProgram
  with_reducible repeat' first | rfl | intro _ | refine (State.updBoot_loft ..).trans ?_ | split
                               | dsimp only [Reply.state_done, Reply.state_accept, Reply.state_silent]

@[simp] theorem cmdBootRollbackCommit_loft  (s : State) (t : Nat) (p : Bytes) :
    (Cmd.run cmdBootRollbackCommit s t p).state.loft = s.loft := by
  unfold cmdBootRollbackCommit
  with_reducible repeat' first | rfl | intro _ | refine (State.updBoot_loft ..).trans ?_ | split
                               | dsimp only [Reply.state_done, Reply.state_accept, Reply.state_silent]

@[simp] theorem burnRows_loft  (x0 : Nat) (x1 : State) :
    (burnRows x0 x1).loft = x1.loft := by
  induction x0 generalizing x1 with
  | zero => rfl
  | succ n ih =>
    unfold burnRows
    with_reducible repeat' first | rfl | intro _ | refine (ih _).trans ?_ | refine (State.updBoot_loft ..).trans ?_
                                 | refine (State.emit_loft ..).trans ?_ | split | dsimp only

@[simp] theorem burnAll_loft (s : State) :
    (burnAll s).loft = s.loft := by simp [burnAll]

theorem burnEnd_memWf (ok : Bool) (s0 : State) (h_s0 : memWf s0.loft.mem = true) :
    memWf (burnEnd ok s0).loft.mem = true := by
  unfold burnEnd
  with_reducible repeat' first | assumption | intro _ | refine memWf_of (burnAll_loft ..) ?_ | refine memWf_of (State.updBoot_loft ..) ?_
                               | refine memWf_of (crumb_loft ..) ?_ | apply finish_memWf | refine memWf_of (State.drawn_loft ..) ?_ | split
                               | dsimp only

theorem execOtpProgramComplete_memWf (ok : Bool) (s : State) (h_s : memWf s.loft.mem = true) :
    keepsMem (execOtpProgramComplete ok s) := by
  unfold execOtpProgramComplete
  with_reducible repeat' first | assumption | intro _ | apply keepsMem_running | apply keepsMem_next | apply burnEnd_memWf | split | dsimp only

@[simp] theorem cmdBootPushDone_loft  (s : State) (t : Nat) (p : Bytes) :
    (Cmd.run cmdBootPushDone s t p).state.loft = s.loft := by
  unfold cmdBootPushDone
  with_reducible repeat' first | rfl | intro _ | split | dsimp only [Reply.state_done, Reply.state_accept, Reply.state_silent]

@[simp] theorem cmdBootEpochSet_loft  (s : State) (t : Nat) (p : Bytes) :
    (Cmd.run cmdBootEpochSet s t p).state.loft = s.loft := by
  unfold cmdBootEpochSet
  with_reducible repeat' first | rfl | intro _ | refine (keepUpdate_loft ..).trans ?_ | refine (State.updBoot_loft ..).trans ?_ | split
                               | dsimp only [Reply.state_done, Reply.state_accept, Reply.state_silent]

@[simp] theorem cmdBootRestart_loft  (s : State) (t : Nat) (p : Bytes) :
    (Cmd.run cmdBootRestart s t p).state.loft = s.loft := by simp [cmdBootRestart]

@[simp] theorem cmdBootFlashErase_loft  (s : State) (t : Nat) (p : Bytes) :
    (Cmd.run cmdBootFlashErase s t p).state.loft = s.loft := by
  unfold cmdBootFlashErase
  with_reducible repeat' first | rfl | intro _ | refine (State.updBoot_loft ..).trans ?_ | refine (State.emit_loft ..).trans ?_ | split
                               | dsimp only [Reply.state_done, Reply.state_accept, Reply.state_silent]

theorem cmdBootFlashWrite_memWf  (s : State) (t : Nat) (p : Bytes) (h_s : memWf s.loft.mem = true) :
    memWf (Cmd.run cmdBootFlashWrite s t p).state.loft.mem = true := by
  unfold cmdBootFlashWrite
  with_reducible repeat' first | assumption | intro _ | apply pin_memWf | refine memWf_of (State.updBoot_loft ..) ?_
                               | refine memWf_of (State.emit_loft ..) ?_ | split
                               | dsimp only [Reply.state_done, Reply.state_accept, Reply.state_silent]

theorem execFlashOperationComplete_memWf (ok : Bool) (s : State) (h_s : memWf s.loft.mem = true) :
    keepsMem (execFlashOperationComplete ok s) := by
  unfold execFlashOperationComplete
  with_reducible repeat' first | assumption | intro _ | apply keepsMem_running | apply keepsMem_next
                               | refine memWf_of (State.updBoot_loft ..) ?_ | apply finish_memWf | refine memWf_of (State.drawn_loft ..) ?_
                               | split | dsimp only

@[simp] theorem cmdBootSlotCheck_loft  (s : State) (t : Nat) (p : Bytes) :
    (Cmd.run cmdBootSlotCheck s t p).state.loft = s.loft := by simp [cmdBootSlotCheck]

theorem slotCheckEnd_memWf (j : Job) (s : State) (h_s : memWf s.loft.mem = true) :
    memWf (slotCheckEnd j s).loft.mem = true := by
  unfold slotCheckEnd
  with_reducible repeat' first | assumption | intro _ | apply completeJob_memWf | refine memWf_of (imageRejected_loft ..) ?_ | split | dsimp only

theorem execBootGetStatus_loft (c : Call) (s : State) :
    keepsLoft s (execBootGetStatus c s) := by
  apply keepsLoft_running; simp

theorem execBootOtpRead_loft (c : Call) (s : State) :
    keepsLoft s (execBootOtpRead c s) := by
  apply keepsLoft_running; simp

theorem execBootOtpProgram_loft (c : Call) (s : State) :
    keepsLoft s (execBootOtpProgram c s) := by
  apply keepsLoft_running; simp

theorem execBootRollbackCommit_loft (c : Call) (s : State) :
    keepsLoft s (execBootRollbackCommit c s) := by
  apply keepsLoft_running; simp

theorem execBootPushDone_loft (c : Call) (s : State) :
    keepsLoft s (execBootPushDone c s) := by
  apply keepsLoft_running; simp

theorem execBootEpochSet_loft (c : Call) (s : State) :
    keepsLoft s (execBootEpochSet c s) := by
  apply keepsLoft_running; simp

theorem execBootRestart_loft (c : Call) (s : State) :
    keepsLoft s (execBootRestart c s) := by
  apply keepsLoft_running; simp

theorem execBootFlashErase_loft (c : Call) (s : State) :
    keepsLoft s (execBootFlashErase c s) := by
  apply keepsLoft_running; simp

theorem execBootFlashWrite_memWf (c : Call) (s : State) (h_s : memWf s.loft.mem = true) :
    keepsMem (execBootFlashWrite c s) := by
  unfold execBootFlashWrite
  with_reducible repeat' first | assumption | intro _ | apply keepsMem_running | apply keepsMem_next | apply command_memWf
                               | apply cmdBootFlashWrite_memWf | split | dsimp only

theorem execBootSlotCheck_loft (c : Call) (s : State) :
    keepsLoft s (execBootSlotCheck c s) := by
  apply keepsLoft_running; simp

/-! ### Disk.lean -/

@[simp] theorem diskKeys_loft (t : Nat) (d : Bytes) (s : State) :
    (diskKeys t d s).2.2.loft = s.loft := by
  unfold diskKeys
  with_reducible repeat' first | rfl | intro _ | refine (keyStart_loft ..).trans ?_ | refine (keyEnd_loft ..).trans ?_
                               | refine (pair_loft (by assumption)).trans ?_ | refine (triple_loft (by assumption)).trans ?_ | split | dsimp only

theorem takeCommand_memWf (ring t : Nat) (d : Bytes) (first : Nat) (s : State) (h_s : memWf s.loft.mem = true) :
    memWf (takeCommand ring t d first s).loft.mem = true := by
  unfold takeCommand
  with_reducible repeat' first | assumption | intro _ | refine memWf_of (autoLoad_loft ..) ?_ | apply pinAll_memWf
                               | refine memWf_of (State.updDsk_loft ..) ?_ | split | dsimp only

theorem diskSubmit_memWf (ring t : Nat) (d : Bytes) (s : State) (h_s : memWf s.loft.mem = true) :
    memWf (diskSubmit ring t d s).loft.mem = true := by
  unfold diskSubmit
  with_reducible repeat' first | assumption | intro _ | apply completeSub_memWf | refine memWf_of (diskKeys_loft ..) ?_
                               | apply takeCommand_memWf | refine pair_memWf (by assumption) ?_ | refine triple_memWf (by assumption) ?_
                               | split | dsimp only

theorem execLockGrant_memWf (id : Nat) (s : State) (h_s : memWf s.loft.mem = true) :
    keepsMem (execLockGrant id s) := by
  unfold execLockGrant
  with_reducible repeat' first | assumption | intro _ | apply keepsMem_running | apply keepsMem_next
                               | refine memWf_of (State_updCmd_loft ..) ?_ | split | dsimp only

theorem execLockAged_memWf (id waitedMs : Nat) (s : State) (h_s : memWf s.loft.mem = true) :
    keepsMem (execLockAged id waitedMs s) := by
  unfold execLockAged
  with_reducible repeat' first | assumption | intro _ | apply keepsMem_running | apply keepsMem_next
                               | refine memWf_of (raiseCrumb_loft ..) ?_ | refine memWf_of (State_updCmd_loft ..) ?_ | split | dsimp only

theorem execDiskCommandComplete_memWf (id : Nat) (s : State) (h_s : memWf s.loft.mem = true) :
    keepsMem (execDiskCommandComplete id s) := by
  unfold execDiskCommandComplete
  with_reducible repeat' first | assumption | intro _ | apply keepsMem_running | apply keepsMem_next | apply unloadIfWaiting_memWf
                               | apply endCmd_memWf | split | dsimp only

@[simp] theorem cmdDiskGetStatus_loft  (s : State) (t : Nat) (p : Bytes) :
    (Cmd.run cmdDiskGetStatus s t p).state.loft = s.loft := by simp [cmdDiskGetStatus]

@[simp] theorem cmdDiskTagLimit_loft  (s : State) (t : Nat) (p : Bytes) :
    (Cmd.run cmdDiskTagLimit s t p).state.loft = s.loft := by simp [cmdDiskTagLimit]

theorem execDiskGetStatus_loft (c : Call) (s : State) :
    keepsLoft s (execDiskGetStatus c s) := by
  apply keepsLoft_running; simp

theorem execDiskTagLimit_loft (c : Call) (s : State) :
    keepsLoft s (execDiskTagLimit c s) := by
  apply keepsLoft_running; simp

/-! ### PortOps.lean -/

@[simp] theorem portErr_loft (p : Nat) (s : State) :
    (portErr p s).loft = s.loft := by
  unfold portErr
  with_reducible repeat' first | rfl | intro _ | refine (State.updPort_loft ..).trans ?_ | refine (raiseSrc_loft ..).trans ?_ | split | dsimp only

@[simp] theorem portCount_loft (p i n : Nat) (s : State) :
    (portCount p i n s).loft = s.loft := by
  unfold portCount
  with_reducible repeat' first | rfl | intro _ | refine (State.updPort_loft ..).trans ?_ | refine (portErr_loft ..).trans ?_ | split | dsimp only

@[simp] theorem updFlowCount_loft (p i : Nat) (f : FlowCount → FlowCount) (s : State) :
    (updFlowCount p i f s).loft = s.loft := by
  unfold updFlowCount
  with_reducible repeat' first | rfl | intro _ | refine (State.updPort_loft ..).trans ?_ | refine (State.updNet_loft ..).trans ?_ | split | dsimp only

@[simp] theorem syncTxDis_loft (p : Nat) (s : State) :
    (syncTxDis p s).loft = s.loft := by simp [syncTxDis]

@[simp] theorem sendPause_loft (p quanta : Nat) (s : State) :
    (sendPause p quanta s).loft = s.loft := by simp [sendPause]

@[simp] theorem sendXoff_loft (p : Nat) (s : State) :
    (sendXoff p s).loft = s.loft := by
  unfold sendXoff
  with_reducible repeat' first | rfl | intro _ | refine (sendPause_loft ..).trans ?_ | refine (State.updPort_loft ..).trans ?_ | split | dsimp only

@[simp] theorem leaveLpi_loft (p : Nat) (s : State) :
    (leaveLpi p s).loft = s.loft := by
  unfold leaveLpi
  with_reducible repeat' first | rfl | intro _ | refine (portCount_loft ..).trans ?_ | refine (State.updPort_loft ..).trans ?_ | split | dsimp only

theorem endTx_memWf (f : TxFrame) (status count : Nat) (result : Bytes) (s : State) (h_s : memWf s.loft.mem = true) :
    memWf (endTx f status count result s).loft.mem = true := by
  unfold endTx
  with_reducible repeat' first | assumption | intro _ | apply unpinAll_memWf | apply completeSub_memWf | split | dsimp only

theorem abortTx_memWf (p : Nat) (count : Bool) (s : State) (h_s : memWf s.loft.mem = true) :
    memWf (abortTx p count s).loft.mem = true := by
  unfold abortTx
  with_reducible repeat' first | assumption | intro _ | refine foldl_memWf ?_ _ _ ?_ | apply endTx_memWf
                               | refine memWf_of (portCount_loft ..) ?_ | refine memWf_of (State.updPort_loft ..) ?_ | split | dsimp only

@[simp] theorem sendFrame_loft (p : Nat) (d : Bytes) (t : Time) (s : State) :
    (sendFrame p d t s).loft = s.loft := by simp [sendFrame]

theorem netSubmit_memWf (n t : Nat) (d : Bytes) (s : State) (h_s : memWf s.loft.mem = true) :
    memWf (netSubmit n t d s).loft.mem = true := by
  unfold netSubmit
  with_reducible repeat' first | assumption | intro _ | apply completeSub_memWf | apply pinAll_memWf
                               | refine memWf_of (State.updPort_loft ..) ?_ | split | dsimp only

/-! ### PtpOps.lean -/

@[simp] theorem ptpCount_loft (p i : Nat) (s : State) :
    (ptpCount p i s).loft = s.loft := by simp [ptpCount]

theorem ptpCheck_memWf (s : State) (h_s : memWf s.loft.mem = true) :
    memWf (ptpCheck s).loft.mem = true := by
  unfold ptpCheck
  with_reducible repeat' first | assumption | intro _ | apply disqualify_memWf | split | dsimp only

theorem setPtpRef_memWf (s : State) (h_s : memWf s.loft.mem = true) :
    memWf (setPtpRef s).loft.mem = true := by
  unfold setPtpRef
  with_reducible repeat' first | assumption | intro _ | refine memWf_of (State.updNet_loft ..) ?_ | apply ptpCheck_memWf
                               | apply disqualify_memWf | split | dsimp only

theorem ptpTo_memWf (p : Nat) (st : PtpState) (s : State) (h_s : memWf s.loft.mem = true) :
    memWf (ptpTo p st s).loft.mem = true := by
  unfold ptpTo
  with_reducible repeat' first | assumption | intro _ | apply setPtpRef_memWf | refine memWf_of (State.updInst_loft ..) ?_ | split | dsimp only

theorem ptpLinkDown_memWf (p : Nat) (s : State) (h_s : memWf s.loft.mem = true) :
    memWf (ptpLinkDown p s).loft.mem = true := by
  unfold ptpLinkDown
  with_reducible repeat' first | assumption | intro _ | apply ptpTo_memWf | split | dsimp only

theorem ptpLinkUp_memWf (p : Nat) (s : State) (h_s : memWf s.loft.mem = true) :
    memWf (ptpLinkUp p s).loft.mem = true := by
  unfold ptpLinkUp
  with_reducible repeat' first | assumption | intro _ | apply ptpTo_memWf | refine memWf_of (State.updInst_loft ..) ?_ | split | dsimp only

@[simp] theorem authFail_loft (p i : Nat) (s : State) :
    (authFail p i s).loft = s.loft := by
  unfold authFail
  with_reducible repeat' first | rfl | intro _ | refine (ptpCount_loft ..).trans ?_ | refine (crumb_loft ..).trans ?_
                               | refine (State.updInst_loft ..).trans ?_ | split | dsimp only

@[simp] theorem authCheck_loft (p : Nat) (a : Option PtpAuth) (s : State) :
    (authCheck p a s).2.loft = s.loft := by
  unfold authCheck
  with_reducible repeat' first | rfl | intro _ | refine (authFail_loft ..).trans ?_ | refine (State.updInst_loft ..).trans ?_
                               | refine (keyStart_loft ..).trans ?_ | refine (keyEnd_loft ..).trans ?_
                               | refine (pair_loft (by assumption)).trans ?_ | refine (triple_loft (by assumption)).trans ?_ | split | dsimp only

@[simp] theorem ptpTake_loft (p : Nat) (m : PtpRx) (f : State → State) (s : State) (h_f : ∀ y0, (f y0).loft = y0.loft) :
    (ptpTake p m f s).loft = s.loft := by
  unfold ptpTake
  with_reducible repeat' first | rfl | intro _ | refine (h_f ..).trans ?_ | refine (authCheck_loft ..).trans ?_
                               | refine (pair_loft (by assumption)).trans ?_ | refine (triple_loft (by assumption)).trans ?_ | split | dsimp only

theorem ptpTake_memWf (p : Nat) (m : PtpRx) (f : State → State) (s : State) (h_s : memWf s.loft.mem = true)
        (h_f : ∀ y0, memWf y0.loft.mem = true → memWf (f y0).loft.mem = true) :
    memWf (ptpTake p m f s).loft.mem = true := by
  unfold ptpTake
  with_reducible repeat' first | assumption | intro _ | apply h_f | refine memWf_of (authCheck_loft ..) ?_
                               | refine pair_memWf (by assumption) ?_ | refine triple_memWf (by assumption) ?_ | split | dsimp only

@[simp] theorem authTlv_loft (p : Nat) (body : Bytes) (s : State) :
    (authTlv p body s).2.loft = s.loft := by
  unfold authTlv
  with_reducible repeat' first | rfl | intro _ | refine (keyStart_loft ..).trans ?_ | refine (ptpCount_loft ..).trans ?_
                               | refine (keyEnd_loft ..).trans ?_ | refine (pair_loft (by assumption)).trans ?_
                               | refine (triple_loft (by assumption)).trans ?_ | split | dsimp only

@[simp] theorem ptpSend_loft (p type group n : Nat) (body : Bytes) (s : State) :
    (ptpSend p type group n body s).2.loft = s.loft := by
  unfold ptpSend
  with_reducible repeat' first | rfl | intro _ | refine (authTlv_loft ..).trans ?_ | refine (portCount_loft ..).trans ?_
                               | refine (leaveLpi_loft ..).trans ?_ | refine (State.emit_loft ..).trans ?_
                               | refine (pair_loft (by assumption)).trans ?_ | refine (triple_loft (by assumption)).trans ?_ | split | dsimp only

@[simp] theorem ptpSignal_loft (p group tlv type : Nat) (log : Int) (duration : Nat) (s : State) :
    (ptpSignal p group tlv type log duration s).loft = s.loft := by simp [ptpSignal]

@[simp] theorem updFollower_loft (i : Nat) (f : Follower → Follower) (s : State) :
    (updFollower i f s).loft = s.loft := by simp [updFollower]

@[simp] theorem dropFollower_loft (i : Nat) (f : Follower) (s : State) :
    (dropFollower i f s).loft = s.loft := by
  unfold dropFollower
  with_reducible repeat' first | rfl | intro _ | refine (foldl_loft ?_ _ _).trans ?_ | refine (ptpSignal_loft ..).trans ?_
                               | refine (State.updNet_loft ..).trans ?_ | split | dsimp only

@[simp] theorem dropFollowers_loft (p : Nat) (s : State) :
    (dropFollowers p s).loft = s.loft := by
  unfold dropFollowers
  with_reducible repeat' first | rfl | intro _ | refine (foldl_loft ?_ _ _).trans ?_ | refine (dropFollower_loft ..).trans ?_ | split | dsimp only

theorem ptpPortLost_memWf (p : Nat) (s : State) (h_s : memWf s.loft.mem = true) :
    memWf (ptpPortLost p s).loft.mem = true := by
  unfold ptpPortLost
  with_reducible repeat' first | assumption | intro _ | refine memWf_of (State.updNet_loft ..) ?_ | refine memWf_of (crumb_loft ..) ?_
                               | apply ptpLinkDown_memWf | split | dsimp only

@[simp] theorem bumpSeq_loft (sync : Bool) (group : Nat) (s : State) :
    (bumpSeq sync group s).loft = s.loft := by
  unfold bumpSeq
  with_reducible repeat' first | rfl | intro _ | refine (State.updInst_loft ..).trans ?_ | refine (State.updNet_loft ..).trans ?_ | split | dsimp only

@[simp] theorem sendSync_loft (group : Nat) (due t : Time) (s : State) :
    (sendSync group due t s).loft = s.loft := by
  unfold sendSync
  with_reducible repeat' first | rfl | intro _ | refine (ptpSend_loft ..).trans ?_ | refine (bumpSeq_loft ..).trans ?_
                               | refine (ptpCount_loft ..).trans ?_ | refine (State.updInst_loft ..).trans ?_
                               | refine (pair_loft (by assumption)).trans ?_ | refine (triple_loft (by assumption)).trans ?_ | split | dsimp only

@[simp] theorem sendAnnounce_loft (group : Nat) (s : State) :
    (sendAnnounce group s).loft = s.loft := by
  unfold sendAnnounce
  with_reducible repeat' first | rfl | intro _ | refine (ptpSend_loft ..).trans ?_ | refine (bumpSeq_loft ..).trans ?_
                               | refine (ptpCount_loft ..).trans ?_ | refine (pair_loft (by assumption)).trans ?_
                               | refine (triple_loft (by assumption)).trans ?_ | split | dsimp only

@[simp] theorem sendFollowUp_loft (p : Nat) (s : State) :
    (sendFollowUp p s).loft = s.loft := by
  unfold sendFollowUp
  with_reducible repeat' first | rfl | intro _ | refine (State.updInst_loft ..).trans ?_ | refine (ptpSend_loft ..).trans ?_
                               | refine (ptpCount_loft ..).trans ?_ | refine (pair_loft (by assumption)).trans ?_
                               | refine (triple_loft (by assumption)).trans ?_ | split | dsimp only

@[simp] theorem ptpLaunch_loft (type group : Nat) (due : Time) (s : State) :
    (ptpLaunch type group due s).loft = s.loft := by
  unfold ptpLaunch
  with_reducible repeat' first | rfl | intro _ | refine (State.updPort_loft ..).trans ?_ | refine (sendSync_loft ..).trans ?_
                               | refine (sendAnnounce_loft ..).trans ?_ | split | dsimp only

@[simp] theorem lateLaunches_loft (p : Nat) (s : State) :
    (lateLaunches p s).loft = s.loft := by
  unfold lateLaunches
  with_reducible repeat' first | rfl | intro _ | refine (foldl_loft ?_ _ _).trans ?_ | refine (portCount_loft ..).trans ?_
                               | refine (sendSync_loft ..).trans ?_ | refine (sendAnnounce_loft ..).trans ?_
                               | refine (State.updPort_loft ..).trans ?_ | split | dsimp only

end Sys2Proof.Machine
end

