-- ==== Sys2Proof/Laws/LoftNet.lean ====
section
/-!
SUPPORT. The Loft through frames, ports, radio and guard: for each function that leaves the Loft alone, that it does (`_loft`); for each that
may write it, that its memory keeps the canonical form (`_memWf`).
-/
namespace Sys2Proof.Machine
open Sys2Proof
set_option linter.all false

/-! ### Frames.lean -/

theorem frameYealms_memWf (t n : Nat) (s : State) (h_s : memWf s.loft.mem = true) :
    ∀ a z, frameYealms t n s = some (a, z) → memWf z.loft.mem = true := by
  intro a z h
  unfold frameYealms at h
  split at h
  · cases h
  · exact allocMany_memWf _ _ _ h_s _ _ h

theorem storeFrame_memWf (hs : List Nat) (d : Bytes) (s : State) (h_s : memWf s.loft.mem = true) :
    memWf (storeFrame hs d s).loft.mem = true := by
  unfold storeFrame
  with_reducible repeat' first | assumption | intro _ | refine foldl_memWf ?_ _ _ ?_ | apply loftWrite_memWf | split | dsimp only

@[simp] theorem queueGeneral_loft (p : Nat) (d : Bytes) (s : State) :
    (queueGeneral p d s).loft = s.loft := by
  unfold queueGeneral
  with_reducible repeat' first | rfl | intro _ | refine (State.updInst_loft ..).trans ?_ | split | dsimp only

@[simp] theorem refuseFrame_loft (p i : Nat) (fl : Flow) (f : RxFrame) (s : State) :
    (refuseFrame p i fl f s).loft = s.loft := by
  unfold refuseFrame
  with_reducible repeat' first | rfl | intro _ | refine (portCount_loft ..).trans ?_ | refine (updFlowCount_loft ..).trans ?_
                               | refine (State.updRing_loft ..).trans ?_ | refine (recCount_loft ..).trans ?_
                               | refine (State.updTen_loft ..).trans ?_ | refine (ptpCount_loft ..).trans ?_ | split | dsimp only

theorem admitFrame_memWf (p i : Nat) (fl : Flow) (f : RxFrame) (s : State) (h_s : memWf s.loft.mem = true) (z : State)
    (h : admitFrame p i fl f s = .taken z) : memWf z.loft.mem = true := by
  unfold admitFrame at h
  dsimp only at h
  split at h
  · cases h
  · split at h
    · cases h
    · split at h
      · cases h
      · rename_i hs s1 heq
        have h1 := frameYealms_memWf _ _ _ h_s _ _ heq
        split at h
        · cases h
          exact produce_memWf _ _ _ (storeFrame_memWf _ _ _ h1)
        · cases h
          refine foldl_memWf (fun s a h => freeYealm_memWf _ _ h) _ _ ?_
          split
          · exact recordPacket_memWf _ _ _ _ _ h1
          · exact memWf_of (queueGeneral_loft ..) h1

theorem offerFrame_memWf (p i : Nat) (fl : Flow) (f : RxFrame) (s : State) (h_s : memWf s.loft.mem = true) :
    memWf (offerFrame p i fl f s).loft.mem = true := by
  unfold offerFrame
  split
  · rename_i heq; exact admitFrame_memWf _ _ _ _ _ h_s _ heq
  · split
    · exact memWf_of ((sendXoff_loft ..).trans (State.updPort_loft ..)) h_s
    · exact memWf_of (refuseFrame_loft ..) h_s

theorem takeFrame_memWf (p : Nat) (f : RxFrame) (s : State) (h_s : memWf s.loft.mem = true) :
    memWf (takeFrame p f s).loft.mem = true := by
  unfold takeFrame
  with_reducible repeat' first | assumption | intro _ | refine memWf_of (updFlowCount_loft ..) ?_ | refine memWf_of (portCount_loft ..) ?_
                               | apply offerFrame_memWf | refine pair_memWf (by assumption) ?_ | refine triple_memWf (by assumption) ?_
                               | split | dsimp only

theorem drainRx_memWf (p : Nat) (x0 : Nat) (x1 : State) (h_x1 : memWf x1.loft.mem = true) :
    memWf (drainRx p x0 x1).loft.mem = true := by
  induction x0 generalizing x1 with
  | zero => unfold drainRx; assumption
  | succ n ih =>
    unfold drainRx
    with_reducible repeat' first | assumption | intro _ | apply ih | apply takeFrame_memWf | refine memWf_of (State.updPort_loft ..) ?_
                                 | split | dsimp only

theorem drain_memWf (p : Nat) (s : State) (h_s : memWf s.loft.mem = true) :
    memWf (drain p s).loft.mem = true := by
  unfold drain
  with_reducible repeat' first | assumption | intro _ | apply drainRx_memWf | split | dsimp only

theorem dropHeld_memWf (p : Nat) (s : State) (h_s : memWf s.loft.mem = true) :
    memWf (dropHeld p s).loft.mem = true := by
  unfold dropHeld
  with_reducible repeat' first | assumption | intro _ | apply drain_memWf | refine memWf_of (refuseFrame_loft ..) ?_
                               | refine memWf_of (State.updPort_loft ..) ?_ | split | dsimp only

theorem retryHeld_memWf (p : Nat) (s : State) (h_s : memWf s.loft.mem = true) :
    memWf (retryHeld p s).loft.mem = true := by
  unfold retryHeld
  split
  · split
    · rename_i heq
      exact drain_memWf _ _ (admitFrame_memWf _ _ _ _ _ (memWf_of (State.updPort_loft ..) h_s) _ heq)
    · exact h_s
  · exact h_s

@[simp] theorem endPause_loft (p : Nat) (s : State) :
    (endPause p s).loft = s.loft := by simp [endPause]

@[simp] theorem takePause_loft (p : Nat) (da : Bytes) (quanta : Nat) (s : State) :
    (takePause p da quanta s).loft = s.loft := by
  unfold takePause
  with_reducible repeat' first | rfl | intro _ | refine (portCount_loft ..).trans ?_ | refine (endPause_loft ..).trans ?_
                               | refine (State.updPort_loft ..).trans ?_ | split | dsimp only

theorem receive_memWf (p : Nat) (f : RxFrame) (fcsOk pcsErr : Bool) (s : State) (h_s : memWf s.loft.mem = true) :
    memWf (receive p f fcsOk pcsErr s).loft.mem = true := by
  unfold receive
  with_reducible repeat' first | assumption | intro _ | refine memWf_of (portCount_loft ..) ?_ | refine memWf_of (takePause_loft ..) ?_
                               | apply takeFrame_memWf | refine memWf_of (State.updPort_loft ..) ?_ | refine memWf_of (sendXoff_loft ..) ?_
                               | split | dsimp only

theorem portLinkDown_memWf (p : Nat) (s : State) (h_s : memWf s.loft.mem = true) :
    memWf (portLinkDown p s).loft.mem = true := by
  unfold portLinkDown
  with_reducible repeat' first | assumption | intro _ | refine memWf_of (raiseSrc_loft ..) ?_ | refine memWf_of (State.updPort_loft ..) ?_
                               | apply dropHeld_memWf | apply abortTx_memWf | refine memWf_of (leaveLpi_loft ..) ?_
                               | apply ptpLinkDown_memWf | split | dsimp only

theorem execFrameReceived_memWf (p : Fin 6) (data : List (BitVec 8)) (fcsOk pcsErr : Bool) (sec ns frac : Nat) (s : State)
        (h_s : memWf s.loft.mem = true) :
    keepsMem (execFrameReceived p data fcsOk pcsErr sec ns frac s) := by
  unfold execFrameReceived
  with_reducible repeat' first | assumption | intro _ | apply keepsMem_running | apply keepsMem_next | apply receive_memWf | split | dsimp only

theorem execXoffRepeat_loft (p : Fin 6) (sinceNs : Nat) (s : State) :
    keepsLoft s (execXoffRepeat p sinceNs s) := by
  unfold execXoffRepeat
  with_reducible repeat' first | rfl | intro _ | apply keepsLoft_running | apply keepsLoft_next | refine (sendPause_loft ..).trans ?_
                               | split | dsimp only

theorem execXon_loft (p : Fin 6) (s : State) :
    keepsLoft s (execXon p s) := by
  unfold execXon
  with_reducible repeat' first | rfl | intro _ | apply keepsLoft_running | apply keepsLoft_next | refine (sendPause_loft ..).trans ?_
                               | refine (State.updPort_loft ..).trans ?_ | split | dsimp only

theorem execHeldFrameAdmit_memWf (p : Fin 6) (s : State) (h_s : memWf s.loft.mem = true) :
    keepsMem (execHeldFrameAdmit p s) := by
  unfold execHeldFrameAdmit
  with_reducible repeat' first | assumption | intro _ | apply keepsMem_running | apply keepsMem_next | apply retryHeld_memWf | split | dsimp only

theorem execHeldFrameTimeout_memWf (p : Fin 6) (us : Nat) (s : State) (h_s : memWf s.loft.mem = true) :
    keepsMem (execHeldFrameTimeout p us s) := by
  unfold execHeldFrameTimeout
  with_reducible repeat' first | assumption | intro _ | apply keepsMem_running | apply keepsMem_next | apply dropHeld_memWf | split | dsimp only

theorem execPauseReceived_loft (p : Fin 6) (da : List (BitVec 8)) (quanta : BitVec 16) (s : State) :
    keepsLoft s (execPauseReceived p da quanta s) := by
  unfold execPauseReceived
  with_reducible repeat' first | rfl | intro _ | apply keepsLoft_running | apply keepsLoft_next | refine (takePause_loft ..).trans ?_
                               | split | dsimp only

theorem execPauseEnd_loft (p : Fin 6) (ns : Nat) (s : State) :
    keepsLoft s (execPauseEnd p ns s) := by
  unfold execPauseEnd
  with_reducible repeat' first | rfl | intro _ | apply keepsLoft_running | apply keepsLoft_next | refine (endPause_loft ..).trans ?_
                               | split | dsimp only

/-! ### Ethernet.lean -/

theorem freeSent_memWf (f : TxFrame) (s : State) (h_s : memWf s.loft.mem = true) :
    memWf (freeSent f s).loft.mem = true := by
  unfold freeSent
  with_reducible repeat' first | assumption | intro _ | refine foldl_memWf ?_ _ _ ?_ | apply memWf_write | apply memWf_filter | rfl | split
                               | dsimp only [State.updLoft, Loft.setTag, Loft.clear, Loft.write]

theorem execFrameSent_memWf (p : Fin 6) (sec ns frac : Nat) (s : State) (h_s : memWf s.loft.mem = true) :
    keepsMem (execFrameSent p sec ns frac s) := by
  unfold execFrameSent
  with_reducible repeat' first | assumption | intro _ | apply keepsMem_running | apply keepsMem_next | apply memWf_write
                               | apply memWf_filter | rfl | refine memWf_of (State.updPort_loft ..) ?_
                               | refine memWf_of (sendFrame_loft ..) ?_ | apply endTx_memWf | refine memWf_of (portCount_loft ..) ?_
                               | apply freeSent_memWf | refine pair_memWf (by assumption) ?_ | refine triple_memWf (by assumption) ?_
                               | split | dsimp only [State.updLoft, Loft.setTag, Loft.clear, Loft.write]

theorem execLinkUp_memWf (p : Fin 6) (forMs : Nat) (an : Fin 4) (s : State) (h_s : memWf s.loft.mem = true) :
    keepsMem (execLinkUp p forMs an s) := by
  unfold execLinkUp
  with_reducible repeat' first | assumption | intro _ | apply keepsMem_running | apply keepsMem_next | apply memWf_write
                               | apply memWf_filter | rfl | apply ptpLinkUp_memWf | refine memWf_of (raiseSrc_loft ..) ?_
                               | refine memWf_of (State.updPort_loft ..) ?_ | split | dsimp only [State.updLoft, Loft.setTag, Loft.clear, Loft.write]

theorem execLinkDown_memWf (p : Fin 6) (hiBer inFrame : Bool) (s : State) (h_s : memWf s.loft.mem = true) :
    keepsMem (execLinkDown p hiBer inFrame s) := by
  unfold execLinkDown
  with_reducible repeat' first | assumption | intro _ | apply keepsMem_running | apply keepsMem_next | apply memWf_write
                               | apply memWf_filter | rfl | refine memWf_of (portCount_loft ..) ?_ | apply portLinkDown_memWf | split
                               | dsimp only [State.updLoft, Loft.setTag, Loft.clear, Loft.write]

theorem execSfpLosEdge_loft (p : Fin 6) (level : Bool) (s : State) :
    keepsLoft s (execSfpLosEdge p level s) := by
  unfold execSfpLosEdge
  with_reducible repeat' first | rfl | intro _ | apply keepsLoft_running | apply keepsLoft_next | refine (State.updPort_loft ..).trans ?_
                               | refine (portCount_loft ..).trans ?_ | split | dsimp only

@[simp] theorem sfpRecover_loft (p n : Nat) (s : State) :
    (sfpRecover p n s).2.loft = s.loft := by
  unfold sfpRecover
  with_reducible repeat' first | rfl | intro _ | refine (foldl_loft ?_ _ _).trans ?_ | refine (State.emit_loft ..).trans ?_
                               | refine (raiseSrc_loft ..).trans ?_ | refine (portCount_loft ..).trans ?_
                               | refine (State.updPort_loft ..).trans ?_ | split | dsimp only

@[simp] theorem sfpPresence_loft (p : Nat) (ack : Bool) (a0 : Bytes) (s : State) :
    (sfpPresence p ack a0 s).loft = s.loft := by
  unfold sfpPresence
  with_reducible repeat' first | rfl | intro _ | refine (State.updPort_loft ..).trans ?_ | refine (State.emit_loft ..).trans ?_ | split | dsimp only

theorem execSfpPresencePoll_loft (p : Fin 6) (tries : Nat) (ack : Bool) (a0 : List (BitVec 8)) (s : State) :
    keepsLoft s (execSfpPresencePoll p tries ack a0 s) := by
  unfold execSfpPresencePoll
  with_reducible repeat' first | rfl | intro _ | apply keepsLoft_running | apply keepsLoft_next | refine (sfpRecover_loft ..).trans ?_
                               | refine (sfpPresence_loft ..).trans ?_ | refine (pair_loft (by assumption)).trans ?_
                               | refine (triple_loft (by assumption)).trans ?_ | split | dsimp only

theorem execDdmPoll_loft (p : Fin 6) (tries : Nat) (ack : Bool) (data : List (BitVec 8)) (s : State) :
    keepsLoft s (execDdmPoll p tries ack data s) := by
  unfold execDdmPoll
  with_reducible repeat' first | rfl | intro _ | apply keepsLoft_running | apply keepsLoft_next | refine (sfpRecover_loft ..).trans ?_
                               | refine (portCount_loft ..).trans ?_ | refine (State.emit_loft ..).trans ?_
                               | refine (State.updPort_loft ..).trans ?_ | refine (pair_loft (by assumption)).trans ?_
                               | refine (triple_loft (by assumption)).trans ?_ | split | dsimp only

theorem execSfpStuckRetry_loft (p : Fin 6) (freed : Bool) (s : State) :
    keepsLoft s (execSfpStuckRetry p freed s) := by
  unfold execSfpStuckRetry
  with_reducible repeat' first | rfl | intro _ | apply keepsLoft_running | apply keepsLoft_next | refine (State.emit_loft ..).trans ?_
                               | refine (State.updPort_loft ..).trans ?_ | split | dsimp only

theorem execLpiEntry_loft (p : Fin 6) (idleUs launchUs : Nat) (s : State) :
    keepsLoft s (execLpiEntry p idleUs launchUs s) := by
  unfold execLpiEntry
  with_reducible repeat' first | rfl | intro _ | apply keepsLoft_running | apply keepsLoft_next | refine (portCount_loft ..).trans ?_
                               | refine (State.updPort_loft ..).trans ?_ | split | dsimp only

theorem execLpiExit_loft (p : Fin 6) (launchUs : Nat) (s : State) :
    keepsLoft s (execLpiExit p launchUs s) := by
  unfold execLpiExit
  with_reducible repeat' first | rfl | intro _ | apply keepsLoft_running | apply keepsLoft_next | refine (leaveLpi_loft ..).trans ?_
                               | split | dsimp only

theorem execLpiRxEntry_loft (p : Fin 6) (s : State) :
    keepsLoft s (execLpiRxEntry p s) := by
  unfold execLpiRxEntry
  with_reducible repeat' first | rfl | intro _ | apply keepsLoft_running | apply keepsLoft_next | refine (portCount_loft ..).trans ?_
                               | refine (State.updPort_loft ..).trans ?_ | split | dsimp only

theorem execLpiRxWake_loft (p : Fin 6) (s : State) :
    keepsLoft s (execLpiRxWake p s) := by
  apply keepsLoft_running; simp

theorem execLldpSend_loft (p : Fin 6) (first : Bool) (sinceS : Nat) (s : State) :
    keepsLoft s (execLldpSend p first sinceS s) := by
  unfold execLldpSend
  with_reducible repeat' first | rfl | intro _ | apply keepsLoft_running | apply keepsLoft_next | refine (State.updPort_loft ..).trans ?_
                               | split | dsimp only

theorem execLldpduReceived_loft (p : Fin 6) (txTw rxTw echoTx echoRx : BitVec 16) (s : State) :
    keepsLoft s (execLldpduReceived p txTw rxTw echoTx echoRx s) := by
  unfold execLldpduReceived
  with_reducible repeat' first | rfl | intro _ | apply keepsLoft_running | apply keepsLoft_next | refine (State.updPort_loft ..).trans ?_
                               | split | dsimp only

theorem execErrSummary_loft (p : Fin 6) (sinceMs : Nat) (s : State) :
    keepsLoft s (execErrSummary p sinceMs s) := by
  unfold execErrSummary
  with_reducible repeat' first | rfl | intro _ | apply keepsLoft_running | apply keepsLoft_next | refine (raiseSrc_loft ..).trans ?_
                               | refine (State.updPort_loft ..).trans ?_ | split | dsimp only

@[simp] theorem portIsland_loft (p : Nat) (on : Bool) (s : State) :
    (portIsland p on s).loft = s.loft := by simp [portIsland]

theorem failPort_memWf (p : Nat) (s : State) (h_s : memWf s.loft.mem = true) :
    memWf (failPort p s).loft.mem = true := by
  unfold failPort
  with_reducible repeat' first | assumption | intro _ | apply memWf_write | apply memWf_filter | rfl
                               | refine memWf_of (raiseCrumb_loft ..) ?_ | refine memWf_of (raiseSrc_loft ..) ?_ | apply abortTx_memWf
                               | refine memWf_of (portIsland_loft ..) ?_ | refine memWf_of (State.updPort_loft ..) ?_
                               | apply ptpPortLost_memWf | refine memWf_of (syncTxDis_loft ..) ?_ | split
                               | dsimp only [State.updLoft, Loft.setTag, Loft.clear, Loft.write]

theorem execPortFailed_memWf (p : Fin 6) (noXferUs : Nat) (parity : Bool) (badSpine : Nat) (s : State) (h_s : memWf s.loft.mem = true) :
    keepsMem (execPortFailed p noXferUs parity badSpine s) := by
  unfold execPortFailed
  with_reducible repeat' first | assumption | intro _ | apply keepsMem_running | apply keepsMem_next | apply memWf_write
                               | apply memWf_filter | rfl | apply failPort_memWf | split
                               | dsimp only [State.updLoft, Loft.setTag, Loft.clear, Loft.write]

theorem execPortRestored_loft (p : Fin 6) (afterMs : Nat) (s : State) :
    keepsLoft s (execPortRestored p afterMs s) := by
  unfold execPortRestored
  with_reducible repeat' first | rfl | intro _ | apply keepsLoft_running | apply keepsLoft_next | refine (crumb_loft ..).trans ?_
                               | refine (syncTxDis_loft ..).trans ?_ | refine (portIsland_loft ..).trans ?_
                               | refine (State.updPort_loft ..).trans ?_ | split | dsimp only

theorem cmdEthPortConfig_memWf  (s : State) (t : Nat) (p : Bytes) (h_s : memWf s.loft.mem = true) :
    memWf (Cmd.run cmdEthPortConfig s t p).state.loft.mem = true := by
  unfold cmdEthPortConfig
  with_reducible repeat' first | assumption | intro _ | apply memWf_write | apply memWf_filter | rfl
                               | refine memWf_of (claimDenied_loft ..) ?_ | apply portLinkDown_memWf
                               | refine memWf_of (syncTxDis_loft ..) ?_ | refine memWf_of (State.updPort_loft ..) ?_ | apply dropHeld_memWf
                               | refine memWf_of (sendPause_loft ..) ?_ | refine memWf_of (leaveLpi_loft ..) ?_ | split
                               | dsimp only [Reply.state_done, Reply.state_accept, Reply.state_silent, State.updLoft, Loft.setTag, Loft.clear, Loft.write]

@[simp] theorem cmdEthPortStatus_loft  (s : State) (t : Nat) (p : Bytes) :
    (Cmd.run cmdEthPortStatus s t p).state.loft = s.loft := by
  unfold cmdEthPortStatus
  with_reducible repeat' first | rfl | intro _ | split | dsimp only [Reply.state_done, Reply.state_accept, Reply.state_silent]

@[simp] theorem cmdEthPortCounters_loft  (s : State) (t : Nat) (p : Bytes) :
    (Cmd.run cmdEthPortCounters s t p).state.loft = s.loft := by
  unfold cmdEthPortCounters
  with_reducible repeat' first | rfl | intro _ | split | dsimp only [Reply.state_done, Reply.state_accept, Reply.state_silent]

@[simp] theorem cmdEthFlowSet_loft  (s : State) (t : Nat) (p : Bytes) :
    (Cmd.run cmdEthFlowSet s t p).state.loft = s.loft := by
  unfold cmdEthFlowSet
  with_reducible repeat' first | rfl | intro _ | refine (setFlow_loft ..).trans ?_ | split
                               | dsimp only [Reply.state_done, Reply.state_accept, Reply.state_silent]

@[simp] theorem cmdEthFlowGet_loft  (s : State) (t : Nat) (p : Bytes) :
    (Cmd.run cmdEthFlowGet s t p).state.loft = s.loft := by simp [cmdEthFlowGet]

@[simp] theorem cmdEthFlowCounters_loft  (s : State) (t : Nat) (p : Bytes) :
    (Cmd.run cmdEthFlowCounters s t p).state.loft = s.loft := by simp [cmdEthFlowCounters]

theorem cmdEthSfpXfer_memWf  (s : State) (t : Nat) (p : Bytes) (h_s : memWf s.loft.mem = true) :
    memWf (Cmd.run cmdEthSfpXfer s t p).state.loft.mem = true := by
  unfold cmdEthSfpXfer
  with_reducible repeat' first | assumption | intro _ | apply memWf_write | apply memWf_filter | rfl | apply pin_memWf | split
                               | dsimp only [Reply.state_done, Reply.state_accept, Reply.state_silent, State.updLoft, Loft.setTag, Loft.clear, Loft.write]

theorem sfpXferEnd_memWf (j : Job) (tries : Nat) (ack : Bool) (stretchMs : Nat) (lost : Bool) (data : Bytes) (s : State)
        (h_s : memWf s.loft.mem = true) :
    memWf (sfpXferEnd j tries ack stretchMs lost data s).loft.mem = true := by
  unfold sfpXferEnd
  with_reducible repeat' first | assumption | intro _ | apply memWf_write | apply memWf_filter | rfl
                               | refine memWf_of (sfpRecover_loft ..) ?_ | apply completeJob_memWf
                               | refine memWf_of (State.emit_loft ..) ?_ | refine memWf_of (portCount_loft ..) ?_ | apply loftWrite_memWf
                               | refine pair_memWf (by assumption) ?_ | refine triple_memWf (by assumption) ?_ | split
                               | dsimp only [State.updLoft, Loft.setTag, Loft.clear, Loft.write]

theorem execEthPortConfig_memWf (c : Call) (s : State) (h_s : memWf s.loft.mem = true) :
    keepsMem (execEthPortConfig c s) := by
  unfold execEthPortConfig
  with_reducible repeat' first | assumption | intro _ | apply keepsMem_running | apply keepsMem_next | apply memWf_write
                               | apply memWf_filter | rfl | apply command_memWf | apply cmdEthPortConfig_memWf | split
                               | dsimp only [State.updLoft, Loft.setTag, Loft.clear, Loft.write]

theorem execEthPortStatus_loft (c : Call) (s : State) :
    keepsLoft s (execEthPortStatus c s) := by
  apply keepsLoft_running; simp

theorem execEthPortCounters_loft (c : Call) (s : State) :
    keepsLoft s (execEthPortCounters c s) := by
  apply keepsLoft_running; simp

theorem execEthFlowSet_loft (c : Call) (s : State) :
    keepsLoft s (execEthFlowSet c s) := by
  apply keepsLoft_running; simp

theorem execEthFlowGet_loft (c : Call) (s : State) :
    keepsLoft s (execEthFlowGet c s) := by
  apply keepsLoft_running; simp

theorem execEthFlowCounters_loft (c : Call) (s : State) :
    keepsLoft s (execEthFlowCounters c s) := by
  apply keepsLoft_running; simp

theorem execEthSfpXfer_memWf (c : Call) (s : State) (h_s : memWf s.loft.mem = true) :
    keepsMem (execEthSfpXfer c s) := by
  unfold execEthSfpXfer
  with_reducible repeat' first | assumption | intro _ | apply keepsMem_running | apply keepsMem_next | apply memWf_write
                               | apply memWf_filter | rfl | apply command_memWf | apply cmdEthSfpXfer_memWf | split
                               | dsimp only [State.updLoft, Loft.setTag, Loft.clear, Loft.write]

/-! ### Radio.lean -/

theorem radioRow_loft (f : State → State) (s : State) (h_f : ∀ y0, (f y0).loft = y0.loft) :
    keepsLoft s (radioRow f s) := by
  unfold radioRow
  with_reducible repeat' first | rfl | intro _ | apply keepsLoft_running | apply keepsLoft_next | refine (h_f ..).trans ?_ | split | dsimp only

theorem radioRow_memWf (f : State → State) (s : State) (h_s : memWf s.loft.mem = true)
        (h_f : ∀ y0, memWf y0.loft.mem = true → memWf (f y0).loft.mem = true) :
    keepsMem (radioRow f s) := by
  unfold radioRow
  with_reducible repeat' first | assumption | intro _ | apply keepsMem_running | apply keepsMem_next | apply memWf_write
                               | apply memWf_filter | rfl | apply h_f | split | dsimp only

theorem execPatternApply_loft (b : Fin 4) (sec : Nat) (s : State) :
    keepsLoft s (execPatternApply b sec s) := by
  unfold execPatternApply
  with_reducible repeat' first | rfl | intro _ | apply keepsLoft_running | apply keepsLoft_next | apply radioRow_loft
                               | refine (syncBand_loft ..).trans ?_ | refine (cancelTdd_loft ..).trans ?_
                               | refine (State.updBand_loft ..).trans ?_ | split | dsimp only

theorem execCalWaitEnd_memWf (i : Fin 4) (us calRead lockRead : Nat) (s : State) (h_s : memWf s.loft.mem = true) :
    keepsMem (execCalWaitEnd i us calRead lockRead s) := by
  unfold execCalWaitEnd
  with_reducible repeat' first | assumption | intro _ | apply keepsMem_running | apply keepsMem_next | apply memWf_write
                               | apply memWf_filter | rfl | apply radioRow_memWf | refine memWf_of (rfPush_loft ..) ?_
                               | refine memWf_of (updEntry_loft ..) ?_ | apply lockDecided_memWf | split | dsimp only

theorem execHopLockCheck_memWf (i : Fin 4) (ns lockRead : Nat) (s : State) (h_s : memWf s.loft.mem = true) :
    keepsMem (execHopLockCheck i ns lockRead s) := by
  unfold execHopLockCheck
  with_reducible repeat' first | assumption | intro _ | apply keepsMem_running | apply keepsMem_next | apply memWf_write
                               | apply memWf_filter | rfl | apply radioRow_memWf | apply lockDecided_memWf
                               | refine memWf_of (rfPush_loft ..) ?_ | split | dsimp only

theorem execLockPoll_loft (b : Fin 4) (lockRead : Nat) (s : State) :
    keepsLoft s (execLockPoll b lockRead s) := by
  unfold execLockPoll
  with_reducible repeat' first | rfl | intro _ | apply keepsLoft_running | apply keepsLoft_next | apply radioRow_loft
                               | refine (rfPush_loft ..).trans ?_ | refine (State.updBand_loft ..).trans ?_
                               | refine (startCal_loft ..).trans ?_ | refine (raiseSrc_loft ..).trans ?_
                               | refine (syncBand_loft ..).trans ?_ | split | dsimp only

@[simp] theorem auxRecover_loft (n : Nat) (s : State) :
    (auxRecover n s).2.loft = s.loft := by
  unfold auxRecover
  with_reducible repeat' first | rfl | intro _ | refine (foldl_loft ?_ _ _).trans ?_ | refine (State.emit_loft ..).trans ?_
                               | refine (State.updRad_loft ..).trans ?_ | refine (crumbOf_loft ..).trans ?_
                               | refine (raiseSrc_loft ..).trans ?_ | split | dsimp only

@[simp] theorem takeTemp_loft (i : Nat) (t : Int) (s : State) :
    (takeTemp i t s).loft = s.loft := by
  unfold takeTemp
  with_reducible repeat' first | rfl | intro _ | refine (State_updSynth_loft ..).trans ?_ | refine (tune_loft ..).trans ?_
                               | refine (State.updBand_loft ..).trans ?_ | split | dsimp only

theorem execTemperatureRead_loft (i : Fin 4) (t : Int) (tries : Nat) (s : State) :
    keepsLoft s (execTemperatureRead i t tries s) := by
  unfold execTemperatureRead
  with_reducible repeat' first | rfl | intro _ | apply keepsLoft_running | apply keepsLoft_next | apply radioRow_loft
                               | refine (auxRecover_loft ..).trans ?_ | refine (takeTemp_loft ..).trans ?_
                               | refine (State.emit_loft ..).trans ?_ | refine (pair_loft (by assumption)).trans ?_
                               | refine (triple_loft (by assumption)).trans ?_ | split | dsimp only

theorem execRfFrameDone_loft (rx : Nat) (s : State) :
    keepsLoft s (execRfFrameDone rx s) := by
  unfold execRfFrameDone
  with_reducible repeat' first | rfl | intro _ | apply keepsLoft_running | apply keepsLoft_next | apply radioRow_loft
                               | refine (rfStart_loft ..).trans ?_ | refine (State.updRad_loft ..).trans ?_ | split | dsimp only

theorem execDetectorConversion_loft (n : Fin 8) (code : Fin 4096) (tick : Nat) (s : State) :
    keepsLoft s (execDetectorConversion n code tick s) := by
  unfold execDetectorConversion
  with_reducible repeat' first | rfl | intro _ | apply keepsLoft_running | apply keepsLoft_next | apply radioRow_loft
                               | refine (State.updRad_loft ..).trans ?_ | split | dsimp only

theorem execAuxStuckRetry_loft (freed : Bool) (s : State) :
    keepsLoft s (execAuxStuckRetry freed s) := by
  unfold execAuxStuckRetry
  with_reducible repeat' first | rfl | intro _ | apply keepsLoft_running | apply keepsLoft_next | apply radioRow_loft
                               | refine (State.emit_loft ..).trans ?_ | refine (State.updRad_loft ..).trans ?_ | split | dsimp only

theorem auxXferEnd_memWf (j : Job) (tries : Nat) (ack : Bool) (stretchMs : Nat) (data : Bytes) (s : State) (h_s : memWf s.loft.mem = true) :
    memWf (auxXferEnd j tries ack stretchMs data s).loft.mem = true := by
  have h1 : memWf (auxRecover tries s).2.loft.mem = true := memWf_of (auxRecover_loft ..) h_s
  unfold auxXferEnd
  dsimp only
  split
  · exact completeJob_memWf _ _ _ _ h1
  · split
    · exact completeJob_memWf _ _ _ _ (memWf_of (State.emit_loft ..) h1)
    · split
      · exact completeJob_memWf _ _ _ _ (memWf_of (State.emit_loft ..) h1)
      · exact completeResult_memWf _ _ _ (memWf_of (State.emit_loft ..) h1)

theorem execTwoWireTransactionEnd_memWf (aux : Bool) (tries : Nat) (ack : Bool) (stretchMs : Nat) (lost : Bool) (data : List (BitVec 8))
    (s : State) (h_s : memWf s.loft.mem = true) :
    keepsMem (execTwoWireTransactionEnd aux tries ack stretchMs lost data s) := by
  unfold execTwoWireTransactionEnd
  with_reducible repeat' first | assumption | intro _ | apply keepsMem_running | apply keepsMem_next | apply memWf_write
                               | apply memWf_filter | rfl | apply auxXferEnd_memWf | apply sfpXferEnd_memWf | split | dsimp only

@[simp] theorem cmdRadioGetStatus_loft  (s : State) (t : Nat) (p : Bytes) :
    (Cmd.run cmdRadioGetStatus s t p).state.loft = s.loft := by simp [cmdRadioGetStatus]

@[simp] theorem cmdRadioDeviceSet_loft  (s : State) (t : Nat) (p : Bytes) :
    (Cmd.run cmdRadioDeviceSet s t p).state.loft = s.loft := by
  unfold cmdRadioDeviceSet
  with_reducible repeat' first | rfl | intro _ | refine (State.updRad_loft ..).trans ?_ | split
                               | dsimp only [Reply.state_done, Reply.state_accept, Reply.state_silent]

@[simp] theorem cmdRadioBandConfig_loft  (s : State) (t : Nat) (p : Bytes) :
    (Cmd.run cmdRadioBandConfig s t p).state.loft = s.loft := by
  unfold cmdRadioBandConfig
  with_reducible repeat' first | rfl | intro _ | refine (State.updBand_loft ..).trans ?_ | split
                               | dsimp only [Reply.state_done, Reply.state_accept, Reply.state_silent]

@[simp] theorem cmdRadioSynthConfig_loft  (s : State) (t : Nat) (p : Bytes) :
    (Cmd.run cmdRadioSynthConfig s t p).state.loft = s.loft := by
  unfold cmdRadioSynthConfig
  with_reducible repeat' first | rfl | intro _ | refine (State_updSynth_loft ..).trans ?_ | split
                               | dsimp only [Reply.state_done, Reply.state_accept, Reply.state_silent]

@[simp] theorem cmdRadioSynthTableSet_loft  (s : State) (t : Nat) (p : Bytes) :
    (Cmd.run cmdRadioSynthTableSet s t p).state.loft = s.loft := by
  unfold cmdRadioSynthTableSet
  with_reducible repeat' first | rfl | intro _ | refine (foldl_loft ?_ _ _).trans ?_ | refine (updEntry_loft ..).trans ?_ | split
                               | dsimp only [Reply.state_done, Reply.state_accept, Reply.state_silent]

theorem cmdRadioSynthCal_memWf  (s : State) (t : Nat) (p : Bytes) (h_s : memWf s.loft.mem = true) :
    memWf (Cmd.run cmdRadioSynthCal s t p).state.loft.mem = true := by
  unfold cmdRadioSynthCal
  with_reducible repeat' first | assumption | intro _ | apply memWf_write | apply memWf_filter | rfl
                               | refine memWf_of (raiseSrc_loft ..) ?_ | apply nextCal_memWf | refine memWf_of (State_updSynth_loft ..) ?_
                               | split | dsimp only [Reply.state_done, Reply.state_accept, Reply.state_silent]

@[simp] theorem cmdRadioBandStart_loft  (s : State) (t : Nat) (p : Bytes) :
    (Cmd.run cmdRadioBandStart s t p).state.loft = s.loft := by
  unfold cmdRadioBandStart
  with_reducible repeat' first | rfl | intro _ | refine (startBand_loft ..).trans ?_ | refine (State.updBand_loft ..).trans ?_
                               | refine (activateBand_loft ..).trans ?_ | split
                               | dsimp only [Reply.state_done, Reply.state_accept, Reply.state_silent]

theorem cmdRadioBandStop_memWf  (s : State) (t : Nat) (p : Bytes) (h_s : memWf s.loft.mem = true) :
    memWf (Cmd.run cmdRadioBandStop s t p).state.loft.mem = true := by
  unfold cmdRadioBandStop
  with_reducible repeat' first | assumption | intro _ | apply memWf_write | apply memWf_filter | rfl | apply stopBand_memWf
                               | refine memWf_of (cancelTdd_loft ..) ?_ | split
                               | dsimp only [Reply.state_done, Reply.state_accept, Reply.state_silent]

@[simp] theorem cmdRadioBandHop_loft  (s : State) (t : Nat) (p : Bytes) :
    (Cmd.run cmdRadioBandHop s t p).state.loft = s.loft := by
  unfold cmdRadioBandHop
  with_reducible repeat' first | rfl | intro _ | refine (tune_loft ..).trans ?_ | refine (State.updBand_loft ..).trans ?_ | split
                               | dsimp only [Reply.state_done, Reply.state_accept, Reply.state_silent]

@[simp] theorem cmdRadioTddSet_loft  (s : State) (t : Nat) (p : Bytes) :
    (Cmd.run cmdRadioTddSet s t p).state.loft = s.loft := by simp [cmdRadioTddSet]

@[simp] theorem cmdRadioPowerTableSet_loft  (s : State) (t : Nat) (p : Bytes) :
    (Cmd.run cmdRadioPowerTableSet s t p).state.loft = s.loft := by
  unfold cmdRadioPowerTableSet
  with_reducible repeat' first | rfl | intro _ | refine (State_updPath_loft ..).trans ?_ | split
                               | dsimp only [Reply.state_done, Reply.state_accept, Reply.state_silent]

@[simp] theorem cmdRadioPowerSet_loft  (s : State) (t : Nat) (p : Bytes) :
    (Cmd.run cmdRadioPowerSet s t p).state.loft = s.loft := by simp [cmdRadioPowerSet]

@[simp] theorem cmdRadioBiasConfig_loft  (s : State) (t : Nat) (p : Bytes) :
    (Cmd.run cmdRadioBiasConfig s t p).state.loft = s.loft := by
  unfold cmdRadioBiasConfig
  with_reducible repeat' first | rfl | intro _ | refine (State.updRad_loft ..).trans ?_ | refine (State.emit_loft ..).trans ?_ | split
                               | dsimp only [Reply.state_done, Reply.state_accept, Reply.state_silent]

@[simp] theorem cmdRadioDetConfig_loft  (s : State) (t : Nat) (p : Bytes) :
    (Cmd.run cmdRadioDetConfig s t p).state.loft = s.loft := by
  unfold cmdRadioDetConfig
  with_reducible repeat' first | rfl | intro _ | refine (foldl_loft ?_ _ _).trans ?_ | refine (State.updRad_loft ..).trans ?_
                               | refine (syncDetectors_loft ..).trans ?_ | split
                               | dsimp only [Reply.state_done, Reply.state_accept, Reply.state_silent]

@[simp] theorem cmdRadioDetRead_loft  (s : State) (t : Nat) (p : Bytes) :
    (Cmd.run cmdRadioDetRead s t p).state.loft = s.loft := by simp [cmdRadioDetRead]

@[simp] theorem cmdRadioRfspiXfer_loft  (s : State) (t : Nat) (p : Bytes) :
    (Cmd.run cmdRadioRfspiXfer s t p).state.loft = s.loft := by
  unfold cmdRadioRfspiXfer
  with_reducible repeat' first | rfl | intro _ | refine (rfPush_loft ..).trans ?_ | refine (State.drawn_loft ..).trans ?_ | split
                               | dsimp only [Reply.state_done, Reply.state_accept, Reply.state_silent]

@[simp] theorem cmdRadioAuxXfer_loft  (s : State) (t : Nat) (p : Bytes) :
    (Cmd.run cmdRadioAuxXfer s t p).state.loft = s.loft := by
  unfold cmdRadioAuxXfer
  with_reducible repeat' first | rfl | intro _ | split | dsimp only [Reply.state_done, Reply.state_accept, Reply.state_silent]

theorem execRadioGetStatus_loft (c : Call) (s : State) :
    keepsLoft s (execRadioGetStatus c s) := by
  apply keepsLoft_running; simp

theorem execRadioDeviceSet_loft (c : Call) (s : State) :
    keepsLoft s (execRadioDeviceSet c s) := by
  apply keepsLoft_running; simp

theorem execRadioBandConfig_loft (c : Call) (s : State) :
    keepsLoft s (execRadioBandConfig c s) := by
  apply keepsLoft_running; simp

theorem execRadioSynthConfig_loft (c : Call) (s : State) :
    keepsLoft s (execRadioSynthConfig c s) := by
  apply keepsLoft_running; simp

theorem execRadioSynthTableSet_loft (c : Call) (s : State) :
    keepsLoft s (execRadioSynthTableSet c s) := by
  apply keepsLoft_running; simp

theorem execRadioSynthCal_memWf (c : Call) (s : State) (h_s : memWf s.loft.mem = true) :
    keepsMem (execRadioSynthCal c s) := by
  unfold execRadioSynthCal
  with_reducible repeat' first | assumption | intro _ | apply keepsMem_running | apply keepsMem_next | apply memWf_write
                               | apply memWf_filter | rfl | apply command_memWf | apply cmdRadioSynthCal_memWf | split | dsimp only

theorem execRadioBandStart_loft (c : Call) (s : State) :
    keepsLoft s (execRadioBandStart c s) := by
  apply keepsLoft_running; simp

theorem execRadioBandStop_memWf (c : Call) (s : State) (h_s : memWf s.loft.mem = true) :
    keepsMem (execRadioBandStop c s) := by
  unfold execRadioBandStop
  with_reducible repeat' first | assumption | intro _ | apply keepsMem_running | apply keepsMem_next | apply memWf_write
                               | apply memWf_filter | rfl | apply command_memWf | apply cmdRadioBandStop_memWf | split | dsimp only

theorem execRadioBandHop_loft (c : Call) (s : State) :
    keepsLoft s (execRadioBandHop c s) := by
  apply keepsLoft_running; simp

theorem execRadioTddSet_loft (c : Call) (s : State) :
    keepsLoft s (execRadioTddSet c s) := by
  apply keepsLoft_running; simp

theorem execRadioPowerTableSet_loft (c : Call) (s : State) :
    keepsLoft s (execRadioPowerTableSet c s) := by
  apply keepsLoft_running; simp

theorem execRadioPowerSet_loft (c : Call) (s : State) :
    keepsLoft s (execRadioPowerSet c s) := by
  apply keepsLoft_running; simp

theorem execRadioBiasConfig_loft (c : Call) (s : State) :
    keepsLoft s (execRadioBiasConfig c s) := by
  apply keepsLoft_running; simp

theorem execRadioDetConfig_loft (c : Call) (s : State) :
    keepsLoft s (execRadioDetConfig c s) := by
  unfold execRadioDetConfig
  with_reducible repeat' first | rfl | intro _ | apply keepsLoft_running | apply keepsLoft_next | apply command_loft
                               | refine cmdRadioDetConfig_loft .. | split | dsimp only

theorem execRadioDetRead_loft (c : Call) (s : State) :
    keepsLoft s (execRadioDetRead c s) := by
  apply keepsLoft_running; simp

theorem execRadioRfspiXfer_loft (c : Call) (s : State) :
    keepsLoft s (execRadioRfspiXfer c s) := by
  apply keepsLoft_running; simp

theorem execRadioAuxXfer_loft (c : Call) (s : State) :
    keepsLoft s (execRadioAuxXfer c s) := by
  apply keepsLoft_running; simp

/-! ### Eave.lean -/

@[simp] theorem liftMargin_loft (b : Nat) (s : State) :
    (liftMargin b s).loft = s.loft := by
  unfold liftMargin
  with_reducible repeat' first | rfl | intro _ | refine (liftCause_loft ..).trans ?_ | split | dsimp only

theorem execIsoEstimate_loft (p : Fin 8) (chips saturated : Nat) (lOut cLevel errLevel : Int) (s : State) :
    keepsLoft s (execIsoEstimate p chips saturated lOut cLevel errLevel s) := by
  unfold execIsoEstimate
  with_reducible repeat' first | rfl | intro _ | apply keepsLoft_running | apply keepsLoft_next | apply radioRow_loft
                               | refine (State_updPath_loft ..).trans ?_ | refine (liftMargin_loft ..).trans ?_
                               | refine (ladder_loft ..).trans ?_ | refine (eaveCrumb_loft ..).trans ?_ | split | dsimp only

theorem execEstimateAging_loft (p : Fin 8) (ageMs : Nat) (s : State) :
    keepsLoft s (execEstimateAging p ageMs s) := by
  unfold execEstimateAging
  with_reducible repeat' first | rfl | intro _ | apply keepsLoft_running | apply keepsLoft_next | apply radioRow_loft
                               | refine (ladder_loft ..).trans ?_ | refine (State_updPath_loft ..).trans ?_ | split | dsimp only

theorem execEaveIso_loft (sinceS : Nat) (s : State) :
    keepsLoft s (execEaveIso sinceS s) := by
  unfold execEaveIso
  with_reducible repeat' first | rfl | intro _ | refine (foldl_loft ?_ _ _).trans ?_ | apply keepsLoft_running | apply keepsLoft_next
                               | apply radioRow_loft | refine (eaveCrumb_loft ..).trans ?_ | refine (State_updPath_loft ..).trans ?_
                               | split | dsimp only

theorem execOscillationMute_loft (p : Fin 8) (samples : Nat) (out inp : Int) (s : State) :
    keepsLoft s (execOscillationMute p samples out inp s) := by
  unfold execOscillationMute
  with_reducible repeat' first | rfl | intro _ | apply keepsLoft_running | apply keepsLoft_next | apply radioRow_loft
                               | refine (guardMuteBand_loft ..).trans ?_ | split | dsimp only

theorem execNoiseRise_loft (b : Fin 4) (windows : Nat) (mean inMax : Int) (s : State) :
    keepsLoft s (execNoiseRise b windows mean inMax s) := by
  unfold execNoiseRise
  with_reducible repeat' first | rfl | intro _ | apply keepsLoft_running | apply keepsLoft_next | apply radioRow_loft
                               | refine (guardMuteBand_loft ..).trans ?_ | split | dsimp only

theorem execOutOfBand_loft (b : Fin 4) (windows : Nat) (mean : Int) (s : State) :
    keepsLoft s (execOutOfBand b windows mean s) := by
  unfold execOutOfBand
  with_reducible repeat' first | rfl | intro _ | apply keepsLoft_running | apply keepsLoft_next | apply radioRow_loft
                               | refine (guardMuteBand_loft ..).trans ?_ | split | dsimp only

theorem execTddTimeMute_loft (s : State) :
    keepsLoft s (execTddTimeMute s) := by
  unfold execTddTimeMute
  with_reducible repeat' first | rfl | intro _ | refine (foldl_loft ?_ _ _).trans ?_ | apply keepsLoft_running | apply keepsLoft_next
                               | apply radioRow_loft | refine (guardMuteBand_loft ..).trans ?_ | refine (State.updBand_loft ..).trans ?_
                               | refine (raiseSrc_loft ..).trans ?_ | refine (cancelTdd_loft ..).trans ?_ | split | dsimp only

theorem execTddResume_loft (b : Fin 4) (sinceMs : Nat) (s : State) :
    keepsLoft s (execTddResume b sinceMs s) := by
  unfold execTddResume
  with_reducible repeat' first | rfl | intro _ | apply keepsLoft_running | apply keepsLoft_next | apply radioRow_loft
                               | refine (liftCause_loft ..).trans ?_ | refine (State.updBand_loft ..).trans ?_ | split | dsimp only

theorem execThermalMute_loft (forS : Nat) (s : State) :
    keepsLoft s (execThermalMute forS s) := by
  unfold execThermalMute
  with_reducible repeat' first | rfl | intro _ | apply keepsLoft_running | apply keepsLoft_next | apply radioRow_loft
                               | refine (eaveCrumb_loft ..).trans ?_ | refine (hardMute_loft ..).trans ?_
                               | refine (State.updRad_loft ..).trans ?_ | split | dsimp only

@[simp] theorem syncSteps_loft (s : State) :
    (syncSteps s).loft = s.loft := by
  unfold syncSteps
  with_reducible repeat' first | rfl | intro _ | refine (foldl_loft ?_ _ _).trans ?_ | refine (syncStep_loft ..).trans ?_ | split | dsimp only

theorem execThermalMuteLift_loft (forS : Nat) (s : State) :
    keepsLoft s (execThermalMuteLift forS s) := by
  unfold execThermalMuteLift
  with_reducible repeat' first | rfl | intro _ | apply keepsLoft_running | apply keepsLoft_next | apply radioRow_loft
                               | refine (mayRelease_loft ..).trans ?_ | refine (syncSteps_loft ..).trans ?_
                               | refine (State.updRad_loft ..).trans ?_ | split | dsimp only

theorem execRfKillAssert_loft (ns : Nat) (s : State) :
    keepsLoft s (execRfKillAssert ns s) := by
  unfold execRfKillAssert
  with_reducible repeat' first | rfl | intro _ | apply keepsLoft_running | apply keepsLoft_next | apply radioRow_loft
                               | refine (hardMute_loft ..).trans ?_ | refine (State.updRad_loft ..).trans ?_
                               | refine (crumbOf_loft ..).trans ?_ | refine (raiseSrc_loft ..).trans ?_ | split | dsimp only

theorem execRfKillRelease_loft (ms : Nat) (s : State) :
    keepsLoft s (execRfKillRelease ms s) := by
  unfold execRfKillRelease
  with_reducible repeat' first | rfl | intro _ | apply keepsLoft_running | apply keepsLoft_next | apply radioRow_loft
                               | refine (crumbOf_loft ..).trans ?_ | refine (mayRelease_loft ..).trans ?_
                               | refine (State.updRad_loft ..).trans ?_ | split | dsimp only

theorem execGuardMuteRelease_loft (us : Nat) (s : State) :
    keepsLoft s (execGuardMuteRelease us s) := by
  unfold execGuardMuteRelease
  with_reducible repeat' first | rfl | intro _ | refine (foldl_loft ?_ _ _).trans ?_ | apply keepsLoft_running | apply keepsLoft_next
                               | apply radioRow_loft | refine (State.updRad_loft ..).trans ?_ | refine (syncStep_loft ..).trans ?_
                               | refine (startCeiling_loft ..).trans ?_ | refine (syncBands_loft ..).trans ?_ | split | dsimp only

@[simp] theorem restartBand_loft (b : Nat) (counted : Bool) (s : State) :
    (restartBand b counted s).loft = s.loft := by simp [restartBand]

theorem execBackoffExpiry_loft (b : Fin 4) (waitedS : Nat) (s : State) :
    keepsLoft s (execBackoffExpiry b waitedS s) := by
  unfold execBackoffExpiry
  with_reducible repeat' first | rfl | intro _ | apply keepsLoft_running | apply keepsLoft_next | apply radioRow_loft
                               | refine (restartBand_loft ..).trans ?_ | split | dsimp only

@[simp] theorem cmdEaveGetStatus_loft  (s : State) (t : Nat) (p : Bytes) :
    (Cmd.run cmdEaveGetStatus s t p).state.loft = s.loft := by simp [cmdEaveGetStatus]

@[simp] theorem remargin_loft (b : Nat) (s : State) :
    (remargin b s).loft = s.loft := by
  unfold remargin
  with_reducible repeat' first | rfl | intro _ | refine (foldl_loft ?_ _ _).trans ?_ | refine (ladder_loft ..).trans ?_
                               | refine (State_updPath_loft ..).trans ?_ | split | dsimp only

@[simp] theorem cmdEaveConfig_loft  (s : State) (t : Nat) (p : Bytes) :
    (Cmd.run cmdEaveConfig s t p).state.loft = s.loft := by simp [cmdEaveConfig]

@[simp] theorem cmdEaveShutdown_loft  (s : State) (t : Nat) (p : Bytes) :
    (Cmd.run cmdEaveShutdown s t p).state.loft = s.loft := by
  unfold cmdEaveShutdown
  with_reducible repeat' first | rfl | intro _ | refine (foldl_loft ?_ _ _).trans ?_ | refine (setCause_loft ..).trans ?_
                               | refine (State.updBand_loft ..).trans ?_ | refine (eaveCrumb_loft ..).trans ?_
                               | refine (syncBand_loft ..).trans ?_ | split | dsimp only [Reply.state_done, Reply.state_accept, Reply.state_silent]

@[simp] theorem clearBand_loft (m b : Nat) (s : State) :
    (clearBand m b s).loft = s.loft := by
  unfold clearBand
  with_reducible repeat' first | rfl | intro _ | refine (eaveCrumb_loft ..).trans ?_ | refine (liftCause_loft ..).trans ?_
                               | refine (restartBand_loft ..).trans ?_ | split | dsimp only

@[simp] theorem cmdEaveClear_loft  (s : State) (t : Nat) (p : Bytes) :
    (Cmd.run cmdEaveClear s t p).state.loft = s.loft := by
  unfold cmdEaveClear
  with_reducible repeat' first | rfl | intro _ | refine (foldl_loft ?_ _ _).trans ?_ | refine (clearBand_loft ..).trans ?_ | split
                               | dsimp only [Reply.state_done, Reply.state_accept, Reply.state_silent]

theorem execEaveGetStatus_loft (c : Call) (s : State) :
    keepsLoft s (execEaveGetStatus c s) := by
  apply keepsLoft_running; simp

theorem execEaveConfig_loft (c : Call) (s : State) :
    keepsLoft s (execEaveConfig c s) := by
  apply keepsLoft_running; simp

theorem execEaveShutdown_loft (c : Call) (s : State) :
    keepsLoft s (execEaveShutdown c s) := by
  apply keepsLoft_running; simp

theorem execEaveClear_loft (c : Call) (s : State) :
    keepsLoft s (execEaveClear c s) := by
  apply keepsLoft_running; simp

end Sys2Proof.Machine
end

