-- ==== Sys2Proof/Laws/LoftSpar.lean ====
section
/-!
SUPPORT. The Loft through the Spar sequencers and PTP: for each function that leaves the Loft alone, that it does (`_loft`); for each that
may write it, that its memory keeps the canonical form (`_memWf`).
-/
namespace Sys2Proof.Machine
open Sys2Proof
set_option linter.all false

/-! ### SparMicro.lean -/

@[simp] theorem sched_loft (i unit act tk frac arg : Nat) (s : State) :
    (sched i unit act tk frac arg s).loft = s.loft := by
  unfold sched; dsimp only; split
  · simp
  · split
    · simp
    · split <;> simp

@[simp] theorem portOut_loft (i port v : Nat) (s : State) :
    (portOut i port v s).loft = s.loft := by
  unfold portOut
  with_reducible repeat' first | rfl | intro _ | refine (State.updSpar_loft ..).trans ?_ | refine (selectHead_loft ..).trans ?_
                               | refine (State.updChn_loft ..).trans ?_ | refine (paFrame_loft ..).trans ?_ | split | dsimp only

theorem effectOp_memWf (i op o : Nat) (s : State) (h_s : memWf s.loft.mem = true) :
    ∀ z, effectOp i op o s = some z → memWf z.loft.mem = true := by
  intro z h
  unfold effectOp at h
  dsimp only at h
  split at h
  · split at h <;> (injection h with h; subst h; simpa)
  · split at h <;> (injection h with h; subst h; simpa)
  · injection h with h; subst h; exact memWf_of (portOut_loft ..) h_s
  · split at h
    · cases h
    · injection h with h; subst h; simpa
  · injection h with h; subst h; simpa
  · injection h with h; subst h; simpa
  · injection h with h; subst h; exact memWf_of (sched_loft ..) h_s
  · split at h <;> (injection h with h; subst h; simpa)
  · injection h with h; subst h; simpa
  · injection h with h; subst h; simpa
  · injection h with h; subst h; simpa

@[simp] theorem holdFault_loft (i cause a : Nat) (s : State) :
    (holdFault i cause a s).loft = s.loft := by simp [holdFault]

theorem micro_memWf (i : Nat) (x0 : Nat) (x1 : Run) (x2 : State) (h_x2 : memWf x2.loft.mem = true) :
    memWf (micro i x0 x1 x2).2.loft.mem = true := by
  induction x0 generalizing x1 x2 with
  | zero => exact machineCheck_memWf _ _ _ _ _ h_x2
  | succ n ih =>
    unfold micro
    dsimp only
    split
    · exact machineCheck_memWf _ _ _ _ _ h_x2
    · have go (r : Run) (s : State) (hs : memWf s.loft.mem = true) (b : Bool) :
          memWf (if b then (some r, s) else micro i n r s).2.loft.mem = true := by
        split
        · exact hs
        · exact ih _ _ hs
      split
      · exact go _ _ (memWf_of (holdFault_loft ..) h_x2) _
      · split
        · exact go _ _ (memWf_of (holdFault_loft ..) h_x2) _
        · split
          · exact go _ _ h_x2 _
          · exact go _ _ h_x2 _
          · exact go _ _ h_x2 _
          · exact go _ _ h_x2 _
          · split
            · exact go _ _ (memWf_of (State.updSpar_loft ..) h_x2) _
            · exact memWf_of (State.updSpar_loft ..) h_x2
          · split
            · exact go _ _ (memWf_of (State.updSpar_loft ..) h_x2) _
            · exact memWf_of (State.updSpar_loft ..) h_x2
          · split
            · rename_i heq; exact go _ _ (effectOp_memWf _ _ _ _ h_x2 _ heq) _
            · exact go _ _ (memWf_of (holdFault_loft ..) h_x2) _

@[simp] theorem openRegs_loft (i : Nat) (s : State) :
    (openRegs i s).loft = s.loft := by simp [openRegs]

theorem machineCheckOut_memWf (i cause : Nat) (s : State) (h_s : memWf s.loft.mem = true) :
    memWf (machineCheckOut i cause s).loft.mem = true := by
  unfold machineCheckOut
  with_reducible repeat' first | assumption | intro _ | apply machineCheck_memWf | refine memWf_of (State.drawn_loft ..) ?_ | split | dsimp only

theorem dispatch_memWf (i k operand next : Nat) (s : State) (h_s : memWf s.loft.mem = true) :
    memWf (dispatch i k operand next s).2.loft.mem = true := by
  unfold dispatch
  with_reducible repeat' first | assumption | intro _ | refine memWf_of (State.updSpar_loft ..) ?_ | apply machineCheckOut_memWf
                               | refine memWf_of (openRegs_loft ..) ?_ | apply micro_memWf | split | dsimp only

theorem boundary_memWf (i : Nat) (x0 : Nat) (x1 : Run) (x2 : State) (h_x2 : memWf x2.loft.mem = true) :
    memWf (boundary i x0 x1 x2).loft.mem = true := by
  induction x0 generalizing x1 x2 with
  | zero => unfold boundary; assumption
  | succ n ih =>
    unfold boundary
    with_reducible repeat' first | assumption | intro _ | apply ih | apply machineCheck_memWf | refine memWf_of (State.updSpar_loft ..) ?_
                                 | apply machineCheckOut_memWf | apply dispatch_memWf | refine pair_memWf (by assumption) ?_
                                 | refine triple_memWf (by assumption) ?_ | split | dsimp only

theorem sparRetire_memWf (i next : Nat) (s : State) (h_s : memWf s.loft.mem = true) :
    memWf (sparRetire i next s).loft.mem = true := by
  unfold sparRetire
  with_reducible repeat' first | assumption | intro _ | apply boundary_memWf | split | dsimp only

@[simp] theorem applyFlip_loft (i : Nat) (f : Option Flip) (s : State) :
    (applyFlip i f s).loft = s.loft := by
  unfold applyFlip
  with_reducible repeat' first | rfl | intro _ | refine (State.updSpar_loft ..).trans ?_ | split | dsimp only

theorem sparInstr_memWf (i opc : Nat) (flip : Option Flip) (base : Nat → State → State) (s : State) (h_s : memWf s.loft.mem = true)
        (h_base : ∀ y0 y1, memWf y1.loft.mem = true → memWf (base y0 y1).loft.mem = true) :
    keepsMem (sparInstr i opc flip base s) := by
  unfold sparInstr
  with_reducible repeat' first | assumption | intro _ | apply keepsMem_running | apply keepsMem_next | apply h_base
                               | refine memWf_of (applyFlip_loft ..) ?_ | apply machineCheckOut_memWf | apply dispatch_memWf
                               | apply boundary_memWf | refine pair_memWf (by assumption) ?_ | refine triple_memWf (by assumption) ?_
                               | split | dsimp only

/-! ### SparRows.lean -/

theorem execNop_memWf (spar : Fin 3) (flip : Option Flip) (s : State) (h_s : memWf s.loft.mem = true) :
    keepsMem (execNop spar flip s) := by
  unfold execNop
  with_reducible repeat' first | assumption | intro _ | apply keepsMem_running | apply keepsMem_next | apply sparInstr_memWf
                               | apply sparRetire_memWf | split | dsimp only

theorem execJump_memWf (spar : Fin 3) (flip : Option Flip) (s : State) (h_s : memWf s.loft.mem = true) :
    keepsMem (execJump spar flip s) := by
  unfold execJump
  with_reducible repeat' first | assumption | intro _ | apply keepsMem_running | apply keepsMem_next | apply sparInstr_memWf
                               | apply sparRetire_memWf | split | dsimp only

theorem execJumpIfInbound_memWf (spar : Fin 3) (flip : Option Flip) (s : State) (h_s : memWf s.loft.mem = true) :
    keepsMem (execJumpIfInbound spar flip s) := by
  unfold execJumpIfInbound
  with_reducible repeat' first | assumption | intro _ | apply keepsMem_running | apply keepsMem_next | apply sparInstr_memWf
                               | apply sparRetire_memWf | split | dsimp only

theorem baseWait_memWf (i : Nat) (w : Option Wait × Bool) (s : State) (h_s : memWf s.loft.mem = true) :
    memWf (baseWait i w s).loft.mem = true := by
  unfold baseWait
  with_reducible repeat' first | assumption | intro _ | apply sparRetire_memWf | refine memWf_of (State.updSpar_loft ..) ?_
                               | refine pair_memWf (by assumption) ?_ | refine triple_memWf (by assumption) ?_ | split | dsimp only

theorem waitTick_memWf (i o : Nat) (s : State) (h_s : memWf s.loft.mem = true) :
    memWf (waitTick i o s).loft.mem = true := by
  unfold waitTick
  with_reducible repeat' first | assumption | intro _ | apply baseWait_memWf | split | dsimp only

theorem execWaitTick_memWf (spar : Fin 3) (flip : Option Flip) (s : State) (h_s : memWf s.loft.mem = true) :
    keepsMem (execWaitTick spar flip s) := by
  unfold execWaitTick
  with_reducible repeat' first | assumption | intro _ | apply keepsMem_running | apply keepsMem_next | apply sparInstr_memWf
                               | apply waitTick_memWf | split | dsimp only

theorem execWaitEvent_memWf (spar : Fin 3) (flip : Option Flip) (s : State) (h_s : memWf s.loft.mem = true) :
    keepsMem (execWaitEvent spar flip s) := by
  unfold execWaitEvent
  with_reducible repeat' first | assumption | intro _ | apply keepsMem_running | apply keepsMem_next | apply sparInstr_memWf
                               | apply baseWait_memWf | split | dsimp only

theorem execSignal_memWf (spar : Fin 3) (flip : Option Flip) (s : State) (h_s : memWf s.loft.mem = true) :
    keepsMem (execSignal spar flip s) := by
  unfold execSignal
  with_reducible repeat' first | assumption | intro _ | apply keepsMem_running | apply keepsMem_next | apply sparInstr_memWf
                               | apply sparRetire_memWf | refine memWf_of (State.updSpar_loft ..) ?_ | split | dsimp only

theorem execHalt_memWf (spar : Fin 3) (flip : Option Flip) (s : State) (h_s : memWf s.loft.mem = true) :
    keepsMem (execHalt spar flip s) := by
  unfold execHalt
  with_reducible repeat' first | assumption | intro _ | apply keepsMem_running | apply keepsMem_next | apply sparInstr_memWf
                               | apply boundary_memWf | split | dsimp only

theorem loopStep_memWf (i o : Nat) (s : State) (h_s : memWf s.loft.mem = true) :
    memWf (loopStep i o s).loft.mem = true := by
  unfold loopStep
  with_reducible repeat' first | assumption | intro _ | apply sparRetire_memWf | refine memWf_of (State.updSpar_loft ..) ?_ | split | dsimp only

theorem execLoop_memWf (spar : Fin 3) (flip : Option Flip) (s : State) (h_s : memWf s.loft.mem = true) :
    keepsMem (execLoop spar flip s) := by
  unfold execLoop
  with_reducible repeat' first | assumption | intro _ | apply keepsMem_running | apply keepsMem_next | apply sparInstr_memWf
                               | apply loopStep_memWf | split | dsimp only

theorem formatter_memWf (opc : Nat) (flip : Option Flip) (f : Nat → State → State) (s : State) (h_s : memWf s.loft.mem = true)
        (h_f : ∀ y0 y1, memWf y1.loft.mem = true → memWf (f y0 y1).loft.mem = true) :
    keepsMem (formatter opc flip f s) := by
  unfold formatter
  with_reducible repeat' first | assumption | intro _ | apply keepsMem_running | apply keepsMem_next | apply h_f | apply sparInstr_memWf
                               | apply sparRetire_memWf | split | dsimp only

theorem execWedgeSync_memWf (flip : Option Flip) (s : State) (h_s : memWf s.loft.mem = true) :
    keepsMem (execWedgeSync flip s) := by
  unfold execWedgeSync
  with_reducible repeat' first | assumption | intro _ | apply keepsMem_running | apply keepsMem_next | apply sparInstr_memWf
                               | apply sparRetire_memWf | split | dsimp only

theorem execHeadSelect_memWf (flip : Option Flip) (s : State) (h_s : memWf s.loft.mem = true) :
    keepsMem (execHeadSelect flip s) := by
  unfold execHeadSelect
  with_reducible repeat' first | assumption | intro _ | apply keepsMem_running | apply keepsMem_next | apply formatter_memWf
                               | refine memWf_of (selectHead_loft ..) ?_ | split | dsimp only

theorem execSeekStart_memWf (flip : Option Flip) (s : State) (h_s : memWf s.loft.mem = true) :
    keepsMem (execSeekStart flip s) := by
  unfold execSeekStart
  with_reducible repeat' first | assumption | intro _ | apply keepsMem_running | apply keepsMem_next | apply formatter_memWf
                               | refine memWf_of (startSeek_loft ..) ?_ | split | dsimp only

theorem execSettleCheck_memWf (flip : Option Flip) (s : State) (h_s : memWf s.loft.mem = true) :
    keepsMem (execSettleCheck flip s) := by
  unfold execSettleCheck
  with_reducible repeat' first | assumption | intro _ | apply keepsMem_running | apply keepsMem_next | apply sparInstr_memWf
                               | apply sparRetire_memWf | split | dsimp only

@[simp] theorem armGate_loft (unit : Nat) (rise fall : Nat) (arg : Nat) (s : State) :
    (armGate unit rise fall arg s).loft = s.loft := by
  unfold armGate
  with_reducible repeat' first | rfl | intro _ | refine (sched_loft ..).trans ?_ | split | dsimp only

@[simp] theorem writeGates_loft (rise fall : BitVec 32) (o : Nat) (s : State) :
    (writeGates rise fall o s).loft = s.loft := by simp [writeGates]

theorem execWriteSector_memWf (flip : Option Flip) (rise fall : BitVec 32) (s : State) (h_s : memWf s.loft.mem = true) :
    keepsMem (execWriteSector flip rise fall s) := by
  unfold execWriteSector
  with_reducible repeat' first | assumption | intro _ | apply keepsMem_running | apply keepsMem_next | apply formatter_memWf
                               | refine memWf_of (writeGates_loft ..) ?_ | split | dsimp only

@[simp] theorem readGate_loft (unit : Nat) (rise fall : BitVec 32) (o : Nat) (s : State) :
    (readGate unit rise fall o s).loft = s.loft := by simp [readGate]

theorem execReadSector_memWf (flip : Option Flip) (rise fall : BitVec 32) (s : State) (h_s : memWf s.loft.mem = true) :
    keepsMem (execReadSector flip rise fall s) := by
  unfold execReadSector
  with_reducible repeat' first | assumption | intro _ | apply keepsMem_running | apply keepsMem_next | apply formatter_memWf
                               | refine memWf_of (readGate_loft ..) ?_ | split | dsimp only

theorem execVerifySector_memWf (flip : Option Flip) (rise fall : BitVec 32) (s : State) (h_s : memWf s.loft.mem = true) :
    keepsMem (execVerifySector flip rise fall s) := by
  unfold execVerifySector
  with_reducible repeat' first | assumption | intro _ | apply keepsMem_running | apply keepsMem_next | apply formatter_memWf
                               | refine memWf_of (readGate_loft ..) ?_ | split | dsimp only

theorem execSkipDefect_memWf (flip : Option Flip) (s : State) (h_s : memWf s.loft.mem = true) :
    keepsMem (execSkipDefect flip s) := by
  unfold execSkipDefect
  with_reducible repeat' first | assumption | intro _ | apply keepsMem_running | apply keepsMem_next | apply formatter_memWf | split | dsimp only

theorem cadencer_memWf (opc : Nat) (flip : Option Flip) (f : Nat → State → State) (s : State) (h_s : memWf s.loft.mem = true)
        (h_f : ∀ y0 y1, memWf y1.loft.mem = true → memWf (f y0 y1).loft.mem = true) :
    keepsMem (cadencer opc flip f s) := by
  unfold cadencer
  with_reducible repeat' first | assumption | intro _ | apply keepsMem_running | apply keepsMem_next | apply h_f | apply sparInstr_memWf
                               | apply sparRetire_memWf | split | dsimp only

@[simp] theorem armEdge_loft (o act : Nat) (u : Int) (s : State) :
    (armEdge o act u s).loft = s.loft := by
  unfold armEdge
  with_reducible repeat' first | rfl | intro _ | refine (sched_loft ..).trans ?_ | split | dsimp only

@[simp] theorem planEdge_loft (o : Nat) (s : State) :
    (planEdge o s).loft = s.loft := by
  unfold planEdge
  with_reducible repeat' first | rfl | intro _ | refine (armEdge_loft ..).trans ?_ | refine (State.updTb_loft ..).trans ?_ | split | dsimp only

theorem execEdgePlan_memWf (flip : Option Flip) (s : State) (h_s : memWf s.loft.mem = true) :
    keepsMem (execEdgePlan flip s) := by
  unfold execEdgePlan
  with_reducible repeat' first | assumption | intro _ | apply keepsMem_running | apply keepsMem_next | apply cadencer_memWf
                               | refine memWf_of (planEdge_loft ..) ?_ | split | dsimp only

@[simp] theorem assembleLtc_loft (o : Nat) (s : State) :
    (assembleLtc o s).loft = s.loft := by
  unfold assembleLtc
  with_reducible repeat' first | rfl | intro _ | refine (State.updTb_loft ..).trans ?_ | split | dsimp only

theorem execLtcFrame_memWf (flip : Option Flip) (s : State) (h_s : memWf s.loft.mem = true) :
    keepsMem (execLtcFrame flip s) := by
  unfold execLtcFrame
  with_reducible repeat' first | assumption | intro _ | apply keepsMem_running | apply keepsMem_next | apply cadencer_memWf
                               | refine memWf_of (assembleLtc_loft ..) ?_ | split | dsimp only

@[simp] theorem armLaunch_loft (o type tick : Nat) (s : State) :
    (armLaunch o type tick s).loft = s.loft := by
  unfold armLaunch
  with_reducible repeat' first | rfl | intro _ | refine (sched_loft ..).trans ?_ | split | dsimp only

theorem execPtpSyncLaunch_memWf (flip : Option Flip) (s : State) (h_s : memWf s.loft.mem = true) :
    keepsMem (execPtpSyncLaunch flip s) := by
  unfold execPtpSyncLaunch
  with_reducible repeat' first | assumption | intro _ | apply keepsMem_running | apply keepsMem_next | apply cadencer_memWf
                               | refine memWf_of (armLaunch_loft ..) ?_ | split | dsimp only

theorem execPtpFollowUp_memWf (flip : Option Flip) (s : State) (h_s : memWf s.loft.mem = true) :
    keepsMem (execPtpFollowUp flip s) := by
  unfold execPtpFollowUp
  with_reducible repeat' first | assumption | intro _ | apply keepsMem_running | apply keepsMem_next | apply cadencer_memWf
                               | refine memWf_of (armLaunch_loft ..) ?_ | split | dsimp only

theorem execPtpAnnounce_memWf (flip : Option Flip) (s : State) (h_s : memWf s.loft.mem = true) :
    keepsMem (execPtpAnnounce flip s) := by
  unfold execPtpAnnounce
  with_reducible repeat' first | assumption | intro _ | apply keepsMem_running | apply keepsMem_next | apply cadencer_memWf
                               | refine memWf_of (armLaunch_loft ..) ?_ | split | dsimp only

theorem radioInstr_memWf (opc : Nat) (flip : Option Flip) (f : Nat → State → State) (s : State) (h_s : memWf s.loft.mem = true)
        (h_f : ∀ y0 y1, memWf y1.loft.mem = true → memWf (f y0 y1).loft.mem = true) :
    keepsMem (radioInstr opc flip f s) := by
  unfold radioInstr
  with_reducible repeat' first | assumption | intro _ | apply keepsMem_running | apply keepsMem_next | apply h_f | apply sparInstr_memWf
                               | apply sparRetire_memWf | split | dsimp only

theorem bandTo_memWf (b st : Nat) (s : State) (h_s : memWf s.loft.mem = true) :
    memWf (bandTo b st s).loft.mem = true := by
  unfold bandTo
  with_reducible repeat' first | assumption | intro _ | apply stopBand_memWf | refine memWf_of (startBand_loft ..) ?_
                               | refine memWf_of (tune_loft ..) ?_ | refine memWf_of (State.updBand_loft ..) ?_
                               | refine memWf_of (activateBand_loft ..) ?_ | split | dsimp only

theorem execBandState_memWf (flip : Option Flip) (s : State) (h_s : memWf s.loft.mem = true) :
    keepsMem (execBandState flip s) := by
  unfold execBandState
  with_reducible repeat' first | assumption | intro _ | apply keepsMem_running | apply keepsMem_next | apply radioInstr_memWf
                               | apply bandTo_memWf | split | dsimp only

@[simp] theorem hopTo_loft (b e : Nat) (s : State) :
    (hopTo b e s).loft = s.loft := by
  unfold hopTo
  with_reducible repeat' first | rfl | intro _ | refine (tune_loft ..).trans ?_ | refine (State.updBand_loft ..).trans ?_ | split | dsimp only

theorem execSynthHop_memWf (flip : Option Flip) (s : State) (h_s : memWf s.loft.mem = true) :
    keepsMem (execSynthHop flip s) := by
  unfold execSynthHop
  with_reducible repeat' first | assumption | intro _ | apply keepsMem_running | apply keepsMem_next | apply radioInstr_memWf
                               | refine memWf_of (hopTo_loft ..) ?_ | split | dsimp only

@[simp] theorem tddStep_loft (b : Nat) (s : State) :
    (tddStep b s).loft = s.loft := by
  unfold tddStep
  with_reducible repeat' first | rfl | intro _ | refine (sched_loft ..).trans ?_ | split | dsimp only

theorem execTddStep_memWf (flip : Option Flip) (s : State) (h_s : memWf s.loft.mem = true) :
    keepsMem (execTddStep flip s) := by
  unfold execTddStep
  with_reducible repeat' first | assumption | intro _ | apply keepsMem_running | apply keepsMem_next | apply radioInstr_memWf
                               | refine memWf_of (tddStep_loft ..) ?_ | split | dsimp only

theorem execPowerStep_memWf (flip : Option Flip) (s : State) (h_s : memWf s.loft.mem = true) :
    keepsMem (execPowerStep flip s) := by
  unfold execPowerStep
  with_reducible repeat' first | assumption | intro _ | apply keepsMem_running | apply keepsMem_next | apply radioInstr_memWf
                               | refine memWf_of (stepTo_loft ..) ?_ | split | dsimp only

theorem execDitherChip_memWf (flip : Option Flip) (s : State) (h_s : memWf s.loft.mem = true) :
    keepsMem (execDitherChip flip s) := by
  unfold execDitherChip
  with_reducible repeat' first | assumption | intro _ | apply keepsMem_running | apply keepsMem_next | apply radioInstr_memWf
                               | refine memWf_of (ditherStep_loft ..) ?_ | split | dsimp only

theorem execDetSample_memWf (flip : Option Flip) (codes : Vector (BitVec 12) 8) (s : State) (h_s : memWf s.loft.mem = true) :
    keepsMem (execDetSample flip codes s) := by
  unfold execDetSample
  with_reducible repeat' first | assumption | intro _ | apply keepsMem_running | apply keepsMem_next | apply radioInstr_memWf
                               | refine memWf_of (State.updRad_loft ..) ?_ | split | dsimp only

theorem execRfspiXfer_memWf (flip : Option Flip) (s : State) (h_s : memWf s.loft.mem = true) :
    keepsMem (execRfspiXfer flip s) := by
  unfold execRfspiXfer
  with_reducible repeat' first | assumption | intro _ | apply keepsMem_running | apply keepsMem_next | apply radioInstr_memWf
                               | refine memWf_of (rfPush_loft ..) ?_ | split | dsimp only

theorem takeLine_memWf (i : Nat) (s : State) (h_s : memWf s.loft.mem = true) :
    memWf (takeLine i s).loft.mem = true := by
  unfold takeLine
  with_reducible repeat' first | assumption | intro _ | apply boundary_memWf | split | dsimp only

theorem execHaltRequest_memWf (spar : Fin 3) (s : State) (h_s : memWf s.loft.mem = true) :
    keepsMem (execHaltRequest spar s) := by
  unfold execHaltRequest
  with_reducible repeat' first | assumption | intro _ | apply keepsMem_running | apply keepsMem_next | apply takeLine_memWf
                               | refine memWf_of (State.updSpar_loft ..) ?_ | split | dsimp only

@[simp] theorem loadProgram_loft (i bank : Nat) (program inbound : List (BitVec 32)) (taken : Nat) (s : State) :
    (loadProgram i bank program inbound taken s).loft = s.loft := by simp [loadProgram]

theorem execBankSwitch_memWf (spar : Fin 3) (bank : Fin 2) (program inbound : List (BitVec 32)) (taken : Nat) (s : State)
        (h_s : memWf s.loft.mem = true) :
    keepsMem (execBankSwitch spar bank program inbound taken s) := by
  unfold execBankSwitch
  with_reducible repeat' first | assumption | intro _ | apply keepsMem_running | apply keepsMem_next
                               | refine memWf_of (loadProgram_loft ..) ?_ | apply takeLine_memWf
                               | refine memWf_of (State.updSpar_loft ..) ?_ | split | dsimp only

theorem execInterruptVector_memWf (spar : Fin 3) (line : Fin 6) (data : BitVec 24) (s : State) (h_s : memWf s.loft.mem = true) :
    keepsMem (execInterruptVector spar line data s) := by
  unfold execInterruptVector
  with_reducible repeat' first | assumption | intro _ | apply keepsMem_running | apply keepsMem_next | apply takeLine_memWf
                               | refine memWf_of (State.updSpar_loft ..) ?_ | split | dsimp only

theorem release_memWf (i : Nat) (y : Stall) (t : Bool) (s : State) (h_s : memWf s.loft.mem = true) :
    memWf (release i y t s).loft.mem = true := by
  unfold release
  with_reducible repeat' first | assumption | intro _ | refine memWf_of (State.updSpar_loft ..) ?_ | apply boundary_memWf
                               | apply micro_memWf | refine pair_memWf (by assumption) ?_ | refine triple_memWf (by assumption) ?_ | split
                               | dsimp only

theorem execTwaitRelease_memWf (spar : Fin 3) (tick : BitVec 32) (s : State) (h_s : memWf s.loft.mem = true) :
    keepsMem (execTwaitRelease spar tick s) := by
  unfold execTwaitRelease
  with_reducible repeat' first | assumption | intro _ | apply keepsMem_running | apply keepsMem_next | apply release_memWf | split | dsimp only

theorem execEwaitRelease_memWf (spar : Fin 3) (events : BitVec 8) (tick : BitVec 32) (s : State) (h_s : memWf s.loft.mem = true) :
    keepsMem (execEwaitRelease spar events tick s) := by
  unfold execEwaitRelease
  with_reducible repeat' first | assumption | intro _ | apply keepsMem_running | apply keepsMem_next | apply release_memWf | split | dsimp only

@[simp] theorem gateAction_loft (a : Action) (sector : Option (Nat × Nat)) (s : State) :
    (gateAction a sector s).loft = s.loft := by
  unfold gateAction
  with_reducible repeat' first | rfl | intro _ | refine (State.updChn_loft ..).trans ?_ | refine (State_updCmd_loft ..).trans ?_ | split | dsimp only

@[simp] theorem edgeAction_loft (a : Action) (s : State) :
    (edgeAction a s).loft = s.loft := by
  unfold edgeAction
  with_reducible repeat' first | rfl | intro _ | refine (State.emit_loft ..).trans ?_ | refine (State.updTb_loft ..).trans ?_ | split | dsimp only

@[simp] theorem launchAction_loft (a : Action) (s : State) :
    (launchAction a s).loft = s.loft := by
  unfold launchAction
  with_reducible repeat' first | rfl | intro _ | refine (ptpLaunch_loft ..).trans ?_ | refine (sendFollowUp_loft ..).trans ?_ | split | dsimp only

@[simp] theorem radioAction_loft (a : Action) (s : State) :
    (radioAction a s).loft = s.loft := by
  unfold radioAction
  with_reducible repeat' first | rfl | intro _ | refine (State.updBand_loft ..).trans ?_ | refine (syncEn_loft ..).trans ?_
                               | refine (rfPush_loft ..).trans ?_ | refine (ditherStep_loft ..).trans ?_ | split | dsimp only

theorem execSchedAction_loft (spar : Fin 3) (index : Fin 16) (tick : BitVec 32) (sector : Option (Nat × Nat)) (s : State) :
    keepsLoft s (execSchedAction spar index tick sector s) := by
  unfold execSchedAction
  with_reducible repeat' first | rfl | intro _ | apply keepsLoft_running | apply keepsLoft_next | refine (State.updSpar_loft ..).trans ?_
                               | refine (State.emit_loft ..).trans ?_ | refine (gateAction_loft ..).trans ?_
                               | refine (edgeAction_loft ..).trans ?_ | refine (launchAction_loft ..).trans ?_
                               | refine (radioAction_loft ..).trans ?_ | split | dsimp only

@[simp] theorem cmdSparGetVersion_loft  (s : State) (t : Nat) (p : Bytes) :
    (Cmd.run cmdSparGetVersion s t p).state.loft = s.loft := by simp [cmdSparGetVersion]

@[simp] theorem cmdSparGetStatus_loft  (s : State) (t : Nat) (p : Bytes) :
    (Cmd.run cmdSparGetStatus s t p).state.loft = s.loft := by
  unfold cmdSparGetStatus
  with_reducible repeat' first | rfl | intro _ | split | dsimp only [Reply.state_done, Reply.state_accept, Reply.state_silent]

@[simp] theorem cmdSparReload_loft  (s : State) (t : Nat) (p : Bytes) :
    (Cmd.run cmdSparReload s t p).state.loft = s.loft := by
  unfold cmdSparReload
  with_reducible repeat' first | rfl | intro _ | refine (State.updSpar_loft ..).trans ?_ | split
                               | dsimp only [Reply.state_done, Reply.state_accept, Reply.state_silent]

theorem reloadEnd_memWf (j : Job) (bad : Bool) (s : State) (h_s : memWf s.loft.mem = true) :
    memWf (reloadEnd j bad s).loft.mem = true := by
  unfold reloadEnd
  with_reducible repeat' first | assumption | intro _ | apply completeJob_memWf | refine memWf_of (State.updSpar_loft ..) ?_
                               | apply loadStore_memWf | refine memWf_of (crumb_loft ..) ?_ | refine memWf_of (sparResume_loft ..) ?_
                               | refine memWf_of (mcClear_loft ..) ?_ | refine memWf_of (cadenceResume_loft ..) ?_ | split | dsimp only

theorem cmdSparPatchCheck_memWf  (s : State) (t : Nat) (p : Bytes) (h_s : memWf s.loft.mem = true) :
    memWf (Cmd.run cmdSparPatchCheck s t p).state.loft.mem = true := by
  unfold cmdSparPatchCheck
  with_reducible repeat' first | assumption | intro _ | apply pinAll_memWf | split
                               | dsimp only [Reply.state_done, Reply.state_accept, Reply.state_silent]

theorem patchCheckEnd_memWf (j : Job) (s : State) (h_s : memWf s.loft.mem = true) :
    memWf (patchCheckEnd j s).loft.mem = true := by
  unfold patchCheckEnd
  with_reducible repeat' first | assumption | intro _ | apply completeJob_memWf | split | dsimp only

theorem execSparGetVersion_loft (c : Call) (s : State) :
    keepsLoft s (execSparGetVersion c s) := by
  apply keepsLoft_running; simp

theorem execSparGetStatus_loft (c : Call) (s : State) :
    keepsLoft s (execSparGetStatus c s) := by
  apply keepsLoft_running; simp

theorem execSparReload_loft (c : Call) (s : State) :
    keepsLoft s (execSparReload c s) := by
  apply keepsLoft_running; simp

theorem execSparPatchCheck_memWf (c : Call) (s : State) (h_s : memWf s.loft.mem = true) :
    keepsMem (execSparPatchCheck c s) := by
  unfold execSparPatchCheck
  with_reducible repeat' first | assumption | intro _ | apply keepsMem_running | apply keepsMem_next | apply command_memWf
                               | apply cmdSparPatchCheck_memWf | split | dsimp only

/-! ### Ptp.lean -/

@[simp] theorem takeGeneral_loft (p : Nat) (s : State) :
    (takeGeneral p s).loft = s.loft := by simp [takeGeneral]

theorem respTake_memWf (p : Nat) (s : State) (h_s : memWf s.loft.mem = true) :
    ∀ z, respTake p s = some z → memWf z.loft.mem = true := by
  intro z h
  unfold respTake at h
  dsimp only at h
  generalize (if s.net.respSec = _ then s.net else _) = n at h
  split at h <;> split at h <;> first
    | (injection h with h; subst h; exact h_s)
    | cases h

theorem delayResp_memWf (p group : Nat) (log : Int) (m : PtpRx) (s : State) (h_s : memWf s.loft.mem = true) :
    memWf (delayResp p group log m s).loft.mem = true := by
  unfold delayResp
  with_reducible repeat' first | assumption | intro _ | refine memWf_of (ptpCount_loft ..) ?_ | refine memWf_of (ptpSend_loft ..) ?_
                               | refine respTake_memWf _ _ ?_ _ (by assumption) | refine pair_memWf (by assumption) ?_
                               | refine triple_memWf (by assumption) ?_ | split | dsimp only

theorem execDelayReq_memWf (p : Fin 6) (m : PtpRx) (s : State) (h_s : memWf s.loft.mem = true) :
    keepsMem (execDelayReq p m s) := by
  unfold execDelayReq
  with_reducible repeat' first | assumption | intro _ | apply keepsMem_running | apply keepsMem_next | apply ptpTake_memWf
                               | apply delayResp_memWf | refine memWf_of (ptpCount_loft ..) ?_ | split | dsimp only

@[simp] theorem denyRequest_loft (p group count type : Nat) (log : Int) (s : State) :
    (denyRequest p group count type log s).loft = s.loft := by simp [denyRequest]

@[simp] theorem tableFull_loft (p : Nat) (s : State) :
    (tableFull p s).loft = s.loft := by
  unfold tableFull
  with_reducible repeat' first | rfl | intro _ | refine (crumb_loft ..).trans ?_ | refine (State.updNet_loft ..).trans ?_ | split | dsimp only

@[simp] theorem grantRequest_loft (p i type : Nat) (log : Int) (d : Nat) (m : PtpRx) (old : Follower) (s : State) :
    (grantRequest p i type log d m old s).loft = s.loft := by
  unfold grantRequest
  with_reducible repeat' first | rfl | intro _ | refine (State.drawn_loft ..).trans ?_ | refine (State.updNet_loft ..).trans ?_
                               | refine (ptpCount_loft ..).trans ?_ | refine (ptpSignal_loft ..).trans ?_ | split | dsimp only

theorem execSignalingRequest_loft (p : Fin 6) (m : PtpRx) (type : Fin 16) (log : Int) (duration : Nat) (s : State) :
    keepsLoft s (execSignalingRequest p m type log duration s) := by
  unfold execSignalingRequest
  with_reducible repeat' first | rfl | intro _ | apply keepsLoft_running | apply keepsLoft_next | refine (ptpTake_loft _ _ _ _ ?_).trans ?_
                               | refine (denyRequest_loft ..).trans ?_ | refine (tableFull_loft ..).trans ?_
                               | refine (grantRequest_loft ..).trans ?_ | refine (takeGeneral_loft ..).trans ?_ | split | dsimp only

theorem execCancelUnicastTransmission_loft (p : Fin 6) (m : PtpRx) (type : Fin 16) (s : State) :
    keepsLoft s (execCancelUnicastTransmission p m type s) := by
  unfold execCancelUnicastTransmission
  with_reducible repeat' first | rfl | intro _ | apply keepsLoft_running | apply keepsLoft_next | refine (ptpTake_loft _ _ _ _ ?_).trans ?_
                               | refine (State.updInst_loft ..).trans ?_ | refine (updFollower_loft ..).trans ?_
                               | refine (ptpSignal_loft ..).trans ?_ | refine (takeGeneral_loft ..).trans ?_ | split | dsimp only

theorem execGrantExpiry_loft (i : Fin 4096) (type : Fin 16) (heldS : Nat) (s : State) :
    keepsLoft s (execGrantExpiry i type heldS s) := by
  unfold execGrantExpiry
  with_reducible repeat' first | rfl | intro _ | apply keepsLoft_running | apply keepsLoft_next | refine (updFollower_loft ..).trans ?_
                               | split | dsimp only

theorem execGrantRenewal_loft (p : Fin 6) (k : Fin 4) (type : Fin 16) (heldS : Nat) (s : State) :
    keepsLoft s (execGrantRenewal p k type heldS s) := by
  unfold execGrantRenewal
  with_reducible repeat' first | rfl | intro _ | apply keepsLoft_running | apply keepsLoft_next | refine (ptpSignal_loft ..).trans ?_
                               | split | dsimp only

theorem execGrantReceived_loft (p : Fin 6) (m : PtpRx) (type : Fin 16) (duration : Nat) (s : State) :
    keepsLoft s (execGrantReceived p m type duration s) := by
  unfold execGrantReceived
  with_reducible repeat' first | rfl | intro _ | apply keepsLoft_running | apply keepsLoft_next | refine (ptpTake_loft _ _ _ _ ?_).trans ?_
                               | refine (State.updInst_loft ..).trans ?_ | refine (takeGeneral_loft ..).trans ?_ | split | dsimp only

theorem follow_memWf (p : Nat) (d : Parent) (s : State) (h_s : memWf s.loft.mem = true) :
    memWf (follow p d s).loft.mem = true := by
  unfold follow
  with_reducible repeat' first | assumption | intro _ | refine memWf_of (State.updInst_loft ..) ?_ | apply setPtpRef_memWf
                               | apply disqualify_memWf | apply ptpTo_memWf | split | dsimp only

theorem decide1588_memWf (p : Nat) (s : State) (h_s : memWf s.loft.mem = true) :
    memWf (decide1588 p s).loft.mem = true := by
  unfold decide1588
  with_reducible repeat' first | assumption | intro _ | apply ptpTo_memWf | apply follow_memWf | split | dsimp only

@[simp] theorem adoptAnnounce_loft (p : Nat) (a : PtpAnn) (s : State) :
    (adoptAnnounce p a s).loft = s.loft := by
  unfold adoptAnnounce
  with_reducible repeat' first | rfl | intro _ | refine (adoptOffsets_loft ..).trans ?_ | split | dsimp only

theorem execAnnounceReceived_memWf (p : Fin 6) (m : PtpRx) (a : PtpAnn) (s : State) (h_s : memWf s.loft.mem = true) :
    keepsMem (execAnnounceReceived p m a s) := by
  unfold execAnnounceReceived
  with_reducible repeat' first | assumption | intro _ | apply keepsMem_running | apply keepsMem_next | apply ptpTake_memWf
                               | refine memWf_of (State.updInst_loft ..) ?_ | apply decide1588_memWf | apply ptpCheck_memWf
                               | refine memWf_of (adoptAnnounce_loft ..) ?_ | refine memWf_of (takeGeneral_loft ..) ?_ | split | dsimp only

theorem execAnnounceReceiptTimeout_memWf (p : Fin 6) (intervals : Nat) (s : State) (h_s : memWf s.loft.mem = true) :
    keepsMem (execAnnounceReceiptTimeout p intervals s) := by
  unfold execAnnounceReceiptTimeout
  with_reducible repeat' first | assumption | intro _ | apply keepsMem_running | apply keepsMem_next
                               | refine memWf_of (State.updInst_loft ..) ?_ | apply ptpTo_memWf | split | dsimp only

theorem execSyncReceived_loft (p : Fin 6) (m : PtpRx) (twoStep : Bool) (sec ns : Nat) (s : State) :
    keepsLoft s (execSyncReceived p m twoStep sec ns s) := by
  unfold execSyncReceived
  with_reducible repeat' first | rfl | intro _ | apply keepsLoft_running | apply keepsLoft_next | refine (ptpTake_loft _ _ _ _ ?_).trans ?_
                               | refine (State.updInst_loft ..).trans ?_ | split | dsimp only

theorem execFollowUpReceived_loft (p : Fin 6) (m : PtpRx) (sec ns : Nat) (s : State) :
    keepsLoft s (execFollowUpReceived p m sec ns s) := by
  unfold execFollowUpReceived
  with_reducible repeat' first | rfl | intro _ | apply keepsLoft_running | apply keepsLoft_next | refine (ptpTake_loft _ _ _ _ ?_).trans ?_
                               | refine (State.updInst_loft ..).trans ?_ | refine (takeGeneral_loft ..).trans ?_ | split | dsimp only

theorem exchange_memWf (p : Nat) (ms sm : Int) (s : State) (h_s : memWf s.loft.mem = true) :
    memWf (exchange p ms sm s).loft.mem = true := by
  unfold exchange
  with_reducible repeat' first | assumption | intro _ | refine memWf_of (State.updInst_loft ..) ?_
                               | refine memWf_of (State_updRef_loft ..) ?_ | refine memWf_of (State.updTb_loft ..) ?_ | apply ptpTo_memWf
                               | split | dsimp only

theorem execDelayRespReceived_memWf (p : Fin 6) (m : PtpRx) (sec ns : Nat) (t3sec t3ns t3frac : Nat) (s : State) (h_s : memWf s.loft.mem = true) :
    keepsMem (execDelayRespReceived p m sec ns t3sec t3ns t3frac s) := by
  unfold execDelayRespReceived
  with_reducible repeat' first | assumption | intro _ | apply keepsMem_running | apply keepsMem_next | apply ptpTake_memWf
                               | apply exchange_memWf | refine memWf_of (takeGeneral_loft ..) ?_ | split | dsimp only

theorem execSyncTimeout_memWf (p : Fin 6) (intervals : Nat) (s : State) (h_s : memWf s.loft.mem = true) :
    keepsMem (execSyncTimeout p intervals s) := by
  unfold execSyncTimeout
  with_reducible repeat' first | assumption | intro _ | apply keepsMem_running | apply keepsMem_next | apply disqualify_memWf | split | dsimp only

theorem execAuthTimeout_memWf (p : Fin 6) (forS : Nat) (s : State) (h_s : memWf s.loft.mem = true) :
    keepsMem (execAuthTimeout p forS s) := by
  unfold execAuthTimeout
  with_reducible repeat' first | assumption | intro _ | apply keepsMem_running | apply keepsMem_next | apply disqualify_memWf | split | dsimp only

@[simp] theorem adoptSm_loft (p : Nat) (tlv : Bytes) (s : State) :
    (adoptSm p tlv s).loft = s.loft := by
  unfold adoptSm
  with_reducible repeat' first | rfl | intro _ | refine (adoptOffsets_loft ..).trans ?_ | split | dsimp only

theorem execManagementReceived_loft (p : Fin 6) (m : PtpRx) (tlv : List (BitVec 8)) (s : State) :
    keepsLoft s (execManagementReceived p m tlv s) := by
  unfold execManagementReceived
  with_reducible repeat' first | rfl | intro _ | apply keepsLoft_running | apply keepsLoft_next | refine (ptpTake_loft _ _ _ _ ?_).trans ?_
                               | refine (adoptSm_loft ..).trans ?_ | refine (State.updInst_loft ..).trans ?_
                               | refine (takeGeneral_loft ..).trans ?_ | split | dsimp only

theorem execPdelayReceived_loft (p : Fin 6) (s : State) :
    keepsLoft s (execPdelayReceived p s) := by
  unfold execPdelayReceived
  with_reducible repeat' first | rfl | intro _ | apply keepsLoft_running | apply keepsLoft_next | refine (ptpCount_loft ..).trans ?_
                               | split | dsimp only

theorem execFollowUp_loft (p : Fin 6) (s : State) :
    keepsLoft s (execFollowUp p s) := by
  apply keepsLoft_running; simp

theorem execSmTlvSend_loft (p : Fin 6) (s : State) :
    keepsLoft s (execSmTlvSend p s) := by
  unfold execSmTlvSend
  with_reducible repeat' first | rfl | intro _ | refine (foldl_loft ?_ _ _).trans ?_ | apply keepsLoft_running | apply keepsLoft_next
                               | refine (ptpSend_loft ..).trans ?_ | split | dsimp only

@[simp] theorem cmdPtpGetStatus_loft  (s : State) (t : Nat) (p : Bytes) :
    (Cmd.run cmdPtpGetStatus s t p).state.loft = s.loft := by simp [cmdPtpGetStatus]

@[simp] theorem freePtpFlows_loft (p : Nat) (s : State) :
    (freePtpFlows p s).loft = s.loft := by
  unfold freePtpFlows
  with_reducible repeat' first | rfl | intro _ | refine (foldl_loft ?_ _ _).trans ?_ | refine (freeFlow_loft ..).trans ?_
                               | refine (State.updInst_loft ..).trans ?_ | split | dsimp only

@[simp] theorem putPtpFlows_loft (p vid prio : Nat) (l : List Nat) (s : State) :
    (putPtpFlows p vid prio l s).loft = s.loft := by
  unfold putPtpFlows
  with_reducible repeat' first | rfl | intro _ | refine (setFlow_loft ..).trans ?_ | refine (State.updInst_loft ..).trans ?_ | split | dsimp only

theorem cmdPtpInstanceConfig_memWf  (s : State) (t : Nat) (p : Bytes) (h_s : memWf s.loft.mem = true) :
    memWf (Cmd.run cmdPtpInstanceConfig s t p).state.loft.mem = true := by
  unfold cmdPtpInstanceConfig
  with_reducible repeat' first | assumption | intro _ | apply ptpTo_memWf | refine memWf_of (dropFollowers_loft ..) ?_
                               | refine memWf_of (State.updInst_loft ..) ?_ | refine memWf_of (freePtpFlows_loft ..) ?_
                               | refine memWf_of (putPtpFlows_loft ..) ?_ | split
                               | dsimp only [Reply.state_done, Reply.state_accept, Reply.state_silent]

@[simp] theorem cmdPtpInstanceStatus_loft  (s : State) (t : Nat) (p : Bytes) :
    (Cmd.run cmdPtpInstanceStatus s t p).state.loft = s.loft := by simp [cmdPtpInstanceStatus]

@[simp] theorem cmdPtpFollowersGet_loft  (s : State) (t : Nat) (p : Bytes) :
    (Cmd.run cmdPtpFollowersGet s t p).state.loft = s.loft := by simp [cmdPtpFollowersGet]

@[simp] theorem cmdPtpUnicastMastersSet_loft  (s : State) (t : Nat) (p : Bytes) :
    (Cmd.run cmdPtpUnicastMastersSet s t p).state.loft = s.loft := by simp [cmdPtpUnicastMastersSet]

theorem cmdPtpClockConfig_memWf  (s : State) (t : Nat) (p : Bytes) (h_s : memWf s.loft.mem = true) :
    memWf (Cmd.run cmdPtpClockConfig s t p).state.loft.mem = true := by
  unfold cmdPtpClockConfig
  with_reducible repeat' first | assumption | intro _ | apply ptpCheck_memWf | refine memWf_of (State.updNet_loft ..) ?_ | split
                               | dsimp only [Reply.state_done, Reply.state_accept, Reply.state_silent]

@[simp] theorem cmdPtpAsymSet_loft  (s : State) (t : Nat) (p : Bytes) :
    (Cmd.run cmdPtpAsymSet s t p).state.loft = s.loft := by simp [cmdPtpAsymSet]

@[simp] theorem cmdPtpCalRun_loft  (s : State) (t : Nat) (p : Bytes) :
    (Cmd.run cmdPtpCalRun s t p).state.loft = s.loft := by
  unfold cmdPtpCalRun
  with_reducible repeat' first | rfl | intro _ | refine (armTimIn_loft ..).trans ?_ | refine (State.updNet_loft ..).trans ?_ | split
                               | dsimp only [Reply.state_done, Reply.state_accept, Reply.state_silent]

theorem execPtpCalRunEnd_memWf (errs : List (Option Int)) (s : State) (h_s : memWf s.loft.mem = true) :
    keepsMem (execPtpCalRunEnd errs s) := by
  unfold execPtpCalRunEnd
  with_reducible repeat' first | assumption | intro _ | apply keepsMem_running | apply keepsMem_next
                               | refine memWf_of (armTimIn_loft ..) ?_ | refine memWf_of (State.updNet_loft ..) ?_
                               | apply completeJob_memWf | apply completeResult_memWf | split | dsimp only

@[simp] theorem cmdPtpAuthConfig_loft  (s : State) (t : Nat) (p : Bytes) :
    (Cmd.run cmdPtpAuthConfig s t p).state.loft = s.loft := by
  unfold cmdPtpAuthConfig
  with_reducible repeat' first | rfl | intro _ | refine (State.updInst_loft ..).trans ?_ | split
                               | dsimp only [Reply.state_done, Reply.state_accept, Reply.state_silent]

@[simp] theorem cmdPtpFollowerDrop_loft  (s : State) (t : Nat) (p : Bytes) :
    (Cmd.run cmdPtpFollowerDrop s t p).state.loft = s.loft := by
  unfold cmdPtpFollowerDrop
  with_reducible repeat' first | rfl | intro _ | refine (dropFollower_loft ..).trans ?_ | split
                               | dsimp only [Reply.state_done, Reply.state_accept, Reply.state_silent]

@[simp] theorem cmdPtpCounters_loft  (s : State) (t : Nat) (p : Bytes) :
    (Cmd.run cmdPtpCounters s t p).state.loft = s.loft := by simp [cmdPtpCounters]

theorem execPtpGetStatus_loft (c : Call) (s : State) :
    keepsLoft s (execPtpGetStatus c s) := by
  apply keepsLoft_running; simp

theorem execPtpInstanceConfig_memWf (c : Call) (s : State) (h_s : memWf s.loft.mem = true) :
    keepsMem (execPtpInstanceConfig c s) := by
  unfold execPtpInstanceConfig
  with_reducible repeat' first | assumption | intro _ | apply keepsMem_running | apply keepsMem_next | apply command_memWf
                               | apply cmdPtpInstanceConfig_memWf | split | dsimp only

theorem execPtpInstanceStatus_loft (c : Call) (s : State) :
    keepsLoft s (execPtpInstanceStatus c s) := by
  apply keepsLoft_running; simp

theorem execPtpFollowersGet_loft (c : Call) (s : State) :
    keepsLoft s (execPtpFollowersGet c s) := by
  apply keepsLoft_running; simp

theorem execPtpUnicastMastersSet_loft (c : Call) (s : State) :
    keepsLoft s (execPtpUnicastMastersSet c s) := by
  apply keepsLoft_running; simp

theorem execPtpClockConfig_memWf (c : Call) (s : State) (h_s : memWf s.loft.mem = true) :
    keepsMem (execPtpClockConfig c s) := by
  unfold execPtpClockConfig
  with_reducible repeat' first | assumption | intro _ | apply keepsMem_running | apply keepsMem_next | apply command_memWf
                               | apply cmdPtpClockConfig_memWf | split | dsimp only

theorem execPtpAsymSet_loft (c : Call) (s : State) :
    keepsLoft s (execPtpAsymSet c s) := by
  apply keepsLoft_running; simp

theorem execPtpCalRun_loft (c : Call) (s : State) :
    keepsLoft s (execPtpCalRun c s) := by
  apply keepsLoft_running; simp

theorem execPtpAuthConfig_loft (c : Call) (s : State) :
    keepsLoft s (execPtpAuthConfig c s) := by
  apply keepsLoft_running; simp

theorem execPtpFollowerDrop_loft (c : Call) (s : State) :
    keepsLoft s (execPtpFollowerDrop c s) := by
  apply keepsLoft_running; simp

theorem execPtpCounters_loft (c : Call) (s : State) :
    keepsLoft s (execPtpCounters c s) := by
  apply keepsLoft_running; simp

end Sys2Proof.Machine
end

