-- ==== Sys2Proof/Laws/LoftTenant.lean ====
section
/-!
SUPPORT. The Loft through tenants, interrupts, rings and windows: for each function that leaves the Loft alone, that it does (`_loft`); for each that
may write it, that its memory keeps the canonical form (`_memWf`).
-/
namespace Sys2Proof.Machine
open Sys2Proof
set_option linter.all false

/-! ### Tenants.lean -/

theorem freeHeld_memWf (t : Nat) (s : State) (h_s : memWf s.loft.mem = true) :
    memWf (freeHeld t s).loft.mem = true := by
  unfold freeHeld
  with_reducible repeat' first | assumption | intro _ | refine foldl_memWf ?_ _ _ ?_ | apply freeYealm_memWf | split
                               | dsimp only [State.updLoft, Loft.setTag, Loft.clear, Loft.write]

@[simp] theorem closeRings_loft (t : Nat) (s : State) :
    (closeRings t s).loft = s.loft := by
  unfold closeRings
  with_reducible repeat' first | rfl | intro _ | refine (foldl_loft ?_ _ _).trans ?_ | refine (closeRing_loft ..).trans ?_
                               | refine (State.updTen_loft ..).trans ?_ | split | dsimp only

theorem dropFrames_memWf (t : Nat) (s : State) (h_s : memWf s.loft.mem = true) :
    memWf (dropFrames t s).loft.mem = true := by
  unfold dropFrames
  with_reducible repeat' first | assumption | intro _ | refine foldl_memWf ?_ _ _ ?_ | refine memWf_of (State.updPort_loft ..) ?_
                               | apply unpinAll_memWf | refine memWf_of (State.updTen_loft ..) ?_ | split
                               | dsimp only [State.updLoft, Loft.setTag, Loft.clear, Loft.write]

theorem abortWork_memWf (t : Nat) (s : State) (h_s : memWf s.loft.mem = true) :
    memWf (abortWork t s).loft.mem = true := by
  unfold abortWork
  with_reducible repeat' first | assumption | intro _ | refine foldl_memWf ?_ _ _ ?_ | refine memWf_of (State.updTen_loft ..) ?_
                               | refine memWf_of (State.updDsk_loft ..) ?_ | apply abortCmd_memWf | split
                               | dsimp only [State.updLoft, Loft.setTag, Loft.clear, Loft.write]

@[simp] theorem clearTimIn_loft (t : Nat) (s : State) :
    (clearTimIn t s).loft = s.loft := by
  unfold clearTimIn
  with_reducible repeat' first | rfl | intro _ | refine (State.updTb_loft ..).trans ?_ | refine (State.updNet_loft ..).trans ?_ | split | dsimp only

theorem beginReset_memWf (t cause : Nat) (disable : Bool) (s : State) (h_s : memWf s.loft.mem = true) :
    memWf (beginReset t cause disable s).loft.mem = true := by
  unfold beginReset
  with_reducible repeat' first | assumption | intro _ | refine memWf_of (State.updTen_loft ..) ?_ | apply freeHeld_memWf
                               | refine memWf_of (clearTimIn_loft ..) ?_ | apply dropFrames_memWf | apply abortWork_memWf
                               | refine memWf_of (closeRings_loft ..) ?_ | split | dsimp only [State.updLoft, Loft.setTag, Loft.clear, Loft.write]

theorem resetTenant_memWf (t cause : Nat) (s : State) (h_s : memWf s.loft.mem = true) :
    memWf (resetTenant t cause s).loft.mem = true := by
  unfold resetTenant
  with_reducible repeat' first | assumption | intro _ | apply beginReset_memWf | split
                               | dsimp only [State.updLoft, Loft.setTag, Loft.clear, Loft.write]

theorem tenResetWrite_memWf (t v : Nat) (s : State) (h_s : memWf s.loft.mem = true) :
    memWf (tenResetWrite t v s).loft.mem = true := by
  unfold tenResetWrite
  with_reducible repeat' first | assumption | intro _ | apply resetTenant_memWf | split
                               | dsimp only [State.updLoft, Loft.setTag, Loft.clear, Loft.write]

theorem execTenResetWrite_memWf (t : Fin 8) (value : BitVec 32) (s : State) (h_s : memWf s.loft.mem = true) :
    keepsMem (execTenResetWrite t value s) := by
  unfold execTenResetWrite
  with_reducible repeat' first | assumption | intro _ | apply keepsMem_running | apply keepsMem_next | apply tenResetWrite_memWf | split
                               | dsimp only [State.updLoft, Loft.setTag, Loft.clear, Loft.write]

@[simp] theorem stripServices_loft (t : Nat) (s : State) :
    (stripServices t s).loft = s.loft := by simp [stripServices]

theorem endReset_memWf (t : Nat) (s : State) (h_s : memWf s.loft.mem = true) :
    memWf (endReset t s).loft.mem = true := by
  unfold endReset
  with_reducible repeat' first | assumption | intro _ | refine memWf_of (State.updTen_loft ..) ?_
                               | refine memWf_of (State.updView_loft ..) ?_ | refine memWf_of (stripServices_loft ..) ?_
                               | refine memWf_of (crumb_loft ..) ?_ | apply finish_memWf | split
                               | dsimp only [State.updLoft, Loft.setTag, Loft.clear, Loft.write]

theorem execTenantResetComplete_memWf (t : Fin 8) (s : State) (h_s : memWf s.loft.mem = true) :
    keepsMem (execTenantResetComplete t s) := by
  unfold execTenantResetComplete
  with_reducible repeat' first | assumption | intro _ | apply keepsMem_running | apply keepsMem_next | apply endReset_memWf | split
                               | dsimp only [State.updLoft, Loft.setTag, Loft.clear, Loft.write]

@[simp] theorem resetFunction_loft (t : Nat) (s : State) :
    (resetFunction t s).loft = s.loft := by simp [resetFunction]

theorem execFunctionLevelReset_memWf (t : Fin 8) (s : State) (h_s : memWf s.loft.mem = true) :
    keepsMem (execFunctionLevelReset t s) := by
  unfold execFunctionLevelReset
  with_reducible repeat' first | assumption | intro _ | apply keepsMem_running | apply keepsMem_next | apply resetTenant_memWf
                               | refine memWf_of (resetFunction_loft ..) ?_ | split | dsimp only [State.updLoft, Loft.setTag, Loft.clear, Loft.write]

theorem execPerstN_memWf (hot : Bool) (s : State) (h_s : memWf s.loft.mem = true) :
    keepsMem (execPerstN hot s) := by
  unfold execPerstN
  with_reducible repeat' first | assumption | intro _ | refine foldl_memWf ?_ _ _ ?_ | apply keepsMem_running | apply keepsMem_next
                               | refine memWf_of (State.updSup_loft ..) ?_ | refine memWf_of (resetFunction_loft ..) ?_
                               | apply resetTenant_memWf | split | dsimp only [State.updLoft, Loft.setTag, Loft.clear, Loft.write]

@[simp] theorem cmdSysGetInfo_loft  (s : State) (t : Nat) (p : Bytes) :
    (Cmd.run cmdSysGetInfo s t p).state.loft = s.loft := by simp [cmdSysGetInfo]

@[simp] theorem cmdSysEcho_loft  (s : State) (t : Nat) (p : Bytes) :
    (Cmd.run cmdSysEcho s t p).state.loft = s.loft := by simp [cmdSysEcho]

theorem cmdTenReset_memWf  (s : State) (t : Nat) (p : Bytes) (h_s : memWf s.loft.mem = true) :
    memWf (Cmd.run cmdTenReset s t p).state.loft.mem = true := by
  unfold cmdTenReset
  with_reducible repeat' first | assumption | intro _ | apply beginReset_memWf | split
                               | dsimp only [Reply.state_done, Reply.state_accept, Reply.state_silent, State.updLoft, Loft.setTag, Loft.clear, Loft.write]

@[simp] theorem moveSources_loft (svc old new : Nat) (s : State) :
    (moveSources svc old new s).loft = s.loft := by
  unfold moveSources
  with_reducible repeat' first | rfl | intro _ | refine (foldl_loft ?_ _ _).trans ?_ | refine (State.updView_loft ..).trans ?_
                               | refine (goPending_loft ..).trans ?_ | split | dsimp only

@[simp] theorem cmdSvcAssign_loft  (s : State) (t : Nat) (p : Bytes) :
    (Cmd.run cmdSvcAssign s t p).state.loft = s.loft := by
  unfold cmdSvcAssign
  with_reducible repeat' first | rfl | intro _ | refine (moveSources_loft ..).trans ?_ | split
                               | dsimp only [Reply.state_done, Reply.state_accept, Reply.state_silent]

theorem cmdTenEnable_memWf  (s : State) (t : Nat) (p : Bytes) (h_s : memWf s.loft.mem = true) :
    memWf (Cmd.run cmdTenEnable s t p).state.loft.mem = true := by
  unfold cmdTenEnable
  with_reducible repeat' first | assumption | intro _ | refine memWf_of (State.updTen_loft ..) ?_ | apply beginReset_memWf | split
                               | dsimp only [Reply.state_done, Reply.state_accept, Reply.state_silent, State.updLoft, Loft.setTag, Loft.clear, Loft.write]

@[simp] theorem cmdTenGetStatus_loft  (s : State) (t : Nat) (p : Bytes) :
    (Cmd.run cmdTenGetStatus s t p).state.loft = s.loft := by simp [cmdTenGetStatus]

@[simp] theorem cmdSvcGet_loft  (s : State) (t : Nat) (p : Bytes) :
    (Cmd.run cmdSvcGet s t p).state.loft = s.loft := by simp [cmdSvcGet]

@[simp] theorem cmdTenFault_loft  (s : State) (t : Nat) (p : Bytes) :
    (Cmd.run cmdTenFault s t p).state.loft = s.loft := by
  unfold cmdTenFault
  with_reducible repeat' first | rfl | intro _ | refine (faultTenant_loft ..).trans ?_ | split
                               | dsimp only [Reply.state_done, Reply.state_accept, Reply.state_silent]

theorem execSysGetInfo_loft (c : Call) (s : State) :
    keepsLoft s (execSysGetInfo c s) := by
  apply keepsLoft_running; simp

theorem execSysEcho_loft (c : Call) (s : State) :
    keepsLoft s (execSysEcho c s) := by
  apply keepsLoft_running; simp

theorem execTenReset_memWf (c : Call) (s : State) (h_s : memWf s.loft.mem = true) :
    keepsMem (execTenReset c s) := by
  unfold execTenReset
  with_reducible repeat' first | assumption | intro _ | apply keepsMem_running | apply keepsMem_next | apply command_memWf
                               | apply cmdTenReset_memWf | split | dsimp only [State.updLoft, Loft.setTag, Loft.clear, Loft.write]

theorem execSvcAssign_loft (c : Call) (s : State) :
    keepsLoft s (execSvcAssign c s) := by
  apply keepsLoft_running; simp

theorem execTenEnable_memWf (c : Call) (s : State) (h_s : memWf s.loft.mem = true) :
    keepsMem (execTenEnable c s) := by
  unfold execTenEnable
  with_reducible repeat' first | assumption | intro _ | apply keepsMem_running | apply keepsMem_next | apply command_memWf
                               | apply cmdTenEnable_memWf | split | dsimp only [State.updLoft, Loft.setTag, Loft.clear, Loft.write]

theorem execTenGetStatus_loft (c : Call) (s : State) :
    keepsLoft s (execTenGetStatus c s) := by
  apply keepsLoft_running; simp

theorem execSvcGet_loft (c : Call) (s : State) :
    keepsLoft s (execSvcGet c s) := by
  apply keepsLoft_running; simp

theorem execTenFault_loft (c : Call) (s : State) :
    keepsLoft s (execTenFault c s) := by
  apply keepsLoft_running; simp

/-! ### Irq.lean -/

@[simp] theorem clearRaw_loft (t : Nat) (l : List Nat) (s : State) :
    (clearRaw t l s).loft = s.loft := by
  unfold clearRaw
  with_reducible repeat' first | rfl | intro _ | refine (foldl_loft ?_ _ _).trans ?_ | refine (State.updView_loft ..).trans ?_ | split | dsimp only

@[simp] theorem rawWrite_loft (t n : Nat) (v : BitVec 32) (raised : List (Fin 128)) (s : State) :
    (rawWrite t n v raised s).loft = s.loft := by
  unfold rawWrite
  with_reducible repeat' first | rfl | intro _ | refine (foldl_loft ?_ _ _).trans ?_ | refine (raiseSrc_loft ..).trans ?_
                               | refine (clearRaw_loft ..).trans ?_ | split | dsimp only

theorem execIrqRawClear_loft (t : Fin 8) (n : Fin 4) (value : BitVec 32) (raised : List (Fin 128)) (s : State) :
    keepsLoft s (execIrqRawClear t n value raised s) := by
  apply keepsLoft_running; simp

@[simp] theorem maskWrite_loft (t n : Nat) (v : BitVec 32) (s : State) :
    (maskWrite t n v s).loft = s.loft := by
  unfold maskWrite
  with_reducible repeat' first | rfl | intro _ | refine (foldl_loft ?_ _ _).trans ?_ | refine (State.updView_loft ..).trans ?_
                               | refine (goPending_loft ..).trans ?_ | split | dsimp only

theorem execIrqMaskWrite_loft (t : Fin 8) (n : Fin 4) (value : BitVec 32) (s : State) :
    keepsLoft s (execIrqMaskWrite t n value s) := by
  apply keepsLoft_running; simp

@[simp] theorem forceWrite_loft (t n : Nat) (v : BitVec 32) (s : State) :
    (forceWrite t n v s).loft = s.loft := by
  unfold forceWrite
  with_reducible repeat' first | rfl | intro _ | refine (foldl_loft ?_ _ _).trans ?_ | refine (raiseView_loft ..).trans ?_ | split | dsimp only

theorem execIrqForce_loft (t : Fin 8) (n : Fin 4) (value : BitVec 32) (s : State) :
    keepsLoft s (execIrqForce t n value s) := by
  apply keepsLoft_running; simp

@[simp] theorem vectorMask_loft (t v : Nat) (masked : Bool) (s : State) :
    (vectorMask t v masked s).loft = s.loft := by
  unfold vectorMask
  with_reducible repeat' first | rfl | intro _ | refine (State.updView_loft ..).trans ?_ | refine (State.emit_loft ..).trans ?_ | split | dsimp only

theorem execVectorUnmask_loft (t : Fin 8) (v : Fin 16) (s : State) :
    keepsLoft s (execVectorUnmask t v s) := by
  unfold execVectorUnmask
  with_reducible repeat' first | rfl | intro _ | apply keepsLoft_running | apply keepsLoft_next | refine (vectorMask_loft ..).trans ?_
                               | split | dsimp only

@[simp] theorem setRoute_loft (t k : Nat) (r : Route) (s : State) :
    (setRoute t k r s).loft = s.loft := by
  unfold setRoute
  with_reducible repeat' first | rfl | intro _ | refine (State.updView_loft ..).trans ?_ | refine (goPending_loft ..).trans ?_ | split | dsimp only

@[simp] theorem cmdIrqRouteSet_loft  (s : State) (t : Nat) (p : Bytes) :
    (Cmd.run cmdIrqRouteSet s t p).state.loft = s.loft := by
  unfold cmdIrqRouteSet
  with_reducible repeat' first | rfl | intro _ | refine (foldl_loft ?_ _ _).trans ?_ | refine (setRoute_loft ..).trans ?_ | split
                               | dsimp only [Reply.state_done, Reply.state_accept, Reply.state_silent]

@[simp] theorem cmdIrqRouteGet_loft  (s : State) (t : Nat) (p : Bytes) :
    (Cmd.run cmdIrqRouteGet s t p).state.loft = s.loft := by simp [cmdIrqRouteGet]

@[simp] theorem cmdIrqGetOwners_loft  (s : State) (t : Nat) (p : Bytes) :
    (Cmd.run cmdIrqGetOwners s t p).state.loft = s.loft := by simp [cmdIrqGetOwners]

theorem execIrqRouteSet_loft (c : Call) (s : State) :
    keepsLoft s (execIrqRouteSet c s) := by
  apply keepsLoft_running; simp

theorem execIrqRouteGet_loft (c : Call) (s : State) :
    keepsLoft s (execIrqRouteGet c s) := by
  apply keepsLoft_running; simp

theorem execIrqGetOwners_loft (c : Call) (s : State) :
    keepsLoft s (execIrqGetOwners c s) := by
  apply keepsLoft_running; simp

/-! ### LoftCmds.lean -/

theorem cmdLoftAlloc_memWf  (s : State) (t : Nat) (p : Bytes) (h_s : memWf s.loft.mem = true) :
    memWf (Cmd.run cmdLoftAlloc s t p).state.loft.mem = true := by
  unfold cmdLoftAlloc
  with_reducible repeat' first | assumption | intro _ | apply memWf_write | apply memWf_filter | rfl
                               | refine allocMany_memWf _ _ _ ?_ _ _ (by assumption) | split
                               | dsimp only [Reply.state_done, Reply.state_accept, Reply.state_silent, State.updLoft, Loft.setTag, Loft.clear, Loft.write, clearStorage]

@[simp] theorem abuse_loft (t h status : Nat) (s : State) :
    (abuse t h status s).loft = s.loft := by
  unfold abuse
  with_reducible repeat' first | rfl | intro _ | refine (State.updTen_loft ..).trans ?_ | refine (crumb_loft ..).trans ?_
                               | refine (faultTenant_loft ..).trans ?_ | split | dsimp only

theorem freeOne_memWf (t h : Nat) (s : State) (h_s : memWf s.loft.mem = true) :
    memWf (freeOne t h s).2.loft.mem = true := by
  unfold freeOne
  with_reducible repeat' first | assumption | intro _ | apply memWf_write | apply memWf_filter | rfl | apply freeYealm_memWf
                               | refine memWf_of (abuse_loft ..) ?_ | split
                               | dsimp only [State.updLoft, Loft.setTag, Loft.clear, Loft.write, clearStorage]

theorem freeList_memWf (t : Nat) (x0 : List Nat) (x1 : State) (h_x1 : memWf x1.loft.mem = true) :
    memWf (freeList t x0 x1).2.loft.mem = true := by
  induction x0 generalizing x1 with
  | nil => unfold freeList; assumption
  | cons hd tl ih =>
    unfold freeList
    with_reducible repeat' first | assumption | intro _ | apply memWf_write | apply memWf_filter | rfl | apply ih | apply freeOne_memWf
                                 | refine pair_memWf (by assumption) ?_ | refine triple_memWf (by assumption) ?_ | split
                                 | dsimp only [State.updLoft, Loft.setTag, Loft.clear, Loft.write, clearStorage]

theorem cmdLoftFree_memWf  (s : State) (t : Nat) (p : Bytes) (h_s : memWf s.loft.mem = true) :
    memWf (Cmd.run cmdLoftFree s t p).state.loft.mem = true := by
  unfold cmdLoftFree
  with_reducible repeat' first | assumption | intro _ | apply memWf_write | apply memWf_filter | rfl | apply freeList_memWf
                               | refine pair_memWf (by assumption) ?_ | refine triple_memWf (by assumption) ?_ | split
                               | dsimp only [Reply.state_done, Reply.state_accept, Reply.state_silent, State.updLoft, Loft.setTag, Loft.clear, Loft.write, clearStorage]

theorem openRing_memWf (n t : Nat) (p : Bytes) (s : State) (h_s : memWf s.loft.mem = true) :
    memWf (openRing n t p s).loft.mem = true := by
  unfold openRing
  with_reducible repeat' first | assumption | intro _ | apply memWf_write | apply memWf_filter | rfl
                               | refine memWf_of (State.updRing_loft ..) ?_ | split
                               | dsimp only [State.updLoft, Loft.setTag, Loft.clear, Loft.write, clearStorage]

theorem cmdRingOpen_memWf  (s : State) (t : Nat) (p : Bytes) (h_s : memWf s.loft.mem = true) :
    memWf (Cmd.run cmdRingOpen s t p).state.loft.mem = true := by
  unfold cmdRingOpen
  with_reducible repeat' first | assumption | intro _ | apply memWf_write | apply memWf_filter | rfl | apply openRing_memWf | split
                               | dsimp only [Reply.state_done, Reply.state_accept, Reply.state_silent, State.updLoft, Loft.setTag, Loft.clear, Loft.write, clearStorage]

@[simp] theorem cmdRingClose_loft  (s : State) (t : Nat) (p : Bytes) :
    (Cmd.run cmdRingClose s t p).state.loft = s.loft := by
  unfold cmdRingClose
  with_reducible repeat' first | rfl | intro _ | refine (State.updRing_loft ..).trans ?_ | refine (closeRing_loft ..).trans ?_ | split
                               | dsimp only [Reply.state_done, Reply.state_accept, Reply.state_silent]

@[simp] theorem cmdLoftQuotaSet_loft  (s : State) (t : Nat) (p : Bytes) :
    (Cmd.run cmdLoftQuotaSet s t p).state.loft = s.loft := by
  unfold cmdLoftQuotaSet
  with_reducible repeat' first | rfl | intro _ | refine (State.updTen_loft ..).trans ?_ | split
                               | dsimp only [Reply.state_done, Reply.state_accept, Reply.state_silent]

@[simp] theorem cmdLoftGetStatus_loft  (s : State) (t : Nat) (p : Bytes) :
    (Cmd.run cmdLoftGetStatus s t p).state.loft = s.loft := by simp [cmdLoftGetStatus]

theorem execLoftAlloc_memWf (c : Call) (s : State) (h_s : memWf s.loft.mem = true) :
    keepsMem (execLoftAlloc c s) := by
  unfold execLoftAlloc
  with_reducible repeat' first | assumption | intro _ | apply keepsMem_running | apply keepsMem_next | apply memWf_write
                               | apply memWf_filter | rfl | apply command_memWf | apply cmdLoftAlloc_memWf | split
                               | dsimp only [State.updLoft, Loft.setTag, Loft.clear, Loft.write, clearStorage]

theorem execLoftFree_memWf (c : Call) (s : State) (h_s : memWf s.loft.mem = true) :
    keepsMem (execLoftFree c s) := by
  unfold execLoftFree
  with_reducible repeat' first | assumption | intro _ | apply keepsMem_running | apply keepsMem_next | apply memWf_write
                               | apply memWf_filter | rfl | apply command_memWf | apply cmdLoftFree_memWf | split
                               | dsimp only [State.updLoft, Loft.setTag, Loft.clear, Loft.write, clearStorage]

theorem execRingOpen_memWf (c : Call) (s : State) (h_s : memWf s.loft.mem = true) :
    keepsMem (execRingOpen c s) := by
  unfold execRingOpen
  with_reducible repeat' first | assumption | intro _ | apply keepsMem_running | apply keepsMem_next | apply memWf_write
                               | apply memWf_filter | rfl | apply command_memWf | apply cmdRingOpen_memWf | split
                               | dsimp only [State.updLoft, Loft.setTag, Loft.clear, Loft.write, clearStorage]

theorem execRingClose_loft (c : Call) (s : State) :
    keepsLoft s (execRingClose c s) := by
  apply keepsLoft_running; simp

theorem execLoftQuotaSet_loft (c : Call) (s : State) :
    keepsLoft s (execLoftQuotaSet c s) := by
  apply keepsLoft_running; simp

theorem execLoftGetStatus_loft (c : Call) (s : State) :
    keepsLoft s (execLoftGetStatus c s) := by
  apply keepsLoft_running; simp

theorem execOverload_loft (t : Fin 8) (s : State) :
    keepsLoft s (execOverload t s) := by
  unfold execOverload
  with_reducible repeat' first | rfl | intro _ | apply keepsLoft_running | apply keepsLoft_next | refine (crumb_loft ..).trans ?_
                               | refine (State.updTen_loft ..).trans ?_ | split | dsimp only

theorem remapIndex_memWf (i : Nat) (s : State) (h_s : memWf s.loft.mem = true) :
    memWf (remapIndex i s).loft.mem = true := by
  unfold remapIndex
  with_reducible repeat' first | assumption | intro _ | apply memWf_write | apply memWf_filter | rfl | refine memWf_of (crumb_loft ..) ?_
                               | split | dsimp only [State.updLoft, Loft.setTag, Loft.clear, Loft.write, clearStorage]

theorem shrinkPool_memWf (i : Nat) (s : State) (h_s : memWf s.loft.mem = true) :
    memWf (shrinkPool i s).loft.mem = true := by
  unfold shrinkPool
  with_reducible repeat' first | assumption | intro _ | apply memWf_write | apply memWf_filter | rfl
                               | refine memWf_of (State.updTen_loft ..) ?_ | split
                               | dsimp only [State.updLoft, Loft.setTag, Loft.clear, Loft.write, clearStorage]

theorem execYealmRetired_memWf (yealm : Nat) (pass : Bool) (s : State) (h_s : memWf s.loft.mem = true) :
    keepsMem (execYealmRetired yealm pass s) := by
  unfold execYealmRetired
  with_reducible repeat' first | assumption | intro _ | apply keepsMem_running | apply keepsMem_next | apply memWf_write
                               | apply memWf_filter | rfl | apply shrinkPool_memWf | apply remapIndex_memWf | split
                               | dsimp only [State.updLoft, Loft.setTag, Loft.clear, Loft.write, clearStorage]

/-! ### Rings.lean -/

theorem dmaSubmit_memWf (n t : Nat) (d : Bytes) (s : State) (h_s : memWf s.loft.mem = true) :
    memWf (dmaSubmit n t d s).loft.mem = true := by
  unfold dmaSubmit
  with_reducible repeat' first | assumption | intro _ | apply memWf_write | apply memWf_filter | rfl | apply completeSub_memWf
                               | apply pin_memWf | refine memWf_of (State.emit_loft ..) ?_ | split
                               | dsimp only [State.updLoft, Loft.setTag, Loft.clear, Loft.write]

theorem runClass_memWf (n t : Nat) (d : Bytes) (s : State) (h_s : memWf s.loft.mem = true) :
    memWf (runClass n t d s).loft.mem = true := by
  unfold runClass
  with_reducible repeat' first | assumption | intro _ | apply memWf_write | apply memWf_filter | rfl | apply completeSub_memWf
                               | apply dmaSubmit_memWf | apply netSubmit_memWf | apply diskSubmit_memWf | apply copyRun_memWf | split
                               | dsimp only [State.updLoft, Loft.setTag, Loft.clear, Loft.write]

@[simp] theorem advanceHead_loft (n : Nat) (s : State) :
    (advanceHead n s).loft = s.loft := by
  unfold advanceHead
  with_reducible repeat' first | rfl | intro _ | refine (State.updRing_loft ..).trans ?_ | refine (raiseSrc_loft ..).trans ?_ | split | dsimp only

@[simp] theorem holdEntry_loft (n t cause : Nat) (d : Bytes) (s : State) :
    (holdEntry n t cause d s).loft = s.loft := by
  unfold holdEntry
  with_reducible repeat' first | rfl | intro _ | refine (stallRing_loft ..).trans ?_ | refine (State.updRing_loft ..).trans ?_
                               | refine (State.updTen_loft ..).trans ?_ | split | dsimp only

theorem consume_memWf (n : Nat) (ok : Nat → Bool) (s : State) (h_s : memWf s.loft.mem = true) :
    memWf (consume n ok s).loft.mem = true := by
  unfold consume
  with_reducible repeat' first | assumption | intro _ | apply memWf_write | apply memWf_filter | rfl
                               | refine memWf_of (holdEntry_loft ..) ?_ | apply runClass_memWf | refine memWf_of (advanceHead_loft ..) ?_
                               | split | dsimp only [State.updLoft, Loft.setTag, Loft.clear, Loft.write]

theorem execSubmitConsume_memWf (ring : Fin 32) (s : State) (h_s : memWf s.loft.mem = true) :
    keepsMem (execSubmitConsume ring s) := by
  unfold execSubmitConsume
  with_reducible repeat' first | assumption | intro _ | apply keepsMem_running | apply keepsMem_next | apply memWf_write
                               | apply memWf_filter | rfl | apply consume_memWf | split
                               | dsimp only [State.updLoft, Loft.setTag, Loft.clear, Loft.write]

theorem execSubmitNop_memWf (ring : Fin 32) (s : State) (h_s : memWf s.loft.mem = true) :
    keepsMem (execSubmitNop ring s) := by
  unfold execSubmitNop
  with_reducible repeat' first | assumption | intro _ | apply keepsMem_running | apply keepsMem_next | apply memWf_write
                               | apply memWf_filter | rfl | apply consume_memWf | split
                               | dsimp only [State.updLoft, Loft.setTag, Loft.clear, Loft.write]

theorem execLoftDmaIn_memWf (ring : Fin 32) (s : State) (h_s : memWf s.loft.mem = true) :
    keepsMem (execLoftDmaIn ring s) := by
  unfold execLoftDmaIn
  with_reducible repeat' first | assumption | intro _ | apply keepsMem_running | apply keepsMem_next | apply memWf_write
                               | apply memWf_filter | rfl | apply consume_memWf | split
                               | dsimp only [State.updLoft, Loft.setTag, Loft.clear, Loft.write]

theorem execLoftDmaOut_memWf (ring : Fin 32) (s : State) (h_s : memWf s.loft.mem = true) :
    keepsMem (execLoftDmaOut ring s) := by
  unfold execLoftDmaOut
  with_reducible repeat' first | assumption | intro _ | apply keepsMem_running | apply keepsMem_next | apply memWf_write
                               | apply memWf_filter | rfl | apply consume_memWf | split
                               | dsimp only [State.updLoft, Loft.setTag, Loft.clear, Loft.write]

theorem execNetSend_memWf (ring : Fin 32) (s : State) (h_s : memWf s.loft.mem = true) :
    keepsMem (execNetSend ring s) := by
  unfold execNetSend
  with_reducible repeat' first | assumption | intro _ | apply keepsMem_running | apply keepsMem_next | apply memWf_write
                               | apply memWf_filter | rfl | apply consume_memWf | split
                               | dsimp only [State.updLoft, Loft.setTag, Loft.clear, Loft.write]

theorem execDiskRead_memWf (ring : Fin 32) (s : State) (h_s : memWf s.loft.mem = true) :
    keepsMem (execDiskRead ring s) := by
  unfold execDiskRead
  with_reducible repeat' first | assumption | intro _ | apply keepsMem_running | apply keepsMem_next | apply memWf_write
                               | apply memWf_filter | rfl | apply consume_memWf | split
                               | dsimp only [State.updLoft, Loft.setTag, Loft.clear, Loft.write]

theorem execDiskWrite_memWf (ring : Fin 32) (s : State) (h_s : memWf s.loft.mem = true) :
    keepsMem (execDiskWrite ring s) := by
  unfold execDiskWrite
  with_reducible repeat' first | assumption | intro _ | apply keepsMem_running | apply keepsMem_next | apply memWf_write
                               | apply memWf_filter | rfl | apply consume_memWf | split
                               | dsimp only [State.updLoft, Loft.setTag, Loft.clear, Loft.write]

theorem execDiskStampRead_memWf (ring : Fin 32) (s : State) (h_s : memWf s.loft.mem = true) :
    keepsMem (execDiskStampRead ring s) := by
  unfold execDiskStampRead
  with_reducible repeat' first | assumption | intro _ | apply keepsMem_running | apply keepsMem_next | apply memWf_write
                               | apply memWf_filter | rfl | apply consume_memWf | split
                               | dsimp only [State.updLoft, Loft.setTag, Loft.clear, Loft.write]

theorem execCasCopy_memWf (ring : Fin 32) (s : State) (h_s : memWf s.loft.mem = true) :
    keepsMem (execCasCopy ring s) := by
  unfold execCasCopy
  with_reducible repeat' first | assumption | intro _ | apply keepsMem_running | apply keepsMem_next | apply memWf_write
                               | apply memWf_filter | rfl | apply consume_memWf | split
                               | dsimp only [State.updLoft, Loft.setTag, Loft.clear, Loft.write]

@[simp] theorem dmaFailed_loft (t : Nat) (s : State) :
    (dmaFailed t s).loft = s.loft := by
  unfold dmaFailed
  with_reducible repeat' first | rfl | intro _ | refine (State.updTen_loft ..).trans ?_ | refine (faultTenant_loft ..).trans ?_ | split | dsimp only

theorem endDma_memWf (x : Sub) (result : Nat) (data : Bytes) (s : State) (h_s : memWf s.loft.mem = true) :
    memWf (endDma x result data s).loft.mem = true := by
  unfold endDma
  with_reducible repeat' first | assumption | intro _ | apply memWf_write | apply memWf_filter | rfl | apply unpin_memWf
                               | apply loftWrite_memWf | apply completeSub_memWf | refine memWf_of (State.drawn_loft ..) ?_
                               | refine memWf_of (dmaFailed_loft ..) ?_ | split | dsimp only [State.updLoft, Loft.setTag, Loft.clear, Loft.write]

theorem execDmaCompletion_memWf (index : Nat) (result : Fin 4) (data : List (BitVec 8)) (s : State) (h_s : memWf s.loft.mem = true) :
    keepsMem (execDmaCompletion index result data s) := by
  unfold execDmaCompletion
  with_reducible repeat' first | assumption | intro _ | apply keepsMem_running | apply keepsMem_next | apply memWf_write
                               | apply memWf_filter | rfl | apply endDma_memWf | split
                               | dsimp only [State.updLoft, Loft.setTag, Loft.clear, Loft.write]

theorem execRingAttention_loft (ring : Fin 32) (waitedUs : Nat) (s : State) :
    keepsLoft s (execRingAttention ring waitedUs s) := by
  unfold execRingAttention
  with_reducible repeat' first | rfl | intro _ | apply keepsLoft_running | apply keepsLoft_next | refine (raiseSrc_loft ..).trans ?_
                               | split | dsimp only

@[simp] theorem ringWrite_loft (t n : Nat) (f : Ring → Ring) (s : State) :
    (ringWrite t n f s).loft = s.loft := by
  unfold ringWrite
  with_reducible repeat' first | rfl | intro _ | refine (State.updTen_loft ..).trans ?_ | refine (State.updRing_loft ..).trans ?_ | split | dsimp only

theorem execRingTailWrite_loft (t : Fin 8) (ring : Fin 32) (value : BitVec 32) (s : State) :
    keepsLoft s (execRingTailWrite t ring value s) := by
  apply keepsLoft_running; simp

theorem execRingHeadWrite_loft (t : Fin 8) (ring : Fin 32) (value : BitVec 32) (s : State) :
    keepsLoft s (execRingHeadWrite t ring value s) := by
  apply keepsLoft_running; simp

/-! ### Window.lean -/

@[simp] theorem regReadEffect_loft (t o : Nat) (s : State) :
    (regReadEffect t o s).loft = s.loft := by
  unfold regReadEffect
  with_reducible repeat' first | rfl | intro _ | refine (data15Read_loft ..).trans ?_ | split | dsimp only

@[simp] theorem reqWrite_loft (t o v : Nat) (s : State) :
    (reqWrite t o v s).loft = s.loft := by
  unfold reqWrite
  with_reducible repeat' first | rfl | intro _ | refine (State.updTen_loft ..).trans ?_ | split | dsimp only

@[simp] theorem mbStatusWrite_loft (t : Nat) (v : BitVec 32) (s : State) :
    (mbStatusWrite t v s).loft = s.loft := by
  unfold mbStatusWrite
  with_reducible repeat' first | rfl | intro _ | refine (State.updTen_loft ..).trans ?_ | split | dsimp only

@[simp] theorem ringRegWrite_loft (t n o : Nat) (v : BitVec 32) (s : State) :
    (ringRegWrite t n o v s).loft = s.loft := by simp [ringRegWrite]

@[simp] theorem irqRegWrite_loft (t o : Nat) (v : BitVec 32) (s : State) :
    (irqRegWrite t o v s).loft = s.loft := by
  unfold irqRegWrite
  with_reducible repeat' first | rfl | intro _ | refine (rawWrite_loft ..).trans ?_ | refine (maskWrite_loft ..).trans ?_
                               | refine (forceWrite_loft ..).trans ?_ | split | dsimp only

@[simp] theorem timeRegWrite_loft (t o : Nat) (v : BitVec 32) (s : State) :
    (timeRegWrite t o v s).loft = s.loft := by
  unfold timeRegWrite
  with_reducible repeat' first | rfl | intro _ | refine (latchTime_loft ..).trans ?_ | refine (State.updTb_loft ..).trans ?_ | split | dsimp only

@[simp] theorem brcRegWrite_loft (t o : Nat) (v : BitVec 32) (s : State) :
    (brcRegWrite t o v s).loft = s.loft := by
  unfold brcRegWrite
  with_reducible repeat' first | rfl | intro _ | refine (State.updRec_loft ..).trans ?_ | refine (writeSeqLo_loft ..).trans ?_ | split | dsimp only

@[simp] theorem msixWrite_loft (t o : Nat) (v : BitVec 32) (s : State) :
    (msixWrite t o v s).loft = s.loft := by
  unfold msixWrite
  with_reducible repeat' first | rfl | intro _ | refine (State.updView_loft ..).trans ?_ | refine (vectorMask_loft ..).trans ?_ | split | dsimp only

theorem regWrite_memWf (t o : Nat) (v : BitVec 32) (s : State) (h_s : memWf s.loft.mem = true) :
    memWf (regWrite t o v s).loft.mem = true := by
  unfold regWrite
  with_reducible repeat' first | assumption | intro _ | refine memWf_of (reqWrite_loft ..) ?_ | refine memWf_of (mbStatusWrite_loft ..) ?_
                               | apply tenResetWrite_memWf | refine memWf_of (ringRegWrite_loft ..) ?_
                               | refine memWf_of (irqRegWrite_loft ..) ?_ | refine memWf_of (timeRegWrite_loft ..) ?_
                               | refine memWf_of (brcRegWrite_loft ..) ?_ | refine memWf_of (msixWrite_loft ..) ?_ | split
                               | dsimp only [State.updLoft, Loft.setTag, Loft.clear, Loft.write]

@[simp] theorem foreignAccess_loft (t : Nat) (s : State) :
    (foreignAccess t s).loft = s.loft := by simp [foreignAccess]

theorem reserveError_memWf (i g : Nat) (s : State) (h_s : memWf s.loft.mem = true) :
    memWf (reserveError i g s).loft.mem = true := by
  unfold reserveError
  with_reducible repeat' first | assumption | intro _ | apply enterSafe_memWf | refine memWf_of (crumb_loft ..) ?_ | split
                               | dsimp only [State.updLoft, Loft.setTag, Loft.clear, Loft.write]

theorem memoryError_memWf (i g : Nat) (double : Bool) (s : State) (h_s : memWf s.loft.mem = true) :
    memWf (memoryError i g double s).loft.mem = true := by
  unfold memoryError
  with_reducible repeat' first | assumption | intro _ | apply reserveError_memWf | refine memWf_of (crumb_loft ..) ?_
                               | refine memWf_of (State.updTen_loft ..) ?_ | split | dsimp only [State.updLoft, Loft.setTag, Loft.clear, Loft.write]

theorem execPatrolScrub_memWf (yealm : Nat) (granule : Fin 64) (double : Bool) (s : State) (h_s : memWf s.loft.mem = true) :
    keepsMem (execPatrolScrub yealm granule double s) := by
  unfold execPatrolScrub
  with_reducible repeat' first | assumption | intro _ | apply keepsMem_running | apply keepsMem_next | apply memoryError_memWf | split
                               | dsimp only [State.updLoft, Loft.setTag, Loft.clear, Loft.write]

theorem execApertureRead_memWf (t : Fin 8) (off len : Nat) (ecc : Option Bool) (s : State) (h_s : memWf s.loft.mem = true) :
    keepsMem (execApertureRead t off len ecc s) := by
  unfold execApertureRead
  with_reducible repeat' first | assumption | intro _ | refine foldl_memWf ?_ _ _ ?_ | apply keepsMem_running | apply keepsMem_next
                               | apply memoryError_memWf | refine memWf_of (foreignAccess_loft ..) ?_
                               | refine memWf_of (State.emit_loft ..) ?_ | split | dsimp only [State.updLoft, Loft.setTag, Loft.clear, Loft.write]

theorem apertureWrite_memWf (t off : Nat) (data : Bytes) (s : State) (h_s : memWf s.loft.mem = true) :
    memWf (apertureWrite t off data s).loft.mem = true := by
  unfold apertureWrite
  with_reducible repeat' first | assumption | intro _ | refine foldl_memWf ?_ _ _ ?_ | apply loftWrite_memWf
                               | refine memWf_of (foreignAccess_loft ..) ?_ | split | dsimp only [State.updLoft, Loft.setTag, Loft.clear, Loft.write]

theorem execApertureWrite_memWf (t : Fin 8) (off : Nat) (data : Bytes) (s : State) (h_s : memWf s.loft.mem = true) :
    keepsMem (execApertureWrite t off data s) := by
  unfold execApertureWrite
  with_reducible repeat' first | assumption | intro _ | apply keepsMem_running | apply keepsMem_next | apply apertureWrite_memWf | split
                               | dsimp only [State.updLoft, Loft.setTag, Loft.clear, Loft.write]

@[simp] theorem spi_loft (out : State → Bytes) (malformed : Bool) (f : State → State) (s : State) (h_f : ∀ y0, (f y0).loft = y0.loft) :
    (spi out malformed f s).loft = s.loft := by
  unfold spi
  with_reducible repeat' first | rfl | intro _ | refine (h_f ..).trans ?_ | refine (State.emit_loft ..).trans ?_ | split | dsimp only

theorem spi_memWf (out : State → Bytes) (malformed : Bool) (f : State → State) (s : State) (h_s : memWf s.loft.mem = true)
        (h_f : ∀ y0, memWf y0.loft.mem = true → memWf (f y0).loft.mem = true) :
    memWf (spi out malformed f s).loft.mem = true := by
  unfold spi
  with_reducible repeat' first | assumption | intro _ | apply h_f | refine memWf_of (State.emit_loft ..) ?_ | split
                               | dsimp only [State.updLoft, Loft.setTag, Loft.clear, Loft.write]

theorem execStatus_loft (cmd : BitVec 8) (s : State) :
    keepsLoft s (execStatus cmd s) := by
  apply keepsLoft_running; simp

theorem execRegRead_loft (addr len : Nat) (s : State) :
    keepsLoft s (execRegRead addr len s) := by
  unfold execRegRead
  with_reducible repeat' first | rfl | intro _ | refine (foldl_loft ?_ _ _).trans ?_ | apply keepsLoft_running | apply keepsLoft_next
                               | refine (spi_loft _ _ _ _ ?_).trans ?_ | refine (regReadEffect_loft ..).trans ?_ | split | dsimp only

theorem execLoftWrite_memWf (handle : BitVec 32) (off : Nat) (data : Bytes) (s : State) (h_s : memWf s.loft.mem = true) :
    keepsMem (execLoftWrite handle off data s) := by
  unfold execLoftWrite
  with_reducible repeat' first | assumption | intro _ | apply keepsMem_running | apply keepsMem_next | apply spi_memWf
                               | apply loftWrite_memWf | refine memWf_of (foreignAccess_loft ..) ?_ | split
                               | dsimp only [State.updLoft, Loft.setTag, Loft.clear, Loft.write]

theorem execLoftRead_loft (handle : BitVec 32) (off len : Nat) (s : State) :
    keepsLoft s (execLoftRead handle off len s) := by
  unfold execLoftRead
  with_reducible repeat' first | rfl | intro _ | apply keepsLoft_running | apply keepsLoft_next | refine (spi_loft _ _ _ _ ?_).trans ?_
                               | refine (foreignAccess_loft ..).trans ?_ | split | dsimp only

end Sys2Proof.Machine
end

