-- ==== Sys2Proof/Laws/LoftRows.lean ====
section
/-!
SUPPORT. The Loft through mirrors, supply, mailbox, TAP and the tick: for each function that leaves the Loft alone, that it does (`_loft`); for each that
may write it, that its memory keeps the canonical form (`_memWf`).
-/
namespace Sys2Proof.Machine
open Sys2Proof
set_option linter.all false

/-! ### Mirror.lean -/

@[simp] theorem mirrorResult_loft (g pos result : Nat) (s : State) :
    (mirrorResult g pos result s).loft = s.loft := by
  unfold mirrorResult
  with_reducible repeat' first | rfl | intro _ | refine (State.updCas_loft ..).trans ?_ | refine (dropClosed_loft ..).trans ?_
                               | refine (mirrorDone_loft ..).trans ?_ | refine (recLost_loft ..).trans ?_ | split | dsimp only

theorem execMirrorAck_loft (rx : LaneRx) (s : State) :
    keepsLoft s (execMirrorAck rx s) := by
  apply keepsLoft_running; simp

@[simp] theorem State_updMirror_loft (s : State) (o : Nat) (f : MirrorIn → MirrorIn) :
    (State.updMirror s o f).loft = s.loft := by simp [State.updMirror]

@[simp] theorem mirrorSegment_loft (n o start : Nat) (s : State) :
    (mirrorSegment n o start s).2.loft = s.loft := by
  unfold mirrorSegment
  with_reducible repeat' first | rfl | intro _ | refine (State.updDsk_loft ..).trans ?_ | split | dsimp only

@[simp] theorem mirrorQueue_loft (o g : Nat) (f : List Nat) (d : Bytes) (late : Bool) (s : State) :
    (mirrorQueue o g f d late s).loft = s.loft := by simp [mirrorQueue]

@[simp] theorem mirrorDrain_loft (o : Nat) (x0 : Nat) (x1 : State) :
    (mirrorDrain o x0 x1).loft = x1.loft := by
  induction x0 generalizing x1 with
  | zero => rfl
  | succ n ih =>
    unfold mirrorDrain
    with_reducible repeat' first | rfl | intro _ | refine (ih _).trans ?_ | refine (mirrorQueue_loft ..).trans ?_ | split | dsimp only

@[simp] theorem mirrorAnswer_loft (o g result : Nat) (s : State) :
    (mirrorAnswer o g result s).loft = s.loft := by simp [mirrorAnswer]

theorem onMirror_memWf (o : Nat) (p : Bytes) (s : State) (h_s : memWf s.loft.mem = true) :
    memWf (onMirror o p s).loft.mem = true := by
  unfold onMirror
  with_reducible repeat' first | assumption | intro _ | refine memWf_of (State_updMirror_loft ..) ?_
                               | refine memWf_of (mirrorAnswer_loft ..) ?_ | refine memWf_of (State.updTen_loft ..) ?_
                               | refine memWf_of (mirrorDrain_loft ..) ?_ | refine allocOne_memWf _ _ ?_ _ _ (by assumption) | split | dsimp only

theorem execMirror_memWf (rx : LaneRx) (s : State) (h_s : memWf s.loft.mem = true) :
    keepsMem (execMirror rx s) := by
  unfold execMirror
  with_reducible repeat' first | assumption | intro _ | apply keepsMem_running | apply keepsMem_next | apply laneRow_memWf
                               | apply onMirror_memWf | split | dsimp only

theorem execMirrorPredecessorTimeout_loft (origin : Fin 8) (waitedUs : Nat) (s : State) :
    keepsLoft s (execMirrorPredecessorTimeout origin waitedUs s) := by
  unfold execMirrorPredecessorTimeout
  with_reducible repeat' first | rfl | intro _ | apply keepsLoft_running | apply keepsLoft_next | refine (mirrorDrain_loft ..).trans ?_
                               | refine (mirrorQueue_loft ..).trans ?_ | split | dsimp only

theorem execMirrorSegmentCut_loft (origin : Fin 8) (silentMs : Nat) (s : State) :
    keepsLoft s (execMirrorSegmentCut origin silentMs s) := by
  unfold execMirrorSegmentCut
  with_reducible repeat' first | rfl | intro _ | refine (foldl_loft ?_ _ _).trans ?_ | apply keepsLoft_running | apply keepsLoft_next
                               | refine (State.updDsk_loft ..).trans ?_ | refine (closeSeg_loft ..).trans ?_ | split | dsimp only

theorem releaseFrame_memWf (f : LaneFrame) (s : State) (h_s : memWf s.loft.mem = true) :
    memWf (releaseFrame f s).loft.mem = true := by
  unfold releaseFrame
  with_reducible repeat' first | assumption | intro _ | apply copyDone_memWf | refine memWf_of (mirrorResult_loft ..) ?_ | split | dsimp only

@[simp] theorem unforward_loft (f : LaneFrame) (s : State) :
    (unforward f s).loft = s.loft := by
  unfold unforward
  with_reducible repeat' first | rfl | intro _ | refine (State.updCas_loft ..).trans ?_ | split | dsimp only

theorem execLinkDownRelease_memWf (lane : Fin 2) (downMs : Nat) (s : State) (h_s : memWf s.loft.mem = true) :
    keepsMem (execLinkDownRelease lane downMs s) := by
  unfold execLinkDownRelease
  with_reducible repeat' first | assumption | intro _ | refine foldl_memWf ?_ _ _ ?_ | apply keepsMem_running | apply keepsMem_next
                               | refine memWf_of (State.updLane_loft ..) ?_ | refine memWf_of (unforward_loft ..) ?_
                               | apply releaseFrame_memWf | split | dsimp only

/-! ### Supply.lean -/

@[simp] theorem pfailSegments_loft (s : State) :
    (pfailSegments s).loft = s.loft := by
  unfold pfailSegments
  with_reducible repeat' first | rfl | intro _ | refine (foldl_loft ?_ _ _).trans ?_ | refine (closeSeg_loft ..).trans ?_ | split | dsimp only

theorem pfailChannel_memWf (s : State) (n : Nat) (h_s : memWf s.loft.mem = true) :
    memWf (pfailChannel s n).loft.mem = true := by
  unfold pfailChannel
  with_reducible repeat' first | assumption | intro _ | refine foldl_memWf ?_ _ _ ?_ | refine memWf_of (recCount_loft ..) ?_
                               | refine memWf_of (recWriteOver_loft ..) ?_ | apply freeYealm_memWf
                               | refine memWf_of (State_updRecChan_loft ..) ?_ | split | dsimp only

theorem pfailRecording_memWf (s : State) (h_s : memWf s.loft.mem = true) :
    memWf (pfailRecording s).loft.mem = true := by
  unfold pfailRecording
  with_reducible repeat' first | assumption | intro _ | refine foldl_memWf ?_ _ _ ?_ | apply pfailChannel_memWf
                               | refine memWf_of (State.updCas_loft ..) ?_ | split | dsimp only

theorem pfailMotorA_memWf (s : State) (h_s : memWf s.loft.mem = true) :
    memWf (pfailMotorA s).loft.mem = true := by
  unfold pfailMotorA
  with_reducible repeat' first | assumption | intro _ | refine memWf_of (spinTo_loft ..) ?_ | apply finishStart_memWf
                               | refine memWf_of (State.updA_loft ..) ?_ | apply stoppedA_memWf | refine memWf_of (driveStep_loft ..) ?_
                               | split | dsimp only

@[simp] theorem pfailMotorB_loft (s : State) :
    (pfailMotorB s).loft = s.loft := by simp [pfailMotorB]

theorem pfailOtp_memWf (s : State) (h_s : memWf s.loft.mem = true) :
    memWf (pfailOtp s).loft.mem = true := by
  unfold pfailOtp
  with_reducible repeat' first | assumption | intro _ | refine memWf_of (burnAll_loft ..) ?_ | refine memWf_of (burnRows_loft ..) ?_
                               | refine memWf_of (State.updBoot_loft ..) ?_ | apply finish_memWf | refine memWf_of (crumb_loft ..) ?_
                               | refine memWf_of (State.drawn_loft ..) ?_ | split | dsimp only

@[simp] theorem pfailCommands_loft (s : State) :
    (pfailCommands s).loft = s.loft := by
  unfold pfailCommands
  with_reducible repeat' first | rfl | intro _ | refine (foldl_loft ?_ _ _).trans ?_ | refine (keyEnd_loft ..).trans ?_
                               | refine (State.updDsk_loft ..).trans ?_ | split | dsimp only

theorem pfailKeys_memWf (s : State) (h_s : memWf s.loft.mem = true) :
    memWf (pfailKeys s).loft.mem = true := by
  unfold pfailKeys
  with_reducible repeat' first | assumption | intro _ | refine foldl_memWf ?_ _ _ ?_ | apply zeroiseRetiring_memWf | split | dsimp only

theorem pfailChange_memWf (s : State) (h_s : memWf s.loft.mem = true) :
    memWf (pfailChange s).loft.mem = true := by
  unfold pfailChange
  with_reducible repeat' first | assumption | intro _ | refine memWf_of (clearSafe_loft ..) ?_ | refine memWf_of (State.updSup_loft ..) ?_
                               | refine memWf_of (setMode_loft ..) ?_ | apply safeEntry_memWf | apply finishMode_memWf
                               | apply abandonChange_memWf | split | dsimp only

theorem stopPort_memWf (s : State) (p : Nat) (h_s : memWf s.loft.mem = true) :
    memWf (stopPort s p).loft.mem = true := by
  unfold stopPort
  with_reducible repeat' first | assumption | intro _ | refine memWf_of (portIsland_loft ..) ?_ | apply portLinkDown_memWf | split | dsimp only

theorem lanesDown_memWf (s : State) (h_s : memWf s.loft.mem = true) :
    memWf (lanesDown s).loft.mem = true := by
  unfold lanesDown
  with_reducible repeat' first | assumption | intro _ | apply linkDown_memWf | split | dsimp only

theorem holdUpIslands_memWf (s : State) (h_s : memWf s.loft.mem = true) :
    memWf (holdUpIslands s).loft.mem = true := by
  unfold holdUpIslands
  with_reducible repeat' first | assumption | intro _ | refine foldl_memWf ?_ _ _ ?_ | refine memWf_of (State.updSup_loft ..) ?_
                               | apply lanesDown_memWf | apply stopPort_memWf | refine memWf_of (stopRadio_loft ..) ?_
                               | refine memWf_of (sparStop_loft ..) ?_ | refine memWf_of (calStop_loft ..) ?_
                               | refine memWf_of (closeGates_loft ..) ?_ | refine memWf_of (State.updIsl_loft ..) ?_ | split | dsimp only

theorem holdUpEnd_memWf (s : State) (h_s : memWf s.loft.mem = true) :
    memWf (holdUpEnd s).loft.mem = true := by
  unfold holdUpEnd
  with_reducible repeat' first | assumption | intro _ | refine memWf_of (calStop_loft ..) ?_ | refine memWf_of (State.updSup_loft ..) ?_
                               | refine memWf_of (emergencyBrake_loft ..) ?_ | apply writeHeldBack_memWf | split | dsimp only

@[simp] theorem restoreIslands_loft (s : State) :
    (restoreIslands s).loft = s.loft := by
  unfold restoreIslands
  with_reducible repeat' first | rfl | intro _ | refine (State.updSup_loft ..).trans ?_ | refine (sparResume_loft ..).trans ?_ | split | dsimp only

@[simp] theorem latchPfail_loft (vin : Nat) (s : State) :
    (latchPfail vin s).loft = s.loft := by simp [latchPfail]

theorem pfailHardware_memWf (s : State) (h_s : memWf s.loft.mem = true) :
    memWf (pfailHardware s).loft.mem = true := by
  unfold pfailHardware
  with_reducible repeat' first | assumption | intro _ | refine memWf_of (pfailMotorB_loft ..) ?_ | apply pfailMotorA_memWf
                               | refine memWf_of (hardMute_loft ..) ?_ | refine memWf_of (closeGates_loft ..) ?_
                               | refine memWf_of (State.updChn_loft ..) ?_ | split | dsimp only

theorem holdUpWork_memWf (vin : Nat) (s : State) (h_s : memWf s.loft.mem = true) :
    memWf (holdUpWork vin s).loft.mem = true := by
  unfold holdUpWork
  with_reducible repeat' first | assumption | intro _ | apply pfailHardware_memWf | refine memWf_of (latchPfail_loft ..) ?_
                               | refine memWf_of (State.updSup_loft ..) ?_ | apply pfailOtp_memWf | apply startUnload_memWf
                               | refine memWf_of (pfailSegments_loft ..) ?_ | refine memWf_of (raiseCrumb_loft ..) ?_
                               | refine memWf_of (flushStaging_loft ..) ?_ | apply radioLeaveRun_memWf | apply pfailRecording_memWf
                               | apply pfailChange_memWf | apply pfailKeys_memWf | refine memWf_of (pfailCommands_loft ..) ?_
                               | apply holdUpIslands_memWf | apply holdUpEnd_memWf | split | dsimp only

theorem execPfail_memWf (vin forUs : Nat) (s : State) (h_s : memWf s.loft.mem = true) :
    keepsMem (execPfail vin forUs s) := by
  unfold execPfail
  with_reducible repeat' first | assumption | intro _ | apply keepsMem_running | apply keepsMem_next | apply holdUpWork_memWf
                               | apply pfailOtp_memWf | refine memWf_of (latchPfail_loft ..) ?_
                               | refine memWf_of (State.updBoot_loft ..) ?_ | split | dsimp only

theorem pfailOver_memWf (s : State) (h_s : memWf s.loft.mem = true) :
    memWf (pfailOver s).loft.mem = true := by
  unfold pfailOver
  with_reducible repeat' first | assumption | intro _ | refine memWf_of (restoreIslands_loft ..) ?_
                               | refine memWf_of (State.updSup_loft ..) ?_ | apply endAll_memWf | refine memWf_of (crumb_loft ..) ?_
                               | refine memWf_of (radioEnterRun_loft ..) ?_ | refine memWf_of (autoStart_loft ..) ?_
                               | refine memWf_of (retargetB_loft ..) ?_ | refine memWf_of (takeForce_loft ..) ?_ | split | dsimp only

theorem execPfailCleared_memWf (vin forMs : Nat) (s : State) (h_s : memWf s.loft.mem = true) :
    keepsMem (execPfailCleared vin forMs s) := by
  unfold execPfailCleared
  with_reducible repeat' first | assumption | intro _ | apply keepsMem_running | apply keepsMem_next
                               | refine memWf_of (State.updSup_loft ..) ?_ | apply pfailOver_memWf | apply startReset_memWf | split | dsimp only

theorem shelfFinish_memWf (s : State) (h_s : memWf s.loft.mem = true) :
    memWf (shelfFinish s).loft.mem = true := by
  unfold shelfFinish
  with_reducible repeat' first | assumption | intro _ | apply powerOff_memWf | apply zeroiseAll_memWf
                               | refine memWf_of (flushStaging_loft ..) ?_ | refine memWf_of (modeChanged_loft ..) ?_
                               | apply startReset_memWf | split | dsimp only

theorem startShelf_memWf (s : State) (h_s : memWf s.loft.mem = true) :
    memWf (startShelf s).loft.mem = true := by
  unfold startShelf
  with_reducible repeat' first | assumption | intro _ | refine memWf_of (State.updSup_loft ..) ?_ | apply shelfFinish_memWf
                               | refine memWf_of (retargetB_loft ..) ?_ | apply leaveRun_memWf | split | dsimp only

theorem execShelfStopTimeout_memWf (forS : Nat) (s : State) (h_s : memWf s.loft.mem = true) :
    keepsMem (execShelfStopTimeout forS s) := by
  unfold execShelfStopTimeout
  with_reducible repeat' first | assumption | intro _ | apply keepsMem_running | apply keepsMem_next | apply shelfFinish_memWf
                               | apply emergencyStop_memWf | split | dsimp only

theorem execBrakeEnd_memWf (b : Bool) (ms : Nat) (s : State) (h_s : memWf s.loft.mem = true) :
    keepsMem (execBrakeEnd b ms s) := by
  unfold execBrakeEnd
  with_reducible repeat' first | assumption | intro _ | apply keepsMem_running | apply keepsMem_next | apply shelfFinish_memWf
                               | apply brakeEnd_memWf | refine memWf_of (autoStart_loft ..) ?_ | refine memWf_of (State.updA_loft ..) ?_
                               | split | dsimp only

theorem tripOff_memWf (s : State) (h_s : memWf s.loft.mem = true) :
    memWf (tripOff s).loft.mem = true := by
  unfold tripOff
  with_reducible repeat' first | assumption | intro _ | refine memWf_of (emergencyBrake_loft ..) ?_ | apply powerOff_memWf | split | dsimp only

theorem execHeadsParked_memWf (s : State) (h_s : memWf s.loft.mem = true) :
    keepsMem (execHeadsParked s) := by
  unfold execHeadsParked
  with_reducible repeat' first | assumption | intro _ | apply keepsMem_running | apply keepsMem_next | apply headsParked_memWf
                               | apply holdUpEnd_memWf | apply tripOff_memWf | apply shelfFinish_memWf | split | dsimp only

theorem trip_memWf (tj : Int) (s : State) (h_s : memWf s.loft.mem = true) :
    memWf (trip tj s).loft.mem = true := by
  unfold trip
  with_reducible repeat' first | assumption | intro _ | refine memWf_of (hardMute_loft ..) ?_ | refine memWf_of (closeGates_loft ..) ?_
                               | refine memWf_of (State.updSup_loft ..) ?_ | apply startUnload_memWf
                               | refine memWf_of (flushStaging_loft ..) ?_ | refine memWf_of (crumb_loft ..) ?_ | apply tripOff_memWf
                               | split | dsimp only

theorem execThermTrip_memWf (tj : Int) (forUs : Nat) (s : State) (h_s : memWf s.loft.mem = true) :
    keepsMem (execThermTrip tj forUs s) := by
  unfold execThermTrip
  with_reducible repeat' first | assumption | intro _ | apply keepsMem_running | apply keepsMem_next | apply trip_memWf | split | dsimp only

theorem execThermWarn_loft (tj : Int) (n : Nat) (s : State) :
    keepsLoft s (execThermWarn tj n s) := by
  unfold execThermWarn
  with_reducible repeat' first | rfl | intro _ | apply keepsLoft_running | apply keepsLoft_next | refine (State.updSup_loft ..).trans ?_
                               | refine (raiseCrumb_loft ..).trans ?_ | refine (syncSteps_loft ..).trans ?_
                               | refine (State.updRad_loft ..).trans ?_ | split | dsimp only

theorem execThermWarnClear_loft (tj : Int) (forS : Nat) (s : State) :
    keepsLoft s (execThermWarnClear tj forS s) := by
  unfold execThermWarnClear
  with_reducible repeat' first | rfl | intro _ | apply keepsLoft_running | apply keepsLoft_next | refine (State.updSup_loft ..).trans ?_
                               | refine (clearSafe_loft ..).trans ?_ | refine (syncSteps_loft ..).trans ?_
                               | refine (State.updRad_loft ..).trans ?_ | split | dsimp only

theorem execThermCrit_memWf (tj : Int) (n : Nat) (s : State) (h_s : memWf s.loft.mem = true) :
    keepsMem (execThermCrit tj n s) := by
  unfold execThermCrit
  with_reducible repeat' first | assumption | intro _ | apply keepsMem_running | apply keepsMem_next
                               | refine memWf_of (State.updSup_loft ..) ?_ | apply enterSafe_memWf
                               | refine memWf_of (raiseCrumb_loft ..) ?_ | split | dsimp only

theorem railReset_memWf (s : State) (h_s : memWf s.loft.mem = true) :
    memWf (railReset s).loft.mem = true := by
  unfold railReset
  with_reducible repeat' first | assumption | intro _ | refine memWf_of (State.updSup_loft ..) ?_ | apply guardRetract_memWf
                               | apply pfailMotorA_memWf | apply startReset_memWf | split | dsimp only

theorem railSafe_memWf (rail : Nat) (s : State) (h_s : memWf s.loft.mem = true) :
    memWf (railSafe rail s).loft.mem = true := by
  unfold railSafe
  with_reducible repeat' first | assumption | intro _ | refine memWf_of (raiseCrumb_loft ..) ?_ | refine memWf_of (driveStep_loft ..) ?_
                               | apply faultA_memWf | apply enterSafe_memWf | split | dsimp only

theorem execRailFault_memWf (rail : Fin 9) (forUs : Nat) (s : State) (h_s : memWf s.loft.mem = true) :
    keepsMem (execRailFault rail forUs s) := by
  unfold execRailFault
  with_reducible repeat' first | assumption | intro _ | apply keepsMem_running | apply keepsMem_next
                               | refine memWf_of (State.updSup_loft ..) ?_ | apply railReset_memWf | apply railSafe_memWf | split | dsimp only

theorem execRailRecovered_loft (rail : Fin 9) (forMs : Nat) (s : State) :
    keepsLoft s (execRailRecovered rail forMs s) := by
  unfold execRailRecovered
  with_reducible repeat' first | rfl | intro _ | apply keepsLoft_running | apply keepsLoft_next | refine (State.updSup_loft ..).trans ?_
                               | refine (clearSafe_loft ..).trans ?_ | split | dsimp only

@[simp] theorem updVaux_loft (five : Bool) (f : Vaux → Vaux) (s : State) :
    (updVaux five f s).loft = s.loft := by simp [updVaux]

theorem vauxFault_memWf (five : Bool) (ma : Nat) (s : State) (h_s : memWf s.loft.mem = true) :
    memWf (vauxFault five ma s).loft.mem = true := by
  unfold vauxFault
  with_reducible repeat' first | assumption | intro _ | refine memWf_of (raiseCrumb_loft ..) ?_ | refine memWf_of (updVaux_loft ..) ?_
                               | apply channelFault_memWf | refine memWf_of (State.updChn_loft ..) ?_ | split | dsimp only

theorem execVauxFault_memWf (five : Bool) (ma forMs : Nat) (s : State) (h_s : memWf s.loft.mem = true) :
    keepsMem (execVauxFault five ma forMs s) := by
  unfold execVauxFault
  with_reducible repeat' first | assumption | intro _ | apply keepsMem_running | apply keepsMem_next | apply vauxFault_memWf | split | dsimp only

theorem execVauxRetry_loft (five : Bool) (ms : Nat) (s : State) :
    keepsLoft s (execVauxRetry five ms s) := by
  unfold execVauxRetry
  with_reducible repeat' first | rfl | intro _ | apply keepsLoft_running | apply keepsLoft_next | refine (updVaux_loft ..).trans ?_ | split
                               | dsimp only

theorem clockLost_memWf (s : State) (h_s : memWf s.loft.mem = true) :
    memWf (clockLost s).loft.mem = true := by
  unfold clockLost
  with_reducible repeat' first | assumption | intro _ | refine foldl_memWf ?_ _ _ ?_ | refine memWf_of (State.updSup_loft ..) ?_
                               | apply lanesDown_memWf | apply portLinkDown_memWf | refine memWf_of (sparStop_loft ..) ?_
                               | refine memWf_of (calStop_loft ..) ?_ | refine memWf_of (closeGates_loft ..) ?_ | apply startUnload_memWf
                               | apply endAll_memWf | refine memWf_of (State.updIsl_loft ..) ?_ | refine memWf_of (syncChron_loft ..) ?_
                               | refine memWf_of (stopRadio_loft ..) ?_ | split | dsimp only

theorem execSdRefclkLoss_memWf (present : Bool) (ppm : Int) (s : State) (h_s : memWf s.loft.mem = true) :
    keepsMem (execSdRefclkLoss present ppm s) := by
  unfold execSdRefclkLoss
  with_reducible repeat' first | assumption | intro _ | apply keepsMem_running | apply keepsMem_next | apply clockLost_memWf
                               | refine memWf_of (State.updSup_loft ..) ?_ | split | dsimp only

@[simp] theorem clockBack_loft (s : State) :
    (clockBack s).loft = s.loft := by
  unfold clockBack
  with_reducible repeat' first | rfl | intro _ | refine (State.updSup_loft ..).trans ?_ | refine (radioEnterRun_loft ..).trans ?_
                               | refine (startRadio_loft ..).trans ?_ | refine (startChannel_loft ..).trans ?_ | split | dsimp only

theorem execSdRefclkRestored_loft (ppm : Int) (s : State) :
    keepsLoft s (execSdRefclkRestored ppm s) := by
  unfold execSdRefclkRestored
  with_reducible repeat' first | rfl | intro _ | apply keepsLoft_running | apply keepsLoft_next | refine (syncChron_loft ..).trans ?_
                               | refine (clockBack_loft ..).trans ?_ | refine (State.updSup_loft ..).trans ?_ | split | dsimp only

theorem millerRestart_memWf (s : State) (h_s : memWf s.loft.mem = true) :
    memWf (millerRestart s).loft.mem = true := by
  unfold millerRestart
  with_reducible repeat' first | assumption | intro _ | apply unpinAll_memWf | split | dsimp only

theorem watchdog_memWf (s : State) (h_s : memWf s.loft.mem = true) :
    memWf (watchdog s).loft.mem = true := by
  unfold watchdog
  with_reducible repeat' first | assumption | intro _ | apply enterSafe_memWf | apply millerRestart_memWf
                               | refine memWf_of (State.updSup_loft ..) ?_ | refine memWf_of (clearSafe_loft ..) ?_
                               | refine memWf_of (raiseCrumb_loft ..) ?_ | split | dsimp only

theorem execMillerWatchdog_memWf (ms : Nat) (imageOk : Bool) (s : State) (h_s : memWf s.loft.mem = true) :
    keepsMem (execMillerWatchdog ms imageOk s) := by
  unfold execMillerWatchdog
  with_reducible repeat' first | assumption | intro _ | apply keepsMem_running | apply keepsMem_next | apply startReset_memWf
                               | apply watchdog_memWf | split | dsimp only

theorem execModeChangeComplete_memWf (s : State) (h_s : memWf s.loft.mem = true) :
    keepsMem (execModeChangeComplete s) := by
  unfold execModeChangeComplete
  with_reducible repeat' first | assumption | intro _ | apply keepsMem_running | apply keepsMem_next | apply modeComplete_memWf | split | dsimp only

theorem modeRequest_memWf (t m : Nat) (s : State) (h_s : memWf s.loft.mem = true) :
    memWf (modeRequest t m s).state.loft.mem = true := by
  unfold modeRequest
  with_reducible repeat' first | assumption | intro _ | apply postEvent_memWf | split
                               | dsimp only [Reply.state_done, Reply.state_accept, Reply.state_silent]

theorem setModeZero_memWf (m : Nat) (s : State) (h_s : memWf s.loft.mem = true) :
    memWf (setModeZero m s).state.loft.mem = true := by
  unfold setModeZero
  with_reducible repeat' first | assumption | intro _ | apply startShelf_memWf | apply safeEntry_memWf
                               | refine memWf_of (State.updSup_loft ..) ?_ | apply startChange_memWf | split
                               | dsimp only [Reply.state_done, Reply.state_accept, Reply.state_silent]

theorem cmdSysSetMode_memWf  (s : State) (t : Nat) (p : Bytes) (h_s : memWf s.loft.mem = true) :
    memWf (Cmd.run cmdSysSetMode s t p).state.loft.mem = true := by
  unfold cmdSysSetMode
  with_reducible repeat' first | assumption | intro _ | apply setModeZero_memWf | apply modeRequest_memWf | split
                               | dsimp only [Reply.state_done, Reply.state_accept, Reply.state_silent]

@[simp] theorem cmdSysSupplyConfig_loft  (s : State) (t : Nat) (p : Bytes) :
    (Cmd.run cmdSysSupplyConfig s t p).state.loft = s.loft := by simp [cmdSysSupplyConfig]

@[simp] theorem cmdSysSupplyStatus_loft  (s : State) (t : Nat) (p : Bytes) :
    (Cmd.run cmdSysSupplyStatus s t p).state.loft = s.loft := by simp [cmdSysSupplyStatus]

theorem execSysSetMode_memWf (c : Call) (s : State) (h_s : memWf s.loft.mem = true) :
    keepsMem (execSysSetMode c s) := by
  unfold execSysSetMode
  with_reducible repeat' first | assumption | intro _ | apply keepsMem_running | apply keepsMem_next | apply command_memWf
                               | apply cmdSysSetMode_memWf | split | dsimp only

theorem execSysSupplyConfig_loft (c : Call) (s : State) :
    keepsLoft s (execSysSupplyConfig c s) := by
  apply keepsLoft_running; simp

theorem execSysSupplyStatus_loft (c : Call) (s : State) :
    keepsLoft s (execSysSupplyStatus c s) := by
  apply keepsLoft_running; simp

/-! ### Mailbox.lean -/

/-- Every defined command keeps the memory canonical. -/
theorem allCmds_memWf : ∀ c ∈ allCmds, ∀ s t p, memWf s.loft.mem = true → memWf (c.run s t p).state.loft.mem = true := by
  unfold allCmds
  simp only [List.forall_mem_append, List.forall_mem_cons, List.not_mem_nil, false_implies, implies_true, and_true]
  exact ⟨⟨⟨⟨⟨⟨fun s t p h => memWf_of (cmdBootGetStatus_loft s t p) h,
    fun s t p h => memWf_of (cmdBootOtpRead_loft s t p) h,
    fun s t p h => memWf_of (cmdBootOtpProgram_loft s t p) h,
    fun s t p h => memWf_of (cmdBootRollbackCommit_loft s t p) h,
    fun s t p h => memWf_of (cmdBootPushDone_loft s t p) h,
    fun s t p h => memWf_of (cmdBootEpochSet_loft s t p) h,
    fun s t p h => memWf_of (cmdBootRestart_loft s t p) h,
    fun s t p h => memWf_of (cmdBootFlashErase_loft s t p) h,
    fun s t p h => cmdBootFlashWrite_memWf s t p h,
    fun s t p h => memWf_of (cmdBootSlotCheck_loft s t p) h,
    fun s t p h => memWf_of (cmdCasGetStatus_loft s t p) h,
    fun s t p h => memWf_of (cmdCasLaneSet_loft s t p) h,
    fun s t p h => memWf_of (cmdCasAsymSet_loft s t p) h,
    fun s t p h => memWf_of (cmdCasCalRun_loft s t p) h,
    fun s t p h => memWf_of (cmdCasForwardSet_loft s t p) h,
    fun s t p h => memWf_of (cmdCasHandback_loft s t p) h,
    fun s t p h => memWf_of (cmdCasCounters_loft s t p) h,
    fun s t p h => memWf_of (cmdChnHdaSet_loft s t p) h,
    fun s t p h => memWf_of (cmdChnZoneSet_loft s t p) h,
    fun s t p h => memWf_of (cmdChnCommit_loft s t p) h,
    fun s t p h => cmdChnHeads_memWf s t p h,
    fun s t p h => memWf_of (cmdChnCal_loft s t p) h,
    fun s t p h => memWf_of (cmdChnStatus_loft s t p) h,
    fun s t p h => memWf_of (cmdChnPaXfer_loft s t p) h⟩,
    ⟨fun s t p h => cmdChnDefectRead_memWf s t p h,
    fun s t p h => memWf_of (cmdChnDefectAdd_loft s t p) h,
    fun s t p h => memWf_of (cmdChnSliceEnable_loft s t p) h,
    fun s t p h => memWf_of (cmdDiskGetStatus_loft s t p) h,
    fun s t p h => memWf_of (cmdDiskTagLimit_loft s t p) h,
    fun s t p h => memWf_of (cmdEaveGetStatus_loft s t p) h,
    fun s t p h => memWf_of (cmdEaveConfig_loft s t p) h,
    fun s t p h => memWf_of (cmdEaveShutdown_loft s t p) h,
    fun s t p h => memWf_of (cmdEaveClear_loft s t p) h,
    fun s t p h => cmdEthPortConfig_memWf s t p h,
    fun s t p h => memWf_of (cmdEthPortStatus_loft s t p) h,
    fun s t p h => memWf_of (cmdEthPortCounters_loft s t p) h,
    fun s t p h => memWf_of (cmdEthFlowSet_loft s t p) h,
    fun s t p h => memWf_of (cmdEthFlowGet_loft s t p) h,
    fun s t p h => memWf_of (cmdEthFlowCounters_loft s t p) h,
    fun s t p h => cmdEthSfpXfer_memWf s t p h,
    fun s t p h => memWf_of (cmdIrqRouteSet_loft s t p) h,
    fun s t p h => memWf_of (cmdIrqRouteGet_loft s t p) h,
    fun s t p h => memWf_of (cmdIrqGetOwners_loft s t p) h,
    fun s t p h => memWf_of (cmdKeyGetInfo_loft s t p) h,
    fun s t p h => memWf_of (cmdKeyDerive_loft s t p) h,
    fun s t p h => memWf_of (cmdKeyImport_loft s t p) h,
    fun s t p h => memWf_of (cmdKeyErase_loft s t p) h,
    fun s t p h => memWf_of (cmdKeySetUsers_loft s t p) h⟩⟩,
    ⟨fun s t p h => cmdKeyWrap_memWf s t p h,
    fun s t p h => memWf_of (cmdKeyClaimSet_loft s t p) h,
    fun s t p h => memWf_of (cmdKeyDebugUnlock_loft s t p) h,
    fun s t p h => memWf_of (cmdKeyGetStatus_loft s t p) h,
    fun s t p h => cmdLoftAlloc_memWf s t p h,
    fun s t p h => cmdLoftFree_memWf s t p h,
    fun s t p h => cmdRingOpen_memWf s t p h,
    fun s t p h => memWf_of (cmdRingClose_loft s t p) h,
    fun s t p h => memWf_of (cmdLoftQuotaSet_loft s t p) h,
    fun s t p h => memWf_of (cmdLoftGetStatus_loft s t p) h,
    fun s t p h => memWf_of (cmdMotAConfig_loft s t p) h,
    fun s t p h => memWf_of (cmdMotAStart_loft s t p) h,
    fun s t p h => cmdMotAStop_memWf s t p h,
    fun s t p h => memWf_of (cmdMotAGenlock_loft s t p) h,
    fun s t p h => memWf_of (cmdMotAStatus_loft s t p) h,
    fun s t p h => memWf_of (cmdMotBConfig_loft s t p) h,
    fun s t p h => memWf_of (cmdMotBSetSpeed_loft s t p) h,
    fun s t p h => memWf_of (cmdMotBStatus_loft s t p) h,
    fun s t p h => memWf_of (cmdPtpGetStatus_loft s t p) h,
    fun s t p h => cmdPtpInstanceConfig_memWf s t p h,
    fun s t p h => memWf_of (cmdPtpInstanceStatus_loft s t p) h,
    fun s t p h => memWf_of (cmdPtpFollowersGet_loft s t p) h,
    fun s t p h => memWf_of (cmdPtpUnicastMastersSet_loft s t p) h,
    fun s t p h => cmdPtpClockConfig_memWf s t p h⟩⟩,
    ⟨fun s t p h => memWf_of (cmdPtpAsymSet_loft s t p) h,
    fun s t p h => memWf_of (cmdPtpCalRun_loft s t p) h,
    fun s t p h => memWf_of (cmdPtpAuthConfig_loft s t p) h,
    fun s t p h => memWf_of (cmdPtpFollowerDrop_loft s t p) h,
    fun s t p h => memWf_of (cmdPtpCounters_loft s t p) h,
    fun s t p h => memWf_of (cmdRadioGetStatus_loft s t p) h,
    fun s t p h => memWf_of (cmdRadioDeviceSet_loft s t p) h,
    fun s t p h => memWf_of (cmdRadioBandConfig_loft s t p) h,
    fun s t p h => memWf_of (cmdRadioSynthConfig_loft s t p) h,
    fun s t p h => memWf_of (cmdRadioSynthTableSet_loft s t p) h,
    fun s t p h => cmdRadioSynthCal_memWf s t p h,
    fun s t p h => memWf_of (cmdRadioBandStart_loft s t p) h,
    fun s t p h => cmdRadioBandStop_memWf s t p h,
    fun s t p h => memWf_of (cmdRadioBandHop_loft s t p) h,
    fun s t p h => memWf_of (cmdRadioTddSet_loft s t p) h,
    fun s t p h => memWf_of (cmdRadioPowerTableSet_loft s t p) h,
    fun s t p h => memWf_of (cmdRadioPowerSet_loft s t p) h,
    fun s t p h => memWf_of (cmdRadioBiasConfig_loft s t p) h,
    fun s t p h => memWf_of (cmdRadioDetConfig_loft s t p) h,
    fun s t p h => memWf_of (cmdRadioDetRead_loft s t p) h,
    fun s t p h => memWf_of (cmdRadioRfspiXfer_loft s t p) h,
    fun s t p h => memWf_of (cmdRadioAuxXfer_loft s t p) h,
    fun s t p h => memWf_of (cmdBrcGetStatus_loft s t p) h,
    fun s t p h => cmdBrcRead_memWf s t p h⟩⟩,
    ⟨fun s t p h => cmdBrcFind_memWf s t p h,
    fun s t p h => memWf_of (cmdBrcWrite_loft s t p) h,
    fun s t p h => memWf_of (cmdBrcCollected_loft s t p) h,
    fun s t p h => memWf_of (cmdBrcNvmRetest_loft s t p) h,
    fun s t p h => memWf_of (cmdRecAreaSet_loft s t p) h,
    fun s t p h => cmdRecChannelSet_memWf s t p h,
    fun s t p h => memWf_of (cmdRecChannelStatus_loft s t p) h,
    fun s t p h => memWf_of (cmdRecSegList_loft s t p) h,
    fun s t p h => memWf_of (cmdRecSegHold_loft s t p) h,
    fun s t p h => cmdRecRead_memWf s t p h,
    fun s t p h => memWf_of (cmdSparGetVersion_loft s t p) h,
    fun s t p h => memWf_of (cmdSparGetStatus_loft s t p) h,
    fun s t p h => memWf_of (cmdSparReload_loft s t p) h,
    fun s t p h => cmdSparPatchCheck_memWf s t p h,
    fun s t p h => cmdSysSetMode_memWf s t p h,
    fun s t p h => memWf_of (cmdSysSupplyConfig_loft s t p) h,
    fun s t p h => memWf_of (cmdSysSupplyStatus_loft s t p) h,
    fun s t p h => memWf_of (cmdSysGetInfo_loft s t p) h,
    fun s t p h => memWf_of (cmdSysEcho_loft s t p) h,
    fun s t p h => cmdTenReset_memWf s t p h,
    fun s t p h => memWf_of (cmdSvcAssign_loft s t p) h,
    fun s t p h => cmdTenEnable_memWf s t p h,
    fun s t p h => memWf_of (cmdTenGetStatus_loft s t p) h,
    fun s t p h => memWf_of (cmdSvcGet_loft s t p) h⟩⟩,
    ⟨fun s t p h => memWf_of (cmdTenFault_loft s t p) h,
    fun s t p h => memWf_of (cmdTimeGetStatus_loft s t p) h,
    fun s t p h => cmdTimeRefConfig_memWf s t p h,
    fun s t p h => memWf_of (cmdTimeDpllConfig_loft s t p) h,
    fun s t p h => memWf_of (cmdTimeOscConfig_loft s t p) h,
    fun s t p h => cmdTimeSelect_memWf s t p h,
    fun s t p h => cmdTimeSet_memWf s t p h,
    fun s t p h => cmdTimeSetOffsets_memWf s t p h,
    fun s t p h => memWf_of (cmdTimeSchedule_loft s t p) h,
    fun s t p h => memWf_of (cmdTimeGetOffsets_loft s t p) h,
    fun s t p h => memWf_of (cmdTimeCadenceSet_loft s t p) h,
    fun s t p h => memWf_of (cmdTimeCadenceGet_loft s t p) h,
    fun s t p h => memWf_of (cmdTimeTimArm_loft s t p) h,
    fun s t p h => memWf_of (cmdTimeTimRead_loft s t p) h,
    fun s t p h => memWf_of (cmdTimeSpineCalRead_loft s t p) h,
    fun s t p h => memWf_of (cmdTimeGnssSend_loft s t p) h,
    fun s t p h => memWf_of (cmdTimeRefStatus_loft s t p) h⟩⟩

theorem executeReq_memWf (q : Req) (s : State) (h_s : memWf s.loft.mem = true) :
    memWf (executeReq q s).2.loft.mem = true := by
  unfold executeReq
  split
  · rename_i c heq
    exact execute_memWf _ _ _ h_s (allCmds_memWf c (List.mem_of_find?_eq_some heq))
  · exact h_s

@[simp] theorem forward_loft (q : Req) (b : Bytes) (target : Nat) (s : State) :
    (forward q b target s).loft = s.loft := by
  unfold forward
  with_reducible repeat' first | rfl | intro _ | refine (answer_loft ..).trans ?_ | refine (sendTo_loft ..).trans ?_
                               | refine (State.updTen_loft ..).trans ?_ | split | dsimp only

theorem doorbell_memWf (t : Nat) (isSpi : Bool) (v : BitVec 32) (s : State) (h_s : memWf s.loft.mem = true) :
    memWf (doorbell t isSpi v s).loft.mem = true := by
  unfold doorbell
  with_reducible repeat' first | assumption | intro _ | refine memWf_of (doorbellRefused_loft ..) ?_
                               | refine memWf_of (takeRequest_loft ..) ?_ | refine memWf_of (headerFail_loft ..) ?_
                               | refine memWf_of (forward_loft ..) ?_ | apply answer_memWf | apply executeReq_memWf | split | dsimp only

theorem execMbDoorbell_memWf (t : Fin 8) (spi : Bool) (value : BitVec 32) (s : State) (h_s : memWf s.loft.mem = true) :
    keepsMem (execMbDoorbell t spi value s) := by
  unfold execMbDoorbell
  with_reducible repeat' first | assumption | intro _ | apply keepsMem_running | apply keepsMem_next | apply doorbell_memWf
                               | apply spi_memWf | split | dsimp only

theorem regWriteAll_memWf (t : Nat) (isSpi : Bool) (o : Nat) (v : BitVec 32) (s : State) (h_s : memWf s.loft.mem = true) :
    memWf (regWriteAll t isSpi o v s).loft.mem = true := by
  unfold regWriteAll
  with_reducible repeat' first | assumption | intro _ | apply doorbell_memWf | apply regWrite_memWf | split | dsimp only

theorem execRegisterWrite_memWf (t : Fin 8) (off : Nat) (value : BitVec 32) (s : State) (h_s : memWf s.loft.mem = true) :
    keepsMem (execRegisterWrite t off value s) := by
  unfold execRegisterWrite
  with_reducible repeat' first | assumption | intro _ | apply keepsMem_running | apply keepsMem_next | apply regWriteAll_memWf | split | dsimp only

theorem execRegWrite_memWf (addr : Nat) (data : Bytes) (s : State) (h_s : memWf s.loft.mem = true) :
    keepsMem (execRegWrite addr data s) := by
  unfold execRegWrite
  with_reducible repeat' first | assumption | intro _ | refine foldl_memWf ?_ _ _ ?_ | apply keepsMem_running | apply keepsMem_next
                               | apply spi_memWf | apply regWriteAll_memWf | split | dsimp only

theorem onMboxReq_memWf (origin : Nat) (p : Bytes) (s : State) (h_s : memWf s.loft.mem = true) :
    memWf (onMboxReq origin p s).loft.mem = true := by
  unfold onMboxReq
  with_reducible repeat' first | assumption | intro _ | apply executeReq_memWf | refine memWf_of (sendTo_loft ..) ?_ | split | dsimp only

theorem execMboxReq_memWf (rx : LaneRx) (s : State) (h_s : memWf s.loft.mem = true) :
    keepsMem (execMboxReq rx s) := by
  unfold execMboxReq
  with_reducible repeat' first | assumption | intro _ | apply keepsMem_running | apply keepsMem_next | apply laneRow_memWf
                               | apply onMboxReq_memWf | split | dsimp only

@[simp] theorem onMboxRsp_loft (origin : Nat) (p : Bytes) (s : State) :
    (onMboxRsp origin p s).loft = s.loft := by
  unfold onMboxRsp
  with_reducible repeat' first | rfl | intro _ | refine (respond_loft ..).trans ?_ | refine (State.updTen_loft ..).trans ?_ | split | dsimp only

theorem execMboxRsp_loft (rx : LaneRx) (s : State) :
    keepsLoft s (execMboxRsp rx s) := by
  apply keepsLoft_running; simp

theorem onMboxEvent_memWf (origin : Nat) (p : Bytes) (s : State) (h_s : memWf s.loft.mem = true) :
    memWf (onMboxEvent origin p s).loft.mem = true := by
  unfold onMboxEvent
  with_reducible repeat' first | assumption | intro _ | apply postCompletion_memWf | refine memWf_of (State.updTen_loft ..) ?_ | split | dsimp only

theorem execMboxEvent_memWf (rx : LaneRx) (s : State) (h_s : memWf s.loft.mem = true) :
    keepsMem (execMboxEvent rx s) := by
  unfold execMboxEvent
  with_reducible repeat' first | assumption | intro _ | apply keepsMem_running | apply keepsMem_next | apply laneRow_memWf
                               | apply onMboxEvent_memWf | split | dsimp only

theorem execForwardedRequestTimeout_loft (t : Fin 8) (s : State) :
    keepsLoft s (execForwardedRequestTimeout t s) := by
  apply keepsLoft_running; simp

theorem jobEnd_memWf (j : Job) (fail : Option Nat) (l : List Int) (s : State) (h_s : memWf s.loft.mem = true) :
    memWf (jobEnd j fail l s).loft.mem = true := by
  unfold jobEnd
  with_reducible repeat' first | assumption | intro _ | apply retestEnd_memWf | apply recReadEnd_memWf | apply reloadEnd_memWf
                               | apply completeJob_memWf | apply commitEnd_memWf | apply calEnd_memWf | apply defectReadEnd_memWf
                               | apply defectAddEnd_memWf | apply sliceEnabled_memWf | apply patchCheckEnd_memWf | apply slotCheckEnd_memWf
                               | split | dsimp only

theorem execAsyncCompletion_memWf (t : Fin 9) (token : Nat) (fail : Option Nat) (measured : List Int) (s : State) (h_s : memWf s.loft.mem = true) :
    keepsMem (execAsyncCompletion t token fail measured s) := by
  unfold execAsyncCompletion
  with_reducible repeat' first | assumption | intro _ | apply keepsMem_running | apply keepsMem_next | apply jobEnd_memWf | split | dsimp only

/-! ### Tap.lean -/

theorem scanEntered_memWf (s : State) (h_s : memWf s.loft.mem = true) :
    memWf (scanEntered s).loft.mem = true := by
  unfold scanEntered
  with_reducible repeat' first | assumption | intro _ | apply enterSafe_memWf | refine memWf_of (crumb_loft ..) ?_ | apply zeroiseAll_memWf
                               | refine memWf_of (State.updKeys_loft ..) ?_ | split | dsimp only

theorem execTapInstruction_memWf (code : BitVec 5) (s : State) (h_s : memWf s.loft.mem = true) :
    keepsMem (execTapInstruction code s) := by
  unfold execTapInstruction
  with_reducible repeat' first | assumption | intro _ | apply keepsMem_running | apply keepsMem_next
                               | refine memWf_of (State.updKeys_loft ..) ?_ | refine memWf_of (State.emit_loft ..) ?_
                               | apply scanEntered_memWf | split | dsimp only

/-! ### Tick.lean -/

@[simp] theorem advance_loft (s : State) :
    (advance s).loft = s.loft := by
  unfold advance
  with_reducible repeat' first | rfl | intro _ | split | dsimp only

theorem tick_memWf (s : State) (h_s : memWf s.loft.mem = true) :
    memWf (tick s).loft.mem = true := by
  unfold tick
  with_reducible repeat' first | assumption | intro _ | refine memWf_of (advance_loft ..) ?_ | apply startReset_memWf | split | dsimp only

end Sys2Proof.Machine
end

