-- ==== Sys2Proof/Tests/Base.lean ====
section
/-!
SUPPORT. The states and calls the tests and witnesses are built from.
-/
namespace Sys2Proof.Machine
open Sys2Proof

/-- A byte string from numbers. -/
def bs (l : List Nat) : Bytes := l.map (BitVec.ofNat 8)

/-- A call of a tenant with ASYNC_OK set. -/
def wcall (t : Fin 8) (p : Bytes) : Call := { t, asyncOk := true, payload := p }

/-- A module in RUN, Campel running, tenant 0 with an EVENT ring of 64 entries on ring 0. -/
def ready : State :=
  { State.reset with
      boot := { State.reset.boot with stage := .campel, romDone := true }
      supply := { mode := .run, safeN := true }
      rings := (Vector.replicate 32 {}).set 0 { opened := true, owner := 0, type := .event, log2 := 6 } }

/-- `ready` with a SUBMIT ring 1 paired with a COMPLETE ring 2, both tenant 0's, yealm 40,000 allocated to tenant 0 (its
handle is 2137152), a committed format without heads, channel A's setup, and a link on port 0. -/
def full : State :=
  { ready with
      rings := (ready.rings.set 1 { opened := true, owner := 0, type := .submit, log2 := 4, pair := some 2 }).set 2
        { opened := true, owner := 0, type := .complete, log2 := 4, pair := some 1 }
      loft := { tags := [(40000, { alloc := true }), (40001, { alloc := true })] }
      channel := { format := some {}, maxLba := 1000, state := .tracking, cal := { unloadMs := some 20 } }
      motor := { ready.motor with a := { ready.motor.a with cfgSet := true, genSet := true } }
      net := { ready.net with port := ready.net.port.set 0 { mode := 1, everOn := true, link := true, txDis := false } } }

/-- `full` with one entry in SUBMIT ring 1. -/
def entry (d : Bytes) : State := full.updRing 1 fun r => { r with tail := 1, held := d }

/-- `full` with every Spar running the one instruction `v` of its program, the radio's power, no dispatch entry patched. -/
def sparred (v : Nat) : State :=
  { full with spars := Vector.replicate 3 { state := .running, prog := Vector.replicate 2 [(0, v)] } }

/-- `full` in a chain of four modules, at a position, both lanes up, position 0 the Ridge. -/
def casc (a : Acting) (p : Nat) : State :=
  { full with
      boot := { full.boot with role := 2 }
      cascade :=
        { acting := a, position := p, valid := true, modules := 4, ridgePos := some 0
          lane := Vector.replicate 2 { state := .up, peer := true } } }

end Sys2Proof.Machine
end

