-- ==== Sys2Proof/WellFormed.lean ====
section
/-!
DEFINITION. Which commands are well formed: the widths the spec gives their operands, where the type of an operand does not
give them.
-/
namespace Sys2Proof

/-- A request's SEQUENCE is 16 bits wide and its payload at most 240 bytes long (Table TEN.6). -/
def callOk (c : Call) : Bool := decide (c.seq < 65536) && decide (c.payload.length ≤ 240)

/-- A lane frame's FSEQ and LENGTH are 16 bits wide (Table CAS.2). -/
def frameOk (rx : LaneRx) : Bool := decide (rx.fseq < 65536) && decide (rx.payload.length < 65536)

/-- A PTP message's identity is 10 bytes long, its MAC address 6, its IP address held in 16; sequenceId is 16 bits wide; the
arrival is a time (R370). -/
def messageOk (m : PtpRx) : Bool :=
  m.srcId.length == 10 && m.mac.length == 6 && m.addr.length == 16 && decide (m.seq < 65536) && decide (m.ns < 1000000000) &&
    decide (m.frac < 65536)

/-- An Announce's grandmaster identity is 8 bytes long; its quality fields have their widths (R450). -/
def announceOk (a : PtpAnn) : Bool :=
  a.gmId.length == 8 && decide (a.gmClass < 256) && decide (a.gmAccuracy < 256) && decide (a.gmVariance < 65536) &&
    decide (a.gmPriority1 < 256) && decide (a.gmPriority2 < 256) && decide (a.steps < 65536)

/-- A command's operands have the widths the spec gives them. -/
def Instr.wellFormed : Instr → Bool
  | .mbDoorbell _ _ _ => true
  | .asyncCompletion _ _ _ _ => true
  | .tenResetWrite _ _ => true
  | .tenantResetComplete _ => true
  | .functionLevelReset _ => true
  | .perstN _ => true
  | .timeLatch _ _ => true
  | .irqRawClear _ _ _ _ => true
  | .irqMaskWrite _ _ _ => true
  | .irqForce _ _ _ => true
  | .vectorUnmask _ _ => true
  | .ringTailWrite _ _ _ => true
  | .ringHeadWrite _ _ _ => true
  | .brcReadSeqLo _ _ => true
  | .brcData15Read _ => true
  | .registerWrite _ off _ => decide (off < 65536)
  | .regWrite _ _ => true
  | .regRead _ _ => true
  | .status _ => true
  | .loftWrite _ off _ => decide (off < 65536)
  | .loftRead _ off _ => decide (off < 65536)
  | .apertureRead _ off _ _ => decide (off < 8589934592)
  | .apertureWrite _ off _ => decide (off < 8589934592)
  | .submitConsume _ => true
  | .ringAttention _ _ => true
  | .submitNop _ => true
  | .loftDmaIn _ => true
  | .loftDmaOut _ => true
  | .netSend _ => true
  | .diskRead _ => true
  | .diskWrite _ => true
  | .diskStampRead _ => true
  | .casCopy _ => true
  | .sysGetInfo c => callOk c
  | .sysSetMode c => callOk c
  | .shelfStopTimeout _ => true
  | .modeChangeComplete => true
  | .sysEcho c => callOk c
  | .tenReset c => callOk c
  | .svcAssign c => callOk c
  | .tenEnable c => callOk c
  | .tenGetStatus c => callOk c
  | .svcGet c => callOk c
  | .tenFault c => callOk c
  | .sysSupplyConfig c => callOk c
  | .sysSupplyStatus c => callOk c
  | .loftAlloc c => callOk c
  | .loftFree c => callOk c
  | .ringOpen c => callOk c
  | .ringClose c => callOk c
  | .loftQuotaSet c => callOk c
  | .loftGetStatus c => callOk c
  | .overload _ => true
  | .patrolScrub yealm _ _ => decide (yealm < 2097152)
  | .yealmRetired yealm _ => decide (yealm < 2097152)
  | .irqRouteSet c => callOk c
  | .irqRouteGet c => callOk c
  | .irqGetOwners c => callOk c
  | .timeGetStatus c => callOk c
  | .timeRefConfig c => callOk c
  | .timeDpllConfig c => callOk c
  | .timeOscConfig c => callOk c
  | .timeSelect c => callOk c
  | .timeSet c => callOk c
  | .timeSetOffsets c => callOk c
  | .timeSchedule c => callOk c
  | .timeGetOffsets c => callOk c
  | .timeCadenceSet c => callOk c
  | .timeCadenceGet c => callOk c
  | .timeTimArm c => callOk c
  | .timeTimRead c => callOk c
  | .timeSpineCalRead c => callOk c
  | .timeGnssSend c => callOk c
  | .timeRefStatus c => callOk c
  | .gnssSentence _ _ => true
  | .gnssPps _ => true
  | .refPpsEdge _ _ => true
  | .refQualified _ _ _ => true
  | .refDisqualified _ _ => true
  | .waitToRestore _ _ _ => true
  | .dpllUpdate _ => true
  | .dpllLocked _ _ _ => true
  | .dpllPhaseLoss _ _ => true
  | .holdoverLimit _ => true
  | .steerLimit _ => true
  | .scheduleInstant => true
  | .scheduleWarning => true
  | .spineFrame _ _ => true
  | .spineCalibration _ _ _ _ _ => true
  | .cadenceDescriptorApply _ => true
  | .timInEdge _ _ _ ns frac _ => decide (ns < 1000000000) && decide (frac < 65536)
  | .oscInLoss _ => true
  | .oscInRestored _ => true
  | .sdRefclkLoss _ _ => true
  | .sdRefclkRestored _ => true
  | .vinWake _ _ _ _ _ _ => true
  | .wakeN _ _ _ _ _ => true
  | .resetN _ => true
  | .retractEndReset _ _ _ => true
  | .guardPowerOnReset _ => true
  | .undervoltageLockout _ _ => true
  | .bootImageCheck _ _ _ => true
  | .campelStartTimeout _ => true
  | .cascadeBootTimeout _ => true
  | .bootComplete => true
  | .bootGetStatus c => callOk c
  | .bootOtpRead c => callOk c
  | .bootOtpProgram c => callOk c
  | .bootRollbackCommit c => callOk c
  | .bootPushDone c => callOk c
  | .bootEpochSet c => callOk c
  | .bootRestart c => callOk c
  | .bootFlashErase c => callOk c
  | .bootFlashWrite c => callOk c
  | .bootSlotCheck c => callOk c
  | .sparGetVersion c => callOk c
  | .sparGetStatus c => callOk c
  | .sparReload c => callOk c
  | .sparPatchCheck c => callOk c
  | .haltRequest _ => true
  | .bankSwitch _ _ _ _ _ => true
  | .nop _ _ => true
  | .jump _ _ => true
  | .jumpIfInbound _ _ => true
  | .waitTick _ _ => true
  | .waitEvent _ _ => true
  | .signal _ _ => true
  | .halt _ _ => true
  | .loop _ _ => true
  | .wedgeSync _ => true
  | .headSelect _ => true
  | .seekStart _ => true
  | .settleCheck _ => true
  | .writeSector _ _ _ => true
  | .readSector _ _ _ => true
  | .verifySector _ _ _ => true
  | .skipDefect _ => true
  | .edgePlan _ => true
  | .ltcFrame _ => true
  | .ptpSyncLaunch _ => true
  | .ptpFollowUp _ => true
  | .ptpAnnounce _ => true
  | .bandState _ => true
  | .synthHop _ => true
  | .tddStep _ => true
  | .powerStep _ => true
  | .ditherChip _ => true
  | .detSample _ _ => true
  | .rfspiXfer _ => true
  | .interruptVector _ _ _ => true
  | .twaitRelease _ _ => true
  | .ewaitRelease _ _ _ => true
  | .schedAction _ _ _ _ => true
  | .frameReceived _ _ _ _ _ ns frac => decide (ns < 1000000000) && decide (frac < 65536)
  | .xoffRepeat _ _ => true
  | .xon _ => true
  | .heldFrameAdmit _ => true
  | .heldFrameTimeout _ _ => true
  | .pauseReceived _ _ _ => true
  | .pauseEnd _ ns => decide (ns < 1000000000)
  | .frameSent _ _ ns frac => decide (ns < 1000000000) && decide (frac < 65536)
  | .linkUp _ _ _ => true
  | .linkDown _ _ _ => true
  | .sfpLosEdge _ _ => true
  | .sfpPresencePoll _ _ _ _ => true
  | .ddmPoll _ _ _ _ => true
  | .sfpStuckRetry _ _ => true
  | .lpiEntry _ _ _ => true
  | .lpiExit _ _ => true
  | .lldpSend _ _ _ => true
  | .lldpduReceived _ _ _ _ _ => true
  | .errSummary _ _ => true
  | .portFailed _ _ _ _ => true
  | .portRestored _ _ => true
  | .ethPortConfig c => callOk c
  | .ethPortStatus c => callOk c
  | .ethPortCounters c => callOk c
  | .ethFlowSet c => callOk c
  | .ethFlowGet c => callOk c
  | .ethFlowCounters c => callOk c
  | .ethSfpXfer c => callOk c
  | .delayReq _ m => messageOk m
  | .signalingRequest _ m _ _ _ => messageOk m
  | .cancelUnicastTransmission _ m _ => messageOk m
  | .grantExpiry _ _ _ => true
  | .grantRenewal _ _ _ _ => true
  | .grantReceived _ m _ _ => messageOk m
  | .announceReceived _ m a => messageOk m && announceOk a
  | .announceReceiptTimeout _ _ => true
  | .syncReceived _ m _ _ ns => messageOk m && decide (ns < 1000000000)
  | .followUpReceived _ m _ ns => messageOk m && decide (ns < 1000000000)
  | .delayRespReceived _ m _ ns _ _ _ => messageOk m && decide (ns < 1000000000)
  | .syncTimeout _ _ => true
  | .authTimeout _ _ => true
  | .managementReceived _ m _ => messageOk m
  | .pdelayReceived _ => true
  | .followUp _ => true
  | .smTlvSend _ => true
  | .ptpGetStatus c => callOk c
  | .ptpInstanceConfig c => callOk c
  | .ptpInstanceStatus c => callOk c
  | .ptpFollowersGet c => callOk c
  | .ptpUnicastMastersSet c => callOk c
  | .ptpClockConfig c => callOk c
  | .ptpAsymSet c => callOk c
  | .ptpCalRun c => callOk c
  | .ptpAuthConfig c => callOk c
  | .ptpFollowerDrop c => callOk c
  | .ptpCounters c => callOk c
  | .alignEnd _ _ => true
  | .zeroCrossing _ _ _ _ => true
  | .commutationStep _ _ _ _ => true
  | .handoverTimeout _ _ => true
  | .handoverRetry _ _ => true
  | .atSpeed _ _ => true
  | .spinupTimeout _ => true
  | .servoIndex _ => true
  | .genlockLocked => true
  | .genlockUnlock => true
  | .decelToBrake _ => true
  | .brakeEnd _ _ => true
  | .regenLimit _ => true
  | .regenClamp _ => true
  | .regenResume _ => true
  | .aOvercurrent _ _ => true
  | .aStall _ => true
  | .bOvercurrent _ _ => true
  | .bStall _ => true
  | .bRestart _ => true
  | .speedCmdUpdate _ => true
  | .speedCmdLost _ _ _ => true
  | .speedCmdRestored _ => true
  | .motAConfig c => callOk c
  | .motAStart c => callOk c
  | .motAStop c => callOk c
  | .motAGenlock c => callOk c
  | .motAStatus c => callOk c
  | .motBConfig c => callOk c
  | .motBSetSpeed c => callOk c
  | .motBStatus c => callOk c
  | .paFltRise _ => true
  | .paFltPersist _ => true
  | .servoWedge _ _ _ _ _ _ _ _ _ _ _ => true
  | .servoSearchEnd _ => true
  | .seekError _ _ _ => true
  | .loadTimeout _ => true
  | .headsParked => true
  | .verifyDone _ _ _ _ ns frac _ _ _ => decide (ns < 1000000000) && decide (frac < 65536)
  | .readDecodeDone _ _ _ _ _ => true
  | .sliceKnownAnswerTest _ _ => true
  | .chnHdaSet c => callOk c
  | .chnZoneSet c => callOk c
  | .chnCommit c => callOk c
  | .chnHeads c => callOk c
  | .chnCal c => callOk c
  | .chnStatus c => callOk c
  | .chnPaXfer c => callOk c
  | .chnDefectRead c => callOk c
  | .chnDefectAdd c => callOk c
  | .chnSliceEnable c => callOk c
  | .lockGrant _ => true
  | .lockAged _ _ => true
  | .diskCommandComplete _ => true
  | .diskGetStatus c => callOk c
  | .diskTagLimit c => callOk c
  | .recAreaSet c => callOk c
  | .recChannelSet c => callOk c
  | .recChannelStatus c => callOk c
  | .recSegList c => callOk c
  | .recSegHold c => callOk c
  | .recRead c => callOk c
  | .sectorCloseTimer _ => true
  | .framedHoldRelease _ => true
  | .sectorHandOver _ => true
  | .segmentClosed _ _ => true
  | .blockSummary _ _ ns frac _ => decide (ns < 1000000000) && decide (frac < 65536)
  | .patternApply _ _ => true
  | .calWaitEnd _ _ _ _ => true
  | .hopLockCheck _ ns _ => decide (ns < 1000000000)
  | .lockPoll _ _ => true
  | .temperatureRead _ _ _ => true
  | .rfFrameDone _ => true
  | .detectorConversion _ _ _ => true
  | .auxStuckRetry _ => true
  | .radioGetStatus c => callOk c
  | .radioDeviceSet c => callOk c
  | .radioBandConfig c => callOk c
  | .radioSynthConfig c => callOk c
  | .radioSynthTableSet c => callOk c
  | .radioSynthCal c => callOk c
  | .radioBandStart c => callOk c
  | .radioBandStop c => callOk c
  | .radioBandHop c => callOk c
  | .radioTddSet c => callOk c
  | .radioPowerTableSet c => callOk c
  | .radioPowerSet c => callOk c
  | .radioBiasConfig c => callOk c
  | .radioDetConfig c => callOk c
  | .radioDetRead c => callOk c
  | .radioRfspiXfer c => callOk c
  | .radioAuxXfer c => callOk c
  | .isoEstimate _ _ _ _ _ _ => true
  | .estimateAging _ _ => true
  | .eaveIso _ => true
  | .oscillationMute _ _ _ _ => true
  | .noiseRise _ _ _ _ => true
  | .outOfBand _ _ _ => true
  | .tddTimeMute => true
  | .tddResume _ _ => true
  | .thermalMute _ => true
  | .thermalMuteLift _ => true
  | .rfKillAssert ns => decide (ns < 1000000000)
  | .rfKillRelease _ => true
  | .guardMuteRelease _ => true
  | .backoffExpiry _ _ => true
  | .eaveGetStatus c => callOk c
  | .eaveConfig c => callOk c
  | .eaveShutdown c => callOk c
  | .eaveClear c => callOk c
  | .keyGetInfo c => callOk c
  | .keyDerive c => callOk c
  | .keyImport c => callOk c
  | .keyErase c => callOk c
  | .keySetUsers c => callOk c
  | .keyWrap c => callOk c
  | .keyClaimSet c => callOk c
  | .keyDebugUnlock c => callOk c
  | .keyGetStatus c => callOk c
  | .retiringZeroise _ => true
  | .tapInstruction _ => true
  | .brcGetStatus c => callOk c
  | .brcRead c => callOk c
  | .brcFind c => callOk c
  | .brcWrite c => callOk c
  | .brcCollected c => callOk c
  | .brcNvmRetest c => callOk c
  | .journalSlotWrite _ _ => true
  | .recordsDropped => true
  | .chronicleSectorWrite _ _ _ => true
  | .chronicleStarted => true
  | .chronicleLag _ => true
  | .tightLeft _ => true
  | .recordForward => true
  | .discover rx => frameOk rx
  | .discoverEnd rx => frameOk rx
  | .discoverSend => true
  | .discoverEndTimeout _ => true
  | .time rx _ ns frac => frameOk rx && decide (ns < 1000000000) && decide (frac < 65536)
  | .timeFrameSend => true
  | .offsets rx => frameOk rx
  | .offsetsSend => true
  | .role rx => frameOk rx
  | .leaseReq rx => frameOk rx
  | .leaseGrant rx => frameOk rx
  | .mboxReq rx => frameOk rx
  | .mboxRsp rx => frameOk rx
  | .mboxEvent rx => frameOk rx
  | .record rx => frameOk rx
  | .copy rx => frameOk rx
  | .copyAck rx => frameOk rx
  | .mirror rx => frameOk rx
  | .mirrorAck rx => frameOk rx
  | .mirrorPredecessorTimeout _ _ => true
  | .mirrorSegmentCut _ _ => true
  | .imageReq rx => frameOk rx
  | .image rx => frameOk rx
  | .imageReqRetry _ => true
  | .heartbeat _ count _ => decide (count < 65536)
  | .heartbeatSend => true
  | .ridgeLost _ => true
  | .handbackTimeout _ => true
  | .credit _ ack _ _ _ _ _ => decide (ack < 65536)
  | .ackTimeout _ _ => true
  | .laneLinkUp _ _ _ => true
  | .laneLinkDown _ => true
  | .linkDownRelease _ _ => true
  | .rateIdle _ _ _ => true
  | .reqDown _ count _ _ => decide (count < 65536)
  | .reqUp _ count => decide (count < 65536)
  | .ackDown _ count => decide (count < 65536)
  | .ackUp _ count => decide (count < 65536)
  | .refuse _ => true
  | .rateStepUpDemand _ _ _ _ => true
  | .rateSwitch _ => true
  | .rateRelock _ _ _ => true
  | .casGetStatus c => callOk c
  | .casLaneSet c => callOk c
  | .casAsymSet c => callOk c
  | .casCalRun c => callOk c
  | .casForwardSet c => callOk c
  | .casHandback c => callOk c
  | .casCounters c => callOk c
  | .pfail _ _ => true
  | .pfailCleared _ _ => true
  | .railFault _ _ => true
  | .railRecovered _ _ => true
  | .vauxFault _ _ _ => true
  | .vauxRetry _ _ => true
  | .thermWarn _ _ => true
  | .thermWarnClear _ _ => true
  | .thermCrit _ _ => true
  | .thermTrip _ _ => true
  | .millerWatchdog _ _ => true
  | .dmaCompletion _ _ _ => true
  | .forwardedRequestTimeout _ => true
  | .lpiRxEntry _ => true
  | .lpiRxWake _ => true
  | .resetNRelease _ _ _ => true
  | .perstNRelease => true
  | .peRefclkLoss => true
  | .peRefclkRestored => true
  | .guardResetRelease _ => true
  | .heldWakeRelease _ _ _ _ => true
  | .otpProgramComplete _ => true
  | .flashOperationComplete _ => true
  | .twoWireTransactionEnd _ _ _ _ _ _ => true
  | .ptpCalRunEnd _ => true
  | .casCalRunEnd _ => true

end Sys2Proof
end

