-- ==== Sys2Proof/Tests/Slice0.lean ====
section
/-! SUPPORT. Small tests of the model against the spec, and for each statement's clause a state and operands that meet its hypotheses. -/
namespace Sys2Proof.Machine
open Sys2Proof
set_option linter.all false
set_option Elab.async false

/-! ### StepRunsTheFrontCommand -/

theorem witness_stepIdle : ∃ (s : State),
    (s.pending = []) ∧ (s.powered = true) ∧ (s.boot.restartAt = none) :=
  ⟨(full), by decide⟩

theorem witness_stepOff : ∃ (s : State),
    (s.pending = []) ∧ (s.powered = false) :=
  ⟨({ full with supply := { full.supply with power := .shelf } }), by decide⟩

/-! ### CommandsAnswerAndNeedPower -/

theorem witness_unpowered : ∃ (c : Instr) (s : State),
    (s.powered = false) ∧ (ofGuard c = false) :=
  ⟨(.discoverSend), ({ full with supply := { full.supply with power := .shelf } }), by decide⟩

/-! ### LoftMemoryStaysCanonical -/


/-! ### ResetLeavesTheStatedValues -/

theorem witness_deviceReset : ∃ (cause : Nat) (s : State),
    True :=
  ⟨(4), (casc .rafter 2), by decide⟩

/-! ### RadioRequestsAreNotFittedOnTheT -/

theorem witness_notFitted : ∃ (c : Call) (s : State),
    (s.isT = true) ∧ (Taken c s) :=
  ⟨(wcall 3 []), ({ full with boot := { full.boot with otp := [] } }), by decide⟩

theorem witness_notFittedAny : ∃ (q : Req) (s : State),
    (s.isT = true) ∧ (q.op / 256 = 7) :=
  ⟨({ op := 0x07FF, t := 3 }), ({ full with boot := { full.boot with otp := [] } }), by decide⟩

/-! ### LoftRequestsAllocateAndFree -/

theorem witness_loftAlloc : ∃ (c : Call) (s : State),
    (Served cmdLoftAlloc c s) ∧ ((s.ten c.t.val).held + byteAt c.payload 0 ≤ (s.ten c.t.val).quota) ∧ (s.loft.tags.length + s.loft.gone.length + s.loft.testing.length + 64 < 2064384) ∧ (s.loft.tags.all (fun p => decide (p.2.gen < 256)) = true) :=
  ⟨(wcall 0 (bs [2, 0, 0, 0])), (full), by decide⟩

theorem witness_loftFree : ∃ (c : Call) (s : State),
    (Served cmdLoftFree c s) ∧ (byteAt c.payload 0 = 1) ∧ (freeStatus s c.t.val (rd c.payload 4 4) = St.ok) :=
  ⟨(wcall 0 (bs [1, 0, 0, 0, 64, 156, 32, 0])), (full), by decide⟩

theorem witness_loftFreeStale : ∃ (c : Call) (s : State),
    (Served cmdLoftFree c s) ∧ (byteAt c.payload 0 = 1) ∧ (freeStatus s c.t.val (rd c.payload 4 4) = St.freeStale) ∧ ((s.ten c.t.val).abuseTimes = []) ∧ (c.t ≠ 0) :=
  ⟨(wcall 1 (bs [1, 0, 0, 0, 64, 156, 96, 0])), ((full.updTen 1 fun x => { x with state := .ready, quota := 9 })), by decide⟩

theorem witness_loftQuotaSet : ∃ (c : Call) (s : State),
    (Served cmdLoftQuotaSet c s) ∧ (((List.range 8).map fun k => max (if k = byteAt c.payload 0 then rd c.payload 4 4 else (s.ten k).quota) (s.ten k).held).sum ≤ s.loft.poolSize) :=
  ⟨(wcall 0 (bs [0, 9, 0, 0, 100, 0, 0, 0, 50, 0, 0, 0])), (full), by decide⟩

theorem witness_loftGetStatus : ∃ (c : Call) (s : State),
    (Served cmdLoftGetStatus c s) :=
  ⟨(wcall 0 (bs [255, 0, 0, 0])), (full), by decide⟩

/-! ### RingRequestsOpenAndClose -/

theorem witness_ringOpen : ∃ (c : Call) (n : Nat) (s : State),
    (Served cmdRingOpen c s) ∧ ((byteAt c.payload 1 = 3 → eventRing s c.t.val = none)) ∧ (ringNamed s c.payload = some n) ∧ (openRings s c.t.val < (s.ten c.t.val).ringLimit) :=
  ⟨(wcall 0 (bs [255, 2, 4, 0, 0, 0, 0, 0])), (5 - 2), (full), by decide⟩

theorem witness_ringClose : ∃ (c : Call) (s : State),
    (Served cmdRingClose c s) ∧ (((s.ring (byteAt c.payload 0)).type = .complete → (s.ring (byteAt c.payload 0)).pair = none)) ∧ (((s.ring (byteAt c.payload 0)).type = .event → reservedSlots s c.t.val = 0)) ∧ (((s.ring (byteAt c.payload 0)).type = .submit → (s.ring (byteAt c.payload 0)).inFlight = 0)) ∧ ((s.ring (byteAt c.payload 0)).closing = false) :=
  ⟨(wcall 0 (bs [1, 0, 0, 0])), (full), by decide⟩

theorem witness_ringCloseWaits : ∃ (c : Call) (s : State),
    (Served cmdRingClose c s) ∧ (MayAccept c s) ∧ ((s.ring (byteAt c.payload 0)).type = .submit) ∧ ((s.ring (byteAt c.payload 0)).inFlight ≠ 0) ∧ ((s.ring (byteAt c.payload 0)).closing = false) :=
  ⟨(wcall 0 (bs [1, 0, 0, 0])), ((full.updRing 1 fun r => { r with inFlight := 1 })), by decide⟩

/-! ### RingCountersAndLoftUpkeep -/

theorem witness_ringTailWrite : ∃ (n : Fin 8) (r : Fin 32) (v : BitVec 32) (s : State),
    (s.powered = true) ∧ (windowOpen s n.val = true) ∧ ((s.ring r).opened = true) ∧ ((s.ring r).owner = n.val) ∧ ((s.ring r).type = .submit) :=
  ⟨(0), (1), (3#32), (full), by decide⟩

theorem witness_ringHeadWrite : ∃ (n : Fin 8) (r : Fin 32) (v : BitVec 32) (s : State),
    (s.powered = true) ∧ (windowOpen s n.val = true) ∧ ((s.ring r).opened = true) ∧ ((s.ring r).owner = n.val) ∧ ((s.ring r).type ≠ .submit) :=
  ⟨(0), (2), (3#32), (full), by decide⟩

theorem witness_ringTailWriteForeign : ∃ (n : Fin 8) (r : Fin 32) (v : BitVec 32) (s : State),
    (s.powered = true) ∧ (windowOpen s n.val = true) ∧ ((s.ring r).opened = true) ∧ ((s.ring r).owner ≠ n.val) :=
  ⟨(1), (1), (3#32), ((full.updTen 1 fun x => { x with state := .ready })), by decide⟩

theorem witness_ringHeadWriteForeign : ∃ (n : Fin 8) (r : Fin 32) (v : BitVec 32) (s : State),
    (s.powered = true) ∧ (windowOpen s n.val = true) ∧ ((s.ring r).opened = true) ∧ ((s.ring r).owner ≠ n.val) :=
  ⟨(1), (1), (3#32), ((full.updTen 1 fun x => { x with state := .ready })), by decide⟩

theorem witness_ringAttention : ∃ (r : Fin 32) (us : Nat) (s : State),
    (Up s) ∧ ((s.ring r).opened = true) ∧ ((s.ring r).type ≠ .submit) ∧ ((s.ring r).waiting ≠ 0) ∧ ((s.ring r).thTimeout ≠ 0) ∧ ((s.ring r).thTimeout ≤ us) :=
  ⟨(2), (7), ((full.updRing 2 fun r => { r with tail := 1, thTimeout := 7 })), by decide⟩

theorem witness_overload : ∃ (n : Fin 8) (s : State),
    (Up s) ∧ (CanRecord s) ∧ ((s.ten n).overloadAt = none) ∧ (refusals (s.ten n) ≠ (s.ten n).overloadBase) :=
  ⟨(0), ((full.updTen 0 fun x => { x with refFrames := 3 })), by decide⟩

theorem witness_patrolScrub : ∃ (i : Nat) (g : Fin 64) (double : Bool) (s : State),
    (Up s) ∧ (CanRecord s) ∧ (poolIndex i = true) ∧ ((s.loft.tag i).alloc = true) ∧ ((s.loft.tag i).owner < 8) ∧ (s.loft.written.contains (i * 64 + g.val) = true) :=
  ⟨(40000), (1), (true), ({ full with loft := { full.loft with written := [2560001] } }), by decide⟩

theorem witness_yealmRetired : ∃ (i : Nat) (pass : Bool) (s : State),
    (Up s) ∧ (CanRecord s) ∧ (s.loft.testing.contains i = true) ∧ (1 < s.loft.spares) :=
  ⟨(50000), (false), ({ full with loft := { full.loft with testing := [50000] } }), by decide⟩

/-! ### SubmissionsRunFromTheirRing -/

theorem witness_submitConsume : ∃ (n : Fin 32) (p : Nat) (d : Bytes) (s : State),
    (Consumable n.val p d s) ∧ (byteAt d 0 = 0) :=
  ⟨(1), (2), (bs [0, 0, 7, 0]), (entry (bs [0, 0, 7, 0])), by decide⟩

theorem witness_submitNop : ∃ (n : Fin 32) (p : Nat) (d : Bytes) (s : State),
    (Consumable n.val p d s) ∧ (byteAt d 0 = 0) :=
  ⟨(1), (2), (bs [0, 0, 7, 0]), (entry (bs [0, 0, 7, 0])), by decide⟩

theorem witness_loftDmaIn : ∃ (n : Fin 32) (p : Nat) (d : Bytes) (s : State),
    (Consumable n.val p d s) ∧ (byteAt d 0 = 1) ∧ (dmaFields s (s.ring n).owner d = true) :=
  ⟨(1), (2), (bs [1, 0, 7, 0, 0, 16, 0, 0, 0, 0, 0, 0, 64, 156, 32, 0, 0, 0, 4, 0]), (entry (bs [1, 0, 7, 0, 0, 16, 0, 0, 0, 0, 0, 0, 64, 156, 32, 0, 0, 0, 4, 0])), by decide⟩

theorem witness_loftDmaOut : ∃ (n : Fin 32) (p : Nat) (d : Bytes) (s : State),
    (Consumable n.val p d s) ∧ (byteAt d 0 = 2) ∧ (dmaFields s (s.ring n).owner d = true) :=
  ⟨(1), (2), (bs [2, 0, 7, 0, 0, 16, 0, 0, 0, 0, 0, 0, 64, 156, 32, 0, 0, 0, 4, 0]), (entry (bs [2, 0, 7, 0, 0, 16, 0, 0, 0, 0, 0, 0, 64, 156, 32, 0, 0, 0, 4, 0])), by decide⟩

theorem witness_dmaCompletion : ∃ (i : Nat) (n : Nat) (p : Nat) (x : Sub) (data : Bytes) (s : State),
    (s.powered = true) ∧ ((s.subs.filter fun x => x.cls == 1 || x.cls == 2)[i]? = some x) ∧ (x.cls = 1) ∧ (x.poisoned = false) ∧ (x.ring = n) ∧ (n < 32) ∧ (p < 32) ∧ ((s.ring n).opened = true) ∧ ((s.ring n).pair = some p) ∧ ((s.ring n).closing = false) ∧ ((s.ring p).log2 ≤ 12) ∧ (poolIndex (hIndex (rd x.desc 12 4)) = true) ∧ (rd x.desc 16 2 + rd x.desc 18 2 ≤ 4096) :=
  ⟨(0), (1), (2), ({ ring := 1, tag := 7, cls := 1, desc := bs [1, 0, 7, 0, 0, 16, 0, 0, 0, 0, 0, 0, 64, 156, 32, 0, 0, 0, 4, 0] }), (bs [5]), ({ full with subs := [{ ring := 1, tag := 7, cls := 1, desc := bs [1, 0, 7, 0, 0, 16, 0, 0, 0, 0, 0, 0, 64, 156, 32, 0, 0, 0, 4, 0] }] }), by decide⟩

/-! ### WindowAccessesReachRegistersAndTheLoft -/

theorem witness_registerWrite : ∃ (n : Fin 8) (k : Fin 64) (v : BitVec 32) (s : State),
    (s.powered = true) ∧ (ownOpen s n.val = true) ∧ ((s.ten n).busy = false) ∧ ((s.ten n).mbReq.length = 256) :=
  ⟨(0), (3), (0x12345678#32), (full), by decide +kernel⟩

theorem witness_registerWriteNowhere : ∃ (n : Fin 8) (off : Nat) (v : BitVec 32) (s : State),
    (off % 4 ≠ 0 ∨ off < 0x400 ∨ 0xC100 ≤ off) :=
  ⟨(0), (8), (1#32), (full), by decide⟩

theorem witness_regWrite : ∃ (k : Fin 64) (data : Bytes) (s : State),
    (s.powered = true) ∧ (ownOpen s (spiTenant s) = true) ∧ ((s.ten (spiTenant s)).busy = false) ∧ ((s.ten (spiTenant s)).mbReq.length = 256) ∧ (data.length = 4) :=
  ⟨(3), (bs [1, 2, 3, 4]), (full), by decide +kernel⟩

theorem witness_regRead : ∃ (addr : Nat) (s : State),
    (s.powered = true) ∧ (s.supply.isl.host = true) ∧ (addr < 65536) ∧ (addr % 4 = 0) ∧ (addr ≠ 0x807C) :=
  ⟨(0x604), (full), by decide⟩

theorem witness_status : ∃ (b : BitVec 8) (s : State),
    (s.powered = true) ∧ (s.supply.isl.host = true) :=
  ⟨(5#8), (full), by decide⟩

theorem witness_loftWrite : ∃ (h : BitVec 32) (off : Nat) (data : Bytes) (s : State),
    (s.powered = true) ∧ (s.supply.isl.host = true) ∧ (spiReaches s h.toNat = true) ∧ (off < 4096) ∧ (off + data.length ≤ 4096) ∧ (data ≠ []) :=
  ⟨(2137152#32), (8), (bs [1, 2]), (full), by decide⟩

theorem witness_loftRead : ∃ (h : BitVec 32) (off : Nat) (len : Nat) (s : State),
    (s.powered = true) ∧ (s.supply.isl.host = true) ∧ (spiReaches s h.toNat = true) ∧ (off < 4096) ∧ (off + len ≤ 4096) :=
  ⟨(2137152#32), (8), (4), (full), by decide⟩

theorem witness_apertureRead : ∃ (n : Fin 8) (off : Nat) (len : Nat) (s : State),
    (s.powered = true) ∧ (s.supply.isl.host = true) ∧ (off % 4096 + len ≤ 4096) ∧ (0 < len) ∧ (reaches s n (off / 4096) = true) :=
  ⟨(0), (163840000), (4), (full), by decide⟩

theorem witness_apertureReadForeign : ∃ (n : Fin 8) (off : Nat) (len : Nat) (s : State),
    (s.powered = true) ∧ (s.supply.isl.host = true) ∧ (off % 4096 + len ≤ 4096) ∧ (0 < len) ∧ (reaches s n (off / 4096) = false) :=
  ⟨(1), (163840000), (4), (full), by decide⟩

theorem witness_apertureWrite : ∃ (n : Fin 8) (off : Nat) (data : Bytes) (s : State),
    (s.powered = true) ∧ (s.supply.isl.host = true) ∧ (off % 4096 + data.length ≤ 4096) ∧ (data ≠ []) ∧ (reaches s n (off / 4096) = true) :=
  ⟨(0), (163840000), (bs [1, 2]), (full), by decide⟩

theorem witness_apertureWriteForeign : ∃ (n : Fin 8) (off : Nat) (data : Bytes) (s : State),
    (s.powered = true) ∧ (s.supply.isl.host = true) ∧ (off % 4096 + data.length ≤ 4096) ∧ (data ≠ []) ∧ (reaches s n (off / 4096) = false) :=
  ⟨(1), (163840000), (bs [1, 2]), (full), by decide⟩

/-! ### ServiceRequestsAnswer -/

theorem witness_sysGetInfo : ∃ (c : Call) (s : State),
    (Served cmdSysGetInfo c s) :=
  ⟨(wcall 0 []), (full), by decide⟩

theorem witness_sysEcho : ∃ (c : Call) (s : State),
    (Served cmdSysEcho c s) :=
  ⟨(wcall 0 (bs [1, 2, 3])), (full), by decide⟩

theorem witness_tenGetStatus : ∃ (c : Call) (n : Nat) (s : State),
    (Served cmdTenGetStatus c s) ∧ (n = namedTenant c.t.val c.payload) :=
  ⟨(wcall 0 (bs [255, 0, 0, 0])), (0), (full), by decide⟩

theorem witness_svcGet : ∃ (c : Call) (s : State),
    (Served cmdSvcGet c s) :=
  ⟨(wcall 0 []), (full), by decide⟩

theorem witness_svcAssign : ∃ (c : Call) (svc : Nat) (o : Nat) (m : Nat) (s : State),
    (Served cmdSvcAssign c s) ∧ (svc = byteAt c.payload 0) ∧ (o = byteAt c.payload 1) ∧ (m = byteAt c.payload 2) ∧ ((svc = 4 → s.isT = false)) ∧ ((s.ten o).state = .ready) ∧ ((∀ k : Fin 8, m.testBit k.val = true → (s.ten k).state = .ready)) ∧ ((svc = 6 → o = 0 ∧ m = 0)) :=
  ⟨(wcall 0 (bs [1, 0, 1, 0])), (1), (0), (1), (full), by decide⟩

theorem witness_tenEnable : ∃ (c : Call) (s : State),
    (Served cmdTenEnable c s) ∧ (byteAt c.payload 1 = 1) ∧ ((s.ten (byteAt c.payload 0)).state = .absent) :=
  ⟨(wcall 0 (bs [1, 1, 0, 0])), (full), by decide⟩

theorem witness_tenFault : ∃ (c : Call) (n : Nat) (s : State),
    (Served cmdTenFault c s) ∧ (Up s) ∧ (CanRecord s) ∧ (n = byteAt c.payload 0) ∧ ((s.ten n).state = .ready) :=
  ⟨(wcall 0 (bs [1, 0, 0, 0])), (1), ((full.updTen 1 fun x => { x with state := .ready })), by decide⟩

/-! ### TenantResetsBeginAndEnd -/

theorem witness_tenResetWrite : ∃ (n : Fin 8) (v : BitVec 32) (s : State),
    (s.powered = true) ∧ (v = 0x5E70#32) ∧ (ownOpen s n.val = true) ∧ ((s.ten n).state = .ready ∨ (s.ten n).state = .faulted) :=
  ⟨(0), (0x5E70#32), (full), by decide⟩

theorem witness_tenResetWriteOther : ∃ (n : Fin 8) (v : BitVec 32) (s : State),
    (v ≠ 0x5E70#32) :=
  ⟨(0), (1#32), (full), by decide⟩

theorem witness_functionLevelReset : ∃ (n : Fin 8) (s : State),
    (s.powered = true) ∧ (s.supply.isl.host = true) ∧ ((s.ten n).state = .ready ∨ (s.ten n).state = .faulted) :=
  ⟨(0), (full), by decide⟩

theorem witness_perstN : ∃ (hot : Bool) (n : Fin 8) (s : State),
    (s.powered = true) ∧ (s.supply.isl.host = true) ∧ ((s.ten n).state = .ready ∨ (s.ten n).state = .faulted) ∧ (n.val ≠ spiTenant s) :=
  ⟨(false), (1), ((full.updTen 1 fun x => { x with state := .ready })), by decide⟩

theorem witness_tenReset : ∃ (c : Call) (n : Nat) (s : State),
    (Served cmdTenReset c s) ∧ (n = namedTenant c.t.val c.payload) ∧ (n = c.t.val) :=
  ⟨(wcall 0 (bs [255, 0, 0, 0])), (0), (full), by decide⟩

theorem witness_tenResetOther : ∃ (c : Call) (n : Nat) (s : State),
    (Served cmdTenReset c s) ∧ (MayAccept c s) ∧ (n = namedTenant c.t.val c.payload) ∧ (n ≠ c.t.val) ∧ ((s.ten n).state ≠ .resetting) :=
  ⟨(wcall 0 (bs [1, 0, 0, 0])), (1), ((full.updTen 1 fun x => { x with state := .ready })), by decide⟩

theorem witness_tenantResetComplete : ∃ (n : Fin 8) (s : State),
    (s.powered = true) ∧ ((s.ten n).state = .resetting) ∧ (workLeft s n = false) :=
  ⟨(0), ((full.updTen 0 fun x => { x with state := .resetting }).updLoft fun l => { l with tags := [] }), by decide⟩

/-! ### DoorbellRunsTheRequestItHolds -/

theorem witness_mbDoorbellBusy : ∃ (n : Fin 8) (spi : Bool) (v : BitVec 32) (s : State),
    (s.powered = true) ∧ (s.supply.isl.host = true) ∧ (mailboxBusy s n.val = true) :=
  ⟨(0), (true), (1#32), ((full.updTen 0 fun x => { x with busy := true })), by decide⟩

/-! ### AsynchronousWorkCompletes -/

theorem witness_asyncCompletion : ∃ (n : Fin 9) (tok : Nat) (r : Nat) (fail : Option Nat) (l : List Int) (j : Job) (s : State),
    (s.powered = true) ∧ (s.campel = true) ∧ (s.supply.holdUp = false) ∧ (s.jobs.find? (fun j => j.tenant == n.val && j.token == tok && !j.waits && j.ended.isNone) = some j) ∧ (j.origin = none) ∧ (j.op ∉ [0x0906, 0x0415, 0x0C22, 0x0483, 0x0485, 0x0488, 0x0489, 0x048A, 0x0C23, 0x0C0A]) ∧ (eventRing s n.val = some r) ∧ ((s.ring r).lost = 0) :=
  ⟨(0), (5), (0), (none), ([]), ({ token := 5, op := 0x0481 }), ({ full with jobs := [{ token := 5, op := 0x0481 }] }), by decide⟩

theorem witness_forwardedRequestTimeout : ∃ (n : Fin 8) (o : Outstanding) (s : State),
    (s.powered = true) ∧ ((s.ten n).outstanding = some o) :=
  ⟨(0), ({ op := 0x0103 }), ((full.updTen 0 fun x => { x with outstanding := some { op := 0x0103 }, busy := true })), by decide⟩

/-! ### InterruptRegistersAct -/

theorem witness_irqRawClear : ∃ (n : Fin 8) (i : Fin 4) (v : BitVec 32) (s : State),
    (s.powered = true) ∧ (windowOpen s n.val = true) :=
  ⟨(0), (1), (3#32), (full), by decide⟩

theorem witness_irqRawSetWins : ∃ (n : Fin 8) (i : Fin 4) (v : BitVec 32) (k : Fin 128) (s : State),
    (Up s) ∧ (windowOpen s n.val = true) ∧ (latches s k.val n.val = true) ∧ ((s.isT && radioSource k.val) = false) :=
  ⟨(0), (1), (3#32), (32), (full), by decide⟩

theorem witness_irqMaskWrite : ∃ (n : Fin 8) (i : Fin 4) (v : BitVec 32) (s : State),
    (s.powered = true) ∧ (windowOpen s n.val = true) :=
  ⟨(0), (1), (3#32), (full), by decide⟩

theorem witness_irqForce : ∃ (n : Fin 8) (i : Fin 4) (v : BitVec 32) (s : State),
    (s.powered = true) ∧ (windowOpen s n.val = true) :=
  ⟨(0), (1), (3#32), (full), by decide⟩

theorem witness_vectorUnmask : ∃ (n : Fin 8) (m : Fin 16) (s : State),
    (s.powered = true) ∧ (windowOpen s n.val = true) :=
  ⟨(0), (2), ((full.updView 0 fun v => { v with msixEnable := true, pba := 4 })), by decide⟩

theorem witness_irqRouteSet : ∃ (c : Call) (n : Nat) (s : State),
    (Served cmdIrqRouteSet c s) ∧ (n = byteAt c.payload 0) :=
  ⟨(wcall 0 (bs [0, 32, 4, 0, 131, 1, 0, 0])), (0), (full), by decide⟩

theorem witness_irqRouteGet : ∃ (c : Call) (s : State),
    (Served cmdIrqRouteGet c s) :=
  ⟨(wcall 0 (bs [0, 32, 4, 0])), (full), by decide⟩

theorem witness_irqGetOwners : ∃ (c : Call) (s : State),
    (Served cmdIrqGetOwners c s) :=
  ⟨(wcall 0 []), (full), by decide⟩

/-! ### TimeRequestsAnswerWithTheTimebase -/

theorem witness_timeGetStatus : ∃ (c : Call) (s : State),
    (Served cmdTimeGetStatus c s) :=
  ⟨(wcall 0 []), (full), by decide⟩

theorem witness_timeGetOffsets : ∃ (c : Call) (s : State),
    (Served cmdTimeGetOffsets c s) :=
  ⟨(wcall 0 []), (full), by decide⟩

theorem witness_timeCadenceGet : ∃ (c : Call) (s : State),
    (Served cmdTimeCadenceGet c s) :=
  ⟨(wcall 0 (bs [3])), (full), by decide⟩

theorem witness_timeSpineCalRead : ∃ (c : Call) (s : State),
    (Served cmdTimeSpineCalRead c s) :=
  ⟨(wcall 0 (bs [1, 3, 0, 0])), (full), by decide⟩

theorem witness_timeRefStatus : ∃ (c : Call) (k : Nat) (s : State),
    (Served cmdTimeRefStatus c s) ∧ (k = byteAt c.payload 0) :=
  ⟨(wcall 0 (bs [2])), (2), (full), by decide⟩

theorem witness_timeTimRead : ∃ (c : Call) (i : Nat) (n : Nat) (s : State),
    (Served cmdTimeTimRead c s) ∧ (i = byteAt c.payload 0) ∧ (n = byteAt c.payload 1) :=
  ⟨(wcall 0 (bs [1, 7])), (1), (7), (full), by decide⟩

theorem witness_timeGnssSend : ∃ (c : Call) (s : State),
    (Served cmdTimeGnssSend c s) :=
  ⟨(wcall 0 (bs [36, 65])), (full), by decide⟩

/-! ### TimeRequestsSetTheTimebase -/

theorem witness_timeRefConfig : ∃ (c : Call) (p : Bytes) (s : State),
    (Served cmdTimeRefConfig c s) ∧ (p = c.payload) :=
  ⟨(wcall 0 (bs [4, 2, 0, 8, 232, 3, 0, 0, 0, 0, 0, 0, 0, 5, 20, 0])), (bs [4, 2, 0, 8, 232, 3, 0, 0, 0, 0, 0, 0, 0, 5, 20, 0]), (full), by decide⟩

theorem witness_timeDpllConfig : ∃ (c : Call) (p : Bytes) (s : State),
    (Served cmdTimeDpllConfig c s) ∧ (p = c.payload) :=
  ⟨(wcall 0 (bs [10, 0, 0, 0, 5, 0, 0, 0, 232, 3, 0, 0, 9, 0, 8, 0, 11, 0, 5, 0, 100, 0, 0, 0])), (bs [10, 0, 0, 0, 5, 0, 0, 0, 232, 3, 0, 0, 9, 0, 8, 0, 11, 0, 5, 0, 100, 0, 0, 0]), (full), by decide⟩

theorem witness_timeOscConfig : ∃ (c : Call) (p : Bytes) (s : State),
    (Served cmdTimeOscConfig c s) ∧ (p = c.payload) :=
  ⟨(wcall 0 (bs [16, 3, 1, 0, 50, 0, 0, 0, 0, 128, 0, 0, 7, 0, 0, 0])), (bs [16, 3, 1, 0, 50, 0, 0, 0, 0, 128, 0, 0, 7, 0, 0, 0]), (full), by decide⟩

theorem witness_timeSelect : ∃ (c : Call) (s : State),
    (Served cmdTimeSelect c s) :=
  ⟨(wcall 0 (bs [2])), (full), by decide⟩

theorem witness_timeSet : ∃ (c : Call) (s : State),
    (Served cmdTimeSet c s) ∧ (Up s) ∧ (classT s.timebase.selected = false) :=
  ⟨(wcall 0 (bs [5, 0, 0, 0, 9, 0, 0, 0, 0, 0])), (full), by decide⟩

theorem witness_timeSetOffsets : ∃ (c : Call) (s : State),
    (Served cmdTimeSetOffsets c s) ∧ (followsUpstream s.timebase = false) ∧ (s.timebase.persistFails = false) ∧ (s.timebase.leap = none) ∧ (s.timebase.localSched = none) :=
  ⟨(wcall 0 (bs [37, 0, 0, 0, 16, 14, 0, 0])), (full), by decide⟩

theorem witness_timeSchedule : ∃ (c : Call) (p : Bytes) (s : State),
    (Served cmdTimeSchedule c s) ∧ (p = c.payload) ∧ (followsUpstream s.timebase = false) ∧ (s.timebase.persistFails = false) ∧ (pendingOf s.timebase (byteAt p 6) = none) ∧ (byteAt p 7 ≠ 0x80) ∧ (schedOk s.timebase p = true) :=
  ⟨(wcall 0 (bs [100, 0, 0, 0, 0, 0, 2, 1, 16, 14, 0, 0, 0, 0, 0, 0])), (bs [100, 0, 0, 0, 0, 0, 2, 1, 16, 14, 0, 0, 0, 0, 0, 0]), (full), by decide⟩

theorem witness_timeScheduleCancel : ∃ (c : Call) (p : Bytes) (x : Sched) (s : State),
    (Served cmdTimeSchedule c s) ∧ (p = c.payload) ∧ (followsUpstream s.timebase = false) ∧ (s.timebase.persistFails = false) ∧ (pendingOf s.timebase (byteAt p 6) = some x) ∧ (s.timebase.now.inNs + 2000000000 ≤ x.instant * 1000000000) ∧ (byteAt p 7 = 0x80) :=
  ⟨(wcall 0 (bs [0, 0, 0, 0, 0, 0, 2, 128, 0, 0, 0, 0, 0, 0, 0, 0])), (bs [0, 0, 0, 0, 0, 0, 2, 128, 0, 0, 0, 0, 0, 0, 0, 0]), ({ instant := 9 }), ({ full with timebase := { full.timebase with localSched := some { instant := 9 } } }), by decide⟩

theorem witness_timeCadenceSet : ∃ (c : Call) (p : Bytes) (s : State),
    (Served cmdTimeCadenceSet c s) ∧ (p = c.payload) :=
  ⟨(wcall 0 (bs [3, 0, 0, 0, 2, 32, 0, 0, 0, 0, 0, 0, 0, 0, 0, 0, 0, 0, 0, 0])), (bs [3, 0, 0, 0, 2, 32, 0, 0, 0, 0, 0, 0, 0, 0, 0, 0, 0, 0, 0, 0]), (full), by decide⟩

theorem witness_timeTimArm : ∃ (c : Call) (p : Bytes) (s : State),
    (Served cmdTimeTimArm c s) ∧ (p = c.payload) :=
  ⟨(wcall 0 (bs [5, 0, 2, 0])), (bs [5, 0, 2, 0]), (full), by decide⟩

/-! ### ReferencesAreMeasuredAndSelected -/

theorem witness_gnssSentence : ∃ (l : Bytes) (ms : Nat) (s : State),
    (s.powered = true) ∧ (nmeaUsed l = true) ∧ (nmeaBody l = none) :=
  ⟨(bs [36, 71, 80, 90, 68, 65, 44]), (20), (full), by decide⟩

theorem witness_gnssFix : ∃ (l : Bytes) (body : Bytes) (ms : Nat) (s : State),
    (s.powered = true) ∧ (nmeaUsed l = true) ∧ (nmeaBody l = some body) ∧ (((commas body).getD 0 []).length = 5) ∧ (byteAt ((commas body).getD 0 []) 0 ≠ 0x50) ∧ (slice ((commas body).getD 0 []) 2 3 = [0x47, 0x47, 0x41]) :=
  ⟨(bs [36, 71, 80, 71, 71, 65, 44, 44, 44, 44, 44, 44, 49, 42, 54, 55, 13, 10]), (bs [71, 80, 71, 71, 65, 44, 44, 44, 44, 44, 44, 49]), (20), (full), by decide⟩

theorem witness_gnssPps : ∃ (err : Int) (s : State),
    (s.powered = true) :=
  ⟨(700), (full), by decide⟩

theorem witness_refPpsEdge : ∃ (k : Fin 3) (err : Int) (s : State),
    (s.powered = true) ∧ ((k ≠ 2 → (s.ref (k.val + 4)).options.testBit 3 = true)) :=
  ⟨(2), (700), (full), by decide⟩

theorem witness_refQualified : ∃ (k : Fin 6) (forS : Nat) (err : Int) (s : State),
    (s.powered = true) ∧ ((s.ref (k.val + 1)).qualified = false) ∧ ((s.ref (k.val + 1)).qualify ≤ forS) ∧ (mayQualify s (k.val + 1) = true) :=
  ⟨(3), (10), (5), (full), by decide⟩

theorem witness_refDisqualified : ∃ (k : Fin 6) (cause : Nat) (s : State),
    (Up s) ∧ ((s.ref (k.val + 1)).qualified = true) ∧ (causeHolds s (k.val + 1) cause = true) :=
  ⟨(3), (1), ({ full with timebase := { full.timebase with refs := full.timebase.refs.set 3 { qualified := true, priority := 4 }, selected := 4 } }), by decide⟩

theorem witness_waitToRestore : ∃ (k : Fin 6) (forS : Nat) (err : Int) (s : State),
    (Up s) ∧ (s.timebase.revertive = true) ∧ (s.timebase.selected ≠ 0) ∧ (offered s (k.val + 1) = true) ∧ (better s (k.val + 1) s.timebase.selected = true) ∧ (s.timebase.wtr ≤ forS) ∧ (bestRef s = k.val + 1) :=
  ⟨(3), (300), (5), ({ full with timebase := { full.timebase with refs := (full.timebase.refs.set 3 { qualified := true, priority := 4 }).set 4 { qualified := true, priority := 5 }, selected := 5 } }), by decide⟩

/-! ### DpllSteersAndChangesState -/

theorem witness_dpllUpdate : ∃ (ph : Int) (s : State),
    (s.powered = true) ∧ ((∀ i ∈ s.timebase.initialCode, i < 2 ^ s.timebase.dacBits)) ∧ (0 < s.timebase.dacBits) :=
  ⟨(5), (full), by decide⟩

theorem witness_dpllLocked : ∃ (ns : Nat) (f : Nat) (ms : Nat) (s : State),
    (s.powered = true) ∧ (s.timebase.dpll = .acquire) ∧ (ns ≤ 100) ∧ (f ≤ 1000) ∧ (10000 ≤ ms) :=
  ⟨(100), (1000), (10000), ({ full with timebase := { full.timebase with dpll := .acquire } }), by decide⟩

theorem witness_dpllPhaseLoss : ∃ (ns : Nat) (ms : Nat) (s : State),
    (s.powered = true) ∧ (s.timebase.dpll = .locked) ∧ (400 < ns) ∧ (1000 ≤ ms) :=
  ⟨(401), (1000), ({ full with timebase := { full.timebase with dpll := .locked } }), by decide⟩

theorem witness_holdoverLimit : ∃ (sec : Nat) (s : State),
    (Up s) ∧ (s.timebase.dpll = .holdover) ∧ (s.timebase.holdLimit ≠ 0) ∧ (s.timebase.holdLimit ≤ sec) ∧ (s.timebase.valid = true) :=
  ⟨(14400), ({ full with timebase := { full.timebase with dpll := .holdover, valid := true } }), by decide⟩

theorem witness_steerLimit : ∃ (ms : Nat) (s : State),
    (Up s) ∧ (1000 ≤ ms) ∧ (s.timebase.steer ≤ 2 ^ s.timebase.dacBits / 64 ∨ 2 ^ s.timebase.dacBits - 1 - 2 ^ s.timebase.dacBits / 64 ≤ s.timebase.steer) :=
  ⟨(1000), ({ full with timebase := { full.timebase with steer := 3 } }), by decide⟩

theorem witness_oscInLoss : ∃ (n : Nat) (s : State),
    (s.powered = true) ∧ (4 ≤ n) ∧ (s.timebase.oscPresent = true) :=
  ⟨(4), (full), by decide⟩

theorem witness_oscInRestored : ∃ (ms : Nat) (s : State),
    (s.powered = true) ∧ (1000 ≤ ms) :=
  ⟨(1000), (full), by decide⟩

/-! ### TimeEventsTakeEffect -/

theorem witness_timeLatch : ∃ (n : Fin 8) (v : BitVec 32) (s : State),
    (s.powered = true) ∧ (windowOpen s n.val = true) ∧ (v.getLsbD 0 = true) :=
  ⟨(0), (1#32), (full), by decide⟩

theorem witness_scheduleInstant : ∃ (x : Sched) (s : State),
    (Up s) ∧ (s.timebase.known = true) ∧ (s.supply.pfail = false) ∧ (s.timebase.leap = some x) ∧ (x.instant ≤ s.timebase.now.sec) ∧ (s.timebase.localSched = none) :=
  ⟨({ instant := 5, value := 38 }), ({ full with timebase := { full.timebase with known := true, now := { sec := 5 }, leap := some { instant := 5, value := 38 } } }), by decide⟩

theorem witness_scheduleWarning : ∃ (x : Sched) (s : State),
    (Up s) ∧ (s.timebase.leap = some x) ∧ (x.warned = false) ∧ (x.instant ≤ s.timebase.now.sec + 86400) ∧ (s.timebase.localSched = none) :=
  ⟨({ instant := 86400 }), ({ full with timebase := { full.timebase with leap := some { instant := 86400 } } }), by decide⟩

theorem witness_spineFrame : ∃ (i : Fin 16) (b : Nat) (s : State),
    (s.powered = true) ∧ (spineOk b = true) ∧ ((vat s.timebase.cal i).lostAt = none) :=
  ⟨(3), (0), (full), by decide +kernel⟩

theorem witness_spineFrameBad : ∃ (i : Fin 16) (b : Nat) (s : State),
    (Up s) ∧ (CanRecord s) ∧ (spineOk b = false) ∧ ((vat s.timebase.cal i).valid = true) ∧ ((vat s.timebase.cal i).bad = 2) ∧ (i ≠ 10) :=
  ⟨(3), (1), ({ full with timebase := { full.timebase with cal := full.timebase.cal.set 3 { valid := true, bad := 2 } } }), by decide +kernel⟩

theorem witness_spineCalibration : ∃ (i : Fin 16) (o : Int) (u : Nat) (r : Bool) (s : State),
    (s.powered = true) :=
  ⟨(3), (5), (7), (false), (full), by decide⟩

theorem witness_spineLoopbackFails : ∃ (o : Int) (u : Nat) (r : Bool) (s : State),
    (Up s) ∧ (CanRecord s) ∧ (s.timebase.loopbackLogged = none) :=
  ⟨(5), (7), (false), (full), by decide⟩

theorem witness_cadenceDescriptorApply : ∃ (o : Fin 8) (d : CadDesc) (sec : Nat) (s : State),
    (s.powered = true) ∧ ((vat s.timebase.cadence o).pending = some (d, sec)) ∧ (sec ≤ s.timebase.now.sec) :=
  ⟨(2), ({ kind := 1, rate := 2 }), (0), ({ full with timebase := { full.timebase with cadence := full.timebase.cadence.set 2 { pending := some ({ kind := 1, rate := 2 }, 0) } } }), by decide⟩

theorem witness_timInEdge : ∃ (i : Fin 4) (fall : Bool) (sec : Nat) (ns : Nat) (frac : Nat) (w : Nat) (s : State),
    (Up s) ∧ ((vat s.timebase.timIn i).mode ≠ 0) ∧ ((vat s.timebase.timIn i).edge = b2n fall) ∧ (4000 ≤ w) ∧ ((vat s.timebase.timIn i).mode = 2 → (vat s.timebase.timIn i).lastNs.any (fun l => decide ((sec * 1000000000 + ns) < l + 1000000)) = false) ∧ ((vat s.timebase.timIn i).queue = []) :=
  ⟨(1), (false), (7), (5), (0), (4000), ({ full with timebase := { full.timebase with timIn := full.timebase.timIn.set 1 { mode := 1 } } }), by decide⟩

/-! ### BootRequestsServe -/

theorem witness_bootGetStatus : ∃ (c : Call) (s : State),
    (Served cmdBootGetStatus c s) ∧ (s.campel = true) :=
  ⟨(wcall 0 []), (full), by decide⟩

theorem witness_bootGetStatusRom : ∃ (c : Call) (s : State),
    (Served cmdBootGetStatus c s) ∧ (s.campel = false) :=
  ⟨(wcall 0 []), (State.reset), by decide⟩

theorem witness_bootOtpRead : ∃ (c : Call) (s : State),
    (Served cmdBootOtpRead c s) :=
  ⟨(wcall 0 (bs [87, 0, 2, 0])), (full), by decide⟩

theorem witness_bootOtpProgram : ∃ (c : Call) (a : Nat) (b : Nat) (s : State),
    (Served cmdBootOtpProgram c s) ∧ (MayAccept c s) ∧ (otpRegion (byteAt c.payload 0) = some (a, b)) ∧ (otpBlank s (byteAt c.payload 0) = true) ∧ (otpBusy s = false) :=
  ⟨(wcall 0 (bs ([6, 0, 0, 0, 1] ++ List.replicate 27 0))), (112), (119), (full), by decide +kernel⟩

theorem witness_bootOtpProgramAgain : ∃ (c : Call) (s : State),
    (Served cmdBootOtpProgram c s) ∧ (otpBlank s (byteAt c.payload 0) = false) :=
  ⟨(wcall 0 (bs ([6, 0, 0, 0, 1] ++ List.replicate 27 0))), ({ full with boot := { full.boot with otp := mset full.boot.otp 112 1 } }), by decide +kernel⟩

theorem witness_bootRollbackCommit : ∃ (c : Call) (h : ImageHeader) (s : State),
    (Served cmdBootRollbackCommit c s) ∧ (MayAccept c s) ∧ (otpBusy s = false) ∧ (s.boot.image = some h) ∧ (rollback s < h.secVersion) :=
  ⟨(wcall 0 []), ({ secVersion := 2 }), ({ full with boot := { full.boot with image := some { secVersion := 2 } } }), by decide +kernel⟩

theorem witness_bootPushDone : ∃ (c : Call) (s : State),
    (Served cmdBootPushDone c s) ∧ (MayAccept c s) ∧ (s.boot.stage = .recovery) ∧ ((policy s).testBit 12 = false) ∧ (inFlight s 0x0C05 = false) ∧ (s.boot.starting = false) :=
  ⟨(wcall 0 (bs [0, 2, 0, 0])), ({ State.reset with boot := { State.reset.boot with stage := .recovery } }), by decide +kernel⟩

theorem witness_bootEpochSet : ∃ (c : Call) (s : State),
    (Served cmdBootEpochSet c s) ∧ (s.boot.epochState ≠ 0) ∧ (highEpoch s < rd c.payload 0 4) ∧ (s.timebase.persistFails = false) :=
  ⟨(wcall 0 (bs [7, 0, 0, 0])), ({ full with boot := { full.boot with epochState := 2 } }), by decide⟩

theorem witness_bootRestart : ∃ (c : Call) (s : State),
    (Served cmdBootRestart c s) :=
  ⟨(wcall 0 (bs [1, 0, 0, 0])), (full), by decide⟩

theorem witness_bootFlashErase : ∃ (c : Call) (o : Nat) (n : Nat) (s : State),
    (Served cmdBootFlashErase c s) ∧ (MayAccept c s) ∧ (s.boot.flashOp = none) ∧ (o = rd c.payload 0 4) ∧ (n = rd c.payload 4 4) :=
  ⟨(wcall 0 (bs [0, 16, 0, 0, 0, 32, 0, 0])), (4096), (8192), (full), by decide⟩

theorem witness_bootFlashEraseBusy : ∃ (c : Call) (s : State),
    (Served cmdBootFlashErase c s) ∧ (s.boot.flashOp.isSome = true) :=
  ⟨(wcall 0 (bs [0, 16, 0, 0, 0, 32, 0, 0])), ({ full with boot := { full.boot with flashOp := some {} } }), by decide⟩

theorem witness_bootFlashWrite : ∃ (c : Call) (o : Nat) (n : Nat) (i : Nat) (s : State),
    (Served cmdBootFlashWrite c s) ∧ (MayAccept c s) ∧ (s.boot.flashOp = none) ∧ (o = rd c.payload 0 4) ∧ (n = rd c.payload 8 2) ∧ (i = hIndex (rd c.payload 4 4)) ∧ (s.loft.poisoned (yAddr i 0) n = false) :=
  ⟨(wcall 0 (bs [0, 16, 0, 0, 64, 156, 32, 0, 16, 0, 0, 0])), (4096), (16), (40000), (full), by decide⟩

theorem witness_bootSlotCheck : ∃ (c : Call) (s : State),
    (Served cmdBootSlotCheck c s) ∧ (MayAccept c s) :=
  ⟨(wcall 0 (bs [1, 0, 0, 0])), (full), by decide⟩

/-! ### BootEventsAdvanceTheBoot -/

theorem witness_bootImageCheck : ∃ (copies : List Bytes) (bad : List (Fin 3)) (k : Nat) (code : Nat) (s : State),
    (s.powered = true) ∧ (s.boot.romDone = true) ∧ (s.boot.stage = .rom) ∧ (s.boot.starting = false) ∧ (s.supply.pfail = false) ∧ (s.boot.source = 0) ∧ (findJob s 0x0C05 0 = none) ∧ (s.boot.tried = []) ∧ (4194304 ≤ s.boot.flashSize) ∧ (k = firstSlot (s.boot.flashSize / 2) (flashRead s 0 256) (flashRead s (s.boot.flashSize / 2) 256)) ∧ (code = imageCode s (s.boot.flashSize / 2) (slotImage s k)) :=
  ⟨([]), ([]), (0), (2), ({ State.reset with boot := { State.reset.boot with romDone := true } }), by decide +kernel⟩

theorem witness_campelStartTimeout : ∃ (ms : Nat) (s : State),
    (s.powered = true) ∧ (s.boot.starting = true) ∧ (100 ≤ ms) ∧ (s.campel = false) :=
  ⟨(100), ({ State.reset with boot := { State.reset.boot with romDone := true, starting := true, slot := 0 } }), by decide⟩

theorem witness_cascadeBootTimeout : ∃ (n : Nat) (s : State),
    (s.powered = true) ∧ (s.boot.romDone = true) ∧ (s.boot.stage = .rom) ∧ (s.boot.source = 3) ∧ (s.boot.starting = false) ∧ (300 ≤ n) :=
  ⟨(300), ({ State.reset with boot := { State.reset.boot with romDone := true, source := 3 } }), by decide⟩

theorem witness_bootComplete : ∃ (s : State),
    (s.powered = true) ∧ (s.boot.starting = true) ∧ (s.supply.pfail = false) ∧ (s.supply.safeCause = 0) ∧ ((s.boot.image.map (·.startMode)).getD 1 ≠ 2) ∧ ((∀ i : Fin 3, (s.spar i).state ≠ .failed)) :=
  ⟨({ State.reset with boot := { State.reset.boot with romDone := true, starting := true, image := some { startMode := 1 } } }), by decide +kernel⟩

theorem witness_otpProgramComplete : ∃ (x : OtpBurn) (s : State),
    (s.powered = true) ∧ (s.boot.burn = some x) ∧ ((x.rows.map (·.1)).Nodup) :=
  ⟨({ region := 6, rows := [(112, 1), (119, 5)] }), ({ full with boot := { full.boot with burn := some { region := 6, rows := [(112, 1), (119, 5)] } } }), by decide⟩

theorem witness_flashOperationComplete : ∃ (x : FlashOp) (s : State),
    (s.powered = true) ∧ (s.boot.flashOp = some x) ∧ (x.op = 0x0C08) :=
  ⟨({ op := 0x0C08, offset := 4096, length := 4096 }), ({ full with boot := { full.boot with flashOp := some { op := 0x0C08, offset := 4096, length := 4096 }, flash := [(4096, 3), (9000, 5)] } }), by decide⟩

/-! ### ResetsAndWakesBeginABoot -/

theorem witness_vinWake : ∃ (vin : Nat) (us : Nat) (fell : Bool) (a : Fin 4) (b : Fin 4) (m : Bool) (s : State),
    (s.supply.power = .guardOnly ∨ s.supply.power = .lockout) ∧ (10500 ≤ vin) ∧ (1000 ≤ us) ∧ (s.supply.resetN = true) :=
  ⟨(10500), (1000), (true), (0), (1), (false), ({ full with supply := { full.supply with power := .guardOnly } }), by decide⟩

theorem witness_vinWakeShelf : ∃ (vin : Nat) (us : Nat) (a : Fin 4) (b : Fin 4) (m : Bool) (s : State),
    (s.supply.power = .shelf) ∧ (s.supply.heldWake = none) ∧ (10500 ≤ vin) ∧ (1000 ≤ us) ∧ (s.supply.resetN = true) :=
  ⟨(10500), (1000), (0), (1), (false), ({ full with supply := { full.supply with power := .shelf } }), by decide⟩

theorem witness_wakeN : ∃ (vin : Nat) (us : Nat) (a : Fin 4) (b : Fin 4) (m : Bool) (s : State),
    (s.supply.power = .shelf) ∧ (10500 ≤ vin) ∧ (1000 ≤ us) ∧ (s.supply.resetN = true) :=
  ⟨(10500), (1000), (0), (1), (true), ({ full with supply := { full.supply with power := .shelf } }), by decide⟩

theorem witness_wakeNHeld : ∃ (vin : Nat) (us : Nat) (a : Fin 4) (b : Fin 4) (m : Bool) (s : State),
    (s.supply.power = .shelf) ∧ (vin < 10500) ∧ (1000 ≤ us) :=
  ⟨(9000), (1000), (0), (1), (true), ({ full with supply := { full.supply with power := .shelf } }), by decide⟩

theorem witness_resetN : ∃ (us : Nat) (s : State),
    (s.powered = true) ∧ (10 ≤ us) ∧ (headsLoaded s = false) :=
  ⟨(10), (ready), by decide⟩

theorem witness_resetNLoaded : ∃ (us : Nat) (s : State),
    (s.powered = true) ∧ (10 ≤ us) ∧ (headsLoaded s = true) :=
  ⟨(10), ({ full with channel := { full.channel with state := .tracking, format := some { heads := 2 } } }), by decide⟩

theorem witness_retractEndReset : ∃ (a : Fin 4) (b : Fin 4) (m : Bool) (k : Nat) (s : State),
    (s.powered = true) ∧ (s.supply.resetNext = some k) ∧ (s.supply.resetN = true) :=
  ⟨(0), (1), (true), (6), ({ full with supply := { full.supply with resetNext := some 6 } }), by decide⟩

theorem witness_resetNRelease : ∃ (a : Fin 4) (b : Fin 4) (m : Bool) (s : State),
    (s.supply.power = .resetHeld) :=
  ⟨(0), (1), (true), ({ full with supply := { full.supply with power := .resetHeld, resetN := false } }), by decide⟩

theorem witness_guardPowerOnReset : ∃ (vin : Nat) (s : State),
    (vin < 2200) :=
  ⟨(2100), (full), by decide⟩

theorem witness_guardResetRelease : ∃ (vin : Nat) (s : State),
    (s.supply.power = .guardReset) ∧ (2500 ≤ vin) :=
  ⟨(2500), ({ full with supply := { full.supply with power := .guardReset } }), by decide⟩

theorem witness_undervoltageLockout : ∃ (v : Nat) (us : Nat) (s : State),
    (s.supply.power = .on ∨ s.supply.power = .resetHeld ∨ s.supply.power = .shelf) ∧ (v < 6000) ∧ (2 ≤ us) :=
  ⟨(5999), (2), (full), by decide⟩

theorem witness_heldWakeRelease : ∃ (tj : Int) (a : Fin 4) (b : Fin 4) (m : Bool) (k : Nat) (s : State),
    (s.supply.power = .tripped) ∧ (s.supply.heldWake = some k) ∧ (tj < 1000) ∧ (s.supply.resetN = true) :=
  ⟨(999), (0), (1), (true), (8), ({ full with supply := { full.supply with power := .tripped, heldWake := some 8 } }), by decide⟩

theorem witness_perstNRelease : ∃ (s : State),
    True :=
  ⟨(full), by decide⟩

theorem witness_peRefclkLoss : ∃ (s : State),
    True :=
  ⟨(full), by decide⟩

theorem witness_peRefclkRestored : ∃ (s : State),
    True :=
  ⟨(full), by decide⟩

/-! ### ModeCommandsChangeTheMode -/

theorem witness_sysSetMode : ∃ (c : Call) (s : State),
    (Served cmdSysSetMode c s) ∧ (MayAccept c s) ∧ (c.t = 0) ∧ (byteAt c.payload 0 = 2) ∧ (s.supply.change = none) ∧ (s.campel = true) ∧ (s.supply.pfail = false) ∧ (s.supply.mode = .keep) :=
  ⟨(wcall 0 (bs [2, 0, 0, 0])), ({ full with supply := { full.supply with mode := .keep, isl := { channel := false } } }), by decide⟩

theorem witness_sysSetModeSame : ∃ (c : Call) (s : State),
    (Served cmdSysSetMode c s) ∧ (c.t = 0) ∧ (byteAt c.payload 0 = s.supply.mode.code) ∧ (byteAt c.payload 0 ≠ 0) ∧ (s.supply.change = none) ∧ (s.campel = true) ∧ (s.supply.pfail = false) :=
  ⟨(wcall 0 (bs [2, 0, 0, 0])), (full), by decide⟩

theorem witness_sysSetModeSafe : ∃ (c : Call) (s : State),
    (Served cmdSysSetMode c s) ∧ (MayAccept c s) ∧ (c.t = 0) ∧ (byteAt c.payload 0 = 3) ∧ (s.supply.change = none) ∧ (s.campel = true) ∧ (s.supply.pfail = false) ∧ (s.supply.mode = .keep) :=
  ⟨(wcall 0 (bs [3, 0, 0, 0])), ({ full with supply := { full.supply with mode := .keep } }), by decide⟩

theorem witness_sysSetModeOther : ∃ (c : Call) (n : Nat) (s : State),
    (Served cmdSysSetMode c s) ∧ (c.t ≠ 0) ∧ (eventRing s 0 = some n) ∧ ((s.ring n).lost = 0) ∧ (canReserve s 0 = true) :=
  ⟨(wcall 1 (bs [1, 0, 0, 0])), (0), (full.updTen 1 fun x => { x with state := .ready }), by decide⟩

theorem witness_sysSupplyConfig : ∃ (c : Call) (s : State),
    (Served cmdSysSupplyConfig c s) :=
  ⟨(wcall 0 (leBytes 2 10000 ++ bs [0, 0])), (full), by decide⟩

theorem witness_sysSupplyStatus : ∃ (c : Call) (s : State),
    (Served cmdSysSupplyStatus c s) :=
  ⟨(wcall 0 []), (full), by decide⟩

theorem witness_shelfStopTimeout : ∃ (n : Nat) (s : State),
    (s.powered = true) ∧ (s.supply.change.any (fun c => c.target == 0) = true) ∧ (30 ≤ n) ∧ (headsLoaded s = false) ∧ (s.motor.a.state = .decel) :=
  ⟨(30), ({ ready with supply := { ready.supply with change := some {} }, motor := { ready.motor with a := { ready.motor.a with state := .decel } } }), by decide⟩

theorem witness_modeChangeComplete : ∃ (k : ModeChange) (s : State),
    (s.powered = true) ∧ (s.supply.safeEntry = none) ∧ (s.supply.change = some k) ∧ (k.target = 2) ∧ (crossingsOpen s = true) :=
  ⟨({ target := 2, fromMode := .keep }), ({ full with supply := { full.supply with mode := .keep, change := some { target := 2, fromMode := .keep }, isl := { channel := false, servo := false, radio := false } } }), by decide⟩

theorem witness_keepReached : ∃ (k : ModeChange) (s : State),
    (s.powered = true) ∧ (s.supply.safeEntry = none) ∧ (s.supply.change = some k) ∧ (k.target = 1) ∧ (diskQuiet s = true) :=
  ⟨({ target := 1, fromMode := .run }), ({ ready with supply := { ready.supply with change := some { target := 1, fromMode := .run } } }), by decide⟩

theorem witness_safeReached : ∃ (m : Mode) (s : State),
    (s.powered = true) ∧ (s.supply.safeEntry = some m) ∧ (diskQuiet s = true) :=
  ⟨(.run), ({ ready with supply := { ready.supply with mode := .safe, safeEntry := some .run } }), by decide⟩

/-! ### PowerFailureIsHeldUpAndClears -/

theorem witness_pfail : ∃ (vin : Nat) (us : Nat) (s : State),
    (Up s) ∧ (vin < s.supply.pfailMv) ∧ (20 ≤ us) ∧ (s.supply.pfail = false) :=
  ⟨(9999), (20), (full), by decide⟩

theorem witness_pfailRom : ∃ (vin : Nat) (us : Nat) (s : State),
    (s.powered = true) ∧ (s.campel = false) ∧ (vin < s.supply.pfailMv) ∧ (20 ≤ us) ∧ (s.supply.pfail = false) :=
  ⟨(9999), (20), (State.reset), by decide⟩

theorem witness_pfailCleared : ∃ (vin : Nat) (ms : Nat) (i : Islands) (s : State),
    (s.powered = true) ∧ (s.campel = true) ∧ (11000 < vin) ∧ (100 ≤ ms) ∧ (s.supply.pfail = true) ∧ (s.supply.holdUp = false) ∧ (s.supply.heldIsl = some i) ∧ (s.supply.sdRefclk = true) :=
  ⟨(11001), (100), ({}), ({ full with supply := { full.supply with pfail := true, pfailN := false, heldIsl := some {} } }), by decide⟩

theorem witness_pfailClearedRom : ∃ (vin : Nat) (ms : Nat) (s : State),
    (s.powered = true) ∧ (s.campel = false) ∧ (11000 < vin) ∧ (100 ≤ ms) ∧ (s.supply.pfail = true) ∧ (s.supply.holdUp = false) ∧ (s.supply.resetN = true) :=
  ⟨(11001), (100), ({ State.reset with supply := { State.reset.supply with pfail := true } }), by decide⟩

theorem witness_sdRefclkLoss : ∃ (p : Bool) (ppm : Int) (s : State),
    (s.powered = true) ∧ (clockBad p ppm = true) ∧ (s.supply.sdRefclk = true) :=
  ⟨(true), (201), (full), by decide⟩

theorem witness_sdRefclkRestored : ∃ (ppm : Int) (s : State),
    (s.powered = true) ∧ (clockBad true ppm = false) ∧ (s.supply.sdRefclk = false) :=
  ⟨(200), ({ full with supply := { full.supply with sdRefclk := false, isl := { channel := false, servo := false } } }), by decide⟩

/-! ### RailsHeatAndTheWatchdogProtect -/

theorem witness_railFault : ∃ (r : Fin 9) (us : Nat) (s : State),
    (Up s) ∧ (5 ≤ r.val) ∧ (10 ≤ us) ∧ (vat s.supply.rails r.val = true) ∧ (s.supply.change = none) :=
  ⟨(7), (10), (full), by decide⟩

theorem witness_railFaultResets : ∃ (r : Fin 9) (us : Nat) (s : State),
    (s.powered = true) ∧ (0 < r.val) ∧ (r.val ≤ 4) ∧ (10 ≤ us) ∧ (vat s.supply.rails r.val = true) ∧ (headsLoaded s = false) ∧ (s.supply.resetN = true) :=
  ⟨(2), (10), (ready), by decide⟩

theorem witness_railRecovered : ∃ (r : Fin 9) (ms : Nat) (s : State),
    (s.powered = true) ∧ (1000 ≤ ms) :=
  ⟨(7), (1000), ({ full with supply := { full.supply with safeCause := 64 } }), by decide⟩

theorem witness_vauxFault : ∃ (five : Bool) (ma : Nat) (ms : Nat) (s : State),
    (Up s) ∧ (CanRecord s) ∧ (10 ≤ ms) ∧ ((if five then 600 else 300) ≤ ma) ∧ ((vauxOf s five).on = true) ∧ (headsLoaded s = false) :=
  ⟨(true), (600), (10), ({ ready with supply := { ready.supply with vaux5 := { on := true } } }), by decide +kernel⟩

theorem witness_vauxRetry : ∃ (five : Bool) (ms : Nat) (s : State),
    (s.powered = true) ∧ (1000 ≤ ms) ∧ ((vauxOf s five).tripped = true) ∧ (s.supply.pfail = false) :=
  ⟨(false), (1000), ({ full with supply := { full.supply with vaux3 := { tripped := true } } }), by decide⟩

theorem witness_thermWarn : ∃ (tj : Int) (n : Nat) (s : State),
    (Up s) ∧ (1000 ≤ tj) ∧ (10 ≤ n) ∧ (s.supply.thermWarn = false) :=
  ⟨(1000), (10), (full), by decide⟩

theorem witness_thermWarnClear : ∃ (tj : Int) (n : Nat) (s : State),
    (s.powered = true) ∧ (tj < 950) ∧ (60 ≤ n) ∧ (s.supply.thermWarn = true) :=
  ⟨(949), (60), ({ full with supply := { full.supply with thermWarn := true } }), by decide⟩

theorem witness_thermCrit : ∃ (tj : Int) (n : Nat) (s : State),
    (Up s) ∧ (1150 ≤ tj) ∧ (10 ≤ n) ∧ (s.supply.thermCrit = false) ∧ (s.supply.change = none) :=
  ⟨(1150), (10), (full), by decide⟩

theorem witness_thermTrip : ∃ (tj : Int) (us : Nat) (s : State),
    (s.powered = true) ∧ (1250 ≤ tj) ∧ (100 ≤ us) ∧ (s.supply.tripping = false) ∧ (headsLoaded s = false) :=
  ⟨(1250), (100), (ready), by decide⟩

theorem witness_millerWatchdog : ∃ (ms : Nat) (s : State),
    (Up s) ∧ (250 ≤ ms) ∧ (s.supply.pfail = false) ∧ ((∀ t ∈ s.supply.wdogAt, t + 3600000000 < s.up)) ∧ (s.supply.change = none) :=
  ⟨(250), (full), by decide⟩

theorem witness_millerWatchdogResets : ∃ (ms : Nat) (s : State),
    (s.powered = true) ∧ (s.campel = true) ∧ (250 ≤ ms) ∧ (s.supply.pfail = false) ∧ (s.supply.resetN = true) :=
  ⟨(250), (full), by decide⟩

/-! ### ChannelAStartsAndLocks -/

theorem witness_alignEnd : ∃ (ms : Nat) (s : State),
    (Up s) ∧ (s.motor.a.state = .align) ∧ (s.motor.a.retryWait = false) ∧ (s.motor.a.cfg.alignMs ≤ ms) :=
  ⟨(300), ({ ready with motor := { full.motor with a := { full.motor.a with state := .align } } }), by decide⟩

theorem witness_zeroCrossing : ∃ (pct : Nat) (d : Bool) (r : Nat) (s : State),
    (Up s) ∧ (s.motor.a.state = .ramp) ∧ (goodCrossing s.motor.a.cfg.blankPct pct d = true) ∧ (s.motor.a.crossed = false) ∧ (overHandoverA s.motor.a r = true) ∧ (11 ≤ s.motor.a.crossings) :=
  ⟨(50), (true), (1000000), ({ ready with motor := { full.motor with a := { full.motor.a with state := .ramp, crossings := 11 } } }), by decide⟩

theorem witness_zeroCrossingSlow : ∃ (pct : Nat) (d : Bool) (r : Nat) (s : State),
    (s.powered = true) ∧ (s.motor.a.state = .ramp) ∧ (goodCrossing s.motor.a.cfg.blankPct pct d = true) ∧ (s.motor.a.crossed = false) ∧ (overHandoverA s.motor.a r = false) :=
  ⟨(50), (true), (1), ({ ready with motor := { full.motor with a := { full.motor.a with state := .ramp, crossings := 11 } } }), by decide⟩

theorem witness_commutationStep : ∃ (r : Nat) (v : Nat) (m : Nat) (s : State),
    (s.powered = true) ∧ (s.motor.a.state ∈ [.ramp, .accel, .atSpeed, .pullIn, .locked]) :=
  ⟨(24000), (500), (700), ({ ready with motor := { full.motor with a := { full.motor.a with state := .locked, step := 6 } } }), by decide⟩

theorem witness_handoverTimeout : ∃ (ms : Nat) (s : State),
    (Up s) ∧ (2000 ≤ ms) ∧ (s.motor.a.state = .ramp) ∧ (s.motor.a.attempts < 2) :=
  ⟨(2000), ({ ready with motor := { full.motor with a := { full.motor.a with state := .ramp } } }), by decide⟩

theorem witness_handoverRetry : ∃ (ms : Nat) (s : State),
    (s.powered = true) ∧ (500 ≤ ms) ∧ (s.motor.a.retryWait = true) :=
  ⟨(500), ({ ready with motor := { full.motor with a := { full.motor.a with state := .align, retryWait := true } } }), by decide⟩

theorem witness_atSpeed : ∃ (v : Nat) (ms : Nat) (s : State),
    (Up s) ∧ (s.motor.a.state = .accel) ∧ (500 ≤ ms) ∧ (nearNominal s.motor.a v = true) :=
  ⟨(120000), (500), ({ ready with motor := { full.motor with a := { full.motor.a with state := .accel } } }), by decide⟩

theorem witness_spinupTimeout : ∃ (n : Nat) (s : State),
    (Up s) ∧ (s.motor.a.state ∈ [.align, .ramp, .accel]) ∧ (s.motor.a.cfg.spinupMax ≤ n) ∧ (headsLoaded s = false) :=
  ⟨(20), ({ ready with motor := { full.motor with a := { full.motor.a with state := .ramp } } }), by decide⟩

theorem witness_servoIndex : ∃ (e : Int) (s : State),
    (s.powered = true) ∧ (s.channel.servoValid = true) ∧ (s.motor.a.state = .pullIn) :=
  ⟨(-1000), ({ full with channel := { full.channel with servoValid := true }, motor := { full.motor with a := { full.motor.a with state := .pullIn, goodRevs := 4 } } }), by decide⟩

theorem witness_servoIndexPullsIn : ∃ (e : Int) (s : State),
    (Up s) ∧ (s.channel.servoValid = true) ∧ (s.motor.a.state = .atSpeed) ∧ (s.motor.a.gen.flags.testBit 0 = true) :=
  ⟨(-1000), ({ full with channel := { full.channel with servoValid := true }, motor := { full.motor with a := { full.motor.a with state := .atSpeed } } }), by decide⟩

theorem witness_genlockLocked : ∃ (s : State),
    (Up s) ∧ (s.motor.a.state = .pullIn) ∧ (64 ≤ s.motor.a.goodRevs) :=
  ⟨({ ready with motor := { full.motor with a := { full.motor.a with state := .pullIn, goodRevs := 64 } } }), by decide⟩

theorem witness_genlockUnlock : ∃ (s : State),
    (Up s) ∧ (s.motor.a.state = .locked) ∧ (8 ≤ s.motor.a.badRevs) :=
  ⟨({ ready with motor := { full.motor with a := { full.motor.a with state := .locked, badRevs := 8 } } }), by decide⟩

/-! ### ChannelAStopsAndFaults -/

theorem witness_decelToBrake : ∃ (v : Nat) (s : State),
    (Up s) ∧ (s.motor.a.state = .decel) ∧ (nearRest s.motor.a v = true) :=
  ⟨(100), ({ ready with motor := { full.motor with a := { full.motor.a with state := .decel } } }), by decide⟩

theorem witness_brakeEnd : ∃ (ms : Nat) (s : State),
    (Up s) ∧ (1000 ≤ ms) ∧ (s.motor.a.state = .brake) ∧ (s.motor.a.autoWait = false) ∧ (s.supply.change = none) :=
  ⟨(1000), ({ ready with motor := { full.motor with a := { full.motor.a with state := .brake, speed := 60 } } }), by decide⟩

theorem witness_regenLimit : ∃ (v : Nat) (s : State),
    (Up s) ∧ (s.motor.a.state = .decel) ∧ (s.motor.a.cfg.regenCeil ≤ v) ∧ (s.motor.a.regenTold = false) :=
  ⟨(13500), ({ ready with motor := { full.motor with a := { full.motor.a with state := .decel } } }), by decide⟩

theorem witness_regenLimitOver : ∃ (v : Nat) (s : State),
    (s.powered = true) ∧ (s.motor.a.state = .decel) ∧ (v < s.motor.a.cfg.regenCeil) :=
  ⟨(13499), ({ ready with motor := { full.motor with a := { full.motor.a with state := .decel, regen := true } } }), by decide⟩

theorem witness_regenClamp : ∃ (v : Nat) (s : State),
    (s.powered = true) ∧ (s.motor.a.state = .decel) ∧ (s.motor.a.clamp = false) ∧ (13800 ≤ v) :=
  ⟨(13800), ({ ready with motor := { full.motor with a := { full.motor.a with state := .decel } } }), by decide⟩

theorem witness_regenResume : ∃ (v : Nat) (s : State),
    (s.powered = true) ∧ (s.motor.a.state = .decel) ∧ (s.motor.a.clamp = true) ∧ (v + 300 < s.motor.a.cfg.regenCeil) :=
  ⟨(13199), ({ ready with motor := { full.motor with a := { full.motor.a with state := .decel, clamp := true } } }), by decide⟩

theorem witness_aOvercurrent : ∃ (ma : Nat) (us : Nat) (s : State),
    (Up s) ∧ (s.motor.a.cfg.phaseOc < ma) ∧ (1 ≤ us) ∧ (s.motor.a.state ∈ [.align, .ramp, .accel, .atSpeed, .pullIn, .locked]) ∧ (headsLoaded s = false) :=
  ⟨(4001), (1), ({ ready with motor := { full.motor with a := { full.motor.a with state := .accel } } }), by decide⟩

theorem witness_aOvercurrentBraking : ∃ (ma : Nat) (us : Nat) (s : State),
    (Up s) ∧ (s.motor.a.cfg.phaseOc < ma) ∧ (1 ≤ us) ∧ (s.motor.a.state = .decel ∨ s.motor.a.state = .harvest) :=
  ⟨(4001), (1), ({ ready with motor := { full.motor with a := { full.motor.a with state := .decel } } }), by decide⟩

theorem witness_aStall : ∃ (n : Nat) (s : State),
    (Up s) ∧ (6 ≤ n) ∧ (s.motor.a.state ∈ [.accel, .atSpeed, .pullIn, .locked]) ∧ (headsLoaded s = false) :=
  ⟨(6), ({ ready with motor := { full.motor with a := { full.motor.a with state := .atSpeed } } }), by decide⟩

/-! ### ChannelBRunsAndRecovers -/

theorem witness_alignEndB : ∃ (ms : Nat) (s : State),
    (s.powered = true) ∧ (s.motor.b.state = .align) ∧ (s.motor.b.retryWait = false) ∧ (s.motor.b.alignMs ≤ ms) :=
  ⟨(300), ({ ready with motor := { full.motor with b := { full.motor.b with configured := true, state := .align } } }), by decide⟩

theorem witness_zeroCrossingB : ∃ (pct : Nat) (d : Bool) (r : Nat) (s : State),
    (s.powered = true) ∧ (s.motor.b.state = .ramp) ∧ (goodCrossing 25 pct d = true) ∧ (s.motor.b.crossed = false) ∧ (overHandoverB s.motor.b r = true) ∧ (11 ≤ s.motor.b.crossings) :=
  ⟨(50), (true), (100000), ({ ready with motor := { full.motor with b := { full.motor.b with configured := true, state := .ramp, crossings := 11 } } }), by decide⟩

theorem witness_commutationStepB : ∃ (r : Nat) (v : Nat) (m : Nat) (s : State),
    (s.powered = true) ∧ (s.motor.b.state ∈ [.ramp, .accel, .running]) :=
  ⟨(24000), (0), (50), ({ ready with motor := { full.motor with b := { full.motor.b with configured := true, state := .accel } } }), by decide⟩

theorem witness_handoverTimeoutB : ∃ (ms : Nat) (s : State),
    (s.powered = true) ∧ (2000 ≤ ms) ∧ (s.motor.b.state = .ramp) ∧ (s.motor.b.attempts < 2) :=
  ⟨(2000), ({ ready with motor := { full.motor with b := { full.motor.b with configured := true, state := .ramp } } }), by decide⟩

theorem witness_handoverRetryB : ∃ (ms : Nat) (s : State),
    (s.powered = true) ∧ (500 ≤ ms) ∧ (s.motor.b.retryWait = true) :=
  ⟨(500), ({ ready with motor := { full.motor with b := { full.motor.b with configured := true, state := .align, retryWait := true } } }), by decide⟩

theorem witness_brakeEndB : ∃ (ms : Nat) (s : State),
    (s.powered = true) ∧ (1000 ≤ ms) ∧ (s.motor.b.state = .brake) ∧ (s.motor.b.configured = true) ∧ (targetB s = 0) ∧ (s.motor.a.autoWait = false) ∧ (s.supply.change = none) :=
  ⟨(1000), ({ ready with motor := { full.motor with b := { full.motor.b with configured := true, state := .brake, command := 0 } } }), by decide⟩

theorem witness_bOvercurrent : ∃ (mv : Nat) (us : Nat) (s : State),
    (Up s) ∧ (activeB s.motor.b = true) ∧ (2 ≤ us) ∧ (s.motor.b.ocMa * s.motor.b.isnsGain + s.motor.b.isnsZero * 1000 < mv * 1000) :=
  ⟨(3000), (2), ({ ready with motor := { full.motor with b := { full.motor.b with configured := true, state := .running } } }), by decide⟩

theorem witness_bStall : ∃ (n : Nat) (s : State),
    (Up s) ∧ (s.motor.b.state = .accel ∨ s.motor.b.state = .running) ∧ (6 ≤ n) :=
  ⟨(6), ({ ready with motor := { full.motor with b := { full.motor.b with configured := true, state := .running, events := [0, 0, 0] } } }), by decide⟩

theorem witness_bRestart : ∃ (ms : Nat) (s : State),
    (s.powered = true) ∧ (1000 ≤ ms) ∧ (s.motor.b.restartWait = true) ∧ (s.motor.b.configured = true) ∧ (targetB s ≠ 0) ∧ (s.motor.b.state = .stopped) ∧ (s.supply.isl.motor = true) ∧ (s.supply.pfail = false) :=
  ⟨(1000), ({ ready with motor := { full.motor with b := { full.motor.b with configured := true, restartWait := true, command := 3000 } } }), by decide⟩

theorem witness_speedCmdUpdate : ∃ (v : Nat) (s : State),
    (s.powered = true) ∧ (s.motor.b.source ≠ 0) ∧ ((∀ t ∈ s.motor.b.cmdAt, t + 10000 ≤ s.up)) ∧ (s.supply.mode = .run) ∧ (s.motor.b.lost = false) ∧ (s.supply.change = none) :=
  ⟨(500), ({ ready with motor := { full.motor with b := { full.motor.b with configured := true, source := 1, inHi := 1000 } } }), by decide⟩

theorem witness_speedCmdLost : ∃ (v : Nat) (e : Nat) (f : Nat) (s : State),
    (Up s) ∧ (s.motor.b.flags.testBit 1 = true) ∧ (s.motor.b.lost = false) ∧ (cmdLoss s.motor.b.source v e f = true) ∧ (s.supply.mode = .run) ∧ (s.supply.change = none) :=
  ⟨(99), (0), (0), ({ ready with motor := { full.motor with b := { full.motor.b with configured := true, source := 1, inHi := 1000 } } }), by decide⟩

theorem witness_speedCmdRestored : ∃ (ms : Nat) (s : State),
    (s.powered = true) ∧ (s.motor.b.lost = true) ∧ (100 ≤ ms) ∧ (s.motor.b.source ≠ 0) ∧ (s.supply.mode = .run) ∧ (s.supply.change = none) :=
  ⟨(100), ({ ready with motor := { full.motor with b := { full.motor.b with configured := true, source := 1, inHi := 1000, lost := true } } }), by decide⟩

/-! ### MotorRequestsServe -/

theorem witness_motAConfig : ∃ (c : Call) (s : State),
    (Served cmdMotAConfig c s) ∧ (aIdle s = true) ∧ (s.timebase.persistFails = false) :=
  ⟨(wcall 0 (bs [4, 3, 32, 3, 44, 1, 30, 0, 88, 2, 10, 0, 208, 7, 160, 15, 232, 3, 188, 52, 20, 0, 25, 0, 150, 0, 20, 0])), (full), by decide +kernel⟩

theorem witness_motAStart : ∃ (c : Call) (s : State),
    (Served cmdMotAStart c s) ∧ (MayAccept c s) ∧ (aIdle s = true) ∧ (setupInForce s = true) :=
  ⟨(wcall 0 []), (full), by decide⟩

theorem witness_motAStop : ∃ (c : Call) (s : State),
    (Served cmdMotAStop c s) ∧ (MayAccept c s) ∧ (byteAt c.payload 0 = 0) ∧ (s.motor.a.state ∈ [.accel, .atSpeed, .pullIn, .locked]) ∧ (headsLoaded s = false) ∧ (findJob s 0x0802 0 = none) :=
  ⟨(wcall 0 (bs [0, 0, 0, 0])), ({ ready with motor := { full.motor with a := { full.motor.a with state := .locked } } }), by decide⟩

theorem witness_motAStopEmergency : ∃ (c : Call) (s : State),
    (Served cmdMotAStop c s) ∧ (MayAccept c s) ∧ (byteAt c.payload 0 = 1) ∧ (s.motor.a.state ∈ [.accel, .atSpeed, .pullIn, .locked]) ∧ (headsLoaded s = false) ∧ (findJob s 0x0802 0 = none) :=
  ⟨(wcall 0 (bs [1, 0, 0, 0])), ({ ready with motor := { full.motor with a := { full.motor.a with state := .locked } } }), by decide⟩

theorem witness_motAGenlock : ∃ (c : Call) (s : State),
    (Served cmdMotAGenlock c s) ∧ (byteAt c.payload 0 = s.motor.a.gen.rate ∨ aIdle s = true) ∧ (s.timebase.persistFails = false) :=
  ⟨(wcall 0 (bs [13, 3, 50, 0, 0, 1, 0, 0, 208, 7, 0, 0])), (full), by decide +kernel⟩

theorem witness_motAStatus : ∃ (c : Call) (s : State),
    (Served cmdMotAStatus c s) :=
  ⟨(wcall 0 []), (full), by decide⟩

theorem witness_motBConfig : ∃ (c : Call) (p : Bytes) (s : State),
    (Served cmdMotBConfig c s) ∧ (p = c.payload) :=
  ⟨(wcall 0 (bs [2, 0, 2, 5, 25, 0, 88, 2, 112, 23, 112, 23, 10, 0, 200, 0, 5, 0, 0, 0, 10, 0, 100, 0, 232, 3, 44, 1])), (bs [2, 0, 2, 5, 25, 0, 88, 2, 112, 23, 112, 23, 10, 0, 200, 0, 5, 0, 0, 0, 10, 0, 100, 0, 232, 3, 44, 1]), (full), by decide⟩

theorem witness_motBSetSpeed : ∃ (c : Call) (s : State),
    (Served cmdMotBSetSpeed c s) ∧ (s.supply.mode = .run ∨ s.supply.mode = .safe) ∧ (s.supply.change = none) :=
  ⟨(wcall 0 (bs [232, 3, 0, 0])), ({ ready with motor := { full.motor with b := { full.motor.b with configured := true, state := .fault } } }), by decide⟩

theorem witness_motBStatus : ∃ (c : Call) (s : State),
    (Served cmdMotBStatus c s) :=
  ⟨(wcall 0 []), (full), by decide⟩

/-! ### SparInstructionsControlTheProgram -/

theorem witness_nop : ∃ (i : Fin 3) (o : Nat) (s : State),
    (SparAt i 0x00 o s) :=
  ⟨(1), (5), (sparred 5), by decide⟩

theorem witness_jump : ∃ (i : Fin 3) (o : Nat) (s : State),
    (SparAt i 0x01 o s) :=
  ⟨(1), (9), (sparred 16777225), by decide⟩

theorem witness_jumpIfInbound : ∃ (i : Fin 3) (o : Nat) (s : State),
    (SparAt i 0x02 o s) :=
  ⟨(1), (9), (sparred 33554441), by decide⟩

theorem witness_waitTick : ∃ (i : Fin 3) (o : Nat) (t : Bool) (s : State),
    (SparAt i 0x03 o s) ∧ (waitTickOf i o s = (none, t)) :=
  ⟨(1), (0), (false), (sparred 50331648), by decide⟩

theorem witness_waitTickStalls : ∃ (i : Fin 3) (o : Nat) (y : Wait) (s : State),
    (SparAt i 0x03 o s) ∧ (waitTickOf i o s = (some y, false)) :=
  ⟨(1), (1000), (.tick 1000), (sparred 50332648), by decide⟩

theorem witness_waitEvent : ∃ (i : Fin 3) (o : Nat) (s : State),
    (SparAt i 0x04 o s) ∧ (fld o 8 16 * 1000 ≤ 10000000) :=
  ⟨(1), (259), (sparred 67109123), by decide⟩

theorem witness_waitEventTimesOut : ∃ (i : Fin 3) (o : Nat) (s : State),
    (SparAt i 0x04 o s) ∧ (10000000 < fld o 8 16 * 1000) :=
  ⟨(1), (5120000), (sparred 72228864), by decide⟩

theorem witness_signal : ∃ (i : Fin 3) (o : Nat) (s : State),
    (SparAt i 0x05 o s) :=
  ⟨(1), (7), (sparred 83886087), by decide⟩

theorem witness_halt : ∃ (i : Fin 3) (o : Nat) (s : State),
    (SparAt i 0x06 o s) :=
  ⟨(1), (0), (sparred 100663296), by decide⟩

theorem witness_loop : ∃ (i : Fin 3) (o : Nat) (s : State),
    (SparAt i 0x07 o s) ∧ (((s.spar i).loopLeft).getD (fld o 10 14) ≠ 0) :=
  ⟨(1), (3074), (sparred 117443586), by decide⟩

theorem witness_loopEnds : ∃ (i : Fin 3) (o : Nat) (s : State),
    (SparAt i 0x07 o s) ∧ (((s.spar i).loopLeft).getD (fld o 10 14) = 0) :=
  ⟨(1), (2), (sparred 117440514), by decide⟩

theorem witness_haltRequest : ∃ (i : Fin 3) (s : State),
    (s.powered = true) ∧ (sparGoes s i = true) ∧ ((s.spar i).fault = none) ∧ ((s.spar i).lines = []) ∧ ((s.spar i).pc < 1024) :=
  ⟨(1), (sparred 0), by decide⟩

theorem witness_bankSwitch : ∃ (i : Fin 3) (b : Fin 2) (p : List (BitVec 32)) (q : List (BitVec 32)) (n : Nat) (s : State),
    (s.powered = true) ∧ (s.campel = true) ∧ (sparPowered s i = true) ∧ ((s.spar i).state = .idle) ∧ (b.val ≠ (s.spar i).bank) :=
  ⟨(1), (1), ([5, 0, 7]), ([3]), (0), ({ full with spars := Vector.replicate 3 { state := .idle } }), by decide⟩

theorem witness_bankSwitchRunning : ∃ (i : Fin 3) (b : Fin 2) (p : List (BitVec 32)) (q : List (BitVec 32)) (n : Nat) (s : State),
    (s.powered = true) ∧ (sparGoes s i = true) ∧ ((s.spar i).fault = none) ∧ ((s.spar i).lines = []) ∧ ((s.spar i).pc < 1024) ∧ (s.campel = true) :=
  ⟨(1), (1), ([5, 0, 7]), ([3]), (0), (sparred 0), by decide⟩

theorem witness_interruptVector : ∃ (i : Fin 3) (l : Fin 6) (d : BitVec 24) (s : State),
    (s.powered = true) ∧ (sparGoes s i = true) ∧ ((s.spar i).fault = none) ∧ ((s.spar i).lines = []) ∧ ((s.spar i).pc < 1024) ∧ ((s.spar i).badDispatch.contains (0xF8 + l.val) = false) ∧ ((s.spar i).plain (0xF8 + l.val) = true) :=
  ⟨(1), (4), (77), (sparred 0), by decide⟩

theorem witness_interruptVectorPends : ∃ (i : Fin 3) (l : Fin 6) (d : BitVec 24) (s : State),
    (s.powered = true) ∧ ((s.spar i).state = .running) ∧ (sparPowered s i = true) ∧ ((s.spar i).stall.isSome = true) :=
  ⟨(1), (4), (77), ({ full with spars := Vector.replicate 3 { state := .running, stall := some { wait := .tick 5 } } }), by decide⟩

theorem witness_twaitRelease : ∃ (i : Fin 3) (tk : BitVec 32) (y : Stall) (t : Nat) (s : State),
    (s.powered = true) ∧ (sparPowered s i = true) ∧ ((s.spar i).stall = some y) ∧ (y.atEnd = true) ∧ ((s.spar i).fault = none) ∧ ((s.spar i).lines = []) ∧ (y.next < 1024) ∧ (y.wait = .tick t) ∧ (0 ≤ tickDiff tk.toNat t) :=
  ⟨(1), (9), ({ wait := .tick 9, atEnd := true, next := 4 }), (9), ({ full with spars := Vector.replicate 3 { state := .running, stall := some { wait := .tick 9, atEnd := true, next := 4 } } }), by decide⟩

theorem witness_ewaitRelease : ∃ (i : Fin 3) (e : BitVec 8) (tk : BitVec 32) (y : Stall) (m : Nat) (t : Nat) (s : State),
    (s.powered = true) ∧ (sparPowered s i = true) ∧ ((s.spar i).stall = some y) ∧ (y.atEnd = true) ∧ ((s.spar i).fault = none) ∧ ((s.spar i).lines = []) ∧ (y.next < 1024) ∧ (y.wait = .event m t) ∧ (e.toNat &&& m ≠ 0) :=
  ⟨(1), (2), (0), ({ wait := .event 3 9, atEnd := true, next := 4 }), (3), (9), ({ full with spars := Vector.replicate 3 { state := .running, stall := some { wait := .event 3 9, atEnd := true, next := 4 } } }), by decide⟩

theorem witness_ewaitReleaseTimesOut : ∃ (i : Fin 3) (e : BitVec 8) (tk : BitVec 32) (y : Stall) (m : Nat) (t : Nat) (s : State),
    (s.powered = true) ∧ (sparPowered s i = true) ∧ ((s.spar i).stall = some y) ∧ (y.atEnd = true) ∧ ((s.spar i).fault = none) ∧ ((s.spar i).lines = []) ∧ (y.next < 1024) ∧ (y.wait = .event m t) ∧ (e.toNat &&& m = 0) ∧ (0 ≤ tickDiff tk.toNat t) :=
  ⟨(1), (4), (9), ({ wait := .event 3 9, atEnd := true, next := 4 }), (3), (9), ({ full with spars := Vector.replicate 3 { state := .running, stall := some { wait := .event 3 9, atEnd := true, next := 4 } } }), by decide⟩

/-! ### FormatterAndCadenceInstructionsArm -/

theorem witness_wedgeSync : ∃ (o : Nat) (s : State),
    (SparAt 0 0x20 o s) ∧ (s.channel.wedge = o % 512) ∧ (s.channel.wedgeMissed = false) :=
  ⟨(3), ({ sparred 536870915 with channel := { full.channel with wedge := 3 } }), by decide⟩

theorem witness_headSelect : ∃ (o : Nat) (s : State),
    (SparAt 0 0x21 o s) :=
  ⟨(3), (sparred 553648131), by decide⟩

theorem witness_seekStart : ∃ (o : Nat) (s : State),
    (SparAt 0 0x22 o s) ∧ (headsLoaded s = true) :=
  ⟨(500), (sparred 570425844), by decide⟩

theorem witness_settleCheck : ∃ (o : Nat) (s : State),
    (SparAt 0 0x23 o s) ∧ (o % 256 ≤ s.channel.onRead) :=
  ⟨(3), ({ sparred 587202563 with channel := { full.channel with onRead := 3 } }), by decide⟩

theorem witness_writeSector : ∃ (o : Nat) (r : BitVec 32) (f : BitVec 32) (s : State),
    (SparAt 0 0x24 o s) ∧ ((s.spar 0).actions.length ≤ 12) ∧ ((s.timebase.now.frac : Int) ≤ tickDiff (r.toNat) s.tickNow * 65536) ∧ ((s.timebase.now.frac : Int) ≤ tickDiff (f.toNat) s.tickNow * 65536) ∧ ((s.timebase.now.frac : Int) ≤ tickDiff (r.toNat + verifyDelayAt s) s.tickNow * 65536) ∧ ((s.timebase.now.frac : Int) ≤ tickDiff (f.toNat + verifyDelayAt s) s.tickNow * 65536) :=
  ⟨(1024), (100), (200), (sparred 603980800), by decide⟩

theorem witness_readSector : ∃ (o : Nat) (r : BitVec 32) (f : BitVec 32) (s : State),
    (SparAt 0 0x25 o s) ∧ ((s.spar 0).actions.length ≤ 14) ∧ ((s.timebase.now.frac : Int) ≤ tickDiff (r.toNat) s.tickNow * 65536) ∧ ((s.timebase.now.frac : Int) ≤ tickDiff (f.toNat) s.tickNow * 65536) :=
  ⟨(1024), (100), (200), (sparred 620758016), by decide⟩

theorem witness_verifySector : ∃ (o : Nat) (r : BitVec 32) (f : BitVec 32) (s : State),
    (SparAt 0 0x26 o s) ∧ ((s.spar 0).actions.length ≤ 14) ∧ ((s.timebase.now.frac : Int) ≤ tickDiff (r.toNat) s.tickNow * 65536) ∧ ((s.timebase.now.frac : Int) ≤ tickDiff (f.toNat) s.tickNow * 65536) :=
  ⟨(1024), (100), (200), (sparred 637535232), by decide⟩

theorem witness_skipDefect : ∃ (o : Nat) (s : State),
    (SparAt 0 0x27 o s) :=
  ⟨(3), (sparred 654311427), by decide⟩

theorem witness_edgePlan : ∃ (o : Nat) (d : CadDesc) (j : Int) (u : Int) (v : Int) (s : State),
    (SparAt 1 0x40 o s) ∧ (d = (vat s.timebase.cadence (o % 8)).desc) ∧ (cadenceLive s (o % 8) = true) ∧ (d.kind ≠ 4) ∧ ((s.spar 1).actions = []) ∧ (frameIndex d (now125 s) ≤ j) ∧ (j < frameIndex d (now125 s) + 4) ∧ (now125 s < edgeAt d (2 * j) ∧ ((vat s.timebase.cadence (o % 8)).lastEdge : Int) + edgeAt { d with phase := 0 } 1 ≤ edgeAt d (2 * j)) ∧ (∀ n : Fin 4, frameIndex d (now125 s) + n.val < j → ¬ (now125 s < edgeAt d (2 * (frameIndex d (now125 s) + n.val)) ∧ ((vat s.timebase.cadence (o % 8)).lastEdge : Int) + edgeAt { d with phase := 0 } 1 ≤ edgeAt d (2 * (frameIndex d (now125 s) + n.val)))) ∧ (u = edgeAt d (2 * j)) ∧ (v = (if d.width = 0 ∨ d.kind = 2 then edgeAt d (2 * j + 1) else u + d.width)) ∧ ((s.timebase.now.frac : Int) ≤ tickDiff (u / 8 % 2 ^ 32).toNat s.tickNow * 65536 + ((u % 8).toNat * 8192 : Nat)) ∧ ((s.timebase.now.frac : Int) ≤ tickDiff (v / 8 % 2 ^ 32).toNat s.tickNow * 65536 + ((v % 8).toNat * 8192 : Nat)) :=
  ⟨(2), ({ kind := 1, rate := 2 }), (1), (333333333), (500000000), ({ sparred 1073741826 with timebase := { full.timebase with cadence := full.timebase.cadence.set 2 { desc := { kind := 1, rate := 2 } } } }), by decide⟩

theorem witness_ltcFrame : ∃ (o : Nat) (s : State),
    (SparAt 1 0x41 o s) ∧ ((vat s.timebase.cadence (o % 8)).desc.kind = 4) :=
  ⟨(2), ({ sparred 1090519042 with timebase := { full.timebase with cadence := full.timebase.cadence.set 2 { desc := { kind := 4, rate := 3 } } } }), by decide⟩

theorem witness_ptpSyncLaunch : ∃ (o : Nat) (s : State),
    (SparAt 1 0x42 o s) ∧ (o % 8 < 6) ∧ ((s.spar 1).actions.length ≤ 15) ∧ (groupServed s 0 (fld o 3 13) = true) ∧ ((s.timebase.now.frac : Int) ≤ tickDiff (nextLaunch s true (fld o 3 13)) s.tickNow * 65536) :=
  ⟨(0), ({ sparred 1107296256 with timebase := { full.timebase with valid := true }, net := { full.net with ptp := full.net.ptp.set 0 { mode := 2, state := .master }, followers := [(0, { sync := some {}, announce := some {} })] } }), by decide⟩

theorem witness_ptpFollowUp : ∃ (o : Nat) (s : State),
    (SparAt 1 0x43 o s) ∧ (o % 8 < 6) ∧ ((s.spar 1).actions.length ≤ 15) :=
  ⟨(2), (sparred 1124073474), by decide⟩

theorem witness_ptpAnnounce : ∃ (o : Nat) (s : State),
    (SparAt 1 0x44 o s) ∧ (o % 8 < 6) ∧ ((s.spar 1).actions.length ≤ 15) ∧ (groupServed s 0x0B (fld o 3 13) = true) ∧ ((s.timebase.now.frac : Int) ≤ tickDiff (nextLaunch s false (fld o 3 13)) s.tickNow * 65536) :=
  ⟨(0), ({ sparred 1140850688 with timebase := { full.timebase with valid := true }, net := { full.net with ptp := full.net.ptp.set 0 { mode := 2, state := .master }, followers := [(0, { sync := some {}, announce := some {} })] } }), by decide⟩

theorem witness_schedAction : ∃ (k : Fin 16) (tk : BitVec 32) (a : Action) (s : State),
    (s.powered = true) ∧ ((s.spar 0).actions[k.val]? = some a) ∧ (sparPowered s 0 = true) ∧ (0 ≤ tickDiff tk.toNat a.tick) ∧ (a.unit = 2) ∧ (a.action = 1) ∧ (s.channel.writeOk = true) ∧ (s.channel.wgBlocked = false) ∧ (s.channel.flt = false) ∧ (s.supply.mode = .run) ∧ (headsLoaded s = true) :=
  ⟨(0), (9), ({ unit := 2, action := 1, tick := 9 }), ({ full with spars := full.spars.set 0 { state := .running, actions := [{ unit := 2, action := 1, tick := 9 }] }, channel := { full.channel with writeOk := true } }), by decide⟩

theorem witness_schedActionHeld : ∃ (k : Fin 16) (tk : BitVec 32) (a : Action) (s : State),
    (s.powered = true) ∧ ((s.spar 0).actions[k.val]? = some a) ∧ (sparPowered s 0 = true) ∧ (0 ≤ tickDiff tk.toNat a.tick) ∧ (a.unit = 2) ∧ (a.action = 1) ∧ (s.channel.writeOk = false) :=
  ⟨(0), (9), ({ unit := 2, action := 1, tick := 9 }), ({ full with spars := full.spars.set 0 { state := .running, actions := [{ unit := 2, action := 1, tick := 9 }] } }), by decide⟩

theorem witness_schedActionEdge : ∃ (k : Fin 16) (tk : BitVec 32) (a : Action) (s : State),
    (s.powered = true) ∧ ((s.spar 1).actions[k.val]? = some a) ∧ (sparPowered s 1 = true) ∧ (0 ≤ tickDiff tk.toNat a.tick) ∧ (8 ≤ a.unit) ∧ (a.unit < 16) ∧ (cadenceLive s (a.unit - 8) = true) ∧ (a.action = 1 ∨ a.action = 2) :=
  ⟨(0), (9), ({ unit := 10, action := 1, tick := 9 }), ({ full with spars := full.spars.set 1 { state := .running, actions := [{ unit := 10, action := 1, tick := 9 }] }, timebase := { full.timebase with cadence := full.timebase.cadence.set 2 { desc := { kind := 1, rate := 2 } } } }), by decide⟩

theorem witness_schedActionGate : ∃ (k : Fin 16) (tk : BitVec 32) (a : Action) (s : State),
    (s.powered = true) ∧ ((s.spar 2).actions[k.val]? = some a) ∧ (sparPowered s 2 = true) ∧ (0 ≤ tickDiff tk.toNat a.tick) ∧ (0x20 ≤ a.unit) ∧ (a.unit < 0x24) ∧ (radioRuns s = true) ∧ ((s.bandOf (a.unit - 0x20)).flags.testBit 0 = true) ∧ ((s.bandOf (a.unit - 0x20)).state ≠ .off) ∧ ((s.bandOf (a.unit - 0x20)).state ≠ .fault) ∧ (a.action = 1 ∨ a.action = 2) :=
  ⟨(0), (9), ({ unit := 0x21, action := 1, tick := 9 }), ({ full with spars := full.spars.set 2 { state := .running, actions := [{ unit := 0x21, action := 1, tick := 9 }] }, radio := { full.radio with band := full.radio.band.set 1 { flags := 1, state := .standby } } }), by decide⟩

/-! ### RadioInstructionsAndSparRequestsAct -/

theorem witness_bandState : ∃ (o : Nat) (s : State),
    (SparAt 2 0x60 o s) ∧ (radioRuns s = true) ∧ (fld o 4 4 = 0) :=
  ⟨(1), ({ sparred 1610612737 with radio := { full.radio with guardMute := false, modeMute := false, band := full.radio.band.set 1 { state := .active } } }), by decide⟩

theorem witness_bandStateActive : ∃ (o : Nat) (s : State),
    (SparAt 2 0x60 o s) ∧ (radioRuns s = true) ∧ (fld o 4 4 = 3) ∧ ((s.bandOf (o % 4)).state = .standby) :=
  ⟨(49), ({ sparred 1610612785 with radio := { full.radio with guardMute := false, modeMute := false, band := full.radio.band.set 1 { state := .standby } } }), by decide⟩

theorem witness_synthHop : ∃ (o : Nat) (s : State),
    (SparAt 2 0x61 o s) ∧ (radioRuns s = true) ∧ ((s.bandOf (o % 4)).state = .standby ∨ (s.bandOf (o % 4)).state = .active) :=
  ⟨(21), ({ sparred 1627389973 with radio := { full.radio with guardMute := false, modeMute := false, band := full.radio.band.set 1 { state := .standby } } }), by decide⟩

theorem witness_tddStep : ∃ (t : Int) (d : Nat) (o : Nat) (s : State),
    (SparAt 2 0x62 o s) ∧ (radioRuns s = true) ∧ ((s.bandOf (o % 4)).flags.testBit 0 = true) ∧ ((s.bandOf (o % 4)).state ≠ .off) ∧ ((s.bandOf (o % 4)).state ≠ .fault) ∧ ((s.bandOf (o % 4)).causes.testBit 3 = false) ∧ (wholeCause s.radio = false) ∧ (s.radio.guardMute = false) ∧ (nextTrans s (o % 4) = some (t, d)) ∧ (d ≠ 3) ∧ ((s.spar 2).actions.length ≤ 13) ∧ ((s.timebase.now.frac : Int) ≤ tickDiff ((t) % 2 ^ 32).toNat s.tickNow * 65536) ∧ ((s.timebase.now.frac : Int) ≤ tickDiff ((t - 2000) % 2 ^ 32).toNat s.tickNow * 65536) ∧ ((s.timebase.now.frac : Int) ≤ tickDiff ((t + 2000) % 2 ^ 32).toNat s.tickNow * 65536) :=
  ⟨(5000000), (1), (1), ({ sparred 1644167169 with radio := { full.radio with guardMute := false, modeMute := false, band := full.radio.band.set 1 { flags := 1, state := .standby, tdd := some { trans := [(0, 1)] } } } }), by decide⟩

theorem witness_powerStep : ∃ (o : Nat) (s : State),
    (SparAt 2 0x63 o s) ∧ (radioRuns s = true) :=
  ⟨(58), ({ sparred 1660944442 with radio := { full.radio with guardMute := false, modeMute := false, path := full.radio.path.set 2 { ceiling := some 5 } } }), by decide⟩

theorem witness_ditherChip : ∃ (o : Nat) (s : State),
    (SparAt 2 0x64 o s) ∧ (radioRuns s = true) ∧ ((s.pathOf (o % 8)).muted = false) :=
  ⟨(2), ({ sparred 1677721602 with radio := { full.radio with guardMute := false, modeMute := false, path := full.radio.path.set 2 { muted := false } } }), by decide⟩

theorem witness_detSample : ∃ (codes : Vector (BitVec 12) 8) (o : Nat) (s : State),
    (SparAt 2 0x65 o s) ∧ (radioRuns s = true) :=
  ⟨(Vector.replicate 8 77), (4), ({ sparred 1694498820 with radio := { full.radio with guardMute := false, modeMute := false, killed := false } }), by decide⟩

theorem witness_rfspiXfer : ∃ (o : Nat) (s : State),
    (SparAt 2 0x66 o s) ∧ (radioRuns s = true) ∧ (o % 16 < 4) ∧ (s.radio.rfNow = none) ∧ (s.radio.frames = []) :=
  ⟨(50), ({ sparred 1711276082 with radio := { full.radio with guardMute := false, modeMute := false, killed := false } }), by decide⟩

theorem witness_sparGetVersion : ∃ (c : Call) (s : State),
    (Served cmdSparGetVersion c s) :=
  ⟨(wcall 0 []), (full), by decide⟩

theorem witness_sparGetStatus : ∃ (c : Call) (x : Spar) (s : State),
    (Served cmdSparGetStatus c s) ∧ (sparAbsent s (byteAt c.payload 0) = false) ∧ (x = s.spar (byteAt c.payload 0)) :=
  ⟨(wcall 0 (bs [1, 0, 0, 0])), ({}), (full), by decide⟩

theorem witness_sparReload : ∃ (c : Call) (i : Nat) (s : State),
    (Served cmdSparReload c s) ∧ (MayAccept c s) ∧ (i = byteAt c.payload 0) ∧ (sparAbsent s i = false) ∧ ((s.spar i).state = .haltedMc) ∧ ((s.spar i).reloading = false) :=
  ⟨(wcall 0 (bs [1, 0, 0, 0])), (1), ({ full with supply := { full.supply with mode := .safe }, spars := Vector.replicate 3 { state := .haltedMc } }), by decide⟩

theorem witness_sparReloadFailed : ∃ (c : Call) (i : Nat) (s : State),
    (Served cmdSparReload c s) ∧ (i = byteAt c.payload 0) ∧ (sparAbsent s i = false) ∧ ((s.spar i).state = .failed) :=
  ⟨(wcall 0 (bs [1, 0, 0, 0])), (1), ({ full with supply := { full.supply with mode := .safe }, spars := Vector.replicate 3 { state := .failed } }), by decide⟩

theorem witness_sparPatchCheck : ∃ (c : Call) (s : State),
    (Served cmdSparPatchCheck c s) ∧ (MayAccept c s) ∧ ((∀ i : Fin 3, (s.spar i).reloading = false)) :=
  ⟨(wcall 0 (bs [1, 1, 0, 0, 64, 156, 32, 0])), (full), by decide⟩

/-! ### FramesAreCheckedAndDelivered -/

theorem witness_frameBadFcs : ∃ (p : Fin 6) (data : Bytes) (sec : Nat) (ns : Nat) (frac : Nat) (s : State),
    (PortUp p s) ∧ (rxBytes (s.port p) + data.length + 4 ≤ 65536) :=
  ⟨(0), (List.replicate 6 255#8 ++ List.replicate 54 0#8), (1), (2), (3), (full), by decide⟩

theorem witness_frameReceived : ∃ (p : Fin 6) (data : Bytes) (sec : Nat) (ns : Nat) (frac : Nat) (i : Nat) (fl : Flow) (s : State),
    (PortUp p s) ∧ (rxBytes (s.port p) + data.length + 4 ≤ 65536) ∧ (60 ≤ data.length) ∧ (data.length + 4 ≤ (s.port p).maxFrame) ∧ (macAccepts s p data = true) ∧ (rdBe data 12 2 ≠ 0x8808) ∧ ((s.port p).held = none) ∧ (classify s p data = (i, fl)) ∧ (data.length ≤ 4096) ∧ (sec < 2 ^ 48) ∧ (ns < 1000000000) ∧ (frac < 65536) ∧ (fl.action = 1) ∧ ((s.ring fl.ring).opened = true) ∧ ((s.ring fl.ring).type = .rxframe) ∧ ((s.ring fl.ring).owner = s.owner 1) ∧ ((s.ring fl.ring).room ≠ 0) ∧ ((s.ring fl.ring).log2 ≤ 12) ∧ ((s.ten (s.owner 1)).held < (s.ten (s.owner 1)).ingress) ∧ ((s.ten (s.owner 1)).held + 1 ≤ (s.ten (s.owner 1)).quota) ∧ (s.loft.tags.length + s.loft.gone.length + s.loft.testing.length + 1 < 2064384) ∧ (s.loft.tags.all (fun p => decide (p.2.gen < 256)) = true) ∧ (s.owner 1 < 8) :=
  ⟨(0), (List.replicate 6 255#8 ++ List.replicate 54 0#8), (1), (2), (3), (0xFFFF), ({ action := 1, ring := 3 }), ({ ready with rings := full.rings.set 3 { opened := true, owner := 0, type := .rxframe, log2 := 4 }, loft := full.loft, net := { full.net with port := full.net.port.set 0 { full.port 0 with defaultRing := 3 } } }), by decide +kernel⟩

theorem witness_frameDropped : ∃ (p : Fin 6) (data : Bytes) (sec : Nat) (ns : Nat) (frac : Nat) (i : Nat) (fl : Flow) (s : State),
    (PortUp p s) ∧ (rxBytes (s.port p) + data.length + 4 ≤ 65536) ∧ (60 ≤ data.length) ∧ (data.length + 4 ≤ (s.port p).maxFrame) ∧ (macAccepts s p data = true) ∧ (rdBe data 12 2 ≠ 0x8808) ∧ ((s.port p).held = none) ∧ (classify s p data = (i, fl)) ∧ (fl.action = 0) :=
  ⟨(0), (List.replicate 6 255#8 ++ List.replicate 54 0#8), (1), (2), (3), (0xFFFF), ({ action := 0, ring := 3 }), ({ ready with rings := full.rings.set 3 { opened := true, owner := 0, type := .rxframe, log2 := 4 }, loft := full.loft, net := { full.net with port := full.net.port.set 0 { full.port 0 with defaultRing := 3, flags := 128 } } }), by decide +kernel⟩

theorem witness_xoffRepeat : ∃ (p : Fin 6) (n : Nat) (s : State),
    (s.powered = true) ∧ (portRuns s p = true) ∧ (portFlag s p 0 = true) ∧ ((s.port p).xoff = true) ∧ (xoffStands s p = true) ∧ (halfPause s p ≤ n) :=
  ⟨(0), (10000000), ({ full with net := { full.net with port := full.net.port.set 0 { full.port 0 with flags := 1, xoff := true, held := some {} } } }), by decide⟩

theorem witness_xon : ∃ (p : Fin 6) (s : State),
    (s.powered = true) ∧ (portRuns s p = true) ∧ ((s.port p).xoff = true) ∧ ((s.port p).held = none) ∧ (rxBytes (s.port p) < 16384) :=
  ⟨(0), ({ full with net := { full.net with port := full.net.port.set 0 { full.port 0 with xoff := true } } }), by decide⟩

theorem witness_heldFrameAdmit : ∃ (p : Fin 6) (f : RxFrame) (i : Nat) (fl : Flow) (s : State),
    (s.powered = true) ∧ (portRuns s p = true) ∧ ((s.port p).held = some { frame := f, index := i, flow := fl }) ∧ ((s.port p).rxq = []) ∧ (f.data.length ≤ 4096) ∧ (0 < f.data.length) ∧ (fl.action = 1) ∧ ((s.ring fl.ring).opened = true) ∧ ((s.ring fl.ring).type = .rxframe) ∧ ((s.ring fl.ring).owner = s.owner 1) ∧ ((s.ring fl.ring).room ≠ 0) ∧ ((s.ring fl.ring).log2 ≤ 12) ∧ ((s.ten (s.owner 1)).held < (s.ten (s.owner 1)).ingress) ∧ ((s.ten (s.owner 1)).held + 1 ≤ (s.ten (s.owner 1)).quota) ∧ (s.loft.tags.length + s.loft.gone.length + s.loft.testing.length + 1 < 2064384) ∧ (s.loft.tags.all (fun p => decide (p.2.gen < 256)) = true) ∧ (s.owner 1 < 8) :=
  ⟨(0), ({ data := [5] }), (0xFFFF), ({ action := 1, ring := 3 }), ({ ready with rings := full.rings.set 3 { opened := true, owner := 0, type := .rxframe, log2 := 4 }, loft := full.loft, net := { full.net with port := full.net.port.set 0 { full.port 0 with defaultRing := 3, held := some { frame := { data := [5] }, index := 0xFFFF, flow := { action := 1, ring := 3 } } } } }), by decide +kernel⟩

theorem witness_heldFrameTimeout : ∃ (p : Fin 6) (us : Nat) (f : RxFrame) (i : Nat) (fl : Flow) (s : State),
    (s.powered = true) ∧ (portRuns s p = true) ∧ (1000 ≤ us) ∧ ((s.port p).held = some { frame := f, index := i, flow := fl }) ∧ ((s.port p).rxq = []) ∧ (fl.action = 1) ∧ (s.owner 1 < 8) :=
  ⟨(0), (1000), ({ data := [5] }), (0xFFFF), ({ action := 1, ring := 3 }), ({ ready with rings := full.rings.set 3 { opened := true, owner := 0, type := .rxframe, log2 := 4 }, loft := full.loft, net := { full.net with port := full.net.port.set 0 { full.port 0 with defaultRing := 3, held := some { frame := { data := [5] }, index := 0xFFFF, flow := { action := 1, ring := 3 } } } } }), by decide⟩

theorem witness_pauseReceived : ∃ (p : Fin 6) (q : BitVec 16) (s : State),
    (PortUp p s) ∧ (q.toNat ≠ 0) :=
  ⟨(0), (5), (full), by decide⟩

theorem witness_pauseEnd : ∃ (p : Fin 6) (ns : Nat) (q : Nat) (s : State),
    (s.powered = true) ∧ ((s.port p).pause = some q) ∧ (q * (if (s.port p).mode = 1 then 512 else 5120) ≤ 10 * ns) ∧ ((s.port p).late = []) :=
  ⟨(0), (512), (10), ({ full with net := { full.net with port := full.net.port.set 0 { full.port 0 with pause := some 10 } } }), by decide⟩

/-! ### FramesAndLinksOfAPort -/

theorem witness_frameSentOwn : ∃ (p : Fin 6) (sec : Nat) (ns : Nat) (frac : Nat) (f : TxFrame) (l : List TxFrame) (s : State),
    (s.powered = true) ∧ ((s.port p).txq = f :: l) ∧ (mayStart s p = true) ∧ (f.ring = none) :=
  ⟨(0), (1), (2), (3), ({ data := [5] }), ([]), ({ full with net := { full.net with port := full.net.port.set 0 { full.port 0 with txq := [{ data := [5] }] } } }), by decide⟩

theorem witness_frameSent : ∃ (p : Fin 6) (sec : Nat) (ns : Nat) (frac : Nat) (f : TxFrame) (l : List TxFrame) (n : Nat) (q : Nat) (d : Bytes) (s : State),
    (s.powered = true) ∧ ((s.port p).txq = f :: l) ∧ (mayStart s p = true) ∧ (f.ring = some n) ∧ (n < 32) ∧ (q < 32) ∧ ((s.ring n).opened = true) ∧ ((s.ring n).pair = some q) ∧ ((s.ring n).closing = false) ∧ (txBytes s f = (d, false)) :=
  ⟨(0), (1), (2), (3), ({ ring := some 1, tag := 7, flags := 1, len := 20, handles := [2137152] }), ([]), (1), (2), (zeros 20), ({ full with net := { full.net with port := full.net.port.set 0 { full.port 0 with txq := [{ ring := some 1, tag := 7, flags := 1, len := 20, handles := [2137152] }] } } }), by decide⟩

theorem witness_linkUp : ∃ (p : Fin 6) (ms : Nat) (an : Fin 4) (s : State),
    (Up s) ∧ ((s.port p).link = false) ∧ (portRuns s p = true) ∧ ((s.port p).mode ≠ 0) ∧ ((s.port p).mode = 1 → 10 ≤ ms) ∧ ((s.inst p).profile = 0) :=
  ⟨(0), (10), (1), ({ full with net := { full.net with port := full.net.port.set 0 { full.port 0 with link := false } } }), by decide⟩

theorem witness_linkDown : ∃ (p : Fin 6) (s : State),
    (Up s) ∧ ((s.port p).link = true) ∧ ((s.port p).held = none) ∧ ((s.port p).txq = []) ∧ ((s.port p).txLpi = false) ∧ ((s.inst p).profile = 0) :=
  ⟨(0), (full), by decide⟩

theorem witness_lpiEntry : ∃ (p : Fin 6) (i : Nat) (l : Nat) (s : State),
    (s.powered = true) ∧ (portRuns s p = true) ∧ ((s.port p).link = true) ∧ (lpiEnabled (s.port p) = true) ∧ ((s.port p).txLpi = false) ∧ ((s.port p).txq = []) ∧ ((s.port p).held = none) ∧ ((s.port p).lpiIdle ≤ i) ∧ (transmitTw (s.port p) + 5 < l) :=
  ⟨(0), (1), (12), ({ full with net := { full.net with port := full.net.port.set 0 { full.port 0 with flags := 2, echoOk := true } } }), by decide⟩

theorem witness_lpiExit : ∃ (p : Fin 6) (l : Nat) (s : State),
    (s.powered = true) ∧ ((s.port p).txLpi = true) ∧ ((s.port p).txq ≠ [] ∨ l ≤ transmitTw (s.port p)) :=
  ⟨(0), (6), ({ full with net := { full.net with port := full.net.port.set 0 { full.port 0 with txLpi := true } } }), by decide⟩

theorem witness_lpiRxEntry : ∃ (p : Fin 6) (s : State),
    (PortUp p s) ∧ ((s.port p).mode = 1) ∧ ((s.port p).rxLpi = false) :=
  ⟨(0), (full), by decide⟩

theorem witness_lpiRxWake : ∃ (p : Fin 6) (s : State),
    (s.powered = true) :=
  ⟨(0), (full), by decide⟩

theorem witness_lldpSend : ∃ (p : Fin 6) (first : Bool) (n : Nat) (s : State),
    (PortUp p s) ∧ ((s.port p).flags.testBit 1 = true) ∧ (first = true ∨ 30 ≤ n) :=
  ⟨(0), (true), (0), ({ full with net := { full.net with port := full.net.port.set 0 { full.port 0 with flags := 2 } } }), by decide⟩

theorem witness_lldpduReceived : ∃ (p : Fin 6) (a : BitVec 16) (b : BitVec 16) (c : BitVec 16) (d : BitVec 16) (s : State),
    (PortUp p s) ∧ ((s.port p).flags.testBit 1 = true) :=
  ⟨(0), (9), (8), (6), (6), ({ full with net := { full.net with port := full.net.port.set 0 { full.port 0 with flags := 2 } } }), by decide⟩

theorem witness_errSummary : ∃ (p : Fin 6) (ms : Nat) (s : State),
    (Up s) ∧ ((s.port p).errPending = true) ∧ (100 ≤ ms) :=
  ⟨(0), (100), ({ full with net := { full.net with port := full.net.port.set 0 { full.port 0 with errPending := true } } }), by decide⟩

theorem witness_portFailed : ∃ (p : Fin 6) (a : Nat) (par : Bool) (b : Nat) (s : State),
    (Up s) ∧ (portRuns s p = true) ∧ (1000 ≤ a ∨ par = true ∨ 3 ≤ b) :=
  ⟨(0), (1000), (false), (0), (full), by decide⟩

theorem witness_portRestored : ∃ (p : Fin 6) (ms : Nat) (s : State),
    (Up s) ∧ (CanRecord s) ∧ ((s.port p).failed = true) ∧ ((s.port p).failLocked = false) ∧ (1000 ≤ ms) :=
  ⟨(0), (1000), ({ full with net := { full.net with port := full.net.port.set 0 { full.port 0 with failed := true } } }), by decide +kernel⟩

/-! ### SfpModulesAreManaged -/

theorem witness_sfpLosEdge : ∃ (p : Fin 6) (s : State),
    (Up s) ∧ ((s.port p).los = false) :=
  ⟨(0), (full), by decide⟩

theorem witness_sfpLosFall : ∃ (p : Fin 6) (s : State),
    (s.powered = true) :=
  ⟨(0), (full), by decide⟩

theorem witness_sfpPresencePoll : ∃ (p : Fin 6) (a : Bytes) (s : State),
    (s.powered = true) ∧ (portRuns s p = true) ∧ ((s.port p).sfp = .absent) :=
  ⟨(0), (bs [3]), (full), by decide⟩

theorem witness_sfpPresencePollAbsent : ∃ (p : Fin 6) (a : Bytes) (s : State),
    (s.powered = true) ∧ (portRuns s p = true) ∧ ((s.port p).sfp ≠ .stuck) :=
  ⟨(0), ([]), (full), by decide⟩

theorem witness_sfpPresencePollStuck : ∃ (p : Fin 6) (n : Nat) (ack : Bool) (a : Bytes) (s : State),
    (Up s) ∧ (portRuns s p = true) ∧ ((s.port p).sfp ≠ .stuck) ∧ (3 < n) ∧ ((s.port p).errAt = none) :=
  ⟨(0), (4), (false), ([]), (full), by decide⟩

theorem witness_ddmPoll : ∃ (p : Fin 6) (d : Bytes) (s : State),
    (s.powered = true) ∧ (portRuns s p = true) ∧ ((s.port p).sfp = .present) ∧ ((s.port p).flags.testBit 6 = true) ∧ ((byteAt (s.port p).a0 92).testBit 6 = true) :=
  ⟨(0), (bs [3]), ({ full with net := { full.net with port := full.net.port.set 0 { full.port 0 with sfp := .present, flags := 64, a0 := List.replicate 92 0#8 ++ [64#8] } } }), by decide +kernel⟩

theorem witness_sfpStuckRetry : ∃ (p : Fin 6) (f : Bool) (s : State),
    (s.powered = true) ∧ (portRuns s p = true) ∧ ((s.port p).sfp = .stuck) :=
  ⟨(0), (true), ({ full with net := { full.net with port := full.net.port.set 0 { full.port 0 with sfp := .stuck } } }), by decide⟩

theorem witness_twoWireTransactionEnd : ∃ (ms : Nat) (d : Bytes) (j : Job) (n : Nat) (s : State),
    (s.powered = true) ∧ (s.campel = true) ∧ (s.supply.holdUp = false) ∧ (s.jobs.find? (fun j => j.op == 0x0607) = some j) ∧ (j.origin = none) ∧ (byteAt j.data 3 = 0) ∧ (ms ≤ 25) ∧ (eventRing s j.tenant = some n) ∧ ((s.ring n).lost = 0) ∧ ((s.ring n).log2 ≤ 12) ∧ (poolIndex (hIndex (rd j.data 8 4)) = true) ∧ (byteAt j.data 4 ≤ 128) :=
  ⟨(25), (bs [9, 8]), ({ op := 0x0607, token := 5, pins := [40000], data := bs [0, 80, 3, 0, 2, 0, 0, 0, 64, 156, 32, 0], waits := true }), (0), ({ full with jobs := [{ op := 0x0607, token := 5, pins := [40000], data := bs [0, 80, 3, 0, 2, 0, 0, 0, 64, 156, 32, 0], waits := true }] }), by decide⟩

/-! ### EthernetRequestsServe -/

theorem witness_ethPortConfig : ∃ (c : Call) (p : Bytes) (n : Nat) (s : State),
    (Served cmdEthPortConfig c s) ∧ (p = c.payload) ∧ (n = byteAt p 0) ∧ (byteAt p 1 ≠ 0 ∨ claimed s c.t (5 + n) = false) ∧ ((s.port n).mode = byteAt p 1 ∨ (s.port n).link = false) ∧ ((s.port n).held = none) ∧ ((s.port n).txLpi = false) :=
  ⟨(wcall 0 (bs [2, 1, 8, 0, 0, 8, 255, 255, 1, 0, 4, 0, 2, 0, 0, 0, 0, 1, 0, 0, 0, 0, 0, 0, 0, 0, 0, 0, 0, 0, 0, 0, 0, 0, 0, 0, 0, 0, 0, 0])), (bs [2, 1, 8, 0, 0, 8, 255, 255, 1, 0, 4, 0, 2, 0, 0, 0, 0, 1, 0, 0, 0, 0, 0, 0, 0, 0, 0, 0, 0, 0, 0, 0, 0, 0, 0, 0, 0, 0, 0, 0]), (2), (full), by decide +kernel⟩

theorem witness_ethPortStatus : ∃ (c : Call) (x : Port) (s : State),
    (Served cmdEthPortStatus c s) ∧ (x = s.port (byteAt c.payload 0)) ∧ (x.failed = false) :=
  ⟨(wcall 0 (bs [0, 0, 0, 0])), (full.port 0), (full), by decide⟩

theorem witness_ethPortCounters : ∃ (c : Call) (x : Port) (s : State),
    (Served cmdEthPortCounters c s) ∧ (x = s.port (byteAt c.payload 0)) ∧ (x.failed = false) :=
  ⟨(wcall 0 (bs [0, 0, 0, 0])), (full.port 0), (full), by decide⟩

theorem witness_ethFlowSet : ∃ (c : Call) (i : Nat) (f : Flow) (s : State),
    (Served cmdEthFlowSet c s) ∧ (i = rd c.payload 0 2) ∧ (f = Flow.ofBytes (slice c.payload 4 64)) ∧ ((flowAt s i).service = 1 ∨ (flowAt s i).service = 255) :=
  ⟨(wcall 0 (bs ([3, 0, 0, 0, 9, 0, 1, 1, 5, 0, 0, 0] ++ List.replicate 48 0 ++ [2] ++ List.replicate 7 0))), (3), (Flow.ofBytes (slice (bs ([3, 0, 0, 0, 9, 0, 1, 1, 5, 0, 0, 0] ++ List.replicate 48 0 ++ [2] ++ List.replicate 7 0)) 4 64)), (full), by decide +kernel⟩

theorem witness_ethFlowGet : ∃ (c : Call) (s : State),
    (Served cmdEthFlowGet c s) :=
  ⟨(wcall 0 (bs [3, 0, 2, 0])), (full), by decide⟩

theorem witness_ethFlowCounters : ∃ (c : Call) (s : State),
    (Served cmdEthFlowCounters c s) ∧ (rd c.payload 0 2 < 4096) :=
  ⟨(wcall 0 (bs [3, 0, 2, 0])), (full), by decide⟩

theorem witness_ethSfpXfer : ∃ (c : Call) (i : Nat) (s : State),
    (Served cmdEthSfpXfer c s) ∧ (MayAccept c s) ∧ (i = hIndex (rd c.payload 8 4)) ∧ ((s.port (byteAt c.payload 0)).failed = false) ∧ ((s.port (byteAt c.payload 0)).sfp ≠ .stuck) ∧ (byteAt c.payload 3 = 0) :=
  ⟨(wcall 0 (bs [0, 80, 3, 0, 2, 0, 0, 0, 64, 156, 32, 0])), (40000), (full), by decide⟩

/-! ### PtpServesAndNegotiates -/

theorem witness_delayReq : ∃ (p : Fin 6) (m : PtpRx) (t : Time) (s : State),
    (PtpHeard p m s) ∧ ((s.inst p).state = .master) ∧ (s.timebase.valid = true) ∧ ((s.port p).txLpi = false) ∧ ((respTake p s).isSome = true) ∧ (t = (rxTime m).addPs ((s.inst p).asym - (s.inst p).rxExt)) ∧ (m.multicast = true) ∧ ((s.inst p).multicast = true) :=
  ⟨(0), ({ multicast := true }), ({}), ({ full with timebase := { full.timebase with valid := true }, net := { full.net with ptp := full.net.ptp.set 0 { mode := 66, state := .master } } }), by decide⟩

theorem witness_delayReqUnicast : ∃ (p : Fin 6) (m : PtpRx) (t : Time) (e : Nat × Follower) (g : Grant) (s : State),
    (PtpHeard p m s) ∧ ((s.inst p).state = .master) ∧ (s.timebase.valid = true) ∧ ((s.port p).txLpi = false) ∧ ((respTake p s).isSome = true) ∧ (t = (rxTime m).addPs ((s.inst p).asym - (s.inst p).rxExt)) ∧ (m.multicast = false) ∧ (s.net.followers.find? (fun e => e.2.port == p.val && e.2.addr == fit 16 m.addr && e.2.delayResp.isSome) = some e) ∧ (e.2.delayResp = some g) :=
  ⟨(0), ({}), ({}), ((5, { addr := zeros 16, delayResp := some { logPeriod := 2 } })), ({ logPeriod := 2 }), ({ full with timebase := { full.timebase with valid := true }, net := { full.net with followers := [(5, { addr := zeros 16, delayResp := some { logPeriod := 2 } })], ptp := full.net.ptp.set 0 { mode := 34, state := .master } } }), by decide⟩

theorem witness_delayReqUngranted : ∃ (p : Fin 6) (m : PtpRx) (s : State),
    (PtpHeard p m s) ∧ ((s.inst p).state = .master) ∧ (s.timebase.valid = true) ∧ (m.multicast = false) ∧ (s.net.followers.find? (fun e => e.2.port == p.val && e.2.addr == fit 16 m.addr && e.2.delayResp.isSome) = none) :=
  ⟨(0), ({}), ({ full with timebase := { full.timebase with valid := true }, net := { full.net with ptp := full.net.ptp.set 0 { mode := 34, state := .master } } }), by decide⟩

theorem witness_signalingRequest : ∃ (p : Fin 6) (m : PtpRx) (type : Fin 16) (log : Int) (d : Nat) (i : Nat) (t : Nat) (s : State),
    (PtpHeard p m s) ∧ ((s.port p).txLpi = false) ∧ ((s.inst p).state = .master) ∧ ((s.inst p).unicast = true) ∧ (s.timebase.valid = true) ∧ (periodOk (s.inst p) type log = true) ∧ (findFollower s p m = none) ∧ (freeFollower s.net.followers 4097 0 = some i) ∧ (rateFits s p type (rate32 log) = true) ∧ (t = min s.net.grantMax (max 10 d)) ∧ (i ≠ 4096) :=
  ⟨(0), ({}), (11), (1), (300), (0), (60), ({ full with timebase := { full.timebase with valid := true }, net := { full.net with grantMax := 60, ptp := full.net.ptp.set 0 { mode := 34, state := .master } } }), by decide +kernel⟩

theorem witness_signalingDenied : ∃ (p : Fin 6) (m : PtpRx) (type : Fin 16) (log : Int) (d : Nat) (i : Nat) (s : State),
    (PtpHeard p m s) ∧ ((s.port p).txLpi = false) ∧ ((s.inst p).state = .master) ∧ (s.timebase.valid = false) ∧ (findFollower s p m = none) ∧ (freeFollower s.net.followers 4097 0 = some i) :=
  ⟨(0), ({}), (11), (1), (300), (0), ({ full with net := { full.net with ptp := full.net.ptp.set 0 { mode := 34, state := .master } } }), by decide +kernel⟩

theorem witness_cancelUnicastTransmission : ∃ (p : Fin 6) (m : PtpRx) (type : Fin 16) (e : Nat × Follower) (s : State),
    (PtpHeard p m s) ∧ ((s.port p).txLpi = false) ∧ (findFollower s p m = some e) :=
  ⟨(0), ({}), (0), ((5, { portId := zeros 10, addr := zeros 16, sync := some {} })), ({ full with net := { full.net with followers := [(5, { portId := zeros 10, addr := zeros 16, sync := some {} })], ptp := full.net.ptp.set 0 { mode := 34, state := .master } } }), by decide⟩

theorem witness_grantExpiry : ∃ (i : Fin 4096) (type : Fin 16) (n : Nat) (f : Follower) (g : Grant) (s : State),
    (s.powered = true) ∧ (mget s.net.followers i = some f) ∧ (f.grant type = some g) ∧ (g.duration ≤ n) :=
  ⟨(5), (0), (10), ({ sync := some { duration := 10 } }), ({ duration := 10 }), ({ full with net := { full.net with followers := [(5, { sync := some { duration := 10 } })], ptp := full.net.ptp.set 0 { mode := 34, state := .master } } }), by decide⟩

theorem witness_grantRenewal : ∃ (p : Fin 6) (k : Fin 4) (type : Fin 16) (n : Nat) (d : Nat) (x : UniMaster) (s : State),
    (s.powered = true) ∧ (portRuns s p = true) ∧ ((s.inst p).active = true) ∧ ((s.inst p).authFlags = 0) ∧ ((s.port p).txLpi = false) ∧ ((s.inst p).masters[k.val]? = some x) ∧ ((s.inst p).role ≠ 1) ∧ (type.val = 0x0B ∨ type.val = 0 ∨ type.val = 9) ∧ (mget x.grants type = some d) ∧ (d ≤ 2 * n) :=
  ⟨(0), (0), (0), (30), (60), ({ grants := [(0, 60)] }), ({ full with net := { full.net with ptp := full.net.ptp.set 0 { mode := 34, state := .slave, masters := [{ grants := [(0, 60)] }] } } }), by decide⟩

theorem witness_grantReceived : ∃ (p : Fin 6) (m : PtpRx) (type : Fin 16) (d : Nat) (s : State),
    (PtpHeard p m s) :=
  ⟨(0), ({}), (0), (60), ({ full with net := { full.net with ptp := full.net.ptp.set 0 { mode := 34, state := .slave, masters := [{ addr := zeros 16 }] } } }), by decide⟩

/-! ### PtpFollowsAMaster -/

theorem witness_announceReceived : ∃ (p : Fin 6) (m : PtpRx) (a : PtpAnn) (s : State),
    (PtpHeard p m s) ∧ (a.steps < 255) ∧ (fit 10 m.srcId ≠ (ownData s p).portId) ∧ (bestForeign { s.inst p with foreign := noteForeign (annParent a m) (s.inst p).foreign } = none) ∧ (s.net.refPort ≠ some p.val) ∧ ((s.ref 2).qualified = false) :=
  ⟨(0), ({}), ({}), ({ full with net := { full.net with ptp := full.net.ptp.set 0 { mode := 2, state := .listening } } }), by decide⟩

theorem witness_announceFollowed : ∃ (p : Fin 6) (m : PtpRx) (a : PtpAnn) (b : Parent) (s : State),
    (PtpHeard p m s) ∧ (a.steps < 255) ∧ (fit 10 m.srcId ≠ (ownData s p).portId) ∧ (bestForeign { s.inst p with foreign := noteForeign (annParent a m) (s.inst p).foreign } = some b) ∧ ((s.inst p).role = 2) ∧ ((s.inst p).state = .listening) ∧ (s.net.refPort = none) ∧ (bestSlave s = none) ∧ ((s.ref 2).qualified = false) :=
  ⟨(0), ({}), ({}), (annParent {} {}), ({ full with net := { full.net with ptp := full.net.ptp.set 0 { mode := 10, state := .listening, foreign := [(annParent {} {}, 1)] } } }), by decide⟩

theorem witness_announceReceiptTimeout : ∃ (p : Fin 6) (n : Nat) (s : State),
    (s.powered = true) ∧ ((s.inst p).active = true) ∧ ((s.inst p).receiptTimeout ≤ n) ∧ ((s.inst p).state ≠ .master) ∧ (s.net.refPort = none) ∧ (bestSlave s = none) :=
  ⟨(0), (3), ({ full with net := { full.net with ptp := full.net.ptp.set 0 { mode := 2, state := .listening } } }), by decide⟩

theorem witness_syncReceived : ∃ (p : Fin 6) (m : PtpRx) (sec : Nat) (ns : Nat) (s : State),
    (PtpHeard p m s) ∧ (fromParent s p m = true) :=
  ⟨(0), ({}), (1), (2), ({ full with net := { full.net with ptp := full.net.ptp.set 0 { mode := 10, state := .slave, parent := { portId := zeros 10 } } } }), by decide⟩

theorem witness_syncTwoStep : ∃ (p : Fin 6) (m : PtpRx) (sec : Nat) (ns : Nat) (s : State),
    (PtpHeard p m s) ∧ (fromParent s p m = true) :=
  ⟨(0), ({}), (1), (2), ({ full with net := { full.net with ptp := full.net.ptp.set 0 { mode := 10, state := .slave, parent := { portId := zeros 10 } } } }), by decide⟩

theorem witness_followUpReceived : ∃ (p : Fin 6) (m : PtpRx) (sec : Nat) (ns : Nat) (t2 : Int) (s : State),
    (PtpHeard p m s) ∧ (fromParent s p m = true) ∧ ((s.inst p).awaiting = some (m.seq, t2)) :=
  ⟨(0), ({}), (1), (2), (5), ({ full with net := { full.net with ptp := full.net.ptp.set 0 { mode := 10, state := .slave, parent := { portId := zeros 10 }, awaiting := some (0, 5) } } }), by decide⟩

theorem witness_delayRespReceived : ∃ (p : Fin 6) (m : PtpRx) (sec : Nat) (ns : Nat) (a : Nat) (b : Nat) (f : Nat) (ms : Int) (sm : Int) (s : State),
    (PtpHeard p m s) ∧ (fromParent s p m = true) ∧ (sm = Time.ps { sec, ns } - corrPs m.corr - (Time.addPs { sec := a, ns := b, frac := f } (s.inst p).txExt).ps) ∧ ((s.inst p).syncDiff = some ms) ∧ (s.net.delayFilter = 0 ∨ (ms + sm) / 2 ≤ leastOf (((ms + sm) / 2 :: (s.inst p).delays).take 64) ((ms + sm) / 2) + s.net.delayFilter * 1000) ∧ ((s.inst p).state = .slave) ∧ (s.net.refPort = some p.val) :=
  ⟨(0), ({}), (1), (2), (1), (0), (0), (7), (2000), ({ full with net := { full.net with refPort := some 0, ptp := full.net.ptp.set 0 { mode := 10, state := .slave, parent := { portId := zeros 10 }, syncDiff := some 7 } } }), by decide⟩

theorem witness_syncTimeout : ∃ (p : Fin 6) (n : Nat) (s : State),
    (s.powered = true) ∧ (s.net.refPort = some p.val) ∧ (3 ≤ n) ∧ ((s.ref 2).qualified = true) :=
  ⟨(0), (3), ({ full with timebase := { full.timebase with refs := full.timebase.refs.set 1 { qualified := true } }, net := { full.net with refPort := some 0, ptp := full.net.ptp.set 0 { mode := 10, state := .slave, parent := { portId := zeros 10 } } } }), by decide +kernel⟩

theorem witness_authTimeout : ∃ (p : Fin 6) (n : Nat) (s : State),
    (s.powered = true) ∧ (s.net.refPort = some p.val) ∧ ((s.inst p).authFlags.testBit 1 = true) ∧ (3 ≤ n) ∧ ((s.ref 2).qualified = true) :=
  ⟨(0), (3), ({ full with timebase := { full.timebase with refs := full.timebase.refs.set 1 { qualified := true } }, net := { full.net with refPort := some 0, ptp := full.net.ptp.set 0 { mode := 10, state := .slave, parent := { portId := zeros 10 }, authFlags := 2 } } }), by decide +kernel⟩

theorem witness_managementReceived : ∃ (p : Fin 6) (m : PtpRx) (tlv : List (BitVec 8)) (s : State),
    (PtpHeard p m s) ∧ (fromParent s p m = true) ∧ (s.timebase.selected ≠ 2 ∨ s.timebase.fromUpstream = false) :=
  ⟨(0), ({}), ([]), ({ full with net := { full.net with ptp := full.net.ptp.set 0 { mode := 10, state := .slave, parent := { portId := zeros 10 } } } }), by decide⟩

theorem witness_managementAdopted : ∃ (p : Fin 6) (m : PtpRx) (tlv : List (BitVec 8)) (s : State),
    (PtpHeard p m s) ∧ (fromParent s p m = true) ∧ (s.timebase.selected = 2) ∧ (s.timebase.fromUpstream = true) ∧ (s.net.refPort = some p.val) :=
  ⟨(0), ({}), ([]), ({ full with timebase := { full.timebase with selected := 2, fromUpstream := true }, net := { full.net with refPort := some 0, ptp := full.net.ptp.set 0 { mode := 10, state := .slave, parent := { portId := zeros 10 } } } }), by decide⟩

theorem witness_pdelayReceived : ∃ (p : Fin 6) (s : State),
    (s.powered = true) ∧ (portRuns s p = true) ∧ ((s.inst p).active = true) :=
  ⟨(0), ({ full with net := { full.net with ptp := full.net.ptp.set 0 { mode := 10, state := .slave, parent := { portId := zeros 10 } } } }), by decide⟩

theorem witness_followUp : ∃ (p : Fin 6) (g : Nat) (n : Nat) (t : Time) (l : List (Nat × Nat × Time)) (s : State),
    (s.powered = true) ∧ (portRuns s p = true) ∧ ((s.inst p).active = true) ∧ ((s.inst p).authFlags = 0) ∧ ((s.port p).txLpi = false) ∧ ((s.inst p).followUps = (g, n, t) :: l) ∧ (s.timebase.valid = true) ∧ ((s.inst p).state = .master) :=
  ⟨(0), (0x1000), (4), ({ sec := 5 }), ([]), ({ full with timebase := { full.timebase with valid := true }, net := { full.net with ptp := full.net.ptp.set 0 { mode := 66, state := .master, followUps := [(0x1000, 4, { sec := 5 })] } } }), by decide⟩

theorem witness_smTlvSend : ∃ (p : Fin 6) (s : State),
    (s.powered = true) ∧ (portRuns s p = true) ∧ ((s.inst p).active = true) ∧ ((s.inst p).authFlags = 0) ∧ ((s.port p).txLpi = false) ∧ ((s.inst p).state = .master) ∧ (s.net.smFlags.testBit 0 = true) ∧ (s.net.frameRate ≠ 0) ∧ ((s.inst p).multicast = true) ∧ (s.net.followers = []) :=
  ⟨(0), ({ full with timebase := { full.timebase with valid := true }, net := { full.net with smFlags := 1, frameRate := 5, ptp := full.net.ptp.set 0 { mode := 66, state := .master } } }), by decide⟩

/-! ### PtpRequestsServe -/

theorem witness_ptpGetStatus : ∃ (c : Call) (s : State),
    (Served cmdPtpGetStatus c s) :=
  ⟨(wcall 0 []), (full), by decide⟩

theorem witness_ptpInstanceConfig : ∃ (c : Call) (p : Bytes) (n : Nat) (s : State),
    (Served cmdPtpInstanceConfig c s) ∧ (p = c.payload) ∧ (n = byteAt p 0) ∧ (byteAt p 1 % 4 ≠ 0) ∧ ((s.inst n).state = .off) ∧ ((s.inst n).profile = 0) ∧ ((s.inst n).flows = []) ∧ ((topFree s.net.flows 4096 2).length = 2) ∧ (s.net.followers = []) ∧ (s.net.refPort = none) ∧ (bestSlave s = none) :=
  ⟨(wcall 0 (bs ([0, 34, 7, 0, 1, 255, 0, 3, 0, 0, 10, 0, 10, 0, 0, 1] ++ List.replicate 20 0))), (bs ([0, 34, 7, 0, 1, 255, 0, 3, 0, 0, 10, 0, 10, 0, 0, 1] ++ List.replicate 20 0)), (0), (full), by decide +kernel⟩

theorem witness_ptpInstanceStatus : ∃ (c : Call) (s : State),
    (Served cmdPtpInstanceStatus c s) :=
  ⟨(wcall 0 (bs [0, 0, 0, 0])), (full), by decide⟩

theorem witness_ptpFollowersGet : ∃ (c : Call) (s : State),
    (Served cmdPtpFollowersGet c s) :=
  ⟨(wcall 0 (bs [0, 0, 1, 0])), (full), by decide⟩

theorem witness_ptpUnicastMastersSet : ∃ (c : Call) (p : Bytes) (n : Nat) (s : State),
    (Served cmdPtpUnicastMastersSet c s) ∧ (p = c.payload) ∧ (n = byteAt p 0) :=
  ⟨(wcall 0 (bs ([0, 1, 0, 0] ++ List.replicate 24 0))), (bs ([0, 1, 0, 0] ++ List.replicate 24 0)), (0), (full), by decide⟩

theorem witness_ptpClockConfig : ∃ (c : Call) (p : Bytes) (s : State),
    (Served cmdPtpClockConfig c s) ∧ (p = c.payload) ∧ ((s.ref 2).qualified = false) :=
  ⟨(wcall 0 (bs ([1, 2, 187, 7, 60, 0] ++ List.replicate 14 0))), (bs ([1, 2, 187, 7, 60, 0] ++ List.replicate 14 0)), (full), by decide⟩

theorem witness_ptpAsymSet : ∃ (c : Call) (p : Bytes) (n : Nat) (s : State),
    (Served cmdPtpAsymSet c s) ∧ (p = c.payload) ∧ (n = byteAt p 0) :=
  ⟨(wcall 0 (zeros 16)), (zeros 16), (0), (full), by decide⟩

theorem witness_ptpCalRun : ∃ (c : Call) (p : Bytes) (s : State),
    (Served cmdPtpCalRun c s) ∧ (MayAccept c s) ∧ (p = c.payload) ∧ (timInTaken s (byteAt p 1) = false) ∧ (s.net.cal = none) :=
  ⟨(wcall 0 (bs [0, 1, 0, 0, 16, 0, 0, 0, 0, 0, 0, 0])), (bs [0, 1, 0, 0, 16, 0, 0, 0, 0, 0, 0, 0]), (full), by decide⟩

theorem witness_ptpCalRunFails : ∃ (errs : List (Option Int)) (x : PtpCal) (j : Job) (n : Nat) (s : State),
    (s.powered = true) ∧ (s.campel = true) ∧ (s.supply.holdUp = false) ∧ (j.origin = none) ∧ (eventRing s j.tenant = some n) ∧ ((s.ring n).lost = 0) ∧ ((s.ring n).log2 ≤ 12) ∧ (s.net.cal = some x) ∧ (findJob s 0x0647 0 = some j) ∧ (errs.length = x.samples) ∧ (x.samples < 2 * (x.samples - (errs.filterMap id).length)) ∧ (x.input < 4) :=
  ⟨([none, none]), ({ samples := 2 }), ({ op := 0x0647, token := 5, waits := true }), (0), ({ full with net := { full.net with cal := some { samples := 2 } }, jobs := [{ op := 0x0647, token := 5, waits := true }] }), by decide⟩

theorem witness_ptpCalRunEnd : ∃ (errs : List (Option Int)) (x : PtpCal) (j : Job) (es : List Int) (n : Nat) (s : State),
    (s.powered = true) ∧ (s.campel = true) ∧ (s.supply.holdUp = false) ∧ (j.origin = none) ∧ (eventRing s j.tenant = some n) ∧ ((s.ring n).lost = 0) ∧ ((s.ring n).log2 ≤ 12) ∧ (s.net.cal = some x) ∧ (findJob s 0x0647 0 = some j) ∧ (errs.length = x.samples) ∧ (es = (errs.filterMap id).map (fun e => e - x.refDelay)) ∧ (2 * (x.samples - es.length) ≤ x.samples) ∧ ((s.ten j.tenant).held + 1 ≤ (s.ten j.tenant).quota) ∧ (s.loft.tags.length + s.loft.gone.length + s.loft.testing.length + 1 < 2064384) ∧ (s.loft.tags.all (fun p => decide (p.2.gen < 256)) = true) ∧ (j.tenant < 8) ∧ (x.input < 4) :=
  ⟨([some 3, some 5]), ({ samples := 2 }), ({ op := 0x0647, token := 5, waits := true }), ([3, 5]), (0), ({ full with net := { full.net with cal := some { samples := 2 } }, jobs := [{ op := 0x0647, token := 5, waits := true }] }), by decide⟩

theorem witness_ptpAuthConfig : ∃ (c : Call) (p : Bytes) (n : Nat) (s : State),
    (Served cmdPtpAuthConfig c s) ∧ (p = c.payload) ∧ (n = byteAt p 0) ∧ (byteAt p 2 = 0 ∨ (keyNamed s c.t (byteAt p 3) = true ∧ keyNamed s c.t (byteAt p 8) = true)) :=
  ⟨(wcall 0 (zeros 16)), (zeros 16), (0), (full), by decide⟩

theorem witness_ptpFollowerDrop : ∃ (c : Call) (i : Nat) (f : Follower) (s : State),
    (Served cmdPtpFollowerDrop c s) ∧ (i = rd c.payload 0 2) ∧ (mget s.net.followers i = some f) ∧ ((s.inst f.port).active = true) ∧ (portRuns s f.port = true) ∧ ((s.inst f.port).authFlags = 0) ∧ ((s.port f.port).txLpi = false) :=
  ⟨(wcall 0 (bs [5, 0, 0, 0])), (5), ({ sync := some {} }), ({ full with net := { full.net with followers := [(5, { sync := some {} })], ptp := full.net.ptp.set 0 { mode := 34, state := .master } } }), by decide⟩

theorem witness_ptpCounters : ∃ (c : Call) (s : State),
    (Served cmdPtpCounters c s) :=
  ⟨(wcall 0 (bs [0, 0, 0, 0])), (full), by decide⟩

/-! ### ServoFollowsTheWedges -/

theorem witness_paFltRise : ∃ (b : BitVec 8) (f : Format) (s : State),
    (Up s) ∧ (s.supply.isl.channel = true) ∧ (s.channel.flt = false) ∧ (CanRecord s) ∧ (s.channel.format = some f) :=
  ⟨(7#8), ({ heads := 2, wedges := 200, nZones := 1, raCyl := 8, paFaultReg := 3, cylinders := 1000 }), ({ full with channel := { full.channel with wg := true, format := some { heads := 2, wedges := 200, nZones := 1, raCyl := 8, paFaultReg := 3, cylinders := 1000 } } }), by decide +kernel⟩

theorem witness_paFltPersist : ∃ (ms : Nat) (s : State),
    (s.powered = true) ∧ (s.channel.flt = true) ∧ (ms < 10) :=
  ⟨(9), ({ full with channel := { full.channel with flt := true } }), by decide⟩

theorem witness_paFltFaults : ∃ (ms : Nat) (s : State),
    (s.powered = true) ∧ (s.channel.flt = true) ∧ (10 ≤ ms) ∧ (s.diskq.cmds = []) ∧ (headsLoaded s = true) ∧ (s.channel.state ≠ .unloading) ∧ (findJob s 0x0484 1 = none) ∧ (s.motor.a.state ≠ .locked ∧ s.motor.a.state ≠ .pullIn) :=
  ⟨(10), ({ full with channel := { full.channel with flt := true } }), by decide⟩

theorem witness_servoWedge : ∃ (n : Nat) (g : Nat) (a : Nat) (b : Nat) (c : Nat) (d : Nat) (t : Nat) (q : Nat) (s : State),
    (s.powered = true) ∧ (s.supply.isl.servo = true) ∧ (s.channel.searching = false) ∧ (s.channel.state = .tracking) ∧ (n = nextWedge s) ∧ (((grayDecode g : Int) - s.channel.target).natAbs ≤ 2) :=
  ⟨(1), (12), (10), (12), (5), (6), (77), (0), ({ full with channel := { full.channel with target := 8, servoValid := true, format := some { heads := 2, wedges := 200, nZones := 1, raCyl := 8, paFaultReg := 3, cylinders := 1000 } } }), by decide +kernel⟩

theorem witness_servoWedgeSettles : ∃ (n : Nat) (g : Nat) (a : Nat) (b : Nat) (c : Nat) (d : Nat) (t : Nat) (q : Nat) (s : State),
    (s.powered = true) ∧ (s.supply.isl.servo = true) ∧ (s.channel.searching = false) ∧ (s.channel.state = .seeking) ∧ (s.channel.loadSeek = false) ∧ (n = nextWedge s) ∧ ((grayDecode g : Int) - q ≤ 64) ∧ ((q : Int) - grayDecode g ≤ 64) ∧ (grayDecode g = s.channel.target) ∧ ((pesOf (grayDecode g) a b c d).natAbs ≤ 256) ∧ (s.channel.onRead = 3) :=
  ⟨(1), (12), (10), (12), (5), (6), (77), (8), ({ full with channel := { full.channel with state := .seeking, target := 8, onRead := 3, format := some { heads := 2, wedges := 200, nZones := 1, raCyl := 8, paFaultReg := 3, cylinders := 1000 } } }), by decide +kernel⟩

theorem witness_servoWedgeMissed : ∃ (p : Bool) (n : Nat) (h : Nat) (g : Nat) (a : Nat) (b : Nat) (c : Nat) (d : Nat) (t : Nat) (q : Nat) (s : State),
    (s.powered = true) ∧ (s.supply.isl.servo = true) ∧ (s.channel.searching = false) ∧ (s.channel.state = .tracking ∨ s.channel.state = .seeking) ∧ (s.channel.missedRun < 7) :=
  ⟨(true), (1), (0), (0), (0), (0), (0), (0), (0), (0), ({ full with channel := { full.channel with servoValid := true } }), by decide⟩

theorem witness_servoWedgeLost : ∃ (p : Bool) (n : Nat) (h : Nat) (g : Nat) (a : Nat) (b : Nat) (c : Nat) (d : Nat) (t : Nat) (q : Nat) (s : State),
    (Up s) ∧ (CanRecord s) ∧ (s.supply.isl.servo = true) ∧ (s.channel.searching = false) ∧ (s.channel.state = .tracking ∨ s.channel.state = .seeking) ∧ (s.channel.servoValid = true) ∧ (7 ≤ s.channel.missedRun) ∧ (s.motor.a.state ≠ .locked ∧ s.motor.a.state ≠ .pullIn) :=
  ⟨(true), (1), (0), (0), (0), (0), (0), (0), (0), (0), ({ full with channel := { full.channel with servoValid := true, missedRun := 7 } }), by decide +kernel⟩

theorem witness_servoSearchEnd : ∃ (us : Nat) (s : State),
    (s.powered = true) ∧ (s.channel.searching = true) ∧ (20000 ≤ us) ∧ (s.channel.servoValid = false) ∧ (s.channel.state = .tracking ∨ s.channel.state = .seeking) ∧ (s.channel.loadRetry = false) ∧ (findJob s 0x0484 1 = none) ∧ (s.motor.a.state ≠ .locked ∧ s.motor.a.state ≠ .pullIn) :=
  ⟨(20000), ({ full with channel := { full.channel with searching := true } }), by decide⟩

theorem witness_seekError : ∃ (ms : Nat) (e : Bool) (w : List (Nat × Nat)) (s : State),
    (Up s) ∧ (CanRecord s) ∧ (s.channel.state = .seeking) ∧ (s.channel.loadSeek = false) ∧ (50 ≤ ms) ∧ (s.channel.seekTries = 0) :=
  ⟨(50), (false), ([]), ({ full with channel := { full.channel with state := .seeking, target := 9 } }), by decide +kernel⟩

theorem witness_seekErrorFails : ∃ (ms : Nat) (e : Bool) (i : Nat) (k : Nat) (c : DiskCmd) (s : State),
    (Up s) ∧ (CanRecord s) ∧ (s.channel.state = .seeking) ∧ (s.channel.loadSeek = false) ∧ (50 ≤ ms) ∧ (s.channel.seekTries ≠ 0) ∧ (findCmd s i = some c) ∧ (sectorOpen c k = true) :=
  ⟨(50), (false), (1), (0), ({ id := 1, count := 1, granted := true }), ({ full with diskq := { cmds := [{ id := 1, count := 1, granted := true }] }, channel := { full.channel with state := .seeking, seekTries := 1 } }), by decide +kernel⟩

theorem witness_loadTimeout : ∃ (ms : Nat) (s : State),
    (s.powered = true) ∧ (500 ≤ ms) ∧ (s.channel.state = .loading) ∧ (s.channel.loadTries = 0) ∧ (s.motor.a.state ≠ .locked ∧ s.motor.a.state ≠ .pullIn) :=
  ⟨(500), ({ full with channel := { full.channel with state := .loading } }), by decide⟩

theorem witness_loadTimeoutFaults : ∃ (ms : Nat) (s : State),
    (Up s) ∧ (CanRecord s) ∧ (500 ≤ ms) ∧ (s.channel.state = .loading) ∧ (s.channel.loadTries ≠ 0) ∧ (s.diskq.cmds = []) ∧ (findJob s 0x0484 1 = none) ∧ (s.motor.a.state ≠ .locked ∧ s.motor.a.state ≠ .pullIn) :=
  ⟨(500), ({ full with channel := { full.channel with state := .loading, loadTries := 1 } }), by decide +kernel⟩

theorem witness_headsParked : ∃ (s : State),
    (Up s) ∧ (s.channel.state = .unloading) ∧ (s.channel.loadRetry = false) ∧ (s.diskq.cmds = []) ∧ (s.motor.a.stopWait = false) ∧ (findJob s 0x0484 0 = none) ∧ (findJob s 0x0484 1 = none) ∧ (s.supply.holdUp = false) ∧ (s.supply.tripping = false) ∧ (s.supply.change = none) :=
  ⟨({ full with channel := { full.channel with state := .unloading, paMode := 1 } }), by decide +kernel⟩

/-! ### SectorsAreVerifiedAndRead -/

theorem witness_verifyDone : ∃ (id : Nat) (i : Nat) (sec : Nat) (ns : Nat) (frac : Nat) (other : Bool) (c : DiskCmd) (s : State),
    (s.powered = true) ∧ (mediumWritable s = true) ∧ (findCmd s id = some c) ∧ (c.cls = 0x21) ∧ (sectorOpen c i = true) ∧ (c.abort = none) ∧ (s.loft.poisoned (yAddr (hIndex (c.handles.getD i 0)) 0) 4096 = false) ∧ (c.sealLoad = 0) ∧ (c.xtsLoad = 0) ∧ (c.onSpare.contains i = false) :=
  ⟨(1), (0), (1), (2), (3), (false), ({ id := 1, ring := 1, cls := 0x21, tag := 7, lba := 9, count := 1, handles := [2137152], granted := true }), ({ full with diskq := { cmds := [{ id := 1, ring := 1, cls := 0x21, tag := 7, lba := 9, count := 1, handles := [2137152], granted := true }] }, channel := { full.channel with sparesFree := 1 } }), by decide +kernel⟩

theorem witness_verifyFails : ∃ (id : Nat) (i : Nat) (sec : Nat) (ns : Nat) (frac : Nat) (other : Bool) (c : DiskCmd) (s : State),
    (s.powered = true) ∧ (Up s) ∧ (mediumWritable s = true) ∧ (findCmd s id = some c) ∧ (c.cls = 0x21) ∧ (sectorOpen c i = true) ∧ (c.abort = none) ∧ (s.loft.poisoned (yAddr (hIndex (c.handles.getD i 0)) 0) 4096 = false) ∧ (c.sealLoad = 0) ∧ (c.xtsLoad = 0) ∧ (c.onSpare.contains i = false) ∧ (mgetD c.tries i 0 = 0) ∧ (1 ≤ verifyRetries s) :=
  ⟨(1), (0), (1), (2), (3), (false), ({ id := 1, ring := 1, cls := 0x21, tag := 7, lba := 9, count := 1, handles := [2137152], granted := true }), ({ full with diskq := { cmds := [{ id := 1, ring := 1, cls := 0x21, tag := 7, lba := 9, count := 1, handles := [2137152], granted := true }] }, channel := { full.channel with sparesFree := 1 } }), by decide +kernel⟩

theorem witness_readDecodeDone : ∃ (id : Nat) (i : Nat) (other : Bool) (c : DiskCmd) (s : State),
    (s.powered = true) ∧ (mediumReady s = true) ∧ (findCmd s id = some c) ∧ (c.cls = 0x20) ∧ (sectorOpen c i = true) ∧ (c.abort = none) ∧ ((mget s.channel.medium (c.lba + i)).isSome = true) ∧ ((mgetD s.channel.medium (c.lba + i) {}).verified = true) ∧ ((mgetD s.channel.medium (c.lba + i) {}).stamp.lba = c.lba + i) ∧ ((mgetD s.channel.medium (c.lba + i) {}).data.length = 4096) ∧ (c.stamps = 0) ∧ (c.sealLoad = 0) ∧ (c.xtsLoad = 0) ∧ (c.flags.testBit 1 = false) ∧ (hIndex (c.handles.getD i 0) < 2 ^ 22) :=
  ⟨(1), (0), (false), ({ id := 1, ring := 1, cls := 0x20, tag := 7, lba := 9, count := 1, handles := [2137152], granted := true }), ({ full with diskq := { cmds := [{ id := 1, ring := 1, cls := 0x20, tag := 7, lba := 9, count := 1, handles := [2137152], granted := true }] }, channel := { full.channel with sparesFree := 1, medium := [(9, { data := zeros 4096, stamp := { lba := 9 }, verified := true })] } }), by decide +kernel⟩

theorem witness_readDecodeFails : ∃ (id : Nat) (i : Nat) (other : Bool) (c : DiskCmd) (s : State),
    (s.powered = true) ∧ (mediumReady s = true) ∧ (findCmd s id = some c) ∧ (c.cls = 0x20) ∧ (sectorOpen c i = true) ∧ (c.abort = none) :=
  ⟨(1), (0), (false), ({ id := 1, ring := 1, cls := 0x20, tag := 7, lba := 9, count := 1, handles := [2137152], granted := true }), ({ full with diskq := { cmds := [{ id := 1, ring := 1, cls := 0x20, tag := 7, lba := 9, count := 1, handles := [2137152], granted := true }] }, channel := { full.channel with sparesFree := 1 } }), by decide +kernel⟩

theorem witness_sliceKnownAnswerTest : ∃ (i : Fin 4) (k : Fin 4) (s : State),
    (Up s) ∧ (CanRecord s) ∧ (s.supply.isl.channel = true) ∧ (vat s.channel.slices i = true) ∧ (vat s.channel.slices k = true) ∧ (k ≠ i) :=
  ⟨(1), (2), (full), by decide +kernel⟩

theorem witness_sliceKnownAnswerPass : ∃ (i : Fin 4) (s : State),
    (s.powered = true) :=
  ⟨(1), (full), by decide⟩

theorem witness_commitRefused : ∃ (n : Fin 9) (tok : Nat) (r : Nat) (l : List Int) (j : Job) (s : State),
    (s.powered = true) ∧ (s.campel = true) ∧ (s.supply.holdUp = false) ∧ (s.jobs.find? (fun j => j.tenant == n.val && j.token == tok && !j.waits && j.ended.isNone) = some j) ∧ (j.origin = none) ∧ (j.op = 0x0483) ∧ (eventRing s n.val = some r) ∧ ((s.ring r).lost = 0) ∧ ((s.ring r).log2 ≤ 12) ∧ (formatBad s.channel.draft = true) :=
  ⟨(0), (5), (0), ([]), ({ token := 5, op := 0x0483 }), ({ full with jobs := [{ token := 5, op := 0x0483 }] }), by decide⟩

/-! ### ChannelRequestsServe -/

theorem witness_chnHdaSet : ∃ (c : Call) (s : State),
    (Served cmdChnHdaSet c s) ∧ (headsLoaded s = false) ∧ (s.motor.a.state = .stopped) :=
  ⟨(wcall 0 (bs ([2, 1, 200, 0, 200, 0, 16, 1, 232, 3, 0, 0, 8, 0, 64, 6, 8, 1, 20, 0, 20, 0, 20, 0, 200, 0, 200, 0, 75, 20] ++ List.replicate 11 0 ++ [128, 0, 0]))), (ready), by decide⟩

theorem witness_chnZoneSet : ∃ (c : Call) (s : State),
    (Served cmdChnZoneSet c s) ∧ (headsLoaded s = false) ∧ (s.motor.a.state = .stopped) :=
  ⟨(wcall 0 (bs [0, 0, 0, 0, 0, 0, 0, 0, 32, 3, 1, 0])), ({ ready with channel := { draft := { nZones := 1 } } }), by decide⟩

theorem witness_chnCommit : ∃ (c : Call) (s : State),
    (Served cmdChnCommit c s) ∧ (MayAccept c s) :=
  ⟨(wcall 0 []), (full), by decide⟩

theorem witness_chnHeads : ∃ (c : Call) (s : State),
    (Served cmdChnHeads c s) ∧ (MayAccept c s) ∧ (byteAt c.payload 0 = 1) ∧ (loadable s = true) :=
  ⟨(wcall 0 (bs [1, 0, 0, 0])), ({ full with motor := { full.motor with a := { full.motor.a with state := .locked } }, channel := { full.channel with state := .unloaded } }), by decide⟩

theorem witness_chnHeadsUnload : ∃ (c : Call) (s : State),
    (Served cmdChnHeads c s) ∧ (MayAccept c s) ∧ (byteAt c.payload 0 = 0) ∧ (headsLoaded s = true) ∧ (s.channel.state ≠ .unloading) ∧ (findJob s 0x0484 1 = none) ∧ (s.motor.a.state ≠ .locked ∧ s.motor.a.state ≠ .pullIn) :=
  ⟨(wcall 0 (bs [0, 0, 0, 0])), (full), by decide⟩

theorem witness_chnCal : ∃ (c : Call) (p : Bytes) (s : State),
    (Served cmdChnCal c s) ∧ (MayAccept c s) ∧ (p = c.payload) ∧ (if byteAt p 0 = 1 then headsLoaded s = false else s.channel.state = .tracking ∨ s.channel.state = .seeking) :=
  ⟨(wcall 0 (bs [2, 0, 0, 0])), (bs [2, 0, 0, 0]), (full), by decide⟩

theorem witness_chnStatus : ∃ (c : Call) (x : Channel) (m : Nat) (s : State),
    (Served cmdChnStatus c s) ∧ (x = s.channel) ∧ (m = maskOf (List.range 4) (fun i => vat x.slices i)) :=
  ⟨(wcall 0 []), (full.channel), (15), (full), by decide⟩

theorem witness_chnPaXfer : ∃ (c : Call) (p : Bytes) (s : State),
    (Served cmdChnPaXfer c s) ∧ (p = c.payload) ∧ (s.channel.wg = false) :=
  ⟨(wcall 0 (bs [3, 4, 0, 0])), (bs [3, 4, 0, 0]), (full), by decide⟩

theorem witness_chnDefectRead : ∃ (c : Call) (i : Nat) (s : State),
    (Served cmdChnDefectRead c s) ∧ (MayAccept c s) ∧ (i = hIndex (rd c.payload 4 4)) :=
  ⟨(wcall 0 (bs [0, 0, 0, 0, 64, 156, 32, 0])), (40000), (full), by decide⟩

theorem witness_chnDefectAdd : ∃ (c : Call) (s : State),
    (Served cmdChnDefectAdd c s) ∧ (MayAccept c s) ∧ (s.channel.format.isSome = true) ∧ (rd c.payload 0 6 ≤ s.channel.maxLba) :=
  ⟨(wcall 0 (bs [9, 0, 0, 0, 0, 0, 0, 0])), (full), by decide⟩

theorem witness_chnSliceEnable : ∃ (c : Call) (s : State),
    (Served cmdChnSliceEnable c s) ∧ (MayAccept c s) :=
  ⟨(wcall 0 (bs [2, 0, 0, 0])), (full), by decide⟩

/-! ### SubmissionsEnterTheirQueues -/

theorem witness_netSend : ∃ (n : Fin 32) (p : Nat) (d : Bytes) (s : State),
    (Consumable n.val p d s) ∧ (byteAt d 0 = 0x10) ∧ (s.owner 1 = (s.ring n).owner) ∧ (netFields s (s.ring n).owner d = true) ∧ ((s.port (byteAt d 4)).link = true) :=
  ⟨(1), (2), (bs [0x10, 0, 7, 0, 0, 0, 20, 0, 64, 156, 32, 0]), (entry (bs [0x10, 0, 7, 0, 0, 0, 20, 0, 64, 156, 32, 0])), by decide⟩

theorem witness_netSendNoLink : ∃ (n : Fin 32) (p : Nat) (d : Bytes) (s : State),
    (Consumable n.val p d s) ∧ (byteAt d 0 = 0x10) ∧ (s.owner 1 = (s.ring n).owner) ∧ (netFields s (s.ring n).owner d = true) ∧ ((s.port (byteAt d 4)).link = false) :=
  ⟨(1), (2), (bs [0x10, 0, 7, 0, 0, 0, 20, 0, 64, 156, 32, 0]), ({ entry (bs [0x10, 0, 7, 0, 0, 0, 20, 0, 64, 156, 32, 0]) with net := ready.net }), by decide⟩

theorem witness_diskRead : ∃ (n : Fin 32) (p : Nat) (d : Bytes) (s : State),
    (Consumable n.val p d s) ∧ (byteAt d 0 = 0x20) ∧ (diskStatus s (s.ring n).owner d = none) ∧ (dFlag d 1 = false) ∧ (dFlag d 2 = false) ∧ (loadable s = false) :=
  ⟨(1), (2), (bs [0x20, 1, 7, 0, 9, 0, 0, 0, 0, 0, 1, 0, 64, 156, 32, 0]), (entry (bs [0x20, 1, 7, 0, 9, 0, 0, 0, 0, 0, 1, 0, 64, 156, 32, 0])), by decide +kernel⟩

theorem witness_diskWrite : ∃ (n : Fin 32) (p : Nat) (d : Bytes) (s : State),
    (Consumable n.val p d s) ∧ (byteAt d 0 = 0x21) ∧ (diskStatus s (s.ring n).owner d = none) ∧ (dFlag d 1 = false) ∧ (dFlag d 2 = false) ∧ (loadable s = false) :=
  ⟨(1), (2), (bs [0x21, 1, 7, 0, 9, 0, 0, 0, 0, 0, 1, 0, 64, 156, 32, 0]), (entry (bs [0x21, 1, 7, 0, 9, 0, 0, 0, 0, 0, 1, 0, 64, 156, 32, 0])), by decide +kernel⟩

theorem witness_diskStampRead : ∃ (n : Fin 32) (p : Nat) (d : Bytes) (s : State),
    (Consumable n.val p d s) ∧ (byteAt d 0 = 0x22) ∧ (diskStatus s (s.ring n).owner d = none) ∧ (dFlag d 1 = false) ∧ (dFlag d 2 = false) ∧ (loadable s = false) :=
  ⟨(1), (2), (bs [0x22, 0, 7, 0, 9, 0, 0, 0, 0, 0, 1, 0, 0, 0, 0, 0, 64, 156, 32, 0]), (entry (bs [0x22, 0, 7, 0, 9, 0, 0, 0, 0, 0, 1, 0, 0, 0, 0, 0, 64, 156, 32, 0])), by decide +kernel⟩

theorem witness_diskReadRefused : ∃ (n : Fin 32) (p : Nat) (st : Nat) (d : Bytes) (s : State),
    (Consumable n.val p d s) ∧ (byteAt d 0 = 0x20) ∧ (diskStatus s (s.ring n).owner d = some st) ∧ (s.supply.mode ≠ .safe ∨ (s.ring n).owner = 0) :=
  ⟨(1), (2), (0x43), (bs [0x20, 1, 7, 0, 9, 9, 0, 0, 0, 0, 1, 0, 64, 156, 32, 0]), (entry (bs [0x20, 1, 7, 0, 9, 9, 0, 0, 0, 0, 1, 0, 64, 156, 32, 0])), by decide +kernel⟩

/-! ### DiskQueueGrantsAndCompletes -/

theorem witness_lockGrant : ∃ (id : Nat) (c : DiskCmd) (s : State),
    (s.powered = true) ∧ (findCmd s id = some c) ∧ (c.granted = false) ∧ (blocker s c = none) :=
  ⟨(1), ({ id := 1 }), ({ full with diskq := { full.diskq with cmds := [{ id := 1 }] } }), by decide⟩

theorem witness_lockWaits : ∃ (id : Nat) (c : DiskCmd) (b : DiskCmd) (s : State),
    (s.powered = true) ∧ (findCmd s id = some c) ∧ (blocker s c = some b) :=
  ⟨(2), ({ id := 2, cls := 33, count := 1 }), ({ id := 1, cls := 33, count := 1 }), ({ full with diskq := { full.diskq with cmds := [{ id := 1, cls := 33, count := 1 }, { id := 2, cls := 33, count := 1 }] } }), by decide⟩

theorem witness_lockAged : ∃ (id : Nat) (ms : Nat) (c : DiskCmd) (s : State),
    (Up s) ∧ (CanRecord s) ∧ (findCmd s id = some c) ∧ (c.granted = false) ∧ (c.aged = false) ∧ (2000 ≤ ms) :=
  ⟨(1), (2000), ({ id := 1 }), ({ full with diskq := { full.diskq with cmds := [{ id := 1 }] } }), by decide +kernel⟩

theorem witness_diskCommandComplete : ∃ (id : Nat) (p : Nat) (c : DiskCmd) (s : State),
    (s.powered = true) ∧ (s.supply.pfail = false) ∧ (findCmd s id = some c) ∧ (c.granted = true) ∧ (c.abort = none) ∧ (c.count ≤ c.done.length + c.failed.length) ∧ (c.sealLoad = 0) ∧ (c.xtsLoad = 0) ∧ (s.channel.parkWanted = false) ∧ (c.ring < 32) ∧ (p < 32) ∧ (c.ring ≠ p) ∧ ((s.ring c.ring).opened = true) ∧ ((s.ring c.ring).closing = false) ∧ ((s.ring c.ring).pair = some p) ∧ (c.fail = none) :=
  ⟨(1), (2), ({ id := 1, ring := 1, cls := 33, tag := 7, count := 1, done := [0], granted := true }), ({ full with diskq := { full.diskq with cmds := [{ id := 1, ring := 1, cls := 33, tag := 7, count := 1, done := [0], granted := true }] } }), by decide⟩

theorem witness_diskCommandFails : ∃ (id : Nat) (p : Nat) (st : Nat) (c : DiskCmd) (s : State),
    (s.powered = true) ∧ (s.supply.pfail = false) ∧ (findCmd s id = some c) ∧ (c.granted = true) ∧ (c.abort = none) ∧ (c.count ≤ c.done.length + c.failed.length) ∧ (c.sealLoad = 0) ∧ (c.xtsLoad = 0) ∧ (s.channel.parkWanted = false) ∧ (c.ring < 32) ∧ (p < 32) ∧ (c.ring ≠ p) ∧ ((s.ring c.ring).opened = true) ∧ ((s.ring c.ring).closing = false) ∧ ((s.ring c.ring).pair = some p) ∧ (c.fail = some st) ∧ (st ≠ St.ok) ∧ (c.cls ≠ 0x20) :=
  ⟨(1), (2), (0x33), ({ id := 1, ring := 1, cls := 33, tag := 7, count := 1, failed := [0], fail := some 0x33, granted := true }), ({ full with diskq := { full.diskq with cmds := [{ id := 1, ring := 1, cls := 33, tag := 7, count := 1, failed := [0], fail := some 0x33, granted := true }] } }), by decide⟩

theorem witness_diskGetStatus : ∃ (c : Call) (q : DiskQ) (w : List DiskCmd) (s : State),
    (Served cmdDiskGetStatus c s) ∧ (q = s.diskq) ∧ (w = q.cmds.filter (fun x => !x.granted)) :=
  ⟨(wcall 0 []), (full.diskq), ([]), (full), by decide⟩

theorem witness_diskTagLimit : ∃ (c : Call) (s : State),
    (Served cmdDiskTagLimit c s) :=
  ⟨(wcall 0 (bs [1, 0, 9, 0])), (full), by decide⟩

/-! ### RecordingClosesAndHandsOver -/

theorem witness_sectorCloseTimer : ∃ (n : Fin 512) (o : OpenSector) (s : State),
    (s.powered = true) ∧ ((recChan s n).opened = [o]) ∧ (closeDue s (recChan s n) o = true) :=
  ⟨(5), ({ since := 0 }), ({ full with diskq := { full.diskq with chans := [(5, { maxFillMs := 0, payloadBytes := 1000, opened := [{ since := 0 }] })] } }), by decide⟩

theorem witness_framedHoldRelease : ∃ (n : Fin 512) (q : Nat) (at_ : Nat) (b : Bytes) (blue : Bool) (t : Time) (s : State),
    (s.powered = true) ∧ ((recChan s n).framed = true) ∧ ((recChan s n).heldPkts = [(q, b, blue, t, at_)]) ∧ (at_ + (recChan s n).mergeUs ≤ s.up) :=
  ⟨(5), (9), (0), ([7]), (false), ({}), ({ full with diskq := { full.diskq with chans := [(5, { flags := 3, segmentS := 10, heldPkts := [(9, [7], false, {}, 0)] })], logArea := some (256, 65536), logNext := 300 }, up := 10000 }), by decide⟩

theorem witness_sectorHandOver : ∃ (n : Fin 512) (x : ClosedSector) (g : Segment) (s : State),
    (s.powered = true) ∧ (s.supply.mode = .run) ∧ (s.supply.change = none) ∧ (s.supply.pfail = false) ∧ (nextClosed (recChan s n) = some x) ∧ (gapBefore (recChan s n) x = false) ∧ (s.diskq.logArea.isSome = true) ∧ (s.diskq.recTags < 128) ∧ ((s.diskq.logNext - logFirst s) % 256 ≠ 0) ∧ (x.sealSlot = none) ∧ (x.mirror = 0) ∧ (x.yealm = none) ∧ (x.origin = none) ∧ (x.flags % 2 = 0) ∧ (findSeg s x.segment = some g) :=
  ⟨(5), ({ segment := 1 }), ({ id := 1 }), ({ full with diskq := { full.diskq with chans := [(5, { closed := [{ segment := 1 }] })], logArea := some (256, 65536), logNext := 300, segs := [{ id := 1 }] } }), by decide⟩

theorem witness_segmentOpens : ∃ (n : Fin 512) (x : ClosedSector) (s : State),
    (s.powered = true) ∧ (s.supply.mode = .run) ∧ (s.supply.change = none) ∧ (s.supply.pfail = false) ∧ (nextClosed (recChan s n) = some x) ∧ (gapBefore (recChan s n) x = false) ∧ (s.diskq.logArea.isSome = true) ∧ (s.diskq.recTags < 128) ∧ ((s.diskq.logNext - logFirst s) % 256 ≠ 0) ∧ (x.sealSlot = none) ∧ (x.mirror = 0) ∧ (x.yealm = none) ∧ (x.origin = none) ∧ (x.flags % 2 = 0) ∧ (Up s) ∧ (CanRecord s) ∧ (findSeg s x.segment = none) ∧ (recOwner s < 8) :=
  ⟨(5), ({ segment := 1 }), ({ full with diskq := { full.diskq with chans := [(5, { closed := [{ segment := 1 }] })], logArea := some (256, 65536), logNext := 300 } }), by decide +kernel⟩

theorem witness_recordedSectorVerified : ∃ (lba : Nat) (k : Nat) (sec : Nat) (ns : Nat) (frac : Nat) (n : Nat) (other : Bool) (x : ClosedSector) (s : State),
    (s.powered = true) ∧ (mediumWritable s = true) ∧ (recAt s lba = some (n, x)) ∧ (x.sealUse = none) ∧ (x.onSpare = false) ∧ (x.origin = none) ∧ (x.gseq = none) :=
  ⟨(300), (0), (1), (2), (3), (5), (false), ({ lba := some 300 }), ({ full with diskq := { full.diskq with chans := [(5, { closed := [{ lba := some 300 }] })], logArea := some (256, 65536), logNext := 300 } }), by decide +kernel⟩

theorem witness_segmentClosed : ∃ (n : Fin 512) (start : Nat) (g : Segment) (s : State),
    (Up s) ∧ (CanRecord s) ∧ (s.diskq.segs.find? (fun g => g.channel == n.val && g.start == start && g.flags.testBit 0 && !g.retired && !segmentBusy s n.val g.id && ((mget s.diskq.segEnds g.id).isSome || decide (g.stop * 1000000 + (recChan s n.val).mergeUs ≤ taiUs s))) = some g) ∧ (mget s.diskq.segEnds g.id = none) ∧ (g.verified.isSome = true) ∧ (recOwner s < 8) :=
  ⟨(5), (0), ({ id := 1, channel := 5, flags := 1, stop := 10, verified := some (300, 0) }), ({ full with diskq := { full.diskq with chans := [(5, {})], logArea := some (256, 65536), logNext := 300, segs := [{ id := 1, channel := 5, flags := 1, stop := 10, verified := some (300, 0) }] }, timebase := { full.timebase with now := { sec := 11 } } }), by decide +kernel⟩

theorem witness_blockSummary : ∃ (b : Nat) (sec : Nat) (ns : Nat) (frac : Nat) (lba : Nat) (m : AMap Bytes) (s : State),
    (s.powered = true) ∧ (mediumWritable s = true) ∧ (m = mgetD s.diskq.summary b []) ∧ (m.length = 255) ∧ (s.diskq.logArea.isSome = true) ∧ (lba = logFirst s + b * 256 + 255) :=
  ⟨(0), (1), (2), (3), (511), (List.replicate 255 (0, [])), ({ full with diskq := { full.diskq with chans := [(5, {})], logArea := some (256, 65536), logNext := 300, summary := [(0, List.replicate 255 (0, []))] } }), by decide +kernel⟩

/-! ### RecordingRequestsServe -/

theorem witness_recAreaSet : ∃ (c : Call) (p : Bytes) (s : State),
    (Served cmdRecAreaSet c s) ∧ (p = c.payload) ∧ (s.channel.format.isSome = true) ∧ (recEnabled s = false) ∧ (s.timebase.persistFails = false) ∧ (s.diskq.logArea ≠ some (rd p 0 6, rd p 8 6)) ∧ (s.diskq.segs = []) :=
  ⟨(wcall 0 (bs [0, 1, 0, 0, 0, 0, 0, 0, 0, 0, 1, 0, 0, 0, 0, 0])), (bs [0, 1, 0, 0, 0, 0, 0, 0, 0, 0, 1, 0, 0, 0, 0, 0]), ({ full with channel := { full.channel with maxLba := 1000000 } }), by decide +kernel⟩

theorem witness_recChannelSet : ∃ (c : Call) (p : Bytes) (n : Nat) (i : Nat) (s : State),
    (Served cmdRecChannelSet c s) ∧ (p = c.payload) ∧ (n = rd p 0 2) ∧ (i = rd p 14 2) ∧ ((byteAt p 2).testBit 0 = true) ∧ ((byteAt p 2).testBit 3 = false) ∧ ((recChan s n).flags.testBit 0 = false) ∧ (s.diskq.logArea.isSome = true) ∧ (recIndexFree s n i = true) :=
  ⟨(wcall 0 (bs ([5, 0, 1, 0, 0, 1, 100, 0, 1, 0, 10, 0, 0, 0, 9, 0, 255, 255] ++ List.replicate 14 0 ++ [1, 0, 1, 2] ++ List.replicate 54 0 ++ [5, 0] ++ List.replicate 68 0))), (bs ([5, 0, 1, 0, 0, 1, 100, 0, 1, 0, 10, 0, 0, 0, 9, 0, 255, 255] ++ List.replicate 14 0 ++ [1, 0, 1, 2] ++ List.replicate 54 0 ++ [5, 0] ++ List.replicate 68 0)), (5), (9), ({ full with diskq := { full.diskq with logArea := some (256, 65536) } }), by decide +kernel⟩

theorem witness_recChannelOff : ∃ (c : Call) (p : Bytes) (n : Nat) (s : State),
    (Served cmdRecChannelSet c s) ∧ (p = c.payload) ∧ (n = rd p 0 2) ∧ ((byteAt p 2).testBit 0 = false) ∧ ((recChan s n).flags.testBit 0 = true) ∧ ((recChan s n).flags.testBit 3 = false) ∧ ((recChan s n).opened = []) ∧ ((recChan s n).heldPkts = []) ∧ ((recChan s n).segment = none) ∧ (s.diskq.logFull = false) :=
  ⟨(wcall 0 (bs ([5] ++ List.replicate 159 0))), (bs ([5] ++ List.replicate 159 0)), (5), ({ full with diskq := { full.diskq with chans := [(5, { flags := 1, redFlow := 9 })], logArea := some (256, 65536), logNext := 300 } }), by decide +kernel⟩

theorem witness_recChannelStatus : ∃ (c : Call) (x : RecChan) (s : State),
    (Served cmdRecChannelStatus c s) ∧ (x = recChan s (rd c.payload 0 2)) :=
  ⟨(wcall 0 (bs [5, 0, 0, 0])), ({ flags := 1, redFlow := 9 }), ({ full with diskq := { full.diskq with chans := [(5, { flags := 1, redFlow := 9 })], logArea := some (256, 65536), logNext := 300 } }), by decide⟩

theorem witness_recSegList : ∃ (c : Call) (l : List Segment) (s : State),
    (Served cmdRecSegList c s) ∧ (l = (segsFrom s (rd c.payload 0 2) (rd c.payload 4 6)).take (byteAt c.payload 10)) ∧ (l ≠ []) :=
  ⟨(wcall 0 (bs [5, 0, 0, 0, 0, 0, 0, 0, 0, 0, 2, 0])), ([{ id := 1, channel := 5, flags := 1 }]), ({ full with diskq := { full.diskq with chans := [(5, { flags := 1 })], logArea := some (256, 65536), logNext := 300, segs := [{ id := 1, channel := 5, flags := 1 }] } }), by decide⟩

theorem witness_recSegHold : ∃ (c : Call) (g : Segment) (s : State),
    (Served cmdRecSegHold c s) ∧ (CanRecord s) ∧ (s.campel = true) ∧ (byteAt c.payload 2 = 1) ∧ (segByStart s (rd c.payload 0 2) (rd c.payload 4 6) = some g) ∧ (g.flags.testBit 1 = false) ∧ (heldSegs s < 64) :=
  ⟨(wcall 0 (bs [5, 0, 1, 0, 0, 0, 0, 0, 0, 0, 0, 0])), ({ id := 1, channel := 5, flags := 1 }), ({ full with diskq := { full.diskq with chans := [(5, { flags := 1 })], logArea := some (256, 65536), logNext := 300, segs := [{ id := 1, channel := 5, flags := 1 }] } }), by decide +kernel⟩

theorem witness_recSegHoldQuota : ∃ (c : Call) (g : Segment) (s : State),
    (Served cmdRecSegHold c s) ∧ (byteAt c.payload 2 = 1) ∧ (segByStart s (rd c.payload 0 2) (rd c.payload 4 6) = some g) ∧ (g.flags.testBit 1 = false) ∧ (64 ≤ heldSegs s) :=
  ⟨(wcall 0 (bs [5, 0, 1, 0, 0, 0, 0, 0, 0, 0, 0, 0])), ({ id := 1, channel := 5, flags := 1 }), ({ full with diskq := { full.diskq with segs := List.replicate 64 { id := 2, flags := 2 } ++ [{ id := 1, channel := 5, flags := 1 }] } }), by decide +kernel⟩

theorem witness_recRead : ∃ (c : Call) (p : Bytes) (i : Nat) (s : State),
    (Served cmdRecRead c s) ∧ (MayAccept c s) ∧ (p = c.payload) ∧ (i = hIndex (rd p 20 4)) ∧ (byteAt p 18 = 1) ∧ (rd p 24 4 = 0) ∧ (s.channel.format.isSome = true) ∧ (s.channel.state ≠ .fault) ∧ (s.channel.slices.any id = true) ∧ (setupInForce s = true) :=
  ⟨(wcall 0 (bs [5, 0, 0, 0, 0, 0, 0, 0, 0, 0, 0, 0, 0, 0, 0, 0, 1, 0, 1, 0, 64, 156, 32, 0, 0, 0, 0, 0])), (bs [5, 0, 0, 0, 0, 0, 0, 0, 0, 0, 0, 0, 0, 0, 0, 0, 1, 0, 1, 0, 64, 156, 32, 0, 0, 0, 0, 0]), (40000), ({ full with diskq := { full.diskq with chans := [(5, { flags := 1 })], logArea := some (256, 65536), logNext := 300 } }), by decide +kernel⟩

/-! ### RadioTunesAndReads -/

theorem witness_patternApply : ∃ (b : Fin 4) (sec : Nat) (t : Nat) (p : Tdd) (s : State),
    (s.powered = true) ∧ (radioRuns s = true) ∧ ((s.bandOf b).tddNext = some (p, t)) ∧ (t ≤ sec) ∧ ((s.bandOf b).flags.testBit 0 = true) :=
  ⟨(0), (9), (8), ({}), ({ full with radio := { full.radio with band := full.radio.band.set 0 { flags := 1, tddNext := some ({}, 8) } } }), by decide⟩

theorem witness_calWaitEnd : ∃ (i : Fin 4) (us : Nat) (v : Nat) (r : Nat) (e : Nat) (q : Bool) (s : State),
    (s.powered = true) ∧ (radioRuns s = true) ∧ ((s.synthOf i).work = .cal e q) ∧ ((s.synthOf i).calWaitUs ≤ us) ∧ ((s.synthOf i).calRun = false) ∧ (Nat.land (r % 2 ^ 32) (s.synthOf i).lockMask = (s.synthOf i).lockValue) ∧ ((s.synthOf i).auto = false) ∧ ((s.bandOf i).activate = false) ∧ ((s.bandOf i).causes ≠ 0) ∧ (hasCause s i 12 = true) ∧ (lacksDetector s i = true) ∧ (findJob s 0x0707 i = none) ∧ (findJob s 0x0709 i = none) :=
  ⟨(0), (10), (7), (0), (3), (false), ({ full with radio := { full.radio with synth := full.radio.synth.set 0 { work := .cal 3 false }, band := full.radio.band.set 0 { state := .tuning, tuneMute := true, causes := 2048 } } }), by decide⟩

theorem witness_calRetried : ∃ (i : Fin 4) (us : Nat) (v : Nat) (r : Nat) (e : Nat) (q : Bool) (s : State),
    (s.powered = true) ∧ (radioRuns s = true) ∧ ((s.synthOf i).work = .cal e q) ∧ ((s.synthOf i).calWaitUs ≤ us) ∧ ((s.synthOf i).calRun = false) ∧ (Nat.land (r % 2 ^ 32) (s.synthOf i).lockMask ≠ (s.synthOf i).lockValue) ∧ (q = false) :=
  ⟨(0), (10), (7), (0), (3), (false), ({ full with radio := { full.radio with synth := full.radio.synth.set 0 { work := .cal 3 false, lockMask := 1, lockValue := 1 } } }), by decide⟩

theorem witness_hopLockCheck : ∃ (i : Fin 4) (ns : Nat) (r : Nat) (e : Nat) (q : Bool) (s : State),
    (s.powered = true) ∧ (radioRuns s = true) ∧ ((s.synthOf i).work = .hop e q) ∧ ((s.synthOf i).lockNs ≤ ns) ∧ ((s.synthOf i).calRun = false) ∧ (Nat.land (r % 2 ^ 32) (s.synthOf i).lockMask = (s.synthOf i).lockValue) ∧ ((s.synthOf i).auto = false) ∧ ((s.bandOf i).activate = false) ∧ (hasCause s i 12 = true) ∧ (lacksDetector s i = true) ∧ (findJob s 0x0707 i = none) ∧ (findJob s 0x0709 i = none) :=
  ⟨(0), (500), (0), (3), (false), ({ full with radio := { full.radio with synth := full.radio.synth.set 0 { work := .hop 3 false }, band := full.radio.band.set 0 { state := .tuning, tuneMute := true, causes := 2048 } } }), by decide⟩

theorem witness_hopFails : ∃ (i : Fin 4) (ns : Nat) (r : Nat) (e : Nat) (q : Bool) (s : State),
    (Up s) ∧ (CanRecord s) ∧ (s.isT = false) ∧ (radioRuns s = true) ∧ ((s.synthOf i).work = .hop e q) ∧ ((s.synthOf i).lockNs ≤ ns) ∧ ((s.synthOf i).calRun = false) ∧ (Nat.land (r % 2 ^ 32) (s.synthOf i).lockMask ≠ (s.synthOf i).lockValue) ∧ (q = true) ∧ ((s.synthOf i).auto = false) ∧ (findJob s 0x0707 i = none) ∧ (findJob s 0x0709 i = none) :=
  ⟨(0), (500), (0), (3), (true), ({ full with radio := { full.radio with synth := full.radio.synth.set 0 { work := .hop 3 true, lockMask := 1, lockValue := 1 } } }), by decide +kernel⟩

theorem witness_lockPoll : ∃ (i : Fin 4) (r : Nat) (s : State),
    (s.powered = true) ∧ (radioRuns s = true) ∧ ((s.bandOf i).state = .standby ∨ (s.bandOf i).state = .active) ∧ (Nat.land (r % 2 ^ 32) (s.synthOf i).lockMask = (s.synthOf i).lockValue) :=
  ⟨(0), (0), ({ full with radio := { full.radio with band := full.radio.band.set 0 { state := .active } } }), by decide⟩

theorem witness_lockLost : ∃ (i : Fin 4) (r : Nat) (s : State),
    (Up s) ∧ (s.isT = false) ∧ (radioRuns s = true) ∧ ((s.bandOf i).state = .standby ∨ (s.bandOf i).state = .active) ∧ (Nat.land (r % 2 ^ 32) (s.synthOf i).lockMask ≠ (s.synthOf i).lockValue) :=
  ⟨(0), (0), ({ full with radio := { full.radio with synth := full.radio.synth.set 0 { lockMask := 1, lockValue := 1 }, band := full.radio.band.set 0 { state := .active }, path := full.radio.path.set 0 { muted := false } } }), by decide⟩

theorem witness_temperatureRead : ∃ (i : Fin 4) (t : Int) (n : Nat) (s : State),
    (s.powered = true) ∧ (radioRuns s = true) ∧ ((s.synthOf i).tempSrc = 0) ∧ ((s.synthOf i).rebase = false) ∧ ((s.bandOf i).state = .off) :=
  ⟨(0), (3000), (0), ({ full with radio := { full.radio with synth := full.radio.synth.set 0 { entries := [(3, { state := .calibrated })] } } }), by decide⟩

theorem witness_auxBusStuck : ∃ (i : Fin 4) (t : Int) (n : Nat) (s : State),
    (Up s) ∧ (CanRecord s) ∧ (radioRuns s = true) ∧ (s.isT = false) ∧ ((s.synthOf i).tempSrc = 1) ∧ (s.radio.auxStuck = false) ∧ (3 < n) :=
  ⟨(0), (3000), (4), ({ full with radio := { full.radio with synth := full.radio.synth.set 0 { tempSrc := 1 } } }), by decide +kernel⟩

theorem witness_rfFrameDone : ∃ (rx : Nat) (f : RfFrame) (g : RfFrame) (l : List RfFrame) (s : State),
    (s.powered = true) ∧ (radioRuns s = true) ∧ (s.radio.rfNow = some f) ∧ (s.radio.frames = g :: l) :=
  ⟨(5), ({}), ({ word := 9 }), ([]), ({ full with radio := { full.radio with rfNow := some {}, frames := [{ word := 9 }] } }), by decide⟩

theorem witness_rfLastFrameDone : ∃ (rx : Nat) (f : RfFrame) (s : State),
    (s.powered = true) ∧ (radioRuns s = true) ∧ (s.radio.rfNow = some f) ∧ (s.radio.frames = []) :=
  ⟨(5), ({}), ({ full with radio := { full.radio with rfNow := some {} } }), by decide⟩

theorem witness_detectorConversion : ∃ (n : Fin 8) (v : Fin 4096) (t : Nat) (d : Detector) (s : State),
    (s.powered = true) ∧ (radioRuns s = true) ∧ (d = vat s.radio.det n) ∧ (d.seen + 1 < d.windowUs / 4) ∧ (d.role ≠ 0) ∧ (detCounts s d = true) :=
  ⟨(0), (99), (7), ({ role := 1 }), ({ full with radio := { full.radio with det := full.radio.det.set 0 { role := 1 } } }), by decide⟩

theorem witness_auxStuckRetry : ∃ (s : State),
    (s.powered = true) ∧ (radioRuns s = true) ∧ (s.radio.auxStuck = true) :=
  ⟨({ full with radio := { full.radio with auxStuck := true } }), by decide⟩

theorem witness_auxWriteEnds : ∃ (ms : Nat) (d : Bytes) (j : Job) (n : Nat) (s : State),
    (s.powered = true) ∧ (s.campel = true) ∧ (s.supply.holdUp = false) ∧ (j.origin = none) ∧ (eventRing s j.tenant = some n) ∧ ((s.ring n).lost = 0) ∧ ((s.ring n).log2 ≤ 12) ∧ (s.jobs.find? (fun j => j.op == 0x0711) = some j) ∧ (byteAt j.data 3 % 2 = 1) ∧ (ms ≤ 25) :=
  ⟨(25), ([]), ({ op := 0x0711, token := 5, data := bs [80, 3, 1, 1, 9], waits := true }), (0), ({ full with jobs := [{ op := 0x0711, token := 5, data := bs [80, 3, 1, 1, 9], waits := true }] }), by decide⟩

/-! ### RadioRequestsServe -/

theorem witness_radioGetStatus : ∃ (c : Call) (s : State),
    (Served cmdRadioGetStatus c s) :=
  ⟨(wcall 0 []), (full), by decide⟩

theorem witness_radioDeviceSet : ∃ (c : Call) (p : Bytes) (s : State),
    (Served cmdRadioDeviceSet c s) ∧ (p = c.payload) ∧ (csInUse s (byteAt p 0) = false) :=
  ⟨(wcall 0 (bs [1, 24, 10, 2])), (bs [1, 24, 10, 2]), (full), by decide⟩

theorem witness_radioBandConfig : ∃ (c : Call) (p : Bytes) (s : State),
    (Served cmdRadioBandConfig c s) ∧ (p = c.payload) ∧ (bandIdle s (byteAt p 0) = true) :=
  ⟨(wcall 0 (bs [1, 2, 3, 0, 2, 4, 0, 0, 5, 0, 0, 0, 6, 0, 0, 0])), (bs [1, 2, 3, 0, 2, 4, 0, 0, 5, 0, 0, 0, 6, 0, 0, 0]), (full), by decide⟩

theorem witness_radioSynthConfig : ∃ (c : Call) (p : Bytes) (s : State),
    (Served cmdRadioSynthConfig c s) ∧ (p = c.payload) ∧ (bandIdle s (byteAt p 0) = true) ∧ ((s.synthOf (byteAt p 0)).calRun = false) :=
  ⟨(wcall 0 (bs ([1, 2, 3, 1] ++ List.replicate 12 0 ++ [4, 0, 0, 0, 20, 0, 244, 1] ++ List.replicate 12 0))), (bs ([1, 2, 3, 1] ++ List.replicate 12 0 ++ [4, 0, 0, 0, 20, 0, 244, 1] ++ List.replicate 12 0)), (full), by decide⟩

theorem witness_radioSynthTableSet : ∃ (c : Call) (p : Bytes) (a : Nat) (s : State),
    (Served cmdRadioSynthTableSet c s) ∧ (p = c.payload) ∧ (a = yAddr (hIndex (rd p 4 4)) 0) ∧ (s.loft.poisoned a (16 * byteAt p 2) = false) ∧ ((List.range (byteAt p 2)).all (fun k => zeroAt (Machine.loftRead s a (16 * byteAt p 2)) (16 * k + 4 + 4 * (s.synthOf (byteAt p 0)).words) (12 - 4 * (s.synthOf (byteAt p 0)).words)) = true) ∧ (bandIdle s (byteAt p 0) = true) :=
  ⟨(wcall 0 (bs [1, 3, 2, 0, 64, 156, 32, 0])), (bs [1, 3, 2, 0, 64, 156, 32, 0]), (yAddr 40000 0), (full), by decide +kernel⟩

theorem witness_radioSynthCal : ∃ (c : Call) (p : Bytes) (e : Nat) (l : List Nat) (s : State),
    (Served cmdRadioSynthCal c s) ∧ (MayAccept c s) ∧ (p = c.payload) ∧ (bandIdle s (byteAt p 0) = true) ∧ ((s.synthOf (byteAt p 0)).calRun = false) ∧ (maskEntries (rd p 4 8) = e :: l) :=
  ⟨(wcall 0 (bs [0, 0, 0, 0, 6, 0, 0, 0, 0, 0, 0, 0])), (bs [0, 0, 0, 0, 6, 0, 0, 0, 0, 0, 0, 0]), (1), ([2]), (full), by decide⟩

theorem witness_radioBandStart : ∃ (c : Call) (p : Bytes) (b : Nat) (s : State),
    (Served cmdRadioBandStart c s) ∧ (MayAccept c s) ∧ (p = c.payload) ∧ (b = byteAt p 0) ∧ (radioRuns s = true) ∧ ((s.synthOf b).calRun = false) ∧ ((s.bandOf b).flags.testBit 0 = false) ∧ ((s.bandOf b).state = .off) ∧ ((synthEntry s b (s.bandOf b).startEntry).state = .uncalibrated) :=
  ⟨(wcall 0 (bs [1, 1, 0, 0])), (bs [1, 1, 0, 0]), (1), (full), by decide⟩

theorem witness_radioBandStop : ∃ (c : Call) (p : Bytes) (s : State),
    (Served cmdRadioBandStop c s) ∧ (p = c.payload) ∧ ((s.bandOf (byteAt p 0)).state = .standby) ∧ ((s.synthOf (byteAt p 0)).calRun = false) ∧ (findJob s 0x0707 (byteAt p 0) = none) ∧ (findJob s 0x0709 (byteAt p 0) = none) :=
  ⟨(wcall 0 (bs [0, 0, 0, 0])), (bs [0, 0, 0, 0]), ({ full with radio := { full.radio with band := full.radio.band.set 0 { state := .standby } } }), by decide⟩

theorem witness_radioBandHop : ∃ (c : Call) (p : Bytes) (b : Nat) (s : State),
    (Served cmdRadioBandHop c s) ∧ (MayAccept c s) ∧ (p = c.payload) ∧ (b = byteAt p 0) ∧ ((s.bandOf b).state = .standby ∨ (s.bandOf b).state = .active) ∧ ((synthEntry s b (byteAt p 1)).state = .calibrated) :=
  ⟨(wcall 0 (bs [0, 3, 0, 0])), (bs [0, 3, 0, 0]), (0), ({ full with radio := { full.radio with synth := full.radio.synth.set 0 { entries := [(3, { state := .calibrated })] }, band := full.radio.band.set 0 { state := .standby } } }), by decide⟩

theorem witness_radioTddSet : ∃ (c : Call) (p : Bytes) (s : State),
    (Served cmdRadioTddSet c s) ∧ (p = c.payload) :=
  ⟨(wcall 0 (bs [1, 2, 136, 19, 0, 0, 0, 0, 0, 0, 0, 0, 0, 0, 0, 0, 1, 0, 0, 0, 160, 37, 38, 0, 2, 0, 0, 0])), (bs [1, 2, 136, 19, 0, 0, 0, 0, 0, 0, 0, 0, 0, 0, 0, 0, 1, 0, 0, 0, 160, 37, 38, 0, 2, 0, 0, 0]), (full), by decide⟩

theorem witness_radioPowerTableSet : ∃ (c : Call) (p : Bytes) (a : Nat) (s : State),
    (Served cmdRadioPowerTableSet c s) ∧ (p = c.payload) ∧ (a = yAddr (hIndex (rd p 12 4)) 0) ∧ (s.loft.poisoned a 256 = false) ∧ ((List.range 64).all (fun i => decide (rd (Machine.loftRead s a 256) (4 * i + 2) 2 < 4096)) = true) ∧ ((s.pathOf (byteAt p 0)).muted = true) :=
  ⟨(wcall 0 (bs [1, 0, 5, 0, 6, 0, 7, 0, 2, 0, 0, 0, 64, 156, 32, 0])), (bs [1, 0, 5, 0, 6, 0, 7, 0, 2, 0, 0, 0, 64, 156, 32, 0]), (yAddr 40000 0), (full), by decide +kernel⟩

theorem witness_radioPowerSet : ∃ (c : Call) (p : Bytes) (k : Nat) (s : State),
    (Served cmdRadioPowerSet c s) ∧ (p = c.payload) ∧ (k = byteAt p 0) ∧ ((s.pathOf k).ceiling.isSome = true) ∧ ((s.pathOf k).stage = 0) ∧ ((s.pathOf k).muted = true) ∧ (byteAt p 1 ≤ pathCeiling s k) :=
  ⟨(wcall 0 (bs [1, 9, 0, 0])), (bs [1, 9, 0, 0]), (1), ({ full with radio := { full.radio with path := full.radio.path.set 1 { ceiling := some 63 } } }), by decide⟩

theorem witness_powerLimited : ∃ (c : Call) (p : Bytes) (k : Nat) (s : State),
    (Served cmdRadioPowerSet c s) ∧ (CanRecord s) ∧ (s.campel = true) ∧ (s.isT = false) ∧ (p = c.payload) ∧ (k = byteAt p 0) ∧ ((s.pathOf k).ceiling.isSome = true) ∧ ((s.pathOf k).stage = 0) ∧ ((s.pathOf k).muted = true) ∧ (pathCeiling s k < byteAt p 1) ∧ (0 < pathCeiling s k) :=
  ⟨(wcall 0 (bs [1, 9, 0, 0])), (bs [1, 9, 0, 0]), (1), ({ full with radio := { full.radio with path := full.radio.path.set 1 { ceiling := some 8 } } }), by decide +kernel⟩

theorem witness_radioBiasConfig : ∃ (c : Call) (p : Bytes) (s : State),
    (Served cmdRadioBiasConfig c s) ∧ (p = c.payload) ∧ (byteAt p 1 = 255) ∧ (radioRuns s = true) ∧ (s.supply.mode = .run) :=
  ⟨(wcall 0 (bs [1, 255, 9, 0])), (bs [1, 255, 9, 0]), (full), by decide⟩

theorem witness_radioDetConfig : ∃ (c : Call) (p : Bytes) (s : State),
    (Served cmdRadioDetConfig c s) ∧ (p = c.payload) ∧ ((∀ b : Fin 4, (s.bandOf b).state = .off)) :=
  ⟨(wcall 0 (bs [1, 1, 2, 0, 20, 0, 0, 0, 100, 0, 0, 0])), (bs [1, 1, 2, 0, 20, 0, 0, 0, 100, 0, 0, 0]), (full), by decide⟩

theorem witness_radioDetRead : ∃ (c : Call) (s : State),
    (Served cmdRadioDetRead c s) :=
  ⟨(wcall 0 (bs [3, 0, 0, 0])), (full), by decide⟩

theorem witness_radioRfspiXfer : ∃ (c : Call) (p : Bytes) (s : State),
    (Served cmdRadioRfspiXfer c s) ∧ (p = c.payload) ∧ (csInUse s (byteAt p 0) = false) :=
  ⟨(wcall 0 (bs [1, 0, 0, 0, 9, 0, 0, 0])), (bs [1, 0, 0, 0, 9, 0, 0, 0]), (full), by decide⟩

theorem witness_radioAuxXfer : ∃ (c : Call) (s : State),
    (Served cmdRadioAuxXfer c s) ∧ (MayAccept c s) ∧ (s.radio.auxStuck = false) :=
  ⟨(wcall 0 (bs ([80, 3, 2, 0] ++ List.replicate 32 0))), (full), by decide⟩

/-! ### EaveEstimatesAndMutes -/

theorem witness_isoEstimate : ∃ (p : Fin 8) (n : Nat) (q : Nat) (a : Nat) (l : Int) (c : Int) (e : Int) (s : State),
    (s.powered = true) ∧ (radioRuns s = true) ∧ ((s.bandOf (p / 2)).state = .active) ∧ (512 ≤ n) ∧ (2 * q ≤ n) ∧ ((s.pathOf p).iso = none) ∧ (newCeiling s p (allowed s p (l - (max c e + 124))) = some a) ∧ ((s.pathOf p).cmd ≤ a - (if s.radio.thermBack then (s.bandOf (p / 2)).thermBackoff else 0)) ∧ (hasCause s (p / 2) 9 = false) :=
  ⟨(0), (600), (0), (0), (500), (-800), (-900), ({ full with radio := { full.radio with band := full.radio.band.set 0 { state := .active, rise := 4 }, path := (full.radio.path.set 0 { muted := false,  }).set 1 { muted := false }, det := ((full.radio.det.set 0 { role := 1, target := 0 }).set 1 { role := 2, target := 0 }).set 2 { role := 1, target := 1 }, guardMute := false, modeMute := false } }), by decide⟩

theorem witness_estimateAging : ∃ (p : Fin 8) (ms : Nat) (a : Nat) (s : State),
    (s.powered = true) ∧ (radioRuns s = true) ∧ ((s.pathOf p).muted = false) ∧ (10000 < ms) ∧ ((s.pathOf p).ceiling = some a) ∧ ((s.pathOf p).cmd ≤ min (s.bandOf (p / 2)).guardStart a) ∧ (s.radio.thermBack = false) :=
  ⟨(0), (10001), (5), ({ full with radio := { full.radio with band := full.radio.band.set 0 { state := .active,  }, path := (full.radio.path.set 0 { muted := false, ceiling := some 5, iso := some 600 }).set 1 { muted := false }, det := ((full.radio.det.set 0 { role := 1, target := 0 }).set 1 { role := 2, target := 0 }).set 2 { role := 1, target := 1 }, guardMute := false, modeMute := false } }), by decide⟩

theorem witness_eaveIso : ∃ (n : Nat) (p : Fin 8) (s : State),
    (Up s) ∧ (CanRecord s) ∧ (s.isT = false) ∧ (radioRuns s = true) ∧ (60 ≤ n) ∧ ((s.pathOf p).iso.isSome = true) ∧ ((∀ k : Fin 8, k ≠ p → (s.pathOf k).iso = none)) :=
  ⟨(60), (0), ({ full with radio := { full.radio with band := full.radio.band.set 0 { state := .active,  }, path := (full.radio.path.set 0 { muted := false, iso := some 600 }).set 1 { muted := false }, det := ((full.radio.det.set 0 { role := 1, target := 0 }).set 1 { role := 2, target := 0 }).set 2 { role := 1, target := 1 }, guardMute := false, modeMute := false } }), by decide +kernel⟩

theorem witness_oscillationMute : ∃ (p : Fin 8) (n : Nat) (b : Nat) (o : Int) (i : Int) (s : State),
    (Up s) ∧ (CanRecord s) ∧ (s.isT = false) ∧ (radioRuns s = true) ∧ (b = p / 2) ∧ (bandLive s b = true) ∧ ((s.bandOf b).causes = 0) ∧ ((s.bandOf b).latched = none) ∧ (recentRestarts s b < 3) ∧ (5 ≤ n) ∧ (hasDet s 1 p = true) ∧ (hasDet s 2 p = true) ∧ (((s.bandOf b).oscExcess : Int) ≤ o - (i + appliedGain (s.pathOf p))) :=
  ⟨(0), (5), (0), (500), (-800), ({ full with radio := { full.radio with band := full.radio.band.set 0 { state := .active,  }, path := (full.radio.path.set 0 { muted := false,  }).set 1 { muted := false }, det := ((full.radio.det.set 0 { role := 1, target := 0 }).set 1 { role := 2, target := 0 }).set 2 { role := 1, target := 1 }, guardMute := false, modeMute := false } }), by decide +kernel⟩

theorem witness_noiseRise : ∃ (b : Fin 4) (n : Nat) (m : Int) (x : Int) (s : State),
    (Up s) ∧ (CanRecord s) ∧ (s.isT = false) ∧ (radioRuns s = true) ∧ (bandLive s b.val = true) ∧ ((s.bandOf b.val).causes = 0) ∧ ((s.bandOf b.val).latched = none) ∧ (recentRestarts s b.val < 3) ∧ ((s.bandOf b).gflags.testBit 0 = true) ∧ ((s.bandOf b).noisePersist ≤ n) ∧ (hasDet s 1 (2 * b + 1) = true) ∧ (hasDet s 2 (2 * b + 1) = true) ∧ ((s.bandOf b).noiseLimit < m) ∧ (x < (s.bandOf b).traffic) :=
  ⟨(0), (3), (0), (-1000), ({ full with radio := { full.radio with band := full.radio.band.set 0 { state := .active,  }, path := (full.radio.path.set 0 { muted := false,  }).set 1 { muted := false }, det := (full.radio.det.set 0 { role := 1, target := 1 }).set 1 { role := 2, target := 1 }, guardMute := false, modeMute := false } }), by decide +kernel⟩

theorem witness_outOfBand : ∃ (b : Fin 4) (n : Nat) (m : Int) (s : State),
    (Up s) ∧ (CanRecord s) ∧ (s.isT = false) ∧ (radioRuns s = true) ∧ (bandLive s b.val = true) ∧ ((s.bandOf b.val).causes = 0) ∧ ((s.bandOf b.val).latched = none) ∧ (recentRestarts s b.val < 3) ∧ ((s.bandOf b).gflags.testBit 1 = true) ∧ (2 ≤ n) ∧ (hasDet s 3 b = true) ∧ ((s.bandOf b).oobLimit < m) :=
  ⟨(0), (2), (0), ({ full with radio := { full.radio with band := full.radio.band.set 0 { state := .active,  }, path := (full.radio.path.set 0 { muted := false,  }).set 1 { muted := false }, det := full.radio.det.set 0 { role := 3, target := 0 }, guardMute := false, modeMute := false } }), by decide +kernel⟩

theorem witness_tddTimeMute : ∃ (b : Fin 4) (s : State),
    (Up s) ∧ (CanRecord s) ∧ (s.isT = false) ∧ (radioRuns s = true) ∧ (radioTimeOk s = false) ∧ (tddBand s b = true) ∧ ((s.bandOf b).causes = 0) ∧ ((∀ k : Fin 4, k ≠ b → tddBand s k = false)) :=
  ⟨(0), ({ full with radio := { full.radio with band := full.radio.band.set 0 { state := .active, flags := 1 }, path := (full.radio.path.set 0 { muted := false,  }).set 1 { muted := false }, det := ((full.radio.det.set 0 { role := 1, target := 0 }).set 1 { role := 2, target := 0 }).set 2 { role := 1, target := 1 }, guardMute := false, modeMute := false } }), by decide +kernel⟩

theorem witness_tddResume : ∃ (b : Fin 4) (ms : Nat) (s : State),
    (s.powered = true) ∧ (radioRuns s = true) ∧ (hasCause s b 4 = true) ∧ (radioTimeOk s = true) ∧ (1000 ≤ ms) :=
  ⟨(0), (1000), ({ full with radio := { full.radio with band := full.radio.band.set 0 { state := .active, flags := 1, causes := 8, quiet := true }, path := (full.radio.path.set 0 { muted := false,  }).set 1 { muted := false }, det := ((full.radio.det.set 0 { role := 1, target := 0 }).set 1 { role := 2, target := 0 }).set 2 { role := 1, target := 1 }, guardMute := false, modeMute := false } , timebase := { full.timebase with valid := true, cal := full.timebase.cal.set 15 { valid := true } } }), by decide +kernel⟩

/-! ### EaveMutesTheRepeaterAndServes -/

theorem witness_thermalMute : ∃ (n : Nat) (s : State),
    (Up s) ∧ (CanRecord s) ∧ (s.isT = false) ∧ (radioRuns s = true) ∧ (s.supply.thermWarn = true) ∧ (s.radio.thermMute = false) ∧ (60 ≤ n) :=
  ⟨(60), ({ full with radio := { full.radio with band := full.radio.band.set 0 { state := .active, configured := true, en := true }, path := (full.radio.path.set 0 { muted := false,  }).set 1 { muted := false }, det := ((full.radio.det.set 0 { role := 1, target := 0 }).set 1 { role := 2, target := 0 }).set 2 { role := 1, target := 1 }, guardMute := false, modeMute := false } , supply := { full.supply with thermWarn := true } }), by decide +kernel⟩

theorem witness_thermalMuteLift : ∃ (n : Nat) (s : State),
    (s.powered = true) ∧ (radioRuns s = true) ∧ (60 ≤ n) ∧ ((∀ p : Fin 8, (s.pathOf p).cmd ≤ (s.pathOf p).ceiling.getD 0)) :=
  ⟨(60), ({ full with radio := { full.radio with thermMute := true, modeMute := false } }), by decide⟩

theorem witness_rfKillAssert : ∃ (ns : Nat) (s : State),
    (Up s) ∧ (CanRecord s) ∧ (s.isT = false) ∧ (radioRuns s = true) ∧ (200 ≤ ns) ∧ (s.radio.killed = false) :=
  ⟨(200), ({ full with radio := { full.radio with band := full.radio.band.set 0 { state := .active, configured := true, en := true }, path := (full.radio.path.set 0 { muted := false,  }).set 1 { muted := false }, det := ((full.radio.det.set 0 { role := 1, target := 0 }).set 1 { role := 2, target := 0 }).set 2 { role := 1, target := 1 }, guardMute := false, modeMute := false } }), by decide +kernel⟩

theorem witness_rfKillRelease : ∃ (ms : Nat) (s : State),
    (Up s) ∧ (CanRecord s) ∧ (s.isT = false) ∧ (radioRuns s = true) ∧ (1000 ≤ ms) ∧ (s.radio.killed = true) :=
  ⟨(1000), ({ full with radio := { full.radio with killed := true, killN := false } }), by decide +kernel⟩

theorem witness_guardMuteRelease : ∃ (us : Nat) (s : State),
    (s.powered = true) ∧ (radioRuns s = true) ∧ (s.radio.guardMute = true) ∧ (s.supply.mode = .run) ∧ (s.supply.pfail = false) ∧ ((vat s.spars 2).state = .running) ∧ (s.radio.killN = true) ∧ (wholeCause s.radio = false) ∧ (1000 ≤ us) :=
  ⟨(1000), ({ full with spars := full.spars.set 2 { state := .running }, radio := { full.radio with modeMute := false, band := full.radio.band.set 0 { state := .active } } }), by decide⟩

theorem witness_backoffExpiry : ∃ (b : Fin 4) (n : Nat) (x : Nat) (s : State),
    (Up s) ∧ (CanRecord s) ∧ (s.isT = false) ∧ (radioRuns s = true) ∧ ((s.bandOf b).backoff = some x) ∧ ((s.bandOf b).latched = none) ∧ (wholeCause s.radio = false) ∧ ((s.bandOf b).backoffS ≤ n) :=
  ⟨(0), (10), (7), ({ full with radio := { full.radio with band := full.radio.band.set 0 { state := .active, causes := 1, backoff := some 7, backoffS := 10 }, path := (full.radio.path.set 0 { muted := false,  }).set 1 { muted := false }, det := ((full.radio.det.set 0 { role := 1, target := 0 }).set 1 { role := 2, target := 0 }).set 2 { role := 1, target := 1 }, guardMute := false, modeMute := false } }), by decide +kernel⟩

theorem witness_eaveGetStatus : ∃ (c : Call) (s : State),
    (Served cmdEaveGetStatus c s) :=
  ⟨(wcall 0 []), (full), by decide⟩

theorem witness_eaveConfig : ∃ (c : Call) (p : Bytes) (b : Nat) (s : State),
    (Served cmdEaveConfig c s) ∧ (p = c.payload) ∧ (CanRecord s) ∧ (s.campel = true) ∧ (b = byteAt p 0) ∧ ((s.bandOf b).state ≠ .active) :=
  ⟨(wcall 0 (bs [1, 30, 4, 3, 60, 0, 200, 0, 200, 0, 0, 255, 0, 255, 3, 6, 0, 255, 2, 0])), (bs [1, 30, 4, 3, 60, 0, 200, 0, 200, 0, 0, 255, 0, 255, 3, 6, 0, 255, 2, 0]), (1), (full), by decide +kernel⟩

theorem witness_eaveShutdown : ∃ (c : Call) (p : Bytes) (b : Nat) (s : State),
    (Served cmdEaveShutdown c s) ∧ (p = c.payload) ∧ (CanRecord s) ∧ (s.campel = true) ∧ (b < 4) ∧ (byteAt p 0 = 2 ^ b) ∧ (hasCause s b (4 + byteAt p 1) = false) :=
  ⟨(wcall 0 (bs [1, 2, 0, 0])), (bs [1, 2, 0, 0]), (0), ({ full with radio := { full.radio with band := full.radio.band.set 0 { state := .active, en := true }, path := (full.radio.path.set 0 { muted := false,  }).set 1 { muted := false }, det := ((full.radio.det.set 0 { role := 1, target := 0 }).set 1 { role := 2, target := 0 }).set 2 { role := 1, target := 1 }, guardMute := false, modeMute := false } }), by decide +kernel⟩

theorem witness_eaveClear : ∃ (c : Call) (p : Bytes) (b : Nat) (s : State),
    (Served cmdEaveClear c s) ∧ (p = c.payload) ∧ (CanRecord s) ∧ (s.campel = true) ∧ (b < 4) ∧ (byteAt p 0 = 2 ^ b) ∧ (byteAt p 1 = 2) ∧ (hasCause s b 6 = true) :=
  ⟨(wcall 0 (bs [1, 2, 0, 0])), (bs [1, 2, 0, 0]), (0), ({ full with radio := { full.radio with band := full.radio.band.set 0 { state := .active, causes := 32 }, path := (full.radio.path.set 0 { muted := false,  }).set 1 { muted := false }, det := ((full.radio.det.set 0 { role := 1, target := 0 }).set 1 { role := 2, target := 0 }).set 2 { role := 1, target := 1 }, guardMute := false, modeMute := false } }), by decide +kernel⟩

/-! ### KeySlotsLoadUseAndErase -/

theorem witness_keyDerive : ∃ (c : Call) (p : Bytes) (i : Nat) (s : State),
    (Served cmdKeyDerive c s) ∧ (s.campel = true) ∧ (CanRecord s) ∧ (p = c.payload) ∧ (i = byteAt p 0) ∧ ((s.key i).kind = 0) ∧ ((s.key i).retiring = none) ∧ (s.keys.loads < 65535) ∧ (rootSecretOk s = true) :=
  ⟨(wcall 0 (bs ([2, 2, 5, 1, 7, 0, 0, 0, 1, 0, 0, 0, 65] ++ List.replicate 95 0))), (bs ([2, 2, 5, 1, 7, 0, 0, 0, 1, 0, 0, 0, 65] ++ List.replicate 95 0)), (2), (full), by decide +kernel⟩

theorem witness_keyImport : ∃ (c : Call) (p : Bytes) (i : Nat) (s : State),
    (Served cmdKeyImport c s) ∧ (s.campel = true) ∧ (CanRecord s) ∧ (p = c.payload) ∧ (i = byteAt p 0) ∧ ((s.key i).kind = 0) ∧ ((s.key i).retiring = none) ∧ (s.keys.loads < 65535) ∧ ((byteAt p 3).testBit 0 = false) ∧ ((debugRow s).testBit 2 = false) ∧ (s.loft.poisoned (yAddr (hIndex (rd p 8 4)) 0) (byteAt p 13) = false) ∧ (byteAt p 1 ≠ 1) :=
  ⟨(wcall 0 (bs [2, 2, 5, 2, 7, 0, 0, 0, 64, 156, 32, 0, 0, 32, 0, 0])), (bs [2, 2, 5, 2, 7, 0, 0, 0, 64, 156, 32, 0, 0, 32, 0, 0]), (2), (full), by decide +kernel⟩

theorem witness_keyErase : ∃ (c : Call) (p : Bytes) (i : Nat) (s : State),
    (Served cmdKeyErase c s) ∧ (MayAccept c s) ∧ (CanRecord s) ∧ (s.campel = true) ∧ (p = c.payload) ∧ (i = byteAt p 0) ∧ ((s.key i).kind ≠ 0) ∧ ((s.key i).retiring = none) :=
  ⟨(wcall 0 (bs [2, 0, 0, 0])), (bs [2, 0, 0, 0]), (2), ({ full with keys := { full.keys with slot := full.keys.slot.set 2 { kind := 2 } } }), by decide +kernel⟩

theorem witness_keySetUsers : ∃ (c : Call) (p : Bytes) (i : Nat) (s : State),
    (Served cmdKeySetUsers c s) ∧ (p = c.payload) ∧ (i = byteAt p 0) ∧ ((s.key i).kind ≠ 0) :=
  ⟨(wcall 0 (bs [2, 6, 1, 0])), (bs [2, 6, 1, 0]), (2), ({ full with keys := { full.keys with slot := full.keys.slot.set 2 { kind := 2 } } }), by decide⟩

theorem witness_keyWrap : ∃ (c : Call) (p : Bytes) (h : Bytes) (i : Nat) (a : Nat) (s : State),
    (Served cmdKeyWrap c s) ∧ (p = c.payload) ∧ (i = byteAt p 0) ∧ (a = yAddr (hIndex (rd p 8 4)) 0) ∧ ((debugRow s).testBit 2 = false) ∧ (s.loft.poisoned a (byteAt p 2) = false) ∧ (byteAt p 1 ≠ 1) ∧ ((s.key i).kind = 5) ∧ ((s.key i).formNonce = true) ∧ (epochUsable s = true) ∧ ((s.key i).worn = false) ∧ ((s.key i).used + 1 ≤ 2 ^ 48) ∧ (h = leBytes 1 (byteAt p 1) ++ leBytes 1 (byteAt p 2) ++ zeros 2 ++ slice p 4 4 ++ leBytes 4 s.boot.epoch ++ leBytes 8 ((s.key i).load * 2 ^ 48 + (s.key i).used) ++ zeros 12) :=
  ⟨(wcall 0 (bs [2, 2, 32, 0, 7, 0, 0, 0, 64, 156, 32, 0, 65, 156, 32, 0])), (bs [2, 2, 32, 0, 7, 0, 0, 0, 64, 156, 32, 0, 65, 156, 32, 0]), (bs ([2, 32, 0, 0, 7, 0, 0, 0] ++ List.replicate 24 0)), (2), (yAddr 40000 0), ({ full with keys := { full.keys with slot := full.keys.slot.set 2 { kind := 5, formNonce := true } } }), by decide +kernel⟩

theorem witness_retiringZeroise : ∃ (i : Fin 16) (r : Retiring) (j : Job) (n : Nat) (s : State),
    (s.powered = true) ∧ (s.campel = true) ∧ (s.supply.holdUp = false) ∧ (j.origin = none) ∧ (eventRing s j.tenant = some n) ∧ ((s.ring n).lost = 0) ∧ ((s.ring n).log2 ≤ 12) ∧ (CanRecord s) ∧ ((s.key i).retiring = some r) ∧ (r.users = 0) ∧ (findJob s r.op i = some j) :=
  ⟨(2), ({ op := 0x0A04 }), ({ op := 0x0A04, key := 2, token := 5, waits := true }), (0), ({ full with jobs := [{ op := 0x0A04, key := 2, token := 5, waits := true }], keys := { full.keys with slot := full.keys.slot.set 2 { retiring := some { op := 0x0A04 } } } }), by decide +kernel⟩

/-! ### CryptoStatusDebugAndScan -/

theorem witness_keyGetInfo : ∃ (c : Call) (s : State),
    (Served cmdKeyGetInfo c s) :=
  ⟨(wcall 0 (bs [2, 3, 0, 0])), (full), by decide⟩

theorem witness_keyClaimSet : ∃ (c : Call) (s : State),
    (Served cmdKeyClaimSet c s) :=
  ⟨(wcall 0 (bs [0, 1, 0, 0])), (full), by decide⟩

theorem witness_keyDebugUnlock : ∃ (c : Call) (s : State),
    (Served cmdKeyDebugUnlock c s) ∧ (CanRecord s) ∧ (s.campel = true) ∧ ((debugRow s).testBit 0 = true) ∧ ((debugRow s).testBit 1 = true) ∧ (otpValid s 6 = true) ∧ (s.keys.unlocked = false) :=
  ⟨(wcall 0 []), ({ full with boot := { full.boot with otp := full.boot.otp ++ [(112, 3), (119, 2192470222)] } }), by decide +kernel⟩

theorem witness_keyDebugRefused : ∃ (c : Call) (s : State),
    (Served cmdKeyDebugUnlock c s) ∧ ((debugRow s).testBit 0 = false ∨ (debugRow s).testBit 1 = false ∨ otpValid s 6 = false) :=
  ⟨(wcall 0 []), (full), by decide +kernel⟩

theorem witness_keyGetStatus : ∃ (c : Call) (s : State),
    (Served cmdKeyGetStatus c s) :=
  ⟨(wcall 0 []), (full), by decide⟩

theorem witness_tapInstruction : ∃ (v : BitVec 5) (s : State),
    (s.powered = true) ∧ (v = 2#5) :=
  ⟨(2#5), (full), by decide⟩

theorem witness_tapBypass : ∃ (v : BitVec 5) (s : State),
    (s.powered = true) ∧ (v ≠ 2#5) ∧ (s.keys.unlocked = false ∨ 4 < v.toNat) :=
  ⟨(0#5), (full), by decide⟩

theorem witness_tapScanEntered : ∃ (v : BitVec 5) (s : State),
    (Up s) ∧ (CanRecord s) ∧ (s.keys.unlocked = true) ∧ (v.toNat ≤ 4) ∧ (v ≠ 1#5) ∧ (v ≠ 2#5) ∧ (s.keys.tap ≠ v.toNat) ∧ ((∀ i : Fin 16, (s.key i).retiring = none)) ∧ (s.supply.mode = .safe) ∧ (s.supply.change = none) :=
  ⟨(0#5), ({ full with supply := { full.supply with mode := .safe }, keys := { full.keys with unlocked := true, slot := full.keys.slot.set 2 { kind := 2 } } }), by decide +kernel⟩

/-! ### RecorderKeepsItsRecords -/

theorem witness_journalSlotWrite : ∃ (x : Record) (l : List Record) (s : State),
    (s.powered = true) ∧ (s.campel = true) ∧ (s.recorder.staging = x :: l) ∧ (s.recorder.journalTakes = true) ∧ (s.recorder.chronState = chronNow s) ∧ (s.recorder.highNow = false) ∧ (s.recorder.tight = true) ∧ (s.recorder.unchronicled < 5999) ∧ (s.recorder.high = false) :=
  ⟨({ seq := 1 }), ([]), ({ full with recorder := { full.recorder with staging := [{ seq := 1 }], tight := true, chronState := .none } }), by decide⟩

theorem witness_journalSlotRetired : ∃ (x : Record) (l : List Record) (s : State),
    (s.powered = true) ∧ (s.campel = true) ∧ (s.recorder.staging = x :: l) ∧ (s.recorder.journalTakes = true) ∧ (s.recorder.chronState = chronNow s) ∧ (CanRecord s) ∧ ((setIns s.recorder.retired s.recorder.target).length < 64) :=
  ⟨({ seq := 1 }), ([]), ({ full with recorder := { full.recorder with head := 1, staging := [{ seq := 1 }], chronState := .none } }), by decide +kernel⟩

theorem witness_recordsDropped : ∃ (a : Nat) (b : Nat) (s : State),
    (Up s) ∧ (CanRecord s) ∧ (s.recorder.dropTimes = some (a, b)) ∧ (s.recorder.staging.length < 63) :=
  ⟨(3), (4), ({ full with recorder := { full.recorder with dropTimes := some (3, 4) } }), by decide +kernel⟩

theorem witness_chronicleSectorWrite : ∃ (us : Nat) (r : Recorder) (s : State),
    (s.powered = true) ∧ (s.campel = true) ∧ (chronNow s = .active) ∧ (s.supply.pfail = false) ∧ (s.channel.wgBlocked = false) ∧ (1000000 ≤ us) ∧ (r = s.recorder) ∧ (nextRecords r = []) ∧ (r.openSector ≠ []) ∧ (r.openSector.length < 64) ∧ (r.chronState = .active) ∧ (r.sincePersist < 255) ∧ (r.highNow = false) ∧ (r.tight = true) ∧ (r.unchronicled = 0) ∧ (r.high = false) :=
  ⟨(1000000), ({ full.recorder with header := some { identity := identityRows full }, openSector := [{ seq := 1 }], head := 1, tight := true, chronState := .active }), ({ full with recorder := { full.recorder with header := some { identity := identityRows full }, openSector := [{ seq := 1 }], head := 1, tight := true, chronState := .active } }), by decide +kernel⟩

theorem witness_chronicleStarted : ∃ (f : Format) (s : State),
    (Up s) ∧ (CanRecord s) ∧ (s.supply.mode = .run) ∧ (s.channel.format = some f) ∧ (s.recorder.header = none) :=
  ⟨({}), (full), by decide +kernel⟩

theorem witness_chronicleLag : ∃ (n : Nat) (s : State),
    (Up s) ∧ (chronNow s = .active) ∧ (60 ≤ n) ∧ (s.recorder.unchronicled ≠ 0) ∧ (s.recorder.lag = false) :=
  ⟨(60), ({ full with recorder := { full.recorder with header := some { identity := identityRows full }, journal := [(0, { record := { seq := 1 } })] } }), by decide +kernel⟩

theorem witness_tightLeft : ∃ (n : Nat) (s : State),
    (Up s) ∧ (s.recorder.tight = true) ∧ (s.recorder.chronState = chronNow s) ∧ (s.recorder.tightNow = false) ∧ (s.recorder.exhausted = false) ∧ (s.recorder.staging.length < 64) ∧ (s.recorder.head + 2 < seqLast) ∧ (10 ≤ n) :=
  ⟨(10), ({ full with recorder := { full.recorder with tight := true, skipped := (3, 4) } }), by decide +kernel⟩

theorem witness_brcReadSeqLo : ∃ (t : Fin 8) (v : BitVec 32) (s : State),
    (s.powered = true) ∧ (mayRead s t = true) :=
  ⟨(0), (1), ({ full with recorder := { full.recorder with head := 1, staging := [{ seq := 1 }] } }), by decide +kernel⟩

theorem witness_brcData15Read : ∃ (t : Fin 8) (s : State),
    (s.powered = true) ∧ (mayRead s t = true) ∧ ((vat s.recorder.window t).auto = true) :=
  ⟨(0), ({ full with recorder := { full.recorder with head := 1, staging := [{ seq := 1 }], window := full.recorder.window.set 0 { auto := true } } }), by decide +kernel⟩

/-! ### RecorderRequestsServe -/

theorem witness_brcGetStatus : ∃ (c : Call) (r : Recorder) (s : State),
    (Served cmdBrcGetStatus c s) ∧ (r = s.recorder) :=
  ⟨(wcall 0 []), (full.recorder), (full), by decide⟩

theorem witness_brcRead : ∃ (c : Call) (p : Bytes) (i : Nat) (g : Nat × Bytes) (s : State),
    (Served cmdBrcRead c s) ∧ (MayAccept c s) ∧ (p = c.payload) ∧ (i = hIndex (rd p 8 4)) ∧ (byteAt p 6 = 1) ∧ (onlyUnavailable s (rd p 0 6) = false) ∧ (g = readSlot s c.t (rd p 0 6)) ∧ (g.2.length = 64) :=
  ⟨(wcall 0 (bs [1, 0, 0, 0, 0, 0, 1, 0, 64, 156, 32, 0])), (bs [1, 0, 0, 0, 0, 0, 1, 0, 64, 156, 32, 0]), (40000), (readSlot ({ full with recorder := { full.recorder with head := 1, staging := [{ seq := 1 }] } }) 0 1), ({ full with recorder := { full.recorder with head := 1, staging := [{ seq := 1 }] } }), by decide +kernel⟩

theorem witness_brcFind : ∃ (c : Call) (p : Bytes) (i : Nat) (n : Nat) (s : State),
    (Served cmdBrcFind c s) ∧ (MayAccept c s) ∧ (p = c.payload) ∧ (i = hIndex (rd p 12 4)) ∧ (n = findSeq (bySeq (s.recorder.staging ++ s.recorder.journal.map (·.2.record) ++ chronRecords s.recorder)) (rdTime p 0)) ∧ (n = 0 ∨ onlyUnavailable s n = false) :=
  ⟨(wcall 0 (bs [0, 0, 0, 0, 0, 0, 0, 0, 0, 0, 0, 0, 64, 156, 32, 0])), (bs [0, 0, 0, 0, 0, 0, 0, 0, 0, 0, 0, 0, 64, 156, 32, 0]), (40000), (1), ({ full with recorder := { full.recorder with head := 1, staging := [{ seq := 1, flags := 2 }] } }), by decide +kernel⟩

theorem witness_brcWrite : ∃ (c : Call) (p : Bytes) (s : State),
    (Served cmdBrcWrite c s) ∧ (p = c.payload) ∧ (CanRecord s) ∧ (s.campel = true) ∧ ((lastSecond s.up (vat s.recorder.writes c.t)).length < 16) :=
  ⟨(wcall 0 (bs ([240, 9, 2, 1] ++ List.replicate 32 7))), (bs ([240, 9, 2, 1] ++ List.replicate 32 7)), (full), by decide +kernel⟩

theorem witness_brcWriteBusy : ∃ (c : Call) (s : State),
    (Served cmdBrcWrite c s) ∧ (s.recorder.exhausted = false) ∧ (16 ≤ (lastSecond s.up (vat s.recorder.writes c.t)).length) :=
  ⟨(wcall 0 (bs ([240, 9, 2, 1] ++ List.replicate 32 7))), ({ full with recorder := { full.recorder with writes := full.recorder.writes.set 0 (List.replicate 16 0) } }), by decide +kernel⟩

theorem witness_brcCollected : ∃ (c : Call) (n : Nat) (s : State),
    (Served cmdBrcCollected c s) ∧ (n = rd c.payload 0 6) ∧ (n ≤ s.recorder.head) ∧ (s.recorder.collected < n) :=
  ⟨(wcall 0 (bs [1, 0, 0, 0, 0, 0, 0, 0])), (1), ({ full with recorder := { full.recorder with head := 1 } }), by decide +kernel⟩

theorem witness_brcNvmRetest : ∃ (c : Call) (s : State),
    (Served cmdBrcNvmRetest c s) ∧ (MayAccept c s) ∧ (s.recorder.nvmFaulted = true) ∧ (inFlight s 0x0906 = false) :=
  ⟨(wcall 0 []), ({ full with recorder := { full.recorder with nvmFaulted := true } }), by decide⟩

/-! ### DiscoveryTimeAndRolesOfTheChain -/

theorem witness_discover : ∃ (rx : LaneRx) (b : Nat) (s : State),
    (LaneHeard rx s) ∧ (rx.lane = 0) ∧ (b = byteAt rx.payload 0) ∧ (Up s) ∧ (CanRecord s) ∧ (s.boot.role = 2) ∧ (s.cascade.acting ≠ .actingRidge) ∧ (b < 7) ∧ (s.cascade.valid = false ∨ s.cascade.position ≠ b + 1) ∧ (s.motor.a.state ≠ .locked) ∧ (LaneClear 1 0x01 12 s) :=
  ⟨({ lane := 0, fseq := 1, dest := 0, origin := 0, payload := bs [1, 1, 0, 0, 9, 0, 0, 0, 0, 0, 0, 0] }), (1), (casc .rafter 5), by decide +kernel⟩

theorem witness_discoverAtTheEnd : ∃ (rx : LaneRx) (b : Nat) (s : State),
    (LaneHeard rx s) ∧ (rx.lane = 0) ∧ (b = byteAt rx.payload 0) ∧ (s.boot.role = 2) ∧ (s.cascade.acting ≠ .actingRidge) ∧ (b < 7) ∧ (s.cascade.valid = true) ∧ (s.cascade.position = b + 1) ∧ ((s.laneOf 1).state = .training) ∧ (LaneClear 0 0x02 12 s) :=
  ⟨({ lane := 0, fseq := 1, dest := 0, origin := 0, payload := bs [1, 1, 0, 0, 9, 0, 0, 0, 0, 0, 0, 0] }), (1), ({ casc .rafter 2 with cascade := { (casc .rafter 2).cascade with lane := #v[{ state := .up }, { state := .training, peer := true }] } }), by decide⟩

theorem witness_discoverByActingRidge : ∃ (rx : LaneRx) (b : Nat) (s : State),
    (LaneHeard rx s) ∧ (rx.lane = 0) ∧ (b = byteAt rx.payload 0) ∧ (s.boot.role = 2 ∨ s.boot.role = 3) ∧ (s.cascade.acting = .actingRidge) ∧ (LaneClear 0 0x05 4 s) :=
  ⟨({ lane := 0, fseq := 1, dest := 0, origin := 0, payload := bs [1, 1, 0, 0, 9, 0, 0, 0, 0, 0, 0, 0] }), (1), (casc .actingRidge 1), by decide⟩

theorem witness_discoverOutside : ∃ (rx : LaneRx) (b : Nat) (s : State),
    (LaneHeard rx s) ∧ (rx.lane = 0) ∧ (b = byteAt rx.payload 0) ∧ (Up s) ∧ (CanRecord s) ∧ (s.boot.role = 2 ∨ s.boot.role = 3) ∧ (s.cascade.acting ≠ .actingRidge) ∧ (7 ≤ b) ∧ (s.cascade.outside = false) :=
  ⟨({ lane := 0, fseq := 1, dest := 0, origin := 0, payload := bs [7] }), (7), (casc .rafter 2), by decide +kernel⟩

theorem witness_frameRejected : ∃ (rx : LaneRx) (s : State),
    (Up s) ∧ (s.supply.isl.cascade = true) ∧ ((s.laneOf rx.lane).state = .up) ∧ ((s.laneOf rx.lane).rxSeq < 65536) ∧ (rx.fseq = ((s.laneOf rx.lane).rxSeq + 1) % 65536) ∧ (rx.blockErr = false) ∧ (rx.crcOk = false) ∧ ((s.laneOf rx.lane).errAt = none) :=
  ⟨({ lane := 0, fseq := 1, crcOk := false }), (casc .rafter 2), by decide +kernel⟩

theorem witness_discoverEnd : ∃ (rx : LaneRx) (b : Nat) (s : State),
    (LaneHeard rx s) ∧ (rx.lane = 1) ∧ (b = byteAt rx.payload 0) ∧ (Up s) ∧ (CanRecord s) ∧ (actsAsRidge s = true) ∧ (s.cascade.modules ≠ b + 1) :=
  ⟨({ lane := 1, fseq := 1, dest := 0, origin := 0, payload := bs [2] }), (2), (casc .ridge 0), by decide +kernel⟩

theorem witness_discoverEndRelayed : ∃ (rx : LaneRx) (b : Nat) (s : State),
    (LaneHeard rx s) ∧ (rx.lane = 1) ∧ (b = byteAt rx.payload 0) ∧ (s.cascade.acting = .rafter) ∧ (LaneClear 0 0x02 12 s) :=
  ⟨({ lane := 1, fseq := 1, dest := 0, origin := 0, payload := bs [3] }), (3), (casc .rafter 2), by decide⟩

theorem witness_discoverSend : ∃ (s : State),
    (s.powered = true) ∧ (headsChain s = true) ∧ (s.cascade.valid = true) ∧ (LaneClear 1 0x01 12 s) :=
  ⟨(casc .ridge 0), by decide⟩

theorem witness_discoverEndTimeout : ∃ (us : Nat) (s : State),
    (Up s) ∧ (CanRecord s) ∧ (s.cascade.discoverAt.isSome = true) ∧ (10000 ≤ us) ∧ ((s.laneOf 1).state = .up) ∧ ((s.laneOf 1).peer = false) ∧ (s.cascade.acting = .rafter) ∧ (LaneClear 0 0x02 12 s) :=
  ⟨(10000), ({ casc .rafter 2 with cascade := { (casc .rafter 2).cascade with discoverAt := some 0, lane := Vector.replicate 2 { state := .up } } }), by decide +kernel⟩

theorem witness_rafterLost : ∃ (us : Nat) (s : State),
    (Up s) ∧ (CanRecord s) ∧ (s.cascade.discoverAt.isSome = true) ∧ (10000 ≤ us) ∧ ((s.laneOf 1).state = .training) ∧ ((s.laneOf 1).peer = true) ∧ (s.cascade.acting = .rafter) ∧ (LaneClear 0 0x02 12 s) :=
  ⟨(10000), ({ casc .rafter 2 with cascade := { (casc .rafter 2).cascade with discoverAt := some 0, lane := #v[{ state := .up }, { state := .training, peer := true }] } }), by decide +kernel⟩

theorem witness_time : ∃ (rx : LaneRx) (t : Time) (s : State),
    (LaneHeard rx s) ∧ (rx.lane = 1) ∧ (byteAt rx.payload 0 = 2) :=
  ⟨({ lane := 1, fseq := 1, dest := 0, origin := 0, payload := bs [2, 0, 7, 0] }), ({ sec := 5 }), (casc .ridge 0), by decide⟩

theorem witness_timeDown : ∃ (rx : LaneRx) (t : Time) (s : State),
    (LaneHeard rx s) ∧ (rx.lane = 0) ∧ (byteAt rx.payload 0 = 1) ∧ ((byteAt rx.payload 1).testBit 1 = true) ∧ (s.cascade.t2 = none) ∧ (s.cascade.acting = .rafter) ∧ (LaneClear 0 0x03 40 s) :=
  ⟨({ lane := 0, fseq := 1, dest := 0, origin := 0, payload := bs [1, 3, 7, 0] }), ({ sec := 5 }), (casc .rafter 2), by decide⟩

theorem witness_timeExchange : ∃ (rx : LaneRx) (t : Time) (a : Time) (b : Time) (t1 : Int) (t4 : Int) (off : Int) (s : State),
    (LaneHeard rx s) ∧ (rx.lane = 0) ∧ (byteAt rx.payload 0 = 1) ∧ ((byteAt rx.payload 1).testBit 1 = true) ∧ (s.cascade.t2 = some a) ∧ (s.cascade.t3 = some b) ∧ (rd rx.payload 28 2 = (s.cascade.exchange.1 + 65535) % 65536) ∧ (t1 = (rdTime12 rx.payload 4).ps) ∧ (t4 = (rdTime12 rx.payload 16).ps) ∧ (off = ((a.ps - t1) - (t4 - b.ps)) / 2 - (if (s.laneOf 0).quarter then s.cascade.asymQuarter else s.cascade.asymFull)) ∧ (s.cascade.acting = .rafter) ∧ (LaneClear 0 0x03 40 s) :=
  ⟨({ lane := 0, fseq := 1, dest := 0, origin := 0, payload := bs ([1, 3, 7, 0] ++ List.replicate 24 0 ++ [255, 255]) }), ({ sec := 5 }), ({ ns := 900 }), ({ ns := 1000 }), (0), (0), (950000), ({ casc .rafter 2 with cascade := { (casc .rafter 2).cascade with t2 := some { ns := 900 }, t3 := some { ns := 1000 } } }), by decide⟩

theorem witness_timeChainClear : ∃ (rx : LaneRx) (t : Time) (s : State),
    (LaneHeard rx s) ∧ (rx.lane = 0) ∧ (byteAt rx.payload 0 = 1) ∧ ((byteAt rx.payload 1).testBit 1 = false) ∧ (s.cascade.t2 = none) ∧ ((s.ref 3).qualified = true) :=
  ⟨({ lane := 0, fseq := 1, dest := 0, origin := 0, payload := bs [1, 1, 7, 0] }), ({ sec := 5 }), ({ casc .rafter 2 with timebase := { full.timebase with refs := full.timebase.refs.set 2 { qualified := true } } }), by decide +kernel⟩

theorem witness_timeFrameSend : ∃ (s : State),
    (s.powered = true) ∧ (s.cascade.valid = true) ∧ (s.cascade.outside = false) ∧ (s.cascade.acting ≠ .standalone) ∧ (LaneClear 1 0x03 40 s) :=
  ⟨(casc .ridge 0), by decide⟩

theorem witness_offsets : ∃ (rx : LaneRx) (s : State),
    (LaneHeard rx s) ∧ (rx.lane = 0) ∧ (s.timebase.selected = 3) ∧ (followsUpstream s.timebase = true) :=
  ⟨({ lane := 0, fseq := 1, dest := 0, origin := 0, payload := bs ([37, 0, 0, 0, 16, 14, 0, 0, 9] ++ List.replicate 40 0) }), ({ casc .rafter 2 with timebase := { full.timebase with selected := 3, fromUpstream := true } }), by decide +kernel⟩

theorem witness_offsetsIgnored : ∃ (rx : LaneRx) (s : State),
    (LaneHeard rx s) ∧ (s.timebase.selected ≠ 3 ∨ rx.lane = 1) :=
  ⟨({ lane := 0, fseq := 1, dest := 0, origin := 0, payload := bs [37] }), (casc .rafter 2), by decide⟩

theorem witness_offsetsSend : ∃ (s : State),
    (s.powered = true) ∧ (s.cascade.valid = true) ∧ (s.cascade.outside = false) ∧ (LaneClear 1 0x04 (offsetsBytes s.timebase).length s) :=
  ⟨(casc .ridge 0), by decide⟩

theorem witness_role : ∃ (rx : LaneRx) (s : State),
    (LaneHeard rx s) ∧ (rx.lane = 1) ∧ (byteAt rx.payload 0 = 1) ∧ (Up s) ∧ (CanRecord s) ∧ (s.cascade.acting = .ridge) :=
  ⟨({ lane := 1, fseq := 1, dest := 0, origin := 0, payload := bs [1, 1, 0, 0] }), (casc .ridge 0), by decide +kernel⟩

theorem witness_roleHandback : ∃ (rx : LaneRx) (s : State),
    (LaneHeard rx s) ∧ (rx.lane = 1) ∧ (byteAt rx.payload 0 = 2) ∧ (s.cascade.acting = .displaced) :=
  ⟨({ lane := 1, fseq := 1, dest := 0, origin := 0, payload := bs [2, 1, 0, 0] }), (casc .displaced 0), by decide⟩

theorem witness_roleDone : ∃ (rx : LaneRx) (s : State),
    (LaneHeard rx s) ∧ (rx.lane = 1) ∧ (byteAt rx.payload 0 = 3) ∧ (s.cascade.acting = .displaced) ∧ (LaneClear 1 0x01 12 s) :=
  ⟨({ lane := 1, fseq := 1, dest := 0, origin := 0, payload := bs [3, 1, 0, 0] }), (casc .displaced 0), by decide⟩

theorem witness_heartbeat : ∃ (p : Fin 8) (n : Nat) (b : Bool) (s : State),
    (s.powered = true) ∧ (s.supply.isl.cascade = true) ∧ (s.cascade.acting = .rafter ∨ s.cascade.acting = .spare) ∧ ((s.laneOf 0).state = .up) ∧ (s.cascade.outside = false) ∧ ((s.laneOf 1).state = .up) :=
  ⟨(0), (3), (false), (casc .rafter 2), by decide⟩

theorem witness_heartbeatIgnored : ∃ (p : Fin 8) (n : Nat) (b : Bool) (s : State),
    (s.powered = true) ∧ (actsAsRidge s = true) :=
  ⟨(0), (3), (false), (casc .actingRidge 1), by decide⟩

theorem witness_heartbeatSend : ∃ (s : State),
    (s.powered = true) ∧ (s.supply.isl.cascade = true) ∧ (actsAsRidge s = true) ∧ (s.cascade.valid = true) ∧ ((s.laneOf 1).state = .up) :=
  ⟨(casc .ridge 0), by decide⟩

theorem witness_ridgeLost : ∃ (ms : Nat) (s : State),
    (Up s) ∧ (CanRecord s) ∧ (isSpare s = true) ∧ (s.cascade.ridgeLost = false) ∧ (2000 ≤ ms) ∧ ((s.laneOf 1).state = .up) :=
  ⟨(2000), (casc .spare 1), by decide +kernel⟩

theorem witness_ridgeLostRafter : ∃ (ms : Nat) (s : State),
    (Up s) ∧ (CanRecord s) ∧ (s.cascade.acting = .rafter) ∧ (s.cascade.ridgeLost = false) ∧ (3000 ≤ ms) :=
  ⟨(3000), (casc .rafter 2), by decide +kernel⟩

theorem witness_handbackTimeout : ∃ (n : Nat) (j : Job) (r : Nat) (s : State),
    (s.powered = true) ∧ (s.campel = true) ∧ (s.supply.holdUp = false) ∧ (j.origin = none) ∧ (eventRing s j.tenant = some r) ∧ ((s.ring r).lost = 0) ∧ ((s.ring r).log2 ≤ 12) ∧ (s.cascade.handback = true) ∧ (600 ≤ n) ∧ (findJob s 0x0B06 0 = some j) :=
  ⟨(600), ({ op := 0x0B06, token := 5, waits := true }), (0), ({ casc .actingRidge 1 with jobs := [{ op := 0x0B06, token := 5, waits := true }], cascade := { (casc .actingRidge 1).cascade with handback := true } }), by decide⟩

/-! ### FramesCrossTheChain -/

theorem witness_leaseReqRelayed : ∃ (rx : LaneRx) (s : State),
    (LaneHeard rx s) ∧ (s.cascade.valid = true) ∧ (s.cascade.outside = false) ∧ (rx.dest.val ≠ s.cascade.position) ∧ (LaneClear (laneTo s rx.dest) 0x06 rx.payload.length s) :=
  ⟨({ lane := 0, fseq := 1, dest := 3, origin := 0, payload := bs [1, 2] }), (casc .rafter 2), by decide⟩

theorem witness_leaseGrantRelayed : ∃ (rx : LaneRx) (s : State),
    (LaneHeard rx s) ∧ (s.cascade.valid = true) ∧ (s.cascade.outside = false) ∧ (rx.dest.val ≠ s.cascade.position) ∧ (LaneClear (laneTo s rx.dest) 0x07 rx.payload.length s) :=
  ⟨({ lane := 0, fseq := 1, dest := 3, origin := 0, payload := bs [1, 2] }), (casc .rafter 2), by decide⟩

theorem witness_mboxReqRelayed : ∃ (rx : LaneRx) (s : State),
    (LaneHeard rx s) ∧ (s.cascade.valid = true) ∧ (s.cascade.outside = false) ∧ (rx.dest.val ≠ s.cascade.position) ∧ (LaneClear (laneTo s rx.dest) 0x10 rx.payload.length s) :=
  ⟨({ lane := 0, fseq := 1, dest := 3, origin := 0, payload := bs [1, 2] }), (casc .rafter 2), by decide⟩

theorem witness_mboxRspRelayed : ∃ (rx : LaneRx) (s : State),
    (LaneHeard rx s) ∧ (s.cascade.valid = true) ∧ (s.cascade.outside = false) ∧ (rx.dest.val ≠ s.cascade.position) ∧ (LaneClear (laneTo s rx.dest) 0x11 rx.payload.length s) :=
  ⟨({ lane := 0, fseq := 1, dest := 3, origin := 0, payload := bs [1, 2] }), (casc .rafter 2), by decide⟩

theorem witness_mboxEventRelayed : ∃ (rx : LaneRx) (s : State),
    (LaneHeard rx s) ∧ (s.cascade.valid = true) ∧ (s.cascade.outside = false) ∧ (rx.dest.val ≠ s.cascade.position) ∧ (LaneClear (laneTo s rx.dest) 0x12 rx.payload.length s) :=
  ⟨({ lane := 0, fseq := 1, dest := 3, origin := 0, payload := bs [1, 2] }), (casc .rafter 2), by decide⟩

theorem witness_recordRelayed : ∃ (rx : LaneRx) (s : State),
    (LaneHeard rx s) ∧ (s.cascade.valid = true) ∧ (s.cascade.outside = false) ∧ (rx.dest.val ≠ s.cascade.position) ∧ (LaneClear (laneTo s rx.dest) 0x20 rx.payload.length s) :=
  ⟨({ lane := 0, fseq := 1, dest := 3, origin := 0, payload := bs [1, 2] }), (casc .rafter 2), by decide⟩

theorem witness_copyRelayed : ∃ (rx : LaneRx) (s : State),
    (LaneHeard rx s) ∧ (s.cascade.valid = true) ∧ (s.cascade.outside = false) ∧ (rx.dest.val ≠ s.cascade.position) ∧ (LaneClear (laneTo s rx.dest) 0x30 rx.payload.length s) :=
  ⟨({ lane := 0, fseq := 1, dest := 3, origin := 0, payload := bs [1, 2] }), (casc .rafter 2), by decide⟩

theorem witness_copyAckRelayed : ∃ (rx : LaneRx) (s : State),
    (LaneHeard rx s) ∧ (s.cascade.valid = true) ∧ (s.cascade.outside = false) ∧ (rx.dest.val ≠ s.cascade.position) ∧ (LaneClear (laneTo s rx.dest) 0x31 rx.payload.length s) :=
  ⟨({ lane := 0, fseq := 1, dest := 3, origin := 0, payload := bs [1, 2] }), (casc .rafter 2), by decide⟩

theorem witness_leaseReq : ∃ (rx : LaneRx) (n : Nat) (s : State),
    (LaneHeard rx s) ∧ (ForHere rx s) ∧ (actsAsRidge s = true) ∧ (n = max s.cascade.leaseSeen (rd rx.payload 0 6) + 1) ∧ (LaneClear (laneTo s rx.origin) 0x07 8 s) :=
  ⟨({ lane := 1, fseq := 1, dest := 0, origin := 2, payload := bs [4, 0, 0, 0, 0, 0, 0, 0] }), (5), (casc .ridge 0), by decide⟩

theorem witness_leaseGrant : ∃ (rx : LaneRx) (n : Nat) (s : State),
    (LaneHeard rx s) ∧ (ForHere rx s) ∧ (n = rd rx.payload 0 6) :=
  ⟨({ lane := 0, fseq := 1, dest := 2, origin := 0, payload := bs [4, 0, 0, 0, 0, 0, 0, 0] }), (4), ({ casc .rafter 2 with cascade := { (casc .rafter 2).cascade with leaseWanted := true } }), by decide⟩

theorem witness_mboxReq : ∃ (rx : LaneRx) (t : Nat) (a : Nat × Option Nat × Bytes) (s : State),
    (LaneHeard rx s) ∧ (ForHere rx s) ∧ (t = byteAt rx.payload 0) ∧ (t < 8) ∧ (s.cascade.forwardMask.testBit t = true) ∧ ((mboxServed rx s).1 = some a) ∧ ((mboxServed rx s).2.cascade.position = s.cascade.position) ∧ (LaneClear (laneTo s rx.origin) 0x11 (20 + a.2.2.length) (mboxServed rx s).2) :=
  ⟨({ lane := 0, fseq := 1, dest := 2, origin := 0, payload := ([0#8, 0, 0, 0] ++ encodeReq 0x0103 7 0 0 2 (bs [5, 6])) }), (0), ((0, none, bs [5, 6])), (casc .rafter 2), by decide +kernel⟩

theorem witness_mboxReqMasked : ∃ (rx : LaneRx) (t : Nat) (s : State),
    (LaneHeard rx s) ∧ (ForHere rx s) ∧ (t = byteAt rx.payload 0) ∧ (t < 8) ∧ (s.cascade.forwardMask.testBit t = false) ∧ (LaneClear (laneTo s rx.origin) 0x11 20 s) :=
  ⟨({ lane := 0, fseq := 1, dest := 2, origin := 0, payload := [1#8, 0, 0, 0] ++ encodeReq 0x0103 7 1 0 2 (bs [5, 6]) }), (1), (casc .rafter 2), by decide⟩

theorem witness_mboxRsp : ∃ (rx : LaneRx) (t : Fin 8) (o : Outstanding) (r : Rsp) (s : State),
    (LaneHeard rx s) ∧ (ForHere rx s) ∧ (byteAt rx.payload 0 = t) ∧ (r = rspOf (rx.payload.drop 4)) ∧ ((s.ten t).outstanding = some o) ∧ (o.op = r.op ∧ o.seq = r.seq ∧ o.target = rx.origin) :=
  ⟨({ lane := 0, fseq := 1, dest := 2, origin := 3, payload := bs ([0, 0, 0, 0, 3, 1, 7, 0, 0, 8] ++ List.replicate 10 0) }), (0), ({ op := 0x0103, seq := 7, target := 3 }), (rspOf (bs ([3, 1, 7, 0, 0, 8] ++ List.replicate 10 0))), ({ casc .rafter 2 with tenants := ((casc .rafter 2).updTen 0 fun x => { x with busy := true, outstanding := some { op := 0x0103, seq := 7, target := 3 } }).tenants }), by decide⟩

theorem witness_mboxEvent : ∃ (rx : LaneRx) (t : Fin 8) (n : Nat) (s : State),
    (LaneHeard rx s) ∧ (ForHere rx s) ∧ (byteAt rx.payload 18 = t) ∧ ((s.ten t).awaiting ≠ 0) ∧ (eventRing s t = some n) ∧ ((s.ring n).lost = 0) ∧ ((s.ring n).log2 ≤ 12) :=
  ⟨({ lane := 0, fseq := 1, dest := 2, origin := 3, payload := bs ([1] ++ List.replicate 31 0) }), (0), (0), ({ casc .rafter 2 with tenants := ((casc .rafter 2).updTen 0 fun x => { x with awaiting := 1 }).tenants }), by decide⟩

theorem witness_record : ∃ (rx : LaneRx) (x : Record) (s : State),
    (LaneHeard rx s) ∧ (ForHere rx s) ∧ (Up s) ∧ (CanRecord s) ∧ (actsAsRidge s = true) ∧ (x = rdRecord rx.payload) :=
  ⟨({ lane := 1, fseq := 1, dest := 0, origin := 3, payload := bs ([9, 0, 0, 0, 0, 0, 1, 0, 0, 0, 0, 0, 2, 0, 0, 0, 9, 1, 0xA0, 3, 1, 4, 2, 0] ++ List.replicate 40 5) }), (rdRecord (bs ([9, 0, 0, 0, 0, 0, 1, 0, 0, 0, 0, 0, 2, 0, 0, 0, 9, 1, 0xA0, 3, 1, 4, 2, 0] ++ List.replicate 40 5))), (casc .ridge 0), by decide +kernel⟩

theorem witness_recordStopped : ∃ (rx : LaneRx) (s : State),
    (LaneHeard rx s) ∧ (ForHere rx s) ∧ (s.campel = true) ∧ (s.recorder.exhausted = true) ∧ (s.recorder.chronState = chronNow s) ∧ (s.recorder.high = s.recorder.highNow) ∧ (s.recorder.tight = true) ∧ (actsAsRidge s = true) :=
  ⟨({ lane := 1, fseq := 1, dest := 0, origin := 3, payload := bs [9] }), ({ casc .ridge 0 with recorder := { full.recorder with exhausted := true, tight := true, chronState := .none } }), by decide +kernel⟩

theorem witness_recordForward : ∃ (p : Nat) (x : Record) (s : State),
    (s.powered = true) ∧ (s.campel = true) ∧ (s.cascade.ridgePos = some p) ∧ (nextForward s = some x) ∧ (actsAsRidge s = false) ∧ (s.cascade.acting ≠ .displaced) ∧ (s.cascade.fwdMin ≠ 255) ∧ (present s p = true) ∧ (LaneClear (laneTo s p) 0x20 x.bytes.length s) :=
  ⟨(0), ({ seq := 1, severity := 3 }), ({ casc .rafter 2 with recorder := { full.recorder with head := 1, staging := [{ seq := 1, severity := 3 }] } }), by decide +kernel⟩

theorem witness_casCopy : ∃ (n : Fin 32) (p : Nat) (a : Nat) (l : Nat) (d : Bytes) (data : Bytes) (s : State),
    (Consumable n.val p d s) ∧ (byteAt d 0 = 0x30) ∧ (copyFields s (s.ring n).owner d = true) ∧ (present s (byteAt d 4) = true) ∧ (a = yAddr (hIndex (rd d 8 4)) (rd d 16 2)) ∧ (byteAt d 1 = 0 → s.loft.poisoned a (rd d 6 2) = false) ∧ (data = if byteAt d 1 = 0 then Machine.loftRead s a (rd d 6 2) else []) ∧ (l = laneTo s (byteAt d 4)) ∧ (LaneClear l 0x30 (copyBody (if s.cascade.copyTag = 0x7FFF then 1 else s.cascade.copyTag + 1) d ++ data).length s) :=
  ⟨(1), (2), (yAddr 40000 8), (0), (bs [0x30, 0, 7, 0, 1, 0, 4, 0, 64, 156, 32, 0, 65, 156, 32, 0, 8, 0, 0, 0]), (zeros 4), ({ casc .rafter 2 with rings := (entry (bs [0x30, 0, 7, 0, 1, 0, 4, 0, 64, 156, 32, 0, 65, 156, 32, 0, 8, 0, 0, 0])).rings }), by decide +kernel⟩

theorem witness_casCopyAbsent : ∃ (n : Fin 32) (p : Nat) (d : Bytes) (s : State),
    (Consumable n.val p d s) ∧ (byteAt d 0 = 0x30) ∧ (copyFields s (s.ring n).owner d = true) ∧ (present s (byteAt d 4) = false) :=
  ⟨(1), (2), (bs [0x30, 0, 7, 0, 1, 0, 4, 0, 64, 156, 32, 0, 65, 156, 32, 0, 8, 0, 0, 0]), ({ ({ casc .rafter 2 with rings := (entry (bs [0x30, 0, 7, 0, 1, 0, 4, 0, 64, 156, 32, 0, 65, 156, 32, 0, 8, 0, 0, 0])).rings }) with cascade := { (casc .rafter 2).cascade with lane := #v[{ state := .training }, { state := .up, peer := true }] } }), by decide⟩

theorem witness_casCopyBad : ∃ (n : Fin 32) (p : Nat) (d : Bytes) (s : State),
    (Consumable n.val p d s) ∧ (byteAt d 0 = 0x30) ∧ (copyFields s (s.ring n).owner d = false) :=
  ⟨(1), (2), (bs [0x30, 0, 7, 0, 2, 0, 4, 0, 64, 156, 32, 0, 65, 156, 32, 0, 8, 0, 0, 0]), ({ casc .rafter 2 with rings := (entry (bs [0x30, 0, 7, 0, 2, 0, 4, 0, 64, 156, 32, 0, 65, 156, 32, 0, 8, 0, 0, 0])).rings }), by decide⟩

theorem witness_copy : ∃ (rx : LaneRx) (tag : Nat) (h : Nat) (a : Nat) (len : Nat) (s : State),
    (LaneHeard rx s) ∧ (ForHere rx s) ∧ (tag = rd rx.payload 0 2) ∧ (tag < 0x8000) ∧ (h = rd rx.payload 8 4) ∧ (a = yAddr (hIndex h) (rd rx.payload 14 2)) ∧ (len = rd rx.payload 2 2) ∧ (s.cascade.forwardMask.testBit (hOwner h) = true) ∧ (hOwner (rd rx.payload 4 4) = hOwner h) ∧ (usable s (hOwner h) h = true) ∧ (rd rx.payload 14 2 + len ≤ 4096) ∧ (rx.payload.drop 16 ≠ []) ∧ (LaneClear (laneTo s rx.origin) 0x31 4 s) :=
  ⟨({ lane := 0, fseq := 1, dest := 2, origin := 0, payload := bs [7, 0, 2, 0, 64, 156, 32, 0, 64, 156, 32, 0, 0, 0, 8, 0, 5, 6] }), (7), (2137152), (yAddr 40000 8), (2), (casc .rafter 2), by decide⟩

theorem witness_copyAsked : ∃ (rx : LaneRx) (tag : Nat) (h : Nat) (a : Nat) (len : Nat) (s : State),
    (LaneHeard rx s) ∧ (ForHere rx s) ∧ (tag = rd rx.payload 0 2) ∧ (tag < 0x8000) ∧ (h = rd rx.payload 8 4) ∧ (a = yAddr (hIndex h) (rd rx.payload 14 2)) ∧ (len = rd rx.payload 2 2) ∧ (s.cascade.forwardMask.testBit (hOwner h) = true) ∧ (hOwner (rd rx.payload 4 4) = hOwner h) ∧ (usable s (hOwner h) h = true) ∧ (rd rx.payload 14 2 + len ≤ 4096) ∧ (rx.payload.length = 16) ∧ (s.loft.poisoned a len = false) ∧ (LaneClear (laneTo s rx.origin) 0x30 (16 + len) s) :=
  ⟨({ lane := 0, fseq := 1, dest := 2, origin := 0, payload := bs [7, 0, 2, 0, 64, 156, 32, 0, 64, 156, 32, 0, 0, 0, 8, 0] }), (7), (2137152), (yAddr 40000 8), (2), (casc .rafter 2), by decide +kernel⟩

theorem witness_copyMasked : ∃ (rx : LaneRx) (tag : Nat) (h : Nat) (a : Nat) (len : Nat) (s : State),
    (LaneHeard rx s) ∧ (ForHere rx s) ∧ (tag = rd rx.payload 0 2) ∧ (tag < 0x8000) ∧ (h = rd rx.payload 8 4) ∧ (a = yAddr (hIndex h) (rd rx.payload 14 2)) ∧ (len = rd rx.payload 2 2) ∧ (s.cascade.forwardMask.testBit (hOwner h) = false) ∧ (LaneClear (laneTo s rx.origin) 0x31 4 s) :=
  ⟨({ lane := 0, fseq := 1, dest := 2, origin := 0, payload := bs [7, 0, 2, 0, 64, 156, 32, 0, 64, 156, 32, 0, 0, 0, 8, 0] }), (7), (2137152), (yAddr 40000 8), (2), ({ casc .rafter 2 with cascade := { (casc .rafter 2).cascade with forwardMask := 2 } }), by decide⟩

theorem witness_copyReturned : ∃ (rx : LaneRx) (n : Nat) (p : Nat) (ct : Nat) (a : Nat) (len : Nat) (x : Sub) (s : State),
    (LaneHeard rx s) ∧ (ForHere rx s) ∧ (rd rx.payload 0 2 = ct + 0x8000) ∧ (findCopy s ct = some x) ∧ (a = yAddr (hIndex (rd x.desc 8 4)) (rd x.desc 16 2)) ∧ (len = rd x.desc 6 2) ∧ (rd x.desc 16 2 + len ≤ 4096) ∧ ((rx.payload.drop 16).length = len) ∧ (LaneClear (laneTo s rx.origin) 0x31 4 s) ∧ (x.ring = n) ∧ (n < 32) ∧ (p < 32) ∧ ((s.ring n).opened = true) ∧ ((s.ring n).pair = some p) ∧ ((s.ring n).closing = false) ∧ ((s.ring p).log2 ≤ 12) ∧ (poolIndex (hIndex (rd x.desc 8 4)) = true) :=
  ⟨({ lane := 0, fseq := 1, dest := 2, origin := 1, payload := bs [7, 128, 2, 0, 0, 0, 0, 0, 0, 0, 0, 0, 0, 0, 0, 0, 5, 6] }), (1), (2), (7), (yAddr 40000 0), (2), ({ ring := 1, cls := 0x30, tag := 9, ctag := 7, desc := bs [0x30, 1, 9, 0, 1, 0, 2, 0, 64, 156, 32, 0] }), ({ casc .rafter 2 with subs := [{ ring := 1, cls := 0x30, tag := 9, ctag := 7, desc := bs [0x30, 1, 9, 0, 1, 0, 2, 0, 64, 156, 32, 0] }] }), by decide +kernel⟩

theorem witness_copyAck : ∃ (rx : LaneRx) (n : Nat) (p : Nat) (ct : Nat) (x : Sub) (s : State),
    (LaneHeard rx s) ∧ (ForHere rx s) ∧ (rd rx.payload 0 2 = ct) ∧ (ct < 0x8000) ∧ (findCopy s ct = some x) ∧ (x.ring = n) ∧ (n < 32) ∧ (p < 32) ∧ ((s.ring n).opened = true) ∧ ((s.ring n).pair = some p) ∧ ((s.ring n).closing = false) ∧ ((s.ring p).log2 ≤ 12) ∧ (poolIndex (hIndex (rd x.desc 8 4)) = true) :=
  ⟨({ lane := 0, fseq := 1, dest := 2, origin := 1, payload := bs [7, 0, 0, 0] }), (1), (2), (7), ({ ring := 1, cls := 0x30, tag := 9, ctag := 7, desc := bs [0x30, 1, 9, 0, 1, 0, 2, 0, 64, 156, 32, 0] }), ({ casc .rafter 2 with subs := [{ ring := 1, cls := 0x30, tag := 9, ctag := 7, desc := bs [0x30, 1, 9, 0, 1, 0, 2, 0, 64, 156, 32, 0] }] }), by decide⟩

theorem witness_copyAckServed : ∃ (rx : LaneRx) (x : Nat × Nat × Nat) (s : State),
    (LaneHeard rx s) ∧ (ForHere rx s) ∧ (0x8000 ≤ rd rx.payload 0 2) ∧ ((s.cascade.serving.find? fun x => x.1 == rx.origin.val && x.2.1 == rd rx.payload 0 2 - 0x8000) = some x) ∧ (poolIndex x.2.2 = true) ∧ ((s.loft.tag x.2.2).doomed = false) :=
  ⟨({ lane := 0, fseq := 1, dest := 2, origin := 1, payload := bs [7, 128, 0, 0] }), ((1, 7, 40000)), ({ casc .rafter 2 with cascade := { (casc .rafter 2).cascade with serving := [(1, 7, 40000)] } }), by decide⟩

theorem witness_imageReq : ∃ (rx : LaneRx) (off : Nat) (img : Bytes) (s : State),
    (LaneHeard rx s) ∧ (rx.lane = 1) ∧ (s.campel = true) ∧ ((s.laneOf 1).quarter = false) ∧ (img = s.boot.imageBytes) ∧ (off = rd rx.payload 0 4) ∧ (off < img.length) ∧ (img.length ≤ off + 4096) ∧ (LaneClear 1 0x41 (8 + (slice img off 4096).length) s) :=
  ⟨({ lane := 1, fseq := 1, dest := 0, origin := 0, payload := bs [1, 0, 0, 0] }), (1), (bs [7, 8, 9]), ({ casc .ridge 0 with boot := { full.boot with imageBytes := bs [7, 8, 9] } }), by decide⟩

theorem witness_image : ∃ (rx : LaneRx) (off : Nat) (d : Bytes) (s : State),
    (LaneHeard rx s) ∧ (rx.lane = 0) ∧ (s.boot.stage = .rom) ∧ (s.boot.source = 3) ∧ (off = rd rx.payload 0 4) ∧ (off = s.cascade.image.length) ∧ (d = rx.payload.drop 8) ∧ (off + d.length ≤ 1048576) :=
  ⟨({ lane := 0, fseq := 1, dest := 0, origin := 0, payload := bs [0, 0, 0, 0, 9, 0, 0, 0, 5, 6] }), (0), (bs [5, 6]), ({ casc .rafter 2 with boot := { full.boot with stage := .rom, source := 3 } }), by decide⟩

theorem witness_imageReqRetry : ∃ (us : Nat) (s : State),
    (s.powered = true) ∧ (s.boot.stage = .rom) ∧ (s.boot.source = 3) ∧ (s.cascade.image = [] → 1000000 ≤ us) ∧ (s.cascade.image ≠ [] → s.cascade.image.length < s.cascade.imageLen) ∧ (10000 ≤ us) ∧ (LaneClear 0 0x40 4 s) :=
  ⟨(1000000), ({ casc .rafter 2 with boot := { full.boot with stage := .rom, source := 3 } }), by decide⟩

/-! ### MirroredSectorsAndCascadeRequests -/

theorem witness_mirrorRelayed : ∃ (rx : LaneRx) (s : State),
    (LaneHeard rx s) ∧ (s.cascade.valid = true) ∧ (s.cascade.outside = false) ∧ (rx.dest.val ≠ s.cascade.position) ∧ (LaneClear (laneTo s rx.dest) 0x32 rx.payload.length s) :=
  ⟨({ lane := 0, fseq := 1, dest := 3, origin := 0, payload := bs [1, 2] }), (casc .rafter 2), by decide⟩

theorem witness_mirrorAckRelayed : ∃ (rx : LaneRx) (s : State),
    (LaneHeard rx s) ∧ (s.cascade.valid = true) ∧ (s.cascade.outside = false) ∧ (rx.dest.val ≠ s.cascade.position) ∧ (LaneClear (laneTo s rx.dest) 0x33 rx.payload.length s) :=
  ⟨({ lane := 0, fseq := 1, dest := 3, origin := 0, payload := bs [1, 2] }), (casc .rafter 2), by decide⟩

theorem witness_mirror : ∃ (rx : LaneRx) (o : Nat) (g : Nat) (n : Nat) (own : Nat) (s : State),
    (LaneHeard rx s) ∧ (ForHere rx s) ∧ (o = rx.origin) ∧ (g = rd rx.payload 0 8) ∧ (n = rd rx.payload 8 2) ∧ (n ≤ 511) ∧ ((vat s.cascade.mirrorIn o).held = []) ∧ ((vat s.cascade.mirrorIn o).lastGseq = 0 ∨ (vat s.cascade.mirrorIn o).lastGseq + 1 = g) ∧ ((recChan s n).flags.testBit 0 = false) ∧ (s.supply.mode = .run) ∧ (s.channel.state = .tracking) ∧ (s.diskq.logArea.isSome = true) ∧ (own = recOwner s) ∧ (own < 8) ∧ ((s.ten own).held < (s.ten own).ingress) ∧ (s.loft.tags.length + s.loft.gone.length + s.loft.testing.length + 1 < 2064384) ∧ (s.loft.tags.all (fun p => decide (p.2.gen < 256)) = true) :=
  ⟨({ lane := 0, fseq := 1, dest := 2, origin := 0, payload := bs ([5, 0, 0, 0, 0, 0, 0, 0, 3, 0, 2, 0, 9, 0, 0, 0, 100, 0, 0, 0, 0, 0, 60, 0, 0, 0, 0, 0, 0, 0, 0, 0, 7, 8]) }), (0), (5), (3), (0), ({ casc .rafter 2 with diskq := { full.diskq with logArea := some (0, 256) } }), by decide +kernel⟩

theorem witness_mirrorConflict : ∃ (rx : LaneRx) (o : Nat) (g : Nat) (n : Nat) (s : State),
    (LaneHeard rx s) ∧ (ForHere rx s) ∧ (o = rx.origin) ∧ (g = rd rx.payload 0 8) ∧ (n = rd rx.payload 8 2) ∧ (n ≤ 511) ∧ ((vat s.cascade.mirrorIn o).held = []) ∧ ((vat s.cascade.mirrorIn o).lastGseq = 0 ∨ (vat s.cascade.mirrorIn o).lastGseq < g) ∧ ((recChan s n).flags.testBit 0 = true) ∧ (LaneClear (laneTo s o) 0x33 12 s) :=
  ⟨({ lane := 0, fseq := 1, dest := 2, origin := 0, payload := bs ([5, 0, 0, 0, 0, 0, 0, 0, 3, 0, 2, 0, 9, 0, 0, 0, 100, 0, 0, 0, 0, 0, 60, 0, 0, 0, 0, 0, 0, 0, 0, 0, 7, 8]) }), (0), (5), (3), ({ casc .rafter 2 with diskq := { full.diskq with chans := [(3, { flags := 1 })] } }), by decide +kernel⟩

theorem witness_mirrorNotRecording : ∃ (rx : LaneRx) (o : Nat) (g : Nat) (n : Nat) (s : State),
    (LaneHeard rx s) ∧ (ForHere rx s) ∧ (o = rx.origin) ∧ (g = rd rx.payload 0 8) ∧ (n = rd rx.payload 8 2) ∧ (n ≤ 511) ∧ ((vat s.cascade.mirrorIn o).held = []) ∧ ((vat s.cascade.mirrorIn o).lastGseq = 0 ∨ (vat s.cascade.mirrorIn o).lastGseq < g) ∧ ((recChan s n).flags.testBit 0 = false) ∧ (s.supply.mode ≠ .run) ∧ (LaneClear (laneTo s o) 0x33 12 s) :=
  ⟨({ lane := 0, fseq := 1, dest := 2, origin := 0, payload := bs ([5, 0, 0, 0, 0, 0, 0, 0, 3, 0, 2, 0, 9, 0, 0, 0, 100, 0, 0, 0, 0, 0, 60, 0, 0, 0, 0, 0, 0, 0, 0, 0, 7, 8]) }), (0), (5), (3), ({ casc .rafter 2 with supply := { full.supply with mode := .keep } }), by decide +kernel⟩

theorem witness_mirrorRefused : ∃ (rx : LaneRx) (o : Nat) (g : Nat) (n : Nat) (s : State),
    (LaneHeard rx s) ∧ (ForHere rx s) ∧ (o = rx.origin) ∧ (g = rd rx.payload 0 8) ∧ (n = rd rx.payload 8 2) ∧ (n ≤ 511) ∧ ((vat s.cascade.mirrorIn o).held = []) ∧ ((vat s.cascade.mirrorIn o).lastGseq = 0 ∨ (vat s.cascade.mirrorIn o).lastGseq < g) ∧ ((recChan s n).flags.testBit 0 = false) ∧ (s.supply.mode = .run) ∧ (s.channel.state = .tracking) ∧ (s.diskq.logArea.isSome = true) ∧ (recOwner s < 8) ∧ ((s.ten (recOwner s)).ingress ≤ (s.ten (recOwner s)).held) ∧ (LaneClear (laneTo s o) 0x33 12 s) :=
  ⟨({ lane := 0, fseq := 1, dest := 2, origin := 0, payload := bs ([5, 0, 0, 0, 0, 0, 0, 0, 3, 0, 2, 0, 9, 0, 0, 0, 100, 0, 0, 0, 0, 0, 60, 0, 0, 0, 0, 0, 0, 0, 0, 0, 7, 8]) }), (0), (5), (3), ({ casc .rafter 2 with diskq := { full.diskq with logArea := some (0, 256) }, tenants := (full.updTen 0 fun x => { x with ingress := 0 }).tenants }), by decide +kernel⟩

theorem witness_mirrorRepeated : ∃ (rx : LaneRx) (o : Nat) (g : Nat) (n : Nat) (r : Nat) (s : State),
    (LaneHeard rx s) ∧ (ForHere rx s) ∧ (o = rx.origin) ∧ (g = rd rx.payload 0 8) ∧ (n = rd rx.payload 8 2) ∧ (n ≤ 511) ∧ ((vat s.cascade.mirrorIn o).lastGseq ≠ 0) ∧ (g ≤ (vat s.cascade.mirrorIn o).lastGseq) ∧ (mget (vat s.cascade.mirrorIn o).acked g = some r) ∧ (LaneClear (laneTo s o) 0x33 12 s) :=
  ⟨({ lane := 0, fseq := 1, dest := 2, origin := 0, payload := bs ([5, 0, 0, 0, 0, 0, 0, 0, 3, 0, 2, 0, 9, 0, 0, 0, 100, 0, 0, 0, 0, 0, 60, 0, 0, 0, 0, 0, 0, 0, 0, 0, 7, 8]) }), (0), (5), (3), (1), ({ casc .rafter 2 with cascade := { (casc .rafter 2).cascade with mirrorIn := Vector.replicate 8 { lastGseq := 6, acked := [(5, 1)] } } }), by decide +kernel⟩

theorem witness_mirrorAck : ∃ (rx : LaneRx) (g : Nat) (m : MirrorOut) (s : State),
    (LaneHeard rx s) ∧ (ForHere rx s) ∧ (g = rd rx.payload 0 8) ∧ ((s.cascade.mirrors.find? fun m => m.gseq == g && m.waiting.contains rx.origin.val) = some m) ∧ (((recChan s m.channel).closed.find? fun x => x.gseq == some g && x.ended) = none) :=
  ⟨({ lane := 0, fseq := 1, dest := 2, origin := 1, payload := bs [5] }), (5), ({ gseq := 5, channel := 3, waiting := [1, 0] }), ({ casc .rafter 2 with cascade := { (casc .rafter 2).cascade with mirrors := [{ gseq := 5, channel := 3, waiting := [1, 0] }] } }), by decide⟩

theorem witness_mirrorVerified : ∃ (rx : LaneRx) (g : Nat) (m : MirrorOut) (x : ClosedSector) (s : State),
    (LaneHeard rx s) ∧ (ForHere rx s) ∧ (g = rd rx.payload 0 8) ∧ ((s.cascade.mirrors.find? fun m => m.gseq == g && m.waiting.contains rx.origin.val) = some m) ∧ (((recChan s m.channel).closed.find? fun x => x.gseq == some g && x.ended) = some x) ∧ (byteAt rx.payload 8 = 0) :=
  ⟨({ lane := 0, fseq := 1, dest := 2, origin := 1, payload := bs [5] }), (5), ({ gseq := 5, channel := 3, waiting := [1, 0] }), ({ gseq := some 5, ended := true, lba := some 4, base := 9 }), ({ casc .rafter 2 with diskq := { full.diskq with chans := [(3, { closed := [{ gseq := some 5, ended := true, lba := some 4, base := 9 }] })] }, cascade := { (casc .rafter 2).cascade with mirrors := [{ gseq := 5, channel := 3, waiting := [1, 0] }] } }), by decide⟩

theorem witness_mirrorLost : ∃ (rx : LaneRx) (g : Nat) (m : MirrorOut) (x : ClosedSector) (s : State),
    (LaneHeard rx s) ∧ (ForHere rx s) ∧ (g = rd rx.payload 0 8) ∧ ((s.cascade.mirrors.find? fun m => m.gseq == g && m.waiting.contains rx.origin.val) = some m) ∧ (Up s) ∧ (CanRecord s) ∧ (((recChan s m.channel).closed.find? fun x => x.gseq == some g && x.ended) = some x) ∧ (byteAt rx.payload 8 ≠ 0) ∧ (m.verified = false) ∧ (m.waiting.filter (· ≠ rx.origin.val) = []) :=
  ⟨({ lane := 0, fseq := 1, dest := 2, origin := 1, payload := bs [5, 0, 0, 0, 0, 0, 0, 0, 2] }), (5), ({ gseq := 5, channel := 3, waiting := [1] }), ({ gseq := some 5, ended := true, lba := some 4, base := 9 }), ({ casc .rafter 2 with diskq := { full.diskq with chans := [(3, { closed := [{ gseq := some 5, ended := true, lba := some 4, base := 9 }] })] }, cascade := { (casc .rafter 2).cascade with mirrors := [{ gseq := 5, channel := 3, waiting := [1] }] } }), by decide +kernel⟩

theorem witness_mirrorPredecessorTimeout : ∃ (o : Fin 8) (us : Nat) (g : Nat) (t : Nat) (n : Nat) (f : List Nat) (d : Bytes) (s : State),
    (s.powered = true) ∧ ((vat s.cascade.mirrorIn o).held = [(g, f, d, t)]) ∧ (n = f.getD 0 0) ∧ (100000 ≤ us) :=
  ⟨(0), (100000), (5), (0), (3), ([3, 0, 9, 100, 60, 40000]), (bs [1]), ({ casc .rafter 2 with cascade := { (casc .rafter 2).cascade with mirrorIn := Vector.replicate 8 { held := [(5, [3, 0, 9, 100, 60, 40000], bs [1], 0)] } } }), by decide +kernel⟩

theorem witness_mirrorSegmentCut : ∃ (o : Fin 8) (ms : Nat) (g : Segment) (s : State),
    (Up s) ∧ (CanRecord s) ∧ (2000 ≤ ms) ∧ ((s.diskq.segs.filter fun g => g.origin == some o.val && g.flags.testBit 0 && !g.retired) = [g]) ∧ (segmentBusy s g.channel g.id = false) ∧ (g.verified.isSome = true) :=
  ⟨(0), (2000), ({ id := 7, channel := 3, flags := 1, origin := some 0, verified := some (4, 5), lastSec := 160 }), ({ casc .rafter 2 with diskq := { full.diskq with segs := [{ id := 7, channel := 3, flags := 1, origin := some 0, verified := some (4, 5), lastSec := 160 }] } }), by decide +kernel⟩

theorem witness_casGetStatus : ∃ (c : Call) (k : Cascade) (s : State),
    (Served cmdCasGetStatus c s) ∧ (k = s.cascade) :=
  ⟨(wcall 0 []), (full.cascade), (full), by decide⟩

theorem witness_casLaneSet : ∃ (c : Call) (p : Bytes) (l : Nat) (s : State),
    (Served cmdCasLaneSet c s) ∧ (p = c.payload) ∧ (l = byteAt p 0) ∧ (s.boot.role ≠ 0) ∧ ((gcmSlot s (byteAt p 3) && (s.key (byteAt p 3)).formNonce && gcmSlot s (byteAt p 4) && (byteAt p 5 == 255 || gcmSlot s (byteAt p 5))) = true) ∧ ((s.laneOf l).queue = []) ∧ ((s.laneOf l).quarter = false) :=
  ⟨(wcall 0 (bs [1, 1, 3, 2, 3, 255, 0, 0])), (bs [1, 1, 3, 2, 3, 255, 0, 0]), (1), ({ casc .rafter 2 with keys := { full.keys with slot := Vector.replicate 16 { kind := 3, formNonce := true } } }), by decide +kernel⟩

theorem witness_casLaneSetBad : ∃ (c : Call) (s : State),
    (Served cmdCasLaneSet c s) ∧ (s.boot.role ≠ 0) ∧ (gcmSlot s (byteAt c.payload 3) = false ∨ (s.key (byteAt c.payload 3)).formNonce = false) :=
  ⟨(wcall 0 (bs [1, 1, 3, 2, 3, 255, 0, 0])), (casc .rafter 2), by decide⟩

theorem witness_casAsymSet : ∃ (c : Call) (s : State),
    (Served cmdCasAsymSet c s) ∧ (s.boot.role ≠ 0) :=
  ⟨(wcall 0 (bs [1, 0, 0, 0, 255, 255, 255, 255])), (casc .rafter 2), by decide⟩

theorem witness_casStandalone : ∃ (c : Call) (s : State),
    (Served cmdCasAsymSet c s) ∧ (s.boot.role = 0) :=
  ⟨(wcall 0 (bs [1, 0, 0, 0, 255, 255, 255, 255])), (full), by decide⟩

theorem witness_casCalRun : ∃ (c : Call) (p : Bytes) (s : State),
    (Served cmdCasCalRun c s) ∧ (MayAccept c s) ∧ (p = c.payload) ∧ (s.boot.role ≠ 0) ∧ (timInTaken s (byteAt p 0) = false) ∧ (s.cascade.cal = none) :=
  ⟨(wcall 0 (bs [1, 0, 16, 0, 5, 0, 0, 0])), (bs [1, 0, 16, 0, 5, 0, 0, 0]), (casc .rafter 2), by decide⟩

theorem witness_casCalRunBusy : ∃ (c : Call) (s : State),
    (Served cmdCasCalRun c s) ∧ (s.boot.role ≠ 0) ∧ (timInTaken s (byteAt c.payload 0) = true ∨ s.cascade.cal.isSome = true) :=
  ⟨(wcall 0 (bs [1, 0, 16, 0, 5, 0, 0, 0])), ({ casc .rafter 2 with cascade := { (casc .rafter 2).cascade with cal := some {} } }), by decide⟩

theorem witness_casCalRunFails : ∃ (errs : List (Option Int)) (x : CasCal) (j : Job) (n : Nat) (s : State),
    (s.powered = true) ∧ (s.campel = true) ∧ (s.supply.holdUp = false) ∧ (j.origin = none) ∧ (eventRing s j.tenant = some n) ∧ ((s.ring n).lost = 0) ∧ ((s.ring n).log2 ≤ 12) ∧ (s.cascade.cal = some x) ∧ (findJob s 0x0B04 0 = some j) ∧ (errs.length = x.samples) ∧ (x.input < 4) ∧ (x.samples < 2 * (x.samples - (errs.filterMap id).length)) :=
  ⟨([none, none]), ({ samples := 2 }), ({ op := 0x0B04, token := 5, waits := true }), (0), ({ casc .rafter 2 with jobs := [{ op := 0x0B04, token := 5, waits := true }], cascade := { (casc .rafter 2).cascade with cal := some { samples := 2 } } }), by decide⟩

theorem witness_casCalRunEnd : ∃ (errs : List (Option Int)) (x : CasCal) (j : Job) (es : List Int) (n : Nat) (s : State),
    (s.powered = true) ∧ (s.campel = true) ∧ (s.supply.holdUp = false) ∧ (j.origin = none) ∧ (eventRing s j.tenant = some n) ∧ ((s.ring n).lost = 0) ∧ ((s.ring n).log2 ≤ 12) ∧ (s.cascade.cal = some x) ∧ (findJob s 0x0B04 0 = some j) ∧ (errs.length = x.samples) ∧ (x.input < 4) ∧ (es = (errs.filterMap id).map (fun e => e - x.refDelay)) ∧ (2 * (x.samples - es.length) ≤ x.samples) ∧ ((s.ten j.tenant).held + 1 ≤ (s.ten j.tenant).quota) ∧ (s.loft.tags.length + s.loft.gone.length + s.loft.testing.length + 1 < 2064384) ∧ (s.loft.tags.all (fun p => decide (p.2.gen < 256)) = true) ∧ (j.tenant < 8) :=
  ⟨([some 3, some 5]), ({ samples := 2 }), ({ op := 0x0B04, token := 5, waits := true }), ([3, 5]), (0), ({ casc .rafter 2 with jobs := [{ op := 0x0B04, token := 5, waits := true }], cascade := { (casc .rafter 2).cascade with cal := some { samples := 2 } } }), by decide⟩

theorem witness_casForwardSet : ∃ (c : Call) (s : State),
    (Served cmdCasForwardSet c s) ∧ (s.boot.role ≠ 0) :=
  ⟨(wcall 0 (bs [3, 4, 0, 0])), (casc .rafter 2), by decide⟩

theorem witness_casHandback : ∃ (c : Call) (s : State),
    (Served cmdCasHandback c s) ∧ (MayAccept c s) ∧ (s.boot.role ≠ 0) ∧ (s.cascade.acting = .actingRidge) ∧ (s.cascade.handback = false) ∧ (LaneClear 0 0x05 4 s) :=
  ⟨(wcall 0 []), (casc .actingRidge 1), by decide +kernel⟩

theorem witness_casHandbackBusy : ∃ (c : Call) (s : State),
    (Served cmdCasHandback c s) ∧ (s.boot.role ≠ 0) ∧ (s.cascade.acting ≠ .actingRidge ∨ (s.laneOf 0).state ≠ .up) :=
  ⟨(wcall 0 []), (casc .rafter 2), by decide⟩

theorem witness_casCounters : ∃ (c : Call) (l : Nat) (s : State),
    (Served cmdCasCounters c s) ∧ (s.boot.role ≠ 0) ∧ (l = byteAt c.payload 0) :=
  ⟨(wcall 0 (bs [1, 0, 0, 0])), (1), (casc .rafter 2), by decide⟩

/-! ### LanesKeepTheirLinksAndRates -/

theorem witness_credit : ∃ (l : Fin 2) (ack : Nat) (c0 : Nat) (c1 : Nat) (c2 : Nat) (c3 : Nat) (i : Nat) (s : State),
    (s.powered = true) ∧ (s.supply.isl.cascade = true) ∧ ((s.laneOf l).state = .up) ∧ ((s.laneOf l).due = none) ∧ ((s.laneOf l).unacked.findIdx? (fun f => f.fseq == ack) = some i) ∧ ((s.laneOf l).queue = []) :=
  ⟨(0), (5), (1), (2), (3), (4), (0), ({ casc .rafter 2 with cascade := { (casc .rafter 2).cascade with lane := #v[{ state := .up, unacked := [{ type := 3, fseq := 5 }], resends := 3 }, { state := .up, peer := true }] } }), by decide⟩

theorem witness_creditStarts : ∃ (l : Fin 2) (ack : Nat) (c0 : Nat) (c1 : Nat) (c2 : Nat) (c3 : Nat) (f : LaneFrame) (s : State),
    (s.powered = true) ∧ (s.supply.isl.cascade = true) ∧ ((s.laneOf l).state = .up) ∧ ((s.laneOf l).due = none) ∧ ((s.laneOf l).switchTo = none) ∧ ((s.laneOf l).encrypt = false) ∧ ((s.laneOf l).queue = [f]) ∧ (f.encrypted = false) ∧ (frameUnits f.payload.length ≤ vat (s.laneOf l).credit (frameVc f.type) + [c0, c1, c2, c3].getD (frameVc f.type) 0) :=
  ⟨(0), (9), (1), (0), (0), (0), ({ type := 3, dest := 1, payload := bs [7] }), ({ casc .rafter 2 with cascade := { (casc .rafter 2).cascade with lane := #v[{ state := .up, credit := #v[0, 0, 0, 0], queue := [{ type := 3, dest := 1, payload := bs [7] }] }, { state := .up, peer := true }] } }), by decide⟩

theorem witness_creditNak : ∃ (l : Fin 2) (ack : Nat) (c0 : Nat) (c1 : Nat) (c2 : Nat) (c3 : Nat) (s : State),
    (s.supply.isl.cascade = true) ∧ ((s.laneOf l).state = .up) ∧ ((s.laneOf l).due = none) ∧ ((s.laneOf l).unacked.findIdx? (fun f => f.fseq == ack) = none) ∧ ((s.laneOf l).queue = []) ∧ (Up s) ∧ ((s.laneOf l).unacked ≠ []) ∧ ((s.laneOf l).resends + 1 < 8) ∧ ((s.laneOf l).errAt = none) :=
  ⟨(0), (4), (0), (0), (0), (0), ({ casc .rafter 2 with cascade := { (casc .rafter 2).cascade with lane := #v[{ state := .up, unacked := [{ type := 3, fseq := 5 }] }, { state := .up, peer := true }] } }), by decide +kernel⟩

theorem witness_ackTimeout : ∃ (l : Fin 2) (us : Nat) (s : State),
    ((s.laneOf l).state = .up) ∧ (100 ≤ us) ∧ (Up s) ∧ ((s.laneOf l).unacked ≠ []) ∧ ((s.laneOf l).resends + 1 < 8) ∧ ((s.laneOf l).errAt = none) :=
  ⟨(0), (100), ({ casc .rafter 2 with cascade := { (casc .rafter 2).cascade with lane := #v[{ state := .up, unacked := [{ type := 3, fseq := 5 }] }, { state := .up, peer := true }] } }), by decide +kernel⟩

theorem witness_laneRetrains : ∃ (l : Fin 2) (us : Nat) (s : State),
    (Up s) ∧ (CanRecord s) ∧ ((s.laneOf l).state = .up) ∧ (100 ≤ us) ∧ ((s.laneOf l).unacked ≠ []) ∧ (7 ≤ (s.laneOf l).resends) :=
  ⟨(0), (100), ({ casc .rafter 2 with cascade := { (casc .rafter 2).cascade with lane := #v[{ state := .up, unacked := [{ type := 3, fseq := 5 }], resends := 7 }, { state := .up, peer := true }] } }), by decide +kernel⟩

theorem witness_laneLinkUp : ∃ (l : Fin 2) (ms : Nat) (s : State),
    (Up s) ∧ (laneFitted s l = true) ∧ (10 ≤ ms) ∧ ((s.laneOf l).state = .training) ∧ ((s.laneOf l).unacked = []) ∧ ((s.laneOf l).queue = []) ∧ (s.cascade.leaseWanted = false) ∧ (l = 0 ∨ headsChain s = false) :=
  ⟨(0), (10), ({ casc .rafter 2 with cascade := { (casc .rafter 2).cascade with lane := #v[{ state := .training, downAt := some 0 }, { state := .up, peer := true }] } }), by decide +kernel⟩

theorem witness_laneLinkUpHead : ∃ (l : Fin 2) (ms : Nat) (s : State),
    (Up s) ∧ (laneFitted s l = true) ∧ (10 ≤ ms) ∧ ((s.laneOf l).state = .training) ∧ ((s.laneOf l).unacked = []) ∧ ((s.laneOf l).queue = []) ∧ (s.cascade.leaseWanted = false) ∧ (l = 1) ∧ (headsChain s = true) ∧ (s.cascade.valid = true) ∧ ((s.laneOf 1).switchTo = none) ∧ ((s.laneOf 1).encrypt = false) ∧ (1 ≤ vat (s.laneOf 1).credit 0) :=
  ⟨(1), (10), ({ casc .ridge 0 with cascade := { (casc .ridge 0).cascade with lane := #v[{ state := .up }, { state := .training, peer := true }] } }), by decide +kernel⟩

theorem witness_laneLinkDown : ∃ (s : State),
    (Up s) ∧ ((s.laneOf 0).state = .up) ∧ (s.cascade.handback = false) ∧ ((s.ref 3).qualified = false) ∧ ((∀ t : Fin 8, (s.ten t).outstanding = none)) :=
  ⟨({ casc .rafter 2 with cascade := { (casc .rafter 2).cascade with lane := #v[{ state := .up }, { state := .up, peer := true }] } }), by decide +kernel⟩

theorem witness_laneLinkDownTime : ∃ (s : State),
    (Up s) ∧ ((s.laneOf 0).state = .up) ∧ ((s.ref 3).qualified = true) :=
  ⟨({ casc .rafter 2 with timebase := { full.timebase with refs := full.timebase.refs.set 2 { qualified := true } }, cascade := { (casc .rafter 2).cascade with lane := #v[{ state := .up }, { state := .up, peer := true }] } }), by decide +kernel⟩

theorem witness_laneLinkDownRequest : ∃ (t : Fin 8) (o : Outstanding) (s : State),
    (Up s) ∧ ((s.laneOf 0).state = .up) ∧ (s.cascade.handback = false) ∧ ((s.ref 3).qualified = false) ∧ ((s.ten t).outstanding = some o) ∧ (laneTo s o.target = 0) :=
  ⟨(0), ({ op := 0x0103, seq := 7, target := 0 }), ({ casc .rafter 2 with tenants := (full.updTen 0 fun x => { x with outstanding := some { op := 0x0103, seq := 7, target := 0 } }).tenants, cascade := { (casc .rafter 2).cascade with lane := #v[{ state := .up }, { state := .up, peer := true }] } }), by decide +kernel⟩

theorem witness_laneLinkDownHandback : ∃ (j : Job) (n : Nat) (s : State),
    (Up s) ∧ ((s.laneOf 0).state = .up) ∧ (s.campel = true) ∧ (s.supply.holdUp = false) ∧ (j.origin = none) ∧ (eventRing s j.tenant = some n) ∧ ((s.ring n).lost = 0) ∧ ((s.ring n).log2 ≤ 12) ∧ (s.cascade.handback = true) ∧ (findJob s 0x0B06 0 = some j) ∧ ((s.ref 3).qualified = false) ∧ ((∀ t : Fin 8, (s.ten t).outstanding = none)) :=
  ⟨({ op := 0x0B06, token := 5, waits := true }), (0), ({ casc .actingRidge 1 with jobs := [{ op := 0x0B06, token := 5, waits := true }], cascade := { (casc .actingRidge 1).cascade with handback := true } }), by decide +kernel⟩

theorem witness_laneLinkDownRafter : ∃ (s : State),
    (Up s) ∧ (CanRecord s) ∧ ((s.laneOf 1).state = .up) ∧ ((s.laneOf 1).peer = true) ∧ (s.cascade.acting = .rafter) ∧ ((∀ t : Fin 8, (s.ten t).outstanding = none)) ∧ (LaneClear 0 0x02 12 s) :=
  ⟨(casc .rafter 2), by decide +kernel⟩

theorem witness_linkDownRelease : ∃ (l : Fin 2) (ms : Nat) (f : LaneFrame) (n : Nat) (p : Nat) (x : Sub) (s : State),
    (s.powered = true) ∧ ((s.laneOf l).state = .training) ∧ (1000 ≤ ms) ∧ ((s.laneOf l).unacked = []) ∧ ((s.laneOf l).queue = [f]) ∧ (f.origin = s.cascade.position) ∧ (f.type = 0x30) ∧ (findCopy s (rd f.payload 0 2) = some x) ∧ (x.ring = n) ∧ (n < 32) ∧ (p < 32) ∧ ((s.ring n).opened = true) ∧ ((s.ring n).pair = some p) ∧ ((s.ring n).closing = false) ∧ ((s.ring p).log2 ≤ 12) ∧ (poolIndex (hIndex (rd x.desc 8 4)) = true) :=
  ⟨(0), (1000), ({ type := 0x30, origin := 2, payload := bs [7, 0] }), (1), (2), ({ ring := 1, cls := 0x30, tag := 9, ctag := 7, desc := bs [0x30, 1, 9, 0, 1, 0, 2, 0, 64, 156, 32, 0] }), ({ casc .rafter 2 with subs := [{ ring := 1, cls := 0x30, tag := 9, ctag := 7, desc := bs [0x30, 1, 9, 0, 1, 0, 2, 0, 64, 156, 32, 0] }], cascade := { (casc .rafter 2).cascade with lane := #v[{ state := .training, queue := [{ type := 0x30, origin := 2, payload := bs [7, 0] }] }, { state := .up, peer := true }] } }), by decide⟩

theorem witness_linkDownRecord : ∃ (l : Fin 2) (ms : Nat) (f : LaneFrame) (s : State),
    (s.powered = true) ∧ ((s.laneOf l).state = .training) ∧ (1000 ≤ ms) ∧ ((s.laneOf l).unacked = []) ∧ ((s.laneOf l).queue = [f]) ∧ (f.origin = s.cascade.position) ∧ (f.type = 0x20) :=
  ⟨(0), (1000), ({ type := 0x20, origin := 2, payload := bs [7] }), ({ casc .rafter 2 with cascade := { (casc .rafter 2).cascade with lane := #v[{ state := .training, queue := [{ type := 0x20, origin := 2, payload := bs [7] }] }, { state := .up, peer := true }], fwdPtr := 7 } }), by decide⟩

theorem witness_linkDownMirror : ∃ (l : Fin 2) (ms : Nat) (f : LaneFrame) (g : Nat) (m : MirrorOut) (s : State),
    (s.powered = true) ∧ ((s.laneOf l).state = .training) ∧ (1000 ≤ ms) ∧ ((s.laneOf l).unacked = []) ∧ ((s.laneOf l).queue = [f]) ∧ (f.origin = s.cascade.position) ∧ (f.type = 0x32) ∧ (f.encrypted = false) ∧ (g = rd f.payload 0 8) ∧ ((s.cascade.mirrors.find? fun m => m.gseq == g && m.waiting.contains f.dest) = some m) ∧ (((recChan s m.channel).closed.find? fun x => x.gseq == some g && x.ended) = none) :=
  ⟨(0), (1000), ({ type := 0x32, origin := 2, dest := 1, payload := bs [5] }), (5), ({ gseq := 5, channel := 3, waiting := [1, 0] }), ({ casc .rafter 2 with cascade := { (casc .rafter 2).cascade with lane := #v[{ state := .training, queue := [{ type := 0x32, origin := 2, dest := 1, payload := bs [5] }] }, { state := .up, peer := true }], mirrors := [{ gseq := 5, channel := 3, waiting := [1, 0] }] } }), by decide⟩

theorem witness_rateIdle : ∃ (l : Fin 2) (use : Nat) (t : Nat) (s : State),
    (s.powered = true) ∧ (laneOpen (s.laneOf l) = true) ∧ ((s.laneOf l).quarter = false) ∧ ((s.laneOf l).policy = .auto) ∧ (use < 5) ∧ (10 ≤ t) ∧ ((s.laneOf l).reqDown = false) ∧ ((s.laneOf l).unacked = []) :=
  ⟨(0), (4), (10), (casc .rafter 2), by decide⟩

theorem witness_rateIdleWaits : ∃ (l : Fin 2) (use : Nat) (t : Nat) (s : State),
    (s.powered = true) ∧ (laneOpen (s.laneOf l) = true) ∧ ((s.laneOf l).quarter = false) ∧ ((s.laneOf l).policy = .auto) ∧ (use < 5) ∧ (10 ≤ t) ∧ ((s.laneOf l).reqDown = false) ∧ ((s.laneOf l).unacked ≠ []) :=
  ⟨(0), (4), (10), ({ casc .rafter 2 with cascade := { (casc .rafter 2).cascade with lane := #v[{ state := .up, unacked := [{ type := 3, fseq := 5 }] }, { state := .up, peer := true }] } }), by decide⟩

theorem witness_reqDown : ∃ (l : Fin 2) (n : Nat) (use : Nat) (t : Nat) (s : State),
    (s.powered = true) ∧ (laneOpen (s.laneOf l) = true) ∧ ((s.laneOf l).reqDown = false ∨ l = 0) ∧ ((s.laneOf l).reqUp = false) ∧ ((s.laneOf l).policy ≠ .full) ∧ (use < 5) ∧ (10 ≤ t) :=
  ⟨(0), (64), (4), (10), (casc .rafter 2), by decide⟩

theorem witness_reqDownRefused : ∃ (l : Fin 2) (n : Nat) (use : Nat) (t : Nat) (s : State),
    (s.powered = true) ∧ (laneOpen (s.laneOf l) = true) ∧ ((s.laneOf l).reqDown = false ∨ l = 0) ∧ ((s.laneOf l).reqUp = false) ∧ ((s.laneOf l).policy = .full ∨ 5 ≤ use ∨ t < 10) :=
  ⟨(0), (64), (5), (10), (casc .rafter 2), by decide⟩

theorem witness_reqUp : ∃ (l : Fin 2) (n : Nat) (s : State),
    (s.powered = true) ∧ (laneOpen (s.laneOf l) = true) :=
  ⟨(0), (64), (casc .rafter 2), by decide⟩

theorem witness_ackDown : ∃ (l : Fin 2) (n : Nat) (s : State),
    (s.powered = true) ∧ (laneOpen (s.laneOf l) = true) ∧ ((s.laneOf l).reqDown = true) :=
  ⟨(0), (64), ({ casc .rafter 2 with cascade := { (casc .rafter 2).cascade with lane := #v[{ state := .up, reqDown := true }, { state := .up, peer := true }] } }), by decide⟩

theorem witness_ackUp : ∃ (l : Fin 2) (n : Nat) (s : State),
    (s.powered = true) ∧ (laneOpen (s.laneOf l) = true) ∧ ((s.laneOf l).reqUp = true) :=
  ⟨(0), (64), ({ casc .rafter 2 with cascade := { (casc .rafter 2).cascade with lane := #v[{ state := .up, reqUp := true }, { state := .up, peer := true }] } }), by decide⟩

theorem witness_refuse : ∃ (l : Fin 2) (s : State),
    (s.powered = true) :=
  ⟨(0), ({ casc .rafter 2 with cascade := { (casc .rafter 2).cascade with lane := #v[{ state := .up, reqDown := true }, { state := .up, peer := true }] } }), by decide⟩

theorem witness_rateStepUpDemand : ∃ (l : Fin 2) (q : Nat) (w : Nat) (use : Nat) (s : State),
    (s.powered = true) ∧ (laneOpen (s.laneOf l) = true) ∧ ((s.laneOf l).quarter = true) ∧ ((s.laneOf l).policy ≠ .quarter) ∧ ((s.laneOf l).reqUp = false) ∧ (16384 ≤ q ∨ 5 ≤ w ∨ 25 < use ∨ (s.laneOf l).policy = .full) ∧ ((s.laneOf l).unacked = []) :=
  ⟨(0), (16384), (0), (0), ({ casc .rafter 2 with cascade := { (casc .rafter 2).cascade with lane := #v[{ state := .up, quarter := true }, { state := .up, peer := true }] } }), by decide⟩

theorem witness_rateSwitch : ∃ (l : Fin 2) (q : Bool) (s : State),
    (s.powered = true) ∧ ((s.laneOf l).state = .up) ∧ ((s.laneOf l).switchTo = some q) :=
  ⟨(0), (true), ({ casc .rafter 2 with cascade := { (casc .rafter 2).cascade with lane := #v[{ state := .up, switchTo := some true }, { state := .up, peer := true }] } }), by decide⟩

theorem witness_rateRelock : ∃ (l : Fin 2) (us : Nat) (s : State),
    (s.powered = true) ∧ ((s.laneOf l).state = .switching) ∧ (10 ≤ us) ∧ ((s.laneOf l).queue = []) :=
  ⟨(0), (10), ({ casc .rafter 2 with cascade := { (casc .rafter 2).cascade with lane := #v[{ state := .switching, quarter := true }, {}] } }), by decide⟩

theorem witness_rateRelockLost : ∃ (us : Nat) (s : State),
    (Up s) ∧ ((s.laneOf 0).state = .switching) ∧ (s.cascade.handback = false) ∧ ((s.ref 3).qualified = false) ∧ ((∀ t : Fin 8, (s.ten t).outstanding = none)) :=
  ⟨(31), ({ casc .rafter 2 with cascade := { (casc .rafter 2).cascade with lane := #v[{ state := .switching, quarter := true }, {}] } }), by decide +kernel⟩

/-! ### RateRequestsWaitForAcknowledgement -/

theorem witness_askWaits : ∃ (l : Fin 2) (q : Bool) (s : State),
    ((s.laneOf l).unacked ≠ []) :=
  ⟨(0), (true), ({ casc .rafter 2 with cascade := { (casc .rafter 2).cascade with lane := #v[{ state := .up, unacked := [{ type := 3, fseq := 5 }] }, { state := .up, peer := true }] } }), by decide⟩

theorem witness_idleWaits : ∃ (l : Fin 2) (use : Nat) (t : Nat) (s : State),
    (s.powered = true) ∧ (laneOpen (s.laneOf l) = true) ∧ ((s.laneOf l).quarter = false) ∧ ((s.laneOf l).policy = .auto) ∧ (use < 5) ∧ (10 ≤ t) ∧ ((s.laneOf l).reqDown = false) ∧ ((s.laneOf l).unacked ≠ []) :=
  ⟨(0), (4), (10), ({ casc .rafter 2 with cascade := { (casc .rafter 2).cascade with lane := #v[{ state := .up, unacked := [{ type := 3, fseq := 5 }] }, { state := .up, peer := true }] } }), by decide⟩

theorem witness_demandWaits : ∃ (l : Fin 2) (q : Nat) (w : Nat) (use : Nat) (s : State),
    (s.powered = true) ∧ (laneOpen (s.laneOf l) = true) ∧ ((s.laneOf l).quarter = true) ∧ ((s.laneOf l).policy ≠ .quarter) ∧ ((s.laneOf l).reqUp = false) ∧ (16384 ≤ q ∨ 5 ≤ w ∨ 25 < use ∨ (s.laneOf l).policy = .full) ∧ ((s.laneOf l).unacked ≠ []) :=
  ⟨(0), (16384), (0), (0), ({ casc .rafter 2 with cascade := { (casc .rafter 2).cascade with lane := #v[{ state := .up, quarter := true, unacked := [{ type := 3, fseq := 5 }] }, { state := .up, peer := true }] } }), by decide⟩

theorem witness_policyWaits : ∃ (c : Call) (p : Bytes) (l : Nat) (s : State),
    (Served cmdCasLaneSet c s) ∧ (p = c.payload) ∧ (l = byteAt p 0) ∧ (s.boot.role ≠ 0) ∧ ((gcmSlot s (byteAt p 3) && (s.key (byteAt p 3)).formNonce && gcmSlot s (byteAt p 4) && (byteAt p 5 == 255 || gcmSlot s (byteAt p 5))) = true) ∧ (byteAt p 1 = 1) ∧ (laneOpen (s.laneOf l) = true) ∧ ((s.laneOf l).quarter = true) ∧ ((s.laneOf l).reqUp = false) ∧ ((s.laneOf l).queue = []) ∧ ((s.laneOf l).unacked ≠ []) :=
  ⟨(wcall 0 (bs [0, 1, 0, 2, 3, 255, 0, 0])), (bs [0, 1, 0, 2, 3, 255, 0, 0]), (0), ({ casc .rafter 2 with keys := { full.keys with slot := Vector.replicate 16 { kind := 3, formNonce := true } }, cascade := { (casc .rafter 2).cascade with lane := #v[{ state := .up, quarter := true, unacked := [{ type := 3, fseq := 5 }] }, { state := .up, peer := true }] } }), by decide +kernel⟩

theorem witness_creditStillWaits : ∃ (l : Fin 2) (ack : Nat) (c0 : Nat) (c1 : Nat) (c2 : Nat) (c3 : Nat) (i : Nat) (q : Bool) (s : State),
    (s.powered = true) ∧ (s.supply.isl.cascade = true) ∧ ((s.laneOf l).state = .up) ∧ ((s.laneOf l).switchTo = none) ∧ ((s.laneOf l).due = some q) ∧ ((s.laneOf l).unacked.findIdx? (fun f => f.fseq == ack) = some i) ∧ ((s.laneOf l).queue = []) ∧ ((s.laneOf l).unacked.drop (i + 1) ≠ []) :=
  ⟨(0), (5), (0), (0), (0), (0), (0), (true), ({ casc .rafter 2 with cascade := { (casc .rafter 2).cascade with lane := #v[{ state := .up, unacked := [{ fseq := 5 }, { fseq := 6 }], due := some true }, { state := .up, peer := true }] } }), by decide⟩

theorem witness_creditSendsRequest : ∃ (l : Fin 2) (ack : Nat) (c0 : Nat) (c1 : Nat) (c2 : Nat) (c3 : Nat) (i : Nat) (q : Bool) (s : State),
    (s.powered = true) ∧ (s.supply.isl.cascade = true) ∧ ((s.laneOf l).state = .up) ∧ ((s.laneOf l).switchTo = none) ∧ ((s.laneOf l).due = some q) ∧ ((s.laneOf l).unacked.findIdx? (fun f => f.fseq == ack) = some i) ∧ ((s.laneOf l).queue = []) ∧ ((s.laneOf l).unacked.drop (i + 1) = []) :=
  ⟨(0), (5), (0), (0), (0), (0), (0), (true), ({ casc .rafter 2 with cascade := { (casc .rafter 2).cascade with lane := #v[{ state := .up, unacked := [{ fseq := 5 }], due := some true }, { state := .up, peer := true }] } }), by decide⟩

end Sys2Proof.Machine
end

section
/-! ## Rows of a running module (R21, R986 to R989, Table PWR.3) -/
namespace Sys2Proof.Machine
open Sys2Proof

/-- A Spar instruction is a row of a running module. -/
theorem sparInstr_running (i opc : Nat) (flip : Option Flip) (base : Nat → State → State) (s : State) :
    ∃ f, sparInstr i opc flip base s = s.running f := ⟨_, rfl⟩

/-- A Formatter instruction is a row of a running module. -/
theorem formatter_running (opc : Nat) (flip : Option Flip) (f : Nat → State → State) (s : State) :
    ∃ g, formatter opc flip f s = s.running g := sparInstr_running ..

/-- A Cadence instruction is a row of a running module. -/
theorem cadencer_running (opc : Nat) (flip : Option Flip) (f : Nat → State → State) (s : State) :
    ∃ g, cadencer opc flip f s = s.running g := sparInstr_running ..

/-- A Radio instruction is a row of a running module. -/
theorem radioInstr_running (opc : Nat) (flip : Option Flip) (f : Nat → State → State) (s : State) :
    ∃ g, radioInstr opc flip f s = s.running g := sparInstr_running ..

/-- TIM_IN_EDGE is a row of a running module; its `let` stands before the test of power. -/
theorem execTimInEdge_running (i : Fin 4) (falling : Bool) (sec ns frac widthPs : Nat) (s : State) :
    ∃ f, execTimInEdge i falling sec ns frac widthPs s = s.running f := by
  unfold execTimInEdge
  exact ⟨_, rfl⟩

/-- What a command can be: one of the Guard island, which always answers a next state, or a row that acts only while the
module runs. -/
theorem exec_ofGuard_or_running (c : Instr) (s : State) :
    (ofGuard c = true ∧ ∃ z, exec c s = .next z) ∨ ∃ f, exec c s = s.running f := by
  cases c with
  | perstN | sdRefclkLoss | sdRefclkRestored | vinWake | wakeN | resetN | retractEndReset | guardPowerOnReset
  | undervoltageLockout | resetNRelease | perstNRelease | peRefclkLoss | peRefclkRestored | guardResetRelease
  | heldWakeRelease => exact .inl ⟨rfl, _, rfl⟩
  | timInEdge => exact .inr (execTimInEdge_running ..)
  | nop | jump | jumpIfInbound | waitTick | waitEvent | signal | halt | loop | wedgeSync | settleCheck =>
    dsimp only [exec]; exact .inr (sparInstr_running ..)
  | headSelect | seekStart | writeSector | readSector | verifySector | skipDefect =>
    dsimp only [exec]; exact .inr (formatter_running ..)
  | edgePlan | ltcFrame | ptpSyncLaunch | ptpFollowUp | ptpAnnounce =>
    dsimp only [exec]; exact .inr (cadencer_running ..)
  | bandState | synthHop | tddStep | powerStep | ditherChip | detSample | rfspiXfer =>
    dsimp only [exec]; exact .inr (radioInstr_running ..)
  | _ => dsimp only [exec]; exact .inr ⟨_, rfl⟩

/-- Settles O2: every row is one of the Guard island's or a row of a running module, and both answer a next state; a row
of a running module does nothing while the rails are off. -/
theorem commandsAnswerAndNeedPower : Obligations.CommandsAnswerAndNeedPower := by
  unfold Obligations.CommandsAnswerAndNeedPower
  refine ⟨fun c s => ?_, fun c s hp hg => ?_⟩
  · obtain ⟨-, hz⟩ | ⟨f, hf⟩ := exec_ofGuard_or_running c s
    · exact hz
    · exact ⟨_, hf⟩
  · obtain ⟨hc, -⟩ | ⟨f, hf⟩ := exec_ofGuard_or_running c s
    · rw [hg] at hc; cases hc
    · rw [hf, running_off hp]

end Sys2Proof.Machine
end

section
/-! ## Requests that a check refuses, and answers that change only the mailbox (R10, R191, R193, R200) -/
namespace Sys2Proof.Machine
open Sys2Proof

/-! ### A raise of a source does not look at what a mailbox holds -/

/-- The state under other tenants. -/
def State.withTenants (s : State) (ts : Vector Tenant 8) : State := { s with tenants := ts }

/-- Of two states under other tenants the one that a condition picks. -/
theorem ite_withTenants (c : Prop) [Decidable c] (a b : State) (ts : Vector Tenant 8) :
    (if c then a else b).withTenants ts = if c then a.withTenants ts else b.withTenants ts := by
  split <;> rfl

/-- Going pending in one view neither reads nor writes the tenants. -/
theorem goPending_withTenants (t src : Nat) (ts : Vector Tenant 8) (s : State) :
    goPending t src (s.withTenants ts) = (goPending t src s).withTenants ts := by
  simp only [goPending, ite_withTenants]
  rfl

/-- A raise in one view neither reads nor writes the tenants. -/
theorem raiseView_withTenants (t src : Nat) (ts : Vector Tenant 8) (s : State) :
    raiseView t src (s.withTenants ts) = (raiseView t src s).withTenants ts := by
  simp only [raiseView, ite_withTenants, ← goPending_withTenants]
  rfl

/-- Raises in a list of views neither read nor write the tenants. -/
theorem foldl_raiseView_withTenants (src : Nat) (l : List Nat) (ts : Vector Tenant 8) (s : State) :
    l.foldl (fun s t => raiseView t src s) (s.withTenants ts) =
      (l.foldl (fun s t => raiseView t src s) s).withTenants ts := by
  induction l generalizing s with
  | nil => rfl
  | cons t l ih => simp only [List.foldl_cons, raiseView_withTenants, ih]

/-- A raise acts on the same views under other tenants of the same states. -/
theorem latches_withTenants (src : Nat) (ts : Vector Tenant 8) (s : State)
    (h : ∀ t, (vat ts t).state = (s.ten t).state) : latches (s.withTenants ts) src = latches s src := by
  funext t
  have ht : ((s.withTenants ts).ten t).state = (s.ten t).state := h t
  simp only [latches, visible, ht]
  rfl

/-- Of the tenants a raise reads their states alone, and it writes nothing of them. -/
theorem raiseSrc_withTenants (src : Nat) (ts : Vector Tenant 8) (s : State)
    (h : ∀ t, (vat ts t).state = (s.ten t).state) :
    raiseSrc src (s.withTenants ts) = (raiseSrc src s).withTenants ts := by
  simp only [raiseSrc, ite_withTenants, latches_withTenants src ts s h, foldl_raiseView_withTenants]
  rfl

/-! ### Answers in the mailbox -/

/-- A response leaves every other tenant. -/
theorem respond_ten_ne (t k : Nat) (r : Rsp) (s : State) (h : t ≠ k) : (respond t r s).ten k = s.ten k := by
  simp [respond, State.ten, h]

/-- A response leaves the state of every tenant. -/
theorem respond_ten_state (t k : Nat) (r : Rsp) (s : State) : ((respond t r s).ten k).state = (s.ten k).state := by
  simp only [respond, State.ten, raiseSrc_tenants, State.updTen_tenants]
  exact vat_upd_keep _ _ _ _ Tenant.state fun _ => rfl

/-- Taking a doorbell leaves the state of every tenant. -/
theorem begun_ten_state (op : Nat) (c : Call) (s : State) (t : Nat) : ((begun op c s).ten t).state = (s.ten t).state := by
  obtain ⟨b, sp, h⟩ := begun_ten op c s t
  rw [h]
  split <;> rfl

/-- A response to a request that changed nothing is one raise of the mailbox's source on the state before it, under other
tenants. -/
theorem respond_begun (op : Nat) (c : Call) (r : Rsp) (s : State) :
    respond c.t.val r (begun op c s) =
      (raiseSrc (32 + c.t.val) s).withTenants (respond c.t.val r (begun op c s)).tenants := by
  have hts : ∀ k, (vat (respond c.t.val r (begun op c s)).tenants k).state = (s.ten k).state := fun k =>
    (respond_ten_state _ k r _).trans (begun_ten_state op c s k)
  rw [← raiseSrc_withTenants _ _ _ hts]
  simp only [respond, raiseSrc_tenants]
  rfl

/-- An answer to a request that changed nothing changes only its mailbox and what its source raises (R193). -/
theorem readsOnly_respond (op : Nat) (c : Call) (r : Rsp) (s : State) :
    ReadsOnly c s (respond c.t.val r (begun op c s)) := by
  refine ⟨⟨by simp [KeepsBut], fun k => ?_⟩, ?_⟩
  · obtain ⟨b, sp, hb⟩ := begun_ten op c s k.val
    by_cases hk : k = c.t
    · subst hk
      simp [respond_ten, hb]
    · have hn : c.t.val ≠ k.val := fun e => hk (Fin.ext e.symm)
      rw [if_neg hk, respond_ten_ne _ _ _ _ hn, hb, if_neg (Ne.symm hn)]
  · rw [respond_begun]
    exact ⟨rfl, rfl⟩

/-! ### A request that a check refuses (R200) -/

/-- A doorbell that is taken is answered with what the execution of its request gives. -/
theorem command_taken {cmd : Cmd} {c : Call} {s : State} (h : Taken c s) :
    command cmd c s = .next (answer (callReq c cmd.op) (execute cmd (callReq c cmd.op) (begun cmd.op c s))) := by
  obtain ⟨hp, hh, hb, hl⟩ := h
  have hl' : ¬ 240 < c.payload.length := by omega
  simp [command, State.running, hp, call, hh, hb, hl', begun]

/-- A request that fails a check is answered with the check's status and has no effect. -/
theorem execute_refused {cmd : Cmd} {q : Req} {s : State} {st : Nat} (h : checks cmd q s = some st) :
    execute cmd q s = (some (st, none, []), s) := by
  simp [execute, h]

/-- A request that fails a check answers the check's status; only its mailbox and the interrupt of its response change. -/
theorem command_refused {cmd : Cmd} {c : Call} {s : State} {st : Nat} (h : Taken c s)
    (hc : checks cmd (callReq c cmd.op) (begun cmd.op c s) = some st) :
    ∃ z, command cmd c s = .next z ∧ Answered c cmd.op st [] z ∧ ReadsOnly c s z := by
  rw [command_taken h, execute_refused hc]
  exact ⟨_, rfl, answered_respond c cmd.op st [] _, readsOnly_respond cmd.op c _ s⟩

/-! ### The radio opcodes of the -T variant (R10) -/

/-- On a -T the first check refuses a request of an 0x07xx opcode. -/
theorem checks_notFitted {cmd : Cmd} {q : Req} {s : State} (hop : q.op / 256 = 7) (ht : s.isT = true) :
    checks cmd q s = some St.notFitted := by
  simp [checks, hop, ht]

/-- On a -T a request of an 0x07xx opcode answers NOT_FITTED, whether or not the opcode is defined. -/
theorem executeReq_notFitted {q : Req} {s : State} (hop : q.op / 256 = 7) (ht : s.isT = true) :
    executeReq q s = (some (St.notFitted, none, []), s) := by
  unfold executeReq
  split
  · exact execute_refused (checks_notFitted hop ht)
  · simp [undefinedStatus, hop, ht]

/-- A row of the table is a Campel command of an 0x07xx opcode. -/
def IsRadioCommand (p : (Call → Instr) × Nat) : Prop :=
  ∃ cmd : Cmd, (∀ c s, exec (p.1 c) s = command cmd c s) ∧ cmd.op = p.2 ∧ p.2 / 256 = 7

/-- The commands 0x0701 to 0x0711. -/
theorem radioRows_isRadioCommand :
    ∀ p ∈ ([(.radioGetStatus, 0x0701), (.radioDeviceSet, 0x0702), (.radioBandConfig, 0x0703), (.radioSynthConfig, 0x0704),
      (.radioSynthTableSet, 0x0705), (.radioSynthCal, 0x0706), (.radioBandStart, 0x0707), (.radioBandStop, 0x0708),
      (.radioBandHop, 0x0709), (.radioTddSet, 0x070A), (.radioPowerTableSet, 0x070B), (.radioPowerSet, 0x070C),
      (.radioBiasConfig, 0x070D), (.radioDetConfig, 0x070E), (.radioDetRead, 0x070F), (.radioRfspiXfer, 0x0710),
      (.radioAuxXfer, 0x0711), (.eaveGetStatus, 0x0740), (.eaveConfig, 0x0741), (.eaveShutdown, 0x0742),
      (.eaveClear, 0x0743)] : List ((Call → Instr) × Nat)), IsRadioCommand p := by
  simp only [List.forall_mem_cons, List.not_mem_nil, false_implies, implies_true, and_true]
  exact ⟨⟨cmdRadioGetStatus, fun _ _ => rfl, rfl, rfl⟩, ⟨cmdRadioDeviceSet, fun _ _ => rfl, rfl, rfl⟩,
    ⟨cmdRadioBandConfig, fun _ _ => rfl, rfl, rfl⟩, ⟨cmdRadioSynthConfig, fun _ _ => rfl, rfl, rfl⟩,
    ⟨cmdRadioSynthTableSet, fun _ _ => rfl, rfl, rfl⟩, ⟨cmdRadioSynthCal, fun _ _ => rfl, rfl, rfl⟩,
    ⟨cmdRadioBandStart, fun _ _ => rfl, rfl, rfl⟩, ⟨cmdRadioBandStop, fun _ _ => rfl, rfl, rfl⟩,
    ⟨cmdRadioBandHop, fun _ _ => rfl, rfl, rfl⟩, ⟨cmdRadioTddSet, fun _ _ => rfl, rfl, rfl⟩,
    ⟨cmdRadioPowerTableSet, fun _ _ => rfl, rfl, rfl⟩, ⟨cmdRadioPowerSet, fun _ _ => rfl, rfl, rfl⟩,
    ⟨cmdRadioBiasConfig, fun _ _ => rfl, rfl, rfl⟩, ⟨cmdRadioDetConfig, fun _ _ => rfl, rfl, rfl⟩,
    ⟨cmdRadioDetRead, fun _ _ => rfl, rfl, rfl⟩, ⟨cmdRadioRfspiXfer, fun _ _ => rfl, rfl, rfl⟩,
    ⟨cmdRadioAuxXfer, fun _ _ => rfl, rfl, rfl⟩, ⟨cmdEaveGetStatus, fun _ _ => rfl, rfl, rfl⟩,
    ⟨cmdEaveConfig, fun _ _ => rfl, rfl, rfl⟩, ⟨cmdEaveShutdown, fun _ _ => rfl, rfl, rfl⟩,
    ⟨cmdEaveClear, fun _ _ => rfl, rfl, rfl⟩⟩

/-- Settles O5: each row is a Campel command of an 0x07xx opcode, and the first check of such a request refuses it on a
-T. -/
theorem radioRequestsAreNotFittedOnTheT : Obligations.RadioRequestsAreNotFittedOnTheT := by
  unfold Obligations.RadioRequestsAreNotFittedOnTheT
  refine ⟨fun c s ht h p hp => ?_, fun q s ht hop => executeReq_notFitted hop ht⟩
  obtain ⟨cmd, hexec, hop, hseven⟩ := radioRows_isRadioCommand p hp
  rw [hexec, ← hop]
  exact command_refused h (checks_notFitted (by rw [← hseven, ← hop]; rfl) ht)

end Sys2Proof.Machine
end

section
/-! ## Bytes of Loft memory and of byte strings: what is written is read back (R26, R129, R130) -/
namespace Sys2Proof.Machine
open Sys2Proof

/-! ### Loft memory -/

/-- The value at a key of two maps in a row is the first one's, where it has one. -/
theorem mget_append {α : Type} (a b : AMap α) (x : Nat) : mget (a ++ b) x = (mget a x).or (mget b x) := by
  induction a with
  | nil => simp [mget]
  | cons p l ih =>
    obtain ⟨k, v⟩ := p
    simp only [List.cons_append, mget]
    split
    · rfl
    · exact ih

/-- The cells of a byte string hold nothing outside its addresses. -/
theorem mget_cells_of_out (a : Nat) (bs : Bytes) (x : Nat) (h : x < a ∨ a + bs.length ≤ x) :
    mget (cells a bs) x = none := by
  induction bs generalizing a with
  | nil => rfl
  | cons b l ih =>
    rw [List.length_cons] at h
    have hl := ih (a + 1) (by omega)
    have ha : ¬ a = x := by omega
    unfold cells
    split
    · exact hl
    · simp [mget, ha, hl]

/-- The cells of a byte string hold its bytes, a zero by leaving it out. -/
theorem mgetD_cells (a : Nat) (bs : Bytes) (i : Nat) (h : i < bs.length) :
    mgetD (cells a bs) (a + i) 0#8 = bs[i] := by
  induction bs generalizing a i with
  | nil => simp at h
  | cons b l ih =>
    cases i with
    | zero =>
      unfold cells
      split
      · next hb => simp [mgetD, mget_cells_of_out, hb]
      · simp [mgetD, mget]
    | succ i =>
      have hl := ih (a + 1) i (by simpa using h)
      rw [show a + 1 + i = a + (i + 1) by omega] at hl
      have ha : ¬ a = a + (i + 1) := by omega
      unfold cells
      split
      · simpa using hl
      · simpa [mgetD, mget, ha] using hl

/-- A byte outside a store is as before. -/
theorem byte_loftWrite_of_out (a : Nat) (bs : Bytes) (s : State) (x : Nat) (h : x < a ∨ a + bs.length ≤ x) :
    (loftWrite a bs s).byte x = s.byte x := by
  have hc := mget_cells_of_out a bs x h
  simp only [State.byte, loftWrite, State.updLoft_loft, Loft.write, memWrite, mgetD, mget_append, hc]
  have hlow := mget_filter s.loft.mem (fun k => decide (k < a)) x
  have hhigh := mget_filter s.loft.mem (fun k => decide (a + bs.length ≤ k)) x
  rw [hlow, hhigh]
  rcases h with h | h
  · have : ¬ a + bs.length ≤ x := by omega
    simp [h, this]
  · have : ¬ x < a := by omega
    simp [h, this]

/-- A byte within a store is the byte stored. -/
theorem byte_loftWrite (a : Nat) (bs : Bytes) (s : State) (i : Nat) (h : i < bs.length) :
    (loftWrite a bs s).byte (a + i) = bs[i] := by
  rw [← mgetD_cells a bs i h]
  simp only [State.byte, loftWrite, State.updLoft_loft, Loft.write, memWrite, mgetD, mget_append]
  have hlow := mget_filter s.loft.mem (fun k => decide (k < a)) (a + i)
  have hhigh := mget_filter s.loft.mem (fun k => decide (a + bs.length ≤ k)) (a + i)
  rw [hlow, hhigh]
  simp [Nat.not_le.mpr h]

/-- A read of Loft memory gives its bytes one by one. -/
theorem loftRead_eq_map_byte (s : State) (a n : Nat) : loftRead s a n = (List.range n).map fun i => s.byte (a + i) := by
  simp only [loftRead, memRead]
  refine List.map_congr_left fun i hi => ?_
  have hi' : i < n := List.mem_range.1 hi
  have hf := mget_filter s.loft.mem (fun k => decide (a ≤ k) && decide (k < a + n)) (a + i)
  simp only [mgetD, State.byte, hf]
  simp [hi']

/-- What was stored is read back. -/
theorem loftRead_loftWrite (a : Nat) (bs : Bytes) (s : State) : loftRead (loftWrite a bs s) a bs.length = bs := by
  rw [loftRead_eq_map_byte]
  refine List.ext_getElem (by simp) fun i _ hi => ?_
  simp [byte_loftWrite a bs s i hi]

/-! ### Little-endian fields -/

@[simp] theorem length_leBytes (n v : Nat) : (leBytes n v).length = n := by
  induction n generalizing v with
  | zero => rfl
  | succ n ih => simp [leBytes, ih]

/-- Little-endian bytes give back the value they were made of. -/
theorem leVal_leBytes (n v : Nat) : leVal (leBytes n v) = v % 256 ^ n := by
  induction n generalizing v with
  | zero => simp [leBytes, leVal, Nat.mod_one]
  | succ n ih => simp [leBytes, leVal, ih, Nat.pow_succ', Nat.mod_mul]

/-- A value of `n` bytes is below 256 to the `n`. -/
theorem leVal_lt (l : Bytes) : leVal l < 256 ^ l.length := by
  induction l with
  | nil => simp [leVal]
  | cons b l ih =>
    have hb := b.isLt
    simp only [leVal, List.length_cons, Nat.pow_succ']
    omega

/-- A field of `n` bytes is below 256 to the `n`. -/
theorem rd_lt (l : Bytes) (off n : Nat) : rd l off n < 256 ^ n :=
  lt_of_lt_of_le (leVal_lt _) (Nat.pow_le_pow_right (by decide) (by simp [slice]))

/-- A byte string with the four bytes at an offset replaced by a word. -/
def putWord (l : Bytes) (o v : Nat) : Bytes := l.take o ++ leBytes 4 v ++ l.drop (o + 4)

/-- The word just put is read back. -/
theorem rd_putWord_self (l : Bytes) (o v : Nat) (h : o ≤ l.length) : rd (putWord l o v) o 4 = v % 2 ^ 32 := by
  have hs : slice (putWord l o v) o 4 = leBytes 4 v := by simp [slice, putWord, h]
  rw [rd, hs, leVal_leBytes]
  rfl

/-- A word apart from the one just put is as before. -/
theorem rd_putWord_of_apart (l : Bytes) (o p v : Nat) (h : o + 4 ≤ l.length) (hp : p + 4 ≤ o ∨ o + 4 ≤ p) :
    rd (putWord l o v) p 4 = rd l p 4 := by
  have hs : slice (putWord l o v) p 4 = slice l p 4 := by
    refine List.ext_getElem? fun i => ?_
    by_cases hi : i < 4
    · have ho : min o l.length = o := by omega
      simp only [slice, putWord, List.getElem?_take, List.getElem?_drop, hi, if_true, List.getElem?_append,
        List.length_append, List.length_take, length_leBytes, ho]
      rcases hp with hp | hp
      · simp [show p + i < o by omega, show p + i < o + 4 by omega]
      · have e : o + 4 + (p + i - (o + 4)) = p + i := by omega
        simp [show ¬ p + i < o + 4 by omega, e]
    · simp [slice, hi]
  rw [rd, rd, hs]

end Sys2Proof.Machine
end

section
/-! ## Register and Loft accesses over PCIe and SPI (R19, R21, R153, R154, R192, R195 to R198) -/
namespace Sys2Proof.Machine
open Sys2Proof

/-! ### The words of MB_REQ -/

/-- Opening a tenant's own window takes the host island. -/
theorem host_of_ownOpen {s : State} {t : Nat} (h : ownOpen s t = true) : s.supply.isl.host = true := by
  simp only [ownOpen, Bool.and_eq_true] at h
  exact h.1

/-- A read of a word of MB_REQ (Table TEN.4). -/
theorem regRead_mbReq {s : State} {t : Nat} (h : ownOpen s t = true) (k : Fin 64) :
    regRead s t (0x400 + 4 * k.val) = rd (s.ten t).mbReq (4 * k.val) 4 := by
  have hk := k.isLt
  simp [regRead, ownReg, host_of_ownOpen h, h, show (0x400 + 4 * k.val) % 4 = 0 by omega,
    show ¬ 0x400 + 4 * k.val < 0x0C by omega, show ¬ 0x400 + 4 * k.val = 0x0C by omega,
    show ¬ 0x400 + 4 * k.val = 0x10 by omega, show 0x400 + 4 * k.val < 0x700 by omega,
    show 0x400 + 4 * k.val < 0x500 by omega]

/-- A write of a word of MB_REQ while the mailbox is not BUSY puts the word there (R192). -/
theorem regWriteAll_mbReq {s : State} {t : Nat} (isSpi : Bool) (h : ownOpen s t = true) (hb : (s.ten t).busy = false)
    (k : Fin 64) (v : BitVec 32) :
    regWriteAll t isSpi (0x400 + 4 * k.val) v s =
      s.updTen t fun x => { x with mbReq := putWord x.mbReq (4 * k.val) v.toNat } := by
  have hk := k.isLt
  simp [regWriteAll, regWrite, reqWrite, putWord, host_of_ownOpen h, h, hb, show ¬ 0x400 + 4 * k.val = 0x600 by omega,
    show (0x400 + 4 * k.val) % 4 = 0 by omega, show 0x400 + 4 * k.val < 0x500 by omega]

/-- What the word written to MB_REQ reads as. -/
theorem rd_mbReq_updTen {s : State} {t : Nat} (ht : t < 8) (hl : (s.ten t).mbReq.length = 256) (k j : Fin 64) (v : Nat) :
    rd ((s.updTen t fun x => { x with mbReq := putWord x.mbReq (4 * k.val) v }).ten t).mbReq (4 * j.val) 4 =
      if j = k then v % 2 ^ 32 else rd (s.ten t).mbReq (4 * j.val) 4 := by
  have hk := k.isLt
  simp only [State.ten, State.updTen_tenants, vat_upd_self _ _ _ ht]
  simp only [State.ten] at hl
  split
  · next e => subst e; exact rd_putWord_self _ _ _ (by omega)
  · next e =>
    have hne : j.val ≠ k.val := fun h => e (Fin.ext h)
    exact rd_putWord_of_apart _ _ _ _ (by omega) (by omega)

/-- A write to an offset that is no word's, or outside the registers that can be written, changes nothing (R19, R21). -/
theorem regWriteAll_undefined (t : Nat) (isSpi : Bool) (off : Nat) (v : BitVec 32) (s : State)
    (h : off % 4 ≠ 0 ∨ off < 0x400 ∨ 0xC100 ≤ off) : regWriteAll t isSpi off v s = s := by
  have hd : off ≠ 0x600 := by omega
  simp only [regWriteAll, hd, if_false, regWrite]
  by_cases h4 : off % 4 = 0
  · have hout : off < 0x400 ∨ 0xC100 ≤ off := by omega
    simp [h4, show ¬ (0x400 ≤ off ∧ off < 0x500) by omega, show off ≠ 0x604 by omega, show off ≠ 0x618 by omega,
      show ¬ (0x2000 ≤ off ∧ off < 0x2800) by omega, show ¬ (0x4000 ≤ off ∧ off < 0x4500) by omega,
      show ¬ (0x6000 ≤ off ∧ off < 0x6018) by omega, show ¬ (0x8000 ≤ off ∧ off < 0x8080) by omega,
      show ¬ (0xC000 ≤ off ∧ off < 0xC100) by omega]
  · simp [h4]

/-! ### SPI transactions -/

/-- The SPI port serves a tenant that exists (R187). -/
theorem spiTenant_lt (s : State) : spiTenant s < 8 := by
  unfold spiTenant
  split <;> omega

/-- A transaction while the host island runs: the status byte and what follows it, then the effect (R195). -/
theorem spi_of_host {s : State} (h : s.supply.isl.host = true) (out : State → Bytes) (m : Bool) (f : State → State) :
    spi out m f s = { f (s.emit (.miso (leBytes 1 (spiStatus s) ++ out s))) with spiMalformed := m } := by
  simp [spi, h]

/-- A register transaction of one whole word within the address space moves that word and is well formed (R197). -/
theorem spiWords_word {addr : Nat} (h : addr < 65536) (h4 : addr % 4 = 0) : spiWords addr 4 = (1, false) := by
  have e : addr % 65536 = addr := by omega
  simp [spiWords, e, h4, show min 1 ((65536 - addr) / 4) = 1 by omega]

/-- A Loft transaction within its yealm moves every byte (R198). -/
theorem spiLoft_within {off n : Nat} (h : off < 4096) (hn : off + n ≤ 4096) : spiLoft off n = n := by
  simp only [spiLoft]
  omega

/-! ### The Loft aperture -/

/-- An access within one yealm is one piece. -/
theorem pieces_within {off n : Nat} (h : off % 4096 + n ≤ 4096) (h0 : 0 < n) :
    pieces off n = [(off / 4096, off % 4096, n)] := by
  have e : (off + n - 1) / 4096 + 1 - off / 4096 = 1 := by omega
  have en : min 4096 (off + n - off / 4096 * 4096) - off % 4096 = n := by omega
  simp [pieces, show n ≠ 0 by omega, e, en]

/-- An offset is the address of its byte in its yealm. -/
theorem yAddr_div_mod (off : Nat) : yAddr (off / 4096) (off % 4096) = off := by
  simp only [yAddr]
  omega

/-- A write within a yealm of the tenant stores its bytes (R153). -/
theorem apertureWrite_reached {t off : Nat} {data : Bytes} {s : State} (h : off % 4096 + data.length ≤ 4096)
    (h0 : data ≠ []) (hr : reaches s t (off / 4096) = true) : apertureWrite t off data s = loftWrite off data s := by
  have e : off / 4096 * 4096 + off % 4096 - off = 0 := by omega
  simp [apertureWrite, pieces_within h (List.length_pos_iff.2 h0), hr, yAddr_div_mod, e, slice]

/-- A write that reaches no yealm of the tenant is counted (R154). -/
theorem apertureWrite_foreign {t off : Nat} {data : Bytes} {s : State} (h : off % 4096 + data.length ≤ 4096)
    (h0 : data ≠ []) (hr : reaches s t (off / 4096) = false) : apertureWrite t off data s = foreignAccess t s := by
  simp [apertureWrite, pieces_within h (List.length_pos_iff.2 h0), hr]

/-- The count of a foreign access is its tenant's alone. -/
theorem foreignAccess_ten (t : Fin 8) (s : State) (j : Fin 8) :
    (foreignAccess t.val s).ten j.val =
      if j = t then { s.ten t.val with foreignAperture := inc32 (s.ten t.val).foreignAperture } else s.ten j.val := by
  simp only [foreignAccess, State.ten, State.updTen_tenants]
  split
  · next e => subst e; simp
  · next e => exact vat_upd_ne _ _ _ _ fun h => e (Fin.ext h.symm)

end Sys2Proof.Machine
end

section
/-! ## What the rows of the window do: one lemma per clause of WindowAccessesReachRegistersAndTheLoft -/
namespace Sys2Proof.Machine
open Sys2Proof

/-- A row of a running module whose effect is none changes nothing, whether or not the module runs. -/
theorem running_of_fixed {s : State} {f : State → State} (h : f s = s) : s.running f = .next s := by
  simp [State.running, h]

/-- A word written over PCIe to MB_REQ is read back (R19, R192). -/
theorem exec_registerWrite_mbReq (n : Fin 8) (k : Fin 64) (v : BitVec 32) (s : State) (hp : s.powered = true)
    (ho : ownOpen s n.val = true) (hb : (s.ten n).busy = false) (hl : (s.ten n).mbReq.length = 256) :
    ∃ z, exec (.registerWrite n (0x400 + 4 * k.val) v) s = .next z ∧
      regRead z n.val (0x400 + 4 * k.val) = v.toNat ∧
      (∀ j : Fin 64, j ≠ k → regRead z n.val (0x400 + 4 * j.val) = regRead s n.val (0x400 + 4 * j.val)) ∧
      (∀ j : Fin 8, j ≠ n → z.ten j = s.ten j) ∧ KeepsBut [.tenants] s z := by
  have hz : exec (.registerWrite n (0x400 + 4 * k.val) v) s =
      .next (s.updTen n.val fun x => { x with mbReq := putWord x.mbReq (4 * k.val) v.toNat }) := by
    rw [← regWriteAll_mbReq false ho hb k v]
    exact running_next hp
  have hoz : ownOpen (s.updTen n.val fun x => { x with mbReq := putWord x.mbReq (4 * k.val) v.toNat }) n.val = true := ho
  refine ⟨_, hz, ?_, fun j hj => ?_, fun j hj => ?_, by simp [KeepsBut]⟩
  · rw [regRead_mbReq hoz, rd_mbReq_updTen n.isLt hl, if_pos rfl, Nat.mod_eq_of_lt v.isLt]
  · rw [regRead_mbReq hoz, regRead_mbReq ho, rd_mbReq_updTen n.isLt hl, if_neg hj]
  · exact vat_upd_ne _ _ _ _ fun h => hj (Fin.ext h.symm)

/-- An SPI write of one word of MB_REQ while the mailbox is not BUSY puts the word there (R192, R196). -/
theorem exec_regWrite_word (k : Fin 64) (data : Bytes) (s : State) (hp : s.powered = true)
    (ho : ownOpen s (spiTenant s) = true) (hb : (s.ten (spiTenant s)).busy = false) (hd : data.length = 4) :
    exec (.regWrite (0x400 + 4 * k.val) data) s = .next { (s.emit (.miso (leBytes 1 (spiStatus s)))).updTen (spiTenant s)
      fun x => { x with mbReq := putWord x.mbReq (4 * k.val) (rd data 0 4) } with spiMalformed := false } := by
  have hk := k.isLt
  have ha : (0x400 + 4 * k.val) % 65536 = 0x400 + 4 * k.val := by omega
  have ht : ∀ o, spiTenant (s.emit o) = spiTenant s := fun _ => rfl
  have hw : ∀ o v, regWriteAll (spiTenant s) true (0x400 + 4 * k.val) v (s.emit o) = _ := fun o v =>
    regWriteAll_mbReq (s := s.emit o) true ho hb k v
  have hrd : rd data 0 4 < 2 ^ 32 := rd_lt data 0 4
  change execRegWrite _ data s = _
  rw [execRegWrite, running_next hp, hd, spiWords_word (by omega) (by omega), spi_of_host (host_of_ownOpen ho)]
  simp only [List.append_nil, List.range_one, List.foldl_cons, List.foldl_nil, ha, ht, Nat.mul_zero, Nat.add_zero, hw,
    BitVec.toNat_ofNat, Nat.mod_eq_of_lt hrd]

/-- A word written over SPI to MB_REQ is read back (R192, R196). -/
theorem exec_regWrite_mbReq (k : Fin 64) (data : Bytes) (s : State) (hp : s.powered = true)
    (ho : ownOpen s (spiTenant s) = true) (hb : (s.ten (spiTenant s)).busy = false)
    (hl : (s.ten (spiTenant s)).mbReq.length = 256) (hd : data.length = 4) :
    ∃ z, exec (.regWrite (0x400 + 4 * k.val) data) s = .next z ∧
      regRead z (spiTenant s) (0x400 + 4 * k.val) = rd data 0 4 ∧ z.spiMalformed = false ∧
      z.out = .miso (leBytes 1 (spiStatus s)) :: s.out ∧ KeepsBut [.tenants, .out, .spiMalformed] s z := by
  refine ⟨_, exec_regWrite_word k data s hp ho hb hd, ?_, rfl, rfl, by simp [KeepsBut]⟩
  have hrd : rd data 0 4 < 2 ^ 32 := rd_lt data 0 4
  rw [regRead_mbReq]
  · refine (rd_mbReq_updTen (s := s) (spiTenant_lt s) hl k k (rd data 0 4)).trans ?_
    rw [if_pos rfl, Nat.mod_eq_of_lt hrd]
  · exact ho

/-- A read of one register word over SPI (R196); but for BRC_DATA15 it changes no register (R850). -/
theorem exec_regRead_word (addr : Nat) (s : State) (hp : s.powered = true) (hh : s.supply.isl.host = true)
    (ha : addr < 65536) (h4 : addr % 4 = 0) (h15 : addr ≠ 0x807C) :
    exec (.regRead addr 4) s = .next { s.emit (.miso (leBytes 1 (spiStatus s) ++
      0#8 :: leBytes 4 (regRead s (spiTenant s) addr))) with spiMalformed := false } := by
  refine (running_next hp).trans ?_
  have e : addr % 65536 = addr := by omega
  rw [spiWords_word ha h4, spi_of_host hh]
  simp [regReadEffect, e, h15]

/-- A STATUS transaction, or one whose command byte is unknown (R195, R197). -/
theorem exec_status (b : BitVec 8) (s : State) (hp : s.powered = true) (hh : s.supply.isl.host = true) :
    exec (.status b) s = .next { s.emit (.miso (leBytes 1 (spiStatus s))) with spiMalformed := b != 5#8 } := by
  refine (running_next hp).trans ?_
  rw [spi_of_host hh]
  simp

/-- An SPI write within a yealm that the handle reaches (R198). -/
theorem exec_loftWrite_reached (h : BitVec 32) (off : Nat) (data : Bytes) (s : State) (hp : s.powered = true)
    (hh : s.supply.isl.host = true) (hr : spiReaches s h.toNat = true) (ho : off < 4096) (hl : off + data.length ≤ 4096)
    (h0 : data ≠ []) :
    exec (.loftWrite h off data) s = .next { loftWrite (yAddr (hIndex h.toNat) off) data
      (s.emit (.miso (leBytes 1 (spiStatus s)))) with spiMalformed := false } := by
  refine (running_next hp).trans ?_
  have e : off % 65536 = off := by omega
  have hr1 : spiReaches (s.emit (.miso (leBytes 1 (spiStatus s)))) h.toNat = true := hr
  rw [spiLoft_within ho hl, spi_of_host hh]
  simp [hr1, h0, e]

/-- An SPI read within a yealm that the handle reaches (R198). -/
theorem exec_loftRead_reached (h : BitVec 32) (off len : Nat) (s : State) (hp : s.powered = true)
    (hh : s.supply.isl.host = true) (hr : spiReaches s h.toNat = true) (ho : off < 4096) (hl : off + len ≤ 4096) :
    exec (.loftRead h off len) s = .next { s.emit (.miso (leBytes 1 (spiStatus s) ++
      0xA5#8 :: loftRead s (yAddr (hIndex h.toNat) off) len)) with spiMalformed := false } := by
  refine (running_next hp).trans ?_
  have e : off % 65536 = off := by omega
  rw [spiLoft_within ho hl, spi_of_host hh]
  have hr1 : ∀ o, spiReaches (s.emit o) h.toNat = true := fun _ => hr
  simp [hr, hr1, e]

/-- An aperture read within a yealm of the tenant returns its bytes; poison makes the TLP poisoned and reports an AER error
(R153, Table LFT.4). -/
theorem exec_apertureRead_reached (n : Fin 8) (off len : Nat) (s : State) (hp : s.powered = true)
    (hh : s.supply.isl.host = true) (hl : off % 4096 + len ≤ 4096) (h0 : 0 < len) (hr : reaches s n (off / 4096) = true) :
    exec (.apertureRead n off len none) s = .next (if s.loft.poisoned off len then
      (s.emit (.pcie (loftRead s off len) true)).emit (.aer n.val) else s.emit (.pcie (loftRead s off len) false)) := by
  change execApertureRead n off len none s = _
  rw [execApertureRead, running_next hp]
  simp only [hh, pieces_within hl h0, List.flatMap_cons, List.flatMap_nil, List.any_cons, List.any_nil, hr, if_true,
    List.filter_cons, List.filter_nil, yAddr_div_mod, List.append_nil, Bool.or_false, Bool.true_and, Bool.not_true]
  cases s.loft.poisoned off len <;> rfl

/-- An aperture read that reaches nothing reads zeros and is counted (R21, R154). -/
theorem exec_apertureRead_foreign (n : Fin 8) (off len : Nat) (s : State) (hp : s.powered = true)
    (hh : s.supply.isl.host = true) (hl : off % 4096 + len ≤ 4096) (h0 : 0 < len) (hr : reaches s n (off / 4096) = false) :
    exec (.apertureRead n off len none) s = .next ((foreignAccess n.val s).emit (.pcie (zeros len) false)) := by
  change execApertureRead n off len none s = _
  rw [execApertureRead, running_next hp]
  simp [hh, pieces_within hl h0, hr]

/-- An aperture write while the host island runs. -/
theorem exec_apertureWrite (n : Fin 8) (off : Nat) (data : Bytes) (s : State) (hp : s.powered = true)
    (hh : s.supply.isl.host = true) : exec (.apertureWrite n off data) s = .next (apertureWrite n.val off data s) := by
  refine (running_next hp).trans ?_
  rw [if_pos hh]

/-- Settles O10: each access by its own lemma above; a store and a read of Loft memory by `loftRead_loftWrite` and
`byte_loftWrite_of_out`. -/
theorem windowAccessesReachRegistersAndTheLoft : Obligations.WindowAccessesReachRegistersAndTheLoft := by
  unfold Obligations.WindowAccessesReachRegistersAndTheLoft
  refine ⟨exec_registerWrite_mbReq, fun n off v s h => ?_, exec_regWrite_mbReq, fun addr s hp hh ha h4 h15 => ?_,
    fun b s hp hh => ?_, fun h off data s hp hh hr ho hl h0 => ?_, fun h off len s hp hh hr ho hl => ?_,
    fun n off len s hp hh hl h0 hr => ?_, fun n off len s hp hh hl h0 hr => ?_, fun n off data s hp hh hl h0 hr => ?_,
    fun n off data s hp hh hl h0 hr => ?_⟩
  · exact ⟨s, running_of_fixed (regWriteAll_undefined n.val false off v s h), rfl⟩
  · exact ⟨_, exec_regRead_word addr s hp hh ha h4 h15, rfl, rfl, by simp [KeepsBut]⟩
  · exact ⟨_, exec_status b s hp hh, rfl, rfl, by simp [KeepsBut]⟩
  · refine ⟨_, exec_loftWrite_reached h off data s hp hh hr ho hl h0, ?_, fun a ha => ?_, rfl, by simp [KeepsBut, loftWrite]⟩
    · exact loftRead_loftWrite _ data (s.emit _)
    · exact byte_loftWrite_of_out _ data (s.emit _) a ha
  · exact ⟨_, exec_loftRead_reached h off len s hp hh hr ho hl, rfl, rfl, by simp [KeepsBut]⟩
  · refine ⟨_, exec_apertureRead_reached n off len s hp hh hl h0 hr, fun hq => ?_, fun hq => ?_, ?_⟩
    · simp [hq]
    · simp [hq]
    · split <;> simp [KeepsBut]
  · refine ⟨_, exec_apertureRead_foreign n off len s hp hh hl h0 hr, rfl, ?_, fun j hj => ?_, by simp [KeepsBut, foreignAccess]⟩
    · exact (foreignAccess_ten n s n).trans (if_pos rfl)
    · exact (foreignAccess_ten n s j).trans (if_neg hj)
  · refine ⟨_, exec_apertureWrite n off data s hp hh, ?_⟩
    rw [apertureWrite_reached hl h0 hr]
    exact ⟨loftRead_loftWrite off data s, byte_loftWrite_of_out off data s, by simp [KeepsBut, loftWrite]⟩
  · refine ⟨_, exec_apertureWrite n off data s hp hh, ?_⟩
    rw [apertureWrite_foreign hl h0 hr]
    exact ⟨(foreignAccess_ten n s n).trans (if_pos rfl), fun j hj => (foreignAccess_ten n s j).trans (if_neg hj),
      by simp [KeepsBut, foreignAccess]⟩

end Sys2Proof.Machine
end

section
/-! ## What the boot ROM leaves as the device reset left it (R24, R268, R274, R283 to R296) -/
namespace Sys2Proof.Machine
open Sys2Proof

/-- The state with everything that the ROM may change put at its default: of the boot it keeps OTP, flash, straps and
whether Campel runs; of the recorder the journal and the chronicle; of the channel the medium and its defects; of the
supply the power, the mode, the cause of the reset and RESET_N. -/
def State.romFixed (s : State) : State :=
  { s with
      boot := { otp := s.boot.otp, flash := s.boot.flash, strap := s.boot.strap, role := s.boot.role, spi7 := s.boot.spi7
                romDone := s.boot.romDone, stage := if s.campel then .campel else .rom }
      recorder := { journal := s.recorder.journal, chron := s.recorder.chron }
      channel := { medium := s.channel.medium, defects := s.channel.defects }
      supply := { power := s.supply.power, mode := s.supply.mode, resetCause := s.supply.resetCause, resetN := s.supply.resetN }
      timebase := {}, motor := {}, diskq := {}, cascade := {} }

/-- Whether Campel runs is one of the things kept. -/
theorem campel_romFixed (s : State) : s.romFixed.campel = s.campel := by
  by_cases h : s.boot.stage = .campel <;> simp [State.romFixed, State.campel, h]

/-- What keeps the fixed part keeps whether Campel runs. -/
theorem campel_of_romFixed {s z : State} (h : z.romFixed = s.romFixed) : z.campel = s.campel := by
  rw [← campel_romFixed z, h, campel_romFixed]

/-! ### Interrupts and records in the ROM stage -/

/-- In the ROM stage no source is raised but the mailbox's (R271, R274). -/
theorem raiseSrc_rom {s : State} (h : s.campel = false) {src : Nat} (hs : src < 32 ∨ 40 ≤ src) : raiseSrc src s = s := by
  have hm : (decide (32 ≤ src) && decide (src < 40)) = false := by
    rcases hs with hs | hs <;> simp [hs]
  simp [raiseSrc, h, hm]

/-- In the ROM stage a record is deferred (R274). -/
theorem record_romFixed {s : State} (h : s.campel = false) (x : Record) : (record x s).romFixed = s.romFixed := by
  unfold record
  split
  · rfl
  · rw [if_pos (by simp [h])]
    rfl

/-- In the ROM stage a breadcrumb is deferred. -/
theorem crumb_romFixed {s : State} (h : s.campel = false) (code sev ten : Nat) (p : Bytes) :
    (crumb code sev ten p s).romFixed = s.romFixed := record_romFixed h _

/-- A breadcrumb in the ROM stage leaves the module in it. -/
theorem campel_crumb {s : State} (h : s.campel = false) (code sev ten : Nat) (p : Bytes) :
    (crumb code sev ten p s).campel = false := (campel_of_romFixed (crumb_romFixed h ..)).trans h

/-- In the ROM stage a source that is not the mailbox's is deferred with its breadcrumb (R274). -/
theorem raiseCrumb_romFixed {s : State} (h : s.campel = false) {src : Nat} (hs : src < 32 ∨ 40 ≤ src)
    (code sev ten : Nat) (p : Bytes) : (raiseCrumb src code sev ten p s).romFixed = s.romFixed := by
  rw [raiseCrumb, raiseSrc_rom h hs]
  exact record_romFixed h _

/-- In the ROM stage a cause of SAFE is noted, and SAFE entered at the end of boot (R288, R338). -/
theorem enterSafe_romFixed {s : State} (h : s.campel = false) (n : Nat) : (enterSafe n s).romFixed = s.romFixed := by
  unfold enterSafe
  split
  · rfl
  · simp only [h, Bool.not_false, if_true]
    rfl

/-! ### The steps of the ROM -/

/-- A failed OTP region sets its alarm bit and defers its record (R287). -/
theorem otpAlarm_romFixed {s : State} (h : s.campel = false) (r : Nat) : (otpAlarm r s).romFixed = s.romFixed := by
  unfold otpAlarm
  exact raiseCrumb_romFixed (by exact h) (.inr (by decide)) ..

/-- RECOVERY is entered from the ROM stage (R276). -/
theorem toRecovery_romFixed {s : State} (h : s.campel = false) : (toRecovery s).romFixed = s.romFixed := by
  simp [toRecovery, State.romFixed, State.updBoot, State.campel] at h ⊢
  exact h

/-- The check of OTP (Table BOT.6). -/
theorem romOtp_romFixed {s : State} (h : s.campel = false) : (romOtp s).romFixed = s.romFixed := by
  have h1 : ((bootRegions.filter (regionFails s)).foldl (fun s r => otpAlarm r s) s).romFixed = s.romFixed :=
    foldl_ok (fun z => z.romFixed = s.romFixed) _
      (fun r z hz => (otpAlarm_romFixed ((campel_of_romFixed hz).trans h) r).trans hz) _ s rfl
  unfold romOtp
  dsimp only
  generalize (bootRegions.filter (regionFails s)).foldl (fun s r => otpAlarm r s) s = s1 at h1 ⊢
  have h2 : (if otpSafe s1 then enterSafe 1 s1 else s1).romFixed = s.romFixed := by
    split
    · exact (enterSafe_romFixed ((campel_of_romFixed h1).trans h) 1).trans h1
    · exact h1
  generalize (if otpSafe s1 then enterSafe 1 s1 else s1) = s2 at h2 ⊢
  have hc2 : s2.campel = false := (campel_of_romFixed h2).trans h
  split
  · exact (toRecovery_romFixed hc2).trans h2
  · split
    · exact (toRecovery_romFixed (by exact hc2)).trans h2
    · exact h2

/-- The check of OTP leaves the module in the ROM stage. -/
theorem campel_romOtp {s : State} (h : s.campel = false) : (romOtp s).campel = false :=
  (campel_of_romFixed (romOtp_romFixed h)).trans h

@[simp] theorem updTb_romFixed (s : State) (f : Timebase → Timebase) : (s.updTb f).romFixed = s.romFixed := rfl
@[simp] theorem updA_romFixed (s : State) (f : MotA → MotA) : (s.updA f).romFixed = s.romFixed := rfl
@[simp] theorem updDsk_romFixed (s : State) (f : DiskQ → DiskQ) : (s.updDsk f).romFixed = s.romFixed := rfl
@[simp] theorem updCas_romFixed (s : State) (f : Cascade → Cascade) : (s.updCas f).romFixed = s.romFixed := rfl

/-- A format in force changes neither the medium nor its defects (R548). -/
@[simp] theorem putFormat_romFixed (f : Format) (s : State) : (putFormat f s).romFixed = s.romFixed := rfl

/-- A draft of the setup changes neither the medium nor its defects. -/
@[simp] theorem updChn_draft_romFixed (f : Format) (s : State) :
    (s.updChn fun c => { c with draft := f }).romFixed = s.romFixed := rfl

/-- The pointer of the chronicle and the records collected are neither journal nor chronicle (R843). -/
@[simp] theorem updRec_pointer_romFixed (p : ChronPtr) (n : Nat) (s : State) :
    (s.updRec fun r => { r with pointer := p, collected := n }).romFixed = s.romFixed := rfl

/-- The boot epoch is not among the things kept (R294). -/
@[simp] theorem updBoot_epoch_romFixed (e : Nat) (s : State) :
    (s.updBoot fun b => { b with epoch := e }).romFixed = s.romFixed := rfl

/-- Nor is its state. -/
@[simp] theorem updBoot_epochState_romFixed (e n : Nat) (s : State) :
    (s.updBoot fun b => { b with epoch := e, epochState := n }).romFixed = s.romFixed := rfl

/-- The setup that the keepsake area holds goes into force (R293). -/
@[simp] theorem putSetup_romFixed (s : State) : (putSetup s).romFixed = s.romFixed := by
  simp only [putSetup, apply_ite State.romFixed, updA_romFixed, updDsk_romFixed, putFormat_romFixed,
    updChn_draft_romFixed, ite_self]

/-- An update of the keepsake area (R293). -/
@[simp] theorem keepUpdate_romFixed (f : KeepCopy → KeepCopy) (s : State) : (keepUpdate f s).romFixed = s.romFixed := by
  unfold keepUpdate State.updBoot
  dsimp only
  split <;> rfl

/-- The keepsake area is read (R293 to R296). -/
theorem romKeepsake_romFixed {s : State} (h : s.campel = false) : (romKeepsake s).romFixed = s.romFixed := by
  unfold romKeepsake
  split
  · refine (crumb_romFixed (campel_crumb ?_ ..) ..).trans (crumb_romFixed ?_ ..)
    · exact h
    · exact h
  · simp only [apply_ite State.romFixed, keepUpdate_romFixed, updBoot_epoch_romFixed, updBoot_epochState_romFixed,
      updCas_romFixed, updRec_pointer_romFixed, putSetup_romFixed, updTb_romFixed, ite_self]

/-- What the ROM does before it fetches an image (Table BOT.1). -/
theorem romSteps_romFixed {s : State} (h : s.campel = false) (hd : s.boot.romDone = false) :
    (romSteps s).romFixed = (s.updBoot fun b => { b with romDone := true }).romFixed := by
  unfold romSteps
  rw [if_neg (by simp [hd])]
  refine (romKeepsake_romFixed (campel_romOtp ?_)).trans (romOtp_romFixed ?_)
  · exact h
  · exact h

end Sys2Proof.Machine
end

section
/-! ## What a device reset and a loss of the rails leave (R24, R268, R987 to R989, R1017, R1037) -/
namespace Sys2Proof.Machine
open Sys2Proof

/-- The fixed part of what a device reset leaves, over the straps its pins gave. -/
theorem deviceReset_romFixed (cause : Nat) (s : State) :
    (deviceReset cause s).romFixed = State.romFixed { resetBase s with
      boot := { (resetBase s).boot with
        strap := s.boot.pins.bootSel % 4, role := s.boot.pins.role % 4, spi7 := s.boot.pins.miso, romDone := true }
      supply := { (resetBase s).supply with resetCause := cause } } := by
  unfold deviceReset
  exact romSteps_romFixed rfl rfl

/-- Whether a boot has begun is seen in the fixed part. -/
theorem rebooted_romFixed_iff (cause : Nat) (a b : Fin 4) (m : Bool) (s z : State) :
    Rebooted cause a b m s z.romFixed ↔ Rebooted cause a b m s z := by
  unfold Rebooted
  rw [campel_romFixed]
  exact Iff.rfl

/-- A device reset begins a boot (R24, R268). -/
theorem rebooted_deviceReset (cause : Nat) (a b : Fin 4) (m : Bool) (s : State)
    (hpins : s.boot.pins = { bootSel := a.val % 4, role := b.val % 4, miso := m }) :
    Rebooted cause a b m s (deviceReset cause s) := by
  rw [← rebooted_romFixed_iff, deviceReset_romFixed, rebooted_romFixed_iff]
  have hstrap : s.boot.pins.bootSel % 4 = a.val := by rw [hpins]; simp
  have hrole : s.boot.pins.role % 4 = b.val := by rw [hpins]; simp
  have hspi7 : s.boot.pins.miso = m := by rw [hpins]
  exact ⟨rfl, rfl, rfl, rfl, hstrap, hrole, hspi7, rfl, ⟨rfl, rfl, rfl, rfl, rfl, rfl, rfl⟩,
    ⟨rfl, rfl, rfl, rfl, rfl, rfl, rfl, rfl, rfl, rfl, rfl, rfl⟩⟩

/-- A device reset keeps the level of RESET_N. -/
theorem resetN_deviceReset (cause : Nat) (s : State) : (deviceReset cause s).supply.resetN = s.supply.resetN :=
  (congrArg (fun z : State => z.supply.resetN) (deviceReset_romFixed cause s) :)

/-- With RESET_N high a reset that starts is a device reset at once (R987). -/
theorem startReset_resetN_high {s : State} (h : s.supply.resetN = true) (cause : Nat) :
    startReset cause s = deviceReset cause s := if_pos h

/-- The loss of every rail but VGUARD (R988, R989, R1004, R1012). -/
theorem dark_powerOff (k : Power) (s : State) : Dark k s (powerOff k s) :=
  ⟨rfl, rfl, ⟨rfl, rfl, rfl, rfl, rfl, rfl, rfl⟩, ⟨rfl, rfl, rfl, rfl, rfl, rfl, rfl, rfl, rfl, rfl, rfl, rfl⟩⟩

/-- A wake that is taken while no trip stands begins a boot with the cause its power state gives (R986, R1017). -/
theorem rebooted_takeWake (code : Nat) (a b : Fin 4) (m : Bool) (s : State)
    (hpins : s.boot.pins = { bootSel := a.val % 4, role := b.val % 4, miso := m })
    (ht : s.supply.power = .tripped → s.supply.tj < 1000) (hr : s.supply.resetN = true) :
    Rebooted (wakeCause s.supply.power code) a b m s (takeWake code s) := by
  have hn : ¬ (s.supply.power = .tripped ∧ 1000 ≤ s.supply.tj) := fun h => absurd (ht h.1) (not_lt.2 h.2)
  rw [takeWake, if_neg hn, startReset_resetN_high hr]
  exact rebooted_deviceReset _ a b m s hpins

end Sys2Proof.Machine
end

section
/-! ## What the end of asynchronous commands and a blind retract leave (R206, R518, R753, R1041) -/
namespace Sys2Proof.Machine
open Sys2Proof

/-- The state with everything that the completion of a command may change put at its default: mailboxes, views, jobs,
the Loft, rings, recorder, boot, keys, the cascade and what leaves the device. -/
def State.besidesCompletions (s : State) : State :=
  { s with
      tenants := State.reset.tenants, views := State.reset.views, jobs := [], loft := {}, rings := State.reset.rings
      recorder := {}, boot := {}, keys := {}, cascade := {}, out := [] }

/-! ### Completions -/

@[simp] theorem updTen_besidesCompletions (s : State) (t : Nat) (f : Tenant → Tenant) :
    (s.updTen t f).besidesCompletions = s.besidesCompletions := rfl
@[simp] theorem updLoft_besidesCompletions (s : State) (f : Loft → Loft) :
    (s.updLoft f).besidesCompletions = s.besidesCompletions := rfl
@[simp] theorem updRing_besidesCompletions (s : State) (n : Nat) (f : Ring → Ring) :
    (s.updRing n f).besidesCompletions = s.besidesCompletions := rfl
@[simp] theorem updLane_besidesCompletions (s : State) (l : Nat) (f : Lane → Lane) :
    (s.updLane l f).besidesCompletions = s.besidesCompletions := rfl
@[simp] theorem updKey_besidesCompletions (s : State) (i : Nat) (f : KeySlot → KeySlot) :
    (s.updKey i f).besidesCompletions = s.besidesCompletions := rfl
@[simp] theorem emit_besidesCompletions (s : State) (o : Out) :
    (s.emit o).besidesCompletions = s.besidesCompletions := rfl
@[simp] theorem updBoot_besidesCompletions (s : State) (f : Boot → Boot) :
    (s.updBoot f).besidesCompletions = s.besidesCompletions := rfl
@[simp] theorem loftWrite_besidesCompletions (a : Nat) (bs : Bytes) (s : State) :
    (loftWrite a bs s).besidesCompletions = s.besidesCompletions := rfl
@[simp] theorem freeYealm_besidesCompletions (i : Nat) (s : State) :
    (freeYealm i s).besidesCompletions = s.besidesCompletions := rfl
@[simp] theorem keyEnd_besidesCompletions (i load : Nat) (s : State) :
    (keyEnd i load s).besidesCompletions = s.besidesCompletions := rfl

@[simp] theorem raiseSrc_besidesCompletions (src : Nat) (s : State) :
    (raiseSrc src s).besidesCompletions = s.besidesCompletions := by simp [State.besidesCompletions]

@[simp] theorem raiseCrumb_besidesCompletions (src code sev ten : Nat) (p : Bytes) (s : State) :
    (raiseCrumb src code sev ten p s).besidesCompletions = s.besidesCompletions := by simp [State.besidesCompletions]

@[simp] theorem unpin_besidesCompletions (i : Nat) (s : State) : (unpin i s).besidesCompletions = s.besidesCompletions := by
  simp [unpin, apply_ite State.besidesCompletions]

@[simp] theorem unpinAll_besidesCompletions (l : List Nat) (s : State) :
    (unpinAll l s).besidesCompletions = s.besidesCompletions :=
  foldl_keep State.besidesCompletions _ (fun i s => unpin_besidesCompletions i s) l s

@[simp] theorem produce_besidesCompletions (n : Nat) (body : Bytes) (s : State) :
    (produce n body s).besidesCompletions = s.besidesCompletions := by
  simp [produce, apply_ite State.besidesCompletions]

@[simp] theorem markOverflow_besidesCompletions (t n kept : Nat) (s : State) :
    (markOverflow t n kept s).besidesCompletions = s.besidesCompletions := by
  simp [markOverflow, apply_ite State.besidesCompletions]

@[simp] theorem postCompletion_besidesCompletions (t : Nat) (d : Bytes) (s : State) :
    (postCompletion t d s).besidesCompletions = s.besidesCompletions := by
  unfold postCompletion
  split <;> simp

/-! ### Frames sent on a lane -/

@[simp] theorem laneErr_besidesCompletions (l : Nat) (s : State) :
    (laneErr l s).besidesCompletions = s.besidesCompletions := by
  unfold laneErr
  split <;> simp [apply_ite State.besidesCompletions]

@[simp] theorem laneCount_besidesCompletions (l i n : Nat) (s : State) :
    (laneCount l i n s).besidesCompletions = s.besidesCompletions := by
  simp [laneCount, apply_ite State.besidesCompletions]

@[simp] theorem wearOut_besidesCompletions (i : Nat) (s : State) :
    (wearOut i s).besidesCompletions = s.besidesCompletions := by
  simp [wearOut, apply_ite State.besidesCompletions]

@[simp] theorem keyStart_besidesCompletions (t i kind n : Nat) (forms : Bool) (s : State) :
    (keyStart t i kind n forms s).2.2.besidesCompletions = s.besidesCompletions := by
  unfold keyStart
  dsimp only
  repeat' split
  all_goals simp

@[simp] theorem sealFrame_besidesCompletions (l : Nat) (f : LaneFrame) (s : State) :
    (sealFrame l f s).2.besidesCompletions = s.besidesCompletions := by
  unfold sealFrame
  dsimp only
  repeat' split
  all_goals simp

@[simp] theorem startFrame_besidesCompletions (l : Nat) (f : LaneFrame) (s : State) :
    (startFrame l f s).besidesCompletions = s.besidesCompletions := by
  simp [startFrame]

@[simp] theorem pump_besidesCompletions (l fuel : Nat) (s : State) :
    (pump l fuel s).besidesCompletions = s.besidesCompletions := by
  induction fuel generalizing s with
  | zero => rfl
  | succ fuel ih =>
    unfold pump
    dsimp only
    split
    · rfl
    · split
      · rfl
      · next f _ =>
        have hseal := sealFrame_besidesCompletions l { f with fseq := (s.laneOf l).txSeq } s
        split
        · next s1 h => rw [h] at hseal; exact hseal
        · next g s1 h => rw [h] at hseal; rw [ih]; simpa using hseal

@[simp] theorem sendTo_besidesCompletions (pos type : Nat) (p : Bytes) (s : State) :
    (sendTo pos type p s).besidesCompletions = s.besidesCompletions := by
  simp [sendTo, laneSend]

/-! ### The end of a command -/

@[simp] theorem writeCompletion_besidesCompletions (j : Job) (status : Nat) (data : Bytes) (s : State) :
    (writeCompletion j status data s).besidesCompletions = s.besidesCompletions := by
  have herase : (State.besidesCompletions { s with jobs := s.jobs.erase j }) = s.besidesCompletions := rfl
  unfold writeCompletion
  dsimp only
  split
  · simp [herase]
  · split <;> simp [herase]

/-- The end of a command (R206, R952). -/
@[simp] theorem completeJob_besidesCompletions (j : Job) (status : Nat) (data : Bytes) (s : State) :
    (completeJob j status data s).besidesCompletions = s.besidesCompletions := by
  unfold completeJob
  split
  · rfl
  · simp

/-- The end of every command of an opcode for a unit. -/
@[simp] theorem finishAll_besidesCompletions (op key status : Nat) (s : State) :
    (finishAll op key status s).besidesCompletions = s.besidesCompletions :=
  foldl_keep State.besidesCompletions _ (fun j s => completeJob_besidesCompletions j status [] s) _ s

end Sys2Proof.Machine
end

section
/-! ## A blind retract of the Guard island (R518, R753, R1041) -/
namespace Sys2Proof.Machine
open Sys2Proof

/-- What the mutes, completions and spindle events of a retract leave: the supply, the channel, GUARD_MUTE. -/
def State.retractFixed (s : State) : Supply × Channel × Bool := (s.supply, s.channel, s.radio.guardMute)

/-! ### The hardware path's mute -/

theorem rfStart_retractFixed (s : State) : (rfStart s).retractFixed = s.retractFixed := by
  unfold rfStart
  split <;> rfl

theorem rfPush_retractFixed (prio cs word : Nat) (s : State) : (rfPush prio cs word s).retractFixed = s.retractFixed :=
  rfStart_retractFixed _

theorem setBias_retractFixed (p code : Nat) (s : State) : (setBias p code s).retractFixed = s.retractFixed := by
  refine foldl_keep State.retractFixed _ (fun i s => ?_) _ s
  split <;> rfl

/-- A path's mute sends its frame and sets its bias (R695). -/
theorem mutePath_retractFixed (p : Nat) (s : State) : (mutePath p s).retractFixed = s.retractFixed :=
  (setBias_retractFixed ..).trans (rfPush_retractFixed ..)

/-- The hardware path's mute sets GUARD_MUTE and changes neither supply nor channel (R753). -/
theorem hardMute_retractFixed (s : State) : (hardMute s).retractFixed = (s.supply, s.channel, true) := by
  refine (foldl_keep State.retractFixed _ (fun p s => ?_) _ _).trans rfl
  split
  · exact mutePath_retractFixed p s
  · rfl

/-! ### The start of an unload -/

theorem raiseSrc_retractFixed (src : Nat) (s : State) : (raiseSrc src s).retractFixed = s.retractFixed := by
  simp [State.retractFixed]

theorem finishAll_retractFixed (op key status : Nat) (s : State) :
    (finishAll op key status s).retractFixed = s.retractFixed :=
  (congrArg State.retractFixed (finishAll_besidesCompletions op key status s) :)

/-- A servo that no longer gives an index changes the state of channel A alone (R508). -/
theorem indexLost_retractFixed (s : State) : (indexLost s).retractFixed = s.retractFixed := by
  unfold indexLost spinTo
  dsimp only
  split
  · split
    · rfl
    · exact raiseSrc_retractFixed ..
  · rfl

/-- Loaded heads whose gates are closed start towards the park, the gates still closed (R580). -/
theorem startUnload_retractFixed {s : State} (hl : headsLoaded s = true) (hw : s.channel.wg = false)
    (hg : s.channel.gates = (false, false, false)) :
    ∃ c : Channel, (startUnload s).retractFixed = (s.supply, c, s.radio.guardMute) ∧ c.state = .unloading ∧
      c.wg = false ∧ c.gates = (false, false, false) := by
  unfold startUnload
  simp only [hl, Bool.not_true, Bool.false_eq_true, if_false]
  split
  · next hs => exact ⟨s.channel, rfl, hs, hw, hg⟩
  · have hx : (if s.channel.loadRetry then s else finishAll 0x0484 1 St.notReady s).retractFixed = s.retractFixed := by
      split
      · rfl
      · exact finishAll_retractFixed ..
    generalize (if s.channel.loadRetry then s else finishAll 0x0484 1 St.notReady s) = x at hx ⊢
    have hsup : x.supply = s.supply := (congrArg Prod.fst hx :)
    have hmute : x.radio.guardMute = s.radio.guardMute := (congrArg (fun p => p.2.2) hx :)
    exact ⟨_, (indexLost_retractFixed _).trans (Prod.ext hsup (Prod.ext rfl hmute)), rfl, rfl, rfl⟩

/-- Whether the heads are loaded is seen in the channel's state alone. -/
theorem headsLoaded_of_state {s z : State} (h : z.channel.state = s.channel.state) : headsLoaded z = headsLoaded s := by
  unfold headsLoaded
  rw [h]

/-- The same without servo and without a load that is tried again, as the Guard island retracts (R979, R1041). -/
theorem startUnload_blind_retractFixed {s : State} (hl : headsLoaded s = true) (hw : s.channel.wg = false)
    (hg : s.channel.gates = (false, false, false)) :
    ∃ c : Channel, (startUnload (s.updChn fun c =>
        if c.state = .unloading then c else { c with servoValid := false, loadRetry := false })).retractFixed =
        (s.supply, c, s.radio.guardMute) ∧ c.state = .unloading ∧ c.wg = false ∧ c.gates = (false, false, false) := by
  by_cases hs : s.channel.state = .unloading
  · simp only [State.updChn, if_pos hs]
    exact startUnload_retractFixed hl hw hg
  · simp only [State.updChn, if_neg hs]
    exact startUnload_retractFixed ((headsLoaded_of_state rfl).trans hl) hw hg

/-- A retract of loaded heads by the Guard island: they unload with every gate closed, the hardware path mutes, and the
device reset that waits for its end is noted (R518, R979, R1041). -/
theorem guardRetract_of_loaded {s : State} (cause : Nat) (hl : headsLoaded s = true) :
    ∃ c : Channel, (guardRetract cause s).retractFixed =
        ({ s.supply with resetNext := some (max cause (s.supply.resetNext.getD 0)) }, c, true) ∧
      c.state = .unloading ∧ c.wg = false ∧ c.gates = (false, false, false) := by
  have hm := hardMute_retractFixed
    (closeGates (s.updSup fun x => { x with resetNext := some (max cause (x.resetNext.getD 0)) }))
  unfold guardRetract
  dsimp only
  generalize hardMute (closeGates (s.updSup fun x => { x with resetNext := some (max cause (x.resetNext.getD 0)) })) = x at hm ⊢
  have hsup := (congrArg Prod.fst hm :)
  have hchn := (congrArg (fun p => p.2.1) hm :)
  have hmute := (congrArg (fun p => p.2.2) hm :)
  simp only [State.retractFixed] at hsup hchn hmute
  have h := startUnload_blind_retractFixed (s := x) ((headsLoaded_of_state (by rw [hchn]; rfl)).trans hl) (by rw [hchn]; rfl)
    (by rw [hchn]; rfl)
  rwa [hsup, hmute] at h

end Sys2Proof.Machine
end

section
/-! ## What wakes, resets and the lockout do, by the power state that they find (Table PWR.3) -/
namespace Sys2Proof.Machine
open Sys2Proof

/-! ### Wakes (R986, R988) -/

/-- VIN back after a power-on reset or a lockout is a wake. -/
theorem vinWake_afterLoss {s : State} (hp : s.supply.power = .guardOnly ∨ s.supply.power = .lockout) {vin us : Nat}
    (hv : 10500 ≤ vin) (hu : 1000 ≤ us) (fell : Bool) :
    vinWake vin us fell s = takeWake 0 (s.updSup fun x => { x with vin := vin }) := by
  have hn : ¬ (vin < 10500 ∨ us < 1000) := by omega
  rcases hp with hp | hp <;> simp [vinWake, hn, hp]

/-- VIN back after it had fallen is a wake in SHELF. -/
theorem vinWake_shelf {s : State} (hp : s.supply.power = .shelf) (hw : s.supply.heldWake = none) {vin us : Nat}
    (hv : 10500 ≤ vin) (hu : 1000 ≤ us) :
    vinWake vin us true s = takeWake 1 (s.updSup fun x => { x with vin := vin }) := by
  have hn : ¬ (vin < 10500 ∨ us < 1000) := by omega
  simp [vinWake, hn, hp, hw]

/-- WAKE_N low for 1 ms in SHELF: a wake with VIN at 10.5 V or more, below it a held one. -/
theorem wakeN_shelf {s : State} (hp : s.supply.power = .shelf) (vin : Nat) {us : Nat} (hu : 1000 ≤ us) :
    wakeN vin us s = if vin < 10500 then s.updSup fun x => { x with heldWake := some 2 } else takeWake 2 s := by
  simp [wakeN, hu, hp, show ¬ us < 1000 by omega]

/-- A wake that no trip delays begins a boot: its pins sampled, its cause by the power state. -/
theorem rebooted_takeWake_withPins (code : Nat) (a b : Fin 4) (m : Bool) (s : State) (f : Supply → Supply)
    (hf : (f s.supply).power = s.supply.power ∧ (f s.supply).resetN = s.supply.resetN)
    (ht : s.supply.power ≠ .tripped ∨ (f s.supply).tj < 1000) (hr : s.supply.resetN = true) :
    Rebooted (wakeCause s.supply.power code) a b m s (takeWake code ((withPins a.val b.val m s).updSup f)) := by
  obtain ⟨hpow, hres⟩ := hf
  rw [← hpow]
  refine rebooted_takeWake code a b m ((withPins a.val b.val m s).updSup f) rfl (fun h => ?_) (hres.trans hr)
  exact ht.resolve_left fun hne => hne (hpow.symm.trans h)

/-! ### RESET_N (R987, R1041) -/

/-- RESET_N low with the heads parked holds the module in reset. -/
theorem exec_resetN_parked (us : Nat) (s : State) (hp : s.powered = true) (hu : 10 ≤ us) (hl : headsLoaded s = false) :
    exec (.resetN us) s =
      .next (holdReset (max 3 (s.supply.resetNext.getD 0)) (s.updSup fun x => { x with resetN := false })) := by
  have hon : s.supply.power = .on := by simpa [State.powered] using hp
  change execResetN us s = _
  simp [execResetN, show ¬ us < 10 by omega, hon, hl]

/-- RESET_N low with the heads loaded retracts them first. -/
theorem exec_resetN_loaded (us : Nat) (s : State) (hp : s.powered = true) (hu : 10 ≤ us) (hl : headsLoaded s = true) :
    exec (.resetN us) s = .next (guardRetract 3 (s.updSup fun x => { x with resetN := false })) := by
  have hon : s.supply.power = .on := by simpa [State.powered] using hp
  change execResetN us s = _
  simp [execResetN, show ¬ us < 10 by omega, hon, hl]

/-- What RESET_N low leaves when the heads were loaded: the module runs, the heads unload with every gate closed, the
hardware path mutes and the reset waits. -/
theorem resetN_loaded_retracts {s z : State} (hp : s.powered = true) (hl : headsLoaded s = true)
    (hz : z = guardRetract 3 (s.updSup fun x => { x with resetN := false })) :
    z.powered = true ∧ z.supply.resetN = false ∧ z.supply.resetNext = some (max 3 (s.supply.resetNext.getD 0)) ∧
      z.channel.state = .unloading ∧ z.channel.wg = false ∧ z.channel.gates = (false, false, false) ∧
      z.radio.guardMute = true := by
  obtain ⟨c, hfixed, hstate, hwg, hgates⟩ :=
    guardRetract_of_loaded (s := s.updSup fun x => { x with resetN := false }) 3 ((headsLoaded_of_state rfl).trans hl)
  rw [← hz] at hfixed
  have hsup : z.supply = _ := (congrArg Prod.fst hfixed :)
  have hchn : z.channel = c := (congrArg (fun p => p.2.1) hfixed :)
  have hmute : z.radio.guardMute = true := (congrArg (fun p => p.2.2) hfixed :)
  refine ⟨?_, by rw [hsup]; rfl, by rw [hsup]; rfl, by rw [hchn, hstate], by rw [hchn, hwg], by rw [hchn, hgates], hmute⟩
  rw [State.powered, hsup]
  exact hp

/-- The end of the retract that a reset waited for. -/
theorem exec_retractEndReset {s : State} {k : Nat} (hp : s.powered = true) (hk : s.supply.resetNext = some k)
    (hr : s.supply.resetN = true) (a b : Fin 4) (m : Bool) :
    exec (.retractEndReset a b m) s = .next (deviceReset k (withPins a.val b.val m s)) := by
  have hon : s.supply.power = .on := by simpa [State.powered] using hp
  have hr1 : (withPins a.val b.val m s).supply.resetN = true := hr
  change execRetractEndReset a b m s = _
  simp [execRetractEndReset, hon, hk, startReset_resetN_high hr1]

/-- RESET_N high again where it held the module in reset. -/
theorem exec_resetNRelease {s : State} (hp : s.supply.power = .resetHeld) (a b : Fin 4) (m : Bool) :
    exec (.resetNRelease a b m) s = .next (deviceReset (max 3 (s.supply.resetNext.getD 3))
      (withPins a.val b.val m (s.updSup fun x => { x with resetN := true }))) :=
  congrArg Host.Outcome.next (if_pos hp)

/-! ### The lockout, the Guard reset, a held wake -/

/-- VHOLD below 6.0 V locks out a module that runs, is held in reset or is in SHELF (R988). -/
theorem exec_undervoltageLockout {s : State} {v us : Nat}
    (hp : s.supply.power = .on ∨ s.supply.power = .resetHeld ∨ s.supply.power = .shelf) (hv : v < 6000) (hu : 2 ≤ us) :
    exec (.undervoltageLockout v us) s = .next (powerOff .lockout s) := by
  change execUndervoltageLockout v us s = _
  have hn : ¬ (6000 ≤ v ∨ us < 2) := by omega
  rw [execUndervoltageLockout, if_neg hn]
  rcases hp with hp | hp | hp <;> simp [hp]

/-- A held wake is released once the monitor reads less than 100 °C (R1013). -/
theorem exec_heldWakeRelease {s : State} {k : Nat} (hp : s.supply.power = .tripped) (hk : s.supply.heldWake = some k)
    {tj : Int} (ht : tj < 1000) (a b : Fin 4) (m : Bool) :
    exec (.heldWakeRelease tj a b m) s = .next (takeWake k ((withPins a.val b.val m s).updSup fun x => { x with tj := tj })) := by
  change execHeldWakeRelease tj a b m s = _
  simp only [execHeldWakeRelease, hp, hk, if_pos ht]
  rfl

/-- Settles O23: wakes and releases by `rebooted_takeWake` and `rebooted_deviceReset`, RESET_N by `dark_powerOff` or
`resetN_loaded_retracts`, the lockout and the Guard reset by `dark_powerOff`. -/
theorem resetsAndWakesBeginABoot : Obligations.ResetsAndWakesBeginABoot := by
  unfold Obligations.ResetsAndWakesBeginABoot
  refine ⟨fun vin us fell a b m s hp hv hu hr => ?_, fun vin us a b m s hp hw hv hu hr => ?_,
    fun vin us a b m s hp hv hu hr => ?_, fun vin us a b m s hp hv hu => ?_, fun us s hp hu hl => ?_,
    fun us s hp hu hl => ?_, fun a b m k s hp hk hr => ?_, fun a b m s hp => ?_, fun vin s hv => ?_,
    fun vin s hp hv => ?_, fun v us s hp hv hu => ?_, fun tj a b m k s hp hk ht hr => ?_, fun s => ?_, fun s => ?_,
    fun s => ?_⟩
  · refine ⟨_, congrArg Host.Outcome.next (vinWake_afterLoss (s := withPins a.val b.val m s) hp hv hu fell), ?_⟩
    have hcause : wakeCause s.supply.power 0 = if s.supply.power = .lockout then 7 else 0 := by
      rcases hp with hp | hp <;> simp [wakeCause, hp]
    rw [← hcause]
    exact rebooted_takeWake_withPins 0 a b m s _ ⟨rfl, rfl⟩ (.inl (by rcases hp with hp | hp <;> simp [hp])) hr
  · refine ⟨_, congrArg Host.Outcome.next (vinWake_shelf (s := withPins a.val b.val m s) hp hw hv hu), ?_⟩
    have h := rebooted_takeWake_withPins 1 a b m s (fun x => { x with vin := vin }) ⟨rfl, rfl⟩ (.inl (by simp [hp])) hr
    rwa [hp] at h
  · refine ⟨_, congrArg Host.Outcome.next (wakeN_shelf (s := withPins a.val b.val m s) hp vin hu), ?_⟩
    rw [if_neg (by omega)]
    have h := rebooted_takeWake_withPins 2 a b m s (fun x => x) ⟨rfl, rfl⟩ (.inl (by simp [hp])) hr
    rwa [hp] at h
  · refine ⟨_, congrArg Host.Outcome.next (wakeN_shelf (s := withPins a.val b.val m s) hp vin hu), ?_⟩
    rw [if_pos hv]
    exact ⟨rfl, by simp [KeepsBut, withPins]⟩
  · refine ⟨_, exec_resetN_parked us s hp hu hl, ?_, rfl, rfl⟩
    exact dark_powerOff .resetHeld (s.updSup fun x => { x with resetN := false })
  · exact ⟨_, exec_resetN_loaded us s hp hu hl, resetN_loaded_retracts hp hl rfl⟩
  · exact ⟨_, exec_retractEndReset hp hk hr a b m, rebooted_deviceReset k a b m (withPins a.val b.val m s) rfl⟩
  · exact ⟨_, exec_resetNRelease hp a b m, rebooted_deviceReset _ a b m (withPins a.val b.val m _) rfl,
      resetN_deviceReset ..⟩
  · exact ⟨_, congrArg Host.Outcome.next (if_neg (by omega)), dark_powerOff .guardReset s, rfl, rfl, rfl⟩
  · exact ⟨_, congrArg Host.Outcome.next (if_pos ⟨hp, hv⟩), rfl, by simp [KeepsBut]⟩
  · exact ⟨_, exec_undervoltageLockout hp hv hu, dark_powerOff .lockout s⟩
  · refine ⟨_, exec_heldWakeRelease hp hk ht a b m, ?_⟩
    have h := rebooted_takeWake_withPins k a b m s (fun x => { x with tj := tj }) ⟨rfl, rfl⟩ (.inr ht) hr
    rwa [hp] at h
  · exact ⟨_, rfl, by simp [trainPcie], by simp [trainPcie, KeepsBut]⟩
  · exact ⟨_, rfl, by simp [trainPcie], by simp [trainPcie, KeepsBut]⟩
  · exact ⟨_, rfl, by simp [trainPcie], by simp [trainPcie, KeepsBut]⟩

end Sys2Proof.Machine
end

section
/-! ## Interrupt sources: what one raise does to a view, and what it leaves (R238, R242, R245, R826) -/
namespace Sys2Proof.Machine
open Sys2Proof

/-- A source as tenant 0's view shows it: its latch and its counter. -/
def State.source (s : State) (src : Nat) : Bool × Nat := ((s.view 0).raw.getLsbD src, vat (s.view 0).count src)

/-- A source was raised once when its latch is set and its counter went on by one. -/
theorem raised_iff (src : Nat) (s z : State) : Raised src s z ↔ z.source src = (true, ((s.source src).2 + 1) % 2 ^ 32) := by
  simp [Raised, State.source]

/-! ### One view -/

/-- A view that latches a source and counts it. -/
def View.latched (src : Nat) (v : View) : View :=
  { v with raw := v.raw ||| BitVec.twoPow 128 src, count := upd v.count src fun n => (n + 1) % 2 ^ 32 }

/-- A raise in a view latches and counts the source, which goes pending if it was neither latched nor masked (R242). -/
theorem raiseView_eq (t src : Nat) (s : State) :
    raiseView t src s = if (s.view t).raw.getLsbD src || (s.view t).mask.getLsbD src then s.updView t (View.latched src)
      else goPending t src (s.updView t (View.latched src)) := rfl

/-- Going pending in a view leaves the latch and the counter of every source. -/
@[simp] theorem goPending_source (t src x : Nat) (s : State) : (goPending t src s).source x = s.source x := by
  have hkeep : ∀ f : View → View, (∀ v, (f v).raw = v.raw) → (∀ v, (f v).count = v.count) →
      (s.updView t f).source x = s.source x := fun f hr hc => by
    simp only [State.source, State.view, State.updView_views]
    rw [vat_upd_keep _ _ _ _ View.raw hr, vat_upd_keep _ _ _ _ View.count hc]
  unfold goPending
  dsimp only
  split
  · rfl
  · split
    · exact hkeep _ (fun _ => rfl) fun _ => rfl
    · rfl

/-- A raise in a view shows of a source what latching it there does. -/
theorem raiseView_source_eq (t src x : Nat) (s : State) :
    (raiseView t src s).source x = (s.updView t (View.latched src)).source x := by
  rw [raiseView_eq]
  split
  · rfl
  · exact goPending_source ..

/-- A raise in one view leaves what another view shows of any source. -/
theorem raiseView_source_of_ne_view (t src x : Nat) (s : State) (h : t ≠ 0) : (raiseView t src s).source x = s.source x := by
  rw [raiseView_source_eq]
  simp [State.source, State.view, h]

/-- A raise of a source leaves every other source. -/
theorem raiseView_source_of_ne (t src x : Nat) (s : State) (h : src ≠ x) : (raiseView t src s).source x = s.source x := by
  rw [raiseView_source_eq]
  simp only [State.source, State.view, State.updView_views, vat_upd, View.latched]
  split <;> simp [h]

/-- A raise in tenant 0's view latches the source and counts it. -/
theorem raiseView_source (src : Nat) (s : State) (h : src < 128) :
    (raiseView 0 src s).source src = (true, ((s.source src).2 + 1) % 2 ^ 32) := by
  rw [raiseView_source_eq]
  simp [State.source, State.view, vat_upd, View.latched, h]

/-! ### A raise -/

/-- A raise of a source leaves every other source (R238). -/
theorem raiseSrc_source_of_ne {src x : Nat} (h : src ≠ x) (s : State) : (raiseSrc src s).source x = s.source x := by
  unfold raiseSrc
  split
  · rfl
  · exact foldl_keep (fun s => s.source x) _ (fun t s => raiseView_source_of_ne t src x s h) _ s

/-- While Campel runs a raise of a source that every variant has is latched and counted once (R238, R242, R245). -/
theorem raised_raiseSrc {src : Nat} {s : State} (h : src < 128) (hr : radioSource src = false) (hu : Up s) :
    Raised src s (raiseSrc src s) := by
  obtain ⟨-, hc, hh⟩ := hu
  have hzero : latches s src 0 = true := by simp [latches, visible]
  have hlist : (List.range 8).filter (latches s src) = 0 :: [1, 2, 3, 4, 5, 6, 7].filter (latches s src) := by
    simp [List.range_succ_eq_map, List.filter_cons, hzero]
  have hrest : ∀ (l : List Nat) (z : State), 0 ∉ l →
      (l.foldl (fun s t => raiseView t src s) z).source src = z.source src := by
    intro l
    induction l with
    | nil => exact fun _ _ => rfl
    | cons t l ih =>
      intro z hl
      obtain ⟨ht, hl⟩ := List.ne_and_not_mem_of_not_mem_cons hl
      rw [List.foldl_cons, ih _ hl, raiseView_source_of_ne_view _ _ _ _ (Ne.symm ht)]
  rw [raised_iff, raiseSrc, if_neg (by simp [hc, hh, hr]), hlist, List.foldl_cons,
    hrest _ _ (fun hm => absurd (List.mem_of_mem_filter hm) (by decide)), raiseView_source src s h]

/-- What leaves the device at a raise comes on top of what has left. -/
theorem mem_raiseSrc_out {src : Nat} {s : State} {o : Out} (h : o ∈ s.out) : o ∈ (raiseSrc src s).out := by
  have hgo : ∀ (t : Nat) (z : State), o ∈ z.out → o ∈ (goPending t src z).out := fun t z hz => by
    unfold goPending
    dsimp only
    split
    · exact hz
    · split
      · exact hz
      · exact List.mem_cons_of_mem _ hz
  have hview : ∀ (t : Nat) (z : State), o ∈ z.out → o ∈ (raiseView t src z).out := fun t z hz => by
    unfold raiseView
    dsimp only
    split
    · exact hz
    · exact hgo t _ hz
  unfold raiseSrc
  split
  · exact h
  · exact foldl_ok (fun z => o ∈ z.out) _ hview _ s h

/-- A response leaves what has left the device in the log. -/
theorem mem_respond_out {t : Nat} {r : Rsp} {s : State} {o : Out} (h : o ∈ s.out) : o ∈ (respond t r s).out :=
  mem_raiseSrc_out h

/-! ### A raise does not look at the timebase -/

theorem ite_updTb (c : Prop) [Decidable c] (a b : State) (f : Timebase → Timebase) :
    (if c then a else b).updTb f = if c then a.updTb f else b.updTb f := by
  split <;> rfl

theorem goPending_updTb (t src : Nat) (f : Timebase → Timebase) (s : State) :
    goPending t src (s.updTb f) = (goPending t src s).updTb f := by
  simp only [goPending, ite_updTb]
  rfl

theorem raiseView_updTb (t src : Nat) (f : Timebase → Timebase) (s : State) :
    raiseView t src (s.updTb f) = (raiseView t src s).updTb f := by
  simp only [raiseView, ite_updTb, ← goPending_updTb]
  rfl

theorem foldl_raiseView_updTb (src : Nat) (l : List Nat) (f : Timebase → Timebase) (s : State) :
    l.foldl (fun s t => raiseView t src s) (s.updTb f) = (l.foldl (fun s t => raiseView t src s) s).updTb f := by
  induction l generalizing s with
  | nil => rfl
  | cons t l ih => simp only [List.foldl_cons, raiseView_updTb, ih]

/-- A raise reads and writes nothing of the timebase. -/
theorem raiseSrc_updTb (src : Nat) (f : Timebase → Timebase) (s : State) :
    raiseSrc src (s.updTb f) = (raiseSrc src s).updTb f := by
  have hl : latches (s.updTb f) src = latches s src := rfl
  simp only [raiseSrc, ite_updTb, hl, ← foldl_raiseView_updTb]
  rfl

/-- A response reads and writes nothing of the timebase. -/
theorem respond_updTb (t : Nat) (r : Rsp) (f : Timebase → Timebase) (s : State) :
    respond t r (s.updTb f) = (respond t r s).updTb f := by
  have hcomm : ∀ g, (s.updTb f).updTen t g = (s.updTen t g).updTb f := fun _ => rfl
  rw [respond, hcomm, raiseSrc_updTb]
  rfl

/-! ### Records -/

/-- The sources that taking a record can raise: drops, exhaustion, much unchronicled, tight mode (R833, R844, R847, R857). -/
def recordSources : List Nat := [112, 115, 117, 119]

/-- A record that enters the recorder raises only the sources of drops and of exhaustion. -/
theorem enterRecord_source {x : Nat} (h : x ∉ recordSources) (r : Record) (s : State) :
    (enterRecord r s).source x = s.source x := by
  have hdrop : (117 : Nat) ≠ x := fun e => h (e ▸ by decide)
  have hfull : (119 : Nat) ≠ x := fun e => h (e ▸ by decide)
  have hrec : ∀ (f : Recorder → Recorder) (z : State), (z.updRec f).source x = z.source x := fun _ _ => rfl
  unfold enterRecord
  dsimp only
  repeat' split
  all_goals simp only [raiseSrc_source_of_ne hdrop, raiseSrc_source_of_ne hfull, hrec]

/-- The watch over the recorder raises only its own two sources. -/
theorem recorderWatch_source {x : Nat} (h : x ∉ recordSources) (s : State) : (recorderWatch s).source x = s.source x := by
  have hhigh : (112 : Nat) ≠ x := fun e => h (e ▸ by decide)
  have htight : (115 : Nat) ≠ x := fun e => h (e ▸ by decide)
  have hrec : ∀ (f : Recorder → Recorder) (z : State), (z.updRec f).source x = z.source x := fun _ _ => rfl
  unfold recorderWatch
  dsimp only
  repeat' split
  all_goals
    simp only [enterRecord_source h, raiseSrc_source_of_ne hhigh, raiseSrc_source_of_ne htight, hrec]

/-- A record raises no source but those of the recorder. -/
theorem record_source {x : Nat} (h : x ∉ recordSources) (r : Record) (s : State) : (record r s).source x = s.source x := by
  unfold record
  split
  · rfl
  · split
    · rfl
    · exact (recorderWatch_source h _).trans (enterRecord_source h r (syncChron s))

/-- While Campel runs a record is not deferred: it changes nothing of the boot (R274). -/
theorem record_boot_of_campel {s : State} (h : s.campel = true) (r : Record) : (record r s).boot = s.boot := by
  unfold record
  split
  · rfl
  · simp [h, syncChron]

/-- A record in staging stays there when another enters. -/
theorem mem_staging_enterRecord {y : Record} {s : State} (h : y ∈ s.recorder.staging) (r : Record) :
    y ∈ (enterRecord r s).recorder.staging := by
  unfold enterRecord
  dsimp only
  repeat' split
  all_goals simp [Recorder.stage, Recorder.drop, h]

/-- A record in staging stays there when the recorder is watched. -/
theorem mem_staging_recorderWatch {y : Record} {s : State} (h : y ∈ s.recorder.staging) :
    y ∈ (recorderWatch s).recorder.staging := by
  unfold recorderWatch
  dsimp only
  split
  · split
    · exact mem_staging_enterRecord (by simpa using h) _
    · simpa using h
  · split
    · exact mem_staging_enterRecord (by simpa using h) _
    · exact h

/-- The record as it stands in staging. -/
def Recorder.staged (r : Recorder) (x : Record) : Record :=
  { x with seq := r.head + 1, flags := x.flags ||| (if r.journalTakes then 0 else 32) }

/-- A recorder that takes records puts one behind those in staging, under the next sequence number (R824, R827). -/
theorem staging_enterRecord_of_canRecord {s : State} (h : CanRecord s) (x : Record) :
    (enterRecord x s).recorder.staging = s.recorder.staging ++ [s.recorder.staged x] := by
  obtain ⟨hex, ht, hlen, hhead⟩ := h
  simp [enterRecord, hex, ht, Nat.not_le.2 hlen, show ¬ s.recorder.head + 1 = seqLast by omega, Recorder.stage,
    Recorder.staged]

/-- A record made while the module runs and the recorder takes records is in staging (R824, R827). -/
theorem recorded_record {s : State} (hp : s.powered = true) (hc : s.campel = true) (h : CanRecord s) (x : Record) :
    Recorded x.code x.severity x.tenant s (record x s) := by
  have hz : record x s = recorderWatch (enterRecord x (syncChron s)) := by simp [record, hp, hc]
  have hin : (syncChron s).recorder.staged x ∈ (record x s).recorder.staging := by
    rw [hz]
    refine mem_staging_recorderWatch ?_
    rw [staging_enterRecord_of_canRecord (s := syncChron s) h]
    exact List.mem_append_right _ (List.mem_singleton.2 rfl)
  have hhead : (syncChron s).recorder.head = s.recorder.head := rfl
  rw [Recorded, List.any_eq_true]
  exact ⟨_, hin, by simp [Recorder.staged, hhead]⟩

/-- A breadcrumb made while the module runs and the recorder takes records is in staging. -/
theorem recorded_crumbOf {s : State} (hp : s.powered = true) (hc : s.campel = true) (h : CanRecord s)
    (isl src code sev ten : Nat) (p : Bytes) : Recorded code sev ten s (crumbOf isl src code sev ten p s) :=
  recorded_record hp hc h _

end Sys2Proof.Machine
end

section
/-! ## What the requests of the time family answer (R55, R69, R106, R108, R109) -/
namespace Sys2Proof.Machine
open Sys2Proof

/-- A served request that ends at once and changes nothing but what it does to the timebase: its answer, its mailbox, the
raise of its source. -/
theorem command_updTb {cmd : Cmd} {c : Call} {s : State} {p : Bytes} {f : Timebase → Timebase} (h : Served cmd c s)
    (hr : cmd.run (begun cmd.op c s) c.t.val c.payload = .done St.ok p ((begun cmd.op c s).updTb f)) :
    ∃ z, command cmd c s = .next z ∧ Answered c cmd.op St.ok p z ∧ z.timebase = f s.timebase ∧ SetsOnly [.timebase] c s z ∧
      Rang (32 + c.t.val) s z := by
  refine ⟨_, command_done h hr, answered_respond .., ?_⟩
  rw [respond_updTb]
  obtain ⟨⟨-, hmail⟩, hrang⟩ := readsOnly_respond cmd.op c
    (localRsp ((begun cmd.op c s).updTb f) (callReq c cmd.op) (St.ok, none, p)) s
  exact ⟨by simp, ⟨by simp [KeepsBut], hmail⟩, hrang⟩

/-- A served request that ends at once and changes nothing. -/
theorem command_reads {cmd : Cmd} {c : Call} {s : State} {p : Bytes} (h : Served cmd c s)
    (hr : cmd.run (begun cmd.op c s) c.t.val c.payload = .done St.ok p (begun cmd.op c s)) :
    ∃ z, command cmd c s = .next z ∧ Answered c cmd.op St.ok p z ∧ ReadsOnly c s z :=
  ⟨_, command_done h hr, answered_respond .., readsOnly_respond ..⟩

/-- What an answered mailbox holds of its response. -/
theorem rsp_of_answered {c : Call} {op st : Nat} {p : Bytes} {z : State} (h : Answered c op st p z) :
    (z.ten c.t.val).rsp.map (fun r => (r.status, r.payload)) = some (st, p) := by
  obtain ⟨-, -, hr⟩ := h
  have h2 := congrArg (Option.map fun x : Nat × Nat × Nat × Bool × Bytes => (x.2.2.1, x.2.2.2.2)) hr
  rwa [Option.map_map] at h2

/-- A change of one element is known by what it does to the element that is there. -/
theorem upd_congr {α : Type} [Inhabited α] {n : Nat} (v : Vector α n) (i : Nat) {f g : α → α}
    (h : f (vat v i) = g (vat v i)) : upd v i f = upd v i g := by
  unfold upd
  split
  · next hi => simp only [vat, hi, dif_pos] at h; rw [h]
  · rfl

/-- A response to a request that changed no tenant changes of the tenants only the mailbox (R191, R193). -/
theorem mailboxOnly_respond {op : Nat} {c : Call} {s s1 : State} (h : s1.tenants = (begun op c s).tenants) (r : Rsp) :
    MailboxOnly c s (respond c.t.val r s1) := by
  have hts : (respond c.t.val r s1).tenants = (respond c.t.val r (begun op c s)).tenants := by simp [respond, h]
  obtain ⟨⟨-, hmail⟩, -⟩ := readsOnly_respond op c r s
  intro k
  have hk := hmail k
  simp only [State.ten] at hk ⊢
  rwa [hts]

/-- TIME_GET_STATUS answers state, flags and reference, and behind QUALIFIED the phase error, the correction, the code and
the seconds in HOLDOVER (Table TIM.14). -/
theorem exec_timeGetStatus {c : Call} {s : State} (h : Served cmdTimeGetStatus c s) :
    ∃ z, exec (.timeGetStatus c) s = .next z ∧
      ((z.ten c.t.val).rsp.map fun r => (r.status, r.payload.length, slice r.payload 0 3, slice r.payload 4 16)) =
        some (St.ok, 24, leBytes 1 (timeState s.timebase % 8) ++
          leBytes 1 (b2n s.timebase.valid + 2 * b2n s.timebase.revertive + 4 * b2n (followsUpstream s.timebase) +
            8 * b2n s.timebase.forced.isSome) ++ leBytes 1 s.timebase.selected,
          leInt 4 (sat32 s.timebase.phaseErr) ++ leInt 4 s.timebase.freqCorr ++ leBytes 4 s.timebase.steer ++
            leBytes 4 (holdoverS s)) ∧
      ReadsOnly c s z := by
  obtain ⟨z, hz, ha, hread⟩ := command_reads h rfl
  refine ⟨z, hz, ?_, hread⟩
  have hr := congrArg (Option.map fun x : Nat × Bytes => (x.1, x.2.length, slice x.2 0 3, slice x.2 4 16)) (rsp_of_answered ha)
  rw [Option.map_map] at hr
  refine hr.trans (congrArg some ?_)
  rfl

/-- Settles O16: each request that only reads by `command_reads`, TIME_TIM_READ by `command_updTb`; what TIME_GNSS_SEND
sends stays in the log when its answer rings (`mem_respond_out`). -/
theorem timeRequestsAnswerWithTheTimebase : Obligations.TimeRequestsAnswerWithTheTimebase := by
  unfold Obligations.TimeRequestsAnswerWithTheTimebase
  refine ⟨fun c s h => exec_timeGetStatus h, fun c s h => ?_, fun c s h => command_reads h rfl,
    fun c s h => command_reads h rfl, fun c k s h hk => ?_, fun c i n s h hi hn => ?_, fun c s h => ?_⟩
  · exact command_reads h rfl
  · subst hk
    exact command_reads h rfl
  · subst hi hn
    obtain ⟨z, hz, ha, ht, hset⟩ := command_updTb h rfl
    refine ⟨z, hz, ha, ht.trans ?_, hset⟩
    congr 1
    exact upd_congr _ _ rfl
  · have hr : cmdTimeGnssSend.run (begun cmdTimeGnssSend.op c s) c.t.val c.payload =
        .done St.ok [] ((begun cmdTimeGnssSend.op c s).emit (.gnss c.payload)) := rfl
    refine ⟨_, command_done h hr, answered_respond .., ?_, by simp [KeepsBut], mailboxOnly_respond (State.emit_tenants ..) _⟩
    exact mem_respond_out List.mem_cons_self

end Sys2Proof.Machine
end

section
/-! ## What an instruction changes: frames of the shared operations of the timebase (R59 to R67, R80 to R85, R657) -/
namespace Sys2Proof.Machine
open Sys2Proof

/-! ### Frames -/

/-- A frame may list more parts. -/
theorem keepsBut_mono {ps qs : List Part} (h : ps ⊆ qs) {s z : State} : KeepsBut ps s z → KeepsBut qs s z := by
  unfold KeepsBut
  repeat' refine And.imp ?_ ?_
  all_goals exact Or.imp_left (@h _)

/-- Frames follow each other. -/
theorem keepsBut_trans {ps : List Part} {s y z : State} : KeepsBut ps s y → KeepsBut ps y z → KeepsBut ps s z := by
  have step : ∀ {α : Type} {P : Prop} {a b c : α}, P ∨ b = a → P ∨ c = b → P ∨ c = a := fun h1 h2 =>
    h1.elim .inl fun e1 => h2.imp_right fun e2 => e2.trans e1
  intro h1 h2
  unfold KeepsBut at *
  obtain ⟨a1, a2, a3, a4, a5, a6, a7, a8, a9, a10, a11, a12, a13, a14, a15, a16, a17, a18, a19, a20, a21, a22, a23, a24, a25⟩ := h1
  obtain ⟨b1, b2, b3, b4, b5, b6, b7, b8, b9, b10, b11, b12, b13, b14, b15, b16, b17, b18, b19, b20, b21, b22, b23, b24, b25⟩ := h2
  exact ⟨step a1 b1, step a2 b2, step a3 b3, step a4 b4, step a5 b5, step a6 b6, step a7 b7, step a8 b8, step a9 b9,
    step a10 b10, step a11 b11, step a12 b12, step a13 b13, step a14 b14, step a15 b15, step a16 b16, step a17 b17,
    step a18 b18, step a19 b19, step a20 b20, step a21 b21, step a22 b22, step a23 b23, step a24 b24, step a25 b25⟩

/-- The state with everything that a change of time or of the reference may touch put at its default: mailboxes, views, the
Loft, recorder, boot, timebase, Spars, motors, the disk queue, the radio, what leaves the device, the free values. -/
def State.besidesTime (s : State) : State :=
  { s with
      tenants := State.reset.tenants, views := State.reset.views, loft := {}, recorder := {}, boot := {}, timebase := {}
      spars := State.reset.spars, motor := {}, diskq := {}, radio := {}, out := [], free := 0 }

/-- The parts that a change of time or of the reference may touch. -/
def timeParts : List Part :=
  [.tenants, .views, .loft, .recorder, .boot, .timebase, .spars, .motor, .diskq, .radio, .out, .free]

/-- What leaves the rest of the state changes only those parts. -/
theorem keepsBut_of_besidesTime {s z : State} (h : z.besidesTime = s.besidesTime) : KeepsBut timeParts s z := by
  simp only [State.besidesTime, State.mk.injEq, true_and] at h
  simpa [KeepsBut, timeParts] using h

/-- What leaves everything besides completions changes only the parts that completions change. -/
theorem keepsBut_of_besidesCompletions {s z : State} (h : z.besidesCompletions = s.besidesCompletions) :
    KeepsBut [.tenants, .views, .jobs, .loft, .rings, .recorder, .boot, .keys, .cascade, .out] s z := by
  simp only [State.besidesCompletions, State.mk.injEq, true_and] at h
  simpa [KeepsBut] using h

@[simp] theorem raiseSrc_besidesTime (src : Nat) (s : State) : (raiseSrc src s).besidesTime = s.besidesTime := by
  simp [State.besidesTime]

@[simp] theorem record_besidesTime (x : Record) (s : State) : (record x s).besidesTime = s.besidesTime := by
  simp [State.besidesTime]

@[simp] theorem respond_besidesTime (t : Nat) (r : Rsp) (s : State) : (respond t r s).besidesTime = s.besidesTime := by
  simp [State.besidesTime]

@[simp] theorem updTb_besidesTime (f : Timebase → Timebase) (s : State) : (s.updTb f).besidesTime = s.besidesTime := rfl

/-! ### The end of open segments at a step of time (R657) -/

/-- The state with the disk queue, the Loft and the counts of yealms held put at their defaults. -/
def State.besidesSegments (s : State) : State := { s with diskq := {}, loft := {}, tenants := State.reset.tenants }

@[simp] theorem updRecChan_besidesSegments (n : Nat) (f : RecChan → RecChan) (s : State) :
    (s.updRecChan n f).besidesSegments = s.besidesSegments := rfl

@[simp] theorem closeSector_besidesSegments (n : Nat) (o : OpenSector) (s : State) :
    (closeSector n o s).besidesSegments = s.besidesSegments := rfl

@[simp] theorem closeWhere_besidesSegments (n : Nat) (p : OpenSector → Bool) (s : State) :
    (closeWhere n p s).besidesSegments = s.besidesSegments :=
  foldl_keep State.besidesSegments _ (fun o s => closeSector_besidesSegments n o s) _ s

@[simp] theorem enterSegment_besidesSegments (n q : Nat) (t : Time) (s : State) :
    (enterSegment n q t s).besidesSegments = s.besidesSegments := by
  unfold enterSegment
  dsimp only
  split
  · rfl
  · split <;> rfl

theorem allocOne_besidesSegments {t h : Nat} {s z : State} (e : allocOne t s = some (h, z)) :
    z.besidesSegments = s.besidesSegments := by
  unfold allocOne at e
  split at e
  · cases e
  · cases e; rfl

@[simp] theorem openSector_besidesSegments (n : Nat) (o : OpenSector) (s : State) :
    (openSector n o s).besidesSegments = s.besidesSegments := by
  unfold openSector
  split
  · next e => exact (updRecChan_besidesSegments ..).trans (allocOne_besidesSegments e)
  · rfl

@[simp] theorem recorded_besidesSegments (n q seg : Nat) (s : State) :
    (recorded n q seg s).besidesSegments = s.besidesSegments := rfl

@[simp] theorem placeFramed_besidesSegments (n q : Nat) (b : Bytes) (blue : Bool) (t : Time) (s : State) :
    (placeFramed n q b blue t s).besidesSegments = s.besidesSegments := by
  unfold placeFramed
  dsimp only
  simp only [closeWhere_besidesSegments, recorded_besidesSegments, updRecChan_besidesSegments]
  split <;> simp

@[simp] theorem placeHeld_besidesSegments (n : Nat) (s : State) : (placeHeld n s).besidesSegments = s.besidesSegments := by
  unfold placeHeld
  split
  · rfl
  · simp

theorem repeat_placeHeld_besidesSegments (n k : Nat) (s : State) :
    (Nat.repeat (placeHeld n) k s).besidesSegments = s.besidesSegments := by
  induction k with
  | zero => rfl
  | succ k ih => rw [Nat.repeat, placeHeld_besidesSegments, ih]

@[simp] theorem endSegment_besidesSegments (n bits : Nat) (s : State) :
    (endSegment n bits s).besidesSegments = s.besidesSegments := by
  unfold endSegment
  dsimp only
  split
  · rw [updRecChan_besidesSegments]
    exact (closeWhere_besidesSegments ..).trans (repeat_placeHeld_besidesSegments ..)
  · exact (closeWhere_besidesSegments ..).trans (repeat_placeHeld_besidesSegments ..)

/-- The end of every open segment changes only the disk queue, the Loft and the counts of yealms held. -/
theorem stepSegments_besidesSegments (s : State) : (stepSegments s).besidesSegments = s.besidesSegments :=
  foldl_keep State.besidesSegments _ (fun n s => endSegment_besidesSegments n 32 s) _ s

end Sys2Proof.Machine
end

section
/-! ## Steps of time and the selection of a reference: what they keep (R59 to R67, R80 to R84, R99, R510, R704) -/
namespace Sys2Proof.Machine
open Sys2Proof

/-! ### The relation -/

/-- The timebase's choice of a reference and its references: a step of time leaves it. -/
def State.selection (s : State) : Nat × Option Nat × Bool × Vector RefIn 6 :=
  (s.timebase.selected, s.timebase.forced, s.timebase.oscPresent, s.timebase.refs)

/-- No scheduled change is pending. -/
def State.unscheduled (s : State) : Prop := s.timebase.leap = none ∧ s.timebase.localSched = none

/-- The offsets in force, and the boot area that persists them (R75). -/
def State.offsets (s : State) : Int × Int × Boot := (s.timebase.utcOffset, s.timebase.localOffset, s.boot)

/-- From `s` to `z` only the parts of a change of time changed, no source outside `l` was raised, and without a pending
change the offsets stayed. -/
structure Retimed (l : List Nat) (s z : State) : Prop where
  parts : z.besidesTime = s.besidesTime
  sources : ∀ x, x ∉ l → z.source x = s.source x
  offsets : s.unscheduled → z.unscheduled ∧ z.offsets = s.offsets

/-- The same, and the references and the choice among them stayed too. -/
structure Steady (l : List Nat) (s z : State) : Prop extends Retimed l s z where
  selection : z.selection = s.selection

theorem Retimed.trans {l : List Nat} {s y z : State} (h1 : Retimed l s y) (h2 : Retimed l y z) : Retimed l s z where
  parts := h2.parts.trans h1.parts
  sources x hx := (h2.sources x hx).trans (h1.sources x hx)
  offsets hu := ⟨(h2.offsets (h1.offsets hu).1).1, (h2.offsets (h1.offsets hu).1).2.trans (h1.offsets hu).2⟩

theorem Retimed.mono {l m : List Nat} {s z : State} (h : Retimed l s z) (hl : l ⊆ m) : Retimed m s z where
  parts := h.parts
  sources x hx := h.sources x fun hm => hx (hl hm)
  offsets := h.offsets

theorem Steady.refl (l : List Nat) (s : State) : Steady l s s := ⟨⟨rfl, fun _ _ => rfl, fun h => ⟨h, rfl⟩⟩, rfl⟩

theorem Steady.trans {l : List Nat} {s y z : State} (h1 : Steady l s y) (h2 : Steady l y z) : Steady l s z :=
  ⟨h1.toRetimed.trans h2.toRetimed, h2.selection.trans h1.selection⟩

theorem Steady.mono {l m : List Nat} {s z : State} (h : Steady l s z) (hl : l ⊆ m) : Steady m s z :=
  ⟨h.toRetimed.mono hl, h.selection⟩

/-- A raise of a source. -/
theorem steady_raiseSrc {l : List Nat} {src : Nat} (h : src ∈ l) (s : State) : Steady l s (raiseSrc src s) where
  parts := raiseSrc_besidesTime ..
  sources x hx := raiseSrc_source_of_ne (fun e : src = x => hx (e ▸ h)) s
  offsets hu := by simpa [State.unscheduled, State.offsets] using hu
  selection := by simp [State.selection]

/-- A change of the timebase that leaves the references, the offsets and the pending changes. -/
theorem steady_updTb {l : List Nat} {f : Timebase → Timebase} {s : State}
    (hsel : (s.updTb f).selection = s.selection) (hu : s.unscheduled → (s.updTb f).unscheduled)
    (ho : (s.updTb f).offsets = s.offsets) : Steady l s (s.updTb f) :=
  ⟨⟨rfl, fun _ _ => rfl, fun h => ⟨hu h, ho⟩⟩, hsel⟩

/-! ### Pending changes that take force (R80 to R84) -/

/-- What taking force and its record can raise. -/
def forceSources : List Nat := 58 :: recordSources

/-- The timebase with its offsets and pending changes put at their defaults. -/
def Timebase.besidesOffsets (b : Timebase) : Timebase :=
  { b with utcOffset := 0, localOffset := 0, daylight := false, leap := none, localSched := none }

/-- The selection is part of what taking force leaves. -/
theorem selection_of_besidesOffsets {s z : State} (h : z.timebase.besidesOffsets = s.timebase.besidesOffsets) :
    z.selection = s.selection := by
  simp only [Timebase.besidesOffsets, Timebase.mk.injEq] at h
  simp [State.selection, h]

/-- The timebase after the pending changes of one instant took force (R80, R81). -/
def Timebase.changedAt (i : Nat) (b : Timebase) : Timebase :=
  let l := b.leap.any fun x => x.instant == i
  let m := b.localSched.any fun x => x.instant == i
  let b1 := if l then { b with utcOffset := (b.leap.map (·.value)).getD b.utcOffset, leap := none } else b
  if m then
    { b1 with localOffset := (b.localSched.map (·.value)).getD b.localOffset
              daylight := b.localSched.any fun x => x.flags.testBit 0, localSched := none }
  else b1

/-- Changes that take force are persisted, raise source 58 and are recorded (R80). -/
theorem forceAt_eq (i : Nat) (s : State) :
    forceAt i s = offsetRecord i (raiseSrc 58 (keepOffsets (s.updTb (Timebase.changedAt i)))) := rfl

theorem changedAt_besidesOffsets (i : Nat) (b : Timebase) : (b.changedAt i).besidesOffsets = b.besidesOffsets := by
  unfold Timebase.changedAt
  dsimp only
  split <;> split <;> rfl

/-- Changes that take force change of the timebase what they say. -/
theorem forceAt_timebase (i : Nat) (s : State) : (forceAt i s).timebase = s.timebase.changedAt i := by
  rw [forceAt_eq]
  simp [offsetRecord, keepOffsets, keepUpdate]

/-- Without a pending change there is nothing to take force. -/
theorem forceFirst_of_unscheduled {s : State} (h : s.unscheduled) : forceFirst s = s := by
  obtain ⟨hl, hm⟩ := h
  simp [forceFirst, hl, hm, dueAt]

theorem takeForce_of_unscheduled {s : State} (h : s.unscheduled) : takeForce s = s := by
  unfold takeForce
  split
  · rfl
  · rw [forceFirst_of_unscheduled h, forceFirst_of_unscheduled h]

/-- What taking force does comes down to changes of one instant each. -/
theorem takeForce_of_forceAt {p : State → Prop} (h : ∀ i z, p z → p (forceAt i z)) {s : State} (hs : p s) :
    p (takeForce s) := by
  have hfirst : ∀ z, p z → p (forceFirst z) := fun z hz => by
    unfold forceFirst
    split
    · exact h _ z hz
    · exact hz
  unfold takeForce
  split
  · exact hs
  · exact hfirst _ (hfirst s hs)

theorem forceAt_besidesTime (i : Nat) (s : State) : (forceAt i s).besidesTime = s.besidesTime :=
  (record_besidesTime _ _).trans (raiseSrc_besidesTime 58 _)

theorem forceAt_source {x : Nat} (h : x ∉ forceSources) (i : Nat) (s : State) : (forceAt i s).source x = s.source x := by
  obtain ⟨h58, hrec⟩ := List.ne_and_not_mem_of_not_mem_cons h
  exact (record_source hrec _ _).trans (raiseSrc_source_of_ne (Ne.symm h58) _)

/-- Changes that take force change of the timebase only the offsets and what is pending. -/
theorem takeForce_besidesOffsets (s : State) : (takeForce s).timebase.besidesOffsets = s.timebase.besidesOffsets :=
  takeForce_of_forceAt (p := fun z => z.timebase.besidesOffsets = s.timebase.besidesOffsets)
    (fun i z hz => by rw [forceAt_timebase, changedAt_besidesOffsets, hz]) rfl

theorem steady_takeForce (s : State) : Steady forceSources s (takeForce s) where
  parts := takeForce_of_forceAt (p := fun z => z.besidesTime = s.besidesTime)
    (fun i z hz => (forceAt_besidesTime i z).trans hz) rfl
  sources x hx := takeForce_of_forceAt (p := fun z => z.source x = s.source x)
    (fun i z hz => (forceAt_source hx i z).trans hz) rfl
  offsets hu := by rw [takeForce_of_unscheduled hu]; exact ⟨hu, rfl⟩
  selection := selection_of_besidesOffsets (takeForce_besidesOffsets s)

/-- Time becomes valid (R53, R83). -/
theorem steady_makeValid (s : State) : Steady forceSources s (makeValid s) :=
  (steady_updTb rfl id rfl).trans (steady_takeForce _)

/-! ### Steps of time (R63, R84, R99, R510, R657, R704) -/

/-- What follows the raise of source 56 at a step can raise: the spindle's change of state, then what takes force. -/
def afterStepSources : List Nat := 80 :: forceSources

/-- What a step can raise. -/
def stepSources : List Nat := 56 :: afterStepSources

/-- What keeps every part but the disk queue, the Loft and the tenants is steady. -/
theorem steady_of_besidesSegments {l : List Nat} {s z : State} (h : z.besidesSegments = s.besidesSegments) : Steady l s z where
  parts := (congrArg State.besidesTime h :)
  sources x _ := (congrArg (fun y : State => y.source x) h :)
  offsets hu := ⟨(congrArg State.unscheduled h :).mpr hu, (congrArg State.offsets h :)⟩
  selection := (congrArg State.selection h :)

/-- A LOCKED spindle that re-phases raises source 80 (R501, R510). -/
theorem steady_rephase (s : State) : Steady afterStepSources s (rephase s) := by
  unfold rephase
  split
  · have hmotor : ∀ m, Steady afterStepSources s { s with motor := m } := fun _ =>
      ⟨⟨rfl, fun _ _ => rfl, fun h => ⟨h, rfl⟩⟩, rfl⟩
    exact (hmotor _).trans (steady_raiseSrc (by decide) _)
  · exact .refl ..

theorem steady_tddQuiet (l : List Nat) (s : State) : Steady l s (tddQuiet s) := ⟨⟨rfl, fun _ _ => rfl, fun h => ⟨h, rfl⟩⟩, rfl⟩

theorem steady_cadenceStep (l : List Nat) (d : Int) (s : State) : Steady l s (cadenceStep d s) :=
  ⟨⟨rfl, fun _ _ => rfl, fun h => ⟨h, rfl⟩⟩, rfl⟩

/-- The timebase of a step: time moved, nothing left to slew, every snapshot marked (R63). -/
def Timebase.stepped (d : Int) (b : Timebase) : Timebase :=
  { b with now := b.now.addNs d, slewNs := 0, spineStep := true, snap := b.snap.map fun x => { x with stepped := true } }

/-- What a step does behind the raise of source 56. -/
def afterStep (d : Int) (s : State) : State := takeForce (stepSegments (cadenceStep d (tddQuiet (rephase s))))

theorem timeStep_eq (d : Int) (s : State) : timeStep d s = afterStep d (raiseSrc 56 (s.updTb (Timebase.stepped d))) := rfl

theorem steady_afterStep (d : Int) (s : State) : Steady afterStepSources s (afterStep d s) :=
  (steady_rephase s).trans <| (steady_tddQuiet _ _).trans <| (steady_cadenceStep _ d _).trans <|
    (steady_of_besidesSegments (stepSegments_besidesSegments _)).trans <| (steady_takeForce _).mono (List.subset_cons_self ..)

theorem steady_timeStep (d : Int) (s : State) : Steady stepSources s (timeStep d s) := by
  rw [timeStep_eq]
  exact (steady_updTb rfl id rfl).trans <| (steady_raiseSrc (by decide) _).trans <|
    (steady_afterStep d _).mono (List.subset_cons_self ..)

/-- A cadence output whose last edge kept its distance in time over a step (R99). -/
def Cadence.stepped (d : Int) (c : Cadence) : Cadence := { c with lastEdge := ((c.lastEdge : Int) + d * 8).toNat }

/-- What follows the raise of source 56 leaves the timebase but for the cadence edges, the offsets and what is pending. -/
theorem afterStep_besidesOffsets (d : Int) (s : State) :
    (afterStep d s).timebase.besidesOffsets =
      { s.timebase with cadence := s.timebase.cadence.map (Cadence.stepped d) }.besidesOffsets := by
  have hphase : (rephase s).timebase = s.timebase := by
    unfold rephase
    split <;> simp
  have hseg : ∀ z : State, (stepSegments z).timebase = z.timebase := fun z =>
    (congrArg State.timebase (stepSegments_besidesSegments z) :)
  rw [afterStep, takeForce_besidesOffsets, hseg]
  simp only [cadenceStep, tddQuiet, hphase]
  rfl

/-! ### The DPLL and the selection (R59 to R67) -/

/-- What a change of the selection raises behind source 53: the DPLL's holdover sources, a step, what takes force. -/
def afterSwitchSources : List Nat := 54 :: 55 :: stepSources

/-- What a change of the selection can raise. -/
def switchSources : List Nat := 53 :: afterSwitchSources

theorem steady_dpllTo (l : List Nat) (st : DpllState) (s : State) : Steady l s (dpllTo st s) := steady_updTb rfl id rfl

theorem steady_dpllUnreferenced (s : State) : Steady afterSwitchSources s (dpllUnreferenced s) := by
  unfold dpllUnreferenced
  split
  · split
    · exact ((steady_dpllTo _ .holdover s).trans (steady_updTb rfl id rfl)).trans (steady_raiseSrc (by decide) _)
    · exact steady_dpllTo ..
  · exact .refl ..

theorem steady_dpllReferenced (s : State) : Steady afterSwitchSources s (dpllReferenced s) := by
  unfold dpllReferenced
  split
  · exact (steady_dpllTo ..).trans (steady_raiseSrc (by decide) _)
  · exact steady_dpllTo ..
  · exact steady_dpllTo ..
  · exact .refl ..

theorem steady_takePhase (c : Nat) (s : State) : Steady afterSwitchSources s (takePhase c s) := by
  unfold takePhase
  dsimp only
  split
  · exact (steady_timeStep _ s).mono (by decide)
  · exact steady_updTb rfl id rfl

/-- The selected reference is another one, nothing else done yet (R59, R110). -/
def choose (c : Nat) (s : State) : State :=
  s.updTb fun b => { b with selected := c, setByCmd := b.setByCmd && !classT c }

/-- What a change of the selection does behind the raise of source 53 (R62, R65). -/
def afterSwitch (c : Nat) (s : State) : State :=
  if c = 0 then dpllUnreferenced s
  else if classT c then makeValid (takePhase c (dpllReferenced s)) else takePhase c (dpllReferenced s)

theorem switchRef_eq (c : Nat) (s : State) :
    switchRef c s = if c = s.timebase.selected then s else afterSwitch c (raiseSrc 53 (choose c s)) := rfl

theorem steady_afterSwitch (c : Nat) (s : State) : Steady afterSwitchSources s (afterSwitch c s) := by
  have hphase : Steady afterSwitchSources s (takePhase c (dpllReferenced s)) :=
    (steady_dpllReferenced s).trans (steady_takePhase c _)
  unfold afterSwitch
  split
  · exact steady_dpllUnreferenced s
  · split
    · exact hphase.trans ((steady_makeValid _).mono (by decide))
    · exact hphase

/-- A change of the selection (R59, R62, R65): what it retimes, and the choice it leaves. -/
theorem retimed_switchRef (c : Nat) (s : State) : Retimed switchSources s (switchRef c s) := by
  rw [switchRef_eq]
  split
  · exact (Steady.refl _ s).toRetimed
  · have hchoose : Retimed switchSources s (choose c s) := ⟨rfl, fun _ _ => rfl, fun h => ⟨h, rfl⟩⟩
    exact hchoose.trans ((steady_raiseSrc (by decide) _).trans
      ((steady_afterSwitch c _).mono (List.subset_cons_self ..))).toRetimed

theorem switchRef_selection (c : Nat) (s : State) : (switchRef c s).selection = (c, s.selection.2) := by
  rw [switchRef_eq]
  split
  · next h => rw [h]; rfl
  · rw [(steady_afterSwitch c _).selection, (steady_raiseSrc (l := [53]) (by decide) _).selection]
    rfl

/-- Selection again, without waiting to restore (R61). -/
theorem reselect_eq (s : State) : reselect s = s ∨ reselect s = switchRef (bestRef s) s := by
  unfold reselect
  split
  · exact .inl rfl
  · exact .inr rfl

theorem retimed_reselect (s : State) : Retimed switchSources s (reselect s) := by
  rcases reselect_eq s with h | h
  · rw [h]; exact (Steady.refl _ s).toRetimed
  · rw [h]; exact retimed_switchRef ..

/-- Selection again leaves the forced reference, OSC_IN and every reference. -/
theorem reselect_selection (s : State) : (reselect s).selection.2 = s.selection.2 := by
  rcases reselect_eq s with h | h
  · rw [h]
  · rw [h, switchRef_selection]

/-- The best reference is one that is offered, or none (R59). -/
theorem offered_bestRef (s : State) : bestRef s = 0 ∨ offered s (bestRef s) = true := by
  unfold bestRef
  refine foldl_ok (fun best => best = 0 ∨ offered s best = true) _ (fun c best hb => ?_) _ 0 (.inl rfl)
  split
  · next h => exact .inr (by simpa using (Bool.and_eq_true_iff.1 h).1)
  · exact hb

/-- The reference selected again is one that is offered, or none (R59, R61). -/
theorem reselect_selected (s : State) :
    (reselect s).timebase.selected = 0 ∨ offered s (reselect s).timebase.selected = true := by
  unfold reselect
  split
  · next h => exact .inr h.2
  · have hsel : (switchRef (bestRef s) s).timebase.selected = bestRef s := (congrArg Prod.fst (switchRef_selection ..) :)
    rw [hsel]
    exact offered_bestRef s

end Sys2Proof.Machine
end

section
/-! ## What the configuring requests of the time family set (R57, R59, R63 to R65, R72, R75, R76, R92, R98, R110, R111) -/
namespace Sys2Proof.Machine
open Sys2Proof

/-! ### Requests that change more than the timebase -/

/-- A request that passes the checks has fields that are right. -/
theorem fields_of_checks {cmd : Cmd} {q : Req} {s : State} (h : checks cmd q s = none) :
    cmd.fields s q.t q.payload = true := by
  by_contra hf
  unfold checks at h
  dsimp only at h
  repeat' split at h
  all_goals simp_all

/-- What a request changes goes with the mailbox, the views and the log of its answer. -/
theorem keepsBut_respond_begun {ps : List Part} (hps : [.tenants, .views, .out] ⊆ ps) {op : Nat} {c : Call} {s s1 : State}
    (h : KeepsBut ps (begun op c s) s1) (t : Nat) (r : Rsp) : KeepsBut ps s (respond t r s1) := by
  have hbegun : KeepsBut [.tenants, .views, .out] s (begun op c s) := by simp [KeepsBut]
  have hrespond : KeepsBut [.tenants, .views, .out] s1 (respond t r s1) := by simp [KeepsBut]
  exact keepsBut_trans (keepsBut_trans (keepsBut_mono hps hbegun) h) (keepsBut_mono hps hrespond)

/-- A response raises no source but the mailbox's. -/
theorem respond_source {t x : Nat} (h : 32 + t ≠ x) (r : Rsp) (s : State) : (respond t r s).source x = s.source x :=
  raiseSrc_source_of_ne h _

/-- A served request that ends at once and retimes the module: its answer, and what it leaves. -/
theorem command_retimes {cmd : Cmd} {c : Call} {s s1 : State} (h : Served cmd c s)
    (hr : cmd.run (begun cmd.op c s) c.t.val c.payload = .done St.ok [] s1) (hp : s1.besidesTime = s.besidesTime) :
    ∃ z, command cmd c s = .next z ∧ Answered c cmd.op St.ok [] z ∧ z.timebase = s1.timebase ∧ z.boot = s1.boot ∧
      (∀ x, 32 + c.t.val ≠ x → z.source x = s1.source x) ∧
      KeepsBut [.tenants, .views, .jobs, .loft, .rings, .recorder, .boot, .timebase, .spars, .motor, .diskq, .radio, .out,
        .free] s z :=
  ⟨_, command_done h hr, answered_respond .., respond_timebase .., respond_boot .., fun _ hx => respond_source hx ..,
    keepsBut_mono (by decide) (keepsBut_of_besidesTime ((respond_besidesTime ..).trans hp))⟩

/-! ### The keepsake area and the schedules (R75, R76, R82, R293) -/

/-- The copy in use after an update of the keepsake area is the one just written (R293). -/
theorem bestKeep_keepUpdate (f : KeepCopy → KeepCopy) (s : State) :
    bestKeep (keepUpdate f s).boot =
      { f (bestKeep s.boot) with count := (bestKeep s.boot).count + 1, valid := true } := by
  by_cases h : (s.boot.keepB.valid && (!s.boot.keepA.valid || s.boot.keepA.count < s.boot.keepB.count)) = true
  · simp [keepUpdate, State.updBoot, bestKeep, h]
  · simp [keepUpdate, State.updBoot, bestKeep, h]

/-- Offsets are persisted as they are in force (R75). -/
theorem bestKeep_keepOffsets (s : State) :
    (bestKeep (keepOffsets s).boot).offsets = (s.timebase.utcOffset, s.timebase.localOffset) := by
  rw [keepOffsets, bestKeep_keepUpdate]

/-- What a schedule says, whether or not its warning has been raised. -/
def Sched.change (x : Sched) : Nat × Nat × Int := (x.instant, x.flags, x.value)

/-- A warning leaves what the pending schedules say (R82). -/
theorem warnScheds_change (k : Nat) (s : State) :
    (pendingOf (warnScheds s).timebase k).map Sched.change = (pendingOf s.timebase k).map Sched.change := by
  have hmark : ∀ o : Option Sched, (o.map fun x => { x with warned := true }).map Sched.change = o.map Sched.change :=
    fun o => by cases o <;> rfl
  unfold warnScheds pendingOf
  dsimp only
  split <;> split <;> split <;> simp [hmark]

theorem keepsBut_warnScheds (s : State) : KeepsBut [.timebase, .views, .out] s (warnScheds s) := by
  unfold warnScheds
  dsimp only
  split <;> split <;> simp [KeepsBut]

/-- The schedule just put is the pending one of its kind (R76). -/
theorem putSched_change (k : Nat) (x : Option Sched) (s : State) :
    (pendingOf (putSched k x s).timebase k).map Sched.change = x.map Sched.change := by
  rw [putSched, warnScheds_change]
  congr 1
  by_cases hk : k = 1 <;> simp [pendingOf, keepOffsets, keepUpdate, hk]

theorem keepsBut_putSched (k : Nat) (x : Option Sched) (s : State) :
    KeepsBut [.boot, .timebase, .views, .out] s (putSched k x s) := by
  have hkeep : ∀ f, KeepsBut [.boot, .timebase, .views, .out] s (keepOffsets (s.updTb f)) := fun f => by
    simp [KeepsBut, keepOffsets, keepUpdate]
  exact keepsBut_trans (hkeep _) (keepsBut_mono (by decide) (keepsBut_warnScheds _))

/-- A request that puts a schedule: its answer, the schedule, what else it may change. -/
theorem exec_timeSchedule {c : Call} {s : State} {x : Option Sched} (h : Served cmdTimeSchedule c s)
    (hr : cmdTimeSchedule.run (begun cmdTimeSchedule.op c s) c.t.val c.payload =
      .done St.ok [] (putSched (byteAt c.payload 6) x (begun cmdTimeSchedule.op c s))) :
    ∃ z, exec (.timeSchedule c) s = .next z ∧ Answered c 0x0508 St.ok [] z ∧
      (pendingOf z.timebase (byteAt c.payload 6)).map Sched.change = x.map Sched.change ∧
      KeepsBut [.tenants, .views, .jobs, .rings, .recorder, .boot, .timebase, .out] s z := by
  refine ⟨_, command_done h hr, answered_respond .., ?_, ?_⟩
  · rw [respond_timebase]
    exact putSched_change ..
  · exact keepsBut_respond_begun (by decide) (keepsBut_mono (by decide) (keepsBut_putSched ..)) ..

/-- A schedule whose instant is 2 s away or more can still be changed (R76). -/
theorem not_late {o : Option Sched} {x : Sched} {n : Nat} (hx : o = some x)
    (hsoon : n + 2000000000 ≤ x.instant * 1000000000) :
    (o.any fun x => x.instant * 1000000000 < n + 2000000000) = false := by
  subst hx
  rw [Option.any_some, decide_eq_false_iff_not]
  exact Nat.not_lt.2 hsoon

/-- FLAGS 0x80 cancels the pending schedule (R76). -/
theorem cmdTimeSchedule_run_cancel {s : State} {p : Bytes} {o : Option Sched} (hf : followsUpstream s.timebase = false)
    (hpf : s.timebase.persistFails = false) (hx : pendingOf s.timebase (byteAt p 6) = o) (hn : o.isNone = false)
    (hlate : (o.any fun x => x.instant * 1000000000 < s.timebase.now.inNs + 2000000000) = false)
    (h80 : byteAt p 7 = 0x80) (t : Nat) :
    cmdTimeSchedule.run s t p = .done St.ok [] (putSched (byteAt p 6) none s) := by
  simp only [cmdTimeSchedule, hx, hlate]
  simp [hf, hpf, hn, h80]

/-! ### TIME_SET (R53, R63, R110) -/

/-- A step by the difference of two whole nanosecond counts leads from one to the other. -/
theorem addNs_sub {t u : Time} (ht : t.frac = 0) (hu : u.frac = 0) (hn : u.ns < 1000000000) :
    t.addNs ((u.inNs : Int) - t.inNs) = u := by
  obtain ⟨us, un, uf⟩ := u
  simp only at hu hn
  subst hu
  have hunits : ((t.units : Int) + (((us * 1000000000 + un : Nat) : Int) - t.inNs) * 65536).toNat =
      (us * 1000000000 + un) * 65536 := by
    simp only [Time.units, ht]
    omega
  simp only [Time.addNs, Time.inNs, Time.ofUnits] at hunits ⊢
  rw [hunits]
  congr 1 <;> omega

/-- What TIME_SET sets: the time, its validity, who set it, the tenants' snapshots (R110). -/
def Timebase.clock (b : Timebase) : Time × Bool × Bool × Vector Snap 8 := (b.now, b.valid, b.setByCmd, b.snap)

theorem clock_of_besidesOffsets {a b : Timebase} (h : a.besidesOffsets = b.besidesOffsets) : a.clock = b.clock :=
  (congrArg Timebase.clock h :)

/-- Time that becomes valid is otherwise as it was (R53). -/
theorem makeValid_clock (s : State) :
    (makeValid s).timebase.clock = (s.timebase.now, true, s.timebase.setByCmd, s.timebase.snap) :=
  clock_of_besidesOffsets (takeForce_besidesOffsets (s.updTb fun b => { b with valid := true, known := true }))

/-- A step moves the time and marks the snapshots (R63). -/
theorem timeStep_clock (d : Int) (s : State) :
    (timeStep d s).timebase.clock = (s.timebase.now.addNs d, s.timebase.valid, s.timebase.setByCmd,
      s.timebase.snap.map fun x => { x with stepped := true }) := by
  rw [timeStep_eq, clock_of_besidesOffsets (afterStep_besidesOffsets ..), raiseSrc_timebase]
  rfl

/-- A step that makes time valid (R53, R63). -/
theorem makeValid_timeStep_clock (d : Int) (s : State) :
    (makeValid (timeStep d s)).timebase.clock = (s.timebase.now.addNs d, true, s.timebase.setByCmd,
      s.timebase.snap.map fun x => { x with stepped := true }) := by
  have ht := timeStep_clock d s
  simp only [Timebase.clock, Prod.mk.injEq] at ht
  obtain ⟨hnow, -, hset, hsnap⟩ := ht
  rw [makeValid_clock, hnow, hset, hsnap]

/-- A step that makes time valid raises source 56 once (R63). -/
theorem raised_makeValid_timeStep (d : Int) {s : State} (hu : Up s) : Raised 56 s (makeValid (timeStep d s)) := by
  have hraised : Raised 56 s (raiseSrc 56 (s.updTb (Timebase.stepped d))) :=
    raised_raiseSrc (s := s.updTb _) (by decide) rfl hu
  rw [raised_iff] at hraised ⊢
  rw [← hraised, (steady_makeValid _).sources 56 (by decide), timeStep_eq, (steady_afterStep d _).sources 56 (by decide)]

/-- The state in which TIME_SET steps: on a whole nanosecond, the time noted as set by command (R110). -/
def wholeNs (s : State) : State := s.updTb fun b => { b with now := { b.now with frac := 0 }, setByCmd := true }

/-- TIME_SET of a module on no class T reference (R110). -/
theorem exec_timeSet {c : Call} {s : State} (h : Served cmdTimeSet c s) (hu : Up s)
    (ht : classT s.timebase.selected = false) :
    ∃ z, exec (.timeSet c) s = .next z ∧ Answered c 0x0506 St.ok [] z ∧ z.timebase.now = rdTime c.payload 0 ∧
      z.timebase.valid = true ∧ z.timebase.setByCmd = true ∧ (∀ k : Fin 8, (vat z.timebase.snap k).stepped = true) ∧
      Raised 56 s z ∧
      KeepsBut [.tenants, .views, .jobs, .loft, .rings, .recorder, .boot, .timebase, .spars, .motor, .diskq, .radio, .out,
        .free] s z := by
  have hns : (rdTime c.payload 0).ns < 1000000000 := by simpa [cmdTimeSet, callReq, rdTime] using fields_of_checks h.2
  generalize hd : ((rdTime c.payload 0).inNs : Int) - s.timebase.now.inNs = d
  generalize hy : wholeNs (begun cmdTimeSet.op c s) = y
  have hr : cmdTimeSet.run (begun cmdTimeSet.op c s) c.t.val c.payload = .done St.ok [] (makeValid (timeStep d y)) := by
    rw [← hd, ← hy]
    exact if_neg (by simpa using ht)
  have hclock := makeValid_timeStep_clock d y
  have hraised := raised_makeValid_timeStep d (s := y) (by rw [← hy]; exact hu)
  have hnow : y.timebase.now.addNs d = rdTime c.payload 0 := by
    rw [← hy, ← hd]
    exact addNs_sub (t := (wholeNs (begun cmdTimeSet.op c s)).timebase.now) rfl rfl hns
  have hparts : (makeValid (timeStep d y)).besidesTime = s.besidesTime := by
    rw [(steady_makeValid _).parts, (steady_timeStep d y).parts, ← hy]
    rfl
  obtain ⟨z, hz, ha, htb, -, hsrc, hk⟩ := command_retimes h hr hparts
  rw [← htb] at hclock
  simp only [Timebase.clock, Prod.mk.injEq, hnow] at hclock
  obtain ⟨hn, hv, hs, hsnap⟩ := hclock
  refine ⟨z, hz, ha, hn, hv, hs.trans (by rw [← hy]; rfl), fun k => ?_, ?_, hk⟩
  · simp [hsnap, vat]
  · rw [raised_iff] at hraised ⊢
    rw [hsrc 56 (by omega), hraised, ← hy]
    rfl

/-! ### What each request sets -/

/-- TIME_SET_OFFSETS without pending changes (R75). -/
theorem exec_timeSetOffsets {c : Call} {s : State} (h : Served cmdTimeSetOffsets c s)
    (hf : followsUpstream s.timebase = false) (hp : s.timebase.persistFails = false) (hu : s.unscheduled) :
    ∃ z, exec (.timeSetOffsets c) s = .next z ∧ Answered c 0x0507 St.ok [] z ∧
      z.timebase.utcOffset = rdS c.payload 0 2 ∧ z.timebase.localOffset = rdS c.payload 4 4 ∧
      (bestKeep z.boot).offsets = (rdS c.payload 0 2, rdS c.payload 4 4) ∧
      KeepsBut [.tenants, .views, .jobs, .loft, .rings, .recorder, .boot, .timebase, .spars, .motor, .diskq, .radio, .out,
        .free] s z := by
  generalize hy : keepOffsets ((begun cmdTimeSetOffsets.op c s).updTb fun b =>
    { b with utcOffset := rdS c.payload 0 2, localOffset := rdS c.payload 4 4, gnssOffered := true }) = y
  have hr : cmdTimeSetOffsets.run (begun cmdTimeSetOffsets.op c s) c.t.val c.payload = .done St.ok [] (reselect y) := by
    rw [← hy]
    simp [cmdTimeSetOffsets, hf, hp]
  have huy : y.unscheduled := by rw [← hy]; exact hu
  have hoff := ((retimed_reselect y).offsets huy).2
  have hparts : (reselect y).besidesTime = s.besidesTime := by
    rw [(retimed_reselect y).parts, ← hy]
    rfl
  obtain ⟨z, hz, ha, htb, hb, -, hk⟩ := command_retimes h hr hparts
  simp only [State.offsets, ← htb, ← hb, Prod.mk.injEq] at hoff
  obtain ⟨hutc, hloc, hboot⟩ := hoff
  refine ⟨z, hz, ha, hutc.trans (by rw [← hy]; rfl), hloc.trans (by rw [← hy]; rfl), ?_, hk⟩
  rw [hboot, ← hy]
  exact bestKeep_keepOffsets _

/-- A request that changes the timebase and selects again: the choice it leaves. -/
theorem command_reselects {cmd : Cmd} {c : Call} {s : State} {f : Timebase → Timebase} (h : Served cmd c s)
    (hr : cmd.run (begun cmd.op c s) c.t.val c.payload = .done St.ok [] (reselect ((begun cmd.op c s).updTb f))) :
    ∃ z, command cmd c s = .next z ∧ Answered c cmd.op St.ok [] z ∧ z.selection.2 = (s.updTb f).selection.2 ∧
      KeepsBut [.tenants, .views, .jobs, .loft, .rings, .recorder, .boot, .timebase, .spars, .motor, .diskq, .radio, .out,
        .free] s z := by
  obtain ⟨z, hz, ha, htb, -, -, hk⟩ := command_retimes h hr (retimed_reselect _).parts
  refine ⟨z, hz, ha, ?_, hk⟩
  have hsel := reselect_selection ((begun cmd.op c s).updTb f)
  simp only [State.selection, ← htb] at hsel ⊢
  exact hsel

/-- The timebase in which a cadence descriptor waits for its second (R98). -/
def Timebase.cadenceWaits (p : Bytes) (b : Timebase) : Timebase :=
  { b with cadence := upd b.cadence (byteAt p 0) fun x =>
      { x with pending := some (rdCad p 4, (b.now.inNs + 1000000 + 999999999) / 1000000000) } }

/-- TIME_CADENCE_SET's effect. -/
theorem cmdTimeCadenceSet_run (s : State) (t : Nat) (p : Bytes) :
    cmdTimeCadenceSet.run s t p = .done St.ok [] (s.updTb (Timebase.cadenceWaits p)) := rfl

/-- TIME_CADENCE_SET. -/
theorem exec_timeCadenceSet {c : Call} {s : State} (h : Served cmdTimeCadenceSet c s) :
    ∃ z, exec (.timeCadenceSet c) s = .next z ∧ Answered c 0x050A St.ok [] z ∧
      z.timebase = s.timebase.cadenceWaits c.payload ∧ SetsOnly [.timebase] c s z ∧ Rang (32 + c.t.val) s z :=
  command_updTb h (cmdTimeCadenceSet_run ..)

/-- The inputs that a mask names are armed (R111). -/
theorem vat_mapFinIdx_ite (v : Vector TimIn 4) (m : Nat) (g : TimIn → TimIn) (i : Fin 4) :
    vat (v.mapFinIdx fun i x _ => if m.testBit i then g x else x) i = if m.testBit i then g (vat v i) else vat v i := by
  simp [vat]

/-- Settles O17: the requests that only set fields by `command_updTb`, those that select again by `command_reselects`. -/
theorem timeRequestsSetTheTimebase : Obligations.TimeRequestsSetTheTimebase := by
  unfold Obligations.TimeRequestsSetTheTimebase
  refine ⟨fun c p s h hp => ?_, fun c p s h hp => ?_, fun c p s h hp => ?_, fun c s h => ?_, fun c s h hu ht => exec_timeSet h hu ht,
    fun c s h hf hp hl hm => exec_timeSetOffsets h hf hp ⟨hl, hm⟩, fun c p s h hp hf hpf hn h80 hok => ?_,
    fun c p x s h hp hf hpf hx hsoon h80 => ?_, fun c p s h hp => ?_, fun c p s h hp => ?_⟩
  · subst hp
    obtain ⟨z, hz, ha, hsel, hk⟩ := command_reselects h rfl
    exact ⟨z, hz, ha, (congrArg (fun x => x.2.2) hsel :), hk⟩
  · subst hp
    exact command_updTb h rfl
  · subst hp
    exact command_updTb h rfl
  · obtain ⟨z, hz, ha, hsel, hk⟩ := command_reselects h rfl
    exact ⟨z, hz, ha, (congrArg Prod.fst hsel :), (congrArg (fun x => x.2.2) hsel :), hk⟩
  · subst hp
    obtain ⟨z, hz, ha, hx, hk⟩ := exec_timeSchedule (x := some
      { instant := rd c.payload 0 6, flags := byteAt c.payload 7, value := rdS c.payload 8 4 }) h
      (by simp [cmdTimeSchedule, hf, hpf, hn, h80, hok])
    exact ⟨z, hz, ha, hx, hk⟩
  · subst hp
    obtain ⟨z, hz, ha, hx, hk⟩ := exec_timeSchedule (x := none) h
      (cmdTimeSchedule_run_cancel (s := begun cmdTimeSchedule.op c s) hf hpf hx rfl
        (by rw [begun_timebase]; exact not_late rfl hsoon) h80 _)
    exact ⟨z, hz, ha, by simpa using hx, hk⟩
  · subst hp
    exact exec_timeCadenceSet h
  · subst hp
    obtain ⟨z, hz, ha, ht, hset⟩ := command_updTb h rfl
    refine ⟨z, hz, ha, fun i => ?_, ?_, hset⟩
    · rw [ht]
      exact vat_mapFinIdx_ite ..
    · rw [ht]

end Sys2Proof.Machine
end

section
/-! ## The references: GNSS sentences, edges, qualification and selection (R54 to R62, R114, R924) -/
namespace Sys2Proof.Machine
open Sys2Proof

/-! ### One reference -/

@[simp] theorem updRef_besidesTime (c : Nat) (f : RefIn → RefIn) (s : State) :
    (s.updRef c f).besidesTime = s.besidesTime := rfl

/-- A change of a reference is seen in that reference. -/
theorem ref_updRef (k : Fin 6) (f : RefIn → RefIn) (s : State) :
    (s.updRef (k.val + 1) f).ref (k.val + 1) = f (s.ref (k.val + 1)) := by
  simp [State.ref, State.updRef, State.updTb]

/-- A change of a reference leaves the others. -/
theorem refs_updRef_of_ne {j k : Fin 6} (h : j ≠ k) (f : RefIn → RefIn) (s : State) :
    vat (s.updRef (k.val + 1) f).timebase.refs j = vat s.timebase.refs j :=
  vat_upd_ne _ _ _ _ fun e => h (Fin.ext (by omega))

/-- Selection again keeps every reference. -/
theorem reselect_refs (s : State) : (reselect s).timebase.refs = s.timebase.refs :=
  (congrArg (fun x => x.2.2) (reselect_selection s) :)

/-! ### The measurements (R55, R56, R58, R114) -/

/-- A sentence that R55 uses and whose frame or checksum is wrong is counted (R55). -/
theorem execGnssSentence_discarded {l : Bytes} {s : State} (h : s.powered = true) (hu : nmeaUsed l = true)
    (hb : nmeaBody l = none) (ms : Nat) : execGnssSentence l ms s = .next (gnssDiscard s) := by
  refine (running_next h).trans ?_
  simp [hu, hb]

/-- A sentence whose frame and checksum are right is used (R55). -/
theorem execGnssSentence_used {l body : Bytes} {s : State} (h : s.powered = true) (hu : nmeaUsed l = true)
    (hb : nmeaBody l = some body) (ms : Nat) : execGnssSentence l ms s = .next (useSentence body ms s) := by
  refine (running_next h).trans ?_
  simp [hu, hb]

/-- A GGA sentence shows that the receiver is active, and its fix quality (R55). -/
theorem useSentence_gga {body : Bytes} (hl : ((commas body).getD 0 []).length = 5)
    (hp : byteAt ((commas body).getD 0 []) 0 ≠ 0x50) (hg : slice ((commas body).getD 0 []) 2 3 = [0x47, 0x47, 0x41])
    (ms : Nat) (s : State) :
    useSentence body ms s = (s.updRef 1 fun r => { r with active := true }).updTb fun b =>
      { b with fixQuality := digits ((commas body).getD 6 []) } := by
  unfold useSentence
  dsimp only
  rw [if_neg (not_or.2 ⟨not_not.2 hl, hp⟩), if_neg (by rw [hg]; decide), if_pos hg]

/-- The loop's phase error follows an edge of the selected reference. -/
def followPhase (c : Nat) (e : Int) (s : State) : State :=
  if s.timebase.selected = c then s.updTb fun b => { b with phaseErr := e } else s

theorem followPhase_refs (c : Nat) (e : Int) (s : State) : (followPhase c e s).timebase.refs = s.timebase.refs := by
  unfold followPhase
  split <;> rfl

theorem followPhase_phaseErr (c : Nat) (e : Int) (s : State) :
    (followPhase c e s).timebase.phaseErr = if s.timebase.selected = c then e else s.timebase.phaseErr := by
  unfold followPhase
  split <;> rfl

theorem keepsBut_followPhase (c : Nat) (e : Int) (s : State) : KeepsBut [.timebase] s (followPhase c e s) := by
  unfold followPhase
  split <;> simp [KeepsBut]

/-- The GNSS reference and the PPS instant after an edge of GNSS_PPS (R56). -/
def ppsSeen (err : Int) (s : State) : State :=
  (s.updRef 1 fun r => { r with active := true, phaseErr := err - r.delayPs }).updTb fun b => { b with ppsAt := some s.up }

theorem ppsSeen_ref (err : Int) (s : State) :
    (ppsSeen err s).ref 1 = { s.ref 1 with active := true, phaseErr := err - (s.ref 1).delayPs } := ref_updRef 0 _ s

theorem execGnssPps_eq {s : State} (h : s.powered = true) (err : Int) :
    execGnssPps err s = .next (followPhase 1 ((ppsSeen err s).ref 1).phaseErr (ppsSeen err s)) := running_next h

/-- GNSS_PPS. -/
theorem exec_gnssPps {s : State} (h : s.powered = true) (err : Int) :
    ∃ z, exec (.gnssPps err) s = .next z ∧ (z.ref 1).phaseErr = err - (s.ref 1).delayPs ∧ (z.ref 1).active = true ∧
      z.timebase.ppsAt = some s.up ∧
      z.timebase.phaseErr = (if s.timebase.selected = 1 then err - (s.ref 1).delayPs else s.timebase.phaseErr) ∧
      z.timebase.now = s.timebase.now ∧ KeepsBut [.timebase] s z := by
  have href : ∀ e, (followPhase 1 e (ppsSeen err s)).ref 1 = (ppsSeen err s).ref 1 := fun e =>
    congrArg (vat · 0) (followPhase_refs ..)
  refine ⟨_, execGnssPps_eq h err, ?_, ?_, ?_, ?_, ?_, keepsBut_trans (y := ppsSeen err s) ?_ (keepsBut_followPhase ..)⟩
  · rw [href, ppsSeen_ref]
  · rw [href, ppsSeen_ref]
  · unfold followPhase
    split <;> rfl
  · rw [followPhase_phaseErr, ppsSeen_ref]
    rfl
  · unfold followPhase
    split <;> rfl
  · simp [KeepsBut, ppsSeen, State.updRef]

/-- A reference after an edge at a phase error, counted when it is out of the window while the loop follows it. -/
def RefIn.edged (e : Int) (follows : Prop) [Decidable follows] (r : RefIn) : RefIn :=
  { r with phaseErr := e, outWindow := if follows ∧ r.window * 100000 < e.natAbs then r.outWindow + 1 else 0 }

/-- REF_PPS_EDGE on an input that is enabled (R58, R114). -/
theorem execRefPpsEdge_eq {s : State} (h : s.powered = true) {k : Fin 3}
    (hk : k ≠ 2 → (s.ref (k.val + 4)).options.testBit 3 = true) (err : Int) :
    execRefPpsEdge k err s = .next (followPhase (k.val + 4) (err - (s.ref (k.val + 4)).delayPs)
      (s.updRef (k.val + 4) (RefIn.edged (err - (s.ref (k.val + 4)).delayPs)
        (s.timebase.dpll = .locked ∧ s.timebase.selected = k.val + 4)))) := by
  have hoff : ¬(k.val + 4 ≠ 6 ∧ (!(s.ref (k.val + 4)).options.testBit 3) = true) := fun ⟨h6, ho⟩ => by
    simp [hk fun e => h6 (by subst e; rfl)] at ho
  refine (running_next h).trans (congrArg Host.Outcome.next ?_)
  dsimp only
  rw [if_neg hoff]
  rfl

/-- REF_PPS_EDGE. -/
theorem exec_refPpsEdge {s : State} (h : s.powered = true) {k : Fin 3}
    (hk : k ≠ 2 → (s.ref (k.val + 4)).options.testBit 3 = true) (err : Int) :
    ∃ z, exec (.refPpsEdge k err) s = .next z ∧ (z.ref (k.val + 4)).phaseErr = err - (s.ref (k.val + 4)).delayPs ∧
      z.timebase.phaseErr =
        (if s.timebase.selected = k.val + 4 then err - (s.ref (k.val + 4)).delayPs else s.timebase.phaseErr) ∧
      (∀ j : Fin 6, j.val ≠ k.val + 3 → vat z.timebase.refs j = vat s.timebase.refs j) ∧ KeepsBut [.timebase] s z := by
  refine ⟨_, execRefPpsEdge_eq h hk err, ?_, followPhase_phaseErr .., fun j hj => ?_, keepsBut_trans ?_ (keepsBut_followPhase ..)⟩
  · rw [State.ref, followPhase_refs]
    exact congrArg RefIn.phaseErr (ref_updRef (k.addNat 3) _ s)
  · rw [followPhase_refs]
    exact refs_updRef_of_ne (k := k.addNat 3) (fun e => hj (congrArg Fin.val e)) _ s
  · simp [KeepsBut, State.updRef]

/-! ### Qualification and selection (R58, R59, R61, R924) -/

@[simp] theorem updCas_besidesCompletions (f : Cascade → Cascade) (s : State) :
    (s.updCas f).besidesCompletions = s.besidesCompletions := rfl

@[simp] theorem crumb_besidesCompletions (code sev ten : Nat) (p : Bytes) (s : State) :
    (crumb code sev ten p s).besidesCompletions = s.besidesCompletions := by
  simp [State.besidesCompletions, crumb, crumbOf]

@[simp] theorem laneSend_besidesCompletions (l type dest origin : Nat) (p : Bytes) (s : State) :
    (laneSend l type dest origin p s).besidesCompletions = s.besidesCompletions := by
  simp [laneSend]

@[simp] theorem finish_besidesCompletions (op key status : Nat) (data : Bytes) (s : State) :
    (finish op key status data s).besidesCompletions = s.besidesCompletions := by
  unfold finish
  split
  · simp
  · rfl

/-- The end of a handback changes the cascade, and what the completion of a command changes (R924). -/
theorem handbackDone_besidesCompletions (s : State) : (handbackDone s).besidesCompletions = s.besidesCompletions := by
  unfold handbackDone
  split
  · simp
  · rfl

theorem handbackDone_timebase (s : State) : (handbackDone s).timebase = s.timebase :=
  (congrArg State.timebase (handbackDone_besidesCompletions s) :)

/-- A qualified reference is selected again. -/
theorem qualify_of_unqualified {c : Nat} {s : State} (h : (s.ref c).qualified = false) :
    qualify c s = reselect (s.updRef c fun r => { r with qualified := true, qualifiedAt := s.up }) := by
  simp [qualify, h]

/-- A reference that was active at a phase error. -/
def RefIn.heard (err : Int) (r : RefIn) : RefIn := { r with active := true, phaseErr := err }

/-- A reference that qualified at an instant. -/
def RefIn.passed (now : Nat) (r : RefIn) : RefIn := { r with qualified := true, qualifiedAt := now }

/-- The state with a reference heard and qualified, none selected again yet. -/
def passRef (k : Fin 6) (err : Int) (s : State) : State :=
  (s.updRef (k.val + 1) (RefIn.heard err)).updRef (k.val + 1) (RefIn.passed s.up)

theorem passRef_ref (k : Fin 6) (err : Int) (s : State) :
    (passRef k err s).ref (k.val + 1) = ((s.ref (k.val + 1)).heard err).passed s.up :=
  (ref_updRef k _ _).trans (congrArg _ (ref_updRef k _ s))

theorem refs_passRef_of_ne {j k : Fin 6} (h : j ≠ k) (err : Int) (s : State) :
    vat (passRef k err s).timebase.refs j = vat s.timebase.refs j :=
  (refs_updRef_of_ne h _ _).trans (refs_updRef_of_ne h _ s)

/-- A reference that was not qualified and stayed good long enough qualifies (R58). -/
theorem execRefQualified_eq {k : Fin 6} {forS : Nat} {s : State} (h : s.powered = true)
    (hq : (s.ref (k.val + 1)).qualified = false) (hf : (s.ref (k.val + 1)).qualify ≤ forS)
    (hm : mayQualify s (k.val + 1) = true) (err : Int) :
    execRefQualified k forS err s = .next (handbackDone (reselect (passRef k err s))) := by
  have hq1 : ((s.updRef (k.val + 1) (RefIn.heard err)).ref (k.val + 1)).qualified = false := by rw [ref_updRef]; exact hq
  refine (running_next h).trans (congrArg Host.Outcome.next ?_)
  rw [if_pos ⟨hf, hm⟩]
  exact congrArg handbackDone (qualify_of_unqualified hq1)

/-- REF_QUALIFIED. -/
theorem exec_refQualified {k : Fin 6} {forS : Nat} {s : State} (h : s.powered = true)
    (hq : (s.ref (k.val + 1)).qualified = false) (hf : (s.ref (k.val + 1)).qualify ≤ forS)
    (hm : mayQualify s (k.val + 1) = true) (err : Int) :
    ∃ z, exec (.refQualified k forS err) s = .next z ∧ (z.ref (k.val + 1)).qualified = true ∧
      (z.ref (k.val + 1)).qualifiedAt = s.up ∧ (z.ref (k.val + 1)).phaseErr = err ∧
      (∀ j : Fin 6, j ≠ k → vat z.timebase.refs j = vat s.timebase.refs j) ∧
      KeepsBut [.tenants, .views, .jobs, .loft, .rings, .recorder, .boot, .timebase, .spars, .motor, .diskq, .radio, .keys,
        .cascade, .out, .free] s z := by
  have hrefs : (handbackDone (reselect (passRef k err s))).timebase.refs = (passRef k err s).timebase.refs := by
    rw [handbackDone_timebase, reselect_refs]
  have href : (handbackDone (reselect (passRef k err s))).ref (k.val + 1) = ((s.ref (k.val + 1)).heard err).passed s.up :=
    (congrArg (vat · k.val) hrefs).trans (passRef_ref k err s)
  refine ⟨_, execRefQualified_eq h hq hf hm err, by rw [href]; rfl, by rw [href]; rfl, by rw [href]; rfl, fun j hj => ?_,
    keepsBut_trans (y := reselect (passRef k err s)) ?_ ?_⟩
  · rw [hrefs]
    exact refs_passRef_of_ne hj err s
  · exact keepsBut_mono (by decide) (keepsBut_of_besidesTime (retimed_reselect _).parts)
  · exact keepsBut_mono (by decide) (keepsBut_of_besidesCompletions (handbackDone_besidesCompletions _))

/-- A raise of the source of a lost reference (Table TIM.12). -/
def raiseLost (c : Nat) (s : State) : State :=
  match refLostSrc c with
  | some x => raiseSrc x s
  | none => s

/-- A reference that lost its qualification for a cause (Table TIM.22). -/
def RefIn.lost (cause : Nat) (r : RefIn) : RefIn :=
  { r with qualified := false, lastCause := cause, disqualified := inc32 r.disqualified, outWindow := 0, qualifiedAt := 0 }

theorem disqualify_of_qualified {c : Nat} {s : State} (h : (s.ref c).qualified = true) (cause : Nat) :
    disqualify c cause s = reselect (raiseLost c (s.updRef c (RefIn.lost cause))) := by
  unfold disqualify
  rw [if_neg (by simp [h])]
  rfl

theorem raiseLost_timebase (c : Nat) (s : State) : (raiseLost c s).timebase = s.timebase := by
  unfold raiseLost
  split <;> simp

theorem raiseLost_besidesTime (c : Nat) (s : State) : (raiseLost c s).besidesTime = s.besidesTime := by
  unfold raiseLost
  split <;> simp

/-- The references after one lost its qualification. -/
theorem disqualify_refs {c : Nat} {s : State} (h : (s.ref c).qualified = true) (cause : Nat) :
    (disqualify c cause s).timebase.refs = (s.updRef c (RefIn.lost cause)).timebase.refs := by
  rw [disqualify_of_qualified h, reselect_refs, raiseLost_timebase]

/-- A lost reference changes only the parts of a change of time. -/
theorem disqualify_besidesTime (c cause : Nat) (s : State) : (disqualify c cause s).besidesTime = s.besidesTime := by
  by_cases h : (s.ref c).qualified = true
  · rw [disqualify_of_qualified h, (retimed_reselect _).parts, raiseLost_besidesTime, updRef_besidesTime]
  · simp [disqualify, h]

/-- A source of a lost reference is an external one, below those of the radio. -/
theorem refLostSrc_mem {c x : Nat} (h : refLostSrc c = some x) : x ∈ [48, 49, 50, 51, 52] := by
  unfold refLostSrc at h
  split at h <;> simp_all

/-- The source of a lost reference is raised once. -/
theorem raised_disqualify {c x : Nat} {s : State} (h : (s.ref c).qualified = true) (hu : Up s) (hx : refLostSrc c = some x)
    (cause : Nat) : Raised x s (disqualify c cause s) := by
  have hmem := refLostSrc_mem hx
  have hold : ∀ y ∈ [48, 49, 50, 51, 52], y < 128 ∧ radioSource y = false ∧ y ∉ switchSources := by decide
  obtain ⟨hlt, hradio, hsw⟩ := hold x hmem
  have hraise : Raised x (s.updRef c (RefIn.lost cause)) (raiseSrc x (s.updRef c (RefIn.lost cause))) :=
    raised_raiseSrc hlt hradio hu
  rw [disqualify_of_qualified h, raised_iff, (retimed_reselect _).sources x hsw]
  simp only [raiseLost, hx]
  exact (raised_iff ..).1 hraise

/-- A reference that is not qualified is not the one selected again. -/
theorem reselect_selected_ne {c : Nat} {s : State} (hc : c ≠ 0) (h : (s.ref c).qualified = false) :
    (reselect s).timebase.selected ≠ c := by
  intro e
  rcases reselect_selected s with h0 | ho
  · exact hc (e.symm.trans h0)
  · rw [e] at ho
    simp [offered, h] at ho

/-- REF_DISQUALIFIED. -/
theorem exec_refDisqualified {k : Fin 6} {cause : Nat} {s : State} (hu : Up s) (hq : (s.ref (k.val + 1)).qualified = true)
    (hc : causeHolds s (k.val + 1) cause = true) :
    ∃ z, exec (.refDisqualified k cause) s = .next z ∧ (z.ref (k.val + 1)).qualified = false ∧
      (z.ref (k.val + 1)).lastCause = cause ∧
      (z.ref (k.val + 1)).disqualified = inc32 (s.ref (k.val + 1)).disqualified ∧ z.timebase.selected ≠ k.val + 1 ∧
      (∀ x, refLostSrc (k.val + 1) = some x → Raised x s z) ∧
      (∀ j : Fin 6, j ≠ k → vat z.timebase.refs j = vat s.timebase.refs j) ∧ KeepsBut timeParts s z := by
  have hrun : execRefDisqualified k cause s = .next (disqualify (k.val + 1) cause s) :=
    (running_next hu.1).trans (congrArg Host.Outcome.next (if_pos hc))
  have href : (disqualify (k.val + 1) cause s).ref (k.val + 1) = (s.ref (k.val + 1)).lost cause := by
    rw [State.ref, disqualify_refs hq]
    exact ref_updRef k _ s
  refine ⟨_, hrun, by rw [href]; rfl, by rw [href]; rfl, by rw [href]; rfl, ?_, fun x hx => raised_disqualify hq hu hx _,
    fun j hj => ?_, keepsBut_of_besidesTime (disqualify_besidesTime ..)⟩
  · rw [disqualify_of_qualified hq]
    refine reselect_selected_ne (by omega) ?_
    rw [State.ref, raiseLost_timebase]
    exact congrArg RefIn.qualified (ref_updRef k _ s)
  · rw [disqualify_refs hq]
    exact refs_updRef_of_ne hj _ s

/-- A reference that is better than another is another one (R59). -/
theorem ne_of_better {s : State} {a b : Nat} (h : better s a b = true) : a ≠ b := by
  rintro rfl
  simp [better] at h

/-- A change to another reference raises source 53 once (R59, Table TIM.12). -/
theorem raised_switchRef {c : Nat} {s : State} (hu : Up s) (h : c ≠ s.timebase.selected) : Raised 53 s (switchRef c s) := by
  have hraise : Raised 53 (choose c s) (raiseSrc 53 (choose c s)) := raised_raiseSrc (by decide) (by decide) hu
  rw [switchRef_eq, if_neg h, raised_iff, (steady_afterSwitch _ _).sources 53 (by decide)]
  exact (raised_iff ..).1 hraise

/-- A change of the selection keeps every reference. -/
theorem switchRef_refs (c : Nat) (s : State) : (switchRef c s).timebase.refs = s.timebase.refs :=
  (congrArg (fun x => x.2.2.2) (switchRef_selection c s) :)

/-- The measured phase of a reference. -/
def RefIn.measured (err : Int) (r : RefIn) : RefIn := { r with phaseErr := err }

/-- WAIT_TO_RESTORE. -/
theorem exec_waitToRestore {k : Fin 6} {forS : Nat} {s : State} (hu : Up s) (hr : s.timebase.revertive = true)
    (h0 : s.timebase.selected ≠ 0) (ho : offered s (k.val + 1) = true)
    (hb : better s (k.val + 1) s.timebase.selected = true) (hw : s.timebase.wtr ≤ forS) (hbest : bestRef s = k.val + 1)
    (err : Int) :
    ∃ z, exec (.waitToRestore k forS err) s = .next z ∧ z.timebase.selected = k.val + 1 ∧ Raised 53 s z ∧
      (z.ref (k.val + 1)).phaseErr = err ∧ KeepsBut timeParts s z := by
  have hrun : execWaitToRestore k forS err s =
      .next (switchRef (k.val + 1) (s.updRef (k.val + 1) (RefIn.measured err))) :=
    (running_next hu.1).trans (congrArg Host.Outcome.next (if_pos ⟨hr, h0, ho, hb, hw, hbest⟩))
  refine ⟨_, hrun, (congrArg Prod.fst (switchRef_selection ..) :),
    raised_switchRef (s := s.updRef (k.val + 1) (RefIn.measured err)) hu (ne_of_better hb), ?_,
    keepsBut_of_besidesTime (retimed_switchRef _ (s.updRef (k.val + 1) (RefIn.measured err))).parts⟩
  rw [State.ref, switchRef_refs]
  exact congrArg RefIn.phaseErr (ref_updRef k _ s)

/-- Settles O18: sentences and edges by the one change each makes; qualification and selection by what selection again
retimes (`retimed_reselect`, `retimed_switchRef`) and by the references it keeps. -/
theorem referencesAreMeasuredAndSelected : Obligations.ReferencesAreMeasuredAndSelected := by
  unfold Obligations.ReferencesAreMeasuredAndSelected
  refine ⟨fun l ms s h hu hb => ⟨_, execGnssSentence_discarded h hu hb ms, rfl, by simp [KeepsBut, gnssDiscard, State.updRef]⟩,
    fun l body ms s h hu hb hl hp hg => ?_, fun err s h => exec_gnssPps h err, fun k err s h hk => exec_refPpsEdge h hk err,
    fun k forS err s h hq hf hm => exec_refQualified h hq hf hm err,
    fun k cause s hu hq hc => exec_refDisqualified hu hq hc,
    fun k forS err s hu hr h0 ho hb hw hbest => exec_waitToRestore hu hr h0 ho hb hw hbest err⟩
  refine ⟨_, execGnssSentence_used h hu hb ms, ?_⟩
  rw [useSentence_gga hl hp hg]
  exact ⟨rfl, by simp [KeepsBut, State.updRef]⟩

end Sys2Proof.Machine
end

section
/-! ## The DPLL's update and transitions, and the loss of OSC_IN (R65 to R74, R1079) -/
namespace Sys2Proof.Machine
open Sys2Proof

/-! ### The update (R62, R66, R71 to R74) -/

/-- The code of an update is one of the DAC's width, when the initial code is (R72, R74). -/
theorem nextSteer_lt {s : State} (hi : ∀ i ∈ s.timebase.initialCode, i < 2 ^ s.timebase.dacBits)
    (h0 : 0 < s.timebase.dacBits) : nextSteer s < 2 ^ s.timebase.dacBits := by
  have hpos := Nat.two_pow_pos s.timebase.dacBits
  have hmin : ∀ x, min (2 ^ s.timebase.dacBits - 1) x < 2 ^ s.timebase.dacBits := fun x => by omega
  have hmid : 2 ^ (s.timebase.dacBits - 1) < 2 ^ s.timebase.dacBits := Nat.pow_lt_pow_right (by decide) (by omega)
  unfold nextSteer
  dsimp only
  split
  · split
    · cases hc : s.timebase.initialCode with
      | none => exact hmid
      | some i => exact hi i hc
    · exact hmin _
  all_goals exact hmin _

/-- The first code in FREERUN is the initial one, mid-scale without one (R73). -/
theorem nextSteer_first {s : State} (hd : s.timebase.dpll = .freerun) (hl : s.timebase.steerLog = []) :
    nextSteer s = s.timebase.initialCode.getD (2 ^ (s.timebase.dacBits - 1)) := by
  simp [nextSteer, hd, hl]

/-- The code in HOLDOVER is the averaged one (R66). -/
theorem nextSteer_holdover {s : State} (hd : s.timebase.dpll = .holdover) :
    nextSteer s = min (2 ^ s.timebase.dacBits - 1) (s.timebase.holdCode.getD s.timebase.steer) := by
  simp [nextSteer, hd]

/-- An update slews time by at most SLEW_LIMIT (R62). -/
theorem natAbs_slewPart_le (b : Timebase) : (slewPart b).natAbs ≤ b.slewLimit := by
  unfold slewPart
  omega

/-- The loop's measured phase error. -/
def Timebase.phased (ph : Int) (b : Timebase) : Timebase := { b with phaseErr := ph }

/-- The timebase after an update that sent a code at an instant. -/
def Timebase.steered (up code : Nat) (b : Timebase) : Timebase :=
  { b with
      steer := code, freqCorr := freqOf b code
      steerLog := ((up, code) :: b.steerLog).filter fun x => up ≤ x.1 + 3602000000
      now := b.now.addNs (slewPart b), slewNs := b.slewNs - slewPart b
      lockedUs := if b.dpll = .locked then b.lockedUs + 10000 else b.lockedUs }

/-- DPLL_UPDATE: one DAC frame, then the timebase of the code sent. -/
theorem execDpllUpdate_eq {s : State} (h : s.powered = true) (ph : Int) :
    execDpllUpdate ph s = .next (((s.updTb (Timebase.phased ph)).emit (.dac (s.timebase.dacPrefix * 2 ^ s.timebase.dacBits +
      nextSteer (s.updTb (Timebase.phased ph))))).updTb (Timebase.steered s.up (nextSteer (s.updTb (Timebase.phased ph))))) :=
  running_next h

/-- DPLL_UPDATE. -/
theorem exec_dpllUpdate {s : State} (h : s.powered = true)
    (hi : ∀ i ∈ s.timebase.initialCode, i < 2 ^ s.timebase.dacBits) (h0 : 0 < s.timebase.dacBits) (ph : Int) :
    ∃ z, exec (.dpllUpdate ph) s = .next z ∧
      z.out = .dac (s.timebase.dacPrefix * 2 ^ s.timebase.dacBits + z.timebase.steer) :: s.out ∧
      z.timebase.steer < 2 ^ s.timebase.dacBits ∧ z.timebase.now = s.timebase.now.addNs (slewPart s.timebase) ∧
      z.timebase.slewNs = s.timebase.slewNs - slewPart s.timebase ∧ (slewPart s.timebase).natAbs ≤ s.timebase.slewLimit ∧
      z.timebase.phaseErr = ph ∧
      (s.timebase.dpll = .freerun → s.timebase.steerLog = [] →
        z.timebase.steer = s.timebase.initialCode.getD (2 ^ (s.timebase.dacBits - 1))) ∧
      (s.timebase.dpll = .holdover →
        z.timebase.steer = min (2 ^ s.timebase.dacBits - 1) (s.timebase.holdCode.getD s.timebase.steer)) ∧
      z.timebase.dpll = s.timebase.dpll ∧ KeepsBut [.timebase, .out] s z :=
  ⟨_, execDpllUpdate_eq h ph, rfl, nextSteer_lt (s := s.updTb (Timebase.phased ph)) hi h0, rfl, rfl, natAbs_slewPart_le _,
    rfl, nextSteer_first (s := s.updTb (Timebase.phased ph)), nextSteer_holdover (s := s.updTb (Timebase.phased ph)), rfl,
    by simp [KeepsBut]⟩

/-! ### Time becomes invalid (R68, R102, R1079) -/

theorem loseValid_of_valid {s : State} (h : s.timebase.valid = true) :
    loseValid s = holdCadence (raiseSrc 63 (s.updTb fun b => { b with valid := false, setByCmd := false })) := by
  simp [loseValid, h]

theorem loseValid_of_invalid {s : State} (h : s.timebase.valid = false) : loseValid s = s := by
  simp [loseValid, h]

/-- Time that is lost is not valid. -/
theorem loseValid_valid (s : State) : (loseValid s).timebase.valid = false := by
  cases h : s.timebase.valid with
  | false => rw [loseValid_of_invalid h, h]
  | true => simp [loseValid_of_valid h, holdCadence]

theorem loseValid_dpll (s : State) : (loseValid s).timebase.dpll = s.timebase.dpll := by
  cases h : s.timebase.valid with
  | false => rw [loseValid_of_invalid h]
  | true => simp [loseValid_of_valid h, holdCadence]

/-- Lost time keeps the references and the choice among them. -/
theorem steady_loseValid (s : State) : Steady [63] s (loseValid s) := by
  unfold loseValid
  split
  · exact (steady_updTb rfl id rfl).trans ((steady_raiseSrc (by decide) _).trans (steady_updTb rfl id rfl))
  · exact .refl ..

theorem raised_loseValid {s : State} (hu : Up s) (h : s.timebase.valid = true) : Raised 63 s (loseValid s) := by
  rw [loseValid_of_valid h]
  exact raised_raiseSrc (s := s.updTb fun b => { b with valid := false, setByCmd := false }) (by decide) (by decide) hu

theorem keepsBut_loseValid (s : State) : KeepsBut [.timebase, .views, .out] s (loseValid s) := by
  unfold loseValid
  split <;> simp [KeepsBut, holdCadence]

/-! ### The loss of OSC_IN (R1079) -/

/-- A reference that loses its qualification leaves OSC_IN. -/
theorem disqualify_oscPresent (c cause : Nat) (s : State) :
    (disqualify c cause s).timebase.oscPresent = s.timebase.oscPresent := by
  by_cases h : (s.ref c).qualified = true
  · rw [disqualify_of_qualified h]
    have hsel := congrArg (fun x => x.2.1) (reselect_selection (raiseLost c (s.updRef c (RefIn.lost cause))))
    simp only [State.selection, raiseLost_timebase] at hsel
    exact hsel
  · simp [disqualify, h]

/-- Without OSC_IN no reference is selected again (R1079). -/
theorem reselect_selected_of_absent {s : State} (h : s.timebase.oscPresent = false) : (reselect s).timebase.selected = 0 := by
  refine (reselect_selected s).resolve_right fun ho => ?_
  simp [offered, h] at ho

theorem disqualify_selected_of_absent {s : State} (h : s.timebase.oscPresent = false) (c cause : Nat) :
    (disqualify c cause s).timebase.selected = 0 ∨ (disqualify c cause s).timebase.selected = s.timebase.selected := by
  by_cases hq : (s.ref c).qualified = true
  · rw [disqualify_of_qualified hq]
    refine .inl (reselect_selected_of_absent ?_)
    rw [raiseLost_timebase]
    exact h
  · simp [disqualify, hq]

/-- A reference that loses its qualification is not qualified. -/
theorem disqualify_unqualified {c : Nat} (hc : c - 1 < 6) (cause : Nat) (s : State) :
    ((disqualify c cause s).ref c).qualified = false := by
  by_cases h : (s.ref c).qualified = true
  · rw [State.ref, disqualify_refs h]
    exact congrArg RefIn.qualified (vat_upd_self _ _ _ hc)
  · simp [disqualify, h]

/-- A reference that is not qualified stays so while another one is lost. -/
theorem disqualify_keeps_unqualified {j : Nat} {s : State} (hj : (s.ref j).qualified = false) (c cause : Nat) :
    ((disqualify c cause s).ref j).qualified = false := by
  by_cases h : (s.ref c).qualified = true
  · rw [State.ref, disqualify_refs h]
    simp only [State.updRef, State.updTb, vat_upd]
    split
    · rfl
    · exact hj
  · simpa [disqualify, h] using hj

/-- References lost one after another. -/
def loseRefs (l : List Nat) (s : State) : State := l.foldl (fun s c => disqualify c 1 s) s

/-- A reference that was lost is not qualified at the end. -/
theorem loseRefs_unqualified {c : Nat} (hc : c - 1 < 6) (l : List Nat) (s : State)
    (h : c ∈ l ∨ (s.ref c).qualified = false) : ((loseRefs l s).ref c).qualified = false := by
  induction l generalizing s with
  | nil => exact h.resolve_left List.not_mem_nil
  | cons a l ih =>
    refine ih (disqualify a 1 s) ?_
    rcases h with h | h
    · rcases List.mem_cons.1 h with rfl | h
      · exact .inr (disqualify_unqualified hc 1 s)
      · exact .inl h
    · exact .inr (disqualify_keeps_unqualified h a 1)

/-- Lost references change only the parts of a change of time. -/
theorem loseRefs_besidesTime (l : List Nat) (s : State) : (loseRefs l s).besidesTime = s.besidesTime :=
  foldl_keep State.besidesTime _ (fun c s => disqualify_besidesTime c 1 s) l s

/-- Without OSC_IN lost references leave the selected one, or none. -/
theorem loseRefs_selected_of_absent {s : State} (h : s.timebase.oscPresent = false) (l : List Nat) :
    (loseRefs l s).timebase.oscPresent = false ∧
      ((loseRefs l s).timebase.selected = 0 ∨ (loseRefs l s).timebase.selected = s.timebase.selected) := by
  refine foldl_ok (fun z : State => z.timebase.oscPresent = false ∧
    (z.timebase.selected = 0 ∨ z.timebase.selected = s.timebase.selected)) _ (fun c z hz => ?_) l s ⟨h, .inr rfl⟩
  obtain ⟨hosc, hsel⟩ := hz
  refine ⟨(disqualify_oscPresent ..).trans hosc, ?_⟩
  rcases disqualify_selected_of_absent hosc c 1 with h0 | hkeep
  · exact .inl h0
  · rwa [hkeep]

/-- The state after the loss of OSC_IN: every reference lost, nothing else done yet. -/
def oscLost (s : State) : State := loseRefs [1, 2, 3, 4, 5, 6] (s.updTb fun b => { b with oscPresent := false })

theorem oscLost_selection (s : State) : (oscLost s).timebase.oscPresent = false ∧
    ((oscLost s).timebase.selected = 0 ∨ (oscLost s).timebase.selected = s.timebase.selected) := by
  unfold oscLost
  exact loseRefs_selected_of_absent (s := s.updTb fun b => { b with oscPresent := false }) rfl _

theorem oscLost_unqualified (i : Fin 6) (s : State) : (vat (oscLost s).timebase.refs i).qualified = false := by
  have hmem : i.val + 1 ∈ [1, 2, 3, 4, 5, 6] := by fin_cases i <;> decide
  unfold oscLost
  exact loseRefs_unqualified (c := i.val + 1) i.isLt _ _ (.inl hmem)

theorem oscLost_besidesTime (s : State) : (oscLost s).besidesTime = s.besidesTime := loseRefs_besidesTime ..

theorem execOscInLoss_eq {s : State} {n : Nat} (h : s.powered = true) (hn : 4 ≤ n) (ho : s.timebase.oscPresent = true) :
    execOscInLoss n s = .next (loseValid (dpllTo .freerun (oscLost s))) := by
  refine (running_next h).trans (congrArg Host.Outcome.next ?_)
  rw [if_neg (by simp [ho, hn])]
  rfl

/-- OSC_IN_LOSS. -/
theorem exec_oscInLoss {s : State} {n : Nat} (h : s.powered = true) (hn : 4 ≤ n) (ho : s.timebase.oscPresent = true) :
    ∃ z, exec (.oscInLoss n) s = .next z ∧ z.timebase.oscPresent = false ∧ z.timebase.dpll = .freerun ∧
      z.timebase.valid = false ∧ (∀ i : Fin 6, (vat z.timebase.refs i).qualified = false) ∧
      (z.timebase.selected = 0 ∨ s.timebase.selected = z.timebase.selected) ∧ KeepsBut timeParts s z := by
  have hsteady : Steady [63] (oscLost s) (loseValid (dpllTo .freerun (oscLost s))) :=
    (steady_dpllTo ..).trans (steady_loseValid _)
  have hsel := hsteady.selection
  simp only [State.selection, Prod.mk.injEq] at hsel
  obtain ⟨hselected, -, hosc, hrefs⟩ := hsel
  obtain ⟨hosc0, hsel0⟩ := oscLost_selection s
  refine ⟨_, execOscInLoss_eq h hn ho, hosc.trans hosc0, loseValid_dpll _, loseValid_valid _, fun i => ?_, ?_,
    keepsBut_of_besidesTime (hsteady.parts.trans (oscLost_besidesTime s))⟩
  · rw [hrefs, oscLost_unqualified]
  · rw [hselected]
    exact hsel0.imp_right Eq.symm

/-- Settles O19: the update by `execDpllUpdate_eq`, the transitions by the one change each makes, the loss of OSC_IN by
the references lost one after another (`loseRefs`). -/
theorem dpllSteersAndChangesState : Obligations.DpllSteersAndChangesState := by
  unfold Obligations.DpllSteersAndChangesState
  refine ⟨fun ph s h hi h0 => exec_dpllUpdate h hi h0 ph, fun ns f ms s h hd hns hf hms => ?_, fun ns ms s h hd hns hms => ?_,
    fun sec s hu hd h0 hl hv => ?_, fun ms s hu hms hend => ?_, fun n s h hn ho => exec_oscInLoss h hn ho,
    fun ms s h hms => ?_⟩
  · have hrun : execDpllLocked ns f ms s = .next (dpllTo .locked s) :=
      (running_next h).trans (congrArg Host.Outcome.next (if_pos ⟨hd, hns, hf, hms⟩))
    exact ⟨_, hrun, by simp [dpllTo, hd], by simp [KeepsBut, dpllTo]⟩
  · have hrun : execDpllPhaseLoss ns ms s = .next (dpllTo .acquire s) :=
      (running_next h).trans (congrArg Host.Outcome.next (if_pos ⟨hd, hns, hms⟩))
    exact ⟨_, hrun, by simp [dpllTo, hd], by simp [KeepsBut, dpllTo]⟩
  · have hrun : execHoldoverLimit sec s = .next (loseValid s) :=
      (running_next hu.1).trans (congrArg Host.Outcome.next (if_pos ⟨hd, h0, hl⟩))
    exact ⟨_, hrun, loseValid_valid s, raised_loseValid hu hv, (loseValid_dpll s).trans hd, keepsBut_loseValid s⟩
  · have hrun : execSteerLimit ms s = .next (raiseSrc 62 s) :=
      (running_next hu.1).trans (congrArg Host.Outcome.next (if_pos ⟨hms, hend⟩))
    exact ⟨_, hrun, raised_raiseSrc (by decide) (by decide) hu, by simp [KeepsBut]⟩
  · have hrun : execOscInRestored ms s = .next (s.updTb fun b => { b with oscPresent := true }) :=
      (running_next h).trans (congrArg Host.Outcome.next (if_pos hms))
    exact ⟨_, hrun, rfl, by simp [KeepsBut]⟩

end Sys2Proof.Machine
end

section
/-! ## Snapshots, schedules, the spine, cadence outputs and TIM_IN (R80 to R90, R98, R105 to R107, R121) -/
namespace Sys2Proof.Machine
open Sys2Proof

/-! ### Scheduled changes (R80, R82) -/

/-- An update of the keepsake area leaves the stage of the boot (R293). -/
theorem keepUpdate_campel (f : KeepCopy → KeepCopy) (s : State) : (keepUpdate f s).campel = s.campel := by
  simp only [keepUpdate, State.updBoot, State.campel]
  split <;> rfl


/-- A pending leap second alone, whose instant has come, takes force at its instant. -/
theorem takeForce_leap {s : State} {x : Sched} (hk : s.timebase.known = true) (hp : s.supply.pfail = false)
    (hl : s.timebase.leap = some x) (hx : x.instant ≤ s.timebase.now.sec) (hm : s.timebase.localSched = none) :
    takeForce s = forceAt x.instant s := by
  have hfirst : forceFirst s = forceAt x.instant s := by simp [forceFirst, dueAt, hl, hm, hx]
  have hnone : (forceAt x.instant s).unscheduled := by
    simp [State.unscheduled, forceAt_timebase, Timebase.changedAt, hl, hm]
  rw [takeForce, hk, hp, hfirst]
  exact forceFirst_of_unscheduled hnone

/-- Changes that take force raise source 58 once (R80). -/
theorem raised_forceAt {s : State} (hu : Up s) (i : Nat) : Raised 58 s (forceAt i s) := by
  have hup : Up (keepOffsets (s.updTb (Timebase.changedAt i))) := by
    obtain ⟨hp, hc, hh⟩ := hu
    exact ⟨hp, (keepUpdate_campel ..).trans hc, hh⟩
  have hraise := raised_raiseSrc (src := 58) (by decide) (by decide) hup
  rw [forceAt_eq, offsetRecord, raised_iff, record_source (by decide)]
  exact (raised_iff ..).1 hraise

/-- Changes that take force are persisted (R75, R80). -/
theorem forceAt_kept {s : State} (hc : s.campel = true) (i : Nat) :
    (bestKeep (forceAt i s).boot).offsets = ((s.timebase.changedAt i).utcOffset, (s.timebase.changedAt i).localOffset) := by
  have hboot : (forceAt i s).boot = (keepOffsets (s.updTb (Timebase.changedAt i))).boot := by
    have hcampel : (raiseSrc 58 (keepOffsets (s.updTb (Timebase.changedAt i)))).drawn.campel = true := by
      have hkept : (keepOffsets (s.updTb (Timebase.changedAt i))).campel = true := (keepUpdate_campel ..).trans hc
      simpa [State.campel, State.drawn] using hkept
    rw [forceAt_eq, offsetRecord, record_boot_of_campel hcampel]
    exact raiseSrc_boot ..
  rw [hboot, bestKeep_keepOffsets]
  rfl

theorem keepsBut_forceAt (i : Nat) (s : State) :
    KeepsBut [.views, .recorder, .boot, .timebase, .out, .free] s (forceAt i s) := by
  rw [forceAt_eq]
  simp [KeepsBut, offsetRecord, keepOffsets, keepUpdate]

/-- SCHEDULE_INSTANT with a pending leap second. -/
theorem exec_scheduleInstant {s : State} {x : Sched} (hu : Up s) (hk : s.timebase.known = true)
    (hp : s.supply.pfail = false) (hl : s.timebase.leap = some x) (hx : x.instant ≤ s.timebase.now.sec)
    (hm : s.timebase.localSched = none) :
    ∃ z, exec .scheduleInstant s = .next z ∧ z.timebase = { s.timebase with utcOffset := x.value, leap := none } ∧
      Raised 58 s z ∧ (bestKeep z.boot).offsets = (x.value, s.timebase.localOffset) ∧
      KeepsBut [.views, .recorder, .boot, .timebase, .out, .free] s z := by
  have hrun : execScheduleInstant s = .next (forceAt x.instant s) :=
    (running_next hu.1).trans (congrArg Host.Outcome.next (takeForce_leap hk hp hl hx hm))
  have hchange : s.timebase.changedAt x.instant = { s.timebase with utcOffset := x.value, leap := none } := by
    simp [Timebase.changedAt, hl, hm]
  refine ⟨_, hrun, (forceAt_timebase ..).trans hchange, raised_forceAt hu _, ?_, keepsBut_forceAt ..⟩
  rw [forceAt_kept hu.2.1, hchange]

/-- A leap second alone that comes within 86,400 s is marked and raises source 59 (R82). -/
theorem warnScheds_leap {s : State} {x : Sched} (hl : s.timebase.leap = some x) (hw : x.warned = false)
    (hx : x.instant ≤ s.timebase.now.sec + 86400) (hm : s.timebase.localSched = none) :
    warnScheds s = raiseSrc 59 (s.updTb fun b => { b with leap := some { x with warned := true } }) := by
  simp [warnScheds, State.updTb, hl, hw, hx, hm]

/-! ### The spine (R86 to R88, R121) -/

/-- A breadcrumb that the recorder takes leaves the boot, so that it changes the recorder, the views and what leaves the
device. -/
theorem keepsBut_crumbOf {s : State} (hc : s.campel = true) (isl src code sev ten : Nat) (p : Bytes) :
    KeepsBut [.recorder, .views, .out] s (crumbOf isl src code sev ten p s) := by
  have hboot : (crumbOf isl src code sev ten p s).boot = s.boot := record_boot_of_campel hc _
  simp [KeepsBut, hboot]

/-- A change of the timebase with a breadcrumb: the timebase, the record, what else changes. -/
theorem crumbOf_updTb {s : State} (hu : Up s) (hr : CanRecord s) (f : Timebase → Timebase)
    (isl src code sev ten : Nat) (p : Bytes) :
    (crumbOf isl src code sev ten p (s.updTb f)).timebase = f s.timebase ∧
      Recorded code sev ten s (crumbOf isl src code sev ten p (s.updTb f)) ∧
      KeepsBut [.timebase, .recorder, .views, .out] s (crumbOf isl src code sev ten p (s.updTb f)) := by
  have hupd : KeepsBut [.timebase, .recorder, .views, .out] s (s.updTb f) := by simp [KeepsBut]
  exact ⟨crumbOf_timebase .., recorded_crumbOf (s := s.updTb f) hu.1 hu.2.1 hr ..,
    keepsBut_trans hupd (keepsBut_mono (by decide) (keepsBut_crumbOf (s := s.updTb f) hu.2.1 ..))⟩

/-- SPINE_FRAME with a good frame on an island whose calibration was not lost. -/
theorem execSpineFrame_good {s : State} {i : Fin 16} {b : Nat} (h : s.powered = true) (hb : spineOk b = true)
    (hl : (vat s.timebase.cal i).lostAt = none) :
    execSpineFrame i b s = .next (s.updTb fun t => { t with cal := upd t.cal i fun c => { c with bad := 0, good := 0 } }) := by
  refine (running_next h).trans (congrArg Host.Outcome.next ?_)
  dsimp only
  rw [if_pos hb, if_neg (by simp [hl])]
  refine congrArg (fun v => s.updTb fun t => { t with cal := v }) (upd_congr _ _ ?_)
  simp [hl]

/-- The calibration of an island after its third bad frame in a row (R87). -/
def SpineCal.lost (now : Nat) (c : SpineCal) : SpineCal := { c with valid := false, bad := 3, good := 0, lostAt := some now }

/-- SPINE_FRAME with the third bad frame in a row, on an island that is not the cascade's. -/
theorem execSpineFrame_lost {s : State} {i : Fin 16} {b : Nat} (h : s.powered = true) (hb : spineOk b = false)
    (hv : (vat s.timebase.cal i).valid = true) (h2 : (vat s.timebase.cal i).bad = 2) (hi : i ≠ 10) :
    execSpineFrame i b s = .next (crumbOf (i.val + 1) 0x0105 0x05A0 4 0
      (leBytes 1 (i.val + 1) ++ leBytes 2 3 ++ leBytes 2 (vat s.timebase.cal i).uncert ++ leInt 4 (vat s.timebase.cal i).offset)
      (s.updTb fun t => { t with cal := upd t.cal i (SpineCal.lost s.up) })) := by
  have h11 : i.val + 1 ≠ 11 := fun e => hi (Fin.ext (by omega))
  refine (running_next h).trans (congrArg Host.Outcome.next ?_)
  dsimp only
  rw [if_neg (by simp [hb]), if_pos ⟨hv, by rw [h2]⟩, calLost, if_neg h11]
  rfl

/-- The calibration of an island after a loop-back measurement (R88, Table TIM.15). -/
def SpineCal.measured (offset : Int) (uncert : Nat) (restart : Bool) (now : Nat) (c : SpineCal) : SpineCal :=
  { c with valid := if c.lostAt.isSome then c.valid else true, restarted := restart, uncert := uncert, offset := offset
           bootOffset := some (c.bootOffset.getD offset)
           drift := (offset - c.bootOffset.getD offset) * 1000 / 65536, at_ := now }

/-- SPINE_CALIBRATION whose loop-back CRC held. -/
theorem execSpineCalibration_measured {s : State} (h : s.powered = true) (i : Fin 16) (o : Int) (u : Nat) (r : Bool) :
    execSpineCalibration i o u r false s =
      .next (s.updTb fun t => { t with cal := upd t.cal i (SpineCal.measured o u r s.up) }) := running_next h

/-- SPINE_CALIBRATION whose loop-back CRC failed, the first one recorded (R121). -/
theorem execSpineCalibration_failed {s : State} (h : s.powered = true) (hl : s.timebase.loopbackLogged = none)
    (o : Int) (u : Nat) (r : Bool) :
    execSpineCalibration 1 o u r true s = .next (crumbOf 2 0x0105 0x05A1 3 0
      (leBytes 1 2 ++ leBytes 2 (s.timebase.loopbackFails + 1)) (s.updTb fun t =>
      { t with loopbackFails := s.timebase.loopbackFails + 1, loopbackLogged := some s.up })) := by
  refine (running_next h).trans (congrArg Host.Outcome.next ?_)
  simp only [hl]
  rfl

/-! ### Cadence outputs (R98, R102) -/

/-- An output that holds its level while time is not valid keeps its descriptor, what is pending and its fault. -/
def Cadence.held (c : Cadence) : Cadence :=
  if c.desc.flags.testBit 2 && c.desc.kind ≠ 0 then { c with level := idleLevel c } else c

theorem Cadence.held_keeps (c : Cadence) : c.held.desc = c.desc ∧ c.held.pending = c.pending ∧ c.held.fault = c.fault := by
  unfold Cadence.held
  split <;> exact ⟨rfl, rfl, rfl⟩

/-- An output at its idle level is held there. -/
theorem Cadence.held_level {c : Cadence} (h : c.level = idleLevel c) : c.held.level = idleLevel c := by
  unfold Cadence.held
  split
  · rfl
  · exact h

theorem holdCadence_cadence (s : State) (j : Fin 8) :
    vat (holdCadence s).timebase.cadence j = (vat s.timebase.cadence j).held := by
  simp [holdCadence, State.updTb, vat, Cadence.held]

/-- An output just given a descriptor (R98, R103). -/
def Cadence.applied (d : CadDesc) : Cadence := { desc := d, level := d.kind ≠ 0 && d.flags.testBit 0 }

/-- CADENCE_DESCRIPTOR_APPLY. -/
theorem exec_cadenceDescriptorApply {s : State} {o : Fin 8} {d : CadDesc} {sec : Nat} (h : s.powered = true)
    (hp : (vat s.timebase.cadence o).pending = some (d, sec)) (hsec : sec ≤ s.timebase.now.sec) :
    ∃ z, exec (.cadenceDescriptorApply o) s = .next z ∧ (vat z.timebase.cadence o).desc = d ∧
      (vat z.timebase.cadence o).pending = none ∧ (vat z.timebase.cadence o).fault = false ∧
      (vat z.timebase.cadence o).level = (decide (d.kind ≠ 0) && d.flags.testBit 0) ∧
      (∀ j : Fin 8, j ≠ o → (vat z.timebase.cadence j).desc = (vat s.timebase.cadence j).desc ∧
        (vat z.timebase.cadence j).pending = (vat s.timebase.cadence j).pending) ∧
      z.timebase = { s.timebase with cadence := z.timebase.cadence } ∧ KeepsBut [.timebase] s z := by
  have hrun : execCadenceDescriptorApply o s = .next (holdCadence (s.updTb fun b =>
      { b with cadence := upd b.cadence o fun _ => Cadence.applied d })) := by
    refine (running_next h).trans (congrArg Host.Outcome.next ?_)
    simp only [hp]
    rw [if_pos hsec]
    rfl
  have hself : vat (upd s.timebase.cadence o fun _ => Cadence.applied d) o = Cadence.applied d := vat_upd_fin ..
  have hother : ∀ j : Fin 8, j ≠ o → vat (upd s.timebase.cadence o fun _ => Cadence.applied d) j = vat s.timebase.cadence j :=
    fun j hj => vat_upd_ne _ _ _ _ fun e => hj (Fin.ext e.symm)
  obtain ⟨hdesc, hpending, hfault⟩ := (Cadence.applied d).held_keeps
  refine ⟨_, hrun, ?_, ?_, ?_, ?_, fun j hj => ?_, rfl, by simp [KeepsBut, holdCadence]⟩
  · rw [holdCadence_cadence]
    exact (congrArg (·.held.desc) hself).trans hdesc
  · rw [holdCadence_cadence]
    exact (congrArg (·.held.pending) hself).trans hpending
  · rw [holdCadence_cadence]
    exact (congrArg (·.held.fault) hself).trans hfault
  · rw [holdCadence_cadence]
    exact (congrArg (·.held.level) hself).trans (Cadence.held_level rfl)
  · obtain ⟨hd, hp, -⟩ := (vat s.timebase.cadence j).held_keeps
    rw [holdCadence_cadence]
    exact ⟨(congrArg (·.held.desc) (hother j hj)).trans hd, (congrArg (·.held.pending) (hother j hj)).trans hp⟩

/-! ### TIM_IN (R105 to R107) -/

/-- The result of an edge on an input (Table TIM.11). -/
def timResult (x : TimIn) (falling valid : Bool) (t : Time) : TimResult :=
  { flags := b2n falling + 2 * b2n valid + 4 * b2n (valid && x.rate != 0), seq := x.seq, time := t
    phaseErr := rateError x.rate t }

/-- An input whose empty queue took its first result. -/
def TimIn.tookFirst (falling valid : Bool) (t : Time) (x : TimIn) : TimIn :=
  { x with queue := [timResult x falling valid t], seq := (x.seq + 1) % 65536, lastNs := some t.inNs
           mode := if x.mode = 1 then 0 else x.mode }

/-- The first edge in the queue raises source 61 (R105, R107). -/
theorem recordEdge_first {s : State} {i : Fin 4} (hq : (vat s.timebase.timIn i).queue = []) (falling : Bool) (t : Time) :
    recordEdge i falling t s =
      raiseSrc 61 (s.updTb fun b => { b with timIn := upd b.timIn i (TimIn.tookFirst falling s.timebase.valid t) }) := by
  unfold recordEdge
  simp only [hq, List.isEmpty_nil, if_true]
  refine congrArg (fun v => raiseSrc 61 (s.updTb fun b => { b with timIn := v })) (upd_congr _ _ ?_)
  simp [TimIn.tookFirst, hq, timResult]

/-- An edge on an armed input, far enough from the last one, with nothing queued. -/
theorem execTimInEdge_first {s : State} {i : Fin 4} {falling : Bool} {sec ns frac w : Nat} (h : s.powered = true)
    (hm : (vat s.timebase.timIn i).mode ≠ 0) (he : (vat s.timebase.timIn i).edge = b2n falling) (hw : 4000 ≤ w)
    (hfar : (vat s.timebase.timIn i).mode = 2 →
      (vat s.timebase.timIn i).lastNs.any (fun l => decide ((sec * 1000000000 + ns) < l + 1000000)) = false)
    (hq : (vat s.timebase.timIn i).queue = []) :
    execTimInEdge i falling sec ns frac w s = .next (raiseSrc 61 (s.updTb fun b =>
      { b with timIn := upd b.timIn i (TimIn.tookFirst falling s.timebase.valid { sec, ns, frac }) })) := by
  have hnear : ¬((vat s.timebase.timIn i).mode = 2 ∧ ((vat s.timebase.timIn i).lastNs.any fun l =>
      decide (({ sec, ns, frac } : Time).inNs < l + 1000000)) = true) := fun ⟨h2, hl⟩ => by
    rw [Bool.eq_false_iff] at hfar
    exact hfar h2 hl
  unfold execTimInEdge
  rw [running_next h]
  dsimp only
  rw [if_neg (by simp [hm, he, hw]), if_neg hnear]
  exact congrArg Host.Outcome.next (recordEdge_first hq ..)

/-- TIM_IN_EDGE. -/
theorem exec_timInEdge {s : State} {i : Fin 4} {falling : Bool} {sec ns frac w : Nat} (hu : Up s)
    (hm : (vat s.timebase.timIn i).mode ≠ 0) (he : (vat s.timebase.timIn i).edge = b2n falling) (hw : 4000 ≤ w)
    (hfar : (vat s.timebase.timIn i).mode = 2 →
      (vat s.timebase.timIn i).lastNs.any (fun l => decide ((sec * 1000000000 + ns) < l + 1000000)) = false)
    (hq : (vat s.timebase.timIn i).queue = []) :
    ∃ z, exec (.timInEdge i falling sec ns frac w) s = .next z ∧
      ((vat z.timebase.timIn i).queue.map fun r => (r.time, r.seq, r.flags % 4)) =
        [({ sec, ns, frac }, (vat s.timebase.timIn i).seq, b2n falling + 2 * b2n s.timebase.valid)] ∧
      (vat z.timebase.timIn i).seq = ((vat s.timebase.timIn i).seq + 1) % 65536 ∧
      (vat z.timebase.timIn i).mode =
        (if (vat s.timebase.timIn i).mode = 1 then 0 else (vat s.timebase.timIn i).mode) ∧
      (∀ j : Fin 4, j ≠ i → vat z.timebase.timIn j = vat s.timebase.timIn j) ∧ Raised 61 s z ∧
      KeepsBut [.timebase, .views, .out] s z := by
  have hflags : ∀ f v r : Bool, (b2n f + 2 * b2n v + 4 * b2n (v && r)) % 4 = b2n f + 2 * b2n v := by decide
  refine ⟨_, execTimInEdge_first hu.1 hm he hw hfar hq, ?_, ?_, ?_, fun j hj => ?_,
    raised_raiseSrc (s := s.updTb _) (by decide) (by decide) hu, by simp [KeepsBut]⟩
  · simp [TimIn.tookFirst, timResult, hflags]
  · simp [TimIn.tookFirst]
  · simp [TimIn.tookFirst]
  · rw [raiseSrc_timebase]
    exact vat_upd_ne _ _ _ _ fun e => hj (Fin.ext e.symm)

/-- Settles O20: each event by the one change it makes, a leap second by `takeForce_leap`, the recorded events by
`crumbOf_updTb`. -/
theorem timeEventsTakeEffect : Obligations.TimeEventsTakeEffect := by
  unfold Obligations.TimeEventsTakeEffect
  refine ⟨fun n v s h ho hv => ?_, fun x s hu hk hp hl hx hm => exec_scheduleInstant hu hk hp hl hx hm,
    fun x s hu hl hw hx hm => ?_, fun i b s h hb hl => ⟨_, execSpineFrame_good h hb hl, rfl, by simp [KeepsBut]⟩,
    fun i b s hu hr hb hv h2 hi => ⟨_, execSpineFrame_lost hu.1 hb hv h2 hi, crumbOf_updTb hu hr ..⟩,
    fun i o u r s h => ⟨_, execSpineCalibration_measured h i o u r, rfl, by simp [KeepsBut]⟩,
     fun o u r s hu hr hl => ⟨_, execSpineCalibration_failed hu.1 hl o u r, crumbOf_updTb hu hr ..⟩,
    fun o d sec s h hp hsec => exec_cadenceDescriptorApply h hp hsec,
    fun i falling sec ns frac w s hu hm he hw hfar hq => exec_timInEdge hu hm he hw hfar hq⟩
  · have hrun : execTimeLatch n v s = .next (latchTime n s) :=
      (running_next h).trans (congrArg Host.Outcome.next (if_pos (by rw [ho, hv]; rfl)))
    exact ⟨_, hrun, rfl, by simp [KeepsBut, latchTime]⟩
  · have hrun : execScheduleWarning s = .next (raiseSrc 59 (s.updTb fun b => { b with leap := some { x with warned := true } })) :=
      (running_next hu.1).trans (congrArg Host.Outcome.next (warnScheds_leap hl hw hx hm))
    exact ⟨_, hrun, by simp, raised_raiseSrc (s := s.updTb _) (by decide) (by decide) hu, by simp [KeepsBut]⟩

end Sys2Proof.Machine
end

section
/-! ## A Spar's instruction from its dispatch to the boundary after it (R320 to R326) -/
namespace Sys2Proof.Machine
open Sys2Proof

/-! ### One Spar -/

/-- A Spar just changed. -/
theorem spar_updSpar_self {i : Nat} (hi : i < 3) (f : Spar → Spar) (s : State) : (s.updSpar i f).spar i = f (s.spar i) :=
  vat_upd_self _ _ _ hi

/-- A change of a Spar leaves the others. -/
theorem spar_updSpar_of_ne {i j : Nat} (h : j ≠ i) (f : Spar → Spar) (s : State) : (s.updSpar i f).spar j = s.spar j :=
  vat_upd_ne _ _ _ _ (Ne.symm h)

/-- Two changes of a Spar are one. -/
theorem updSpar_updSpar {i : Nat} (f g : Spar → Spar) (s : State) :
    (s.updSpar i f).updSpar i g = s.updSpar i fun x => g (f x) := by
  unfold State.updSpar upd
  split <;> simp

theorem keepsBut_updSpar {ps : List Part} (h : Part.spars ∈ ps) (i : Nat) (f : Spar → Spar) (s : State) :
    KeepsBut ps s (s.updSpar i f) := by
  simp [KeepsBut, h]

theorem keepsBut_refl (ps : List Part) (s : State) : KeepsBut ps s s := by
  simp [KeepsBut]

/-! ### Dispatch and retirement (R323 to R326) -/

/-- The Spar's place in its program, its state, and what is pending there: an instruction's effect leaves it. -/
def Spar.control (x : Spar) : Nat × Nat × Option Stall × SparState × AMap Nat × Option (Nat × Nat) :=
  (x.pc, x.instructions, x.stall, x.state, x.lines, x.fault)

/-- The state in which a dispatched instruction has its effect: the operand latched, the working registers and the flags
open. -/
def sparBegun (i o : Nat) (s : State) : State := openRegs i (s.updSpar i fun x => { x with opr := BitVec.ofNat 24 o })

/-- The Spar after its instruction retired with an address following (R323). -/
def Spar.retired (next : Nat) (x : Spar) : Spar :=
  { x with instructions := (x.instructions + 1) % 2 ^ 32, pc := next }

/-- The effect of an instruction leaves its Spar's control and the other Spars. -/
structure Spared (i : Nat) (s y : State) : Prop where
  control : (y.spar i).control = (s.spar i).control
  others : ∀ j, j ≠ i → y.spar j = s.spar j

/-- What leaves every Spar. -/
theorem Spared.of_spars {i : Nat} {s y z : State} (h : Spared i s y) (hz : z.spars = y.spars) : Spared i s z where
  control := (congrArg (fun v => (vat v i).control) hz :).trans h.control
  others j hj := (congrArg (vat · j) hz :).trans (h.others j hj)

/-- A change of the Spar that leaves its control. -/
theorem Spared.updSpar {i : Nat} {s y : State} (h : Spared i s y) (hi : i < 3) {f : Spar → Spar}
    (hf : ∀ x, (f x).control = x.control) : Spared i s (y.updSpar i f) where
  control := by rw [spar_updSpar_self hi, hf, h.control]
  others j hj := (spar_updSpar_of_ne hj ..).trans (h.others j hj)

theorem sparBegun_spar {i : Nat} (hi : i < 3) (o : Nat) (s : State) :
    ((sparBegun i o s).spar i).control = (s.spar i).control ∧ ((sparBegun i o s).spar i).actions = (s.spar i).actions := by
  unfold sparBegun openRegs
  rw [spar_updSpar_self hi]
  have hopr := spar_updSpar_self hi (fun x => { x with opr := BitVec.ofNat 24 o }) s
  exact ⟨(congrArg Spar.control hopr :), (congrArg Spar.actions hopr :)⟩

theorem spared_sparBegun {i : Nat} (hi : i < 3) (o : Nat) (s : State) : Spared i s (sparBegun i o s) where
  control := (sparBegun_spar hi o s).1
  others _ hj := (spar_updSpar_of_ne hj ..).trans (spar_updSpar_of_ne hj ..)

theorem keepsBut_sparBegun (i o : Nat) (s : State) : KeepsBut [.spars, .free] s (sparBegun i o s) := by
  simp [KeepsBut, sparBegun, openRegs, State.drawn]

/-- A Spar about to execute an instruction of the base microcode has its effect on the operand. -/
theorem sparInstr_eq {i opc o : Nat} {s : State} (h : SparAt i opc o s) (hb : baseOpc i opc = true)
    (base : Nat → State → State) : sparInstr i opc none base s = .next (base o (sparBegun i o s)) := by
  obtain ⟨hp, hgo, hprog, hk, ho, hdisp, hplain, -, -, -, -⟩ := h
  refine (running_next hp).trans (congrArg Host.Outcome.next ?_)
  have hd : dispatch i opc o ((s.spar i).pc + 1) s = (some { upc := 0, next := (s.spar i).pc + 1 }, sparBegun i o s) := by
    unfold dispatch
    simp only [hdisp, hplain, hb, if_true, Bool.false_eq_true, if_false]
    rfl
  simp only [applyFlip, hgo, hprog, hk, ho, hd, hplain]
  simp

/-- An instruction retires where no fault and no line is pending. -/
theorem sparRetire_eq {i next : Nat} {y : State} (hf : (y.spar i).fault = none) (hl : (y.spar i).lines = [])
    (hn : next ≤ 1023) : sparRetire i next y = y.updSpar i (Spar.retired next) := by
  have hfind : ((List.range 8).reverse.find? fun l => (mget ([] : AMap Nat) l).isSome) = none := by decide
  unfold sparRetire boundary
  simp only [hf, hl, hfind, if_neg (Nat.not_lt.2 hn)]
  rw [if_neg Bool.false_ne_true]
  exact updSpar_updSpar ..

/-- After an effect that leaves the Spar's control, its instruction retires and the next address follows. -/
theorem sparRetire_of_spared {i opc o : Nat} {s y : State} (h : SparAt i opc o s) (hy : Spared i s y) :
    sparRetire i (sparNext i (sparBegun i o s)) y = y.updSpar i (Spar.retired ((s.spar i).pc + 1)) := by
  obtain ⟨-, -, -, -, -, -, -, hf, hl, hpc, hi⟩ := h
  have hnext : sparNext i (sparBegun i o s) = (s.spar i).pc + 1 :=
    congrArg (fun c => c.1 + 1) (sparBegun_spar hi o s).1
  have hc := hy.control
  simp only [Spar.control, Prod.mk.injEq] at hc
  obtain ⟨-, -, -, -, hl', hf'⟩ := hc
  rw [hnext]
  exact sparRetire_eq (hf'.trans hf) (hl'.trans hl) hpc

/-- What a retired instruction leaves: it is counted, the next address follows, its Spar runs on with the actions of the
effect, and the other Spars are as before. -/
theorem retired_of_spared {i opc o : Nat} {s y : State} (h : SparAt i opc o s) (hy : Spared i s y) :
    Retired i ((s.spar i).pc + 1) s (y.updSpar i (Spar.retired ((s.spar i).pc + 1))) ∧
      ((y.updSpar i (Spar.retired ((s.spar i).pc + 1))).spar i).actions = (y.spar i).actions ∧
      ∀ j : Fin 3, j.val ≠ i → (y.updSpar i (Spar.retired ((s.spar i).pc + 1))).spar j = s.spar j := by
  obtain ⟨-, hgo, -, -, -, -, -, -, -, -, hi⟩ := h
  simp only [sparGoes, Bool.and_eq_true, beq_iff_eq, Option.isNone_iff_eq_none] at hgo
  obtain ⟨⟨hrun, hstall⟩, -⟩ := hgo
  have hc := hy.control
  simp only [Spar.control, Prod.mk.injEq] at hc
  obtain ⟨-, hcount, hstall', hrun', -, -⟩ := hc
  refine ⟨?_, ?_, fun j hj => (spar_updSpar_of_ne hj ..).trans (hy.others j hj)⟩
  · rw [Retired, spar_updSpar_self hi]
    exact ⟨rfl, by rw [Spar.retired, hcount], hstall'.trans hstall, hrun'.trans hrun⟩
  · rw [spar_updSpar_self hi]
    rfl

/-- An instruction whose effect leaves its Spar's control retires with the effect made. -/
theorem sparInstr_retires {i opc o : Nat} {s y : State} {base : Nat → State → State} (h : SparAt i opc o s)
    (hb : baseOpc i opc = true) (hy : Spared i s y)
    (hbase : base o (sparBegun i o s) = sparRetire i (sparNext i (sparBegun i o s)) y) :
    sparInstr i opc none base s = .next (y.updSpar i (Spar.retired ((s.spar i).pc + 1))) :=
  (sparInstr_eq h hb base).trans (congrArg Host.Outcome.next (hbase.trans (sparRetire_of_spared h hy)))

/-- Beyond what the effect changes an instruction changes its Spar alone. -/
theorem keepsBut_retired {ps qs : List Part} {s y : State} {i o : Nat} (hk : KeepsBut qs (sparBegun i o s) y)
    (hps : [.spars, .free] ⊆ ps) (hqs : qs ⊆ ps) (next : Nat) : KeepsBut ps s (y.updSpar i (Spar.retired next)) :=
  keepsBut_trans (keepsBut_trans (keepsBut_mono hps (keepsBut_sparBegun i o s)) (keepsBut_mono hqs hk))
    (keepsBut_updSpar (hps (by decide)) ..)

/-! ### The action queue (R320 to R322) -/

/-- The Spar after an action was armed. -/
def Spar.armed (a : Action) (x : Spar) : Spar := { x with n := false, c := false, actions := x.actions ++ [a] }

/-- An action at an instant that has not passed, with room in the queue, is armed (R320, R321). -/
theorem sched_armed {i unit act tk frac arg : Nat} {s : State} (ha : act ≠ 0)
    (ht : (s.timebase.now.frac : Int) ≤ tickDiff tk s.tickNow * 65536 + frac) (hr : (s.spar i).actions.length < 16) :
    sched i unit act tk frac arg s = s.updSpar i (Spar.armed { unit, action := act, tick := tk % 2 ^ 32, frac, arg }) := by
  have hlate : decide (tickDiff tk s.tickNow * 65536 + frac < s.timebase.now.frac) = false := by simpa using ht
  unfold sched
  simp only [hlate]
  rw [if_neg ha, if_neg Bool.false_ne_true, if_neg (by omega)]
  rfl

/-- Arming an action leaves the control, and puts the action behind those armed. -/
theorem Spared.armed {i : Nat} {s y : State} (h : Spared i s y) (hi : i < 3) (a : Action) :
    Spared i s (y.updSpar i (Spar.armed a)) := h.updSpar hi fun _ => rfl

theorem actions_armed {i : Nat} (hi : i < 3) (a : Action) (s : State) :
    ((s.updSpar i (Spar.armed a)).spar i).actions = (s.spar i).actions ++ [a] := by
  rw [spar_updSpar_self hi, Spar.armed]

/-- What an instruction that arms actions does: it leaves its Spar's control and current time, the actions stand behind those
armed, and it changes the parts listed. -/
structure Arms (ps : List Part) (i : Nat) (l : List Action) (s y : State) : Prop where
  spared : Spared i s y
  now : y.timebase.now = s.timebase.now
  actions : (y.spar i).actions = (s.spar i).actions ++ l
  rest : KeepsBut ps s y

/-- An instruction that arms nothing. -/
theorem arms_sparBegun {i : Nat} (hi : i < 3) (o : Nat) (s : State) : Arms [.spars, .free] i [] s (sparBegun i o s) where
  spared := spared_sparBegun hi o s
  now := rfl
  actions := (sparBegun_spar hi o s).2.trans (List.append_nil _).symm
  rest := keepsBut_sparBegun i o s

/-- More parts may change. -/
theorem Arms.mono {ps qs : List Part} {i : Nat} {l : List Action} {s y : State} (h : Arms ps i l s y) (hps : ps ⊆ qs) :
    Arms qs i l s y := ⟨h.spared, h.now, h.actions, keepsBut_mono hps h.rest⟩

/-- A change of the timebase that leaves current time. -/
theorem Arms.updTb {ps : List Part} {i : Nat} {l : List Action} {s y : State} (h : Arms ps i l s y)
    (hps : Part.timebase ∈ ps) {f : Timebase → Timebase} (hf : ∀ b, (f b).now = b.now) : Arms ps i l s (y.updTb f) :=
  ⟨h.spared.of_spars rfl, (hf _).trans h.now, h.actions, keepsBut_trans h.rest (by simp [KeepsBut, hps])⟩

/-- One more action, at an instant that has not passed and with room in the queue. -/
theorem Arms.sched {ps : List Part} {i unit act tk frac arg : Nat} {l : List Action} {s y : State} (h : Arms ps i l s y)
    (hps : Part.spars ∈ ps) (hi : i < 3) (ha : act ≠ 0)
    (ht : (s.timebase.now.frac : Int) ≤ tickDiff tk s.tickNow * 65536 + frac)
    (hr : (s.spar i).actions.length + l.length < 16) :
    Arms ps i (l ++ [{ unit, action := act, tick := tk % 2 ^ 32, frac, arg }]) s (sched i unit act tk frac arg y) := by
  have hroom : (y.spar i).actions.length < 16 := by rw [h.actions, List.length_append]; exact hr
  have ht' : (y.timebase.now.frac : Int) ≤ tickDiff tk y.tickNow * 65536 + frac := by rwa [State.tickNow, h.now]
  rw [sched_armed ha ht' hroom]
  exact ⟨h.spared.armed hi _, h.now, by rw [actions_armed hi, h.actions, List.append_assoc],
    keepsBut_trans h.rest (keepsBut_updSpar hps ..)⟩

/-- An instruction that arms actions retires with them armed. -/
theorem Arms.retires {ps : List Part} {i opc o : Nat} {l : List Action} {s y : State} {base : Nat → State → State}
    (h : Arms ps i l s y) (hat : SparAt i opc o s) (hb : baseOpc i opc = true) (hps : Part.spars ∈ ps)
    (hbase : base o (sparBegun i o s) = sparRetire i (sparNext i (sparBegun i o s)) y) :
    ∃ z, sparInstr i opc none base s = .next z ∧ Retired i ((s.spar i).pc + 1) s z ∧
      (z.spar i).actions = (s.spar i).actions ++ l ∧ z.timebase = y.timebase ∧
      (∀ j : Fin 3, j.val ≠ i → z.spar j = s.spar j) ∧ KeepsBut ps s z := by
  obtain ⟨hret, hact, hothers⟩ := retired_of_spared hat h.spared
  exact ⟨_, sparInstr_retires hat hb h.spared hbase, hret, hact.trans h.actions, rfl, hothers,
    keepsBut_trans h.rest (keepsBut_updSpar hps ..)⟩

end Sys2Proof.Machine
end

section
/-! ## The Formatter's instructions (R437, R555, R572 to R584) -/
namespace Sys2Proof.Machine
open Sys2Proof

/-- A Formatter instruction of the base microcode: its effect, then it retires. -/
theorem formatter_retires {opc o : Nat} {s y : State} {f : Nat → State → State} (h : SparAt 0 opc o s)
    (hb : baseOpc 0 opc = true) (hy : Spared 0 s y) (hf : f o (sparBegun 0 o s) = y) :
    formatter opc none f s = .next (y.updSpar 0 (Spar.retired ((s.spar 0).pc + 1))) :=
  sparInstr_retires h hb hy (by rw [hf])

/-! ### Heads and cylinders (R572, R575, R577) -/

/-- WEDGE_SYNC at the expected wedge. -/
theorem exec_wedgeSync {o : Nat} {s : State} (h : SparAt 0 0x20 o s) (hw : s.channel.wedge = o % 512)
    (hm : s.channel.wedgeMissed = false) :
    ∃ z, exec (.wedgeSync none) s = .next z ∧ Retired 0 ((s.spar 0).pc + 1) s z ∧
      (∀ j : Fin 3, j.val ≠ 0 → z.spar j = s.spar j) ∧ KeepsBut [.spars, .free] s z := by
  have hy := spared_sparBegun (i := 0) (by decide) o s
  have hgo : (sparBegun 0 o s).channel.wedge = o % 512 ∧ (!(sparBegun 0 o s).channel.wedgeMissed) = true :=
    ⟨hw, congrArg not hm⟩
  have hz : execWedgeSync none s = .next ((sparBegun 0 o s).updSpar 0 (Spar.retired ((s.spar 0).pc + 1))) :=
    sparInstr_retires h (by decide) hy (if_pos hgo)
  obtain ⟨hret, -, hothers⟩ := retired_of_spared h hy
  exact ⟨_, hz, hret, hothers, keepsBut_retired (keepsBut_refl [] _) (by decide) (by decide) _⟩

/-- SETTLE_CHECK where as many wedges in a row were on track. -/
theorem exec_settleCheck {o : Nat} {s : State} (h : SparAt 0 0x23 o s) (hon : o % 256 ≤ s.channel.onRead) :
    ∃ z, exec (.settleCheck none) s = .next z ∧ Retired 0 ((s.spar 0).pc + 1) s z ∧
      (∀ j : Fin 3, j.val ≠ 0 → z.spar j = s.spar j) ∧ KeepsBut [.spars, .free] s z := by
  have hy := spared_sparBegun (i := 0) (by decide) o s
  have hgo : o % 256 ≤ (sparBegun 0 o s).channel.onRead := hon
  have hz : execSettleCheck none s = .next ((sparBegun 0 o s).updSpar 0 (Spar.retired ((s.spar 0).pc + 1))) :=
    sparInstr_retires h (by decide) hy (if_pos hgo)
  obtain ⟨hret, -, hothers⟩ := retired_of_spared h hy
  exact ⟨_, hz, hret, hothers, keepsBut_retired (keepsBut_refl [] _) (by decide) (by decide) _⟩

theorem selectHead_spars (n : Nat) (s : State) : (selectHead n s).spars = s.spars := by
  unfold selectHead
  dsimp only
  split
  · split <;> rfl
  · rfl

theorem keepsBut_selectHead (n : Nat) (s : State) : KeepsBut [.channel, .out] s (selectHead n s) := by
  unfold selectHead
  dsimp only
  split
  · split <;> simp [KeepsBut, paFrame]
  · simp [KeepsBut]

/-- A selected head is the one of the servo's next wedges: none of them was on track yet, and writing waits (R577). -/
theorem selectHead_channel (n : Nat) (s : State) :
    (selectHead n s).channel.head = n ∧ (selectHead n s).channel.onRead = 0 ∧ (selectHead n s).channel.writeOk = false ∧
      (selectHead n s).channel.state = if s.channel.state = .tracking then .seeking else s.channel.state := by
  unfold selectHead
  dsimp only
  split
  · split <;> exact ⟨rfl, rfl, rfl, rfl⟩
  · exact ⟨rfl, rfl, rfl, rfl⟩

/-- While PA_WG is low the preamplifier is told the head (R551, R577). -/
theorem selectHead_preamp {s : State} {f : Format} (hf : s.channel.format = some f) (hw : s.channel.wg = false) (n : Nat) :
    .preamp (f.paHeadReg % 128 * 256 + n * 2 ^ f.paHeadShift % 256) ∈ (selectHead n s).out := by
  simp [selectHead, hf, hw, paFrame, b2n, State.emit, State.updChn]

/-- HEAD_SELECT. -/
theorem exec_headSelect {o : Nat} {s : State} (h : SparAt 0 0x21 o s) :
    ∃ z, exec (.headSelect none) s = .next z ∧ Retired 0 ((s.spar 0).pc + 1) s z ∧ z.channel.head = o % 16 ∧
      z.channel.onRead = 0 ∧ z.channel.writeOk = false ∧
      z.channel.state = (if s.channel.state = .tracking then .seeking else s.channel.state) ∧
      (∀ f ∈ s.channel.format, s.channel.wg = false →
        .preamp (f.paHeadReg % 128 * 256 + o % 16 * 2 ^ f.paHeadShift % 256) ∈ z.out) ∧
      (∀ j : Fin 3, j.val ≠ 0 → z.spar j = s.spar j) ∧ KeepsBut [.spars, .free, .channel, .out] s z := by
  have hy := (spared_sparBegun (i := 0) (by decide) o s).of_spars (selectHead_spars (o % 16) _)
  have hz : execHeadSelect none s =
      .next ((selectHead (o % 16) (sparBegun 0 o s)).updSpar 0 (Spar.retired ((s.spar 0).pc + 1))) :=
    formatter_retires h (by decide) hy rfl
  obtain ⟨hret, -, hothers⟩ := retired_of_spared h hy
  obtain ⟨hhead, hread, hwrite, hstate⟩ := selectHead_channel (o % 16) (sparBegun 0 o s)
  exact ⟨_, hz, hret, hhead, hread, hwrite, hstate, fun f hf hw => selectHead_preamp (s := sparBegun 0 o s) hf hw _, hothers,
    keepsBut_retired (keepsBut_selectHead ..) (by decide) (by decide) _⟩

theorem keepsBut_startSeek (cyl : Nat) (s : State) : KeepsBut [.channel, .out] s (startSeek cyl s) := by
  simp [KeepsBut, startSeek]

/-- SEEK_START with the heads off the ramp. -/
theorem exec_seekStart {o : Nat} {s : State} (h : SparAt 0 0x22 o s) (hl : headsLoaded s = true) :
    ∃ z, exec (.seekStart none) s = .next z ∧ Retired 0 ((s.spar 0).pc + 1) s z ∧ z.channel.target = o ∧
      z.channel.seekTries = 0 ∧ z.channel.writeOk = false ∧ z.out = .vcm 0 o :: s.out ∧
      (∀ j : Fin 3, j.val ≠ 0 → z.spar j = s.spar j) ∧ KeepsBut [.spars, .free, .channel, .out] s z := by
  have hy := (spared_sparBegun (i := 0) (by decide) o s).of_spars (z := startSeek o (sparBegun 0 o s)) rfl
  have hseek : (if headsLoaded (sparBegun 0 o s) then startSeek o (sparBegun 0 o s) else sparBegun 0 o s) =
      startSeek o (sparBegun 0 o s) := if_pos hl
  have hz : execSeekStart none s =
      .next ((startSeek o (sparBegun 0 o s)).updSpar 0 (Spar.retired ((s.spar 0).pc + 1))) :=
    formatter_retires h (by decide) hy hseek
  obtain ⟨hret, -, hothers⟩ := retired_of_spared h hy
  exact ⟨_, hz, hret, rfl, rfl, rfl, rfl, hothers, keepsBut_retired (keepsBut_startSeek ..) (by decide) (by decide) _⟩

/-! ### Gates (R437, R583, R584) -/

/-- SKIP_DEFECT. -/
theorem exec_skipDefect {o : Nat} {s : State} (h : SparAt 0 0x27 o s) :
    ∃ z, exec (.skipDefect none) s = .next z ∧ Retired 0 ((s.spar 0).pc + 1) s z ∧
      (z.spar 0).actions = (s.spar 0).actions ∧ (∀ j : Fin 3, j.val ≠ 0 → z.spar j = s.spar j) ∧
      KeepsBut [.spars, .free] s z := by
  obtain ⟨z, hz, hret, hact, -, hothers, hk⟩ := (arms_sparBegun (i := 0) (by decide) o s).retires
    (base := fun o s => sparRetire 0 (sparNext 0 s) s) h (by decide) (by decide) rfl
  exact ⟨z, hz, hret, hact.trans (List.append_nil _), hothers, hk⟩

/-- A gate's opening and closing are armed one behind the other. -/
theorem Arms.armGate {unit rise fall arg : Nat} {l : List Action} {ps : List Part} {s y : State} (h : Arms ps 0 l s y)
    (hps : Part.spars ∈ ps) (hrise : (s.timebase.now.frac : Int) ≤ tickDiff rise s.tickNow * 65536)
    (hfall : (s.timebase.now.frac : Int) ≤ tickDiff fall s.tickNow * 65536)
    (hr : (s.spar 0).actions.length + l.length ≤ 14) :
    Arms ps 0 (l ++ [{ unit, action := 1, tick := rise % 2 ^ 32, arg }, { unit, action := 2, tick := fall % 2 ^ 32, arg }]) s
      (armGate unit rise fall arg y) := by
  have hopen := h.sched (unit := unit) (act := 1) (tk := rise) (frac := 0) (arg := arg) hps (by decide) (by decide)
    (by simpa using hrise) (by omega)
  have hclose := hopen.sched (unit := unit) (act := 2) (tk := fall) (frac := 0) (arg := arg) hps (by decide) (by decide)
    (by simpa using hfall) (by simp; omega)
  rwa [List.append_assoc] at hclose

/-- READ_SECTOR and VERIFY_SECTOR arm one reader's gate. -/
theorem formatter_readGate {opc o unit : Nat} {r f : BitVec 32} {s : State} (h : SparAt 0 opc o s)
    (hb : baseOpc 0 opc = true) (hl : (s.spar 0).actions.length ≤ 14)
    (hr : (s.timebase.now.frac : Int) ≤ tickDiff r.toNat s.tickNow * 65536)
    (hf : (s.timebase.now.frac : Int) ≤ tickDiff f.toNat s.tickNow * 65536) :
    ∃ z, formatter opc none (readGate unit r f) s = .next z ∧ Retired 0 ((s.spar 0).pc + 1) s z ∧
      (z.spar 0).actions = (s.spar 0).actions ++
        [{ unit, action := 1, tick := r.toNat % 2 ^ 32, arg := fld o 10 6 },
          { unit, action := 2, tick := f.toNat % 2 ^ 32, arg := fld o 10 6 }] ∧
      (∀ j : Fin 3, j.val ≠ 0 → z.spar j = s.spar j) ∧ KeepsBut [.spars, .free] s z := by
  obtain ⟨z, hz, hret, hact, -, hothers, hk⟩ := ((arms_sparBegun (i := 0) (by decide) o s).armGate (unit := unit)
    (arg := fld o 10 6) (by decide) hr hf (by simpa using hl)).retires
    (base := fun o s => sparRetire 0 (sparNext 0 s) (readGate unit r f o s)) h hb (by decide) rfl
  exact ⟨z, hz, hret, hact, hothers, hk⟩

/-- WRITE_SECTOR arms the write gate, then the verify gate VERIFY_DELAY later. -/
theorem exec_writeSector {o : Nat} {r f : BitVec 32} {s : State} (h : SparAt 0 0x24 o s)
    (hl : (s.spar 0).actions.length ≤ 12)
    (hr : (s.timebase.now.frac : Int) ≤ tickDiff r.toNat s.tickNow * 65536)
    (hf : (s.timebase.now.frac : Int) ≤ tickDiff f.toNat s.tickNow * 65536)
    (hvr : (s.timebase.now.frac : Int) ≤ tickDiff (r.toNat + verifyDelayAt s) s.tickNow * 65536)
    (hvf : (s.timebase.now.frac : Int) ≤ tickDiff (f.toNat + verifyDelayAt s) s.tickNow * 65536) :
    ∃ z, exec (.writeSector none r f) s = .next z ∧ Retired 0 ((s.spar 0).pc + 1) s z ∧
      (z.spar 0).actions = (s.spar 0).actions ++
        [{ unit := 2, action := 1, tick := r.toNat % 2 ^ 32, arg := fld o 10 6 },
          { unit := 2, action := 2, tick := f.toNat % 2 ^ 32, arg := fld o 10 6 },
          { unit := 4, action := 1, tick := (r.toNat + verifyDelayAt s) % 2 ^ 32, arg := fld o 10 6 },
          { unit := 4, action := 2, tick := (f.toNat + verifyDelayAt s) % 2 ^ 32, arg := fld o 10 6 }] ∧
      (∀ j : Fin 3, j.val ≠ 0 → z.spar j = s.spar j) ∧ KeepsBut [.spars, .free] s z := by
  have hwrite := (arms_sparBegun (i := 0) (by decide) o s).armGate (unit := 2) (arg := fld o 10 6) (by decide) hr hf
    (by simp; omega)
  have hverify := hwrite.armGate (unit := 4) (arg := fld o 10 6) (by decide) hvr hvf (by simp; omega)
  obtain ⟨z, hz, hret, hact, -, hothers, hk⟩ := hverify.retires
    (base := fun o s => sparRetire 0 (sparNext 0 s) (writeGates r f o s)) h (by decide) (by decide) rfl
  exact ⟨z, hz, hret, hact, hothers, hk⟩

end Sys2Proof.Machine
end

section
/-! ## The Cadence Spar's instructions (R91, R96, R99, R437) -/
namespace Sys2Proof.Machine
open Sys2Proof

/-! ### PTP launches (R437) -/

/-- The action that launches a message on a port (log entry 69). -/
def launchAt (o type tick frac : Nat) : Action :=
  { unit := 0x10 + o % 8, action := 4, tick := tick % 2 ^ 32, frac, arg := fld o 3 13 + type * 8192 }

/-- A launch on one of the six ports is armed, at an instant that has not passed. -/
theorem Arms.armLaunch {o type tick : Nat} {ps : List Part} {s y : State} (h : Arms ps 1 [] s y) (hps : Part.spars ∈ ps)
    (ho : o % 8 < 6) (hl : (s.spar 1).actions.length ≤ 15) (ht : (s.timebase.now.frac : Int) ≤
      tickDiff tick s.tickNow * 65536 + (if type = 1 then s.timebase.now.frac else 0 : Nat)) :
    Arms ps 1 [launchAt o type tick (if type = 1 then s.timebase.now.frac else 0)] s (armLaunch o type tick y) := by
  have harm := h.sched (unit := 0x10 + o % 8) (act := 4) (arg := fld o 3 13 + type * 8192) hps (by decide) (by decide) ht
    (by simpa using Nat.lt_succ_of_le hl)
  unfold Machine.armLaunch
  rw [if_pos ho, h.now]
  exact harm

/-- A PTP instruction whose effect arms one launch. -/
theorem cadencer_launch {opc o type tick : Nat} {s : State} {f : Nat → State → State} (h : SparAt 1 opc o s)
    (hb : baseOpc 1 opc = true) (ho : o % 8 < 6) (hl : (s.spar 1).actions.length ≤ 15)
    (ht : (s.timebase.now.frac : Int) ≤ tickDiff tick s.tickNow * 65536 + (if type = 1 then s.timebase.now.frac else 0 : Nat))
    (hf : f o (sparBegun 1 o s) = armLaunch o type tick (sparBegun 1 o s)) :
    ∃ z, cadencer opc none f s = .next z ∧ Retired 1 ((s.spar 1).pc + 1) s z ∧
      (z.spar 1).actions = (s.spar 1).actions ++ [launchAt o type tick (if type = 1 then s.timebase.now.frac else 0)] ∧
      (∀ j : Fin 3, j.val ≠ 1 → z.spar j = s.spar j) ∧ KeepsBut [.spars, .free] s z := by
  obtain ⟨z, hz, hret, hact, -, hothers, hk⟩ := ((arms_sparBegun (i := 1) (by decide) o s).armLaunch (by decide) ho hl ht).retires
    (base := fun o s => sparRetire 1 (sparNext 1 s) (f o s)) h hb (by decide) (by rw [hf])
  exact ⟨z, hz, hret, hact, hothers, hk⟩

/-- A TICK differs from itself by nothing. -/
theorem tickDiff_self (a : Nat) : tickDiff a a = 0 := by
  simp [tickDiff]

/-- PTP_SYNC_LAUNCH of a group that is served. -/
theorem exec_ptpSyncLaunch {o : Nat} {s : State} (h : SparAt 1 0x42 o s) (ho : o % 8 < 6)
    (hl : (s.spar 1).actions.length ≤ 15) (hg : groupServed s 0 (fld o 3 13) = true)
    (ht : (s.timebase.now.frac : Int) ≤ tickDiff (nextLaunch s true (fld o 3 13)) s.tickNow * 65536) :
    ∃ z, exec (.ptpSyncLaunch none) s = .next z ∧ Retired 1 ((s.spar 1).pc + 1) s z ∧
      (z.spar 1).actions = (s.spar 1).actions ++ [launchAt o 0 (nextLaunch s true (fld o 3 13)) 0] ∧
      (∀ j : Fin 3, j.val ≠ 1 → z.spar j = s.spar j) ∧ KeepsBut [.spars, .free] s z := by
  have hf : (if groupServed (sparBegun 1 o s) 0 (fld o 3 13) then
      armLaunch o 0 (nextLaunch (sparBegun 1 o s) true (fld o 3 13)) (sparBegun 1 o s) else sparBegun 1 o s) =
      armLaunch o 0 (nextLaunch s true (fld o 3 13)) (sparBegun 1 o s) := if_pos hg
  exact cadencer_launch (f := fun o s =>
    if groupServed s 0 (fld o 3 13) then armLaunch o 0 (nextLaunch s true (fld o 3 13)) s else s)
    h (by decide) ho hl (by simpa using ht) hf

/-- PTP_FOLLOW_UP: the message leaves at once. -/
theorem exec_ptpFollowUp {o : Nat} {s : State} (h : SparAt 1 0x43 o s) (ho : o % 8 < 6)
    (hl : (s.spar 1).actions.length ≤ 15) :
    ∃ z, exec (.ptpFollowUp none) s = .next z ∧ Retired 1 ((s.spar 1).pc + 1) s z ∧
      (z.spar 1).actions = (s.spar 1).actions ++ [launchAt o 1 s.tickNow s.timebase.now.frac] ∧
      (∀ j : Fin 3, j.val ≠ 1 → z.spar j = s.spar j) ∧ KeepsBut [.spars, .free] s z :=
  cadencer_launch (type := 1) (tick := s.tickNow) (f := fun o s => armLaunch o 1 s.tickNow s) h (by decide) ho hl
    (by simp [tickDiff_self]) rfl

/-- PTP_ANNOUNCE of a group that is served. -/
theorem exec_ptpAnnounce {o : Nat} {s : State} (h : SparAt 1 0x44 o s) (ho : o % 8 < 6)
    (hl : (s.spar 1).actions.length ≤ 15) (hg : groupServed s 0x0B (fld o 3 13) = true)
    (ht : (s.timebase.now.frac : Int) ≤ tickDiff (nextLaunch s false (fld o 3 13)) s.tickNow * 65536) :
    ∃ z, exec (.ptpAnnounce none) s = .next z ∧ Retired 1 ((s.spar 1).pc + 1) s z ∧
      (z.spar 1).actions = (s.spar 1).actions ++ [launchAt o 2 (nextLaunch s false (fld o 3 13)) 0] ∧
      (∀ j : Fin 3, j.val ≠ 1 → z.spar j = s.spar j) ∧ KeepsBut [.spars, .free] s z := by
  have hf : (if groupServed (sparBegun 1 o s) 0x0B (fld o 3 13) then
      armLaunch o 2 (nextLaunch (sparBegun 1 o s) false (fld o 3 13)) (sparBegun 1 o s) else sparBegun 1 o s) =
      armLaunch o 2 (nextLaunch s false (fld o 3 13)) (sparBegun 1 o s) := if_pos hg
  exact cadencer_launch (f := fun o s =>
    if groupServed s 0x0B (fld o 3 13) then armLaunch o 2 (nextLaunch s false (fld o 3 13)) s else s)
    h (by decide) ho hl (by simpa using ht) hf

/-! ### LTC frames (R96, R100) -/

/-- The ones of a bit string. -/
def ones (l : List Bool) : Nat := (l.filter id).length

theorem ones_append (l m : List Bool) : ones (l ++ m) = ones l + ones m := by
  simp [ones]

theorem length_bitsLsb (n v : Nat) : (bitsLsb n v).length = n := by
  simp [bitsLsb]

/-- An LTC frame has 80 bits. -/
theorem length_ltcBits (d : CadDesc) (l : Nat × Nat × Nat × Nat) : (ltcBits d l).length = 80 := by
  simp [ltcBits, length_bitsLsb]

/-- The last 16 bits of an LTC frame are the synchronising word. -/
theorem drop_ltcBits (d : CadDesc) (l : Nat × Nat × Nat × Nat) : (ltcBits d l).drop 64 = bitsLsb 16 0xBFFC := by
  unfold ltcBits
  exact List.drop_left' (by simp [length_bitsLsb])

/-- A bit that is set where the others have an odd number of ones makes the number even, in either of two places. -/
theorem ones_parity (a b c d e : List Bool) (p : Bool) :
    ones (a ++ [!p && (ones (a ++ b ++ c ++ d ++ e) % 2 == 1)] ++ b ++ [false] ++ c ++
      [p && (ones (a ++ b ++ c ++ d ++ e) % 2 == 1)] ++ d ++ e) % 2 = 0 := by
  have hbit : ∀ q : Bool, ones [q] = b2n q := by decide
  simp only [ones_append, hbit]
  rcases Nat.mod_two_eq_zero_or_one (ones a + ones b + ones c + ones d + ones e) with h | h
  all_goals
    cases p
    all_goals
      simp only [h, Bool.not_true, Bool.not_false, Bool.true_and, Bool.false_and, b2n]
      simp
      omega

/-- The ones of an LTC frame are even (R96). -/
theorem ones_ltcBits (d : CadDesc) (l : Nat × Nat × Nat × Nat) : ones (ltcBits d l) % 2 = 0 :=
  ones_parity ..

/-- An output with the bits of an LTC frame. -/
def Cadence.framed (l : List Bool) (c : Cadence) : Cadence := { c with ltc := l }

/-- The timebase with the bits of an LTC frame in one output. -/
def Timebase.framed (o : Nat) (l : List Bool) (b : Timebase) : Timebase :=
  { b with cadence := upd b.cadence o (Cadence.framed l) }

/-- The time label of the frame whose edge is nearest (R96, R100). -/
def ltcNow (s : State) (d : CadDesc) : Nat × Nat × Nat × Nat :=
  let k := frameIndex d (now125 s + edgeAt { d with phase := 0 } 1)
  ltcLabel s d k (ltcAt d k 0)

/-- LTC_FRAME's effect: the bits of one frame of the output's descriptor. -/
theorem assembleLtc_eq {o : Nat} {s : State} (hk : (vat s.timebase.cadence o).desc.kind = 4) :
    assembleLtc o s = s.updTb (Timebase.framed o
      (ltcBits (vat s.timebase.cadence o).desc (ltcNow s (vat s.timebase.cadence o).desc))) := by
  unfold assembleLtc
  dsimp only
  rw [if_neg (not_not.2 hk)]
  rfl

/-- LTC_FRAME on an output that puts out LTC. -/
theorem exec_ltcFrame {o : Nat} {s : State} (h : SparAt 1 0x41 o s) (hk : (vat s.timebase.cadence (o % 8)).desc.kind = 4) :
    ∃ z, exec (.ltcFrame none) s = .next z ∧ Retired 1 ((s.spar 1).pc + 1) s z ∧
      (vat z.timebase.cadence (o % 8)).ltc.length = 80 ∧
      (vat z.timebase.cadence (o % 8)).ltc.drop 64 = bitsLsb 16 0xBFFC ∧
      ((vat z.timebase.cadence (o % 8)).ltc.filter id).length % 2 = 0 ∧
      (vat z.timebase.cadence (o % 8)).desc = (vat s.timebase.cadence (o % 8)).desc ∧
      (∀ j : Fin 8, j.val ≠ o % 8 → vat z.timebase.cadence j = vat s.timebase.cadence j) ∧
      (∀ j : Fin 3, j.val ≠ 1 → z.spar j = s.spar j) ∧ KeepsBut [.spars, .free, .timebase] s z := by
  have hy := ((arms_sparBegun (i := 1) (by decide) o s).mono (qs := [.spars, .free, .timebase]) (by decide)).updTb
    (by decide) (f := Timebase.framed (o % 8)
      (ltcBits (vat s.timebase.cadence (o % 8)).desc (ltcNow (sparBegun 1 o s) (vat s.timebase.cadence (o % 8)).desc)))
    fun _ => rfl
  obtain ⟨z, hz, hret, -, ht, hothers, hrest⟩ := hy.retires (base := fun o s => sparRetire 1 (sparNext 1 s) (assembleLtc (o % 8) s))
    h (by decide) (by decide) (congrArg (sparRetire 1 _) (assembleLtc_eq hk))
  have hself : vat z.timebase.cadence (o % 8) =
      (vat s.timebase.cadence (o % 8)).framed
      (ltcBits (vat s.timebase.cadence (o % 8)).desc (ltcNow (sparBegun 1 o s) (vat s.timebase.cadence (o % 8)).desc)) := by
    rw [ht]
    exact vat_upd_self _ _ _ (Nat.mod_lt _ (by decide))
  refine ⟨z, hz, hret, ?_, ?_, ?_, ?_, fun j hj => ?_, hothers, hrest⟩
  · rw [hself]
    exact length_ltcBits ..
  · rw [hself]
    exact drop_ltcBits ..
  · rw [hself]
    exact ones_ltcBits ..
  · rw [hself]
    rfl
  · rw [ht]
    exact vat_upd_ne _ _ _ _ (Ne.symm hj)

/-! ### Edges (R91, R99) -/

/-- EDGE_PLAN's test of the grid's edge `j`: ahead, half a period behind the last edge, not armed yet (R91, R99). -/
def edgeFits (s : State) (o : Nat) (j : Int) : Bool :=
  let c := vat s.timebase.cadence o
  let u := edgeAt c.desc (2 * j)
  now125 s < u && (c.lastEdge : Int) + edgeAt { c.desc with phase := 0 } 1 ≤ u && !edgeArmed s o u

/-- The trailing edge of edge `j` (R94, R95). -/
def trailing (d : CadDesc) (j : Int) : Int :=
  if d.width = 0 ∨ d.kind = 2 then edgeAt d (2 * j + 1) else edgeAt d (2 * j) + d.width

/-- The timebase with edge `j` of an output planned. -/
def Timebase.planned (o : Nat) (j : Int) (b : Timebase) : Timebase :=
  { b with cadence := upd b.cadence o fun c => { c with nextEdge := (j + 1).toNat } }

/-- The action of an edge at a TAI instant in 125 ps units. -/
def edgeArm (o act : Nat) (u : Int) : Action :=
  { unit := 8 + o, action := act, tick := (u / 8 % 2 ^ 32).toNat, frac := (u % 8).toNat * 8192 }

/-- EDGE_PLAN of an output that moves arms the edge found and its trailing edge. -/
theorem planEdge_eq {o : Nat} {s : State} {j : Int} (hlive : cadenceLive s o = true)
    (hk : (vat s.timebase.cadence o).desc.kind ≠ 4)
    (hj : (((List.range 4).map fun n => frameIndex (vat s.timebase.cadence o).desc (now125 s) + n).find? (edgeFits s o)) =
      some j) :
    planEdge o s =
      armEdge o (if (vat s.timebase.cadence o).desc.flags.testBit 0 then 1 else 2) (trailing (vat s.timebase.cadence o).desc j)
        (armEdge o (if (vat s.timebase.cadence o).desc.flags.testBit 0 then 2 else 1)
          (edgeAt (vat s.timebase.cadence o).desc (2 * j)) (s.updTb (Timebase.planned o j))) := by
  unfold planEdge
  dsimp only
  rw [if_neg (by simp [hlive]), if_neg hk]
  split
  · next h => exact absurd (hj.symm.trans h) (Option.some_ne_none j)
  · next i h =>
    obtain rfl : j = i := Option.some.inj (hj.symm.trans h)
    rfl

/-- Arming an edge leaves the timebase. -/
theorem armEdge_timebase (o act : Nat) (u : Int) (s : State) : (armEdge o act u s).timebase = s.timebase := by
  unfold armEdge sched
  dsimp only
  repeat' split
  all_goals rfl

/-- An edge whose instant has not passed is armed where the queue has room. -/
theorem Arms.armEdge {o act : Nat} {u : Int} {l : List Action} {ps : List Part} {s y : State} (h : Arms ps 1 l s y)
    (hps : Part.spars ∈ ps) (ha : act ≠ 0) (hr : (s.spar 1).actions.length + l.length < 16)
    (ht : (s.timebase.now.frac : Int) ≤
      tickDiff (u / 8 % 2 ^ 32).toNat s.tickNow * 65536 + ((u % 8).toNat * 8192 : Nat)) :
    Arms ps 1 (l ++ [edgeArm o act u]) s (armEdge o act u y) := by
  have hmod : (u / 8 % 2 ^ 32).toNat % 2 ^ 32 = (u / 8 % 2 ^ 32).toNat := Nat.mod_eq_of_lt (by omega)
  have harm := h.sched (unit := 8 + o) (act := act) (arg := 0) hps (by decide) ha ht hr
  rwa [hmod] at harm

/-- The search over the next four edges finds the first that fits. -/
theorem find?_next {p : Int → Bool} {k j : Int} (hk : k ≤ j) (hj : j < k + 4) (hp : p j = true)
    (hnot : ∀ n : Fin 4, k + n.val < j → p (k + n.val) = false) :
    (((List.range 4).map fun n => k + n).find? p) = some j := by
  obtain ⟨n, rfl⟩ := Int.le.dest hk
  have hn : (List.range 4).find? (p ∘ fun n : Nat => k + n) = some n := by
    rw [List.find?_range_eq_some]
    refine ⟨hp, List.mem_range.2 (by omega), fun m hm => ?_⟩
    have := hnot ⟨m, by omega⟩ (by simpa using hm)
    simpa using this
  have hlist : ((List.range 4).map fun n => k + n) = (List.range 4).map fun n : Nat => k + n := rfl
  rw [hlist, List.find?_map, hn]
  rfl

/-- Where nothing is armed an edge fits by its instant alone. -/
theorem edgeFits_iff {s : State} (ha : (s.spar 1).actions = []) (o : Nat) (j : Int) :
    edgeFits s o j = true ↔ now125 s < edgeAt (vat s.timebase.cadence o).desc (2 * j) ∧
      ((vat s.timebase.cadence o).lastEdge : Int) + edgeAt { (vat s.timebase.cadence o).desc with phase := 0 } 1 ≤
        edgeAt (vat s.timebase.cadence o).desc (2 * j) := by
  simp [edgeFits, edgeArmed, ha]

/-- EDGE_PLAN with nothing armed: edge `j` is the first of the next four that fits. -/
theorem exec_edgePlan {o : Nat} {j : Int} {s : State} (h : SparAt 1 0x40 o s) (hlive : cadenceLive s (o % 8) = true)
    (hk : (vat s.timebase.cadence (o % 8)).desc.kind ≠ 4) (ha : (s.spar 1).actions = [])
    (hj : (((List.range 4).map fun n => frameIndex (vat s.timebase.cadence (o % 8)).desc (now125 s) + n).find?
      (edgeFits (sparBegun 1 o s) (o % 8))) = some j)
    (hu : (s.timebase.now.frac : Int) ≤
      tickDiff (edgeAt (vat s.timebase.cadence (o % 8)).desc (2 * j) / 8 % 2 ^ 32).toNat s.tickNow * 65536 +
        ((edgeAt (vat s.timebase.cadence (o % 8)).desc (2 * j) % 8).toNat * 8192 : Nat))
    (hv : (s.timebase.now.frac : Int) ≤
      tickDiff (trailing (vat s.timebase.cadence (o % 8)).desc j / 8 % 2 ^ 32).toNat s.tickNow * 65536 +
        ((trailing (vat s.timebase.cadence (o % 8)).desc j % 8).toNat * 8192 : Nat)) :
    ∃ z, exec (.edgePlan none) s = .next z ∧ Retired 1 ((s.spar 1).pc + 1) s z ∧
      (z.spar 1).actions =
        [edgeArm (o % 8) (if (vat s.timebase.cadence (o % 8)).desc.flags.testBit 0 then 2 else 1)
            (edgeAt (vat s.timebase.cadence (o % 8)).desc (2 * j)),
          edgeArm (o % 8) (if (vat s.timebase.cadence (o % 8)).desc.flags.testBit 0 then 1 else 2)
            (trailing (vat s.timebase.cadence (o % 8)).desc j)] ∧
      (vat z.timebase.cadence (o % 8)).nextEdge = (j + 1).toNat ∧
      (∀ j : Fin 3, j.val ≠ 1 → z.spar j = s.spar j) ∧ KeepsBut [.spars, .free, .timebase] s z := by
  have hact : ∀ b : Bool, (if b then 1 else 2) ≠ 0 ∧ (if b then 2 else 1) ≠ 0 := by decide
  obtain ⟨htrail, hlead⟩ := hact ((vat s.timebase.cadence (o % 8)).desc.flags.testBit 0)
  have hplanned := ((arms_sparBegun (i := 1) (by decide) o s).mono (qs := [.spars, .free, .timebase]) (by decide)).updTb
    (by decide) (f := Timebase.planned (o % 8) j) fun _ => rfl
  have hone := hplanned.armEdge (o := o % 8) (by decide) hlead (by simp [ha]) hu
  have htwo := hone.armEdge (o := o % 8) (by decide) htrail (by simp [ha]) hv
  obtain ⟨z, hz, hret, hacts, ht, hothers, hrest⟩ := htwo.retires
    (base := fun o s => sparRetire 1 (sparNext 1 s) (planEdge (o % 8) s)) h (by decide) (by decide)
    (congrArg (sparRetire 1 _) (planEdge_eq (s := sparBegun 1 o s) hlive hk hj))
  refine ⟨z, hz, hret, ?_, ?_, hothers, hrest⟩
  · rw [hacts, ha]
    rfl
  · have hnext : (vat (upd s.timebase.cadence (o % 8) fun c => { c with nextEdge := (j + 1).toNat }) (o % 8)).nextEdge =
        (j + 1).toNat := congrArg Cadence.nextEdge (vat_upd_self _ _ _ (Nat.mod_lt _ (by decide)))
    rw [ht, armEdge_timebase, armEdge_timebase]
    exact hnext

/-! ### Actions whose instant has come (R91, R320, R555, R698) -/

/-- The state in which an action of Spar `i` is performed: it has left the queue. -/
def takeAction (i k : Nat) (a : Action) (s : State) : State :=
  (s.updSpar i fun x => { x with actions := x.actions.eraseIdx k }).emit (.action i a.unit a.action a.tick)

/-- An action taken from the queue has left it, the other Spars are as before, and the action is on the log. -/
theorem takeAction_spars {i k : Nat} (hi : i < 3) (a : Action) {s z : State} (hz : z.spars = (takeAction i k a s).spars) :
    (z.spar i).actions = (s.spar i).actions.eraseIdx k ∧ ∀ j : Fin 3, j.val ≠ i → z.spar j = s.spar j := by
  have hspar : ∀ n, z.spar n = (takeAction i k a s).spar n := fun n => (congrArg (vat · n) hz :)
  refine ⟨?_, fun j hj => (hspar j).trans (spar_updSpar_of_ne hj ..)⟩
  rw [hspar]
  exact congrArg Spar.actions (spar_updSpar_self hi ..)

theorem keepsBut_takeAction (i k : Nat) (a : Action) (s : State) : KeepsBut [.spars, .out] s (takeAction i k a s) := by
  simp [KeepsBut, takeAction]

/-- An armed action whose instant has come is performed by its Spar's island (R320). -/
theorem execSchedAction_eq {i : Fin 3} {k : Fin 16} {tk : BitVec 32} {a : Action} {s : State} (h : s.powered = true)
    (ha : (s.spar i).actions[k.val]? = some a) (hp : sparPowered s i = true) (ht : 0 ≤ tickDiff tk.toNat a.tick)
    (sector : Option (Nat × Nat)) :
    execSchedAction i k tk sector s = .next (
      if i.val = 0 then gateAction a sector (takeAction i k a s)
      else if i.val = 1 then
        (if a.unit < 0x10 then edgeAction a (takeAction i k a s) else launchAction a (takeAction i k a s))
      else if radioRuns (takeAction i k a s) then radioAction a (takeAction i k a s) else takeAction i k a s) := by
  refine (running_next h).trans (congrArg Host.Outcome.next ?_)
  simp only [ha]
  rw [if_neg (by simp [hp, ht])]
  rfl

/-- The write gate opens where R555 allows it. -/
theorem gateAction_opens {a : Action} {s : State} (hu : a.unit = 2) (ha : a.action = 1) (hw : s.channel.writeOk = true)
    (hb : s.channel.wgBlocked = false) (hf : s.channel.flt = false) (hm : s.supply.mode = .run)
    (hl : headsLoaded s = true) : gateAction a none s = s.updChn fun c => { c with wg := true } := by
  simp [gateAction, hu, ha, hw, hb, hf, hm, hl]

/-- The write gate stays where it was while writing is not allowed (R555). -/
theorem gateAction_refused {a : Action} {s : State} (hu : a.unit = 2) (ha : a.action = 1) (hw : s.channel.writeOk = false) :
    gateAction a none s = s := by
  simp [gateAction, hu, ha, hw]

/-- An output after a rising or falling edge. -/
def Cadence.edged (l : Bool) (u : Nat) (c : Cadence) : Cadence :=
  { c with level := l, lastEdge := if (c.desc.kind == 4 || l != c.desc.flags.testBit 0) then u else c.lastEdge }

/-- The timebase after an edge of one output. -/
def Timebase.edged (o : Nat) (l : Bool) (u : Nat) (b : Timebase) : Timebase :=
  { b with cadence := upd b.cadence o (Cadence.edged l u) }

/-- An edge of an output that moves sets its level and is seen on its ball (R91, R102). -/
theorem edgeAction_eq {a : Action} {s : State} (hlive : cadenceLive s (a.unit - 8) = true)
    (ha : a.action = 1 ∨ a.action = 2) :
    edgeAction a s = (s.emit (.cadenceEdge (a.unit - 8) (s.timebase.now.inNs * 8 + a.frac / 8192) (decide (a.action = 1)))).updTb
      (Timebase.edged (a.unit - 8) (decide (a.action = 1)) (s.timebase.now.inNs * 8 + a.frac / 8192)) := by
  have hskip : ¬((!cadenceLive s (a.unit - 8)) = true ∨ a.action = 0 ∨ 3 < a.action) := by
    simp only [hlive]
    simp
    omega
  have hlevel : (if a.action = 3 then !(vat s.timebase.cadence (a.unit - 8)).level else a.action == 1) =
      decide (a.action = 1) := by
    rw [if_neg (by omega)]
    rfl
  unfold edgeAction
  dsimp only
  rw [if_neg hskip, hlevel]
  refine congrArg (fun v => (s.emit _).updTb fun b => { b with cadence := v }) (upd_congr _ _ rfl)

/-- A TDD gate of a band that works follows its action, unless the guard or the whole radio is muted (R698). -/
theorem radioAction_gate {a : Action} {s : State} (h20 : 0x20 ≤ a.unit) (h24 : a.unit < 0x24)
    (hf : (s.bandOf (a.unit - 0x20)).flags.testBit 0 = true) (hoff : (s.bandOf (a.unit - 0x20)).state ≠ .off)
    (hfault : (s.bandOf (a.unit - 0x20)).state ≠ .fault) (ha : a.action = 1 ∨ a.action = 2) :
    radioAction a s = s.updBand (a.unit - 0x20) fun x =>
      { x with gate := a.action == 1 && !s.radio.guardMute && !wholeCause s.radio } := by
  have hb : (a.unit - 0x20) % 4 = a.unit - 0x20 := Nat.mod_eq_of_lt (by omega)
  unfold radioAction
  simp only [hb, if_pos h24]
  exact if_pos ⟨by simp [hf, hoff, hfault], ha⟩

/-- SCHED_ACTION of the write gate where R555 allows it. -/
theorem exec_schedAction_gateOpens {k : Fin 16} {tk : BitVec 32} {a : Action} {s : State} (h : s.powered = true)
    (ha : (s.spar 0).actions[k.val]? = some a) (hp : sparPowered s 0 = true) (ht : 0 ≤ tickDiff tk.toNat a.tick)
    (hu : a.unit = 2) (h1 : a.action = 1) (hw : s.channel.writeOk = true) (hb : s.channel.wgBlocked = false)
    (hf : s.channel.flt = false) (hm : s.supply.mode = .run) (hl : headsLoaded s = true) :
    ∃ z, exec (.schedAction 0 k tk none) s = .next z ∧ (z.spar 0).actions = (s.spar 0).actions.eraseIdx k.val ∧
      .action 0 a.unit a.action a.tick ∈ z.out ∧ z.channel = { s.channel with wg := true } ∧
      (∀ j : Fin 3, j.val ≠ 0 → z.spar j = s.spar j) ∧ KeepsBut [.spars, .out, .channel] s z := by
  have hz : execSchedAction 0 k tk none s = .next ((takeAction 0 k a s).updChn fun c => { c with wg := true }) :=
    (execSchedAction_eq h ha hp ht none).trans (congrArg Host.Outcome.next (gateAction_opens hu h1 hw hb hf hm hl))
  obtain ⟨hact, hothers⟩ := takeAction_spars (i := 0) (k := k) (by decide) a
    (z := (takeAction 0 k a s).updChn fun c => { c with wg := true }) rfl
  exact ⟨_, hz, hact, List.mem_cons_self, rfl, hothers,
    keepsBut_trans (keepsBut_mono (by decide) (keepsBut_takeAction 0 k a s)) (by simp [KeepsBut])⟩

/-- SCHED_ACTION of the write gate while writing is not allowed. -/
theorem exec_schedAction_gateRefused {k : Fin 16} {tk : BitVec 32} {a : Action} {s : State} (h : s.powered = true)
    (ha : (s.spar 0).actions[k.val]? = some a) (hp : sparPowered s 0 = true) (ht : 0 ≤ tickDiff tk.toNat a.tick)
    (hu : a.unit = 2) (h1 : a.action = 1) (hw : s.channel.writeOk = false) :
    ∃ z, exec (.schedAction 0 k tk none) s = .next z ∧ (z.spar 0).actions = (s.spar 0).actions.eraseIdx k.val ∧
      .action 0 a.unit a.action a.tick ∈ z.out ∧ z.channel = s.channel ∧
      (∀ j : Fin 3, j.val ≠ 0 → z.spar j = s.spar j) ∧ KeepsBut [.spars, .out, .channel] s z := by
  have hz : execSchedAction 0 k tk none s = .next (takeAction 0 k a s) :=
    (execSchedAction_eq h ha hp ht none).trans (congrArg Host.Outcome.next (gateAction_refused hu h1 hw))
  obtain ⟨hact, hothers⟩ := takeAction_spars (i := 0) (k := k) (by decide) a (z := takeAction 0 k a s) rfl
  exact ⟨_, hz, hact, List.mem_cons_self, rfl, hothers, keepsBut_mono (by decide) (keepsBut_takeAction 0 k a s)⟩

/-- SCHED_ACTION of an output's edge. -/
theorem exec_schedAction_edge {k : Fin 16} {tk : BitVec 32} {a : Action} {s : State} (h : s.powered = true)
    (ha : (s.spar 1).actions[k.val]? = some a) (hp : sparPowered s 1 = true) (ht : 0 ≤ tickDiff tk.toNat a.tick)
    (h8 : 8 ≤ a.unit) (h16 : a.unit < 16) (hlive : cadenceLive s (a.unit - 8) = true) (hact : a.action = 1 ∨ a.action = 2) :
    ∃ z, exec (.schedAction 1 k tk none) s = .next z ∧ (z.spar 1).actions = (s.spar 1).actions.eraseIdx k.val ∧
      .action 1 a.unit a.action a.tick ∈ z.out ∧ (vat z.timebase.cadence (a.unit - 8)).level = decide (a.action = 1) ∧
      .cadenceEdge (a.unit - 8) (s.timebase.now.inNs * 8 + a.frac / 8192) (decide (a.action = 1)) ∈ z.out ∧
      (∀ j : Fin 3, j.val ≠ 1 → z.spar j = s.spar j) ∧ KeepsBut [.spars, .out, .timebase] s z := by
  have hz : execSchedAction 1 k tk none s = .next (edgeAction a (takeAction 1 k a s)) :=
    (execSchedAction_eq h ha hp ht none).trans (congrArg Host.Outcome.next (if_pos h16))
  have hedge := edgeAction_eq (s := takeAction 1 k a s) hlive hact
  obtain ⟨hacts, hothers⟩ := takeAction_spars (i := 1) (k := k) (by decide) a (z := edgeAction a (takeAction 1 k a s))
    (by rw [hedge]; rfl)
  refine ⟨_, hz, hacts, ?_, ?_, ?_, hothers,
    keepsBut_trans (keepsBut_mono (by decide) (keepsBut_takeAction 1 k a s)) (by rw [hedge]; simp [KeepsBut])⟩
  · rw [hedge]
    exact List.mem_cons_of_mem _ List.mem_cons_self
  · rw [hedge]
    exact congrArg Cadence.level (vat_upd_self _ _ _ (by omega))
  · rw [hedge]
    exact List.mem_cons_self

/-- SCHED_ACTION of a band's TDD gate. -/
theorem exec_schedAction_tddGate {k : Fin 16} {tk : BitVec 32} {a : Action} {s : State} (h : s.powered = true)
    (ha : (s.spar 2).actions[k.val]? = some a) (hp : sparPowered s 2 = true) (ht : 0 ≤ tickDiff tk.toNat a.tick)
    (h20 : 0x20 ≤ a.unit) (h24 : a.unit < 0x24) (hr : radioRuns s = true)
    (hf : (s.bandOf (a.unit - 0x20)).flags.testBit 0 = true) (hoff : (s.bandOf (a.unit - 0x20)).state ≠ .off)
    (hfault : (s.bandOf (a.unit - 0x20)).state ≠ .fault) (hact : a.action = 1 ∨ a.action = 2) :
    ∃ z, exec (.schedAction 2 k tk none) s = .next z ∧ (z.spar 2).actions = (s.spar 2).actions.eraseIdx k.val ∧
      .action 2 a.unit a.action a.tick ∈ z.out ∧
      (z.bandOf (a.unit - 0x20)).gate = (decide (a.action = 1) && !s.radio.guardMute && !wholeCause s.radio) ∧
      (∀ j : Fin 3, j.val ≠ 2 → z.spar j = s.spar j) ∧ KeepsBut [.spars, .out, .radio] s z := by
  have hz : execSchedAction 2 k tk none s = .next (radioAction a (takeAction 2 k a s)) :=
    (execSchedAction_eq h ha hp ht none).trans (congrArg Host.Outcome.next (if_pos hr))
  have hgate := radioAction_gate (s := takeAction 2 k a s) h20 h24 hf hoff hfault hact
  obtain ⟨hacts, hothers⟩ := takeAction_spars (i := 2) (k := k) (by decide) a (z := radioAction a (takeAction 2 k a s))
    (by rw [hgate]; rfl)
  refine ⟨_, hz, hacts, ?_, ?_, hothers,
    keepsBut_trans (keepsBut_mono (by decide) (keepsBut_takeAction 2 k a s)) (by rw [hgate]; simp [KeepsBut, State.updBand, State.updRad])⟩
  · rw [hgate]
    exact List.mem_cons_self
  · rw [hgate]
    exact congrArg Band.gate (vat_upd_self _ _ _ (by omega))

/-- Settles O32: each instruction by its effect and `retired_of_spared`, those that arm actions by `Arms.retires`, the
actions performed by `execSchedAction_eq`. -/
theorem formatterAndCadenceInstructionsArm : Obligations.FormatterAndCadenceInstructionsArm := by
  unfold Obligations.FormatterAndCadenceInstructionsArm
  refine ⟨fun o s h hw hm => exec_wedgeSync h hw hm, fun o s h => exec_headSelect h, fun o s h hl => exec_seekStart h hl,
    fun o s h hon => exec_settleCheck h hon, fun o r f s h hl hr hf hvr hvf => exec_writeSector h hl hr hf hvr hvf,
    fun o r f s h hl hr hf => formatter_readGate h (by decide) hl hr hf,
    fun o r f s h hl hr hf => formatter_readGate h (by decide) hl hr hf, fun o s h => exec_skipDefect h,
    fun o d j u v s h hd hlive hk ha hj0 hj4 hfit hnot hu hv hur hvr => ?_, fun o s h hk => exec_ltcFrame h hk,
    fun o s h ho hl hg ht => ?_, fun o s h ho hl => ?_, fun o s h ho hl hg ht => ?_,
    fun k tk a s h ha hp ht hu h1 hw hb hf hm hl => exec_schedAction_gateOpens h ha hp ht hu h1 hw hb hf hm hl,
    fun k tk a s h ha hp ht hu h1 hw => exec_schedAction_gateRefused h ha hp ht hu h1 hw,
    fun k tk a s h ha hp ht h8 h16 hlive hact => exec_schedAction_edge h ha hp ht h8 h16 hlive hact,
    fun k tk a s h ha hp ht h20 h24 hr hf hoff hfault hact =>
      exec_schedAction_tddGate h ha hp ht h20 h24 hr hf hoff hfault hact⟩
  · subst hd hu hv
    have hempty : ((sparBegun 1 o s).spar 1).actions = [] := (sparBegun_spar (by decide) o s).2.trans ha
    refine exec_edgePlan h hlive hk ha (find?_next hj0 hj4 ?_ fun n hn => ?_) hur hvr
    · exact (edgeFits_iff hempty ..).2 hfit
    · rw [Bool.eq_false_iff]
      exact fun hp => hnot n hn ((edgeFits_iff hempty ..).1 hp)
  · exact exec_ptpSyncLaunch h ho hl hg ht
  · exact exec_ptpFollowUp h ho hl
  · exact exec_ptpAnnounce h ho hl hg ht

end Sys2Proof.Machine
end

section
/-! ## Every row keeps the Loft's memory in canonical form (R129, R130, R149) -/
namespace Sys2Proof.Machine
open Sys2Proof

/-- What every command answers has its memory in canonical form: a row that leaves the Loft alone by `keepsMem_of`, one that
may write it by the lemma for what it writes. -/
theorem exec_keepsMem {s : State} (h : s.memOk) : ∀ c : Instr, keepsMem (exec c s)
  | .mbDoorbell .. => execMbDoorbell_memWf _ _ _ _ h
  | .asyncCompletion .. => execAsyncCompletion_memWf _ _ _ _ _ h
  | .tenResetWrite .. => execTenResetWrite_memWf _ _ _ h
  | .tenantResetComplete .. => execTenantResetComplete_memWf _ _ h
  | .functionLevelReset .. => execFunctionLevelReset_memWf _ _ h
  | .perstN .. => execPerstN_memWf _ _ h
  | .timeLatch .. => keepsMem_of (execTimeLatch_loft _ _ _) h
  | .irqRawClear .. => keepsMem_of (execIrqRawClear_loft _ _ _ _ _) h
  | .irqMaskWrite .. => keepsMem_of (execIrqMaskWrite_loft _ _ _ _) h
  | .irqForce .. => keepsMem_of (execIrqForce_loft _ _ _ _) h
  | .vectorUnmask .. => keepsMem_of (execVectorUnmask_loft _ _ _) h
  | .ringTailWrite .. => keepsMem_of (execRingTailWrite_loft _ _ _ _) h
  | .ringHeadWrite .. => keepsMem_of (execRingHeadWrite_loft _ _ _ _) h
  | .brcReadSeqLo .. => keepsMem_of (execBrcReadSeqLo_loft _ _ _) h
  | .brcData15Read .. => keepsMem_of (execBrcData15Read_loft _ _) h
  | .registerWrite .. => execRegisterWrite_memWf _ _ _ _ h
  | .regWrite .. => execRegWrite_memWf _ _ _ h
  | .regRead .. => keepsMem_of (execRegRead_loft _ _ _) h
  | .status .. => keepsMem_of (execStatus_loft _ _) h
  | .loftWrite .. => execLoftWrite_memWf _ _ _ _ h
  | .loftRead .. => keepsMem_of (execLoftRead_loft _ _ _ _) h
  | .apertureRead .. => execApertureRead_memWf _ _ _ _ _ h
  | .apertureWrite .. => execApertureWrite_memWf _ _ _ _ h
  | .submitConsume .. => execSubmitConsume_memWf _ _ h
  | .ringAttention .. => keepsMem_of (execRingAttention_loft _ _ _) h
  | .submitNop .. => execSubmitNop_memWf _ _ h
  | .loftDmaIn .. => execLoftDmaIn_memWf _ _ h
  | .loftDmaOut .. => execLoftDmaOut_memWf _ _ h
  | .netSend .. => execNetSend_memWf _ _ h
  | .diskRead .. => execDiskRead_memWf _ _ h
  | .diskWrite .. => execDiskWrite_memWf _ _ h
  | .diskStampRead .. => execDiskStampRead_memWf _ _ h
  | .casCopy .. => execCasCopy_memWf _ _ h
  | .sysGetInfo .. => keepsMem_of (execSysGetInfo_loft _ _) h
  | .sysSetMode .. => execSysSetMode_memWf _ _ h
  | .shelfStopTimeout .. => execShelfStopTimeout_memWf _ _ h
  | .modeChangeComplete .. => execModeChangeComplete_memWf _ h
  | .sysEcho .. => keepsMem_of (execSysEcho_loft _ _) h
  | .tenReset .. => execTenReset_memWf _ _ h
  | .svcAssign .. => keepsMem_of (execSvcAssign_loft _ _) h
  | .tenEnable .. => execTenEnable_memWf _ _ h
  | .tenGetStatus .. => keepsMem_of (execTenGetStatus_loft _ _) h
  | .svcGet .. => keepsMem_of (execSvcGet_loft _ _) h
  | .tenFault .. => keepsMem_of (execTenFault_loft _ _) h
  | .sysSupplyConfig .. => keepsMem_of (execSysSupplyConfig_loft _ _) h
  | .sysSupplyStatus .. => keepsMem_of (execSysSupplyStatus_loft _ _) h
  | .loftAlloc .. => execLoftAlloc_memWf _ _ h
  | .loftFree .. => execLoftFree_memWf _ _ h
  | .ringOpen .. => execRingOpen_memWf _ _ h
  | .ringClose .. => keepsMem_of (execRingClose_loft _ _) h
  | .loftQuotaSet .. => keepsMem_of (execLoftQuotaSet_loft _ _) h
  | .loftGetStatus .. => keepsMem_of (execLoftGetStatus_loft _ _) h
  | .overload .. => keepsMem_of (execOverload_loft _ _) h
  | .patrolScrub .. => execPatrolScrub_memWf _ _ _ _ h
  | .yealmRetired .. => execYealmRetired_memWf _ _ _ h
  | .irqRouteSet .. => keepsMem_of (execIrqRouteSet_loft _ _) h
  | .irqRouteGet .. => keepsMem_of (execIrqRouteGet_loft _ _) h
  | .irqGetOwners .. => keepsMem_of (execIrqGetOwners_loft _ _) h
  | .timeGetStatus .. => keepsMem_of (execTimeGetStatus_loft _ _) h
  | .timeRefConfig .. => execTimeRefConfig_memWf _ _ h
  | .timeDpllConfig .. => keepsMem_of (execTimeDpllConfig_loft _ _) h
  | .timeOscConfig .. => keepsMem_of (execTimeOscConfig_loft _ _) h
  | .timeSelect .. => execTimeSelect_memWf _ _ h
  | .timeSet .. => execTimeSet_memWf _ _ h
  | .timeSetOffsets .. => execTimeSetOffsets_memWf _ _ h
  | .timeSchedule .. => keepsMem_of (execTimeSchedule_loft _ _) h
  | .timeGetOffsets .. => keepsMem_of (execTimeGetOffsets_loft _ _) h
  | .timeCadenceSet .. => keepsMem_of (execTimeCadenceSet_loft _ _) h
  | .timeCadenceGet .. => keepsMem_of (execTimeCadenceGet_loft _ _) h
  | .timeTimArm .. => keepsMem_of (execTimeTimArm_loft _ _) h
  | .timeTimRead .. => keepsMem_of (execTimeTimRead_loft _ _) h
  | .timeSpineCalRead .. => keepsMem_of (execTimeSpineCalRead_loft _ _) h
  | .timeGnssSend .. => keepsMem_of (execTimeGnssSend_loft _ _) h
  | .timeRefStatus .. => keepsMem_of (execTimeRefStatus_loft _ _) h
  | .gnssSentence .. => keepsMem_of (execGnssSentence_loft _ _ _) h
  | .gnssPps .. => keepsMem_of (execGnssPps_loft _ _) h
  | .refPpsEdge .. => keepsMem_of (execRefPpsEdge_loft _ _ _) h
  | .refQualified .. => execRefQualified_memWf _ _ _ _ h
  | .refDisqualified .. => execRefDisqualified_memWf _ _ _ h
  | .waitToRestore .. => execWaitToRestore_memWf _ _ _ _ h
  | .dpllUpdate .. => keepsMem_of (execDpllUpdate_loft _ _) h
  | .dpllLocked .. => keepsMem_of (execDpllLocked_loft _ _ _ _) h
  | .dpllPhaseLoss .. => keepsMem_of (execDpllPhaseLoss_loft _ _ _) h
  | .holdoverLimit .. => keepsMem_of (execHoldoverLimit_loft _ _) h
  | .steerLimit .. => keepsMem_of (execSteerLimit_loft _ _) h
  | .scheduleInstant .. => keepsMem_of (execScheduleInstant_loft _) h
  | .scheduleWarning .. => keepsMem_of (execScheduleWarning_loft _) h
  | .spineFrame .. => execSpineFrame_memWf _ _ _ h
  | .spineCalibration .. => keepsMem_of (execSpineCalibration_loft _ _ _ _ _ _) h
  | .cadenceDescriptorApply .. => keepsMem_of (execCadenceDescriptorApply_loft _ _) h
  | .timInEdge .. => keepsMem_of (execTimInEdge_loft _ _ _ _ _ _ _) h
  | .oscInLoss .. => execOscInLoss_memWf _ _ h
  | .oscInRestored .. => keepsMem_of (execOscInRestored_loft _ _) h
  | .sdRefclkLoss .. => execSdRefclkLoss_memWf _ _ _ h
  | .sdRefclkRestored .. => keepsMem_of (execSdRefclkRestored_loft _ _) h
  | .vinWake .. => execVinWake_memWf _ _ _ _ _ _ _ h
  | .wakeN .. => execWakeN_memWf _ _ _ _ _ _ h
  | .resetN .. => execResetN_memWf _ _ h
  | .retractEndReset .. => execRetractEndReset_memWf _ _ _ _ h
  | .guardPowerOnReset .. => execGuardPowerOnReset_memWf _ _ h
  | .undervoltageLockout .. => execUndervoltageLockout_memWf _ _ _ h
  | .bootImageCheck .. => execBootImageCheck_memWf _ _ _ _ h
  | .campelStartTimeout .. => keepsMem_of (execCampelStartTimeout_loft _ _) h
  | .cascadeBootTimeout .. => keepsMem_of (execCascadeBootTimeout_loft _ _) h
  | .bootComplete .. => keepsMem_of (execBootComplete_loft _) h
  | .bootGetStatus .. => keepsMem_of (execBootGetStatus_loft _ _) h
  | .bootOtpRead .. => keepsMem_of (execBootOtpRead_loft _ _) h
  | .bootOtpProgram .. => keepsMem_of (execBootOtpProgram_loft _ _) h
  | .bootRollbackCommit .. => keepsMem_of (execBootRollbackCommit_loft _ _) h
  | .bootPushDone .. => keepsMem_of (execBootPushDone_loft _ _) h
  | .bootEpochSet .. => keepsMem_of (execBootEpochSet_loft _ _) h
  | .bootRestart .. => keepsMem_of (execBootRestart_loft _ _) h
  | .bootFlashErase .. => keepsMem_of (execBootFlashErase_loft _ _) h
  | .bootFlashWrite .. => execBootFlashWrite_memWf _ _ h
  | .bootSlotCheck .. => keepsMem_of (execBootSlotCheck_loft _ _) h
  | .sparGetVersion .. => keepsMem_of (execSparGetVersion_loft _ _) h
  | .sparGetStatus .. => keepsMem_of (execSparGetStatus_loft _ _) h
  | .sparReload .. => keepsMem_of (execSparReload_loft _ _) h
  | .sparPatchCheck .. => execSparPatchCheck_memWf _ _ h
  | .haltRequest .. => execHaltRequest_memWf _ _ h
  | .bankSwitch .. => execBankSwitch_memWf _ _ _ _ _ _ h
  | .nop .. => execNop_memWf _ _ _ h
  | .jump .. => execJump_memWf _ _ _ h
  | .jumpIfInbound .. => execJumpIfInbound_memWf _ _ _ h
  | .waitTick .. => execWaitTick_memWf _ _ _ h
  | .waitEvent .. => execWaitEvent_memWf _ _ _ h
  | .signal .. => execSignal_memWf _ _ _ h
  | .halt .. => execHalt_memWf _ _ _ h
  | .loop .. => execLoop_memWf _ _ _ h
  | .wedgeSync .. => execWedgeSync_memWf _ _ h
  | .headSelect .. => execHeadSelect_memWf _ _ h
  | .seekStart .. => execSeekStart_memWf _ _ h
  | .settleCheck .. => execSettleCheck_memWf _ _ h
  | .writeSector .. => execWriteSector_memWf _ _ _ _ h
  | .readSector .. => execReadSector_memWf _ _ _ _ h
  | .verifySector .. => execVerifySector_memWf _ _ _ _ h
  | .skipDefect .. => execSkipDefect_memWf _ _ h
  | .edgePlan .. => execEdgePlan_memWf _ _ h
  | .ltcFrame .. => execLtcFrame_memWf _ _ h
  | .ptpSyncLaunch .. => execPtpSyncLaunch_memWf _ _ h
  | .ptpFollowUp .. => execPtpFollowUp_memWf _ _ h
  | .ptpAnnounce .. => execPtpAnnounce_memWf _ _ h
  | .bandState .. => execBandState_memWf _ _ h
  | .synthHop .. => execSynthHop_memWf _ _ h
  | .tddStep .. => execTddStep_memWf _ _ h
  | .powerStep .. => execPowerStep_memWf _ _ h
  | .ditherChip .. => execDitherChip_memWf _ _ h
  | .detSample .. => execDetSample_memWf _ _ _ h
  | .rfspiXfer .. => execRfspiXfer_memWf _ _ h
  | .interruptVector .. => execInterruptVector_memWf _ _ _ _ h
  | .twaitRelease .. => execTwaitRelease_memWf _ _ _ h
  | .ewaitRelease .. => execEwaitRelease_memWf _ _ _ _ h
  | .schedAction .. => keepsMem_of (execSchedAction_loft _ _ _ _ _) h
  | .frameReceived .. => execFrameReceived_memWf _ _ _ _ _ _ _ _ h
  | .xoffRepeat .. => keepsMem_of (execXoffRepeat_loft _ _ _) h
  | .xon .. => keepsMem_of (execXon_loft _ _) h
  | .heldFrameAdmit .. => execHeldFrameAdmit_memWf _ _ h
  | .heldFrameTimeout .. => execHeldFrameTimeout_memWf _ _ _ h
  | .pauseReceived .. => keepsMem_of (execPauseReceived_loft _ _ _ _) h
  | .pauseEnd .. => keepsMem_of (execPauseEnd_loft _ _ _) h
  | .frameSent .. => execFrameSent_memWf _ _ _ _ _ h
  | .linkUp .. => execLinkUp_memWf _ _ _ _ h
  | .linkDown .. => execLinkDown_memWf _ _ _ _ h
  | .sfpLosEdge .. => keepsMem_of (execSfpLosEdge_loft _ _ _) h
  | .sfpPresencePoll .. => keepsMem_of (execSfpPresencePoll_loft _ _ _ _ _) h
  | .ddmPoll .. => keepsMem_of (execDdmPoll_loft _ _ _ _ _) h
  | .sfpStuckRetry .. => keepsMem_of (execSfpStuckRetry_loft _ _ _) h
  | .lpiEntry .. => keepsMem_of (execLpiEntry_loft _ _ _ _) h
  | .lpiExit .. => keepsMem_of (execLpiExit_loft _ _ _) h
  | .lldpSend .. => keepsMem_of (execLldpSend_loft _ _ _ _) h
  | .lldpduReceived .. => keepsMem_of (execLldpduReceived_loft _ _ _ _ _ _) h
  | .errSummary .. => keepsMem_of (execErrSummary_loft _ _ _) h
  | .portFailed .. => execPortFailed_memWf _ _ _ _ _ h
  | .portRestored .. => keepsMem_of (execPortRestored_loft _ _ _) h
  | .ethPortConfig .. => execEthPortConfig_memWf _ _ h
  | .ethPortStatus .. => keepsMem_of (execEthPortStatus_loft _ _) h
  | .ethPortCounters .. => keepsMem_of (execEthPortCounters_loft _ _) h
  | .ethFlowSet .. => keepsMem_of (execEthFlowSet_loft _ _) h
  | .ethFlowGet .. => keepsMem_of (execEthFlowGet_loft _ _) h
  | .ethFlowCounters .. => keepsMem_of (execEthFlowCounters_loft _ _) h
  | .ethSfpXfer .. => execEthSfpXfer_memWf _ _ h
  | .delayReq .. => execDelayReq_memWf _ _ _ h
  | .signalingRequest .. => keepsMem_of (execSignalingRequest_loft _ _ _ _ _ _) h
  | .cancelUnicastTransmission .. => keepsMem_of (execCancelUnicastTransmission_loft _ _ _ _) h
  | .grantExpiry .. => keepsMem_of (execGrantExpiry_loft _ _ _ _) h
  | .grantRenewal .. => keepsMem_of (execGrantRenewal_loft _ _ _ _ _) h
  | .grantReceived .. => keepsMem_of (execGrantReceived_loft _ _ _ _ _) h
  | .announceReceived .. => execAnnounceReceived_memWf _ _ _ _ h
  | .announceReceiptTimeout .. => execAnnounceReceiptTimeout_memWf _ _ _ h
  | .syncReceived .. => keepsMem_of (execSyncReceived_loft _ _ _ _ _ _) h
  | .followUpReceived .. => keepsMem_of (execFollowUpReceived_loft _ _ _ _ _) h
  | .delayRespReceived .. => execDelayRespReceived_memWf _ _ _ _ _ _ _ _ h
  | .syncTimeout .. => execSyncTimeout_memWf _ _ _ h
  | .authTimeout .. => execAuthTimeout_memWf _ _ _ h
  | .managementReceived .. => keepsMem_of (execManagementReceived_loft _ _ _ _) h
  | .pdelayReceived .. => keepsMem_of (execPdelayReceived_loft _ _) h
  | .followUp .. => keepsMem_of (execFollowUp_loft _ _) h
  | .smTlvSend .. => keepsMem_of (execSmTlvSend_loft _ _) h
  | .ptpGetStatus .. => keepsMem_of (execPtpGetStatus_loft _ _) h
  | .ptpInstanceConfig .. => execPtpInstanceConfig_memWf _ _ h
  | .ptpInstanceStatus .. => keepsMem_of (execPtpInstanceStatus_loft _ _) h
  | .ptpFollowersGet .. => keepsMem_of (execPtpFollowersGet_loft _ _) h
  | .ptpUnicastMastersSet .. => keepsMem_of (execPtpUnicastMastersSet_loft _ _) h
  | .ptpClockConfig .. => execPtpClockConfig_memWf _ _ h
  | .ptpAsymSet .. => keepsMem_of (execPtpAsymSet_loft _ _) h
  | .ptpCalRun .. => keepsMem_of (execPtpCalRun_loft _ _) h
  | .ptpAuthConfig .. => keepsMem_of (execPtpAuthConfig_loft _ _) h
  | .ptpFollowerDrop .. => keepsMem_of (execPtpFollowerDrop_loft _ _) h
  | .ptpCounters .. => keepsMem_of (execPtpCounters_loft _ _) h
  | .alignEnd .. => keepsMem_of (execAlignEnd_loft _ _ _) h
  | .zeroCrossing .. => keepsMem_of (execZeroCrossing_loft _ _ _ _ _) h
  | .commutationStep .. => keepsMem_of (execCommutationStep_loft _ _ _ _ _) h
  | .handoverTimeout .. => execHandoverTimeout_memWf _ _ _ h
  | .handoverRetry .. => keepsMem_of (execHandoverRetry_loft _ _ _) h
  | .atSpeed .. => execAtSpeed_memWf _ _ _ h
  | .spinupTimeout .. => execSpinupTimeout_memWf _ _ h
  | .servoIndex .. => keepsMem_of (execServoIndex_loft _ _) h
  | .genlockLocked .. => keepsMem_of (execGenlockLocked_loft _) h
  | .genlockUnlock .. => keepsMem_of (execGenlockUnlock_loft _) h
  | .decelToBrake .. => keepsMem_of (execDecelToBrake_loft _ _) h
  | .brakeEnd .. => execBrakeEnd_memWf _ _ _ h
  | .regenLimit .. => keepsMem_of (execRegenLimit_loft _ _) h
  | .regenClamp .. => keepsMem_of (execRegenClamp_loft _ _) h
  | .regenResume .. => keepsMem_of (execRegenResume_loft _ _) h
  | .aOvercurrent .. => execAOvercurrent_memWf _ _ _ h
  | .aStall .. => execAStall_memWf _ _ h
  | .bOvercurrent .. => keepsMem_of (execBOvercurrent_loft _ _ _) h
  | .bStall .. => keepsMem_of (execBStall_loft _ _) h
  | .bRestart .. => keepsMem_of (execBRestart_loft _ _) h
  | .speedCmdUpdate .. => keepsMem_of (execSpeedCmdUpdate_loft _ _) h
  | .speedCmdLost .. => keepsMem_of (execSpeedCmdLost_loft _ _ _ _) h
  | .speedCmdRestored .. => keepsMem_of (execSpeedCmdRestored_loft _ _) h
  | .motAConfig .. => keepsMem_of (execMotAConfig_loft _ _) h
  | .motAStart .. => keepsMem_of (execMotAStart_loft _ _) h
  | .motAStop .. => execMotAStop_memWf _ _ h
  | .motAGenlock .. => keepsMem_of (execMotAGenlock_loft _ _) h
  | .motAStatus .. => keepsMem_of (execMotAStatus_loft _ _) h
  | .motBConfig .. => keepsMem_of (execMotBConfig_loft _ _) h
  | .motBSetSpeed .. => keepsMem_of (execMotBSetSpeed_loft _ _) h
  | .motBStatus .. => keepsMem_of (execMotBStatus_loft _ _) h
  | .paFltRise .. => keepsMem_of (execPaFltRise_loft _ _) h
  | .paFltPersist .. => execPaFltPersist_memWf _ _ h
  | .servoWedge .. => execServoWedge_memWf _ _ _ _ _ _ _ _ _ _ _ _ h
  | .servoSearchEnd .. => execServoSearchEnd_memWf _ _ h
  | .seekError .. => execSeekError_memWf _ _ _ _ h
  | .loadTimeout .. => execLoadTimeout_memWf _ _ h
  | .headsParked .. => execHeadsParked_memWf _ h
  | .verifyDone .. => execVerifyDone_memWf _ _ _ _ _ _ _ _ _ _ h
  | .readDecodeDone .. => execReadDecodeDone_memWf _ _ _ _ _ _ h
  | .sliceKnownAnswerTest .. => execSliceKnownAnswerTest_memWf _ _ _ h
  | .chnHdaSet .. => keepsMem_of (execChnHdaSet_loft _ _) h
  | .chnZoneSet .. => keepsMem_of (execChnZoneSet_loft _ _) h
  | .chnCommit .. => keepsMem_of (execChnCommit_loft _ _) h
  | .chnHeads .. => execChnHeads_memWf _ _ h
  | .chnCal .. => keepsMem_of (execChnCal_loft _ _) h
  | .chnStatus .. => keepsMem_of (execChnStatus_loft _ _) h
  | .chnPaXfer .. => keepsMem_of (execChnPaXfer_loft _ _) h
  | .chnDefectRead .. => execChnDefectRead_memWf _ _ h
  | .chnDefectAdd .. => keepsMem_of (execChnDefectAdd_loft _ _) h
  | .chnSliceEnable .. => keepsMem_of (execChnSliceEnable_loft _ _) h
  | .lockGrant .. => execLockGrant_memWf _ _ h
  | .lockAged .. => execLockAged_memWf _ _ _ h
  | .diskCommandComplete .. => execDiskCommandComplete_memWf _ _ h
  | .diskGetStatus .. => keepsMem_of (execDiskGetStatus_loft _ _) h
  | .diskTagLimit .. => keepsMem_of (execDiskTagLimit_loft _ _) h
  | .recAreaSet .. => keepsMem_of (execRecAreaSet_loft _ _) h
  | .recChannelSet .. => execRecChannelSet_memWf _ _ h
  | .recChannelStatus .. => keepsMem_of (execRecChannelStatus_loft _ _) h
  | .recSegList .. => keepsMem_of (execRecSegList_loft _ _) h
  | .recSegHold .. => keepsMem_of (execRecSegHold_loft _ _) h
  | .recRead .. => execRecRead_memWf _ _ h
  | .sectorCloseTimer .. => keepsMem_of (execSectorCloseTimer_loft _ _) h
  | .framedHoldRelease .. => execFramedHoldRelease_memWf _ _ h
  | .sectorHandOver .. => execSectorHandOver_memWf _ _ h
  | .segmentClosed .. => keepsMem_of (execSegmentClosed_loft _ _ _) h
  | .blockSummary .. => keepsMem_of (execBlockSummary_loft _ _ _ _ _ _) h
  | .patternApply .. => keepsMem_of (execPatternApply_loft _ _ _) h
  | .calWaitEnd .. => execCalWaitEnd_memWf _ _ _ _ _ h
  | .hopLockCheck .. => execHopLockCheck_memWf _ _ _ _ h
  | .lockPoll .. => keepsMem_of (execLockPoll_loft _ _ _) h
  | .temperatureRead .. => keepsMem_of (execTemperatureRead_loft _ _ _ _) h
  | .rfFrameDone .. => keepsMem_of (execRfFrameDone_loft _ _) h
  | .detectorConversion .. => keepsMem_of (execDetectorConversion_loft _ _ _ _) h
  | .auxStuckRetry .. => keepsMem_of (execAuxStuckRetry_loft _ _) h
  | .radioGetStatus .. => keepsMem_of (execRadioGetStatus_loft _ _) h
  | .radioDeviceSet .. => keepsMem_of (execRadioDeviceSet_loft _ _) h
  | .radioBandConfig .. => keepsMem_of (execRadioBandConfig_loft _ _) h
  | .radioSynthConfig .. => keepsMem_of (execRadioSynthConfig_loft _ _) h
  | .radioSynthTableSet .. => keepsMem_of (execRadioSynthTableSet_loft _ _) h
  | .radioSynthCal .. => execRadioSynthCal_memWf _ _ h
  | .radioBandStart .. => keepsMem_of (execRadioBandStart_loft _ _) h
  | .radioBandStop .. => execRadioBandStop_memWf _ _ h
  | .radioBandHop .. => keepsMem_of (execRadioBandHop_loft _ _) h
  | .radioTddSet .. => keepsMem_of (execRadioTddSet_loft _ _) h
  | .radioPowerTableSet .. => keepsMem_of (execRadioPowerTableSet_loft _ _) h
  | .radioPowerSet .. => keepsMem_of (execRadioPowerSet_loft _ _) h
  | .radioBiasConfig .. => keepsMem_of (execRadioBiasConfig_loft _ _) h
  | .radioDetConfig .. => keepsMem_of (execRadioDetConfig_loft _ _) h
  | .radioDetRead .. => keepsMem_of (execRadioDetRead_loft _ _) h
  | .radioRfspiXfer .. => keepsMem_of (execRadioRfspiXfer_loft _ _) h
  | .radioAuxXfer .. => keepsMem_of (execRadioAuxXfer_loft _ _) h
  | .isoEstimate .. => keepsMem_of (execIsoEstimate_loft _ _ _ _ _ _ _) h
  | .estimateAging .. => keepsMem_of (execEstimateAging_loft _ _ _) h
  | .eaveIso .. => keepsMem_of (execEaveIso_loft _ _) h
  | .oscillationMute .. => keepsMem_of (execOscillationMute_loft _ _ _ _ _) h
  | .noiseRise .. => keepsMem_of (execNoiseRise_loft _ _ _ _ _) h
  | .outOfBand .. => keepsMem_of (execOutOfBand_loft _ _ _ _) h
  | .tddTimeMute .. => keepsMem_of (execTddTimeMute_loft _) h
  | .tddResume .. => keepsMem_of (execTddResume_loft _ _ _) h
  | .thermalMute .. => keepsMem_of (execThermalMute_loft _ _) h
  | .thermalMuteLift .. => keepsMem_of (execThermalMuteLift_loft _ _) h
  | .rfKillAssert .. => keepsMem_of (execRfKillAssert_loft _ _) h
  | .rfKillRelease .. => keepsMem_of (execRfKillRelease_loft _ _) h
  | .guardMuteRelease .. => keepsMem_of (execGuardMuteRelease_loft _ _) h
  | .backoffExpiry .. => keepsMem_of (execBackoffExpiry_loft _ _ _) h
  | .eaveGetStatus .. => keepsMem_of (execEaveGetStatus_loft _ _) h
  | .eaveConfig .. => keepsMem_of (execEaveConfig_loft _ _) h
  | .eaveShutdown .. => keepsMem_of (execEaveShutdown_loft _ _) h
  | .eaveClear .. => keepsMem_of (execEaveClear_loft _ _) h
  | .keyGetInfo .. => keepsMem_of (execKeyGetInfo_loft _ _) h
  | .keyDerive .. => keepsMem_of (execKeyDerive_loft _ _) h
  | .keyImport .. => keepsMem_of (execKeyImport_loft _ _) h
  | .keyErase .. => keepsMem_of (execKeyErase_loft _ _) h
  | .keySetUsers .. => keepsMem_of (execKeySetUsers_loft _ _) h
  | .keyWrap .. => execKeyWrap_memWf _ _ h
  | .keyClaimSet .. => keepsMem_of (execKeyClaimSet_loft _ _) h
  | .keyDebugUnlock .. => keepsMem_of (execKeyDebugUnlock_loft _ _) h
  | .keyGetStatus .. => keepsMem_of (execKeyGetStatus_loft _ _) h
  | .retiringZeroise .. => execRetiringZeroise_memWf _ _ h
  | .tapInstruction .. => execTapInstruction_memWf _ _ h
  | .brcGetStatus .. => keepsMem_of (execBrcGetStatus_loft _ _) h
  | .brcRead .. => execBrcRead_memWf _ _ h
  | .brcFind .. => execBrcFind_memWf _ _ h
  | .brcWrite .. => keepsMem_of (execBrcWrite_loft _ _) h
  | .brcCollected .. => keepsMem_of (execBrcCollected_loft _ _) h
  | .brcNvmRetest .. => keepsMem_of (execBrcNvmRetest_loft _ _) h
  | .journalSlotWrite .. => execJournalSlotWrite_memWf _ _ _ h
  | .recordsDropped .. => keepsMem_of (execRecordsDropped_loft _) h
  | .chronicleSectorWrite .. => execChronicleSectorWrite_memWf _ _ _ _ h
  | .chronicleStarted .. => execChronicleStarted_memWf _ h
  | .chronicleLag .. => keepsMem_of (execChronicleLag_loft _ _) h
  | .tightLeft .. => keepsMem_of (execTightLeft_loft _ _) h
  | .recordForward .. => keepsMem_of (execRecordForward_loft _) h
  | .discover .. => keepsMem_of (execDiscover_loft _ _) h
  | .discoverEnd .. => keepsMem_of (execDiscoverEnd_loft _ _) h
  | .discoverSend .. => keepsMem_of (execDiscoverSend_loft _) h
  | .discoverEndTimeout .. => keepsMem_of (execDiscoverEndTimeout_loft _ _) h
  | .time .. => execTime_memWf _ _ _ _ _ h
  | .timeFrameSend .. => execTimeFrameSend_memWf _ h
  | .offsets .. => keepsMem_of (execOffsets_loft _ _) h
  | .offsetsSend .. => keepsMem_of (execOffsetsSend_loft _) h
  | .role .. => keepsMem_of (execRole_loft _ _) h
  | .leaseReq .. => keepsMem_of (execLeaseReq_loft _ _) h
  | .leaseGrant .. => keepsMem_of (execLeaseGrant_loft _ _) h
  | .mboxReq .. => execMboxReq_memWf _ _ h
  | .mboxRsp .. => keepsMem_of (execMboxRsp_loft _ _) h
  | .mboxEvent .. => execMboxEvent_memWf _ _ h
  | .record .. => keepsMem_of (execRecord_loft _ _) h
  | .copy .. => execCopy_memWf _ _ h
  | .copyAck .. => execCopyAck_memWf _ _ h
  | .mirror .. => execMirror_memWf _ _ h
  | .mirrorAck .. => keepsMem_of (execMirrorAck_loft _ _) h
  | .mirrorPredecessorTimeout .. => keepsMem_of (execMirrorPredecessorTimeout_loft _ _ _) h
  | .mirrorSegmentCut .. => keepsMem_of (execMirrorSegmentCut_loft _ _ _) h
  | .imageReq .. => keepsMem_of (execImageReq_loft _ _) h
  | .image .. => execImage_memWf _ _ h
  | .imageReqRetry .. => keepsMem_of (execImageReqRetry_loft _ _) h
  | .heartbeat .. => keepsMem_of (execHeartbeat_loft _ _ _ _) h
  | .heartbeatSend .. => keepsMem_of (execHeartbeatSend_loft _) h
  | .ridgeLost .. => keepsMem_of (execRidgeLost_loft _ _) h
  | .handbackTimeout .. => execHandbackTimeout_memWf _ _ h
  | .credit .. => execCredit_memWf _ _ _ _ _ _ _ _ h
  | .ackTimeout .. => execAckTimeout_memWf _ _ _ h
  | .laneLinkUp .. => keepsMem_of (execLaneLinkUp_loft _ _ _ _) h
  | .laneLinkDown .. => execLaneLinkDown_memWf _ _ h
  | .linkDownRelease .. => execLinkDownRelease_memWf _ _ _ h
  | .rateIdle .. => keepsMem_of (execRateIdle_loft _ _ _ _) h
  | .reqDown .. => keepsMem_of (execReqDown_loft _ _ _ _ _) h
  | .reqUp .. => keepsMem_of (execReqUp_loft _ _ _) h
  | .ackDown lane count => keepsMem_of (execAckDown_loft lane count s) h
  | .ackUp lane count => keepsMem_of (execAckUp_loft lane count s) h
  | .refuse .. => keepsMem_of (execRefuse_loft _ _) h
  | .rateStepUpDemand .. => keepsMem_of (execRateStepUpDemand_loft _ _ _ _ _) h
  | .rateSwitch .. => keepsMem_of (execRateSwitch_loft _ _) h
  | .rateRelock .. => execRateRelock_memWf _ _ _ _ h
  | .casGetStatus .. => keepsMem_of (execCasGetStatus_loft _ _) h
  | .casLaneSet .. => keepsMem_of (execCasLaneSet_loft _ _) h
  | .casAsymSet .. => keepsMem_of (execCasAsymSet_loft _ _) h
  | .casCalRun .. => keepsMem_of (execCasCalRun_loft _ _) h
  | .casForwardSet .. => keepsMem_of (execCasForwardSet_loft _ _) h
  | .casHandback .. => keepsMem_of (execCasHandback_loft _ _) h
  | .casCounters .. => keepsMem_of (execCasCounters_loft _ _) h
  | .pfail .. => execPfail_memWf _ _ _ h
  | .pfailCleared .. => execPfailCleared_memWf _ _ _ h
  | .railFault .. => execRailFault_memWf _ _ _ h
  | .railRecovered .. => keepsMem_of (execRailRecovered_loft _ _ _) h
  | .vauxFault .. => execVauxFault_memWf _ _ _ _ h
  | .vauxRetry .. => keepsMem_of (execVauxRetry_loft _ _ _) h
  | .thermWarn .. => keepsMem_of (execThermWarn_loft _ _ _) h
  | .thermWarnClear .. => keepsMem_of (execThermWarnClear_loft _ _ _) h
  | .thermCrit .. => execThermCrit_memWf _ _ _ h
  | .thermTrip .. => execThermTrip_memWf _ _ _ h
  | .millerWatchdog .. => execMillerWatchdog_memWf _ _ _ h
  | .dmaCompletion .. => execDmaCompletion_memWf _ _ _ _ h
  | .forwardedRequestTimeout .. => keepsMem_of (execForwardedRequestTimeout_loft _ _) h
  | .lpiRxEntry .. => keepsMem_of (execLpiRxEntry_loft _ _) h
  | .lpiRxWake .. => keepsMem_of (execLpiRxWake_loft _ _) h
  | .resetNRelease .. => execResetNRelease_memWf _ _ _ _ h
  | .perstNRelease .. => keepsMem_of (execPerstNRelease_loft _) h
  | .peRefclkLoss .. => keepsMem_of (execPeRefclkLoss_loft _) h
  | .peRefclkRestored .. => keepsMem_of (execPeRefclkRestored_loft _) h
  | .guardResetRelease .. => keepsMem_of (execGuardResetRelease_loft _ _) h
  | .heldWakeRelease .. => execHeldWakeRelease_memWf _ _ _ _ _ h
  | .otpProgramComplete .. => execOtpProgramComplete_memWf _ _ h
  | .flashOperationComplete .. => execFlashOperationComplete_memWf _ _ h
  | .twoWireTransactionEnd .. => execTwoWireTransactionEnd_memWf _ _ _ _ _ _ _ h
  | .ptpCalRunEnd .. => execPtpCalRunEnd_memWf _ _ h
  | .casCalRunEnd .. => execCasCalRunEnd_memWf _ _ h

/-- Settles O3: a step is a row, by `exec_keepsMem`, or a tick. -/
theorem loftMemoryStaysCanonical : Obligations.LoftMemoryStaysCanonical := by
  unfold Obligations.LoftMemoryStaysCanonical
  intro s z h hz
  unfold step at hz
  split at hz
  · cases hz
    exact tick_memWf s h
  · next c rest _ => exact exec_keepsMem (s := { s with pending := rest }) h c z hz

end Sys2Proof.Machine
end

section
/-! ## What a device reset leaves of quotas and lane settings (R137, R929) -/
namespace Sys2Proof.Machine
open Sys2Proof

/-- The cascade island but for the pointer that forwarding keeps in the keepsake area (R916). -/
def Cascade.besidesPointer (c : Cascade) : Cascade := { c with fwdPtr := 0 }

/-- In the ROM stage a cause of SAFE changes nothing of the cascade island. -/
theorem enterSafe_cascade_rom {s : State} (h : s.campel = false) (n : Nat) : (enterSafe n s).cascade = s.cascade := by
  unfold enterSafe
  split
  · rfl
  · simp [h]

/-- The check of OTP changes nothing of the cascade island. -/
theorem romOtp_cascade {s : State} (h : s.campel = false) : (romOtp s).cascade = s.cascade := by
  have hfold : ((bootRegions.filter (regionFails s)).foldl (fun s r => otpAlarm r s) s).cascade = s.cascade ∧
      ((bootRegions.filter (regionFails s)).foldl (fun s r => otpAlarm r s) s).campel = false := by
    refine foldl_ok (fun z => z.cascade = s.cascade ∧ z.campel = false) _ (fun r z hz => ?_) _ s ⟨rfl, h⟩
    obtain ⟨hcas, hrom⟩ := hz
    exact ⟨(raiseCrumb_cascade ..).trans hcas, (campel_of_romFixed (otpAlarm_romFixed hrom r)).trans hrom⟩
  unfold romOtp
  dsimp only
  generalize (bootRegions.filter (regionFails s)).foldl (fun s r => otpAlarm r s) s = s1 at hfold ⊢
  obtain ⟨hcas, hrom⟩ := hfold
  have hsafe : (if otpSafe s1 then enterSafe 1 s1 else s1).cascade = s.cascade := by
    split
    · exact (enterSafe_cascade_rom hrom 1).trans hcas
    · exact hcas
  split
  · exact hsafe
  · split
    · exact hsafe
    · exact hsafe

/-- The setup that goes into force holds nothing of the cascade island. -/
theorem putSetup_cascade (s : State) : (putSetup s).cascade = s.cascade := by
  have hformat (f : Format) (z : State) : (putFormat f z).cascade = z.cascade := rfl
  simp only [putSetup, apply_ite State.cascade, State.updA_cascade, State.updDsk_cascade, State.updChn_cascade, hformat, ite_self]

/-- The keepsake area holds of the cascade island the pointer alone (R293). -/
theorem romKeepsake_besidesPointer (s : State) :
    (romKeepsake s).cascade.besidesPointer = s.cascade.besidesPointer := by
  unfold romKeepsake
  split
  · simp
  · have hcas (z : State) (p : Nat) (h : z.cascade = s.cascade) :
        (z.updCas fun c => { c with fwdPtr := p }).cascade.besidesPointer = s.cascade.besidesPointer := by
      rw [← h]; rfl
    dsimp only
    split
    · exact hcas _ _ (putSetup_cascade _)
    · split
      · exact hcas _ _ (putSetup_cascade _)
      · exact hcas _ _ (putSetup_cascade _)

/-- A device reset leaves the cascade island at its reset values but for the pointer (R929). -/
theorem deviceReset_besidesPointer (cause : Nat) (s : State) :
    (deviceReset cause s).cascade.besidesPointer = ({} : Cascade) := by
  unfold deviceReset romSteps
  dsimp only
  rw [if_neg (by simp [resetBase])]
  refine (romKeepsake_besidesPointer _).trans ?_
  rw [romOtp_cascade rfl]
  rfl

/-- Settles O4: of the reset state by evaluation; a device reset leaves tenants and Loft by `deviceReset_romFixed`, the lane
settings by `deviceReset_besidesPointer`. -/
theorem resetLeavesTheStatedValues : Obligations.ResetLeavesTheStatedValues := by
  unfold Obligations.ResetLeavesTheStatedValues
  have hreset : ∀ t : Fin 8, (State.reset.ten t).quota = (if t = 0 then 2064384 else 0) ∧
      (State.reset.ten t).ingress = if t = 0 then 1935360 else 0 := by decide
  refine ⟨⟨hreset, by decide, rfl, rfl, rfl, rfl⟩, fun cause s => ?_⟩
  have hten : (deviceReset cause s).tenants = State.reset.tenants := (congrArg State.tenants (deviceReset_romFixed cause s) :)
  have hmem : (deviceReset cause s).loft.mem = [] := (congrArg (fun z : State => z.loft.mem) (deviceReset_romFixed cause s) :)
  have hcas := deviceReset_besidesPointer cause s
  have hlane : (deviceReset cause s).cascade.lane = ({} : Cascade).lane := (congrArg Cascade.lane hcas :)
  refine ⟨fun t => ?_, fun l => ?_, (congrArg Cascade.asymFull hcas :), (congrArg Cascade.asymQuarter hcas :), by rw [hmem]; rfl⟩
  · simp only [State.ten, hten]
    exact hreset t
  · simp only [State.laneOf, hlane]
    revert l
    decide

end Sys2Proof.Machine
end

section
/-! ## Descriptors that the device produces, and yealms that device work gives back (R131, R160, R163, R164, R168) -/
namespace Sys2Proof.Machine
open Sys2Proof

/-! ### One ring, one tenant -/

/-- A ring just changed. -/
theorem ring_updRing_self {n : Nat} (hn : n < 32) (f : Ring → Ring) (s : State) : (s.updRing n f).ring n = f (s.ring n) :=
  vat_upd_self _ _ _ hn

/-- A change of one ring leaves every other. -/
theorem ring_updRing_of_ne {n k : Nat} (h : n ≠ k) (f : Ring → Ring) (s : State) : (s.updRing n f).ring k = s.ring k :=
  vat_upd_ne _ _ _ _ h

/-- A change of a ring that keeps something of it keeps that of every ring. -/
theorem ring_updRing_keep {β : Type} (p : Ring → β) (f : Ring → Ring) (h : ∀ r, p (f r) = p r) (n k : Nat) (s : State) :
    p ((s.updRing n f).ring k) = p (s.ring k) := vat_upd_keep _ _ _ _ p h

/-- A change of a ring is known by what it does to the ring that is there. -/
theorem updRing_congr {n : Nat} {f g : Ring → Ring} {s : State} (h : f (s.ring n) = g (s.ring n)) :
    s.updRing n f = s.updRing n g := by
  simp only [State.updRing, upd_congr s.rings n (f := f) (g := g) h]

/-- Equal rings, ring by ring. -/
theorem ring_of_rings {s z : State} (h : z.rings = s.rings) (n : Nat) : z.ring n = s.ring n :=
  congrArg (fun v => vat v n) h

/-- The EVENT ring of a tenant is one of the 32. -/
theorem eventRing_lt {s : State} {t n : Nat} (h : eventRing s t = some n) : n < 32 :=
  List.mem_range.1 (List.mem_of_find?_eq_some h)

/-- The EVENT ring of a tenant depends on the rings alone. -/
theorem eventRing_of_rings {s z : State} (h : z.rings = s.rings) (t : Nat) : eventRing z t = eventRing s t := by
  unfold eventRing
  simp only [ring_of_rings h]

/-- A change of one tenant, seen at any. -/
theorem ten_updTen (t k : Fin 8) (f : Tenant → Tenant) (s : State) :
    (s.updTen t f).ten k = if k = t then f (s.ten t) else s.ten k := by
  split
  · next h => subst h; exact vat_upd_fin ..
  · next h => exact vat_upd_ne _ _ _ _ fun e => h (Fin.ext e.symm)

/-- Equal tenants, tenant by tenant. -/
theorem ten_of_tenants {s z : State} (h : z.tenants = s.tenants) (t : Nat) : z.ten t = s.ten t :=
  congrArg (fun v => vat v t) h

/-! ### Reads of a part of what was stored -/

/-- A read depends on the memory alone. -/
theorem loftRead_of_mem {s z : State} (h : z.loft.mem = s.loft.mem) (a n : Nat) : loftRead z a n = loftRead s a n := by
  simp only [loftRead, h]

/-- A byte depends on the memory alone. -/
theorem byte_of_mem {s z : State} (h : z.loft.mem = s.loft.mem) (a : Nat) : z.byte a = s.byte a := by
  simp only [State.byte, h]

/-- Of what was stored the first bytes are read back. -/
theorem loftRead_loftWrite_append (a : Nat) (b c : Bytes) (s : State) :
    loftRead (loftWrite a (b ++ c) s) a b.length = b := by
  rw [loftRead_eq_map_byte]
  refine List.ext_getElem (by simp) fun i _ hi => ?_
  rw [List.getElem_map, List.getElem_range, byte_loftWrite a (b ++ c) s i (by rw [List.length_append]; omega)]
  exact List.getElem_append_left hi

/-- A read apart from a store is as before. -/
theorem loftRead_loftWrite_of_apart {a x n : Nat} {bs : Bytes} (h : x + n ≤ a ∨ a + bs.length ≤ x) (s : State) :
    loftRead (loftWrite a bs s) x n = loftRead s x n := by
  rw [loftRead_eq_map_byte, loftRead_eq_map_byte]
  refine List.map_congr_left fun i hi => byte_loftWrite_of_out a bs s (x + i) ?_
  have := List.mem_range.1 hi
  omega

@[simp] theorem length_fit (n : Nat) (l : Bytes) : (fit n l).length = n := by
  simp only [fit, zeros, List.length_append, List.length_take, List.length_replicate]
  omega

/-- A string of the length asked for is left as it is. -/
theorem fit_of_length {n : Nat} {l : Bytes} (h : l.length = n) : fit n l = l := by
  subst h
  simp [fit, zeros]

@[simp] theorem length_zeros (n : Nat) : (zeros n).length = n := List.length_replicate

@[simp] theorem length_timeBytes (t : Time) : t.bytes.length = 10 := by simp [Time.bytes]

/-- A COMPLETE descriptor is 31 bytes before PHASE (Table LFT.9). -/
theorem length_completeDesc (cls st tag count flags : Nat) (result : Bytes) (t : Time) :
    (completeDesc cls st tag count flags result t).length = 31 := by simp [completeDesc]

/-- An EVENT descriptor is 31 bytes before PHASE (Table LFT.11). -/
theorem length_eventDesc (kind st code tok ten origin : Nat) (data : Bytes) (t : Time) :
    (eventDesc kind st code tok ten origin data t).length = 31 := by simp [eventDesc]

/-! ### Production (R160, R164) -/

/-- The ring after one more descriptor. -/
def Ring.produced (r : Ring) : Ring := { r with tail := (r.tail + 1) % 2 ^ 32 }

/-- PHASE of the slot at TAIL (R160). -/
def Ring.phase (r : Ring) : BitVec 8 := if r.tail / r.depth % 2 = 0 then 1 else 0

/-- The next slot of a ring, where the device puts its next descriptor. -/
def State.slot (s : State) (n : Nat) : Nat := slotAddr n (s.ring n) (s.ring n).tail

/-- A production is the store of a slot and the move of TAIL, and may ring (R160, R164). -/
theorem produce_eq (n : Nat) (body : Bytes) (s : State) :
    ∃ z, (z = (loftWrite (s.slot n) (fit 31 body ++ [(s.ring n).phase]) s).updRing n Ring.produced) ∧
      (produce n body s = z ∨ produce n body s = raiseSrc n z) :=
  ⟨_, rfl, (ite_eq_or_eq _ _ _).symm⟩

@[simp] theorem produce_rings (n : Nat) (body : Bytes) (s : State) :
    (produce n body s).rings = upd s.rings n Ring.produced := by
  obtain ⟨z, rfl, h | h⟩ := produce_eq n body s
  · rw [h]; rfl
  · rw [h, raiseSrc_rings]; rfl

@[simp] theorem produce_loft (n : Nat) (body : Bytes) (s : State) :
    (produce n body s).loft = (loftWrite (s.slot n) (fit 31 body ++ [(s.ring n).phase]) s).loft := by
  obtain ⟨z, rfl, h | h⟩ := produce_eq n body s
  · rw [h]; rfl
  · rw [h, raiseSrc_loft]; rfl

/-- The state with everything that a production may change put at its default: rings, Loft, views, what leaves the device. -/
def State.besidesProduction (s : State) : State :=
  { s with views := State.reset.views, rings := State.reset.rings, loft := {}, out := [] }

@[simp] theorem raiseSrc_besidesProduction (src : Nat) (s : State) :
    (raiseSrc src s).besidesProduction = s.besidesProduction := by simp [State.besidesProduction]

@[simp] theorem produce_besidesProduction (n : Nat) (body : Bytes) (s : State) :
    (produce n body s).besidesProduction = s.besidesProduction := by
  obtain ⟨z, rfl, h | h⟩ := produce_eq n body s
  · rw [h]; rfl
  · rw [h, raiseSrc_besidesProduction]; rfl

/-- What leaves the rest of the state changes only those parts. -/
theorem keepsBut_of_besidesProduction {s z : State} (h : z.besidesProduction = s.besidesProduction) :
    KeepsBut [.rings, .loft, .views, .out] s z := by
  simp only [State.besidesProduction, State.mk.injEq, true_and] at h
  simp [KeepsBut, h]

/-- Behind a production the descriptor stands in the slot that was the next one (R160). -/
theorem loftRead_produce {n : Nat} {body : Bytes} (h : body.length = 31) (s : State) :
    loftRead (produce n body s) (s.slot n) 31 = body := by
  rw [loftRead_of_mem (congrArg Loft.mem (produce_loft n body s)), fit_of_length h, ← h]
  exact loftRead_loftWrite_append ..

/-- A production leaves every byte outside its slot. -/
theorem byte_produce_of_out {n a : Nat} (body : Bytes) {s : State} (h : a < s.slot n ∨ s.slot n + 32 ≤ a) :
    (produce n body s).byte a = s.byte a := by
  rw [byte_of_mem (congrArg Loft.mem (produce_loft n body s))]
  exact byte_loftWrite_of_out _ _ s a (by simpa using h)

/-- A production passes the slot with TAIL. -/
theorem tail_produce {n : Nat} (hn : n < 32) (body : Bytes) (s : State) :
    ((produce n body s).ring n).tail = ((s.ring n).tail + 1) % 2 ^ 32 := by
  simp only [State.ring, produce_rings, vat_upd_self _ _ _ hn, Ring.produced]

/-- A production keeps of every ring everything but TAIL. -/
theorem ring_produce_keep {β : Type} (p : Ring → β) (h : ∀ r, p r.produced = p r) (n k : Nat) (body : Bytes) (s : State) :
    p ((produce n body s).ring k) = p (s.ring k) := by
  simp only [State.ring, produce_rings]
  exact vat_upd_keep _ _ _ _ p h

/-- A completion of a tenant whose EVENT ring lost nothing goes into that ring's next slot (R163, R206). -/
theorem postCompletion_eq {s : State} {t n : Nat} (h : eventRing s t = some n) (hl : (s.ring n).lost = 0) (d : Bytes) :
    postCompletion t d s = produce n d s := by
  simp [postCompletion, h, markOverflow, hl]

/-! ### Yealms given back (R131, R178) -/

/-- The state with the counts of yealms held and everything of the Loft but its contents put at their defaults. -/
def State.besidesYealms (s : State) : State := { s with tenants := State.reset.tenants, loft := { mem := s.loft.mem } }

theorem unpin_besidesYealms (i : Nat) (s : State) : (unpin i s).besidesYealms = s.besidesYealms := by
  unfold unpin
  split
  · rfl
  · dsimp only
    split
    · rfl
    · rfl

theorem unpinAll_besidesYealms (l : List Nat) (s : State) : (unpinAll l s).besidesYealms = s.besidesYealms :=
  foldl_keep State.besidesYealms _ unpin_besidesYealms l s

/-- What changes only yealms changes tenants and Loft, and no byte of the Loft. -/
theorem keepsBut_of_besidesYealms {s z : State} (h : z.besidesYealms = s.besidesYealms) :
    KeepsBut [.tenants, .loft] s z ∧ z.loft.mem = s.loft.mem := by
  refine ⟨?_, (congrArg (fun y : State => y.loft.mem) h :)⟩
  simp only [State.besidesYealms, State.mk.injEq, true_and] at h
  simp [KeepsBut, h]

end Sys2Proof.Machine
end

section
/-! ## The end of asynchronous and of forwarded work (R163, R206, R233) -/
namespace Sys2Proof.Machine
open Sys2Proof

/-- A completion outside hold-up, of a command that came from this module's own mailbox, is written into the next slot of the
tenant's EVENT ring; its yealms are given back (R131, R206). -/
theorem completeJob_eq {j : Job} {r : Nat} {s : State} (hc : s.campel = true) (hh : s.supply.holdUp = false)
    (ho : j.origin = none) (hr : eventRing s j.tenant = some r) (hl : (s.ring r).lost = 0) (st : Nat) (d : Bytes) :
    completeJob j st d s = produce r (eventDesc 1 st j.op j.token j.tenant s.cascade.position d s.timebase.now)
      (unpinAll j.pins { s with jobs := s.jobs.erase j }) := by
  have hy := unpinAll_besidesYealms j.pins { s with jobs := s.jobs.erase j }
  have hring : (unpinAll j.pins { s with jobs := s.jobs.erase j }).rings = s.rings := (congrArg State.rings hy :)
  have hcas : (unpinAll j.pins { s with jobs := s.jobs.erase j }).cascade = s.cascade := (congrArg State.cascade hy :)
  have htb : (unpinAll j.pins { s with jobs := s.jobs.erase j }).timebase = s.timebase := (congrArg State.timebase hy :)
  have hboot : (unpinAll j.pins { s with jobs := s.jobs.erase j }).campel = s.campel := (congrArg State.campel hy :)
  unfold completeJob writeCompletion
  dsimp only
  rw [if_neg (by simp [hh]), if_neg (by simp [hboot, hc]), ho, hcas, htb]
  exact postCompletion_eq ((eventRing_of_rings hring _).trans hr) (by rw [ring_of_rings hring]; exact hl) _

/-- What such a completion leaves: the job is gone, the descriptor posted, every other byte of the Loft as before. -/
theorem completeJob_posts {j : Job} {r : Nat} {s : State} (hc : s.campel = true) (hh : s.supply.holdUp = false)
    (ho : j.origin = none) (hr : eventRing s j.tenant = some r) (hl : (s.ring r).lost = 0) (st : Nat) (d : Bytes) :
    (completeJob j st d s).jobs = s.jobs.erase j ∧
      EventPosted r (eventDesc 1 st j.op j.token j.tenant s.cascade.position d s.timebase.now) s (completeJob j st d s) ∧
      (∀ a, a < slotAddr r (s.ring r) (s.ring r).tail ∨ slotAddr r (s.ring r) (s.ring r).tail + 32 ≤ a →
        (completeJob j st d s).byte a = s.byte a) ∧
      KeepsBut [.tenants, .jobs, .loft, .rings, .views, .out] s (completeJob j st d s) := by
  rw [completeJob_eq hc hh ho hr hl]
  generalize hbody : eventDesc 1 st j.op j.token j.tenant s.cascade.position d s.timebase.now = body
  have hlen : body.length = 31 := by rw [← hbody]; exact length_eventDesc ..
  have hy := unpinAll_besidesYealms j.pins { s with jobs := s.jobs.erase j }
  generalize unpinAll j.pins { s with jobs := s.jobs.erase j } = y at hy ⊢
  have hjobs : y.jobs = s.jobs.erase j := (congrArg State.jobs hy :)
  have hring : y.ring r = s.ring r := ring_of_rings (congrArg State.rings hy :) r
  have hslot : y.slot r = slotAddr r (s.ring r) (s.ring r).tail := by rw [State.slot, hring]
  obtain ⟨hkeep, hmem⟩ := keepsBut_of_besidesYealms hy
  have herase : KeepsBut [.tenants, .jobs, .loft, .rings, .views, .out] s { s with jobs := s.jobs.erase j } := by
    simp [KeepsBut]
  refine ⟨?_, ⟨?_, ?_⟩, fun a ha => ?_, ?_⟩
  · exact (congrArg State.jobs (produce_besidesProduction r body y) :).trans hjobs
  · rw [← hslot]
    exact loftRead_produce hlen y
  · rw [tail_produce (eventRing_lt hr), hring]
  · rw [byte_produce_of_out body (hslot ▸ ha), byte_of_mem hmem]
    rfl
  · exact keepsBut_trans (keepsBut_trans herase (keepsBut_mono (by decide) hkeep))
      (keepsBut_mono (by decide) (keepsBut_of_besidesProduction (produce_besidesProduction r body y)))

/-- The work of a command that ends by nothing of its own ends with the status its surroundings gave it, or with its own
status and DATA. -/
theorem jobEnd_eq {j : Job} (h : j.op ∉ [0x0906, 0x0415, 0x0C22, 0x0483, 0x0485, 0x0488, 0x0489, 0x048A, 0x0C23, 0x0C0A])
    (fail : Option Nat) (l : List Int) (s : State) :
    jobEnd j fail l s = completeJob j (fail.getD j.status) (if fail.isSome then [] else j.result) s := by
  simp only [List.mem_cons, List.not_mem_nil, or_false, not_or] at h
  cases fail with
  | none => simp [jobEnd, h]
  | some st => simp [jobEnd, h]

/-- Any response rings as one raise of the mailbox's source does on the state before it (R193). -/
theorem rang_respond (t : Nat) (r : Rsp) (s : State) : Rang (32 + t) s (respond t r s) := by
  have hts : ∀ k, (vat (respond t r s).tenants k).state = (s.ten k).state := fun k => respond_ten_state t k r s
  have heq : respond t r s = (raiseSrc (32 + t) s).withTenants (respond t r s).tenants := by
    rw [← raiseSrc_withTenants _ _ _ hts]
    simp only [respond, raiseSrc_tenants]
    rfl
  rw [heq]
  exact ⟨rfl, rfl⟩

/-- Settles O14: the end of a job by `jobEnd_eq` and `completeJob_posts`, the timeout by what a response leaves. -/
theorem asynchronousWorkCompletes : Obligations.AsynchronousWorkCompletes := by
  unfold Obligations.AsynchronousWorkCompletes
  refine ⟨fun n tok r fail l j s hp hc hh hj ho hop hr hl => ?_, fun n o s hp ho => ?_⟩
  · have hfound := List.find?_some hj
    simp only [Bool.and_eq_true, beq_iff_eq] at hfound
    obtain ⟨⟨⟨hten, htok⟩, -⟩, -⟩ := hfound
    have hz : exec (.asyncCompletion n tok fail l) s =
        .next (completeJob j (fail.getD j.status) (if fail.isSome then [] else j.result) s) := by
      change execAsyncCompletion n tok fail l s = _
      rw [execAsyncCompletion, running_next hp, hj]
      exact congrArg Host.Outcome.next (jobEnd_eq hop fail l s)
    subst htok
    rw [← hten] at hr ⊢
    exact ⟨_, hz, completeJob_posts hc hh ho hr hl _ _⟩
  · have hz : exec (.forwardedRequestTimeout n) s =
        .next (respond n { op := o.op, seq := o.seq, status := St.notReady, pos := s.cascade.position } s) := by
      refine (running_next hp).trans ?_
      rw [answerNotReady, ho]
    have hten := respond_ten n { op := o.op, seq := o.seq, status := St.notReady, pos := s.cascade.position } s n.isLt
    refine ⟨_, hz, by rw [hten], by rw [hten], by rw [hten], by rw [hten], fun k hk => ?_, rang_respond .., by simp [KeepsBut]⟩
    exact respond_ten_ne _ _ _ _ fun e => hk (Fin.ext e.symm)

end Sys2Proof.Machine
end

section
/-! ## Consumption of SUBMIT descriptors, their completions, the end of a DMA (R131, R159 to R161, R167, R168) -/
namespace Sys2Proof.Machine
open Sys2Proof

/-! ### A consumed entry (R159, R161) -/

/-- A ring with what consuming an entry changes put at its default. -/
def Ring.besidesHead (r : Ring) : Ring :=
  { r with head := 0, inFlight := 0, stalled := false, stallCause := 0, sinceAttn := 0, held := [] }

/-- The ring whose HEAD has passed one more entry, `k` of them since the last attention (R161, R164). -/
def Ring.consumed (k : Nat) (r : Ring) : Ring :=
  { r with head := (r.head + 1) % 2 ^ 32, inFlight := r.inFlight + 1, stalled := false, stallCause := 0, sinceAttn := k, held := [] }

/-- An entry passed changes its ring alone, and may ring. -/
theorem advanceHead_eq (n : Nat) (s : State) : ∃ k z, z = s.updRing n (Ring.consumed k) ∧
    (advanceHead n s = z ∨ advanceHead n s = raiseSrc n z) := by
  unfold advanceHead
  dsimp only
  split
  · refine ⟨0, _, rfl, .inr (congrArg (raiseSrc n) ?_)⟩
    simp only [State.updRing, upd]
    split
    · simp [Ring.consumed]
    · rfl
  · exact ⟨(s.ring n).sinceAttn + 1, _, rfl, .inl (updRing_congr rfl)⟩

@[simp] theorem advanceHead_besidesProduction (n : Nat) (s : State) :
    (advanceHead n s).besidesProduction = s.besidesProduction := by
  obtain ⟨k, z, rfl, h | h⟩ := advanceHead_eq n s
  · rw [h]; rfl
  · rw [h, raiseSrc_besidesProduction]; rfl

/-- An entry passed leaves of every ring all but its consumption. -/
theorem besidesHead_advanceHead (n m : Nat) (s : State) :
    ((advanceHead n s).ring m).besidesHead = (s.ring m).besidesHead := by
  obtain ⟨k, z, rfl, h | h⟩ := advanceHead_eq n s
  · rw [h]; exact ring_updRing_keep Ring.besidesHead (Ring.consumed k) (fun _ => rfl) n m s
  · rw [h, ring_of_rings (raiseSrc_rings ..)]; exact ring_updRing_keep Ring.besidesHead (Ring.consumed k) (fun _ => rfl) n m s

/-- HEAD and the work in flight of a ring whose entry was passed. -/
theorem ring_advanceHead {n : Nat} (hn : n < 32) (s : State) :
    ((advanceHead n s).ring n).head = ((s.ring n).head + 1) % 2 ^ 32 ∧
      ((advanceHead n s).ring n).inFlight = (s.ring n).inFlight + 1 := by
  obtain ⟨k, z, rfl, h | h⟩ := advanceHead_eq n s
  · rw [h, ring_updRing_self hn]; exact ⟨rfl, rfl⟩
  · rw [h, ring_of_rings (raiseSrc_rings ..), ring_updRing_self hn]; exact ⟨rfl, rfl⟩

/-- A consumable entry is consumed by each row that takes its class. -/
theorem consume_eq {n p : Nat} {d : Bytes} {s : State} (h : Consumable n p d s) {ok : Nat → Bool} (hok : ok (byteAt d 0) = true) :
    consume n ok s = runClass n (s.ring n).owner d (advanceHead n s) := by
  obtain ⟨-, hentry, rfl, hbound, -⟩ := h
  simp [consume, hentry, hok, hbound]

/-! ### Completion of a submission (R160, R168) -/

/-- The ring with one consumed entry less in flight. -/
def Ring.completed (r : Ring) : Ring := { r with inFlight := r.inFlight - 1 }

/-- A ring that does not wait to close only counts its work down. -/
theorem ringDone_eq {n : Nat} {s : State} (h : (s.ring n).closing = false) : ringDone n s = s.updRing n Ring.completed := by
  have hc : ((s.updRing n Ring.completed).ring n).closing = false :=
    (ring_updRing_keep Ring.closing Ring.completed (fun _ => rfl) n n s).trans h
  exact if_neg fun e => Bool.false_ne_true (hc.symm.trans (Bool.and_eq_true_iff.1 e).1)

/-- A submission of an open ring with a COMPLETE ring completes by one descriptor there. -/
theorem completeSub_eq {n p : Nat} {s : State} (ho : (s.ring n).opened = true) (hp : (s.ring n).pair = some p)
    (hc : (s.ring n).closing = false) (cls st tag count flags : Nat) (result : Bytes) :
    completeSub n cls st tag count flags result s =
      (produce p (completeDesc cls st tag count flags result s.timebase.now) s).updRing n Ring.completed := by
  simp only [completeSub, ho, hp, Bool.not_true, Bool.false_eq_true, if_false]
  exact ringDone_eq ((ring_produce_keep Ring.closing (fun _ => rfl) p n _ s).trans hc)

@[simp] theorem updRing_besidesProduction (s : State) (n : Nat) (f : Ring → Ring) :
    (s.updRing n f).besidesProduction = s.besidesProduction := rfl

/-- What the completion of a submission leaves. -/
structure SubDone (n p : Nat) (d : Bytes) (s z : State) : Prop where
  completed : Completed p d s z
  head : ∀ k, (z.ring k).head = (s.ring k).head
  inFlight : (z.ring n).inFlight = (s.ring n).inFlight - 1
  bytes : ∀ a, a < s.slot p ∨ s.slot p + 32 ≤ a → z.byte a = s.byte a
  frame : z.besidesProduction = s.besidesProduction

theorem subDone_completeSub {n p : Nat} {s : State} (hn : n < 32) (hlt : p < 32) (ho : (s.ring n).opened = true)
    (hp : (s.ring n).pair = some p) (hc : (s.ring n).closing = false) (cls st tag count flags : Nat) (result : Bytes) :
    SubDone n p (completeDesc cls st tag count flags result s.timebase.now) s
      (completeSub n cls st tag count flags result s) := by
  rw [completeSub_eq ho hp hc]
  generalize hd : completeDesc cls st tag count flags result s.timebase.now = d
  have hlen : d.length = 31 := by rw [← hd]; exact length_completeDesc ..
  refine ⟨⟨?_, ?_⟩, fun k => ?_, ?_, fun a ha => ?_, ?_⟩
  · exact (loftRead_of_mem rfl _ _).trans (loftRead_produce hlen s)
  · exact (ring_updRing_keep Ring.tail Ring.completed (fun _ => rfl) n p _).trans (tail_produce hlt d s)
  · exact (ring_updRing_keep Ring.head Ring.completed (fun _ => rfl) n k _).trans (ring_produce_keep Ring.head (fun _ => rfl) p k d s)
  · rw [ring_updRing_self hn]
    exact congrArg (· - 1) (ring_produce_keep Ring.inFlight (fun _ => rfl) p n d s)
  · exact (byte_of_mem rfl a).trans (byte_produce_of_out d ha)
  · exact (updRing_besidesProduction ..).trans (produce_besidesProduction p d s)

/-- A consumed entry of a ring that is open and not closing completes in the paired ring. -/
theorem completeSub_consumed {n p : Nat} {d : Bytes} {s : State} (h : Consumable n p d s) (cls st tag : Nat) :
    Completed p (completeDesc cls st tag 0 0 [] s.timebase.now) s (completeSub n cls st tag 0 0 [] (advanceHead n s)) ∧
      ((completeSub n cls st tag 0 0 [] (advanceHead n s)).ring n).head = ((s.ring n).head + 1) % 2 ^ 32 ∧
      ((completeSub n cls st tag 0 0 [] (advanceHead n s)).ring n).inFlight = (s.ring n).inFlight ∧
      (∀ a, a < slotAddr p (s.ring p) (s.ring p).tail ∨ slotAddr p (s.ring p) (s.ring p).tail + 32 ≤ a →
        (completeSub n cls st tag 0 0 [] (advanceHead n s)).byte a = s.byte a) ∧
      (completeSub n cls st tag 0 0 [] (advanceHead n s)).besidesProduction = s.besidesProduction := by
  obtain ⟨-, hentry, -, -, -, hn, hp, hpair⟩ := h
  simp only [hasEntry, Bool.and_eq_true, Bool.not_eq_true'] at hentry
  obtain ⟨⟨⟨⟨-, hopen⟩, -⟩, hclosing⟩, -⟩ := hentry
  have hframe := advanceHead_besidesProduction n s
  have hfix := besidesHead_advanceHead n n s
  have hfixp := besidesHead_advanceHead n p s
  obtain ⟨hhead, hfly⟩ := ring_advanceHead hn s
  have htime : (advanceHead n s).timebase = s.timebase := (congrArg State.timebase hframe :)
  have hloft := advanceHead_loft n s
  generalize advanceHead n s = y at *
  have htail : (y.ring p).tail = (s.ring p).tail := (congrArg Ring.tail hfixp :)
  have hslot : y.slot p = slotAddr p (s.ring p) (s.ring p).tail := by
    have hdepth : (y.ring p).depth = (s.ring p).depth := (congrArg Ring.depth hfixp :)
    simp only [State.slot, slotAddr, htail, hdepth]
  obtain ⟨⟨hread, hafter⟩, hhead', hfly', hbytes, hframe'⟩ := subDone_completeSub (s := y) hn hp
    ((congrArg Ring.opened hfix :).trans hopen) ((congrArg Ring.pair hfix :).trans hpair)
    ((congrArg Ring.closing hfix :).trans hclosing) cls st tag 0 0 []
  rw [htime] at hread
  refine ⟨⟨hslot ▸ hread, hafter.trans (by rw [htail])⟩, (hhead' n).trans hhead, ?_, fun a ha => ?_, hframe'.trans hframe⟩
  · rw [hfly', hfly, Nat.add_sub_cancel]
  · exact (hbytes a (hslot ▸ ha)).trans (byte_of_mem (congrArg Loft.mem hloft) a)

/-- A consumable NOP completes OK at once (R167). -/
theorem consume_nop {n p : Nat} {d : Bytes} {s : State} (h : Consumable n p d s) (h0 : byteAt d 0 = 0) {ok : Nat → Bool}
    (hok : ok (byteAt d 0) = true) :
    Completed p (completeDesc 0 St.ok (rd d 2 2) 0 0 [] s.timebase.now) s (consume n ok s) ∧
      ((consume n ok s).ring n).head = ((s.ring n).head + 1) % 2 ^ 32 ∧
      ((consume n ok s).ring n).inFlight = (s.ring n).inFlight ∧
      (∀ a, a < slotAddr p (s.ring p) (s.ring p).tail ∨ slotAddr p (s.ring p) (s.ring p).tail + 32 ≤ a →
        (consume n ok s).byte a = s.byte a) ∧
      KeepsBut [.rings, .loft, .views, .out] s (consume n ok s) := by
  obtain ⟨hdone, hhead, hfly, hbytes, hframe⟩ := completeSub_consumed h 0 St.ok (rd d 2 2)
  have hrun : runClass n (s.ring n).owner d (advanceHead n s) =
      completeSub n 0 St.ok (rd d 2 2) 0 0 [] (advanceHead n s) := by simp [runClass, h0]
  rw [consume_eq h hok, hrun]
  exact ⟨hdone, hhead, hfly, hbytes, keepsBut_of_besidesProduction hframe⟩

/-! ### LOFT_DMA (R131, R167, Table LFT.4, Table LFT.8) -/

/-- A handle that a tenant may use names a pool yealm (R135). -/
theorem poolIndex_of_usable {s : State} {t h : Nat} (hu : usable s t h = true) : poolIndex (hIndex h) = true :=
  (Bool.and_eq_true_iff.1 hu).2

/-- A LOFT_DMA descriptor with right fields names a pool yealm. -/
theorem poolIndex_of_dmaFields {s : State} {t : Nat} {d : Bytes} (h : dmaFields s t d = true) :
    poolIndex (hIndex (rd d 12 4)) = true := by
  simp only [dmaFields, Bool.and_eq_true] at h
  obtain ⟨⟨⟨⟨⟨-, hu⟩, -⟩, -⟩, -⟩, -⟩ := h
  exact poolIndex_of_usable hu

/-- A pool yealm is no ring's storage (Table LFT.1). -/
theorem storageRing_of_pool {i : Nat} (h : poolIndex i = true) : storageRing i = none := by
  simp only [poolIndex, Bool.and_eq_true, decide_eq_true_eq] at h
  exact if_neg (by omega)

/-- Whether a tenant may use a pool yealm's handle depends on the Loft alone. -/
theorem usable_of_loft {s z : State} (h : z.loft = s.loft) (t x : Nat) : usable z t x = usable s t x := by
  unfold usable
  cases hp : poolIndex (hIndex x) with
  | false => simp
  | true => simp [current, storageRing_of_pool hp, h]

/-- A yealm just pinned. -/
theorem tag_pin {i : Nat} (h : poolIndex i = true) (s : State) :
    (pin i s).loft.tag i = { s.loft.tag i with pins := (s.loft.tag i).pins + 1 } := by
  simp [pin, h, Loft.tag, Loft.setTag]

/-- A pin gives the yealm no bytes and no owner. -/
theorem pin_besidesYealms (i : Nat) (s : State) : (pin i s).besidesYealms = s.besidesYealms := by
  unfold pin
  split <;> rfl

theorem pin_besidesProduction (i : Nat) (s : State) : (pin i s).besidesProduction = s.besidesProduction := by
  unfold pin
  split <;> rfl

/-- The submission that a consumed LOFT_DMA descriptor puts in flight. -/
def dmaSub (n : Nat) (d : Bytes) (s : State) : Sub :=
  { ring := n, tenant := (s.ring n).owner, cls := byteAt d 0, tag := rd d 2 2, desc := d
    poisoned := byteAt d 0 == 2 && s.loft.poisoned (dmaAddr d) (rd d 18 2) }

/-- The host access of a consumed LOFT_DMA descriptor (Table LFT.4). -/
def dmaAccess (d : Bytes) (s : State) : Out :=
  if byteAt d 0 = 1 then .dmaRead (rd d 4 8) (rd d 18 2)
  else .dmaWrite (rd d 4 8) (loftRead s (dmaAddr d) (rd d 18 2)) (byteAt d 0 == 2 && s.loft.poisoned (dmaAddr d) (rd d 18 2))

/-- A consumable LOFT_DMA descriptor with right fields is in flight, its yealm pinned, host memory accessed (R131, R167). -/
theorem consume_dma {n p : Nat} {d : Bytes} {s : State} (h : Consumable n p d s) (h12 : byteAt d 0 = 1 ∨ byteAt d 0 = 2)
    (hf : dmaFields s (s.ring n).owner d = true) {ok : Nat → Bool} (hok : ok (byteAt d 0) = true) :
    (consume n ok s).subs = s.subs ++ [dmaSub n d s] ∧ (consume n ok s).out.head? = some (dmaAccess d s) ∧
      ((consume n ok s).loft.tag (hIndex (rd d 12 4))).pins = (s.loft.tag (hIndex (rd d 12 4))).pins + 1 ∧
      ((consume n ok s).ring n).head = ((s.ring n).head + 1) % 2 ^ 32 ∧ (consume n ok s).loft.mem = s.loft.mem ∧
      KeepsBut [.rings, .loft, .subs, .views, .out] s (consume n ok s) := by
  rw [consume_eq h hok]
  obtain ⟨-, -, -, -, hsafe, hn, -, -⟩ := h
  have hframe := advanceHead_besidesProduction n s
  obtain ⟨hhead, -⟩ := ring_advanceHead hn s
  have hloft := advanceHead_loft n s
  have hsubs : (advanceHead n s).subs = s.subs := (congrArg State.subs hframe :)
  have hsup : (advanceHead n s).supply = s.supply := (congrArg State.supply hframe :)
  have hfields : dmaFields (advanceHead n s) (s.ring n).owner d = true := by
    rw [← hf]
    simp only [dmaFields, usable_of_loft hloft]
  generalize advanceHead n s = y at *
  have hmode : ¬ (y.supply.mode = .safe ∧ (s.ring n).owner ≠ 0 ∧ byteAt d 0 ≠ 0 ∧ byteAt d 0 ≠ 2) := by
    rw [hsup]
    exact fun hm => hm.2.1 (hsafe hm.1)
  have hrun : runClass n (s.ring n).owner d y =
      (pin (hIndex (rd d 12 4)) { y with subs := y.subs ++ [dmaSub n d s] }).emit (dmaAccess d s) := by
    have hpool : loftRead y (dmaAddr d) (rd d 18 2) = loftRead s (dmaAddr d) (rd d 18 2) := by rw [loftRead, loftRead, hloft]
    rw [runClass]
    simp only [if_neg hmode, if_neg (show byteAt d 0 ≠ 0 by omega), if_pos (show byteAt d 0 ≤ 2 by omega), dmaSubmit, hfields,
      dmaSub, dmaAccess, hloft, hpool, Bool.not_true, Bool.false_eq_true, if_false]
  have hpool := poolIndex_of_dmaFields hf
  have htag := tag_pin hpool { y with subs := y.subs ++ [dmaSub n d s] }
  have hpin := pin_besidesYealms (hIndex (rd d 12 4)) { y with subs := y.subs ++ [dmaSub n d s] }
  have hframe' := pin_besidesProduction (hIndex (rd d 12 4)) { y with subs := y.subs ++ [dmaSub n d s] }
  rw [hrun]
  generalize pin (hIndex (rd d 12 4)) { y with subs := y.subs ++ [dmaSub n d s] } = w at *
  have hring : w.rings = y.rings := (congrArg State.rings hpin :)
  have hmem : w.loft.mem = y.loft.mem := (congrArg (fun x : State => x.loft.mem) hpin :)
  refine ⟨?_, rfl, ?_, ?_, ?_, ?_⟩
  · exact (congrArg State.subs hpin :).trans (congrArg (· ++ [dmaSub n d s]) hsubs)
  · exact (congrArg Tag.pins htag).trans (by rw [hloft])
  · exact (congrArg Ring.head (ring_of_rings hring n)).trans hhead
  · exact hmem.trans (by rw [hloft])
  · have hsub : KeepsBut [.subs] y { y with subs := y.subs ++ [dmaSub n d s] } := by simp [KeepsBut]
    have hemit : KeepsBut [.out] w (w.emit (dmaAccess d s)) := by simp [KeepsBut]
    exact keepsBut_trans (keepsBut_mono (by decide) (keepsBut_of_besidesProduction hframe)) <|
      keepsBut_trans (keepsBut_mono (by decide) hsub) <| keepsBut_trans
        (keepsBut_mono (by decide) (keepsBut_of_besidesProduction hframe')) (keepsBut_mono (by decide) hemit)

/-! ### The end of a DMA (R131, R168) -/

/-- The slots of a ring lie below the pool (Table LFT.1). -/
theorem slotAddr_below_pool {n k : Nat} {r : Ring} (hn : n < 32) (hl : r.log2 ≤ 12) : slotAddr n r k + 32 ≤ 32768 * 4096 := by
  have hdepth : r.depth ≤ 2 ^ 12 := Nat.pow_le_pow_right (by decide) hl
  have hk : k % r.depth < r.depth := Nat.mod_lt _ (Nat.two_pow_pos _)
  simp only [slotAddr, yAddr]
  omega

/-- The bytes of a pool yealm lie in the pool. -/
theorem dmaAddr_in_pool {d : Bytes} (h : poolIndex (hIndex (rd d 12 4)) = true) : 32768 * 4096 ≤ dmaAddr d := by
  simp only [poolIndex, Bool.and_eq_true, decide_eq_true_eq] at h
  simp only [dmaAddr, yAddr]
  omega

/-- Equal bytes, equal reads. -/
theorem loftRead_of_bytes {s z : State} {a n : Nat} (h : ∀ i, i < n → z.byte (a + i) = s.byte (a + i)) :
    loftRead z a n = loftRead s a n := by
  rw [loftRead_eq_map_byte, loftRead_eq_map_byte]
  exact List.map_congr_left fun i hi => h i (List.mem_range.1 hi)

/-- A LOFT_DMA_IN that is done has its bytes in the yealm, which it gives back, and completes OK with its length. -/
theorem endDma_in {x : Sub} {p : Nat} {data : Bytes} {s : State} (hcls : x.cls = 1) (hgood : x.poisoned = false)
    (hn : x.ring < 32) (hlt : p < 32) (ho : (s.ring x.ring).opened = true) (hp : (s.ring x.ring).pair = some p)
    (hc : (s.ring x.ring).closing = false) (hl : (s.ring p).log2 ≤ 12) (hpool : poolIndex (hIndex (rd x.desc 12 4)) = true) :
    (endDma x 0 data s).subs = s.subs.erase x ∧
      Completed p (completeDesc 1 St.ok x.tag (rd x.desc 18 2) 0 [] s.timebase.now) s (endDma x 0 data s) ∧
      loftRead (endDma x 0 data s) (dmaAddr x.desc) (rd x.desc 18 2) = fit (rd x.desc 18 2) data ∧
      KeepsBut [.tenants, .rings, .loft, .subs, .views, .out] s (endDma x 0 data s) := by
  have hy := unpin_besidesYealms (hIndex (rd x.desc 12 4)) (loftWrite (dmaAddr x.desc) (fit (rd x.desc 18 2) data) s)
  have hend : endDma x 0 data s = completeSub x.ring 1 St.ok x.tag (rd x.desc 18 2) 0 []
      { unpin (hIndex (rd x.desc 12 4)) (loftWrite (dmaAddr x.desc) (fit (rd x.desc 18 2) data) s) with
        subs := (unpin (hIndex (rd x.desc 12 4)) (loftWrite (dmaAddr x.desc) (fit (rd x.desc 18 2) data) s)).subs.erase x } := by
    simp [endDma, hcls, hgood]
  rw [hend]
  generalize unpin (hIndex (rd x.desc 12 4)) (loftWrite (dmaAddr x.desc) (fit (rd x.desc 18 2) data) s) = y at *
  have hrings : y.rings = s.rings := (congrArg State.rings hy :)
  have hsubs : y.subs = s.subs := (congrArg State.subs hy :)
  have htime : y.timebase = s.timebase := (congrArg State.timebase hy :)
  have hring (k : Nat) : State.ring { y with subs := y.subs.erase x } k = s.ring k := ring_of_rings hrings k
  have hsub := subDone_completeSub (s := { y with subs := y.subs.erase x }) hn hlt
    ((congrArg Ring.opened (hring _)).trans ho) ((congrArg Ring.pair (hring _)).trans hp)
    ((congrArg Ring.closing (hring _)).trans hc) 1 St.ok x.tag (rd x.desc 18 2) 0 []
  generalize completeSub x.ring 1 St.ok x.tag (rd x.desc 18 2) 0 [] { y with subs := y.subs.erase x } = z at hsub ⊢
  obtain ⟨hdone, -, -, hbyte, hframe⟩ := hsub
  have hslot : State.slot { y with subs := y.subs.erase x } p = slotAddr p (s.ring p) (s.ring p).tail := by rw [State.slot, hring]
  have hbelow := slotAddr_below_pool (k := (s.ring p).tail) hlt hl
  have habove := dmaAddr_in_pool hpool
  refine ⟨?_, ?_, ?_, ?_⟩
  · exact (congrArg State.subs hframe :).trans (congrArg (·.erase x) hsubs)
  · rw [Completed, hring, htime] at hdone
    exact hdone
  · have hread := loftRead_loftWrite (dmaAddr x.desc) (fit (rd x.desc 18 2) data) s
    rw [length_fit] at hread
    rw [← hread]
    refine loftRead_of_bytes fun i _ => (hbyte _ (.inr (by rw [hslot]; omega))).trans ?_
    exact byte_of_mem (congrArg (fun z : State => z.loft.mem) hy :) _
  · have hsub : KeepsBut [.subs] y { y with subs := y.subs.erase x } := by simp [KeepsBut]
    have hwrite : KeepsBut [.loft] s (loftWrite (dmaAddr x.desc) (fit (rd x.desc 18 2) data) s) := by simp [KeepsBut, loftWrite]
    exact keepsBut_trans (keepsBut_mono (by decide) hwrite) <|
      keepsBut_trans (keepsBut_mono (by decide) (keepsBut_of_besidesYealms hy).1) <|
        keepsBut_trans (keepsBut_mono (by decide) hsub) (keepsBut_mono (by decide) (keepsBut_of_besidesProduction hframe))

/-- Settles O9: NOP by `consume_nop`, LOFT_DMA by `consume_dma`, its end by `endDma_in`. -/
theorem submissionsRunFromTheirRing : Obligations.SubmissionsRunFromTheirRing := by
  unfold Obligations.SubmissionsRunFromTheirRing
  refine ⟨fun n p d s h h0 => ⟨_, running_next h.1, consume_nop h h0 rfl⟩,
    fun n p d s h h0 => ⟨_, running_next h.1, consume_nop h h0 (by simp [h0])⟩, fun n p d s h h1 hf => ?_,
    fun n p d s h h2 hf => ?_, fun i n p x data s hp hx hcls hgood hr hn hlt ho hpair hc hl hpool _ => ?_⟩
  · obtain ⟨hsubs, hout, htag, hhead, hmem, hframe⟩ := consume_dma h (.inl h1) hf (ok := fun c => c == 1) (by simp [h1])
    refine ⟨_, running_next h.1, ?_, ?_, htag, hhead, hmem, hframe⟩
    · rw [hsubs]; simp [dmaSub, h1]
    · rw [hout]; simp [dmaAccess, h1]
  · obtain ⟨hsubs, hout, htag, -, hmem, hframe⟩ := consume_dma h (.inr h2) hf (ok := fun c => c == 2) (by simp [h2])
    refine ⟨_, running_next h.1, ?_, ?_, htag, hmem, hframe⟩
    · rw [hsubs]; simp [dmaSub, h2]
    · rw [hout]; simp [dmaAccess, h2]
  · subst hr
    have hz : exec (.dmaCompletion i 0 data) s = .next (endDma x 0 data s) := by
      change execDmaCompletion i 0 data s = _
      rw [execDmaCompletion, running_next hp, hx]
      rfl
    exact ⟨_, hz, endDma_in hcls hgood hn hlt ho hpair hc hl hpool⟩

end Sys2Proof.Machine
end

section
/-! ## Ring counters, overload records, the patrol scrub and the retirement test (R143, R146, R147, R151, R158, R164, R165) -/
namespace Sys2Proof.Machine
open Sys2Proof

/-- A breadcrumb of the Miller island that the recorder takes changes the recorder, the views and what leaves the device. -/
theorem keepsBut_crumb {s : State} (hc : s.campel = true) (code sev ten : Nat) (p : Bytes) :
    KeepsBut [.recorder, .views, .out] s (crumb code sev ten p s) := keepsBut_crumbOf hc ..

/-- A change of the Loft with a breadcrumb: the Loft, the record, what else changes. -/
theorem crumb_updLoft {s : State} (hu : Up s) (hr : CanRecord s) (f : Loft → Loft) (code sev ten : Nat) (p : Bytes) :
    (crumb code sev ten p (s.updLoft f)).loft = f s.loft ∧ Recorded code sev ten s (crumb code sev ten p (s.updLoft f)) ∧
      KeepsBut [.loft, .recorder, .views, .out] s (crumb code sev ten p (s.updLoft f)) := by
  have hupd : KeepsBut [.loft, .recorder, .views, .out] s (s.updLoft f) := by simp [KeepsBut]
  exact ⟨crumb_loft .., recorded_crumbOf (s := s.updLoft f) hu.1 hu.2.1 hr ..,
    keepsBut_trans hupd (keepsBut_mono (by decide) (keepsBut_crumb (s := s.updLoft f) hu.2.1 ..))⟩

/-! ### Writes of the ring counters (R158, R165) -/

/-- A write of a counter of the tenant's own open ring. -/
theorem ringWrite_own {t n : Nat} {s : State} (hw : windowOpen s t = true) (ho : (s.ring n).opened = true)
    (hown : (s.ring n).owner = t) (f : Ring → Ring) : ringWrite t n f s = s.updRing n f := by
  simp [ringWrite, hw, ho, hown]

/-- A write of a counter of another tenant's open ring is counted. -/
theorem ringWrite_foreign {t n : Nat} {s : State} (hw : windowOpen s t = true) (ho : (s.ring n).opened = true)
    (hown : (s.ring n).owner ≠ t) (f : Ring → Ring) :
    ringWrite t n f s = s.updTen t fun x => { x with foreignRing := inc32 x.foreignRing } := by
  simp [ringWrite, hw, ho, hown]

/-- What a write of a counter of the tenant's own open ring leaves. -/
theorem ringWrite_own_effect {t : Nat} {n : Fin 32} {s : State} (hw : windowOpen s t = true) (ho : (s.ring n).opened = true)
    (hown : (s.ring n).owner = t) (f : Ring → Ring) :
    (ringWrite t n f s).ring n = f (s.ring n) ∧ (∀ k : Fin 32, k ≠ n → (ringWrite t n f s).ring k = s.ring k) ∧
      KeepsBut [.rings] s (ringWrite t n f s) := by
  rw [ringWrite_own hw ho hown]
  exact ⟨ring_updRing_self n.isLt f s, fun k hk => ring_updRing_of_ne (fun e => hk (Fin.ext e.symm)) f s, by simp [KeepsBut]⟩

/-- What a write of a counter of another tenant's open ring leaves. -/
theorem ringWrite_foreign_effect {t : Fin 8} {n : Nat} {s : State} (hw : windowOpen s t = true) (ho : (s.ring n).opened = true)
    (hown : (s.ring n).owner ≠ t) (f : Ring → Ring) :
    (ringWrite t n f s).ten t = { s.ten t with foreignRing := inc32 (s.ten t).foreignRing } ∧
      (∀ k : Fin 8, k ≠ t → (ringWrite t n f s).ten k = s.ten k) ∧ KeepsBut [.tenants] s (ringWrite t n f s) := by
  rw [ringWrite_foreign hw ho hown]
  exact ⟨(ten_updTen t t _ s).trans (if_pos rfl), fun k hk => (ten_updTen t k _ s).trans (if_neg hk), by simp [KeepsBut]⟩

/-- TAIL of a SUBMIT ring (R158). -/
theorem tailWrite_submit {r : Ring} (h : r.type = .submit) (v : Nat) :
    tailWrite v r = if (v + 2 ^ 32 - r.head) % 2 ^ 32 ≤ r.depth ∧ r.waiting ≤ (v + 2 ^ 32 - r.head) % 2 ^ 32 then
      { r with tail := v } else { r with badPtr := true } := by
  simp [tailWrite, h]

/-- HEAD of a device-produced ring (R158, log entry 77). -/
theorem headWrite_produced {r : Ring} (h : r.type ≠ .submit) (v : Nat) :
    headWrite v r = if (r.tail + 2 ^ 32 - v) % 2 ^ 32 ≤ r.waiting then { r with head := v } else { r with badPtr := true } := by
  simp [headWrite, h]

/-! ### OVERLOAD (R143) -/

/-- A tenant whose refusals an OVERLOAD record has told. -/
def Tenant.told (up : Nat) (x : Tenant) : Tenant := { x with overloadBase := refusals x, overloadAt := some up }

/-- A first OVERLOAD with new refusals writes its record (R143). -/
theorem exec_overload {n : Fin 8} {s : State} (hu : Up s) (hr : CanRecord s) (ha : (s.ten n).overloadAt = none)
    (hnew : refusals (s.ten n) ≠ (s.ten n).overloadBase) :
    ∃ z, exec (.overload n) s = .next z ∧ Recorded 0x03A0 2 n.val s z ∧ (z.ten n).overloadBase = refusals (s.ten n) ∧
      (z.ten n).overloadAt = some s.up ∧ (∀ k : Fin 8, k ≠ n → z.ten k = s.ten k) ∧
      KeepsBut [.tenants, .recorder, .views, .out] s z := by
  obtain ⟨hp, hc, -⟩ := hu
  have hz : ∃ l, exec (.overload n) s = .next (crumb 0x03A0 2 n.val (anyPayload 0x03A0 l) (s.updTen n.val (Tenant.told s.up))) := by
    have hold : (refusals (s.ten n) == (s.ten n).overloadBase) = false := by simpa using hnew
    refine ⟨(refusals (s.ten n)).zipWith (fun a b => (a : Int) - b) (s.ten n).overloadBase, ?_⟩
    change execOverload n s = _
    rw [execOverload, running_next hp]
    simp only [ha, hold, Bool.not_true, Bool.or_false, Bool.false_eq_true, if_false]
    rfl
  obtain ⟨l, hz⟩ := hz
  have hten (k : Fin 8) : (crumb 0x03A0 2 n.val (anyPayload 0x03A0 l) (s.updTen n.val (Tenant.told s.up))).ten k =
      if k = n then (s.ten n).told s.up else s.ten k :=
    (ten_of_tenants (crumb_tenants ..) _).trans (ten_updTen n k _ s)
  have hframe : KeepsBut [.tenants] s (s.updTen n.val (Tenant.told s.up)) := by simp [KeepsBut]
  refine ⟨_, hz, ?_, ?_, ?_, fun k hk => (hten k).trans (if_neg hk), ?_⟩
  · exact recorded_crumbOf (s := s.updTen n.val (Tenant.told s.up)) hp hc hr ..
  · rw [hten, if_pos rfl]; rfl
  · rw [hten, if_pos rfl]; rfl
  · exact keepsBut_trans (keepsBut_mono (by decide) hframe)
      (keepsBut_mono (by decide) (keepsBut_crumb (s := s.updTen n.val (Tenant.told s.up)) hc ..))

/-! ### The patrol scrub and the retirement test (R146, R147, R151) -/

/-- An error in a written granule of an allocated pool yealm (R146, R147). -/
theorem memoryError_pool {i g : Nat} {s : State} (hi : poolIndex i = true) (ha : (s.loft.tag i).alloc = true)
    (hw : s.loft.written.contains (i * 64 + g) = true) (double : Bool) :
    memoryError i g double s = if double then
      crumb 0x03A2 3 (s.loft.tag i).owner (anyPayload 0x03A2 [i, g, (s.loft.tag i).owner])
        (s.updLoft fun l => { l with poison := setIns l.poison (i * 64 + g) })
    else s.updTen (s.loft.tag i).owner fun x => { x with corrected := inc32 x.corrected } := by
  have hnot : ¬ (1024 ≤ i ∧ i < 12288) := by
    simp only [poolIndex, Bool.and_eq_true, decide_eq_true_eq] at hi
    omega
  rw [memoryError, if_neg hnot, if_neg (by simp [hi, ha, List.contains_iff_mem.1 hw])]

/-- A scrub of an allocated pool yealm: a single-bit error is counted for its owner, a double-bit one poisons the granule and is
recorded. -/
theorem memoryError_effect {i g : Nat} {s : State} (hu : Up s) (hr : CanRecord s) (hi : poolIndex i = true)
    (ha : (s.loft.tag i).alloc = true) (ho : (s.loft.tag i).owner < 8) (hw : s.loft.written.contains (i * 64 + g) = true)
    (double : Bool) :
    (double = false → ((memoryError i g double s).ten (s.loft.tag i).owner).corrected = inc32 (s.ten (s.loft.tag i).owner).corrected ∧
        KeepsBut [.tenants] s (memoryError i g double s)) ∧
      (double = true → (memoryError i g double s).loft = { s.loft with poison := setIns s.loft.poison (i * 64 + g) } ∧
        Recorded 0x03A2 3 (s.loft.tag i).owner s (memoryError i g double s) ∧
        KeepsBut [.loft, .recorder, .views, .out] s (memoryError i g double s)) := by
  rw [memoryError_pool hi ha hw]
  refine ⟨fun hd => ?_, fun hd => ?_⟩
  · subst hd
    rw [if_neg Bool.false_ne_true]
    exact ⟨congrArg Tenant.corrected (vat_upd_self _ _ _ ho), by simp [KeepsBut]⟩
  · subst hd
    rw [if_pos rfl]
    exact crumb_updLoft hu hr ..

/-- The Loft behind a retirement test of yealm `i`: it is tested no more, and not poisoned. -/
def Loft.retested (i : Nat) (l : Loft) : Loft :=
  { l with testing := setDel l.testing i, poison := l.poison.filter fun g => g / 64 ≠ i }

/-- The Loft whose yealm `i` is remapped to the next spare. -/
def Loft.remapped (i : Nat) (l : Loft) : Loft :=
  { l.retested i with remap := mset l.remap i (28672 + (4096 - l.spares)), spares := l.spares - 1 }

/-- Yealm `i` has no poison behind its test. -/
theorem retested_poison (i : Nat) (l : Loft) : ∀ g ∈ (l.retested i).poison, g / 64 ≠ i := fun g hg => by
  simpa using (List.mem_filter.1 hg).2

/-- A failed test while more than one spare remains remaps the yealm and is recorded (R151). -/
theorem remapIndex_eq {i : Nat} {s : State} (h : 1 < s.loft.spares) :
    remapIndex i s = crumb 0x03A3 3 0 (anyPayload 0x03A3 [i]) (s.updLoft (Loft.remapped i)) := by
  have hleft : (crumb 0x03A3 3 0 (anyPayload 0x03A3 [i]) (s.updLoft (Loft.remapped i))).loft.spares ≠ 0 := by
    rw [crumb_loft]
    change s.loft.spares - 1 ≠ 0
    omega
  exact if_neg hleft

/-- Settles O8: the ring counters by `ringWrite_own_effect` and `ringWrite_foreign_effect`, the rest by its own lemma above. -/
theorem ringCountersAndLoftUpkeep : Obligations.RingCountersAndLoftUpkeep := by
  unfold Obligations.RingCountersAndLoftUpkeep
  refine ⟨fun n r v s hp hw ho hown ht => ?_, fun n r v s hp hw ho hown ht => ?_,
    fun n r v s hp hw ho hown => ⟨_, running_next hp, ringWrite_foreign_effect hw ho hown _⟩,
    fun n r v s hp hw ho hown => ⟨_, running_next hp, ringWrite_foreign_effect hw ho hown _⟩,
    fun r us s hu ho ht hwait hth hus => ?_, fun n s hu hr ha hnew => exec_overload hu hr ha hnew,
    fun i g double s hu hr hi ha ho hw => ⟨_, running_next hu.1, memoryError_effect hu hr hi ha ho hw double⟩,
    fun i pass s hu hr htest hsp => ?_⟩
  · rw [← tailWrite_submit ht]
    exact ⟨_, running_next hp, ringWrite_own_effect hw ho hown _⟩
  · rw [← headWrite_produced ht]
    exact ⟨_, running_next hp, ringWrite_own_effect hw ho hown _⟩
  · have hz : exec (.ringAttention r us) s = .next (raiseSrc r.val s) :=
      (running_next hu.1).trans (congrArg Host.Outcome.next (if_pos (by simp [ho, ht, hwait, hth, hus])))
    have hr := r.isLt
    have hsrc : radioSource r.val = false := by
      simp only [radioSource, Bool.or_eq_false_iff, Bool.and_eq_false_iff, decide_eq_false_iff_not]
      omega
    exact ⟨_, hz, raised_raiseSrc (by omega) hsrc hu, by simp [KeepsBut]⟩
  · cases pass with
    | true =>
      have hz : exec (.yealmRetired i true) s = .next (s.updLoft (Loft.retested i)) := by
        change execYealmRetired i true s = _
        rw [execYealmRetired, running_next hu.1]
        simp only [htest, Bool.not_true, Bool.false_eq_true, if_false, if_true]
        rfl
      exact ⟨_, hz, rfl, retested_poison i s.loft, fun _ => ⟨rfl, rfl, by simp [KeepsBut]⟩, nofun, rfl, by simp [KeepsBut]⟩
    | false =>
      have hz : exec (.yealmRetired i false) s =
          .next (crumb 0x03A3 3 0 (anyPayload 0x03A3 [i]) (s.updLoft (Loft.remapped i))) := by
        change execYealmRetired i false s = _
        rw [execYealmRetired, running_next hu.1, ← remapIndex_eq hsp]
        simp only [htest, Bool.not_true, Bool.false_eq_true, if_false, if_neg (show s.loft.spares ≠ 0 by omega)]
      obtain ⟨hloft, hrec, hframe⟩ := crumb_updLoft hu hr (Loft.remapped i) 0x03A3 3 0 (anyPayload 0x03A3 [i])
      generalize crumb 0x03A3 3 0 (anyPayload 0x03A3 [i]) (s.updLoft (Loft.remapped i)) = z at *
      refine ⟨z, hz, ?_, ?_, nofun, fun _ => ⟨?_, ?_, hrec⟩, ?_, hframe⟩
      · rw [hloft]; rfl
      · rw [hloft]; exact retested_poison i s.loft
      · rw [hloft]; rfl
      · rw [hloft]; exact mget_mset_self ..
      · rw [hloft]; rfl

end Sys2Proof.Machine
end

section
/-! ## RING_OPEN and RING_CLOSE (R157, R165, R173, R174) -/
namespace Sys2Proof.Machine
open Sys2Proof

/-! ### RING_OPEN -/

/-- The ring that a RING_OPEN asks for (Table LFT.13). -/
def Ring.asked (t : Nat) (p : Bytes) : Ring :=
  { opened := true, owner := t, type := RingType.ofCode (byteAt p 1), log2 := byteAt p 2
    pair := if byteAt p 1 = 0 then some (byteAt p 3) else none, thCount := rd p 4 2, thTimeout := rd p 6 2 }

/-- Only code 0 names a SUBMIT ring (Table LFT.5). -/
theorem ofCode_eq_submit_iff (n : Nat) : RingType.ofCode n = .submit ↔ n = 0 := by
  unfold RingType.ofCode
  repeat' split
  all_goals simp_all

/-- An opened ring, and for a SUBMIT ring its COMPLETE ring paired with it (R157). -/
theorem openRing_eq (n t : Nat) (p : Bytes) (s : State) :
    openRing n t p s = if byteAt p 1 = 0 then
      ((s.updLoft (clearStorage n)).updRing n fun _ => Ring.asked t p).updRing (byteAt p 3) fun r => { r with pair := some n }
    else (s.updLoft (clearStorage n)).updRing n fun _ => Ring.asked t p := by
  by_cases h : byteAt p 1 = 0
  · simp [openRing, Ring.asked, ofCode_eq_submit_iff, h]
  · simp [openRing, Ring.asked, ofCode_eq_submit_iff, h]

/-- What opening a free ring `n` leaves, its COMPLETE ring another one. -/
theorem openRing_effect {n t : Nat} {p : Bytes} (hn : n < 32) (hq : byteAt p 1 = 0 → byteAt p 3 ≠ n ∧ byteAt p 3 < 32) (s : State) :
    (openRing n t p s).ring n = Ring.asked t p ∧ (byteAt p 1 = 0 → ((openRing n t p s).ring (byteAt p 3)).pair = some n) ∧
      (openRing n t p s).loft = clearStorage n s.loft ∧ (openRing n t p s).tenants = s.tenants ∧
      KeepsBut [.loft, .rings] s (openRing n t p s) := by
  rw [openRing_eq]
  by_cases h : byteAt p 1 = 0
  · obtain ⟨hne, hlt⟩ := hq h
    rw [if_pos h]
    refine ⟨?_, fun _ => ?_, rfl, rfl, by simp [KeepsBut]⟩
    · rw [ring_updRing_of_ne hne, ring_updRing_self hn]
    · rw [ring_updRing_self hlt]
  · rw [if_neg h]
    exact ⟨ring_updRing_self hn .., fun h0 => absurd h0 h, rfl, rfl, by simp [KeepsBut]⟩

/-- Storage that was cleared reads zero, every other byte is as before (R129, R157). -/
theorem byte_of_clearStorage {n : Nat} {s z : State} (h : z.loft = clearStorage n s.loft) (a : Nat) :
    z.byte a = if a < (1024 + 32 * n) * 4096 ∨ (1056 + 32 * n) * 4096 ≤ a then s.byte a else 0#8 := by
  have hf := mget_filter s.loft.mem (fun k => decide (k / 4096 < 1024 + 32 * n) || decide (1056 + 32 * n ≤ k / 4096)) a
  simp only [State.byte, h, clearStorage, mgetD, hf]
  by_cases ha : a < (1024 + 32 * n) * 4096 ∨ (1056 + 32 * n) * 4096 ≤ a
  · rw [if_pos ha, if_pos]
    simp only [Bool.or_eq_true, decide_eq_true_eq]
    omega
  · rw [if_neg ha, if_neg]
    · rfl
    · simp only [Bool.or_eq_true, decide_eq_true_eq]
      omega

/-- The fields of a RING_OPEN: a ring of the 32 or any, and for a SUBMIT ring an open COMPLETE ring (Table LFT.13). -/
theorem ringOpen_fields {c : Call} {s : State} (h : Served cmdRingOpen c s) :
    (byteAt c.payload 0 ≤ 31 ∨ byteAt c.payload 0 = 255) ∧
      (byteAt c.payload 1 = 0 → byteAt c.payload 3 < 32 ∧ (s.ring (byteAt c.payload 3)).opened = true) := by
  have hf := fields_of_checks h.2
  simp only [cmdRingOpen, callReq, Bool.and_eq_true, Bool.or_eq_true, decide_eq_true_eq, beq_iff_eq] at hf
  obtain ⟨⟨⟨⟨hnum, -⟩, -⟩, -⟩, hpair⟩ := hf
  refine ⟨hnum, fun h0 => ?_⟩
  simp only [pairOk, h0, ne_eq, not_true_eq_false, if_false, Bool.and_eq_true, decide_eq_true_eq] at hpair
  obtain ⟨⟨⟨⟨⟨hlt, hopen⟩, -⟩, -⟩, -⟩, -⟩ := hpair
  exact ⟨hlt, hopen⟩

/-- The ring named is one of the 32 and free. -/
theorem ringNamed_free {p : Bytes} {s : State} {n : Nat} (hp : byteAt p 0 ≤ 31 ∨ byteAt p 0 = 255) (h : ringNamed s p = some n) :
    n < 32 ∧ (s.ring n).opened = false := by
  unfold ringNamed at h
  split at h
  · exact ⟨List.mem_range.1 (List.mem_of_find?_eq_some h), by simpa using List.find?_some h⟩
  · split at h
    · cases h
    · next hfree =>
      cases h
      exact ⟨by omega, by simpa using hfree⟩

/-- A served RING_OPEN of a free ring within the limit opens it. -/
theorem exec_ringOpen {c : Call} {n : Nat} {s : State} (h : Served cmdRingOpen c s)
    (he : byteAt c.payload 1 = 3 → eventRing s c.t.val = none) (hn : ringNamed s c.payload = some n)
    (hl : openRings s c.t.val < (s.ten c.t.val).ringLimit) :
    ∃ z, exec (.ringOpen c) s = .next z ∧
      Answered c 0x0303 St.ok (leBytes 1 n ++ zeros 3 ++ leBytes 4 (c.t.val * 2 ^ 29 + 2 ^ 21 + (1024 + 32 * n))) z ∧
      z.ring n = Ring.asked c.t.val c.payload ∧ (byteAt c.payload 1 = 0 → (z.ring (byteAt c.payload 3)).pair = some n) ∧
      (∀ a, (1024 + 32 * n) * 4096 ≤ a → a < (1056 + 32 * n) * 4096 → z.byte a = 0#8) ∧
      (∀ a, a < (1024 + 32 * n) * 4096 ∨ (1056 + 32 * n) * 4096 ≤ a → z.byte a = s.byte a) ∧
      MailboxOnly c s z ∧ KeepsBut [.tenants, .views, .out, .loft, .rings] s z := by
  obtain ⟨hnum, hpair⟩ := ringOpen_fields h
  obtain ⟨hlt, hfree⟩ := ringNamed_free hnum hn
  obtain ⟨hring, hpaired, hloft, hten, hframe⟩ := openRing_effect (t := c.t.val) (p := c.payload) hlt (fun h0 => by
    refine ⟨fun e => ?_, (hpair h0).1⟩
    have hopen := (hpair h0).2
    rw [e, hfree] at hopen
    cases hopen) (begun cmdRingOpen.op c s)
  have hlimit : ((begun cmdRingOpen.op c s).ten c.t.val).ringLimit = (s.ten c.t.val).ringLimit := by
    obtain ⟨b, sp, hb⟩ := begun_ten cmdRingOpen.op c s c.t.val
    rw [hb, if_pos rfl]
  have hbase : Ring.base (Ring.asked c.t.val c.payload) n = c.t.val * 2 ^ 29 + 2 ^ 21 + (1024 + 32 * n) := rfl
  have hrun : cmdRingOpen.run (begun cmdRingOpen.op c s) c.t.val c.payload =
      .done St.ok (leBytes 1 n ++ zeros 3 ++ leBytes 4 (c.t.val * 2 ^ 29 + 2 ^ 21 + (1024 + 32 * n)))
        (openRing n c.t.val c.payload (begun cmdRingOpen.op c s)) := by
    have hevent : ¬ (byteAt c.payload 1 = 3 ∧ (eventRing (begun cmdRingOpen.op c s) c.t.val).isSome = true) := by
      rintro ⟨h3, hsome⟩
      rw [eventRing_of_rings (begun_rings ..), he h3] at hsome
      cases hsome
    have hnamed : ringNamed (begun cmdRingOpen.op c s) c.payload = some n := hn
    have hroom : ¬ ((begun cmdRingOpen.op c s).ten c.t.val).ringLimit ≤ openRings (begun cmdRingOpen.op c s) c.t.val := by
      rw [hlimit]
      exact not_le.2 hl
    simp only [cmdRingOpen] at hevent hnamed hroom hring ⊢
    rw [if_neg hevent, hnamed]
    dsimp only
    rw [if_neg hroom, hring, hbase]
  generalize openRing n c.t.val c.payload (begun cmdRingOpen.op c s) = y at *
  have hz (r : Rsp) (a : Nat) : (respond c.t.val r y).byte a = _ := byte_of_clearStorage ((respond_loft c.t.val r y).trans hloft) a
  have hzr (r : Rsp) (k : Nat) : (respond c.t.val r y).ring k = y.ring k := ring_of_rings (respond_rings ..) k
  refine ⟨_, command_done h hrun, answered_respond .., (hzr ..).trans hring, fun h0 => (congrArg Ring.pair (hzr ..)).trans (hpaired h0),
    fun a hlo hhi => ?_, fun a ha => ?_, mailboxOnly_respond hten _, keepsBut_respond_begun (by decide) (keepsBut_mono (by decide) hframe) ..⟩
  · rw [hz, if_neg (by omega)]
  · rw [hz, if_pos ha]
    rfl

/-! ### RING_CLOSE -/

/-- A ring that closes reads zero, and its COMPLETE partner is free (R165). -/
theorem closeRing_effect {n : Nat} (hn : n < 32) (s : State) :
    (closeRing n s).ring n = {} ∧ (∀ p : Fin 32, (s.ring n).pair = some p.val → ((closeRing n s).ring p).pair = none) ∧
      (closeRing n s).tenants = s.tenants ∧ KeepsBut [.rings] s (closeRing n s) := by
  unfold closeRing
  dsimp only
  split
  · next q hq =>
    refine ⟨ring_updRing_self hn .., fun p hp => ?_, rfl, by simp [KeepsBut]⟩
    obtain rfl : q = p.val := Option.some.inj (hq.symm.trans hp)
    by_cases e : n = p.val
    · rw [← e, ring_updRing_self hn]
    · rw [ring_updRing_of_ne e, ring_updRing_self p.isLt]
  · next hq => exact ⟨ring_updRing_self hn .., fun p hp => (nomatch hq.symm.trans hp), rfl, by simp [KeepsBut]⟩

/-- The ring that a served RING_CLOSE names is one of the 32. -/
theorem ringClose_lt {c : Call} {s : State} (h : Served cmdRingClose c s) : byteAt c.payload 0 < 32 := by
  have hf := fields_of_checks h.2
  simp only [cmdRingClose, callReq, Bool.and_eq_true, decide_eq_true_eq] at hf
  obtain ⟨⟨⟨hnum, -⟩, -⟩, -⟩ := hf
  omega

/-- Taking a doorbell reserves no slot. -/
theorem reservedSlots_begun (op : Nat) (c : Call) (s : State) (t : Nat) : reservedSlots (begun op c s) t = reservedSlots s t := by
  obtain ⟨b, sp, ht⟩ := begun_ten op c s t
  simp only [reservedSlots, ht, begun_jobs]
  split <;> rfl

/-- A ring with nothing that waits for it closes at once (R174). -/
theorem exec_ringClose {c : Call} {s : State} (h : Served cmdRingClose c s)
    (hcomp : (s.ring (byteAt c.payload 0)).type = .complete → (s.ring (byteAt c.payload 0)).pair = none)
    (hevent : (s.ring (byteAt c.payload 0)).type = .event → reservedSlots s c.t.val = 0)
    (hsub : (s.ring (byteAt c.payload 0)).type = .submit → (s.ring (byteAt c.payload 0)).inFlight = 0)
    (hc : (s.ring (byteAt c.payload 0)).closing = false) :
    ∃ z, exec (.ringClose c) s = .next z ∧ Answered c 0x0304 St.ok [] z ∧ z.ring (byteAt c.payload 0) = {} ∧
      (∀ p : Fin 32, (s.ring (byteAt c.payload 0)).pair = some p.val → (z.ring p).pair = none) ∧ SetsOnly [.rings] c s z := by
  obtain ⟨hring, hpair, hten, hframe⟩ := closeRing_effect (ringClose_lt h) (begun cmdRingClose.op c s)
  have hsame (k : Nat) : (begun cmdRingClose.op c s).ring k = s.ring k := rfl
  have hrun : cmdRingClose.run (begun cmdRingClose.op c s) c.t.val c.payload =
      .done St.ok [] (closeRing (byteAt c.payload 0) (begun cmdRingClose.op c s)) := by
    simp only [cmdRingClose] at hsame ⊢
    rw [hsame, reservedSlots_begun, if_neg, if_neg]
    · exact fun hs => hs.2 (hsub hs.1)
    · rintro (⟨ht, hs⟩ | ⟨ht, hs⟩ | hs)
      · rw [hcomp ht] at hs; cases hs
      · exact hs (hevent ht)
      · rw [hc] at hs; cases hs
  generalize closeRing (byteAt c.payload 0) (begun cmdRingClose.op c s) = y at *
  have hzr (r : Rsp) (k : Nat) : (respond c.t.val r y).ring k = y.ring k := ring_of_rings (respond_rings ..) k
  exact ⟨_, command_done h hrun, answered_respond .., (hzr ..).trans hring, fun p hp => (congrArg Ring.pair (hzr ..)).trans (hpair p hp),
    keepsBut_respond_begun (by decide) (keepsBut_mono (by decide) hframe) .., mailboxOnly_respond hten _⟩

/-- A SUBMIT ring with consumed work in flight takes no more entries and waits to close (R174). -/
theorem exec_ringClose_waits {c : Call} {s : State} (h : Served cmdRingClose c s) (ha : MayAccept c s)
    (ht : (s.ring (byteAt c.payload 0)).type = .submit) (hfly : (s.ring (byteAt c.payload 0)).inFlight ≠ 0)
    (hc : (s.ring (byteAt c.payload 0)).closing = false) :
    ∃ z, exec (.ringClose c) s = .next z ∧ AcceptedAs c 0x0304 (fun j => j.key == byteAt c.payload 0 && j.waits) z ∧
      z.ring (byteAt c.payload 0) =
        { s.ring (byteAt c.payload 0) with head := (s.ring (byteAt c.payload 0)).tail, closing := true } ∧
      KeepsBut [.tenants, .views, .out, .jobs, .rings] s z := by
  have hsame (k : Nat) : (begun cmdRingClose.op c s).ring k = s.ring k := rfl
  have hrun : cmdRingClose.run (begun cmdRingClose.op c s) c.t.val c.payload =
      .accept { key := byteAt c.payload 0, waits := true }
        ((begun cmdRingClose.op c s).updRing (byteAt c.payload 0) fun r => { r with head := r.tail, closing := true }) := by
    simp only [cmdRingClose] at hsame ⊢
    rw [hsame, if_neg (by simp [ht, hc]), if_pos ⟨ht, hfly⟩]
  refine ⟨_, command_accept h ha hrun, accepted_respond _ _ _ _ _ _ _ (by simp), ?_, by simp [KeepsBut]⟩
  exact (ring_of_rings (respond_rings ..) _).trans (ring_updRing_self (ringClose_lt h) _ (begun cmdRingClose.op c s))

/-- Settles O7: by `exec_ringOpen`, `exec_ringClose` and `exec_ringClose_waits`. -/
theorem ringRequestsOpenAndClose : Obligations.RingRequestsOpenAndClose := by
  unfold Obligations.RingRequestsOpenAndClose
  exact ⟨fun c n s h he hn hl => exec_ringOpen h he hn hl, fun c s h hcomp hevent hsub hc => exec_ringClose h hcomp hevent hsub hc,
    fun c s h ha ht hfly hc => exec_ringClose_waits h ha ht hfly hc⟩

end Sys2Proof.Machine
end

section
/-! ## The requests of the Ethernet family (R131, R358, R386, R394, R397 to R401, Tables ETH.5 to ETH.7) -/
namespace Sys2Proof.Machine
open Sys2Proof

/-! ### Ports -/

/-- A port just changed. -/
theorem port_updPort_self {n : Nat} (h : n < 6) (f : Port → Port) (s : State) : (s.updPort n f).port n = f (s.port n) :=
  vat_upd_self _ _ _ h

/-- A change of one port leaves the others. -/
theorem port_updPort_ne {n m : Nat} (h : n ≠ m) (f : Port → Port) (s : State) : (s.updPort n f).port m = s.port m :=
  vat_upd_ne _ _ _ _ h

/-- The ports are those of the part `net`. -/
theorem port_of_net {s z : State} (h : z.net = s.net) (n : Nat) : z.port n = s.port n := by rw [State.port, State.port, h]

/-- A port that sends nothing and holds nothing only takes its new settings and its SFP_TXDIS (R358, R386). -/
theorem cmdEthPortConfig_run {s : State} {t n : Nat} {p : Bytes} (hn : n = byteAt p 0) (hlt : n < 6)
    (hclaim : byteAt p 1 ≠ 0 ∨ claimed s t (5 + n) = false) (hlink : (s.port n).mode = byteAt p 1 ∨ (s.port n).link = false)
    (hheld : (s.port n).held = none) (hlpi : (s.port n).txLpi = false) :
    cmdEthPortConfig.run s t p = .done St.ok [] (syncTxDis n (s.updPort n (portSettings p))) := by
  have hdown : (if (s.port n).mode = byteAt p 1 then s else portLinkDown n s) = s := by
    split
    · rfl
    · next hm => simp [portLinkDown, hlink.resolve_left hm]
  have hset : (syncTxDis n (s.updPort n (portSettings p))).port n =
      { portSettings p (s.port n) with
        txDis := !(portSettings p (s.port n)).everOn || (portSettings p (s.port n)).mode == 0 || (portSettings p (s.port n)).failed } := by
    rw [syncTxDis, port_updPort_self hlt, port_updPort_self hlt]
  have hclaim' : ¬ (byteAt p 1 = 0 ∧ claimed s t (5 + n) = true) := by
    rintro ⟨h0, hc⟩
    exact hclaim.elim (· h0) fun h => Bool.false_ne_true (h.symm.trans hc)
  subst hn
  simp only [cmdEthPortConfig, if_neg hclaim', hdown]
  generalize syncTxDis (byteAt p 0) (s.updPort (byteAt p 0) (portSettings p)) = y at hset ⊢
  have hy : (y.port (byteAt p 0)).held = none := by rw [hset]; exact hheld
  have hl : (y.port (byteAt p 0)).txLpi = false := by rw [hset]; exact hlpi
  simp [dropHeld, leaveLpi, hy, hl]

theorem exec_ethPortConfig {c : Call} {p : Bytes} {n : Nat} {s : State} (h : Served cmdEthPortConfig c s) (hp : p = c.payload)
    (hn : n = byteAt p 0) (hclaim : byteAt p 1 ≠ 0 ∨ claimed s c.t (5 + n) = false)
    (hlink : (s.port n).mode = byteAt p 1 ∨ (s.port n).link = false) (hheld : (s.port n).held = none)
    (hlpi : (s.port n).txLpi = false) :
    ∃ z, exec (.ethPortConfig c) s = .next z ∧ Answered c 0x0601 St.ok [] z ∧
      z.port n = { portSettings p (s.port n) with
        txDis := !((s.port n).everOn || byteAt p 1 != 0) || byteAt p 1 == 0 || (s.port n).failed } ∧
      (∀ q : Fin 6, q.val ≠ n → z.port q = s.port q) ∧ SetsOnly [.net] c s z := by
  have hf := fields_of_checks h.2
  simp only [cmdEthPortConfig, callReq, ← hp, portConfigOk, Bool.and_eq_true, decide_eq_true_eq] at hf
  have hlt : n < 6 := by omega
  have hrun := cmdEthPortConfig_run (s := begun 0x0601 c s) (t := c.t) hn hlt hclaim hlink hheld hlpi
  rw [hp] at hrun
  have hnet (r : Rsp) (z : State) (k : Nat) : (respond c.t.val r z).port k = z.port k := port_of_net (respond_net ..) k
  refine ⟨_, command_done h hrun, answered_respond .., ?_, fun q hq => ?_, by simp [KeepsBut, syncTxDis], ?_⟩
  · rw [hnet, syncTxDis, port_updPort_self hlt, port_updPort_self hlt, ← hp]
    rfl
  · rw [hnet, syncTxDis, port_updPort_ne hq.symm, port_updPort_ne hq.symm]
    rfl
  · exact mailboxOnly_respond (op := 0x0601) (by simp [syncTxDis]) _

/-- SFP_TXDIS of a port just configured (R358, R967): a port that was never on and stays off is off. -/
theorem txDis_settings (e f : Bool) (m : Nat) :
    (!(e || m != 0) || m == 0 || f) = (!e && decide (m = 0) || decide (m = 0) || f) := by
  by_cases hm : m = 0 <;> simp [hm]

/-! ### Flow entries -/

/-- An entry removed reads as the default, the others as before. -/
theorem mgetD_mdel {α : Type} (m : AMap α) (x y : Nat) (d : α) : mgetD (mdel m x) y d = if y = x then d else mgetD m y d := by
  have h := mget_filter m (fun k => k ≠ x) y
  simp only [mgetD, mdel]
  rw [h]
  split <;> simp_all

/-- The entry written, its counts at zero, and every other entry (R397, R399). -/
theorem flows_setFlow (i svc : Nat) (f : Flow) (s : State) :
    flowAt (setFlow i svc f s) i = (if f.match_.testBit 0 then { f with service := svc } else {}) ∧
      mgetD (setFlow i svc f s).net.counts i {} = {} ∧
      (∀ j, j ≠ i → flowAt (setFlow i svc f s) j = flowAt s j ∧
        mgetD (setFlow i svc f s).net.counts j {} = mgetD s.net.counts j {}) := by
  simp only [flowAt, setFlow, State.updNet_net]
  refine ⟨?_, by simp [mgetD_mdel], fun j hj => ⟨?_, by simp [mgetD_mdel, hj]⟩⟩
  · split <;> simp [mgetD_mdel]
  · split <;> simp [mgetD_mdel, hj, Ne.symm hj]

theorem exec_ethFlowSet {c : Call} {i : Nat} {f : Flow} {s : State} (h : Served cmdEthFlowSet c s)
    (hi : i = rd c.payload 0 2) (hf : f = Flow.ofBytes (slice c.payload 4 64))
    (hown : (flowAt s i).service = 1 ∨ (flowAt s i).service = 255) :
    ∃ z, exec (.ethFlowSet c) s = .next z ∧ Answered c 0x0604 St.ok [] z ∧ z.net = (setFlow i 1 f s).net ∧
      SetsOnly [.net] c s z := by
  have hrun : cmdEthFlowSet.run (begun 0x0604 c s) c.t.val c.payload = .done St.ok [] (setFlow i 1 f (begun 0x0604 c s)) := by
    have hserv : ¬ ((flowAt (begun 0x0604 c s) i).service ≠ 1 ∧ (flowAt (begun 0x0604 c s) i).service ≠ 255) :=
      fun hs => hown.elim hs.1 hs.2
    rw [hi] at hserv
    rw [hi, hf]
    simp only [cmdEthFlowSet, if_neg hserv]
  exact ⟨_, command_done h hrun, answered_respond .., respond_net .., by simp [KeepsBut, setFlow],
    mailboxOnly_respond (op := 0x0604) (by simp [setFlow]) _⟩

theorem exec_ethFlowCounters {c : Call} {s : State} (h : Served cmdEthFlowCounters c s) (hlt : rd c.payload 0 2 < 4096) :
    ∃ z, exec (.ethFlowCounters c) s = .next z ∧
      Answered c 0x0606 St.ok ((List.range (byteAt c.payload 2)).flatMap fun k =>
        (mgetD s.net.counts (rd c.payload 0 2 + k) {}).out) z ∧ ReadsOnly c s z := by
  have hf := fields_of_checks h.2
  simp only [cmdEthFlowCounters, callReq, Bool.and_eq_true, Bool.or_eq_true, decide_eq_true_eq] at hf
  refine command_reads h (congrArg (Reply.done St.ok · _) ?_)
  refine List.flatMap_congr fun k hk => if_neg ?_
  have := List.mem_range.1 hk
  omega

/-! ### Requests that start work -/

/-- What an accepted request changes besides its effect: the mailbox and the last token of its tenant, its job (R205, R206). -/
theorem startsOnly_respond {ps : List Part} {op : Nat} {c : Call} {s s1 : State} {j : Job} (r : Rsp)
    (hk : KeepsBut ps (begun op c s) s1) (hjobs : s1.jobs = s.jobs) (hten : s1.tenants = (begun op c s).tenants) :
    StartsOnly ps c s (respond c.t.val r
      { (s1.updTen c.t.val fun x => { x with lastToken := nextToken (s1.ten c.t.val) }) with jobs := s1.jobs ++ [j] }) := by
  refine ⟨?_, ?_, fun k => ?_⟩
  · have hbegun : KeepsBut [.tenants, .views, .out] s (begun op c s) := by simp [KeepsBut]
    have hend (y : State) (l : List Job) (f : Tenant → Tenant) :
        KeepsBut [.tenants, .views, .out, .jobs] y (respond c.t.val r { y.updTen c.t.val f with jobs := l }) := by simp [KeepsBut]
    exact keepsBut_trans (keepsBut_mono (by simp) hbegun) <| keepsBut_trans
      (keepsBut_mono (by intro q hq; simp [hq]) hk) (keepsBut_mono (by simp) (hend ..))
  · simp [hjobs]
  · obtain ⟨b, sp, hb⟩ := begun_ten op c s k
    rw [← ten_of_tenants hten] at hb
    split
    · next hk =>
      subst hk
      rw [respond_ten _ _ _ c.t.isLt]
      have hself (f : Tenant → Tenant) (l : List Job) : State.ten { s1.updTen c.t.val f with jobs := l } c.t.val = f (s1.ten c.t.val) :=
        (ten_updTen c.t c.t f s1).trans (if_pos rfl)
      simp only [hself, hb, if_true]
      rfl
    · next hk =>
      rw [respond_ten_ne _ _ _ _ fun e => hk (Fin.ext e.symm)]
      rw [if_neg fun e => hk (Fin.ext e)] at hb
      exact (ten_updTen c.t k _ s1).trans ((if_neg hk).trans hb)

theorem exec_ethSfpXfer {c : Call} {i : Nat} {s : State} (h : Served cmdEthSfpXfer c s) (ha : MayAccept c s)
    (hi : i = hIndex (rd c.payload 8 4)) (hgood : (s.port (byteAt c.payload 0)).failed = false)
    (hbus : (s.port (byteAt c.payload 0)).sfp ≠ .stuck) (hread : byteAt c.payload 3 = 0) :
    ∃ z, exec (.ethSfpXfer c) s = .next z ∧
      AcceptedAs c 0x0607 (fun j => j.waits && j.pins == [i] && j.data == c.payload) z ∧
      (z.loft.tag i).pins = (s.loft.tag i).pins + 1 ∧ z.loft.mem = s.loft.mem ∧ StartsOnly [.loft] c s z := by
  have hf := fields_of_checks h.2
  simp only [cmdEthSfpXfer, callReq, Bool.and_eq_true] at hf
  have hpool : poolIndex i = true := hi ▸ poolIndex_of_usable hf.2
  have hsame (k : Nat) : (begun 0x0607 c s).port k = s.port k := rfl
  have hrun : cmdEthSfpXfer.run (begun 0x0607 c s) c.t.val c.payload =
      .accept { key := byteAt c.payload 0, pins := [i], data := c.payload, waits := true } (pin i (begun 0x0607 c s)) := by
    subst hi
    simp [cmdEthSfpXfer, hsame, hgood, hbus, hread]
  have htag := tag_pin hpool (begun 0x0607 c s)
  have hpin := pin_besidesYealms i (begun 0x0607 c s)
  have hframe : KeepsBut [.loft] (begun 0x0607 c s) (pin i (begun 0x0607 c s)) := by
    simp [KeepsBut, pin, hpool]
  have hten : (pin i (begun 0x0607 c s)).tenants = (begun 0x0607 c s).tenants := by unfold pin; split <;> rfl
  generalize pin i (begun 0x0607 c s) = y at *
  refine ⟨_, command_accept h ha hrun, accepted_respond _ _ _ _ _ _ _ (by simp), ?_, ?_, startsOnly_respond _ hframe ?_ hten⟩
  · rw [respond_loft]
    exact congrArg Tag.pins htag
  · rw [respond_loft]
    exact (congrArg (fun x : State => x.loft.mem) hpin :)
  · exact (congrArg State.jobs hpin :)

/-- Settles O37: a lemma for each request that sets or starts something, `command_reads` for those that read. -/
theorem ethernetRequestsServe : Obligations.EthernetRequestsServe := by
  unfold Obligations.EthernetRequestsServe
  refine ⟨fun c p n s h hp hn hclaim hlink hheld hlpi => ?_, fun c x s h hx hgood => ?_, fun c x s h hx hgood => ?_,
    fun c i f s h hi hf hown => ?_, fun c s h => command_reads h rfl, fun c s h hlt => exec_ethFlowCounters h hlt,
    fun c i s h ha hi hgood hbus hread => exec_ethSfpXfer h ha hi hgood hbus hread⟩
  · obtain ⟨z, hz, hans, hport, hother, hframe⟩ := exec_ethPortConfig h hp hn hclaim hlink hheld hlpi
    refine ⟨z, hz, hans, ?_, fun i => ?_, ?_, ?_, hother, hframe⟩
    · rw [hport]; rfl
    · rw [hport]; simp [portSettings, vat]
    · rw [hport]; exact txDis_settings ..
    · rw [hport]; rfl
  · subst hx
    refine command_reads h ?_
    have hsame : (begun 0x0602 c s).port (byteAt c.payload 0) = s.port (byteAt c.payload 0) := rfl
    simp only [cmdEthPortStatus, hsame, hgood]
    cases (s.port (byteAt c.payload 0)).ddmAt <;> rfl
  · subst hx
    refine command_reads h ?_
    have hsame : (begun 0x0603 c s).port (byteAt c.payload 0) = s.port (byteAt c.payload 0) := rfl
    simp only [cmdEthPortCounters, hsame, hgood]
    rfl
  · obtain ⟨z, hz, hans, hnet, hframe⟩ := exec_ethFlowSet h hi hf hown
    obtain ⟨hself, hzero, hother⟩ := flows_setFlow i 1 f s
    have hflow (k : Nat) : flowAt z k = flowAt (setFlow i 1 f s) k := by rw [flowAt, flowAt, hnet]
    refine ⟨z, hz, hans, (hflow i).trans hself, hnet ▸ hzero, fun j hj => ?_, ?_, hframe⟩
    · rw [hflow, hnet]; exact hother j hj
    · rw [hnet]; rfl

end Sys2Proof.Machine
end

section
/-! ## Frames taken from a lane and sent on one (R883 to R885, R904) -/
namespace Sys2Proof.Machine
open Sys2Proof

/-! ### Lanes -/

/-- The lanes are those of the part `cascade`. -/
theorem laneOf_of_cascade {s z : State} (h : z.cascade.lane = s.cascade.lane) (l : Nat) : z.laneOf l = s.laneOf l := by
  rw [State.laneOf, State.laneOf, h]

/-- A lane just changed. -/
theorem laneOf_updLane_self {l : Nat} (h : l < 2) (f : Lane → Lane) (s : State) : (s.updLane l f).laneOf l = f (s.laneOf l) :=
  vat_upd_self _ _ _ h

/-- A change of one lane leaves the other. -/
theorem laneOf_updLane_ne {l k : Nat} (h : l ≠ k) (f : Lane → Lane) (s : State) : (s.updLane l f).laneOf k = s.laneOf k :=
  vat_upd_ne _ _ _ _ h

/-- What a change of a lane keeps of it, it keeps of every lane. -/
theorem laneOf_updLane_keep {β : Type} (p : Lane → β) (f : Lane → Lane) (h : ∀ x, p (f x) = p x) (l k : Nat) (s : State) :
    p ((s.updLane l f).laneOf k) = p (s.laneOf k) :=
  vat_upd_keep _ _ _ _ p h

/-- A change of a lane is known by what it does to the lane that is there. -/
theorem updLane_congr {s : State} {l : Nat} {f g : Lane → Lane} (h : f (s.laneOf l) = g (s.laneOf l)) :
    s.updLane l f = s.updLane l g := by
  simp only [State.updLane, State.updCas, upd_congr _ _ h]

/-- Two changes of an element are one. -/
theorem upd_upd {α : Type} {n : Nat} (v : Vector α n) (i : Nat) (f g : α → α) : upd (upd v i f) i g = upd v i (g ∘ f) := by
  unfold upd
  split <;> simp [Function.comp]

theorem updLane_updLane (s : State) (l : Nat) (f g : Lane → Lane) : (s.updLane l f).updLane l g = s.updLane l (g ∘ f) := by
  simp only [State.updLane, State.updCas, upd_upd]

theorem emit_updLane (s : State) (o : Out) (l : Nat) (f : Lane → Lane) : (s.emit o).updLane l f = (s.updLane l f).emit o := rfl

theorem laneTo_lt (s : State) (pos : Nat) : laneTo s pos < 2 := by
  unfold laneTo
  split <;> omega

theorem laneTo_of_cascade {s z : State} (h : z.cascade.position = s.cascade.position) (pos : Nat) : laneTo z pos = laneTo s pos := by
  rw [laneTo, laneTo, h]

/-! ### A frame accepted (R883 to R885) -/

/-- A lane that has accepted a frame: FSEQ, the counts of frames and bytes received. -/
def Lane.took (rx : LaneRx) (x : Lane) : Lane :=
  { x with rxSeq := rx.fseq
           counters := upd (upd x.counters 1 fun c => wrap64 (c + 1)) 3 fun c => wrap64 (c + rx.payload.length) }

/-- The CREDIT block that acknowledges a frame and returns its credit (R884). -/
def creditFor (type : Nat) (rx : LaneRx) : Out :=
  .block rx.lane 0x55 (leBytes 2 rx.fseq ++ [0#8] ++ (List.range 4).map fun i =>
    BitVec.ofNat 8 (if i = frameVc type then min 255 (frameUnits rx.payload.length) else 0))

/-- The state when a frame has been accepted and not yet acted on. -/
def State.took (type : Nat) (rx : LaneRx) (s : State) : State := (s.updLane rx.lane (Lane.took rx)).emit (creditFor type rx)

/-- A plain frame that is the next in order is accepted (R884, R885, R902). -/
theorem laneAccept_heard {rx : LaneRx} {s : State} (h : LaneHeard rx s) (type : Nat) :
    laneAccept type rx s = (some rx.payload, s.took type rx) := by
  obtain ⟨-, -, -, hlt, hseq, hblock, hcrc, hplain, hreq⟩ := h
  have hnew : ¬ ((s.laneOf rx.lane).rxSeq + 65536 - rx.fseq) % 65536 < 32768 := by rw [hseq]; omega
  have hgood : ¬ (rx.fseq ≠ ((s.laneOf rx.lane).rxSeq + 1) % 65536 ∨ rx.blockErr = true) := by simp [hseq, hblock]
  have hpay : plainPayload rx type s = (some rx.payload, s) := by simp [plainPayload, hplain, hreq]
  have hcount : laneCount rx.lane 3 rx.payload.length (laneCount rx.lane 1 1 (s.updLane rx.lane fun x => { x with rxSeq := rx.fseq })) =
      s.updLane rx.lane (Lane.took rx) := by
    simp only [laneCount, show ¬ (4 ≤ 3 ∧ 3 ≤ 8) by omega, show ¬ (4 ≤ 1 ∧ 1 ≤ 8) by omega, if_false, updLane_updLane]
    rfl
  have hrx : ((s.updLane rx.lane (Lane.took rx)).laneOf rx.lane).rxSeq = rx.fseq := by
    rw [laneOf_updLane_self rx.lane.isLt]; rfl
  simp only [laneAccept, hpay, hcount, if_neg hnew, if_neg hgood, hcrc, Bool.not_true, Bool.false_eq_true, if_false, sendCredit, hrx]
  rfl

/-- What a lane that took a frame keeps: all but FSEQ and counts. -/
theorem laneOf_took_keep {β : Type} (p : Lane → β) (rx : LaneRx) (h : ∀ x, p (Lane.took rx x) = p x) (type l : Nat) (s : State) :
    p ((s.took type rx).laneOf l) = p (s.laneOf l) :=
  laneOf_updLane_keep p _ h rx.lane l s

theorem laneOf_took_ne {rx : LaneRx} {l : Nat} (h : l ≠ rx.lane.val) (type : Nat) (s : State) :
    (s.took type rx).laneOf l = s.laneOf l :=
  laneOf_updLane_ne (Ne.symm h) _ s

/-- Acceptance changes the lanes of the cascade. -/
theorem cascade_took (type : Nat) (rx : LaneRx) (s : State) :
    (s.took type rx).cascade = { s.cascade with lane := (s.took type rx).cascade.lane } := rfl

theorem keepsBut_took (type : Nat) (rx : LaneRx) (s : State) : KeepsBut [.cascade, .out] s (s.took type rx) := by
  simp [KeepsBut, State.took]

/-- A frame accepted leaves every lane as clear as it was. -/
theorem laneClear_took {l ty n : Nat} {s : State} (h : LaneClear l ty n s) (type : Nat) (rx : LaneRx) :
    LaneClear l ty n (s.took type rx) := by
  obtain ⟨hopen, hq, he, hc⟩ := h
  exact ⟨(laneOf_took_keep laneOpen rx (fun _ => rfl) type l s).trans hopen,
    (laneOf_took_keep Lane.queue rx (fun _ => rfl) type l s).trans hq,
    (laneOf_took_keep Lane.encrypt rx (fun _ => rfl) type l s).trans he,
    (congrArg (vat · (frameVc ty)) (laneOf_took_keep Lane.credit rx (fun _ => rfl) type l s)) ▸ hc⟩

theorem laneTook_took (type : Nat) (rx : LaneRx) (s : State) : LaneTook rx type s (s.took type rx) := by
  have hl : (s.took type rx).laneOf rx.lane = Lane.took rx (s.laneOf rx.lane) := laneOf_updLane_self rx.lane.isLt _ s
  rw [LaneTook, hl]
  refine ⟨rfl, ?_, ?_, List.mem_cons_self ..⟩
  · rw [Lane.took, vat_upd_ne _ _ _ _ (by decide), vat_upd_self _ _ _ (by decide)]
  · rw [Lane.took, vat_upd_self _ _ _ (by decide), vat_upd_ne _ _ _ _ (by decide)]

/-- What happens after acceptance and leaves the lane's receiver and the log leaves the frame taken. -/
theorem laneTook_of {rx : LaneRx} {type : Nat} {s y z : State} (h : LaneTook rx type s y)
    (hl : z.laneOf rx.lane = y.laneOf rx.lane) (hout : ∀ o ∈ y.out, o ∈ z.out) : LaneTook rx type s z := by
  rw [LaneTook, hl]
  obtain ⟨hseq, hframes, hbytes, hmem⟩ := h
  exact ⟨hseq, hframes, hbytes, hout _ hmem⟩

/-! ### A frame sent (R883, R884) -/

/-- A lane on which a frame has started: its FSEQ, its credit, the counts of frames and bytes sent. -/
def Lane.sent (f : LaneFrame) (x : Lane) : Lane :=
  { x with txSeq := (x.txSeq + 1) % 65536, unacked := x.unacked ++ [f]
           credit := upd x.credit (frameVc f.type) fun c => c - frameUnits f.payload.length
           counters := upd (upd x.counters 0 fun c => wrap64 (c + 1)) 2 fun c => wrap64 (c + f.payload.length) }

/-- The state when a plain frame has left on a lane. -/
def State.sent (l type dest origin : Nat) (p : Bytes) (s : State) : State :=
  (s.updLane l (Lane.sent { type, fseq := (s.laneOf l).txSeq, dest, origin, payload := p })).emit
    (.lane l type dest origin false false p)

/-- The only frame waiting on a lane with credit for it is the next. -/
theorem nextFrame_single {x : Lane} {f : LaneFrame} (hq : x.queue = [f]) (he : x.encrypt = false)
    (hc : frameUnits f.payload.length ≤ vat x.credit (frameVc f.type)) : nextFrame x = some f := by
  have hvc : frameVc f.type = 0 ∨ frameVc f.type = 1 ∨ frameVc f.type = 2 ∨ frameVc f.type = 3 := by
    unfold frameVc
    split
    · exact .inr (.inl rfl)
    · split
      · exact .inr (.inr (.inl rfl))
      · split
        · exact .inr (.inr (.inr rfl))
        · exact .inl rfl
  have hready (vc : Nat) : readyOn x vc = if frameVc f.type = vc then some f else none := by
    by_cases h : frameVc f.type = vc
    · subst h
      simp [readyOn, hq, he, b2n, hc]
    · simp [readyOn, hq, h]
  rcases hvc with h | h | h | h <;> simp [nextFrame, hready, h]

/-- A plain frame queued on a clear lane starts at once, and nothing else (R883). -/
theorem laneSend_clear {l type : Nat} {p : Bytes} {s : State} (hl : l < 2) (h : LaneClear l type p.length s) (dest origin : Nat) :
    laneSend l type dest origin p s = s.sent l type dest origin p := by
  obtain ⟨hopen, hq, he, hc⟩ := h
  generalize hf : ({ type, dest, origin, payload := p } : LaneFrame) = f
  generalize hy : s.updLane l (fun x => { x with queue := x.queue ++ [f] }) = y
  have hlane : y.laneOf l = { s.laneOf l with queue := [f] } := by
    rw [← hy, laneOf_updLane_self hl, hq]; rfl
  have hqueue : (y.laneOf l).queue = [f] := by rw [hlane]
  have hopen' : laneOpen (y.laneOf l) = true := by rw [hlane]; exact hopen
  have hnext : nextFrame (y.laneOf l) = some f := by
    rw [hlane]
    exact nextFrame_single rfl he (hf ▸ hc)
  have hseal : sealFrame l { f with fseq := (y.laneOf l).txSeq } y = (some { f with fseq := (s.laneOf l).txSeq }, y) := by
    have he' : (y.laneOf l).encrypt = false := by rw [hlane]; exact he
    have hseq : (y.laneOf l).txSeq = (s.laneOf l).txSeq := by rw [hlane]
    simp [sealFrame, he', hseq]
  have hstart : startFrame l { f with fseq := (s.laneOf l).txSeq } (y.updLane l fun x => { x with queue := x.queue.erase f }) =
      s.sent l type dest origin p := by
    simp only [startFrame, laneCount, show ¬ (4 ≤ 2 ∧ 2 ≤ 8) by omega, show ¬ (4 ≤ 0 ∧ 0 ≤ 8) by omega, if_false, emit_updLane,
      updLane_updLane, State.sent, ← hy, ← hf]
    refine congrArg (State.emit · _) (updLane_congr ?_)
    simp [Function.comp, Lane.sent, hq]
  simp only [laneSend, hf, hy, hqueue, List.length_singleton, pump, hopen', hnext, hseal, hstart, Bool.not_true,
    Bool.false_eq_true, if_false]

theorem sendTo_clear {pos type : Nat} {p : Bytes} {s : State} (h : LaneClear (laneTo s pos) type p.length s) :
    sendTo pos type p s = s.sent (laneTo s pos) type pos s.cascade.position p :=
  laneSend_clear (laneTo_lt ..) h ..

/-- Sending changes the lanes of the cascade. -/
theorem cascade_sent (l type dest origin : Nat) (p : Bytes) (s : State) :
    (s.sent l type dest origin p).cascade = { s.cascade with lane := (s.sent l type dest origin p).cascade.lane } := rfl

theorem keepsBut_sent (l type dest origin : Nat) (p : Bytes) (s : State) :
    KeepsBut [.cascade, .out] s (s.sent l type dest origin p) := by
  simp [KeepsBut, State.sent]

theorem sent_loft (l ty dest origin : Nat) (p : Bytes) (s : State) : (s.sent l ty dest origin p).loft = s.loft := by
  simp [State.sent]

theorem sent_recorder (l ty dest origin : Nat) (p : Bytes) (s : State) : (s.sent l ty dest origin p).recorder = s.recorder := by
  simp [State.sent]

theorem sent_jobs (l ty dest origin : Nat) (p : Bytes) (s : State) : (s.sent l ty dest origin p).jobs = s.jobs := by
  simp [State.sent]

/-- A frame sent leaves what a lane has received. -/
theorem sent_rxSeq (l ty dest origin k : Nat) (p : Bytes) (s : State) :
    ((s.sent l ty dest origin p).laneOf k).rxSeq = (s.laneOf k).rxSeq :=
  laneOf_updLane_keep Lane.rxSeq (Lane.sent _) (fun _ => rfl) l k s

/-- A frame accepted and one sent leave rings, clock and submissions. -/
theorem took_sent_same (type : Nat) (rx : LaneRx) (s : State) (l ty dest origin : Nat) (p : Bytes) :
    ((s.took type rx).sent l ty dest origin p).rings = s.rings ∧
      ((s.took type rx).sent l ty dest origin p).timebase = s.timebase ∧
      ((s.took type rx).sent l ty dest origin p).subs = s.subs := by
  simp [State.took, State.sent]

theorem laneOf_sent_ne {l k : Nat} (h : k ≠ l) (type dest origin : Nat) (p : Bytes) (s : State) :
    (s.sent l type dest origin p).laneOf k = s.laneOf k :=
  laneOf_updLane_ne (Ne.symm h) _ s

theorem mem_sent_out {l type dest origin : Nat} {p : Bytes} {s : State} {o : Out} (h : o ∈ s.out) :
    o ∈ (s.sent l type dest origin p).out :=
  List.mem_cons_of_mem _ h

theorem laneSent_sent {l : Nat} (hl : l < 2) (type dest origin : Nat) (p : Bytes) (s : State) :
    LaneSent l type dest origin p (s.sent l type dest origin p) := by
  have hlane : (s.sent l type dest origin p).laneOf l =
      Lane.sent { type, fseq := (s.laneOf l).txSeq, dest, origin, payload := p } (s.laneOf l) := laneOf_updLane_self hl _ s
  rw [LaneSent, hlane]
  exact ⟨List.mem_cons_self .., by simp [Lane.sent]⟩

/-- What happens after a frame has left, on no lane, leaves it sent. -/
theorem laneSent_of {l type dest origin : Nat} {p : Bytes} {y z : State} (h : LaneSent l type dest origin p y)
    (hl : z.laneOf l = y.laneOf l) (hout : ∀ o ∈ y.out, o ∈ z.out) : LaneSent l type dest origin p z := by
  rw [LaneSent, hl]
  exact ⟨hout _ h.1, h.2⟩

/-- A frame sent after one is accepted, on the same lane or not, leaves that one taken. -/
theorem laneTook_sent {rx : LaneRx} {ty : Nat} {s y : State} (h : LaneTook rx ty s y) (l type dest origin : Nat) (p : Bytes) :
    LaneTook rx ty s (y.sent l type dest origin p) := by
  have hkeep {β : Type} (q : Lane → β) (hq : ∀ f x, q (Lane.sent f x) = q x) :
      q ((y.sent l type dest origin p).laneOf rx.lane) = q (y.laneOf rx.lane) := laneOf_updLane_keep q _ (hq _) l rx.lane y
  obtain ⟨hseq, hframes, hbytes, hmem⟩ := h
  refine ⟨(hkeep Lane.rxSeq fun _ _ => rfl).trans hseq, (hkeep (fun x => vat x.counters 1) fun f x => ?_).trans hframes,
    (hkeep (fun x => vat x.counters 3) fun f x => ?_).trans hbytes, mem_sent_out hmem⟩
  · simp only [Lane.sent]
    rw [vat_upd_ne _ _ _ _ (by decide), vat_upd_ne _ _ _ _ (by decide)]
  · simp only [Lane.sent]
    rw [vat_upd_ne _ _ _ _ (by decide), vat_upd_ne _ _ _ _ (by decide)]

/-- Whether a lane is clear is known by the lane. -/
theorem laneClear_of {l type n : Nat} {s z : State} (h : LaneClear l type n s) (hl : z.laneOf l = s.laneOf l) :
    LaneClear l type n z := by
  rw [LaneClear, hl]
  exact h

/-! ### Rows of frames (R904) -/

/-- A frame that ends at the neighbour has its effect there. -/
theorem laneFrame_neighbour {rx : LaneRx} {s : State} (h : LaneHeard rx s) {type : Nat} (ht : routed type = false)
    (seen body : Bytes → State → State) : laneFrame type rx seen body s = body rx.payload (s.took type rx) := by
  obtain ⟨-, hisl, hup, -⟩ := id h
  simp [laneFrame, hisl, hup, laneAccept_heard h, ht]

/-- A frame for this module has its effect here. -/
theorem laneFrame_here {rx : LaneRx} {s : State} (h : LaneHeard rx s) (hh : ForHere rx s) {type : Nat} (ht : routed type = true)
    (seen body : Bytes → State → State) : laneFrame type rx seen body s = body rx.payload (s.took type rx) := by
  obtain ⟨-, hisl, hup, -⟩ := id h
  obtain ⟨hvalid, hin, hdest⟩ := hh
  have hvalid' : (s.took type rx).cascade.valid = true := hvalid
  have hin' : (s.took type rx).cascade.outside = false := hin
  have hdest' : rx.dest.val = (s.took type rx).cascade.position := hdest
  simp only [laneFrame, hisl, hup, laneAccept_heard h, ht, hvalid', hin', if_pos hdest']
  rfl

/-- A frame for another position goes on unchanged. -/
theorem laneFrame_relayed {rx : LaneRx} {s : State} (h : LaneHeard rx s) (hvalid : s.cascade.valid = true)
    (hin : s.cascade.outside = false) (hdest : rx.dest.val ≠ s.cascade.position) {type : Nat} (ht : routed type = true)
    (seen body : Bytes → State → State) :
    laneFrame type rx seen body s =
      laneSend (laneTo s rx.dest) type rx.dest rx.origin rx.payload (seen rx.payload (s.took type rx)) := by
  obtain ⟨-, hisl, hup, -⟩ := id h
  have hvalid' : (s.took type rx).cascade.valid = true := hvalid
  have hin' : (s.took type rx).cascade.outside = false := hin
  have hdest' : ¬ rx.dest.val = (s.took type rx).cascade.position := hdest
  simp only [laneFrame, hisl, hup, laneAccept_heard h, ht, hvalid', hin', if_neg hdest']
  rfl

end Sys2Proof.Machine
end

section
/-! ## Frames relayed, leases, forwarded requests and their responses (R904 to R906, R910) -/
namespace Sys2Proof.Machine
open Sys2Proof

/-! ### Frames relayed and answered (R904) -/

/-- A change of the cascade that leaves the lanes alone. -/
def OffLanes (g : Cascade → Cascade) : Prop := ∀ c v, g { c with lane := v } = { g c with lane := v }

theorem OffLanes.lane {g : Cascade → Cascade} (hg : OffLanes g) (c : Cascade) : (g c).lane = c.lane :=
  (congrArg Cascade.lane (hg c c.lane) :)

theorem offLanes_id : OffLanes fun c => c := fun _ _ => rfl

theorem offLanes_leaseSeen (n : Nat) : OffLanes fun c => { c with leaseSeen := max c.leaseSeen n } := fun _ _ => rfl

theorem laneOf_updCas {g : Cascade → Cascade} (hg : OffLanes g) (l : Nat) (s : State) : (s.updCas g).laneOf l = s.laneOf l :=
  laneOf_of_cascade (hg.lane _) l

theorem keepsBut_updCas (g : Cascade → Cascade) (s : State) : KeepsBut [.cascade, .out] s (s.updCas g) := by
  simp [KeepsBut]

/-- A frame accepted and a change off the lanes: the cascade. -/
theorem cascade_updCas_took {g : Cascade → Cascade} (hg : OffLanes g) (type : Nat) (rx : LaneRx) (s : State) :
    ((s.took type rx).updCas g).cascade = { g s.cascade with lane := ((s.took type rx).updCas g).cascade.lane } := by
  have h : ((s.took type rx).updCas g).cascade = { g s.cascade with lane := (s.took type rx).cascade.lane } :=
    hg s.cascade (s.took type rx).cascade.lane
  rw [h]

theorem laneTook_updCas {g : Cascade → Cascade} (hg : OffLanes g) (type : Nat) (rx : LaneRx) (s : State) :
    LaneTook rx type s ((s.took type rx).updCas g) :=
  laneTook_of (laneTook_took type rx s) (laneOf_updCas hg _ _) fun _ => id

/-- A frame accepted, a change off the lanes, a frame sent. -/
theorem took_updCas_sent {g : Cascade → Cascade} (hg : OffLanes g) (type : Nat) (rx : LaneRx) (s : State) {l : Nat} (hl : l < 2)
    (ty dest origin : Nat) (p : Bytes) :
    (((s.took type rx).updCas g).sent l ty dest origin p).cascade =
        { g s.cascade with lane := (((s.took type rx).updCas g).sent l ty dest origin p).cascade.lane } ∧
      LaneSent l ty dest origin p (((s.took type rx).updCas g).sent l ty dest origin p) ∧
      LaneTook rx type s (((s.took type rx).updCas g).sent l ty dest origin p) ∧
      KeepsBut [.cascade, .out] s (((s.took type rx).updCas g).sent l ty dest origin p) := by
  refine ⟨?_, laneSent_sent hl .., laneTook_sent (laneTook_updCas hg ..) .., ?_⟩
  · rw [cascade_sent, cascade_updCas_took hg]
  · exact keepsBut_trans (keepsBut_took ..) (keepsBut_trans (keepsBut_updCas ..) (keepsBut_sent ..))

theorem laneClear_updCas_took {g : Cascade → Cascade} (hg : OffLanes g) {l ty n : Nat} {s : State} (h : LaneClear l ty n s)
    (type : Nat) (rx : LaneRx) : LaneClear l ty n ((s.took type rx).updCas g) :=
  laneClear_of (laneClear_took h type rx) (laneOf_updCas hg ..)

/-- A frame for another position is relayed unchanged, behind what its passing tells this module (R904, R910). -/
theorem relayed {rx : LaneRx} {s : State} (h : LaneHeard rx s) (hvalid : s.cascade.valid = true) (hin : s.cascade.outside = false)
    (hdest : rx.dest.val ≠ s.cascade.position) {type : Nat} (hc : LaneClear (laneTo s rx.dest) type rx.payload.length s)
    (ht : routed type = true) {g : Bytes → Cascade → Cascade} (hg : OffLanes (g rx.payload)) (body : Bytes → State → State) :
    ∃ z, s.running (laneFrame type rx (fun p s => s.updCas (g p)) body) = .next z ∧
      z.cascade = { g rx.payload s.cascade with lane := z.cascade.lane } ∧
      LaneSent (laneTo s rx.dest) type rx.dest rx.origin rx.payload z ∧ LaneTook rx type s z ∧ KeepsBut [.cascade, .out] s z := by
  refine ⟨_, running_next h.1, ?_⟩
  rw [laneFrame_relayed h hvalid hin hdest ht, laneSend_clear (laneTo_lt ..) (laneClear_updCas_took hg hc ..)]
  exact took_updCas_sent hg _ _ _ (laneTo_lt ..) ..

/-- A frame for this module that is answered by one frame to its origin. -/
theorem answered {rx : LaneRx} {s y : State} {type ty n : Nat} {p : Bytes} (hlane : y.cascade.lane = (s.took type rx).cascade.lane)
    (hpos : y.cascade.position = s.cascade.position) (hc : LaneClear (laneTo s rx.origin) ty n s) (hlen : p.length = n) :
    sendTo rx.origin.val ty p y = y.sent (laneTo s rx.origin) ty rx.origin s.cascade.position p := by
  have hto : laneTo y rx.origin = laneTo s rx.origin := laneTo_of_cascade hpos _
  have hc' : LaneClear (laneTo s rx.origin) ty p.length y :=
    laneClear_of (laneClear_took (hlen ▸ hc) type rx) (laneOf_of_cascade hlane _)
  rw [← hto] at hc'
  rw [sendTo_clear hc', hto, hpos]

theorem updCas_id (s : State) : (s.updCas fun c => c) = s := rfl

/-- A frame accepted, a frame sent. -/
theorem took_sent (type : Nat) (rx : LaneRx) (s : State) {l : Nat} (hl : l < 2) (ty dest origin : Nat) (p : Bytes) :
    ((s.took type rx).sent l ty dest origin p).cascade =
        { s.cascade with lane := ((s.took type rx).sent l ty dest origin p).cascade.lane } ∧
      LaneSent l ty dest origin p ((s.took type rx).sent l ty dest origin p) ∧
      LaneTook rx type s ((s.took type rx).sent l ty dest origin p) ∧
      KeepsBut [.cascade, .out] s ((s.took type rx).sent l ty dest origin p) := by
  have h := took_updCas_sent offLanes_id type rx s hl ty dest origin p
  rwa [updCas_id] at h

/-! ### Leases (R910) -/

/-- The acting Ridge grants the next lease above every number seen. -/
theorem leaseReq_granted {rx : LaneRx} {n : Nat} {s : State} (h : LaneHeard rx s) (hh : ForHere rx s) (ha : actsAsRidge s = true)
    (hn : n = max s.cascade.leaseSeen (rd rx.payload 0 6) + 1) (hc : LaneClear (laneTo s rx.origin) 0x07 8 s) :
    ∃ z, exec (.leaseReq rx) s = .next z ∧
      z.cascade = { s.cascade with lane := z.cascade.lane, leaseSeen := n } ∧
      LaneSent (laneTo s rx.origin) 0x07 rx.origin s.cascade.position (leBytes 6 n ++ zeros 2) z ∧
      LaneTook rx 0x06 s z ∧ KeepsBut [.cascade, .out] s z := by
  have hg : OffLanes fun c => { c with leaseSeen := n } := fun _ _ => rfl
  have hact : actsAsRidge ((s.took 0x06 rx).updCas fun c => { c with leaseSeen := max c.leaseSeen (rd rx.payload 0 6) }) = true := ha
  refine ⟨_, (running_next h.1).trans (congrArg _ ?_), took_updCas_sent hg 0x06 rx s (laneTo_lt ..) ..⟩
  have hlane := hg.lane (s.took 0x06 rx).cascade
  rw [laneFrame_here h hh rfl,
    ← answered (y := (s.took 0x06 rx).updCas fun c => { c with leaseSeen := n }) (type := 0x06) hlane rfl hc (by simp)]
  simp only [hact, Bool.not_true, Bool.false_eq_true, if_false]
  subst hn
  rfl

/-- A lease granted to this module is current when none is, else it follows the current one. -/
theorem leaseGrant_taken {rx : LaneRx} {n : Nat} {s : State} (h : LaneHeard rx s) (hh : ForHere rx s)
    (hn : n = rd rx.payload 0 6) :
    ∃ z, exec (.leaseGrant rx) s = .next z ∧
      z.cascade =
        { s.cascade with
            lane := z.cascade.lane, leaseSeen := max s.cascade.leaseSeen n
            lease := if s.cascade.lease.isNone then some (n, 0) else s.cascade.lease
            leaseNext := if s.cascade.lease.isNone then s.cascade.leaseNext else some n
            leaseWanted := false } ∧
      LaneTook rx 0x07 s z ∧ (∀ l : Fin 2, l.val ≠ rx.lane.val → z.laneOf l = s.laneOf l) ∧ KeepsBut [.cascade, .out] s z := by
  have hg : OffLanes fun c =>
      { c with
          leaseSeen := max c.leaseSeen n
          lease := if c.lease.isNone then some (n, 0) else c.lease
          leaseNext := if c.lease.isNone then c.leaseNext else some n
          leaseWanted := false } := fun _ _ => rfl
  refine ⟨_, (running_next h.1).trans (congrArg _ ?_), cascade_updCas_took hg 0x07 rx s, laneTook_updCas hg 0x07 rx s, fun l hl => ?_,
    keepsBut_trans (keepsBut_took ..) (keepsBut_updCas ..)⟩
  · rw [laneFrame_here h hh rfl, ← hn]
    cases hl : s.cascade.lease <;> simp [takeLease, State.updCas, State.took, State.updLane, State.emit, hl]
  · rw [laneOf_updCas hg, laneOf_took_ne hl]

/-! ### Forwarded requests (R905) -/

/-- A response of `n` payload bytes with its tenant takes 20 more (Table TEN.7). -/
theorem length_rspBytes (t : Nat) (r : Rsp) : (leBytes 1 t ++ zeros 3 ++ r.bytes).length = 20 + r.payload.length := by
  simp [Rsp.bytes]
  omega

/-- The row of a forwarded request that this module executes. -/
theorem mboxReq_next {rx : LaneRx} {s : State} (h : LaneHeard rx s) (hh : ForHere rx s) :
    exec (.mboxReq rx) s = .next (onMboxReq rx.origin.val rx.payload (s.took 0x10 rx)) :=
  (running_next h.1).trans (congrArg _ (laneFrame_here h hh rfl ..))

/-- A request let in by FORWARD_MASK and answered at once is executed here, and its response returns. -/
theorem mboxReq_served {rx : LaneRx} {t : Nat} {a : Nat × Option Nat × Bytes} {s : State} (h : LaneHeard rx s) (hh : ForHere rx s)
    (ht : t = byteAt rx.payload 0) (h8 : t < 8) (hmask : s.cascade.forwardMask.testBit t = true)
    (ha : (mboxServed rx s).1 = some a) (hpos : (mboxServed rx s).2.cascade.position = s.cascade.position)
    (hc : LaneClear (laneTo s rx.origin) 0x11 (20 + a.2.2.length) (mboxServed rx s).2) :
    exec (.mboxReq rx) s = .next ((mboxServed rx s).2.sent (laneTo s rx.origin) 0x11 rx.origin s.cascade.position
      (leBytes 1 t ++ zeros 3 ++ Rsp.bytes
        { op := rd (rx.payload.drop 4) 0 2, seq := rd (rx.payload.drop 4) 2 2, status := a.1, tokenValid := a.2.1.isSome
          forwarded := true, pos := s.cascade.position, token := a.2.1.getD 0, payload := a.2.2 })) := by
  have hserved : mboxServed rx s = executeReq (reqOf (rx.payload.drop 4) t (some rx.origin.val)) (s.took 0x10 rx) := by
    rw [mboxServed, laneAccept_heard h, ← ht]
  have hmask' : (s.took 0x10 rx).cascade.forwardMask.testBit t = true := hmask
  rw [mboxReq_next h hh, onMboxReq, ← ht]
  simp only [hmask', if_true, ← hserved, if_neg (show ¬ 7 < t by omega), ha]
  generalize (mboxServed rx s).2 = y at *
  have hto : laneTo y rx.origin = laneTo s rx.origin := laneTo_of_cascade hpos _
  rw [← hto] at hc ⊢
  rw [sendTo_clear (by rw [length_rspBytes]; exact hc), hpos]
  simp only [localRsp, reqOf, hpos]

/-- A request of a tenant outside FORWARD_MASK is answered NOT_PERMITTED. -/
theorem mboxReq_refused {rx : LaneRx} {t : Nat} {s : State} (h : LaneHeard rx s) (hh : ForHere rx s)
    (ht : t = byteAt rx.payload 0) (h8 : t < 8) (hmask : s.cascade.forwardMask.testBit t = false)
    (hc : LaneClear (laneTo s rx.origin) 0x11 20 s) :
    exec (.mboxReq rx) s = .next ((s.took 0x10 rx).sent (laneTo s rx.origin) 0x11 rx.origin s.cascade.position
      (leBytes 1 t ++ zeros 3 ++ Rsp.bytes
        { op := rd (rx.payload.drop 4) 0 2, seq := rd (rx.payload.drop 4) 2 2, status := St.notPermitted, forwarded := true
          pos := s.cascade.position })) := by
  have hmask' : (s.took 0x10 rx).cascade.forwardMask.testBit t = false := hmask
  rw [mboxReq_next h hh, onMboxReq, ← ht]
  simp only [hmask', Bool.false_eq_true, if_false, if_neg (show ¬ 7 < t by omega)]
  rw [answered (type := 0x10) rfl rfl hc (length_rspBytes ..)]
  rfl

end Sys2Proof.Machine
end

section
/-! ## Forwarded responses, completions and records (R904 to R906, R916, R917, R938) -/
namespace Sys2Proof.Machine
open Sys2Proof

/-! ### A raise of a source looks at no lane -/

/-- The state with the cascade and what leaves the device put at their defaults. -/
def State.besidesLanes (s : State) : State := { s with cascade := State.reset.cascade, out := [] }

theorem ite_besidesLanes (c : Prop) [Decidable c] (a b : State) :
    (if c then a else b).besidesLanes = if c then a.besidesLanes else b.besidesLanes := apply_ite ..

theorem goPending_besidesLanes (t src : Nat) (s : State) :
    (goPending t src s).besidesLanes = (goPending t src s.besidesLanes).besidesLanes := by
  simp only [goPending, ite_besidesLanes]
  rfl

theorem raiseView_besidesLanes (t src : Nat) (s : State) :
    (raiseView t src s).besidesLanes = (raiseView t src s.besidesLanes).besidesLanes := by
  simp only [raiseView, ite_besidesLanes]
  rw [goPending_besidesLanes]
  conv_rhs => rw [goPending_besidesLanes]
  rfl

theorem foldl_raiseView_besidesLanes (src : Nat) (l : List Nat) (s : State) :
    (l.foldl (fun s t => raiseView t src s) s).besidesLanes =
      (l.foldl (fun s t => raiseView t src s) s.besidesLanes).besidesLanes := by
  induction l generalizing s with
  | nil => rfl
  | cons t l ih => rw [List.foldl_cons, List.foldl_cons, ih, raiseView_besidesLanes, ← ih]

theorem raiseSrc_besidesLanes (src : Nat) (s : State) :
    (raiseSrc src s).besidesLanes = (raiseSrc src s.besidesLanes).besidesLanes := by
  simp only [raiseSrc, ite_besidesLanes]
  rw [foldl_raiseView_besidesLanes]
  rfl

/-- A raise does to the views what it does on other lanes. -/
theorem raiseSrc_views_of_besidesLanes {s z : State} (h : z.besidesLanes = s.besidesLanes) (src : Nat) :
    (raiseSrc src z).views = (raiseSrc src s).views := by
  have hz := raiseSrc_besidesLanes src z
  rw [h, ← raiseSrc_besidesLanes] at hz
  exact (congrArg State.views hz :)

/-! ### What leaves the device stays in the log -/

theorem mem_produce_out {n : Nat} {d : Bytes} {s : State} {o : Out} (h : o ∈ s.out) : o ∈ (produce n d s).out := by
  obtain ⟨z, rfl, hz | hz⟩ := produce_eq n d s
  · rw [hz]; exact h
  · rw [hz]; exact mem_raiseSrc_out h

theorem mem_enterRecord_out {x : Record} {s : State} {o : Out} (h : o ∈ s.out) : o ∈ (enterRecord x s).out := by
  unfold enterRecord
  dsimp only
  split
  · exact h
  · split
    · exact h
    · split
      · split
        · exact mem_raiseSrc_out h
        · exact h
      · split
        · exact mem_raiseSrc_out h
        · exact h

theorem mem_recorderWatch_out {s : State} {o : Out} (h : o ∈ s.out) : o ∈ (recorderWatch s).out := by
  have hhigh : o ∈ (if s.recorder.highNow && !s.recorder.high then raiseSrc 112 s else s).out := by
    split
    · exact mem_raiseSrc_out h
    · exact h
  unfold recorderWatch
  dsimp only
  generalize (if s.recorder.highNow && !s.recorder.high then raiseSrc 112 s else s) = y at hhigh ⊢
  split
  · exact mem_enterRecord_out (mem_raiseSrc_out hhigh)
  · exact hhigh

theorem mem_record_out {x : Record} {s : State} {o : Out} (h : o ∈ s.out) : o ∈ (record x s).out := by
  unfold record
  split
  · exact h
  · split
    · exact h
    · exact mem_recorderWatch_out (mem_enterRecord_out h)

/-! ### Responses and completions (R906) -/

/-- A response to the request that the mailbox waits for is written there; on ACCEPTED the EVENT slot is kept (R906). -/
theorem mboxRsp_written {rx : LaneRx} {t : Fin 8} {o : Outstanding} {r : Rsp} {s : State} (h : LaneHeard rx s)
    (hh : ForHere rx s) (ht : byteAt rx.payload 0 = t) (hr : r = rspOf (rx.payload.drop 4))
    (ho : (s.ten t).outstanding = some o) (hm : o.op = r.op ∧ o.seq = r.seq ∧ o.target = rx.origin) :
    ∃ z, exec (.mboxRsp rx) s = .next z ∧
      z.ten t =
        { s.ten t with
            rsp := some r, rspReady := true, busy := false, lastSeq := r.seq, requests := inc32 (s.ten t).requests
            outstanding := none, awaiting := (s.ten t).awaiting + b2n (r.status == St.accepted && o.asyncOk) } ∧
      (∀ k : Fin 8, k ≠ t → z.ten k = s.ten k) ∧ z.views = (raiseSrc (32 + t.val) s).views ∧
      z.cascade = { s.cascade with lane := z.cascade.lane } ∧ LaneTook rx 0x11 s z ∧
      (∀ l : Fin 2, l.val ≠ rx.lane.val → z.laneOf l = s.laneOf l) ∧ KeepsBut [.tenants, .views, .cascade, .out] s z := by
  have hrow : exec (.mboxRsp rx) s = .next ((respond t r (s.took 0x11 rx)).updTen t fun x =>
      { x with awaiting := x.awaiting + b2n (r.status == St.accepted && o.asyncOk) }) := by
    refine (running_next h.1).trans (congrArg _ ((laneFrame_here h hh rfl ..).trans ?_))
    have ho' : ((s.took 0x11 rx).ten t).outstanding = some o := ho
    subst hr
    simp only [onMboxRsp, ht, ho', if_pos hm]
  have hcas : ((respond t r (s.took 0x11 rx)).updTen t fun x =>
      { x with awaiting := x.awaiting + b2n (r.status == St.accepted && o.asyncOk) }).cascade = (s.took 0x11 rx).cascade :=
    respond_cascade ..
  have hlane (l : Nat) := laneOf_of_cascade (congrArg Cascade.lane hcas) l
  refine ⟨_, hrow, ?_, fun k hk => ?_, ?_, ?_, laneTook_of (laneTook_took ..) (hlane _) fun o ho => mem_respond_out ho,
    fun l hl => (hlane l).trans (laneOf_took_ne hl ..), ?_⟩
  · rw [ten_updTen, if_pos rfl, respond_ten _ _ _ t.isLt]
    rfl
  · rw [ten_updTen, if_neg hk, respond_ten_ne _ _ _ _ fun e => hk (Fin.ext e.symm)]
    rfl
  · exact (rang_respond t r (s.took 0x11 rx)).1.trans (raiseSrc_views_of_besidesLanes (s := s) (z := s.took 0x11 rx) rfl _)
  · rw [hcas, ← cascade_took]
  · have hend (y : State) (f : Tenant → Tenant) : KeepsBut [.tenants, .views, .out] y ((respond t r y).updTen t f) := by
      simp [KeepsBut]
    exact keepsBut_trans (keepsBut_mono (by decide) (keepsBut_took ..)) (keepsBut_mono (by decide) (hend ..))

/-- A completion that a tenant awaits is posted in its EVENT ring, ORIGIN naming the module it came from (R906). -/
theorem mboxEvent_posted {rx : LaneRx} {t : Fin 8} {n : Nat} {s : State} (h : LaneHeard rx s) (hh : ForHere rx s)
    (ht : byteAt rx.payload 18 = t) (hw : (s.ten t).awaiting ≠ 0) (hr : eventRing s t = some n) (hl : (s.ring n).lost = 0) :
    ∃ z, exec (.mboxEvent rx) s = .next z ∧
      EventPosted n (fit 31 (rx.payload.take 19 ++ leBytes 1 (rx.origin + 128) ++ rx.payload.drop 20)) s z ∧
      z.ten t = { s.ten t with awaiting := (s.ten t).awaiting - 1 } ∧ (∀ k : Fin 8, k ≠ t → z.ten k = s.ten k) ∧
      z.cascade = { s.cascade with lane := z.cascade.lane } ∧ LaneTook rx 0x12 s z ∧
      KeepsBut [.tenants, .loft, .rings, .cascade, .views, .out] s z := by
  generalize hd : fit 31 (rx.payload.take 19 ++ leBytes 1 (rx.origin + 128) ++ rx.payload.drop 20) = d
  have hlen : d.length = 31 := by rw [← hd]; exact length_fit ..
  generalize hy : (s.took 0x12 rx).updTen t (fun x => { x with awaiting := x.awaiting - 1 }) = y
  have hrings : y.rings = s.rings := by rw [← hy]; rfl
  have hrow : exec (.mboxEvent rx) s = .next (produce n d y) := by
    refine (running_next h.1).trans (congrArg _ ((laneFrame_here h hh rfl ..).trans ?_))
    have hw' : ¬ ((s.took 0x12 rx).ten t).awaiting = 0 := hw
    simp only [onMboxEvent, ht, if_neg hw', hd, hy]
    exact postCompletion_eq ((eventRing_of_rings hrings _).trans hr) (by rw [ring_of_rings hrings]; exact hl) d
  have hten : (produce n d y).tenants = y.tenants := (congrArg State.tenants (produce_besidesProduction n d y) :)
  have hcas : (produce n d y).cascade = (s.took 0x12 rx).cascade :=
    (congrArg State.cascade (produce_besidesProduction n d y) :).trans (by rw [← hy]; rfl)
  have hframe := keepsBut_of_besidesProduction (produce_besidesProduction n d y)
  have hread := loftRead_produce (n := n) hlen y
  have htail := tail_produce (eventRing_lt hr) d y
  have hlog (o : Out) (ho : o ∈ y.out) : o ∈ (produce n d y).out := mem_produce_out ho
  generalize produce n d y = z at *
  rw [State.slot, ring_of_rings hrings] at hread
  rw [ring_of_rings hrings] at htail
  refine ⟨z, hrow, ⟨hread, htail⟩, ?_, fun k hk => ?_, ?_, ?_, ?_⟩
  · rw [ten_of_tenants hten, ← hy, ten_updTen, if_pos rfl]
    rfl
  · rw [ten_of_tenants hten, ← hy, ten_updTen, if_neg hk]
    rfl
  · rw [hcas, ← cascade_took]
  · exact laneTook_of (laneTook_took ..) (laneOf_of_cascade (congrArg Cascade.lane hcas) _) fun o ho => hlog o (hy ▸ ho)
  · have hyk : KeepsBut [.tenants] (s.took 0x12 rx) y := by rw [← hy]; simp [KeepsBut]
    exact keepsBut_trans (keepsBut_mono (by decide) (keepsBut_took ..)) <|
      keepsBut_trans (keepsBut_mono (by decide) hyk) (keepsBut_mono (by decide) hframe)

/-! ### Records (R916, R917, R938) -/

/-- A record as it stands in staging once the recorder has taken it (R824, R827). -/
theorem staged_mem_record {s : State} (hp : s.powered = true) (hc : s.campel = true) (h : CanRecord s) (x : Record) :
    (syncChron s).recorder.staged x ∈ (record x s).recorder.staging := by
  have hz : record x s = recorderWatch (enterRecord x (syncChron s)) := by simp [record, hp, hc]
  rw [hz]
  refine mem_staging_recorderWatch ?_
  rw [staging_enterRecord_of_canRecord (s := syncChron s) h]
  exact List.mem_append_right _ (List.mem_singleton.2 rfl)

/-- The flags of a forwarded record: FORWARDED, ORIGIN, and its own below, whether or not it is marked unchronicled. -/
theorem forwardedFlags (f o : Nat) (b : Bool) :
    (f % 64 + 64 + 128 * o ||| if b then 0 else 32) / 64 = 1 + 2 * o ∧
      (f % 64 + 64 + 128 * o ||| if b then 0 else 32) % 32 = f % 32 := by
  generalize hm : (if b then 0 else 32) = m
  have hm5 : m / 2 ^ 6 = 0 ∧ m % 2 ^ 5 = 0 := by
    cases b <;> subst hm <;> decide
  have hdiv : (f % 64 + 64 + 128 * o ||| m) / 2 ^ 6 = (f % 64 + 64 + 128 * o) / 2 ^ 6 ||| m / 2 ^ 6 := Nat.or_div_two_pow
  have hmod : (f % 64 + 64 + 128 * o ||| m) % 2 ^ 5 = (f % 64 + 64 + 128 * o) % 2 ^ 5 ||| m % 2 ^ 5 := Nat.or_mod_two_pow
  rw [hm5.1, Nat.or_zero] at hdiv
  rw [hm5.2, Nat.or_zero] at hmod
  omega

theorem keepsBut_record {s : State} (hc : s.campel = true) (x : Record) : KeepsBut [.recorder, .views, .out] s (record x s) := by
  have hboot : (record x s).boot = s.boot := record_boot_of_campel hc x
  simp [KeepsBut, hboot]

/-- The row of a forwarded record at the acting Ridge (R917). -/
theorem record_next {rx : LaneRx} {s : State} (h : LaneHeard rx s) (hh : ForHere rx s) (ha : actsAsRidge s = true) :
    exec (.record rx) s = .next (record
      { rdRecord rx.payload with flags := (rdRecord rx.payload).flags % 64 + 64 + 128 * rx.origin.val } (s.took 0x20 rx)) := by
  have ha' : actsAsRidge (s.took 0x20 rx) = true := ha
  refine (running_next h.1).trans (congrArg _ ((laneFrame_here h hh rfl ..).trans ?_))
  simp only [ha', Bool.not_true, Bool.false_eq_true, if_false]

/-- What a record made behind an accepted frame leaves of the lanes. -/
theorem record_took (x : Record) (rx : LaneRx) (s : State) :
    (record x (s.took 0x20 rx)).cascade = { s.cascade with lane := (record x (s.took 0x20 rx)).cascade.lane } ∧
      LaneTook rx 0x20 s (record x (s.took 0x20 rx)) ∧
      (∀ l : Fin 2, l.val ≠ rx.lane.val → (record x (s.took 0x20 rx)).laneOf l = s.laneOf l) := by
  have hcas : (record x (s.took 0x20 rx)).cascade = (s.took 0x20 rx).cascade := record_cascade ..
  have hlane (l : Nat) := laneOf_of_cascade (congrArg Cascade.lane hcas) l
  refine ⟨?_, laneTook_of (laneTook_took ..) (hlane _) fun o ho => mem_record_out ho,
    fun l hl => (hlane l).trans (laneOf_took_ne hl ..)⟩
  rw [hcas, ← cascade_took]

/-- The acting Ridge records a forwarded record with FORWARDED and ORIGIN (R917). -/
theorem record_recorded {rx : LaneRx} {x : Record} {s : State} (h : LaneHeard rx s) (hh : ForHere rx s) (hu : Up s)
    (hr : CanRecord s) (ha : actsAsRidge s = true) (hx : x = rdRecord rx.payload) :
    ∃ z, exec (.record rx) s = .next z ∧ Recorded x.code x.severity x.tenant s z ∧
      (z.recorder.staging.any fun y => y.seq == s.recorder.head + 1 && y.time == x.time && y.source == x.source &&
        y.payload == x.payload && y.flags / 64 == 1 + 2 * rx.origin.val && y.flags % 32 == x.flags % 32) = true ∧
      z.cascade = { s.cascade with lane := z.cascade.lane } ∧ LaneTook rx 0x20 s z ∧
      (∀ l : Fin 2, l.val ≠ rx.lane.val → z.laneOf l = s.laneOf l) ∧ KeepsBut [.cascade, .recorder, .views, .out] s z := by
  obtain ⟨hp, hc, -⟩ := hu
  subst hx
  generalize hf : (rdRecord rx.payload).flags % 64 + 64 + 128 * rx.origin.val = f
  have hrow := record_next h hh ha
  rw [hf] at hrow
  obtain ⟨hcas, htook, hother⟩ := record_took { rdRecord rx.payload with flags := f } rx s
  have hin := staged_mem_record (s := s.took 0x20 rx) hp hc hr { rdRecord rx.payload with flags := f }
  refine ⟨_, hrow, recorded_record (s := s.took 0x20 rx) hp hc hr _, List.any_eq_true.2 ⟨_, hin, ?_⟩, hcas, htook, hother, ?_⟩
  · obtain ⟨hdiv, hmod⟩ := forwardedFlags (rdRecord rx.payload).flags rx.origin.val
      (syncChron (s.took 0x20 rx)).recorder.journalTakes
    rw [hf] at hdiv hmod
    have hhead : (syncChron (s.took 0x20 rx)).recorder.head = s.recorder.head := rfl
    simp [Recorder.staged, hhead, hdiv, hmod]
  · exact keepsBut_trans (keepsBut_mono (by decide) (keepsBut_took 0x20 rx s))
      (keepsBut_mono (by decide) (keepsBut_record (s := s.took 0x20 rx) hc _))

/-- The search for a slot reads the retired ones alone. -/
theorem liveSlot_of_retired {r q : Recorder} (h : q.retired = r.retired) (fuel n : Nat) :
    q.liveSlot fuel n = r.liveSlot fuel n := by
  induction fuel generalizing n with
  | zero => rfl
  | succ fuel ih => simp only [Recorder.liveSlot, h, ih]

/-- R844's first condition does not look at the count of records after exhaustion. -/
theorem highNow_afterExhaustion (r : Recorder) (n : Nat) : Recorder.highNow { r with afterExhaustion := n } = r.highNow := by
  have htarget : Recorder.target { r with afterExhaustion := n } = r.target :=
    liveSlot_of_retired (r := r) (q := { r with afterExhaustion := n }) rfl r.retired.length r.nextSlot
  simp only [Recorder.highNow, Recorder.journalTakes, htarget]
  rfl

/-- A recorder that is exhausted and stands as it was last watched only counts a record (R857, R938). -/
theorem record_exhausted {s : State} (hp : s.powered = true) (hc : s.campel = true) (hx : s.recorder.exhausted = true)
    (hs : s.recorder.chronState = chronNow s) (hh : s.recorder.high = s.recorder.highNow) (ht : s.recorder.tight = true)
    (x : Record) : record x s = s.updRec fun r => { r with afterExhaustion := inc32 r.afterExhaustion } := by
  have hsync : syncChron s = s := by
    rw [syncChron, ← hs]
    rfl
  have henter : enterRecord x s = s.updRec fun r => { r with afterExhaustion := inc32 r.afterExhaustion } := if_pos hx
  generalize hy : (s.updRec fun r => { r with afterExhaustion := inc32 r.afterExhaustion }) = y at *
  have hhigh : y.recorder.high = y.recorder.highNow := by
    rw [← hy]
    exact hh.trans (highNow_afterExhaustion ..).symm
  have htight : y.recorder.tight = true := by rw [← hy]; exact ht
  have hsame : (y.updRec fun r => { r with high := r.highNow }) = y := by
    rw [State.updRec, ← hhigh]
  simp [record, hp, hc, hsync, henter, recorderWatch, hsame, htight, ← hhigh]

/-- RECORD_FORWARD sends the next record to the acting Ridge and moves its pointer (R916). -/
theorem recordForward_sent {p : Nat} {x : Record} {s : State} (hp : s.powered = true) (hc : s.campel = true)
    (hr : s.cascade.ridgePos = some p) (hx : nextForward s = some x) (ha : actsAsRidge s = false)
    (hd : s.cascade.acting ≠ .displaced) (hm : s.cascade.fwdMin ≠ 255) (hpres : present s p = true)
    (hl : LaneClear (laneTo s p) 0x20 x.bytes.length s) :
    ∃ z, exec .recordForward s = .next z ∧
      z.cascade = { s.cascade with lane := z.cascade.lane, fwdPtr := x.seq
                                   fwdSkipped := s.cascade.fwdSkipped + skippedBefore s x.seq } ∧
      LaneSent (laneTo s p) 0x20 p s.cascade.position x.bytes z ∧
      (∀ l : Fin 2, l.val ≠ laneTo s p → z.laneOf l = s.laneOf l) ∧ KeepsBut [.cascade, .out] s z := by
  have hg : OffLanes fun c => { c with fwdPtr := x.seq, fwdSkipped := c.fwdSkipped + skippedBefore s x.seq } := fun _ _ => rfl
  generalize hy : (s.updCas fun c => { c with fwdPtr := x.seq, fwdSkipped := c.fwdSkipped + skippedBefore s x.seq }) = y
  have hlane (l : Nat) : y.laneOf l = s.laneOf l := by rw [← hy]; exact laneOf_updCas hg l s
  have hpos : y.cascade.position = s.cascade.position := by rw [← hy]; rfl
  have hto : laneTo y p = laneTo s p := laneTo_of_cascade hpos p
  have hsend : sendTo p 0x20 x.bytes y = y.sent (laneTo s p) 0x20 p s.cascade.position x.bytes := by
    rw [sendTo_clear (by rw [hto]; exact laneClear_of hl (hlane _)), hto, hpos]
  have hrow : exec .recordForward s = .next (y.sent (laneTo s p) 0x20 p s.cascade.position x.bytes) := by
    change execRecordForward s = _
    rw [execRecordForward, running_next hp]
    simp only [hr, hx]
    rw [if_neg (by simp [hc, ha, hd, hm, hpres]), hy, hsend]
  refine ⟨_, hrow, ?_, laneSent_sent (laneTo_lt ..) .., fun l hne => (laneOf_sent_ne hne ..).trans (hlane l), ?_⟩
  · rw [cascade_sent, ← hy]
    rfl
  · exact keepsBut_trans (hy ▸ keepsBut_updCas ..) (keepsBut_sent ..)

end Sys2Proof.Machine
end

section
/-! ## Copies between modules (R131, R907, R908) -/
namespace Sys2Proof.Machine
open Sys2Proof

/-! ### CAS_COPY consumed (R907, R908) -/

theorem copyFields_of {s z : State} (hl : z.loft = s.loft) (hc : z.cascade = s.cascade) (t : Nat) (d : Bytes) :
    copyFields z t d = copyFields s t d := by
  simp only [copyFields, usable_of_loft hl, hc]

theorem present_of_cascade {s z : State} (h : z.cascade = s.cascade) (pos : Nat) : present z pos = present s pos := by
  simp only [present, laneTo, State.laneOf, h]

/-- A consumable CAS_COPY descriptor is run behind the passing of HEAD. -/
theorem casCopy_next {n p : Nat} {d : Bytes} {s : State} (hn : n < 32) (h : Consumable n p d s) (h30 : byteAt d 0 = 0x30) :
    exec (.casCopy ⟨n, hn⟩) s = .next (copyRun n (s.ring n).owner d (advanceHead n s)) := by
  obtain ⟨hp, -, -, -, hsafe, -⟩ := id h
  have hsup : (advanceHead n s).supply = s.supply := (congrArg State.supply (advanceHead_besidesProduction n s) :)
  have hrun : runClass n (s.ring n).owner d (advanceHead n s) = copyRun n (s.ring n).owner d (advanceHead n s) := by
    simp only [runClass, h30, hsup]
    rw [if_neg fun hm => hm.2.1 (hsafe hm.1)]
    rfl
  refine (running_next hp).trans (congrArg _ ?_)
  rw [consume_eq h (by simp [h30]), hrun]

/-- A CAS_COPY that cannot run completes at once, and nothing leaves on a lane. -/
theorem casCopy_completed {n p : Nat} {d : Bytes} {s : State} (hn : n < 32) (h : Consumable n p d s) (h30 : byteAt d 0 = 0x30)
    {st : Nat} (hrun : copyRun n (s.ring n).owner d (advanceHead n s) =
      completeSub n 0x30 st (rd d 2 2) 0 0 [] (advanceHead n s)) :
    ∃ z, exec (.casCopy ⟨n, hn⟩) s = .next z ∧ Completed p (completeDesc 0x30 st (rd d 2 2) 0 0 [] s.timebase.now) s z ∧
      (z.ring n).head = ((s.ring n).head + 1) % 2 ^ 32 ∧ z.cascade = s.cascade ∧ KeepsBut [.rings, .loft, .views, .out] s z := by
  obtain ⟨hdone, hhead, -, -, hframe⟩ := completeSub_consumed h 0x30 st (rd d 2 2)
  rw [← hrun] at hdone hhead hframe
  exact ⟨_, casCopy_next hn h h30, hdone, hhead, (congrArg State.cascade hframe :), keepsBut_of_besidesProduction hframe⟩

/-- Behind HEAD the module sees the fields and the chain as before. -/
theorem advanceHead_chain (n : Nat) (s : State) :
    (advanceHead n s).loft = s.loft ∧ (advanceHead n s).cascade = s.cascade ∧ (advanceHead n s).subs = s.subs :=
  ⟨advanceHead_loft n s, (congrArg State.cascade (advanceHead_besidesProduction n s) :),
    (congrArg State.subs (advanceHead_besidesProduction n s) :)⟩

/-- A pin leaves everything but tags of the Loft. -/
theorem keepsBut_pin (i : Nat) (s : State) : KeepsBut [.loft] s (pin i s) := by
  unfold pin
  split
  · simp [KeepsBut]
  · exact keepsBut_refl ..

theorem pin_cascade (i : Nat) (s : State) : (pin i s).cascade = s.cascade :=
  (congrArg State.cascade (pin_besidesYealms i s) :)

/-- The copy tag that the next CAS_COPY takes. -/
def nextCopyTag (s : State) : Nat := if s.cascade.copyTag = 0x7FFF then 1 else s.cascade.copyTag + 1

/-- The submission that a consumed CAS_COPY descriptor puts in flight. -/
def copySub (n : Nat) (d : Bytes) (s : State) : Sub :=
  { ring := n, tenant := (s.ring n).owner, cls := 0x30, tag := rd d 2 2, desc := d, ctag := nextCopyTag s }

/-- A CAS_COPY to a module that is present pins its yealm, is in flight, and leaves as a COPY frame (R907, R908). -/
theorem casCopy_sent {n p a l : Nat} {d data : Bytes} {s : State} (hn : n < 32) (h : Consumable n p d s)
    (h30 : byteAt d 0 = 0x30) (hf : copyFields s (s.ring n).owner d = true) (hpres : present s (byteAt d 4) = true)
    (ha : a = yAddr (hIndex (rd d 8 4)) (rd d 16 2)) (hgood : byteAt d 1 = 0 → s.loft.poisoned a (rd d 6 2) = false)
    (hdata : data = if byteAt d 1 = 0 then loftRead s a (rd d 6 2) else []) (hl : l = laneTo s (byteAt d 4))
    (hc : LaneClear l 0x30 (copyBody (nextCopyTag s) d ++ data).length s) :
    ∃ z, exec (.casCopy ⟨n, hn⟩) s = .next z ∧ z.subs = s.subs ++ [copySub n d s] ∧
      z.cascade = { s.cascade with lane := z.cascade.lane, copyTag := nextCopyTag s } ∧
      LaneSent l 0x30 (byteAt d 4) s.cascade.position (copyBody (nextCopyTag s) d ++ data) z ∧
      (z.loft.tag (hIndex (rd d 8 4))).pins = (s.loft.tag (hIndex (rd d 8 4))).pins + 1 ∧
      (z.ring n).head = ((s.ring n).head + 1) % 2 ^ 32 ∧ z.loft.mem = s.loft.mem ∧
      KeepsBut [.rings, .loft, .subs, .cascade, .views, .out] s z := by
  obtain ⟨hloft, hcas, hsubs⟩ := advanceHead_chain n s
  obtain ⟨hhead, -⟩ := ring_advanceHead hn s
  have hframe := keepsBut_of_besidesProduction (advanceHead_besidesProduction n s)
  have hrow := casCopy_next hn h h30
  have hpool : poolIndex (hIndex (rd d 8 4)) = true := by
    simp only [copyFields, Bool.and_eq_true] at hf
    exact poolIndex_of_usable hf.2
  generalize advanceHead n s = y at *
  have hct : nextCopyTag y = nextCopyTag s := by rw [nextCopyTag, nextCopyTag, hcas]
  generalize hw : pin (hIndex (rd d 8 4)) { y.updCas fun c => { c with copyTag := nextCopyTag s } with
    subs := y.subs ++ [copySub n d s] } = w
  have hwpin : KeepsBut [.loft] { y.updCas fun c => { c with copyTag := nextCopyTag s } with subs := y.subs ++ [copySub n d s] } w :=
    hw ▸ keepsBut_pin ..
  have hwmem := pin_besidesYealms (hIndex (rd d 8 4)) { y.updCas fun c => { c with copyTag := nextCopyTag s } with
    subs := y.subs ++ [copySub n d s] }
  have htag := tag_pin hpool { y.updCas fun c => { c with copyTag := nextCopyTag s } with subs := y.subs ++ [copySub n d s] }
  rw [hw] at hwmem htag
  have hwcas : w.cascade = { s.cascade with copyTag := nextCopyTag s } :=
    (congrArg State.cascade hwmem :).trans (by rw [← hcas]; rfl)
  have hlane (k : Nat) : w.laneOf k = s.laneOf k := laneOf_of_cascade (congrArg Cascade.lane hwcas :) k
  have hpos : w.cascade.position = s.cascade.position := (congrArg Cascade.position hwcas :)
  have hto : laneTo w (byteAt d 4) = l := hl ▸ laneTo_of_cascade hpos _
  have hread : loftRead y a (rd d 6 2) = loftRead s a (rd d 6 2) := loftRead_of_mem (by rw [hloft]) ..
  have hrun : copyRun n (s.ring n).owner d y = w.sent l 0x30 (byteAt d 4) s.cascade.position (copyBody (nextCopyTag s) d ++ data) := by
    have hpoison : ¬ (byteAt d 1 = 0 ∧ y.loft.poisoned a (rd d 6 2) = true) := by
      rintro ⟨h0, hp⟩
      rw [hloft, hgood h0] at hp
      cases hp
    have hsend := sendTo_clear (s := w) (pos := byteAt d 4) (type := 0x30) (p := copyBody (nextCopyTag s) d ++ data)
      (by rw [hto]; exact laneClear_of hc (hlane _))
    rw [hto, hpos] at hsend
    rw [← hsend, copyRun]
    simp only [copyFields_of hloft hcas, hf, present_of_cascade hcas, hpres, Bool.not_true, Bool.false_eq_true, if_false, ← ha,
      if_neg hpoison, hread, ← hdata]
    rw [← hw, ← hct]
    simp only [copySub, hct]
    rw [← hct]
    rfl
  rw [hrun] at hrow
  refine ⟨_, hrow, ?_, ?_, laneSent_sent (hl ▸ laneTo_lt ..) .., ?_, ?_, ?_, ?_⟩
  · exact (congrArg State.subs hwmem :).trans (congrArg (· ++ [copySub n d s]) hsubs)
  · rw [cascade_sent, hwcas]
  · exact (congrArg Tag.pins htag).trans (by rw [← hloft]; rfl)
  · exact (congrArg Ring.head (ring_of_rings (congrArg State.rings hwmem :) n)).trans hhead
  · exact (congrArg (fun x : State => x.loft.mem) hwmem :).trans (by rw [← hloft]; rfl)
  · have hupd : KeepsBut [.cascade, .subs] y { y.updCas fun c => { c with copyTag := nextCopyTag s } with
        subs := y.subs ++ [copySub n d s] } := by simp [KeepsBut]
    exact keepsBut_trans (keepsBut_mono (by decide) hframe) <| keepsBut_trans (keepsBut_mono (by decide) hupd) <|
      keepsBut_trans (keepsBut_mono (by decide) hwpin) (keepsBut_mono (by decide) (keepsBut_sent ..))

/-! ### COPY at its destination (R908) -/

/-- The row of a COPY frame for this module. -/
theorem copy_next {rx : LaneRx} {s : State} (h : LaneHeard rx s) (hh : ForHere rx s) :
    exec (.copy rx) s = .next (onCopy rx.origin.val rx.payload (s.took 0x30 rx)) :=
  (running_next h.1).trans (congrArg _ (laneFrame_here h hh rfl ..))

theorem length_ackBody (tag st : Nat) : (leBytes 2 tag ++ leBytes 1 st ++ zeros 1).length = 4 := by simp

/-- A COPY of a tenant outside FORWARD_MASK is answered NOT_PERMITTED (R905). -/
theorem copy_refused {rx : LaneRx} {tag : Nat} {s : State} (h : LaneHeard rx s) (hh : ForHere rx s)
    (ht : tag = rd rx.payload 0 2) (hlt : tag < 0x8000)
    (hmask : s.cascade.forwardMask.testBit (hOwner (rd rx.payload 8 4)) = false) (hc : LaneClear (laneTo s rx.origin) 0x31 4 s) :
    exec (.copy rx) s = .next ((s.took 0x30 rx).sent (laneTo s rx.origin) 0x31 rx.origin s.cascade.position
      (leBytes 2 tag ++ leBytes 1 St.notPermitted ++ zeros 1)) := by
  subst ht
  have hmask' : (s.took 0x30 rx).cascade.forwardMask.testBit (hOwner (rd rx.payload 8 4)) = false := hmask
  rw [copy_next h hh, onCopy]
  simp only [if_pos hlt, serveCopy, hmask', Bool.not_false, if_true]
  exact congrArg _ (answered (type := 0x30) rfl rfl hc (length_ackBody ..))

/-- The fields of a COPY that names a yealm its owner may use, within it, pass. -/
theorem copy_fits {rx : LaneRx} {s : State} (ho : hOwner (rd rx.payload 4 4) = hOwner (rd rx.payload 8 4))
    (hu : usable s (hOwner (rd rx.payload 8 4)) (rd rx.payload 8 4) = true)
    (hb : rd rx.payload 14 2 + rd rx.payload 2 2 ≤ 4096) :
    ¬ (hOwner (rd rx.payload 4 4) ≠ hOwner (rd rx.payload 8 4) ∨
      (!usable (s.took 0x30 rx) (hOwner (rd rx.payload 8 4)) (rd rx.payload 8 4)) = true ∨
      4096 < rd rx.payload 14 2 + rd rx.payload 2 2) := by
  rw [usable_of_loft (s := s) (z := s.took 0x30 rx) rfl, hu]
  simp [ho]
  omega

/-- A COPY with data for a yealm that its owner may use writes them and is acknowledged. -/
theorem copy_written {rx : LaneRx} {tag r a len : Nat} {s : State} (h : LaneHeard rx s) (hh : ForHere rx s)
    (ht : tag = rd rx.payload 0 2) (hlt : tag < 0x8000) (hr : r = rd rx.payload 8 4)
    (ha : a = yAddr (hIndex r) (rd rx.payload 14 2)) (hlen : len = rd rx.payload 2 2)
    (hmask : s.cascade.forwardMask.testBit (hOwner r) = true) (ho : hOwner (rd rx.payload 4 4) = hOwner r)
    (hu : usable s (hOwner r) r = true) (hb : rd rx.payload 14 2 + len ≤ 4096) (hd : rx.payload.drop 16 ≠ [])
    (hc : LaneClear (laneTo s rx.origin) 0x31 4 s) :
    exec (.copy rx) s = .next ((loftWrite a ((rx.payload.drop 16).take len) (s.took 0x30 rx)).sent (laneTo s rx.origin) 0x31
      rx.origin s.cascade.position (leBytes 2 tag ++ leBytes 1 St.ok ++ zeros 1)) := by
  subst ht hr ha hlen
  have hmask' : (s.took 0x30 rx).cascade.forwardMask.testBit (hOwner (rd rx.payload 8 4)) = true := hmask
  have hfit := copy_fits ho hu hb
  have hdata : (!(rx.payload.drop 16).isEmpty) = true := by simpa using hd
  rw [copy_next h hh, onCopy]
  simp only [if_pos hlt, serveCopy, hmask', Bool.not_true, Bool.false_eq_true, if_false, if_neg hfit, hdata, if_true]
  exact congrArg _ (answered (type := 0x30) rfl rfl hc (length_ackBody ..))

/-- A COPY without data, for a yealm that its owner may use, pins it and is answered with its bytes. -/
theorem copy_asked {rx : LaneRx} {tag r a len : Nat} {s : State} (h : LaneHeard rx s) (hh : ForHere rx s)
    (ht : tag = rd rx.payload 0 2) (hlt : tag < 0x8000) (hr : r = rd rx.payload 8 4)
    (ha : a = yAddr (hIndex r) (rd rx.payload 14 2)) (hlen : len = rd rx.payload 2 2)
    (hmask : s.cascade.forwardMask.testBit (hOwner r) = true) (ho : hOwner (rd rx.payload 4 4) = hOwner r)
    (hu : usable s (hOwner r) r = true) (hb : rd rx.payload 14 2 + len ≤ 4096) (hd : rx.payload.length = 16)
    (hgood : s.loft.poisoned a len = false) (hc : LaneClear (laneTo s rx.origin) 0x30 (16 + len) s) :
    exec (.copy rx) s = .next ((pin (hIndex r) ((s.took 0x30 rx).updCas fun c =>
        { c with serving := c.serving ++ [(rx.origin.val, tag, hIndex r)] })).sent (laneTo s rx.origin) 0x30 rx.origin
      s.cascade.position (leBytes 2 (tag + 0x8000) ++ slice rx.payload 2 14 ++ loftRead s a len)) := by
  subst ht hr ha hlen
  have hmask' : (s.took 0x30 rx).cascade.forwardMask.testBit (hOwner (rd rx.payload 8 4)) = true := hmask
  have hfit := copy_fits ho hu hb
  have hdata : (!(rx.payload.drop 16).isEmpty) = false := by simp [hd]
  have hgood' : (s.took 0x30 rx).loft.poisoned (yAddr (hIndex (rd rx.payload 8 4)) (rd rx.payload 14 2)) (rd rx.payload 2 2) = false :=
    hgood
  have hread : loftRead (s.took 0x30 rx) (yAddr (hIndex (rd rx.payload 8 4)) (rd rx.payload 14 2)) (rd rx.payload 2 2) =
      loftRead s (yAddr (hIndex (rd rx.payload 8 4)) (rd rx.payload 14 2)) (rd rx.payload 2 2) := loftRead_of_mem rfl ..
  have hbody : (leBytes 2 (rd rx.payload 0 2 + 0x8000) ++ slice rx.payload 2 14 ++
      loftRead s (yAddr (hIndex (rd rx.payload 8 4)) (rd rx.payload 14 2)) (rd rx.payload 2 2)).length =
      16 + rd rx.payload 2 2 := by
    simp [slice, hd, loftRead_eq_map_byte]
    omega
  rw [copy_next h hh, onCopy]
  simp only [if_pos hlt, serveCopy, hmask', Bool.not_true, Bool.false_eq_true, if_false, if_neg hfit, hdata, hgood', hread]
  have hcas := pin_cascade (hIndex (rd rx.payload 8 4)) ((s.took 0x30 rx).updCas fun c =>
    { c with serving := c.serving ++ [(rx.origin.val, rd rx.payload 0 2, hIndex (rd rx.payload 8 4))] })
  exact congrArg _ (answered (type := 0x30) (congrArg Cascade.lane hcas :) (congrArg Cascade.position hcas :) hc hbody)

end Sys2Proof.Machine
end

section
/-! ## The end of copies, and the image of the Ridge (R131, R908, R918) -/
namespace Sys2Proof.Machine
open Sys2Proof

/-! ### Yealms given back (R131) -/

/-- A yealm that no tenant reset left pinned only loses a pin. -/
theorem unpin_eq {i : Nat} {s : State} (hpool : poolIndex i = true) (hd : (s.loft.tag i).doomed = false) :
    unpin i s = s.updLoft fun l => l.setTag i { (l.tag i) with pins := (l.tag i).pins - 1 } := by
  have hd' : (mgetD s.loft.tags i {}).doomed = false := hd
  simp [unpin, hpool, Loft.tag, Loft.setTag, hd']

theorem tag_unpin {i : Nat} {s : State} (hpool : poolIndex i = true) (hd : (s.loft.tag i).doomed = false) :
    ((unpin i s).loft.tag i).pins = (s.loft.tag i).pins - 1 := by
  rw [unpin_eq hpool hd]
  simp [Loft.tag, Loft.setTag]

/-- A completion of a submission writes no tag of the Loft, and what left the device stays in the log. -/
theorem completeSub_tags_out {n p : Nat} {s : State} (ho : (s.ring n).opened = true) (hp : (s.ring n).pair = some p)
    (hc : (s.ring n).closing = false) (cls st tag count flags : Nat) (result : Bytes) :
    (completeSub n cls st tag count flags result s).loft.tags = s.loft.tags ∧
      ∀ o ∈ s.out, o ∈ (completeSub n cls st tag count flags result s).out := by
  rw [completeSub_eq ho hp hc]
  exact ⟨(congrArg Loft.tags (produce_loft p _ s) :), fun o h => mem_produce_out h⟩

/-! ### A CAS_COPY ends (R908) -/

/-- A CAS_COPY in flight is found by the submissions. -/
theorem findCopy_of_subs {s z : State} (h : z.subs = s.subs) (ct : Nat) : findCopy z ct = findCopy s ct := by
  rw [findCopy, findCopy, h]

/-- What the end of a CAS_COPY leaves. -/
structure CopyEnded (x : Sub) (p st : Nat) (s z : State) : Prop where
  completed : Completed p (completeDesc 0x30 st x.tag (if st = St.ok then rd x.desc 6 2 else 0) 0 [] s.timebase.now) s z
  subs : z.subs = s.subs.erase x
  pins : (s.loft.tag (hIndex (rd x.desc 8 4))).doomed = false →
    (z.loft.tag (hIndex (rd x.desc 8 4))).pins = (s.loft.tag (hIndex (rd x.desc 8 4))).pins - 1
  bytes : ∀ a, a < s.slot p ∨ s.slot p + 32 ≤ a → z.byte a = s.byte a
  cascade : z.cascade = s.cascade
  log : ∀ o ∈ s.out, o ∈ z.out
  frame : KeepsBut [.tenants, .subs, .rings, .loft, .views, .out] s z

theorem copyEnded_copyDone {x : Sub} {p : Nat} {s : State} (hn : x.ring < 32) (hlt : p < 32) (ho : (s.ring x.ring).opened = true)
    (hp : (s.ring x.ring).pair = some p) (hc : (s.ring x.ring).closing = false)
    (hpool : poolIndex (hIndex (rd x.desc 8 4)) = true) (st : Nat) : CopyEnded x p st s (copyDone x st s) := by
  have hpins := tag_unpin (s := { s with subs := s.subs.erase x }) hpool
  have hy := unpin_besidesYealms (hIndex (rd x.desc 8 4)) { s with subs := s.subs.erase x }
  rw [copyDone]
  generalize unpin (hIndex (rd x.desc 8 4)) { s with subs := s.subs.erase x } = y at *
  have hring (k : Nat) : y.ring k = s.ring k := ring_of_rings (congrArg State.rings hy :) k
  have htime : y.timebase = s.timebase := (congrArg State.timebase hy :)
  have hslot : y.slot p = s.slot p := by rw [State.slot, State.slot, hring]
  have ho' : (y.ring x.ring).opened = true := by rw [hring]; exact ho
  have hp' : (y.ring x.ring).pair = some p := by rw [hring]; exact hp
  have hc' : (y.ring x.ring).closing = false := by rw [hring]; exact hc
  obtain ⟨htags, hlog⟩ := completeSub_tags_out ho' hp' hc' 0x30 st x.tag (if st = St.ok then rd x.desc 6 2 else 0) 0 []
  obtain ⟨⟨hread, htail⟩, -, -, hbytes, hframe⟩ := subDone_completeSub hn hlt ho' hp' hc' 0x30 st x.tag
    (if st = St.ok then rd x.desc 6 2 else 0) 0 []
  generalize completeSub x.ring 0x30 st x.tag (if st = St.ok then rd x.desc 6 2 else 0) 0 [] y = z at *
  rw [hring, htime] at hread
  rw [hring] at htail
  refine ⟨⟨hread, htail⟩, ?_, fun hd => ?_, fun a ha => ?_, ?_, fun o h => hlog o ?_, ?_⟩
  · exact (congrArg State.subs hframe :).trans (congrArg State.subs hy :)
  · exact (congrArg (fun m => (mgetD m (hIndex (rd x.desc 8 4)) {}).pins) htags).trans (hpins hd)
  · exact (hbytes a (hslot ▸ ha)).trans (byte_of_mem (keepsBut_of_besidesYealms hy).2 a)
  · exact (congrArg State.cascade hframe :).trans (congrArg State.cascade hy :)
  · have hout : y.out = s.out := (congrArg State.out hy :)
    rwa [hout]
  · have hsub : KeepsBut [.subs] s { s with subs := s.subs.erase x } := by simp [KeepsBut]
    exact keepsBut_trans (keepsBut_mono (by decide) hsub) <| keepsBut_trans
      (keepsBut_mono (by decide) (keepsBut_of_besidesYealms hy).1) (keepsBut_mono (by decide) (keepsBut_of_besidesProduction hframe))

/-- A yealm of the pool lies above every slot of a ring (Table LFT.1). -/
theorem slot_below_pool {s : State} {p i o : Nat} (hlt : p < 32) (hl : (s.ring p).log2 ≤ 12) (hpool : poolIndex i = true) :
    s.slot p + 32 ≤ yAddr i o := by
  have hbelow := slotAddr_below_pool (k := (s.ring p).tail) hlt hl
  simp only [poolIndex, Bool.and_eq_true, decide_eq_true_eq] at hpool
  simp only [State.slot, yAddr] at *
  omega

/-- The data that a CAS_COPY asked for stand in its yealm, and end it. -/
theorem copyDone_loftWrite {x : Sub} {p a : Nat} {data : Bytes} {s : State} (ha : a = yAddr (hIndex (rd x.desc 8 4)) (rd x.desc 16 2))
    (hn : x.ring < 32) (hlt : p < 32) (ho : (s.ring x.ring).opened = true) (hp : (s.ring x.ring).pair = some p)
    (hcl : (s.ring x.ring).closing = false) (hl : (s.ring p).log2 ≤ 12) (hpool : poolIndex (hIndex (rd x.desc 8 4)) = true) :
    loftRead (copyDone x St.ok (loftWrite a data s)) a data.length = data ∧
      Completed p (completeDesc 0x30 St.ok x.tag (rd x.desc 6 2) 0 [] s.timebase.now) s (copyDone x St.ok (loftWrite a data s)) ∧
      (copyDone x St.ok (loftWrite a data s)).subs = s.subs.erase x ∧
      (copyDone x St.ok (loftWrite a data s)).cascade = s.cascade ∧
      (∀ o ∈ s.out, o ∈ (copyDone x St.ok (loftWrite a data s)).out) ∧
      KeepsBut [.tenants, .subs, .rings, .loft, .views, .out] s (copyDone x St.ok (loftWrite a data s)) := by
  obtain ⟨hdone, hsubs, -, hbytes, hcas, hlog, hframe⟩ := copyEnded_copyDone (s := loftWrite a data s) hn hlt ho hp hcl hpool St.ok
  have hback := loftRead_loftWrite a data s
  have hslot : (loftWrite a data s).slot p + 32 ≤ a := by
    rw [ha]
    exact slot_below_pool (s := s) hlt hl hpool
  have hwrite : KeepsBut [.loft] s (loftWrite a data s) := by simp [KeepsBut, loftWrite]
  have hw : (loftWrite a data s).ring p = s.ring p ∧ (loftWrite a data s).subs = s.subs ∧
      (loftWrite a data s).cascade = s.cascade ∧ (loftWrite a data s).out = s.out ∧
      (loftWrite a data s).timebase = s.timebase := ⟨rfl, rfl, rfl, rfl, rfl⟩
  generalize loftWrite a data s = w at *
  obtain ⟨hring, hwsubs, hwcas, hwout, hwtime⟩ := hw
  rw [Completed, hring, hwtime] at hdone
  exact ⟨(loftRead_of_bytes fun i _ => hbytes _ (.inr (by omega))).trans hback, hdone, hwsubs ▸ hsubs, hcas.trans hwcas,
    hwout ▸ hlog, keepsBut_trans (keepsBut_mono (by decide) hwrite) hframe⟩

/-- The row of a COPY frame with the data that a CAS_COPY asked for. -/
theorem copy_brought_next {rx : LaneRx} {ct : Nat} {x : Sub} {s : State} (h : LaneHeard rx s) (hh : ForHere rx s)
    (ht : rd rx.payload 0 2 = ct + 0x8000) (hx : findCopy s ct = some x) (hdata : (rx.payload.drop 16).length = rd x.desc 6 2)
    (hc : LaneClear (laneTo s rx.origin) 0x31 4 s) :
    exec (.copy rx) s = .next (copyDone x St.ok (loftWrite (yAddr (hIndex (rd x.desc 8 4)) (rd x.desc 16 2)) (rx.payload.drop 16)
      ((s.took 0x30 rx).sent (laneTo s rx.origin) 0x31 rx.origin s.cascade.position
        (leBytes 2 (ct + 0x8000) ++ leBytes 1 St.ok ++ zeros 1)))) := by
  have hack : copyAck rx.origin (ct + 0x8000) St.ok (s.took 0x30 rx) = (s.took 0x30 rx).sent (laneTo s rx.origin) 0x31 rx.origin
      s.cascade.position (leBytes 2 (ct + 0x8000) ++ leBytes 1 St.ok ++ zeros 1) :=
    answered (type := 0x30) rfl rfl hc (length_ackBody ..)
  obtain ⟨-, -, hsubs⟩ := took_sent_same 0x30 rx s (laneTo s rx.origin) 0x31 rx.origin s.cascade.position
    (leBytes 2 (ct + 0x8000) ++ leBytes 1 St.ok ++ zeros 1)
  have hfind := (findCopy_of_subs hsubs ct).trans hx
  have htake : (rx.payload.drop 16).take (rd x.desc 6 2) = rx.payload.drop 16 := by rw [← hdata, List.take_length]
  rw [copy_next h hh, onCopy]
  simp only [ht, if_neg (show ¬ ct + 0x8000 < 0x8000 by omega), hack, Nat.add_sub_cancel, hfind, htake]

/-- The data that a CAS_COPY asked for are acknowledged, stand in its yealm, and end it (R908). -/
theorem copy_brought {rx : LaneRx} {p ct a len : Nat} {x : Sub} {s : State} (h : LaneHeard rx s) (hh : ForHere rx s)
    (ht : rd rx.payload 0 2 = ct + 0x8000) (hx : findCopy s ct = some x)
    (ha : a = yAddr (hIndex (rd x.desc 8 4)) (rd x.desc 16 2)) (hlen : len = rd x.desc 6 2)
    (hdata : (rx.payload.drop 16).length = len) (hc : LaneClear (laneTo s rx.origin) 0x31 4 s) (hn : x.ring < 32) (hlt : p < 32)
    (ho : (s.ring x.ring).opened = true) (hp : (s.ring x.ring).pair = some p) (hcl : (s.ring x.ring).closing = false)
    (hl : (s.ring p).log2 ≤ 12) (hpool : poolIndex (hIndex (rd x.desc 8 4)) = true) :
    ∃ z, exec (.copy rx) s = .next z ∧ loftRead z a len = rx.payload.drop 16 ∧
      Completed p (completeDesc 0x30 St.ok x.tag len 0 [] s.timebase.now) s z ∧ z.subs = s.subs.erase x ∧
      LaneSent (laneTo s rx.origin) 0x31 rx.origin s.cascade.position (leBytes 2 (ct + 0x8000) ++ leBytes 1 St.ok ++ zeros 1) z ∧
      z.cascade = { s.cascade with lane := z.cascade.lane } ∧ LaneTook rx 0x30 s z ∧
      KeepsBut [.cascade, .tenants, .subs, .rings, .loft, .views, .out] s z := by
  have hrow := copy_brought_next h hh ht hx (hlen ▸ hdata) hc
  rw [← ha] at hrow
  generalize leBytes 2 (ct + 0x8000) ++ leBytes 1 St.ok ++ zeros 1 = body at *
  obtain ⟨hcas, hsent, htook, hframe⟩ := took_sent 0x30 rx s (laneTo_lt s rx.origin) 0x31 rx.origin s.cascade.position body
  have hkept := took_sent_same 0x30 rx s (laneTo s rx.origin) 0x31 rx.origin s.cascade.position body
  generalize (s.took 0x30 rx).sent (laneTo s rx.origin) 0x31 rx.origin s.cascade.position body = y at *
  obtain ⟨hrings, htime, hsubs⟩ := hkept
  have hring (k : Nat) : y.ring k = s.ring k := ring_of_rings hrings k
  obtain ⟨hread, hdone, hzsubs, hzcas, hlog, hzframe⟩ := copyDone_loftWrite (data := rx.payload.drop 16) ha hn hlt
    (by rw [hring]; exact ho) (by rw [hring]; exact hp) (by rw [hring]; exact hcl) (by rw [hring]; exact hl) hpool (s := y)
  generalize copyDone x St.ok (loftWrite a (rx.payload.drop 16) y) = z at *
  have hlane (k : Nat) : z.laneOf k = y.laneOf k := laneOf_of_cascade (congrArg Cascade.lane hzcas) k
  rw [Completed, hring, htime, ← hlen] at hdone
  refine ⟨z, hrow, hdata ▸ hread, hdone, hsubs ▸ hzsubs, laneSent_of hsent (hlane _) hlog, ?_, laneTook_of htook (hlane _) hlog, ?_⟩
  · rw [hzcas]
    exact hcas
  · exact keepsBut_trans (keepsBut_mono (by decide) hframe) (keepsBut_mono (by decide) hzframe)

/-- The row of a COPY_ACK frame for this module. -/
theorem copyAck_next {rx : LaneRx} {s : State} (h : LaneHeard rx s) (hh : ForHere rx s) :
    exec (.copyAck rx) s = .next (onCopyAck rx.origin.val rx.payload (s.took 0x31 rx)) :=
  (running_next h.1).trans (congrArg _ (laneFrame_here h hh rfl ..))

/-- A COPY_ACK ends this module's CAS_COPY with the status it brings. -/
theorem copyAck_ends {rx : LaneRx} {p ct : Nat} {x : Sub} {s : State} (h : LaneHeard rx s) (hh : ForHere rx s)
    (ht : rd rx.payload 0 2 = ct) (hct : ct < 0x8000) (hx : findCopy s ct = some x) (hn : x.ring < 32) (hlt : p < 32)
    (ho : (s.ring x.ring).opened = true) (hp : (s.ring x.ring).pair = some p) (hcl : (s.ring x.ring).closing = false)
    (hpool : poolIndex (hIndex (rd x.desc 8 4)) = true) :
    ∃ z, exec (.copyAck rx) s = .next z ∧
      Completed p (completeDesc 0x30 (byteAt rx.payload 2) x.tag (if byteAt rx.payload 2 = St.ok then rd x.desc 6 2 else 0) 0 []
        s.timebase.now) s z ∧
      z.subs = s.subs.erase x ∧
      ((s.loft.tag (hIndex (rd x.desc 8 4))).doomed = false →
        (z.loft.tag (hIndex (rd x.desc 8 4))).pins = (s.loft.tag (hIndex (rd x.desc 8 4))).pins - 1) ∧
      z.cascade = { s.cascade with lane := z.cascade.lane } ∧ LaneTook rx 0x31 s z ∧
      (∀ l : Fin 2, l.val ≠ rx.lane.val → z.laneOf l = s.laneOf l) ∧
      KeepsBut [.cascade, .tenants, .subs, .rings, .loft, .views, .out] s z := by
  have hfind : findCopy (s.took 0x31 rx) ct = some x := Eq.trans (findCopy_of_subs (s := s) rfl ct) hx
  have hrow : exec (.copyAck rx) s = .next (copyDone x (byteAt rx.payload 2) (s.took 0x31 rx)) := by
    rw [copyAck_next h hh, onCopyAck]
    simp only [ht, if_pos hct, hfind]
  obtain ⟨hdone, hsubs, hpins, -, hcas, hlog, hframe⟩ := copyEnded_copyDone (s := s.took 0x31 rx) hn hlt ho hp hcl hpool
    (byteAt rx.payload 2)
  generalize copyDone x (byteAt rx.payload 2) (s.took 0x31 rx) = z at *
  have hlane (k : Nat) : z.laneOf k = (s.took 0x31 rx).laneOf k := laneOf_of_cascade (congrArg Cascade.lane hcas) k
  refine ⟨z, hrow, hdone, hsubs, hpins, ?_, laneTook_of (laneTook_took ..) (hlane _) hlog,
    fun l hne => (hlane l).trans (laneOf_took_ne hne ..), ?_⟩
  · rw [hcas, ← cascade_took]
  · exact keepsBut_trans (keepsBut_mono (by decide) (keepsBut_took 0x31 rx s)) (keepsBut_mono (by decide) hframe)

/-- A COPY_ACK of bytes that this module served gives their yealm back. -/
theorem copyAck_served {rx : LaneRx} {x : Nat × Nat × Nat} {s : State} (h : LaneHeard rx s) (hh : ForHere rx s)
    (ht : 0x8000 ≤ rd rx.payload 0 2)
    (hx : (s.cascade.serving.find? fun x => x.1 == rx.origin.val && x.2.1 == rd rx.payload 0 2 - 0x8000) = some x)
    (hpool : poolIndex x.2.2 = true) (hd : (s.loft.tag x.2.2).doomed = false) :
    ∃ z, exec (.copyAck rx) s = .next z ∧
      z.cascade = { s.cascade with lane := z.cascade.lane, serving := s.cascade.serving.erase x } ∧
      (z.loft.tag x.2.2).pins = (s.loft.tag x.2.2).pins - 1 ∧ z.loft.mem = s.loft.mem ∧ LaneTook rx 0x31 s z ∧
      (∀ l : Fin 2, l.val ≠ rx.lane.val → z.laneOf l = s.laneOf l) ∧ KeepsBut [.cascade, .loft, .out] s z := by
  have hg : OffLanes fun c => { c with serving := c.serving.erase x } := fun _ _ => rfl
  have hx' : ((s.took 0x31 rx).cascade.serving.find? fun x => x.1 == rx.origin.val && x.2.1 == rd rx.payload 0 2 - 0x8000) = some x :=
    hx
  have hrow : exec (.copyAck rx) s = .next (unpin x.2.2 ((s.took 0x31 rx).updCas fun c => { c with serving := c.serving.erase x })) := by
    rw [copyAck_next h hh, onCopyAck]
    simp only [if_neg (show ¬ rd rx.payload 0 2 < 0x8000 by omega), hx']
  have hpins := tag_unpin (s := (s.took 0x31 rx).updCas fun c => { c with serving := c.serving.erase x }) hpool hd
  have heq := unpin_eq (s := (s.took 0x31 rx).updCas fun c => { c with serving := c.serving.erase x }) hpool hd
  rw [hrow]
  refine ⟨_, rfl, ?_, hpins, ?_, ?_, fun l hne => ?_, ?_⟩
  · rw [heq]; exact cascade_updCas_took hg 0x31 rx s
  · rw [heq]; rfl
  · rw [heq]; exact laneTook_updCas hg 0x31 rx s
  · rw [heq]; exact laneOf_took_ne hne 0x31 s
  · rw [heq]
    exact keepsBut_trans (keepsBut_mono (by decide) (keepsBut_took 0x31 rx s)) (by simp [KeepsBut])

/-! ### Boot from the Ridge (R918) -/

/-- An image whose rest fits one frame leaves as one. -/
theorem sendImage_last {img : Bytes} {off : Nat} {s : State} (hlt : off < img.length) (hle : img.length ≤ off + 4096)
    (hc : LaneClear 1 0x41 (8 + (slice img off 4096).length) s) (fuel : Nat) :
    sendImage img (fuel + 1) off s = s.sent 1 0x41 (s.cascade.position + 1) s.cascade.position
      (leBytes 4 off ++ leBytes 4 img.length ++ slice img off 4096) := by
  have hlen : (leBytes 4 off ++ leBytes 4 img.length ++ slice img off 4096).length = 8 + (slice img off 4096).length := by
    simp only [List.length_append, length_leBytes]
  rw [sendImage, if_neg (by omega), laneSend_clear (by decide) (hlen ▸ hc)]
  cases fuel with
  | zero => rfl
  | succ fuel => rw [sendImage, if_pos hle]

/-- IMAGE_REQ on the CD lane at full rate is answered with the rest of the booted image. -/
theorem imageReq_answered {rx : LaneRx} {off : Nat} {img : Bytes} {s : State} (h : LaneHeard rx s) (hlane : rx.lane = 1)
    (hc : s.campel = true) (hq : (s.laneOf 1).quarter = false) (himg : img = s.boot.imageBytes) (hoff : off = rd rx.payload 0 4)
    (hlt : off < img.length) (hle : img.length ≤ off + 4096) (hl : LaneClear 1 0x41 (8 + (slice img off 4096).length) s) :
    exec (.imageReq rx) s = .next ((s.took 0x40 rx).sent 1 0x41 (s.cascade.position + 1) s.cascade.position
      (leBytes 4 off ++ leBytes 4 img.length ++ slice img off 4096)) := by
  subst himg hoff
  have hq' : ((s.took 0x40 rx).laneOf 1).quarter = false :=
    (laneOf_took_keep Lane.quarter rx (fun _ => rfl) 0x40 1 s).trans hq
  have hhere : ¬ (rx.lane.val ≠ 1 ∨ (!(s.took 0x40 rx).campel) = true) := by
    rw [hlane, show (s.took 0x40 rx).campel = true from hc]
    decide
  refine (running_next h.1).trans (congrArg _ ((laneFrame_neighbour h rfl ..).trans ?_))
  simp only [if_neg hhere, hq', Bool.false_eq_true, if_false]
  exact sendImage_last hlt hle (laneClear_took hl 0x40 rx) _

/-- IMAGE for a module that boots from the cascade goes on filling its push area. -/
theorem image_taken {rx : LaneRx} {off : Nat} {d : Bytes} {s : State} (h : LaneHeard rx s) (hlane : rx.lane = 0)
    (hst : s.boot.stage = .rom) (hsrc : s.boot.source = 3) (hoff : off = rd rx.payload 0 4)
    (hnext : off = s.cascade.image.length) (hd : d = rx.payload.drop 8) (hfit : off + d.length ≤ 1048576) :
    ∃ z, exec (.image rx) s = .next z ∧
      z.cascade =
        { s.cascade with lane := z.cascade.lane, image := s.cascade.image ++ d, imageLen := rd rx.payload 4 4 } ∧
      loftRead z (yAddr 12288 off) d.length = d ∧
      (∀ b, b < yAddr 12288 off ∨ yAddr 12288 off + d.length ≤ b → z.byte b = s.byte b) ∧ LaneTook rx 0x41 s z ∧
      (∀ l : Fin 2, l.val ≠ 0 → z.laneOf l = s.laneOf l) ∧ KeepsBut [.cascade, .loft, .out] s z := by
  have hg : OffLanes fun c => { c with image := c.image ++ d, imageLen := rd rx.payload 4 4 } := fun _ _ => rfl
  generalize hy : ((s.took 0x41 rx).updCas fun c => { c with image := c.image ++ d, imageLen := rd rx.payload 4 4 }) = y
  have hycas : y.cascade = { s.cascade with lane := y.cascade.lane, image := s.cascade.image ++ d, imageLen := rd rx.payload 4 4 } := by
    rw [← hy]; exact cascade_updCas_took hg 0x41 rx s
  have hytook : LaneTook rx 0x41 s y := by rw [← hy]; exact laneTook_updCas hg 0x41 rx s
  have hymem : y.loft.mem = s.loft.mem := by rw [← hy]; rfl
  have hyframe : KeepsBut [.cascade, .out] s y := by
    rw [← hy]; exact keepsBut_trans (keepsBut_took ..) (keepsBut_updCas ..)
  have hrow : exec (.image rx) s = .next (loftWrite (yAddr 12288 off) d y) := by
    have hhere : ¬ (rx.lane.val ≠ 0 ∨ (s.took 0x41 rx).boot.stage ≠ .rom ∨ (s.took 0x41 rx).boot.source ≠ 3 ∨
        off ≠ (s.took 0x41 rx).cascade.image.length ∨ 1048576 < off + d.length) := by
      rintro (hl | hl | hl | hl | hl)
      · exact hl (by rw [hlane]; rfl)
      · exact hl hst
      · exact hl hsrc
      · exact hl hnext
      · omega
    refine (running_next h.1).trans (congrArg _ ((laneFrame_neighbour h rfl ..).trans ?_))
    simp only [← hoff, ← hd, if_neg hhere, hy]
  refine ⟨_, hrow, hycas, loftRead_loftWrite .., fun b hb => ?_, laneTook_of hytook rfl fun _ => id, fun l hne => ?_, ?_⟩
  · exact (byte_loftWrite_of_out _ _ _ _ hb).trans (byte_of_mem hymem b)
  · have hl : (loftWrite (yAddr 12288 off) d y).laneOf l = y.laneOf l := rfl
    rw [hl, ← hy, laneOf_updCas hg, laneOf_took_ne (by rw [hlane]; exact hne)]
  · have hwrite : KeepsBut [.loft] y (loftWrite (yAddr 12288 off) d y) := by simp [KeepsBut, loftWrite]
    exact keepsBut_trans (keepsBut_mono (by decide) hyframe) (keepsBut_mono (by decide) hwrite)

/-- IMAGE_REQ is asked again when nothing came in its time. -/
theorem imageReqRetry_sent {us : Nat} {s : State} (hp : s.powered = true) (hst : s.boot.stage = .rom) (hsrc : s.boot.source = 3)
    (hnone : s.cascade.image = [] → 1000000 ≤ us)
    (hsome : s.cascade.image ≠ [] → s.cascade.image.length < s.cascade.imageLen) (hus : 10000 ≤ us)
    (hc : LaneClear 0 0x40 4 s) :
    exec (.imageReqRetry us) s =
      .next (s.sent 0 0x40 0 s.cascade.position (leBytes 4 s.cascade.image.length)) := by
  have hdue : ¬ (s.boot.stage ≠ .rom ∨ s.boot.source ≠ 3 ∨ us < (if s.cascade.image.isEmpty then 1000000 else 10000) ∨
      ((!s.cascade.image.isEmpty) = true ∧ s.cascade.imageLen ≤ s.cascade.image.length)) := by
    cases hi : s.cascade.image with
    | nil =>
      have := hnone hi
      simp [hst, hsrc]
      omega
    | cons b l =>
      have := hsome (by simp [hi])
      simp [hst, hsrc]
      rw [hi] at this
      simp at this
      omega
  change execImageReqRetry us s = _
  rw [execImageReqRetry, running_next hp]
  simp only [if_neg hdue]
  rw [laneSend_clear (by decide) (by rw [length_leBytes]; exact hc)]

end Sys2Proof.Machine
end

section
/-! ## Frames across the chain (R131, R887, R904 to R908, R910, R916 to R918, R938) -/
namespace Sys2Proof.Machine
open Sys2Proof

/-- A lease frame is relayed unchanged, and this module learns its number (R910). -/
theorem relayed_lease {rx : LaneRx} {s : State} (h : LaneHeard rx s) (hvalid : s.cascade.valid = true)
    (hin : s.cascade.outside = false) (hdest : rx.dest.val ≠ s.cascade.position) {type : Nat}
    (hc : LaneClear (laneTo s rx.dest) type rx.payload.length s) (ht : routed type = true) (body : Bytes → State → State) :
    ∃ z, s.running (laneFrame type rx (fun p s => s.updCas fun c => { c with leaseSeen := max c.leaseSeen (rd p 0 6) }) body) =
        .next z ∧
      z.cascade = { s.cascade with lane := z.cascade.lane, leaseSeen := max s.cascade.leaseSeen (rd rx.payload 0 6) } ∧
      LaneSent (laneTo s rx.dest) type rx.dest rx.origin rx.payload z ∧ LaneTook rx type s z ∧ KeepsBut [.cascade, .out] s z :=
  relayed (g := fun p c => { c with leaseSeen := max c.leaseSeen (rd p 0 6) }) h hvalid hin hdest hc ht (offLanes_leaseSeen _) body

/-- A frame of a row without an effect on the way is relayed unchanged (R904). -/
theorem relayed_row {rx : LaneRx} {s : State} (h : LaneHeard rx s) (hvalid : s.cascade.valid = true)
    (hin : s.cascade.outside = false) (hdest : rx.dest.val ≠ s.cascade.position) {type : Nat}
    (hc : LaneClear (laneTo s rx.dest) type rx.payload.length s) (ht : routed type = true) (body : Bytes → State → State) :
    ∃ z, laneRow type rx body s = .next z ∧ z.cascade = { s.cascade with lane := z.cascade.lane } ∧
      LaneSent (laneTo s rx.dest) type rx.dest rx.origin rx.payload z ∧ LaneTook rx type s z ∧ KeepsBut [.cascade, .out] s z :=
  relayed (g := fun _ c => c) h hvalid hin hdest hc ht offLanes_id body

/-- A COPY with data: its bytes, what it leaves of the Loft, its acknowledgement. -/
theorem exec_copy_written {rx : LaneRx} {tag r a len : Nat} {s : State} (h : LaneHeard rx s) (hh : ForHere rx s)
    (ht : tag = rd rx.payload 0 2) (hlt : tag < 0x8000) (hr : r = rd rx.payload 8 4)
    (ha : a = yAddr (hIndex r) (rd rx.payload 14 2)) (hlen : len = rd rx.payload 2 2)
    (hmask : s.cascade.forwardMask.testBit (hOwner r) = true) (ho : hOwner (rd rx.payload 4 4) = hOwner r)
    (hu : usable s (hOwner r) r = true) (hb : rd rx.payload 14 2 + len ≤ 4096) (hd : rx.payload.drop 16 ≠ [])
    (hc : LaneClear (laneTo s rx.origin) 0x31 4 s) :
    ∃ z, exec (.copy rx) s = .next z ∧
      loftRead z a ((rx.payload.drop 16).take len).length = (rx.payload.drop 16).take len ∧
      (∀ b, b < a ∨ a + len ≤ b → z.byte b = s.byte b) ∧ z.loft.tags = s.loft.tags ∧
      LaneSent (laneTo s rx.origin) 0x31 rx.origin s.cascade.position (leBytes 2 tag ++ leBytes 1 St.ok ++ zeros 1) z ∧
      z.cascade = { s.cascade with lane := z.cascade.lane } ∧ LaneTook rx 0x30 s z ∧
      KeepsBut [.cascade, .loft, .out] s z := by
  refine ⟨_, copy_written h hh ht hlt hr ha hlen hmask ho hu hb hd hc, ?_⟩
  generalize leBytes 2 tag ++ leBytes 1 St.ok ++ zeros 1 = body
  have hshort : ((rx.payload.drop 16).take len).length ≤ len := List.length_take_le ..
  generalize (rx.payload.drop 16).take len = data at *
  have hwrite : KeepsBut [.loft] (s.took 0x30 rx) (loftWrite a data (s.took 0x30 rx)) := by simp [KeepsBut, loftWrite]
  have hread := loftRead_loftWrite a data (s.took 0x30 rx)
  have hout (b : Nat) (hb : b < a ∨ a + len ≤ b) : (loftWrite a data (s.took 0x30 rx)).byte b = s.byte b :=
    byte_loftWrite_of_out a data (s.took 0x30 rx) b (by omega)
  have htags : (loftWrite a data (s.took 0x30 rx)).loft.tags = s.loft.tags := rfl
  have hcas : (loftWrite a data (s.took 0x30 rx)).cascade = (s.took 0x30 rx).cascade := rfl
  have htook : LaneTook rx 0x30 s (loftWrite a data (s.took 0x30 rx)) := laneTook_of (laneTook_took ..) rfl fun _ => id
  generalize loftWrite a data (s.took 0x30 rx) = y at *
  refine ⟨hread, hout, htags, laneSent_sent (laneTo_lt ..) .., ?_, laneTook_sent htook .., ?_⟩
  · rw [cascade_sent, hcas, cascade_took]
  · exact keepsBut_trans (keepsBut_mono (by decide) (keepsBut_took 0x30 rx s)) <|
      keepsBut_trans (keepsBut_mono (by decide) hwrite) (keepsBut_mono (by decide) (keepsBut_sent ..))

/-- A COPY without data: the pin, the answer with the bytes asked for. -/
theorem exec_copy_asked {rx : LaneRx} {tag r a len : Nat} {s : State} (h : LaneHeard rx s) (hh : ForHere rx s)
    (ht : tag = rd rx.payload 0 2) (hlt : tag < 0x8000) (hr : r = rd rx.payload 8 4)
    (ha : a = yAddr (hIndex r) (rd rx.payload 14 2)) (hlen : len = rd rx.payload 2 2)
    (hmask : s.cascade.forwardMask.testBit (hOwner r) = true) (ho : hOwner (rd rx.payload 4 4) = hOwner r)
    (hu : usable s (hOwner r) r = true) (hb : rd rx.payload 14 2 + len ≤ 4096) (hd : rx.payload.length = 16)
    (hgood : s.loft.poisoned a len = false) (hc : LaneClear (laneTo s rx.origin) 0x30 (16 + len) s) :
    ∃ z, exec (.copy rx) s = .next z ∧
      LaneSent (laneTo s rx.origin) 0x30 rx.origin s.cascade.position
        (leBytes 2 (tag + 0x8000) ++ slice rx.payload 2 14 ++ loftRead s a len) z ∧
      (z.loft.tag (hIndex r)).pins = (s.loft.tag (hIndex r)).pins + 1 ∧ z.loft.mem = s.loft.mem ∧
      z.cascade =
        { s.cascade with lane := z.cascade.lane, serving := s.cascade.serving ++ [(rx.origin.val, tag, hIndex r)] } ∧
      LaneTook rx 0x30 s z ∧ KeepsBut [.cascade, .loft, .out] s z := by
  refine ⟨_, copy_asked h hh ht hlt hr ha hlen hmask ho hu hb hd hgood hc, laneSent_sent (laneTo_lt ..) .., ?_⟩
  generalize leBytes 2 (tag + 0x8000) ++ slice rx.payload 2 14 ++ loftRead s a len = body
  have hg : OffLanes fun c => { c with serving := c.serving ++ [(rx.origin.val, tag, hIndex r)] } := fun _ _ => rfl
  have hycas := cascade_updCas_took hg 0x30 rx s
  have hytook := laneTook_updCas hg 0x30 rx s
  have hyframe : KeepsBut [.cascade, .out] s
      ((s.took 0x30 rx).updCas fun c => { c with serving := c.serving ++ [(rx.origin.val, tag, hIndex r)] }) :=
    keepsBut_trans (keepsBut_took ..) (keepsBut_updCas ..)
  have hyloft : ((s.took 0x30 rx).updCas fun c =>
      { c with serving := c.serving ++ [(rx.origin.val, tag, hIndex r)] }).loft = s.loft := rfl
  generalize ((s.took 0x30 rx).updCas fun c => { c with serving := c.serving ++ [(rx.origin.val, tag, hIndex r)] }) = y at *
  have hkeep := pin_besidesYealms (hIndex r) y
  have hpins := congrArg Tag.pins (tag_pin (poolIndex_of_usable hu) y)
  have hpin := keepsBut_pin (hIndex r) y
  generalize pin (hIndex r) y = w at *
  have hcas : w.cascade = y.cascade := (congrArg State.cascade hkeep :)
  have hmem : w.loft.mem = y.loft.mem := (congrArg (fun x : State => x.loft.mem) hkeep :)
  have hout : w.out = y.out := (congrArg State.out hkeep :)
  refine ⟨hpins.trans (by rw [hyloft]), hmem.trans (by rw [hyloft]), ?_, laneTook_sent (laneTook_of hytook ?_ ?_) .., ?_⟩
  · rw [cascade_sent, hcas, hycas]
  · exact laneOf_of_cascade (congrArg Cascade.lane hcas) _
  · exact fun o h => hout ▸ h
  · exact keepsBut_trans (keepsBut_mono (by decide) hyframe) <|
      keepsBut_trans (keepsBut_mono (by decide) hpin) (keepsBut_mono (by decide) (keepsBut_sent ..))

/-- Settles O57: the relays by `relayed_lease` and `relayed_row`, each effect at the destination by the lemma of its row. -/
theorem framesCrossTheChain : Obligations.FramesCrossTheChain := by
  unfold Obligations.FramesCrossTheChain
  refine ⟨fun rx s h hv hi hd hc => relayed_lease h hv hi hd hc rfl _,
    fun rx s h hv hi hd hc => relayed_lease h hv hi hd hc rfl _,
    fun rx s h hv hi hd hc => relayed_row h hv hi hd hc rfl _, fun rx s h hv hi hd hc => relayed_row h hv hi hd hc rfl _,
    fun rx s h hv hi hd hc => relayed_row h hv hi hd hc rfl _, fun rx s h hv hi hd hc => relayed_row h hv hi hd hc rfl _,
    fun rx s h hv hi hd hc => relayed_row h hv hi hd hc rfl _, fun rx s h hv hi hd hc => relayed_row h hv hi hd hc rfl _,
    fun rx n s h hh ha hn hc => leaseReq_granted h hh ha hn hc, fun rx n s h hh hn => leaseGrant_taken h hh hn,
    fun rx t a s h hh ht h8 hm ha hpos hc => ?_, fun rx t s h hh ht h8 hm hc => ?_,
    fun rx t o r s h hh ht hr ho hm => mboxRsp_written h hh ht hr ho hm,
    fun rx t n s h hh ht hw hr hl _ => mboxEvent_posted h hh ht hw hr hl,
    fun rx x s h hh hu hr ha hx => record_recorded h hh hu hr ha hx, fun rx s h hh hc hx hst hhi ht ha => ?_,
    fun p x s hp hc hr hx ha hd hm hpres hl => recordForward_sent hp hc hr hx ha hd hm hpres hl,
    fun n p a l d data s h h30 hf hpres ha hgood hdata hl hc => casCopy_sent n.isLt h h30 hf hpres ha hgood hdata hl hc,
    fun n p d s h h30 hf hpres => ?_, fun n p d s h h30 hf => ?_,
    fun rx tag r a len s h hh ht hlt hr ha hlen hm ho hu hb hd hc =>
      exec_copy_written h hh ht hlt hr ha hlen hm ho hu hb hd hc,
    fun rx tag r a len s h hh ht hlt hr ha hlen hm ho hu hb hd hgood hc =>
      exec_copy_asked h hh ht hlt hr ha hlen hm ho hu hb hd hgood hc,
    fun rx tag r a len s h hh ht hlt hr _ _ hm hc => ?_,
    fun rx n p ct a len x s h hh ht hx ha hlen _ hdata hc hr hn hlt ho hp hcl hl hpool => ?_,
    fun rx n p ct x s h hh ht hct hx hr hn hlt ho hp hcl _ hpool => ?_,
    fun rx x s h hh ht hx hpool hd => copyAck_served h hh ht hx hpool hd,
    fun rx off img s h hl hc hq himg hoff hlt hle hcl => ?_,
    fun rx off d s h hl hst hsrc hoff hnext hd hfit => image_taken h hl hst hsrc hoff hnext hd hfit,
    fun us s hp hst hsrc hnone hsome hus hc => ?_⟩
  · exact ⟨_, mboxReq_served h hh ht h8 hm ha hpos hc, laneSent_sent (laneTo_lt ..) .., sent_loft .., sent_recorder .., sent_jobs ..,
      sent_rxSeq ..⟩
  · refine ⟨_, mboxReq_refused h hh ht h8 hm hc, ?_⟩
    exact took_sent 0x10 rx s (laneTo_lt ..) ..
  · have hrec := record_exhausted (s := s.took 0x20 rx) h.1 hc hx hst hhi ht
    refine ⟨_, record_next h hh ha, ?_⟩
    rw [hrec]
    exact ⟨rfl, laneTook_of (laneTook_took ..) rfl fun _ => id, keepsBut_trans
      (keepsBut_mono (by decide) (keepsBut_took 0x20 rx s)) (by simp [KeepsBut])⟩
  · obtain ⟨hloft, hcas, -⟩ := advanceHead_chain n s
    refine casCopy_completed n.isLt h h30 ?_
    simp only [copyRun, copyFields_of hloft hcas, hf, present_of_cascade hcas, hpres, Bool.not_true, Bool.not_false,
      Bool.false_eq_true, if_false, if_true]
  · obtain ⟨hloft, hcas, -⟩ := advanceHead_chain n s
    refine casCopy_completed n.isLt h h30 ?_
    simp only [copyRun, copyFields_of hloft hcas, hf, Bool.not_false, if_true]
  · subst hr
    refine ⟨_, copy_refused h hh ht hlt hm hc, ?_⟩
    obtain ⟨hcas, hsent, htook, hframe⟩ := took_sent 0x30 rx s (laneTo_lt s rx.origin) 0x31 rx.origin s.cascade.position
      (leBytes 2 tag ++ leBytes 1 St.notPermitted ++ zeros 1)
    exact ⟨hsent, hcas, htook, hframe⟩
  · subst hr
    exact copy_brought h hh ht hx ha hlen hdata hc hn hlt ho hp hcl hl hpool
  · subst hr
    exact copyAck_ends h hh ht hct hx hn hlt ho hp hcl hpool
  · obtain ⟨hcas, hsent, htook, hframe⟩ := took_sent 0x40 rx s (l := 1) (by decide) 0x41 (s.cascade.position + 1) s.cascade.position
      (leBytes 4 off ++ leBytes 4 img.length ++ slice img off 4096)
    refine ⟨_, imageReq_answered h hl hc hq himg hoff hlt hle hcl, hsent, hcas, htook, fun l hne => ?_, hframe⟩
    rw [laneOf_sent_ne hne, laneOf_took_ne (by rw [hl]; exact hne)]
  · exact ⟨_, imageReqRetry_sent hp hst hsrc hnone hsome hus hc, cascade_sent .., laneSent_sent (by decide) ..,
      fun l hne => laneOf_sent_ne hne .., keepsBut_sent ..⟩

end Sys2Proof.Machine
end

section
/-! ## A request in MB_REQ and the doorbell that runs it (R191 to R193, R200, Tables TEN.6, TEN.8) -/
namespace Sys2Proof.Machine
open Sys2Proof

/-! ### CRC-32C is a 32-bit value (R29) -/

/-- One bit of a reflected CRC keeps a 32-bit state within 32 bits. -/
theorem crcBit_lt {poly c : Nat} (hp : poly < 2 ^ 32) (hc : c < 2 ^ 32) : crcBit poly c < 2 ^ 32 := by
  have hhalf : c / 2 < 2 ^ 32 := by omega
  unfold crcBit
  split
  · exact Nat.xor_lt_two_pow hhalf hp
  · exact hhalf

/-- One byte of a reflected CRC keeps a 32-bit state within 32 bits. -/
theorem crcByte_lt {poly c : Nat} (hp : poly < 2 ^ 32) (hc : c < 2 ^ 32) (b : BitVec 8) : crcByte poly c b < 2 ^ 32 := by
  have hb : b.toNat < 2 ^ 32 := lt_trans b.isLt (by decide)
  have hrep : ∀ n, Nat.repeat (crcBit poly) n (c ^^^ b.toNat) < 2 ^ 32 := by
    intro n
    induction n with
    | zero => exact Nat.xor_lt_two_pow hc hb
    | succ n ih => exact crcBit_lt hp ih
  exact hrep 8

/-- A CRC state stays within 32 bits over a byte string. -/
theorem crcRun_lt {poly : Nat} (hp : poly < 2 ^ 32) (l : Bytes) {c : Nat} (hc : c < 2 ^ 32) : crcRun poly c l < 2 ^ 32 := by
  induction l generalizing c with
  | nil => exact hc
  | cons b l ih => exact ih (crcByte_lt hp hc b)

/-- CRC-32C is a 32-bit value. -/
theorem crc32c_lt (l : Bytes) : crc32c l < 2 ^ 32 :=
  Nat.xor_lt_two_pow (crcRun_lt (by decide) l (by decide)) (by decide)

/-! ### The fields of an encoded request (Table TEN.6) -/

/-- MB_REQ as a request fills it: the header of Table TEN.6 with this CRC, the payload, zeros to the end. -/
def requestBytes (op seq t flags target crc : Nat) (p : Bytes) : Bytes :=
  leBytes 2 op ++ leBytes 2 seq ++ leBytes 1 t ++ leBytes 1 flags ++ leBytes 2 p.length ++ leBytes 1 target ++ zeros 3 ++
    leBytes 4 crc ++ (p ++ zeros (240 - p.length))

/-- A request as MB_REQ holds it has its CRC in bytes 12 to 15. -/
theorem fit_encodeReq {p : Bytes} (hl : p.length ≤ 240) (op seq t flags target : Nat) :
    fit 256 (encodeReq op seq t flags target p) =
      requestBytes op seq t flags target (crc32c (reqHeader op seq t flags p.length target ++ p)) p := by
  have htake : p.take 240 = p := List.take_of_length_le hl
  simp [fit, encodeReq, reqHeader, requestBytes, leBytes, zeros, htake]

section
variable (op seq t flags target crc : Nat) (p : Bytes)

theorem op_requestBytes : rd (requestBytes op seq t flags target crc p) 0 2 = op % 65536 :=
  leVal_leBytes 2 op

theorem seq_requestBytes : rd (requestBytes op seq t flags target crc p) 2 2 = seq % 65536 :=
  leVal_leBytes 2 seq

theorem tenant_requestBytes : byteAt (requestBytes op seq t flags target crc p) 4 = t % 256 :=
  BitVec.toNat_ofNat ..

theorem flags_requestBytes : byteAt (requestBytes op seq t flags target crc p) 5 = flags % 256 :=
  BitVec.toNat_ofNat ..

theorem length_requestBytes : rd (requestBytes op seq t flags target crc p) 6 2 = p.length % 65536 :=
  leVal_leBytes 2 p.length

theorem target_requestBytes : byteAt (requestBytes op seq t flags target crc p) 8 = target % 256 :=
  BitVec.toNat_ofNat ..

theorem reserved_requestBytes : zeroAt (requestBytes op seq t flags target crc p) 9 3 = true := rfl

theorem crc_requestBytes : rd (requestBytes op seq t flags target crc p) 12 4 = crc % 2 ^ 32 :=
  leVal_leBytes 4 crc

theorem payload_requestBytes : slice (requestBytes op seq t flags target crc p) 16 p.length = p := by
  simp [slice, requestBytes, leBytes, zeros]

theorem header_requestBytes :
    (requestBytes op seq t flags target crc p).take 12 ++ zeros 4 = reqHeader op seq t flags p.length target := rfl

end

/-! ### The request a call puts into MB_REQ -/

/-- What a call's doorbell finds in MB_REQ. -/
def callBytes (op : Nat) (c : Call) : Bytes := fit 256 (encodeReq op c.seq c.t.val (b2n c.asyncOk) 0 c.payload)

/-- The bytes of a call are those of its fields, under the CRC of its header and payload. -/
theorem callBytes_eq {c : Call} (hl : c.payload.length ≤ 240) (op : Nat) :
    callBytes op c = requestBytes op c.seq c.t.val (b2n c.asyncOk) 0
      (crc32c (reqHeader op c.seq c.t.val (b2n c.asyncOk) c.payload.length 0 ++ c.payload)) c.payload :=
  fit_encodeReq hl ..

/-- The request decoded from a call's bytes is the call's own. -/
theorem reqOf_callBytes {op : Nat} {c : Call} (hop : op < 65536) (hseq : c.seq < 65536) (hl : c.payload.length ≤ 240) :
    reqOf (callBytes op c) c.t.val none = callReq c op := by
  have hlen : c.payload.length % 65536 = c.payload.length := Nat.mod_eq_of_lt (by omega)
  have hflag : (b2n c.asyncOk % 256).testBit 0 = c.asyncOk := by cases c.asyncOk <;> rfl
  rw [callBytes_eq hl, reqOf, op_requestBytes, seq_requestBytes, flags_requestBytes, length_requestBytes, hlen,
    payload_requestBytes, hflag, Nat.mod_eq_of_lt hop, Nat.mod_eq_of_lt hseq, callReq]

/-- A call's bytes pass the header checks 1 to 4 of Table TEN.8. -/
theorem headerStatus_callBytes {c : Call} (hl : c.payload.length ≤ 240) (op : Nat) :
    headerStatus c.t.val (callBytes op c) = none := by
  have hlen : c.payload.length % 65536 = c.payload.length := Nat.mod_eq_of_lt (by omega)
  have ht : c.t.val % 256 = c.t.val := Nat.mod_eq_of_lt (by omega)
  have hflag : b2n c.asyncOk % 256 ≤ 3 := by cases c.asyncOk <;> decide
  simp only [headerStatus, callBytes_eq hl, length_requestBytes, hlen, payload_requestBytes, header_requestBytes,
    crc_requestBytes, Nat.mod_eq_of_lt (crc32c_lt _), tenant_requestBytes, ht, flags_requestBytes, reserved_requestBytes,
    target_requestBytes]
  simp [Nat.not_lt.2 hl, Nat.not_lt.2 hflag]

/-- A call's bytes name no other module: TARGET_VALID is clear (R201). -/
theorem targetFlag_callBytes {c : Call} (hl : c.payload.length ≤ 240) (op : Nat) :
    (byteAt (callBytes op c) 5).testBit 1 = false := by
  rw [callBytes_eq hl, flags_requestBytes]
  cases c.asyncOk <;> rfl

/-! ### Opcodes of the defined commands -/

/-- The opcodes of the defined commands are 16-bit values, each of one command. -/
theorem allCmds_op : (∀ cmd ∈ allCmds, cmd.op < 65536) ∧ (allCmds.map Cmd.op).Nodup := by
  have hops : ∀ n ∈ allCmds.map Cmd.op, n < 65536 := by decide +kernel
  exact ⟨fun cmd h => hops _ (List.mem_map_of_mem h), by decide +kernel⟩

/-- In a list whose members have keys of their own a member is found by its key. -/
theorem find?_key_of_nodup {α : Type} {f : α → Nat} {l : List α} (h : (l.map f).Nodup) {a : α} (ha : a ∈ l) :
    (l.find? fun x => f x == f a) = some a := by
  induction l with
  | nil => cases ha
  | cons b l ih =>
    rw [List.map_cons, List.nodup_cons] at h
    rcases List.mem_cons.1 ha with rfl | hmem
    · simp
    · have hne : f b ≠ f a := fun e => h.1 (e ▸ List.mem_map_of_mem hmem)
      simp [hne, ih h.2 hmem]

/-- A defined command is found by its opcode. -/
theorem findCmdOf_op {cmd : Cmd} (h : cmd ∈ allCmds) : findCmdOf cmd.op = some cmd := find?_key_of_nodup allCmds_op.2 h

/-! ### The doorbell (R191) -/

/-- A tenant changed to what it is leaves the state. -/
theorem updTen_eq_self {t : Nat} {f : Tenant → Tenant} {s : State} (h : f (s.ten t) = s.ten t) : s.updTen t f = s := by
  have hv : upd s.tenants t f = s.tenants := by
    refine (upd_congr s.tenants t (g := id) h).trans ?_
    simp [upd]
  rw [State.updTen, hv]

/-- With the request already in MB_REQ the doorbell alone begins a call. -/
theorem begun_of_mbReq {op : Nat} {c : Call} {s : State} (h : (s.ten c.t).mbReq = callBytes op c) :
    begun op c s = takeRequest c.t.val c.spi s := by
  have hreq : (fun x : Tenant => { x with mbReq := callBytes op c }) (s.ten c.t) = s.ten c.t := by rw [← h]
  exact congrArg (takeRequest c.t.val c.spi) (updTen_eq_self hreq)

/-- Taking a doorbell leaves MB_REQ. -/
theorem mbReq_takeRequest (t : Nat) (spi : Bool) (s : State) : ((takeRequest t spi s).ten t).mbReq = (s.ten t).mbReq :=
  vat_upd_keep _ _ _ _ Tenant.mbReq fun _ => rfl

/-- A doorbell over the bytes of a call executes the call. -/
theorem doorbell_callBytes {cmd : Cmd} {c : Call} {v : BitVec 32} {s : State} (hcmd : cmd ∈ allCmds) (h : Taken c s)
    (hseq : c.seq < 65536) (hv : v.getLsbD 0 = true) (hreq : (s.ten c.t).mbReq = callBytes cmd.op c) :
    doorbell c.t.val c.spi v s = answer (callReq c cmd.op) (execute cmd (callReq c cmd.op) (begun cmd.op c s)) := by
  obtain ⟨-, hhost, hbusy, hl⟩ := h
  have hexec : executeReq (callReq c cmd.op) = execute cmd (callReq c cmd.op) := by
    funext z
    simp only [executeReq, callReq, findCmdOf_op hcmd]
  simp only [doorbell, hhost, hbusy, hv, mbReq_takeRequest, hreq, headerStatus_callBytes hl, targetFlag_callBytes hl,
    reqOf_callBytes (allCmds_op.1 cmd hcmd) hseq hl, hexec, begun_of_mbReq hreq, Bool.not_true, Bool.false_eq_true, false_and,
    if_false]

/-- A doorbell that is refused counts the refusal and does nothing else (R191). -/
theorem doorbell_refused {n : Fin 8} {s : State} (hhost : s.supply.isl.host = true) (hbusy : mailboxBusy s n.val = true)
    (spi : Bool) (v : BitVec 32) : doorbell n.val spi v s = doorbellRefused n.val s := by
  simp [doorbell, hhost, hbusy]

/-- Settles O13: the fields of Table TEN.6 are read back from the bytes that encode them, the CRC agrees, and each opcode
is that of one command, so the doorbell executes the call that its row executes. -/
theorem doorbellRunsTheRequestItHolds : Obligations.DoorbellRunsTheRequestItHolds := by
  unfold Obligations.DoorbellRunsTheRequestItHolds
  refine ⟨fun cmd c v s hcmd h hseq hv hreq => ?_, fun n spi v s hp hhost hbusy => ?_⟩
  · refine ⟨_, (running_next h.1).trans (congrArg _ (doorbell_callBytes hcmd h hseq hv hreq)), command_taken h, fun _ => rfl⟩
  · refine ⟨_, (running_next hp).trans (congrArg _ (doorbell_refused hhost hbusy spi v)), ?_, fun k hk => ?_, by
      simp [KeepsBut, doorbellRefused]⟩
    · simp [doorbellRefused, ten_updTen]
    · simp [doorbellRefused, ten_updTen, hk]

end Sys2Proof.Machine
end

section
/-! ## Requests of the 0x01xx and 0x02xx families (R193, R202, R210, R217 to R224, R260) -/
namespace Sys2Proof.Machine
open Sys2Proof

/-! ### What a served request tells -/

/-- A request that passes the checks comes from a tenant with rights to it (check 8 of Table TEN.8). -/
theorem rights_of_checks {cmd : Cmd} {q : Req} {s : State} (h : checks cmd q s = none) :
    cmd.rights s q.t q.payload = true := by
  by_contra hf
  unfold checks at h
  dsimp only at h
  repeat' split at h
  all_goals simp_all

/-- A request for tenant 0 alone that passes the checks is tenant 0's. -/
theorem zero_of_byZero {cmd : Cmd} {c : Call} {s : State} (h : Served cmd c s) (hr : cmd.rights = byZero) : c.t = 0 := by
  have hz := rights_of_checks h.2
  rw [hr] at hz
  exact Fin.ext (of_decide_eq_true hz)

/-- Taking a doorbell leaves of a tenant what its mailbox has no part in. -/
theorem begun_ten_keep {β : Type} (op : Nat) (c : Call) (s : State) (n : Nat) (p : Tenant → β)
    (hp : ∀ x b sp, p { x with mbReq := b, busy := true, rspReady := false, transport := sp } = p x) :
    p ((begun op c s).ten n) = p (s.ten n) := by
  obtain ⟨b, sp, h⟩ := begun_ten op c s n
  rw [h]
  split
  · exact hp ..
  · rfl

/-! ### Requests that only read -/

/-- SYS_GET_INFO answers Table TEN.15: identity, mode, tenant and its state, modules, release, epoch and uptime. -/
theorem cmdSysGetInfo_run (c : Call) (s : State) :
    cmdSysGetInfo.run (begun 0x0101 c s) c.t.val c.payload =
      .done St.ok (leBytes 4 (idWord s 0) ++ leBytes 4 (idWord s 1) ++ leBytes 4 (idWord s 2) ++ leBytes 4 (idModulePos s) ++
        leBytes 1 s.supply.mode.code ++ leBytes 1 c.t.val ++ leBytes 1 (s.ten c.t.val).state.code ++ leBytes 1 (modulesOf s) ++
        leBytes 4 (campelRelease s) ++ leBytes 4 s.boot.epoch ++ leBytes 4 (s.up / 1000000)) (begun 0x0101 c s) := by
  rw [← begun_ten_state 0x0101 c s]
  rfl

/-- What the obligation reads of a tenant's status (Table TEN.17): state and cause, resets, refusals, failures, faults. -/
def Tenant.statusFields (x : Tenant) : Bytes × Bytes × Bytes :=
  (leBytes 1 x.state.code ++ leBytes 1 x.faultCause, leBytes 4 x.resets ++ leBytes 1 x.lastReset,
    leBytes 4 x.refusedCount ++ leBytes 4 x.headerFails ++ leBytes 4 x.faultCount)

/-- TEN_GET_STATUS answers the status of the tenant it names (Table TEN.17). -/
theorem exec_tenGetStatus {c : Call} {n : Nat} {s : State} (h : Served cmdTenGetStatus c s)
    (hn : n = namedTenant c.t.val c.payload) :
    ∃ z, exec (.tenGetStatus c) s = .next z ∧
      ((z.ten c.t.val).rsp.map fun r => (r.status, slice r.payload 0 2, slice r.payload 4 5, slice r.payload 16 12)) =
        some (St.ok, (s.ten n).statusFields) ∧
      ReadsOnly c s z := by
  obtain ⟨z, hz, ha, hread⟩ := command_reads h rfl
  refine ⟨z, hz, ?_, hread⟩
  have hr := congrArg (Option.map fun x : Nat × Bytes => (x.1, slice x.2 0 2, slice x.2 4 5, slice x.2 16 12)) (rsp_of_answered ha)
  rw [Option.map_map] at hr
  rw [← begun_ten_keep 0x0204 c s n Tenant.statusFields fun _ _ _ => rfl, hn]
  exact hr

/-! ### SVC_ASSIGN (R217 to R219, R260) -/

/-- The sources of a service that changes hands move in the views, and may send messages (R260). -/
theorem keepsBut_moveSources (svc old new : Nat) (s : State) : KeepsBut [.views, .out] s (moveSources svc old new s) := by
  have hview (t : Nat) (f : View → View) (y : State) : KeepsBut [.views, .out] y (y.updView t f) := by simp [KeepsBut]
  have hpend (b : Bool) (k : Nat) (y : State) : KeepsBut [.views, .out] y (if b then goPending new k y else y) := by
    cases b <;> simp [KeepsBut]
  unfold moveSources
  split
  · exact keepsBut_refl ..
  · refine foldl_ok (KeepsBut [.views, .out] s) _ (fun k y hy => ?_) _ s (keepsBut_refl ..)
    dsimp only
    have hold : KeepsBut [.views, .out] s
        (if old = 0 then y else y.updView old fun v => { v with raw := v.raw &&& ~~~(BitVec.twoPow 128 k) }) := by
      split
      · exact hy
      · exact keepsBut_trans hy (hview ..)
    generalize (if old = 0 then y else y.updView old fun v => { v with raw := v.raw &&& ~~~(BitVec.twoPow 128 k) }) = x at *
    split
    · exact hold
    · exact keepsBut_trans (keepsBut_trans hold (hview ..)) (hpend ..)

/-- A service with a new owner and new read rights (R217). -/
def State.withService (svc o m : Nat) (s : State) : State :=
  { s with svcOwner := vset s.svcOwner svc o, svcRights := vset s.svcRights svc m }

/-- SVC_ASSIGN to a READY tenant, with rights for READY tenants, is answered OK, and the service's sources move with it. -/
theorem cmdSvcAssign_run {s : State} {p : Bytes} (hfit : byteAt p 0 = 4 → s.isT = false) (ho : (s.ten (byteAt p 1)).state = .ready)
    (hm : ∀ k : Fin 8, (byteAt p 2).testBit k.val = true → (s.ten k).state = .ready)
    (h6 : byteAt p 0 = 6 → byteAt p 1 = 0 ∧ byteAt p 2 = 0) (t : Nat) :
    cmdSvcAssign.run s t p = .done St.ok [] (moveSources (byteAt p 0) (s.owner (byteAt p 0)) (byteAt p 1)
      (s.withService (byteAt p 0) (byteAt p 1) (byteAt p 2))) := by
  have hfit' : ¬ (byteAt p 0 = 4 ∧ s.isT = true) := fun ⟨h4, ht⟩ => by simp [hfit h4] at ht
  have hm' : ((List.range 8).any fun t => (byteAt p 2).testBit t && (s.ten t).state != .ready) = false := by
    rw [List.any_eq_false]
    intro k hk
    simpa using hm ⟨k, List.mem_range.1 hk⟩
  have h6' : ¬ (byteAt p 0 = 6 ∧ (byteAt p 1 ≠ 0 ∨ byteAt p 2 ≠ 0)) := by omega
  simp only [cmdSvcAssign, hfit', ho, hm', h6', ne_eq, not_true_eq_false, reduceCtorEq, Bool.false_eq_true, or_self, if_false]
  rfl

theorem exec_svcAssign {c : Call} {svc o m : Nat} {s : State} (h : Served cmdSvcAssign c s) (hsvc : svc = byteAt c.payload 0)
    (ho : o = byteAt c.payload 1) (hm : m = byteAt c.payload 2) (hfit : svc = 4 → s.isT = false)
    (hown : (s.ten o).state = .ready) (hread : ∀ k : Fin 8, m.testBit k.val = true → (s.ten k).state = .ready)
    (h6 : svc = 6 → o = 0 ∧ m = 0) :
    ∃ z, exec (.svcAssign c) s = .next z ∧ Answered c 0x0202 St.ok [] z ∧ z.svcOwner = vset s.svcOwner svc o ∧
      z.svcRights = vset s.svcRights svc m ∧ SetsOnly [.svcOwner, .svcRights] c s z := by
  subst hsvc ho hm
  have hrun := cmdSvcAssign_run (s := begun 0x0202 c s) hfit ((begun_ten_state ..).trans hown)
    (fun k hk => (begun_ten_state ..).trans (hread k hk)) h6 c.t.val
  have hset : KeepsBut [.svcOwner, .svcRights] (begun 0x0202 c s)
      ((begun 0x0202 c s).withService (byteAt c.payload 0) (byteAt c.payload 1) (byteAt c.payload 2)) := by
    simp [KeepsBut, State.withService]
  have hmove := keepsBut_moveSources (byteAt c.payload 0) (s.owner (byteAt c.payload 0)) (byteAt c.payload 1)
    ((begun 0x0202 c s).withService (byteAt c.payload 0) (byteAt c.payload 1) (byteAt c.payload 2))
  obtain ⟨hten, -, howner, hrights, -⟩ := id hmove
  refine ⟨_, command_done h hrun, answered_respond .., ?_, ?_, ?_, ?_⟩
  · exact (respond_svcOwner ..).trans (howner.resolve_left (by decide))
  · exact (respond_svcRights ..).trans (hrights.resolve_left (by decide))
  · exact keepsBut_respond_begun (by decide) (keepsBut_trans (keepsBut_mono (by decide) hset) (keepsBut_mono (by decide) hmove)) ..
  · exact mailboxOnly_respond (hten.resolve_left (by decide)) _

/-! ### TEN_ENABLE (R224) -/

/-- TEN_ENABLE of an ABSENT tenant makes it READY and changes no other tenant but the requester's mailbox. -/
theorem exec_tenEnable {c : Call} {s : State} (h : Served cmdTenEnable c s) (h1 : byteAt c.payload 1 = 1)
    (habsent : (s.ten (byteAt c.payload 0)).state = .absent) :
    ∃ z, exec (.tenEnable c) s = .next z ∧ Answered c 0x0203 St.ok [] z ∧
      z.ten (byteAt c.payload 0) = { s.ten (byteAt c.payload 0) with state := .ready } ∧
      (∀ k : Fin 8, k.val ≠ byteAt c.payload 0 → k ≠ c.t → z.ten k = s.ten k) ∧ KeepsBut [.tenants, .views, .out] s z := by
  have hzero := zero_of_byZero h rfl
  have hfields := fields_of_checks h.2
  simp only [cmdTenEnable, callReq, Bool.and_eq_true, decide_eq_true_eq] at hfields
  obtain ⟨⟨⟨hpos, hlt⟩, -⟩, -⟩ := hfields
  have hrun : cmdTenEnable.run (begun 0x0203 c s) c.t.val c.payload =
      .done St.ok [] ((begun 0x0203 c s).updTen (byteAt c.payload 0) fun x => { x with state := .ready }) := by
    simp only [cmdTenEnable, begun_ten_state, habsent, h1, if_true]
  have hother (k : Nat) (hk : k ≠ c.t.val) (y : State) (r : Rsp) : (respond c.t.val r y).ten k = y.ten k :=
    respond_ten_ne _ _ _ _ (Ne.symm hk)
  have hbegun (k : Nat) (hk : k ≠ c.t.val) : (begun 0x0203 c s).ten k = s.ten k := by
    obtain ⟨b, sp, hb⟩ := begun_ten 0x0203 c s k
    rwa [if_neg hk] at hb
  refine ⟨_, command_done h hrun, answered_respond .., ?_, fun k hk ht => ?_, ?_⟩
  · have hn : byteAt c.payload 0 ≠ c.t.val := by rw [hzero]; exact Nat.ne_of_gt hpos
    have hset := ten_updTen ⟨byteAt c.payload 0, by omega⟩ ⟨byteAt c.payload 0, by omega⟩ (fun x => { x with state := .ready })
      (begun 0x0203 c s)
    rw [if_pos rfl] at hset
    rw [hother _ hn, ← hbegun _ hn]
    exact hset
  · have hkt : k.val ≠ c.t.val := fun e => ht (Fin.ext e)
    rw [hother _ hkt, ← hbegun _ hkt]
    exact vat_upd_ne _ _ _ _ (Ne.symm hk)
  · exact keepsBut_respond_begun (op := 0x0203) (c := c) (by decide) (by simp [KeepsBut]) ..

/-! ### TEN_FAULT (R210, R214) -/

/-- A READY tenant other than 0 when a cause of Table TEN.11 arises. -/
def Tenant.faultedFor (cause : Nat) (x : Tenant) : Tenant :=
  { x with faultCause := cause, faultCount := inc16 x.faultCount, state := .faulted }

/-- A tenant is FAULTED, its source raised and its fault recorded, before its rings stall. -/
def faultTold (t cause : Nat) (s : State) : State :=
  raiseCrumb (40 + t) 0x02A0 4 t (anyPayload 0x02A0 [t, cause]) (s.updTen t (Tenant.faultedFor cause))

/-- SUBMIT rings stall for a cause. -/
def stallRings (cause : Nat) (l : List Nat) (s : State) : State := l.foldl (fun s n => stallRing n cause s) s

/-- Which SUBMIT rings a tenant has open is read from the rings. -/
theorem submitRings_of_rings {s z : State} (h : z.rings = s.rings) (t : Nat) : submitRings z t = submitRings s t := by
  simp only [submitRings, ring_of_rings h]

theorem lt_of_mem_submitRings {s : State} {t r : Nat} (h : r ∈ submitRings s t) : r < 32 :=
  List.mem_range.1 (List.mem_of_mem_filter h)

/-- The fault of a READY tenant other than 0 is told, then its SUBMIT rings stall with cause 5. -/
theorem faultTenant_eq {t : Nat} {s : State} (h : (s.ten t).state = .ready) (h0 : t ≠ 0) (cause : Nat) :
    faultTenant t cause s = stallRings 5 (submitRings s t) (faultTold t cause s) := by
  have hrings : (faultTold t cause s).rings = s.rings := by simp [faultTold]
  rw [← submitRings_of_rings hrings]
  simp only [faultTenant, h, h0, bne_self_eq_false, Bool.false_eq_true, if_false]
  rfl

/-- A ring is stalled for a cause. -/
def StalledFor (cause n : Nat) (s : State) : Prop := (s.ring n).stalled = true ∧ (s.ring n).stallCause = cause

/-- A stall marks the ring, and raises its source where it was not stalled. -/
theorem stallRing_eq (n cause : Nat) (s : State) : ∃ f : Ring → Ring, (∀ r, (f r).stallCause = cause) ∧
    (∀ r, (f r).stalled = true ∨ (f r).stalled = r.stalled) ∧ (f (s.ring n)).stalled = true ∧
      (stallRing n cause s = s.updRing n f ∨ stallRing n cause s = raiseSrc n (s.updRing n f)) := by
  unfold stallRing
  split
  · next h => exact ⟨fun r => { r with stallCause := cause }, fun _ => rfl, fun _ => .inr rfl, h, .inl rfl⟩
  · exact ⟨fun r => { r with stalled := true, stallCause := cause, sinceAttn := 0 }, fun _ => rfl, fun _ => .inl rfl, rfl, .inr rfl⟩

theorem keepsBut_stallRing (n cause : Nat) (s : State) : KeepsBut [.rings, .views, .out] s (stallRing n cause s) := by
  obtain ⟨f, -, -, -, h | h⟩ := stallRing_eq n cause s <;> simp [h, KeepsBut]

/-- A stall raises no source but the ring's own. -/
theorem stallRing_source {n x : Nat} (h : n ≠ x) (cause : Nat) (s : State) : (stallRing n cause s).source x = s.source x := by
  obtain ⟨f, -, -, -, hf | hf⟩ := stallRing_eq n cause s
  · rw [hf]; rfl
  · rw [hf, raiseSrc_source_of_ne h]; rfl

/-- A stall leaves its ring stalled for the cause, and every ring that was. -/
theorem stalledFor_stallRing {n k cause : Nat} (hn : n < 32) {s : State} (h : n = k ∨ StalledFor cause k s) :
    StalledFor cause k (stallRing n cause s) := by
  obtain ⟨f, hcause, hkeep, hself, hf⟩ := stallRing_eq n cause s
  have hring : (stallRing n cause s).ring k = (s.updRing n f).ring k := by
    rcases hf with hf | hf
    · rw [hf]
    · rw [hf]; exact ring_of_rings (raiseSrc_rings ..) k
  rw [StalledFor, hring]
  by_cases hk : n = k
  · subst hk
    rw [ring_updRing_self hn]
    exact ⟨hself, hcause _⟩
  · rw [ring_updRing_of_ne hk]
    exact h.resolve_left hk

/-- After stalls for a cause each of their rings is stalled for it. -/
theorem stalledFor_stallRings {k cause : Nat} (l : List Nat) (hl : ∀ n ∈ l, n < 32) (s : State)
    (h : k ∈ l ∨ StalledFor cause k s) : StalledFor cause k (stallRings cause l s) := by
  induction l generalizing s with
  | nil => exact h.resolve_left List.not_mem_nil
  | cons n l ih =>
    obtain ⟨hn, hl⟩ := List.forall_mem_cons.1 hl
    refine ih hl _ ?_
    rcases h with h | h
    · rcases List.mem_cons.1 h with rfl | h
      · exact .inr (stalledFor_stallRing hn (.inl rfl))
      · exact .inl h
    · exact .inr (stalledFor_stallRing hn (.inr h))

theorem keepsBut_stallRings (cause : Nat) (l : List Nat) (s : State) :
    KeepsBut [.rings, .views, .out] s (stallRings cause l s) :=
  foldl_ok (KeepsBut [.rings, .views, .out] s) _ (fun _ _ h => keepsBut_trans h (keepsBut_stallRing ..)) l s (keepsBut_refl ..)

/-- Stalls of rings raise no source of another kind. -/
theorem stallRings_source {x : Nat} (cause : Nat) (l : List Nat) (hl : x ∉ l) (s : State) :
    (stallRings cause l s).source x = s.source x := by
  induction l generalizing s with
  | nil => rfl
  | cons n l ih =>
    obtain ⟨hn, hl⟩ := List.ne_and_not_mem_of_not_mem_cons hl
    exact (ih hl _).trans (stallRing_source (Ne.symm hn) ..)

/-- The tenant is FAULTED, its source raised and the record made. -/
theorem faultTold_effect {t : Fin 8} {s : State} (hu : Up s) (hr : CanRecord s) (cause : Nat) :
    (faultTold t cause s).ten t = (s.ten t).faultedFor cause ∧ Raised (40 + t.val) s (faultTold t cause s) ∧
      Recorded 0x02A0 4 t.val s (faultTold t cause s) ∧ KeepsBut [.tenants, .recorder, .views, .out] s (faultTold t cause s) := by
  have hsrc : ∀ t : Fin 8, radioSource (40 + t.val) = false ∧ 40 + t.val ∉ recordSources := by decide
  let y := raiseSrc (40 + t.val) (s.updTen t (Tenant.faultedFor cause))
  have hrec : y.recorder = s.recorder := by simp [y]
  have hboot : y.boot = s.boot := by simp [y]
  have hsup : y.supply = s.supply := by simp [y]
  have hcampel : y.campel = true := by rw [State.campel, hboot]; exact hu.2.1
  have hpowered : y.powered = true := by rw [State.powered, hsup]; exact hu.1
  have hraise : Raised (40 + t.val) s y := raised_raiseSrc (s := s.updTen t (Tenant.faultedFor cause)) (by omega)
    (hsrc t).1 hu
  have hframe : KeepsBut [.tenants, .recorder, .views, .out] s y := by simp [KeepsBut, y]
  have hrecorded := recorded_crumbOf hpowered hcampel (by rw [CanRecord, hrec]; exact hr) 1 (40 + t.val) 0x02A0 4 t
    (anyPayload 0x02A0 [(t.val : Int), cause])
  refine ⟨?_, ?_, ?_, keepsBut_trans hframe (keepsBut_mono (by decide) (keepsBut_crumbOf hcampel ..))⟩
  · exact (ten_of_tenants (raiseCrumb_tenants ..) _).trans ((ten_updTen t t _ s).trans (if_pos rfl))
  · rw [raised_iff] at hraise ⊢
    rw [← hraise]
    exact record_source (hsrc t).2 ..
  · rw [Recorded, hrec] at hrecorded
    exact hrecorded

/-- TEN_FAULT of a READY tenant. -/
theorem exec_tenFault {c : Call} {n : Nat} {s : State} (h : Served cmdTenFault c s) (hu : Up s) (hr : CanRecord s)
    (hn : n = byteAt c.payload 0) (hready : (s.ten n).state = .ready) :
    ∃ z, exec (.tenFault c) s = .next z ∧ Answered c 0x0206 St.ok [] z ∧ z.ten n = (s.ten n).faultedFor 3 ∧
      Raised (40 + n) s z ∧ Recorded 0x02A0 4 n s z ∧ (∀ r ∈ submitRings s n, StalledFor 5 r z) ∧
      KeepsBut [.tenants, .views, .out, .rings, .recorder] s z := by
  have hzero := zero_of_byZero h rfl
  have hfields := fields_of_checks h.2
  simp only [cmdTenFault, callReq, Bool.and_eq_true, decide_eq_true_eq, ← hn] at hfields
  obtain ⟨⟨hpos, hlt⟩, -⟩ := hfields
  have hne : n ≠ c.t.val := by rw [hzero]; exact Nat.ne_of_gt hpos
  have hbegun : (begun 0x0206 c s).ten n = s.ten n := by
    obtain ⟨b, sp, hb⟩ := begun_ten 0x0206 c s n
    rwa [if_neg hne] at hb
  have hsubmit : submitRings (begun 0x0206 c s) n = submitRings s n := rfl
  have hrun : cmdTenFault.run (begun 0x0206 c s) c.t.val c.payload =
      .done St.ok [] (stallRings 5 (submitRings s n) (faultTold n 3 (begun 0x0206 c s))) := by
    rw [← hsubmit, ← faultTenant_eq (hbegun ▸ hready) (Nat.ne_of_gt hpos)]
    simp [cmdTenFault, ← hn, hbegun, hready]
  obtain ⟨hten, hraised, hrecorded, hkept⟩ := faultTold_effect (t := ⟨n, by omega⟩) (s := begun 0x0206 c s) hu hr 3
  rw [hbegun] at hten
  have hrings : (faultTold n 3 (begun 0x0206 c s)).rings = s.rings := by simp [faultTold]
  dsimp only at hten hraised hrecorded hkept
  generalize faultTold n 3 (begun 0x0206 c s) = y at *
  have hstall := keepsBut_stallRings 5 (submitRings s n) y
  obtain ⟨htens, -, -, -, -, -, -, -, -, hrec, -⟩ := id hstall
  refine ⟨_, command_done h hrun, answered_respond .., ?_, ?_, ?_, fun r hmem => ?_, ?_⟩
  · rw [respond_ten_ne _ _ _ _ (Ne.symm hne), ten_of_tenants (htens.resolve_left (by decide)), hten]
  · rw [raised_iff] at hraised ⊢
    rw [respond_source (by omega), stallRings_source 5 _ (fun hmem => by have := lt_of_mem_submitRings hmem; omega)]
    exact hraised
  · rw [Recorded, respond_recorder, hrec.resolve_left (by decide)]
    exact hrecorded
  · have hin := stalledFor_stallRings (submitRings s n) (fun _ => lt_of_mem_submitRings) y (cause := 5) (.inl hmem)
    rw [StalledFor, ring_of_rings (respond_rings ..)]
    exact hin
  · exact keepsBut_respond_begun (op := 0x0206) (c := c) (by decide)
      (keepsBut_trans (keepsBut_mono (by decide) hkept) (keepsBut_mono (by decide) hstall)) ..

/-- Settles O11: the requests that read answer with what the state holds (`command_reads`); SVC_ASSIGN, TEN_ENABLE and
TEN_FAULT each by the lemma on its effect. -/
theorem serviceRequestsAnswer : Obligations.ServiceRequestsAnswer := by
  unfold Obligations.ServiceRequestsAnswer
  refine ⟨fun c s h => command_reads h (cmdSysGetInfo_run c s), fun c s h => command_reads h rfl,
    fun c n s h hn => exec_tenGetStatus h hn, fun c s h => command_reads h rfl,
    fun c svc o m s h hsvc ho hm hfit hown hread h6 => exec_svcAssign h hsvc ho hm hfit hown hread h6,
    fun c s h h1 habsent => exec_tenEnable h h1 habsent, fun c n s h hu hr hn hready => ?_⟩
  obtain ⟨z, hz, hans, hten, hraised, hrecorded, hstalled, hkept⟩ := exec_tenFault h hu hr hn hready
  exact ⟨z, hz, hans, by rw [hten]; rfl, by rw [hten]; rfl, by rw [hten]; rfl, hraised, hrecorded, hstalled, hkept⟩

end Sys2Proof.Machine
end

section
/-! ## What reports and completions leave unchanged (R131, R163, R206, R826, R904) -/
namespace Sys2Proof.Machine
open Sys2Proof

/-- A part of the state that no raise of a source, record, frame, key use or completion moves: the moves they are made of. -/
structure Unmoved {γ : Type} (p : State → γ) : Prop where
  emit : ∀ s o, p (s.emit o) = p s
  raise : ∀ src s, p (raiseSrc src s) = p s
  recorder : ∀ s f, p (s.updRec f) = p s
  deferral : ∀ s l, p (s.updBoot fun b => { b with deferred := b.deferred ++ l }) = p s
  report : ∀ s st tok, p (s.updBoot fun b => { b with lastStatus := st, lastToken := tok }) = p s
  lane : ∀ s l f, p (s.updLane l f) = p s
  key : ∀ s i f, p (s.updKey i f) = p s
  ring : ∀ s n f, p (s.updRing n f) = p s
  loft : ∀ s f, p (s.updLoft f) = p s
  jobs : ∀ (s : State) l, p { s with jobs := l } = p s
  held : ∀ s t, p (s.updTen t fun x => { x with held := x.held - 1 }) = p s

namespace Unmoved
variable {γ : Type} {p : State → γ} (h : Unmoved p)
include h

/-! ### Records -/

theorem through_enterRecord (x : Record) (s : State) : p (enterRecord x s) = p s := by
  unfold enterRecord
  dsimp only
  repeat' split
  all_goals simp only [h.raise, h.recorder]

theorem through_recorderWatch (s : State) : p (recorderWatch s) = p s := by
  simp only [recorderWatch, apply_ite p, h.raise, h.recorder, h.through_enterRecord, ite_self]

theorem through_record (x : Record) (s : State) : p (record x s) = p s := by
  unfold record
  split
  · rfl
  · split
    · exact h.deferral ..
    · rw [h.through_recorderWatch, h.through_enterRecord]
      exact h.recorder ..

theorem through_crumb (code sev ten : Nat) (b : Bytes) (s : State) : p (crumb code sev ten b s) = p s := h.through_record ..

theorem through_raiseCrumb (src code sev ten : Nat) (b : Bytes) (s : State) : p (raiseCrumb src code sev ten b s) = p s :=
  (h.through_record ..).trans (h.raise ..)

/-! ### Frames on a lane -/

theorem through_laneErr (l : Nat) (s : State) : p (laneErr l s) = p s := by
  unfold laneErr
  repeat' split
  all_goals simp only [h.raise, h.lane]

theorem through_laneCount (l i n : Nat) (s : State) : p (laneCount l i n s) = p s := by
  simp only [laneCount, apply_ite p, h.through_laneErr, h.lane, ite_self]

theorem through_keyStart (t i kind n : Nat) (forms : Bool) (s : State) : p (keyStart t i kind n forms s).2.2 = p s := by
  unfold keyStart wearOut
  dsimp only
  repeat' split
  all_goals simp only [h.through_raiseCrumb, h.key]

theorem through_sealFrame (l : Nat) (f : LaneFrame) (s : State) : p (sealFrame l f s).2 = p s := by
  unfold sealFrame keyEnd
  dsimp only
  repeat' split
  all_goals simp only [h.through_keyStart, h.through_laneErr, h.key, h.lane]

theorem through_startFrame (l : Nat) (f : LaneFrame) (s : State) : p (startFrame l f s) = p s := by
  simp only [startFrame, h.through_laneCount, h.lane, h.emit]

theorem through_pump (l fuel : Nat) (s : State) : p (pump l fuel s) = p s := by
  induction fuel generalizing s with
  | zero => rfl
  | succ fuel ih =>
    unfold pump
    dsimp only
    split
    · rfl
    · split
      · rfl
      · next f _ =>
        have hseal := h.through_sealFrame l { f with fseq := (s.laneOf l).txSeq } s
        split
        · next s1 e => rw [e] at hseal; exact hseal
        · next g s1 e => rw [e] at hseal; rw [ih, h.through_startFrame, h.lane]; exact hseal

theorem through_sendTo (pos type : Nat) (b : Bytes) (s : State) : p (sendTo pos type b s) = p s := by
  simp only [sendTo, laneSend, h.through_pump, h.lane]

/-! ### Yealms given back, descriptors produced -/

theorem through_freeYealm (i : Nat) (s : State) : p (freeYealm i s) = p s :=
  (h.held ..).trans (h.loft s fun _ => _)

theorem through_unpin (i : Nat) (s : State) : p (unpin i s) = p s := by
  simp only [unpin, apply_ite p, h.through_freeYealm, h.loft, ite_self]

theorem through_unpinAll (l : List Nat) (s : State) : p (unpinAll l s) = p s := foldl_keep p _ (fun _ _ => h.through_unpin ..) l s

theorem through_produce (n : Nat) (b : Bytes) (s : State) : p (produce n b s) = p s := by
  obtain ⟨z, rfl, hz | hz⟩ := produce_eq n b s <;> simp only [hz, loftWrite, h.raise, h.ring, h.loft]

theorem through_postCompletion (t : Nat) (d : Bytes) (s : State) : p (postCompletion t d s) = p s := by
  unfold postCompletion
  split
  · rfl
  · simp only [markOverflow, h.through_produce, apply_ite p, h.ring, ite_self]

/-! ### The end of a command, of a submission -/

theorem through_writeCompletion (j : Job) (st : Nat) (d : Bytes) (s : State) : p (writeCompletion j st d s) = p s := by
  have hpins : p (unpinAll j.pins { s with jobs := s.jobs.erase j }) = p s := (h.through_unpinAll ..).trans (h.jobs ..)
  unfold writeCompletion
  dsimp only
  split
  · exact (h.report ..).trans hpins
  · split
    · exact (h.through_sendTo ..).trans hpins
    · exact (h.through_postCompletion ..).trans hpins

theorem through_completeJob (j : Job) (st : Nat) (d : Bytes) (s : State) : p (completeJob j st d s) = p s := by
  unfold completeJob
  split
  · exact h.jobs ..
  · exact h.through_writeCompletion ..

theorem through_finish (op key st : Nat) (d : Bytes) (s : State) : p (finish op key st d s) = p s := by
  unfold finish
  split
  · exact h.through_completeJob ..
  · rfl

theorem through_closeRing (n : Nat) (s : State) : p (closeRing n s) = p s := by
  unfold closeRing
  dsimp only
  split <;> simp only [h.ring]

theorem through_ringDone (n : Nat) (s : State) : p (ringDone n s) = p s := by
  simp only [ringDone, apply_ite p, h.through_finish, h.through_closeRing, h.ring, ite_self]

theorem through_completeSub (n cls st tag count flags : Nat) (result : Bytes) (s : State) :
    p (completeSub n cls st tag count flags result s) = p s := by
  unfold completeSub
  dsimp only
  split
  · rfl
  · split
    · exact (h.through_ringDone ..).trans (h.through_produce ..)
    · exact h.through_ringDone ..

end Unmoved

end Sys2Proof.Machine
end

section
/-! ## Tenant resets: how they begin and end (R194, R213 to R216, R223, R227, R262, Table TEN.12) -/
namespace Sys2Proof.Machine
open Sys2Proof

/-! ### What the work of a reset leaves -/

/-- A tenant without the counts that freed yealms, discarded entries and aborted work change. -/
def Tenant.besidesCounts (x : Tenant) : Tenant := { x with held := 0, discarded := 0, aborted := 0 }

/-- A view without what a raise of a source changes. -/
def View.besidesLatches (v : View) : View := { v with raw := 0, count := Vector.replicate 128 0, pba := 0 }

/-- The state with everything that a tenant reset's work may change put at its default: of tenants and views the counts and
the latches, of the boot all but the strap that names the SPI port's tenant. -/
def State.besidesReset (s : State) : State :=
  { s with
      tenants := s.tenants.map Tenant.besidesCounts, views := s.views.map View.besidesLatches, jobs := [], loft := {}
      rings := State.reset.rings, subs := [], recorder := {}, boot := { spi7 := s.boot.spi7 }, timebase := {}, net := {}
      diskq := {}, keys := {}, cascade := {}, out := [] }

/-- The parts that the work of a tenant reset may touch. -/
def resetParts : List Part :=
  [.tenants, .views, .jobs, .loft, .rings, .subs, .recorder, .boot, .timebase, .net, .diskq, .keys, .cascade, .out]

theorem keepsBut_of_besidesReset {s z : State} (h : z.besidesReset = s.besidesReset) : KeepsBut resetParts s z := by
  simp only [State.besidesReset, State.mk.injEq, true_and] at h
  obtain ⟨-, -, howner, hrights, hspi, -, hrest⟩ := h
  simpa [KeepsBut, resetParts] using ⟨howner, hrights, hspi, hrest⟩

/-- A change of one element that a map does not see. -/
theorem map_upd {α β : Type} {n : Nat} {g : α → β} {f : α → α} (h : ∀ a, g (f a) = g a) (v : Vector α n) (i : Nat) :
    (upd v i f).map g = v.map g := by
  unfold upd
  split
  · ext j hj
    simp only [Vector.getElem_map, Vector.getElem_set]
    split
    · next e => subst e; exact h _
    · rfl
  · rfl

/-- Vectors that a map sees as equal have elements that it sees as equal. -/
theorem vat_of_map {α β : Type} [Inhabited α] {n : Nat} {g : α → β} {v w : Vector α n} (h : v.map g = w.map g) (i : Nat) :
    g (vat v i) = g (vat w i) := by
  by_cases hi : i < n
  · have hv := congrArg (fun x : Vector β n => x[i]) h
    simpa [vat, hi] using hv
  · simp [vat, hi]

theorem ten_of_besidesReset {s z : State} (h : z.besidesReset = s.besidesReset) (t : Nat) :
    (z.ten t).besidesCounts = (s.ten t).besidesCounts := vat_of_map (congrArg State.tenants h :) t

theorem view_of_besidesReset {s z : State} (h : z.besidesReset = s.besidesReset) (t : Nat) :
    (z.view t).besidesLatches = (s.view t).besidesLatches := vat_of_map (congrArg State.views h :) t

theorem updTen_besidesReset {f : Tenant → Tenant} (hf : ∀ x, (f x).besidesCounts = x.besidesCounts) (t : Nat) (s : State) :
    (s.updTen t f).besidesReset = s.besidesReset := by
  simp only [State.besidesReset, State.updTen_tenants, map_upd hf]
  rfl

theorem updView_besidesReset {f : View → View} (hf : ∀ v, (f v).besidesLatches = v.besidesLatches) (t : Nat) (s : State) :
    (s.updView t f).besidesReset = s.besidesReset := by
  simp only [State.besidesReset, State.updView_views, map_upd hf]
  rfl

/-- A raise changes of a view its latches, its counters and its pending vectors (R242, R266). -/
theorem raiseSrc_besidesReset (src : Nat) (s : State) : (raiseSrc src s).besidesReset = s.besidesReset := by
  have hgo (t : Nat) (y : State) : (goPending t src y).besidesReset = y.besidesReset := by
    unfold goPending
    dsimp only
    split
    · rfl
    · split
      · exact updView_besidesReset (fun _ => by rfl) ..
      · rfl
  have hview (t : Nat) (y : State) : (raiseView t src y).besidesReset = y.besidesReset := by
    have hlatch : (y.updView t (View.latched src)).besidesReset = y.besidesReset := updView_besidesReset (fun _ => by rfl) ..
    rw [raiseView_eq]
    split
    · exact hlatch
    · exact (hgo ..).trans hlatch
  unfold raiseSrc
  split
  · rfl
  · exact foldl_keep State.besidesReset _ hview _ s

theorem unmoved_besidesReset : Unmoved State.besidesReset where
  emit _ _ := rfl
  raise := raiseSrc_besidesReset
  recorder _ _ := rfl
  deferral _ _ := rfl
  report _ _ _ := rfl
  lane _ _ _ := rfl
  key _ _ _ := rfl
  ring _ _ _ := rfl
  loft _ _ := rfl
  jobs _ _ := rfl
  held s t := updTen_besidesReset (fun _ => by rfl) t s

/-! ### The steps of Table TEN.12 -/

theorem closeRings_besidesReset (t : Nat) (s : State) : (closeRings t s).besidesReset = s.besidesReset := by
  have hdiscard (k : Nat) (y : State) :
      (y.updTen t fun x => { x with discarded := x.discarded + k }).besidesReset = y.besidesReset :=
    updTen_besidesReset (fun _ => by rfl) ..
  unfold closeRings
  refine foldl_keep State.besidesReset _ (fun n y => ?_) _ s
  simp only [apply_ite State.besidesReset, unmoved_besidesReset.through_closeRing, hdiscard, ite_self]

/-- The end of a disk command changes the queue, and what a completion changes (R625, R629). -/
theorem endCmd_besidesReset (c : DiskCmd) (s : State) : (endCmd c s).besidesReset = s.besidesReset := by
  have hpoison (b : Prop) [Decidable b] (y : State) :
      (if b then y else poisonUndelivered c y).besidesReset = y.besidesReset := by
    unfold poisonUndelivered
    split
    · rfl
    · split
      · rfl
      · exact foldl_keep State.besidesReset _ (fun _ _ => by rfl) _ y
  have hkey (b : Prop) [Decidable b] (i l : Nat) (y : State) :
      (if b then keyEnd i l y else y).besidesReset = y.besidesReset := by split <;> rfl
  unfold endCmd
  dsimp only
  split
  · rfl
  · rw [unmoved_besidesReset.through_completeSub, unmoved_besidesReset.through_unpinAll, hkey, hkey, hpoison]
    rfl

theorem abortCmd_besidesReset (st : Nat) (s : State) (id : Nat) : (abortCmd st s id).besidesReset = s.besidesReset := by
  unfold abortCmd
  split
  · rfl
  · dsimp only
    split
    · exact endCmd_besidesReset ..
    · rfl

theorem abortWork_besidesReset (t : Nat) (s : State) : (abortWork t s).besidesReset = s.besidesReset := by
  refine (foldl_keep State.besidesReset _ (fun id y => abortCmd_besidesReset _ y id) _ _).trans ?_
  exact updTen_besidesReset (fun _ => by rfl) t s

theorem dropFrames_besidesReset (t : Nat) (s : State) : (dropFrames t s).besidesReset = s.besidesReset := by
  refine foldl_keep State.besidesReset _ (fun n y => ?_) _ s
  dsimp only
  refine (foldl_keep State.besidesReset _ (fun _ _ => unmoved_besidesReset.through_unpinAll ..) _ _).trans ?_
  exact updTen_besidesReset (fun _ => by rfl) ..

theorem clearTimIn_besidesReset (t : Nat) (s : State) : (clearTimIn t s).besidesReset = s.besidesReset := by
  unfold clearTimIn
  split <;> rfl

theorem freeHeld_besidesReset (t : Nat) (s : State) : (freeHeld t s).besidesReset = s.besidesReset := by
  refine foldl_keep State.besidesReset _ (fun i y => ?_) _ s
  split
  · exact unmoved_besidesReset.through_freeYealm ..
  · rfl

/-- A tenant as its reset begins. -/
def Tenant.resetBegun (up cause : Nat) (disable : Bool) (x : Tenant) : Tenant :=
  { x with state := .resetting, resets := inc32 x.resets, lastReset := cause, resetStart := up, resetDisable := disable, discarded := 0
           aborted := 0, outstanding := none, awaiting := 0, abuseTotal := 0, abuseTimes := [], abuseLogged := none, foreignAperture := 0
           foreignRing := 0 }

/-- A reset that begins marks its tenant; the rest is the work of Table TEN.12. -/
theorem beginReset_besidesReset (t cause : Nat) (disable : Bool) (s : State) :
    (beginReset t cause disable s).besidesReset = (s.updTen t (Tenant.resetBegun s.up cause disable)).besidesReset := by
  simp only [beginReset, freeHeld_besidesReset, clearTimIn_besidesReset, dropFrames_besidesReset, abortWork_besidesReset,
    closeRings_besidesReset]
  rfl

/-! ### A reset that begins (R194, R213, R215, R223) -/

/-- A tenant's reset has begun: its state, its count, its time and its LAST_RESET code. -/
abbrev ResetBegun (n cause : Nat) (s z : State) : Prop :=
  (z.ten n).state = .resetting ∧ (z.ten n).resets = inc32 (s.ten n).resets ∧ (z.ten n).resetStart = s.up ∧
    (z.ten n).lastReset = cause

/-- A tenant that reads, but for its counts, as its reset has begun. -/
theorem resetBegun_of_tenant {n cause : Nat} {disable : Bool} {s z : State}
    (h : (z.ten n).besidesCounts = ((s.ten n).resetBegun s.up cause disable).besidesCounts) : ResetBegun n cause s z :=
  ⟨(congrArg Tenant.state h :), (congrArg Tenant.resets h :), (congrArg Tenant.resetStart h :), (congrArg Tenant.lastReset h :)⟩

/-- A reset that begins: its tenant, but for its counts. -/
theorem ten_beginReset {n : Nat} (hn : n < 8) (cause : Nat) (disable : Bool) (s : State) :
    ((beginReset n cause disable s).ten n).besidesCounts = ((s.ten n).resetBegun s.up cause disable).besidesCounts := by
  rw [ten_of_besidesReset (beginReset_besidesReset ..)]
  exact congrArg Tenant.besidesCounts (vat_upd_self _ _ _ hn)

/-- A reset that begins leaves the other parts. -/
theorem keepsBut_beginReset (n cause : Nat) (disable : Bool) (s : State) : KeepsBut resetParts s (beginReset n cause disable s) :=
  keepsBut_trans (by simp [KeepsBut, resetParts]) (keepsBut_of_besidesReset (beginReset_besidesReset ..))

/-- A READY or FAULTED tenant is reset. -/
theorem resetTenant_eq {n : Nat} {s : State} (h : (s.ten n).state = .ready ∨ (s.ten n).state = .faulted) (cause : Nat) :
    resetTenant n cause s = beginReset n cause false s := if_pos h

/-- Only the word 0x5E70 written to the register starts a reset (R194). -/
theorem exec_tenResetWrite_other {v : BitVec 32} (hv : v ≠ 0x5E70#32) (n : Fin 8) (s : State) :
    exec (.tenResetWrite n v) s = .next s := by
  have hne : v.toNat ≠ 0x5E70 := fun e => hv (BitVec.eq_of_toNat_eq e)
  refine running_of_fixed (if_neg fun ⟨e, _⟩ => hne e)

theorem exec_tenResetWrite {n : Fin 8} {s : State} (hp : s.powered = true) (ho : ownOpen s n.val = true)
    (h : (s.ten n).state = .ready ∨ (s.ten n).state = .faulted) :
    exec (.tenResetWrite n 0x5E70#32) s = .next (beginReset n 1 false s) := by
  have hwrite : tenResetWrite n.val 0x5E70 s = resetTenant n.val 1 s := if_pos ⟨rfl, ho⟩
  exact (running_next hp).trans (congrArg _ (hwrite.trans (resetTenant_eq h 1)))

/-! ### Resets of a function (R213; log entry 73) -/

/-- The reset of a function touches its view alone. -/
theorem keepsBut_resetFunction (t : Nat) (s : State) : KeepsBut resetParts s (resetFunction t s) := by
  simp [KeepsBut, resetParts, resetFunction]

/-- A function-level reset disables MSI-X of the function and begins its tenant's reset. -/
theorem exec_functionLevelReset {n : Fin 8} {s : State} (hp : s.powered = true) (hh : s.supply.isl.host = true)
    (h : (s.ten n).state = .ready ∨ (s.ten n).state = .faulted) :
    ∃ z, exec (.functionLevelReset n) s = .next z ∧ ResetBegun n 4 s z ∧ (z.view n).msixEnable = false ∧
      KeepsBut resetParts s z := by
  refine ⟨beginReset n 4 false (resetFunction n s), ?_, resetBegun_of_tenant (ten_beginReset n.isLt 4 false _), ?_,
    keepsBut_trans (keepsBut_resetFunction ..) (keepsBut_beginReset ..)⟩
  · refine (running_next hp).trans (congrArg _ ?_)
    rw [if_pos hh]
    exact resetTenant_eq (s := resetFunction n s) h 4
  · have hview := congrArg View.msixEnable (view_of_besidesReset (beginReset_besidesReset n.val 4 false (resetFunction n s)) n)
    have hoff : (resetFunction n s).view n =
      { s.view n with msixEnable := false, msix := Vector.replicate 16 {}, pba := 0 } := vat_upd_fin ..
    exact hview.trans (congrArg View.msixEnable hoff)

/-- PERST_N at one function: the SPI tenant's function alone is reset without its tenant (R187, R213). -/
def perstFunction (s : State) (t : Nat) : State :=
  if t = spiTenant s then resetFunction t s else resetTenant t 5 (resetFunction t s)

/-- A tenant that PERST_N reaches, READY or FAULTED, begins its reset; another stays. -/
theorem perstFunction_besidesReset (s : State) (t : Nat) :
    ∃ f : Tenant → Tenant, (perstFunction s t).besidesReset = ((resetFunction t s).updTen t f).besidesReset := by
  unfold perstFunction resetTenant
  split
  · exact ⟨id, (updTen_besidesReset (fun _ => rfl) ..).symm⟩
  · split
    · exact ⟨_, beginReset_besidesReset ..⟩
    · exact ⟨id, (updTen_besidesReset (fun _ => rfl) ..).symm⟩

theorem ten_perstFunction_of_ne {s : State} {t n : Nat} (h : t ≠ n) :
    ((perstFunction s t).ten n).besidesCounts = (s.ten n).besidesCounts := by
  obtain ⟨f, hf⟩ := perstFunction_besidesReset s t
  rw [ten_of_besidesReset hf]
  exact congrArg Tenant.besidesCounts (vat_upd_ne _ _ _ _ h)

theorem keepsBut_perstFunction (s : State) (t : Nat) : KeepsBut resetParts s (perstFunction s t) := by
  obtain ⟨f, hf⟩ := perstFunction_besidesReset s t
  have htenant : KeepsBut resetParts (resetFunction t s) ((resetFunction t s).updTen t f) := by simp [KeepsBut, resetParts]
  exact keepsBut_trans (keepsBut_resetFunction ..) (keepsBut_trans htenant (keepsBut_of_besidesReset hf))

/-- The strap that names the SPI tenant stays, so that the SPI tenant does. -/
theorem spiTenant_perstFunction (s : State) (t : Nat) : spiTenant (perstFunction s t) = spiTenant s := by
  obtain ⟨f, hf⟩ := perstFunction_besidesReset s t
  have hspi : (perstFunction s t).boot.spi7 = s.boot.spi7 := (congrArg (fun x : State => x.boot.spi7) hf :)
  rw [spiTenant, spiTenant, hspi]

/-- PERST_N at a list of functions. -/
def perstFunctions (l : List Nat) (s : State) : State := l.foldl perstFunction s

theorem ten_perstFunctions_of_not_mem {n : Nat} {l : List Nat} (h : n ∉ l) (s : State) :
    ((perstFunctions l s).ten n).besidesCounts = (s.ten n).besidesCounts := by
  induction l generalizing s with
  | nil => rfl
  | cons t l ih =>
    obtain ⟨ht, hl⟩ := List.ne_and_not_mem_of_not_mem_cons h
    exact (ih hl _).trans (ten_perstFunction_of_ne (Ne.symm ht))

theorem keepsBut_perstFunctions (l : List Nat) (s : State) : KeepsBut resetParts s (perstFunctions l s) :=
  foldl_ok (KeepsBut resetParts s) _ (fun t _ h => keepsBut_trans h (keepsBut_perstFunction _ t)) l s (keepsBut_refl ..)

/-- Of the functions each is reached once: a READY or FAULTED tenant that SPI does not serve begins its reset. -/
theorem resetBegun_perstFunctions {n : Nat} (hn : n < 8) {l : List Nat} (hl : l.Nodup) (hmem : n ∈ l) {s : State}
    (hspi : n ≠ spiTenant s) (h : (s.ten n).state = .ready ∨ (s.ten n).state = .faulted) :
    ResetBegun n 5 s (perstFunctions l s) := by
  obtain ⟨l1, l2, rfl⟩ := List.append_of_mem hmem
  obtain ⟨-, hafter, hdisj⟩ := List.nodup_append.1 hl
  have h1 : n ∉ l1 := fun e => hdisj n e n List.mem_cons_self rfl
  have h2 : n ∉ l2 := (List.nodup_cons.1 hafter).1
  let y := perstFunctions l1 s
  have hten : (y.ten n).besidesCounts = (s.ten n).besidesCounts := ten_perstFunctions_of_not_mem h1 s
  have hstate : (y.ten n).state = (s.ten n).state := (congrArg Tenant.state hten :)
  have hup : y.up = s.up := foldl_keep State.up _
    (fun t z => by obtain ⟨f, hf⟩ := perstFunction_besidesReset z t; exact (congrArg State.up hf :)) l1 s
  have hspi' : n ≠ spiTenant y := fun e =>
    hspi (e.trans (foldl_keep spiTenant _ (fun t z => spiTenant_perstFunction z t) l1 s))
  have hself : perstFunction y n = beginReset n 5 false (resetFunction n y) :=
    (if_neg hspi').trans (resetTenant_eq (s := resetFunction n y) (hstate.symm ▸ h) 5)
  have hsplit : perstFunctions (l1 ++ n :: l2) s = perstFunctions l2 (beginReset n 5 false (resetFunction n y)) := by
    rw [← hself, perstFunctions, List.foldl_append]
    rfl
  rw [hsplit]
  refine resetBegun_of_tenant (disable := false) ((ten_perstFunctions_of_not_mem h2 _).trans ((ten_beginReset hn ..).trans ?_))
  have hcounts (up : Nat) (x : Tenant) :
      (x.resetBegun up 5 false).besidesCounts = (x.besidesCounts.resetBegun up 5 false).besidesCounts := rfl
  rw [hcounts, hcounts _ (s.ten n), ← hten, ← hup]
  rfl

/-- The levels that PERST_N at the ball leaves; a hot reset leaves the ball and the link. -/
def perstLevels (hot : Bool) (s : State) : State := if hot then s else s.updSup fun x => { x with perstN := false, pcieUp := false }

/-- PERST_N and a hot reset reset every function that the PCIe link serves (R187, R213). -/
theorem exec_perstN {hot : Bool} {n : Fin 8} {s : State} (hp : s.powered = true) (hh : s.supply.isl.host = true)
    (h : (s.ten n).state = .ready ∨ (s.ten n).state = .faulted) (hspi : n.val ≠ spiTenant s) :
    ∃ z, exec (.perstN hot) s = .next z ∧ ResetBegun n 5 s z ∧ z.supply = (perstLevels hot s).supply ∧
      KeepsBut resetParts (perstLevels hot s) z := by
  have hexec : exec (.perstN hot) s = .next (perstFunctions (List.range 8) (perstLevels hot s)) := by
    refine congrArg Host.Outcome.next (if_neg ?_)
    simp [hp, hh]
  have hlevels : (perstLevels hot s).tenants = s.tenants ∧ (perstLevels hot s).up = s.up ∧ (perstLevels hot s).boot = s.boot := by
    cases hot <;> exact ⟨rfl, rfl, rfl⟩
  obtain ⟨htens, hup, hboot⟩ := hlevels
  have hten := ten_of_tenants htens n
  have hspi' : n.val ≠ spiTenant (perstLevels hot s) := by rwa [spiTenant, hboot]
  have hbegun := resetBegun_perstFunctions n.isLt List.nodup_range (List.mem_range.2 n.isLt) hspi' (hten.symm ▸ h)
  rw [ResetBegun, hten, hup] at hbegun
  have hkept := keepsBut_perstFunctions (List.range 8) (perstLevels hot s)
  obtain ⟨-, -, -, -, -, -, -, -, -, -, -, hsupply, -⟩ := id hkept
  exact ⟨_, hexec, hbegun, hsupply.resolve_left (by decide), hkept⟩

/-! ### TEN_RESET (R223) -/

/-- A served request that writes no response leaves what its effect leaves. -/
theorem command_silent {cmd : Cmd} {c : Call} {s s1 : State} (h : Served cmd c s)
    (hr : cmd.run (begun cmd.op c s) c.t.val c.payload = .silent s1) : command cmd c s = .next s1 := by
  rw [command_served h]
  have hchecks := h.2
  simp only [callReq] at hchecks ⊢
  simp only [execute, hchecks, hr, answer]

/-- TEN_RESET of the tenant that asks gives no answer: its mailbox stays BUSY until the reset ends. -/
theorem exec_tenReset_own {c : Call} {s : State} (h : Served cmdTenReset c s) (hn : namedTenant c.t.val c.payload = c.t.val) :
    ∃ z, exec (.tenReset c) s = .next z ∧ ResetBegun c.t 2 s z ∧ (z.ten c.t).busy = true ∧ KeepsBut resetParts s z := by
  have hrun : cmdTenReset.run (begun 0x0201 c s) c.t.val c.payload = .silent (beginReset c.t 2 false (begun 0x0201 c s)) := by
    simp only [cmdTenReset, hn, if_true]
  obtain ⟨b, sp, hb⟩ := begun_ten 0x0201 c s c.t
  rw [if_pos rfl] at hb
  have hten := ten_beginReset c.t.isLt 2 false (begun 0x0201 c s)
  have hbegun := resetBegun_of_tenant hten
  rw [ResetBegun, hb] at hbegun
  have hbusy : ((beginReset c.t 2 false (begun 0x0201 c s)).ten c.t).busy = ((begun 0x0201 c s).ten c.t).busy :=
    (congrArg Tenant.busy hten :)
  refine ⟨_, command_silent h hrun, hbegun, hbusy.trans (by rw [hb]), ?_⟩
  exact keepsBut_trans (by simp [KeepsBut, resetParts]) (keepsBut_beginReset ..)

/-- TEN_RESET of another tenant by tenant 0 is accepted, and its token ends with the reset. -/
theorem exec_tenReset_other {c : Call} {n : Nat} {s : State} (h : Served cmdTenReset c s) (ha : MayAccept c s)
    (hn : n = namedTenant c.t.val c.payload) (hne : n ≠ c.t.val) (hst : (s.ten n).state ≠ .resetting) :
    ∃ z, exec (.tenReset c) s = .next z ∧ ResetBegun n 3 s z ∧ AcceptedAs c 0x0201 (fun j => j.key == n && j.waits) z ∧
      KeepsBut resetParts s z := by
  have hfields := fields_of_checks h.2
  simp only [cmdTenReset, callReq, Bool.and_eq_true, decide_eq_true_eq, ← hn] at hfields
  obtain ⟨⟨hlt, -⟩, -⟩ := hfields
  have hrun : cmdTenReset.run (begun 0x0201 c s) c.t.val c.payload =
      .accept { key := n, waits := true } (beginReset n 3 false (begun 0x0201 c s)) := by
    simp only [cmdTenReset, ← hn, hne, begun_ten_state, hst, if_false]
  have hbegun : (begun 0x0201 c s).ten n = s.ten n := by
    obtain ⟨b, sp, hb⟩ := begun_ten 0x0201 c s n
    rwa [if_neg hne] at hb
  have hreset := resetBegun_of_tenant (ten_beginReset (n := n) (by omega) 3 false (begun 0x0201 c s))
  rw [ResetBegun, hbegun] at hreset
  have hkept := keepsBut_beginReset n 3 false (begun 0x0201 c s)
  generalize beginReset n 3 false (begun 0x0201 c s) = y at *
  have hother (l : List Job) (f : Tenant → Tenant) (r : Rsp) :
      (respond c.t.val r { y.updTen c.t.val f with jobs := l }).ten n = y.ten n :=
    (respond_ten_ne _ _ _ _ (Ne.symm hne)).trans (vat_upd_ne _ _ _ _ (Ne.symm hne))
  refine ⟨_, command_accept h ha hrun, ?_, accepted_respond _ _ _ _ _ _ _ (by simp), ?_⟩
  · rw [ResetBegun, hother]
    exact hreset
  · exact keepsBut_respond_begun (op := 0x0201) (c := c) (by decide)
      (keepsBut_trans hkept (by simp [KeepsBut, resetParts])) ..

/-! ### A reset that ends (R215, R224, R227, R262) -/

/-- A tenant as its reset, or its disabling, has ended. -/
def Tenant.resetEnded (x : Tenant) : Tenant :=
  { x with state := if x.resetDisable then .absent else .ready, mbReq := zeros 256, rsp := none, busy := false, rspReady := false
           refused := false, transport := false, lastSeq := 0, faultCause := 0, faultCount := 0, requests := 0, resetDisable := false }

/-- A view as its tenant's reset has ended: nothing latched, every source masked. -/
def View.resetEnded (v : View) : View := { v with raw := 0, mask := BitVec.allOnes 128, count := Vector.replicate 128 0 }

/-- The window and the view of a tenant take their reset values; a disabled tenant's services move to tenant 0. -/
def windowReset (t : Nat) (s : State) : State :=
  let y := (s.updTen t Tenant.resetEnded).updView t View.resetEnded
  if (s.ten t).resetDisable then stripServices t y else y

/-- After the window the end of a reset is a record and a completion, or a completion alone (R954). -/
theorem endReset_kept {γ : Type} {p : State → γ} (hcrumb : ∀ code sev ten b y, p (crumb code sev ten b y) = p y)
    (hfinish : ∀ op key st b y, p (finish op key st b y) = p y) (t : Nat) (s : State) :
    p (endReset t s) = p (windowReset t s) := by
  unfold endReset
  dsimp only
  rw [hfinish]
  split
  · rfl
  · exact hcrumb ..

/-- Services that move change no tenant and no view. -/
theorem windowReset_ten_view (t : Fin 8) (s : State) :
    (windowReset t s).ten t = (s.ten t).resetEnded ∧ (windowReset t s).view t = (s.view t).resetEnded := by
  have hten : (windowReset t s).tenants = upd s.tenants t Tenant.resetEnded := by
    unfold windowReset
    split <;> rfl
  have hview : (windowReset t s).views = upd s.views t View.resetEnded := by
    unfold windowReset
    split <;> rfl
  rw [State.ten, hten, State.view, hview]
  exact ⟨vat_upd_fin .., vat_upd_fin ..⟩

theorem keepsBut_windowReset (t : Nat) (s : State) :
    KeepsBut [.tenants, .views, .svcOwner, .svcRights] s (windowReset t s) := by
  have hstrip (b : Bool) (y : State) :
      KeepsBut [.tenants, .views, .svcOwner, .svcRights] y (if b then stripServices t y else y) := by
    cases b <;> simp [KeepsBut, stripServices]
  refine keepsBut_trans ?_ (hstrip ..)
  simp [KeepsBut]

/-- TENANT_RESET_COMPLETE of a tenant without work left ends its reset (R215). -/
theorem exec_tenantResetComplete_eq {n : Fin 8} {s : State} (hp : s.powered = true) (hst : (s.ten n).state = .resetting)
    (hw : workLeft s n = false) : exec (.tenantResetComplete n) s = .next (endReset n s) := by
  have hrow : exec (.tenantResetComplete n) s = execTenantResetComplete n s := rfl
  rw [hrow, execTenantResetComplete, running_next hp, hst, hw]
  simp only [beq_self_eq_true, Bool.not_false, Bool.true_or, Bool.and_self, if_true]

/-- TENANT_RESET_COMPLETE of a tenant without work left. -/
theorem exec_tenantResetComplete {n : Fin 8} {s : State} (hp : s.powered = true) (hst : (s.ten n).state = .resetting)
    (hw : workLeft s n = false) :
    ∃ z, exec (.tenantResetComplete n) s = .next z ∧
      (z.ten n).besidesCounts = (s.ten n).resetEnded.besidesCounts ∧
      (z.view n).besidesLatches = (s.view n).resetEnded.besidesLatches ∧
      KeepsBut [.tenants, .views, .svcOwner, .svcRights, .jobs, .loft, .rings, .recorder, .boot, .keys, .cascade, .out] s z := by
  have hreset : (endReset n s).besidesReset = (windowReset n s).besidesReset :=
    endReset_kept (fun _ _ _ _ _ => unmoved_besidesReset.through_crumb ..)
      (fun _ _ _ _ _ => unmoved_besidesReset.through_finish ..) n s
  have hcompletions : (endReset n s).besidesCompletions = (windowReset n s).besidesCompletions :=
    endReset_kept (fun _ _ _ _ _ => crumb_besidesCompletions ..) (fun _ _ _ _ _ => finish_besidesCompletions ..) n s
  obtain ⟨hten, hview⟩ := windowReset_ten_view n s
  refine ⟨endReset n s, exec_tenantResetComplete_eq hp hst hw, ?_, ?_, ?_⟩
  · rw [ten_of_besidesReset hreset, hten]
  · rw [view_of_besidesReset hreset, hview]
  · exact keepsBut_trans (keepsBut_mono (by decide) (keepsBut_windowReset n s))
      (keepsBut_mono (by decide) (keepsBut_of_besidesCompletions hcompletions))

/-- Settles O12: each start of a reset is `beginReset`, whose work leaves the tenant as its reset has begun but for its
counts (`beginReset_besidesReset`); its end is `windowReset` with a record and a completion. -/
theorem tenantResetsBeginAndEnd : Obligations.TenantResetsBeginAndEnd := by
  unfold Obligations.TenantResetsBeginAndEnd
  refine ⟨fun n v s hp hv ho h => ?_, fun n v s hv => ⟨s, exec_tenResetWrite_other hv n s, rfl⟩, fun n s hp hh h => ?_,
    fun hot n s hp hh h hspi => ?_, fun c n s h hn ht => ?_, fun c n s h ha hn hne hst => ?_, fun n s hp hst hw => ?_⟩
  · subst hv
    obtain ⟨hstate, hresets, hstart, hcode⟩ := resetBegun_of_tenant (ten_beginReset n.isLt 1 false s)
    exact ⟨_, exec_tenResetWrite hp ho h, hstate, hresets, hstart, hcode, keepsBut_beginReset ..⟩
  · obtain ⟨z, hz, ⟨hstate, hresets, hstart, hcode⟩, hmsix, hkept⟩ := exec_functionLevelReset hp hh h
    exact ⟨z, hz, hstate, hresets, hstart, hcode, hmsix, hkept⟩
  · obtain ⟨z, hz, ⟨hstate, hresets, hstart, hcode⟩, hsupply, hkept⟩ := exec_perstN (hot := hot) hp hh h hspi
    refine ⟨z, hz, hstate, hresets, hstart, hcode, fun e => ?_, fun e => ?_, ?_⟩
    · subst e; exact hsupply
    · subst e; exact hsupply
    · have hlevels : KeepsBut [.supply] s (perstLevels hot s) := by cases hot <;> simp [KeepsBut, perstLevels]
      exact keepsBut_trans (keepsBut_mono (by decide) hlevels) (keepsBut_mono (by decide) hkept)
  · obtain ⟨z, hz, ⟨hstate, hresets, hstart, hcode⟩, hbusy, hkept⟩ := exec_tenReset_own h (hn.symm.trans ht)
    subst ht
    exact ⟨z, hz, hstate, hresets, hstart, hcode, hbusy, hkept⟩
  · obtain ⟨z, hz, ⟨hstate, hresets, hstart, hcode⟩, hacc, hkept⟩ := exec_tenReset_other h ha hn hne hst
    exact ⟨z, hz, hstate, hresets, hstart, hcode, hacc, hkept⟩
  · obtain ⟨z, hz, hten, hview, hkept⟩ := exec_tenantResetComplete hp hst hw
    exact ⟨z, hz, (congrArg Tenant.state hten :), (congrArg Tenant.mbReq hten :), (congrArg Tenant.rsp hten :),
      (congrArg Tenant.busy hten :), (congrArg Tenant.faultCause hten :), (congrArg View.mask hview :),
      (congrArg View.route hview :), hkept⟩

end Sys2Proof.Machine
end

section
/-! ## Mode changes and the requests on the supply (R222, R991, R998 to R1007, R1019) -/
namespace Sys2Proof.Machine
open Sys2Proof

/-! ### A raise does not look at the supply, but for the host island -/

theorem ite_updSup (c : Prop) [Decidable c] (a b : State) (f : Supply → Supply) :
    (if c then a else b).updSup f = if c then a.updSup f else b.updSup f :=
  apply_ite (fun s : State => s.updSup f) ..

theorem goPending_updSup (t src : Nat) (f : Supply → Supply) (s : State) :
    goPending t src (s.updSup f) = (goPending t src s).updSup f := by
  simp only [goPending, ite_updSup]
  rfl

theorem raiseView_updSup (t src : Nat) (f : Supply → Supply) (s : State) :
    raiseView t src (s.updSup f) = (raiseView t src s).updSup f := by
  simp only [raiseView, ite_updSup, ← goPending_updSup]
  rfl

theorem foldl_raiseView_updSup (src : Nat) (l : List Nat) (f : Supply → Supply) (s : State) :
    l.foldl (fun s t => raiseView t src s) (s.updSup f) = (l.foldl (fun s t => raiseView t src s) s).updSup f := by
  induction l generalizing s with
  | nil => rfl
  | cons t l ih => simp only [List.foldl_cons, raiseView_updSup, ih]

/-- A raise goes through a change of the supply that keeps the host island as it is (R265). -/
theorem raiseSrc_updSup {f : Supply → Supply} (hf : ∀ x, (f x).isl.host = x.isl.host) (src : Nat) (s : State) :
    raiseSrc src (s.updSup f) = (raiseSrc src s).updSup f := by
  have hhost : (s.updSup f).supply.isl.host = s.supply.isl.host := hf _
  have hl : latches (s.updSup f) src = latches s src := rfl
  simp only [raiseSrc, hhost, hl, ite_updSup, ← foldl_raiseView_updSup]
  rfl

/-- The answer to a request that changed such a part of the supply rings as the answer to one that read. -/
theorem rang_respond_updSup {f : Supply → Supply} (hf : ∀ x, (f x).isl.host = x.isl.host) (op : Nat) (c : Call) (r : Rsp)
    (s : State) : Rang (32 + c.t.val) s (respond c.t.val r ((begun op c s).updSup f)) := by
  obtain ⟨hviews, hout⟩ := rang_respond c.t.val r ((begun op c s).updSup f)
  obtain ⟨hviews', hout'⟩ := rang_respond c.t.val r (begun op c s)
  obtain ⟨-, hread⟩ := readsOnly_respond op c r s
  rw [raiseSrc_updSup hf] at hviews hout
  exact ⟨hviews.trans (hviews'.symm.trans hread.1), hout.trans (hout'.symm.trans hread.2)⟩

/-! ### Islands that stop and start (R88, R998, R1078) -/

/-- Islands that do not run are as they would be stopped. -/
theorem Islands.eq_of_disk_off {i : Islands} (hc : i.channel = false) (hs : i.servo = false) :
    { i with channel := false, servo := false } = i := by
  cases i
  cases hc
  cases hs
  rfl

theorem Islands.eq_of_radio_off {i : Islands} (h : i.radio = false) : { i with radio := false } = i := by
  cases i
  cases h
  rfl

theorem stopChannel_supply (s : State) :
    (stopChannel s).supply = { s.supply with isl := { s.supply.isl with channel := false, servo := false } } := by
  unfold stopChannel
  split
  · next h =>
    obtain ⟨hc, hs⟩ := h
    simp only [Bool.not_eq_true'] at hc hs
    rw [Islands.eq_of_disk_off hc hs]
  · rfl

theorem stopRadio_supply (s : State) : (stopRadio s).supply = { s.supply with isl := { s.supply.isl with radio := false } } := by
  unfold stopRadio
  split
  · next h =>
    simp only [Bool.not_eq_true'] at h
    rw [Islands.eq_of_radio_off h]
  · rfl

/-- The channel island runs when it ran or SD_REFCLK is there; of the rest of the supply only islands change. -/
theorem startChannel_supply (s : State) : ∃ servo, (startChannel s).supply =
    { s.supply with isl := { s.supply.isl with channel := s.supply.isl.channel || s.supply.sdRefclk, servo := servo } } := by
  unfold startChannel
  split
  · next h =>
    refine ⟨s.supply.isl.servo, ?_⟩
    have hc : (s.supply.isl.channel || s.supply.sdRefclk) = s.supply.isl.channel := by
      rcases h with h | h <;> simp_all
    rw [hc]
  · next h =>
    refine ⟨true, ?_⟩
    have hc : (s.supply.isl.channel || s.supply.sdRefclk) = true := by simp_all
    rw [hc]
    rfl

theorem startRadio_supply (s : State) :
    ∃ radio, (startRadio s).supply = { s.supply with isl := { s.supply.isl with radio := radio } } := by
  unfold startRadio
  split
  · exact ⟨s.supply.isl.radio, rfl⟩
  · exact ⟨true, rfl⟩

theorem keepsBut_startChannel (s : State) : KeepsBut [.supply, .spars] s (startChannel s) := by
  unfold startChannel
  split
  · exact keepsBut_refl ..
  · simp [KeepsBut, sparResume, State.updIsl]

theorem keepsBut_startRadio (s : State) : KeepsBut [.supply, .spars] s (startRadio s) := by
  unfold startRadio
  split
  · exact keepsBut_refl ..
  · simp [KeepsBut, sparResume, State.updIsl]

/-! ### The mode (R490, R839) -/

theorem keepsBut_stopB (s : State) : KeepsBut [.motor, .views, .out] s (stopB s) := by
  unfold stopB floatB driveStep
  repeat' split
  all_goals simp [KeepsBut, gatesB]

/-- Channel B with its target taken again touches its motor alone. -/
theorem keepsBut_retargetB (s : State) : KeepsBut [.motor, .views, .out] s (retargetB s) := by
  unfold retargetB startB driveB driveStep
  dsimp only
  generalize targetB s = t
  have htarget : KeepsBut [.motor, .views, .out] s (s.updB fun b => { b with target := t }) := by simp [KeepsBut]
  generalize s.updB (fun b => { b with target := t }) = y at htarget ⊢
  repeat' split
  · exact htarget
  · exact keepsBut_trans htarget (keepsBut_stopB y)
  · exact keepsBut_trans htarget (by simp [KeepsBut, gatesB])
  · exact htarget
  · exact htarget

/-- A change of the mode. -/
theorem setMode_supply (m : Mode) (s : State) : (setMode m s).supply = { s.supply with mode := m } := by
  obtain ⟨-, -, -, -, -, -, -, -, -, -, -, hsup, -⟩ := keepsBut_retargetB (s.updSup fun x => { x with mode := m })
  exact hsup.resolve_left (by decide)

theorem keepsBut_setMode (m : Mode) (s : State) : KeepsBut [.supply, .motor, .recorder, .views, .out] s (setMode m s) := by
  have hmode : KeepsBut [.supply, .motor, .recorder, .views, .out] s (s.updSup fun x => { x with mode := m }) := by simp [KeepsBut]
  have hchron (y : State) : KeepsBut [.supply, .motor, .recorder, .views, .out] y (syncChron y) := by simp [KeepsBut, syncChron]
  exact keepsBut_trans hmode (keepsBut_trans (keepsBut_mono (by decide) (keepsBut_retargetB _)) (hchron _))

/-! ### SYS_SET_MODE of tenant 0 (R998, R1002, R1006) -/

/-- Of tenant 0 SYS_SET_MODE sets the mode, of another it asks for it (R222). -/
theorem cmdSysSetMode_run_zero {t : Nat} (h : t = 0) (s : State) (p : Bytes) :
    cmdSysSetMode.run s t p = setModeZero (byteAt p 0) s := if_pos h

theorem cmdSysSetMode_run_other {t : Nat} (h : t ≠ 0) (s : State) (p : Bytes) :
    cmdSysSetMode.run s t p = modeRequest t (byteAt p 0) s := if_neg h

/-- No change is under way, the firmware runs, and no power failure is latched: a mode change may begin (R1002). -/
def ModeFree (s : State) : Prop := s.supply.change = none ∧ s.campel = true ∧ s.supply.pfail = false

theorem setModeZero_current {m : Nat} {s : State} (h : ModeFree s) (hm : m = s.supply.mode.code) (h0 : m ≠ 0) :
    setModeZero m s = .done St.ok [] s := by
  obtain ⟨hch, hc, hp⟩ := h
  simp [setModeZero, hch, hc, hp, ← hm, h0]

theorem setModeZero_run {s : State} (h : ModeFree s) (hm : s.supply.mode = .keep) :
    setModeZero 2 s = .accept { waits := true } (startChange 2 s) := by
  obtain ⟨hch, hc, hp⟩ := h
  simp [setModeZero, hch, hc, hp, hm, Mode.code]

/-- A request for SAFE is a cause of SAFE. -/
def safeRequested (s : State) : State :=
  s.updSup fun x =>
    { x with change := some { target := 3, fromMode := x.mode, isl := x.isl }, safeCause := x.safeCause ||| BitVec.twoPow 8 3 }

theorem setModeZero_safe {s : State} (h : ModeFree s) (hm : s.supply.mode = .keep) :
    setModeZero 3 s = .accept { waits := true } (safeEntry (safeRequested s)) := by
  obtain ⟨hch, hc, hp⟩ := h
  simp [setModeZero, hch, hc, hp, hm, Mode.code, safeRequested]

/-- SAFE is entered at once from a mode but RUN (R1007). -/
theorem safeEntry_eq {s : State} (hm : s.supply.mode ≠ .run) :
    safeEntry s = setMode .safe (s.updSup fun x => { x with safeN := false, safeEntry := some x.mode }) := by
  simp only [safeEntry, if_neg hm]

theorem keepsBut_safeEntry {s : State} (hm : s.supply.mode ≠ .run) :
    KeepsBut [.supply, .motor, .recorder, .views, .out] s (safeEntry s) := by
  have hset : KeepsBut [.supply, .motor, .recorder, .views, .out] s
      (s.updSup fun x => { x with safeN := false, safeEntry := some x.mode }) := by simp [KeepsBut]
  rw [safeEntry_eq hm]
  exact keepsBut_trans hset (keepsBut_setMode ..)

/-- What SAFE entered by request from a mode but RUN leaves. -/
theorem safeEntry_safeRequested {s : State} (hm : s.supply.mode ≠ .run) :
    (safeEntry (safeRequested s)).supply =
        { (safeRequested s).supply with mode := .safe, safeN := false, safeEntry := some s.supply.mode } ∧
      KeepsBut [.supply, .motor, .recorder, .views, .out] s (safeEntry (safeRequested s)) := by
  have hm' : (safeRequested s).supply.mode ≠ .run := hm
  have hset : KeepsBut [.supply, .motor, .recorder, .views, .out] s (safeRequested s) := by simp [KeepsBut, safeRequested]
  refine ⟨?_, keepsBut_trans hset (keepsBut_safeEntry hm')⟩
  rw [safeEntry_eq hm', setMode_supply]
  rfl

/-- A change to RUN is pending, and Miller at its own pace. -/
def runRequested (s : State) : State :=
  (s.updSup fun x =>
    { x with change := some { target := 2, fromMode := x.mode, isl := x.isl }, safeCause := x.safeCause &&& ~~~(BitVec.twoPow 8 3) }).updSup
    fun x => { x with millerSlow := false }

/-- A change to RUN starts islands (Table PWR.6). -/
theorem startChange_run (s : State) : startChange 2 s = startRadio (startChannel (runRequested s)) := rfl

theorem startChange_run_supply (s : State) : ∃ servo radio, (startChange 2 s).supply =
    { (runRequested s).supply with
        isl := { s.supply.isl with channel := s.supply.isl.channel || s.supply.sdRefclk, servo := servo, radio := radio } } := by
  obtain ⟨servo, hchannel⟩ := startChannel_supply (runRequested s)
  obtain ⟨radio, hradio⟩ := startRadio_supply (startChannel (runRequested s))
  refine ⟨servo, radio, ?_⟩
  rw [startChange_run, hradio, hchannel]
  rfl

theorem keepsBut_startChange_run (s : State) : KeepsBut [.supply, .spars] s (startChange 2 s) := by
  have hset : KeepsBut [.supply, .spars] s (runRequested s) := by simp [KeepsBut, runRequested]
  exact keepsBut_trans hset (keepsBut_trans (keepsBut_startChannel _) (keepsBut_startRadio _))

/-- A change to RUN begins. -/
theorem exec_sysSetMode_run {c : Call} {s : State} (h : Served cmdSysSetMode c s) (ha : MayAccept c s) (ht : c.t = 0)
    (hb : byteAt c.payload 0 = 2) (hf : ModeFree s) (hm : s.supply.mode = .keep) :
    ∃ z, exec (.sysSetMode c) s = .next z ∧ AcceptedAs c 0x0102 (fun j => j.waits) z ∧
      z.supply.change = some { target := 2, fromMode := .keep, isl := s.supply.isl } ∧ z.supply.mode = .keep ∧
      z.supply.millerSlow = false ∧ z.supply.isl.channel = (s.supply.isl.channel || s.supply.sdRefclk) ∧
      StartsOnly [.supply, .spars] c s z := by
  have hrun : cmdSysSetMode.run (begun 0x0102 c s) c.t.val c.payload =
      .accept { waits := true } (startChange 2 (begun 0x0102 c s)) := by
    rw [cmdSysSetMode_run_zero (congrArg Fin.val ht), hb]
    exact setModeZero_run hf hm
  have hkept := keepsBut_startChange_run (begun 0x0102 c s)
  obtain ⟨servo, radio, hsup⟩ := startChange_run_supply (begun 0x0102 c s)
  obtain ⟨htens, -, -, -, hjobs, -⟩ := id hkept
  refine ⟨_, command_accept h ha hrun, accepted_respond c 0x0102 { waits := true } _ _ _ _ rfl, ?_, ?_, ?_, ?_,
    startsOnly_respond _ hkept (hjobs.resolve_left (by decide)) (htens.resolve_left (by decide))⟩
  all_goals
    rw [respond_supply]
    simp [hsup, runRequested, hm]

/-- SAFE is entered at once. -/
theorem exec_sysSetMode_safe {c : Call} {s : State} (h : Served cmdSysSetMode c s) (ha : MayAccept c s) (ht : c.t = 0)
    (hb : byteAt c.payload 0 = 3) (hf : ModeFree s) (hm : s.supply.mode = .keep) :
    ∃ z, exec (.sysSetMode c) s = .next z ∧ AcceptedAs c 0x0102 (fun j => j.waits) z ∧ z.supply.mode = .safe ∧
      z.supply.safeN = false ∧ z.supply.safeCause = s.supply.safeCause ||| 8#8 ∧ z.supply.safeEntry = some .keep ∧
      StartsOnly [.supply, .motor, .recorder] c s z := by
  have hrun : cmdSysSetMode.run (begun 0x0102 c s) c.t.val c.payload =
      .accept { waits := true } (safeEntry (safeRequested (begun 0x0102 c s))) := by
    rw [cmdSysSetMode_run_zero (congrArg Fin.val ht), hb]
    exact setModeZero_safe hf hm
  obtain ⟨hsup, hkept⟩ := safeEntry_safeRequested (s := begun 0x0102 c s) (by simp [hm])
  have hcause : (safeRequested (begun 0x0102 c s)).supply.safeCause = s.supply.safeCause ||| 8#8 := rfl
  generalize safeEntry (safeRequested (begun 0x0102 c s)) = y at hrun hsup hkept
  obtain ⟨htens, -, -, -, hjobs, -⟩ := id hkept
  obtain ⟨hparts, hjob, hten⟩ := startsOnly_respond (c := c)
    (localRsp y (callReq c 0x0102) (St.accepted, some (nextToken (y.ten c.t.val)), []))
    hkept (hjobs.resolve_left (by decide)) (htens.resolve_left (by decide))
  refine ⟨_, command_accept h ha hrun, accepted_respond c 0x0102 { waits := true } _ _ _ _ rfl, ?_, ?_, ?_, ?_,
    keepsBut_mono (by decide) hparts, hjob, hten⟩
  all_goals
    rw [respond_supply]
    simp [hsup, hcause, hm]

/-! ### SYS_SET_MODE of another tenant (R163, R222) -/

/-- An event with room in a ring that has lost none takes the next slot (R163). -/
theorem postEvent_eq {t n : Nat} {s : State} (h : eventRing s t = some n) (hl : (s.ring n).lost = 0)
    (hr : canReserve s t = true) (kind code ten : Nat) (d : Bytes) :
    postEvent t kind code ten d s = produce n (eventDesc kind 0 code 0 ten 0 d s.timebase.now) s := by
  simp only [canReserve, h, decide_eq_true_eq] at hr
  simp [postEvent, h, markOverflow, hl, hr]

/-- A mode that another tenant asks for is an event for tenant 0. -/
theorem exec_sysSetMode_other {c : Call} {n : Nat} {s : State} (h : Served cmdSysSetMode c s) (ht : c.t ≠ 0)
    (hr : eventRing s 0 = some n) (hl : (s.ring n).lost = 0) (hroom : canReserve s 0 = true) :
    ∃ z, exec (.sysSetMode c) s = .next z ∧ Answered c 0x0102 St.ok [] z ∧
      EventPosted n (eventDesc 4 0 0x0102 0 c.t.val 0 (leBytes 8 (byteAt c.payload 0)) s.timebase.now) s z ∧
      SetsOnly [.loft, .rings] c s z := by
  have hrings : (begun 0x0102 c s).rings = s.rings := begun_rings ..
  have hring : (begun 0x0102 c s).ring n = s.ring n := ring_of_rings hrings n
  have hr' : eventRing (begun 0x0102 c s) 0 = some n := (eventRing_of_rings hrings 0).trans hr
  generalize hd : eventDesc 4 0 0x0102 0 c.t.val 0 (leBytes 8 (byteAt c.payload 0)) s.timebase.now = d
  have hlen : d.length = 31 := by rw [← hd]; exact length_eventDesc ..
  have hpost := postEvent_eq hr' (by rw [hring]; exact hl) ((canReserve_begun ..).trans hroom) 4 0x0102 c.t.val
    (leBytes 8 (byteAt c.payload 0))
  rw [begun_timebase, hd] at hpost
  have hrun : cmdSysSetMode.run (begun 0x0102 c s) c.t.val c.payload = .done St.ok [] (produce n d (begun 0x0102 c s)) := by
    rw [cmdSysSetMode_run_other (fun e => ht (Fin.ext e)), modeRequest, hr', hpost]
    rfl
  have hread := loftRead_produce (n := n) hlen (begun 0x0102 c s)
  have htail := tail_produce (eventRing_lt hr) d (begun 0x0102 c s)
  have hkept := keepsBut_of_besidesProduction (produce_besidesProduction n d (begun 0x0102 c s))
  obtain ⟨htens, -⟩ := id hkept
  rw [State.slot, hring] at hread
  rw [hring] at htail
  refine ⟨_, command_done h hrun, answered_respond .., ⟨?_, ?_⟩, ?_, ?_⟩
  · rw [loftRead_of_mem (congrArg Loft.mem (respond_loft ..)), hread]
  · rw [ring_of_rings (respond_rings ..), htail]
  · exact keepsBut_respond_begun (op := 0x0102) (c := c) (by decide) (keepsBut_mono (by decide) hkept) ..
  · exact mailboxOnly_respond (htens.resolve_left (by decide)) _

/-! ### SYS_SUPPLY_CONFIG (R991, R1019) -/

/-- A served request that ends at once and changes of the supply what the host island does not see. -/
theorem command_updSup {cmd : Cmd} {c : Call} {s : State} {p : Bytes} {f : Supply → Supply}
    (hf : ∀ x, (f x).isl.host = x.isl.host) (h : Served cmd c s)
    (hr : cmd.run (begun cmd.op c s) c.t.val c.payload = .done St.ok p ((begun cmd.op c s).updSup f)) :
    ∃ z, command cmd c s = .next z ∧ Answered c cmd.op St.ok p z ∧ z.supply = f s.supply ∧ SetsOnly [.supply] c s z ∧
      Rang (32 + c.t.val) s z := by
  refine ⟨_, command_done h hr, answered_respond .., by simp, ⟨?_, ?_⟩, rang_respond_updSup hf ..⟩
  · exact keepsBut_respond_begun (op := cmd.op) (c := c) (by decide) (by simp [KeepsBut]) ..
  · exact mailboxOnly_respond (op := cmd.op) (State.updSup_tenants ..) _

/-! ### SHELF_STOP_TIMEOUT (R515, R1004) -/

theorem spinTo_state (st : SpinState) (s : State) : (spinTo st s).motor.a.state = st := by
  unfold spinTo
  split
  · next h => exact h
  · simp

theorem spinTo_supply (st : SpinState) (s : State) : (spinTo st s).supply = s.supply := by
  unfold spinTo
  split
  · rfl
  · simp

/-- The brake of an emergency: every low side on, the supply left as it is (R491, R515). -/
theorem emergencyBrake_effect (s : State) :
    (emergencyBrake s).motor.a.state = .brake ∧ (emergencyBrake s).motor.a.emergency = true ∧
      .motorStep 0 7 ∈ (emergencyBrake s).out ∧ (emergencyBrake s).supply = s.supply := by
  unfold emergencyBrake
  refine ⟨?_, ?_, ?_, ?_⟩
  · rw [raiseSrc_motor]
    exact spinTo_state .brake s
  · rw [raiseSrc_motor]
    rfl
  · exact mem_raiseSrc_out (List.mem_cons_self ..)
  · rw [raiseSrc_supply]
    exact spinTo_supply .brake s

/-- A spindle that slows down with its heads parked brakes at an emergency stop (R515). -/
theorem emergencyStop_of_decel {s : State} (hd : s.motor.a.state = .decel) (hh : headsLoaded s = false) :
    emergencyStop s = emergencyBrake (finishStart St.notReady s) := by
  have hchannel : (finishStart St.notReady s).channel = s.channel :=
    (congrArg State.channel (finishAll_besidesCompletions 0x0802 0 St.notReady s) :)
  have hheads := (headsLoaded_of_state (congrArg Channel.state hchannel)).trans hh
  simp [emergencyStop, hd, hheads]

/-- Entry to SHELF does not finish while channel A brakes (R1004). -/
theorem shelfFinish_of_brake {s : State} (h : s.motor.a.state = .brake) : shelfFinish s = s := by
  simp [shelfFinish, shelfReady, h]

theorem exec_shelfStopTimeout {n : Nat} {s : State} (hp : s.powered = true)
    (hch : s.supply.change.any (fun c => c.target == 0) = true) (hn : 30 ≤ n) (hh : headsLoaded s = false)
    (hd : s.motor.a.state = .decel) :
    ∃ z, exec (.shelfStopTimeout n) s = .next z ∧ z.motor.a.state = .brake ∧ z.motor.a.emergency = true ∧
      .motorStep 0 7 ∈ z.out ∧ z.supply = s.supply := by
  obtain ⟨hstate, hemergency, hout, hsup⟩ := emergencyBrake_effect (finishStart St.notReady s)
  have hfinish : (finishStart St.notReady s).supply = s.supply :=
    (congrArg State.supply (finishAll_besidesCompletions 0x0802 0 St.notReady s) :)
  have hrow : exec (.shelfStopTimeout n) s = .next (emergencyBrake (finishStart St.notReady s)) := by
    refine (running_next hp).trans (congrArg _ ?_)
    rw [if_pos ⟨hch, hn⟩, emergencyStop_of_decel hd hh, shelfFinish_of_brake hstate]
  exact ⟨_, hrow, hstate, hemergency, hout, hsup.trans hfinish⟩

/-! ### RUN is entered (R520, R680, R1001) -/

theorem sendAtten_retractFixed (prio p code : Nat) (s : State) : (sendAtten prio p code s).retractFixed = s.retractFixed :=
  rfPush_retractFixed ..

theorem unmutePath_retractFixed (p : Nat) (s : State) : (unmutePath p s).retractFixed = s.retractFixed :=
  (sendAtten_retractFixed ..).trans (setBias_retractFixed ..)

theorem syncBand_retractFixed (b : Nat) (s : State) : (syncBand b s).retractFixed = s.retractFixed := by
  have hone (want : Bool) (p : Nat) (y : State) :
      (if want && (y.pathOf p).muted then unmutePath p y else if !want && !(y.pathOf p).muted then mutePath p y else y).retractFixed =
        y.retractFixed := by
    split
    · exact unmutePath_retractFixed ..
    · split
      · exact mutePath_retractFixed ..
      · rfl
  exact (hone ..).trans (hone ..)

theorem sendWords_retractFixed (i e : Nat) (f : Nat → Nat → Nat) (s : State) :
    (sendWords i e f s).retractFixed = s.retractFixed :=
  foldl_keep State.retractFixed _ (fun _ _ => rfPush_retractFixed ..) _ s

theorem recalCrumb_retractFixed (i e : Nat) (s : State) : (recalCrumb i e s).retractFixed = s.retractFixed := by
  simp [State.retractFixed, recalCrumb]

theorem startCal_retractFixed (i e : Nat) (retried : Bool) (s : State) :
    (startCal i e retried s).retractFixed = s.retractFixed := sendWords_retractFixed ..

theorem startHop_retractFixed (i e : Nat) (s : State) : (startHop i e s).retractFixed = s.retractFixed := by
  unfold startHop
  dsimp only
  split
  · exact sendWords_retractFixed ..
  · exact (startCal_retractFixed ..).trans (recalCrumb_retractFixed ..)
  · exact startCal_retractFixed ..

/-- A band that starts tunes: frames, mutes and a record, nothing of the supply (R680, R703). -/
theorem startBand_retractFixed (b : Nat) (activate : Bool) (s : State) : (startBand b activate s).retractFixed = s.retractFixed :=
  (startHop_retractFixed ..).trans (syncBand_retractFixed ..)

theorem radioEnterRun_retractFixed (s : State) : (radioEnterRun s).retractFixed = s.retractFixed := by
  unfold radioEnterRun
  split
  · rfl
  · refine (foldl_keep State.retractFixed _ (fun b y => ?_) _ _).trans
      ((foldl_keep State.retractFixed _ (fun i y => ?_) _ _).trans rfl)
    · dsimp only
      split
      · exact startBand_retractFixed ..
      · rfl
    · dsimp only
      split
      · rfl
      · rfl

theorem radioEnterRun_supply (s : State) : (radioEnterRun s).supply = s.supply :=
  (congrArg Prod.fst (radioEnterRun_retractFixed s) :)

theorem autoStart_supply (s : State) : (autoStart s).supply = s.supply := by
  unfold autoStart
  split
  · split
    · exact spinTo_supply .align s
    all_goals rfl
  · rfl

theorem enterRun_supply (s : State) : (enterRun s).supply = { s.supply with mode := .run } :=
  (autoStart_supply _).trans ((radioEnterRun_supply _).trans (setMode_supply ..))

/-! ### A change completes (Table PWR.6) -/

theorem finishMode_supply (status : Nat) (s : State) : (finishMode status s).supply = s.supply :=
  (congrArg State.supply (finish_besidesCompletions 0x0102 0 status [] s) :)

theorem modeChanged_supply (old new : Nat) (s : State) : (modeChanged old new s).supply = s.supply := crumb_supply ..

theorem runReached_supply (old : Mode) (s : State) :
    (runReached old s).supply = { s.supply with change := none, safeN := true, mode := .run } := by
  simp only [runReached, finishMode_supply, modeChanged_supply, enterRun_supply, State.updSup_supply]

theorem keepReached_supply (old : Mode) (s : State) :
    (keepReached old s).supply =
      { s.supply with
          change := none, millerSlow := true, safeN := true, clkRadio := false, mode := .keep
          isl := { s.supply.isl with channel := false, servo := false, radio := false } } := by
  simp only [keepReached, finishMode_supply, modeChanged_supply, setMode_supply, stopRadio_supply, stopChannel_supply,
    State.updSup_supply]

/-- The islands of the disk stop as SAFE is reached; of the rest only the pending change may end (R1007). -/
theorem safeReached_supply (old : Mode) (s : State) :
    ∃ change, (safeReached old s).supply =
      { s.supply with
          safeEntry := none, change := change, isl := { s.supply.isl with channel := false, servo := false } } := by
  unfold safeReached
  dsimp only
  repeat' split
  · exact ⟨none, by
      simp only [finishMode_supply, modeChanged_supply, stopChannel_supply, State.updSup_supply]⟩
  all_goals
    exact ⟨s.supply.change, by simp only [modeChanged_supply, stopChannel_supply, State.updSup_supply]⟩

theorem modeComplete_safe {m : Mode} {s : State} (h : s.supply.safeEntry = some m) (hq : diskQuiet s = true) :
    modeComplete s = safeReached m s := by
  simp only [modeComplete, h, hq, if_true]

theorem modeComplete_keep {k : ModeChange} {s : State} (h : s.supply.safeEntry = none) (hk : s.supply.change = some k)
    (ht : k.target = 1) (hq : diskQuiet s = true) : modeComplete s = keepReached k.fromMode s := by
  simp [modeComplete, h, hk, ht, hq]

theorem modeComplete_run {k : ModeChange} {s : State} (h : s.supply.safeEntry = none) (hk : s.supply.change = some k)
    (ht : k.target = 2) (ho : crossingsOpen s = true) : modeComplete s = runReached k.fromMode s := by
  simp [modeComplete, h, hk, ht, ho]

/-- MODE_CHANGE_COMPLETE of a module that runs. -/
theorem exec_modeChangeComplete {s z : State} (hp : s.powered = true) (h : modeComplete s = z) :
    exec .modeChangeComplete s = .next z := h ▸ running_next hp

/-- Settles O24: each request by the lemma on what its command starts, each completion by what the supply is when the mode
is reached. -/
theorem modeCommandsChangeTheMode : Obligations.ModeCommandsChangeTheMode := by
  unfold Obligations.ModeCommandsChangeTheMode
  refine ⟨fun c s h ha ht hb hch hc hp hm => exec_sysSetMode_run h ha ht hb ⟨hch, hc, hp⟩ hm,
    fun c s h ht hb h0 hch hc hp => ?_,
    fun c s h ha ht hb hch hc hp hm => exec_sysSetMode_safe h ha ht hb ⟨hch, hc, hp⟩ hm,
    fun c n s h ht hr hl hroom => exec_sysSetMode_other h ht hr hl hroom, fun c s h => command_updSup (fun _ => by rfl) h rfl,
    fun c s h => command_reads h rfl, fun n s hp hch hn hh hd => exec_shelfStopTimeout hp hch hn hh hd,
    fun k s hp he hk ht ho => ?_, fun k s hp he hk ht hq => ?_, fun m s hp he hq => ?_⟩
  · obtain ⟨z, hz, hans, hread, -⟩ := command_reads h
      ((cmdSysSetMode_run_zero (congrArg Fin.val ht) ..).trans (setModeZero_current (s := begun 0x0102 c s) ⟨hch, hc, hp⟩ hb h0))
    exact ⟨z, hz, hans, hread⟩
  · refine ⟨_, exec_modeChangeComplete hp (modeComplete_run he hk ht ho), ?_, ?_, ?_⟩ <;> rw [runReached_supply]
  · refine ⟨_, exec_modeChangeComplete hp (modeComplete_keep he hk ht hq), ?_, ?_, ?_, ?_, ?_, ?_⟩ <;> rw [keepReached_supply]
  · obtain ⟨change, hsup⟩ := safeReached_supply m s
    refine ⟨_, exec_modeChangeComplete hp (modeComplete_safe he hq), ?_, ?_, ?_, ?_⟩ <;> rw [hsup]

end Sys2Proof.Machine
end

section
/-! ## The interrupt registers of a view and the routes (R237, R238, R241 to R249, R255 to R258, R266) -/
namespace Sys2Proof.Machine
open Sys2Proof

/-! ### Folds that write single items -/

/-- A fold leaves an item that only a step not taken could change. -/
theorem foldl_keep_of_notMem {α β γ : Type} (p : β → γ) (f : β → α → β) {k : α} (hother : ∀ b a, a ≠ k → p (f b a) = p b)
    {l : List α} (hk : k ∉ l) (b : β) : p (l.foldl f b) = p b := by
  induction l generalizing b with
  | nil => rfl
  | cons a l ih =>
    obtain ⟨ha, hl⟩ := List.ne_and_not_mem_of_not_mem_cons hk
    rw [List.foldl_cons, ih hl, hother _ _ (Ne.symm ha)]

/-- A fold whose step at `k` puts `c` there, and whose other steps leave it, puts `c` there if it takes that step. -/
theorem foldl_write {α β γ : Type} [DecidableEq α] (p : β → γ) (f : β → α → β) {k : α} {c : γ} (hself : ∀ b, p (f b k) = c)
    (hother : ∀ b a, a ≠ k → p (f b a) = p b) (l : List α) (b : β) : p (l.foldl f b) = if k ∈ l then c else p b := by
  induction l generalizing b with
  | nil => rfl
  | cons a l ih =>
    by_cases ha : a = k
    · subst ha
      simp [ih, hself]
    · simp [ih, hother _ _ ha, Ne.symm ha]

/-- A fold that takes the step at `k` once, and whose other steps leave what that step changes, changes it once. -/
theorem foldl_once {α β γ : Type} (p : β → γ) (f : β → α → β) {k : α} {g : γ → γ} (hself : ∀ b, p (f b k) = g (p b))
    (hother : ∀ b a, a ≠ k → p (f b a) = p b) {l : List α} (hl : l.Nodup) (hk : k ∈ l) (b : β) : p (l.foldl f b) = g (p b) := by
  obtain ⟨front, back, rfl, hfront⟩ := List.eq_append_cons_of_mem hk
  have hback : k ∉ back := (List.nodup_cons.1 hl.of_append_right).1
  rw [List.foldl_append, List.foldl_cons, foldl_keep_of_notMem p f hother hback, hself, foldl_keep_of_notMem p f hother hfront]

/-! ### What changes one view -/

/-- The state without what a change of view `t` may change: that view, and what leaves the device. -/
def State.besidesView (t : Nat) (s : State) : State := { s with views := vset s.views t {}, out := [] }

/-- A view without its pending-bit array. -/
def View.besidesPba (v : View) : View := { v with pba := 0 }

theorem view_updView_self {t : Nat} (ht : t < 8) (f : View → View) (s : State) : (s.updView t f).view t = f (s.view t) :=
  vat_upd_self _ _ _ ht

theorem updView_besidesView (t : Nat) (f : View → View) (s : State) : (s.updView t f).besidesView t = s.besidesView t := by
  simp only [State.besidesView, State.updView_views, vset, upd_upd]
  rfl

theorem emit_besidesView (t : Nat) (o : Out) (s : State) : (s.emit o).besidesView t = s.besidesView t := rfl

theorem goPending_besidesView (t src : Nat) (s : State) : (goPending t src s).besidesView t = s.besidesView t := by
  unfold goPending
  dsimp only
  split
  · rfl
  · split
    · exact updView_besidesView ..
    · rfl

/-- Going pending changes of its view only the pending-bit array (R266). -/
theorem goPending_view {t : Nat} (ht : t < 8) (src : Nat) (s : State) :
    ((goPending t src s).view t).besidesPba = (s.view t).besidesPba := by
  unfold goPending
  dsimp only
  split
  · rfl
  · split
    · rw [view_updView_self ht]
      rfl
    · rfl

/-- A change of one view leaves the others. -/
theorem view_of_besidesView {t j : Nat} {s z : State} (h : z.besidesView t = s.besidesView t) (hj : j ≠ t) : z.view j = s.view j := by
  have hv := congrArg (fun y => y.view j) h
  simpa [State.besidesView, State.view, vset, Ne.symm hj] using hv

theorem tenants_of_besidesView {t : Nat} {s z : State} (h : z.besidesView t = s.besidesView t) : z.tenants = s.tenants :=
  (congrArg State.tenants h :)

theorem keepsBut_of_besidesView {t : Nat} {s z : State} (h : z.besidesView t = s.besidesView t) : KeepsBut [.views, .out] s z := by
  simp only [State.besidesView, State.mk.injEq, true_and] at h
  obtain ⟨htenants, -, hrest⟩ := h
  simpa [KeepsBut] using ⟨htenants, hrest⟩

/-- Where a raise acts is not the views' to say (R238). -/
theorem latches_of_besidesView {t : Nat} {s z : State} (h : z.besidesView t = s.besidesView t) : latches z = latches s :=
  (congrArg latches h :)

/-! ### A change of a view after which a source may go pending (R249) -/

/-- View `t` changes by `f`, and source `k` goes pending in it if `c`. -/
def changeView (t k : Nat) (c : Bool) (f : View → View) (s : State) : State :=
  if c then goPending t k (s.updView t f) else s.updView t f

theorem changeView_besidesView (t k : Nat) (c : Bool) (f : View → View) (s : State) :
    (changeView t k c f s).besidesView t = s.besidesView t := by
  unfold changeView
  split
  · rw [goPending_besidesView, updView_besidesView]
  · exact updView_besidesView ..

theorem changeView_view {t : Nat} (ht : t < 8) (k : Nat) (c : Bool) (f : View → View) (s : State) :
    ((changeView t k c f s).view t).besidesPba = (f (s.view t)).besidesPba := by
  unfold changeView
  split
  · rw [goPending_view ht, view_updView_self ht]
  · rw [view_updView_self ht]

/-- The view with the latch of a source clear. -/
def View.unlatched (k : Nat) (v : View) : View := { v with raw := v.raw &&& ~~~(BitVec.twoPow 128 k) }
/-- The view with the mask bit of a source at `b`. -/
def View.maskSet (k : Nat) (b : Bool) (v : View) : View :=
  { v with mask := if b then v.mask ||| BitVec.twoPow 128 k else v.mask &&& ~~~(BitVec.twoPow 128 k) }
/-- The view with a source's route changed. -/
def View.routed (k : Nat) (r : Route) (v : View) : View := { v with route := vset v.route k r }

/-- One source of a write of IRQ_MASK (R258, R259). -/
def maskSource (t n : Nat) (v : BitVec 32) (s : State) (k : Nat) : State :=
  changeView t k ((s.view t).mask.getLsbD k && !v.getLsbD (k - 32 * n) && (s.view t).raw.getLsbD k)
    (View.maskSet k (v.getLsbD (k - 32 * n))) s

theorem raiseView_changes (t k : Nat) (s : State) : raiseView t k s =
    changeView t k (!((s.view t).raw.getLsbD k || (s.view t).mask.getLsbD k)) (View.latched k) s := by
  rw [raiseView_eq, changeView]
  cases (s.view t).raw.getLsbD k || (s.view t).mask.getLsbD k <;> rfl

theorem setRoute_changes (t k : Nat) (r : Route) (s : State) : setRoute t k r s =
    changeView t k (vat (s.view t).route k != r && visible s t k && (s.view t).pending k) (View.routed k r) s := rfl

/-! #### One bit of a register -/

theorem getLsbD_twoPow_of_lt {w k : Nat} (hk : k < w) (a : Nat) : (BitVec.twoPow w a).getLsbD k = decide (a = k) := by
  rw [BitVec.getLsbD_twoPow]
  by_cases h : a = k
  · simp [h, hk]
  · simp [h]

theorem getLsbD_or_twoPow {w k : Nat} (hk : k < w) (x : BitVec w) (a : Nat) :
    (x ||| BitVec.twoPow w a).getLsbD k = (decide (a = k) || x.getLsbD k) := by
  rw [BitVec.getLsbD_or, getLsbD_twoPow_of_lt hk, Bool.or_comm]

theorem getLsbD_and_not_twoPow {w k : Nat} (hk : k < w) (x : BitVec w) (a : Nat) :
    (x &&& ~~~(BitVec.twoPow w a)).getLsbD k = (!decide (a = k) && x.getLsbD k) := by
  rw [BitVec.getLsbD_and, BitVec.getLsbD_not, getLsbD_twoPow_of_lt hk, decide_eq_true hk, Bool.true_and, Bool.and_comm]

theorem getLsbD_raw_latched (a : Nat) {k : Nat} (hk : k < 128) (v : View) :
    (v.latched a).raw.getLsbD k = (decide (a = k) || v.raw.getLsbD k) := getLsbD_or_twoPow hk ..

theorem getLsbD_raw_unlatched (a : Nat) {k : Nat} (hk : k < 128) (v : View) :
    (v.unlatched a).raw.getLsbD k = (!decide (a = k) && v.raw.getLsbD k) := getLsbD_and_not_twoPow hk ..

theorem getLsbD_mask_maskSet (a : Nat) (b : Bool) {k : Nat} (hk : k < 128) (v : View) :
    (v.maskSet a b).mask.getLsbD k = if a = k then b else v.mask.getLsbD k := by
  cases b
  · refine (getLsbD_and_not_twoPow hk v.mask a).trans ?_
    split <;> simp [*]
  · refine (getLsbD_or_twoPow hk v.mask a).trans ?_
    split <;> simp [*]

theorem vat_route_routed (a : Nat) (r : Route) {k : Nat} (hk : k < 128) (v : View) :
    vat (v.routed a r).route k = if a = k then r else vat v.route k := by
  by_cases h : a = k
  · subst h
    rw [if_pos rfl]
    exact vat_upd_self _ _ _ hk
  · rw [if_neg h]
    exact vat_upd_ne _ _ _ _ h

/-! ### The sources of a register's word (R244) -/

theorem mem_word_iff (n k : Nat) : k ∈ ((List.range 32).map fun b => 32 * n + b) ↔ k / 32 = n := by
  simp only [List.mem_map, List.mem_range]
  exact ⟨fun ⟨b, hb, hk⟩ => by omega, fun hk => ⟨k % 32, by omega, by omega⟩⟩

theorem mem_wordSources_iff (n : Nat) (v : BitVec 32) (k : Nat) :
    k ∈ wordSources n v ↔ k / 32 = n ∧ v.getLsbD (k % 32) = true := by
  simp only [wordSources, List.mem_map, List.mem_filter, List.mem_range]
  constructor
  · rintro ⟨b, ⟨hb, hv⟩, rfl⟩
    rw [Nat.mul_add_mod, Nat.mod_eq_of_lt hb]
    exact ⟨by omega, hv⟩
  · rintro ⟨hn, hv⟩
    exact ⟨k % 32, ⟨by omega, hv⟩, by omega⟩

/-! ### IRQ_RAW (R247, R257) -/

theorem clearRaw_besidesView (t : Nat) (l : List Nat) (s : State) : (clearRaw t l s).besidesView t = s.besidesView t :=
  foldl_keep (State.besidesView t) _ (fun k y => updView_besidesView t (View.unlatched k) y) _ s

theorem clearRaw_out (t : Nat) (l : List Nat) (s : State) : (clearRaw t l s).out = s.out :=
  foldl_keep State.out _ (fun _ _ => by rfl) _ s

/-- A clear touches nothing of a view but its latches. -/
theorem clearRaw_view (t : Nat) (l : List Nat) (s : State) (j : Nat) :
    { (clearRaw t l s).view j with raw := 0 } = { s.view j with raw := 0 } :=
  foldl_keep (fun y : State => { y.view j with raw := 0 }) _
    (fun k y => vat_upd_keep y.views t j (View.unlatched k) (fun v => { v with raw := 0 }) fun _ => rfl) _ s

/-- A clear takes the latches of the sources listed that the view shows, and no other. -/
theorem clearRaw_raw {t k : Nat} (ht : t < 8) (hk : k < 128) (l : List Nat) (s : State) :
    ((clearRaw t l s).view t).raw.getLsbD k = ((s.view t).raw.getLsbD k && !(decide (k ∈ l) && visible s t k)) := by
  have hstep (y : State) (a : Nat) : ((y.updView t (View.unlatched a)).view t).raw.getLsbD k =
      (!decide (a = k) && (y.view t).raw.getLsbD k) := by
    rw [view_updView_self ht, getLsbD_raw_unlatched a hk]
  refine (foldl_write (fun y : State => (y.view t).raw.getLsbD k) _ (k := k) (c := false) (fun y => ?_) (fun y a ha => ?_) _ s).trans ?_
  · exact (hstep y k).trans (by simp)
  · exact (hstep y a).trans (by simp [ha])
  · have hmem : k ∈ l.filter (visible s t) ↔ (decide (k ∈ l) && visible s t k) = true := by
      rw [List.mem_filter, Bool.and_eq_true, decide_eq_true_eq]
    simp only [hmem]
    split
    · next hin => rw [hin, Bool.not_true, Bool.and_false]
    · next hout => rw [Bool.eq_false_iff.2 hout, Bool.not_false, Bool.and_true]

/-- While Campel runs, a raise of a source that the variant has latches it once, and counts it once, in each view on which
it acts (R238, R242, R245). -/
theorem raiseSrc_latches {src t : Nat} {s : State} (hsrc : src < 128) (ht : t < 8) (hl : latches s src t = true)
    (hc : s.campel = true) (hh : s.supply.isl.host = true) (hr : (s.isT && radioSource src) = false) :
    ((raiseSrc src s).view t).raw.getLsbD src = true ∧
      vat ((raiseSrc src s).view t).count src = (vat (s.view t).count src + 1) % 2 ^ 32 := by
  have hself (y : State) : ((raiseView t src y).view t).besidesPba = ((y.view t).latched src).besidesPba := by
    rw [raiseView_changes, changeView_view ht]
  have hother (y : State) (j : Nat) (hj : j ≠ t) : (raiseView j src y).view t = y.view t := by
    rw [raiseView_changes]
    exact view_of_besidesView (changeView_besidesView ..) hj.symm
  have hmem : t ∈ (List.range 8).filter (latches s src) := List.mem_filter.2 ⟨List.mem_range.2 ht, hl⟩
  have hview := foldl_once (fun y : State => ((y.view t).raw.getLsbD src, vat (y.view t).count src)) (fun y j => raiseView j src y)
    (g := fun x => (true, (x.2 + 1) % 2 ^ 32))
    (fun y => Prod.ext ((congrArg (fun v => v.raw.getLsbD src) (hself y) :).trans ((getLsbD_raw_latched src hsrc _).trans (by simp)))
      ((congrArg (fun v => vat v.count src) (hself y) :).trans (vat_upd_self _ _ _ hsrc)))
    (fun y j hj => by rw [hother y j hj]) (List.nodup_range.filter _) hmem s
  rw [raiseSrc, if_neg (by simp [hc, hh, hr])]
  exact Prod.mk.inj hview

/-! ### IRQ_MASK (R258, R259) -/

theorem maskWrite_eq {t : Nat} {s : State} (h : windowOpen s t = true) (n : Nat) (v : BitVec 32) : maskWrite t n v s =
    (((List.range 32).map fun b => 32 * n + b).filter (visible s t)).foldl (maskSource t n v) s := by
  rw [maskWrite, if_neg (by simp [h])]
  rfl

theorem maskWrite_besidesView (t n : Nat) (v : BitVec 32) (s : State) : (maskWrite t n v s).besidesView t = s.besidesView t := by
  unfold maskWrite
  split
  · rfl
  · exact foldl_keep (State.besidesView t) (maskSource t n v) (fun _ _ => changeView_besidesView ..) _ s

/-- A write of the mask touches of its view nothing but the mask and the pending-bit array. -/
theorem maskWrite_view {t : Nat} (ht : t < 8) (n : Nat) (v : BitVec 32) (s : State) :
    { (maskWrite t n v s).view t with mask := 0, pba := 0 } = { s.view t with mask := 0, pba := 0 } := by
  unfold maskWrite
  split
  · rfl
  · exact foldl_keep (fun y : State => { y.view t with mask := 0, pba := 0 }) (maskSource t n v)
      (fun k y => (congrArg (fun x : View => { x with mask := 0 }) (changeView_view ht k _ _ y) :)) _ s

/-- A write of the mask sets the mask bit of each source of its word that the view shows to the word's bit. -/
theorem maskWrite_mask {t k : Nat} (ht : t < 8) (hk : k < 128) {s : State} (h : windowOpen s t = true) (n : Nat) (v : BitVec 32) :
    ((maskWrite t n v s).view t).mask.getLsbD k =
      if k / 32 = n ∧ visible s t k = true then v.getLsbD (k % 32) else (s.view t).mask.getLsbD k := by
  have hstep (y : State) (a : Nat) : ((maskSource t n v y a).view t).mask.getLsbD k =
      if a = k then v.getLsbD (a - 32 * n) else (y.view t).mask.getLsbD k :=
    (congrArg (fun x => x.mask.getLsbD k) (changeView_view ht a _ _ y) :).trans (getLsbD_mask_maskSet a _ hk _)
  rw [maskWrite_eq h, foldl_write (fun y : State => (y.view t).mask.getLsbD k) (maskSource t n v) (k := k)
    (fun y => (hstep y k).trans (if_pos rfl)) (fun y a ha => (hstep y a).trans (if_neg ha))]
  simp only [List.mem_filter, mem_word_iff]
  split
  · next hin =>
    congr 1
    omega
  · rfl

/-! ### IRQ_FORCE (R243, R267) -/

theorem forceWrite_besidesView (t n : Nat) (v : BitVec 32) (s : State) : (forceWrite t n v s).besidesView t = s.besidesView t := by
  unfold forceWrite
  split
  · rfl
  · refine foldl_keep (State.besidesView t) _ (fun k y => ?_) _ s
    rw [raiseView_changes]
    exact changeView_besidesView ..

/-- A forced raise touches of its view nothing but latches, counters and the pending-bit array. -/
theorem forceWrite_view {t : Nat} (ht : t < 8) (n : Nat) (v : BitVec 32) (s : State) :
    ((forceWrite t n v s).view t).besidesLatches = (s.view t).besidesLatches := by
  unfold forceWrite
  split
  · rfl
  · refine foldl_keep (fun y : State => (y.view t).besidesLatches) _ (fun k y => ?_) _ s
    rw [raiseView_changes]
    exact (congrArg View.besidesLatches (changeView_view ht k _ _ y) :)

/-- A write of IRQ_FORCE latches the sources named that the view shows and the variant has, and no other. -/
theorem forceWrite_raw {t k : Nat} (ht : t < 8) (hk : k < 128) {s : State} (h : windowOpen s t = true) (n : Nat) (v : BitVec 32) :
    ((forceWrite t n v s).view t).raw.getLsbD k = ((s.view t).raw.getLsbD k ||
      (decide (k / 32 = n) && v.getLsbD (k % 32) && visible s t k && !(s.isT && radioSource k))) := by
  have hstep (y : State) (a : Nat) : ((raiseView t a y).view t).raw.getLsbD k = (decide (a = k) || (y.view t).raw.getLsbD k) := by
    rw [raiseView_changes]
    exact (congrArg (fun x => x.raw.getLsbD k) (changeView_view ht a _ _ y) :).trans (getLsbD_raw_latched a hk _)
  have hmem : k ∈ (wordSources n v).filter (fun a => visible s t a && !(s.isT && radioSource a)) ↔
      (decide (k / 32 = n) && v.getLsbD (k % 32) && visible s t k && !(s.isT && radioSource k)) = true := by
    simp only [List.mem_filter, mem_wordSources_iff, Bool.and_eq_true, decide_eq_true_eq, and_assoc]
  rw [forceWrite, if_neg (by simp [h]), foldl_write (fun y : State => (y.view t).raw.getLsbD k) (fun y a => raiseView t a y) (k := k)
    (c := true) (fun y => (hstep y k).trans (by simp)) (fun y a ha => (hstep y a).trans (by simp [ha]))]
  simp only [hmem]
  split
  · next hin => rw [hin, Bool.or_true]
  · next hout => rw [Bool.eq_false_iff.2 hout, Bool.or_false]

/-! ### An MSI-X vector's mask bit (R266) -/

theorem vectorMask_besidesView (t m : Nat) (b : Bool) (s : State) : (vectorMask t m b s).besidesView t = s.besidesView t := by
  unfold vectorMask
  dsimp only
  split
  · rw [emit_besidesView, updView_besidesView, updView_besidesView]
  · exact updView_besidesView ..

/-- Unmasking a vector sends what waits on it, and nothing else (R266). -/
theorem vectorMask_unmasks {t m : Nat} (ht : t < 8) (hm : m < 16) (s : State) :
    vat ((vectorMask t m false s).view t).msix m = { vat (s.view t).msix m with masked := false } ∧
      ((s.view t).msixEnable = true → (s.view t).pba.getLsbD m = true →
        ((vectorMask t m false s).view t).pba.getLsbD m = false ∧
          (vectorMask t m false s).out = .msix t m (vat (s.view t).msix m).addr (vat (s.view t).msix m).data :: s.out) ∧
      ((s.view t).pba.getLsbD m = false → (vectorMask t m false s).out = s.out) ∧
      ((vectorMask t m false s).view t).raw = (s.view t).raw := by
  have hview (f : View → View) (y : State) (o : Out) : ((y.updView t f).emit o).view t = f (y.view t) := view_updView_self ht f y
  unfold vectorMask
  dsimp only
  split
  · next hwaits =>
    simp only [Bool.not_false, Bool.true_and, Bool.and_eq_true] at hwaits
    rw [hview, view_updView_self ht]
    refine ⟨vat_upd_self _ _ _ hm, fun _ _ => ⟨?_, rfl⟩, fun hnone => ?_, rfl⟩
    · rw [getLsbD_and_not_twoPow hm]
      simp
    · rw [hwaits.2] at hnone
      cases hnone
  · next hidle =>
    rw [view_updView_self ht]
    exact ⟨vat_upd_self _ _ _ hm, fun he hw => absurd (by simp [he, hw]) hidle, fun _ => rfl, rfl⟩

/-! ### Routes (R249, R255) -/

/-- The sources from `first` on, `n` of them, take the route `r` in view `t` (R255). -/
def setRoutes (t first n : Nat) (r : Route) (s : State) : State :=
  (List.range n).foldl (fun s k => setRoute t (first + k) r s) s

theorem setRoutes_besidesView (t first n : Nat) (r : Route) (s : State) : (setRoutes t first n r s).besidesView t = s.besidesView t :=
  foldl_keep (State.besidesView t) _ (fun _ _ => changeView_besidesView ..) _ s

theorem setRoutes_mask {t : Nat} (ht : t < 8) (first n : Nat) (r : Route) (s : State) :
    ((setRoutes t first n r s).view t).mask = (s.view t).mask :=
  foldl_keep (fun y : State => (y.view t).mask) _ 
    (fun k y => (congrArg View.mask (changeView_view ht (first + k) _ (View.routed (first + k) r) y) :)) _ s

/-- The sources of the range take the route, and no other does. -/
theorem vat_route_setRoutes {t k : Nat} (ht : t < 8) (hk : k < 128) (first n : Nat) (r : Route) (s : State) :
    vat ((setRoutes t first n r s).view t).route k = if first ≤ k ∧ k < first + n then r else vat (s.view t).route k := by
  have hstep (y : State) (a : Nat) : vat ((setRoute t a r y).view t).route k = if a = k then r else vat (y.view t).route k :=
    (congrArg (fun x => vat x.route k) (changeView_view ht a _ _ y) :).trans (vat_route_routed a r hk _)
  have hfold : setRoutes t first n r s = (((List.range n).map fun i => first + i).foldl (fun y a => setRoute t a r y) s) := by
    rw [List.foldl_map]
    rfl
  have hmem : k ∈ ((List.range n).map fun i => first + i) ↔ first ≤ k ∧ k < first + n := by
    simp only [List.mem_map, List.mem_range]
    exact ⟨fun ⟨i, hi, e⟩ => by omega, fun ⟨hlo, hhi⟩ => ⟨k - first, by omega, by omega⟩⟩
  rw [hfold, foldl_write (fun y : State => vat (y.view t).route k) (fun y a => setRoute t a r y) (k := k)
    (fun y => (hstep y k).trans (if_pos rfl)) (fun y a ha => (hstep y a).trans (if_neg ha))]
  simp only [hmem]

/-- A response changes of a view its latches, its counters and its pending vectors. -/
theorem respond_view (t : Nat) (r : Rsp) (s : State) (j : Nat) :
    ((respond t r s).view j).besidesLatches = (s.view j).besidesLatches := by
  have hrang : (respond t r s).view j = (raiseSrc (32 + t) s).view j := congrArg (vat · j) (rang_respond t r s).1
  rw [hrang]
  exact view_of_besidesReset (raiseSrc_besidesReset ..) j

/-- A served IRQ_ROUTE_SET names one of the eight views (Table IRQ.4). -/
theorem irqRouteSet_view_lt {c : Call} {s : State} (h : Served cmdIrqRouteSet c s) : byteAt c.payload 0 < 8 := by
  have hf := fields_of_checks h.2
  simp only [cmdIrqRouteSet, callReq, Bool.and_eq_true, decide_eq_true_eq] at hf
  obtain ⟨⟨⟨⟨⟨⟨hview, -⟩, -⟩, -⟩, -⟩, -⟩, -⟩ := hf
  omega

/-- A served IRQ_ROUTE_SET routes the sources of its range in the view it names (R255). -/
theorem exec_irqRouteSet {c : Call} {s : State} (h : Served cmdIrqRouteSet c s) :
    ∃ z, exec (.irqRouteSet c) s = .next z ∧ Answered c 0x0D01 St.ok [] z ∧
      (∀ k : Fin 128, vat (z.view (byteAt c.payload 0)).route k =
        if byteAt c.payload 1 ≤ k.val ∧ k.val < byteAt c.payload 1 + byteAt c.payload 2 then routeOf (rd c.payload 4 2)
        else vat (s.view (byteAt c.payload 0)).route k) ∧
      (z.view (byteAt c.payload 0)).mask = (s.view (byteAt c.payload 0)).mask ∧
      (∀ j : Fin 8, j.val ≠ byteAt c.payload 0 → (z.view j).route = (s.view j).route ∧ (z.view j).mask = (s.view j).mask) ∧
      SetsOnly [] c s z := by
  have ht := irqRouteSet_view_lt h
  have hrun : cmdIrqRouteSet.run (begun cmdIrqRouteSet.op c s) c.t.val c.payload = .done St.ok []
      (setRoutes (byteAt c.payload 0) (byteAt c.payload 1) (byteAt c.payload 2) (routeOf (rd c.payload 4 2))
        (begun cmdIrqRouteSet.op c s)) := rfl
  generalize byteAt c.payload 0 = t, byteAt c.payload 1 = first, byteAt c.payload 2 = n, routeOf (rd c.payload 4 2) = r at *
  have hrest := setRoutes_besidesView t first n r (begun cmdIrqRouteSet.op c s)
  have hroute (k : Fin 128) := vat_route_setRoutes ht k.isLt first n r (begun cmdIrqRouteSet.op c s)
  have hmask := setRoutes_mask ht first n r (begun cmdIrqRouteSet.op c s)
  generalize setRoutes t first n r (begun cmdIrqRouteSet.op c s) = y at *
  have hexec := command_done h hrun
  have hanswered := answered_respond c cmdIrqRouteSet.op St.ok [] y
  generalize localRsp y (callReq c cmdIrqRouteSet.op) (St.ok, none, []) = rsp at *
  have hview := respond_view c.t.val rsp y
  refine ⟨_, hexec, hanswered, fun k => ?_, ?_, fun j hj => ?_, ?_, ?_⟩
  · exact (congrArg (fun v => vat v.route k) (hview t) :).trans (hroute k)
  · exact (congrArg View.mask (hview t) :).trans hmask
  · have hkept : y.view j = s.view j := (view_of_besidesView hrest hj).trans (congrArg (vat · j) (begun_views ..))
    have hj := (hview j).trans (congrArg View.besidesLatches hkept)
    exact ⟨(congrArg View.route hj :), (congrArg View.mask hj :)⟩
  · exact keepsBut_respond_begun (by decide) (keepsBut_mono (by decide) (keepsBut_of_besidesView hrest)) ..
  · exact mailboxOnly_respond (tenants_of_besidesView hrest) rsp

/-- Taking a doorbell leaves what every view shows. -/
theorem visible_begun (op : Nat) (c : Call) (s : State) : visible (begun op c s) = visible s := by
  funext t k
  simp only [visible, begun_ten_state]
  rfl

theorem routeWord_begun (op : Nat) (c : Call) (s : State) : routeWord (begun op c s) = routeWord s := by
  funext t k
  simp only [routeWord, visible_begun]
  rfl

/-! ### The register writes as instructions -/

theorem exec_irqRawClear {n : Fin 8} {i : Fin 4} {v : BitVec 32} {l : List (Fin 128)} {s : State} (hp : s.powered = true)
    (hw : windowOpen s n.val = true) : exec (.irqRawClear n i v l) s =
      .next ((l.map (·.val)).foldl (fun y k => raiseSrc k y) (clearRaw n.val (wordSources i.val v) s)) := by
  refine (running_next hp).trans ?_
  rw [rawWrite, if_pos hw]

/-- A W1C write while no source is raised. -/
theorem exec_irqRawClear_quiet (n : Fin 8) (i : Fin 4) (v : BitVec 32) {s : State} (hp : s.powered = true)
    (hw : windowOpen s n.val = true) :
    ∃ z, exec (.irqRawClear n i v []) s = .next z ∧
      (∀ k : Fin 128, (z.view n).raw.getLsbD k = ((s.view n).raw.getLsbD k &&
        !(decide (k.val / 32 = i.val) && v.getLsbD (k.val % 32) && visible s n k))) ∧
      (z.view n).mask = (s.view n).mask ∧ (z.view n).count = (s.view n).count ∧
      (∀ j : Fin 8, j ≠ n → z.view j = s.view j) ∧ KeepsBut [.views] s z := by
  have hrest := clearRaw_besidesView n (wordSources i v) s
  have hview := clearRaw_view n (wordSources i v) s n
  refine ⟨_, exec_irqRawClear hp hw, fun k => ?_, (congrArg View.mask hview :), (congrArg View.count hview :),
    fun j hj => view_of_besidesView hrest fun e => hj (Fin.ext e), ?_⟩
  · refine (clearRaw_raw n.isLt k.isLt _ s).trans ?_
    simp only [mem_wordSources_iff, Bool.decide_and, Bool.decide_eq_true]
  · have hkept := keepsBut_of_besidesView hrest
    have hout : (clearRaw n (wordSources i v) s).out = s.out := clearRaw_out ..
    simpa [KeepsBut, hout] using hkept

/-- A W1C write in the cycle in which hardware raises a source that the view latches: the set wins (R247). -/
theorem exec_irqRawClear_raised (n : Fin 8) (i : Fin 4) (v : BitVec 32) {k : Fin 128} {s : State} (hu : Up s)
    (hw : windowOpen s n.val = true) (hl : latches s k.val n.val = true) (hr : (s.isT && radioSource k.val) = false) :
    ∃ z, exec (.irqRawClear n i v [k]) s = .next z ∧ (z.view n).raw.getLsbD k = true ∧
      vat (z.view n).count k = (vat (s.view n).count k + 1) % 2 ^ 32 ∧ KeepsBut [.views, .out] s z := by
  obtain ⟨hp, hc, hh⟩ := hu
  have hrest := clearRaw_besidesView n (wordSources i v) s
  have hcount : ((clearRaw n (wordSources i v) s).view n).count = (s.view n).count :=
    (congrArg View.count (clearRaw_view n (wordSources i v) s n) :)
  have hraise := raiseSrc_latches k.isLt n.isLt (s := clearRaw n (wordSources i v) s)
    ((congrFun (congrFun (latches_of_besidesView hrest) k) n).trans hl) ((congrArg State.campel hrest :).trans hc)
    ((congrArg (·.supply.isl.host) hrest :).trans hh) ((congrArg (fun y => y.isT && radioSource k) hrest :).trans hr)
  rw [hcount] at hraise
  refine ⟨_, exec_irqRawClear hp hw, hraise.1, hraise.2, ?_⟩
  exact keepsBut_trans (keepsBut_of_besidesView hrest) (by simp [KeepsBut])

/-- Settles O15: the register writes by what a change of one view does to the bits of each source, IRQ_ROUTE_SET by
`exec_irqRouteSet`, the two requests that read by `command_reads`. -/
theorem interruptRegistersAct : Obligations.InterruptRegistersAct := by
  unfold Obligations.InterruptRegistersAct
  refine ⟨fun n i v s hp hw => exec_irqRawClear_quiet n i v hp hw,
    fun n i v k s hu hw hl hr => exec_irqRawClear_raised n i v hu hw hl hr,
    fun n i v s hp hw => ?_, fun n i v s hp hw => ?_, fun n m s hp hw => ?_,
    fun c n s h hn => ?_, fun c s h => ?_, fun c s h => command_reads h rfl⟩
  · have hrest := maskWrite_besidesView n i v s
    have hview := maskWrite_view n.isLt i v s
    exact ⟨_, running_next hp, fun k => maskWrite_mask n.isLt k.isLt hw i v, (congrArg View.raw hview :),
      (congrArg View.count hview :), (congrArg View.route hview :),
      fun j hj => view_of_besidesView hrest fun e => hj (Fin.ext e), keepsBut_of_besidesView hrest⟩
  · have hrest := forceWrite_besidesView n i v s
    have hview := forceWrite_view n.isLt i v s
    exact ⟨_, running_next hp, fun k => forceWrite_raw n.isLt k.isLt hw i v, (congrArg View.mask hview :),
      (congrArg View.route hview :), fun j hj => view_of_besidesView hrest fun e => hj (Fin.ext e), keepsBut_of_besidesView hrest⟩
  · obtain ⟨hvector, hsent, hidle, hraw⟩ := vectorMask_unmasks n.isLt m.isLt s
    have hrest := vectorMask_besidesView n m false s
    exact ⟨_, (running_next hp).trans (congrArg _ (if_pos hw)), hvector, hsent, hidle, hraw,
      fun j hj => view_of_besidesView hrest fun e => hj (Fin.ext e), keepsBut_of_besidesView hrest⟩
  · subst hn
    exact exec_irqRouteSet h
  · exact command_reads h (by rw [← routeWord_begun cmdIrqRouteGet.op c s]; rfl)

end Sys2Proof.Machine
end

section
/-! ## The requests of the boot and OTP family (R270, R277, R283, R286, R297, R299 to R302, Tables BOT.10, BOT.11) -/
namespace Sys2Proof.Machine
open Sys2Proof

/-! ### A part that a frame does not list is as before -/

theorem boot_of_keepsBut {ps : List Part} {s z : State} (h : KeepsBut ps s z) (hp : Part.boot ∉ ps) : z.boot = s.boot := by
  obtain ⟨-, -, -, -, -, -, -, -, -, -, hboot, -⟩ := h
  exact hboot.resolve_left hp

theorem tenants_of_keepsBut {ps : List Part} {s z : State} (h : KeepsBut ps s z) (hp : Part.tenants ∉ ps) :
    z.tenants = s.tenants := by
  obtain ⟨hten, -⟩ := h
  exact hten.resolve_left hp

theorem jobs_of_keepsBut {ps : List Part} {s z : State} (h : KeepsBut ps s z) (hp : Part.jobs ∉ ps) : z.jobs = s.jobs := by
  obtain ⟨-, -, -, -, hjobs, -⟩ := h
  exact hjobs.resolve_left hp

theorem supply_of_keepsBut {ps : List Part} {s z : State} (h : KeepsBut ps s z) (hp : Part.supply ∉ ps) :
    z.supply = s.supply := by
  obtain ⟨-, -, -, -, -, -, -, -, -, -, -, hsup, -⟩ := h
  exact hsup.resolve_left hp

theorem spars_of_keepsBut {ps : List Part} {s z : State} (h : KeepsBut ps s z) (hp : Part.spars ∉ ps) : z.spars = s.spars := by
  obtain ⟨-, -, -, -, -, -, -, -, -, -, -, -, -, hspars, -⟩ := h
  exact hspars.resolve_left hp

theorem keys_of_keepsBut {ps : List Part} {s z : State} (h : KeepsBut ps s z) (hp : Part.keys ∉ ps) : z.keys = s.keys := by
  obtain ⟨-, -, -, -, -, -, -, -, -, -, -, -, -, -, -, -, -, -, -, hkeys, -⟩ := h
  exact hkeys.resolve_left hp

/-! ### How a request that changes listed parts ends -/

/-- A served request that ends at once and changes parts other than tenants: its answer, those parts, its mailbox. -/
theorem command_sets {cmd : Cmd} {c : Call} {s s1 : State} {st : Nat} {p : Bytes} {ps : List Part} (h : Served cmd c s)
    (hr : cmd.run (begun cmd.op c s) c.t.val c.payload = .done st p s1) (hk : KeepsBut ps (begun cmd.op c s) s1)
    (hten : Part.tenants ∉ ps) :
    ∃ z, command cmd c s = .next z ∧ Answered c cmd.op st p z ∧ z.boot = s1.boot ∧ SetsOnly ps c s z := by
  refine ⟨_, command_done h hr, answered_respond .., respond_boot .., ?_, mailboxOnly_respond (tenants_of_keepsBut hk hten) _⟩
  exact keepsBut_respond_begun (by simp) (keepsBut_mono (fun q hq => by simp [hq]) hk) ..

/-- A served request that starts work: its acceptance with a job of which `P` holds, and what its effect leaves of the boot,
the Loft and the log. -/
theorem command_starts {cmd : Cmd} {c : Call} {s s1 : State} {j : Job} {ps : List Part} {P : Job → Bool} (h : Served cmd c s)
    (ha : MayAccept c s) (hr : cmd.run (begun cmd.op c s) c.t.val c.payload = .accept j s1)
    (hP : ∀ t tok op, P { j with tenant := t, token := tok, op := op, origin := none } = true)
    (hk : KeepsBut ps (begun cmd.op c s) s1) (hps : Part.tenants ∉ ps ∧ Part.jobs ∉ ps) :
    ∃ z, command cmd c s = .next z ∧ AcceptedAs c cmd.op P z ∧ z.boot = s1.boot ∧ z.loft = s1.loft ∧
      (∀ o ∈ s1.out, o ∈ z.out) ∧ StartsOnly ps c s z :=
  ⟨_, command_accept h ha hr, accepted_respond _ _ _ _ _ _ _ (hP ..), respond_boot .., respond_loft ..,
    fun _ ho => mem_respond_out ho,
    startsOnly_respond _ hk ((jobs_of_keepsBut hk hps.2).trans (begun_jobs ..)) (tenants_of_keepsBut hk hps.1)⟩

/-- The frame of an accepted request may list more parts, and need not list those that every acceptance may change. -/
theorem startsOnly_mono {ps qs : List Part} {c : Call} {s z : State}
    (h : ps ⊆ .tenants :: .views :: .out :: .jobs :: qs) (hs : StartsOnly ps c s z) : StartsOnly qs c s z := by
  obtain ⟨hk, hrest⟩ := hs
  exact ⟨keepsBut_mono (by simpa using h) hk, hrest⟩

/-! ### BOOT_GET_STATUS (R270, Table BOT.11) -/

/-- Campel runs in the stage whose code is 3 (Table BOT.11). -/
theorem stage_code_of_campel {s : State} (h : s.campel = true) : s.boot.stage.code = 3 := by
  have hs : s.boot.stage = .campel := of_decide_eq_true h
  rw [hs]
  rfl

/-- In the Campel stage the table is filled from the running image. -/
theorem cmdBootGetStatus_run_campel {s : State} (h : s.campel = true) (t : Nat) (p : Bytes) :
    cmdBootGetStatus.run s t p = .done St.ok (leBytes 1 3 ++ leBytes 1 s.boot.source ++ leBytes 1 s.boot.slot ++
      leBytes 1 (s.boot.image.getD {}).secVersion ++ leBytes 4 (s.boot.image.getD {}).sequence ++ leBytes 1 (rollback s) ++
      leBytes 1 (s.boot.fails.getD 0 0) ++ leBytes 1 (s.boot.fails.getD 1 0) ++ leBytes 1 s.boot.alarms ++
      leBytes 4 s.boot.epoch ++ leBytes 1 s.boot.epochState ++ leBytes 1 s.boot.lastStatus ++ zeros 2 ++
      leBytes 4 s.boot.lastToken ++ leBytes 4 (s.boot.image.getD {}).campel) s := by
  simp only [cmdBootGetStatus, h, if_true, stage_code_of_campel h]

/-- Before the Campel stage SLOT is none and the fields of the image are zero. -/
theorem cmdBootGetStatus_run_rom {s : State} (h : s.campel = false) (t : Nat) (p : Bytes) :
    ∃ l, cmdBootGetStatus.run s t p =
      .done St.ok (leBytes 1 s.boot.stage.code ++ leBytes 1 s.boot.source ++ leBytes 1 255 ++ zeros 5 ++ l) s := by
  refine ⟨leBytes 1 (rollback s) ++ leBytes 1 (s.boot.fails.getD 0 0) ++ leBytes 1 (s.boot.fails.getD 1 0) ++
    leBytes 1 s.boot.alarms ++ leBytes 4 s.boot.epoch ++ leBytes 1 s.boot.epochState ++ leBytes 1 s.boot.lastStatus ++
    zeros 2 ++ leBytes 4 s.boot.lastToken ++ leBytes 4 0, ?_⟩
  have hnone : leBytes 1 ({} : ImageHeader).secVersion ++ leBytes 4 ({} : ImageHeader).sequence = zeros 5 := by decide
  simp only [cmdBootGetStatus, h, Bool.false_eq_true, if_false, List.append_assoc, ← hnone]

theorem exec_bootGetStatus_rom {c : Call} {s : State} (h : Served cmdBootGetStatus c s) (hc : s.campel = false) :
    ∃ z, exec (.bootGetStatus c) s = .next z ∧
      ((z.ten c.t.val).rsp.map fun r => (r.status, slice r.payload 0 8)) =
        some (St.ok, leBytes 1 s.boot.stage.code ++ leBytes 1 s.boot.source ++ leBytes 1 255 ++ zeros 5) ∧
      ReadsOnly c s z := by
  obtain ⟨l, hl⟩ := cmdBootGetStatus_run_rom (s := begun cmdBootGetStatus.op c s) hc c.t.val c.payload
  obtain ⟨z, hz, ha, hread⟩ := command_reads h hl
  refine ⟨z, hz, ?_, hread⟩
  have hr := congrArg (Option.map fun x : Nat × Bytes => (x.1, slice x.2 0 8)) (rsp_of_answered ha)
  rw [Option.map_map] at hr
  exact hr.trans rfl

/-! ### OTP programming (R299 to R301) -/

/-- The burn of a region of rows `a` to `b`: its content, and in row `b` the CRC of the content (R299). -/
def contentBurn (r a b : Nat) (content : Bytes) : OtpBurn :=
  { region := r
    rows := ((List.range (b - a)).map fun i => (a + i, rd content (4 * i) 4)) ++ [(b, crc32 (fit (4 * (b - a)) content))] }

/-- The burn of the rollback counter from one value to another (R300). -/
def counterBurn (v w : Nat) : OtpBurn :=
  { region := 7, rows := (List.range (w - v)).map fun i => (128 + v + i, counterMark 7 (v + i)) }

/-- BOOT_OTP_PROGRAM names a region of fuses that can be programmed (Table BOT.10). -/
theorem otpRegion_of_served {c : Call} {s : State} (h : Served cmdBootOtpProgram c s) :
    ∃ a b, otpRegion (byteAt c.payload 0) = some (a, b) := by
  have hf := fields_of_checks h.2
  simp only [cmdBootOtpProgram, callReq, Bool.and_eq_true, decide_eq_true_eq, List.mem_cons, List.not_mem_nil, or_false] at hf
  obtain ⟨⟨hr | hr | hr, -⟩, -⟩ := hf <;> rw [hr] <;> exact ⟨_, _, rfl⟩

/-- An unprogrammed region takes its content and CRC (R299). -/
theorem cmdBootOtpProgram_run_burns {s : State} {p : Bytes} {a b : Nat} (hr : otpRegion (byteAt p 0) = some (a, b))
    (hblank : otpBlank s (byteAt p 0) = true) (hbusy : otpBusy s = false) (t : Nat) :
    cmdBootOtpProgram.run s t p = .accept { waits := true } (s.updBoot fun x =>
      { x with burn := some (contentBurn (byteAt p 0) a b (p.drop 4)) }) := by
  simp [cmdBootOtpProgram, hr, hblank, hbusy, contentBurn]

/-- A region is programmed once (R299). -/
theorem cmdBootOtpProgram_run_again {s : State} {p : Bytes} {a b : Nat} (hr : otpRegion (byteAt p 0) = some (a, b))
    (hblank : otpBlank s (byteAt p 0) = false) (t : Nat) : cmdBootOtpProgram.run s t p = .done St.notPermitted [] s := by
  simp [cmdBootOtpProgram, hr, hblank]

/-- The counter is burned up to the version of the running image (R300). -/
theorem cmdBootRollbackCommit_run {s : State} {h : ImageHeader} (hbusy : otpBusy s = false) (hi : s.boot.image = some h)
    (hlt : rollback s < h.secVersion) (t : Nat) (p : Bytes) :
    cmdBootRollbackCommit.run s t p = .accept { waits := true } (s.updBoot fun x =>
      { x with burn := some (counterBurn (rollback s) h.secVersion) }) := by
  simp [cmdBootRollbackCommit, hbusy, hi, Nat.not_le.2 hlt, counterBurn]

/-! ### BOOT_PUSH_DONE and BOOT_EPOCH_SET (R276, R297) -/

/-- In RECOVERY a pushed image is taken unless the policy denies it (R276). -/
theorem cmdBootPushDone_run {s : State} (hs : s.boot.stage = .recovery) (hp : (policy s).testBit 12 = false)
    (hf : inFlight s 0x0C05 = false) (hst : s.boot.starting = false) (t : Nat) (p : Bytes) :
    cmdBootPushDone.run s t p = .accept { data := p, waits := true } s := by
  simp [cmdBootPushDone, hs, hp, hf, hst]

/-- The state after BOOT_EPOCH_SET: the epoch in force and, in one update of the keepsake area, persisted (R297). -/
def epochSet (e : Nat) (s : State) : State :=
  keepUpdate (fun k => { k with epoch := e }) (s.updBoot fun b => { b with epoch := e, epochState := 0 })

/-- An epoch above any that a record names is taken while it is not yet persisted (R297). -/
theorem cmdBootEpochSet_run {s : State} {p : Bytes} (hs : s.boot.epochState ≠ 0) (hlt : highEpoch s < rd p 0 4)
    (hp : s.timebase.persistFails = false) (t : Nat) :
    cmdBootEpochSet.run s t p = .done St.ok [] (epochSet (rd p 0 4) s) := by
  simp [cmdBootEpochSet, hs, Nat.not_le.2 hlt, hp, epochSet]

/-- An update of the keepsake area leaves the epoch in force and its state. -/
theorem keepUpdate_epoch (f : KeepCopy → KeepCopy) (s : State) :
    (keepUpdate f s).boot.epoch = s.boot.epoch ∧ (keepUpdate f s).boot.epochState = s.boot.epochState := by
  simp only [keepUpdate, State.updBoot_boot]
  split <;> exact ⟨rfl, rfl⟩

theorem epochSet_boot (e : Nat) (s : State) :
    (epochSet e s).boot.epoch = e ∧ (epochSet e s).boot.epochState = 0 ∧ (bestKeep (epochSet e s).boot).epoch = e := by
  obtain ⟨hepoch, hstate⟩ := keepUpdate_epoch (fun k => { k with epoch := e })
    (s.updBoot fun b => { b with epoch := e, epochState := 0 })
  exact ⟨hepoch, hstate, congrArg KeepCopy.epoch (bestKeep_keepUpdate ..)⟩

theorem keepsBut_epochSet (e : Nat) (s : State) : KeepsBut [.boot] s (epochSet e s) := by
  simp [KeepsBut, epochSet, keepUpdate]

/-! ### The boot flash (R302) -/

/-- With no operation under way an erase starts as its fields say. -/
theorem cmdBootFlashErase_run {s : State} (h : s.boot.flashOp = none) (t : Nat) (p : Bytes) :
    cmdBootFlashErase.run s t p = .accept { waits := true }
      ((s.updBoot fun b => { b with flashOp := some { op := 0x0C08, offset := rd p 0 4, length := rd p 4 4 } }).emit
        (.flash 0x0C08 (rd p 0 4) (rd p 4 4))) := by
  simp [cmdBootFlashErase, h]

theorem cmdBootFlashErase_run_busy {s : State} (h : s.boot.flashOp.isSome = true) (t : Nat) (p : Bytes) :
    cmdBootFlashErase.run s t p = .done St.busy [] s := if_pos h

/-- The state in which a write of the flash has begun: the operation with the bytes it programs, noted and sent. -/
def flashWriting (p : Bytes) (s : State) : State :=
  (s.updBoot fun b =>
    { b with flashOp := some { op := 0x0C09, offset := rd p 0 4, length := rd p 8 2
                               data := loftRead s (yAddr (hIndex (rd p 4 4)) 0) (rd p 8 2) } }).emit
    (.flash 0x0C09 (rd p 0 4) (rd p 8 2))

/-- With no operation under way a write of data without poison starts, its yealm pinned (R131, R302). -/
theorem cmdBootFlashWrite_run {s : State} {p : Bytes} (h : s.boot.flashOp = none)
    (hgood : s.loft.poisoned (yAddr (hIndex (rd p 4 4)) 0) (rd p 8 2) = false) (t : Nat) :
    cmdBootFlashWrite.run s t p = .accept { waits := true, pins := [hIndex (rd p 4 4)] }
      (pin (hIndex (rd p 4 4)) (flashWriting p s)) := by
  simp [cmdBootFlashWrite, h, hgood, flashWriting]

theorem keepsBut_flashWriting (i : Nat) (p : Bytes) (s : State) : KeepsBut [.boot, .loft, .out] s (pin i (flashWriting p s)) := by
  have hstart : KeepsBut [.boot, .loft, .out] s (flashWriting p s) := by simp [KeepsBut, flashWriting]
  exact keepsBut_trans hstart (keepsBut_mono (by decide) (keepsBut_pin ..))

/-- Settles O21: the requests that only read by `command_reads`, the others by what their command sets (`command_sets`) or
starts (`command_starts`). -/
theorem bootRequestsServe : Obligations.BootRequestsServe := by
  unfold Obligations.BootRequestsServe
  refine ⟨fun c s h hc => ?_, fun c s h hc => exec_bootGetStatus_rom h hc, fun c s h => ?_,
    fun c a b s h ha hr hblank hbusy => ?_, fun c s h hblank => ?_, fun c i s h ha hbusy hi hlt => ?_,
    fun c s h ha hs hp hf hst => ?_, fun c s h hs hlt hp => ?_, fun c s h => ?_, fun c o n s h ha hop ho hn => ?_,
    fun c s h hop => ?_, fun c o n i s h ha hop ho hn hi hgood => ?_, fun c s h ha => ?_⟩
  · exact command_reads h (cmdBootGetStatus_run_campel (s := begun cmdBootGetStatus.op c s) hc ..)
  · obtain ⟨z, hz, hans, -, hset⟩ := command_sets (ps := [.free]) h rfl (by simp [KeepsBut, State.drawn]) (by decide)
    exact ⟨z, hz, hans, hset⟩
  · obtain ⟨z, hz, hacc, hboot, -, -, hstart⟩ := command_starts (P := fun j => j.waits) (ps := [.boot]) h ha
      (cmdBootOtpProgram_run_burns (s := begun cmdBootOtpProgram.op c s) hr hblank hbusy _)
      (fun _ _ _ => rfl) (by simp [KeepsBut]) (by decide)
    exact ⟨z, hz, hacc, hboot, hstart⟩
  · obtain ⟨a, b, hr⟩ := otpRegion_of_served h
    obtain ⟨z, hz, hans, -, hset⟩ := command_sets (ps := []) h
      (cmdBootOtpProgram_run_again (s := begun cmdBootOtpProgram.op c s) hr hblank _) (keepsBut_refl ..) (by decide)
    exact ⟨z, hz, hans, hset⟩
  · obtain ⟨z, hz, hacc, hboot, -, -, hstart⟩ := command_starts (P := fun j => j.waits) (ps := [.boot]) h ha
      (cmdBootRollbackCommit_run (s := begun cmdBootRollbackCommit.op c s) hbusy hi hlt _ _)
      (fun _ _ _ => rfl) (by simp [KeepsBut]) (by decide)
    exact ⟨z, hz, hacc, hboot, hstart⟩
  · obtain ⟨z, hz, hacc, -, -, -, hstart⟩ := command_starts (P := fun j => j.waits && j.data == c.payload) (ps := []) h ha
      (cmdBootPushDone_run (s := begun cmdBootPushDone.op c s) hs hp hf hst _ _)
      (fun _ _ _ => by simp) (keepsBut_refl ..) (by decide)
    exact ⟨z, hz, hacc, hstart⟩
  · obtain ⟨z, hz, hans, hboot, hset⟩ := command_sets h
      (cmdBootEpochSet_run (s := begun cmdBootEpochSet.op c s) hs hlt hp _) (keepsBut_epochSet ..) (by decide)
    obtain ⟨hepoch, hstate, hkeep⟩ := epochSet_boot (rd c.payload 0 4) (begun cmdBootEpochSet.op c s)
    exact ⟨z, hz, hans, hboot ▸ hepoch, hboot ▸ hstate, hboot ▸ hkeep, hset⟩
  · exact command_sets h rfl (by simp [KeepsBut]) (by decide)
  · subst ho hn
    obtain ⟨z, hz, hacc, hboot, -, hout, hstart⟩ := command_starts (P := fun j => j.waits) (ps := [.boot, .out]) h ha
      (cmdBootFlashErase_run (s := begun cmdBootFlashErase.op c s) hop _ _) (fun _ _ _ => rfl) (by simp [KeepsBut]) (by decide)
    exact ⟨z, hz, hacc, hboot, hout _ List.mem_cons_self, startsOnly_mono (by decide) hstart⟩
  · obtain ⟨z, hz, hans, -, hset⟩ := command_sets (ps := []) h
      (cmdBootFlashErase_run_busy (s := begun cmdBootFlashErase.op c s) hop _ _) (keepsBut_refl ..) (by decide)
    exact ⟨z, hz, hans, hset⟩
  · subst ho hn hi
    obtain ⟨z, hz, hacc, hboot, hloft, -, hstart⟩ := command_starts
      (P := fun j => j.waits && j.pins == [hIndex (rd c.payload 4 4)]) h ha
      (cmdBootFlashWrite_run (s := begun cmdBootFlashWrite.op c s) hop hgood _) (fun _ _ _ => by simp)
      (keepsBut_flashWriting ..) (by decide)
    have hpin := pin_besidesYealms (hIndex (rd c.payload 4 4)) (flashWriting c.payload (begun cmdBootFlashWrite.op c s))
    refine ⟨z, hz, hacc, hboot.trans (congrArg State.boot hpin :), ?_, startsOnly_mono (by decide) hstart⟩
    rw [hloft]
    exact (congrArg (fun y : State => y.loft.mem) hpin :)
  · obtain ⟨z, hz, hacc, -, -, -, hstart⟩ := command_starts (P := fun j => !j.waits && j.data == c.payload) (ps := []) h ha
      rfl (fun _ _ _ => by simp) (keepsBut_refl ..) (by decide)
    exact ⟨z, hz, hacc, hstart⟩

end Sys2Proof.Machine
end

section
/-! ## The log through the end of a command (R206, R270, R826, R884, R903) -/
namespace Sys2Proof.Machine
open Sys2Proof

/-! What leaves the device is never taken back: an entry of the log stays there through records, frames, completions. -/

theorem mem_crumb_out {code sev ten : Nat} {p : Bytes} {s : State} {o : Out} (h : o ∈ s.out) :
    o ∈ (crumb code sev ten p s).out := mem_record_out h

theorem mem_raiseCrumb_out {src code sev ten : Nat} {p : Bytes} {s : State} {o : Out} (h : o ∈ s.out) :
    o ∈ (raiseCrumb src code sev ten p s).out := mem_record_out (mem_raiseSrc_out h)

theorem mem_laneErr_out {l : Nat} {s : State} {o : Out} (h : o ∈ s.out) : o ∈ (laneErr l s).out := by
  unfold laneErr
  split
  · split
    · exact h
    · exact mem_raiseSrc_out h
  · exact mem_raiseSrc_out h

theorem mem_laneCount_out {l i n : Nat} {s : State} {o : Out} (h : o ∈ s.out) : o ∈ (laneCount l i n s).out := by
  unfold laneCount
  dsimp only
  split
  · exact mem_laneErr_out h
  · exact h

theorem mem_keyStart_out {t i kind n : Nat} {forms : Bool} {s : State} {o : Out} (h : o ∈ s.out) :
    o ∈ (keyStart t i kind n forms s).2.2.out := by
  have hworn : o ∈ (wearOut i s).out := by
    unfold wearOut
    split
    · exact h
    · exact mem_raiseCrumb_out h
  simp only [keyStart, apply_ite Prod.snd, apply_ite State.out, State.updKey_out]
  repeat' split
  all_goals assumption

theorem mem_sealFrame_out {l : Nat} {f : LaneFrame} {s : State} {o : Out} (h : o ∈ s.out) : o ∈ (sealFrame l f s).2.out := by
  unfold sealFrame
  dsimp only
  split
  · exact h
  · have hkey := mem_keyStart_out (t := 0) (i := (s.laneOf l).txSlot) (kind := 3) (n := 1) (forms := true) h
    generalize keyStart 0 (s.laneOf l).txSlot 3 1 true s = k at hkey ⊢
    split
    · dsimp only
      split
      · exact hkey
      · exact mem_laneErr_out hkey
    · exact hkey

theorem mem_startFrame_out {l : Nat} {f : LaneFrame} {s : State} {o : Out} (h : o ∈ s.out) : o ∈ (startFrame l f s).out :=
  mem_laneCount_out (mem_laneCount_out (List.mem_cons_of_mem _ h))

theorem mem_pump_out {l fuel : Nat} {s : State} {o : Out} (h : o ∈ s.out) : o ∈ (pump l fuel s).out := by
  induction fuel generalizing s with
  | zero => exact h
  | succ fuel ih =>
    unfold pump
    dsimp only
    split
    · exact h
    · split
      · exact h
      · next f _ =>
        have hseal := mem_sealFrame_out (l := l) (f := { f with fseq := (s.laneOf l).txSeq }) h
        split
        · next s1 e => rw [e] at hseal; exact hseal
        · next g s1 e => rw [e] at hseal; exact ih (mem_startFrame_out hseal)

theorem mem_postCompletion_out {t : Nat} {d : Bytes} {s : State} {o : Out} (h : o ∈ s.out) : o ∈ (postCompletion t d s).out := by
  unfold postCompletion
  split
  · exact h
  · refine mem_produce_out ?_
    unfold markOverflow
    split
    · exact mem_produce_out h
    · exact h

theorem mem_writeCompletion_out {j : Job} {st : Nat} {d : Bytes} {s : State} {o : Out} (h : o ∈ s.out) :
    o ∈ (writeCompletion j st d s).out := by
  have hpins : (unpinAll j.pins { s with jobs := s.jobs.erase j }).out = s.out :=
    (congrArg State.out (unpinAll_besidesYealms j.pins { s with jobs := s.jobs.erase j }) :)
  rw [← hpins] at h
  unfold writeCompletion
  dsimp only
  split
  · exact h
  · split
    · exact mem_pump_out h
    · exact mem_postCompletion_out h

theorem mem_finish_out {op key st : Nat} {d : Bytes} {s : State} {o : Out} (h : o ∈ s.out) : o ∈ (finish op key st d s).out := by
  unfold finish completeJob
  split
  · split
    · exact h
    · exact mem_writeCompletion_out h
  · exact h

end Sys2Proof.Machine
end

section
/-! ## The ends of burns and of flash operations (R282, R299, R300, R302) -/
namespace Sys2Proof.Machine
open Sys2Proof

/-! ### What a map holds after it was written row by row -/

/-- The map after rows have been written in order. -/
def writeRows (l : AMap Nat) (m : AMap Nat) : AMap Nat := l.foldl (fun m r => mset m r.1 r.2) m

theorem mgetD_writeRows_of_notMem {l : AMap Nat} {i : Nat} (h : i ∉ l.map (·.1)) (m : AMap Nat) (d : Nat) :
    mgetD (writeRows l m) i d = mgetD m i d := by
  induction l generalizing m with
  | nil => rfl
  | cons r l ih =>
    rw [List.map_cons, List.mem_cons, not_or] at h
    exact (ih h.2 _).trans (mgetD_mset_ne _ _ _ _ _ (Ne.symm h.1))

/-- Of rows that are all different each holds the word written. -/
theorem mgetD_writeRows_of_mem {l : AMap Nat} (hl : (l.map (·.1)).Nodup) {r : Nat × Nat} (h : r ∈ l) (m : AMap Nat) (d : Nat) :
    mgetD (writeRows l m) r.1 d = r.2 := by
  induction l generalizing m with
  | nil => cases h
  | cons x l ih =>
    obtain ⟨hx, hl⟩ := List.nodup_cons.1 hl
    rcases List.mem_cons.1 h with rfl | h
    · exact (mgetD_writeRows_of_notMem hx _ d).trans (mgetD_mset_self ..)
    · exact ih hl h _

/-! ### Burned rows (R299, R300) -/

/-- The state in which the rows left of a burn have been burned. -/
def burned (x : OtpBurn) (s : State) : State :=
  { s with
      boot := { s.boot with
        otp := writeRows x.rows s.boot.otp, burn := some { x with rows := [], burned := x.burned + x.rows.length } }
      out := (x.rows.map fun r => .otp r.1 r.2).reverse ++ s.out }

theorem burnRows_eq {s : State} {x : OtpBurn} (h : s.boot.burn = some x) : burnRows x.rows.length s = burned x s := by
  obtain ⟨region, rows, n⟩ := x
  induction rows generalizing s n with
  | nil =>
    have hboot : { s.boot with burn := some { region := region, rows := [], burned := n } } = s.boot := by rw [← h]
    simp only [burned, writeRows, List.foldl_nil, List.length_nil, Nat.add_zero, List.map_nil, List.reverse_nil, List.nil_append,
      hboot]
    rfl
  | cons r l ih =>
    simp only [List.length_cons, burnRows, h]
    rw [ih (n := n + 1) rfl]
    simp [burned, writeRows, State.updBoot, State.emit, Nat.add_comm, Nat.add_left_comm]

theorem burnAll_eq {s : State} {x : OtpBurn} (h : s.boot.burn = some x) : burnAll s = burned x s := by
  rw [burnAll, h]
  exact burnRows_eq h

/-- The state in which a burn has ended: every row burned, none under way. -/
def burnOver (x : OtpBurn) (s : State) : State := (burned x s).updBoot fun b => { b with burn := none }

/-- What a burn that read back right leaves is the burned state through a breadcrumb at most, and the end of its command. -/
theorem burnEnd_eq {s : State} {x : OtpBurn} (h : s.boot.burn = some x) :
    ∃ y op, burnEnd true s = finish op 0 St.ok [] y ∧
      (y = burnOver x s ∨ ∃ code p, y = crumb code 2 0 p (burnOver x s)) := by
  have hburn : (burned x s).boot.burn = some { x with rows := [], burned := x.burned + x.rows.length } := rfl
  simp only [burnEnd, burnAll_eq h, hburn, if_true]
  refine ⟨_, _, rfl, ?_⟩
  split
  · split
    · exact .inl rfl
    · exact .inr ⟨_, _, rfl⟩
  · exact .inr ⟨_, _, rfl⟩

/-- OTP and the burn under way are moved by no report and no completion. -/
theorem unmoved_otp : Unmoved fun s => (s.boot.otp, s.boot.burn) where
  emit _ _ := rfl
  raise _ _ := by simp
  recorder _ _ := rfl
  deferral _ _ := rfl
  report _ _ _ := rfl
  lane _ _ _ := rfl
  key _ _ _ := rfl
  ring _ _ _ := rfl
  loft _ _ := rfl
  jobs _ _ := rfl
  held _ _ := rfl

/-- The burned state through its report and its completion. -/
theorem burnEnd_effect {s : State} {x : OtpBurn} (h : s.boot.burn = some x) :
    (burnEnd true s).boot.otp = writeRows x.rows s.boot.otp ∧ (burnEnd true s).boot.burn = none ∧
      (∀ o ∈ (burned x s).out, o ∈ (burnEnd true s).out) ∧
      (burnEnd true s).besidesCompletions = (burnOver x s).besidesCompletions := by
  obtain ⟨y, op, hz, hy⟩ := burnEnd_eq h
  rw [hz]
  have hover : (y.boot.otp, y.boot.burn) = (writeRows x.rows s.boot.otp, none) ∧ (∀ o ∈ (burned x s).out, o ∈ y.out) ∧
      y.besidesCompletions = (burnOver x s).besidesCompletions := by
    rcases hy with rfl | ⟨code, p, rfl⟩
    · exact ⟨rfl, fun _ ho => ho, rfl⟩
    · exact ⟨unmoved_otp.through_crumb .., fun _ ho => mem_crumb_out ho, crumb_besidesCompletions ..⟩
  obtain ⟨hotp, hout, hrest⟩ := hover
  have hend := (unmoved_otp.through_finish op 0 St.ok [] y).trans hotp
  simp only [Prod.mk.injEq] at hend
  exact ⟨hend.1, hend.2, fun o ho => mem_finish_out (hout o ho), (finish_besidesCompletions ..).trans hrest⟩

theorem exec_otpProgramComplete {x : OtpBurn} {s : State} (hp : s.powered = true) (h : s.boot.burn = some x)
    (hrows : (x.rows.map (·.1)).Nodup) :
    ∃ z, exec (.otpProgramComplete true) s = .next z ∧ z.boot.burn = none ∧ (∀ r ∈ x.rows, otpRow z r.1 = r.2) ∧
      (∀ i, i ∉ x.rows.map (·.1) → otpRow z i = otpRow s i) ∧ (∀ r ∈ x.rows, .otp r.1 r.2 ∈ z.out) ∧
      KeepsBut [.tenants, .views, .jobs, .loft, .rings, .recorder, .boot, .keys, .cascade, .out, .free] s z := by
  obtain ⟨hotp, hburn, hout, hrest⟩ := burnEnd_effect h
  refine ⟨_, running_next hp, hburn, fun r hr => ?_, fun i hi => ?_, fun r hr => hout _ ?_,
    keepsBut_mono (by decide) (keepsBut_of_besidesCompletions (hrest.trans rfl))⟩
  · rw [otpRow, hotp]
    exact mgetD_writeRows_of_mem hrows hr ..
  · rw [otpRow, hotp]
    exact mgetD_writeRows_of_notMem hi ..
  · exact List.mem_append_left _ (List.mem_reverse.2 (List.mem_map_of_mem hr))

/-! ### The flash (R302) -/

/-- The flash and the operation on it are moved by no completion. -/
theorem unmoved_flash : Unmoved fun s => (s.boot.flash, s.boot.flashOp) where
  emit _ _ := rfl
  raise _ _ := by simp
  recorder _ _ := rfl
  deferral _ _ := rfl
  report _ _ _ := rfl
  lane _ _ _ := rfl
  key _ _ _ := rfl
  ring _ _ _ := rfl
  loft _ _ := rfl
  jobs _ _ := rfl
  held _ _ := rfl

/-- A byte of an erased range reads 0xFF, every other byte as before (R302). -/
theorem mgetD_flashAfter_erase {x : FlashOp} (h : x.op = 0x0C08) (s : State) (a : Nat) :
    mgetD (flashAfter s x) a 0xFF#8 =
      if x.offset ≤ a ∧ a < x.offset + x.length then 0xFF#8 else mgetD s.boot.flash a 0xFF#8 := by
  have hkept := mget_filter s.boot.flash (fun k => !(x.offset ≤ k && k < x.offset + x.length)) a
  simp only [flashAfter, if_pos h, mgetD, hkept, Bool.not_eq_true', Bool.and_eq_false_iff, decide_eq_false_iff_not]
  split
  · next hout => rw [if_neg (by omega)]
  · next hin => rw [if_pos (by omega)]; rfl

theorem exec_flashOperationComplete {x : FlashOp} {s : State} (hp : s.powered = true) (h : s.boot.flashOp = some x)
    (hop : x.op = 0x0C08) :
    ∃ z, exec (.flashOperationComplete true) s = .next z ∧ z.boot.flashOp = none ∧
      (∀ a : Nat, mgetD z.boot.flash a 0xFF#8 =
        if x.offset ≤ a ∧ a < x.offset + x.length then 0xFF#8 else mgetD s.boot.flash a 0xFF#8) ∧
      KeepsBut [.tenants, .views, .jobs, .loft, .rings, .recorder, .boot, .keys, .cascade, .out, .free] s z := by
  have hrow : exec (.flashOperationComplete true) s = .next (finish x.op 0 St.ok []
      (s.updBoot fun b => { b with flashOp := none, flash := flashAfter s x })) := by
    change execFlashOperationComplete true s = _
    rw [execFlashOperationComplete, running_next hp]
    simp only [h, if_true]
  have hflash := unmoved_flash.through_finish x.op 0 St.ok [] (s.updBoot fun b => { b with flashOp := none, flash := flashAfter s x })
  simp only [State.updBoot_boot, Prod.mk.injEq] at hflash
  refine ⟨_, hrow, hflash.2, fun a => ?_,
    keepsBut_mono (by decide) (keepsBut_of_besidesCompletions ((finish_besidesCompletions ..).trans rfl))⟩
  rw [hflash.1]
  exact mgetD_flashAfter_erase hop s a

end Sys2Proof.Machine
end

section
/-! ## Image checks and waits of the ROM stage (R274, R276 to R278, R281, R291, R292, R308, Table BOT.7) -/
namespace Sys2Proof.Machine
open Sys2Proof

/-! ### An attempt that fails (R276, R278, R308) -/

/-- In the ROM stage a rejected image is only noted for the end of boot (R274, R292). -/
theorem imageRejected_rom {s : State} (hp : s.powered = true) (hc : s.campel = false) (code : Nat) :
    ∃ l, imageRejected code s = s.updBoot fun b => { b with deferred := b.deferred ++ l } := by
  have hrecord (x : Record) : record x s =
      s.updBoot fun b => { b with deferred := b.deferred ++ [(x.source, x.code, x.severity, x.payload)] } := by
    simp [record, hp, hc]
  unfold imageRejected
  split
  · rw [raiseCrumb, raiseSrc_rom hc (.inr (by decide))]
    exact ⟨_, hrecord _⟩
  · exact ⟨_, hrecord _⟩

/-- The boot after an attempt that failed: its code and its slot are noted, its records `l` wait for the end of boot, no image
stands, and the module stays in its stage while the other slot is left to be tried. -/
def Boot.failedAttempt (code k : Nat) (other : Bool) (l : List (Nat × Nat × Nat × Bytes)) (b : Boot) : Boot :=
  { b with
      deferred := b.deferred ++ l, fails := b.fails ++ [code], tried := k :: b.tried, starting := false, image := none
      imageBytes := [], slot := 255
      stage := if other = true ∧ b.tried.length = 0 then b.stage else .recovery }

theorem attemptFailed_rom {s : State} (hp : s.powered = true) (hc : s.campel = false) (code k : Nat) (other : Bool) :
    ∃ l, (attemptFailed code k other s).boot = s.boot.failedAttempt code k other l ∧
      KeepsBut [.boot] s (attemptFailed code k other s) := by
  obtain ⟨l, hl⟩ := imageRejected_rom (s := s.updBoot fun b =>
    { b with fails := b.fails ++ [code], tried := k :: b.tried, starting := false, image := none, imageBytes := [], slot := 255 })
    hp hc code
  have hlen : (k :: s.boot.tried).length < 2 ↔ s.boot.tried.length = 0 := by rw [List.length_cons]; omega
  simp only [attemptFailed, hl, State.updBoot_boot, hlen]
  by_cases h : other = true ∧ s.boot.tried.length = 0
  · simp only [Boot.failedAttempt, if_pos h]
    exact ⟨l, rfl, by simp [KeepsBut]⟩
  · simp only [Boot.failedAttempt, if_neg h]
    exact ⟨l, rfl, by simp [KeepsBut, toRecovery]⟩

/-! ### An image that passes (R291, R335) -/

/-- The state with the Spars and what waits for the end of boot put at their defaults. -/
def State.besidesLoads (s : State) : State :=
  { s with spars := State.reset.spars, boot := { s.boot with deferred := [] } }

theorem campel_of_besidesLoads {s z : State} (h : z.besidesLoads = s.besidesLoads) : z.campel = s.campel :=
  (congrArg State.campel h :)

theorem keepsBut_of_besidesLoads {s z : State} (h : z.besidesLoads = s.besidesLoads) : KeepsBut [.boot, .spars] s z := by
  simp only [State.besidesLoads, State.mk.injEq, true_and] at h
  simp [KeepsBut, h]

/-- In the ROM stage a record only waits for the end of boot (R274). -/
theorem record_besidesLoads {s : State} (hc : s.campel = false) (x : Record) : (record x s).besidesLoads = s.besidesLoads := by
  unfold record
  split
  · rfl
  · rw [if_pos (by simp [hc])]
    rfl

theorem crumb_besidesLoads {s : State} (hc : s.campel = false) (code sev ten : Nat) (p : Bytes) :
    (crumb code sev ten p s).besidesLoads = s.besidesLoads := record_besidesLoads hc _

theorem patchRejected_besidesLoads {s : State} (hc : s.campel = false) (i step : Nat) :
    (patchRejected i step s).besidesLoads = s.besidesLoads := by
  rw [patchRejected, raiseCrumb, raiseSrc_rom hc (.inr (by decide))]
  exact record_besidesLoads hc _

/-- In the ROM stage the load of a Spar changes that Spar and what waits for the end of boot. -/
theorem loadSpar_besidesLoads {s : State} (hc : s.campel = false) (i : Nat) (pub : Bytes) (sect : Option Bytes) (bad : Bool) :
    (loadSpar i pub sect bad s).besidesLoads = s.besidesLoads := by
  have hbase (y : State) : (if bad then y.updSpar i fun x => { x with state := .failed } else loadStore i none y).besidesLoads =
      y.besidesLoads := by
    split <;> rfl
  unfold loadSpar
  split
  · split
    · exact crumb_besidesLoads hc ..
    · rfl
  · dsimp only
    split
    · exact hbase s
    · exact (hbase _).trans (patchRejected_besidesLoads hc ..)
    · split
      · exact patchRejected_besidesLoads hc i 6
      · exact crumb_besidesLoads (by exact hc) ..

/-- The boot from which Campel starts: the image, its header, its slot and source. -/
def Boot.imageFound (slot source : Nat) (img : Bytes) (b : Boot) : Boot :=
  { b with image := some (headerOf img), imageBytes := img, slot := slot, source := source, starting := true }

/-- In the ROM stage an image that passed is the one that starts; the loads of the Spars change nothing else. -/
theorem imageTaken_besidesLoads {s : State} (hc : s.campel = false) (slot source : Nat) (img : Bytes) (bad : List Nat) :
    (imageTaken slot source img bad s).besidesLoads =
      (s.updBoot (Boot.imageFound slot source (img.take (rd img 8 4)))).besidesLoads := by
  unfold imageTaken
  refine foldl_ok (fun z : State => z.besidesLoads = _) _ (fun i z hz => ?_) [0, 1, 2] _ rfl
  have hcz : z.campel = false := (campel_of_besidesLoads hz).trans hc
  exact (loadSpar_besidesLoads hcz ..).trans hz

/-! ### The first check of a boot from the flash (R278, Table BOT.3) -/

/-- The ROM of a boot that waits for its image: OTP and keepsake are read, no image starts, no power failure stands. -/
def RomWaits (s : State) : Prop :=
  s.boot.romDone = true ∧ s.boot.stage = .rom ∧ s.boot.starting = false ∧ s.supply.pfail = false

/-- The first check of a boot from a flash of a size that is served tries the better slot (R278, R279). -/
theorem imageCheck_first {s : State} (hw : RomWaits s) (hsrc : s.boot.source = 0) (hjob : findJob s 0x0C05 0 = none)
    (htried : s.boot.tried = []) (hsize : 4194304 ≤ s.boot.flashSize) (copies : List Bytes) (bad : List Nat) {k : Nat}
    (hk : k = firstSlot (s.boot.flashSize / 2) (flashRead s 0 256) (flashRead s (s.boot.flashSize / 2) 256)) :
    imageCheck copies false bad s = tryImage (s.boot.flashSize / 2) k 0 true false (slotImage s k) bad s := by
  obtain ⟨hrom, hstage, hstart, hpfail⟩ := hw
  have hc : s.campel = false := by simp [State.campel, hstage]
  have hsteps : romSteps s = s := if_pos hrom
  have hnow : slotNow s (s.boot.flashSize / 2) (flashRead s 0 256) (flashRead s (s.boot.flashSize / 2) 256) = k := by
    rw [hk, slotNow, htried]
  have hsmall : decide (s.boot.flashSize < 4194304) = false := decide_eq_false (Nat.not_lt.2 hsize)
  simp only [imageCheck, hsteps, hc, hstart, hpfail, hjob, hsrc, hstage, hnow, hsmall]
  simp

theorem exec_bootImageCheck_first {s : State} {copies : List Bytes} {bad : List (Fin 3)} {k code : Nat} (hp : s.powered = true)
    (hw : RomWaits s) (hsrc : s.boot.source = 0) (hjob : findJob s 0x0C05 0 = none) (htried : s.boot.tried = [])
    (hsize : 4194304 ≤ s.boot.flashSize)
    (hk : k = firstSlot (s.boot.flashSize / 2) (flashRead s 0 256) (flashRead s (s.boot.flashSize / 2) 256))
    (hcode : code = imageCode s (s.boot.flashSize / 2) (slotImage s k)) :
    ∃ z, exec (.bootImageCheck copies false bad) s = .next z ∧ z.boot.starting = decide (code = 0) ∧ z.boot.stage = .rom ∧
      (code ≠ 0 → z.boot.fails = s.boot.fails ++ [code] ∧ z.boot.tried = [k] ∧ z.boot.image = none) ∧
      (code = 0 → z.boot.slot = k ∧ z.boot.image = some (headerOf (z.boot.imageBytes))) ∧
      KeepsBut [.boot, .spars] s z := by
  have hrow : exec (.bootImageCheck copies false bad) s =
      .next (tryImage (s.boot.flashSize / 2) k 0 true false (slotImage s k) (bad.map (·.val)) s) :=
    (running_next hp).trans (congrArg _ (imageCheck_first hw hsrc hjob htried hsize _ _ hk))
  obtain ⟨-, hstage, -⟩ := hw
  have hc : s.campel = false := by simp [State.campel, hstage]
  refine ⟨_, hrow, ?_⟩
  simp only [tryImage, Bool.false_eq_true, if_false, ← hcode]
  by_cases h0 : code = 0
  · rw [if_pos h0]
    have htaken := imageTaken_besidesLoads hc k 0 (slotImage s k) (bad.map (·.val))
    have hfound : KeepsBut [.boot, .spars] s
        (s.updBoot (Boot.imageFound k 0 ((slotImage s k).take (rd (slotImage s k) 8 4)))) := by simp [KeepsBut]
    generalize imageTaken k 0 (slotImage s k) (bad.map (·.val)) s = z at htaken ⊢
    have hboot := congrArg State.boot htaken
    simp only [State.besidesLoads, State.updBoot_boot, Boot.imageFound, Boot.mk.injEq] at hboot
    refine ⟨?_, ?_, fun h => absurd h0 h, fun _ => ?_, keepsBut_trans hfound (keepsBut_of_besidesLoads htaken)⟩
    all_goals simp [hboot, h0, hstage]
  · rw [if_neg h0]
    obtain ⟨l, hboot, hk⟩ := attemptFailed_rom hp hc code k true
    refine ⟨?_, ?_, fun _ => ?_, fun h => absurd h h0, keepsBut_mono (by decide) hk⟩
    all_goals simp [hboot, Boot.failedAttempt, h0, htried, hstage]

/-! ### Waits that end (R281, R308) -/

theorem exec_campelStartTimeout {ms : Nat} {s : State} (hp : s.powered = true) (hs : s.boot.starting = true) (hms : 100 ≤ ms)
    (hc : s.campel = false) :
    ∃ z, exec (.campelStartTimeout ms) s = .next z ∧ z.boot.fails = s.boot.fails ++ [1] ∧ z.boot.starting = false ∧
      z.boot.image = none ∧ z.boot.tried = s.boot.slot :: s.boot.tried ∧
      z.boot.stage = (if s.boot.slot < 2 ∧ s.boot.tried.length = 0 then s.boot.stage else .recovery) ∧ KeepsBut [.boot] s z := by
  obtain ⟨l, hboot, hk⟩ := attemptFailed_rom hp hc 1 s.boot.slot (decide (s.boot.slot < 2))
  have hrow : exec (.campelStartTimeout ms) s = .next (attemptFailed 1 s.boot.slot (decide (s.boot.slot < 2)) s) :=
    (running_next hp).trans (congrArg _ (if_pos ⟨hs, hms⟩))
  refine ⟨_, hrow, ?_, ?_, ?_, ?_, ?_, hk⟩
  all_goals simp only [hboot, Boot.failedAttempt, decide_eq_true_eq]

theorem exec_cascadeBootTimeout {n : Nat} {s : State} (hp : s.powered = true) (hr : s.boot.romDone = true)
    (hst : s.boot.stage = .rom) (hsrc : s.boot.source = 3) (hs : s.boot.starting = false) (hn : 300 ≤ n) :
    ∃ z, exec (.cascadeBootTimeout n) s = .next z ∧ z.boot = { s.boot with stage := .recovery } ∧ KeepsBut [.boot] s z := by
  have hrow : exec (.cascadeBootTimeout n) s = .next (toRecovery s) :=
    (running_next hp).trans (congrArg _ (if_pos ⟨hr, hst, hsrc, by simp [hs], hn⟩))
  exact ⟨_, hrow, rfl, by simp [KeepsBut, toRecovery]⟩

end Sys2Proof.Machine
end

section
/-! ## The end of boot (R189, R272, R274, R660, R794, R807, R829) -/
namespace Sys2Proof.Machine
open Sys2Proof

/-! ### What is read from OTP -/

/-- OTP is as before, the rows that are uncorrectable too. -/
def SameOtp (s z : State) : Prop := z.boot.otp = s.boot.otp ∧ z.boot.otpBad = s.boot.otpBad

theorem otpRow_of_sameOtp {s z : State} (h : SameOtp s z) : otpRow z = otpRow s := by
  funext i
  rw [otpRow, otpRow, h.1]

theorem otpValid_of_sameOtp {s z : State} (h : SameOtp s z) (r : Nat) : otpValid z r = otpValid s r := by
  simp only [otpValid, otpBytes, otpRow_of_sameOtp h, h.2]

theorem policy_of_sameOtp {s z : State} (h : SameOtp s z) : policy z = policy s := by
  simp only [policy, otpValid_of_sameOtp h, otpRow_of_sameOtp h]

/-- What holds boundary scan locked is read from OTP (R807, R808). -/
theorem debugLocks_of_sameOtp {s z : State} (h : SameOtp s z) : debugRow z = debugRow s ∧ debugBad z = debugBad s := by
  simp only [debugRow, debugBad, otpBlank, otpValid_of_sameOtp h, otpRow_of_sameOtp h, h.2, and_self]

/-! ### Frames while Campel runs -/

/-- What leaves the boot leaves Campel running. -/
theorem campel_of_keepsBut {ps : List Part} {s z : State} (h : KeepsBut ps s z) (hp : Part.boot ∉ ps) : z.campel = s.campel := by
  simp only [State.campel, boot_of_keepsBut h hp]

/-- Steps that keep a frame without the boot while Campel runs keep it together. -/
theorem keepsBut_foldl {α : Type} {ps : List Part} {f : State → α → State} (hp : Part.boot ∉ ps)
    (h : ∀ a y, y.campel = true → KeepsBut ps y (f y a)) (l : List α) {s : State} (hc : s.campel = true) :
    KeepsBut ps s (l.foldl f s) :=
  foldl_ok (KeepsBut ps s) f (fun a y hy => keepsBut_trans hy (h a y ((campel_of_keepsBut hy hp).trans hc))) l s (keepsBut_refl ..)

theorem keepsBut_raiseSrc (src : Nat) (s : State) : KeepsBut [.views, .out] s (raiseSrc src s) := by
  simp [KeepsBut]

theorem keepsBut_raiseCrumb {s : State} (hc : s.campel = true) (src code sev ten : Nat) (p : Bytes) :
    KeepsBut [.recorder, .views, .out] s (raiseCrumb src code sev ten p s) :=
  keepsBut_trans (keepsBut_mono (by decide) (keepsBut_raiseSrc src s))
    (keepsBut_crumbOf (s := raiseSrc src s) ((campel_of_keepsBut (keepsBut_raiseSrc src s) (by decide)).trans hc) ..)

/-! ### The segment directory (R660, R948) -/

theorem keepsBut_closeSeg {s : State} (hc : s.campel = true) (bits : Nat) (g : Segment) :
    KeepsBut [.diskq, .recorder, .views, .out, .free] s (closeSeg bits g s) := by
  have hseg (y : State) (f : Segment → Segment) : KeepsBut [.diskq, .recorder, .views, .out, .free] y (y.updSeg g.id f) := by
    simp [KeepsBut, State.updSeg]
  have hdrawn : KeepsBut [.diskq, .recorder, .views, .out, .free] s (if g.verified.isSome then s else s.drawn) := by
    split
    · exact keepsBut_refl ..
    · simp [KeepsBut, State.drawn]
  have hcy := (campel_of_keepsBut hdrawn (by decide)).trans hc
  unfold closeSeg
  dsimp only
  generalize (if g.verified.isSome then s else s.drawn) = y at hdrawn hcy ⊢
  exact keepsBut_trans hdrawn <| keepsBut_trans (hseg y _) <| keepsBut_mono (by decide) (keepsBut_crumb (by exact hcy) ..)

theorem keepsBut_cutSegment {s : State} (hc : s.campel = true) (g : Segment) :
    KeepsBut [.diskq, .recorder, .views, .out, .free] s (cutSegment s g) := by
  unfold cutSegment
  split
  · exact keepsBut_refl ..
  · exact keepsBut_closeSeg hc ..

theorem keepsBut_gapChannels {s : State} (hc : s.campel = true) : KeepsBut [.diskq] s (gapChannels s) :=
  keepsBut_foldl (by decide) (fun g y _ => by simp [KeepsBut, State.updRecChan]) _ hc

/-- The directory is rebuilt from records; what is closed with CUT is recorded. -/
theorem keepsBut_rebuildSegments {s : State} (hc : s.campel = true) :
    KeepsBut [.diskq, .recorder, .views, .out, .free] s (rebuildSegments s) := by
  have hdsk (y : State) (f : DiskQ → DiskQ) : KeepsBut [.diskq, .recorder, .views, .out, .free] y (y.updDsk f) := by
    simp [KeepsBut]
  unfold rebuildSegments
  generalize (bootRecords s).foldl segRecord (1, []) = d
  obtain ⟨n, l⟩ := d
  have hput := hdsk s fun q => { q with segs := l, nextSeg := n }
  have hcut := keepsBut_trans hput (keepsBut_foldl (by decide) (fun g y hy => keepsBut_cutSegment hy g) l
    ((campel_of_keepsBut hput (by decide)).trans hc))
  have hgap := keepsBut_trans hcut (keepsBut_mono (by decide)
    (keepsBut_gapChannels ((campel_of_keepsBut hcut (by decide)).trans hc)))
  dsimp only
  split
  · exact hgap
  · exact keepsBut_trans hgap (hdsk ..)

/-! ### Tenants and roles (R189, R874) -/

/-- One tenant at the end of boot: ready when the policy enables it. -/
def enableTenant (s : State) (t : Nat) : State :=
  if 1 ≤ t ∧ (policy s).testBit t then s.updTen t fun x => { x with state := .ready } else s

theorem enableTenants_eq (s : State) : enableTenants s = (List.range 8).foldl enableTenant s := rfl

theorem policy_enableTenant (s : State) (t : Nat) : policy (enableTenant s t) = policy s := by
  refine policy_of_sameOtp ?_
  unfold enableTenant
  split <;> exact ⟨rfl, rfl⟩

theorem keepsBut_enableTenants (s : State) : KeepsBut [.tenants] s (enableTenants s) := by
  refine foldl_ok (KeepsBut [.tenants] s) enableTenant (fun t y hy => keepsBut_trans hy ?_) _ s (keepsBut_refl ..)
  unfold enableTenant
  split
  · simp [KeepsBut]
  · exact keepsBut_refl ..

/-- A tenant that the policy enables is ready (R189). -/
theorem enableTenants_ready {s : State} {t : Fin 8} (ht : t ≠ 0) (hp : (policy s).testBit t = true) :
    ((enableTenants s).ten t).state = .ready := by
  have hpos : 1 ≤ t.val := Nat.one_le_iff_ne_zero.2 fun e => ht (Fin.ext e)
  have hself (y : State) : ((policy (enableTenant y t)).testBit t = true → ((enableTenant y t).ten t).state = .ready) = True := by
    refine eq_true fun h => ?_
    rw [policy_enableTenant] at h
    rw [enableTenant, if_pos ⟨hpos, h⟩, ten_updTen, if_pos rfl]
  have hother (y : State) (k : Nat) (hk : k ≠ t.val) :
      ((policy (enableTenant y k)).testBit t = true → ((enableTenant y k).ten t).state = .ready) =
        ((policy y).testBit t = true → (y.ten t).state = .ready) := by
    have hten : (enableTenant y k).ten t = y.ten t := by
      unfold enableTenant
      split
      · exact vat_upd_ne _ _ _ _ hk
      · rfl
    rw [policy_enableTenant, hten]
  have hwrite := foldl_write (fun y : State => (policy y).testBit t = true → (y.ten t).state = .ready) enableTenant
    hself hother (List.range 8) s
  rw [if_pos (List.mem_range.2 t.isLt), ← enableTenants_eq] at hwrite
  have hpol : policy (enableTenants s) = policy s := foldl_keep policy enableTenant (fun k y => policy_enableTenant y k) _ s
  exact of_eq_true hwrite (hpol ▸ hp)

theorem keepsBut_bootRole (s : State) : KeepsBut [.cascade] s (bootRole s) := by
  simp [KeepsBut, bootRole]

/-! ### Deferred alarms (R274) -/

/-- What waited is raised and recorded; then nothing waits. -/
theorem raiseDeferred_effect {s : State} (hc : s.campel = true) :
    (raiseDeferred s).boot = { s.boot with deferred := [] } ∧ KeepsBut [.boot, .recorder, .views, .out] s (raiseDeferred s) := by
  have hnone : KeepsBut [.boot, .recorder, .views, .out] s (s.updBoot fun b => { b with deferred := [] }) := by simp [KeepsBut]
  have hraised := keepsBut_foldl (ps := [.recorder, .views, .out]) (by decide)
    (fun n y _ => keepsBut_mono (by decide) (keepsBut_raiseSrc n y))
    ((s.boot.deferred.map (·.1)).eraseDups.filter (· < 128)) (s := s.updBoot fun b => { b with deferred := [] }) hc
  have hrecorded := keepsBut_trans hraised (keepsBut_foldl (by decide)
    (fun x y hy => keepsBut_crumbOf hy 1 x.1 x.2.1 x.2.2.1 0 x.2.2.2) s.boot.deferred
    ((campel_of_keepsBut hraised (by decide)).trans hc))
  exact ⟨boot_of_keepsBut hrecorded (by decide), keepsBut_trans hnone (keepsBut_mono (by decide) hrecorded)⟩

/-! ### Boundary scan (R807, R808) -/

theorem unlockScan_effect {s : State} (hc : s.campel = true) :
    (unlockScan s).keys.unlocked = true ∧ KeepsBut [.keys, .recorder, .views, .out] s (unlockScan s) := by
  have hset : KeepsBut [.keys, .recorder, .views, .out] s (s.updKeys fun k => { k with unlocked := true }) := by simp [KeepsBut]
  unfold unlockScan
  split
  · next h => exact ⟨h, keepsBut_refl ..⟩
  · refine ⟨?_, keepsBut_trans hset (keepsBut_mono (by decide) (keepsBut_raiseCrumb (by exact hc) ..))⟩
    rw [raiseCrumb_keys]
    rfl

/-- Boundary scan is unlocked where it was, or where neither DEBUG_LOCK nor a failure of its region holds it. -/
theorem bootScan_effect {s : State} (hc : s.campel = true) :
    (bootScan s).keys.unlocked = (s.keys.unlocked || !((debugRow s).testBit 0 || debugBad s)) ∧
      KeepsBut [.keys, .recorder, .views, .out] s (bootScan s) := by
  unfold bootScan
  split
  · next h => exact ⟨by rw [h, Bool.not_true, Bool.or_false], keepsBut_refl ..⟩
  · next h =>
    obtain ⟨hkeys, hk⟩ := unlockScan_effect hc
    exact ⟨by rw [hkeys, Bool.eq_false_iff.2 h, Bool.not_false, Bool.or_true], hk⟩

/-! ### The mode (R272, R338) -/

/-- No Spar has failed. -/
def NoneFailed (s : State) : Prop := ∀ i : Fin 3, (s.spar i).state ≠ .failed

theorem any_failed_of_noneFailed {s : State} (h : NoneFailed s) : (s.spars.toList.any fun x => x.state == .failed) = false := by
  rw [List.any_eq_false]
  intro x hx
  obtain ⟨i, hi, rfl⟩ := Vector.mem_iff_getElem.1 (Vector.mem_toList_iff.1 hx)
  have hspar := h ⟨i, hi⟩
  simpa [State.spar, vat, hi] using hspar

theorem noneFailed_sparResume {s : State} (h : NoneFailed s) (i : Nat) : NoneFailed (sparResume i s) := by
  intro j
  have hj := h j
  simp only [sparResume, State.spar, vat_upd] at hj ⊢
  split
  · split
    · simp
    · assumption
  · exact hj

/-- The Spars whose islands run resume. -/
def resumeSpars (s : State) : State := [0, 1, 2].foldl (fun s i => if sparPowered s i then sparResume i s else s) s

theorem resumeSpars_effect {s : State} (h : NoneFailed s) : NoneFailed (resumeSpars s) ∧ KeepsBut [.spars] s (resumeSpars s) := by
  refine foldl_ok (fun z => NoneFailed z ∧ KeepsBut [.spars] s z) _ (fun i y hy => ?_) _ s ⟨h, keepsBut_refl ..⟩
  obtain ⟨hnone, hk⟩ := hy
  split
  · exact ⟨noneFailed_sparResume hnone i, keepsBut_trans hk (by simp [KeepsBut, sparResume])⟩
  · exact ⟨hnone, hk⟩

/-- The state in which the islands of the KEEP mode run and their Spars have resumed. -/
def keepIslands (s : State) : State :=
  resumeSpars (s.updSup fun x => { x with isl := bootIslands s false, millerSlow := true })

/-- Without a cause of SAFE a boot that does not ask for RUN ends in KEEP (R272). -/
theorem bootMode_keep {s : State} (hm : (s.boot.image.map (·.startMode)).getD 1 ≠ 2) (hsafe : s.supply.safeCause = 0)
    (hnone : NoneFailed s) : bootMode s = setMode .keep ((keepIslands s).updSup fun x => { x with safeN := true }) := by
  have hrun : ((s.boot.image.map (·.startMode)).getD 1 == 2) = false := beq_eq_false_iff_ne.2 hm
  obtain ⟨hfailed, hk⟩ := resumeSpars_effect (s := s.updSup fun x => { x with isl := bootIslands s false, millerSlow := true }) hnone
  have hcause : (keepIslands s).supply.safeCause = 0 := by
    rw [keepIslands, supply_of_keepsBut hk (by decide)]
    exact hsafe
  have hany := any_failed_of_noneFailed hfailed
  simp only [keepIslands, resumeSpars] at hcause hany ⊢
  simp only [bootMode, hrun, Bool.not_false, hany, Bool.false_eq_true, if_false, hcause, ne_eq, not_true_eq_false]

theorem bootMode_effect {s : State} (hm : (s.boot.image.map (·.startMode)).getD 1 ≠ 2) (hsafe : s.supply.safeCause = 0)
    (hnone : NoneFailed s) :
    (bootMode s).supply.mode = .keep ∧ (bootMode s).supply.safeN = true ∧
      KeepsBut [.supply, .spars, .motor, .recorder, .views, .out] s (bootMode s) := by
  rw [bootMode_keep hm hsafe hnone]
  have hset (y : State) (f : Supply → Supply) : KeepsBut [.supply, .spars, .motor, .recorder, .views, .out] y (y.updSup f) := by
    simp [KeepsBut]
  obtain ⟨-, hk⟩ := resumeSpars_effect (s := s.updSup fun x => { x with isl := bootIslands s false, millerSlow := true }) hnone
  refine ⟨by rw [setMode_supply], by rw [setMode_supply]; rfl, ?_⟩
  exact keepsBut_trans (hset ..) <| keepsBut_trans (keepsBut_mono (by decide) hk) <| keepsBut_trans (hset ..) <|
    keepsBut_mono (by decide) (keepsBut_setMode ..)

/-! ### BOOT_COMPLETE (R274, R275) -/

/-- The state in which Campel has started. -/
def campelStarted (s : State) : State := s.updBoot fun b => { b with stage := .campel, starting := false }

/-- The state before what waited is raised: the recorder resumed, the directory rebuilt, tenants enabled, the role taken. -/
def bootResumed (s : State) : State := bootRole (enableTenants (rebuildSegments (recorderResumed (campelStarted s))))

theorem keepsBut_recorderResumed {s : State} (hc : s.campel = true) : KeepsBut [.recorder, .views, .out] s (recorderResumed s) :=
  keepsBut_crumb hc ..

theorem bootResumed_effect (s : State) :
    (∀ t : Fin 8, t ≠ 0 → (policy s).testBit t = true → ((bootResumed s).ten t).state = .ready) ∧
      KeepsBut [.diskq, .recorder, .views, .out, .free, .tenants, .cascade] (campelStarted s) (bootResumed s) := by
  have hrecorder := keepsBut_recorderResumed (s := campelStarted s) rfl
  have hdirectory := keepsBut_trans (keepsBut_mono (by decide) hrecorder)
    (keepsBut_rebuildSegments (campel_of_keepsBut hrecorder (by decide)))
  have hboot := boot_of_keepsBut hdirectory (by decide)
  have hotp : SameOtp s (rebuildSegments (recorderResumed (campelStarted s))) := by
    rw [SameOtp, hboot]
    exact ⟨rfl, rfl⟩
  unfold bootResumed
  generalize rebuildSegments (recorderResumed (campelStarted s)) = y at hdirectory hotp ⊢
  have hrole := keepsBut_bootRole (enableTenants y)
  refine ⟨fun t ht hp => ?_, ?_⟩
  · rw [ten_of_tenants (tenants_of_keepsBut hrole (by decide))]
    exact enableTenants_ready ht (policy_of_sameOtp hotp ▸ hp)
  · exact keepsBut_trans (keepsBut_mono (by decide) hdirectory) <|
      keepsBut_trans (keepsBut_mono (by decide) (keepsBut_enableTenants y)) (keepsBut_mono (by decide) hrole)

/-- The boot of a module whose firmware runs. -/
def Boot.completed (b : Boot) : Boot := { b with stage := .campel, starting := false, deferred := [] }

/-- The state in which the mode is entered: what waited has been raised, boundary scan has its lock. -/
def bootOpened (s : State) : State := bootScan (raiseDeferred (bootResumed s))

/-- What the steps of a boot leave before its mode. -/
theorem bootOpened_effect (s : State) :
    (bootOpened s).boot = s.boot.completed ∧
      (bootOpened s).keys.unlocked = (s.keys.unlocked || !((debugRow s).testBit 0 || debugBad s)) ∧
      (∀ t : Fin 8, t ≠ 0 → (policy s).testBit t = true → ((bootOpened s).ten t).state = .ready) ∧
      KeepsBut [.boot, .keys, .recorder, .views, .out, .diskq, .free, .tenants, .cascade] s (bootOpened s) := by
  have hstarted : KeepsBut [.boot] s (campelStarted s) := by simp [KeepsBut, campelStarted]
  obtain ⟨hready, hresumed⟩ := bootResumed_effect s
  have hboot := boot_of_keepsBut hresumed (by decide)
  have hc : (bootResumed s).campel = true := (campel_of_keepsBut hresumed (by decide)).trans rfl
  obtain ⟨hraised, hkraised⟩ := raiseDeferred_effect hc
  have hcompleted : (raiseDeferred (bootResumed s)).boot = s.boot.completed := by
    rw [hraised, hboot]
    rfl
  have hotp : SameOtp s (raiseDeferred (bootResumed s)) := by
    rw [SameOtp, hcompleted]
    exact ⟨rfl, rfl⟩
  obtain ⟨hrow, hbad⟩ := debugLocks_of_sameOtp hotp
  have hkeys : (raiseDeferred (bootResumed s)).keys = s.keys :=
    (keys_of_keepsBut hkraised (by decide)).trans ((keys_of_keepsBut hresumed (by decide)).trans
      (keys_of_keepsBut hstarted (by decide)))
  unfold bootOpened
  generalize raiseDeferred (bootResumed s) = y at *
  obtain ⟨hscan, hkscan⟩ := bootScan_effect (s := y) (by simp [State.campel, hcompleted, Boot.completed])
  refine ⟨(boot_of_keepsBut hkscan (by decide)).trans hcompleted, by rw [hscan, hrow, hbad, hkeys], fun t ht hp => ?_, ?_⟩
  · rw [ten_of_tenants (tenants_of_keepsBut hkscan (by decide)), ten_of_tenants (tenants_of_keepsBut hkraised (by decide))]
    exact hready t ht hp
  · exact keepsBut_trans (keepsBut_mono (by decide) hstarted) <| keepsBut_trans (keepsBut_mono (by decide) hresumed) <|
      keepsBut_trans (keepsBut_mono (by decide) hkraised) (keepsBut_mono (by decide) hkscan)

/-- The last reports of a boot: source 108 for its epoch, and BOOT_COMPLETE. -/
def bootReported (s : State) : State :=
  let y := if s.boot.epochState ≠ 0 ∨ s.boot.epoch = 0xFFFFFFFF then raiseSrc 108 s else s
  crumb 0x0C80 2 0 (bootPayload y) y

theorem bootComplete_eq (s : State) : bootComplete s = bootReported (bootMode (bootOpened s)) := by
  unfold bootComplete bootReported bootOpened bootResumed campelStarted
  rfl

theorem keepsBut_bootReported {s : State} (hc : s.campel = true) : KeepsBut [.recorder, .views, .out] s (bootReported s) := by
  have hraise : KeepsBut [.recorder, .views, .out] s
      (if s.boot.epochState ≠ 0 ∨ s.boot.epoch = 0xFFFFFFFF then raiseSrc 108 s else s) := by
    split
    · exact keepsBut_mono (by decide) (keepsBut_raiseSrc ..)
    · exact keepsBut_refl ..
  exact keepsBut_trans hraise (keepsBut_crumb ((campel_of_keepsBut hraise (by decide)).trans hc) ..)

theorem exec_bootComplete {s : State} (hp : s.powered = true) (hs : s.boot.starting = true) (hpf : s.supply.pfail = false)
    (hsafe : s.supply.safeCause = 0) (hm : (s.boot.image.map (·.startMode)).getD 1 ≠ 2) (hnone : NoneFailed s) :
    ∃ z, exec (.bootComplete) s = .next z ∧ z.campel = true ∧ z.boot.starting = false ∧ z.boot.deferred = [] ∧
      z.supply.mode = .keep ∧ z.supply.safeN = true ∧
      z.keys.unlocked = (s.keys.unlocked || !((debugRow s).testBit 0 || debugBad s)) ∧
      (∀ t : Fin 8, t ≠ 0 → (policy s).testBit t = true → (z.ten t).state = .ready) ∧
      KeepsBut [.tenants, .views, .jobs, .loft, .rings, .subs, .recorder, .boot, .supply, .timebase, .spars, .net, .motor,
        .channel, .diskq, .radio, .keys, .cascade, .out, .up, .free] s z := by
  have hrow : exec .bootComplete s = .next (bootReported (bootMode (bootOpened s))) :=
    (running_next hp).trans (congrArg _ ((if_pos ⟨hs, by simp [hpf]⟩).trans (bootComplete_eq s)))
  obtain ⟨hboot, hkeys, hready, hopened⟩ := bootOpened_effect s
  have hsup := supply_of_keepsBut hopened (by decide)
  have hspars := spars_of_keepsBut hopened (by decide)
  generalize bootOpened s = y at *
  obtain ⟨hmode, hsafeN, hentered⟩ := bootMode_effect (s := y) (by rw [hboot]; exact hm) (by rw [hsup]; exact hsafe)
    (fun i => by rw [State.spar, hspars]; exact hnone i)
  have hbootm := (boot_of_keepsBut hentered (by decide)).trans hboot
  generalize bootMode y = m at *
  have hreported := keepsBut_bootReported (s := m) (by simp [State.campel, hbootm, Boot.completed])
  generalize bootReported m = z at *
  have hbootz := (boot_of_keepsBut hreported (by decide)).trans hbootm
  have hsupz := supply_of_keepsBut hreported (by decide)
  have hkeysz := (keys_of_keepsBut hreported (by decide)).trans (keys_of_keepsBut hentered (by decide))
  have htensz := (tenants_of_keepsBut hreported (by decide)).trans (tenants_of_keepsBut hentered (by decide))
  refine ⟨z, hrow, by simp [State.campel, hbootz, Boot.completed], by rw [hbootz]; rfl, by rw [hbootz]; rfl,
    by rw [hsupz, hmode], by rw [hsupz, hsafeN], by rw [hkeysz, hkeys],
    fun t ht hpol => by rw [ten_of_tenants htensz]; exact hready t ht hpol, ?_⟩
  exact keepsBut_trans (keepsBut_mono (by decide) hopened) <|
    keepsBut_trans (keepsBut_mono (by decide) hentered) (keepsBut_mono (by decide) hreported)

/-- Settles O22: the first image check by what an attempt leaves when it fails (`attemptFailed_rom`) or passes
(`imageTaken_besidesLoads`), the end of boot by its steps one after another, burns and flash operations by what no completion
moves (`Unmoved`). -/
theorem bootEventsAdvanceTheBoot : Obligations.BootEventsAdvanceTheBoot := by
  unfold Obligations.BootEventsAdvanceTheBoot
  exact ⟨fun copies bad k code s hp hrom hstage hstart hpf hsrc hjob htried hsize hk hcode =>
      exec_bootImageCheck_first hp ⟨hrom, hstage, hstart, hpf⟩ hsrc hjob htried hsize hk hcode,
    fun ms s hp hs hms hc => exec_campelStartTimeout hp hs hms hc,
    fun n s hp hr hst hsrc hs hn => exec_cascadeBootTimeout hp hr hst hsrc hs hn,
    fun s hp hs hpf hsafe hm hnone => exec_bootComplete hp hs hpf hsafe hm hnone,
    fun x s hp h hrows => exec_otpProgramComplete hp h hrows,
    fun x s hp h hop => exec_flashOperationComplete hp h hop⟩

end Sys2Proof.Machine
end

section
/-! ## What the base instructions do to their Spar's program (R319, R323, R326, Table SPR.6) -/
namespace Sys2Proof.Machine
open Sys2Proof

/-! ### Instructions that go on at an address -/

/-- The fields of a Spar that its dispatch leaves: all but the operand, the working registers and the result flags. -/
theorem sparBegun_keeps {γ : Type} (p : Spar → γ) (hp : ∀ x opr w z n c, p { x with opr, w, z, n, c } = p x) {i : Nat}
    (hi : i < 3) (o : Nat) (s : State) : p ((sparBegun i o s).spar i) = p (s.spar i) := by
  have hopr := spar_updSpar_self hi (fun x => { x with opr := BitVec.ofNat 24 o }) s
  unfold sparBegun openRegs
  rw [spar_updSpar_self hi]
  exact (hp ..).trans ((hp (((s.updSpar i fun x => { x with opr := BitVec.ofNat 24 o }).spar i)) _ _ _ _ _).symm.trans
    ((congrArg p hopr).trans (hp (s.spar i) _ _ _ _ _)))

theorem sparNext_sparBegun {i : Nat} (hi : i < 3) (o : Nat) (s : State) : sparNext i (sparBegun i o s) = (s.spar i).pc + 1 :=
  congrArg (· + 1) (sparBegun_keeps Spar.pc (fun _ _ _ _ _ _ => rfl) hi o s)

/-- An instruction whose effect leaves its Spar's control goes on at the address it gives, and only its Spar changes. -/
theorem sparInstr_goesOn {i : Fin 3} {opc o next : Nat} {s y : State} {base : Nat → State → State} (h : SparAt i opc o s)
    (hb : baseOpc i opc = true) (hy : Spared i s y) (hk : KeepsBut [.spars, .free] s y) (hn : next ≤ 1023)
    (hbase : base o (sparBegun i o s) = sparRetire i next y) :
    ∃ z, sparInstr i opc none base s = .next z ∧ Retired i next s z ∧ z.spar i = (y.spar i).retired next ∧
      (∀ j : Fin 3, j ≠ i → z.spar j = s.spar j) ∧ KeepsBut [.spars, .free] s z := by
  have hrow := sparInstr_eq h hb base
  obtain ⟨-, hgo, -, -, -, -, -, hfault, hlines, -, hi⟩ := h
  simp only [sparGoes, Bool.and_eq_true, beq_iff_eq, Option.isNone_iff_eq_none] at hgo
  obtain ⟨⟨hrun, hstall⟩, -⟩ := hgo
  have hc := hy.control
  simp only [Spar.control, Prod.mk.injEq] at hc
  obtain ⟨-, hcount, hstall', hrun', hlines', hfault'⟩ := hc
  have hself := spar_updSpar_self hi (Spar.retired next) y
  rw [hbase, sparRetire_eq (hfault'.trans hfault) (hlines'.trans hlines) hn] at hrow
  refine ⟨_, hrow, ?_, hself, fun j hj => ?_, keepsBut_trans hk (keepsBut_updSpar (by decide) ..)⟩
  · rw [Retired, hself]
    exact ⟨rfl, by rw [Spar.retired, hcount], hstall'.trans hstall, hrun'.trans hrun⟩
  · have hne : j.val ≠ i.val := fun e => hj (Fin.ext e)
    exact (spar_updSpar_of_ne hne ..).trans (hy.others j hne)

/-- The same for an effect that sets fields of the Spar outside its control. -/
theorem sparInstr_sets {i : Fin 3} {opc o next : Nat} {s : State} {base : Nat → State → State} (f : Spar → Spar)
    (h : SparAt i opc o s) (hb : baseOpc i opc = true) (hf : ∀ x, (f x).control = x.control) (hn : next ≤ 1023)
    (hbase : base o (sparBegun i o s) = sparRetire i next ((sparBegun i o s).updSpar i f)) :
    ∃ z, sparInstr i opc none base s = .next z ∧ Retired i next s z ∧
      z.spar i = (f ((sparBegun i o s).spar i)).retired next ∧
      (∀ j : Fin 3, j ≠ i → z.spar j = s.spar j) ∧ KeepsBut [.spars, .free] s z := by
  obtain ⟨z, hz, hret, hspar, hrest⟩ := sparInstr_goesOn h hb ((spared_sparBegun i.isLt o s).updSpar i.isLt hf)
    (keepsBut_trans (keepsBut_sparBegun ..) (keepsBut_updSpar (by decide) ..)) hn hbase
  exact ⟨z, hz, hret, hspar.trans (by rw [spar_updSpar_self i.isLt]), hrest⟩

section
variable {i : Fin 3} {opc o : Nat} {s : State}

/-- The address behind an instruction, of a Spar that is about to execute it. -/
theorem next_le_of_sparAt (h : SparAt i opc o s) : (s.spar i).pc + 1 ≤ 1023 := by
  obtain ⟨-, -, -, -, -, -, -, -, -, hpc, -⟩ := h
  exact hpc

theorem mod_1024_le (o : Nat) : o % 1024 ≤ 1023 := Nat.le_of_lt_succ (Nat.mod_lt _ (by decide))

theorem exec_nop (h : SparAt i 0x00 o s) :
    ∃ z, exec (.nop i none) s = .next z ∧ Retired i ((s.spar i).pc + 1) s z ∧
      (∀ j : Fin 3, j ≠ i → z.spar j = s.spar j) ∧ KeepsBut [.spars, .free] s z := by
  obtain ⟨z, hz, hret, -, hrest⟩ := sparInstr_goesOn (base := fun _ s => sparRetire i (sparNext i s) s) h rfl
    (spared_sparBegun i.isLt o s) (keepsBut_sparBegun ..) (next_le_of_sparAt h) (by rw [sparNext_sparBegun i.isLt])
  exact ⟨z, hz, hret, hrest⟩

theorem exec_jump (h : SparAt i 0x01 o s) :
    ∃ z, exec (.jump i none) s = .next z ∧ Retired i (o % 1024) s z ∧
      (∀ j : Fin 3, j ≠ i → z.spar j = s.spar j) ∧ KeepsBut [.spars, .free] s z := by
  obtain ⟨z, hz, hret, -, hrest⟩ := sparInstr_goesOn (base := fun o s => sparRetire i (o % 1024) s) h rfl
    (spared_sparBegun i.isLt o s) (keepsBut_sparBegun ..) (mod_1024_le o) rfl
  exact ⟨z, hz, hret, hrest⟩

/-- JUMP_IF_INBOUND looks at the inbound queue that the instruction finds. -/
theorem exec_jumpIfInbound (h : SparAt i 0x02 o s) :
    ∃ z, exec (.jumpIfInbound i none) s = .next z ∧
      Retired i (if (s.spar i).inQ.isEmpty then (s.spar i).pc + 1 else o % 1024) s z ∧
      (∀ j : Fin 3, j ≠ i → z.spar j = s.spar j) ∧ KeepsBut [.spars, .free] s z := by
  have hnext : (if (s.spar i).inQ.isEmpty then (s.spar i).pc + 1 else o % 1024) ≤ 1023 := by
    split
    · exact next_le_of_sparAt h
    · exact mod_1024_le o
  obtain ⟨z, hz, hret, -, hrest⟩ := sparInstr_goesOn
    (base := fun o s => sparRetire i (if (s.spar i).inQ.isEmpty then sparNext i s else o % 1024) s) h rfl
    (spared_sparBegun i.isLt o s) (keepsBut_sparBegun ..) hnext
    (by rw [sparNext_sparBegun i.isLt, sparBegun_keeps Spar.inQ (fun _ _ _ _ _ _ => rfl) i.isLt])
  exact ⟨z, hz, hret, hrest⟩

theorem exec_signal (h : SparAt i 0x05 o s) :
    ∃ z, exec (.signal i none) s = .next z ∧ Retired i ((s.spar i).pc + 1) s z ∧
      (z.spar i).events = o % 256 :: (s.spar i).events ∧
      (∀ j : Fin 3, j ≠ i → z.spar j = s.spar j) ∧ KeepsBut [.spars, .free] s z := by
  obtain ⟨z, hz, hret, hspar, hrest⟩ := sparInstr_sets
    (base := fun o s => sparRetire i (sparNext i s) (s.updSpar i fun x => { x with events := o % 256 :: x.events }))
    (fun x => { x with events := o % 256 :: x.events }) h rfl (fun _ => rfl) (next_le_of_sparAt h)
    (by rw [sparNext_sparBegun i.isLt])
  refine ⟨z, hz, hret, ?_, hrest⟩
  rw [hspar, ← sparBegun_keeps Spar.events (fun _ _ _ _ _ _ => rfl) i.isLt o s]
  rfl

/-- LOOP while iterations are left. -/
theorem exec_loop_again (h : SparAt i 0x07 o s) (hleft : ((s.spar i).loopLeft).getD (fld o 10 14) ≠ 0) :
    ∃ z, exec (.loop i none) s = .next z ∧ Retired i (o % 1024) s z ∧
      (z.spar i).loopLeft = some (((s.spar i).loopLeft).getD (fld o 10 14) - 1) ∧
      (∀ j : Fin 3, j ≠ i → z.spar j = s.spar j) ∧ KeepsBut [.spars, .free] s z := by
  have hloop := sparBegun_keeps Spar.loopLeft (fun _ _ _ _ _ _ => rfl) i.isLt o s
  obtain ⟨z, hz, hret, hspar, hrest⟩ := sparInstr_sets (base := loopStep i)
    (fun x => { x with loopLeft := some (((s.spar i).loopLeft).getD (fld o 10 14) - 1) }) h rfl (fun _ => rfl) (mod_1024_le o)
    (by simp only [loopStep, hloop, if_neg hleft])
  exact ⟨z, hz, hret, by rw [hspar]; rfl, hrest⟩

/-- LOOP with no iteration left. -/
theorem exec_loop_ends (h : SparAt i 0x07 o s) (hleft : ((s.spar i).loopLeft).getD (fld o 10 14) = 0) :
    ∃ z, exec (.loop i none) s = .next z ∧ Retired i ((s.spar i).pc + 1) s z ∧ (z.spar i).loopLeft = none ∧
      (∀ j : Fin 3, j ≠ i → z.spar j = s.spar j) ∧ KeepsBut [.spars, .free] s z := by
  have hloop := sparBegun_keeps Spar.loopLeft (fun _ _ _ _ _ _ => rfl) i.isLt o s
  obtain ⟨z, hz, hret, hspar, hrest⟩ := sparInstr_sets (base := loopStep i) (fun x => { x with loopLeft := none }) h rfl
    (fun _ => rfl) (next_le_of_sparAt h) (by simp only [loopStep, hloop, hleft, if_true, sparNext_sparBegun i.isLt])
  exact ⟨z, hz, hret, by rw [hspar]; rfl, hrest⟩

/-! ### Waits (R319) -/

/-- A base instruction whose wait is over at once retires with TIMEOUT as given. -/
theorem sparInstr_waitOver {t : Bool} {base : Nat → State → State} (h : SparAt i opc o s) (hb : baseOpc i opc = true)
    (hbase : base o (sparBegun i o s) = baseWait i (none, t) (sparBegun i o s)) :
    ∃ z, sparInstr i opc none base s = .next z ∧ Retired i ((s.spar i).pc + 1) s z ∧ (z.spar i).timeout = t ∧
      (∀ j : Fin 3, j ≠ i → z.spar j = s.spar j) ∧ KeepsBut [.spars, .free] s z := by
  obtain ⟨z, hz, hret, hspar, hrest⟩ := sparInstr_sets (base := base) (fun x => { x with timeout := t }) h hb (fun _ => rfl)
    (next_le_of_sparAt h) (by rw [hbase, baseWait, sparNext_sparBegun i.isLt])
  exact ⟨z, hz, hret, by rw [hspar]; rfl, hrest⟩

/-- A base instruction that waits stalls at its address. -/
theorem sparInstr_stalls {w : Wait} {base : Nat → State → State} (h : SparAt i opc o s) (hb : baseOpc i opc = true)
    (hbase : base o (sparBegun i o s) = baseWait i (some w, false) (sparBegun i o s)) :
    ∃ z, sparInstr i opc none base s = .next z ∧
      (z.spar i).stall = some { wait := w, atEnd := true, next := (s.spar i).pc + 1 } ∧ (z.spar i).pc = (s.spar i).pc ∧
      (∀ j : Fin 3, j ≠ i → z.spar j = s.spar j) ∧ KeepsBut [.spars, .free] s z := by
  have hrow := sparInstr_eq h hb base
  have hpc := sparBegun_keeps Spar.pc (fun _ _ _ _ _ _ => rfl) i.isLt o s
  rw [hbase] at hrow
  refine ⟨_, hrow, ?_, ?_, fun j hj => ?_, keepsBut_trans (keepsBut_sparBegun ..) (keepsBut_updSpar (by decide) ..)⟩
  · rw [baseWait, spar_updSpar_self i.isLt, hpc]
  · rw [baseWait, spar_updSpar_self i.isLt]
    exact hpc
  · have hne : j.val ≠ i.val := fun e => hj (Fin.ext e)
    exact (spar_updSpar_of_ne hne ..).trans ((spared_sparBegun i.isLt o s).others j hne)

/-- WAIT_TICK's target is that of the state the instruction finds. -/
theorem waitTick_sparBegun {w : Option Wait × Bool} (hw : waitTickOf i o s = w) :
    waitTick i o (sparBegun i o s) = baseWait i w (sparBegun i o s) := by
  subst hw
  unfold waitTick waitTickOf
  rw [sparBegun_keeps Spar.scratch (fun _ _ _ _ _ _ => rfl) i.isLt]
  rfl

theorem exec_waitEvent_stalls (h : SparAt i 0x04 o s) (hns : fld o 8 16 * 1000 ≤ 10000000) :
    ∃ z, exec (.waitEvent i none) s = .next z ∧
      (z.spar i).stall =
        some { wait := .event (o % 256) ((s.tickNow + fld o 8 16 * 1000) % 2 ^ 32), atEnd := true, next := (s.spar i).pc + 1 } ∧
      (z.spar i).pc = (s.spar i).pc ∧ (∀ j : Fin 3, j ≠ i → z.spar j = s.spar j) ∧ KeepsBut [.spars, .free] s z := by
  have hwait : waitEventOf o (sparBegun i o s) = (some (.event (o % 256) ((s.tickNow + fld o 8 16 * 1000) % 2 ^ 32)), false) :=
    if_neg (Nat.not_lt.2 hns)
  exact sparInstr_stalls (base := fun o s => baseWait i (waitEventOf o s) s) h rfl (congrArg (baseWait i · _) hwait)

theorem exec_waitEvent_timesOut (h : SparAt i 0x04 o s) (hns : 10000000 < fld o 8 16 * 1000) :
    ∃ z, exec (.waitEvent i none) s = .next z ∧ Retired i ((s.spar i).pc + 1) s z ∧ (z.spar i).timeout = true ∧
      (∀ j : Fin 3, j ≠ i → z.spar j = s.spar j) ∧ KeepsBut [.spars, .free] s z := by
  have hwait : waitEventOf o (sparBegun i o s) = (none, true) := if_pos hns
  exact sparInstr_waitOver (base := fun o s => baseWait i (waitEventOf o s) s) h rfl (congrArg (baseWait i · _) hwait)

end

/-! ### Boundaries (R325, R326) -/

/-- The Spar at the boundary behind a routine that ended: an instruction is counted, the next address follows. -/
def Spar.ended (r : Run) (x : Spar) : Spar :=
  { x with instructions := (x.instructions + b2n r.counts) % 2 ^ 32, pc := r.next }

/-- A boundary with nothing pending. -/
theorem boundary_quiet {i n : Nat} {r : Run} {y : State} (hf : (y.spar i).fault = none) (hl : (y.spar i).lines = [])
    (hh : r.halt = false) (hn : r.next < 1024) : boundary i (n + 1) r y = y.updSpar i (Spar.ended r) := by
  have hfind : ((List.range 8).reverse.find? fun l => (mget ([] : AMap Nat) l).isSome) = none := by decide
  unfold boundary
  simp only [hf, hl, hh, hfind, if_neg (Nat.not_lt.2 (Nat.le_of_lt_succ hn)), Bool.false_eq_true, if_false]
  exact updSpar_updSpar ..

/-- The boundary behind HALT. -/
theorem boundary_halt {i n : Nat} {r : Run} {y : State} (hf : (y.spar i).fault = none) (hh : r.halt = true) :
    boundary i (n + 1) r y =
      y.updSpar i fun x => { x with instructions := (x.instructions + b2n r.counts) % 2 ^ 32, state := .idle } := by
  unfold boundary
  simp only [hf, hh, if_true]
  exact updSpar_updSpar ..

/-- The only line pending is the one a boundary takes. -/
theorem find?_line {l : Nat} (hl : l < 8) (d : Nat) :
    ((List.range 8).reverse.find? fun k => (mget ([(l, d)] : AMap Nat) k).isSome) = some l := by
  have hmget : (fun k => (mget ([(l, d)] : AMap Nat) k).isSome) = fun k => decide (l = k) := by
    funext k
    by_cases h : l = k <;> simp [mget, h]
  have hfind : ∀ l : Fin 8, (List.range 8).reverse.find? (fun k => decide (l.val = k)) = some l.val := by decide
  rw [hmget]
  exact hfind ⟨l, hl⟩

/-- The line that was pending has been taken. -/
theorem mdel_single (l d : Nat) : mdel ([(l, d)] : AMap Nat) l = [] := by
  simp [mdel]

/-- The Spar that line 7 halts at its boundary. -/
def Spar.halted (r : Run) (x : Spar) : Spar := { x.ended r with lines := mdel x.lines 7, state := .idle }

/-- The Spar that line 6 puts into the bank it names, at its first instruction. -/
def Spar.switched (r : Run) (x : Spar) : Spar :=
  { x.ended r with lines := mdel x.lines 6, bank := x.wantBank, pc := 0, loopLeft := none }

/-- Line 7 halts the Spar. -/
theorem boundary_line7 {i n d : Nat} {r : Run} {y : State} (hf : (y.spar i).fault = none)
    (hl : (y.spar i).lines = [(7, d)]) (hh : r.halt = false) (hn : r.next < 1024) :
    boundary i (n + 1) r y = y.updSpar i (Spar.halted r) := by
  unfold boundary
  simp only [hf, hl, hh, if_neg (Nat.not_lt.2 (Nat.le_of_lt_succ hn)), Bool.false_eq_true, if_false]
  rw [find?_line (by decide)]
  exact (updSpar_updSpar ..).trans (updSpar_updSpar ..)

/-- Line 6 switches the bank. -/
theorem boundary_line6 {i n d : Nat} {r : Run} {y : State} (hf : (y.spar i).fault = none)
    (hl : (y.spar i).lines = [(6, d)]) (hh : r.halt = false) (hn : r.next < 1024) :
    boundary i (n + 1) r y = y.updSpar i (Spar.switched r) := by
  unfold boundary
  simp only [hf, hl, hh, if_neg (Nat.not_lt.2 (Nat.le_of_lt_succ hn)), Bool.false_eq_true, if_false]
  rw [find?_line (by decide)]
  exact (updSpar_updSpar ..).trans (updSpar_updSpar ..)

/-- The Spar whose boundary takes a line's vector. -/
def Spar.taking (l : Nat) (r : Run) (x : Spar) : Spar := { x.ended r with lines := mdel x.lines l }

/-- An instruction, or a vector, of the base microcode ends at once; its effect follows. -/
theorem dispatch_plain {i k : Nat} {y : State} (hd : (y.spar i).badDispatch.contains k = false)
    (hp : (y.spar i).plain k = true) (hb : baseOpc i k = true) (o next : Nat) :
    dispatch i k o next y = (some { upc := 0, next := next }, sparBegun i o y) := by
  unfold dispatch
  simp only [hd, hp, hb, if_true, Bool.false_eq_true, if_false]
  rfl

/-- A dispatch latches the operand. -/
theorem sparBegun_opr {i : Nat} (hi : i < 3) (o : Nat) (s : State) : ((sparBegun i o s).spar i).opr = BitVec.ofNat 24 o := by
  unfold sparBegun openRegs
  rw [spar_updSpar_self hi]
  exact (congrArg Spar.opr (spar_updSpar_self hi ..) :)

/-- A line 0 to 5 dispatches its vector with its data, and the boundary behind the vector follows. -/
theorem boundary_vector {i n l d : Nat} {r : Run} {y : State} (hi : i < 3) (hl6 : l < 6) (hf : (y.spar i).fault = none)
    (hl : (y.spar i).lines = [(l, d)]) (hh : r.halt = false) (hn : r.next < 1024)
    (hd : (y.spar i).badDispatch.contains (0xF8 + l) = false) (hp : (y.spar i).plain (0xF8 + l) = true) :
    boundary i (n + 1) r y =
      boundary i n { upc := 0, next := r.next } (sparBegun i d (y.updSpar i (Spar.taking l r))) := by
  have htaken := spar_updSpar_self hi (Spar.taking l r) y
  have hbase : baseOpc i (0xF8 + l) = true := by simp [baseOpc]
  have hvector := dispatch_plain (y := y.updSpar i (Spar.taking l r)) (by rw [htaken]; exact hd) (by rw [htaken]; exact hp)
    hbase d r.next
  have hdata : mgetD ([(l, d)] : AMap Nat) l 0 = d := by simp [mgetD, mget]
  have hmerge : ((y.updSpar i fun x => { x with instructions := (x.instructions + b2n r.counts) % 2 ^ 32 }).updSpar i
      fun x => { x with pc := r.next }).updSpar i (fun x => { x with lines := mdel x.lines l }) =
        y.updSpar i (Spar.taking l r) := (congrArg (State.updSpar · i _) (updSpar_updSpar ..)).trans (updSpar_updSpar ..)
  rw [boundary]
  simp only [hf, hl, hh, if_neg (Nat.not_lt.2 (Nat.le_of_lt_succ hn)), Bool.false_eq_true, if_false]
  rw [find?_line (by omega)]
  split
  · contradiction
  · next h7 => exact absurd (Option.some.inj h7) (by omega)
  · next h6 => exact absurd (Option.some.inj h6) (by omega)
  · next k _ _ hk =>
    obtain rfl : l = k := Option.some.inj hk
    rw [hmerge, hdata, hvector]

/-! ### What a change of one Spar leaves -/

/-- A change of one Spar leaves the other Spars and every other part. -/
theorem updSpar_others (i : Fin 3) (f : Spar → Spar) (s : State) :
    (∀ j : Fin 3, j ≠ i → (s.updSpar i f).spar j = s.spar j) ∧ KeepsBut [.spars] s (s.updSpar i f) :=
  ⟨fun _ hj => spar_updSpar_of_ne (fun e => hj (Fin.ext e)) .., keepsBut_updSpar (by decide) ..⟩

/-- Such changes follow each other. -/
theorem others_trans {i : Fin 3} {ps : List Part} {s y z : State}
    (h : (∀ j : Fin 3, j ≠ i → y.spar j = s.spar j) ∧ KeepsBut ps s y)
    (h' : (∀ j : Fin 3, j ≠ i → z.spar j = y.spar j) ∧ KeepsBut ps y z) :
    (∀ j : Fin 3, j ≠ i → z.spar j = s.spar j) ∧ KeepsBut ps s z :=
  ⟨fun j hj => (h'.1 j hj).trans (h.1 j hj), keepsBut_trans h.2 h'.2⟩

/-- More parts may change. -/
theorem others_mono {i : Fin 3} {ps qs : List Part} {s y : State} (hps : ps ⊆ qs)
    (h : (∀ j : Fin 3, j ≠ i → y.spar j = s.spar j) ∧ KeepsBut ps s y) :
    (∀ j : Fin 3, j ≠ i → y.spar j = s.spar j) ∧ KeepsBut qs s y := h.imp_right (keepsBut_mono hps)

/-- A dispatch leaves the other Spars. -/
theorem sparBegun_others (i : Fin 3) (o : Nat) (s : State) :
    (∀ j : Fin 3, j ≠ i → (sparBegun i o s).spar j = s.spar j) ∧ KeepsBut [.spars, .free] s (sparBegun i o s) :=
  ⟨fun j hj => (spared_sparBegun i.isLt o s).others j fun e => hj (Fin.ext e), keepsBut_sparBegun ..⟩

/-- A Spar with a line pending (R326). -/
def Spar.raised (l d : Nat) (x : Spar) : Spar := { x with lines := mset x.lines l d }

/-- What decides whether a Spar goes on, and where. -/
def Spar.stand (x : Spar) : SparState × Option Stall × Nat × Option (Nat × Nat) := (x.state, x.stall, x.pc, x.fault)

/-- Whether a Spar goes is seen where it stands. -/
theorem sparGoes_updSpar {i : Nat} (hi : i < 3) {f : Spar → Spar} (hf : ∀ x, (f x).stand = x.stand) (s : State) :
    sparGoes (s.updSpar i f) i = sparGoes s i := by
  have hstand := hf (s.spar i)
  simp only [Spar.stand, Prod.mk.injEq] at hstand
  obtain ⟨hstate, hstall, -⟩ := hstand
  rw [sparGoes, spar_updSpar_self hi, hstate, hstall]
  rfl

/-- A line is taken at the boundary where a Spar that goes stands (R326). -/
theorem takeLine_updSpar {i : Nat} (hi : i < 3) {f : Spar → Spar} (hf : ∀ x, (f x).stand = x.stand) {s : State}
    (h : sparGoes s i = true) :
    takeLine i (s.updSpar i f) = boundary i 9 { upc := 0, next := (s.spar i).pc, counts := false } (s.updSpar i f) ∧
      ((s.updSpar i f).spar i).fault = (s.spar i).fault := by
  have hstand := hf (s.spar i)
  simp only [Spar.stand, Prod.mk.injEq] at hstand
  obtain ⟨-, -, hpc, hfault⟩ := hstand
  have hself := spar_updSpar_self hi f s
  exact ⟨(if_pos ((sparGoes_updSpar hi hf s).trans h)).trans (by rw [hself, hpc]), by rw [hself, hfault]⟩

section
variable {i : Fin 3} {s : State}

/-- A Spar that goes is RUNNING, does not wait, and has its island. -/
theorem running_of_sparGoes (h : sparGoes s i = true) :
    (s.spar i).state = .running ∧ (s.spar i).stall = none ∧ sparPowered s i = true := by
  simpa [sparGoes, and_assoc] using h

/-- HALT. -/
theorem exec_halt {o : Nat} (h : SparAt i 0x06 o s) :
    ∃ z, exec (.halt i none) s = .next z ∧ (z.spar i).state = .idle ∧
      (z.spar i).instructions = ((s.spar i).instructions + 1) % 2 ^ 32 ∧
      (∀ j : Fin 3, j ≠ i → z.spar j = s.spar j) ∧ KeepsBut [.spars, .free] s z := by
  have hrow := sparInstr_eq h rfl
    (fun _ s => boundary i 9 { upc := 0, next := sparNext i s, halt := true } s)
  obtain ⟨-, -, -, -, -, -, -, hfault, -⟩ := h
  have hf := sparBegun_keeps Spar.fault (fun _ _ _ _ _ _ => rfl) i.isLt o s
  have hcount := sparBegun_keeps Spar.instructions (fun _ _ _ _ _ _ => rfl) i.isLt o s
  rw [boundary_halt (hf.trans hfault) rfl] at hrow
  refine ⟨_, hrow, ?_, ?_, others_trans (sparBegun_others ..) (others_mono (by decide) (updSpar_others ..))⟩
  · rw [spar_updSpar_self i.isLt]
  · rw [spar_updSpar_self i.isLt, hcount]
    rfl

/-! ### Lines (R323, R326, R349, R350) -/

/-- HALT_REQUEST at a Spar that goes. -/
theorem exec_haltRequest (h : s.powered = true) (hgo : sparGoes s i = true) (hf : (s.spar i).fault = none)
    (hl : (s.spar i).lines = []) (hpc : (s.spar i).pc < 1024) :
    ∃ z, exec (.haltRequest i) s = .next z ∧ (z.spar i).state = .idle ∧ (z.spar i).lines = [] ∧
      (z.spar i).pc = (s.spar i).pc ∧ (∀ j : Fin 3, j ≠ i → z.spar j = s.spar j) ∧ KeepsBut [.spars] s z := by
  obtain ⟨hrun, -, hpow⟩ := running_of_sparGoes hgo
  have hrow : execHaltRequest i s = .next (takeLine i (s.updSpar i (Spar.raised 7 0))) :=
    (running_next h).trans (congrArg Host.Outcome.next (if_pos (by simp [hrun, hpow])))
  obtain ⟨htake, hfault⟩ := takeLine_updSpar i.isLt (f := Spar.raised 7 0) (fun _ => rfl) hgo
  have hline : ((s.updSpar i (Spar.raised 7 0)).spar i).lines = [(7, 0)] := by
    rw [spar_updSpar_self i.isLt, Spar.raised, hl]
    rfl
  rw [htake, boundary_line7 (hfault.trans hf) hline rfl hpc] at hrow
  refine ⟨_, hrow, ?_, ?_, ?_, others_trans (updSpar_others ..) (updSpar_others ..)⟩
  all_goals rw [spar_updSpar_self i.isLt]
  · rfl
  · exact (congrArg (mdel · 7) hline :).trans (mdel_single 7 0)
  · rfl

/-- A program as a bank holds it: the words that are not zero, at their places from `m` on. -/
def bankWords (p : List (BitVec 32)) (m : Nat) : AMap Nat :=
  ((p.zipIdx m).filter fun e => e.1 != 0).map fun e => (e.2, e.1.toNat)

theorem bankWords_cons (a : BitVec 32) (p : List (BitVec 32)) (m : Nat) :
    bankWords (a :: p) m = if a = 0 then bankWords p (m + 1) else (m, a.toNat) :: bankWords p (m + 1) := by
  unfold bankWords
  rw [List.zipIdx_cons]
  split
  · next ha => rw [List.filter_cons_of_neg (by simp [ha])]
  · next ha => rw [List.filter_cons_of_pos (by simpa using ha), List.map_cons]

/-- No word stands below the first place. -/
theorem mget_bankWords_of_lt (p : List (BitVec 32)) {k m : Nat} (h : k < m) : mget (bankWords p m) k = none := by
  induction p generalizing m with
  | nil => rfl
  | cons a p ih =>
    rw [bankWords_cons]
    split
    · exact ih (Nat.lt_succ_of_lt h)
    · exact (if_neg (Nat.ne_of_gt h)).trans (ih (Nat.lt_succ_of_lt h))

/-- Every word of a program stands at its place. -/
theorem mgetD_bankWords (p : List (BitVec 32)) (m k : Nat) : mgetD (bankWords p m) (m + k) 0 = (p.getD k 0).toNat := by
  induction p generalizing m k with
  | nil => rfl
  | cons a p ih =>
    rw [bankWords_cons]
    cases k with
    | zero =>
      split
      · next ha => simp [mgetD, mget_bankWords_of_lt p (Nat.lt_succ_self m), ha]
      · simp [mgetD, mget]
    | succ k =>
      have hrest := ih (m + 1) k
      rw [Nat.succ_add_eq_add_succ] at hrest
      split
      · exact hrest
      · exact (congrArg (Option.getD · 0) (if_neg (by omega))).trans hrest

/-- The Spar after Campel wrote its inactive bank and served its queues (R314, R323). -/
def Spar.loaded (bank : Nat) (p q : List (BitVec 32)) (n : Nat) (x : Spar) : Spar :=
  { x with prog := if bank = x.bank then x.prog else upd x.prog bank fun _ => bankWords (p.take 1024) 0
           badProg := if bank = x.bank then x.badProg else x.badProg.filter fun a => a / 1024 != bank
           inQ := x.inQ ++ (q.take (64 - x.inQ.length)).map (·.toNat), outQ := x.outQ.drop n }

/-- The Spar that Campel tells to switch banks. -/
def Spar.switching (bank : Nat) (p q : List (BitVec 32)) (n : Nat) (x : Spar) : Spar :=
  { (x.loaded bank p q n).raised 6 0 with wantBank := bank }

/-- What line 6 finds of the Spar. -/
theorem Spar.switching_eqs (bank : Nat) (p q : List (BitVec 32)) (n : Nat) (x : Spar) :
    (x.switching bank p q n).lines = mset x.lines 6 0 ∧ (x.switching bank p q n).wantBank = bank ∧
      (x.switching bank p q n).state = x.state := ⟨rfl, rfl, rfl⟩

/-- The Spar that Campel starts in a bank (R349). -/
def Spar.started (bank : Nat) (p q : List (BitVec 32)) (n : Nat) (x : Spar) : Spar :=
  { x.loaded bank p q n with state := .running, bank := bank, pc := 0, loopLeft := none }

/-- BANK_SWITCH where Campel and the island run, by the state of the Spar. -/
theorem execBankSwitch_eq (h : s.powered = true) (hc : s.campel = true) (hp : sparPowered s i = true) (b : Fin 2)
    (p q : List (BitVec 32)) (n : Nat) :
    execBankSwitch i b p q n s = .next (match (s.spar i).state with
      | .running => takeLine i (s.updSpar i (Spar.switching b p q n))
      | .idle => s.updSpar i (Spar.started b p q n)
      | _ => s) := by
  have hstate : ((s.updSpar i (Spar.loaded b p q n)).spar i).state = (s.spar i).state := by
    rw [spar_updSpar_self i.isLt]
    rfl
  have hmerge (f : Spar → Spar) : (loadProgram i b p q n s).updSpar i f = s.updSpar i fun x => f (x.loaded b p q n) :=
    updSpar_updSpar ..
  refine (running_next h).trans (congrArg Host.Outcome.next ((if_neg (by simp [hc, hp])).trans ?_))
  rw [← hstate]
  simp only [hmerge]
  rfl

/-- BANK_SWITCH of an IDLE Spar to the other bank: it starts the program that Campel wrote there. -/
theorem exec_bankSwitch_idle {b : Fin 2} (h : s.powered = true) (hc : s.campel = true) (hp : sparPowered s i = true)
    (hidle : (s.spar i).state = .idle) (hb : b.val ≠ (s.spar i).bank) (p q : List (BitVec 32)) (n : Nat) :
    ∃ z, exec (.bankSwitch i b p q n) s = .next z ∧ (z.spar i).state = .running ∧ (z.spar i).bank = b ∧ (z.spar i).pc = 0 ∧
      (∀ k : Fin 1024, (z.spar i).instr k = (p.getD k 0).toNat) ∧
      (z.spar i).inQ = (s.spar i).inQ ++ (q.take (64 - (s.spar i).inQ.length)).map (·.toNat) ∧
      (z.spar i).outQ = (s.spar i).outQ.drop n ∧ (∀ j : Fin 3, j ≠ i → z.spar j = s.spar j) ∧ KeepsBut [.spars] s z := by
  have hrow := execBankSwitch_eq h hc hp b p q n
  rw [hidle] at hrow
  have hself := spar_updSpar_self i.isLt (Spar.started b p q n) s
  refine ⟨_, hrow, by rw [hself]; rfl, by rw [hself]; rfl, by rw [hself]; rfl, fun k => ?_, by rw [hself]; rfl,
    by rw [hself]; rfl, updSpar_others i _ s⟩
  have hprog : vat ((s.spar i).started b p q n).prog b = bankWords (p.take 1024) 0 :=
    (congrArg (vat · b.val) (if_neg hb)).trans (vat_upd_self _ _ _ b.isLt)
  have hword := mgetD_bankWords (p.take 1024) 0 k
  rw [Nat.zero_add] at hword
  rw [hself]
  refine ((congrArg (mgetD · k.val 0) hprog).trans hword).trans ?_
  rw [List.getD_eq_getElem?_getD, List.getElem?_take_of_lt k.isLt, List.getD_eq_getElem?_getD]

/-- BANK_SWITCH at a Spar that goes: line 6 is taken where it stands. -/
theorem exec_bankSwitch_running (h : s.powered = true) (hgo : sparGoes s i = true) (hf : (s.spar i).fault = none)
    (hl : (s.spar i).lines = []) (hpc : (s.spar i).pc < 1024) (hc : s.campel = true) (b : Fin 2) (p q : List (BitVec 32))
    (n : Nat) :
    ∃ z, exec (.bankSwitch i b p q n) s = .next z ∧ (z.spar i).state = .running ∧ (z.spar i).bank = b ∧ (z.spar i).pc = 0 ∧
      (z.spar i).lines = [] ∧ (z.spar i).loopLeft = none ∧ (∀ j : Fin 3, j ≠ i → z.spar j = s.spar j) ∧
      KeepsBut [.spars] s z := by
  obtain ⟨hrun, -, hpow⟩ := running_of_sparGoes hgo
  have hrow := execBankSwitch_eq h hc hpow b p q n
  obtain ⟨htake, hfault⟩ := takeLine_updSpar i.isLt (f := Spar.switching b p q n) (fun _ => rfl) hgo
  obtain ⟨hlines, hwant, hstate⟩ := Spar.switching_eqs b p q n (s.spar i)
  rw [← spar_updSpar_self i.isLt (Spar.switching b p q n) s] at hlines hwant hstate
  have hline : ((s.updSpar i (Spar.switching b p q n)).spar i).lines = [(6, 0)] := by
    rw [hlines, hl]
    rfl
  rw [hrun] at hrow
  dsimp only at hrow
  rw [htake, boundary_line6 (hfault.trans hf) hline rfl hpc] at hrow
  have hothers := updSpar_others i (Spar.switching b p q n) s
  generalize s.updSpar i (Spar.switching b p q n) = y at *
  refine ⟨_, hrow, ?_, ?_, ?_, ?_, ?_, others_trans hothers (updSpar_others ..)⟩
  all_goals rw [spar_updSpar_self i.isLt]
  · exact hstate.trans hrun
  · exact hwant
  · rfl
  · exact (congrArg (mdel · 6) hline :).trans (mdel_single 6 0)
  · rfl

/-- INTERRUPT_VECTOR at a RUNNING Spar raises its line. -/
theorem execInterruptVector_eq (h : s.powered = true) (hrun : (s.spar i).state = .running) (hp : sparPowered s i = true)
    (l : Fin 6) (d : BitVec 24) :
    execInterruptVector i l d s = .next (takeLine i (s.updSpar i (Spar.raised l d.toNat))) :=
  (running_next h).trans (congrArg Host.Outcome.next (if_pos (by simp [hrun, hp])))

/-- INTERRUPT_VECTOR at a Spar that waits keeps the line pending (R350). -/
theorem exec_interruptVector_pends (h : s.powered = true) (hrun : (s.spar i).state = .running)
    (hp : sparPowered s i = true) (hstall : (s.spar i).stall.isSome = true) (l : Fin 6) (d : BitVec 24) :
    ∃ z, exec (.interruptVector i l d) s = .next z ∧
      z.spar i = { s.spar i with lines := mset (s.spar i).lines l d.toNat } ∧
      (∀ j : Fin 3, j ≠ i → z.spar j = s.spar j) ∧ KeepsBut [.spars] s z := by
  have hrow := execInterruptVector_eq h hrun hp l d
  have hwaits : sparGoes (s.updSpar i (Spar.raised l d.toNat)) i = false := by
    rw [sparGoes_updSpar i.isLt (f := Spar.raised l d.toNat) fun _ => rfl, sparGoes, Option.isNone_eq_false_iff.2 hstall]
    simp
  rw [takeLine, hwaits, if_neg Bool.false_ne_true] at hrow
  exact ⟨_, hrow, spar_updSpar_self i.isLt .., updSpar_others i _ s⟩

/-- INTERRUPT_VECTOR at a Spar that goes runs the line's vector on its data. -/
theorem exec_interruptVector {l : Fin 6} (h : s.powered = true) (hgo : sparGoes s i = true) (hf : (s.spar i).fault = none)
    (hl : (s.spar i).lines = []) (hpc : (s.spar i).pc < 1024)
    (hd : (s.spar i).badDispatch.contains (0xF8 + l.val) = false) (hplain : (s.spar i).plain (0xF8 + l.val) = true)
    (d : BitVec 24) :
    ∃ z, exec (.interruptVector i l d) s = .next z ∧ (z.spar i).opr = d ∧ (z.spar i).lines = [] ∧
      (z.spar i).pc = (s.spar i).pc ∧ (z.spar i).state = .running ∧ (∀ j : Fin 3, j ≠ i → z.spar j = s.spar j) ∧
      KeepsBut [.spars, .free] s z := by
  obtain ⟨hrun, -, hpow⟩ := running_of_sparGoes hgo
  have hrow := execInterruptVector_eq h hrun hpow l d
  obtain ⟨htake, hfault⟩ := takeLine_updSpar i.isLt (f := Spar.raised l d.toNat) (fun _ => rfl) hgo
  have hself := spar_updSpar_self i.isLt (Spar.raised l d.toNat) s
  have hline : ((s.updSpar i (Spar.raised l d.toNat)).spar i).lines = [(l.val, d.toNat)] := by
    rw [hself, Spar.raised, hl]
    rfl
  rw [htake, boundary_vector i.isLt l.isLt (hfault.trans hf) hline rfl hpc (by rw [hself]; exact hd)
    (by rw [hself]; exact hplain)] at hrow
  have hraised := updSpar_others i (Spar.raised l d.toNat) s
  generalize s.updSpar i (Spar.raised l d.toNat) = y at *
  have htaken := spar_updSpar_self i.isLt (Spar.taking l { upc := 0, next := (s.spar i).pc, counts := false }) y
  have htaking := updSpar_others i (Spar.taking l { upc := 0, next := (s.spar i).pc, counts := false }) y
  generalize y.updSpar i (Spar.taking l { upc := 0, next := (s.spar i).pc, counts := false }) = v at *
  have hkeeps : ((sparBegun i d.toNat v).spar i).control = (v.spar i).control := (sparBegun_spar i.isLt _ v).1
  rw [htaken] at hkeeps
  simp only [Spar.control, Prod.mk.injEq] at hkeeps
  obtain ⟨-, -, -, hstate', hlines', hfault'⟩ := hkeeps
  have hnone : ((sparBegun i d.toNat v).spar i).lines = [] := hlines'.trans ((congrArg (mdel · l.val) hline :).trans (mdel_single ..))
  rw [boundary_quiet (hfault'.trans (hfault.trans hf)) hnone rfl hpc] at hrow
  have hopr : ((sparBegun i d.toNat v).spar i).opr = d := by simp [sparBegun_opr i.isLt]
  refine ⟨_, hrow, ?_, ?_, ?_, ?_, ?_⟩
  · rw [spar_updSpar_self i.isLt]
    exact hopr
  · rw [spar_updSpar_self i.isLt]
    exact hnone
  · rw [spar_updSpar_self i.isLt]
    rfl
  · rw [spar_updSpar_self i.isLt]
    exact hstate'.trans ((congrArg Spar.state hself).trans hrun)
  · exact others_trans (others_mono (by decide) (others_trans hraised htaking)) <|
      others_trans (sparBegun_others ..) (others_mono (by decide) (updSpar_others ..))

/-! ### The end of a wait (R319) -/

/-- A wait that ends its routine: the instruction is counted, and its next address follows (R319, R323). -/
theorem release_eq {y : Stall} {t : Bool} (hend : y.atEnd = true) (hf : (s.spar i).fault = none)
    (hl : (s.spar i).lines = []) (hn : y.next < 1024) :
    ∃ z, release i y t s = z ∧ (z.spar i).stall = none ∧ (z.spar i).timeout = t ∧ (z.spar i).pc = y.next ∧
      (z.spar i).instructions = ((s.spar i).instructions + 1) % 2 ^ 32 ∧
      (∀ j : Fin 3, j ≠ i → z.spar j = s.spar j) ∧ KeepsBut [.spars] s z := by
  have hself := spar_updSpar_self i.isLt (fun x => { x with stall := none, timeout := t }) s
  have hothers := updSpar_others i (fun x => { x with stall := none, timeout := t }) s
  refine ⟨_, rfl, ?_⟩
  rw [release, if_pos hend]
  generalize s.updSpar i (fun x => { x with stall := none, timeout := t }) = v at *
  rw [boundary_quiet (by rw [hself]; exact hf) (by rw [hself]; exact hl) rfl hn]
  refine ⟨?_, ?_, ?_, ?_, others_trans hothers (updSpar_others ..)⟩
  all_goals rw [spar_updSpar_self i.isLt, hself]
  all_goals rfl

/-- TWAIT_RELEASE once the TICK awaited has come. -/
theorem exec_twaitRelease {tk : BitVec 32} {y : Stall} {t : Nat} (h : s.powered = true) (hp : sparPowered s i = true)
    (hs : (s.spar i).stall = some y) (hend : y.atEnd = true) (hf : (s.spar i).fault = none) (hl : (s.spar i).lines = [])
    (hn : y.next < 1024) (hw : y.wait = .tick t) (ht : 0 ≤ tickDiff tk.toNat t) :
    ∃ z, exec (.twaitRelease i tk) s = .next z ∧ (z.spar i).stall = none ∧ (z.spar i).timeout = false ∧
      (z.spar i).pc = y.next ∧ (z.spar i).instructions = ((s.spar i).instructions + 1) % 2 ^ 32 ∧
      (∀ j : Fin 3, j ≠ i → z.spar j = s.spar j) ∧ KeepsBut [.spars] s z := by
  have hrow : execTwaitRelease i tk s = .next (release i y false s) := by
    refine (running_next h).trans (congrArg Host.Outcome.next ?_)
    simp only [hs, hw]
    exact if_pos ⟨hp, ht⟩
  obtain ⟨z, hz, hrest⟩ := release_eq (t := false) hend hf hl hn
  exact ⟨z, hrow.trans (congrArg _ hz), hrest⟩

/-- What EWAIT_RELEASE decides of a Spar that waits for an event: it goes on, with TIMEOUT or without. -/
theorem exec_ewaitRelease {e : BitVec 8} {tk : BitVec 32} {y : Stall} {m t : Nat} {late : Bool} (h : s.powered = true)
    (hp : sparPowered s i = true) (hs : (s.spar i).stall = some y) (hend : y.atEnd = true) (hf : (s.spar i).fault = none)
    (hl : (s.spar i).lines = []) (hn : y.next < 1024) (hw : y.wait = .event m t)
    (ht : if late then e.toNat &&& m = 0 ∧ 0 ≤ tickDiff tk.toNat t else e.toNat &&& m ≠ 0) :
    ∃ z, exec (.ewaitRelease i e tk) s = .next z ∧ (z.spar i).stall = none ∧ (z.spar i).timeout = late ∧
      (z.spar i).pc = y.next ∧ (z.spar i).instructions = ((s.spar i).instructions + 1) % 2 ^ 32 ∧
      (∀ j : Fin 3, j ≠ i → z.spar j = s.spar j) ∧ KeepsBut [.spars] s z := by
  have hrow : execEwaitRelease i e tk s = .next (release i y late s) := by
    refine (running_next h).trans (congrArg Host.Outcome.next ?_)
    simp only [hs, hw, hp]
    cases late with
    | false => exact if_pos ht
    | true => exact (if_neg (not_not.2 ht.1)).trans (if_pos ht.2)
  obtain ⟨z, hz, hrest⟩ := release_eq (t := late) hend hf hl hn
  exact ⟨z, hrow.trans (congrArg _ hz), hrest⟩

end

/-- Settles O31: the instructions by what their effect leaves of the Spar's control (`sparInstr_goesOn`), the lines by the
boundary that takes them, the waits by `release_eq`. -/
theorem sparInstructionsControlTheProgram : Obligations.SparInstructionsControlTheProgram := by
  unfold Obligations.SparInstructionsControlTheProgram
  exact ⟨fun i o s h => exec_nop h, fun i o s h => exec_jump h, fun i o s h => exec_jumpIfInbound h,
    fun i o t s h hw => sparInstr_waitOver h rfl (waitTick_sparBegun hw),
    fun i o y s h hw => sparInstr_stalls h rfl (waitTick_sparBegun hw),
    fun i o s h hns => exec_waitEvent_stalls h hns, fun i o s h hns => exec_waitEvent_timesOut h hns,
    fun i o s h => exec_signal h, fun i o s h => exec_halt h, fun i o s h hleft => exec_loop_again h hleft,
    fun i o s h hleft => exec_loop_ends h hleft, fun i s h hgo hf hl hpc => exec_haltRequest h hgo hf hl hpc,
    fun i b p q n s h hc hp hidle hb => exec_bankSwitch_idle h hc hp hidle hb p q n,
    fun i b p q n s h hgo hf hl hpc hc => exec_bankSwitch_running h hgo hf hl hpc hc b p q n,
    fun i l d s h hgo hf hl hpc hd hp => exec_interruptVector h hgo hf hl hpc hd hp d,
    fun i l d s h hrun hp hstall => exec_interruptVector_pends h hrun hp hstall l d,
    fun i tk y t s h hp hs hend hf hl hn hw ht => exec_twaitRelease h hp hs hend hf hl hn hw ht,
    fun i e tk y m t s h hp hs hend hf hl hn hw he => exec_ewaitRelease (late := false) h hp hs hend hf hl hn hw he,
    fun i e tk y m t s h hp hs hend hf hl hn hw he ht =>
      exec_ewaitRelease (late := true) h hp hs hend hf hl hn hw ⟨he, ht⟩⟩

end Sys2Proof.Machine
end

section
/-! ## The RF serial port and the paths of a band (R681 to R683, R695 to R697, R705 to R709) -/
namespace Sys2Proof.Machine
open Sys2Proof

/-! ### Frames and biases -/

/-- The state with everything that a frame on the RF serial port and a bias may change put at its default. -/
def State.besidesFrames (s : State) : State :=
  { s with out := [], radio := { s.radio with rfNow := none, frames := [], bias := Vector.replicate 2 {} } }

theorem rfStart_besidesFrames (s : State) : (rfStart s).besidesFrames = s.besidesFrames := by
  unfold rfStart
  split <;> rfl

theorem rfPush_besidesFrames (prio cs word : Nat) (s : State) : (rfPush prio cs word s).besidesFrames = s.besidesFrames :=
  rfStart_besidesFrames _

theorem sendAtten_besidesFrames (prio p code : Nat) (s : State) : (sendAtten prio p code s).besidesFrames = s.besidesFrames :=
  rfPush_besidesFrames ..

theorem setBias_besidesFrames (p code : Nat) (s : State) : (setBias p code s).besidesFrames = s.besidesFrames := by
  refine foldl_keep State.besidesFrames _ (fun i s => ?_) _ s
  split <;> rfl

/-- What leaves everything besides frames leaves the Spars, the bands, the paths and every part but the radio and the log. -/
theorem of_besidesFrames {s z : State} (h : z.besidesFrames = s.besidesFrames) :
    z.spars = s.spars ∧ z.radio.band = s.radio.band ∧ z.radio.path = s.radio.path ∧ KeepsBut [.radio, .out] s z := by
  refine ⟨(congrArg State.spars h :), (congrArg (fun x : State => x.radio.band) h :),
    (congrArg (fun x : State => x.radio.path) h :), ?_⟩
  simp only [State.besidesFrames, State.mk.injEq] at h
  simp [KeepsBut, h]

/-- A frame goes out on a port that was free and had nothing waiting. -/
def rfSend (prio cs word : Nat) (s : State) : State :=
  (s.updRad fun r =>
    { r with rfNow := some { prio, cs, word := word % 2 ^ (vat s.radio.device cs).wordBits }, frames := [] }).emit
    (.rf cs (word % 2 ^ (vat s.radio.device cs).wordBits))

/-- A frame requested while the port is free and nothing waits is sent at once (R682). -/
theorem rfPush_free {s : State} (hnow : s.radio.rfNow = none) (hf : s.radio.frames = []) (prio cs word : Nat) :
    rfPush prio cs word s = rfSend prio cs word s := by
  simp [rfPush, rfStart, rfSend, hnow, hf, insFrame, State.updRad, State.emit]

/-! ### One path -/

/-- Path `p` just changed. -/
theorem pathOf_updPath_self {p : Nat} (hp : p < 8) (f : Path → Path) (s : State) : (s.updPath p f).pathOf p = f (s.pathOf p) :=
  vat_upd_self _ _ _ hp

/-- A change of a path leaves the others. -/
theorem pathOf_updPath_of_ne {p q : Nat} (h : q ≠ p) (f : Path → Path) (s : State) : (s.updPath p f).pathOf q = s.pathOf q :=
  vat_upd_ne _ _ _ _ (Ne.symm h)

/-- One path is as given, and with frames and biases that is all that changed. -/
structure PathTo (p : Nat) (x : Path) (s z : State) : Prop where
  path : z.pathOf p = x
  others : ∀ q, q ≠ p → z.pathOf q = s.pathOf q
  band : z.radio.band = s.radio.band
  spars : z.spars = s.spars
  rest : KeepsBut [.radio, .out] s z

theorem PathTo.refl (p : Nat) (s : State) : PathTo p (s.pathOf p) s s := ⟨rfl, fun _ _ => rfl, rfl, rfl, keepsBut_refl ..⟩

/-- A change of a path, with frames and biases. -/
theorem PathTo.of_updPath {p : Nat} (hp : p < 8) {f : Path → Path} {s z : State}
    (h : z.besidesFrames = (s.updPath p f).besidesFrames) : PathTo p (f (s.pathOf p)) s z := by
  obtain ⟨hspars, hband, hpath, hk⟩ := of_besidesFrames h
  have hof (q : Nat) : z.pathOf q = (s.updPath p f).pathOf q := (congrArg (vat · q) hpath :)
  exact ⟨(hof p).trans (pathOf_updPath_self hp ..), fun q hq => (hof q).trans (pathOf_updPath_of_ne hq ..), hband, hspars,
    keepsBut_trans (by simp [KeepsBut, State.updPath]) hk⟩

/-- A mute sets the path's flag and takes its dither away (R695). -/
theorem pathTo_mutePath {p : Nat} (hp : p < 8) (s : State) :
    PathTo p { s.pathOf p with muted := true, dithering := none } s (mutePath p s) :=
  .of_updPath hp (f := fun x => { x with muted := true, dithering := none })
    ((setBias_besidesFrames ..).trans (sendAtten_besidesFrames ..))

theorem pathTo_unmutePath {p : Nat} (hp : p < 8) (s : State) :
    PathTo p { s.pathOf p with muted := false } s (unmutePath p s) :=
  .of_updPath hp (f := fun x => { x with muted := false }) ((sendAtten_besidesFrames ..).trans (setBias_besidesFrames ..))

/-- A step makes its entry the applied one, whether the path is muted or not (R706, R707). -/
theorem pathTo_stepTo {p : Nat} (hp : p < 8) (e : Nat) (s : State) :
    ∃ x : Path, x.applied = e ∧ x.muted = (s.pathOf p).muted ∧ PathTo p x s (stepTo p e s) := by
  unfold stepTo
  dsimp only
  split
  · next he => exact ⟨s.pathOf p, he.symm, rfl, .refl p s⟩
  · refine ⟨{ s.pathOf p with applied := e, dithering := none }, rfl, rfl,
      .of_updPath hp (f := fun x => { x with applied := e, dithering := none }) ?_⟩
    split
    · rfl
    · split
      · exact (sendAtten_besidesFrames ..).trans (setBias_besidesFrames ..)
      · exact (setBias_besidesFrames ..).trans (sendAtten_besidesFrames ..)

/-- A dither step of a path that is not muted puts its sign on (R708). -/
theorem pathTo_ditherStep {p : Nat} (hp : p < 8) {s : State} (hm : (s.pathOf p).muted = false) (sign : Option Bool) :
    ∃ x : Path, x.dithering = sign ∧ x.applied = (s.pathOf p).applied ∧ PathTo p x s (ditherStep p sign s) := by
  unfold ditherStep
  dsimp only
  split
  · next h =>
    have hsign : (s.pathOf p).dithering = sign := by simpa [hm] using h
    exact ⟨s.pathOf p, hsign, rfl, .refl p s⟩
  · exact ⟨{ s.pathOf p with dithering := sign }, rfl, rfl,
      .of_updPath hp (f := fun x => { x with dithering := sign }) (sendAtten_besidesFrames ..)⟩

/-! ### The two paths of a band (R695, R696) -/

/-- One path of a band as the band wants it. -/
def syncPath (want : Bool) (p : Nat) (s : State) : State :=
  if want && (s.pathOf p).muted then unmutePath p s else if !want && !(s.pathOf p).muted then mutePath p s else s

theorem syncBand_eq (b : Nat) (s : State) :
    syncBand b s = syncEn b (syncPath (bandOpen s b) (2 * b + 1) (syncPath (bandOpen s b) (2 * b) s)) := rfl

/-- Afterwards the path is muted unless the band wants it. -/
theorem pathTo_syncPath {p : Nat} (hp : p < 8) (want : Bool) (s : State) :
    ∃ x : Path, x.muted = !want ∧ PathTo p x s (syncPath want p s) := by
  unfold syncPath
  cases want with
  | true =>
    cases hm : (s.pathOf p).muted with
    | true => exact ⟨_, rfl, pathTo_unmutePath hp s⟩
    | false => exact ⟨_, hm, .refl p s⟩
  | false =>
    cases hm : (s.pathOf p).muted with
    | true => exact ⟨_, hm, .refl p s⟩
    | false => exact ⟨_, rfl, pathTo_mutePath hp s⟩

/-! ### Bands and Spars -/

/-- The Spars and the bands. -/
def State.bands (s : State) : Vector Spar 3 × Vector Band 4 := (s.spars, s.radio.band)

theorem PathTo.bands {p : Nat} {x : Path} {s z : State} (h : PathTo p x s z) : z.bands = s.bands := Prod.ext h.spars h.band

/-- The bands when BAND_EN of band `b` is all that moved of them. -/
def State.enabled (s : State) (b : Nat) (en : Bool) : Vector Spar 3 × Vector Band 4 :=
  (s.spars, upd s.radio.band b fun x => { x with en := en })

theorem enabled_of_bands {s z : State} (h : z.bands = s.bands) (b : Nat) (en : Bool) : z.enabled b en = s.enabled b en :=
  (congrArg (fun v : Vector Spar 3 × Vector Band 4 => (v.1, upd v.2 b fun x => { x with en := en })) h :)

theorem syncEn_bands (b : Nat) (s : State) : ∃ en, (syncEn b s).bands = s.enabled b en := by
  refine ⟨bandOpen s b && (!(s.bandOf b).flags.testBit 0 || ((s.bandOf b).dir != 0 && !(s.bandOf b).quiet)), ?_⟩
  simp only [State.bands, State.enabled, syncEn, State.updBand_spars, State.updBand_radio]
  exact congrArg (Prod.mk s.spars) (upd_congr _ _ rfl)

theorem enabled_updBand (b : Nat) (f : Band → Band) (en : Bool) (s : State) :
    (s.updBand b f).enabled b en = (s.spars, upd s.radio.band b fun x => { f x with en := en }) :=
  congrArg (Prod.mk s.spars) (upd_upd _ _ f _)

/-- A band brought up to date: BAND_EN is what moved of the bands, and each of its paths is muted unless it wants it. -/
theorem syncBand_effect {b : Nat} (hb : b < 4) (s : State) :
    (∃ en, (syncBand b s).bands = s.enabled b en) ∧ ((syncBand b s).pathOf (2 * b)).muted = !bandOpen s b ∧
      ((syncBand b s).pathOf (2 * b + 1)).muted = !bandOpen s b := by
  obtain ⟨x, hx, hone⟩ := pathTo_syncPath (p := 2 * b) (by omega) (bandOpen s b) s
  obtain ⟨y, hy, htwo⟩ := pathTo_syncPath (p := 2 * b + 1) (by omega) (bandOpen s b) (syncPath (bandOpen s b) (2 * b) s)
  obtain ⟨en, hen⟩ := syncEn_bands b (syncPath (bandOpen s b) (2 * b + 1) (syncPath (bandOpen s b) (2 * b) s))
  have hpath (p : Nat) : (syncBand b s).pathOf p =
      (syncPath (bandOpen s b) (2 * b + 1) (syncPath (bandOpen s b) (2 * b) s)).pathOf p := by rw [syncBand_eq]; rfl
  refine ⟨⟨en, hen.trans (enabled_of_bands (htwo.bands.trans hone.bands) b en)⟩, ?_, ?_⟩
  · rw [hpath, htwo.others _ (by omega), hone.path, hx]
  · rw [hpath, htwo.path, hy]

/-- A band that is not ACTIVE wants no path. -/
theorem bandOpen_of_state {b : Nat} {s : State} (h : (s.bandOf b).state ≠ .active) : bandOpen s b = false := by
  have hstate : ((s.bandOf b).state == .active) = false := beq_eq_false_iff_ne.2 h
  simp [bandOpen, hstate]

/-! ### Synthesizers leave the bands (R685, R686, R689) -/

theorem bands_of_besidesFrames {s z : State} (h : z.besidesFrames = s.besidesFrames) : z.bands = s.bands := by
  obtain ⟨hspars, hband, -, -⟩ := of_besidesFrames h
  exact Prod.ext hspars hband

theorem sendWords_bands (i e : Nat) (f : Nat → Nat → Nat) (s : State) : (sendWords i e f s).bands = s.bands :=
  foldl_keep State.bands _ (fun _ _ => bands_of_besidesFrames (rfPush_besidesFrames ..)) _ s

theorem recalCrumb_bands (i e : Nat) (s : State) : (recalCrumb i e s).bands = s.bands := by
  simp [State.bands, recalCrumb]

theorem startCal_bands (i e : Nat) (retried : Bool) (s : State) : (startCal i e retried s).bands = s.bands :=
  sendWords_bands ..

theorem startHop_bands (i e : Nat) (s : State) : (startHop i e s).bands = s.bands := by
  unfold startHop
  dsimp only
  split
  · exact sendWords_bands ..
  · exact (startCal_bands ..).trans (recalCrumb_bands ..)
  · exact startCal_bands ..

/-! ### Tuning and stopping (Table RAD.5) -/

/-- Band `b` after a hop to entry `e` has begun. -/
def Band.tuning (e : Nat) (en : Bool) (x : Band) : Band := { x with state := .tuning, entry := e, tuneMute := true, en := en }

/-- What a hop begins (Table RAD.5). -/
theorem tune_bands {b : Nat} (hb : b < 4) (e : Nat) (s : State) :
    ∃ en, (tune b e s).bands = (s.spars, upd s.radio.band b (Band.tuning e en)) := by
  obtain ⟨⟨en, hen⟩, -⟩ := syncBand_effect hb (s.updBand b fun x => { x with state := .tuning, entry := e, tuneMute := true })
  exact ⟨en, (startHop_bands ..).trans (hen.trans (enabled_updBand ..))⟩

/-- The end of tuning leaves Spars and radio. -/
theorem endTune_spars_radio (b status : Nat) (s : State) :
    (endTune b status s).spars = s.spars ∧ (endTune b status s).radio = s.radio := by
  have h := (finishAll_besidesCompletions 0x0709 b status (finishAll 0x0707 b status s)).trans
    (finishAll_besidesCompletions 0x0707 b status s)
  exact ⟨(congrArg State.spars h :), (congrArg State.radio h :)⟩

/-- A band that stops, before BAND_EN follows. -/
def Band.stop (x : Band) : Band := { x with state := .off, tuneMute := false, gate := false, dir := 0, quiet := false }

/-- The state in which a band stops: its synthesizer idle, unless a calibration run has it. -/
def unworked (b : Nat) (s : State) : State :=
  if (s.synthOf b).calRun then s else s.updSynth b fun x => { x with work := .idle, auto := false }

theorem stopBand_eq (b : Nat) (s : State) :
    stopBand b s = endTune b St.notReady (syncBand b ((unworked b s).updBand b Band.stop)) := rfl

theorem unworked_bands (b : Nat) (s : State) : (unworked b s).bands = s.bands := by
  unfold unworked
  split <;> rfl

/-- Band `b` just changed. -/
theorem bandOf_updBand_self {b : Nat} (hb : b < 4) (f : Band → Band) (s : State) : (s.updBand b f).bandOf b = f (s.bandOf b) :=
  vat_upd_self _ _ _ hb

/-- A band that stops is OFF, its paths muted (R694, R726). -/
theorem stopBand_effect {b : Nat} (hb : b < 4) (s : State) :
    (∃ en, (stopBand b s).bands = (s.spars, upd s.radio.band b fun x => { x.stop with en := en })) ∧
      ((stopBand b s).pathOf (2 * b)).muted = true ∧ ((stopBand b s).pathOf (2 * b + 1)).muted = true := by
  rw [stopBand_eq]
  have hidle := unworked_bands b s
  generalize unworked b s = y at *
  obtain ⟨⟨en, hen⟩, hin, hout⟩ := syncBand_effect hb (y.updBand b Band.stop)
  have hclosed : bandOpen (y.updBand b Band.stop) b = false :=
    bandOpen_of_state (by rw [bandOf_updBand_self hb, Band.stop]; exact BandState.noConfusion)
  rw [enabled_updBand] at hen
  rw [hclosed] at hin hout
  generalize syncBand b (y.updBand b Band.stop) = v at *
  obtain ⟨hspars, hradio⟩ := endTune_spars_radio b St.notReady v
  have hpath (p : Nat) : (endTune b St.notReady v).pathOf p = v.pathOf p := (congrArg (fun r : Radio => vat r.path p) hradio :)
  refine ⟨⟨en, ?_⟩, by rw [hpath, hin]; rfl, by rw [hpath, hout]; rfl⟩
  have hbands : (endTune b St.notReady v).bands = v.bands := Prod.ext hspars (congrArg Radio.band hradio)
  rw [hbands, hen]
  exact (congrArg (fun w : Vector Spar 3 × Vector Band 4 => (w.1, upd w.2 b fun x => { x.stop with en := en })) hidle :)

/-! ### A band becomes ACTIVE (R735, R743) -/

/-- The Spars and the states of the bands: what guard causes, records and ceilings leave. -/
def State.modes (s : State) : Vector Spar 3 × (Nat → BandState) := (s.spars, fun c => (s.bandOf c).state)

theorem modes_of_bands {s z : State} (h : z.bands = s.bands) : z.modes = s.modes :=
  (congrArg (fun v : Vector Spar 3 × Vector Band 4 => (v.1, fun c => (vat v.2 c).state)) h :)

theorem updBand_modes (b : Nat) (f : Band → Band) (s : State) (hf : ∀ x, (f x).state = x.state) :
    (s.updBand b f).modes = s.modes :=
  Prod.ext rfl (funext fun c => vat_upd_keep s.radio.band b c f Band.state hf)

theorem syncBand_modes {b : Nat} (hb : b < 4) (s : State) : (syncBand b s).modes = s.modes := by
  obtain ⟨⟨en, hen⟩, -⟩ := syncBand_effect hb s
  have hmodes := modes_of_bands (s := s.updBand b fun x => { x with en := en }) hen
  simp only [updBand_modes, implies_true] at hmodes
  exact hmodes

theorem raiseSrc_modes (src : Nat) (s : State) : (raiseSrc src s).modes = s.modes := by
  simp [State.modes, State.bandOf]

theorem eaveCrumb_modes (src code sev b cause : Nat) (m l : Int) (s : State) :
    (eaveCrumb src code sev b cause m l s).modes = s.modes := by
  simp [State.modes, State.bandOf, eaveCrumb]

theorem setCause_modes (b cause : Nat) (on : Bool) (s : State) : (setCause b cause on s).modes = s.modes := by
  simp only [setCause, updBand_modes, implies_true]

theorem backOff_modes (b cause : Nat) (m l : Int) (s : State) : (backOff b cause m l s).modes = s.modes := by
  simp only [backOff, apply_ite State.modes, eaveCrumb_modes, updBand_modes, implies_true, ite_self]

/-- A guard cause mutes a band and leaves its state (R732, R733). -/
theorem guardMuteBand_modes {b : Nat} (hb : b < 4) (cause : Nat) (raise : Bool) (m l : Int) (s : State) :
    (guardMuteBand b cause raise m l s).modes = s.modes := by
  simp only [guardMuteBand, apply_ite State.modes, backOff_modes, eaveCrumb_modes, raiseSrc_modes, syncBand_modes hb,
    updBand_modes, setCause_modes, implies_true, ite_self]

theorem liftCause_modes {b : Nat} (hb : b < 4) (cause : Nat) (s : State) : (liftCause b cause s).modes = s.modes :=
  (syncBand_modes hb _).trans (setCause_modes ..)

theorem syncDetectors_modes {b : Nat} (hb : b < 4) (s : State) : (syncDetectors b s).modes = s.modes := by
  unfold syncDetectors
  split
  · rfl
  · split
    · exact guardMuteBand_modes hb ..
    · exact liftCause_modes hb ..

theorem syncStep_bands {p : Nat} (hp : p < 8) (s : State) : (syncStep p s).bands = s.bands := by
  obtain ⟨x, -, -, hx⟩ := pathTo_stepTo hp (min (s.pathOf p).cmd (pathCeiling s p)) s
  exact hx.bands

/-- A band that becomes ACTIVE: its state alone moves of the Spars and the states of the bands. -/
theorem activateBand_modes {b : Nat} (hb : b < 4) (s : State) :
    (activateBand b s).modes = (s.updBand b fun x => { x with state := .active }).modes := by
  have hstart : (syncStep (2 * b + 1) (syncStep (2 * b) (startCeiling (2 * b + 1) (startCeiling (2 * b) s)))).bands = s.bands :=
    (syncStep_bands (by omega) _).trans (syncStep_bands (by omega) _)
  unfold activateBand
  dsimp only
  generalize syncStep (2 * b + 1) (syncStep (2 * b) (startCeiling (2 * b + 1) (startCeiling (2 * b) s))) = y at *
  rw [syncDetectors_modes hb, syncBand_modes hb]
  exact modes_of_bands (congrArg
    (fun v : Vector Spar 3 × Vector Band 4 => (v.1, upd v.2 b fun x => { x with state := .active })) hstart :)

end Sys2Proof.Machine
end

section
/-! ## The Radio Spar's instructions (R332, R334, R681, R683, R698, R706, R710, R734) -/
namespace Sys2Proof.Machine
open Sys2Proof

/-- A Radio instruction whose effect leaves the Spars retires; the radio and the log are those of its effect. -/
theorem radioInstr_retires {opc o : Nat} {s y : State} {f : Nat → State → State} (h : SparAt 2 opc o s)
    (hb : baseOpc 2 opc = true) (hr : radioRuns s = true) (hf : f o (sparBegun 2 o s) = y)
    (hspars : y.spars = (sparBegun 2 o s).spars) :
    ∃ z, radioInstr opc none f s = .next z ∧ Retired 2 ((s.spar 2).pc + 1) s z ∧
      (∀ j : Fin 3, j.val ≠ 2 → z.spar j = s.spar j) ∧ z.radio = y.radio ∧ z.out = y.out ∧
      ∀ qs, KeepsBut qs (sparBegun 2 o s) y → KeepsBut (.spars :: .free :: qs) s z := by
  have hy := (spared_sparBegun (i := 2) (by decide) o s).of_spars hspars
  have heffect : (if radioRuns (sparBegun 2 o s) then f o (sparBegun 2 o s) else sparBegun 2 o s) = y := (if_pos hr).trans hf
  have hz : radioInstr opc none f s = .next (y.updSpar 2 (Spar.retired ((s.spar 2).pc + 1))) :=
    sparInstr_retires h hb hy (congrArg (sparRetire 2 _) heffect)
  obtain ⟨hret, -, hothers⟩ := retired_of_spared h hy
  exact ⟨_, hz, hret, hothers, rfl, rfl, fun qs hk =>
    keepsBut_retired hk (by simp) (fun q hq => List.mem_cons_of_mem _ (List.mem_cons_of_mem _ hq)) _⟩

/-! ### Bands (Table RAD.5) -/

/-- BAND_STATE towards OFF stops the band. -/
theorem exec_bandState_off {o : Nat} {s : State} (h : SparAt 2 0x60 o s) (hr : radioRuns s = true) (h0 : fld o 4 4 = 0) :
    ∃ z, exec (.bandState none) s = .next z ∧ Retired 2 ((s.spar 2).pc + 1) s z ∧ (z.bandOf (o % 4)).state = .off ∧
      (z.bandOf (o % 4)).gate = false ∧ (z.pathOf (2 * (o % 4))).muted = true ∧
      (z.pathOf (2 * (o % 4) + 1)).muted = true ∧ (∀ b : Fin 4, b.val ≠ o % 4 → (z.bandOf b).state = (s.bandOf b).state) ∧
      (∀ j : Fin 3, j.val ≠ 2 → z.spar j = s.spar j) := by
  have hb : o % 4 < 4 := Nat.mod_lt _ (by decide)
  obtain ⟨⟨en, hbands⟩, hin, hout⟩ := stopBand_effect hb (sparBegun 2 o s)
  have heffect : bandTo (o % 4) (fld o 4 4) (sparBegun 2 o s) = stopBand (o % 4) (sparBegun 2 o s) := by rw [h0]; rfl
  obtain ⟨z, hz, hret, hothers, hradio, -, -⟩ := radioInstr_retires (f := fun o s => bandTo (o % 4) (fld o 4 4) s) h
    (by decide) hr heffect (congrArg Prod.fst hbands)
  have hband (b : Nat) : z.bandOf b = vat (upd s.radio.band (o % 4) fun x => { x.stop with en := en }) b :=
    (congrArg (fun r : Radio => vat r.band b) hradio).trans (congrArg (fun v => vat (Prod.snd v) b) hbands :)
  have hpath (p : Nat) : z.pathOf p = (stopBand (o % 4) (sparBegun 2 o s)).pathOf p :=
    (congrArg (fun r : Radio => vat r.path p) hradio :)
  refine ⟨z, hz, hret, ?_, ?_, (hpath _).symm ▸ hin, (hpath _).symm ▸ hout, fun b hne => ?_, hothers⟩
  · rw [hband, vat_upd_self _ _ _ hb]
    rfl
  · rw [hband, vat_upd_self _ _ _ hb]
    rfl
  · rw [hband, vat_upd_ne _ _ _ _ (Ne.symm hne)]
    rfl

/-- BAND_STATE towards ACTIVE of a STANDBY band. -/
theorem exec_bandState_active {o : Nat} {s : State} (h : SparAt 2 0x60 o s) (hr : radioRuns s = true) (h3 : fld o 4 4 = 3)
    (hs : (s.bandOf (o % 4)).state = .standby) :
    ∃ z, exec (.bandState none) s = .next z ∧ Retired 2 ((s.spar 2).pc + 1) s z ∧ (z.bandOf (o % 4)).state = .active ∧
      (∀ b : Fin 4, b.val ≠ o % 4 → (z.bandOf b).state = (s.bandOf b).state) ∧
      (∀ j : Fin 3, j.val ≠ 2 → z.spar j = s.spar j) := by
  have hb : o % 4 < 4 := Nat.mod_lt _ (by decide)
  have hmodes := activateBand_modes hb (sparBegun 2 o s)
  have heffect : bandTo (o % 4) (fld o 4 4) (sparBegun 2 o s) = activateBand (o % 4) (sparBegun 2 o s) := by
    rw [h3]
    exact if_pos hs
  obtain ⟨z, hz, hret, hothers, hradio, -, -⟩ := radioInstr_retires (f := fun o s => bandTo (o % 4) (fld o 4 4) s) h
    (by decide) hr heffect (congrArg Prod.fst hmodes)
  have hstate (b : Nat) : (z.bandOf b).state = (vat (upd s.radio.band (o % 4) fun x => { x with state := .active }) b).state :=
    (congrArg (fun r : Radio => (vat r.band b).state) hradio).trans (congrFun (congrArg Prod.snd hmodes) b)
  refine ⟨z, hz, hret, ?_, fun b hne => ?_, hothers⟩
  · rw [hstate, vat_upd_self _ _ _ hb]
  · rw [hstate, vat_upd_ne _ _ _ _ (Ne.symm hne)]
    rfl

/-- A band that remembers whether it was ACTIVE. -/
def Band.marked (x : Band) : Band := { x with activate := x.state == .active }

/-- A hop of a tuned band (Table RAD.5). -/
theorem hopTo_bands {b : Nat} (hb : b < 4) (e : Nat) {s : State}
    (hs : (s.bandOf b).state = .standby ∨ (s.bandOf b).state = .active) :
    ∃ en, (hopTo b e s).bands = (s.spars, upd s.radio.band b (Band.tuning e en ∘ Band.marked)) := by
  have heq : hopTo b e s = tune b e (s.updBand b Band.marked) := by
    unfold hopTo
    rcases hs with hs | hs <;> simp only [hs] <;> rfl
  obtain ⟨en, hen⟩ := tune_bands hb e (s.updBand b Band.marked)
  exact ⟨en, heq ▸ hen.trans (congrArg (Prod.mk s.spars) (upd_upd ..))⟩

/-- SYNTH_HOP of a tuned band begins a hop that ends in the state it left. -/
theorem exec_synthHop {o : Nat} {s : State} (h : SparAt 2 0x61 o s) (hr : radioRuns s = true)
    (hs : (s.bandOf (o % 4)).state = .standby ∨ (s.bandOf (o % 4)).state = .active) :
    ∃ z, exec (.synthHop none) s = .next z ∧ Retired 2 ((s.spar 2).pc + 1) s z ∧ (z.bandOf (o % 4)).state = .tuning ∧
      (z.bandOf (o % 4)).entry = fld o 2 6 ∧ (z.bandOf (o % 4)).tuneMute = true ∧
      (z.bandOf (o % 4)).activate = decide ((s.bandOf (o % 4)).state = .active) ∧
      (∀ b : Fin 4, b.val ≠ o % 4 → z.bandOf b = s.bandOf b) ∧ (∀ j : Fin 3, j.val ≠ 2 → z.spar j = s.spar j) := by
  have hb : o % 4 < 4 := Nat.mod_lt _ (by decide)
  obtain ⟨en, hbands⟩ := hopTo_bands hb (fld o 2 6) (s := sparBegun 2 o s) hs
  obtain ⟨z, hz, hret, hothers, hradio, -, -⟩ := radioInstr_retires (f := fun o s => hopTo (o % 4) (fld o 2 6) s) h
    (by decide) hr rfl (congrArg Prod.fst hbands)
  have hband (b : Nat) : z.bandOf b = vat (upd s.radio.band (o % 4) (Band.tuning (fld o 2 6) en ∘ Band.marked)) b :=
    (congrArg (fun r : Radio => vat r.band b) hradio).trans (congrArg (fun v => vat (Prod.snd v) b) hbands :)
  have hself : z.bandOf (o % 4) = Band.tuning (fld o 2 6) en (s.bandOf (o % 4)).marked := by
    rw [hband, vat_upd_self _ _ _ hb]
    rfl
  refine ⟨z, hz, hret, ?_, ?_, ?_, ?_, fun b hne => ?_, hothers⟩
  · rw [hself]; rfl
  · rw [hself]; rfl
  · rw [hself]; rfl
  · rw [hself]; exact beq_eq_decide ..
  · rw [hband, vat_upd_ne _ _ _ _ (Ne.symm hne)]
    rfl

/-! ### Transitions of a TDD band (R698, R956) -/

/-- The next transition depends on the band, current time, the time since reset and the actions armed. -/
theorem nextTrans_congr {s y : State} {b : Nat} (hband : y.bandOf b = s.bandOf b) (htime : y.timebase = s.timebase)
    (hup : y.up = s.up) (hact : (y.spar 2).actions = (s.spar 2).actions) : nextTrans y b = nextTrans s b := by
  unfold nextTrans
  rw [hband, htime, hup, hact]

/-- A transition to receive or transmit arms the turnaround, the switch and the turnaround's end. -/
theorem tddStep_arms {b d : Nat} {t : Int} {s : State} (hflag : (s.bandOf b).flags.testBit 0 = true)
    (hoff : (s.bandOf b).state ≠ .off) (hfault : (s.bandOf b).state ≠ .fault) (hcause : (s.bandOf b).causes.testBit 3 = false)
    (hwhole : wholeCause s.radio = false) (hguard : s.radio.guardMute = false) (hnext : nextTrans s b = some (t, d))
    (hd : d ≠ 3) :
    tddStep b s = sched 2 (0x24 + b) 1 ((t + 2000) % 2 ^ 32).toNat 0 d
      (sched 2 (0x20 + b) (if d = 1 then 1 else 2) ((t + 0) % 2 ^ 32).toNat 0 d
        (sched 2 (0x24 + b) 2 ((t + -2000) % 2 ^ 32).toNat 0 d s)) := by
  have hoff' : ((s.bandOf b).state == .off) = false := beq_eq_false_iff_ne.2 hoff
  have hfault' : ((s.bandOf b).state == .fault) = false := beq_eq_false_iff_ne.2 hfault
  unfold tddStep
  simp only [hflag, hoff', hfault', hcause, hwhole, hguard, hnext, if_neg hd]
  exact if_neg (by decide)

/-- The residue of an instant is a TICK. -/
theorem tick_mod (t : Int) : (t % 2 ^ 32).toNat % 2 ^ 32 = (t % 2 ^ 32).toNat := by omega

/-- One more action, on a TICK that has not passed and with room in the queue. -/
theorem Arms.schedAt {ps : List Part} {i unit act tk arg : Nat} {l : List Action} {s y : State} (h : Arms ps i l s y)
    (hps : Part.spars ∈ ps) (hi : i < 3) (ha : act ≠ 0) (ht : (s.timebase.now.frac : Int) ≤ tickDiff tk s.tickNow * 65536)
    (hr : (s.spar i).actions.length + l.length < 16) :
    Arms ps i (l ++ [{ unit, action := act, tick := tk % 2 ^ 32, arg }]) s (Machine.sched i unit act tk 0 arg y) :=
  h.sched hps hi ha (by simpa using ht) hr

/-- TDD_STEP of a band in TDD with a transition ahead. -/
theorem exec_tddStep {t : Int} {d o : Nat} {s : State} (h : SparAt 2 0x62 o s) (hr : radioRuns s = true)
    (hflag : (s.bandOf (o % 4)).flags.testBit 0 = true) (hoff : (s.bandOf (o % 4)).state ≠ .off)
    (hfault : (s.bandOf (o % 4)).state ≠ .fault) (hcause : (s.bandOf (o % 4)).causes.testBit 3 = false)
    (hwhole : wholeCause s.radio = false) (hguard : s.radio.guardMute = false) (hnext : nextTrans s (o % 4) = some (t, d))
    (hd : d ≠ 3) (hroom : (s.spar 2).actions.length ≤ 13)
    (hat : (s.timebase.now.frac : Int) ≤ tickDiff (t % 2 ^ 32).toNat s.tickNow * 65536)
    (hbefore : (s.timebase.now.frac : Int) ≤ tickDiff ((t - 2000) % 2 ^ 32).toNat s.tickNow * 65536)
    (hafter : (s.timebase.now.frac : Int) ≤ tickDiff ((t + 2000) % 2 ^ 32).toNat s.tickNow * 65536) :
    ∃ z, exec (.tddStep none) s = .next z ∧ Retired 2 ((s.spar 2).pc + 1) s z ∧
      (z.spar 2).actions = (s.spar 2).actions ++
        [{ unit := 0x24 + o % 4, action := 2, tick := ((t - 2000) % 2 ^ 32).toNat, arg := d },
          { unit := 0x20 + o % 4, action := if d = 1 then 1 else 2, tick := (t % 2 ^ 32).toNat, arg := d },
          { unit := 0x24 + o % 4, action := 1, tick := ((t + 2000) % 2 ^ 32).toNat, arg := d }] ∧
      (∀ j : Fin 3, j.val ≠ 2 → z.spar j = s.spar j) ∧ KeepsBut [.spars, .free] s z := by
  have hturn := (arms_sparBegun (i := 2) (by decide) o s).schedAt (unit := 0x24 + o % 4) (act := 2) (arg := d) (by decide)
    (by decide) (by decide) hbefore (by simp; omega)
  have hswitch := hturn.schedAt (unit := 0x20 + o % 4) (act := if d = 1 then 1 else 2) (arg := d) (by decide) (by decide)
    (by split <;> decide) hat (by simp; omega)
  have hend := hswitch.schedAt (unit := 0x24 + o % 4) (act := 1) (arg := d) (by decide) (by decide) (by decide) hafter
    (by simp; omega)
  have hsame : nextTrans (sparBegun 2 o s) (o % 4) = nextTrans s (o % 4) :=
    nextTrans_congr rfl rfl rfl (sparBegun_spar (by decide) o s).2
  have hstep := tddStep_arms (s := sparBegun 2 o s) hflag hoff hfault hcause hwhole hguard (hsame.trans hnext) hd
  rw [Int.add_zero, ← Int.sub_eq_add_neg] at hstep
  obtain ⟨z, hz, hret, hact, -, hothers, hk⟩ := hend.retires (o := o)
    (base := fun o s => sparRetire 2 (sparNext 2 s) (if radioRuns s then tddStep (o % 4) s else s)) h (by decide) (by decide)
    (congrArg (sparRetire 2 _) ((if_pos hr).trans hstep))
  refine ⟨z, hz, hret, ?_, hothers, hk⟩
  simpa only [tick_mod, List.nil_append, List.cons_append] using hact

/-! ### Paths, detectors and frames (R681, R683, R706, R710, R734) -/

/-- What a Radio instruction whose effect is on one path changes. -/
theorem radioInstr_path {opc o p : Nat} {x : Path} {s y : State} {f : Nat → State → State} (h : SparAt 2 opc o s)
    (hb : baseOpc 2 opc = true) (hr : radioRuns s = true) (hf : f o (sparBegun 2 o s) = y)
    (hy : PathTo p x (sparBegun 2 o s) y) :
    ∃ z, radioInstr opc none f s = .next z ∧ Retired 2 ((s.spar 2).pc + 1) s z ∧ z.pathOf p = x ∧
      (∀ q : Fin 8, q.val ≠ p → z.pathOf q = s.pathOf q) ∧ (∀ j : Fin 3, j.val ≠ 2 → z.spar j = s.spar j) ∧
      KeepsBut [.spars, .free, .radio, .out] s z := by
  obtain ⟨z, hz, hret, hothers, hradio, -, hk⟩ := radioInstr_retires h hb hr hf hy.spars
  have hpath (q : Nat) : z.pathOf q = y.pathOf q := (congrArg (fun r : Radio => vat r.path q) hradio :)
  exact ⟨z, hz, hret, (hpath p).trans hy.path, fun q hq => (hpath q).trans (hy.others q hq), hothers, hk _ hy.rest⟩

/-- POWER_STEP applies the entry under the ceiling in force. -/
theorem exec_powerStep {o : Nat} {s : State} (h : SparAt 2 0x63 o s) (hr : radioRuns s = true) :
    ∃ z, exec (.powerStep none) s = .next z ∧ Retired 2 ((s.spar 2).pc + 1) s z ∧
      (z.pathOf (o % 8)).applied = min (fld o 3 6) (pathCeiling s (o % 8)) ∧
      (z.pathOf (o % 8)).muted = (s.pathOf (o % 8)).muted ∧ (∀ p : Fin 8, p.val ≠ o % 8 → z.pathOf p = s.pathOf p) ∧
      (∀ j : Fin 3, j.val ≠ 2 → z.spar j = s.spar j) ∧ KeepsBut [.spars, .free, .radio, .out] s z := by
  obtain ⟨x, happlied, hmuted, hx⟩ := pathTo_stepTo (p := o % 8) (Nat.mod_lt _ (by decide))
    (min (fld o 3 6) (pathCeiling s (o % 8))) (sparBegun 2 o s)
  obtain ⟨z, hz, hret, hpath, hrest⟩ := radioInstr_path
    (f := fun o s => stepTo (o % 8) (min (fld o 3 6) (pathCeiling s (o % 8))) s) h (by decide) hr rfl hx
  exact ⟨z, hz, hret, hpath ▸ happlied, hpath ▸ hmuted, hrest⟩

/-- DITHER_CHIP of a path that is not muted puts the chip of its millisecond on. -/
theorem exec_ditherChip {o : Nat} {s : State} (h : SparAt 2 0x64 o s) (hr : radioRuns s = true)
    (hm : (s.pathOf (o % 8)).muted = false) :
    ∃ z, exec (.ditherChip none) s = .next z ∧ Retired 2 ((s.spar 2).pc + 1) s z ∧
      (z.pathOf (o % 8)).dithering = some (chip ((s.timebase.now.inNs / 1000000 + 128 * (o % 8)) % 1023)) ∧
      (z.pathOf (o % 8)).applied = (s.pathOf (o % 8)).applied ∧ (∀ p : Fin 8, p.val ≠ o % 8 → z.pathOf p = s.pathOf p) ∧
      (∀ j : Fin 3, j.val ≠ 2 → z.spar j = s.spar j) ∧ KeepsBut [.spars, .free, .radio, .out] s z := by
  obtain ⟨x, hdither, happlied, hx⟩ := pathTo_ditherStep (p := o % 8) (Nat.mod_lt _ (by decide)) (s := sparBegun 2 o s) hm
    (some (chip ((s.timebase.now.inNs / 1000000 + 128 * (o % 8)) % 1023)))
  obtain ⟨z, hz, hret, hpath, hrest⟩ := radioInstr_path
    (f := fun o s => ditherStep (o % 8) (some (chip ((s.timebase.now.inNs / 1000000 + 128 * (o % 8)) % 1023))) s)
    h (by decide) hr rfl hx
  exact ⟨z, hz, hret, hpath ▸ hdither, hpath ▸ happlied, hrest⟩

/-- A detector after a sample of mask `o` was taken at a TICK (R710). -/
def sampled (o tick : Nat) (codes : Vector (BitVec 12) 8) (det : Vector Detector 8) : Vector Detector 8 :=
  Vector.ofFn fun (k : Fin 8) =>
    let d := vat det k.val
    if o.testBit k.val then { d with code := codes[k].toNat, tick, last := detLevel d codes[k].toNat } else d

/-- DET_SAMPLE takes the codes of its mask's detectors. -/
theorem exec_detSample {codes : Vector (BitVec 12) 8} {o : Nat} {s : State} (h : SparAt 2 0x65 o s) (hr : radioRuns s = true) :
    ∃ z, exec (.detSample none codes) s = .next z ∧ Retired 2 ((s.spar 2).pc + 1) s z ∧
      (∀ k : Fin 8, vat z.radio.det k = if o.testBit k.val then
        { vat s.radio.det k with
          code := (codes[k]).toNat, tick := s.tickNow, last := detLevel (vat s.radio.det k) (codes[k]).toNat }
        else vat s.radio.det k) ∧
      z.radio = { s.radio with det := z.radio.det } ∧ (∀ j : Fin 3, j.val ≠ 2 → z.spar j = s.spar j) ∧
      KeepsBut [.spars, .free, .radio] s z := by
  obtain ⟨z, hz, hret, hothers, hradio, -, hk⟩ := radioInstr_retires
    (f := fun o s => s.updRad fun r => { r with det := sampled o s.tickNow codes r.det }) h (by decide) hr rfl rfl
  refine ⟨z, hz, hret, fun k => ?_, by rw [hradio]; rfl, hothers, hk [.radio] (by simp [KeepsBut, State.updRad])⟩
  rw [hradio]
  exact (vat_fin (sampled o s.tickNow codes s.radio.det) k).trans (Vector.getElem_ofFn ..)

/-- RFSPI_XFER sends a scratch word on a free port. -/
theorem exec_rfspiXfer {o : Nat} {s : State} (h : SparAt 2 0x66 o s) (hr : radioRuns s = true) (hcs : o % 16 < 4)
    (hnow : s.radio.rfNow = none) (hframes : s.radio.frames = []) :
    ∃ z, exec (.rfspiXfer none) s = .next z ∧ Retired 2 ((s.spar 2).pc + 1) s z ∧
      z.out = .rf (o % 16) (mgetD (s.spar 2).scratch (fld o 4 8) 0 % 2 ^ (vat s.radio.device (o % 16)).wordBits) :: s.out ∧
      z.radio.rfNow.map (fun f => (f.prio, f.cs)) = some (6, o % 16) ∧ z.radio.frames = [] ∧
      (∀ j : Fin 3, j.val ≠ 2 → z.spar j = s.spar j) ∧ KeepsBut [.spars, .free, .radio, .out] s z := by
  have hscratch : ((sparBegun 2 o s).spar 2).scratch = (s.spar 2).scratch :=
    sparBegun_keeps Spar.scratch (fun _ _ _ _ _ _ => rfl) (by decide) o s
  have heffect (w : Nat) : (if o % 16 < 4 then rfPush 6 (o % 16) w (sparBegun 2 o s) else sparBegun 2 o s) =
      rfSend 6 (o % 16) w (sparBegun 2 o s) := (if_pos hcs).trans (rfPush_free (s := sparBegun 2 o s) hnow hframes 6 (o % 16) w)
  obtain ⟨z, hz, hret, hothers, hradio, hout, hk⟩ := radioInstr_retires
    (f := fun o s => if o % 16 < 4 then rfPush 6 (o % 16) (mgetD (s.spar 2).scratch (fld o 4 8) 0) s else s) h (by decide) hr
    (heffect _) rfl
  rw [hscratch] at hout
  exact ⟨z, hz, hret, hout, by rw [hradio]; rfl, by rw [hradio]; rfl, hothers,
    hk [.radio, .out] (by simp [KeepsBut, rfSend, State.updRad, State.emit])⟩

end Sys2Proof.Machine
end

section
/-! ## The requests of the Spar services (R332, R334, R343, R345, R346, Table SPR.13) -/
namespace Sys2Proof.Machine
open Sys2Proof

/-! ### SPAR_GET_STATUS and SPAR_RELOAD (Table SPR.14) -/

theorem exec_sparGetStatus {c : Call} {s : State} (h : Served cmdSparGetStatus c s)
    (ha : sparAbsent s (byteAt c.payload 0) = false) :
    ∃ z, exec (.sparGetStatus c) s = .next z ∧
      Answered c 0x0C21 St.ok (s.spar (byteAt c.payload 0)).status z ∧ ReadsOnly c s z := by
  have ha' : sparAbsent (begun 0x0C21 c s) (byteAt c.payload 0) = false := ha
  refine command_reads h ?_
  simp only [cmdSparGetStatus, ha']
  rfl

/-- A Spar whose work of SPAR_RELOAD began: its version registers read zero (R343). -/
def Spar.reload (x : Spar) : Spar := { x with reloading := true, base := 0, level := 0, digest := [] }

/-- SPAR_RELOAD of a Spar that HALT_MC stopped. -/
theorem exec_sparReload {c : Call} {i : Nat} {s : State} (h : Served cmdSparReload c s) (ha : MayAccept c s)
    (hi : i = byteAt c.payload 0) (hthere : sparAbsent s i = false) (hhalt : (s.spar i).state = .haltedMc)
    (hidle : (s.spar i).reloading = false) :
    ∃ z, exec (.sparReload c) s = .next z ∧ AcceptedAs c 0x0C22 (fun j => j.key == i && !j.waits) z ∧
      z.spar i = (s.spar i).reload ∧ (∀ j : Fin 3, j.val ≠ i → z.spar j = s.spar j) ∧ StartsOnly [.spars] c s z := by
  have hf := fields_of_checks h.2
  simp only [cmdSparReload, callReq, Bool.and_eq_true, decide_eq_true_eq] at hf
  have hlt : i < 3 := by omega
  have hthere' : sparAbsent (begun 0x0C22 c s) i = false := hthere
  have hspar : (begun 0x0C22 c s).spar i = s.spar i := rfl
  have hrun : cmdSparReload.run (begun 0x0C22 c s) c.t.val c.payload =
      .accept { key := i } ((begun 0x0C22 c s).updSpar i Spar.reload) := by
    simp only [cmdSparReload, ← hi, hthere', hspar, hhalt, hidle]
    rfl
  refine ⟨_, command_accept h ha hrun, accepted_respond _ _ _ _ _ _ _ (by simp), ?_, fun j hj => ?_,
    startsOnly_respond _ (keepsBut_updSpar (by decide) ..) rfl rfl⟩
  · exact (congrArg (vat · i) (respond_spars ..)).trans (spar_updSpar_self hlt ..)
  · exact (congrArg (vat · j.val) (respond_spars ..)).trans (spar_updSpar_of_ne hj ..)

/-- SPAR_RELOAD of a Spar that failed (R345). -/
theorem exec_sparReload_failed {c : Call} {i : Nat} {s : State} (h : Served cmdSparReload c s)
    (hi : i = byteAt c.payload 0) (hthere : sparAbsent s i = false) (hfailed : (s.spar i).state = .failed) :
    ∃ z, exec (.sparReload c) s = .next z ∧ Answered c 0x0C22 St.notReady [] z ∧ SetsOnly [] c s z := by
  have hthere' : sparAbsent (begun 0x0C22 c s) i = false := hthere
  have hspar : (begun 0x0C22 c s).spar i = s.spar i := rfl
  have hrun : cmdSparReload.run (begun 0x0C22 c s) c.t.val c.payload = .done St.notReady [] (begun 0x0C22 c s) := by
    simp only [cmdSparReload, ← hi, hthere', hspar, hfailed]
    rfl
  obtain ⟨z, hz, hans, -, hsets⟩ := command_sets h hrun (keepsBut_refl [] _) (by decide)
  exact ⟨z, hz, hans, hsets⟩

/-! ### SPAR_PATCH_CHECK (R131, R346) -/

theorem keepsBut_pinAll (l : List Nat) (s : State) : KeepsBut [.loft] s (pinAll l s) :=
  foldl_ok (KeepsBut [.loft] s) _ (fun i _ hy => keepsBut_trans hy (keepsBut_pin i _)) l s (keepsBut_refl ..)

/-- Pins give the yealms no bytes. -/
theorem pinAll_mem (l : List Nat) (s : State) : (pinAll l s).loft.mem = s.loft.mem :=
  foldl_keep (fun y : State => y.loft.mem) (fun y i => pin i y)
    (fun i y => (congrArg (fun x : State => x.loft.mem) (pin_besidesYealms i y) :)) l s

/-- What holds of no Spar is found in none. -/
theorem any_spars_eq_false {p : Spar → Bool} {s : State} (h : ∀ i : Fin 3, p (s.spar i) = false) :
    s.spars.toList.any p = false := by
  refine List.any_eq_false.2 fun x hx => ?_
  obtain ⟨i, hi, rfl⟩ := Vector.mem_iff_getElem.1 (Vector.mem_toList_iff.1 hx)
  have hspar := h ⟨i, hi⟩
  rw [State.spar, vat_fin] at hspar
  exact Bool.eq_false_iff.1 hspar

/-- SPAR_PATCH_CHECK pins the yealms of its image while it works. -/
theorem exec_sparPatchCheck {c : Call} {s : State} (h : Served cmdSparPatchCheck c s) (ha : MayAccept c s)
    (hidle : ∀ i : Fin 3, (s.spar i).reloading = false) :
    ∃ z, exec (.sparPatchCheck c) s = .next z ∧
      AcceptedAs c 0x0C23 (fun j => !j.waits && j.pins == ((patchHandles c.payload).map hIndex).eraseDups) z ∧
      z.loft.mem = s.loft.mem ∧ z.spars = s.spars ∧ StartsOnly [.loft] c s z := by
  have hany : (begun 0x0C23 c s).spars.toList.any (·.reloading) = false := any_spars_eq_false (s := s) hidle
  have hrun : cmdSparPatchCheck.run (begun 0x0C23 c s) c.t.val c.payload =
      .accept { data := c.payload, pins := ((patchHandles c.payload).map hIndex).eraseDups }
        (pinAll ((patchHandles c.payload).map hIndex).eraseDups (begun 0x0C23 c s)) := by
    simp only [cmdSparPatchCheck, hany]
    rfl
  obtain ⟨z, hz, hacc, -, hloft, -, hstarts⟩ := command_starts
    (P := fun j => !j.waits && j.pins == ((patchHandles c.payload).map hIndex).eraseDups) h ha hrun (by simp)
    (keepsBut_pinAll ..) (by decide)
  exact ⟨z, hz, hacc, by rw [hloft, pinAll_mem]; rfl, spars_of_keepsBut hstarts.1 (by decide), hstarts⟩

/-- Settles O33: each Radio instruction by what its effect leaves of the Spars (`radioInstr_retires`), each request by how
its work begins. -/
theorem radioInstructionsAndSparRequestsAct : Obligations.RadioInstructionsAndSparRequestsAct := by
  unfold Obligations.RadioInstructionsAndSparRequestsAct
  exact ⟨fun _ _ => exec_bandState_off, fun _ _ => exec_bandState_active, fun _ _ => exec_synthHop,
    fun _ _ _ _ => exec_tddStep, fun _ _ => exec_powerStep, fun _ _ => exec_ditherChip, fun _ _ _ => exec_detSample,
    fun _ _ => exec_rfspiXfer, fun _ _ h => command_reads h rfl, fun _ _ _ h ha hx => hx ▸ exec_sparGetStatus h ha,
    fun _ _ _ => exec_sparReload, fun _ _ _ => exec_sparReload_failed, fun _ _ => exec_sparPatchCheck⟩

end Sys2Proof.Machine
end

section
/-! ## Ports: what one change of a port leaves, and its counters (R400, R409, Table ETH.4) -/
namespace Sys2Proof.Machine
open Sys2Proof

/-! ### One change of a port -/

/-- Two changes of a port are one. -/
theorem updPort_updPort (p : Nat) (f g : Port → Port) (s : State) : (s.updPort p f).updPort p g = s.updPort p (g ∘ f) := by
  simp only [State.updPort, State.updNet, upd_upd]

theorem emit_updPort (s : State) (o : Out) (p : Nat) (f : Port → Port) : (s.emit o).updPort p f = (s.updPort p f).emit o := rfl

/-- A change of a port that keeps something of it keeps that of every port. -/
theorem port_updPort_keep {β : Type} (g : Port → β) {f : Port → Port} (h : ∀ x, g (f x) = g x) (p q : Nat) (s : State) :
    g ((s.updPort p f).port q) = g (s.port q) := vat_upd_keep _ _ _ _ g h

/-- The ports besides `p` are as before, and only the listed parts change. -/
structure OnPort (p : Fin 6) (ps : List Part) (s z : State) : Prop where
  others : ∀ q : Fin 6, q ≠ p → z.port q = s.port q
  parts : KeepsBut ps s z

theorem OnPort.trans {p : Fin 6} {ps : List Part} {s y z : State} (h1 : OnPort p ps s y) (h2 : OnPort p ps y z) :
    OnPort p ps s z :=
  ⟨fun q hq => (h2.others q hq).trans (h1.others q hq), keepsBut_trans h1.parts h2.parts⟩

theorem OnPort.mono {p : Fin 6} {ps qs : List Part} {s z : State} (h : OnPort p ps s z) (hps : ps ⊆ qs) : OnPort p qs s z :=
  ⟨h.others, keepsBut_mono hps h.parts⟩

theorem onPort_of_net {p : Fin 6} {ps : List Part} {s z : State} (hnet : z.net = s.net) (h : KeepsBut ps s z) : OnPort p ps s z :=
  ⟨fun q _ => port_of_net hnet q, h⟩

theorem onPort_updPort (p : Fin 6) (f : Port → Port) (s : State) : OnPort p [.net] s (s.updPort p f) :=
  ⟨fun _ hq => port_updPort_ne (fun e => hq (Fin.ext e.symm)) f s, by simp [KeepsBut]⟩

theorem onPort_emit (p : Fin 6) (o : Out) (s : State) : OnPort p [.out] s (s.emit o) := onPort_of_net rfl (by simp [KeepsBut])

theorem onPort_raiseSrc (p : Fin 6) (src : Nat) (s : State) : OnPort p [.views, .out] s (raiseSrc src s) :=
  onPort_of_net (raiseSrc_net ..) (keepsBut_raiseSrc ..)

/-! ### Rows that change one port -/

/-- A row that makes one change of a port. -/
theorem row_updPort {c : Instr} {s : State} {p : Fin 6} {f : Port → Port} (h : exec c s = .next (s.updPort p f)) :
    ∃ z, exec c s = .next z ∧ z.port p = f (s.port p) ∧ (∀ q : Fin 6, q ≠ p → z.port q = s.port q) ∧ KeepsBut [.net] s z :=
  ⟨_, h, port_updPort_self p.isLt f s, (onPort_updPort p f s).others, (onPort_updPort p f s).parts⟩

/-- A row that makes one change of a port and sends something. -/
theorem row_updPort_emit {c : Instr} {s : State} {p : Fin 6} {f : Port → Port} {o : Out}
    (h : exec c s = .next ((s.updPort p f).emit o)) :
    ∃ z, exec c s = .next z ∧ z.out = o :: s.out ∧ z.port p = f (s.port p) ∧ (∀ q : Fin 6, q ≠ p → z.port q = s.port q) ∧
      KeepsBut [.net, .out] s z := by
  have hon : OnPort p [.net, .out] s ((s.updPort p f).emit o) :=
    ((onPort_updPort p f s).mono (by decide)).trans ((onPort_emit p o _).mono (by decide))
  exact ⟨_, h, rfl, port_updPort_self p.isLt f s, hon.others, hon.parts⟩

/-- A row that makes one change of a port and raises a source. -/
theorem row_updPort_raise {c : Instr} {s : State} {p : Fin 6} {f : Port → Port} {src : Nat} (hu : Up s) (hlt : src < 128)
    (hradio : radioSource src = false) (h : exec c s = .next (raiseSrc src (s.updPort p f))) :
    ∃ z, exec c s = .next z ∧ z.port p = f (s.port p) ∧ Raised src s z ∧ (∀ q : Fin 6, q ≠ p → z.port q = s.port q) ∧
      KeepsBut [.net, .views, .out] s z := by
  have hon : OnPort p [.net, .views, .out] s (raiseSrc src (s.updPort p f)) :=
    ((onPort_updPort p f s).mono (by decide)).trans ((onPort_raiseSrc p src _).mono (by decide))
  exact ⟨_, h, (port_of_net (raiseSrc_net ..) p).trans (port_updPort_self p.isLt f s),
    raised_raiseSrc (s := s.updPort p f) hlt hradio hu, hon.others, hon.parts⟩

/-- The link and the error source of a port are none of the radio's. -/
theorem portSource (p : Fin 6) :
    64 + p.val < 128 ∧ radioSource (64 + p) = false ∧ 72 + p.val < 128 ∧ radioSource (72 + p) = false := by
  decide +revert

/-! ### Counters -/

/-- The port with counter `i` risen by `n`. -/
def Port.counted (i n : Nat) (x : Port) : Port := { x with counters := upd x.counters i fun c => wrap64 (c + n) }

theorem counter_counted {i : Nat} (h : i < 22) (n : Nat) (x : Port) :
    vat (x.counted i n).counters i = wrap64 (vat x.counters i + n) := vat_upd_self _ _ _ h

theorem counter_counted_of_ne {i j : Nat} (h : i ≠ j) (n : Nat) (x : Port) : vat (x.counted i n).counters j = vat x.counters j :=
  vat_upd_ne _ _ _ _ h

/-- A counter not marked E only rises. -/
theorem portCount_quiet {i : Nat} (h : errCounter i = false) (p n : Nat) (s : State) :
    portCount p i n s = s.updPort p (Port.counted i n) := by
  simp only [portCount, h, Bool.false_and, Bool.false_eq_true, if_false]
  rfl

/-- The port with what the error source remembers put at its default. -/
def Port.besidesErr (x : Port) : Port := { x with errAt := none, errPending := false }

/-- An E counter that rises is told at once, or at the end of its 100 ms (R409). -/
theorem portErr_eq (p : Nat) (s : State) : ∃ f : Port → Port, (∀ x, (f x).besidesErr = x.besidesErr) ∧
    (portErr p s = s.updPort p f ∨ portErr p s = raiseSrc (72 + p) (s.updPort p f)) := by
  unfold portErr
  split
  · exact ⟨fun x => { x with errPending := true }, fun _ => rfl, .inl rfl⟩
  · exact ⟨fun x => { x with errAt := some s.up, errPending := false }, fun _ => rfl, .inr rfl⟩

/-- What a count of any counter leaves: the port but for what the error source remembers, the other ports, the log. -/
theorem portCount_effect (p : Fin 6) (i n : Nat) (s : State) :
    ((portCount p i n s).port p).besidesErr = ((s.port p).counted i n).besidesErr ∧
      OnPort p [.net, .views, .out] s (portCount p i n s) ∧ ∀ o ∈ s.out, o ∈ (portCount p i n s).out := by
  have hself : (s.updPort p (Port.counted i n)).port p = (s.port p).counted i n := port_updPort_self p.isLt ..
  have hon : OnPort p [.net, .views, .out] s (s.updPort p (Port.counted i n)) := (onPort_updPort p _ s).mono (by decide)
  have hcount : portCount p i n s = s.updPort p (Port.counted i n) ∨
      portCount p i n s = portErr p (s.updPort p (Port.counted i n)) := (ite_eq_or_eq _ _ _).symm
  rcases hcount with h | h
  · rw [h, hself]
    exact ⟨rfl, hon, fun _ ho => ho⟩
  · obtain ⟨f, hf, he⟩ := portErr_eq p (s.updPort p (Port.counted i n))
    rw [h]
    have hout : (s.updPort p (Port.counted i n)).out = s.out := rfl
    rw [← hout]
    generalize s.updPort p (Port.counted i n) = y at *
    have hy : ((y.updPort p f).port p).besidesErr = (y.port p).besidesErr := port_updPort_keep Port.besidesErr hf p p y
    have hony : OnPort p [.net, .views, .out] y (y.updPort p f) := (onPort_updPort p f y).mono (by decide)
    rcases he with he | he
    · rw [he, hy, hself]
      exact ⟨rfl, hon.trans hony, fun _ ho => ho⟩
    · rw [he, port_of_net (raiseSrc_net ..), hy, hself]
      exact ⟨rfl, (hon.trans hony).trans ((onPort_raiseSrc p _ _).mono (by decide)), fun _ ho => mem_raiseSrc_out ho⟩

end Sys2Proof.Machine
end

section
/-! ## What the SFP module events do (R131, R360, R402 to R408, Table ETH.8) -/
namespace Sys2Proof.Machine
open Sys2Proof

/-- What keeps the boot and the supply leaves the module as much up as it was. -/
theorem up_of_keepsBut {ps : List Part} {s z : State} (hu : Up s) (h : KeepsBut ps s z) (hboot : Part.boot ∉ ps)
    (hsup : Part.supply ∉ ps) : Up z := by
  have hs : z.supply = s.supply := supply_of_keepsBut h hsup
  have hc : z.campel = s.campel := campel_of_keepsBut h hboot
  simpa only [Up, State.powered, hs, hc] using hu

/-! ### The edges of RX_LOS (R360) -/

theorem exec_sfpLosEdge_rise (p : Fin 6) (s : State) (hu : Up s) (hl : (s.port p).los = false) :
    exec (.sfpLosEdge p true) s = .next (portCount p 20 1 (s.updPort p fun x => { x with los := true })) := by
  change execSfpLosEdge p true s = _
  rw [execSfpLosEdge, running_next hu.1]
  simp [hl]

theorem exec_sfpLosEdge_fall (p : Fin 6) (s : State) (hp : s.powered = true) :
    exec (.sfpLosEdge p false) s = .next (s.updPort p fun x => { x with los := false }) := by
  change execSfpLosEdge p false s = _
  rw [execSfpLosEdge, running_next hp]
  rfl

/-! ### Recovery of a low SDA line (R406, R407) -/

/-- The three recoveries of a line that stays low, and what is told of it. -/
def sfpStuck (p : Nat) (s : State) : State :=
  raiseSrc (72 + p) (portCount p 21 1
    ((((s.emit (.scl p)).emit (.scl p)).emit (.scl p)).updPort p fun x => { x with sfp := .stuck }))

theorem sfpRecover_of_never {n : Nat} (h : 3 < n) (p : Nat) (s : State) : sfpRecover p n s = (false, sfpStuck p s) := by
  have hmin : min n 3 = 3 := by omega
  simp only [sfpRecover, hmin, if_neg (Nat.not_le.2 h)]
  rfl

/-- A line that stays low leaves the port's bus STUCK, the count, the source, the clocks sent; the other ports as before. -/
theorem sfpStuck_effect (p : Fin 6) {s : State} (hu : Up s) :
    ((sfpStuck p s).port p).sfp = .stuck ∧ PortCounted p 21 1 s (sfpStuck p s) ∧
      ((sfpStuck p s).view 0).raw.getLsbD (72 + p.val) = true ∧ .scl p.val ∈ (sfpStuck p s).out ∧
      OnPort p [.net, .views, .out] s (sfpStuck p s) := by
  obtain ⟨-, -, hlt, hradio⟩ := portSource p
  unfold sfpStuck
  generalize hy : (((s.emit (.scl p)).emit (.scl p)).emit (.scl p)).updPort p (fun x => { x with sfp := .stuck }) = y
  have hself : y.port p = { s.port p with sfp := .stuck } := by
    rw [← hy, port_updPort_self p.isLt]
    rfl
  have hon : OnPort p [.net, .views, .out] s y := by
    rw [← hy]
    have hemit : OnPort p [.net, .views, .out] s (((s.emit (.scl p)).emit (.scl p)).emit (.scl p)) :=
      onPort_of_net rfl (by simp [KeepsBut])
    exact hemit.trans ((onPort_updPort p _ _).mono (by decide))
  have hscl : Out.scl p.val ∈ y.out := by
    rw [← hy]
    exact List.mem_cons_self
  obtain ⟨herr, honc, hout⟩ := portCount_effect p 21 1 y
  rw [hself] at herr
  have hnet : (raiseSrc (72 + p) (portCount p 21 1 y)).port p = (portCount p 21 1 y).port p := port_of_net (raiseSrc_net ..) p
  have hup : Up (portCount p 21 1 y) := up_of_keepsBut hu (hon.trans honc).parts (by decide) (by decide)
  refine ⟨?_, ?_, (raised_raiseSrc hlt hradio hup).1, mem_raiseSrc_out (hout _ hscl),
    (hon.trans honc).trans ((onPort_raiseSrc p _ _).mono (by decide))⟩
  · rw [hnet]
    exact (congrArg Port.sfp herr :)
  · rw [PortCounted, hnet]
    exact (congrArg (fun x => vat x.counters 21) herr :).trans (counter_counted (by decide) 1 (s.port p))

/-! ### The polls -/

theorem exec_sfpPresencePoll_stuck {p : Fin 6} {n : Nat} {s : State} (ack : Bool) (a : Bytes) (hp : s.powered = true)
    (hr : portRuns s p = true) (hs : (s.port p).sfp ≠ .stuck) (hn : 3 < n) :
    exec (.sfpPresencePoll p n ack a) s = .next (sfpStuck p s) := by
  change execSfpPresencePoll p n ack a s = _
  rw [execSfpPresencePoll, running_next hp]
  simp [sfpManaged, hr, hs, sfpRecover_of_never hn]

/-- A poll of a free bus ends as the acknowledge says (R404). -/
theorem exec_sfpPresencePoll_free {p : Fin 6} {s : State} (ack : Bool) (a : Bytes) (hp : s.powered = true)
    (hr : portRuns s p = true) (hs : (s.port p).sfp ≠ .stuck) :
    exec (.sfpPresencePoll p 0 ack a) s = .next (sfpPresence p ack a s) := by
  change execSfpPresencePoll p 0 ack a s = _
  rw [execSfpPresencePoll, running_next hp]
  simp [sfpManaged, hr, hs, sfpRecover]

/-- A DDM poll of a present module that answers takes the bytes (R405). -/
theorem exec_ddmPoll {p : Fin 6} {s : State} (d : Bytes) (hp : s.powered = true) (hr : portRuns s p = true)
    (hs : (s.port p).sfp = .present) (hflag : (s.port p).flags.testBit 6 = true)
    (hddm : (byteAt (s.port p).a0 92).testBit 6 = true) :
    exec (.ddmPoll p 0 true d) s = .next ((s.updPort p fun x => { x with ddm := fit 10 d, ddmAt := some s.up }).emit
      (.twoWire p 0x51 96 false (fit 10 d))) := by
  change execDdmPoll p 0 true d s = _
  rw [execDdmPoll, running_next hp]
  simp [sfpManaged, hr, hs, hflag, hddm, sfpRecover, emit_updPort]

/-- A retry on a STUCK line (R408). -/
theorem exec_sfpStuckRetry {p : Fin 6} {s : State} (f : Bool) (hp : s.powered = true) (hr : portRuns s p = true)
    (hs : (s.port p).sfp = .stuck) :
    ∃ z, exec (.sfpStuckRetry p f) s = .next z ∧
      z.port p = { s.port p with sfp := if f then .absent else .stuck } ∧ z.out = .scl p :: s.out ∧
      (∀ q : Fin 6, q ≠ p → z.port q = s.port q) ∧ KeepsBut [.net, .out] s z := by
  have hexec : exec (.sfpStuckRetry p f) s =
      .next (if f then (s.emit (.scl p)).updPort p fun x => { x with sfp := .absent } else s.emit (.scl p)) := by
    change execSfpStuckRetry p f s = _
    rw [execSfpStuckRetry, running_next hp]
    simp [sfpManaged, hr, hs]
  cases f with
  | true =>
    obtain ⟨z, he, hout, hself, hrest⟩ := row_updPort_emit (hexec.trans rfl)
    exact ⟨z, he, hself, hout, hrest⟩
  | false =>
    have hon := onPort_emit p (.scl p) s
    refine ⟨_, hexec, ?_, rfl, hon.others, keepsBut_mono (by decide) hon.parts⟩
    simp only [Bool.false_eq_true, if_false]
    rw [← hs]
    rfl

/-! ### The end of a read (R131, R402, Table ETH.8) -/

theorem mem_completeJob_out {j : Job} {st : Nat} {d : Bytes} {s : State} {o : Out} (h : o ∈ s.out) :
    o ∈ (completeJob j st d s).out := by
  unfold completeJob
  split
  · exact h
  · exact mem_writeCompletion_out h

/-- A read that the module acknowledged in time stores its bytes and completes OK. -/
theorem exec_twoWireTransactionEnd_read {j : Job} {ms : Nat} {d : Bytes} {s : State} (hp : s.powered = true)
    (hj : (s.jobs.find? fun j => j.op == 0x0607) = some j) (hread : byteAt j.data 3 = 0) (hms : ms ≤ 25) :
    exec (.twoWireTransactionEnd false 0 true ms false d) s =
      .next (completeJob j St.ok [] (loftWrite (yAddr (hIndex (rd j.data 8 4)) 0) (fit (byteAt j.data 4) d)
        (s.emit (.twoWire (byteAt j.data 0) (byteAt j.data 1) (byteAt j.data 2) false (fit (byteAt j.data 4) d))))) := by
  have hstretch : decide (25 < ms) = false := decide_eq_false (Nat.not_lt.2 hms)
  change execTwoWireTransactionEnd false 0 true ms false d s = _
  rw [execTwoWireTransactionEnd, running_next hp]
  simp [hj, sfpXferEnd, sfpRecover, hread, hstretch]

/-- The completion of a job leaves what a yealm of the pool holds: its event is written below the pool. -/
theorem loftRead_pool_completeJob {j : Job} {r i n : Nat} {s : State} (hc : s.campel = true) (hh : s.supply.holdUp = false)
    (ho : j.origin = none) (hr : eventRing s j.tenant = some r) (hlost : (s.ring r).lost = 0) (hlog : (s.ring r).log2 ≤ 12)
    (hi : poolIndex i = true) (st : Nat) (d : Bytes) :
    loftRead (completeJob j st d s) (yAddr i 0) n = loftRead s (yAddr i 0) n := by
  obtain ⟨-, -, hbytes, -⟩ := completeJob_posts hc hh ho hr hlost st d
  have hslot := slotAddr_below_pool (k := (s.ring r).tail) (eventRing_lt hr) hlog
  refine loftRead_of_bytes fun k _ => hbytes _ (.inr ?_)
  simp only [poolIndex, Bool.and_eq_true, decide_eq_true_eq] at hi
  simp only [yAddr]
  omega

theorem twoWireRead_effect {ms : Nat} {d : Bytes} {j : Job} {n : Nat} {s : State} (hp : s.powered = true)
    (hc : s.campel = true) (hh : s.supply.holdUp = false) (hj : (s.jobs.find? fun j => j.op == 0x0607) = some j)
    (ho : j.origin = none) (hread : byteAt j.data 3 = 0) (hms : ms ≤ 25) (hr : eventRing s j.tenant = some n)
    (hlost : (s.ring n).lost = 0) (hlog : (s.ring n).log2 ≤ 12) (hpool : poolIndex (hIndex (rd j.data 8 4)) = true) :
    ∃ z, exec (.twoWireTransactionEnd false 0 true ms false d) s = .next z ∧
      .twoWire (byteAt j.data 0) (byteAt j.data 1) (byteAt j.data 2) false (fit (byteAt j.data 4) d) ∈ z.out ∧
      loftRead z (yAddr (hIndex (rd j.data 8 4)) 0) (byteAt j.data 4) = fit (byteAt j.data 4) d ∧
      z.jobs = s.jobs.erase j ∧
      EventPosted n (eventDesc 1 St.ok 0x0607 j.token j.tenant s.cascade.position [] s.timebase.now) s z ∧
      KeepsBut [.jobs, .loft, .tenants, .rings, .views, .out] s z := by
  have hop : j.op = 0x0607 := by simpa using List.find?_some hj
  refine ⟨_, exec_twoWireTransactionEnd_read hp hj hread hms, ?_⟩
  generalize hy : loftWrite (yAddr (hIndex (rd j.data 8 4)) 0) (fit (byteAt j.data 4) d) (s.emit _) = y
  have hkeep : KeepsBut [.jobs, .loft, .tenants, .rings, .views, .out] s y := by
    rw [← hy]
    simp [KeepsBut, loftWrite]
  have hrings : y.rings = s.rings := by simp [← hy, loftWrite]
  have hring : y.ring n = s.ring n := ring_of_rings hrings n
  have hread : loftRead y (yAddr (hIndex (rd j.data 8 4)) 0) (byteAt j.data 4) = fit (byteAt j.data 4) d := by
    rw [← hy]
    simpa using loftRead_loftWrite (yAddr (hIndex (rd j.data 8 4)) 0) (fit (byteAt j.data 4) d) (s.emit _)
  have hlog1 : Out.twoWire (byteAt j.data 0) (byteAt j.data 1) (byteAt j.data 2) false (fit (byteAt j.data 4) d) ∈ y.out := by
    simp [← hy, loftWrite]
  have hc1 : y.campel = true := (campel_of_keepsBut hkeep (by decide)).trans hc
  have hh1 : y.supply.holdUp = false := (congrArg Supply.holdUp (supply_of_keepsBut hkeep (by decide))).trans hh
  have hr1 : eventRing y j.tenant = some n := by simpa only [eventRing, ring_of_rings hrings] using hr
  have hlost1 : (y.ring n).lost = 0 := hring ▸ hlost
  obtain ⟨hjobs, hpost, -, hparts⟩ := completeJob_posts hc1 hh1 ho hr1 hlost1 St.ok []
  refine ⟨mem_completeJob_out hlog1, ?_, ?_, ?_, keepsBut_trans hkeep (keepsBut_mono (by decide) hparts)⟩
  · rw [loftRead_pool_completeJob hc1 hh1 ho hr1 hlost1 (hring ▸ hlog) hpool, hread]
  · rw [hjobs, ← hy]
    rfl
  · have hnow : y.timebase.now = s.timebase.now := by simp [← hy, loftWrite]
    have hpos : y.cascade.position = s.cascade.position := by simp [← hy, loftWrite]
    rwa [EventPosted, hring, hop, hnow, hpos] at hpost

/-- Settles O36: the edges and polls as rows that change one port, the line that stays low by `sfpStuck_effect`, the end of
a read by `twoWireRead_effect`. -/
theorem sfpModulesAreManaged : Obligations.SfpModulesAreManaged := by
  unfold Obligations.SfpModulesAreManaged
  refine ⟨fun p s hu hl => ?_, fun p s hp => ?_, fun p a s hp hr hs => ?_, fun p a s hp hr hs => ?_,
    fun p n ack a s hu hr hs hn _ => ?_, fun p d s hp hr hs hflag hddm => ?_, fun p f s hp hr hs => ?_,
    fun ms d j n s hp hc hh hj ho hread hms hr hlost hlog hpool _ => ?_⟩
  · refine ⟨_, exec_sfpLosEdge_rise p s hu hl, ?_⟩
    generalize hy : s.updPort p (fun x => { x with los := true }) = y
    have hself : y.port p = { s.port p with los := true } := by rw [← hy, port_updPort_self p.isLt]
    have hon : OnPort p [.net, .views, .out] s y := hy ▸ (onPort_updPort p _ s).mono (by decide)
    obtain ⟨herr, honc, -⟩ := portCount_effect p 20 1 y
    rw [hself] at herr
    have hcount : PortCounted p 20 1 s (portCount p 20 1 y) :=
      (congrArg (fun x => vat x.counters 20) herr :).trans (counter_counted (by decide) 1 (s.port p))
    exact ⟨(congrArg Port.los herr :), hcount, (hon.trans honc).others, (hon.trans honc).parts⟩
  · exact row_updPort (exec_sfpLosEdge_fall p s hp)
  · have hexec := exec_sfpPresencePoll_free true a hp hr (s := s) (by simp [hs])
    have hne : ¬ (s.port p).sfp = .present := by simp [hs]
    simp only [sfpPresence, Bool.not_true, Bool.false_eq_true, if_false, if_neg hne] at hexec
    obtain ⟨z, he, hout, hself, hrest⟩ := row_updPort_emit hexec
    exact ⟨z, he, hself, hout, hrest⟩
  · exact row_updPort (exec_sfpPresencePoll_free false a hp hr hs)
  · obtain ⟨hsfp, hcount, hraw, hscl, hon⟩ := sfpStuck_effect p hu
    exact ⟨_, exec_sfpPresencePoll_stuck ack a hu.1 hr hs hn, hsfp, hcount, hraw, hscl, hon.others, hon.parts⟩
  · obtain ⟨z, he, hout, hself, hrest⟩ := row_updPort_emit (exec_ddmPoll d hp hr hs hflag hddm)
    exact ⟨z, he, hself, hout, hrest⟩
  · exact exec_sfpStuckRetry f hp hr hs
  · exact twoWireRead_effect hp hc hh hj ho hread hms hr hlost hlog hpool

end Sys2Proof.Machine
end

section
/-! ## What a port sends, its link, low-power idle, its failure (R358 to R390, R966 to R969) -/
namespace Sys2Proof.Machine
open Sys2Proof

/-! ### Frames sent (R373, R377) -/

/-- The bytes of a frame as it leaves (R373). -/
def padded (d : Bytes) : Bytes := if d.length < 60 then fit 60 d else d

theorem length_padded (d : Bytes) : (padded d).length = max 60 d.length := by
  unfold padded
  split
  · rw [length_fit]; omega
  · omega

/-- A frame that leaves counts itself and its bytes with FCS. -/
theorem sendFrame_eq (p : Nat) (d : Bytes) (t : Time) (s : State) :
    sendFrame p d t s =
      (s.updPort p (Port.counted 12 (max 60 d.length + 4) ∘ Port.counted 11 1)).emit (.frame p (padded d) t) := by
  change portCount p 12 ((padded d).length + 4) (portCount p 11 1 (s.emit (.frame p (padded d) t))) = _
  rw [portCount_quiet rfl, portCount_quiet rfl, length_padded, updPort_updPort, emit_updPort]

/-- The state in which a port's oldest frame has left, `l` still waiting. -/
def departed (p : Nat) (l : List TxFrame) (d : Bytes) (t : Time) (s : State) : State :=
  (s.updPort p ((Port.counted 12 (max 60 d.length + 4) ∘ Port.counted 11 1) ∘ fun x => { x with txq := l })).emit
    (.frame p (padded d) t)

theorem port_departed (p : Fin 6) (l : List TxFrame) (d : Bytes) (t : Time) (s : State) : (departed p l d t s).port p =
    (({ s.port p with txq := l } : Port).counted 11 1).counted 12 (max 60 d.length + 4) := port_updPort_self p.isLt ..

theorem onPort_departed (p : Fin 6) (l : List TxFrame) (d : Bytes) (t : Time) (s : State) :
    OnPort p [.net, .out] s (departed p l d t s) :=
  ((onPort_updPort p _ s).mono (by decide)).trans ((onPort_emit p _ _).mono (by decide))

theorem exec_frameSent_own {p : Fin 6} {sec ns frac : Nat} {f : TxFrame} {l : List TxFrame} {s : State} (hp : s.powered = true)
    (hq : (s.port p).txq = f :: l) (hm : mayStart s p = true) (hr : f.ring = none) :
    exec (.frameSent p sec ns frac) s = .next
      (departed p l f.data { sec := sec % 2 ^ 48, ns := ns % 1000000000, frac := frac % 65536 } s) := by
  change execFrameSent p sec ns frac s = _
  rw [execFrameSent, running_next hp]
  simp [hq, hm, hr, sendFrame_eq, updPort_updPort, departed]

/-- What the timestamp of a departure adds to its completion where FLAGS asks for it (R375). -/
def departure (f : TxFrame) (sec ns frac : Nat) : Bytes :=
  if f.flags.testBit 0 then leBytes 4 (ns % 1000000000) ++ leBytes 2 (frac % 65536) ++ leBytes 2 (sec % 2 ^ 48) else []

theorem exec_frameSent_ring {p : Fin 6} {sec ns frac n : Nat} {f : TxFrame} {l : List TxFrame} {d : Bytes} {s : State}
    (hp : s.powered = true) (hq : (s.port p).txq = f :: l) (hm : mayStart s p = true) (hr : f.ring = some n)
    (hd : txBytes s f = (d, false)) :
    exec (.frameSent p sec ns frac) s = .next (completeSub n 0x10 St.ok f.tag (max 60 d.length + 4) 0 (departure f sec ns frac)
      (unpinAll (f.handles.map hIndex) (freeSent f
        (departed p l d { sec := sec % 2 ^ 48, ns := ns % 1000000000, frac := frac % 65536 } s)))) := by
  change execFrameSent p sec ns frac s = _
  rw [execFrameSent, running_next hp]
  simp [hq, hm, hr, hd, sendFrame_eq, updPort_updPort, endTx, departed, departure]

theorem freeSent_besidesYealms (f : TxFrame) (s : State) : (freeSent f s).besidesYealms = s.besidesYealms := by
  unfold freeSent
  split
  · exact foldl_keep State.besidesYealms _ (by intro _ _; rfl) f.handles s
  · rfl

theorem mem_completeSub_out {n p : Nat} {s : State} (ho : (s.ring n).opened = true) (hp : (s.ring n).pair = some p)
    (hc : (s.ring n).closing = false) (cls st tag count flags : Nat) (result : Bytes) {o : Out} (h : o ∈ s.out) :
    o ∈ (completeSub n cls st tag count flags result s).out := by
  rw [completeSub_eq ho hp hc]
  exact mem_produce_out h

/-- A NET_SEND whose frame has left completes in the COMPLETE ring of its own. -/
theorem frameSent_ring_effect {p : Fin 6} {n q : Nat} {f : TxFrame} {l : List TxFrame} {d : Bytes} {s : State} (t : Time)
    (result : Bytes) (hn : n < 32) (hlt : q < 32) (ho : (s.ring n).opened = true) (hpair : (s.ring n).pair = some q)
    (hc : (s.ring n).closing = false) {z : State} (hz : z = completeSub n 0x10 St.ok f.tag (max 60 d.length + 4) 0 result
      (unpinAll (f.handles.map hIndex) (freeSent f (departed p l d t s)))) :
    .frame p (padded d) t ∈ z.out ∧
      Completed q (completeDesc 0x10 St.ok f.tag (max 60 d.length + 4) 0 result s.timebase.now) s z ∧
      (z.port p).txq = l ∧ PortCounted p 11 1 s z ∧ PortCounted p 12 (max 60 d.length + 4) s z ∧
      OnPort p [.net, .loft, .tenants, .rings, .views, .out] s z := by
  have hyealms : (unpinAll (f.handles.map hIndex) (freeSent f (departed p l d t s))).besidesYealms =
      (departed p l d t s).besidesYealms := (unpinAll_besidesYealms ..).trans (freeSent_besidesYealms ..)
  subst hz
  generalize unpinAll (f.handles.map hIndex) (freeSent f (departed p l d t s)) = y at hyealms
  have hout : y.out = .frame p (padded d) t :: s.out := (congrArg State.out hyealms :)
  have hrings : y.rings = s.rings := (congrArg State.rings hyealms :)
  have hnow : y.timebase = s.timebase := (congrArg State.timebase hyealms :)
  have hnet : y.net = (departed p l d t s).net := (congrArg State.net hyealms :)
  have hring : ∀ k, y.ring k = s.ring k := ring_of_rings hrings
  rw [← hring] at ho hpair hc
  have hdone := subDone_completeSub hn hlt ho hpair hc 0x10 St.ok f.tag (max 60 d.length + 4) 0 result
  have hout2 := mem_completeSub_out ho hpair hc 0x10 St.ok f.tag (max 60 d.length + 4) 0 result
    (hout ▸ List.mem_cons_self : Out.frame p (padded d) t ∈ y.out)
  generalize completeSub n 0x10 St.ok f.tag (max 60 d.length + 4) 0 result y = z at *
  have hcompleted := hdone.completed
  rw [Completed, hring, hnow] at hcompleted
  have hznet : z.net = (departed p l d t s).net := (congrArg State.net hdone.frame :).trans hnet
  have hport := (port_of_net hznet p).trans (port_departed p l d t s)
  have hon := onPort_departed p l d t s
  have hyparts : KeepsBut [.net, .loft, .tenants, .rings, .views, .out] s y :=
    keepsBut_trans (keepsBut_mono (by decide) hon.parts) (keepsBut_mono (by decide) (keepsBut_of_besidesYealms hyealms).1)
  have h11 : PortCounted p 11 1 s z := by
    rw [PortCounted, hport]
    exact (counter_counted_of_ne (by decide) ..).trans (counter_counted (by decide) ..)
  have h12 : PortCounted p 12 (max 60 d.length + 4) s z := by
    rw [PortCounted, hport]
    refine (counter_counted (by decide) ..).trans ?_
    rw [counter_counted_of_ne (by decide)]
  refine ⟨hout2, hcompleted, by rw [hport]; rfl, h11, h12, fun k hk => ?_,
    keepsBut_trans hyparts (keepsBut_mono (by decide) (keepsBut_of_besidesProduction hdone.frame))⟩
  exact (port_of_net hznet k).trans (hon.others k hk)

/-! ### Links (R359, R360) -/

/-- A link that comes up or goes down leaves PTP alone on a port whose profile is off (R470). -/
theorem ptpLinkUp_of_off {p : Nat} {s : State} (h : (s.inst p).profile = 0) : ptpLinkUp p s = s := if_pos h

theorem ptpLinkDown_of_off {p : Nat} {s : State} (h : (s.inst p).profile = 0) : ptpLinkDown p s = s := if_pos h

theorem exec_linkUp {p : Fin 6} {ms : Nat} {an : Fin 4} {s : State} (hp : s.powered = true) (hl : (s.port p).link = false)
    (hr : portRuns s p = true) (hm : (s.port p).mode ≠ 0) (hms : (s.port p).mode = 1 → 10 ≤ ms) (hoff : (s.inst p).profile = 0) :
    exec (.linkUp p ms an) s = .next (raiseSrc (64 + p) (s.updPort p fun x =>
      { x with link := true, linkChanges := inc32 x.linkChanges
               anResult := if x.mode = 2 ∧ x.flags.testBit 4 then an.val else 0 })) := by
  have hearly : ((s.port p).mode == 1 && decide (ms < 10)) = false := by
    simpa using hms
  change execLinkUp p ms an s = _
  rw [execLinkUp, running_next hp]
  simp only [hl, hr, hearly, beq_eq_false_iff_ne.2 hm, Bool.not_true, Bool.or_false, Bool.false_eq_true, if_false]
  exact congrArg Host.Outcome.next (ptpLinkUp_of_off (by simpa [State.inst] using hoff))

/-- The settings of a link that went down. -/
def Port.unlinked (x : Port) : Port :=
  { x with link := false, linkChanges := inc32 x.linkChanges, xoff := false, rxLpi := false, echoOk := false, partnerTw := none
           late := [] }

/-- A link that goes down with no frame waiting or held, out of LPI, on a port without PTP. -/
theorem portLinkDown_quiet {p : Fin 6} {s : State} (hl : (s.port p).link = true) (hheld : (s.port p).held = none)
    (hq : (s.port p).txq = []) (hlpi : (s.port p).txLpi = false) (hoff : (s.inst p).profile = 0) :
    portLinkDown p s = (raiseSrc (64 + p) (s.updPort p fun x =>
      { x with link := false, linkChanges := inc32 x.linkChanges })).updPort p
      ((fun x => { x with xoff := false, rxLpi := false, echoOk := false, partnerTw := none, late := [] }) ∘
        fun x => { x with txq := [] }) := by
  unfold portLinkDown
  rw [if_neg (by simp [hl])]
  dsimp only
  generalize hy : raiseSrc (64 + p) (s.updPort p fun x => { x with link := false, linkChanges := inc32 x.linkChanges }) = y
  have hnet : y.net = (s.updPort p fun x => { x with link := false, linkChanges := inc32 x.linkChanges }).net := by simp [← hy]
  have hport : y.port p = { s.port p with link := false, linkChanges := inc32 (s.port p).linkChanges } :=
    (port_of_net hnet p).trans (port_updPort_self p.isLt ..)
  have hleave : leaveLpi p y = y := if_pos (by simp [hport, hlpi])
  have habort : abortTx p true y = y.updPort p fun x => { x with txq := [] } := by simp [abortTx, hport, hq]
  have hdrop : dropHeld p (y.updPort p fun x => { x with txq := [] }) = y.updPort p fun x => { x with txq := [] } := by
    simp [dropHeld, port_updPort_self p.isLt, hport, hheld]
  have hoffy : (y.inst p).profile = 0 := by rw [State.inst, hnet]; exact hoff
  rw [hleave, habort, hdrop, updPort_updPort]
  exact ptpLinkDown_of_off (s := y.updPort p _) hoffy

theorem exec_linkDown {p : Fin 6} {s : State} (hp : s.powered = true) (hl : (s.port p).link = true) :
    exec (.linkDown p false false) s = .next (portLinkDown p s) := by
  change execLinkDown p false false s = _
  rw [execLinkDown, running_next hp]
  simp [hl]

theorem linkDown_effect {p : Fin 6} {s : State} (hu : Up s) (hl : (s.port p).link = true) (hheld : (s.port p).held = none)
    (hq : (s.port p).txq = []) (hlpi : (s.port p).txLpi = false) (hoff : (s.inst p).profile = 0) :
    (portLinkDown p s).port p = (s.port p).unlinked ∧ Raised (64 + p.val) s (portLinkDown p s) ∧
      OnPort p [.net, .views, .out] s (portLinkDown p s) := by
  obtain ⟨hlt, hradio, -⟩ := portSource p
  rw [portLinkDown_quiet hl hheld hq hlpi hoff]
  refine ⟨?_, raised_raiseSrc (s := s.updPort p _) hlt hradio hu, ?_⟩
  · rw [port_updPort_self p.isLt, port_of_net (raiseSrc_net ..), port_updPort_self p.isLt, Port.unlinked, ← hq]
    rfl
  · exact (((onPort_updPort p _ s).mono (by decide)).trans ((onPort_raiseSrc p _ _).mono (by decide))).trans
      ((onPort_updPort p _ _).mono (by decide))

/-! ### Low-power idle (R388 to R390) -/

theorem exec_lpiEntry {p : Fin 6} {i l : Nat} {s : State} (hp : s.powered = true) (hr : portRuns s p = true)
    (hl : (s.port p).link = true) (hen : lpiEnabled (s.port p) = true) (hlpi : (s.port p).txLpi = false)
    (hq : (s.port p).txq = []) (hheld : (s.port p).held = none) (hi : (s.port p).lpiIdle ≤ i)
    (hlaunch : transmitTw (s.port p) + 5 < l) :
    exec (.lpiEntry p i l) s =
      .next (s.updPort p (Port.counted 16 1 ∘ fun x => { x with txLpi := true, txLpiSince := s.up })) := by
  change execLpiEntry p i l s = _
  rw [execLpiEntry, running_next hp]
  simp [hr, hl, hen, hlpi, hq, hheld, hi, hlaunch, portCount_quiet, errCounter, updPort_updPort]

theorem exec_lpiExit {p : Fin 6} {l : Nat} {s : State} (hp : s.powered = true) (hlpi : (s.port p).txLpi = true)
    (hwhy : (s.port p).txq ≠ [] ∨ l ≤ transmitTw (s.port p)) :
    exec (.lpiExit p l) s =
      .next (s.updPort p (Port.counted 18 (s.up - (s.port p).txLpiSince) ∘ fun x => { x with txLpi := false })) := by
  change execLpiExit p l s = _
  rw [execLpiExit, running_next hp]
  simp [hlpi, hwhy, leaveLpi, portCount_quiet, errCounter, updPort_updPort]

theorem exec_lpiRxEntry {p : Fin 6} {s : State} (h : PortUp p s) (hm : (s.port p).mode = 1) (hlpi : (s.port p).rxLpi = false) :
    exec (.lpiRxEntry p) s = .next (s.updPort p (Port.counted 17 1 ∘ fun x => { x with rxLpi := true })) := by
  obtain ⟨hp, hr, hl⟩ := h
  change execLpiRxEntry p s = _
  rw [execLpiRxEntry, running_next hp]
  simp [hr, hl, hm, hlpi, portCount_quiet, errCounter, updPort_updPort]

theorem exec_lpiRxWake {p : Fin 6} {s : State} (hp : s.powered = true) :
    exec (.lpiRxWake p) s = .next (s.updPort p fun x => { x with rxLpi := false }) := by
  change execLpiRxWake p s = _
  rw [execLpiRxWake, running_next hp]

/-! ### LLDP (R387) -/

theorem exec_lldpSend {p : Fin 6} {first : Bool} {n : Nat} {s : State} (h : PortUp p s) (hf : (s.port p).flags.testBit 1 = true)
    (hwhy : first = true ∨ 30 ≤ n) :
    exec (.lldpSend p first n) s = .next (s.updPort p fun x =>
      { x with txq := x.txq ++ [{ data := lldpdu s p }], advTw := transmitTw x }) := by
  obtain ⟨hp, hr, hl⟩ := h
  change execLldpSend p first n s = _
  rw [execLldpSend, running_next hp]
  simp [hr, hl, hf, hwhy]

theorem exec_lldpduReceived {p : Fin 6} {a b c d : BitVec 16} {s : State} (h : PortUp p s)
    (hf : (s.port p).flags.testBit 1 = true) :
    exec (.lldpduReceived p a b c d) s = .next (s.updPort p fun x =>
      { x with partnerTw := some (a.toNat, b.toNat), echoOk := c.toNat == x.advTw && d.toNat == 6 }) := by
  obtain ⟨hp, hr, hl⟩ := h
  change execLldpduReceived p a b c d s = _
  rw [execLldpduReceived, running_next hp]
  simp [hr, hl, hf]

/-! ### Errors (R409) -/

theorem exec_errSummary {p : Fin 6} {ms : Nat} {s : State} (hp : s.powered = true) (he : (s.port p).errPending = true)
    (hms : 100 ≤ ms) :
    exec (.errSummary p ms) s =
      .next (raiseSrc (72 + p) (s.updPort p fun x => { x with errPending := false, errAt := some s.up })) := by
  change execErrSummary p ms s = _
  rw [execErrSummary, running_next hp]
  simp [he, hms]

end Sys2Proof.Machine
end

section
/-! ## The failure of a port (R966 to R969) -/
namespace Sys2Proof.Machine
open Sys2Proof

/-! ### What PTP does when a port is lost leaves the ports (R453, R454, R470 to R472) -/

/-- The ports, the supply and the sources of ports and links are as before. -/
structure PortsKept (s z : State) : Prop where
  ports : z.net.port = s.net.port
  supply : z.supply = s.supply
  sources : ∀ x, 64 ≤ x → x < 80 → z.source x = s.source x

theorem PortsKept.refl (s : State) : PortsKept s s := ⟨rfl, rfl, fun _ _ _ => rfl⟩

theorem PortsKept.trans {s y z : State} (h1 : PortsKept s y) (h2 : PortsKept y z) : PortsKept s z :=
  ⟨h2.ports.trans h1.ports, h2.supply.trans h1.supply, fun x h h' => (h2.sources x h h').trans (h1.sources x h h')⟩

/-- A source of a port is none of those that references and records raise. -/
theorem portSource_notMem {x : Nat} (h : 64 ≤ x) (h' : x < 80) :
    x ∉ [48, 49, 50, 51, 52] ∧ x ∉ switchSources ∧ x ∉ recordSources := by
  have hold : ∀ y ∈ [48, 49, 50, 51, 52] ++ switchSources ++ recordSources, y < 64 ∨ 80 ≤ y := by decide
  have hout : x ∉ [48, 49, 50, 51, 52] ++ switchSources ++ recordSources := fun hx => by
    have := hold x hx
    omega
  simpa only [List.mem_append, not_or, and_assoc] using hout

theorem portsKept_updNet {f : Net → Net} (h : ∀ n, (f n).port = n.port) (s : State) : PortsKept s (s.updNet f) :=
  ⟨h s.net, rfl, fun _ _ _ => rfl⟩

theorem portsKept_crumb (code sev ten : Nat) (b : Bytes) (s : State) : PortsKept s (crumb code sev ten b s) where
  ports := by simp
  supply := by simp
  sources _ h h' := record_source (portSource_notMem h h').2.2 ..

theorem portsKept_raiseLost (c : Nat) (s : State) : PortsKept s (raiseLost c s) := by
  unfold raiseLost
  split
  · next y hy =>
    exact ⟨by simp, by simp, fun x h h' =>
      raiseSrc_source_of_ne (fun e : y = x => (portSource_notMem h h').1 (e ▸ refLostSrc_mem hy)) s⟩
  · exact .refl s

theorem portsKept_reselect (s : State) : PortsKept s (reselect s) where
  ports := (congrArg (fun y : State => y.net.port) (retimed_reselect s).parts :)
  supply := (congrArg State.supply (retimed_reselect s).parts :)
  sources x h h' := (retimed_reselect s).sources x (portSource_notMem h h').2.1

theorem portsKept_disqualify (c cause : Nat) (s : State) : PortsKept s (disqualify c cause s) := by
  by_cases h : (s.ref c).qualified = true
  · have hlost : PortsKept s (s.updRef c (RefIn.lost cause)) := ⟨rfl, rfl, fun _ _ _ => rfl⟩
    rw [disqualify_of_qualified h]
    exact (hlost.trans (portsKept_raiseLost ..)).trans (portsKept_reselect _)
  · simp only [disqualify, h]
    exact .refl s

theorem portsKept_setPtpRef (s : State) : PortsKept s (setPtpRef s) := by
  have href : PortsKept s (s.updNet fun n => { n with refPort := bestSlave s }) := portsKept_updNet (by intro _; rfl) s
  have hcheck : ∀ y, PortsKept y (ptpCheck y) := fun y => by
    unfold ptpCheck
    split
    · exact .refl y
    · exact portsKept_disqualify ..
  unfold setPtpRef
  dsimp only
  split
  · refine .trans ?_ (hcheck _)
    split
    · exact href
    · exact href.trans (portsKept_disqualify ..)
  · exact href.trans (portsKept_disqualify ..)
  · exact href

theorem portsKept_ptpLinkDown (p : Nat) (s : State) : PortsKept s (ptpLinkDown p s) := by
  unfold ptpLinkDown ptpTo
  split
  · exact .refl s
  · split
    · exact .refl s
    · exact (portsKept_updNet (by intro _; rfl) s).trans (portsKept_setPtpRef _)

theorem portsKept_ptpPortLost (p : Nat) (s : State) : PortsKept s (ptpPortLost p s) := by
  unfold ptpPortLost
  dsimp only
  refine .trans ?_ (portsKept_ptpLinkDown ..)
  split
  · exact portsKept_updNet (by intro _; rfl) s
  · exact (portsKept_updNet (by intro _; rfl) s).trans (portsKept_crumb ..)

/-! ### Frames that a failed port does not send any more (R967) -/

/-- The Net side, the supply, the time since power-up and the boot's stage are moved by no report and no completion. -/
theorem unmoved_netSupply : Unmoved fun s => (s.net, s.supply, s.up, s.boot.stage) where
  emit _ _ := rfl
  raise _ _ := by simp
  recorder _ _ := rfl
  deferral _ _ := rfl
  report _ _ _ := rfl
  lane _ _ _ := rfl
  key _ _ _ := rfl
  ring _ _ _ := rfl
  loft _ _ := rfl
  jobs _ _ := rfl
  held _ _ := rfl

/-- Frames that end unsent leave the Net side but for the queue they waited in. -/
theorem abortTx_netSupply (p : Nat) (s : State) :
    ((abortTx p false s).net, (abortTx p false s).supply, (abortTx p false s).up, (abortTx p false s).boot.stage) =
      ((s.updPort p fun x => { x with txq := [] }).net, s.supply, s.up, s.boot.stage) := by
  refine foldl_keep (fun s : State => (s.net, s.supply, s.up, s.boot.stage)) _ (fun z f => ?_) (s.port p).txq
    (s.updPort p fun x => { x with txq := [] })
  simp only [Bool.false_eq_true, if_false, endTx]
  split
  · exact (unmoved_netSupply.through_completeSub ..).trans (unmoved_netSupply.through_unpinAll ..)
  · exact unmoved_netSupply.through_unpinAll ..

/-! ### The failure (R966, R967, R969) -/

/-- The port of a failed island. -/
def Port.fail (up : Nat) (again : Bool) (x : Port) : Port :=
  { x with failed := true, failAt := some up, failLocked := again, held := none, rxq := [], xoff := false, pause := none
           late := [], txLpi := false, rxLpi := false, link := false
           linkChanges := if x.link then inc32 x.linkChanges else x.linkChanges }

/-- What a failure leaves in a port. -/
def Port.failure (x : Port) : Bool × Bool × List TxFrame × Option Nat × Bool := (x.failed, x.link, x.txq, x.failAt, x.failLocked)

/-- Both sources of a port stand when the failure of its island is told. -/
theorem raiseCrumb_portSources {p : Fin 6} {y : State} (hu : Up y) (code sev ten : Nat) (b : Bytes) :
    ((raiseCrumb (72 + p) code sev ten b (raiseSrc (64 + p) y)).source (64 + p)).1 = true ∧
      ((raiseCrumb (72 + p) code sev ten b (raiseSrc (64 + p) y)).source (72 + p)).1 = true := by
  have hp := p.isLt
  obtain ⟨hlt64, hr64, hlt72, hr72⟩ := portSource p
  have hu2 : Up (raiseSrc (64 + p) y) := up_of_keepsBut hu (keepsBut_raiseSrc ..) (by decide) (by decide)
  have hrec : ∀ x, 64 ≤ x → x < 80 → (raiseCrumb (72 + p) code sev ten b (raiseSrc (64 + p) y)).source x =
      (raiseSrc (72 + p) (raiseSrc (64 + p) y)).source x := fun x h h' => record_source (portSource_notMem h h').2.2 ..
  constructor
  · rw [hrec _ (by omega) (by omega), raiseSrc_source_of_ne (by omega)]
    exact (raised_raiseSrc hlt64 hr64 hu).1
  · rw [hrec _ (by omega) (by omega)]
    exact (raised_raiseSrc hlt72 hr72 hu2).1

theorem failPort_eq (p : Nat) (s : State) : failPort p s = ptpPortLost p (syncTxDis p (portIsland p false
    ((raiseCrumb (72 + p) 0x06A4 4 0 (anyPayload 0x06A4 [p]) (raiseSrc (64 + p) (abortTx p false s))).updPort p
      (Port.fail s.up ((s.port p).failAt.any fun x => decide (s.up < x + 60000000)))))) := rfl

theorem vat_vset_self {α : Type} {n : Nat} (v : Vector α n) (p : Fin n) (x : α) [Inhabited α] : vat (vset v p.val x) p = x :=
  vat_upd_self v p _ p.isLt

/-- A failed port: its record, its island without power, both sources. -/
theorem failPort_effect {p : Fin 6} {s : State} (hu : Up s) :
    ((failPort p s).port p).failed = true ∧ ((failPort p s).port p).link = false ∧ ((failPort p s).port p).txq = [] ∧
      ((failPort p s).port p).failAt = some s.up ∧
      ((failPort p s).port p).failLocked = ((s.port p).failAt.any fun x => decide (s.up < x + 60000000)) ∧
      vat (failPort p s).supply.isl.port p = false ∧ ((failPort p s).view 0).raw.getLsbD (64 + p.val) = true ∧
      ((failPort p s).view 0).raw.getLsbD (72 + p.val) = true := by
  have habort := abortTx_netSupply p s
  rw [failPort_eq]
  generalize ((s.port p).failAt.any fun x => decide (s.up < x + 60000000)) = again
  generalize abortTx p false s = y at *
  simp only [Prod.mk.injEq] at habort
  obtain ⟨hnet, hsup, -, hstage⟩ := habort
  have huy : Up y := by simpa only [Up, State.powered, State.campel, hsup, hstage] using hu
  obtain ⟨h64, h72⟩ := raiseCrumb_portSources (p := p) huy 0x06A4 4 0 (anyPayload 0x06A4 [p])
  have htold : (raiseCrumb (72 + p) 0x06A4 4 0 (anyPayload 0x06A4 [p]) (raiseSrc (64 + p) y)).net = y.net := by simp
  generalize raiseCrumb (72 + p) 0x06A4 4 0 (anyPayload 0x06A4 [p]) (raiseSrc (64 + p) y) = w at *
  generalize hfailed : syncTxDis p (portIsland p false (w.updPort p (Port.fail s.up again))) = x
  have hfailure : (x.port p).failure = (true, false, [], some s.up, again) := by
    have hw : w.port p = { s.port p with txq := [] } :=
      (port_of_net (htold.trans hnet) p).trans (port_updPort_self p.isLt ..)
    have hfail : (w.updPort p (Port.fail s.up again)).port p = (w.port p).fail s.up again := port_updPort_self p.isLt ..
    rw [← hfailed]
    refine (port_updPort_keep Port.failure (by intro _; rfl) p p _).trans ?_
    exact (congrArg Port.failure (hfail.trans (congrArg (Port.fail s.up again) hw)) :)
  simp only [Port.failure, Prod.mk.injEq] at hfailure
  obtain ⟨hfail, hlink, hqueue, hat, hlocked⟩ := hfailure
  have hisland : vat x.supply.isl.port p = false := by
    rw [← hfailed]
    exact vat_vset_self ..
  have hsource : ∀ k, x.source k = w.source k := fun k => by rw [← hfailed]; rfl
  obtain ⟨hports, hsupply, hsources⟩ := portsKept_ptpPortLost p x
  have hp := p.isLt
  have hz : (ptpPortLost p x).port p = x.port p := by simp only [State.port, hports]
  change ((ptpPortLost p x).port p).failed = true ∧ ((ptpPortLost p x).port p).link = false ∧
    ((ptpPortLost p x).port p).txq = [] ∧ ((ptpPortLost p x).port p).failAt = some s.up ∧
    ((ptpPortLost p x).port p).failLocked = again ∧ vat (ptpPortLost p x).supply.isl.port p = false ∧
    ((ptpPortLost p x).source (64 + p)).1 = true ∧ ((ptpPortLost p x).source (72 + p)).1 = true
  rw [hz, hsupply, hsources _ (by omega) (by omega), hsources _ (by omega) (by omega), hsource, hsource]
  exact ⟨hfail, hlink, hqueue, hat, hlocked, hisland, h64, h72⟩

theorem exec_portFailed {p : Fin 6} {a b : Nat} {par : Bool} {s : State} (hp : s.powered = true) (hr : portRuns s p = true)
    (hwhy : 1000 ≤ a ∨ par = true ∨ 3 ≤ b) : exec (.portFailed p a par b) s = .next (failPort p s) := by
  change execPortFailed p a par b s = _
  rw [execPortFailed, running_next hp]
  simp [hr, or_assoc, hwhy]

/-! ### The reset of its island (R969) -/

/-- The state in which a failed island runs again. -/
def portReset (p : Nat) (s : State) : State := syncTxDis p (portIsland p true (s.updPort p fun x => { x with failed := false }))

theorem exec_portRestored {p : Fin 6} {ms : Nat} {s : State} (hp : s.powered = true) (hf : (s.port p).failed = true)
    (hl : (s.port p).failLocked = false) (hms : 1000 ≤ ms) :
    exec (.portRestored p ms) s = .next (crumb 0x06A5 2 0 (anyPayload 0x06A5 [p.val]) (portReset p s)) := by
  change execPortRestored p ms s = _
  rw [execPortRestored, running_next hp]
  simp [hf, hl, hms, portReset]

theorem portRestored_effect {p : Fin 6} {s : State} (hu : Up s) (hrec : CanRecord s) :
    ((crumb 0x06A5 2 0 (anyPayload 0x06A5 [p.val]) (portReset p s)).port p).failed = false ∧
      vat (crumb 0x06A5 2 0 (anyPayload 0x06A5 [p.val]) (portReset p s)).supply.isl.port p = true ∧
      Recorded 0x06A5 2 0 s (crumb 0x06A5 2 0 (anyPayload 0x06A5 [p.val]) (portReset p s)) ∧
      OnPort p [.net, .supply, .recorder, .views, .out] s (crumb 0x06A5 2 0 (anyPayload 0x06A5 [p.val]) (portReset p s)) := by
  obtain ⟨hp, hc, -⟩ := hu
  have hself : ((portReset p s).port p).failed = false := by
    rw [portReset, syncTxDis, port_updPort_self p.isLt]
    exact (congrArg Port.failed (port_updPort_self p.isLt (fun x => { x with failed := false }) s) :)
  have hisland : vat (portReset p s).supply.isl.port p = true := vat_vset_self ..
  have hother : ∀ q : Fin 6, q ≠ p → (portReset p s).port q = s.port q := fun q hq =>
    ((onPort_updPort p _ _).others q hq).trans ((onPort_updPort p _ s).others q hq)
  have hparts : KeepsBut [.net, .supply, .recorder, .views, .out] s (portReset p s) := by
    simp [KeepsBut, portReset, syncTxDis, portIsland]
  have hrecorded : Recorded 0x06A5 2 0 (portReset p s) (crumb 0x06A5 2 0 (anyPayload 0x06A5 [p.val]) (portReset p s)) :=
    recorded_crumbOf (s := portReset p s) hp hc hrec ..
  have hkept : PortsKept (portReset p s) (crumb 0x06A5 2 0 (anyPayload 0x06A5 [p.val]) (portReset p s)) := portsKept_crumb ..
  have hcrumb := keepsBut_crumb (s := portReset p s) hc 0x06A5 2 0 (anyPayload 0x06A5 [p.val])
  generalize crumb 0x06A5 2 0 (anyPayload 0x06A5 [p.val]) (portReset p s) = z at *
  have hport : ∀ q : Fin 6, z.port q = (portReset p s).port q := fun q => by simp only [State.port, hkept.ports]
  refine ⟨by rw [hport, hself], by rw [hkept.supply, hisland], hrecorded,
    fun q hq => (hport q).trans (hother q hq), keepsBut_trans hparts (keepsBut_mono (by decide) hcrumb)⟩

/-- Settles O35: the rows that change one port by `row_updPort` and its like, the departure of a NET_SEND by
`frameSent_ring_effect`, the lost link by `linkDown_effect`, the failure by `failPort_effect`. -/
theorem framesAndLinksOfAPort : Obligations.FramesAndLinksOfAPort := by
  unfold Obligations.FramesAndLinksOfAPort
  refine ⟨fun p sec ns frac f l s hp hq hm hr => row_updPort_emit (exec_frameSent_own hp hq hm hr),
    fun p sec ns frac f l n q d s hp hq hm hr hn hlt ho hpair hc hd => ?_,
    fun p ms an s hu hl hr hm hms hoff => ?_, fun p s hu hl hheld hq hlpi hoff => ?_,
    fun p i l s hp hr hl hen hlpi hq hheld hi hlaunch => row_updPort (exec_lpiEntry hp hr hl hen hlpi hq hheld hi hlaunch),
    fun p l s hp hlpi hwhy => row_updPort (exec_lpiExit hp hlpi hwhy),
    fun p s h hm hlpi => row_updPort (exec_lpiRxEntry h hm hlpi),
    fun p s hp => row_updPort (exec_lpiRxWake hp),
    fun p first n s h hf hwhy => row_updPort (exec_lldpSend h hf hwhy),
    fun p a b c d s h hf => row_updPort (exec_lldpduReceived h hf),
    fun p ms s hu he hms => ?_, fun p a par b s hu hr hwhy => ?_, fun p ms s hu hrec hf hl hms => ?_⟩
  · obtain ⟨hout, hdone, hqueue, h11, h12, hon⟩ := frameSent_ring_effect (p := p) (l := l) (f := f) (d := d)
      { sec := sec % 2 ^ 48, ns := ns % 1000000000, frac := frac % 65536 } (departure f sec ns frac) hn hlt ho hpair hc rfl
    exact ⟨_, exec_frameSent_ring hp hq hm hr hd, hout, hdone, hqueue, h11, h12, hon.others, hon.parts⟩
  · obtain ⟨hlt, hradio, -⟩ := portSource p
    exact row_updPort_raise hu hlt hradio (exec_linkUp hu.1 hl hr hm hms hoff)
  · obtain ⟨hself, hraised, hon⟩ := linkDown_effect hu hl hheld hq hlpi hoff
    exact ⟨_, exec_linkDown hu.1 hl, hself, hraised, hon.others, hon.parts⟩
  · obtain ⟨-, -, hlt, hradio⟩ := portSource p
    exact row_updPort_raise hu hlt hradio (exec_errSummary hu.1 he hms)
  · exact ⟨_, exec_portFailed hu.1 hr hwhy, failPort_effect hu⟩
  · obtain ⟨hself, hisland, hrecorded, hon⟩ := portRestored_effect (p := p) hu hrec
    exact ⟨_, exec_portRestored hu.1 hf hl hms, hself, hisland, hrecorded, hon.others, hon.parts⟩

end Sys2Proof.Machine
end

section
/-! ## The allocation of one yealm (R123 to R129, R140) -/
namespace Sys2Proof.Machine
open Sys2Proof

/-! ### A free yealm exists -/

/-- A key with a value stands in the map. -/
theorem mem_of_mget {α : Type} {m : AMap α} {x : Nat} {a : α} (h : mget m x = some a) : (x, a) ∈ m := by
  induction m with
  | nil => simp [mget] at h
  | cons c l ih =>
    obtain ⟨k, v⟩ := c
    by_cases hk : k = x
    · simp only [mget, hk, if_true, Option.some.injEq] at h
      simp [hk, h]
    · simp only [mget, hk, if_false] at h
      exact List.mem_cons_of_mem _ (ih h)

/-- The indices that the Loft says anything about. -/
def Loft.listed (l : Loft) : List Nat := l.tags.map (·.1) ++ l.gone ++ l.testing

theorem Loft.length_listed (l : Loft) : l.listed.length = l.tags.length + l.gone.length + l.testing.length := by
  simp [Loft.listed, Nat.add_assoc]

/-- A pool yealm that is not free is listed: it is allocated, gone or under test. -/
theorem Loft.mem_listed_of_not_free {l : Loft} {i : Nat} (hp : poolIndex i = true) (h : l.isFree i = false) : i ∈ l.listed := by
  simp only [Loft.listed, List.mem_append]
  by_cases hg : i ∈ l.gone
  · exact .inl (.inr hg)
  by_cases ht : i ∈ l.testing
  · exact .inr ht
  have halloc : (l.tag i).alloc = true := by simpa [Loft.isFree, hp, hg, ht] using h
  cases hm : mget l.tags i with
  | none => simp [Loft.tag, mgetD, hm] at halloc
  | some g => exact .inl (.inl (List.mem_map.2 ⟨_, mem_of_mget hm, rfl⟩))

theorem Loft.isFree_lowestFree {l : Loft} {n i k : Nat} (h : l.lowestFree n i = some k) : l.isFree k = true := by
  induction n generalizing i with
  | zero => simp [Loft.lowestFree] at h
  | succ n ih =>
    unfold Loft.lowestFree at h
    split at h
    · simp at h
    · split at h
      · next hf => exact Option.some.inj h ▸ hf
      · exact ih h

/-- A search that finds nothing has seen no free index. -/
theorem Loft.not_free_of_lowestFree_none {l : Loft} {n i : Nat} (h : l.lowestFree n i = none) (hpool : 32768 ≤ i)
    (hend : i + n ≤ 2097152) {j : Nat} (hi : i ≤ j) (hj : j < i + n) : l.isFree j = false := by
  induction n generalizing i with
  | zero => omega
  | succ n ih =>
    have hp : poolIndex i = true := by
      simp only [poolIndex, Bool.and_eq_true, decide_eq_true_eq]
      omega
    simp only [Loft.lowestFree, hp, Bool.not_true, Bool.false_eq_true, if_false] at h
    split at h
    · simp at h
    · next hf =>
      rcases Nat.eq_or_lt_of_le hi with rfl | hlt
      · simpa using hf
      · exact ih h (by omega) (by omega) hlt (by omega)

/-- While the Loft lists fewer yealms than the pool has, the allocator finds a free one. -/
theorem Loft.exists_pick {l : Loft} (h : l.tags.length + l.gone.length + l.testing.length + 1 < 2064384) :
    ∃ i, l.pick = some i ∧ l.isFree i = true := by
  unfold Loft.pick
  dsimp only
  split
  · next hf => exact ⟨_, rfl, hf⟩
  · cases hs : l.lowestFree (l.tags.length + l.gone.length + l.testing.length + 1) 32768 with
    | some k => exact ⟨k, rfl, Loft.isFree_lowestFree hs⟩
    | none =>
      rw [← l.length_listed] at hs h
      have hall : List.range' 32768 (l.listed.length + 1) ⊆ l.listed := fun j hj => by
        obtain ⟨hlo, hhi⟩ := List.mem_range'_1.1 hj
        refine Loft.mem_listed_of_not_free ?_ (Loft.not_free_of_lowestFree_none hs (by omega) (by omega) hlo hhi)
        simp only [poolIndex, Bool.and_eq_true, decide_eq_true_eq]
        omega
      have hle := ((List.nodup_range' (s := 32768) (n := l.listed.length + 1)).subperm hall).length_le
      rw [List.length_range'] at hle
      omega

/-! ### Handles (Table LFT.2) -/

/-- The fields of a handle are what it was made of. -/
theorem handle_fields {t g i : Nat} (ht : t < 8) (hg : g < 256) (hi : i < 2 ^ 21) :
    hOwner (t * 2 ^ 29 + g * 2 ^ 21 + i) = t ∧ hGen (t * 2 ^ 29 + g * 2 ^ 21 + i) = g ∧
      hIndex (t * 2 ^ 29 + g * 2 ^ 21 + i) = i := by
  simp only [hOwner, hGen, hIndex, fld]
  omega

/-- Generations stay below 256 where those listed do. -/
theorem gen_lt_of_tags {l : Loft} (h : (l.tags.all fun p => decide (p.2.gen < 256)) = true) (i : Nat) : (l.tag i).gen < 256 := by
  cases hm : mget l.tags i with
  | none => simp [Loft.tag, mgetD, hm]
  | some g =>
    have hg := List.all_eq_true.1 h _ (mem_of_mget hm)
    simpa [Loft.tag, mgetD, hm] using hg

/-- Whether a tenant may use a pool yealm's handle depends on the tags alone. -/
theorem usable_of_tags {s z : State} (h : z.loft.tags = s.loft.tags) {t x : Nat} (hu : usable s t x = true) :
    usable z t x = true := by
  have hp := poolIndex_of_usable hu
  simpa [usable, current, storageRing_of_pool hp, Loft.tag, h] using hu

/-- The Loft in which yealm `i` has gone to a tenant. -/
def Loft.given (t i : Nat) (l : Loft) : Loft :=
  Loft.setTag { l.clear i with picks := l.picks + 1 } i { l.tag i with owner := t, alloc := true, pins := 0, doomed := false }

/-- The state in which yealm `i` has gone to a tenant. -/
def allocated (t i : Nat) (s : State) : State :=
  (s.updLoft (Loft.given t i)).updTen t fun x => { x with held := x.held + 1, peak := max x.peak (x.held + 1) }

/-- The tag of a yealm that has gone to a tenant (R124). -/
theorem tag_given (t i : Nat) (l : Loft) :
    (Loft.given t i l).tag i = { l.tag i with owner := t, alloc := true, pins := 0, doomed := false } := mgetD_mset_self ..

/-- The allocator gives the index it picked, under its handle. -/
theorem allocOne_eq {t i : Nat} {s : State} (h : s.loft.pick = some i) :
    allocOne t s = some ((Loft.given t i s.loft).handle i, allocated t i s) := by
  unfold allocOne
  rw [h]
  rfl

/-- A yealm just given is usable by its owner under a handle with the fields of its tag. -/
theorem usable_allocated {t i h : Nat} {s : State} (hp : poolIndex i = true) (hown : hOwner h = t)
    (hgen : hGen h = (s.loft.tag i).gen) (hidx : hIndex h = i) : usable (allocated t i s) t h = true := by
  have htag : (allocated t i s).loft.tag i = { s.loft.tag i with owner := t, alloc := true, pins := 0, doomed := false } :=
    tag_given t i s.loft
  simp only [usable, current, hown, hgen, hidx, storageRing_of_pool hp, htag, hp, beq_self_eq_true, Bool.and_self]

theorem handle_given (t i : Nat) (l : Loft) : (Loft.given t i l).handle i = t * 2 ^ 29 + (l.tag i).gen * 2 ^ 21 + i := by
  simp only [Loft.handle, tag_given]

/-- One yealm for a tenant: a usable handle; only tenants and Loft changed. -/
theorem allocOne_effect {t : Nat} {s : State} (ht : t < 8)
    (hpool : s.loft.tags.length + s.loft.gone.length + s.loft.testing.length + 1 < 2064384)
    (hgens : (s.loft.tags.all fun p => decide (p.2.gen < 256)) = true) :
    ∃ h z, allocOne t s = some (h, z) ∧ usable z t h = true ∧ KeepsBut [.tenants, .loft] s z := by
  obtain ⟨i, hpick, hfree⟩ := Loft.exists_pick hpool
  simp only [Loft.isFree, Bool.and_eq_true] at hfree
  obtain ⟨⟨⟨hp, -⟩, -⟩, -⟩ := hfree
  have hi : i < 2 ^ 21 := by
    simp only [poolIndex, Bool.and_eq_true, decide_eq_true_eq] at hp
    omega
  obtain ⟨hown, hgen, hidx⟩ := handle_fields ht (gen_lt_of_tags hgens i) hi
  rw [← handle_given] at hown hgen hidx
  exact ⟨_, _, allocOne_eq hpick, usable_allocated hp hown hgen hidx, by simp [KeepsBut, allocated]⟩

end Sys2Proof.Machine
end

section
/-! ## The delivery of a frame (R140, R160, R366, Table LFT.10) -/
namespace Sys2Proof.Machine
open Sys2Proof

/-- What a frame of at most one yealm that its flow delivers needs to be taken: the ring of the NET owner with room, the
owner's ingress bound and quota, a yealm of the pool. -/
structure HasRoom (fl : Flow) (d : Bytes) (s : State) : Prop where
  deliver : fl.action = 1
  opened : (s.ring fl.ring).opened = true
  type : (s.ring fl.ring).type = .rxframe
  owner : (s.ring fl.ring).owner = s.owner 1
  room : (s.ring fl.ring).room ≠ 0
  log2 : (s.ring fl.ring).log2 ≤ 12
  ingress : (s.ten (s.owner 1)).held < (s.ten (s.owner 1)).ingress
  quota : (s.ten (s.owner 1)).held + 1 ≤ (s.ten (s.owner 1)).quota
  pool : s.loft.tags.length + s.loft.gone.length + s.loft.testing.length + 1 < 2064384
  gens : (s.loft.tags.all fun p => decide (p.2.gen < 256)) = true
  tenant : s.owner 1 < 8
  length : d.length ≤ 4096
  nonempty : 0 < d.length

/-- A change of the Net side leaves the room. -/
theorem HasRoom.updNet {fl : Flow} {d : Bytes} {s : State} (h : HasRoom fl d s) (f : Net → Net) : HasRoom fl d (s.updNet f) :=
  ⟨h.deliver, h.opened, h.type, h.owner, h.room, h.log2, h.ingress, h.quota, h.pool, h.gens, h.tenant, h.length, h.nonempty⟩

/-- An open ring is one of the 32. -/
theorem lt_of_opened {n : Nat} {s : State} (h : (s.ring n).opened = true) : n < 32 := by
  by_contra hn
  have hdef : s.ring n = {} := dif_neg hn
  rw [hdef] at h
  exact Bool.false_ne_true h

theorem length_rxDesc (s : State) (p i : Nat) (f : RxFrame) (hs : List Nat) : (rxDesc s p i f hs).length = 31 := by
  simp [rxDesc]

/-- A frame of one yealm is stored whole. -/
theorem storeFrame_single {h : Nat} {d : Bytes} (hd : d.length ≤ 4096) (s : State) :
    storeFrame [h] d s = loftWrite (yAddr (hIndex h) 0) d s := by
  simp [storeFrame, slice, List.take_of_length_le hd]

/-- The state after a frame has been delivered in one yealm: the frame, its descriptor, the ring. -/
structure Delivered (fl : Flow) (d desc : Bytes) (h : Nat) (s z : State) : Prop where
  usable : usable z (s.owner 1) h = true
  stored : loftRead z (yAddr (hIndex h) 0) d.length = d
  descriptor : loftRead z (slotAddr fl.ring (s.ring fl.ring) (s.ring fl.ring).tail) 31 = desc
  tail : (z.ring fl.ring).tail = ((s.ring fl.ring).tail + 1) % 2 ^ 32
  parts : KeepsBut [.tenants, .loft, .rings, .views, .out] s z

/-- A frame stored in a usable yealm and told in its ring stands there: the slot lies below the pool. -/
theorem delivered_produce {fl : Flow} {d desc : Bytes} {h : Nat} {s y : State} (hr : HasRoom fl d s)
    (hu : usable y (s.owner 1) h = true) (hk : KeepsBut [.tenants, .loft] s y) (hlen : desc.length = 31) :
    Delivered fl d desc h s (produce fl.ring desc (loftWrite (yAddr (hIndex h) 0) d y)) := by
  have hrings : y.rings = s.rings := by
    obtain ⟨-, -, -, -, -, -, hrings, -⟩ := hk
    exact hrings.resolve_left (by decide)
  have hring : (loftWrite (yAddr (hIndex h) 0) d y).ring fl.ring = s.ring fl.ring := ring_of_rings hrings fl.ring
  have hslot : (loftWrite (yAddr (hIndex h) 0) d y).slot fl.ring =
      slotAddr fl.ring (s.ring fl.ring) (s.ring fl.ring).tail := by rw [State.slot, hring]
  have hbelow := slot_below_pool (s := loftWrite (yAddr (hIndex h) 0) d y) (o := 0) (lt_of_opened hr.opened)
    (by rw [hring]; exact hr.log2) (poolIndex_of_usable hu)
  refine ⟨?_, ?_, ?_, ?_, ?_⟩
  · refine usable_of_tags ?_ hu
    rw [produce_loft]
    rfl
  · have hbytes : loftRead (produce fl.ring desc (loftWrite (yAddr (hIndex h) 0) d y)) (yAddr (hIndex h) 0) d.length =
        loftRead (loftWrite (yAddr (hIndex h) 0) d y) (yAddr (hIndex h) 0) d.length :=
      loftRead_of_bytes fun k _ => byte_produce_of_out desc (.inr (by omega))
    rw [hbytes, loftRead_loftWrite]
  · rw [← hslot]
    exact loftRead_produce hlen _
  · rw [tail_produce (lt_of_opened hr.opened), hring]
  · have hwrite : KeepsBut [.tenants, .loft, .rings, .views, .out] y (loftWrite (yAddr (hIndex h) 0) d y) := by
      simp [KeepsBut, loftWrite]
    exact keepsBut_trans (keepsBut_trans (keepsBut_mono (by decide) hk) hwrite)
      (keepsBut_mono (by decide) (keepsBut_of_besidesProduction (produce_besidesProduction ..)))

/-- Admission takes a frame that has room, and delivers it (R366). -/
theorem admitFrame_taken {fl : Flow} {f : RxFrame} {s : State} (p i : Nat) (hr : HasRoom fl f.data s) :
    ∃ h z, admitFrame p i fl f s = .taken z ∧ Delivered fl f.data (rxDesc s p i f [h]) h s z := by
  obtain ⟨h, y, halloc, hu, hk⟩ := allocOne_effect hr.tenant hr.pool hr.gens
  have hone : (f.data.length + 4095) / 4096 = 1 := by
    have := hr.length
    have := hr.nonempty
    omega
  have hyealms : frameYealms (s.owner 1) 1 s = some ([h], y) := by
    rw [frameYealms, if_neg (Nat.not_lt.2 hr.quota)]
    simp [allocMany, halloc]
  have hnoRoom : noRoom s p fl f.data = none := by
    simp [noRoom, hr.deliver, hr.opened, hr.type, hr.owner, hr.room]
  refine ⟨h, _, ?_, delivered_produce hr hu hk (length_rxDesc ..)⟩
  simp only [admitFrame, actionService, hr.deliver, hnoRoom, hone, if_true, hyealms, if_neg (Nat.not_le.2 hr.ingress),
    storeFrame_single hr.length]

end Sys2Proof.Machine
end

section
/-! ## The receiving side of a port (R361 to R368, R380 to R383, R395, R401) -/
namespace Sys2Proof.Machine
open Sys2Proof

/-! ### A good frame up to its flow -/

/-- The count of a flow keeps of every port what is not the default flow's count. -/
theorem port_updFlowCount_keep {β : Type} (g : Port → β) (hg : ∀ (x : Port) c, g { x with deflt := c } = g x) (p i q : Nat)
    (f : FlowCount → FlowCount) (s : State) : g ((updFlowCount p i f s).port q) = g (s.port q) := by
  unfold updFlowCount
  split
  · exact port_updPort_keep g (fun x => hg x _) p q s
  · rfl

/-- The count of a flow changes the Net side alone. -/
theorem updFlowCount_eq (p i : Nat) (f : FlowCount → FlowCount) (s : State) : ∃ g, updFlowCount p i f s = s.updNet g := by
  unfold updFlowCount
  split
  · exact ⟨_, rfl⟩
  · exact ⟨_, rfl⟩

theorem onPort_updFlowCount (p : Fin 6) (i : Nat) (f : FlowCount → FlowCount) (s : State) :
    OnPort p [.net] s (updFlowCount p i f s) := by
  unfold updFlowCount
  split
  · exact onPort_updPort p _ s
  · exact ⟨fun _ _ => rfl, by simp [KeepsBut]⟩

/-- The classifier looks at a port's flags and at the ring of its default flow. -/
theorem classify_updPort {p : Nat} {f : Port → Port} (hflags : ∀ x, (f x).flags = x.flags)
    (hring : ∀ x, (f x).defaultRing = x.defaultRing) (q : Nat) (d : Bytes) (s : State) :
    classify (s.updPort p f) q d = classify s q d := by
  have h1 : ((s.updPort p f).port q).flags = (s.port q).flags := port_updPort_keep Port.flags hflags p q s
  have h2 : ((s.updPort p f).port q).defaultRing = (s.port q).defaultRing := port_updPort_keep Port.defaultRing hring p q s
  simp only [classify, portFlag, h1, h2]
  rfl

/-- The counts of a good frame in its flow. -/
def FlowCount.matched (n : Nat) (c : FlowCount) : FlowCount :=
  { c with frames := wrap64 (c.frames + 1), bytes := wrap64 (c.bytes + n + 4) }

/-- A port that has counted a good frame of `n` bytes, FCS not among them. -/
def Port.good (n : Nat) (x : Port) : Port := (x.counted 0 1).counted 1 (n + 4)

/-- The state in which a good frame has been counted for its port and its flow `i`. -/
def counted (p i n : Nat) (s : State) : State :=
  updFlowCount p i (FlowCount.matched n) (s.updPort p (Port.good n))

theorem counted_eq (p i n : Nat) (s : State) : ∃ g, counted p i n s = s.updNet g := by
  obtain ⟨g, hg⟩ := updFlowCount_eq p i (FlowCount.matched n) (s.updPort p (Port.good n))
  exact ⟨g ∘ fun x => { x with port := upd x.port p (Port.good n) }, hg⟩

theorem onPort_counted (p : Fin 6) (i n : Nat) (s : State) : OnPort p [.net] s (counted p i n s) :=
  (onPort_updPort p _ s).trans (onPort_updFlowCount p i _ _)

theorem counters_counted (p : Fin 6) (i n : Nat) (s : State) :
    ((counted p i n s).port p).counters = (((s.port p).counted 0 1).counted 1 (n + 4)).counters :=
  (port_updFlowCount_keep Port.counters (fun _ _ => rfl) ..).trans
    (congrArg Port.counters (port_updPort_self p.isLt (Port.good n) s) :)

/-- A frame counted in frames and bytes. -/
theorem portCounted_of_counters {p : Fin 6} {i n : Nat} {s z : State}
    (h : (z.port p).counters = ((counted p i n s).port p).counters) : PortCounted p 0 1 s z ∧ PortCounted p 1 (n + 4) s z := by
  rw [counters_counted] at h
  constructor
  · rw [PortCounted, h, counter_counted_of_ne (by decide), counter_counted (by decide)]
  · rw [PortCounted, h, counter_counted (by decide), counter_counted_of_ne (by decide)]

/-- A good frame that the MAC accepts, of a port that holds none, is dropped or offered as its flow says (R361, R367). -/
theorem exec_frameReceived_good {p : Fin 6} {data : Bytes} {sec ns frac i : Nat} {fl : Flow} {s : State} (h : PortUp p s)
    (hbuf : rxBytes (s.port p) + data.length + 4 ≤ 65536) (hmin : 60 ≤ data.length)
    (hmax : data.length + 4 ≤ (s.port p).maxFrame) (hmac : macAccepts s p data = true) (htype : rdBe data 12 2 ≠ 0x8808)
    (hheld : (s.port p).held = none) (hflow : classify s p data = (i, fl)) :
    exec (.frameReceived p data true false sec ns frac) s = .next
      (if fl.action = 0 then portCount p 9 1 (counted p i data.length s)
      else offerFrame p i fl { data, time := { sec := sec % 2 ^ 48, ns := ns % 1000000000, frac := frac % 65536 } }
        (counted p i data.length s)) := by
  obtain ⟨hp, hr, hl⟩ := h
  have hcount : portCount p 1 (data.length + 4) (portCount p 0 1 s) =
      s.updPort p (Port.good data.length) := by
    rw [portCount_quiet rfl, portCount_quiet rfl, updPort_updPort]
    rfl
  have hnone : ((s.updPort p (Port.good data.length)).port p).held = none :=
    (port_updPort_keep Port.held (by intro _; rfl) p p s).trans hheld
  have hfault : frameFault s p data true false = none := by
    simp only [frameFault, Bool.not_true, Bool.false_eq_true, if_false, if_neg (Nat.not_lt.2 hmax)]
    rw [if_neg (by omega)]
  have hclass : classify (s.updPort p (Port.good data.length)) p data = (i, fl) :=
    (classify_updPort (by intro _; rfl) (by intro _; rfl) p data s).trans hflow
  change execFrameReceived p data true false sec ns frac s = _
  rw [execFrameReceived, running_next hp]
  simp only [hr, hl, Bool.not_true, Bool.or_self, Bool.false_eq_true, if_false]
  simp only [receive, if_neg (Nat.not_lt.2 hbuf), hfault, hcount, hmac, Bool.not_true, Bool.false_eq_true, if_false,
    if_neg htype, hnone, Option.isNone_none, if_true, takeFrame, hclass]
  rfl

theorem exec_frameReceived_badFcs {p : Fin 6} {data : Bytes} {sec ns frac : Nat} {s : State} (h : PortUp p s)
    (hbuf : rxBytes (s.port p) + data.length + 4 ≤ 65536) :
    exec (.frameReceived p data false false sec ns frac) s = .next (portCount p 2 1 s) := by
  obtain ⟨hp, hr, hl⟩ := h
  change execFrameReceived p data false false sec ns frac s = _
  rw [execFrameReceived, running_next hp]
  simp only [hr, hl, Bool.not_true, Bool.or_self, Bool.false_eq_true, if_false]
  simp only [receive, if_neg (Nat.not_lt.2 hbuf), frameFault, Bool.not_false, if_true]

/-- A good frame whose flow delivers it, with room for it, is delivered. -/
theorem frameReceived_delivers {p : Fin 6} {data : Bytes} {sec ns frac i : Nat} {fl : Flow} {s : State} (h : PortUp p s)
    (hbuf : rxBytes (s.port p) + data.length + 4 ≤ 65536) (hmin : 60 ≤ data.length)
    (hmax : data.length + 4 ≤ (s.port p).maxFrame) (hmac : macAccepts s p data = true) (htype : rdBe data 12 2 ≠ 0x8808)
    (hheld : (s.port p).held = none) (hflow : classify s p data = (i, fl)) (hsec : sec < 2 ^ 48) (hns : ns < 1000000000)
    (hfrac : frac < 65536) (hroom : HasRoom fl data s) :
    ∃ z, exec (.frameReceived p data true false sec ns frac) s = .next z ∧ ∃ h : Nat,
      usable z (s.owner 1) h = true ∧ loftRead z (yAddr (hIndex h) 0) data.length = data ∧
      loftRead z (slotAddr fl.ring (s.ring fl.ring) (s.ring fl.ring).tail) 31 =
        rxDesc s p i { data, time := { sec, ns, frac } } [h] ∧
      (z.ring fl.ring).tail = ((s.ring fl.ring).tail + 1) % 2 ^ 32 ∧ PortCounted p 0 1 s z ∧
      PortCounted p 1 (data.length + 4) s z ∧ KeepsBut [.tenants, .loft, .rings, .net, .views, .out] s z := by
  have hexec := exec_frameReceived_good (sec := sec) (ns := ns) (frac := frac) h hbuf hmin hmax hmac htype hheld hflow
  have hact : ¬ fl.action = 0 := by rw [hroom.deliver]; decide
  rw [if_neg hact, Nat.mod_eq_of_lt hsec, Nat.mod_eq_of_lt hns, Nat.mod_eq_of_lt hfrac] at hexec
  obtain ⟨g, hg⟩ := counted_eq p i data.length s
  have hcounters := portCounted_of_counters (p := p) (i := i) (n := data.length) (s := s) (z := s.updNet g) (by rw [hg])
  rw [hg] at hexec
  obtain ⟨h, z, htaken, hdone⟩ := admitFrame_taken (f := { data, time := { sec, ns, frac } }) p i (hroom.updNet g)
  rw [offerFrame, htaken] at hexec
  obtain ⟨husable, hstored, hdesc, htail, hparts⟩ := hdone
  have hnet : z.net = (s.updNet g).net := by
    obtain ⟨-, -, -, -, -, -, -, -, -, -, -, -, -, -, hnet, -⟩ := hparts
    exact hnet.resolve_left (by decide)
  have hmoved : KeepsBut [.tenants, .loft, .rings, .net, .views, .out] s (s.updNet g) := by simp [KeepsBut]
  obtain ⟨h0, h1⟩ := hcounters
  rw [PortCounted, ← port_of_net hnet] at h0 h1
  exact ⟨z, hexec, h, husable, hstored, hdesc, htail, h0, h1, keepsBut_trans hmoved (keepsBut_mono (by decide) hparts)⟩

/-- A good frame whose flow drops it is only counted (R395). -/
theorem frameReceived_drops {p : Fin 6} {data : Bytes} {sec ns frac i : Nat} {fl : Flow} {s : State} (h : PortUp p s)
    (hbuf : rxBytes (s.port p) + data.length + 4 ≤ 65536) (hmin : 60 ≤ data.length)
    (hmax : data.length + 4 ≤ (s.port p).maxFrame) (hmac : macAccepts s p data = true) (htype : rdBe data 12 2 ≠ 0x8808)
    (hheld : (s.port p).held = none) (hflow : classify s p data = (i, fl)) (hdrop : fl.action = 0) :
    ∃ z, exec (.frameReceived p data true false sec ns frac) s = .next z ∧ PortCounted p 0 1 s z ∧
      PortCounted p 1 (data.length + 4) s z ∧ PortCounted p 9 1 s z ∧ (∀ q : Fin 6, q ≠ p → z.port q = s.port q) ∧
      KeepsBut [.net] s z := by
  have hexec := exec_frameReceived_good (sec := sec) (ns := ns) (frac := frac) h hbuf hmin hmax hmac htype hheld hflow
  rw [if_pos hdrop, portCount_quiet rfl] at hexec
  have hself : ((counted p i data.length s).updPort p (Port.counted 9 1)).port p =
      ((counted p i data.length s).port p).counted 9 1 := port_updPort_self p.isLt ..
  have hon := (onPort_counted p i data.length s).trans (onPort_updPort p (Port.counted 9 1) _)
  obtain ⟨h0, h1⟩ := portCounted_of_counters (p := p) (i := i) (n := data.length) (s := s)
    (z := counted p i data.length s) rfl
  have hcounters := counters_counted p i data.length s
  refine ⟨_, hexec, ?_, ?_, ?_, hon.others, hon.parts⟩
  · rw [PortCounted, hself, counter_counted_of_ne (by decide), h0]
  · rw [PortCounted, hself, counter_counted_of_ne (by decide), h1]
  · rw [PortCounted, hself, counter_counted (by decide), hcounters, counter_counted_of_ne (by decide),
      counter_counted_of_ne (by decide)]

/-! ### PAUSE frames (R380, R381, R383) -/

theorem exec_xoffRepeat {p : Fin 6} {n : Nat} {s : State} (hp : s.powered = true) (hr : portRuns s p = true)
    (hflag : portFlag s p 0 = true) (hxoff : (s.port p).xoff = true) (hstands : xoffStands s p = true)
    (hn : halfPause s p ≤ n) :
    exec (.xoffRepeat p n) s = .next ((s.updPort p (Port.counted 13 1)).emit (.pause p (s.port p).pauseQuanta)) := by
  change execXoffRepeat p n s = _
  rw [execXoffRepeat, running_next hp]
  simp [hr, hflag, hxoff, hstands, hn, sendPause, portCount_quiet, errCounter, emit_updPort]

theorem exec_xon {p : Fin 6} {s : State} (hp : s.powered = true) (hr : portRuns s p = true) (hxoff : (s.port p).xoff = true)
    (hheld : (s.port p).held = none) (hbytes : rxBytes (s.port p) < 16384) :
    exec (.xon p) s =
      .next ((s.updPort p (Port.counted 13 1 ∘ fun x => { x with xoff := false })).emit (.pause p 0)) := by
  change execXon p s = _
  rw [execXon, running_next hp]
  simp [hr, hxoff, hheld, hbytes, sendPause, portCount_quiet, errCounter, emit_updPort, updPort_updPort]

theorem exec_pauseReceived {p : Fin 6} {q : BitVec 16} {s : State} (h : PortUp p s) (hq : q.toNat ≠ 0) :
    exec (.pauseReceived p [0x01, 0x80, 0xC2, 0, 0, 0x01] q) s =
      .next (s.updPort p ((fun x => { x with pause := some q.toNat }) ∘ Port.counted 10 1)) := by
  obtain ⟨hp, hr, hl⟩ := h
  change execPauseReceived p [0x01, 0x80, 0xC2, 0, 0, 0x01] q s = _
  rw [execPauseReceived, running_next hp]
  simp only [hr, hl, Bool.and_self, if_true, takePause, true_or, if_neg hq, portCount_quiet (i := 10) rfl, updPort_updPort]

/-- A pause without held launches ends in the port alone. -/
theorem exec_pauseEnd {p : Fin 6} {ns q : Nat} {s : State} (hp : s.powered = true) (hq : (s.port p).pause = some q)
    (hns : q * (if (s.port p).mode = 1 then 512 else 5120) ≤ 10 * ns) (hlate : (s.port p).late = []) :
    exec (.pauseEnd p ns) s =
      .next (s.updPort p ((fun x => { x with late := [] }) ∘ fun x => { x with pause := none })) := by
  have hnone : ((s.updPort p fun x => { x with pause := none }).port p).late = [] :=
    (port_updPort_keep Port.late (by intro _; rfl) p p s).trans hlate
  change execPauseEnd p ns s = _
  rw [execPauseEnd, running_next hp]
  simp only [hq, if_pos hns, endPause, lateLaunches, hnone, List.foldl_nil, updPort_updPort]

/-! ### The held frame (R383) -/

/-- With no frame behind, nothing follows. -/
theorem drain_of_empty {p : Nat} {s : State} (h : (s.port p).rxq = []) : drain p s = s := by simp [drain, h, drainRx]

/-- A held frame that has room now is delivered and no longer held. -/
theorem heldFrameAdmit_delivers {p : Fin 6} {f : RxFrame} {i : Nat} {fl : Flow} {s : State} (hp : s.powered = true)
    (hr : portRuns s p = true) (hheld : (s.port p).held = some { frame := f, index := i, flow := fl })
    (hq : (s.port p).rxq = []) (hroom : HasRoom fl f.data s) :
    ∃ z, exec (.heldFrameAdmit p) s = .next z ∧ ∃ h : Nat, (z.port p).held = none ∧ usable z (s.owner 1) h = true ∧
      loftRead z (yAddr (hIndex h) 0) f.data.length = f.data ∧
      loftRead z (slotAddr fl.ring (s.ring fl.ring) (s.ring fl.ring).tail) 31 = rxDesc s p i f [h] ∧
      (z.ring fl.ring).tail = ((s.ring fl.ring).tail + 1) % 2 ^ 32 ∧ (∀ q : Fin 6, q ≠ p → z.port q = s.port q) ∧
      KeepsBut [.tenants, .loft, .rings, .net, .views, .out] s z := by
  have hon : OnPort p [.net] s (s.updPort p fun x => { x with held := none }) := onPort_updPort p _ s
  have hself : (s.updPort p fun x => { x with held := none }).port p = { s.port p with held := none } :=
    port_updPort_self p.isLt ..
  obtain ⟨h, z, htaken, husable, hstored, hdesc, htail, hparts⟩ :=
    admitFrame_taken (s := s.updPort p fun x => { x with held := none }) p i (hroom.updNet _)
  have hnet : z.net = (s.updPort p fun x => { x with held := none }).net := by
    obtain ⟨-, -, -, -, -, -, -, -, -, -, -, -, -, -, hnet, -⟩ := hparts
    exact hnet.resolve_left (by decide)
  have hport : z.port p = { s.port p with held := none } := (port_of_net hnet p).trans hself
  have hexec : exec (.heldFrameAdmit p) s = .next z := by
    change execHeldFrameAdmit p s = _
    rw [execHeldFrameAdmit, running_next hp]
    simp only [hr, if_true, retryHeld, hheld, htaken]
    rw [drain_of_empty (by rw [hport]; exact hq)]
  exact ⟨z, hexec, h, by rw [hport], husable, hstored, hdesc, htail,
    fun q hq => (port_of_net hnet q).trans (hon.others q hq),
    keepsBut_trans (keepsBut_mono (by decide) hon.parts) (keepsBut_mono (by decide) hparts)⟩

/-- A flow's count of a frame dropped. -/
def FlowCount.drop (c : FlowCount) : FlowCount := { c with dropped := wrap64 (c.dropped + 1) }

/-- The state in which a refused frame has been counted for its port and its flow. -/
def refusalCounted (p i : Nat) (s : State) : State := (updFlowCount p i FlowCount.drop s).updPort p (Port.counted 8 1)

theorem refusalCounted_effect (p : Fin 6) (i : Nat) (s : State) :
    ((refusalCounted p i s).port p).held = (s.port p).held ∧ ((refusalCounted p i s).port p).rxq = (s.port p).rxq ∧
      PortCounted p 8 1 s (refusalCounted p i s) ∧ OnPort p [.net] s (refusalCounted p i s) := by
  have hself : (refusalCounted p i s).port p = ((updFlowCount p i FlowCount.drop s).port p).counted 8 1 :=
    port_updPort_self p.isLt ..
  have hon : OnPort p [.net] s (refusalCounted p i s) := (onPort_updFlowCount p i FlowCount.drop s).trans (onPort_updPort p _ _)
  refine ⟨?_, ?_, ?_, hon⟩
  · exact (congrArg Port.held hself).trans (port_updFlowCount_keep Port.held (fun _ _ => rfl) ..)
  · exact (congrArg Port.rxq hself).trans (port_updFlowCount_keep Port.rxq (fun _ _ => rfl) ..)
  · rw [PortCounted, hself, counter_counted (by decide),
      port_updFlowCount_keep (fun x => vat x.counters 8) (fun _ _ => rfl) p i p FlowCount.drop s]

/-- The same, the frame counted in its flow's ring too where that was full and the NET owner below its bound (R162). -/
def refusalTold (p i : Nat) (fl : Flow) (f : RxFrame) (s : State) : State :=
  if (noRoom s p fl f.data == some true && decide ((s.ten (s.owner 1)).held < (s.ten (s.owner 1)).ingress)) = true then
    (refusalCounted p i s).updRing fl.ring fun r => { r with dropped := inc16 r.dropped }
  else refusalCounted p i s

/-- A refused frame of a delivering flow is counted for its port, its flow and the NET owner; where its ring was full, there
too. -/
theorem refuseFrame_eq {p i : Nat} {fl : Flow} (f : RxFrame) (s : State) (hact : fl.action = 1) :
    ∃ w, (w = refusalCounted p i s ∨ ∃ g, w = (refusalCounted p i s).updRing fl.ring g) ∧
      refuseFrame p i fl f s = w.updTen (s.owner 1) fun x => { x with refFrames := inc32 x.refFrames } := by
  have hservice : actionService fl.action = 1 := by rw [hact]; rfl
  have h2 : ¬ fl.action = 2 := by rw [hact]; decide
  have h3 : ¬ fl.action = 3 := by rw [hact]; decide
  refine ⟨refusalTold p i fl f s, ?_, ?_⟩
  · unfold refusalTold
    split
    · exact .inr ⟨_, rfl⟩
    · exact .inl rfl
  · simp only [refuseFrame, hservice, if_neg h2, h3, false_and, if_false]
    rw [portCount_quiet rfl]
    rfl

theorem refuseFrame_effect {p : Fin 6} (i : Nat) {fl : Flow} (f : RxFrame) {s : State} (hact : fl.action = 1)
    (ht : s.owner 1 < 8) :
    ((refuseFrame p i fl f s).port p).held = (s.port p).held ∧ ((refuseFrame p i fl f s).port p).rxq = (s.port p).rxq ∧
      PortCounted p 8 1 s (refuseFrame p i fl f s) ∧
      ((refuseFrame p i fl f s).ten (s.owner 1)).refFrames = inc32 (s.ten (s.owner 1)).refFrames ∧
      OnPort p [.tenants, .rings, .net] s (refuseFrame p i fl f s) := by
  obtain ⟨w, hw, heq⟩ := refuseFrame_eq (p := p) (i := i) f s hact
  rw [heq]
  obtain ⟨hheld, hrxq, hcount, hon⟩ := refusalCounted_effect p i s
  generalize refusalCounted p i s = y at *
  have htenants : y.tenants = s.tenants := tenants_of_keepsBut hon.parts (by decide)
  have hwnet : w.net = y.net := by rcases hw with rfl | ⟨g, rfl⟩ <;> rfl
  have hwten : w.ten (s.owner 1) = s.ten (s.owner 1) := by
    rw [← ten_of_tenants htenants]
    rcases hw with rfl | ⟨g, rfl⟩ <;> rfl
  have hwparts : KeepsBut [.tenants, .rings, .net] y w := by
    rcases hw with rfl | ⟨g, rfl⟩
    · exact keepsBut_refl ..
    · simp [KeepsBut]
  have hport : ∀ q : Fin 6, (w.updTen (s.owner 1) fun x => { x with refFrames := inc32 x.refFrames }).port q = y.port q :=
    fun q => port_of_net (s := y) hwnet q
  refine ⟨by rw [hport, hheld], by rw [hport, hrxq], ?_, ?_, ?_⟩
  · rw [PortCounted, hport]
    exact hcount
  · refine (congrArg Tenant.refFrames (vat_upd_self w.tenants (s.owner 1) _ ht) :).trans ?_
    exact congrArg (fun x : Tenant => inc32 x.refFrames) hwten
  · exact ⟨fun q hq => (hport q).trans (hon.others q hq),
      keepsBut_trans (keepsBut_trans (keepsBut_mono (by decide) hon.parts) hwparts) (by simp [KeepsBut])⟩

/-- A frame held for 1 ms is dropped and counted. -/
theorem heldFrameTimeout_drops {p : Fin 6} {us : Nat} {f : RxFrame} {i : Nat} {fl : Flow} {s : State} (hp : s.powered = true)
    (hr : portRuns s p = true) (hus : 1000 ≤ us) (hheld : (s.port p).held = some { frame := f, index := i, flow := fl })
    (hq : (s.port p).rxq = []) (hact : fl.action = 1) (ht : s.owner 1 < 8) :
    ∃ z, exec (.heldFrameTimeout p us) s = .next z ∧ (z.port p).held = none ∧ PortCounted p 8 1 s z ∧
      (z.ten (s.owner 1)).refFrames = inc32 (s.ten (s.owner 1)).refFrames ∧ (∀ q : Fin 6, q ≠ p → z.port q = s.port q) ∧
      KeepsBut [.tenants, .rings, .net] s z := by
  have hon : OnPort p [.net] s (s.updPort p fun x => { x with held := none }) := onPort_updPort p _ s
  have hself : (s.updPort p fun x => { x with held := none }).port p = { s.port p with held := none } :=
    port_updPort_self p.isLt ..
  obtain ⟨hnone, hrxq, hcount, href, honr⟩ :=
    refuseFrame_effect (s := s.updPort p fun x => { x with held := none }) (p := p) i f hact ht
  have hexec : exec (.heldFrameTimeout p us) s =
      .next (refuseFrame p i fl f (s.updPort p fun x => { x with held := none })) := by
    change execHeldFrameTimeout p us s = _
    rw [execHeldFrameTimeout, running_next hp]
    simp only [hr, hus, and_self, if_true, dropHeld, hheld]
    rw [drain_of_empty (by rw [hrxq, hself]; exact hq)]
  rw [PortCounted, hself] at hcount
  have hall := (hon.mono (qs := [.tenants, .rings, .net]) (by decide)).trans honr
  exact ⟨_, hexec, by rw [hnone, hself], hcount, href, hall.others, hall.parts⟩

/-- Settles O34: reception by `exec_frameReceived_good` and `admitFrame_taken`, the held frame by `heldFrameAdmit_delivers` and
`heldFrameTimeout_drops`, PAUSE by rows that change one port. -/
theorem framesAreCheckedAndDelivered : Obligations.FramesAreCheckedAndDelivered := by
  unfold Obligations.FramesAreCheckedAndDelivered
  refine ⟨fun p data sec ns frac s h hbuf => ?_,
    fun p data sec ns frac i fl s h hbuf hmin hmax hmac htype hheld hflow hlen hsec hns hfrac hact ho ht hown hroom hlog hin
      hquota hpool hgens hten => ?_,
    fun p data sec ns frac i fl s h hbuf hmin hmax hmac htype hheld hflow hdrop =>
      frameReceived_drops h hbuf hmin hmax hmac htype hheld hflow hdrop,
    fun p n s hp hr hflag hxoff hstands hn => row_updPort_emit (exec_xoffRepeat hp hr hflag hxoff hstands hn),
    fun p s hp hr hxoff hheld hbytes => row_updPort_emit (exec_xon hp hr hxoff hheld hbytes),
    fun p f i fl s hp hr hheld hq hlen hpos hact ho ht hown hroom hlog hin hquota hpool hgens hten => ?_,
    fun p us f i fl s hp hr hus hheld hq hact ht => heldFrameTimeout_drops hp hr hus hheld hq hact ht,
    fun p q s h hq => row_updPort (exec_pauseReceived h hq), fun p ns q s hp hq hns hlate => ?_⟩
  · obtain ⟨herr, hon, -⟩ := portCount_effect p 2 1 s
    have hcount : PortCounted p 2 1 s (portCount p 2 1 s) :=
      (congrArg (fun x => vat x.counters 2) herr :).trans (counter_counted (by decide) 1 (s.port p))
    exact ⟨_, exec_frameReceived_badFcs h hbuf, hcount, (congrArg Port.rxq herr :), hon.others, hon.parts⟩
  · exact frameReceived_delivers h hbuf hmin hmax hmac htype hheld hflow hsec hns hfrac
      ⟨hact, ho, ht, hown, hroom, hlog, hin, hquota, hpool, hgens, hten, hlen, by omega⟩
  · exact heldFrameAdmit_delivers hp hr hheld hq
      ⟨hact, ho, ht, hown, hroom, hlog, hin, hquota, hpool, hgens, hten, hlen, hpos⟩
  · obtain ⟨z, he, hself, hrest⟩ := row_updPort (exec_pauseEnd hp hq hns hlate)
    refine ⟨z, he, ?_, hrest⟩
    rw [hself, ← hlate]
    rfl

end Sys2Proof.Machine
end

section
/-! ## What consuming a NET_SEND or a disk descriptor does (R372, R373, R607 to R619) -/
namespace Sys2Proof.Machine
open Sys2Proof

/-! ### The state in which an entry has been passed -/

/-- The state with other rings, views and log. -/
def State.withRings (s : State) (v : Vector View 8) (r : Vector Ring 32) (o : List Out) : State :=
  { s with views := v, rings := r, out := o }

/-- An entry passed changes rings, views and log alone (R161, R164). -/
theorem advanceHead_withRings (n : Nat) (s : State) : ∃ v r o, advanceHead n s = s.withRings v r o := by
  refine ⟨(advanceHead n s).views, (advanceHead n s).rings, (advanceHead n s).out, ?_⟩
  have hframe := advanceHead_besidesProduction n s
  have hloft := advanceHead_loft n s
  generalize advanceHead n s = y at *
  cases y
  cases s
  simp only [State.besidesProduction, State.mk.injEq] at hframe
  simp_all [State.withRings]

theorem usable_withRings (s : State) (v : Vector View 8) (r : Vector Ring 32) (o : List Out) (t : Nat) :
    usable (s.withRings v r o) t = usable s t := funext fun x => usable_of_loft (s := s) (z := s.withRings v r o) rfl t x

/-- The checks of a NET_SEND do not look at rings (Table ETH.2). -/
theorem netFields_withRings (s : State) (v : Vector View 8) (r : Vector Ring 32) (o : List Out) (t : Nat) (d : Bytes) :
    netFields (s.withRings v r o) t d = netFields s t d := by
  unfold netFields
  rw [usable_withRings]
  rfl

theorem diskFieldsBad_withRings (s : State) (v : Vector View 8) (r : Vector Ring 32) (o : List Out) (t : Nat) (d : Bytes) :
    diskFieldsBad (s.withRings v r o) t d = diskFieldsBad s t d := by
  unfold diskFieldsBad
  rw [usable_withRings]
  rfl

/-- The checks of a disk descriptor do not look at rings (Table DSK.3). -/
theorem diskStatus_withRings (s : State) (v : Vector View 8) (r : Vector Ring 32) (o : List Out) (t : Nat) (d : Bytes) :
    diskStatus (s.withRings v r o) t d = diskStatus s t d := by
  unfold diskStatus
  rw [diskFieldsBad_withRings]
  rfl

/-- What consumption may change: the ring, its views and its log, but no byte. -/
theorem keepsBut_advanceHead (n : Nat) (s : State) : KeepsBut [.rings, .loft, .views, .out] s (advanceHead n s) :=
  keepsBut_of_besidesProduction (advanceHead_besidesProduction n s)

/-- A NET_SEND of the NET owner goes to the port (R372). -/
theorem runClass_net {n t : Nat} {d : Bytes} {y : State} (hsafe : y.supply.mode = .safe → t = 0) (hcls : byteAt d 0 = 0x10)
    (hown : y.owner 1 = t) : runClass n t d y = netSubmit n t d y := by
  have hmode : ¬ (y.supply.mode = .safe ∧ t ≠ 0 ∧ byteAt d 0 ≠ 0 ∧ byteAt d 0 ≠ 2) := fun ⟨hm, ht, _⟩ => ht (hsafe hm)
  unfold runClass
  dsimp only
  rw [if_neg hmode, if_neg (by omega), if_neg (by omega), if_pos hcls, if_pos hown]

/-- A disk class goes to the disk queue (R607). -/
theorem runClass_disk {n t : Nat} {d : Bytes} {y : State} (hsafe : y.supply.mode = .safe → t = 0) (hlo : 0x20 ≤ byteAt d 0)
    (hhi : byteAt d 0 < 0x30) : runClass n t d y = diskSubmit n t d y := by
  have hmode : ¬ (y.supply.mode = .safe ∧ t ≠ 0 ∧ byteAt d 0 ≠ 0 ∧ byteAt d 0 ≠ 2) := fun ⟨hm, ht, _⟩ => ht (hsafe hm)
  unfold runClass
  dsimp only
  rw [if_neg hmode, if_neg (by omega), if_neg (by omega), if_neg (by omega), if_pos ⟨hlo, hhi⟩]

/-- The mode in which a consumable entry is served, as it is when HEAD has passed it (R1008). -/
theorem safe_advanceHead {n p : Nat} {d : Bytes} {s : State} (h : Consumable n p d s) :
    (advanceHead n s).supply.mode = .safe → (s.ring n).owner = 0 := by
  obtain ⟨-, -, -, -, hsafe, -⟩ := h
  rw [show (advanceHead n s).supply = s.supply from (congrArg State.supply (advanceHead_besidesProduction n s) :)]
  exact hsafe

/-- A submission refused at its consumption completes in the paired ring with any status and RESULT. -/
theorem completeSub_refused {n p : Nat} {d : Bytes} {s : State} (h : Consumable n p d s) (cls st tag : Nat) (result : Bytes) :
    Completed p (completeDesc cls st tag 0 0 result s.timebase.now) s
        (completeSub n cls st tag 0 0 result (advanceHead n s)) ∧
      ((completeSub n cls st tag 0 0 result (advanceHead n s)).ring n).head = ((s.ring n).head + 1) % 2 ^ 32 ∧
      (completeSub n cls st tag 0 0 result (advanceHead n s)).besidesProduction = s.besidesProduction := by
  obtain ⟨-, hentry, -, -, -, hn, hp, hpair⟩ := h
  simp only [hasEntry, Bool.and_eq_true, Bool.not_eq_true'] at hentry
  obtain ⟨⟨⟨⟨-, hopen⟩, -⟩, hclosing⟩, -⟩ := hentry
  have hframe := advanceHead_besidesProduction n s
  have hfix := besidesHead_advanceHead n n s
  have hfixp := besidesHead_advanceHead n p s
  obtain ⟨hhead, -⟩ := ring_advanceHead hn s
  generalize advanceHead n s = y at *
  have htail : (y.ring p).tail = (s.ring p).tail := (congrArg Ring.tail hfixp :)
  have hdepth : (y.ring p).depth = (s.ring p).depth := (congrArg Ring.depth hfixp :)
  have hdone := subDone_completeSub (s := y) hn hp ((congrArg Ring.opened hfix :).trans hopen)
    ((congrArg Ring.pair hfix :).trans hpair) ((congrArg Ring.closing hfix :).trans hclosing) cls st tag 0 0 result
  have hcompleted := hdone.completed
  rw [show y.timebase = s.timebase from (congrArg State.timebase hframe :)] at hcompleted
  simp only [Completed, slotAddr, htail, hdepth] at hcompleted
  exact ⟨hcompleted, (hdone.head n).trans hhead, hdone.frame.trans hframe⟩

/-! ### Pins (R131) -/

/-- Pins change the Loft alone. -/
theorem pinAll_eq (l : List Nat) (s : State) : pinAll l s = s.updLoft fun _ => (pinAll l s).loft := by
  have hparts : ({ pinAll l s with loft := {} } : State) = { s with loft := {} } :=
    foldl_keep (fun s : State => ({ s with loft := {} } : State)) _ (fun s i => by unfold pin; split <;> rfl) l s
  generalize pinAll l s = y at *
  cases y
  cases s
  simp only [State.mk.injEq] at hparts
  simp_all [State.updLoft]

/-- What pins leave of the Loft depends on the Loft alone. -/
theorem pinAll_loft_congr {s z : State} (h : z.loft = s.loft) (l : List Nat) : (pinAll l z).loft = (pinAll l s).loft := by
  induction l generalizing s z with
  | nil => exact h
  | cons i l ih =>
    refine ih (s := pin i s) (z := pin i z) ?_
    unfold pin
    split
    · simp [h]
    · exact h

/-- A yealm of the pool is pinned once for each time it is listed. -/
theorem pins_pinAll {i : Nat} (hi : poolIndex i = true) (l : List Nat) (s : State) :
    ((pinAll l s).loft.tag i).pins = (s.loft.tag i).pins + l.count i := by
  induction l generalizing s with
  | nil => rfl
  | cons k l ih =>
    change ((pinAll l (pin k s)).loft.tag i).pins = _
    rw [ih]
    by_cases hk : k = i
    · subst hk
      rw [tag_pin hi, List.count_cons_self]
      simp only
      omega
    · have htag : (pin k s).loft.tag i = s.loft.tag i := by
        unfold pin
        split
        · simp [Loft.tag, Loft.setTag, hk]
        · rfl
      rw [htag, List.count_cons_of_ne hk]

theorem nodup_eraseDups (l : List Nat) : l.eraseDups.Nodup := by
  induction hn : l.length using Nat.strong_induction_on generalizing l with
  | _ n ih =>
    cases l with
    | nil => simp
    | cons a l =>
      rw [List.eraseDups_cons, List.nodup_cons]
      refine ⟨by simp [List.mem_eraseDups], ih _ ?_ _ rfl⟩
      have := List.length_filter_le (fun b => !b == a) l
      simp only [List.length_cons] at hn
      omega

/-! ### NET_SEND (R372, R373) -/

/-- A consumable NET_SEND of the NET owner is submitted. -/
theorem exec_netSend {n : Fin 32} {p : Nat} {d : Bytes} {s : State} (h : Consumable n.val p d s) (hcls : byteAt d 0 = 0x10)
    (hown : s.owner 1 = (s.ring n).owner) :
    exec (.netSend n) s = .next (netSubmit n (s.ring n).owner d (advanceHead n s)) := by
  have hown2 : (advanceHead n s).owner 1 = (s.ring n).owner := by
    rw [← hown]
    exact (congrArg (fun y : State => y.owner 1) (advanceHead_besidesProduction n s) :)
  change execNetSend n s = _
  rw [execNetSend, running_next h.1, consume_eq h (by rw [hcls]; rfl), runClass_net (safe_advanceHead h) hcls hown2]

/-- The frame of a NET_SEND as it waits at its port (Table ETH.2). -/
def netFrame (n t : Nat) (d : Bytes) : TxFrame :=
  { ring := some n, tenant := t, tag := rd d 2 2, flags := byteAt d 1, len := rd d 6 2, handles := netHandles d }

theorem netSend_waits {n : Fin 32} {p : Nat} {d : Bytes} {s : State} (h : Consumable n.val p d s) (hcls : byteAt d 0 = 0x10)
    (hown : s.owner 1 = (s.ring n).owner) (hfields : netFields s (s.ring n).owner d = true)
    (hlink : (s.port (byteAt d 4)).link = true) :
    ∃ z, exec (.netSend n) s = .next z ∧
      (z.port (byteAt d 4)).txq = (s.port (byteAt d 4)).txq ++ [netFrame n (s.ring n).owner d] ∧
      z.loft = (pinAll ((netHandles d).map hIndex) s).loft ∧ (∀ q : Fin 6, q.val ≠ byteAt d 4 → z.port q = s.port q) ∧
      (z.ring n).head = ((s.ring n).head + 1) % 2 ^ 32 ∧ z.loft.mem = s.loft.mem ∧
      KeepsBut [.net, .rings, .loft, .views, .out] s z := by
  have hlt : byteAt d 4 < 6 := by
    simp only [netFields, Bool.and_eq_true, decide_eq_true_eq] at hfields
    omega
  have hexec := exec_netSend h hcls hown
  obtain ⟨hhead, -⟩ := ring_advanceHead n.isLt s
  have hkeep := keepsBut_advanceHead n s
  obtain ⟨v, r, o, hadv⟩ := advanceHead_withRings n s
  rw [hadv] at hexec hhead hkeep
  have hlink2 : ((s.withRings v r o).port (byteAt d 4)).link = true := hlink
  simp only [netSubmit, netFields_withRings, hfields, hlink2, Bool.not_true, Bool.false_eq_true, if_false] at hexec
  rw [pinAll_eq] at hexec
  have hloft : (pinAll ((netHandles d).map hIndex) (s.withRings v r o)).loft = (pinAll ((netHandles d).map hIndex) s).loft :=
    pinAll_loft_congr (s := s) (z := s.withRings v r o) rfl _
  refine ⟨_, hexec, ?_, hloft, fun q hq => ?_, hhead, ?_, ?_⟩
  · rw [port_updPort_self hlt]
    rfl
  · exact port_updPort_ne (Ne.symm hq) _ _
  · exact (congrArg Loft.mem hloft).trans (pinAll_mem ..)
  · exact keepsBut_trans (keepsBut_mono (by decide) hkeep) (by simp [KeepsBut])

/-! ### Disk descriptors (R607 to R619) -/

/-- The yealms that an admitted descriptor pins: its list, its stamps, its data (R617). -/
def diskPins (s : State) (d : Bytes) : List Nat :=
  ((if byteAt d 0 = 0x22 ∨ dFlag d 0 then [] else [hIndex (dHandle d)]) ++
    (if dStamps d = 0 then [] else [hIndex (dStamps d)]) ++ (dHandles s d).map hIndex).eraseDups

theorem nodup_diskPins (s : State) (d : Bytes) : (diskPins s d).Nodup := nodup_eraseDups _

/-- The lock entry of an admitted descriptor that names no key. -/
def diskEntry (n t : Nat) (d : Bytes) (s : State) : DiskCmd :=
  { id := s.diskq.nextId, ring := n, tenant := t, cls := byteAt d 0, tag := rd d 2 2, flags := byteAt d 1, lba := dLba d
    count := dCount d, handles := dHandles s d, stamps := if dFlag d 3 ∨ byteAt d 0 = 0x22 then dStamps d else 0
    hostTag := rd d 20 4, sealSlot := byteAt d 24, xtsSlot := byteAt d 25, pins := diskPins s d, at_ := s.up
    granted := !(s.diskq.cmds.any (conflicts { cls := byteAt d 0, lba := dLba d, count := dCount d })) }

/-- An admitted descriptor that names no key, while no load can start: its entry and its pins. -/
theorem diskSubmit_admitted {n t : Nat} {d : Bytes} {s : State} (hst : diskStatus s t d = none) (hseal : dFlag d 1 = false)
    (hxts : dFlag d 2 = false) (hload : loadable s = false) :
    diskSubmit n t d s = pinAll (diskPins s d)
      (s.updDsk fun q => { q with cmds := q.cmds ++ [diskEntry n t d s], nextId := q.nextId + 1 }) := by
  have hkeys : diskKeys t d s = (St.ok, 0, s) := by simp [diskKeys, hseal, hxts]
  have htake : takeCommand n t d 0 s = autoLoad (pinAll (diskPins s d)
      (s.updDsk fun q => { q with cmds := q.cmds ++ [diskEntry n t d s], nextId := q.nextId + 1 })) := by
    simp only [takeCommand, hseal, hxts, Bool.false_eq_true, if_false]
    rfl
  have hunloaded : ∀ f g, loadable ((s.updDsk f).updLoft g) = false := fun _ _ => hload
  simp only [diskSubmit, hst, hkeys, ne_eq, not_true_eq_false, if_false, htake]
  rw [pinAll_eq, autoLoad, hunloaded]
  rfl

/-- What an admitted descriptor leaves (R612, R613, R617). -/
structure DiskAdmitted (n t : Nat) (d : Bytes) (s z : State) : Prop where
  queue : z.diskq = { s.diskq with cmds := s.diskq.cmds ++ [diskEntry n t d s], nextId := s.diskq.nextId + 1 }
  pins : ∀ i ∈ diskPins s d, poolIndex i = true → (z.loft.tag i).pins = (s.loft.tag i).pins + 1
  mem : z.loft.mem = s.loft.mem
  head : (z.ring n).head = ((s.ring n).head + 1) % 2 ^ 32
  parts : KeepsBut [.diskq, .rings, .loft, .views, .out] s z

theorem diskAdmitted {n t : Nat} {d : Bytes} {s : State} (hn : n < 32) (hst : diskStatus s t d = none)
    (hseal : dFlag d 1 = false) (hxts : dFlag d 2 = false) (hload : loadable s = false) :
    DiskAdmitted n t d s (diskSubmit n t d (advanceHead n s)) := by
  obtain ⟨hhead, -⟩ := ring_advanceHead hn s
  have hkeep := keepsBut_advanceHead n s
  obtain ⟨v, r, o, hadv⟩ := advanceHead_withRings n s
  rw [hadv] at hhead hkeep ⊢
  have hst2 : diskStatus (s.withRings v r o) t d = none := (diskStatus_withRings ..).trans hst
  rw [diskSubmit_admitted hst2 hseal hxts hload]
  generalize hy : (s.withRings v r o).updDsk (fun q =>
    { q with cmds := q.cmds ++ [diskEntry n t d (s.withRings v r o)], nextId := q.nextId + 1 }) = y
  have hloft : (pinAll (diskPins (s.withRings v r o) d) y).loft = (pinAll (diskPins s d) s).loft := by
    have hbase : y.loft = s.loft := by rw [← hy]; rfl
    exact pinAll_loft_congr hbase (diskPins s d)
  rw [pinAll_eq, hloft]
  refine ⟨?_, fun i hi hp => ?_, pinAll_mem .., ?_, ?_⟩
  · subst hy
    rfl
  · change ((pinAll (diskPins s d) s).loft.tag i).pins = _
    rw [pins_pinAll hp, List.count_eq_one_of_mem (nodup_diskPins s d) hi]
  · subst hy
    exact hhead
  · subst hy
    exact keepsBut_trans (keepsBut_mono (by decide) hkeep) (by simp [KeepsBut])

/-- A descriptor that passes every check has right fields (check 3 of Table DSK.3). -/
theorem fields_of_diskStatus {s : State} {t : Nat} {d : Bytes} (h : diskStatus s t d = none) : diskFieldsBad s t d = false := by
  by_contra hbad
  rw [Bool.not_eq_false] at hbad
  simp only [diskStatus, hbad, if_true] at h
  split_ifs at h

/-- HANDLE of a read or write that passes every check names a pool yealm. -/
theorem poolIndex_dHandle {s : State} {t : Nat} {d : Bytes} (h : diskStatus s t d = none) (hcls : byteAt d 0 ≠ 0x22) :
    poolIndex (hIndex (dHandle d)) = true := by
  have hfields := fields_of_diskStatus h
  simp only [diskFieldsBad, Bool.or_eq_false_iff, beq_eq_false_iff_ne.2 hcls, Bool.false_eq_true, if_false,
    Bool.not_eq_false'] at hfields
  obtain ⟨⟨⟨-, hu⟩, -⟩, -⟩ := hfields
  exact poolIndex_of_usable hu

/-- STAMPS of a DISK_STAMP_READ that passes every check names a pool yealm. -/
theorem poolIndex_dStamps {s : State} {t : Nat} {d : Bytes} (h : diskStatus s t d = none) (hcls : byteAt d 0 = 0x22) :
    dStamps d ≠ 0 ∧ poolIndex (hIndex (dStamps d)) = true := by
  have hfields := fields_of_diskStatus h
  have hne : dStamps d ≠ 0 := fun h0 => by simp [diskFieldsBad, hcls, h0] at hfields
  simp only [diskFieldsBad, Bool.or_eq_false_iff, if_neg hne, Bool.not_eq_false'] at hfields
  obtain ⟨⟨-, hu⟩, -⟩ := hfields
  exact ⟨hne, poolIndex_of_usable hu⟩

/-- DIRECT pins the yealm of HANDLE. -/
theorem dHandle_mem_diskPins {s : State} {d : Bytes} (hcls : byteAt d 0 ≠ 0x22) (hf : dFlag d 0 = true) :
    hIndex (dHandle d) ∈ diskPins s d := by
  simp [diskPins, dHandles, hcls, hf, List.mem_eraseDups]

theorem dStamps_mem_diskPins {s : State} {d : Bytes} (hne : dStamps d ≠ 0) : hIndex (dStamps d) ∈ diskPins s d := by
  simp [diskPins, hne, List.mem_eraseDups]

/-- A row that takes its class submits a consumable disk descriptor. -/
theorem exec_disk {c : Instr} {n p : Nat} {ok : Nat → Bool} {d : Bytes} {s : State} (hrow : exec c s = s.running (consume n ok))
    (h : Consumable n p d s) (hok : ok (byteAt d 0) = true) (hlo : 0x20 ≤ byteAt d 0) (hhi : byteAt d 0 < 0x30) :
    exec c s = .next (diskSubmit n (s.ring n).owner d (advanceHead n s)) := by
  rw [hrow, running_next h.1, consume_eq h hok, runClass_disk (safe_advanceHead h) hlo hhi]

/-! What an admitted descriptor leaves of the queue, and its pin of DIRECT. -/

namespace DiskAdmitted
variable {n t : Nat} {d : Bytes} {s z : State} (h : DiskAdmitted n t d s z)
include h

theorem queueFrame : z.diskq = { s.diskq with cmds := z.diskq.cmds, nextId := s.diskq.nextId + 1 } := by rw [h.queue]

theorem entries : z.diskq.cmds.map (fun c => ({ c with pins := [] } : DiskCmd)) =
    s.diskq.cmds.map (fun c => ({ c with pins := [] } : DiskCmd)) ++ [{ diskEntry n t d s with pins := [] }] := by
  rw [h.queue, List.map_append]
  rfl

theorem earlier : z.diskq.cmds.dropLast = s.diskq.cmds := by
  rw [h.queue]
  exact List.dropLast_concat

theorem direct (hst : diskStatus s t d = none) (hcls : byteAt d 0 ≠ 0x22) (hf : dFlag d 0 = true) :
    (z.loft.tag (hIndex (dHandle d))).pins = (s.loft.tag (hIndex (dHandle d))).pins + 1 :=
  h.pins _ (dHandle_mem_diskPins hcls hf) (poolIndex_dHandle hst hcls)

end DiskAdmitted

/-- A consumable DISK_READ that a check refuses completes with its status and its LBA (R611). -/
theorem diskRead_refused {n : Fin 32} {p st : Nat} {d : Bytes} {s : State} (h : Consumable n.val p d s)
    (hcls : byteAt d 0 = 0x20) (hst : diskStatus s (s.ring n).owner d = some st) :
    ∃ z, exec (.diskRead n) s = .next z ∧
      Completed p (completeDesc 0x20 st (rd d 2 2) 0 0 (leBytes 6 (dLba d)) s.timebase.now) s z ∧ z.diskq = s.diskq ∧
      (z.ring n).head = ((s.ring n).head + 1) % 2 ^ 32 ∧ KeepsBut [.rings, .loft, .views, .out] s z := by
  have hst2 : diskStatus (advanceHead n s) (s.ring n).owner d = some st := by
    obtain ⟨v, r, o, hadv⟩ := advanceHead_withRings n s
    rw [hadv, diskStatus_withRings, hst]
  have hexec : exec (.diskRead n) s = .next (completeSub n 0x20 st (rd d 2 2) 0 0 (leBytes 6 (dLba d)) (advanceHead n s)) := by
    rw [exec_disk rfl h (by rw [hcls]; rfl) (by omega) (by omega)]
    simp only [diskSubmit, hst2, hcls]
  obtain ⟨hdone, hhead, hframe⟩ := completeSub_refused h 0x20 st (rd d 2 2) (leBytes 6 (dLba d))
  exact ⟨_, hexec, hdone, (congrArg State.diskq hframe :), hhead, keepsBut_of_besidesProduction hframe⟩

/-- Settles O44: NET_SEND by `netSend_waits` and `completeSub_refused`, an admitted disk descriptor by `diskAdmitted`, a
refused one by `diskRead_refused`. -/
theorem submissionsEnterTheirQueues : Obligations.SubmissionsEnterTheirQueues := by
  unfold Obligations.SubmissionsEnterTheirQueues
  refine ⟨fun n p d s h hcls hown hfields hlink => netSend_waits h hcls hown hfields hlink,
    fun n p d s h hcls hown hfields hlink => ?_, fun n p d s h hcls hst hseal hxts hload => ?_,
    fun n p d s h hcls hst hseal hxts hload => ?_, fun n p d s h hcls hst hseal hxts hload => ?_,
    fun n p st d s h hcls hst _ => diskRead_refused h hcls hst⟩
  · obtain ⟨hdone, hhead, hframe⟩ := completeSub_refused h 0x10 St.notReady (rd d 2 2) []
    refine ⟨_, (exec_netSend h hcls hown).trans ?_, hdone, hhead, keepsBut_of_besidesProduction hframe⟩
    obtain ⟨v, r, o, hadv⟩ := advanceHead_withRings n s
    have hlink2 : ((s.withRings v r o).port (byteAt d 4)).link = false := hlink
    simp only [hadv, netSubmit, netFields_withRings, hfields, hlink2, Bool.not_true, Bool.not_false, Bool.false_eq_true,
      if_false, if_true]
  · have hz := diskAdmitted n.isLt hst hseal hxts hload
    exact ⟨_, exec_disk rfl h (by rw [hcls]; rfl) (by omega) (by omega), hz.queueFrame,
      by rw [hz.entries]; simp [diskEntry, hcls], hz.earlier, hz.direct hst (by omega), hz.mem, hz.head, hz.parts⟩
  · have hz := diskAdmitted n.isLt hst hseal hxts hload
    exact ⟨_, exec_disk rfl h (by rw [hcls]; rfl) (by omega) (by omega), hz.queueFrame,
      by rw [hz.entries]; simp [diskEntry, hcls], hz.earlier, hz.direct hst (by omega), hz.mem, hz.head, hz.parts⟩
  · have hz := diskAdmitted n.isLt hst hseal hxts hload
    obtain ⟨hne, hpool⟩ := poolIndex_dStamps hst hcls
    exact ⟨_, exec_disk rfl h (by rw [hcls]; rfl) (by omega) (by omega), hz.queueFrame,
      by rw [hz.entries]; simp [diskEntry, hcls], hz.earlier, hz.pins _ (dStamps_mem_diskPins hne) hpool, hz.mem, hz.head,
      hz.parts⟩

end Sys2Proof.Machine
end
